-- ==== Sys2Proof/Word.lean ====
section
/-!
DEFINITION. The word types of the model and their plainest arithmetic: bytes, little-endian numbers (R12), signed
readings, rounding and the saturating count of R505.
-/
namespace Sys2Proof

/-- One byte. -/
abbrev Byte := BitVec 8

/-- The `n` bytes of `v`, least significant first (R12); the value is taken modulo 2^(8n). -/
def leBytes : Nat → Nat → List Byte
  | 0, _ => []
  | n + 1, v => BitVec.ofNat 8 v :: leBytes n (v / 256)

/-- The number a little-endian byte list spells (R12). -/
def ofLe : List Byte → Nat
  | [] => 0
  | b :: bs => b.toNat + 256 * ofLe bs

/-- A signed reading of the low `w` bits of `v`. -/
def asSigned (w v : Nat) : Int :=
  if v % 2 ^ w < 2 ^ (w - 1) then (v % 2 ^ w : Nat) else (v % 2 ^ w : Nat) - (2 ^ w : Nat)

/-- The unsigned `w`-bit pattern of an integer. -/
def pattern (w : Nat) (v : Int) : Nat := (v % (2 ^ w : Nat)).toNat

/-- The `n` bytes of a signed value, least significant first. -/
def leBytesI (n : Nat) (v : Int) : List Byte := leBytes n (pattern (8 * n) v)

/-- Quotient rounded to nearest, halves away from zero (R89, R212); `0` for a zero divisor. -/
def roundDiv (a b : Int) : Int :=
  if b = 0 then 0
  else
    let q := (2 * a.natAbs + b.natAbs) / (2 * b.natAbs)
    if (a < 0) = (b < 0) then (q : Int) else -(q : Int)

/-- `v` limited to `lo` to `hi`. -/
def clampI (lo hi v : Int) : Int := if v < lo then lo else if hi < v then hi else v

/-- Quotient rounded up. -/
def ceilDiv (a b : Nat) : Nat := if b = 0 then 0 else (a + b - 1) / b

/-- One bit as a number. -/
def bit (b : Bool) : Nat := if b then 1 else 0

/-- A number from a list of bits, bit 0 first. -/
def ofBits : List Bool → Nat
  | [] => 0
  | b :: bs => bit b + 2 * ofBits bs

/-- A 32-bit event count that saturates, with its overflow sticky bit (R505). -/
structure Count where
  val : BitVec 32 := 0
  ovf : Bool := false
  deriving DecidableEq, Repr

/-- A count grows by `k`; at saturation it holds its maximum and the sticky bit sets (R505). -/
def Count.add (c : Count) (k : Nat) : Count :=
  if c.val.toNat + k < 2 ^ 32 - 1 then { c with val := c.val + BitVec.ofNat 32 k }
  else if k = 0 then c else { val := 0xFFFFFFFF, ovf := true }

def Count.inc (c : Count) : Count := c.add 1

/-- The count as a number. -/
def Count.n (c : Count) : Nat := c.val.toNat

/-- The four bytes of a count. -/
def Count.bytes (c : Count) : List Byte := leBytes 4 c.n

/-- Element `i` of a table, or `d` beyond its end. -/
def at' {α : Type} (l : List α) (i : Nat) (d : α) : α := l.getD i d

/-- A table with element `i` changed by `f`; unchanged beyond its end. -/
def modAt {α : Type} : List α → Nat → (α → α) → List α
  | [], _, _ => []
  | x :: xs, 0, f => f x :: xs
  | x :: xs, i + 1, f => x :: modAt xs i f

/-- A table whose every element is changed by `f` of its index. -/
def mapIdxFrom {α β : Type} (f : Nat → α → β) : Nat → List α → List β
  | _, [] => []
  | k, x :: xs => f k x :: mapIdxFrom f (k + 1) xs

/-- A table whose every element is changed by `f` of its index, counted from 0. -/
def mapIx {α β : Type} (f : Nat → α → β) (l : List α) : List β := mapIdxFrom f 0 l

end Sys2Proof
end

