-- ==== Sys2Proof/Syntax.lean ====
section
/-!
DEFINITION. The commands of the VM192 and VM96 block: one constructor of `Instr` per row of spec/opcode_table.json, and
the operand types. A command of the Mborid Command Interface carries its request: the mailbox it came from, its
sequence and its payload bytes (R50). An event of the hardware carries what was measured or received.
-/
namespace Sys2Proof

/-- The path a host access takes (R43, R49). -/
inductive Path where
  | pcie | spi
  deriving DecidableEq, Repr

/-- A request as an MCI command receives it (R50): mailbox 0 to 7, or 255 for the urgent mailbox. -/
structure Req where
  mailbox : Nat
  seq     : BitVec 16
  payload : List Byte
  deriving DecidableEq, Repr

/-- The register windows that a plain host write reaches (R42, R294), and the Message Control of the MSI-X capability, to
which R45 refers. -/
inductive RegWindow where
  | bar0 | hst | msix
  deriving DecidableEq, Repr

/-- A transition of an input: the level after it, and how long that level lasts, in the source's DEGLITCH unit (R84). -/
structure PinEdge where
  level : Bool
  held  : Nat
  deriving DecidableEq, Repr

/-- What an input edge is (R80, R84, R85): a transition of a single input; a sample of an encoder in which A, B or both
change; a transition of an encoder's Z; or the end of a Frame Start packet, which is no level. -/
inductive EdgeKind where
  | level (p : PinEdge)
  | quad (a b : Option PinEdge)
  | index (p : PinEdge)
  | frame
  deriving DecidableEq, Repr

/-- An edge at a ball: its kind, and its stamp corrected to the ball in ticks (R83). -/
structure EdgeIn where
  kind  : EdgeKind
  stamp : BitVec 64
  deriving DecidableEq, Repr

/-- A unit of commitment (R143): a facet sweep of a station, by the beam-detect count that starts it, or a vector
record of a head, by its SEQUENCE. -/
inductive UnitId where
  | sweep (station : Nat) (n : Nat)
  | vector (head : Nat) (seqNo : Nat)
  deriving DecidableEq, Repr

/-- A lane event of a plan before it is queued (R145): which event of which unit it is. -/
inductive PlanEvent where
  | pixel (n i : Nat)              -- Press: emission index i of sweep n (R178)
  | lead (n i : Nat)               -- Press: i-th pixel of the lead firing around edge n (R170)
  | slot (n j i : Nat)             -- Press: i-th pixel of slot j around edge n (R170)
  | search (i : Nat)               -- Press: search firing, anchored to device time (R172)
  | setpoint (seqNo k : Nat)       -- Forge: k-th set-point, lanes 2 and 3 (R218)
  | emission (seqNo : Nat) (on : Bool) -- Forge: emission on or off, lanes 0 and 1 (R218)
  | power (seqNo k : Nat)          -- Forge: k-th MELTPOOL power event, lane 0 (R218)
  | trigger (seqNo : Nat) (rise : Bool) -- Forge: lane 7 (R220)
  | arm                            -- Forge: lanes 4, 5 and 6 at arm (R220)
  | move (k : Nat)                 -- Forge: k-th set-point of a park jump or a jog (R220)
  deriving DecidableEq, Repr

/-- A CSI-2 long packet as it is received: the header word, the payload and the checksum (R274). -/
structure CamPacket where
  header  : BitVec 32
  payload : List Byte
  crc     : BitVec 16
  deriving DecidableEq, Repr

/-- The owner of a tile (R300). -/
inductive TileOwner where
  | free
  | station (i : Nat)
  | head (i : Nat)
  deriving DecidableEq, Repr

/-- The header fields with which the firmware opens a fill (R300, R305). -/
structure FillHdr where
  pageId : BitVec 32
  owner  : TileOwner
  column : BitVec 8
  origin : BitVec 16
  deriving DecidableEq, Repr

/-- Who reads Lagoon (R310): a lane fetch, a trajectory generator, or another fabric read of a class. -/
inductive LagoonReader where
  | lane
  | generator
  | admission
  | transfer
  deriving DecidableEq, Repr

/-- A DRAM request (R318, R326): its address, its length, its requester ID (R330), the data of a write, and how many
bits of its first word the cells have lost. -/
structure DramReq where
  addr      : Nat
  len       : Nat
  requester : Nat
  data      : Option (List Byte)
  upset     : Nat
  deriving DecidableEq, Repr

/-- Why a merge-buffer entry is written out (R324). -/
inductive MergeWhy where
  | complete | aged | evicted | read
  deriving DecidableEq, Repr

/-- The image sources of R498. -/
inductive BootSource where
  | slotA | slotB | push
  deriving DecidableEq, Repr

/-- What a word of OTP reads after its programming (R484): at the normal and at the margin reference, and whether some of its
bits were programmed a second time. -/
structure BurnRead where
  normal : BitVec 32
  margin : BitVec 32
  again  : Bool
  deriving DecidableEq, Repr

/-- Why a back-channel message is not taken (R141). -/
inductive BadMessage where
  | crc | unknownType | notAllowed
  deriving DecidableEq, Repr

/-- A slot of the sync bus as it arrives (R105): its bits, and how many sub-ticks late against its place in the frame. -/
structure SlotIn where
  bits : BitVec 200
  late : Nat
  deriving DecidableEq, Repr

/-- What the supervisor sees of a rail (R427): its monitor's code and its power-good input. -/
structure RailSense where
  vmon : Nat
  pg   : Bool
  deriving DecidableEq, Repr

/-- A reading of MOTm_ISNS in millivolts (R377). -/
structure CurrentSense where
  motor : Nat
  mv    : Nat
  deriving DecidableEq, Repr

/-- Why the chopper of a bus group is judged failed (R378): by its feedback, or by staying on. -/
structure ChopperFail where
  group    : Nat
  feedback : Bool
  deriving DecidableEq, Repr

/-- The commands and events of the device, one per row of spec/opcode_table.json. -/
inductive Instr where
  /-- REQUEST_DOORBELL (R47): The host writes MBX_REQ_PI_p, which submits the messages written into the request slots of mailbox pair p. -/
  | requestDoorbell (path : Path) (p : Nat) (value : BitVec 32)
  /-- REQUEST_CONSUME (R52): The firmware consumes a request, checks its header, CRC, version, sequence, session and outstanding count, advances REQ_CI and dispatches the command. -/
  | requestConsume (p : Nat)
  /-- REPLY_POST (R48): The device writes a reply or completion into the next reply slot once the reply ring has room, advances RPL_PI and signals the mailbox vector. -/
  | replyPost (p : Nat)
  /-- REPLY_CI_ADVANCE (R48): The host writes MBX_RPL_CI_p after reading replies, freeing reply slots for waiting replies and events. -/
  | replyCiAdvance (p : Nat) (value : BitVec 32)
  /-- EVENT_POST (R73): An unsolicited event is queued for the reply ring of mailbox 7, holding up to 256 pending events. -/
  | eventPost (code : BitVec 16) (payload : List Byte)
  /-- MCI_REPLY_LATE (R71): The 2 s reply bound expires without a reply and fault source 0x0000 is raised. -/
  | mciReplyLate (p : Nat) (seq : BitVec 16)
  /-- SESSION_IDLE_TIMEOUT (R60): The idle timeout of an expert session expires and the session ends. -/
  | sessionIdleTimeout (p : Nat)
  /-- URGENT_GO (R63): The host writes 1 to MBX_URG_CTRL.GO, submitting the urgent request slot to the supervisor core. -/
  | urgentGo (value : BitVec 32)
  /-- URGENT_REPLY_POST (R65): The supervisor core posts the urgent reply, sets DONE and signals vector 0. -/
  | urgentReplyPost
  /-- MSIX_VECTOR_UNMASK (R45): The host unmasks an MSI-X vector whose pending bit is set, which sends the message and clears the bit. -/
  | msixVectorUnmask (v : Nat)
  /-- REGISTER_WRITE (R14): A host write to a register or slot with no behaviour of its own updates its fields by their types. -/
  | registerWrite (path : Path) (win : RegWindow) (offset : Nat) (data : List Byte)
  /-- HOST_LINK_RESET (R37): A PCIe hot reset, link down or function-level reset resets the endpoint, BAR0 window and sessions and aborts active pages and layers. -/
  | hostLinkReset
  /-- HELLO (R55): HELLO negotiates the MCI version of a mailbox and sets its expected sequence. -/
  | hello (rq : Req)
  /-- CORE_INFO (R2): core.info returns the device identity, sizes, counts and device time. -/
  | coreInfo (rq : Req)
  /-- CORE_PING (R70): core.ping echoes its payload. -/
  | corePing (rq : Req)
  /-- CORE_RESET (R35): core.reset gates all lanes, replies, and schedules a device reset 1 ms later. -/
  | coreReset (rq : Req)
  /-- CORE_SESSION_OPEN (R60): core.session.open opens an expert session on the mailbox. -/
  | coreSessionOpen (rq : Req)
  /-- CORE_SESSION_CLOSE (R60): core.session.close ends the expert session of the mailbox. -/
  | coreSessionClose (rq : Req)
  /-- CORE_VLOG_READ (R62): core.vlog.read returns held violation log entries from FIRST. -/
  | coreVlogRead (rq : Req)
  /-- URGENT_STOP (R66): urgent.stop sets the latched urgent gate on the named links. -/
  | urgentStop (rq : Req)
  /-- URGENT_HALT (R66): urgent.halt raises fault source 0x0020 URG_HOST_HALT of class STOP. -/
  | urgentHalt (rq : Req)
  /-- URGENT_RELEASE (R66): urgent.release removes the urgent gate from the named links. -/
  | urgentRelease (rq : Req)
  /-- TIMEBASE_SOURCE_SET (R92): timebase.source.set enables a source afresh in ACQUIRE or disables it, with its filter and profile settings. -/
  | timebaseSourceSet (rq : Req)
  /-- TIMEBASE_SOURCE_STATUS (R87): timebase.source.status returns the state, phase and counts of a source. -/
  | timebaseSourceStatus (rq : Req)
  /-- TIMEBASE_SYNC_CONFIG (R107): timebase.sync.config makes the device standalone, master or a joining peer of a sync domain. -/
  | timebaseSyncConfig (rq : Req)
  /-- TIMEBASE_FILTER_RAW (R91): timebase.filter.raw sets raw gains, tolerance and state limits taking effect at the source's next edge. -/
  | timebaseFilterRaw (rq : Req)
  /-- EDGE_CAPTURE (R83): An input edge that survives DEGLITCH is stamped to the ball and placed in the source's capture FIFO. -/
  | edgeCapture (source : Nat) (e : EdgeIn)
  /-- TRACKER_EDGE_UPDATE (R89): The tracker takes an edge from the FIFO, computes the prediction error and updates N, T_N and P. -/
  | trackerEdgeUpdate (source : Nat)
  /-- SOURCE_LOST_TIMEOUT (R92): No edge arrives for LOST_INTERVALS periods after the predicted edge, and the source enters LOST or STILL. -/
  | sourceLostTimeout (source : Nat)
  /-- SYNC_FRAME_START (R105): A sync bus frame starts and the device transmits its slot. -/
  | syncFrameStart
  /-- SYNC_SLOT_RECEIVE (R106): A slot is received, checked and applied to remote sources, time comparison or join state. -/
  | syncSlotReceive (dev : Nat) (slot : SlotIn)
  /-- SYNC_MASTER_SILENT (R110): The master is not heard for 3 frames and the peer enters holdover. -/
  | syncMasterSilent
  /-- SYNC_PEER_SILENT (R110): A joined peer is silent for 3 frames and its remote sources enter HOLDOVER. -/
  | syncPeerSilent (dev : Nat)
  /-- SYNC_JOIN_MEASURE (R108): After a TYPE 1 frame the joining peer measures its offset and steps, slews or fails. -/
  | syncJoinMeasure (offset : Int)
  /-- SYNC_JOIN_ECHO (R107): The joining peer echoes the next frame start in its slot for the delay measurement. -/
  | syncJoinEcho
  /-- SYNC_JOIN_DEADLINE (R107): A join not complete 10 ms after acceptance ends FAILED. -/
  | syncJoinDeadline
  /-- LANE_MAP (R116): lane.map assigns links to a Press station in beam order. -/
  | laneMap (rq : Req)
  /-- LINK_CONFIG (R129): link.config enables, retrains or disables a link and sets its LEAD, TRIM and BLP_MAX. -/
  | linkConfig (rq : Req)
  /-- LINK_STATUS (R133): link.status returns a link's state, gate causes and counts. -/
  | linkStatus (rq : Req)
  /-- LANE_GATE_RELEASE (R138): lane.gate.release releases links whose causes are clear at one release time. -/
  | laneGateRelease (rq : Req)
  /-- LINK_CONFIG_RAW (R131): link.config.raw sets swing, de-emphasis and a D override. -/
  | linkConfigRaw (rq : Req)
  /-- GATE_RELEASE_AT (R138): Device time reaches RELEASE_AT and the released lanes open. -/
  | gateReleaseAt (link : Nat)
  /-- COMMA_LOCK (R129): The back-channel receiver locks to commas and training sends CAP. -/
  | commaLock (link : Nat)
  /-- CAP_REPLY_RECEIVE (R129): A CAP reply arrives, the version is chosen and VERSION_SET is sent. -/
  | capReplyReceive (link : Nat) (payload : List Byte)
  /-- ACK_RECEIVE (R127): An ACK of a GATE, UNGATE or VERSION_SET word arrives and training or gating proceeds. -/
  | ackReceive (link : Nat) (ctype : BitVec 8) (payload : BitVec 40)
  /-- PROBE_ECHO_RECEIVE (R131): A PROBE echo arrives; after 16 the one-way delay and D are computed and the link comes UP. -/
  | probeEchoReceive (link : Nat) (payload : BitVec 40) (roundTrip : Nat)
  /-- TELEMETRY_RECEIVE (R128): A TELEMETRY message is stamped and its values passed to Delta, thermal supervision and Strait. -/
  | telemetryReceive (link : Nat) (payload : List Byte)
  /-- STATUS_RECEIVE (R140): A STATUS message reports forward lock lost, partner fault or late events. -/
  | statusReceive (link : Nat) (bits : Byte)
  /-- BACKCHANNEL_CODE_ERROR (R141): An invalid 8b/10b code or disparity error is counted as a link violation. -/
  | backchannelCodeError (link : Nat)
  /-- RESYNC_RELOCK (R139): The back-channel receiver re-locks to commas after a resynchronisation. -/
  | resyncRelock (link : Nat)
  /-- ACK_TIMEOUT (R141): No ACK arrives 2 µs after GATE, UNGATE or VERSION_SET, and the word is resent. -/
  | ackTimeout (link : Nat)
  /-- CAP_REPLY_TIMEOUT (R141): No CAP reply arrives within 10 µs and the link is not brought up. -/
  | capReplyTimeout (link : Nat)
  /-- TELEMETRY_TIMEOUT (R141): Three telemetry periods pass without TELEMETRY and the values are marked stale. -/
  | telemetryTimeout (link : Nat)
  /-- COMMA_LOSS_TIMEOUT (R140): No back-channel comma is seen for 10 µs and the link goes down. -/
  | commaLossTimeout (link : Nat)
  /-- LINK_TRAIN_DEADLINE (R129): Training is not complete 1 ms after link.config and the link-up fails. -/
  | linkTrainDeadline (link : Nat)
  /-- LINK_RETRAIN_TIMER (R140): 10 ms after a link goes down the firmware retrains it, up to 3 attempts. -/
  | linkRetrainTimer (link : Nat)
  /-- VIOLATION_WINDOW_START (R139): A 1 ms link violation window begins and the window counts restart. -/
  | violationWindowStart
  /-- TIMESYNC_SEND (R124): Every 4,096 blocks the transmitter sends a TIMESYNC control block. -/
  | timesyncSend (link : Nat)
  /-- KEEPALIVE_SEND (R124): A span of 256 blocks without a control block is closed by a KEEPALIVE. -/
  | keepaliveSend (link : Nat)
  /-- GATE_WORD_REPEAT (R134): Every 64 blocks a gated link repeats its GATE word. -/
  | gateWordRepeat (link : Nat)
  /-- NSTOP_FALL (R135): nSTOP falls, setting gate cause 0 on all links in hardware. -/
  | nstopFall (widthNs : Nat)
  /-- NSTOP_RISE (R135): nSTOP rises for long enough and gate cause 0 clears. -/
  | nstopRise (widthNs : Nat)
  /-- EVENT_QUEUE (R145): A lane sequencer queues an event for its link, fixing its stamp from the current filter state. -/
  | eventQueue (lane : Nat) (e : PlanEvent)
  /-- WEIR_HANDOFF (R125): Device time reaches an event's compensated stamp minus LEAD and the Weir hands it to its link. -/
  | weirHandoff (lane : Nat)
  /-- RUNAHEAD_CONFIG (R149): runahead.config sets the window and REEXPAND_MARGIN of a station or head. -/
  | runaheadConfig (rq : Req)
  /-- RUNAHEAD_STATUS (R152): runahead.status returns window depth and rollback counts. -/
  | runaheadStatus (rq : Req)
  /-- RUNAHEAD_ROLLBACK_FORCE (R152): runahead.rollback.force triggers a rollback with code 6 on the named links. -/
  | runaheadRollbackForce (rq : Req)
  /-- FORGE_VECTOR_ADMIT (R147): A vector whose start lies within the head's window is admitted. -/
  | forgeVectorAdmit (head : Nat)
  /-- TILE_ADMISSION_CHECK_DONE (R150): A tile's CRC check at admission completes, marking it VERIFIED or failing it. -/
  | tileAdmissionCheckDone (handle : Nat)
  /-- ROLLBACK_COMPLETE (R156): A rollback finishes and the Weir resumes and rebuilds the window. -/
  | rollbackComplete (durationNs : Nat)
  /-- ROLLBACK_OVERTIME (R156): A rollback not complete 5 µs after its trigger raises RA_RB_OVERTIME. -/
  | rollbackOvertime
  /-- UNIT_READY (R158): A unit re-admitted after rollback becomes ready and may commit. -/
  | unitReady (u : UnitId)
  /-- PRESS_STATION_CONFIG (R166): press.station.config sets a station's geometry, beam detect and Delta parameters. -/
  | pressStationConfig (rq : Req)
  /-- PRESS_BEAM_TABLE (R180): press.beam.table loads per-beam skews for the next page. -/
  | pressBeamTable (rq : Req)
  /-- PRESS_PIXEL_TABLE (R175): press.pixel.table loads the pixel-code table for the next page. -/
  | pressPixelTable (rq : Req)
  /-- PRESS_DELTA_TABLE (R183): press.delta.table starts loading the PAIR and SINGLE tables from memory. -/
  | pressDeltaTable (rq : Req)
  /-- PRESS_DELTA_TABLE_LOADED (R183): The Delta tables have been read and checked and the completion is posted. -/
  | pressDeltaTableLoaded (station : Nat) (host : List Byte)
  /-- PRESS_DELTA_STATUS (R184): press.delta.status returns dead and uncovered beams and counts. -/
  | pressDeltaStatus (rq : Req)
  /-- PRESS_DELTA_CLEAR (R182): press.delta.clear returns the named beams to live. -/
  | pressDeltaClear (rq : Req)
  /-- PRESS_STATION_STATUS (R187): press.station.status returns sweep counts, factors and line counts. -/
  | pressStationStatus (rq : Req)
  /-- PRESS_BEAM_FORCE_DEAD (R182): press.beam.force.dead declares the named beams dead at once. -/
  | pressBeamForceDead (rq : Req)
  /-- ARMED_JOB_NO_TRACK (R199): An ARMED job whose first sweep is not committed when P reaches B lines ends ABORTED. -/
  | armedJobNoTrack (station : Nat)
  /-- PRESS_MEDIA_CONFIG (R193): press.media.config sets the pacing, top and check sources and station offsets. -/
  | pressMediaConfig (rq : Req)
  /-- PRESS_PAGE_SUBMIT (R202): press.page.submit checks a band list and queues a page job on a station. -/
  | pressPageSubmit (rq : Req)
  /-- PRESS_PAGE_ABORT (R163): press.page.abort removes queued jobs and aborts active ones at their abort point. -/
  | pressPageAbort (rq : Req)
  /-- PRESS_INTERLOCK_ASSIGN (R203): press.interlock.assign gives a GPI input a Press role. -/
  | pressInterlockAssign (rq : Req)
  /-- PRESS_BIAS_CONFIG (R206): press.bias.config configures an HV bias channel. -/
  | pressBiasConfig (rq : Req)
  /-- PRESS_FUSER_CONFIG (R208): press.fuser.config configures a fuser heater and clears its trip latch. -/
  | pressFuserConfig (rq : Req)
  /-- PRESS_BIAS_RAW (R206): press.bias.raw drives a raw duty on a bias channel. -/
  | pressBiasRaw (rq : Req)
  /-- GPI_INPUT_EDGE (R203): A GPI interlock input changes level and its debounce starts. -/
  | gpiInputEdge (input : Nat) (level : Bool)
  /-- INTERLOCK_DEBOUNCE_EXPIRY (R203): An input stays stable for DEBOUNCE, changes state and applies or removes its role. -/
  | interlockDebounceExpiry (input : Nat)
  /-- BIAS_RANGE_TIMEOUT (R207): A bias readback stays out of tolerance for 5 ms and PP_BIAS_RANGE is raised. -/
  | biasRangeTimeout (channel : Nat)
  /-- HEATER_DECISION (R208): 500 µs before a predicted zero crossing hardware decides whether the heater fires. -/
  | heaterDecision (heater : Nat) (crossing : Nat)
  /-- HEATER_GATE_PULSE (R208): A fired half-cycle receives its gate pulse at the zero crossing plus TRIGGER_DELAY. -/
  | heaterGatePulse (heater : Nat)
  /-- FUSER_TEMP_READ (R210): The fuser temperature input is read every 1 ms and judged against the trips. -/
  | fuserTempRead (heater : Nat) (counts : Nat)
  /-- FORGE_HEAD_CONFIG (R212): forge.head.config sets a head's geometry, rate, power and limits. -/
  | forgeHeadConfig (rq : Req)
  /-- FORGE_PROGRAM_LOAD (R216): forge.program.load starts the check of a scan program into a slot. -/
  | forgeProgramLoad (rq : Req)
  /-- FORGE_PROGRAM_CHECK_DONE (R216): The program check ends and reports the first failing rule or a pass. -/
  | forgeProgramCheckDone (slot : Nat)
  /-- FORGE_LAYER_RECOAT (R228): forge.layer.recoat runs the platform move and then the recoater move. -/
  | forgeLayerRecoat (rq : Req)
  /-- RECOAT_TIMEOUT (R228): The recoat does not finish within TIMEOUT_MS and ends FAILED. -/
  | recoatTimeout
  /-- FORGE_LAYER_ARM (R227): forge.layer.arm binds a checked program, jumps heads to park and sets focus and auxiliaries. -/
  | forgeLayerArm (rq : Req)
  /-- FORGE_LAYER_EXPOSE (R227): forge.layer.expose starts exposing the armed layer at START_AT. -/
  | forgeLayerExpose (rq : Req)
  /-- FORGE_LAYER_PAUSE (R229): forge.layer.control with ACTION 0 pauses each head at its next vector commit. -/
  | forgeLayerPause (rq : Req)
  /-- FORGE_LAYER_RESUME (R229): forge.layer.control with ACTION 1 releases held heads at RESUME_AT. -/
  | forgeLayerResume (rq : Req)
  /-- FORGE_LAYER_ABORT (R230): forge.layer.control with ACTION 2 aborts the layer. -/
  | forgeLayerAbort (rq : Req)
  /-- FORGE_LAYER_STATUS (R227): forge.layer.status returns the layer and head state. -/
  | forgeLayerStatus (rq : Req)
  /-- FORGE_INTERLOCK_ASSIGN (R231): forge.interlock.assign gives a GPI input a Forge role. -/
  | forgeInterlockAssign (rq : Req)
  /-- FORGE_HEAD_JOG (R212): forge.head.jog jumps a head to a point with emission off. -/
  | forgeHeadJog (rq : Req)
  /-- FENCE_TIMEOUT (R221): A fence wait exceeds FENCE_TIMEOUT and the layer aborts. -/
  | fenceTimeout (head : Nat)
  /-- GRACE_EXPIRY (R231): A GAS_OK or O2_OK condition lasts GRACE_MS and gate cause 2 is set on the heads. -/
  | graceExpiry (input : Nat)
  /-- FORGE_STRAIT_CONFIG (R234): forge.strait.config sets flow, capsule, wait and unexecuted-list parameters. -/
  | forgeStraitConfig (rq : Req)
  /-- FORGE_STRAIT_STATUS (R236): forge.strait.status returns a head's token and Strait counts. -/
  | forgeStraitStatus (rq : Req)
  /-- FORGE_STRAIT_RETIRE (R241): forge.strait.retire retires the named heads. -/
  | forgeStraitRetire (rq : Req)
  /-- FORGE_MELTPOOL_CONFIG (R251): forge.meltpool.config binds a head's melt-pool input and loop. -/
  | forgeMeltpoolConfig (rq : Req)
  /-- FORGE_MELTPOOL_STATUS (R250): forge.meltpool.status returns g, the last winner and counts. -/
  | forgeMeltpoolStatus (rq : Req)
  /-- FORGE_PERMIT_CONFIG (R247): forge.permit.config sets the permit strings and dwell. -/
  | forgePermitConfig (rq : Req)
  /-- FORGE_POWER_CAP (R250): forge.power.cap sets POWER_CAP for vectors admitted later. -/
  | forgePowerCap (rq : Req)
  /-- FORGE_MELTPOOL_RAW (R250): forge.meltpool.raw forces or releases g of a head. -/
  | forgeMeltpoolRaw (rq : Req)
  /-- STRAIT_CHECK (R236): Every 1 µs Strait checks due vector starts against all capsules and clears or blocks them. -/
  | straitCheck
  /-- STRAIT_WAIT_MAX_EXPIRY (R238): A due vector has waited WAIT_MAX and its head enters LONG_WAIT. -/
  | straitWaitMaxExpiry (head : Nat)
  /-- STRAIT_TIMEOUT_EXPIRY (R238): A wait reaches STRAIT_TIMEOUT and FO_STRAIT_TIMEOUT of class STOP is raised. -/
  | straitTimeoutExpiry (head : Nat)
  /-- PLUME_HOLD_EXPIRY (R233): PLUME_HOLD after emission off ends and the ACTIVE token is released. -/
  | plumeHoldExpiry (head : Nat)
  /-- STRAIT_REASSIGNMENT_ISSUE (R245): The firmware issues reassignment of a retired head's vectors as a rollback with code 4. -/
  | straitReassignmentIssue
  /-- MELTPOOL_SIGNAL_LOST (R252): The photodiode mean stays below DARK_MIN for SIGNAL_LOST and the loop is held. -/
  | meltpoolSignalLost (head : Nat)
  /-- CAMERA_FEATURE_STALE (R249): A camera feature grows older than STALE, holding the loop and raising FO_CAMERA_STALE. -/
  | cameraFeatureStale (head : Nat)
  /-- CONTROL_RECIPE_LOAD (R271): control.recipe.load starts checking and loading a recipe image. -/
  | controlRecipeLoad (rq : Req)
  /-- CONTROL_RECIPE_LOAD_DONE (R271): The recipe load completes and its records take effect at their next evaluations. -/
  | controlRecipeLoadDone
  /-- CONTROL_PID_SET (R272): control.pid.set compiles a PID loop into one stage. -/
  | controlPidSet (rq : Req)
  /-- CONTROL_LOOP_BIND (R256): control.loop.bind binds a slot or group input and output. -/
  | controlLoopBind (rq : Req)
  /-- CONTROL_LOOP_SET (R263): control.loop.set enables, disables, resets or sets the reference of a slot. -/
  | controlLoopSet (rq : Req)
  /-- CONTROL_GROUP_SET (R264): control.group.set forms or dissolves a min-select group. -/
  | controlGroupSet (rq : Req)
  /-- CONTROL_LOOP_STATUS (R257): control.loop.status returns a slot's output, error, flags and counts. -/
  | controlLoopStatus (rq : Req)
  /-- CONTROL_REPCTL_STATUS (R266): control.repctl.status returns a repetitive controller's mode and counts. -/
  | controlRepctlStatus (rq : Req)
  /-- CONTROL_VAR_WRITE (R256): control.var.write writes an engine variable. -/
  | controlVarWrite (rq : Req)
  /-- CONTROL_STAGE_RAW (R258): control.stage.raw loads a raw stage record keeping states. -/
  | controlStageRaw (rq : Req)
  /-- CONTROL_REPCTL_TABLE_READ (R266): control.repctl.table with DIRECTION 0 copies a controller table to memory. -/
  | controlRepctlTableRead (rq : Req)
  /-- CONTROL_REPCTL_TABLE_WRITE (R268): control.repctl.table with DIRECTION 1 loads a controller table from memory. -/
  | controlRepctlTableWrite (rq : Req)
  /-- CONTROL_REPCTL_TABLE_DONE (R266): A repetitive-controller table transfer completes. -/
  | controlRepctlTableDone (k : Nat) (host : List Byte)
  /-- LOOP_EVALUATION (R260): At its scheduled tick a loop slot latches inputs, computes its output, decides holds and delivers. -/
  | loopEvaluation (slot : Nat) (counts : Nat)
  /-- REPCTL_UPDATE (R268): When the learning index changes a repetitive controller updates one table entry. -/
  | repctlUpdate (k : Nat) (counts : Nat)
  /-- CAMERA_PORT_CONFIG (R274): camera.port.config sets a CSI port's lanes, rate and enable. -/
  | cameraPortConfig (rq : Req)
  /-- CAMERA_STREAM_CONFIG (R275): camera.stream.config defines or disables a stream. -/
  | cameraStreamConfig (rq : Req)
  /-- CAMERA_STATS_CONFIG (R293): camera.stats.config writes the shadow statistics set of a stream. -/
  | cameraStatsConfig (rq : Req)
  /-- CAMERA_STREAM_STATUS (R285): camera.stream.status returns a stream's state and counts. -/
  | cameraStreamStatus (rq : Req)
  /-- CAMERA_PHY_RAW (R274): camera.phy.raw sets D-PHY settle times and equalisation. -/
  | cameraPhyRaw (rq : Req)
  /-- FRAME_START_RECEIVE (R276): A Frame Start is stamped as a Confluence source, latches the shadow set and opens a frame. -/
  | frameStartReceive (port : Nat) (di : Byte) (wc : BitVec 16) (ecc : Byte)
  /-- LINE_PACKET_RECEIVE (R277): A long packet is taken as the next line of the open frame or discarded. -/
  | linePacketReceive (port : Nat) (pkt : CamPacket)
  /-- FRAME_END_RECEIVE (R277): A Frame End closes the frame. -/
  | frameEndReceive (port : Nat) (di : Byte) (wc : BitVec 16) (ecc : Byte)
  /-- FRAME_TIMEOUT (R280): A frame open for FRAME_TIMEOUT is closed UNTERMINATED. -/
  | frameTimeout (stream : Nat)
  /-- DPHY_SOT_ERROR (R295): A D-PHY start-of-transmission error discards the burst. -/
  | dphySotError (port : Nat)
  /-- MEMORY_FRAME_START (R286): The pipeline starts processing the next backlog memory frame. -/
  | memoryFrameStart
  /-- MEMORY_FRAME_PROCESSED (R289): Processing of a memory frame ends and its features and record follow. -/
  | memoryFrameProcessed
  /-- LAGOON_STATUS (R302): lagoon.status returns handle and error counts. -/
  | lagoonStatus (rq : Req)
  /-- LAGOON_ECC_LOG (R311): lagoon.ecc.log returns and optionally clears the corrected-error log. -/
  | lagoonEccLog (rq : Req)
  /-- LAGOON_TILE_HEADER (R300): lagoon.tile.header returns a tile's header and flags. -/
  | lagoonTileHeader (rq : Req)
  /-- LAGOON_TILE_READ (R299): lagoon.tile.read starts copying a tile to memory. -/
  | lagoonTileRead (rq : Req)
  /-- LAGOON_TILE_READ_DONE (R299): The tile copy completes with its CRC. -/
  | lagoonTileReadDone
  /-- LAGOON_ECC_INJECT (R308): lagoon.ecc.inject arms an error for the next read of a word. -/
  | lagoonEccInject (rq : Req)
  /-- TILE_HANDLE_REQUEST (R301): A feed core requests a tile handle with a due time. -/
  | tileHandleRequest (due : BitVec 64) (owner : TileOwner)
  /-- TILE_HANDLE_GRANT (R301): The allocator grants the lowest free handle to the earliest-due waiting request. -/
  | tileHandleGrant
  /-- TILE_FILL_OPEN (R305): A fill is opened with header fields and a new TILE_ID. -/
  | tileFillOpen (handle : Nat) (hdr : FillHdr)
  /-- TILE_FILL_WRITE (R305): A 64-byte unit is written into an open fill and the CRC updated. -/
  | tileFillWrite (handle : Nat) (offset : Nat) (data : List Byte)
  /-- TILE_FILL_CLOSE (R305): A fill closes, zero-fills the rest and stores the CRC. -/
  | tileFillClose (handle : Nat)
  /-- LAGOON_READ (R308): A fabric read of Lagoon corrects single-bit and detects double-bit errors. -/
  | lagoonRead (address : BitVec 32) (reader : LagoonReader) (upset : Nat)
  /-- LAGOON_SCRUB_STEP (R309): The Lagoon scrubber reads and corrects a word in an idle bank cycle. -/
  | lagoonScrubStep (idle : Bool) (upset : Nat)
  /-- DRAM_STATUS (R337): dram.status returns configuration and error counts. -/
  | dramStatus (rq : Req)
  /-- DRAM_ECC_LOG (R337): dram.ecc.log returns and optionally clears the corrected-error log. -/
  | dramEccLog (rq : Req)
  /-- DRAM_ROWLOG (R333): dram.rowlog returns and optionally clears the row log. -/
  | dramRowlog (rq : Req)
  /-- DRAM_SCRUB_CONFIG (R336): dram.scrub.config sets the patrol scrub period. -/
  | dramScrubConfig (rq : Req)
  /-- DRAM_ECC_INJECT (R319): dram.ecc.inject arms flipped bits for the next whole-word write. -/
  | dramEccInject (rq : Req)
  /-- DRAM_REQUEST_ISSUE (R326): A queued DRAM request is issued by the scheduling order with ECC check and correction. -/
  | dramRequestIssue (channel : Nat) (enter : List DramReq)
  /-- DRAM_REFRESH (R328): Every 1.95 µs a channel issues REFab to all ranks. -/
  | dramRefresh (channel : Nat)
  /-- DRAM_MR4_READ (R329): Every 16 ms MR4 is read and DR_TEMP raised if a shorter interval is needed. -/
  | dramMr4Read (channel : Nat) (code : Nat) (shorter : Bool)
  /-- DRAM_WCK2DQ_READ (R314): Every 64 ms the WCK2DQ oscillator is read and applied at a refresh. -/
  | dramWck2dqRead (channel : Nat)
  /-- MERGE_ENTRY_WRITEOUT (R324): A merge-buffer entry is written out on completion, 2 µs age, eviction or a read. -/
  | mergeEntryWriteout (block : Nat) (reason : MergeWhy)
  /-- ROW_WINDOW_START (R331): A 32 ms row-disturbance window starts and the row tables are cleared. -/
  | rowWindowStart
  /-- DRAM_PATROL_SCRUB_STEP (R336): The patrol scrubber reads and corrects the next raw word. -/
  | dramPatrolScrubStep (upset : Nat)
  /-- DMA_CHANNEL_CONFIG (R346): dma.channel.config enables a channel at ring index 0 or disables it. -/
  | dmaChannelConfig (rq : Req)
  /-- DMA_CHANNEL_DISABLE (R352): dma.channel.disable drops the named channels' work at once. -/
  | dmaChannelDisable (rq : Req)
  /-- DMA_CHANNEL_STATUS (R347): dma.channel.status returns a channel's state and counts. -/
  | dmaChannelStatus (rq : Req)
  /-- DMA_WINDOW_SET (R340): dma.window.set maps or unsets a BAR2 DRAM window. -/
  | dmaWindowSet (rq : Req)
  /-- DMA_CHANNEL_RAW (R342): dma.channel.raw sets a fine share of a channel. -/
  | dmaChannelRaw (rq : Req)
  /-- DMA_DESCRIPTOR_POLL (R346): A channel reads the STATUS of its current descriptor and executes it if READY. -/
  | dmaDescriptorPoll (channel : Nat) (hostDesc : Option (List Byte))
  /-- DMA_DESCRIPTOR_HALF (R349): The first half of a descriptor's data is accepted and HALF is written. -/
  | dmaDescriptorHalf (channel : Nat) (hostData : List Byte)
  /-- DMA_DESCRIPTOR_DONE (R349): The last data write of a descriptor is accepted and CRC and DONE are written. -/
  | dmaDescriptorDone (channel : Nat) (hostData : List Byte)
  /-- DMA_BUS_ERROR (R350): A bus error on a data access ends the descriptor BAD. -/
  | dmaBusError (channel : Nat) (onWrite : Bool) (offset : Nat)
  /-- FABRIC_BUDGET_WINDOW (R29): A 1,024-cycle window ends and the class budgets and shares renew. -/
  | fabricBudgetWindow
  /-- COMPRESS_CONFIG (R357): compress.config sets host engines and engine shares. -/
  | compressConfig (rq : Req)
  /-- COMPRESS_SUBMIT (R358): compress.submit queues a compression or decompression job. -/
  | compressSubmit (rq : Req)
  /-- COMPRESS_ABORT (R360): compress.abort removes or aborts a job. -/
  | compressAbort (rq : Req)
  /-- COMPRESS_STATUS (R358): compress.status returns an engine's counts. -/
  | compressStatus (rq : Req)
  /-- COMPRESS_ENGINE_RAW (R355): compress.engine.raw sets the match-chain depth. -/
  | compressEngineRaw (rq : Req)
  /-- DEFLATE_JOB_START (R357): An engine becomes free and starts the next firmware or host job. -/
  | deflateJobStart (engine : Nat)
  /-- DEFLATE_JOB_END (R358): A job ends with its RESULT and completion. -/
  | deflateJobEnd (engine : Nat) (host : List Byte)
  /-- BLDC_CONFIG (R363): bldc.config configures a motor channel. -/
  | bldcConfig (rq : Req)
  /-- BLDC_BUS_CONFIG (R380): bldc.bus.config sets bus thresholds and releases the latch. -/
  | bldcBusConfig (rq : Req)
  /-- BLDC_START (R370): bldc.start begins the listen, catch, brake, align and ramp sequence. -/
  | bldcStart (rq : Req)
  /-- BLDC_SPEED (R374): bldc.speed sets the MCI speed command. -/
  | bldcSpeed (rq : Req)
  /-- BLDC_STOP (R373): bldc.stop coasts or ramps down the named motors. -/
  | bldcStop (rq : Req)
  /-- BLDC_STATUS (R367): bldc.status returns a motor's state and counts. -/
  | bldcStatus (rq : Req)
  /-- BLDC_RAW (R365): bldc.raw sets demagnetisation, advance and timing parameters. -/
  | bldcRaw (rq : Req)
  /-- BEMF_ZERO_CROSS (R365): A back-EMF zero crossing is detected and judged by the observer. -/
  | bemfZeroCross (motor : Nat) (delta : Nat) (forward : Bool)
  /-- COMMUTATION (R365): The commutation timer expires and the drive steps, with the regulator evaluated once per revolution. -/
  | commutation (motor : Nat)
  /-- ZERO_CROSS_TIMEOUT (R368): No crossing by 2 × Δ_prev forces a commutation counted implausible. -/
  | zeroCrossTimeout (motor : Nat)
  /-- COAST_STANDSTILL (R369): A coasting motor sees no crossing for 50 ms and becomes STOPPED. -/
  | coastStandstill (motor : Nat)
  /-- LISTEN_END (R370): The 50 ms listen ends and the start continues by the crossings seen. -/
  | listenEnd (motor : Nat) (crossings : Nat) (forward : Bool) (delta : Nat)
  /-- BRAKE_LISTEN (R370): Every 50 ms the brake is released for a 10 ms listen. -/
  | brakeListen (motor : Nat) (crossings : Nat)
  /-- BRAKE_TIMEOUT (R372): BRAKE_MS is exceeded and the attempt fails. -/
  | brakeTimeout (motor : Nat)
  /-- ALIGN_END (R370): ALIGN_MS ends and the open-loop ramp begins. -/
  | alignEnd (motor : Nat)
  /-- RAMP_TIMEOUT (R372): RAMP_MS ends without hand-off and the attempt fails. -/
  | rampTimeout (motor : Nat)
  /-- DRIVE_CURRENT_LIMIT (R377): MOTm_ISNS exceeds I_DRIVE and the high side turns off for the period. -/
  | driveCurrentLimit (isns : CurrentSense)
  /-- OVERCURRENT_WINDOW (R377): Over 100 ms, limiting in more than half the periods raises BL_OVERCURRENT. -/
  | overcurrentWindow (motor : Nat)
  /-- BUS_VOLTAGE_SAMPLE (R378): A bus voltage sample switches the chopper and may start bus braking. -/
  | busVoltageSample (group : Nat) (code : Nat)
  /-- CHOPPER_FAIL_TIMEOUT (R378): BRKFB disagrees for 10 µs or the bus does not fall within 20 ms and the chopper is failed. -/
  | chopperFailTimeout (fail : ChopperFail)
  /-- BRAKE_CURRENT_LIMIT (R379): The brake current crosses I_BRAKE or 0.8 × I_BRAKE and the low sides turn off or on. -/
  | brakeCurrentLimit (motor : Nat) (mv : Nat)
  /-- BUS_BRAKE_STANDSTILL (R380): A motor in BUS_BRAKE reaches standstill and becomes STOPPED. -/
  | busBrakeStandstill (motor : Nat)
  /-- SPEED_PIN_MEASURE (R376): The speed pin measurement updates the command. -/
  | speedPinMeasure (motor : Nat) (value : Nat)
  /-- SPEED_PIN_LOST (R376): The speed pin signal is lost for 100 ms and FAILSAFE applies. -/
  | speedPinLost (motor : Nat)
  /-- SPEED_PIN_RESUME (R376): The speed pin has been valid for 100 ms and resumes control. -/
  | speedPinResume (motor : Nat)
  /-- MOTION_AXIS_CONFIG (R383): motion.axis.config configures a stepper axis. -/
  | motionAxisConfig (rq : Req)
  /-- MOTION_MOVE (R387): motion.move queues a move on an axis. -/
  | motionMove (rq : Req)
  /-- MOTION_STOP (R391): motion.stop stops the named axes hard or ramped. -/
  | motionStop (rq : Req)
  /-- MOTION_POSITION_SET (R394): motion.position.set sets or keeps the position and releases a HALTED axis. -/
  | motionPositionSet (rq : Req)
  /-- MOTION_STATUS (R384): motion.status returns an axis's state and counts. -/
  | motionStatus (rq : Req)
  /-- MOTION_AXIS_RAW (R385): motion.axis.raw sets raw STEP_NS and V_START. -/
  | motionAxisRaw (rq : Req)
  /-- MOVE_COMPLETE (R387): A move's last pulse begins and the move leaves the queue. -/
  | moveComplete (axis : Nat)
  /-- STOP_RAMP_END (R391): A ramped stop reaches V_START and the pulses stop. -/
  | stopRampEnd (axis : Nat) (pulses : Nat)
  /-- LIMIT_INPUT_EDGE (R390): A limit input changes level and its debounce starts. -/
  | limitInputEdge (axis : Nat) (positive : Bool) (level : Bool)
  /-- LIMIT_DEBOUNCE_EXPIRY (R390): A limit input changes state after debounce and may stop the axis. -/
  | limitDebounceExpiry (axis : Nat) (positive : Bool)
  /-- CLOCK_SYNTH_CONFIG (R408): clock.synth.config programs or disables a pixel synthesiser. -/
  | clockSynthConfig (rq : Req)
  /-- CLOCK_SYNTH_PROFILE (R402): clock.synth.profile starts loading a ramp profile. -/
  | clockSynthProfile (rq : Req)
  /-- CLOCK_SYNTH_PROFILE_LOADED (R402): The ramp profile load completes. -/
  | clockSynthProfileLoaded (synth : Nat) (host : List Byte)
  /-- CLOCK_STATUS (R405): clock.status returns lock and monitor state and counts. -/
  | clockStatus (rq : Req)
  /-- CLOCK_SYNTH_RAW (R399): clock.synth.raw sets loop bandwidth and pump current. -/
  | clockSynthRaw (rq : Req)
  /-- REFERENCE_EDGE_TIMEOUT (R398): No reference edge for 60 ns declares the reference lost. -/
  | referenceEdgeTimeout
  /-- REFERENCE_FREQUENCY_CHECK (R398): A 10 ms frequency check against the Atoll clock may declare the reference lost. -/
  | referenceFrequencyCheck (hz : Nat)
  /-- PLL_FAST_UNLOCK (R399): A fast lock detector reports unlock of a PLL or synthesiser. -/
  | pllFastUnlock (loop : Nat)
  /-- LOCK_MONITOR_INCLUSION (R405): A loop locked for 100 µs is included in the lock monitor. -/
  | lockMonitorInclusion (loop : Nat)
  /-- LOCK_DECLARE (R406): LOCKSENSE stays above 1.35 V for 2 ms and the loop is declared locked. -/
  | lockDeclare (loop : Nat)
  /-- LOCKSENSE_LOW (R406): LOCKSENSE falls below 1.08 V, setting cause 5 on all links. -/
  | locksenseLow (mv : Nat)
  /-- LOCKSENSE_PLAUSIBILITY_CHECK (R407): Every 10 ms LOCKSENSE is checked for an absent or bypassed filter. -/
  | locksensePlausibilityCheck (mv : Nat) (toggling : Bool)
  /-- LINE_PHASE_CHECK (R403): After 2N synthesiser edges the line span is compared with the pitch sum. -/
  | linePhaseCheck (synth : Nat) (span : Nat)
  /-- THERMAL_UNIT_CONFIG (R417): thermal.unit.config sets a unit's sensors and thresholds. -/
  | thermalUnitConfig (rq : Req)
  /-- THERMAL_THERMISTOR_CONFIG (R414): thermal.thermistor.config loads a thermistor table and limits. -/
  | thermalThermistorConfig (rq : Req)
  /-- THERMAL_STATUS (R420): thermal.status returns a unit's temperature, step and factor. -/
  | thermalStatus (rq : Req)
  /-- THERMAL_SENSOR_FORCE (R411): thermal.sensor.force replaces a sensor's readings. -/
  | thermalSensorForce (rq : Req)
  /-- SENSOR_READING (R418): A new sensor reading is compared with the unit's thresholds within 1 µs. -/
  | sensorReading (sensor : Nat) (value : Int)
  /-- SENSOR_CONVERSION_TIMEOUT (R412): An on-die conversion not complete in 100 µs makes the sensor broken. -/
  | sensorConversionTimeout (sensor : Nat)
  /-- REMOTE_READING_STALE (R412): A remote reading stale for 1 ms makes the sensor broken. -/
  | remoteReadingStale (sensor : Nat)
  /-- THROTTLE_STEP_DOWN (R420): Each 10 ms at or above THROTTLE lowers step n by 1. -/
  | throttleStepDown (unit : Nat)
  /-- THROTTLE_STEP_UP (R420): Each 100 ms below THROTTLE − HYST raises step n by 1. -/
  | throttleStepUp (unit : Nat)
  /-- POWER_RAIL_CONFIG (R427): power.rail.config configures a rail slot. -/
  | powerRailConfig (rq : Req)
  /-- POWER_UP (R432): power.up issues an on request to the sequencer. -/
  | powerUp (rq : Req)
  /-- POWER_DOWN (R433): power.down issues an off request. -/
  | powerDown (rq : Req)
  /-- POWER_CLEAR (R432): power.clear clears a sequencer latch. -/
  | powerClear (rq : Req)
  /-- POWER_STATUS (R431): power.status returns the sequencer state and readings. -/
  | powerStatus (rq : Req)
  /-- ATOLL_REG_READ (R443): atoll.reg.read reads ATL_ registers through the bridge. -/
  | atollRegRead (rq : Req)
  /-- ATOLL_REG_WRITE (R443): atoll.reg.write writes an ATL_ register through the bridge. -/
  | atollRegWrite (rq : Req)
  /-- POWER_RAIL_FORCE (R429): power.rail.force drives one rail enable in DOWN. -/
  | powerRailForce (rq : Req)
  /-- RAIL_UP (R428): A stepped rail comes up and its settle wait begins. -/
  | railUp (slot : Nat) (sense : RailSense)
  /-- RAIL_PG_TIMEOUT (R432): A rail is not up within PG_TIMEOUT_MS, starting FALLING and a latch. -/
  | railPgTimeout (slot : Nat)
  /-- RAIL_SETTLE_END (R428): SETTLE_MS ends and the next slot is enabled. -/
  | railSettleEnd (slot : Nat)
  /-- RAIL_DISCHARGE_END (R428): DISCHARGE_MS ends and the next slot down is disabled. -/
  | railDischargeEnd (slot : Nat) (vmon : Nat)
  /-- RAIL_FAULT (R429): A running rail is out of limits for FILTER_US. -/
  | railFault (slot : Nat) (sense : RailSense)
  /-- MIN_OFF_END (R431): MIN_OFF ends, serving a held on request or dropping the main supply. -/
  | minOffEnd
  /-- OFF_GRACE_END (R433): OFF_GRACE expires and active pages and layers are aborted before FALLING. -/
  | offGraceEnd
  /-- GRACE_JOBS_TERMINAL (R433): All active pages and layers reach their terminal states and FALLING starts. -/
  | graceJobsTerminal
  /-- PWRBTN_PRESS (R435): A debounced push-button press issues an on or off request. -/
  | pwrbtnPress
  /-- PWRBTN_FORCED_OFF (R436): A press held for 8 s drops every enable at once. -/
  | pwrbtnForcedOff
  /-- NMR_ASSERT (R437): nMR low for 10 µs causes a device reset and clears a latch. -/
  | nmrAssert (widthNs : Nat)
  /-- NMR_RELEASE (R437): nMR rises and the start sequence begins. -/
  | nmrRelease (straps : BitVec 4)
  /-- VBAT_APPLY (R441): VBAT is applied or falls below 1.5 V, causing an Atoll reset. -/
  | vbatApply
  /-- POWER_ON_RESET (R35): The core supply reaches its operating range and device state is reset. -/
  | powerOnReset (straps : BitVec 4)
  /-- SUPPLY_LOST (R438): WAKE_MAINS stays below its threshold for 10 ms and the supply is lost. -/
  | supplyLost
  /-- SUPPLY_RETURN (R438): WAKE_MAINS stays above its threshold for 10 ms and the supply returns. -/
  | supplyReturn
  /-- WAKE_COMPARATOR_FIRE (R440): An enabled wake comparator fires and may raise the main supply. -/
  | wakeComparatorFire (n : Nat) (rising : Bool)
  /-- RTC_ALARM (R442): The RTC equals an alarm compare value and the alarm fires. -/
  | rtcAlarm (n : Nat)
  /-- NSYSFAULT_IN (R434): nSYSFAULT is seen low for 1 µs from another device. -/
  | nsysfaultIn (low : Bool)
  /-- LIGHT_STRING_CONFIG (R452): light.string.config configures, enables or disables a lamp string. -/
  | lightStringConfig (rq : Req)
  /-- LIGHT_STRING_LEVEL (R447): light.string.level sets a string's LEVEL. -/
  | lightStringLevel (rq : Req)
  /-- LIGHT_STRING_STATUS (R448): light.string.status returns a string's state and counts. -/
  | lightStringStatus (rq : Req)
  /-- LIGHT_MATRIX_RAW (R446): light.matrix.raw sets a raw shunt mask. -/
  | lightMatrixRaw (rq : Req)
  /-- LAMP_MATRIX_FRAME (R446): Every 100 µs a frame is exchanged with each enabled string's matrix and judged. -/
  | lampMatrixFrame (string : Nat) (frame : BitVec 64) (heard : Bool)
  /-- FAULT_STATUS (R458): fault.status returns sticky and unacknowledged bitmaps. -/
  | faultStatus (rq : Req)
  /-- FAULT_SOURCE_READ (R458): fault.source.read returns one source's state. -/
  | faultSourceRead (rq : Req)
  /-- FAULT_LOG_READ (R472): fault.log.read returns fault log entries. -/
  | faultLogRead (rq : Req)
  /-- FAULT_ACK (R464): fault.ack clears UNACK of the named records. -/
  | faultAck (rq : Req)
  /-- FAULT_CLEAR (R470): fault.clear clears STICKY and COUNT of acknowledged sources. -/
  | faultClear (rq : Req)
  /-- FAULT_CONFIG (R465): fault.config sets STOP_AXES and STOP_HEATERS. -/
  | faultConfig (rq : Req)
  /-- FAULT_FORCE (R474): fault.force raises a source as if its condition had occurred. -/
  | faultForce (rq : Req)
  /-- FAULT_RAISE (R459): A raise is presented to the fault fabric, recorded and reacted to. -/
  | faultRaise
  /-- FAULT_LOG_WRITE (R472): The supervisor core writes the fault log entry and posts fault.raised. -/
  | faultLogWrite
  /-- HEARTBEAT_MISSING (R21): Two consecutive heartbeats of a core are missing and it is held in reset with a STOP fault. -/
  | heartbeatMissing (core : Nat)
  /-- SUPERVISOR_WATCHDOG_EXPIRY (R22): The supervisor watchdog expires, gating lanes, holding ALIVE and asserting nSYSFAULT. -/
  | supervisorWatchdogExpiry
  /-- DEVICE_RESET (R35): A device reset resets all device state except Atoll and the sequencer. -/
  | deviceReset (straps : BitVec 4) (burned : BitVec 32)
  /-- ALIVE_TOGGLE (R471): At each 500 µs multiple of device time ALIVE toggles if its conditions hold. -/
  | aliveToggle
  /-- OTP_STATUS (R480): otp.status returns the region states and counts. -/
  | otpStatus (rq : Req)
  /-- OTP_READ (R477): otp.read returns words as readers see them. -/
  | otpRead (rq : Req)
  /-- OTP_BURN (R484): otp.burn checks and starts burning words. -/
  | otpBurn (rq : Req)
  /-- OTP_BURN_WORD_DONE (R484): Programming and verification of one OTP word completes. -/
  | otpBurnWordDone (r : BurnRead)
  /-- OTP_FINALISE (R486): otp.finalise computes and burns a region's digest and lock. -/
  | otpFinalise (rq : Req)
  /-- OTP_STRENGTHEN (R487): otp.strengthen reprograms weak bits of a region. -/
  | otpStrengthen (rq : Req)
  /-- OTP_SHADOW_READ (R488): otp.shadow.read reads OTP_ shadow registers. -/
  | otpShadowRead (rq : Req)
  /-- OTP_SHADOW_WRITE (R488): otp.shadow.write writes an OTP_ shadow register. -/
  | otpShadowWrite (rq : Req)
  /-- OTP_MARGIN_READ (R477): otp.margin.read reads words at a chosen reference and copy. -/
  | otpMarginRead (rq : Req)
  /-- OTP_STARTUP_CHECK_DONE (R481): The start-up OTP check completes and region states and boot policy apply. -/
  | otpStartupCheckDone
  /-- DRAM_TRAINING_DONE (R334): DRAM training ends, starting the fill or halting on a failed channel. -/
  | dramTrainingDone (failed : BitVec 4) (stepFailed : Nat)
  /-- DRAM_FILL_DONE (R334): The DRAM and Lagoon fill ends and the supervisor core is released into BOOT. -/
  | dramFillDone
  /-- BOOT_IMAGE_LOADED (R497): An image has been read and is checked, releasing cores 0 to 8 or trying the next source. -/
  | bootImageLoaded (source : BootSource)
  /-- BOOT_PUSH_POLL (R499): Every 1 ms the boot ROM polls the PUSH word for a pushed image. -/
  | bootPushPoll
  /-- BOOT_READY (R492): The firmware brings STATE to READY and MCI is served. -/
  | bootReady
  /-- STARTUP_BOOT_STATUS (R501): startup.boot.status returns the boot registers and READY_MS. -/
  | startupBootStatus (rq : Req)
  /-- STARTUP_PERSONALITY_SELECT (R502): startup.personality.select moves the device from READY to RUN with a personality. -/
  | startupPersonalitySelect (rq : Req)
  /-- PERSONALITY_SELECT_DONE (R502): The device enters RUN and the completion is posted. -/
  | personalitySelectDone
  /-- STARTUP_FW_UPDATE (R503): startup.fw.update checks an image and starts writing it to the other slot. -/
  | startupFwUpdate (rq : Req)
  /-- FW_UPDATE_DONE (R503): The update writes and verifies the slot and the boot block, and completes. -/
  | fwUpdateDone (readBackOk : Bool)
  /-- COUNTERS_OVERFLOW_READ (R505): counters.overflow.read returns the groups holding overflow sticky bits. -/
  | countersOverflowRead (rq : Req)
  /-- COUNTERS_CLEAR (R510): counters.clear zeroes the saturating counts and maxima of a group and unit. -/
  | countersClear (rq : Req)
  /-- BACKCHANNEL_BAD_MESSAGE (R141): A back-channel message with a CRC error, an unknown TYPE or a TYPE not allowed in the chosen version is discarded and counted as a link violation. -/
  | backchannelBadMessage (link : Nat) (kind : BadMessage) (type : Byte)
  /-- PHOTODIODE_SAMPLE (R248): At each 800-tick sample instant a photodiode channel is converted, added to the mean for the next evaluation, and a sample at 4,095 increments SATURATED and may raise FO_MP_SATURATED. -/
  | photodiodeSample (channel : Nat) (counts : Nat)
  /-- LOCKSENSE_RECOVER (R408): LOCKSENSE rises above 1.35 V again while every included loop is declared locked, and gate cause 5 set by R406 clears. -/
  | locksenseRecover (mv : Nat)
  /-- SYNTH_LOCK_TIMEOUT (R408): A synthesiser programmed by clock.synth.config is not declared locked within 5 ms and the command completes FAILED. -/
  | synthLockTimeout (synth : Nat)
  /-- VBAT_LOW (R444): VBAT falls below 1.8 V while the main supply is ON and PW_VBAT_LOW is raised. -/
  | vbatLow (mv : Nat)
  /-- MAIN_SUPPLY_FAIL (R441): The main supply collapses without Atoll dropping RAILM_EN, device state is lost, Atoll runs on from VBAT and any burn in progress is interrupted. -/
  | mainSupplyFail (burned : BitVec 32)
  /-- PWRBTN_RELEASE (R436): PWRBTN is released, ending the held press so that no forced off follows and a new press can be recognised. -/
  | pwrbtnRelease
  /-- BAR2_HOST_ACCESS (R340): A host read or write reaches a BAR2 DRAM window and is passed to DRAM with requester ID 59 and share 8, or reads 0 and is ignored in an unset window. -/
  | bar2HostAccess (offset : Nat) (write : Option (List Byte)) (length : Nat)
  /-- SYSTEM_PLL_LOCK (R78): The system PLLs lock after reset, device time starts at 0, and the OTP check and the boot block read begin. -/
  | systemPllLock
  deriving DecidableEq, Repr

end Sys2Proof
end

