-- ==== Sys2Proof/Machine/State.lean ====
section
/-!
DEFINITION. The state of the device: every register, table, queue, counter, mode and pin that spec/ names, as plain
data. A field's comment names the rule that gives it. The value after `:=` is its value at reset: the value the spec
states where the comment says "Reset:", and otherwise the model's own, named in log entry 2 (DESIGN CHOICE).
-/
namespace Sys2Proof.Machine

open Sys2Proof

/-- No meaning of the model ends in a fault: log entry 4 says why the type is empty. -/
inductive Fault where
  deriving DecidableEq, Repr

/-- The reasons for which a command has no meaning. -/
inductive Refusal where
  /-- Raised by the dispatch of a command the model does not give a meaning to yet. Safe: the machine stops. -/
  | notModelled (mnemonic : String)
  deriving DecidableEq, Repr

/-! ### Names -/

/-- The part (R1, R2). -/
inductive Part where
  | vm192 | vm96
  deriving DecidableEq, Repr

/-- MBX_FW_STATE.STATE (R44). -/
inductive DevState where
  | reset | boot | ready | run | halted
  deriving DecidableEq, Repr

/-- MBX_FW_STATE.PERSONALITY (R6). -/
inductive Personality where
  | none | press | forge
  deriving DecidableEq, Repr

/-- The fault classes (R457). -/
inductive FClass where
  | info | degrade | stop | fatal
  deriving DecidableEq, Repr

/-- The states of a Confluence source (R92). -/
inductive SrcState where
  | off | acquire | track | lost | still | holdover
  deriving DecidableEq, Repr

/-- The states of a link (link.status). -/
inductive LinkState where
  | off | training | up | degraded | down
  deriving DecidableEq, Repr

/-- The states of a page job (R197). -/
inductive JobState where
  | queued | armed | active | completed | aborted
  deriving DecidableEq, Repr

/-- The layer states (R227). -/
inductive LayerState where
  | idle | recoating | recoated | armed | exposing | paused | closing
  deriving DecidableEq, Repr

/-- The states of a Strait token before it is ACTIVE (R233). -/
inductive Token where
  | none | pending | cleared
  deriving DecidableEq, Repr

/-- The states of a motor (bldc.status). -/
inductive MotorState where
  | stopped | listen | brake | align | ramp | run | coast | busBrake | failed
  deriving DecidableEq, Repr

/-- The states of a stepper axis (motion.status). -/
inductive AxisState where
  | idle | moving | stopping | halted
  deriving DecidableEq, Repr

/-- The states of the power sequencer (R431). -/
inductive SeqState where
  | down | rising | up | falling | minOff | latched
  deriving DecidableEq, Repr

/-- The states of an OTP region (otp.status). -/
inductive RegionState where
  | blank | opened | valid | weak | invalid
  deriving DecidableEq, Repr

/-! ### The command interface (spec/02_mailboxes.md) -/

/-- Which request an operation answers when it completes (R72). -/
structure Ctx where
  mailbox : Nat
  seq     : BitVec 16
  code    : BitVec 16
  era     : Nat            -- host link resets before it (R74)
  deriving DecidableEq, Repr

/-- A reply, completion or event that waits in the device for its reply ring (R48, R50). -/
structure Msg where
  flags   : BitVec 8
  seq     : BitVec 16
  code    : BitVec 16
  mailbox : BitVec 8
  session : BitVec 8
  status  : BitVec 16
  payload : List Byte
  ticket  : Option Nat := none   -- the consumption that a reply answers (R71)
  deriving DecidableEq, Repr

/-- A consumed request that awaits its execution (R52). -/
structure Dispatch where
  req     : Req
  code    : BitVec 16
  session : BitVec 8
  time    : BitVec 64
  path    : Path           -- that its doorbell came on (R49)
  ticket  : Nat := 0       -- the number of its consumption
  deriving DecidableEq, Repr

/-- One entry of the violation log (R62). -/
structure VEntry where
  number : BitVec 32
  time   : BitVec 64
  iface  : BitVec 8
  unit   : BitVec 8
  code   : BitVec 16
  detail : BitVec 32
  deriving DecidableEq, Repr

/-- A consumed request whose reply has not been posted (R71). -/
structure Unposted where
  seq  : BitVec 16
  from' : BitVec 64        -- consumption, put off by the time for which the reply ring has been full
  late : Bool              -- MCI_REPLY_LATE has been raised for it
  ticket : Nat             -- the number of its consumption
  deriving DecidableEq, Repr

/-- One mailbox pair. -/
structure Mailbox where
  /-- R46: MBX_REQ_PI_p. Reset: 0. -/
  reqPi : BitVec 4 := 0
  /-- R46: MBX_REQ_CI_p. Reset: 0. -/
  reqCi : BitVec 4 := 0
  /-- R46: MBX_RPL_PI_p. Reset: 0. -/
  rplPi : BitVec 4 := 0
  /-- R46: MBX_RPL_CI_p. Reset: 0. -/
  rplCi : BitVec 4 := 0
  /-- R49: the path the first accepted HELLO bound the mailbox to. Reset: unbound. -/
  bound : Option Path := none
  /-- R49: the path of the last doorbell accepted. -/
  path : Path := .pcie
  /-- R49: the paths that the submitted requests not yet consumed came on, oldest first. -/
  arrivals : List Path := []
  /-- R54: a HELLO has been accepted. Reset: no. -/
  hello : Bool := false
  /-- R52: the expected sequence E. -/
  expected : BitVec 16 := 0
  /-- R60: the open expert session. Reset: none. -/
  session : Option (BitVec 8) := none
  /-- R60: IDLE_S of the session, in seconds; 0 for none. -/
  idleS : Nat := 0
  /-- R60: when the last request of the mailbox was consumed. -/
  consumedAt : BitVec 64 := 0
  /-- R71: requests consumed since the mailbox was reset. -/
  consumed : Nat := 0
  /-- R53: messages outstanding, from doorbell to final reply. -/
  outstanding : Nat := 0
  /-- R48: replies and completions that wait for the reply ring, oldest first. -/
  waiting : List Msg := []
  /-- R71: consumed requests whose reply has not been posted, oldest first. -/
  unposted : List Unposted := []
  /-- R70: device time since which the reply ring has been full. -/
  fullFrom : Option (BitVec 64) := none
  deriving DecidableEq, Repr

/-- One MSI-X table entry (R45; PCI Express Base 4.0). -/
structure MsixEntry where
  /-- R45: message address. -/
  addr : BitVec 64 := 0
  /-- R45: message data. -/
  data : BitVec 32 := 0
  /-- R45: vector control; bit 0 masks the vector. Reset: masked. -/
  ctrl : BitVec 32 := 1
  deriving DecidableEq, Repr

structure Mci where
  /-- R44: MBX_FW_STATE.MCI_MAX. Reset: 0x00. -/
  mciMax : BitVec 8 := 0
  /-- R56: MBX_FW_STATE.MCI_IN_USE, the version fixed by HELLO. Reset: 0x00. -/
  inUse : BitVec 8 := 0
  /-- R6: MBX_FW_STATE.PERSONALITY. Reset: none. -/
  personality : Personality := .none
  /-- R44: MBX_FW_STATE.STATE. Reset: RESET. -/
  st : DevState := .reset
  /-- R45: MBX_IRQ_STATUS. Reset: 0. -/
  irq : BitVec 32 := 0
  /-- R46: the eight mailbox pairs. -/
  boxes : List Mailbox := List.replicate 8 {}
  /-- R42: bytes of the request, reply and urgent slots by BAR0 offset, in canonical form (unlisted bytes read 0). -/
  slots : List Host.Cell := []
  /-- R45: the MSI-X table. -/
  msix : List MsixEntry := List.replicate 64 {}
  /-- R45: the pending bit array. Reset: 0. -/
  pba : BitVec 64 := 0
  /-- R45: MSI-X Enable of the capability. -/
  msixOn : Bool := false
  /-- R45: Function Mask of the capability. -/
  funcMask : Bool := false
  /-- R45: the MSI-X messages sent to the host, by vector, oldest first. -/
  sent : List Nat := []
  /-- R63: MBX_URG_STATUS.BUSY. Reset: 0. -/
  urgBusy : Bool := false
  /-- R65: MBX_URG_STATUS.DONE. Reset: 0. -/
  urgDone : Bool := false
  /-- R65: MBX_URG_STATUS.LAST_SEQ. Reset: 0x0000. -/
  urgLast : BitVec 16 := 0
  /-- R65: the urgent reply that waits to be posted. -/
  urgReply : Option Msg := none
  /-- R43: the data bytes that the last SPI read transfer returned. -/
  spiRead : List Byte := []
  /-- R52: consumed requests that await their execution, oldest first. -/
  dispatched : List Dispatch := []
  /-- R60: the last expert session identifier taken from the device-wide counter. -/
  sessLast : BitVec 8 := 0
  /-- R73: events pending for mailbox 7, at most 256, oldest first. -/
  events : List Msg := []
  /-- R73: the sequence of the next event. -/
  eventSeq : BitVec 16 := 0
  /-- R73: EVENT_DROPS. -/
  eventDrops : Count := {}
  /-- R61: the violation log, oldest first, at most 64 entries. Reset: empty. -/
  vlog : List VEntry := []
  /-- R61: the violation count. Reset: 0. -/
  vcount : Count := {}
  /-- R61: the number the next entry receives. Reset: 1. -/
  vnext : BitVec 32 := 1
  /-- R37: jobs aborted by host link resets and not yet reported in ABORTED_JOBS. -/
  abortedJobs : Nat := 0
  /-- R37: the reply of a HELLO accepted since the last host link reset has been posted. -/
  helloSince : Bool := false
  /-- R74: host link resets since the device reset; completions of earlier eras are discarded. -/
  era : Nat := 0
  /-- R37: requests of the pages or the layer that the last host link reset aborted. -/
  orphans : List Ctx := []
  /-- R37: completions of such jobs, held for mailbox 7 until that HELLO. -/
  heldCompletions : List Msg := []
  /-- R35: device time at which a commanded device reset follows. -/
  resetAt : Option (BitVec 64) := none
  deriving DecidableEq, Repr

/-! ### Confluence (spec/03_phase_timebase.md) -/

/-- One edge in a capture FIFO (R86): its stamp in sub-ticks and what it does to the count. -/
structure FifoEdge where
  stamp   : Int
  delta   : Int        -- counts added; 0 for a group edge that does not count
  illegal : Bool       -- the prediction error is taken as above tolerance (R85)
  deriving DecidableEq, Repr

/-- Raw filter settings that wait for the next accepted edge (timebase.filter.raw). -/
structure RawFilter where
  alpha : Nat
  beta  : Nat
  tol   : Nat
  lost  : Nat
  acq   : Nat
  run   : Nat
  gains : Bool         -- ALPHA, BETA and TOLERANCE still wait
  deriving DecidableEq, Repr

structure Source where
  /-- R92: STATE. -/
  st : SrcState := .off
  /-- R84: DEGLITCH. -/
  deglitch : Nat := 0
  /-- R80: FLAGS of timebase.source.set. -/
  flags : BitVec 8 := 0
  /-- R91: NOMINAL_RATE, counts per second. -/
  nominal : Nat := 0
  /-- R101: TOLERANCE in sub-ticks; 0 for the default of the personality in use. -/
  tol : Nat := 0
  /-- R81: GROUP_WINDOW, ns. -/
  groupWindow : Nat := 0
  /-- R94: PERIOD of the correction profile; 0 for none. -/
  period : Nat := 0
  /-- R94: the repetitive controller bound. -/
  repctl : Option Nat := none
  /-- R89: ALPHA, 0.16. -/
  alpha : Nat := 0
  /-- R89: BETA, 0.16. -/
  beta : Nat := 0
  /-- R91: settings of timebase.filter.raw that wait for the next edge. -/
  raw : Option RawFilter := none
  /-- R92: LOST_INTERVALS. Reset: 4. -/
  lostIntervals : Nat := 4
  /-- R92: ACQUIRE_EDGES. Reset: 8. -/
  acquireEdges : Nat := 8
  /-- R101: RUN_LIMIT. Reset: 8. -/
  runLimit : Nat := 8
  /-- R88: N, the whole count of the last accepted edge. -/
  n : BitVec 48 := 0
  /-- R87: EPOCH. -/
  epoch : BitVec 16 := 0
  /-- R88: T_N, sub-ticks. -/
  tN : Int := 0
  /-- R88: P, units of 2^-16 tick, signed. -/
  p : Int := 0
  /-- R89: the first edge since entry to ACQUIRE has set N and T_N. -/
  primed : Bool := false
  /-- R92: consecutive edges within tolerance in ACQUIRE. -/
  acqCount : Nat := 0
  /-- R101: consecutive edges above tolerance in TRACK. -/
  runCount : Nat := 0
  /-- R89: LAST_ERROR, sub-ticks. -/
  lastError : Int := 0
  /-- R85: MISSED. -/
  missed : Count := {}
  /-- R101: ROLLBACKS. -/
  rollbacks : Count := {}
  /-- R86: OVERRUNS. -/
  overruns : Count := {}
  /-- R86: the capture FIFO, oldest first, at most 16 edges. -/
  fifo : List FifoEdge := []
  /-- R86: device time at which the tracker last took an edge; none before the first. -/
  takenAt : Option (BitVec 64) := none
  /-- R84: level behind the DEGLITCH filter: of the input, or of ENCn_A, ENCn_B and ENCn_Z. -/
  levels : BitVec 3 := 0
  /-- R85: the next edge follows an illegal transition. -/
  illegalNext : Bool := false
  /-- R95: n0, the origin of the profile index. -/
  n0 : BitVec 48 := 0
  /-- R95: the count captured so far, for the count at a Z edge. -/
  nCapture : BitVec 48 := 0
  /-- R81: stamp of the first edge of the current beam-detect group, sub-ticks. -/
  groupStart : Option Int := none
  /-- R81: stamps of the edges of the current group after its first, oldest first. -/
  groupEdges : List Int := []
  /-- R106: a remote source has received a good slot since it was enabled. -/
  heard : Bool := false
  deriving DecidableEq, Repr

structure SyncBus where
  /-- R104: MODE, 0 standalone, 1 master, 2 peer. Reset: standalone. -/
  mode : Nat := 0
  /-- R104: INDEX of the device. -/
  index : Nat := 0
  /-- R108: STEP of timebase.sync.config. -/
  step : Bool := false
  /-- R106: PUBLISH, local sources published; 255 for unused. -/
  publish : List Nat := [255, 255, 255, 255]
  /-- R107: SYNC_STATE, 0 standalone, 1 joining, 2 synchronised, 3 holdover. Reset: standalone. -/
  st : Nat := 0
  /-- R107: PEERS, devices heard. -/
  peers : BitVec 8 := 0
  /-- R109: last offset to the master, sub-ticks. -/
  offset : Int := 0
  /-- R110: CRC_ERRORS. -/
  crcErrors : Count := {}
  /-- R105: number of the current frame. -/
  frame : Nat := 0
  /-- R106: rotation of published sources. -/
  rot : Nat := 0
  /-- R107: the request of the join in progress. -/
  join : Option Ctx := none
  /-- R107: step of the join, 0 none, 1 listening, 2 measured, 3 echoed. -/
  joinStep : Nat := 0
  /-- R107: when the join was accepted. -/
  joinAt : BitVec 64 := 0
  /-- R106: delay reports the master owes, peer index and sub-ticks, oldest first. -/
  reports : List (Nat × Nat) := []
  /-- R110: consecutive slot CRC mismatches per device. -/
  crcRun : List Nat := List.replicate 8 0
  /-- R107: the master's time at the start of the current frame, ticks, from its last TYPE 1 slot. -/
  masterTime : BitVec 64 := 0
  /-- R109: device time at which the current frame started, ticks. -/
  frameAt : BitVec 64 := 0
  /-- R107: the delay to the master, sub-ticks, that TYPE 2 reported. -/
  delay : Int := 0
  /-- R105: the slot the device drives on SYNC_DATA in this frame. -/
  txSlot : Option (BitVec 200) := none
  /-- R109: sub-ticks that slewing has added beyond whole ticks of device time. -/
  slew : Int := 0
  /-- R109: sub-ticks by which device time is still to be slewed. -/
  owed : Int := 0
  /-- R109: ticks since the last opportunity to slew, of 64. -/
  slewPhase : Nat := 0
  /-- R110: holdover by an offset above 100 ns, which only a new join ends. -/
  rejoin : Bool := false
  /-- R111: a peer that has left holdover slews to alignment. -/
  aligning : Bool := false
  deriving DecidableEq, Repr

/-! ### Lanes and links (spec/04_lanes_and_links.md) -/

/-- A lane event queued for its link (R113, R145). -/
structure QEvent where
  plan   : PlanEvent           -- which event of its plan it is
  unit   : Option UnitId       -- the unit it belongs to
  value  : BitVec 24
  gate   : Bool
  stamp  : Int                 -- intended STAMP and FRAC, sub-ticks
  anchor : Option Nat          -- source it is anchored to; none for device time (R98)
  pitch  : Nat                 -- pitch from the pixel before it (R179), 24.16; 0 for none
  pixel  : Option (Nat × Nat)  -- of a page pixel, PC[level] and 40 × boost (R176, R183)
  gain   : Nat                 -- g of a power event, sampled when it is queued (R250), 1.15
  deriving DecidableEq, Repr

/-- A RUN block that waits for its turn to leave the ball and may still take values (R120, R125): its place among the
blocks sent, its values so far and their GATE, and the hand-off of the first of them. -/
structure RunBlock where
  place : Nat
  count : Nat
  gate  : Bool
  since : BitVec 64
  deriving DecidableEq, Repr

/-- What a lane's encoder keeps (R121, R122): the reference stamp in 2^-16 sub-tick, the pitch last sent, the events since
the last TIME block, and the RUN block under way; the stamps last queued and last handed off (R100, R153); and whether an
event with GATE 1 has left since the last TELEMETRY message (R181). -/
structure LaneTx where
  ref    : Option Int := none
  pitch  : Nat := 0
  since  : Nat := 0
  run    : Option RunBlock := none
  last   : Option Int := none
  handed : Option Int := none
  lit    : Bool := false
  line   : Option (Nat × Nat) := none
  deriving DecidableEq, Repr

structure Link where
  /-- R129: STATE of link.status. -/
  st : LinkState := .off
  /-- R129: ENABLE of link.config. -/
  enabled : Bool := false
  /-- R129: BLP_MAX. -/
  blpMax : Nat := 2
  /-- R125: LEAD, units of 0.1 µs. Reset: 20 (2.0 µs). -/
  lead : Nat := 20
  /-- R131: TRIM, sub-ticks. -/
  trim : Int := 0
  /-- R129: the version chosen; 0 if down. -/
  version : Nat := 0
  /-- R127: BUF_DEPTH of the CAP reply, blocks. -/
  bufDepth : Nat := 0
  /-- R127: PARTNER_DELAY, sub-ticks. -/
  partnerDelay : Nat := 0
  /-- R127: TURNAROUND, sub-ticks. -/
  turnaround : Nat := 0
  /-- R131: one-way delay L, sub-ticks. -/
  oneWay : Int := 0
  /-- R131: compensation D in force, sub-ticks. -/
  d : Int := 0
  /-- link.config.raw (R131): D_OVERRIDE. -/
  dOverride : Option Nat := none
  /-- link.config.raw: TX_SWING in force. -/
  swing : Nat := 0
  /-- link.config.raw: DEEMPH in force. -/
  deemph : Nat := 0
  /-- link.config.raw: TX_SWING and DEEMPH that wait for the next link-up. -/
  rawNext : Option (Nat × Nat) := none
  /-- R133: gate causes 0 to 6. Reset: nSTOP undriven is low (R522), and the link is not up, so bits 0 and 6. -/
  causes : BitVec 7 := 0x41
  /-- R138: the release time, ticks, of a link that has been released since its last cause set; events stamped earlier
  stay dark. Reset: not released. -/
  releaseAt : Option (BitVec 64) := none
  /-- R138: the release time has been reached and the lanes are open. -/
  opened : Bool := false
  /-- R66: since the link was last released, no cause but the urgent gate has been set. -/
  urgentOnly : Bool := false
  /-- R128: EMIT_OK. Reset: 0xFF (link.status). -/
  emitOk : BitVec 8 := 0xFF
  /-- R128: monitor photodiode readings. -/
  monitors : List Nat := List.replicate 8 0
  /-- R128: driver temperature, 0.5 °C; none while absent or stale. -/
  temp : Option Int := none
  /-- R129: training step reached, 0 when not training. -/
  step : Nat := 0
  /-- R131: round trips of the probes answered, sub-ticks. -/
  probes : List Nat := []
  /-- R129: the request of the link-up in progress. -/
  ctx : Option Ctx := none
  /-- R127: words that await their ACK, CTYPE and payload, oldest first. -/
  ackWait : List (BitVec 8 × BitVec 40) := []
  /-- R141: VIOLATIONS. -/
  violations : Count := {}
  /-- R139: RESYNCS. -/
  resyncs : Count := {}
  /-- R126: TX_LATE. -/
  txLate : Count := {}
  /-- R126: PARTNER_LATE. -/
  partnerLate : Count := {}
  /-- R140: LINK_DOWNS. -/
  linkDowns : Count := {}
  /-- R127: forward sync-header errors, last reported. -/
  headerErrors : Nat := 0
  /-- R139: violations counted in the window `win`. -/
  winCount : Nat := 0
  /-- R139: the 1 ms window of that count, its start in ms of device time. -/
  win : Nat := 0
  /-- R139: the receiver re-locks to commas. -/
  resyncing : Bool := false
  /-- R139: device times of the last resynchronisations, newest first. -/
  resyncTimes : List (BitVec 64) := []
  /-- R140: retrain attempts made since the link went down. -/
  retries : Nat := 0
  /-- R140: the link waits to retrain. -/
  retrainWait : Bool := false
  /-- R128: stamp of the last telemetry message, ticks. -/
  telemAt : BitVec 64 := 0
  /-- R141: times 3 periods have passed since without telemetry. -/
  telemMiss : Nat := 0
  /-- R119: device time at which the transmitter began to send blocks. -/
  txFrom : Option (BitVec 64) := none
  /-- R119, R123: data and control words sent, oldest first; true marks a control block. -/
  tx : List (Bool × BitVec 64) := []
  /-- R121: encoder state of the eight lanes. -/
  lanes : List LaneTx := List.replicate 8 {}
  /-- R145: queued events of the eight lanes, in stamp order. -/
  queues : List (List QEvent) := List.replicate 8 []
  deriving DecidableEq, Repr

/-! ### Run-ahead (spec/05_run_ahead.md) -/

/-- The window and the counts of one station or head (R146 to R158). -/
structure RunAhead where
  /-- R149: WINDOW stored, lines or µs. Reset: the default, 64 lines or 200 µs. -/
  window : Nat := 64
  /-- R149: WINDOW in force for the active page or layer. -/
  inForce : Nat := 64
  /-- R151: REEXPAND_MARGIN, µs. Reset: 100. -/
  margin : Nat := 100
  /-- R161: UNITS_COMMITTED. -/
  committed : BitVec 64 := 0
  /-- R152: rollbacks by trigger code 1 to 6. -/
  rb : List Count := List.replicate 6 {}
  /-- R158: RB_MISSED. -/
  missed : Count := {}
  /-- R160: UNDERRUNS. -/
  underruns : Count := {}
  /-- R151: TILE_CRC_FAIL. -/
  tileFail : Count := {}
  /-- R151: TILE_REEXPANDED. -/
  tileAgain : Count := {}
  /-- R151: TILE_BLANKED. -/
  tileBlank : Count := {}
  /-- R156: RB_MAX_NS. -/
  maxNs : Nat := 0
  deriving DecidableEq, Repr

/-- A rollback in progress (R156, R157). -/
structure Rollback where
  lanes    : BitVec 192
  at'      : BitVec 64
  stations : List Nat
  heads    : List Nat
  forced   : List (Ctx × BitVec 64)   -- requests of runahead.rollback.force that await its end, with TRIGGER_AT
  first    : BitVec 64 := 0           -- when the first of its triggers reached the Weir; `at'` is the latest (R157)
  late     : Bool := false            -- 0x0085 has been raised for it
  deriving DecidableEq, Repr

/-! ### Press imaging (spec/06_press_imaging.md) -/

/-- A facet sweep in the window or committed (R143, R146, R148). -/
structure Sweep where
  n         : Nat              -- whole count of the beam-detect edge that starts it (R169)
  job       : Option Nat       -- serial of the job whose lines it carries (R198)
  l0        : Int              -- start line (R187)
  p         : Int              -- media phase at mid-scan (R187), 2^-32 line
  lead      : Nat              -- leading lines that R198 drops with it
  dead      : BitVec 48        -- dead beams substituted in it (R182)
  prevP     : Int              -- media phase at the mid-scan of the sweep before it, 2^-32 line (R188)
  banding   : Int              -- banding value, 2.30 (R186)
  throttle  : Nat              -- thermal factor latched at commit, 1/1,024 (R189)
  bias      : List (Nat × Nat) -- bias channels of the station and their duties at its plan (R148)
  energy    : Nat              -- provisional energy, w' units; 0 while it is discarded (R148, R154)
  admitted  : Bool             -- it is planned and its tiles are admitted; a discarded sweep is not (R148, R154)
  ready     : Bool             -- it may commit
  rebuilt   : Bool             -- it was discarded by a rollback and is being rebuilt (R158)
  committed : Bool             -- its first event has been handed off (R143)
  blank     : Bool             -- emitted blank: underrun or tile failure (R151, R160)
  left      : Nat              -- its events not yet handed off
  next      : List Nat         -- per beam, the index in its plan of the next event to queue (R145)
  deriving DecidableEq, Repr

/-- One band of a page job (R201). -/
structure Band where
  address  : Nat
  clen     : Nat
  origCrc  : BitVec 32
  row      : Nat
  firstCol : Nat
  ncol     : Nat
  deriving DecidableEq, Repr

/-- The media settings of press.media.config (R192 to R194). -/
structure Media where
  /-- R192: PACE_KIND, 0 encoder source, 1 stepper axis. -/
  kind : Nat := 0
  /-- R192: PACE. -/
  pace : Nat := 0
  /-- R193: TOP_SOURCE. -/
  top : Nat := 26
  /-- R194: CHECK_SOURCE. -/
  check : Option Nat := none
  /-- R193: LINES_PER_COUNT, 16.16. -/
  linesPerCount : Nat := 0
  /-- R194: CHECK_RATIO, 16.16. -/
  ratio : Nat := 0
  /-- R194: SLIP_LIMIT, lines. -/
  slipLimit : Nat := 0
  /-- R193: OFFSET per station, counts. -/
  offsets : List Int := [0, 0, 0, 0]
  deriving DecidableEq, Repr

/-- The tables a page keeps from its start (R175, R402, press.beam.table, press.delta.table). -/
structure PageTables where
  pc     : List Nat := []
  skew   : List Int := []
  pair   : List Nat := []
  single : List Nat := []
  ramp   : List Int := []
  deriving DecidableEq, Repr

/-- A page job (R195 to R200). -/
structure Job where
  serial     : Nat             -- order of submission on the device
  pageId     : BitVec 32
  lines      : Nat
  bands      : List Band
  st         : JobState
  ctx        : Ctx
  media      : Media           -- settings in force since its top edge (press.media.config)
  phiTop     : Int             -- pacing phase at the top edge, 48.16 (R193)
  checkTop   : Int             -- check phase at the top edge, 48.16 (R194)
  flags      : BitVec 16       -- FLAGS of the completion
  firstAt    : BitVec 64       -- FIRST_COMMIT
  written    : Nat             -- LINES_WRITTEN
  dropped    : Nat             -- LINES_DROPPED
  repeated   : Nat             -- LINES_REPEATED
  cause      : Nat             -- ABORT_CAUSE
  input      : Nat             -- ABORT_INPUT
  energy     : Nat             -- ENERGY, saturating at 2^64 − 1
  abort      : Option (Nat × BitVec 64) -- an abort is pending at the Weir: its cause and when it reached it (R163)
  lastN      : Option Nat      -- count of its last sweep, once known (R187)
  lastL0     : Option Int      -- start line of its last committed sweep (R187)
  lastP      : Option Int      -- media phase of its last committed sweep, 2^-32 line (R188)
  tables     : PageTables      -- fixed when its first sweep is admitted
  gated      : Bool            -- a gate darkened a committed event (R163)
  deriving DecidableEq, Repr

structure Station where
  /-- R198: count of the last committed sweep that carried a page. -/
  lastSweep : Option Nat := none
  /-- R116: links of the station, in beam order. -/
  links : List Nat := []
  /-- R166: press.station.config has been accepted. -/
  configured : Bool := false
  /-- R166: FACETS. -/
  facets : Nat := 8
  /-- R166: BD_SOURCE. -/
  bdSource : Nat := 16
  /-- R168: REVERSE_SCAN. -/
  reverse : Bool := false
  /-- R168: BEAMS_DESCENDING. -/
  descending : Bool := false
  /-- R166: DPI. -/
  dpi : Nat := 600
  /-- R166: SCAN_PIXELS. -/
  pixels : Nat := 1
  /-- R166: PIXEL_CLOCK, kHz. -/
  clockKhz : Nat := 20000
  /-- R178: SOS_OFFSET, ns. -/
  sosNs : Nat := 0
  /-- R180: BD_GUARD, ns. -/
  guardNs : Nat := 1000
  /-- R170: BD_LEAD0. -/
  lead0 : Nat := 0
  /-- R170: BD_LEAD1. -/
  lead1 : Nat := 1
  /-- R170: BD_SLOTS. -/
  slots : Nat := 1
  /-- R170: BD_SLOT, units of 10 ns. -/
  slot10 : Nat := 5
  /-- R170: BD_PRE, ns. -/
  preNs : Nat := 100
  /-- R181: DEAD_SWEEPS. -/
  deadSweeps : Nat := 2
  /-- R181: DEAD_TELEM. -/
  deadTelem : Nat := 3
  /-- R181: MON_MIN. -/
  monMin : Nat := 0
  /-- R185: DELTA_MAX. -/
  deltaMax : Nat := 4
  /-- R186: BANDING_REPCTL. -/
  banding : Option Nat := none
  /-- R178: SKEW per beam, sub-ticks. -/
  skew : List Int := []
  /-- press.beam.table: SKEW that waits for the next page. -/
  skewNext : Option (List Int) := none
  /-- R175: pixel-code table. -/
  pc : List Nat := List.replicate 16 0
  /-- R175: pixel-code table that waits for the next page. -/
  pcNext : Option (List Nat) := none
  /-- R183: PAIR. -/
  pair : List Nat := List.replicate 256 0
  /-- R183: SINGLE. -/
  single : List Nat := List.replicate 256 0
  /-- R183: PAIR and SINGLE that wait for the next page. -/
  deltaNext : Option (List Nat × List Nat) := none
  /-- press.delta.table: loads in progress, request, address and CRC, oldest first. -/
  deltaLoad : List (Ctx × Nat × BitVec 32) := []
  /-- R182: DEAD_MASK. Reset: no beam dead (R182: a device reset returns them to live). -/
  dead : BitVec 48 := 0
  /-- R185: Delta has been exhausted since the last press.delta.clear: new pages are refused. -/
  exhausted : Bool := false
  /-- R181: DEAD_BY_TELEM. -/
  byTelem : Count := {}
  /-- R181: DEAD_BY_BD. -/
  byBd : Count := {}
  /-- R181: BD_STRAY. -/
  stray : Count := {}
  /-- R181: consecutive bad TELEMETRY messages per beam. -/
  telemRun : List Nat := List.replicate 48 0
  /-- R181: consecutive tests without an edge per beam. -/
  missRun : List Nat := List.replicate 48 0
  /-- R170: slots whose beam has been fired lit: BD count of the edge, and slot. -/
  slotFired : List (Nat × Nat) := []
  /-- R181: slots whose edge has been seen: BD count of the edge, and slot. -/
  slotSeen : List (Nat × Nat) := []
  /-- R187: SWEEPS committed. -/
  sweepsDone : BitVec 64 := 0
  /-- R189: THROTTLE latched at the last commit, 1/1,024. -/
  throttle : Nat := 1024
  /-- R186: banding value of the last sweep, 2.30. -/
  bandingLast : Int := 0
  /-- R187: LINES_DROPPED. -/
  dropped : Count := {}
  /-- R187: LINES_REPEATED. -/
  repeated : Count := {}
  /-- R180: SCAN_OVERLAPS. -/
  overlaps : Count := {}
  /-- R176: WIDTH_CLIPPED. -/
  clipped : Count := {}
  /-- R172: search firing is on. -/
  search : Bool := false
  /-- R195: the jobs that are not reported yet, in submission order. -/
  jobs : List Job := []
  /-- R146: sweeps in the window or committed with events left, oldest first. -/
  sweeps : List Sweep := []
  /-- R146: window and counts. -/
  ra : RunAhead := {}
  deriving DecidableEq, Repr

/-! ### Press process and role interlocks (spec/07_press_process.md, R231) -/

/-- A general purpose input (R203, R231). -/
structure Gpi where
  /-- R203: level at the ball. -/
  level : Bool := false
  /-- R203: debounced level. -/
  st : Bool := false
  /-- R203: a change waits out its debounce. -/
  waiting : Bool := false
  /-- R203, R231: ROLE. Reset: none. -/
  role : Nat := 0
  /-- R203: active low. -/
  activeLow : Bool := false
  /-- R203: the role was given by forge.interlock.assign. -/
  forge : Bool := false
  /-- R203: DEBOUNCE, µs. -/
  debounce : Nat := 10
  /-- R203: STATION_MASK. -/
  stations : BitVec 8 := 0
  /-- R203: HEATER_MASK. -/
  heaters : BitVec 8 := 0
  /-- R203: AXIS_MASK. -/
  axes : BitVec 16 := 0
  /-- R231: GRACE_MS. -/
  graceMs : Nat := 0
  /-- R231: HEAD_MASK; 0 for all heads. -/
  heads : BitVec 32 := 0
  /-- R203, R231: the role is in force. -/
  active : Bool := false
  /-- R231: the grace of the condition has expired, so its gate is set. -/
  gated : Bool := false
  /-- R203: stations whose PAPER_OUT gate waits for their ACTIVE job's end. -/
  pendingStations : List Nat := []
  deriving DecidableEq, Repr

structure Bias where
  /-- R206: ROLE. -/
  role : Nat := 0
  /-- R206: STATION. -/
  station : Nat := 0
  /-- R206: LOOP; none for open loop. -/
  loop : Option Nat := none
  /-- R206: SETPOINT in force, V. -/
  setpoint : Int := 0
  /-- R207: SETPOINT that waits for the next job. -/
  setNext : Option Int := none
  /-- R206: FULL_SCALE, V. -/
  fullScale : Nat := 1
  /-- R207: TOL, V. -/
  tol : Nat := 1
  /-- R205: SEARCH_HOLD. -/
  searchHold : Bool := false
  /-- R205: the hold is in force. -/
  held : Bool := false
  /-- R206: duty of HVBc_REF, 0 to 4,095. Reset: 0 (R521). -/
  duty : Nat := 0
  /-- press.bias.raw: DUTY in force. -/
  raw : Option Nat := none
  /-- R206: last readback of HVBc_FB, counts. -/
  readback : Nat := 0
  /-- R206: configured since reset. -/
  configured : Bool := false
  deriving DecidableEq, Repr

structure Heater where
  /-- R208: configured since reset. -/
  configured : Bool := false
  /-- R208: ZC_SOURCE. -/
  zc : Nat := 24
  /-- R208: LOOP; none holds the heater off. -/
  loop : Option Nat := none
  /-- R208: MODE, full-cycle. -/
  full : Bool := false
  /-- R208: MAX_DENSITY, 1/256. -/
  density : Nat := 0
  /-- R210: TEMP_INPUT. -/
  input : Nat := 0
  /-- R210: OVER_TRIP, °C. -/
  overTrip : Nat := 300
  /-- R210: RATE_TRIP, 0.1 °C/s. -/
  rateTrip : Nat := 5000
  /-- R208: TRIGGER_DELAY, µs. -/
  delay : Nat := 0
  /-- R208: PULSE, µs. -/
  pulse : Nat := 10
  /-- R208: the accumulator acc, 2^-30. -/
  acc : Nat := 0
  /-- R208: u delivered by the loop, 2^-30 (R256). -/
  u : Nat := 0
  /-- R208: the next half-cycles to fire: decided and not pulsed yet. -/
  fire : Nat := 0
  /-- R208: gate pulses driven on HTRh since reset. Reset: HTRh low (R521). -/
  pulses : Nat := 0
  /-- R208: a heater-off cause is set: an interlock, the mains, a fault reaction. -/
  off : Bool := false
  /-- R210: the trip latch. -/
  tripped : Bool := false
  /-- R210: the last reading was above OVER_TRIP, or the sensor broken. -/
  overOn : Bool := false
  /-- R210: the last reading was above RATE_TRIP. -/
  rateOn : Bool := false
  /-- R210: readings of the last 100 ms, 0.25 °C, newest first. -/
  temps : List Int := []
  deriving DecidableEq, Repr

/-! ### Forge scanning, overlap and melt pool (spec/08, spec/09) -/

/-- A record of a scan program (R214). -/
structure Rec where
  x0       : Int
  y0       : Int
  x1       : Int
  y1       : Int
  speed    : Nat
  power    : Nat
  type     : Nat              -- 0 mark, 1 jump, 2 dwell, 3 fence
  primary  : Nat
  alts     : BitVec 24
  meltpool : Bool
  trigger  : Bool
  noReassign : Bool
  seqNo    : Nat
  index    : Nat              -- its index in the array of PRIMARY
  received : Bool := false    -- its present head has it by reassignment, so that it belongs to no fence (R244)
  deriving DecidableEq, Repr

/-- A vector of a head that is admitted and not committed, or committed with events left (R148, R218). -/
structure Vec where
  r         : Rec
  opens     : Int             -- stamp at which it or its implicit jump begins, sub-ticks
  start     : Int             -- start stamp, sub-ticks
  fromX     : Int             -- head position before it, nm
  fromY     : Int
  periods   : Nat             -- n of R218
  jumpN     : Nat             -- periods of the implicit jump before it (R219)
  duration  : Nat             -- ticks, the implicit jump not included
  cap       : Nat             -- POWER_CAP bound at admission (R250)
  planned   : Nat             -- planned energy, µJ: its provisional energy and dose (R148, R225)
  admitted  : Bool            -- it is planned and its tile is admitted; a discarded vector is not (R148, R154)
  ready     : Bool
  rebuilt   : Bool
  committed : Bool
  theta     : Nat             -- thermal factor latched at commit, 1/1,024 (R224)
  left      : Nat             -- events not yet handed off
  next      : List Nat        -- per lane, the index in its plan of the next event to queue (R145)
  waited    : Option (BitVec 64) -- device time its wait at Strait began (R238)
  readyAt   : BitVec 64 := 0     -- device time at which it has become ready (R158, R160)
  deriving DecidableEq, Repr

/-- A point in machine coordinates (R212). -/
structure Point where
  x : Int
  y : Int
  deriving DecidableEq, Repr

/-- An ACTIVE Strait token (R233): its vector, when it became ACTIVE, and what its spot and its release follow (R235). -/
structure Active where
  r        : Rec
  start    : Int              -- start stamp of the vector, sub-ticks
  periods  : Nat              -- n of R218
  since    : BitVec 64        -- device time at which it became ACTIVE, ticks
  on       : Int              -- stamp of emission on, sub-ticks
  off      : Int              -- stamp of emission off, sub-ticks
  intruded : Bool             -- its intrusion has been counted (R239)
  deriving DecidableEq, Repr

structure Head where
  /-- R212: forge.head.config has been accepted. -/
  configured : Bool := false
  /-- R98, R222: its first vector is anchored to START_PHASE, and has events not handed off. -/
  anchored : Bool := false
  /-- R215: the armed program gives the head something to do. -/
  inLayer : Bool := false
  /-- R213: RATE, units of 10 kHz. -/
  rate : Nat := 100
  /-- R218: TRACK_DELAY, µs. -/
  trackDelay : Nat := 0
  /-- R218: JUMP_SPEED, mm/s. -/
  jumpSpeed : Nat := 1
  /-- R218: JUMP_SETTLE, µs. -/
  jumpSettle : Nat := 0
  /-- R212: OX, nm. -/
  ox : Int := 0
  /-- R212: OY, nm. -/
  oy : Int := 0
  /-- R212: M11, M12, M21, M22, 2.30. -/
  m : List Int := [0, 0, 0, 0]
  /-- R214: FULL_SCALE_W. -/
  fullScale : Nat := 1
  /-- R214: POWER_MAX. -/
  powerMax : Nat := 0
  /-- R220: park position, nm. -/
  park : Point := ⟨0, 0⟩
  /-- R226: ENERGY_CAP, J; 0 for none. -/
  energyCap : Nat := 0
  /-- R216: LINE_ENERGY_MAX, J/m; 0 for none. -/
  lineMax : Nat := 0
  /-- R220: AUX_A. -/
  auxA : BitVec 24 := 0
  /-- R220: AUX_B. -/
  auxB : BitVec 24 := 0
  /-- R147: window and counts. Reset: 200 µs. -/
  ra : RunAhead := { window := 200, inForce := 200 }
  /-- R218: position at the end of the last planned vector, nm. -/
  pos : Point := ⟨0, 0⟩
  /-- R218: stamp at which the last planned vector ends, sub-ticks. -/
  endAt : Int := 0
  /-- R215: records not yet admitted, in order of execution. -/
  todo : List Rec := []
  /-- R148: admitted vectors and committed ones with events left, oldest first. -/
  vecs : List Vec := []
  /-- R227: HEAD_STATE, 0 idle, 1 running, 2 Strait wait, 3 fence wait, 4 held, 5 done, 6 faulted. -/
  st : Nat := 0
  /-- R224: latched thermal factor, 1/1,024. -/
  theta : Nat := 1024
  /-- R227: LAST_SEQ. -/
  lastSeq : Nat := 0
  /-- R225: committed energy of this layer, µJ, saturating at 2^64 − 1. -/
  energy : Nat := 0
  /-- R225: energy below 1 µJ carried to the next event, in units of W × VALUE × ticks. -/
  energyRem : Nat := 0
  /-- R225: the last lane 0 event handed off, VALUE with GATE 1 and its stamp. -/
  lastPower : Option (Nat × Int) := none
  /-- R227: STRAIT_WAIT, µs. -/
  straitWait : Count := {}
  /-- R219: IMPLICIT_JUMPS. -/
  implicit : Count := {}
  /-- R228 of pauses: a pause is pending at the head's next commit (R229). -/
  pausing : Bool := false
  /-- R233: Strait token of the head's next emitting vector, PENDING or CLEARED. -/
  token : Token := .none
  /-- R233: the ACTIVE tokens of the head, oldest first. -/
  actives : List Active := []
  /-- R241: emission is commanded on: the last lane 1 event handed off had GATE 1. -/
  emitting : Bool := false
  /-- R236: device time of the check that has last cleared the token, ticks. -/
  clearedAt : BitVec 64 := 0
  /-- R163, R229, R242: when the pause or the retirement that awaits the head's next commit reached the Weir, ticks. -/
  stopAt : BitVec 64 := 0
  /-- R221: device time at which the head began to wait at its fence, ticks. -/
  fenceAt : BitVec 64 := 0
  /-- R226: a vector has been refused, at this device time, so that the head's next commit aborts the layer. -/
  refused : Option (BitVec 64) := none
  /-- R251, R263: SEQUENCE of the vectors at whose first emission on the head's loops start again, oldest first. -/
  resetFor : List Nat := []
  /-- R222, R223: how long after START_PHASE the head's first vector starts, as it has been held, sub-ticks. -/
  anchorShift : Int := 0
  /-- R154, R158: a rollback has discarded work of the head, or kept it from admission, since its last commit. -/
  rolled : Bool := false
  /-- R252: device time since which the mean has been below DARK_MIN with emission on. -/
  darkFrom : Option (BitVec 64) := none
  /-- R252: the signal is lost; the loop is held until the mean is at DARK_MIN again. -/
  dark : Bool := false
  /-- R238: the head is in LONG_WAIT. -/
  longWait : Bool := false
  /-- R238: WAITS. -/
  waits : Count := {}
  /-- R238: WAIT_MAX_US. -/
  waitMaxUs : Nat := 0
  /-- R239: INTRUSIONS. -/
  intrusions : Count := {}
  /-- R244: RECEIVED. -/
  received : Count := {}
  /-- R241: retired in this layer. -/
  retired : Bool := false
  /-- R241: consecutive TELEMETRY messages with EMIT_OK bit 1 at 0. -/
  emitBad : Nat := 0
  /-- R251: INPUT_KIND. -/
  inputKind : Nat := 0
  /-- R248: PD_CHANNEL. -/
  pd : Nat := 0
  /-- R249: CAM_STREAM. -/
  camStream : Nat := 0
  /-- R249: CAM_FEATURE. -/
  camFeature : Nat := 0
  /-- R251: LOOP_KIND, 0 none, 1 slot, 2 group. -/
  loopKind : Nat := 0
  /-- R251: LOOP. -/
  loop : Nat := 0
  /-- R251: START_RESET. -/
  startReset : Bool := false
  /-- R252: RETIRE_ON_LOSS. -/
  retireOnLoss : Bool := false
  /-- R248: MP_SETTLE, µs. -/
  settle : Nat := 0
  /-- R252: SIGNAL_LOST, µs. -/
  signalLost : Nat := 10
  /-- R252: DARK_MIN. -/
  darkMin : Nat := 0
  /-- R249: STALE, µs. -/
  stale : Nat := 100
  /-- R250: GAIN_MIN, 1.15. -/
  gainMin : Nat := 0
  /-- R250: GAIN_MAX, 1.15. -/
  gainMax : Nat := 0x8000
  /-- R250: g in force, 1.15. -/
  g : Nat := 0x8000
  /-- forge.meltpool.raw: G_FORCE. -/
  gForce : Option Nat := none
  /-- R250: POWER_CAP. Reset: no cap. -/
  powerCap : Nat := 65535
  /-- R250: last winner, 0 M, 1 T, 2 C. -/
  sel : Nat := 0
  /-- R251: HOLD bits. -/
  hold : BitVec 8 := 0
  /-- R248: last mean, counts. -/
  pdMean : Nat := 0
  /-- R250: WON_M. -/
  wonM : Count := {}
  /-- R250: WON_T. -/
  wonT : Count := {}
  /-- R250: WON_C. -/
  wonC : Count := {}
  /-- R252: SATURATED. -/
  saturated : Count := {}
  /-- R252: SEQUENCE of the vector for which FO_MP_SATURATED has last been raised. -/
  satVector : Option Nat := none
  /-- R249: SEQUENCE of the vector for which FO_CAMERA_STALE has last been raised. -/
  staleVector : Option Nat := none
  /-- R220: a park jump or jog in progress: start stamp, from, to, periods. -/
  move : Option (Int × Point × Point × Nat) := none
  /-- R220: set-points of that jump queued on lanes 2 and 3. -/
  moveNext : Nat × Nat := (0, 0)
  /-- R220: set-points of that jump not yet handed off. -/
  moveLeft : Nat := 0
  /-- R220: arm events of lanes 4, 5 and 6 not yet queued. -/
  armNext : List Nat := []
  deriving DecidableEq, Repr

/-- A loaded scan program (R215, R216). -/
structure Program where
  /-- R216: passed its check since it was loaded and since any head of it changed. -/
  checked : Bool := false
  /-- R215: records per head. -/
  arrays : List (List Rec) := []
  /-- R215: DRAM address of each head's array. -/
  bases : List Nat := []
  /-- forge.program.load: the checks that are to be made, request, table address and TABLE_CRC, oldest first. -/
  loading : List (Ctx × Nat × BitVec 32) := []
  deriving DecidableEq, Repr

/-- The parameters of forge.strait.config (R234, R238, R246). -/
structure StraitCfg where
  /-- R234: FLOW_X, 1.15. -/
  flowX : Int := 0x7FFF
  /-- R234: FLOW_Y, 1.15. -/
  flowY : Int := 0
  /-- R234: DOWNSTREAM, µm. -/
  down : Nat := 0
  /-- R234: UPSTREAM, µm. -/
  up : Nat := 0
  /-- R234: RADIUS, µm. -/
  radius : Nat := 0
  /-- R233: PLUME_HOLD, µs. -/
  plumeHold : Nat := 0
  /-- R238: WAIT_MAX, ms. -/
  waitMax : Nat := 1
  /-- R238: STRAIT_TIMEOUT, ms; 0 for none. -/
  straitTimeout : Nat := 0
  /-- R246: UNEXEC_BUF. -/
  unexecBuf : Nat := 0
  /-- R246: UNEXEC_CAP. -/
  unexecCap : Nat := 0
  deriving DecidableEq, Repr

/-- A recoat in progress (R228). -/
structure Recoat where
  ctx      : Ctx
  stroke   : Bool             -- the recoater's move is under way; the platform's has completed
  platform : Nat              -- PLATFORM_AXIS
  recoater : Nat              -- RECOATER_AXIS
  steps    : Int              -- STROKE_STEPS
  ahead    : Nat              -- moves of the axis that are to complete, the recoat's own the last
  deadline : BitVec 64        -- device time of TIMEOUT_MS
  deriving DecidableEq, Repr

structure Forge where
  /-- R227: layer state. Reset: IDLE. -/
  layer : LayerState := .idle
  /-- R227: LAYER. -/
  number : BitVec 32 := 0
  /-- R227: program slot bound. -/
  program : Nat := 0
  /-- R222: ANCHOR_SOURCE; none for device time. -/
  anchor : Option Nat := none
  /-- R222: START_PHASE, 48.16. -/
  startPhase : Nat := 0
  /-- R220: Z_FOCUS. -/
  zFocus : BitVec 24 := 0
  /-- R221: FENCE_TIMEOUT, ms. -/
  fenceTimeout : Nat := 1
  /-- R227: START_AT, ticks. -/
  startAt : BitVec 64 := 0
  /-- R227: the request of forge.layer.expose. -/
  ctx : Option Ctx := none
  /-- R229: a pause has been requested. -/
  pausing : Bool := false
  /-- R163: an abort is pending: its cause and when it reached the Weir, ticks. -/
  abort : Option (Nat × BitVec 64) := none
  /-- R163: a gate darkened a committed event of the layer. -/
  gated : Bool := false
  /-- R227: the terminal state, ABORT_CAUSE, once decided. -/
  terminal : Option Nat := none
  /-- R227: FLAGS of the completion. -/
  flags : BitVec 16 := 0
  /-- R227: FIRST_COMMIT. -/
  firstCommit : BitVec 64 := 0
  /-- R227: LAST_HANDOFF. -/
  lastHandoff : BitVec 64 := 0
  /-- R227: VECTORS committed, saturating at 2^64 − 1. -/
  vectors : Nat := 0
  /-- forge.layer.expose (R219): IMPLICIT_JUMPS of the layer. -/
  implicit : Count := {}
  /-- R246: UNEXECUTED. -/
  unexecuted : Count := {}
  /-- R221: fences passed. -/
  fencesPassed : List Nat := []
  /-- R228: the recoat in progress. -/
  recoat : Option Recoat := none
  /-- R215: the four program slots. -/
  programs : List Program := List.replicate 4 {}
  /-- R234: the Strait parameters in force. -/
  strait : StraitCfg := {}
  /-- forge.strait.config: parameters that wait for the next arm. -/
  straitNext : Option StraitCfg := none
  /-- R246: UNEXEC_LISTED. -/
  unexecListed : Nat := 0
  /-- R245: heads whose remaining vectors await reassignment. -/
  reassign : List Nat := []
  /-- R245: requests of forge.strait.retire that wait for their reassignment. -/
  retireCtx : List Ctx := []
  /-- R247: PERMIT_STRINGS. Reset: 0, no permit required. -/
  permitStrings : BitVec 8 := 0
  /-- R247: PERMIT_DWELL_MS. -/
  permitDwell : Nat := 0
  /-- R247: device time since which the permit has been present. -/
  permitSince : Option (BitVec 64) := none
  /-- R247: the permit has been withdrawn and has not returned: its gate holds. -/
  permitLost : Bool := false
  deriving DecidableEq, Repr

/-! ### The control engine (spec/10_control_engine.md) -/

/-- One stage of a loop (R257, R258). -/
structure Stage where
  coef  : List Int := [0, 0, 0, 0, 0, 0, 0, 0]   -- b0 b1 b2 b3 a1 a2 a3 ki
  shift : List Nat := [0, 0, 0, 0, 0, 0, 0, 0]   -- SHIFT of each coefficient
  expo  : Int := 0                                -- E of block floating point
  integ : Bool := false                           -- INTEGRATOR
  float : Bool := false                           -- FORMAT, block floating point
  s1 : Int := 0
  s2 : Int := 0
  s3 : Int := 0
  i  : Int := 0
  next : Int := 0                                 -- I' of the last evaluation (R257), committed unless held
  deriving DecidableEq, Repr

/-- An input or output selection (R255, R256): KIND, INDEX, SUB. -/
structure Sel where
  kind  : Nat := 0
  index : Nat := 0
  sub   : Nat := 0
  deriving DecidableEq, Repr

structure Loop where
  /-- R271: the slot holds a recipe. -/
  loaded : Bool := false
  /-- R257: enabled. -/
  enabled : Bool := false
  /-- R257: INVERT. -/
  invert : Bool := false
  /-- R257: the stages, 1 to 4. -/
  stages : List Stage := []
  /-- R257: PERIOD_TICKS. -/
  period : Nat := 1600
  /-- R269: PHASE, ticks. -/
  phase : Nat := 0
  /-- R257: REF. -/
  ref : Int := 0
  /-- R257: OUT_MIN. -/
  outMin : Int := 0
  /-- R257: OUT_MAX. -/
  outMax : Int := 0
  /-- R257: OUT_BIAS. -/
  bias : Int := 0
  /-- R255: IN_SEL. -/
  inSel : Sel := {}
  /-- R256: OUT_SEL. -/
  outSel : Sel := {}
  /-- R264: group of the slot. -/
  group : Option Nat := none
  /-- control.loop.status: OUTPUT. -/
  out : Int := 0
  /-- R260: the output before the last evaluation, and the scheduled tick of that evaluation. -/
  outBefore : Int × Nat := (0, 0)
  /-- control.loop.status: ERROR. -/
  err : Int := 0
  /-- control.loop.status: INPUT. -/
  input : Int := 0
  /-- R259: saturated in the last evaluation. -/
  saturated : Bool := false
  /-- R264: not selected in the last evaluation. -/
  deselected : Bool := false
  /-- R262: the destination reports LIMITED. -/
  limited : Bool := false
  /-- R261: an owner requests a hold. -/
  ownerHold : Bool := false
  /-- R263: RESET of control.loop.set or START_RESET waits for the next evaluation. -/
  resetNext : Bool := false
  /-- R257: device time of the last scheduled evaluation, or of the enabling, ticks. -/
  lastTick : Nat := 0
  /-- R260: a REF that another loop delivers, with the tick from which it is read. -/
  refNext : Option (Nat × Int) := none
  /-- R264: the member has been evaluated at this tick and its group not yet. -/
  fresh : Bool := false
  /-- R248: sum of the photodiode samples since the previous evaluation. -/
  pdSum : Nat := 0
  /-- R248: the number of those samples. -/
  pdCnt : Nat := 0
  /-- R257: CE_NUMERIC has been raised since the last control.loop.set. -/
  numeric : Bool := false
  /-- R257: EVALS. -/
  evals : BitVec 64 := 0
  /-- R261: HELD. -/
  held : Count := {}
  /-- R273: consecutive evaluations held. -/
  heldRun : Nat := 0
  /-- R264: DESELECTED. -/
  deselects : Count := {}
  /-- R257: OVERFLOWS. -/
  overflows : Count := {}
  deriving DecidableEq, Repr

structure Group where
  /-- R264: member slots; empty while no group is formed. -/
  members : List Nat := []
  /-- R264: OUT_SEL of the group. -/
  outSel : Sel := {}
  deriving DecidableEq, Repr

structure Repctl where
  /-- R266: MODE, 0 unbound, 1 Confluence, 2 banding, 3 loop additive, 4 general. -/
  mode : Nat := 0
  /-- R266: a recipe record or a binding has loaded it. -/
  loaded : Bool := false
  /-- R266: PERIOD. -/
  period : Nat := 0
  /-- R266: c[0] to c[PERIOD − 1]. -/
  table : List Int := []
  /-- R268: LEAD. -/
  lead : Nat := 0
  /-- R268: GAIN. -/
  gain : Nat := 0
  /-- R268: FORGET. -/
  forget : Nat := 0
  /-- R268: CLAMP. -/
  clamp : Nat := 0
  /-- R267: COUNTS. -/
  counts : Nat := 1
  /-- R267: INDEX_SOURCE. -/
  source : Nat := 0
  /-- R266: ERR_SEL. -/
  errSel : Sel := {}
  /-- R266: ERR_REF. -/
  errRef : Int := 0
  /-- R266: DEST_INDEX. -/
  dest : Nat := 0
  /-- R267: the index last learned. -/
  j : Nat := 0
  /-- R267: device time of the last update, ticks. -/
  last : BitVec 64 := 0
  /-- R267: UPDATES. -/
  updates : BitVec 64 := 0
  /-- R268: CLAMPED. -/
  clamped : Count := {}
  /-- R267: SKIPPED. -/
  skipped : Count := {}
  /-- R268: CE_REPCTL_CLAMP has been raised since the bind. -/
  raised : Bool := false
  /-- R248: sum of the photodiode samples since the previous update. -/
  pdSum : Nat := 0
  /-- R248: the number of those samples. -/
  pdCnt : Nat := 0
  /-- R268: k and e of the last accepted edge of a Confluence source, not yet learned. -/
  pending : List (Nat × Int × BitVec 64) := []
  /-- control.repctl.table: transfers in progress, request, write, address and CRC, oldest first. -/
  xfer : List (Ctx × Bool × Nat × BitVec 32) := []
  deriving DecidableEq, Repr

structure Engine where
  /-- R257: the 64 loop slots. -/
  loops : List Loop := List.replicate 64 {}
  /-- R264: the 16 min-select groups. -/
  groups : List Group := List.replicate 16 {}
  /-- R266: the 8 repetitive controllers. -/
  repctls : List Repctl := List.replicate 8 {}
  /-- R248: device time of the last sample of each photodiode channel. -/
  pdAt : List (Option (BitVec 64)) := List.replicate 24 none
  /-- R256: the 16 variables. -/
  vars : List Int := List.replicate 16 0
  /-- R260: each variable before its last write by a loop, and the tick of that write. -/
  varsBefore : List (Int × Nat) := List.replicate 16 (0, 0)
  /-- R257, R260: the scheduled tick of the evaluation that delivers. -/
  tick : Nat := 0
  /-- control.recipe.load: loads in progress, request, address, LENGTH and CRC, oldest first. -/
  load : List (Ctx × Nat × Nat × BitVec 32) := []
  deriving DecidableEq, Repr

/-! ### Cameras (spec/11_camera_pipeline.md) -/

/-- The statistics parameters of a stream (R287, R288, R293). -/
structure CamStats where
  shift  : Nat := 0xFF   -- HIST_SHIFT, 0xFF for BITS − 8
  thresh : Nat := 0
  x : Nat := 0           -- ROI
  y : Nat := 0
  w : Nat := 0
  h : Nat := 0
  deriving DecidableEq, Repr

/-- The configuration of a stream (camera.stream.config). -/
structure StreamCfg where
  enable  : Bool := false
  port    : Nat := 0
  vc      : Nat := 0
  dt      : Nat := 0x2A
  path    : Nat := 0
  rawCopy : Bool := false
  event   : Bool := false    -- RECORD_EVENT
  embed   : Bool := false    -- PASS_EMBEDDED
  fnDev   : Bool := false    -- FN_DEVICE
  timeout : Nat := 1         -- FRAME_TIMEOUT, ms
  width   : Nat := 1
  height  : Nat := 1
  bytes   : Nat := 0         -- FRAME_BYTES
  buf     : Nat := 0         -- BUF_ADDRESS
  rec'    : Nat := 0         -- REC_ADDRESS
  records : Nat := 4
  fnBase  : Nat := 1
  deriving DecidableEq, Repr

/-- A frame: open, in the backlog, or being processed (R277 to R287). -/
structure Frame where
  seq       : BitVec 32
  fn        : BitVec 16
  fsTime    : BitVec 64
  closeTime : BitVec 64
  flags     : BitVec 16               -- FLAGS of its record
  cfg       : StreamCfg
  stats     : CamStats                -- the shadow set latched at its Frame Start
  lines     : Nat
  discarded : Nat
  rows      : List (Nat × List Nat)   -- line number and pixels of the lines that count in the statistics
  marks     : List (Nat × Nat × Nat)  -- line number, offset in the frame buffer and length of the stored lines (R284)
  buffer    : Nat                     -- frame buffer it is written to
  used      : Nat                     -- bytes used in it
  full      : Bool                    -- a packet did not fit
  deriving DecidableEq, Repr

structure Stream where
  /-- R275: the configuration in force. Reset: disabled (device state, R35). -/
  cfg : StreamCfg := {}
  /-- R275: a configuration that waits for the next Frame Start. -/
  cfgNext : Option StreamCfg := none
  /-- R293: the shadow set. -/
  shadow : CamStats := {}
  /-- R277: the open frame. -/
  opened : Option Frame := none
  /-- R285: closed memory frames not yet processed, oldest first, at most 4. -/
  backlog : List Frame := []
  /-- R285: frames dropped since the last record. -/
  droppedBefore : Nat := 0
  /-- R290: a Frame Start has been seen since the stream was enabled. -/
  started : Bool := false
  /-- R290: SEQUENCE of the last frame opened. -/
  lastSeq : BitVec 32 := 0
  /-- R290: the last frame number received. -/
  lastFn : BitVec 16 := 0
  /-- R284: the frame buffer last opened. -/
  lastBuf : Nat := 0
  /-- R295: the last packet of the stream was an orphan. -/
  orphanRun : Bool := false
  /-- R296: when CAM_FRAME_DROP was last raised for the stream. -/
  dropAt : Option (BitVec 64) := none
  /-- R296: when CAM_FRAME_BAD was last raised for the stream. -/
  badAt : Option (BitVec 64) := none
  /-- camera.stream.status: FRAMES. -/
  frames : BitVec 64 := 0
  /-- R285: DROPPED. -/
  dropped : Count := {}
  /-- R278: SHORT. -/
  short : Count := {}
  /-- R279: LONG. -/
  long : Count := {}
  /-- R280: UNTERMINATED. -/
  unterm : Count := {}
  /-- R281: CRC_LINES. -/
  crcLines : Count := {}
  /-- R295: HDR_CORRECTED. -/
  hdrCorr : Count := {}
  /-- R295: HDR_LOST. -/
  hdrLost : Count := {}
  /-- R284: TRUNCATED. -/
  trunc : Count := {}
  /-- R292: RECORDS_WRITTEN. -/
  recsWritten : Count := {}
  /-- R281: ORPHANS. -/
  orphans : Count := {}
  /-- R289: features delivered to the control engine, 2.30, by code 0 to 4. -/
  feats : List Int := [0, 0, 0, 0, 0]
  /-- R289: FS_TIME of each delivered feature; none before the first. -/
  featAt : List (Option (BitVec 64)) := [none, none, none, none, none]
  deriving DecidableEq, Repr

structure CamPort where
  /-- R274: LANES. -/
  lanes : Nat := 1
  /-- R274: LANE_RATE, Mb/s. -/
  rate : Nat := 80
  /-- R274: ENABLE. -/
  enable : Bool := false
  /-- R274: HS_SETTLE (camera.phy.raw), ns. -/
  hsSettle : Nat := 40
  /-- R274: CLK_SETTLE, ns. -/
  clkSettle : Nat := 95
  /-- R274: EQ. -/
  eq : Nat := 0
  /-- R274: camera.phy.raw settings that wait for the next LP-to-HS transition. -/
  rawNext : Option (Nat × Nat × Nat) := none
  /-- R295: device times of the header and start-of-transmission errors, newest first, at most 16. -/
  errs : List (BitVec 64) := []
  deriving DecidableEq, Repr

structure Cam where
  /-- R274: the four receive ports. -/
  ports : List CamPort := List.replicate 4 {}
  /-- R275: the 16 streams. -/
  streams : List Stream := List.replicate 16 {}
  /-- R286: the memory frame being processed, with its stream. -/
  busy : Option (Nat × Frame) := none
  /-- R286: the memory stream last served. -/
  served : Nat := 15
  /-- R294: HST_CTRL.EN. Reset: 0. -/
  hstEn : Bool := false
  /-- R294: HST_CTRL.STREAM. Reset: 0. -/
  hstStream : BitVec 4 := 0
  /-- R294: HST_STATUS.READY. Reset: 0. -/
  hstReady : Bool := false
  /-- R294: HST_STATUS.FLAGGED. Reset: 0. -/
  hstFlagged : Bool := false
  /-- R294: HST_STATUS.SKIPPED. Reset: 0. -/
  hstSkipped : Bool := false
  /-- R294: HST_TOTAL.PIXELS. Reset: 0. -/
  hstTotal : BitVec 32 := 0
  /-- R294: HST_BIN_0 to HST_BIN_255. Reset: 0. -/
  hstBins : List (BitVec 32) := List.replicate 256 0
  deriving DecidableEq, Repr

/-! ### Lagoon (spec/12_lagoon.md) -/

/-- An open fill (R305, R306). -/
structure Fill where
  next : Nat                     -- the next address
  bad  : Bool                    -- written out of order
  done : List (Nat × Nat)        -- written ranges, start and end
  deriving DecidableEq, Repr

/-- A tile that has been allocated or filled since the reset (R297, R300); any other is free, with a zero header. -/
structure Tile where
  handle    : Nat
  id        : BitVec 32 := 0     -- TILE_ID
  page      : BitVec 32 := 0     -- PAGE_ID
  owner     : TileOwner := .free
  column    : BitVec 8 := 0
  origin    : BitVec 16 := 0
  crc       : BitVec 32 := 0
  allocated : Bool := false      -- granted and not released
  verified  : Bool := false      -- VERIFIED
  admitted  : Bool := false
  blank     : Bool := false      -- its lines are emitted blank (R151)
  failed    : Nat := 0           -- failed checks of the present contents' re-expansions (R151)
  stale     : Bool := false      -- it has failed a check and awaits its expansion or staging again (R151)
  fill      : Option Fill := none
  deriving DecidableEq, Repr

/-- A handle request (R301). -/
structure TileReq where
  due   : BitVec 64
  owner : TileOwner
  deriving DecidableEq, Repr

/-- An entry of the Lagoon corrected-error log (R311). -/
structure LagEntry where
  time     : BitVec 64
  address  : BitVec 32
  syndrome : BitVec 8
  foundBy  : Nat
  cls      : Nat
  deriving DecidableEq, Repr

structure Lag where
  /-- R297: tiles, by rising handle; a tile not listed is free and its header reads zero. Reset: every header OWNER free. -/
  tiles : List Tile := []
  /-- R297: payload bytes by handle × 16,384 + offset, in canonical form; unlisted bytes read 0. Reset: zeros. -/
  data : List Host.Cell := []
  /-- R300: the TILE_ID of the next fill. Reset: 1. -/
  nextId : BitVec 32 := 1
  /-- R301: requests waiting in the allocator, in arrival order, at most 64. -/
  waiting : List TileReq := []
  /-- R301: requests queued in firmware, in ascending due time. -/
  queued : List TileReq := []
  /-- R301: handles granted and not opened for a fill yet, with the request served. -/
  granted : List (Nat × TileReq) := []
  /-- R302: ALLOC_STALLS. -/
  stalls : Count := {}
  /-- R302: LG_ALLOC_STALL has been raised since the last lagoon.status. -/
  stallRaised : Bool := false
  /-- R308: CORRECTED. -/
  corrected : Count := {}
  /-- R310: UNCORRECTABLE. -/
  uncorr : Count := {}
  /-- R310: LAST_UNCORR; 0xFFFF_FFFF if none. -/
  lastUncorr : BitVec 32 := 0xFFFFFFFF
  /-- R306: FILL_ORDER. -/
  fillOrder : Count := {}
  /-- R309: SCRUB_PASSES. -/
  passes : BitVec 32 := 0
  /-- R309: words the present scrub pass has reached. -/
  scrubbed : Nat := 0
  /-- R311: the corrected-error log, oldest first, at most 32. Reset: empty. -/
  log : List LagEntry := []
  /-- R311: LOG_OVERFLOW. Reset: 0. -/
  logOver : Count := {}
  /-- lagoon.ecc.log: entries that repeated reads have returned. -/
  logRead : Nat := 0
  /-- lagoon.ecc.inject (R308): bits to flip at the next read of a word, by ADDRESS. -/
  inject : List (Nat × Nat) := []
  /-- R308: words that hold an uncorrectable error, by ADDRESS. -/
  bad : List Nat := []
  /-- lagoon.tile.read (R299): copies in progress, request, handle and ADDRESS, oldest first. -/
  reads : List (Ctx × Nat × Nat) := []
  deriving DecidableEq, Repr

/-! ### DRAM (spec/13_dram_ecc.md) -/

/-- The configuration record (R316). -/
structure DramCfg where
  channels : Nat := 0      -- bitmap
  ranks    : Nat := 0
  density  : Nat := 0      -- Gb
  rate     : Nat := 0
  trfcNs   : Nat := 0
  hours    : Nat := 0
  skew     : BitVec 32 := 0
  deriving DecidableEq, Repr

/-- A merge-buffer entry (R323): a 64-byte block, its valid bytes, the requester of its oldest write. -/
structure MergeEntry where
  block     : Nat
  valid     : BitVec 64
  bytes     : List Byte
  requester : Nat
  since     : BitVec 64
  deriving DecidableEq, Repr

/-- A queued request with its entry time (R326). -/
structure DramQ where
  req  : DramReq
  time : BitVec 64
  deriving DecidableEq, Repr

/-- The row counters of one bank (R331): rows and counts of the entries in use, in entry order, at most 256. -/
structure RowTable where
  channel : Nat
  rank    : Nat
  bank    : Nat
  rows    : List (Nat × Nat)
  deriving DecidableEq, Repr

/-- A throttle in force (R332), with the last activation of its requester on its bank. -/
structure Throttle where
  channel   : Nat
  rank      : Nat
  bank      : Nat
  requester : Nat
  last      : BitVec 64
  deriving DecidableEq, Repr

/-- An entry of the row log (R333). -/
structure RowLogEntry where
  time      : BitVec 64
  channel   : Nat
  rank      : Nat
  bank      : Nat
  requester : Nat
  row       : Nat
  deriving DecidableEq, Repr

/-- An entry of the DRAM corrected-error log (R337). -/
structure DramEcc where
  time      : BitVec 64
  row       : Nat
  channel   : Nat
  rank      : Nat
  bank      : Nat
  word      : Nat
  syndrome  : BitVec 8
  requester : Nat
  deriving DecidableEq, Repr

structure Dram where
  /-- R316: the configuration record as read at start-up. -/
  cfg : DramCfg := {}
  /-- R334: training has ended well. -/
  trained : Bool := false
  /-- R399: the controller has stopped, its clock having lost lock. -/
  stopped : Bool := false
  /-- R317: DRAM bytes by address, in canonical form; unlisted bytes read 0. Reset: zeros. -/
  mem : List Host.Cell := []
  /-- R319: words whose cells have lost bits, by word address, with their number. -/
  errs : List (Nat × Nat) := []
  /-- R325: poisoned words, by word address. -/
  poison : List Nat := []
  /-- dram.ecc.inject (R319): bits to flip at the next whole-word write, by word address. -/
  inject : List (Nat × Nat) := []
  /-- R323: the merge buffer, oldest first, at most 32 entries. Reset: empty. -/
  merge : List MergeEntry := []
  /-- R326: queued requests per channel, oldest first, at most 64 each. -/
  queues : List (List DramQ) := [[], [], [], []]
  /-- R326: the open row of each bank in use: channel, rank, bank, row. -/
  openRows : List (Nat × Nat × Nat × Nat) := []
  /-- R328: end of the refresh in progress, per channel, ticks. -/
  refreshEnd : List (BitVec 64) := [0, 0, 0, 0]
  /-- R314: a WCK2DQ adjustment waits for the next refresh, per channel. -/
  wckWaits : List Bool := [false, false, false, false]
  /-- R327: device time at which the last refresh of each channel was due. -/
  refreshAt : List (BitVec 64) := [0, 0, 0, 0]
  /-- R331: the 32 ms window for which the row counters stand. -/
  rowWindow : Nat := 0
  /-- R331: row counter tables of banks in use. -/
  tables : List RowTable := []
  /-- R332: throttles in force. -/
  throttled : List Throttle := []
  /-- R333: the row log, oldest first, at most 32. -/
  rowLog : List RowLogEntry := []
  /-- R333: overflow count of the row log. -/
  rowOver : Count := {}
  /-- R337: the corrected-error log, oldest first, at most 32. Reset: empty. -/
  log : List DramEcc := []
  /-- R337: LOG_OVERFLOW. Reset: 0. -/
  logOver : Count := {}
  /-- R337: CORRECTED. Reset: 0. -/
  corrected : Count := {}
  /-- R322: UNCORRECTABLE. Reset: 0. -/
  uncorr : Count := {}
  /-- R337: LAST_UNCORR. Reset: 0xFFFF_FFFF_FFFF_FFFF. -/
  lastUncorr : BitVec 64 := 0xFFFFFFFFFFFFFFFF
  /-- R332: THROTTLES. Reset: 0. -/
  throttles : Count := {}
  /-- R326: STARVED. Reset: 0. -/
  starved : Count := {}
  /-- R325: MERGE_RMW. Reset: 0. -/
  rmw : Count := {}
  /-- R325: POISONED. Reset: 0. -/
  poisoned : Count := {}
  /-- R336: SCRUB_PASSES. Reset: 0. -/
  passes : BitVec 32 := 0
  /-- R336: next raw word of the patrol scrub, data words first. -/
  scrubAt : Nat := 0
  /-- R336: device time at which the pass began. -/
  scrubFrom : BitVec 64 := 0
  /-- R336: SCRUB_HOURS in force. -/
  hours : Nat := 24
  /-- dram.scrub.config (R336): SCRUB_HOURS of the next pass. -/
  hoursNext : Option Nat := none
  /-- R329: MR4_MAX. -/
  mr4Max : Nat := 0
  /-- R29: the requester whose request the arbiter has granted last. -/
  grantedLast : Nat := 63
  /-- R326: what the last request served returned: requester, data, and whether it was correct. -/
  served : Option (Nat × List Byte × Bool) := none
  deriving DecidableEq, Repr

/-! ### DMA and compression (spec/14_dma_compression.md) -/

/-- A descriptor in execution (R347). -/
structure Desc where
  src    : Nat
  dst    : Nat
  length : Nat
  half   : Bool          -- IRQ_HALF
  done   : Bool          -- IRQ_DONE
  cont   : Bool          -- CRC_CONTINUE
  moved  : Nat           -- bytes moved so far
  crc    : BitVec 32     -- running CRC, before the final XOR
  status : Nat           -- STATUS as last written
  deriving DecidableEq, Repr

structure Channel where
  /-- R346: STATE of dma.channel.status, 0 off, 1 running, 2 waiting for READY, 3 ERROR. -/
  st : Nat := 0
  /-- R342: grants per window: 4 per unit of share, 1 per SHARE_FINE step. -/
  grants : Nat := 4
  /-- dma.channel.raw (R342): grants per window from the next window on. -/
  grantsNext : Option Nat := none
  /-- R346: RING_SIZE. -/
  ringSize : Nat := 2
  /-- R346: RING_ADDRESS. -/
  ring : Nat := 0
  /-- R346: POLL_US. -/
  pollUs : Nat := 1
  /-- R346: INDEX of the next descriptor. -/
  index : Nat := 0
  /-- R346: the descriptor in execution. -/
  cur : Option Desc := none
  /-- R348: the running CRC of the previous descriptor if it is DONE. -/
  prevCrc : Option (BitVec 32) := none
  /-- R347: DONE. -/
  done : BitVec 64 := 0
  /-- dma.channel.status: BYTES. -/
  bytes : BitVec 64 := 0
  /-- R350: BAD. -/
  bad : Count := {}
  /-- R346: device time of the last read of a descriptor that was not READY. -/
  pollAt : BitVec 64 := 0
  /-- R344: MAX_WAIT_NS. -/
  maxWait : BitVec 32 := 0
  deriving DecidableEq, Repr

/-- A compression job of the host (R357, R358). -/
structure CJob where
  job      : BitVec 64
  ctx      : Ctx
  src      : Nat
  dst      : Nat
  srcLen   : Nat
  dstLimit : Nat
  origCrc  : BitVec 32
  compress : Bool
  level    : Nat
  chain    : Nat              -- candidates searched (R355)
  tag      : BitVec 32
  deriving DecidableEq, Repr

/-- A firmware job (R357, R359): the expansion of a band into the tiles of a page's row, or of one tile again. -/
structure FwJob where
  station  : Nat
  page     : BitVec 32
  src      : Nat
  srcLen   : Nat
  origCrc  : BitVec 32
  row      : Nat
  firstCol : Nat
  ncol     : Nat
  again    : Option Nat       -- the handle, for a re-expansion (R151)
  old      : BitVec 32        -- TILE_ID of that handle's last fill; 0 for none
  refused  : Bool := false    -- a write of it to a tile with no open fill has been refused (R307)
  deriving DecidableEq, Repr

/-- A job on an engine. -/
inductive EngineJob where
  | host (j : CJob)
  | fw (j : FwJob)
  deriving DecidableEq, Repr

structure Deflate where
  /-- R357: the job in progress. -/
  cur : Option EngineJob := none
  /-- R342: the share in force. Reset: 8. -/
  share : Nat := 8
  /-- compress.config: the share from the next job on. Reset: 8. -/
  shareNext : Nat := 8
  /-- R360: the job in progress has been aborted. -/
  aborted : Bool := false
  /-- compress.status: JOBS. -/
  jobs : BitVec 64 := 0
  /-- compress.status: BYTES_IN. -/
  bytesIn : BitVec 64 := 0
  /-- compress.status: BYTES_OUT. -/
  bytesOut : BitVec 64 := 0
  /-- R358: counts of RESULT 1 to 7. -/
  results : List Count := List.replicate 7 {}
  deriving DecidableEq, Repr

structure Dma where
  /-- R345: the 32 channels. -/
  channels : List Channel := List.replicate 32 {}
  /-- R340: BASE of windows 1 to 15; none for unset. -/
  windows : List (Option Nat) := List.replicate 15 none
  /-- R354: the four engines. -/
  engines : List Deflate := List.replicate 4 {}
  /-- R357: HOST_ENGINES. Reset: 0x0F. -/
  hostEngines : BitVec 4 := 0xF
  /-- R357: queued host jobs, oldest first, at most 32. -/
  queue : List CJob := []
  /-- R357: queued firmware jobs, oldest first. -/
  fwQueue : List FwJob := []
  /-- R358: JOB of the next submission. -/
  nextJob : BitVec 64 := 0
  /-- compress.engine.raw: CHAIN; 0 for the table of R355. -/
  chain : Nat := 0
  /-- R29: grants left in the window to classes 0, 1 and 2. -/
  classLeft : List Nat := [51, 409, 256]
  /-- R29: the window of 1,024 fabric cycles for which the budgets stand. -/
  window : Nat := 0
  /-- R342: grants left in the window to channels 0 to 31, engines 0 to 3 and host access through BAR2. -/
  left : List Nat := List.replicate 32 0 ++ [32, 32, 32, 32, 32]
  /-- R349: writes to host memory, PCIe bus address and bytes, oldest first. -/
  toHost : List (Nat × List Byte) := []
  /-- R340: what the last host read through BAR2 returned; none for a bus error. -/
  bar2Read : Option (List Byte) := some []
  deriving DecidableEq, Repr

/-! ### Motors (spec/15_bldc.md) -/

structure Motor where
  /-- bldc.status (R370): STATE. Reset: STOPPED (device state). -/
  st : MotorState := .stopped
  /-- R363: POLE_PAIRS. -/
  poles : Nat := 1
  /-- R374: SOURCE, 0 MCI, 1 engine, 2 pin. -/
  source : Nat := 0
  /-- R369: AUTO_RESTART. -/
  auto : Bool := false
  /-- R363: MAX_RPM. -/
  maxRpm : Nat := 100
  /-- R374: MIN_RPM. -/
  minRpm : Nat := 0
  /-- R370: CATCH_RPM; 0 for 10 % of MAX_RPM. -/
  catchRpm : Nat := 0
  /-- R364: PWM_KHZ. -/
  pwmKhz : Nat := 20
  /-- R374: MAX_DUTY, 1/255. -/
  maxDuty : Nat := 0
  /-- R370: ALIGN_DUTY, 1/255. -/
  alignDuty : Nat := 0
  /-- R376: PIN_MODE. -/
  pinMode : Nat := 0
  /-- R370: ALIGN_MS. -/
  alignMs : Nat := 10
  /-- R370: RAMP_MS. -/
  rampMs : Nat := 50
  /-- R370: HANDOFF_RPM. -/
  handoff : Nat := 0
  /-- R370: BRAKE_MS. -/
  brakeMs : Nat := 100
  /-- R374: ACCEL, rpm/s. -/
  accel : Nat := 1
  /-- R374: KP, 16.16. -/
  kp : Nat := 0
  /-- R374: KI, 16.16. -/
  ki : Nat := 0
  /-- R377: I_DRIVE, mV. -/
  iDrive : Nat := 0
  /-- R376: PIN_LO. -/
  pinLo : Nat := 0
  /-- R376: PIN_HI. -/
  pinHi : Nat := 0
  /-- R376: FAILSAFE, 1/255 of MAX_RPM. -/
  failsafe : Nat := 0
  /-- R365: DEMAG, 1/32. Reset: 4. -/
  demag : Nat := 4
  /-- R365: ADVANCE, degrees electrical. -/
  advance : Nat := 0
  /-- R368: LOSS_COUNT. Reset: 6. -/
  lossCount : Nat := 6
  /-- R365: BEMF_BLANK, ns. -/
  bemfBlank : Nat := 50
  /-- R364: DEAD_NS. -/
  deadNs : Nat := 20
  /-- bldc.raw (R365): settings that wait for the next commutation: DEMAG, ADVANCE, LOSS_COUNT, BEMF_BLANK, DEAD_NS. -/
  rawNext : Option (Nat × Nat × Nat × Nat × Nat) := none
  /-- R362: gates AH, AL, BH, BL, CH, CL, bit 0 first; a high side that is set is switched by PWM at `duty`. Reset: off
  (R521). -/
  gates : BitVec 6 := 0
  /-- R364: the gates before the last change, and its device time: what turns on waits the dead time. -/
  gatesBefore : BitVec 6 := 0
  gatesAt : BitVec 64 := 0
  /-- R370: commutations of the present ramp. -/
  rampSteps : Nat := 0
  /-- R374: integral of the speed error, in rpm × 1.6 × 10^9 × ticks. -/
  errorSum : Int := 0
  /-- R364: step of the electrical revolution, 0 to 5. -/
  step : Nat := 0
  /-- R364: duty, 1/255. -/
  duty : Nat := 0
  /-- R367: the last step intervals, newest first, at most 6, ticks. -/
  deltas : List Nat := []
  /-- R368: a crossing has been judged in the present step. -/
  crossed : Bool := false
  /-- R368: device time of the last commutation, ticks. -/
  commAt : BitVec 64 := 0
  /-- R365: the device time of the last zero crossing, or of the start of RAMP or of a catch before the first. -/
  crossAt : BitVec 64 := 0
  /-- R365: device time at which the next commutation is due. -/
  commDue : BitVec 64 := 0
  /-- R368: consecutive implausible steps. -/
  badRun : Nat := 0
  /-- R370: consecutive plausible crossings in RAMP. -/
  goodRun : Nat := 0
  /-- R374: the command of the selected source, rpm. -/
  command : Nat := 0
  /-- R374: the command in force after limits, in rpm × 1.6 × 10^9. -/
  inForce : Nat := 0
  /-- bldc.stop MODE 1 (R373): ramping down. -/
  ramping : Bool := false
  /-- R375: LIMITED. -/
  limited : Bool := false
  /-- R376: the pin signal is lost. -/
  pinLost : Bool := false
  /-- R376: the last valid command of the pin, rpm. -/
  pinRpm : Nat := 0
  /-- R377: PWM periods limited since the last window. -/
  limitedPeriods : Nat := 0
  /-- R377: device time at which the present PWM period was limited: the high side is off for the rest of it. -/
  limitAt : Option (BitVec 64) := none
  /-- R377: start of the present window of 100 ms, ticks. -/
  windowAt : BitVec 64 := 0
  /-- R370: device time at which the present step of the start sequence began. -/
  phaseAt : BitVec 64 := 0
  /-- R370: device time at which the brake was last released for a listen, or BRAKE began. -/
  listenAt : BitVec 64 := 0
  /-- R376: device time of the last edge or sample of MOTm_SPD. -/
  pinAt : BitVec 64 := 0
  /-- R376: since when the analogue level of MOTm_SPD has been out of its range. -/
  pinBadAt : Option (BitVec 64) := none
  /-- R376: since when the signal of MOTm_SPD has been valid. -/
  pinOkAt : Option (BitVec 64) := none
  /-- R372: retries made. -/
  retries : Nat := 0
  /-- R370: the request of the start in progress. -/
  ctx : Option Ctx := none
  /-- bldc.start (R372): CAUSE of the last failed attempt. -/
  cause : Nat := 0
  /-- R372: device time at which RUN was entered. -/
  runAt : BitVec 64 := 0
  /-- R370: the present start entered by catching. -/
  caught : Bool := false
  /-- R369: SYNC_LOSSES. -/
  syncLosses : Count := {}
  /-- R372: START_FAILS. -/
  startFails : Count := {}
  /-- R379: BUS_BRAKES. -/
  busBrakes : Count := {}
  /-- bldc.status (R364): COMMUTATIONS. -/
  commutations : BitVec 64 := 0
  deriving DecidableEq, Repr

structure MotorBus where
  /-- R378: bldc.bus.config has been accepted. -/
  configured : Bool := false
  /-- R362: MOTOR_MASK. -/
  motors : BitVec 8 := 0
  /-- R378: BUS_FULL_SCALE, 0.1 V. -/
  fullScale : Nat := 0
  /-- R378: CHOP_ON, 0.1 V. -/
  chopOn : Nat := 0
  /-- R378: CHOP_OFF, 0.1 V. -/
  chopOff : Nat := 0
  /-- R379: OV_LIMIT, 0.1 V. -/
  ovLimit : Nat := 0
  /-- R379: ABS_LIMIT, 0.1 V. -/
  absLimit : Nat := 0
  /-- R379: I_BRAKE, mV. -/
  iBrake : Nat := 0
  /-- R378: the chopper gate MOTBUSg_BRK. Reset: off (R521). -/
  chopper : Bool := false
  /-- R378: device time at which the chopper last turned on. -/
  chopAt : BitVec 64 := 0
  /-- R378: last bus voltage, 0.1 V. -/
  volts : Nat := 0
  /-- R380: the latch. -/
  latched : Bool := false
  /-- R379: ABS_LIMIT has been reached since bus braking began. -/
  absRaised : Bool := false
  deriving DecidableEq, Repr

structure Bldc where
  /-- R362: the eight motors. -/
  motors : List Motor := List.replicate 8 {}
  /-- R362: the two bus groups. Reset: motors 0 to 3 in group 0, motors 4 to 7 in group 1. -/
  buses : List MotorBus := [{ motors := 0x0F }, { motors := 0xF0 }]
  deriving DecidableEq, Repr

/-! ### Axes (spec/16_motion.md) -/

/-- A queued move (R387). -/
structure Move where
  length : Nat          -- steps
  pos    : Bool         -- in the positive direction
  blend  : Bool
  notify : Bool
  vMax   : Nat
  accel  : Nat
  decel  : Nat
  tag    : BitVec 32
  late   : Bool := false  -- it joined during the deceleration toward the end of the queue (R389)
  deriving DecidableEq, Repr

/-- The motion planned from an instant on (R385): of a move from its start, of a ramped stop from its beginning. -/
structure Segment where
  start : BitVec 64     -- ticks
  done  : Nat           -- fraction of a step at which a ramped stop began, in 1/(6 × 1.6 × 10^9 cubed) of a step
  vIn   : Nat           -- steps/s
  deriving DecidableEq, Repr

/-- A limit input (R390). -/
structure Limit where
  /-- R390: level at the ball. -/
  level : Bool := false
  /-- R390: debounced level. -/
  st : Bool := false
  /-- R390: a change waits out its debounce. -/
  waiting : Bool := false
  /-- R390: device time of the last change at the ball. -/
  since : BitVec 64 := 0
  /-- R390: mode, 0 to 2. -/
  mode : Nat := 0
  /-- R390: active low. -/
  activeLow : Bool := false
  deriving DecidableEq, Repr

structure Axis where
  /-- motion.status (R391): STATE. -/
  st : AxisState := .idle
  /-- R383: configured since reset, so STPa_EN is active. -/
  configured : Bool := false
  /-- R386: PROFILE, S-curve. -/
  sCurve : Bool := false
  /-- R383: DIR_INVERT. -/
  dirInvert : Bool := false
  /-- R383: EN_ACTIVE_LOW. -/
  enLow : Bool := false
  /-- R385: V_START, steps/s. -/
  vStart : Nat := 1
  /-- R386: V_MAX, steps/s. -/
  vMax : Nat := 1
  /-- R386: ACCEL, steps/s². -/
  accel : Nat := 0
  /-- R391: D_STOP, steps/s². -/
  dStop : Nat := 1
  /-- R386: JERK, 1,000 steps/s³. -/
  jerk : Nat := 0
  /-- R383: STEP_NS. -/
  stepNs : Nat := 100
  /-- R383: DIR_SETUP_NS. -/
  dirSetupNs : Nat := 100
  /-- R390: LIMa_NEG. -/
  limNeg : Limit := {}
  /-- R390: LIMa_POS. -/
  limPos : Limit := {}
  /-- R390: LIM_DEBOUNCE_US. -/
  debounce : Nat := 1
  /-- motion.axis.raw (R383): STEP_NS and V_START that wait for the next start from rest. -/
  rawNext : Option (Nat × Nat) := none
  /-- R384: position at the start of the present move, a signed 64-bit count. -/
  base : BitVec 64 := 0
  /-- R384: pulses issued before the present move (PULSES). -/
  pulses : BitVec 64 := 0
  /-- R387: moves, the present one first, at most 32. -/
  queue : List Move := []
  /-- R385: the planned motion of the present move. -/
  seg : Segment := ⟨0, 0, 0⟩
  /-- R383: STPa_DIR points in the positive direction. -/
  dirPos : Bool := true
  /-- R391: direction of a ramped stop in progress. -/
  stopPos : Bool := false
  /-- R391: velocity at which the ramped stop began, in 1/(2 × 1.6 × 10^9 squared) of a step per second. -/
  stopV : Nat := 0
  /-- R383: device time at which the last pulse of an earlier motion began. -/
  pulseAt : Option (BitVec 64) := none
  /-- R391: STOP_CAUSE. -/
  cause : Nat := 0
  /-- R392: POS_LOST. -/
  posLost : Bool := false
  /-- R389: STARVED. -/
  starved : Count := {}
  /-- R390: LIMIT_STOPS. -/
  limitStops : Count := {}
  /-- R392: POS_LOSTS. -/
  posLosts : Count := {}
  deriving DecidableEq, Repr

/-! ### Clocks (spec/17_clocks.md) -/

/-- A scan line of a synthesiser (R401, R403). -/
structure SynthLine where
  /-- R403: BD stamp + SOS_OFFSET, device time in sub-ticks. -/
  start : Int
  /-- R402: the profile of the line. -/
  ramp : List Int
  /-- R401: SCAN_PIXELS. -/
  pixels : Nat
  deriving DecidableEq, Repr

structure Synth where
  /-- R400: ENABLE. -/
  enabled : Bool := false
  /-- R400: FREQ. -/
  freq : Nat := 0
  /-- R403: BD_RESET. -/
  bdReset : Bool := false
  /-- R403: PHASE_TOL, sub-ticks. -/
  phaseTol : Nat := 10
  /-- R402: RAMP in force; empty for none loaded. -/
  ramp : List Int := []
  /-- R402: RAMP loaded that waits for the next page or BD edge. -/
  rampNext : Option (List Int) := none
  /-- clock.synth.profile (R402): loads in progress, request, address and CRC, oldest first. -/
  loads : List (Ctx × Nat × BitVec 32) := []
  /-- clock.synth.config (R408): the requests that await the declaration of lock, with the ticks at which they were accepted. -/
  ctx : List (BitVec 64 × Ctx) := []
  /-- clock.synth.raw (R399): LOOP_BW. -/
  loopBw : Nat := 0
  /-- clock.synth.raw (R399): PUMP. -/
  pump : Nat := 0
  /-- clock.synth.raw (R399): LOOP_BW and PUMP that wait for the next relock. -/
  rawNext : Option (Nat × Nat) := none
  /-- R408: SYNTH_UNLOCKS. -/
  unlocks : Count := {}
  /-- R403: PHASE_ERRORS. -/
  phaseErrors : Count := {}
  /-- R403: CK_SYNTH_PHASE has been raised on the present page. -/
  raised : Bool := false
  /-- R401: the lines of the last two accepted BD edges, newest first. -/
  lines : List SynthLine := []
  /-- R403: BD stamp of the last edge that reset the output divider, device time in sub-ticks. -/
  resetAt : Option Int := none
  deriving DecidableEq, Repr

structure Clk where
  /-- R397: REF_IN is the reference, from the strap REF_SEL. Reset: strap. -/
  refIn : Bool := false
  /-- R405: declared locked: bits 2:0 system PLLs 0 to 2, bits 6:3 synthesisers 0 to 3. -/
  locked : BitVec 7 := 0
  /-- R405: included in the lock monitor. -/
  included : BitVec 7 := 0
  /-- R406: device time of inclusion of each loop. -/
  includedAt : List (BitVec 64) := [0, 0, 0, 0, 0, 0, 0]
  /-- R406: LOCKSENSE_MV, the last reading. -/
  senseMv : Nat := 0
  /-- R406: since when LOCKSENSE has stayed above 1.35 V. -/
  aboveAt : Option (BitVec 64) := none
  /-- R406: LOCKSENSE has fallen below 1.08 V. -/
  senseLow : Bool := false
  /-- R407: the lock path is implausible. -/
  pathBad : Bool := false
  /-- R408: cause 5 of stations 0 to 3 from their synthesisers. -/
  synthGate : BitVec 4 := 0
  /-- R406: cause 5 of all links from LOCKSENSE. -/
  senseGate : Bool := false
  /-- R34: gate of all links from the reference or system PLL 0 or 1. -/
  sysGate : Bool := false
  /-- R400: the four pixel synthesisers. -/
  synths : List Synth := List.replicate 4 {}
  deriving DecidableEq, Repr

/-! ### Temperatures (spec/18_thermal.md) -/

structure Sensor where
  /-- R411: reading, 0.25 °C. -/
  value : Int := 0
  /-- R412: broken. -/
  broken : Bool := false
  /-- thermal.sensor.force (R411): the value that replaces each reading. -/
  forced : Option Int := none
  deriving DecidableEq, Repr

/-- A thermistor's conversion (R414). -/
structure Thermistor where
  /-- R412: OPEN_MIN. -/
  openMin : Nat := 0
  /-- R412: SHORT_MAX. -/
  shortMax : Nat := 4095
  /-- R414: the 33 entries, 0.25 °C. -/
  table : List Int := List.replicate 33 0
  deriving DecidableEq, Repr

/-- The settings of thermal.unit.config. -/
structure UnitConfig where
  sensors : List Nat
  nMin : Nat
  k : Nat
  warn : Int
  throttle : Int
  trip : Int
  hyst : Int
  rate : Nat
  deriving DecidableEq, Repr

structure Unit' where
  /-- R416: a thermal.unit.config is in force. -/
  configured : Bool := false
  /-- R416: its sensors. -/
  sensors : List Nat := []
  /-- R417: WARN, 0.25 °C. -/
  warn : Int := 0
  /-- R417: THROTTLE, 0.25 °C. -/
  throttle : Int := 0
  /-- R417: TRIP, 0.25 °C. -/
  trip : Int := 0
  /-- R417: HYST, 0.25 °C. -/
  hyst : Int := 4
  /-- R417: RATE, 0.1 °C/s. -/
  rate : Nat := 10
  /-- R417: K, 1/1,024 per °C. -/
  k : Nat := 0
  /-- R417: N_MIN. -/
  nMin : Nat := 1
  /-- R420: step n. -/
  step : Nat := 16
  /-- R420: since when the unit has been at or above THROTTLE, counted up to the last fall of n. -/
  hotFrom : Option (BitVec 64) := none
  /-- R420: since when the unit has been below THROTTLE − HYST, counted up to the last rise of n. -/
  coolFrom : Option (BitVec 64) := none
  /-- R421: proportional factor, 1/1,024. -/
  prop : Nat := 1024
  /-- R418: TH_WARN has been raised and not cleared. -/
  warned : Bool := false
  /-- R419: the trip latch. -/
  tripped : Bool := false
  /-- thermal.unit.config (R416): settings that wait for the next reading. -/
  waiting : Option UnitConfig := none
  /-- R423: a reading has been taken since the channel became privileged. -/
  byProp : Bool := false
  /-- R423: privileged at the last evaluation. -/
  wasPriv : Bool := false
  /-- R423: the factor in force at the last evaluation, 1/1,024. -/
  lastFactor : Nat := 1024
  /-- R418: readings held each 1 ms: device time and 0.25 °C, newest first. -/
  held : List (BitVec 64 × Int) := []
  /-- thermal.status (R420): device time since which the unit has been throttled, counted up to. -/
  throttledFrom : Option (BitVec 64) := none
  /-- thermal.status (R420): THROTTLE_MS. -/
  throttleMs : Count := {}
  /-- R419: TRIPS. -/
  trips : Count := {}
  deriving DecidableEq, Repr

structure Therm where
  /-- R411: the 72 sensors. -/
  sensors : List Sensor := List.replicate 72 {}
  /-- R414: the 32 thermistor conversions. -/
  thermistors : List Thermistor := List.replicate 32 {}
  /-- R416, R417: units 0 to 39. Reset: the device unit takes TS0 to TS15 with its default thresholds. -/
  units : List Unit' :=
    { configured := true, sensors := [0, 1, 2, 3, 4, 5, 6, 7, 8, 9, 10, 11, 12, 13, 14, 15],
      warn := 420, throttle := 460, trip := 500, hyst := 20, rate := 500, k := 64, nMin := 8 } :: List.replicate 39 {}
  deriving DecidableEq, Repr

/-! ### Power and Atoll (spec/19_power_atoll.md) -/

structure Rail where
  /-- R428: IN_SEQ. -/
  inSeq : Bool := false
  /-- R427: PG_USED. -/
  pgUsed : Bool := false
  /-- R427: PG_ACTIVE_LOW. -/
  pgLow : Bool := false
  /-- R427: EN_ACTIVE_LOW. -/
  enLow : Bool := false
  /-- R428: PG_TIMEOUT_MS. -/
  pgTimeout : Nat := 1
  /-- R428: SETTLE_MS. -/
  settle : Nat := 0
  /-- R428: DISCHARGE_MS. -/
  discharge : Nat := 1
  /-- R429: FILTER_US. -/
  filter : Nat := 10
  /-- R427: VMON_FULL_SCALE, mV at code 4,095. -/
  fullScale : Nat := 0
  /-- R427: UV_MV. -/
  uv : Nat := 0
  /-- R427: OV_MV. -/
  ov : Nat := 0
  /-- R428: DISCHARGE_MV. -/
  dischMv : Nat := 0
  /-- R427: RAILn_EN is driven active. Reset: inactive (R521). -/
  en : Bool := false
  /-- R432: device time at which the enable drops, once it has been taken back. -/
  dropAt : BitVec 64 := 0
  /-- R427: the rail is up. -/
  up : Bool := false
  /-- R427: last code of RAILn_VMON. -/
  code : Nat := 0
  deriving DecidableEq, Repr

structure Pwr where
  /-- R427: the 16 rail slots. -/
  rails : List Rail := List.replicate 16 {}
  /-- R431: the sequencer state. Reset: DOWN (R430). -/
  st : SeqState := .down
  /-- R428: the slot being stepped. -/
  slot : Option Nat := none
  /-- R428: the slot is up and settles. -/
  settling : Bool := false
  /-- R428: device time at which the present wait of the sequencer began. -/
  stepAt : BitVec 64 := 0
  /-- R431: the 100 ms of MIN_OFF run. -/
  minOff : Bool := false
  /-- R431: device time at which MIN_OFF began. -/
  minOffAt : BitVec 64 := 0
  /-- R432: cause of the latch, 0 none, 1 a rail, 2 nSYSFAULT, 3 a FATAL reaction. -/
  latch : Nat := 0
  /-- R432: an on request is held. -/
  heldOn : Bool := false
  /-- R433: the page grace runs, since a device time. -/
  grace : Option (BitVec 64) := none
  /-- R438: the last power-down led to a latch, cleared since or not. -/
  latchedOff : Bool := false
  /-- R438: the power-down was asked with END 0. -/
  endKeep : Bool := false
  /-- R431: requests of power.up that await their completion. -/
  upCtx : List Ctx := []
  /-- R432: CAUSE of the power-down in progress. -/
  cause : Nat := 0
  /-- R432: SLOT of the completion of power.up, highest slot enabled. -/
  topSlot : Nat := 0
  /-- R433: requests of power.down that await their completion. -/
  downCtx : List Ctx := []
  /-- R434: nSYSFAULT is low from another device. -/
  sysIn : Bool := false
  /-- R434: the device pulls nSYSFAULT for the supervisor watchdog. -/
  pullWdog : Bool := false
  /-- R465: the device pulls nSYSFAULT for a FATAL reaction. -/
  pullFatal : Bool := false
  /-- R438: the supply is lost. -/
  supplyLost : Bool := false
  /-- R438: RAILM_EN is to drop once the device reset in progress is over. -/
  dropMain : Bool := false
  /-- R436: a forced-off press has not been released. -/
  pressHeld : Bool := false
  /-- power.status (R429): RAIL_FAULTS. -/
  railFaults : Count := {}
  /-- power.status (R444): VBAT_MV, the last reading. -/
  vbatMv : Nat := 0
  deriving DecidableEq, Repr

structure Atoll where
  /-- R442: the RTC. Reset: 0 (ATL_RTC_LO, ATL_RTC_HI). -/
  rtc : BitVec 48 := 0
  /-- R442: fraction of an RTC cycle, of 390,625 parts. -/
  rtcAcc : Fin 390625 := 0
  /-- R443: COUNT_HI as the last read of ATL_RTC_LO captured it. -/
  rtcHiRead : BitVec 16 := 0
  /-- R443: COUNT_HI written and held until ATL_RTC_LO is written. -/
  rtcHiHeld : BitVec 16 := 0
  /-- R442: ATL_PWR_STATUS.RTC_VALID. Reset: 0. -/
  rtcValid : Bool := false
  /-- R442: ATL_ALARM0 to ATL_ALARM3. Reset: 0. -/
  alarms : List (BitVec 48) := [0, 0, 0, 0]
  /-- R443: ATL_ALARM_CTRL.FLAG. Reset: 0. -/
  alarmFlag : BitVec 4 := 0
  /-- R443: ATL_ALARM_CTRL.WAKE. Reset: 0. -/
  alarmWake : BitVec 4 := 0
  /-- R443: ATL_ALARM_CTRL.EN. Reset: 0. -/
  alarmEn : BitVec 4 := 0
  /-- R443: ATL_WAKE_CTRL.FLAG. Reset: 0. -/
  wakeFlag : BitVec 4 := 0
  /-- R443: ATL_WAKE_CTRL.POL. Reset: 0. -/
  wakePol : BitVec 4 := 0
  /-- R443: ATL_WAKE_CTRL.EN. Reset: 1. -/
  wakeEn : BitVec 4 := 1
  /-- R443: ATL_PWR_CFG.OFF_GRACE, s. Reset: 0x0A. -/
  offGrace : BitVec 8 := 0x0A
  /-- R443: ATL_PWR_CFG.SUPPLY_MON. Reset: 0. -/
  supplyMon : Bool := false
  /-- R443: ATL_PWR_CFG.OFF_TO_STANDBY. Reset: 0. -/
  standby : Bool := false
  /-- R443: ATL_PWR_CFG.AUTO_ON. Reset: 0. -/
  autoOn : Bool := false
  /-- R443: ATL_PWR_CFG.AUTO_RESTART. Reset: 0. -/
  autoRestart : Bool := false
  /-- R443: ATL_PWR_STATUS.WAKE_CAUSE. Reset: 0. -/
  wakeCause : BitVec 4 := 0
  /-- R443: ATL_PWR_STATUS.LAST_RAIL. Reset: 0. -/
  lastRail : BitVec 4 := 0
  /-- R443: ATL_PWR_STATUS.FORCED_OFF. Reset: 0. -/
  forcedOff : Bool := false
  /-- R444: a forced off that PW_FORCED_OFF has not reported yet. -/
  forcedNew : Bool := false
  /-- R443: ATL_PWR_STATUS.SUPPLY_LOST. Reset: 0. -/
  supplyLost : Bool := false
  /-- R443: ATL_PWR_STATUS.SYSFAULT_SEEN. Reset: 0. -/
  sysfaultSeen : Bool := false
  /-- R443: ATL_PWR_STATUS.RAIL_FAULT. Reset: 0. -/
  railFault : Bool := false
  /-- R443: ATL_PWR_STATUS.RAIL_NO_PG. Reset: 0. -/
  railNoPg : Bool := false
  /-- R438: ATL_PWR_STATUS.MAIN, RAILM_EN. Reset: 1. -/
  main : Bool := true
  /-- R443: ATL_RET0 to ATL_RET15. Reset: 0. -/
  ret : List (BitVec 32) := List.replicate 16 0
  deriving DecidableEq, Repr

/-! ### Lamp strings (spec/20_lighting.md) -/

structure Lamp where
  /-- light.string.status (R452): STATE, 0 off, 1 testing, 2 on, 3 failed. Reset: off. -/
  st : Nat := 0
  /-- R450: REGULATED. -/
  regulated : Bool := false
  /-- R451: FUNCTION. -/
  function : Nat := 0
  /-- R445: LAMPS. -/
  lamps : Nat := 1
  /-- R447: LEVEL. Reset: 0 (every string is off). -/
  level : Nat := 0
  /-- R447: LEVEL in force until `levelFrom`. -/
  levelWas : Nat := 0
  /-- R447: device time from which LEVEL is in force. -/
  levelFrom : BitVec 64 := 0
  /-- R447: device time at which the string was enabled, where its PWM periods begin. -/
  onAt : BitVec 64 := 0
  /-- R446: device time of the last frame, or of the enabling. -/
  frameAt : BitVec 64 := 0
  /-- R445: REF_FULL_MV. -/
  refMv : Nat := 100
  /-- R447: PWM_HZ. -/
  pwmHz : Nat := 200
  /-- R446: the shunt mask. -/
  shunt : BitVec 16 := 0
  /-- R452: the function is intact. -/
  functionOk : Bool := false
  /-- R452: device time at which the function became intact. -/
  intactAt : BitVec 64 := 0
  /-- R448: FAILED_MASK. -/
  failed : BitVec 16 := 0
  /-- R448: lamps reported open or shorted in the last judged frame. -/
  suspect : BitVec 16 := 0
  /-- R448: the last frame had a CRC failure or a matrix fault. -/
  commBad : Bool := false
  /-- R452: consecutive good frames of the lamp test. -/
  good : Nat := 0
  /-- R452: the request of light.string.config that awaits the lamp test. -/
  ctx : Option Ctx := none
  /-- R446: the last status frame's 32 lamp bits. -/
  reports : BitVec 32 := 0
  /-- R453: device time of the last confirmed failure. -/
  failAt : Option (BitVec 64) := none
  /-- R448: LAMP_FAILS. -/
  lampFails : Count := {}
  /-- R448: COMM_ERRORS. -/
  commErrors : Count := {}
  deriving DecidableEq, Repr

/-! ### Faults (spec/21_faults.md) -/

/-- A raise presented to the fabric and not recorded yet (R459). -/
structure Raise where
  source   : Nat
  time     : BitVec 64
  unit     : Option Nat
  detail   : Nat
  firmware : Bool        -- raised by firmware (FLAGS bit 4 of its entry)
  forced   : Bool
  fatal    : Bool        -- raised with class FATAL (R457)
  judged   : Option FClass -- its effective class, decided by an acknowledgement of the same device time (R464)
  deriving DecidableEq, Repr

/-- What is held of a source that has been raised (R458); a source that is not listed has never been raised. -/
structure FRec where
  source : Nat
  /-- R458: STICKY. -/
  sticky : Bool := false
  /-- R458: UNACK with its effective class. -/
  unack  : Option FClass := none
  /-- R458: COUNT. -/
  count  : Count := {}
  /-- R458: LAST_TIME. -/
  last   : BitVec 64 := 0
  /-- R468: links that an unacknowledged STOP or FATAL record of the source covers. -/
  cover  : BitVec 24 := 0
  /-- R466: units that the source fences. -/
  fences : List Nat := []
  deriving DecidableEq, Repr

/-- A fault log entry (R472). -/
structure FEntry where
  number : BitVec 32
  time   : BitVec 64
  source : Nat
  cls    : FClass
  eff    : FClass
  flags  : Nat
  unit   : Nat
  detail : Nat
  deriving DecidableEq, Repr

structure Flt where
  /-- R459: raises presented and not recorded yet, oldest first. -/
  presented : List Raise := []
  /-- R458: the sources raised since the reset, by rising identifier. Reset: every source clear. -/
  records : List FRec := []
  /-- R467: recorded raises whose log entry the firmware has not written yet, oldest first. -/
  unwritten : List FEntry := []
  /-- R472: the fault log, oldest first, at most 64 entries. Reset: empty (R473). -/
  log : List FEntry := []
  /-- R472: the number of entries written, saturating. Reset: 0 (R473). -/
  count : Count := {}
  /-- R472: the number the next entry receives. -/
  next : BitVec 32 := 1
  /-- R471: level of ALIVE. Reset: low (R471). -/
  alive : Bool := false
  /-- R471: the device time of ALIVE's last change of level. -/
  aliveAt : Option (BitVec 64) := none
  /-- R471: ALIVE has toggled since its conditions last failed. -/
  toggling : Bool := false
  /-- R22, R471, R492: the supervisor core has been released and serves its watchdog. -/
  watched : Bool := false
  /-- R465: STOP_AXES. Reset: 0 (fault.config). -/
  stopAxes : BitVec 16 := 0
  /-- R465: STOP_HEATERS. Reset: 0 (fault.config). -/
  stopHeaters : BitVec 4 := 0
  /-- R469: source of the FATAL reaction in force. -/
  fatal : Option Nat := none
  deriving DecidableEq, Repr

/-! ### One-time-programmable memory (spec/22_otp.md) -/

/-- A stored word that is not blank: what each copy reads at the three references (R475, R477). -/
structure OtpWord where
  row     : Nat              -- physical word: row × 32 + place; spare rows are rows 64 to 79 (R476)
  normalA : BitVec 32
  marginA : BitVec 32
  lowA    : BitVec 32
  normalB : BitVec 32        -- copy B; 0 on the VM96
  marginB : BitVec 32
  lowB    : BitVec 32
  deriving DecidableEq, Repr

/-- A burn, finalise or strengthen in progress (R484 to R487). -/
structure Burn where
  kind      : Nat                      -- 0 otp.burn, 1 otp.finalise, 2 otp.strengthen
  ctx       : Ctx
  region    : Nat
  todo      : List (Nat × BitVec 32)   -- words and intended values still to program, in order
  burned    : Nat
  weak      : Nat
  firstFail : Option Nat
  digest    : List Byte                -- DIGEST of a finalise
  wordAt    : BitVec 64                -- device time at which the present word began
  deriving DecidableEq, Repr

structure Otp where
  /-- R475: the words that are not blank, by rising physical word. -/
  words : List OtpWord := []
  /-- R476: logical rows mapped to spare rows 0 to 15, in order (VM96). -/
  redirects : List Nat := []
  /-- R477: logical words flagged WEAK, rising. -/
  weak : List Nat := []
  /-- R481: what the last check found of regions 0 to 7. -/
  found : List RegionState := List.replicate 8 .blank
  /-- R481: the start-up check has been made since the reset. -/
  checked : Bool := false
  /-- R488: OTP_SHD_CTRL.EN. Reset: 0x0000. -/
  en : BitVec 16 := 0
  /-- R488: OTP_SHD_ADDR0 to OTP_SHD_ADDR15, WORD. Reset: 0x000. -/
  addr : List (BitVec 11) := List.replicate 16 0
  /-- R488: OTP_SHD_DATA0 to OTP_SHD_DATA15, VALUE. Reset: 0. -/
  data : List (BitVec 32) := List.replicate 16 0
  /-- R489: the burn, finalise or strengthen in progress. -/
  burn : Option Burn := none
  /-- R424: a sensor left the window during the burn in progress. -/
  windowLeft : Bool := false
  /-- otp.status (R484): WORDS_BURNED. -/
  burned : Count := {}
  /-- R478: SPI_DISABLE in force. -/
  spiOff : Bool := false
  /-- R478: PCIE_PUSH_DISABLE in force. -/
  pushOff : Bool := false
  deriving DecidableEq, Repr

/-! ### Start-up (spec/23_startup.md) -/

structure Boot where
  /-- R491: BOOT_STRAPS, bits 3:0. Reset: strap. -/
  straps : BitVec 4 := 0
  /-- R500: BOOT_STATUS.DRAM_STEP. Reset: 0x0. -/
  dramStep : BitVec 4 := 0
  /-- R500: BOOT_STATUS.DRAM_CH. Reset: 0x0. -/
  dramCh : BitVec 4 := 0
  /-- R498: BOOT_STATUS.IMAGE. Reset: 0x0. -/
  image : BitVec 4 := 0
  /-- R500: BOOT_STATUS.FAIL. Reset: 0x0. -/
  fail : BitVec 4 := 0
  /-- R498: BOOT_STATUS.SLOT_A_BAD. Reset: 0. -/
  slotABad : Bool := false
  /-- R498: BOOT_STATUS.SLOT_B_BAD. Reset: 0. -/
  slotBBad : Bool := false
  /-- R495: BOOT_STATUS.BLOCK_DEFAULT. Reset: 0. -/
  blockDefault : Bool := false
  /-- R501: BOOT_CAUSE.FATAL_SOURCE. Reset: 0xFFFF. -/
  fatalSource : BitVec 16 := 0xFFFF
  /-- R501: BOOT_CAUSE.CAUSE. Reset: 0x0. -/
  cause : BitVec 4 := 0
  /-- R501: the reset cause latched in Atoll. -/
  latchedCause : BitVec 4 := 0
  /-- R501: the FATAL source latched in Atoll. -/
  latchedFatal : BitVec 16 := 0xFFFF
  /-- startup.boot.status (R492): READY_MS. -/
  readyMs : Nat := 0
  /-- R494: PREFER of the boot block in use. -/
  prefer : Nat := 0
  /-- R494: flash bytes by offset, in canonical form; unlisted bytes read 0xFF (log entry 8). -/
  flash : List Host.Cell := []
  /-- R499: the RESULT word. -/
  pushResult : BitVec 32 := 0
  /-- R499: the PUSH word. -/
  push : BitVec 32 := 0
  /-- R496: FW_VERSION of the image that runs. -/
  fwVersion : BitVec 32 := 0
  /-- R502: the request of startup.personality.select in progress, with its personality. -/
  select : Option (Ctx × Personality) := none
  /-- R503: the update in progress: request, DRAM address and length. -/
  update : Option (Ctx × Nat × Nat) := none
  /-- R437: nMR is low and holds the device in reset. -/
  nmr : Bool := false
  deriving DecidableEq, Repr

/-! ### The device -/

/-- The state of the device, with the commands that wait. -/
structure State where
  /-- The commands that wait, first in first out. -/
  pending : List Instr := []
  /-- R1: the part (log entry 3). -/
  part : Part := .vm192
  /-- The model's own: the number of free values taken (log entry 5). -/
  free : Nat := 0
  /-- R78: device time, ticks. Reset: 0. -/
  time : BitVec 64 := 0
  /-- R78: device time runs: system PLL 0 has locked. -/
  timeRuns : Bool := false
  /-- R21, R35, R492: cores 0 to 8 held in reset: until an image has been checked, and after missed heartbeats. -/
  held : BitVec 9 := 0x1FF
  mci : Mci := {}
  /-- R80: sources 0 to 49 and 64 to 95, by number; entries 50 to 63 are not used. -/
  sources : List Source := List.replicate 96 {}
  sync : SyncBus := {}
  /-- R117: the links; the VM96 uses the first 12. -/
  links : List Link := List.replicate 24 {}
  /-- R135: level of nSTOP. Reset: undriven is low (R522). -/
  nStop : Bool := false
  /-- R156: the rollback in progress. -/
  rollback : Option Rollback := none
  /-- R163: the serial of the next page job. -/
  jobSerial : Nat := 0
  /-- R166: the four stations. -/
  stations : List Station := List.replicate 4 {}
  /-- R192: the media settings of press.media.config. -/
  media : Media := {}
  /-- R196: TOP_UNMATCHED. -/
  topUnmatched : Count := {}
  /-- R203: GPI0 to GPI31. -/
  gpi : List Gpi := List.replicate 32 {}
  /-- R206: the bias channels. -/
  bias : List Bias := List.replicate 16 {}
  /-- R208: the heaters. -/
  heaters : List Heater := List.replicate 4 {}
  /-- R212: the heads. -/
  heads : List Head := List.replicate 24 {}
  forge : Forge := {}
  engine : Engine := {}
  cam : Cam := {}
  lag : Lag := {}
  dram : Dram := {}
  dma : Dma := {}
  bldc : Bldc := {}
  /-- R383: the 16 stepper axes. -/
  motion : List Axis := List.replicate 16 {}
  clk : Clk := {}
  therm : Therm := {}
  pwr : Pwr := {}
  atoll : Atoll := {}
  /-- R445: the eight lamp strings. -/
  lamps : List Lamp := List.replicate 8 {}
  flt : Flt := {}
  otp : Otp := {}
  boot : Boot := {}
  deriving DecidableEq, Repr

/-- The machine right after reset: every field at the value the spec states or log entry 2 names. -/
def State.reset : State := {}

end Sys2Proof.Machine
end

