-- ==== Sys2Proof/Machine/Flags.lean ====
section
/-!
DEFINITION. The flag words: the bits of MBX_IRQ_STATUS, of the gate causes, and of the completions of pages and layers.
-/
namespace Sys2Proof.Machine

open Sys2Proof

/-- The MBX_IRQ_STATUS bit of a vector (R45). -/
def irqBit (v : Nat) : Nat := if v < 13 then v else 13


/-! ### FLAGS of a page's completion (press.page.submit) -/

def jobDamaged : BitVec 16 := 0x01
def jobOverspeed : BitVec 16 := 0x02
def jobDelta : BitVec 16 := 0x04
def jobGatedTail : BitVec 16 := 0x08
def jobSlip : BitVec 16 := 0x10
def jobBias : BitVec 16 := 0x20
def jobLeadLost : BitVec 16 := 0x40

/-! ### FLAGS of a layer's completion (forge.layer.expose); DAMAGED is `jobDamaged` -/

def layerIncomplete : BitVec 16 := 0x02
def layerGatedTail : BitVec 16 := 0x04
def layerPaused : BitVec 16 := 0x08
def layerThrottled : BitVec 16 := 0x10

/-! ### Gate causes (R133, R134) -/

/-- No cause 0 to 6 is set and the release is awaited: cause 7. -/
def Link.releasePending (x : Link) : Bool := x.causes = 0 && x.releaseAt.isNone

/-- GATE_CAUSES of link.status. -/
def Link.causeBits (x : Link) : Nat := x.causes.toNat + 128 * bit x.releasePending

/-- The lowest-numbered cause that is set, 7 when only the release is pending (R134). -/
def Link.lowestCause (x : Link) : Nat := ((List.range 7).find? fun c => x.causes.getLsbD c).getD 7

/-- The link is gated by some cause, release pending among them. -/
def Link.gated (x : Link) : Bool := x.causes ≠ 0 || x.releaseAt.isNone

/-- An event with an intended stamp leaves dark (R134, R138). -/
def Link.dark (x : Link) (stamp : Int) : Bool :=
  x.causes ≠ 0 || match x.releaseAt with
    | none => true
    | some r => stamp < 64 * (r.toNat : Int)

end Sys2Proof.Machine
end

