-- ==== Sys2Proof/Config.lean ====
section
/-!
DEFINITION. The free values: what the spec leaves open, as constants without a body (log entry 5). A meaning applies
one to the counter `free` of the state, or to the operands it depends on, so that nothing can be proved of its value.
-/
namespace Sys2Proof

/-- A free value, by the number of free values taken before it (log entry 5). -/
opaque Config.freeNat : Nat → Nat

/-- Which way a quotient is rounded where the spec states no rounding, by dividend and divisor (log entry 9). -/
opaque Config.roundUp : Nat → Nat → Bool

/-- Which of two outcomes a tie takes that the spec does not break, by the two values that tie (log entry 9). -/
opaque Config.tie : Nat → Nat → Bool

/-- The syndrome of a corrected word, by the number of free values taken before it (log entry 14). -/
opaque Config.syndrome : Nat → BitVec 8

/-- The check byte of a 64-bit word: the spec names the code, SECDED (72,64), not its matrix (R297, R319; log entry 14). -/
opaque Config.secded : BitVec 64 → BitVec 8

/-- Which of several enabled shadow entries that name one word replaces it (R488), by the word (log entry 54). -/
opaque Config.override : Nat → Nat

/-- The correction profile that a remote source was published with, by source and whole count: no slot of the sync bus
carries it (R106, log entry 65). -/
opaque Config.publishedProfile : Nat → BitVec 48 → Int

/-- The duty of a speed regulator for a value of its proportional and integral sum: the scale of the gains is not stated (log
entry 20). -/
opaque Config.speedDuty : Int → Int

/-- f of a speed pin whose PIN_LO and PIN_HI are equal, in 1/65,536, for a value (log entry 20). -/
opaque Config.pinFraction : Nat → Nat

/-- Whether a loop stays within 1/16 of a reference period through a microsecond of device time (R405, log entry 104). -/
opaque Config.phaseInWindow : Nat → Nat → Bool

/-- The bytes a compression engine would choose for an input and a depth of search (log entry 18). -/
opaque Config.deflated : List Byte → Nat → List Byte

end Sys2Proof
end

