-- ==== Sys2Proof/Machine/Memory.lean ====
section
/-!
DEFINITION. Memory: canonical cell lists, CRC-32C (R51), the DRAM and Lagoon contents, and the address spaces of R339.
-/
namespace Sys2Proof.Machine

open Sys2Proof

/-- `n` zero bytes. -/
def zeros (n : Nat) : List Byte := List.replicate n 0

/-- Free bytes, for memory whose content the manual leaves undefined (log entries 5 and 18). -/
def freeBytes (k : Nat) : Nat → List Byte
  | 0 => []
  | n + 1 => BitVec.ofNat 8 (Config.freeNat k) :: freeBytes (k + 1) n

/-- Canonical form: rising addresses, and no cell equal to what an unlisted address reads as. -/
def cellsWf (dflt : Byte) : List Host.Cell → Bool
  | [] => true
  | [c] => c.2 ≠ dflt
  | c :: d :: rest => c.2 ≠ dflt && c.1 < d.1 && cellsWf dflt (d :: rest)

/-- The byte at an address; `dflt` where it is not listed. -/
def cellGet (dflt : Byte) : List Host.Cell → Nat → Byte
  | [], _ => dflt
  | c :: rest, a => if a = c.1 then c.2 else if a < c.1 then dflt else cellGet dflt rest a

/-- The cell of a byte in front of higher cells: none for the default value. -/
def cellCons (dflt : Byte) (a : Nat) (b : Byte) (rest : List Host.Cell) : List Host.Cell :=
  if b = dflt then rest else (a, b) :: rest

/-- A byte is written; the form stays canonical. -/
def cellSet (dflt : Byte) : List Host.Cell → Nat → Byte → List Host.Cell
  | [], a, b => cellCons dflt a b []
  | c :: rest, a, b =>
    if a < c.1 then cellCons dflt a b (c :: rest)
    else if a = c.1 then cellCons dflt a b rest
    else c :: cellSet dflt rest a b

/-- Bytes are written at rising addresses from `a`. -/
def cellsSet (dflt : Byte) : List Host.Cell → Nat → List Byte → List Host.Cell
  | m, _, [] => m
  | m, a, b :: bs => cellsSet dflt (cellSet dflt m a b) (a + 1) bs

/-- The `n` bytes from address `a`. -/
def cellsGet (dflt : Byte) (m : List Host.Cell) : Nat → Nat → List Byte
  | _, 0 => []
  | a, n + 1 => cellGet dflt m a :: cellsGet dflt m (a + 1) n

/-! ### CRC (R51) -/

/-- One step of the reflected CRC-32C register. -/
def crcShift (c : BitVec 32) : BitVec 32 := (c >>> 1) ^^^ (if c &&& 1 = 1 then 0x82F63B78 else 0)

/-- The register after one byte. -/
def crcByte (c : BitVec 32) (b : Byte) : BitVec 32 :=
  crcShift (crcShift (crcShift (crcShift (crcShift (crcShift (crcShift (crcShift (c ^^^ b.setWidth 32))))))))

/-- The register after some bytes. -/
def crcRun (c : BitVec 32) (bs : List Byte) : BitVec 32 := bs.foldl crcByte c

/-- CRC-32C: initial value and final XOR 0xFFFF_FFFF (R51). -/
def crc32c (bs : List Byte) : BitVec 32 := crcRun 0xFFFFFFFF bs ^^^ 0xFFFFFFFF

/-! ### DRAM contents (spec/13_dram_ecc.md) -/

/-- Usable capacity in bytes: 7/8 of the raw capacity (R317). -/
def DramCfg.usable (c : DramCfg) : Nat :=
  (if c.channels = 0x0F then 4 else if c.channels = 0x03 then 2 else 0) * c.ranks * c.density * 2 ^ 27 * 7 / 8

/-- Byte `k` of the merge-buffer entry of a block, where it is valid (R324). -/
def mergeByte (m : List MergeEntry) (a : Nat) : Option Byte :=
  match m.find? fun e => e.block = a / 64 with
  | some e => if e.valid.getLsbD (a % 64) then some (at' e.bytes (a % 64) 0) else none
  | none => none

/-- The byte a read of DRAM returns: the cells overlaid with the merge buffer (R324). -/
def Dram.byte (d : Dram) (a : Nat) : Byte := (mergeByte d.merge a).getD (cellGet 0 d.mem a)

def Dram.bytesFrom (d : Dram) : Nat → Nat → List Byte
  | _, 0 => []
  | a, n + 1 => d.byte a :: d.bytesFrom (a + 1) n

/-- A word that a whole-word write has replaced loses its errors and its poison (R325). A pending injection flips its
bits instead (dram.ecc.inject). -/
def Dram.freshWord (d : Dram) (w : Nat) : Dram :=
  match d.inject.find? fun p => p.1 = w with
  | some p => { d with errs := (w, p.2) :: d.errs.filter (fun q => q.1 ≠ w), poison := d.poison.filter (· ≠ w),
                       inject := d.inject.filter fun q => q.1 ≠ w }
  | none => { d with errs := d.errs.filter (fun q => q.1 ≠ w), poison := d.poison.filter (· ≠ w) }

/-- The words that [a, a + n) covers whole are fresh. -/
def Dram.freshWords (d : Dram) (a n : Nat) : Dram :=
  (List.range ((a + n) / 8 - (a + 7) / 8)).foldl (fun d k => d.freshWord (((a + 7) / 8 + k) * 8)) d

/-- The newer bytes [a, a + n) win over those held in the merge buffer (R323). -/
def mergeDrop (m : List MergeEntry) (a n : Nat) : List MergeEntry :=
  m.map fun e =>
    let keep := (List.range 64).foldl (fun v k =>
      if a ≤ e.block * 64 + k && e.block * 64 + k < a + n then v &&& ~~~(1#64 <<< k) else v) e.valid
    { e with valid := keep }

/-- Words that are written whole (R319, R323). -/
def Dram.write (d : Dram) (a : Nat) (bs : List Byte) : Dram :=
  let d := d.freshWords a bs.length
  { d with mem := cellsSet 0 d.mem a bs, merge := mergeDrop d.merge a bs.length }

def State.dramRead (s : State) (a n : Nat) : List Byte := s.dram.bytesFrom a n

/-- The number of `n` bytes at offset `o` of a record (R12). -/
def leAt (b : List Byte) (o n : Nat) : Nat := ofLe ((b.drop o).take n)

/-- The signed number of `n` bytes at offset `o` of a record (R12). -/
def leAtI (b : List Byte) (o n : Nat) : Int := asSigned (8 * n) (leAt b o n)

/-! ### Address spaces (R339 to R341) -/

/-- Where an address leads, with the number of bytes from it to the end of its space or window. -/
inductive Place where
  | dram (a : Nat) (room : Nat)
  | host (a : Nat)
  | tile (handle offset : Nat)
  | invalid
  deriving DecidableEq, Repr

/-- The place of an 8-byte address field (R339, R340). -/
def State.place (s : State) (address : Nat) : Place :=
  let low := address % 2 ^ 48
  let kind := address / 2 ^ 48
  if kind = 0 then
    if low < s.dram.cfg.usable then .dram low (s.dram.cfg.usable - low) else .invalid
  else if kind = 1 then .host low
  else if kind = 2 then
    if low < 2 ^ 28 ∧ 2 ^ 24 ≤ low then
      match at' s.dma.windows (low / 2 ^ 24 - 1) none with
      | some base =>
        if base + low % 2 ^ 24 < s.dram.cfg.usable then
          .dram (base + low % 2 ^ 24) (min (2 ^ 24 - low % 2 ^ 24) (s.dram.cfg.usable - (base + low % 2 ^ 24)))
        else .invalid
      | none => .invalid
    else .invalid
  else if kind = 3 then
    if low < 2 ^ 26 then .tile (low / 2 ^ 14) (low % 2 ^ 14) else .invalid
  else .invalid

/-- A table of `n` bytes at an address in DRAM or BAR2, as a firmware command reads it; none for a bus error (R341). -/
def State.table (s : State) (address n : Nat) : Option (List Byte) :=
  match s.place address with
  | .dram a room => if n ≤ room then some (s.dramRead a n) else none
  | _ => none

/-- As `State.table`, with the host's bytes where the address is in host memory (log entry 22). -/
def State.tableOr (s : State) (address n : Nat) (host : List Byte) : Option (List Byte) :=
  match s.place address with
  | .host _ => if n ≤ host.length then some (host.take n) else none
  | _ => s.table address n

end Sys2Proof.Machine
end

