-- ==== Sys2Proof/Machine/Operands.lean ====
section
/-!
DEFINITION. The operand forms: the fields of a request's payload (R12, R50), and what an operation keeps of its request.
-/
namespace Sys2Proof

/-! ### Fields of a request (R12, R50); bytes beyond the payload read 0 (log entry 7) -/

def Req.bytes (rq : Req) (o n : Nat) : List Byte := (List.range n).map fun k => at' rq.payload (o + k) 0

def Req.u8 (rq : Req) (o : Nat) : Nat := (at' rq.payload o 0).toNat
def Req.u16 (rq : Req) (o : Nat) : Nat := ofLe (rq.bytes o 2)
def Req.u32 (rq : Req) (o : Nat) : Nat := ofLe (rq.bytes o 4)
def Req.u64 (rq : Req) (o : Nat) : Nat := ofLe (rq.bytes o 8)
def Req.i16 (rq : Req) (o : Nat) : Int := asSigned 16 (rq.u16 o)
def Req.i32 (rq : Req) (o : Nat) : Int := asSigned 32 (rq.u32 o)

/-- Bit `b` of the byte at offset `o`. -/
def Req.bit (rq : Req) (o b : Nat) : Bool := (rq.u8 o).testBit b


/-- What an operation keeps of its request to post its completion (R72). -/
def Req.ctx (rq : Req) (s : Machine.State) (code : Nat) : Machine.Ctx :=
  { mailbox := rq.mailbox, seq := rq.seq, code := BitVec.ofNat 16 code, era := s.mci.era }

/-- The members of a mask below `n`. -/
def maskBits (n mask : Nat) : List Nat := (List.range n).filter fun i => mask.testBit i

/-- The mask of a list of numbers. -/
def maskOf (is : List Nat) : Nat := is.foldl (fun m i => m ||| 2 ^ i) 0

end Sys2Proof
end

