-- ==== Sys2Proof/Machine/Ops.lean ====
section
/-!
DEFINITION. The operations that every family shares: the outcome type, request fields, replies, completions, events and
vectors (spec/02_mailboxes.md), raises presented to the fault fabric (spec/21_faults.md), and access to the units.
-/
namespace Sys2Proof.Machine

open Sys2Proof

abbrev Out := Host.Outcome State Fault Refusal

/-- Ticks in a second: 625 ps each (R78). -/
def ticksPerSecond : Nat := 1600000000

/-- Ticks in a millisecond. -/
def ticksPerMs : Nat := 1600000

/-! ### Status codes (R69) -/

def Status.ok : Nat := 0x0000
def Status.accepted : Nat := 0x0001
def Status.alreadyDone : Nat := 0x0002
def Status.duplicate : Nat := 0x0003
def Status.aborted : Nat := 0x0004
def Status.malformed : Nat := 0x0010
def Status.crcError : Nat := 0x0011
def Status.unknownCommand : Nat := 0x0012
def Status.sequence : Nat := 0x0013
def Status.expertRequired : Nat := 0x0014
def Status.version : Nat := 0x0015
def Status.wrongPersonality : Nat := 0x0016
def Status.queueFull : Nat := 0x0017
def Status.notNegotiated : Nat := 0x0018
def Status.outOfRange : Nat := 0x0020
def Status.badValue : Nat := 0x0021
def Status.state : Nat := 0x0022
def Status.busy : Nat := 0x0023
def Status.noResource : Nat := 0x0024
def Status.preempted : Nat := 0x0025
def Status.failed : Nat := 0x0026
def Status.fenced : Nat := 0x0027

/-! ### Open roundings (log entry 9) -/

/-- A quotient whose rounding the spec does not state: one of the two integers next to it. -/
def openDiv (n d : Nat) : Nat := if n % d = 0 then n / d else n / d + bit (Config.roundUp n d)

/-- As `openDiv`, of a signed dividend. -/
def openDivI (n : Int) (d : Nat) : Int := if n < 0 then -(openDiv n.natAbs d : Int) else (openDiv n.natAbs d : Int)

/-- A quotient rounded to nearest, its ties left open (log entry 9). -/
def nearest (n : Int) (d : Nat) : Int :=
  if d = 0 then 0
  else
    let q := n / d
    let r := (n % d).toNat
    if 2 * r < d then q else if d < 2 * r then q + 1 else q + bit (Config.tie n.natAbs d)

/-! ### Units -/

/-- Number of beam links (R2). -/
def State.nLinks (s : State) : Nat := match s.part with
  | .vm192 => 24
  | .vm96 => 12

/-- MBX_ID.DEVICE (R44). -/
def State.deviceNo (s : State) : Nat := match s.part with
  | .vm192 => 0x0192
  | .vm96 => 0x0096

/-- Number of Forge heads (R2). -/
def State.nHeads (s : State) : Nat := s.nLinks

/-! ### Cores (R19 to R21) -/

/-- A core runs: the supervisor does not hold it in reset (R21). The supervisor core, 9, runs while its watchdog is served
(R22). -/
def State.coreUp (s : State) (core : Nat) : Bool := if core = 9 then s.flt.watched else !s.held.getLsbD core

/-- The supervisor core serves the urgent mailbox, power sequencing, thermal supervision, faults and OTP (R20). -/
def supervisorCore : Nat := 9

/-- The host-service core serves the mailbox pairs (R20). -/
def hostCore : Nat := 8

/-- The feed core of Isle `i` feeds station `i` (R20). -/
def State.stationFed (s : State) (i : Nat) : Bool := s.coreUp (2 * i)

/-- The feed core of Isle `i` feeds heads 6i to 6i + 5, on the VM96 heads 3i to 3i + 2 (R2, R20). -/
def State.headFed (s : State) (h : Nat) : Bool := s.coreUp (2 * (h / (s.nHeads / 4)))

/-- The process core of Isle 0: stepper axes (R20). -/
def axisCore : Nat := 1

/-- The process core of Isle 1: BLDC motors (R20). -/
def motorCore : Nat := 3

/-- The process core of Isle 2: heater gates and bias channels (R20). -/
def heaterCore : Nat := 5

/-- The process core of Isle 3: camera streams, lamp strings, repetitive-controller tables (R20). -/
def cameraCore : Nat := 7

def State.link (s : State) (l : Nat) : Link := at' s.links l {}

def State.modLink (s : State) (l : Nat) (f : Link → Link) : State :=
  if l < s.nLinks then { s with links := modAt s.links l f } else s

def State.station (s : State) (i : Nat) : Station := at' s.stations i {}

def State.modStation (s : State) (i : Nat) (f : Station → Station) : State := { s with stations := modAt s.stations i f }

def State.head (s : State) (h : Nat) : Head := at' s.heads h {}

def State.modHead (s : State) (h : Nat) (f : Head → Head) : State :=
  if h < s.nHeads then { s with heads := modAt s.heads h f } else s

def State.source (s : State) (i : Nat) : Source := at' s.sources i {}

def State.modSource (s : State) (i : Nat) (f : Source → Source) : State := { s with sources := modAt s.sources i f }

def State.heater (s : State) (h : Nat) : Heater := at' s.heaters h {}

def State.modHeater (s : State) (h : Nat) (f : Heater → Heater) : State := { s with heaters := modAt s.heaters h f }

def State.gpiOf (s : State) (i : Nat) : Gpi := at' s.gpi i {}

def State.modGpi (s : State) (i : Nat) (f : Gpi → Gpi) : State := { s with gpi := modAt s.gpi i f }

def State.lampOf (s : State) (i : Nat) : Lamp := at' s.lamps i {}

def State.modLamp (s : State) (i : Nat) (f : Lamp → Lamp) : State := { s with lamps := modAt s.lamps i f }

/-- LEVEL in force: 0 while the string is off (R447, R451). -/
def Lamp.inForce (x : Lamp) (now : BitVec 64) : Nat :=
  if !(x.st = 1 || x.st = 2) then 0 else if now.toNat < x.levelFrom.toNat then x.levelWas else x.level

def State.box (s : State) (p : Nat) : Mailbox := at' s.mci.boxes p {}

def State.modBox (s : State) (p : Nat) (f : Mailbox → Mailbox) : State :=
  { s with mci := { s.mci with boxes := modAt s.mci.boxes p f } }

/-! ### Vectors (R45, R75) -/

/-- An MSI-X vector is signalled: its MBX_IRQ_STATUS bit sets; the message is sent, or the vector is left pending while
it or the function is masked, or nothing more while MSI-X is disabled (R45). -/
def signal (v : Nat) (s : State) : State :=
  let m := { s.mci with irq := s.mci.irq ||| (1#32 <<< irqBit v) }
  let masked := m.funcMask || (at' m.msix v {}).ctrl.getLsbD 0
  { s with mci :=
    if !m.msixOn then m
    else if masked then { m with pba := m.pba ||| (1#64 <<< v) }
    else { m with sent := m.sent ++ [v] } }

/-! ### Replies, completions, events (R48, R50, R72, R73) -/

/-- A reply waits for the reply ring of its mailbox, or for the urgent reply slot. -/
def enqueueMsg (p : Nat) (m : Msg) (s : State) : State :=
  if p = 255 then { s with mci := { s.mci with urgReply := some m } }
  else s.modBox p fun b => { b with waiting := b.waiting ++ [m] }

/-- A dispatched request is this one of this command. -/
def Dispatch.is (d : Dispatch) (rq : Req) (code : Nat) : Bool :=
  d.req.mailbox = rq.mailbox && d.req.seq = rq.seq && d.code = BitVec.ofNat 16 code

/-- The request's entry among the dispatched ones, the oldest, is served. -/
def undispatch (rq : Req) (code : Nat) (s : State) : State :=
  { s with mci := { s.mci with dispatched := s.mci.dispatched.eraseP (·.is rq code) } }

/-- A reply to a request (R50). -/
def respond (rq : Req) (code status : Nat) (payload : List Byte) (s : State) : State :=
  enqueueMsg rq.mailbox { flags := 1, seq := rq.seq, code := BitVec.ofNat 16 code, mailbox := BitVec.ofNat 8 rq.mailbox,
                          session := 0, status := BitVec.ofNat 16 status, payload := payload,
                          ticket := (s.mci.dispatched.find? (·.is rq code)).map (·.ticket) } (undispatch rq code s)

/-- The reply ACCEPTED (R69). -/
def accept (rq : Req) (code : Nat) (payload : List Byte) (s : State) : State := respond rq code Status.accepted payload s

/-- A completion (R72). After a host link reset it is discarded (R74), or kept for mailbox 7 where R37 says so. -/
def complete (c : Ctx) (status : Nat) (payload : List Byte) (s : State) : State :=
  let m : Msg := { flags := 3, seq := c.seq, code := c.code, mailbox := BitVec.ofNat 8 c.mailbox, session := 0,
                   status := BitVec.ofNat 16 status, payload := payload }
  if c.era = s.mci.era then enqueueMsg c.mailbox m s
  else if s.mci.orphans.contains c then
    let m := { m with flags := 7 }
    let s := { s with mci := { s.mci with orphans := s.mci.orphans.erase c } }
    if s.mci.helloSince then enqueueMsg 7 m s
    else { s with mci := { s.mci with heldCompletions := s.mci.heldCompletions ++ [m] } }
  else s

/-- An unsolicited event of mailbox 7; the 257th pending one is dropped, counted and signalled (R73). A dropped event
takes no event sequence (log entry 61). -/
def queueEvent (code : Nat) (payload : List Byte) (s : State) : State :=
  if 256 ≤ s.mci.events.length then signal 12 { s with mci := { s.mci with eventDrops := s.mci.eventDrops.inc } }
  else
    let m : Msg := { flags := 4, seq := s.mci.eventSeq, code := BitVec.ofNat 16 code, mailbox := 7, session := 0,
                     status := 0, payload := payload }
    { s with mci := { s.mci with events := s.mci.events ++ [m], eventSeq := s.mci.eventSeq + 1 } }

/-- The core that answers the commands of a group, where it is not the host-service core: the process cores for group 0x0A
(camera), 0x0E (motors), 0x0F (axes) and 0x13 (lamps) and for the bias and heater commands of group 0x06, the supervisor
core for 0x11 (temperatures), 0x12 (power), 0x14 (faults) and 0x15 (OTP). -/
def groupCore (code : Nat) : Option Nat :=
  if code = 0x0605 || code = 0x0606 || code = 0x0680 then some heaterCore
  else match code / 256 with
  | 0x0A => some cameraCore
  | 0x0E => some motorCore
  | 0x0F => some axisCore
  | 0x13 => some cameraCore
  | 0x11 => some supervisorCore
  | 0x12 => some supervisorCore
  | 0x14 => some supervisorCore
  | 0x15 => some supervisorCore
  | _ => none

/-- The greatest `v + k` with `k` below `2 ^ n` for which `p` holds, where it holds for every smaller one; `v` if for none. -/
def greatest (p : Nat → Bool) : Nat → Nat → Nat
  | 0, v => v
  | n + 1, v => greatest p n (if p (v + 2 ^ n) then v + 2 ^ n else v)

/-- A core serves the mailbox pairs: the host-service core, or the boot ROM after a start that failed (R20, R44, R500). -/
def pairsCore (s : State) : Bool :=
  s.coreUp hostCore || (s.mci.st = .halted && s.boot.fail ≠ 0 && s.coreUp supervisorCore)

/-- The cores that serve a request run: the host-service core for the mailbox pairs, with the core of its group, or the
supervisor core for the urgent mailbox (R20, R21). -/
def served (code : Nat) (rq : Req) (s : State) : Bool :=
  if rq.mailbox = 255 then s.coreUp supervisorCore else (pairsCore s && (groupCore code).all s.coreUp)

/-- A command with its checks, in the order listed (log entries 6 and 11): the first that holds is the answer, and
nothing else happens. A request whose core is held in reset is not executed (R21). -/
def command (code : Nat) (rq : Req) (checks : List (Bool × Nat)) (k : State → State) (s : State) : Out :=
  if served code rq s then
    match checks.find? fun c => c.1 with
    | some c => .next (respond rq code c.2 [] s)
    | none => .next (k s)
  else .next s

/-- The last `n` of a ring. -/
def lastN {α : Type} (n : Nat) (l : List α) : List α := l.drop (l.length - n)

/-- A violation is counted, logged and signalled (R61). -/
def logViolation (iface unit code detail : Nat) (s : State) : State :=
  let e : VEntry := { number := s.mci.vnext, time := s.time, iface := BitVec.ofNat 8 iface, unit := BitVec.ofNat 8 unit,
                      code := BitVec.ofNat 16 code, detail := BitVec.ofNat 32 detail }
  signal 11 { s with mci := { s.mci with
    vlog := lastN 64 (s.mci.vlog ++ [e]), vcount := s.mci.vcount.inc, vnext := s.mci.vnext + 1 } }

/-- A request whose core is held in reset is not executed (R21). -/
def serveReq (code : Nat) (rq : Req) (k : State → Out) (s : State) : Out := if served code rq s then k s else .next s

/-- A command of a personality (R7, R77): not in use, it is rejected and recorded in the violation log. -/
def commandOf (p : Personality) (code : Nat) (rq : Req) (checks : List (Bool × Nat)) (k : State → State) (s : State) : Out :=
  if s.mci.personality = p ∨ served code rq s = false then command code rq checks k s
  else .next (logViolation 0 rq.mailbox 7 (code * 65536 + rq.seq.toNat) (respond rq code Status.wrongPersonality [] s))

/-- The reply of a request whose operation has ended, where no host link reset has come between (R74). -/
def answer (c : Ctx) (status : Nat) (payload : List Byte) (s : State) : State :=
  if c.era ≠ s.mci.era then s
  else
    let rq : Req := { mailbox := c.mailbox, seq := c.seq, payload := [] }
    respond rq c.code.toNat status payload s

/-- The entries of a log that a read from the number `first` returns (R62): at most 14, in ascending number. -/
def logFrom {α : Type} (num : α → BitVec 32) (first : BitVec 32) (es : List α) : List α :=
  match es with
  | [] => []
  | e :: _ =>
    let d := (first - num e).toNat
    (if 2 ^ 31 < d then es else es.drop d).take 14

/-- The reply of a log read (R62): COUNT, FROM, N and the entries; FROM is the next number where none is returned. -/
def logReply {α : Type} (num : α → BitVec 32) (bytes : α → List Byte) (count : Count) (next first : BitVec 32)
    (es : List α) : List Byte :=
  let part := logFrom num first es
  count.bytes ++ leBytes 4 ((part.head?.map num).getD next).toNat ++ leBytes 1 part.length ++ zeros 3 ++ part.flatMap bytes

/-! ### Time (R78, R442; log entries 1, 4 and 26) -/

/-- The RTC over `k` ticks of 625 ps: 8 of the 390,625 parts of its cycle each (R442). -/
def rtcAdvance (k : Nat) (a : Atoll) : Atoll :=
  { a with
    rtcAcc := Fin.ofNat 390625 (a.rtcAcc.val + 8 * k),
    rtc := a.rtc + BitVec.ofNat 48 ((a.rtcAcc.val + 8 * k) / 390625) }

/-- Sub-ticks by which device time is slewed in `k` ticks of the local reference: at most one per 64 ticks (R109). -/
def SyncBus.slewIn (y : SyncBus) (k : Nat) : Int :=
  let n : Int := ((y.slewPhase + k) / 64 : Nat)
  if y.owed < 0 then max (-n) y.owed else min n y.owed

/-- Slewing over `k` ticks of the local reference (R109). -/
def SyncBus.slewOver (y : SyncBus) (k : Nat) : SyncBus :=
  if y.owed = 0 then y
  else
    { y with
      slew := (y.slew + y.slewIn k) % 64, owed := y.owed - y.slewIn k, slewPhase := (y.slewPhase + k) % 64 }

/-- Ticks of device time that pass in `k` ticks of the local reference: more or fewer by the whole ticks slewed. -/
def SyncBus.ticksIn (y : SyncBus) (k : Nat) : Int := k + (y.slew + y.slewIn k) / 64

/-- The fewest ticks of the local reference in which device time advances by `n` ticks or more. -/
def SyncBus.refTicks (y : SyncBus) (n : Nat) : Nat :=
  let a : Int := 64 * n - y.slew
  if y.owed = 0 then n
  else if 0 < y.owed then max (up (a - y.owed) 64) (up (64 * a - y.slewPhase) 4097)
  else min (up (a - y.owed) 64) (up (64 * a + y.slewPhase - 63) 4095)
where
  up (a : Int) (d : Nat) : Nat := ((a + (d - 1 : Nat)) / d).toNat

/-- `k` ticks of the local reference pass: device time counts once system PLL 0 has locked (R78), slewed on a peer (R109),
and the RTC counts (R442). -/
def State.advance (s : State) (k : Nat) : State :=
  let s' := { s with atoll := rtcAdvance k s.atoll }
  if s.timeRuns then { s' with time := s.time + BitVec.ofInt 64 (s.sync.ticksIn k), sync := s.sync.slewOver k } else s'

/-- Time passes until device time `t`, where it has not come yet. -/
def State.advanceTo (s : State) (t : Nat) : State :=
  if s.timeRuns && s.time.toNat < t then s.advance (s.sync.refTicks (t - s.time.toNat)) else s

/-- Ticks from one device time to another, signed; a device reset between them keeps the difference. -/
def ticksSince (since now : BitVec 64) : Int := (now - since).toInt

/-- Time passes until `dur` ticks after a device time, where that has not come yet. -/
def State.waitFrom (s : State) (since : BitVec 64) (dur : Nat) : State :=
  s.advanceTo (s.time.toNat + ((dur : Int) - ticksSince since s.time).toNat)

/-- Time passes until a time in sub-ticks. -/
def State.advanceSub (s : State) (t : Int) : State := s.advanceTo ((t + 63) / 64).toNat

/-- One tick of the local reference with no command. -/
def idleTick (s : State) : State := s.advance 1

/-! ### Raises (R456 to R459) -/

/-- A raise is presented to the fault fabric (R459); FAULT_RAISE records it. -/
def presentRaise (source : Nat) (unit : Option Nat) (detail : Nat) (firmware forced fatal : Bool) (s : State) : State :=
  { s with flt := { s.flt with presented := s.flt.presented ++
    [{ source := source, time := s.time, unit := unit, detail := detail, firmware := firmware, forced := forced,
       fatal := fatal, judged := none }] } }

/-- A raise by hardware. -/
def present (source : Nat) (unit : Option Nat) (detail : Nat) (s : State) : State :=
  presentRaise source unit detail false false false s

/-- A raise by firmware (R459). -/
def presentFw (source : Nat) (unit : Option Nat) (detail : Nat) (s : State) : State :=
  presentRaise source unit detail true false false s

/-- A raise with class FATAL (R457). -/
def presentFatal (source : Nat) (unit : Option Nat) (detail : Nat) (s : State) : State :=
  presentRaise source unit detail false false true s

/-- What is held of a source (R458). -/
def State.frec (s : State) (source : Nat) : FRec :=
  (s.flt.records.find? fun r => r.source = source).getD { source := source }

/-- The effective class of a source's unacknowledged record. -/
def unackOf (s : State) (source : Nat) : Option FClass := (s.frec source).unack

/-- A raise of a source waits for its record, or its record is unacknowledged. -/
def unackedSource (s : State) (source : Nat) : Bool :=
  (unackOf s source).isSome || s.flt.presented.any fun r => r.source = source

/-- A unit is fenced by a source (R466). -/
def fenced (s : State) (source unit : Nat) : Bool := (s.frec source).fences.contains unit

end Sys2Proof.Machine
end

