-- ==== Sys2Proof/Machine/ThrottleOps.lean ====
section
/-!
DEFINITION. What is active, and the thermal factors that depend on it (spec/18_thermal.md R416, R420 to R423).
-/
namespace Sys2Proof.Machine

open Sys2Proof

/-- A page is ACTIVE on a station (R197). -/
def pageActive (s : State) (i : Nat) : Bool := (s.station i).jobs.any fun j => j.st = .active

/-- A layer is EXPOSING or PAUSED (R227). -/
def layerActive (s : State) : Bool := s.forge.layer = .exposing || s.forge.layer = .paused

def State.modUnit (s : State) (u : Nat) (f : Unit' → Unit') : State :=
  { s with therm := { s.therm with units := modAt s.therm.units u f } }

def State.unit (s : State) (u : Nat) : Unit' := at' s.therm.units u {}

/-- The unit exists (R416). -/
def unitExists (s : State) (u : Nat) : Bool :=
  u = 0 || (1 ≤ u && u ≤ 4) || (8 ≤ u && u < 8 + s.nHeads) || (32 ≤ u && u < 40)

/-- The channel is privileged (R416). -/
def privileged (s : State) (u : Nat) : Bool :=
  if 1 ≤ u ∧ u ≤ 4 then pageActive s (u - 1)
  else if 8 ≤ u ∧ u < 32 then s.forge.layer = .exposing || s.forge.layer = .paused
  else false

/-- The factor in force, 1/1,024: the lower of the unit's and the device unit's of the same kind (R422), of the proportional
kind from a privileged channel's first reading on (R423). An unconfigured unit follows the device unit only (R416). -/
def factorInForce (s : State) (u : Nat) : Nat :=
  let d := s.unit 0
  let x := s.unit u
  if privileged s u && x.byProp then (if x.configured then min x.prop d.prop else d.prop)
  else 64 * (if x.configured then min x.step d.step else d.step)

def motorFactor (s : State) (m : Nat) : Nat := factorInForce s (32 + m)
def stationFactor (s : State) (i : Nat) : Nat := factorInForce s (1 + i)
def headFactor (s : State) (h : Nat) : Nat := factorInForce s (8 + h)

/-- Each unit whose factor in force changed raises TH_THROTTLE, a station PI_THROTTLE (R423). -/
def factorsChanged (s : State) : State :=
  ((List.range 40).filter (unitExists s)).foldl (fun s u =>
    let f := factorInForce s u
    if f = (s.unit u).lastFactor then s
    else
      let s := s.modUnit u fun x => { x with lastFactor := f }
      if 1 ≤ u && u ≤ 4 then present 0x00A3 (some (u - 1)) f s else present 0x0221 (some u) f s) s

/-- Channels that stopped being privileged start their step from the last proportional factor (R423), not below N_MIN, and
with it the timers of R420; one whose privilege saw no reading keeps its step. A channel that becomes privileged waits for its
first reading. -/
def syncPrivilege (s : State) : State :=
  let s := (List.range 32).foldl (fun s u =>
    let p := privileged s u
    let x := s.unit u
    if x.wasPriv = p then s
    else s.modUnit u fun x =>
      { x with wasPriv := p, byProp := false, step := if p || !x.byProp then x.step else max x.nMin (16 * x.prop / 1024),
               hotFrom := if p then x.hotFrom else x.hotFrom.map fun _ => s.time,
               coolFrom := if p then x.coolFrom else x.coolFrom.map fun _ => s.time }) s
  factorsChanged s

end Sys2Proof.Machine
end

