-- ==== Sys2Proof/Machine/BldcOps.lean ====
section
/-!
DEFINITION. Operations over the motors (spec/15_bldc.md): speed, gates, coasting, start attempts and the speed command.
-/
namespace Sys2Proof.Machine

open Sys2Proof

def State.modMotor (s : State) (m : Nat) (f : Motor → Motor) : State :=
  { s with bldc := { s.bldc with motors := modAt s.bldc.motors m f } }

def State.motor (s : State) (m : Nat) : Motor := at' s.bldc.motors m {}

def State.modBus (s : State) (g : Nat) (f : MotorBus → MotorBus) : State :=
  { s with bldc := { s.bldc with buses := modAt s.bldc.buses g f } }

def State.bus (s : State) (g : Nat) : MotorBus := at' s.bldc.buses g {}

/-- The bus group of a motor (R362); none if neither mask names it. -/
def groupOf (s : State) (m : Nat) : Option Nat :=
  if (s.bus 0).motors.getLsbD m then some 0 else if (s.bus 1).motors.getLsbD m then some 1 else none

/-- The bus of a motor's group; that of a motor of no group has no latch and no limits. -/
def busOf (s : State) (m : Nat) : MotorBus := ((groupOf s m).map s.bus).getD {}

/-- Mechanical rpm of `n` step intervals that sum to `t` ticks (R367). Its rounding is open (log entry 9). -/
def rpmOf (poles n t : Nat) : Nat := if t = 0 then 0 else openDiv (60 * ticksPerSecond * n) (6 * t * poles)

/-- The measured speed in a unit that is `scale` of an rpm, not rounded to whole rpm first (R255, R367). -/
def Motor.speedIn (m : Motor) (scale per : Nat) : Nat :=
  if m.deltas.sum = 0 then 0
  else openDiv (60 * ticksPerSecond * m.deltas.length * scale) (6 * m.deltas.sum * m.poles * per)

/-- The measured speed, averaged over the last six steps (R367). -/
def Motor.rpm (m : Motor) : Nat := rpmOf m.poles m.deltas.length m.deltas.sum

/-- Gates of a step: one phase high, one low, one floating (R364; the order of the steps is log entry 20). -/
def stepGates (step : Nat) : BitVec 6 :=
  at' [0b001001, 0b100001, 0b100100, 0b000110, 0b010010, 0b011000] (step % 6) 0

/-- The low sides of all three phases. -/
def lowSides : BitVec 6 := 0b101010

/-- The motor is driven: its gates switch (R364, R370). -/
def Motor.driven (x : Motor) : Bool := x.st = .align || x.st = .ramp || x.st = .run

/-- At a duty of 98 % or more PWM stops and the high side is held on (R364). -/
def Motor.pwmStopped (x : Motor) : Bool := 98 * 255 ≤ 100 * x.duty

/-- The PWM period a device time lies in, and how far into it, in 1/1,600,000 (R364; periods are counted from device time 0,
log entry 20). -/
def Motor.pwmPhase (x : Motor) (now : BitVec 64) : Nat × Nat :=
  (now.toNat * x.pwmKhz / ticksPerMs, now.toNat * x.pwmKhz % ticksPerMs)

/-- The high side is off for the rest of the PWM period in which the current was limited (R377). -/
def Motor.highOff (x : Motor) (now : BitVec 64) : Bool :=
  match x.limitAt with
  | some t => (x.pwmPhase now).1 = (x.pwmPhase t).1
  | none => false

/-- The high sides of all three phases. -/
def highSides : BitVec 6 := 0b010101

/-- The brake is released for the 10 ms listen that ends each 60 ms (R370). -/
def Motor.released (x : Motor) (now : BitVec 64) : Bool := x.st = .brake && 50 * ticksPerMs ≤ (now - x.listenAt).toNat

/-- The levels of MOTm_AH to MOTm_CL at a device time (R362, R364, R377): a gate that turns on waits the dead time; while it is
driven, the high side follows PWM at the duty, or is held on at 98 % or more; a braked rotor is released for a listen. -/
def Motor.gatePins (x : Motor) (now : BitVec 64) : BitVec 6 :=
  let on := if (now - x.gatesAt).toNat * 5 < x.deadNs * 8 then x.gates &&& x.gatesBefore else x.gates
  let high := x.pwmStopped || (x.pwmPhase now).2 * 255 < x.duty * ticksPerMs
  if x.released now then 0
  else if x.driven && (!high || x.highOff now) then on &&& ~~~highSides
  else on

/-- A thermal trip of the motor or of the device is latched: every gate stays off (R419). -/
def motorHeld (s : State) (m : Nat) : Bool := (s.unit (32 + m)).tripped || (s.unit 0).tripped

/-- The gates of a motor change. -/
def setGates (m : Nat) (g : BitVec 6) (s : State) : State :=
  s.modMotor m fun x => { x with gatesBefore := x.gates, gatesAt := s.time, gates := if motorHeld s m then 0 else g }

/-- Every gate is off and the motor coasts (R369). -/
def coast (m : Nat) (s : State) : State :=
  s.modMotor m fun x => { x with st := .coast, gates := 0, duty := 0, ramping := false, limitAt := none, limited := false }

/-- The state in which a start is in progress. -/
def Motor.starting (x : Motor) : Bool := x.st = .listen || x.st = .brake || x.st = .align || x.st = .ramp

/-- The completion payload of bldc.start. -/
def startPayload (result : Nat) (x : Motor) (rpm : Nat) : List Byte :=
  leBytes 1 result ++ leBytes 1 (x.retries + 1) ++ leBytes 1 (if result = 1 then x.cause else 0) ++
  leBytes 1 (bit x.caught) ++ leBytes 2 rpm ++ zeros 2

/-- The start in progress ends with a completion, if a bldc.start awaits one. -/
def endStart (m result status rpm : Nat) (s : State) : State :=
  let x := s.motor m
  match x.ctx with
  | some c => complete c status (startPayload result x rpm) (s.modMotor m fun x => { x with ctx := none })
  | none => s

/-- Step 1 of the start sequence (R370): all gates off, listening. -/
def listen (m : Nat) (s : State) : State :=
  s.modMotor m fun x =>
    { x with st := .listen, gates := 0, duty := 0, deltas := [], badRun := 0, goodRun := 0, caught := false, limited := false,
             phaseAt := s.time }

/-- A fresh start sequence, which the process core of Isle 1 carries out (R39, R370); none starts during a FATAL reaction
(R469). -/
def startSequence (m : Nat) (s : State) : State :=
  if !s.coreUp motorCore || s.flt.fatal.isSome then s
  else listen m (s.modMotor m fun x => { x with retries := 0, cause := 0, ramping := false })

/-- An attempt fails (R372): up to three retries, then FAILED and BL_START_FAIL. The process core of Isle 1 carries it out. -/
def failAttempt (m cause : Nat) (s : State) : State :=
  if !s.coreUp motorCore then s else
  let s := s.modMotor m fun x => { x with startFails := x.startFails.inc, cause := cause }
  if (s.motor m).retries < 3 then listen m (s.modMotor m fun x => { x with retries := x.retries + 1 })
  else
    let s := s.modMotor m fun x => { x with st := .failed, gates := 0, duty := 0 }
    endStart m 1 Status.failed 0 (presentFw 0x01C0 (some m) 0 s)

/-- The command of the selected source changes (R374): with AUTO_RESTART, one that rises above MIN_RPM starts a stopped
motor, unless its group is latched or the motor fenced. -/
def setCommand (m rpm : Nat) (s : State) : State :=
  let x := s.motor m
  let s := s.modMotor m fun x => { x with command := rpm }
  if x.auto && x.st = .stopped && x.command ≤ x.minRpm && x.minRpm < rpm && !(busOf s m).latched &&
     !fenced s 0x01C6 m then startSequence m s
  else s

/-- A control-engine output of kind 4 commands a motor whose SOURCE is the engine (R374); `out` is 2.30 of MAX_RPM. -/
def engineSpeed (m : Nat) (out : Int) (s : State) : State :=
  if (s.motor m).source = 1 then setCommand m (openDiv (out.toNat * (s.motor m).maxRpm) (2 ^ 30)) s else s

/-- Bus braking takes every motor of the group that is not STOPPED (R379). -/
def enterBusBrake (g : Nat) (s : State) : State :=
  let ms := (List.range 8).filter fun m => (s.bus g).motors.getLsbD m && (s.motor m).st ≠ .stopped && (s.motor m).st ≠ .busBrake
  let s := ms.foldl (fun s m =>
    let s := endStart m 1 Status.failed 0 (s.modMotor m fun x => { x with cause := if x.starting then 3 else x.cause })
    setGates m lowSides (s.modMotor m fun x =>
      { x with st := .busBrake, duty := 0, ramping := false, limited := false, busBrakes := x.busBrakes.inc })) s
  if (s.bus g).latched then s
  else present 0x01C2 (some g) 0 (s.modBus g fun b => { b with latched := true, absRaised := false })

end Sys2Proof.Machine
end

