-- ==== Sys2Proof/Machine/LagoonOps.lean ====
section
/-!
DEFINITION. Operations over Lagoon (spec/12_lagoon.md): tiles, handles, releases, and the failure of a word.
-/
namespace Sys2Proof.Machine

open Sys2Proof

/-- Number of tiles (R297). -/
def State.nTiles (s : State) : Nat := match s.part with
  | .vm192 => 4096
  | .vm96 => 2048

/-- The tile of a handle; one that is not listed is free with a zero header. -/
def State.tile (s : State) (h : Nat) : Tile := (s.lag.tiles.find? fun t => t.handle = h).getD { handle := h }

/-- The tile list with one tile replaced, by rising handle. -/
def tileInsert (t : Tile) : List Tile → List Tile
  | [] => [t]
  | u :: rest => if t.handle < u.handle then t :: u :: rest else if t.handle = u.handle then t :: rest
    else u :: tileInsert t rest

def State.setTile (s : State) (t : Tile) : State := { s with lag := { s.lag with tiles := tileInsert t s.lag.tiles } }

/-- Every tile that has been used is changed. -/
def State.modTiles (s : State) (f : Tile → Tile) : State := { s with lag := { s.lag with tiles := s.lag.tiles.map f } }

def State.modTile (s : State) (h : Nat) (f : Tile → Tile) : State := s.setTile (f (s.tile h))

/-- A handle is released: OWNER free and VERIFIED clear; the payload stays (R303). A free tile has no open fill (R307). -/
def releaseTile (h : Nat) (s : State) : State :=
  { s with lag := { s.lag with granted := s.lag.granted.filter fun g => g.1 ≠ h } }.modTile h fun t =>
    { t with owner := .free, verified := false, admitted := false, allocated := false, failed := 0, blank := false,
             stale := false, fill := none }

/-- The lowest-numbered free handle (R301). -/
def lowestFree (s : State) : Option Nat := (List.range s.nTiles).find? fun h => !(s.tile h).allocated

/-- Number of free handles. -/
def freeTiles (s : State) : Nat := s.nTiles - (s.lag.tiles.filter (·.allocated)).length

/-- Tiles that a station or head owns, of a page or layer. -/
def tilesOf (s : State) (o : TileOwner) (page : BitVec 32) : List Nat :=
  (s.lag.tiles.filter fun t => t.allocated && t.owner = o && t.page = page).map (·.handle)

/-- The payload byte of a tile. -/
def State.tileByte (s : State) (h o : Nat) : Byte := cellGet 0 s.lag.data (h * 16384 + o)

/-- The payload of a tile. -/
def State.tilePayload (s : State) (h : Nat) : List Byte := cellsGet 0 s.lag.data (h * 16384) 16384

/-- The OWNER byte of a header (R300). -/
def tileOwnerByte : TileOwner → Nat
  | .free => 0
  | .station i => 0x40 + i % 32
  | .head i => 0x80 + i % 32

/-- The 16-byte header (R300). -/
def Tile.header (t : Tile) : List Byte :=
  leBytes 4 t.id.toNat ++ leBytes 4 t.page.toNat ++ leBytes 1 (tileOwnerByte t.owner) ++ leBytes 1 t.column.toNat ++
  leBytes 2 t.origin.toNat ++ leBytes 4 t.crc.toNat

/-- The handle that an ADDRESS names (R311). -/
def lagHandle (address : Nat) : Nat := address / 2048 % 4096

/-- An uncorrectable error at an ADDRESS is counted, recorded and raised (R310). -/
def lagUncorrectable (address : Nat) (s : State) : State :=
  let bad := if s.lag.bad.contains address then s.lag.bad else address :: s.lag.bad
  present 0x0161 none 0 { s with lag := { s.lag with
    uncorr := s.lag.uncorr.inc, lastUncorr := BitVec.ofNat 32 address, bad := bad } }

/-- A corrected error is counted, logged and raised (R311). The syndrome is a free value (log entry 14). -/
def lagCorrected (address foundBy cls : Nat) (s : State) : State :=
  let e : LagEntry := { time := s.time, address := BitVec.ofNat 32 address, syndrome := Config.syndrome s.free,
                        foundBy := foundBy, cls := cls }
  let full := 32 ≤ s.lag.log.length
  present 0x0160 none 0 { s with free := s.free + 1, lag := { s.lag with
    corrected := s.lag.corrected.inc, log := if full then s.lag.log else s.lag.log ++ [e],
    logOver := if full then s.lag.logOver.inc else s.lag.logOver } }

/-- Bits of a word that a read finds wrong: those the cells lost, those injected, and 2 for a word known bad. The
injection is used up. -/
def lagErrors (address upset : Nat) (s : State) : Nat × State :=
  let inj := ((s.lag.inject.find? fun p => p.1 = address).map (·.2)).getD 0
  let n := upset + inj + (if s.lag.bad.contains address then 2 else 0)
  (n, { s with lag := { s.lag with inject := s.lag.inject.filter fun p => p.1 ≠ address } })

/-- One word of Lagoon is read (R308, R310): whether it is good, and the state after. -/
def lagReadWord (address upset foundBy cls : Nat) (s : State) : Bool × State :=
  let r := lagErrors address upset s
  if r.1 = 0 then (true, r.2)
  else if r.1 = 1 then (true, lagCorrected address foundBy cls r.2)
  else (false, lagUncorrectable address r.2)

/-- Words of a tile, its payload or its header, that a read can find wrong: those injected and those known bad, rising. -/
def lagSuspects (s : State) (h : Nat) (header : Bool) : List Nat :=
  let as := (s.lag.inject.map (·.1) ++ s.lag.bad).filter fun a => lagHandle a = h && (2 ^ 31 ≤ a) = header
  as.foldl (fun l a => ins a l) []
where
  ins (a : Nat) : List Nat → List Nat
    | [] => [a]
    | b :: l => if a < b then a :: b :: l else if a = b then b :: l else b :: ins a l

/-- Every word of a tile's payload, or of its header, is read: whether all are good, and the state after. -/
def lagReadTile (h cls : Nat) (header : Bool) (s : State) : Bool × State :=
  (lagSuspects s h header).foldl (fun r a =>
    let x := lagReadWord a 0 0 cls r.2
    (r.1 && x.1, x.2)) (true, s)

/-- The words of a header are written (R300): they hold no error any more. -/
def freshHeader (h : Nat) (s : State) : State :=
  { s with lag := { s.lag with bad := s.lag.bad.filter fun a => !(2 ^ 31 ≤ a && lagHandle a = h) } }

/-- A payload word has been replaced by a fill: it holds no error any more. -/
def lagFresh (h lo hi : Nat) (s : State) : State :=
  { s with lag := { s.lag with bad := s.lag.bad.filter fun a =>
      a ≥ 2 ^ 31 || a / 2048 ≠ h || a % 2048 * 8 + 8 ≤ lo || hi ≤ a % 2048 * 8 } }

/-- The payload of a tile whose stored CRC and words are good (R150, R310). -/
def tileGood (s : State) (h : Nat) : Bool :=
  (s.tile h).crc = crc32c (s.tilePayload h) && (s.tile h).fill.isNone && (s.tile h).id ≠ 0 &&
  !s.lag.bad.any fun a => lagHandle a = h

/-! ### Fills (R305 to R307) -/

/-- The close of a fill (R305, R306): bytes not written become 0x00 and the CRC is stored, complemented after a write
out of order. -/
def closeFill (handle : Nat) (s : State) : State :=
  match (s.tile handle).fill with
  | none => s
  | some f =>
    let kept := s.lag.data.filter fun c =>
      c.1 / 16384 ≠ handle || f.done.any fun r => r.1 ≤ c.1 % 16384 && c.1 % 16384 < r.2
    let s := lagFresh handle 0 16384 { s with lag := { s.lag with data := kept } }
    let crc := crc32c (s.tilePayload handle)
    s.modTile handle fun t => { t with fill := none, stale := false, crc := if f.bad then ~~~crc else crc }

/-- The next bytes of an open fill (R305 to R307): out of order they mark its CRC invalid; without an open fill the tile
is unchanged. -/
def writeFill (handle offset : Nat) (data : List Byte) (s : State) : State :=
  match (s.tile handle).fill with
  | none => s
  | some f =>
    let bs := data.take (16384 - offset)
    let stop := offset + bs.length
    let bad := offset ≠ f.next
    let s := lagFresh handle offset stop
      { s with lag := { s.lag with data := cellsSet 0 s.lag.data (handle * 16384 + offset) bs } }
    let s := s.modTile handle fun t =>
      { t with fill := some { next := stop, bad := f.bad || bad, done := (offset, stop) :: f.done } }
    let s := if bad then present 0x0163 none 0 { s with lag := { s.lag with fillOrder := s.lag.fillOrder.inc } } else s
    if stop = 16384 ∧ bs ≠ [] then closeFill handle s else s

/-- The ADDRESS of word `i` of the scrub: tile by tile, payload before header (R309, R311; log entry 88). -/
def scrubAddress (i : Nat) : Nat :=
  if i % 2050 < 2048 then i / 2050 * 2048 + i % 2050 else 2 ^ 31 + i / 2050 * 2048 + (i % 2050 - 2048)

end Sys2Proof.Machine
end

