-- ==== Sys2Proof/Machine/TimebaseOps.lean ====
section
/-!
DEFINITION. Prediction of phase and time by the Confluence sources (spec/03_phase_timebase.md), and edge capture.
-/
namespace Sys2Proof.Machine

open Sys2Proof

/-- The source exists (R80). -/
def sourceExists (i : Nat) : Bool := i ≤ 49 || (64 ≤ i && i ≤ 95)

/-- An entry of a repetitive controller's table. -/
def Repctl.entry (r : Repctl) (k : Nat) : Int := at' r.table k 0

/-- The profile index of a whole count: the signed distance from n0, modulo PERIOD (R95, R90). -/
def Source.index (x : Source) (n : Int) : Nat :=
  if x.period = 0 then 0 else (asSigned 48 (pattern 48 (n - x.n0.toNat)) % (x.period : Int)).toNat

/-- c[k] of a source's profile, in sub-ticks; 0 without one (R94, R266). A remote source has the profile it was published
with, which no slot carries: a free value (R106, log entry 65). -/
def State.profile (s : State) (i : Nat) (n : Int) : Int :=
  let x := s.source i
  if 64 ≤ i then clampI (-32767) 32767 (Config.publishedProfile i (BitVec.ofInt 48 n))
  else match x.repctl with
    | some r =>
      if x.period = 0 then 0
      else clampI (-32767) 32767 ((at' s.engine.repctls r {}).entry (x.index n))
    | none => 0

/-- φ − N for a 48.16 phase: the difference modulo 2^48 counts, signed (R90). -/
def Source.ahead (x : Source) (phase : Int) : Int := asSigned 64 (pattern 64 (phase - x.n.toNat * 65536))

/-- The predicted time of a 48.16 phase, in sub-ticks (R90). It is rounded to nearest (log entry 66). -/
def State.predict (s : State) (i : Nat) (phase : Int) : Int :=
  let x := s.source i
  x.tN + roundDiv (x.ahead phase * x.p) (2 ^ 26) + s.profile i (phase / 65536)

/-- The phase predicted for a time in sub-ticks, 48.16 above N: the inverse of R90, with the profile entry of the whole
part found without it (log entry 28). Outside TRACK and HOLDOVER nothing is predicted, and the phase stands at N (R92,
timebase.source.status). -/
def State.phaseAt (s : State) (i : Nat) (t : Int) : Int :=
  let x := s.source i
  if x.p = 0 || (x.st ≠ .track && x.st ≠ .holdover) then x.n.toNat * 65536
  else
    let rough := (x.n.toNat : Int) * 65536 + (t - x.tN) * 2 ^ 26 / x.p
    (x.n.toNat : Int) * 65536 + (t - x.tN - s.profile i (rough / 65536)) * 2 ^ 26 / x.p

/-- Device time in sub-ticks. -/
def State.now (s : State) : Int := 64 * (s.time.toNat : Int)

/-- A source places the events anchored to it by prediction (R92); in any other state they are held. -/
def Source.tracks (x : Source) : Bool := x.st = .track

/-- An edge takes its place in the capture FIFO, or is lost and counted (R86). -/
def pushEdge (i : Nat) (e : FifoEdge) (s : State) : State :=
  if 16 ≤ (s.source i).fifo.length then
    present 0x0042 (some i) 0 (s.modSource i fun x => { x with overruns := x.overruns.inc })
  else s.modSource i fun x => { x with fifo := x.fifo ++ [e] }

end Sys2Proof.Machine
end

