-- ==== Sys2Proof/Machine/RunAheadOps.lean ====
section
/-!
DEFINITION. Gates, rollback, aborts and the end of pages and layers (spec/04_lanes_and_links.md R133 to R138,
spec/05_run_ahead.md): the operations through which every unit of the device stops emission.
-/
namespace Sys2Proof.Machine

open Sys2Proof

/-! ### Control words (R123, R134) -/

/-- One step of CRC-16, polynomial 0x1021, most significant bit first. -/
def crc16Shift (c : BitVec 16) : BitVec 16 := (c <<< 1) ^^^ (if c.getLsbD 15 then 0x1021 else 0)

def crc16Byte (c : BitVec 16) (b : Byte) : BitVec 16 :=
  (List.range 8).foldl (fun c _ => crc16Shift c) (c ^^^ (b.setWidth 16 <<< 8))

/-- CRC-16 of R123: initial value 0xFFFF, no reflection, no final XOR. -/
def crc16 (bs : List Byte) : BitVec 16 := bs.foldl crc16Byte 0xFFFF

/-- A control block: CTYPE, payload, CRC-16 over bits 63:16 (R123). -/
def ctlWord (ctype payload : Nat) : BitVec 64 :=
  let top := ctype % 256 * 2 ^ 40 + payload % 2 ^ 40
  BitVec.ofNat 64 (top * 65536 + (crc16 (leBytes 6 top).reverse).toNat)

/-- A block is sent on a link whose transmitter runs. -/
def sendBlock (l : Nat) (control : Bool) (w : BitVec 64) (s : State) : State :=
  s.modLink l fun x => if x.txFrom.isSome then { x with tx := x.tx ++ [(control, w)] } else x

/-- An IDLE block (R120). -/
def idleBlock : BitVec 64 := 0

/-- The transmitter of a link sends lane events: it is enabled and UP or DEGRADED (R129, R133, R139). -/
def Link.sends (x : Link) : Bool := x.txFrom.isSome && x.enabled && (x.st = .up || x.st = .degraded)

/-- Queued events leave a link's sequencers but for those kept; a lane that loses events is back at the stamp of the last
event that is left or has been handed off (R100, R153). -/
def Link.keepEvents (keep : Nat → QEvent → Bool) (x : Link) : Link :=
  let last (k : Nat) (t : LaneTx) : LaneTx :=
    let old := at' x.queues k []
    let q := old.filter (keep k)
    if q.length = old.length then t
    else { t with last := match q.getLast? with
      | some e => some e.stamp
      | none => t.handed }
  { x with queues := mapIx (fun k q => q.filter (keep k)) x.queues, lanes := mapIx last x.lanes }

/-- A control word; GATE, UNGATE and VERSION_SET await their ACK (R127). -/
def sendCtl (l ctype payload : Nat) (s : State) : State :=
  let s := sendBlock l true (ctlWord ctype payload) s
  if ctype = 3 || ctype = 4 || ctype = 5 then
    s.modLink l fun x =>
      if x.txFrom.isSome then { x with ackWait := x.ackWait ++ [(BitVec.ofNat 8 ctype, BitVec.ofNat 40 payload)] } else x
  else s

/-- The GATE word of a gated link: all lanes, the lowest cause (R134). A disabled link sends IDLE only. -/
def sendGate (l : Nat) (s : State) : State :=
  if (s.link l).enabled then sendCtl l 3 (0xFF * 2 ^ 32 + (s.link l).lowestCause * 2 ^ 24) s else s

/-! ### Who carries what -/

/-- Every job of a station is changed. -/
def State.modJobs (s : State) (i : Nat) (f : Job → Job) : State := s.modStation i fun st => { st with jobs := st.jobs.map f }

/-- The station that holds a link (R116). -/
def linkStation (s : State) (l : Nat) : Option Nat := (List.range 4).find? fun i => (s.station i).links.contains l

/-- The link carries an active page or layer. -/
def linkActive (s : State) (l : Nat) : Bool :=
  (match linkStation s l with
   | some i => pageActive s i
   | none => false) || (layerActive s && (s.head l).inLayer)

/-- The lanes of some links (R115). -/
def linkLanes (ls : List Nat) : BitVec 192 := ls.foldl (fun m l => m ||| (0xFF#192 <<< (8 * l))) 0

/-- A link with a lane of the mask. -/
def laneLink (lanes : BitVec 192) (l : Nat) : Bool := lanes &&& (0xFF#192 <<< (8 * l)) ≠ 0

/-- The stations with a lane in a scope. -/
def scopeStations (s : State) (lanes : BitVec 192) : List Nat :=
  (List.range 4).filter fun i => (s.station i).links.any (laneLink lanes)

/-- The heads with a lane in a scope (R117). -/
def scopeHeads (s : State) (lanes : BitVec 192) : List Nat :=
  if s.mci.personality = .forge then (List.range s.nHeads).filter (laneLink lanes) else []

/-! ### Placing events on a station's line (R170, R178 to R180) -/

/-- Beams of a station (R116). -/
def Station.beams (st : Station) : Nat := 8 * st.links.length

/-- First emission index of segment `k` of `n` pixels (R179). -/
def segmentStart (k n : Nat) : Nat := k * n / 1024

/-- The segment that holds emission index `i` of `n` (R179). -/
def segmentOf (i n : Nat) : Nat := ((i + 1) * 1024 - 1) / n

/-- FREQ_k of a ramp entry (R401). -/
def freqRamp (freq : Nat) (ramp : Int) : Int := freq + roundDiv (freq * ramp) (2 ^ 19)

/-- FREQ_k of segment `k` (R401, R402). -/
def Synth.freqAt (x : Synth) (k : Nat) : Int := freqRamp x.freq (at' x.ramp k 0)

/-- pitch(k): two synthesiser periods of segment `k`, 24.16 sub-ticks (R179, R401). -/
def Synth.pitch (x : Synth) (k : Nat) : Int := roundDiv (2 * 102400000000 * 2 ^ 16 * 2 ^ 28) (x.freqAt k * 50000000)

/-- Sum of the pitches of the pixels before emission index `i` of `n`, 24.16 sub-ticks. -/
def Synth.span (x : Synth) (n i : Nat) : Int :=
  ((List.range 1024).map fun k =>
    ((min i (segmentStart (k + 1) n) - min i (segmentStart k n) : Nat) : Int) * x.pitch k).sum

/-- SKEW of a beam. -/
def Station.skewOf (st : Station) (b : Nat) : Int := at' st.skew b 0

/-- Sub-ticks of some ns. -/
def nsSub (ns : Int) : Int := roundDiv (ns * 1024) 10

/-- The station's pixel pitch without a ramp, 24.16 sub-ticks: 1 / PIXEL_CLOCK (R166). -/
def Station.pitch (st : Station) : Int := roundDiv (102400000000 * 65536) (st.clockKhz * 1000)

/-- Pixels of a firing that lasts some sub-ticks: at least one (log entry 33). -/
def Station.firePixels (st : Station) (span : Int) : Nat := max 1 (ceilDiv (span.toNat * 65536) st.pitch.toNat)

/-- Pixels of a lead firing, from BD_PRE before the edge to BD_PRE after it (R170). -/
def Station.leadPixels (st : Station) : Nat := st.firePixels (2 * nsSub st.preNs)

/-- Pixels of a slot firing, of BD_SLOT / 2 (R170). -/
def Station.slotPixels (st : Station) : Nat := st.firePixels (nsSub (5 * st.slot10))

/-- The beam that slot `j` tests around the edge of count `n` (R170). -/
def Station.slotBeam (st : Station) (n j : Nat) : Nat := (n * st.slots + j - 1) % st.beams

/-- Events of the firings of one sweep. -/
def Station.fireEvents (st : Station) : Nat := 2 * st.leadPixels + st.slots * st.slotPixels

/-- Events of a sweep: its firings, and with a page every pixel of every beam. -/
def Station.sweepEvents (st : Station) (page : Bool) : Nat := st.fireEvents + if page then st.beams * st.pixels else 0

/-- A sweep that is not committed loses its page and carries BD firings only (R162, R169). -/
def Sweep.unpage (st : Station) (w : Sweep) : Sweep :=
  { w with job := none, left := st.sweepEvents false, next := w.next.map fun _ => 0, lead := 0, blank := false,
           ready := w.admitted, energy := 0 }

/-! ### Lanes anchored to a source (R98) -/

/-- Slots whose test of the edge of count `m` falls on a beam. -/
def Station.mySlots (st : Station) (m b : Nat) : List Nat :=
  ((List.range st.slots).map (· + 1)).filter fun j => st.slotBeam m j = b

/-- Events of a beam in a sweep's plan. -/
def beamEvents (st : Station) (w : Sweep) (b : Nat) : Nat :=
  (if w.job.isSome then st.pixels else 0) + (if b = st.lead0 || b = st.lead1 then st.leadPixels else 0) +
  (st.mySlots ((w.n + 1) % 2 ^ 48) b).length * st.slotPixels

/-- The lane of a station's beam (R116). -/
def Station.lane (st : Station) (b : Nat) : Nat := 8 * at' st.links (b / 8) 0 + b % 8

/-- A lane holds a queued event that is anchored to a source. -/
def queueAnchored (s : State) (src lane : Nat) : Bool :=
  (at' (s.link (lane / 8)).queues (lane % 8) []).any fun e => e.anchor = some src

/-- Lanes anchored to a source (R98): those with an event of it that is not yet handed off, queued or in a plan. While
every lane of a station is gated it holds none (R173). -/
def anchoredLanes (s : State) (src : Nat) : BitVec 192 :=
  let beams (i : Nat) : List Nat :=
    let st := s.station i
    if st.bdSource = src && st.links.any (fun l => !(s.link l).gated) then
      ((List.range st.beams).filter fun b =>
        queueAnchored s src (st.lane b) || st.sweeps.any fun w => at' w.next b 0 < beamEvents st w b).map st.lane
    else []
  let heads := if s.forge.anchor = some src then
      (List.range s.nHeads).filter fun h => (s.head h).anchored && (s.head h).vecs ≠ []
    else []
  ((List.range 4).flatMap beams).foldl (fun m l => m ||| (1#192 <<< l)) (linkLanes heads)

/-! ### Due commits (R125, R143, R163) -/

/-- The event at the front of a lane's queue. -/
def State.front (s : State) (l k : Nat) : Option QEvent := (at' (s.link l).queues k []).head?

/-- The source of an anchor places events (R92). -/
def placed (s : State) (anchor : Option Nat) : Bool := match anchor with
  | none => true
  | some a => (s.source a).tracks

/-- LEAD of a link in sub-ticks (R125). -/
def Link.leadSub (x : Link) : Int := x.lead * 160 * 64

/-- Time of the hand-off of an event with an intended stamp on a link: the compensated stamp minus LEAD (R125, R131). -/
def Link.handoffAt (x : Link) (stamp : Int) : Int := stamp - x.d - x.leadSub

/-- An event of a unit stands at the front of a lane of a link, and is to be handed off in this tick. -/
def commitDue (s : State) (l : Nat) (u : UnitId) : Bool :=
  (List.range 8).any fun k => match s.front l k with
    | some e => e.unit = some u && placed s e.anchor && (s.link l).handoffAt e.stamp ≤ s.now
    | none => false

/-! ### Rollback (R152 to R157) -/

/-- A unit is committed. -/
def unitCommitted (s : State) : UnitId → Bool
  | .sweep i n => (s.station i).sweeps.any fun w => w.n = n && w.committed
  | .vector h q => (s.head h).vecs.any fun v => v.r.seqNo = q && v.committed

/-- Queued events of uncommitted units leave the sequencers (R154). Events of no unit stay. -/
def purgeQueues (lanes : BitVec 192) (s : State) : State :=
  ((List.range s.nLinks).filter (laneLink lanes)).foldl (fun s l =>
    s.modLink l (Link.keepEvents fun k e => !lanes.getLsbD (8 * l + k) || match e.unit with
      | none => true
      | some u => unitCommitted s u)) s

/-- An uncommitted sweep returns to its unbuilt state, and its provisional energy is removed. -/
def Sweep.undo (w : Sweep) : Sweep :=
  if w.committed then w
  else { w with admitted := false, ready := false, rebuilt := true, energy := 0, bias := [], next := w.next.map fun _ => 0 }

/-- Tile rows that hold lines of a sweep within its page. -/
def sweepRows (st : Station) (w : Sweep) (j : Job) : List Nat :=
  let lo := max 0 w.l0
  let hi := min (j.lines : Int) (w.l0 + st.beams) - 1
  if hi < lo then [] else (List.range ((hi / 64).toNat - (lo / 64).toNat + 1)).map ((lo / 64).toNat + ·)

/-- The job of a sweep. -/
def sweepJob (st : Station) (w : Sweep) : Option Job := w.job.bind fun k => st.jobs.find? fun j => j.serial = k

/-- A sweep reads a tile of its station (R174). -/
def sweepReads (i : Nat) (st : Station) (w : Sweep) (t : Tile) : Bool :=
  match sweepJob st w with
  | some j => t.owner = .station i && t.page = j.pageId && (sweepRows st w j).contains t.origin.toNat
  | none => false

/-- Uncommitted sweeps of a station are discarded, to be rebuilt; their tiles return to unadmitted (R154). -/
def discardSweeps (i : Nat) (s : State) : State :=
  let st := s.station i
  let gone := st.sweeps.filter fun w => !w.committed
  let kept := st.sweeps.filter (·.committed)
  let s := s.modStation i fun st =>
    { st with sweeps := st.sweeps.map Sweep.undo,
              jobs := st.jobs.map fun j => if gone.any (fun w => j.lastN = some w.n) then { j with lastN := none } else j }
  s.modTiles fun t =>
    if gone.any (fun w => sweepReads i st w t) && !kept.any (fun w => sweepReads i st w t) then { t with admitted := false } else t

/-- An uncommitted vector returns to its unbuilt state. -/
def Vec.undo (v : Vec) : Vec :=
  if v.committed then v else { v with admitted := false, ready := false, rebuilt := true, next := v.next.map fun _ => 0 }

/-- The tile in which a record is staged: the tile of PRIMARY's array that holds its index (R24, R148). -/
def recordTile (s : State) (r : Rec) : Option Tile :=
  s.lag.tiles.find? fun t =>
    t.allocated && t.owner = .head r.primary && t.page = s.forge.number && t.origin.toNat = r.index / 512 % 65536

/-- Tiles that only discarded vectors read return to unadmitted (R154, R155). -/
def unadmitRecords (gone : List Rec) (s : State) : State :=
  let tileNo (r : Rec) : Option Nat := (recordTile s r).map (·.handle)
  let used := s.heads.flatMap fun x => (x.vecs.filter fun v => v.committed || v.admitted).map fun v => tileNo v.r
  let free := (gone.filterMap tileNo).filter fun h => !used.contains (some h)
  s.modTiles fun t => if free.contains t.handle then { t with admitted := false } else t

/-- Uncommitted vectors of a head are discarded, to be rebuilt; PENDING and CLEARED tokens are released (R154, R233). -/
def discardVectors (h : Nat) (s : State) : State :=
  let gone := ((s.head h).vecs.filter fun v => !v.committed).map (·.r)
  let kept (x : Head) : List Nat := x.resetFor.filter fun q => !gone.any fun r => r.seqNo = q
  unadmitRecords gone (s.modHead h fun x => { x with vecs := x.vecs.map Vec.undo, token := .none, resetFor := kept x })

/-- Uncommitted vectors of a head go back to its records (R229, R242); their tiles are no longer admitted. -/
def returnVectors (h : Nat) (s : State) : State :=
  let gone := ((s.head h).vecs.filter fun v => !v.committed).map (·.r)
  unadmitRecords gone <| s.modHead h fun x =>
    { x with vecs := x.vecs.filter (·.committed), token := .none,
             resetFor := x.resetFor.filter fun q => !gone.any fun r => r.seqNo = q,
             todo := (x.vecs.filter fun v => !v.committed).map (·.r) ++ x.todo,
             pos := match (x.vecs.filter fun v => !v.committed).head? with
               | some v => ⟨v.fromX, v.fromY⟩
               | none => x.pos,
             endAt := match (x.vecs.filter fun v => !v.committed).head? with
               | some v => v.opens
               | none => x.endAt }

/-- A rollback trigger reaches the Weir (R152): every station and head with a lane in scope counts it, every uncommitted
unit in scope is discarded, and a rollback in progress is widened, to end 5 µs after this trigger (R157). With code 1, units
anchored only to device time go too, as R153 says (log entry 98). -/
def rollbackTrigger (code : Nat) (lanes : BitVec 192) (s : State) : State :=
  let sts := scopeStations s lanes
  let hds := scopeHeads s lanes
  let all := lanes ||| linkLanes (sts.flatMap (fun i => (s.station i).links) ++ hds)
  let count (r : RunAhead) : RunAhead := { r with rb := modAt r.rb (code - 1) Count.inc }
  let s := sts.foldl (fun s i => discardSweeps i (s.modStation i fun st => { st with ra := count st.ra })) s
  let s := hds.foldl (fun s h => discardVectors h (s.modHead h fun x => { x with ra := count x.ra, rolled := true })) s
  let s := purgeQueues all s
  let r : Rollback := match s.rollback with
    | none => { lanes := all, at' := s.time, stations := sts, heads := hds, forced := [], first := s.time }
    | some r =>
      { r with lanes := r.lanes ||| all, at' := s.time, stations := (r.stations ++ sts).eraseDups,
               heads := (r.heads ++ hds).eraseDups }
  { s with rollback := some r }

/-! ### The end of a page (R161 to R163, R197, R303) -/

/-- The completion payload of press.page.submit. -/
def jobPayload (i : Nat) (j : Job) : List Byte :=
  leBytes 4 j.pageId.toNat ++ leBytes 1 i ++ leBytes 1 (if j.st = .completed then 0 else 1) ++ leBytes 2 j.flags.toNat ++
  leBytes 8 j.firstAt.toNat ++ leBytes 4 j.written ++ leBytes 4 (min j.dropped (2 ^ 32 - 1)) ++
  leBytes 4 (min j.repeated (2 ^ 32 - 1)) ++ leBytes 1 j.cause ++ leBytes 1 (if j.cause = 2 then j.input else 0xFF) ++
  zeros 2 ++ leBytes 8 (min j.energy (2 ^ 64 - 1))

/-- Tiles of a terminal page that none of its committed sweeps with events left reads, and with no page left on the station
those granted to it, are released (R303, R304). -/
def releaseUnread (i : Nat) (page : BitVec 32) (s : State) : State :=
  let st := s.station i
  let live (j : Job) : Bool := j.st ≠ .completed && j.st ≠ .aborted
  if st.jobs.any fun j => j.pageId = page && live j then s
  else
    let granted (t : Tile) : Bool := s.lag.granted.any fun g => g.1 = t.handle
    let gone (t : Tile) : Bool := t.allocated && t.owner = .station i &&
      (if granted t then !st.jobs.any live
       else t.page = page && !st.sweeps.any fun w => w.committed && 0 < w.left && sweepReads i st w t)
    (s.lag.tiles.filter gone).foldl (fun s t => releaseTile t.handle s) s

/-- The job is terminal and its last event has been handed off (R161). -/
def jobOver (st : Station) (j : Job) : Bool :=
  (j.st = .completed || j.st = .aborted) && !st.sweeps.any fun w => w.job = some j.serial && w.committed && 0 < w.left

/-- A cause is set on a link without the aborts of R137: the latch, the release void, the GATE word at once (R134, R138). -/
def gateLink (cause l : Nat) (s : State) : State :=
  if (s.link l).causes.getLsbD cause then s
  else sendGate l (s.modLink l fun x =>
    { x with causes := x.causes ||| (1#7 <<< cause), releaseAt := none, opened := false,
             urgentOnly := cause = 1 && (x.urgentOnly || !x.gated) })

/-- Search firing (R172) and the hold of charge channels that follows it (R205) after a change of what they depend on:
search begins while the BD source of a configured station is not in TRACK and no page is active; a held channel drives
duty 0, and a channel without a loop returns to its setpoint. -/
def refreshSearch (s : State) : State :=
  let firing (i : Nat) (st : Station) : Station :=
    { st with search := st.search || (st.configured && (s.source st.bdSource).st ≠ .track && !pageActive s i) }
  let s := { s with stations := mapIx firing s.stations }
  let next (b : Bias) : Bias :=
    let hold := b.searchHold && b.role = 1 && (s.station b.station).search
    let rest := match b.raw with
      | some d => d
      | none => if b.loop.isNone then openDuty b else b.duty
    { b with held := hold, duty := if hold then 0 else if b.held then rest else b.duty }
  { s with bias := s.bias.map next }
where
  openDuty (b : Bias) : Nat := (clampI 0 4095 (nearest (b.setpoint * 4095) b.fullScale)).toNat

/-- Jobs that are over are reported and leave the station; their tiles are released and their bands not yet expanded
dropped (R161, R200, R303). -/
def reportJobs (i : Nat) (s : State) : State :=
  let st := s.station i
  let ended := st.jobs.filter (jobOver st)
  let s := s.modStation i fun st => { st with jobs := st.jobs.filter fun j => !jobOver st j }
  let s := ended.foldl (fun s j =>
    let s := if (s.station i).jobs.any fun k => k.pageId = j.pageId then s
      else
        let s := (tilesOf s (.station i) j.pageId).foldl (fun s h => releaseTile h s) s
        { s with dma := { s.dma with fwQueue := s.dma.fwQueue.filter fun f => !(f.station = i && f.page = j.pageId) } }
    complete j.ctx (if j.st = .completed then Status.ok else Status.aborted) (jobPayload i j) s) s
  if ended = [] then s else refreshSearch s

/-- The queued events of a unit leave the queues of a station's links. -/
def purgeUnit (i : Nat) (u : UnitId) (s : State) : State :=
  (s.station i).links.foldl (fun s l => s.modLink l (Link.keepEvents fun _ e => e.unit ≠ some u)) s

/-- While every lane of a station is gated its sequencers hold no anchored events (R173): its sweeps are dropped. -/
def emptyStation (i : Nat) (s : State) : State :=
  let st := s.station i
  if st.links = [] || st.links.any (fun l => !(s.link l).gated) then s
  else
    let mine (e : QEvent) : Bool := match e.unit with
      | some (.sweep k _) => k = i
      | _ => false
    let s := st.links.foldl (fun s l => s.modLink l (Link.keepEvents fun _ e => !mine e)) s
    let s := s.modStation i fun st => { st with sweeps := [], slotFired := [] }
    let s := s.modTiles fun t => if t.owner = .station i then { t with admitted := false } else t
    reportJobs i s

/-- Inputs with the role PAPER_OUT whose gate waits for the station's ACTIVE job: it is set at that job's terminal state
(R203). A page that has completed but not handed off its last event carries GATED_TAIL (R163). -/
def paperOutGates (i : Nat) (s : State) : State :=
  let waits (g : Nat) : Bool := (s.gpiOf g).pendingStations.contains i
  if pageActive s i || !(List.range 32).any waits then s
  else
    let s := (List.range 32).foldl (fun s g =>
      s.modGpi g fun x => { x with pendingStations := x.pendingStations.filter (· ≠ i) }) s
    let s := (s.station i).links.foldl (fun s l => gateLink 2 l s) s
    emptyStation i (s.modJobs i fun j => if j.st = .completed then { j with flags := j.flags ||| jobGatedTail } else j)

/-- Chosen jobs of a station end ABORTED at once; their uncommitted sweeps are rolled back with code 2 (R152, R162, R163). -/
def abortJobsAt (i : Nat) (pred : Job → Bool) (cause input : Nat) (flags : BitVec 16) (s : State) : State :=
  let hit := (s.station i).jobs.filter fun j => pred j && j.st ≠ .completed && j.st ≠ .aborted
  if hit = [] then s
  else
    let s := s.modJobs i fun j =>
      if hit.any (fun k => k.serial = j.serial) then
        { j with st := .aborted, cause := cause, input := input, flags := j.flags ||| flags, abort := none }
      else j
    let begun (j : Job) : Bool := j.st = .active || (s.station i).sweeps.any fun w =>
      w.job = some j.serial && w.admitted && !w.committed
    let s := if hit.any begun then rollbackTrigger 2 (linkLanes (s.station i).links) s else s
    let mine (w : Sweep) : Bool := !w.committed && hit.any fun j => w.job = some j.serial
    let s := ((s.station i).sweeps.filter mine).foldl (fun s w => purgeUnit i (.sweep i w.n) s) s
    let off (st : Station) (w : Sweep) : Sweep := if mine w then w.unpage st else w
    let s := s.modStation i fun st => { st with sweeps := st.sweeps.map (off st) }
    let s := hit.foldl (fun s j => releaseUnread i j.pageId s) s
    let s := paperOutGates i (reportJobs i s)
    if hit.any (fun j => j.st = .active) then syncPrivilege s else s

/-- Chosen jobs of every station end ABORTED at once (R395). -/
def abortJobs (pred : Job → Bool) (cause input : Nat) (s : State) : State :=
  (List.range 4).foldl (fun s i => abortJobsAt i pred cause input 0 s) s

/-- An abort by command reaches the Weir now for the ACTIVE jobs of a station and waits for their next due commit (R163). -/
def abortPending (i : Nat) (pred : Job → Bool) (cause : Nat) (s : State) : State :=
  s.modJobs i fun j => if pred j && j.st = .active && j.abort.isNone then { j with abort := some (cause, s.time) } else j

/-- A pending abort that reached the Weir before this tick; one that reaches it in the tick of a due commit counts as
arriving after it (R163). -/
def abortTaken (s : State) (abort : Option (Nat × BitVec 64)) : Option Nat :=
  (abort.filter fun a => a.2.toNat < s.time.toNat).map (·.1)

/-- Every ACTIVE page is aborted as by command (R162, R433). -/
def abortActivePages (cause : Nat) (s : State) : State :=
  (List.range 4).foldl (fun s i => abortPending i (fun _ => true) cause s) s

/-! ### The end of a layer (R161 to R163, R220, R227) -/

/-- Period of the set-points of a head, ticks (R213). -/
def Head.tsp (x : Head) : Nat := (roundDiv 1600000000 (x.rate * 10000)).toNat

/-- TRACK_DELAY in sub-ticks. -/
def Head.trackSub (x : Head) : Int := (x.trackDelay * 1600 * 64 : Nat)

/-- The least number whose square is at least `q`. -/
def ceilSqrt (q : Nat) : Nat :=
  let r := Nat.sqrt q
  if r * r = q then r else r + 1

/-- n of R218: periods of a move by a displacement in nm at a speed in mm/s: max(1, ceil(length / (speed × Tsp))). -/
def periodsOf (dx dy : Int) (speed tsp : Nat) : Nat :=
  let step := speed * 1000000 * tsp
  max 1 (ceilSqrt (ceilDiv ((dx * dx + dy * dy).toNat * (ticksPerSecond * ticksPerSecond)) (step * step)))

/-- A part k of n of the way between two points (R218). Its rounding is open (log entry 9). -/
def along (a b : Point) (k n : Nat) : Point :=
  ⟨a.x + openDivI ((b.x - a.x) * k) n, a.y + openDivI ((b.y - a.y) * k) n⟩

/-- The event is a set-point of a jump that belongs to no vector. -/
def QEvent.isMove (e : QEvent) : Bool := match e.plan with
  | .move _ => true
  | _ => false

/-- Where a head is when its jump in progress is given up: at its last set-point handed off (log entry 49). -/
def moveStopped (h : Nat) (s : State) : Point :=
  let x := s.head h
  match x.move with
  | some (_, a, b, n) =>
    let k := x.moveNext.1 - ((at' (s.link h).queues 2 []).filter QEvent.isMove).length
    if k = 0 then a else along a b k n
  | none => x.pos

/-- A jump that belongs to no vector: to the park position, or a jog (R220, forge.head.jog). It gives up a jump in
progress, and starts no earlier than the Weir can hand it off (log entry 40). -/
def startJump (h : Nat) (start : Int) (target : Point) (s : State) : State :=
  let first := s.now + (s.link h).d + (s.link h).leadSub
  let from_ := moveStopped h s
  let s := s.modLink h (Link.keepEvents fun _ e => !e.isMove)
  s.modHead h fun x =>
    let start := max start first
    let n := periodsOf (target.x - from_.x) (target.y - from_.y) x.jumpSpeed x.tsp
    { x with move := some (start, from_, target, n), moveNext := (0, 0), moveLeft := 2 * n, pos := target,
             endAt := start + 64 * (n * x.tsp + x.jumpSettle * 1600 : Nat) }

/-- The completion payload of forge.layer.expose. -/
def layerPayload (s : State) : List Byte :=
  let f := s.forge
  let e := (s.heads.map (·.energy)).sum
  leBytes 4 f.number.toNat ++ leBytes 1 (if f.terminal = some 0 then 0 else 1) ++ leBytes 1 (f.terminal.getD 0) ++
  leBytes 2 f.flags.toNat ++ leBytes 8 f.firstCommit.toNat ++ leBytes 8 f.lastHandoff.toNat ++
  leBytes 8 (min f.vectors (2 ^ 64 - 1)) ++ f.unexecuted.bytes ++ f.implicit.bytes ++ leBytes 8 (min e (2 ^ 64 - 1))

/-- Every event of the layer and every park jump has been handed off. -/
def layerDrained (s : State) : Bool := s.heads.all fun x => x.vecs.all (fun v => v.left = 0) && x.move.isNone

/-- The tiles of every head are released at the terminal state of the layer (R303). -/
def releaseHeadTiles (s : State) : State :=
  let owned (t : Tile) : Bool := t.allocated && match t.owner with
    | .head _ => true
    | _ => false
  (s.lag.tiles.filter owned).foldl (fun s t => releaseTile t.handle s) s

/-- The end of CLOSING (R227): the completion is posted and the layer is IDLE. -/
def finishLayer (s : State) : State :=
  if s.forge.layer = .closing && layerDrained s then
    let p := layerPayload s
    let st := if s.forge.terminal = some 0 then Status.ok else Status.aborted
    let c := s.forge.ctx
    let rest (x : Head) : Head :=
      { x with vecs := [], todo := [], inLayer := false, anchored := false, retired := false, st := 0, longWait := false,
               pausing := false, refused := none }
    let s := { s with
      forge := { s.forge with layer := .idle, ctx := none, abort := none, pausing := false, gated := false, reassign := [] },
      heads := s.heads.map rest }
    match c with
    | some c => complete c st p s
    | none => s
  else s

/-- A reassignment not yet issued is dropped: an abort has won (R245). -/
def dropReassignment (s : State) : State :=
  s.forge.retireCtx.foldl (fun s c => complete c Status.aborted (zeros 8) s)
    { s with forge := { s.forge with retireCtx := [], reassign := [] } }

/-- The terminal state of a layer is decided (R161): COMPLETED for cause 0, otherwise ABORTED. Uncommitted units of an
aborted layer are rolled back with code 2, a reassignment not yet issued is dropped (R245), the links of retired heads
are gated (R466), and the park jumps begin with emission off (R220). -/
def decideLayer (cause : Nat) (s : State) : State :=
  if s.forge.layer = .closing || s.forge.layer = .idle then s
  else
    let hs := (List.range s.nHeads).filter fun h => (s.head h).inLayer
    let s := syncPrivilege { s with forge := { s.forge with
      layer := .closing, terminal := some cause, abort := none, pausing := false,
      flags := if cause = 0 && s.forge.gated then s.forge.flags ||| layerGatedTail else s.forge.flags } }
    let s := if cause = 0 then s else hs.foldl (fun s h => returnVectors h s) (rollbackTrigger 2 (linkLanes hs) s)
    let last (x : Head) : Head :=
      { x with vecs := x.vecs.filter (·.committed), todo := [], token := .none,
               st := if x.retired then 6 else if x.inLayer then 5 else x.st, pausing := false, longWait := false }
    let s := releaseHeadTiles { s with heads := s.heads.map last }
    let s := dropReassignment s
    let s := ((List.range s.nHeads).filter fun h => fenced s 0x0103 h).foldl (fun s h => gateLink 3 h s) s
    let rest (x : Head) : Int := (x.actives.map (·.off)).foldl max (max x.endAt s.now)
    let s := hs.foldl (fun s h => startJump h (rest (s.head h)) (s.head h).park s) s
    finishLayer s

/-- A head that holds at a vector boundary: at Strait, at a fence, for a late record, for a rebuilt vector, or paused (R163). -/
def holding (s : State) (h : Nat) : Bool :=
  let x := s.head h
  match x.vecs.find? fun v => !v.committed with
  | some v => x.st = 2 || x.st = 3 || x.st = 4 || (!v.ready && (s.link h).handoffAt v.opens ≤ s.now)
  | none => (x.st = 2 || x.st = 3 || x.st = 4) && x.todo ≠ []

/-- An abort reaches a layer (R163, R230): PAUSED, or with a head that holds, it takes effect at once; EXPOSING, it
waits for the next due commit; ARMED, the layer returns to IDLE. -/
def abortLayer (cause : Nat) (s : State) : State :=
  match s.forge.layer with
  | .paused => decideLayer cause s
  | .exposing =>
    if (List.range s.nHeads).any (holding s) then decideLayer cause s
    else { s with forge := { s.forge with abort := some (s.forge.abort.getD (cause, s.time)) } }
  | .armed =>
    let off (x : Head) : Head := { x with inLayer := false, anchored := false, todo := [], retired := false, st := 0 }
    dropReassignment (releaseHeadTiles { s with forge := { s.forge with layer := .idle }, heads := s.heads.map off })
  | _ => s

/-! ### Gates (R133, R137) -/

/-- A station some of whose links have been gated: its ACTIVE page ends at this tick, and a page that has completed but
not handed off its last event carries GATED_TAIL (R137, R162, R163). -/
def gateStation (i abortCause input : Nat) (flags : BitVec 16) (s : State) : State :=
  let s := s.modJobs i fun j => if j.st = .completed then { j with flags := j.flags ||| jobGatedTail } else j
  abortJobsAt i (fun j => j.st = .active) abortCause input flags s

/-- The layer when links of its heads have been gated (R137, R162, R163). -/
def gateLayer (abortCause : Nat) (flags : BitVec 16) (s : State) : State :=
  if layerActive s then
    decideLayer abortCause { s with forge := { s.forge with flags := s.forge.flags ||| flags } }
  else if s.forge.layer = .closing && s.forge.terminal = some 0 then
    { s with forge := { s.forge with flags := s.forge.flags ||| layerGatedTail } }
  else s

/-- A gate cause is set on links with the ABORT_CAUSE and the ABORT_INPUT it gives, and the flags it adds. -/
def setCauseBy (cause : Nat) (links : List Nat) (abortCause input : Nat) (flags : BitVec 16) (s : State) : State :=
  let fresh := links.filter fun l => l < s.nLinks && !(s.link l).causes.getLsbD cause
  let s := fresh.foldl (fun s l => gateLink cause l s) s
  let sts := (List.range 4).filter fun i => (s.station i).links.any fresh.contains
  let s := sts.foldl (fun s i => emptyStation i (gateStation i abortCause input flags s)) s
  if fresh.any fun h => (s.head h).inLayer then gateLayer abortCause flags s else s

/-- A gate cause is set on links (R133): the pages and the layer on them abort with ABORT_CAUSE 3, or 2 for the cause of
an interlock; a thermal trip marks them DAMAGED (R190, R224). -/
def setCause (cause : Nat) (links : List Nat) (s : State) : State :=
  setCauseBy cause links (if cause = 2 then 2 else 3) 0xFF (if cause = 4 then jobDamaged else 0) s

/-- A gate cause clears on links (R133). The link opens only by lane.gate.release (R138). -/
def clearCause (cause : Nat) (links : List Nat) (s : State) : State :=
  links.foldl (fun s l => s.modLink l fun x => { x with causes := x.causes &&& ~~~(1#7 <<< cause) }) s

/-! ### Hand-off of a sweep -/

/-- Time at which the first event of a sweep reaches the Weir (R178). -/
def sweepDue (s : State) (i n : Nat) : Int :=
  let st := s.station i
  let base := s.predict st.bdSource (n * 65536) + nsSub st.sosNs
  let times := mapIx (fun b _ => (s.link (at' st.links (b / 8) 0)).handoffAt (base + st.skewOf b)) (List.replicate st.beams ())
  times.foldl min (times.headD base)

/-- The page of a station whose tile lost a word is marked DAMAGED (R310). -/
def damageTile (handle : Nat) (s : State) : State :=
  match (s.tile handle).owner with
  | .station i => s.modStation i fun st =>
      { st with jobs := st.jobs.map fun j => if j.pageId = (s.tile handle).page then { j with flags := j.flags ||| jobDamaged } else j }
  | _ => s

/-! ### A tile that fails its check (R151) -/

/-- The sweeps of a tile's page that read it. -/
def tileSweeps (i : Nat) (st : Station) (t : Tile) : List Sweep := st.sweeps.filter fun w => sweepReads i st w t

/-- The tile's lines are emitted blank in this page (R151). -/
def blankTile (h i : Nat) (s : State) : State :=
  let page := (s.tile h).page
  let s := s.modTile h fun t => { t with blank := true }
  present 0x0083 (some i) 0 (s.modStation i fun st =>
    { st with ra := { st.ra with tileBlank := st.ra.tileBlank.inc },
              jobs := st.jobs.map fun j => if j.pageId = page then { j with flags := j.flags ||| jobDamaged } else j })

/-- The band entry from which a tile of a station's page is expanded (R201, R202). -/
def bandOf (st : Station) (t : Tile) : Option Band :=
  (st.jobs.find? fun j => j.pageId = t.page).bind fun j =>
    j.bands.find? fun b => b.row = t.origin.toNat ∧ b.firstCol ≤ t.column.toNat ∧ t.column.toNat < b.firstCol + b.ncol

/-- A tile fails its check (R151): rollback with code 5; the first failure is expanded or staged again, in Press if
REEXPAND_MARGIN remains; otherwise its lines are blank, or the layer ends. A head waits at its first vector that the tile
holds, which is not ready. -/
def tileFailed (h : Nat) (s : State) : State :=
  let t := s.tile h
  let s := s.modTile h fun t => { t with verified := false, admitted := false, failed := t.failed + 1, stale := true }
  match t.owner with
  | .free => s
  | .station i =>
    let s := rollbackTrigger 5 (linkLanes (s.station i).links) s
    let s := present 0x0082 (some i) 0 (s.modStation i fun st => { st with ra := { st.ra with tileFail := st.ra.tileFail.inc } })
    let st := s.station i
    let late := (tileSweeps i st t).any fun w => sweepDue s i w.n < s.now + st.ra.margin * 1600 * 64
    if t.failed = 0 && !late then
      match bandOf st t with
      | some b => if !s.stationFed i then s else
        { s with dma := { s.dma with fwQueue := s.dma.fwQueue ++
          [{ station := i, page := t.page, src := b.address, srcLen := b.clen, origCrc := b.origCrc, row := b.row,
             firstCol := b.firstCol, ncol := b.ncol, again := some h, old := t.id }] } }
      | none => blankTile h i s
    else blankTile h i s
  | .head i =>
    let s := rollbackTrigger 5 (linkLanes [i]) s
    let s := present 0x0082 (some i) 0 (s.modHead i fun x => { x with ra := { x.ra with tileFail := x.ra.tileFail.inc } })
    if t.failed = 0 then s
    else present 0x0086 (some i) 0 (decideLayer 3 s)

end Sys2Proof.Machine
end

