-- ==== Sys2Proof/Machine/ThermalOps.lean ====
section
/-!
DEFINITION. Operations over thermal units (spec/18_thermal.md): factors, readings, trips.
-/
namespace Sys2Proof.Machine

open Sys2Proof

def State.sensor (s : State) (i : Nat) : Sensor := at' s.therm.sensors i {}

/-- A remote sensor is absent: its link runs version 1, is DEGRADED or is not UP (R413). -/
def sensorAbsent (s : State) (i : Nat) : Bool :=
  16 ≤ i && i < 40 && ((s.link (i - 16)).st ≠ .up || (s.link (i - 16)).version < 2)

/-- The sensors of a unit that are present. -/
def presentSensors (s : State) (u : Nat) : List Nat := (s.unit u).sensors.filter fun i => !sensorAbsent s i

/-- What a sensor reads: +255.00 °C while broken (R412). -/
def Sensor.read (x : Sensor) : Int := if x.broken then 1020 else x.value

/-- The unit's temperature: the highest reading of its present sensors; none without any (R416). -/
def unitTemp (s : State) (u : Nat) : Option Int :=
  (presentSensors s u).foldl (fun m i => match m with
    | none => some (s.sensor i).read
    | some t => some (max t (s.sensor i).read)) none

/-- A sensor of the unit is broken. -/
def unitBroken (s : State) (u : Nat) : Bool := (presentSensors s u).any fun i => (s.sensor i).broken

/-- The proportional factor max(512, 1,024 − floor(K × E / 4)) (R421). -/
def propFactor (k : Nat) (throttle temp : Int) : Nat := max 512 (1024 - k * (temp - throttle).toNat / 4)

/-- Links of a unit (R419): a station's, a head's, all of them for the device unit, none for a motor. -/
def unitLinks (s : State) (u : Nat) : List Nat :=
  if u = 0 then List.range s.nLinks
  else if u ≤ 4 then (s.station (u - 1)).links
  else if 8 ≤ u ∧ u < 32 then [u - 8]
  else []

/-- A motor's gates turn off and it coasts (R419), a start in progress ends FAILED; one at rest stays so. -/
def tripMotor (m : Nat) (s : State) : State :=
  if (s.motor m).st = .stopped || (s.motor m).st = .failed then s
  else if (s.motor m).st = .busBrake then s.modMotor m fun x => { x with gates := 0 }
  else coast m (endStart m 1 Status.failed 0 s)

/-- A unit trips (R418, R419): the trip is latched, its lanes are gated by cause 4 or its motor coasts, and the fault is
raised. -/
def tripUnit (u source : Nat) (s : State) : State :=
  let s := s.modUnit u fun x => { x with tripped := true, trips := x.trips.inc }
  let s := setCause 4 (unitLinks s u) s
  let s := if 32 ≤ u then tripMotor (u - 32) s else if u = 0 then (List.range 8).foldl (fun s m => tripMotor m s) s else s
  present source (some u) 0 s

/-- Every present sensor reads below TRIP − HYST and none is broken (R419). -/
def unitCool (s : State) (u : Nat) : Bool :=
  !unitBroken s u && match unitTemp s u with
    | some t => t < (s.unit u).trip - (s.unit u).hyst
    | none => true

/-- Trips whose units are cool and whose faults are acknowledged clear, and cause 4 with them (R419). -/
def clearTrips (s : State) : State :=
  if unackedSource s 0x0222 || unackedSource s 0x0223 then s
  else
    let s := (List.range 40).foldl (fun s u =>
      if (s.unit u).tripped && unitCool s u then s.modUnit u fun x => { x with tripped := false } else s) s
    let tripped := (List.range 40).filter fun u => (s.unit u).tripped
    clearCause 4 ((List.range 24).filter fun l => !tripped.any fun u => (unitLinks s u).contains l) s

/-- The temperature window of an OTP operation (R424): every on-die sensor reads 0 °C to 85 °C and none is broken. -/
def otpWindow (s : State) : Bool :=
  (List.range 16).all fun i => !(s.sensor i).broken && 0 ≤ (s.sensor i).read && (s.sensor i).read ≤ 340

/-- The page or layer of a unit is active (R413). -/
def unitActive (s : State) (u : Nat) : Bool := privileged s u

/-- The remote sensor of a link, present until now, becomes absent (R413), and is broken no longer: that is said of a link that
is UP (R412). -/
def remoteAbsent (l : Nat) (s : State) : State :=
  if sensorAbsent s (16 + l) then s
  else
    let s := { s with therm := { s.therm with sensors := modAt s.therm.sensors (16 + l) fun x => { x with broken := false } } }
    ((List.range 40).filter fun u => (s.unit u).sensors.contains (16 + l) && unitActive s u).foldl
    (fun s u => present 0x0226 (some u) 0 s) s

end Sys2Proof.Machine
end

