-- ==== Sys2Proof/Machine/EngineOps.lean ====
section
/-!
DEFINITION. Operations of the control engine (spec/10_control_engine.md): inputs, stages, delivery, holds, min-select
groups, the load rule, and the power limiter of R250.
-/
namespace Sys2Proof.Machine

open Sys2Proof

def State.loop (s : State) (i : Nat) : Loop := at' s.engine.loops i {}

def State.modLoop (s : State) (i : Nat) (f : Loop → Loop) : State :=
  { s with engine := { s.engine with loops := modAt s.engine.loops i f } }

def State.group (s : State) (i : Nat) : Group := at' s.engine.groups i {}

def State.modGroup (s : State) (i : Nat) (f : Group → Group) : State :=
  { s with engine := { s.engine with groups := modAt s.engine.groups i f } }

def State.repctl (s : State) (i : Nat) : Repctl := at' s.engine.repctls i {}

def State.modRepctl (s : State) (i : Nat) (f : Repctl → Repctl) : State :=
  { s with engine := { s.engine with repctls := modAt s.engine.repctls i f } }

def State.biasOf (s : State) (c : Nat) : Bias := at' s.bias c {}

def State.modBias (s : State) (c : Nat) (f : Bias → Bias) : State := { s with bias := modAt s.bias c f }

/-! ### Engine units (R255) -/

/-- 1.0 in 2.30. -/
def one30 : Int := 2 ^ 30

/-- The value is a signed 32-bit number. -/
def inFormat (v : Int) : Bool := -2 ^ 31 ≤ v && v < 2 ^ 31

/-- A signal of the engine: one that its format cannot hold is a free value (log entry 29). -/
def fitted (v : Option Int) (s : State) : Int × State :=
  match v with
  | some v => if inFormat v then (v, s) else (asSigned 32 (Config.freeNat s.free), { s with free := s.free + 1 })
  | none => (asSigned 32 (Config.freeNat s.free), { s with free := s.free + 1 })

/-- The counts that a converter of 12 bits gives, in engine units. -/
def countsUnits (counts : Nat) : Int := counts % 4096 * 2 ^ 18

/-- What an evaluation at tick `t` reads of a value that loops write (R260): one written at the same tick, by a lower slot, or
delivered before it; otherwise the value before the last write. -/
def delivered (t : Nat) (now : Int) (before : Int × Nat) : Int :=
  if before.2 = t || before.2 + 1280 ≤ t then now else before.1

/-- What a selection reads at tick `t` (R255, R260), the counts of a converter given, and the sum and number of the photodiode samples
taken since the last evaluation; none where its normalisation divides by zero. -/
def selValue (x : Sel) (t counts pdSum pdCnt : Nat) (s : State) : Option Int :=
  match x.kind with
  | 1 => some (countsUnits counts)
  | 2 => some (countsUnits counts)
  | 3 => if pdCnt = 0 then none else some (openDiv (pdSum * 2 ^ 18) pdCnt)
  | 4 => some (at' (at' s.cam.streams x.index {}).feats x.sub 0)
  | 5 => some ((s.sensor x.index).read * 2 ^ 20)
  | 6 =>
    let y := s.source x.index
    if y.st = .still then some 0
    else if y.p = 0 ∨ y.nominal = 0 then none
    else some (openDivI (1600000000 * 65536 * 2 ^ 30 * y.p.sign) (y.p.natAbs * y.nominal))
  | 7 =>
    let m := s.motor x.index
    if m.maxRpm = 0 then none else some (m.speedIn (2 ^ 30) m.maxRpm)
  | 8 => some (delivered t (s.loop x.index).out (s.loop x.index).outBefore)
  | 9 => some (delivered t (at' s.engine.vars x.index 0) (at' s.engine.varsBefore x.index (0, 0)))
  | _ => some 0

/-- An input selection names something that exists (R255). -/
def inSelOk (x : Sel) : Bool :=
  match x.kind with
  | 0 => true
  | 1 => x.index < 32
  | 2 => x.index < 16
  | 3 => x.index < 24
  | 4 => x.index < 16 && x.sub ≤ 4
  | 5 => x.index < 72
  | 6 => sourceExists x.index
  | 7 => x.index < 8
  | 8 => x.index < 64
  | 9 => x.index < 16
  | _ => false

/-- An output selection names something that exists (R256). -/
def outSelOk (x : Sel) : Bool :=
  match x.kind with
  | 0 => true
  | 1 => x.index < 16
  | 2 => x.index < 4
  | 3 => x.index < 24
  | 4 => x.index < 8
  | 5 => x.index < 64
  | 6 => x.index < 16
  | _ => false

/-! ### Stages (R257, R258) -/

/-- Saturation to the engine range, and whether it acted. -/
def saturate (v : Int) : Int × Nat := (clampI (-2 ^ 31) (2 ^ 31 - 1) v, bit (!inFormat v))

/-- The product of coefficient `k` and a signal, rounded to nearest at the coefficient's scale (R257, R258). -/
def Stage.product (g : Stage) (k : Nat) (x : Int) : Int :=
  let c := at' g.coef k 0
  if g.float then
    if 23 ≤ g.expo then c * x * 2 ^ (g.expo - 23).toNat else nearest (c * x) (2 ^ (23 - g.expo).toNat)
  else nearest (c * x) (2 ^ at' g.shift k 0)

/-- One stage (R257): its output, the stage with its states updated and I' set aside, and the saturations. -/
def Stage.eval (g : Stage) (x : Int) : Int × Stage × Nat :=
  let v := saturate (g.product 0 x + g.s1)
  let s1 := saturate (g.product 1 x - g.product 4 v.1 + g.s2)
  let s2 := saturate (g.product 2 x - g.product 5 v.1 + g.s3)
  let s3 := saturate (g.product 3 x - g.product 6 v.1)
  let i := if g.integ then g.i else 0
  let y := saturate (v.1 + i)
  let i' := if g.integ then saturate (g.i + g.product 7 x) else (g.i, 0)
  (y.1, { g with s1 := s1.1, s2 := s2.1, s3 := s3.1, next := i'.1 }, v.2 + s1.2 + s2.2 + s3.2 + y.2 + i'.2)

/-- The chain of stages. -/
def evalStages : List Stage → Int → Int × List Stage × Nat
  | [], x => (x, [], 0)
  | g :: gs, x =>
    let r := g.eval x
    let t := evalStages gs r.1
    (t.1, r.2.1 :: t.2.1, r.2.2 + t.2.2)

/-- Every state of a stage is clear. -/
def Stage.clear (g : Stage) : Stage := { g with s1 := 0, s2 := 0, s3 := 0, i := 0, next := 0 }

/-! ### The power limiter (R250) -/

/-- M, T and C of R250 in 2^-15, and the winner: 0 M, 1 T, 2 C. Ties select M; a tie of T and C is open. -/
def powerLimit (power powerMax theta cap g : Nat) : Nat × Nat :=
  let m := power * 257 * g
  let t := powerMax * 257 * theta * 32
  let c := cap * 257 * 2 ^ 15
  if m ≤ t ∧ m ≤ c then (m / 2 ^ 15, 0)
  else if t < c ∨ (t = c ∧ Config.tie t c) then (t / 2 ^ 15, 1)
  else (c / 2 ^ 15, 2)

/-- The vector in execution: the first committed one with events left. -/
def Head.current (x : Head) : Option Vec := x.vecs.find? fun v => v.committed && 0 < v.left

/-- g that applies to a vector: 1.0 without MELTPOOL or loop (R250); G_FORCE where it is set (forge.meltpool.raw). -/
def Head.gainOf (x : Head) (v : Vec) : Nat :=
  if v.r.meltpool ∧ x.loopKind ≠ 0 then clampI x.gainMin x.gainMax (x.gForce.getD x.g) |>.toNat else 2 ^ 15

/-- The limiter of a head for a vector: VALUE and winner. -/
def Head.limiter (x : Head) (v : Vec) : Nat × Nat :=
  powerLimit (min v.r.power x.powerMax) x.powerMax v.theta v.cap (x.gainOf v)

/-! ### Owners (R256, R271) -/

/-- The loop is the head's (R251): its slot, or a member of its group. -/
def Head.owns (x : Head) (s : State) (slot : Nat) : Bool :=
  (x.loopKind = 1 && x.loop = slot) || (x.loopKind = 2 && (s.group x.loop).members.contains slot)

/-- The head that owns a loop. -/
def headOwner (s : State) (slot : Nat) : Option Nat := (List.range 24).find? fun h => (s.head h).owns s slot

def heaterOwner (s : State) (slot : Nat) : Option Nat := (List.range 4).find? fun h => (s.heater h).loop = some slot

def biasOwner (s : State) (slot : Nat) : Option Nat := (List.range 16).find? fun c => (s.biasOf c).loop = some slot

/-- An owning command has bound the slot. -/
def slotOwned (s : State) (slot : Nat) : Bool :=
  (headOwner s slot).isSome || (heaterOwner s slot).isSome || (biasOwner s slot).isSome

/-- The slot is bound by another owner than the one named. -/
def boundElsewhere (s : State) (slot : Nat) (bias heater head : Option Nat) : Bool :=
  ((List.range 16).any fun c => some c ≠ bias && (s.biasOf c).loop = some slot) ||
  ((List.range 4).any fun h => some h ≠ heater && (s.heater h).loop = some slot) ||
  ((List.range 24).any fun h => some h ≠ head && (s.head h).owns s slot)

/-- A slot's REF is written by a command. -/
def setRef (slot : Nat) (v : Int) (s : State) : State := s.modLoop slot fun l => { l with ref := v, refNext := none }

/-- The tick of a slot's next scheduled evaluation, PHASE + n × PERIOD_TICKS (R257). -/
def Loop.dueTick (l : Loop) : Nat :=
  if l.lastTick < l.phase then l.phase else l.phase + ((l.lastTick - l.phase) / max 1 l.period + 1) * max 1 l.period

/-- A slot is enabled: its evaluations are scheduled from now on. -/
def enableLoop (slot : Nat) (s : State) : State :=
  s.modLoop slot fun l => { l with enabled := true, lastTick := if l.enabled then l.lastTick else s.time.toNat }

/-- A REF that another loop has delivered is read from its tick on (R260). -/
def Loop.takeRef (l : Loop) (t : Nat) : Loop :=
  match l.refNext with
  | some (from', v) => if from' ≤ t then { l with ref := v, refNext := none } else l
  | none => l

/-- An owner's slot changes: the old one loses its selections, the new one takes them (R206, R208, R256). -/
def bindLoop (old new : Option Nat) (inSel : Option Sel) (outSel : Sel) (s : State) : State :=
  let s := match old with
    | some l => if old = new then s else s.modLoop l fun x =>
        { x with inSel := if inSel.isSome then {} else x.inSel, outSel := {} }
    | none => s
  match new with
  | some l => s.modLoop l fun x => { x with inSel := inSel.getD x.inSel, outSel := outSel }
  | none => s

/-- A layer is ARMED, EXPOSING or PAUSED. -/
def layerBusy (s : State) : Bool := s.forge.layer = .armed || layerActive s

/-- A slot's owner is active (R271). -/
def ownerActive (s : State) (slot : Nat) : Bool :=
  ((List.range 16).any fun c => (s.biasOf c).loop = some slot && pageActive s (s.biasOf c).station) ||
  ((List.range 4).any fun h => (s.heater h).loop = some slot && !(s.heater h).tripped) ||
  ((headOwner s slot).isSome && layerBusy s)

/-- The slots and groups whose output is bound to a destination, groups counted from 64. -/
def loopsBoundTo (s : State) (kind index : Nat) : List Nat :=
  ((List.range 64).filter fun i => (s.loop i).loaded && (s.loop i).outSel.kind = kind && (s.loop i).outSel.index = index) ++
  ((List.range 16).filter fun g =>
    (s.group g).members ≠ [] && (s.group g).outSel.kind = kind && (s.group g).outSel.index = index).map (64 + ·)

/-- The ACTIVE token of the vector that emits at a time in sub-ticks (R235). -/
def Head.lit (x : Head) (now : Int) : Option Active := x.actives.find? fun a => a.on ≤ now && now < a.off

/-- A head's sample instants count: emission has been on for MP_SETTLE (R248). -/
def Head.settled (x : Head) (now : Int) : Bool := match x.lit now with
  | some a => a.on + (x.settle * 102400 : Nat) ≤ now
  | none => false

/-- The vector for which a condition of the melt pool is raised: the one that emits, or the last committed (R249, R252). -/
def Head.vectorNow (x : Head) (now : Int) : Nat := ((x.lit now).map fun a => a.r.seqNo).getD x.lastSeq

/-- The input of a head's loop is held (R248, R249, R252). -/
def inputHeld (s : State) (h slot : Nat) : Bool :=
  let x := s.head h
  let l := s.loop slot
  (l.inSel.kind = 3 && l.pdCnt = 0) || x.dark ||
  (l.inSel.kind = 4 && match at' (at' s.cam.streams l.inSel.index {}).featAt l.inSel.sub none with
    | some t => x.stale * 1600 < (s.time - t).toNat
    | none => true)

/-- An owner requests a hold of the loop (R261): emission off, its input held, or a heater-off cause. -/
def ownerHolds (s : State) (slot : Nat) : Bool :=
  (match headOwner s slot with
   | some h => ((s.head h).lit s.now).isNone || inputHeld s h slot
   | none => false) ||
  (match heaterOwner s slot with
   | some h => (s.heater h).off || (s.heater h).tripped
   | none => false)

/-! ### Delivery (R256, R262) -/

/-- What a destination returns: LIMITED, and that the value stands at its own clamp. -/
structure Delivery where
  limited : Bool
  clamp   : Bool
  st      : State

/-- The winner of the limiter for a head's emitting vector, were its gain `g` (R250, R251). -/
def Head.wonAt (x : Head) (now : Int) (g : Nat) : Nat :=
  match x.current with
  | some v => if (x.lit now).isSome then ({ x with g := g }.limiter v).2 else 0
  | none => 0

/-- An output is delivered to its destination (R256); it returns LIMITED (R262). The gain of a melt-pool loop keeps its
value while the loop is held: an owner holds it, or the limiter selects T or C with the gain that was and the gain that
would be (R251; log entry 30). REF is read from step 4 of R260 on. -/
def deliver (x : Sel) (out : Int) (hold : Bool) (s : State) : Delivery :=
  match x.kind with
  | 1 =>
    let b := s.biasOf x.index
    let d := nearest (out * 4095) (2 ^ 30)
    let off := b.held || b.raw.isSome || s.flt.fatal.isSome
    { limited := d < 0 || 4095 < d || off, clamp := d ≤ 0 || 4095 ≤ d,
      st := if off then s else s.modBias x.index fun b => { b with duty := (clampI 0 4095 d).toNat } }
  | 2 =>
    let u := (clampI 0 one30 out).toNat
    { limited := (s.heater x.index).density * 2 ^ 22 < u, clamp := out ≤ 0 || one30 ≤ out,
      st := s.modHeater x.index fun h => { h with u := u } }
  | 3 =>
    let h := s.head x.index
    let g := nearest out (2 ^ 15)
    let next := (clampI h.gainMin h.gainMax g).toNat
    let won := h.wonAt s.now next
    let keeps := hold || (won ≠ 0 && h.wonAt s.now h.g ≠ 0)
    { limited := won ≠ 0 || h.gForce.isSome, clamp := g ≤ h.gainMin || (h.gainMax : Int) ≤ g,
      st := if keeps then s else s.modHead x.index fun h => { h with g := next } }
  | 4 =>
    { limited := (s.motor x.index).limited || motorFactor s x.index < 1024, clamp := out ≤ 0 || one30 ≤ out,
      st := engineSpeed x.index (clampI 0 one30 out) s }
  | 5 => { limited := false, clamp := false,
           st := s.modLoop x.index fun l =>
             { l.takeRef s.time.toNat with refNext := some (s.time.toNat + 1280, out) } }
  | 6 => { limited := false, clamp := false,
           st := { s with engine := { s.engine with
             vars := modAt s.engine.vars x.index fun _ => out,
             varsBefore := modAt s.engine.varsBefore x.index fun b =>
               (delivered s.engine.tick (at' s.engine.vars x.index 0) b, s.engine.tick) } } }
  | _ => { limited := false, clamp := false, st := s }

/-! ### Holds (R261) -/

/-- Step 3 of R260 for one slot: integrators are committed unless held; the hold is counted, and 100,000 held in a row
raise CE_SAT_LONG (R273). -/
def commitLoop (slot : Nat) (held limited deselected : Bool) (s : State) : State :=
  let s := s.modLoop slot fun l =>
    { l with stages := if held then l.stages else l.stages.map fun g => { g with i := g.next },
             limited := limited, deselected := deselected, ownerHold := ownerHolds s slot, fresh := false,
             held := if held then l.held.inc else l.held, heldRun := if held then l.heldRun + 1 else 0,
             deselects := if deselected then l.deselects.inc else l.deselects, pdSum := 0, pdCnt := 0 }
  if (s.loop slot).heldRun = 100000 then present 0x0122 (some slot) 0 s else s

/-- Steps 2 to 4 of R260 for a slot of no group. -/
def settleLoop (slot : Nat) (s : State) : State :=
  let l := s.loop slot
  let hold := ownerHolds s slot
  let d := deliver l.outSel l.out hold s
  commitLoop slot (l.saturated || d.limited || hold || (l.outSel.kind = 3 && d.clamp)) d.limited false d.st

/-- The enabled members of a group, in slot order. -/
def enabledMembers (s : State) (g : Nat) : List Nat :=
  (List.range 64).filter fun i => (s.group g).members.contains i && (s.loop i).enabled

/-- The member with the lowest out; a tie goes to the lowest slot (R264). -/
def selected (s : State) (g : Nat) : Option Nat :=
  (enabledMembers s g).foldl (fun w i => match w with
    | none => some i
    | some j => if (s.loop i).out < (s.loop j).out then some i else some j) none

/-- Steps 2 to 4 of R260 for a group whose enabled members have all been evaluated (R264). -/
def settleGroup (g : Nat) (s : State) : State :=
  match selected s g with
  | none => s
  | some w =>
    let ms := enabledMembers s g
    let hold := ms.any (ownerHolds s)
    let d := deliver (s.group g).outSel (s.loop w).out hold s
    ms.foldl (fun s i =>
      commitLoop i ((s.loop i).saturated || i ≠ w || d.limited || d.clamp || hold) d.limited (i ≠ w) s) d.st

/-- A group with no enabled member delivers the lowest OUT_MIN of its members (R264). -/
def idleGroup (g : Nat) (s : State) : State :=
  match (s.group g).members with
  | [] => s
  | m :: ms =>
    if enabledMembers s g ≠ [] then s
    else (deliver (s.group g).outSel (ms.foldl (fun v i => min v (s.loop i).outMin) (s.loop m).outMin) false
      { s with engine := { s.engine with tick := s.time.toNat } }).st

/-- The group of a slot, if it has one with no enabled member, delivers its lowest OUT_MIN again (R264). -/
def idleGroupOf (slot : Nat) (s : State) : State := match (s.loop slot).group with
  | some g => idleGroup g s
  | none => s

/-- A group whose enabled members have all been evaluated at this tick is settled. -/
def settleFresh (g : Nat) (s : State) : State :=
  if (enabledMembers s g).all fun i => (s.loop i).fresh then settleGroup g s else s

/-- A slot that is disabled delivers OUT_MIN once (R263); a group left without an enabled member the lowest OUT_MIN of
its members (R264). -/
def disableLoop (slot : Nat) (s : State) : State :=
  let s := { s with engine := { s.engine with tick := s.time.toNat } }
  let s := s.modLoop slot fun l =>
    { l with enabled := false, fresh := false, out := l.outMin, outBefore := (l.out, s.time.toNat) }
  let l := s.loop slot
  match l.group with
  | none => (deliver l.outSel l.outMin false s).st
  | some g => if enabledMembers s g = [] then idleGroup g s else settleFresh g s

/-- A loop's limits; for a melt-pool loop with those of its head (R259). -/
def loopLimits (s : State) (slot : Nat) : Int × Int :=
  let l := s.loop slot
  match headOwner s slot with
  | some h => (max l.outMin ((s.head h).gainMin * 2 ^ 15), min l.outMax ((s.head h).gainMax * 2 ^ 15))
  | none => (l.outMin, l.outMax)

/-! ### Repetitive controllers (R266 to R268) -/

/-- The index outside Confluence mode at a time in ticks (R267). -/
def repIndex (s : State) (r : Repctl) (t : Nat) : Nat :=
  let x := s.source r.source
  let phi := s.phaseAt r.source (64 * (t : Int)) - x.n0.toNat * 65536
  if r.counts = 0 then 0 else ((phi % (r.counts * 65536 : Int)) * r.period / (r.counts * 65536 : Int)).toNat

/-- r of R257: the additive of a loop, taken at its scheduled tick (R266). -/
def additive (s : State) (slot : Nat) : Int :=
  match s.engine.repctls.find? fun r => r.mode = 3 && r.dest = slot with
  | some r => r.entry (repIndex s r s.engine.tick)
  | none => 0

/-- One update of a controller (R268). -/
def learn (k j : Nat) (e : Int) (s : State) : State :=
  let r := s.repctl k
  if r.period = 0 then s
  else
    let i := ((j : Int) - r.lead) % (r.period : Int) |>.toNat
    let q : Int := if r.forget = 0 then 65536 else r.forget
    let v := nearest (q * r.entry i + r.gain * e) 65536
    let c := clampI (-r.clamp) r.clamp v
    let s := s.modRepctl k fun r =>
      { r with table := modAt r.table i fun _ => c, updates := r.updates + 1, last := s.time,
               clamped := if c = v then r.clamped else r.clamped.inc }
    if c ≠ v ∧ !(s.repctl k).raised then present 0x0123 (some k) 0 (s.modRepctl k fun r => { r with raised := true }) else s

/-- A controller is bound in some mode: its table is clear and its learning begins (R266, R268). -/
def bindRepctl (k mode period : Nat) (s : State) : State :=
  s.modRepctl k fun r =>
    { r with mode := mode, loaded := true, period := period, raised := false, pending := [], j := 0,
             table := if r.period = period ∧ r.table.length = period then r.table else List.replicate period 0 }

/-- A controller is no longer bound. -/
def unbindRepctl (k : Nat) (s : State) : State := s.modRepctl k fun r => { r with mode := 0, pending := [] }

/-- A source has entered TRACK: the controllers it indexes clear unless it has Z_ALIGN (R97, R268). -/
def clearRepctls (i : Nat) (s : State) : State :=
  let x := s.source i
  if i < 16 && x.flags.getLsbD 3 then s
  else
    let wipe (k : Nat) (r : Repctl) : Repctl :=
      if (x.repctl = some k && r.mode = 1) || (2 ≤ r.mode && r.source = i) then
        { r with table := r.table.map fun _ => 0, pending := [] }
      else r
    { s with engine := { s.engine with repctls := mapIx wipe s.engine.repctls } }

/-! ### The load rule (R269) -/

/-- Phase, period and stages of some slots. -/
def scheduleOf (s : State) (slots : List Nat) : List (Nat × Nat × Nat) :=
  slots.map fun i => ((s.loop i).phase, (s.loop i).period, (s.loop i).stages.length)

/-- The enabled slots. -/
def enabledSlots (s : State) : List Nat := (List.range 64).filter fun i => (s.loop i).loaded && (s.loop i).enabled

/-- The sum of the loads of enabled slots does not exceed 16,000,000 stage evaluations per second. -/
def loadOk (ls : List (Nat × Nat × Nat)) : Bool :=
  let l := ls.foldl (fun m x => Nat.lcm m (max 1 x.2.1)) 1
  (ls.map fun x => x.2.2 * ticksPerSecond * (l / max 1 x.2.1)).sum ≤ 16000000 * l

/-- Every 1,600-tick window holds at most 16 scheduled stage evaluations; windows that begin at an evaluation decide. -/
def windowsOk (ls : List (Nat × Nat × Nat)) : Bool :=
  let l := ls.foldl (fun m x => Nat.lcm m (max 1 x.2.1)) 1
  ls.all fun x => (List.range (l / max 1 x.2.1)).all fun n =>
    let t : Int := x.1 + n * max 1 x.2.1
    (ls.map fun y => if ((y.1 : Int) - t) % (max 1 y.2.1 : Int) < 1600 then y.2.2 else 0).sum ≤ 16

/-- The load that is reported, stage evaluations per second. -/
def loadOf (s : State) : Nat := ((scheduleOf s (enabledSlots s)).map fun x => openDiv (x.2.2 * ticksPerSecond) (max 1 x.2.1)).sum

/-- Slots that share one phase, the lowest that keeps the window rule; none where the load rule fails (R269). The slots
named last wait for a phase of their own and count for the load alone. -/
def assignPhase (slots waiting : List Nat) (s : State) : Option State :=
  let others := scheduleOf s ((enabledSlots s).filter fun i => !slots.contains i && !waiting.contains i)
  let mine (p : Nat) : List (Nat × Nat × Nat) :=
    (scheduleOf s (slots.filter fun i => (s.loop i).enabled)).map fun x => (p, x.2)
  let period := ((slots.head?.map fun i => (s.loop i).period)).getD 1
  if !loadOk (scheduleOf s (enabledSlots s)) then none
  else ((List.range period).find? fun p => windowsOk (others ++ mine p)).map fun p =>
    slots.foldl (fun s i => s.modLoop i fun l => { l with phase := p }) s

/-- Slots and groups take their phases in order (R269). -/
def assignPhases : List (List Nat) → State → Option State
  | [], s => some s
  | u :: us, s => (assignPhase u us.flatten s).bind (assignPhases us)

end Sys2Proof.Machine
end

