-- ==== Sys2Proof/Machine/Bldc.lean ====
section
/-!
DEFINITION. Brushless motors (spec/15_bldc.md): zero crossings, commutation, starting, speed commands, bus braking, and
the commands of group 0x0E.
-/
namespace Sys2Proof.Machine

open Sys2Proof

/-! ### Running -/

/-- Synchronism is lost (R369, R372): gates off, COAST and BL_SYNC_LOST. Within 500 ms of entering RUN the attempt
fails; otherwise AUTO_RESTART begins a start sequence. -/
def syncLoss (m : Nat) (s : State) : State :=
  let x := s.motor m
  let early := (s.time - x.runAt).toNat < 500 * ticksPerMs
  let s := coast m s
  let s := present 0x01C1 (some m) 0 (s.modMotor m fun x => { x with syncLosses := x.syncLosses.inc, badRun := 0 })
  if early then failAttempt m 5 s else if x.auto then startSequence m s else s

/-- RUN is entered (R370): the completion of bldc.start is posted. -/
def enterRun (m : Nat) (s : State) : State :=
  let rpm := (s.motor m).rpm
  let s := s.modMotor m fun x =>
    { x with st := .run, runAt := s.time, badRun := 0, goodRun := 0, inForce := rpm * ticksPerSecond }
  endStart m 0 Status.ok rpm s

/-- One step is judged implausible (R368). -/
def implausible (m : Nat) (s : State) : State :=
  let s := s.modMotor m fun x => { x with badRun := x.badRun + 1, goodRun := 0 }
  if (s.motor m).st = .run && (s.motor m).lossCount ≤ (s.motor m).badRun then syncLoss m s else s

/-- A crossing found now lies in the blanking of DEMAG after the commutation (R365): it is not detected. -/
def blanked (s : State) (x : Motor) (delta : Nat) : Bool := 32 * (s.time - x.commAt).toNat < x.demag * x.deltas.headD delta

/-- A crossing is plausible (R368): found between the end of blanking and 2 × Δ_prev, Δ within 0.5 to 1.5 × Δ_prev, and a
measured speed of at most 1.25 × MAX_RPM. -/
def plausible (s : State) (x : Motor) (delta : Nat) : Bool :=
  let prev := x.deltas.headD delta
  let at_ := (s.time - x.commAt).toNat
  !blanked s x delta && at_ ≤ 2 * prev && prev ≤ 2 * delta && 2 * delta ≤ 3 * prev &&
  4 * Motor.rpm { x with deltas := (delta :: x.deltas).take 6 } ≤ 5 * x.maxRpm

/-- BEMF_ZERO_CROSS (R365, R368, R370, R372): a crossing Δ after the last one is judged (log entry 4); the next
commutation follows it by Δ/2 minus ADVANCE; in RAMP reverse rotation fails the attempt and twelve plausible crossings hand
off. A coasting or braked rotor's crossings are only timed. -/
def execBemfZeroCross (motor delta : Nat) (forward : Bool) (s : State) : Out :=
  let x := s.motor motor
  let s₀ := s
  let s := if x.st = .stopped || x.st = .failed then s else s.advanceTo (x.crossAt.toNat + delta)
  if x.st = .coast || x.st = .busBrake || x.st = .brake || x.st = .listen then
    .next (s.modMotor motor fun x => { x with crossAt := s.time, deltas := (delta :: x.deltas).take 6 })
  else if x.crossed || !(x.st = .run || x.st = .ramp) then .next s
  else if blanked s x delta then .next s₀
  else if x.st = .ramp && 5 * rpmOf x.poles 1 delta < x.handoff then .next s
  else if x.st = .ramp && !forward then .next (failAttempt motor 2 s)
  else
    let ok := plausible s x delta
    let due := s.time + BitVec.ofNat 64 (delta / 2 - delta * x.advance / 60)
    let s := s.modMotor motor fun x => { x with crossed := true, crossAt := s.time, deltas := (delta :: x.deltas).take 6, commDue := due }
    if !ok then .next (implausible motor s)
    else
      let s := s.modMotor motor fun x => { x with badRun := 0, goodRun := x.goodRun + 1 }
      .next (if (s.motor motor).st = .ramp && 12 ≤ (s.motor motor).goodRun then enterRun motor s else s)

/-- The command of the selected source, as capped by the throttle and MAX_RPM, rpm (R375). -/
def commandLimit (s : State) (m : Nat) : Nat :=
  let x := s.motor m
  min (if x.ramping then 0 else x.command) (min x.maxRpm (x.maxRpm * motorFactor s m / 1024))

/-- The duty preset from the speed of a catch, and the integral that goes with it: free values (log entry 20). -/
def freeDuty (m : Nat) (s : State) : State :=
  { s with free := s.free + 2 }.modMotor m fun x =>
    { x with duty := Config.freeNat s.free % (x.maxDuty + 1), errorSum := Config.freeNat (s.free + 1) }

/-- The regulator, a PI once per electrical revolution of `t` ticks (R374, R375): the command slews at ACCEL; below MIN_RPM
the motor coasts. The duty is limited to 0 to MAX_DUTY; the scale of its gains is open (log entry 20). -/
def regulate (m t : Nat) (s : State) : State :=
  let x := s.motor m
  let target := commandLimit s m * ticksPerSecond
  let d := x.accel * t
  let now := if x.inForce ≤ target then min target (x.inForce + d) else max target (x.inForce - d)
  let asked := if x.ramping then 0 else x.command
  let error : Int := (now : Int) - x.speedIn ticksPerSecond 1
  let sum := x.errorSum + error * t
  let duty := clampI 0 x.maxDuty (Config.speedDuty (x.kp * error * ticksPerSecond + x.ki * sum))
  let s := s.modMotor m fun x =>
    { x with inForce := now, limited := now < asked * ticksPerSecond, errorSum := sum, duty := duty.toNat }
  if now < x.minRpm * ticksPerSecond && target < x.minRpm * ticksPerSecond then coast m s else s

/-- The commutation of a motor in RAMP or RUN (R364, R374). -/
def commutate (m : Nat) (s : State) : State :=
  let x := s.motor m
  let step := (x.step + 1) % 6
  let s := s.modMotor m fun x =>
    let x := match x.rawNext with
      | some (dm, ad, lc, bb, dn) => { x with demag := dm, advance := ad, lossCount := lc, bemfBlank := bb, deadNs := dn, rawNext := none }
      | none => x
    { x with step := step, crossed := false, commAt := s.time, commutations := x.commutations + 1 }
  let s := setGates m (stepGates step) s
  if step = 0 && x.st = .run then regulate m x.deltas.sum s else s

/-- Commutations of a ramp `t` ticks after it began, from 2 electrical Hz to HANDOFF_RPM over RAMP_MS (R370; its speed rises in
proportion to time, log entry 20): six for each electrical revolution. -/
def Motor.rampCount (x : Motor) (t : Nat) : Nat :=
  let all := x.rampMs * ticksPerMs
  let top := x.handoff * x.poles
  t * (120 * (2 * all - t) + top * t) / (20 * all * ticksPerSecond)

/-- The tick of the ramp at which its next commutation is due; none before it ends. -/
def Motor.rampDue (x : Motor) : Option Nat :=
  let t := greatest (fun t => x.rampCount (t - 1) ≤ x.rampSteps && t ≤ x.rampMs * ticksPerMs) 36 0
  if x.rampSteps < x.rampCount t then some t else none

/-- COMMUTATION (R364, R365, R370, R374): in RUN at its time after the crossing, in RAMP at that of the open loop (log entry
4). -/
def execCommutation (motor : Nat) (s : State) : Out :=
  let x := s.motor motor
  if x.st = .run && x.crossed then .next (commutate motor (s.advanceTo x.commDue.toNat))
  else if x.st = .ramp then
    match x.rampDue with
    | some t =>
      .next (commutate motor ((s.advanceTo (x.phaseAt.toNat + t)).modMotor motor fun x =>
        { x with rampSteps := x.rampSteps + 1, goodRun := if x.crossed then x.goodRun else 0 }))
    | none => .next s
  else .next s

/-- ZERO_CROSS_TIMEOUT (R368): a step with no crossing by 2 × Δ_prev is commutated and counts as implausible; the open loop of a
ramp commutates at its own times. -/
def execZeroCrossTimeout (motor : Nat) (s : State) : Out :=
  let x := s.motor motor
  if x.st ≠ .run || x.crossed then .next s
  else
    let s := implausible motor (s.advanceTo (x.commAt.toNat + 2 * x.deltas.headD 0))
    .next (if (s.motor motor).st = x.st then commutate motor s else s)

/-- COAST_STANDSTILL (R369): no crossing for 50 ms (log entry 4). -/
def execCoastStandstill (motor : Nat) (s : State) : Out :=
  let x := s.motor motor
  if x.st ≠ .coast then .next s
  else .next ((s.advanceTo (x.crossAt.toNat + 50 * ticksPerMs)).modMotor motor fun x => { x with st := .stopped, deltas := [] })

/-! ### Starting (R370 to R373) -/

/-- ALIGN begins: one fixed drive vector at ALIGN_DUTY. -/
def align (m : Nat) (s : State) : State :=
  setGates m (stepGates 0) (s.modMotor m fun x =>
    { x with st := .align, step := 0, duty := x.alignDuty, deltas := [], phaseAt := s.time })

/-- The speed is CATCH_RPM or above; 0 stands for 10 % of MAX_RPM (R370). -/
def Motor.catches (x : Motor) (rpm : Nat) : Bool := if x.catchRpm = 0 then x.maxRpm ≤ 10 * rpm else x.catchRpm ≤ rpm

/-- LISTEN_END (R370 steps 1 and 2), 50 ms after the listen began: align, catch, or brake. The duty preset of a catch is
free (log entry 20). The process core of Isle 1 does it (R39). -/
def execListenEnd (motor crossings : Nat) (forward : Bool) (delta : Nat) (s : State) : Out :=
  let x := s.motor motor
  if x.st ≠ .listen || !s.coreUp motorCore then .next s
  else
    let s := s.advanceTo (x.phaseAt.toNat + 50 * ticksPerMs)
    if crossings < 7 then .next (align motor s)
    else if forward && x.catches (rpmOf x.poles 1 delta) then
      .next (enterRun motor (freeDuty motor (setGates motor (stepGates x.step) (s.modMotor motor fun x =>
        { x with deltas := List.replicate 6 delta, caught := true, crossed := false,
                 commAt := s.time, crossAt := s.time, windowAt := s.time, limitedPeriods := 0 }))))
    else .next (setGates motor lowSides (s.modMotor motor fun x => { x with st := .brake, phaseAt := s.time, listenAt := s.time }))

/-- BRAKE_LISTEN (R370 step 3): the end of the 10 ms listen for which the brake is released every 50 ms. The brake ends at the
first listen with fewer than 2 crossings. -/
def execBrakeListen (motor crossings : Nat) (s : State) : Out :=
  let x := s.motor motor
  if x.st ≠ .brake || !s.coreUp motorCore then .next s
  else
    let s := s.advanceTo (x.listenAt.toNat + 60 * ticksPerMs)
    if crossings < 2 then .next (align motor s)
    else .next (setGates motor lowSides (s.modMotor motor fun x => { x with listenAt := s.time - BitVec.ofNat 64 (10 * ticksPerMs) }))

/-- BRAKE_TIMEOUT (R372): BRAKE_MS is exceeded. -/
def execBrakeTimeout (motor : Nat) (s : State) : Out :=
  let x := s.motor motor
  if x.st ≠ .brake || !s.coreUp motorCore then .next s
  else .next (failAttempt motor 4 (s.advanceTo (x.phaseAt.toNat + x.brakeMs * ticksPerMs)))

/-- ALIGN_END (R370 step 5), ALIGN_MS after ALIGN began: the ramp begins. -/
def execAlignEnd (motor : Nat) (s : State) : Out :=
  let x := s.motor motor
  if x.st ≠ .align || !s.coreUp motorCore then .next s
  else
    let s := s.advanceTo (x.phaseAt.toNat + x.alignMs * ticksPerMs)
    .next (s.modMotor motor fun x =>
      { x with st := .ramp, rampSteps := 0, goodRun := 0, badRun := 0, crossed := false, errorSum := 0, commAt := s.time,
               crossAt := s.time, phaseAt := s.time })

/-- RAMP_TIMEOUT (R372): RAMP_MS ends without hand-off. -/
def execRampTimeout (motor : Nat) (s : State) : Out :=
  let x := s.motor motor
  if x.st ≠ .ramp || !s.coreUp motorCore then .next s
  else .next (failAttempt motor 1 (s.advanceTo (x.phaseAt.toNat + x.rampMs * ticksPerMs)))

/-! ### Currents and the bus (R377 to R381) -/

/-- DRIVE_CURRENT_LIMIT (R377): with MOTm_ISNS at `isns.mv`, above I_DRIVE, the high side is off for the rest of the PWM period;
a period counts once. -/
def execDriveCurrentLimit (isns : CurrentSense) (s : State) : Out :=
  .next (s.modMotor isns.motor fun x =>
    if x.driven && x.iDrive < isns.mv && !x.highOff s.time then { x with limitAt := some s.time, limitedPeriods := x.limitedPeriods + 1 }
    else x)

/-- OVERCURRENT_WINDOW (R377): limiting in more than half of the periods of 100 ms raises BL_OVERCURRENT and the motor
coasts; a start in progress ends FAILED with it (log entry 93). The window ends 100 ms after it began (log entry 4). -/
def execOvercurrentWindow (motor : Nat) (s : State) : Out :=
  let x := s.motor motor
  let s := s.advanceTo (x.windowAt.toNat + 100 * ticksPerMs)
  let exceeds := x.pwmKhz * 100 < 2 * x.limitedPeriods
  let s := s.modMotor motor fun x => { x with limitedPeriods := 0, windowAt := s.time }
  if !exceeds then .next s
  else
    let s := present 0x01C6 (some motor) 0 s
    .next (if x.driven then coast motor (endStart motor 1 Status.failed 0 s) else s)

/-- BUS_VOLTAGE_SAMPLE (R378, R379): the chopper switches; at OV_LIMIT the group brakes; at ABS_LIMIT BL_BUS_ABS. -/
def execBusVoltageSample (group code : Nat) (s : State) : Out :=
  let b := s.bus group
  if !b.configured then .next s
  else
    let v := openDiv (code * b.fullScale) 4095
    let s := s.modBus group fun b =>
      { b with volts := v, chopper := if b.chopOn ≤ v then true else if v ≤ b.chopOff then false else b.chopper,
               chopAt := if b.chopOn ≤ v && !b.chopper then s.time else b.chopAt }
    let s := if b.ovLimit ≤ v then enterBusBrake group s else s
    .next (if b.absLimit ≤ v && (s.bus group).latched && !(s.bus group).absRaised then
        present 0x01C3 (some group) 0 (s.modBus group fun b => { b with absRaised := true })
      else s)

/-- CHOPPER_FAIL_TIMEOUT (R378, R379): the chopper is judged failed and the group brakes. `fail.feedback`: BRKFB has disagreed with
BRK for 10 µs; otherwise BRK has stayed on for 20 ms without the bus falling to CHOP_OFF (log entry 4). -/
def execChopperFailTimeout (fail : ChopperFail) (s : State) : Out :=
  let b := s.bus fail.group
  if !b.configured || !(fail.feedback || b.chopper) then .next s
  else
    let s := if fail.feedback then s else s.advanceTo (b.chopAt.toNat + 20 * ticksPerMs)
    .next (enterBusBrake fail.group (present 0x01C4 (some fail.group) 0 s))

/-- BRAKE_CURRENT_LIMIT (R379, R381): above I_BRAKE all gates are off; below 0.8 × I_BRAKE the low sides turn on. -/
def execBrakeCurrentLimit (motor mv : Nat) (s : State) : Out :=
  let i := (busOf s motor).iBrake
  let x := s.motor motor
  .next (
    if x.st ≠ .busBrake && x.st ≠ .brake then s
    else if i < mv then s.modMotor motor fun x => { x with gates := 0 }
    else if 5 * mv < 4 * i && !fenced s 0x01C6 motor && s.flt.fatal.isNone then setGates motor lowSides s
    else s)

/-- BUS_BRAKE_STANDSTILL (R380). -/
def execBusBrakeStandstill (motor : Nat) (s : State) : Out :=
  .next (s.modMotor motor fun x => if x.st = .busBrake then { x with st := .stopped, gates := 0, deltas := [] } else x)

/-! ### The speed pin (R376) -/

/-- f × MAX_RPM with f clamped to 0 to 1; a PIN_HI below PIN_LO inverts the slope. With the two equal f is open (log entry
20). -/
def pinCommand (x : Motor) (value : Nat) : Nat :=
  if x.pinLo < x.pinHi then openDiv (min (value - x.pinLo) (x.pinHi - x.pinLo) * x.maxRpm) (x.pinHi - x.pinLo)
  else if x.pinHi < x.pinLo then openDiv (min (x.pinLo - value) (x.pinLo - x.pinHi) * x.maxRpm) (x.pinLo - x.pinHi)
  else openDiv (min 65536 (Config.pinFraction value) * x.maxRpm) 65536

/-- A measurement is within the range of PIN_MODE: of an analogue level, at most 0.1 V outside PIN_LO to PIN_HI. -/
def Motor.pinValid (x : Motor) (value : Nat) : Bool := x.pinMode ≠ 0 || (x.pinLo ≤ value + 100 && value ≤ x.pinHi + 100)

/-- SPEED_PIN_MEASURE: V in mV, duty in 0.1 %, or frequency in Hz, by PIN_MODE. -/
def execSpeedPinMeasure (motor value : Nat) (s : State) : Out :=
  let x := s.motor motor
  if motor < 4 then .next s
  else
    let rpm := pinCommand x value
    let ok := x.pinValid value
    let s := s.modMotor motor fun x =>
      { x with pinRpm := rpm, pinAt := s.time,
               pinBadAt := if ok then none else some (x.pinBadAt.getD s.time),
               pinOkAt := if ok then some (x.pinOkAt.getD s.time) else none }
    .next (if x.source = 2 && !x.pinLost then setCommand motor rpm s else s)

/-- SPEED_PIN_LOST: the analogue level has been out of its range, or the pin without an edge, for 100 ms (log entry 4). The
command is FAILSAFE × MAX_RPM and BL_SPEED_PIN is raised; in mode 2 F is 0 instead. -/
def execSpeedPinLost (motor : Nat) (s : State) : Out :=
  let x := s.motor motor
  if motor < 4 || x.pinLost || (x.pinMode = 0 && x.pinBadAt.isNone) then .next s
  else
  let since := if x.pinMode = 0 then x.pinBadAt.getD 0 else x.pinAt
  let s := (s.advanceTo (since.toNat + 100 * ticksPerMs)).modMotor motor fun x => { x with pinOkAt := none }
  if x.pinMode = 2 then
    let s := s.modMotor motor fun x => { x with pinRpm := pinCommand x 0 }
    .next (if x.source = 2 then setCommand motor (pinCommand x 0) s else s)
  else
    let s := present 0x01C5 (some motor) 0 (s.modMotor motor fun x => { x with pinLost := true })
    .next (if x.source = 2 then setCommand motor (openDiv (x.failsafe * x.maxRpm) 255) s else s)

/-- SPEED_PIN_RESUME: the signal has been valid for 100 ms (log entry 4). -/
def execSpeedPinResume (motor : Nat) (s : State) : Out :=
  let x := s.motor motor
  if !x.pinLost || x.pinOkAt.isNone then .next s
  else
    let s := (s.advanceTo ((x.pinOkAt.getD 0).toNat + 100 * ticksPerMs)).modMotor motor fun x => { x with pinLost := false }
    .next (if x.source = 2 then setCommand motor x.pinRpm s else s)

/-! ### Commands -/

/-- bldc.config (0x0E01). -/
def execBldcConfig (rq : Req) (s : State) : Out :=
  let m := rq.u8 0
  let x := s.motor m
  let maxRpm := rq.u16 4
  let bad := rq.u8 1 < 1 || 8 < rq.u8 1 || 2 < rq.u8 2 || (rq.u8 2 = 2 && m < 4) || maxRpm < 100 || 60000 < maxRpm ||
    maxRpm < rq.u16 6 || rq.u8 10 < 20 || 100 < rq.u8 10 || 2 < rq.u8 13 || rq.u16 14 < 10 || 5000 < rq.u16 14 ||
    rq.u16 16 < 50 || 30000 < rq.u16 16 || maxRpm < rq.u16 18 || rq.u16 20 < 100 || 60000 < rq.u16 20 || rq.u16 22 < 1
  command 0x0E01 rq
    [(8 ≤ m, Status.outOfRange), (bad, Status.badValue), (x.st ≠ .stopped && x.st ≠ .failed, Status.state),
     (rq.u8 2 = 1 && 1 < (loopsBoundTo s 4 m).length, Status.busy)]
    (fun s => respond rq 0x0E01 Status.ok [] (s.modMotor m fun x =>
      { x with poles := rq.u8 1, source := rq.u8 2, auto := rq.bit 3 0, maxRpm := maxRpm, minRpm := rq.u16 6,
               catchRpm := rq.u16 8, pwmKhz := rq.u8 10, maxDuty := rq.u8 11, alignDuty := rq.u8 12, pinMode := rq.u8 13,
               alignMs := rq.u16 14, rampMs := rq.u16 16, handoff := rq.u16 18, brakeMs := rq.u16 20, accel := rq.u16 22,
               kp := rq.u32 24, ki := rq.u32 28, iDrive := rq.u16 32, pinLo := rq.u16 34, pinHi := rq.u16 36,
               failsafe := rq.u8 38, pinLost := false, pinBadAt := none, pinOkAt := none })) s

/-- bldc.bus.config (0x0E02): it releases the latch of R380. -/
def execBldcBusConfig (rq : Req) (s : State) : Out :=
  let g := rq.u8 0
  let mask := BitVec.ofNat 8 (rq.u8 1)
  let other := (s.bus (1 - g)).motors
  let unacked := [0x01C2, 0x01C3, 0x01C4].any fun f => unackedSource s f
  command 0x0E02 rq
    [(2 ≤ g, Status.outOfRange),
     (mask &&& other ≠ 0 || !(rq.u16 6 < rq.u16 4 && rq.u16 4 < rq.u16 8 && rq.u16 8 < rq.u16 10), Status.badValue),
     ((s.bus g).latched && unacked, Status.state)]
    (fun s => respond rq 0x0E02 Status.ok [] (s.modBus g fun b =>
      { b with configured := true, motors := mask, fullScale := rq.u16 2, chopOn := rq.u16 4, chopOff := rq.u16 6,
               ovLimit := rq.u16 8, absLimit := rq.u16 10, iBrake := rq.u16 12, latched := false, absRaised := false })) s

/-- bldc.start (0x0E03). -/
def execBldcStart (rq : Req) (s : State) : Out :=
  let m := rq.u8 0
  let x := s.motor m
  command 0x0E03 rq
    [(8 ≤ m, Status.outOfRange), (x.starting || x.st = .run, Status.state),
     ((busOf s m).latched || x.st = .busBrake, 0x8E01), (fenced s 0x01C6 m, Status.fenced)]
    (fun s =>
      let s := s.modMotor m fun x =>
        { x with ctx := some (rq.ctx s 0x0E03), command := if x.source = 0 then rq.u16 4 else x.command }
      accept rq 0x0E03 [] (startSequence m s)) s

/-- bldc.speed (0x0E04). -/
def execBldcSpeed (rq : Req) (s : State) : Out :=
  let m := rq.u8 0
  command 0x0E04 rq
    [(8 ≤ m, Status.outOfRange), ((s.motor m).maxRpm < rq.u16 2, Status.badValue), ((s.motor m).source ≠ 0, 0x8E02),
     (fenced s 0x01C6 m, Status.fenced)]
    (fun s => respond rq 0x0E04 Status.ok [] (setCommand m (rq.u16 2) s)) s

/-- One motor of bldc.stop (R373). -/
def stopMotor (m : Nat) (ramp : Bool) (s : State) : State :=
  let x := s.motor m
  if x.starting then coast m (endStart m 2 Status.aborted 0 s)
  else if x.st = .run then if ramp then s.modMotor m fun x => { x with ramping := true } else coast m s
  else s

/-- bldc.stop (0x0E05). -/
def execBldcStop (rq : Req) (s : State) : Out :=
  let mask := rq.u8 0
  command 0x0E05 rq [(1 < rq.u8 1, Status.badValue)]
    (fun s => respond rq 0x0E05 Status.ok []
      (((List.range 8).filter fun m => mask.testBit m).foldl (fun s m => stopMotor m (rq.u8 1 = 1) s) s)) s

/-- The number of a motor state in bldc.status. -/
def MotorState.num : MotorState → Nat
  | .stopped => 0 | .listen => 1 | .brake => 2 | .align => 3 | .ramp => 4 | .run => 5 | .coast => 6 | .busBrake => 7
  | .failed => 8

/-- bldc.status (0x0E06). -/
def execBldcStatus (rq : Req) (s : State) : Out :=
  let m := rq.u8 0
  let x := s.motor m
  let b := busOf s m
  command 0x0E06 rq [(8 ≤ m, Status.outOfRange)]
    (fun s => respond rq 0x0E06 Status.ok
      (leBytes 1 x.st.num ++ leBytes 1 (ofBits [x.limited, motorFactor s m < 1024, x.pinLost, b.chopper]) ++
       leBytes 2 x.rpm ++ leBytes 2 (x.inForce / ticksPerSecond) ++ leBytes 1 x.duty ++ zeros 1 ++ leBytes 2 b.volts ++ zeros 2 ++
       x.syncLosses.bytes ++ x.startFails.bytes ++ x.busBrakes.bytes ++ leBytes 8 x.commutations.toNat) s) s

/-- bldc.raw (0x0E80). -/
def execBldcRaw (rq : Req) (s : State) : Out :=
  let m := rq.u8 0
  command 0x0E80 rq
    [(8 ≤ m, Status.outOfRange),
     (rq.u8 1 < 1 || 8 < rq.u8 1 || 30 < rq.u8 2 || rq.u8 3 < 1 || 32 < rq.u8 3 || rq.u16 4 < 50 || 5000 < rq.u16 4 ||
      rq.u16 6 < 20 || 2000 < rq.u16 6, Status.badValue)]
    (fun s => respond rq 0x0E80 Status.ok []
      (s.modMotor m fun x => { x with rawNext := some (rq.u8 1, rq.u8 2, rq.u8 3, rq.u16 4, rq.u16 6) })) s

end Sys2Proof.Machine
end

