-- ==== Sys2Proof/Machine/Deflate.lean ====
section
/-!
DEFINITION. DEFLATE (R354, R358): the decoder of RFC 1951 streams, and the output of the compressor. Where RFC 1951 leaves
open which code-length sets are invalid, log entry 89 says what the model takes.
-/
namespace Sys2Proof

/-! ### Bits and codes -/

/-- How a stream ended (R358): its final block, an error, its input, or its output limit. -/
inductive StreamEnd where
  | done | bad | truncated | limit
  deriving DecidableEq, Repr

/-- The bits of some bytes, the least significant of each first. -/
def bitsOf (l : List Byte) : List Bool := l.flatMap fun b => (List.range 8).map fun k => b.getLsbD k

/-- A number of `n` bits, the least significant first; none where the input ends. -/
def takeBits : Nat → List Bool → Option (Nat × List Bool)
  | 0, bs => some (0, bs)
  | _ + 1, [] => none
  | n + 1, b :: bs => (takeBits n bs).map fun r => (bit b + 2 * r.1, r.2)

/-- A canonical prefix code: how many symbols have codes of 1 to 15 bits, and the symbols by code. -/
structure PrefixCode where
  counts : List Nat
  syms   : List Nat
  deriving DecidableEq, Repr

/-- The symbols with codes of `n` bits. -/
def symbolsOf (lens : List Nat) (n : Nat) : List Nat := (List.range lens.length).filter fun k => at' lens k 0 = n

/-- The code with some code lengths by symbol. -/
def prefixCode (lens : List Nat) : PrefixCode :=
  let by' := (List.range 15).map fun k => symbolsOf lens (k + 1)
  { counts := by'.map List.length, syms := by'.flatten }

/-- The share of the code space that some code lengths take, in 2^-15. -/
def codeSpace (lens : List Nat) : Nat := (lens.map fun n => if n = 0 then 0 else 2 ^ (15 - n)).sum

/-- A set of code lengths is complete, or has no code but one of a single bit. -/
def codeSetOk (lens : List Nat) : Bool :=
  codeSpace lens = 2 ^ 15 || ((lens.filter (· ≠ 0)).length ≤ 1 && lens.all (· ≤ 1))

/-- A symbol is decoded bit by bit: `code` so far, the first code of its length, and the symbols before it. -/
def takeSymbol (syms : List Nat) : List Nat → Nat → Nat → Nat → List Bool → Except StreamEnd (Nat × List Bool)
  | [], _, _, _, _ => .error .bad
  | _ :: _, _, _, _, [] => .error .truncated
  | c :: cs, code, first, before, b :: bs =>
    let code := code + bit b
    if code < first + c then .ok (at' syms (before + (code - first)) 0, bs)
    else takeSymbol syms cs (2 * code) (2 * (first + c)) (before + c) bs

def PrefixCode.take (p : PrefixCode) (bs : List Bool) : Except StreamEnd (Nat × List Bool) :=
  takeSymbol p.syms p.counts 0 0 0 bs

/-! ### Blocks -/

/-- A stream in decoding: the output, newest byte first, and the input left. -/
structure Inflating where
  out  : List Byte
  bits : List Bool
  deriving DecidableEq, Repr

/-- A step of decoding: it goes on, or ends. -/
abbrev InflateStep := Except (StreamEnd × Inflating) Inflating

/-- Base and extra bits of the length symbols 257 to 285. -/
def lengthBase : List Nat :=
  [3, 4, 5, 6, 7, 8, 9, 10, 11, 13, 15, 17, 19, 23, 27, 31] ++ [35, 43, 51, 59, 67, 83, 99, 115, 131, 163, 195, 227, 258]
def lengthExtra : List Nat :=
  [0, 0, 0, 0, 0, 0, 0, 0, 1, 1, 1, 1, 2, 2, 2, 2] ++ [3, 3, 3, 3, 4, 4, 4, 4, 5, 5, 5, 5, 0]

/-- Base and extra bits of the distance symbols 0 to 29. -/
def distBase : List Nat :=
  [1, 2, 3, 4, 5, 7, 9, 13, 17, 25, 33, 49, 65, 97, 129, 193] ++
  [257, 385, 513, 769, 1025, 1537, 2049, 3073, 4097, 6145, 8193, 12289, 16385, 24577]
def distExtra (k : Nat) : Nat := k / 2 - 1

/-- Bytes are copied from `d` bytes back while the limit leaves room: the output, and whether all were copied. -/
def copyBack (d : Nat) : Nat → Nat → List Byte → List Byte × Bool
  | 0, _, out => (out, true)
  | _ + 1, 0, out => (out, false)
  | n + 1, room + 1, out => copyBack d n room (at' out (d - 1) 0 :: out)

/-- A length and its distance are taken and the bytes copied. A distance before the first byte of the output is an error
(R354). -/
def takeCopy (dist : PrefixCode) (limit sym : Nat) (x : Inflating) : InflateStep :=
  let cut : InflateStep := .error (.truncated, x)
  if 28 < sym then .error (.bad, x)
  else match takeBits (at' lengthExtra sym 0) x.bits with
    | none => cut
    | some (e, bs) => match dist.take bs with
      | .error r => .error (r, x)
      | .ok (k, bs) =>
        if 29 < k then .error (.bad, x)
        else match takeBits (distExtra k) bs with
          | none => cut
          | some (f, bs) =>
            let d := at' distBase k 0 + f
            if x.out.length < d then .error (.bad, x)
            else
              let r := copyBack d (at' lengthBase sym 0 + e) (limit - x.out.length) x.out
              if r.2 then .ok ⟨r.1, bs⟩ else .error (.limit, ⟨r.1, bs⟩)

/-- The symbols of a block up to its end (with `fuel` above the number of input bits). -/
def takeSymbols (lit dist : PrefixCode) (limit : Nat) : Nat → Inflating → InflateStep
  | 0, x => .error (.truncated, x)
  | fuel + 1, x =>
    match lit.take x.bits with
    | .error r => .error (r, x)
    | .ok (sym, bs) =>
      if sym < 256 then
        if x.out.length < limit then takeSymbols lit dist limit fuel ⟨BitVec.ofNat 8 sym :: x.out, bs⟩
        else .error (.limit, ⟨x.out, bs⟩)
      else if sym = 256 then .ok ⟨x.out, bs⟩
      else match takeCopy dist limit (sym - 257) ⟨x.out, bs⟩ with
        | .ok x => takeSymbols lit dist limit fuel x
        | .error e => .error e

/-- A stored block's bytes. -/
def takeStored (limit : Nat) : Nat → Inflating → InflateStep
  | 0, x => .ok x
  | n + 1, x =>
    match takeBits 8 x.bits with
    | none => .error (.truncated, x)
    | some (b, bs) =>
      if x.out.length < limit then takeStored limit n ⟨BitVec.ofNat 8 b :: x.out, bs⟩ else .error (.limit, ⟨x.out, bs⟩)

/-- A stored block: it begins at a byte, and LEN and NLEN agree (R358). -/
def storedBlock (limit : Nat) (x : Inflating) : InflateStep :=
  let bs := x.bits.drop (x.bits.length % 8)
  match takeBits 16 bs with
  | none => .error (.truncated, x)
  | some (len, bs) => match takeBits 16 bs with
    | none => .error (.truncated, x)
    | some (nlen, bs) => if len + nlen = 65535 then takeStored limit len ⟨x.out, bs⟩ else .error (.bad, x)

/-- Code lengths of the fixed codes. -/
def fixedLengths : List Nat :=
  List.replicate 144 8 ++ List.replicate 112 9 ++ List.replicate 24 7 ++ List.replicate 8 8

/-- The order of the lengths of the code-length code. -/
def lengthOrder : List Nat := [16, 17, 18, 0, 8, 7, 9, 6, 10, 5, 11, 4, 12, 3, 13, 2, 14, 1, 15]

/-- `n` numbers of 3 bits. -/
def takeTriples : Nat → List Bool → Option (List Nat × List Bool)
  | 0, bs => some ([], bs)
  | n + 1, bs => (takeBits 3 bs).bind fun r => (takeTriples n r.2).map fun t => (r.1 :: t.1, t.2)

/-- `want` code lengths, of which `lens` have been taken: symbol 16 repeats the last, 17 and 18 repeat 0. -/
def takeLengths (code : PrefixCode) (want : Nat) : Nat → List Nat → List Bool → Except StreamEnd (List Nat × List Bool)
  | 0, _, _ => .error .truncated
  | fuel + 1, lens, bs =>
    if lens.length = want then .ok (lens, bs)
    else if want < lens.length then .error .bad
    else match code.take bs with
      | .error r => .error r
      | .ok (sym, bs) =>
        if sym < 16 then takeLengths code want fuel (lens ++ [sym]) bs
        else if sym = 16 ∧ lens = [] then .error .bad
        else
          let wide := if sym = 16 then 2 else if sym = 17 then 3 else 7
          let base := if sym = 18 then 11 else 3
          match takeBits wide bs with
          | none => .error .truncated
          | some (n, bs) =>
            takeLengths code want fuel (lens ++ List.replicate (base + n) (if sym = 16 then lens.getLastD 0 else 0)) bs

/-- A dynamic block's codes. -/
def takeCodes (bs : List Bool) : Except StreamEnd (PrefixCode × PrefixCode × List Bool) :=
  match takeBits 14 bs with
  | none => .error .truncated
  | some (h, bs) =>
    let nlit := h % 32 + 257
    let ndist := h / 32 % 32 + 1
    if 286 < nlit ∨ 30 < ndist then .error .bad
    else match takeTriples (h / 1024 + 4) bs with
      | none => .error .truncated
      | some (cl, bs) =>
        let clens := (List.range 19).map fun s => ((lengthOrder.findIdx? (· = s)).map fun i => at' cl i 0).getD 0
        if codeSpace clens ≠ 2 ^ 15 then .error .bad
        else match takeLengths (prefixCode clens) (nlit + ndist) (nlit + ndist + 1) [] bs with
          | .error r => .error r
          | .ok (lens, bs) =>
            let lit := lens.take nlit
            let dist := lens.drop nlit
            if at' lit 256 0 = 0 || !codeSetOk lit || !codeSetOk dist then .error .bad
            else .ok (prefixCode lit, prefixCode dist, bs)

/-- A block of a type. -/
def takeBlock (kind limit : Nat) (x : Inflating) : InflateStep :=
  if kind = 0 then storedBlock limit x
  else if kind = 1 then
    takeSymbols (prefixCode fixedLengths) (prefixCode (List.replicate 30 5)) limit (x.bits.length + 1) x
  else if kind = 2 then
    match takeCodes x.bits with
    | .error r => .error (r, x)
    | .ok (lit, dist, bs) => takeSymbols lit dist limit (bs.length + 1) ⟨x.out, bs⟩
  else .error (.bad, x)

/-- What a stream decodes to: how it ended, its output, the type and output length of each block, and whether whole input
bytes are left. -/
structure Inflated where
  ending   : StreamEnd
  output   : List Byte
  blocks   : List (Nat × Nat)
  trailing : Bool
  deriving DecidableEq, Repr

/-- Blocks up to the final one. -/
def inflateBlocks (limit : Nat) : Nat → List (Nat × Nat) → Inflating → Inflated
  | 0, bl, x => { ending := .truncated, output := x.out.reverse, blocks := bl, trailing := false }
  | fuel + 1, bl, x =>
    let stop (r : StreamEnd) (x : Inflating) (bl : List (Nat × Nat)) : Inflated :=
      { ending := r, output := x.out.reverse, blocks := bl, trailing := r = .done && 8 ≤ x.bits.length }
    match takeBits 3 x.bits with
    | none => stop .truncated x bl
    | some (h, bs) =>
      match takeBlock (h / 2) limit ⟨x.out, bs⟩ with
      | .error e => stop e.1 e.2 bl
      | .ok y =>
        let bl := bl ++ [(h / 2, y.out.length - x.out.length)]
        if h % 2 = 1 then stop .done y bl else inflateBlocks limit fuel bl y

/-- A raw DEFLATE stream decompressed to at most `limit` bytes (R354, R358). -/
def inflate (limit : Nat) (l : List Byte) : Inflated :=
  let bs := bitsOf l
  inflateBlocks limit (bs.length + 1) [] ⟨[], bs⟩

/-! ### Compression (R354, R355) -/

/-- The lengths of the blocks of an input: one per 32 KiB. -/
def chunkSizes (n : Nat) : List Nat :=
  List.replicate (n / 32768) 32768 ++ if n % 32768 = 0 then [] else [n % 32768]

/-- A stream that R354 allows for an input: it decodes to the input, in dynamic blocks of 32 KiB of input each, with
nothing after the last. -/
def compressedOk (input out : List Byte) : Bool :=
  let r := inflate input.length out
  r.ending = .done && r.output = input && !r.trailing && r.blocks = (chunkSizes input.length).map fun n => (2, n)

/-- A number as `n` bits of a code, the most significant first. -/
def codeBits (n v : Nat) : List Bool := (List.range n).map fun k => v.testBit (n - 1 - k)

/-- A number as `n` bits, the least significant first. -/
def plainBits (n v : Nat) : List Bool := (List.range n).map fun k => v.testBit k

/-- A dynamic block of literals: 255 codes of 8 bits and, for byte 255 and the end, two of 9. -/
def literalBlock (last : Bool) (l : List Byte) : List Bool :=
  plainBits 3 (bit last + 4) ++ plainBits 14 (3 * 1024) ++ [0, 0, 0, 2, 1, 0, 2].flatMap (plainBits 3) ++
  List.replicate 255 false ++ codeBits 2 3 ++ codeBits 2 3 ++ codeBits 2 2 ++
  (l.flatMap fun b => if b.toNat < 255 then codeBits 8 b.toNat else codeBits 9 510) ++ codeBits 9 511

/-- Bits packed into bytes. -/
def packBits : List Bool → List Byte
  | a :: b :: c :: d :: e :: f :: g :: h :: l => BitVec.ofNat 8 (ofBits [a, b, c, d, e, f, g, h]) :: packBits l
  | [] => []
  | l => [BitVec.ofNat 8 (ofBits l)]

/-- A stream of literal blocks. -/
def literalStream (input : List Byte) : List Byte :=
  let n := (chunkSizes input.length).length
  packBits ((List.range n).flatMap fun k => literalBlock (k + 1 = n) ((input.drop (32768 * k)).take 32768))

/-- The output of a compression (R354): for an input and a depth of search always the same bytes. Which bytes is open: the
free value of Config where R354 allows it, and otherwise a stream of literals (log entry 18). -/
def deflate (input : List Byte) (chain : Nat) : List Byte :=
  let out := Config.deflated input chain
  if compressedOk input out then out else literalStream input

end Sys2Proof
end

