-- ==== Sys2Proof/Machine/FabricOps.lean ====
section
/-!
DEFINITION. The fabric's budgets (R27, R29, R342 to R344): windows of 1,024 fabric cycles, the budgets of classes 0 to 2
and the shares of class 3. The effect of a row presents one request at a time, which is granted as soon as its budget lets
it; requests that wait together in a DRAM channel are granted in the order of R29 (log entry 19).
-/
namespace Sys2Proof.Machine

open Sys2Proof

/-- The window a device time lies in: 1,024 cycles of 1.2 GHz at 1.6 GHz, the first from device time 0 (R29, R32; log entry
91). -/
def windowOf (t : Nat) : Nat := t * 3 / 4096

/-- The first tick of a window. -/
def windowStart (k : Nat) : Nat := (k * 4096 + 2) / 3

/-- A new window: every budget is renewed, and settings of dma.channel.raw take effect (R29, R342). -/
def renewBudgets (s : State) : State :=
  let chs := s.dma.channels.map fun ch => { ch with grants := ch.grantsNext.getD ch.grants, grantsNext := none }
  { s with dma := { s.dma with
    channels := chs, classLeft := [51, 409, 256], window := windowOf s.time.toNat,
    left := chs.map (·.grants) ++ (s.dma.engines.map fun e => 4 * e.share) ++ [32] } }

/-- The budgets of the window that device time lies in. -/
def inWindow (s : State) : State := if s.dma.window = windowOf s.time.toNat then s else renewBudgets s

/-- Time passes to a later window. -/
def toWindow (k : Nat) (s : State) : State := inWindow (s.advanceTo (windowStart k))

/-- A grant of at most 64 bytes in class 0, 1 or 2: it waits for the next window where the class has used its budget
(R29). -/
def classGrant (c : Nat) (s : State) : State :=
  let s := inWindow s
  let s := if at' s.dma.classLeft c 1 = 0 then toWindow (s.dma.window + 1) s else s
  { s with dma := { s.dma with classLeft := modAt s.dma.classLeft c (· - 1) } }

/-- Grants for `n` bytes in a class. -/
def classGrants (c n : Nat) (s : State) : State := (List.range ((n + 63) / 64)).foldl (fun s _ => classGrant c s) s

/-- Grants per window of a class 3 requester (R342): channels 0 to 31, engines 0 to 3, host access through BAR2. -/
def grantsOf (s : State) (i : Nat) : Nat :=
  if i < 32 then (at' s.dma.channels i {}).grants else if i < 36 then 4 * (at' s.dma.engines (i - 32) {}).share else 32

/-- The budget of a class 3 requester in the window under way changes: what it has spent of the window stays spent (R342). -/
def newShare (i grants : Nat) (s : State) : State :=
  let s := inWindow s
  let spent := grantsOf s i - at' s.dma.left i 0
  { s with dma := { s.dma with left := modAt s.dma.left i fun _ => grants - spent } }

/-- The fabric class of a DRAM requester (R27): the supervisor core 0, the units that move data 3, the other cores 4. -/
def requesterClass (r : Nat) : Nat := if r = 9 then 0 else if r ≤ 8 then 4 else 3

/-- The order in which the arbiter grants requests that are presented together (R29): the highest class first, and within a
class one of each source in turn, from the source after the last that was granted. -/
def arbitrate (last : Nat) (rs : List DramReq) : List DramReq :=
  let key (seen : List DramReq) (r : DramReq) : Nat :=
    requesterClass r.requester * 2 ^ 16 + (seen.countP fun q => q.requester = r.requester) * 64 + (r.requester + 63 - last) % 64
  let keyed := (rs.foldl (fun (a : List DramReq × List (Nat × DramReq)) r => (r :: a.1, a.2 ++ [(key a.1 r, r)])) ([], [])).2
  (keyed.foldl (fun l p => ins p l) []).map (·.2)
where
  ins (p : Nat × DramReq) : List (Nat × DramReq) → List (Nat × DramReq)
    | [] => [p]
    | q :: l => if p.1 < q.1 then p :: q :: l else q :: ins p l

/-- The grants that `n` bytes of a class 3 requester take: once its budget is spent, it waits for the next window (R29,
R342, R344). A channel keeps its longest wait: that of the first request, or of one that follows a whole budget. -/
def spend (i n : Nat) (s : State) : State :=
  let s := inWindow s
  let g := (n + 63) / 64
  let l := at' s.dma.left i 0
  let b := grantsOf s i
  if g ≤ l || b = 0 then { s with dma := { s.dma with left := modAt s.dma.left i (· - g) } }
  else
    let w := (g - l + b - 1) / b
    let first := (windowStart (s.dma.window + 1) - s.time.toNat) * 5 / 8
    let wait := if w = 1 then first else max first ((1024 - b) * 5 / 6)
    let s := toWindow (s.dma.window + w) s
    let longest (ch : Channel) : Channel := { ch with maxWait := BitVec.ofNat 32 (max ch.maxWait.toNat wait) }
    { s with dma := { s.dma with
      left := modAt s.dma.left i fun _ => b - (g - l - (w - 1) * b), channels := modAt s.dma.channels i longest } }

end Sys2Proof.Machine
end

