-- ==== Sys2Proof/Machine/Dram.lean ====
section
/-!
DEFINITION. DRAM (spec/13_dram_ecc.md): the address map, SECDED, the merge buffer, scheduling, refresh, row-disturbance
protection, patrol scrub, and the DRAM commands of group 0x0B.
-/
namespace Sys2Proof.Machine

open Sys2Proof

/-! ### Address map (R317, R318) -/

/-- Number of channels. -/
def DramCfg.nChannels (c : DramCfg) : Nat := if c.channels = 0x0F then 4 else if c.channels = 0x03 then 2 else 0

/-- Rows per bank (R318). -/
def DramCfg.rows (c : DramCfg) : Nat := if c.density = 8 then 32768 else if c.density = 12 then 49152 else 65536

/-- Where a DRAM address lies (R318). -/
structure Cellpos where
  channel : Nat
  rank    : Nat
  bank    : Nat
  row     : Nat
  col     : Nat
  check   : Nat
  deriving DecidableEq, Repr

def DramCfg.decode (c : DramCfg) (a : Nat) : Cellpos :=
  let n := c.nChannels
  let o := a / (256 * n) * 256 + a % 256
  let r := o / 1792
  { channel := a / 256 % n, rank := r / (16 * c.rows), bank := r % 16, row := r / 16 % c.rows, col := o % 1792,
    check := 1792 + o % 1792 / 8 }

/-- WHERE of a log entry (R337). -/
def Cellpos.place (p : Cellpos) : Nat := p.channel % 4 * 64 + p.rank % 2 * 32 + p.bank % 16

/-- tRFCab in ns (R316). -/
def DramCfg.trfc (c : DramCfg) : Nat := if c.trfcNs = 0 then (if c.density = 8 then 210 else 280) else c.trfcNs

/-- The values that R316 gives for the configuration record. -/
def DramCfg.ok (c : DramCfg) : Bool :=
  (c.channels = 3 || c.channels = 0x0F) && (c.ranks = 1 || c.ranks = 2) &&
  (c.density = 8 || c.density = 12 || c.density = 16) && c.rate ≤ 1 &&
  (c.trfcNs = 0 || (130 ≤ c.trfcNs && c.trfcNs ≤ 500)) && c.hours ≤ 168

/-- The configuration record of R316. -/
def dramCfgOf (b : List Byte) : DramCfg :=
  let f := fun (o n : Nat) => ofLe ((b.drop o).take n)
  { channels := f 0 1, ranks := f 1 1, density := f 2 1, rate := f 3 1, trfcNs := f 4 2, hours := f 6 2,
    skew := BitVec.ofNat 32 (f 8 4) }

/-! ### Row counters and throttles (R331, R332) -/

/-- The index of the lowest count, the lowest index between equals. -/
def lowestCount : List (Nat × Nat) → Nat × Nat
  | [] => (0, 0)
  | [p] => (0, p.2)
  | p :: q :: rest =>
    let r := lowestCount (q :: rest)
    if r.2 < p.2 then (r.1 + 1, r.2) else (0, p.2)

/-- The counters of a bank after an activation of a row, and the row's count (R331). An entry not yet taken counts 0. -/
def countRow (rows : List (Nat × Nat)) (row : Nat) : List (Nat × Nat) × Nat :=
  match rows.find? fun p => p.1 = row with
  | some p => (rows.map fun q => if q.1 = row then (row, q.2 + 1) else q, p.2 + 1)
  | none =>
    if rows.length < 256 then (rows ++ [(row, 1)], 1)
    else
      let l := lowestCount rows
      (modAt rows l.1 fun _ => (row, l.2 + 1), l.2 + 1)

/-- A requester is throttled on a bank. -/
def throttleOf (s : State) (p : Cellpos) (requester : Nat) : Option Throttle :=
  s.dram.throttled.find? fun t => t.channel = p.channel && t.rank = p.rank && t.bank = p.bank && t.requester = requester

/-- The row of a position is open. -/
def rowOpen (s : State) (p : Cellpos) : Bool := s.dram.openRows.contains (p.channel, p.rank, p.bank, p.row)

/-- A row is activated by a requester (R331 to R333). -/
def activate (p : Cellpos) (requester : Nat) (s : State) : State :=
  let here := fun (t : RowTable) => t.channel = p.channel && t.rank = p.rank && t.bank = p.bank
  let old := ((s.dram.tables.find? here).map (·.rows)).getD []
  let r := countRow old p.row
  let table : RowTable := { channel := p.channel, rank := p.rank, bank := p.bank, rows := r.1 }
  let s := { s with dram := { s.dram with
    tables := table :: s.dram.tables.filter (fun t => !here t),
    openRows := (p.channel, p.rank, p.bank, p.row) ::
      s.dram.openRows.filter fun o => !(o.1 = p.channel && o.2.1 = p.rank && o.2.2.1 = p.bank),
    throttled := s.dram.throttled.map fun t =>
      if t.channel = p.channel && t.rank = p.rank && t.bank = p.bank && t.requester = requester then { t with last := s.time }
      else t } }
  if r.2 ≤ 4000 || (throttleOf s p requester).isSome then s
  else
    let t : Throttle := { channel := p.channel, rank := p.rank, bank := p.bank, requester := requester, last := s.time }
    let e : RowLogEntry := { time := s.time, channel := p.channel, rank := p.rank, bank := p.bank, requester := requester, row := p.row }
    let full := 32 ≤ s.dram.rowLog.length
    present 0x0167 none 0 { s with dram := { s.dram with
      throttled := t :: s.dram.throttled, throttles := s.dram.throttles.inc,
      rowLog := if full then s.dram.rowLog else s.dram.rowLog ++ [e],
      rowOver := if full then s.dram.rowOver.inc else s.dram.rowOver } }

/-! ### Refresh (R327, R328) -/

/-- A refresh of a channel is due. -/
def refreshDue (s : State) (channel : Nat) : Bool := (at' s.dram.refreshAt channel 0).toNat + 3120 ≤ s.time.toNat

/-- The refreshes of a channel run, one every 1.95 µs, up to the last that is due (R327, R328): REFab of all ranks; nothing
else runs for tRFCab, every row of the channel closes, and a WCK2DQ adjustment that waits is applied (R314). -/
def refresh (channel : Nat) (s : State) : State :=
  let last := (at' s.dram.refreshAt channel 0).toNat
  let t := last + max 1 ((s.time.toNat - last) / 3120) * 3120
  { s with dram := { s.dram with
    refreshEnd := modAt s.dram.refreshEnd channel fun _ => BitVec.ofNat 64 (t + ceilDiv (s.dram.cfg.trfc * 8) 5),
    refreshAt := modAt s.dram.refreshAt channel fun _ => BitVec.ofNat 64 t,
    openRows := s.dram.openRows.filter fun o => o.1 ≠ channel,
    wckWaits := modAt s.dram.wckWaits channel fun _ => false } }

/-- The row counters of the window that device time lies in: a new one clears them and ends throttles (R331, R332). -/
def inRowWindow (s : State) : State :=
  let w := s.time.toNat / 51200000
  if s.dram.rowWindow = w then s else { s with dram := { s.dram with tables := [], throttled := [], rowWindow := w } }

/-- A channel is ready for a request: after a refresh that is due or in progress (R327, R328). -/
def settleChannel (channel : Nat) (s : State) : State :=
  let s := if refreshDue s channel then refresh channel s else s
  inRowWindow (s.advanceTo (at' s.dram.refreshEnd channel 0).toNat)

/-- The row of an address is opened for a requester where it is closed, 250 ns after the last activation of one that is
throttled on the bank (R331, R332). -/
def openRow (requester a : Nat) (s : State) : State :=
  let p := s.dram.cfg.decode a
  let s := settleChannel p.channel s
  if rowOpen s p then s
  else match throttleOf s p requester with
    | some t => activate p requester (settleChannel p.channel (s.advanceTo (t.last.toNat + 400)))
    | none => activate p requester s

/-! ### SECDED (R319 to R322) -/

/-- The check byte of a data word, at `check` of its place (R318, R319): the code of the word, XORed with 0x03 where the word
is poisoned (R325). Bytes 2,016 to 2,047 of a row are zero. -/
def Dram.checkByte (d : Dram) (w : Nat) : BitVec 8 :=
  Config.secded (BitVec.ofNat 64 (ofLe (cellsGet 0 d.mem w 8))) ^^^ (if d.poison.contains w then 3 else 0)

/-- Bits of a word that a read finds wrong: 2 for a poisoned word. -/
def Dram.wrong (d : Dram) (w upset : Nat) : Nat :=
  upset + ((d.errs.find? fun p => p.1 = w).map (·.2)).getD 0 + (if d.poison.contains w then 2 else 0)

/-- LAST_UNCORR of a word (R337): the second form for a poisoned word or the patrol scrub. -/
def lastUncorrOf (s : State) (w requester : Nat) : BitVec 64 :=
  let p := s.dram.cfg.decode w
  if s.dram.poison.contains w || requester = 58 then
    BitVec.ofNat 64 (2 ^ 63 + p.place * 2 ^ 32 + p.col / 8 * 2 ^ 24 + p.row % 2 ^ 24)
  else BitVec.ofNat 64 (w % 2 ^ 48)

/-- A core is stopped and held in reset until the next device reset (R21, R322). -/
def stopCore (core : Nat) (s : State) : State :=
  if s.held.getLsbD core then s
  else presentFw (0x0280 + core) (some core) 0 { s with held := s.held ||| (1#9 <<< core) }

/-- An uncorrectable word is counted, recorded and raised, and acts by its reader (R322): core 0 to 8 is stopped; the
read of core 9 raises class FATAL. Nobody is told of a read-modify-write (R325). -/
def dramUncorrectable (told : Bool) (w requester : Nat) (s : State) : State :=
  let last := lastUncorrOf s w requester
  let s := { s with dram := { s.dram with
    uncorr := s.dram.uncorr.inc, lastUncorr := last,
    errs := if s.dram.poison.contains w then s.dram.errs else (w, 2) :: s.dram.errs.filter fun p => p.1 ≠ w } }
  let s := if told && requester = 9 then presentFatal 0x0165 (some 9) 0 s else present 0x0165 (some requester) 0 s
  if told && requester ≤ 8 then stopCore requester s else s

/-- A word of an entry: valid in no byte, in some, or in all. -/
def MergeEntry.wordMask (e : MergeEntry) (k : Nat) : Nat := (e.valid >>> (8 * k)).toNat % 256

/-- A newer write to the word is held in the merge buffer or queued, so its write-back is dropped (R321). -/
def newerWrite (s : State) (w : Nat) : Bool :=
  (s.dram.merge.any fun e => e.block = w / 64 && e.wordMask (w % 64 / 8) ≠ 0) ||
  s.dram.queues.any fun q => q.any fun r =>
    r.req.data.isSome && r.req.addr < w + 8 && w < r.req.addr + (r.req.data.getD []).length

/-- A corrected word is counted, logged and raised, and written back unless a newer write is on its way, when its cells keep
the error (R321, R337). -/
def dramCorrected (w requester : Nat) (s : State) : State :=
  let p := s.dram.cfg.decode w
  let e : DramEcc := { time := s.time, row := p.row, channel := p.channel, rank := p.rank, bank := p.bank,
                       word := p.col / 8, syndrome := Config.syndrome s.free, requester := requester }
  let full := 32 ≤ s.dram.log.length
  let keep := newerWrite s w
  present 0x0164 none 0 { s with free := s.free + 1, dram := { s.dram with
    corrected := s.dram.corrected.inc, log := if full then s.dram.log else s.dram.log ++ [e],
    logOver := if full then s.dram.logOver.inc else s.dram.logOver,
    errs := (if keep then [(w, 1)] else []) ++ s.dram.errs.filter fun q => q.1 ≠ w } }

/-- One word is read and checked (R319): whether it is good, and the state after. -/
def checkWord (told : Bool) (requester w upset : Nat) (s : State) : Bool × State :=
  let s := openRow requester w s
  let n := s.dram.wrong w upset
  if n = 0 then (true, s) else if n = 1 then (true, dramCorrected w requester s)
  else (false, dramUncorrectable told w requester s)

/-- The words of [a, a + n) are read in order until one is uncorrectable: the bytes before it, and the state after. `upset`
is the bits that the cells of the first word have lost since it was written. -/
def checkWords (requester : Nat) : Nat → Nat → Nat → State → Option Nat × State
  | 0, _, _, s => (none, s)
  | k + 1, w, upset, s =>
    let r := checkWord true requester w upset s
    if r.1 then checkWords requester k (w + 8) 0 r.2 else (some w, r.2)

/-! ### The merge buffer (R323 to R325) -/

/-- The bytes of a write that fall in a block, laid over an entry. -/
def overlay (e : MergeEntry) (a : Nat) (bs : List Byte) : MergeEntry :=
  (List.range bs.length).foldl (fun e k =>
    if (a + k) / 64 = e.block then
      { e with valid := e.valid ||| (1#64 <<< ((a + k) % 64)), bytes := modAt e.bytes ((a + k) % 64) fun _ => at' bs k 0 }
    else e) e

def MergeEntry.complete (e : MergeEntry) : Bool := (List.range 8).all fun k => e.wordMask k = 0 || e.wordMask k = 255

/-- The cells after an entry's valid bytes are written. -/
def writeValid (m : List Host.Cell) (e : MergeEntry) : List Host.Cell :=
  (List.range 64).foldl (fun m k => if e.valid.getLsbD k then cellSet 0 m (e.block * 64 + k) (at' e.bytes k 0) else m) m

/-- A word of the block that an incomplete entry is merged into (R325): read and corrected, and written whole where the entry
touches it, poisoned if its read was uncorrectable and the entry does not cover it. No requester is told. -/
def rmwWord (e : MergeEntry) (k : Nat) (s : State) : State :=
  let w := e.block * 64 + 8 * k
  let r := checkWord false e.requester w 0 s
  if e.wordMask k = 0 then r.2
  else
    let d := r.2.dram.freshWord w
    if r.1 || e.wordMask k = 255 then { r.2 with dram := d }
    else { r.2 with dram := { d with poison := w :: d.poison, poisoned := d.poisoned.inc } }

/-- A whole word of a complete entry is written with no read (R320, R324). -/
def wholeWord (e : MergeEntry) (s : State) (k : Nat) : State :=
  if e.wordMask k = 0 then s else { s with dram := s.dram.freshWord (e.block * 64 + 8 * k) }

/-- An entry is written out (R324, R325). -/
def writeOut (e : MergeEntry) (s : State) : State :=
  let s := openRow e.requester (e.block * 64) { s with dram := { s.dram with
    merge := s.dram.merge.filter (fun f => f.block ≠ e.block),
    rmw := if e.complete then s.dram.rmw else s.dram.rmw.inc } }
  let s := if e.complete then (List.range 8).foldl (wholeWord e) s else (List.range 8).foldl (fun s k => rmwWord e k s) s
  { s with dram := { s.dram with mem := writeValid s.dram.mem e } }

/-- A partial write enters the merge buffer (R323, R324): it merges into its block's entry or takes a new one, after the
oldest entry has been written out if 32 are in use; a complete entry is written out. -/
def mergeWrite (requester a : Nat) (bs : List Byte) (s : State) : State :=
  let b := a / 64
  let s := if (s.dram.merge.any fun e => e.block = b) || s.dram.merge.length < 32 then s
    else match s.dram.merge with
      | e :: _ => writeOut e s
      | [] => s
  let old := (s.dram.merge.find? fun e => e.block = b).getD
    { block := b, valid := 0, bytes := zeros 64, requester := requester, since := s.time }
  let e := overlay old a bs
  if e.complete then writeOut e s
  else if s.dram.merge.any fun f => f.block = b then
    { s with dram := { s.dram with merge := s.dram.merge.map fun f => if f.block = b then e else f } }
  else { s with dram := { s.dram with merge := s.dram.merge ++ [e] } }

/-- A write of a requester within one 64-byte block: whole words are written at once, anything else merges (R320,
R323). -/
def blockWrite (requester a : Nat) (bs : List Byte) (s : State) : State :=
  if a % 8 = 0 ∧ bs.length % 8 = 0 ∧ !s.dram.merge.any (fun e => e.block = a / 64) then
    let s := openRow requester a s
    { s with dram := s.dram.write a bs }
  else mergeWrite requester a bs s

/-- A write of a requester, block by block. -/
def storeBlocks (requester : Nat) : Nat → Nat → List Byte → State → State
  | 0, _, _, s => s
  | k + 1, a, bs, s =>
    if bs = [] then s
    else
      let n := 64 - a % 64
      storeBlocks requester k (a + n) (bs.drop n) (blockWrite requester a (bs.take n) s)

/-- A read of a block writes its entry out (R324). -/
def flushBlock (b : Nat) (s : State) : State :=
  match s.dram.merge.find? fun e => e.block = b with
  | some e => writeOut e s
  | none => s

/-- The blocks of [a, a + n). -/
def blocksOf (a n : Nat) : List Nat := if n = 0 then [] else (List.range ((a + n - 1) / 64 - a / 64 + 1)).map (a / 64 + ·)

/-- A checked read of [a, a + n) (R319, R322, R324): the bytes that were read before the first uncorrectable word, and the
state after, in which the merge buffer holds no entry of its blocks. -/
def fetchWords (requester a n upset : Nat) (s : State) : List Byte × State :=
  let words := if n = 0 then 0 else (a + n - 1) / 8 - a / 8 + 1
  let r := checkWords requester words (a / 8 * 8) upset s
  let flushed := (blocksOf a n).foldl (fun s b => flushBlock b s) r.2
  match r.1 with
  | none => (s.dramRead a n, flushed)
  | some w => (s.dramRead a (w - a), flushed)

/-- A request is served: its row is opened, then it reads or writes (R317, R319 to R325). -/
def serve (r : DramReq) (s : State) : State :=
  let s := openRow r.requester r.addr s
  match r.data with
  | some bs =>
    let s' := storeBlocks r.requester (bs.length / 64 + 2) r.addr (bs.take (s.dram.cfg.usable - r.addr)) s
    if r.addr + bs.length ≤ s.dram.cfg.usable then s'
    else { s' with dram := { s'.dram with served := some (r.requester, [], false) } }
  | none =>
    let f := fetchWords r.requester r.addr (min r.len (s.dram.cfg.usable - r.addr)) r.upset s
    { f.2 with dram := { f.2.dram with served := some (r.requester, f.1, f.1.length = r.len) } }

/-- The blocks of a request. -/
def requestBlocks (r : DramReq) : List Nat := blocksOf r.addr (match r.data with
  | some bs => bs.length
  | none => r.len)

/-- Requests queued for the blocks of [a, a + n) are served first: requests to one block are never reordered (R326). -/
def drainQueued (a n : Nat) (s : State) : State :=
  let hit (q : DramQ) : Bool := (requestBlocks q.req).any (blocksOf a n).contains
  let qs := s.dram.queues.flatten.filter hit
  qs.foldl (fun s q => serve q.req s)
    { s with dram := { s.dram with queues := s.dram.queues.map fun l => l.filter fun q => !hit q } }

/-- A read by a requester that does not wait in a channel queue (log entry 13), after what is queued for its blocks. -/
def dramFetch (requester a n upset : Nat) (s : State) : List Byte × State :=
  fetchWords requester a n upset (drainQueued a n s)

/-- A write by such a requester. -/
def dramStore (requester a : Nat) (bs : List Byte) (s : State) : State :=
  storeBlocks requester (bs.length / 64 + 2) a bs (drainQueued a bs.length s)

/-- A write of a unit to its buffers, where they lie within the usable capacity. -/
def unitStore (requester a : Nat) (bs : List Byte) (s : State) : State :=
  if a + bs.length ≤ s.dram.cfg.usable then dramStore requester a bs s else s

/-- A firmware core reads a table at an address (R319, R322, R330): one that meets an uncorrectable word stops the core.
The table's bytes are then those of `State.table`. -/
def coreRead (core address n : Nat) (s : State) : State :=
  match s.place address with
  | .dram a room => if s.coreUp core then (dramFetch core a (min n room) 0 s).2 else s
  | _ => s

/-- The host-service core reads what a request names, where it takes the request. -/
def tableRead (code : Nat) (rq : Req) (address n : Nat) (s : State) : State :=
  if served code rq s then coreRead hostCore address n s else s

/-- A table is written by a firmware command to an address in DRAM, BAR2 or host memory; none for a bus error (R341). -/
def putTable (core address : Nat) (bs : List Byte) (s : State) : Option State :=
  match s.place address with
  | .dram a room => if bs.length ≤ room then some (dramStore core a bs s) else none
  | .host a => some { s with dma := { s.dma with toHost := s.dma.toHost ++ [(a, bs)] } }
  | _ => none

/-- MERGE_ENTRY_WRITEOUT (R324): the entry of a block is written out. An entry that is not complete, or not
the oldest of 32, is not written out for that reason; one that ages is 2 µs old (log entry 4). -/
def execMergeEntryWriteout (block : Nat) (reason : MergeWhy) (s : State) : Out :=
  match s.dram.merge.find? fun e => e.block = block with
  | none => .next s
  | some e =>
    let due : Bool := match reason with
      | .complete => e.complete
      | .aged => true
      | .evicted => s.dram.merge.length = 32 && (s.dram.merge.head?.map (·.block)) = some block
      | .read => s.dram.queues.any fun q => q.any fun r => r.req.data.isNone && (requestBlocks r.req).contains block
    let s := if reason = .aged then s.advanceTo (e.since.toNat + 3200) else s
    .next (if due && !s.dram.stopped then writeOut e s else s)

/-! ### Scheduling (R326, R327) -/

/-- The request waits for its throttle: an activation less than 250 ns after the last one (R327, R332). -/
def heldByThrottle (s : State) (q : DramQ) : Bool :=
  let p := s.dram.cfg.decode q.req.addr
  !rowOpen s p && match throttleOf s p q.req.requester with
    | some t => (s.time - t.last).toNat < 400
    | none => false

/-- The requests of a queue that may be issued: not held by a throttle, and not behind one to the same block. -/
def candidates (s : State) : List DramQ → List Nat → List DramQ
  | [], _ => []
  | q :: rest, blocks =>
    let bs := (requestBlocks q.req)
    if heldByThrottle s q || bs.any blocks.contains then candidates s rest (bs ++ blocks)
    else q :: candidates s rest (bs ++ blocks)

/-- The request issued next (R326): any older than 1.5 µs, oldest first; then row hits; then the oldest. -/
def schedule (s : State) (queue : List DramQ) : Option (DramQ × Bool) :=
  let c := candidates s queue []
  match c.find? fun q => 2400 < (s.time - q.time).toNat with
  | some q => some (q, true)
  | none =>
    match c.find? fun q => rowOpen s (s.dram.cfg.decode q.req.addr) with
    | some q => some (q, false)
    | none => c.head?.map fun q => (q, false)

/-- DRAM_REQUEST_ISSUE (R326): the requests that arrive enter the channel's queue while it holds less than 64, one beyond
the usable capacity is answered with a bus error (R317), and the
scheduled one is issued, after a refresh that is due or in progress (R327, R328), or once a throttle lets one pass where it holds them all
(R332; log entry 4). -/
def execDramRequestIssue (channel : Nat) (enter : List DramReq) (s : State) : Out :=
  if s.dram.stopped || s.dram.cfg.nChannels ≤ channel then .next s
  else
    let room (r : DramReq) : Bool := r.addr < s.dram.cfg.usable
    let enter := arbitrate s.dram.grantedLast enter
    let mine := enter.filter fun r => room r && (s.dram.cfg.decode r.addr).channel = channel
    let lost := (enter.filter fun r => !room r).getLast?.map fun r => (r.requester, [], false)
    let s := { s with dram := { s.dram with
      grantedLast := (mine.getLast?.map (·.requester)).getD s.dram.grantedLast,
      queues := modAt s.dram.queues channel fun q => (q ++ mine.map fun r => ({ req := r, time := s.time } : DramQ)).take 64,
      served := if lost.isSome then lost else s.dram.served } }
    let s := settleChannel channel s
    let q := at' s.dram.queues channel []
    let s := if q ≠ [] && q.all (heldByThrottle s) then settleChannel channel (s.advance 400) else s
    match schedule s (at' s.dram.queues channel []) with
      | none => .next s
      | some (q, starved) =>
        let s := { s with dram := { s.dram with
          queues := modAt s.dram.queues channel fun l => l.erase q,
          starved := if starved then s.dram.starved.inc else s.dram.starved } }
        .next (serve q.req s)

/-- DRAM_REFRESH (R328): the refresh 1.95 µs after the one before (log entry 4). -/
def execDramRefresh (channel : Nat) (s : State) : Out :=
  .next <| if s.dram.stopped then s else (refresh channel (s.advanceTo ((at' s.dram.refreshAt channel 0).toNat + 3120)))

/-- DRAM_MR4_READ (R314, R329): the highest code is kept, and a shorter interval asked for raises DR_TEMP. -/
def execDramMr4Read (channel code : Nat) (shorter : Bool) (s : State) : Out :=
  let s := { s with dram := { s.dram with mr4Max := max s.dram.mr4Max (code % 256) } }
  .next (if shorter then present 0x0168 (some channel) 0 s else s)

/-- DRAM_WCK2DQ_READ (R314): the adjustment waits for the next refresh. -/
def execDramWck2dqRead (channel : Nat) (s : State) : Out :=
  .next { s with dram := { s.dram with wckWaits := modAt s.dram.wckWaits channel fun _ => true } }

/-- ROW_WINDOW_START (R331, R332): at a multiple of 51,200,000 ticks the counters are cleared and throttles end (log
entry 4). -/
def execRowWindowStart (s : State) : Out :=
  let s := s.advanceTo (ceilDiv s.time.toNat 51200000 * 51200000)
  .next { s with dram := { s.dram with tables := [], throttled := [], rowWindow := s.time.toNat / 51200000 } }

/-- Raw words that a scrub pass reads: the data words, and the check and unused bytes of each row (R318, R336). -/
def rawWords (s : State) : Nat := s.dram.cfg.usable / 7

/-- DRAM_PATROL_SCRUB_STEP (R322, R336): the next raw word of a pass that spaces them evenly over SCRUB_HOURS (log entry 4).
A data word is checked with its check byte, unless the merge buffer holds its block. A pass ends after the last word, and
the next takes the SCRUB_HOURS set for it. -/
def execDramPatrolScrubStep (upset : Nat) (s : State) : Out :=
  if s.dram.stopped || s.dram.cfg.usable = 0 then .next s
  else
    let n := rawWords s
    let span := s.dram.hours * 3600 * ticksPerSecond
    let s := s.advanceTo (s.dram.scrubFrom.toNat + s.dram.scrubAt * span / n)
    let w := s.dram.scrubAt * 8
    let last := n ≤ s.dram.scrubAt + 1
    let skips := s.dram.cfg.usable ≤ w || s.dram.merge.any fun e => e.block = w / 64
    let s := if skips then s else (checkWord true 58 w upset s).2
    .next { s with dram := { s.dram with
      scrubAt := if last then 0 else s.dram.scrubAt + 1, passes := if last then s.dram.passes + 1 else s.dram.passes,
      scrubFrom := if last then s.dram.scrubFrom + BitVec.ofNat 64 span else s.dram.scrubFrom,
      hours := if last then s.dram.hoursNext.getD s.dram.hours else s.dram.hours,
      hoursNext := if last then none else s.dram.hoursNext } }

/-! ### Commands -/

/-- dram.status (0x0B04). -/
def execDramStatus (rq : Req) (s : State) : Out :=
  let d := s.dram
  command 0x0B04 rq [] (fun s => respond rq 0x0B04 Status.ok
    (leBytes 1 d.cfg.channels ++ leBytes 1 d.cfg.ranks ++ leBytes 1 d.cfg.density ++ leBytes 1 d.cfg.rate ++
     leBytes 4 (d.cfg.usable / 2 ^ 20) ++ d.corrected.bytes ++ d.uncorr.bytes ++ leBytes 8 d.lastUncorr.toNat ++
     d.throttles.bytes ++ d.starved.bytes ++ d.rmw.bytes ++ d.poisoned.bytes ++ leBytes 4 d.passes.toNat ++
     leBytes 1 d.mr4Max ++ zeros 3) s) s

def DramEcc.bytes (e : DramEcc) : List Byte :=
  leBytes 8 e.time.toNat ++ leBytes 4 e.row ++ leBytes 1 (e.channel % 4 * 64 + e.rank % 2 * 32 + e.bank % 16) ++
  leBytes 1 e.word ++ leBytes 1 e.syndrome.toNat ++ leBytes 1 e.requester

def RowLogEntry.bytes (e : RowLogEntry) : List Byte :=
  leBytes 8 e.time.toNat ++ leBytes 1 e.channel ++ leBytes 1 e.rank ++ leBytes 1 e.bank ++ leBytes 1 e.requester ++
  leBytes 4 e.row

/-- dram.ecc.log (0x0B05). -/
def execDramEccLog (rq : Req) (s : State) : Out :=
  command 0x0B05 rq [(1 < rq.u8 0, Status.badValue)]
    (fun s =>
      let es := s.dram.log.take 13
      respond rq 0x0B05 Status.ok (s.dram.logOver.bytes ++ leBytes 1 es.length ++ zeros 3 ++ es.flatMap DramEcc.bytes)
        (if rq.u8 0 = 1 then { s with dram := { s.dram with log := [], logOver := {} } } else s)) s

/-- dram.rowlog (0x0B06, R333). -/
def execDramRowlog (rq : Req) (s : State) : Out :=
  command 0x0B06 rq [(1 < rq.u8 0, Status.badValue)]
    (fun s =>
      let es := s.dram.rowLog.take 13
      respond rq 0x0B06 Status.ok (s.dram.rowOver.bytes ++ leBytes 1 es.length ++ zeros 3 ++ es.flatMap RowLogEntry.bytes)
        (if rq.u8 0 = 1 then { s with dram := { s.dram with rowLog := [], rowOver := {} } } else s)) s

/-- dram.scrub.config (0x0B07): SCRUB_HOURS of the next pass. -/
def execDramScrubConfig (rq : Req) (s : State) : Out :=
  command 0x0B07 rq [(rq.u16 0 < 1 || 168 < rq.u16 0, Status.badValue)]
    (fun s => respond rq 0x0B07 Status.ok [] { s with dram := { s.dram with hoursNext := some (rq.u16 0) } }) s

/-- dram.ecc.inject (0x0B82): the bits flip at the next whole-word write. -/
def execDramEccInject (rq : Req) (s : State) : Out :=
  let a := rq.u64 0
  command 0x0B82 rq
    [(2 ^ 48 ≤ a || a % 8 ≠ 0 || (rq.u8 8 ≠ 1 && rq.u8 8 ≠ 2), Status.badValue), (s.dram.cfg.usable ≤ a, 0x8B02)]
    (fun s => respond rq 0x0B82 Status.ok []
      { s with dram := { s.dram with inject := (a, rq.u8 8) :: s.dram.inject.filter fun p => p.1 ≠ a } }) s

end Sys2Proof.Machine
end

