-- ==== Sys2Proof/Machine/Dma.lean ====
section
/-!
DEFINITION. DMA and compression (spec/14_dma_compression.md): channels, host access through BAR2, DEFLATE jobs, and the
commands of groups 0x0C and 0x0D.
-/
namespace Sys2Proof.Machine

open Sys2Proof

def State.modChannel (s : State) (c : Nat) (f : Channel → Channel) : State :=
  { s with dma := { s.dma with channels := modAt s.dma.channels c f } }

def State.channel (s : State) (c : Nat) : Channel := at' s.dma.channels c {}

def State.modEngine (s : State) (e : Nat) (f : Deflate → Deflate) : State :=
  { s with dma := { s.dma with engines := modAt s.dma.engines e f } }

def State.deflate (s : State) (e : Nat) : Deflate := at' s.dma.engines e {}

/-- A job counts one more RESULT (1 to 7) (R358). -/
def countResult (r : Nat) (d : Deflate) : Deflate :=
  if r = 0 then d else { d with results := modAt d.results (r - 1) Count.inc }

/-! ### Accesses -/

/-- A read by a requester: the bytes it obtained before a bus error, the ERROR it would report, and the state after.
Host memory supplies `hostData` (log entry 17). -/
def fetchFrom (requester address n : Nat) (hostData : List Byte) (s : State) : List Byte × Nat × State :=
  match s.place address with
  | .dram a room =>
    let r := dramFetch requester a (min n room) 0 s
    (r.1, (if r.1.length < min n room then 1 else if room < n then 3 else 0), r.2)
  | .host a =>
    let k := min n (2 ^ 48 - a)
    (hostData.take k, (if hostData.length < k then 1 else if k < n then 3 else 0), s)
  | .tile _ _ => ([], if n = 0 then 0 else 3, s)
  | .invalid => ([], if n = 0 then 0 else 3, s)

/-- A write by a requester: the number of bytes accepted before a bus error, the ERROR, and the state after. A tile is
written by the firmware's channels 28 to 31 alone, while a fill of it is open (R307, R339, R341, R345). -/
def storeTo (requester address : Nat) (bs : List Byte) (s : State) : Nat × Nat × State :=
  match s.place address with
  | .dram a room =>
    let k := min bs.length room
    (k, (if room < bs.length then 3 else 0), dramStore requester a (bs.take k) s)
  | .host a =>
    let k := min bs.length (2 ^ 48 - a)
    (k, (if k < bs.length then 3 else 0),
     if k = 0 then s else { s with dma := { s.dma with toHost := s.dma.toHost ++ [(a, bs.take k)] } })
  | .tile h o =>
    let k := min bs.length (16384 - o)
    if bs = [] then (0, 0, s)
    else if requester < 44 || 48 ≤ requester then (0, 3, s)
    else if (s.tile h).fill.isNone then (0, 2, s)
    else (k, (if k < bs.length then 3 else 0), writeFill h o (bs.take k) s)
  | .invalid => (0, if bs = [] then 0 else 3, s)

/-- A DRAM range whose content is undefined holds free bytes. -/
def scramble (requester address n : Nat) (s : State) : State :=
  match s.place address with
  | .dram a room => dramStore requester a (freeBytes s.free (min n room)) { s with free := s.free + n }
  | _ => s

/-! ### Channels (R345 to R353) -/

/-- The address of ring entry `i`. -/
def Channel.entry (c : Channel) (i : Nat) : Nat := c.ring + 32 * i

/-- Bytes written into the current descriptor; none for a bus error (R351). -/
def writeDesc (c offset : Nat) (bs : List Byte) (s : State) : Option State :=
  let ch := s.channel c
  let r := storeTo (16 + c) (ch.entry ch.index + offset) bs s
  if r.2.1 = 0 then some (spend c bs.length r.2.2) else none

/-- The channel stops in ERROR (R351). -/
def ringError (c : Nat) (s : State) : State :=
  present 0x0181 (some c) 0 (s.modChannel c fun ch => { ch with st := 3, cur := none })

/-- The interrupt of a channel: its vector and MBX_IRQ_STATUS.DMA (R349); channels 28 to 31 signal none (R345). -/
def dmaSignal (c : Nat) (s : State) : State := if c < 28 then signal (16 + c) s else s

/-- The channel goes on to the next descriptor. -/
def nextDesc (c : Nat) (prev : Option (BitVec 32)) (s : State) : State :=
  s.modChannel c fun ch =>
    { ch with cur := none, prevCrc := prev, index := if ch.ringSize ≤ ch.index + 1 then 0 else ch.index + 1 }

/-- A descriptor ends BAD (R350): ERROR, CRC and STATUS are written in that order and the vector signalled. -/
def badDesc (c err offset : Nat) (irq : Bool) (s : State) : State :=
  match ((writeDesc c 22 (leBytes 1 err) s).bind (writeDesc c 24 (leBytes 4 offset))).bind (writeDesc c 21 (leBytes 1 4)) with
  | none => ringError c s
  | some s =>
    let s := present 0x0180 (some c) 0 (s.modChannel c fun ch => { ch with bad := ch.bad.inc })
    nextDesc c none (if irq then dmaSignal c s else s)

/-- An address leads to DRAM while its controller has stopped: the access waits (R399). -/
def dramWaits (s : State) (address : Nat) : Bool := s.dram.stopped && match s.place address with
  | .dram _ _ => true
  | _ => false

/-- A channel waits for DRAM. -/
def channelWaits (s : State) (c : Nat) : Bool :=
  dramWaits s (s.channel c).ring || (s.channel c).cur.any fun d => dramWaits s d.src || dramWaits s d.dst

/-- DMA_DESCRIPTOR_POLL (R346, R350, R351): the current descriptor is read, again each POLL_US while it is not READY (log
entry 4); READY starts it. The bytes of a descriptor in host memory arrive with the event; none is a bus error. A set
bit of CTRL 7:3 gives ERROR 4, and the Reserved byte 23 is ignored (R17, R350; log entry 90). -/
def execDmaDescriptorPoll (channel : Nat) (hostDesc : Option (List Byte)) (s : State) : Out :=
  let ch := s.channel channel
  if !(ch.st = 1 || ch.st = 2) || ch.cur.isSome || channelWaits s channel then .next s
  else
    let s := if ch.st = 2 then s.advanceTo (ch.pollAt.toNat + ch.pollUs * 1600) else s
    let r := fetchFrom (16 + channel) (ch.entry ch.index) 32 (hostDesc.getD []) s
    let s := spend channel 32 r.2.2
    let b := r.1
    if b.length < 32 then .next (ringError channel s)
    else
      let f := fun (o n : Nat) => ofLe ((b.drop o).take n)
      if f 21 1 ≠ 1 then .next (s.modChannel channel fun ch => { ch with st := 2, pollAt := s.time })
      else
        let ctrl := f 20 1
        let s := s.modChannel channel fun ch => { ch with st := 1 }
        if f 16 4 = 0 || 8 ≤ ctrl then .next (badDesc channel 4 0 (ctrl.testBit 1) s)
        else
          let cont := ctrl.testBit 2
          let crc := match cont, ch.prevCrc with
            | true, some c => c ^^^ 0xFFFFFFFF
            | _, _ => 0xFFFFFFFF
          let d : Desc :=
            { src := f 0 8, dst := f 8 8, length := f 16 4, half := ctrl.testBit 0, done := ctrl.testBit 1, cont := cont,
              moved := 0, crc := crc, status := 1 }
          .next (s.modChannel channel fun ch => { ch with cur := some d })

/-- The address `k` bytes on, where it lies in the space, and in BAR2 in the window, of the first; the end of that otherwise,
which is no valid address (R339 to R341). -/
def advance (address k : Nat) : Nat :=
  let unit := if address / 2 ^ 48 = 2 then 2 ^ 24 else 2 ^ 48
  if address % unit + k < unit then address + k else 2 ^ 64 - 1

/-- The STATUS in memory is the one last written (R350): a change during execution is an error. What host memory holds the
model does not see (log entry 17). -/
def statusKept (s : State) (c : Nat) (d : Desc) : Bool :=
  let ch := s.channel c
  match s.place (ch.entry ch.index) with
  | .dram a _ => (s.dram.byte (a + 21)).toNat = d.status
  | _ => true

/-- Bytes of the descriptor are moved up to `upto`: none if that ends it BAD, with the state after. -/
def moveBytes (c upto : Nat) (hostData : List Byte) (d : Desc) (s : State) : Option Desc × State :=
  if !statusKept s c d then (none, badDesc c 4 d.moved d.done s)
  else
    let n := upto - d.moved
    let r := fetchFrom (16 + c) (advance d.src d.moved) n hostData s
    let w := storeTo (16 + c) (advance d.dst d.moved) r.1 r.2.2
    let s := spend c w.1 (spend c r.1.length w.2.2)
    let s := s.modChannel c fun ch => { ch with bytes := ch.bytes + BitVec.ofNat 64 w.1 }
    if w.2.1 ≠ 0 then (none, badDesc c (if w.2.1 = 3 then 3 else 2) (d.moved + w.1) d.done s)
    else if r.2.1 ≠ 0 then (none, badDesc c r.2.1 (d.moved + r.1.length) d.done s)
    else (some { d with moved := upto, crc := crcRun d.crc r.1 }, s)

/-- The first half of a descriptor is moved, STATUS HALF is written and the vector signalled (R349): the descriptor where
it goes on. -/
def moveHalf (c : Nat) (hostData : List Byte) (d : Desc) (s : State) : Option Desc × State :=
  match moveBytes c (d.length / 2) hostData d s with
  | (none, s) => (none, s)
  | (some d, s) =>
    match writeDesc c 21 (leBytes 1 2) s with
    | none => (none, ringError c s)
    | some s =>
      let d := { d with status := 2 }
      (some d, dmaSignal c (s.modChannel c fun ch => { ch with cur := some d }))

/-- HALF is due: the descriptor asks for it and has not reported it. -/
def Desc.halfDue (d : Desc) : Bool := d.half && d.status = 1

/-- DMA_DESCRIPTOR_HALF (R349): the first half has been accepted; STATUS HALF is written and the vector signalled. -/
def execDmaDescriptorHalf (channel : Nat) (hostData : List Byte) (s : State) : Out :=
  match (s.channel channel).cur with
  | none => .next s
  | some d => .next (if d.halfDue && !channelWaits s channel then (moveHalf channel hostData d s).2 else s)

/-- The last data write of a descriptor has been accepted: CRC and STATUS DONE are written, and with IRQ_DONE the vector
is signalled (R348, R349). -/
def endDesc (c : Nat) (d : Desc) (s : State) : State :=
  let crc := d.crc ^^^ 0xFFFFFFFF
  match (writeDesc c 24 (leBytes 4 crc.toNat) s).bind (writeDesc c 21 (leBytes 1 3)) with
  | none => ringError c s
  | some s =>
    let s := s.modChannel c fun ch => { ch with done := ch.done + 1 }
    nextDesc c (some crc) (if d.done then dmaSignal c s else s)

/-- DMA_DESCRIPTOR_DONE (R348, R349): the rest is moved, past the half where that is due, and the descriptor is DONE. -/
def execDmaDescriptorDone (channel : Nat) (hostData : List Byte) (s : State) : Out :=
  match (s.channel channel).cur with
  | none => .next s
  | some d =>
    let r := if channelWaits s channel then (none, s)
      else if d.halfDue then moveHalf channel hostData d s
      else (some d, s)
    match r with
    | (none, s) => .next s
    | (some d', s) =>
      match moveBytes channel d'.length (hostData.drop (d'.moved - d.moved)) d' s with
      | (none, s) => .next s
      | (some d', s) => .next (endDesc channel d' s)

/-- DMA_BUS_ERROR (R341, R350, R351): a bus error on a data access that no rule of the state shows, at an offset: the bytes
before it have been moved, those of host memory as free bytes (log entry 17). An offset past the data is the status write
of the descriptor, which stops the channel. -/
def execDmaBusError (channel : Nat) (onWrite : Bool) (offset : Nat) (s : State) : Out :=
  match (s.channel channel).cur with
  | none => .next s
  | some d =>
    let k := max d.moved (min offset d.length)
    match moveBytes channel k (freeBytes s.free (k - d.moved)) d { s with free := s.free + (k - d.moved) } with
    | (none, s) => .next s
    | (some d, s) =>
      .next (if d.length ≤ offset && onWrite then ringError channel s
        else badDesc channel (if onWrite then 2 else 1) k d.done s)

/-- FABRIC_BUDGET_WINDOW (R29, R342): the next window of 1,024 fabric cycles begins (log entry 4). -/
def execFabricBudgetWindow (s : State) : Out :=
  .next (renewBudgets (s.advanceTo (windowStart (windowOf s.time.toNat + 1))))

/-! ### Host access through BAR2 (R340) -/

/-- The HST_ window as a register read returns it (R294). -/
def hstRead (s : State) (offset : Nat) : Nat :=
  if offset = 0 then s.cam.hstStream.toNat * 16 + bit s.cam.hstEn
  else if offset = 4 then ofBits [s.cam.hstReady, s.cam.hstFlagged, s.cam.hstSkipped]
  else if offset = 8 then s.cam.hstTotal.toNat
  else if 0x400 ≤ offset ∧ offset < 0x800 then (at' s.cam.hstBins ((offset - 0x400) / 4) 0).toNat
  else 0

/-- A register of the BAR2 register windows as a host read returns it: the HST_ window, and in STATE BOOT the push
words (R340, R499). -/
def bar2Reg (s : State) (offset : Nat) : Nat :=
  if offset < 0x800 then hstRead s offset
  else if s.mci.st = .boot ∧ offset = 0x800 then s.boot.pushResult.toNat
  else if s.mci.st = .boot ∧ offset = 0x804 then s.boot.push.toNat
  else 0

/-- The bytes of a register range. -/
def bar2RegBytes (s : State) (offset n : Nat) : List Byte :=
  (List.range n).map fun k => BitVec.ofNat 8 (bar2Reg s ((offset + k) / 4 * 4) / 256 ^ ((offset + k) % 4))

/-- A host write to the HST_ window: HST_CTRL and HST_STATUS (R294). Other offsets ignore it. -/
def hstWrite (offset value : Nat) (s : State) : State :=
  if offset = 0 then { s with cam := { s.cam with hstEn := value.testBit 0, hstStream := BitVec.ofNat 4 (value / 16) } }
  else if offset = 4 then
    { s with cam := { s.cam with
      hstReady := s.cam.hstReady && !value.testBit 0, hstSkipped := s.cam.hstSkipped && !value.testBit 2 } }
  else s

/-- A host write in the register range: whole aligned 32-bit words (R43). -/
def bar2RegWrite (offset : Nat) (data : List Byte) (s : State) : State :=
  if offset % 4 = 0 ∧ data.length = 4 then
    if offset < 0x800 then hstWrite offset (ofLe data) s
    else if s.mci.st = .boot ∧ offset = 0x804 then { s with boot := { s.boot with push := BitVec.ofNat 32 (ofLe data) } }
    else s
  else s

/-- BAR2_HOST_ACCESS (R317, R340, R341): a host read or write through BAR2. An unmapped offset or an unset window reads 0 and
ignores writes; a set window answers with a bus error beyond its end or the usable capacity. -/
def execBar2HostAccess (offset : Nat) (write : Option (List Byte)) (length : Nat) (s : State) : Out :=
  if offset < 0x100000 then
    match write with
    | some bs => .next (bar2RegWrite offset bs s)
    | none => .next { s with dma := { s.dma with bar2Read := some (bar2RegBytes s offset length) } }
  else
    let n := match write with
      | some bs => bs.length
      | none => length
    let s := spend 36 n s
    let set := 2 ^ 24 ≤ offset && offset < 2 ^ 28 && (at' s.dma.windows (offset / 2 ^ 24 - 1) none).isSome
    let failed (s : State) : State := { s with dma := { s.dma with bar2Read := none } }
    match s.place (2 * 2 ^ 48 + offset), write with
    | .dram a room, some bs =>
      let t := dramStore 59 a (bs.take room) s
      .next (if s.dram.stopped then s else if room < bs.length then failed t else t)
    | .dram a room, none =>
      let r := dramFetch 59 a (min length room) 0 s
      .next (if s.dram.stopped then s
        else if r.1.length < length then failed r.2
        else { r.2 with dma := { r.2.dma with bar2Read := some r.1 } })
    | _, some bs => .next (if set && bs ≠ [] then failed s else s)
    | _, none => .next (if set && length ≠ 0 then failed s else { s with dma := { s.dma with bar2Read := some (zeros length) } })

/-! ### DEFLATE engines (R354 to R360) -/

/-- Candidates of a LEVEL (R355). -/
def levelCandidates (level : Nat) : Nat := at' [4, 8, 16, 32, 64, 128, 512, 1024, 4096] (level - 1) 4

/-- The tile that a firmware job fills as its column `k` (R202, R359): of its page and row, filled since the job was queued. -/
def FwJob.tile (j : FwJob) (s : State) (k : Nat) : Option Tile :=
  s.lag.tiles.find? fun t => t.allocated && t.owner = .station j.station && t.page = j.page &&
    t.origin.toNat = j.row % 65536 && t.column.toNat = j.firstCol + k && t.id ≠ j.old && j.again.all (· = t.handle)

/-- The columns that a firmware job writes: those of its band, or the one of the tile it expands again (R151). -/
def FwJob.columns (j : FwJob) (s : State) : List Nat :=
  match j.again with
  | none => List.range j.ncol
  | some h => [(s.tile h).column.toNat - j.firstCol]

/-- The firmware job in progress that fills a tile, and the column of its band. -/
def jobOfTile (s : State) (h : Nat) : Option (FwJob × Nat) :=
  s.dma.engines.findSome? fun e => match e.cur with
    | some (.fw j) => ((j.columns s).find? fun k => (j.tile s k).any fun t => t.handle = h).map fun k => (j, k)
    | _ => none

/-- A firmware job waits for the fill of a tile that its page still needs (R26, R302). -/
def FwJob.stalls (j : FwJob) (s : State) : Bool :=
  ((s.station j.station).jobs.any fun p => p.pageId = j.page) && (j.columns s).any fun k => (j.tile s k).isNone

/-- An idle engine begins a job; a new share takes effect (R342). -/
def beginJob (engine : Nat) (j : EngineJob) (s : State) : State :=
  (newShare (32 + engine) (4 * (s.deflate engine).shareNext) s).modEngine engine fun e =>
    { e with cur := some j, share := e.shareNext, aborted := false }

/-- DEFLATE_JOB_START (R302, R357): an idle engine takes the first firmware job whose tiles have been granted and opened, for
no other is queued to it, or the first host job if it serves the host. -/
def execDeflateJobStart (engine : Nat) (s : State) : Out :=
  if 4 ≤ engine || (s.deflate engine).cur.isSome then .next s
  else match s.dma.fwQueue.find? fun j => !j.stalls s, s.dma.queue with
    | some j, _ => .next (beginJob engine (.fw j) { s with dma := { s.dma with fwQueue := s.dma.fwQueue.erase j } })
    | none, j :: rest =>
      if s.dma.hostEngines.getLsbD engine then .next (beginJob engine (.host j) { s with dma := { s.dma with queue := rest } })
      else .next s
    | none, [] => .next s

/-- Bytes that the destination of a job has room for. -/
def roomOf (s : State) (address : Nat) : Nat :=
  match s.place address with
  | .dram _ room => room
  | .host _ => 2 ^ 48
  | _ => 0

/-- What an engine makes of a job (R354, R358): RESULT, the bytes it writes, whether input is left, and the bytes read. A bus
error on input ends the job where the stream needs the missing bytes (log entry 92). -/
structure JobOutcome where
  result   : Nat
  output   : List Byte
  trailing : Bool
  input    : List Byte
  deriving DecidableEq, Repr

/-- The outcome of a decompression of the bytes obtained of `want`, to a limit and into some room. -/
def inflateOutcome (input : List Byte) (want limit room : Nat) (crc : BitVec 32) : JobOutcome :=
  let r := inflate (min limit room) input
  let result := match r.ending with
    | .limit => if room < limit then 6 else 2
    | .bad => 4
    | .truncated => if input.length < want then 6 else 5
    | .done => if crc32c r.output = crc then 0 else 3
  { result := result, output := r.output, trailing := r.trailing, input := input }

/-- The outcome of a compression. -/
def deflateOutcome (input : List Byte) (want chain room : Nat) : JobOutcome :=
  let out := deflate input chain
  let result := if input.length < want then 6 else if want ≤ out.length then 1 else if room < out.length then 6 else 0
  { result := result, output := out.take (min room (want - 1)), trailing := false, input := input }

/-- The outcome of a host job on the bytes it has read. -/
def CJob.outcome (j : CJob) (s : State) (input : List Byte) : JobOutcome :=
  if j.compress then deflateOutcome input j.srcLen j.chain (roomOf s j.dst)
  else inflateOutcome input j.srcLen j.dstLimit (roomOf s j.dst) j.origCrc

/-- Completion status of a RESULT (R358). -/
def resultStatus (r : Nat) : Nat := if r ≤ 1 then Status.ok else if r = 7 then Status.aborted else Status.failed

/-- Bytes written by a job that stopped before its end: any number up to those it would write. -/
def someOf (n : Nat) (s : State) : Nat := Config.freeNat s.free % (n + 1)

/-- A host job ends (R358): its output is written, or its destination is undefined, and its completion is posted. An aborted
job, a compression that does not shrink and one that meets a bus error have written some of their bytes. -/
def endHostJob (engine : Nat) (j : CJob) (r : JobOutcome) (s : State) : State :=
  let open' := r.result = 7 || r.result = 1 || (j.compress && r.result = 6)
  let outLen := if open' then someOf r.output.length s else r.output.length
  let s := { s with free := s.free + 1 }
  let s := spend (32 + engine) outLen (spend (32 + engine) r.input.length s)
  let s := if r.result = 0 then (storeTo (48 + engine) j.dst r.output s).2.2 else scramble (48 + engine) j.dst outLen s
  let crc := if j.compress then crc32c r.input else crc32c (r.output.take outLen)
  let s := s.modEngine engine fun e => countResult r.result
    { e with cur := none, aborted := false, jobs := e.jobs + 1, bytesIn := e.bytesIn + BitVec.ofNat 64 r.input.length,
             bytesOut := e.bytesOut + BitVec.ofNat 64 outLen }
  let s := if 2 ≤ r.result && r.result ≤ 6 then present 0x01A0 none 0 s else s
  complete j.ctx (resultStatus r.result)
    (leBytes 1 r.result ++ leBytes 1 (bit r.trailing) ++ leBytes 1 engine ++ zeros 1 ++ leBytes 4 outLen ++
     leBytes 4 crc.toNat ++ leBytes 4 j.tag.toNat ++ leBytes 8 j.job.toNat) s

/-- A column of a band is written as one fill: what its writer has not delivered yet (R305, R359). -/
def fillColumn (j : FwJob) (output : List Byte) (s : State) (k : Nat) : State :=
  match j.tile s k with
  | some t =>
    match t.fill with
    | some f => closeFill t.handle (writeFill t.handle f.next ((output.drop (16384 * k + f.next)).take (16384 - f.next)) s)
    | none => s
  | none => s

/-- A firmware job ends (R202, R307, R359): its output goes to its tiles, up to the first that it may not write, which is a bus
error; after any RESULT other than DONE the stored CRC of every tile it closed becomes its complement. -/
def endFwJob (engine : Nat) (j : FwJob) (s : State) : State :=
  let got := fetchFrom (48 + engine) j.src j.srcLen [] s
  let limit := 16384 * j.ncol
  let r := inflateOutcome got.1 j.srcLen limit limit j.origCrc
  let s := spend (32 + engine) r.output.length (spend (32 + engine) got.1.length got.2.2)
  let cols := (j.columns s).takeWhile fun k => (j.tile s k).isSome
  let r := if r.result = 0 && (j.refused || cols.length < (j.columns s).length) then { r with result := 6 } else r
  let s := cols.foldl (fillColumn j r.output) s
  let s := s.modEngine engine fun e => countResult r.result
    { e with cur := none, aborted := false, jobs := e.jobs + 1, bytesIn := e.bytesIn + BitVec.ofNat 64 got.1.length,
             bytesOut := e.bytesOut + BitVec.ofNat 64 r.output.length }
  if r.result = 0 then s
  else
    let s := cols.foldl (fun s k => match j.tile s k with
      | some t => if t.fill.isNone then s.modTile t.handle fun t => { t with crc := ~~~t.crc } else s
      | none => s) s
    present 0x01A0 none 0 s

/-- DEFLATE_JOB_END (R358 to R360): the job of an engine ends with its result, or ABORTED if compress.abort reached the
completion queue first. A source in host memory supplies the bytes. A firmware job stalls while a tile it needs has no open
fill. -/
def execDeflateJobEnd (engine : Nat) (host : List Byte) (s : State) : Out :=
  match (s.deflate engine).cur with
  | none => .next s
  | some (.fw j) => .next (if j.stalls s || s.dram.stopped then s else endFwJob engine j s)
  | some (.host j) =>
    if dramWaits s j.src || dramWaits s j.dst then .next s else
    let got := fetchFrom (48 + engine) j.src j.srcLen host s
    let r := j.outcome s got.1
    .next (endHostJob engine j (if (s.deflate engine).aborted then { r with result := 7 } else r) got.2.2)

/-! ### Commands of group 0x0C -/

/-- The share that an engine holds when another is set for its next job: the larger, as long as a job runs (R343). -/
def Deflate.shareHeld (e : Deflate) (next : Nat) : Nat := if e.cur.isSome then max e.share next else next

/-- Grants per window of everything that has a share, with channel `c` at `g` (R343): at most 256. -/
def grantSum (s : State) (c g : Nat) : Nat :=
  (mapIx (fun i (ch : Channel) => if i = c then g else if ch.st = 0 then 0 else max ch.grants (ch.grantsNext.getD 0))
    s.dma.channels).sum + (s.dma.engines.map fun e => 4 * e.shareHeld e.shareNext).sum + 32

/-- A channel is disabled (R352): the work is dropped; the destination of the descriptor in execution and the counts are
undefined until the next enable. -/
def disableChannel (c : Nat) (s : State) : State :=
  let ch := s.channel c
  if ch.st = 0 then s
  else
    let s := match ch.cur with
      | some d => scramble (16 + c) d.dst d.length s
      | none => s
    let k := s.free
    let s := { s with free := s.free + 4 }
    s.modChannel c fun ch =>
      { ch with st := 0, cur := none, prevCrc := none, done := BitVec.ofNat 64 (Config.freeNat k),
                bytes := BitVec.ofNat 64 (Config.freeNat (k + 1)), bad := { val := BitVec.ofNat 32 (Config.freeNat (k + 2)) },
                maxWait := BitVec.ofNat 32 (Config.freeNat (k + 3)) }

/-- dma.channel.config (0x0C01). -/
def execDmaChannelConfig (rq : Req) (s : State) : Out :=
  let c := rq.u8 0
  let ring := rq.u64 8
  let poll := rq.u16 16
  let size := rq.u32 4
  let enable := rq.u8 1 = 1
  let kind := ring / 2 ^ 48
  command 0x0C01 rq
    [(32 ≤ c, Status.outOfRange),
     (1 < rq.u8 1 || rq.u8 2 < 1 || 64 < rq.u8 2 || size < 2 || 65536 < size || 1 < kind || ring % 32 ≠ 0 ||
      poll < 1 || 1000 < poll, Status.badValue),
     (28 ≤ c, Status.busy),
     (enable && fenced s 0x0181 c, Status.fenced),
     (enable && 256 < grantSum s c (4 * rq.u8 2), 0x8C01)]
    (fun s => respond rq 0x0C01 Status.ok []
      (if enable then
        (newShare c (4 * rq.u8 2) s).modChannel c fun ch =>
          { ch with st := 1, grants := 4 * rq.u8 2, grantsNext := none, ringSize := size, ring := ring, pollUs := poll,
                    index := 0, cur := none, prevCrc := none, done := 0, bytes := 0, bad := {}, maxWait := 0 }
      else disableChannel c s)) s

/-- dma.channel.disable (0x0C02). -/
def execDmaChannelDisable (rq : Req) (s : State) : Out :=
  let mask := rq.u32 0
  let cs := (List.range 28).filter fun c => mask.testBit c
  let running := ofBits ((List.range 28).map fun c => mask.testBit c && ((s.channel c).st = 1 || (s.channel c).st = 2))
  command 0x0C02 rq [(2 ^ 28 ≤ mask, Status.busy)]
    (fun s => respond rq 0x0C02 Status.ok (leBytes 4 running) (cs.foldl (fun s c => disableChannel c s) s)) s

/-- dma.channel.status (0x0C03). -/
def execDmaChannelStatus (rq : Req) (s : State) : Out :=
  let ch := s.channel (rq.u8 0)
  command 0x0C03 rq [(32 ≤ rq.u8 0, Status.outOfRange)]
    (fun s => respond rq 0x0C03 Status.ok
      (leBytes 1 ch.st ++ leBytes 1 (ch.grants / 4) ++ zeros 2 ++ leBytes 4 ch.index ++ leBytes 8 ch.done.toNat ++
       leBytes 8 ch.bytes.toNat ++ ch.bad.bytes ++ leBytes 4 ch.maxWait.toNat) s) s

/-- dma.window.set (0x0C04). -/
def execDmaWindowSet (rq : Req) (s : State) : Out :=
  let w := rq.u8 0
  let base := rq.u64 8
  let unset := base = 2 ^ 64 - 1
  command 0x0C04 rq
    [(w < 1 || 15 < w, Status.outOfRange), (!unset && (2 ^ 48 ≤ base || base % 65536 ≠ 0), Status.badValue)]
    (fun s => respond rq 0x0C04 Status.ok []
      { s with dma := { s.dma with windows := modAt s.dma.windows (w - 1) fun _ => if unset then none else some base } }) s

/-- dma.channel.raw (0x0C80): SHARE_FINE from the channel's next window on. -/
def execDmaChannelRaw (rq : Req) (s : State) : Out :=
  let c := rq.u8 0
  let fine := rq.u16 2
  command 0x0C80 rq
    [(32 ≤ c, Status.outOfRange), (fine < 1 || 256 < fine, Status.badValue), (28 ≤ c, Status.busy),
     ((s.channel c).st ≠ 0 && 256 < grantSum s c fine, 0x8C01)]
    (fun s => respond rq 0x0C80 Status.ok [] (s.modChannel c fun ch => { ch with grantsNext := some fine })) s

/-! ### Commands of group 0x0D -/

/-- compress.config (0x0D01). -/
def execCompressConfig (rq : Req) (s : State) : Out :=
  let shares := (List.range 4).map fun e => rq.u8 (4 + e)
  let held := (mapIx (fun e (d : Deflate) => d.shareHeld (at' shares e 8)) s.dma.engines).sum
  let chans := (s.dma.channels.map fun ch => if ch.st = 0 then 0 else max ch.grants (ch.grantsNext.getD 0)).sum
  command 0x0D01 rq
    [(shares.any fun x => x < 1 || 64 < x, Status.badValue), (256 < chans + 4 * held + 32, 0x8C01)]
    (fun s => respond rq 0x0D01 Status.ok []
      { s with dma := { s.dma with
        hostEngines := BitVec.ofNat 4 (rq.u8 0),
        engines := mapIx (fun e d => { d with shareNext := at' shares e 8 }) s.dma.engines } }) s

/-- An address a host job may name: DRAM, host memory or BAR2 (compress.submit). -/
def jobAddress (a : Nat) : Bool := a / 2 ^ 48 ≤ 2

/-- compress.submit (0x0D02). -/
def execCompressSubmit (rq : Req) (s : State) : Out :=
  let comp := rq.u8 28 = 1
  let chain := if s.dma.chain = 0 then levelCandidates (rq.u8 29) else s.dma.chain
  let j : CJob := { job := s.dma.nextJob, ctx := rq.ctx s 0x0D02, src := rq.u64 0, dst := rq.u64 8, srcLen := rq.u32 16,
                    dstLimit := rq.u32 20, origCrc := BitVec.ofNat 32 (rq.u32 24), compress := comp, level := rq.u8 29,
                    chain := chain, tag := BitVec.ofNat 32 (rq.u32 32) }
  command 0x0D02 rq
    [(1 < rq.u8 28 || j.srcLen = 0 || (!comp && j.dstLimit = 0) || (comp && (j.level < 1 || 9 < j.level)) ||
      !jobAddress j.src || !jobAddress j.dst, Status.badValue),
     (32 ≤ s.dma.queue.length, 0x8D01)]
    (fun s => accept rq 0x0D02 (leBytes 8 j.job.toNat)
      { s with dma := { s.dma with queue := s.dma.queue ++ [j], nextJob := s.dma.nextJob + 1 } }) s

/-- The engine that runs a host job. -/
def runningOn (s : State) (job : BitVec 64) : Option Nat :=
  (List.range 4).find? fun e => match (s.deflate e).cur with
    | some (.host j) => j.job = job
    | _ => false

/-- compress.abort (0x0D03, R360): a queued job is removed with ABORTED at once; a running one ends with ABORTED. -/
def execCompressAbort (rq : Req) (s : State) : Out :=
  let job := BitVec.ofNat 64 (rq.u64 0)
  let queued := s.dma.queue.find? fun j => j.job = job
  command 0x0D03 rq
    [(s.dma.nextJob ≤ job, Status.badValue), (queued.isNone && (runningOn s job).isNone, Status.alreadyDone)]
    (fun s =>
      match queued, runningOn s job with
      | some j, _ =>
        let s := respond rq 0x0D03 Status.ok [] { s with dma := { s.dma with queue := s.dma.queue.filter fun k => k.job ≠ job } }
        complete j.ctx Status.aborted
          (leBytes 1 7 ++ zeros 11 ++ leBytes 4 j.tag.toNat ++ leBytes 8 j.job.toNat) s
      | none, some e => respond rq 0x0D03 Status.ok [] (s.modEngine e fun d => { d with aborted := true })
      | none, none => s) s

/-- compress.status (0x0D04). -/
def execCompressStatus (rq : Req) (s : State) : Out :=
  let e := s.deflate (rq.u8 0)
  command 0x0D04 rq [(4 ≤ rq.u8 0, Status.outOfRange)]
    (fun s => respond rq 0x0D04 Status.ok
      (leBytes 8 e.jobs.toNat ++ leBytes 8 e.bytesIn.toNat ++ leBytes 8 e.bytesOut.toNat ++ e.results.flatMap Count.bytes) s) s

/-- compress.engine.raw (0x0D80). -/
def execCompressEngineRaw (rq : Req) (s : State) : Out :=
  command 0x0D80 rq [(4096 < rq.u16 0, Status.badValue)]
    (fun s => respond rq 0x0D80 Status.ok [] { s with dma := { s.dma with chain := rq.u16 0 } }) s

end Sys2Proof.Machine
end

