-- ==== Sys2Proof/Machine/ClockOps.lean ====
section
/-!
DEFINITION. Operations over the clocks (spec/17_clocks.md): synthesiser frequencies and pitches, lock, and gate cause 5.
-/
namespace Sys2Proof.Machine

open Sys2Proof

def State.modSynth (s : State) (i : Nat) (f : Synth → Synth) : State :=
  { s with clk := { s.clk with synths := modAt s.clk.synths i f } }

def State.synth (s : State) (i : Nat) : Synth := at' s.clk.synths i {}

/-- FREQ of a pixel clock in kHz: round(2 × PIXEL_CLOCK × 2^28 / 50 MHz) (R400). -/
def freqOfClock (khz : Nat) : Nat := (roundDiv (2 * khz * 1000 * 2 ^ 28) 50000000).toNat

/-- f lies in 40 MHz to 280 MHz (R400). -/
def freqOk (freq : Int) : Bool := 40 * 2 ^ 28 ≤ 50 * freq && 50 * freq ≤ 280 * 2 ^ 28

/-- Links on which no source of gate cause 5 holds any more. -/
def clockFree (s : State) (l : Nat) : Bool :=
  !s.clk.senseGate && !s.clk.sysGate && (List.range 4).all fun i => !(s.clk.synthGate.getLsbD i && (s.station i).links.contains l)

/-- Gate cause 5 clears where no clock source holds it (R408). -/
def clockUngate (s : State) : State := clearCause 5 ((List.range 24).filter (clockFree s)) s

/-- Gate cause 5 of a station's links from its synthesiser (R408). -/
def synthGateSet (i : Nat) (s : State) : State :=
  setCause 5 (s.station i).links { s with clk := { s.clk with synthGate := s.clk.synthGate ||| (1#4 <<< i) } }

/-- Gate cause 5 of all links from the reference or a system PLL (R34). -/
def sysGateSet (s : State) : State := setCause 5 (List.range s.nLinks) { s with clk := { s.clk with sysGate := true } }

/-- A loop leaves the lock monitor and is no longer declared locked (R405). -/
def loopOut (loop : Nat) (s : State) : State :=
  { s with clk := { s.clk with locked := s.clk.locked &&& ~~~(1#7 <<< loop), included := s.clk.included &&& ~~~(1#7 <<< loop) } }

/-- Settings that wait for a relock are taken (clock.synth.raw). -/
def relock (i : Nat) (s : State) : State :=
  s.modSynth i fun x => match x.rawNext with
    | some (b, p) => { x with loopBw := b, pump := p, rawNext := none }
    | none => x

/-- The segment of a line at a time in sub-ticks: from the edge that begins its first pixel; none before the line's first
pixel and after its last (R401). -/
def SynthLine.segment (y : SynthLine) (x : Synth) (t : Int) : Option Nat :=
  let begins (i : Nat) : Int := 65536 * y.start + { x with ramp := y.ramp }.span y.pixels i
  if begins y.pixels ≤ 65536 * t then none
  else ((List.range 1024).filter fun k =>
    segmentStart k y.pixels < segmentStart (k + 1) y.pixels && begins (segmentStart k y.pixels) ≤ 65536 * t).getLast?

/-- FREQ_k at which a synthesiser runs at a time in sub-ticks: FREQ_0 outside a line (R401). -/
def Synth.freqNow (x : Synth) (t : Int) : Int :=
  match x.lines.find? fun y => y.start ≤ t with
  | some y => { x with ramp := y.ramp }.freqAt ((y.segment x t).getD 0)
  | none => x.freqAt 0

/-- The first rising edge after a reset of the output divider, in 2^-17 sub-tick: one output period after the BD stamp, at
the frequency in force there (R403). -/
def Synth.firstRise (x : Synth) : Option Int :=
  x.resetAt.map fun t => 2 ^ 17 * t + roundDiv (102400000000 * 2 ^ 17 * 2 ^ 28) (x.freqNow t * 50000000)

/-- Width of LOCKMON's pulse in a microsecond of device time, ns (R405): whether an included loop stays within 1/16 of a
reference period is a free value of the loop and the microsecond (log entry 104). -/
def lockmonNs (s : State) (us : Nat) : Nat :=
  if (List.range 7).all fun k => !s.clk.included.getLsbD k || Config.phaseInWindow k (us - 1) then 900 else 100

/-- LOCKMON as driven: a pulse of 1 MHz at the start of each microsecond of device time (R405, log entry 104). -/
def lockmon (s : State) : Bool := s.time.toNat % 1600 * 5 < lockmonNs s (s.time.toNat / 1600) * 8

/-- A profile that waits takes effect, at the start of a page or at a BD edge with no page active (R402). -/
def applyRamp (i : Nat) (s : State) : State :=
  s.modSynth i fun x => match x.rampNext with
    | some r => { x with ramp := r, rampNext := none }
    | none => x

end Sys2Proof.Machine
end

