-- ==== Sys2Proof/Machine/MotionOps.lean ====
section
/-!
DEFINITION. Operations over the stepper axes (spec/16_motion.md): profiles, positions, the move queue and stops.
-/
namespace Sys2Proof.Machine

open Sys2Proof

def State.modAxis (s : State) (a : Nat) (f : Axis → Axis) : State := { s with motion := modAt s.motion a f }

def State.axis (s : State) (a : Nat) : Axis := at' s.motion a {}

/-! ### Profiles (R385, R386) -/

/-- Travel is counted in 1/stepScale of a step and velocity in 1/rateScale of a step per second, so that a profile over whole
ticks is exact (R385). -/
def stepScale : Nat := 6 * ticksPerSecond ^ 3

def rateScale : Nat := 2 * ticksPerSecond ^ 2

/-- Ticks in which the acceleration ramps at a jerk `j` in a velocity change of `dv`: up to ACCEL, or to what the change allows
(R386). A jerk of 0 is a trapezoid's, without limit. -/
def jerkTicks (a j dv : Nat) : Nat :=
  if j = 0 then 0 else if a * a ≤ dv * j then a * ticksPerSecond / j else Nat.sqrt (dv * ticksPerSecond ^ 2 / j)

/-- Ticks of a velocity change of `dv`. -/
def changeTicks (a j dv : Nat) : Nat := max (dv * ticksPerSecond / a) (jerkTicks a j dv) + jerkTicks a j dv

/-- Travel of a velocity change from `v` to `v + dv`, or back. -/
def changeTravel (v a j dv : Nat) : Nat := 3 * (2 * v + dv) * changeTicks a j dv * ticksPerSecond ^ 2

/-- A point of a profile: travel, velocity, and whether deceleration has begun. -/
structure PlanPoint where
  travel : Nat
  v      : Nat
  slow   : Bool
  deriving DecidableEq, Repr

/-- Travel and velocity `t` ticks into a rise from `v` by `dv` (R386): the acceleration ramps up at the jerk, holds, and ramps
down. -/
def riseAt (v a j dv t : Nat) : Nat × Nat :=
  let c := ticksPerSecond
  let tj := jerkTicks a j dv
  let span := changeTicks a j dv
  if span ≤ t then (changeTravel v a j dv, (v + dv) * rateScale)
  else if j = 0 then (6 * v * t * c ^ 2 + 3 * a * c * t ^ 2, v * rateScale + 2 * a * c * t)
  else if t < tj then (6 * v * t * c ^ 2 + j * t ^ 3, v * rateScale + j * t ^ 2)
  else if t < span - tj then
    let u := t - tj
    (6 * v * t * c ^ 2 + j * tj ^ 3 + 3 * j * tj ^ 2 * u + 3 * j * tj * u ^ 2, v * rateScale + j * tj ^ 2 + 2 * j * tj * u)
  else
    let r := span - t
    (changeTravel v a j dv - (6 * (v + dv) * r * c ^ 2 - j * r ^ 3), (v + dv) * rateScale - j * r ^ 2)

/-- The velocity changes from `v` to `w` within `l` steps. -/
def within (v w a j l : Nat) : Bool := (w ≤ v || 0 < a) && changeTravel v a j (w - v) ≤ l * stepScale

/-- The highest velocity that `l` steps allow from `v`, or from which they allow a fall to `v`. -/
def reach (v a j l : Nat) : Nat := greatest (fun w => within v w a j l) 22 v

/-- The peak of a profile (R386): the lower of the move's V_MAX and what its length allows. -/
def peak (vIn vOut vMax a d j l : Nat) : Nat :=
  greatest (fun v => v ≤ vMax && within vIn v a j l && within vOut v d j l &&
    changeTravel vIn a j (v - vIn) + changeTravel vOut d j (v - vOut) ≤ l * stepScale) 22 (max vIn vOut)

/-- Ticks of the cruise, up to the tick at which the travel reaches the fall. -/
def cruiseTicks (vIn vOut vp a d j l : Nat) : Nat :=
  ceilDiv (l * stepScale - changeTravel vIn a j (vp - vIn) - changeTravel vOut d j (vp - vOut)) (6 * vp * ticksPerSecond ^ 2)

/-- Duration of a profile in ticks (R386): the tick at which the planned travel reaches its last step. -/
def planTicks (vIn vOut vMax a d j l : Nat) : Nat :=
  let vp := peak vIn vOut vMax a d j l
  changeTicks a j (vp - vIn) + cruiseTicks vIn vOut vp a d j l + changeTicks d j (vp - vOut)

/-- The profile of R386 after `t` ticks over `l` steps: acceleration to its peak, cruise, and a fall that is the rise from its
end backward. A peak below V_MAX belongs to the deceleration from where the acceleration ramps down to it. -/
def planAt (vIn vOut vMax a d j l t : Nat) : PlanPoint :=
  let vp := peak vIn vOut vMax a d j l
  let span := planTicks vIn vOut vMax a d j l
  let t1 := changeTicks a j (vp - vIn)
  let all := l * stepScale
  if span ≤ t then { travel := all, v := vOut * rateScale, slow := true }
  else if t < t1 then
    let p := riseAt vIn a j (vp - vIn) t
    { travel := min all p.1, v := p.2, slow := vp < vMax && t1 - jerkTicks a j (vp - vIn) ≤ t }
  else if t + changeTicks d j (vp - vOut) < span then
    { travel := min (changeTravel vIn a j (vp - vIn) + 6 * vp * (t - t1) * ticksPerSecond ^ 2)
        (all - changeTravel vOut d j (vp - vOut)), v := vp * rateScale, slow := vp < vMax }
  else
    let p := riseAt vOut d j (vp - vOut) (span - t)
    { travel := all - p.1, v := p.2, slow := true }

/-- The joint of two moves is blended (R388). -/
def blended (m n : Move) : Bool := n.blend && m.pos = n.pos

/-- Exit velocity of the first move of a queue (R388): the joint velocity of a blended joint, lowered so that the axis
can still reach V_START at the end of the queue; V_START otherwise, and at the joint of a move that joined late (R389). -/
def exitV (vStart j : Nat) : List Move → Nat
  | [] => vStart
  | [_] => vStart
  | m :: n :: rest =>
    if blended m n && !n.late then min (min m.vMax n.vMax) (reach (exitV vStart j (n :: rest)) n.decel j n.length)
    else vStart

/-- The velocity at the end of the present move, which it enters at `vIn`: no more than its length allows. -/
def exitFrom (vStart j vIn : Nat) : List Move → Nat
  | [] => vStart
  | m :: rest => min (exitV vStart j (m :: rest)) (reach vIn m.accel j m.length)

/-- A deceleration in progress in the first move goes on to the end of the queue (R389): every joint is lowered for it. -/
def towardEnd (vStart j : Nat) : List Move → Bool
  | [] => false
  | [_] => true
  | m :: n :: rest =>
    blended m n && !n.late && exitV vStart j (m :: n :: rest) < min m.vMax n.vMax && towardEnd vStart j (n :: rest)

/-- The jerk of the axis's profile, steps/s³; 0 without limit (R386). -/
def Axis.jerkNow (x : Axis) : Nat := if x.sCurve then x.jerk * 1000 else 0

/-- Ticks from `a` to `b`; 0 if `b` is not later. -/
def ticksFrom (a b : BitVec 64) : Nat := b.toNat - a.toNat

/-- The present move's progress (R385). -/
def Axis.progress (x : Axis) (now : BitVec 64) : PlanPoint :=
  match x.queue with
  | [] => { travel := 0, v := 0, slow := false }
  | m :: _ =>
    planAt x.seg.vIn (exitFrom x.vStart x.jerkNow x.seg.vIn x.queue) m.vMax m.accel m.decel x.jerkNow m.length
      (ticksFrom x.seg.start now)

/-- The tick of the last pulse of the present move. -/
def Axis.moveEnd (x : Axis) : Nat :=
  match x.queue with
  | [] => x.seg.start.toNat
  | m :: _ =>
    x.seg.start.toNat +
      planTicks x.seg.vIn (exitFrom x.vStart x.jerkNow x.seg.vIn x.queue) m.vMax m.accel m.decel x.jerkNow m.length

/-- Ticks of a ramped stop (R391): from `stopV` at D_STOP to V_START. -/
def Axis.stopTicks (x : Axis) : Nat := ceilDiv (x.stopV - x.vStart * rateScale) (2 * ticksPerSecond * x.dStop)

/-- Travel and velocity of a ramped stop (R391). -/
def Axis.stopping (x : Axis) (now : BitVec 64) : Nat × Nat :=
  let t := min x.stopTicks (ticksFrom x.seg.start now)
  (x.seg.done + (3 * x.stopV * t - 3 * x.dStop * ticksPerSecond * t ^ 2), x.stopV - 2 * x.dStop * ticksPerSecond * t)

/-- Travel since `base`, signed. -/
def Axis.travel (x : Axis) (now : BitVec 64) : Int :=
  match x.st with
  | .moving =>
    let p := (x.progress now).travel
    if (x.queue.head?.map (·.pos)) = some true then (p : Int) else -(p : Int)
  | .stopping => if x.stopPos then ((x.stopping now).1 : Int) else -((x.stopping now).1 : Int)
  | _ => 0

/-- Pulses of a travel: whole steps reached (R385). -/
def wholeSteps (t : Int) : Int := if t < 0 then -((t.natAbs / stepScale : Nat) : Int) else ((t.natAbs / stepScale : Nat) : Int)

/-- The position now (R384). -/
def Axis.position (x : Axis) (now : BitVec 64) : BitVec 64 := x.base + BitVec.ofInt 64 (wholeSteps (x.travel now))

/-- Ticks that a new direction waits before its first pulse (R383). -/
def Axis.setupTicks (x : Axis) : Nat := (8 * x.dirSetupNs + 4) / 5

/-- Planned travel of a queue of moves `t` ticks after its first one began at `vIn` (R385, R388), signed; a reversal waits
`setup`. -/
def queueTravel (vStart j setup : Nat) : List Move → Nat → Nat → Int
  | [], _, _ => 0
  | m :: rest, vIn, t =>
    let vOut := exitFrom vStart j vIn (m :: rest)
    let sign : Int := if m.pos then 1 else -1
    let span := planTicks vIn vOut m.vMax m.accel m.decel j m.length
    if t < span then sign * (planAt vIn vOut m.vMax m.accel m.decel j m.length t).travel
    else
      let wait := match rest with
        | n :: _ => if n.length ≠ 0 && n.pos ≠ m.pos then setup else 0
        | [] => 0
      sign * (m.length * stepScale) + queueTravel vStart j setup rest vOut (t - span - wait)

/-- The axis as a pacing phase at a device time, 48.16 with its epoch above (R192, R384): the planned step count. -/
def axisPhase (s : State) (a : Nat) (at_ : BitVec 64) : Int :=
  let x := s.axis a
  let go : Int := match x.st with
    | .moving => queueTravel x.vStart x.jerkNow x.setupTicks x.queue x.seg.vIn (ticksFrom x.seg.start at_)
    | _ => x.travel at_
  x.base.toInt * 65536 + go * 65536 / stepScale

/-- The tick at which the last pulse of the present motion began, if that is less than 16,384 ticks ago, the longest STEP_NS
(R383, R385). -/
def Axis.pulseNow (x : Axis) (now : BitVec 64) : Option (BitVec 64) :=
  let from_ := max x.seg.start.toNat (now.toNat - 16383)
  let steps (k : Nat) : Nat := (wholeSteps (x.travel (BitVec.ofNat 64 (from_ + k)))).natAbs
  let n := (wholeSteps (x.travel now)).natAbs
  if steps 0 = n then none else some (BitVec.ofNat 64 (from_ + greatest (fun k => steps k < n) 14 0 + 1))

/-- STPa_STEP as driven (R383, R391): high for STEP_NS from the start of a pulse, a stop or not. -/
def Axis.stepPin (x : Axis) (now : BitVec 64) : Bool :=
  [x.pulseNow now, x.pulseAt].any fun p => p.any fun t => (now - t).toNat * 5 < x.stepNs * 8

/-- Planned velocity, signed (motion.status). -/
def Axis.velocity (x : Axis) (now : BitVec 64) : Int :=
  match x.st with
  | .moving =>
    let v := (x.progress now).v / rateScale
    if (x.queue.head?.map (·.pos)) = some true then (v : Int) else -(v : Int)
  | .stopping => if x.stopPos then ((x.stopping now).2 / rateScale : Nat) else -((x.stopping now).2 / rateScale : Nat)
  | _ => 0

/-- Planned rate, exact. -/
def Axis.speedNow (x : Axis) (now : BitVec 64) : Nat := match x.st with
  | .moving => (x.progress now).v
  | .stopping => (x.stopping now).2
  | _ => 0

/-- STPa_EN as driven (R383): active while the axis is configured. -/
def Axis.enPin (x : Axis) : Bool := x.configured ≠ x.enLow

/-- STPa_DIR as driven (R383). -/
def Axis.dirPin (x : Axis) : Bool := x.dirPos ≠ x.dirInvert

/-- The position at the end of the last queued move. -/
def Axis.planEnd (x : Axis) : Int :=
  x.base.toInt + (x.queue.map fun m => if m.pos then (m.length : Int) else -(m.length : Int)).sum

/-! ### Jobs paced by an axis (R192, R395) -/

/-- The axis paces an ARMED or ACTIVE job. -/
def pacing (s : State) (a : Nat) : Bool :=
  s.stations.any fun st => st.jobs.any fun j => (j.st = .armed || j.st = .active) && j.media.kind = 1 && j.media.pace = a

/-- A stop other than a fault reaction begins on a pacing axis (R395): every such job ends with ABORT_CAUSE 3. -/
def paceStop (a : Nat) (s : State) : State :=
  if pacing s a then
    let s := present 0x01E3 (some a) 0 s
    abortJobs (fun j => (j.st = .armed || j.st = .active) && j.media.kind = 1 && j.media.pace = a) 3 0xFF s
  else s

/-! ### Moves and stops -/

/-- The motion.done event of a move that asked for it. -/
def moveDone (a : Nat) (m : Move) (result : Nat) (position : BitVec 64) (s : State) : State :=
  if m.notify then
    queueEvent 0x0F40 (leBytes 1 a ++ leBytes 1 result ++ zeros 2 ++ leBytes 4 m.tag.toNat ++ leBytes 8 position.toNat) s
  else s

/-- The present motion is folded into position and PULSES; the fraction of a step stays as the start of a ramped stop. -/
def foldMotion (a : Nat) (s : State) : State :=
  s.modAxis a fun x =>
    let t := x.travel s.time
    let n := wholeSteps t
    { x with base := x.base + BitVec.ofInt 64 n, pulses := x.pulses + BitVec.ofNat 64 n.natAbs,
             pulseAt := (x.pulseNow s.time).or x.pulseAt,
             seg := ⟨s.time, t.natAbs % stepScale, (x.velocity s.time).natAbs⟩ }

/-- A queued move starts (R385, R388): from rest at V_START, or from a blended joint at its velocity. A new direction waits
DIR_SETUP_NS. -/
def startMove (a at_ : Nat) (joint : Option Nat) (s : State) : State :=
  s.modAxis a fun x =>
    match x.queue with
    | [] => { x with st := .idle }
    | m :: _ =>
      let x := match joint, x.rawNext with
        | none, some (st, vs) => { x with stepNs := st, vStart := vs, rawNext := none }
        | _, _ => x
      let turn := m.length ≠ 0 && m.pos ≠ x.dirPos
      { x with st := .moving, dirPos := if turn then m.pos else x.dirPos,
               seg := ⟨BitVec.ofNat 64 (if turn then at_ + x.setupTicks else at_), 0, joint.getD x.vStart⟩ }

/-- The present move is complete at its last pulse (R387) and the next begins. -/
def completeMove (a : Nat) (s : State) : State :=
  let x := s.axis a
  match x.queue with
  | [] => s
  | m :: rest =>
    let signed : Int := if m.pos then m.length else -(m.length : Int)
    let joint := match rest with
      | n :: _ => if blended m n then some (exitFrom x.vStart x.jerkNow x.seg.vIn x.queue) else none
      | [] => none
    let s := s.modAxis a fun x =>
      { x with queue := rest, base := x.base + BitVec.ofInt 64 signed, pulses := x.pulses + BitVec.ofNat 64 m.length,
               pulseAt := if m.length = 0 then x.pulseAt else some (BitVec.ofNat 64 x.moveEnd) }
    let s := startMove a x.moveEnd joint s
    moveDone a m 0 (s.axis a).base s

/-- Every move whose last pulse has begun is complete (R393). -/
def completeDue (a : Nat) : Nat → State → State
  | 0, s => s
  | n + 1, s =>
    let x := s.axis a
    if x.st = .moving && x.moveEnd ≤ s.time.toNat then completeDue a n (completeMove a s) else s

/-- Every queued move is flushed by a stop (R391). -/
def flushMoves (a : Nat) (s : State) : State :=
  let ms := (s.axis a).queue
  let pos := (s.axis a).base
  let s := s.modAxis a fun x => { x with queue := [] }
  ms.foldl (fun s m => moveDone a m 1 pos s) s

/-- POS_LOST sets and is raised (R392); the process core of Isle 0 reports it. -/
def losePosition (a : Nat) (s : State) : State :=
  let s := s.modAxis a fun x => { x with posLost := true, posLosts := x.posLosts.inc }
  if s.coreUp axisCore then presentFw 0x01E2 (some a) 0 s else s

/-- A hard stop from a planned rate of `v`, exact (R392). -/
def haltHard (a cause v : Nat) (s : State) : State :=
  let s := s.modAxis a fun x => { x with st := .halted, cause := cause }
  if (s.axis a).vStart * rateScale < v then losePosition a s else s

/-- A stop begins on an axis (R391 to R393, R395). -/
def stopAxis (a : Nat) (hard : Bool) (cause : Nat) (s : State) : State :=
  let s := completeDue a 33 s
  let x := s.axis a
  let begins := x.st = .moving || x.st = .idle || (x.st = .stopping && hard)
  let s := if cause ≠ 5 && begins then paceStop a s else s
  match x.st with
  | .halted => s
  | .idle => s.modAxis a fun x => { x with st := .halted, cause := cause }
  | .moving =>
    let v := x.speedNow s.time
    let up := (x.queue.head?.map (·.pos)) = some true
    let s := flushMoves a (foldMotion a s)
    if hard then haltHard a cause v s
    else s.modAxis a fun x => { x with st := .stopping, cause := cause, stopPos := up, stopV := v }
  | .stopping => if hard then haltHard a cause (x.speedNow s.time) (foldMotion a s) else s

/-- The input is active (R390). -/
def Limit.active (l : Limit) : Bool := l.st ≠ l.activeLow

/-- A limit stop (R390, R392); a ramped one during a stop in progress changes nothing (R393). -/
def limitStop (a : Nat) (hard : Bool) (s : State) : State :=
  if (s.axis a).st = .stopping && !hard then s
  else
    let s := stopAxis a hard (if hard then 3 else 4) s
    present (if hard then 0x01E0 else 0x01E1) (some a) 0 (s.modAxis a fun x => { x with limitStops := x.limitStops.inc })

/-- Direction of the motion in progress. -/
def Axis.movingPos (x : Axis) : Option Bool :=
  match x.st with
  | .moving => x.queue.head?.map (·.pos)
  | .stopping => some x.stopPos
  | _ => none

/-- The limit input in a direction. -/
def Axis.limit (x : Axis) (positive : Bool) : Limit := if positive then x.limPos else x.limNeg

/-- A limit that is active in the direction of the motion stops the axis by its mode; mode 0 ignores it (R390). -/
def limitActs (a : Nat) (positive : Bool) (s : State) : Option Bool :=
  let x := s.axis a
  let l := x.limit positive
  if l.active && l.mode ≠ 0 && x.movingPos = some positive then some (l.mode = 1) else none

/-- A move enters the queue (R387 to R389), at once on an idle axis. One that enters after the deceleration toward the end of
the queue has begun joins at V_START, which that deceleration reaches at the joint. -/
def enqueueMove (a : Nat) (m : Move) (s : State) : State :=
  let x := s.axis a
  if x.st ≠ .moving then startMove a s.time.toNat none (s.modAxis a fun x => { x with queue := [m] })
  else
    let late := (x.progress s.time).slow && towardEnd x.vStart x.jerkNow x.queue &&
      (x.queue.getLast?.map fun l => blended l m).getD false
    let s := s.modAxis a fun x => { x with queue := x.queue ++ [{ m with late := late }] }
    if late then present 0x01E4 (some a) 0 (s.modAxis a fun x => { x with starved := x.starved.inc }) else s

end Sys2Proof.Machine
end

