-- ==== Sys2Proof/Machine/PressOps.lean ====
section
/-!
DEFINITION. Operations of Press imaging and process (spec/06_press_imaging.md, spec/07_press_process.md): media phase,
sweeps and their admission, dead beams, tables of a page, top edges, heaters and role interlocks.
-/
namespace Sys2Proof.Machine

open Sys2Proof

/-! ### Media phase (R192 to R194) -/

/-- The phase of a pacing source at a time in sub-ticks (R192), 48.16. -/
def pacePhase (s : State) (kind pace : Nat) (t : Int) : Int :=
  if kind = 0 then s.phaseAt pace t else axisPhase s pace (BitVec.ofInt 64 (t / 64))

/-- A difference of two phases, modulo 2^48 counts, signed (R90). -/
def phaseDiff (a b : Int) : Int := asSigned 64 (pattern 64 (a - b))

/-- P(t) of a job on a station, in 2^-32 line (R193). -/
def mediaPhase (s : State) (i : Nat) (j : Job) (t : Int) : Int :=
  (phaseDiff (pacePhase s j.media.kind j.media.pace t) j.phiTop - at' j.media.offsets i 0 * 65536) * j.media.linesPerCount

/-- Time of a sweep's mid-scan: half its line after the start of scan (log entry 28). -/
def midScan (s : State) (i n : Nat) : Int :=
  let st := s.station i
  s.predict st.bdSource (n * 65536) + nsSub st.sosNs + (s.synth i).span st.pixels st.pixels / 2 ^ 17

/-- L0 of a media phase (R187). -/
def startLine (p : Int) : Int := (p + 2 ^ 31) / 2 ^ 32

/-- The banding value of a sweep, 2.30 (R186, R266): the controller's output for the drum phase at mid-scan. -/
def bandingOf (s : State) (i n : Nat) : Int :=
  match (s.station i).banding with
  | none => 0
  | some k =>
    let r := s.repctl k
    let phi := s.phaseAt r.source (midScan s i n) - (s.source r.source).n0.toNat * 65536
    let idx := if r.counts = 0 then 0
      else ((phi % (r.counts * 65536 : Int)) * r.period / (r.counts * 65536 : Int)).toNat
    clampI (-2 ^ 27) (2 ^ 27) (r.entry idx)

/-- Slip of the check source at a sweep's admission exceeds SLIP_LIMIT lines (R194). -/
def slipping (s : State) (j : Job) : Bool :=
  match j.media.check with
  | none => false
  | some c =>
    let check := phaseDiff (s.phaseAt c s.now) j.checkTop
    let pace := phaseDiff (pacePhase s j.media.kind j.media.pace s.now) j.phiTop
    let lines := (check * j.media.ratio - pace * 65536) * j.media.linesPerCount
    (j.media.slipLimit : Int) * 2 ^ 48 < lines.natAbs

/-! ### Tiles of a sweep (R148, R174) -/

/-- The tile row of a page line. -/
def rowOf (line : Int) : Nat := (line / 64).toNat

/-- The tile of a page's row and column on a station. -/
def pageTile (s : State) (i : Nat) (page : BitVec 32) (row column : Nat) : Option Tile :=
  s.lag.tiles.find? fun t =>
    t.allocated && t.owner = .station i && t.page = page && t.origin.toNat = row && t.column.toNat = column

/-- Every tile of the bands that hold a sweep's lines is admitted, or blank in its page (R148, R151). -/
def tilesReady (s : State) (i : Nat) (w : Sweep) : Bool :=
  match sweepJob (s.station i) w with
  | none => true
  | some j =>
    let rows := sweepRows (s.station i) w j
    (j.bands.filter fun b => rows.contains b.row).all fun b => (List.range b.ncol).all fun k =>
      match pageTile s i j.pageId b.row (b.firstCol + k) with
      | some t => t.fill.isNone && (t.admitted || t.blank)
      | none => false

/-- Admission of a sweep's tiles, which the feed core requests (R20): those marked VERIFIED are admitted without a check
(R150). -/
def admitTiles (i : Nat) (w : Sweep) (s : State) : State :=
  match sweepJob (s.station i) w with
  | none => s
  | some j =>
    let rows := sweepRows (s.station i) w j
    s.modTiles fun t =>
      if s.stationFed i && t.allocated && t.owner = .station i && t.page = j.pageId && rows.contains t.origin.toNat && t.verified then
        { t with admitted := true }
      else t

/-! ### Dead beams: who merges whom (R184) -/

def deadAt (dead : BitVec 48) (b : Nat) : Bool := dead.getLsbD b

/-- The dead neighbour that a live beam merges: the lower-indexed one (R184). -/
def mergedBy (dead : BitVec 48) (beams b : Nat) : Option Nat :=
  if deadAt dead b then none
  else if 0 < b ∧ deadAt dead (b - 1) then some (b - 1)
  else if b + 1 < beams ∧ deadAt dead (b + 1) then some (b + 1)
  else none

/-- The live beams that merge a dead one. -/
def coveredBy (dead : BitVec 48) (beams d : Nat) : List Nat :=
  (List.range beams).filter fun b => mergedBy dead beams b = some d

/-! ### Pixels (R168, R174 to R177, R183) -/

/-- The page line that a beam writes in a sweep (R168, R187). -/
def Station.lineOf (st : Station) (w : Sweep) (b : Nat) : Int := w.l0 + (if st.descending then st.beams - 1 - b else b : Nat)

/-- The pixel of an emission index (R168). -/
def Station.column (st : Station) (i : Nat) : Nat := if st.reverse then st.pixels - 1 - i else i

/-- Level of a pixel, and whether it is emitted blank: outside the page, in a blank tile, or in a word that the lane fetch
found uncorrectable (R151, R174, R187, R310). -/
def levelAt (s : State) (i : Nat) (j : Job) (line : Int) (x : Nat) : Nat × Bool :=
  if line < 0 ∨ (j.lines : Int) ≤ line then (0, true)
  else match pageTile s i j.pageId (rowOf line) (x / 512) with
    | none => (0, false)
    | some t =>
      let o := 256 * (line % 64).toNat + x % 512 / 2
      let b := (s.tileByte t.handle o).toNat
      (if x % 2 = 0 then b % 16 else b / 16, t.blank || s.lag.bad.contains (2048 * t.handle + o / 8))

/-- The lane fetch of a page pixel (R27, R308, R310): each word of 16 pixels is one grant of class 1; a word that cannot be
corrected marks the page DAMAGED. -/
def laneFetch (i : Nat) (w : Sweep) (b k : Nat) (s : State) : State :=
  match sweepJob (s.station i) w with
  | none => s
  | some j =>
    let st := s.station i
    let x := st.column k
    let fetch (s : State) (b : Nat) : State :=
      let line := st.lineOf w b
      match pageTile s i j.pageId (rowOf line) (x / 512) with
      | none => s
      | some t =>
        let a := 2048 * t.handle + (256 * (line % 64).toNat + x % 512 / 2) / 8
        let s := if k % 16 = 0 then classGrant 1 s else s
        if s.lag.inject.any fun p => p.1 = a then
          let r := lagReadWord a 0 0 1 s
          if r.1 then r.2 else damageTile t.handle r.2
        else s
    (b :: (mergedBy w.dead st.beams b).toList).foldl fetch s

/-- The Delta entry of a live beam that merges a dead one, 16 × a + e (R183, R184): PAIR where it has two live neighbours,
SINGLE where it has one, or where the other neighbour merges another dead beam (log entry 101). -/
def mergeEntry (st : Station) (t : PageTables) (dead : BitVec 48) (d a e : Nat) : Nat :=
  at' (if (coveredBy dead st.beams d).length = 2 then t.pair else t.single) (16 * a + e) 0

/-- A page pixel of a beam: PC[level] and 40 × boost; none where its line is blank: its beam is dead, the line is outside
the page, or its tile is blank (R175, R176, R183). -/
def pixelOf (s : State) (i : Nat) (w : Sweep) (j : Job) (b k : Nat) : Option (Nat × Nat) :=
  let st := s.station i
  let x := st.column k
  let own := levelAt s i j (st.lineOf w b) x
  let lit := !own.2 && !deadAt w.dead b
  let code := match mergedBy w.dead st.beams b with
    | none => (at' j.tables.pc own.1 0, 40)
    | some d =>
      let other := levelAt s i j (st.lineOf w d) x
      let e := mergeEntry st j.tables w.dead d own.1 (if other.2 then 0 else other.1)
      (at' j.tables.pc (e % 16) 0, 40 + e / 16)
  if lit then some code else none

/-- w' of R176 before its limit: floor(w × f + 0.5), with 40 × boost, banding in 2.30 and throttle in 1/1,024. -/
def scaledWidth (w boost40 : Nat) (banding : Int) (throttle : Nat) : Nat :=
  ((2 * w * boost40 * (2 ^ 30 + banding) * throttle + 40 * 2 ^ 40) / (2 * 40 * 2 ^ 40)).toNat

/-- The provisional energy of a sweep: Σ w' over its pixels with GATE 1 at a thermal factor (R148). -/
def sweepEnergy (s : State) (i : Nat) (w : Sweep) (throttle : Nat) : Nat :=
  match sweepJob (s.station i) w with
  | none => 0
  | some j =>
    let st := s.station i
    ((List.range st.beams).map fun b => ((List.range st.pixels).map fun k => match pixelOf s i w j b k with
      | some (pc, boost) => min 63 (scaledWidth (pc % 64) boost w.banding throttle)
      | none => 0).sum).sum

/-! ### Sweeps (R146, R169, R187, R198) -/

/-- Which job's lines the sweep of a count carries: serial, media phase, and whether it directly follows the last sweep
of an earlier job (R187, R197, R198). Jobs run in submission order: none runs past one that is QUEUED (R195). -/
def sweepOwner (s : State) (i n : Nat) (t : Int) (after : Bool) : List Job → Option (Job × Int × Bool)
  | [] => none
  | j :: js =>
    if j.st = .armed || j.st = .active then
      match j.lastN with
      | some m => if n ≤ m then some (j, mediaPhase s i j t, false) else sweepOwner s i n t (after || m + 1 = n) js
      | none =>
        let p := mediaPhase s i j t
        if 0 ≤ startLine p + (s.station i).beams - 1 then some (j, p, after && j.lastL0.isNone) else none
    else if j.st = .completed then
      match j.lastN with
      | some m => sweepOwner s i n t (after || m + 1 = n) js
      | none => sweepOwner s i n t after js
    else if j.st = .queued then none
    else sweepOwner s i n t after js

/-- The profile of a job's lines (R402): what its page started with; before its start, what it would start with now. The feed
core loads it (R20). -/
def pageRamp (s : State) (i : Nat) (j : Job) : List Int :=
  let x := s.synth i
  if j.lastL0.isSome then j.tables.ramp else if s.stationFed i then x.rampNext.getD x.ramp else x.ramp

/-- The tables that a page starting now keeps. The feed core loads the pixel-code table (R20). -/
def startTables (s : State) (i : Nat) : PageTables :=
  let st := s.station i
  { pc := if s.stationFed i then st.pcNext.getD st.pc else st.pc, skew := st.skewNext.getD st.skew, pair := (st.deltaNext.map (·.1)).getD st.pair,
    single := (st.deltaNext.map (·.2)).getD st.single, ramp := (s.synth i).ramp }

/-- A rollback in progress covers a station. -/
def rollingBack (s : State) (i : Nat) : Bool := match s.rollback with
  | some r => r.stations.contains i
  | none => false

/-- The last sweep of a job commits in this tick: an abort that reaches the Weir now has lost (R163). -/
def lastCommitDue (s : State) (i : Nat) (j : Job) : Bool :=
  let st := s.station i
  match st.sweeps.filter fun w => w.job = some j.serial && !w.committed with
  | [w] => j.st = .active && j.lastN = some w.n && j.abort.isNone && w.admitted && !rollingBack s i &&
    st.links.any fun l => commitDue s l (.sweep i w.n)
  | _ => false

/-- The bias corrections of a station's sweeps: its channels and their duties (R148). -/
def biasOfSweep (s : State) (i : Nat) : List (Nat × Nat) :=
  ((List.range 16).filter fun c => (s.biasOf c).configured && (s.biasOf c).station = i).map fun c => (c, (s.biasOf c).duty)

/-- The count before a sweep's. -/
def before (n : Nat) : Nat := (n + 2 ^ 48 - 1) % 2 ^ 48

/-- The plan of a sweep: its job, line, loop corrections and events (R148, R154, R187). -/
def planSweep (s : State) (i n : Nat) (rebuilt : Bool) : Sweep :=
  let st := s.station i
  let own := sweepOwner s i n (midScan s i n) (st.lastSweep = some (before n)) st.jobs
  let p := (own.map fun o => o.2.1).getD 0
  { n := n, job := own.map fun o => o.1.serial, l0 := startLine p, p := p,
    lead := match own with
      | some (_, _, true) => (startLine p).toNat
      | _ => 0,
    prevP := match own with
      | some (j, _) => mediaPhase s i j (midScan s i (before n))
      | none => 0,
    dead := st.dead, banding := bandingOf s i n, throttle := 1024, bias := biasOfSweep s i, energy := 0, admitted := true,
    ready := false, rebuilt := rebuilt, committed := false, blank := false, left := st.sweepEvents own.isSome,
    next := List.replicate st.beams 0 }

/-- What a planned sweep tells its job: its last sweep (R187), the tables of its page, and slip (R194). -/
def noteSweep (i : Nat) (w : Sweep) (s : State) : State :=
  match sweepJob (s.station i) w with
  | none => s
  | some j =>
    let slip := slipping s j
    let tables := startTables s i
    let last := (j.lines : Int) - 1 ≤ w.l0 + (s.station i).beams - 1
    let s' := s.modJobs i fun k => if k.serial = j.serial then
        { k with lastN := if last then some w.n else k.lastN, tables := if j.lastL0.isNone then tables else k.tables,
                 flags := if slip then k.flags ||| jobSlip else k.flags }
      else k
    if slip && j.flags &&& jobSlip = 0 then present 0x00C3 (some i) 0 s' else s'

/-- An admitted sweep whose tiles are admitted is ready, with its provisional energy (R148). -/
def prepareSweep (s : State) (i : Nat) (w : Sweep) : Sweep :=
  if tilesReady s i w then { w with ready := true, energy := sweepEnergy s i w (stationFactor s i) } else w

/-- The sweep of a count enters the window and is admitted (R146, R148); during a rollback it waits for its end. -/
def admitSweep (i n : Nat) (s : State) : State :=
  if (s.station i).sweeps.any fun w => w.n = n then s
  else
    let w := { planSweep s i n (rollingBack s i) with admitted := !rollingBack s i }
    let s := noteSweep i w s
    let s := if w.admitted then admitTiles i w s else s
    let w := if w.admitted then prepareSweep s i w else w
    s.modStation i fun st => { st with sweeps := st.sweeps ++ [w] }

/-- Sweeps that enter the window at the accepted edge of count `n` (R146). -/
def windowSweeps (st : Station) (n : Nat) : List Nat :=
  (List.range (max 1 (st.ra.inForce / max 1 st.beams) + 1)).map fun k => (n + k) % 2 ^ 48

/-- Admitted sweeps of a station become ready when their tiles are (R148). -/
def readySweeps (i : Nat) (s : State) : State :=
  s.modStation i fun st => { st with sweeps := st.sweeps.map fun w =>
    if !w.committed && w.admitted && !w.ready then prepareSweep s i w else w }

/-! ### Dead beams (R181 to R185) -/

/-- UNCOVERED_MASK (R184). -/
def uncovered (dead : BitVec 48) (beams : Nat) : List Nat :=
  (List.range beams).filter fun d => deadAt dead d && coveredBy dead beams d = []

/-- More than DELTA_MAX dead beams, or an uncovered one (R185). -/
def deltaExhausted (st : Station) : Bool :=
  st.deltaMax < ((List.range 48).filter (deadAt st.dead)).length || uncovered st.dead st.beams ≠ []

/-- Delta is exhausted now: new pages are refused until press.delta.clear, the active page is DAMAGED, and where it was not
exhausted before, PI_DELTA_EXHAUSTED is raised (R185). -/
def noteExhausted (i : Nat) (before : Bool) (s : State) : State :=
  if !deltaExhausted (s.station i) then s
  else
    let s := (s.modStation i fun st => { st with exhausted := true }).modJobs i fun j =>
      if j.st = .active then { j with flags := j.flags ||| jobDamaged } else j
    if before then s else present 0x00A1 (some i) 0 s

/-- A beam is declared dead (R181, R182, R185). -/
def declareDead (i b : Nat) (count : Station → Station) (s : State) : State :=
  if deadAt (s.station i).dead b then s
  else
    let before := deltaExhausted (s.station i)
    let s := present 0x00A0 (some i) b (s.modStation i fun st => count { st with dead := st.dead ||| (1#48 <<< b) })
    noteExhausted i before (s.modJobs i fun j => if j.st = .active then { j with flags := j.flags ||| jobDelta } else j)

/-- The slot tests of the firings around the edge before count `n` are judged (R181). -/
def judgeSlots (i n : Nat) (s : State) : State :=
  let st := s.station i
  let due := st.slotFired.filter fun p => p.1 ≠ n
  let s := due.foldl (fun s p =>
    let b := st.slotBeam p.1 p.2
    if st.slotSeen.contains p then s.modStation i fun st => { st with missRun := modAt st.missRun b fun _ => 0 }
    else
      let s := s.modStation i fun st => { st with missRun := modAt st.missRun b (· + 1) }
      if st.deadSweeps ≤ at' (s.station i).missRun b 0 then
        declareDead i b (fun st => { st with byBd := st.byBd.inc }) s
      else s) s
  s.modStation i fun st =>
    { st with slotFired := st.slotFired.filter (fun p => p.1 = n), slotSeen := st.slotSeen.filter fun p => p.1 = n }

/-- An edge within the beam-detect group of count `n`: it is a slot's, the lead's, or a stray one (R81, R181). The
lead's matches as a slot's does, to a quarter of BD_SLOT either way (log entry 102). -/
def groupEdge (i n : Nat) (stamp : Int) (s : State) : State :=
  let st := s.station i
  let edge := s.predict st.bdSource (n * 65536)
  let slot := nsSub (10 * st.slot10)
  let near (j : Nat) : Bool := 4 * (stamp - edge - j * slot).natAbs ≤ slot.natAbs
  match (List.range st.slots).find? fun j => near (j + 1) with
  | some j => s.modStation i fun st => { st with slotSeen := st.slotSeen ++ [(n, j + 1)] }
  | none =>
    if near 0 then s
    else present 0x00A4 (some i) 0 (s.modStation i fun st => { st with stray := st.stray.inc })

/-! ### Beam-detect edges (R146, R169) -/

/-- The stations of a beam-detect source. -/
def bdStations (s : State) (src : Nat) : List Nat :=
  (List.range 4).filter fun i => (s.station i).configured && (s.station i).bdSource = src

/-- An accepted edge of count `n` of a station's BD source, with its stamp in sub-ticks: with no page active a waiting
profile takes effect (R402); the output divider is reset before the line that the edge begins takes its place, unless the
synthesiser is unlocked (R403, R404). -/
def synthEdge (i n : Nat) (stamp : Int) (s : State) : State :=
  let s := if pageActive s i then s else applyRamp i s
  let st := s.station i
  let ramp := match (st.sweeps.find? fun w => w.n = n).bind (sweepJob st) with
    | some j => pageRamp s i j
    | none => (s.synth i).ramp
  let locked := s.clk.locked.getLsbD (3 + i)
  s.modSynth i fun x =>
    { x with resetAt := if x.bdReset && locked then some stamp else x.resetAt,
             lines := ⟨stamp + nsSub st.sosNs, ramp, st.pixels⟩ :: x.lines.take 1 }

/-- The accepted edge of count `n` of a station's BD source in TRACK: the window advances; while every lane is gated nothing
is held (R173). -/
def pressEdge (i n : Nat) (s : State) : State :=
  let s := judgeSlots i n s
  if (s.station i).links.all fun l => (s.link l).gated then s
  else (windowSweeps (s.station i) n).foldl (fun s m => admitSweep i m s) s

/-! ### Top edges (R193, R196) -/

/-- An accepted edge of a source that may be the TOP_SOURCE, with its stamp in sub-ticks: the oldest PAGE_ID with a job
QUEUED and none that has taken an edge takes it (log entry 75). -/
def topEdge (src : Nat) (stamp : Int) (s : State) : State :=
  if s.mci.personality ≠ .press || s.media.top ≠ src then s
  else
    let jobs := s.stations.flatMap (·.jobs)
    let edged (page : BitVec 32) : Bool := jobs.any fun j => j.pageId = page && j.st ≠ .queued
    let queued := jobs.filter fun j => j.st = .queued && !edged j.pageId
    match queued.foldl (fun (b : Option Job) j => match b with
      | none => some j
      | some k => if j.serial < k.serial then some j else some k) none with
    | none => present 0x00C1 none 0 { s with topUnmatched := s.topUnmatched.inc }
    | some first =>
      let phi := pacePhase s s.media.kind s.media.pace stamp
      let check := match s.media.check with
        | some c => s.phaseAt c stamp
        | none => 0
      let arm (j : Job) : Job :=
        if j.st = .queued && j.pageId = first.pageId then
          { j with st := .armed, media := s.media, phiTop := phi, checkTop := check }
        else j
      { s with stations := s.stations.map fun st => { st with jobs := st.jobs.map arm } }

/-! ### The start of a page (R175, R149, R207) -/

/-- Duty of an open-loop channel (R206). -/
def openDuty (b : Bias) : Nat := (clampI 0 4095 (nearest (b.setpoint * 4095) b.fullScale)).toNat

/-- A setpoint takes effect on its channel (R206, R207): as duty in open loop, as reference with LOOP. -/
def applySetpoint (c : Nat) (v : Int) (s : State) : State :=
  let s := s.modBias c fun b => { b with setpoint := v, setNext := none }
  let b := s.biasOf c
  match b.loop with
  | some l => setRef l (openDivI (v * 4095 * 2 ^ 18) b.fullScale) s
  | none => if b.held || b.raw.isSome || s.flt.fatal.isSome then s else s.modBias c fun b => { b with duty := openDuty b }

/-- The first sweep of a job commits: its tables, the window and the setpoints that waited take effect. -/
def startPage (i : Nat) (j : Job) (s : State) : State :=
  let s := s.modStation i fun st =>
    { st with
      pc := j.tables.pc, skew := j.tables.skew, pair := j.tables.pair, single := j.tables.single,
      pcNext := if st.pcNext = some j.tables.pc then none else st.pcNext,
      skewNext := if st.skewNext = some j.tables.skew then none else st.skewNext,
      deltaNext := if st.deltaNext = some (j.tables.pair, j.tables.single) then none else st.deltaNext,
      ra := { st.ra with inForce := st.ra.window } }
  let ramp := pageRamp s i j
  let fed := s.stationFed i
  let s := s.modJobs i fun k => if k.serial = j.serial then { k with tables := { k.tables with ramp := ramp } } else k
  let s := s.modSynth i fun x => { x with ramp := ramp, raised := false, rampNext := if fed then none else x.rampNext }
  (List.range 16).foldl (fun s c => match (s.biasOf c).setNext with
    | some v => if (s.biasOf c).station = i then applySetpoint c v s else s
    | none => s) s

/-! ### Heaters (R208 to R210) -/

/-- A heater-off cause is set: acc is cleared and what has not been triggered is suppressed (R208). -/
def heaterOff (h : Nat) (s : State) : State :=
  s.modHeater h fun x => { x with off := true, acc := 0, fire := 0 }

/-- A zero-cross source has left TRACK: its heaters stop, which is raised once, for the lowest of them (R209). -/
def mainsLost (src : Nat) (s : State) : State :=
  let hs := (List.range 4).filter fun h => (s.heater h).configured && (s.heater h).zc = src
  if hs = [] then s else present 0x00C7 hs.head? 0 (hs.foldl (fun s h => heaterOff h s) s)

/-! ### Role interlocks of Press (R203, R204) -/

/-- A role input or the withdrawn emission permit holds gate cause 2 on a link (R204, R231, R247). -/
def roleHolds (s : State) (l : Nat) : Bool :=
  s.forge.permitLost || (List.range 32).any fun g =>
    let x := s.gpiOf g
    if x.forge then x.gated && (x.heads = 0 || x.heads.getLsbD l)
    else x.active && x.role ≠ 0 && (List.range 4).any fun i =>
      x.stations.getLsbD i && (s.station i).links.contains l && !x.pendingStations.contains i

/-- Gate cause 2 clears on the links that no role holds (R204). -/
def roleUngate (s : State) : State := clearCause 2 ((List.range 24).filter fun l => !roleHolds s l) s

/-- A role of Press becomes active on an input (R203, R204). A stop of JAM raises MO_PACE_STOPPED also where the gate of this
tick has just aborted the job that its axis paced (R395). -/
def roleActive (g : Nat) (s : State) : State :=
  let x := s.gpiOf g
  let sts := (List.range 4).filter fun i => x.stations.getLsbD i
  let now := if x.role = 2 then sts.filter fun i => !pageActive s i else sts
  let paced := (maskBits 16 x.axes.toNat).filter fun a => (s.axis a).st ≠ .halted && (s.axis a).st ≠ .stopping && pacing s a
  let s := s.modGpi g fun x => { x with active := true, pendingStations := sts.filter fun i => !now.contains i }
  let s := setCauseBy 2 (now.flatMap fun i => (s.station i).links) 2 g 0 s
  let s := (maskBits 4 x.heaters.toNat).foldl (fun s h => heaterOff h s) s
  let stop (s : State) (a : Nat) : State :=
    stopAxis a false 6 (if paced.contains a && !pacing s a then present 0x01E3 (some a) 0 s else s)
  let s := if x.role = 3 then (maskBits 16 x.axes.toNat).foldl stop s else s
  present 0x00C0 (some g) 0 s

/-- A role of Press becomes inactive (R204). -/
def roleInactive (g : Nat) (s : State) : State :=
  roleUngate (s.modGpi g fun x => { x with active := false, pendingStations := [] })

/-- A debounced input is active. -/
def Gpi.on (x : Gpi) : Bool := x.st ≠ x.activeLow

end Sys2Proof.Machine
end

