-- ==== Sys2Proof/Machine/Timebase.lean ====
section
/-!
DEFINITION. Confluence (spec/03_phase_timebase.md): edge capture, the tracking filter, source states, sync domains, and
the commands of group 0x02.
-/
namespace Sys2Proof.Machine

open Sys2Proof

def Status.sourceInUse : Nat := 0x8201

/-! ### Source states (R92, R101) -/

/-- Tolerance in force, sub-ticks (R101): 2 ns in Press and before a selection, 50 ns in Forge. One that
timebase.filter.raw has set stays over a selection (log entry 67). -/
def tolerance (s : State) (x : Source) : Int :=
  if x.tol ≠ 0 then x.tol else if s.mci.personality = .forge then 5120 else 204

/-- P of NOMINAL_RATE, 2^-16 tick, rounded to nearest (R92, log entry 66). -/
def nominalP (x : Source) : Int := roundDiv (1600000000 * 65536) x.nominal

/-- A source enters ACQUIRE afresh (R89, R92). -/
def Source.acquire (x : Source) : Source :=
  { x with st := .acquire, p := nominalP x, primed := false, acqCount := 0, runCount := 0 }

/-- A source has left TRACK: heaters of a mains source stop (R209), and search firing may begin (R172). -/
def leftTrack (i : Nat) (s : State) : State :=
  refreshSearch (if i = 24 || i = 25 then mainsLost i s else s)

/-- A source enters TRACK (R95, R97): n0 is its count unless it is an encoder with Z_ALIGN, and profiles clear. -/
def enterTrack (i : Nat) (s : State) : State :=
  let s := s.modSource i fun x =>
    { x with st := .track, runCount := 0, n0 := if i < 16 && x.flags.getLsbD 3 then x.n0 else x.n }
  clearRepctls i s

/-- A source loses its input (R92, R93): STILL with STANDSTILL_OK when edges are missing, LOST otherwise. -/
def loseSource (i : Nat) (missing : Bool) (s : State) : State :=
  let bound := anchoredLanes s i ≠ 0
  let was := (s.source i).st = .track
  let still := missing && (s.source i).flags.getLsbD 4
  let s := s.modSource i fun x => { x with st := if still then .still else .lost, acqCount := 0, runCount := 0 }
  let s := if missing && !still then present (if bound then 0x0040 else 0x0041) (some i) 0 s else s
  if was then leftTrack i s else refreshSearch s

/-! ### Edge capture (R80, R81, R84 to R86) -/

/-- An edge of a single input counts on this source (R80, timebase.source.set FLAGS). -/
def levelCounts (i : Nat) (x : Source) (rising : Bool) : Bool :=
  if i < 16 then false
  else if i < 24 then rising ≠ x.flags.getLsbD 0
  else if i < 26 then true
  else i < 34 && (x.flags.getLsbD 1 || rising ≠ x.flags.getLsbD 0)

/-- DEGLITCH of a source in ticks: it counts microseconds for the mains sources (R84). A camera source has no input to
filter, and its DEGLITCH delays nothing (log entry 97). -/
def Source.deglitchTicks (x : Source) (i : Nat) : Nat :=
  if i = 24 || i = 25 then 1600 * x.deglitch else if i < 34 then x.deglitch else 0

/-- A transition gets through the DEGLITCH filter of input `k` of a source: the level that follows it lasts DEGLITCH, and
differs from the level behind the filter (R84). -/
def Source.accepts (x : Source) (k : Nat) (p : PinEdge) : Bool := x.deglitch ≤ p.held && p.level ≠ x.levels.getLsbD k

/-- The levels behind the filter after an accepted transition of input `k`. -/
def setLevel (k : Nat) (v : Bool) (b : BitVec 3) : BitVec 3 :=
  if v then b ||| (1#3 <<< k) else b &&& ~~~(1#3 <<< k)

/-- One step of A or of B is forward: A leads B (log entry 68). -/
def stepForward (levels : BitVec 3) (a : Bool) : Bool :=
  if a then levels.getLsbD 0 = levels.getLsbD 1 else levels.getLsbD 0 ≠ levels.getLsbD 1

/-- An accepted edge that counts takes its place in the FIFO (R86); one within GROUP_WINDOW of the first of a beam-detect
group does not advance the count (R81). One that is lost to a full FIFO starts no group (log entry 97). -/
def countEdge (i : Nat) (d stamp : Int) (s : State) : State :=
  let x := s.source i
  let inGroup := 16 ≤ i && i < 24 && match x.groupStart with
    | some t => t ≤ stamp && 10 * (stamp - t) ≤ x.groupWindow * 1024
    | none => false
  let s := pushEdge i { stamp := stamp, delta := if inGroup then 0 else d, illegal := x.illegalNext } s
  if 16 ≤ x.fifo.length then s
  else
    s.modSource i fun x =>
      { x with illegalNext := false, groupStart := if inGroup then x.groupStart else some stamp,
               nCapture := if inGroup then x.nCapture else x.nCapture + BitVec.ofInt 48 d }

/-- A sample in which A and B both change: the count is kept, and the next edge is taken as above tolerance (R85). -/
def illegalStep (i : Nat) (s : State) : State :=
  present 0x0048 (some i) 0 (s.modSource i fun x => { x with missed := x.missed.inc, illegalNext := true })

/-- An edge at an input of a source (R83 to R86). Each level of each input is judged by DEGLITCH: a transition whose level
lasts less, and the one that ends it, change nothing. -/
def captureEdge (i : Nat) (e : EdgeIn) (s : State) : State :=
  let x := s.source i
  let on := x.st ≠ .off
  let stamp : Int := 64 * (e.stamp.toNat : Int)
  match e.kind with
  | .frame => if 34 ≤ i && i < 50 && on then countEdge i 1 stamp s else s
  | .level p =>
    if i < 16 || 34 ≤ i || !x.accepts 0 p then s
    else
      let s := s.modSource i fun x => { x with levels := setLevel 0 p.level x.levels }
      if on && levelCounts i x p.level then countEdge i 1 stamp s else s
  | .index p =>
    if 16 ≤ i || !x.accepts 2 p then s
    else s.modSource i fun x =>
      { x with levels := setLevel 2 p.level x.levels, n0 := if on && x.flags.getLsbD 3 then x.nCapture else x.n0 }
  | .quad a b =>
    if 16 ≤ i then s
    else
      let a := a.filter (x.accepts 0)
      let b := b.filter (x.accepts 1)
      let s := s.modSource i fun x =>
        { x with levels := (b.map fun p => setLevel 1 p.level).getD id ((a.map fun p => setLevel 0 p.level).getD id x.levels) }
      if !on then s
      else match a, b with
        | none, none => s
        | some _, some _ => illegalStep i s
        | _, _ => countEdge i (if stepForward x.levels a.isSome ≠ x.flags.getLsbD 2 then 1 else -1) stamp s

/-- EDGE_CAPTURE (R83, R84): an edge is accepted DEGLITCH after its stamp, and that time has come (log entry 4). -/
def execEdgeCapture (source : Nat) (e : EdgeIn) (s : State) : Out :=
  .next (captureEdge source e (s.advanceTo (e.stamp.toNat + (s.source source).deglitchTicks source)))

/-! ### The tracking filter (R89) -/

/-- A whole count moves, with its EPOCH (R87). -/
def Source.count (x : Source) (d : Int) : Source :=
  let v : Int := x.n.toNat + d
  { x with n := BitVec.ofInt 48 v,
           epoch := if 2 ^ 48 ≤ v then x.epoch + 1 else if v < 0 then x.epoch - 1 else x.epoch }

/-- Settings that wait take effect at the source's next accepted edge (timebase.filter.raw). -/
def Source.takeRaw (x : Source) : Source :=
  match x.raw with
  | none => x
  | some r =>
    let x := if r.gains then { x with alpha := r.alpha, beta := r.beta, tol := r.tol } else x
    { x with lostIntervals := r.lost, acquireEdges := r.acq, runLimit := r.run, raw := none }

/-- The filter update of R89 for an edge that moves the count by `d`, with the learned entry of its index: the source
after it, and e. P is not held to the width of 32.16 (log entry 97). -/
def Source.update (x : Source) (d t c : Int) : Source × Int :=
  let that := roundDiv (x.tN * 1024 + d * x.p) 1024
  let e := t - c - that
  ({ x.count d with tN := roundDiv (that * 65536 + x.alpha * e) 65536,
                    p := roundDiv (x.p * 64 * d + x.beta * e) (64 * d), lastError := e }, e)

/-- The controller bound to the source receives k and e, with the time of both (R94, R267). -/
def giveError (i : Nat) (e : Int) (s : State) : State :=
  let x := s.source i
  match x.repctl with
  | some r =>
    if x.period = 0 then s
    else s.modRepctl r fun r => { r with pending := r.pending ++ [(x.index x.n.toNat, e, s.time)] }
  | none => s

/-- An accepted edge that counts reaches the tracker in ACQUIRE or TRACK. -/
def trackEdge (i : Nat) (ed : FifoEdge) (s : State) : State :=
  let x := (s.source i).takeRaw
  let n' : Int := x.n.toNat + ed.delta
  let c := s.profile i n'
  if !x.primed then
    s.modSource i fun _ => { x.count ed.delta with tN := ed.stamp - c, primed := true, acqCount := 0 }
  else
    let r := x.update ed.delta ed.stamp c
    let above := ed.illegal || tolerance s x < r.2.natAbs
    let s := giveError i r.2 (s.modSource i fun _ => r.1)
    if x.st = .acquire then
      let k := if above then 0 else x.acqCount + 1
      let s := s.modSource i fun x => { x with acqCount := k }
      if x.acquireEdges ≤ k then refreshSearch (enterTrack i s) else s
    else if above then
      let lanes := anchoredLanes s i
      let s := if lanes = 0 then s else rollbackTrigger 1 lanes s
      let s := present 0x0043 (some i) 0 (s.modSource i fun x =>
        { x with rollbacks := x.rollbacks.inc, runCount := x.runCount + 1 })
      if x.runLimit ≤ x.runCount + 1 then loseSource i false (present 0x0044 (some i) 0 s) else s
    else s.modSource i fun x => { x with runCount := 0 }

/-- TRACKER_EDGE_UPDATE (R86, R89, R92): the tracker takes the oldest edge of the FIFO, 32 ticks after the one before it
at the earliest (log entry 4). An edge of a beam-detect group
that does not count goes to Delta detection (R81); an accepted edge of a BD source in TRACK advances the window (R146);
every accepted edge begins a line of
the synthesiser (R402, R403); an edge of the TOP_SOURCE is assigned to a page (R196). -/
def execTrackerEdgeUpdate (source : Nat) (s : State) : Out :=
  match (s.source source).fifo with
  | [] => .next s
  | ed :: rest =>
    let s := match (s.source source).takenAt with
      | some t => s.advanceTo (t.toNat + 32)
      | none => s
    let s := s.modSource source fun x => { x with fifo := rest, takenAt := some s.time }
    let x := s.source source
    if ed.delta = 0 then
      .next ((bdStations s source).foldl (fun s i => groupEdge i x.n.toNat ed.stamp s) s)
    else
      let s := if x.st = .lost || x.st = .still then s.modSource source Source.acquire else s
      let s := trackEdge source ed s
      let s := (bdStations s source).foldl (fun s i => synthEdge i (s.source source).n.toNat ed.stamp s) s
      let s := if 26 ≤ source && source ≤ 33 then topEdge source ed.stamp s else s
      if (s.source source).st = .track then
        .next ((bdStations s source).foldl (fun s i => pressEdge i (s.source source).n.toNat s) s)
      else .next s

/-- The time at which a source whose edges are missing is lost: LOST_INTERVALS intervals after the predicted edge (R90,
R92), which is the next in the direction of P. -/
def lostTime (s : State) (i : Nat) : Int :=
  let x := s.source i
  s.predict i ((x.n.toNat + (if x.p < 0 then -1 else 1)) * 65536) + roundDiv (x.lostIntervals * x.p.natAbs) 1024

/-- SOURCE_LOST_TIMEOUT (R92, R93; log entry 4): no edge for LOST_INTERVALS intervals after the predicted one. -/
def execSourceLostTimeout (source : Nat) (s : State) : Out :=
  let x := s.source source
  if source < 50 && ((x.st = .acquire && x.primed) || x.st = .track) then
    .next (loseSource source true (s.advanceSub (lostTime s source)))
  else .next s

/-! ### Sync domains (R104 to R111) -/

/-- The remote sources of a device. -/
def remoteOf (d : Nat) : List Nat := (List.range 4).map fun j => 64 + 4 * d + j

/-- A remote source that is enabled enters HOLDOVER (R92). -/
def holdover (is : List Nat) (s : State) : State :=
  let s := is.foldl (fun s i =>
    s.modSource i fun x => if x.st = .off then x else { x with st := .holdover, acqCount := 0 }) s
  refreshSearch s

/-- A bus violation is logged with INTERFACE 3 (R110). -/
def syncViolation (unit code slot : Nat) (s : State) : State :=
  logViolation 3 unit code (s.sync.frame % 65536 + slot * 65536) s

/-- Completion payload of timebase.sync.config. -/
def syncPayload (s : State) : List Byte :=
  leBytes 1 s.sync.st ++ leBytes 1 1 ++ leBytes 1 s.sync.peers.toNat ++ zeros 1 ++ leBytesI 4 s.sync.offset ++
  s.sync.crcErrors.bytes

/-- A join in progress ends FAILED: the device stays standalone (R107, R108). -/
def joinFails (s : State) : State :=
  match s.sync.join with
  | none => s
  | some c =>
    let s := { s with sync := { s.sync with mode := 0, st := 0, join := none, joinStep := 0 } }
    complete c Status.failed (syncPayload s) s

/-- A slot of 200 driven bits (R105): bit 0 first, each field least significant bit first (log entry 34). -/
def slotWord (type tag count time period : Nat) : BitVec 200 :=
  let body := 0b10100111 + 1 * 2 ^ 8 + type % 16 * 2 ^ 12 + tag % 256 * 2 ^ 16 + count % 2 ^ 48 * 2 ^ 24 +
    time % 2 ^ 64 * 2 ^ 72 + period % 2 ^ 48 * 2 ^ 136
  BitVec.ofNat 200 (body + (slotCrc body).toNat * 2 ^ 184)
where
  slotCrc (body : Nat) : BitVec 16 :=
    (List.range 184).foldl (fun c k => crc16Shift (c ^^^ (if body.testBit k then 0x8000 else 0))) 0xFFFF

/-- The CRC of a slot matches bits 0 to 183. -/
def slotGood (w : BitVec 200) : Bool := (slotWord.slotCrc (w.toNat % 2 ^ 184)).toNat = w.toNat / 2 ^ 184 % 2 ^ 16

/-- The next published source in rotation; none if the device publishes nothing. -/
def nextPublished (y : SyncBus) : Option Nat :=
  ((List.range 4).map fun k => (y.rot + k) % 4).find? fun j => at' y.publish j 255 ≠ 255

/-- When the next frame starts (R105): the master's frames start at the multiples of 32,000 ticks (log entry 4); a peer
hears a frame start when it comes. -/
def frameDue (s : State) : Nat :=
  let y := s.sync
  let next := ceilDiv s.time.toNat 32000 * 32000
  if y.mode = 1 then (if y.txSlot.isSome && y.frameAt.toNat = next then next + 32000 else next) else 0

/-- SYNC_FRAME_START (R105, R106, R109): a frame starts, and the device drives its slot. A peer's slewing waits for the
comparison of its time with this frame start. The slot that echoes is TYPE 3, and a peer in holdover drives none (log
entry 69). -/
def execSyncFrameStart (s : State) : Out :=
  let s := s.advanceTo (frameDue s)
  let y := s.sync
  if y.mode = 0 then .next { s with sync := { y with txSlot := none } }
  else
    let frame := if y.mode = 1 then s.time.toNat / 32000 else y.frame + 1
    let y := { y with frame := frame, frameAt := s.time, masterTime := y.masterTime + 32000, owed := 0 }
    let idle := slotWord 3 0 0 0 0
    if y.mode = 1 && frame % 16 = 0 then
      let t := frame * 32000
      .next { s with sync := { y with txSlot := some (slotWord 1 0 (t / 2 ^ 16) (t % 2 ^ 16) 0) } }
    else match (if y.mode = 1 then y.reports else []) with
      | (peer, delay) :: rest =>
        .next { s with sync := { y with reports := rest, txSlot := some (slotWord 2 peer delay 0 0) } }
      | [] =>
        if y.st ≠ 2 && y.mode = 2 then .next { s with sync := { y with txSlot := if y.joinStep = 3 then some idle else none } }
        else match nextPublished y with
          | none => .next { s with sync := { y with txSlot := some idle } }
          | some j =>
            let x := s.source (at' y.publish j 255)
            .next { s with sync := { y with
              rot := j + 1, txSlot := some (slotWord 0 j x.n.toNat (pattern 64 x.tN) (pattern 48 x.p)) } }

/-- A TYPE 0 slot refreshes a remote source that is enabled (R106), its EPOCH with a wrap of the count (R87): HOLDOVER to
ACQUIRE, unless the device itself is in holdover (R111), and ACQUIRE to TRACK. -/
def remoteState (i : Nat) (count time period : Nat) (s : State) : State :=
  let x := s.source i
  if x.st = .off then s
  else
    let s := s.modSource i fun x =>
      let x := if x.heard then x.count (asSigned 48 (pattern 48 ((count : Int) - x.n.toNat))) else x
      { x with n := BitVec.ofNat 48 count, tN := asSigned 64 time, p := asSigned 48 period, heard := true, primed := true }
    if x.st = .holdover then
      if s.sync.mode = 2 && s.sync.st = 3 then s else s.modSource i fun x => { x with st := .acquire }
    else if x.st = .acquire then refreshSearch (enterTrack i s)
    else s

/-- A peer enters holdover (R110, R112): its time runs free, and every remote source enters HOLDOVER. -/
def peerHoldover (rejoin : Bool) (s : State) : State :=
  holdover ((List.range 32).map (64 + ·)) (present 0x0045 none 0
    { s with sync := { s.sync with st := 3, owed := 0, rejoin := rejoin, aligning := false } })

/-- A peer compares its time with the frame start (R109 to R111) and slews by the offset: above 10 ns is a violation, with
no fault while it aligns after a holdover; above 100 ns it enters holdover until a new join; within 100 ns it leaves
another holdover. -/
def compareTime (s : State) : State :=
  let y := s.sync
  let off : Int := 64 * ((y.masterTime - y.frameAt).toInt) + y.delay - y.slew
  let s := { s with sync := { y with offset := off } }
  if y.st = 3 then
    if off.natAbs ≤ 10240 && !y.rejoin then
      { s with sync := { s.sync with st := 2, owed := off, aligning := 1024 < off.natAbs } }
    else s
  else if 10240 < off.natAbs then peerHoldover true (present 0x0046 none 0 (syncViolation y.index 5 0 s))
  else
    let s := { s with sync := { s.sync with owed := off, aligning := y.aligning && 1024 < off.natAbs } }
    if off.natAbs ≤ 1024 then s
    else
      let s := syncViolation y.index 5 0 s
      if y.aligning then s else present 0x0046 none 0 s

/-- The master takes the first good slot of TYPE 3 of a device it has not heard as its echo, and owes it half the round trip
that it measures, whose rounding is open (R106, R107, log entries 9, 34 and 69). -/
def takeEcho (dev late : Nat) (s : State) : State :=
  { s with sync := { s.sync with reports := s.sync.reports ++ [(dev, openDiv late 2 % 2 ^ 48)] } }

/-- SYNC_SLOT_RECEIVE (R105 to R107, R109 to R111): a slot of a device is received, late by some sub-ticks against its
place in the frame: for the master the round trip. -/
def execSyncSlotReceive (dev : Nat) (slot : SlotIn) (s : State) : Out :=
  let y := s.sync
  let w := slot.bits.toNat
  if y.mode = 0 || 8 ≤ dev || w % 256 ≠ 0b10100111 then .next s
  else if y.st = 1 && dev = y.index then .next (joinFails (syncViolation dev 3 dev s))
  else if dev = y.index then .next s
  else if !slotGood slot.bits then
    let run := at' y.crcRun dev 0 + 1
    let s := syncViolation dev 1 dev { s with sync := { y with
      crcErrors := y.crcErrors.inc, crcRun := modAt y.crcRun dev fun _ => run } }
    .next (if run = 8 then present 0x0047 (some dev) 0 s else s)
  else if w / 2 ^ 8 % 16 ≠ 1 then
    let s := { s with sync := { y with
      peers := y.peers &&& ~~~(1#8 <<< dev), crcRun := modAt y.crcRun dev fun _ => 0 } }
    .next (holdover (remoteOf dev) (present 0x0047 (some dev) 0 (syncViolation dev 2 dev s)))
  else
    let s := if y.mode = 1 && !y.peers.getLsbD dev && w / 2 ^ 12 % 16 = 3 then takeEcho dev slot.late s else s
    let s := { s with sync := { s.sync with peers := y.peers ||| (1#8 <<< dev), crcRun := modAt y.crcRun dev fun _ => 0 } }
    let type := w / 2 ^ 12 % 16
    let tag := w / 2 ^ 16 % 256
    let count := w / 2 ^ 24 % 2 ^ 48
    let time := w / 2 ^ 72 % 2 ^ 64
    let s := if type = 0 && tag < 4 then remoteState (64 + 4 * dev + tag) count time (w / 2 ^ 136 % 2 ^ 48) s
      else if type = 1 && dev = 0 then
        let t := count * 2 ^ 16 + time % 2 ^ 16
        { s with sync := { s.sync with masterTime := BitVec.ofNat 64 t, frame := t / 32000 } }
      else if type = 2 && dev = 0 && tag = y.index && y.joinStep = 3 then
        let s := { s with sync := { s.sync with delay := count, st := 2, join := none, joinStep := 0 } }
        match y.join with
        | some c => complete c Status.ok (syncPayload s) s
        | none => s
      else s
    if y.mode = 2 && dev = 0 && (s.sync.st = 2 || s.sync.st = 3) then .next (compareTime s) else .next s

/-- SYNC_MASTER_SILENT (R110): a peer enters holdover and its time runs free. -/
def execSyncMasterSilent (s : State) : Out :=
  if s.sync.mode = 2 && s.sync.st = 2 then
    .next (peerHoldover false (syncViolation s.sync.index 4 0 s))
  else .next s

/-- SYNC_PEER_SILENT (R110). -/
def execSyncPeerSilent (dev : Nat) (s : State) : Out :=
  if s.sync.mode ≠ 0 && dev < 8 && s.sync.peers.getLsbD dev then
    let s := syncViolation dev 6 dev { s with sync := { s.sync with peers := s.sync.peers &&& ~~~(1#8 <<< dev) } }
    .next (holdover (remoteOf dev) (present 0x0047 (some dev) 0 s))
  else .next s

/-- Device time is stepped at a join, with every local T_N (R79, R107). The join deadline, the trackers' 32 ticks and the
window of a beam-detect group and the lines of the synthesisers keep their distance, and the control engine goes on with the ticks of the new time. -/
def stepTime (offset : Int) (s : State) : State :=
  let ticks := offset / 64
  let far (t : BitVec 64) : BitVec 64 := t + BitVec.ofInt 64 ticks
  let moved (i : Nat) (x : Source) : Source :=
    if i < 64 then { x with tN := x.tN + 64 * ticks, takenAt := x.takenAt.map far, groupStart := x.groupStart.map (· + 64 * ticks) }
    else x
  { s with time := far s.time, sources := mapIx moved s.sources,
           engine := { s.engine with
             loops := s.engine.loops.map fun x => { x with lastTick := (far s.time).toNat, outBefore := (x.out, 0) },
             varsBefore := s.engine.vars.map fun v => (v, 0) },
           clk := { s.clk with synths := s.clk.synths.map fun x =>
             { x with lines := x.lines.map fun y => { y with start := y.start + 64 * ticks },
                      resetAt := x.resetAt.map (· + 64 * ticks) } },
           sync := { s.sync with slew := offset % 64, frameAt := s.sync.frameAt + BitVec.ofInt 64 ticks,
                                 joinAt := s.sync.joinAt + BitVec.ofInt 64 ticks } }

/-- SYNC_JOIN_MEASURE (R107, R108): the joining peer has measured its offset to the master, in sub-ticks. -/
def execSyncJoinMeasure (offset : Int) (s : State) : Out :=
  if s.sync.st ≠ 1 || s.sync.joinStep ≠ 1 then .next s
  else
    let s := { s with sync := { s.sync with offset := offset } }
    let busy := (List.range 4).any (pageActive s) || layerActive s
    if s.sync.step && !busy then .next { stepTime offset s with sync := { (stepTime offset s).sync with joinStep := 2 } }
    else if offset.natAbs ≤ 1024 then .next { s with sync := { s.sync with joinStep := 2 } }
    else .next (joinFails s)

/-- SYNC_JOIN_ECHO (R107): the peer echoes the next frame start in its slot. -/
def execSyncJoinEcho (s : State) : Out :=
  if s.sync.st = 1 && s.sync.joinStep = 2 then .next { s with sync := { s.sync with joinStep := 3 } } else .next s

/-- SYNC_JOIN_DEADLINE (R107; log entry 4): a join not complete after 10 ms. -/
def execSyncJoinDeadline (s : State) : Out :=
  if s.sync.join.isSome then .next (joinFails (s.advanceTo (s.sync.joinAt.toNat + 10 * ticksPerMs))) else .next s

/-! ### Commands -/

/-- 2π × 10^40, for R91. -/
def twoPi40 : Nat := 62831853071795864769252867665590057683943

/-- ALPHA and BETA of R91 for a rate in counts/s and a bandwidth in mHz: damping 0.707. -/
def gainsOf (rate bw : Nat) : Nat × Nat :=
  let a := roundDiv (65536 * 14142 * twoPi40 * bw) (10000 * 10 ^ 40 * 1000 * rate)
  let b := roundDiv (65536 * twoPi40 ^ 2 * bw ^ 2) (10 ^ 80 * 1000000 * rate ^ 2)
  (min 65535 a.toNat, min 65535 b.toNat)

/-- A lane of an active page or layer is anchored to the source (SOURCE_IN_USE). -/
def sourceInUse (s : State) (i : Nat) : Bool :=
  let lanes := anchoredLanes s i
  (List.range s.nLinks).any fun l => laneLink lanes l && linkActive s l

/-- A source releases the controller it bound (R94). -/
def releaseRepctl (i : Nat) (s : State) : State :=
  match (s.source i).repctl with
  | some r => unbindRepctl r (s.modSource i fun x => { x with repctl := none })
  | none => s

/-- timebase.source.set (R91, R92, R94, R101). N and EPOCH go on from the source's last count (log entry 70). A controller
named with PERIOD 0 is bound, and learns nothing (log entry 71). -/
def execTimebaseSourceSet (rq : Req) (s : State) : Out :=
  let i := rq.u8 0
  let on := rq.u8 1 = 1
  let loc := i < 64
  let rate := rq.u32 4
  let bw := rq.u32 8
  let tol := rq.u16 12
  let period := rq.u16 16
  let rep := rq.u8 18
  let bad := 63 < rq.u8 2 || rate < 1 || 50000000 < rate || bw < 1 || rate * 50 < bw || (tol ≠ 0 && (tol < 5 || 10000 < tol)) ||
    4096 < period || (7 < rep && rep ≠ 0xFF)
  let other := rep ≠ 0xFF && (s.repctl rep).mode ≠ 0 && (s.repctl rep).mode ≠ 4 && (s.source i).repctl ≠ some rep
  command 0x0201 rq
    [(!sourceExists i, Status.outOfRange), (1 < rq.u8 1, Status.badValue), (on && loc && bad, Status.badValue),
     (on && loc && other, Status.busy), (sourceInUse s i, Status.sourceInUse)]
    (fun s =>
      let s := if loc then
          (if on && (s.source i).repctl = some rep && rep ≠ 0xFF then s else releaseRepctl i s)
        else s
      let was := (s.source i).st = .track
      let g := gainsOf rate bw
      let s := if !on then
          s.modSource i fun x =>
            { x with st := .off, primed := false, heard := false, fifo := [], groupStart := none, illegalNext := false }
        else if loc then
          let s := s.modSource i fun x =>
            { x with deglitch := rq.u8 2, flags := BitVec.ofNat 8 (rq.u8 3), nominal := rate,
                     tol := tol * 1024 / 100, groupWindow := rq.u16 14, period := period,
                     repctl := if rep = 0xFF then none else some rep, alpha := g.1, beta := g.2,
                     raw := x.raw.map fun r => { r with gains := false }, fifo := [], groupStart := none,
                     illegalNext := false, nCapture := x.n }
          let s := s.modSource i Source.acquire
          if rep = 0xFF then s else bindRepctl rep 1 period s
        else s.modSource i fun x => { x with st := .holdover, primed := false, heard := false }
      let s := if was then leftTrack i s else refreshSearch s
      respond rq 0x0201 Status.ok
        (leBytes 2 (if loc then (s.source i).alpha else 0) ++ leBytes 2 (if loc then (s.source i).beta else 0)) s) s

/-- PHASE of timebase.source.status. -/
def statusPhase (s : State) (i : Nat) : Int :=
  let x := s.source i
  match x.st with
  | .off => 0
  | .track => if x.primed then s.phaseAt i s.now else 0
  | .holdover => if x.heard then s.phaseAt i s.now else 0
  | _ => if x.primed then x.n.toNat * 65536 else 0

/-- timebase.source.status (R87). -/
def execTimebaseSourceStatus (rq : Req) (s : State) : Out :=
  let i := rq.u8 0
  let x := s.source i
  command 0x0202 rq [(!sourceExists i, Status.outOfRange)]
    (respond rq 0x0202 Status.ok
      (leBytes 8 s.time.toNat ++ leBytes 1 (srcStateCode x.st) ++ zeros 1 ++ leBytes 2 x.epoch.toNat ++
       leBytesI 8 (statusPhase s i) ++ leBytesI 8 x.tN ++ leBytes 8 (pattern 48 x.p) ++ leBytesI 4 (fitted (some x.lastError) s).1 ++
       x.missed.bytes ++ x.rollbacks.bytes ++ x.overruns.bytes ++ zeros 4)) s
where
  srcStateCode : SrcState → Nat
    | .off => 0
    | .acquire => 1
    | .track => 2
    | .lost => 3
    | .still => 4
    | .holdover => 5

/-- timebase.sync.config (R104, R107). -/
def execTimebaseSyncConfig (rq : Req) (s : State) : Out :=
  let mode := rq.u8 0
  let index := rq.u8 1
  let publish := (rq.bytes 4 4).map (·.toNat)
  command 0x0203 rq
    [(2 < mode || (mode = 1 && index ≠ 0) || (mode = 2 && (index < 1 || 7 < index)) || 1 < rq.u8 2 ||
      publish.any (fun p => p ≠ 255 && 49 < p), Status.badValue),
     (s.sync.join.isSome, Status.state)]
    (fun s =>
      let y : SyncBus :=
        { s.sync with mode := mode, index := if mode = 2 then index else 0, step := rq.u8 2 = 1, publish := publish,
                      st := if mode = 2 then 1 else if mode = 1 then 2 else 0, peers := 0, reports := [], txSlot := none,
                      join := if mode = 2 then some (rq.ctx s 0x0203) else none, joinStep := if mode = 2 then 1 else 0,
                      joinAt := s.time, delay := 0, owed := 0, rejoin := false, aligning := false }
      let s := holdover ((List.range 32).map (64 + ·)) (accept rq 0x0203 [] { s with sync := y })
      if mode = 2 then s else complete (rq.ctx s 0x0203) Status.ok (syncPayload s) s) s

/-- timebase.filter.raw (R91). -/
def execTimebaseFilterRaw (rq : Req) (s : State) : Out :=
  let i := rq.u8 0
  let tol := rq.u32 8
  command 0x0280 rq
    [(49 < i, Status.outOfRange),
     (tol < 52 || 102400 < tol || rq.u8 12 < 2 || 16 < rq.u8 12 || rq.u8 13 < 2 || 64 < rq.u8 13 || rq.u8 14 < 1,
      Status.badValue),
     (sourceInUse s i, Status.sourceInUse)]
    (fun s => respond rq 0x0280 Status.ok [] (s.modSource i fun x =>
      { x with raw := some { alpha := rq.u16 2, beta := rq.u16 4, tol := tol, lost := rq.u8 12, acq := rq.u8 13,
                             run := rq.u8 14, gains := true } })) s

end Sys2Proof.Machine
end

