-- ==== Sys2Proof/Machine/Camera.lean ====
section
/-!
DEFINITION. Cameras (spec/11_camera_pipeline.md): CSI-2 reception, frame tracking, statistics, records, the histogram
window and the commands of group 0x0A.
-/
namespace Sys2Proof.Machine

open Sys2Proof

def State.modStream (s : State) (i : Nat) (f : Stream → Stream) : State :=
  { s with cam := { s.cam with streams := modAt s.cam.streams i f } }

def State.stream (s : State) (i : Nat) : Stream := at' s.cam.streams i {}

def State.modPort (s : State) (i : Nat) (f : CamPort → CamPort) : State :=
  { s with cam := { s.cam with ports := modAt s.cam.ports i f } }

def State.port (s : State) (i : Nat) : CamPort := at' s.cam.ports i {}

/-! ### Packets (R274) -/

/-- How a packet header decodes (R274, R295). -/
inductive HdrEcc where
  | good | corrected | bad
  deriving DecidableEq, Repr

/-- A decoded packet header (R274): virtual channel, data type, and the word count of a long packet or the frame number of
a short one. -/
structure CamHeader where
  ecc : HdrEcc
  vc  : Nat
  dt  : Nat
  wc  : Nat
  deriving DecidableEq, Repr

/-- The ECC columns of the 26 header bits: data identifier, word count, extension of the virtual channel (CSI-2; log entry
85). -/
def eccColumns : List Nat :=
  [0x07, 0x0B, 0x0D, 0x0E, 0x13, 0x15, 0x16, 0x19, 0x1A, 0x1C, 0x23, 0x25, 0x26] ++
  [0x29, 0x2A, 0x2C, 0x31, 0x32, 0x34, 0x38, 0x1F, 0x2F, 0x37, 0x3B, 0x3D, 0x3E]

/-- The ECC of 26 header bits. -/
def headerEcc (d : Nat) : Nat :=
  (mapIx (fun k c => if d.testBit k then c else 0) eccColumns).foldl (· ^^^ ·) 0

/-- A header word of the line is decoded, first byte lowest: a single wrong bit is corrected, more are detected (R274; log
entry 85). -/
def decodeHeader (h : BitVec 32) : CamHeader :=
  let d := h.toNat % 2 ^ 24 + h.toNat / 2 ^ 30 * 2 ^ 24
  let syndrome := headerEcc d ^^^ (h.toNat / 2 ^ 24 % 64)
  let of (ecc : HdrEcc) (d : Nat) : CamHeader :=
    { ecc := ecc, vc := d / 64 % 4 + d / 2 ^ 24 * 4, dt := d % 64, wc := d / 256 % 65536 }
  if syndrome = 0 then of .good d
  else match eccColumns.findIdx? (· = syndrome) with
    | some k => of .corrected (d ^^^ 2 ^ k)
    | none => of (if [1, 2, 4, 8, 16, 32].contains syndrome then .corrected else .bad) d

/-- One step of the payload checksum of CSI-2. -/
def csiCrcShift (c : BitVec 16) : BitVec 16 := (c >>> 1) ^^^ (if c.getLsbD 0 then 0x8408 else 0)

/-- The CRC-16 of a payload (R274; log entry 85). -/
def csiCrc (l : List Byte) : BitVec 16 :=
  l.foldl (fun c b => (List.range 8).foldl (fun c _ => csiCrcShift c) (c ^^^ b.setWidth 16)) 0xFFFF

/-- RAW10 pixels: four in five bytes. -/
def pixels10 : List Byte → List Nat
  | a :: b :: c :: d :: e :: l =>
    [a.toNat * 4 + e.toNat % 4, b.toNat * 4 + e.toNat / 4 % 4, c.toNat * 4 + e.toNat / 16 % 4,
     d.toNat * 4 + e.toNat / 64] ++ pixels10 l
  | _ => []

/-- RAW12 pixels: two in three bytes. -/
def pixels12 : List Byte → List Nat
  | a :: b :: c :: l => [a.toNat * 16 + c.toNat % 16, b.toNat * 16 + c.toNat / 16] ++ pixels12 l
  | _ => []

/-- RAW16 pixels, high byte first. -/
def pixels16 : List Byte → List Nat
  | a :: b :: l => (a.toNat * 256 + b.toNat) :: pixels16 l
  | _ => []

/-- The pixels of a line of an image data type (R274; log entry 85). -/
def pixelsOf (dt : Nat) (l : List Byte) : List Nat :=
  if dt = 0x2A then l.map BitVec.toNat else if dt = 0x2B then pixels10 l else if dt = 0x2C then pixels12 l else pixels16 l

/-- A long packet taken from the line: its header decoded, its payload, and whether its checksum holds. A burst that ends
before its word count fails it. -/
structure LongPacket where
  h       : CamHeader
  payload : List Byte
  crcOk   : Bool
  deriving DecidableEq, Repr

/-- A received packet, decoded. -/
def takenPacket (p : CamPacket) : LongPacket :=
  let h := decodeHeader p.header
  { h := h, payload := p.payload.take h.wc, crcOk := h.wc ≤ p.payload.length && csiCrc (p.payload.take h.wc) = p.crc }

/-- BITS of an image data type (R281). -/
def dtBits (dt : Nat) : Nat :=
  if dt = 0x2A then 8 else if dt = 0x2B then 10 else if dt = 0x2C then 12 else 16

def isImageDt (dt : Nat) : Bool := dt = 0x2A || dt = 0x2B || dt = 0x2C || dt = 0x2E

/-- Embedded and user-defined data: passed through to memory only (R274). -/
def isPassDt (dt : Nat) : Bool := dt = 0x12 || (0x30 ≤ dt && dt ≤ 0x37)

/-- Bytes of one line of the stream (R281). -/
def StreamCfg.lineBytes (c : StreamCfg) : Nat := c.width * dtBits c.dt / 8

/-- Raw writing applies to the stream (R283, R284). -/
def StreamCfg.raw (c : StreamCfg) : Bool := c.path = 1 || c.rawCopy

/-- The flags of R282 in a record's FLAGS. -/
def badFlags : BitVec 16 := 0x013D

def Frame.bad (f : Frame) : Bool := f.flags &&& badFlags ≠ 0

/-- DETAIL of a camera violation (R295). -/
def camDetail (port vc dt fn : Nat) : Nat := fn % 65536 + 65536 * (dt % 256) + 2 ^ 24 * (vc % 16) + 2 ^ 28 * (port % 16)

/-- A header or start-of-transmission error counts against its port; 16 within 1 s raise CAM_PORT_ERR (R295). -/
def portError (port : Nat) (s : State) : State :=
  let errs := (s.time :: (s.port port).errs).take 16
  let full := errs.length = 16 && s.time.toNat - (errs.getLastD s.time).toNat ≤ ticksPerSecond
  let s := s.modPort port fun p => { p with errs := if full then [] else errs }
  if full then present 0x0140 (some port) 0 s else s

/-- A D-PHY setting that waits is taken at the LP-to-HS transition that starts a packet (camera.phy.raw). -/
def phyApply (port : Nat) (s : State) : State :=
  s.modPort port fun p =>
    match p.rawNext with
    | some (hs, ck, eq) => { p with hsSettle := hs, clkSettle := ck, eq := eq, rawNext := none }
    | none => p

/-! ### Statistics (R287, R288) -/

/-- The pixels of the region of interest with their ROI coordinates. -/
def Frame.roi (f : Frame) : List (Nat × Nat × Nat) :=
  (f.rows.filter fun r => f.stats.y ≤ r.1 && r.1 < f.stats.y + f.stats.h).flatMap fun r =>
    mapIx (fun x v => (x, r.1 - f.stats.y, v)) ((r.2.drop f.stats.x).take f.stats.w)

def Frame.shift (f : Frame) : Nat := if f.stats.shift = 0xFF then dtBits f.cfg.dt - 8 else f.stats.shift

/-- The histogram (R287). -/
def Frame.histogram (f : Frame) : List Nat :=
  f.roi.foldl (fun h p => modAt h (min 255 (p.2.2 / 2 ^ f.shift)) (· + 1)) (List.replicate 256 0)

/-- First column or line of zone `c` of an extent `n` (R287). -/
def zoneStart (n c : Nat) : Nat := c * n / 32

/-- The value of zone (r, c): the floored mean of v × 2^(16 − BITS), 0 where no line was received (R278, R287). -/
def Frame.zone (f : Frame) (r c : Nat) : Nat :=
  let ps := f.roi.filter fun p =>
    zoneStart f.stats.w c ≤ p.1 && p.1 < zoneStart f.stats.w (c + 1) &&
    zoneStart f.stats.h r ≤ p.2.1 && p.2.1 < zoneStart f.stats.h (r + 1)
  (ps.map fun p => p.2.2 * 2 ^ (16 - dtBits f.cfg.dt)).sum / ps.length

/-- Weight of a pixel value (R288). -/
def Frame.weight (f : Frame) (v : Nat) : Nat := if f.stats.thresh ≤ v then v - f.stats.thresh + 1 else 0

/-- Sum over the ROI of the weight times a function of the coordinates. -/
def Frame.moment (f : Frame) (g : Nat → Nat → Nat) : Nat := (f.roi.map fun p => f.weight p.2.2 * g p.1 p.2.1).sum

def Frame.area (f : Frame) : Nat := (f.roi.filter fun p => f.weight p.2.2 ≠ 0).length

def Frame.peak (f : Frame) : Nat := (f.roi.map (·.2.2)).foldl max 0

/-- Whether e² (T − √D) ≤ 2^16 (T + √D), for e at least 256. -/
def elongLe (t d e : Nat) : Bool := (e * e - 65536) ^ 2 * t ^ 2 ≤ (e * e + 65536) ^ 2 * d

/-- Largest e below 2^n + e₀ with `elongLe`, by bits. -/
def elongSearch (t d : Nat) : Nat → Nat → Nat
  | 0, e => e
  | n + 1, e => elongSearch t d n (if elongLe t d (max 256 (e + 2 ^ n)) then e + 2 ^ n else e)

/-- Elongation √(λ1/λ2) in 8.8 (R288): with T and D the trace and the discriminant of the second central moments, the
ratio is (T + √D)/(T − √D). Its rounding is open (log entry 9). -/
def Frame.elongation (f : Frame) : Nat :=
  let w : Int := f.moment fun _ _ => 1
  let sx : Int := f.moment fun x _ => x
  let sy : Int := f.moment fun _ y => y
  let xx : Int := w * f.moment (fun x _ => x * x) - sx * sx
  let yy : Int := w * f.moment (fun _ y => y * y) - sy * sy
  let xy : Int := w * f.moment (fun x y => x * y) - sx * sy
  let t := (xx + yy).toNat
  let d := ((xx - yy) ^ 2 + 4 * xy ^ 2).toNat
  if t * t ≤ d then 0xFFFF
  else
    let e := max 256 (elongSearch t d 16 0)
    let exact := (e * e - 65536) ^ 2 * t ^ 2 = (e * e + 65536) ^ 2 * d
    min 0xFFFF (e + if exact then 0 else bit (Config.roundUp (t + e) d))

/-- Centroid in 16.16 (R288); 0 with area 0. Its rounding is open (log entry 9). -/
def Frame.centroid (f : Frame) (g : Nat → Nat → Nat) : Nat :=
  let w := f.moment fun _ _ => 1
  if w = 0 then 0 else openDiv (65536 * f.moment g) w

def Frame.cx (f : Frame) : Nat := f.centroid fun x _ => x
def Frame.cy (f : Frame) : Nat := f.centroid fun _ y => y

/-- The frame with NO_POOL flagged where its area is 0 (R288). -/
def Frame.pooled (f : Frame) : Frame := if f.area = 0 then { f with flags := f.flags ||| 0x0040 } else f

/-- The statistics record of a frame (R291). -/
def Frame.record (f : Frame) (stream dropped : Nat) : List Byte :=
  let pool := f.area ≠ 0
  leBytes 4 f.seq.toNat ++ leBytes 2 (if f.cfg.fnDev then 0 else f.fn.toNat) ++ leBytes 1 stream ++ leBytes 1 f.cfg.path ++
  leBytes 8 f.fsTime.toNat ++ leBytes 8 f.closeTime.toNat ++ leBytes 2 f.flags.toNat ++ leBytes 2 f.lines ++
  leBytes 2 f.rows.length ++ leBytes 2 f.discarded ++ leBytes 4 f.roi.length ++ leBytes 4 dropped ++
  leBytes 4 f.cx ++ leBytes 4 f.cy ++ leBytes 4 f.area ++ leBytes 2 f.peak ++
  leBytes 2 (if pool then f.elongation else 0) ++ zeros 8 ++ f.histogram.flatMap (leBytes 4) ++
  ((List.range 1024).flatMap fun i => leBytes 2 (f.zone (i / 32) (i % 32))) ++ zeros 956 ++ leBytes 4 f.seq.toNat

/-! ### Frames -/

/-- The features of a frame reach the engine input (R282, R289): none for a frame flagged as R282 lists, only area and
peak with NO_POOL. Values are 2.30 of the full scales of R289. -/
def deliverFeatures (i : Nat) (f : Frame) (s : State) : State :=
  if f.bad then s
  else
    let pool := f.area ≠ 0
    let v : List (Bool × Int) :=
      [(pool, openDiv (f.cx * 2 ^ 14) f.stats.w), (pool, openDiv (f.cy * 2 ^ 14) f.stats.h),
       (true, openDiv (f.area * 2 ^ 30) (f.stats.w * f.stats.h)), (true, f.peak * 2 ^ 30 / 2 ^ dtBits f.cfg.dt),
       (pool, f.elongation * 2 ^ 30 / 4096)]
    s.modStream i fun t =>
      { t with feats := mapIx (fun k x => if (at' v k (false, 0)).1 then (at' v k (false, 0)).2 else x) t.feats,
               featAt := mapIx (fun k x => if (at' v k (false, 0)).1 then some f.fsTime else x) t.featAt }

/-- The statistics record is written to its slot, and camera.record follows where it is asked for (R291, R292). -/
def writeRecord (i : Nat) (f : Frame) (s : State) : State :=
  let t := s.stream i
  let s := unitStore 57 (f.cfg.rec' + 4096 * (f.seq.toNat % f.cfg.records)) (f.record i t.droppedBefore) s
  let s := s.modStream i fun t => { t with droppedBefore := 0, recsWritten := t.recsWritten.inc }
  if f.cfg.event then queueEvent 0x0A40 (leBytes 1 i ++ zeros 3 ++ leBytes 4 f.seq.toNat) s else s

/-- The histogram of a closing frame of the selected stream is copied into the HST_ window, or SKIPPED sets (R294). -/
def copyHistogram (i : Nat) (f : Frame) (s : State) : State :=
  if s.cam.hstEn && s.cam.hstStream.toNat = i then
    if s.cam.hstReady then { s with cam := { s.cam with hstSkipped := true } }
    else { s with cam := { s.cam with
            hstReady := true, hstFlagged := f.flags &&& (badFlags ||| 2) ≠ 0, hstTotal := BitVec.ofNat 32 f.roi.length,
            hstBins := f.histogram.map (BitVec.ofNat 32) } }
  else s

/-- CAM_FRAME_BAD for a frame with a flag of R282, at most once per stream per second (R296). -/
def raiseBad (i : Nat) (f : Frame) (s : State) : State :=
  let due : Bool := match (s.stream i).badAt with
    | some t => ticksPerSecond ≤ s.time.toNat - t.toNat
    | none => true
  if f.bad && due then present 0x0142 (some i) 0 (s.modStream i fun t => { t with badAt := some s.time }) else s

/-- A closed memory frame joins the backlog; a fifth drops the oldest (R285). -/
def joinBacklog (i : Nat) (f : Frame) (s : State) : State :=
  let t := s.stream i
  if t.backlog.length < 4 then s.modStream i fun t => { t with backlog := t.backlog ++ [f] }
  else
    let due : Bool := match t.dropAt with
      | some d => ticksPerSecond ≤ s.time.toNat - d.toNat
      | none => true
    let s := s.modStream i fun t =>
      { t with backlog := t.backlog.tail ++ [f], dropped := t.dropped.inc, droppedBefore := t.droppedBefore + 1,
               dropAt := if due then some s.time else t.dropAt }
    if due then present 0x0141 (some i) 0 s else s

/-- What closes a frame: its Frame End, a Frame Start or FRAME_TIMEOUT that finds the end missing, or camera.port.config. -/
inductive FrameClose where
  | ended | missing | reconfigured
  deriving DecidableEq, Repr

/-- The open frame of stream `i` closes (R277, R278, R280): `ended` by its Frame End, otherwise UNTERMINATED; a missing end
is a violation (R295). -/
def closeFrame (i : Nat) (by' : FrameClose) (s : State) : State :=
  match (s.stream i).opened with
  | none => s
  | some f =>
    let ended : Bool := by' = .ended
    let short := ended && f.lines < f.cfg.height
    let flags := f.flags ||| (if short then 1 else 0) ||| (if ended then 0 else 4)
    let f : Frame := { f with flags := flags, closeTime := s.time }
    let detail := camDetail f.cfg.port f.cfg.vc f.cfg.dt f.fn.toNat
    let s := s.modStream i fun t =>
      { t with opened := none, frames := t.frames + 1,
               short := if short then t.short.inc else t.short,
               unterm := if ended then t.unterm else t.unterm.inc,
               long := if f.discarded ≠ 0 then t.long.inc else t.long,
               trunc := if f.full then t.trunc.inc else t.trunc }
    let s := if by' = .missing then logViolation 1 i 4 detail s else s
    let s := if short then logViolation 1 i 5 detail s else s
    let s := raiseBad i f s
    let f := f.pooled
    let s := copyHistogram i f s
    let s := if f.cfg.raw then unitStore (52 + f.cfg.port) (f.cfg.buf + f.buffer * f.cfg.bytes + 4) (leBytes 4 f.used) s else s
    if f.cfg.path = 1 then joinBacklog i f s else writeRecord i f (deliverFeatures i f s)

/-- SEQUENCE of the frame that a Frame Start opens (R290). -/
def nextSequence (t : Stream) (c : StreamCfg) (fn : BitVec 16) : BitVec 32 :=
  let base := if c.fnBase = 0 then 1 else c.fnBase
  if !t.started then 0
  else if c.fnDev || fn = 0 then t.lastSeq + 1
  else if t.lastFn < fn then t.lastSeq + BitVec.ofNat 32 (fn.toNat - t.lastFn.toNat)
  else if base ≤ fn.toNat then t.lastSeq + BitVec.ofNat 32 (fn.toNat - base + 1)
  else t.lastSeq + 1

/-- The frame buffers of stream `i` that hold no frame of the backlog or of the pipeline (R284, R285). -/
def freeBuffers (s : State) (i : Nat) : List Nat :=
  let busy := match s.cam.busy with
    | some (j, f) => if j = i then [f.buffer] else []
    | none => []
  (List.range 6).filter fun b => !(((s.stream i).backlog.map (·.buffer)) ++ busy).contains b

/-- A Frame Start opens the next frame of an enabled stream (R276, R277, R280, R290, R293). The choice among the free
frame buffers is open (log entry 10). -/
def openFrame (i : Nat) (fn : BitVec 16) (corrected : Bool) (s : State) : State :=
  let s := captureEdge (34 + i) ⟨.frame, s.time⟩ s
  let s := closeFrame i .missing s
  let t := s.stream i
  let c := t.cfgNext.getD t.cfg
  let seq := nextSequence t c fn
  let bufs := freeBuffers s i
  let b := bufs.getD (Config.freeNat s.free % max 1 bufs.length) 0
  let f : Frame := { seq := seq, fn := fn, fsTime := s.time, closeTime := 0, flags := if corrected then 0x0080 else 0,
                     cfg := c, stats := t.shadow, lines := 0, discarded := 0, rows := [], marks := [], buffer := b, used := 64, full := false }
  let s := { s with free := s.free + 1 }
  let s := s.modStream i fun t =>
    { t with cfg := c, cfgNext := none, opened := some f, started := true, lastSeq := seq, lastFn := fn, lastBuf := b,
             orphanRun := false }
  if c.raw then
    unitStore (52 + c.port) (c.buf + b * c.bytes) (leBytes 4 seq.toNat ++ leBytes 4 64 ++ leBytes 8 s.time.toNat ++ zeros 48) s
  else s

/-- Streams of a port and virtual channel that are enabled (R275). -/
def streamsOf (s : State) (port vc : Nat) : List Nat :=
  if (s.port port).enable then
    (List.range 16).filter fun i => (s.stream i).cfg.enable && (s.stream i).cfg.port = port && (s.stream i).cfg.vc = vc
  else []

/-- The unit of a violation of a packet: its stream, or 0x80 + port for a packet matching none (R295). -/
def camUnit (port : Nat) (is : List Nat) : Nat := is.headD (0x80 + port)

/-- What an uncorrectable header does (R295): logged, counted, and flagged in an open frame. -/
def headerLost (port vc dt fn : Nat) (is : List Nat) (s : State) : State :=
  let s := logViolation 1 (camUnit port is) 2 (camDetail port vc dt fn) s
  let s := is.foldl (fun s i => s.modStream i fun t =>
    { t with hdrLost := t.hdrLost.inc, opened := t.opened.map fun f => { f with flags := f.flags ||| 0x0100 } }) s
  portError port s

/-- What a corrected header does (R295): logged, counted, and flagged in an open frame. -/
def headerCorrected (port vc dt fn : Nat) (is : List Nat) (s : State) : State :=
  let s := logViolation 1 (camUnit port is) 1 (camDetail port vc dt fn) s
  is.foldl (fun s i => s.modStream i fun t =>
    { t with hdrCorr := t.hdrCorr.inc, opened := t.opened.map fun f => { f with flags := f.flags ||| 0x0080 } }) s

/-- A Frame Start (R276): an uncorrectable header is not seen, otherwise each enabled stream of the port and virtual
channel opens a frame. -/
def frameStart (port : Nat) (h : CamHeader) (is : List Nat) (s : State) : State :=
  let fn := BitVec.ofNat 16 h.wc
  if h.ecc = .corrected then
    is.foldl (fun s i => openFrame i fn true s)
      (is.foldl (fun s i => s.modStream i fun t => { t with hdrCorr := t.hdrCorr.inc })
        (logViolation 1 (camUnit port is) 1 (camDetail port h.vc 0 h.wc) s))
  else is.foldl (fun s i => openFrame i fn false s) s

/-- A packet outside a frame is counted, and a run of them is logged once (R281, R295). -/
def orphan (i detail : Nat) (s : State) : State :=
  let run := (s.stream i).orphanRun
  let s := s.modStream i fun t => { t with orphans := t.orphans.inc, orphanRun := true }
  if run then s else logViolation 1 i 9 detail s

/-- A Frame End (R277): the frame closes; with none open the packet is an orphan (R281). -/
def frameEnd (port : Nat) (h : CamHeader) (is : List Nat) (s : State) : State :=
  let s := if h.ecc = .corrected then headerCorrected port h.vc 1 h.wc is s else s
  is.foldl (fun s i =>
    match (s.stream i).opened with
    | some _ => closeFrame i .ended s
    | none => orphan i (camDetail port h.vc 1 h.wc) s) s

/-- Bytes padded with zeros to a multiple of 8 (R284). -/
def pad8 (l : List Byte) : List Byte := l ++ zeros ((8 - l.length % 8) % 8)

/-- A packet is stored in the frame's buffer, or the frame is TRUNCATED (R284). Answers whether it was stored. -/
def storePacket (i : Nat) (pkt : LongPacket) (s : State) : Bool × State :=
  match (s.stream i).opened with
  | none => (false, s)
  | some f =>
    let e := leBytes 1 pkt.h.dt ++ leBytes 1 pkt.h.vc ++ leBytes 2 pkt.h.wc ++ leBytes 1 (bit !pkt.crcOk) ++ zeros 3 ++
      pad8 pkt.payload
    if !f.full && f.used + e.length ≤ f.cfg.bytes then
      (true, unitStore (52 + f.cfg.port) (f.cfg.buf + f.buffer * f.cfg.bytes + f.used) e (s.modStream i fun t =>
        { t with opened := some { f with
          used := f.used + e.length,
          marks := if isImageDt pkt.h.dt then f.marks ++ [(f.lines, f.used + 8, pkt.payload.length)] else f.marks } }))
    else (false, s.modStream i fun t => { t with opened := some { f with full := true, flags := f.flags ||| 0x0020 } })

/-- An image line of an open frame (R277, R279, R281, R284). Of a TRUNCATED frame on the memory path the stored lines alone
are counted; in-line lines have entered the pipeline (log entry 86). -/
def takeLine (i : Nat) (pkt : LongPacket) (s : State) : State :=
  match (s.stream i).opened with
  | none => s
  | some f =>
    let detail := camDetail f.cfg.port f.cfg.vc pkt.h.dt f.fn.toNat
    if f.cfg.height ≤ f.lines then
      let s := s.modStream i fun t =>
        { t with opened := some { f with discarded := f.discarded + 1, flags := f.flags ||| 2 } }
      if f.discarded = 0 then logViolation 1 i 6 detail s else s
    else
      let s := if f.cfg.path = 0 then classGrants 2 pkt.payload.length s else s
      let lenBad := pkt.h.wc * 8 ≠ f.cfg.width * dtBits f.cfg.dt
      let st := if f.cfg.raw then storePacket i pkt s else (true, s)
      let s := st.2
      let counted := pkt.crcOk && !lenBad && (st.1 || f.cfg.path = 0)
      let s := s.modStream i fun t =>
        { t with crcLines := if pkt.crcOk then t.crcLines else t.crcLines.inc,
                 opened := t.opened.map fun g =>
                   { g with lines := g.lines + 1, rows := if counted then g.rows ++ [(f.lines, pixelsOf f.cfg.dt pkt.payload)] else g.rows,
                            flags := g.flags ||| (if pkt.crcOk then 0 else 8) ||| (if lenBad then 0x10 else 0) } }
      let s := if pkt.crcOk then s else logViolation 1 i 3 detail s
      if lenBad then logViolation 1 i 7 detail s else s

/-- A long packet of a stream: a line, or data passed through to memory, or an orphan (R275, R277, R281). -/
def takePacket (i : Nat) (pkt : LongPacket) (s : State) : State :=
  match (s.stream i).opened with
  | none => orphan i (camDetail (s.stream i).cfg.port pkt.h.vc pkt.h.dt (s.stream i).lastFn.toNat) s
  | some f =>
    if isImageDt pkt.h.dt then takeLine i pkt s
    else
      let s := if f.cfg.raw then (storePacket i pkt s).2 else s
      if pkt.crcOk then s else logViolation 1 i 3 (camDetail f.cfg.port f.cfg.vc pkt.h.dt f.fn.toNat) s

/-- A long packet (R275, R277, R281, R295): Line Start and Line End are accepted and ignored, and an unsupported data type
is discarded (R274). -/
def longPacket (port : Nat) (pkt : LongPacket) (chan : List Nat) (s : State) : State :=
  let dt := pkt.h.dt
  let is := chan.filter fun i => (s.stream i).cfg.dt = dt || (isPassDt dt && (s.stream i).cfg.embed)
  let fn := (s.stream (chan.headD 16)).lastFn.toNat
  let s := if pkt.h.ecc = .corrected then headerCorrected port pkt.h.vc dt fn is s else s
  if dt = 2 || dt = 3 then s
  else if !isImageDt dt && !isPassDt dt then logViolation 1 (camUnit port is) 8 (camDetail port pkt.h.vc dt fn) s
  else is.foldl (fun s i => takePacket i pkt s) s

/-- A packet on an enabled port, as its header says (R274 to R281). -/
def receivePacket (port : Nat) (p : CamPacket) (s : State) : State :=
  if !(s.port port).enable then s
  else
    let pkt := takenPacket p
    let chan := streamsOf s port pkt.h.vc
    let s := phyApply port s
    if pkt.h.ecc = .bad then
      headerLost port pkt.h.vc pkt.h.dt (if pkt.h.dt < 2 then pkt.h.wc else (s.stream (chan.headD 16)).lastFn.toNat) chan s
    else if pkt.h.dt = 0 then frameStart port pkt.h chan s
    else if pkt.h.dt = 1 then frameEnd port pkt.h chan s
    else longPacket port pkt chan s

/-- The header of a packet on the line (R274): the data identifier, the word count, then the virtual channel extension and
the ECC, first byte lowest. -/
def packetHeader (di : Byte) (wc : BitVec 16) (ecc : Byte) : BitVec 32 := ecc ++ wc ++ di

/-- FRAME_START_RECEIVE (R276): the short packet of a Frame Start. -/
def execFrameStartReceive (port : Nat) (di : Byte) (wc : BitVec 16) (ecc : Byte) (s : State) : Out :=
  .next (receivePacket port { header := packetHeader di wc ecc, payload := [], crc := 0 } s)

/-- FRAME_END_RECEIVE (R277): the short packet of a Frame End. -/
def execFrameEndReceive (port : Nat) (di : Byte) (wc : BitVec 16) (ecc : Byte) (s : State) : Out :=
  .next (receivePacket port { header := packetHeader di wc ecc, payload := [], crc := 0 } s)

/-- LINE_PACKET_RECEIVE (R277, R281, R295). -/
def execLinePacketReceive (port : Nat) (pkt : CamPacket) (s : State) : Out := .next (receivePacket port pkt s)

/-- FRAME_TIMEOUT (R280): a frame has been open for FRAME_TIMEOUT and closes UNTERMINATED (log entry 4). -/
def execFrameTimeout (stream : Nat) (s : State) : Out :=
  match (s.stream stream).opened with
  | some f => .next (closeFrame stream .missing (s.advanceTo (f.fsTime.toNat + f.cfg.timeout * ticksPerMs)))
  | none => .next s

/-- DPHY_SOT_ERROR (R295): the burst is discarded, logged, and counts against the port. -/
def execDphySotError (port : Nat) (s : State) : Out :=
  if (s.port port).enable then
    .next (portError port (logViolation 1 (0x80 + port) 0x0A (camDetail port 0 0 0) (phyApply port s)))
  else .next s

/-- The stream that is served next: the first, ascending after the stream last served, with a backlog (R286). -/
def nextMemoryStream (s : State) : Option Nat :=
  ((List.range 16).map fun k => (s.cam.served + 1 + k) % 16).find? fun i => (s.stream i).backlog ≠ []

/-- MEMORY_FRAME_START (R286): an idle pipeline takes the oldest backlog frame of the next stream. -/
def execMemoryFrameStart (s : State) : Out :=
  match s.cam.busy, nextMemoryStream s with
  | none, some i =>
    match (s.stream i).backlog with
    | f :: rest =>
      let s := s.modStream i fun t => { t with backlog := rest }
      .next { s with cam := { s.cam with busy := some (i, f), served := i } }
    | [] => .next s
  | _, _ => .next s

/-- A line of a memory frame is read from its buffer: one that meets an uncorrectable word is excluded, and the frame is
flagged CRC (R281, R322). -/
def readLine (r : Nat × List Nat) (x : Frame × State) : Frame × State :=
  let f := x.1
  match f.marks.find? fun m => m.1 = r.1 with
  | none => x
  | some (_, o, n) =>
    let a := f.cfg.buf + f.buffer * f.cfg.bytes + o
    let got := dramFetch 56 a n 0 x.2
    if got.1.length < n then ({ f with flags := f.flags ||| 8 }, got.2)
    else ({ f with rows := f.rows ++ [(r.1, pixelsOf f.cfg.dt got.1)] }, got.2)

/-- The frame as the pipeline reads it from memory (R286). -/
def readFrame (f : Frame) (s : State) : Frame × State :=
  let r := f.rows.foldl (fun x r => readLine r x) ({ f with rows := [], flags := f.flags &&& 0xFFBF }, s)
  (r.1.pooled, r.2)

/-- MEMORY_FRAME_PROCESSED (R286, R289, R292): the frame has been read; its features and record follow. -/
def execMemoryFrameProcessed (s : State) : Out :=
  match s.cam.busy with
  | some (i, f) =>
    let r := readFrame f { s with cam := { s.cam with busy := none } }
    .next (writeRecord i r.1 (deliverFeatures i r.1 r.2))
  | none => .next s

/-! ### Commands -/

/-- Peak rate of a port within R283 for an in-line stream of `dt`. -/
def inlineRateOk (lanes rate dt : Nat) : Bool := lanes * rate ≤ 1000 * dtBits dt

/-- camera.port.config (0x0A01). -/
def execCameraPortConfig (rq : Req) (s : State) : Out :=
  let port := rq.u8 0
  let lanes := rq.u8 1
  let rate := rq.u16 2
  let configs := (List.range 16).flatMap fun i => (s.stream i).cfg :: (s.stream i).cfgNext.toList
  let inlineBad := configs.any fun c => c.enable && c.path = 0 && c.port = port && !inlineRateOk lanes rate c.dt
  command 0x0A01 rq
    [(4 ≤ port, Status.outOfRange),
     (!([1, 2, 4].contains lanes) || rate < 80 || 2500 < rate || 1 < rq.u8 4 || inlineBad, Status.badValue)]
    (fun s =>
      let is := (List.range 16).filter fun i => (s.stream i).cfg.enable && (s.stream i).cfg.port = port
      let s := is.foldl (fun s i => closeFrame i .reconfigured s) s
      respond rq 0x0A01 Status.ok [] (s.modPort port fun p => { p with lanes := lanes, rate := rate, enable := rq.u8 4 = 1 })) s

/-- The configuration a camera.stream.config payload spells. -/
def streamCfgOf (rq : Req) : StreamCfg :=
  { enable := rq.bit 5 0, port := rq.u8 1, vc := rq.u8 2, dt := rq.u8 3, path := rq.u8 4, rawCopy := rq.bit 5 1,
    event := rq.bit 5 2, embed := rq.bit 5 3, fnDev := rq.bit 5 4, timeout := rq.u16 6, width := rq.u16 8,
    height := rq.u16 10, bytes := rq.u32 12, buf := rq.u64 16, rec' := rq.u64 24, records := rq.u16 32, fnBase := rq.u16 34 }

/-- The values a stream configuration may take. -/
def StreamCfg.ok (c : StreamCfg) (p : CamPort) : Bool :=
  isImageDt c.dt && c.path ≤ 1 && 1 ≤ c.timeout && c.timeout ≤ 1000 && 1 ≤ c.width && c.width ≤ 8192 &&
  1 ≤ c.height && c.height ≤ 8192 && c.bytes % 64 = 0 &&
  (if c.raw then 64 + c.height * (8 + (c.lineBytes + 7) / 8 * 8) ≤ c.bytes else c.bytes = 0) &&
  [4, 8, 16, 32, 64, 128, 256, 512, 1024].contains c.records && (c.path = 1 || inlineRateOk p.lanes p.rate c.dt)

/-- camera.stream.config (0x0A02): another stream holds the identifiers of its configuration and of the one it waits to
take (R275). -/
def execCameraStreamConfig (rq : Req) (s : State) : Out :=
  let i := rq.u8 0
  let c := streamCfgOf rq
  let p := s.port c.port
  let others := ((List.range 16).filter fun j => j ≠ i && (s.stream j).cfg.enable).flatMap fun j =>
    (s.stream j).cfg :: (s.stream j).cfgNext.toList
  command 0x0A02 rq
    [(16 ≤ i || 4 ≤ c.port || 16 ≤ c.vc, Status.outOfRange),
     (!c.ok p || (c.raw && s.dram.cfg.usable < c.buf + 6 * c.bytes) || s.dram.cfg.usable < c.rec' + 4096 * c.records,
      Status.badValue),
     (c.enable && others.any fun o => o.port = c.port && o.vc = c.vc && o.dt = c.dt, Status.busy),
     (c.enable && c.path = 0 && others.any fun o => o.path = 0, 0x8A01)]
    (fun s =>
      let was := (s.stream i).cfg.enable
      let s := if !c.enable then s.modStream i fun t => { t with cfg := c, cfgNext := none, opened := none, backlog := [] }
        else if was then s.modStream i fun t => { t with cfgNext := some c }
        else s.modStream i fun t => { t with cfg := c, cfgNext := none, started := false, orphanRun := false }
      respond rq 0x0A02 Status.ok (leBytes 4 (openDiv (p.lanes * p.rate * 1000) (dtBits c.dt)) ++ zeros 4) s) s

/-- camera.stats.config (0x0A03). -/
def execCameraStatsConfig (rq : Req) (s : State) : Out :=
  let i := rq.u8 0
  let t := s.stream i
  let c := t.cfgNext.getD t.cfg
  let st : CamStats := { shift := rq.u8 1, thresh := rq.u16 2, x := rq.u16 4, y := rq.u16 6, w := rq.u16 8, h := rq.u16 10 }
  command 0x0A03 rq
    [(16 ≤ i, Status.outOfRange),
     ((8 < st.shift && st.shift ≠ 0xFF) || st.w < 32 || st.h < 32 || c.width < st.x + st.w || c.height < st.y + st.h,
      Status.badValue)]
    (fun s => respond rq 0x0A03 Status.ok [] (s.modStream i fun t => { t with shadow := st })) s

/-- camera.stream.status (0x0A04). -/
def execCameraStreamStatus (rq : Req) (s : State) : Out :=
  let i := rq.u8 0
  let t := s.stream i
  command 0x0A04 rq [(16 ≤ i, Status.outOfRange)]
    (fun s => respond rq 0x0A04 Status.ok
      (leBytes 4 t.lastSeq.toNat ++ leBytes 1 (if !t.cfg.enable then 0 else if t.opened.isSome then 2 else 1) ++
       leBytes 1 t.backlog.length ++ zeros 2 ++ leBytes 8 t.frames.toNat ++ t.dropped.bytes ++ t.short.bytes ++
       t.long.bytes ++ t.unterm.bytes ++ t.crcLines.bytes ++ t.hdrCorr.bytes ++ t.hdrLost.bytes ++ t.trunc.bytes ++
       t.recsWritten.bytes ++ t.orphans.bytes) s) s

/-- camera.phy.raw (0x0A80). -/
def execCameraPhyRaw (rq : Req) (s : State) : Out :=
  let port := rq.u8 0
  let hs := rq.u16 2
  let ck := rq.u16 4
  command 0x0A80 rq
    [(4 ≤ port, Status.outOfRange),
     (hs < 40 || 500 < hs || ck < 95 || 500 < ck || 7 < rq.u8 6, Status.badValue)]
    (fun s => respond rq 0x0A80 Status.ok [] (s.modPort port fun p => { p with rawNext := some (hs, ck, rq.u8 6) })) s

end Sys2Proof.Machine
end

