-- ==== Sys2Proof/Machine/Clocks.lean ====
section
/-!
DEFINITION. Clocks (spec/17_clocks.md): the reference, lock detection and declaration, profiles, the line check, and the
commands of group 0x10.
-/
namespace Sys2Proof.Machine

open Sys2Proof

/-- The reference is lost (R34, R398): all lanes are gated and CK_REF_LOST raised. -/
def referenceLost (s : State) : State := present 0x0200 none 0 (sysGateSet s)

/-- REFERENCE_EDGE_TIMEOUT (R398): no reference edge for 60 ns. -/
def execReferenceEdgeTimeout (s : State) : Out := .next (referenceLost s)

/-- REFERENCE_FREQUENCY_CHECK (R398): the frequency over 10 ms is off by more than 0.5 %. -/
def execReferenceFrequencyCheck (hz : Nat) (s : State) : Out :=
  if 50250000 < hz || hz < 49750000 then .next (referenceLost s) else .next s

/-- PLL_FAST_UNLOCK (R34, R399, R405, R408): system PLL 2 stops the DRAM controller until the next reset (log entry 104). -/
def execPllFastUnlock (loop : Nat) (s : State) : Out :=
  if 7 ≤ loop then .next s
  else
    let s := loopOut loop s
    if loop < 2 then .next (present 0x0201 (some loop) 0 (sysGateSet s))
    else if loop = 2 then .next (present 0x0201 (some loop) 0 { s with dram := { s.dram with stopped := true } })
    else
      let i := loop - 3
      if (s.synth i).enabled then
        let s := relock i (s.modSynth i fun x => { x with unlocks := x.unlocks.inc })
        .next (present 0x0202 (some i) 0 (synthGateSet i s))
      else .next s

/-- LOCK_MONITOR_INCLUSION (R405): a loop whose fast detector has shown lock for 100 µs. -/
def execLockMonitorInclusion (loop : Nat) (s : State) : Out :=
  if 7 ≤ loop || (3 ≤ loop && !(s.synth (loop - 3)).enabled) then .next s
  else .next { s with clk := { s.clk with
    included := s.clk.included ||| (1#7 <<< loop), includedAt := modAt s.clk.includedAt loop fun _ => s.time } }

/-- A reading of LOCKSENSE (R406). -/
def readSense (mv : Nat) (s : State) : State :=
  { s with clk := { s.clk with
    senseMv := mv, senseLow := s.clk.senseLow && mv < 1080, aboveAt := if 1350 < mv then some (s.clk.aboveAt.getD s.time) else none } }

/-- A loop may be declared locked (R406, R407). -/
def mayDeclare (s : State) (loop : Nat) : Bool :=
  s.clk.included.getLsbD loop && s.clk.aboveAt.isSome && !s.clk.pathBad && !unackedSource s 0x0204

/-- LOCK_DECLARE (R406, R408; log entry 4): LOCKSENSE has stayed above 1.35 V for 2 ms since the
inclusion. A synthesiser's cause 5 clears and its configuration completes. -/
def execLockDeclare (loop : Nat) (s : State) : Out :=
  if 7 ≤ loop || !mayDeclare s loop then .next s
  else
    let since := max (at' s.clk.includedAt loop 0).toNat (s.clk.aboveAt.getD 0).toNat
    let s := s.advanceTo (since + 2 * ticksPerMs)
    let s := { s with clk := { s.clk with locked := s.clk.locked ||| (1#7 <<< loop) } }
    if loop < 3 then .next s
    else
      let i := loop - 3
      let s := clockUngate { s with clk := { s.clk with synthGate := s.clk.synthGate &&& ~~~(1#4 <<< i) } }
      .next ((s.synth i).ctx.foldl (fun s c => complete c.2 Status.ok [] s) (s.modSynth i fun x => { x with ctx := [] }))

/-- LOCKSENSE_LOW (R406): at each fall below 1.08 V cause 5 is set on all links and CK_LOCKSENSE_LOW raised. -/
def execLocksenseLow (mv : Nat) (s : State) : Out :=
  let s := readSense mv s
  if mv < 1080 && !s.clk.senseLow then
    .next (present 0x0203 none 0 (setCause 5 (List.range s.nLinks)
      { s with clk := { s.clk with senseGate := true, senseLow := true } }))
  else .next s

/-- LOCKSENSE_RECOVER (R408): above 1.35 V with every included loop declared locked, cause 5 of R406 clears. -/
def execLocksenseRecover (mv : Nat) (s : State) : Out :=
  let s := readSense mv s
  if 1350 < mv && s.clk.included &&& ~~~s.clk.locked = 0 then
    .next (clockUngate { s with clk := { s.clk with senseGate := false } })
  else .next s

/-- LOCKSENSE_PLAUSIBILITY_CHECK (R407). -/
def execLocksensePlausibilityCheck (mv : Nat) (toggling : Bool) (s : State) : Out :=
  let bad := mv < 50 || toggling
  let was := s.clk.pathBad
  let s := readSense mv { s with clk := { s.clk with pathBad := bad } }
  .next (if bad && !was then present 0x0204 none 0 s else s)

/-- SYNTH_LOCK_TIMEOUT (R408): no declaration within 5 ms (log entry 4); the oldest configuration that waits completes FAILED. -/
def execSynthLockTimeout (synth : Nat) (s : State) : Out :=
  match (s.synth synth).ctx with
  | (t, c) :: rest =>
    .next (complete c Status.failed [] ((s.advanceTo (t.toNat + 5 * ticksPerMs)).modSynth synth fun x => { x with ctx := rest }))
  | [] => .next s

/-- The entries of a profile's bytes (R401). -/
def rampOf (b : List Byte) : List Int := (List.range 1024).map fun k => asSigned 16 (ofLe ((b.drop (2 * k)).take 2))

/-- Every FREQ_k of a profile lies in range. -/
def rampOk (freq : Nat) (r : List Int) : Bool := r.all fun x => freqOk (freqRamp freq x)

/-- CLOCK_SYNTH_PROFILE_LOADED (R401, R402): the profile waits for its moment, or the load fails. The firmware loads it. -/
def execClockSynthProfileLoaded (synth : Nat) (host : List Byte) (s : State) : Out :=
  match (s.synth synth).loads with
  | [] => .next s
  | (c, address, crc) :: rest =>
    let s := coreRead hostCore address 2048 s
    if !s.coreUp hostCore then .next s else
    let s := s.modSynth synth fun x => { x with loads := rest }
    match s.tableOr address 2048 host with
    | some b =>
      if crc32c b = crc && rampOk (s.synth synth).freq (rampOf b) then
        .next (complete c Status.ok [] (s.modSynth synth fun x => { x with rampNext := some (rampOf b) }))
      else .next (complete c Status.failed [] s)
    | none => .next (complete c Status.failed [] s)

/-- Sum of pitch over a line of `n` pixels, 24.16 sub-ticks (R179, R403). -/
def linePitch (x : Synth) (n : Nat) : Int := ((List.range n).map fun i => x.pitch (segmentOf i n)).sum

/-- LINE_PHASE_CHECK (R403, R404): the span of 2N synthesiser edges of a line, in 24.16 sub-ticks, against the sum of pitch,
while the synthesiser is locked. -/
def execLinePhaseCheck (synth span : Nat) (s : State) : Out :=
  let x := s.synth synth
  let n := (s.station synth).pixels
  let diff := (span : Int) - linePitch x n
  if !s.clk.locked.getLsbD (synth + 3) || diff.natAbs ≤ x.phaseTol * 65536 then .next s
  else
    let s := s.modSynth synth fun x => { x with phaseErrors := x.phaseErrors.inc, raised := true }
    .next (if x.raised then s else present 0x0205 (some synth) 0 s)

/-! ### Commands -/

/-- clock.synth.config (0x1001, R400, R405, R408). -/
def execClockSynthConfig (rq : Req) (s : State) : Out :=
  let i := rq.u8 0
  let freq := if rq.u32 4 = 0 then freqOfClock (s.station i).clockKhz else rq.u32 4
  let enable := rq.u8 1 = 1
  command 0x1001 rq
    [(4 ≤ i, Status.outOfRange),
     (1 < rq.u8 1 || rq.u16 8 < 10 || (rq.u32 4 = 0 && !(s.station i).configured) || !freqOk freq, Status.badValue),
     (pageActive s i, Status.state)]
    (fun s =>
      let s := synthGateSet i (relock i (loopOut (3 + i) s))
      let s := s.modSynth i fun x => { x with enabled := enable, freq := freq, bdReset := rq.bit 2 0, phaseTol := rq.u16 8 }
      if enable then accept rq 0x1001 [] (s.modSynth i fun x => { x with ctx := x.ctx ++ [(s.time, rq.ctx s 0x1001)] })
      else respond rq 0x1001 Status.ok [] s) s

/-- clock.synth.profile (0x1002). -/
def execClockSynthProfile (rq : Req) (s : State) : Out :=
  let i := rq.u8 0
  let s := tableRead 0x1002 rq (rq.u64 4) 2048 s
  let b := s.table (rq.u64 4) 2048
  let crc := BitVec.ofNat 32 (rq.u32 12)
  let crcBad := match b with
    | some b => crc32c b ≠ crc
    | none => false
  let rangeBad := match b with
    | some b => !crcBad && !rampOk (s.synth i).freq (rampOf b)
    | none => false
  command 0x1002 rq [(4 ≤ i, Status.outOfRange), (rangeBad, Status.badValue), (crcBad, 0x9001)]
    (fun s => accept rq 0x1002 [] (s.modSynth i fun x => { x with loads := x.loads ++ [(rq.ctx s 0x1002, rq.u64 4, crc)] })) s

/-- clock.status (0x1003). -/
def execClockStatus (rq : Req) (s : State) : Out :=
  command 0x1003 rq [] (fun s => respond rq 0x1003 Status.ok
    (leBytes 1 (bit s.clk.refIn) ++ leBytes 1 s.clk.locked.toNat ++ leBytes 1 s.clk.included.toNat ++ zeros 1 ++
     leBytes 2 s.clk.senseMv ++ zeros 2 ++ (s.clk.synths.flatMap fun x => x.unlocks.bytes) ++
     (s.clk.synths.flatMap fun x => x.phaseErrors.bytes)) s) s

/-- clock.synth.raw (0x1080). -/
def execClockSynthRaw (rq : Req) (s : State) : Out :=
  let i := rq.u8 0
  command 0x1080 rq
    [(4 ≤ i, Status.outOfRange), (7 < rq.u8 1 || 15 < rq.u8 2, Status.badValue), (pageActive s i, Status.state)]
    (fun s => respond rq 0x1080 Status.ok [] (s.modSynth i fun x => { x with rawNext := some (rq.u8 1, rq.u8 2) })) s

end Sys2Proof.Machine
end

