-- ==== Sys2Proof/Machine/Counters.lean ====
section
/-!
DEFINITION. Counters (spec/24_counters_limits.md): the saturating counts of each group and unit, and the commands of group
0x17.
-/
namespace Sys2Proof.Machine

open Sys2Proof

/-! ### The counts of one unit, and the unit with them zeroed (R510) -/

def Source.counts (x : Source) : List Count := [x.missed, x.rollbacks, x.overruns]
def Source.zeroed (x : Source) : Source := { x with missed := {}, rollbacks := {}, overruns := {} }

def Link.counts (x : Link) : List Count := [x.violations, x.resyncs, x.txLate, x.partnerLate, x.linkDowns]
def Link.zeroed (x : Link) : Link :=
  { x with violations := {}, resyncs := {}, txLate := {}, partnerLate := {}, linkDowns := {} }

def RunAhead.counts (x : RunAhead) : List Count := x.rb ++ [x.missed, x.underruns, x.tileFail, x.tileAgain, x.tileBlank]
def RunAhead.zeroed (x : RunAhead) : RunAhead :=
  { x with rb := List.replicate 6 {}, missed := {}, underruns := {}, tileFail := {}, tileAgain := {}, tileBlank := {},
           maxNs := 0 }

def Station.counts (x : Station) : List Count :=
  [x.byTelem, x.byBd, x.stray, x.dropped, x.repeated, x.overlaps, x.clipped]
def Station.zeroed (x : Station) : Station :=
  { x with byTelem := {}, byBd := {}, stray := {}, dropped := {}, repeated := {}, overlaps := {}, clipped := {} }

/-- The counts of a head in the scanning group. -/
def Head.scanCounts (x : Head) : List Count := [x.straitWait, x.implicit]
def Head.scanZeroed (x : Head) : Head := { x with straitWait := {}, implicit := {} }

/-- The counts of a head in the overlap and melt-pool group. -/
def Head.overlapCounts (x : Head) : List Count :=
  [x.waits, x.intrusions, x.received, x.wonM, x.wonT, x.wonC, x.saturated]
def Head.overlapZeroed (x : Head) : Head :=
  { x with waits := {}, intrusions := {}, received := {}, wonM := {}, wonT := {}, wonC := {}, saturated := {}, waitMaxUs := 0 }

def Loop.counts (x : Loop) : List Count := [x.held, x.deselects, x.overflows]
def Loop.zeroed (x : Loop) : Loop := { x with held := {}, deselects := {}, overflows := {} }

def Repctl.sums (x : Repctl) : List Count := [x.clamped, x.skipped]
def Repctl.zeroed (x : Repctl) : Repctl := { x with clamped := {}, skipped := {} }

def Stream.counts (x : Stream) : List Count :=
  [x.dropped, x.short, x.long, x.unterm, x.crcLines, x.hdrCorr, x.hdrLost, x.trunc, x.recsWritten, x.orphans]
def Stream.zeroed (x : Stream) : Stream :=
  { x with dropped := {}, short := {}, long := {}, unterm := {}, crcLines := {}, hdrCorr := {}, hdrLost := {}, trunc := {},
           recsWritten := {}, orphans := {} }

def Lag.counts (x : Lag) : List Count := [x.stalls, x.corrected, x.uncorr, x.fillOrder]
def Lag.zeroed (x : Lag) : Lag := { x with stalls := {}, corrected := {}, uncorr := {}, fillOrder := {} }

def Dram.counts (x : Dram) : List Count := [x.corrected, x.uncorr, x.throttles, x.starved, x.rmw, x.poisoned]
def Dram.zeroed (x : Dram) : Dram :=
  { x with corrected := {}, uncorr := {}, throttles := {}, starved := {}, rmw := {}, poisoned := {} }

def Motor.counts (x : Motor) : List Count := [x.syncLosses, x.startFails, x.busBrakes]
def Motor.zeroed (x : Motor) : Motor := { x with syncLosses := {}, startFails := {}, busBrakes := {} }

def Axis.counts (x : Axis) : List Count := [x.starved, x.limitStops, x.posLosts]
def Axis.zeroed (x : Axis) : Axis := { x with starved := {}, limitStops := {}, posLosts := {} }

def Synth.counts (x : Synth) : List Count := [x.unlocks, x.phaseErrors]
def Synth.zeroed (x : Synth) : Synth := { x with unlocks := {}, phaseErrors := {} }

def Unit'.counts (x : Unit') : List Count := [x.throttleMs, x.trips]
def Unit'.zeroed (x : Unit') : Unit' := { x with throttleMs := {}, trips := {} }

def Lamp.counts (x : Lamp) : List Count := [x.lampFails, x.commErrors]
def Lamp.zeroed (x : Lamp) : Lamp := { x with lampFails := {}, commErrors := {} }

/-! ### Groups -/

/-- The members of a table that UNIT names: one, or all for 0xFF. -/
def picked {α : Type} (u : Nat) (l : List α) : List α := if u = 0xFF then l else (l.drop u).take 1

/-- The table with the members that UNIT names changed. -/
def pickMap {α : Type} (u : Nat) (f : α → α) (l : List α) : List α := if u = 0xFF then l.map f else modAt l u f

/-- How many counts are not 0. -/
def held (cs : List Count) : Nat := (cs.filter fun c => c.val ≠ 0).length

/-- The held maxima of a table that are not 0. -/
def heldMax (ms : List Nat) : Nat := (ms.filter (· ≠ 0)).length

/-- UNIT exists in a group (R510); groups 0x06, 0x0B and 0x12 have no units, and every UNIT names their counts. -/
def unitNamed (s : State) (g u : Nat) : Bool :=
  u = 0xFF ||
  match g with
  | 0x02 => u < 50 || (64 ≤ u && u < 96)
  | 0x03 => u < s.nLinks
  | 0x04 => u < if s.mci.personality = .forge then s.nHeads else 4
  | 0x05 => u < 4
  | 0x07 => u < s.nHeads
  | 0x08 => u < s.nHeads
  | 0x09 => u < 64
  | 0x0A => u < 16
  | 0x0C => u < 32
  | 0x0D => u < 4
  | 0x0E => u < 8
  | 0x0F => u < 16
  | 0x10 => u < 4
  | 0x11 => unitExists s u
  | 0x13 => u < 8
  | _ => true

/-- Group 0x04 names stations, and heads where the personality in use is Forge; 0xFF names both (R510). -/
def raStations (s : State) (u : Nat) : List Station := if u ≠ 0xFF ∧ s.mci.personality = .forge then [] else picked u s.stations
def raHeads (s : State) (u : Nat) : List Head := if u = 0xFF ∨ s.mci.personality = .forge then picked u s.heads else []

/-- The saturating counts of a group that UNIT names (R510). -/
def countsOf (s : State) (g u : Nat) : List Count :=
  let all : Bool := u = 0xFF
  match g with
  | 0x02 => (picked u s.sources).flatMap Source.counts ++ if all then [s.sync.crcErrors] else []
  | 0x03 => (picked u s.links).flatMap Link.counts
  | 0x04 => ((raStations s u).map (·.ra) ++ (raHeads s u).map (·.ra)).flatMap RunAhead.counts
  | 0x05 => (picked u s.stations).flatMap Station.counts
  | 0x06 => [s.topUnmatched]
  | 0x07 => (picked u s.heads).flatMap Head.scanCounts ++ if all then [s.forge.implicit, s.forge.unexecuted] else []
  | 0x08 => (picked u s.heads).flatMap Head.overlapCounts
  | 0x09 => (picked u s.engine.loops).flatMap Loop.counts ++ if all then s.engine.repctls.flatMap Repctl.sums else []
  | 0x0A => (picked u s.cam.streams).flatMap Stream.counts
  | 0x0B => s.lag.counts ++ s.dram.counts
  | 0x0C => (picked u s.dma.channels).map (·.bad)
  | 0x0D => (picked u s.dma.engines).flatMap (·.results)
  | 0x0E => (picked u s.bldc.motors).flatMap Motor.counts
  | 0x0F => (picked u s.motion).flatMap Axis.counts
  | 0x10 => (picked u s.clk.synths).flatMap Synth.counts
  | 0x11 => (picked u s.therm.units).flatMap Unit'.counts
  | 0x12 => [s.pwr.railFaults]
  | 0x13 => (picked u s.lamps).flatMap Lamp.counts
  | _ => []

/-- The held maxima of a group that UNIT names: RB_MAX_NS, WAIT_MAX_US, MAX_WAIT_NS (R507, R510). -/
def maximaOf (s : State) (g u : Nat) : List Nat :=
  match g with
  | 0x04 => (raStations s u).map (·.ra.maxNs) ++ (raHeads s u).map (·.ra.maxNs)
  | 0x08 => (picked u s.heads).map (·.waitMaxUs)
  | 0x0C => (picked u s.dma.channels).map (·.maxWait.toNat)
  | _ => []

def Station.raZeroed (x : Station) : Station := { x with ra := x.ra.zeroed }
def Head.raZeroed (x : Head) : Head := { x with ra := x.ra.zeroed }
def Channel.zeroed (x : Channel) : Channel := { x with bad := {}, maxWait := 0 }
def Deflate.zeroed (x : Deflate) : Deflate := { x with results := List.replicate 7 {} }

/-- Group 0x04 cleared. -/
def clearRunAhead (u : Nat) (s : State) : State :=
  let forge : Bool := s.mci.personality = .forge
  let s := if u ≠ 0xFF && forge then s else { s with stations := pickMap u Station.raZeroed s.stations }
  if u = 0xFF || forge then { s with heads := pickMap u Head.raZeroed s.heads } else s

/-- The counts and maxima of a group that UNIT names are zeroed (R506, R510). -/
def clearCounts (g u : Nat) (s : State) : State :=
  let all : Bool := u = 0xFF
  match g with
  | 0x02 =>
    let s := { s with sources := pickMap u Source.zeroed s.sources }
    if all then { s with sync := { s.sync with crcErrors := {} } } else s
  | 0x03 => { s with links := pickMap u Link.zeroed s.links }
  | 0x04 => clearRunAhead u s
  | 0x05 => { s with stations := pickMap u Station.zeroed s.stations }
  | 0x06 => { s with topUnmatched := {} }
  | 0x07 =>
    let s := { s with heads := pickMap u Head.scanZeroed s.heads }
    if all then { s with forge := { s.forge with implicit := {}, unexecuted := {} } } else s
  | 0x08 => { s with heads := pickMap u Head.overlapZeroed s.heads }
  | 0x09 =>
    let rs := if all then s.engine.repctls.map Repctl.zeroed else s.engine.repctls
    { s with engine := { s.engine with loops := pickMap u Loop.zeroed s.engine.loops, repctls := rs } }
  | 0x0A => { s with cam := { s.cam with streams := pickMap u Stream.zeroed s.cam.streams } }
  | 0x0B => { s with lag := s.lag.zeroed, dram := s.dram.zeroed }
  | 0x0C => { s with dma := { s.dma with channels := pickMap u Channel.zeroed s.dma.channels } }
  | 0x0D => { s with dma := { s.dma with engines := pickMap u Deflate.zeroed s.dma.engines } }
  | 0x0E => { s with bldc := { s.bldc with motors := pickMap u Motor.zeroed s.bldc.motors } }
  | 0x0F => { s with motion := pickMap u Axis.zeroed s.motion }
  | 0x10 => { s with clk := { s.clk with synths := pickMap u Synth.zeroed s.clk.synths } }
  | 0x11 => { s with therm := { s.therm with units := pickMap u Unit'.zeroed s.therm.units } }
  | 0x12 => { s with pwr := { s.pwr with railFaults := {} } }
  | 0x13 => { s with lamps := pickMap u Lamp.zeroed s.lamps }
  | _ => s

/-- The counts of a group that counters.clear does not touch or that no group code of it covers (R505, R510): log counts,
fault records, the core's and the OTP's counts. -/
def otherCounts (s : State) (g : Nat) : List Count :=
  match g with
  | 0x00 => [s.mci.vcount, s.mci.eventDrops]
  | 0x0B => [s.lag.logOver, s.dram.logOver, s.dram.rowOver]
  | 0x14 => s.flt.count :: s.flt.records.map (·.count)
  | 0x15 => [s.otp.burned]
  | _ => []

/-- A 64-bit saturating count of Forge or of a page at its end: VECTORS and ENERGY (R163, R227). -/
def fullTotals (s : State) (g : Nat) : Bool :=
  if g = 0x07 then 2 ^ 64 - 1 ≤ s.forge.vectors || s.heads.any fun x => 2 ^ 64 - 1 ≤ x.energy
  else if g = 0x06 then s.stations.any fun x => x.jobs.any fun j => 2 ^ 64 - 1 ≤ j.energy
  else false

/-- GROUPS of counters.overflow.read (R505). -/
def overflowGroups (s : State) : Nat :=
  maskOf ((List.range 24).filter fun g =>
    (countsOf s g 0xFF ++ otherCounts s g).any (fun c => c.ovf) || fullTotals s g)

/-- counters.overflow.read (0x1701). -/
def execCountersOverflowRead (rq : Req) (s : State) : Out :=
  command 0x1701 rq [] (fun s => respond rq 0x1701 Status.ok (leBytes 4 (overflowGroups s) ++ zeros 4) s) s

/-- counters.clear (0x1702; R506, R510). -/
def execCountersClear (rq : Req) (s : State) : Out :=
  let g := rq.u8 0
  let u := rq.u8 1
  command 0x1702 rq [(g < 0x02 || 0x13 < g, Status.badValue), (!unitNamed s g u, Status.outOfRange)]
    (fun s => respond rq 0x1702 Status.ok (leBytes 4 (held (countsOf s g u) + heldMax (maximaOf s g u))) (clearCounts g u s)) s

end Sys2Proof.Machine
end

