-- ==== Sys2Proof/Machine/Engine.lean ====
section
/-!
DEFINITION. The control engine (spec/10_control_engine.md): evaluations, learning, recipes, and the commands of group
0x09.
-/
namespace Sys2Proof.Machine

open Sys2Proof

def Status.recipeBad : Nat := 0x8901
def Status.notLoaded : Nat := 0x8902

/-! ### Evaluation (R257, R260) -/

/-- The loops a head owns (R251). -/
def ownedLoops (x : Head) (s : State) : List Nat :=
  if x.loopKind = 1 then [x.loop] else if x.loopKind = 2 then (s.group x.loop).members else []

/-- Stamp of the emission on of a head's vector (R218); one that the head no longer holds lies in the past. -/
def Head.emissionOn (x : Head) (q : Nat) : Int :=
  match x.vecs.find? fun v => v.r.seqNo = q with
  | some v => v.start + x.trackSub
  | none => match x.actives.find? fun a => a.r.seqNo = q with
    | some a => a.on
    | none => 0

/-- START_RESET (R263): at the first evaluation after an emission on, the loops of the head start from cleared states, and
its gain from 1.0. -/
def startGain (slot : Nat) (s : State) : State :=
  match headOwner s slot with
  | none => s
  | some h =>
    let x := s.head h
    let due := x.resetFor.filter fun q => x.emissionOn q ≤ s.now
    if due = [] then s
    else
      (ownedLoops x s).foldl (fun s i => s.modLoop i fun l => { l with resetNext := true })
        (s.modHead h fun x => { x with g := 2 ^ 15, resetFor := x.resetFor.filter fun q => !due.contains q })

/-- The mean of a head's PD_CHANNEL is known (R248, R252): how long it has been dark while one vector emits. -/
def noteMean (h mean : Nat) (s : State) : State :=
  s.modHead h fun x =>
    let since := match x.lit s.now with
      | some a => if x.darkMin ≤ mean then none else some (match x.darkFrom with
          | some t => if a.on ≤ 64 * (t.toNat : Int) then t else s.time
          | none => s.time)
      | none => none
    { x with pdMean := mean, dark := x.dark && mean < x.darkMin, darkFrom := since }

/-- Steps 1 and 2 of R260 for one slot: the input is latched, and the chain evaluated. -/
def evaluate (slot counts : Nat) (s : State) : State :=
  let s := s.modLoop slot fun l => l.takeRef s.time.toNat
  let s := if (s.loop slot).resetNext then
      s.modLoop slot fun l => { l with stages := l.stages.map Stage.clear, resetNext := false }
    else s
  let l := s.loop slot
  let kept := l.inSel.kind = 3 && l.pdCnt = 0
  let s := if l.inSel.kind = 2 then s.modBias l.inSel.index fun b => { b with readback := counts % 4096 } else s
  let (input, s) := if kept then (l.input, s) else fitted (selValue l.inSel s.engine.tick counts l.pdSum l.pdCnt s) s
  let (x, s) := fitted (some (if l.invert then input - l.ref else l.ref - input)) s
  let r := evalStages l.stages x
  let u := r.1 + l.bias + additive s slot
  let lim := loopLimits s slot
  let s := s.modLoop slot fun l =>
    { l with stages := r.2.1, out := min (max u lim.1) lim.2, outBefore := (l.out, s.engine.tick), err := x, input := input, evals := l.evals + 1,
             saturated := u ≤ lim.1 || lim.2 ≤ u, overflows := l.overflows.add r.2.2, fresh := true }
  let s := match headOwner s slot with
    | some h => if l.inSel.kind = 3 && l.inSel.index = (s.head h).pd && 0 < l.pdCnt then noteMean h (openDiv l.pdSum l.pdCnt) s else s
    | none => s
  if 0 < r.2.2 ∧ !l.numeric then present 0x0121 (some slot) 0 (s.modLoop slot fun l => { l with numeric := true }) else s

/-- HOLD bits of a head's loop (forge.meltpool.status). -/
def noteHold (slot : Nat) (s : State) : State :=
  match headOwner s slot with
  | some h =>
    let bits := ofBits [((s.head h).lit s.now).isNone, inputHeld s h slot, (s.loop slot).saturated]
    s.modHead h fun x => { x with hold := BitVec.ofNat 8 bits }
  | none => s

/-- A slot's scheduled evaluation is the next of all: at one tick, slots are evaluated in ascending order (R260). -/
def nextToEvaluate (s : State) (slot : Nat) : Bool :=
  let t := (s.loop slot).dueTick
  (enabledSlots s).all fun i => t < (s.loop i).dueTick || (t = (s.loop i).dueTick && slot ≤ i)

/-- LOOP_EVALUATION (R257 to R264) at its scheduled tick (log entry 4), in the order of R260: a row out of that order has
no effect. An evaluation that comes after step 4 raises CE_OVERRUN. A member's group is settled when all its enabled
members have been evaluated (log entry 31). -/
def execLoopEvaluation (slot counts : Nat) (s : State) : Out :=
  let l := s.loop slot
  if !l.loaded || !l.enabled || !nextToEvaluate s slot then .next s
  else
    let t := l.dueTick
    let s := classGrants 2 128 ({ s with engine := { s.engine with tick := t } }.advanceTo t)
    let s := if t + 1280 < s.time.toNat then present 0x0120 (some slot) 0 s else s
    let s := startGain slot (s.modLoop slot fun l => { l with lastTick := t })
    let s := noteHold slot (evaluate slot counts s)
    match (s.loop slot).group with
    | none => .next (settleLoop slot s)
    | some g => .next (settleFresh g s)

/-- REPCTL_UPDATE (R266 to R268): in Confluence mode with the k and e of the last accepted edge; otherwise when the
index has changed, with the error sampled now. -/
def execRepctlUpdate (k counts : Nat) (s : State) : Out :=
  let r := s.repctl k
  match r.mode with
  | 0 => .next s
  | 1 =>
    match r.pending with
    | (j, e, t) :: rest =>
      let s := s.modRepctl k fun r => { r with pending := rest, j := j }
      if r.updates ≠ 0 ∧ (t - r.last).toNat < 1600 then .next (s.modRepctl k fun r => { r with skipped := r.skipped.inc })
      else .next ((learn k j e s).modRepctl k fun r => { r with last := t })
    | [] => .next s
  | _ =>
    let j := repIndex s r s.time.toNat
    if j = r.j then .next s
    else
      let s := s.modRepctl k fun r => { r with j := j, pdSum := 0, pdCnt := 0 }
      if r.updates ≠ 0 ∧ (s.time - r.last).toNat < 1600 then .next (s.modRepctl k fun r => { r with skipped := r.skipped.inc })
      else if r.mode = 3 ∧ (s.loop r.dest).heldRun ≠ 0 then .next s
      else
        let (v, s) := fitted (selValue r.errSel s.time.toNat counts r.pdSum r.pdCnt s) s
        let (e, s) := fitted (some (v - r.errRef)) s
        .next (learn k j e s)

/-! ### Recipe images (R270) -/

def selAt (b : List Byte) (o : Nat) : Sel := { kind := leAt b o 1, index := leAt b (o + 1) 1, sub := leAt b (o + 2) 1 }

/-- A stage record: none where it fails R257, R258 or R270. -/
def stageOf (fmt : Nat) (b : List Byte) : Option Stage :=
  let idx := List.range 8
  let coef := idx.map fun k => if fmt = 1 then asSigned 24 (leAt b (4 * k) 3) else leAtI b (4 * k) 4
  let shift := idx.map fun k => leAt b (32 + k) 1
  let integ := (leAt b 40 1).testBit 0
  if fmt = 0 && shift.any (31 < ·) then none
  else if integ && (at' coef 3 0 ≠ 0 || at' coef 6 0 ≠ 0) then none
  else some { coef := coef, shift := if fmt = 1 then zeroShift else shift, expo := if fmt = 1 then leAtI b 32 1 else 0,
              integ := integ, float := fmt = 1 }
where
  zeroShift : List Nat := List.replicate 8 0

/-- The stages of a loop record. -/
def stagesOf (fmt : Nat) (b : List Byte) : Nat → Option (List Stage)
  | 0 => some []
  | n + 1 => do
    let front ← stagesOf fmt b n
    let g ← stageOf fmt ((b.drop (32 + 48 * n)).take 48)
    return front ++ [g]

/-- A loop record: its slot and loop; none where it fails R257 or R270. -/
def loopRecord (b : List Byte) : Option (Nat × Loop) :=
  let slot := leAt b 0 1
  let fmt := leAt b 1 1
  let n := leAt b 2 1
  let period := leAt b 4 4
  let inSel := selAt b 24
  let outSel : Sel := { kind := leAt b 28 1, index := leAt b 29 1 }
  if 64 ≤ slot || 1 < fmt || n = 0 || 4 < n || period < 1600 || 1600000 < period then none
  else if leAtI b 16 4 ≤ leAtI b 12 4 || !inSelOk inSel || !outSelOk outSel then none
  else if ((b.drop (32 + 48 * n)).take (48 * (4 - n))).any (· ≠ 0) then none
  else match stagesOf fmt b n with
    | none => none
    | some gs => some (slot, {
        loaded := true, enabled := (leAt b 3 1).testBit 1, invert := (leAt b 3 1).testBit 0, stages := gs, period := period,
        ref := leAtI b 8 4, outMin := leAtI b 12 4, outMax := leAtI b 16 4, bias := leAtI b 20 4, inSel := inSel,
        outSel := outSel })

/-- An owning command gives the slot its input: a bias channel, or a head with an input (R206, R271). -/
def inputOwned (s : State) (slot : Nat) : Bool :=
  (biasOwner s slot).isSome || match headOwner s slot with
    | some h => (s.head h).loopKind = 1 && (s.head h).inputKind ≠ 0
    | none => false

/-- A loop record takes its slot, every stage cleared; the binding of an owner, the group and the counts of the slot stay,
and what it delivered stands until its first scheduled evaluation (R271). An output of kinds 1 to 3 is bound by an owner
only (R256). An enabled slot that the record disables delivers its OUT_MIN (R263). -/
def loadLoop (slot : Nat) (l : Loop) (s : State) : Option State :=
  let old := s.loop slot
  let own := slotOwned s slot
  if !own && 1 ≤ l.outSel.kind && l.outSel.kind ≤ 3 then none
  else
    let s := s.modLoop slot fun _ =>
      { l with inSel := if inputOwned s slot then old.inSel else l.inSel, outSel := if own then old.outSel else l.outSel,
               group := old.group, phase := old.phase, evals := old.evals, held := old.held, deselects := old.deselects,
               overflows := old.overflows, numeric := old.numeric, out := old.out, outBefore := old.outBefore, err := old.err, input := old.input,
               saturated := old.saturated, deselected := old.deselected, limited := old.limited,
               ownerHold := old.ownerHold, lastTick := s.time.toNat }
    some (idleGroupOf slot (if old.enabled && !l.enabled then disableLoop slot s else s))

/-- A group may be formed of some slots (R264): 2 to 8 loaded slots of one period, in no other group, with no output of
their own. -/
def groupOk (g : Nat) (ms : List Nat) (s : State) : Bool :=
  2 ≤ ms.length && ms.length ≤ 8 && ms.all (fun i => i < 64 && (s.loop i).loaded && (s.loop i).outSel.kind = 0 &&
    ((s.loop i).group = none || (s.loop i).group = some g)) && ms.eraseDups = ms &&
  match ms.map fun i => (s.loop i).period with
  | p :: ps => ps.all (· = p)
  | [] => false

/-- A group takes its members. -/
def formGroup (g : Nat) (ms : List Nat) (s : State) : State :=
  let s := (s.group g).members.foldl (fun s i => s.modLoop i fun l => { l with group := none, deselected := false }) s
  ms.foldl (fun s i => s.modLoop i fun l => { l with group := some g, fresh := false })
    (s.modGroup g fun x => { x with members := ms })

/-- Forming the group of members `ms` removes a member from a group bound to a destination (R264). -/
def removesBound (g : Nat) (ms : List Nat) (s : State) : Bool :=
  (s.group g).outSel.kind ≠ 0 && (s.group g).members.any fun i => !ms.contains i

/-- A group record: what it does, or the status that refuses it. -/
def loadGroup (b : List Byte) (s : State) : Except Nat State :=
  let g := leAt b 0 1
  let n := leAt b 1 1
  let rest := (b.drop (2 + n)).take (8 - n)
  let ms := (List.range n).map fun k => leAt b (2 + k) 1
  let out : Sel := { kind := leAt b 10 1, index := leAt b 11 1 }
  let own := (List.range 24).any fun h => (s.head h).loopKind = 2 && (s.head h).loop = g
  if 16 ≤ g || !groupOk g ms s || !outSelOk out || rest.any (· ≠ 0xFF) || (!own && 1 ≤ out.kind && out.kind ≤ 3) then
    .error Status.recipeBad
  else if removesBound g ms s then .error Status.state
  else .ok (idleGroup g ((formGroup g ms s).modGroup g fun x => { x with outSel := if own then x.outSel else out }))

/-- A controller record. A binding keeps its mode, and a Confluence source the PERIOD it has set (R94, R266). -/
def loadRepctl (b : List Byte) (s : State) : Option State :=
  let k := leAt b 0 1
  let dest := leAt b 1 1
  let period := leAt b 4 2
  let errSel := selAt b 20
  let r := s.repctl k
  if 8 ≤ k || (dest ≠ 0 && dest ≠ 2) || (dest = 2 && 64 ≤ leAt b 2 1) || !sourceExists (leAt b 3 1) then none
  else if period = 0 || 4096 < period || 255 < leAt b 6 2 || leAtI b 12 4 < 0 || leAt b 16 4 = 0 || !inSelOk errSel then none
  else
    let bound := r.mode = 1 || r.mode = 2
    let s := bindRepctl k (if bound then r.mode else if dest = 2 then 3 else 4) (if r.mode = 1 then r.period else period) s
    some (s.modRepctl k fun r =>
      { r with lead := leAt b 6 2, gain := leAt b 8 2, forget := leAt b 10 2, clamp := (leAtI b 12 4).toNat,
               counts := leAt b 16 4, source := leAt b 3 1, errSel := errSel, errRef := leAtI b 24 4,
               dest := leAt b 2 1 })

/-- The records of an image in order: the state with them loaded, the slots loaded and the groups formed; or the status and
the first bad record. -/
def loadRecords (img : List Byte) (kind : Nat → Nat) :
    Nat → Nat → Nat → State × List Nat × List Nat → Except (Nat × Nat) (State × List Nat × List Nat)
  | _, _, 0, r => .ok r
  | i, o, n + 1, (s, slots, groups) =>
    let size := if kind i = 0 then 224 else if kind i = 1 then 16 else 32
    let b := (img.drop o).take size
    let next : Except Nat (State × List Nat × List Nat) :=
      if kind i = 0 then
        match (loopRecord b).bind fun r => (loadLoop r.1 r.2 s).map fun s => (s, slots ++ [r.1], groups) with
        | some r => .ok r
        | none => .error Status.recipeBad
      else if kind i = 1 then (loadGroup b s).map fun s => (s, slots, groups ++ [leAt b 0 1])
      else
        match loadRepctl b s with
        | some s => .ok (s, slots, groups)
        | none => .error Status.recipeBad
    match next with
    | .error st => .error (st, i)
    | .ok r => loadRecords img kind (i + 1) (o + size) n r

/-- The members of a slot's group share its period and have no output of their own (R264). -/
def groupHolds (s : State) (slot : Nat) : Bool :=
  match (s.loop slot).group with
  | some g => (s.group g).members.all fun i => (s.loop i).period = (s.loop slot).period && (s.loop i).outSel.kind = 0
  | none => true

/-- Slots whose phases are assigned together: a slot alone, or its whole group (R269). -/
def phaseMates (s : State) (slot : Nat) : List Nat :=
  match (s.loop slot).group with
  | some g => (s.group g).members
  | none => [slot]

/-- What a load of a recipe image does (R269 to R271; log entry 84): the state, or the status and the bad record. -/
def loadRecipe (img : List Byte) (crc : Nat) (s : State) : Except (Nat × Nat) (State × List Nat) :=
  let nl := leAt img 6 1
  let ng := leAt img 7 1
  let nr := leAt img 8 1
  if (crc32c img).toNat ≠ crc || leAt img 0 4 ≠ 0x50434552 || leAt img 4 2 ≠ 1 || 64 < nl || 16 < ng || 8 < nr ||
     leAt img 12 4 ≠ img.length || img.length ≠ 16 + 224 * nl + 16 * ng + 32 * nr then .error (Status.recipeBad, 0xFFFF)
  else
    let slots := (List.range nl).map fun i => leAt img (16 + 224 * i) 1
    match (List.range nl).find? fun i => ownerActive s (at' slots i 0) with
    | some i => .error (Status.state, i)
    | none =>
      match loadRecords img (fun i => if i < nl then 0 else if i < nl + ng then 1 else 2) 0 16 (nl + ng + nr) (s, [], []) with
      | .error e => .error e
      | .ok (s', loaded, groups) =>
        match (List.range nl).find? fun i => !groupHolds s' (at' slots i 0) with
        | some i => .error (Status.recipeBad, i)
        | none =>
          let units := ((loaded.map fun i => phaseMates s' i) ++ groups.map fun g => (s'.group g).members).eraseDups
          match assignPhases units s' with
          | none => .error (Status.noResource, 0xFFFF)
          | some s' => .ok (s', loaded)

/-- control.recipe.load (R269 to R271): the image is checked and its load begins. -/
def execControlRecipeLoad (rq : Req) (s : State) : Out := serveReq 0x0901 rq (s := coreRead hostCore (rq.u64 0) (rq.u32 8) s) fun s =>
  let address := rq.u64 0
  let n := rq.u32 8
  match s.table address n with
  | none => .next (respond rq 0x0901 Status.badValue [] s)
  | some img =>
    match loadRecipe img (rq.u32 12) s with
    | .error (st, _) => .next (respond rq 0x0901 st [] s)
    | .ok _ =>
      .next (accept rq 0x0901 [] { s with engine := { s.engine with load := s.engine.load ++
        [(rq.ctx s 0x0901, address, n, BitVec.ofNat 32 (rq.u32 12))] } })

/-- CONTROL_RECIPE_LOAD_DONE (R271): the image takes effect, or the load has failed and changes nothing. -/
def execControlRecipeLoadDone (s : State) : Out :=
  match s.engine.load with
  | [] => .next s
  | (c, address, n, crc) :: rest =>
    let s := coreRead hostCore address n s
    if !s.coreUp hostCore then .next s else
    let s := { s with engine := { s.engine with load := rest } }
    let fail (bad : Nat) : State := complete c Status.failed (leBytes 2 bad ++ zeros 2 ++ zeros 8 ++ leBytes 4 (loadOf s)) s
    match s.table address n with
    | none => .next (fail 0xFFFF)
    | some img =>
      match loadRecipe img crc.toNat s with
      | .error (_, bad) => .next (fail bad)
      | .ok (s, loaded) =>
        .next (complete c Status.ok (leBytes 2 0xFFFF ++ zeros 2 ++ leBytes 8 (maskOf loaded) ++ leBytes 4 (loadOf s)) s)

/-! ### PID compilation (R272) -/

/-- A binary32 as a multiple of 2^-149; none for an infinity or a NaN. -/
def floatInt (w : Nat) : Option Int :=
  let e := w / 2 ^ 23 % 256
  let m := w % 2 ^ 23
  if e = 255 then none
  else
    let v : Nat := if e = 0 then m else (2 ^ 23 + m) * 2 ^ (e - 1)
    some (if 2 ^ 31 ≤ w then -(v : Int) else v)

/-- A fraction rounded to nearest after scaling by 2^k. -/
def scaled (x : Int × Nat) (k : Int) : Int :=
  if 0 ≤ k then nearest (x.1 * 2 ^ k.toNat) x.2 else nearest x.1 (x.2 * 2 ^ (-k).toNat)

/-- |a| > |b| × 2^16 for two fractions. -/
def farApart (a b : Int × Nat) : Bool := b.1.natAbs * a.2 * 2 ^ 16 < a.1.natAbs * b.2

/-- One stage from the coefficients b0 to b3, a1 to a3 and ki as fractions (R272); none where one is 2^31 or more. The
exponent of block floating point is the lowest that holds every mantissa (log entry 32). -/
def compileStage (cs : List (Int × Nat)) : Option Stage :=
  if cs.any fun x => 2 ^ 31 * x.2 ≤ x.1.natAbs then none
  else
    let live := cs.filter fun x => x.1 ≠ 0
    if live.any fun a => live.any fun b => farApart a b then
      let fits (k : Nat) : Bool := cs.all fun x => -2 ^ 23 ≤ scaled x (151 - k) && scaled x (151 - k) < 2 ^ 23
      let e : Int := (((List.range 256).find? fits).getD 255 : Nat) - 128
      some { coef := cs.map fun x => scaled x (23 - e), expo := e, integ := true, float := true }
    else
      let shiftOf (x : Int × Nat) : Nat := (((List.range 32).reverse).find? fun (k : Nat) => inFormat (scaled x k)).getD 0
      some { coef := cs.map fun x => scaled x (shiftOf x), shift := cs.map shiftOf, integ := true }

/-- The coefficients of R272 from KP, KI, KD, TF in 2^-149 and RATE; none where they do not exist. -/
def pidCoefs (kp ki kd tf : Int) (rate : Nat) : Option (List (Int × Nat)) :=
  let d : Int := 2 ^ 149 + tf * rate
  if tf < 0 ∨ d ≤ 0 then none
  else
    let b0 : Int × Nat := (kp * d + kd * rate * 2 ^ 149, 2 ^ 149 * d.toNat)
    let b1 : Int × Nat := (-(kp * tf * rate + kd * rate * 2 ^ 149), 2 ^ 149 * d.toNat)
    some [b0, b1, (0, 1), (0, 1), (-(tf * rate), d.toNat), (0, 1), (0, 1), (ki, 2 ^ 149 * rate)]

/-- control.pid.set (R271, R272). -/
def execControlPidSet (rq : Req) (s : State) : Out := serveReq 0x0902 rq (s := s) fun s =>
  let slot := rq.u8 0
  let rate := rq.u32 4
  let gs : Option Stage := do
    let kp ← floatInt (rq.u32 8)
    let ki ← floatInt (rq.u32 12)
    let kd ← floatInt (rq.u32 16)
    let tf ← floatInt (rq.u32 20)
    let cs ← pidCoefs kp ki kd tf rate
    compileStage cs
  let period := if rate = 0 then 0 else ticksPerSecond / rate
  let mates := phaseMates s slot
  let checks : List (Bool × Nat) :=
    [(64 ≤ slot, Status.outOfRange), (rate < 1000 || 1000000 < rate, Status.outOfRange),
     (ticksPerSecond % rate ≠ 0 || gs.isNone || rq.i32 32 ≤ rq.i32 28, Status.badValue),
     (1 < mates.length && period ≠ (s.loop slot).period, Status.badValue), (ownerActive s slot, Status.state)]
  match checks.find? fun c => c.1 with
  | some c => .next (respond rq 0x0902 c.2 [] s)
  | none =>
    let old := s.loop slot
    let l : Loop := { old with
      loaded := true, invert := rq.bit 1 0, enabled := rq.bit 1 1, stages := gs.toList, period := period, ref := rq.i32 24,
      refNext := none, outMin := rq.i32 28, outMax := rq.i32 32, bias := rq.i32 36, resetNext := false,
      lastTick := if old.enabled then old.lastTick else s.time.toNat }
    match assignPhases [mates] (s.modLoop slot fun _ => l) with
    | none => .next (respond rq 0x0902 Status.noResource [] s)
    | some s => .next (respond rq 0x0902 Status.ok [] (idleGroupOf slot (if old.enabled && !l.enabled then disableLoop slot s else s)))

/-! ### Commands -/

/-- control.loop.bind (R256). -/
def execControlLoopBind (rq : Req) (s : State) : Out :=
  let isGroup := rq.u8 0 = 1
  let i := rq.u8 1
  let inSel : Sel := { kind := rq.u8 4, index := rq.u8 5, sub := rq.u8 6 }
  let out : Sel := { kind := rq.u8 8, index := rq.u8 9 }
  let me := if isGroup then 64 + i else i
  command 0x0903 rq
    [(1 < rq.u8 0, Status.badValue), (i ≥ (if isGroup then 16 else 64), Status.outOfRange),
     ((!isGroup && !inSelOk inSel) || !outSelOk out, Status.badValue),
     (out.kind = 2 || out.kind = 3 || (out.kind = 1 && s.mci.personality = .press), Status.badValue),
     (!isGroup && (s.loop i).group.isSome && out.kind ≠ 0, Status.badValue),
     (if isGroup then (s.group i).members = [] else !(s.loop i).loaded, Status.notLoaded),
     (out.kind ≠ 0 && (loopsBoundTo s out.kind out.index).any (· ≠ me), Status.busy)]
    (fun s => respond rq 0x0903 Status.ok []
      (if isGroup then idleGroup i (s.modGroup i fun g => { g with outSel := out })
       else s.modLoop i fun l => { l with inSel := inSel, outSel := out })) s

/-- control.loop.set (R263). -/
def execControlLoopSet (rq : Req) (s : State) : Out :=
  let slot := rq.u8 0
  let on := rq.u8 1 = 1
  let trial := s.modLoop slot fun l => { l with enabled := true }
  let ls := scheduleOf trial (enabledSlots trial)
  command 0x0904 rq
    [(64 ≤ slot, Status.outOfRange), (1 < rq.u8 1 || 1 < rq.u8 2 || 1 < rq.u8 3, Status.badValue),
     (!(s.loop slot).loaded, Status.notLoaded),
     (on && !(s.loop slot).enabled && !(loadOk ls && windowsOk ls), Status.noResource)]
    (fun s =>
      let s := s.modLoop slot fun l =>
        { l with resetNext := l.resetNext || rq.u8 2 = 1, numeric := false }
      let s := if rq.u8 3 = 1 then setRef slot (rq.i32 4) s else s
      let s := if on then enableLoop slot s
        else if (s.loop slot).enabled then disableLoop slot s else s
      respond rq 0x0904 Status.ok [] s) s

/-- control.group.set (R264): N 0 dissolves the group. Members that cannot share a phase are refused as R269 refuses a load
(log entry 84). -/
def execControlGroupSet (rq : Req) (s : State) : Out :=
  let g := rq.u8 0
  let n := rq.u8 1
  let ms := (List.range n).map fun k => rq.u8 (2 + k)
  let formed := if n = 0 then some ((formGroup g [] s).modGroup g fun x => { x with outSel := {} })
    else assignPhases [ms] (formGroup g ms s)
  command 0x0905 rq
    [(16 ≤ g || n = 1 || 8 < n || ms.any (64 ≤ ·), Status.outOfRange), (ms.any fun i => !(s.loop i).loaded, Status.notLoaded),
     (n ≠ 0 && !groupOk g ms s, Status.badValue), (removesBound g ms s, Status.state), (formed.isNone, Status.noResource)]
    (fun s => respond rq 0x0905 Status.ok [] (idleGroup g (formed.getD s))) s

/-- control.loop.status. -/
def execControlLoopStatus (rq : Req) (s : State) : Out :=
  let slot := rq.u8 0
  let l := s.loop slot
  command 0x0906 rq [(64 ≤ slot, Status.outOfRange), (!l.loaded, Status.notLoaded)]
    (respond rq 0x0906 Status.ok
      (leBytesI 4 l.out ++ leBytesI 4 l.err ++ leBytesI 4 l.input ++
       leBytes 1 (ofBits [l.enabled, l.saturated, l.deselected, l.limited, l.ownerHold]) ++ leBytes 1 (l.group.getD 0xFF) ++
       leBytes 2 (openDiv l.phase 160) ++ leBytes 8 l.evals.toNat ++ l.held.bytes ++ l.deselects.bytes ++
       l.overflows.bytes ++ leBytes 4 (loadOf s))) s

/-- control.repctl.status. -/
def execControlRepctlStatus (rq : Req) (s : State) : Out :=
  let k := rq.u8 0
  let r := s.repctl k
  command 0x0907 rq [(8 ≤ k, Status.outOfRange)]
    (respond rq 0x0907 Status.ok
      (leBytes 1 r.mode ++ zeros 1 ++ leBytes 2 r.period ++ leBytes 8 r.updates.toNat ++ r.clamped.bytes ++
       r.skipped.bytes ++ leBytes 4 (r.table.foldl (fun m c => max m c.natAbs) 0))) s

/-- control.var.write. -/
def execControlVarWrite (rq : Req) (s : State) : Out :=
  let v := rq.u8 0
  command 0x0908 rq [(16 ≤ v, Status.outOfRange), (loopsBoundTo s 6 v ≠ [], Status.busy)]
    (fun s => respond rq 0x0908 Status.ok []
      { s with engine := { s.engine with vars := modAt s.engine.vars v fun _ => rq.i32 4, varsBefore := modAt s.engine.varsBefore v fun _ => (rq.i32 4, 0) } }) s

/-- control.stage.raw (R258): the coefficients of a stage are replaced, its states kept. -/
def execControlStageRaw (rq : Req) (s : State) : Out :=
  let slot := rq.u8 0
  let i := rq.u8 1
  let g := if 1 < rq.u8 2 then none else stageOf (rq.u8 2) (rq.bytes 4 48)
  command 0x0980 rq
    [(64 ≤ slot || 3 < i, Status.outOfRange), (!(s.loop slot).loaded, Status.notLoaded),
     ((s.loop slot).stages.length ≤ i, Status.outOfRange), (ownerActive s slot, Status.state), (g.isNone, Status.recipeBad)]
    (fun s => respond rq 0x0980 Status.ok [] (match g with
      | some g => s.modLoop slot fun l => { l with stages := modAt l.stages i fun o =>
          { g with s1 := o.s1, s2 := o.s2, s3 := o.s3, i := o.i, next := o.next } }
      | none => s)) s

/-- The acceptance of control.repctl.table. -/
def repctlTable (write : Bool) (rq : Req) (s : State) : Out :=
  let k := rq.u8 0
  let r := s.repctl k
  let okPlace := match s.place (rq.u64 4) with
    | .dram _ room => 4 * r.period ≤ room
    | .host _ => true
    | _ => false
  command 0x0981 rq
    [(8 ≤ k, Status.outOfRange), (1 < rq.u8 1, Status.badValue), (!r.loaded, Status.notLoaded), (!okPlace, Status.badValue)]
    (fun s => accept rq 0x0981 [] (s.modRepctl k fun r =>
      { r with xfer := r.xfer ++ [(rq.ctx s 0x0981, write, rq.u64 4, BitVec.ofNat 32 (rq.u32 12))] })) s

/-- control.repctl.table with DIRECTION 0. -/
def execControlRepctlTableRead (rq : Req) (s : State) : Out := repctlTable false rq s

/-- control.repctl.table with DIRECTION 1. -/
def execControlRepctlTableWrite (rq : Req) (s : State) : Out := repctlTable true rq s

/-- CONTROL_REPCTL_TABLE_DONE: the oldest transfer of the controller completes. -/
def execControlRepctlTableDone (k : Nat) (host : List Byte) (s : State) : Out :=
  let r := s.repctl k
  match r.xfer with
  | [] => .next s
  | (c, write, address, crc) :: rest =>
    let s := if write then coreRead cameraCore address (4 * r.period) s else s
    if !s.coreUp cameraCore then .next s else
    let s := s.modRepctl k fun r => { r with xfer := rest }
    if write then
      match s.tableOr address (4 * r.period) host with
      | none => .next (complete c Status.failed (zeros 4) s)
      | some b =>
        let got := crc32c b
        if got = crc then
          let table := (List.range r.period).map fun i => leAtI b (4 * i) 4
          .next (complete c Status.ok (leBytes 4 got.toNat) (s.modRepctl k fun r => { r with table := table }))
        else .next (complete c Status.failed (leBytes 4 got.toNat) s)
    else
      let b := r.table.flatMap (leBytesI 4)
      match putTable cameraCore address b s with
      | none => .next (complete c Status.failed (leBytes 4 (crc32c b).toNat) s)
      | some s => .next (complete c Status.ok (leBytes 4 (crc32c b).toNat) s)

end Sys2Proof.Machine
end

