-- ==== Sys2Proof/Machine/ForgeOps.lean ====
section
/-!
DEFINITION. Operations of Forge (spec/08_forge_scanning.md, spec/09_forge_overlap_meltpool.md): geometry, vectors and
their plans, fences, pauses, retirement, Strait capsules, the recoat, role interlocks and the emission permit.
-/
namespace Sys2Proof.Machine

open Sys2Proof

/-! ### Geometry (R212) -/

/-- A machine point in field units of 25 nm (R212): lane 2 and lane 3. -/
def Head.field (x : Head) (p : Point) : Int × Int :=
  let m (k : Nat) : Int := at' x.m k 0
  (roundDiv (m 0 * (p.x - x.ox) + m 1 * (p.y - x.oy)) (25 * 2 ^ 30),
   roundDiv (m 2 * (p.x - x.ox) + m 3 * (p.y - x.oy)) (25 * 2 ^ 30))

/-- The point lies in the head's field. -/
def Head.inField (x : Head) (p : Point) : Bool :=
  (x.field p).1.natAbs ≤ 8388607 && (x.field p).2.natAbs ≤ 8388607

/-! ### Records and vectors (R214, R218, R219) -/

def Rec.start (r : Rec) : Point := ⟨r.x0, r.y0⟩

/-- Where a vector ends. -/
def Rec.target (r : Rec) : Point := if r.type = 2 then ⟨r.x0, r.y0⟩ else ⟨r.x1, r.y1⟩

/-- An emitting vector: a mark, or a dwell with POWER above 0 (R233). -/
def Rec.emits (r : Rec) : Bool := r.type = 0 || (r.type = 2 && r.power ≠ 0)

/-- Periods and duration in ticks of a vector from a position (R218). -/
def Head.timing (x : Head) (r : Rec) (from_ : Point) : Nat × Nat :=
  let tsp := x.tsp
  if r.type = 2 then (1, r.speed * 1600)
  else
    let a := if r.type = 0 then r.start else from_
    let n := periodsOf (r.x1 - a.x) (r.y1 - a.y) (if r.type = 1 && r.speed = 0 then x.jumpSpeed else r.speed) tsp
    (n, n * tsp + if r.type = 1 then x.jumpSettle * 1600 else 0)

/-- Periods of the implicit jump before a mark or dwell (R219). -/
def Head.implicitJump (x : Head) (r : Rec) (from_ : Point) : Nat :=
  if r.type = 1 || r.start = from_ then 0
  else periodsOf (r.x0 - from_.x) (r.y0 - from_.y) x.jumpSpeed x.tsp

/-- Emission time of a vector in ticks (R218). -/
def Head.emission (x : Head) (r : Rec) (from_ : Point) : Nat := if r.emits then (x.timing r from_).2 else 0

/-- Energy of a fraction of FULL_SCALE_W over some ticks, in µJ (R225). -/
def energyOf (power watts ticks : Nat) : Nat := openDiv (power * watts * ticks) (65535 * 1600)

/-- Planned energy of a record on a head (R225). -/
def Head.planned (x : Head) (r : Rec) (from_ : Point) : Nat :=
  energyOf (if r.meltpool then x.powerMax else r.power) x.fullScale (x.emission r from_)

/-- Power events of a vector on lane 0: one per emission on, or one per set-point period with MELTPOOL (R218). -/
def powerEvents (x : Head) (r : Rec) (duration : Nat) : Nat :=
  if !r.emits then 0 else if r.meltpool then max 1 (ceilDiv duration x.tsp) else 1

/-- All lane events of a vector. -/
def vectorEvents (x : Head) (r : Rec) (periods jumpN duration : Nat) : Nat :=
  2 * (jumpN + periods) + (if r.emits then powerEvents x r duration + 3 else 0) + (if r.trigger then 2 else 0)

/-- The vector of a record planned to begin at a stamp from the head's planned position (R218, R219). -/
def Head.plan (x : Head) (r : Rec) (opens : Int) (rebuilt : Bool) : Vec :=
  let j := x.implicitJump r x.pos
  let t := x.timing r x.pos
  let jump : Nat := if j = 0 then 0 else j * x.tsp + x.jumpSettle * 1600
  { r := r, opens := opens, start := opens + 64 * jump, fromX := x.pos.x, fromY := x.pos.y, periods := t.1, jumpN := j,
    duration := t.2, cap := x.powerCap, planned := x.planned r x.pos, admitted := true, ready := false, rebuilt := rebuilt,
    committed := false, theta := 1024, left := vectorEvents x r t.1 j t.2, next := List.replicate 8 0, waited := none }

/-- End of a vector, sub-ticks. -/
def Vec.finish (v : Vec) : Int := v.start + 64 * v.duration

/-- The first vector of a head that is not committed. -/
def Head.nextVec (x : Head) : Option Vec := x.vecs.find? fun v => !v.committed

/-- A vector of the head is changed. -/
def Head.modVec (x : Head) (q : Nat) (f : Vec → Vec) : Head :=
  { x with vecs := x.vecs.map fun v => if v.r.seqNo = q then f v else v }

/-- The vectors of a head not yet committed. -/
def Head.vectorsLeft (x : Head) : Nat :=
  (x.vecs.filter fun v => !v.committed).length + (x.todo.filter fun r => r.type ≠ 3).length

/-- Provisional energy of a head: of its admitted vectors not yet committed (R225). -/
def Head.provisional (x : Head) : Nat := ((x.vecs.filter fun v => !v.committed && v.admitted).map (·.planned)).sum

/-- Record `k` of an array (R214). -/
def recordAt (b : List Byte) (k : Nat) : Rec :=
  let o := 32 * k
  { x0 := leAtI b o 4, y0 := leAtI b (o + 4) 4, x1 := leAtI b (o + 8) 4, y1 := leAtI b (o + 12) 4,
    speed := leAt b (o + 16) 2, power := leAt b (o + 18) 2, type := leAt b (o + 20) 1, primary := leAt b (o + 21) 1,
    alts := BitVec.ofNat 24 (leAt b (o + 22) 3), meltpool := (leAt b (o + 25) 1).testBit 0,
    trigger := (leAt b (o + 25) 1).testBit 1, noReassign := (leAt b (o + 25) 1).testBit 2, seqNo := leAt b (o + 26) 6,
    index := k }

/-- The staged record's tile is VERIFIED (R148, R150). -/
def recordReady (s : State) (r : Rec) : Bool := match recordTile s r with
  | some t => t.verified && t.fill.isNone
  | none => false

/-- The record as the trajectory generator reads it from Lagoon (R24, R31): the coordinates, the speed, the power and the
flags of its 32 bytes in the staged tile. Its place in the layer is the one that the feed core has reserved. -/
def stagedRecord (s : State) (r : Rec) : Rec :=
  if !recordReady s r then r
  else match recordTile s r with
    | some t =>
      let q := recordAt ((List.range 32).map fun k => s.tileByte t.handle (32 * (r.index % 512) + k)) 0
      { q with type := r.type, primary := r.primary, alts := r.alts, noReassign := r.noReassign, seqNo := r.seqNo,
               index := r.index, received := r.received }
    | none => r

/-- The tile of a record is admitted. -/
def admitRecord (r : Rec) (s : State) : State := match recordTile s r with
  | some t => if t.verified then s.modTile t.handle fun t => { t with admitted := true } else s
  | none => s

/-- Every later stamp of a head shifts by some sub-ticks (R223). -/
def shiftHead (h : Nat) (d : Int) (s : State) : State :=
  let move (v : Vec) : Vec := if v.committed then v else { v with opens := v.opens + d, start := v.start + d }
  let mine (e : QEvent) : Bool := match e.unit with
    | some (.vector k q) => k = h && ((s.head h).vecs.any fun v => v.r.seqNo = q && !v.committed)
    | _ => false
  let moveEvent (e : QEvent) : QEvent := if mine e then { e with stamp := e.stamp + d } else e
  let s := s.modLink h fun x =>
    let last (k : Nat) (t : LaneTx) : LaneTx := match (at' x.queues k []).getLast? with
      | some e => if mine e then { t with last := some (e.stamp + d) } else t
      | none => t
    { x with queues := x.queues.map (fun q => q.map moveEvent), lanes := mapIx last x.lanes }
  s.modHead h fun x => { x with vecs := x.vecs.map move, endAt := x.endAt + d }

/-! ### The end of the exposure (R221, R227, R230) -/

/-- Heads of the layer. -/
def layerHeads (s : State) : List Nat := (List.range s.nHeads).filter fun h => (s.head h).inLayer

/-- Every vector of every head has committed, and no reassignment is outstanding: the layer is COMPLETED (R161, R227). -/
def maybeComplete (s : State) : State :=
  if s.forge.layer = .exposing && s.forge.reassign = [] && (layerHeads s).all fun h => (s.head h).vectorsLeft = 0 then
    decideLayer 0 s
  else s

/-- A head has reached a fence: it is the next of its own records, and its own vectors before it have ended (R221). What it
has received belongs to no fence (R244). -/
def atFence (s : State) (h f : Nat) : Bool :=
  let x := s.head h
  match x.todo.find? fun r => !r.received with
  | some r =>
    r.type = 3 && pattern 32 r.x0 = f && (x.vecs.any (fun v => v.r.received) || x.endAt ≤ s.now) &&
    (x.vecs.filter fun v => !v.r.received).all fun v => v.committed && v.finish ≤ s.now
  | none => false

/-- The fence is passed for a head: it has reached it, has faulted, or has no vectors left (R221). -/
def fenceDone (s : State) (h f : Nat) : Bool :=
  let x := s.head h
  !x.inLayer || x.retired || atFence s h f || x.vectorsLeft = 0

/-- A fence is gone from a head's records; the head goes on if it waited there. -/
def Head.passFence (x : Head) (reached : Bool) (f : Nat) (now : Int) : Head :=
  let x := { x with todo := x.todo.filter fun r => !(r.type = 3 && pattern 32 r.x0 = f) }
  if !reached then x else { x with endAt := max x.endAt now, st := if x.st = 3 then 1 else x.st }

/-- Fences that every head they name has reached release the next vectors of their heads (R221). -/
def passFences (s : State) : State :=
  let fronts := (layerHeads s).filterMap fun h => match (s.head h).todo.find? fun r => !r.received with
    | some r => if r.type = 3 && atFence s h (pattern 32 r.x0) then some (pattern 32 r.x0, r.alts.toNat) else none
    | none => none
  fronts.eraseDups.foldl (fun s f =>
    if (maskBits 24 f.2).all fun h => fenceDone s h f.1 then
      let s := { s with forge := { s.forge with fencesPassed := f.1 :: s.forge.fencesPassed } }
      (maskBits 24 f.2).foldl (fun s h => s.modHead h fun x => x.passFence (atFence s h f.1) f.1 s.now) s
    else s) s

/-- The vectors left in an EXPOSING layer are each the last of their head, and all commit in this tick: an abort or a pause
that reaches the Weir now has lost (R163, R229). -/
def layerLastDue (s : State) : Bool :=
  let rolling (h : Nat) : Bool := match s.rollback with
    | some r => r.heads.contains h
    | none => false
  let ends (h : Nat) : Bool :=
    let x := s.head h
    !x.todo.any (fun r => r.type ≠ 3) && match x.vecs.filter fun v => !v.committed with
      | [] => true
      | [v] => v.admitted && v.ready && (!v.r.emits || x.token = .cleared) && !x.retired && !x.pausing && x.refused.isNone &&
        !rolling h && commitDue s h (.vector h v.r.seqNo)
      | _ => false
  s.forge.layer = .exposing && s.forge.abort.isNone && s.forge.reassign = [] && (layerHeads s).all ends

/-! ### Pauses (R229) -/

/-- Heads with vectors left. -/
def runningHeads (s : State) : List Nat := (layerHeads s).filter fun h => 0 < (s.head h).vectorsLeft && !(s.head h).retired

/-- A head holds for a pause: its uncommitted vectors are rolled back as by trigger code 2. -/
def holdHead (h : Nat) (s : State) : State :=
  let s := if (s.head h).vecs.any fun v => !v.committed then returnVectors h (rollbackTrigger 2 (linkLanes [h]) s) else s
  s.modHead h fun x => { x with pausing := false, st := 4, token := .none }

/-- The layer is PAUSED when every head that has vectors left holds (R229). -/
def maybePaused (s : State) : State :=
  if s.forge.pausing && s.forge.layer = .exposing && runningHeads s ≠ [] &&
     (runningHeads s).all fun h => !(s.head h).pausing && (s.head h).st = 4 then
    { s with forge := { s.forge with layer := .paused, pausing := false, flags := s.forge.flags ||| layerPaused } }
  else s

/-- A pause of the layer: heads that hold at a vector boundary hold for it at once; others at their next commit. -/
def pauseLayer (s : State) : State :=
  if s.forge.layer ≠ .exposing then s
  else
    let s := { s with forge := { s.forge with pausing := true } }
    let s := (runningHeads s).foldl (fun s h =>
      if holding s h then holdHead h s else s.modHead h fun x => { x with pausing := true, stopAt := s.time }) s
    maybePaused s

/-! ### Retirement (R241 to R246) -/

/-- A retired head stops: its uncommitted vectors are rolled back as by trigger code 2, and go with the rest of its
records to reassignment (R242). -/
def stopRetired (h : Nat) (s : State) : State :=
  if (s.head h).vecs.any fun v => !v.committed then
    purgeQueues (linkLanes [h]) (returnVectors h (rollbackTrigger 2 (linkLanes [h]) s))
  else s

/-- A head is retired in the layer: it stops at its next commit, or at once where it holds or has none due (R242). -/
def retireHead (h : Nat) (s : State) : State :=
  if (s.head h).retired || !(layerBusy s) then s
  else
    let s := present 0x0103 (some h) 0 s
    let s := if holding s h then stopRetired h s else s
    let s := s.modHead h fun x =>
      { x with retired := true, st := 6, longWait := false, pausing := false, stopAt := s.time }
    let s := { s with forge := { s.forge with reassign := s.forge.reassign ++ [h] } }
    maybePaused (passFences s)

/-! ### Strait (R234, R235, R239) -/

/-- a × √n ≤ b. -/
def rootLe (a b : Int) (n : Nat) : Bool :=
  if a ≤ 0 then (if 0 ≤ b then true else b * b ≤ a * a * n)
  else if b < 0 then false else a * a * n ≤ b * b

/-- b ≤ a × √n. -/
def rootGe (b a : Int) (n : Nat) : Bool := rootLe (-a) (-b) n

/-- A point lies in the plume exclusion capsule of a spot (R234); a point at exactly RADIUS is inside. Distances are
in µm: the points are taken in µm, rounded as log entry 9 says (log entry 77). -/
def inCapsule (c : StraitCfg) (spot q : Point) : Bool :=
  let um (v : Int) : Int := openDivI v 1000
  let dx := um q.x - um spot.x
  let dy := um q.y - um spot.y
  let n := (c.flowX * c.flowX + c.flowY * c.flowY).toNat
  let dot := dx * c.flowX + dy * c.flowY
  let cross := dx * c.flowY - dy * c.flowX
  let up : Int := c.up
  let down : Int := c.down
  let r2 : Int := c.radius * c.radius
  let d2 := dx * dx + dy * dy
  if !rootLe (-up) dot n then rootLe (d2 + up * up - r2) (-2 * up * dot) n
  else if !rootGe dot down n then rootLe (d2 + down * down - r2) (2 * down * dot) n
  else cross * cross ≤ r2 * n

/-- The set-point of a vector that is stamped at or last before a time in sub-ticks (R218, R235). -/
def Active.setpoint (a : Active) (tsp : Nat) (t : Int) : Point :=
  if a.r.type = 2 then a.r.start
  else
    let k := ((t - a.start) / (64 * max 1 tsp)).toNat
    along a.r.start ⟨a.r.x1, a.r.y1⟩ (min a.periods (k + 1)) a.periods

/-- The spot of an ACTIVE token at a time in sub-ticks (R235): the start point until emission on, then the set-point
stamped TRACK_DELAY before, which stays from emission off. -/
def Head.spot (x : Head) (a : Active) (now : Int) : Point :=
  if now < a.on then a.r.start else a.setpoint x.tsp (min now (a.off - 1) - x.trackDelay * 1600 * 64)

/-- A point lies inside the capsule of an ACTIVE token of another head. -/
def straitBlocked (s : State) (h : Nat) (q : Point) : Bool :=
  (List.range s.nHeads).any fun k => k ≠ h && (s.head k).actives.any fun a =>
    inCapsule s.forge.strait ((s.head k).spot a s.now) q

/-! ### The recoat (R228) -/

/-- The recoat ends: RECOATED, or FAILED and IDLE. -/
def endRecoat (ok : Bool) (s : State) : State :=
  match s.forge.recoat with
  | none => s
  | some r =>
    let s := { s with forge := { s.forge with recoat := none, layer := if ok then .recoated else .idle } }
    complete r.ctx (if ok then Status.ok else Status.failed) [] (if ok then s else presentFw 0x00E3 none 0 s)

/-- A recoat move on an axis with its configured profile, behind the moves that it still has; an axis that cannot take it
(R387, R390) fails the recoat. -/
def recoatMove (a : Nat) (steps : Int) (s : State) : State :=
  let x := s.axis a
  let l := if 0 ≤ steps then x.limPos else x.limNeg
  if !x.configured || x.st = .halted || x.st = .stopping || 32 ≤ x.queue.length || (l.active && l.mode ≠ 0) then endRecoat false s
  else
    let note (r : Recoat) : Recoat := { r with ahead := x.queue.length + 1 }
    enqueueMove a { length := steps.natAbs, pos := 0 ≤ steps, blend := false, notify := false, vMax := x.vMax,
                    accel := x.accel, decel := x.accel, tag := 0 }
      { s with forge := { s.forge with recoat := s.forge.recoat.map note } }

/-- The second move of the recoat. -/
def recoatStroke (s : State) : State :=
  match s.forge.recoat with
  | some r =>
    let s := { s with forge := { s.forge with recoat := some { r with stroke := true } } }
    if r.steps = 0 then endRecoat true s else recoatMove r.recoater r.steps s
  | none => s

/-- A move of an axis has completed: the recoat's own, once those ahead of it have. -/
def recoatMoved (a : Nat) (s : State) : State :=
  match s.forge.recoat with
  | some r =>
    if a ≠ (if r.stroke then r.recoater else r.platform) then s
    else if r.ahead ≤ 1 then (if r.stroke then endRecoat true s else recoatStroke s)
    else { s with forge := { s.forge with recoat := some { r with ahead := r.ahead - 1 } } }
  | none => s

/-- A stop has begun on an axis: a recoat that uses it fails. -/
def recoatStopped (a : Nat) (s : State) : State :=
  match s.forge.recoat with
  | some r => if (!r.stroke && a = r.platform) || a = r.recoater then endRecoat false s else s
  | none => s

/-! ### Role interlocks of Forge (R231) -/

/-- Heads that a role gates. -/
def Gpi.headsOf (x : Gpi) (s : State) : List Nat := (List.range s.nHeads).filter fun h => x.heads = 0 || x.heads.getLsbD h

/-- The condition of a role is present: DOOR with its input active, GAS_OK and O2_OK with it inactive. -/
def Gpi.condition (x : Gpi) : Bool := if x.role = 4 then x.on else x.role ≠ 0 && !x.on

/-- The gate of a role is set. -/
def roleGate (g : Nat) (s : State) : State :=
  setCauseBy 2 ((s.gpiOf g).headsOf s) 2 0xFF 0 (s.modGpi g fun x => { x with gated := true })

/-- The grace of GAS_OK or O2_OK has expired. -/
def graceOver (g : Nat) (s : State) : State := present 0x00E1 (some g) 0 (roleGate g s)

/-- The onset of a condition. -/
def conditionBegins (g : Nat) (s : State) : State :=
  let x := s.gpiOf g
  let s := present 0x00E0 (some g) 0 (s.modGpi g fun x => { x with active := true })
  if x.role = 4 then (maskBits 4 x.heaters.toNat).foldl (fun s h => heaterOff h s) (roleGate g s)
  else
    let s := pauseLayer s
    if x.graceMs = 0 then graceOver g s else s

/-- The condition clears. -/
def conditionEnds (g : Nat) (s : State) : State :=
  roleUngate (s.modGpi g fun x => { x with active := false, gated := false })

/-- A role input has changed its debounced state, or taken a role: its role begins or ends (R203, R231). -/
def roleUpdate (g : Nat) (s : State) : State :=
  let x := s.gpiOf g
  let now := if x.forge then x.condition else x.role ≠ 0 && x.on
  if now = x.active then s
  else if x.forge then (if now then conditionBegins g s else conditionEnds g s)
  else if now then roleActive g s
  else roleInactive g s

/-- A role and DEBOUNCE are set on an input: its old role ends, its state is taken from its level at once, and a
condition already present applies the new role (R203). -/
def setRole (g : Nat) (f : Gpi → Gpi) (s : State) : State :=
  let x := s.gpiOf g
  let s := if !x.active then s else if x.forge then conditionEnds g s else roleInactive g s
  roleUpdate g (s.modGpi g fun x => { f x with st := x.level, waiting := false, active := false, gated := false,
                                               pendingStations := [] })

/-- A condition of Forge is present. -/
def conditionPresent (s : State) : Bool := s.gpi.any fun x => x.forge && x.active

/-! ### The emission permit (R247) -/

/-- Every lamp string named is on, its regulated function intact. -/
def permitPresent (s : State) : Bool :=
  (maskBits 8 s.forge.permitStrings.toNat).all fun i => (s.lampOf i).st = 2 && (s.lampOf i).functionOk

/-- Device time since which the permit is present: since the last of its strings became intact (R247, R452). -/
def permitFrom (s : State) : BitVec 64 :=
  (maskBits 8 s.forge.permitStrings.toNat).foldl (fun t i => if t.toNat < (s.lampOf i).intactAt.toNat then (s.lampOf i).intactAt else t) 0

/-- The permit after a change of a lamp string: withdrawn, all heads are gated; returned, its gate clears. -/
def permitUpdate (s : State) : State :=
  if permitPresent s then
    if s.forge.permitSince.isSome then s
    else roleUngate { s with forge := { s.forge with permitSince := some (permitFrom s), permitLost := false } }
  else if s.forge.permitSince.isNone then s
  else
    let s := { s with forge := { s.forge with permitSince := none, permitLost := true } }
    present 0x0108 none 0 (setCauseBy 2 (List.range s.nHeads) 2 0xFF 0 s)

/-- The permit has been present for PERMIT_DWELL_MS. -/
def permitDwelt (s : State) : Bool :=
  s.forge.permitStrings = 0 || match s.forge.permitSince with
    | some t => s.forge.permitDwell * ticksPerMs ≤ (s.time - t).toNat
    | none => false

end Sys2Proof.Machine
end

