-- ==== Sys2Proof/Machine/PowerOps.lean ====
section
/-!
DEFINITION. Operations over the power sequencer and Atoll (spec/19_power_atoll.md): rails, shutdowns, the main supply.
-/
namespace Sys2Proof.Machine

open Sys2Proof

def State.modRail (s : State) (n : Nat) (f : Rail → Rail) : State :=
  { s with pwr := { s.pwr with rails := modAt s.pwr.rails n f } }

def State.rail (s : State) (n : Nat) : Rail := at' s.pwr.rails n {}

/-- Every link is gated by a shutdown of the rails while it lasts (R432; log entry 25). -/
def powerGate (s : State) : Bool := s.pwr.st = .falling || s.pwr.st = .minOff || s.pwr.st = .latched

/-- The device pulls nSYSFAULT low (R434): a latch by a rail of its own, the watchdog, a FATAL reaction. -/
def pullsSysfault (s : State) : Bool := s.pwr.latch = 1 || s.pwr.pullWdog || s.pwr.pullFatal

/-- RAILn_EN as driven (R427, R432): an enable that has been taken back drops at its time. -/
def Rail.enPin (r : Rail) (now : BitVec 64) : Bool := (r.en || ticksSince r.dropAt now < 0) ≠ r.enLow

/-- RAILn_PG at `level` is active, or not used (R427). -/
def Rail.pgOk (r : Rail) (level : Bool) : Bool := !r.pgUsed || level ≠ r.pgLow

/-- A rail's enable is taken back at a device time. -/
def Rail.drop (r : Rail) (at_ : BitVec 64) : Rail := { r with en := false, up := false, dropAt := at_ }

/-- nSYSFAULT is high but for the latch itself, so a latch may clear (R432; log entry 25). -/
def sysfaultClear (s : State) : Bool := !s.pwr.sysIn && !s.pwr.pullWdog && !s.pwr.pullFatal

/-- The highest slot enabled. -/
def topEnabled (s : State) : Option Nat := ((List.range 16).reverse).find? fun n => (s.rail n).en

/-- The main supply is switched off: only Atoll runs (R438), and DRAM and Lagoon keep nothing (R315). -/
def mainOff (s : State) : State :=
  { s with atoll := { s.atoll with main := false }, timeRuns := false, mci := { s.mci with st := .reset },
           held := 0x1FF, flt := { s.flt with watched := false }, dram := {}, lag := {},
           pwr := { s.pwr with minOff := false, heldOn := false, grace := none, upCtx := [], downCtx := [],
                               rails := s.pwr.rails.map fun r => r.drop s.time } }

/-- A power-up begins with the first slot that has IN_SEQ (R428); with none the sequencer is UP. -/
def enableFrom (n : Nat) (s : State) : State :=
  match ((List.range 16).drop n).find? fun k => (s.rail k).inSeq with
  | some k =>
    let s := s.modRail k fun r => { r with en := true, up := false }
    { s with pwr := { s.pwr with st := .rising, slot := some k, settling := false, topSlot := k, stepAt := s.time } }
  | none =>
    let cs := s.pwr.upCtx
    let s := { s with pwr := { s.pwr with st := .up, slot := none, settling := false, upCtx := [] } }
    cs.foldl (fun s c => complete c Status.ok (leBytes 1 0 ++ leBytes 1 0 ++ leBytes 1 s.pwr.topSlot ++ zeros 1) s) s

def startRising (s : State) : State :=
  enableFrom 0 { s with pwr := { s.pwr with heldOn := false, cause := 0, latchedOff := false, endKeep := false, topSlot := 0, dropMain := false } }

/-- Every power-up asked for ends with a cause (R432): its completion is ABORTED, and a held on request is cancelled. -/
def endPowerUps (cause : Nat) (s : State) : State :=
  let p := leBytes 1 1 ++ leBytes 1 cause ++ leBytes 1 s.pwr.topSlot ++ zeros 1
  s.pwr.upCtx.foldl (fun s c => complete c Status.aborted p s) { s with pwr := { s.pwr with upCtx := [], heldOn := false } }

/-- The power-down is complete: MIN_OFF begins, in LATCHED if a latch is set (R431); a power-up it ended completes. An on
request held is served when MIN_OFF ends, but not out of LATCHED. -/
def powerDownDone (s : State) : State :=
  let held := s.pwr.heldOn && s.pwr.latch = 0
  let s := endPowerUps s.pwr.cause s
  { s with pwr := { s.pwr with
    st := if s.pwr.latch = 0 then .minOff else .latched, minOff := true, minOffAt := s.time, heldOn := held, slot := none,
    settling := false, latchedOff := s.pwr.latch ≠ 0 } }

/-- The next slot down drops its enable and discharges (R428). -/
def dropNext (wait : Nat) (s : State) : State :=
  let due := s.time + BitVec.ofNat 64 wait
  match topEnabled s with
  | some k =>
    let s := s.modRail k fun r => r.drop due
    { s with pwr := { s.pwr with slot := some k, settling := false, stepAt := due } }
  | none => powerDownDone s

/-- FALLING starts at once (R428, R432): gate cause 3 on all links, and the first enable drops 1 µs after it. -/
def startFalling (cause : Nat) (s : State) : State :=
  let s := setCause 3 (List.range s.nLinks) s
  dropNext (ticksPerMs / 1000) { s with pwr := { s.pwr with st := .falling, cause := cause, grace := none } }

/-- A latch is set with its cause (R432); LAST_RAIL is the highest slot enabled. -/
def setLatch (kind : Nat) (s : State) : State :=
  { s with pwr := { s.pwr with latch := kind },
           atoll := { s.atoll with lastRail := BitVec.ofNat 4 ((topEnabled s).getD 0) } }

/-- A shutdown that latches, by the sequencer's state (R432): FALLING from RISING or UP, otherwise the latch alone. -/
def latchDown (kind cause : Nat) (s : State) : State :=
  match s.pwr.st with
  | .rising => startFalling cause (setLatch kind s)
  | .up => startFalling cause (setLatch kind s)
  | .falling => if s.pwr.latch = 0 then setLatch kind s else s
  | .latched => s
  | .down => { setLatch kind s with pwr := { (setLatch kind s).pwr with st := .latched } }
  | .minOff => endPowerUps cause { setLatch kind s with pwr := { (setLatch kind s).pwr with st := .latched, latchedOff := true } }

/-- A latch clears (R432): DOWN, or MIN_OFF while its 100 ms still run. -/
def clearLatch (s : State) : State :=
  if s.pwr.st = .latched && sysfaultClear s then
    { s with pwr := { s.pwr with st := if s.pwr.minOff then .minOff else .down, latch := 0 } }
  else s

/-- An on request (R431, R432). -/
def onRequest (s : State) : State :=
  match s.pwr.st with
  | .down => startRising s
  | .falling => { s with pwr := { s.pwr with heldOn := true } }
  | .minOff => { s with pwr := { s.pwr with heldOn := true } }
  | _ => s

/-- An off request (R432, R433). -/
def offRequest (s : State) : State :=
  match s.pwr.st with
  | .rising => startFalling 1 s
  | .up =>
    if (List.range 4).any (pageActive s) || layerActive s then
      if s.pwr.grace.isSome then s else { s with pwr := { s.pwr with grace := some s.time } }
    else startFalling 1 s
  | .minOff => endPowerUps 1 s
  | _ => s

/-- RAILM_EN is raised from OFF, with its cause (R439). -/
def wake (cause : Nat) (s : State) : State :=
  if s.atoll.main then s
  else { s with atoll := { s.atoll with main := true, wakeCause := BitVec.ofNat 4 cause } }

/-- Atoll as its reset leaves it: RAILM_EN active and WAKE_CAUSE 0 (R35, R438, R443). -/
def atollReset (s : State) : State := { s with atoll := {} }

/-- A device reset is in progress until the cores are released after the fill (R438). -/
def resetInProgress (s : State) : Bool := s.mci.st = .reset

/-- The main supply drops at the end of MIN_OFF unless R438 keeps it, as for a power-down that led to a latch, or once the
device reset in progress is over. -/
def followMain (s : State) : State :=
  if s.atoll.standby || s.pwr.endKeep || s.pwr.latchedOff || s.pwr.latch ≠ 0 then s
  else if resetInProgress s then { s with pwr := { s.pwr with dropMain := true } }
  else mainOff s

end Sys2Proof.Machine
end

