-- ==== Sys2Proof/Machine/FaultOps.lean ====
section
/-!
DEFINITION. The fault fabric (spec/21_faults.md): the sources and their classes, recording and escalation, fences,
reactions, acknowledgement, and gate cause 3.
-/
namespace Sys2Proof.Machine

open Sys2Proof

/-! ### Sources (R456, R457) -/

/-- The sources of class INFO, from the chapters' tables. -/
def infoSources : List Nat :=
  [0x0043, 0x0065, 0x0066, 0x0081, 0x0082, 0x00A3, 0x00A4, 0x00C0, 0x00C1, 0x00E0, 0x0100, 0x0102, 0x0106, 0x0107,
   0x0122, 0x0123, 0x0141, 0x0142, 0x0160, 0x0162, 0x0163, 0x0164, 0x0167, 0x0180, 0x01A0, 0x01E1, 0x01E4, 0x0205,
   0x0220, 0x0221, 0x0244, 0x0245, 0x0247, 0x0260, 0x0289, 0x028A, 0x02A1, 0x02A2, 0x02A4, 0x02C1]

/-- The sources of class DEGRADE. -/
def degradeSources : List Nat :=
  [0x0000, 0x0041, 0x0042, 0x0045, 0x0046, 0x0047, 0x0048, 0x0061, 0x0062, 0x0063, 0x0080, 0x0083, 0x0084, 0x00A0,
   0x00A1, 0x00A2, 0x00A5, 0x00C2, 0x00C3, 0x00C4, 0x00C8, 0x00E1, 0x00E2, 0x00E3, 0x00E4, 0x0103, 0x0104, 0x0105,
   0x0108, 0x0121, 0x0140, 0x0161, 0x0165, 0x0168, 0x0181, 0x01C1, 0x01C2, 0x01C4, 0x01C5, 0x01C6, 0x01E0, 0x01E2,
   0x01E3, 0x0202, 0x0204, 0x0224, 0x0226, 0x0227, 0x0246, 0x0261, 0x0262, 0x02A0, 0x02A3, 0x02C0, 0x02C2, 0x02C3]

/-- The sources of class STOP. -/
def stopSources : List Nat :=
  [0x0020, 0x0040, 0x0044, 0x0060, 0x0064, 0x0086, 0x00C5, 0x00C6, 0x00C7, 0x0101, 0x0120, 0x01C0, 0x01C3, 0x0203,
   0x0222, 0x0223, 0x0240, 0x0241, 0x0242, 0x0243, 0x0280, 0x0281, 0x0282, 0x0283, 0x0284, 0x0285, 0x0286, 0x0287, 0x0288]

/-- The sources of class FATAL. -/
def fatalSources : List Nat := [0x0085, 0x0166, 0x0200, 0x0201]

/-- The class of a source; none where it does not exist (R456). -/
def faultClass (source : Nat) : Option FClass :=
  if infoSources.contains source then some .info
  else if degradeSources.contains source then some .degrade
  else if stopSources.contains source then some .stop
  else if fatalSources.contains source then some .fatal
  else none

/-- The encoding of a class (R457). -/
def FClass.code : FClass → Nat
  | .info => 0
  | .degrade => 1
  | .stop => 2
  | .fatal => 3

/-- The MCI group of a source (R456). -/
def sourceGroup (source : Nat) : Nat := source / 32

/-- The higher of two classes. -/
def FClass.max' (a b : FClass) : FClass := if a.code < b.code then b else a

/-! ### Records (R458) -/

/-- The record list with one record replaced, by rising identifier. -/
def recInsert (r : FRec) : List FRec → List FRec
  | [] => [r]
  | u :: rest => if r.source < u.source then r :: u :: rest else if r.source = u.source then r :: rest else u :: recInsert r rest

def State.setRec (s : State) (r : FRec) : State := { s with flt := { s.flt with records := recInsert r s.flt.records } }

/-- The sources that hold UNACK, with their effective classes. -/
def unacked (s : State) : List (Nat × FClass) := s.flt.records.filterMap fun r => r.unack.map fun c => (r.source, c)

/-- The effective class of a raise against some unacknowledged records (R462): DEGRADE and STOP escalate by one class
where a source of the same group holds UNACK with that class. -/
def escalate (source : Nat) (c : FClass) (held : List (Nat × FClass)) : FClass :=
  if held.any fun h => sourceGroup h.1 = sourceGroup source && h.2 = c then
    match c with
    | .degrade => .stop
    | .stop => .fatal
    | c => c
  else c

/-- The class with which a raise is presented (R457). -/
def Raise.cls (r : Raise) : FClass := if r.fatal then .fatal else (faultClass r.source).getD .info

/-! ### Gate cause 3 (R466, R468, R469) -/

/-- Gate cause 3 holds on a link: an unacknowledged STOP or FATAL record or a fence covers it, a FATAL reaction is in
force, or the rails shut down. -/
def faultHolds (s : State) (l : Nat) : Bool :=
  s.flt.fatal.isSome || powerGate s || s.flt.records.any (fun r => r.cover.getLsbD l) ||
  fenced s 0x0062 l || fenced s 0x0063 l || fenced s 0x0103 l

/-- Gate cause 3 clears on the links where nothing holds it (R466, R468). -/
def faultUngate (s : State) : State := clearCause 3 ((List.range 24).filter fun l => !faultHolds s l) s

/-! ### Reactions (R465, R466) -/

/-- The sources that fence. -/
def fences (source : Nat) : Bool := [0x0062, 0x0063, 0x0103, 0x0181, 0x01C6, 0x0261].contains source

/-- A fence begins (R466); the link of a retired head is gated at the layer's terminal state. -/
def applyFence (source unit : Nat) (s : State) : State :=
  let r := s.frec source
  let s := s.setRec { r with fences := if r.fences.contains unit then r.fences else r.fences ++ [unit] }
  if source = 0x0062 then setCause 3 [unit] s
  else if source = 0x0103 then (if layerBusy s then s else setCause 3 [unit] s)
  else if source = 0x01C6 then
    tripMotor unit s
  else s

/-- Links with a lane of a mask. -/
def lanesLinks (s : State) (lanes : BitVec 192) : List Nat := (List.range s.nLinks).filter (laneLink lanes)

/-- Links of the station or head that owns a link; the link alone if none owns it (R465). -/
def ownerLinks (s : State) (l : Nat) : List Nat := match linkStation s l with
  | some i => (s.station i).links
  | none => [l]

/-- The links that a STOP reaction gates (R465). -/
def stopScope (s : State) (r : Raise) (escalated : Bool) : List Nat :=
  let all := List.range s.nLinks
  if escalated || r.forced then all
  else match r.unit with
    | none => all
    | some u =>
      if r.source = 0x0040 || r.source = 0x0044 then lanesLinks s (anchoredLanes s u)
      else if r.source = 0x0060 || r.source = 0x0064 then ownerLinks s u
      else if r.source = 0x0222 || r.source = 0x0223 then unitLinks s u
      else all

/-- Links as a mask. -/
def linkMask (ls : List Nat) : BitVec 24 := ls.foldl (fun m l => m ||| (1#24 <<< l)) 0

/-- Axes stop hard for a fault reaction (R391). -/
def faultStopAxes (axes : List Nat) (s : State) : State :=
  axes.foldl (fun s a => recoatStopped a (stopAxis a true 5 s)) s

/-- The links of a reaction are gated by cause 3, and what is not committed on them is rolled back with code 3. -/
def faultGate (source : Nat) (links : List Nat) (s : State) : State :=
  let r := s.frec source
  let s := s.setRec { r with cover := r.cover ||| linkMask links }
  if links = [] then s else setCause 3 links (rollbackTrigger 3 (linkLanes links) s)

/-- The reaction of class STOP (R465). -/
def stopReaction (source : Nat) (links : List Nat) (s : State) : State :=
  let s := faultGate source links s
  if (List.range s.nLinks).all fun l => links.contains l then
    let s := faultStopAxes (maskBits 16 s.flt.stopAxes.toNat) s
    (maskBits 4 s.flt.stopHeaters.toNat).foldl (fun s h => heaterOff h s) s
  else s

/-- The lamp test of a string ends (R452). -/
def endTest (i : Nat) (status : Nat) (s : State) : State :=
  match (s.lampOf i).ctx with
  | some c => complete c status (leBytes 2 (s.lampOf i).failed.toNat ++ zeros 2) (s.modLamp i fun x => { x with ctx := none })
  | none => s

/-- A lamp string is off. -/
def Lamp.dark (x : Lamp) : Lamp := { x with st := 0, functionOk := false, good := 0 }

/-- The reaction of class FATAL (R465): everything stops, lamp tests end, STATE is HALTED, and the sequencer latches. -/
def fatalReaction (source : Nat) (s : State) : State :=
  let s := faultGate source (List.range s.nLinks) s
  let s := faultStopAxes (List.range 16) s
  let s := (List.range 8).foldl (fun s m => tripMotor m s) s
  let s := (List.range 4).foldl (fun s h => heaterOff h s) s
  let quiet (b : Bias) : Bias := { b with duty := 0 }
  let s := (List.range 8).foldl (fun s i => endTest i Status.failed s) s
  let s := permitUpdate { s with bias := s.bias.map quiet, lamps := s.lamps.map Lamp.dark }
  let s := { s with mci := { s.mci with st := .halted, mciMax := 0x34 }, flt := { s.flt with fatal := some (s.flt.fatal.getD source) } }
  let s := latchDown 3 3 s
  { s with pwr := { s.pwr with pullFatal := true } }

/-! ### Recording (R458, R459, R461 to R463, R467, R472) -/

/-- A raise is recorded and reacted to. The log entry is left to the firmware. -/
def recordRaise (r : Raise) (s : State) : State :=
  let c := r.cls
  let eff := r.judged.getD (escalate r.source c (unacked s))
  let esc := eff ≠ c
  let old := s.frec r.source
  let fence := match r.unit with
    | some u => if fences r.source && !r.forced then some u else none
    | none => none
  let unack := if eff = .info then old.unack else some (match old.unack with
    | some d => FClass.max' d eff
    | none => eff)
  let s := s.setRec { old with sticky := true, unack := unack, count := old.count.inc, last := r.time }
  let s := match fence with
    | some u => applyFence r.source u s
    | none => s
  let scope := stopScope s r esc
  let s := match eff with
    | .stop => stopReaction r.source scope s
    | .fatal => fatalReaction r.source s
    | _ => s
  let halting := eff = .stop || eff = .fatal
  let e : FEntry :=
    { number := 0, time := r.time, source := r.source, cls := c, eff := eff,
      flags := bit (!old.sticky) + 2 * bit esc + 4 * bit r.forced + 8 * bit fence.isSome + 16 * bit r.firmware,
      unit := if r.forced then 0xFF else r.unit.getD 0xFF, detail := r.detail }
  let s := { s with flt := { s.flt with
    toggling := s.flt.toggling && !halting,
    unwritten := if !old.sticky || eff ≠ .info || esc || r.forced then s.flt.unwritten ++ [e] else s.flt.unwritten } }
  signal (if halting then 9 else 10) s

/-- The next raise to record: of those presented at the earliest device time, the one of the lowest source (R459). -/
def nextRaise : List Raise → Option Raise
  | [] => none
  | r :: rest => match nextRaise rest with
    | none => some r
    | some q => if q.time.toNat < r.time.toNat ∨ (q.time = r.time ∧ q.source < r.source) then some q else some r

/-- The 16 bytes of a log entry (R472). -/
def FEntry.bytes (e : FEntry) : List Byte :=
  leBytes 8 e.time.toNat ++ leBytes 2 e.source ++ leBytes 1 (4 * e.cls.code + e.eff.code) ++ leBytes 1 e.flags ++
  leBytes 1 e.unit ++ zeros 1 ++ leBytes 2 e.detail

/-- A log entry is written, with its event from class DEGRADE on (R472, R473). -/
def writeEntry (e : FEntry) (s : State) : State :=
  let s := { s with flt := { s.flt with
    log := lastN 64 (s.flt.log ++ [{ e with number := s.flt.next }]), count := s.flt.count.inc, next := s.flt.next + 1 } }
  if e.eff = .info then s else queueEvent 0x1440 e.bytes s

/-! ### Acknowledgement (R464, R468) -/

/-- A number takes its place in a rising list. -/
def ascending (n : Nat) : List Nat → List Nat
  | [] => [n]
  | m :: rest => if n ≤ m then n :: m :: rest else m :: ascending n rest

/-- Raises presented at the device time of an acknowledgement are judged against the records before it (R464), in the
order of R459. -/
def judgeNow (s : State) : State :=
  let now := s.flt.presented.filter fun r => r.time = s.time && r.judged.isNone
  let order := now.foldl (fun l r => ascending r.source l) []
  let effs := (order.foldl (fun (p : List (Nat × FClass) × List (Nat × FClass)) q =>
    match now.find? fun r => r.source = q with
    | some r =>
      let e := escalate q r.cls p.2
      (p.1 ++ [(q, e)], if e = .info then p.2 else p.2 ++ [(q, e)])
    | none => p) ([], unacked s)).1
  let mark (r : Raise) : Raise :=
    if r.time = s.time && r.judged.isNone then { r with judged := (effs.find? fun p => p.1 = r.source).map (·.2) } else r
  { s with flt := { s.flt with presented := s.flt.presented.map mark } }

/-- UNACK of a source clears, with its cover and its fences (R466, R468). -/
def ackRec (s : State) (source : Nat) : State :=
  let r := s.frec source
  if r.unack.isNone then s else s.setRec { r with unack := none, cover := 0, fences := [] }

/-- The sources that a SOURCE and a GROUP of fault.ack and fault.clear name; none for OUT_OF_RANGE. -/
def namedSources (source group : Nat) : Option (List Nat) :=
  if source ≠ 0xFFFF then (if (faultClass source).isSome then some [source] else none)
  else
    let all := infoSources ++ degradeSources ++ stopSources ++ fatalSources
    if group = 0xFF then some all
    else if 0x17 < group then none
    else some (all.filter fun q => sourceGroup q = group)

end Sys2Proof.Machine
end

