-- ==== Sys2Proof/Machine/Faults.lean ====
section
/-!
DEFINITION. Faults (spec/21_faults.md): raises, the fault log, ALIVE, supervision of the cores, and the commands of
group 0x14.
-/
namespace Sys2Proof.Machine

open Sys2Proof

/-! ### Events -/

/-- FAULT_RAISE (R459): the next presented raise is recorded. -/
def execFaultRaise (s : State) : Out :=
  match nextRaise s.flt.presented with
  | none => .next s
  | some r => .next (recordRaise r (classGrant 0 { s with flt := { s.flt with presented := s.flt.presented.erase r } }))

/-- FAULT_LOG_WRITE (R467, R472): the supervisor core writes the oldest entry that waits. -/
def execFaultLogWrite (s : State) : Out :=
  if !s.coreUp supervisorCore then .next s
  else match s.flt.unwritten with
  | [] => .next s
  | e :: rest => .next (writeEntry e { s with flt := { s.flt with unwritten := rest } })

/-- ALIVE toggles (R471): the watchdog is served, no STOP or FATAL record holds UNACK, STATE is READY or RUN. -/
def aliveOk (s : State) : Bool :=
  s.flt.watched && s.flt.fatal.isNone && (s.mci.st = .ready || s.mci.st = .run) &&
  !s.flt.records.any fun r => r.unack = some .stop || r.unack = some .fatal

/-- ALIVE_TOGGLE (R471): at the next multiple of 800,000 ticks ALIVE changes level if its conditions hold (log entry 4). -/
def execAliveToggle (s : State) : Out :=
  let t := ceilDiv s.time.toNat 800000 * 800000
  let s := s.advanceTo (if s.flt.aliveAt.map (·.toNat) = some t then t + 800000 else t)
  if aliveOk s then .next { s with flt := { s.flt with alive := !s.flt.alive, aliveAt := some s.time, toggling := true } }
  else .next s

/-- HEARTBEAT_MISSING (R21): two heartbeats of a core are missing; it is held in reset until the next device reset. -/
def execHeartbeatMissing (core : Nat) (s : State) : Out :=
  if 8 < core || s.held.getLsbD core || !s.coreUp supervisorCore then .next s
  else .next (presentFw (0x0280 + core) (some core) 0 { s with held := s.held ||| (1#9 <<< core) })

/-- SUPERVISOR_WATCHDOG_EXPIRY (R22): all lanes are gated as by nSTOP, ALIVE stops, nSYSFAULT is asserted, and a device
reset follows after 1 ms. -/
def execSupervisorWatchdogExpiry (s : State) : Out :=
  let s := setCause 0 (List.range s.nLinks) s
  .next { s with flt := { s.flt with watched := false, toggling := false }, pwr := { s.pwr with pullWdog := true },
                 mci := { s.mci with resetAt := some (s.time + BitVec.ofNat 64 ticksPerMs) },
                 boot := { s.boot with latchedCause := 3 } }

/-! ### Commands -/

/-- A bitmap of sources, 96 bytes. -/
def sourceMap (is : List Nat) : List Byte := leBytes 96 (maskOf is)

/-- fault.status (R458, R471). -/
def execFaultStatus (rq : Req) (s : State) : Out :=
  let rs := s.flt.records
  let classes := maskOf ((unacked s).map fun p => p.2.code)
  command 0x1401 rq []
    (respond rq 0x1401 Status.ok
      (s.flt.count.bytes ++ leBytes 1 classes ++ leBytes 1 (bit !(aliveOk s && s.flt.toggling)) ++ zeros 2 ++
       sourceMap ((rs.filter (·.sticky)).map (·.source)) ++ sourceMap ((unacked s).map (·.1)))) s

/-- fault.source.read (R458). -/
def execFaultSourceRead (rq : Req) (s : State) : Out :=
  let q := rq.u16 0
  let r := s.frec q
  let cls := ((faultClass q).map FClass.code).getD 0
  command 0x1402 rq [((faultClass q).isNone, Status.outOfRange)]
    (respond rq 0x1402 Status.ok
      (leBytes 2 q ++ leBytes 1 cls ++ leBytes 1 (bit r.sticky + 2 * bit r.unack.isSome + 4 * bit (r.fences ≠ [])) ++
       leBytes 1 ((r.unack.map FClass.code).getD 0xFF) ++ zeros 3 ++ r.count.bytes ++ zeros 4 ++ leBytes 8 r.last.toNat)) s

/-- fault.log.read (R472). -/
def execFaultLogRead (rq : Req) (s : State) : Out :=
  command 0x1403 rq []
    (respond rq 0x1403 Status.ok
      (logReply (fun e => e.number) FEntry.bytes s.flt.count s.flt.next (BitVec.ofNat 32 (rq.u32 0)) s.flt.log)) s

/-- Gate cause 3 still set, by link. -/
def gatedByFault (s : State) : Nat := maskOf ((List.range s.nLinks).filter fun l => (s.link l).causes.getLsbD 3)

/-- fault.ack (R464, R466, R468): UNACK of the named records clears, their fences end, and what they held is released
where nothing else holds it. -/
def execFaultAck (rq : Req) (s : State) : Out :=
  serveReq 0x1404 rq (fun s =>
    match namedSources (rq.u16 0) (rq.u8 2) with
    | none => .next (respond rq 0x1404 Status.outOfRange [] s)
    | some qs =>
      let n := (qs.filter fun q => (s.frec q).unack.isSome).length
      let s := clearTrips (faultUngate (qs.foldl ackRec (judgeNow s)))
      .next (respond rq 0x1404 Status.ok (leBytes 2 n ++ zeros 2 ++ leBytes 4 (gatedByFault s)) s)) s

/-- fault.clear (R470): STICKY and COUNT of named sources that hold no UNACK. -/
def execFaultClear (rq : Req) (s : State) : Out :=
  serveReq 0x1405 rq (fun s =>
    match namedSources (rq.u16 0) (rq.u8 2) with
    | none => .next (respond rq 0x1405 Status.outOfRange [] s)
    | some qs =>
      let held := qs.filter fun q => (s.frec q).unack.isSome
      let clear := qs.filter fun q => (s.frec q).unack.isNone && ((s.frec q).sticky || (s.frec q).count.n ≠ 0)
      let s := clear.foldl (fun s q => s.setRec { s.frec q with sticky := false, count := {} }) s
      .next (respond rq 0x1405 Status.ok (leBytes 2 clear.length ++ leBytes 2 held.length) s)) s

/-- fault.config (R465). -/
def execFaultConfig (rq : Req) (s : State) : Out :=
  command 0x1406 rq [(15 < rq.u8 2, Status.badValue)]
    (fun s => respond rq 0x1406 Status.ok [] { s with flt := { s.flt with
      stopAxes := BitVec.ofNat 16 (rq.u16 0), stopHeaters := BitVec.ofNat 4 (rq.u8 2) } }) s

/-- fault.force (R474): the source is recorded as if its condition had occurred, with no unit; 0x028A is raised too. -/
def execFaultForce (rq : Req) (s : State) : Out :=
  let q := rq.u16 0
  let r : Raise := { source := q, time := s.time, unit := none, detail := 0, firmware := true, forced := true,
                     fatal := false, judged := none }
  command 0x1480 rq [((faultClass q).isNone, Status.outOfRange)]
    (fun s =>
      let eff := escalate q r.cls (unacked s)
      respond rq 0x1480 Status.ok (leBytes 1 eff.code ++ zeros 3) (presentFw 0x028A none 0 (recordRaise r s))) s

end Sys2Proof.Machine
end

