-- ==== Sys2Proof/Machine/WeirOps.lean ====
section
/-!
DEFINITION. Lane events: the plans of sweeps and vectors, their values and stamps (spec/06_press_imaging.md,
spec/08_forge_scanning.md), and the blocks that carry them (spec/04_lanes_and_links.md R119 to R122).
-/
namespace Sys2Proof.Machine

open Sys2Proof

/-! ### The plan of a beam in a sweep (R170, R178, R179) -/

/-- The place of an event in the plan of beam `b` for a sweep (R145): its pixels, then the firings around the edge that
ends it (R171). -/
def planIndex (st : Station) (w : Sweep) (b : Nat) (e : PlanEvent) : Option Nat :=
  let edge := (w.n + 1) % 2 ^ 48
  let page := if w.job.isSome then st.pixels else 0
  let lead := if b = st.lead0 || b = st.lead1 then st.leadPixels else 0
  match e with
  | .pixel n i => if n = w.n ∧ i < page then some i else none
  | .lead n i => if n = edge ∧ i < lead then some (page + i) else none
  | .slot n j i =>
    if n = edge ∧ j ∈ st.mySlots n b ∧ i < st.slotPixels then
      some (page + lead + ((st.mySlots n b).filter fun k => k < j).length * st.slotPixels + i)
    else none
  | _ => none

/-- The sweep to which an event belongs. -/
def eventSweep (st : Station) (e : PlanEvent) : Option Sweep :=
  match e with
  | .pixel n _ => st.sweeps.find? fun w => w.n = n
  | .lead n _ => st.sweeps.find? fun w => (w.n + 1) % 2 ^ 48 = n
  | .slot n _ _ => st.sweeps.find? fun w => (w.n + 1) % 2 ^ 48 = n
  | _ => none

/-- The predicted time of a beam-detect count on a station, sub-ticks. -/
def bdTime (s : State) (i n : Nat) : Int := s.predict (s.station i).bdSource (n * 65536)

/-- A firing pixel: code 0x3F with GATE 1 (R170). -/
def firing (e : PlanEvent) (u : Option UnitId) (stamp : Int) (anchor : Option Nat) (pitch : Nat) : QEvent :=
  { plan := e, unit := u, value := 0x3F, gate := true, stamp := stamp, anchor := anchor, pitch := pitch, pixel := none, gain := 0 }

/-- A Press event as its sequencer forms it from the current filter state (R99, R170, R178). -/
def pressEvent (s : State) (i : Nat) (w : Sweep) (b : Nat) (e : PlanEvent) : QEvent :=
  let st := s.station i
  let u := some (UnitId.sweep i w.n)
  let a := some st.bdSource
  let p := st.pitch
  match e, sweepJob st w with
  | .pixel n k, some j =>
    let y : Synth := { s.synth i with ramp := pageRamp s i j }
    let stamp := bdTime s i n + nsSub st.sosNs + at' j.tables.skew b 0 + y.span st.pixels k / 65536
    let px := pixelOf s i w j b k
    { plan := e, unit := u, value := 0, gate := px.isSome, stamp := stamp, anchor := a,
      pitch := if k = 0 then 0 else (y.pitch (segmentOf (k - 1) st.pixels)).toNat,
      pixel := px, gain := 0 }
  | .lead n k, _ => firing e u (bdTime s i n - nsSub st.preNs + k * p / 65536) a (if k = 0 then 0 else p.toNat)
  | .slot n j k, _ => firing e u (bdTime s i n + j * nsSub (10 * st.slot10) + k * p / 65536) a (if k = 0 then 0 else p.toNat)
  | _, _ => firing e u (bdTime s i w.n) a 0

/-! ### The plan of a vector (R218 to R220) -/

/-- Events of a vector on a lane of its head. -/
def laneEvents (x : Head) (v : Vec) (k : Nat) : Nat :=
  match k with
  | 0 => if v.r.emits then powerEvents x v.r v.duration + 1 else 0
  | 1 => if v.r.emits then 2 else 0
  | 2 => v.jumpN + v.periods
  | 3 => v.jumpN + v.periods
  | 7 => if v.r.trigger then 2 else 0
  | _ => 0

/-- The place of an event in a vector's plan for a lane. -/
def vectorIndex (x : Head) (v : Vec) (k : Nat) (e : PlanEvent) : Option Nat :=
  match e with
  | .setpoint _ i => if (k = 2 ∨ k = 3) ∧ i < v.jumpN + v.periods then some i else none
  | .emission _ on =>
    if !v.r.emits then none
    else if k = 1 then some (if on then 0 else 1)
    else if k = 0 then (if !on then some (powerEvents x v.r v.duration) else if v.r.meltpool then none else some 0)
    else none
  | .power _ i => if k = 0 ∧ v.r.emits ∧ v.r.meltpool ∧ i < powerEvents x v.r v.duration then some i else none
  | .trigger _ rise => if k = 7 ∧ v.r.trigger then some (if rise then 0 else 1) else none
  | _ => none

/-- SEQUENCE of the vector to which an event belongs. -/
def eventSeq : PlanEvent → Option Nat
  | .setpoint q _ => some q
  | .emission q _ => some q
  | .power q _ => some q
  | .trigger q _ => some q
  | _ => none

/-- The set-point of a vector, counted from its implicit jump, in machine coordinates (R218, R219). -/
def Vec.setpoint (v : Vec) (k : Nat) : Point :=
  if k < v.jumpN then along ⟨v.fromX, v.fromY⟩ v.r.start (k + 1) v.jumpN
  else if v.r.type = 2 then v.r.start
  else along (if v.r.type = 1 then ⟨v.fromX, v.fromY⟩ else v.r.start) v.r.target (k - v.jumpN + 1) v.periods

/-- Stamp of that set-point. -/
def Vec.setpointAt (v : Vec) (tsp k : Nat) : Int :=
  if k < v.jumpN then v.opens + (64 * k * tsp : Nat) else v.start + (64 * (k - v.jumpN) * tsp : Nat)

/-- A set-point as the VALUE of lane 2 or lane 3 (R118, R212). -/
def Head.coordinate (x : Head) (k : Nat) (p : Point) : BitVec 24 :=
  BitVec.ofInt 24 (if k = 2 then (x.field p).1 else (x.field p).2)

/-- A Forge event of a vector as its sequencer forms it. `x` is the head, `a` its anchor. The VALUE of lane 7 is the head's to
define (R118): it is sent as 0 (log entry 100). -/
def vectorEvent (h : Nat) (x : Head) (a : Option Nat) (v : Vec) (k : Nat) (e : PlanEvent) : QEvent :=
  let on := v.start + x.trackSub
  let make (value : BitVec 24) (gate : Bool) (stamp : Int) (gain : Nat) : QEvent :=
    { plan := e, unit := some (.vector h v.r.seqNo), value := value, gate := gate, stamp := stamp, anchor := a, pitch := 0,
      pixel := none, gain := gain }
  match e with
  | .setpoint _ i => make (x.coordinate k (v.setpoint i)) true (v.setpointAt x.tsp i) 0
  | .emission _ b => make 0 b (if b then on else on + 64 * (v.duration : Int)) (if b && k = 0 then 2 ^ 15 else 0)
  | .power _ i => make 0 true (on + (64 * i * x.tsp : Nat)) (x.gainOf v)
  | .trigger _ b => make 0 b (if b then on else on + (64 * x.tsp : Nat)) 0
  | _ => make 0 false v.opens 0

/-- The first vector of an anchored head is placed by prediction, as long after START_PHASE as it has been held, its events
not yet queued too once it has committed (R98, R99, R144, R222, R223); until then those after it move with it. -/
def retimeHead (h : Nat) (s : State) : State :=
  match s.forge.anchor, (s.head h).vecs with
  | some a, first :: _ =>
    if !(s.head h).anchored then s
    else
      let d := s.predict a s.forge.startPhase + (s.head h).anchorShift - first.opens
      let move (v : Vec) : Vec :=
        if v.r.seqNo = first.r.seqNo || !first.committed then { v with opens := v.opens + d, start := v.start + d } else v
      s.modHead h fun x =>
        { x with vecs := x.vecs.map move, endAt := if first.committed then x.endAt else x.endAt + d,
                 actives := x.actives.map fun a =>
                   if a.r.seqNo = first.r.seqNo then { a with start := a.start + d, on := a.on + d, off := a.off + d } else a }
  | _, _ => s

/-! ### Queueing (R99, R100, R145) -/

/-- The stamp an event takes after the one queued before it on its lane (R100). -/
def orderedStamp (x : Link) (k : Nat) (stamp : Int) : Int :=
  match (at' x.lanes k {}).last with
  | some t => if stamp ≤ t then t + 1 else stamp
  | none => stamp

/-- An event takes its place in the queue of lane `k` of a link. -/
def pushEvent (l k : Nat) (e : QEvent) (s : State) : State :=
  s.modLink l fun x =>
    let e := { e with stamp := orderedStamp x k e.stamp }
    { x with queues := modAt x.queues k (fun q => q ++ [e]), lanes := modAt x.lanes k fun t => { t with last := some e.stamp } }

/-- When an event may be queued: some µs, in tenths, before its hand-off (R145, R250). -/
def queueAt (s : State) (l k : Nat) (e : QEvent) (tenths : Nat) : Int :=
  (s.link l).handoffAt (orderedStamp (s.link l) k e.stamp) - tenths * 160 * 64

/-- An event may be queued: its time has come, or nothing of its lane is handed off before it comes (log entry 4). -/
def queueDue (s : State) (l k : Nat) (e : QEvent) (tenths : Nat) : Bool :=
  queueAt s l k e tenths ≤ s.now || (s.front l k).isNone

/-! ### Blocks (R119 to R122) -/

/-- A data block (R120). -/
def dataBlock (type lane rest : Nat) : BitVec 64 := BitVec.ofNat 64 (type % 16 * 2 ^ 60 + lane % 8 * 2 ^ 57 + rest % 2 ^ 57)

/-- A RUN block takes one more value (R120). -/
def growRun (count : Nat) (value : BitVec 24) (b : Bool × BitVec 64) : Bool × BitVec 64 :=
  (b.1, b.2 + BitVec.ofNat 64 (2 ^ 60 + value.toNat % 256 * 2 ^ (48 - 8 * count)))

/-- The RUN block of a lane that takes one more value: it has the pitch and the GATE of the event and fewer than 7 values,
and the first of them is still due to leave the ball, 150 ns after its hand-off (R120, R122, R125; log entry 39). -/
def openRun (s : State) (t : LaneTx) (gate : Bool) (pitch : Nat) : Option RunBlock :=
  t.run.filter fun r => t.pitch = pitch && r.gate = gate && r.count < 7 && (s.time - r.since).toNat ≤ 240

/-- An event leaves on its lane with a stamp reduced by D: in a RUN where that keeps the stamp, otherwise as an EVENT, after
a TIME block where R122 asks for one (log entry 39). `fresh` asks for the TIME block. A link that does not send events
sends nothing (R133). -/
def sendEvent (l k : Nat) (value : BitVec 24) (gate : Bool) (stamp : Int) (pitch : Nat) (fresh : Bool) (s : State) : State :=
  let x := s.link l
  let t := at' x.lanes k {}
  let sent := stamp - x.d
  let base := (t.ref.getD 0) / 65536
  let gap := sent - base
  let time := fresh || t.ref.isNone || gap < 0 || 2 ^ 32 - 1 < gap
  let run := !time && pitch ≠ 0 && value.toNat < 256 && (t.ref.getD 0 + pitch) / 65536 = sent
  let g := bit gate * 2 ^ 56
  let lane (f : LaneTx → LaneTx) (s : State) : State := s.modLink l fun x => { x with lanes := modAt x.lanes k f }
  if !x.sends then s
  else if run then
    match openRun s t gate pitch with
    | some r =>
      lane (fun t => { t with ref := some (t.ref.getD 0 + pitch), since := t.since + 1, lit := t.lit || gate,
                              run := some { r with count := r.count + 1 } })
        (s.modLink l fun x => { x with tx := modAt x.tx r.place (growRun r.count value) })
    | none =>
      let s := if t.pitch = pitch then s else sendBlock l false (dataBlock 3 k (pitch % 2 ^ 40)) s
      let place := (s.link l).tx.length
      lane (fun t => { t with ref := some (t.ref.getD 0 + pitch), pitch := pitch, since := t.since + 1, lit := t.lit || gate,
                              run := some { place := place, count := 1, gate := gate, since := s.time } })
        (sendBlock l false (dataBlock 9 k (g + value.toNat * 2 ^ 48)) s)
  else
    let s := if time then sendBlock l false (dataBlock 2 k ((sent % 2 ^ 46).toNat * 2 ^ 10)) s else s
    let delta := if time then 0 else gap.toNat
    lane (fun t => { t with ref := some (sent * 65536), since := if time then 1 else t.since + 1, lit := t.lit || gate,
                            run := none })
      (sendBlock l false (dataBlock 1 k (g + value.toNat * 2 ^ 32 + delta)) s)

/-- An event handed over later than its compensated stamp minus 150 ns counts as TX_LATE (R126). -/
def lateCheck (l : Nat) (stamp : Int) (s : State) : State :=
  if stamp - (s.link l).d - nsSub 150 < s.now then
    present 0x0065 (some l) 0 (s.modLink l fun x => { x with txLate := x.txLate.inc })
  else s

end Sys2Proof.Machine
end

