-- ==== Sys2Proof/Machine/ForgeOverlap.lean ====
section
/-!
DEFINITION. Strait, reassignment, the emission permit and melt-pool correction: the events and the commands of group
0x08 (spec/09_forge_overlap_meltpool.md).
-/
namespace Sys2Proof.Machine

open Sys2Proof

/-- Group-specific status codes of group 0x08. -/
def Status.loopUnbound : Nat := 0x8801
def Status.headRetired : Nat := 0x8802

/-! ### The check (R236, R239) -/

/-- The due vector of a head: its next emitting vector, whose commit falls before the next check (R236). -/
def dueVector (s : State) (h : Nat) : Option Vec :=
  let x := s.head h
  match x.nextVec with
  | some v => if x.inLayer && !x.retired && v.r.emits && x.token ≠ .none && (s.link h).handoffAt v.opens < s.now + 102400 then
      some v else none
  | none => none

/-- Heads in the order of a check: those in LONG_WAIT first (R236). -/
def checkOrder (s : State) : List Nat :=
  ((List.range s.nHeads).filter fun h => (s.head h).longWait) ++ ((List.range s.nHeads).filter fun h => !(s.head h).longWait)

/-- One check over some heads, with the starts cleared earlier in it (R236). -/
def checkHeads : List Nat → List (Nat × Point) → State → State
  | [], _, s => s
  | h :: hs, cleared, s =>
    match dueVector s h with
    | none => checkHeads hs cleared s
    | some v =>
      let q := v.r.start
      let blocked := straitBlocked s h q || cleared.any fun c => c.1 ≠ h && inCapsule s.forge.strait c.2 q
      let s := s.modHead h fun x =>
        { x with token := if blocked then .pending else .cleared,
                 clearedAt := if !blocked && x.token = .pending then s.time else x.clearedAt }
      checkHeads hs (if blocked then cleared else cleared ++ [(h, q)]) s

/-- An intrusion of a head's vector is counted, once per vector (R239). -/
def countIntrusion (h q : Nat) (s : State) : State :=
  if (s.head h).actives.any fun a => a.r.seqNo = q && !a.intruded then
    present 0x0102 (some h) 0 (s.modHead h fun x =>
      { x with intrusions := x.intrusions.inc,
               actives := x.actives.map fun a => if a.r.seqNo = q then { a with intruded := true } else a })
  else s

/-- Pairs of an emitting token and another head's ACTIVE token whose capsule holds its spot: the vector whose token
became ACTIVE later (R239; a tie, log entry 51). -/
def intrusions (s : State) : List (Nat × Nat) :=
  (List.range s.nHeads).flatMap fun h => ((s.head h).actives.filter fun a => a.on ≤ s.now && s.now < a.off).flatMap fun a =>
    let p := (s.head h).spot a s.now
    (List.range s.nHeads).flatMap fun k => if k = h then [] else (s.head k).actives.filterMap fun b =>
      if inCapsule s.forge.strait ((s.head k).spot b s.now) p then
        some (if a.since.toNat < b.since.toNat then (k, b.r.seqNo) else (h, a.r.seqNo))
      else none

/-- STRAIT_CHECK (R27, R236, R237, R239): the check of the due vectors takes a grant of class 0. -/
def execStraitCheck (s : State) : Out :=
  let due := s.forge.layer = .exposing && (checkOrder s).any fun h => (dueVector s h).isSome
  let s := if due then checkHeads (checkOrder s) [] (classGrant 0 s) else s
  .next ((intrusions s).foldl (fun s p => countIntrusion p.1 p.2 s) s)

/-- Since when a head's due vector waits at Strait (R238). -/
def Head.waitingSince (x : Head) : Option (BitVec 64) := if x.st = 2 then x.nextVec.bind (·.waited) else none

/-- STRAIT_WAIT_MAX_EXPIRY (R238): the due vector of a head has waited WAIT_MAX (log entry 4). -/
def execStraitWaitMaxExpiry (head : Nat) (s : State) : Out :=
  match (s.head head).waitingSince with
  | some t =>
    if (s.head head).longWait then .next s
    else .next (present 0x0100 (some head) 0
      ((s.advanceTo (t.toNat + s.forge.strait.waitMax * ticksPerMs)).modHead head fun x => { x with longWait := true }))
  | none => .next s

/-- STRAIT_TIMEOUT_EXPIRY (R238): the wait has reached STRAIT_TIMEOUT (log entry 4). -/
def execStraitTimeoutExpiry (head : Nat) (s : State) : Out :=
  match (s.head head).waitingSince with
  | some t =>
    if s.forge.strait.straitTimeout = 0 then .next s
    else .next (present 0x0101 (some head) 0 (s.advanceTo (t.toNat + s.forge.strait.straitTimeout * ticksPerMs)))
  | none => .next s

/-- PLUME_HOLD_EXPIRY (R233): PLUME_HOLD after its emission off, the oldest ACTIVE token of a head whose vector has no event
left is released (log entry 4). -/
def execPlumeHoldExpiry (head : Nat) (s : State) : Out :=
  let x := s.head head
  match x.actives.find? fun a => !x.vecs.any fun v => v.r.seqNo = a.r.seqNo with
  | some a =>
    .next ((s.advanceSub (a.off + (s.forge.strait.plumeHold * 102400 : Nat))).modHead head fun x =>
      { x with actives := x.actives.erase a })
  | none => .next s

/-! ### Reassignment (R241 to R246) -/

/-- A record in its place by SEQUENCE (R244). -/
def insertRec (r : Rec) : List Rec → List Rec
  | [] => [r]
  | q :: qs => if r.seqNo < q.seqNo then r :: q :: qs else q :: insertRec r qs

/-- What becomes of a vector of a retired head (R243): the head that takes it, or the REASON of R246. -/
def assignee (s : State) (r : Rec) : Except Nat Nat :=
  let alts := maskBits 24 r.alts.toNat
  let well := alts.filter fun a => a < s.nHeads && (s.head a).configured && (s.link a).st = .up && !(s.head a).retired
  let within (a : Nat) : Bool :=
    let x := s.head a
    x.energyCap = 0 || x.energy + x.provisional + x.planned r x.pos ≤ x.energyCap * 1000000
  if r.noReassign then .error 1
  else if alts = [] then .error 0
  else if well = [] then .error 2
  else match well.find? within with
    | some a => .ok a
    | none => .error 3

/-- A vector without a head is counted and listed (R246). -/
def unexecute (h : Nat) (r : Rec) (reason : Nat) (s : State) : State :=
  let f := s.forge
  let listed := f.unexecListed < f.strait.unexecCap
  let s := if listed then
      unitStore hostCore (f.strait.unexecBuf + 8 * f.unexecListed) (leBytes 6 r.seqNo ++ leBytes 1 h ++ leBytes 1 reason) s
    else s
  let s := if f.unexecuted.val = 0 then presentFw 0x0104 none 0 s else s
  { s with forge := { s.forge with unexecuted := f.unexecuted.inc, flags := f.flags ||| layerIncomplete,
                                   unexecListed := if listed then f.unexecListed + 1 else f.unexecListed } }

/-- Records by ascending SEQUENCE, each with the head that last held it. -/
def remaining (s : State) (hs : List Nat) : List (Nat × Rec) :=
  let all := hs.flatMap fun h => ((s.head h).todo.filter fun r => r.type ≠ 3).map fun r => (h, r)
  all.foldl (fun l p => ins p l) []
where
  ins (p : Nat × Rec) : List (Nat × Rec) → List (Nat × Rec)
    | [] => [p]
    | q :: qs => if p.2.seqNo < q.2.seqNo then p :: q :: qs else q :: ins p qs

/-- A recipient takes a vector among its own (R244). A head that joins the layer starts with the window stored (R149), its
first vector anchored to START_PHASE where that lies ahead (R222; log entry 44), and one that has nothing at the Weir holds
where the layer is paused or pausing (R223, R229). -/
def receiveRec (a : Nat) (r : Rec) (s : State) : State :=
  let soon := s.now + (s.link a).d + (s.link a).leadSub
  let holds := s.forge.layer = .paused || (s.forge.layer = .exposing && s.forge.pausing)
  let ahead : Bool := match s.forge.anchor with
    | some src => s.forge.layer = .armed || decide (soon ≤ s.predict src s.forge.startPhase)
    | none => false
  s.modHead a fun x =>
    let idle := x.st = 0 || x.st = 5 || (x.st = 1 && x.todo = [] && x.vecs.all (·.committed))
    { x with inLayer := true, anchored := if x.inLayer then x.anchored else ahead, todo := insertRec { r with received := true } x.todo, received := x.received.inc,
             endAt := if x.vecs = [] then max x.endAt soon else x.endAt,
             ra := if x.inLayer then x.ra else { x.ra with inForce := x.ra.window },
             st := if idle then (if s.forge.layer = .armed then 0 else if holds then 4 else 1) else x.st }

/-- The reassignment of some retired heads is issued (R243 to R246). -/
def issueReassignment (hs : List Nat) (s : State) : State :=
  let s := hs.foldl (fun s h => stopRetired h s) s
  let todo := remaining s hs
  let plan := todo.map fun p => (p.1, p.2, assignee s p.2)
  let heirs := (plan.filterMap fun p => match p.2.2 with
    | .ok a => some a
    | .error _ => none).eraseDups
  let s := if heirs = [] then s else heirs.foldl (fun s a => returnVectors a s) (rollbackTrigger 4 (linkLanes heirs) s)
  let s := hs.foldl (fun s h => s.modHead h fun x => { x with todo := [] }) s
  let s := plan.foldl (fun s p => match p.2.2 with
    | .ok a => receiveRec a p.2.1 s
    | .error e => unexecute p.1 p.2.1 e s) s
  let gone := (plan.filter fun p => match p.2.2 with
    | .ok _ => false
    | .error _ => true).length
  let left := s.forge.reassign.filter fun h => !hs.contains h
  let waiting := if left = [] then s.forge.retireCtx else []
  let s := { s with forge := { s.forge with
    reassign := left, retireCtx := if left = [] then [] else s.forge.retireCtx } }
  let s := waiting.foldl (fun s c => complete c Status.ok (leBytes 4 (plan.length - gone) ++ leBytes 4 gone) s) s
  maybeComplete (maybePaused (passFences s))

/-- STRAIT_REASSIGNMENT_ISSUE (R243 to R246): the feed cores that run (R20) reassign the vectors of their retired heads. An
abort that has reached the Weir before has won: the reassignment is dropped, and the layer ends where no head is left to
take the abort (R245). -/
def execStraitReassignmentIssue (s : State) : Out :=
  let hs := s.forge.reassign.filter s.headFed
  if hs = [] then .next s
  else match s.forge.abort with
    | some (cause, _) =>
      let s := dropReassignment s
      .next (if runningHeads s = [] then decideLayer cause s else s)
    | none => .next (issueReassignment hs s)

/-- forge.strait.retire (0x0803). -/
def execForgeStraitRetire (rq : Req) (s : State) : Out :=
  let hs := maskBits 32 (rq.u32 0)
  commandOf .forge 0x0803 rq
    [(hs.any (s.nHeads ≤ ·), Status.outOfRange), (!layerBusy s, Status.state),
     (hs.any fun h => (s.head h).retired, Status.headRetired)]
    (fun s =>
      let c := rq.ctx s 0x0803
      let s := accept rq 0x0803 [] { s with forge := { s.forge with retireCtx := s.forge.retireCtx ++ [c] } }
      hs.foldl (fun s h => retireHead h s) s) s

/-! ### Strait commands -/

/-- forge.strait.config (0x0801). -/
def execForgeStraitConfig (rq : Req) (s : State) : Out :=
  let c : StraitCfg :=
    { flowX := rq.i16 0, flowY := rq.i16 2, down := rq.u16 4, up := rq.u16 6, radius := rq.u16 8, plumeHold := rq.u16 10,
      waitMax := rq.u16 12, straitTimeout := rq.u16 14, unexecBuf := rq.u64 16, unexecCap := rq.u32 24 }
  let bad := (c.flowX = 0 && c.flowY = 0) || 50000 < c.down || 10000 < c.up || c.down ≤ c.up || 10000 < c.radius ||
    10000 < c.plumeHold || c.waitMax = 0 || 60000 < c.waitMax ||
    (c.straitTimeout ≠ 0 && (c.straitTimeout < c.waitMax || 60000 < c.straitTimeout)) || 1048576 < c.unexecCap ||
    2 ^ 48 ≤ c.unexecBuf
  commandOf .forge 0x0801 rq [(bad, Status.badValue)]
    (fun s => respond rq 0x0801 Status.ok (leBytes 1 (bit (s.forge.layer ≠ .idle)) ++ zeros 3)
      { s with forge := { s.forge with straitNext := some c } }) s

/-- TOKEN of a head. -/
def Head.tokenCode (x : Head) : Nat :=
  if x.actives ≠ [] then 3 else match x.token with
    | .none => 0
    | .pending => 1
    | .cleared => 2

/-- forge.strait.status (0x0802). -/
def execForgeStraitStatus (rq : Req) (s : State) : Out :=
  let h := rq.u8 0
  let x := s.head h
  let retired := maskOf ((List.range s.nHeads).filter fun k => (s.head k).retired)
  commandOf .forge 0x0802 rq [(s.nHeads ≤ h, Status.outOfRange)]
    (fun s => respond rq 0x0802 Status.ok
      (leBytes 1 x.tokenCode ++ leBytes 1 (bit x.longWait) ++ zeros 2 ++ leBytes 4 retired ++ x.waits.bytes ++
       leBytes 4 (min x.waitMaxUs (2 ^ 32 - 1)) ++ x.intrusions.bytes ++ x.received.bytes ++
       leBytes 4 s.forge.unexecListed) s) s

/-! ### Melt pool (R248 to R252) -/

/-- The input selection of a head's slot (R248, R249, R251). -/
def meltpoolInput (kind pd stream feature : Nat) : Option Sel :=
  if kind = 1 then some { kind := 3, index := pd } else if kind = 2 then some { kind := 4, index := stream, sub := feature } else none

/-- The head releases its loop, and takes another. -/
def bindHead (h kind loop : Nat) (inSel : Option Sel) (s : State) : State :=
  let x := s.head h
  let s := match x.loopKind with
    | 1 => s.modLoop x.loop fun l => { l with outSel := {} }
    | 2 => s.modGroup x.loop fun g => { g with outSel := {} }
    | _ => s
  match kind with
  | 1 => s.modLoop loop fun l => { l with inSel := inSel.getD l.inSel, outSel := { kind := 3, index := h } }
  | 2 => s.modGroup loop fun g => { g with outSel := { kind := 3, index := h } }
  | _ => s

/-- forge.meltpool.config (0x0804); a group with no enabled member delivers at once (R264). -/
def execForgeMeltpoolConfig (rq : Req) (s : State) : Out :=
  let h := rq.u8 0
  let kind := rq.u8 5
  let n := rq.u8 6
  let ms := (s.group n).members
  let busy := if kind = 1 then boundElsewhere s n none none (some h) || (s.loop n).group.isSome
    else if kind = 2 then ms.any fun i => boundElsewhere s i none none (some h)
    else false
  let unbound := (kind = 1 && !(s.loop n).loaded) || (kind = 2 && ms = [])
  commandOf .forge 0x0804 rq
    [(s.nHeads ≤ h || 23 < rq.u8 2 || 15 < rq.u8 3 || (kind = 1 && 63 < n) || (kind = 2 && 15 < n), Status.outOfRange),
     (2 < rq.u8 1 || 4 < rq.u8 4 || 2 < kind || 1000 < rq.u16 8 || rq.u16 10 < 10 || 10000 < rq.u16 10 || 4095 < rq.u16 12 ||
      rq.u16 14 < 100 || rq.u16 18 < rq.u16 16, Status.badValue),
     (busy, Status.busy), (layerBusy s, Status.state), (unbound, Status.loopUnbound)]
    (fun s =>
      let s := bindHead h kind n (meltpoolInput (rq.u8 1) (rq.u8 2) (rq.u8 3) (rq.u8 4)) s
      let s := s.modHead h fun x =>
        { x with inputKind := rq.u8 1, pd := rq.u8 2, camStream := rq.u8 3, camFeature := rq.u8 4, loopKind := kind, loop := n,
                 startReset := rq.bit 7 0, retireOnLoss := rq.bit 7 1, settle := rq.u16 8, signalLost := rq.u16 10,
                 darkMin := rq.u16 12, stale := rq.u16 14, gainMin := rq.u16 16, gainMax := rq.u16 18, dark := false }
      respond rq 0x0804 Status.ok [] (if kind = 2 then idleGroup n s else s)) s

/-- g in force (forge.meltpool.status). -/
def Head.gainNow (x : Head) : Nat :=
  if x.loopKind = 0 && x.gForce.isNone then 2 ^ 15 else (clampI x.gainMin x.gainMax (x.gForce.getD x.g)).toNat

/-- forge.meltpool.status (0x0805). -/
def execForgeMeltpoolStatus (rq : Req) (s : State) : Out :=
  let h := rq.u8 0
  let x := s.head h
  commandOf .forge 0x0805 rq [(s.nHeads ≤ h, Status.outOfRange)]
    (fun s => respond rq 0x0805 Status.ok
      (leBytes 2 x.gainNow ++ leBytes 1 x.sel ++ leBytes 1 x.hold.toNat ++ leBytes 2 x.pdMean ++ zeros 2 ++ x.wonM.bytes ++
       x.wonT.bytes ++ x.wonC.bytes ++ x.saturated.bytes) s) s

/-- forge.meltpool.raw (0x0880). -/
def execForgeMeltpoolRaw (rq : Req) (s : State) : Out :=
  let h := rq.u8 0
  commandOf .forge 0x0880 rq [(s.nHeads ≤ h, Status.outOfRange), (s.forge.layer = .exposing, Status.state)]
    (fun s => respond rq 0x0880 Status.ok [] (s.modHead h fun x =>
      { x with gForce := if rq.u16 2 = 0xFFFF then none else some (rq.u16 2) })) s

/-- forge.power.cap (0x0807). -/
def execForgePowerCap (rq : Req) (s : State) : Out :=
  let mask := rq.u32 0
  let hs := if mask = 0 then List.range s.nHeads else maskBits 32 mask
  commandOf .forge 0x0807 rq [(hs.any (s.nHeads ≤ ·), Status.outOfRange)]
    (fun s => respond rq 0x0807 Status.ok []
      (hs.foldl (fun s h => s.modHead h fun x => { x with powerCap := rq.u16 4 }) s)) s

/-- MELTPOOL_SIGNAL_LOST (R252, R241): the mean has been below DARK_MIN for SIGNAL_LOST with emission on (log entry 4). -/
def execMeltpoolSignalLost (head : Nat) (s : State) : Out :=
  let x := s.head head
  match x.darkFrom with
  | some t =>
    if x.inputKind ≠ 1 || x.dark then .next s
    else
      let s := s.advanceTo (t.toNat + x.signalLost * 1600)
      if (x.lit s.now).isNone then .next s
      else
        let s := present 0x0105 (some head) 0 (s.modHead head fun x => { x with dark := true })
        .next (if x.retireOnLoss then retireHead head s else s)
  | none => .next s

/-- CAMERA_FEATURE_STALE (R249): the feature of a head's stream becomes older than STALE, raised once per vector (log entry
4). -/
def execCameraFeatureStale (head : Nat) (s : State) : Out :=
  let x := s.head head
  match at' (at' s.cam.streams x.camStream {}).featAt x.camFeature none with
  | some t =>
    let s := if x.inputKind = 2 then s.advanceTo (t.toNat + x.stale * 1600 + 1) else s
    let q := x.vectorNow s.now
    if x.inputKind ≠ 2 || x.staleVector = some q then .next s
    else .next (present 0x0107 (some head) 0 (s.modHead head fun x => { x with staleVector := some q }))
  | none => .next s

/-- A sample of a channel saturates for the heads that use it (R252). -/
def saturateHead (h : Nat) (s : State) : State :=
  let q := (s.head h).vectorNow s.now
  let s' := s.modHead h fun x => { x with saturated := x.saturated.inc, satVector := some q }
  if (s.head h).satVector = some q then s' else present 0x0106 (some h) 0 s'

/-- The next sample instant of a photodiode channel: every 800 ticks of device time (R248). -/
def sampleInstant (s : State) (channel : Nat) : Nat :=
  let next := (s.time.toNat + 799) / 800 * 800
  match at' s.engine.pdAt channel none with
  | some t => if next ≤ t.toNat then t.toNat + 800 else next
  | none => next

/-- PHOTODIODE_SAMPLE (R248, R252): the sample enters the mean of every loop and controller that reads the channel; for
a head's loop only while its emission has been on for MP_SETTLE. -/
def execPhotodiodeSample (channel counts : Nat) (s : State) : Out :=
  let c := counts % 4096
  let s := s.advanceTo (sampleInstant s channel)
  let s := { s with engine := { s.engine with pdAt := modAt s.engine.pdAt channel fun _ => some s.time } }
  let heads := (List.range s.nHeads).filter fun h => (s.head h).inputKind = 1 && (s.head h).pd = channel
  let s := if c = 4095 then heads.foldl (fun s h => saturateHead h s) s else s
  let reads (x : Sel) : Bool := x.kind = 3 && x.index = channel
  let valid (i : Nat) : Bool := match headOwner s i with
    | some h => (s.head h).settled s.now
    | none => true
  let take (i : Nat) (l : Loop) : Loop :=
    if reads l.inSel && valid i then { l with pdSum := l.pdSum + c, pdCnt := l.pdCnt + 1 } else l
  let rep (r : Repctl) : Repctl := if reads r.errSel then { r with pdSum := r.pdSum + c, pdCnt := r.pdCnt + 1 } else r
  .next { s with engine := { s.engine with loops := mapIx take s.engine.loops, repctls := s.engine.repctls.map rep } }

/-! ### The emission permit (R247) -/

/-- forge.permit.config (0x0806; log entry 52). -/
def execForgePermitConfig (rq : Req) (s : State) : Out :=
  let mask := rq.u8 0
  commandOf .forge 0x0806 rq
    [((maskBits 8 mask).any (fun i => !(s.lampOf i).regulated) || 10000 < rq.u16 2, Status.badValue),
     (layerBusy s, Status.state)]
    (fun s =>
      let s := { s with forge := { s.forge with permitStrings := BitVec.ofNat 8 mask, permitDwell := rq.u16 2 } }
      let since := if !permitPresent s then none else some (permitFrom s)
      let s := { s with forge := { s.forge with permitSince := since, permitLost := s.forge.permitLost && since.isNone } }
      respond rq 0x0806 Status.ok [] (roleUngate s)) s

end Sys2Proof.Machine
end

