-- ==== Sys2Proof/Machine/ForgeScan.lean ====
section
/-!
DEFINITION. Heads, programs and layers: the events and the commands of group 0x07 (spec/08_forge_scanning.md).
-/
namespace Sys2Proof.Machine

open Sys2Proof

/-- Group-specific status codes of group 0x07. -/
def Status.programBad : Nat := 0x8701
def Status.headNotReady : Nat := 0x8702

/-! ### Heads (R212, R213, R217) -/

/-- A head is named in a program: it owns an array, or a record names it. -/
def Program.names (p : Program) (h : Nat) : Bool :=
  at' p.arrays h [] ≠ [] || p.arrays.any fun a => a.any fun r => r.alts.getLsbD h

/-- The programs that name a head are unchecked (R217). -/
def uncheck (h : Nat) (s : State) : State :=
  { s with forge := { s.forge with programs := s.forge.programs.map fun p => if p.names h then { p with checked := false } else p } }

/-- forge.head.config (0x0701). -/
def execForgeHeadConfig (rq : Req) (s : State) : Out :=
  let h := rq.u8 0
  let old := s.head h
  let x : Head :=
    { old with configured := true, rate := rq.u8 1, trackDelay := rq.u16 2, jumpSpeed := rq.u16 4, jumpSettle := rq.u16 6,
               ox := rq.i32 8, oy := rq.i32 12, m := [rq.i32 16, rq.i32 20, rq.i32 24, rq.i32 28], fullScale := rq.u16 32,
               powerMax := rq.u16 34, park := ⟨rq.i32 36, rq.i32 40⟩, energyCap := rq.u32 44, lineMax := rq.u32 48,
               auxA := BitVec.ofNat 24 (rq.u32 52), auxB := BitVec.ofNat 24 (rq.u32 56) }
  let bad := rq.u8 1 < 10 || 100 < rq.u8 1 || 1000 < rq.u16 2 || rq.u16 4 = 0 || 10000 < rq.u16 6 || rq.u16 32 = 0 ||
    10000 < rq.u16 32 || !x.inField x.park
  commandOf .forge 0x0701 rq [(s.nHeads ≤ h, Status.outOfRange), (bad, Status.badValue), (layerBusy s, Status.state)]
    (fun s => respond rq 0x0701 Status.ok [] (uncheck h (s.modHead h fun _ => x))) s

/-- forge.head.jog (0x0780; R220). -/
def execForgeHeadJog (rq : Req) (s : State) : Out :=
  let h := rq.u8 0
  let p : Point := ⟨rq.i32 4, rq.i32 8⟩
  let free := s.forge.layer = .idle || s.forge.layer = .recoating || s.forge.layer = .recoated
  commandOf .forge 0x0780 rq
    [(s.nHeads ≤ h, Status.outOfRange), (!(s.head h).inField p, Status.badValue),
     (!free || !(s.head h).configured, Status.state)]
    (fun s => respond rq 0x0780 Status.ok [] (startJump h s.now p s)) s

/-! ### Programs (R214 to R216) -/

/-- An entry of the head table (R215): address, number of records, CRC. -/
def tableEntry (b : List Byte) (h : Nat) : Nat × Nat × BitVec 32 :=
  (leAt b (16 * h) 8, leAt b (16 * h + 8) 4, BitVec.ofNat 32 (leAt b (16 * h + 12) 4))

/-- A range of DRAM that a program names; none outside DRAM. -/
def State.dramTable (s : State) (address n : Nat) : Option (List Byte) :=
  if n = 0 then some [] else if address < 2 ^ 48 then s.table address n else none

/-- The 384-byte head table with its CRC; none where it does not match. -/
def headTable (s : State) (address : Nat) (crc : BitVec 32) : Option (List Byte) :=
  (s.dramTable address 384).bind fun b => if crc32c b = crc then some b else none

/-- The array of a head; none where its CRC does not match. -/
def headArray (s : State) (b : List Byte) (h : Nat) : Option (List Rec) :=
  let e := tableEntry b h
  if e.2.1 = 0 then some []
  else (s.dramTable e.1 (32 * e.2.1)).bind fun a =>
    if crc32c a = e.2.2 then some ((List.range e.2.1).map (recordAt a)) else none

/-! ### The check of a program (R216) -/

/-- The first record of some arrays that breaks a rule: its head and index. -/
def firstBad (arrays : List (List Rec)) (bad : Nat → Rec → Bool) : Option (Nat × Nat) :=
  (List.range arrays.length).findSome? fun h => ((at' arrays h []).find? (bad h)).map fun r => (h, r.index)

/-- Heads whose configuration a record must suit: PRIMARY and every alternate. -/
def Rec.suits (r : Rec) (s : State) : List Head :=
  s.head r.primary :: (maskBits 24 r.alts.toNat).map s.head

/-- Rule 2: TYPE and PRIMARY. -/
def bad2 (h : Nat) (r : Rec) : Bool := 3 < r.type || r.primary ≠ h

/-- Rule 3: ALTERNATES. A fence names its own head among those that take part (rule 9; log entry 50). -/
def bad3 (s : State) (_ : Nat) (r : Rec) : Bool :=
  (maskBits 24 r.alts.toNat).any (s.nHeads ≤ ·) || (r.type ≠ 3 && r.alts.getLsbD r.primary)

/-- Rule 4: SEQUENCE ascends strictly within the array and is unique across the program. -/
def bad4 (arrays : List (List Rec)) (h : Nat) (r : Rec) : Bool :=
  (match (at' arrays h [])[r.index - 1]? with
   | some p => 0 < r.index && r.seqNo ≤ p.seqNo
   | none => false) ||
  (List.range arrays.length).any fun k => k ≠ h && (at' arrays k []).any fun q => q.seqNo = r.seqNo

/-- Rule 5: the points lie in the fields. -/
def bad5 (s : State) (_ : Nat) (r : Rec) : Bool :=
  (r.suits s).any fun x =>
    ((r.type = 0 || r.type = 2) && !x.inField ⟨r.x0, r.y0⟩) || (r.type ≤ 1 && !x.inField ⟨r.x1, r.y1⟩)

/-- Rule 6: SPEED. -/
def bad6 (_ : Nat) (r : Rec) : Bool := (r.type = 0 || r.type = 2) && r.speed = 0

/-- Rule 7: POWER. -/
def bad7 (s : State) (_ : Nat) (r : Rec) : Bool :=
  (r.type = 0 || r.type = 2) && (r.suits s).any fun x => x.powerMax < r.power

/-- Rule 8: mark dose in J/m, W over mm/s times 1,000, on PRIMARY. -/
def bad8 (s : State) (_ : Nat) (r : Rec) : Bool :=
  let x := s.head r.primary
  r.type = 0 && x.lineMax ≠ 0 && x.lineMax * 65535 * r.speed < r.power * x.fullScale * 1000

/-- The fences of an array, by FENCE_ID. -/
def fenceIds (a : List Rec) : List Nat := (a.filter fun r => r.type = 3).map fun r => pattern 32 r.x0

/-- Rule 9: each fence stands once in the array of every head it names, in one relative order, and names its own head. -/
def bad9 (arrays : List (List Rec)) (h : Nat) (r : Rec) : Bool :=
  let mine := fenceIds (at' arrays h [])
  r.type = 3 && (!r.alts.getLsbD h || (maskBits 24 r.alts.toNat).any fun k =>
    let other := fenceIds (at' arrays k [])
    other.count (pattern 32 r.x0) ≠ 1 || mine.filter other.contains ≠ other.filter mine.contains)

/-- Planned energy and time of an array from the park position, and the index at which ENERGY_CAP is first exceeded
(R225, R226). -/
def Head.planArray (x : Head) : Point → Nat → Nat → Option Nat → List Rec → Nat × Nat × Option Nat
  | _, e, t, excess, [] => (e, t, excess)
  | p, e, t, excess, r :: rs =>
    if r.type = 3 then x.planArray p e t excess rs
    else
      let j := x.implicitJump r p
      let e := e + x.planned r p
      let t := t + (x.timing r p).2 + if j = 0 then 0 else j * x.tsp + x.jumpSettle * 1600
      let excess := if excess.isNone && x.energyCap ≠ 0 && x.energyCap * 1000000 < e then some r.index else excess
      x.planArray r.target e t excess rs

/-- What the check of a program finds: rule, head, index; records, planned energy in µJ and planned time in µs. -/
structure CheckResult where
  rule    : Nat
  head    : Nat
  index   : Nat
  records : Nat
  energy  : Nat
  time    : Nat
  arrays  : List (List Rec)

/-- The rules 2 to 10 in order (R216). -/
def checkArrays (s : State) (arrays : List (List Rec)) : CheckResult :=
  let plans := mapIx (fun h a => (s.head h).planArray (s.head h).park 0 0 none a) arrays
  let cap := (List.range plans.length).findSome? fun h => (at' plans h (0, 0, none)).2.2.map fun i => (h, i)
  let rules : List (Nat × Option (Nat × Nat)) :=
    [(2, firstBad arrays bad2), (3, firstBad arrays (bad3 s)), (4, firstBad arrays (bad4 arrays)),
     (5, firstBad arrays (bad5 s)), (6, firstBad arrays bad6), (7, firstBad arrays (bad7 s)), (8, firstBad arrays (bad8 s)),
     (9, firstBad arrays (bad9 arrays)), (10, cap)]
  let fail := rules.findSome? fun r => r.2.map fun b => (r.1, b.1, b.2)
  let f := fail.getD (0, 0, 0)
  { rule := f.1, head := f.2.1, index := f.2.2, records := (arrays.map List.length).sum,
    energy := (plans.map (·.1)).sum, time := openDiv ((plans.map fun p => p.2.1).foldl max 0) 1600, arrays := arrays }

/-- Where the arrays of a program stand in DRAM, by head (R215). -/
def arrayBases (s : State) (address : Nat) (crc : BitVec 32) : List Nat :=
  match headTable s address crc with
  | some b => (List.range 24).map fun h => (tableEntry b h).1
  | none => []

/-- A core reads a range of DRAM that a program names. -/
def readDramTable (address n : Nat) (s : State) : State :=
  if address < 2 ^ 48 then coreRead hostCore address n s else s

/-- The reads of a program's table and arrays. -/
def readProgram (address : Nat) (crc : BitVec 32) (s : State) : State :=
  let s := readDramTable address 384 s
  match headTable s address crc with
  | some b => (List.range 24).foldl (fun s h => readDramTable (tableEntry b h).1 (32 * (tableEntry b h).2.1) s) s
  | none => s

/-- The check of a program from its table (R216). -/
def checkProgram (s : State) (address : Nat) (crc : BitVec 32) : CheckResult :=
  let bad (h : Nat) : CheckResult := { rule := 1, head := h, index := 0, records := 0, energy := 0, time := 0, arrays := [] }
  match headTable s address crc with
  | none => bad 0
  | some b =>
    match (List.range 24).find? fun h => (headArray s b h).isNone with
    | some h => bad h
    | none => checkArrays s ((List.range 24).map fun h => (headArray s b h).getD [])

/-- A program slot is changed. -/
def State.modProgram (s : State) (i : Nat) (f : Program → Program) : State :=
  { s with forge := { s.forge with programs := modAt s.forge.programs i f } }

/-- forge.program.load (0x0702): the check completes with FORGE_PROGRAM_CHECK_DONE. -/
def execForgeProgramLoad (rq : Req) (s : State) : Out :=
  let i := rq.u8 0
  let crc := BitVec.ofNat 32 (rq.u32 12)
  let s := if served 0x0702 rq s then readDramTable (rq.u64 4) 384 s else s
  let named := match headTable s (rq.u64 4) crc with
    | some b => (List.range 24).any fun h => s.nHeads ≤ h && (tableEntry b h).2.1 ≠ 0
    | none => false
  let bound := s.forge.program = i && (layerBusy s || s.forge.layer = .closing)
  commandOf .forge 0x0702 rq [(3 < i || named, Status.outOfRange), (bound, Status.busy)]
    (fun s => accept rq 0x0702 []
      (s.modProgram i fun p =>
        { checked := false, loading := p.loading ++ [(rq.ctx s 0x0702, rq.u64 4, crc)] })) s

/-- FORGE_PROGRAM_CHECK_DONE (R216): the host-service core (R20) ends the oldest check of the slot. The slot is checked once
no later load of it is waiting. -/
def execForgeProgramCheckDone (slot : Nat) (s : State) : Out :=
  match (at' s.forge.programs slot {}).loading with
  | [] => .next s
  | (c, address, crc) :: rest =>
    let s := readProgram address crc s
    if !s.coreUp hostCore then .next s
    else
      let r := checkProgram s address crc
      let s := s.modProgram slot fun _ => 
        { checked := r.rule = 0 && rest = [], arrays := r.arrays, bases := arrayBases s address crc, loading := rest }
      .next (complete c (if r.rule = 0 then Status.ok else Status.failed)
        (leBytes 1 r.rule ++ leBytes 1 r.head ++ zeros 2 ++ leBytes 4 r.index ++ leBytes 8 r.records ++
         leBytes 8 r.energy ++ leBytes 8 r.time) s)

/-! ### Layers (R220 to R223, R227 to R230) -/

/-- forge.layer.recoat (0x0703; R228). -/
def execForgeLayerRecoat (rq : Req) (s : State) : Out :=
  let p := rq.u8 0
  let r := rq.u8 1
  let n := rq.i32 4
  commandOf .forge 0x0703 rq
    [(15 < p || 15 < r || rq.u32 12 < 100 || 600000 < rq.u32 12, Status.outOfRange), (s.forge.layer ≠ .idle || s.pwr.grace.isSome, Status.state)]
    (fun s =>
      let c := rq.ctx s 0x0703
      let s := accept rq 0x0703 [] { s with forge := { s.forge with
        layer := .recoating,
        recoat := some { ctx := c, stroke := false, platform := p, recoater := r, steps := rq.i32 8, ahead := 0,
                         deadline := s.time + BitVec.ofNat 64 (rq.u32 12 * ticksPerMs) } } }
      if n = 0 then recoatStroke s else recoatMove p n s) s

/-- RECOAT_TIMEOUT (R228): TIMEOUT_MS has passed (log entry 4). -/
def execRecoatTimeout (s : State) : Out :=
  match s.forge.recoat with
  | some r => .next (endRecoat false (s.advanceTo r.deadline.toNat))
  | none => .next s

/-- Heads of a program. -/
def Program.heads (p : Program) : List Nat := (List.range 24).filter fun h => at' p.arrays h [] ≠ []

/-- A head at arm, before it has anything to do in the layer: the counts of a layer start (R225, R227). -/
def Head.fresh (x : Head) : Head :=
  { x with inLayer := false, anchored := false, todo := [], vecs := [], st := 0, lastSeq := 0, energy := 0, energyRem := 0,
           lastPower := none, token := .none, longWait := false, retired := false, emitBad := 0, pausing := false,
           refused := none, resetFor := [], anchorShift := 0, rolled := false, satVector := none, staleVector := none }

/-- A head takes its array of the armed program (R215, R220, R222). -/
def armHead (h : Nat) (array : List Rec) (anchored : Bool) (s : State) : State :=
  let s := s.modHead h fun x => { x with inLayer := true, anchored := anchored, todo := array, armNext := [4, 5, 6] }
  startJump h s.now (s.head h).park s

/-- forge.layer.arm (0x0704). -/
def execForgeLayerArm (rq : Req) (s : State) : Out :=
  let i := rq.u8 0
  let src := rq.u8 1
  let p := at' s.forge.programs i {}
  let hs := p.heads
  commandOf .forge 0x0704 rq
    [(3 < i || (!sourceExists src && src ≠ 0xFF) || rq.u32 20 = 0 || 600000 < rq.u32 20, Status.outOfRange),
     (s.forge.layer ≠ .recoated || s.pwr.grace.isSome, Status.state), (!p.checked, Status.programBad),
     (hs.any fun h => fenced s 0x0103 h, Status.fenced),
     (hs.any fun h => !(s.head h).configured || (s.link h).st ≠ .up, Status.headNotReady)]
    (fun s =>
      let anchor := if src = 0xFF then none else some src
      let s := { s with forge := { s.forge with
        layer := .armed, number := BitVec.ofNat 32 (rq.u32 4), program := i, anchor := anchor, startPhase := rq.u64 8,
        zFocus := BitVec.ofNat 24 (rq.u32 16), fenceTimeout := rq.u32 20, abort := none, pausing := false, terminal := none,
        flags := 0, firstCommit := 0, lastHandoff := 0, vectors := 0, implicit := {}, unexecuted := {}, unexecListed := 0,
        gated := false, fencesPassed := [], reassign := [], strait := s.forge.straitNext.getD s.forge.strait, straitNext := none } }
      let s := { s with heads := s.heads.map Head.fresh }
      let s := hs.foldl (fun s h => armHead h (at' p.arrays h []) anchor.isSome s) s
      respond rq 0x0704 Status.ok [] s) s

/-- forge.layer.expose (0x0705). START_AT is ignored with a source anchor. -/
def execForgeLayerExpose (rq : Req) (s : State) : Out :=
  let at' := rq.u64 0
  let start : Nat := if at' = 0 then s.time.toNat + ticksPerMs else at'
  let early := s.forge.anchor.isNone && at' ≠ 0 && at' < s.time.toNat + 400000
  commandOf .forge 0x0705 rq
    [(early, Status.badValue), (s.forge.layer ≠ .armed || s.pwr.grace.isSome || conditionPresent s || !permitDwelt s, Status.state)]
    (fun s =>
      let c := rq.ctx s 0x0705
      let s := accept rq 0x0705 [] { s with forge := { s.forge with
        layer := .exposing, startAt := BitVec.ofNat 64 start, ctx := some c } }
      let s := (layerHeads s).foldl (fun s h => s.modHead h fun x =>
        { x with st := if x.retired then 6 else 1, endAt := if x.anchored then x.endAt else max x.endAt (64 * start : Nat),
                 ra := { x.ra with inForce := x.ra.window } }) s
      maybeComplete (syncPrivilege s)) s

/-- The layer STATE code (R227). -/
def LayerState.code : LayerState → Nat
  | .idle => 0
  | .recoating => 1
  | .recoated => 2
  | .armed => 3
  | .exposing => 4
  | .paused => 5
  | .closing => 6

/-- The reply of forge.layer.control. -/
def controlReply (rq : Req) (s : State) : State :=
  respond rq 0x0706 Status.ok (leBytes 1 s.forge.layer.code ++ zeros 3) s

/-- The layer is COMPLETED and closes: a pause or abort has lost (R163, R229). -/
def layerDone (s : State) : Bool := s.forge.layer = .closing && s.forge.terminal = some 0

/-- forge.layer.control with ACTION 0 (0x0706; R229). -/
def execForgeLayerPause (rq : Req) (s : State) : Out :=
  commandOf .forge 0x0706 rq
    [(layerDone s || layerLastDue s, Status.alreadyDone), (rq.u8 0 ≠ 0, Status.badValue), (s.forge.layer ≠ .exposing, Status.state)]
    (fun s => controlReply rq (pauseLayer s)) s

/-- The LEAD, in ticks, that RESUME_AT must leave: the largest of the layer's heads. -/
def resumeLead (s : State) : Nat := ((layerHeads s).map fun h => (s.link h).lead * 160).foldl max 0

/-- Held heads are released at a time and pausing ones go on (R229). A head whose first vector the pause has held starts it
at that time, unless START_PHASE is predicted later (R222, R223). -/
def resumeLayer (t : Nat) (s : State) : State :=
  let phase : Int := match s.forge.anchor with
    | some a => s.predict a s.forge.startPhase
    | none => 0
  let free (s : State) (h : Nat) : State := s.modHead h fun x =>
    let held := x.st = 4 && !x.vecs.any fun v => !v.committed
    if held then
      { x with st := 1, endAt := max x.endAt (64 * t : Nat),
               anchorShift := if x.vecs = [] then max x.anchorShift ((64 * t : Nat) - phase) else x.anchorShift }
    else x
  let s := { s with forge := { s.forge with layer := .exposing, pausing := false },
                    heads := s.heads.map fun x => { x with pausing := false } }
  maybeComplete ((runningHeads s).foldl free s)

/-- forge.layer.control with ACTION 1 (0x0706; R229). -/
def execForgeLayerResume (rq : Req) (s : State) : Out :=
  let at' := rq.u64 8
  let t := if at' = 0 then s.time.toNat + ticksPerMs else at'
  let early := at' ≠ 0 && at' < s.time.toNat + resumeLead s
  let ok := s.forge.layer = .paused || (s.forge.layer = .exposing && s.forge.pausing)
  commandOf .forge 0x0706 rq
    [(rq.u8 0 ≠ 1 || early, Status.badValue), (!ok || conditionPresent s || !permitDwelt s, Status.state)]
    (fun s => controlReply rq (resumeLayer t s)) s

/-- forge.layer.control with ACTION 2 (0x0706; R163, R230). -/
def execForgeLayerAbort (rq : Req) (s : State) : Out :=
  commandOf .forge 0x0706 rq
    [(layerDone s || layerLastDue s, Status.alreadyDone), (rq.u8 0 ≠ 2, Status.badValue),
     (s.forge.layer ≠ .armed && s.forge.layer ≠ .exposing && s.forge.layer ≠ .paused, Status.state)]
    (fun s => controlReply rq (abortLayer 1 s)) s

/-- HEAD_STATE (R158, R227): a head that waits for a rebuilt vector past its due commit holds. -/
def headState (s : State) (h : Nat) : Nat := if (s.head h).st = 1 && holding s h then 4 else (s.head h).st

/-- forge.layer.status (0x0707). -/
def execForgeLayerStatus (rq : Req) (s : State) : Out :=
  let h := rq.u8 0
  let x := s.head h
  commandOf .forge 0x0707 rq [(s.nHeads ≤ h, Status.outOfRange)]
    (fun s => respond rq 0x0707 Status.ok
      (leBytes 1 s.forge.layer.code ++ leBytes 1 (headState s h) ++ leBytes 2 x.theta ++ leBytes 4 x.vectorsLeft ++
       leBytes 8 x.lastSeq ++ leBytes 8 x.energy ++ leBytes 8 x.provisional ++ x.straitWait.bytes ++ x.implicit.bytes) s) s

/-- FENCE_TIMEOUT (R221): the head has waited at a fence for more than FENCE_TIMEOUT (log entry 4). -/
def execFenceTimeout (head : Nat) (s : State) : Out :=
  if (s.head head).st ≠ 3 || s.forge.layer ≠ .exposing then .next s
  else
    let s := s.advanceTo ((s.head head).fenceAt.toNat + s.forge.fenceTimeout * ticksPerMs + 1)
    .next (abortLayer 4 (present 0x00E2 (some head) 0 s))

/-! ### Role interlocks (R231) -/

/-- forge.interlock.assign (0x0708). -/
def execForgeInterlockAssign (rq : Req) (s : State) : Out :=
  let g := rq.u8 0
  let role := rq.u8 1
  let mask := rq.u32 8
  commandOf .forge 0x0708 rq
    [(31 < g || (maskBits 32 mask).any (s.nHeads ≤ ·), Status.outOfRange),
     ((role ≠ 0 && (role < 4 || 6 < role)) || 15 < rq.u8 3 || rq.u16 4 < 10 || 60000 < rq.u16 6, Status.badValue)]
    (fun s => respond rq 0x0708 Status.ok [] (setRole g (fun x =>
      { x with role := role, activeLow := rq.bit 2 0, forge := true, debounce := rq.u16 4, graceMs := rq.u16 6,
               heaters := BitVec.ofNat 8 (rq.u8 3), heads := BitVec.ofNat 32 mask }) s)) s

/-- GRACE_EXPIRY (R231): the condition of GAS_OK or O2_OK has lasted GRACE_MS. -/
def execGraceExpiry (input : Nat) (s : State) : Out :=
  let x := s.gpiOf input
  if x.forge && x.active && !x.gated && (x.role = 5 || x.role = 6) then .next (graceOver input s) else .next s

end Sys2Proof.Machine
end

