-- ==== Sys2Proof/Machine/Lagoon.lean ====
section
/-!
DEFINITION. Lagoon (spec/12_lagoon.md): handle requests and grants, fills, reads, the scrubber, and the Lagoon commands
of group 0x0B.
-/
namespace Sys2Proof.Machine

open Sys2Proof

/-- A request takes its place in the firmware queue: ascending due time, arrival order between equals (R301). -/
def queueByDue (r : TileReq) : List TileReq → List TileReq
  | [] => [r]
  | q :: rest => if r.due < q.due then r :: q :: rest else q :: queueByDue r rest

/-- The feed core that requests tiles for an owner runs (R20). -/
def ownerFed (s : State) : TileOwner → Bool
  | .free => true
  | .station i => s.stationFed i
  | .head h => s.headFed h

/-- TILE_HANDLE_REQUEST (R301, R302): a feed core's request waits in the allocator, or in the firmware while 64 wait. With
no handle free for it, it counts in ALLOC_STALLS, and the first since lagoon.status raises LG_ALLOC_STALL. -/
def execTileHandleRequest (due : BitVec 64) (owner : TileOwner) (s : State) : Out :=
  if !ownerFed s owner then .next s
  else
    let r : TileReq := { due := due, owner := owner }
    let served := (lowestFree s).isSome && s.lag.waiting.length < freeTiles s
    let s := if s.lag.waiting.length < 64 then { s with lag := { s.lag with waiting := s.lag.waiting ++ [r] } }
      else { s with lag := { s.lag with queued := queueByDue r s.lag.queued } }
    if served then .next s
    else
      let raised := s.lag.stallRaised
      let s := { s with lag := { s.lag with stalls := s.lag.stalls.inc, stallRaised := true } }
      .next (if raised then s else present 0x0162 none 0 s)

/-- The waiting request served first: the lowest due time, the first to arrive between equals (R301). -/
def earliestDue : List TileReq → Option TileReq
  | [] => none
  | r :: rest => match earliestDue rest with
    | some q => if q.due < r.due then some q else some r
    | none => some r

/-- TILE_HANDLE_GRANT (R301): the request served receives the lowest free handle, and the firmware forwards the first
request of its queue. -/
def execTileHandleGrant (s : State) : Out :=
  match earliestDue s.lag.waiting, lowestFree s with
  | some r, some h =>
    let s := s.setTile { s.tile h with handle := h, allocated := true, owner := r.owner, verified := false, admitted := false }
    let waiting := s.lag.waiting.erase r
    .next { s with lag := { s.lag with
      granted := s.lag.granted ++ [(h, r)], waiting := waiting ++ s.lag.queued.take 1, queued := s.lag.queued.drop 1 } }
  | _, _ => .next s

/-- The TILE_ID after `i` (R300): it wraps to 1. -/
def nextTileId (i : BitVec 32) : BitVec 32 := if i = 0xFFFFFFFF then 1 else i + 1

/-- TILE_FILL_OPEN (R300, R305): an allocated tile that is not admitted takes its header fields and a TILE_ID. -/
def execTileFillOpen (handle : Nat) (hdr : FillHdr) (s : State) : Out :=
  let t := s.tile handle
  if !t.allocated || t.admitted || t.fill.isSome || s.nTiles ≤ handle then .next s
  else
    let t := { t with id := s.lag.nextId, page := hdr.pageId, owner := hdr.owner, column := hdr.column, origin := hdr.origin,
                      verified := false, fill := some { next := 0, bad := false, done := [] } }
    let s := s.setTile t
    .next { freshHeader handle s with lag := { (freshHeader handle s).lag with
      nextId := nextTileId s.lag.nextId, granted := s.lag.granted.filter fun g => g.1 ≠ handle } }

/-- The requester that stages records and makes internal copies: one of the firmware's channels 28 to 31 (R330, R345; log
entry 103). -/
def firmwareChannel (s : State) : Nat := 28 + Config.freeNat s.free % 4

/-- The bytes that the writer of a tile delivers at an offset, and the state after its read of them: of the band or the
records that the tile is filled with (R23, R24, R359), and none where the model knows no writer of it. -/
def writerBytes (s : State) (handle offset n : Nat) : Option (List Byte) × State :=
  match jobOfTile s handle with
  | some (j, k) =>
    (some (((inflate (16384 * j.ncol) (s.dramRead j.src j.srcLen)).output.drop (16384 * k + offset)).take n), s)
  | none =>
    let t := s.tile handle
    match t.owner with
    | .head h =>
      let p := at' s.forge.programs s.forge.program {}
      let a := at' p.arrays h []
      let o := 16384 * t.origin.toNat + offset
      if layerBusy s && t.page = s.forge.number then
        let r := dramFetch (16 + firmwareChannel s) (at' p.bases h 0 + o) (min n (32 * a.length - o)) 0 s
        (some r.1, { r.2 with free := r.2.free + 1 })
      else (none, s)
    | _ => (none, s)

/-- A write to a tile with no open fill is refused: its writer meets a bus error (R307), which ends a firmware job with
RESULT 6 and a descriptor of a firmware channel BAD. -/
def refuseWrite (handle : Nat) (s : State) : State :=
  if (jobOfTile s handle).isSome then
    let mark (e : Deflate) : Deflate := match e.cur with
      | some (.fw j) =>
        if (j.columns s).any fun k => (j.tile s k).any fun t => t.handle = handle then
          { e with cur := some (.fw { j with refused := true }) }
        else e
      | _ => e
    { s with dma := { s.dma with engines := s.dma.engines.map mark } }
  else
    let c := firmwareChannel s
    present 0x0180 (some c) 0 ({ s with free := s.free + 1 }.modChannel c fun ch => { ch with bad := ch.bad.inc })

/-- TILE_FILL_WRITE (R305 to R307): the next units of an open fill: those of its writer, where the model holds what it
writes. -/
def execTileFillWrite (handle offset : Nat) (data : List Byte) (s : State) : Out :=
  if (s.tile handle).fill.isNone then .next (refuseWrite handle s)
  else
    let r := writerBytes s handle offset data.length
    .next (writeFill handle offset (r.1.getD data) r.2)

/-- TILE_FILL_CLOSE (R305): the writer ends. -/
def execTileFillClose (handle : Nat) (s : State) : Out := .next (closeFill handle s)

/-- The fabric class of a reader (R27): a transfer is the copy of lagoon.tile.read. -/
def readerClass : LagoonReader → Nat
  | .lane => 1
  | .generator => 1
  | .admission => 1
  | .transfer => 3

/-- LAGOON_READ (R308, R310): a single-bit error is corrected and logged; a double-bit error acts by its reader. -/
def execLagoonRead (address : BitVec 32) (reader : LagoonReader) (upset : Nat) (s : State) : Out :=
  let h := lagHandle address.toNat
  let cls := readerClass reader
  let r := lagReadWord address.toNat upset 0 cls (if cls = 1 then classGrant 1 s else s)
  if r.1 then .next r.2
  else
    .next (if address.getLsbD 31 then tileFailed h r.2
      else match reader with
        | .lane => damageTile h r.2
        | .generator => tileFailed h r.2
        | .admission => tileFailed h r.2
        | .transfer => r.2)

/-- Words that one scrub pass reads: payload and header stores (R309). -/
def scrubWords (s : State) : Nat := s.nTiles * 2050

/-- LAGOON_SCRUB_STEP (R308 to R310): the next word, in a cycle in which its bank has no fabric access (`idle`); words of
open fills are skipped. -/
def execLagoonScrubStep (idle : Bool) (upset : Nat) (s : State) : Out :=
  if !idle then .next s else
  let address := scrubAddress s.lag.scrubbed
  let h := lagHandle address
  let wrap := scrubWords s ≤ s.lag.scrubbed + 1
  let s := { s with lag := { s.lag with
    scrubbed := if wrap then 0 else s.lag.scrubbed + 1, passes := if wrap then s.lag.passes + 1 else s.lag.passes } }
  if (s.tile h).fill.isSome then .next s
  else
    let r := lagReadWord address upset 1 0xFF s
    .next (if r.1 then r.2
      else if (r.2.tile h).admitted then tileFailed h r.2
      else r.2.modTile h fun t => { t with verified := false })

/-- LAGOON_TILE_READ_DONE (R308, R310): header and payload have been copied to ADDRESS in class 3; the completion carries the
payload's CRC. A header that cannot be corrected fails the tile's check. -/
def execLagoonTileReadDone (s : State) : Out :=
  if !s.coreUp hostCore then .next s else
  match s.lag.reads with
  | [] => .next s
  | (ctx, h, address) :: rest =>
    let r := lagReadTile h 3 true { s with lag := { s.lag with reads := rest } }
    let s := (lagReadTile h 3 false (if r.1 then r.2 else tileFailed h r.2)).2
    let bytes := (s.tile h).header ++ s.tilePayload h
    let c := 16 + firmwareChannel s
    .next (match s.place address with
      | .dram a room =>
        if bytes.length ≤ room then
          complete ctx Status.ok (leBytes 4 (crc32c (s.tilePayload h)).toNat)
            (dramStore c a bytes { s with free := s.free + 1 })
        else complete ctx Status.failed [] s
      | _ => complete ctx Status.failed [] s)

/-- lagoon.status (0x0B01). -/
def execLagoonStatus (rq : Req) (s : State) : Out :=
  command 0x0B01 rq [] (fun s => respond rq 0x0B01 Status.ok
    (leBytes 2 s.nTiles ++ leBytes 2 (freeTiles s) ++ leBytes 2 s.lag.waiting.length ++ zeros 2 ++ s.lag.stalls.bytes ++
     s.lag.corrected.bytes ++ s.lag.uncorr.bytes ++ leBytes 4 s.lag.lastUncorr.toNat ++ s.lag.fillOrder.bytes ++
     leBytes 4 s.lag.passes.toNat) { s with lag := { s.lag with stallRaised := false } }) s

def LagEntry.bytes (e : LagEntry) : List Byte :=
  leBytes 8 e.time.toNat ++ leBytes 4 e.address.toNat ++ leBytes 1 e.syndrome.toNat ++ leBytes 1 e.foundBy ++
  leBytes 1 e.cls ++ zeros 1

/-- lagoon.ecc.log (0x0B02, R311): repeated commands with CLEAR 0 go on through a long log, and begin again once it has
been read to its end (log entry 88). -/
def execLagoonEccLog (rq : Req) (s : State) : Out :=
  command 0x0B02 rq [(1 < rq.u8 0, Status.badValue)]
    (fun s =>
      let es := (s.lag.log.drop s.lag.logRead).take 13
      let read := s.lag.logRead + es.length
      let s' := if rq.u8 0 = 1 then { s with lag := { s.lag with log := [], logOver := {}, logRead := 0 } }
        else { s with lag := { s.lag with logRead := if s.lag.log.length ≤ read then 0 else read } }
      respond rq 0x0B02 Status.ok
        (s.lag.logOver.bytes ++ leBytes 1 es.length ++ zeros 3 ++ es.flatMap LagEntry.bytes) s') s

/-- lagoon.tile.header (0x0B03; R308, R310): a read of the header in class 4, which can fail the tile's check. -/
def execLagoonTileHeader (rq : Req) (s : State) : Out :=
  let h := rq.u16 0
  command 0x0B03 rq [(s.nTiles ≤ h, Status.outOfRange), (!(s.tile h).allocated, 0x8B01)]
    (fun s =>
      let r := lagReadTile h 4 true s
      let s := if r.1 then r.2 else tileFailed h r.2
      let t := s.tile h
      respond rq 0x0B03 Status.ok (t.header ++ leBytes 1 (ofBits [t.verified, t.admitted, t.fill.isSome]) ++ zeros 3) s) s

/-- lagoon.tile.read (0x0B80). -/
def execLagoonTileRead (rq : Req) (s : State) : Out :=
  let h := rq.u16 0
  let address := rq.u64 4
  let kindOk := address / 2 ^ 48 = 0 || (address / 2 ^ 48 = 2 && address % 2 ^ 48 < 2 ^ 28)
  command 0x0B80 rq
    [(s.nTiles ≤ h, Status.outOfRange), (!kindOk, Status.badValue), (!(s.tile h).allocated, 0x8B01)]
    (fun s => accept rq 0x0B80 [] { s with lag := { s.lag with reads := s.lag.reads ++ [(rq.ctx s 0x0B80, h, address)] } }) s

/-- lagoon.ecc.inject (0x0B81): the bits flip at the next read of the word. -/
def execLagoonEccInject (rq : Req) (s : State) : Out :=
  let address := rq.u32 0
  let header := 2 ^ 31 ≤ address
  let h := lagHandle address
  command 0x0B81 rq
    [(s.nTiles ≤ h || (header && 2 ≤ address % 2048) || 2 ^ 23 ≤ address % 2 ^ 31, Status.outOfRange),
     (rq.u8 4 ≠ 1 && rq.u8 4 ≠ 2, Status.badValue), ((s.tile h).admitted, Status.state)]
    (fun s => respond rq 0x0B81 Status.ok []
      { s with lag := { s.lag with inject := (address, rq.u8 4) :: s.lag.inject.filter fun p => p.1 ≠ address } }) s

end Sys2Proof.Machine
end

