-- ==== Sys2Proof/Machine/Lamps.lean ====
section
/-!
DEFINITION. Lamp strings (spec/20_lighting.md): matrix frames, lamp failure, and the commands of group 0x13.
-/
namespace Sys2Proof.Machine

open Sys2Proof

/-- The report of a lamp: 0 good, 1 open, 2 shorted, 3 matrix fault (R446). -/
def lampReport (reports : BitVec 32) (i : Nat) : Nat := reports.toNat / 4 ^ i % 4

/-- CRC-8 of the matrix frames: polynomial 0x07, initial value 0x00 (R446). -/
def crc8 (bs : List Byte) : Byte :=
  bs.foldl (fun c b => (List.range 8).foldl (fun c _ => (c <<< 1) ^^^ (if c.getLsbD 7 then 0x07 else 0)) (c ^^^ b)) 0

/-- The CRC-8 of a frame's other 56 bits, most significant first; it ends the frame (R446). -/
def frameCrc (frame : BitVec 64) : Byte := crc8 (leBytes 7 (frame.toNat / 256)).reverse

/-- A frame of 56 bits with its CRC-8. -/
def withCrc8 (body : Nat) : BitVec 64 :=
  let frame := BitVec.ofNat 64 (body % 2 ^ 56 * 256)
  frame ||| (frameCrc frame).setWidth 64

/-- The frame that a string's matrix is sent: its index and the shunt mask (R446; the place of the fields is log entry 95). -/
def Lamp.sent (i : Nat) (x : Lamp) : BitVec 64 := withCrc8 (i * 2 ^ 16 + x.shunt.toNat)

/-- The 32 lamp bits of a frame that came back (log entry 95). -/
def lampBits (frame : BitVec 64) : BitVec 32 := BitVec.ofNat 32 (frame.toNat / 256)

/-- LEDs_REF in µV (R447). -/
def Lamp.refOut (x : Lamp) (now : BitVec 64) : Nat :=
  let v := x.inForce now
  if v = 0 then 0 else if v < 100 then 100 * x.refMv else v * x.refMv

/-- LEDs_EN (R447): held active at 100 and more, PWM at PWM_HZ with duty LEVEL / 100 below. -/
def Lamp.enPin (x : Lamp) (now : BitVec 64) : Bool :=
  let v := x.inForce now
  100 ≤ v || (now - x.onAt).toNat * x.pwmHz % ticksPerSecond * 100 < v * ticksPerSecond

/-- The start of the next PWM period. -/
def Lamp.nextPeriod (x : Lamp) (now : BitVec 64) : BitVec 64 :=
  x.onAt + BitVec.ofNat 64 (ceilDiv (((now - x.onAt).toNat * x.pwmHz / ticksPerSecond + 1) * ticksPerSecond) x.pwmHz)

/-- A new LEVEL (R447): at once at 100 and more, below it from the start of the next PWM period. -/
def Lamp.setLevel (x : Lamp) (level : Nat) (now : BitVec 64) : Lamp :=
  { x with level := level, levelWas := x.inForce now, levelFrom := if 100 ≤ level then now else x.nextPeriod now }

/-- The lamps of a string whose shunts are open. -/
def Lamp.unshunted (x : Lamp) : List Nat := (List.range x.lamps).filter fun i => !x.shunt.getLsbD i

/-- A set of lamps as a mask. -/
def lampMask (is : List Nat) : BitVec 16 := is.foldl (fun m i => m ||| (1#16 <<< i)) 0

/-- Lamp failures are confirmed (R448): FAILED_MASK, LT_LAMP_FAIL for each; without REGULATED an open lamp is shunted
(R449). -/
def failLamps (i : Nat) (lamps opens : List Nat) (s : State) : State :=
  lamps.foldl (fun s k =>
    present 0x0260 (some i) k (s.modLamp i fun x =>
      { x with failed := x.failed ||| (1#16 <<< k), lampFails := x.lampFails.inc, failAt := some s.time,
               shunt := if !x.regulated && opens.contains k then x.shunt ||| (1#16 <<< k) else x.shunt })) s

/-- A regulated string switches off (R451): its function is withdrawn, with the emission permit for FUNCTION 1. -/
def switchOff (i : Nat) (s : State) : State :=
  let s := s.modLamp i fun x => { x with st := 3, functionOk := false }
  permitUpdate (present 0x0261 (some i) 0 s)

/-- LAMP_MATRIX_FRAME (R446, R448 to R452), 100 µs after the last (log entry 4): the frame that comes back to an enabled
string whose LEDs_EN is active is judged; `heard` is false where the matrix reports a CRC failure of the frame sent. The
process core of Isle 3 runs the lamp test. -/
def execLampMatrixFrame (string : Nat) (frame : BitVec 64) (heard : Bool) (s : State) : Out :=
  let x := s.lampOf string
  if !(x.st = 1 || x.st = 2) then .next s
  else
  let s := s.advanceTo (x.frameAt.toNat + ticksPerMs / 10)
  let reports := lampBits frame
  let s := s.modLamp string fun y => { y with reports := reports, frameAt := s.time }
  if !x.enPin s.time then .next s
  else
    let is := x.unshunted
    let fault := !heard || frame.setWidth 8 ≠ frameCrc frame || is.any fun i => lampReport reports i = 3
    let bad := if fault then [] else is.filter fun i => lampReport reports i = 1 || lampReport reports i = 2
    let s := s.modLamp string fun y =>
      { y with suspect := lampMask bad, commBad := fault, commErrors := if fault then y.commErrors.inc else y.commErrors }
    let commFail := fault && x.commBad
    let failing := if commFail then is else bad.filter fun i => x.suspect.getLsbD i
    let fresh := failing.filter fun i => !x.failed.getLsbD i
    let opens := bad.filter fun i => lampReport reports i = 1
    let s := if commFail then present 0x0262 (some string) 0 s else s
    let s := failLamps string fresh opens s
    if fresh ≠ [] then
      let s := if x.regulated then switchOff string s else s.modLamp string fun y => { y with st := 2, good := 0 }
      .next (if x.st = 1 then endTest string Status.failed s else s)
    else if x.st = 1 && s.coreUp cameraCore then
      if fault || bad ≠ [] then .next (s.modLamp string fun y => { y with good := 0 })
      else
        let n := x.good + 1
        if n < 100 then .next (s.modLamp string fun y => { y with good := n })
        else
          let s := s.modLamp string fun y => { y with st := 2, good := 0, functionOk := true, intactAt := s.time }
          .next (permitUpdate (endTest string Status.ok s))
    else .next s

/-! ### Commands -/

/-- R454: the string carries the permit of a layer that is ARMED, EXPOSING or PAUSED. -/
def permitHeld (s : State) (i : Nat) : Bool :=
  s.forge.permitStrings.getLsbD i && (s.forge.layer = .armed || s.forge.layer = .exposing || s.forge.layer = .paused)

/-- light.string.config (0x1301). -/
def execLightStringConfig (rq : Req) (s : State) : Out :=
  let i := rq.u8 0
  let x := s.lampOf i
  let reg := rq.bit 2 0
  let level := rq.u16 6
  let enable := rq.u8 1 = 1
  let bad := 1 < rq.u8 1 || 1 < rq.u8 3 || (rq.u8 3 = 1 && !reg) || rq.u8 4 < 1 || 16 < rq.u8 4 || 1000 < level ||
    rq.u16 8 < 100 || 1200 < rq.u16 8 || rq.u16 10 < 200 || 20000 < rq.u16 10 ||
    (reg && (level < 100 || rq.u16 12 ≠ 0))
  command 0x1301 rq
    [(8 ≤ i, Status.outOfRange), (permitHeld s i, Status.state), (bad, Status.badValue),
     (x.st = 3 && unackedSource s 0x0261, Status.state)]
    (fun s =>
      let rises := enable && (x.st = 0 || x.st = 3)
      let s := if enable then s else endTest i Status.failed s
      let s := s.modLamp i fun y =>
        { y with regulated := reg, function := rq.u8 3, lamps := rq.u8 4, level := level, levelWas := y.inForce s.time,
                 levelFrom := if enable && !rises && level < 100 then y.nextPeriod s.time else s.time,
                 onAt := if rises then s.time else y.onAt, frameAt := if rises then s.time else y.frameAt, refMv := rq.u16 8,
                 pwmHz := rq.u16 10, shunt := BitVec.ofNat 16 (rq.u16 12),
                 st := if !enable then 0 else if rises then 1 else y.st,
                 functionOk := if !enable || rises then false else y.functionOk,
                 failed := if rises then 0 else y.failed, suspect := 0, commBad := false, good := 0 }
      let s := permitUpdate s
      if rises then accept rq 0x1301 [] (s.modLamp i fun y => { y with ctx := some (rq.ctx s 0x1301) })
      else respond rq 0x1301 Status.ok [] s) s

/-- light.string.level (0x1302). -/
def execLightStringLevel (rq : Req) (s : State) : Out :=
  let i := rq.u8 0
  let x := s.lampOf i
  let level := rq.u16 2
  command 0x1302 rq
    [(8 ≤ i, Status.outOfRange), (permitHeld s i, Status.state),
     (1000 < level || (x.regulated && level < 100), Status.badValue), (x.failAt = some s.time, Status.preempted), (x.st = 3, 0x9301)]
    (fun s => respond rq 0x1302 Status.ok [] (s.modLamp i fun y => y.setLevel level s.time)) s

/-- light.string.status (0x1303). -/
def execLightStringStatus (rq : Req) (s : State) : Out :=
  let i := rq.u8 0
  let x := s.lampOf i
  command 0x1303 rq [(8 ≤ i, Status.outOfRange)]
    (fun s => respond rq 0x1303 Status.ok
      (leBytes 1 x.st ++ leBytes 1 (bit x.functionOk) ++ leBytes 2 x.failed.toNat ++ leBytes 2 (x.inForce s.time) ++ zeros 2 ++
       x.lampFails.bytes ++ x.commErrors.bytes) s) s

/-- light.matrix.raw (0x1380), refused on a string of the permit as every change of it is (R454). -/
def execLightMatrixRaw (rq : Req) (s : State) : Out :=
  let i := rq.u8 0
  let x := s.lampOf i
  command 0x1380 rq [(8 ≤ i, Status.outOfRange), (permitHeld s i, Status.state), (x.regulated, Status.badValue)]
    (fun s => respond rq 0x1380 Status.ok (leBytes 4 x.reports.toNat)
      (s.modLamp i fun y => { y with shunt := BitVec.ofNat 16 (rq.u16 2) })) s

end Sys2Proof.Machine
end

