-- ==== Sys2Proof/Machine/LinkOps.lean ====
section
/-!
DEFINITION. Operations over the beam links (spec/04_lanes_and_links.md): training, link-down, violations, compensation.
-/
namespace Sys2Proof.Machine

open Sys2Proof

/-- The link is UP or DEGRADED. -/
def Link.alive (x : Link) : Bool := x.st = .up || x.st = .degraded

/-- STATE of link.status. -/
def linkStateCode : LinkState → Nat
  | .off => 0
  | .training => 1
  | .up => 2
  | .degraded => 3
  | .down => 4

/-! ### Compensation (R131) -/

/-- D of R131 for a version, a one-way delay and a TRIM; an override stands for it (link.config.raw). -/
def Link.compensation (x : Link) (trim : Int) (override : Option Nat) : Int :=
  match override with
  | some d => d
  | none => if x.version = 2 then x.oneWay + x.partnerDelay + trim else trim

/-- D lies in 0 to 1,048,575 (R131). -/
def dOk (d : Int) : Bool := 0 ≤ d && d ≤ 1048575

/-- The partner can buffer LEAD at 242.43 million blocks per second (R125); LEAD in units of 0.1 µs. -/
def leadOk (lead bufDepth : Nat) : Bool := lead * 24243 ≤ bufDepth * 1000

/-- UNGATE on a released link: the release time less D, rounded down to a whole tick (R138). -/
def sendUngate (l at_ : Nat) (s : State) : State :=
  let t := (64 * (at_ : Int) - (s.link l).d) / 64
  sendCtl l 4 (0xFF * 2 ^ 32 + pattern 32 t) s

/-! ### Training (R129) -/

/-- Completion payload of link.config. -/
def linkPayload (x : Link) : List Byte :=
  leBytes 1 (linkStateCode x.st) ++ leBytes 1 x.version ++ leBytes 2 x.bufDepth ++ leBytesI 4 x.d ++
  leBytesI 4 (if x.version = 2 then x.oneWay else 0)

/-- The transmitter runs from the first link.config on (R119). -/
def txStart (l : Nat) (s : State) : State :=
  s.modLink l fun x => { x with txFrom := some (x.txFrom.getD s.time) }

/-- Step 1 of R129: IDLE blocks, and cause 6 on the link. -/
def startTraining (l : Nat) (ctx : Option Ctx) (s : State) : State :=
  let s := setCause 6 [l] (sendBlock l false idleBlock (txStart l s))
  s.modLink l fun x =>
    { x with st := .training, enabled := true, step := 1, version := 0, probes := [], ackWait := [], ctx := ctx, resyncing := false,
             retrainWait := false, temp := none, oneWay := 0 }

/-- A link-up fails (R129): the completion is FAILED and LNK_TRAIN_FAIL is raised; an attempt of R140 is followed by the
next one, up to 3. -/
def trainFail (l : Nat) (s : State) : State :=
  let x := s.link l
  let p := linkPayload { x with st := .down, version := 0 }
  let s := s.modLink l fun x =>
    { x with st := .down, step := 0, version := 0, ctx := none, ackWait := [], retrainWait := x.ctx.isNone && x.retries < 3 }
  let s := presentFw 0x0062 (some l) 0 s
  match x.ctx with
  | some c => complete c Status.failed p s
  | none => s

/-- A lane's encoder on a link that has come up: its partner holds no reference stamp and no pitch (R121). -/
def LaneTx.restart (t : LaneTx) : LaneTx := { last := t.last, handed := t.handed }

/-- Step 6 of R129: LEAD and D are checked; TIMESYNC is sent, cause 6 is removed, and a GATE word follows. -/
def finishTraining (l : Nat) (s : State) : State :=
  let d := (s.link l).compensation (s.link l).trim (s.link l).dOverride
  let s := s.modLink l fun x => { x with d := d }
  let x := s.link l
  if !(dOk d && leadOk x.lead x.bufDepth) then trainFail l s
  else
    let s := sendCtl l 2 (s.time.toNat % 2 ^ 40) s
    let s := s.modLink l fun x =>
      { x with st := .up, step := 0, retries := 0, telemAt := s.time, telemMiss := 0, emitOk := 0xFF,
               lanes := x.lanes.map LaneTx.restart, temp := none, ctx := none, winCount := 0,
               resyncTimes := [], swing := (x.rawNext.map (·.1)).getD x.swing, deemph := (x.rawNext.map (·.2)).getD x.deemph,
               rawNext := none, causes := x.causes &&& ~~~(1#7 <<< 6) }
    let s := sendGate l s
    match x.ctx with
    | some c => complete c Status.ok (linkPayload (s.link l)) s
    | none => s

/-! ### Link down (R140) -/

/-- A link goes down: cause 6, the fault, and a retraining after 10 ms. -/
def linkDown (l : Nat) (s : State) : State :=
  if !(s.link l).alive then s
  else
    let bound := linkActive s l
    let s := remoteAbsent l s
    let s := s.modLink l fun x =>
      { x with st := .down, version := 0, linkDowns := x.linkDowns.inc, ackWait := [], resyncing := false, temp := none,
               retrainWait := true, retries := 0 }
    let s := setCause 6 [l] s
    present (if bound then 0x0060 else 0x0061) (some l) 0 s

/-! ### Violations (R139, R141) -/

/-- The violations that count under R139. -/
def countedCode (code : Nat) : Bool := [0x01, 0x02, 0x03, 0x06, 0x07, 0x08, 0x09].contains code

/-- A back-channel resynchronisation (R139): the third within 100 ms puts the link in DEGRADED. -/
def resync (l : Nat) (s : State) : State :=
  let s := s.modLink l fun x =>
    { x with resyncs := x.resyncs.inc, resyncing := true, resyncTimes := (s.time :: x.resyncTimes).take 3 }
  let x := s.link l
  match x.resyncTimes with
  | [a, _, c] =>
    if (a - c).toNat < 100 * ticksPerMs then
      let s := (remoteAbsent l s).modLink l fun x => { x with st := .degraded, resyncTimes := [], temp := none }
      present 0x0063 (some l) 0 s
    else s
  | _ => s

/-- A violation of a link: counted, logged with INTERFACE 2, and answered in the stages of R139, whose windows start at the
whole milliseconds of device time. `type` is the message TYPE or CTYPE. -/
def linkViolation (l code type : Nat) (s : State) : State :=
  let staged := countedCode code && (s.link l).alive
  let win := s.time.toNat / ticksPerMs
  let s := s.modLink l fun x =>
    { x with violations := x.violations.inc, win := win, winCount := (if x.win = win then x.winCount else 0) + bit staged }
  let x := s.link l
  let s := logViolation 2 l code (type % 256 + min x.winCount 65535 * 65536) s
  if staged && x.winCount % 4 = 0 then (if x.st = .degraded then linkDown l s else resync l s) else s

/-- A message that arrives now is lost (R139): the receiver re-locks, or has no comma lock in training. -/
def Link.deaf (x : Link) : Bool := x.resyncing || (x.st = .training && x.step ≤ 1) || x.txFrom.isNone

/-- Late events are reported by the partner (R126, R141). -/
def reportLate (l k type : Nat) (s : State) : State :=
  let s := s.modLink l fun x => { x with partnerLate := x.partnerLate.add k }
  present 0x0065 (some l) 0 (linkViolation l 0x0B type s)

/-! ### Telemetry (R128, R181, R241) -/

/-- A beam's part of a TELEMETRY message: bad with its EMIT_OK bit at 0, or its monitor below MON_MIN though lit. -/
def beamBad (st : Station) (x : Link) (k : Nat) : Bool :=
  !x.emitOk.getLsbD k || ((at' x.lanes k {}).lit && at' x.monitors k 0 < st.monMin)

/-- Delta's test of the beams of a link after a TELEMETRY message (R181). -/
def telemetryBeams (l : Nat) (s : State) : State :=
  match linkStation s l with
  | none => s
  | some i =>
    let base := 8 * (s.station i).links.idxOf l
    (List.range 8).foldl (fun s k =>
      let b := base + k
      if beamBad (s.station i) (s.link l) k then
        let s := s.modStation i fun st => { st with telemRun := modAt st.telemRun b (· + 1) }
        if (s.station i).deadTelem ≤ at' (s.station i).telemRun b 0 then
          declareDead i b (fun st => { st with byTelem := st.byTelem.inc }) s
        else s
      else s.modStation i fun st => { st with telemRun := modAt st.telemRun b fun _ => 0 }) s

/-- The head's test of a TELEMETRY message (R241). -/
def telemetryHead (h : Nat) (s : State) : State :=
  if !((s.head h).inLayer && (s.head h).emitting && layerBusy s) then s.modHead h fun x => { x with emitBad := 0 }
  else if (s.link h).emitOk.getLsbD 1 then s.modHead h fun x => { x with emitBad := 0 }
  else
    let s := s.modHead h fun x => { x with emitBad := x.emitBad + 1 }
    if (s.head h).emitBad = 3 then retireHead h s else s

end Sys2Proof.Machine
end

