-- ==== Sys2Proof/Machine/Thermal.lean ====
section
/-!
DEFINITION. Temperatures (spec/18_thermal.md): readings, the throttle, and the commands of group 0x11.
-/
namespace Sys2Proof.Machine

open Sys2Proof

/-- A thermistor reading converted through its table with linear interpolation (R414). Rounding is open (log entry 9). -/
def thermistorTemp (t : Thermistor) (counts : Nat) : Int :=
  let i := min 31 (counts / 128)
  let a := at' t.table i 0
  let b := at' t.table (i + 1) 0
  let d := (b - a) * (counts - 128 * i)
  if 0 ≤ d then a + openDiv d.toNat 128 else a - openDiv d.natAbs 128

/-- The throttle state of a unit over time is counted in whole milliseconds (thermal.status). -/
def countThrottle (u : Nat) (throttled : Bool) (s : State) : State :=
  s.modUnit u fun x =>
    let ms := match x.throttledFrom with
      | some t => (s.time - t).toNat / ticksPerMs
      | none => 0
    { x with throttleMs := x.throttleMs.add ms,
             throttledFrom := if !throttled then none else match x.throttledFrom with
               | some t => some (t + BitVec.ofNat 64 (ms * ticksPerMs))
               | none => some s.time }

/-- The timers of R420 follow a reading: both restart between THROTTLE − HYST and THROTTLE. -/
def throttleTimers (u : Nat) (t : Int) (s : State) : State :=
  s.modUnit u fun x =>
    { x with hotFrom := if x.throttle ≤ t then some (x.hotFrom.getD s.time) else none,
             coolFrom := if t < x.throttle - x.hyst then some (x.coolFrom.getD s.time) else none }

/-- A reading is held for the rate of rise, one per ms over the last 100 ms (R418). -/
def holdReading (u : Nat) (t : Int) (s : State) : State :=
  s.modUnit u fun x =>
    match x.held with
    | (at_, _) :: _ => if (s.time - at_).toNat < ticksPerMs then x else { x with held := ((s.time, t) :: x.held).take 101 }
    | [] => { x with held := [(s.time, t)] }

/-- The rise over the last 100 ms exceeds RATE (R418). -/
def tooFast (s : State) (u : Nat) (t : Int) : Bool :=
  match (s.unit u).held.find? fun p => 100 * ticksPerMs ≤ (s.time - p.1).toNat with
  | some p => ((s.unit u).rate : Int) < 25 * (t - p.2)
  | none => false

/-- The settings of a thermal.unit.config take effect. The 10 ms of R420 that have passed at the old N_MIN bring no fall. -/
def Unit'.configure (x : Unit') (c : UnitConfig) (now : BitVec 64) : Unit' :=
  let whole (t : BitVec 64) : BitVec 64 := now - BitVec.ofNat 64 ((now - t).toNat % (10 * ticksPerMs))
  { x with configured := true, waiting := none, sensors := c.sensors, nMin := c.nMin, k := c.k, warn := c.warn,
           throttle := c.throttle, trip := c.trip, hyst := c.hyst, rate := c.rate, step := max x.step c.nMin,
           hotFrom := if x.step ≤ x.nMin then x.hotFrom.map whole else x.hotFrom }

/-- thermal.unit.config takes effect at the next reading of a sensor that its unit has or is given, of any sensor where it has
none (log entry 105). -/
def configureUnits (i : Nat) (s : State) : State :=
  (List.range 40).foldl (fun s u => match (s.unit u).waiting with
    | some c =>
      let all := (if (s.unit u).configured then (s.unit u).sensors else []) ++ c.sensors
      if all = [] || all.contains i then s.modUnit u fun x => x.configure c s.time else s
    | none => s) s

/-- A reading of a unit counts as one of its privileged channel, a reading of the device unit also as one of each unit that
follows it only (R416, R423). -/
def notePrivileged (u : Nat) (s : State) : State :=
  ((List.range 40).filter fun k => privileged s k && (k = u || (u = 0 && !(s.unit k).configured))).foldl
    (fun s k => s.modUnit k fun x => { x with byProp := true }) s

/-- A unit is compared with its thresholds (R418). -/
def compareUnit (u : Nat) (s : State) : State :=
  let x := s.unit u
  match unitTemp s u with
  | none => s
  | some t =>
    let broken := unitBroken s u
    let s := if x.warned then (if t < x.warn - x.hyst then s.modUnit u fun x => { x with warned := false } else s)
      else if x.warn ≤ t then present 0x0220 (some u) 0 (s.modUnit u fun x => { x with warned := true })
      else s
    let s := notePrivileged u (s.modUnit u fun x => { x with prop := propFactor x.k x.throttle t })
    let s := throttleTimers u t (countThrottle u (x.throttle ≤ t) s)
    let fast := !broken && tooFast s u t
    let s := if broken then s else holdReading u t s
    if x.tripped then s
    else if broken || x.trip ≤ t then tripUnit u 0x0222 s
    else if fast then tripUnit u 0x0223 s
    else s

/-- A sensor takes a new reading, or becomes broken, and its units are compared (R412, R418). -/
def takeReading (i : Nat) (value : Int) (broken : Bool) (s : State) : State :=
  let old := s.sensor i
  let v := old.forced.getD value
  let b := old.forced.isNone && broken
  let s := { s with therm := { s.therm with sensors := modAt s.therm.sensors i fun x => { x with value := v, broken := b } } }
  let s := if b && !old.broken then present 0x0224 (some i) 0 s else s
  let s := if i < 16 && s.otp.burn.isSome && !(otpWindow s) then { s with otp := { s.otp with windowLeft := true } } else s
  let s := configureUnits i s
  let s := ((List.range 40).filter fun u => (s.unit u).configured && (s.unit u).sensors.contains i).foldl
    (fun s u => compareUnit u s) s
  factorsChanged (clearTrips s)

/-- SENSOR_READING (R411, R412, R414, R418): an on-die value in 0.25 °C, where 1,020 or more is outside the plausible
range; a driver temperature in 0.5 °C; thermistor counts. -/
def execSensorReading (sensor : Nat) (value : Int) (s : State) : Out :=
  if sensor < 16 then .next (takeReading sensor value (1020 ≤ value) s)
  else if sensor < 40 then .next (if sensorAbsent s sensor then s else takeReading sensor (2 * value) false s)
  else if sensor < 72 then
    let t := at' s.therm.thermistors (sensor - 40) {}
    .next (takeReading sensor (thermistorTemp t value.toNat) (value < t.openMin || (t.shortMax : Int) < value) s)
  else .next s

/-- SENSOR_CONVERSION_TIMEOUT (R412): an on-die conversion not complete within 100 µs. -/
def execSensorConversionTimeout (sensor : Nat) (s : State) : Out :=
  .next (if sensor < 16 then takeReading sensor 1020 true s else s)

/-- REMOTE_READING_STALE (R412): a remote reading stale for more than 1 ms on a version 2 link that is UP (log entry 4). -/
def execRemoteReadingStale (sensor : Nat) (s : State) : Out :=
  if !(16 ≤ sensor && sensor < 40) || sensorAbsent s sensor then .next s
  else .next (takeReading sensor 1020 true (s.advanceTo ((s.link (sensor - 16)).telemAt.toNat + ticksPerMs + 1)))

/-- THROTTLE_STEP_DOWN (R420): 10 ms at or above THROTTLE (log entry 4). -/
def execThrottleStepDown (unit : Nat) (s : State) : Out :=
  let x := s.unit unit
  match x.hotFrom with
  | some t =>
    if x.configured && x.nMin < x.step && !privileged s unit then
      let due := t + BitVec.ofNat 64 (10 * ticksPerMs)
      .next (factorsChanged ((s.advanceTo due.toNat).modUnit unit fun x => { x with step := x.step - 1, hotFrom := some due }))
    else .next s
  | none => .next s

/-- THROTTLE_STEP_UP (R420): 100 ms below THROTTLE − HYST (log entry 4). -/
def execThrottleStepUp (unit : Nat) (s : State) : Out :=
  let x := s.unit unit
  match x.coolFrom with
  | some t =>
    if x.configured && x.step < 16 && !privileged s unit then
      let due := t + BitVec.ofNat 64 (100 * ticksPerMs)
      .next (factorsChanged ((s.advanceTo due.toNat).modUnit unit fun x => { x with step := x.step + 1, coolFrom := some due }))
    else .next s
  | none => .next s

/-! ### Commands -/

/-- thermal.unit.config (0x1101). It takes effect at the next reading (log entry 105). -/
def execThermalUnitConfig (rq : Req) (s : State) : Out :=
  let u := rq.u8 0
  let n := rq.u8 1
  let named := ((List.range 8).map fun k => rq.u8 (4 + k)).take n |>.filter (· ≠ 0xFF)
  let sensors := if u = 0 then List.range 16 else named
  let others := named.any fun i => 16 ≤ i
  let warn := rq.i16 12
  let throttle := rq.i16 14
  let trip := rq.i16 16
  let bad := 8 < n || rq.u8 2 < 1 || 16 < rq.u8 2 || !(warn < throttle && throttle < trip) ||
    (u ≠ 0 && sensors.any fun i => i < 16) || (u = 0 && others) || (sensors.any fun i => 72 ≤ i) || (u = 0 && 520 < trip) ||
    rq.u8 18 < 4 || 80 < rq.u8 18 || rq.u16 20 < 10 || 5000 < rq.u16 20
  command 0x1101 rq
    [(!unitExists s u, Status.outOfRange), (bad, Status.badValue), (unitActive s u, Status.state)]
    (fun s => respond rq 0x1101 Status.ok [] (s.modUnit u fun x =>
      { x with waiting := some
                 { sensors := sensors, nMin := rq.u8 2, k := rq.u8 3, warn := warn, throttle := throttle, trip := trip,
                   hyst := rq.u8 18, rate := rq.u16 20 } })) s

/-- thermal.thermistor.config (0x1102). -/
def execThermalThermistorConfig (rq : Req) (s : State) : Out :=
  let a := rq.u8 0
  command 0x1102 rq [(32 ≤ a, Status.outOfRange), (rq.u16 4 < rq.u16 2 || 4095 < rq.u16 4, Status.badValue)]
    (fun s => respond rq 0x1102 Status.ok []
      { s with therm := { s.therm with thermistors := modAt s.therm.thermistors a fun _ =>
        { openMin := rq.u16 2, shortMax := rq.u16 4, table := (List.range 33).map fun i => rq.i16 (8 + 2 * i) } } }) s

/-- thermal.status (0x1103). -/
def execThermalStatus (rq : Req) (s : State) : Out :=
  let u := rq.u8 0
  let x := s.unit u
  let t := (unitTemp s u).getD 0
  let st := if x.tripped then 3 else if x.configured && x.throttle ≤ t then 2 else if x.warned then 1 else 0
  let hottest := ((presentSensors s u).find? fun i => (s.sensor i).read = t).getD 0xFF
  command 0x1103 rq [(!unitExists s u, Status.outOfRange)]
    (fun s => respond rq 0x1103 Status.ok
      (leBytesI 2 t ++ leBytes 1 st ++ leBytes 1 x.step ++ leBytes 2 (factorInForce s u) ++ leBytes 1 hottest ++
       leBytes 1 (ofBits [privileged s u, unitBroken s u, x.sensors.any (sensorAbsent s)]) ++ x.throttleMs.bytes ++
       x.trips.bytes) s) s

/-- thermal.sensor.force (0x1180): from the sensor's next reading on, until released. -/
def execThermalSensorForce (rq : Req) (s : State) : Out :=
  let i := rq.u8 0
  let active := (List.range 4).any (pageActive s) || layerActive s
  command 0x1180 rq [(72 ≤ i, Status.outOfRange), (active, Status.state)]
    (fun s => respond rq 0x1180 Status.ok []
      { s with therm := { s.therm with sensors := modAt s.therm.sensors i fun x =>
        { x with forced := if rq.u8 1 = 0 then none else some (rq.i16 2) } } }) s

end Sys2Proof.Machine
end

