-- ==== Sys2Proof/Machine/Links.lean ====
section
/-!
DEFINITION. Beam links (spec/04_lanes_and_links.md): training, the back-channel, gates and releases, nSTOP, control words
sent by the clock, and the commands of group 0x03.
-/
namespace Sys2Proof.Machine

open Sys2Proof

def Status.linkDown : Nat := 0x8301
def Status.linkInUse : Nat := 0x8302

/-! ### Training and the back-channel -/

/-- COMMA_LOCK (R129): the receiver is locked to commas and CAP is sent. -/
def execCommaLock (link : Nat) (s : State) : Out :=
  let x := s.link link
  if link < s.nLinks && x.st = .training && x.step = 1 then
    let s := s.modLink link fun x => { x with step := 3 }
    .next (sendCtl link 1 (3 * 2 ^ 32 + link * 2 ^ 24 + s.deviceNo * 2 ^ 8) s)
  else .next s

/-- The highest version set in the offer, in the reply and not above BLP_MAX (R129); 0 if none. -/
def commonVersion (offer blpMax : Nat) : Nat :=
  if offer.testBit 1 && 2 ≤ blpMax then 2 else if offer.testBit 0 then 1 else 0

/-- CAP_REPLY_RECEIVE (R127, R129, R130, R141): the version is chosen and VERSION_SET is sent. -/
def execCapReplyReceive (link : Nat) (payload : List Byte) (s : State) : Out :=
  let x := s.link link
  if !(link < s.nLinks && x.st = .training && x.step = 3) then .next s
  else
    let buf := leAt payload 1 2
    let v := commonVersion (leAt payload 0 1) x.blpMax
    if buf < 512 then .next (trainFail link (linkViolation link 0x05 0x01 s))
    else
      let s := s.modLink link fun x =>
        { x with bufDepth := buf, partnerDelay := leAt payload 3 2, turnaround := leAt payload 5 2 }
      if v = 0 then
        let s := linkViolation link 0x04 0x01 (s.modLink link fun x => { x with retries := 3 })
        .next (trainFail link s)
      else .next (sendCtl link 5 (v * 2 ^ 32) (s.modLink link fun x => { x with version := v, step := 4 }))

/-- The 16 DELAY_PROBE words of step 5, 1 µs apart (R129). -/
def sendProbes (l : Nat) (s : State) : State :=
  (List.range 16).foldl (fun s k => sendCtl l 6 ((s.time.toNat + 1600 * k) % 2 ^ 40) s) s

/-- ACK_RECEIVE (R127, R129, R141): the word is acknowledged; an ACK for a word not sent is a violation. -/
def execAckReceive (link : Nat) (ctype : BitVec 8) (payload : BitVec 40) (s : State) : Out :=
  let x := s.link link
  if s.nLinks ≤ link || x.deaf then .next s
  else if !x.ackWait.contains (ctype, payload) then .next (linkViolation link 0x07 ctype.toNat s)
  else
    let s := s.modLink link fun x => { x with ackWait := x.ackWait.erase (ctype, payload) }
    if ctype = 5 && x.st = .training && x.step = 4 then
      if x.version = 2 then .next (sendProbes link (s.modLink link fun x => { x with step := 5 }))
      else .next (finishTraining link s)
    else .next s

/-- PROBE_ECHO_RECEIVE (R129, R131): after 16 echoes L and D are computed and the link comes UP. `roundTrip` is in
sub-ticks, the device's own latencies removed. Version 1, once chosen, allows no echo (R141). -/
def execProbeEchoReceive (link : Nat) (payload : BitVec 40) (roundTrip : Nat) (s : State) : Out :=
  let x := s.link link
  if s.nLinks ≤ link || x.deaf then .next s
  else if x.version = 1 then .next (linkViolation link 0x09 0x04 s)
  else if !(x.st = .training && x.step = 5) then .next s
  else if !(x.tx.any fun b => b.1 && b.2.toNat / 2 ^ 16 = 6 * 2 ^ 40 + payload.toNat) then .next s
  else
    let probes := x.probes ++ [roundTrip]
    let s := s.modLink link fun x => { x with probes := probes }
    if probes.length < 16 then .next s
    else
      let l := openDivI ((probes.sum : Int) - 16 * x.turnaround) 32
      .next (finishTraining link (s.modLink link fun x => { x with oneWay := l }))

/-- TELEMETRY_RECEIVE (R127, R128, R139, R141): the values are kept and passed to Delta, to thermal supervision and to
Strait. Version 1, once chosen, allows no telemetry; a DEGRADED link ignores it. -/
def execTelemetryReceive (link : Nat) (payload : List Byte) (s : State) : Out :=
  let x := s.link link
  if s.nLinks ≤ link || x.deaf then .next s
  else if x.version = 1 then .next (linkViolation link 0x09 0x03 s)
  else if x.st ≠ .up then .next s
  else
    let late := leAt payload 12 2
    let s := s.modLink link fun x =>
      { x with monitors := (List.range 8).map fun k => leAt payload k 1, emitOk := BitVec.ofNat 8 (leAt payload 8 1),
               temp := some (leAtI payload 10 2), headerErrors := leAt payload 14 2, telemAt := s.time, telemMiss := 0 }
    let s := if late = 0 then s else reportLate link late 0x03 s
    let s := telemetryHead link (telemetryBeams link s)
    let s := s.modLink link fun x => { x with lanes := x.lanes.map fun t => { t with lit := false } }
    .next (takeReading (16 + link) (2 * leAtI payload 10 2) false s)

/-- STATUS_RECEIVE (R127, R140, R141): partner fault, late events, forward lock lost, which takes down a link that is UP
or DEGRADED (log entry 36). -/
def execStatusReceive (link : Nat) (bits : Byte) (s : State) : Out :=
  let x := s.link link
  if s.nLinks ≤ link || x.deaf then .next s
  else
    let s := if bits.getLsbD 1 then present 0x0064 (some link) 0 (linkViolation link 0x0C 0x05 s) else s
    let s := if bits.getLsbD 2 then reportLate link 1 0x05 s else s
    if bits.getLsbD 0 then
      .next (linkDown link (linkViolation link 0x0A 0x05 s))
    else .next s

/-- BACKCHANNEL_CODE_ERROR (R139, R141): no message, so DETAIL bits 7:0 are 0 (log entry 99). -/
def execBackchannelCodeError (link : Nat) (s : State) : Out :=
  .next (if s.nLinks ≤ link || (s.link link).deaf then s else linkViolation link 0x03 0 s)

/-- BACKCHANNEL_BAD_MESSAGE (R141): discarded and counted. -/
def execBackchannelBadMessage (link : Nat) (kind : BadMessage) (type : Byte) (s : State) : Out :=
  let code := match kind with
    | .crc => 0x01
    | .unknownType => 0x02
    | .notAllowed => 0x09
  .next (if s.nLinks ≤ link || (s.link link).deaf then s else linkViolation link code type.toNat s)

/-- RESYNC_RELOCK (R139). -/
def execResyncRelock (link : Nat) (s : State) : Out := .next (s.modLink link fun x => { x with resyncing := false })

/-- ACK_TIMEOUT (R141): the word that waits longest for its ACK is sent again, and counts. -/
def execAckTimeout (link : Nat) (s : State) : Out :=
  match (s.link link).ackWait with
  | [] => .next s
  | (c, p) :: rest =>
    if s.nLinks ≤ link then .next s
    else
      let s := s.modLink link fun x => { x with ackWait := rest ++ [(c, p)] }
      .next (linkViolation link 0x06 c.toNat (sendBlock link true (ctlWord c.toNat p.toNat) s))

/-- CAP_REPLY_TIMEOUT (R129, R141): no CAP reply within 10 µs. -/
def execCapReplyTimeout (link : Nat) (s : State) : Out :=
  let x := s.link link
  .next (if link < s.nLinks && x.st = .training && x.step = 3 then trainFail link (linkViolation link 0x05 0x01 s) else s)

/-- TELEMETRY_TIMEOUT (R128, R141; log entry 4): three more telemetry periods of 20 µs without TELEMETRY on a version 2 link
that is UP. -/
def execTelemetryTimeout (link : Nat) (s : State) : Out :=
  let x := s.link link
  if link < s.nLinks && x.st = .up && x.version = 2 then
    let s := s.advanceTo (x.telemAt.toNat + 96000 * (x.telemMiss + 1))
    .next (linkViolation link 0x08 0x03 (s.modLink link fun x => { x with temp := none, telemMiss := x.telemMiss + 1 }))
  else .next s

/-- COMMA_LOSS_TIMEOUT (R140): no comma for 10 µs. -/
def execCommaLossTimeout (link : Nat) (s : State) : Out := .next (if link < s.nLinks then linkDown link s else s)

/-- LINK_TRAIN_DEADLINE (R129): a step is not done after 1 ms. -/
def execLinkTrainDeadline (link : Nat) (s : State) : Out :=
  .next (if link < s.nLinks && (s.link link).st = .training then trainFail link s else s)

/-- LINK_RETRAIN_TIMER (R140): the firmware retrains a link that went down, up to 3 attempts. -/
def execLinkRetrainTimer (link : Nat) (s : State) : Out :=
  let x := s.link link
  if link < s.nLinks && x.st = .down && x.retrainWait && x.retries < 3 && x.enabled then
    .next (startTraining link none (s.modLink link fun x => { x with retries := x.retries + 1 }))
  else .next s

/-- VIOLATION_WINDOW_START (R139; log entry 4): at a whole millisecond of device time the window count of every link
restarts, unless it is of this window already. -/
def execViolationWindowStart (s : State) : Out :=
  let s := s.advanceTo (ceilDiv s.time.toNat ticksPerMs * ticksPerMs)
  let win := s.time.toNat / ticksPerMs
  let restart (x : Link) : Link := { x with win := win, winCount := if x.win = win then x.winCount else 0 }
  .next { s with links := s.links.map restart }

/-! ### Words sent by the clock (R124, R134) -/

/-- The transmitter of a link sends control words: it runs and is not disabled. -/
def Link.talks (x : Link) : Bool := x.enabled && x.txFrom.isSome

/-- TIMESYNC_SEND (R123, R124). -/
def execTimesyncSend (link : Nat) (s : State) : Out :=
  .next (if (s.link link).talks then sendCtl link 2 (s.time.toNat % 2 ^ 40) s else s)

/-- KEEPALIVE_SEND (R124). -/
def execKeepaliveSend (link : Nat) (s : State) : Out := .next (if (s.link link).talks then sendCtl link 7 0 s else s)

/-- GATE_WORD_REPEAT (R134): a gated link repeats its GATE word. -/
def execGateWordRepeat (link : Nat) (s : State) : Out :=
  .next (if (s.link link).talks && (s.link link).gated then sendGate link s else s)

/-! ### nSTOP (R135, R523) -/

/-- A pulse of nSTOP of a width in ns is taken: always from 8 ns, never below 3 ns, in between left open (R523). -/
def nstopTaken (widthNs : Nat) (s : State) : Bool × State :=
  if 8 ≤ widthNs then (true, s)
  else if widthNs < 3 then (false, s)
  else (Config.freeNat s.free % 2 = 1, { s with free := s.free + 1 })

/-- NSTOP_FALL (R135): cause 0 on all links. -/
def execNstopFall (widthNs : Nat) (s : State) : Out :=
  let r := nstopTaken widthNs s
  if r.1 then .next (present 0x0066 none 0 (setCause 0 (List.range s.nLinks) { r.2 with nStop := false })) else .next r.2

/-- NSTOP_RISE (R135): cause 0 clears; no lane opens by it. -/
def execNstopRise (widthNs : Nat) (s : State) : Out :=
  let r := nstopTaken widthNs s
  if r.1 then .next (clearCause 0 (List.range s.nLinks) { r.2 with nStop := true }) else .next r.2

/-- GATE_RELEASE_AT (R138): device time reaches the release time of a link whose release still holds (log entry 4). -/
def execGateReleaseAt (link : Nat) (s : State) : Out :=
  let x := s.link link
  match x.releaseAt with
  | some r =>
    .next (if x.causes = 0 then (s.advanceTo r.toNat).modLink link fun x => { x with opened := true } else s)
  | none => .next s

/-! ### Commands -/

/-- The gate causes that a station's links take from it (R133): cause 2 of an active role input of the station, cause 4 of
its tripped thermal unit, and cause 5 of its pixel clock. Cause 2 leaves the links that no role holds any more. -/
def stationCauses (i : Nat) (s : State) : State :=
  let ls := (s.station i).links
  let s := if s.clk.synthGate.getLsbD i then setCause 5 ls s else s
  let s := if (s.unit (i + 1)).tripped then setCause 4 ls s else s
  roleUngate (setCause 2 (ls.filter fun l => roleHolds s l) s)

/-- lane.map (R116, R117). A link that leaves the station has no events left. -/
def execLaneMap (rq : Req) (s : State) : Out :=
  let i := rq.u8 0
  let n := rq.u8 1
  let ls := (rq.bytes 4 (min n 6)).map (·.toNat)
  let others := (List.range 4).filter (· ≠ i)
  let taken := ls.any fun l => others.any fun k => (s.station k).links.contains l
  commandOf .press 0x0301 rq
    [(3 < i || ls.any (s.nLinks ≤ ·), Status.outOfRange),
     (6 < n || taken || ls.eraseDups.length ≠ ls.length, Status.badValue), (pageActive s i, Status.state)]
    (fun s =>
      let gone := (s.station i).links.filter fun l => !ls.contains l
      let s := gone.foldl (fun s l => s.modLink l (Link.keepEvents fun _ _ => false)) s
      let was := deltaExhausted (s.station i)
      let s := emptyStation i (s.modStation i fun st => { st with links := ls, sweeps := if ls = st.links then st.sweeps else [] })
      let s := clockUngate s
      let s := stationCauses i (noteExhausted i was s)
      respond rq 0x0301 Status.ok (leBytes 2 (8 * ls.length) ++ zeros 2) s) s

/-- link.config (R125, R129, R131, R132, R139, R466). With ENABLE 0 a link in training posts its completion FAILED, without
LNK_TRAIN_FAIL (log entry 73); a DEGRADED link stays DEGRADED, for only ENABLE 1 takes it out of that state (R139). -/
def execLinkConfig (rq : Req) (s : State) : Out :=
  let l := rq.u8 0
  let x := s.link l
  let lead := if rq.u8 3 = 0 then 20 else rq.u8 3
  let trim := rq.i16 4
  let d := x.compensation trim x.dOverride
  let on := rq.u8 1 = 1
  let starts := on && (x.st = .off || x.st = .down || x.st = .degraded)
  command 0x0302 rq
    [(s.nLinks ≤ l, Status.outOfRange),
     (1 < rq.u8 1 || rq.u8 2 < 1 || 2 < rq.u8 2 || lead < 10 || 80 < lead ||
      (x.st = .up && !(dOk d && leadOk lead x.bufDepth)), Status.badValue),
     ((fenced s 0x0062 l && on) || fenced s 0x0063 l, Status.fenced), (linkActive s l, Status.linkInUse)]
    (fun s =>
      let s := txStart l (s.modLink l fun x =>
        { x with blpMax := rq.u8 2, lead := lead, trim := trim, d := if x.st = .up then d else x.d })
      if starts then
        accept rq 0x0302 [] (startTraining l (some (rq.ctx s 0x0302)) (s.modLink l fun x => { x with retries := 0 }))
      else if on then respond rq 0x0302 Status.ok [] s
      else
        let c := x.ctx
        let s := setCause 6 [l] (if x.st = .up then remoteAbsent l s else s)
        let s := s.modLink l fun x =>
          { x with st := if x.st = .degraded then .degraded else .off, enabled := false,
                   version := if x.st = .degraded then x.version else 0, step := 0, ctx := none, ackWait := [],
                   retrainWait := false, temp := none, resyncing := false }
        let s := respond rq 0x0302 Status.ok [] s
        match c with
        | some c => complete c Status.failed (linkPayload (s.link l)) s
        | none => s) s

/-- BLOCKS_TX: one block per 4.125 ns, 6.6 ticks, since the transmitter began (R119). -/
def blocksTx (s : State) (l : Nat) : Nat := match (s.link l).txFrom with
  | some t => (s.time - t).toNat * 10 / 66
  | none => 0

/-- TEMP of link.status: 0x8000 if none or stale (R139, R141). -/
def linkTemp (x : Link) : Nat := match x.temp with
  | some t => if x.resyncing || x.st ≠ .up then 0x8000 else pattern 16 t
  | none => 0x8000

/-- link.status (R133, R139). -/
def execLinkStatus (rq : Req) (s : State) : Out :=
  let l := rq.u8 0
  let x := s.link l
  command 0x0303 rq [(s.nLinks ≤ l, Status.outOfRange)]
    (respond rq 0x0303 Status.ok
      (leBytes 1 (linkStateCode x.st) ++ leBytes 1 x.version ++ leBytes 1 x.causeBits ++
       leBytes 1 (if x.version = 2 then x.emitOk.toNat else 0xFF) ++ leBytesI 4 x.d ++ leBytes 8 (blocksTx s l) ++
       x.violations.bytes ++ x.resyncs.bytes ++ x.txLate.bytes ++ x.partnerLate.bytes ++ x.linkDowns.bytes ++
       leBytes 2 (linkTemp x) ++ zeros 2)) s

/-- The links a LINK_MASK names, 0 for all. -/
def maskLinks (s : State) (mask : Nat) : List Nat := if mask = 0 then List.range s.nLinks else maskBits 32 mask

/-- lane.gate.release (R40, R138): the named links on which no cause is set take one release time. -/
def execLaneGateRelease (rq : Req) (s : State) : Out :=
  let ls := maskLinks s (rq.u32 0)
  let soonest := s.time.toNat + (ls.map fun l => (s.link l).lead * 160).foldl max 0
  let at_ := if rq.u64 8 = 0 then soonest else rq.u64 8
  let open_ := ls.filter fun l => (s.link l).releasePending
  let still := ls.filter fun l => (s.link l).causes ≠ 0
  command 0x0304 rq
    [(ls.any (s.nLinks ≤ ·), Status.outOfRange), (at_ < soonest || s.time.toNat + 2 ^ 32 < at_, Status.badValue)]
    (fun s =>
      let s := open_.foldl (fun s l =>
        sendUngate l at_ (s.modLink l fun x => { x with releaseAt := some (BitVec.ofNat 64 at_), opened := false })) s
      respond rq 0x0304 Status.ok (leBytes 4 (maskOf open_) ++ leBytes 4 (maskOf still) ++ leBytes 8 at_) s) s

/-- link.config.raw (R131, R132). -/
def execLinkConfigRaw (rq : Req) (s : State) : Out :=
  let l := rq.u8 0
  let x := s.link l
  let given := if rq.u32 4 = 0xFFFFFFFF then none else some (rq.u32 4)
  let d := x.compensation x.trim given
  command 0x0380 rq
    [(s.nLinks ≤ l, Status.outOfRange),
     (15 < rq.u8 1 || 15 < rq.u8 2 || (given.isSome && 1048575 < rq.u32 4) || (x.st = .up && !dOk d), Status.badValue),
     (linkActive s l, Status.linkInUse)]
    (fun s => respond rq 0x0380 Status.ok [] (s.modLink l fun x =>
      { x with rawNext := some (rq.u8 1, rq.u8 2), dOverride := given, d := if x.alive then d else x.d })) s

end Sys2Proof.Machine
end

