-- ==== Sys2Proof/Machine/Commands.lean ====
section
/-!
DEFINITION. The command codes of MCI (R58, R59, R68): which exist, which the VM48-compatible subset of major 2 serves, and
which of these are limited to station 0, synthesiser 0 or motor 0.
-/
namespace Sys2Proof.Machine

open Sys2Proof

/-- The low bytes of the codes of a group, from the chapters' command sections. -/
def groupCodes (g : Nat) : List Nat :=
  match g with
  | 0x00 => [0x00, 0x01, 0x02, 0x03, 0x04, 0x05, 0x06]
  | 0x01 => [0x00, 0x01, 0x02]
  | 0x02 => [0x01, 0x02, 0x03, 0x80]
  | 0x03 => [0x01, 0x02, 0x03, 0x04, 0x80]
  | 0x04 => [0x01, 0x02, 0x80]
  | 0x05 => [0x01, 0x02, 0x03, 0x04, 0x05, 0x06, 0x07, 0x80]
  | 0x06 => [0x01, 0x02, 0x03, 0x04, 0x05, 0x06, 0x80]
  | 0x07 => [0x01, 0x02, 0x03, 0x04, 0x05, 0x06, 0x07, 0x08, 0x80]
  | 0x08 => [0x01, 0x02, 0x03, 0x04, 0x05, 0x06, 0x07, 0x80]
  | 0x09 => [0x01, 0x02, 0x03, 0x04, 0x05, 0x06, 0x07, 0x08, 0x80, 0x81]
  | 0x0A => [0x01, 0x02, 0x03, 0x04, 0x80]
  | 0x0B => [0x01, 0x02, 0x03, 0x04, 0x05, 0x06, 0x07, 0x80, 0x81, 0x82]
  | 0x0C => [0x01, 0x02, 0x03, 0x04, 0x80]
  | 0x0D => [0x01, 0x02, 0x03, 0x04, 0x80]
  | 0x0E => [0x01, 0x02, 0x03, 0x04, 0x05, 0x06, 0x80]
  | 0x0F => [0x01, 0x02, 0x03, 0x04, 0x05, 0x80]
  | 0x10 => [0x01, 0x02, 0x03, 0x80]
  | 0x11 => [0x01, 0x02, 0x03, 0x80]
  | 0x12 => [0x01, 0x02, 0x03, 0x04, 0x05, 0x06, 0x07, 0x80]
  | 0x13 => [0x01, 0x02, 0x03, 0x80]
  | 0x14 => [0x01, 0x02, 0x03, 0x04, 0x05, 0x06, 0x80]
  | 0x15 => [0x01, 0x02, 0x03, 0x04, 0x05, 0x06, 0x07, 0x80]
  | 0x16 => [0x01, 0x02, 0x03]
  | 0x17 => [0x01, 0x02]
  | _ => []

/-- The low bytes of the codes of a group that are served under major 2 (R58). -/
def groupCodes2 (g : Nat) : List Nat :=
  match g with
  | 0x00 => [0x00, 0x01, 0x02, 0x03, 0x04, 0x05, 0x06]
  | 0x01 => [0x00, 0x01, 0x02]
  | 0x02 => [0x01, 0x02]
  | 0x03 => [0x01, 0x03]
  | 0x04 => [0x01, 0x02]
  | 0x05 => [0x01, 0x02, 0x03]
  | 0x06 => [0x02, 0x03]
  | 0x09 => [0x02, 0x04, 0x06]
  | 0x0A => [0x03, 0x04]
  | 0x0C => [0x01, 0x02, 0x03]
  | 0x0E => [0x01, 0x03, 0x05, 0x06]
  | 0x0F => [0x01, 0x02, 0x03, 0x05]
  | 0x10 => [0x01, 0x03]
  | 0x11 => [0x03]
  | 0x12 => [0x05]
  | 0x14 => [0x01, 0x04]
  | 0x15 => [0x01, 0x02]
  | 0x16 => [0x01, 0x02]
  | 0x17 => [0x01]
  | _ => []

/-- A code that exists in a major (R58, R68). -/
def codeExists (major code : Nat) : Bool :=
  (if major = 2 then groupCodes2 (code / 256) else groupCodes (code / 256)).contains (code % 256)

/-- An expert code (R59). -/
def isExpert (code : Nat) : Bool := 128 ≤ code % 256

/-- The personality of a group (R68). -/
def groupPersonality (code : Nat) : Personality :=
  let g := code / 256
  if g = 5 ∨ g = 6 then .press else if g = 7 ∨ g = 8 then .forge else .none

/-- Under major 2, a request that names a station, synthesiser or motor other than 0 (R58). STATION_MASK 0 of
press.page.abort, which stands for every station, names none (log entry 62). A SCOPE of runahead.config or
runahead.status other than 0 names no station. -/
def namesOther (code : Nat) (rq : Req) : Bool :=
  if [0x0301, 0x0501, 0x0502, 0x0503, 0x0602, 0x0E01, 0x0E03, 0x0E06, 0x1001].contains code then rq.u8 0 ≠ 0
  else if code = 0x0401 ∨ code = 0x0402 then rq.u8 0 = 0 && rq.u8 1 ≠ 0
  else if code = 0x0603 then 2 ≤ rq.u8 4
  else if code = 0x0E05 then 2 ≤ rq.u8 0
  else false

end Sys2Proof.Machine
end

