-- ==== Sys2Proof/Machine/Crypto.lean ====
section
/-!
DEFINITION. SHA-256 and the verification of ECDSA P-256 signatures, which R479, R483, R496 and R497 name and do not
define (PRESUMED, log entry 53: FIPS 180-4 and FIPS 186-4).
-/
namespace Sys2Proof

/-! ### SHA-256 -/

/-- The round constants, by eight. -/
def shaK1 : List Nat := [0x428a2f98, 0x71374491, 0xb5c0fbcf, 0xe9b5dba5, 0x3956c25b, 0x59f111f1, 0x923f82a4, 0xab1c5ed5]
def shaK2 : List Nat := [0xd807aa98, 0x12835b01, 0x243185be, 0x550c7dc3, 0x72be5d74, 0x80deb1fe, 0x9bdc06a7, 0xc19bf174]
def shaK3 : List Nat := [0xe49b69c1, 0xefbe4786, 0x0fc19dc6, 0x240ca1cc, 0x2de92c6f, 0x4a7484aa, 0x5cb0a9dc, 0x76f988da]
def shaK4 : List Nat := [0x983e5152, 0xa831c66d, 0xb00327c8, 0xbf597fc7, 0xc6e00bf3, 0xd5a79147, 0x06ca6351, 0x14292967]
def shaK5 : List Nat := [0x27b70a85, 0x2e1b2138, 0x4d2c6dfc, 0x53380d13, 0x650a7354, 0x766a0abb, 0x81c2c92e, 0x92722c85]
def shaK6 : List Nat := [0xa2bfe8a1, 0xa81a664b, 0xc24b8b70, 0xc76c51a3, 0xd192e819, 0xd6990624, 0xf40e3585, 0x106aa070]
def shaK7 : List Nat := [0x19a4c116, 0x1e376c08, 0x2748774c, 0x34b0bcb5, 0x391c0cb3, 0x4ed8aa4a, 0x5b9cca4f, 0x682e6ff3]
def shaK8 : List Nat := [0x748f82ee, 0x78a5636f, 0x84c87814, 0x8cc70208, 0x90befffa, 0xa4506ceb, 0xbef9a3f7, 0xc67178f2]

def shaK : List (BitVec 32) :=
  (shaK1 ++ shaK2 ++ shaK3 ++ shaK4 ++ shaK5 ++ shaK6 ++ shaK7 ++ shaK8).map fun k => BitVec.ofNat 32 k

/-- The eight working words. -/
structure ShaRegs where
  a : BitVec 32
  b : BitVec 32
  c : BitVec 32
  d : BitVec 32
  e : BitVec 32
  f : BitVec 32
  g : BitVec 32
  h : BitVec 32
  deriving DecidableEq, Repr

def shaInit : ShaRegs :=
  ⟨0x6a09e667, 0xbb67ae85, 0x3c6ef372, 0xa54ff53a, 0x510e527f, 0x9b05688c, 0x1f83d9ab, 0x5be0cd19⟩

/-- One round with its constant and message word. -/
def shaRound (r : ShaRegs) (k w : BitVec 32) : ShaRegs :=
  let t1 := r.h + (r.e.rotateRight 6 ^^^ r.e.rotateRight 11 ^^^ r.e.rotateRight 25) +
    ((r.e &&& r.f) ^^^ (~~~r.e &&& r.g)) + k + w
  let t2 := (r.a.rotateRight 2 ^^^ r.a.rotateRight 13 ^^^ r.a.rotateRight 22) +
    ((r.a &&& r.b) ^^^ (r.a &&& r.c) ^^^ (r.b &&& r.c))
  ⟨t1 + t2, r.a, r.b, r.c, r.d + t1, r.e, r.f, r.g⟩

/-- The next word of the message schedule, from the sixteen before it. -/
def shaNext (w : List (BitVec 32)) : BitVec 32 :=
  let x := at' w 14 0
  let y := at' w 1 0
  (x.rotateRight 17 ^^^ x.rotateRight 19 ^^^ (x >>> 10)) + at' w 9 0 +
    (y.rotateRight 7 ^^^ y.rotateRight 18 ^^^ (y >>> 3)) + at' w 0 0

/-- The rounds of one block, the window of sixteen schedule words sliding along. -/
def shaRounds : List (BitVec 32) → ShaRegs → List (BitVec 32) → ShaRegs
  | [], r, _ => r
  | k :: ks, r, w => shaRounds ks (shaRound r k (at' w 0 0)) (w.drop 1 ++ [shaNext w])

/-- A big-endian number. -/
def ofBe (bs : List Byte) : Nat := bs.foldl (fun v b => 256 * v + b.toNat) 0

/-- The sixteen words of a block. -/
def shaWords (block : List Byte) : List (BitVec 32) :=
  (List.range 16).map fun i => BitVec.ofNat 32 (ofBe ((block.drop (4 * i)).take 4))

def shaBlock (r : ShaRegs) (block : List Byte) : ShaRegs :=
  let q := shaRounds shaK r (shaWords block)
  ⟨r.a + q.a, r.b + q.b, r.c + q.c, r.d + q.d, r.e + q.e, r.f + q.f, r.g + q.g, r.h + q.h⟩

def shaBlocks : Nat → ShaRegs → List Byte → ShaRegs
  | 0, r, _ => r
  | n + 1, r, bs => shaBlocks n (shaBlock r (bs.take 64)) (bs.drop 64)

/-- The message with its padding and its length in bits. -/
def shaPad (bs : List Byte) : List Byte :=
  bs ++ [0x80] ++ List.replicate ((119 - bs.length % 64) % 64) 0 ++ (leBytes 8 (8 * bs.length)).reverse

/-- The hash, 32 bytes, the most significant byte of each word first. -/
def sha256 (bs : List Byte) : List Byte :=
  let p := shaPad bs
  let r := shaBlocks (p.length / 64) shaInit p
  [r.a, r.b, r.c, r.d, r.e, r.f, r.g, r.h].flatMap fun w => (leBytes 4 w.toNat).reverse

/-! ### ECDSA P-256 -/

def p256P : Nat := 0xFFFFFFFF00000001000000000000000000000000FFFFFFFFFFFFFFFFFFFFFFFF
def p256N : Nat := 0xFFFFFFFF00000000FFFFFFFFFFFFFFFFBCE6FAADA7179E84F3B9CAC2FC632551
def p256B : Nat := 0x5AC635D8AA3A93E7B3EBBD55769886BC651D06B0CC53B0F63BCE3C3E27D2604B

/-- A point of the curve; none for infinity. -/
abbrev EcPoint := Option (Nat × Nat)

def p256G : EcPoint :=
  some (0x6B17D1F2E12C4247F8BCE6E563A440F277037D812DEB33A0F4A13945D898C296,
        0x4FE342E2FE1A7F9B8EE7EB4A7C0F9E162BCE33576B315ECECBB6406837BF51F5)

/-- base^e mod m over the low `bits` bits of e. -/
def powMod (m : Nat) : Nat → Nat → Nat → Nat
  | 0, _, _ => 1 % m
  | k + 1, base, e =>
    let r := powMod m k (base * base % m) (e / 2)
    if e % 2 = 1 then r * base % m else r

/-- The inverse modulo a 256-bit prime. -/
def invMod (m a : Nat) : Nat := powMod m 256 (a % m) (m - 2)

/-- The difference modulo m of two reduced numbers. -/
def subMod (m a b : Nat) : Nat := (a + m - b) % m

/-- The third point of the line of slope `l` through two points, mirrored. -/
def ecThird (l x1 y1 x2 : Nat) : EcPoint :=
  let x := subMod p256P (subMod p256P (l * l % p256P) x1) x2
  some (x, subMod p256P (l * subMod p256P x1 x % p256P) y1)

def ecDouble : EcPoint → EcPoint
  | none => none
  | some (x, y) =>
    if y = 0 then none
    else ecThird ((3 * x * x + (p256P - 3)) % p256P * invMod p256P (2 * y) % p256P) x y x

def ecAdd : EcPoint → EcPoint → EcPoint
  | none, q => q
  | p, none => p
  | some (x1, y1), some (x2, y2) =>
    if x1 = x2 then (if y1 = y2 then ecDouble (some (x1, y1)) else none)
    else ecThird (subMod p256P y2 y1 * invMod p256P (subMod p256P x2 x1) % p256P) x1 y1 x2

/-- k·P over the low `bits` bits of k. -/
def ecMul : Nat → Nat → EcPoint → EcPoint
  | 0, _, _ => none
  | bits + 1, k, p =>
    let r := ecMul bits (k / 2) (ecDouble p)
    if k % 2 = 1 then ecAdd r p else r

/-- A point whose coordinates are reduced and satisfy y² = x³ − 3x + b. -/
def onCurve (x y : Nat) : Bool :=
  x < p256P && y < p256P && (y * y) % p256P = (x * x * x + (p256P - 3) * x + p256B) % p256P

/-- A signature r, s over a hash verifies with the public key x, y. -/
def ecdsaVerify (x y r s : Nat) (hash : List Byte) : Bool :=
  if !onCurve x y || r = 0 || s = 0 || p256N ≤ r || p256N ≤ s then false
  else
    let w := invMod p256N s
    match ecAdd (ecMul 256 (ofBe hash * w % p256N) p256G) (ecMul 256 (r * w % p256N) (some (x, y))) with
    | none => false
    | some (v, _) => v % p256N = r

end Sys2Proof
end

