-- ==== Sys2Proof/Machine/OtpOps.lean ====
section
/-!
DEFINITION. The OTP array (spec/22_otp.md): its cells and references, regions, digests, the start-up check, shadow
overrides, the programming of a word, and the image check of R483 and R497.
-/
namespace Sys2Proof.Machine

open Sys2Proof

/-! ### Words (R475 to R477) -/

/-- The physical word of a logical one: a redirected row of the VM96 uses its spare row (R476). -/
def otpPlace (s : State) (w : Nat) : Nat :=
  match s.part with
  | .vm192 => w
  | .vm96 => match s.otp.redirects.findIdx? (· = w / 32) with
    | some i => (64 + i) * 32 + w % 32
    | none => w

/-- The stored word at a physical place; a blank one reads 0 at every reference. -/
def otpCell (s : State) (p : Nat) : OtpWord := (s.otp.words.find? fun c => c.row = p).getD ⟨p, 0, 0, 0, 0, 0, 0⟩

/-- A word read at a reference (0 normal, 1 margin, 2 low) of a copy (0 the OR of both, 1 copy A, 2 copy B) (R477). -/
def OtpWord.read (c : OtpWord) (ref copy : Nat) : BitVec 32 :=
  let a := if ref = 0 then c.normalA else if ref = 1 then c.marginA else c.lowA
  let b := if ref = 0 then c.normalB else if ref = 1 then c.marginB else c.lowB
  if copy = 1 then a else if copy = 2 then b else a ||| b

/-- A logical word at a reference, the OR of its copies (R475). -/
def otpRaw (s : State) (ref w : Nat) : BitVec 32 := (otpCell s (otpPlace s w)).read ref 0

/-- The enabled shadow entries that name a word (R488). -/
def otpEntries (s : State) (w : Nat) : List Nat :=
  (List.range 16).filter fun n => s.otp.en.getLsbD n && (at' s.otp.addr n 0).toNat = w

/-- The shadow entry that replaces a word; where several name it the choice is open (log entry 54). -/
def otpEntry (s : State) (w : Nat) : Option Nat :=
  let es := otpEntries s w
  es[Config.override w % es.length]?

/-- A word as every reader sees it (R477, R488). -/
def otpSeen (s : State) (w : Nat) : BitVec 32 := match otpEntry s w with
  | some n => at' s.otp.data n 0
  | none => otpRaw s 0 w

/-! ### Regions (R478 to R481) -/

def otpBases : List Nat := [0, 256, 288, 352, 384, 512, 1024, 1536, 2048]

def otpBase (r : Nat) : Nat := at' otpBases r 2048

def otpSize (r : Nat) : Nat := otpBase (r + 1) - otpBase r

/-- The region of a word. -/
def otpRegion (w : Nat) : Nat := ((List.range 8).find? fun r => w < otpBase (r + 1)).getD 7

/-- The LOCK word of a region (R479). -/
def otpLockWord (r : Nat) : Nat := otpBase r + otpSize r - 5

/-- Number of 1 bits. -/
def ones (v : BitVec 32) : Nat := ((List.range 32).filter fun k => v.getLsbD k).length

/-- A region is locked when at least 16 bits of its LOCK word read 1 at the normal reference (R480). -/
def otpLocked (s : State) (r : Nat) : Bool := 16 ≤ ones (otpRaw s 0 (otpLockWord r))

/-- LENGTH of a region's HEADER at a reference. -/
def otpLength (s : State) (ref r : Nat) : Nat := (otpRaw s ref (otpBase r)).toNat % 65536

/-- A HEADER with FORMAT 0x01 and a LENGTH in range (R479). -/
def otpHeaderOk (s : State) (ref r : Nat) : Bool :=
  (otpRaw s ref (otpBase r)).toNat / 2 ^ 24 = 1 && 1 ≤ otpLength s ref r && otpLength s ref r ≤ otpSize r - 6

/-- The first 16 bytes of SHA-256 over the header and the data, read at a reference (R479). -/
def otpDigest (s : State) (ref r : Nat) : List Byte :=
  (sha256 ((List.range (otpLength s ref r + 1)).flatMap fun k => leBytes 4 (otpRaw s ref (otpBase r + k)).toNat)).take 16

/-- The bytes of the DIGEST words. -/
def otpDigestHeld (s : State) (ref r : Nat) : List Byte :=
  (List.range 4).flatMap fun k => leBytes 4 (otpRaw s ref (otpLockWord r + 1 + k)).toNat

def otpDigestOk (s : State) (ref r : Nat) : Bool := otpHeaderOk s ref r && otpDigest s ref r = otpDigestHeld s ref r

/-- What the check finds of a region (R480, R481). -/
def otpCheckRegion (s : State) (r : Nat) : RegionState :=
  if otpLocked s r then
    if otpDigestOk s 0 r then .valid else if otpDigestOk s 2 r then .weak else .invalid
  else if (List.range (otpSize r)).all fun k => otpRaw s 0 (otpBase r + k) = 0 then .blank
  else .opened

/-- The state of a region now: a locked one as its last check found it. -/
def otpState (s : State) (r : Nat) : RegionState :=
  if otpLocked s r then at' s.otp.found r .invalid else otpCheckRegion s r

/-! ### What the device takes from the regions (R5, R482) -/

/-- PERMITTED: bit 0 Press, bit 1 Forge; 0 where region 1 is INVALID (R5, R482). -/
def permitted (s : State) : Nat := if otpState s 1 = .invalid then 0 else (otpSeen s 257).toNat % 4

/-- UNIQUE_ID, words 1 and 2; 0 where region 0 is INVALID (R478, R482). -/
def uniqueId (s : State) : List Byte :=
  if otpState s 0 = .invalid then zeros 8 else leBytes 4 (otpSeen s 1).toNat ++ leBytes 4 (otpSeen s 2).toNat

/-- A word as otp.read returns it: the fields that R482 replaces read their fail-safe values in an INVALID region. -/
def otpReadWord (s : State) (w : Nat) : BitVec 32 :=
  let v := otpSeen s w
  if otpState s (otpRegion w) = .invalid then
    if w = 1 ∨ w = 2 then 0 else if w = 257 then v &&& ~~~3#32 else if w = 353 then v ||| 3#32 else v
  else v

/-! ### The start-up check (R481) -/

def otpMargin (s : State) (w : Nat) : Bool := otpRaw s 0 w ≠ otpRaw s 1 w

/-- What the start-up check raises of a region (R490). -/
def otpRegionRaise (s : State) (r : Nat) : Option Nat :=
  match otpCheckRegion s r with
  | .invalid => some 0x02A0
  | .weak => some 0x02A1
  | .valid => none
  | _ => if (otpDigestHeld s 0 r).all (· = 0) then none else some 0x02A4

/-- The start-up check ends: words are flagged WEAK, regions judged, and the boot policy applies (R481, R482, R492). -/
def otpCheck (s : State) : State :=
  let weak := (List.range 2048).filter (otpMargin s)
  let found := (List.range 8).map (otpCheckRegion s)
  let raises := (List.range 8).map (otpRegionRaise s)
  let bad3 : Bool := at' found 3 .blank = .invalid
  let word := otpRaw s 0 353
  let spi := bad3 || word.getLsbD 0
  let push := bad3 || word.getLsbD 1
  let s := { s with otp := { s.otp with weak := weak, found := found, checked := true, spiOff := spi, pushOff := push } }
  let s := weak.foldl (fun s w => present 0x02A2 (some (otpRegion w)) 0 s) s
  let s := (List.range 8).foldl (fun s r => match at' raises r none with
    | some q => present q (some r) 0 s
    | none => s) s
  if at' found 0 .blank = .invalid then present 0x0227 none 0 s else s

/-! ### Programming (R484, R485) -/

/-- A number takes its place in a rising list without repeats. -/
def upsert (n : Nat) : List Nat → List Nat
  | [] => [n]
  | m :: rest => if n < m then n :: m :: rest else if n = m then m :: rest else m :: upsert n rest

/-- The word list with one word replaced, by rising place; a blank word is not listed. -/
def otpInsert (c : OtpWord) : List OtpWord → List OtpWord
  | [] => [c]
  | d :: rest => if c.row < d.row then c :: d :: rest else if c.row = d.row then c :: rest else d :: otpInsert c rest

def OtpWord.isBlank (c : OtpWord) : Bool :=
  (c.normalA ||| c.marginA ||| c.lowA ||| c.normalB ||| c.marginB ||| c.lowB) = 0

/-- New bits go to copy A and copy B so that their OR gains them; which of the two reads each is open (log entry 55). -/
def otpSplit (new f g : BitVec 32) : BitVec 32 × BitVec 32 := (new &&& f, new &&& (~~~f ||| g))

/-- Bits of a word are programmed, after which it reads `normal` and `margin` at those references beside what it read
before; what it reads at the low reference beyond that is open (R475, R484; log entry 55). -/
def otpProgram (w : Nat) (intended normal margin : BitVec 32) (s : State) : State :=
  let c := otpCell s (otpPlace s w)
  let k := s.free
  let free := fun (i : Nat) => BitVec.ofNat 32 (Config.freeNat (k + i))
  let two : Bool := s.part = .vm192
  let f := if two then free 0 else BitVec.allOnes 32
  let g := if two then free 1 else 0
  let n := otpSplit (normal &&& ~~~c.read 0 0) f g
  let nA := c.normalA ||| n.1
  let nB := c.normalB ||| n.2
  let m := margin &&& (nA ||| nB) &&& ~~~c.read 1 0
  let mA := m &&& nA &&& (free 2 ||| ~~~nB)
  let mB := m &&& nB &&& (~~~mA ||| free 3)
  let l := intended &&& free 4
  let d : OtpWord := { c with
    normalA := nA, normalB := nB, marginA := c.marginA ||| mA, marginB := c.marginB ||| mB,
    lowA := c.lowA ||| nA ||| (if two then l &&& f else l), lowB := if two then c.lowB ||| nB ||| (l &&& ~~~f) else c.lowB }
  { s with free := k + 5, otp := { s.otp with words := if d.isBlank then s.otp.words else otpInsert d s.otp.words } }

/-- A reset or supply loss leaves the present word of a burn with any subset of its new bits, each possibly weak, and
ends the burn (R485). -/
def otpInterrupt (burned : BitVec 32) (s : State) : State :=
  match s.otp.burn with
  | none => s
  | some b =>
    let s := match b.todo with
      | [] => s
      | (w, v) :: _ =>
        let part := v &&& burned
        let s := otpProgram w v part (part &&& BitVec.ofNat 32 (Config.freeNat s.free)) { s with free := s.free + 1 }
        s
    { s with otp := { s.otp with burn := none } }

/-- A word is flagged WEAK, or no longer, by its reads at the normal and margin references (R477). -/
def otpFlag (fw : Bool) (w : Nat) (isWeak : Bool) (s : State) : State :=
  let was := s.otp.weak.contains w
  if isWeak then
    let s := { s with otp := { s.otp with weak := upsert w s.otp.weak } }
    if was then s else presentRaise 0x02A2 (some (otpRegion w)) 0 fw false false s
  else { s with otp := { s.otp with weak := s.otp.weak.filter (· ≠ w) } }

/-! ### The image check (R483, R496, R497) -/

/-- A hash of OTP words, 32 bytes. -/
def otpHash (s : State) (w : Nat) : List Byte := (List.range 8).flatMap fun k => leBytes 4 (otpSeen s (w + k)).toNat

/-- The hashes of the keys that may sign an image (R483). -/
def acceptedKeys (s : State) : List (List Byte) :=
  match otpState s 2 with
  | .blank => if otpState s 0 = .invalid then [] else [otpHash s 16]
  | .valid => [otpHash s 289, otpHash s 297].filter fun h => h.any (· ≠ 0)
  | .weak => [otpHash s 289, otpHash s 297].filter fun h => h.any (· ≠ 0)
  | _ => []

/-- The bit of the device in DEVICES (R496). -/
def deviceBit (s : State) : Nat := match s.part with
  | .vm192 => 0
  | .vm96 => 1

/-- An image passes R497; `get` reads bytes of it by offset and number, and it must fit the `room` of its slot or area. -/
def imageOk (s : State) (room : Nat) (get : Nat → Nat → List Byte) : Bool :=
  let b := get 0 192
  let len := leAt b 12 4
  let key := (b.drop 64).take 64
  192 ≤ room && leAt b 0 4 = 0x57464D56 && leAt b 4 2 = 1 && (leAt b 16 4).testBit (deviceBit s) && 1 ≤ len &&
  len ≤ 16777024 && 192 + len ≤ room && (acceptedKeys s).contains (sha256 key) &&
  ecdsaVerify (ofBe (key.take 32)) (ofBe (key.drop 32)) (ofBe ((b.drop 128).take 32)) (ofBe ((b.drop 160).take 32))
    (sha256 (b.take 128)) &&
  sha256 (get 192 len) = (b.drop 32).take 32

end Sys2Proof.Machine
end

