-- ==== Sys2Proof/Machine/MciOps.lean ====
section
/-!
DEFINITION. The command interface (spec/02_mailboxes.md): slots, rings, the checks at consumption, messages, and the BAR0
window.
-/
namespace Sys2Proof.Machine

open Sys2Proof

/-! ### Slots and messages (R42, R50, R51) -/

/-- BAR0 offset of request slot k of mailbox p. -/
def requestSlot (p k : Nat) : Nat := 0x8000 + 0x1000 * p + 0x100 * k

/-- BAR0 offset of reply slot k of mailbox p. -/
def replySlot (p k : Nat) : Nat := 0x8800 + 0x1000 * p + 0x100 * k

def urgentRequestSlot : Nat := 0x0100

def urgentReplySlot : Nat := 0x0140

/-- The bytes of a slot. -/
def State.slotBytes (s : State) (o n : Nat) : List Byte := cellsGet 0 s.mci.slots o n

/-- The VERSION byte of what the device sends: the fixed version, or 0x34 in the urgent mailbox while none is fixed (R63);
elsewhere it is open until a version is fixed (log entry 57). -/
def sentVersion (s : State) (urgent : Bool) : BitVec 8 :=
  if s.mci.inUse ≠ 0 then s.mci.inUse else if urgent then 0x34 else BitVec.ofNat 8 (Config.freeNat s.free)

/-- A message as it is written into a slot (R50, R51). -/
def Msg.bytes (m : Msg) (version : BitVec 8) : List Byte :=
  let b := [version, m.flags] ++ leBytes 2 m.seq.toNat ++ leBytes 2 m.code.toNat ++ leBytes 2 m.payload.length ++
    [m.mailbox, m.session] ++ leBytes 2 m.status.toNat ++ zeros 4 ++ m.payload
  b ++ leBytes 4 (crc32c b).toNat

/-- The fields of a request in a slot (R50). -/
structure Header where
  version : Nat
  seq     : BitVec 16
  code    : Nat
  length  : Nat
  mailbox : Nat
  session : BitVec 8

def headerOf (b : List Byte) : Header :=
  { version := leAt b 0 1, seq := BitVec.ofNat 16 (leAt b 2 2), code := leAt b 4 2, length := leAt b 6 2,
    mailbox := leAt b 8 1, session := BitVec.ofNat 8 (leAt b 9 1) }

/-- LENGTH within its limit and a multiple of 4, and MAILBOX the slot's (R50, R77). -/
def Header.wellFormed (h : Header) (p limit : Nat) : Bool := h.length ≤ limit && h.length % 4 = 0 && h.mailbox = p

/-- The CRC of a request matches (R51). -/
def crcOk (b : List Byte) (length : Nat) : Bool :=
  leAt b (16 + length) 4 = (crc32c (b.take (16 + length))).toNat

/-- A reply to a request that is not executed. -/
def reject (p : Nat) (h : Header) (status : Nat) (payload : List Byte) (s : State) : State :=
  enqueueMsg p { flags := 1, seq := h.seq, code := BitVec.ofNat 16 h.code, mailbox := BitVec.ofNat 8 p, session := 0,
                 status := BitVec.ofNat 16 status, payload := payload, ticket := some (s.box p).consumed } s

/-- A violation of a request (R61, R77): DETAIL is its sequence and its command. -/
def logRequest (p code : Nat) (h : Header) (s : State) : State := logViolation 0 p code (h.code * 65536 + h.seq.toNat) s

/-- A violation of a doorbell, whose DETAIL no rule gives (log entry 57). -/
def logDoorbell (p code : Nat) (s : State) : State :=
  logViolation 0 p code (Config.freeNat s.free) { s with free := s.free + 1 }

/-! ### Consumption (R44, R52 to R60, R77) -/

/-- The commands served in HALTED (R44). -/
def servedHalted (code : Nat) : Bool := code = 0x0000 || code = 0x0001 || code = 0x0003

/-- What becomes of a consumed request. -/
inductive Verdict where
  | dispatch
  | refuse (status violation : Nat) (payload : List Byte) (advance : Bool)   -- violation 0: none
  deriving DecidableEq, Repr

/-- E of a mailbox as the payload of SEQUENCE (R52). -/
def expectedBytes (b : Mailbox) : List Byte := leBytes 2 b.expected.toNat ++ zeros 2

/-- The checks of a request of a mailbox pair after its header and CRC, in order (log entry 57). `ahead` messages
outstanding on the mailbox are newer. -/
def judge (s : State) (b : Mailbox) (h : Header) (payload : List Byte) (ahead : Nat) : Verdict :=
  let major := s.mci.inUse.toNat / 16
  let behind := (b.expected - h.seq).toNat
  let q := groupPersonality h.code
  if h.code = 0 then .dispatch
  else if !b.hello then .refuse Status.notNegotiated 0x0B [] false
  else if h.version ≠ s.mci.inUse.toNat then .refuse Status.version 0x06 [] false
  else if 1 ≤ behind ∧ behind ≤ 64 then .refuse Status.duplicate 0 [] false
  else if behind ≠ 0 then .refuse Status.sequence 0x04 (expectedBytes b) false
  else if 64 < b.outstanding - ahead then .refuse Status.queueFull 0x0C [] true
  else if s.mci.st = .halted ∧ !servedHalted h.code then .refuse Status.state 0 [] true
  else if !codeExists major h.code then .refuse Status.unknownCommand 0x03 [] true
  else if isExpert h.code ∧ b.session ≠ some h.session then .refuse Status.expertRequired 0x05 [] true
  else if q ≠ .none ∧ s.mci.personality ≠ q then .refuse Status.wrongPersonality 0x07 [] true
  else if major = 2 ∧ namesOther h.code ⟨h.mailbox, h.seq, payload⟩ then .refuse Status.outOfRange 0 [] true
  else .dispatch

/-- A request is dispatched: it awaits its execution. -/
def dispatchRequest (p : Nat) (path : Path) (h : Header) (payload : List Byte) (s : State) : State :=
  { s with mci := { s.mci with dispatched := s.mci.dispatched ++
    [{ req := ⟨p, h.seq, payload⟩, code := BitVec.ofNat 16 h.code, session := h.session, time := s.time, path := path,
       ticket := (s.box p).consumed }] } }

/-- A request in slot bytes, whose doorbell came on a path, is checked, and answered or dispatched (R52 to R59, R77). -/
def takeRequest (p : Nat) (path : Path) (slot : List Byte) (s : State) : State :=
  let h := headerOf slot
  let s := s.modBox p fun b =>
    { b with consumed := b.consumed + 1,
             unposted := b.unposted ++ [{ seq := h.seq, from' := s.time, late := false, ticket := b.consumed + 1 }] }
  let payload := (slot.drop 16).take h.length
  let b := s.box p
  let ahead := (b.reqPi - b.reqCi).toNat
  if !h.wellFormed p 236 then logRequest p 0x01 h (reject p h Status.malformed [] s)
  else if !crcOk slot h.length then logRequest p 0x02 h (reject p h Status.crcError [] s)
  else match judge s b h payload ahead with
    | .dispatch =>
      let s := if h.code = 0 then s else s.modBox p fun b => { b with expected := b.expected + 1 }
      dispatchRequest p path h payload s
    | .refuse status violation pay advance =>
      let s := if advance then s.modBox p fun b => { b with expected := b.expected + 1 } else s
      let s := reject p h status pay s
      if violation = 0 then s else logRequest p violation h s

/-- The urgent request in its slot is checked, and answered or dispatched (R63, R64, R77). -/
def takeUrgent (s : State) : State :=
  let slot := s.slotBytes urgentRequestSlot 64
  let h := headerOf slot
  let payload := (slot.drop 16).take h.length
  if !h.wellFormed 255 44 then logRequest 255 0x01 h (reject 255 h Status.malformed [] s)
  else if !crcOk slot h.length then logRequest 255 0x02 h (reject 255 h Status.crcError [] s)
  else if h.code / 256 ≠ 1 || !codeExists 3 h.code then logRequest 255 0x03 h (reject 255 h Status.unknownCommand [] s)
  else dispatchRequest 255 .pcie h payload s

/-! ### Register writes (R14, R42 to R47) -/

/-- The SPI slave is enabled from the end of the OTP check unless SPI_DISABLE is set (R478, R492). -/
def pathOpen (s : State) : Path → Bool
  | .pcie => true
  | .spi => s.otp.checked && !s.otp.spiOff

/-- MBX_REQ_PI_p is written (R46, R47, R49, R77): a doorbell from the unbound path or one more than 8 ahead of REQ_CI is
ignored and logged. A value behind the last one, and not behind REQ_CI, takes the requests beyond it back (log entry
63). -/
def doorbell (path : Path) (p : Nat) (value : BitVec 32) (s : State) : State :=
  let b := s.box p
  let v := value.setWidth 4
  let ahead := (v - b.reqCi).toNat
  if 8 ≤ p then s
  else if b.bound.isSome && b.bound ≠ some path then logDoorbell p 0x09 s
  else if 8 < ahead then logDoorbell p 0x08 s
  else s.modBox p fun b =>
    { b with reqPi := v, path := path, outstanding := b.outstanding + ahead - (b.reqPi - b.reqCi).toNat,
             arrivals := (b.arrivals ++ List.replicate ahead path).take ahead }

/-- The reply ring of a mailbox is full (R46). -/
def replyFull (b : Mailbox) : Bool := (b.rplPi - b.rplCi).toNat = 8

/-- The reply ring of a mailbox has moved: the time for which it is full does not count towards R70. -/
def ringMoved (now : BitVec 64) (b : Mailbox) : Mailbox :=
  match b.fullFrom with
  | none => if replyFull b then { b with fullFrom := some now } else b
  | some t =>
    if replyFull b then b
    else { b with
      fullFrom := none,
      unposted := b.unposted.map fun u => { u with from' := if u.from' ≤ t then u.from' + (now - t) else now } }

/-- MBX_RPL_CI_p is written (R48): the value is taken as written, also beyond RPL_PI or backwards (log entry 96). -/
def replyRead (p : Nat) (value : BitVec 32) (s : State) : State :=
  s.modBox p fun b => ringMoved s.time { b with rplCi := value.setWidth 4 }

/-- MBX_URG_CTRL is written (R63, R65): GO submits the urgent request. In RESET it is ignored; while BUSY it is ignored and
logged; a supervisor core that has stopped does not serve it. -/
def urgentSubmit (value : BitVec 32) (s : State) : State :=
  if !value.getLsbD 0 || s.mci.st = .reset then s
  else if s.mci.urgBusy then logDoorbell 255 0x0A s
  else
    let s := { s with mci := { s.mci with urgBusy := true, urgDone := false } }
    if s.flt.watched then takeUrgent (classGrant 0 s) else s

/-- A vector is unmasked: a pending message is sent and its bit clears (R45). -/
def unmask (v : Nat) (s : State) : State :=
  let m := { s.mci with msix := modAt s.mci.msix v fun e => { e with ctrl := e.ctrl &&& ~~~1#32 } }
  { s with mci := if m.msixOn && !m.funcMask && m.pba.getLsbD v then { m with pba := m.pba &&& ~~~(1#64 <<< v), sent := m.sent ++ [v] } else m }

/-- One word of the MSI-X table is written (R45). -/
def msixWrite (word : Nat) (value : BitVec 32) (s : State) : State :=
  let v := word / 4
  let set (f : MsixEntry → MsixEntry) : State := { s with mci := { s.mci with msix := modAt s.mci.msix v f } }
  if word % 4 = 0 then set fun e => { e with addr := (e.addr >>> 32 <<< 32) ||| value.setWidth 64 }
  else if word % 4 = 1 then set fun e => { e with addr := (value.setWidth 64 <<< 32) ||| (e.addr &&& 0xFFFFFFFF) }
  else if word % 4 = 2 then set fun e => { e with data := value }
  else
    let s := set fun e => { e with ctrl := value }
    if value.getLsbD 0 then s else unmask v s

/-- The MSI-X enable and the Function Mask are set, as bits 15 and 14 of the capability's Message Control (R45; log entry
57): vectors that are pending and no longer masked send their messages. -/
def msixControl (value : BitVec 16) (s : State) : State :=
  let s := { s with mci := { s.mci with msixOn := value.getLsbD 15, funcMask := value.getLsbD 14 } }
  (List.range 64).foldl (fun s v => if (at' s.mci.msix v {}).ctrl.getLsbD 0 then s else unmask v s) s

/-- A whole word of BAR0 below the slots is written (R14, R42, R43): each field by its type. -/
def bar0Word (path : Path) (offset : Nat) (value : BitVec 32) (s : State) : State :=
  if offset = 0x0010 then { s with mci := { s.mci with irq := s.mci.irq &&& ~~~value } }
  else if offset = 0x00C0 then urgentSubmit value s
  else if 0x0040 ≤ offset ∧ offset < 0x00C0 then
    let p := (offset - 0x40) / 16
    if offset % 16 = 0 then doorbell path p value s else if offset % 16 = 12 then replyRead p value s else s
  else if 0x2000 ≤ offset ∧ offset < 0x2400 ∧ path = .pcie then msixWrite ((offset - 0x2000) / 4) value s
  else s

/-- A BAR0 offset lies in a request slot or the urgent request slot (R42, R43). -/
def inRequestSlot (offset : Nat) : Bool :=
  (0x0100 ≤ offset && offset < 0x0140) || (0x8000 ≤ offset && offset < 0x10000 && offset % 0x1000 < 0x800)

/-- The bytes written from an offset on that lie in request slots are stored (R43). -/
def bar0Store : Nat → List Byte → State → State
  | _, [], s => s
  | o, b :: bs, s =>
    bar0Store (o + 1) bs
      (if inRequestSlot o then { s with mci := { s.mci with slots := cellSet 0 s.mci.slots o b } } else s)

/-- Each whole aligned word written outside the slots is written as a register; a part of a register is ignored (R43). -/
def bar0Words (path : Path) : Nat → List Byte → State → State
  | _, [], s => s
  | o, b :: bs, s =>
    bar0Words path (o + 1) bs
      (if !inRequestSlot o && o % 4 = 0 && 3 ≤ bs.length then bar0Word path o (BitVec.ofNat 32 (ofLe (b :: bs.take 3))) s else s)

/-- One write to BAR0: its bytes are in the slots when its registers take effect, over SPI as nCS rises (R43). -/
def bar0Write (path : Path) (o : Nat) (bytes : List Byte) (s : State) : State :=
  bar0Words path o bytes (bar0Store o bytes s)

/-- STATE of MBX_FW_STATE (R44). -/
def DevState.num : DevState → Nat
  | .reset => 0
  | .boot => 1
  | .ready => 2
  | .run => 3
  | .halted => 15

def Personality.num : Personality → Nat
  | .none => 0
  | .press => 1
  | .forge => 2

/-- A ring register of a mailbox pair: REQ_PI, REQ_CI, RPL_PI, RPL_CI (R46). -/
def ringWord (b : Mailbox) (k : Nat) : Nat :=
  (if k = 0 then b.reqPi else if k = 1 then b.reqCi else if k = 2 then b.rplPi else b.rplCi).toNat

/-- One word of the MSI-X table (R45). -/
def msixWord (e : MsixEntry) (k : Nat) : Nat :=
  if k = 0 then e.addr.toNat % 2 ^ 32 else if k = 1 then e.addr.toNat / 2 ^ 32 else if k = 2 then e.data.toNat
  else e.ctrl.toNat

/-- The value of a BAR0 register word (R42 to R46, R63); offsets not listed read 0, and the MSI-X table and the pending
bit array read 0 over SPI (R43). -/
def bar0Reg (path : Path) (s : State) (o : Nat) : Nat :=
  let m := s.mci
  if o = 0x0000 then s.deviceNo * 65536 + 0x0100
  else if o = 0x0004 then m.mciMax.toNat * 2 ^ 24 + m.inUse.toNat * 2 ^ 16 + m.personality.num * 2 ^ 8 + m.st.num
  else if o = 0x0010 then m.irq.toNat
  else if 0x0040 ≤ o ∧ o < 0x00C0 then ringWord (s.box ((o - 0x40) / 16)) (o / 4 % 4)
  else if o = 0x00C4 then m.urgLast.toNat * 65536 + 2 * bit m.urgDone + bit m.urgBusy
  else if 0x2000 ≤ o ∧ o < 0x2400 ∧ path = .pcie then msixWord (at' m.msix ((o - 0x2000) / 16) {}) (o / 4 % 4)
  else if 0x3000 ≤ o ∧ o < 0x3008 ∧ path = .pcie then m.pba.toNat / 2 ^ (8 * (o - 0x3000)) % 2 ^ 32
  else 0

/-- The byte that a host read of BAR0 returns (R42, R43). -/
def bar0Read (path : Path) (s : State) (o : Nat) : Byte :=
  if (0x0100 ≤ o ∧ o < 0x0180) ∨ (0x8000 ≤ o ∧ o < 0x10000) then cellGet 0 s.mci.slots o
  else BitVec.ofNat 8 (bar0Reg path s (o / 4 * 4) / 2 ^ (8 * (o % 4)))

/-! ### SPI transfers (R43) -/

/-- One SPI transfer, as the bytes clocked in: an opcode, 0x02 for write or 0x03 for read, two address bytes, the most
significant first, on reads one dummy byte, then one data byte per byte of the address space from the address on. Another
opcode, or a transfer that ends before its data, does nothing. Beyond offset 0xFFFF a read goes on from 0 and bytes
written are dropped (log entry 96). -/
def spiTransfer (bytes : List Byte) (s : State) : State :=
  match bytes with
  | op :: hi :: lo :: rest =>
    let offset := hi.toNat * 256 + lo.toNat
    if op = 0x02 then bar0Write .spi offset rest s
    else if op = 0x03 then
      { s with mci := { s.mci with spiRead := (List.range (rest.length - 1)).map fun k => bar0Read .spi s ((offset + k) % 2 ^ 16) } }
    else s
  | _ => s

/-! ### Versions (R55, R56) -/

/-- Majors offered: 3, and 2 where OTP permits Press (R55). -/
def offered (s : State) (major : Nat) : Bool := major = 3 || (major = 2 && (permitted s).testBit 0)

/-- A major qualifies for a HELLO (R55). -/
def qualifies (s : State) (hostMax minMajor major : Nat) : Bool :=
  offered s major && minMajor ≤ major && major ≤ hostMax / 16

/-- The minor a HELLO allows in major 3; a HOST_MAX above major 3 counts as minor 15 (R55). -/
def hostMinor (hostMax : Nat) : Nat := if 3 < hostMax / 16 then 15 else hostMax % 16

/-- The version a HELLO receives; 0 for none (R55, R56). -/
def chosenVersion (s : State) (hostMax minMajor : Nat) : Nat :=
  let fixed := s.mci.inUse.toNat
  if fixed ≠ 0 then
    if qualifies s hostMax minMajor (fixed / 16) && (fixed / 16 ≠ 3 || fixed % 16 ≤ hostMinor hostMax) then fixed else 0
  else if qualifies s hostMax minMajor 3 then 0x30 + min 4 (hostMinor hostMax)
  else if qualifies s hostMax minMajor 2 then 0x27
  else 0

/-- The next expert session identifier: the device-wide counter goes from 255 to 1 and skips those in use (R60). -/
def nextSession (s : State) : Option (BitVec 8) :=
  let from_ := s.mci.sessLast.toNat
  let ids := (List.range 255).map fun k => BitVec.ofNat 8 ((from_ + k) % 255 + 1)
  ids.find? fun i => !s.mci.boxes.any fun b => b.session = some i

end Sys2Proof.Machine
end

