-- ==== Sys2Proof/Machine/Mci.lean ====
section
/-!
DEFINITION. The command interface (spec/02_mailboxes.md): doorbells, consumption, replies, events, sessions, the urgent
mailbox, host writes to BAR0 and the HST_ window, the host link reset, and the commands of groups 0x00 and 0x01.
-/
namespace Sys2Proof.Machine

open Sys2Proof

/-! ### Rings -/

/-- REQUEST_DOORBELL (R46, R47, R49, R77). -/
def execRequestDoorbell (path : Path) (p : Nat) (value : BitVec 32) (s : State) : Out :=
  if pathOpen s path then .next (doorbell path p value s) else .next s

/-- The mailbox pairs are served (R44), unless their core is held in reset (R20, R21). -/
def pairsServed (s : State) : Bool :=
  (s.mci.st = .ready || s.mci.st = .run || s.mci.st = .halted) && pairsCore s

/-- A HELLO of a mailbox that has been consumed takes effect before the next request of it is consumed (R57). -/
def helloWaits (s : State) (p : Nat) : Bool := s.mci.dispatched.any fun d => d.req.mailbox = p && d.code = 0

/-- REQUEST_CONSUME (R44, R47, R52 to R60): the next request of a mailbox is consumed, checked, and answered or
dispatched. -/
def execRequestConsume (p : Nat) (s : State) : Out :=
  let b := s.box p
  if 8 ≤ p || !pairsServed s || helloWaits s p || b.reqPi = b.reqCi then .next s
  else
    let slot := s.slotBytes (requestSlot p (b.reqCi.toNat % 8)) 256
    .next (takeRequest p (b.arrivals.headD b.path) slot (s.modBox p fun b =>
      { b with reqCi := b.reqCi + 1, consumedAt := s.time, arrivals := b.arrivals.drop 1 }))

/-- A final reply ends a message (R53). -/
def finalReply (m : Msg) : Bool := m.flags = 3 || (m.flags = 1 && m.status.toNat ≠ Status.accepted)

/-- The completions held for mailbox 7 follow the reply of the first HELLO accepted after a host link reset (R37). -/
def releaseHeld (m : Msg) (s : State) : State :=
  if m.code = 0 && m.flags = 1 && m.status = 0 then
    let held := s.mci.heldCompletions
    let s := { s with mci := { s.mci with helloSince := true, heldCompletions := [] } }
    s.modBox 7 fun b => { b with waiting := b.waiting ++ held }
  else s

/-- A message is written into the next reply slot, RPL_PI advances and the vector is signalled (R48, R75); the device
reset of core.reset follows 1 ms after its reply is posted (R35). -/
def postMessage (p : Nat) (m : Msg) (s : State) : State :=
  let bytes := m.bytes (sentVersion s false)
  let slots := cellsSet 0 s.mci.slots (replySlot p ((s.box p).rplPi.toNat % 8)) bytes
  let s := { s with mci := { s.mci with slots := slots }, free := s.free + 1 }
  let s := s.modBox p fun b => ringMoved s.time
    { b with rplPi := b.rplPi + 1, outstanding := if finalReply m then b.outstanding - 1 else b.outstanding,
             unposted := if m.flags = 1 then b.unposted.eraseP fun u => m.ticket = some u.ticket else b.unposted }
  let s := if m.code = 3 && m.flags = 1 && m.status = 0 then
    { s with mci := { s.mci with resetAt := some (s.time + BitVec.ofNat 64 ticksPerMs) } } else s
  releaseHeld m (signal (p + 1) s)

/-- REPLY_POST (R44, R48, R72, R73): the oldest reply or completion that waits is posted; on mailbox 7 an event follows
where none waits. -/
def execReplyPost (p : Nat) (s : State) : Out :=
  let b := s.box p
  if 8 ≤ p || !pairsServed s || replyFull b then .next s
  else match b.waiting with
    | m :: rest => .next (postMessage p m (s.modBox p fun b => { b with waiting := rest }))
    | [] =>
      if p ≠ 7 then .next s
      else match s.mci.events with
        | m :: rest => .next (postMessage 7 m { s with mci := { s.mci with events := rest } })
        | [] => .next s

/-- REPLY_CI_ADVANCE (R48). -/
def execReplyCiAdvance (p : Nat) (value : BitVec 32) (s : State) : Out := .next (replyRead p value s)

/-- EVENT_POST (R73). -/
def execEventPost (code : BitVec 16) (payload : List Byte) (s : State) : Out := .next (queueEvent code.toNat payload s)

/-- MCI_REPLY_LATE (R70, R71): the reply of a consumed request has not been posted 2 s after its consumption, the time
for which the reply ring is full apart (log entry 4). Where the host-service core stands still, R21 applies instead. -/
def execMciReplyLate (p : Nat) (seq : BitVec 16) (s : State) : Out :=
  let b := s.box p
  match b.unposted.find? fun u => u.seq = seq && !u.late with
  | some u =>
    if replyFull b || !pairsCore s then .next s
    else
      let s := s.advanceTo (u.from'.toNat + 2 * ticksPerSecond)
      .next (presentFw 0x0000 none 0 (s.modBox p fun b =>
        { b with unposted := b.unposted.map fun v => if v = u then { v with late := true } else v }))
  | none => .next s

/-- SESSION_IDLE_TIMEOUT (R60): IDLE_S seconds have passed since the last consumption (log entry 4). -/
def execSessionIdleTimeout (p : Nat) (s : State) : Out :=
  let b := s.box p
  if b.idleS = 0 || !pairsCore s then .next s
  else
    .next ((s.advanceTo (b.consumedAt.toNat + b.idleS * ticksPerSecond)).modBox p fun b =>
      { b with session := none, idleS := 0 })

/-! ### The urgent mailbox -/

/-- URGENT_GO (R63 to R65): MBX_URG_CTRL is written. -/
def execUrgentGo (value : BitVec 32) (s : State) : Out := .next (urgentSubmit value s)

/-- URGENT_REPLY_POST (R63, R65): the reply is in its slot, DONE sets, then vector 0 is signalled. -/
def execUrgentReplyPost (s : State) : Out :=
  match s.mci.urgReply with
  | none => .next s
  | some m =>
    let slots := cellsSet 0 s.mci.slots urgentReplySlot (m.bytes (sentVersion s true))
    .next (signal 0 { s with mci := { s.mci with
      slots := slots, urgReply := none, urgDone := true, urgBusy := false, urgLast := m.seq } })

/-! ### Host writes and resets -/

/-- MSIX_VECTOR_UNMASK (R45). -/
def execMsixVectorUnmask (v : Nat) (s : State) : Out := if 64 ≤ v then .next s else .next (unmask v s)

/-- REGISTER_WRITE (R14, R42, R43, R45, R294): a host write to BAR0, the HST_ window or the MSI-X capability, or one
SPI transfer: over SPI, `data` is the bytes that are clocked in from nCS falling to nCS rising, which give the window and
the offset themselves. -/
def execRegisterWrite (path : Path) (win : RegWindow) (offset : Nat) (data : List Byte) (s : State) : Out :=
  match path, win with
  | .pcie, .bar0 => .next (bar0Write .pcie offset data s)
  | .pcie, .hst => if offset < 0x800 then .next (bar2RegWrite offset data s) else .next s
  | .pcie, .msix => .next (msixControl (BitVec.ofNat 16 (ofLe data)) s)
  | .spi, _ => if pathOpen s .spi then .next (spiTransfer data s) else .next s

/-- The requests of the pages and of the layer that a host link reset finds active and that no earlier one has counted
(R37): those whose last unit has committed and that are not reported yet are among them (log entry 64). -/
def activeCtxs (s : State) : List Ctx :=
  ((s.stations.flatMap fun st => (st.jobs.filter fun j => j.st = .active || j.st = .completed).map (·.ctx)) ++
    if layerActive s || s.forge.layer = .closing then s.forge.ctx.toList else []).filter fun c => !s.mci.orphans.contains c

/-- Completions that R37 owes and that wait in the device for mailbox 7: they are not lost at a host link reset (R74). -/
def owedCompletions (s : State) : List Msg := s.mci.heldCompletions ++ (s.box 7).waiting.filter fun m => m.flags = 7

/-- HOST_LINK_RESET (R35, R37, R45, R60, R74, R499): the endpoint, the BAR0 window, the sessions and what waits are reset,
and active pages and the layer abort as by command. The event sequence goes on (log entry 61). -/
def execHostLinkReset (s : State) : Out :=
  let cs := activeCtxs s
  let m := s.mci
  let s := { s with boot := { s.boot with push := 0 }, mci := { m with
    inUse := 0, irq := 0, boxes := List.replicate 8 {}, slots := [], msix := List.replicate 64 {}, pba := 0,
    msixOn := false, funcMask := false, urgBusy := false, urgDone := false, urgLast := 0, urgReply := none,
    dispatched := [], events := [], helloSince := false, heldCompletions := owedCompletions s, spiRead := [],
    abortedJobs := m.abortedJobs + cs.length, era := m.era + 1, orphans := m.orphans ++ cs } }
  let s := abortActivePages 1 s
  .next (if layerActive s then abortLayer 1 s else s)

/-! ### Core commands -/

/-- A HELLO that waits for requests of its mailbox consumed before it (R57). -/
def helloBehind (s : State) (rq : Req) : Bool :=
  let mine := s.mci.dispatched.filter fun d => d.req.mailbox = rq.mailbox
  let me (d : Dispatch) : Bool := d.code = 0 && d.req.seq = rq.seq
  mine.any me && !(mine.take 1).any me

/-- The path that a HELLO arrived on (R49): its doorbell's, where it has been consumed from its slot. -/
def helloPath (s : State) (rq : Req) : Path :=
  match s.mci.dispatched.find? fun d => d.req.mailbox = rq.mailbox && d.code = 0 && d.req.seq = rq.seq with
  | some d => d.path
  | none => (s.box rq.mailbox).path

/-- HELLO negotiates (0x0000; R37, R49, R52, R54 to R57). -/
def hello (rq : Req) (s : State) : State :=
  let p := rq.mailbox
  let path := helloPath s rq
  let v := chosenVersion s (rq.u8 0) (rq.u8 1)
  let s := s.modBox p fun b => { b with session := none, idleS := 0 }
  let b := s.box p
  let seq := if v = 0 then (if b.hello then b.expected else 0) else rq.seq + 1
  let jobs := if v = 0 then 0 else s.mci.abortedJobs
  let payload := leBytes 1 v ++ leBytes 1 0x34 ++ leBytes 1 (8 + 4 * bit ((permitted s).testBit 0)) ++
    leBytes 1 s.mci.personality.num ++ leBytes 1 (permitted s) ++ leBytes 1 s.mci.st.num ++ leBytes 2 seq.toNat ++
    leBytes 2 jobs ++ zeros 2
  if v = 0 then logViolation 0 p 0x06 rq.seq.toNat (respond rq 0x0000 Status.version payload s)
  else
    let s := s.modBox p fun b => { b with hello := true, expected := seq, bound := some (b.bound.getD path) }
    respond rq 0x0000 Status.ok payload { s with mci := { s.mci with inUse := BitVec.ofNat 8 v, abortedJobs := 0 } }

/-- HELLO (R57): it takes effect at once, after the requests of its mailbox consumed before it. -/
def execHello (rq : Req) (s : State) : Out := if helloBehind s rq then .next s else command 0x0000 rq [] (hello rq) s

/-- FW_VERSION of core.info: after a failed start, build is BOOT_STATUS.FAIL (R496, R500). -/
def fwVersion (s : State) : Nat := if s.boot.fail = 0 then s.boot.fwVersion.toNat else s.boot.fail.toNat * 2 ^ 24

/-- core.info (0x0001). -/
def execCoreInfo (rq : Req) (s : State) : Out :=
  let tiles := match s.part with
    | .vm192 => 4096
    | .vm96 => 2048
  command 0x0001 rq [] (fun s => respond rq 0x0001 Status.ok
    (leBytes 2 s.deviceNo ++ leBytes 1 0x01 ++ leBytes 1 (permitted s) ++ leBytes 4 (fwVersion s) ++ uniqueId s ++
     leBytes 2 s.nLinks ++ leBytes 2 tiles ++ s.mci.vcount.bytes ++ s.mci.eventDrops.bytes ++ zeros 4 ++
     leBytes 8 s.time.toNat) s) s

/-- core.ping (0x0002). -/
def execCorePing (rq : Req) (s : State) : Out := command 0x0002 rq [] (respond rq 0x0002 Status.ok rq.payload) s

/-- core.reset (0x0003; R35): all lanes are gated as by nSTOP, the reply is posted, and a device reset follows. -/
def execCoreReset (rq : Req) (s : State) : Out :=
  command 0x0003 rq [(rq.u32 0 ≠ 0x5A5A, Status.badValue)]
    (fun s =>
      let s := respond rq 0x0003 Status.ok [] (setCause 0 (List.range s.nLinks) s)
      { s with mci := { s.mci with resetAt := some (s.time + BitVec.ofNat 64 ticksPerMs) },
               boot := { s.boot with latchedCause := 2 } }) s

/-- core.session.open (0x0004; R60). -/
def execCoreSessionOpen (rq : Req) (s : State) : Out :=
  let p := rq.mailbox
  command 0x0004 rq
    [(rq.u32 0 ≠ 0x45585054 || 3600 < rq.u16 4, Status.badValue), ((s.box p).session.isSome, Status.state)]
    (fun s =>
      let i := (nextSession s).getD 0
      let s := s.modBox p fun b => { b with session := some i, idleS := rq.u16 4 }
      respond rq 0x0004 Status.ok (leBytes 1 i.toNat ++ zeros 3) { s with mci := { s.mci with sessLast := i } }) s

/-- core.session.close (0x0005; R60). -/
def execCoreSessionClose (rq : Req) (s : State) : Out :=
  let p := rq.mailbox
  command 0x0005 rq [((s.box p).session ≠ some (BitVec.ofNat 8 (rq.u8 0)), Status.badValue)]
    (fun s => respond rq 0x0005 Status.ok [] (s.modBox p fun b => { b with session := none, idleS := 0 })) s

/-- The 16 bytes of a violation log entry (R62). -/
def VEntry.bytes (e : VEntry) : List Byte :=
  leBytes 8 e.time.toNat ++ [e.iface, e.unit] ++ leBytes 2 e.code.toNat ++ leBytes 4 e.detail.toNat

/-- core.vlog.read (0x0006; R62). -/
def execCoreVlogRead (rq : Req) (s : State) : Out :=
  command 0x0006 rq [] (fun s => respond rq 0x0006 Status.ok
    (logReply (fun e => e.number) VEntry.bytes s.mci.vcount s.mci.vnext (BitVec.ofNat 32 (rq.u32 0)) s.mci.vlog) s) s

/-! ### Group 0x01 -/

/-- The links of a LINK_MASK; 0 names all (R66). -/
def urgentLinks (s : State) (mask : Nat) : List Nat := if mask = 0 then List.range s.nLinks else maskBits s.nLinks mask

/-- The reply of group 0x01: GATED_AT, and the links gated by any cause after the command. -/
def urgentReply (rq : Req) (code : Nat) (s : State) : State :=
  let gated := (List.range s.nLinks).filter fun l => (s.link l).gated
  respond rq code Status.ok (leBytes 8 s.time.toNat ++ leBytes 4 (maskOf gated) ++ zeros 4) s

/-- urgent.stop (0x0100; R66, R67). -/
def execUrgentStop (rq : Req) (s : State) : Out :=
  command 0x0100 rq [(2 ^ s.nLinks ≤ rq.u32 0, Status.outOfRange)]
    (fun s => urgentReply rq 0x0100 (setCause 1 (urgentLinks s (rq.u32 0)) s)) s

/-- urgent.halt (0x0101; R66): URG_HOST_HALT is recorded at once (R459), with the reaction of its class. -/
def execUrgentHalt (rq : Req) (s : State) : Out :=
  let r : Raise := { source := 0x0020, time := s.time, unit := none, detail := 0, firmware := true, forced := false,
                     fatal := false, judged := none }
  command 0x0101 rq [] (fun s => urgentReply rq 0x0101 (recordRaise r s)) s

/-- The named links that the urgent gate alone has closed since they were released are opened, or wait for
lane.gate.release: R66 and R138 leave it open (log entry 58). One release time serves them all (R138). -/
def urgentOpen (ls : List Nat) (s : State) : State :=
  let at_ := s.time.toNat + (ls.map fun l => (s.link l).lead * 160).foldl max 0
  if Config.freeNat s.free % 2 = 0 then { s with free := s.free + 1 }
  else ls.foldl (fun s l =>
    sendUngate l at_ (s.modLink l fun x => { x with releaseAt := some (BitVec.ofNat 64 at_), opened := false }))
    { s with free := s.free + 1 }

/-- urgent.release (0x0102; R66, R67, R138). -/
def execUrgentRelease (rq : Req) (s : State) : Out :=
  command 0x0102 rq [(2 ^ s.nLinks ≤ rq.u32 0, Status.outOfRange)]
    (fun s =>
      let ls := urgentLinks s (rq.u32 0)
      let last := ls.filter fun l => (s.link l).causes = 2 && (s.link l).urgentOnly
      let s := ls.foldl (fun s l => s.modLink l fun x => { x with urgentOnly := false }) (clearCause 1 ls s)
      urgentReply rq 0x0102 (urgentOpen last s)) s

end Sys2Proof.Machine
end

