-- ==== Sys2Proof/Machine/Motion.lean ====
section
/-!
DEFINITION. Stepper axes (spec/16_motion.md): moves, limits, stops, and the commands of group 0x0F.
-/
namespace Sys2Proof.Machine

open Sys2Proof

/-- MOVE_COMPLETE (R385, R387, R393): the present move ends at its last pulse and the next begins (log entry 4). A recoat
goes on with it (R228). A move that begins toward an active limit is stopped by it (R390). -/
def execMoveComplete (axis : Nat) (s : State) : Out :=
  let x := s.axis axis
  if x.st ≠ .moving || x.queue = [] then .next s
  else
    let s := recoatMoved axis (completeMove axis (s.advanceTo x.moveEnd))
    match (s.axis axis).movingPos.bind fun p => limitActs axis p s with
    | some hard => .next (recoatStopped axis (limitStop axis hard s))
    | none => .next s

/-- STOP_RAMP_END (R391): the ramped stop reaches V_START and the pulses stop (log entry 4). The pulses that the row counts
follow from the profile (R386), so they are not read. -/
def execStopRampEnd (axis _pulses : Nat) (s : State) : Out :=
  let x := s.axis axis
  if x.st ≠ .stopping then .next s
  else
    let s := foldMotion axis (s.advanceTo (x.seg.start.toNat + x.stopTicks))
    .next (s.modAxis axis fun x => { x with st := .halted })

/-- An edge at a debounced input: a change waits, a return to the debounced level cancels it (R203). -/
def Limit.edge (l : Limit) (level : Bool) (now : BitVec 64) : Limit :=
  { l with level := level, waiting := level ≠ l.st, since := if level ≠ l.level then now else l.since }

/-- LIMIT_INPUT_EDGE (R390). -/
def execLimitInputEdge (axis : Nat) (positive level : Bool) (s : State) : Out :=
  .next (s.modAxis axis fun x =>
    if positive then { x with limPos := x.limPos.edge level s.time } else { x with limNeg := x.limNeg.edge level s.time })

/-- LIMIT_DEBOUNCE_EXPIRY (R390, R391), LIM_DEBOUNCE_US after the change (log entry 4): the debounced level follows; a limit
that becomes active during motion toward it stops the axis by its mode, and a recoat on it fails (R228). -/
def execLimitDebounceExpiry (axis : Nat) (positive : Bool) (s : State) : Out :=
  let l := (s.axis axis).limit positive
  if !l.waiting then .next s
  else
    let s := s.advanceTo (l.since.toNat + (s.axis axis).debounce * (ticksPerMs / 1000))
    let l' := { l with st := l.level, waiting := false }
    let s := s.modAxis axis fun x => if positive then { x with limPos := l' } else { x with limNeg := l' }
    match limitActs axis positive s with
    | some hard => .next (recoatStopped axis (limitStop axis hard s))
    | none => .next s

/-! ### Commands -/

/-- A limit input as motion.axis.config sets it: its state is taken from its present level (R390). -/
def Limit.config (l : Limit) (b : Nat) : Limit :=
  { l with st := l.level, waiting := false, mode := b % 4, activeLow := b.testBit 2 }

/-- motion.axis.config (0x0F01). -/
def execMotionAxisConfig (rq : Req) (s : State) : Out :=
  let a := rq.u8 0
  let vs := rq.u32 4
  let vm := rq.u32 8
  let stepNs := rq.u16 24
  let bad := 1 < rq.u8 1 || vs < 1 || 100000 < vs || vm < vs || 4000000 < vm || rq.u32 16 < 1 || stepNs < 100 ||
    10000 < stepNs || 10 ^ 9 < 2 * stepNs * vm || rq.u16 26 < 100 || 10000 < rq.u16 26 || rq.u8 28 % 4 = 3 ||
    rq.u8 29 % 4 = 3 || rq.u16 30 < 1 || 10000 < rq.u16 30
  command 0x0F01 rq
    [(16 ≤ a, Status.outOfRange), (bad, Status.badValue),
     ((s.axis a).st = .moving || (s.axis a).st = .stopping, Status.state)]
    (fun s => respond rq 0x0F01 Status.ok [] (s.modAxis a fun x =>
      { x with configured := true, sCurve := rq.u8 1 = 1, dirInvert := rq.bit 2 0, enLow := rq.bit 2 1, vStart := vs,
               vMax := vm, accel := rq.u32 12, dStop := rq.u32 16, jerk := rq.u32 20, stepNs := stepNs,
               dirSetupNs := rq.u16 26, limNeg := x.limNeg.config (rq.u8 28), limPos := x.limPos.config (rq.u8 29),
               debounce := rq.u16 30, rawNext := none })) s

/-- motion.move (0x0F02, R386 to R390, R394). -/
def execMotionMove (rq : Req) (s : State) : Out :=
  let a := rq.u8 0
  let x := s.axis a
  let v := if rq.u32 4 = 0 then x.vMax else rq.u32 4
  let acc := if rq.u32 8 = 0 then x.accel else rq.u32 8
  let target := asSigned 64 (rq.u64 16)
  let delta := if rq.bit 1 0 then target else target - x.planEnd
  let m : Move := { length := delta.natAbs, pos := 0 ≤ delta, blend := rq.bit 1 1, notify := rq.bit 1 2, vMax := v,
                    accel := acc, decel := if rq.u32 12 = 0 then acc else rq.u32 12, tag := BitVec.ofNat 32 (rq.u32 24) }
  let toward := (0 < delta && x.limPos.active && x.limPos.mode ≠ 0) || (delta < 0 && x.limNeg.active && x.limNeg.mode ≠ 0)
  command 0x0F02 rq
    [(16 ≤ a, Status.outOfRange), (!x.configured || v < x.vStart || x.vMax < v, Status.badValue),
     (32 ≤ x.queue.length, Status.noResource), (x.st = .halted || x.st = .stopping, 0x8F01), (toward, 0x8F02)]
    (fun s =>
      let s := enqueueMove a m s
      respond rq 0x0F02 Status.ok (leBytes 1 (s.axis a).queue.length ++ zeros 3) s) s

/-- motion.stop (0x0F03). -/
def execMotionStop (rq : Req) (s : State) : Out :=
  let mask := if rq.u16 0 = 0 then 0xFFFF else rq.u16 0
  let as := (List.range 16).filter fun a => mask.testBit a
  let hard := rq.u8 2 = 0
  let moving := ofBits ((List.range 16).map fun a => mask.testBit a && (s.axis a).st = .moving)
  command 0x0F03 rq [(1 < rq.u8 2, Status.badValue)]
    (fun s => respond rq 0x0F03 Status.ok (leBytes 2 moving ++ zeros 2)
      (as.foldl (fun s a => recoatStopped a (stopAxis a hard (if hard then 1 else 2) s)) s)) s

/-- motion.position.set (0x0F04, R394, R395). -/
def execMotionPositionSet (rq : Req) (s : State) : Out :=
  let a := rq.u8 0
  let x := s.axis a
  let keep := rq.bit 1 0
  command 0x0F04 rq
    [(16 ≤ a, Status.outOfRange),
     (x.st = .moving || x.st = .stopping || (keep && x.posLost) || pacing s a, Status.state)]
    (fun s => respond rq 0x0F04 Status.ok [] (s.modAxis a fun x =>
      { x with st := .idle, posLost := false, base := if keep then x.base else BitVec.ofNat 64 (rq.u64 8) })) s

/-- The number of an axis state in motion.status. -/
def AxisState.num : AxisState → Nat
  | .idle => 0 | .moving => 1 | .stopping => 2 | .halted => 3

/-- motion.status (0x0F05). -/
def execMotionStatus (rq : Req) (s : State) : Out :=
  let a := rq.u8 0
  let x := s.axis a
  let n := (wholeSteps (x.travel s.time)).natAbs
  command 0x0F05 rq [(16 ≤ a, Status.outOfRange)]
    (fun s => respond rq 0x0F05 Status.ok
      (leBytes 1 x.st.num ++ leBytes 1 (ofBits [x.posLost, x.limNeg.active, x.limPos.active, pacing s a]) ++
       leBytes 1 x.queue.length ++ leBytes 1 x.cause ++ leBytesI 4 (x.velocity s.time) ++
       leBytes 8 (x.position s.time).toNat ++ leBytes 8 (x.pulses + BitVec.ofNat 64 n).toNat ++ x.starved.bytes ++
       x.limitStops.bytes ++ x.posLosts.bytes) s) s

/-- motion.axis.raw (0x0F80): from the next start from rest on. -/
def execMotionAxisRaw (rq : Req) (s : State) : Out :=
  let a := rq.u8 0
  let vs := rq.u32 4
  command 0x0F80 rq
    [(16 ≤ a, Status.outOfRange),
     (rq.u16 2 < 50 || 10000 < rq.u16 2 || vs < 1 || 1000000 < vs || 10 ^ 9 < 2 * rq.u16 2 * (s.axis a).vMax, Status.badValue),
     (!(s.axis a).configured, Status.state)]
    (fun s => respond rq 0x0F80 Status.ok [] (s.modAxis a fun x => { x with rawNext := some (rq.u16 2, vs) })) s

end Sys2Proof.Machine
end

