-- ==== Sys2Proof/Machine/Otp.lean ====
section
/-!
DEFINITION. The OTP array (spec/22_otp.md): the start-up check, the words a burn programs, and the commands of group 0x15.
-/
namespace Sys2Proof.Machine

open Sys2Proof

/-- Duration of the start-up check in µs (R481): 49.2 ms, and 12 µs for each word of a region that is read again. -/
def otpCheckMicros (s : State) : Nat :=
  49200 + 12 * (((List.range 8).filter fun r => otpLocked s r && !otpDigestOk s 0 r).map otpSize).sum

/-- OTP_STARTUP_CHECK_DONE (R481, R482, R492); the check begins with device time (log entry 4). -/
def execOtpStartupCheckDone (s : State) : Out :=
  if s.timeRuns && s.mci.st = .reset && !s.otp.checked then
    .next (otpCheck (s.advanceTo (otpCheckMicros s * (ticksPerMs / 1000))))
  else .next s

/-- A burn, finalise or strengthen has ended (R484, R486, R487): its completion. A finalised region is judged. -/
def burnEnd (b : Burn) (failed : Bool) (s : State) : State :=
  let ok := if failed then Status.failed else Status.ok
  let found := otpCheckRegion s b.region
  let s := { s with otp := { s.otp with burn := none, windowLeft := false } }
  if b.kind = 0 then
    complete b.ctx ok (leBytes 2 b.burned ++ leBytes 2 b.weak ++ leBytes 2 (b.firstFail.getD 0xFFFF) ++ zeros 2) s
  else if b.kind = 1 then
    complete b.ctx ok b.digest { s with otp := { s.otp with found := modAt s.otp.found b.region fun _ => found } }
  else complete b.ctx ok (leBytes 2 b.burned ++ leBytes 2 b.weak) s

/-- OTP_BURN_WORD_DONE (R484): the present word is programmed and verified; no further word follows where a sensor has
left the temperature window (R424). A word takes 274 µs, or 536 µs with its second programming (log entry 4). -/
def execOtpBurnWordDone (r : BurnRead) (s : State) : Out :=
  if !s.coreUp supervisorCore then .next s
  else match s.otp.burn with
  | none => .next s
  | some b => match b.todo with
    | [] => .next (burnEnd b b.firstFail.isSome s)
    | (w, v) :: rest =>
      let s := s.waitFrom b.wordAt ((if r.again then 536 else 274) * (ticksPerMs / 1000))
      let s := otpProgram w v r.normal r.margin s
      let good : Bool := otpRaw s 0 w = v
      let isWeak := otpMargin s w
      let s := if good then s else presentFw 0x02A3 (some b.region) 0 s
      let s := otpFlag true w isWeak s
      let done := if b.kind = 2 then s.otp.burned else s.otp.burned.inc
      let s := { s with otp := { s.otp with burned := done } }
      let stop := s.otp.windowLeft && rest ≠ []
      let fail := if good || b.firstFail.isSome then b.firstFail else some w
      let b := { b with todo := rest, burned := b.burned + bit (good || b.kind = 2), weak := b.weak + bit isWeak,
                        firstFail := fail, wordAt := s.time }
      .next (if rest = [] || stop then burnEnd b (b.firstFail.isSome || s.otp.windowLeft) s
        else { s with otp := { s.otp with burn := some b } })

/-! ### Commands -/

/-- The number of a region state in otp.status. -/
def RegionState.num : RegionState → Nat
  | .blank => 0
  | .opened => 1
  | .valid => 2
  | .weak => 3
  | .invalid => 4

/-- The flagged words of a region. -/
def weakIn (s : State) (r : Nat) : List Nat := s.otp.weak.filter fun w => otpRegion w = r

/-- A region entry of otp.status. -/
def regionEntry (s : State) (r : Nat) : List Byte :=
  leBytes 1 (otpState s r).num ++ zeros 1 ++ leBytes 2 (otpLength s 0 r) ++ leBytes 2 (weakIn s r).length ++
  leBytes 2 ((weakIn s r).head?.getD 0xFFFF)

/-- otp.status (0x1501). -/
def execOtpStatus (rq : Req) (s : State) : Out :=
  let redirects := match s.part with
    | .vm192 => 0
    | .vm96 => s.otp.redirects.length
  command 0x1501 rq [] (fun s => respond rq 0x1501 Status.ok
    ((List.range 8).flatMap (regionEntry s) ++ s.otp.burned.bytes ++ leBytes 4 redirects) s) s

/-- otp.read (0x1502). -/
def execOtpRead (rq : Req) (s : State) : Out :=
  let w := rq.u16 0
  let n := rq.u8 2
  let ws := (List.range n).map (w + ·)
  command 0x1502 rq [(n < 1 || 32 < n || 2048 < w + n, Status.outOfRange)]
    (fun s => respond rq 0x1502 Status.ok
      (leBytes 4 (ofBits (ws.map fun v => (otpEntry s v).isSome)) ++ leBytes 4 (ofBits (ws.map s.otp.weak.contains)) ++
       ws.flatMap fun v => leBytes 4 (otpReadWord s v).toNat) s) s

/-- The words and values of otp.burn. -/
def burnWords (rq : Req) : List (Nat × BitVec 32) :=
  (List.range (rq.u8 6)).map fun i => (rq.u16 4 + i, BitVec.ofNat 32 (rq.u32 (8 + 4 * i)))

/-- otp.burn (0x1503; R484). -/
def execOtpBurn (rq : Req) (s : State) : Out :=
  let w := rq.u16 4
  let n := rq.u8 6
  let r := otpRegion w
  let ws := burnWords rq
  let lockWord := ws.any fun p => otpLockWord (otpRegion p.1) ≤ p.1
  command 0x1503 rq
    [(2048 < w + n || 2048 ≤ w, Status.outOfRange),
     (rq.u32 0 ≠ 0x4255524E || n < 1 || 16 < n || otpRegion (w + n - 1) ≠ r || lockWord, Status.badValue),
     (s.otp.burn.isSome, Status.busy), (!otpWindow s, Status.state), (otpLocked s r, 0x9501),
     (ws.any fun p => otpRaw s 0 p.1 &&& ~~~p.2 ≠ 0, 0x9502)]
    (fun s =>
      let b : Burn := { kind := 0, ctx := rq.ctx s 0x1503, region := r, todo := ws, burned := 0, weak := 0,
                        firstFail := none, digest := [], wordAt := s.time }
      accept rq 0x1503 [] { s with otp := { s.otp with burn := some b, windowLeft := false } }) s

/-- The DIGEST words of 16 bytes. -/
def digestWords (r : Nat) (d : List Byte) : List (Nat × BitVec 32) :=
  (List.range 4).map fun k => (otpLockWord r + 1 + k, BitVec.ofNat 32 (leAt d (4 * k) 4))

/-- otp.finalise (0x1504; R486). The words that DIGEST covers are read first, 12 µs each (R477; log entry 55). -/
def execOtpFinalise (rq : Req) (s : State) : Out :=
  let r := rq.u8 4
  let d := otpDigest s 0 r
  let ws := digestWords r d
  let overridden := s.otp.addr.zipIdx.any fun p => s.otp.en.getLsbD p.2 && otpRegion p.1.toNat = r
  command 0x1504 rq
    [(8 ≤ r, Status.outOfRange), (rq.u32 0 ≠ 0x4C4F434B, Status.badValue), (s.otp.burn.isSome, Status.busy),
     (otpLocked s r, 0x9501), (!otpHeaderOk s 0 r, 0x9503), (overridden || !otpWindow s, Status.state),
     (ws.any fun p => otpRaw s 0 p.1 &&& ~~~p.2 ≠ 0, 0x9502)]
    (fun s =>
      let b : Burn := { kind := 1, ctx := rq.ctx s 0x1504, region := r, todo := ws ++ [(otpLockWord r, 0xFFFFFFFF)],
                        burned := 0, weak := 0, firstFail := none, digest := d,
                        wordAt := s.time + BitVec.ofNat 64 ((otpLength s 0 r + 1) * 12 * (ticksPerMs / 1000)) }
      accept rq 0x1504 [] { s with otp := { s.otp with burn := some b, windowLeft := false } }) s

/-- The words that otp.strengthen programs again, with their intended values (R487). -/
def strengthenWords (s : State) (r : Nat) : List (Nat × BitVec 32) :=
  let ref := if otpState s r = .weak then 2 else 0
  ((List.range (otpSize r)).map fun k => (otpBase r + k, otpRaw s ref (otpBase r + k))).filter fun p =>
    p.2 &&& ~~~otpRaw s 1 p.1 ≠ 0

/-- otp.strengthen (0x1505; R487). -/
def execOtpStrengthen (rq : Req) (s : State) : Out :=
  let r := rq.u8 0
  command 0x1505 rq
    [(8 ≤ r, Status.outOfRange), (s.otp.burn.isSome, Status.busy),
     (otpState s r = .invalid || !otpWindow s, Status.state)]
    (fun s =>
      let b : Burn := { kind := 2, ctx := rq.ctx s 0x1505, region := r, todo := strengthenWords s r, burned := 0,
                        weak := 0, firstFail := none, digest := [], wordAt := s.time }
      let s := accept rq 0x1505 [] { s with otp := { s.otp with burn := some b, windowLeft := false } }
      if b.todo = [] then burnEnd b false s else s) s

/-- An OTP_ shadow register as it reads (R488, R489). -/
def shadowRead (s : State) (o : Nat) : Nat :=
  if o = 0 then s.otp.en.toNat
  else if o = 4 then
    maskOf ((List.range 16).filter fun n => otpEntry s (at' s.otp.addr n 0).toNat = some n)
  else if 0x40 ≤ o ∧ o < 0xC0 then
    if o % 8 = 0 then (at' s.otp.addr ((o - 0x40) / 8) 0).toNat else (at' s.otp.data ((o - 0x40) / 8) 0).toNat
  else 0

/-- An OTP_ shadow register as it is written (R14, R489). -/
def shadowWrite (x : Otp) (o v : Nat) : Otp :=
  if o = 0 then { x with en := BitVec.ofNat 16 v }
  else if 0x40 ≤ o ∧ o < 0xC0 then
    if o % 8 = 0 then { x with addr := modAt x.addr ((o - 0x40) / 8) fun _ => BitVec.ofNat 11 v }
    else { x with data := modAt x.data ((o - 0x40) / 8) fun _ => BitVec.ofNat 32 v }
  else x

/-- An enabled entry names a word of a locked region or of region 2 (R488). -/
def shadowForbidden (s : State) (x : Otp) : Bool :=
  (List.range 16).any fun n =>
    let r := otpRegion (at' x.addr n 0).toNat
    x.en.getLsbD n && (r = 2 || otpLocked s r)

/-- otp.shadow.read (0x1506). -/
def execOtpShadowRead (rq : Req) (s : State) : Out :=
  let o := rq.u8 0
  let n := rq.u8 1
  command 0x1506 rq [(o % 4 ≠ 0 || n < 1 || 16 < n || 0xC0 < o + 4 * n, Status.outOfRange)]
    (fun s => respond rq 0x1506 Status.ok ((List.range n).flatMap fun k => leBytes 4 (shadowRead s (o + 4 * k))) s) s

/-- otp.shadow.write (0x1507; R488). -/
def execOtpShadowWrite (rq : Req) (s : State) : Out :=
  let o := rq.u8 0
  let x := shadowWrite s.otp o (rq.u32 4)
  command 0x1507 rq [(o % 4 ≠ 0 || 0xC0 ≤ o, Status.outOfRange), (shadowForbidden s x, 0x9501)]
    (fun s => respond rq 0x1507 Status.ok [] { s with otp := x }) s

/-- otp.margin.read (0x1580; R477): a margin read that differs from the normal read flags the word WEAK. -/
def execOtpMarginRead (rq : Req) (s : State) : Out :=
  let w := rq.u16 0
  let n := rq.u8 2
  let ref := rq.u8 3
  let copy := rq.u8 4
  let ws := (List.range n).map (w + ·)
  let one (s : State) (ref v : Nat) : BitVec 32 := (otpCell s (otpPlace s v)).read ref copy
  command 0x1580 rq
    [(n < 1 || 32 < n || 2048 < w + n, Status.outOfRange),
     (2 < ref || 2 < copy || (s.part = .vm96 && copy ≠ 0), Status.badValue)]
    (fun s =>
      let bytes := ws.flatMap fun v => leBytes 4 (one s ref v).toNat
      let weak := if ref = 1 then ws.filter fun v => one s 1 v ≠ one s 0 v else []
      respond rq 0x1580 Status.ok bytes (weak.foldl (fun s v => otpFlag true v true s) s)) s

end Sys2Proof.Machine
end

