-- ==== Sys2Proof/Machine/Power.lean ====
section
/-!
DEFINITION. Power and Atoll (spec/19_power_atoll.md): rails, the sequencer's events, the main supply, wake, the RTC, and
the commands of group 0x12.
-/
namespace Sys2Proof.Machine

open Sys2Proof

/-- A monitor code lies within the rail's limits (R427). -/
def vmonOk (r : Rail) (code : Nat) : Bool := r.uv * 4095 ≤ code * r.fullScale && code * r.fullScale ≤ r.ov * 4095

/-- RAIL_UP (R427, R428): the rail being brought up is up, with RAILn_PG at `sense.pg`, and settles; a forced one is monitored from
now on. -/
def execRailUp (slot : Nat) (sense : RailSense) (s : State) : Out :=
  let s := s.modRail slot fun r => { r with code := sense.vmon }
  let r := s.rail slot
  if !r.en || !vmonOk r sense.vmon || !r.pgOk sense.pg then .next s
  else if s.pwr.st = .rising && s.pwr.slot = some slot && !s.pwr.settling then
    let s := s.modRail slot fun r => { r with up := true }
    .next { s with pwr := { s.pwr with settling := true, stepAt := s.time } }
  else if s.pwr.st = .down then .next (s.modRail slot fun r => { r with up := true })
  else .next s

/-- RAIL_SETTLE_END (R428): SETTLE_MS after the rail was up (log entry 4) the next slot is enabled, or the sequencer is UP. -/
def execRailSettleEnd (slot : Nat) (s : State) : Out :=
  if s.pwr.st = .rising && s.pwr.slot = some slot && s.pwr.settling then
    .next (enableFrom (slot + 1) (s.waitFrom s.pwr.stepAt ((s.rail slot).settle * ticksPerMs)))
  else .next s

/-- RAIL_PG_TIMEOUT (R428, R432): the rail failed to come up within PG_TIMEOUT_MS (log entry 4). -/
def execRailPgTimeout (slot : Nat) (s : State) : Out :=
  if s.pwr.st = .rising && s.pwr.slot = some slot && !s.pwr.settling then
    let s := s.waitFrom s.pwr.stepAt ((s.rail slot).pgTimeout * ticksPerMs)
    let s := { s with atoll := { s.atoll with railNoPg := true } }
    .next (present 0x0240 (some slot) 0 (latchDown 1 2 s))
  else .next s

/-- RAIL_FAULT (R429, R432): a rail that is up has been outside its limits, or without power-good, for FILTER_US. -/
def execRailFault (slot : Nat) (sense : RailSense) (s : State) : Out :=
  let s := s.modRail slot fun r => { r with code := sense.vmon }
  let r := s.rail slot
  if !r.en || !r.up || (vmonOk r sense.vmon && r.pgOk sense.pg) then .next s
  else
    let s := { s with atoll := { s.atoll with railFault := true } }
    if s.pwr.st = .falling then .next s
    else
      let s := { s with pwr := { s.pwr with railFaults := s.pwr.railFaults.inc } }
      let s := latchDown 1 3 s
      .next (present 0x0241 (some slot) 0 (if s.pwr.st = .latched then s.modRail slot fun r => r.drop s.time else s))

/-- RAIL_DISCHARGE_END (R428): DISCHARGE_MS after the enable dropped (log entry 4) a slow discharge is raised, and the next
slot down drops. -/
def execRailDischargeEnd (slot vmon : Nat) (s : State) : Out :=
  if s.pwr.st = .falling && s.pwr.slot = some slot then
    let s := s.waitFrom s.pwr.stepAt ((s.rail slot).discharge * ticksPerMs)
    let s := s.modRail slot fun r => { r with code := vmon }
    let slow := (s.rail slot).dischMv * 4095 < vmon * (s.rail slot).fullScale
    .next (dropNext 0 (if slow then present 0x0244 (some slot) 0 s else s))
  else .next s

/-- MIN_OFF_END (R431, R432, R438), 100 ms after it began (log entry 4): a held request is served; otherwise the main supply
may drop. -/
def execMinOffEnd (s : State) : Out :=
  if !s.pwr.minOff then .next s
  else
    let s := s.waitFrom s.pwr.minOffAt (100 * ticksPerMs)
    let cs := s.pwr.downCtx
    let s := { s with pwr := { s.pwr with minOff := false, downCtx := [] } }
    let s := cs.foldl (fun s c => complete c Status.ok [] s) s
    let s := if s.pwr.st = .minOff then { s with pwr := { s.pwr with st := .down } } else s
    .next (faultUngate (if s.pwr.st = .down && s.pwr.heldOn then startRising s else followMain s))

/-- OFF_GRACE_END (R433), OFF_GRACE seconds after the off request (log entry 4): every active page and layer is aborted as by
command; FALLING follows their end. -/
def execOffGraceEnd (s : State) : Out :=
  match s.pwr.grace with
  | none => .next s
  | some t =>
    let s := s.waitFrom t (s.atoll.offGrace.toNat * ticksPerSecond)
    if (List.range 4).any (pageActive s) || layerActive s then .next (abortLayer 1 (abortActivePages 1 s))
    else .next (startFalling 1 s)

/-- GRACE_JOBS_TERMINAL (R433): every active page and layer has reached its terminal state. -/
def execGraceJobsTerminal (s : State) : Out :=
  if s.pwr.grace.isSome && !((List.range 4).any (pageActive s) || layerActive s) then .next (startFalling 1 s) else .next s

/-- NSYSFAULT_IN (R432, R434, R438): the line is seen low for 1 µs from another device, or high again; in OFF it has no
effect but its level. -/
def execNsysfaultIn (low : Bool) (s : State) : Out :=
  if !low || !s.atoll.main then .next { s with pwr := { s.pwr with sysIn := low } }
  else if pullsSysfault s then .next s
  else
    let s := { s with pwr := { s.pwr with sysIn := true }, atoll := { s.atoll with sysfaultSeen := true } }
    let running := s.pwr.st = .rising || s.pwr.st = .up
    let s := latchDown 2 4 s
    .next (if running then present 0x0242 none 0 s else s)

/-- SUPPLY_LOST (R432, R438): WAKE_MAINS has been below its threshold for 10 ms with SUPPLY_MON set. -/
def execSupplyLost (s : State) : Out :=
  if !s.atoll.supplyMon then .next s
  else
    let s := { s with pwr := { s.pwr with supplyLost := true }, atoll := { s.atoll with supplyLost := true } }
    if s.pwr.st = .rising || s.pwr.st = .up then .next (present 0x0243 none 0 (startFalling 5 s)) else .next s

/-- SUPPLY_RETURN (R432, R439): with AUTO_RESTART set, RISING after MIN_OFF, or RAILM_EN from OFF. -/
def execSupplyReturn (s : State) : Out :=
  if !s.atoll.supplyMon then .next s
  else
    let s := { s with pwr := { s.pwr with supplyLost := false } }
    if !s.atoll.autoRestart then .next s
    else if !s.atoll.main then .next (wake 9 s)
    else if s.pwr.st = .falling || s.pwr.st = .minOff then .next { s with pwr := { s.pwr with heldOn := true } }
    else .next s

/-- PWRBTN_PRESS (R431, R432, R435): an on request, an off request, or the clearing of a latch. -/
def execPwrbtnPress (s : State) : Out :=
  if s.pwr.pressHeld then .next s
  else
  let s := { s with atoll := { s.atoll with wakeFlag := s.atoll.wakeFlag ||| 1 } }
  if !s.atoll.main then .next (if s.atoll.wakeEn.getLsbD 0 then wake 1 s else s)
  else match s.pwr.st with
    | .latched => .next (faultUngate (clearLatch s))
    | .rising => .next (offRequest s)
    | .up => .next (offRequest s)
    | _ => .next (onRequest s)

/-- PWRBTN_FORCED_OFF (R432, R436): every enable and RAILM_EN drop at once and FORCED_OFF is recorded. -/
def execPwrbtnForcedOff (s : State) : Out :=
  let s := { s with atoll := { s.atoll with forcedOff := true, forcedNew := true } }
  .next (mainOff { s with pwr := { s.pwr with pressHeld := true, st := .down, slot := none, heldOn := false, grace := none } })

/-- PWRBTN_RELEASE (R436). -/
def execPwrbtnRelease (s : State) : Out := .next { s with pwr := { s.pwr with pressHeld := false } }

/-- VBAT_APPLY (R35, R438, R441): the Atoll reset. -/
def execVbatApply (s : State) : Out := .next (atollReset s)

/-- VBAT_LOW (R441, R444): below 1.5 V Atoll resets; below 1.8 V with the main supply ON PW_VBAT_LOW is raised. -/
def execVbatLow (mv : Nat) (s : State) : Out :=
  let s := { s with pwr := { s.pwr with vbatMv := mv } }
  let s := if mv < 1800 && s.atoll.main then present 0x0246 none 0 s else s
  .next (if mv < 1500 then atollReset s else s)

/-- WAKE_COMPARATOR_FIRE (R439, R440): a crossing in the direction POL chooses sets its flag, and from OFF an enabled
comparator raises RAILM_EN. -/
def execWakeComparatorFire (n : Nat) (rising : Bool) (s : State) : Out :=
  if 4 ≤ n || s.atoll.wakePol.getLsbD n ≠ rising then .next s
  else
    let s := { s with atoll := { s.atoll with wakeFlag := s.atoll.wakeFlag ||| (1#4 <<< n) } }
    .next (if s.atoll.wakeEn.getLsbD n then wake (n + 1) s else s)

/-- Ticks until the RTC reaches a compare value that has not passed (R442). -/
def ticksToAlarm (a : Atoll) (v : Nat) : Nat := ceilDiv ((v - a.rtc.toNat) * 390625 - a.rtcAcc.val) 8

/-- RTC_ALARM (R439, R442): the RTC reaches the compare value of an armed alarm (log entry 4). -/
def execRtcAlarm (n : Nat) (s : State) : Out :=
  let v := (at' s.atoll.alarms n 0).toNat
  if 4 ≤ n || !s.atoll.alarmEn.getLsbD n || v < s.atoll.rtc.toNat then .next s
  else
    let s := s.advance (ticksToAlarm s.atoll v)
    let s := { s with atoll := { s.atoll with alarmFlag := s.atoll.alarmFlag ||| (1#4 <<< n) } }
    if s.atoll.main then .next (queueEvent 0x1240 (leBytes 1 n ++ zeros 3) s)
    else .next (if s.atoll.alarmWake.getLsbD n then wake (5 + n) s else s)

/-! ### Commands -/

/-- power.rail.config (0x1201). -/
def execPowerRailConfig (rq : Req) (s : State) : Out :=
  let n := rq.u8 0
  let bad := rq.u16 4 < 1 || 10000 < rq.u16 4 || 10000 < rq.u16 6 || rq.u16 8 < 1 || 10000 < rq.u16 8 ||
    rq.u16 10 < 10 || 10000 < rq.u16 10 || rq.u16 16 ≤ rq.u16 14 || rq.u16 12 < rq.u16 16 || rq.u16 14 ≤ rq.u16 18
  command 0x1201 rq
    [(16 ≤ n, Status.outOfRange), (bad, Status.badValue),
     (s.pwr.st = .rising || s.pwr.st = .up || s.pwr.st = .falling, Status.state)]
    (fun s => respond rq 0x1201 Status.ok [] (s.modRail n fun r =>
      { r with inSeq := rq.bit 1 0, pgUsed := rq.bit 1 1, pgLow := rq.bit 1 2, enLow := rq.bit 1 3, pgTimeout := rq.u16 4,
               settle := rq.u16 6, discharge := rq.u16 8, filter := rq.u16 10, fullScale := rq.u16 12, uv := rq.u16 14,
               ov := rq.u16 16, dischMv := rq.u16 18 })) s

/-- power.up (0x1202). -/
def execPowerUp (rq : Req) (s : State) : Out :=
  command 0x1202 rq
    [(s.pwr.st = .rising || s.pwr.st = .up || s.pwr.st = .falling, Status.state), (s.pwr.st = .latched, 0x9201),
     (s.atoll.supplyMon && s.pwr.supplyLost, 0x9202)]
    (fun s =>
      let s := accept rq 0x1202 [] s
      onRequest { s with pwr := { s.pwr with upCtx := s.pwr.upCtx ++ [rq.ctx s 0x1202] } }) s

/-- power.down (0x1203). -/
def execPowerDown (rq : Req) (s : State) : Out :=
  let c := rq.ctx s 0x1203
  command 0x1203 rq [(1 < rq.u8 0, Status.badValue)]
    (fun s =>
      let s := accept rq 0x1203 [] s
      let idle := (s.pwr.st = .down || s.pwr.st = .latched) && !s.pwr.minOff
      if idle then complete c Status.ok [] s
      else
        let s := { s with pwr := { s.pwr with downCtx := s.pwr.downCtx ++ [c], endKeep := rq.u8 0 = 0 } }
        offRequest s) s

/-- power.clear (0x1204). -/
def execPowerClear (rq : Req) (s : State) : Out :=
  command 0x1204 rq [(s.pwr.st ≠ .latched || !sysfaultClear s, Status.state)]
    (fun s => respond rq 0x1204 Status.ok [] (faultUngate (clearLatch s))) s

/-- The number of a sequencer state in power.status. -/
def SeqState.num : SeqState → Nat
  | .down => 0 | .rising => 1 | .up => 2 | .falling => 3 | .minOff => 4 | .latched => 5

/-- power.status (0x1205). -/
def execPowerStatus (rq : Req) (s : State) : Out :=
  command 0x1205 rq [] (fun s => respond rq 0x1205 Status.ok
    (leBytes 1 s.pwr.st.num ++ leBytes 1 (s.pwr.slot.getD 0xFF) ++ leBytes 2 (ofBits (s.pwr.rails.map (·.up))) ++
     leBytes 2 (ofBits [s.pwr.heldOn, s.pwr.grace.isSome]) ++ zeros 2 ++ leBytes 8 s.atoll.rtc.toNat ++
     leBytes 8 s.time.toNat ++ (s.pwr.rails.flatMap fun r => leBytes 2 (openDiv (r.code * r.fullScale) 4095)) ++
     s.pwr.railFaults.bytes ++ leBytes 4 s.pwr.vbatMv) s) s

/-- An ATL_ register as it reads (R443). -/
def atlRead (a : Atoll) (offset : Nat) : Nat :=
  if offset = 0x00 then a.rtc.toNat % 2 ^ 32
  else if offset = 0x04 then a.rtcHiRead.toNat
  else if 0x10 ≤ offset ∧ offset < 0x30 then
    let v := (at' a.alarms ((offset - 0x10) / 8) 0).toNat
    if offset % 8 = 0 then v % 2 ^ 32 else v / 2 ^ 32
  else if offset = 0x30 then a.alarmFlag.toNat * 256 + a.alarmWake.toNat * 16 + a.alarmEn.toNat
  else if offset = 0x34 then a.wakeFlag.toNat * 256 + a.wakePol.toNat * 16 + a.wakeEn.toNat
  else if offset = 0x38 then
    a.offGrace.toNat * 256 + ofBits [a.autoRestart, a.autoOn, a.standby, a.supplyMon]
  else if offset = 0x3C then
    a.wakeCause.toNat * 2 ^ 20 + a.lastRail.toNat * 2 ^ 16 +
    ofBits [a.main, false, a.railNoPg, a.railFault, a.sysfaultSeen, a.supplyLost, a.forcedOff, a.rtcValid]
  else if 0x40 ≤ offset ∧ offset < 0x80 then (at' a.ret ((offset - 0x40) / 4) 0).toNat
  else 0

/-- An ATL_ register as it is written (R14, R443): RW, W1C and RO fields. -/
def atlWrite (a : Atoll) (offset v : Nat) : Atoll :=
  let keep := fun (w : BitVec 4) => w &&& ~~~BitVec.ofNat 4 (v / 256)
  if offset = 0x00 then
    { a with rtc := BitVec.ofNat 48 (a.rtcHiHeld.toNat * 2 ^ 32 + v), rtcAcc := 0, rtcValid := true }
  else if offset = 0x04 then { a with rtcHiHeld := BitVec.ofNat 16 v }
  else if 0x10 ≤ offset ∧ offset < 0x30 then
    { a with alarms := modAt a.alarms ((offset - 0x10) / 8) fun w =>
        if offset % 8 = 0 then BitVec.ofNat 48 (w.toNat / 2 ^ 32 * 2 ^ 32 + v)
        else BitVec.ofNat 48 (v % 65536 * 2 ^ 32 + w.toNat % 2 ^ 32) }
  else if offset = 0x30 then
    { a with alarmFlag := keep a.alarmFlag, alarmWake := BitVec.ofNat 4 (v / 16), alarmEn := BitVec.ofNat 4 v }
  else if offset = 0x34 then
    { a with wakeFlag := keep a.wakeFlag, wakePol := BitVec.ofNat 4 (v / 16), wakeEn := BitVec.ofNat 4 v }
  else if offset = 0x38 then
    { a with offGrace := BitVec.ofNat 8 (v / 256), supplyMon := v.testBit 3, standby := v.testBit 2, autoOn := v.testBit 1,
             autoRestart := v.testBit 0 }
  else if offset = 0x3C then
    { a with forcedOff := a.forcedOff && !v.testBit 6, supplyLost := a.supplyLost && !v.testBit 5,
             sysfaultSeen := a.sysfaultSeen && !v.testBit 4, railFault := a.railFault && !v.testBit 3,
             railNoPg := a.railNoPg && !v.testBit 2 }
  else if 0x40 ≤ offset ∧ offset < 0x80 then { a with ret := modAt a.ret ((offset - 0x40) / 4) fun _ => BitVec.ofNat 32 v }
  else a

/-- A read of ATL_RTC_LO captures ATL_RTC_HI in the same cycle (R443). -/
def captureRtc (a : Atoll) : Atoll := { a with rtcHiRead := BitVec.ofNat 16 (a.rtc.toNat / 2 ^ 32) }

/-- atoll.reg.read (0x1206). -/
def execAtollRegRead (rq : Req) (s : State) : Out :=
  let o := rq.u8 0
  let n := rq.u8 1
  command 0x1206 rq [(o % 4 ≠ 0 || n < 1 || 16 < n || 0x80 < o + 4 * n, Status.outOfRange)]
    (fun s =>
      let s := if o = 0 then { s with atoll := captureRtc s.atoll } else s
      respond rq 0x1206 Status.ok ((List.range n).flatMap fun k => leBytes 4 (atlRead s.atoll (o + 4 * k))) s) s

/-- atoll.reg.write (0x1207). -/
def execAtollRegWrite (rq : Req) (s : State) : Out :=
  let o := rq.u8 0
  command 0x1207 rq [(o % 4 ≠ 0 || 0x80 ≤ o, Status.outOfRange)]
    (fun s => respond rq 0x1207 Status.ok [] { s with atoll := atlWrite s.atoll o (rq.u32 4) }) s

/-- power.rail.force (0x1280): one enable, only in DOWN. -/
def execPowerRailForce (rq : Req) (s : State) : Out :=
  let n := rq.u8 0
  command 0x1280 rq [(16 ≤ n, Status.outOfRange), (s.pwr.st ≠ .down || s.pwr.minOff, Status.state)]
    (fun s => respond rq 0x1280 Status.ok []
      (s.modRail n fun r => if rq.u8 1 = 0 then r.drop s.time else { r with en := true })) s

end Sys2Proof.Machine
end

