-- ==== Sys2Proof/Machine/PressImaging.lean ====
section
/-!
DEFINITION. The commands of group 0x05: stations, tables and Delta (spec/06_press_imaging.md).
-/
namespace Sys2Proof.Machine

open Sys2Proof

/-- Group-specific status codes of group 0x05. -/
def Status.tableCrc : Nat := 0x8501
def Status.sosTooEarly : Nat := 0x8502

/-- SOS_OFFSET + min(SKEW) lies below LEAD + 15 µs on some link of the station (R180). -/
def sosTooEarly (s : State) (i sosNs : Nat) (skew : List Int) : Bool :=
  let low := skew.foldl min (skew.headD 0)
  (s.station i).links.any fun l => nsSub sosNs + low < (s.link l).leadSub + nsSub 15000

/-- The line duration of a station at a pixel clock under the profile in force, in ns (R180; rounding, log entry 9). -/
def lineNs (s : State) (i pixels khz : Nat) : Nat :=
  openDiv (({ s.synth i with freq := freqOfClock khz }.span pixels pixels).toNat * 10) (65536 * 1024)

/-- The events and plans of a station's sweeps are dropped. -/
def dropSweeps (i : Nat) (s : State) : State :=
  let mine (e : QEvent) : Bool := match e.unit with
    | some (.sweep k _) => k = i
    | _ => false
  let s := (s.station i).links.foldl (fun s l => s.modLink l (Link.keepEvents fun _ e => !mine e)) s
  s.modStation i fun st => { st with sweeps := [], slotFired := [], slotSeen := [] }

/-- BANDING_REPCTL of a station is bound, and the one before it released (R186, R266). -/
def bindBanding (i : Nat) (rep : Option Nat) (s : State) : State :=
  let old := (s.station i).banding
  if old = rep then s
  else
    let s := match old with
      | some k => unbindRepctl k s
      | none => s
    match rep with
    | some k => bindRepctl k 2 (s.repctl k).period s
    | none => s

/-- Pixels of a full scan width at a resolution (R166). -/
def scanLimit (dpi : Nat) : Nat := if dpi = 600 then 7795 else if dpi = 1200 then 15590 else if dpi = 2400 then 31181 else 0

/-- press.station.config (0x0501; R166, R180). -/
def execPressStationConfig (rq : Req) (s : State) : Out :=
  let i := rq.u8 0
  let st := s.station i
  let b := st.beams
  let f := rq.u8 1
  let src := rq.u8 2
  let dpi := rq.u16 4
  let px := rq.u32 8
  let khz := rq.u32 12
  let sos := rq.u32 16
  let guard := rq.u32 20
  let rep := rq.u8 34
  let deltaMax := if rq.u8 33 = 0xFF then 4 else rq.u8 33
  let skew := st.skewNext.getD st.skew
  let bad := b = 0 || f < 4 || 12 < f || src < 16 || 23 < src || px < 1 || scanLimit dpi < px || khz < 20000 ||
    140000 < khz || guard < 1000 || 100000 < guard || b ≤ rq.u8 24 || b ≤ rq.u8 25 || rq.u8 24 = rq.u8 25 ||
    rq.u8 26 < 1 || 16 < rq.u8 26 || rq.u8 27 < 5 || 100 < rq.u8 27 || rq.u16 28 < 100 || 10000 < rq.u16 28 ||
    16 < rq.u8 30 || 16 < rq.u8 31 || 8 < deltaMax || (7 < rep && rep ≠ 0xFF)
  let others := (List.range 4).filter (· ≠ i)
  let srcBusy := others.any fun k => (s.station k).configured && (s.station k).bdSource = src
  let repBusy := rep ≠ 0xFF && ((s.repctl rep).mode = 1 || (s.repctl rep).mode = 3 ||
    others.any fun k => (s.station k).banding = some rep)
  commandOf .press 0x0501 rq
    [(3 < i, Status.outOfRange), (bad, Status.badValue), (srcBusy || repBusy, Status.busy),
     (pageActive s i, Status.state), (sosTooEarly s i sos skew, Status.sosTooEarly)]
    (fun s =>
      let s := bindBanding i (if rep = 0xFF then none else some rep) (dropSweeps i s)
      let s := s.modStation i fun st =>
        { st with configured := true, facets := f, bdSource := src, reverse := rq.bit 3 0, descending := rq.bit 3 1,
                  dpi := dpi, pixels := px, clockKhz := khz, sosNs := sos, guardNs := guard, lead0 := rq.u8 24,
                  lead1 := rq.u8 25, slots := rq.u8 26, slot10 := rq.u8 27, preNs := rq.u16 28,
                  deadSweeps := if rq.u8 30 = 0 then 2 else rq.u8 30, deadTelem := if rq.u8 31 = 0 then 3 else rq.u8 31,
                  monMin := rq.u8 32, deltaMax := deltaMax, banding := if rep = 0xFF then none else some rep }
      let s := noteExhausted i (deltaExhausted st) (refreshSearch s)
      let high := skew.foldl max (skew.headD 0)
      let period := ((sos + guard + lineNs s i px khz : Nat) + nearest (high * 10) 1024).toNat
      let rpm := min 30000 (60000000000 / (f * max 1 period))
      respond rq 0x0501 Status.ok (leBytes 2 b ++ leBytes 2 rpm ++ leBytes 4 period) s) s

/-- press.beam.table (0x0502; R178, R180). -/
def execPressBeamTable (rq : Req) (s : State) : Out :=
  let i := rq.u8 0
  let n := rq.u8 1
  let skew := (List.range n).map fun b => rq.i32 (4 + 4 * b)
  commandOf .press 0x0502 rq
    [(3 < i, Status.outOfRange),
     (n ≠ (s.station i).beams || skew.any fun v => 1048575 < v.natAbs, Status.badValue),
     (sosTooEarly s i (s.station i).sosNs skew, Status.sosTooEarly)]
    (fun s => respond rq 0x0502 Status.ok [] (s.modStation i fun st => { st with skewNext := some skew })) s

/-- press.pixel.table (0x0503; R175). -/
def execPressPixelTable (rq : Req) (s : State) : Out :=
  let i := rq.u8 0
  commandOf .press 0x0503 rq [(3 < i, Status.outOfRange)]
    (fun s => respond rq 0x0503 Status.ok []
      (s.modStation i fun st => { st with pcNext := some ((rq.bytes 4 16).map (·.toNat)) })) s

/-- No entry of a Delta table has g = 15 (R183). -/
def deltaTableOk (b : List Byte) : Bool := b.all fun x => x.toNat / 16 ≠ 15

/-- press.delta.table (0x0504): the load completes with PRESS_DELTA_TABLE_LOADED. -/
def execPressDeltaTable (rq : Req) (s : State) : Out :=
  let i := rq.u8 0
  let crc := BitVec.ofNat 32 (rq.u32 12)
  let s := tableRead 0x0504 rq (rq.u64 4) 512 s
  let b := s.table (rq.u64 4) 512
  let crcBad := match b with
    | some b => crc32c b ≠ crc
    | none => false
  let valueBad := match b with
    | some b => !crcBad && !deltaTableOk b
    | none => false
  commandOf .press 0x0504 rq [(3 < i, Status.outOfRange), (valueBad, Status.badValue), (crcBad, Status.tableCrc)]
    (fun s => accept rq 0x0504 []
      (s.modStation i fun st => { st with deltaLoad := st.deltaLoad ++ [(rq.ctx s 0x0504, rq.u64 4, crc)] })) s

/-- PRESS_DELTA_TABLE_LOADED (R183): the oldest load of the station ends; `host` holds what host memory returned (log
entry 22). -/
def execPressDeltaTableLoaded (station : Nat) (host : List Byte) (s : State) : Out :=
  match (s.station station).deltaLoad with
  | [] => .next s
  | (c, address, crc) :: rest =>
    let s := s.modStation station fun st => { st with deltaLoad := rest }
    match s.tableOr address 512 host with
    | some b =>
      if crc32c b = crc && deltaTableOk b then
        let t := b.map (·.toNat)
        .next (complete c Status.ok [] (s.modStation station fun st => { st with deltaNext := some (t.take 256, t.drop 256) }))
      else .next (complete c Status.failed [] s)
    | none => .next (complete c Status.failed [] s)

/-- press.delta.status (0x0505). -/
def execPressDeltaStatus (rq : Req) (s : State) : Out :=
  let i := rq.u8 0
  let st := s.station i
  commandOf .press 0x0505 rq [(3 < i, Status.outOfRange)]
    (fun s => respond rq 0x0505 Status.ok
      (leBytes 8 st.dead.toNat ++ leBytes 8 (maskOf (uncovered st.dead st.beams)) ++ st.byTelem.bytes ++ st.byBd.bytes ++
       st.stray.bytes ++ zeros 4) s) s

/-- press.delta.clear (0x0506; R182): a beam that is still dead is declared again. -/
def execPressDeltaClear (rq : Req) (s : State) : Out :=
  let i := rq.u8 0
  let mask := rq.u64 8
  let clear (l : List Nat) : List Nat := mapIx (fun b n => if mask.testBit b then 0 else n) l
  commandOf .press 0x0506 rq [(3 < i, Status.outOfRange), (pageActive s i, Status.state)]
    (fun s => respond rq 0x0506 Status.ok [] (s.modStation i fun st =>
      let st := { st with dead := st.dead &&& ~~~(BitVec.ofNat 48 mask), telemRun := clear st.telemRun, missRun := clear st.missRun }
      { st with exhausted := deltaExhausted st })) s

/-- press.station.status (0x0507). BANDING is rounded as log entry 9 says. -/
def execPressStationStatus (rq : Req) (s : State) : Out :=
  let i := rq.u8 0
  let st := s.station i
  let period := openDiv ((s.source st.bdSource).p.natAbs * 5) (8 * 65536)
  commandOf .press 0x0507 rq [(3 < i, Status.outOfRange)]
    (fun s => respond rq 0x0507 Status.ok
      (leBytes 8 st.sweepsDone.toNat ++ leBytes 4 period ++ leBytes 2 st.throttle ++ leBytesI 2 (openDivI st.bandingLast (2 ^ 15)) ++
       st.dropped.bytes ++ st.repeated.bytes ++ st.overlaps.bytes ++ st.clipped.bytes) s) s

/-- press.beam.force.dead (0x0580): a declaration by R181 that neither count of R181 takes (log entry 47). -/
def execPressBeamForceDead (rq : Req) (s : State) : Out :=
  let i := rq.u8 0
  let beams := maskBits 64 (rq.u64 8)
  commandOf .press 0x0580 rq [(3 < i || beams.any ((s.station i).beams ≤ ·), Status.outOfRange)]
    (fun s => respond rq 0x0580 Status.ok [] (beams.foldl (fun s b => declareDead i b id s) s)) s

end Sys2Proof.Machine
end

