-- ==== Sys2Proof/Machine/PressProcess.lean ====
section
/-!
DEFINITION. Pages, media, role interlocks, bias and fuser heaters: the events and the commands of group 0x06
(spec/07_press_process.md).
-/
namespace Sys2Proof.Machine

open Sys2Proof

/-- Group-specific status codes of group 0x06. -/
def Status.bandListBad : Nat := 0x8601
def Status.notFound : Nat := 0x8602

/-! ### Pages (R195 to R202) -/

/-- ARMED_JOB_NO_TRACK (R199): P of the first ARMED job of the station with no sweep committed has reached B lines (log
entry 4). -/
def execArmedJobNoTrack (station : Nat) (s : State) : Out :=
  match (s.station station).jobs.find? fun j => j.st = .armed && j.lastL0.isNone with
  | some j => .next (present 0x00C8 (some station) 0 (abortJobsAt station (fun k => k.serial = j.serial) 4 0xFF 0 s))
  | none => .next s

/-- press.media.config (0x0601; R192 to R194). -/
def execPressMediaConfig (rq : Req) (s : State) : Out :=
  let check := rq.u8 3
  let bad := 1 < rq.u8 0 || rq.u8 2 < 26 || 33 < rq.u8 2 || (15 < check && check ≠ 0xFF) || rq.u32 4 = 0 || rq.u16 12 = 0
  commandOf .press 0x0601 rq [(15 < rq.u8 1, Status.outOfRange), (bad, Status.badValue)]
    (fun s => respond rq 0x0601 Status.ok [] { s with media :=
      { kind := rq.u8 0, pace := rq.u8 1, top := rq.u8 2, check := if check = 0xFF then none else some check,
        linesPerCount := rq.u32 4, ratio := rq.u32 8, slipLimit := rq.u16 12,
        offsets := (List.range 4).map fun i => rq.i32 (16 + 4 * i) } }) s

/-- An entry of a band list (R201). -/
def bandAt (b : List Byte) (k : Nat) : Band :=
  { address := leAt b (24 * k) 8, clen := leAt b (24 * k + 8) 4, origCrc := BitVec.ofNat 32 (leAt b (24 * k + 12) 4),
    row := leAt b (24 * k + 16) 2, firstCol := leAt b (24 * k + 18) 2, ncol := leAt b (24 * k + 20) 2 }

/-- The entry keeps R201 and R202 for a page of some lines and pixels. -/
def Band.ok (b : Band) (usable lines pixels : Nat) : Bool :=
  b.address < 2 ^ 48 && 1 ≤ b.clen && b.address + b.clen ≤ usable && b.row ≤ (lines - 1) / 64 && 1 ≤ b.ncol &&
  b.firstCol + b.ncol ≤ ceilDiv pixels 512

/-- The rows ascend, none repeated. -/
def rowsAscend : List Band → Bool
  | a :: b :: rest => a.row < b.row && rowsAscend (b :: rest)
  | _ => true

/-- The band list of a submission; none where it breaks R201 or its CRC. -/
def bandList (s : State) (i address n : Nat) (crc : BitVec 32) (lines : Nat) : Option (List Band) :=
  let b := if n = 0 then some [] else if address < 2 ^ 48 then s.table address (24 * n) else none
  match b with
  | none => none
  | some b =>
    let bands := (List.range n).map (bandAt b)
    if crc32c b = crc && rowsAscend bands && bands.all (fun x => x.ok s.dram.cfg.usable lines (s.station i).pixels) then
      some bands
    else none

/-- press.page.submit (0x0602; R195, R201, R202). The feed core requests every band of the job at
once (log entry 48). -/
def execPressPageSubmit (rq : Req) (s : State) : Out :=
  let i := rq.u8 0
  let lines := rq.u32 8
  let s := if rq.u64 16 < 2 ^ 48 then tableRead 0x0602 rq (rq.u64 16) (24 * rq.u16 12) s else s
  let st := s.station i
  let bands := bandList s i (rq.u64 16) (rq.u16 12) (BitVec.ofNat 32 (rq.u32 24)) lines
  let held := (st.jobs.filter fun j => j.st ≠ .completed && j.st ≠ .aborted).length
  commandOf .press 0x0602 rq
    [(3 < i, Status.outOfRange), (lines = 0 || 4194304 < lines, Status.badValue), (8 ≤ held, Status.noResource),
     (!st.configured || st.exhausted || s.pwr.grace.isSome, Status.state), (bands.isNone, Status.bandListBad)]
    (fun s =>
      let bs := bands.getD []
      let page := BitVec.ofNat 32 (rq.u32 4)
      let j : Job :=
        { serial := s.jobSerial, pageId := page, lines := lines, bands := bs, st := .queued, ctx := rq.ctx s 0x0602,
          media := s.media, phiTop := 0, checkTop := 0, flags := 0, firstAt := 0, written := 0, dropped := 0, repeated := 0,
          cause := 0, input := 0xFF, energy := 0, abort := none, lastN := none, lastL0 := none, lastP := none,
          tables := {}, gated := false }
      let fw := if !s.stationFed i then [] else bs.map fun b =>
        ({ station := i, page := page, src := b.address, srcLen := b.clen, origCrc := b.origCrc, row := b.row,
           firstCol := b.firstCol, ncol := b.ncol, again := none, old := 0 } : FwJob)
      let s := { s with jobSerial := s.jobSerial + 1, dma := { s.dma with fwQueue := s.dma.fwQueue ++ fw } }
      accept rq 0x0602 [] (s.modStation i fun st => { st with jobs := st.jobs ++ [j] })) s

/-- press.page.abort (0x0603; R72, R162, R163, R200): ALREADY_DONE where the last commit of the page has won. -/
def execPressPageAbort (rq : Req) (s : State) : Out :=
  let page := BitVec.ofNat 32 (rq.u32 0)
  let mask := if rq.u8 4 = 0 then 0xFF else rq.u8 4
  let sts := (maskBits 4 mask).filter fun i => (s.station i).jobs.any fun j => j.pageId = page
  let mine (j : Job) : Bool := j.pageId = page
  let lost (i : Nat) (j : Job) : Bool := j.st = .completed || lastCommitDue s i j
  let live := sts.filter fun i => (s.station i).jobs.any fun j => mine j && !lost i j && j.st ≠ .aborted
  let done := sts.filter fun i => (s.station i).jobs.any fun j => mine j && lost i j
  let status := if live = [] && done ≠ [] then Status.alreadyDone else Status.ok
  commandOf .press 0x0603 rq [(sts = [], Status.notFound)]
    (fun s =>
      let s := live.foldl (fun s i =>
        abortPending i (fun j => mine j && !lost i j) 1 (abortJobsAt i (fun j => mine j && (j.st = .queued || j.st = .armed)) 1 0xFF 0 s)) s
      respond rq 0x0603 status (leBytes 1 (maskOf live) ++ leBytes 1 (maskOf done) ++ zeros 2) s) s

/-! ### Role interlocks (R203, R204, R231) -/

/-- press.interlock.assign (0x0604). -/
def execPressInterlockAssign (rq : Req) (s : State) : Out :=
  let g := rq.u8 0
  let x := s.gpiOf g
  let role := rq.u8 1
  commandOf .press 0x0604 rq
    [(31 < g, Status.outOfRange),
     (4 < role || rq.u16 4 < 10 || 15 < rq.u8 3 || 15 < rq.u8 6 || (rq.u16 8 ≠ 0 && role ≠ 3), Status.badValue),
     (x.forge && x.role ≠ 0, Status.busy)]
    (fun s => respond rq 0x0604 Status.ok [] (setRole g (fun x =>
      { x with role := role, activeLow := rq.bit 2 0, forge := false, debounce := rq.u16 4,
               stations := BitVec.ofNat 8 (rq.u8 3), heaters := BitVec.ofNat 8 (rq.u8 6), axes := BitVec.ofNat 16 (rq.u16 8) }) s)) s

/-- GPI_INPUT_EDGE (R203): a change waits out its debounce; one that returns to the debounced state is void. -/
def execGpiInputEdge (input : Nat) (level : Bool) (s : State) : Out :=
  .next (s.modGpi input fun x => { x with level := level, waiting := level ≠ x.st })

/-- INTERLOCK_DEBOUNCE_EXPIRY (R203): the input has been stable for DEBOUNCE. -/
def execInterlockDebounceExpiry (input : Nat) (s : State) : Out :=
  if !(s.gpiOf input).waiting then .next s
  else .next (roleUpdate input (s.modGpi input fun x => { x with st := x.level, waiting := false }))

/-! ### Bias (R205 to R207) -/

/-- press.bias.config (0x0605; R206, R207). -/
def execPressBiasConfig (rq : Req) (s : State) : Out :=
  let c := rq.u8 0
  let loop := rq.u8 3
  let v := rq.i16 4
  let hold := rq.bit 10 0
  let slot := if loop = 0xFF then none else some loop
  commandOf .press 0x0605 rq
    [(15 < c || 3 < rq.u8 2 || (63 < loop && loop ≠ 0xFF), Status.outOfRange),
     (3 < rq.u8 1 || rq.u16 6 = 0 || 32767 < rq.u16 6 || rq.u16 8 = 0 || 32767 < rq.u16 8 || (hold && rq.u8 1 ≠ 1) ||
       (loop ≠ 0xFF && (s.loop loop).group.isSome),
      Status.badValue),
     (loop ≠ 0xFF && boundElsewhere s loop (some c) none none, Status.busy)]
    (fun s =>
      let s := bindLoop (s.biasOf c).loop slot (some { kind := 2, index := c }) { kind := 1, index := c } s
      let s := s.modBias c fun b =>
        { b with role := rq.u8 1, station := rq.u8 2, loop := slot, fullScale := rq.u16 6, tol := rq.u16 8,
                 searchHold := hold, configured := true }
      let s := if pageActive s (rq.u8 2) then s.modBias c fun b => { b with setNext := some v } else applySetpoint c v s
      respond rq 0x0605 Status.ok [] (refreshSearch s)) s

/-- press.bias.raw (0x0680). READBACK is what the ADC reads now: a free value (log entry 76). -/
def execPressBiasRaw (rq : Req) (s : State) : Out :=
  let c := rq.u8 0
  let d := rq.u16 2
  commandOf .press 0x0680 rq
    [(15 < c, Status.outOfRange), (4095 < d && d ≠ 0xFFFF, Status.badValue),
     (pageActive s (s.biasOf c).station, Status.state)]
    (fun s =>
      let set (b : Bias) : Bias :=
        if d = 0xFFFF then { b with raw := none, duty := if b.loop.isNone && !b.held then openDuty b else b.duty }
        else { b with raw := some d, duty := if b.held then 0 else d }
      let v := Config.freeNat s.free % 4096
      respond rq 0x0680 Status.ok (leBytes 2 v ++ zeros 2)
        ({ s with free := s.free + 1 }.modBias c fun b => { set b with readback := v })) s

/-- BIAS_RANGE_TIMEOUT (R207): a readback has been outside SETPOINT ± TOL for more than 5 ms. -/
def execBiasRangeTimeout (channel : Nat) (s : State) : Out :=
  let b := s.biasOf channel
  if !b.configured || !s.coreUp heaterCore then .next s
  else
    .next (present 0x00C4 (some channel) 0 (s.modJobs b.station fun j =>
      if j.st = .active then { j with flags := j.flags ||| jobBias ||| jobDamaged } else j))

/-! ### Fuser heaters (R208 to R210) -/

/-- A heater-off cause is present: an interlock that names the heater, or the reaction to a FATAL fault. -/
def heaterHeld (s : State) (h : Nat) : Bool :=
  s.flt.fatal.isSome || s.gpi.any fun x => x.active && x.role ≠ 0 && (!x.forge || x.role = 4) && x.heaters.getLsbD h

/-- press.fuser.config (0x0606; R204, R208, R210). -/
def execPressFuserConfig (rq : Req) (s : State) : Out :=
  let h := rq.u8 0
  let loop := rq.u8 2
  let slot := if loop = 0xFF then none else some loop
  let bad := rq.u8 1 < 24 || 25 < rq.u8 1 || 1 < rq.u8 3 || rq.u16 6 < 50 || 300 < rq.u16 6 || rq.u16 8 < 10 ||
    5000 < rq.u16 8 || 2000 < rq.u16 10 || rq.u16 12 < 10 || 1000 < rq.u16 12 ||
    (loop ≠ 0xFF && (boundElsewhere s loop none (some h) none || (s.loop loop).group.isSome))
  commandOf .press 0x0606 rq
    [(3 < h || 31 < rq.u8 5 || (63 < loop && loop ≠ 0xFF), Status.outOfRange), (bad, Status.badValue),
     ((s.heater h).tripped && (unackedSource s 0x00C5 || unackedSource s 0x00C6), Status.state)]
    (fun s =>
      let s := bindLoop (s.heater h).loop slot none { kind := 2, index := h } s
      let off := heaterHeld s h
      respond rq 0x0606 Status.ok [] (s.modHeater h fun x =>
        { x with configured := true, zc := rq.u8 1, loop := slot, full := rq.u8 3 = 1, density := rq.u8 4, input := rq.u8 5,
                 overTrip := rq.u16 6, rateTrip := rq.u16 8, delay := rq.u16 10, pulse := rq.u16 12, tripped := false,
                 off := off, acc := if off then 0 else x.acc, fire := if off then 0 else x.fire, overOn := false,
                 rateOn := false, temps := if x.input = rq.u8 5 then x.temps else [] })) s

/-- HEATER_DECISION (R208): the decision for a zero crossing of the mains phase, while its source is in TRACK. -/
def execHeaterDecision (heater crossing : Nat) (s : State) : Out :=
  let x := s.heater heater
  if !x.configured || !(s.source x.zc).tracks then .next s
  else if x.full && crossing % 2 = 1 then .next s
  else
    let u := if x.off || x.tripped || x.loop.isNone then 0 else min x.u (x.density * 2 ^ 22)
    let acc := x.acc + u
    let fires := 2 ^ 30 ≤ acc
    .next (s.modHeater heater fun x =>
      { x with acc := if fires then acc - 2 ^ 30 else acc, fire := if fires then x.fire + (if x.full then 2 else 1) else x.fire })

/-- HEATER_GATE_PULSE (R208): a decided half-cycle receives its pulse, unless a heater-off cause has come before it. -/
def execHeaterGatePulse (heater : Nat) (s : State) : Out :=
  let x := s.heater heater
  if x.fire = 0 || x.off || x.tripped then .next s
  else .next (s.modHeater heater fun x => { x with fire := x.fire - 1, pulses := x.pulses + 1 })

/-- A heater trips: every heater-off cause is latched (R210). -/
def tripHeater (h source : Nat) (s : State) : State :=
  present source (some h) 0 (heaterOff h (s.modHeater h fun x => { x with tripped := true }))

/-- FUSER_TEMP_READ (R210): TEMP_INPUT is read each 1 ms and converted (R414); each condition trips the heater and raises
its fault when it begins. -/
def execFuserTempRead (heater counts : Nat) (s : State) : Out :=
  let x := s.heater heater
  if !x.configured then .next s
  else
    let th := at' s.therm.thermistors x.input {}
    let broken := counts < th.openMin || th.shortMax < counts
    let t : Int := if broken then 1020 else thermistorTemp th counts
    let fast := !broken && match x.temps[99]? with
      | some old => (x.rateTrip : Int) < 25 * (t - old)
      | none => false
    let hot := broken || 4 * (x.overTrip : Int) < t
    let s := s.modHeater heater fun x => { x with temps := (t :: x.temps).take 100, overOn := hot, rateOn := fast }
    let s := if hot && !x.overOn then tripHeater heater 0x00C6 s else s
    .next (if fast && !x.rateOn then tripHeater heater 0x00C5 s else s)

end Sys2Proof.Machine
end

