-- ==== Sys2Proof/Machine/RunAhead.lean ====
section
/-!
DEFINITION. Admission, readiness, the end of a rollback, and the commands of group 0x04 (spec/05_run_ahead.md).
-/
namespace Sys2Proof.Machine

open Sys2Proof

/-! ### Admission of vectors (R147, R148, R221, R226, R233) -/

/-- A rollback in progress covers a head. -/
def headRollingBack (s : State) (h : Nat) : Bool := match s.rollback with
  | some r => r.heads.contains h
  | none => false

/-- A vector would take its head above ENERGY_CAP (R226). -/
def Head.overCap (x : Head) (planned : Nat) : Bool :=
  x.energyCap ≠ 0 && x.energyCap * 1000000 < x.energy + x.provisional + planned

/-- The stamp at which a head's next vector begins: after its last one, or by prediction where the first is anchored
(R218, R222). -/
def nextOpens (s : State) (h : Nat) : Int :=
  let x := s.head h
  match s.forge.anchor with
  | some a => if x.anchored && x.vecs = [] then s.predict a s.forge.startPhase + x.anchorShift else x.endAt
  | none => x.endAt

/-- The head may take its next record: its feed core runs, which reserves the sequence number (R20), the layer runs and the
head is not held, retired or being rolled back. -/
def mayAdmit (s : State) (h : Nat) : Bool :=
  let x := s.head h
  s.headFed h && s.forge.layer = .exposing && x.inLayer && !x.retired && !headRollingBack s h && !(x.st = 4 && s.forge.pausing)

/-- A vector is refused by R226, which is raised once: the layer is aborted at the head's next commit, that of a vector before
it, or at once where none is (log entry 45). -/
def refuseEnergy (h : Nat) (waits : Bool) (s : State) : State :=
  if (s.head h).refused.isSome then s
  else
    let s := present 0x00E4 (some h) 0 (s.modHead h fun x => { x with refused := some s.time })
    if waits then s else decideLayer 5 s

/-- The trajectory generator reads a staged record (R27, R308, R310): 32 bytes in class 1; a word that cannot be corrected
fails the tile's check. -/
def generatorRead (r : Rec) (s : State) : State :=
  match recordTile s r with
  | none => s
  | some t =>
    if !recordReady s r then s
    else
      let base := 2048 * t.handle + 4 * (r.index % 512)
      let fetch (s : State) (k : Nat) : State :=
        if s.lag.inject.any fun p => p.1 = base + k then
          let x := lagReadWord (base + k) 0 0 1 s
          if x.1 then x.2 else tileFailed t.handle x.2
        else s
      (List.range 4).foldl fetch (classGrants 1 32 s)

/-- A vector is admitted: planned, its tile admitted, its token PENDING (R148, R233). One that a rollback has kept from its
admission is rebuilt (R158). -/
def admitVector (h : Nat) (r : Rec) (s : State) : State :=
  let opens := nextOpens s h
  let s := generatorRead r s
  let q := stagedRecord s r
  let v := { (s.head h).plan q opens (s.head h).rolled with ready := recordReady s r, readyAt := s.time }
  admitRecord r (s.modHead h fun x =>
    { x with vecs := x.vecs ++ [v], todo := x.todo.erase r, pos := q.target, endAt := v.finish,
             token := if q.emits && x.token = .none then .pending else x.token, st := if x.st = 0 then 1 else x.st })

/-- The record that a head takes next: its first, or while a fence stands before its own next vector, the first it has
received that stands before that vector too (R215, R244). -/
def Head.nextRecord (x : Head) : Option Rec :=
  match (x.todo.takeWhile fun r => r.type = 3 || r.received).find? (·.received) with
  | some r => some r
  | none => x.todo.head?

/-- A head has come to a fence: it waits there, holds there for a pause, or takes an abort that is pending (R163, R221,
R229). -/
def reachFence (h f : Nat) (s : State) : State :=
  if s.forge.fencesPassed.contains f then s.modHead h fun x => x.passFence true f s.now
  else
    let s := passFences (s.modHead h fun x => { x with st := 3, fenceAt := s.time })
    if (s.head h).st ≠ 3 then s
    else match s.forge.abort with
      | some a => decideLayer a.1 s
      | none => if s.forge.pausing then maybePaused (holdHead h s) else s

/-- FORGE_VECTOR_ADMIT (R147, R221, R226): the head's next record, a vector within its window, or a fence, which the head
reaches at the end of its last vector (log entry 4). -/
def execForgeVectorAdmit (head : Nat) (s : State) : Out :=
  let x := s.head head
  if !mayAdmit s head then .next s
  else match x.nextRecord with
    | none => .next s
    | some r =>
      if r.type = 3 then
        if x.st = 3 || !x.vecs.all (·.committed) then .next s
        else .next (reachFence head (pattern 32 r.x0) (s.advanceSub x.endAt))
      else
        let opens := nextOpens s head
        let near := opens ≤ s.now + x.ra.inForce * 1600 * 64
        if !near && x.vecs.any fun v => !v.committed then .next s
        else if x.overCap (x.planned r x.pos) then .next (refuseEnergy head (x.vecs.any fun v => !v.committed) s)
        else .next (admitVector head r s)

/-! ### Tile checks and readiness (R150, R151, R158) -/

/-- Admitted vectors whose records are staged and good become ready, and are as staged (R24, R148). -/
def readyVectors (h : Nat) (s : State) : State :=
  let waits (v : Vec) : Bool := !v.committed && v.admitted && !v.ready
  let s := ((s.head h).vecs.filter waits).foldl (fun s v => generatorRead v.r s) s
  s.modHead h fun x => { x with vecs := x.vecs.map fun v =>
    if !v.committed && v.admitted && !v.ready && recordReady s v.r then
      { v with ready := true, readyAt := s.time, r := stagedRecord s v.r }
    else v }

/-- What waits for the tiles of an owner is ready where they are. -/
def readyOwner (o : TileOwner) (s : State) : State :=
  match o with
  | .station i => readySweeps i s
  | .head _ => (List.range s.nHeads).foldl (fun s h => readyVectors h s) s
  | .free => s

/-- The count of re-expanded or restaged tiles of an owner (runahead.status). -/
def countAgain (o : TileOwner) (s : State) : State :=
  let more (r : RunAhead) : RunAhead := { r with tileAgain := r.tileAgain.inc }
  match o with
  | .station i => s.modStation i fun st => { st with ra := more st.ra }
  | .head h => s.modHead h fun x => { x with ra := more x.ra }
  | .free => s

/-- The tile awaits what is to be written into it: it has been granted but not opened, its firmware job has not completed
(R359), or it has failed and is to be expanded or staged again (R151). -/
def awaitsFill (s : State) (handle : Nat) : Bool :=
  (s.tile handle).stale || (s.tile handle).blank || (jobOfTile s handle).isSome || (s.lag.granted.any fun g => g.1 = handle) ||
  s.dma.fwQueue.any fun j => (j.columns s).any fun k => (j.tile s k).any fun t => t.handle = handle

/-- TILE_ADMISSION_CHECK_DONE (R27, R150, R151, R308, R310): in class 1, every word of the payload and the header is read,
and the payload's CRC compared with the header's. A tile that is free, being filled or VERIFIED is not checked, nor one
that awaits its contents. -/
def execTileAdmissionCheckDone (handle : Nat) (s : State) : Out :=
  let t := s.tile handle
  if !t.allocated || t.fill.isSome || t.verified || t.id = 0 || awaitsFill s handle then .next s
  else
    let r := lagReadTile handle 1 false (classGrants 1 16384 s)
    let r' := lagReadTile handle 1 true r.2
    let s := if t.failed = 0 then r'.2 else countAgain t.owner r'.2
    if r.1 && r'.1 && tileGood s handle then
      .next (readyOwner t.owner (s.modTile handle fun t => { t with verified := true, admitted := true }))
    else .next (readyOwner t.owner (tileFailed handle s))

/-- UNIT_READY (R154, R158): a unit discarded by a rollback is admitted again, with the loop outputs current now, and is
ready if its tiles are; a vector that ENERGY_CAP allows no more is refused (R226). -/
def execUnitReady (u : UnitId) (s : State) : Out :=
  match u with
  | .sweep i n =>
    match (s.station i).sweeps.find? fun w => w.n = n && !w.committed && !w.admitted with
    | none => .next s
    | some _ =>
      if rollingBack s i then .next s
      else
        let w := planSweep s i n true
        let s := admitTiles i w (noteSweep i w s)
        let w := prepareSweep s i w
        .next (s.modStation i fun st => { st with sweeps := st.sweeps.map fun v => if v.n = n then w else v })
  | .vector h q =>
    match (s.head h).vecs.find? fun v => v.r.seqNo = q && !v.committed && !v.admitted with
    | none => .next s
    | some v =>
      let waits := (s.head h).nextVec.map (fun v => v.r.seqNo) ≠ some q
      if headRollingBack s h then .next s
      else if (s.head h).overCap v.planned then .next (refuseEnergy h waits s)
      else
        let s := generatorRead v.r s
        let cap := (s.head h).powerCap
        .next (admitRecord v.r (s.modHead h fun x =>
          let x := x.modVec q fun v => { v with admitted := true, ready := recordReady s v.r, readyAt := s.time, r := stagedRecord s v.r, cap := cap }
          { x with token := if v.r.emits && x.token = .none then .pending else x.token }))

/-! ### The end of a rollback (R156, R157) -/

/-- A rollback has ended, or goes on, past step 6, 5 µs after its latest trigger: 0x0085, once (R156, R157). -/
def rollbackLate (r : Rollback) (s : State) : State :=
  if !r.late && r.at'.toNat + 8000 < s.time.toNat then present 0x0085 none 0 s else s

/-- ROLLBACK_COMPLETE (R156, R157): the Weir resumes, so long after the first trigger (log entry 4); the stations and heads of
the rollback take its duration, and a forced one is answered. -/
def execRollbackComplete (durationNs : Nat) (s : State) : Out :=
  match s.rollback with
  | none => .next s
  | some r =>
    let longest (x : RunAhead) : RunAhead := { x with maxNs := max x.maxNs (min durationNs (2 ^ 32 - 1)) }
    let s := { s.advanceTo (r.first.toNat + ceilDiv (durationNs * 8) 5) with rollback := none }
    let s := r.stations.foldl (fun s i => s.modStation i fun st => { st with ra := longest st.ra }) s
    let s := r.heads.foldl (fun s h => s.modHead h fun x => { x with ra := longest x.ra }) s
    .next (rollbackLate r (r.forced.foldl (fun s f =>
      answer f.1 Status.ok (leBytes 8 f.2.toNat ++ leBytes 4 durationNs ++ zeros 4) s) s))

/-- ROLLBACK_OVERTIME (R156, R157): the rollback is not complete 5 µs after its latest trigger (log entry 4). -/
def execRollbackOvertime (s : State) : Out :=
  match s.rollback with
  | some r => .next (rollbackLate r { s.advanceTo (r.at'.toNat + 8001) with rollback := some { r with late := true } })
  | none => .next s

/-! ### Commands -/

/-- SCOPE is not that of the personality in use. -/
def scopeBad (s : State) (scope : Nat) : Bool :=
  !((scope = 0 && s.mci.personality = .press) || (scope = 1 && s.mci.personality = .forge))

/-- INDEX names no station or head. -/
def indexBad (s : State) (scope i : Nat) : Bool := if scope = 0 then 3 < i else s.nHeads ≤ i

/-- A window is stored; it waits while a page or layer is active (R149). -/
def RunAhead.config (r : RunAhead) (window margin : Nat) (active : Bool) : RunAhead :=
  { r with window := window, margin := margin, inForce := if active then r.inForce else window }

/-- runahead.config (0x0401). -/
def execRunaheadConfig (rq : Req) (s : State) : Out :=
  let scope := rq.u8 0
  let i := rq.u8 1
  let w := if rq.u16 2 = 0 then (if scope = 0 then 64 else 200) else rq.u16 2
  let margin := if rq.u16 4 = 0 then 100 else rq.u16 4
  let active := if scope = 0 then pageActive s i else layerActive s
  let wBad := if scope = 0 then w < 16 || 1024 < w else w < 2 || 2000 < w
  command 0x0401 rq
    [(indexBad s scope i, Status.outOfRange), (scopeBad s scope || wBad || margin < 20 || 10000 < margin, Status.badValue)]
    (fun s =>
      let s := if scope = 0 then s.modStation i fun st => { st with ra := st.ra.config w margin active }
        else s.modHead i fun x => { x with ra := x.ra.config w margin active }
      respond rq 0x0401 Status.ok (leBytes 2 w ++ leBytes 1 (bit active) ++ zeros 1) s) s

/-- DEPTH of runahead.status (log entry 46): lines of the admitted sweeps not committed, or µs to the start of the last
admitted vector. -/
def depthOf (s : State) (scope i : Nat) : Nat :=
  if scope = 0 then ((s.station i).sweeps.filter fun w => !w.committed && w.admitted).length * (s.station i).beams
  else match ((s.head i).vecs.filter fun v => !v.committed && v.admitted).getLast? with
    | some v => (v.opens - s.now).toNat / 102400
    | none => 0

/-- runahead.status (0x0402). -/
def execRunaheadStatus (rq : Req) (s : State) : Out :=
  let scope := rq.u8 0
  let i := rq.u8 1
  let r := if scope = 0 then (s.station i).ra else (s.head i).ra
  command 0x0402 rq [(indexBad s scope i, Status.outOfRange), (scopeBad s scope, Status.badValue)]
    (fun s => respond rq 0x0402 Status.ok
      (leBytes 2 r.inForce ++ leBytes 2 (min 65535 (depthOf s scope i)) ++ zeros 4 ++ leBytes 8 r.committed.toNat ++
       r.rb.flatMap (·.bytes) ++ r.missed.bytes ++ r.underruns.bytes ++ r.tileFail.bytes ++ r.tileAgain.bytes ++
       r.tileBlank.bytes ++ leBytes 4 r.maxNs) s) s

/-- runahead.rollback.force (0x0480): a trigger with code 6; the reply follows with the end of the rollback. -/
def execRunaheadRollbackForce (rq : Req) (s : State) : Out :=
  let mask := rq.u32 0
  let ls := if mask = 0 then List.range s.nLinks else maskBits 32 mask
  command 0x0480 rq [(ls.any (s.nLinks ≤ ·), Status.outOfRange)]
    (fun s =>
      let c := rq.ctx s 0x0480
      let s := rollbackTrigger 6 (linkLanes ls) s
      { s with rollback := s.rollback.map fun r => { r with forced := r.forced ++ [(c, s.time)] } }) s

end Sys2Proof.Machine
end

