-- ==== Sys2Proof/Machine/StartupOps.lean ====
section
/-!
DEFINITION. Resets (R35) and the start sequence (spec/23_startup.md): what a reset leaves, the boot block, the sources of
the firmware image.
-/
namespace Sys2Proof.Machine

open Sys2Proof

/-! ### Resets (R35, R430, R485) -/

/-- An input pin keeps its level through a reset, and its state is taken from the level at once (R203). -/
def Gpi.afterReset (x : Gpi) : Gpi := { level := x.level, st := x.level }

def Limit.afterReset (x : Limit) : Limit := { level := x.level, st := x.level }

def Axis.afterReset (x : Axis) : Axis := { limNeg := x.limNeg.afterReset, limPos := x.limPos.afterReset }

/-- The sequencer through a device reset: its slots, its state and every rail enable are unchanged (R430); it no longer
pulls nSYSFAULT for the watchdog or a FATAL reaction (R434, R465), and its requests have gone. Its waits go on, with device
time at `now` starting again from 0. -/
def Pwr.afterReset (p : Pwr) (now : BitVec 64) : Pwr :=
  { p with stepAt := p.stepAt - now, minOffAt := p.minOffAt - now, grace := p.grace.map fun t => t - now,
           rails := p.rails.map fun r => { r with dropAt := r.dropAt - now }, upCtx := [], downCtx := [], pullWdog := false, pullFatal := false, railFaults := {} }

/-- The sequencer after a power-on reset (R430); what it sees of its pins remains. -/
def Pwr.afterPowerOn (p : Pwr) : Pwr :=
  { sysIn := p.sysIn, supplyLost := p.supplyLost, pressHeld := p.pressHeld, vbatMv := p.vbatMv }

/-- Gate causes after a reset: the link is not up (6), nSTOP (0), and a shutdown of the rails that still lasts (3). -/
def causesAfterReset (s : State) : BitVec 7 := (if s.nStop then 0x40 else 0x41) ||| if powerGate s then 0x08 else 0x00

/-! ### The boot block (R494, R495) -/

def State.flashBytes (s : State) (o n : Nat) : List Byte := cellsGet 0xFF s.boot.flash o n

/-- Where copy 0 or 1 of the boot block lies. -/
def blockAt (k : Nat) : Nat := 0x1000 * k

/-- A valid copy of the boot block, its bytes (R494). -/
def bootBlock (s : State) (k : Nat) : Option (List Byte) :=
  let b := s.flashBytes (blockAt k) 32
  if leAt b 0 4 = 0x4B4C4242 ∧ leAt b 28 4 = (crc32c (b.take 28)).toNat then some b else none

def generation (b : List Byte) : Nat := leAt b 20 4

/-- The number and the bytes of the valid copy with the higher GENERATION (R494); equal ones tie. -/
def newerBlock (s : State) : Option (Nat × List Byte) :=
  match bootBlock s 0, bootBlock s 1 with
  | some a, some b =>
    if generation b < generation a then some (0, a)
    else if generation a < generation b then some (1, b)
    else if Config.tie (generation a) (generation b) then some (0, a) else some (1, b)
  | some a, none => some (0, a)
  | none, some b => some (1, b)
  | none, none => none

/-- The image slots (R494). -/
def slotAt : BootSource → Nat
  | .slotB => 0x01010000
  | _ => 0x00010000

def slotSize : Nat := 0x01000000

/-- The slot that is not preferred by the newer copy (R503). -/
def updateSlot (s : State) : BootSource :=
  let prefer := match newerBlock s with
    | some (_, b) => leAt b 24 1
    | none => 0
  if prefer = 1 then .slotA else .slotB

/-- An update that is interrupted leaves the slot that it writes with open bytes, and the newer boot block copy in force
(R503; log entry 56). -/
def updateInterrupt (s : State) : State :=
  match s.boot.update with
  | none => s
  | some (_, _, n) =>
    { s with free := s.free + n,
             boot := { s.boot with update := none, flash := cellsSet 0xFF s.boot.flash (slotAt (updateSlot s)) (freeBytes s.free n) } }

/-- Device state is reset (R35): all but Atoll, what a reset of its kind leaves of the sequencer, the OTP cells, the flash,
the levels of input pins and what has already left the device. A burn or an update in progress is interrupted (R485, R503). -/
def resetState (pwr : Pwr) (cause : BitVec 4) (burned : BitVec 32) (s : State) : State :=
  let s := updateInterrupt (otpInterrupt burned s)
  let fatal : BitVec 16 := match s.flt.fatal with
    | some q => BitVec.ofNat 16 q
    | none => 0xFFFF
  let links := List.replicate 24 { causes := causesAfterReset { s with pwr := pwr } }
  { pending := s.pending, part := s.part, free := s.free, atoll := s.atoll, pwr := pwr, nStop := s.nStop, links := links,
    gpi := s.gpi.map Gpi.afterReset, motion := s.motion.map Axis.afterReset,
    otp := { words := s.otp.words, redirects := s.otp.redirects },
    boot := { flash := s.boot.flash, nmr := s.boot.nmr, latchedCause := cause, latchedFatal := fatal },
    mci := { sent := s.mci.sent }, dma := { toHost := s.dma.toHost } }

/-- Device state after a device reset (R35). -/
def deviceReset (cause : BitVec 4) (burned : BitVec 32) (s : State) : State := resetState (s.pwr.afterReset s.time) cause burned s

/-- Step 1 of R492: the straps are sampled (R491), and the latched cause is copied into BOOT_CAUSE (R501). -/
def beginStart (straps : BitVec 4) (s : State) : State :=
  { s with boot := { s.boot with straps := straps, cause := s.boot.latchedCause, fatalSource := s.boot.latchedFatal, nmr := false },
           clk := { s.clk with refIn := straps.getLsbD 0 } }

/-- The start sequence begins after a reset, unless nMR holds the device in it (R437). -/
def startOrHold (straps : BitVec 4) (s : State) : State := if s.boot.nmr then s else beginStart straps s

/-- The default record (R495). -/
def defaultRecord : List Byte := leBytes 1 0x0F ++ leBytes 1 2 ++ leBytes 1 16 ++ zeros 13

/-- The boot block is read (R492, R494, R495). -/
def readBootBlock (s : State) : State :=
  let b := (newerBlock s).map (·.2)
  let r := match b with
    | some b => (b.drop 4).take 16
    | none => defaultRecord
  let c := dramCfgOf r
  let prefer := match b with
    | some b => leAt b 24 1
    | none => 0
  { s with dram := { s.dram with cfg := c, hours := if c.hours = 0 then 24 else c.hours },
           boot := { s.boot with prefer := prefer, blockDefault := b.isNone } }

/-! ### Image sources (R498 to R500) -/

/-- The slots with the preferred one first; PREFER 1 names slot B. -/
def slotOrder (prefer : Nat) : List BootSource := if prefer = 1 then [.slotB, .slotA] else [.slotA, .slotB]

/-- The order of SOURCE, without the push where PCIE_PUSH_DISABLE removes it (R498). -/
def bootOrder (s : State) : List BootSource :=
  let source := s.boot.straps.toNat / 2 % 4
  let push := if s.otp.pushOff then [] else [BootSource.push]
  if source = 1 then slotOrder s.boot.prefer else if source = 2 then push else slotOrder s.boot.prefer ++ push

/-- The sources not yet tried and rejected, in order; the push remains. -/
def bootLeft (s : State) : List BootSource :=
  (bootOrder s).filter fun b => match b with
    | .slotA => !s.boot.slotABad
    | .slotB => !s.boot.slotBBad
    | .push => true

/-- BAR2 window 1 is set to DRAM address 0 once the push is what remains (R499). -/
def openPush (s : State) : State :=
  if (bootLeft s).head? = some .push then { s with dma := { s.dma with windows := modAt s.dma.windows 0 fun _ => some 0 } }
  else s

/-- The start ends in HALTED with BOOT_STATUS.FAIL (R335, R500): the supervisor core alone runs, in its boot ROM. -/
def startFails (fail : BitVec 4) (s : State) : State :=
  { s with mci := { s.mci with st := .halted, mciMax := 0x34 }, boot := { s.boot with fail := fail },
           flt := { s.flt with watched := true } }

/-- The bytes of a source, by offset and number. -/
def sourceBytes (s : State) (b : BootSource) (o n : Nat) : List Byte := match b with
  | .push => s.dramRead o n
  | b => s.flashBytes (slotAt b + o) n

/-- BOOT_STATUS.IMAGE of a source (R498). -/
def imageCode : BootSource → BitVec 4
  | .slotA => 1
  | .slotB => 2
  | .push => 3

/-- A source is marked as tried and rejected; a rejected push clears the PUSH word and waits again (R498, R499). -/
def rejectSource (b : BootSource) (s : State) : State := match b with
  | .slotA => { s with boot := { s.boot with slotABad := true } }
  | .slotB => { s with boot := { s.boot with slotBBad := true } }
  | .push => { s with boot := { s.boot with push := 0, pushResult := 2 } }

/-- The supervisor core reads a pushed image, of the length its header gives, from DRAM (R319, R330). -/
def readPushed (b : BootSource) (s : State) : State := match b with
  | .push => (dramFetch supervisorCore 0 (min (min slotSize (192 + leAt (s.dramRead 0 16) 12 4)) s.dram.cfg.usable) 0 s).2
  | _ => s

/-- An image has been read and is checked (R492, R497, R498, R500): cores 0 to 8 are released into it, or the next source
follows. -/
def checkSource (b : BootSource) (s : State) : State :=
  let s := readPushed b s
  if imageOk s slotSize (sourceBytes s b) then
    let version := BitVec.ofNat 32 (leAt (sourceBytes s b 0 12) 8 4)
    let result : BitVec 32 := if b = .push then 1 else s.boot.pushResult
    { s with held := 0, boot := { s.boot with image := imageCode b, fwVersion := version, pushResult := result } }
  else
    let s := rejectSource b s
    if bootLeft s = [] then startFails 3 s else openPush s

/-- What the boot ROM does when its step of a source is due: nothing while another source is, HALTED where no key is
acceptable or no source remains (R500). -/
def bootTry (b : BootSource) (k : State → State) (s : State) : State :=
  if s.mci.st ≠ .boot || s.boot.image ≠ 0 then s
  else if acceptedKeys s = [] then startFails 2 s
  else match (bootLeft s).head? with
    | none => startFails 3 s
    | some c => if c = b then k s else s

end Sys2Proof.Machine
end

