-- ==== Sys2Proof/Machine/Startup.lean ====
section
/-!
DEFINITION. Resets (R35, R437, R441) and the start-up sequence (spec/23_startup.md), with the commands of group 0x16.
-/
namespace Sys2Proof.Machine

open Sys2Proof

/-! ### Resets -/

/-- POWER_ON_RESET (R35, R430, R491, R501): the core supply reaches its operating range. A FATAL source that a supply failure
latched stays latched. -/
def execPowerOnReset (straps : BitVec 4) (s : State) : Out :=
  if !s.atoll.main then .next s
  else
    let burned := BitVec.ofNat 32 (Config.freeNat s.free)
    let t := resetState s.pwr.afterPowerOn 0 burned { s with free := s.free + 1 }
    let latched := if s.timeRuns || s.flt.fatal.isSome then t.boot.latchedFatal else s.boot.latchedFatal
    .next (startOrHold straps { t with boot := { t.boot with latchedFatal := latched } })

/-- DEVICE_RESET (R35, R491, R501): at its time where one is scheduled (log entry 4), with the cause that scheduled it, nMR
where none did; while nMR is low the device stays in reset (R437). -/
def execDeviceReset (straps : BitVec 4) (burned : BitVec 32) (s : State) : Out :=
  if !s.atoll.main then .next s
  else
    let s := match s.mci.resetAt with
      | some t => s.advanceTo t.toNat
      | none => s
    .next (startOrHold straps (deviceReset (if s.mci.resetAt.isSome then s.boot.latchedCause else 1) burned s))

/-- nMR causes a device reset and clears a latch; the device is held in reset while it stays low (R437). -/
def masterReset (s : State) : State :=
  let s := deviceReset 1 (BitVec.ofNat 32 (Config.freeNat s.free)) { s with free := s.free + 1 }
  faultUngate (clearLatch { s with boot := { s.boot with nmr := true } })

/-- NMR_ASSERT (R437): low for 10 µs or more resets, below 1 µs is ignored, and between them either may happen. -/
def execNmrAssert (widthNs : Nat) (s : State) : Out :=
  if !s.atoll.main || s.boot.nmr || widthNs < 1000 then .next s
  else if 10000 ≤ widthNs then .next (masterReset s)
  else if Config.freeNat s.free % 2 = 1 then .next (masterReset { s with free := s.free + 1 })
  else .next { s with free := s.free + 1 }

/-- NMR_RELEASE (R437, R491, R492): nMR rises and the start sequence begins. -/
def execNmrRelease (straps : BitVec 4) (s : State) : Out :=
  if !s.boot.nmr then .next s
  else if s.atoll.main then .next (beginStart straps s)
  else .next { s with boot := { s.boot with nmr := false } }

/-- MAIN_SUPPLY_FAIL (R441, R485): device state is lost, a burn is interrupted, and Atoll runs on. -/
def execMainSupplyFail (burned : BitVec 32) (s : State) : Out :=
  if s.atoll.main then .next (resetState s.pwr.afterPowerOn 0 burned s) else .next s

/-! ### The sequence (R492) -/

/-- SYSTEM_PLL_LOCK (R78, R492): device time starts at 0, and the boot block is read. -/
def execSystemPllLock (s : State) : Out :=
  if s.timeRuns || !s.atoll.main || s.boot.nmr then .next s
  else .next (readBootBlock { s with timeRuns := true, time := 0 })

/-- DR_TRAIN_FAIL of each failing channel, and the start ends in HALTED (R335, R500). -/
def trainingFails (channels step : BitVec 4) (s : State) : State :=
  let s := startFails 1 { s with boot := { s.boot with dramCh := channels, dramStep := step } }
  let chans := (List.range 4).filter fun c => channels.getLsbD c
  if chans = [] then present 0x0166 none 0 s else chans.foldl (fun s c => present 0x0166 (some c) 0 s) s

/-- DRAM_TRAINING_DONE (R316, R334, R335): the fill begins, or a failed channel or record stops the start; the channels
and the step that a bad record names are open (log entry 56). -/
def execDramTrainingDone (failed : BitVec 4) (stepFailed : Nat) (s : State) : Out :=
  if !s.timeRuns || s.mci.st ≠ .reset || s.dram.trained then .next s
  else if !s.dram.cfg.ok then
    let k := s.free
    .next (trainingFails (BitVec.ofNat 4 (Config.freeNat k)) (BitVec.ofNat 4 (Config.freeNat (k + 1))) { s with free := k + 2 })
  else
    let bad := failed &&& BitVec.ofNat 4 s.dram.cfg.channels
    .next (if bad ≠ 0 then trainingFails bad (BitVec.ofNat 4 stepFailed) s
      else { s with dram := { s.dram with trained := true } })

/-- DRAM_FILL_DONE (R36, R334, R438, R492): the memories hold zeros, the supervisor core is released and STATE is BOOT;
RAILM_EN drops where a power-down ended during the reset. -/
def execDramFillDone (s : State) : Out :=
  if !s.dram.trained || s.mci.st ≠ .reset || !s.otp.checked then .next s
  else
    let s := { s with mci := { s.mci with st := .boot, mciMax := 0x34 }, flt := { s.flt with watched := true },
                      dram := { s.dram with mem := [], errs := [], poison := [] }, lag := { s.lag with data := [], tiles := [] } }
    let s := openPush s
    .next (if s.pwr.dropMain then followMain { s with pwr := { s.pwr with dropMain := false } } else s)

/-- BOOT_IMAGE_LOADED (R494, R496 to R498, R500): the image of a source has been read and is checked. -/
def execBootImageLoaded (source : BootSource) (s : State) : Out := .next (bootTry source (checkSource source) s)

/-- BOOT_PUSH_POLL (R499): a pushed image is checked once the PUSH word holds its value. -/
def execBootPushPoll (s : State) : Out :=
  .next (bootTry .push (fun s => if s.boot.push = 0x48535550 then checkSource .push s else s) s)

/-- What BOOT_READY raises (R444, R460, R504). -/
def bootRaises (s : State) : List Nat :=
  let other : Bool := (s.boot.image = 1 && s.boot.prefer = 1) || (s.boot.image = 2 && s.boot.prefer ≠ 1)
  (if other then [0x02C0] else []) ++ (if s.boot.image = 3 then [0x02C1] else []) ++
  (if s.boot.blockDefault then [0x02C3] else []) ++ (if s.boot.cause = 3 then [0x0289] else []) ++
  (if s.atoll.forcedNew then [0x0245] else []) ++ if s.atoll.rtcValid then [] else [0x0247]

/-- READY_MS: the time since step 1, of which the system PLLs take the first 0.5 ms (R492; log entry 56). -/
def readyMs (s : State) : Nat := openDiv (s.time.toNat + 800000) ticksPerMs

/-- BOOT_READY (R439, R492, R498, R499): STATE is READY, window 1 is unset again, and AUTO_ON or the button asks for the
rails. -/
def execBootReady (s : State) : Out :=
  if s.mci.st ≠ .boot || s.boot.image = 0 then .next s
  else
    let raises := bootRaises s
    let ms := readyMs s
    let s := { s with mci := { s.mci with st := .ready }, boot := { s.boot with readyMs := ms },
                      atoll := { s.atoll with forcedNew := false },
                      dma := { s.dma with windows := modAt s.dma.windows 0 fun _ => none } }
    let s := raises.foldl (fun s q => presentFw q none 0 s) s
    .next (if s.atoll.autoOn || s.atoll.wakeCause = 1 then onRequest s else s)

/-! ### Commands -/

/-- BOOT_STATUS (R500). -/
def bootStatus (b : Boot) : Nat :=
  b.dramStep.toNat * 2 ^ 20 + b.dramCh.toNat * 2 ^ 16 + b.image.toNat * 2 ^ 12 + b.fail.toNat * 2 ^ 8 +
  128 * bit b.slotABad + 64 * bit b.slotBBad + 32 * bit b.blockDefault

/-- startup.boot.status (0x1601). -/
def execStartupBootStatus (rq : Req) (s : State) : Out :=
  command 0x1601 rq [] (fun s => respond rq 0x1601 Status.ok
    (leBytes 4 s.boot.straps.toNat ++ leBytes 4 (bootStatus s.boot) ++
     leBytes 4 (s.boot.fatalSource.toNat * 65536 + s.boot.cause.toNat) ++ leBytes 4 s.boot.readyMs) s) s

/-- The personality of a number. -/
def personalityOf (n : Nat) : Personality := if n = 1 then .press else if n = 2 then .forge else .none

/-- startup.personality.select (0x1602; R6, R58, R502). -/
def execStartupPersonalitySelect (rq : Req) (s : State) : Out :=
  let p := rq.u8 0
  command 0x1602 rq
    [(p = 0 || 2 < p || !(permitted s).testBit (p - 1), Status.badValue),
     (s.mci.st ≠ .ready || s.boot.select.isSome, Status.state),
     (s.mci.inUse.toNat / 16 = 2 && p = 2, Status.wrongPersonality)]
    (fun s => accept rq 0x1602 [] { s with boot := { s.boot with select := some (rq.ctx s 0x1602, personalityOf p) } }) s

/-- PERSONALITY_SELECT_DONE (R6, R502): STATE is RUN. -/
def execPersonalitySelectDone (s : State) : Out :=
  if !s.coreUp hostCore then .next s
  else match s.boot.select with
  | none => .next s
  | some (c, p) =>
    if s.mci.st ≠ .ready then .next s
    else .next (complete c Status.ok []
      { s with mci := { s.mci with st := .run, personality := p }, boot := { s.boot with select := none } })

/-- The host-service core reads a firmware image in DRAM (R319, R330). -/
def firmwareRead (a n : Nat) (s : State) : State :=
  if s.coreUp hostCore then (dramFetch hostCore a (min (min n slotSize) (s.dram.cfg.usable - a)) 0 s).2 else s

/-- startup.fw.update (0x1603; R497, R503). -/
def execStartupFwUpdate (rq : Req) (s : State) : Out :=
  let a := rq.u64 0
  let n := rq.u32 8
  let s := if served 0x1603 rq s then firmwareRead a n s else s
  command 0x1603 rq
    [(s.dram.cfg.usable < a + n, Status.badValue), (s.boot.update.isSome, Status.busy),
     (!imageOk s (min n slotSize) (fun o k => s.dramRead (a + o) k), 0x9601)]
    (fun s => accept rq 0x1603 [] { s with boot := { s.boot with update := some (rq.ctx s 0x1603, a, n) } }) s

/-- The copy an update writes: the older one. -/
def olderCopy (s : State) : Nat := match newerBlock s with
  | some (k, _) => 1 - k
  | none => Config.freeNat s.free % 2

/-- GENERATION of that copy: one above the newer copy; open where there is none (log entry 56). -/
def nextGeneration (s : State) : Nat := match newerBlock s with
  | some (_, b) => (generation b + 1) % 2 ^ 32
  | none => Config.freeNat (s.free + 1) % 2 ^ 32

/-- The 32 bytes of a boot block copy (R494). -/
def blockBytes (record : List Byte) (gen prefer : Nat) : List Byte :=
  let b := leBytes 4 0x4B4C4242 ++ record ++ leBytes 4 gen ++ leBytes 1 prefer ++ zeros 3
  b ++ leBytes 4 (crc32c b).toNat

/-- FW_UPDATE_DONE (R503): the slot is written and read back; then the older boot block copy names it, with the Reserved
bytes of its record 0 (R17, R316). A slot that fails
its read-back holds open bytes (log entry 56). -/
def execFwUpdateDone (readBackOk : Bool) (s : State) : Out :=
  match s.boot.update with
  | none => .next s
  | some (c, a, n) =>
    let s := firmwareRead a n s
    if !s.coreUp hostCore then .next s else
    let slot := updateSlot s
    let copy := olderCopy s
    let gen := nextGeneration s
    let record := match newerBlock s with
      | some (_, b) => (b.drop 4).take 12 ++ zeros 4
      | none => defaultRecord
    let s := { s with boot := { s.boot with update := none }, free := s.free + 2 }
    let reply := leBytes 1 (imageCode slot).toNat ++ zeros 3 ++ leBytes 4 gen
    if readBackOk then
      let flash := cellsSet 0xFF s.boot.flash (slotAt slot) (s.dramRead a n)
      let flash := cellsSet 0xFF flash (blockAt copy) (blockBytes record gen (if slot = .slotB then 1 else 0))
      .next (complete c Status.ok reply { s with boot := { s.boot with flash := flash } })
    else
      let flash := cellsSet 0xFF s.boot.flash (slotAt slot) (freeBytes s.free n)
      .next (complete c Status.failed reply
        (presentFw 0x02C2 none 0 { s with boot := { s.boot with flash := flash }, free := s.free + n }))

end Sys2Proof.Machine
end

