-- ==== Sys2Proof/Machine/Weir.lean ====
section
/-!
DEFINITION. The Weir and the lane sequencers in front of it: EVENT_QUEUE and WEIR_HANDOFF (spec/04_lanes_and_links.md,
spec/05_run_ahead.md).
-/
namespace Sys2Proof.Machine

open Sys2Proof

/-! ### Commits of sweeps (R143, R158 to R163, R187 to R189, R198) -/

/-- A sweep of a station is changed. -/
def State.modSweep (s : State) (i n : Nat) (f : Sweep → Sweep) : State :=
  s.modStation i fun st => { st with sweeps := st.sweeps.map fun w => if w.n = n then f w else w }

/-- Flags are added to the job of a sweep. -/
def markJob (i : Nat) (w : Sweep) (f : BitVec 16) (s : State) : State :=
  match w.job with
  | some k => s.modJobs i fun j => if j.serial = k then { j with flags := j.flags ||| f } else j
  | none => s

/-- Lines of a page in the range from `a` to below `b`. -/
def linesIn (lines : Nat) (a b : Int) : Nat := (min (lines : Int) b - max 0 a).toNat

/-- The job of a sweep at its commit: lines, flags and states (R187, R188, R197, R198). `first` is its first sweep. -/
def Job.commit (j : Job) (st : Station) (w : Sweep) (first : Bool) (now : BitVec 64) : Job :=
  let b : Int := st.beams
  let dropped := if first then linesIn j.lines 0 w.l0 else match j.lastL0 with
    | some l => linesIn j.lines (l + b) w.l0
    | none => 0
  let repeated := match j.lastL0 with
    | some l => linesIn j.lines w.l0 (l + b)
    | none => 0
  let spedUp : Bool := decide (1005 * b * 2 ^ 32 < 1000 * (w.p - j.lastP.getD w.prevP))
  let last := j.lastN = some w.n
  let f := j.flags ||| (if w.dead = 0 then 0 else jobDelta) ||| (if uncovered w.dead st.beams = [] then 0 else jobDamaged) |||
    (if spedUp then jobOverspeed else 0) ||| (if first && 0 < w.lead then jobDamaged ||| jobLeadLost else 0) |||
    (if last && j.gated then jobGatedTail else 0)
  { j with st := if last then .completed else .active, flags := f, firstAt := if first then now else j.firstAt,
           written := j.written + linesIn j.lines w.l0 (w.l0 + b), dropped := j.dropped + dropped,
           repeated := j.repeated + repeated, lastL0 := some w.l0, lastP := some w.p }

/-- Search firing ends at the commit of the first sweep in TRACK (R172). -/
def endSearch (i : Nat) (s : State) : State :=
  if !(s.station i).search then s
  else
    let isSearch (e : QEvent) : Bool := match e.plan with
      | .search _ => true
      | _ => false
    let s := (s.station i).links.foldl (fun s l => s.modLink l (Link.keepEvents fun _ e => !isSearch e)) s
    s.modStation i fun st => { st with search := false }

/-- A job's sweep commits: the station's counts, the raises of R188 and R198, and the start of its page. -/
def commitJob (i : Nat) (w : Sweep) (j : Job) (s : State) : State :=
  let st := s.station i
  let first := j.lastL0.isNone
  let j' := j.commit st w first s.time
  let s := s.modJobs i fun k => if k.serial = j.serial then j' else k
  let s := s.modStation i fun st =>
    { st with dropped := st.dropped.add (j'.dropped - j.dropped), repeated := st.repeated.add (j'.repeated - j.repeated),
              lastSweep := some w.n }
  let s := if first && 0 < w.lead then present 0x00C2 (some i) 0 s else s
  let s := if j'.flags &&& jobOverspeed ≠ 0 && j.flags &&& jobOverspeed = 0 then present 0x00A2 (some i) 0 s else s
  if first then startPage i j s else s

/-- The due commit of a sweep, when its first event is handed off: the state after it, and whether it is committed. A
rebuilt sweep commits when it is ready (R158); one that is not ready for another cause is an underrun (R160). -/
def commitSweep (i : Nat) (w : Sweep) (s : State) : State × Bool :=
  let st := s.station i
  let job := sweepJob st w
  if w.committed then (s, true)
  else match job.bind (fun j => abortTaken s j.abort) with
  | some cause => (abortJobsAt i (fun j => some j.serial = w.job) cause 0xFF 0 s, false)
  | none =>
    if rollingBack s i || !w.admitted then (s, false)
    else
      let under := !w.ready
      let f := stationFactor s i
      let s := s.modSweep i w.n fun w => { w with committed := true, blank := under, throttle := f }
      let s := s.modStation i fun st =>
        { st with sweepsDone := st.sweepsDone + 1, throttle := f, bandingLast := w.banding,
                  ra := { st.ra with committed := st.ra.committed + 1,
                                     underruns := if under then st.ra.underruns.inc else st.ra.underruns } }
      let s := if under then present 0x0080 (some i) 0 (markJob i w jobDamaged s) else s
      let s := endSearch i s
      let s := match sweepJob (s.station i) w with
        | some j => commitJob i w j s
        | none => s
      (syncPrivilege (refreshSearch s), true)

/-- A pixel of a sweep has not been handed off. -/
def pixelsLeft (i : Nat) (w : Sweep) (s : State) : Bool :=
  let pixel (e : QEvent) : Bool := e.unit = some (.sweep i w.n) && match e.plan with
    | .pixel _ _ => true
    | _ => false
  w.next.any (· < (s.station i).pixels) || (s.station i).links.any fun l => (s.link l).queues.any fun q => q.any pixel

/-- With the last pixel event of a sweep, the tiles that it is the last of its page to read are released (R303). -/
def releaseRows (i n : Nat) (s : State) : State :=
  let st := s.station i
  match st.sweeps.find? fun w => w.n = n with
  | none => s
  | some w => match sweepJob st w with
    | none => s
    | some j =>
      if pixelsLeft i w s then s
      else
        let ends (t : Tile) : Int := 64 * (t.origin.toNat + 1 : Nat)
        let over' := j.st = .completed || j.st = .aborted
        let done (t : Tile) : Bool :=
          t.allocated && t.owner = .station i && t.page = j.pageId && (over' || ends t ≤ w.l0 + st.beams) &&
          st.sweeps.all fun v => v.n = n || !sweepReads i st v t
        (s.lag.tiles.filter done).foldl (fun s t => releaseTile t.handle s) s

/-- The last event of a sweep has been handed off. -/
def endSweep (i n : Nat) (s : State) : State :=
  match (s.station i).sweeps.find? fun w => w.n = n with
  | none => s
  | some w =>
    if w.left ≠ 0 then s
    else reportJobs i (s.modStation i fun st => { st with sweeps := st.sweeps.filter fun v => v.n ≠ n })

/-- A pixel of a sweep as it leaves: VALUE and GATE, w', and whether w' has been clipped (R160, R176, R177). A blank
sweep leaves with GATE 0 on every event. -/
def Sweep.emits (w : Sweep) (e : QEvent) : BitVec 24 × Bool × Nat × Bool :=
  match e.plan, e.pixel with
  | .pixel _ _, some (pc, boost) =>
    let raw := scaledWidth (pc % 64) boost w.banding w.throttle
    let w' := min 63 raw
    let lit := !w.blank && w' ≠ 0
    (if lit then BitVec.ofNat 24 (pc / 64 * 64 + w') else 0, e.gate && lit, w', !w.blank && 63 < raw)
  | .pixel _ _, none => (0, false, 0, false)
  | _, _ => (e.value, e.gate && !w.blank, 0, false)

/-- A rebuilt event that is too late is dropped (R158): its sweep commits if it has not, and counts it as gone. -/
def dropEvent (i b : Nat) (w : Sweep) (e : QEvent) (s : State) : State :=
  let r := commitSweep i w s
  if !r.2 then r.1
  else match (r.1.station i).sweeps.find? fun v => v.n = w.n with
    | none => r.1
    | some w =>
      let s := r.1.modSweep i w.n fun w => { w with left := w.left - 1, next := modAt w.next b (· + 1) }
      let s := s.modStation i fun st => { st with ra := { st.ra with missed := st.ra.missed.inc } }
      let s := if (w.emits e).2.1 then markJob i w jobDamaged s else s
      paperOutGates i (endSweep i w.n (releaseRows i w.n (present 0x0084 (some i) 0 s)))

/-! ### Queueing -/

/-- Every sweep before one has queued all its events of a beam. -/
def sweepsQueued (st : Station) (n b : Nat) : Bool :=
  (st.sweeps.takeWhile fun w => w.n ≠ n).all fun w => at' w.next b 0 = beamEvents st w b

/-- A pixel that BD_GUARD gates (R180). -/
def overlapEvent (i : Nat) (w : Sweep) (s : State) : State :=
  present 0x00A5 (some i) 0 (markJob i w jobDamaged (s.modStation i fun st => { st with overlaps := st.overlaps.inc }))

/-- A Press sequencer queues an event of beam `b`. -/
def queuePress (i l k b : Nat) (e : PlanEvent) (s : State) : State :=
  let st := s.station i
  match eventSweep st e with
  | none => s
  | some w =>
    let ev := pressEvent s i w b e
    if (!w.admitted && !w.committed) || planIndex st w b e ≠ some (at' w.next b 0) || !sweepsQueued st w.n b ||
       !placed s ev.anchor || !queueDue s l k ev 20 then s
    else
      let s := s.advanceSub (queueAt s l k ev 20)
      let s := match e with
        | .pixel _ x => laneFetch i w b x s
        | _ => s
      let ev := pressEvent s i w b e
      let stamp := orderedStamp (s.link l) k ev.stamp
      let pixel : Bool := match e with
        | .pixel _ _ => true
        | _ => false
      let guarded := pixel && bdTime s i ((w.n + 1) % 2 ^ 48) - nsSub st.guardNs < stamp
      if w.rebuilt && stamp - (s.link l).d < s.now + nsSub 150 then dropEvent i b w ev s
      else
        let s := s.modSweep i w.n fun w => { w with next := modAt w.next b (· + 1) }
        let s := if guarded then overlapEvent i w s else s
        pushEvent l k { ev with gate := ev.gate && !guarded } s

/-- A Press sequencer queues a pixel of search firing (R172): as early as the Weir can hand it off (log entry 40). -/
def queueSearch (i l k b : Nat) (e : PlanEvent) (s : State) : State :=
  let st := s.station i
  if !st.search || (b ≠ st.lead0 && b ≠ st.lead1) then s
  else
    let x := s.link l
    let soon := s.now + x.d + x.leadSub
    let stamp := match (at' x.lanes k {}).last with
      | some t => max soon (t + st.pitch / 65536)
      | none => soon
    let ev := firing e none stamp none st.pitch.toNat
    if queueDue s l k ev 20 then pushEvent l k ev (s.advanceSub (queueAt s l k ev 20)) else s

/-- A head's earlier vectors, and a jump in front of them, have queued all their events of a lane. -/
def vectorsQueued (x : Head) (q k : Nat) : Bool :=
  ((x.vecs.takeWhile fun v => v.r.seqNo ≠ q).all fun v => at' v.next k 0 = laneEvents x v k) &&
  match x.move with
  | some (_, _, _, n) => x.moveNext = (n, n)
  | none => true

/-- The head as the power events of a vector see it whose loops start again at its emission on: with gain 1.0 (R251). -/
def Head.restarted (x : Head) : Head := if x.resetFor ≠ [] then { x with g := 2 ^ 15 } else x

/-- A Forge sequencer queues an event of a vector. -/
def queueVector (h k q : Nat) (e : PlanEvent) (s : State) : State :=
  let s := retimeHead h s
  let x := s.head h
  match x.vecs.find? fun v => v.r.seqNo = q with
  | none => s
  | some v =>
    let anchor := if x.anchored && x.vecs.head?.map (fun v => v.r.seqNo) = some q then s.forge.anchor else none
    let isPower : Bool := match e with
      | .power _ _ => true
      | _ => false
    let isFirst : Bool := match e with
      | .power _ 0 => true
      | _ => false
    let due := vectorEvent h x anchor v k e
    let lead := if isPower then 10 else 20
    if (!v.admitted && !v.committed) || vectorIndex x v k e ≠ some (at' v.next k 0) || !vectorsQueued x q k ||
       !placed s anchor || !queueDue s h k due lead then s
    else
      let s := s.advanceSub (queueAt s h k due lead)
      let s := if isFirst && x.startReset && v.r.meltpool then s.modHead h fun x => { x with resetFor := x.resetFor ++ [q] } else s
      let ev := vectorEvent h (s.head h).restarted anchor v k e
      let s := s.modHead h fun x => x.modVec q fun v => { v with next := modAt v.next k (· + 1) }
      pushEvent h k ev s

/-- The set-points of a jump that belongs to no vector (R220). -/
def queueMove (h k i : Nat) (e : PlanEvent) (s : State) : State :=
  let x := s.head h
  match x.move with
  | none => s
  | some (start, a, b, n) =>
    let next := if k = 2 then x.moveNext.1 else x.moveNext.2
    let ev : QEvent :=
      { plan := e, unit := none, value := x.coordinate k (along a b (i + 1) n), gate := true,
        stamp := start + (64 * i * x.tsp : Nat), anchor := none, pitch := 0, pixel := none, gain := 0 }
    if (k ≠ 2 && k ≠ 3) || i ≠ next || n ≤ i || !x.vecs.all (fun v => at' v.next k 0 = laneEvents x v k) ||
       !queueDue s h k ev 20 then s
    else
      let s := (s.advanceSub (queueAt s h k ev 20)).modHead h fun x =>
        { x with moveNext := if k = 2 then (i + 1, x.moveNext.2) else (x.moveNext.1, i + 1) }
      pushEvent h k ev s

/-- The events of lanes 4, 5 and 6 at arm (R220). The GATE of lanes 5 and 6 is left to the head: a free value (log
entry 41). -/
def queueArm (h k : Nat) (e : PlanEvent) (s : State) : State :=
  let x := s.head h
  if !x.armNext.contains k then s
  else
    let value := if k = 4 then s.forge.zFocus else if k = 5 then x.auxA else x.auxB
    let gate := k = 4 || Config.freeNat s.free % 2 = 1
    let ev : QEvent :=
      { plan := e, unit := none, value := value, gate := gate, stamp := s.now + (s.link h).d + (s.link h).leadSub,
        anchor := none, pitch := 0, pixel := none, gain := 0 }
    let s := { s with free := s.free + 1 }
    pushEvent h k ev (s.modHead h fun x => { x with armNext := x.armNext.filter (· ≠ k) })

/-- EVENT_QUEUE (R98 to R102, R145, R170 to R180, R218 to R222, R250). An event that is not the next of its lane's plan, is
held, or comes only after a hand-off that its lane awaits has no effect (log entry 4). -/
def execEventQueue (lane : Nat) (e : PlanEvent) (s : State) : Out :=
  let l := lane / 8
  let k := lane % 8
  if s.nLinks ≤ l then .next s
  else if s.mci.personality = .press then
    match linkStation s l with
    | none => .next s
    | some i =>
      let b := 8 * (s.station i).links.idxOf l + k
      .next (match e with
        | .search _ => queueSearch i l k b e s
        | _ => queuePress i l k b e s)
  else if s.mci.personality = .forge then
    .next (match e with
      | .arm => queueArm l k e s
      | .move i => queueMove l k i e s
      | _ => match eventSeq e with
        | some q => queueVector l k q e s
        | none => s)
  else .next s

/-! ### Hand-offs of Press -/

/-- A Press event of a committed sweep leaves (R134, R176, R177); the first pixel of its line that leaves on the lane asks for a
TIME block (R122). -/
def handoffPress (i l k : Nat) (w : Sweep) (e : QEvent) (s : State) : State :=
  let (value, gate, width, clipped) := w.emits e
  let dark := (s.link l).dark e.stamp
  let pixel := match e.plan with
    | .pixel _ _ => true
    | _ => false
  let fresh := pixel && (at' (s.link l).lanes k {}).line ≠ some (i, w.n)
  let s := if clipped then s.modStation i fun st => { st with clipped := st.clipped.inc } else s
  let s := s.modJobs i fun j =>
    if some j.serial = w.job then
      { j with energy := if gate && !dark then min (j.energy + width) (2 ^ 64 - 1) else j.energy,
               gated := j.gated || (dark && gate),
               flags := if dark && gate && j.st = .completed then j.flags ||| jobGatedTail else j.flags }
    else j
  let s := match e.plan with
    | .slot n j _ => if dark || !gate || (s.station i).slotFired.contains (n, j) then s
      else s.modStation i fun st => { st with slotFired := st.slotFired ++ [(n, j)] }
    | _ => s
  let s := lateCheck l e.stamp (sendEvent l k (if dark then 0 else value) (gate && !dark) e.stamp e.pitch fresh s)
  let s := if fresh && (s.link l).sends then
      s.modLink l fun x => { x with lanes := modAt x.lanes k fun t => { t with line := some (i, w.n) } }
    else s
  let s := s.modSweep i w.n fun w => { w with left := w.left - 1 }
  paperOutGates i (endSweep i w.n (if pixel then releaseRows i w.n s else s))

/-! ### Commits of vectors (R143, R158 to R163, R221 to R224, R233, R236, R238) -/

/-- No vector staged in a record's tile remains to commit: the tile is released (R303). -/
def releaseRecord (r : Rec) (s : State) : State :=
  let same (q : Rec) : Bool := q.primary = r.primary && q.index / 512 = r.index / 512 && q.type ≠ 3
  if s.heads.any fun x => x.todo.any same || x.vecs.any fun v => !v.committed && same v.r then s
  else match recordTile s r with
    | some t => releaseTile t.handle s
    | none => s

/-- A vector has become ready only after its commit was due (R158, R160). -/
def Vec.lateReady (v : Vec) (x : Link) : Bool := x.handoffAt v.opens < 64 * (v.readyAt.toNat : Int)

/-- A vector commits: the factor is latched, its token becomes ACTIVE, and the head and the layer count it. One that has
been held starts when it is released, and later stamps of the head with it (R158, R160, R223); the first vector of an
anchored head stays anchored, that much later (log entry 44). The last commit of a pausing head can leave the layer PAUSED
(R229). -/
def commitVec (h : Nat) (v : Vec) (s : State) : State :=
  let x := s.head h
  let late : Int := s.now - (s.link h).handoffAt v.opens
  let held := (x.st = 2 || x.st = 4 || v.rebuilt || v.lateReady (s.link h)) && 0 < late
  let first := x.anchored && x.vecs.head?.map (fun v => v.r.seqNo) = some v.r.seqNo
  let s := if held then shiftHead h late s else s
  let theta := headFactor s h
  let us := match v.waited with
    | some t => (s.time - t).toNat / 1600
    | none => 0
  let q := v.r.seqNo
  let v' := ((s.head h).vecs.find? fun v => v.r.seqNo = q).getD v
  let on := v'.start + x.trackSub
  let act : Active := { r := v.r, start := v'.start, periods := v.periods, since := s.time, on := on,
                        off := on + 64 * (v.duration : Int), intruded := false }
  let s := s.modHead h fun x =>
    let x := x.modVec q fun v => { v with committed := true, theta := theta }
    { x with st := if x.retired then 6 else 1, theta := theta, lastSeq := q, longWait := false, rolled := false,
             anchorShift := if held && first then x.anchorShift + late else x.anchorShift,
             straitWait := x.straitWait.add us, waitMaxUs := max x.waitMaxUs us,
             implicit := if v.jumpN = 0 then x.implicit else x.implicit.inc,
             token := if !v.r.emits then x.token
               else if x.vecs.any (fun v => !v.committed && v.r.emits && v.admitted) then .pending else .none,
             actives := if v.r.emits then x.actives ++ [act] else x.actives,
             ra := { x.ra with committed := x.ra.committed + 1 } }
  let f := s.forge
  let s := { s with forge := { f with
    vectors := min (f.vectors + 1) (2 ^ 64 - 1), firstCommit := if f.vectors = 0 then s.time else f.firstCommit,
    flags := if theta < 1024 then f.flags ||| layerThrottled else f.flags,
    implicit := if v.jumpN = 0 then f.implicit else f.implicit.inc } }
  maybeComplete (maybePaused (passFences (releaseRecord v.r s)))

/-- What stops a head at a due commit, in the order of R163: an abort of the layer, a refusal by R226, a retirement, a
pause. What reached the Weir in this tick waits for the next due commit, but is taken at once where the head holds. -/
def headStopped (h : Nat) (holds : Bool) (s : State) : Option State :=
  let x := s.head h
  let took (t : BitVec 64) : Bool := holds || t.toNat < s.time.toNat
  match s.forge.abort.filter fun a => took a.2 with
  | some a => some (decideLayer a.1 s)
  | none =>
    if (x.refused.filter took).isSome then some (decideLayer 5 s)
    else if x.retired && took x.stopAt then some (stopRetired h s)
    else if x.pausing && took x.stopAt then some (maybePaused (holdHead h s))
    else none

/-- The vector is not ready at its due commit: the head holds, which is an underrun for a cause other than rollback (R158,
R160). -/
def holdLate (h : Nat) (v : Vec) (s : State) : State :=
  if (s.head h).st = 4 then s
  else if v.rebuilt then s.modHead h fun x => { x with st := 4 }
  else present 0x0081 (some h) 0 (s.modHead h fun x => { x with st := 4, ra := { x.ra with underruns := x.ra.underruns.inc } })

/-- The vector's token is not CLEARED: the head waits at Strait (R236, R238). -/
def waitStrait (h : Nat) (v : Vec) (s : State) : State :=
  if v.waited.isSome then s.modHead h fun x => { x with st := 2 }
  else s.modHead h fun x =>
    let x := x.modVec v.r.seqNo fun v => { v with waited := some s.time }
    { x with st := 2, waits := x.waits.inc }

/-- The due commit of a vector (R163): what stops the head first, then readiness, and Strait. A head that Strait has made
wait commits at the tick after the check that clears it (R236). -/
def commitVector (h : Nat) (v : Vec) (e : PlanEvent) (s : State) : State × Bool :=
  let x := s.head h
  let busy := match s.rollback with
    | some r => r.heads.contains h
    | none => false
  let opening := match e with
    | .setpoint _ 0 => true
    | _ => false
  if v.committed then (s, true)
  else if !opening || x.nextVec.map (fun v => v.r.seqNo) ≠ some v.r.seqNo || s.forge.layer ≠ .exposing then (s, false)
  else match headStopped h false s with
  | some s => (s, false)
  | none =>
    if busy || !v.admitted then (s, false)
    else
      let s := if v.ready && v.lateReady (s.link h) && v.waited.isNone then holdLate h v s else s
      let strait := v.r.emits && x.token ≠ .cleared
      if !v.ready || strait then
        ((headStopped h true s).getD (if v.ready then waitStrait h v s else holdLate h v s), false)
      else (commitVec h v (if v.waited.isSome then s.advanceTo (x.clearedAt.toNat + 1) else s), true)

/-- Energy of lane 0 up to an event of a stamp (R225). -/
def countEnergy (h : Nat) (value : Nat) (gate : Bool) (stamp : Int) (s : State) : State :=
  s.modHead h fun x =>
    let whole := (2 ^ 24 - 1) * 102400
    let sum := x.energyRem + match x.lastPower with
      | some (v, t) => v * x.fullScale * (stamp - t).toNat
      | none => 0
    { x with energy := min (x.energy + sum / whole) (2 ^ 64 - 1), energyRem := sum % whole,
             lastPower := if gate then some (value, stamp) else none }

/-- A Forge event of a committed vector leaves (R134, R225, R250). A VALUE above 24 bits wraps (R118, log entry 72). -/
def handoffVector (h k : Nat) (v : Vec) (e : QEvent) (s : State) : State :=
  let x := s.head h
  let lim := powerLimit (min v.r.power x.powerMax) x.powerMax v.theta v.cap e.gain
  let power := k = 0 && e.gate
  let dark := (s.link h).dark e.stamp && k ≤ 1
  let value : BitVec 24 := if dark then 0 else if power then BitVec.ofNat 24 lim.1 else e.value
  let gate := e.gate && !dark
  let s := if power then s.modHead h fun x =>
      { x with sel := lim.2, wonM := if lim.2 = 0 then x.wonM.inc else x.wonM, wonT := if lim.2 = 1 then x.wonT.inc else x.wonT,
               wonC := if lim.2 = 2 then x.wonC.inc else x.wonC }
    else s
  let s := if !(dark && e.gate) then s
    else
      let done := s.forge.terminal = some 0 && s.forge.layer = .closing
      { s with forge := { s.forge with gated := true, flags := if done then s.forge.flags ||| layerGatedTail else s.forge.flags } }
  let s := if k = 0 then countEnergy h value.toNat gate e.stamp s else s
  let s := match k, e.plan with
    | 1, .emission _ on => s.modHead h fun x => { x with emitting := on }
    | _, _ => s
  let fresh := 64 ≤ (at' (s.link h).lanes k {}).since
  let s := lateCheck h e.stamp (sendEvent h k value gate e.stamp 0 fresh s)
  let s := { s with forge := { s.forge with lastHandoff := s.time } }
  let s := s.modHead h fun x =>
    let x := x.modVec v.r.seqNo fun v => { v with left := v.left - 1 }
    let left := x.vecs.filter fun v => !(v.committed && v.left = 0)
    { x with vecs := left, anchored := x.anchored && left.head?.map (fun v => v.r.seqNo) = x.vecs.head?.map fun v => v.r.seqNo }
  finishLayer s

/-- A Forge event of no vector leaves: a park jump, a jog, or the events at arm (R220). -/
def handoffHead (h k : Nat) (e : QEvent) (s : State) : State :=
  let fresh := 64 ≤ (at' (s.link h).lanes k {}).since
  let s := lateCheck h e.stamp (sendEvent h k e.value e.gate e.stamp 0 fresh s)
  match e.plan with
  | .move _ =>
    let s := s.modHead h fun x =>
      { x with moveLeft := x.moveLeft - 1, move := if x.moveLeft ≤ 1 then none else x.move }
    finishLayer s
  | _ => s

/-! ### WEIR_HANDOFF -/

/-- It leaves the queue. -/
def State.popFront (s : State) (l k : Nat) : State :=
  let stamp := (s.front l k).map (·.stamp)
  s.modLink l fun x => { x with queues := modAt x.queues k fun q => q.drop 1,
                                lanes := modAt x.lanes k fun t => { t with handed := stamp } }

/-- The unit of an event commits if this is its due commit (R143). -/
def commitUnit (e : QEvent) (s : State) : State × Bool :=
  match e.unit with
  | none => (s, true)
  | some (.sweep i n) => match (s.station i).sweeps.find? fun w => w.n = n with
    | some w => commitSweep i w s
    | none => (s, true)
  | some (.vector h q) => match (s.head h).vecs.find? fun v => v.r.seqNo = q with
    | some v => commitVector h v e.plan s
    | none => (s, true)

/-- The event that its unit allows to leave is sent. -/
def sendFront (l k : Nat) (e : QEvent) (s : State) : State :=
  match e.unit with
  | some (.sweep i n) => match (s.station i).sweeps.find? fun w => w.n = n with
    | some w => handoffPress i l k w e s
    | none => s
  | some (.vector h q) => match (s.head h).vecs.find? fun v => v.r.seqNo = q with
    | some v => handoffVector h k v e s
    | none => s
  | none =>
    if s.mci.personality = .forge then handoffHead l k e s
    else
      let dark := (s.link l).dark e.stamp
      lateCheck l e.stamp (sendEvent l k (if dark then 0 else e.value) (e.gate && !dark) e.stamp e.pitch false s)

/-- WEIR_HANDOFF (R93, R125, R143, R144, R158 to R163, R225). The event at the front of the lane's queue is handed off
when its time comes (log entry 4); the first of a unit commits it, or the unit does not commit and the event stays. -/
def execWeirHandoff (lane : Nat) (s : State) : Out :=
  let l := lane / 8
  let k := lane % 8
  if s.nLinks ≤ l then .next s
  else match s.front l k with
    | none => .next s
    | some e =>
      if !placed s e.anchor then .next s
      else
        let s := s.advanceSub ((s.link l).handoffAt e.stamp)
        let r := commitUnit e s
        if !r.2 then .next r.1
        else match r.1.front l k with
          | none => .next r.1
          | some e => .next (sendFront l k e (r.1.popFront l k))

end Sys2Proof.Machine
end

