-- ==== Sys2Proof/Machine/Dispatch.lean ====
section
/-!
DEFINITION. The meaning of each command: one arm per constructor of `Instr`.
-/
namespace Sys2Proof.Machine

open Sys2Proof

def exec (i : Instr) (s : State) : Host.Outcome State Fault Refusal :=
  match i with
  | .requestDoorbell path p value => Sys2Proof.Machine.execRequestDoorbell path p value s
  | .requestConsume p => Sys2Proof.Machine.execRequestConsume p s
  | .replyPost p => Sys2Proof.Machine.execReplyPost p s
  | .replyCiAdvance p value => Sys2Proof.Machine.execReplyCiAdvance p value s
  | .eventPost code payload => Sys2Proof.Machine.execEventPost code payload s
  | .mciReplyLate p seq => Sys2Proof.Machine.execMciReplyLate p seq s
  | .sessionIdleTimeout p => Sys2Proof.Machine.execSessionIdleTimeout p s
  | .urgentGo value => Sys2Proof.Machine.execUrgentGo value s
  | .urgentReplyPost => Sys2Proof.Machine.execUrgentReplyPost s
  | .msixVectorUnmask v => Sys2Proof.Machine.execMsixVectorUnmask v s
  | .registerWrite path win offset data => Sys2Proof.Machine.execRegisterWrite path win offset data s
  | .hostLinkReset => Sys2Proof.Machine.execHostLinkReset s
  | .hello rq => Sys2Proof.Machine.execHello rq s
  | .coreInfo rq => Sys2Proof.Machine.execCoreInfo rq s
  | .corePing rq => Sys2Proof.Machine.execCorePing rq s
  | .coreReset rq => Sys2Proof.Machine.execCoreReset rq s
  | .coreSessionOpen rq => Sys2Proof.Machine.execCoreSessionOpen rq s
  | .coreSessionClose rq => Sys2Proof.Machine.execCoreSessionClose rq s
  | .coreVlogRead rq => Sys2Proof.Machine.execCoreVlogRead rq s
  | .urgentStop rq => Sys2Proof.Machine.execUrgentStop rq s
  | .urgentHalt rq => Sys2Proof.Machine.execUrgentHalt rq s
  | .urgentRelease rq => Sys2Proof.Machine.execUrgentRelease rq s
  | .timebaseSourceSet rq => Sys2Proof.Machine.execTimebaseSourceSet rq s
  | .timebaseSourceStatus rq => Sys2Proof.Machine.execTimebaseSourceStatus rq s
  | .timebaseSyncConfig rq => Sys2Proof.Machine.execTimebaseSyncConfig rq s
  | .timebaseFilterRaw rq => Sys2Proof.Machine.execTimebaseFilterRaw rq s
  | .edgeCapture source e => Sys2Proof.Machine.execEdgeCapture source e s
  | .trackerEdgeUpdate source => Sys2Proof.Machine.execTrackerEdgeUpdate source s
  | .sourceLostTimeout source => Sys2Proof.Machine.execSourceLostTimeout source s
  | .syncFrameStart => Sys2Proof.Machine.execSyncFrameStart s
  | .syncSlotReceive dev slot => Sys2Proof.Machine.execSyncSlotReceive dev slot s
  | .syncMasterSilent => Sys2Proof.Machine.execSyncMasterSilent s
  | .syncPeerSilent dev => Sys2Proof.Machine.execSyncPeerSilent dev s
  | .syncJoinMeasure offset => Sys2Proof.Machine.execSyncJoinMeasure offset s
  | .syncJoinEcho => Sys2Proof.Machine.execSyncJoinEcho s
  | .syncJoinDeadline => Sys2Proof.Machine.execSyncJoinDeadline s
  | .laneMap rq => Sys2Proof.Machine.execLaneMap rq s
  | .linkConfig rq => Sys2Proof.Machine.execLinkConfig rq s
  | .linkStatus rq => Sys2Proof.Machine.execLinkStatus rq s
  | .laneGateRelease rq => Sys2Proof.Machine.execLaneGateRelease rq s
  | .linkConfigRaw rq => Sys2Proof.Machine.execLinkConfigRaw rq s
  | .gateReleaseAt link => Sys2Proof.Machine.execGateReleaseAt link s
  | .commaLock link => Sys2Proof.Machine.execCommaLock link s
  | .capReplyReceive link payload => Sys2Proof.Machine.execCapReplyReceive link payload s
  | .ackReceive link ctype payload => Sys2Proof.Machine.execAckReceive link ctype payload s
  | .probeEchoReceive link payload roundTrip => Sys2Proof.Machine.execProbeEchoReceive link payload roundTrip s
  | .telemetryReceive link payload => Sys2Proof.Machine.execTelemetryReceive link payload s
  | .statusReceive link bits => Sys2Proof.Machine.execStatusReceive link bits s
  | .backchannelCodeError link => Sys2Proof.Machine.execBackchannelCodeError link s
  | .resyncRelock link => Sys2Proof.Machine.execResyncRelock link s
  | .ackTimeout link => Sys2Proof.Machine.execAckTimeout link s
  | .capReplyTimeout link => Sys2Proof.Machine.execCapReplyTimeout link s
  | .telemetryTimeout link => Sys2Proof.Machine.execTelemetryTimeout link s
  | .commaLossTimeout link => Sys2Proof.Machine.execCommaLossTimeout link s
  | .linkTrainDeadline link => Sys2Proof.Machine.execLinkTrainDeadline link s
  | .linkRetrainTimer link => Sys2Proof.Machine.execLinkRetrainTimer link s
  | .violationWindowStart => Sys2Proof.Machine.execViolationWindowStart s
  | .timesyncSend link => Sys2Proof.Machine.execTimesyncSend link s
  | .keepaliveSend link => Sys2Proof.Machine.execKeepaliveSend link s
  | .gateWordRepeat link => Sys2Proof.Machine.execGateWordRepeat link s
  | .nstopFall widthNs => Sys2Proof.Machine.execNstopFall widthNs s
  | .nstopRise widthNs => Sys2Proof.Machine.execNstopRise widthNs s
  | .eventQueue lane e => Sys2Proof.Machine.execEventQueue lane e s
  | .weirHandoff lane => Sys2Proof.Machine.execWeirHandoff lane s
  | .runaheadConfig rq => Sys2Proof.Machine.execRunaheadConfig rq s
  | .runaheadStatus rq => Sys2Proof.Machine.execRunaheadStatus rq s
  | .runaheadRollbackForce rq => Sys2Proof.Machine.execRunaheadRollbackForce rq s
  | .forgeVectorAdmit head => Sys2Proof.Machine.execForgeVectorAdmit head s
  | .tileAdmissionCheckDone handle => Sys2Proof.Machine.execTileAdmissionCheckDone handle s
  | .rollbackComplete durationNs => Sys2Proof.Machine.execRollbackComplete durationNs s
  | .rollbackOvertime => Sys2Proof.Machine.execRollbackOvertime s
  | .unitReady u => Sys2Proof.Machine.execUnitReady u s
  | .pressStationConfig rq => Sys2Proof.Machine.execPressStationConfig rq s
  | .pressBeamTable rq => Sys2Proof.Machine.execPressBeamTable rq s
  | .pressPixelTable rq => Sys2Proof.Machine.execPressPixelTable rq s
  | .pressDeltaTable rq => Sys2Proof.Machine.execPressDeltaTable rq s
  | .pressDeltaTableLoaded station host => Sys2Proof.Machine.execPressDeltaTableLoaded station host s
  | .pressDeltaStatus rq => Sys2Proof.Machine.execPressDeltaStatus rq s
  | .pressDeltaClear rq => Sys2Proof.Machine.execPressDeltaClear rq s
  | .pressStationStatus rq => Sys2Proof.Machine.execPressStationStatus rq s
  | .pressBeamForceDead rq => Sys2Proof.Machine.execPressBeamForceDead rq s
  | .armedJobNoTrack station => Sys2Proof.Machine.execArmedJobNoTrack station s
  | .pressMediaConfig rq => Sys2Proof.Machine.execPressMediaConfig rq s
  | .pressPageSubmit rq => Sys2Proof.Machine.execPressPageSubmit rq s
  | .pressPageAbort rq => Sys2Proof.Machine.execPressPageAbort rq s
  | .pressInterlockAssign rq => Sys2Proof.Machine.execPressInterlockAssign rq s
  | .pressBiasConfig rq => Sys2Proof.Machine.execPressBiasConfig rq s
  | .pressFuserConfig rq => Sys2Proof.Machine.execPressFuserConfig rq s
  | .pressBiasRaw rq => Sys2Proof.Machine.execPressBiasRaw rq s
  | .gpiInputEdge input level => Sys2Proof.Machine.execGpiInputEdge input level s
  | .interlockDebounceExpiry input => Sys2Proof.Machine.execInterlockDebounceExpiry input s
  | .biasRangeTimeout channel => Sys2Proof.Machine.execBiasRangeTimeout channel s
  | .heaterDecision heater crossing => Sys2Proof.Machine.execHeaterDecision heater crossing s
  | .heaterGatePulse heater => Sys2Proof.Machine.execHeaterGatePulse heater s
  | .fuserTempRead heater counts => Sys2Proof.Machine.execFuserTempRead heater counts s
  | .forgeHeadConfig rq => Sys2Proof.Machine.execForgeHeadConfig rq s
  | .forgeProgramLoad rq => Sys2Proof.Machine.execForgeProgramLoad rq s
  | .forgeProgramCheckDone slot => Sys2Proof.Machine.execForgeProgramCheckDone slot s
  | .forgeLayerRecoat rq => Sys2Proof.Machine.execForgeLayerRecoat rq s
  | .recoatTimeout => Sys2Proof.Machine.execRecoatTimeout s
  | .forgeLayerArm rq => Sys2Proof.Machine.execForgeLayerArm rq s
  | .forgeLayerExpose rq => Sys2Proof.Machine.execForgeLayerExpose rq s
  | .forgeLayerPause rq => Sys2Proof.Machine.execForgeLayerPause rq s
  | .forgeLayerResume rq => Sys2Proof.Machine.execForgeLayerResume rq s
  | .forgeLayerAbort rq => Sys2Proof.Machine.execForgeLayerAbort rq s
  | .forgeLayerStatus rq => Sys2Proof.Machine.execForgeLayerStatus rq s
  | .forgeInterlockAssign rq => Sys2Proof.Machine.execForgeInterlockAssign rq s
  | .forgeHeadJog rq => Sys2Proof.Machine.execForgeHeadJog rq s
  | .fenceTimeout head => Sys2Proof.Machine.execFenceTimeout head s
  | .graceExpiry input => Sys2Proof.Machine.execGraceExpiry input s
  | .forgeStraitConfig rq => Sys2Proof.Machine.execForgeStraitConfig rq s
  | .forgeStraitStatus rq => Sys2Proof.Machine.execForgeStraitStatus rq s
  | .forgeStraitRetire rq => Sys2Proof.Machine.execForgeStraitRetire rq s
  | .forgeMeltpoolConfig rq => Sys2Proof.Machine.execForgeMeltpoolConfig rq s
  | .forgeMeltpoolStatus rq => Sys2Proof.Machine.execForgeMeltpoolStatus rq s
  | .forgePermitConfig rq => Sys2Proof.Machine.execForgePermitConfig rq s
  | .forgePowerCap rq => Sys2Proof.Machine.execForgePowerCap rq s
  | .forgeMeltpoolRaw rq => Sys2Proof.Machine.execForgeMeltpoolRaw rq s
  | .straitCheck => Sys2Proof.Machine.execStraitCheck s
  | .straitWaitMaxExpiry head => Sys2Proof.Machine.execStraitWaitMaxExpiry head s
  | .straitTimeoutExpiry head => Sys2Proof.Machine.execStraitTimeoutExpiry head s
  | .plumeHoldExpiry head => Sys2Proof.Machine.execPlumeHoldExpiry head s
  | .straitReassignmentIssue => Sys2Proof.Machine.execStraitReassignmentIssue s
  | .meltpoolSignalLost head => Sys2Proof.Machine.execMeltpoolSignalLost head s
  | .cameraFeatureStale head => Sys2Proof.Machine.execCameraFeatureStale head s
  | .controlRecipeLoad rq => Sys2Proof.Machine.execControlRecipeLoad rq s
  | .controlRecipeLoadDone => Sys2Proof.Machine.execControlRecipeLoadDone s
  | .controlPidSet rq => Sys2Proof.Machine.execControlPidSet rq s
  | .controlLoopBind rq => Sys2Proof.Machine.execControlLoopBind rq s
  | .controlLoopSet rq => Sys2Proof.Machine.execControlLoopSet rq s
  | .controlGroupSet rq => Sys2Proof.Machine.execControlGroupSet rq s
  | .controlLoopStatus rq => Sys2Proof.Machine.execControlLoopStatus rq s
  | .controlRepctlStatus rq => Sys2Proof.Machine.execControlRepctlStatus rq s
  | .controlVarWrite rq => Sys2Proof.Machine.execControlVarWrite rq s
  | .controlStageRaw rq => Sys2Proof.Machine.execControlStageRaw rq s
  | .controlRepctlTableRead rq => Sys2Proof.Machine.execControlRepctlTableRead rq s
  | .controlRepctlTableWrite rq => Sys2Proof.Machine.execControlRepctlTableWrite rq s
  | .controlRepctlTableDone k host => Sys2Proof.Machine.execControlRepctlTableDone k host s
  | .loopEvaluation slot counts => Sys2Proof.Machine.execLoopEvaluation slot counts s
  | .repctlUpdate k counts => Sys2Proof.Machine.execRepctlUpdate k counts s
  | .cameraPortConfig rq => Sys2Proof.Machine.execCameraPortConfig rq s
  | .cameraStreamConfig rq => Sys2Proof.Machine.execCameraStreamConfig rq s
  | .cameraStatsConfig rq => Sys2Proof.Machine.execCameraStatsConfig rq s
  | .cameraStreamStatus rq => Sys2Proof.Machine.execCameraStreamStatus rq s
  | .cameraPhyRaw rq => Sys2Proof.Machine.execCameraPhyRaw rq s
  | .frameStartReceive port di wc ecc => Sys2Proof.Machine.execFrameStartReceive port di wc ecc s
  | .linePacketReceive port pkt => Sys2Proof.Machine.execLinePacketReceive port pkt s
  | .frameEndReceive port di wc ecc => Sys2Proof.Machine.execFrameEndReceive port di wc ecc s
  | .frameTimeout stream => Sys2Proof.Machine.execFrameTimeout stream s
  | .dphySotError port => Sys2Proof.Machine.execDphySotError port s
  | .memoryFrameStart => Sys2Proof.Machine.execMemoryFrameStart s
  | .memoryFrameProcessed => Sys2Proof.Machine.execMemoryFrameProcessed s
  | .lagoonStatus rq => Sys2Proof.Machine.execLagoonStatus rq s
  | .lagoonEccLog rq => Sys2Proof.Machine.execLagoonEccLog rq s
  | .lagoonTileHeader rq => Sys2Proof.Machine.execLagoonTileHeader rq s
  | .lagoonTileRead rq => Sys2Proof.Machine.execLagoonTileRead rq s
  | .lagoonTileReadDone => Sys2Proof.Machine.execLagoonTileReadDone s
  | .lagoonEccInject rq => Sys2Proof.Machine.execLagoonEccInject rq s
  | .tileHandleRequest due owner => Sys2Proof.Machine.execTileHandleRequest due owner s
  | .tileHandleGrant => Sys2Proof.Machine.execTileHandleGrant s
  | .tileFillOpen handle hdr => Sys2Proof.Machine.execTileFillOpen handle hdr s
  | .tileFillWrite handle offset data => Sys2Proof.Machine.execTileFillWrite handle offset data s
  | .tileFillClose handle => Sys2Proof.Machine.execTileFillClose handle s
  | .lagoonRead address reader upset => Sys2Proof.Machine.execLagoonRead address reader upset s
  | .lagoonScrubStep idle upset => Sys2Proof.Machine.execLagoonScrubStep idle upset s
  | .dramStatus rq => Sys2Proof.Machine.execDramStatus rq s
  | .dramEccLog rq => Sys2Proof.Machine.execDramEccLog rq s
  | .dramRowlog rq => Sys2Proof.Machine.execDramRowlog rq s
  | .dramScrubConfig rq => Sys2Proof.Machine.execDramScrubConfig rq s
  | .dramEccInject rq => Sys2Proof.Machine.execDramEccInject rq s
  | .dramRequestIssue channel enter => Sys2Proof.Machine.execDramRequestIssue channel enter s
  | .dramRefresh channel => Sys2Proof.Machine.execDramRefresh channel s
  | .dramMr4Read channel code shorter => Sys2Proof.Machine.execDramMr4Read channel code shorter s
  | .dramWck2dqRead channel => Sys2Proof.Machine.execDramWck2dqRead channel s
  | .mergeEntryWriteout block reason => Sys2Proof.Machine.execMergeEntryWriteout block reason s
  | .rowWindowStart => Sys2Proof.Machine.execRowWindowStart s
  | .dramPatrolScrubStep upset => Sys2Proof.Machine.execDramPatrolScrubStep upset s
  | .dmaChannelConfig rq => Sys2Proof.Machine.execDmaChannelConfig rq s
  | .dmaChannelDisable rq => Sys2Proof.Machine.execDmaChannelDisable rq s
  | .dmaChannelStatus rq => Sys2Proof.Machine.execDmaChannelStatus rq s
  | .dmaWindowSet rq => Sys2Proof.Machine.execDmaWindowSet rq s
  | .dmaChannelRaw rq => Sys2Proof.Machine.execDmaChannelRaw rq s
  | .dmaDescriptorPoll channel hostDesc => Sys2Proof.Machine.execDmaDescriptorPoll channel hostDesc s
  | .dmaDescriptorHalf channel hostData => Sys2Proof.Machine.execDmaDescriptorHalf channel hostData s
  | .dmaDescriptorDone channel hostData => Sys2Proof.Machine.execDmaDescriptorDone channel hostData s
  | .dmaBusError channel onWrite offset => Sys2Proof.Machine.execDmaBusError channel onWrite offset s
  | .fabricBudgetWindow => Sys2Proof.Machine.execFabricBudgetWindow s
  | .compressConfig rq => Sys2Proof.Machine.execCompressConfig rq s
  | .compressSubmit rq => Sys2Proof.Machine.execCompressSubmit rq s
  | .compressAbort rq => Sys2Proof.Machine.execCompressAbort rq s
  | .compressStatus rq => Sys2Proof.Machine.execCompressStatus rq s
  | .compressEngineRaw rq => Sys2Proof.Machine.execCompressEngineRaw rq s
  | .deflateJobStart engine => Sys2Proof.Machine.execDeflateJobStart engine s
  | .deflateJobEnd engine host => Sys2Proof.Machine.execDeflateJobEnd engine host s
  | .bldcConfig rq => Sys2Proof.Machine.execBldcConfig rq s
  | .bldcBusConfig rq => Sys2Proof.Machine.execBldcBusConfig rq s
  | .bldcStart rq => Sys2Proof.Machine.execBldcStart rq s
  | .bldcSpeed rq => Sys2Proof.Machine.execBldcSpeed rq s
  | .bldcStop rq => Sys2Proof.Machine.execBldcStop rq s
  | .bldcStatus rq => Sys2Proof.Machine.execBldcStatus rq s
  | .bldcRaw rq => Sys2Proof.Machine.execBldcRaw rq s
  | .bemfZeroCross motor delta forward => Sys2Proof.Machine.execBemfZeroCross motor delta forward s
  | .commutation motor => Sys2Proof.Machine.execCommutation motor s
  | .zeroCrossTimeout motor => Sys2Proof.Machine.execZeroCrossTimeout motor s
  | .coastStandstill motor => Sys2Proof.Machine.execCoastStandstill motor s
  | .listenEnd motor crossings forward delta => Sys2Proof.Machine.execListenEnd motor crossings forward delta s
  | .brakeListen motor crossings => Sys2Proof.Machine.execBrakeListen motor crossings s
  | .brakeTimeout motor => Sys2Proof.Machine.execBrakeTimeout motor s
  | .alignEnd motor => Sys2Proof.Machine.execAlignEnd motor s
  | .rampTimeout motor => Sys2Proof.Machine.execRampTimeout motor s
  | .driveCurrentLimit isns => Sys2Proof.Machine.execDriveCurrentLimit isns s
  | .overcurrentWindow motor => Sys2Proof.Machine.execOvercurrentWindow motor s
  | .busVoltageSample group code => Sys2Proof.Machine.execBusVoltageSample group code s
  | .chopperFailTimeout fail => Sys2Proof.Machine.execChopperFailTimeout fail s
  | .brakeCurrentLimit motor mv => Sys2Proof.Machine.execBrakeCurrentLimit motor mv s
  | .busBrakeStandstill motor => Sys2Proof.Machine.execBusBrakeStandstill motor s
  | .speedPinMeasure motor value => Sys2Proof.Machine.execSpeedPinMeasure motor value s
  | .speedPinLost motor => Sys2Proof.Machine.execSpeedPinLost motor s
  | .speedPinResume motor => Sys2Proof.Machine.execSpeedPinResume motor s
  | .motionAxisConfig rq => Sys2Proof.Machine.execMotionAxisConfig rq s
  | .motionMove rq => Sys2Proof.Machine.execMotionMove rq s
  | .motionStop rq => Sys2Proof.Machine.execMotionStop rq s
  | .motionPositionSet rq => Sys2Proof.Machine.execMotionPositionSet rq s
  | .motionStatus rq => Sys2Proof.Machine.execMotionStatus rq s
  | .motionAxisRaw rq => Sys2Proof.Machine.execMotionAxisRaw rq s
  | .moveComplete axis => Sys2Proof.Machine.execMoveComplete axis s
  | .stopRampEnd axis pulses => Sys2Proof.Machine.execStopRampEnd axis pulses s
  | .limitInputEdge axis positive level => Sys2Proof.Machine.execLimitInputEdge axis positive level s
  | .limitDebounceExpiry axis positive => Sys2Proof.Machine.execLimitDebounceExpiry axis positive s
  | .clockSynthConfig rq => Sys2Proof.Machine.execClockSynthConfig rq s
  | .clockSynthProfile rq => Sys2Proof.Machine.execClockSynthProfile rq s
  | .clockSynthProfileLoaded synth host => Sys2Proof.Machine.execClockSynthProfileLoaded synth host s
  | .clockStatus rq => Sys2Proof.Machine.execClockStatus rq s
  | .clockSynthRaw rq => Sys2Proof.Machine.execClockSynthRaw rq s
  | .referenceEdgeTimeout => Sys2Proof.Machine.execReferenceEdgeTimeout s
  | .referenceFrequencyCheck hz => Sys2Proof.Machine.execReferenceFrequencyCheck hz s
  | .pllFastUnlock loop => Sys2Proof.Machine.execPllFastUnlock loop s
  | .lockMonitorInclusion loop => Sys2Proof.Machine.execLockMonitorInclusion loop s
  | .lockDeclare loop => Sys2Proof.Machine.execLockDeclare loop s
  | .locksenseLow mv => Sys2Proof.Machine.execLocksenseLow mv s
  | .locksensePlausibilityCheck mv toggling => Sys2Proof.Machine.execLocksensePlausibilityCheck mv toggling s
  | .linePhaseCheck synth span => Sys2Proof.Machine.execLinePhaseCheck synth span s
  | .thermalUnitConfig rq => Sys2Proof.Machine.execThermalUnitConfig rq s
  | .thermalThermistorConfig rq => Sys2Proof.Machine.execThermalThermistorConfig rq s
  | .thermalStatus rq => Sys2Proof.Machine.execThermalStatus rq s
  | .thermalSensorForce rq => Sys2Proof.Machine.execThermalSensorForce rq s
  | .sensorReading sensor value => Sys2Proof.Machine.execSensorReading sensor value s
  | .sensorConversionTimeout sensor => Sys2Proof.Machine.execSensorConversionTimeout sensor s
  | .remoteReadingStale sensor => Sys2Proof.Machine.execRemoteReadingStale sensor s
  | .throttleStepDown unit => Sys2Proof.Machine.execThrottleStepDown unit s
  | .throttleStepUp unit => Sys2Proof.Machine.execThrottleStepUp unit s
  | .powerRailConfig rq => Sys2Proof.Machine.execPowerRailConfig rq s
  | .powerUp rq => Sys2Proof.Machine.execPowerUp rq s
  | .powerDown rq => Sys2Proof.Machine.execPowerDown rq s
  | .powerClear rq => Sys2Proof.Machine.execPowerClear rq s
  | .powerStatus rq => Sys2Proof.Machine.execPowerStatus rq s
  | .atollRegRead rq => Sys2Proof.Machine.execAtollRegRead rq s
  | .atollRegWrite rq => Sys2Proof.Machine.execAtollRegWrite rq s
  | .powerRailForce rq => Sys2Proof.Machine.execPowerRailForce rq s
  | .railUp slot sense => Sys2Proof.Machine.execRailUp slot sense s
  | .railPgTimeout slot => Sys2Proof.Machine.execRailPgTimeout slot s
  | .railSettleEnd slot => Sys2Proof.Machine.execRailSettleEnd slot s
  | .railDischargeEnd slot vmon => Sys2Proof.Machine.execRailDischargeEnd slot vmon s
  | .railFault slot sense => Sys2Proof.Machine.execRailFault slot sense s
  | .minOffEnd => Sys2Proof.Machine.execMinOffEnd s
  | .offGraceEnd => Sys2Proof.Machine.execOffGraceEnd s
  | .graceJobsTerminal => Sys2Proof.Machine.execGraceJobsTerminal s
  | .pwrbtnPress => Sys2Proof.Machine.execPwrbtnPress s
  | .pwrbtnForcedOff => Sys2Proof.Machine.execPwrbtnForcedOff s
  | .nmrAssert widthNs => Sys2Proof.Machine.execNmrAssert widthNs s
  | .nmrRelease straps => Sys2Proof.Machine.execNmrRelease straps s
  | .vbatApply => Sys2Proof.Machine.execVbatApply s
  | .powerOnReset straps => Sys2Proof.Machine.execPowerOnReset straps s
  | .supplyLost => Sys2Proof.Machine.execSupplyLost s
  | .supplyReturn => Sys2Proof.Machine.execSupplyReturn s
  | .wakeComparatorFire n rising => Sys2Proof.Machine.execWakeComparatorFire n rising s
  | .rtcAlarm n => Sys2Proof.Machine.execRtcAlarm n s
  | .nsysfaultIn low => Sys2Proof.Machine.execNsysfaultIn low s
  | .lightStringConfig rq => Sys2Proof.Machine.execLightStringConfig rq s
  | .lightStringLevel rq => Sys2Proof.Machine.execLightStringLevel rq s
  | .lightStringStatus rq => Sys2Proof.Machine.execLightStringStatus rq s
  | .lightMatrixRaw rq => Sys2Proof.Machine.execLightMatrixRaw rq s
  | .lampMatrixFrame string frame heard => Sys2Proof.Machine.execLampMatrixFrame string frame heard s
  | .faultStatus rq => Sys2Proof.Machine.execFaultStatus rq s
  | .faultSourceRead rq => Sys2Proof.Machine.execFaultSourceRead rq s
  | .faultLogRead rq => Sys2Proof.Machine.execFaultLogRead rq s
  | .faultAck rq => Sys2Proof.Machine.execFaultAck rq s
  | .faultClear rq => Sys2Proof.Machine.execFaultClear rq s
  | .faultConfig rq => Sys2Proof.Machine.execFaultConfig rq s
  | .faultForce rq => Sys2Proof.Machine.execFaultForce rq s
  | .faultRaise => Sys2Proof.Machine.execFaultRaise s
  | .faultLogWrite => Sys2Proof.Machine.execFaultLogWrite s
  | .heartbeatMissing core => Sys2Proof.Machine.execHeartbeatMissing core s
  | .supervisorWatchdogExpiry => Sys2Proof.Machine.execSupervisorWatchdogExpiry s
  | .deviceReset straps burned => Sys2Proof.Machine.execDeviceReset straps burned s
  | .aliveToggle => Sys2Proof.Machine.execAliveToggle s
  | .otpStatus rq => Sys2Proof.Machine.execOtpStatus rq s
  | .otpRead rq => Sys2Proof.Machine.execOtpRead rq s
  | .otpBurn rq => Sys2Proof.Machine.execOtpBurn rq s
  | .otpBurnWordDone r => Sys2Proof.Machine.execOtpBurnWordDone r s
  | .otpFinalise rq => Sys2Proof.Machine.execOtpFinalise rq s
  | .otpStrengthen rq => Sys2Proof.Machine.execOtpStrengthen rq s
  | .otpShadowRead rq => Sys2Proof.Machine.execOtpShadowRead rq s
  | .otpShadowWrite rq => Sys2Proof.Machine.execOtpShadowWrite rq s
  | .otpMarginRead rq => Sys2Proof.Machine.execOtpMarginRead rq s
  | .otpStartupCheckDone => Sys2Proof.Machine.execOtpStartupCheckDone s
  | .dramTrainingDone failed stepFailed => Sys2Proof.Machine.execDramTrainingDone failed stepFailed s
  | .dramFillDone => Sys2Proof.Machine.execDramFillDone s
  | .bootImageLoaded source => Sys2Proof.Machine.execBootImageLoaded source s
  | .bootPushPoll => Sys2Proof.Machine.execBootPushPoll s
  | .bootReady => Sys2Proof.Machine.execBootReady s
  | .startupBootStatus rq => Sys2Proof.Machine.execStartupBootStatus rq s
  | .startupPersonalitySelect rq => Sys2Proof.Machine.execStartupPersonalitySelect rq s
  | .personalitySelectDone => Sys2Proof.Machine.execPersonalitySelectDone s
  | .startupFwUpdate rq => Sys2Proof.Machine.execStartupFwUpdate rq s
  | .fwUpdateDone readBackOk => Sys2Proof.Machine.execFwUpdateDone readBackOk s
  | .countersOverflowRead rq => Sys2Proof.Machine.execCountersOverflowRead rq s
  | .countersClear rq => Sys2Proof.Machine.execCountersClear rq s
  | .backchannelBadMessage link kind type => Sys2Proof.Machine.execBackchannelBadMessage link kind type s
  | .photodiodeSample channel counts => Sys2Proof.Machine.execPhotodiodeSample channel counts s
  | .locksenseRecover mv => Sys2Proof.Machine.execLocksenseRecover mv s
  | .synthLockTimeout synth => Sys2Proof.Machine.execSynthLockTimeout synth s
  | .vbatLow mv => Sys2Proof.Machine.execVbatLow mv s
  | .mainSupplyFail burned => Sys2Proof.Machine.execMainSupplyFail burned s
  | .pwrbtnRelease => Sys2Proof.Machine.execPwrbtnRelease s
  | .bar2HostAccess offset write length => Sys2Proof.Machine.execBar2HostAccess offset write length s
  | .systemPllLock => Sys2Proof.Machine.execSystemPllLock s

end Sys2Proof.Machine
end

