-- ==== Sys2Proof/Safety.lean ====
section
/-!
DEFINITION. What holds of a state that the block can be in, and the terms in which the statements are made: the bounds
that the spec gives its logs and rings, the canonical form of its memories, the size of its tables, and what a logged
violation or a consumed request is.
-/
namespace Sys2Proof.Safety

open Sys2Proof Sys2Proof.Machine

/-- A violation is in the log of `t` that was not in that of `s`: it is the newest, it is numbered and counted, and vector
11 has been signalled (R61). Beside the command interface nothing has changed but the count of free values. -/
def Logged (iface unit code : Nat) (s t : State) : Prop :=
  (∃ e : VEntry, t.mci.vlog = lastN 64 (s.mci.vlog ++ [e]) ∧ e.number = s.mci.vnext ∧ e.time = s.time ∧
    e.iface = BitVec.ofNat 8 iface ∧ e.unit = BitVec.ofNat 8 unit ∧ e.code = BitVec.ofNat 16 code) ∧
  t.mci.vcount = s.mci.vcount.inc ∧ t.mci.vnext = s.mci.vnext + 1 ∧ t.mci.irq.getLsbD 11 = true ∧
  { t with mci := s.mci, free := s.free } = s

/-- The bytes of the request slot that mailbox `p` consumes next (R47). -/
def nextSlot (p : Nat) (s : State) : List Byte := s.slotBytes (requestSlot p ((s.box p).reqCi.toNat % 8)) 256

/-- The header of that request (R50). -/
def nextHeader (p : Nat) (s : State) : Header := headerOf (nextSlot p s)

/-- Its payload (R50). -/
def nextPayload (p : Nat) (s : State) : List Byte := ((nextSlot p s).drop 16).take (nextHeader p s).length

/-- Mailbox `p` is served and open, no HELLO of it waits, and it holds a request with a good header and CRC that carries
the fixed version (R44, R50, R51, R54, R56, R57). -/
def Consumes (p : Nat) (s : State) : Prop :=
  p < 8 ∧ pairsServed s = true ∧ helloWaits s p = false ∧ (s.box p).reqPi ≠ (s.box p).reqCi ∧ (s.box p).hello = true ∧
  (nextHeader p s).wellFormed p 236 = true ∧ crcOk (nextSlot p s) (nextHeader p s).length = true ∧
  (nextHeader p s).version = s.mci.inUse.toNat

/-- The request's command may be executed: it is not the 65th outstanding, it exists in the major in use, its session and
its personality fit, and no limit of major 2 or of HALTED stops it (R44, R53, R58, R59, R68). -/
def Servable (p : Nat) (h : Header) (s : State) : Prop :=
  (s.box p).outstanding - ((s.box p).reqPi - ((s.box p).reqCi + 1)).toNat ≤ 64 ∧
  (s.mci.st ≠ .halted ∨ servedHalted h.code = true) ∧ codeExists (s.mci.inUse.toNat / 16) h.code = true ∧
  (isExpert h.code = false ∨ (s.box p).session = some h.session) ∧
  (groupPersonality h.code = .none ∨ s.mci.personality = groupPersonality h.code) ∧
  (s.mci.inUse.toNat / 16 ≠ 2 ∨ namesOther h.code ⟨h.mailbox, h.seq, nextPayload p s⟩ = false)

/-- The urgent request slot holds a request of group 0x01 with a good header and CRC (R63, R64). -/
def UrgentServable (s : State) : Prop :=
  let slot := s.slotBytes urgentRequestSlot 64
  let h := headerOf slot
  h.wellFormed 255 44 = true ∧ crcOk slot h.length = true ∧ h.code / 256 = 1 ∧ codeExists 3 h.code = true

/-! ### The invariant of every step -/

/-- The words of the OTP array are in canonical form: by rising physical word, none blank (R475). -/
def otpWordsWf : List OtpWord → Bool
  | [] => true
  | [c] => !c.isBlank
  | c :: d :: rest => !c.isBlank && c.row < d.row && otpWordsWf (d :: rest)

/-- The command interface: 8 mailboxes (R42) and 64 MSI-X entries (R45), at most 64 logged violations (R61) and 256 pending
events (R73), and the slots in canonical form. -/
def mciOk (x : Mci) : Prop :=
  x.boxes.length = 8 ∧ x.msix.length = 64 ∧ x.vlog.length ≤ 64 ∧ x.events.length ≤ 256 ∧ cellsWf 0#8 x.slots = true

/-- Forge holds 4 exposure programs. -/
def forgeOk (x : Forge) : Prop := x.programs.length = 4

/-- The control engine: 64 slots, 16 groups, 8 repetitive controllers, 16 variables. -/
def engineOk (x : Engine) : Prop :=
  x.loops.length = 64 ∧ x.groups.length = 16 ∧ x.repctls.length = 8 ∧ x.vars.length = 16

/-- 4 camera ports, 16 streams. -/
def camOk (x : Cam) : Prop := x.ports.length = 4 ∧ x.streams.length = 16

/-- The Lagoon: at most 64 waiting requests (R301), 32 log entries (R311), its bytes in canonical form. -/
def lagOk (x : Lag) : Prop := x.waiting.length ≤ 64 ∧ x.log.length ≤ 32 ∧ cellsWf 0#8 x.data = true

/-- DRAM: 4 channels, at most 32 entries in each log (R333, R337) and in the merge buffer (R323), the cells in canonical
form. -/
def dramOk (x : Dram) : Prop :=
  x.queues.length = 4 ∧ x.log.length ≤ 32 ∧ x.rowLog.length ≤ 32 ∧ x.merge.length ≤ 32 ∧ cellsWf 0#8 x.mem = true

/-- 32 DMA channels, 15 windows, 4 engines, at most 32 queued jobs (R357). -/
def dmaOk (x : Dma) : Prop :=
  x.channels.length = 32 ∧ x.windows.length = 15 ∧ x.engines.length = 4 ∧ x.queue.length ≤ 32

/-- 8 motors on 2 buses. -/
def bldcOk (x : Bldc) : Prop := x.motors.length = 8 ∧ x.buses.length = 2

/-- 4 synthesizers. -/
def clkOk (x : Clk) : Prop := x.synths.length = 4

/-- 72 sensors, 32 thermistors, 40 thermal units. -/
def thermOk (x : Therm) : Prop := x.sensors.length = 72 ∧ x.thermistors.length = 32 ∧ x.units.length = 40

/-- 16 rails. -/
def pwrOk (x : Pwr) : Prop := x.rails.length = 16

/-- 16 retained words, 4 alarms. -/
def atollOk (x : Atoll) : Prop := x.ret.length = 16 ∧ x.alarms.length = 4

/-- The fault log holds at most 64 entries (R472). -/
def fltOk (x : Flt) : Prop := x.log.length ≤ 64

/-- The flash is in canonical form. -/
def bootOk (x : Boot) : Prop := cellsWf 0xFF#8 x.flash = true

/-- Every table has the size that the spec gives it, every log and queue with a bound keeps it, and every memory is in
canonical form. -/
def Inv (s : State) : Prop :=
  s.sources.length = 96 ∧ s.links.length = 24 ∧ s.stations.length = 4 ∧ s.gpi.length = 32 ∧ s.bias.length = 16 ∧
  s.heaters.length = 4 ∧ s.heads.length = 24 ∧ s.motion.length = 16 ∧ s.lamps.length = 8 ∧
  mciOk s.mci ∧ forgeOk s.forge ∧ engineOk s.engine ∧ camOk s.cam ∧ lagOk s.lag ∧ dramOk s.dram ∧ dmaOk s.dma ∧
  bldcOk s.bldc ∧ clkOk s.clk ∧ thermOk s.therm ∧ pwrOk s.pwr ∧ atollOk s.atoll ∧ fltOk s.flt ∧ bootOk s.boot ∧
  otpWordsWf s.otp.words = true

end Sys2Proof.Safety
end

