-- ==== Sys2Proof/Certificates/Slice0/Obligations.lean ====
section
/-!
DEFINITION. The statements. Each names a family of commands and says, for every state and operands that meet its
hypotheses, the next state that `exec` answers: as an equation, so that whatever the equation does not change is
unchanged, or by its fields. `respond`, `accept`, `complete`, `present`, `setCause` and the other shared operations of
Machine/ are what the meanings call; the statements on replies, violations, raises and gates say what those do.
-/
open Sys2Proof Sys2Proof.Machine

/-- A step with a command in front of the queue is that command's effect on the state with the queue's rest (log entry 1). -/
def Obligations.StepTakesTheFront : Prop :=
  ∀ (c : Instr) (rest : List Instr) (s : State),
    step { s with pending := c :: rest } = exec c { s with pending := rest }

/-! ### The command interface (spec/02_mailboxes.md) -/

/-- R46, R47, R49, R77: a doorbell on an open path takes the new producer index and counts the messages it submits; from
the unbound path, or more than 8 ahead, it is ignored and logged. R48: the host's reply index is stored. -/
def Obligations.DoorbellsMoveTheRings : Prop :=
  (∀ (path : Path) (p : Nat) (value : BitVec 32) (s : State), pathOpen s path = true → p < 8 →
    ((s.box p).bound = none ∨ (s.box p).bound = some path) → (value.setWidth 4 - (s.box p).reqCi).toNat ≤ 8 →
    exec (.requestDoorbell path p value) s = .next (s.modBox p fun b =>
      { b with reqPi := value.setWidth 4, path := path,
               outstanding := b.outstanding + (value.setWidth 4 - (s.box p).reqCi).toNat -
                 (b.reqPi - b.reqCi).toNat,
               arrivals := (b.arrivals ++ List.replicate (value.setWidth 4 - (s.box p).reqCi).toNat path).take
                 (value.setWidth 4 - (s.box p).reqCi).toNat })) ∧
  (∀ (path other : Path) (p : Nat) (value : BitVec 32) (s : State), pathOpen s path = true → p < 8 →
    (s.box p).bound = some other → other ≠ path →
    ∃ t, exec (.requestDoorbell path p value) s = .next t ∧ Safety.Logged 0 p 0x09 s t ∧ t.mci.boxes = s.mci.boxes) ∧
  (∀ (path : Path) (p : Nat) (value : BitVec 32) (s : State), pathOpen s path = true → p < 8 →
    ((s.box p).bound = none ∨ (s.box p).bound = some path) → 8 < (value.setWidth 4 - (s.box p).reqCi).toNat →
    ∃ t, exec (.requestDoorbell path p value) s = .next t ∧ Safety.Logged 0 p 0x08 s t ∧ t.mci.boxes = s.mci.boxes) ∧
  (∀ (p : Nat) (value : BitVec 32) (s : State),
    exec (.replyCiAdvance p value) s = .next (s.modBox p fun b => ringMoved s.time { b with rplCi := value.setWidth 4 }))

/-- R52, R53, R59: what the checks at consumption make of a well-formed request of an open mailbox that carries the fixed
version: with SEQUENCE = E it is dispatched and E advances; a duplicate is answered DUPLICATE and any other sequence
SEQUENCE with E, both with E unchanged. -/
def Obligations.ConsumptionKeepsTheSequence : Prop :=
  ∀ (p : Nat) (s : State), Safety.Consumes p s → p < s.mci.boxes.length →
    let h := Safety.nextHeader p s
    let b := s.box p
    h.code ≠ 0 →
    ((b.expected - h.seq).toNat ≠ 0 → (b.expected - h.seq).toNat ≤ 64 →
      ∃ t, exec (.requestConsume p) s = .next t ∧ (t.box p).expected = b.expected ∧ (t.box p).reqCi = b.reqCi + 1 ∧
        t.mci.dispatched = s.mci.dispatched ∧ t.mci.vlog = s.mci.vlog ∧
        ((t.box p).waiting.getLast?.map fun m => (m.seq, m.status)) = some (h.seq, 3)) ∧
    (64 < (b.expected - h.seq).toNat →
      ∃ t, exec (.requestConsume p) s = .next t ∧ (t.box p).expected = b.expected ∧ (t.box p).reqCi = b.reqCi + 1 ∧
        t.mci.dispatched = s.mci.dispatched ∧
        ((t.box p).waiting.getLast?.map fun m => (m.seq, m.status, m.payload)) =
          some (h.seq, 0x13, leBytes 2 b.expected.toNat ++ zeros 2)) ∧
    (h.seq = b.expected →
      ∃ t, exec (.requestConsume p) s = .next t ∧ (t.box p).expected = b.expected + 1 ∧ (t.box p).reqCi = b.reqCi + 1 ∧
        (Safety.Servable p h s →
          t.mci.dispatched = s.mci.dispatched ++
            [{ req := ⟨p, h.seq, Safety.nextPayload p s⟩, code := BitVec.ofNat 16 h.code, session := h.session,
               time := s.time, path := b.arrivals.headD b.path, ticket := b.consumed + 1 }]))

/-- R50: a reply to a request of a mailbox pair waits behind the others of that mailbox, with REPLY set and SEQUENCE and
COMMAND of the request and the number of its consumption; the oldest dispatched request of that command and sequence is
served; nothing else changes. R77 with the order of log entry 11: of a command's
checks the first that fails is its answer, and a command that is turned away has no other effect. R48, R53, R75: with
room in the reply ring the oldest reply that waits is written into slot RPL_PI mod 8, RPL_PI advances, its message ends
when it is final, and the mailbox's vector is signalled; no unread reply is overwritten; while the ring is full, replies
and events wait; the host advances RPL_CI. -/
def Obligations.RepliesWaitAndArePosted : Prop :=
  (∀ (rq : Req) (code status : Nat) (payload : List Byte) (s : State), rq.mailbox < 8 → rq.mailbox < s.mci.boxes.length →
    let t := respond rq code status payload s
    (t.box rq.mailbox) = { s.box rq.mailbox with waiting := (s.box rq.mailbox).waiting ++
      [{ flags := 1, seq := rq.seq, code := BitVec.ofNat 16 code, mailbox := BitVec.ofNat 8 rq.mailbox, session := 0,
         status := BitVec.ofNat 16 status, payload := payload,
         ticket := (s.mci.dispatched.find? (·.is rq code)).map (·.ticket) }] } ∧
    (∀ q, q ≠ rq.mailbox → t.box q = s.box q) ∧ t.mci.dispatched = s.mci.dispatched.eraseP (·.is rq code) ∧
    { t with mci := { t.mci with boxes := s.mci.boxes, dispatched := s.mci.dispatched } } = s) ∧
  (∀ (code : Nat) (rq : Req) (checks : List (Bool × Nat)) (k : State → State) (s : State), served code rq s = true →
    (∀ before after status, checks = before ++ (true, status) :: after → (∀ c ∈ before, c.1 = false) →
      command code rq checks k s = .next (respond rq code status [] s)) ∧
    ((∀ c ∈ checks, c.1 = false) → command code rq checks k s = .next (k s))) ∧
  (∀ (code : Nat) (rq : Req) (checks : List (Bool × Nat)) (k : State → State) (s : State), served code rq s = false →
    command code rq checks k s = .next s) ∧
  (∀ (p : Nat) (m : Msg) (rest : List Msg) (s : State), p < 8 → p < s.mci.boxes.length → pairsServed s = true →
    ((s.box p).rplPi - (s.box p).rplCi).toNat ≠ 8 → (s.box p).waiting = m :: rest → m.code ≠ 0 → m.code ≠ 3 →
    ∃ t, exec (.replyPost p) s = .next t ∧ (t.box p).waiting = rest ∧ (t.box p).rplPi = (s.box p).rplPi + 1 ∧
      t.mci.slots = cellsSet 0 s.mci.slots (replySlot p ((s.box p).rplPi.toNat % 8)) (m.bytes (sentVersion s false)) ∧
      (t.box p).outstanding = (if finalReply m then (s.box p).outstanding - 1 else (s.box p).outstanding) ∧
      t.mci.irq = s.mci.irq ||| (1#32 <<< (p + 1)) ∧ t.mci.sent = (signal (p + 1) s).mci.sent ∧
      t.mci.pba = (signal (p + 1) s).mci.pba ∧ t.mci.dispatched = s.mci.dispatched ∧
      { t with mci := s.mci, free := s.free } = s) ∧
  (∀ (p : Nat) (m : Msg) (rest : List Msg) (i : BitVec 4) (s : State), p < 8 → cellsWf 0 s.mci.slots = true →
    (s.box p).waiting = m :: rest → m.payload.length ≤ 236 → ((s.box p).rplPi - (s.box p).rplCi).toNat < 8 →
    (i - (s.box p).rplCi).toNat < ((s.box p).rplPi - (s.box p).rplCi).toNat →
    ∃ t, exec (.replyPost p) s = .next t ∧ ∀ k, k < 256 →
      cellGet 0 t.mci.slots (replySlot p (i.toNat % 8) + k) = cellGet 0 s.mci.slots (replySlot p (i.toNat % 8) + k)) ∧
  (∀ (p : Nat) (s : State), ((s.box p).rplPi - (s.box p).rplCi).toNat = 8 → exec (.replyPost p) s = .next s) ∧
  (∀ (p : Nat) (value : BitVec 32) (s : State), exec (.replyCiAdvance p value) s =
    .next (s.modBox p fun b => ringMoved s.time { b with rplCi := value.setWidth 4 }))

/-- R73: an event takes the next event sequence while fewer than 256 are pending; otherwise it is dropped, counted in
EVENT_DROPS and vector 12 is signalled. It is posted on the reply ring of mailbox 7 when no reply waits there (R75). A
completion is never dropped: it waits behind the replies of its mailbox or, of a command orphaned by a host link reset
(R37), for mailbox 7. -/
def Obligations.EventsOfMailboxSeven : Prop :=
  (∀ (code : BitVec 16) (payload : List Byte) (s : State), s.mci.events.length < 256 →
    exec (.eventPost code payload) s = .next { s with mci := { s.mci with
      events := s.mci.events ++ [{ flags := 4, seq := s.mci.eventSeq, code := code, mailbox := 7, session := 0,
                                   status := 0, payload := payload }],
      eventSeq := s.mci.eventSeq + 1 } }) ∧
  (∀ (code : BitVec 16) (payload : List Byte) (s : State), 256 ≤ s.mci.events.length →
    ∃ t, exec (.eventPost code payload) s = .next t ∧ t.mci.events = s.mci.events ∧
      t.mci.eventDrops = s.mci.eventDrops.inc ∧ t.mci.irq = s.mci.irq ||| (1#32 <<< 12) ∧ { t with mci := s.mci } = s) ∧
  (∀ (m : Msg) (rest : List Msg) (s : State), 7 < s.mci.boxes.length → pairsServed s = true →
    ((s.box 7).rplPi - (s.box 7).rplCi).toNat ≠ 8 → (s.box 7).waiting = [] → s.mci.events = m :: rest → m.flags = 4 →
    ∃ t, exec (.replyPost 7) s = .next t ∧ t.mci.events = rest ∧ (t.box 7).rplPi = (s.box 7).rplPi + 1 ∧
      t.mci.slots = cellsSet 0 s.mci.slots (replySlot 7 ((s.box 7).rplPi.toNat % 8)) (m.bytes (sentVersion s false)) ∧
      t.mci.irq = s.mci.irq ||| (1#32 <<< 8) ∧ t.mci.dispatched = s.mci.dispatched ∧
      { t with mci := s.mci, free := s.free } = s) ∧
  (∀ (c : Ctx) (status : Nat) (payload : List Byte) (s : State), c.mailbox < 8 →
    let m : Msg := { flags := 3, seq := c.seq, code := c.code, mailbox := BitVec.ofNat 8 c.mailbox, session := 0,
                     status := BitVec.ofNat 16 status, payload := payload }
    (c.era = s.mci.era →
      complete c status payload s = s.modBox c.mailbox fun b => { b with waiting := b.waiting ++ [m] }) ∧
    (c.era ≠ s.mci.era → c ∈ s.mci.orphans → s.mci.helloSince = false →
      (complete c status payload s).mci.heldCompletions = s.mci.heldCompletions ++ [{ m with flags := 7 }]) ∧
    (c.era ≠ s.mci.era → c ∈ s.mci.orphans → s.mci.helloSince = true → s.mci.boxes.length = 8 →
      ((complete c status payload s).box 7).waiting = (s.box 7).waiting ++ [{ m with flags := 7 }]))

/-- R63, R65: the urgent mailbox takes one request at a time and ignores a GO in RESET or while BUSY; its reply is in
its slot and LAST_SEQ when DONE sets and vector 0 is signalled. R66, R67: the urgent gate on the named links, its
release, and the halt that records URG_HOST_HALT; the reply gives the links that are gated then. R35: core.reset gates
every lane. -/
def Obligations.UrgentMailbox : Prop :=
  (∀ (value : BitVec 32) (s : State), (value.getLsbD 0 = false ∨ s.mci.st = .reset) →
    exec (.urgentGo value) s = .next s) ∧
  (∀ (value : BitVec 32) (s : State), value.getLsbD 0 = true → s.mci.st ≠ .reset → s.mci.urgBusy = true →
    ∃ t, exec (.urgentGo value) s = .next t ∧ Safety.Logged 0 255 0x0A s t ∧ t.mci.dispatched = s.mci.dispatched) ∧
  (∀ (value : BitVec 32) (s : State), value.getLsbD 0 = true → s.mci.st ≠ .reset → s.mci.urgBusy = false →
    ∃ t, exec (.urgentGo value) s = .next t ∧ t.mci.urgBusy = true ∧ t.mci.urgDone = false ∧ t.mci.boxes = s.mci.boxes ∧
      (s.flt.watched = true → Safety.UrgentServable s →
        let h := headerOf (s.slotBytes urgentRequestSlot 64)
        t.mci.dispatched = s.mci.dispatched ++
          [{ req := ⟨255, h.seq, ((s.slotBytes urgentRequestSlot 64).drop 16).take h.length⟩,
             code := BitVec.ofNat 16 h.code, session := h.session, time := (classGrant 0 s).time,
             path := .pcie, ticket := (s.box 255).consumed }])) ∧
  (∀ (m : Msg) (s : State), s.mci.urgReply = some m →
    ∃ t, exec .urgentReplyPost s = .next t ∧ t.mci.urgReply = none ∧ t.mci.urgDone = true ∧ t.mci.urgBusy = false ∧
      t.mci.urgLast = m.seq ∧ t.mci.irq = s.mci.irq ||| 1#32 ∧
      t.mci.slots = cellsSet 0 s.mci.slots urgentReplySlot (m.bytes (sentVersion s true)) ∧
      t.mci.boxes = s.mci.boxes ∧ { t with mci := s.mci } = s) ∧
  (∀ (rq : Req) (s : State), served 0x0100 rq s = true → rq.u32 0 < 2 ^ s.nLinks →
    exec (.urgentStop rq) s = .next (urgentReply rq 0x0100 (setCause 1 (urgentLinks s (rq.u32 0)) s))) ∧
  (∀ (rq : Req) (s : State), served 0x0100 rq s = true → 2 ^ s.nLinks ≤ rq.u32 0 →
    exec (.urgentStop rq) s = .next (respond rq 0x0100 Status.outOfRange [] s) ∧
    exec (.urgentRelease rq) s = .next (respond rq 0x0102 Status.outOfRange [] s)) ∧
  (∀ (rq : Req) (s : State), served 0x0102 rq s = true → rq.u32 0 < 2 ^ s.nLinks →
    let named := urgentLinks s (rq.u32 0)
    ∃ ls, exec (.urgentRelease rq) s =
      .next (urgentReply rq 0x0102 (urgentOpen ls (named.foldl (fun s l => s.modLink l fun x =>
        { x with urgentOnly := false }) (clearCause 1 named s)))) ∧
      ∀ l, l ∈ ls ↔ l ∈ named ∧ (s.link l).causes = 2 ∧ (s.link l).urgentOnly = true) ∧
  (∀ (rq : Req) (s : State), served 0x0101 rq s = true →
    ∃ r, exec (.urgentHalt rq) s = .next (urgentReply rq 0x0101 (recordRaise r s)) ∧ r.source = 0x0020 ∧ r.cls = .stop ∧
      r.time = s.time) ∧
  (∀ (rq : Req) (s : State), served 0x0003 rq s = true → rq.u32 0 = 0x5A5A →
    ∃ t, exec (.coreReset rq) s = .next t ∧ t.links = (setCause 0 (List.range s.nLinks) s).links ∧
      t.boot.latchedCause = 2 ∧ t.mci.resetAt.isSome = true)

/-- R42, R43, R45: a host write stores any bytes of a request slot, writes a register only by whole aligned words, and
changes neither the reply slots nor the urgent reply slot; an SPI transfer is an opcode, the address with its most
significant byte first, on reads a dummy byte, then data, and does nothing while the slave is disabled; MSI-X Message
Control sets the enable and the Function Mask; a vector unmasked while its pending bit is set sends its message. -/
def Obligations.HostWritesToBar0 : Prop :=
  (∀ (offset : Nat) (data : List Byte) (s : State), (∀ k, k < data.length → inRequestSlot (offset + k) = true) →
    exec (.registerWrite .pcie .bar0 offset data) s =
      .next { s with mci := { s.mci with slots := cellsSet 0 s.mci.slots offset data } }) ∧
  (∀ (offset : Nat) (b : Byte) (s : State), inRequestSlot offset = false →
    exec (.registerWrite .pcie .bar0 offset [b]) s = .next s) ∧
  (∀ (a b c d : Byte) (s : State),
    exec (.registerWrite .pcie .bar0 0x0010 [a, b, c, d]) s =
      .next { s with mci := { s.mci with irq := s.mci.irq &&& ~~~(BitVec.ofNat 32 (ofLe [a, b, c, d])) } }) ∧
  (∀ (path : Path) (win : RegWindow) (offset : Nat) (data : List Byte) (s : State), cellsWf 0 s.mci.slots = true →
    ∃ t, exec (.registerWrite path win offset data) s = .next t ∧
      ∀ a, ((0x0140 ≤ a ∧ a < 0x0180) ∨ (0x8000 ≤ a ∧ a < 0x10000 ∧ 0x800 ≤ a % 0x1000)) →
        cellGet 0 t.mci.slots a = cellGet 0 s.mci.slots a) ∧
  (∀ (win : RegWindow) (offset : Nat) (hi lo : Byte) (data : List Byte) (s : State), pathOpen s .spi = true →
    exec (.registerWrite .spi win offset (0x02 :: hi :: lo :: data)) s =
      .next (bar0Write .spi (hi.toNat * 256 + lo.toNat) data s)) ∧
  (∀ (win : RegWindow) (offset : Nat) (hi lo dummy : Byte) (rest : List Byte) (s : State), pathOpen s .spi = true →
    ∃ t, exec (.registerWrite .spi win offset (0x03 :: hi :: lo :: dummy :: rest)) s = .next t ∧
      t.mci.spiRead = (List.range rest.length).map (fun k =>
        bar0Read .spi s ((hi.toNat * 256 + lo.toNat + k) % 2 ^ 16)) ∧ { t with mci := s.mci } = s) ∧
  (∀ (win : RegWindow) (offset : Nat) (transfer : List Byte) (s : State), pathOpen s .spi = false →
    exec (.registerWrite .spi win offset transfer) s = .next s) ∧
  (∀ (v : Nat) (s : State), v < 64 → s.mci.msixOn = true → s.mci.funcMask = false → s.mci.pba.getLsbD v = true →
    ∃ t, exec (.msixVectorUnmask v) s = .next t ∧ t.mci.sent = s.mci.sent ++ [v] ∧
      t.mci.pba = s.mci.pba &&& ~~~(1#64 <<< v) ∧ { t with mci := s.mci } = s) ∧
  (∀ (a b : Byte) (s : State),
    ∃ t, exec (.registerWrite .pcie .msix 0 [a, b]) s = .next t ∧ t.mci.msixOn = b.getLsbD 7 ∧
      t.mci.funcMask = b.getLsbD 6 ∧ { t with mci := s.mci } = s)

/-- R57, R60, core.ping and core.session: HELLO's version, E and the closing of the session; the sessions of a mailbox.
R61, R62: core.info and the violation log as they are read: the replies' layouts. R71: a late reply raises 0x0000. -/
def Obligations.HelloSessionsAndReads : Prop :=
  (∀ (rq : Req) (s : State), served 0x0000 rq s = true → rq.mailbox < s.mci.boxes.length →
    chosenVersion s (rq.u8 0) (rq.u8 1) ≠ 0 →
    helloBehind s rq = false →
    ∃ t, exec (.hello rq) s = .next t ∧ t.mci.inUse = BitVec.ofNat 8 (chosenVersion s (rq.u8 0) (rq.u8 1)) ∧
      t.mci.abortedJobs = 0 ∧
      (rq.mailbox < 8 → (t.box rq.mailbox).hello = true ∧ (t.box rq.mailbox).expected = rq.seq + 1 ∧
        (t.box rq.mailbox).session = none ∧
        (t.box rq.mailbox).bound = some ((s.box rq.mailbox).bound.getD (helloPath s rq))) ∧
      { t with mci := s.mci } = s) ∧
  (∀ (rq : Req) (s : State), served 0x0002 rq s = true →
    exec (.corePing rq) s = .next (respond rq 0x0002 Status.ok rq.payload s)) ∧
  (∀ (rq : Req) (s : State), served 0x0004 rq s = true → rq.mailbox < s.mci.boxes.length → rq.mailbox < 8 →
    rq.u32 0 = 0x45585054 →
    rq.u16 4 ≤ 3600 → (s.box rq.mailbox).session = none → ∀ i, nextSession s = some i →
    ∃ t, exec (.coreSessionOpen rq) s = .next t ∧ (t.box rq.mailbox).session = some i ∧
      (t.box rq.mailbox).idleS = rq.u16 4 ∧ t.mci.sessLast = i ∧ (∀ q, (s.box q).session ≠ some i) ∧ i ≠ 0 ∧
      { t with mci := s.mci } = s) ∧
  (∀ (rq : Req) (s : State), served 0x0005 rq s = true → (s.box rq.mailbox).session = some (BitVec.ofNat 8 (rq.u8 0)) →
    exec (.coreSessionClose rq) s = .next (respond rq 0x0005 Status.ok []
      (s.modBox rq.mailbox fun b => { b with session := none, idleS := 0 }))) ∧
  (∀ (p : Nat) (s : State), (s.box p).idleS ≠ 0 → s.coreUp hostCore = true →
    exec (.sessionIdleTimeout p) s = .next ((s.advanceTo ((s.box p).consumedAt.toNat +
      (s.box p).idleS * 1600000000)).modBox p fun b => { b with session := none, idleS := 0 })) ∧
  (∀ (rq : Req) (s : State), served 0x0001 rq s = true →
    ∃ p, exec (.coreInfo rq) s = .next (respond rq 0x0001 Status.ok p s) ∧ p.length = 40 ∧
    leAt p 0 2 = s.deviceNo ∧ leAt p 2 1 = 1 ∧ leAt p 16 2 = s.nLinks ∧
    leAt p 20 4 = s.mci.vcount.n ∧ leAt p 24 4 = s.mci.eventDrops.n ∧ leAt p 32 8 = s.time.toNat) ∧
  (∀ (rq : Req) (s : State), served 0x0006 rq s = true →
    ∃ p, exec (.coreVlogRead rq) s = .next (respond rq 0x0006 Status.ok p s) ∧
    leAt p 0 4 = s.mci.vcount.n ∧ leAt p 8 1 ≤ 14 ∧ p.length = 12 + 16 * leAt p 8 1 ∧
    (s.mci.vlog = [] → leAt p 8 1 = 0 ∧ leAt p 4 4 = s.mci.vnext.toNat)) ∧
  (∀ (p : Nat) (seq : BitVec 16) (u : Unposted) (s : State), replyFull (s.box p) = false → s.coreUp hostCore = true →
    (s.box p).unposted.find? (fun u => u.seq = seq && !u.late) = some u →
    exec (.mciReplyLate p seq) s = .next (presentFw 0x0000 none 0
      ((s.advanceTo (u.from'.toNat + 2 * ticksPerSecond)).modBox p fun b =>
        { b with unposted := b.unposted.map fun v => if v = u then { v with late := true } else v })))

/-- R35, R37, R45, R74, R79: a host link reset empties the endpoint: rings, slots, sessions, what waits and the MSI-X state;
device time runs on, the violation log is kept and the orphans of active work are remembered. -/
def Obligations.HostLinkResetEmptiesTheEndpoint : Prop :=
  ∀ (s : State), ∃ t, exec .hostLinkReset s = .next t ∧ t.mci.inUse = 0 ∧ t.mci.boxes.length = 8 ∧
    (∀ b ∈ t.mci.boxes, b.session = none ∧ b.hello = false ∧ b.bound = none ∧ b.reqPi = 0 ∧ b.reqCi = 0 ∧ b.rplPi = 0 ∧
      b.rplCi = 0) ∧
    t.mci.slots = [] ∧ t.mci.dispatched = [] ∧ t.mci.events = [] ∧ t.mci.urgBusy = false ∧ t.mci.pba = 0 ∧
    (∀ e ∈ t.mci.msix, e.ctrl = 1) ∧ t.mci.vlog = s.mci.vlog ∧ t.mci.vcount = s.mci.vcount ∧ t.time = s.time ∧
    t.mci.abortedJobs = s.mci.abortedJobs + (activeCtxs s).length ∧ t.atoll = s.atoll ∧ t.mci.st = s.mci.st

/-! ### Confluence (spec/03_phase_timebase.md) -/

/-- R80, R87, R91, R92: a source that is set off is OFF with an empty FIFO; a local source that is enabled takes its
settings and the gains of R91 and enters ACQUIRE at its nominal rate; raw filter settings wait for the next edge; a
source that does not exist is OUT_OF_RANGE; a status reply gives device time, EPOCH and the counts. R92, R93: no edge
for LOST_INTERVALS intervals after the predicted one: with STANDSTILL_OK the source is STILL and raises nothing,
otherwise it is LOST and TB_SRC_LOST_BOUND or TB_SRC_LOST_FREE is raised. -/
def Obligations.SourcesAreSetAndLost : Prop :=
  (∀ (rq : Req) (s : State), served 0x0201 rq s = true → s.sources.length = 96 → sourceExists (rq.u8 0) = true → rq.u8 1 = 0 →
    sourceInUse s (rq.u8 0) = false →
    ∃ t, exec (.timebaseSourceSet rq) s = .next t ∧ (t.source (rq.u8 0)).st = .off ∧ (t.source (rq.u8 0)).fifo = [] ∧
      (∀ j, j ≠ rq.u8 0 → t.source j = s.source j) ∧ t.links = s.links ∧ t.time = s.time) ∧
  (∀ (rq : Req) (s : State), served 0x0201 rq s = true → s.sources.length = 96 → sourceExists (rq.u8 0) = true →
    rq.u8 0 < 64 → rq.u8 1 = 1 →
    rq.u8 2 ≤ 63 → 1 ≤ rq.u32 4 → rq.u32 4 ≤ 50000000 → 1 ≤ rq.u32 8 → rq.u32 8 ≤ rq.u32 4 * 50 →
    (rq.u16 12 = 0 ∨ (5 ≤ rq.u16 12 ∧ rq.u16 12 ≤ 10000)) → rq.u16 16 ≤ 4096 → rq.u8 18 = 0xFF →
    sourceInUse s (rq.u8 0) = false →
    ∃ t, exec (.timebaseSourceSet rq) s = .next t ∧ (t.source (rq.u8 0)).st = .acquire ∧
      (t.source (rq.u8 0)).nominal = rq.u32 4 ∧ (t.source (rq.u8 0)).deglitch = rq.u8 2 ∧
      (t.source (rq.u8 0)).period = rq.u16 16 ∧ (t.source (rq.u8 0)).primed = false ∧
      ((t.source (rq.u8 0)).alpha, (t.source (rq.u8 0)).beta) = gainsOf (rq.u32 4) (rq.u32 8) ∧
      (t.source (rq.u8 0)).p = roundDiv (1600000000 * 65536) (rq.u32 4) ∧
      (∀ j, j ≠ rq.u8 0 → t.source j = s.source j) ∧ t.links = s.links ∧ t.time = s.time) ∧
  (∀ (rq : Req) (s : State), served 0x0280 rq s = true → rq.u8 0 ≤ 49 → 52 ≤ rq.u32 8 → rq.u32 8 ≤ 102400 → 2 ≤ rq.u8 12 →
    rq.u8 12 ≤ 16 →
    2 ≤ rq.u8 13 → rq.u8 13 ≤ 64 → 1 ≤ rq.u8 14 → sourceInUse s (rq.u8 0) = false →
    exec (.timebaseFilterRaw rq) s = .next (respond rq 0x0280 Status.ok [] (s.modSource (rq.u8 0) fun x =>
      { x with raw := some { alpha := rq.u16 2, beta := rq.u16 4, tol := rq.u32 8, lost := rq.u8 12, acq := rq.u8 13,
                             run := rq.u8 14, gains := true } }))) ∧
  (∀ (rq : Req) (s : State), served 0x0202 rq s = true → sourceExists (rq.u8 0) = true →
    ∃ p, exec (.timebaseSourceStatus rq) s = .next (respond rq 0x0202 Status.ok p s) ∧ p.length = 56 ∧
      leAt p 0 8 = s.time.toNat ∧ leAt p 10 2 = (s.source (rq.u8 0)).epoch.toNat ∧
      leAt p 40 4 = (s.source (rq.u8 0)).missed.n ∧ leAt p 44 4 = (s.source (rq.u8 0)).rollbacks.n ∧
      leAt p 48 4 = (s.source (rq.u8 0)).overruns.n) ∧
  (∀ (rq : Req) (s : State), served 0x0201 rq s = true → sourceExists (rq.u8 0) = false →
    exec (.timebaseSourceSet rq) s = .next (respond rq 0x0201 Status.outOfRange [] s) ∧
    exec (.timebaseSourceStatus rq) s = .next (respond rq 0x0202 Status.outOfRange [] s)) ∧
  (∀ (i : Nat) (s : State), i < 50 → i ≠ 24 → i ≠ 25 → i < s.sources.length → (s.source i).st = .track →
    ∃ t, exec (.sourceLostTimeout i) s = .next t ∧
      (t.source i).st = (if (s.source i).flags.getLsbD 4 then .still else .lost) ∧
      t.flt.presented.length = s.flt.presented.length + (if (s.source i).flags.getLsbD 4 then 0 else 1) ∧
      ((s.source i).flags.getLsbD 4 = false → (t.flt.presented.getLast?.map fun r => (r.source, r.unit)) =
        some (if anchoredLanes s i ≠ 0 then 0x0040 else 0x0041, some i)) ∧
      (∀ j, j ≠ i → t.source j = s.source j) ∧ t.links = s.links ∧ t.mci = s.mci)

/-- R83 to R86: a transition of an input whose level lasts shorter than DEGLITCH, or that leaves the level behind the
filter as it was, only lets time pass; an accepted edge takes its place in the FIFO with the device time of the edge; one
that finds 16 edges is lost, counted and raises TB_OVERRATE; an illegal transition of an encoder is counted, keeps the
count and raises TB_QUAD_ERR. -/
def Obligations.EdgesAreCaptured : Prop :=
  (∀ (i : Nat) (p : PinEdge) (stamp : BitVec 64) (s : State), i < 34 →
    (s.source i).deglitch ≤ p.held → p.level = (s.source i).levels.getLsbD 0 →
    exec (.edgeCapture i ⟨.level p, stamp⟩) s =
      .next (s.advanceTo (stamp.toNat + (s.source i).deglitchTicks i))) ∧
  (∀ (i : Nat) (p : PinEdge) (stamp : BitVec 64) (s : State), p.held < (s.source i).deglitch →
    exec (.edgeCapture i ⟨.level p, stamp⟩) s =
      .next (s.advanceTo (stamp.toNat + (s.source i).deglitchTicks i))) ∧
  (∀ (i : Nat) (p : PinEdge) (stamp : BitVec 64) (s : State), i < 16 → i < s.sources.length →
    (s.source i).st ≠ .off → (s.source i).deglitch ≤ p.held → p.level ≠ (s.source i).levels.getLsbD 0 →
    (s.source i).fifo.length < 16 →
    ∃ t, exec (.edgeCapture i ⟨.quad (some p) none, stamp⟩) s = .next t ∧
      (t.source i).fifo = (s.source i).fifo ++
        [{ stamp := 64 * (stamp.toNat : Int),
           delta := if stepForward (s.source i).levels true ≠ (s.source i).flags.getLsbD 2 then 1 else -1,
           illegal := (s.source i).illegalNext }] ∧
      (t.source i).levels = setLevel 0 p.level (s.source i).levels ∧
      (∀ j, j ≠ i → t.source j = s.source j) ∧
      { t with sources := s.sources } = s.advanceTo (stamp.toNat + (s.source i).deglitchTicks i)) ∧
  (∀ (i : Nat) (p : PinEdge) (stamp : BitVec 64) (s : State), i < 16 → i < s.sources.length → (s.source i).st ≠ .off →
    (s.source i).deglitch ≤ p.held → p.level ≠ (s.source i).levels.getLsbD 0 → 16 ≤ (s.source i).fifo.length →
    exec (.edgeCapture i ⟨.quad (some p) none, stamp⟩) s = .next (present 0x0042 (some i) 0
      (((s.advanceTo (stamp.toNat + (s.source i).deglitchTicks i)).modSource i fun x =>
        { x with levels := setLevel 0 p.level x.levels }).modSource i fun x => { x with overruns := x.overruns.inc }))) ∧
  (∀ (i : Nat) (p q : PinEdge) (stamp : BitVec 64) (s : State), i < 16 → i < s.sources.length → (s.source i).st ≠ .off →
    (s.source i).deglitch ≤ p.held → p.level ≠ (s.source i).levels.getLsbD 0 →
    (s.source i).deglitch ≤ q.held → q.level ≠ (s.source i).levels.getLsbD 1 →
    exec (.edgeCapture i ⟨.quad (some p) (some q), stamp⟩) s = .next (present 0x0048 (some i) 0
      (((s.advanceTo (stamp.toNat + (s.source i).deglitchTicks i)).modSource i fun x =>
        { x with levels := setLevel 1 q.level (setLevel 0 p.level x.levels) }).modSource i fun x =>
        { x with missed := x.missed.inc, illegalNext := true })))

/-- R86, R88, R89, R101: an edge within tolerance that the tracker takes from the FIFO of a source in TRACK, 32 ticks after
the one before it at the earliest, moves the count by its step, and T_N and P by ALPHA and BETA of its error e; nothing
is rolled back. -/
def Obligations.TrackerFollowsTheEdge : Prop :=
  ∀ (i : Nat) (ed : FifoEdge) (rest : List FifoEdge) (s : State), i < 16 → i < s.sources.length →
    (s.source i).fifo = ed :: rest → ed.delta ≠ 0 → ed.illegal = false → (s.source i).st = .track →
    (s.source i).primed = true → (s.source i).raw = none → (s.source i).repctl = none → bdStations s i = [] →
    let x := s.source i
    let that := roundDiv (x.tN * 1024 + ed.delta * x.p) 1024
    let e := ed.stamp - that
    (e.natAbs : Int) ≤ tolerance s x →
    ∃ t, exec (.trackerEdgeUpdate i) s = .next t ∧ (t.source i).fifo = rest ∧ (t.source i).takenAt = some t.time ∧
      (t.source i).n = BitVec.ofInt 48 (x.n.toNat + ed.delta) ∧
      (t.source i).tN = roundDiv (that * 65536 + x.alpha * e) 65536 ∧
      (t.source i).p = roundDiv (x.p * 64 * ed.delta + x.beta * e) (64 * ed.delta) ∧
      (t.source i).lastError = e ∧ (t.source i).runCount = 0 ∧ (t.source i).st = .track ∧
      (∀ j, j ≠ i → t.source j = s.source j) ∧
      { t with sources := s.sources } = (match x.takenAt with
        | some a => s.advanceTo (a.toNat + 32)
        | none => s)

/-- R104 to R106: a standalone device drives no slot; the master's frames start at the multiples of 32,000 ticks and
every 16th carries TYPE 1 with its time; a peer that joins is held to 10 ms and to its steps (R107). R106, R110: a good
slot with TYPE 0 refreshes the remote source it publishes, a slot with a bad CRC is counted and logged with the code 1
of interface 3, and a silent master or peer takes its remote sources into HOLDOVER. -/
def Obligations.SyncBusFrames : Prop :=
  (∀ (s : State), s.sync.mode = 0 →
    exec .syncFrameStart s = .next { s with sync := { s.sync with txSlot := none } }) ∧
  (∀ (f : Nat) (s : State), s.sync.mode = 1 → s.timeRuns = true → s.sync.txSlot = none → f % 16 = 0 →
    s.time.toNat = f * 32000 →
    ∃ t, exec .syncFrameStart s = .next t ∧ t.sync.frame = f ∧ t.time = s.time ∧
      t.sync.txSlot = some (slotWord 1 0 (f * 32000 / 2 ^ 16) (f * 32000 % 2 ^ 16) 0) ∧
      { t with sync := s.sync } = s) ∧
  (∀ (rq : Req) (s : State), served 0x0203 rq s = true → rq.u8 0 = 2 → 1 ≤ rq.u8 1 → rq.u8 1 ≤ 7 → rq.u8 2 ≤ 1 →
    (∀ k, k < 4 → rq.u8 (4 + k) = 255 ∨ rq.u8 (4 + k) ≤ 49) → s.sync.join = none →
    ∃ t, exec (.timebaseSyncConfig rq) s = .next t ∧ t.sync.mode = 2 ∧ t.sync.index = rq.u8 1 ∧ t.sync.st = 1 ∧
      t.sync.joinStep = 1 ∧ t.sync.join = some (rq.ctx s 0x0203) ∧ t.sync.joinAt = s.time ∧ t.time = s.time) ∧
  (∀ (rq : Req) (s : State), served 0x0203 rq s = true → 2 < rq.u8 0 →
    exec (.timebaseSyncConfig rq) s = .next (respond rq 0x0203 Status.badValue [] s)) ∧
  (∀ (offset : Int) (s : State), s.sync.st = 1 → s.sync.joinStep = 1 → s.sync.step = false → offset.natAbs ≤ 1024 →
    exec (.syncJoinMeasure offset) s = .next { s with sync := { s.sync with offset := offset, joinStep := 2 } }) ∧
  (∀ (s : State), s.sync.st = 1 → s.sync.joinStep = 2 →
    exec .syncJoinEcho s = .next { s with sync := { s.sync with joinStep := 3 } }) ∧
  (∀ (c : Ctx) (s : State), s.sync.join = some c →
    ∃ t, exec .syncJoinDeadline s = .next t ∧ t.sync.mode = 0 ∧ t.sync.st = 0 ∧ t.sync.join = none ∧
      t.time = (s.advanceTo (s.sync.joinAt.toNat + 16000000)).time) ∧
  (∀ (dev tag count time period late : Nat) (s : State), s.sources.length = 96 → s.sync.mode = 1 → 1 ≤ dev → dev < 8 →
    s.sync.index = 0 → s.sync.peers.getLsbD dev = true → tag < 4 → count < 2 ^ 48 → time < 2 ^ 63 → period < 2 ^ 47 →
    (s.source (64 + 4 * dev + tag)).st = .track →
    ∃ t, exec (.syncSlotReceive dev ⟨slotWord 0 tag count time period, late⟩) s = .next t ∧
      (t.source (64 + 4 * dev + tag)).n = BitVec.ofNat 48 count ∧ (t.source (64 + 4 * dev + tag)).tN = time ∧
      (t.source (64 + 4 * dev + tag)).p = period ∧ (t.source (64 + 4 * dev + tag)).st = .track ∧
      (∀ j, j ≠ 64 + 4 * dev + tag → t.source j = s.source j) ∧ t.time = s.time) ∧
  (∀ (dev : Nat) (slot : BitVec 200) (late : Nat) (s : State), s.sync.mode = 1 → s.sync.st = 2 → dev < 8 → dev ≠ s.sync.index →
    slot.toNat % 256 = 0xA7 → slotGood slot = false → at' s.sync.crcRun dev 0 ≠ 7 →
    ∃ t, exec (.syncSlotReceive dev ⟨slot, late⟩) s = .next t ∧ t.sync.crcErrors = s.sync.crcErrors.inc ∧
      t.sources = s.sources ∧ Safety.Logged 3 dev 1 { s with sync := t.sync } t) ∧
  (∀ (s : State), s.sync.mode = 2 → s.sync.st = 2 → s.sources.length = 96 →
    ∃ t, exec .syncMasterSilent s = .next t ∧ t.sync.st = 3 ∧
      (∀ i, 64 ≤ i → i < 96 → (t.source i).st = if (s.source i).st = .off then .off else .holdover) ∧
      (∀ i, i < 64 → t.source i = s.source i) ∧ t.mci.vcount = s.mci.vcount.inc ∧ t.time = s.time) ∧
  (∀ (dev : Nat) (s : State), s.sync.mode ≠ 0 → dev < 8 → s.sync.peers.getLsbD dev = true → s.sources.length = 96 →
    ∃ t, exec (.syncPeerSilent dev) s = .next t ∧ t.sync.peers.getLsbD dev = false ∧
      (∀ j, j < 4 → (t.source (64 + 4 * dev + j)).st =
        if (s.source (64 + 4 * dev + j)).st = .off then .off else .holdover) ∧
      (∀ i, i < 64 → t.source i = s.source i) ∧ t.mci.vcount = s.mci.vcount.inc ∧ t.time = s.time)

/-! ### Lanes and beam links (spec/04_lanes_and_links.md) -/

/-- R129, R130, R131: the steps of a link-up: link.config starts the training of a link that is off; comma lock sends
CAP; the CAP reply chooses the version and VERSION_SET is sent; version 1 comes up on its ACK, version 2 after sixteen
probe echoes, with D = L + PARTNER_DELAY + TRIM; a step that is not done is a failed link-up. R116, R131 to R133:
lane.map gives a station its links in order; link.config.raw sets the override of D on a link that carries nothing
active; link.status reports the state, the causes and the counts. -/
def Obligations.LinksTrain : Prop :=
  (∀ (rq : Req) (s : State), served 0x0302 rq s = true → rq.u8 0 < s.nLinks → rq.u8 1 = 1 → (rq.u8 2 = 1 ∨ rq.u8 2 = 2) →
    (rq.u8 3 = 0 ∨ (10 ≤ rq.u8 3 ∧ rq.u8 3 ≤ 80)) → (s.link (rq.u8 0)).st = .off →
    fenced s 0x0062 (rq.u8 0) = false → fenced s 0x0063 (rq.u8 0) = false → linkActive s (rq.u8 0) = false →
    ∃ u, exec (.linkConfig rq) s = .next (accept rq 0x0302 [] (startTraining (rq.u8 0) (some (rq.ctx u 0x0302))
        (u.modLink (rq.u8 0) fun x => { x with retries := 0 }))) ∧
      u = txStart (rq.u8 0) (s.modLink (rq.u8 0) fun x =>
        { x with blpMax := rq.u8 2, lead := if rq.u8 3 = 0 then 20 else rq.u8 3, trim := rq.i16 4 })) ∧
  (∀ (l : Nat) (s : State), l < s.nLinks → (s.link l).st = .training → (s.link l).step = 1 →
    exec (.commaLock l) s = .next (sendCtl l 1 (3 * 2 ^ 32 + l * 2 ^ 24 + s.deviceNo * 2 ^ 8)
      (s.modLink l fun x => { x with step := 3 }))) ∧
  (∀ (l : Nat) (payload : List Byte) (s : State), l < s.nLinks → (s.link l).st = .training → (s.link l).step = 3 →
    512 ≤ leAt payload 1 2 → commonVersion (leAt payload 0 1) (s.link l).blpMax ≠ 0 →
    let v := commonVersion (leAt payload 0 1) (s.link l).blpMax
    exec (.capReplyReceive l payload) s = .next (sendCtl l 5 (v * 2 ^ 32)
      ((s.modLink l fun x => { x with bufDepth := leAt payload 1 2, partnerDelay := leAt payload 3 2,
                                      turnaround := leAt payload 5 2 }).modLink l fun x =>
        { x with version := v, step := 4 }))) ∧
  (∀ (l : Nat) (payload : BitVec 40) (s : State), l < s.nLinks → (s.link l).deaf = false →
    (5, payload) ∈ (s.link l).ackWait → (s.link l).st = .training → (s.link l).step = 4 →
    let u := s.modLink l fun x => { x with ackWait := x.ackWait.erase (5, payload) }
    exec (.ackReceive l 5 payload) s = .next
      (if (s.link l).version = 2 then sendProbes l (u.modLink l fun x => { x with step := 5 })
       else finishTraining l u)) ∧
  (∀ (l : Nat) (payload : BitVec 40) (roundTrip : Nat) (s : State), s.links.length = 24 → l < s.nLinks →
    (s.link l).deaf = false → (s.link l).st = .training → (s.link l).step = 5 → (s.link l).version = 2 →
    (∃ b ∈ (s.link l).tx, b.1 = true ∧ b.2.toNat / 2 ^ 16 = 6 * 2 ^ 40 + payload.toNat) →
    (s.link l).probes.length = 15 → (s.link l).dOverride = none →
    let x := s.link l
    let oneWay := openDivI ((((x.probes.sum + roundTrip : Nat) : Int)) - 16 * x.turnaround) 32
    let d := oneWay + x.partnerDelay + x.trim
    dOk d = true → leadOk x.lead x.bufDepth = true →
    ∃ t, exec (.probeEchoReceive l payload roundTrip) s = .next t ∧ (t.link l).st = .up ∧ (t.link l).d = d ∧
      (t.link l).oneWay = oneWay ∧ (t.link l).causes = x.causes &&& ~~~(1#7 <<< 6)) ∧
  (∀ (l : Nat) (s : State), l < s.nLinks → (s.link l).st = .training →
    exec (.linkTrainDeadline l) s = .next (trainFail l s)) ∧
  (∀ (l : Nat) (s : State), l < s.nLinks → (s.link l).st = .training → (s.link l).step = 3 →
    exec (.capReplyTimeout l) s = .next (trainFail l (linkViolation l 0x05 0x01 s))) ∧
  (∀ (l : Nat) (s : State), l < s.nLinks → (s.link l).st = .down → (s.link l).retrainWait = true →
    (s.link l).retries < 3 → (s.link l).enabled = true →
    exec (.linkRetrainTimer l) s =
      .next (startTraining l none (s.modLink l fun x => { x with retries := x.retries + 1 }))) ∧
  (∀ (rq : Req) (s : State), served 0x0301 rq s = true → s.stations.length = 4 → s.mci.personality = .press →
    rq.u8 0 ≤ 3 → rq.u8 1 ≤ 6 →
    let ls := (rq.bytes 4 (rq.u8 1)).map (·.toNat)
    (∀ l ∈ ls, l < s.nLinks) → ls.Nodup →
    (∀ l ∈ ls, ∀ k, k < 4 → k ≠ rq.u8 0 → l ∉ (s.station k).links) → pageActive s (rq.u8 0) = false →
    ∃ t, exec (.laneMap rq) s = .next t ∧ (t.station (rq.u8 0)).links = ls ∧
      (∀ k, k ≠ rq.u8 0 → (t.station k).links = (s.station k).links)) ∧
  (∀ (rq : Req) (s : State), served 0x0301 rq s = true → s.mci.personality ≠ .press →
    ∃ t, exec (.laneMap rq) s = .next t ∧ t.stations = s.stations ∧ t.links = s.links ∧
      t.mci.vcount = s.mci.vcount.inc) ∧
  (∀ (rq : Req) (s : State), served 0x0380 rq s = true → rq.u8 0 < s.nLinks → rq.u8 1 ≤ 15 → rq.u8 2 ≤ 15 → rq.u32 4 ≤ 1048575 →
    linkActive s (rq.u8 0) = false →
    exec (.linkConfigRaw rq) s = .next (respond rq 0x0380 Status.ok [] (s.modLink (rq.u8 0) fun x =>
      { x with rawNext := some (rq.u8 1, rq.u8 2), dOverride := some (rq.u32 4),
               d := if x.alive then (rq.u32 4 : Int) else x.d }))) ∧
  (∀ (rq : Req) (s : State), served 0x0303 rq s = true → rq.u8 0 < s.nLinks →
    ∃ p, exec (.linkStatus rq) s = .next (respond rq 0x0303 Status.ok p s) ∧ p.length = 40 ∧
      leAt p 0 1 = linkStateCode (s.link (rq.u8 0)).st ∧ leAt p 2 1 = (s.link (rq.u8 0)).causeBits ∧
      leAt p 16 4 = (s.link (rq.u8 0)).violations.n ∧ leAt p 24 4 = (s.link (rq.u8 0)).txLate.n ∧
      leAt p 32 4 = (s.link (rq.u8 0)).linkDowns.n) ∧
  (∀ (rq : Req) (s : State), served 0x0303 rq s = true → s.nLinks ≤ rq.u8 0 →
    exec (.linkStatus rq) s = .next (respond rq 0x0303 Status.outOfRange [] s))

/-- R127, R128, R139 to R141: what the back-channel's messages and silences do on a link that hears: telemetry is kept,
partner status is answered, each violation is counted, logged and staged, comma loss takes the link down. R139 and R141:
a violation of a link counts in VIOLATIONS whatever its stage, and is logged with INTERFACE 2, the link and its code. -/
def Obligations.BackChannel : Prop :=
  (∀ (l : Nat) (payload : List Byte) (s : State), s.links.length = 24 → l < s.nLinks → (s.link l).deaf = false →
    (s.link l).st = .up → (s.link l).version = 2 → leAt payload 12 2 = 0 → linkStation s l = none →
    (s.head l).inLayer = false →
    ∃ u, exec (.telemetryReceive l payload) s = .next (takeReading (16 + l) (2 * leAtI payload 10 2) false u) ∧
      (u.link l).monitors = ((List.range 8).map fun k => leAt payload k 1) ∧
      (u.link l).emitOk = BitVec.ofNat 8 (leAt payload 8 1) ∧ (u.link l).temp = some (leAtI payload 10 2) ∧
      (u.link l).headerErrors = leAt payload 14 2 ∧ (u.link l).telemAt = s.time ∧ (u.link l).telemMiss = 0 ∧
      (∀ k, k ≠ l → u.link k = s.link k) ∧ { u with links := s.links, heads := s.heads } = s) ∧
  (∀ (l : Nat) (payload : List Byte) (s : State), l < s.nLinks → (s.link l).deaf = false → (s.link l).st = .up →
    (s.link l).version ≠ 1 →
    let kept := s.modLink l fun x =>
      { x with monitors := (List.range 8).map fun k => leAt payload k 1, emitOk := BitVec.ofNat 8 (leAt payload 8 1),
               temp := some (leAtI payload 10 2), headerErrors := leAt payload 14 2, telemAt := s.time, telemMiss := 0 }
    let told := if leAt payload 12 2 = 0 then kept else reportLate l (leAt payload 12 2) 0x03 kept
    exec (.telemetryReceive l payload) s = .next (takeReading (16 + l) (2 * leAtI payload 10 2) false
      ((telemetryHead l (telemetryBeams l told)).modLink l fun x =>
        { x with lanes := x.lanes.map fun t => { t with lit := false } }))) ∧
  (∀ (l : Nat) (payload : List Byte) (s : State), l < s.nLinks → (s.link l).deaf = false → (s.link l).version = 1 →
    exec (.telemetryReceive l payload) s = .next (linkViolation l 0x09 0x03 s)) ∧
  (∀ (l : Nat) (kind : BadMessage) (type : Byte) (s : State), l < s.nLinks → (s.link l).deaf = false →
    exec (.backchannelBadMessage l kind type) s = .next (linkViolation l
      (match kind with | .crc => 0x01 | .unknownType => 0x02 | .notAllowed => 0x09) type.toNat s)) ∧
  (∀ (l : Nat) (s : State), l < s.nLinks → (s.link l).deaf = false →
    exec (.backchannelCodeError l) s = .next (linkViolation l 0x03 0 s)) ∧
  (∀ (l : Nat) (s : State), l < s.nLinks → (s.link l).deaf = false →
    exec (.statusReceive l 1) s = .next (linkDown l (linkViolation l 0x0A 0x05 s)) ∧
    exec (.statusReceive l 2) s = .next (present 0x0064 (some l) 0 (linkViolation l 0x0C 0x05 s)) ∧
    exec (.statusReceive l 4) s = .next (reportLate l 1 0x05 s)) ∧
  (∀ (l : Nat) (bits : Byte) (s : State), l < s.nLinks → (s.link l).deaf = false →
    let fault := if bits.getLsbD 1 then present 0x0064 (some l) 0 (linkViolation l 0x0C 0x05 s) else s
    let late := if bits.getLsbD 2 then reportLate l 1 0x05 fault else fault
    exec (.statusReceive l bits) s =
      .next (if bits.getLsbD 0 then linkDown l (linkViolation l 0x0A 0x05 late) else late)) ∧
  (∀ (l : Nat) (c : BitVec 8) (p : BitVec 40) (rest : List (BitVec 8 × BitVec 40)) (s : State), l < s.nLinks →
    (s.link l).ackWait = (c, p) :: rest →
    exec (.ackTimeout l) s = .next (linkViolation l 0x06 c.toNat (sendBlock l true (ctlWord c.toNat p.toNat)
      (s.modLink l fun x => { x with ackWait := rest ++ [(c, p)] })))) ∧
  (∀ (l : Nat) (s : State), l < s.nLinks → (s.link l).st = .up → (s.link l).version = 2 →
    exec (.telemetryTimeout l) s = .next (linkViolation l 0x08 0x03
      ((s.advanceTo ((s.link l).telemAt.toNat + 96000 * ((s.link l).telemMiss + 1))).modLink l fun x =>
        { x with temp := none, telemMiss := (s.link l).telemMiss + 1 }))) ∧
  (∀ (l : Nat) (s : State), exec (.resyncRelock l) s = .next (s.modLink l fun x => { x with resyncing := false })) ∧
  (∀ (s : State),
    let u := s.advanceTo ((s.time.toNat + 1599999) / 1600000 * 1600000)
    exec .violationWindowStart s = .next { u with links := s.links.map fun x =>
      { x with win := u.time.toNat / 1600000,
               winCount := if x.win = u.time.toNat / 1600000 then x.winCount else 0 } }) ∧
  (∀ (l : Nat) (s : State), s.links.length = 24 → l < s.nLinks → ((s.link l).st = .up ∨ (s.link l).st = .degraded) →
    ∃ t, exec (.commaLossTimeout l) s = .next t ∧ (t.link l).st = .down ∧ (t.link l).causes.getLsbD 6 = true ∧
      (t.link l).linkDowns = (s.link l).linkDowns.inc ∧ (t.link l).retrainWait = true) ∧
  (∀ (l code type : Nat) (s : State), s.links.length = 24 → l < s.nLinks → (s.link l).alive = false →
    ((linkViolation l code type s).link l).violations = (s.link l).violations.inc ∧
    ((linkViolation l code type s).link l).st = (s.link l).st ∧
    Safety.Logged 2 l code { s with links := (linkViolation l code type s).links } (linkViolation l code type s) ∧
    (∀ k, k ≠ l → (linkViolation l code type s).link k = s.link k))

/-- R123, R124, R134: the words that the clock sends on a link whose transmitter runs: TIMESYNC with the device time
modulo 2^40, KEEPALIVE, and the GATE word of a gated link; a link that does not talk sends none. R40, R138:
lane.gate.release names one release time, no earlier than now plus LEAD, for the named links without any cause 0 to 6; a
link with a cause stays gated; at that time the link opens if no cause has been set since. -/
def Obligations.ControlWordsAndReleases : Prop :=
  (∀ (l : Nat) (s : State), s.links.length = 24 → l < s.nLinks → (s.link l).enabled = true →
    (s.link l).txFrom.isSome = true →
    ∃ t, exec (.timesyncSend l) s = .next t ∧
      (t.link l).tx = (s.link l).tx ++ [(true, ctlWord 2 (s.time.toNat % 2 ^ 40))] ∧
      (∀ k, k ≠ l → t.link k = s.link k) ∧ { t with links := s.links } = s) ∧
  (∀ (l : Nat) (s : State), s.links.length = 24 → l < s.nLinks → (s.link l).enabled = true →
    (s.link l).txFrom.isSome = true →
    ∃ t, exec (.keepaliveSend l) s = .next t ∧ (t.link l).tx = (s.link l).tx ++ [(true, ctlWord 7 0)] ∧
      (∀ k, k ≠ l → t.link k = s.link k) ∧ { t with links := s.links } = s) ∧
  (∀ (l : Nat) (s : State), s.links.length = 24 → l < s.nLinks → (s.link l).enabled = true →
    (s.link l).txFrom.isSome = true → (s.link l).gated = true →
    ∃ t, exec (.gateWordRepeat l) s = .next t ∧
      (t.link l).tx = (s.link l).tx ++
        [(true, ctlWord 3 (0xFF * 2 ^ 32 + (s.link l).lowestCause * 2 ^ 24))] ∧
      (t.link l).causes = (s.link l).causes ∧ (∀ k, k ≠ l → t.link k = s.link k) ∧ { t with links := s.links } = s) ∧
  (∀ (l : Nat) (s : State), (s.link l).enabled = false →
    exec (.timesyncSend l) s = .next s ∧ exec (.keepaliveSend l) s = .next s ∧ exec (.gateWordRepeat l) s = .next s) ∧
  (∀ (l : Nat) (s : State), (s.link l).gated = false → exec (.gateWordRepeat l) s = .next s) ∧
  (∀ (rq : Req) (s : State), served 0x0304 rq s = true → s.links.length = 24 → rq.u32 0 = 2 → rq.u64 8 = 0 →
    (s.link 1).lead ≤ 80 →
    ∃ t, exec (.laneGateRelease rq) s = .next t ∧
      ((s.link 1).causes = 0 → (s.link 1).releaseAt = none →
        (t.link 1).releaseAt = some (BitVec.ofNat 64 (s.time.toNat + (s.link 1).lead * 160)) ∧ (t.link 1).opened = false) ∧
      ((s.link 1).causes ≠ 0 → t.link 1 = s.link 1) ∧ (∀ l, l ≠ 1 → t.link l = s.link l) ∧
      { t with links := s.links, mci := s.mci } = s) ∧
  (∀ (rq : Req) (s : State), served 0x0304 rq s = true → (∃ l ∈ maskLinks s (rq.u32 0), s.nLinks ≤ l) →
    exec (.laneGateRelease rq) s = .next (respond rq 0x0304 Status.outOfRange [] s)) ∧
  (∀ (rq : Req) (s : State), served 0x0304 rq s = true → s.links.length = 24 →
    let named := maskLinks s (rq.u32 0)
    let soonest := s.time.toNat + (named.map fun l => (s.link l).lead * 160).foldl max 0
    let at_ := if rq.u64 8 = 0 then soonest else rq.u64 8
    (∀ l ∈ named, l < s.nLinks) → soonest ≤ at_ → at_ ≤ s.time.toNat + 2 ^ 32 →
    ∃ t, exec (.laneGateRelease rq) s = .next t ∧
      (∀ l ∈ named, (s.link l).causes = 0 → (s.link l).releaseAt = none →
        (t.link l).releaseAt = some (BitVec.ofNat 64 at_) ∧ (t.link l).opened = false ∧ (t.link l).causes = 0) ∧
      (∀ l, l ∉ named ∨ (s.link l).causes ≠ 0 ∨ (s.link l).releaseAt ≠ none → t.link l = s.link l) ∧
      { t with links := s.links, mci := s.mci } = s) ∧
  (∀ (l : Nat) (r : BitVec 64) (s : State), (s.link l).releaseAt = some r → (s.link l).causes = 0 →
    exec (.gateReleaseAt l) s = .next ((s.advanceTo r.toNat).modLink l fun x => { x with opened := true })) ∧
  (∀ (l : Nat) (s : State), (s.link l).causes ≠ 0 → exec (.gateReleaseAt l) s = .next s)

/-- R135, R523: a low nSTOP of 8 ns or more sets gate cause 0 on every link and raises LNK_NSTOP; its rise clears cause 0
and opens nothing; a pulse below 3 ns does nothing. -/
def Obligations.NstopGatesEveryLink : Prop :=
  (∀ (w : Nat) (s : State), s.links.length = 24 → 8 ≤ w →
    ∃ t, exec (.nstopFall w) s = .next t ∧ t.nStop = false ∧
      (∀ l, l < s.nLinks → (t.link l).causes.getLsbD 0 = true) ∧
      (t.flt.presented.getLast?.map fun r => (r.source, r.unit)) = some (0x0066, none)) ∧
  (∀ (w : Nat) (s : State), s.links.length = 24 → 8 ≤ w →
    ∃ t, exec (.nstopRise w) s = .next t ∧ t.nStop = true ∧
      (∀ l, l < s.nLinks → t.link l = { s.link l with causes := (s.link l).causes &&& ~~~1#7 }) ∧
      { t with links := s.links, nStop := s.nStop } = s) ∧
  (∀ (w : Nat) (s : State), w < 3 → exec (.nstopFall w) s = .next s ∧ exec (.nstopRise w) s = .next s)

/-! ### Run-ahead and the Weir (spec/05_run_ahead.md) -/

/-- R100, R113, R125: an event takes its place at the end of its lane's queue with its stamp, or with that of the event
before it plus one sub-tick where its own is no later; the other lanes and links keep their queues. -/
def Obligations.QueuesKeepStampOrder : Prop :=
  ∀ (l k : Nat) (e : QEvent) (s : State), l < s.nLinks → l < s.links.length → k < (s.link l).queues.length →
    k < (s.link l).lanes.length →
    let last := (at' (s.link l).lanes k {}).last
    let stamp := match last with
      | some t => max e.stamp (t + 1)
      | none => e.stamp
    at' ((pushEvent l k e s).link l).queues k [] = at' (s.link l).queues k [] ++ [{ e with stamp := stamp }] ∧
    (at' ((pushEvent l k e s).link l).lanes k {}).last = some stamp ∧
    (∀ j, j ≠ k → at' ((pushEvent l k e s).link l).queues j [] = at' (s.link l).queues j []) ∧
    (∀ m, m ≠ l → (pushEvent l k e s).link m = s.link m) ∧ { pushEvent l k e s with links := s.links } = s

/-- R145, R172, R220: the sequencers queue what their lane's plan names next: at arm lane 4 of a head takes Z_FOCUS; in
Press a page's pixel that is next, placed, due and clear of the guard time of the next edge joins its lane's queue. A
lane whose link is in no station, or that has no personality to follow, queues nothing. R147, R148, R150, R158, R226:
the head's next vector within its window is admitted once its record has been read: planned behind the others, its token
PENDING; a tile that is good is VERIFIED; a vector that a rollback has discarded is admitted again. -/
def Obligations.SequencersAdmitAndQueue : Prop :=
  (∀ (h : Nat) (s : State), h < s.nLinks → s.mci.personality = .forge → 4 ∈ (s.head h).armNext →
    exec (.eventQueue (8 * h + 4) .arm) s = .next (pushEvent h 4
      { plan := .arm, unit := none, value := s.forge.zFocus, gate := true,
        stamp := s.now + (s.link h).d + (s.link h).leadSub, anchor := none, pitch := 0, pixel := none, gain := 0 }
      ({ s with free := s.free + 1 }.modHead h fun x => { x with armNext := x.armNext.filter (· ≠ 4) }))) ∧
  (∀ (l k i n j : Nat) (w : Sweep) (s : State), l < s.nLinks → k < 8 → s.mci.personality = .press →
    linkStation s l = some i →
    let st := s.station i
    let b := 8 * st.links.idxOf l + k
    let e : PlanEvent := .pixel n j
    let u := laneFetch i w b j (s.advanceSub (queueAt s l k (pressEvent s i w b e) 20))
    let ev := pressEvent u i w b e
    eventSweep st e = some w → w.admitted = true → w.rebuilt = false → planIndex st w b e = some (at' w.next b 0) →
    sweepsQueued st w.n b = true → placed s (pressEvent s i w b e).anchor = true →
    queueDue s l k (pressEvent s i w b e) 20 = true →
    orderedStamp (u.link l) k ev.stamp ≤ bdTime u i ((w.n + 1) % 2 ^ 48) - nsSub st.guardNs →
    exec (.eventQueue (8 * l + k) e) s = .next (pushEvent l k ev
      (u.modSweep i w.n fun w => { w with next := modAt w.next b (· + 1) }))) ∧
  (∀ (lane : Nat) (e : PlanEvent) (s : State), s.mci.personality = .press → linkStation s (lane / 8) = none →
    exec (.eventQueue lane e) s = .next s) ∧
  (∀ (lane : Nat) (e : PlanEvent) (s : State), s.mci.personality = .none → exec (.eventQueue lane e) s = .next s) ∧
  (∀ (h : Nat) (r : Rec) (s : State), h < s.nHeads → h < s.heads.length → mayAdmit s h = true →
    (s.head h).nextRecord = some r → r.type ≠ 3 →
    (nextOpens s h ≤ s.now + (s.head h).ra.inForce * 1600 * 64 ∨ ∀ v ∈ (s.head h).vecs, v.committed = true) →
    (s.head h).overCap ((s.head h).planned r (s.head h).pos) = false →
    let u := generatorRead r s
    let staged := stagedRecord u r
    let v := { (u.head h).plan staged (nextOpens s h) (u.head h).rolled with ready := recordReady u r, readyAt := u.time }
    h < u.heads.length →
    ∃ t, exec (.forgeVectorAdmit h) s = .next t ∧ (t.head h).vecs = (u.head h).vecs ++ [v] ∧
      (t.head h).todo = (u.head h).todo.erase r ∧ (t.head h).pos = staged.target ∧ (t.head h).endAt = v.finish ∧
      ((t.head h).token = if staged.emits = true ∧ (u.head h).token = .none then .pending else (u.head h).token) ∧
      (∀ k, k ≠ h → t.head k = u.head k) ∧ { t with heads := u.heads, lag := u.lag } = u) ∧
  (∀ (h : Nat) (r : Rec) (s : State), mayAdmit s h = true → (s.head h).nextRecord = some r → r.type ≠ 3 →
    (nextOpens s h ≤ s.now + (s.head h).ra.inForce * 1600 * 64 ∨ ∀ v ∈ (s.head h).vecs, v.committed = true) →
    (s.head h).overCap ((s.head h).planned r (s.head h).pos) = true →
    exec (.forgeVectorAdmit h) s = .next (refuseEnergy h ((s.head h).vecs.any fun v => !v.committed) s)) ∧
  (∀ (h : Nat) (s : State), mayAdmit s h = false → exec (.forgeVectorAdmit h) s = .next s) ∧
  (∀ (k : Nat) (s : State), (s.tile k).allocated = true → (s.tile k).fill = none → (s.tile k).verified = false →
    (s.tile k).id ≠ 0 → (s.tile k).failed = 0 → awaitsFill s k = false → tileGood s k = true → s.lag.inject = [] →
    ∃ t, exec (.tileAdmissionCheckDone k) s = .next t ∧ (t.tile k).verified = true ∧ (t.tile k).admitted = true ∧
      (t.tile k).id = (s.tile k).id ∧ t.lag.data = s.lag.data ∧ t.links = s.links ∧ t.flt = s.flt) ∧
  (∀ (h q : Nat) (v : Vec) (s : State),
    ((s.head h).vecs.find? fun v => v.r.seqNo = q && !v.committed && !v.admitted) = some v →
    headRollingBack s h = false → (s.head h).overCap v.planned = false →
    let u := generatorRead v.r s
    exec (.unitReady (.vector h q)) s = .next (admitRecord v.r (u.modHead h fun x =>
      { x.modVec q (fun v => { v with admitted := true, ready := recordReady u v.r, readyAt := u.time,
                                      r := stagedRecord u v.r, cap := (u.head h).powerCap }) with
        token := if v.r.emits && x.token = .none then .pending else x.token })))

/-- R125, R143, R160: when device time reaches its hand-off the event at the front of a lane leaves its queue and is sent;
the first event of a sweep commits it: the station counts the sweep and the unit, and one that is not ready is an
underrun. -/
def Obligations.TheWeirHandsOff : Prop :=
  (∀ (l k i n : Nat) (w : Sweep) (e : QEvent) (s : State), l < s.nLinks → k < 8 → s.front l k = some e →
    placed s e.anchor = true → e.unit = some (.sweep i n) →
    ((s.station i).sweeps.find? fun w => w.n = n) = some w → w.committed = true →
    exec (.weirHandoff (8 * l + k)) s = .next (handoffPress i l k w e
      ((s.advanceSub ((s.link l).handoffAt e.stamp)).popFront l k))) ∧
  (∀ (l k : Nat) (e : QEvent) (s : State), l < s.nLinks → k < 8 → s.front l k = some e →
    placed s e.anchor = true → e.unit = none → s.mci.personality = .press →
    let u := (s.advanceSub ((s.link l).handoffAt e.stamp)).popFront l k
    let dark := (s.link l).dark e.stamp
    exec (.weirHandoff (8 * l + k)) s = .next (lateCheck l e.stamp
      (sendEvent l k (if dark then 0 else e.value) (e.gate && !dark) e.stamp e.pitch false u))) ∧
  (∀ (i : Nat) (w : Sweep) (s : State), i < s.stations.length → w.committed = false → w.job = none →
    rollingBack s i = false → w.admitted = true →
    (commitSweep i w s).2 = true ∧
    ((commitSweep i w s).1.station i).sweepsDone = (s.station i).sweepsDone + 1 ∧
    ((commitSweep i w s).1.station i).ra.committed = (s.station i).ra.committed + 1 ∧
    ((commitSweep i w s).1.station i).ra.underruns =
      (if w.ready then (s.station i).ra.underruns else (s.station i).ra.underruns.inc)) ∧
  (∀ (i : Nat) (w : Sweep) (s : State), w.committed = false → w.job = none → rollingBack s i = true →
    commitSweep i w s = (s, false)) ∧
  (∀ (lane : Nat) (s : State), s.front (lane / 8) (lane % 8) = none → exec (.weirHandoff lane) s = .next s)

/-- R156, R157: the end of a rollback frees the Weir and is recorded in the longest time of its stations; a rollback
that takes longer than 5 µs from its latest trigger, 8,000 ticks, raises 0x0085, once. runahead.rollback.force is a trigger with code 6. R146, R147, R149: runahead.config
stores a station's window at once, or for its next page while one is active; the scope must be that of the personality
in use; runahead.status reports the window in force and the counts. -/
def Obligations.RollbacksAndWindows : Prop :=
  (∀ (ns : Nat) (r : Rollback) (s : State), s.rollback = some r → r.forced = [] → r.heads = [] →
    let u := s.advanceTo (r.first.toNat + ceilDiv (ns * 8) 5)
    ∃ t, exec (.rollbackComplete ns) s = .next t ∧ t.rollback = none ∧
      (∀ i, i ∈ r.stations → i < s.stations.length →
        (t.station i).ra.maxNs = max (s.station i).ra.maxNs (min ns (2 ^ 32 - 1))) ∧
      (∀ i, i ∉ r.stations → t.station i = s.station i) ∧
      ((r.late = true ∨ u.time.toNat ≤ r.at'.toNat + 8000) → t.flt = u.flt) ∧
      (r.late = false → r.at'.toNat + 8000 < u.time.toNat →
        (t.flt.presented.getLast?.map fun q => (q.source, q.unit)) = some (0x0085, none)) ∧
      { t with stations := s.stations, rollback := s.rollback, flt := s.flt } = u) ∧
  (∀ (r : Rollback) (s : State), s.rollback = some r →
    let u := { s.advanceTo (r.at'.toNat + 8001) with rollback := some { r with late := true } }
    ((r.late = true ∨ u.time.toNat ≤ r.at'.toNat + 8000) → exec .rollbackOvertime s = .next u) ∧
    (r.late = false → r.at'.toNat + 8000 < u.time.toNat →
      exec .rollbackOvertime s = .next (present 0x0085 none 0 u))) ∧
  (∀ (s : State), s.rollback = none →
    exec .rollbackOvertime s = .next s ∧ ∀ ns, exec (.rollbackComplete ns) s = .next s) ∧
  (∀ (rq : Req) (s : State), served 0x0480 rq s = true → rq.u32 0 = 0 →
    ∃ t r, exec (.runaheadRollbackForce rq) s = .next t ∧ t.rollback = some r ∧
      (rq.ctx s 0x0480, s.time) ∈ r.forced ∧ t.time = s.time) ∧
  (∀ (rq : Req) (s : State), served 0x0401 rq s = true → rq.u8 0 = 0 → rq.u8 1 ≤ 3 → s.mci.personality = .press →
    (rq.u16 2 = 0 ∨ (16 ≤ rq.u16 2 ∧ rq.u16 2 ≤ 1024)) → (rq.u16 4 = 0 ∨ (20 ≤ rq.u16 4 ∧ rq.u16 4 ≤ 10000)) →
    let w := if rq.u16 2 = 0 then 64 else rq.u16 2
    let margin := if rq.u16 4 = 0 then 100 else rq.u16 4
    exec (.runaheadConfig rq) s = .next (respond rq 0x0401 Status.ok
      (leBytes 2 w ++ leBytes 1 (bit (pageActive s (rq.u8 1))) ++ zeros 1)
      (s.modStation (rq.u8 1) fun st => { st with ra :=
        { st.ra with window := w, margin := margin,
                     inForce := if pageActive s (rq.u8 1) then st.ra.inForce else w } }))) ∧
  (∀ (rq : Req) (s : State), served 0x0401 rq s = true → rq.u8 0 = 1 → rq.u8 1 < s.nHeads → s.mci.personality = .press →
    exec (.runaheadConfig rq) s = .next (respond rq 0x0401 Status.badValue [] s) ∧
    exec (.runaheadStatus rq) s = .next (respond rq 0x0402 Status.badValue [] s)) ∧
  (∀ (rq : Req) (s : State), served 0x0402 rq s = true → rq.u8 0 = 1 → rq.u8 1 < s.nHeads → s.mci.personality = .forge →
    (s.head (rq.u8 1)).ra.inForce < 65536 → (s.head (rq.u8 1)).ra.rb.length = 6 →
    ∃ p, exec (.runaheadStatus rq) s = .next (respond rq 0x0402 Status.ok p s) ∧ p.length = 64 ∧
      leAt p 0 2 = (s.head (rq.u8 1)).ra.inForce ∧ leAt p 8 8 = (s.head (rq.u8 1)).ra.committed.toNat ∧
      leAt p 40 4 = (s.head (rq.u8 1)).ra.missed.n)

/-! ### Press imaging (spec/06_press_imaging.md) -/

/-- R166, R168, R180: a station's configuration is stored and its sweeps are dropped; a source in use by another station is
BUSY, an active page is STATE. -/
def Obligations.PressStationIsConfigured : Prop :=
  (∀ (rq : Req) (s : State), served 0x0501 rq s = true → s.stations.length = 4 → s.mci.personality = .press → rq.u8 0 ≤ 3 →
    let i := rq.u8 0
    let st := s.station i
    st.beams ≠ 0 → 4 ≤ rq.u8 1 → rq.u8 1 ≤ 12 → 16 ≤ rq.u8 2 → rq.u8 2 ≤ 23 → 1 ≤ rq.u32 8 →
    rq.u32 8 ≤ scanLimit (rq.u16 4) → 20000 ≤ rq.u32 12 → rq.u32 12 ≤ 140000 → 1000 ≤ rq.u32 20 →
    rq.u32 20 ≤ 100000 → rq.u8 24 < st.beams → rq.u8 25 < st.beams → rq.u8 24 ≠ rq.u8 25 → 1 ≤ rq.u8 26 →
    rq.u8 26 ≤ 16 → 5 ≤ rq.u8 27 → rq.u8 27 ≤ 100 → 100 ≤ rq.u16 28 → rq.u16 28 ≤ 10000 → rq.u8 30 ≤ 16 →
    rq.u8 31 ≤ 16 → rq.u8 33 ≤ 8 → rq.u8 34 = 0xFF →
    (∀ k, k < 4 → k ≠ i → (s.station k).configured = true → (s.station k).bdSource ≠ rq.u8 2) →
    pageActive s i = false → sosTooEarly s i (rq.u32 16) (st.skewNext.getD st.skew) = false →
    ∃ t, exec (.pressStationConfig rq) s = .next t ∧ (t.station i).configured = true ∧ (t.station i).facets = rq.u8 1 ∧
      (t.station i).bdSource = rq.u8 2 ∧ (t.station i).dpi = rq.u16 4 ∧ (t.station i).pixels = rq.u32 8 ∧
      (t.station i).clockKhz = rq.u32 12 ∧ (t.station i).sosNs = rq.u32 16 ∧ (t.station i).guardNs = rq.u32 20 ∧
      (t.station i).lead0 = rq.u8 24 ∧ (t.station i).lead1 = rq.u8 25 ∧ (t.station i).slots = rq.u8 26 ∧
      (t.station i).deltaMax = rq.u8 33 ∧ (t.station i).sweeps = [] ∧ (t.station i).links = st.links ∧
      (t.station i).dead = st.dead ∧ t.time = s.time ∧
      (deltaExhausted st = true ∨ deltaExhausted (t.station i) = false → t.flt = s.flt) ∧
      (deltaExhausted st = false → deltaExhausted (t.station i) = true →
        (t.flt.presented.getLast?.map fun r => (r.source, r.unit)) = some (0x00A1, some i))) ∧
  (∀ (rq : Req) (s : State), served 0x0501 rq s = true → s.mci.personality = .press → 3 < rq.u8 0 →
    exec (.pressStationConfig rq) s = .next (respond rq 0x0501 Status.outOfRange [] s))

/-- R175, R178, R180, R183: the tables of a station: SKEW and the pixel table wait for the next page; a Delta table is
accepted, and its load stores it for the next page when its bytes have the CRC and no entry has g = 15. R181, R182:
press.beam.force.dead declares the named beams dead and press.delta.clear makes them live again while no page is active;
R184: a live beam merges only a dead neighbour, the lower-indexed of two; the status replies give DEAD_MASK,
UNCOVERED_MASK and the counts. -/
def Obligations.PressTablesAndDelta : Prop :=
  (∀ (rq : Req) (s : State), served 0x0502 rq s = true → s.mci.personality = .press → rq.u8 0 ≤ 3 →
    rq.u8 1 = (s.station (rq.u8 0)).beams →
    let skew := (List.range (rq.u8 1)).map fun b => rq.i32 (4 + 4 * b)
    (∀ v ∈ skew, v.natAbs ≤ 1048575) → sosTooEarly s (rq.u8 0) (s.station (rq.u8 0)).sosNs skew = false →
    exec (.pressBeamTable rq) s = .next (respond rq 0x0502 Status.ok []
      (s.modStation (rq.u8 0) fun st => { st with skewNext := some skew }))) ∧
  (∀ (rq : Req) (s : State), served 0x0503 rq s = true → s.mci.personality = .press → rq.u8 0 ≤ 3 →
    exec (.pressPixelTable rq) s = .next (respond rq 0x0503 Status.ok []
      (s.modStation (rq.u8 0) fun st => { st with pcNext := some ((rq.bytes 4 16).map (·.toNat)) }))) ∧
  (∀ (rq : Req) (b : List Byte) (s : State),
    let u := tableRead 0x0504 rq (rq.u64 4) 512 s
    served 0x0504 rq u = true → u.mci.personality = .press → rq.u8 0 ≤ 3 →
    u.table (rq.u64 4) 512 = some b → crc32c b = BitVec.ofNat 32 (rq.u32 12) → deltaTableOk b = true →
    exec (.pressDeltaTable rq) s = .next (accept rq 0x0504 [] (u.modStation (rq.u8 0) fun st =>
      { st with deltaLoad := st.deltaLoad ++ [(rq.ctx u 0x0504, rq.u64 4, BitVec.ofNat 32 (rq.u32 12))] }))) ∧
  (∀ (i : Nat) (host b : List Byte) (c : Ctx) (address : Nat) (crc : BitVec 32) (rest : List (Ctx × Nat × BitVec 32))
    (s : State), i < s.stations.length → (s.station i).deltaLoad = (c, address, crc) :: rest →
    s.tableOr address 512 host = some b →
    (crc32c b = crc → deltaTableOk b = true →
      exec (.pressDeltaTableLoaded i host) s = .next (complete c Status.ok [] (s.modStation i fun st =>
        { st with deltaLoad := rest, deltaNext := some ((b.map (·.toNat)).take 256, (b.map (·.toNat)).drop 256) }))) ∧
    (crc32c b ≠ crc ∨ deltaTableOk b = false →
      exec (.pressDeltaTableLoaded i host) s = .next (complete c Status.failed []
        (s.modStation i fun st => { st with deltaLoad := rest })))) ∧
  (∀ (rq : Req) (s : State), served 0x0580 rq s = true → s.stations.length = 4 → s.mci.personality = .press → rq.u8 0 ≤ 3 →
    (s.station (rq.u8 0)).beams ≤ 48 → (∀ b, b < 64 → (rq.u64 8).testBit b = true → b < (s.station (rq.u8 0)).beams) →
    ∃ t, exec (.pressBeamForceDead rq) s = .next t ∧
      ∀ b, b < 48 → (t.station (rq.u8 0)).dead.getLsbD b = ((s.station (rq.u8 0)).dead.getLsbD b || (rq.u64 8).testBit b)) ∧
  (∀ (rq : Req) (s : State), served 0x0506 rq s = true → s.stations.length = 4 → s.mci.personality = .press → rq.u8 0 ≤ 3 →
    pageActive s (rq.u8 0) = false →
    ∃ t, exec (.pressDeltaClear rq) s = .next t ∧
      (∀ b, b < 48 → (t.station (rq.u8 0)).dead.getLsbD b =
        ((s.station (rq.u8 0)).dead.getLsbD b && !(rq.u64 8).testBit b)) ∧
      (t.station (rq.u8 0)).exhausted = deltaExhausted (t.station (rq.u8 0)) ∧
      (∀ k, k ≠ rq.u8 0 → t.station k = s.station k) ∧ t.links = s.links ∧ t.flt = s.flt) ∧
  (∀ (rq : Req) (s : State), served 0x0506 rq s = true → s.mci.personality = .press → rq.u8 0 ≤ 3 →
    pageActive s (rq.u8 0) = true →
    exec (.pressDeltaClear rq) s = .next (respond rq 0x0506 Status.state [] s)) ∧
  (∀ (dead : BitVec 48) (beams b d : Nat), mergedBy dead beams b = some d →
    deadAt dead b = false ∧ deadAt dead d = true ∧ (d + 1 = b ∨ (d = b + 1 ∧ d < beams)) ∧
    (d = b + 1 → b = 0 ∨ deadAt dead (b - 1) = false)) ∧
  (∀ (rq : Req) (s : State), served 0x0505 rq s = true → s.mci.personality = .press → rq.u8 0 ≤ 3 →
    (∃ p, exec (.pressDeltaStatus rq) s = .next (respond rq 0x0505 Status.ok p s) ∧ p.length = 32 ∧
      leAt p 0 8 = (s.station (rq.u8 0)).dead.toNat ∧ leAt p 16 4 = (s.station (rq.u8 0)).byTelem.n ∧
      leAt p 20 4 = (s.station (rq.u8 0)).byBd.n ∧ leAt p 24 4 = (s.station (rq.u8 0)).stray.n) ∧
    (∃ p, exec (.pressStationStatus rq) s = .next (respond rq 0x0507 Status.ok p s) ∧ p.length = 32 ∧
      leAt p 0 8 = (s.station (rq.u8 0)).sweepsDone.toNat ∧ leAt p 16 4 = (s.station (rq.u8 0)).dropped.n ∧
      leAt p 28 4 = (s.station (rq.u8 0)).clipped.n))

/-! ### Press process (spec/07_press_process.md) -/

/-- R192 to R195, R199 to R202: the media settings; a page that is submitted is QUEUED at its station with its bands on
their way to the decompressor; an abort reaches the pages of its ID on the stations of its mask; a page whose line
position runs ahead without a sweep is aborted with cause 4 and raises 0x00C8. -/
def Obligations.PagesAreSubmittedAndAborted : Prop :=
  (∀ (rq : Req) (s : State), served 0x0601 rq s = true → s.mci.personality = .press → rq.u8 0 ≤ 1 → rq.u8 1 ≤ 15 →
    26 ≤ rq.u8 2 → rq.u8 2 ≤ 33 →
    (rq.u8 3 ≤ 15 ∨ rq.u8 3 = 0xFF) → rq.u32 4 ≠ 0 → rq.u16 12 ≠ 0 →
    exec (.pressMediaConfig rq) s = .next (respond rq 0x0601 Status.ok [] { s with media :=
      { kind := rq.u8 0, pace := rq.u8 1, top := rq.u8 2, check := if rq.u8 3 = 0xFF then none else some (rq.u8 3),
        linesPerCount := rq.u32 4, ratio := rq.u32 8, slipLimit := rq.u16 12,
        offsets := (List.range 4).map fun i => rq.i32 (16 + 4 * i) } })) ∧
  (∀ (rq : Req) (bs : List Band) (s : State), served 0x0602 rq s = true → rq.u64 16 < 2 ^ 48 →
    let u := tableRead 0x0602 rq (rq.u64 16) (24 * rq.u16 12) s
    served 0x0602 rq u = true → u.stations.length = 4 →
    u.mci.personality = .press → rq.u8 0 ≤ 3 →
    1 ≤ rq.u32 8 → rq.u32 8 ≤ 4194304 →
    ((u.station (rq.u8 0)).jobs.filter fun j => j.st ≠ .completed && j.st ≠ .aborted).length < 8 →
    (u.station (rq.u8 0)).configured = true → (u.station (rq.u8 0)).exhausted = false → u.pwr.grace = none →
    u.stationFed (rq.u8 0) = true →
    bandList u (rq.u8 0) (rq.u64 16) (rq.u16 12) (BitVec.ofNat 32 (rq.u32 24)) (rq.u32 8) = some bs →
    ∃ t j, exec (.pressPageSubmit rq) s = .next t ∧ (t.station (rq.u8 0)).jobs = (u.station (rq.u8 0)).jobs ++ [j] ∧
      j.st = .queued ∧ j.pageId = BitVec.ofNat 32 (rq.u32 4) ∧ j.lines = rq.u32 8 ∧ j.bands = bs ∧ j.media = u.media ∧
      j.ctx = rq.ctx u 0x0602 ∧ j.written = 0 ∧ t.dma.fwQueue.length = u.dma.fwQueue.length + bs.length ∧
      (∀ k, k ≠ rq.u8 0 → t.station k = u.station k) ∧
      { t with stations := u.stations, dma := u.dma, mci := u.mci, jobSerial := u.jobSerial } = u) ∧
  (∀ (rq : Req) (s : State), served 0x0603 rq s = true → s.stations.length = 4 → s.mci.personality = .press → rq.u8 4 = 1 →
    (s.station 0).sweeps = [] → (∀ j ∈ (s.station 0).jobs, j.pageId = BitVec.ofNat 32 (rq.u32 0) ∧ j.st = .queued) →
      (s.station 0).jobs ≠ [] →
    ∃ t, exec (.pressPageAbort rq) s = .next t ∧ (t.station 0).jobs = [] ∧ t.forge = s.forge ∧
      t.dram = s.dram ∧ t.time = s.time) ∧
  (∀ (rq : Req) (s : State), served 0x0603 rq s = true → s.mci.personality = .press →
    (∀ i, i < 4 → ∀ j ∈ (s.station i).jobs, j.pageId ≠ BitVec.ofNat 32 (rq.u32 0)) →
    exec (.pressPageAbort rq) s = .next (respond rq 0x0603 Status.notFound [] s)) ∧
  (∀ (i : Nat) (j : Job) (s : State),
    ((s.station i).jobs.find? fun j => j.st = .armed && j.lastL0.isNone) = some j →
    exec (.armedJobNoTrack i) s = .next (present 0x00C8 (some i) 0
      (abortJobsAt i (fun k => k.serial = j.serial) 4 0xFF 0 s)))

/-- R203, R204: an input edge waits out its debounce and one that returns is void; after the debounce the input has the
level and its role follows; a role is assigned to an input that Forge does not hold. -/
def Obligations.RoleInputs : Prop :=
  (∀ (g : Nat) (level : Bool) (s : State), g < s.gpi.length →
    ∃ t, exec (.gpiInputEdge g level) s = .next t ∧ (t.gpiOf g).level = level ∧
      ((t.gpiOf g).waiting = true ↔ level ≠ (s.gpiOf g).st) ∧ (t.gpiOf g).st = (s.gpiOf g).st ∧
      (∀ k, k ≠ g → t.gpiOf k = s.gpiOf k) ∧ { t with gpi := s.gpi } = s) ∧
  (∀ (g : Nat) (s : State), (s.gpiOf g).waiting = true →
    exec (.interlockDebounceExpiry g) s = .next (roleUpdate g (s.modGpi g fun x =>
      { x with st := x.level, waiting := false }))) ∧
  (∀ (g : Nat) (s : State), (s.gpiOf g).waiting = false → exec (.interlockDebounceExpiry g) s = .next s) ∧
  (∀ (rq : Req) (s : State), served 0x0604 rq s = true → s.mci.personality = .press → rq.u8 0 ≤ 31 → rq.u8 1 ≤ 4 →
    10 ≤ rq.u16 4 →
    rq.u8 3 ≤ 15 → rq.u8 6 ≤ 15 → (rq.u16 8 = 0 ∨ rq.u8 1 = 3) →
    ((s.gpiOf (rq.u8 0)).forge = false ∨ (s.gpiOf (rq.u8 0)).role = 0) →
    exec (.pressInterlockAssign rq) s = .next (respond rq 0x0604 Status.ok [] (setRole (rq.u8 0) (fun x =>
      { x with role := rq.u8 1, activeLow := rq.bit 2 0, forge := false, debounce := rq.u16 4,
               stations := BitVec.ofNat 8 (rq.u8 3), heaters := BitVec.ofNat 8 (rq.u8 6),
               axes := BitVec.ofNat 16 (rq.u16 8) }) s))) ∧
  (∀ (rq : Req) (s : State), served 0x0604 rq s = true → s.mci.personality = .press → 31 < rq.u8 0 →
    exec (.pressInterlockAssign rq) s = .next (respond rq 0x0604 Status.outOfRange [] s))

/-- R205 to R207: a bias channel's configuration with no loop drives its setpoint in open loop; a raw duty stands for it
until 0xFFFF releases it; a readback out of range for 5 ms raises 0x00C4 and marks the active page. R208, R210: the
accumulator of a heater fires a half-cycle, or in full-cycle mode a whole cycle at an even crossing, each time it
reaches 1.0 in 2.30; a decided half-cycle is triggered unless the heater is off; a temperature above OVER_TRIP, or an
open or shorted sensor, trips it and raises 0x00C6. -/
def Obligations.BiasAndHeaters : Prop :=
  (∀ (rq : Req) (s : State), served 0x0605 rq s = true → s.bias.length = 16 → s.mci.personality = .press → rq.u8 0 ≤ 15 →
    rq.u8 1 ≤ 3 →
    rq.u8 2 ≤ 3 → rq.u8 3 = 0xFF → 1 ≤ rq.u16 6 → rq.u16 6 ≤ 32767 → 1 ≤ rq.u16 8 → rq.u16 8 ≤ 32767 →
    rq.bit 10 0 = false → pageActive s (rq.u8 2) = false → (s.biasOf (rq.u8 0)).loop = none →
    (s.biasOf (rq.u8 0)).held = false → (s.biasOf (rq.u8 0)).raw = none → s.flt.fatal = none →
    ∃ t, exec (.pressBiasConfig rq) s = .next t ∧ (t.biasOf (rq.u8 0)).role = rq.u8 1 ∧
      (t.biasOf (rq.u8 0)).configured = true ∧ (t.biasOf (rq.u8 0)).setpoint = rq.i16 4 ∧
      (t.biasOf (rq.u8 0)).fullScale = rq.u16 6 ∧ (t.biasOf (rq.u8 0)).tol = rq.u16 8 ∧
      (t.biasOf (rq.u8 0)).duty = (clampI 0 4095 (nearest (rq.i16 4 * 4095) (rq.u16 6))).toNat ∧
      t.engine = s.engine ∧ t.flt = s.flt) ∧
  (∀ (rq : Req) (s : State), served 0x0680 rq s = true → s.bias.length = 16 → s.mci.personality = .press → rq.u8 0 ≤ 15 →
    rq.u16 2 ≤ 4095 →
    pageActive s (s.biasOf (rq.u8 0)).station = false →
    ∃ t, exec (.pressBiasRaw rq) s = .next t ∧ (t.biasOf (rq.u8 0)).raw = some (rq.u16 2) ∧
      (t.biasOf (rq.u8 0)).duty = (if (s.biasOf (rq.u8 0)).held then 0 else rq.u16 2) ∧
      (∀ c, c ≠ rq.u8 0 → t.biasOf c = s.biasOf c) ∧ { t with bias := s.bias, mci := s.mci, free := s.free } = s) ∧
  (∀ (c : Nat) (s : State), (s.biasOf c).configured = true → s.coreUp heaterCore = true →
    exec (.biasRangeTimeout c) s = .next (present 0x00C4 (some c) 0 (s.modJobs (s.biasOf c).station fun j =>
      if j.st = .active then { j with flags := j.flags ||| jobBias ||| jobDamaged } else j))) ∧
  (∀ (h crossing : Nat) (s : State), h < s.heaters.length → (s.heater h).configured = true →
    (s.source (s.heater h).zc).st = .track → (s.heater h).full = false → (s.heater h).off = false →
    (s.heater h).tripped = false → (s.heater h).loop ≠ none →
    let acc := (s.heater h).acc + min (s.heater h).u ((s.heater h).density * 2 ^ 22)
    ∃ t, exec (.heaterDecision h crossing) s = .next t ∧
      (t.heater h).acc = (if 2 ^ 30 ≤ acc then acc - 2 ^ 30 else acc) ∧
      (t.heater h).fire = (s.heater h).fire + (if 2 ^ 30 ≤ acc then 1 else 0) ∧
      (∀ k, k ≠ h → t.heater k = s.heater k) ∧ { t with heaters := s.heaters } = s) ∧
  (∀ (h : Nat) (s : State), (s.heater h).fire ≠ 0 → (s.heater h).off = false → (s.heater h).tripped = false →
    exec (.heaterGatePulse h) s =
      .next (s.modHeater h fun x => { x with fire := x.fire - 1, pulses := x.pulses + 1 })) ∧
  (∀ (h : Nat) (s : State), ((s.heater h).fire = 0 ∨ (s.heater h).off = true ∨ (s.heater h).tripped = true) →
    exec (.heaterGatePulse h) s = .next s) ∧
  (∀ (h counts : Nat) (s : State), h < s.heaters.length → (s.heater h).configured = true → (s.heater h).overOn = false →
    counts < (at' s.therm.thermistors (s.heater h).input {}).openMin →
    ∃ t, exec (.fuserTempRead h counts) s = .next t ∧ (t.heater h).tripped = true ∧ (t.heater h).off = true ∧
      (t.heater h).acc = 0 ∧ (t.heater h).fire = 0 ∧
      (t.flt.presented.getLast?.map fun r => (r.source, r.unit)) = some (0x00C6, some h) ∧
      (∀ k, k ≠ h → t.heater k = s.heater k) ∧ { t with heaters := s.heaters, flt := s.flt } = s) ∧
  (∀ (rq : Req) (s : State), served 0x0606 rq s = true → s.heaters.length = 4 → s.mci.personality = .press → rq.u8 0 ≤ 3 →
    24 ≤ rq.u8 1 →
    rq.u8 1 ≤ 25 → rq.u8 2 = 0xFF → rq.u8 3 ≤ 1 → rq.u8 5 ≤ 31 → 50 ≤ rq.u16 6 → rq.u16 6 ≤ 300 → 10 ≤ rq.u16 8 →
    rq.u16 8 ≤ 5000 → rq.u16 10 ≤ 2000 → 10 ≤ rq.u16 12 → rq.u16 12 ≤ 1000 → (s.heater (rq.u8 0)).tripped = false →
    ∃ t, exec (.pressFuserConfig rq) s = .next t ∧ (t.heater (rq.u8 0)).configured = true ∧
      (t.heater (rq.u8 0)).zc = rq.u8 1 ∧ (t.heater (rq.u8 0)).loop = none ∧ (t.heater (rq.u8 0)).density = rq.u8 4 ∧
      (t.heater (rq.u8 0)).overTrip = rq.u16 6 ∧
      (t.heater (rq.u8 0)).acc = (if heaterHeld s (rq.u8 0) then 0 else (s.heater (rq.u8 0)).acc) ∧
      (∀ k, k ≠ rq.u8 0 → t.heater k = s.heater k))

/-! ### Forge scanning (spec/08_forge_scanning.md) -/

/-- R212, R213, R217, R220: a head's configuration is stored while no layer is ARMED, EXPOSING or PAUSED, and a park
position outside its field is a bad value; a jog starts a jump to its point. R214 to R216: a program that no running
layer uses is loaded and then checked; the slot is checked exactly when no rule is broken, and the completion names the
first rule broken. R231: an interlock of Forge takes its role; the grace of GAS_OK and O2_OK ends in the gate of the
named heads and FSC_GRACE_EXPIRED. R247: the permit's strings and dwell are stored while no layer is ARMED, EXPOSING or
PAUSED; every named string must be of a regulated function. -/
def Obligations.ForgeIsConfigured : Prop :=
  (∀ (rq : Req) (s : State), served 0x0701 rq s = true → s.heads.length = 24 → s.mci.personality = .forge →
    rq.u8 0 < s.nHeads → 10 ≤ rq.u8 1 →
    rq.u8 1 ≤ 100 → rq.u16 2 ≤ 1000 → rq.u16 4 ≠ 0 → rq.u16 6 ≤ 10000 → 1 ≤ rq.u16 32 → rq.u16 32 ≤ 10000 →
    ({ s.head (rq.u8 0) with ox := rq.i32 8, oy := rq.i32 12, m := [rq.i32 16, rq.i32 20, rq.i32 24, rq.i32 28] } :
      Head).inField ⟨rq.i32 36, rq.i32 40⟩ = true → layerBusy s = false →
    ∃ t, exec (.forgeHeadConfig rq) s = .next t ∧ (t.head (rq.u8 0)).configured = true ∧
      (t.head (rq.u8 0)).rate = rq.u8 1 ∧ (t.head (rq.u8 0)).trackDelay = rq.u16 2 ∧
      (t.head (rq.u8 0)).jumpSpeed = rq.u16 4 ∧ (t.head (rq.u8 0)).fullScale = rq.u16 32 ∧
      (t.head (rq.u8 0)).powerMax = rq.u16 34 ∧ (t.head (rq.u8 0)).park = ⟨rq.i32 36, rq.i32 40⟩ ∧
      (t.head (rq.u8 0)).energyCap = rq.u32 44 ∧ (∀ k, k ≠ rq.u8 0 → t.head k = s.head k) ∧
      (∀ p ∈ t.forge.programs, p.names (rq.u8 0) = true → p.checked = false) ∧ t.links = s.links ∧ t.flt = s.flt) ∧
  (∀ (rq : Req) (s : State), served 0x0780 rq s = true → s.mci.personality = .forge → rq.u8 0 < s.nHeads →
    (s.head (rq.u8 0)).inField ⟨rq.i32 4, rq.i32 8⟩ = true → s.forge.layer = .idle →
    (s.head (rq.u8 0)).configured = true →
    exec (.forgeHeadJog rq) s = .next (respond rq 0x0780 Status.ok []
      (startJump (rq.u8 0) s.now ⟨rq.i32 4, rq.i32 8⟩ s))) ∧
  (∀ (rq : Req) (s : State), served 0x0780 rq s = true → s.mci.personality = .forge → rq.u8 0 < s.nHeads →
    (s.head (rq.u8 0)).inField ⟨rq.i32 4, rq.i32 8⟩ = true → s.forge.layer = .exposing →
    exec (.forgeHeadJog rq) s = .next (respond rq 0x0780 Status.state [] s)) ∧
  (∀ (rq : Req) (s : State), served 0x0702 rq s = true →
    let u := readDramTable (rq.u64 4) 384 s
    served 0x0702 rq u = true → u.mci.personality = .forge → rq.u8 0 ≤ 3 →
    headTable u (rq.u64 4) (BitVec.ofNat 32 (rq.u32 12)) = none → u.forge.program ≠ rq.u8 0 →
    exec (.forgeProgramLoad rq) s = .next (accept rq 0x0702 [] (u.modProgram (rq.u8 0) fun p =>
      { checked := false,
        loading := p.loading ++ [(rq.ctx u 0x0702, rq.u64 4, BitVec.ofNat 32 (rq.u32 12))] }))) ∧
  (∀ (rq : Req) (s : State), served 0x0702 rq s = true →
    let u := readDramTable (rq.u64 4) 384 s
    served 0x0702 rq u = true → u.mci.personality = .forge → rq.u8 0 ≤ 3 →
    headTable u (rq.u64 4) (BitVec.ofNat 32 (rq.u32 12)) = none → u.forge.program = rq.u8 0 →
    u.forge.layer = .exposing → exec (.forgeProgramLoad rq) s = .next (respond rq 0x0702 Status.busy [] u)) ∧
  (∀ (k : Nat) (c : Ctx) (address : Nat) (crc : BitVec 32) (rest : List (Ctx × Nat × BitVec 32)) (s : State),
    (at' s.forge.programs k {}).loading = (c, address, crc) :: rest →
    let u := readProgram address crc s
    let r := checkProgram u address crc
    k < u.forge.programs.length → u.coreUp hostCore = true →
    ∃ t p, exec (.forgeProgramCheckDone k) s = .next t ∧
      t = complete c (if r.rule = 0 then Status.ok else Status.failed) p
        (u.modProgram k fun _ => { checked := r.rule = 0 && rest = [], arrays := r.arrays,
                                   bases := arrayBases u address crc, loading := rest }) ∧
      (at' t.forge.programs k {}).checked = decide (r.rule = 0 ∧ rest = []) ∧ p.length = 32 ∧
      leAt p 0 1 = r.rule % 256 ∧ leAt p 1 1 = r.head % 256) ∧
  (∀ (rq : Req) (s : State), served 0x0708 rq s = true → s.mci.personality = .forge → rq.u8 0 ≤ 31 →
    (∀ h, h < 32 → (rq.u32 8).testBit h = true → h < s.nHeads) →
    (rq.u8 1 = 0 ∨ (4 ≤ rq.u8 1 ∧ rq.u8 1 ≤ 6)) → rq.u8 3 ≤ 15 → 10 ≤ rq.u16 4 → rq.u16 6 ≤ 60000 →
    exec (.forgeInterlockAssign rq) s = .next (respond rq 0x0708 Status.ok [] (setRole (rq.u8 0) (fun x =>
      { x with role := rq.u8 1, activeLow := rq.bit 2 0, forge := true, debounce := rq.u16 4, graceMs := rq.u16 6,
               heaters := BitVec.ofNat 8 (rq.u8 3), heads := BitVec.ofNat 32 (rq.u32 8) }) s))) ∧
  (∀ (g : Nat) (s : State), (s.gpiOf g).forge = true → (s.gpiOf g).active = true → (s.gpiOf g).gated = false →
    ((s.gpiOf g).role = 5 ∨ (s.gpiOf g).role = 6) → g < s.gpi.length →
    ∃ t, exec (.graceExpiry g) s = .next t ∧ (t.gpiOf g).gated = true ∧
      (t.flt.presented.getLast?.map fun r => (r.source, r.unit)) = some (0x00E1, some g)) ∧
  (∀ (g : Nat) (s : State), (s.gpiOf g).gated = true → exec (.graceExpiry g) s = .next s) ∧
  (∀ (rq : Req) (s : State), served 0x0806 rq s = true → s.mci.personality = .forge → rq.u16 2 ≤ 10000 →
    (∀ i, i < 8 → (rq.u8 0).testBit i = true → (s.lampOf i).regulated = true) → layerBusy s = false →
    ∃ t, exec (.forgePermitConfig rq) s = .next t ∧ t.forge.permitStrings = BitVec.ofNat 8 (rq.u8 0) ∧
      t.forge.permitDwell = rq.u16 2 ∧ t.lamps = s.lamps ∧ t.flt = s.flt) ∧
  (∀ (rq : Req) (s : State), served 0x0806 rq s = true → s.mci.personality = .forge → rq.u16 2 ≤ 10000 →
    (∀ i, i < 8 → (rq.u8 0).testBit i = true → (s.lampOf i).regulated = true) → layerBusy s = true →
    exec (.forgePermitConfig rq) s = .next (respond rq 0x0806 Status.state [] s)) ∧
  (∀ (rq : Req) (s : State), served 0x0806 rq s = true → s.mci.personality = .forge → 10000 < rq.u16 2 →
    exec (.forgePermitConfig rq) s = .next (respond rq 0x0806 Status.badValue [] s))

/-- R220, R227 to R230: the layer's states as its commands move them: recoat from IDLE, arm from RECOATED, expose from
ARMED; a layer with vectors left is EXPOSING after expose. R163, R164, R221, R229, R230: pause, resume and abort of a
layer by command, and the layer's status; a head that waits too long at a fence aborts the layer with cause 4. -/
def Obligations.LayersRun : Prop :=
  (∀ (rq : Req) (s : State), served 0x0703 rq s = true → s.mci.personality = .forge → rq.u8 0 ≤ 15 → rq.u8 1 ≤ 15 →
    100 ≤ rq.u32 12 →
    rq.u32 12 ≤ 600000 → s.forge.layer = .idle → s.pwr.grace = none → rq.i32 4 ≠ 0 →
    exec (.forgeLayerRecoat rq) s = .next (recoatMove (rq.u8 0) (rq.i32 4) (accept rq 0x0703 [] { s with forge :=
      { s.forge with layer := .recoating,
                     recoat := some { ctx := rq.ctx s 0x0703, stroke := false, platform := rq.u8 0, recoater := rq.u8 1,
                                      steps := rq.i32 8, ahead := 0,
                                      deadline := s.time + BitVec.ofNat 64 (rq.u32 12 * ticksPerMs) } } }))) ∧
  (∀ (rq : Req) (s : State), served 0x0703 rq s = true → s.mci.personality = .forge → rq.u8 0 ≤ 15 → rq.u8 1 ≤ 15 →
    100 ≤ rq.u32 12 → rq.u32 12 ≤ 600000 → (s.forge.layer ≠ .idle ∨ s.pwr.grace.isSome = true) →
    exec (.forgeLayerRecoat rq) s = .next (respond rq 0x0703 Status.state [] s)) ∧
  (∀ (r : Recoat) (s : State), s.forge.recoat = some r →
    let u := s.advanceTo r.deadline.toNat
    exec .recoatTimeout s = .next (complete r.ctx Status.failed [] (presentFw 0x00E3 none 0 { u with forge :=
      { u.forge with recoat := none, layer := .idle } }))) ∧
  (∀ (rq : Req) (s : State), served 0x0704 rq s = true → s.heads.length = 24 → s.mci.personality = .forge → rq.u8 0 ≤ 3 →
    rq.u8 1 = 0xFF →
    1 ≤ rq.u32 20 → rq.u32 20 ≤ 600000 → s.forge.layer = .recoated → s.pwr.grace = none →
    (at' s.forge.programs (rq.u8 0) {}).checked = true →
    (∀ h ∈ (at' s.forge.programs (rq.u8 0) {}).heads, h < s.nHeads ∧ fenced s 0x0103 h = false ∧
      (s.head h).configured = true ∧ (s.link h).st = .up) →
    ∃ t, exec (.forgeLayerArm rq) s = .next t ∧ t.forge.layer = .armed ∧ t.forge.number = BitVec.ofNat 32 (rq.u32 4) ∧
      t.forge.program = rq.u8 0 ∧ t.forge.anchor = none ∧ t.forge.vectors = 0 ∧ t.forge.terminal = none ∧
      (∀ h ∈ (at' s.forge.programs (rq.u8 0) {}).heads, (t.head h).inLayer = true ∧
        (t.head h).todo = at' (at' s.forge.programs (rq.u8 0) {}).arrays h [] ∧ (t.head h).retired = false ∧
        (t.head h).energy = 0)) ∧
  (∀ (rq : Req) (s : State), served 0x0705 rq s = true → s.mci.personality = .forge → rq.u64 0 = 0 → s.forge.layer = .armed →
    s.pwr.grace = none → conditionPresent s = false → permitDwelt s = true → s.forge.reassign = [] → s.heads.length = 24 →
    (∃ h, h < s.nHeads ∧ (s.head h).inLayer = true ∧ (s.head h).vectorsLeft ≠ 0) →
    ∃ t, exec (.forgeLayerExpose rq) s = .next t ∧ t.forge.layer = .exposing ∧
      t.forge.startAt = BitVec.ofNat 64 (s.time.toNat + 1600000) ∧ t.forge.ctx = some (rq.ctx s 0x0705) ∧
      ∀ h, h < s.nHeads → (s.head h).inLayer = true → (t.head h).st = (if (s.head h).retired then 6 else 1)) ∧
  (∀ (rq : Req) (s : State), served 0x0705 rq s = true → s.mci.personality = .forge → rq.u64 0 = 0 → s.forge.layer ≠ .armed →
    exec (.forgeLayerExpose rq) s = .next (respond rq 0x0705 Status.state [] s)) ∧
  (∀ (rq : Req) (s : State), served 0x0706 rq s = true → s.mci.personality = .forge → rq.u8 0 = 0 → s.forge.layer = .exposing →
    exec (.forgeLayerPause rq) s = .next (if layerLastDue s then respond rq 0x0706 Status.alreadyDone [] s
      else controlReply rq (pauseLayer s))) ∧
  (∀ (rq : Req) (s : State), served 0x0706 rq s = true → s.mci.personality = .forge → rq.u8 0 = 1 → rq.u64 8 = 0 →
    s.forge.layer = .paused →
    conditionPresent s = false → permitDwelt s = true →
    (∃ h, h < s.nHeads ∧ (s.head h).inLayer = true ∧ (s.head h).vectorsLeft ≠ 0) →
    ∃ t, exec (.forgeLayerResume rq) s = .next t ∧ t.forge.layer = .exposing ∧ t.forge.pausing = false ∧
      t.links = s.links ∧ t.time = s.time) ∧
  (∀ (rq : Req) (s : State), served 0x0706 rq s = true → s.mci.personality = .forge → rq.u8 0 = 2 → s.forge.layer = .exposing →
    s.forge.abort = none → layerLastDue s = false → (∀ h, h < s.nHeads → holding s h = false) →
    ∃ t, exec (.forgeLayerAbort rq) s = .next t ∧ t.forge.layer = .exposing ∧ t.forge.abort = some (1, s.time) ∧
      { t with forge := s.forge, mci := s.mci } = s) ∧
  (∀ (rq : Req) (s : State), served 0x0706 rq s = true → s.mci.personality = .forge → rq.u8 0 = 2 →
    layerLastDue s = true → exec (.forgeLayerAbort rq) s = .next (respond rq 0x0706 Status.alreadyDone [] s)) ∧
  (∀ (rq : Req) (s : State), served 0x0706 rq s = true → s.mci.personality = .forge → rq.u8 0 = 2 → s.forge.layer = .idle →
    exec (.forgeLayerAbort rq) s = .next (respond rq 0x0706 Status.state [] s)) ∧
  (∀ (h : Nat) (s : State), (s.head h).st = 3 → s.forge.layer = .exposing →
    exec (.fenceTimeout h) s = .next (abortLayer 4 (present 0x00E2 (some h) 0
      (s.advanceTo ((s.head h).fenceAt.toNat + s.forge.fenceTimeout * ticksPerMs + 1))))) ∧
  (∀ (rq : Req) (s : State), served 0x0707 rq s = true → s.mci.personality = .forge → rq.u8 0 < s.nHeads →
    ∃ p, exec (.forgeLayerStatus rq) s = .next (respond rq 0x0707 Status.ok p s) ∧ p.length = 40 ∧
      leAt p 0 1 = s.forge.layer.code ∧ leAt p 32 4 = (s.head (rq.u8 0)).straitWait.n ∧
      leAt p 36 4 = (s.head (rq.u8 0)).implicit.n)

/-! ### Forge overlap and melt pool (spec/09_forge_overlap_meltpool.md) -/

/-- R233 to R239: the settings of Strait wait for the next arm; the waits of a head raise 0x0100 and, with
STRAIT_TIMEOUT, 0x0101; the oldest token whose emission has ended is released after PLUME_HOLD; a check with nothing due
and nothing emitting changes nothing. R241 to R246: heads are retired by command; the reassignment gives each remaining
vector to an alternate that is well, or counts it unexecuted; the status reply gives the token and the counts. -/
def Obligations.StraitAndRetirement : Prop :=
  (∀ (rq : Req) (s : State), served 0x0801 rq s = true → s.mci.personality = .forge →
    let c : StraitCfg :=
      { flowX := rq.i16 0, flowY := rq.i16 2, down := rq.u16 4, up := rq.u16 6, radius := rq.u16 8,
        plumeHold := rq.u16 10, waitMax := rq.u16 12, straitTimeout := rq.u16 14, unexecBuf := rq.u64 16,
        unexecCap := rq.u32 24 }
    (c.flowX ≠ 0 ∨ c.flowY ≠ 0) → c.down ≤ 50000 → c.up ≤ 10000 → c.up < c.down → c.radius ≤ 10000 →
    c.plumeHold ≤ 10000 → 1 ≤ c.waitMax → c.waitMax ≤ 60000 →
    (c.straitTimeout = 0 ∨ (c.waitMax ≤ c.straitTimeout ∧ c.straitTimeout ≤ 60000)) → c.unexecCap ≤ 1048576 →
    c.unexecBuf < 2 ^ 48 →
    exec (.forgeStraitConfig rq) s = .next (respond rq 0x0801 Status.ok
      (leBytes 1 (if s.forge.layer = .idle then 0 else 1) ++ zeros 3)
      { s with forge := { s.forge with straitNext := some c } })) ∧
  (∀ (h : Nat) (t : BitVec 64) (s : State), (s.head h).waitingSince = some t → (s.head h).longWait = false →
    exec (.straitWaitMaxExpiry h) s =
      .next (present 0x0100 (some h) 0 ((s.advanceTo (t.toNat + s.forge.strait.waitMax * ticksPerMs)).modHead h fun x =>
        { x with longWait := true }))) ∧
  (∀ (h : Nat) (t : BitVec 64) (s : State), (s.head h).waitingSince = some t → s.forge.strait.straitTimeout ≠ 0 →
    exec (.straitTimeoutExpiry h) s =
      .next (present 0x0101 (some h) 0 (s.advanceTo (t.toNat + s.forge.strait.straitTimeout * ticksPerMs)))) ∧
  (∀ (h : Nat) (a : Active) (s : State),
    (s.head h).actives.find? (fun a => !(s.head h).vecs.any fun v => v.r.seqNo = a.r.seqNo) = some a →
    exec (.plumeHoldExpiry h) s = .next ((s.advanceSub (a.off + (s.forge.strait.plumeHold * 102400 : Nat))).modHead h fun x =>
      { x with actives := x.actives.erase a })) ∧
  (∀ (s : State), s.forge.layer = .exposing → (∀ h, (s.head h).actives = []) →
    (∀ h, h < s.nHeads → dueVector s h = none) → exec .straitCheck s = .next s) ∧
  (∀ (h : Nat) (v : Vec) (s : State), s.forge.layer = .exposing → h < s.nHeads → dueVector s h = some v →
    let u := classGrant 0 s
    u.heads.length = 24 → h < u.nHeads → (∀ k, (u.head k).actives = []) → dueVector u h = some v →
    (∀ k, k < u.nHeads → k ≠ h → dueVector u k = none) →
    ∃ t, exec .straitCheck s = .next t ∧ (t.head h).token = .cleared ∧ (∀ k, k ≠ h → t.head k = u.head k) ∧
      { t with heads := u.heads } = u) ∧
  (∀ (rq : Req) (s : State), served 0x0803 rq s = true → s.mci.personality = .forge → (∀ h, h < 32 →
    (rq.u32 0).testBit h = true → h < s.nHeads) →
    layerBusy s = true → (∀ h, h < 32 → (rq.u32 0).testBit h = true → (s.head h).retired = false) →
    exec (.forgeStraitRetire rq) s = .next ((maskBits 32 (rq.u32 0)).foldl (fun s h => retireHead h s)
      (accept rq 0x0803 [] { s with forge := { s.forge with
        retireCtx := s.forge.retireCtx ++ [rq.ctx s 0x0803] } }))) ∧
  (∀ (rq : Req) (s : State), served 0x0803 rq s = true → s.mci.personality = .forge → (∀ h, h < 32 →
    (rq.u32 0).testBit h = true → h < s.nHeads) →
    s.forge.layer = .idle → exec (.forgeStraitRetire rq) s = .next (respond rq 0x0803 Status.state [] s)) ∧
  (∀ (h : Nat) (s : State), s.heads.length = 24 → h < s.nHeads → s.forge.reassign = [h] → s.forge.retireCtx = [] →
    s.headFed h = true → s.forge.abort = none → (s.head h).vecs = [] → (s.head h).todo = [] → s.forge.layer = .armed →
    ∃ t, exec .straitReassignmentIssue s = .next t ∧ t.forge.reassign = [] ∧ t.forge.unexecuted = s.forge.unexecuted ∧
      t.forge.layer = .armed ∧ t.links = s.links) ∧
  (∀ (s : State), s.forge.reassign = [] → exec .straitReassignmentIssue s = .next s) ∧
  (∀ (r : Rec) (a : Nat) (s : State), assignee s r = .ok a →
    r.noReassign = false ∧ a < s.nHeads ∧ r.alts.getLsbD a = true ∧ (s.head a).configured = true ∧
    (s.link a).st = .up ∧ (s.head a).retired = false) ∧
  (∀ (rq : Req) (s : State), served 0x0802 rq s = true → s.mci.personality = .forge → rq.u8 0 < s.nHeads →
    ∃ p, exec (.forgeStraitStatus rq) s = .next (respond rq 0x0802 Status.ok p s) ∧ p.length = 28 ∧
      leAt p 0 1 = (s.head (rq.u8 0)).tokenCode ∧ leAt p 8 4 = (s.head (rq.u8 0)).waits.n ∧
      leAt p 16 4 = (s.head (rq.u8 0)).intrusions.n ∧ leAt p 20 4 = (s.head (rq.u8 0)).received.n)

/-- R234: a point within RADIUS of the segment from the spot UP against the flow to DOWN along it lies in the capsule,
the spot itself and the points at exactly RADIUS across the flow among them; one beyond RADIUS across it does not. Stated
for the flow along +X, in the µm that the hardware computes in; a point between two µm is taken at one of them, which the
model leaves free (log entries 9 and 77). -/
def Obligations.CapsuleAlongTheFlow : Prop :=
  (∀ (c : StraitCfg) (spot q : Point), c.flowX = 1 → c.flowY = 0 →
    let dx := openDivI q.x 1000 - openDivI spot.x 1000
    let dy := openDivI q.y 1000 - openDivI spot.y 1000
    (inCapsule c spot q = true ↔
      if dx < -(c.up : Int) then (dx + c.up) * (dx + c.up) + dy * dy ≤ (c.radius : Int) * c.radius
      else if (c.down : Int) < dx then (dx - c.down) * (dx - c.down) + dy * dy ≤ (c.radius : Int) * c.radius
      else dy * dy ≤ (c.radius : Int) * c.radius)) ∧
  (∀ k : Int, openDivI (1000 * k) 1000 = k)

/-- R240, R248 to R252: the melt-pool settings of a head, a forced gain, its power cap and its status; a lost signal and a
stale feature are raised; a photodiode sample enters the mean of the loops that read its channel. -/
def Obligations.MeltPool : Prop :=
  (∀ (rq : Req) (s : State), served 0x0804 rq s = true → s.heads.length = 24 → s.mci.personality = .forge →
    rq.u8 0 < s.nHeads → rq.u8 2 ≤ 23 →
    rq.u8 3 ≤ 15 → rq.u8 1 ≤ 2 → rq.u8 4 ≤ 4 → rq.u8 5 = 0 → rq.u16 8 ≤ 1000 → 10 ≤ rq.u16 10 → rq.u16 10 ≤ 10000 →
    rq.u16 12 ≤ 4095 → 100 ≤ rq.u16 14 → rq.u16 16 ≤ rq.u16 18 → layerBusy s = false →
    ∃ t, exec (.forgeMeltpoolConfig rq) s = .next t ∧ (t.head (rq.u8 0)).inputKind = rq.u8 1 ∧
      (t.head (rq.u8 0)).pd = rq.u8 2 ∧ (t.head (rq.u8 0)).loopKind = 0 ∧ (t.head (rq.u8 0)).gainMin = rq.u16 16 ∧
      (t.head (rq.u8 0)).gainMax = rq.u16 18 ∧ (t.head (rq.u8 0)).darkMin = rq.u16 12 ∧
      (∀ k, k ≠ rq.u8 0 → t.head k = s.head k)) ∧
  (∀ (rq : Req) (s : State), served 0x0880 rq s = true → s.mci.personality = .forge → rq.u8 0 < s.nHeads →
    s.forge.layer ≠ .exposing →
    exec (.forgeMeltpoolRaw rq) s = .next (respond rq 0x0880 Status.ok [] (s.modHead (rq.u8 0) fun x =>
      { x with gForce := if rq.u16 2 = 0xFFFF then none else some (rq.u16 2) }))) ∧
  (∀ (rq : Req) (s : State), served 0x0807 rq s = true → s.heads.length = 24 → s.mci.personality = .forge → rq.u32 0 = 0 →
    ∃ t, exec (.forgePowerCap rq) s = .next t ∧
      (∀ h, h < s.nHeads → t.head h = { s.head h with powerCap := rq.u16 4 }) ∧
      { t with heads := s.heads, mci := s.mci } = s) ∧
  (∀ (h : Nat) (d : BitVec 64) (s : State),
    let u := s.advanceTo (d.toNat + (s.head h).signalLost * 1600)
    (s.head h).inputKind = 1 → (s.head h).darkFrom = some d → (s.head h).dark = false →
    ((s.head h).lit u.now).isSome = true →
    let t := present 0x0105 (some h) 0 (u.modHead h fun x => { x with dark := true })
    exec (.meltpoolSignalLost h) s = .next (if (s.head h).retireOnLoss then retireHead h t else t)) ∧
  (∀ (h : Nat) (f : BitVec 64) (s : State),
    let u := s.advanceTo (f.toNat + (s.head h).stale * 1600 + 1)
    (s.head h).inputKind = 2 → at' (s.stream (s.head h).camStream).featAt (s.head h).camFeature none = some f →
    (s.head h).staleVector ≠ some ((s.head h).vectorNow u.now) →
    exec (.cameraFeatureStale h) s = .next (present 0x0107 (some h) 0 (u.modHead h fun x =>
      { x with staleVector := some ((s.head h).vectorNow u.now) }))) ∧
  (∀ (ch counts i : Nat) (s : State), i < s.engine.loops.length → counts < 4095 → (s.loop i).inSel.kind = 3 →
    (s.loop i).inSel.index = ch → headOwner s i = none →
    ∃ t, exec (.photodiodeSample ch counts) s = .next t ∧
      t.loop i = { s.loop i with pdSum := (s.loop i).pdSum + counts, pdCnt := (s.loop i).pdCnt + 1 } ∧
      { t with engine := s.engine } = s.advanceTo (sampleInstant s ch)) ∧
  (∀ (rq : Req) (s : State), served 0x0805 rq s = true → s.mci.personality = .forge → rq.u8 0 < s.nHeads →
    ∃ p, exec (.forgeMeltpoolStatus rq) s = .next (respond rq 0x0805 Status.ok p s) ∧ p.length = 24 ∧
      leAt p 8 4 = (s.head (rq.u8 0)).wonM.n ∧ leAt p 16 4 = (s.head (rq.u8 0)).wonC.n ∧
      leAt p 20 4 = (s.head (rq.u8 0)).saturated.n)

/-! ### Control engine (spec/10_control_engine.md) -/

/-- R255, R256, R258, R263, R264, R271, R272: a PID loop is compiled into one stage; a slot takes its input and its output;
a disabled slot delivers OUT_MIN once; a group takes its members; a free variable takes its value; a stage its coefficients,
its states kept; a recipe is accepted, and its load takes effect whole or changes nothing. -/
def Obligations.LoopsAreConfigured : Prop :=
  (∀ (rq : Req) (kp ki kd tf : Int) (cs : List (Int × Nat)) (g : Stage) (s t : State), served 0x0902 rq s = true →
    let slot := rq.u8 0
    let old := s.loop slot
    slot < 64 → 1000 ≤ rq.u32 4 → rq.u32 4 ≤ 1000000 → ticksPerSecond % rq.u32 4 = 0 → rq.i32 28 < rq.i32 32 →
    floatInt (rq.u32 8) = some kp → floatInt (rq.u32 12) = some ki → floatInt (rq.u32 16) = some kd →
    floatInt (rq.u32 20) = some tf → pidCoefs kp ki kd tf (rq.u32 4) = some cs → compileStage cs = some g →
    (s.loop slot).group = none → ownerActive s slot = false →
    assignPhases [[slot]] (s.modLoop slot fun l => { l with
      loaded := true, invert := rq.bit 1 0, enabled := rq.bit 1 1, stages := [g], period := ticksPerSecond / rq.u32 4,
      ref := rq.i32 24, refNext := none, outMin := rq.i32 28, outMax := rq.i32 32, bias := rq.i32 36, resetNext := false,
      lastTick := if old.enabled then old.lastTick else s.time.toNat }) = some t →
    exec (.controlPidSet rq) s = .next (respond rq 0x0902 Status.ok []
      (if old.enabled && !rq.bit 1 1 then disableLoop slot t else t))) ∧
  (∀ (rq : Req) (s : State), served 0x0903 rq s = true →
    let inSel : Sel := { kind := rq.u8 4, index := rq.u8 5, sub := rq.u8 6 }
    let out : Sel := { kind := rq.u8 8, index := rq.u8 9 }
    rq.u8 0 = 0 → rq.u8 1 < 64 → inSelOk inSel = true → outSelOk out = true → out.kind ≠ 2 → out.kind ≠ 3 →
    (out.kind = 1 → s.mci.personality ≠ .press) → ((s.loop (rq.u8 1)).group = none ∨ out.kind = 0) →
    (s.loop (rq.u8 1)).loaded = true → (out.kind = 0 ∨ ∀ i ∈ loopsBoundTo s out.kind out.index, i = rq.u8 1) →
    exec (.controlLoopBind rq) s = .next (respond rq 0x0903 Status.ok []
      (s.modLoop (rq.u8 1) fun l => { l with inSel := inSel, outSel := out }))) ∧
  (∀ (rq : Req) (s : State), served 0x0903 rq s = true →
    let out : Sel := { kind := rq.u8 8, index := rq.u8 9 }
    rq.u8 0 = 1 → rq.u8 1 < 16 → outSelOk out = true → out.kind ≠ 2 → out.kind ≠ 3 →
    (out.kind = 1 → s.mci.personality ≠ .press) → (s.group (rq.u8 1)).members ≠ [] →
    (out.kind = 0 ∨ ∀ i ∈ loopsBoundTo s out.kind out.index, i = 64 + rq.u8 1) →
    exec (.controlLoopBind rq) s = .next (respond rq 0x0903 Status.ok []
      (idleGroup (rq.u8 1) (s.modGroup (rq.u8 1) fun g => { g with outSel := out })))) ∧
  (∀ (rq : Req) (s : State), served 0x0904 rq s = true → s.engine.loops.length = 64 →
    let l := s.loop (rq.u8 0)
    rq.u8 0 < 64 → rq.u8 1 = 1 → rq.u8 2 ≤ 1 → rq.u8 3 ≤ 1 → l.loaded = true → l.enabled = true →
    ∃ t, exec (.controlLoopSet rq) s = .next t ∧
      t.loop (rq.u8 0) = { l with resetNext := l.resetNext || rq.u8 2 = 1, numeric := false,
                                  ref := if rq.u8 3 = 1 then rq.i32 4 else l.ref,
                                  refNext := if rq.u8 3 = 1 then none else l.refNext } ∧
      (∀ i, i ≠ rq.u8 0 → t.loop i = s.loop i) ∧ { t with engine := s.engine, mci := s.mci } = s) ∧
  (∀ (rq : Req) (s : State), served 0x0904 rq s = true → s.engine.loops.length = 64 →
    let l := s.loop (rq.u8 0)
    rq.u8 0 < 64 → rq.u8 1 = 0 → rq.u8 2 ≤ 1 → rq.u8 3 ≤ 1 → l.loaded = true → l.enabled = true → l.group = none →
    l.outSel.kind = 6 → l.outSel.index < s.engine.vars.length →
    ∃ t, exec (.controlLoopSet rq) s = .next t ∧ (t.loop (rq.u8 0)).enabled = false ∧ (t.loop (rq.u8 0)).out = l.outMin ∧
      at' t.engine.vars l.outSel.index 0 = l.outMin ∧ { t with engine := s.engine, mci := s.mci } = s) ∧
  (∀ (rq : Req) (s t : State), served 0x0905 rq s = true → s.engine.loops.length = 64 → s.engine.groups.length = 16 →
    let ms := (List.range (rq.u8 1)).map fun k => rq.u8 (2 + k)
    rq.u8 0 < 16 → 2 ≤ rq.u8 1 → rq.u8 1 ≤ 8 → groupOk (rq.u8 0) ms s = true → removesBound (rq.u8 0) ms s = false →
    assignPhases [ms] (formGroup (rq.u8 0) ms s) = some t →
    exec (.controlGroupSet rq) s = .next (respond rq 0x0905 Status.ok [] (idleGroup (rq.u8 0) t)) ∧
    (t.group (rq.u8 0)).members = ms ∧
      (∀ i ∈ ms, (t.loop i).group = some (rq.u8 0))) ∧
  (∀ (rq : Req) (s : State), served 0x0905 rq s = true → s.engine.groups.length = 16 → rq.u8 0 < 16 → rq.u8 1 = 0 →
    removesBound (rq.u8 0) [] s = false →
    exec (.controlGroupSet rq) s = .next (respond rq 0x0905 Status.ok []
      ((formGroup (rq.u8 0) [] s).modGroup (rq.u8 0) fun x => { x with outSel := {} }))) ∧
  (∀ (rq : Req) (s : State), served 0x0908 rq s = true → rq.u8 0 < 16 → loopsBoundTo s 6 (rq.u8 0) = [] →
    exec (.controlVarWrite rq) s = .next (respond rq 0x0908 Status.ok []
      { s with engine := { s.engine with vars := modAt s.engine.vars (rq.u8 0) fun _ => rq.i32 4,
                                         varsBefore := modAt s.engine.varsBefore (rq.u8 0) fun _ => (rq.i32 4, 0) } })) ∧
  (∀ (rq : Req) (g : Stage) (s : State), served 0x0980 rq s = true → rq.u8 0 < 64 → rq.u8 1 ≤ 3 →
    (s.loop (rq.u8 0)).loaded = true →
    rq.u8 1 < (s.loop (rq.u8 0)).stages.length → ownerActive s (rq.u8 0) = false → rq.u8 2 ≤ 1 →
    stageOf (rq.u8 2) (rq.bytes 4 48) = some g →
    exec (.controlStageRaw rq) s = .next (respond rq 0x0980 Status.ok [] (s.modLoop (rq.u8 0) fun l =>
      { l with stages := modAt l.stages (rq.u8 1) fun o =>
          { g with s1 := o.s1, s2 := o.s2, s3 := o.s3, i := o.i, next := o.next } }))) ∧
  (∀ (rq : Req) (img : List Byte) (r : State × List Nat) (s : State),
    let u := coreRead hostCore (rq.u64 0) (rq.u32 8) s
    served 0x0901 rq u = true →
    u.table (rq.u64 0) (rq.u32 8) = some img → loadRecipe img (rq.u32 12) u = .ok r →
    exec (.controlRecipeLoad rq) s = .next (accept rq 0x0901 [] { u with engine := { u.engine with
      load := u.engine.load ++ [(rq.ctx u 0x0901, rq.u64 0, rq.u32 8, BitVec.ofNat 32 (rq.u32 12))] } })) ∧
  (∀ (c : Ctx) (address n : Nat) (crc : BitVec 32) (rest : List (Ctx × Nat × Nat × BitVec 32)) (img : List Byte)
    (s : State), s.engine.load = (c, address, n, crc) :: rest →
    let u := coreRead hostCore address n s
    u.coreUp hostCore = true →
    let s' := { u with engine := { u.engine with load := rest } }
    s'.table address n = some img →
    (∀ t slots, loadRecipe img crc.toNat s' = .ok (t, slots) → ∃ p, p.length = 16 ∧
      exec .controlRecipeLoadDone s = .next (complete c Status.ok p t)) ∧
    (∀ e, loadRecipe img crc.toNat s' = .error e → ∃ p, p.length = 16 ∧
      exec .controlRecipeLoadDone s = .next (complete c Status.failed p s')))

/-- R257 to R264, R266, R268: an evaluation of a loop that is not enabled changes nothing; else the chain with OUT_BIAS and
r is clamped to OUT_MIN to OUT_MAX; saturation holds a signal in 32 bits; a group selects the enabled member with the lowest
output, the lowest slot between equals; an update of a controller changes one entry of its table, clamped to CLAMP; the
status replies give OUTPUT, EVALS and the counts. -/
def Obligations.LoopsAreEvaluated : Prop :=
  (∀ (slot counts : Nat) (s : State), ((s.loop slot).loaded = false ∨ (s.loop slot).enabled = false) →
    exec (.loopEvaluation slot counts) s = .next s) ∧
  (∀ (slot counts : Nat) (s : State), s.engine.loops.length = 64 → slot < 64 →
    let l := s.loop slot
    let s' := classGrants 2 128 ({ s with engine := { s.engine with tick := l.dueTick } }.advanceTo l.dueTick)
    let v := delivered l.dueTick (at' s.engine.vars l.inSel.index 0) (at' s.engine.varsBefore l.inSel.index (0, 0))
    let x := if l.invert then v - l.ref else l.ref - v
    let u := (evalStages l.stages x).1 + l.bias + additive s' slot
    nextToEvaluate s slot = true → s'.time.toNat ≤ l.dueTick + 1280 → l.refNext = none → l.loaded = true →
    l.enabled = true → l.resetNext = false → l.group = none → headOwner s slot = none →
    heaterOwner s slot = none → l.inSel.kind = 9 → l.outSel.kind = 0 → inFormat v = true → inFormat x = true →
    ∃ t, exec (.loopEvaluation slot counts) s = .next t ∧ (t.loop slot).out = min (max u l.outMin) l.outMax ∧
      (t.loop slot).err = x ∧ (t.loop slot).input = v ∧ (t.loop slot).evals = l.evals + 1 ∧
      (t.loop slot).lastTick = l.dueTick ∧ (∀ i, i ≠ slot → t.loop i = s.loop i) ∧
      { t with engine := s'.engine, flt := s'.flt } = s') ∧
  (∀ (slot counts : Nat) (s : State), nextToEvaluate s slot = false → exec (.loopEvaluation slot counts) s = .next s) ∧
  (∀ v : Int, (inFormat v = true → saturate v = (v, 0)) ∧ (2 ^ 31 ≤ v → saturate v = (2 ^ 31 - 1, 1)) ∧
    (v < -2 ^ 31 → saturate v = (-2 ^ 31, 1))) ∧
  (∀ (s : State) (g w : Nat), selected s g = some w → w ∈ enabledMembers s g ∧
    ∀ i ∈ enabledMembers s g, (s.loop w).out ≤ (s.loop i).out ∧ ((s.loop i).out = (s.loop w).out → w ≤ i)) ∧
  (∀ (k counts : Nat) (s : State), (s.repctl k).mode = 0 → exec (.repctlUpdate k counts) s = .next s) ∧
  (∀ (k counts j : Nat) (e : Int) (since : BitVec 64) (rest : List (Nat × Int × BitVec 64)) (s : State),
    s.engine.repctls.length = 8 → k < 8 →
    let r := s.repctl k
    let i := (((j : Int) - r.lead) % (r.period : Int)).toNat
    let q : Int := if r.forget = 0 then 65536 else r.forget
    r.mode = 1 → r.pending = (j, e, since) :: rest → r.updates = 0 → r.period ≠ 0 →
    ∃ t, exec (.repctlUpdate k counts) s = .next t ∧ (t.repctl k).updates = 1 ∧ (t.repctl k).pending = rest ∧
      (t.repctl k).table = modAt r.table i (fun _ =>
        clampI (-(r.clamp : Int)) r.clamp (nearest (q * r.entry i + r.gain * e) 65536)) ∧
      (∀ m, m ≠ k → t.repctl m = s.repctl m) ∧ { t with engine := s.engine, flt := s.flt } = s) ∧
  (∀ (rq : Req) (s : State), served 0x0906 rq s = true → rq.u8 0 < 64 → (s.loop (rq.u8 0)).loaded = true →
    ∃ p, exec (.controlLoopStatus rq) s = .next (respond rq 0x0906 Status.ok p s) ∧ p.length = 40 ∧
      p.take 4 = leBytesI 4 (s.loop (rq.u8 0)).out ∧ leAt p 16 8 = (s.loop (rq.u8 0)).evals.toNat ∧
      leAt p 24 4 = (s.loop (rq.u8 0)).held.n) ∧
  (∀ (rq : Req) (s : State), served 0x0907 rq s = true → rq.u8 0 < 8 →
    ∃ p, exec (.controlRepctlStatus rq) s = .next (respond rq 0x0907 Status.ok p s) ∧ p.length = 24 ∧
      leAt p 4 8 = (s.repctl (rq.u8 0)).updates.toNat ∧ leAt p 12 4 = (s.repctl (rq.u8 0)).clamped.n ∧
      leAt p 16 4 = (s.repctl (rq.u8 0)).skipped.n) ∧
  (∀ (rq : Req) (a : Nat) (s : State), served 0x0981 rq s = true → rq.u8 0 < 8 → rq.u8 1 ≤ 1 →
    (s.repctl (rq.u8 0)).loaded = true →
    s.place (rq.u64 4) = .host a →
    exec (.controlRepctlTableRead rq) s = .next (accept rq 0x0981 [] (s.modRepctl (rq.u8 0) fun r =>
      { r with xfer := r.xfer ++ [(rq.ctx s 0x0981, false, rq.u64 4, BitVec.ofNat 32 (rq.u32 12))] })) ∧
    exec (.controlRepctlTableWrite rq) s = .next (accept rq 0x0981 [] (s.modRepctl (rq.u8 0) fun r =>
      { r with xfer := r.xfer ++ [(rq.ctx s 0x0981, true, rq.u64 4, BitVec.ofNat 32 (rq.u32 12))] }))) ∧
  (∀ (k address : Nat) (host b : List Byte) (c : Ctx) (crc : BitVec 32) (rest : List (Ctx × Bool × Nat × BitVec 32))
    (s : State), (s.repctl k).xfer = (c, true, address, crc) :: rest →
    let u := coreRead cameraCore address (4 * (s.repctl k).period) s
    u.coreUp cameraCore = true → u.tableOr address (4 * (s.repctl k).period) host = some b →
    let s' := u.modRepctl k fun r => { r with xfer := rest }
    exec (.controlRepctlTableDone k host) s =
      if crc32c b = crc then .next (complete c Status.ok (leBytes 4 crc.toNat) (s'.modRepctl k fun r =>
        { r with table := (List.range (s.repctl k).period).map fun i => leAtI b (4 * i) 4 }))
      else .next (complete c Status.failed (leBytes 4 (crc32c b).toNat) s')) ∧
  (∀ (k address : Nat) (host : List Byte) (c : Ctx) (crc : BitVec 32) (rest : List (Ctx × Bool × Nat × BitVec 32))
    (s t : State), s.coreUp cameraCore = true → (s.repctl k).xfer = (c, false, address, crc) :: rest →
    let b := (s.repctl k).table.flatMap (leBytesI 4)
    putTable cameraCore address b (s.modRepctl k fun r => { r with xfer := rest }) = some t →
    exec (.controlRepctlTableDone k host) s = .next (complete c Status.ok (leBytes 4 (crc32c b).toNat) t))

/-! ### Cameras (spec/11_camera_pipeline.md) -/

/-- R274, R275, R283 and the commands of group 0x0A: a port that is set closes the open frames of its streams; a stream
takes its configuration when it is enabled, an enabled one at its next frame; the region, threshold and shift wait for the
next Frame Start; a D-PHY setting waits for the next packet; the status reply gives the counts. -/
def Obligations.CamerasAreConfigured : Prop :=
  (∀ (rq : Req) (s : State), served 0x0A01 rq s = true → rq.u8 0 < 4 → (rq.u8 1 = 1 ∨ rq.u8 1 = 2 ∨ rq.u8 1 = 4) →
    80 ≤ rq.u16 2 → rq.u16 2 ≤ 2500 →
    rq.u8 4 ≤ 1 →
    (∀ i, i < 16 → ∀ c ∈ (s.stream i).cfg :: (s.stream i).cfgNext.toList, c.enable = true → c.path = 0 →
      c.port = rq.u8 0 → inlineRateOk (rq.u8 1) (rq.u16 2) c.dt = true) →
    let is := (List.range 16).filter fun i => (s.stream i).cfg.enable && (s.stream i).cfg.port = rq.u8 0
    exec (.cameraPortConfig rq) s = .next (respond rq 0x0A01 Status.ok [] ((is.foldl (fun s i => closeFrame i .reconfigured s) s).modPort
      (rq.u8 0) fun p => { p with lanes := rq.u8 1, rate := rq.u16 2, enable := rq.u8 4 = 1 }))) ∧
  (∀ (rq : Req) (s : State), served 0x0A02 rq s = true → s.cam.streams.length = 16 →
    let i := rq.u8 0
    let c := streamCfgOf rq
    i < 16 → c.port < 4 → c.vc < 16 → c.ok (s.port c.port) = true → c.enable = true →
    (c.raw = true → c.buf + 6 * c.bytes ≤ s.dram.cfg.usable) → c.rec' + 4096 * c.records ≤ s.dram.cfg.usable →
    (∀ j, j < 16 → j ≠ i → (s.stream j).cfg.enable = true → ∀ o ∈ (s.stream j).cfg :: (s.stream j).cfgNext.toList,
      (o.port, o.vc, o.dt) ≠ (c.port, c.vc, c.dt) ∧ (o.path = 0 → c.path ≠ 0)) →
    ∃ t, exec (.cameraStreamConfig rq) s = .next t ∧
      t.stream i = (if (s.stream i).cfg.enable then { s.stream i with cfgNext := some c }
        else { s.stream i with cfg := c, cfgNext := none, started := false, orphanRun := false }) ∧
      (∀ k, k ≠ i → t.stream k = s.stream k) ∧ { t with cam := s.cam, mci := s.mci } = s) ∧
  (∀ (rq : Req) (s : State), served 0x0A02 rq s = true → s.cam.streams.length = 16 →
    let c := streamCfgOf rq
    rq.u8 0 < 16 → c.port < 4 → c.vc < 16 → c.ok (s.port c.port) = true → c.enable = false →
    (c.raw = true → c.buf + 6 * c.bytes ≤ s.dram.cfg.usable) → c.rec' + 4096 * c.records ≤ s.dram.cfg.usable →
    ∃ t, exec (.cameraStreamConfig rq) s = .next t ∧
      t.stream (rq.u8 0) = { s.stream (rq.u8 0) with cfg := c, cfgNext := none, opened := none, backlog := [] } ∧
      (∀ k, k ≠ rq.u8 0 → t.stream k = s.stream k) ∧ { t with cam := s.cam, mci := s.mci } = s) ∧
  (∀ (rq : Req) (s : State), served 0x0A03 rq s = true →
    let st : CamStats := { shift := rq.u8 1, thresh := rq.u16 2, x := rq.u16 4, y := rq.u16 6, w := rq.u16 8, h := rq.u16 10 }
    let c := ((s.stream (rq.u8 0)).cfgNext).getD (s.stream (rq.u8 0)).cfg
    rq.u8 0 < 16 → (st.shift ≤ 8 ∨ st.shift = 0xFF) → 32 ≤ st.w → 32 ≤ st.h → st.x + st.w ≤ c.width →
    st.y + st.h ≤ c.height →
    exec (.cameraStatsConfig rq) s = .next (respond rq 0x0A03 Status.ok []
      (s.modStream (rq.u8 0) fun t => { t with shadow := st }))) ∧
  (∀ (rq : Req) (s : State), served 0x0A04 rq s = true → rq.u8 0 < 16 →
    ∃ p, exec (.cameraStreamStatus rq) s = .next (respond rq 0x0A04 Status.ok p s) ∧ p.length = 56 ∧
      leAt p 0 4 = (s.stream (rq.u8 0)).lastSeq.toNat ∧ leAt p 8 8 = (s.stream (rq.u8 0)).frames.toNat ∧
      leAt p 16 4 = (s.stream (rq.u8 0)).dropped.n ∧ leAt p 20 4 = (s.stream (rq.u8 0)).short.n) ∧
  (∀ (rq : Req) (s : State), served 0x0A80 rq s = true → rq.u8 0 < 4 → 40 ≤ rq.u16 2 → rq.u16 2 ≤ 500 → 95 ≤ rq.u16 4 →
    rq.u16 4 ≤ 500 →
    rq.u8 6 ≤ 7 →
    exec (.cameraPhyRaw rq) s = .next (respond rq 0x0A80 Status.ok []
      (s.modPort (rq.u8 0) fun p => { p with rawNext := some (rq.u16 2, rq.u16 4, rq.u8 6) })))

/-- R276 to R282, R286, R287, R290, R295: a Frame Start with a good header opens a frame of the one stream it names, with the
next sequence; a line of the right length adds its pixels; a packet outside a frame is counted; a Frame End or the timeout
closes the frame, which is SHORT or UNTERMINATED as it applies; an idle pipeline takes a backlog frame, and a processed
frame leaves it. The histogram counts every pixel of the region once. -/
def Obligations.CameraFramesAreReceived : Prop :=
  (∀ (port i : Nat) (di : Byte) (wc : BitVec 16) (ecc : Byte) (s : State), s.cam.streams.length = 16 →
    let d := decodeHeader (packetHeader di wc ecc)
    let fn := BitVec.ofNat 16 d.wc
    d.ecc = .good → d.dt = 0 → streamsOf s port d.vc = [i] → (s.stream i).opened = none →
    let c := ((s.stream i).cfgNext).getD (s.stream i).cfg
    ∃ t f, exec (.frameStartReceive port di wc ecc) s = .next t ∧ (t.stream i).opened = some f ∧
      f.seq = nextSequence (s.stream i) c fn ∧ f.fn = fn ∧ f.fsTime = s.time ∧ f.cfg = c ∧ f.stats = (s.stream i).shadow ∧
      f.lines = 0 ∧ f.rows = [] ∧ f.flags = 0 ∧ (∀ k, k ≠ i → t.stream k = s.stream k) ∧ t.mci = s.mci ∧
      t.lag = s.lag) ∧
  (∀ (port : Nat) (di : Byte) (wc : BitVec 16) (ecc : Byte) (pkt : CamPacket) (s : State), (s.port port).enable = false →
    exec (.frameStartReceive port di wc ecc) s = .next s ∧ exec (.frameEndReceive port di wc ecc) s = .next s ∧
    exec (.linePacketReceive port pkt) s = .next s ∧ exec (.dphySotError port) s = .next s) ∧
  (∀ (port i : Nat) (pkt : CamPacket) (f : Frame) (s : State), s.cam.streams.length = 16 →
    let q := takenPacket pkt
    let u := classGrants 2 q.payload.length (phyApply port s)
    streamsOf s port q.h.vc = [i] → q.h.ecc = .good → q.crcOk = true → isImageDt q.h.dt = true →
    (s.stream i).cfg.dt = q.h.dt → (s.stream i).opened = some f → f.cfg.path = 0 → f.cfg.rawCopy = false →
    f.lines < f.cfg.height → q.h.wc * 8 = f.cfg.width * dtBits f.cfg.dt →
    ∃ t, exec (.linePacketReceive port pkt) s = .next t ∧
      (t.stream i).opened =
        some { f with lines := f.lines + 1, rows := f.rows ++ [(f.lines, pixelsOf f.cfg.dt q.payload)] } ∧
      (∀ k, k ≠ i → t.stream k = s.stream k) ∧ { t with cam := u.cam } = u) ∧
  (∀ (port i : Nat) (pkt : CamPacket) (s : State), s.cam.streams.length = 16 →
    let q := takenPacket pkt
    streamsOf s port q.h.vc = [i] → q.h.ecc = .good → isImageDt q.h.dt = true → (s.stream i).cfg.dt = q.h.dt →
    (s.stream i).opened = none →
    ∃ t, exec (.linePacketReceive port pkt) s = .next t ∧ (t.stream i).orphans = (s.stream i).orphans.inc ∧
      (t.stream i).opened = none ∧ ((s.stream i).orphanRun = true → t.mci = s.mci)) ∧
  (∀ (port i : Nat) (di : Byte) (wc : BitVec 16) (ecc : Byte) (f : Frame) (s : State), s.cam.streams.length = 16 →
    let d := decodeHeader (packetHeader di wc ecc)
    d.ecc = .good → d.dt = 1 → streamsOf s port d.vc = [i] → (s.stream i).opened = some f →
    ∃ t, exec (.frameEndReceive port di wc ecc) s = .next t ∧ (t.stream i).opened = none ∧
      (t.stream i).frames = (s.stream i).frames + 1 ∧
      (t.stream i).short = (if f.lines < f.cfg.height then (s.stream i).short.inc else (s.stream i).short) ∧
      (t.stream i).unterm = (s.stream i).unterm) ∧
  (∀ (i : Nat) (f : Frame) (s : State), i < s.cam.streams.length → (s.stream i).opened = some f →
    ∃ t, exec (.frameTimeout i) s = .next t ∧ (t.stream i).opened = none ∧ (t.stream i).frames = (s.stream i).frames + 1 ∧
      (t.stream i).unterm = (s.stream i).unterm.inc ∧ (t.stream i).short = (s.stream i).short) ∧
  (∀ (port : Nat) (s : State), (s.port port).enable = true →
    ∃ t, exec (.dphySotError port) s = .next t ∧ t.mci.vcount = s.mci.vcount.inc ∧
      (t.mci.vlog.getLast?.map fun e => (e.iface, e.unit, e.code)) = some (1, BitVec.ofNat 8 (0x80 + port), 0x0A) ∧
      t.cam.streams = s.cam.streams) ∧
  (∀ (i : Nat) (f : Frame) (rest : List Frame) (s : State), s.cam.busy = none → nextMemoryStream s = some i →
    (s.stream i).backlog = f :: rest →
    exec .memoryFrameStart s = .next { s with cam := { s.cam with
      streams := modAt s.cam.streams i fun t => { t with backlog := rest }, busy := some (i, f), served := i } }) ∧
  (∀ (i : Nat) (f : Frame) (s : State), i < s.cam.streams.length → s.cam.busy = some (i, f) →
    ∃ t, exec .memoryFrameProcessed s = .next t ∧ t.cam.busy = none ∧
      (t.stream i).recsWritten = (s.stream i).recsWritten.inc ∧
      (f.bad = true → (t.stream i).feats = (s.stream i).feats)) ∧
  (∀ f : Frame, f.histogram.length = 256 ∧ f.histogram.sum = f.roi.length)

/-! ### Lagoon (spec/12_lagoon.md) -/

/-- R299 to R307: a request for a handle waits; the earliest due receives the lowest free handle; a fill takes its header and
the next TILE_ID, its writes go to the tile's payload in order and to nothing else, and its close stores the CRC of the
payload. -/
def Obligations.TilesAreFilled : Prop :=
  (∀ (due : BitVec 64) (owner : TileOwner) (s : State), ownerFed s owner = true → s.lag.waiting.length < 64 →
    (lowestFree s).isSome = true → s.lag.waiting.length < freeTiles s →
    exec (.tileHandleRequest due owner) s =
      .next { s with lag := { s.lag with waiting := s.lag.waiting ++ [{ due := due, owner := owner }] } }) ∧
  (∀ (due : BitVec 64) (owner : TileOwner) (s : State), ownerFed s owner = true → lowestFree s = none →
    ∃ t, exec (.tileHandleRequest due owner) s = .next t ∧ t.lag.stalls = s.lag.stalls.inc ∧ t.lag.tiles = s.lag.tiles ∧
      t.lag.data = s.lag.data ∧ (s.lag.stallRaised = true → t.flt = s.flt)) ∧
  (∀ (r : TileReq) (h : Nat) (s : State), earliestDue s.lag.waiting = some r → lowestFree s = some h →
    ∃ t, exec .tileHandleGrant s = .next t ∧ (t.tile h).allocated = true ∧ (t.tile h).owner = r.owner ∧
      (∀ k, k ≠ h → t.tile k = s.tile k) ∧ t.lag.granted = s.lag.granted ++ [(h, r)] ∧ t.lag.data = s.lag.data ∧
      { t with lag := s.lag } = s) ∧
  (∀ (h : Nat) (s : State), lowestFree s = some h →
    h < s.nTiles ∧ (s.tile h).allocated = false ∧ ∀ k, k < h → (s.tile k).allocated = true) ∧
  (∀ (rs : List TileReq) (r : TileReq), earliestDue rs = some r → r ∈ rs ∧ ∀ q ∈ rs, ¬ q.due < r.due) ∧
  (∀ (h : Nat) (hdr : FillHdr) (s : State), h < s.nTiles → (s.tile h).allocated = true →
    (s.tile h).admitted = false → (s.tile h).fill = none →
    ∃ t, exec (.tileFillOpen h hdr) s = .next t ∧
      t.tile h = { s.tile h with
        id := s.lag.nextId, page := hdr.pageId, owner := hdr.owner, column := hdr.column, origin := hdr.origin,
        verified := false, fill := some { next := 0, bad := false, done := [] } } ∧
      t.lag.nextId = nextTileId s.lag.nextId ∧ t.lag.data = s.lag.data ∧ { t with lag := s.lag } = s) ∧
  (∀ (h : Nat) (data : List Byte) (f : Fill) (s : State), cellsWf 0 s.lag.data = true →
    let u := (writerBytes s h f.next data.length).2
    let bs := (writerBytes s h f.next data.length).1.getD data
    (s.tile h).fill = some f → f.next + bs.length < 16384 →
    ∃ t, exec (.tileFillWrite h f.next data) s = .next t ∧
      cellsGet 0 t.lag.data (h * 16384 + f.next) bs.length = bs ∧
      (∀ a, (a < h * 16384 + f.next ∨ h * 16384 + f.next + bs.length ≤ a) →
        cellGet 0 t.lag.data a = cellGet 0 s.lag.data a) ∧
      (t.tile h).fill = some { next := f.next + bs.length, bad := f.bad,
                               done := (f.next, f.next + bs.length) :: f.done } ∧
      { t with lag := u.lag } = u) ∧
  (∀ (h offset : Nat) (data : List Byte) (f : Fill) (s : State), (s.tile h).fill = some f →
    offset ≠ f.next → offset + ((writerBytes s h offset data.length).1.getD data).length < 16384 →
    ∃ t, exec (.tileFillWrite h offset data) s = .next t ∧ t.lag.fillOrder = s.lag.fillOrder.inc ∧
      ((t.tile h).fill.map fun g => g.bad) = some true) ∧
  (∀ (h offset : Nat) (data : List Byte) (s : State), (s.tile h).fill = none → exec (.tileFillClose h) s = .next s ∧
    ∃ t, exec (.tileFillWrite h offset data) s = .next t ∧ t.lag = s.lag ∧ t.dram = s.dram ∧
      (jobOfTile s h = none → firmwareChannel s < s.dma.channels.length →
        (t.channel (firmwareChannel s)).bad = (s.channel (firmwareChannel s)).bad.inc ∧
        (t.flt.presented.getLast?.map fun r => (r.source, r.unit)) = some (0x0180, some (firmwareChannel s))) ∧
      (∀ e j k, (s.deflate e).cur = some (.fw j) → k ∈ j.columns s → ((j.tile s k).map fun t => t.handle) = some h →
        (t.deflate e).cur = some (.fw { j with refused := true }))) ∧
  (∀ (h : Nat) (f : Fill) (s : State), (s.tile h).fill = some f →
    ∃ t, exec (.tileFillClose h) s = .next t ∧ (t.tile h).fill = none ∧
      (t.tile h).crc = (if f.bad then ~~~crc32c (t.tilePayload h) else crc32c (t.tilePayload h)) ∧
      (∀ k, k ≠ h → t.tile k = s.tile k) ∧ { t with lag := s.lag } = s)

/-- R308 to R311 and the Lagoon commands of group 0x0B: a word with no error is read with no effect, a single-bit error is
corrected, counted and logged, a double-bit error is counted and its ADDRESS kept; the scrubber skips an open fill; an
injected error waits for the next read of its word; a log read with CLEAR empties the log; a tile is copied to DRAM with its
CRC in the completion. -/
def Obligations.LagoonIsReadAndScrubbed : Prop :=
  (∀ (address : BitVec 32) (reader : LagoonReader) (s : State), (∀ p ∈ s.lag.inject, p.1 ≠ address.toNat) →
    address.toNat ∉ s.lag.bad →
    exec (.lagoonRead address reader 0) s = .next (if readerClass reader = 1 then classGrant 1 s else s)) ∧
  (∀ (address : BitVec 32) (reader : LagoonReader) (s : State), (∀ p ∈ s.lag.inject, p.1 ≠ address.toNat) →
    address.toNat ∉ s.lag.bad →
    let u := if readerClass reader = 1 then classGrant 1 s else s
    ∃ t, exec (.lagoonRead address reader 1) s = .next t ∧ t.lag.corrected = s.lag.corrected.inc ∧
      (s.lag.log.length < 32 → ∃ e, t.lag.log = s.lag.log ++ [e] ∧ e.time = u.time ∧ e.address = address ∧ e.foundBy = 0) ∧
      (32 ≤ s.lag.log.length → t.lag.log = s.lag.log ∧ t.lag.logOver = s.lag.logOver.inc) ∧
      t.lag.data = s.lag.data ∧ t.lag.tiles = s.lag.tiles ∧ { t with lag := u.lag, flt := u.flt, free := u.free } = u) ∧
  (∀ (address : BitVec 32) (s : State), address.getLsbD 31 = false → (∀ p ∈ s.lag.inject, p.1 ≠ address.toNat) →
    address.toNat ∉ s.lag.bad →
    ∃ t, exec (.lagoonRead address .transfer 2) s = .next t ∧ t.lag.uncorr = s.lag.uncorr.inc ∧
      t.lag.lastUncorr = address ∧ t.lag.data = s.lag.data ∧ t.lag.tiles = s.lag.tiles ∧
      { t with lag := s.lag, flt := s.flt } = s) ∧
  (∀ (upset : Nat) (s : State), (s.tile (lagHandle (scrubAddress s.lag.scrubbed))).fill.isSome = true →
    exec (.lagoonScrubStep false upset) s = .next s ∧ exec (.lagoonScrubStep true upset) s = .next { s with lag := { s.lag with
      scrubbed := if scrubWords s ≤ s.lag.scrubbed + 1 then 0 else s.lag.scrubbed + 1,
      passes := if scrubWords s ≤ s.lag.scrubbed + 1 then s.lag.passes + 1 else s.lag.passes } }) ∧
  (∀ (rq : Req) (s : State), served 0x0B01 rq s = true →
    ∃ p, exec (.lagoonStatus rq) s =
        .next (respond rq 0x0B01 Status.ok p { s with lag := { s.lag with stallRaised := false } }) ∧ p.length = 32 ∧
      leAt p 0 2 = s.nTiles ∧ leAt p 8 4 = s.lag.stalls.n ∧ leAt p 12 4 = s.lag.corrected.n ∧
      leAt p 16 4 = s.lag.uncorr.n ∧ leAt p 24 4 = s.lag.fillOrder.n) ∧
  (∀ (rq : Req) (s : State), served 0x0B02 rq s = true → rq.u8 0 ≤ 1 →
    let n := min 13 (s.lag.log.length - s.lag.logRead)
    ∃ p, exec (.lagoonEccLog rq) s = .next (respond rq 0x0B02 Status.ok p
        (if rq.u8 0 = 1 then { s with lag := { s.lag with log := [], logOver := {}, logRead := 0 } }
         else { s with lag := { s.lag with
           logRead := if s.lag.log.length ≤ s.lag.logRead + n then 0 else s.lag.logRead + n } })) ∧
      leAt p 0 4 = s.lag.logOver.n ∧ leAt p 4 1 = n) ∧
  (∀ (rq : Req) (s : State), served 0x0B03 rq s = true → rq.u16 0 < s.nTiles → (s.tile (rq.u16 0)).allocated = true →
    let r := lagReadTile (rq.u16 0) 4 true s
    let u := if r.1 then r.2 else tileFailed (rq.u16 0) r.2
    ∃ p, exec (.lagoonTileHeader rq) s = .next (respond rq 0x0B03 Status.ok p u) ∧ p.length = 20 ∧
      p.take 16 = (u.tile (rq.u16 0)).header ∧
      ((∀ a, 2 ^ 31 ≤ a → lagHandle a = rq.u16 0 → (∀ p ∈ s.lag.inject, p.1 ≠ a) ∧ a ∉ s.lag.bad) → u = s)) ∧
  (∀ (rq : Req) (s : State), served 0x0B80 rq s = true → rq.u16 0 < s.nTiles → rq.u64 4 < 2 ^ 48 →
    (s.tile (rq.u16 0)).allocated = true →
    exec (.lagoonTileRead rq) s = .next (accept rq 0x0B80 [] { s with lag := { s.lag with
      reads := s.lag.reads ++ [(rq.ctx s 0x0B80, rq.u16 0, rq.u64 4)] } })) ∧
  (∀ (c : Ctx) (h address : Nat) (rest : List (Ctx × Nat × Nat)) (s : State), s.lag.reads = (c, h, address) :: rest →
    s.coreUp hostCore = true →
    let r := lagReadTile h 3 true { s with lag := { s.lag with reads := rest } }
    let u := (lagReadTile h 3 false (if r.1 then r.2 else tileFailed h r.2)).2
    address + 16400 ≤ u.dram.cfg.usable → address < 2 ^ 48 →
    exec .lagoonTileReadDone s = .next (complete c Status.ok (leBytes 4 (crc32c (u.tilePayload h)).toNat)
      (dramStore (16 + firmwareChannel u) address ((u.tile h).header ++ u.tilePayload h)
        { u with free := u.free + 1 }))) ∧
  (∀ (rq : Req) (s : State), served 0x0B81 rq s = true → lagHandle (rq.u32 0) < s.nTiles → rq.u32 0 % 2 ^ 31 < 2 ^ 23 →
    (2 ^ 31 ≤ rq.u32 0 → rq.u32 0 % 2048 < 2) → (rq.u8 4 = 1 ∨ rq.u8 4 = 2) →
    (s.tile (lagHandle (rq.u32 0))).admitted = false →
    exec (.lagoonEccInject rq) s = .next (respond rq 0x0B81 Status.ok [] { s with lag := { s.lag with
      inject := (rq.u32 0, rq.u8 4) :: s.lag.inject.filter fun p => p.1 ≠ rq.u32 0 } }))

/-! ### DRAM (spec/13_dram_ecc.md) -/

/-- The memory of the model (log entry 8 chooses what an unlisted byte reads as; the statement holds for any such value): a
byte written reads back, every other byte is as it was, the canonical form stays, and it is one form for each content. -/
def Obligations.CellsKeepWhatIsWritten : Prop :=
  (∀ (dflt : Byte) (m : List Host.Cell) (a : Nat) (b : Byte), cellsWf dflt m = true →
    cellsWf dflt (cellSet dflt m a b) = true ∧
    ∀ x, cellGet dflt (cellSet dflt m a b) x = if x = a then b else cellGet dflt m x) ∧
  (∀ (dflt : Byte) (m : List Host.Cell) (a : Nat) (bs : List Byte), cellsWf dflt m = true →
    cellsWf dflt (cellsSet dflt m a bs) = true ∧ cellsGet dflt (cellsSet dflt m a bs) a bs.length = bs ∧
    ∀ x, (x < a ∨ a + bs.length ≤ x) → cellGet dflt (cellsSet dflt m a bs) x = cellGet dflt m x) ∧
  (∀ (dflt : Byte) (m m' : List Host.Cell), cellsWf dflt m = true → cellsWf dflt m' = true →
    (∀ x, cellGet dflt m x = cellGet dflt m' x) → m = m')

/-- R317, R319 to R326: DRAM gives each address one place; a write that a channel issues, whole words or bytes that merge,
is what a read of those bytes returns, every other byte as it was; writing an entry of the merge buffer out changes no byte
that a read returns; a read of good words is served with their bytes. -/
def Obligations.DramReturnsWhatWasWritten : Prop :=
  (∀ (c : DramCfg) (a b : Nat), c.ok = true → c.decode a = c.decode b → a = b) ∧
  (∀ (requester a : Nat) (bs : List Byte) (s : State), cellsWf 0 s.dram.mem = true →
    (s.dram.merge.map (·.block)).Nodup → (∀ e ∈ s.dram.merge, e.bytes.length = 64) →
    s.dram.queues.flatten = [] →
    let t := dramStore requester a bs s
    ∀ x, t.dram.byte x = if a ≤ x ∧ x < a + bs.length then at' bs (x - a) 0 else s.dram.byte x) ∧
  (∀ (block : Nat) (why : MergeWhy) (s : State), cellsWf 0 s.dram.mem = true →
    (s.dram.merge.map (·.block)).Nodup → (∀ e ∈ s.dram.merge, e.bytes.length = 64) →
    ∃ t, exec (.mergeEntryWriteout block why) s = .next t ∧ ∀ x, t.dram.byte x = s.dram.byte x) ∧
  (∀ (channel : Nat) (r : DramReq) (bs : List Byte) (s : State), s.dram.queues.length = 4 →
    cellsWf 0 s.dram.mem = true → (s.dram.merge.map (·.block)).Nodup → (∀ e ∈ s.dram.merge, e.bytes.length = 64) →
    channel < s.dram.cfg.nChannels → at' s.dram.queues channel [] = [] → s.dram.throttled = [] →
    (s.dram.cfg.decode r.addr).channel = channel → r.data = some bs → r.addr < s.dram.cfg.usable →
    r.addr + bs.length ≤ s.dram.cfg.usable → s.dram.stopped = false →
    ∃ t, exec (.dramRequestIssue channel [r]) s = .next t ∧
      ∀ x, t.dram.byte x = if r.addr ≤ x ∧ x < r.addr + bs.length then at' bs (x - r.addr) 0 else s.dram.byte x) ∧
  (∀ (channel : Nat) (r : DramReq) (s : State), s.dram.queues.length = 4 →
    cellsWf 0 s.dram.mem = true → (s.dram.merge.map (·.block)).Nodup → (∀ e ∈ s.dram.merge, e.bytes.length = 64) →
    channel < s.dram.cfg.nChannels → at' s.dram.queues channel [] = [] → s.dram.throttled = [] → s.dram.errs = [] →
    s.dram.poison = [] → (s.dram.cfg.decode r.addr).channel = channel → r.data = none → r.upset = 0 →
    r.addr < s.dram.cfg.usable → r.addr + r.len ≤ s.dram.cfg.usable → s.dram.stopped = false →
    ∃ t, exec (.dramRequestIssue channel [r]) s = .next t ∧
      t.dram.served = some (r.requester, s.dramRead r.addr r.len, true) ∧ ∀ x, t.dram.byte x = s.dram.byte x)

/-- R314, R322, R328 to R333, R336, R337 and the DRAM commands of group 0x0B: a refresh holds its channel for tRFCab and
closes its rows; MR4 codes are kept and a shorter interval is raised; the row counters start again each window; the patrol
scrub goes on to the next word and counts its passes; an uncorrectable word stops the core that reads it; a log read with
CLEAR empties the log; an injection waits for its word. -/
def Obligations.DramIsKept : Prop :=
  (∀ (channel : Nat) (s : State),
    let due := at' s.dram.refreshAt channel 0
    let u := s.advanceTo (due.toNat + 3120)
    let at' := due.toNat + max 1 ((u.time.toNat - due.toNat) / 3120) * 3120
    s.dram.stopped = false →
    exec (.dramRefresh channel) s = .next { u with dram := { s.dram with
      refreshEnd := modAt s.dram.refreshEnd channel fun _ => BitVec.ofNat 64 (at' + ceilDiv (s.dram.cfg.trfc * 8) 5),
      refreshAt := modAt s.dram.refreshAt channel fun _ => BitVec.ofNat 64 at',
      openRows := s.dram.openRows.filter fun o => o.1 ≠ channel,
      wckWaits := modAt s.dram.wckWaits channel fun _ => false } }) ∧
  (∀ (channel upset : Nat) (rs : List DramReq) (s : State), s.dram.stopped = true →
    exec (.dramRefresh channel) s = .next s ∧ exec (.dramRequestIssue channel rs) s = .next s ∧
    exec (.dramPatrolScrubStep upset) s = .next s) ∧
  (∀ (channel code : Nat) (s : State), exec (.dramMr4Read channel code false) s =
      .next { s with dram := { s.dram with mr4Max := max s.dram.mr4Max (code % 256) } } ∧
    exec (.dramMr4Read channel code true) s = .next (present 0x0168 (some channel) 0
      { s with dram := { s.dram with mr4Max := max s.dram.mr4Max (code % 256) } })) ∧
  (∀ (channel : Nat) (s : State), exec (.dramWck2dqRead channel) s =
    .next { s with dram := { s.dram with wckWaits := modAt s.dram.wckWaits channel fun _ => true } }) ∧
  (∀ s : State,
    let u := s.advanceTo (ceilDiv s.time.toNat 51200000 * 51200000)
    exec .rowWindowStart s = .next { u with dram :=
      { s.dram with tables := [], throttled := [], rowWindow := u.time.toNat / 51200000 } }) ∧
  (∀ (s : State), s.dram.errs = [] → s.dram.poison = [] → s.dram.cfg.usable ≠ 0 → s.dram.stopped = false →
    let span := s.dram.hours * 3600 * ticksPerSecond
    let u := s.advanceTo (s.dram.scrubFrom.toNat + s.dram.scrubAt * span / rawWords s)
    let last := rawWords s ≤ s.dram.scrubAt + 1
    let w := s.dram.scrubAt * 8
    let v := if s.dram.cfg.usable ≤ w ∨ (s.dram.merge.any fun e => e.block = w / 64) = true then u else openRow 58 w u
    exec (.dramPatrolScrubStep 0) s = .next { v with dram := { v.dram with
      scrubAt := if last then 0 else s.dram.scrubAt + 1, passes := if last then s.dram.passes + 1 else s.dram.passes,
      scrubFrom := if last then s.dram.scrubFrom + BitVec.ofNat 64 span else s.dram.scrubFrom,
      hours := if last then s.dram.hoursNext.getD s.dram.hours else s.dram.hours,
      hoursNext := if last then none else s.dram.hoursNext } }) ∧
  (∀ (w core : Nat) (s : State), core ≤ 8 → s.held.getLsbD core = false →
    let r := checkWord true core w 2 s
    r.1 = false ∧ r.2.held.getLsbD core = true ∧ r.2.dram.uncorr = s.dram.uncorr.inc ∧ r.2.dram.mem = s.dram.mem) ∧
  (∀ (told : Bool) (w requester : Nat) (s : State), s.dram.wrong w 0 = 1 →
    let r := checkWord told requester w 0 s
    r.1 = true ∧ r.2.dram.corrected = s.dram.corrected.inc ∧ r.2.dram.mem = s.dram.mem ∧
      (newerWrite s w = false → ∀ p ∈ r.2.dram.errs, p.1 ≠ w) ∧ (newerWrite s w = true → (w, 1) ∈ r.2.dram.errs)) ∧
  (∀ (w requester upset : Nat) (s : State), 2 ≤ s.dram.wrong w upset →
    (checkWord false requester w upset s).1 = false ∧ (checkWord false requester w upset s).2.held = s.held) ∧
  (∀ (rq : Req) (s : State), served 0x0B04 rq s = true →
    ∃ p, exec (.dramStatus rq) s = .next (respond rq 0x0B04 Status.ok p s) ∧ p.length = 48 ∧
    leAt p 8 4 = s.dram.corrected.n ∧ leAt p 12 4 = s.dram.uncorr.n ∧ leAt p 16 8 = s.dram.lastUncorr.toNat ∧
    leAt p 24 4 = s.dram.throttles.n ∧ leAt p 36 4 = s.dram.poisoned.n) ∧
  (∀ (rq : Req) (s : State), served 0x0B05 rq s = true → rq.u8 0 ≤ 1 →
    (∃ p, exec (.dramEccLog rq) s = .next (respond rq 0x0B05 Status.ok p
        (if rq.u8 0 = 1 then { s with dram := { s.dram with log := [], logOver := {} } } else s)) ∧
      leAt p 0 4 = s.dram.logOver.n ∧ leAt p 4 1 = min 13 s.dram.log.length) ∧
    (∃ p, exec (.dramRowlog rq) s = .next (respond rq 0x0B06 Status.ok p
        (if rq.u8 0 = 1 then { s with dram := { s.dram with rowLog := [], rowOver := {} } } else s)) ∧
      leAt p 0 4 = s.dram.rowOver.n ∧ leAt p 4 1 = min 13 s.dram.rowLog.length)) ∧
  (∀ (rq : Req) (s : State), served 0x0B07 rq s = true → 1 ≤ rq.u16 0 → rq.u16 0 ≤ 168 →
    exec (.dramScrubConfig rq) s = .next (respond rq 0x0B07 Status.ok []
      { s with dram := { s.dram with hoursNext := some (rq.u16 0) } })) ∧
  (∀ (rq : Req) (s : State), served 0x0B82 rq s = true → rq.u64 0 < 2 ^ 48 → rq.u64 0 % 8 = 0 → (rq.u8 8 = 1 ∨ rq.u8 8 = 2) →
    rq.u64 0 < s.dram.cfg.usable →
    exec (.dramEccInject rq) s = .next (respond rq 0x0B82 Status.ok [] { s with dram := { s.dram with
      inject := (rq.u64 0, rq.u8 8) :: s.dram.inject.filter fun p => p.1 ≠ rq.u64 0 } }))

/-! ### DMA and compression (spec/14_dma_compression.md) -/

/-- R343 to R353 and the commands of group 0x0C: a channel that is enabled starts at entry 0 with its counts clear; a
disabled one is DISABLED; a READY descriptor is taken, and one that is not leaves the channel waiting; its halves are moved,
STATUS, CRC and ERROR are written to the ring, and the channel goes on to the next entry. -/
def Obligations.DmaChannelsRun : Prop :=
  (∀ (rq : Req) (s : State), served 0x0C01 rq s = true →
    let c := rq.u8 0
    c < 28 → rq.u8 1 = 1 → 1 ≤ rq.u8 2 → rq.u8 2 ≤ 64 → 2 ≤ rq.u32 4 → rq.u32 4 ≤ 65536 → rq.u64 8 < 2 ^ 49 →
    rq.u64 8 % 32 = 0 → 1 ≤ rq.u16 16 → rq.u16 16 ≤ 1000 → fenced s 0x0181 c = false → grantSum s c (4 * rq.u8 2) ≤ 256 →
    let s' := newShare c (4 * rq.u8 2) s
    exec (.dmaChannelConfig rq) s = .next (respond rq 0x0C01 Status.ok [] (s'.modChannel c fun ch =>
      { ch with st := 1, grants := 4 * rq.u8 2, grantsNext := none, ringSize := rq.u32 4, ring := rq.u64 8,
                pollUs := rq.u16 16, index := 0, cur := none, prevCrc := none, done := 0, bytes := 0, bad := {},
                maxWait := 0 }))) ∧
  (∀ (rq : Req) (s : State), served 0x0C02 rq s = true → s.dma.channels.length = 32 → rq.u32 0 < 2 ^ 28 →
    ∃ t p, exec (.dmaChannelDisable rq) s = .next (respond rq 0x0C02 Status.ok p t) ∧ p.length = 4 ∧
      (∀ c, c < 28 → (rq.u32 0).testBit c = true → (t.channel c).st = 0 ∧ (t.channel c).cur = (if (s.channel c).st = 0 then
        (s.channel c).cur else none)) ∧
      (∀ c, (rq.u32 0).testBit c = false → t.channel c = s.channel c) ∧ t.mci = s.mci) ∧
  (∀ (rq : Req) (s : State), served 0x0C03 rq s = true → rq.u8 0 < 32 →
    ∃ p, exec (.dmaChannelStatus rq) s = .next (respond rq 0x0C03 Status.ok p s) ∧ p.length = 32 ∧
      leAt p 8 8 = (s.channel (rq.u8 0)).done.toNat ∧ leAt p 16 8 = (s.channel (rq.u8 0)).bytes.toNat ∧
      leAt p 24 4 = (s.channel (rq.u8 0)).bad.n) ∧
  (∀ (rq : Req) (s : State), served 0x0C04 rq s = true → 1 ≤ rq.u8 0 → rq.u8 0 ≤ 15 →
    (rq.u64 8 = 2 ^ 64 - 1 ∨ (rq.u64 8 < 2 ^ 48 ∧ rq.u64 8 % 65536 = 0)) →
    exec (.dmaWindowSet rq) s = .next (respond rq 0x0C04 Status.ok [] { s with dma := { s.dma with
      windows := modAt s.dma.windows (rq.u8 0 - 1) fun _ =>
        if rq.u64 8 = 2 ^ 64 - 1 then none else some (rq.u64 8) } })) ∧
  (∀ (rq : Req) (s : State), served 0x0C80 rq s = true → rq.u8 0 < 28 → 1 ≤ rq.u16 2 → rq.u16 2 ≤ 256 →
    ((s.channel (rq.u8 0)).st = 0 ∨ grantSum s (rq.u8 0) (rq.u16 2) ≤ 256) →
    exec (.dmaChannelRaw rq) s = .next (respond rq 0x0C80 Status.ok []
      (s.modChannel (rq.u8 0) fun ch => { ch with grantsNext := some (rq.u16 2) }))) ∧
  (∀ (c a : Nat) (b : List Byte) (s : State), c < s.dma.channels.length →
    ((s.channel c).st = 1 ∨ (s.channel c).st = 2) → (s.channel c).cur = none →
    s.place ((s.channel c).entry (s.channel c).index) = .host a → b.length = 32 → a + 32 ≤ 2 ^ 48 →
    channelWaits s c = false →
    let u := spend c 32 (if (s.channel c).st = 2 then
      s.advanceTo ((s.channel c).pollAt.toNat + (s.channel c).pollUs * 1600) else s)
    (leAt b 21 1 ≠ 1 → exec (.dmaDescriptorPoll c (some b)) s =
      .next (u.modChannel c fun ch => { ch with st := 2, pollAt := u.time })) ∧
    (leAt b 21 1 = 1 → leAt b 16 4 ≠ 0 → leAt b 20 1 < 8 →
      ∃ t d, exec (.dmaDescriptorPoll c (some b)) s = .next t ∧ t.channel c = { u.channel c with st := 1, cur := some d } ∧
        d.src = leAt b 0 8 ∧ d.dst = leAt b 8 8 ∧ d.length = leAt b 16 4 ∧ d.half = (leAt b 20 1).testBit 0 ∧
        d.done = (leAt b 20 1).testBit 1 ∧ d.moved = 0 ∧ d.status = 1 ∧
        ((leAt b 20 1).testBit 2 = false → d.crc = 0xFFFFFFFF) ∧ { t with dma := u.dma } = u)) ∧
  (∀ (c a : Nat) (s : State), c < s.dma.channels.length → ((s.channel c).st = 1 ∨ (s.channel c).st = 2) →
    (s.channel c).cur = none → s.place ((s.channel c).entry (s.channel c).index) = .host a → channelWaits s c = false →
    ∃ t, exec (.dmaDescriptorPoll c none) s = .next t ∧ (t.channel c).st = 3 ∧
      (t.flt.presented.getLast?.map fun r => (r.source, r.unit)) = some (0x0181, some c)) ∧
  (∀ (c e x y : Nat) (d : Desc) (data : List Byte) (s : State), c < s.dma.channels.length → (s.channel c).cur = some d →
    (s.channel c).entry (s.channel c).index = 2 ^ 48 + e → e + 32 ≤ 2 ^ 48 → d.src = 2 ^ 48 + x → x + d.length ≤ 2 ^ 48 →
    d.dst = 2 ^ 48 + y → y + d.length ≤ 2 ^ 48 → d.moved = 0 → d.crc = 0xFFFFFFFF → channelWaits s c = false →
    (d.length ≠ 0 → d.halfDue = false → data.length = d.length →
      ∃ t, exec (.dmaDescriptorDone c data) s = .next t ∧
        t.dma.toHost = s.dma.toHost ++ [(y, data), (e + 24, leBytes 4 (crc32c data).toNat), (e + 21, [3])] ∧
        (t.channel c).cur = none ∧ (t.channel c).done = (s.channel c).done + 1 ∧
        (t.channel c).index = (if (s.channel c).ringSize ≤ (s.channel c).index + 1 then 0 else (s.channel c).index + 1) ∧
        (d.done = true → c < 28 → t.mci = (signal (16 + c) s).mci) ∧ (d.done = false → t.mci = s.mci)) ∧
    (2 ≤ d.length → d.halfDue = true → data.length = d.length →
      ∃ t, exec (.dmaDescriptorDone c data) s = .next t ∧
        t.dma.toHost = s.dma.toHost ++ [(y, data.take (d.length / 2)), (e + 21, [2]),
          (y + d.length / 2, data.drop (d.length / 2)), (e + 24, leBytes 4 (crc32c data).toNat), (e + 21, [3])] ∧
        (t.channel c).cur = none ∧ (t.channel c).done = (s.channel c).done + 1) ∧
    (2 ≤ d.length → d.halfDue = true → data.length = d.length / 2 →
      ∃ t, exec (.dmaDescriptorHalf c data) s = .next t ∧
        t.dma.toHost = s.dma.toHost ++ [(y, data), (e + 21, [2])] ∧
        ((t.channel c).cur.map fun g => (g.moved, g.status)) = some (d.length / 2, 2) ∧
        (c < 28 → t.mci = (signal (16 + c) s).mci)) ∧
    (∀ onWrite offset,
      let k := min offset d.length
      (onWrite = false ∨ offset < d.length) → ∃ t bs, exec (.dmaBusError c onWrite offset) s = .next t ∧ bs.length = k ∧
        t.dma.toHost = s.dma.toHost ++ (if k = 0 then [] else [(y, bs)]) ++
          [(e + 22, [if onWrite then 2 else 1]), (e + 24, leBytes 4 k), (e + 21, [4])] ∧
        (t.channel c).bad = (s.channel c).bad.inc ∧ (t.channel c).cur = none ∧
        (t.flt.presented.getLast?.map fun r => (r.source, r.unit)) = some (0x0180, some c)) ∧
    (∀ offset, d.length ≤ offset → ∃ t, exec (.dmaBusError c true offset) s = .next t ∧ (t.channel c).st = 3 ∧
        (t.channel c).cur = none ∧ (t.flt.presented.getLast?.map fun r => (r.source, r.unit)) = some (0x0181, some c))) ∧
  (∀ (c : Nat) (data : List Byte) (b : Option (List Byte)) (s : State), channelWaits s c = true →
    exec (.dmaDescriptorPoll c b) s = .next s ∧ exec (.dmaDescriptorHalf c data) s = .next s ∧
    exec (.dmaDescriptorDone c data) s = .next s) ∧
  (∀ (c : Nat) (data : List Byte) (w : Bool) (o : Nat) (s : State), (s.channel c).cur = none →
    exec (.dmaDescriptorHalf c data) s = .next s ∧ exec (.dmaDescriptorDone c data) s = .next s ∧
    exec (.dmaBusError c w o) s = .next s) ∧
  (∀ (c : Nat) (d : Desc) (data : List Byte) (s : State), (s.channel c).cur = some d → d.halfDue = false →
    exec (.dmaDescriptorHalf c data) s = .next s) ∧
  (∀ s : State,
    let u := s.advanceTo (windowStart (windowOf s.time.toNat + 1))
    ∃ t, exec .fabricBudgetWindow s = .next t ∧ t.dma.classLeft = [51, 409, 256] ∧ t.dma.window = windowOf u.time.toNat ∧
      t.dma.channels =
        (s.dma.channels.map fun ch => { ch with grants := ch.grantsNext.getD ch.grants, grantsNext := none }) ∧
      { t with dma := u.dma } = u)

/-- R294, R339 to R341: the host reads and writes DRAM through a set window of BAR2, an unset one reads 0 and ignores
writes; HST_CTRL selects a stream and the writing of 1s to HST_STATUS clears READY and SKIPPED. -/
def Obligations.HostReachesDramThroughBar2 : Prop :=
  (∀ (w base o n : Nat) (bs : List Byte) (s : State), 1 ≤ w → w ≤ 15 → at' s.dma.windows (w - 1) none = some base →
    o + bs.length ≤ 2 ^ 24 → base + o + bs.length ≤ s.dram.cfg.usable → o < 2 ^ 24 → base + o < s.dram.cfg.usable →
    s.dram.stopped = false → s.dram.queues.flatten = [] →
    cellsWf 0 s.dram.mem = true → (s.dram.merge.map (·.block)).Nodup → (∀ e ∈ s.dram.merge, e.bytes.length = 64) →
    ∃ t, exec (.bar2HostAccess (w * 2 ^ 24 + o) (some bs) n) s = .next t ∧
      ∀ x, t.dram.byte x = if base + o ≤ x ∧ x < base + o + bs.length then at' bs (x - (base + o)) 0 else s.dram.byte x) ∧
  (∀ (w base o n : Nat) (s : State), 1 ≤ w → w ≤ 15 → at' s.dma.windows (w - 1) none = some base →
    o + n ≤ 2 ^ 24 → base + o + n ≤ s.dram.cfg.usable → o < 2 ^ 24 → base + o < s.dram.cfg.usable →
    s.dram.errs = [] → s.dram.poison = [] → s.dram.stopped = false → s.dram.queues.flatten = [] →
    cellsWf 0 s.dram.mem = true → (s.dram.merge.map (·.block)).Nodup → (∀ e ∈ s.dram.merge, e.bytes.length = 64) →
    ∃ t, exec (.bar2HostAccess (w * 2 ^ 24 + o) none n) s = .next t ∧
      t.dma.bar2Read = some (s.dramRead (base + o) n) ∧ ∀ x, t.dram.byte x = s.dram.byte x) ∧
  (∀ (w base o n : Nat) (bs : List Byte) (s : State), 1 ≤ w → w ≤ 15 → at' s.dma.windows (w - 1) none = some base →
    o < 2 ^ 24 → s.dram.cfg.usable ≤ base + o → 1 ≤ n → bs ≠ [] →
    (∃ t, exec (.bar2HostAccess (w * 2 ^ 24 + o) none n) s = .next t ∧ t.dma.bar2Read = none ∧ t.dram = s.dram) ∧
    (∃ t, exec (.bar2HostAccess (w * 2 ^ 24 + o) (some bs) n) s = .next t ∧ t.dma.bar2Read = none ∧ t.dram = s.dram)) ∧
  (∀ (w o n : Nat) (bs : List Byte) (s : State), 1 ≤ w → w ≤ 15 → o < 2 ^ 24 → at' s.dma.windows (w - 1) none = none →
    (∃ t, exec (.bar2HostAccess (w * 2 ^ 24 + o) (some bs) n) s = .next t ∧ t.dram = s.dram) ∧
    (∃ t, exec (.bar2HostAccess (w * 2 ^ 24 + o) none n) s = .next t ∧ t.dram = s.dram ∧
      t.dma.bar2Read = some (zeros n))) ∧
  (∀ (offset n : Nat) (s : State), offset < 0x100000 → exec (.bar2HostAccess offset none n) s =
    .next { s with dma := { s.dma with bar2Read := some (bar2RegBytes s offset n) } }) ∧
  (∀ (a b c d : Byte) (s : State),
    exec (.registerWrite .pcie .hst 0 [a, b, c, d]) s = .next { s with cam := { s.cam with
      hstEn := a.getLsbD 0, hstStream := BitVec.ofNat 4 (a.toNat / 16) } } ∧
    exec (.registerWrite .pcie .hst 4 [a, b, c, d]) s = .next { s with cam := { s.cam with
      hstReady := s.cam.hstReady && !a.getLsbD 0, hstSkipped := s.cam.hstSkipped && !a.getLsbD 2 } } ∧
    (∀ o, 8 ≤ o → o < 0x800 → exec (.registerWrite .pcie .hst o [a, b, c, d]) s = .next s)) ∧
  (∀ (win : RegWindow) (offset : Nat) (transfer : List Byte) (s : State),
    ∃ t, exec (.registerWrite .spi win offset transfer) s = .next t ∧ t.cam = s.cam ∧ t.dram = s.dram)

/-- R354 to R360 and the commands of group 0x0D: a job that is submitted waits with the next JOB; an idle engine takes the
first firmware job, else the first host job where it serves the host; a job that ends well is counted and its output stored;
an abort removes a queued job with ABORTED; what a decompression gives is the stream's bytes, within its limit and with the
CRC it was given, and what a compression gives is shorter than its input. -/
def Obligations.CompressionJobsRun : Prop :=
  (∀ (rq : Req) (s : State), served 0x0D01 rq s = true → (∀ e, e < 4 → 1 ≤ rq.u8 (4 + e) ∧ rq.u8 (4 + e) ≤ 64) →
    let shares := (List.range 4).map fun e => rq.u8 (4 + e)
    (s.dma.channels.map fun ch => if ch.st = 0 then 0 else max ch.grants (ch.grantsNext.getD 0)).sum +
      4 * (mapIx (fun e (d : Deflate) => d.shareHeld (at' shares e 8)) s.dma.engines).sum + 32 ≤ 256 →
    exec (.compressConfig rq) s = .next (respond rq 0x0D01 Status.ok [] { s with dma := { s.dma with
      hostEngines := BitVec.ofNat 4 (rq.u8 0),
      engines := mapIx (fun e d => { d with shareNext := at' shares e 8 }) s.dma.engines } })) ∧
  (∀ (rq : Req) (s : State), served 0x0D02 rq s = true → rq.u8 28 ≤ 1 → rq.u32 16 ≠ 0 → (rq.u8 28 = 0 → rq.u32 20 ≠ 0) →
    (rq.u8 28 = 1 → 1 ≤ rq.u8 29 ∧ rq.u8 29 ≤ 9) → rq.u64 0 < 3 * 2 ^ 48 → rq.u64 8 < 3 * 2 ^ 48 →
    s.dma.queue.length < 32 →
    ∃ t j, exec (.compressSubmit rq) s = .next (accept rq 0x0D02 (leBytes 8 s.dma.nextJob.toNat) t) ∧
      t.dma = { s.dma with queue := s.dma.queue ++ [j], nextJob := s.dma.nextJob + 1 } ∧ { t with dma := s.dma } = s ∧
      j.job = s.dma.nextJob ∧ j.src = rq.u64 0 ∧ j.dst = rq.u64 8 ∧ j.srcLen = rq.u32 16 ∧ j.dstLimit = rq.u32 20 ∧
      j.compress = (rq.u8 28 = 1) ∧ j.origCrc = BitVec.ofNat 32 (rq.u32 24) ∧ j.tag = BitVec.ofNat 32 (rq.u32 32)) ∧
  (∀ (rq : Req) (s : State), served 0x0D02 rq s = true → rq.u8 28 ≤ 1 → rq.u32 16 ≠ 0 → (rq.u8 28 = 0 → rq.u32 20 ≠ 0) →
    (rq.u8 28 = 1 → 1 ≤ rq.u8 29 ∧ rq.u8 29 ≤ 9) → rq.u64 0 < 3 * 2 ^ 48 → rq.u64 8 < 3 * 2 ^ 48 →
    32 ≤ s.dma.queue.length → exec (.compressSubmit rq) s = .next (respond rq 0x0D02 0x8D01 [] s)) ∧
  (∀ (rq : Req) (j : CJob) (s : State), served 0x0D03 rq s = true → BitVec.ofNat 64 (rq.u64 0) < s.dma.nextJob →
    (s.dma.queue.find? fun k => k.job = BitVec.ofNat 64 (rq.u64 0)) = some j →
    exec (.compressAbort rq) s = .next (complete j.ctx Status.aborted
      (leBytes 1 7 ++ zeros 11 ++ leBytes 4 j.tag.toNat ++ leBytes 8 j.job.toNat)
      (respond rq 0x0D03 Status.ok [] { s with dma := { s.dma with
        queue := s.dma.queue.filter fun k => k.job ≠ BitVec.ofNat 64 (rq.u64 0) } }))) ∧
  (∀ (rq : Req) (s : State), served 0x0D04 rq s = true → rq.u8 0 < 4 →
    ∃ p, exec (.compressStatus rq) s = .next (respond rq 0x0D04 Status.ok p s) ∧
      leAt p 0 8 = (s.deflate (rq.u8 0)).jobs.toNat ∧ leAt p 8 8 = (s.deflate (rq.u8 0)).bytesIn.toNat ∧
      leAt p 16 8 = (s.deflate (rq.u8 0)).bytesOut.toNat) ∧
  (∀ (rq : Req) (s : State), served 0x0D80 rq s = true → rq.u16 0 ≤ 4096 → exec (.compressEngineRaw rq) s =
    .next (respond rq 0x0D80 Status.ok [] { s with dma := { s.dma with chain := rq.u16 0 } })) ∧
  (∀ (e : Nat) (j : FwJob) (front rest : List FwJob) (s : State), e < 4 → s.dma.engines.length = 4 →
    (s.deflate e).cur = none → s.dma.fwQueue = front ++ j :: rest → (∀ k ∈ front, k.stalls s = true) →
    j.stalls s = false →
    ∃ t, exec (.deflateJobStart e) s = .next t ∧ (t.deflate e).cur = some (.fw j) ∧ t.dma.fwQueue = front ++ rest ∧
      t.dma.queue = s.dma.queue ∧ { t with dma := s.dma } = s) ∧
  (∀ (e : Nat) (j : CJob) (rest : List CJob) (s : State), e < 4 → s.dma.engines.length = 4 →
    (s.deflate e).cur = none → (∀ k ∈ s.dma.fwQueue, k.stalls s = true) → s.dma.queue = j :: rest → s.dma.hostEngines.getLsbD e = true →
    ∃ t, exec (.deflateJobStart e) s = .next t ∧ (t.deflate e).cur = some (.host j) ∧
      (t.deflate e).share = (s.deflate e).shareNext ∧ t.dma.queue = rest ∧ { t with dma := s.dma } = s) ∧
  (∀ (e : Nat) (host : List Byte) (s : State), (s.deflate e).cur = none →
    exec (.deflateJobEnd e host) s = .next s) ∧
  (∀ (e : Nat) (j : FwJob) (host : List Byte) (s : State), (s.deflate e).cur = some (.fw j) → j.stalls s = true →
    exec (.deflateJobEnd e host) s = .next s) ∧
  (∀ (e y : Nat) (j : CJob) (host : List Byte) (s : State), e < s.dma.engines.length →
    (s.deflate e).cur = some (.host j) → (s.deflate e).aborted = false →
    let got := fetchFrom (48 + e) j.src j.srcLen host s
    let r := j.outcome s got.1
    r.result = 0 → s.place j.dst = .host y → r.output ≠ [] → y + r.output.length ≤ 2 ^ 48 → dramWaits s j.src = false →
    ∃ t, exec (.deflateJobEnd e host) s = .next t ∧ (t.deflate e).cur = none ∧
      (t.deflate e).jobs = (s.deflate e).jobs + 1 ∧ (t.deflate e).results = (s.deflate e).results ∧
      t.dma.toHost = s.dma.toHost ++ [(y, r.output)] ∧ t.dram = got.2.2.dram ∧ t.lag = s.lag) ∧
  (∀ (s : State) (j : CJob) (input : List Byte), (j.outcome s input).result = 0 →
    if j.compress then
      (j.outcome s input).output = deflate input j.chain ∧ (j.outcome s input).output.length < j.srcLen
    else
      (j.outcome s input).output = (inflate (min j.dstLimit (roomOf s j.dst)) input).output ∧
      (inflate (min j.dstLimit (roomOf s j.dst)) input).ending = .done ∧ crc32c (j.outcome s input).output = j.origCrc) ∧
  (∀ (limit : Nat) (input : List Byte), (inflate limit input).output.length ≤ limit)

/-! ### Brushless motors (spec/15_bldc.md) -/

/-- R363, R370, R373 to R376, R379, R380 and the commands of group 0x0E: a motor takes its configuration while it is STOPPED
or FAILED; a bus group takes its limits and its latch is released; a start listens with all gates off; a speed command
stands unless AUTO_RESTART starts the motor; a stop turns the gates off; the speed pin commands its motor, and its loss the
failsafe. -/
def Obligations.MotorsAreCommanded : Prop :=
  (∀ (rq : Req) (s : State), served 0x0E01 rq s = true →
    let m := rq.u8 0
    m < 8 → 1 ≤ rq.u8 1 → rq.u8 1 ≤ 8 → rq.u8 2 ≤ 2 → (rq.u8 2 = 2 → 4 ≤ m) → 100 ≤ rq.u16 4 → rq.u16 4 ≤ 60000 →
    rq.u16 6 ≤ rq.u16 4 → 20 ≤ rq.u8 10 → rq.u8 10 ≤ 100 → rq.u8 13 ≤ 2 → 10 ≤ rq.u16 14 → rq.u16 14 ≤ 5000 →
    50 ≤ rq.u16 16 → rq.u16 16 ≤ 30000 → rq.u16 18 ≤ rq.u16 4 → 100 ≤ rq.u16 20 → rq.u16 20 ≤ 60000 → 1 ≤ rq.u16 22 →
    ((s.motor m).st = .stopped ∨ (s.motor m).st = .failed) → (rq.u8 2 = 1 → (loopsBoundTo s 4 m).length ≤ 1) →
    exec (.bldcConfig rq) s = .next (respond rq 0x0E01 Status.ok [] (s.modMotor m fun x =>
      { x with poles := rq.u8 1, source := rq.u8 2, auto := rq.bit 3 0, maxRpm := rq.u16 4, minRpm := rq.u16 6,
               catchRpm := rq.u16 8, pwmKhz := rq.u8 10, maxDuty := rq.u8 11, alignDuty := rq.u8 12, pinMode := rq.u8 13,
               alignMs := rq.u16 14, rampMs := rq.u16 16, handoff := rq.u16 18, brakeMs := rq.u16 20, accel := rq.u16 22,
               kp := rq.u32 24, ki := rq.u32 28, iDrive := rq.u16 32, pinLo := rq.u16 34, pinHi := rq.u16 36,
               failsafe := rq.u8 38, pinLost := false, pinBadAt := none, pinOkAt := none }))) ∧
  (∀ (rq : Req) (s : State), served 0x0E02 rq s = true → rq.u8 0 < 2 →
    BitVec.ofNat 8 (rq.u8 1) &&& (s.bus (1 - rq.u8 0)).motors = 0 →
    rq.u16 6 < rq.u16 4 → rq.u16 4 < rq.u16 8 → rq.u16 8 < rq.u16 10 →
    ((s.bus (rq.u8 0)).latched = false ∨ ∀ f ∈ [0x01C2, 0x01C3, 0x01C4], unackedSource s f = false) →
    exec (.bldcBusConfig rq) s = .next (respond rq 0x0E02 Status.ok [] (s.modBus (rq.u8 0) fun b =>
      { b with configured := true, motors := BitVec.ofNat 8 (rq.u8 1), fullScale := rq.u16 2, chopOn := rq.u16 4,
               chopOff := rq.u16 6, ovLimit := rq.u16 8, absLimit := rq.u16 10, iBrake := rq.u16 12, latched := false,
               absRaised := false }))) ∧
  (∀ (rq : Req) (s : State), served 0x0E03 rq s = true → s.bldc.motors.length = 8 → rq.u8 0 < 8 →
    (s.motor (rq.u8 0)).starting = false →
    (s.motor (rq.u8 0)).st ≠ .run → (s.motor (rq.u8 0)).st ≠ .busBrake → (busOf s (rq.u8 0)).latched = false →
    fenced s 0x01C6 (rq.u8 0) = false → s.coreUp motorCore = true → s.flt.fatal = none →
    ∃ t, exec (.bldcStart rq) s = .next (accept rq 0x0E03 [] t) ∧ (t.motor (rq.u8 0)).st = .listen ∧
      (t.motor (rq.u8 0)).gates = 0 ∧ (t.motor (rq.u8 0)).retries = 0 ∧
      (t.motor (rq.u8 0)).ctx = some (rq.ctx s 0x0E03) ∧
      (t.motor (rq.u8 0)).command = (if (s.motor (rq.u8 0)).source = 0 then rq.u16 4 else (s.motor (rq.u8 0)).command) ∧
      (∀ k, k ≠ rq.u8 0 → t.motor k = s.motor k) ∧ { t with bldc := s.bldc } = s) ∧
  (∀ (rq : Req) (s : State), served 0x0E04 rq s = true → rq.u8 0 < 8 → rq.u16 2 ≤ (s.motor (rq.u8 0)).maxRpm →
    (s.motor (rq.u8 0)).source = 0 →
    fenced s 0x01C6 (rq.u8 0) = false →
    exec (.bldcSpeed rq) s = .next (respond rq 0x0E04 Status.ok [] (setCommand (rq.u8 0) (rq.u16 2) s))) ∧
  (∀ (m rpm : Nat) (s : State), m < s.bldc.motors.length →
    let x := s.motor m
    ((x.auto = false ∨ x.st ≠ .stopped ∨ x.minRpm < x.command ∨ rpm ≤ x.minRpm) →
      setCommand m rpm s = s.modMotor m fun x => { x with command := rpm }) ∧
    (x.auto = true → x.st = .stopped → x.command ≤ x.minRpm → x.minRpm < rpm →
      (busOf s m).latched = false → fenced s 0x01C6 m = false → s.coreUp motorCore = true → s.flt.fatal = none →
      ((setCommand m rpm s).motor m).st = .listen ∧ ((setCommand m rpm s).motor m).command = rpm)) ∧
  (∀ (rq : Req) (s : State), served 0x0E05 rq s = true → rq.u8 1 ≤ 1 →
    exec (.bldcStop rq) s = .next (respond rq 0x0E05 Status.ok []
      (((List.range 8).filter fun m => (rq.u8 0).testBit m).foldl (fun s m => stopMotor m (rq.u8 1 = 1) s) s))) ∧
  (∀ (m : Nat) (s : State), m < s.bldc.motors.length →
    (((s.motor m).starting = true ∨ (s.motor m).st = .run) →
      ((stopMotor m false s).motor m).st = .coast ∧ ((stopMotor m false s).motor m).gates = 0) ∧
    ((s.motor m).st = .run → stopMotor m true s = s.modMotor m fun x => { x with ramping := true }) ∧
    ((s.motor m).starting = false → (s.motor m).st ≠ .run → ∀ ramp, stopMotor m ramp s = s)) ∧
  (∀ (rq : Req) (s : State), served 0x0E06 rq s = true → rq.u8 0 < 8 →
    ∃ p, exec (.bldcStatus rq) s = .next (respond rq 0x0E06 Status.ok p s) ∧ p.length = 32 ∧
      leAt p 0 1 = (s.motor (rq.u8 0)).st.num ∧ leAt p 12 4 = (s.motor (rq.u8 0)).syncLosses.n ∧
      leAt p 16 4 = (s.motor (rq.u8 0)).startFails.n ∧ leAt p 20 4 = (s.motor (rq.u8 0)).busBrakes.n ∧
      leAt p 24 8 = (s.motor (rq.u8 0)).commutations.toNat) ∧
  (∀ (rq : Req) (s : State), served 0x0E80 rq s = true → rq.u8 0 < 8 → 1 ≤ rq.u8 1 → rq.u8 1 ≤ 8 → rq.u8 2 ≤ 30 →
    1 ≤ rq.u8 3 → rq.u8 3 ≤ 32 →
    50 ≤ rq.u16 4 → rq.u16 4 ≤ 5000 → 20 ≤ rq.u16 6 → rq.u16 6 ≤ 2000 →
    exec (.bldcRaw rq) s = .next (respond rq 0x0E80 Status.ok [] (s.modMotor (rq.u8 0) fun x =>
      { x with rawNext := some (rq.u8 1, rq.u8 2, rq.u8 3, rq.u16 4, rq.u16 6) }))) ∧
  (∀ (m value : Nat) (s : State), 4 ≤ m →
    let x := s.motor m
    let u := s.modMotor m fun x =>
      { x with pinRpm := pinCommand x value, pinAt := s.time,
               pinBadAt := if x.pinValid value then none else some (x.pinBadAt.getD s.time),
               pinOkAt := if x.pinValid value then some (x.pinOkAt.getD s.time) else none }
    exec (.speedPinMeasure m value) s =
      .next (if x.source = 2 ∧ x.pinLost = false then setCommand m (pinCommand x value) u else u)) ∧
  (∀ (m : Nat) (s : State), 4 ≤ m → m < s.bldc.motors.length → (s.motor m).pinLost = false → (s.motor m).pinMode ≠ 2 →
    ((s.motor m).pinMode = 0 → (s.motor m).pinBadAt ≠ none) →
    ∃ t, exec (.speedPinLost m) s = .next t ∧ (t.motor m).pinLost = true ∧
      (t.flt.presented.getLast?.map fun r => (r.source, r.unit)) = some (0x01C5, some m) ∧
      ((s.motor m).source = 2 → (t.motor m).command = openDiv ((s.motor m).failsafe * (s.motor m).maxRpm) 255) ∧
      (∀ k, k ≠ m → t.motor k = s.motor k)) ∧
  (∀ (m : Nat) (s : State), 4 ≤ m → m < s.bldc.motors.length → (s.motor m).pinLost = false → (s.motor m).pinMode = 2 →
    ∃ t, exec (.speedPinLost m) s = .next t ∧ (t.motor m).pinLost = false ∧
      (t.motor m).pinRpm = pinCommand (s.motor m) 0 ∧
      ((s.motor m).source = 2 → (t.motor m).command = pinCommand (s.motor m) 0) ∧ t.flt = s.flt ∧
      (∀ k, k ≠ m → t.motor k = s.motor k)) ∧
  (∀ (m : Nat) (s : State), m < s.bldc.motors.length → (s.motor m).pinLost = true → (s.motor m).pinOkAt.isSome = true →
    ∃ t, exec (.speedPinResume m) s = .next t ∧ (t.motor m).pinLost = false ∧
      ((s.motor m).source = 2 → (t.motor m).command = (s.motor m).pinRpm) ∧ (∀ k, k ≠ m → t.motor k = s.motor k) ∧
      t.flt = s.flt) ∧
  (∀ (m value : Nat) (s : State), m < 4 → exec (.speedPinMeasure m value) s = .next s ∧
    exec (.speedPinLost m) s = .next s)

/-- R364 to R373, R377 to R381: a step drives one phase high and another low; a plausible crossing schedules the next
commutation, which moves to the next step; steps without one count against synchronism; the start goes from LISTEN through
ALIGN or BRAKE to RAMP and RUN; a failed attempt is repeated up to three times; limits and the bus turn the gates. -/
def Obligations.MotorsTurn : Prop :=
  (∀ step phase, phase < 3 →
    ¬((stepGates step).getLsbD (2 * phase) = true ∧ (stepGates step).getLsbD (2 * phase + 1) = true)) ∧
  (∀ (m delta : Nat) (forward : Bool) (s : State), m < s.bldc.motors.length →
    let x := s.motor m
    let s' := s.advanceTo (x.crossAt.toNat + delta)
    x.st = .run → x.crossed = false → plausible s' x delta = true →
    ∃ t, exec (.bemfZeroCross m delta forward) s = .next t ∧
      t.motor m = { x with crossed := true, crossAt := s'.time, deltas := (delta :: x.deltas).take 6,
                           commDue := s'.time + BitVec.ofNat 64 (delta / 2 - delta * x.advance / 60), badRun := 0,
                           goodRun := x.goodRun + 1 } ∧
      (∀ k, k ≠ m → t.motor k = s.motor k) ∧ { t with bldc := s.bldc } = s') ∧
  (∀ (m delta : Nat) (forward : Bool) (s : State), ((s.motor m).st = .stopped ∨ (s.motor m).st = .failed) →
    exec (.bemfZeroCross m delta forward) s = .next s) ∧
  (∀ (m delta : Nat) (forward : Bool) (s : State),
    ((s.motor m).st = .coast ∨ (s.motor m).st = .busBrake ∨ (s.motor m).st = .brake ∨ (s.motor m).st = .listen) →
    let u := s.advanceTo ((s.motor m).crossAt.toNat + delta)
    exec (.bemfZeroCross m delta forward) s = .next (u.modMotor m fun x =>
      { x with crossAt := u.time, deltas := (delta :: x.deltas).take 6 })) ∧
  (∀ (m : Nat) (s : State), ((s.motor m).st ≠ .run → exec (.zeroCrossTimeout m) s = .next s) ∧
    ((s.motor m).st ≠ .ramp → ((s.motor m).st ≠ .run ∨ (s.motor m).crossed = false) →
      exec (.commutation m) s = .next s) ∧
    ((s.motor m).st = .ramp → (s.motor m).rampDue = none → exec (.commutation m) s = .next s)) ∧
  (∀ (m k : Nat) (s : State), m < s.bldc.motors.length → (s.motor m).st = .ramp → (s.motor m).rampDue = some k →
    ∃ t, exec (.commutation m) s = .next t ∧ (t.motor m).step = ((s.motor m).step + 1) % 6 ∧
      (t.motor m).rampSteps = (s.motor m).rampSteps + 1 ∧ (t.motor m).st = .ramp ∧
      (t.motor m).gates = (if motorHeld s m then 0 else stepGates (t.motor m).step) ∧
      (t.motor m).commAt = t.time ∧ (∀ k, k ≠ m → t.motor k = s.motor k) ∧
      { t with bldc := s.bldc } = s.advanceTo ((s.motor m).phaseAt.toNat + k)) ∧
  (∀ (x : Motor) (now : BitVec 64), x.driven = true →
    (x.pwmStopped = true → x.highOff now = false → x.deadNs * 8 ≤ (now - x.gatesAt).toNat * 5 →
      x.gatePins now = x.gates) ∧
    (x.highOff now = true → x.gatePins now &&& highSides = 0)) ∧
  (∀ (m : Nat) (s : State), m < s.bldc.motors.length → (s.motor m).st = .run → (s.motor m).crossed = true →
    ∃ t, exec (.commutation m) s = .next t ∧ (t.motor m).step = ((s.motor m).step + 1) % 6 ∧
      (t.motor m).commutations = (s.motor m).commutations + 1 ∧
      ((t.motor m).step ≠ 0 → (t.motor m).gates = (if motorHeld s m then 0 else stepGates (t.motor m).step) ∧
        (t.motor m).crossed = false ∧ (t.motor m).st = .run) ∧
      ((t.motor m).step = 0 → (t.motor m).duty ≤ (s.motor m).maxDuty) ∧ (∀ k, k ≠ m → t.motor k = s.motor k)) ∧
  (∀ (m : Nat) (s : State), m < s.bldc.motors.length → (s.motor m).st = .run → (s.motor m).crossed = false →
    (s.motor m).badRun + 1 < (s.motor m).lossCount → ((s.motor m).step + 1) % 6 ≠ 0 →
    ∃ t, exec (.zeroCrossTimeout m) s = .next t ∧ (t.motor m).badRun = (s.motor m).badRun + 1 ∧
      (t.motor m).step = ((s.motor m).step + 1) % 6 ∧ (t.motor m).st = .run ∧ t.flt = s.flt) ∧
  (∀ (m : Nat) (s : State), m < s.bldc.motors.length →
    ((s.motor m).st = .coast → ∃ t, exec (.coastStandstill m) s = .next t ∧ (t.motor m).st = .stopped ∧
      (∀ k, k ≠ m → t.motor k = s.motor k) ∧
      { t with bldc := s.bldc } = s.advanceTo ((s.motor m).crossAt.toNat + 50 * ticksPerMs)) ∧
    ((s.motor m).st = .busBrake → ∃ t, exec (.busBrakeStandstill m) s = .next t ∧ (t.motor m).st = .stopped ∧
      (t.motor m).gates = 0 ∧ (∀ k, k ≠ m → t.motor k = s.motor k) ∧ { t with bldc := s.bldc } = s)) ∧
  (∀ (m crossings delta : Nat) (forward : Bool) (s : State), m < s.bldc.motors.length → s.coreUp motorCore = true →
    (s.motor m).st = .listen →
    let fast := (s.motor m).catches (rpmOf (s.motor m).poles 1 delta)
    ∃ t, exec (.listenEnd m crossings forward delta) s = .next t ∧ (∀ k, k ≠ m → t.motor k = s.motor k) ∧
      (motorHeld s m = true → (t.motor m).gates = 0) ∧
      (crossings < 7 → (t.motor m).st = .align ∧ (motorHeld s m = false → (t.motor m).gates = stepGates 0) ∧
        (t.motor m).duty = (s.motor m).alignDuty) ∧
      (7 ≤ crossings → forward = true → fast = true → (t.motor m).st = .run ∧ (t.motor m).caught = true) ∧
      (7 ≤ crossings → (forward = false ∨ fast = false) → (t.motor m).st = .brake ∧
        (motorHeld s m = false → (t.motor m).gates = lowSides))) ∧
  (∀ (m crossings : Nat) (s : State), m < s.bldc.motors.length → s.coreUp motorCore = true → (s.motor m).st = .brake →
    ∃ t, exec (.brakeListen m crossings) s = .next t ∧
      { t with bldc := s.bldc } = s.advanceTo ((s.motor m).listenAt.toNat + 60 * ticksPerMs) ∧
      (crossings < 2 → (t.motor m).st = .align) ∧
      (2 ≤ crossings → (t.motor m).st = .brake ∧ (t.motor m).gates = if motorHeld s m then 0 else lowSides)) ∧
  (∀ (m : Nat) (s : State), m < s.bldc.motors.length → s.coreUp motorCore = true → (s.motor m).st = .align →
    ∃ t, exec (.alignEnd m) s = .next t ∧ (t.motor m).st = .ramp ∧ (t.motor m).goodRun = 0 ∧
      (∀ k, k ≠ m → t.motor k = s.motor k) ∧
      { t with bldc := s.bldc } = s.advanceTo ((s.motor m).phaseAt.toNat + (s.motor m).alignMs * ticksPerMs)) ∧
  (∀ (m : Nat) (s : State), m < s.bldc.motors.length → s.coreUp motorCore = true → (s.motor m).retries < 3 →
    ((s.motor m).st = .ramp → ∃ t, exec (.rampTimeout m) s = .next t ∧ (t.motor m).st = .listen ∧ (t.motor m).gates = 0 ∧
      (t.motor m).retries = (s.motor m).retries + 1 ∧ (t.motor m).cause = 1 ∧
      { t with bldc := s.bldc } = s.advanceTo ((s.motor m).phaseAt.toNat + (s.motor m).rampMs * ticksPerMs)) ∧
    ((s.motor m).st = .brake → ∃ t, exec (.brakeTimeout m) s = .next t ∧ (t.motor m).st = .listen ∧
      (t.motor m).gates = 0 ∧ (t.motor m).retries = (s.motor m).retries + 1 ∧ (t.motor m).cause = 4 ∧
      { t with bldc := s.bldc } = s.advanceTo ((s.motor m).phaseAt.toNat + (s.motor m).brakeMs * ticksPerMs))) ∧
  (∀ (m : Nat) (s : State), m < s.bldc.motors.length → s.coreUp motorCore = true → 3 ≤ (s.motor m).retries →
    (s.motor m).st = .ramp →
    ∃ t, exec (.rampTimeout m) s = .next t ∧ (t.motor m).st = .failed ∧ (t.motor m).gates = 0 ∧
      (t.flt.presented.getLast?.map fun r => (r.source, r.unit)) = some (0x01C0, some m)) ∧
  (∀ (m mv : Nat) (s : State), m < s.bldc.motors.length →
    let x := s.motor m
    (x.driven = true → x.iDrive < mv → x.highOff s.time = false →
      ∃ t, exec (.driveCurrentLimit ⟨m, mv⟩) s = .next t ∧
        t.motor m = { x with limitAt := some s.time, limitedPeriods := x.limitedPeriods + 1 } ∧
        (∀ k, k ≠ m → t.motor k = s.motor k) ∧ { t with bldc := s.bldc } = s) ∧
    ((x.driven = false ∨ mv ≤ x.iDrive ∨ x.highOff s.time = true) → exec (.driveCurrentLimit ⟨m, mv⟩) s = .next s)) ∧
  (∀ (m : Nat) (s : State), m < s.bldc.motors.length →
    let x := s.motor m
    let u := s.advanceTo (x.windowAt.toNat + 100 * ticksPerMs)
    (2 * x.limitedPeriods ≤ x.pwmKhz * 100 → exec (.overcurrentWindow m) s =
      .next (u.modMotor m fun x => { x with limitedPeriods := 0, windowAt := u.time })) ∧
    (x.pwmKhz * 100 < 2 * x.limitedPeriods → x.driven = true →
      ∃ t, exec (.overcurrentWindow m) s = .next t ∧ (t.motor m).st = .coast ∧ (t.motor m).gates = 0 ∧
        (t.flt.presented.getLast?.map fun r => (r.source, r.unit)) = some (0x01C6, some m))) ∧
  (∀ (g code : Nat) (feedback : Bool) (s : State), (s.bus g).configured = false →
    exec (.busVoltageSample g code) s = .next s ∧ exec (.chopperFailTimeout ⟨g, feedback⟩) s = .next s) ∧
  (∀ (g code : Nat) (s : State), (s.bus g).configured = true →
    let v := openDiv (code * (s.bus g).fullScale) 4095
    v < (s.bus g).ovLimit → v < (s.bus g).absLimit →
    exec (.busVoltageSample g code) s = .next (s.modBus g fun b =>
      { b with volts := v, chopper := if b.chopOn ≤ v then true else if v ≤ b.chopOff then false else b.chopper,
               chopAt := if b.chopOn ≤ v && !b.chopper then s.time else b.chopAt })) ∧
  (∀ (g code m : Nat) (feedback : Bool) (s : State), s.bldc.motors.length = 8 → g < s.bldc.buses.length →
    (s.bus g).configured = true → m < 8 → (s.bus g).motors.getLsbD m = true → (s.motor m).st ≠ .stopped →
    (s.motor m).st ≠ .busBrake →
    ((s.bus g).ovLimit ≤ openDiv (code * (s.bus g).fullScale) 4095 →
      ∃ t, exec (.busVoltageSample g code) s = .next t ∧ (t.motor m).st = .busBrake ∧
        (t.motor m).gates = (if motorHeld s m then 0 else lowSides) ∧ (t.bus g).latched = true) ∧
    ((feedback = true ∨ (s.bus g).chopper = true) →
      ∃ t, exec (.chopperFailTimeout ⟨g, feedback⟩) s = .next t ∧ (t.motor m).st = .busBrake ∧
        (t.motor m).gates = (if motorHeld s m then 0 else lowSides) ∧ (t.bus g).latched = true)) ∧
  (∀ (m mv : Nat) (s : State), m < s.bldc.motors.length → ((s.motor m).st = .busBrake ∨ (s.motor m).st = .brake) →
    let i := (busOf s m).iBrake
    let free := fenced s 0x01C6 m = false ∧ s.flt.fatal = none
    (i < mv → exec (.brakeCurrentLimit m mv) s = .next (s.modMotor m fun x => { x with gates := 0 })) ∧
    (5 * mv < 4 * i → free → exec (.brakeCurrentLimit m mv) s = .next (setGates m lowSides s)) ∧
    (mv ≤ i → (4 * i ≤ 5 * mv ∨ ¬free) → exec (.brakeCurrentLimit m mv) s = .next s)) ∧
  (∀ (m : Nat) (g : BitVec 6) (s : State), m < s.bldc.motors.length →
    (setGates m g s).motor m = { s.motor m with gatesBefore := (s.motor m).gates, gatesAt := s.time,
                                                gates := if motorHeld s m then 0 else g })

/-! ### Stepper axes (spec/16_motion.md) -/

/-- R384 to R395 and the commands of group 0x0F: an axis takes its configuration while it does not move; a move from rest
starts at once; the end of a move adds its length to the position and starts the next; a stop of an axis at rest halts it;
a debounced limit that becomes active toward the motion stops the axis and is counted; the position is set. -/
def Obligations.AxesMove : Prop :=
  (∀ (rq : Req) (s : State), served 0x0F01 rq s = true →
    let a := rq.u8 0
    a < 16 → rq.u8 1 ≤ 1 → 1 ≤ rq.u32 4 → rq.u32 4 ≤ 100000 → rq.u32 4 ≤ rq.u32 8 → rq.u32 8 ≤ 4000000 → 1 ≤ rq.u32 16 →
    100 ≤ rq.u16 24 → rq.u16 24 ≤ 10000 → 2 * rq.u16 24 * rq.u32 8 ≤ 10 ^ 9 → 100 ≤ rq.u16 26 → rq.u16 26 ≤ 10000 →
    rq.u8 28 % 4 ≠ 3 → rq.u8 29 % 4 ≠ 3 → 1 ≤ rq.u16 30 → rq.u16 30 ≤ 10000 →
    ((s.axis a).st = .idle ∨ (s.axis a).st = .halted) →
    exec (.motionAxisConfig rq) s = .next (respond rq 0x0F01 Status.ok [] (s.modAxis a fun x =>
      { x with configured := true, sCurve := rq.u8 1 = 1, dirInvert := rq.bit 2 0, enLow := rq.bit 2 1, vStart := rq.u32 4,
               vMax := rq.u32 8, accel := rq.u32 12, dStop := rq.u32 16, jerk := rq.u32 20, stepNs := rq.u16 24,
               dirSetupNs := rq.u16 26, limNeg := x.limNeg.config (rq.u8 28), limPos := x.limPos.config (rq.u8 29),
               debounce := rq.u16 30, rawNext := none }))) ∧
  (∀ (rq : Req) (s : State), served 0x0F02 rq s = true → s.motion.length = 16 →
    let a := rq.u8 0
    let x := s.axis a
    a < 16 → x.configured = true → (rq.u32 4 = 0 → x.vStart ≤ x.vMax) →
    (rq.u32 4 ≠ 0 → x.vStart ≤ rq.u32 4 ∧ rq.u32 4 ≤ x.vMax) → x.queue = [] → x.st = .idle →
    (x.limPos.active = false ∨ x.limPos.mode = 0) → (x.limNeg.active = false ∨ x.limNeg.mode = 0) →
    ∃ t m, exec (.motionMove rq) s = .next (respond rq 0x0F02 Status.ok [1, 0, 0, 0] t) ∧ (t.axis a).queue = [m] ∧
      (t.axis a).st = .moving ∧ (t.axis a).base = x.base ∧
      (let d := if rq.bit 1 0 then asSigned 64 (rq.u64 16) else asSigned 64 (rq.u64 16) - x.base.toInt
       m.length = d.natAbs ∧ m.pos = decide (0 ≤ d)) ∧ m.vMax = (if rq.u32 4 = 0 then x.vMax else rq.u32 4) ∧
      m.tag = BitVec.ofNat 32 (rq.u32 24) ∧ (∀ k, k ≠ a → t.axis k = s.axis k) ∧ { t with motion := s.motion } = s) ∧
  (∀ (rq : Req) (s : State), served 0x0F02 rq s = true → rq.u8 0 < 16 → (s.axis (rq.u8 0)).configured = true →
    (s.axis (rq.u8 0)).vStart ≤ (s.axis (rq.u8 0)).vMax → rq.u32 4 = 0 → (s.axis (rq.u8 0)).queue.length < 32 →
    (s.axis (rq.u8 0)).st = .halted → exec (.motionMove rq) s = .next (respond rq 0x0F02 0x8F01 [] s)) ∧
  (∀ (a : Nat) (m : Move) (rest : List Move) (s : State), a < s.motion.length → (s.axis a).st = .moving →
    (s.axis a).queue = m :: rest → s.forge.recoat = none →
    (∀ p, ((s.axis a).limit p).mode = 0 ∨ ((s.axis a).limit p).active = false) →
    ∃ t, exec (.moveComplete a) s = .next t ∧ (t.axis a).queue = rest ∧
      (t.axis a).base = (s.axis a).base + BitVec.ofInt 64 (if m.pos then (m.length : Int) else -(m.length : Int)) ∧
      (t.axis a).pulses = (s.axis a).pulses + BitVec.ofNat 64 m.length ∧
      (t.axis a).st = (if rest = [] then .idle else .moving) ∧ (∀ k, k ≠ a → t.axis k = s.axis k) ∧
      (m.notify = false → t.mci = s.mci)) ∧
  (∀ (a : Nat) (s : State), (s.axis a).st ≠ .moving → exec (.moveComplete a) s = .next s) ∧
  (∀ (a pulses : Nat) (s : State), (s.axis a).st ≠ .stopping → exec (.stopRampEnd a pulses) s = .next s) ∧
  (∀ (a pulses : Nat) (s : State), a < s.motion.length → (s.axis a).st = .stopping →
    let x := s.axis a
    let u := s.advanceTo (x.seg.start.toNat + x.stopTicks)
    let n := wholeSteps (x.travel u.time)
    ∃ t, exec (.stopRampEnd a pulses) s = .next t ∧ (t.axis a).st = .halted ∧
      (t.axis a).pulses = x.pulses + BitVec.ofNat 64 n.natAbs ∧ (t.axis a).base = x.base + BitVec.ofInt 64 n ∧
      (∀ k, k ≠ a → t.axis k = s.axis k) ∧ { t with motion := s.motion } = u) ∧
  (∀ (a : Nat) (level : Bool) (s : State),
    exec (.limitInputEdge a true level) s = .next (s.modAxis a fun x =>
      { x with limPos := { x.limPos with level := level, waiting := level ≠ x.limPos.st,
                                         since := if level ≠ x.limPos.level then s.time else x.limPos.since } }) ∧
    exec (.limitInputEdge a false level) s = .next (s.modAxis a fun x =>
      { x with limNeg := { x.limNeg with level := level, waiting := level ≠ x.limNeg.st,
                                         since := if level ≠ x.limNeg.level then s.time else x.limNeg.since } })) ∧
  (∀ (a : Nat) (s : State), (s.axis a).limPos.waiting = false → exec (.limitDebounceExpiry a true) s = .next s) ∧
  (∀ (a : Nat) (s : State), (s.axis a).limNeg.waiting = false → exec (.limitDebounceExpiry a false) s = .next s) ∧
  (∀ (a : Nat) (m : Move) (rest : List Move) (s : State), a < s.motion.length → (s.axis a).limPos.waiting = true →
    (s.axis a).limPos.level ≠ (s.axis a).limPos.activeLow → (s.axis a).limPos.mode = 1 → (s.axis a).st = .moving →
    (s.axis a).queue = m :: rest → m.pos = true → s.forge.recoat = none →
    ∃ t, exec (.limitDebounceExpiry a true) s = .next t ∧ (t.axis a).st = .halted ∧ (t.axis a).cause = 3 ∧
      (t.axis a).queue = [] ∧ (t.axis a).limitStops = (s.axis a).limitStops.inc ∧
      (t.flt.presented.getLast?.map fun r => (r.source, r.unit)) = some (0x01E0, some a)) ∧
  (∀ (rq : Req) (s : State), served 0x0F03 rq s = true → s.motion.length = 16 → rq.u16 0 = 0 → rq.u8 2 ≤ 1 →
    (∀ a, a < 16 → (s.axis a).st = .idle) →
    (∀ a, a < 16 → pacing s a = false) → s.forge.recoat = none →
    ∃ t, exec (.motionStop rq) s = .next (respond rq 0x0F03 Status.ok (zeros 4) t) ∧
      (∀ a, a < 16 → (t.axis a).st = .halted ∧ (t.axis a).base = (s.axis a).base) ∧ { t with motion := s.motion } = s) ∧
  (∀ (rq : Req) (s : State), served 0x0F04 rq s = true → rq.u8 0 < 16 → (s.axis (rq.u8 0)).st ≠ .moving →
    (s.axis (rq.u8 0)).st ≠ .stopping →
    (rq.bit 1 0 = false ∨ (s.axis (rq.u8 0)).posLost = false) → pacing s (rq.u8 0) = false →
    exec (.motionPositionSet rq) s = .next (respond rq 0x0F04 Status.ok [] (s.modAxis (rq.u8 0) fun x =>
      { x with st := .idle, posLost := false,
               base := if rq.bit 1 0 then (s.axis (rq.u8 0)).base else BitVec.ofNat 64 (rq.u64 8) }))) ∧
  (∀ (rq : Req) (s : State), served 0x0F05 rq s = true → rq.u8 0 < 16 →
    ((s.axis (rq.u8 0)).st = .idle ∨ (s.axis (rq.u8 0)).st = .halted) →
    ∃ p, exec (.motionStatus rq) s = .next (respond rq 0x0F05 Status.ok p s) ∧ p.length = 36 ∧
      leAt p 0 1 = (s.axis (rq.u8 0)).st.num ∧ leAt p 4 4 = 0 ∧ leAt p 8 8 = (s.axis (rq.u8 0)).base.toNat ∧
      leAt p 16 8 = (s.axis (rq.u8 0)).pulses.toNat ∧ leAt p 28 4 = (s.axis (rq.u8 0)).limitStops.n) ∧
  (∀ (rq : Req) (s : State), served 0x0F80 rq s = true → rq.u8 0 < 16 → 50 ≤ rq.u16 2 → rq.u16 2 ≤ 10000 → 1 ≤ rq.u32 4 →
    rq.u32 4 ≤ 1000000 →
    2 * rq.u16 2 * (s.axis (rq.u8 0)).vMax ≤ 10 ^ 9 → (s.axis (rq.u8 0)).configured = true →
    exec (.motionAxisRaw rq) s = .next (respond rq 0x0F80 Status.ok []
      (s.modAxis (rq.u8 0) fun x => { x with rawNext := some (rq.u16 2, rq.u32 4) })))

/-! ### Clocks (spec/17_clocks.md) -/

/-- R34, R398 to R408 and the commands of group 0x10: a lost reference gates every lane; an unlocked loop leaves the lock
monitor, a synthesiser's with its unlock counted; a loop is declared locked when LOCKSENSE has stayed high; a low LOCKSENSE
gates every link until it recovers; a configuration gates its station's links and waits for the lock; a profile with a good
CRC and range waits for its moment. -/
def Obligations.ClocksAreWatched : Prop :=
  (∀ s : State, s.links.length = 24 →
    ∃ t, exec .referenceEdgeTimeout s = .next t ∧ t.clk.sysGate = true ∧
      (∀ l, l < s.nLinks → (t.link l).causes.getLsbD 5 = true) ∧
      (t.flt.presented.getLast?.map fun r => (r.source, r.unit)) = some (0x0200, none)) ∧
  (∀ (hz : Nat) (s : State),
    (49750000 ≤ hz → hz ≤ 50250000 → exec (.referenceFrequencyCheck hz) s = .next s) ∧
    ((hz < 49750000 ∨ 50250000 < hz) →
      ∃ t, exec .referenceEdgeTimeout s = .next t ∧ exec (.referenceFrequencyCheck hz) s = .next t)) ∧
  (∀ (loop : Nat) (s : State), 7 ≤ loop → exec (.pllFastUnlock loop) s = .next s ∧
    exec (.lockMonitorInclusion loop) s = .next s ∧ exec (.lockDeclare loop) s = .next s) ∧
  (∀ (loop : Nat) (s : State), s.links.length = 24 → loop < 2 →
    ∃ t, exec (.pllFastUnlock loop) s = .next t ∧ t.clk.locked.getLsbD loop = false ∧
      (∀ l, l < s.nLinks → (t.link l).causes.getLsbD 5 = true) ∧
      (t.flt.presented.getLast?.map fun r => (r.source, r.unit)) = some (0x0201, some loop)) ∧
  (∀ s : State, ∃ t, exec (.pllFastUnlock 2) s = .next t ∧ t.dram.stopped = true ∧ t.clk.locked.getLsbD 2 = false ∧
    t.clk.included.getLsbD 2 = false ∧ t.links = s.links ∧
    (t.flt.presented.getLast?.map fun r => (r.source, r.unit)) = some (0x0201, some 2)) ∧
  (∀ (i : Nat) (s : State), s.links.length = 24 → s.clk.synths.length = 4 → i < 4 → (s.synth i).enabled = true →
    ∃ t, exec (.pllFastUnlock (3 + i)) s = .next t ∧ t.clk.locked.getLsbD (3 + i) = false ∧
      t.clk.included.getLsbD (3 + i) = false ∧ (t.synth i).unlocks = (s.synth i).unlocks.inc ∧
      (∀ l ∈ (s.station i).links, l < s.nLinks → (t.link l).causes.getLsbD 5 = true) ∧
      (t.flt.presented.getLast?.map fun r => (r.source, r.unit)) = some (0x0202, some i)) ∧
  (∀ (loop : Nat) (s : State), loop < 7 → (loop < 3 ∨ (s.synth (loop - 3)).enabled = true) →
    exec (.lockMonitorInclusion loop) s = .next { s with clk := { s.clk with
      included := s.clk.included ||| (1#7 <<< loop), includedAt := modAt s.clk.includedAt loop fun _ => s.time } }) ∧
  (∀ (loop : Nat) (s : State), mayDeclare s loop = false → exec (.lockDeclare loop) s = .next s) ∧
  (∀ (loop : Nat) (s : State), s.clk.synths.length = 4 → loop < 7 → mayDeclare s loop = true →
    let since := max (at' s.clk.includedAt loop 0).toNat (s.clk.aboveAt.getD 0).toNat
    ∃ t, exec (.lockDeclare loop) s = .next t ∧ t.time = (s.advanceTo (since + 2 * ticksPerMs)).time ∧
      t.clk.locked = s.clk.locked ||| (1#7 <<< loop) ∧
      (loop < 3 → t.links = s.links) ∧
      (3 ≤ loop → t.clk.synthGate.getLsbD (loop - 3) = false ∧ (t.synth (loop - 3)).ctx = [])) ∧
  (∀ (mv : Nat) (s : State), s.links.length = 24 → mv < 1080 → s.clk.senseLow = false →
    ∃ t, exec (.locksenseLow mv) s = .next t ∧ t.clk.senseGate = true ∧ t.clk.senseLow = true ∧ t.clk.senseMv = mv ∧
      (∀ l, l < s.nLinks → (t.link l).causes.getLsbD 5 = true) ∧
      (t.flt.presented.getLast?.map fun r => (r.source, r.unit)) = some (0x0203, none)) ∧
  (∀ (mv : Nat) (s : State), (1080 ≤ mv ∨ s.clk.senseLow = true) →
    exec (.locksenseLow mv) s = .next { s with clk := { s.clk with
      senseMv := mv, senseLow := s.clk.senseLow && mv < 1080,
      aboveAt := if 1350 < mv then some (s.clk.aboveAt.getD s.time) else none } }) ∧
  (∀ (mv : Nat) (s : State), s.links.length = 24 → 1350 < mv → s.clk.included &&& ~~~s.clk.locked = 0 →
    s.clk.sysGate = false → s.clk.synthGate = 0 →
    ∃ t, exec (.locksenseRecover mv) s = .next t ∧ t.clk.senseGate = false ∧
      (∀ l, l < s.nLinks → t.link l = { s.link l with causes := (s.link l).causes &&& ~~~0x20#7 }) ∧
      { t with links := s.links, clk := s.clk } = s) ∧
  (∀ (mv : Nat) (s : State), mv ≤ 1350 →
    exec (.locksenseRecover mv) s = .next { s with clk := { s.clk with
      senseMv := mv, senseLow := s.clk.senseLow && mv < 1080, aboveAt := none } }) ∧
  (∀ (mv : Nat) (toggling : Bool) (s : State),
    let bad := mv < 50 || toggling
    let s' := { s with clk := { s.clk with
      senseMv := mv, senseLow := s.clk.senseLow && mv < 1080, pathBad := bad,
      aboveAt := if 1350 < mv then some (s.clk.aboveAt.getD s.time) else none } }
    exec (.locksensePlausibilityCheck mv toggling) s =
      .next (if bad && !s.clk.pathBad then present 0x0204 none 0 s' else s')) ∧
  (∀ (i : Nat) (since : BitVec 64) (c : Ctx) (rest : List (BitVec 64 × Ctx)) (s : State),
    ((s.synth i).ctx = [] → exec (.synthLockTimeout i) s = .next s) ∧
    ((s.synth i).ctx = (since, c) :: rest → exec (.synthLockTimeout i) s =
      .next (complete c Status.failed []
        ((s.advanceTo (since.toNat + 5 * ticksPerMs)).modSynth i fun x => { x with ctx := rest })))) ∧
  (∀ (i : Nat) (c : Ctx) (address : Nat) (crc : BitVec 32) (rest : List (Ctx × Nat × BitVec 32)) (host b : List Byte)
    (s : State), i < s.clk.synths.length → (s.synth i).loads = (c, address, crc) :: rest →
    let u := coreRead hostCore address 2048 s
    u.coreUp hostCore = true → u.tableOr address 2048 host = some b →
    (crc32c b = crc → rampOk (s.synth i).freq (rampOf b) = true → exec (.clockSynthProfileLoaded i host) s =
      .next (complete c Status.ok [] (u.modSynth i fun x => { x with loads := rest, rampNext := some (rampOf b) }))) ∧
    ((crc32c b ≠ crc ∨ rampOk (s.synth i).freq (rampOf b) = false) → exec (.clockSynthProfileLoaded i host) s =
      .next (complete c Status.failed [] (u.modSynth i fun x => { x with loads := rest })))) ∧
  (∀ (i span : Nat) (s : State),
    let x := s.synth i
    let off := ((span : Int) - linePitch x (s.station i).pixels).natAbs
    ((s.clk.locked.getLsbD (i + 3) = false ∨ off ≤ x.phaseTol * 65536) →
      exec (.linePhaseCheck i span) s = .next s) ∧
    (s.clk.locked.getLsbD (i + 3) = true → x.phaseTol * 65536 < off →
      let s' := s.modSynth i fun x => { x with phaseErrors := x.phaseErrors.inc, raised := true }
      (x.raised = false → exec (.linePhaseCheck i span) s = .next (present 0x0205 (some i) 0 s')) ∧
      (x.raised = true → exec (.linePhaseCheck i span) s = .next s'))) ∧
  (∀ (rq : Req) (s : State), served 0x1001 rq s = true → s.links.length = 24 → s.clk.synths.length = 4 →
    let i := rq.u8 0
    let freq := if rq.u32 4 = 0 then freqOfClock (s.station i).clockKhz else rq.u32 4
    i < 4 → rq.u8 1 ≤ 1 → 10 ≤ rq.u16 8 → (rq.u32 4 = 0 → (s.station i).configured = true) → freqOk freq = true →
    pageActive s i = false →
    ∃ t, exec (.clockSynthConfig rq) s = .next t ∧ (t.synth i).enabled = (rq.u8 1 = 1) ∧ (t.synth i).freq = freq ∧
      (t.synth i).phaseTol = rq.u16 8 ∧ t.clk.locked.getLsbD (3 + i) = false ∧
      (rq.u8 1 = 1 → (t.synth i).ctx = (s.synth i).ctx ++ [(s.time, rq.ctx s 0x1001)]) ∧
      (∀ l ∈ (s.station i).links, l < s.nLinks → (t.link l).causes.getLsbD 5 = true)) ∧
  (∀ (rq : Req) (b : List Byte) (s : State),
    let u := tableRead 0x1002 rq (rq.u64 4) 2048 s
    served 0x1002 rq u = true → rq.u8 0 < 4 → u.table (rq.u64 4) 2048 = some b →
    (crc32c b = BitVec.ofNat 32 (rq.u32 12) → rampOk (u.synth (rq.u8 0)).freq (rampOf b) = true →
      exec (.clockSynthProfile rq) s = .next (accept rq 0x1002 [] (u.modSynth (rq.u8 0) fun x =>
        { x with loads := x.loads ++ [(rq.ctx u 0x1002, rq.u64 4, BitVec.ofNat 32 (rq.u32 12))] }))) ∧
    (crc32c b ≠ BitVec.ofNat 32 (rq.u32 12) → exec (.clockSynthProfile rq) s = .next (respond rq 0x1002 0x9001 [] u))) ∧
  (∀ (rq : Req) (s : State), served 0x1003 rq s = true → s.clk.synths.length = 4 →
    ∃ p, exec (.clockStatus rq) s = .next (respond rq 0x1003 Status.ok p s) ∧ p.length = 40 ∧
      leAt p 1 1 = s.clk.locked.toNat ∧ leAt p 2 1 = s.clk.included.toNat ∧
      (∀ i, i < 4 → leAt p (8 + 4 * i) 4 = (s.synth i).unlocks.n ∧ leAt p (24 + 4 * i) 4 = (s.synth i).phaseErrors.n)) ∧
  (∀ (rq : Req) (s : State), served 0x1080 rq s = true → rq.u8 0 < 4 → rq.u8 1 ≤ 7 → rq.u8 2 ≤ 15 →
    pageActive s (rq.u8 0) = false →
    exec (.clockSynthRaw rq) s = .next (respond rq 0x1080 Status.ok []
      (s.modSynth (rq.u8 0) fun x => { x with rawNext := some (rq.u8 1, rq.u8 2) })))

/-! ### Temperatures (spec/18_thermal.md) -/

/-- R411 to R422 and the commands of group 0x11: a sensor takes its reading, a broken one reads +255.00 °C; a unit whose
temperature reaches TRIP latches its trip and gates its lanes with cause 4; a new configuration waits for the next reading of a
sensor it names; the throttle steps down and up by one; the
proportional factor lies between 512 and 1,024; a thermistor follows its table. -/
def Obligations.TemperaturesAreJudged : Prop :=
  (∀ (i : Nat) (v : Int) (s : State), s.therm.sensors.length = 72 → i < 16 → (s.sensor i).forced = none →
    ∃ t, exec (.sensorReading i v) s = .next t ∧ (t.sensor i).value = v ∧ (t.sensor i).broken = decide (1020 ≤ v) ∧
      (∀ k, k ≠ i → t.sensor k = s.sensor k) ∧ t.time = s.time) ∧
  (∀ (i : Nat) (v : Int) (s : State), 72 ≤ i → exec (.sensorReading i v) s = .next s) ∧
  (∀ (i u : Nat) (v : Int) (s : State), s.therm.sensors.length = 72 → s.therm.units.length = 40 → s.links.length = 24 →
    i < 16 → (s.sensor i).forced = none → u < 40 → (s.unit u).configured = true → (s.unit u).waiting = none →
    i ∈ (s.unit u).sensors → (s.unit u).tripped = false → (s.unit u).trip ≤ v → v < 1020 →
    ∃ t, exec (.sensorReading i v) s = .next t ∧ (t.unit u).tripped = true ∧
      (t.unit u).trips = (s.unit u).trips.inc ∧
      (∀ l ∈ unitLinks s u, l < s.nLinks → (t.link l).causes.getLsbD 4 = true)) ∧
  (∀ (i : Nat) (s : State), s.therm.sensors.length = 72 → (s.sensor i).forced = none →
    (i < 16 → ∃ t, exec (.sensorConversionTimeout i) s = .next t ∧ (t.sensor i).broken = true ∧
      (t.sensor i).read = 1020) ∧
    (16 ≤ i → exec (.sensorConversionTimeout i) s = .next s) ∧
    (16 ≤ i → i < 40 → sensorAbsent s i = false → ∃ t, exec (.remoteReadingStale i) s = .next t ∧
      (t.sensor i).broken = true ∧ (t.sensor i).read = 1020) ∧
    ((i < 16 ∨ 40 ≤ i ∨ sensorAbsent s i = true) → exec (.remoteReadingStale i) s = .next s)) ∧
  (∀ (i u : Nat) (v : Int) (s : State), s.therm.sensors.length = 72 → s.therm.units.length = 40 →
    i < 16 → (s.sensor i).forced = none → u < 40 → (s.unit u).configured = true → (s.unit u).waiting = none →
    (s.unit u).sensors = [i] → v < 1020 → (∀ k, k < 4 → pageActive s k = false) → layerActive s = false →
    ∃ t, exec (.sensorReading i v) s = .next t ∧
      (t.unit u).hotFrom = (if (s.unit u).throttle ≤ v then some ((s.unit u).hotFrom.getD s.time) else none) ∧
      (t.unit u).coolFrom =
        (if v < (s.unit u).throttle - (s.unit u).hyst then some ((s.unit u).coolFrom.getD s.time) else none) ∧
      (t.unit u).prop = propFactor (s.unit u).k (s.unit u).throttle v ∧ (t.unit u).step = (s.unit u).step) ∧
  (∀ (i u : Nat) (v : Int) (c : UnitConfig) (s : State), s.therm.sensors.length = 72 → s.therm.units.length = 40 →
    i < 16 → (s.sensor i).forced = none → u < 40 → (s.unit u).waiting = some c → i ∈ c.sensors →
    ∃ t, exec (.sensorReading i v) s = .next t ∧ (t.unit u).waiting = none ∧ (t.unit u).configured = true ∧
      (t.unit u).sensors = c.sensors ∧ (t.unit u).nMin = c.nMin ∧ (t.unit u).k = c.k ∧ (t.unit u).warn = c.warn ∧
      (t.unit u).throttle = c.throttle ∧ (t.unit u).trip = c.trip ∧ (t.unit u).hyst = c.hyst ∧ (t.unit u).rate = c.rate) ∧
  (∀ (u : Nat) (since : BitVec 64) (s : State), u < s.therm.units.length → (s.unit u).configured = true →
    privileged s u = false →
    let down := since + BitVec.ofNat 64 (10 * ticksPerMs)
    let up := since + BitVec.ofNat 64 (100 * ticksPerMs)
    ((s.unit u).hotFrom = some since → (s.unit u).nMin < (s.unit u).step →
      ∃ t, exec (.throttleStepDown u) s = .next t ∧ t.time = (s.advanceTo down.toNat).time ∧
        (t.unit u).step = (s.unit u).step - 1 ∧ (t.unit u).hotFrom = some down) ∧
    ((s.unit u).coolFrom = some since → (s.unit u).step < 16 →
      ∃ t, exec (.throttleStepUp u) s = .next t ∧ t.time = (s.advanceTo up.toNat).time ∧
        (t.unit u).step = (s.unit u).step + 1 ∧ (t.unit u).coolFrom = some up)) ∧
  (∀ (u : Nat) (s : State),
    (((s.unit u).hotFrom = none ∨ (s.unit u).step ≤ (s.unit u).nMin ∨ (s.unit u).configured = false ∨
      privileged s u = true) → exec (.throttleStepDown u) s = .next s) ∧
    (((s.unit u).coolFrom = none ∨ 16 ≤ (s.unit u).step ∨ (s.unit u).configured = false ∨ privileged s u = true) →
      exec (.throttleStepUp u) s = .next s)) ∧
  (∀ (k : Nat) (throttle temp : Int), 512 ≤ propFactor k throttle temp ∧ propFactor k throttle temp ≤ 1024 ∧
    (temp ≤ throttle → propFactor k throttle temp = 1024)) ∧
  (∀ (x : Thermistor) (k : Nat), k ≤ 31 → thermistorTemp x (128 * k) = at' x.table k 0) ∧
  (∀ (rq : Req) (s : State), served 0x1101 rq s = true →
    let u := rq.u8 0
    let sensors := if u = 0 then List.range 16
      else (((List.range 8).map fun k => rq.u8 (4 + k)).take (rq.u8 1)).filter (· ≠ 0xFF)
    unitExists s u = true → rq.u8 1 ≤ 8 → 1 ≤ rq.u8 2 → rq.u8 2 ≤ 16 → rq.i16 12 < rq.i16 14 → rq.i16 14 < rq.i16 16 →
    (∀ i ∈ sensors, (u ≠ 0 → 16 ≤ i) ∧ i < 72) →
    (u = 0 → ∀ k, k < rq.u8 1 → rq.u8 (4 + k) < 16 ∨ rq.u8 (4 + k) = 0xFF) → (u = 0 → rq.i16 16 ≤ 520) → 4 ≤ rq.u8 18 →
      rq.u8 18 ≤ 80 →
    10 ≤ rq.u16 20 → rq.u16 20 ≤ 5000 → privileged s u = false →
    exec (.thermalUnitConfig rq) s = .next (respond rq 0x1101 Status.ok [] (s.modUnit u fun x =>
      { x with waiting := some
                 { sensors := sensors, nMin := rq.u8 2, k := rq.u8 3, warn := rq.i16 12, throttle := rq.i16 14,
                   trip := rq.i16 16, hyst := rq.u8 18, rate := rq.u16 20 } }))) ∧
  (∀ (rq : Req) (s : State), served 0x1102 rq s = true → rq.u8 0 < 32 → rq.u16 2 ≤ rq.u16 4 → rq.u16 4 ≤ 4095 →
    exec (.thermalThermistorConfig rq) s = .next (respond rq 0x1102 Status.ok []
      { s with therm := { s.therm with thermistors := modAt s.therm.thermistors (rq.u8 0) fun _ =>
        { openMin := rq.u16 2, shortMax := rq.u16 4, table := (List.range 33).map fun i => rq.i16 (8 + 2 * i) } } })) ∧
  (∀ (rq : Req) (s : State), served 0x1103 rq s = true → unitExists s (rq.u8 0) = true →
    ∃ p, exec (.thermalStatus rq) s = .next (respond rq 0x1103 Status.ok p s) ∧ p.length = 16 ∧
      leAt p 8 4 = (s.unit (rq.u8 0)).throttleMs.n ∧ leAt p 12 4 = (s.unit (rq.u8 0)).trips.n) ∧
  (∀ (rq : Req) (s : State), served 0x1180 rq s = true → rq.u8 0 < 72 → (∀ i, i < 4 → pageActive s i = false) →
    layerActive s = false →
    exec (.thermalSensorForce rq) s = .next (respond rq 0x1180 Status.ok []
      { s with therm := { s.therm with sensors := modAt s.therm.sensors (rq.u8 0) fun x =>
        { x with forced := if rq.u8 1 = 0 then none else some (rq.i16 2) } } }))

/-! ### Power and Atoll (spec/19_power_atoll.md) -/

/-- R426 to R434 and the rail commands of group 0x12: a power-up enables the slots of the sequence in order; a rail that is
up settles, then the next is enabled; a power-down drops the highest enable first; a rail that does not come up or faults
latches the sequencer; an off request with a page active grants the grace; a held request is served after MIN_OFF. -/
def Obligations.RailsAreSequenced : Prop :=
  (∀ (rq : Req) (s : State), served 0x1201 rq s = true → rq.u8 0 < 16 → 1 ≤ rq.u16 4 → rq.u16 4 ≤ 10000 →
    rq.u16 6 ≤ 10000 → 1 ≤ rq.u16 8 →
    rq.u16 8 ≤ 10000 → 10 ≤ rq.u16 10 → rq.u16 10 ≤ 10000 → rq.u16 14 < rq.u16 16 → rq.u16 16 ≤ rq.u16 12 →
    rq.u16 18 < rq.u16 14 → (s.pwr.st = .down ∨ s.pwr.st = .minOff ∨ s.pwr.st = .latched) →
    exec (.powerRailConfig rq) s = .next (respond rq 0x1201 Status.ok [] (s.modRail (rq.u8 0) fun r =>
      { r with inSeq := rq.bit 1 0, pgUsed := rq.bit 1 1, pgLow := rq.bit 1 2, enLow := rq.bit 1 3, pgTimeout := rq.u16 4,
               settle := rq.u16 6, discharge := rq.u16 8, filter := rq.u16 10, fullScale := rq.u16 12, uv := rq.u16 14,
               ov := rq.u16 16, dischMv := rq.u16 18 }))) ∧
  (∀ (rq : Req) (k : Nat) (s : State), served 0x1202 rq s = true → s.pwr.rails.length = 16 → s.pwr.st = .down → k < 16 →
    (s.rail k).inSeq = true →
    (∀ j, j < k → (s.rail j).inSeq = false) → (s.atoll.supplyMon = false ∨ s.pwr.supplyLost = false) →
    ∃ t, exec (.powerUp rq) s = .next t ∧ t.pwr.st = .rising ∧ t.pwr.slot = some k ∧ (t.rail k).en = true ∧
      (t.rail k).up = false ∧ (∀ j, j ≠ k → t.rail j = s.rail j) ∧
      t.pwr.upCtx = s.pwr.upCtx ++ [rq.ctx s 0x1202] ∧ { t with pwr := s.pwr, mci := s.mci } = s) ∧
  (∀ (rq : Req) (s : State), served 0x1202 rq s = true → s.pwr.st = .latched →
    exec (.powerUp rq) s = .next (respond rq 0x1202 0x9201 [] s)) ∧
  (∀ (rq : Req) (s : State), served 0x1203 rq s = true → rq.u8 0 ≤ 1 → (s.pwr.st = .down ∨ s.pwr.st = .latched) →
    s.pwr.minOff = false →
    exec (.powerDown rq) s = .next (complete (rq.ctx s 0x1203) Status.ok [] (accept rq 0x1203 [] s))) ∧
  (∀ (rq : Req) (k : Nat) (s : State), served 0x1203 rq s = true → s.pwr.rails.length = 16 → s.links.length = 24 →
    rq.u8 0 ≤ 1 → s.pwr.st = .up →
    (∀ i, i < 4 → pageActive s i = false) → layerActive s = false → k < 16 → (s.rail k).en = true →
    (∀ j, k < j → j < 16 → (s.rail j).en = false) →
    ∃ t, exec (.powerDown rq) s = .next t ∧ t.pwr.st = .falling ∧ t.pwr.slot = some k ∧ (t.rail k).en = false ∧
      (t.rail k).dropAt = s.time + BitVec.ofNat 64 (ticksPerMs / 1000) ∧
      (∀ j, j ≠ k → t.rail j = s.rail j) ∧ (∀ l, l < s.nLinks → (t.link l).causes.getLsbD 3 = true)) ∧
  (∀ (rq : Req) (i : Nat) (s : State), served 0x1203 rq s = true → rq.u8 0 ≤ 1 → s.pwr.st = .up → i < 4 →
    pageActive s i = true →
    s.pwr.grace = none →
    ∃ t, exec (.powerDown rq) s = .next t ∧ t.pwr.grace = some s.time ∧ t.pwr.st = .up ∧ t.pwr.rails = s.pwr.rails ∧
      t.stations = s.stations) ∧
  (∀ (rq : Req) (s : State), served 0x1204 rq s = true → s.pwr.st = .latched → sysfaultClear s = true →
    ∃ t, exec (.powerClear rq) s = .next t ∧ t.pwr.latch = 0 ∧ t.pwr.st = (if s.pwr.minOff then .minOff else .down) ∧
      t.pwr.rails = s.pwr.rails) ∧
  (∀ (rq : Req) (s : State), served 0x1204 rq s = true → (s.pwr.st ≠ .latched ∨ sysfaultClear s = false) →
    exec (.powerClear rq) s = .next (respond rq 0x1204 Status.state [] s)) ∧
  (∀ (rq : Req) (s : State), served 0x1205 rq s = true → s.pwr.rails.length = 16 →
    ∃ p, exec (.powerStatus rq) s = .next (respond rq 0x1205 Status.ok p s) ∧ p.length = 64 ∧
      leAt p 0 1 = s.pwr.st.num ∧ leAt p 8 8 = s.atoll.rtc.toNat ∧ leAt p 16 8 = s.time.toNat ∧
      leAt p 56 4 = s.pwr.railFaults.n) ∧
  (∀ (rq : Req) (s : State), served 0x1280 rq s = true → rq.u8 0 < 16 → s.pwr.st = .down → s.pwr.minOff = false →
    exec (.powerRailForce rq) s = .next (respond rq 0x1280 Status.ok []
      (s.modRail (rq.u8 0) fun r =>
        if rq.u8 1 = 0 then { r with en := false, up := false, dropAt := s.time } else { r with en := true }))) ∧
  (∀ (k v : Nat) (pg : Bool) (s : State), k < s.pwr.rails.length → (s.rail k).en = true → vmonOk (s.rail k) v = true →
    (s.rail k).pgOk pg = true →
    (s.pwr.st = .rising → s.pwr.slot = some k → s.pwr.settling = false →
      ∃ t, exec (.railUp k ⟨v, pg⟩) s = .next t ∧ t.rail k = { s.rail k with up := true, code := v } ∧
        t.pwr.settling = true ∧ t.pwr.stepAt = s.time ∧ (∀ j, j ≠ k → t.rail j = s.rail j) ∧
        { t with pwr := s.pwr } = s) ∧
    (s.pwr.st = .down → exec (.railUp k ⟨v, pg⟩) s = .next (s.modRail k fun r => { r with up := true, code := v }))) ∧
  (∀ (k v : Nat) (pg : Bool) (s : State),
    ((s.rail k).en = false ∨ vmonOk (s.rail k) v = false ∨ (s.rail k).pgOk pg = false) →
    exec (.railUp k ⟨v, pg⟩) s = .next (s.modRail k fun r => { r with code := v })) ∧
  (∀ (k j : Nat) (s : State), s.pwr.rails.length = 16 → s.pwr.st = .rising → s.pwr.slot = some k →
    s.pwr.settling = true → k < j → j < 16 → (s.rail j).inSeq = true →
    (∀ i, k < i → i < j → (s.rail i).inSeq = false) →
    ∃ t, exec (.railSettleEnd k) s = .next t ∧ t.pwr.st = .rising ∧ t.pwr.slot = some j ∧ (t.rail j).en = true ∧
      (∀ i, i ≠ j → t.rail i = s.rail i) ∧
      { t with pwr := s.pwr } = s.waitFrom s.pwr.stepAt ((s.rail k).settle * ticksPerMs)) ∧
  (∀ (k : Nat) (s : State), s.pwr.st = .rising → s.pwr.slot = some k → s.pwr.settling = true →
    (∀ i, k < i → i < 16 → (s.rail i).inSeq = false) →
    ∃ t, exec (.railSettleEnd k) s = .next t ∧ t.pwr.st = .up ∧ t.pwr.slot = none ∧ t.pwr.upCtx = [] ∧
      t.pwr.rails = s.pwr.rails) ∧
  (∀ (k : Nat) (s : State), s.pwr.rails.length = 16 → s.links.length = 24 → k < 16 → s.pwr.st = .rising →
    s.pwr.slot = some k → s.pwr.settling = false → (s.rail k).en = true →
    ∃ t, exec (.railPgTimeout k) s = .next t ∧ t.pwr.st = .falling ∧ t.pwr.latch = 1 ∧ t.pwr.cause = 2 ∧
      t.atoll.railNoPg = true ∧ (∀ l, l < s.nLinks → (t.link l).causes.getLsbD 3 = true) ∧
      (t.flt.presented.getLast?.map fun r => (r.source, r.unit)) = some (0x0240, some k)) ∧
  (∀ (k v : Nat) (pg : Bool) (s : State), s.pwr.rails.length = 16 → s.links.length = 24 → k < 16 →
    (s.rail k).en = true → (s.rail k).up = true → s.pwr.st = .up →
    (vmonOk (s.rail k) v = false ∨ (s.rail k).pgOk pg = false) →
    ∃ t, exec (.railFault k ⟨v, pg⟩) s = .next t ∧ t.pwr.st = .falling ∧ t.pwr.latch = 1 ∧
      t.pwr.railFaults = s.pwr.railFaults.inc ∧ t.atoll.railFault = true ∧
      (t.flt.presented.getLast?.map fun r => (r.source, r.unit)) = some (0x0241, some k)) ∧
  (∀ (k v : Nat) (pg : Bool) (s : State),
    ((s.rail k).en = false ∨ (s.rail k).up = false ∨ (vmonOk (s.rail k) v = true ∧ (s.rail k).pgOk pg = true)) →
    exec (.railFault k ⟨v, pg⟩) s = .next (s.modRail k fun r => { r with code := v })) ∧
  (∀ (k j v : Nat) (s : State), s.pwr.rails.length = 16 → s.pwr.st = .falling → s.pwr.slot = some k → j < 16 →
    (s.rail j).en = true → (∀ i, j < i → i < 16 → (s.rail i).en = false) →
    ∃ t, exec (.railDischargeEnd k v) s = .next t ∧ t.pwr.st = .falling ∧ t.pwr.slot = some j ∧ (t.rail j).en = false ∧
      (v * (s.rail k).fullScale ≤ (s.rail k).dischMv * 4095 → t.flt = s.flt)) ∧
  (∀ (k v : Nat) (s : State), s.pwr.st = .falling → s.pwr.slot = some k → (∀ i, i < 16 → (s.rail i).en = false) →
    ∃ t, exec (.railDischargeEnd k v) s = .next t ∧ t.pwr.minOff = true ∧ t.pwr.slot = none ∧ t.pwr.upCtx = [] ∧
      t.pwr.st = (if s.pwr.latch = 0 then .minOff else .latched)) ∧
  (∀ s : State, s.pwr.minOff = false → exec .minOffEnd s = .next s) ∧
  (∀ s : State, s.pwr.minOff = true → s.pwr.st = .minOff → s.pwr.heldOn = false → s.atoll.standby = true →
    ∃ t, exec .minOffEnd s = .next t ∧ t.pwr.st = .down ∧ t.pwr.minOff = false ∧ t.pwr.downCtx = [] ∧
      t.atoll = (s.waitFrom s.pwr.minOffAt (100 * ticksPerMs)).atoll ∧ t.pwr.rails = s.pwr.rails) ∧
  (∀ s : State, s.pwr.minOff = true → s.pwr.st = .minOff → s.pwr.heldOn = false → s.atoll.standby = false →
    s.pwr.endKeep = false → s.pwr.latchedOff = false → s.pwr.latch = 0 →
    (s.mci.st ≠ .reset → ∃ t, exec .minOffEnd s = .next t ∧ t.atoll.main = false ∧ t.timeRuns = false ∧
      t.pwr.st = .down ∧ t.pwr.minOff = false ∧ t.dram.mem = [] ∧ t.held = 0x1FF) ∧
    (s.mci.st = .reset → ∃ t, exec .minOffEnd s = .next t ∧ t.atoll.main = s.atoll.main ∧ t.pwr.dropMain = true ∧
      t.pwr.st = .down ∧ t.pwr.minOff = false)) ∧
  (∀ s : State, s.pwr.grace = none → exec .offGraceEnd s = .next s ∧ exec .graceJobsTerminal s = .next s) ∧
  (∀ (k : Nat) (s : State), s.pwr.rails.length = 16 → s.pwr.grace.isSome = true → (∀ i, i < 4 → pageActive s i = false) →
    layerActive s = false → k < 16 → (s.rail k).en = true →
    (∃ t, exec .offGraceEnd s = .next t ∧ t.pwr.st = .falling ∧ t.pwr.grace = none) ∧
    (∃ t, exec .graceJobsTerminal s = .next t ∧ t.pwr.st = .falling ∧ t.pwr.grace = none))

/-- R434 to R444: the power button, nSYSFAULT, the supply monitor, the wake sources and the battery; the RTC counts 32,768
times a second; an Atoll register reads what was written, its flags clear where a 1 is written, and the retention words
keep their values. -/
def Obligations.AtollKeepsItsRegisters : Prop :=
  (∀ s : State, s.pwr.pressHeld = true → exec .pwrbtnPress s = .next s) ∧
  (∀ s : State, s.pwr.pressHeld = false → s.atoll.main = false →
    (s.atoll.wakeEn.getLsbD 0 = true → ∃ t, exec .pwrbtnPress s = .next t ∧ t.atoll.main = true ∧ t.atoll.wakeCause = 1 ∧
      t.atoll.wakeFlag.getLsbD 0 = true ∧ { t with atoll := s.atoll } = s) ∧
    (s.atoll.wakeEn.getLsbD 0 = false →
      exec .pwrbtnPress s = .next { s with atoll := { s.atoll with wakeFlag := s.atoll.wakeFlag ||| 1 } })) ∧
  (∀ s : State, s.pwr.pressHeld = false → s.atoll.main = true → s.pwr.st = .latched → sysfaultClear s = true →
    ∃ t, exec .pwrbtnPress s = .next t ∧ t.pwr.latch = 0 ∧ t.pwr.st ≠ .latched) ∧
  (∀ s : State, ∃ t, exec .pwrbtnForcedOff s = .next t ∧ t.atoll.main = false ∧ t.atoll.forcedOff = true ∧
    t.timeRuns = false ∧ t.pwr.st = .down ∧ (∀ r ∈ t.pwr.rails, r.en = false) ∧ t.pwr.pressHeld = true ∧
    t.dram.mem = [] ∧ t.lag.data = [] ∧ t.held = 0x1FF ∧
    t.atoll.rtc = s.atoll.rtc ∧ t.atoll.ret = s.atoll.ret) ∧
  (∀ s : State, exec .pwrbtnRelease s = .next { s with pwr := { s.pwr with pressHeld := false } }) ∧
  (∀ s : State, exec (.nsysfaultIn false) s = .next { s with pwr := { s.pwr with sysIn := false } }) ∧
  (∀ s : State, s.atoll.main = false →
    exec (.nsysfaultIn true) s = .next { s with pwr := { s.pwr with sysIn := true } }) ∧
  (∀ s : State, s.atoll.main = true → pullsSysfault s = true → exec (.nsysfaultIn true) s = .next s) ∧
  (∀ (k : Nat) (s : State), s.pwr.rails.length = 16 → s.atoll.main = true → pullsSysfault s = false → s.pwr.st = .up → k < 16 →
    (s.rail k).en = true →
    ∃ t, exec (.nsysfaultIn true) s = .next t ∧ t.pwr.st = .falling ∧ t.pwr.latch = 2 ∧ t.pwr.sysIn = true ∧
      t.atoll.sysfaultSeen = true ∧
      (t.flt.presented.getLast?.map fun r => (r.source, r.unit)) = some (0x0242, none)) ∧
  (∀ s : State, s.atoll.supplyMon = false → exec .supplyLost s = .next s ∧ exec .supplyReturn s = .next s) ∧
  (∀ (k : Nat) (s : State), s.pwr.rails.length = 16 → s.atoll.supplyMon = true → s.pwr.st = .up → k < 16 →
    (s.rail k).en = true →
    ∃ t, exec .supplyLost s = .next t ∧ t.pwr.st = .falling ∧ t.pwr.latch = s.pwr.latch ∧ t.pwr.supplyLost = true ∧
      t.atoll.supplyLost = true ∧
      (t.flt.presented.getLast?.map fun r => (r.source, r.unit)) = some (0x0243, none)) ∧
  (∀ s : State, s.atoll.supplyMon = true → s.atoll.autoRestart = true → s.pwr.st = .minOff → s.atoll.main = true →
    exec .supplyReturn s = .next { s with pwr := { s.pwr with supplyLost := false, heldOn := true } }) ∧
  (∀ s : State, s.atoll.supplyMon = true → s.atoll.autoRestart = true → s.atoll.main = false →
    ∃ t, exec .supplyReturn s = .next t ∧ t.atoll.main = true ∧ t.atoll.wakeCause = 9 ∧ t.pwr.supplyLost = false) ∧
  (∀ s : State, exec .vbatApply s = .next { s with atoll := {} }) ∧
  (∀ (mv : Nat) (s : State), 1800 ≤ mv → exec (.vbatLow mv) s = .next { s with pwr := { s.pwr with vbatMv := mv } }) ∧
  (∀ (mv : Nat) (s : State), 1500 ≤ mv → mv < 1800 →
    (s.atoll.main = true →
      exec (.vbatLow mv) s = .next (present 0x0246 none 0 { s with pwr := { s.pwr with vbatMv := mv } })) ∧
    (s.atoll.main = false → exec (.vbatLow mv) s = .next { s with pwr := { s.pwr with vbatMv := mv } })) ∧
  (∀ (mv : Nat) (s : State), mv < 1500 → ∃ t, exec (.vbatLow mv) s = .next t ∧ t.atoll = {} ∧ t.pwr.vbatMv = mv) ∧
  (∀ (n : Nat) (rising : Bool) (s : State), (4 ≤ n ∨ s.atoll.wakePol.getLsbD n ≠ rising) →
    exec (.wakeComparatorFire n rising) s = .next s) ∧
  (∀ (n : Nat) (rising : Bool) (s : State), n < 4 → s.atoll.wakePol.getLsbD n = rising →
    ∃ t, exec (.wakeComparatorFire n rising) s = .next t ∧ t.atoll.wakeFlag = s.atoll.wakeFlag ||| (1#4 <<< n) ∧
      (s.atoll.main = false → s.atoll.wakeEn.getLsbD n = true →
        t.atoll.main = true ∧ t.atoll.wakeCause = BitVec.ofNat 4 (n + 1)) ∧
      (s.atoll.wakeEn.getLsbD n = false → t.atoll.main = s.atoll.main) ∧ { t with atoll := s.atoll } = s) ∧
  (∀ (n : Nat) (s : State),
    let v := (at' s.atoll.alarms n 0).toNat
    n < 4 → s.atoll.alarmEn.getLsbD n = true → s.atoll.rtc.toNat ≤ v →
    ∃ t, exec (.rtcAlarm n) s = .next t ∧ t.atoll.alarmFlag = s.atoll.alarmFlag ||| (1#4 <<< n) ∧
      t.atoll.rtc.toNat = v ∧
      (s.atoll.main = false → s.atoll.alarmWake.getLsbD n = true →
        t.atoll.main = true ∧ t.atoll.wakeCause = BitVec.ofNat 4 (5 + n))) ∧
  (∀ (n : Nat) (s : State), (4 ≤ n ∨ s.atoll.alarmEn.getLsbD n = false) → exec (.rtcAlarm n) s = .next s) ∧
  (∀ s : State, (s.advance ticksPerSecond).atoll.rtc = s.atoll.rtc + 32768 ∧
    (s.advance ticksPerSecond).atoll.rtcAcc = s.atoll.rtcAcc) ∧
  (∀ (rq : Req) (s : State), served 0x1206 rq s = true → rq.u8 0 % 4 = 0 → 1 ≤ rq.u8 1 → rq.u8 1 ≤ 16 →
    rq.u8 0 + 4 * rq.u8 1 ≤ 0x80 →
    let hi := BitVec.ofNat 16 (s.atoll.rtc.toNat / 2 ^ 32)
    let s' := if rq.u8 0 = 0 then { s with atoll := { s.atoll with rtcHiRead := hi } } else s
    ∃ p, exec (.atollRegRead rq) s = .next (respond rq 0x1206 Status.ok p s') ∧ p.length = 4 * rq.u8 1 ∧
      ∀ k, k < rq.u8 1 → (p.drop (4 * k)).take 4 = leBytes 4 (atlRead s'.atoll (rq.u8 0 + 4 * k))) ∧
  (∀ (rq : Req) (s : State), served 0x1207 rq s = true → rq.u8 0 % 4 = 0 → rq.u8 0 < 0x80 →
    exec (.atollRegWrite rq) s =
      .next (respond rq 0x1207 Status.ok [] { s with atoll := atlWrite s.atoll (rq.u8 0) (rq.u32 4) })) ∧
  (∀ (a : Atoll) (k v : Nat), a.ret.length = 16 → k < 16 → v < 2 ^ 32 →
    atlRead (atlWrite a (0x40 + 4 * k) v) (0x40 + 4 * k) = v ∧
    ∀ o, o % 4 = 0 → o ≠ 0x40 + 4 * k → atlRead (atlWrite a (0x40 + 4 * k) v) o = atlRead a o) ∧
  (∀ (a : Atoll) (v : Nat), (atlWrite a 0x34 v).wakeFlag = a.wakeFlag &&& ~~~BitVec.ofNat 4 (v / 256) ∧
    (atlWrite a 0x30 v).alarmFlag = a.alarmFlag &&& ~~~BitVec.ofNat 4 (v / 256)) ∧
  (∀ (a : Atoll) (hi lo : Nat), hi < 2 ^ 16 → lo < 2 ^ 32 →
    (atlWrite (atlWrite a 0x04 hi) 0x00 lo).rtc = BitVec.ofNat 48 (hi * 2 ^ 32 + lo) ∧
    (atlWrite (atlWrite a 0x04 hi) 0x00 lo).rtcValid = true)

/-! ### Lamp strings (spec/20_lighting.md) -/

/-- R445 to R454 and the commands of group 0x13: a string takes its configuration, one that rises is tested before its
function is given; a level within its limits is stored; a failure seen in two frames is confirmed: an unregulated string
shunts an open lamp and goes on, a regulated one switches off. -/
def Obligations.LampStringsAreWatched : Prop :=
  (∀ (rq : Req) (s : State), served 0x1301 rq s = true → s.lamps.length = 8 →
    let i := rq.u8 0
    let x := s.lampOf i
    i < 8 → rq.u8 1 = 1 → rq.u8 3 ≤ 1 → (rq.u8 3 = 1 → rq.bit 2 0 = true) → 1 ≤ rq.u8 4 → rq.u8 4 ≤ 16 →
    rq.u16 6 ≤ 1000 → 100 ≤ rq.u16 8 → rq.u16 8 ≤ 1200 → 200 ≤ rq.u16 10 → rq.u16 10 ≤ 20000 →
    (rq.bit 2 0 = true → 100 ≤ rq.u16 6 ∧ rq.u16 12 = 0) → permitHeld s i = false →
    (x.st = 0 ∨ (x.st = 3 ∧ unackedSource s 0x0261 = false)) →
    ∃ t, exec (.lightStringConfig rq) s = .next t ∧ (t.lampOf i).st = 1 ∧ (t.lampOf i).level = rq.u16 6 ∧
      (t.lampOf i).lamps = rq.u8 4 ∧ (t.lampOf i).regulated = rq.bit 2 0 ∧ (t.lampOf i).functionOk = false ∧
      (t.lampOf i).failed = 0 ∧ (t.lampOf i).ctx = some (rq.ctx s 0x1301) ∧
      (∀ k, k ≠ i → t.lampOf k = s.lampOf k)) ∧
  (∀ (rq : Req) (s : State), served 0x1302 rq s = true → rq.u8 0 < 8 → rq.u16 2 ≤ 1000 →
    ((s.lampOf (rq.u8 0)).regulated = true → 100 ≤ rq.u16 2) → permitHeld s (rq.u8 0) = false →
    (s.lampOf (rq.u8 0)).failAt ≠ some s.time → (s.lampOf (rq.u8 0)).st ≠ 3 →
    exec (.lightStringLevel rq) s = .next (respond rq 0x1302 Status.ok [] (s.modLamp (rq.u8 0) fun y =>
      { y with level := rq.u16 2, levelWas := y.inForce s.time,
               levelFrom := if 100 ≤ rq.u16 2 then s.time else y.nextPeriod s.time }))) ∧
  (∀ (x : Lamp) (now : BitVec 64),
    (100 ≤ x.inForce now → x.refOut now = x.inForce now * x.refMv ∧ x.enPin now = true) ∧
    (0 < x.inForce now → x.inForce now < 100 → x.refOut now = 100 * x.refMv) ∧
    (x.inForce now = 0 → x.refOut now = 0 ∧ x.enPin now = false)) ∧
  (∀ (rq : Req) (s : State), served 0x1303 rq s = true → rq.u8 0 < 8 →
    ∃ p, exec (.lightStringStatus rq) s = .next (respond rq 0x1303 Status.ok p s) ∧ p.length = 16 ∧
      leAt p 2 2 = (s.lampOf (rq.u8 0)).failed.toNat ∧ leAt p 8 4 = (s.lampOf (rq.u8 0)).lampFails.n ∧
      leAt p 12 4 = (s.lampOf (rq.u8 0)).commErrors.n) ∧
  (∀ (rq : Req) (s : State), served 0x1380 rq s = true → rq.u8 0 < 8 → (s.lampOf (rq.u8 0)).regulated = false →
    permitHeld s (rq.u8 0) = false →
    exec (.lightMatrixRaw rq) s = .next (respond rq 0x1380 Status.ok (leBytes 4 (s.lampOf (rq.u8 0)).reports.toNat)
      (s.modLamp (rq.u8 0) fun y => { y with shunt := BitVec.ofNat 16 (rq.u16 2) }))) ∧
  (∀ (i : Nat) (frame : BitVec 64) (heard : Bool) (s : State), (s.lampOf i).st ≠ 1 → (s.lampOf i).st ≠ 2 →
    exec (.lampMatrixFrame i frame heard) s = .next s) ∧
  (∀ (i : Nat) (frame : BitVec 64) (heard : Bool) (s : State),
    let x := s.lampOf i
    let u := s.advanceTo (x.frameAt.toNat + ticksPerMs / 10)
    (x.st = 1 ∨ x.st = 2) → x.enPin u.time = false →
    exec (.lampMatrixFrame i frame heard) s = .next (u.modLamp i fun y =>
      { y with reports := lampBits frame, frameAt := u.time })) ∧
  (∀ (i : Nat) (frame : BitVec 64) (heard : Bool) (s : State),
    let x := s.lampOf i
    let u := s.advanceTo (x.frameAt.toNat + ticksPerMs / 10)
    i < s.lamps.length → x.st = 2 → x.enPin u.time = true →
    (heard = true → frame.setWidth 8 = frameCrc frame → (∀ j, j < x.lamps → lampReport (lampBits frame) j = 0) →
      ∃ t, exec (.lampMatrixFrame i frame heard) s = .next t ∧
        t.lampOf i = { x with reports := lampBits frame, frameAt := u.time, suspect := 0, commBad := false } ∧
        (∀ k, k ≠ i → t.lampOf k = s.lampOf k) ∧ { t with lamps := s.lamps } = u) ∧
    ((heard = false ∨ frame.setWidth 8 ≠ frameCrc frame) →
      ∃ t, exec (.lampMatrixFrame i frame heard) s = .next t ∧ (t.lampOf i).commErrors = x.commErrors.inc ∧
        (t.lampOf i).commBad = true ∧ (t.lampOf i).suspect = 0 ∧
        (x.commBad = false → (t.lampOf i).failed = x.failed ∧ (t.lampOf i).st = 2 ∧ t.flt = s.flt) ∧
        (x.commBad = true → (0x0262, some i) ∈ t.flt.presented.map fun r => (r.source, r.unit)))) ∧
  (∀ (i k : Nat) (frame : BitVec 64) (s : State),
    let x := s.lampOf i
    let u := s.advanceTo (x.frameAt.toNat + ticksPerMs / 10)
    i < s.lamps.length → x.st = 2 → x.enPin u.time = true → frame.setWidth 8 = frameCrc frame →
    k < x.lamps → k < 16 → x.shunt = 0 → x.failed = 0 → x.commBad = false →
    (∀ j, j < x.lamps → lampReport (lampBits frame) j = if j = k then 1 else 0) →
    (x.suspect.getLsbD k = true → x.regulated = false →
      ∃ t, exec (.lampMatrixFrame i frame true) s = .next t ∧ (t.lampOf i).failed.getLsbD k = true ∧
        (t.lampOf i).shunt.getLsbD k = true ∧ (t.lampOf i).st = 2 ∧ (t.lampOf i).lampFails = x.lampFails.inc ∧
        (t.flt.presented.getLast?.map fun r => (r.source, r.unit, r.detail)) = some (0x0260, some i, k)) ∧
    (x.suspect.getLsbD k = true → x.regulated = true →
      ∃ t, exec (.lampMatrixFrame i frame true) s = .next t ∧ (t.lampOf i).failed.getLsbD k = true ∧
        (t.lampOf i).st = 3 ∧ (t.lampOf i).functionOk = false) ∧
    (x.suspect.getLsbD k = false →
      ∃ t, exec (.lampMatrixFrame i frame true) s = .next t ∧ (t.lampOf i).failed = 0 ∧ (t.lampOf i).st = 2 ∧
        (t.lampOf i).suspect.getLsbD k = true ∧ t.flt = s.flt))

/-! ### Resets and start-up (spec/01_architecture.md, spec/23_startup.md) -/

/-- R35, R430, R437, R441, R491: what each reset leaves: a device reset keeps Atoll, the rails, the OTP words and the flash;
a power-on reset and the failure of the main supply start the sequencer afresh; nMR holds the device until it rises. -/
def Obligations.ResetsKeepWhatTheyMust : Prop :=
  (∀ (straps : BitVec 4) (burned : BitVec 32) (s : State), s.atoll.main = true →
    let u := match s.mci.resetAt with
      | some t => s.advanceTo t.toNat
      | none => s
    ∃ t, exec (.deviceReset straps burned) s = .next t ∧ t.mci.st = .reset ∧ t.timeRuns = false ∧ t.time = 0 ∧
      t.atoll = u.atoll ∧ t.pwr.rails = (s.pwr.rails.map fun r => { r with dropAt := r.dropAt - u.time }) ∧
      t.pwr.st = s.pwr.st ∧ t.otp.redirects = s.otp.redirects ∧
      (s.otp.burn = none → t.otp.words = s.otp.words) ∧ t.otp.burn = none ∧
      (s.boot.update = none → t.boot.flash = s.boot.flash) ∧ t.boot.update = none ∧ t.boot.nmr = s.boot.nmr ∧
      t.boot.latchedCause = (if s.mci.resetAt.isSome then s.boot.latchedCause else 1) ∧
      (s.boot.nmr = false → t.boot.straps = straps ∧ t.boot.cause = t.boot.latchedCause) ∧ t.mci.boxes = List.replicate 8 {} ∧
      t.flt.records = [] ∧ t.flt.log = [] ∧ t.mci.vlog = [] ∧ t.dram.mem = [] ∧ t.lag.data = [] ∧
      t.held = 0x1FF ∧ t.flt.watched = false ∧ t.pending = s.pending) ∧
  (∀ (straps : BitVec 4) (burned : BitVec 32) (c : Ctx) (a n o : Nat) (s : State), s.atoll.main = true →
    s.boot.update = some (c, a, n) → cellsWf 0xFF s.boot.flash = true →
    (o < slotAt (updateSlot s) ∨ slotAt (updateSlot s) + n ≤ o) →
    ∃ t, exec (.deviceReset straps burned) s = .next t ∧ t.flashBytes o 1 = s.flashBytes o 1) ∧
  (∀ (straps : BitVec 4) (s : State), s.atoll.main = true →
    ∃ t, exec (.powerOnReset straps) s = .next t ∧ t.mci.st = .reset ∧ t.timeRuns = false ∧ t.atoll = s.atoll ∧
      t.pwr.st = .down ∧ t.pwr.rails = List.replicate 16 {} ∧ (s.otp.burn = none → t.otp.words = s.otp.words) ∧
      (s.boot.update = none → t.boot.flash = s.boot.flash) ∧ t.boot.nmr = s.boot.nmr ∧ t.boot.latchedCause = 0 ∧
      (s.boot.nmr = false → t.boot.straps = straps ∧ t.boot.cause = 0)) ∧
  (∀ (straps : BitVec 4) (burned : BitVec 32) (s : State), s.atoll.main = false →
    exec (.deviceReset straps burned) s = .next s ∧ exec (.powerOnReset straps) s = .next s ∧
    exec (.mainSupplyFail burned) s = .next s) ∧
  (∀ (burned : BitVec 32) (s : State), s.atoll.main = true →
    ∃ t, exec (.mainSupplyFail burned) s = .next t ∧ t.atoll = s.atoll ∧ t.pwr.st = .down ∧ t.mci.st = .reset ∧
      t.timeRuns = false ∧ (s.boot.update = none → t.boot.flash = s.boot.flash) ∧ (s.otp.burn = none →
      t.otp.words = s.otp.words)) ∧
  (∀ (w : Nat) (s : State), w < 1000 → exec (.nmrAssert w) s = .next s) ∧
  (∀ (w : Nat) (s : State), 10000 ≤ w → s.atoll.main = true → s.boot.nmr = false →
    ∃ t, exec (.nmrAssert w) s = .next t ∧ t.boot.nmr = true ∧ t.boot.latchedCause = 1 ∧ t.mci.st = .reset ∧
      t.timeRuns = false ∧ t.atoll = s.atoll ∧ t.held = 0x1FF ∧
      (s.pwr.st = .latched → s.pwr.sysIn = false → t.pwr.latch = 0 ∧
        t.pwr.st = if s.pwr.minOff then .minOff else .down) ∧
      t.pwr.rails = s.pwr.rails.map fun r => { r with dropAt := r.dropAt - s.time }) ∧
  (∀ (straps : BitVec 4) (s : State), s.boot.nmr = true → s.atoll.main = false →
    exec (.nmrRelease straps) s = .next { s with boot := { s.boot with nmr := false } }) ∧
  (∀ (straps : BitVec 4) (s : State), s.boot.nmr = true → s.atoll.main = true →
    ∃ t, exec (.nmrRelease straps) s = .next t ∧ t.boot.nmr = false ∧ t.boot.straps = straps ∧
      t.boot.cause = s.boot.latchedCause ∧ { t with boot := s.boot, clk := s.clk } = s) ∧
  (∀ (straps : BitVec 4) (s : State), s.boot.nmr = false → exec (.nmrRelease straps) s = .next s)

/-- R6, R78, R334, R335, R481, R492, R498 to R503 and the commands of group 0x16: the steps of the start in order, each of
which waits for the one before: the system PLLs, the OTP check, DRAM training and fill, the image, READY; then a personality
is selected, and an update writes the slot and the older boot block. -/
def Obligations.StartupRunsInOrder : Prop :=
  (∀ s : State, s.timeRuns = false → s.atoll.main = true → s.boot.nmr = false →
    ∃ t, exec .systemPllLock s = .next t ∧ t.timeRuns = true ∧ t.time = 0 ∧ t.mci = s.mci ∧
      (bootBlock s 0 = none → bootBlock s 1 = none → t.boot.blockDefault = true ∧ t.dram.cfg = dramCfgOf defaultRecord)) ∧
  (∀ s : State, (s.timeRuns = true ∨ s.atoll.main = false ∨ s.boot.nmr = true) → exec .systemPllLock s = .next s) ∧
  (∀ (step : Nat) (s : State), s.timeRuns = true → s.mci.st = .reset → s.dram.trained = false → s.dram.cfg.ok = true →
    exec (.dramTrainingDone 0 step) s = .next { s with dram := { s.dram with trained := true } }) ∧
  (∀ (failed : BitVec 4) (step : Nat) (s : State), s.timeRuns = true → s.mci.st = .reset → s.dram.trained = false →
    s.dram.cfg.ok = true → failed &&& BitVec.ofNat 4 s.dram.cfg.channels ≠ 0 →
    ∃ t, exec (.dramTrainingDone failed step) s = .next t ∧ t.mci.st = .halted ∧ t.boot.fail = 1 ∧
      t.dram.trained = false ∧ t.boot.dramCh = failed &&& BitVec.ofNat 4 s.dram.cfg.channels) ∧
  (∀ (failed : BitVec 4) (step : Nat) (s : State),
    (s.timeRuns = false ∨ s.mci.st ≠ .reset ∨ s.dram.trained = true) →
    exec (.dramTrainingDone failed step) s = .next s) ∧
  (∀ s : State, s.dram.trained = true → s.mci.st = .reset → s.otp.checked = true →
    ∃ t, exec .dramFillDone s = .next t ∧ t.dram.mem = [] ∧ t.dram.errs = [] ∧ t.lag.data = [] ∧
      (s.pwr.dropMain = false → t.mci.st = .boot ∧ t.mci.mciMax = 0x34 ∧ t.held = s.held ∧ t.flt.watched = true) ∧
      (s.pwr.dropMain = true → s.atoll.standby = false → s.pwr.endKeep = false → s.pwr.latchedOff = false →
        s.pwr.latch = 0 → t.atoll.main = false)) ∧
  (∀ s : State, (s.dram.trained = false ∨ s.mci.st ≠ .reset ∨ s.otp.checked = false) →
    exec .dramFillDone s = .next s) ∧
  (∀ (b : BootSource) (s : State), s.mci.st = .boot → s.boot.image = 0 → acceptedKeys s ≠ [] →
    let u := readPushed b s
    (bootLeft s).head? = some b → imageOk u slotSize (sourceBytes u b) = true →
    ∃ t, exec (.bootImageLoaded b) s = .next t ∧ t.boot.image = imageCode b ∧ t.held = 0 ∧
      t.boot.fwVersion = BitVec.ofNat 32 (leAt (sourceBytes u b 0 12) 8 4) ∧
      { t with boot := u.boot, held := u.held } = u) ∧
  (∀ (s : State), s.mci.st = .boot → s.boot.image = 0 → acceptedKeys s ≠ [] →
    (bootLeft s).head? = some .slotA → imageOk s slotSize (sourceBytes s .slotA) = false →
    ∃ t, exec (.bootImageLoaded .slotA) s = .next t ∧ t.boot.slotABad = true ∧ t.boot.image = 0 ∧ t.held = s.held) ∧
  (∀ (b : BootSource) (s : State), s.mci.st = .boot → s.boot.image = 0 → acceptedKeys s = [] →
    ∃ t, exec (.bootImageLoaded b) s = .next t ∧ t.mci.st = .halted ∧ t.boot.fail = 2) ∧
  (∀ (b : BootSource) (s : State), (s.mci.st ≠ .boot ∨ s.boot.image ≠ 0) →
    exec (.bootImageLoaded b) s = .next s ∧ exec .bootPushPoll s = .next s) ∧
  (∀ (s : State), s.mci.st = .boot → s.boot.image = 0 → acceptedKeys s ≠ [] → (bootLeft s).head? = some .push →
    let u := readPushed .push s
    (s.boot.push ≠ 0x48535550 → exec .bootPushPoll s = .next s) ∧
    (s.boot.push = 0x48535550 → imageOk u slotSize u.dramRead = true →
      ∃ t, exec .bootPushPoll s = .next t ∧ t.boot.image = 3 ∧ t.boot.pushResult = 1 ∧ t.held = 0) ∧
    (s.boot.push = 0x48535550 → imageOk u slotSize u.dramRead = false →
      ∃ t, exec .bootPushPoll s = .next t ∧ t.boot.image = 0 ∧ t.boot.pushResult = 2 ∧ t.boot.push = 0)) ∧
  (∀ s : State, s.mci.st = .boot → s.boot.image ≠ 0 →
    ∃ t, exec .bootReady s = .next t ∧ t.mci.st = .ready ∧ t.boot.readyMs = readyMs s ∧
      at' t.dma.windows 0 none = none ∧
      (s.atoll.autoOn = false → s.atoll.wakeCause ≠ 1 → t.pwr = s.pwr)) ∧
  (∀ s : State, (s.mci.st ≠ .boot ∨ s.boot.image = 0) → exec .bootReady s = .next s) ∧
  (∀ (rq : Req) (s : State), served 0x1601 rq s = true →
    ∃ p, exec (.startupBootStatus rq) s = .next (respond rq 0x1601 Status.ok p s) ∧ p.length = 16 ∧
      leAt p 0 4 = s.boot.straps.toNat ∧ leAt p 4 4 = bootStatus s.boot ∧ leAt p 8 2 = s.boot.cause.toNat ∧
      leAt p 10 2 = s.boot.fatalSource.toNat) ∧
  (∀ (rq : Req) (s : State), served 0x1602 rq s = true → (rq.u8 0 = 1 ∨ rq.u8 0 = 2) →
    (permitted s).testBit (rq.u8 0 - 1) = true →
    s.mci.st = .ready → s.boot.select = none → (s.mci.inUse.toNat / 16 ≠ 2 ∨ rq.u8 0 = 1) →
    exec (.startupPersonalitySelect rq) s = .next (accept rq 0x1602 [] { s with boot := { s.boot with
      select := some (rq.ctx s 0x1602, if rq.u8 0 = 1 then .press else .forge) } })) ∧
  (∀ (rq : Req) (s : State), served 0x1602 rq s = true → (permitted s).testBit (rq.u8 0 - 1) = false →
    exec (.startupPersonalitySelect rq) s = .next (respond rq 0x1602 Status.badValue [] s)) ∧
  (∀ (c : Ctx) (p : Personality) (s : State), s.coreUp hostCore = true → s.boot.select = some (c, p) → s.mci.st = .ready →
    exec .personalitySelectDone s = .next (complete c Status.ok []
      { s with mci := { s.mci with st := .run, personality := p }, boot := { s.boot with select := none } })) ∧
  (∀ s : State, s.boot.select = none → exec .personalitySelectDone s = .next s) ∧
  (∀ (rq : Req) (s : State), served 0x1603 rq s = true →
    let u := firmwareRead (rq.u64 0) (rq.u32 8) s
    served 0x1603 rq u = true → rq.u64 0 + rq.u32 8 ≤ u.dram.cfg.usable → u.boot.update = none →
    imageOk u (min (rq.u32 8) slotSize) (fun o k => u.dramRead (rq.u64 0 + o) k) = true →
    exec (.startupFwUpdate rq) s = .next (accept rq 0x1603 [] { u with boot := { u.boot with
      update := some (rq.ctx u 0x1603, rq.u64 0, rq.u32 8) } })) ∧
  (∀ (c : Ctx) (a n : Nat) (s : State), s.boot.update = some (c, a, n) → cellsWf 0xFF s.boot.flash = true →
    let u := firmwareRead a n s
    u.coreUp hostCore = true →
    ∃ t, exec (.fwUpdateDone true) s = .next t ∧ t.boot.update = none ∧
      t.flashBytes (slotAt (updateSlot u)) n = u.dramRead a n ∧
      (bootBlock t (olderCopy u)).map generation = some (nextGeneration u)) ∧
  (∀ (ok : Bool) (s : State), s.boot.update = none → exec (.fwUpdateDone ok) s = .next s)

/-! ### Faults (spec/21_faults.md) -/

/-- R457 to R459, R461 to R465, R467, R472: the raise of the earliest time and the lowest source is recorded first; a raise
of class DEGRADE or STOP escalates by one class while a source of its group holds UNACK with that class; a record keeps
STICKY, COUNT, LAST_TIME and the higher class; STOP and FATAL gate every link of their scope with cause 3; the supervisor
writes the log entries in order, the last 64 of them kept. -/
def Obligations.RaisesAreRecorded : Prop :=
  (∀ (rs : List Raise) (r : Raise), nextRaise rs = some r →
    r ∈ rs ∧ ∀ q ∈ rs, r.time.toNat < q.time.toNat ∨ (r.time = q.time ∧ r.source ≤ q.source)) ∧
  (∀ (source : Nat) (c : FClass) (held : List (Nat × FClass)),
    ((∃ h ∈ held, sourceGroup h.1 = sourceGroup source ∧ h.2 = c) → escalate source c held =
      match c with | .degrade => .stop | .stop => .fatal | c => c) ∧
    ((∀ h ∈ held, sourceGroup h.1 ≠ sourceGroup source ∨ h.2 ≠ c) → escalate source c held = c)) ∧
  (∀ s : State, s.flt.presented = [] → exec .faultRaise s = .next s) ∧
  (∀ (r : Raise) (s : State), nextRaise s.flt.presented = some r → r.judged = none → r.fatal = false →
    faultClass r.source = some .info →
    ∃ t, exec .faultRaise s = .next t ∧ t.flt.presented = s.flt.presented.erase r ∧ (t.frec r.source).sticky = true ∧
      (t.frec r.source).count = (s.frec r.source).count.inc ∧ (t.frec r.source).last = r.time ∧
      (t.frec r.source).unack = (s.frec r.source).unack ∧ (∀ q, q ≠ r.source → t.frec q = s.frec q) ∧
      ((s.frec r.source).sticky = true → r.forced = false → t.flt.unwritten = s.flt.unwritten) ∧
      t.mci = (signal 10 s).mci ∧ { t with flt := s.flt, mci := s.mci } = classGrant 0 s) ∧
  (∀ (r : Raise) (s : State), nextRaise s.flt.presented = some r → r.judged = none → r.fatal = false →
    faultClass r.source = some .degrade → fences r.source = false →
    (∀ h ∈ unacked s, sourceGroup h.1 ≠ sourceGroup r.source ∨ h.2 ≠ .degrade) → (s.frec r.source).unack = none →
    ∃ t e, exec .faultRaise s = .next t ∧ (t.frec r.source).unack = some .degrade ∧
      (t.frec r.source).count = (s.frec r.source).count.inc ∧ t.flt.unwritten = s.flt.unwritten ++ [e] ∧
      e.source = r.source ∧ e.cls = .degrade ∧ e.eff = .degrade ∧ e.time = r.time ∧ t.links = s.links ∧
      t.mci = (signal 10 s).mci) ∧
  (∀ (r : Raise) (s : State), s.links.length = 24 → nextRaise s.flt.presented = some r → r.judged = none →
    r.fatal = false → faultClass r.source = some .stop → r.unit = none →
    (∀ h ∈ unacked s, sourceGroup h.1 ≠ sourceGroup r.source ∨ h.2 ≠ .stop) → (s.frec r.source).unack = none →
    ∃ t, exec .faultRaise s = .next t ∧ (t.frec r.source).unack = some .stop ∧
      (∀ l, l < s.nLinks → (t.link l).causes.getLsbD 3 = true ∧ (t.frec r.source).cover.getLsbD l = true) ∧
      t.flt.toggling = false ∧ t.mci.st = s.mci.st) ∧
  (∀ (r : Raise) (s : State), s.links.length = 24 → nextRaise s.flt.presented = some r → r.judged = none →
    (r.fatal = true ∨ faultClass r.source = some .fatal) →
    ∃ t, exec .faultRaise s = .next t ∧ t.mci.st = .halted ∧ t.flt.fatal.isSome = true ∧ t.pwr.pullFatal = true ∧
      (∀ l, l < s.nLinks → (t.link l).causes.getLsbD 3 = true) ∧ (∀ b ∈ t.bias, b.duty = 0) ∧
      (∀ x ∈ t.lamps, x.st = 0 ∧ x.functionOk = false)) ∧
  (∀ s : State, (s.flt.unwritten = [] ∨ s.coreUp supervisorCore = false) → exec .faultLogWrite s = .next s) ∧
  (∀ (e : FEntry) (rest : List FEntry) (s : State), s.coreUp supervisorCore = true → s.flt.unwritten = e :: rest →
    ∃ t, exec .faultLogWrite s = .next t ∧ t.flt.unwritten = rest ∧
      t.flt.log = lastN 64 (s.flt.log ++ [{ e with number := s.flt.next }]) ∧ t.flt.next = s.flt.next + 1 ∧
      t.flt.count = s.flt.count.inc ∧ (e.eff = .info → t.mci = s.mci) ∧ { t with flt := s.flt, mci := s.mci } = s)

/-- R21, R22, R464, R468, R470, R471, R474 and the commands of group 0x14: an acknowledged record holds UNACK no more, a
cleared one without UNACK neither STICKY nor COUNT; a forced source is recorded as if it had occurred; the log is read from
a number on; a core without its heartbeat is held; the watchdog gates every link and a device reset follows after 1 ms;
ALIVE changes level while its conditions hold. -/
def Obligations.FaultsAreAcknowledged : Prop :=
  (∀ (rq : Req) (qs : List Nat) (s : State), served 0x1404 rq s = true → namedSources (rq.u16 0) (rq.u8 2) = some qs →
    ∃ t p, exec (.faultAck rq) s = .next (respond rq 0x1404 Status.ok p t) ∧ p.length = 8 ∧
      leAt p 0 2 = (qs.filter fun q => (s.frec q).unack.isSome).length ∧
      (∀ q ∈ qs, (t.frec q).unack = none) ∧ (∀ q, q ∉ qs → t.frec q = s.frec q) ∧
      (∀ q, (t.frec q).count = (s.frec q).count ∧ (t.frec q).sticky = (s.frec q).sticky)) ∧
  (∀ (rq : Req) (qs : List Nat) (s : State), served 0x1405 rq s = true → namedSources (rq.u16 0) (rq.u8 2) = some qs →
    ∃ t p, exec (.faultClear rq) s = .next (respond rq 0x1405 Status.ok p t) ∧ p.length = 4 ∧
      leAt p 2 2 = (qs.filter fun q => (s.frec q).unack.isSome).length ∧
      (∀ q ∈ qs, (s.frec q).unack = none → (t.frec q).sticky = false ∧ (t.frec q).count.n = 0) ∧
      (∀ q, (s.frec q).unack ≠ none → t.frec q = s.frec q) ∧ { t with flt := s.flt } = s) ∧
  (∀ (rq : Req) (s : State), served 0x1404 rq s = true → namedSources (rq.u16 0) (rq.u8 2) = none →
    exec (.faultAck rq) s = .next (respond rq 0x1404 Status.outOfRange [] s) ∧
    exec (.faultClear rq) s = .next (respond rq 0x1405 Status.outOfRange [] s)) ∧
  (∀ (rq : Req) (s : State), served 0x1406 rq s = true → rq.u8 2 ≤ 15 →
    exec (.faultConfig rq) s = .next (respond rq 0x1406 Status.ok [] { s with flt := { s.flt with
      stopAxes := BitVec.ofNat 16 (rq.u16 0), stopHeaters := BitVec.ofNat 4 (rq.u8 2) } })) ∧
  (∀ (rq : Req) (s : State), served 0x1480 rq s = true → (faultClass (rq.u16 0)).isSome = true →
    ∃ r, r.source = rq.u16 0 ∧ r.time = s.time ∧ r.unit = none ∧ r.forced = true ∧
      exec (.faultForce rq) s = .next (respond rq 0x1480 Status.ok
        (leBytes 1 (escalate (rq.u16 0) r.cls (unacked s)).code ++ zeros 3) (presentFw 0x028A none 0 (recordRaise r s)))) ∧
  (∀ (rq : Req) (s : State), served 0x1402 rq s = true → (faultClass (rq.u16 0)).isSome = true →
    ∃ p, exec (.faultSourceRead rq) s = .next (respond rq 0x1402 Status.ok p s) ∧ p.length = 24 ∧
      leAt p 0 2 = rq.u16 0 ∧ leAt p 8 4 = (s.frec (rq.u16 0)).count.n ∧ leAt p 16 8 = (s.frec (rq.u16 0)).last.toNat) ∧
  (∀ (rq : Req) (s : State), served 0x1402 rq s = true → (faultClass (rq.u16 0)).isSome = false →
    exec (.faultSourceRead rq) s = .next (respond rq 0x1402 Status.outOfRange [] s) ∧
    exec (.faultForce rq) s = .next (respond rq 0x1480 Status.outOfRange [] s)) ∧
  (∀ (rq : Req) (s : State), served 0x1401 rq s = true →
    (∃ p, exec (.faultStatus rq) s = .next (respond rq 0x1401 Status.ok p s) ∧ p.length = 200 ∧
      leAt p 0 4 = s.flt.count.n) ∧
    (∃ p, exec (.faultLogRead rq) s = .next (respond rq 0x1403 Status.ok p s) ∧ leAt p 0 4 = s.flt.count.n ∧
      leAt p 8 1 = (logFrom FEntry.number (BitVec.ofNat 32 (rq.u32 0)) s.flt.log).length ∧ leAt p 8 1 ≤ 14)) ∧
  (∀ (core : Nat) (s : State), core ≤ 8 → s.held.getLsbD core = false → s.coreUp supervisorCore = true →
    exec (.heartbeatMissing core) s =
      .next (presentFw (0x0280 + core) (some core) 0 { s with held := s.held ||| (1#9 <<< core) })) ∧
  (∀ (core : Nat) (s : State), (8 < core ∨ s.held.getLsbD core = true ∨ s.coreUp supervisorCore = false) →
    exec (.heartbeatMissing core) s = .next s) ∧
  (∀ s : State, s.links.length = 24 →
    ∃ t, exec .supervisorWatchdogExpiry s = .next t ∧ (∀ l, l < s.nLinks → (t.link l).causes.getLsbD 0 = true) ∧
      t.flt.watched = false ∧ t.flt.toggling = false ∧ t.pwr.pullWdog = true ∧
      t.mci.resetAt = some (s.time + BitVec.ofNat 64 ticksPerMs) ∧ t.boot.latchedCause = 3) ∧
  (∀ s : State, s.timeRuns = true → s.time.toNat + 2000000 < 2 ^ 64 →
    ∃ t, exec .aliveToggle s = .next t ∧ t.time.toNat % 800000 = 0 ∧ s.time.toNat ≤ t.time.toNat ∧
      s.flt.aliveAt ≠ some t.time ∧
      (aliveOk s = true → t.flt = { s.flt with alive := !s.flt.alive, aliveAt := some t.time, toggling := true }) ∧
      (aliveOk s = false → t.flt = s.flt))

/-! ### One-time-programmable memory (spec/22_otp.md) -/

/-- R475, R484: a word of a burn that has been programmed reads its old bits and the new ones, and no other word
changes; with no burn in progress nothing is programmed. R477 to R490 and the commands of group 0x15: a burn, a finalise
and a strengthening are accepted where nothing forbids them, a burn of a locked region or one that would clear a bit is
turned away; a shadow entry is written unless it names a locked region; the check at the start judges the regions once;
the reads give the words. -/
def Obligations.OtpIsReadAndBurned : Prop :=
  (∀ (r : BurnRead) (b : Burn) (w : Nat) (v : BitVec 32) (rest : List (Nat × BitVec 32)) (s : State),
    s.coreUp supervisorCore = true → s.otp.burn = some b → b.todo = (w, v) :: rest →
    ∃ t, exec (.otpBurnWordDone r) s = .next t ∧ otpRaw t 0 w = otpRaw s 0 w ||| r.normal ∧
      t.time = (s.waitFrom b.wordAt ((if r.again then 536 else 274) * (ticksPerMs / 1000))).time ∧
      (∀ p, p ≠ otpPlace s w → otpCell t p = otpCell s p)) ∧
  (∀ (r : BurnRead) (s : State), (s.otp.burn = none ∨ s.coreUp supervisorCore = false) →
    exec (.otpBurnWordDone r) s = .next s) ∧
  (∀ (rq : Req) (s : State), served 0x1503 rq s = true →
    let w := rq.u16 4
    let n := rq.u8 6
    rq.u32 0 = 0x4255524E → 1 ≤ n → n ≤ 16 → w + n ≤ 2048 → otpRegion (w + n - 1) = otpRegion w →
    (∀ p ∈ burnWords rq, p.1 < otpLockWord (otpRegion p.1)) → s.otp.burn = none → otpWindow s = true →
    (otpLocked s (otpRegion w) = true → exec (.otpBurn rq) s = .next (respond rq 0x1503 0x9501 [] s)) ∧
    (otpLocked s (otpRegion w) = false → (∃ p ∈ burnWords rq, otpRaw s 0 p.1 &&& ~~~p.2 ≠ 0) →
      exec (.otpBurn rq) s = .next (respond rq 0x1503 0x9502 [] s)) ∧
    (otpLocked s (otpRegion w) = false → (∀ p ∈ burnWords rq, otpRaw s 0 p.1 &&& ~~~p.2 = 0) →
      ∃ b, exec (.otpBurn rq) s =
          .next (accept rq 0x1503 [] { s with otp := { s.otp with burn := some b, windowLeft := false } }) ∧
        b.todo = burnWords rq ∧ b.ctx = rq.ctx s 0x1503 ∧ b.region = otpRegion w)) ∧
  (∀ (rq : Req) (s : State), served 0x1504 rq s = true →
    let r := rq.u8 4
    r < 8 → rq.u32 0 = 0x4C4F434B → s.otp.burn = none → otpLocked s r = false → otpHeaderOk s 0 r = true →
    s.otp.en = 0 → otpWindow s = true → (∀ p ∈ digestWords r (otpDigest s 0 r), otpRaw s 0 p.1 &&& ~~~p.2 = 0) →
    ∃ b, exec (.otpFinalise rq) s =
        .next (accept rq 0x1504 [] { s with otp := { s.otp with burn := some b, windowLeft := false } }) ∧
      b.todo = digestWords r (otpDigest s 0 r) ++ [(otpLockWord r, 0xFFFFFFFF)] ∧ b.digest = otpDigest s 0 r) ∧
  (∀ (rq : Req) (s : State), served 0x1505 rq s = true → rq.u8 0 < 8 → s.otp.burn = none →
    otpState s (rq.u8 0) ≠ .invalid → otpWindow s = true →
    (strengthenWords s (rq.u8 0) ≠ [] →
      ∃ b, exec (.otpStrengthen rq) s =
          .next (accept rq 0x1505 [] { s with otp := { s.otp with burn := some b, windowLeft := false } }) ∧
        b.todo = strengthenWords s (rq.u8 0)) ∧
    (strengthenWords s (rq.u8 0) = [] →
      ∃ t, exec (.otpStrengthen rq) s = .next t ∧ t.otp = { s.otp with windowLeft := false })) ∧
  (∀ (rq : Req) (s : State), served 0x1502 rq s = true → 1 ≤ rq.u8 2 → rq.u8 2 ≤ 32 → rq.u16 0 + rq.u8 2 ≤ 2048 →
    ∃ p, exec (.otpRead rq) s = .next (respond rq 0x1502 Status.ok p s) ∧ p.length = 8 + 4 * rq.u8 2 ∧
      ∀ k, k < rq.u8 2 → leAt p (8 + 4 * k) 4 = (otpReadWord s (rq.u16 0 + k)).toNat) ∧
  (∀ (rq : Req) (s : State), served 0x1580 rq s = true → 1 ≤ rq.u8 2 → rq.u8 2 ≤ 32 → rq.u16 0 + rq.u8 2 ≤ 2048 →
    rq.u8 3 ≤ 2 → rq.u8 3 ≠ 1 →
    rq.u8 4 ≤ 2 → (s.part = .vm96 → rq.u8 4 = 0) →
    ∃ p, exec (.otpMarginRead rq) s = .next (respond rq 0x1580 Status.ok p s) ∧ p.length = 4 * rq.u8 2 ∧
      ∀ k, k < rq.u8 2 → leAt p (4 * k) 4 =
        ((otpCell s (otpPlace s (rq.u16 0 + k))).read (rq.u8 3) (rq.u8 4)).toNat) ∧
  (∀ (rq : Req) (s : State), served 0x1580 rq s = true → 1 ≤ rq.u8 2 → rq.u8 2 ≤ 32 → rq.u16 0 + rq.u8 2 ≤ 2048 →
    rq.u8 3 = 1 → rq.u8 4 = 0 →
    ∃ t p, exec (.otpMarginRead rq) s = .next (respond rq 0x1580 Status.ok p t) ∧ t.otp.words = s.otp.words ∧
      (∀ k, k < rq.u8 2 → otpMargin s (rq.u16 0 + k) = true → rq.u16 0 + k ∈ t.otp.weak)) ∧
  (∀ (rq : Req) (s : State), served 0x1501 rq s = true →
    ∃ p, exec (.otpStatus rq) s = .next (respond rq 0x1501 Status.ok p s) ∧ p.length = 72 ∧
    (∀ r, r < 8 → leAt p (8 * r) 1 = (otpState s r).num) ∧ leAt p 64 4 = s.otp.burned.n) ∧
  (∀ (rq : Req) (s : State), served 0x1506 rq s = true → rq.u8 0 % 4 = 0 → 1 ≤ rq.u8 1 → rq.u8 1 ≤ 16 →
    rq.u8 0 + 4 * rq.u8 1 ≤ 0xC0 →
    ∃ p, exec (.otpShadowRead rq) s = .next (respond rq 0x1506 Status.ok p s) ∧ p.length = 4 * rq.u8 1) ∧
  (∀ (rq : Req) (s : State), served 0x1507 rq s = true → rq.u8 0 % 4 = 0 → rq.u8 0 < 0xC0 →
    exec (.otpShadowWrite rq) s = .next
      (if shadowForbidden s (shadowWrite s.otp (rq.u8 0) (rq.u32 4)) then respond rq 0x1507 0x9501 [] s
       else respond rq 0x1507 Status.ok [] { s with otp := shadowWrite s.otp (rq.u8 0) (rq.u32 4) })) ∧
  (∀ s : State, s.timeRuns = true → s.mci.st = .reset → s.otp.checked = false →
    ∃ t, exec .otpStartupCheckDone s = .next t ∧ t.otp.checked = true ∧ t.otp.words = s.otp.words ∧
      t.otp.found = (List.range 8).map (otpCheckRegion s) ∧ (∀ w, w ∈ t.otp.weak ↔ w < 2048 ∧ otpMargin s w = true) ∧
      { t with otp := s.otp, flt := s.flt } = s.advanceTo (otpCheckMicros s * (ticksPerMs / 1000))) ∧
  (∀ s : State, (s.timeRuns = false ∨ s.mci.st ≠ .reset ∨ s.otp.checked = true) →
    exec .otpStartupCheckDone s = .next s)

/-! ### Counters (spec/24_counters_limits.md) -/

/-- R505, R506, R510: a count saturates at 2^32 − 1 and its overflow bit stays; counters.clear answers the number of counts
and maxima it zeroes, and afterwards none of those it names is left; it touches no log and no record. -/
def Obligations.CountersSaturateAndClear : Prop :=
  (∀ (c : Count) (k : Nat), (c.add k).n = min (c.n + k) (2 ^ 32 - 1) ∧ (c.ovf = true → (c.add k).ovf = true) ∧
    (2 ^ 32 - 1 < c.n + k → 0 < k → (c.add k).ovf = true)) ∧
  (∀ (rq : Req) (s : State), served 0x1702 rq s = true → 2 ≤ rq.u8 0 → rq.u8 0 ≤ 0x13 → unitNamed s (rq.u8 0) (rq.u8 1) = true →
    exec (.countersClear rq) s = .next (respond rq 0x1702 Status.ok
      (leBytes 4 (held (countsOf s (rq.u8 0) (rq.u8 1)) + heldMax (maximaOf s (rq.u8 0) (rq.u8 1))))
      (clearCounts (rq.u8 0) (rq.u8 1) s))) ∧
  (∀ (g u : Nat) (s : State),
    let t := clearCounts g u s
    held (countsOf t g u) = 0 ∧ heldMax (maximaOf t g u) = 0 ∧ t.mci = s.mci ∧ t.flt = s.flt ∧ t.otp = s.otp ∧
      t.lag.log = s.lag.log ∧ t.dram.log = s.dram.log ∧ t.time = s.time) ∧
  (∀ (rq : Req) (s : State), served 0x1702 rq s = true → (rq.u8 0 < 2 ∨ 0x13 < rq.u8 0) →
    exec (.countersClear rq) s = .next (respond rq 0x1702 Status.badValue [] s)) ∧
  (∀ (rq : Req) (s : State), served 0x1701 rq s = true →
    ∃ p, exec (.countersOverflowRead rq) s = .next (respond rq 0x1701 Status.ok p s) ∧
    p.length = 8 ∧ leAt p 0 4 = overflowGroups s)

/-! ### Whole-machine rules -/

/-- Every step, from every state that meets the invariant and not only on runs from reset: whatever command is at the front
of the queue, or with none, the step answers a next state, in which every table has its size (spec/02_mailboxes.md to
spec/23_startup.md), the logs, rings and queues keep the bounds of R61, R73, R301, R311, R323, R333, R337, R357 and R472,
the memories are in canonical form, and of the queue only the command at its front has gone. And every command, whatever its
form and its operands and in whatever state it is run, completes: exec answers a next state, with the queue and the part of
the device as they were. -/
def Obligations.EveryStepKeepsTheInvariant : Prop :=
  (∀ s : State, Safety.Inv s →
    ∃ t, step s = .next t ∧ Safety.Inv t ∧ t.part = s.part ∧ t.pending = s.pending.tail) ∧
  (∀ (i : Instr) (s : State), ∃ t, Sys2Proof.Machine.exec i s = .next t ∧ t.pending = s.pending ∧ t.part = s.part)

/-- R475: no command, no reset and no idle tick of any state takes a bit of the OTP array away: a bit that reads 1 at a
reference, in the OR of its copies, reads 1 at that reference after the step. -/
def Obligations.NoStepClearsAnOtpBit : Prop :=
  ∀ s : State, ∃ t, step s = .next t ∧ ∀ p ref, (otpCell s p).read ref 0 &&& ~~~(otpCell t p).read ref 0 = 0

/-- The state after reset meets the invariant of every step, and no command waits in it. -/
def Obligations.ResetMeetsTheInvariant : Prop := Safety.Inv State.reset ∧ State.reset.pending = []
end

