-- ==== Sys2Proof/Laws/Memory.lean ====
section
/-!
SUPPORT. The canonical cell lists: every operation keeps their form, and a read after a write gives the byte written where
it was written and the old byte anywhere else.
-/
namespace Sys2Proof.Machine

open Sys2Proof

theorem cellCons_wf (d : Byte) (a : Nat) (b : Byte) (m : List Host.Cell) (h : cellsWf d m = true) (ha : ∀ c ∈ m.head?, a < c.1) :
    cellsWf d (cellCons d a b m) = true := by
  unfold cellCons
  split
  · exact h
  · cases m with
    | nil => simpa [cellsWf]
    | cons c m => simp_all [cellsWf]

theorem cellsWf_tail {d : Byte} {c : Host.Cell} {m : List Host.Cell} (h : cellsWf d (c :: m) = true) :
    c.2 ≠ d ∧ (∀ e ∈ m.head?, c.1 < e.1) ∧ cellsWf d m = true := by
  cases m <;> simp_all [cellsWf]

theorem cellsWf_cons {d : Byte} {c : Host.Cell} {m : List Host.Cell} (h1 : c.2 ≠ d) (h2 : ∀ e ∈ m.head?, c.1 < e.1)
    (h3 : cellsWf d m = true) : cellsWf d (c :: m) = true := by
  cases m <;> simp_all [cellsWf]

theorem cellsWf_all {d : Byte} {c : Host.Cell} {m : List Host.Cell} (h : cellsWf d (c :: m) = true) : ∀ e ∈ m, c.1 < e.1 := by
  induction m generalizing c with
  | nil => simp
  | cons e m ih =>
    have := cellsWf_tail h
    intro x hx
    rcases List.mem_cons.1 hx with rfl | hx
    · exact this.2.1 x (by simp)
    · exact Nat.lt_trans (this.2.1 e (by simp)) (ih this.2.2 x hx)

theorem cellCons_head (d : Byte) (a : Nat) (b : Byte) (m : List Host.Cell) (k : Nat) (h : k < a) (hm : ∀ c ∈ m.head?, k < c.1) :
    ∀ c ∈ (cellCons d a b m).head?, k < c.1 := by
  unfold cellCons; split <;> simp_all

theorem cellSet_head (d : Byte) (m : List Host.Cell) (a : Nat) (b : Byte) (k : Nat) (h : k < a) (hw : cellsWf d m = true)
    (hm : ∀ c ∈ m.head?, k < c.1) : ∀ c ∈ (cellSet d m a b).head?, k < c.1 := by
  cases m with
  | nil => exact cellCons_head _ _ _ _ _ h (by simp)
  | cons c m =>
    have := cellsWf_tail hw
    simp only [cellSet]
    have hc : k < c.1 := hm c (by simp)
    split
    · exact cellCons_head _ _ _ _ _ h (by simpa)
    · split
      · exact cellCons_head _ _ _ _ _ h (fun e he => Nat.lt_trans hc (this.2.1 e he))
      · simpa

@[simp] theorem cellSet_wf (d : Byte) (m : List Host.Cell) (a : Nat) (b : Byte) (h : cellsWf d m = true) :
    cellsWf d (cellSet d m a b) = true := by
  induction m with
  | nil => exact cellCons_wf _ _ _ _ h (by simp)
  | cons c m ih =>
    have := cellsWf_tail h
    simp only [cellSet]
    split
    · exact cellCons_wf _ _ _ _ h (by simpa)
    · split
      · rename_i h1 h2; subst h2; exact cellCons_wf _ _ _ _ this.2.2 this.2.1
      · exact cellsWf_cons this.1 (cellSet_head _ _ _ _ _ (by omega) this.2.2 this.2.1) (ih this.2.2)

@[simp] theorem cellsSet_wf (d : Byte) (bs : List Byte) : ∀ (m : List Host.Cell) (a : Nat) (_ : cellsWf d m = true),
    cellsWf d (cellsSet d m a bs) = true := by
  induction bs with
  | nil => intro m a h; exact h
  | cons b bs ih => intro m a h; exact ih _ _ (cellSet_wf _ _ _ _ h)


theorem cellsWf_filter (d : Byte) (m : List Host.Cell) (p : Host.Cell → Bool) (h : cellsWf d m = true) : cellsWf d (m.filter p) = true := by
  induction m with
  | nil => rfl
  | cons c m ih =>
    have g := cellsWf_tail h
    have g2 := cellsWf_all h
    rw [List.filter_cons]
    split
    · refine cellsWf_cons g.1 (fun e he => g2 e ?_) (ih g.2.2)
      exact (List.mem_filter.1 (List.mem_of_mem_head? he)).1
    · exact ih g.2.2

/-! ### Reads after writes -/

theorem cellGet_low (d : Byte) (m : List Host.Cell) (a : Nat) (h : ∀ c ∈ m.head?, a < c.1) : cellGet d m a = d := by
  cases m with
  | nil => rfl
  | cons c m =>
    have hc : a < c.1 := h c (by simp)
    rw [cellGet, if_neg (by omega), if_pos hc]

theorem cellGet_cons (d : Byte) (a x : Nat) (b : Byte) (m : List Host.Cell) (h : ∀ c ∈ m.head?, a < c.1) :
    cellGet d (cellCons d a b m) x = if x = a then b else cellGet d m x := by
  unfold cellCons
  by_cases hb : b = d
  · rw [if_pos hb]
    by_cases hx : x = a
    · rw [if_pos hx, hx, cellGet_low d m a h, hb]
    · rw [if_neg hx]
  · rw [if_neg hb, cellGet]
    by_cases hx : x = a
    · rw [if_pos hx, if_pos hx]
    · rw [if_neg hx, if_neg hx]
      split
      · exact (cellGet_low d m x fun c hc => Nat.lt_trans ‹_› (h c hc)).symm
      · rfl

/-- A byte written is the byte read at its address, and every other address reads as before. -/
theorem cellGet_cellSet (d : Byte) (m : List Host.Cell) (a x : Nat) (b : Byte) (h : cellsWf d m = true) :
    cellGet d (cellSet d m a b) x = if x = a then b else cellGet d m x := by
  induction m with
  | nil => exact cellGet_cons d a x b [] (by simp)
  | cons c m ih =>
    have hw := cellsWf_tail h
    rw [cellSet]
    split
    · exact cellGet_cons d a x b (c :: m) (by simpa)
    · split
      · rename_i h1 h2
        subst h2
        rw [cellGet_cons d c.1 x b m hw.2.1, cellGet]
        split
        · rfl
        · split
          · exact cellGet_low d m x fun e he => Nat.lt_trans ‹_› (hw.2.1 e he)
          · rfl
      · rename_i h1 h2
        rw [cellGet, ih hw.2.2, cellGet]
        split
        · rw [if_neg (by omega)]
        · split
          · rw [if_neg (by omega)]
          · rfl

/-- Bytes written from an address on: those addresses read them, and every other address reads as before. -/
theorem cellGet_cellsSet (d : Byte) (bs : List Byte) (m : List Host.Cell) (a x : Nat) (h : cellsWf d m = true) :
    cellGet d (cellsSet d m a bs) x = if a ≤ x ∧ x < a + bs.length then at' bs (x - a) d else cellGet d m x := by
  induction bs generalizing m a with
  | nil => rw [cellsSet, if_neg (by rw [List.length_nil]; omega)]
  | cons b bs ih =>
    rw [cellsSet, ih _ _ (cellSet_wf d m a b h), cellGet_cellSet d m a x b h]
    by_cases hx : x = a
    · subst hx
      rw [if_neg (by omega), if_pos rfl, if_pos (by rw [List.length_cons]; omega), Nat.sub_self]
      rfl
    · rw [if_neg hx]
      by_cases hr : a + 1 ≤ x ∧ x < a + 1 + bs.length
      · rw [if_pos hr, if_pos (by rw [List.length_cons]; omega)]
        obtain ⟨k, rfl⟩ : ∃ k, x = a + 1 + k := ⟨x - (a + 1), by omega⟩
        have e1 : a + 1 + k - (a + 1) = k := by omega
        have e2 : a + 1 + k - a = k + 1 := by omega
        rw [e1, e2]
        rfl
      · rw [if_neg hr, if_neg (by rw [List.length_cons]; omega)]

end Sys2Proof.Machine
end

