-- ==== Sys2Proof/Laws/Word.lean ====
section
/-!
SUPPORT. Lemmas on tables, byte lists and the fields of a record.
-/
namespace Sys2Proof.Machine

open Sys2Proof

/-! ### Tables -/

@[simp] theorem length_modAt {α : Type} (l : List α) (i : Nat) (f : α → α) : (modAt l i f).length = l.length := by
  induction l generalizing i with
  | nil => simp [modAt]
  | cons x xs ih => cases i <;> simp [modAt, ih]

theorem at'_modAt {α : Type} (l : List α) (i j : Nat) (f : α → α) (d : α) :
    at' (modAt l i f) j d = if i = j ∧ j < l.length then f (at' l j d) else at' l j d := by
  induction l generalizing i j with
  | nil => simp [modAt, at']
  | cons x xs ih =>
    cases i <;> cases j <;> simp_all [modAt, at']

theorem at'_modAt_same {α : Type} (l : List α) (i : Nat) (f : α → α) (d : α) (h : i < l.length) :
    at' (modAt l i f) i d = f (at' l i d) := by simp [at'_modAt, h]

@[simp] theorem at'_modAt_ne {α : Type} (l : List α) (i j : Nat) (f : α → α) (d : α) (h : i ≠ j) :
    at' (modAt l i f) j d = at' l j d := by simp [at'_modAt, h]

@[simp] theorem length_mapIdxFrom {α β : Type} (f : Nat → α → β) (k : Nat) (l : List α) :
    (mapIdxFrom f k l).length = l.length := by
  induction l generalizing k with
  | nil => rfl
  | cons x xs ih => simp [mapIdxFrom, ih]

@[simp] theorem length_mapIx {α β : Type} (f : Nat → α → β) (l : List α) : (mapIx f l).length = l.length :=
  length_mapIdxFrom f 0 l

theorem at'_mapIdxFrom {α β : Type} (f : Nat → α → β) (k : Nat) (l : List α) (i : Nat) (a : α) (b : β)
    (h : i < l.length) : at' (mapIdxFrom f k l) i b = f (k + i) (at' l i a) := by
  induction l generalizing k i with
  | nil => simp at h
  | cons x xs ih =>
    cases i with
    | zero => simp [mapIdxFrom, at']
    | succ i =>
      have := ih (k + 1) i (by simpa using h)
      simp only [mapIdxFrom, at', List.getD_cons_succ] at this ⊢
      rw [this]; congr 1; omega

theorem at'_mapIx {α β : Type} (f : Nat → α → β) (l : List α) (i : Nat) (a : α) (b : β) (h : i < l.length) :
    at' (mapIx f l) i b = f i (at' l i a) := by
  have := at'_mapIdxFrom f 0 l i a b h
  rwa [Nat.zero_add] at this

/-! ### Byte lists -/

@[simp] theorem length_leBytes (n v : Nat) : (leBytes n v).length = n := by
  induction n generalizing v with
  | zero => rfl
  | succ n ih => simp [leBytes, ih]

@[simp] theorem length_leBytesI (n : Nat) (v : Int) : (leBytesI n v).length = n := length_leBytes n _

@[simp] theorem length_zeros (n : Nat) : (zeros n).length = n := List.length_replicate ..

@[simp] theorem length_freeBytes (k n : Nat) : (freeBytes k n).length = n := by
  induction n generalizing k with
  | zero => rfl
  | succ n ih => simp [freeBytes, ih]

@[simp] theorem length_count_bytes (c : Count) : c.bytes.length = 4 := length_leBytes 4 _

@[simp] theorem length_cellsGet (d : Byte) (m : List Host.Cell) (a n : Nat) : (cellsGet d m a n).length = n := by
  induction n generalizing a with
  | zero => rfl
  | succ n ih => simp [cellsGet, ih]

/-- The number that `leBytes` spells: its value modulo its width (R12). -/
theorem ofLe_leBytes (n v : Nat) : ofLe (leBytes n v) = v % 256 ^ n := by
  induction n generalizing v with
  | zero => simp [leBytes, ofLe, Nat.mod_one]
  | succ n ih =>
    simp only [leBytes, ofLe, ih, BitVec.toNat_ofNat]
    rw [show 256 ^ (n + 1) = 256 * 256 ^ n from Nat.pow_succ', Nat.mod_mul]

theorem leAt_left (a b : List Byte) (o n : Nat) (h : o + n ≤ a.length) : leAt (a ++ b) o n = leAt a o n := by
  unfold leAt
  have : n - (a.length - o) = 0 := by omega
  simp [List.drop_append, List.take_append, this]

theorem leAt_right (a b : List Byte) (o n : Nat) (h : a.length ≤ o) : leAt (a ++ b) o n = leAt b (o - a.length) n := by
  unfold leAt
  rw [List.drop_append, List.drop_eq_nil_of_le h]
  simp

theorem leAt_leBytes (n v : Nat) : leAt (leBytes n v) 0 n = v % 256 ^ n := by
  unfold leAt
  simp [List.take_of_length_le, ofLe_leBytes]

theorem leAt_count (c : Count) : leAt c.bytes 0 4 = c.n := by
  unfold Count.bytes
  rw [leAt_leBytes]
  exact Nat.mod_eq_of_lt (by unfold Count.n; have := c.val.isLt; omega)

end Sys2Proof.Machine
end

