-- ==== Sys2Proof/Laws/Keeps.lean ====
section
/-!
SUPPORT. What an operation keeps: the queue, the part, the OTP bits and the invariant of Safety.lean, with one rule per
kind of update of a table, a log, a memory, a unit and the state.
-/
namespace Sys2Proof.Machine

open Sys2Proof Sys2Proof.Safety

/-- A table that had `n` entries has `n`. -/
def LenUpd {α : Type} (n : Nat) (a b : List α) : Prop := a.length = n → b.length = n
/-- A list that had at most `n` entries has at most `n`. -/
def LeUpd {α : Type} (n : Nat) (a b : List α) : Prop := a.length ≤ n → b.length ≤ n
/-- A memory that was in canonical form is in canonical form. -/
def WfUpd (d : Byte) (a b : List Host.Cell) : Prop := cellsWf d a = true → cellsWf d b = true
/-- What held of a unit holds of it. -/
def Upd {α : Type} (P : α → Prop) (a b : α) : Prop := P a → P b

@[simp ↓] theorem lenUpd_self {α : Type} (n) (a : List α) : LenUpd n a a := id

@[simp ↓] theorem lenUpd_modAt {α : Type} (n) (a b : List α) (i f) (h : LenUpd n a b) : LenUpd n a (modAt b i f) := fun g => by rw [length_modAt]; exact h g

@[simp ↓] theorem lenUpd_mapIx {α : Type} (n) (a b : List α) (f : Nat → α → α) (h : LenUpd n a b) : LenUpd n a (mapIx f b) := fun g => by rw [length_mapIx]; exact h g

@[simp ↓] theorem lenUpd_map {α β : Type} (n) (a : List α) (b : List β) (f : β → α) (h : b.length = n) : LenUpd n a (b.map f) := fun g => by rw [List.length_map]; exact h

@[simp ↓ 1100] theorem lenUpd_map' {α : Type} (n) (a b : List α) (f : α → α) (h : LenUpd n a b) : LenUpd n a (b.map f) := fun g => by rw [List.length_map]; exact h g

@[simp ↓] theorem lenUpd_replicate {α : Type} (n) (a : List α) (x) : LenUpd n a (List.replicate n x) := fun _ => List.length_replicate ..

@[simp ↓] theorem lenUpd_ite {α : Type} (n) (a b c : List α) (p : Prop) [Decidable p] (hb : LenUpd n a b) (hc : LenUpd n a c) :
    LenUpd n a (if p then b else c) := by split <;> assumption

@[simp ↓] theorem lenUpd_zipWith {α β : Type} (n) (a : List α) (b : List β) (c : List α) (f : β → α → α) (h : LenUpd n a c) (hb : b.length = n) :
    LenUpd n a (List.zipWith f b c) := fun g => by rw [List.length_zipWith, hb, h g, Nat.min_self]

@[simp ↓] theorem lenUpd_foldl {α β : Type} (n) (a b : List α) (l : List β) (f : List α → β → List α) (h : LenUpd n a b)
    (hf : ∀ b x, LenUpd n b (f b x)) : LenUpd n a (l.foldl f b) := fun g => by
  have := h g
  clear h g
  induction l generalizing b with
  | nil => exact this
  | cons x l ih => exact ih _ (hf _ _ this)

@[simp ↓ 100] theorem lenUpd_of_length {α : Type} (n) (a b : List α) (h : b.length = n) : LenUpd n a b := fun _ => h

@[simp ↓] theorem leUpd_self {α : Type} (n) (a : List α) : LeUpd n a a := id

@[simp ↓] theorem leUpd_nil {α : Type} (n) (a : List α) : LeUpd n a [] := fun _ => Nat.zero_le _

@[simp ↓] theorem leUpd_filter {α : Type} (n) (a b : List α) (p) (h : LeUpd n a b) : LeUpd n a (b.filter p) := fun g => Nat.le_trans (List.length_filter_le _ _) (h g)

@[simp ↓] theorem leUpd_erase {α : Type} [BEq α] (n) (a b : List α) (x) (h : LeUpd n a b) : LeUpd n a (b.erase x) := fun g => Nat.le_trans List.length_erase_le (h g)

@[simp ↓] theorem leUpd_drop {α : Type} (n) (a b : List α) (k) (h : LeUpd n a b) : LeUpd n a (b.drop k) := fun g => by rw [List.length_drop]; have := h g; omega

@[simp ↓] theorem leUpd_map {α : Type} (n) (a b : List α) (f : α → α) (h : LeUpd n a b) : LeUpd n a (b.map f) := fun g => by rw [List.length_map]; exact h g

@[simp ↓] theorem leUpd_tail {α : Type} (n) (a b : List α) (h : LeUpd n a b) : LeUpd n a b.tail := fun g => by rw [List.length_tail]; have := h g; omega

@[simp ↓] theorem leUpd_lastN {α : Type} (n) (a b : List α) : LeUpd n a (lastN n b) := fun _ => by unfold lastN; rw [List.length_drop]; omega

@[simp ↓ 1100] theorem leUpd_full {α : Type} (n) (a : List α) (e) : LeUpd n a (if n ≤ a.length then a else a ++ [e]) := fun g => by
  split
  · exact g
  · rw [List.length_append, List.length_singleton]; omega

@[simp ↓ 1100] theorem leUpd_less {α : Type} (n) (a : List α) (e) : LeUpd n a (if a.length < n then a ++ [e] else a) := fun g => by
  split
  · rw [List.length_append, List.length_singleton]; omega
  · exact g

@[simp ↓] theorem leUpd_push {α : Type} (n) (a : List α) (e) (h : a.length < n) : LeUpd n a (a ++ [e]) := fun g => by
  rw [List.length_append, List.length_singleton]; omega

@[simp ↓] theorem leUpd_ite {α : Type} (n) (a b c : List α) (p : Prop) [Decidable p] (hb : LeUpd n a b) (hc : LeUpd n a c) :
    LeUpd n a (if p then b else c) := by split <;> simp_all

@[simp ↓] theorem wfUpd_self (d a) : WfUpd d a a := id

@[simp ↓] theorem wfUpd_nil (d a) : WfUpd d a [] := fun _ => rfl

@[simp ↓] theorem wfUpd_cellSet (d a b x y) (h : WfUpd d a b) : WfUpd d a (cellSet d b x y) := fun g => cellSet_wf _ _ _ _ (h g)

@[simp ↓] theorem wfUpd_cellsSet (d a b x y) (h : WfUpd d a b) : WfUpd d a (cellsSet d b x y) := fun g => cellsSet_wf _ _ _ _ (h g)

@[simp ↓] theorem wfUpd_foldl {β : Type} (d a b) (l : List β) (f : List Host.Cell → β → List Host.Cell) (h : WfUpd d a b)
    (hf : ∀ b x, WfUpd d b (f b x)) : WfUpd d a (l.foldl f b) := fun g => by
  have := h g
  clear h g
  induction l generalizing b with
  | nil => exact this
  | cons x l ih => exact ih _ (hf _ _ this)

@[simp ↓] theorem wfUpd_filter (d a b p) (h : WfUpd d a b) : WfUpd d a (b.filter p) := fun g => cellsWf_filter _ _ _ (h g)

@[simp ↓] theorem wfUpd_ite (d a b c) (p : Prop) [Decidable p] (hb : WfUpd d a b) (hc : WfUpd d a c) : WfUpd d a (if p then b else c) := by split <;> assumption

@[simp ↓] theorem upd_self {α : Type} (P : α → Prop) (a) : Upd P a a := id

@[simp ↓] theorem upd_ite {α : Type} (P : α → Prop) (a b c) (p : Prop) [Decidable p] (hb : Upd P a b) (hc : Upd P a c) : Upd P a (if p then b else c) := by
  split <;> simp_all

@[simp ↓] theorem upd_foldl {α β : Type} (P : α → Prop) (a b) (l : List β) (f : α → β → α) (h : Upd P a b) (hf : ∀ b x, Upd P b (f b x)) : Upd P a (l.foldl f b) := fun g => by
  have := h g
  clear h g
  induction l generalizing b with
  | nil => exact this
  | cons x l ih => exact ih _ (hf _ _ this)

/-- The word of a physical place, as `otpCell` finds it. -/
def cellOf (ws : List OtpWord) (p : Nat) : OtpWord := (ws.find? fun c => c.row = p).getD ⟨p, 0, 0, 0, 0, 0, 0⟩
/-- No bit that reads 1 has come to read 0 (R475). -/
def OtpLe (x y : Otp) : Prop := ∀ p ref, (cellOf x.words p).read ref 0 &&& ~~~(cellOf y.words p).read ref 0 = 0
/-- No OTP bit is lost and the form of the words stays. -/
def OtpUpd (x y : Otp) : Prop := OtpLe x y ∧ (otpWordsWf x.words = true → otpWordsWf y.words = true)

theorem OtpLe.refl (x) : OtpLe x x := fun p ref => by simp

theorem OtpLe.trans {x y z} (h : OtpLe x y) (g : OtpLe y z) : OtpLe x z := fun p ref => by
  have h := h p ref
  have g := g p ref
  generalize (cellOf x.words p).read ref 0 = a at h
  generalize (cellOf y.words p).read ref 0 = b at h g
  generalize (cellOf z.words p).read ref 0 = c at g
  ext i hi
  have h1 := congrArg (fun v => v.getLsbD i) h
  have g1 := congrArg (fun v => v.getLsbD i) g
  simp [hi] at h1 g1 ⊢
  rcases ha : a[i] with _ | _ <;> rcases hb : b[i] with _ | _ <;> simp_all

@[simp ↓] theorem otpUpd_self (x) : OtpUpd x x := ⟨OtpLe.refl x, id⟩

@[simp ↓] theorem otpUpd_mk (x y : Otp) (a b c d e f g h i j k l) (hx : OtpUpd x y) : OtpUpd x (Otp.mk y.words a b c d e f g h i j k l) := hx

@[simp ↓] theorem otpUpd_ite (x a b) (p : Prop) [Decidable p] (ha : OtpUpd x a) (hb : OtpUpd x b) : OtpUpd x (if p then a else b) := by split <;> assumption
/-- What every operation keeps: the queue, the part, every OTP bit that is set, and the invariant. -/
def Keeps (a s : State) : Prop := s.pending = a.pending ∧ s.part = a.part ∧ OtpLe a.otp s.otp ∧ (Inv a → Inv s)

theorem mciUpd_mk (a : Mci) (mciMax inUse personality st irq boxes slots msix pba msixOn funcMask sent urgBusy urgDone urgLast urgReply spiRead dispatched sessLast events eventSeq eventDrops vlog vcount vnext abortedJobs helloSince era orphans heldCompletions resetAt)
  (h0 : LenUpd 8 a.boxes boxes) (h1 : LenUpd 64 a.msix msix) (h2 : LeUpd 64 a.vlog vlog) (h3 : LeUpd 256 a.events events) (h4 : WfUpd 0#8 a.slots slots) :
  Upd mciOk a (Mci.mk mciMax inUse personality st irq boxes slots msix pba msixOn funcMask sent urgBusy urgDone urgLast urgReply spiRead dispatched sessLast events eventSeq eventDrops vlog vcount vnext abortedJobs helloSince era orphans heldCompletions resetAt) := fun h => ⟨h0 h.1, h1 h.2.1, h2 h.2.2.1, h3 h.2.2.2.1, h4 h.2.2.2.2⟩

@[simp ↓ 900] theorem mciUpd_mk_self (a : Mci) (mciMax inUse personality st irq boxes slots msix pba msixOn funcMask sent urgBusy urgDone urgLast urgReply spiRead dispatched sessLast events eventSeq eventDrops vlog vcount vnext abortedJobs helloSince era orphans heldCompletions resetAt)
  (h0 : LenUpd 8 a.boxes boxes) (h1 : LenUpd 64 a.msix msix) (h2 : LeUpd 64 a.vlog vlog) (h3 : LeUpd 256 a.events events) (h4 : WfUpd 0#8 a.slots slots) :
  Upd mciOk a (Mci.mk mciMax inUse personality st irq boxes slots msix pba msixOn funcMask sent urgBusy urgDone urgLast urgReply spiRead dispatched sessLast events eventSeq eventDrops vlog vcount vnext abortedJobs helloSince era orphans heldCompletions resetAt) := fun h => ⟨h0 h.1, h1 h.2.1, h2 h.2.2.1, h3 h.2.2.2.1, h4 h.2.2.2.2⟩

@[simp ↓] theorem mciUpd_mk_mciMax (a b : Mci) (inUse personality st irq boxes slots msix pba msixOn funcMask sent urgBusy urgDone urgLast urgReply spiRead dispatched sessLast events eventSeq eventDrops vlog vcount vnext abortedJobs helloSince era orphans heldCompletions resetAt)
  (g : Upd mciOk a b) (h0 : LenUpd 8 b.boxes boxes) (h1 : LenUpd 64 b.msix msix) (h2 : LeUpd 64 b.vlog vlog) (h3 : LeUpd 256 b.events events) (h4 : WfUpd 0#8 b.slots slots) :
  Upd mciOk a (Mci.mk b.mciMax inUse personality st irq boxes slots msix pba msixOn funcMask sent urgBusy urgDone urgLast urgReply spiRead dispatched sessLast events eventSeq eventDrops vlog vcount vnext abortedJobs helloSince era orphans heldCompletions resetAt) := fun e => have h := g e; ⟨h0 h.1, h1 h.2.1, h2 h.2.2.1, h3 h.2.2.2.1, h4 h.2.2.2.2⟩

@[simp ↓] theorem mciUpd_mk_resetAt (a b : Mci) (mciMax inUse personality st irq boxes slots msix pba msixOn funcMask sent urgBusy urgDone urgLast urgReply spiRead dispatched sessLast events eventSeq eventDrops vlog vcount vnext abortedJobs helloSince era orphans heldCompletions)
  (g : Upd mciOk a b) (h0 : LenUpd 8 b.boxes boxes) (h1 : LenUpd 64 b.msix msix) (h2 : LeUpd 64 b.vlog vlog) (h3 : LeUpd 256 b.events events) (h4 : WfUpd 0#8 b.slots slots) :
  Upd mciOk a (Mci.mk mciMax inUse personality st irq boxes slots msix pba msixOn funcMask sent urgBusy urgDone urgLast urgReply spiRead dispatched sessLast events eventSeq eventDrops vlog vcount vnext abortedJobs helloSince era orphans heldCompletions b.resetAt) := fun e => have h := g e; ⟨h0 h.1, h1 h.2.1, h2 h.2.2.1, h3 h.2.2.2.1, h4 h.2.2.2.2⟩

@[simp ↓] theorem mciUpd_mk_spiRead (a b : Mci) (mciMax inUse personality st irq boxes slots msix pba msixOn funcMask sent urgBusy urgDone urgLast urgReply dispatched sessLast events eventSeq eventDrops vlog vcount vnext abortedJobs helloSince era orphans heldCompletions resetAt)
  (g : Upd mciOk a b) (h0 : LenUpd 8 b.boxes boxes) (h1 : LenUpd 64 b.msix msix) (h2 : LeUpd 64 b.vlog vlog) (h3 : LeUpd 256 b.events events) (h4 : WfUpd 0#8 b.slots slots) :
  Upd mciOk a (Mci.mk mciMax inUse personality st irq boxes slots msix pba msixOn funcMask sent urgBusy urgDone urgLast urgReply b.spiRead dispatched sessLast events eventSeq eventDrops vlog vcount vnext abortedJobs helloSince era orphans heldCompletions resetAt) := fun e => have h := g e; ⟨h0 h.1, h1 h.2.1, h2 h.2.2.1, h3 h.2.2.2.1, h4 h.2.2.2.2⟩

theorem forgeUpd_mk (a : Forge) (layer number program anchor startPhase zFocus fenceTimeout startAt ctx pausing abort gated terminal flags firstCommit lastHandoff vectors implicit unexecuted fencesPassed recoat programs strait straitNext unexecListed reassign retireCtx permitStrings permitDwell permitSince permitLost)
  (h0 : LenUpd 4 a.programs programs) :
  Upd forgeOk a (Forge.mk layer number program anchor startPhase zFocus fenceTimeout startAt ctx pausing abort gated terminal flags firstCommit lastHandoff vectors implicit unexecuted fencesPassed recoat programs strait straitNext unexecListed reassign retireCtx permitStrings permitDwell permitSince permitLost) := fun h => h0 h

@[simp ↓ 900] theorem forgeUpd_mk_self (a : Forge) (layer number program anchor startPhase zFocus fenceTimeout startAt ctx pausing abort gated terminal flags firstCommit lastHandoff vectors implicit unexecuted fencesPassed recoat programs strait straitNext unexecListed reassign retireCtx permitStrings permitDwell permitSince permitLost)
  (h0 : LenUpd 4 a.programs programs) :
  Upd forgeOk a (Forge.mk layer number program anchor startPhase zFocus fenceTimeout startAt ctx pausing abort gated terminal flags firstCommit lastHandoff vectors implicit unexecuted fencesPassed recoat programs strait straitNext unexecListed reassign retireCtx permitStrings permitDwell permitSince permitLost) := fun h => h0 h

@[simp ↓] theorem forgeUpd_mk_layer (a b : Forge) (number program anchor startPhase zFocus fenceTimeout startAt ctx pausing abort gated terminal flags firstCommit lastHandoff vectors implicit unexecuted fencesPassed recoat programs strait straitNext unexecListed reassign retireCtx permitStrings permitDwell permitSince permitLost)
  (g : Upd forgeOk a b) (h0 : LenUpd 4 b.programs programs) :
  Upd forgeOk a (Forge.mk b.layer number program anchor startPhase zFocus fenceTimeout startAt ctx pausing abort gated terminal flags firstCommit lastHandoff vectors implicit unexecuted fencesPassed recoat programs strait straitNext unexecListed reassign retireCtx permitStrings permitDwell permitSince permitLost) := fun e => have h := g e; h0 h

@[simp ↓] theorem forgeUpd_mk_permitLost (a b : Forge) (layer number program anchor startPhase zFocus fenceTimeout startAt ctx pausing abort gated terminal flags firstCommit lastHandoff vectors implicit unexecuted fencesPassed recoat programs strait straitNext unexecListed reassign retireCtx permitStrings permitDwell permitSince)
  (g : Upd forgeOk a b) (h0 : LenUpd 4 b.programs programs) :
  Upd forgeOk a (Forge.mk layer number program anchor startPhase zFocus fenceTimeout startAt ctx pausing abort gated terminal flags firstCommit lastHandoff vectors implicit unexecuted fencesPassed recoat programs strait straitNext unexecListed reassign retireCtx permitStrings permitDwell permitSince b.permitLost) := fun e => have h := g e; h0 h

@[simp ↓] theorem forgeUpd_mk_lastHandoff (a b : Forge) (layer number program anchor startPhase zFocus fenceTimeout startAt ctx pausing abort gated terminal flags firstCommit vectors implicit unexecuted fencesPassed recoat programs strait straitNext unexecListed reassign retireCtx permitStrings permitDwell permitSince permitLost)
  (g : Upd forgeOk a b) (h0 : LenUpd 4 b.programs programs) :
  Upd forgeOk a (Forge.mk layer number program anchor startPhase zFocus fenceTimeout startAt ctx pausing abort gated terminal flags firstCommit b.lastHandoff vectors implicit unexecuted fencesPassed recoat programs strait straitNext unexecListed reassign retireCtx permitStrings permitDwell permitSince permitLost) := fun e => have h := g e; h0 h

theorem engineUpd_mk (a : Engine) (loops groups repctls pdAt vars load varsBefore tick)
  (h0 : LenUpd 64 a.loops loops) (h1 : LenUpd 16 a.groups groups) (h2 : LenUpd 8 a.repctls repctls) (h3 : LenUpd 16 a.vars vars) :
  Upd engineOk a (Engine.mk loops groups repctls pdAt vars varsBefore tick load) := fun h => ⟨h0 h.1, h1 h.2.1, h2 h.2.2.1, h3 h.2.2.2⟩

@[simp ↓ 900] theorem engineUpd_mk_self (a : Engine) (loops groups repctls pdAt vars load varsBefore tick)
  (h0 : LenUpd 64 a.loops loops) (h1 : LenUpd 16 a.groups groups) (h2 : LenUpd 8 a.repctls repctls) (h3 : LenUpd 16 a.vars vars) :
  Upd engineOk a (Engine.mk loops groups repctls pdAt vars varsBefore tick load) := fun h => ⟨h0 h.1, h1 h.2.1, h2 h.2.2.1, h3 h.2.2.2⟩

@[simp ↓] theorem engineUpd_mk_pdAt (a b : Engine) (loops groups repctls vars load varsBefore tick)
  (g : Upd engineOk a b) (h0 : LenUpd 64 b.loops loops) (h1 : LenUpd 16 b.groups groups) (h2 : LenUpd 8 b.repctls repctls) (h3 : LenUpd 16 b.vars vars) :
  Upd engineOk a (Engine.mk loops groups repctls b.pdAt vars varsBefore tick load) := fun e => have h := g e; ⟨h0 h.1, h1 h.2.1, h2 h.2.2.1, h3 h.2.2.2⟩

@[simp ↓] theorem engineUpd_mk_load (a b : Engine) (loops groups repctls pdAt vars varsBefore tick)
  (g : Upd engineOk a b) (h0 : LenUpd 64 b.loops loops) (h1 : LenUpd 16 b.groups groups) (h2 : LenUpd 8 b.repctls repctls) (h3 : LenUpd 16 b.vars vars) :
  Upd engineOk a (Engine.mk loops groups repctls pdAt vars varsBefore tick b.load) := fun e => have h := g e; ⟨h0 h.1, h1 h.2.1, h2 h.2.2.1, h3 h.2.2.2⟩

theorem camUpd_mk (a : Cam) (ports streams busy served hstEn hstStream hstReady hstFlagged hstSkipped hstTotal hstBins)
  (h0 : LenUpd 4 a.ports ports) (h1 : LenUpd 16 a.streams streams) :
  Upd camOk a (Cam.mk ports streams busy served hstEn hstStream hstReady hstFlagged hstSkipped hstTotal hstBins) := fun h => ⟨h0 h.1, h1 h.2⟩

@[simp ↓ 900] theorem camUpd_mk_self (a : Cam) (ports streams busy served hstEn hstStream hstReady hstFlagged hstSkipped hstTotal hstBins)
  (h0 : LenUpd 4 a.ports ports) (h1 : LenUpd 16 a.streams streams) :
  Upd camOk a (Cam.mk ports streams busy served hstEn hstStream hstReady hstFlagged hstSkipped hstTotal hstBins) := fun h => ⟨h0 h.1, h1 h.2⟩

@[simp ↓] theorem camUpd_mk_busy (a b : Cam) (ports streams served hstEn hstStream hstReady hstFlagged hstSkipped hstTotal hstBins)
  (g : Upd camOk a b) (h0 : LenUpd 4 b.ports ports) (h1 : LenUpd 16 b.streams streams) :
  Upd camOk a (Cam.mk ports streams b.busy served hstEn hstStream hstReady hstFlagged hstSkipped hstTotal hstBins) := fun e => have h := g e; ⟨h0 h.1, h1 h.2⟩

@[simp ↓] theorem camUpd_mk_hstBins (a b : Cam) (ports streams busy served hstEn hstStream hstReady hstFlagged hstSkipped hstTotal)
  (g : Upd camOk a b) (h0 : LenUpd 4 b.ports ports) (h1 : LenUpd 16 b.streams streams) :
  Upd camOk a (Cam.mk ports streams busy served hstEn hstStream hstReady hstFlagged hstSkipped hstTotal b.hstBins) := fun e => have h := g e; ⟨h0 h.1, h1 h.2⟩

@[simp ↓] theorem camUpd_mk_hstReady (a b : Cam) (ports streams busy served hstEn hstStream hstFlagged hstSkipped hstTotal hstBins)
  (g : Upd camOk a b) (h0 : LenUpd 4 b.ports ports) (h1 : LenUpd 16 b.streams streams) :
  Upd camOk a (Cam.mk ports streams busy served hstEn hstStream b.hstReady hstFlagged hstSkipped hstTotal hstBins) := fun e => have h := g e; ⟨h0 h.1, h1 h.2⟩

theorem lagUpd_mk (a : Lag) (tiles data nextId waiting queued granted stalls stallRaised corrected uncorr lastUncorr fillOrder passes scrubbed log logOver logRead inject bad reads)
  (h0 : LeUpd 64 a.waiting waiting) (h1 : LeUpd 32 a.log log) (h2 : WfUpd 0#8 a.data data) :
  Upd lagOk a (Lag.mk tiles data nextId waiting queued granted stalls stallRaised corrected uncorr lastUncorr fillOrder passes scrubbed log logOver logRead inject bad reads) := fun h => ⟨h0 h.1, h1 h.2.1, h2 h.2.2⟩

@[simp ↓ 900] theorem lagUpd_mk_self (a : Lag) (tiles data nextId waiting queued granted stalls stallRaised corrected uncorr lastUncorr fillOrder passes scrubbed log logOver logRead inject bad reads)
  (h0 : LeUpd 64 a.waiting waiting) (h1 : LeUpd 32 a.log log) (h2 : WfUpd 0#8 a.data data) :
  Upd lagOk a (Lag.mk tiles data nextId waiting queued granted stalls stallRaised corrected uncorr lastUncorr fillOrder passes scrubbed log logOver logRead inject bad reads) := fun h => ⟨h0 h.1, h1 h.2.1, h2 h.2.2⟩

@[simp ↓] theorem lagUpd_mk_tiles (a b : Lag) (data nextId waiting queued granted stalls stallRaised corrected uncorr lastUncorr fillOrder passes scrubbed log logOver logRead inject bad reads)
  (g : Upd lagOk a b) (h0 : LeUpd 64 b.waiting waiting) (h1 : LeUpd 32 b.log log) (h2 : WfUpd 0#8 b.data data) :
  Upd lagOk a (Lag.mk b.tiles data nextId waiting queued granted stalls stallRaised corrected uncorr lastUncorr fillOrder passes scrubbed log logOver logRead inject bad reads) := fun e => have h := g e; ⟨h0 h.1, h1 h.2.1, h2 h.2.2⟩

@[simp ↓] theorem lagUpd_mk_reads (a b : Lag) (tiles data nextId waiting queued granted stalls stallRaised corrected uncorr lastUncorr fillOrder passes scrubbed log logOver logRead inject bad)
  (g : Upd lagOk a b) (h0 : LeUpd 64 b.waiting waiting) (h1 : LeUpd 32 b.log log) (h2 : WfUpd 0#8 b.data data) :
  Upd lagOk a (Lag.mk tiles data nextId waiting queued granted stalls stallRaised corrected uncorr lastUncorr fillOrder passes scrubbed log logOver logRead inject bad b.reads) := fun e => have h := g e; ⟨h0 h.1, h1 h.2.1, h2 h.2.2⟩

@[simp ↓] theorem lagUpd_mk_lastUncorr (a b : Lag) (tiles data nextId waiting queued granted stalls stallRaised corrected uncorr fillOrder passes scrubbed log logOver logRead inject bad reads)
  (g : Upd lagOk a b) (h0 : LeUpd 64 b.waiting waiting) (h1 : LeUpd 32 b.log log) (h2 : WfUpd 0#8 b.data data) :
  Upd lagOk a (Lag.mk tiles data nextId waiting queued granted stalls stallRaised corrected uncorr b.lastUncorr fillOrder passes scrubbed log logOver logRead inject bad reads) := fun e => have h := g e; ⟨h0 h.1, h1 h.2.1, h2 h.2.2⟩

theorem dramUpd_mk (a : Dram) (cfg trained mem errs poison inject merge queues openRows refreshEnd wckWaits refreshAt rowWindow tables throttled rowLog rowOver log logOver corrected uncorr lastUncorr throttles starved rmw poisoned passes scrubAt scrubFrom hours hoursNext mr4Max served stopped grantedLast)
  (h0 : LenUpd 4 a.queues queues) (h1 : LeUpd 32 a.log log) (h2 : LeUpd 32 a.rowLog rowLog) (h3 : LeUpd 32 a.merge merge) (h4 : WfUpd 0#8 a.mem mem) :
  Upd dramOk a (Dram.mk cfg trained stopped mem errs poison inject merge queues openRows refreshEnd wckWaits refreshAt rowWindow tables throttled rowLog rowOver log logOver corrected uncorr lastUncorr throttles starved rmw poisoned passes scrubAt scrubFrom hours hoursNext mr4Max grantedLast served) := fun h => ⟨h0 h.1, h1 h.2.1, h2 h.2.2.1, h3 h.2.2.2.1, h4 h.2.2.2.2⟩

@[simp ↓ 900] theorem dramUpd_mk_self (a : Dram) (cfg trained mem errs poison inject merge queues openRows refreshEnd wckWaits refreshAt rowWindow tables throttled rowLog rowOver log logOver corrected uncorr lastUncorr throttles starved rmw poisoned passes scrubAt scrubFrom hours hoursNext mr4Max served stopped grantedLast)
  (h0 : LenUpd 4 a.queues queues) (h1 : LeUpd 32 a.log log) (h2 : LeUpd 32 a.rowLog rowLog) (h3 : LeUpd 32 a.merge merge) (h4 : WfUpd 0#8 a.mem mem) :
  Upd dramOk a (Dram.mk cfg trained stopped mem errs poison inject merge queues openRows refreshEnd wckWaits refreshAt rowWindow tables throttled rowLog rowOver log logOver corrected uncorr lastUncorr throttles starved rmw poisoned passes scrubAt scrubFrom hours hoursNext mr4Max grantedLast served) := fun h => ⟨h0 h.1, h1 h.2.1, h2 h.2.2.1, h3 h.2.2.2.1, h4 h.2.2.2.2⟩

@[simp ↓] theorem dramUpd_mk_cfg (a b : Dram) (trained mem errs poison inject merge queues openRows refreshEnd wckWaits refreshAt rowWindow tables throttled rowLog rowOver log logOver corrected uncorr lastUncorr throttles starved rmw poisoned passes scrubAt scrubFrom hours hoursNext mr4Max served stopped grantedLast)
  (g : Upd dramOk a b) (h0 : LenUpd 4 b.queues queues) (h1 : LeUpd 32 b.log log) (h2 : LeUpd 32 b.rowLog rowLog) (h3 : LeUpd 32 b.merge merge) (h4 : WfUpd 0#8 b.mem mem) :
  Upd dramOk a (Dram.mk b.cfg trained stopped mem errs poison inject merge queues openRows refreshEnd wckWaits refreshAt rowWindow tables throttled rowLog rowOver log logOver corrected uncorr lastUncorr throttles starved rmw poisoned passes scrubAt scrubFrom hours hoursNext mr4Max grantedLast served) := fun e => have h := g e; ⟨h0 h.1, h1 h.2.1, h2 h.2.2.1, h3 h.2.2.2.1, h4 h.2.2.2.2⟩

@[simp ↓] theorem dramUpd_mk_served (a b : Dram) (cfg trained mem errs poison inject merge queues openRows refreshEnd wckWaits refreshAt rowWindow tables throttled rowLog rowOver log logOver corrected uncorr lastUncorr throttles starved rmw poisoned passes scrubAt scrubFrom hours hoursNext mr4Max stopped grantedLast)
  (g : Upd dramOk a b) (h0 : LenUpd 4 b.queues queues) (h1 : LeUpd 32 b.log log) (h2 : LeUpd 32 b.rowLog rowLog) (h3 : LeUpd 32 b.merge merge) (h4 : WfUpd 0#8 b.mem mem) :
  Upd dramOk a (Dram.mk cfg trained stopped mem errs poison inject merge queues openRows refreshEnd wckWaits refreshAt rowWindow tables throttled rowLog rowOver log logOver corrected uncorr lastUncorr throttles starved rmw poisoned passes scrubAt scrubFrom hours hoursNext mr4Max grantedLast b.served) := fun e => have h := g e; ⟨h0 h.1, h1 h.2.1, h2 h.2.2.1, h3 h.2.2.2.1, h4 h.2.2.2.2⟩

@[simp ↓] theorem dramUpd_mk_corrected (a b : Dram) (cfg trained mem errs poison inject merge queues openRows refreshEnd wckWaits refreshAt rowWindow tables throttled rowLog rowOver log logOver uncorr lastUncorr throttles starved rmw poisoned passes scrubAt scrubFrom hours hoursNext mr4Max served stopped grantedLast)
  (g : Upd dramOk a b) (h0 : LenUpd 4 b.queues queues) (h1 : LeUpd 32 b.log log) (h2 : LeUpd 32 b.rowLog rowLog) (h3 : LeUpd 32 b.merge merge) (h4 : WfUpd 0#8 b.mem mem) :
  Upd dramOk a (Dram.mk cfg trained stopped mem errs poison inject merge queues openRows refreshEnd wckWaits refreshAt rowWindow tables throttled rowLog rowOver log logOver b.corrected uncorr lastUncorr throttles starved rmw poisoned passes scrubAt scrubFrom hours hoursNext mr4Max grantedLast served) := fun e => have h := g e; ⟨h0 h.1, h1 h.2.1, h2 h.2.2.1, h3 h.2.2.2.1, h4 h.2.2.2.2⟩

theorem dmaUpd_mk (a : Dma) (channels windows engines hostEngines queue fwQueue nextJob chain classLeft window left toHost bar2Read)
  (h0 : LenUpd 32 a.channels channels) (h1 : LenUpd 15 a.windows windows) (h2 : LenUpd 4 a.engines engines) (h3 : LeUpd 32 a.queue queue) :
  Upd dmaOk a (Dma.mk channels windows engines hostEngines queue fwQueue nextJob chain classLeft window left toHost bar2Read) := fun h => ⟨h0 h.1, h1 h.2.1, h2 h.2.2.1, h3 h.2.2.2⟩

@[simp ↓ 900] theorem dmaUpd_mk_self (a : Dma) (channels windows engines hostEngines queue fwQueue nextJob chain classLeft window left toHost bar2Read)
  (h0 : LenUpd 32 a.channels channels) (h1 : LenUpd 15 a.windows windows) (h2 : LenUpd 4 a.engines engines) (h3 : LeUpd 32 a.queue queue) :
  Upd dmaOk a (Dma.mk channels windows engines hostEngines queue fwQueue nextJob chain classLeft window left toHost bar2Read) := fun h => ⟨h0 h.1, h1 h.2.1, h2 h.2.2.1, h3 h.2.2.2⟩

@[simp ↓] theorem dmaUpd_mk_hostEngines (a b : Dma) (channels windows engines queue fwQueue nextJob chain classLeft window left toHost bar2Read)
  (g : Upd dmaOk a b) (h0 : LenUpd 32 b.channels channels) (h1 : LenUpd 15 b.windows windows) (h2 : LenUpd 4 b.engines engines) (h3 : LeUpd 32 b.queue queue) :
  Upd dmaOk a (Dma.mk channels windows engines b.hostEngines queue fwQueue nextJob chain classLeft window left toHost bar2Read) := fun e => have h := g e; ⟨h0 h.1, h1 h.2.1, h2 h.2.2.1, h3 h.2.2.2⟩

@[simp ↓] theorem dmaUpd_mk_bar2Read (a b : Dma) (channels windows engines hostEngines queue fwQueue nextJob chain classLeft window left toHost)
  (g : Upd dmaOk a b) (h0 : LenUpd 32 b.channels channels) (h1 : LenUpd 15 b.windows windows) (h2 : LenUpd 4 b.engines engines) (h3 : LeUpd 32 b.queue queue) :
  Upd dmaOk a (Dma.mk channels windows engines hostEngines queue fwQueue nextJob chain classLeft window left toHost b.bar2Read) := fun e => have h := g e; ⟨h0 h.1, h1 h.2.1, h2 h.2.2.1, h3 h.2.2.2⟩

@[simp ↓] theorem dmaUpd_mk_classLeft (a b : Dma) (channels windows engines hostEngines queue fwQueue nextJob chain window left toHost bar2Read)
  (g : Upd dmaOk a b) (h0 : LenUpd 32 b.channels channels) (h1 : LenUpd 15 b.windows windows) (h2 : LenUpd 4 b.engines engines) (h3 : LeUpd 32 b.queue queue) :
  Upd dmaOk a (Dma.mk channels windows engines hostEngines queue fwQueue nextJob chain b.classLeft window left toHost bar2Read) := fun e => have h := g e; ⟨h0 h.1, h1 h.2.1, h2 h.2.2.1, h3 h.2.2.2⟩

theorem bldcUpd_mk (a : Bldc) (motors buses)
  (h0 : LenUpd 8 a.motors motors) (h1 : LenUpd 2 a.buses buses) :
  Upd bldcOk a (Bldc.mk motors buses) := fun h => ⟨h0 h.1, h1 h.2⟩

@[simp ↓ 900] theorem bldcUpd_mk_self (a : Bldc) (motors buses)
  (h0 : LenUpd 8 a.motors motors) (h1 : LenUpd 2 a.buses buses) :
  Upd bldcOk a (Bldc.mk motors buses) := fun h => ⟨h0 h.1, h1 h.2⟩

theorem clkUpd_mk (a : Clk) (refIn locked included includedAt senseMv aboveAt pathBad synthGate senseGate sysGate synths senseLow)
  (h0 : LenUpd 4 a.synths synths) :
  Upd clkOk a (Clk.mk refIn locked included includedAt senseMv aboveAt senseLow pathBad synthGate senseGate sysGate synths) := fun h => h0 h

@[simp ↓ 900] theorem clkUpd_mk_self (a : Clk) (refIn locked included includedAt senseMv aboveAt pathBad synthGate senseGate sysGate synths senseLow)
  (h0 : LenUpd 4 a.synths synths) :
  Upd clkOk a (Clk.mk refIn locked included includedAt senseMv aboveAt senseLow pathBad synthGate senseGate sysGate synths) := fun h => h0 h

@[simp ↓] theorem clkUpd_mk_refIn (a b : Clk) (locked included includedAt senseMv aboveAt pathBad synthGate senseGate sysGate synths senseLow)
  (g : Upd clkOk a b) (h0 : LenUpd 4 b.synths synths) :
  Upd clkOk a (Clk.mk b.refIn locked included includedAt senseMv aboveAt senseLow pathBad synthGate senseGate sysGate synths) := fun e => have h := g e; h0 h

@[simp ↓] theorem clkUpd_mk_sysGate (a b : Clk) (refIn locked included includedAt senseMv aboveAt pathBad synthGate senseGate synths senseLow)
  (g : Upd clkOk a b) (h0 : LenUpd 4 b.synths synths) :
  Upd clkOk a (Clk.mk refIn locked included includedAt senseMv aboveAt senseLow pathBad synthGate senseGate b.sysGate synths) := fun e => have h := g e; h0 h

@[simp ↓] theorem clkUpd_mk_aboveAt (a b : Clk) (refIn locked included includedAt senseMv pathBad synthGate senseGate sysGate synths senseLow)
  (g : Upd clkOk a b) (h0 : LenUpd 4 b.synths synths) :
  Upd clkOk a (Clk.mk refIn locked included includedAt senseMv b.aboveAt senseLow pathBad synthGate senseGate sysGate synths) := fun e => have h := g e; h0 h

theorem thermUpd_mk (a : Therm) (sensors thermistors units)
  (h0 : LenUpd 72 a.sensors sensors) (h1 : LenUpd 32 a.thermistors thermistors) (h2 : LenUpd 40 a.units units) :
  Upd thermOk a (Therm.mk sensors thermistors units) := fun h => ⟨h0 h.1, h1 h.2.1, h2 h.2.2⟩

@[simp ↓ 900] theorem thermUpd_mk_self (a : Therm) (sensors thermistors units)
  (h0 : LenUpd 72 a.sensors sensors) (h1 : LenUpd 32 a.thermistors thermistors) (h2 : LenUpd 40 a.units units) :
  Upd thermOk a (Therm.mk sensors thermistors units) := fun h => ⟨h0 h.1, h1 h.2.1, h2 h.2.2⟩

theorem pwrUpd_mk (a : Pwr) (rails st slot settling stepAt minOff minOffAt latch heldOn grace endKeep upCtx cause topSlot downCtx sysIn pullWdog pullFatal supplyLost dropMain pressHeld railFaults vbatMv latchedOff)
  (h0 : LenUpd 16 a.rails rails) :
  Upd pwrOk a (Pwr.mk rails st slot settling stepAt minOff minOffAt latch heldOn grace latchedOff endKeep upCtx cause topSlot downCtx sysIn pullWdog pullFatal supplyLost dropMain pressHeld railFaults vbatMv) := fun h => h0 h

@[simp ↓ 900] theorem pwrUpd_mk_self (a : Pwr) (rails st slot settling stepAt minOff minOffAt latch heldOn grace endKeep upCtx cause topSlot downCtx sysIn pullWdog pullFatal supplyLost dropMain pressHeld railFaults vbatMv latchedOff)
  (h0 : LenUpd 16 a.rails rails) :
  Upd pwrOk a (Pwr.mk rails st slot settling stepAt minOff minOffAt latch heldOn grace latchedOff endKeep upCtx cause topSlot downCtx sysIn pullWdog pullFatal supplyLost dropMain pressHeld railFaults vbatMv) := fun h => h0 h

@[simp ↓] theorem pwrUpd_mk_st (a b : Pwr) (rails slot settling stepAt minOff minOffAt latch heldOn grace endKeep upCtx cause topSlot downCtx sysIn pullWdog pullFatal supplyLost dropMain pressHeld railFaults vbatMv latchedOff)
  (g : Upd pwrOk a b) (h0 : LenUpd 16 b.rails rails) :
  Upd pwrOk a (Pwr.mk rails b.st slot settling stepAt minOff minOffAt latch heldOn grace latchedOff endKeep upCtx cause topSlot downCtx sysIn pullWdog pullFatal supplyLost dropMain pressHeld railFaults vbatMv) := fun e => have h := g e; h0 h

@[simp ↓] theorem pwrUpd_mk_cause (a b : Pwr) (rails st slot settling stepAt minOff minOffAt latch heldOn grace endKeep upCtx topSlot downCtx sysIn pullWdog pullFatal supplyLost dropMain pressHeld railFaults vbatMv latchedOff)
  (g : Upd pwrOk a b) (h0 : LenUpd 16 b.rails rails) :
  Upd pwrOk a (Pwr.mk rails st slot settling stepAt minOff minOffAt latch heldOn grace latchedOff endKeep upCtx b.cause topSlot downCtx sysIn pullWdog pullFatal supplyLost dropMain pressHeld railFaults vbatMv) := fun e => have h := g e; h0 h

@[simp ↓] theorem pwrUpd_mk_vbatMv (a b : Pwr) (rails st slot settling stepAt minOff minOffAt latch heldOn grace endKeep upCtx cause topSlot downCtx sysIn pullWdog pullFatal supplyLost dropMain pressHeld railFaults latchedOff)
  (g : Upd pwrOk a b) (h0 : LenUpd 16 b.rails rails) :
  Upd pwrOk a (Pwr.mk rails st slot settling stepAt minOff minOffAt latch heldOn grace latchedOff endKeep upCtx cause topSlot downCtx sysIn pullWdog pullFatal supplyLost dropMain pressHeld railFaults b.vbatMv) := fun e => have h := g e; h0 h

theorem atollUpd_mk (a : Atoll) (rtc rtcAcc rtcHiRead rtcHiHeld rtcValid alarms alarmFlag alarmWake alarmEn wakeFlag wakePol wakeEn offGrace supplyMon standby autoOn autoRestart wakeCause lastRail forcedOff forcedNew supplyLost sysfaultSeen railFault railNoPg main ret)
  (h0 : LenUpd 16 a.ret ret) (h1 : LenUpd 4 a.alarms alarms) :
  Upd atollOk a (Atoll.mk rtc rtcAcc rtcHiRead rtcHiHeld rtcValid alarms alarmFlag alarmWake alarmEn wakeFlag wakePol wakeEn offGrace supplyMon standby autoOn autoRestart wakeCause lastRail forcedOff forcedNew supplyLost sysfaultSeen railFault railNoPg main ret) := fun h => ⟨h0 h.1, h1 h.2⟩

@[simp ↓ 900] theorem atollUpd_mk_self (a : Atoll) (rtc rtcAcc rtcHiRead rtcHiHeld rtcValid alarms alarmFlag alarmWake alarmEn wakeFlag wakePol wakeEn offGrace supplyMon standby autoOn autoRestart wakeCause lastRail forcedOff forcedNew supplyLost sysfaultSeen railFault railNoPg main ret)
  (h0 : LenUpd 16 a.ret ret) (h1 : LenUpd 4 a.alarms alarms) :
  Upd atollOk a (Atoll.mk rtc rtcAcc rtcHiRead rtcHiHeld rtcValid alarms alarmFlag alarmWake alarmEn wakeFlag wakePol wakeEn offGrace supplyMon standby autoOn autoRestart wakeCause lastRail forcedOff forcedNew supplyLost sysfaultSeen railFault railNoPg main ret) := fun h => ⟨h0 h.1, h1 h.2⟩

@[simp ↓] theorem atollUpd_mk_rtc (a b : Atoll) (rtcAcc rtcHiRead rtcHiHeld rtcValid alarms alarmFlag alarmWake alarmEn wakeFlag wakePol wakeEn offGrace supplyMon standby autoOn autoRestart wakeCause lastRail forcedOff forcedNew supplyLost sysfaultSeen railFault railNoPg main ret)
  (g : Upd atollOk a b) (h0 : LenUpd 16 b.ret ret) (h1 : LenUpd 4 b.alarms alarms) :
  Upd atollOk a (Atoll.mk b.rtc rtcAcc rtcHiRead rtcHiHeld rtcValid alarms alarmFlag alarmWake alarmEn wakeFlag wakePol wakeEn offGrace supplyMon standby autoOn autoRestart wakeCause lastRail forcedOff forcedNew supplyLost sysfaultSeen railFault railNoPg main ret) := fun e => have h := g e; ⟨h0 h.1, h1 h.2⟩

@[simp ↓] theorem atollUpd_mk_main (a b : Atoll) (rtc rtcAcc rtcHiRead rtcHiHeld rtcValid alarms alarmFlag alarmWake alarmEn wakeFlag wakePol wakeEn offGrace supplyMon standby autoOn autoRestart wakeCause lastRail forcedOff forcedNew supplyLost sysfaultSeen railFault railNoPg ret)
  (g : Upd atollOk a b) (h0 : LenUpd 16 b.ret ret) (h1 : LenUpd 4 b.alarms alarms) :
  Upd atollOk a (Atoll.mk rtc rtcAcc rtcHiRead rtcHiHeld rtcValid alarms alarmFlag alarmWake alarmEn wakeFlag wakePol wakeEn offGrace supplyMon standby autoOn autoRestart wakeCause lastRail forcedOff forcedNew supplyLost sysfaultSeen railFault railNoPg b.main ret) := fun e => have h := g e; ⟨h0 h.1, h1 h.2⟩

@[simp ↓] theorem atollUpd_mk_supplyMon (a b : Atoll) (rtc rtcAcc rtcHiRead rtcHiHeld rtcValid alarms alarmFlag alarmWake alarmEn wakeFlag wakePol wakeEn offGrace standby autoOn autoRestart wakeCause lastRail forcedOff forcedNew supplyLost sysfaultSeen railFault railNoPg main ret)
  (g : Upd atollOk a b) (h0 : LenUpd 16 b.ret ret) (h1 : LenUpd 4 b.alarms alarms) :
  Upd atollOk a (Atoll.mk rtc rtcAcc rtcHiRead rtcHiHeld rtcValid alarms alarmFlag alarmWake alarmEn wakeFlag wakePol wakeEn offGrace b.supplyMon standby autoOn autoRestart wakeCause lastRail forcedOff forcedNew supplyLost sysfaultSeen railFault railNoPg main ret) := fun e => have h := g e; ⟨h0 h.1, h1 h.2⟩

theorem fltUpd_mk (a : Flt) (presented records unwritten log count next alive aliveAt toggling watched stopAxes stopHeaters fatal)
  (h0 : LeUpd 64 a.log log) :
  Upd fltOk a (Flt.mk presented records unwritten log count next alive aliveAt toggling watched stopAxes stopHeaters fatal) := fun h => h0 h

@[simp ↓ 900] theorem fltUpd_mk_self (a : Flt) (presented records unwritten log count next alive aliveAt toggling watched stopAxes stopHeaters fatal)
  (h0 : LeUpd 64 a.log log) :
  Upd fltOk a (Flt.mk presented records unwritten log count next alive aliveAt toggling watched stopAxes stopHeaters fatal) := fun h => h0 h

@[simp ↓] theorem fltUpd_mk_presented (a b : Flt) (records unwritten log count next alive aliveAt toggling watched stopAxes stopHeaters fatal)
  (g : Upd fltOk a b) (h0 : LeUpd 64 b.log log) :
  Upd fltOk a (Flt.mk b.presented records unwritten log count next alive aliveAt toggling watched stopAxes stopHeaters fatal) := fun e => have h := g e; h0 h

@[simp ↓] theorem fltUpd_mk_fatal (a b : Flt) (presented records unwritten log count next alive aliveAt toggling watched stopAxes stopHeaters)
  (g : Upd fltOk a b) (h0 : LeUpd 64 b.log log) :
  Upd fltOk a (Flt.mk presented records unwritten log count next alive aliveAt toggling watched stopAxes stopHeaters b.fatal) := fun e => have h := g e; h0 h

@[simp ↓] theorem fltUpd_mk_aliveAt (a b : Flt) (presented records unwritten log count next alive toggling watched stopAxes stopHeaters fatal)
  (g : Upd fltOk a b) (h0 : LeUpd 64 b.log log) :
  Upd fltOk a (Flt.mk presented records unwritten log count next alive b.aliveAt toggling watched stopAxes stopHeaters fatal) := fun e => have h := g e; h0 h

theorem bootUpd_mk (a : Boot) (straps dramStep dramCh image fail slotABad slotBBad blockDefault fatalSource cause latchedCause latchedFatal readyMs prefer flash pushResult push fwVersion select update nmr)
  (h0 : WfUpd 0xFF#8 a.flash flash) :
  Upd bootOk a (Boot.mk straps dramStep dramCh image fail slotABad slotBBad blockDefault fatalSource cause latchedCause latchedFatal readyMs prefer flash pushResult push fwVersion select update nmr) := fun h => h0 h

@[simp ↓ 900] theorem bootUpd_mk_self (a : Boot) (straps dramStep dramCh image fail slotABad slotBBad blockDefault fatalSource cause latchedCause latchedFatal readyMs prefer flash pushResult push fwVersion select update nmr)
  (h0 : WfUpd 0xFF#8 a.flash flash) :
  Upd bootOk a (Boot.mk straps dramStep dramCh image fail slotABad slotBBad blockDefault fatalSource cause latchedCause latchedFatal readyMs prefer flash pushResult push fwVersion select update nmr) := fun h => h0 h

@[simp ↓] theorem bootUpd_mk_straps (a b : Boot) (dramStep dramCh image fail slotABad slotBBad blockDefault fatalSource cause latchedCause latchedFatal readyMs prefer flash pushResult push fwVersion select update nmr)
  (g : Upd bootOk a b) (h0 : WfUpd 0xFF#8 b.flash flash) :
  Upd bootOk a (Boot.mk b.straps dramStep dramCh image fail slotABad slotBBad blockDefault fatalSource cause latchedCause latchedFatal readyMs prefer flash pushResult push fwVersion select update nmr) := fun e => have h := g e; h0 h

@[simp ↓] theorem bootUpd_mk_latchedCause (a b : Boot) (straps dramStep dramCh image fail slotABad slotBBad blockDefault fatalSource cause latchedFatal readyMs prefer flash pushResult push fwVersion select update nmr)
  (g : Upd bootOk a b) (h0 : WfUpd 0xFF#8 b.flash flash) :
  Upd bootOk a (Boot.mk straps dramStep dramCh image fail slotABad slotBBad blockDefault fatalSource cause b.latchedCause latchedFatal readyMs prefer flash pushResult push fwVersion select update nmr) := fun e => have h := g e; h0 h

@[simp ↓] theorem bootUpd_mk_nmr (a b : Boot) (straps dramStep dramCh image fail slotABad slotBBad blockDefault fatalSource cause latchedCause latchedFatal readyMs prefer flash pushResult push fwVersion select update)
  (g : Upd bootOk a b) (h0 : WfUpd 0xFF#8 b.flash flash) :
  Upd bootOk a (Boot.mk straps dramStep dramCh image fail slotABad slotBBad blockDefault fatalSource cause latchedCause latchedFatal readyMs prefer flash pushResult push fwVersion select update b.nmr) := fun e => have h := g e; h0 h

@[simp ↓] theorem keeps_mk (a b : State) (free time timeRuns held mci sources sync links nStop rollback jobSerial stations media topUnmatched gpi bias heaters heads forge engine cam lag dram dma bldc motion clk therm pwr atoll lamps flt otp boot)
  (h : Keeps a b) (hsources : LenUpd 96 b.sources sources) (hlinks : LenUpd 24 b.links links) (hstations : LenUpd 4 b.stations stations) (hgpi : LenUpd 32 b.gpi gpi) (hbias : LenUpd 16 b.bias bias) (hheaters : LenUpd 4 b.heaters heaters) (hheads : LenUpd 24 b.heads heads) (hmotion : LenUpd 16 b.motion motion) (hlamps : LenUpd 8 b.lamps lamps) (hmci : Upd mciOk b.mci mci) (hforge : Upd forgeOk b.forge forge) (hengine : Upd engineOk b.engine engine) (hcam : Upd camOk b.cam cam) (hlag : Upd lagOk b.lag lag) (hdram : Upd dramOk b.dram dram) (hdma : Upd dmaOk b.dma dma) (hbldc : Upd bldcOk b.bldc bldc) (hclk : Upd clkOk b.clk clk) (htherm : Upd thermOk b.therm therm) (hpwr : Upd pwrOk b.pwr pwr) (hatoll : Upd atollOk b.atoll atoll) (hflt : Upd fltOk b.flt flt) (hboot : Upd bootOk b.boot boot) (hotp : OtpUpd b.otp otp) :
  Keeps a (State.mk b.pending b.part free time timeRuns held mci sources sync links nStop rollback jobSerial stations media topUnmatched gpi bias heaters heads forge engine cam lag dram dma bldc motion clk therm pwr atoll lamps flt otp boot) :=
  ⟨h.1, h.2.1, h.2.2.1.trans hotp.1, fun g => have h := h.2.2.2 g; ⟨hsources h.1, hlinks h.2.1, hstations h.2.2.1, hgpi h.2.2.2.1, hbias h.2.2.2.2.1, hheaters h.2.2.2.2.2.1, hheads h.2.2.2.2.2.2.1, hmotion h.2.2.2.2.2.2.2.1, hlamps h.2.2.2.2.2.2.2.2.1, hmci h.2.2.2.2.2.2.2.2.2.1, hforge h.2.2.2.2.2.2.2.2.2.2.1, hengine h.2.2.2.2.2.2.2.2.2.2.2.1, hcam h.2.2.2.2.2.2.2.2.2.2.2.2.1, hlag h.2.2.2.2.2.2.2.2.2.2.2.2.2.1, hdram h.2.2.2.2.2.2.2.2.2.2.2.2.2.2.1, hdma h.2.2.2.2.2.2.2.2.2.2.2.2.2.2.2.1, hbldc h.2.2.2.2.2.2.2.2.2.2.2.2.2.2.2.2.1, hclk h.2.2.2.2.2.2.2.2.2.2.2.2.2.2.2.2.2.1, htherm h.2.2.2.2.2.2.2.2.2.2.2.2.2.2.2.2.2.2.1, hpwr h.2.2.2.2.2.2.2.2.2.2.2.2.2.2.2.2.2.2.2.1, hatoll h.2.2.2.2.2.2.2.2.2.2.2.2.2.2.2.2.2.2.2.2.1, hflt h.2.2.2.2.2.2.2.2.2.2.2.2.2.2.2.2.2.2.2.2.2.1, hboot h.2.2.2.2.2.2.2.2.2.2.2.2.2.2.2.2.2.2.2.2.2.2.1, hotp.2 h.2.2.2.2.2.2.2.2.2.2.2.2.2.2.2.2.2.2.2.2.2.2.2⟩⟩

theorem inv_dram_merge {s : State} (h : Inv s) : s.dram.merge.length ≤ 32 := by
  obtain ⟨_, _, _, _, _, _, _, _, _, _, _, _, _, _, hd, _⟩ := h
  exact hd.2.2.2.1

@[simp ↓] theorem keeps_refl (a) : Keeps a a := ⟨rfl, rfl, OtpLe.refl _, id⟩

theorem Keeps.trans {a b c} (h : Keeps a b) (g : Keeps b c) : Keeps a c := ⟨g.1.trans h.1, g.2.1.trans h.2.1, h.2.2.1.trans g.2.2.1, g.2.2.2 ∘ h.2.2.2⟩
/-- The same of an outcome, which is a next state. -/
def KeepsOut (a : State) (o : Out) : Prop := ∃ t, o = .next t ∧ Keeps a t

@[simp ↓] theorem keepsOut_next (a t) (h : Keeps a t) : KeepsOut a (.next t) := ⟨t, rfl, h⟩
/-- The same of a state that may be absent. -/
def KeepsOpt (a : State) (o : Option State) : Prop := ∀ t, o = some t → Keeps a t

@[simp ↓] theorem keepsOpt_some (a t) (h : Keeps a t) : KeepsOpt a (some t) := fun s e => by cases e; exact h

@[simp ↓] theorem keepsOpt_none (a) : KeepsOpt a none := fun s e => by cases e

theorem keeps_of_some {a : State} {o : Option State} {t : State} (h : o = some t) (ho : KeepsOpt a o) : Keeps a t := ho t h

@[simp ↓] theorem keeps_ite (a) (c : Prop) [Decidable c] (x y : State) (hx : Keeps a x) (hy : Keeps a y) : Keeps a (if c then x else y) := by
  split <;> simp_all

@[simp ↓] theorem keepsOut_ite (a) (c : Prop) [Decidable c] (x y : Out) (hx : KeepsOut a x) (hy : KeepsOut a y) : KeepsOut a (if c then x else y) := by
  split <;> simp_all

@[simp ↓] theorem keepsOpt_ite (a) (c : Prop) [Decidable c] (x y : Option State) (hx : KeepsOpt a x) (hy : KeepsOpt a y) : KeepsOpt a (if c then x else y) := by
  split <;> simp_all

@[simp ↓] theorem keepsOpt_bind (a) {o : Option State} {f : State → Option State} (ho : KeepsOpt a o) (hf : ∀ s, KeepsOpt s (f s)) :
    KeepsOpt a (o.bind f) := fun t e => by
  obtain ⟨s, h1, h2⟩ := Option.bind_eq_some_iff.1 e
  exact (ho s h1).trans (hf s t h2)

@[simp ↓] theorem keeps_getD (a) {o : Option State} {s : State} (ho : KeepsOpt a o) (hs : Keeps a s) : Keeps a (o.getD s) := by
  cases o with | none => exact hs | some t => exact ho t rfl

@[simp ↓] theorem keeps_foldl {α : Type} (a) (f : State → α → State) (l : List α) (s : State) (h : Keeps a s)
    (hf : ∀ s x, Keeps s (f s x)) : Keeps a (l.foldl f s) := by
  induction l generalizing s with
  | nil => exact h
  | cons x l ih => exact ih _ (h.trans (hf _ _))

@[simp ↓] theorem keeps_foldl_snd {α β : Type} (a) (f : β × State → α → β × State) (l : List α) (x : β × State) (h : Keeps a x.2)
    (hf : ∀ y x, Keeps y.2 (f y x).2) : Keeps a (l.foldl f x).2 := by
  induction l generalizing x with
  | nil => exact h
  | cons y l ih => exact ih _ (h.trans (hf _ _))

@[simp ↓] theorem keeps_ite_snd {β : Type} (a) (c : Prop) [Decidable c] (x y : β × State) (hx : Keeps a x.2) (hy : Keeps a y.2) :
    Keeps a (if c then x else y).2 := by
  split <;> simp_all

@[simp ↓] theorem leUpd_mergeDrop (n a m x k) (h : LeUpd n a m) : LeUpd n a (mergeDrop m x k) := fun g => by unfold mergeDrop; rw [List.length_map]; exact h g

end Sys2Proof.Machine
end

