-- ==== Sys2Proof/Laws/KeepsShared.lean ====
section
/-!
SUPPORT. What is kept (Laws/Keeps.lean) by the shared operations.
-/
namespace Sys2Proof.Machine

open Sys2Proof Sys2Proof.Safety

/-! ### Machine/Memory.lean -/

@[simp ↓] theorem Dram_freshWord_keeps (a : Dram) (d : Dram) (w : ℕ) (h0 : Upd dramOk a d) :
    Upd dramOk a (Dram.freshWord d w) := by
  unfold Dram.freshWord
  (repeat' split) <;> simp (maxDischargeDepth := 40) [*]

@[simp ↓] theorem Dram_freshWords_keeps (a : Dram) (d : Dram) (a1 : ℕ) (n : ℕ) (h0 : Upd dramOk a d) :
    Upd dramOk a (Dram.freshWords d a1 n) := by
  unfold Dram.freshWords
  simp (maxDischargeDepth := 40) [*]

@[simp ↓] theorem Dram_write_keeps (a : Dram) (d : Dram) (a1 : ℕ) (bs : List Byte) (h0 : Upd dramOk a d) :
    Upd dramOk a (Dram.write d a1 bs) := by
  unfold Dram.write
  simp (maxDischargeDepth := 40) [*]

/-! ### Machine/Ops.lean -/

@[simp ↓] theorem State_modLink_keeps (a : State) (s : State) (l : ℕ) (f : Link → Link) (h0 : Keeps a s) :
    Keeps a (State.modLink s l f) := by
  unfold State.modLink
  simp (maxDischargeDepth := 40) [*]

@[simp ↓] theorem State_modStation_keeps (a : State) (s : State) (i : ℕ) (f : Station → Station) (h0 : Keeps a s) :
    Keeps a (State.modStation s i f) := by
  unfold State.modStation
  simp (maxDischargeDepth := 40) [*]

@[simp ↓] theorem State_modHead_keeps (a : State) (s : State) (h : ℕ) (f : Head → Head) (h0 : Keeps a s) :
    Keeps a (State.modHead s h f) := by
  unfold State.modHead
  simp (maxDischargeDepth := 40) [*]

@[simp ↓] theorem State_modSource_keeps (a : State) (s : State) (i : ℕ) (f : Source → Source) (h0 : Keeps a s) :
    Keeps a (State.modSource s i f) := by
  unfold State.modSource
  simp (maxDischargeDepth := 40) [*]

@[simp ↓] theorem State_modHeater_keeps (a : State) (s : State) (h : ℕ) (f : Heater → Heater) (h0 : Keeps a s) :
    Keeps a (State.modHeater s h f) := by
  unfold State.modHeater
  simp (maxDischargeDepth := 40) [*]

@[simp ↓] theorem State_modGpi_keeps (a : State) (s : State) (i : ℕ) (f : Gpi → Gpi) (h0 : Keeps a s) :
    Keeps a (State.modGpi s i f) := by
  unfold State.modGpi
  simp (maxDischargeDepth := 40) [*]

@[simp ↓] theorem State_modLamp_keeps (a : State) (s : State) (i : ℕ) (f : Lamp → Lamp) (h0 : Keeps a s) :
    Keeps a (State.modLamp s i f) := by
  unfold State.modLamp
  simp (maxDischargeDepth := 40) [*]

@[simp ↓] theorem State_modBox_keeps (a : State) (s : State) (p : ℕ) (f : Mailbox → Mailbox) (h0 : Keeps a s) :
    Keeps a (State.modBox s p f) := by
  unfold State.modBox
  simp (maxDischargeDepth := 40) [*]

@[simp ↓] theorem signal_keeps (a : State) (v : ℕ) (s : State) (h0 : Keeps a s) :
    Keeps a (signal v s) := by
  unfold signal
  simp (maxDischargeDepth := 40) [*]

@[simp ↓] theorem enqueueMsg_keeps (a : State) (p : ℕ) (m : Msg) (s : State) (h0 : Keeps a s) :
    Keeps a (enqueueMsg p m s) := by
  unfold enqueueMsg
  simp (maxDischargeDepth := 40) [*]

@[simp ↓] theorem undispatch_keeps (a : State) (rq : Req) (code : ℕ) (s : State) (h0 : Keeps a s) :
    Keeps a (undispatch rq code s) := by
  unfold undispatch
  simp (maxDischargeDepth := 40) [*]

@[simp ↓] theorem respond_keeps (a : State) (rq : Req) (code : ℕ) (status : ℕ) (payload : List Byte) (s : State) (h0 : Keeps a s) :
    Keeps a (respond rq code status payload s) := by
  unfold respond
  simp (maxDischargeDepth := 40) [*]

@[simp ↓] theorem accept_keeps (a : State) (rq : Req) (code : ℕ) (payload : List Byte) (s : State) (h0 : Keeps a s) :
    Keeps a (accept rq code payload s) := by
  unfold accept
  simp (maxDischargeDepth := 40) [*]

@[simp ↓] theorem complete_keeps (a : State) (c : Ctx) (status : ℕ) (payload : List Byte) (s : State) (h0 : Keeps a s) :
    Keeps a (complete c status payload s) := by
  unfold complete
  simp (maxDischargeDepth := 40) [*]

@[simp ↓] theorem queueEvent_keeps (a : State) (code : Nat) (payload : List Byte) (s : State) (h0 : Keeps a s) : Keeps a (queueEvent code payload s) := by
  unfold queueEvent
  dsimp only
  split
  · apply signal_keeps; simp (maxDischargeDepth := 40) [h0]
  · rename_i h
    simp (maxDischargeDepth := 40) [h0, leUpd_push 256 s.mci.events _ (Nat.lt_of_not_le h)]

@[simp ↓] theorem command_keeps (a : State) (code : ℕ) (rq : Req) (checks : List (Bool × ℕ)) (k : State → State) (s : State) (k0 : Keeps a (k s)) (h0 : Keeps a s) :
    KeepsOut a (command code rq checks k s) := by
  unfold command
  (repeat' split) <;> simp (maxDischargeDepth := 40) [*]

@[simp ↓] theorem logViolation_keeps (a : State) (iface : ℕ) (unit : ℕ) (code : ℕ) (detail : ℕ) (s : State) (h0 : Keeps a s) :
    Keeps a (logViolation iface unit code detail s) := by
  unfold logViolation
  simp (maxDischargeDepth := 40) [*]

@[simp ↓] theorem serveReq_keeps (a : State) (code : Nat) (rq : Req) (k : State → Out) (s : State) (h0 : Keeps a s) (k0 : KeepsOut a (k s)) : KeepsOut a (serveReq code rq k s) := by
  unfold serveReq
  split
  · exact k0
  · exact keepsOut_next _ _ h0

@[simp ↓] theorem commandOf_keeps (a : State) (p : Personality) (code : ℕ) (rq : Req) (checks : List (Bool × ℕ)) (k : State → State) (s : State) (k0 : Keeps a (k s)) (h0 : Keeps a s) :
    KeepsOut a (commandOf p code rq checks k s) := by
  unfold commandOf
  simp (maxDischargeDepth := 40) [*]

@[simp ↓] theorem answer_keeps (a : State) (c : Ctx) (status : ℕ) (payload : List Byte) (s : State) (h0 : Keeps a s) :
    Keeps a (answer c status payload s) := by
  unfold answer
  simp (maxDischargeDepth := 40) [*]

@[simp ↓] theorem rtcAdvance_keeps (a : Atoll) (k : ℕ) (a1 : Atoll) (h0 : Upd atollOk a a1) :
    Upd atollOk a (rtcAdvance k a1) := by
  unfold rtcAdvance
  simp (maxDischargeDepth := 40) [*]

@[simp ↓] theorem State_advance_keeps (a : State) (s : State) (k : ℕ) (h0 : Keeps a s) :
    Keeps a (State.advance s k) := by
  unfold State.advance
  simp (maxDischargeDepth := 40) [*]

@[simp ↓] theorem State_advanceTo_keeps (a : State) (s : State) (t : ℕ) (h0 : Keeps a s) :
    Keeps a (State.advanceTo s t) := by
  unfold State.advanceTo
  simp (maxDischargeDepth := 40) [*]

@[simp ↓] theorem State_waitFrom_keeps (a : State) (s : State) (since : BitVec 64) (dur : ℕ) (h0 : Keeps a s) :
    Keeps a (State.waitFrom s since dur) := by
  unfold State.waitFrom
  simp (maxDischargeDepth := 40) [*]

@[simp ↓] theorem State_advanceSub_keeps (a : State) (s : State) (t : ℤ) (h0 : Keeps a s) :
    Keeps a (State.advanceSub s t) := by
  unfold State.advanceSub
  simp (maxDischargeDepth := 40) [*]

@[simp ↓] theorem idleTick_keeps (a : State) (s : State) (h0 : Keeps a s) :
    Keeps a (idleTick s) := by
  unfold idleTick
  simp (maxDischargeDepth := 40) [*]

@[simp ↓] theorem presentRaise_keeps (a : State) (source : ℕ) (unit : Option ℕ) (detail : ℕ) (firmware : Bool) (forced : Bool) (fatal : Bool) (s : State) (h0 : Keeps a s) :
    Keeps a (presentRaise source unit detail firmware forced fatal s) := by
  unfold presentRaise
  simp (maxDischargeDepth := 40) [*]

@[simp ↓] theorem present_keeps (a : State) (source : ℕ) (unit : Option ℕ) (detail : ℕ) (s : State) (h0 : Keeps a s) :
    Keeps a (present source unit detail s) := by
  unfold present
  simp (maxDischargeDepth := 40) [*]

@[simp ↓] theorem presentFw_keeps (a : State) (source : ℕ) (unit : Option ℕ) (detail : ℕ) (s : State) (h0 : Keeps a s) :
    Keeps a (presentFw source unit detail s) := by
  unfold presentFw
  simp (maxDischargeDepth := 40) [*]

@[simp ↓] theorem presentFatal_keeps (a : State) (source : ℕ) (unit : Option ℕ) (detail : ℕ) (s : State) (h0 : Keeps a s) :
    Keeps a (presentFatal source unit detail s) := by
  unfold presentFatal
  simp (maxDischargeDepth := 40) [*]

/-! ### Machine/BldcOps.lean -/

@[simp ↓] theorem State_modMotor_keeps (a : State) (s : State) (m : ℕ) (f : Motor → Motor) (h0 : Keeps a s) :
    Keeps a (State.modMotor s m f) := by
  unfold State.modMotor
  simp (maxDischargeDepth := 40) [*]

@[simp ↓] theorem State_modBus_keeps (a : State) (s : State) (g : ℕ) (f : MotorBus → MotorBus) (h0 : Keeps a s) :
    Keeps a (State.modBus s g f) := by
  unfold State.modBus
  simp (maxDischargeDepth := 40) [*]

@[simp ↓] theorem setGates_keeps (a : State) (m : ℕ) (g : BitVec 6) (s : State) (h0 : Keeps a s) :
    Keeps a (setGates m g s) := by
  unfold setGates
  simp (maxDischargeDepth := 40) [*]

@[simp ↓] theorem coast_keeps (a : State) (m : ℕ) (s : State) (h0 : Keeps a s) :
    Keeps a (coast m s) := by
  unfold coast
  simp (maxDischargeDepth := 40) [*]

@[simp ↓] theorem endStart_keeps (a : State) (m : ℕ) (result : ℕ) (status : ℕ) (rpm : ℕ) (s : State) (h0 : Keeps a s) :
    Keeps a (endStart m result status rpm s) := by
  unfold endStart
  dsimp only
  (repeat' split) <;> simp (maxDischargeDepth := 40) [*]

@[simp ↓] theorem listen_keeps (a : State) (m : ℕ) (s : State) (h0 : Keeps a s) :
    Keeps a (listen m s) := by
  unfold listen
  simp (maxDischargeDepth := 40) [*]

@[simp ↓] theorem startSequence_keeps (a : State) (m : ℕ) (s : State) (h0 : Keeps a s) :
    Keeps a (startSequence m s) := by
  unfold startSequence
  simp (maxDischargeDepth := 40) [*]

@[simp ↓] theorem failAttempt_keeps (a : State) (m : ℕ) (cause : ℕ) (s : State) (h0 : Keeps a s) :
    Keeps a (failAttempt m cause s) := by
  unfold failAttempt
  simp (maxDischargeDepth := 40) [*]

@[simp ↓] theorem setCommand_keeps (a : State) (m : ℕ) (rpm : ℕ) (s : State) (h0 : Keeps a s) :
    Keeps a (setCommand m rpm s) := by
  unfold setCommand
  simp (maxDischargeDepth := 40) [*]

@[simp ↓] theorem engineSpeed_keeps (a : State) (m : ℕ) (out : ℤ) (s : State) (h0 : Keeps a s) :
    Keeps a (engineSpeed m out s) := by
  unfold engineSpeed
  simp (maxDischargeDepth := 40) [*]

@[simp ↓] theorem enterBusBrake_keeps (a : State) (g : ℕ) (s : State) (h0 : Keeps a s) :
    Keeps a (enterBusBrake g s) := by
  unfold enterBusBrake
  simp (maxDischargeDepth := 40) [*]

/-! ### Machine/TimebaseOps.lean -/

@[simp ↓] theorem pushEdge_keeps (a : State) (i : ℕ) (e : FifoEdge) (s : State) (h0 : Keeps a s) :
    Keeps a (pushEdge i e s) := by
  unfold pushEdge
  simp (maxDischargeDepth := 40) [*]

/-! ### Machine/LagoonOps.lean -/

@[simp ↓] theorem State_setTile_keeps (a : State) (s : State) (t : Tile) (h0 : Keeps a s) :
    Keeps a (State.setTile s t) := by
  unfold State.setTile
  simp (maxDischargeDepth := 40) [*]

@[simp ↓] theorem State_modTiles_keeps (a : State) (s : State) (f : Tile → Tile) (h0 : Keeps a s) :
    Keeps a (State.modTiles s f) := by
  unfold State.modTiles
  simp (maxDischargeDepth := 40) [*]

@[simp ↓] theorem State_modTile_keeps (a : State) (s : State) (h : ℕ) (f : Tile → Tile) (h0 : Keeps a s) :
    Keeps a (State.modTile s h f) := by
  unfold State.modTile
  simp (maxDischargeDepth := 40) [*]

@[simp ↓] theorem releaseTile_keeps (a : State) (h : ℕ) (s : State) (h0 : Keeps a s) :
    Keeps a (releaseTile h s) := by
  unfold releaseTile
  simp (maxDischargeDepth := 40) [*]

@[simp ↓] theorem lagUncorrectable_keeps (a : State) (address : ℕ) (s : State) (h0 : Keeps a s) :
    Keeps a (lagUncorrectable address s) := by
  unfold lagUncorrectable
  simp (maxDischargeDepth := 40) [*]

@[simp ↓] theorem lagCorrected_keeps (a : State) (address : ℕ) (foundBy : ℕ) (cls : ℕ) (s : State) (h0 : Keeps a s) :
    Keeps a (lagCorrected address foundBy cls s) := by
  unfold lagCorrected
  simp (maxDischargeDepth := 40) [*]

@[simp ↓] theorem lagErrors_keeps (a : State) (address : ℕ) (upset : ℕ) (s : State) (h0 : Keeps a s) :
    Keeps a (lagErrors address upset s).2 := by
  unfold lagErrors
  simp (maxDischargeDepth := 40) [*]

@[simp ↓] theorem lagReadWord_keeps (a : State) (address : ℕ) (upset : ℕ) (foundBy : ℕ) (cls : ℕ) (s : State) (h0 : Keeps a s) :
    Keeps a (lagReadWord address upset foundBy cls s).2 := by
  unfold lagReadWord
  (repeat' split) <;> simp (maxDischargeDepth := 40) [*]

@[simp ↓] theorem lagReadTile_keeps (a : State) (h : ℕ) (cls : ℕ) (header : Bool) (s : State) (h0 : Keeps a s) :
    Keeps a (lagReadTile h cls header s).2 := by
  unfold lagReadTile
  simp (maxDischargeDepth := 40) [*]

@[simp ↓] theorem freshHeader_keeps (a : State) (h : ℕ) (s : State) (h0 : Keeps a s) :
    Keeps a (freshHeader h s) := by
  unfold freshHeader
  simp (maxDischargeDepth := 40) [*]

@[simp ↓] theorem lagFresh_keeps (a : State) (h : ℕ) (lo : ℕ) (hi : ℕ) (s : State) (h0 : Keeps a s) :
    Keeps a (lagFresh h lo hi s) := by
  unfold lagFresh
  simp (maxDischargeDepth := 40) [*]

@[simp ↓] theorem closeFill_keeps (a : State) (handle : ℕ) (s : State) (h0 : Keeps a s) :
    Keeps a (closeFill handle s) := by
  unfold closeFill
  (repeat' split) <;> simp (maxDischargeDepth := 40) [*]

@[simp ↓] theorem writeFill_keeps (a : State) (handle : ℕ) (offset : ℕ) (data : List Byte) (s : State) (h0 : Keeps a s) :
    Keeps a (writeFill handle offset data s) := by
  unfold writeFill
  (repeat' split) <;> simp (maxDischargeDepth := 40) [*]

/-! ### Machine/ThrottleOps.lean -/

@[simp ↓] theorem State_modUnit_keeps (a : State) (s : State) (u : ℕ) (f : Unit' → Unit') (h0 : Keeps a s) :
    Keeps a (State.modUnit s u f) := by
  unfold State.modUnit
  simp (maxDischargeDepth := 40) [*]

@[simp ↓] theorem factorsChanged_keeps (a : State) (s : State) (h0 : Keeps a s) :
    Keeps a (factorsChanged s) := by
  unfold factorsChanged
  simp (maxDischargeDepth := 40) [*]

@[simp ↓] theorem syncPrivilege_keeps (a : State) (s : State) (h0 : Keeps a s) :
    Keeps a (syncPrivilege s) := by
  unfold syncPrivilege
  simp (maxDischargeDepth := 40) [*]

/-! ### Machine/RunAheadOps.lean -/

@[simp ↓] theorem sendBlock_keeps (a : State) (l : ℕ) (control : Bool) (w : BitVec 64) (s : State) (h0 : Keeps a s) :
    Keeps a (sendBlock l control w s) := by
  unfold sendBlock
  simp (maxDischargeDepth := 40) [*]

@[simp ↓] theorem sendCtl_keeps (a : State) (l : ℕ) (ctype : ℕ) (payload : ℕ) (s : State) (h0 : Keeps a s) :
    Keeps a (sendCtl l ctype payload s) := by
  unfold sendCtl
  simp (maxDischargeDepth := 40) [*]

@[simp ↓] theorem sendGate_keeps (a : State) (l : ℕ) (s : State) (h0 : Keeps a s) :
    Keeps a (sendGate l s) := by
  unfold sendGate
  simp (maxDischargeDepth := 40) [*]

@[simp ↓] theorem State_modJobs_keeps (a : State) (s : State) (i : ℕ) (f : Job → Job) (h0 : Keeps a s) :
    Keeps a (State.modJobs s i f) := by
  unfold State.modJobs
  simp (maxDischargeDepth := 40) [*]

@[simp ↓] theorem purgeQueues_keeps (a : State) (lanes : BitVec 192) (s : State) (h0 : Keeps a s) :
    Keeps a (purgeQueues lanes s) := by
  unfold purgeQueues
  simp (maxDischargeDepth := 40) [*]

@[simp ↓] theorem discardSweeps_keeps (a : State) (i : ℕ) (s : State) (h0 : Keeps a s) :
    Keeps a (discardSweeps i s) := by
  unfold discardSweeps
  simp (maxDischargeDepth := 40) [*]

@[simp ↓] theorem unadmitRecords_keeps (a : State) (gone : List Rec) (s : State) (h0 : Keeps a s) :
    Keeps a (unadmitRecords gone s) := by
  unfold unadmitRecords
  simp (maxDischargeDepth := 40) [*]

@[simp ↓] theorem discardVectors_keeps (a : State) (h : ℕ) (s : State) (h0 : Keeps a s) :
    Keeps a (discardVectors h s) := by
  unfold discardVectors
  simp (maxDischargeDepth := 40) [*]

@[simp ↓] theorem returnVectors_keeps (a : State) (h : ℕ) (s : State) (h0 : Keeps a s) :
    Keeps a (returnVectors h s) := by
  unfold returnVectors
  simp (maxDischargeDepth := 40) [*]

@[simp ↓] theorem rollbackTrigger_keeps (a : State) (code : ℕ) (lanes : BitVec 192) (s : State) (h0 : Keeps a s) :
    Keeps a (rollbackTrigger code lanes s) := by
  unfold rollbackTrigger
  simp (maxDischargeDepth := 40) [*]

@[simp ↓] theorem gateLink_keeps (a : State) (cause : ℕ) (l : ℕ) (s : State) (h0 : Keeps a s) :
    Keeps a (gateLink cause l s) := by
  unfold gateLink
  simp (maxDischargeDepth := 40) [*]

@[simp ↓] theorem refreshSearch_keeps (a : State) (s : State) (h0 : Keeps a s) :
    Keeps a (refreshSearch s) := by
  unfold refreshSearch
  simp (maxDischargeDepth := 40) [*]

@[simp ↓] theorem releaseUnread_keeps (a : State) (i : ℕ) (page : BitVec 32) (s : State) (h0 : Keeps a s) :
    Keeps a (releaseUnread i page s) := by
  unfold releaseUnread
  simp (maxDischargeDepth := 40) [*]

@[simp ↓] theorem reportJobs_keeps (a : State) (i : ℕ) (s : State) (h0 : Keeps a s) :
    Keeps a (reportJobs i s) := by
  unfold reportJobs
  simp (maxDischargeDepth := 40) [*]

@[simp ↓] theorem purgeUnit_keeps (a : State) (i : ℕ) (u : UnitId) (s : State) (h0 : Keeps a s) :
    Keeps a (purgeUnit i u s) := by
  unfold purgeUnit
  simp (maxDischargeDepth := 40) [*]

@[simp ↓] theorem emptyStation_keeps (a : State) (i : ℕ) (s : State) (h0 : Keeps a s) :
    Keeps a (emptyStation i s) := by
  unfold emptyStation
  simp (maxDischargeDepth := 40) [*]

@[simp ↓] theorem paperOutGates_keeps (a : State) (i : ℕ) (s : State) (h0 : Keeps a s) :
    Keeps a (paperOutGates i s) := by
  unfold paperOutGates
  simp (maxDischargeDepth := 40) [*]

@[simp ↓] theorem abortJobsAt_keeps (a : State) (i : ℕ) (pred : Job → Bool) (cause : ℕ) (input : ℕ) (flags : BitVec 16) (s : State) (h0 : Keeps a s) :
    Keeps a (abortJobsAt i pred cause input flags s) := by
  unfold abortJobsAt
  simp (maxDischargeDepth := 40) [*]

@[simp ↓] theorem abortJobs_keeps (a : State) (pred : Job → Bool) (cause : ℕ) (input : ℕ) (s : State) (h0 : Keeps a s) :
    Keeps a (abortJobs pred cause input s) := by
  unfold abortJobs
  simp (maxDischargeDepth := 40) [*]

@[simp ↓] theorem abortPending_keeps (a : State) (i : ℕ) (pred : Job → Bool) (cause : ℕ) (s : State) (h0 : Keeps a s) :
    Keeps a (abortPending i pred cause s) := by
  unfold abortPending
  simp (maxDischargeDepth := 40) [*]

@[simp ↓] theorem abortActivePages_keeps (a : State) (cause : ℕ) (s : State) (h0 : Keeps a s) :
    Keeps a (abortActivePages cause s) := by
  unfold abortActivePages
  simp (maxDischargeDepth := 40) [*]

@[simp ↓] theorem startJump_keeps (a : State) (h : ℕ) (start : ℤ) (target : Point) (s : State) (h0 : Keeps a s) :
    Keeps a (startJump h start target s) := by
  unfold startJump
  simp (maxDischargeDepth := 40) [*]

@[simp ↓] theorem releaseHeadTiles_keeps (a : State) (s : State) (h0 : Keeps a s) :
    Keeps a (releaseHeadTiles s) := by
  unfold releaseHeadTiles
  simp (maxDischargeDepth := 40) [*]

@[simp ↓] theorem finishLayer_keeps (a : State) (s : State) (h0 : Keeps a s) :
    Keeps a (finishLayer s) := by
  unfold finishLayer
  dsimp only
  (repeat' split) <;> simp (maxDischargeDepth := 40) [*]

@[simp ↓] theorem dropReassignment_keeps (a : State) (s : State) (h0 : Keeps a s) :
    Keeps a (dropReassignment s) := by
  unfold dropReassignment
  simp (maxDischargeDepth := 40) [*]

@[simp ↓] theorem decideLayer_keeps (a : State) (cause : ℕ) (s : State) (h0 : Keeps a s) :
    Keeps a (decideLayer cause s) := by
  unfold decideLayer
  simp (maxDischargeDepth := 40) [*]

@[simp ↓] theorem abortLayer_keeps (a : State) (cause : ℕ) (s : State) (h0 : Keeps a s) :
    Keeps a (abortLayer cause s) := by
  unfold abortLayer
  (repeat' split) <;> simp (maxDischargeDepth := 40) [*]

@[simp ↓] theorem gateStation_keeps (a : State) (i : ℕ) (abortCause : ℕ) (input : ℕ) (flags : BitVec 16) (s : State) (h0 : Keeps a s) :
    Keeps a (gateStation i abortCause input flags s) := by
  unfold gateStation
  simp (maxDischargeDepth := 40) [*]

@[simp ↓] theorem gateLayer_keeps (a : State) (abortCause : ℕ) (flags : BitVec 16) (s : State) (h0 : Keeps a s) :
    Keeps a (gateLayer abortCause flags s) := by
  unfold gateLayer
  simp (maxDischargeDepth := 40) [*]

@[simp ↓] theorem setCauseBy_keeps (a : State) (cause : ℕ) (links : List ℕ) (abortCause : ℕ) (input : ℕ) (flags : BitVec 16) (s : State) (h0 : Keeps a s) :
    Keeps a (setCauseBy cause links abortCause input flags s) := by
  unfold setCauseBy
  simp (maxDischargeDepth := 40) [*]

@[simp ↓] theorem setCause_keeps (a : State) (cause : ℕ) (links : List ℕ) (s : State) (h0 : Keeps a s) :
    Keeps a (setCause cause links s) := by
  unfold setCause
  simp (maxDischargeDepth := 40) [*]

@[simp ↓] theorem clearCause_keeps (a : State) (cause : ℕ) (links : List ℕ) (s : State) (h0 : Keeps a s) :
    Keeps a (clearCause cause links s) := by
  unfold clearCause
  simp (maxDischargeDepth := 40) [*]

@[simp ↓] theorem blankTile_keeps (a : State) (h : ℕ) (i : ℕ) (s : State) (h0 : Keeps a s) :
    Keeps a (blankTile h i s) := by
  unfold blankTile
  simp (maxDischargeDepth := 40) [*]

@[simp ↓] theorem tileFailed_keeps (a : State) (h : ℕ) (s : State) (h0 : Keeps a s) :
    Keeps a (tileFailed h s) := by
  unfold tileFailed
  dsimp only
  (repeat' split) <;> simp (maxDischargeDepth := 40) [*]

/-! ### Machine/ThermalOps.lean -/

@[simp ↓] theorem tripMotor_keeps (a : State) (m : ℕ) (s : State) (h0 : Keeps a s) :
    Keeps a (tripMotor m s) := by
  unfold tripMotor
  simp (maxDischargeDepth := 40) [*]

@[simp ↓] theorem tripUnit_keeps (a : State) (u : ℕ) (source : ℕ) (s : State) (h0 : Keeps a s) :
    Keeps a (tripUnit u source s) := by
  unfold tripUnit
  simp (maxDischargeDepth := 40) [*]

@[simp ↓] theorem clearTrips_keeps (a : State) (s : State) (h0 : Keeps a s) :
    Keeps a (clearTrips s) := by
  unfold clearTrips
  simp (maxDischargeDepth := 40) [*]

@[simp ↓] theorem remoteAbsent_keeps (a : State) (l : ℕ) (s : State) (h0 : Keeps a s) :
    Keeps a (remoteAbsent l s) := by
  unfold remoteAbsent
  simp (maxDischargeDepth := 40) [*]

/-! ### Machine/EngineOps.lean -/

@[simp ↓] theorem State_modLoop_keeps (a : State) (s : State) (i : ℕ) (f : Loop → Loop) (h0 : Keeps a s) :
    Keeps a (State.modLoop s i f) := by
  unfold State.modLoop
  simp (maxDischargeDepth := 40) [*]

@[simp ↓] theorem State_modGroup_keeps (a : State) (s : State) (i : ℕ) (f : Group → Group) (h0 : Keeps a s) :
    Keeps a (State.modGroup s i f) := by
  unfold State.modGroup
  simp (maxDischargeDepth := 40) [*]

@[simp ↓] theorem State_modRepctl_keeps (a : State) (s : State) (i : ℕ) (f : Repctl → Repctl) (h0 : Keeps a s) :
    Keeps a (State.modRepctl s i f) := by
  unfold State.modRepctl
  simp (maxDischargeDepth := 40) [*]

@[simp ↓] theorem State_modBias_keeps (a : State) (s : State) (c : ℕ) (f : Bias → Bias) (h0 : Keeps a s) :
    Keeps a (State.modBias s c f) := by
  unfold State.modBias
  simp (maxDischargeDepth := 40) [*]

@[simp ↓] theorem fitted_keeps (a : State) (v : Option ℤ) (s : State) (h0 : Keeps a s) :
    Keeps a (fitted v s).2 := by
  unfold fitted
  (repeat' split) <;> simp (maxDischargeDepth := 40) [*]

@[simp ↓] theorem setRef_keeps (a : State) (slot : ℕ) (v : ℤ) (s : State) (h0 : Keeps a s) :
    Keeps a (setRef slot v s) := by
  unfold setRef
  simp (maxDischargeDepth := 40) [*]

@[simp ↓] theorem enableLoop_keeps (a : State) (slot : ℕ) (s : State) (h0 : Keeps a s) :
    Keeps a (enableLoop slot s) := by
  unfold enableLoop
  simp (maxDischargeDepth := 40) [*]

@[simp ↓] theorem bindLoop_keeps (a : State) (old : Option ℕ) (new : Option ℕ) (inSel : Option Sel) (outSel : Sel) (s : State) (h0 : Keeps a s) :
    Keeps a (bindLoop old new inSel outSel s) := by
  unfold bindLoop
  (repeat' split) <;> simp (maxDischargeDepth := 40) [*]

@[simp ↓] theorem deliver_keeps (a : State) (x : Sel) (out : Int) (hold : Bool) (s : State) (h0 : Keeps a s) : Keeps a (deliver x out hold s).st := by
  unfold deliver; dsimp only; (repeat' split) <;> simp (maxDischargeDepth := 40) [*]

@[simp ↓] theorem commitLoop_keeps (a : State) (slot : ℕ) (held : Bool) (limited : Bool) (deselected : Bool) (s : State) (h0 : Keeps a s) :
    Keeps a (commitLoop slot held limited deselected s) := by
  unfold commitLoop
  simp (maxDischargeDepth := 40) [*]

@[simp ↓] theorem settleLoop_keeps (a : State) (slot : ℕ) (s : State) (h0 : Keeps a s) :
    Keeps a (settleLoop slot s) := by
  unfold settleLoop
  simp (maxDischargeDepth := 40) [*]

@[simp ↓] theorem settleGroup_keeps (a : State) (g : ℕ) (s : State) (h0 : Keeps a s) :
    Keeps a (settleGroup g s) := by
  unfold settleGroup
  (repeat' split) <;> simp (maxDischargeDepth := 40) [*]

@[simp ↓] theorem idleGroup_keeps (a : State) (g : ℕ) (s : State) (h0 : Keeps a s) :
    Keeps a (idleGroup g s) := by
  unfold idleGroup
  (repeat' split) <;> simp (maxDischargeDepth := 40) [*]

@[simp ↓] theorem settleFresh_keeps (a : State) (g : ℕ) (s : State) (h0 : Keeps a s) :
    Keeps a (settleFresh g s) := by
  unfold settleFresh
  simp (maxDischargeDepth := 40) [*]

@[simp ↓] theorem disableLoop_keeps (a : State) (slot : ℕ) (s : State) (h0 : Keeps a s) :
    Keeps a (disableLoop slot s) := by
  unfold disableLoop
  dsimp only
  (repeat' split) <;> simp (maxDischargeDepth := 40) [*]

@[simp ↓] theorem learn_keeps (a : State) (k : ℕ) (j : ℕ) (e : ℤ) (s : State) (h0 : Keeps a s) :
    Keeps a (learn k j e s) := by
  unfold learn
  simp (maxDischargeDepth := 40) [*]

@[simp ↓] theorem bindRepctl_keeps (a : State) (k : ℕ) (mode : ℕ) (period : ℕ) (s : State) (h0 : Keeps a s) :
    Keeps a (bindRepctl k mode period s) := by
  unfold bindRepctl
  simp (maxDischargeDepth := 40) [*]

@[simp ↓] theorem unbindRepctl_keeps (a : State) (k : ℕ) (s : State) (h0 : Keeps a s) :
    Keeps a (unbindRepctl k s) := by
  unfold unbindRepctl
  simp (maxDischargeDepth := 40) [*]

@[simp ↓] theorem clearRepctls_keeps (a : State) (i : ℕ) (s : State) (h0 : Keeps a s) :
    Keeps a (clearRepctls i s) := by
  unfold clearRepctls
  simp (maxDischargeDepth := 40) [*]

@[simp ↓] theorem assignPhase_keeps (a : State) (slots waiting : List Nat) (s : State) (h0 : Keeps a s) : KeepsOpt a (assignPhase slots waiting s) := by
  unfold assignPhase
  extract_lets others mine period
  split
  · exact keepsOpt_none _
  · intro t e
    obtain ⟨p, _, rfl⟩ := Option.map_eq_some_iff.1 e
    exact keeps_foldl _ _ _ _ h0 fun s i => by simp

@[simp ↓] theorem assignPhases_keeps (a : State) (us : List (List Nat)) (s : State) (h0 : Keeps a s) : KeepsOpt a (assignPhases us s) := by
  induction us generalizing s with
  | nil => exact keepsOpt_some _ _ h0
  | cons u us ih =>
    intro t e
    obtain ⟨s', e1, e2⟩ := Option.bind_eq_some_iff.1 e
    exact ih s' (assignPhase_keeps _ _ _ _ h0 s' e1) t e2

@[simp ↓] theorem idleGroupOf_keeps (a : State) (slot : Nat) (s : State) (h0 : Keeps a s) :
    Keeps a (idleGroupOf slot s) := by
  unfold idleGroupOf
  (repeat' split) <;> simp (maxDischargeDepth := 40) [*]

/-! ### Machine/FabricOps.lean -/

@[simp ↓] theorem renewBudgets_keeps (a : State) (s : State) (h0 : Keeps a s) :
    Keeps a (renewBudgets s) := by
  unfold renewBudgets
  simp (maxDischargeDepth := 40) [*]

@[simp ↓] theorem inWindow_keeps (a : State) (s : State) (h0 : Keeps a s) :
    Keeps a (inWindow s) := by
  unfold inWindow
  simp (maxDischargeDepth := 40) [*]

@[simp ↓] theorem toWindow_keeps (a : State) (k : ℕ) (s : State) (h0 : Keeps a s) :
    Keeps a (toWindow k s) := by
  unfold toWindow
  simp (maxDischargeDepth := 40) [*]

@[simp ↓] theorem classGrant_keeps (a : State) (c : ℕ) (s : State) (h0 : Keeps a s) :
    Keeps a (classGrant c s) := by
  unfold classGrant
  simp (maxDischargeDepth := 40) [*]

@[simp ↓] theorem classGrants_keeps (a : State) (c : ℕ) (n : ℕ) (s : State) (h0 : Keeps a s) :
    Keeps a (classGrants c n s) := by
  unfold classGrants
  simp (maxDischargeDepth := 40) [*]

@[simp ↓] theorem spend_keeps (a : State) (i : ℕ) (n : ℕ) (s : State) (h0 : Keeps a s) :
    Keeps a (spend i n s) := by
  unfold spend
  simp (maxDischargeDepth := 40) [*]

@[simp ↓] theorem newShare_keeps (a : State) (i : Nat) (grants : Nat) (s : State) (h0 : Keeps a s) :
    Keeps a (newShare i grants s) := by
  unfold newShare
  (repeat' split) <;> simp (maxDischargeDepth := 40) [*]

end Sys2Proof.Machine
end

