-- ==== Sys2Proof/Laws/KeepsMotion.lean ====
section
/-!
SUPPORT. What is kept (Laws/Keeps.lean) by motors, axes, clocks and Press operations.
-/
namespace Sys2Proof.Machine

open Sys2Proof Sys2Proof.Safety

/-! ### Machine/Bldc.lean -/

@[simp ↓] theorem syncLoss_keeps (a : State) (m : ℕ) (s : State) (h0 : Keeps a s) :
    Keeps a (syncLoss m s) := by
  unfold syncLoss
  simp (maxDischargeDepth := 40) [*]

@[simp ↓] theorem enterRun_keeps (a : State) (m : ℕ) (s : State) (h0 : Keeps a s) :
    Keeps a (enterRun m s) := by
  unfold enterRun
  simp (maxDischargeDepth := 40) [*]

@[simp ↓] theorem implausible_keeps (a : State) (m : ℕ) (s : State) (h0 : Keeps a s) :
    Keeps a (implausible m s) := by
  unfold implausible
  simp (maxDischargeDepth := 40) [*]

@[simp ↓] theorem execBemfZeroCross_keeps (a : State) (motor : ℕ) (delta : ℕ) (forward : Bool) (s : State) (h0 : Keeps a s) :
    KeepsOut a (execBemfZeroCross motor delta forward s) := by
  unfold execBemfZeroCross
  simp (maxDischargeDepth := 40) [*]

@[simp ↓] theorem freeDuty_keeps (a : State) (m : ℕ) (s : State) (h0 : Keeps a s) :
    Keeps a (freeDuty m s) := by
  unfold freeDuty
  simp (maxDischargeDepth := 40) [*]

@[simp ↓] theorem regulate_keeps (a : State) (m : ℕ) (t : ℕ) (s : State) (h0 : Keeps a s) :
    Keeps a (regulate m t s) := by
  unfold regulate
  simp (maxDischargeDepth := 40) [*]

@[simp ↓] theorem commutate_keeps (a : State) (m : ℕ) (s : State) (h0 : Keeps a s) :
    Keeps a (commutate m s) := by
  unfold commutate
  simp (maxDischargeDepth := 40) [*]

@[simp ↓] theorem execCommutation_keeps (a : State) (motor : ℕ) (s : State) (h0 : Keeps a s) :
    KeepsOut a (execCommutation motor s) := by
  unfold execCommutation
  dsimp only
  (repeat' split) <;> simp (maxDischargeDepth := 40) [*]

@[simp ↓] theorem execZeroCrossTimeout_keeps (a : State) (motor : ℕ) (s : State) (h0 : Keeps a s) :
    KeepsOut a (execZeroCrossTimeout motor s) := by
  unfold execZeroCrossTimeout
  simp (maxDischargeDepth := 40) [*]

@[simp ↓] theorem execCoastStandstill_keeps (a : State) (motor : ℕ) (s : State) (h0 : Keeps a s) :
    KeepsOut a (execCoastStandstill motor s) := by
  unfold execCoastStandstill
  simp (maxDischargeDepth := 40) [*]

@[simp ↓] theorem align_keeps (a : State) (m : ℕ) (s : State) (h0 : Keeps a s) :
    Keeps a (align m s) := by
  unfold align
  simp (maxDischargeDepth := 40) [*]

@[simp ↓] theorem execListenEnd_keeps (a : State) (motor : ℕ) (crossings : ℕ) (forward : Bool) (delta : ℕ) (s : State) (h0 : Keeps a s) :
    KeepsOut a (execListenEnd motor crossings forward delta s) := by
  unfold execListenEnd
  simp (maxDischargeDepth := 40) [*]

@[simp ↓] theorem execBrakeListen_keeps (a : State) (motor : ℕ) (crossings : ℕ) (s : State) (h0 : Keeps a s) :
    KeepsOut a (execBrakeListen motor crossings s) := by
  unfold execBrakeListen
  simp (maxDischargeDepth := 40) [*]

@[simp ↓] theorem execBrakeTimeout_keeps (a : State) (motor : ℕ) (s : State) (h0 : Keeps a s) :
    KeepsOut a (execBrakeTimeout motor s) := by
  unfold execBrakeTimeout
  simp (maxDischargeDepth := 40) [*]

@[simp ↓] theorem execAlignEnd_keeps (a : State) (motor : ℕ) (s : State) (h0 : Keeps a s) :
    KeepsOut a (execAlignEnd motor s) := by
  unfold execAlignEnd
  simp (maxDischargeDepth := 40) [*]

@[simp ↓] theorem execRampTimeout_keeps (a : State) (motor : ℕ) (s : State) (h0 : Keeps a s) :
    KeepsOut a (execRampTimeout motor s) := by
  unfold execRampTimeout
  simp (maxDischargeDepth := 40) [*]

@[simp ↓] theorem execDriveCurrentLimit_keeps (a : State) (isns : CurrentSense) (s : State) (h0 : Keeps a s) :
    KeepsOut a (execDriveCurrentLimit isns s) := by
  unfold execDriveCurrentLimit
  simp (maxDischargeDepth := 40) [*]

@[simp ↓] theorem execOvercurrentWindow_keeps (a : State) (motor : ℕ) (s : State) (h0 : Keeps a s) :
    KeepsOut a (execOvercurrentWindow motor s) := by
  unfold execOvercurrentWindow
  simp (maxDischargeDepth := 40) [*]

@[simp ↓] theorem execBusVoltageSample_keeps (a : State) (group : ℕ) (code : ℕ) (s : State) (h0 : Keeps a s) :
    KeepsOut a (execBusVoltageSample group code s) := by
  unfold execBusVoltageSample
  simp (maxDischargeDepth := 40) [*]

@[simp ↓] theorem execChopperFailTimeout_keeps (a : State) (fail : ChopperFail) (s : State) (h0 : Keeps a s) :
    KeepsOut a (execChopperFailTimeout fail s) := by
  unfold execChopperFailTimeout
  simp (maxDischargeDepth := 40) [*]

@[simp ↓] theorem execBrakeCurrentLimit_keeps (a : State) (motor : ℕ) (mv : ℕ) (s : State) (h0 : Keeps a s) :
    KeepsOut a (execBrakeCurrentLimit motor mv s) := by
  unfold execBrakeCurrentLimit
  simp (maxDischargeDepth := 40) [*]

@[simp ↓] theorem execBusBrakeStandstill_keeps (a : State) (motor : ℕ) (s : State) (h0 : Keeps a s) :
    KeepsOut a (execBusBrakeStandstill motor s) := by
  unfold execBusBrakeStandstill
  simp (maxDischargeDepth := 40) [*]

@[simp ↓] theorem execSpeedPinMeasure_keeps (a : State) (motor : ℕ) (value : ℕ) (s : State) (h0 : Keeps a s) :
    KeepsOut a (execSpeedPinMeasure motor value s) := by
  unfold execSpeedPinMeasure
  simp (maxDischargeDepth := 40) [*]

@[simp ↓] theorem execSpeedPinLost_keeps (a : State) (motor : ℕ) (s : State) (h0 : Keeps a s) :
    KeepsOut a (execSpeedPinLost motor s) := by
  unfold execSpeedPinLost
  simp (maxDischargeDepth := 40) [*]

@[simp ↓] theorem execSpeedPinResume_keeps (a : State) (motor : ℕ) (s : State) (h0 : Keeps a s) :
    KeepsOut a (execSpeedPinResume motor s) := by
  unfold execSpeedPinResume
  simp (maxDischargeDepth := 40) [*]

@[simp ↓] theorem execBldcConfig_keeps (a : State) (rq : Req) (s : State) (h0 : Keeps a s) :
    KeepsOut a (execBldcConfig rq s) := by
  unfold execBldcConfig
  simp (maxDischargeDepth := 40) [*]

@[simp ↓] theorem execBldcBusConfig_keeps (a : State) (rq : Req) (s : State) (h0 : Keeps a s) :
    KeepsOut a (execBldcBusConfig rq s) := by
  unfold execBldcBusConfig
  simp (maxDischargeDepth := 40) [*]

@[simp ↓] theorem execBldcStart_keeps (a : State) (rq : Req) (s : State) (h0 : Keeps a s) :
    KeepsOut a (execBldcStart rq s) := by
  unfold execBldcStart
  simp (maxDischargeDepth := 40) [*]

@[simp ↓] theorem execBldcSpeed_keeps (a : State) (rq : Req) (s : State) (h0 : Keeps a s) :
    KeepsOut a (execBldcSpeed rq s) := by
  unfold execBldcSpeed
  simp (maxDischargeDepth := 40) [*]

@[simp ↓] theorem stopMotor_keeps (a : State) (m : ℕ) (ramp : Bool) (s : State) (h0 : Keeps a s) :
    Keeps a (stopMotor m ramp s) := by
  unfold stopMotor
  simp (maxDischargeDepth := 40) [*]

@[simp ↓] theorem execBldcStop_keeps (a : State) (rq : Req) (s : State) (h0 : Keeps a s) :
    KeepsOut a (execBldcStop rq s) := by
  unfold execBldcStop
  simp (maxDischargeDepth := 40) [*]

@[simp ↓] theorem execBldcStatus_keeps (a : State) (rq : Req) (s : State) (h0 : Keeps a s) :
    KeepsOut a (execBldcStatus rq s) := by
  unfold execBldcStatus
  simp (maxDischargeDepth := 40) [*]

@[simp ↓] theorem execBldcRaw_keeps (a : State) (rq : Req) (s : State) (h0 : Keeps a s) :
    KeepsOut a (execBldcRaw rq s) := by
  unfold execBldcRaw
  simp (maxDischargeDepth := 40) [*]

/-! ### Machine/ClockOps.lean -/

@[simp ↓] theorem State_modSynth_keeps (a : State) (s : State) (i : ℕ) (f : Synth → Synth) (h0 : Keeps a s) :
    Keeps a (State.modSynth s i f) := by
  unfold State.modSynth
  simp (maxDischargeDepth := 40) [*]

@[simp ↓] theorem clockUngate_keeps (a : State) (s : State) (h0 : Keeps a s) :
    Keeps a (clockUngate s) := by
  unfold clockUngate
  simp (maxDischargeDepth := 40) [*]

@[simp ↓] theorem synthGateSet_keeps (a : State) (i : ℕ) (s : State) (h0 : Keeps a s) :
    Keeps a (synthGateSet i s) := by
  unfold synthGateSet
  simp (maxDischargeDepth := 40) [*]

@[simp ↓] theorem sysGateSet_keeps (a : State) (s : State) (h0 : Keeps a s) :
    Keeps a (sysGateSet s) := by
  unfold sysGateSet
  simp (maxDischargeDepth := 40) [*]

@[simp ↓] theorem loopOut_keeps (a : State) (loop : ℕ) (s : State) (h0 : Keeps a s) :
    Keeps a (loopOut loop s) := by
  unfold loopOut
  simp (maxDischargeDepth := 40) [*]

@[simp ↓] theorem relock_keeps (a : State) (i : ℕ) (s : State) (h0 : Keeps a s) :
    Keeps a (relock i s) := by
  unfold relock
  simp (maxDischargeDepth := 40) [*]

@[simp ↓] theorem applyRamp_keeps (a : State) (i : ℕ) (s : State) (h0 : Keeps a s) :
    Keeps a (applyRamp i s) := by
  unfold applyRamp
  simp (maxDischargeDepth := 40) [*]

/-! ### Machine/MotionOps.lean -/

@[simp ↓] theorem State_modAxis_keeps (a : State) (s : State) (a1 : ℕ) (f : Axis → Axis) (h0 : Keeps a s) :
    Keeps a (State.modAxis s a1 f) := by
  unfold State.modAxis
  simp (maxDischargeDepth := 40) [*]

@[simp ↓] theorem paceStop_keeps (a : State) (a1 : ℕ) (s : State) (h0 : Keeps a s) :
    Keeps a (paceStop a1 s) := by
  unfold paceStop
  simp (maxDischargeDepth := 40) [*]

@[simp ↓] theorem moveDone_keeps (a : State) (a1 : ℕ) (m : Move) (result : ℕ) (position : BitVec 64) (s : State) (h0 : Keeps a s) :
    Keeps a (moveDone a1 m result position s) := by
  unfold moveDone
  simp (maxDischargeDepth := 40) [*]

@[simp ↓] theorem foldMotion_keeps (a : State) (a1 : ℕ) (s : State) (h0 : Keeps a s) :
    Keeps a (foldMotion a1 s) := by
  unfold foldMotion
  simp (maxDischargeDepth := 40) [*]

@[simp ↓] theorem startMove_keeps (a : State) (a1 : ℕ) (at_ : ℕ) (joint : Option ℕ) (s : State) (h0 : Keeps a s) :
    Keeps a (startMove a1 at_ joint s) := by
  unfold startMove
  simp (maxDischargeDepth := 40) [*]

@[simp ↓] theorem completeMove_keeps (a : State) (a1 : ℕ) (s : State) (h0 : Keeps a s) :
    Keeps a (completeMove a1 s) := by
  unfold completeMove
  dsimp only
  (repeat' split) <;> simp (maxDischargeDepth := 40) [*]

@[simp ↓] theorem completeDue_keeps (a : State) (x n : Nat) (s : State) (h0 : Keeps a s) : Keeps a (completeDue x n s) := by
  induction n generalizing s with
  | zero => exact h0
  | succ n ih =>
    unfold completeDue
    dsimp only
    split
    · exact ih _ (completeMove_keeps _ _ _ h0)
    · exact h0

@[simp ↓] theorem flushMoves_keeps (a : State) (a1 : ℕ) (s : State) (h0 : Keeps a s) :
    Keeps a (flushMoves a1 s) := by
  unfold flushMoves
  simp (maxDischargeDepth := 40) [*]

@[simp ↓] theorem losePosition_keeps (a : State) (a1 : ℕ) (s : State) (h0 : Keeps a s) :
    Keeps a (losePosition a1 s) := by
  unfold losePosition
  simp (maxDischargeDepth := 40) [*]

@[simp ↓] theorem haltHard_keeps (a : State) (a1 : ℕ) (cause : ℕ) (v : ℕ) (s : State) (h0 : Keeps a s) :
    Keeps a (haltHard a1 cause v s) := by
  unfold haltHard
  simp (maxDischargeDepth := 40) [*]

@[simp ↓] theorem stopAxis_keeps (a : State) (a1 : ℕ) (hard : Bool) (cause : ℕ) (s : State) (h0 : Keeps a s) :
    Keeps a (stopAxis a1 hard cause s) := by
  unfold stopAxis
  dsimp only
  (repeat' split) <;> simp (maxDischargeDepth := 40) [*]

@[simp ↓] theorem limitStop_keeps (a : State) (a1 : ℕ) (hard : Bool) (s : State) (h0 : Keeps a s) :
    Keeps a (limitStop a1 hard s) := by
  unfold limitStop
  simp (maxDischargeDepth := 40) [*]

@[simp ↓] theorem enqueueMove_keeps (a : State) (a1 : ℕ) (m : Move) (s : State) (h0 : Keeps a s) :
    Keeps a (enqueueMove a1 m s) := by
  unfold enqueueMove
  simp (maxDischargeDepth := 40) [*]

/-! ### Machine/PressOps.lean -/

@[simp ↓] theorem admitTiles_keeps (a : State) (i : ℕ) (w : Sweep) (s : State) (h0 : Keeps a s) :
    Keeps a (admitTiles i w s) := by
  unfold admitTiles
  (repeat' split) <;> simp (maxDischargeDepth := 40) [*]

@[simp ↓] theorem noteSweep_keeps (a : State) (i : ℕ) (w : Sweep) (s : State) (h0 : Keeps a s) :
    Keeps a (noteSweep i w s) := by
  unfold noteSweep
  (repeat' split) <;> simp (maxDischargeDepth := 40) [*]

@[simp ↓] theorem admitSweep_keeps (a : State) (i : ℕ) (n : ℕ) (s : State) (h0 : Keeps a s) :
    Keeps a (admitSweep i n s) := by
  unfold admitSweep
  simp (maxDischargeDepth := 40) [*]

@[simp ↓] theorem readySweeps_keeps (a : State) (i : ℕ) (s : State) (h0 : Keeps a s) :
    Keeps a (readySweeps i s) := by
  unfold readySweeps
  simp (maxDischargeDepth := 40) [*]

@[simp ↓] theorem noteExhausted_keeps (a : State) (i : ℕ) (before : Bool) (s : State) (h0 : Keeps a s) :
    Keeps a (noteExhausted i before s) := by
  unfold noteExhausted
  simp (maxDischargeDepth := 40) [*]

@[simp ↓] theorem declareDead_keeps (a : State) (i : ℕ) (b : ℕ) (count : Station → Station) (s : State) (h0 : Keeps a s) :
    Keeps a (declareDead i b count s) := by
  unfold declareDead
  simp (maxDischargeDepth := 40) [*]

@[simp ↓] theorem judgeSlots_keeps (a : State) (i : ℕ) (n : ℕ) (s : State) (h0 : Keeps a s) :
    Keeps a (judgeSlots i n s) := by
  unfold judgeSlots
  simp (maxDischargeDepth := 40) [*]

@[simp ↓] theorem groupEdge_keeps (a : State) (i : ℕ) (n : ℕ) (stamp : ℤ) (s : State) (h0 : Keeps a s) :
    Keeps a (groupEdge i n stamp s) := by
  unfold groupEdge
  dsimp only
  (repeat' split) <;> simp (maxDischargeDepth := 40) [*]

@[simp ↓] theorem synthEdge_keeps (a : State) (i : Nat) (n : Nat) (stamp : Int) (s : State) (h0 : Keeps a s) :
    Keeps a (synthEdge i n stamp s) := by
  unfold synthEdge
  (repeat' split) <;> simp (maxDischargeDepth := 40) [*]

@[simp ↓] theorem damageTile_keeps (a : State) (handle : ℕ) (s : State) (h0 : Keeps a s) :
    Keeps a (damageTile handle s) := by
  unfold damageTile
  (repeat' split) <;> simp (maxDischargeDepth := 40) [*]

@[simp ↓] theorem laneFetch_keeps (a : State) (i : Nat) (w : Sweep) (b : Nat) (k : Nat) (s : State) (h0 : Keeps a s) :
    Keeps a (laneFetch i w b k s) := by
  unfold laneFetch
  split
  · exact h0
  · exact keeps_foldl _ _ _ _ h0 fun s b => by
      dsimp only
      split
      · exact keeps_refl _
      · have h : Keeps s (if k % 16 = 0 then classGrant 1 s else s) := keeps_ite _ _ _ _ (classGrant_keeps _ _ _ (keeps_refl _)) (keeps_refl _)
        exact keeps_ite _ _ _ _ (keeps_ite _ _ _ _ (lagReadWord_keeps _ _ _ _ _ _ h)
          (damageTile_keeps _ _ _ (lagReadWord_keeps _ _ _ _ _ _ h))) h

@[simp ↓] theorem pressEdge_keeps (a : State) (i : ℕ) (n : ℕ) (s : State) (h0 : Keeps a s) :
    Keeps a (pressEdge i n s) := by
  unfold pressEdge
  simp (maxDischargeDepth := 40) [*]

@[simp ↓] theorem topEdge_keeps (a : State) (src : ℕ) (stamp : ℤ) (s : State) (h0 : Keeps a s) :
    Keeps a (topEdge src stamp s) := by
  unfold topEdge
  dsimp only
  (repeat' split) <;> simp (maxDischargeDepth := 40) [*]

@[simp ↓] theorem applySetpoint_keeps (a : State) (c : ℕ) (v : ℤ) (s : State) (h0 : Keeps a s) :
    Keeps a (applySetpoint c v s) := by
  unfold applySetpoint
  dsimp only
  (repeat' split) <;> simp (maxDischargeDepth := 40) [*]

@[simp ↓] theorem startPage_keeps (a : State) (i : ℕ) (j : Job) (s : State) (h0 : Keeps a s) :
    Keeps a (startPage i j s) := by
  unfold startPage
  dsimp only
  repeat' (first | (simp (maxDischargeDepth := 40) [*]; done) | split | intro _ | apply keeps_foldl)

@[simp ↓] theorem heaterOff_keeps (a : State) (h : ℕ) (s : State) (h0 : Keeps a s) :
    Keeps a (heaterOff h s) := by
  unfold heaterOff
  simp (maxDischargeDepth := 40) [*]

@[simp ↓] theorem mainsLost_keeps (a : State) (src : ℕ) (s : State) (h0 : Keeps a s) :
    Keeps a (mainsLost src s) := by
  unfold mainsLost
  simp (maxDischargeDepth := 40) [*]

@[simp ↓] theorem roleUngate_keeps (a : State) (s : State) (h0 : Keeps a s) :
    Keeps a (roleUngate s) := by
  unfold roleUngate
  simp (maxDischargeDepth := 40) [*]

@[simp ↓] theorem roleActive_keeps (a : State) (g : ℕ) (s : State) (h0 : Keeps a s) :
    Keeps a (roleActive g s) := by
  unfold roleActive
  simp (maxDischargeDepth := 40) [*]

@[simp ↓] theorem roleInactive_keeps (a : State) (g : ℕ) (s : State) (h0 : Keeps a s) :
    Keeps a (roleInactive g s) := by
  unfold roleInactive
  simp (maxDischargeDepth := 40) [*]

/-! ### Machine/Timebase.lean -/

@[simp ↓] theorem leftTrack_keeps (a : State) (i : ℕ) (s : State) (h0 : Keeps a s) :
    Keeps a (leftTrack i s) := by
  unfold leftTrack
  simp (maxDischargeDepth := 40) [*]

@[simp ↓] theorem enterTrack_keeps (a : State) (i : ℕ) (s : State) (h0 : Keeps a s) :
    Keeps a (enterTrack i s) := by
  unfold enterTrack
  simp (maxDischargeDepth := 40) [*]

@[simp ↓] theorem loseSource_keeps (a : State) (i : ℕ) (missing : Bool) (s : State) (h0 : Keeps a s) :
    Keeps a (loseSource i missing s) := by
  unfold loseSource
  simp (maxDischargeDepth := 40) [*]

@[simp ↓] theorem countEdge_keeps (a : State) (i : ℕ) (d : ℤ) (stamp : ℤ) (s : State) (h0 : Keeps a s) :
    Keeps a (countEdge i d stamp s) := by
  unfold countEdge
  simp (maxDischargeDepth := 40) [*]

@[simp ↓] theorem illegalStep_keeps (a : State) (i : ℕ) (s : State) (h0 : Keeps a s) :
    Keeps a (illegalStep i s) := by
  unfold illegalStep
  simp (maxDischargeDepth := 40) [*]

@[simp ↓] theorem captureEdge_keeps (a : State) (i : Nat) (e : EdgeIn) (s : State) (h0 : Keeps a s) : Keeps a (captureEdge i e s) := by
  have hm : ∀ f, Keeps a (s.modSource i f) := fun f => by simp (maxDischargeDepth := 40) [h0]
  unfold captureEdge
  extract_lets x on stamp
  split
  · exact keeps_ite _ _ _ _ (countEdge_keeps _ _ _ _ _ h0) h0
  · refine keeps_ite _ _ _ _ h0 ?_
    exact keeps_ite _ _ _ _ (countEdge_keeps _ _ _ _ _ (hm _)) (hm _)
  · exact keeps_ite _ _ _ _ h0 (hm _)
  · refine keeps_ite _ _ _ _ h0 ?_
    refine keeps_ite _ _ _ _ (hm _) ?_
    split
    · exact hm _
    · exact illegalStep_keeps _ _ _ (hm _)
    · exact countEdge_keeps _ _ _ _ _ (hm _)

@[simp ↓] theorem execEdgeCapture_keeps (a : State) (source : ℕ) (e : EdgeIn) (s : State) (h0 : Keeps a s) :
    KeepsOut a (execEdgeCapture source e s) := by
  unfold execEdgeCapture
  simp (maxDischargeDepth := 40) [*]

@[simp ↓] theorem giveError_keeps (a : State) (i : ℕ) (e : ℤ) (s : State) (h0 : Keeps a s) :
    Keeps a (giveError i e s) := by
  unfold giveError
  dsimp only
  (repeat' split) <;> simp (maxDischargeDepth := 40) [*]

@[simp ↓] theorem trackEdge_keeps (a : State) (i : ℕ) (ed : FifoEdge) (s : State) (h0 : Keeps a s) :
    Keeps a (trackEdge i ed s) := by
  unfold trackEdge
  simp (maxDischargeDepth := 40) [*]

@[simp ↓] theorem execTrackerEdgeUpdate_keeps (a : State) (source : ℕ) (s : State) (h0 : Keeps a s) :
    KeepsOut a (execTrackerEdgeUpdate source s) := by
  unfold execTrackerEdgeUpdate
  (repeat' split) <;> simp (maxDischargeDepth := 40) [*]

@[simp ↓] theorem execSourceLostTimeout_keeps (a : State) (source : ℕ) (s : State) (h0 : Keeps a s) :
    KeepsOut a (execSourceLostTimeout source s) := by
  unfold execSourceLostTimeout
  simp (maxDischargeDepth := 40) [*]

@[simp ↓] theorem holdover_keeps (a : State) (is : List ℕ) (s : State) (h0 : Keeps a s) :
    Keeps a (holdover is s) := by
  unfold holdover
  simp (maxDischargeDepth := 40) [*]

@[simp ↓] theorem syncViolation_keeps (a : State) (unit : ℕ) (code : ℕ) (slot : ℕ) (s : State) (h0 : Keeps a s) :
    Keeps a (syncViolation unit code slot s) := by
  unfold syncViolation
  simp (maxDischargeDepth := 40) [*]

@[simp ↓] theorem joinFails_keeps (a : State) (s : State) (h0 : Keeps a s) :
    Keeps a (joinFails s) := by
  unfold joinFails
  (repeat' split) <;> simp (maxDischargeDepth := 40) [*]

@[simp ↓] theorem execSyncFrameStart_keeps (a : State) (s : State) (h0 : Keeps a s) :
    KeepsOut a (execSyncFrameStart s) := by
  unfold execSyncFrameStart
  dsimp only
  (repeat' split) <;> simp (maxDischargeDepth := 40) [*]

@[simp ↓] theorem remoteState_keeps (a : State) (i : ℕ) (count : ℕ) (time : ℕ) (period : ℕ) (s : State) (h0 : Keeps a s) :
    Keeps a (remoteState i count time period s) := by
  unfold remoteState
  simp (maxDischargeDepth := 40) [*]

@[simp ↓] theorem peerHoldover_keeps (a : State) (rejoin : Bool) (s : State) (h0 : Keeps a s) :
    Keeps a (peerHoldover rejoin s) := by
  unfold peerHoldover
  simp (maxDischargeDepth := 40) [*]

@[simp ↓] theorem compareTime_keeps (a : State) (s : State) (h0 : Keeps a s) :
    Keeps a (compareTime s) := by
  unfold compareTime
  simp (maxDischargeDepth := 40) [*]

@[simp ↓] theorem takeEcho_keeps (a : State) (dev : ℕ) (late : ℕ) (s : State) (h0 : Keeps a s) :
    Keeps a (takeEcho dev late s) := by
  unfold takeEcho
  simp (maxDischargeDepth := 40) [*]

@[simp ↓] theorem execSyncSlotReceive_keeps (a : State) (dev : Nat) (slot : SlotIn) (s : State) (h0 : Keeps a s) : KeepsOut a (execSyncSlotReceive dev slot s) := by
  have hy : ∀ (x : SyncBus) (t : State), Keeps a t → Keeps a { t with sync := x } := fun x t h => by simp (maxDischargeDepth := 40) [h]
  unfold execSyncSlotReceive
  extract_lets y w run s1 s2 s3 z s4 type tag count time t2 z2 s6 s5
  refine keepsOut_ite _ _ _ _ (keepsOut_next _ _ h0) (keepsOut_ite _ _ _ _ ?_ (keepsOut_ite _ _ _ _ (keepsOut_next _ _ h0)
    (keepsOut_ite _ _ _ _ ?_ (keepsOut_ite _ _ _ _ ?_ ?_))))
  · exact keepsOut_next _ _ (joinFails_keeps _ _ (syncViolation_keeps _ _ _ _ _ h0))
  · have h1 : Keeps a s1 := syncViolation_keeps _ _ _ _ _ (hy _ _ h0)
    exact keepsOut_next _ _ (keeps_ite _ _ _ _ (present_keeps _ _ _ _ _ h1) h1)
  · exact keepsOut_next _ _ (holdover_keeps _ _ _ (present_keeps _ _ _ _ _ (syncViolation_keeps _ _ _ _ _ (hy _ _ h0))))
  · have h3 : Keeps a s3 := keeps_ite _ _ _ _ (takeEcho_keeps _ _ _ _ h0) h0
    have h4 : Keeps a s4 := hy _ _ h3
    have h5 : Keeps a s5 := by
      refine keeps_ite _ _ _ _ (remoteState_keeps _ _ _ _ _ _ h4) (keeps_ite _ _ _ _ (hy _ _ h4) (keeps_ite _ _ _ _ ?_ h4))
      split
      · exact complete_keeps _ _ _ _ _ (hy _ _ h4)
      · exact hy _ _ h4
    exact keepsOut_ite _ _ _ _ (keepsOut_next _ _ (compareTime_keeps _ _ h5)) (keepsOut_next _ _ h5)

@[simp ↓] theorem execSyncMasterSilent_keeps (a : State) (s : State) (h0 : Keeps a s) :
    KeepsOut a (execSyncMasterSilent s) := by
  unfold execSyncMasterSilent
  simp (maxDischargeDepth := 40) [*]

@[simp ↓] theorem execSyncPeerSilent_keeps (a : State) (dev : ℕ) (s : State) (h0 : Keeps a s) :
    KeepsOut a (execSyncPeerSilent dev s) := by
  unfold execSyncPeerSilent
  simp (maxDischargeDepth := 40) [*]

@[simp ↓] theorem stepTime_keeps (a : State) (offset : ℤ) (s : State) (h0 : Keeps a s) :
    Keeps a (stepTime offset s) := by
  unfold stepTime
  simp (maxDischargeDepth := 40) [*]

@[simp ↓] theorem execSyncJoinMeasure_keeps (a : State) (offset : ℤ) (s : State) (h0 : Keeps a s) :
    KeepsOut a (execSyncJoinMeasure offset s) := by
  unfold execSyncJoinMeasure
  simp (maxDischargeDepth := 40) [*]

@[simp ↓] theorem execSyncJoinEcho_keeps (a : State) (s : State) (h0 : Keeps a s) :
    KeepsOut a (execSyncJoinEcho s) := by
  unfold execSyncJoinEcho
  simp (maxDischargeDepth := 40) [*]

@[simp ↓] theorem execSyncJoinDeadline_keeps (a : State) (s : State) (h0 : Keeps a s) :
    KeepsOut a (execSyncJoinDeadline s) := by
  unfold execSyncJoinDeadline
  simp (maxDischargeDepth := 40) [*]

@[simp ↓] theorem releaseRepctl_keeps (a : State) (i : ℕ) (s : State) (h0 : Keeps a s) :
    Keeps a (releaseRepctl i s) := by
  unfold releaseRepctl
  (repeat' split) <;> simp (maxDischargeDepth := 40) [*]

@[simp ↓] theorem execTimebaseSourceSet_keeps (a : State) (rq : Req) (s : State) (h0 : Keeps a s) :
    KeepsOut a (execTimebaseSourceSet rq s) := by
  unfold execTimebaseSourceSet
  simp (maxDischargeDepth := 40) [*]

@[simp ↓] theorem execTimebaseSourceStatus_keeps (a : State) (rq : Req) (s : State) (h0 : Keeps a s) :
    KeepsOut a (execTimebaseSourceStatus rq s) := by
  unfold execTimebaseSourceStatus
  simp (maxDischargeDepth := 40) [*]

@[simp ↓] theorem execTimebaseSyncConfig_keeps (a : State) (rq : Req) (s : State) (h0 : Keeps a s) :
    KeepsOut a (execTimebaseSyncConfig rq s) := by
  unfold execTimebaseSyncConfig
  simp (maxDischargeDepth := 40) [*]

@[simp ↓] theorem execTimebaseFilterRaw_keeps (a : State) (rq : Req) (s : State) (h0 : Keeps a s) :
    KeepsOut a (execTimebaseFilterRaw rq s) := by
  unfold execTimebaseFilterRaw
  simp (maxDischargeDepth := 40) [*]

end Sys2Proof.Machine
end

