-- ==== Sys2Proof/Laws/KeepsDma.lean ====
section
/-!
SUPPORT. What is kept (Laws/Keeps.lean) by DRAM, the fabric, DMA, cameras, clocks and counters.
-/
namespace Sys2Proof.Machine

open Sys2Proof Sys2Proof.Safety

/-! ### Machine/Dram.lean -/

@[simp ↓] theorem stopCore_keeps (a : State) (core : ℕ) (s : State) (h0 : Keeps a s) :
    Keeps a (stopCore core s) := by
  unfold stopCore
  simp (maxDischargeDepth := 40) [*]

@[simp ↓] theorem refresh_keeps (a : State) (channel : ℕ) (s : State) (h0 : Keeps a s) :
    Keeps a (refresh channel s) := by
  unfold refresh
  simp (maxDischargeDepth := 40) [*]

@[simp ↓] theorem inRowWindow_keeps (a : State) (s : State) (h0 : Keeps a s) :
    Keeps a (inRowWindow s) := by
  unfold inRowWindow
  simp (maxDischargeDepth := 40) [*]

@[simp ↓] theorem activate_keeps (a : State) (p : Cellpos) (requester : ℕ) (s : State) (h0 : Keeps a s) :
    Keeps a (activate p requester s) := by
  unfold activate
  simp (maxDischargeDepth := 40) [*]

@[simp ↓] theorem settleChannel_keeps (a : State) (channel : Nat) (s : State) (h0 : Keeps a s) :
    Keeps a (settleChannel channel s) := by
  unfold settleChannel
  (repeat' split) <;> simp (maxDischargeDepth := 40) [*]

@[simp ↓] theorem openRow_keeps (a : State) (requester : Nat) (a1 : Nat) (s : State) (h0 : Keeps a s) :
    Keeps a (openRow requester a1 s) := by
  unfold openRow
  dsimp only
  (repeat' split) <;> simp (maxDischargeDepth := 40) [*]

@[simp ↓] theorem dramUncorrectable_keeps (a : State) (told : Bool) (w : Nat) (requester : Nat) (s : State) (h0 : Keeps a s) :
    Keeps a (dramUncorrectable told w requester s) := by
  unfold dramUncorrectable
  (repeat' split) <;> simp (maxDischargeDepth := 40) [*]

@[simp ↓] theorem dramCorrected_keeps (a : State) (w : ℕ) (requester : ℕ) (s : State) (h0 : Keeps a s) :
    Keeps a (dramCorrected w requester s) := by
  unfold dramCorrected
  simp (maxDischargeDepth := 40) [*]

@[simp ↓] theorem checkWord_keeps (a : State) (told : Bool) (requester : Nat) (w : Nat) (upset : Nat) (s : State) (h0 : Keeps a s) :
    Keeps a (checkWord told requester w upset s).2 := by
  unfold checkWord
  dsimp only
  (repeat' split) <;> simp (maxDischargeDepth := 40) [*]

@[simp ↓] theorem checkWords_keeps (a : State) (r k w upset : Nat) (s : State) (h0 : Keeps a s) : Keeps a (checkWords r k w upset s).2 := by
  induction k generalizing w upset s with
  | zero => exact h0
  | succ k ih =>
    unfold checkWords
    dsimp only
    split
    · exact ih _ _ _ (checkWord_keeps _ _ _ _ _ _ h0)
    · exact checkWord_keeps _ _ _ _ _ _ h0

theorem dram_advanceTo (s k) : (State.advanceTo s k).dram = s.dram := by
  unfold State.advanceTo State.advance
  dsimp only
  split <;> [split; rfl] <;> rfl

theorem dram_present (a b c s) : (present a b c s).dram = s.dram := rfl

theorem merge_present (a b c s) : (present a b c s).dram.merge = s.dram.merge := rfl

theorem dram_presentFatal (a b c s) : (presentFatal a b c s).dram = s.dram := rfl

@[simp] theorem merge_inRowWindow (s) : (inRowWindow s).dram.merge = s.dram.merge := by
  unfold inRowWindow
  dsimp only
  split <;> rfl

@[simp] theorem merge_settleChannel (c s) : (settleChannel c s).dram.merge = s.dram.merge := by
  unfold settleChannel
  dsimp only
  rw [merge_inRowWindow, dram_advanceTo]
  split <;> rfl

@[simp] theorem merge_activate (p r s) : (activate p r s).dram.merge = s.dram.merge := by
  unfold activate
  dsimp only
  split
  · rfl
  · rw [merge_present]

@[simp] theorem merge_openRow (r a s) : (openRow r a s).dram.merge = s.dram.merge := by
  unfold openRow
  dsimp only
  split
  · exact merge_settleChannel _ _
  · split
    · rw [merge_activate, merge_settleChannel, dram_advanceTo, merge_settleChannel]
    · rw [merge_activate, merge_settleChannel]

@[simp] theorem merge_stopCore (c s) : (stopCore c s).dram.merge = s.dram.merge := by unfold stopCore; split <;> rfl

@[simp] theorem merge_freshWord (d : Dram) (w) : (d.freshWord w).merge = d.merge := by unfold Dram.freshWord; split <;> rfl

@[simp] theorem merge_checkWord (b r w u s) : (checkWord b r w u s).2.dram.merge = s.dram.merge := by
  unfold checkWord dramUncorrectable dramCorrected
  dsimp only
  split
  · exact merge_openRow _ _ _
  · split
    · rw [dram_present]; exact merge_openRow _ _ _
    · split <;> split <;> simp (maxDischargeDepth := 40) [dram_present, dram_presentFatal]

@[simp] theorem merge_rmwWord (e k s) : (rmwWord e k s).dram.merge = s.dram.merge := by
  unfold rmwWord
  dsimp only
  repeat' split
  all_goals simp

@[simp] theorem merge_wholeWord (e s k) : (wholeWord e s k).dram.merge = s.dram.merge := by
  unfold wholeWord
  split <;> simp

theorem merge_foldl {α : Type} (f : State → α → State) (hf : ∀ s x, (f s x).dram.merge = s.dram.merge) (l : List α) (s : State) :
    (l.foldl f s).dram.merge = s.dram.merge := by
  induction l generalizing s with
  | nil => rfl
  | cons x l ih => rw [List.foldl_cons, ih, hf]

theorem merge_writeOut (e s) : (writeOut e s).dram.merge = s.dram.merge.filter (fun f => f.block ≠ e.block) := by
  unfold writeOut
  dsimp only
  split <;> rw [merge_foldl] <;> simp

theorem length_writeOut (e : MergeEntry) (l : List MergeEntry) (s : State) (h : s.dram.merge = e :: l) :
    (writeOut e s).dram.merge.length ≤ l.length := by
  rw [merge_writeOut, h]
  simpa using List.length_filter_le _ _

@[simp ↓] theorem wfUpd_writeValid (a m : List Host.Cell) (e : MergeEntry) (h : WfUpd 0#8 a m) : WfUpd 0#8 a (writeValid m e) := by
  unfold writeValid
  refine wfUpd_foldl _ _ _ _ _ h fun b x => ?_
  split
  · exact wfUpd_cellSet _ _ _ _ _ (wfUpd_self _ _)
  · exact wfUpd_self _ _

@[simp ↓] theorem rmwWord_keeps (a : State) (e : MergeEntry) (k : Nat) (s : State) (h0 : Keeps a s) :
    Keeps a (rmwWord e k s) := by
  unfold rmwWord
  dsimp only
  (repeat' split) <;> simp (maxDischargeDepth := 40) [*]

@[simp ↓] theorem wholeWord_keeps (a : State) (e : MergeEntry) (s : State) (k : Nat) (h0 : Keeps a s) :
    Keeps a (wholeWord e s k) := by
  unfold wholeWord
  (repeat' split) <;> simp (maxDischargeDepth := 40) [*]

@[simp ↓] theorem writeOut_keeps (a : State) (e : MergeEntry) (s : State) (h0 : Keeps a s) :
    Keeps a (writeOut e s) := by
  unfold writeOut
  (repeat' split) <;> simp (maxDischargeDepth := 40) [*]

@[simp ↓] theorem mergeWrite_keeps (b : State) (requester a : Nat) (bs : List Byte) (s : State) (h0 : Keeps b s) : Keeps b (mergeWrite requester a bs s) := by
  have aux : ∀ t : State, Keeps b t → (Inv b → t.dram.merge.any (fun e => e.block = a / 64) = true ∨ t.dram.merge.length < 32) → ∀ e : MergeEntry,
      Keeps b (if e.complete then writeOut e t
        else if t.dram.merge.any fun f => f.block = a / 64 then
          { t with dram := { t.dram with merge := t.dram.merge.map fun f => if f.block = a / 64 then e else f } }
        else { t with dram := { t.dram with merge := t.dram.merge ++ [e] } }) := by
    intro t ht hm e
    split
    · exact writeOut_keeps _ _ _ ht
    · split
      · simp (maxDischargeDepth := 40) [ht]
      · rename_i hn
        refine ⟨ht.1, ht.2.1, ht.2.2.1, fun hb => ?_⟩
        have hl : t.dram.merge.length < 32 := (hm hb).resolve_left hn
        exact (show Keeps t _ by simp (maxDischargeDepth := 40) [hl]).2.2.2 (ht.2.2.2 hb)
  unfold mergeWrite
  dsimp only
  apply aux
  · split
    · exact h0
    · split
      · exact writeOut_keeps _ _ _ h0
      · exact h0
  · intro hb
    split
    · rename_i h
      simpa using h
    · split
      · rename_i e l h
        refine Or.inr (Nat.lt_of_le_of_lt (length_writeOut _ _ _ h) ?_)
        have := inv_dram_merge (h0.2.2.2 hb)
        rw [h] at this
        simpa using this
      · rename_i h
        simp (maxDischargeDepth := 40) [h]

@[simp ↓] theorem blockWrite_keeps (a : State) (requester : Nat) (a1 : Nat) (bs : List Byte) (s : State) (h0 : Keeps a s) :
    Keeps a (blockWrite requester a1 bs s) := by
  unfold blockWrite
  (repeat' split) <;> simp (maxDischargeDepth := 40) [*]

@[simp ↓] theorem storeBlocks_keeps (a : State) (r k x : Nat) (bs : List Byte) (s : State) (h0 : Keeps a s) : Keeps a (storeBlocks r k x bs s) := by
  induction k generalizing x bs s with
  | zero => exact h0
  | succ k ih =>
    unfold storeBlocks
    dsimp only
    split
    · exact h0
    · exact ih _ _ _ (blockWrite_keeps _ _ _ _ _ h0)

@[simp ↓] theorem flushBlock_keeps (a : State) (b : ℕ) (s : State) (h0 : Keeps a s) :
    Keeps a (flushBlock b s) := by
  unfold flushBlock
  (repeat' split) <;> simp (maxDischargeDepth := 40) [*]

@[simp ↓] theorem fetchWords_keeps (a : State) (r x n upset : Nat) (s : State) (h0 : Keeps a s) : Keeps a (fetchWords r x n upset s).2 := by
  unfold fetchWords
  dsimp only
  split <;> simp (maxDischargeDepth := 40) [*]

@[simp ↓] theorem serve_keeps (a : State) (r : DramReq) (s : State) (h0 : Keeps a s) : Keeps a (serve r s) := by
  unfold serve
  dsimp only
  split
  · split <;> simp (maxDischargeDepth := 40) [*]
  · simp (maxDischargeDepth := 40) [*]

@[simp ↓] theorem drainQueued_keeps (a : State) (a1 : Nat) (n : Nat) (s : State) (h0 : Keeps a s) :
    Keeps a (drainQueued a1 n s) := by
  unfold drainQueued
  (repeat' split) <;> simp (maxDischargeDepth := 40) [*]

@[simp ↓] theorem dramFetch_keeps (a : State) (requester : Nat) (a1 : Nat) (n : Nat) (upset : Nat) (s : State) (h0 : Keeps a s) :
    Keeps a (dramFetch requester a1 n upset s).2 := by
  unfold dramFetch
  (repeat' split) <;> simp (maxDischargeDepth := 40) [*]

@[simp ↓] theorem dramStore_keeps (a : State) (requester : Nat) (a1 : Nat) (bs : List Byte) (s : State) (h0 : Keeps a s) :
    Keeps a (dramStore requester a1 bs s) := by
  unfold dramStore
  (repeat' split) <;> simp (maxDischargeDepth := 40) [*]

@[simp ↓] theorem unitStore_keeps (a : State) (requester : Nat) (a1 : Nat) (bs : List Byte) (s : State) (h0 : Keeps a s) :
    Keeps a (unitStore requester a1 bs s) := by
  unfold unitStore
  (repeat' split) <;> simp (maxDischargeDepth := 40) [*]

@[simp ↓] theorem coreRead_keeps (a : State) (core : Nat) (address : Nat) (n : Nat) (s : State) (h0 : Keeps a s) :
    Keeps a (coreRead core address n s) := by
  unfold coreRead
  (repeat' split) <;> simp (maxDischargeDepth := 40) [*]

@[simp ↓] theorem tableRead_keeps (a : State) (code : Nat) (rq : Req) (address : Nat) (n : Nat) (s : State) (h0 : Keeps a s) :
    Keeps a (tableRead code rq address n s) := by
  unfold tableRead
  (repeat' split) <;> simp (maxDischargeDepth := 40) [*]

@[simp ↓] theorem putTable_keeps (a : State) (core : Nat) (address : Nat) (bs : List Byte) (s : State) (h0 : Keeps a s) :
    KeepsOpt a (putTable core address bs s) := by
  unfold putTable
  (repeat' split) <;> simp (maxDischargeDepth := 40) [*]

@[simp ↓] theorem execMergeEntryWriteout_keeps (a : State) (block : ℕ) (reason : MergeWhy) (s : State) (h0 : Keeps a s) :
    KeepsOut a (execMergeEntryWriteout block reason s) := by
  unfold execMergeEntryWriteout
  (repeat' split) <;> simp (maxDischargeDepth := 40) [*]

@[simp ↓] theorem execDramRequestIssue_keeps (a : State) (channel : ℕ) (enter : List DramReq) (s : State) (h0 : Keeps a s) :
    KeepsOut a (execDramRequestIssue channel enter s) := by
  unfold execDramRequestIssue
  dsimp only
  (repeat' split) <;> simp (maxDischargeDepth := 40) [*]

@[simp ↓] theorem execDramRefresh_keeps (a : State) (channel : ℕ) (s : State) (h0 : Keeps a s) :
    KeepsOut a (execDramRefresh channel s) := by
  unfold execDramRefresh
  simp (maxDischargeDepth := 40) [*]

@[simp ↓] theorem execDramMr4Read_keeps (a : State) (channel : ℕ) (code : ℕ) (shorter : Bool) (s : State) (h0 : Keeps a s) :
    KeepsOut a (execDramMr4Read channel code shorter s) := by
  unfold execDramMr4Read
  simp (maxDischargeDepth := 40) [*]

@[simp ↓] theorem execDramWck2dqRead_keeps (a : State) (channel : ℕ) (s : State) (h0 : Keeps a s) :
    KeepsOut a (execDramWck2dqRead channel s) := by
  unfold execDramWck2dqRead
  simp (maxDischargeDepth := 40) [*]

@[simp ↓] theorem execRowWindowStart_keeps (a : State) (s : State) (h0 : Keeps a s) :
    KeepsOut a (execRowWindowStart s) := by
  unfold execRowWindowStart
  simp (maxDischargeDepth := 40) [*]

@[simp ↓] theorem execDramPatrolScrubStep_keeps (a : State) (upset : ℕ) (s : State) (h0 : Keeps a s) :
    KeepsOut a (execDramPatrolScrubStep upset s) := by
  unfold execDramPatrolScrubStep
  simp (maxDischargeDepth := 40) [*]

@[simp ↓] theorem execDramStatus_keeps (a : State) (rq : Req) (s : State) (h0 : Keeps a s) :
    KeepsOut a (execDramStatus rq s) := by
  unfold execDramStatus
  simp (maxDischargeDepth := 40) [*]

@[simp ↓] theorem execDramEccLog_keeps (a : State) (rq : Req) (s : State) (h0 : Keeps a s) :
    KeepsOut a (execDramEccLog rq s) := by
  unfold execDramEccLog
  simp (maxDischargeDepth := 40) [*]

@[simp ↓] theorem execDramRowlog_keeps (a : State) (rq : Req) (s : State) (h0 : Keeps a s) :
    KeepsOut a (execDramRowlog rq s) := by
  unfold execDramRowlog
  simp (maxDischargeDepth := 40) [*]

@[simp ↓] theorem execDramScrubConfig_keeps (a : State) (rq : Req) (s : State) (h0 : Keeps a s) :
    KeepsOut a (execDramScrubConfig rq s) := by
  unfold execDramScrubConfig
  simp (maxDischargeDepth := 40) [*]

@[simp ↓] theorem execDramEccInject_keeps (a : State) (rq : Req) (s : State) (h0 : Keeps a s) :
    KeepsOut a (execDramEccInject rq s) := by
  unfold execDramEccInject
  simp (maxDischargeDepth := 40) [*]

/-! ### Machine/Dma.lean -/

@[simp ↓] theorem State_modChannel_keeps (a : State) (s : State) (c : ℕ) (f : Channel → Channel) (h0 : Keeps a s) :
    Keeps a (State.modChannel s c f) := by
  unfold State.modChannel
  simp (maxDischargeDepth := 40) [*]

@[simp ↓] theorem State_modEngine_keeps (a : State) (s : State) (e : ℕ) (f : Deflate → Deflate) (h0 : Keeps a s) :
    Keeps a (State.modEngine s e f) := by
  unfold State.modEngine
  simp (maxDischargeDepth := 40) [*]

@[simp ↓] theorem fetchFrom_keeps (a : State) (requester : ℕ) (address : ℕ) (n : ℕ) (hostData : List Byte) (s : State) (h0 : Keeps a s) :
    Keeps a (fetchFrom requester address n hostData s).2.2 := by
  unfold fetchFrom
  (repeat' split) <;> simp (maxDischargeDepth := 40) [*]

@[simp ↓] theorem storeTo_keeps (a : State) (requester : ℕ) (address : ℕ) (bs : List Byte) (s : State) (h0 : Keeps a s) :
    Keeps a (storeTo requester address bs s).2.2 := by
  unfold storeTo
  (repeat' split) <;> simp (maxDischargeDepth := 40) [*]

@[simp ↓] theorem scramble_keeps (a : State) (requester : Nat) (address : Nat) (n : Nat) (s : State) (h0 : Keeps a s) :
    Keeps a (scramble requester address n s) := by
  unfold scramble
  (repeat' split) <;> simp (maxDischargeDepth := 40) [*]

@[simp ↓] theorem writeDesc_keeps (a : State) (c : ℕ) (offset : ℕ) (bs : List Byte) (s : State) (h0 : Keeps a s) :
    KeepsOpt a (writeDesc c offset bs s) := by
  unfold writeDesc
  simp (maxDischargeDepth := 40) [*]

@[simp ↓] theorem ringError_keeps (a : State) (c : ℕ) (s : State) (h0 : Keeps a s) :
    Keeps a (ringError c s) := by
  unfold ringError
  simp (maxDischargeDepth := 40) [*]

@[simp ↓] theorem dmaSignal_keeps (a : State) (c : ℕ) (s : State) (h0 : Keeps a s) :
    Keeps a (dmaSignal c s) := by
  unfold dmaSignal
  simp (maxDischargeDepth := 40) [*]

@[simp ↓] theorem nextDesc_keeps (a : State) (c : ℕ) (prev : Option (BitVec 32)) (s : State) (h0 : Keeps a s) :
    Keeps a (nextDesc c prev s) := by
  unfold nextDesc
  simp (maxDischargeDepth := 40) [*]

@[simp ↓] theorem badDesc_keeps (a : State) (c err offset : Nat) (irq : Bool) (s : State) (h0 : Keeps a s) : Keeps a (badDesc c err offset irq s) := by
  unfold badDesc
  split
  · simp (maxDischargeDepth := 40) [h0]
  · rename_i t e
    have ht : Keeps a t := keeps_of_some e (by simp (maxDischargeDepth := 40) [h0])
    simp (maxDischargeDepth := 40) [ht]

@[simp ↓] theorem execDmaDescriptorPoll_keeps (a : State) (channel : ℕ) (hostDesc : Option (List Byte)) (s : State) (h0 : Keeps a s) :
    KeepsOut a (execDmaDescriptorPoll channel hostDesc s) := by
  unfold execDmaDescriptorPoll
  simp (maxDischargeDepth := 40) [*]

@[simp ↓] theorem moveBytes_keeps (a : State) (c : ℕ) (upto : ℕ) (hostData : List Byte) (d : Desc) (s : State) (h0 : Keeps a s) :
    Keeps a (moveBytes c upto hostData d s).2 := by
  unfold moveBytes
  dsimp only
  (repeat' split) <;> simp (maxDischargeDepth := 40) [*]

@[simp ↓] theorem moveHalf_keeps (a : State) (c : Nat) (hostData : List Byte) (d : Desc) (s : State) (h0 : Keeps a s) : Keeps a (moveHalf c hostData d s).2 := by
  have hm := moveBytes_keeps a c (d.length / 2) hostData d s h0
  unfold moveHalf
  split
  · rename_i t e
    rw [e] at hm
    exact hm
  · rename_i d' t e
    rw [e] at hm
    split
    · exact ringError_keeps _ _ _ hm
    · rename_i u e2
      have hu : Keeps a u := keeps_of_some e2 (writeDesc_keeps _ _ _ _ _ hm)
      simp (maxDischargeDepth := 40) [hu]

@[simp ↓] theorem execDmaDescriptorHalf_keeps (a : State) (channel : ℕ) (hostData : List Byte) (s : State) (h0 : Keeps a s) :
    KeepsOut a (execDmaDescriptorHalf channel hostData s) := by
  unfold execDmaDescriptorHalf
  (repeat' split) <;> simp (maxDischargeDepth := 40) [*]

@[simp ↓] theorem endDesc_keeps (a : State) (c : Nat) (d : Desc) (s : State) (h0 : Keeps a s) : Keeps a (endDesc c d s) := by
  unfold endDesc
  dsimp only
  split
  · exact ringError_keeps _ _ _ h0
  · rename_i t e
    have ht : Keeps a t := keeps_of_some e (keepsOpt_bind _ (writeDesc_keeps _ _ _ _ _ h0) fun s => by simp)
    exact nextDesc_keeps _ _ _ _ (keeps_ite _ _ _ _ (by simp (maxDischargeDepth := 40) [ht]) (by simp (maxDischargeDepth := 40) [ht]))

@[simp ↓] theorem execDmaDescriptorDone_keeps (a : State) (channel : Nat) (hostData : List Byte) (s : State) (h0 : Keeps a s) : KeepsOut a (execDmaDescriptorDone channel hostData s) := by
  unfold execDmaDescriptorDone
  split
  · exact keepsOut_next _ _ h0
  · rename_i d e
    extract_lets r
    have hr : Keeps a r.2 := by
      simp only [r]
      split
      · exact h0
      · split
        · exact moveHalf_keeps _ _ _ _ _ h0
        · exact h0
    clear_value r
    split
    · rename_i t
      exact keepsOut_next _ _ hr
    · rename_i d' t
      have hm := moveBytes_keeps a channel d'.length (hostData.drop (d'.moved - d.moved)) d' t hr
      split
      · rename_i u e3
        rw [e3] at hm
        exact keepsOut_next _ _ hm
      · rename_i d2 u e3
        rw [e3] at hm
        exact keepsOut_next _ _ (endDesc_keeps _ _ _ _ hm)

@[simp ↓] theorem execDmaBusError_keeps (a : State) (channel : Nat) (onWrite : Bool) (offset : Nat) (s : State) (h0 : Keeps a s) : KeepsOut a (execDmaBusError channel onWrite offset s) := by
  unfold execDmaBusError
  split
  · exact keepsOut_next _ _ h0
  · rename_i d e
    extract_lets k
    have hm := moveBytes_keeps a channel k (freeBytes s.free (k - d.moved)) d { s with free := s.free + (k - d.moved) }
      (by simp (maxDischargeDepth := 40) [h0])
    split
    · rename_i u e2
      rw [e2] at hm
      exact keepsOut_next _ _ hm
    · rename_i d2 u e2
      rw [e2] at hm
      exact keepsOut_next _ _ (keeps_ite _ _ _ _ (ringError_keeps _ _ _ hm) (badDesc_keeps _ _ _ _ _ _ hm))

@[simp ↓] theorem execFabricBudgetWindow_keeps (a : State) (s : State) (h0 : Keeps a s) :
    KeepsOut a (execFabricBudgetWindow s) := by
  unfold execFabricBudgetWindow
  simp (maxDischargeDepth := 40) [*]

@[simp ↓] theorem hstWrite_keeps (a : State) (offset : ℕ) (value : ℕ) (s : State) (h0 : Keeps a s) :
    Keeps a (hstWrite offset value s) := by
  unfold hstWrite
  simp (maxDischargeDepth := 40) [*]

@[simp ↓] theorem bar2RegWrite_keeps (a : State) (offset : ℕ) (data : List Byte) (s : State) (h0 : Keeps a s) :
    Keeps a (bar2RegWrite offset data s) := by
  unfold bar2RegWrite
  simp (maxDischargeDepth := 40) [*]

@[simp ↓] theorem execBar2HostAccess_keeps (a : State) (offset : ℕ) (write : Option (List Byte)) (length : ℕ) (s : State) (h0 : Keeps a s) :
    KeepsOut a (execBar2HostAccess offset write length s) := by
  unfold execBar2HostAccess
  dsimp only
  (repeat' split) <;> simp (maxDischargeDepth := 40) [*]

@[simp ↓] theorem beginJob_keeps (a : State) (engine : Nat) (j : EngineJob) (s : State) (h0 : Keeps a s) :
    Keeps a (beginJob engine j s) := by
  unfold beginJob
  (repeat' split) <;> simp (maxDischargeDepth := 40) [*]

@[simp ↓] theorem execDeflateJobStart_keeps (a : State) (engine : Nat) (s : State) (h0 : Keeps a s) : KeepsOut a (execDeflateJobStart engine s) := by
  unfold execDeflateJobStart
  split
  · simp (maxDischargeDepth := 40) [h0]
  · split
    · simp (maxDischargeDepth := 40) [h0]
    · rename_i j rest e1 e2
      have hq : LeUpd 32 s.dma.queue rest := fun g => by rw [e2] at g; simp at g; omega
      simp (maxDischargeDepth := 40) [h0, hq]
    · simp (maxDischargeDepth := 40) [h0]

@[simp ↓] theorem endHostJob_keeps (a : State) (engine : ℕ) (j : CJob) (r : JobOutcome) (s : State) (h0 : Keeps a s) :
    Keeps a (endHostJob engine j r s) := by
  unfold endHostJob
  dsimp only
  simp (maxDischargeDepth := 40) [*]

@[simp ↓] theorem fillColumn_keeps (a : State) (j : FwJob) (output : List Byte) (s : State) (k : ℕ) (h0 : Keeps a s) :
    Keeps a (fillColumn j output s k) := by
  unfold fillColumn
  (repeat' split) <;> simp (maxDischargeDepth := 40) [*]

@[simp ↓] theorem endFwJob_keeps (a : State) (engine : ℕ) (j : FwJob) (s : State) (h0 : Keeps a s) :
    Keeps a (endFwJob engine j s) := by
  unfold endFwJob
  dsimp only
  repeat' (first | (simp (maxDischargeDepth := 40) [*]; done) | split | intro _ | apply keeps_foldl)

@[simp ↓] theorem execDeflateJobEnd_keeps (a : State) (engine : ℕ) (host : List Byte) (s : State) (h0 : Keeps a s) :
    KeepsOut a (execDeflateJobEnd engine host s) := by
  unfold execDeflateJobEnd
  (repeat' split) <;> simp (maxDischargeDepth := 40) [*]

@[simp ↓] theorem disableChannel_keeps (a : State) (c : ℕ) (s : State) (h0 : Keeps a s) :
    Keeps a (disableChannel c s) := by
  unfold disableChannel
  dsimp only
  (repeat' split) <;> simp (maxDischargeDepth := 40) [*]

@[simp ↓] theorem execDmaChannelConfig_keeps (a : State) (rq : Req) (s : State) (h0 : Keeps a s) :
    KeepsOut a (execDmaChannelConfig rq s) := by
  unfold execDmaChannelConfig
  simp (maxDischargeDepth := 40) [*]

@[simp ↓] theorem execDmaChannelDisable_keeps (a : State) (rq : Req) (s : State) (h0 : Keeps a s) :
    KeepsOut a (execDmaChannelDisable rq s) := by
  unfold execDmaChannelDisable
  simp (maxDischargeDepth := 40) [*]

@[simp ↓] theorem execDmaChannelStatus_keeps (a : State) (rq : Req) (s : State) (h0 : Keeps a s) :
    KeepsOut a (execDmaChannelStatus rq s) := by
  unfold execDmaChannelStatus
  simp (maxDischargeDepth := 40) [*]

@[simp ↓] theorem execDmaWindowSet_keeps (a : State) (rq : Req) (s : State) (h0 : Keeps a s) :
    KeepsOut a (execDmaWindowSet rq s) := by
  unfold execDmaWindowSet
  simp (maxDischargeDepth := 40) [*]

@[simp ↓] theorem execDmaChannelRaw_keeps (a : State) (rq : Req) (s : State) (h0 : Keeps a s) :
    KeepsOut a (execDmaChannelRaw rq s) := by
  unfold execDmaChannelRaw
  simp (maxDischargeDepth := 40) [*]

@[simp ↓] theorem execCompressConfig_keeps (a : State) (rq : Req) (s : State) (h0 : Keeps a s) :
    KeepsOut a (execCompressConfig rq s) := by
  unfold execCompressConfig
  simp (maxDischargeDepth := 40) [*]

@[simp ↓] theorem execCompressSubmit_keeps (a : State) (rq : Req) (s : State) (h0 : Keeps a s) : KeepsOut a (execCompressSubmit rq s) := by
  unfold execCompressSubmit command
  dsimp only
  split
  · split
    · simp (maxDischargeDepth := 40) [h0]
    · rename_i h
      have : s.dma.queue.length < 32 := by
        simp (maxDischargeDepth := 40) [List.find?_eq_none] at h
        omega
      simp (maxDischargeDepth := 40) [h0, leUpd_push 32 s.dma.queue _ this]
  · exact keepsOut_next _ _ h0

@[simp ↓] theorem execCompressAbort_keeps (a : State) (rq : Req) (s : State) (h0 : Keeps a s) : KeepsOut a (execCompressAbort rq s) := by
  unfold execCompressAbort
  refine command_keeps a _ _ _ _ _ ?_ h0
  dsimp only
  split <;> simp (maxDischargeDepth := 40) [h0]

@[simp ↓] theorem execCompressStatus_keeps (a : State) (rq : Req) (s : State) (h0 : Keeps a s) :
    KeepsOut a (execCompressStatus rq s) := by
  unfold execCompressStatus
  simp (maxDischargeDepth := 40) [*]

@[simp ↓] theorem execCompressEngineRaw_keeps (a : State) (rq : Req) (s : State) (h0 : Keeps a s) :
    KeepsOut a (execCompressEngineRaw rq s) := by
  unfold execCompressEngineRaw
  simp (maxDischargeDepth := 40) [*]

/-! ### Machine/Camera.lean -/

@[simp ↓] theorem State_modStream_keeps (a : State) (s : State) (i : ℕ) (f : Stream → Stream) (h0 : Keeps a s) :
    Keeps a (State.modStream s i f) := by
  unfold State.modStream
  simp (maxDischargeDepth := 40) [*]

@[simp ↓] theorem State_modPort_keeps (a : State) (s : State) (i : ℕ) (f : CamPort → CamPort) (h0 : Keeps a s) :
    Keeps a (State.modPort s i f) := by
  unfold State.modPort
  simp (maxDischargeDepth := 40) [*]

@[simp ↓] theorem portError_keeps (a : State) (port : ℕ) (s : State) (h0 : Keeps a s) :
    Keeps a (portError port s) := by
  unfold portError
  simp (maxDischargeDepth := 40) [*]

@[simp ↓] theorem phyApply_keeps (a : State) (port : ℕ) (s : State) (h0 : Keeps a s) :
    Keeps a (phyApply port s) := by
  unfold phyApply
  simp (maxDischargeDepth := 40) [*]

@[simp ↓] theorem deliverFeatures_keeps (a : State) (i : ℕ) (f : Frame) (s : State) (h0 : Keeps a s) :
    Keeps a (deliverFeatures i f s) := by
  unfold deliverFeatures
  simp (maxDischargeDepth := 40) [*]

@[simp ↓] theorem writeRecord_keeps (a : State) (i : ℕ) (f : Frame) (s : State) (h0 : Keeps a s) :
    Keeps a (writeRecord i f s) := by
  unfold writeRecord
  simp (maxDischargeDepth := 40) [*]

@[simp ↓] theorem copyHistogram_keeps (a : State) (i : ℕ) (f : Frame) (s : State) (h0 : Keeps a s) :
    Keeps a (copyHistogram i f s) := by
  unfold copyHistogram
  simp (maxDischargeDepth := 40) [*]

@[simp ↓] theorem raiseBad_keeps (a : State) (i : ℕ) (f : Frame) (s : State) (h0 : Keeps a s) :
    Keeps a (raiseBad i f s) := by
  unfold raiseBad
  simp (maxDischargeDepth := 40) [*]

@[simp ↓] theorem joinBacklog_keeps (a : State) (i : ℕ) (f : Frame) (s : State) (h0 : Keeps a s) :
    Keeps a (joinBacklog i f s) := by
  unfold joinBacklog
  simp (maxDischargeDepth := 40) [*]

@[simp ↓] theorem closeFrame_keeps (a : State) (i : ℕ) (ended : FrameClose) (s : State) (h0 : Keeps a s) :
    Keeps a (closeFrame i ended s) := by
  unfold closeFrame
  (repeat' split) <;> simp (maxDischargeDepth := 40) [*]

@[simp ↓] theorem openFrame_keeps (a : State) (i : ℕ) (fn : BitVec 16) (corrected : Bool) (s : State) (h0 : Keeps a s) :
    Keeps a (openFrame i fn corrected s) := by
  unfold openFrame
  simp (maxDischargeDepth := 40) [*]

@[simp ↓] theorem headerLost_keeps (a : State) (port : ℕ) (vc : ℕ) (dt : ℕ) (fn : ℕ) (is : List ℕ) (s : State) (h0 : Keeps a s) :
    Keeps a (headerLost port vc dt fn is s) := by
  unfold headerLost
  simp (maxDischargeDepth := 40) [*]

@[simp ↓] theorem headerCorrected_keeps (a : State) (port : ℕ) (vc : ℕ) (dt : ℕ) (fn : ℕ) (is : List ℕ) (s : State) (h0 : Keeps a s) :
    Keeps a (headerCorrected port vc dt fn is s) := by
  unfold headerCorrected
  simp (maxDischargeDepth := 40) [*]

@[simp ↓] theorem frameStart_keeps (a : State) (port : ℕ) (h : CamHeader) (is : List ℕ) (s : State) (h0 : Keeps a s) :
    Keeps a (frameStart port h is s) := by
  unfold frameStart
  simp (maxDischargeDepth := 40) [*]

@[simp ↓] theorem orphan_keeps (a : State) (i : ℕ) (detail : ℕ) (s : State) (h0 : Keeps a s) :
    Keeps a (orphan i detail s) := by
  unfold orphan
  simp (maxDischargeDepth := 40) [*]

@[simp ↓] theorem frameEnd_keeps (a : State) (port : ℕ) (h : CamHeader) (is : List ℕ) (s : State) (h0 : Keeps a s) :
    Keeps a (frameEnd port h is s) := by
  unfold frameEnd
  dsimp only
  repeat' (first | (simp (maxDischargeDepth := 40) [*]; done) | split | intro _ | apply keeps_foldl)

@[simp ↓] theorem storePacket_keeps (a : State) (i : ℕ) (pkt : LongPacket) (s : State) (h0 : Keeps a s) :
    Keeps a (storePacket i pkt s).2 := by
  unfold storePacket
  dsimp only
  (repeat' split) <;> simp (maxDischargeDepth := 40) [*]

@[simp ↓] theorem takeLine_keeps (a : State) (i : ℕ) (pkt : LongPacket) (s : State) (h0 : Keeps a s) :
    Keeps a (takeLine i pkt s) := by
  unfold takeLine
  dsimp only
  (repeat' split) <;> simp (maxDischargeDepth := 40) [*]

@[simp ↓] theorem takePacket_keeps (a : State) (i : ℕ) (pkt : LongPacket) (s : State) (h0 : Keeps a s) :
    Keeps a (takePacket i pkt s) := by
  unfold takePacket
  (repeat' split) <;> simp (maxDischargeDepth := 40) [*]

@[simp ↓] theorem longPacket_keeps (a : State) (port : ℕ) (pkt : LongPacket) (chan : List ℕ) (s : State) (h0 : Keeps a s) :
    Keeps a (longPacket port pkt chan s) := by
  unfold longPacket
  simp (maxDischargeDepth := 40) [*]

@[simp ↓] theorem receivePacket_keeps (a : State) (port : ℕ) (p : CamPacket) (s : State) (h0 : Keeps a s) :
    Keeps a (receivePacket port p s) := by
  unfold receivePacket
  simp (maxDischargeDepth := 40) [*]

@[simp ↓] theorem execFrameStartReceive_keeps (a : State) (port : ℕ) (di : Byte) (wc : BitVec 16) (ecc : Byte) (s : State) (h0 : Keeps a s) :
    KeepsOut a (execFrameStartReceive port di wc ecc s) := by
  unfold execFrameStartReceive
  (repeat' split) <;> simp (maxDischargeDepth := 40) [*]

@[simp ↓] theorem execFrameEndReceive_keeps (a : State) (port : ℕ) (di : Byte) (wc : BitVec 16) (ecc : Byte) (s : State) (h0 : Keeps a s) :
    KeepsOut a (execFrameEndReceive port di wc ecc s) := by
  unfold execFrameEndReceive
  simp (maxDischargeDepth := 40) [*]

@[simp ↓] theorem execLinePacketReceive_keeps (a : State) (port : ℕ) (pkt : CamPacket) (s : State) (h0 : Keeps a s) :
    KeepsOut a (execLinePacketReceive port pkt s) := by
  unfold execLinePacketReceive
  (repeat' split) <;> simp (maxDischargeDepth := 40) [*]

@[simp ↓] theorem execFrameTimeout_keeps (a : State) (stream : ℕ) (s : State) (h0 : Keeps a s) :
    KeepsOut a (execFrameTimeout stream s) := by
  unfold execFrameTimeout
  (repeat' split) <;> simp (maxDischargeDepth := 40) [*]

@[simp ↓] theorem execDphySotError_keeps (a : State) (port : ℕ) (s : State) (h0 : Keeps a s) :
    KeepsOut a (execDphySotError port s) := by
  unfold execDphySotError
  simp (maxDischargeDepth := 40) [*]

@[simp ↓] theorem execMemoryFrameStart_keeps (a : State) (s : State) (h0 : Keeps a s) :
    KeepsOut a (execMemoryFrameStart s) := by
  unfold execMemoryFrameStart
  (repeat' split) <;> simp (maxDischargeDepth := 40) [*]

@[simp ↓] theorem readLine_keeps (a : State) (r : Nat × List Nat) (x : Frame × State) (h0 : Keeps a x.2) : Keeps a (readLine r x).2 := by
  unfold readLine
  dsimp only
  split
  · exact h0
  · split <;> exact dramFetch_keeps _ _ _ _ _ _ h0

@[simp ↓] theorem readFrame_keeps (a : State) (f : Frame) (s : State) (h0 : Keeps a s) : Keeps a (readFrame f s).2 := by
  have hf : ∀ (l : List (Nat × List Nat)) (x : Frame × State), Keeps a x.2 →
      Keeps a (l.foldl (fun x r => readLine r x) x).2 := by
    intro l
    induction l with
    | nil => intro x h; exact h
    | cons r l ih => intro x h; exact ih _ (readLine_keeps _ _ _ h)
  unfold readFrame
  exact hf _ _ h0

@[simp ↓] theorem execMemoryFrameProcessed_keeps (a : State) (s : State) (h0 : Keeps a s) :
    KeepsOut a (execMemoryFrameProcessed s) := by
  unfold execMemoryFrameProcessed
  (repeat' split) <;> simp (maxDischargeDepth := 40) [*]

@[simp ↓] theorem execCameraPortConfig_keeps (a : State) (rq : Req) (s : State) (h0 : Keeps a s) :
    KeepsOut a (execCameraPortConfig rq s) := by
  unfold execCameraPortConfig
  simp (maxDischargeDepth := 40) [*]

@[simp ↓] theorem execCameraStreamConfig_keeps (a : State) (rq : Req) (s : State) (h0 : Keeps a s) :
    KeepsOut a (execCameraStreamConfig rq s) := by
  unfold execCameraStreamConfig
  simp (maxDischargeDepth := 40) [*]

@[simp ↓] theorem execCameraStatsConfig_keeps (a : State) (rq : Req) (s : State) (h0 : Keeps a s) :
    KeepsOut a (execCameraStatsConfig rq s) := by
  unfold execCameraStatsConfig
  simp (maxDischargeDepth := 40) [*]

@[simp ↓] theorem execCameraStreamStatus_keeps (a : State) (rq : Req) (s : State) (h0 : Keeps a s) :
    KeepsOut a (execCameraStreamStatus rq s) := by
  unfold execCameraStreamStatus
  simp (maxDischargeDepth := 40) [*]

@[simp ↓] theorem execCameraPhyRaw_keeps (a : State) (rq : Req) (s : State) (h0 : Keeps a s) :
    KeepsOut a (execCameraPhyRaw rq s) := by
  unfold execCameraPhyRaw
  simp (maxDischargeDepth := 40) [*]

/-! ### Machine/Clocks.lean -/

@[simp ↓] theorem referenceLost_keeps (a : State) (s : State) (h0 : Keeps a s) :
    Keeps a (referenceLost s) := by
  unfold referenceLost
  simp (maxDischargeDepth := 40) [*]

@[simp ↓] theorem execReferenceEdgeTimeout_keeps (a : State) (s : State) (h0 : Keeps a s) :
    KeepsOut a (execReferenceEdgeTimeout s) := by
  unfold execReferenceEdgeTimeout
  simp (maxDischargeDepth := 40) [*]

@[simp ↓] theorem execReferenceFrequencyCheck_keeps (a : State) (hz : ℕ) (s : State) (h0 : Keeps a s) :
    KeepsOut a (execReferenceFrequencyCheck hz s) := by
  unfold execReferenceFrequencyCheck
  simp (maxDischargeDepth := 40) [*]

@[simp ↓] theorem execPllFastUnlock_keeps (a : State) (loop : ℕ) (s : State) (h0 : Keeps a s) :
    KeepsOut a (execPllFastUnlock loop s) := by
  unfold execPllFastUnlock
  simp (maxDischargeDepth := 40) [*]

@[simp ↓] theorem execLockMonitorInclusion_keeps (a : State) (loop : ℕ) (s : State) (h0 : Keeps a s) :
    KeepsOut a (execLockMonitorInclusion loop s) := by
  unfold execLockMonitorInclusion
  simp (maxDischargeDepth := 40) [*]

@[simp ↓] theorem readSense_keeps (a : State) (mv : ℕ) (s : State) (h0 : Keeps a s) :
    Keeps a (readSense mv s) := by
  unfold readSense
  simp (maxDischargeDepth := 40) [*]

@[simp ↓] theorem execLockDeclare_keeps (a : State) (loop : ℕ) (s : State) (h0 : Keeps a s) :
    KeepsOut a (execLockDeclare loop s) := by
  unfold execLockDeclare
  simp (maxDischargeDepth := 40) [*]

@[simp ↓] theorem execLocksenseLow_keeps (a : State) (mv : ℕ) (s : State) (h0 : Keeps a s) :
    KeepsOut a (execLocksenseLow mv s) := by
  unfold execLocksenseLow
  simp (maxDischargeDepth := 40) [*]

@[simp ↓] theorem execLocksenseRecover_keeps (a : State) (mv : ℕ) (s : State) (h0 : Keeps a s) :
    KeepsOut a (execLocksenseRecover mv s) := by
  unfold execLocksenseRecover
  simp (maxDischargeDepth := 40) [*]

@[simp ↓] theorem execLocksensePlausibilityCheck_keeps (a : State) (mv : ℕ) (toggling : Bool) (s : State) (h0 : Keeps a s) :
    KeepsOut a (execLocksensePlausibilityCheck mv toggling s) := by
  unfold execLocksensePlausibilityCheck
  simp (maxDischargeDepth := 40) [*]

@[simp ↓] theorem execSynthLockTimeout_keeps (a : State) (synth : ℕ) (s : State) (h0 : Keeps a s) :
    KeepsOut a (execSynthLockTimeout synth s) := by
  unfold execSynthLockTimeout
  (repeat' split) <;> simp (maxDischargeDepth := 40) [*]

@[simp ↓] theorem execClockSynthProfileLoaded_keeps (a : State) (synth : ℕ) (host : List Byte) (s : State) (h0 : Keeps a s) :
    KeepsOut a (execClockSynthProfileLoaded synth host s) := by
  unfold execClockSynthProfileLoaded
  dsimp only
  (repeat' split) <;> simp (maxDischargeDepth := 40) [*]

@[simp ↓] theorem execLinePhaseCheck_keeps (a : State) (synth : ℕ) (span : ℕ) (s : State) (h0 : Keeps a s) :
    KeepsOut a (execLinePhaseCheck synth span s) := by
  unfold execLinePhaseCheck
  simp (maxDischargeDepth := 40) [*]

@[simp ↓] theorem execClockSynthConfig_keeps (a : State) (rq : Req) (s : State) (h0 : Keeps a s) :
    KeepsOut a (execClockSynthConfig rq s) := by
  unfold execClockSynthConfig
  simp (maxDischargeDepth := 40) [*]

@[simp ↓] theorem execClockSynthProfile_keeps (a : State) (rq : Req) (s : State) (h0 : Keeps a s) :
    KeepsOut a (execClockSynthProfile rq s) := by
  unfold execClockSynthProfile
  simp (maxDischargeDepth := 40) [*]

@[simp ↓] theorem execClockStatus_keeps (a : State) (rq : Req) (s : State) (h0 : Keeps a s) :
    KeepsOut a (execClockStatus rq s) := by
  unfold execClockStatus
  simp (maxDischargeDepth := 40) [*]

@[simp ↓] theorem execClockSynthRaw_keeps (a : State) (rq : Req) (s : State) (h0 : Keeps a s) :
    KeepsOut a (execClockSynthRaw rq s) := by
  unfold execClockSynthRaw
  simp (maxDischargeDepth := 40) [*]

/-! ### Machine/Counters.lean -/

@[simp ↓ 1200] theorem lenUpd_pickMap {α : Type} (n) (a b : List α) (u f) (h : LenUpd n a b) : LenUpd n a (pickMap u f b) := by
  unfold pickMap; simp (maxDischargeDepth := 40) [h]

@[simp ↓] theorem Lag_zeroed_keeps (a : Lag) (x : Lag) (h0 : Upd lagOk a x) :
    Upd lagOk a (Lag.zeroed x) := by
  unfold Lag.zeroed
  simp (maxDischargeDepth := 40) [*]

@[simp ↓] theorem Dram_zeroed_keeps (a : Dram) (x : Dram) (h0 : Upd dramOk a x) :
    Upd dramOk a (Dram.zeroed x) := by
  unfold Dram.zeroed
  simp (maxDischargeDepth := 40) [*]

@[simp ↓] theorem clearRunAhead_keeps (a : State) (u : ℕ) (s : State) (h0 : Keeps a s) :
    Keeps a (clearRunAhead u s) := by
  unfold clearRunAhead
  simp (maxDischargeDepth := 40) [*]

@[simp ↓] theorem clearCounts_keeps (a : State) (g : ℕ) (u : ℕ) (s : State) (h0 : Keeps a s) :
    Keeps a (clearCounts g u s) := by
  unfold clearCounts
  (repeat' split) <;> simp (maxDischargeDepth := 40) [*]

@[simp ↓] theorem execCountersOverflowRead_keeps (a : State) (rq : Req) (s : State) (h0 : Keeps a s) :
    KeepsOut a (execCountersOverflowRead rq s) := by
  unfold execCountersOverflowRead
  simp (maxDischargeDepth := 40) [*]

@[simp ↓] theorem execCountersClear_keeps (a : State) (rq : Req) (s : State) (h0 : Keeps a s) :
    KeepsOut a (execCountersClear rq s) := by
  unfold execCountersClear
  simp (maxDischargeDepth := 40) [*]

end Sys2Proof.Machine
end

