-- ==== Sys2Proof/Laws/KeepsEngine.lean ====
section
/-!
SUPPORT. What is kept (Laws/Keeps.lean) by the engine, Forge, power and faults.
-/
namespace Sys2Proof.Machine

open Sys2Proof Sys2Proof.Safety

/-! ### Machine/Engine.lean -/

@[simp ↓] theorem startGain_keeps (a : State) (slot : ℕ) (s : State) (h0 : Keeps a s) :
    Keeps a (startGain slot s) := by
  unfold startGain
  (repeat' split) <;> simp (maxDischargeDepth := 40) [*]

@[simp ↓] theorem noteMean_keeps (a : State) (h : ℕ) (mean : ℕ) (s : State) (h0 : Keeps a s) :
    Keeps a (noteMean h mean s) := by
  unfold noteMean
  simp (maxDischargeDepth := 40) [*]

@[simp ↓] theorem evaluate_keeps (a : State) (slot counts : Nat) (s : State) (h0 : Keeps a s) : Keeps a (evaluate slot counts s) := by
  have hm : ∀ (t : State) f, Keeps a t → Keeps a (t.modLoop slot f) := fun t f h => by simp (maxDischargeDepth := 40) [h]
  unfold evaluate
  extract_lets s1 s2 l kept s3
  have h1 : Keeps a s1 := hm _ _ h0
  have h2 : Keeps a s2 := keeps_ite _ _ _ _ (hm _ _ h1) h1
  have h3 : Keeps a s3 := keeps_ite _ _ _ _ (by simp (maxDischargeDepth := 40) [h2]) h2
  generalize hx : (if kept = true then (l.input, s3) else fitted (selValue l.inSel s3.engine.tick counts l.pdSum l.pdCnt s3) s3) = p
  have h4 : Keeps a p.2 := by
    rw [← hx]
    split
    · exact h3
    · simp (maxDischargeDepth := 40) [h3]
  obtain ⟨input, s4⟩ := p
  dsimp -zeta only
  generalize hy : fitted (some (if l.invert = true then input - l.ref else l.ref - input)) s4 = q
  have h5 : Keeps a q.2 := by
    rw [← hy]
    simp (maxDischargeDepth := 40) [h4]
  obtain ⟨x, s5⟩ := q
  dsimp -zeta only
  extract_lets r u lim s6 s7
  have h6 : Keeps a s6 := hm _ _ h5
  have h7 : Keeps a s7 := by
    simp only [s7]
    split
    · exact keeps_ite _ _ _ _ (noteMean_keeps _ _ _ _ h6) h6
    · exact h6
  exact keeps_ite _ _ _ _ (by simp (maxDischargeDepth := 40) [h7]) h7

@[simp ↓] theorem noteHold_keeps (a : State) (slot : ℕ) (s : State) (h0 : Keeps a s) :
    Keeps a (noteHold slot s) := by
  unfold noteHold
  (repeat' split) <;> simp (maxDischargeDepth := 40) [*]

@[simp ↓] theorem execLoopEvaluation_keeps (a : State) (slot : ℕ) (counts : ℕ) (s : State) (h0 : Keeps a s) :
    KeepsOut a (execLoopEvaluation slot counts s) := by
  unfold execLoopEvaluation
  dsimp only
  (repeat' split) <;> simp (maxDischargeDepth := 40) [*]

@[simp ↓] theorem execRepctlUpdate_keeps (a : State) (k : ℕ) (counts : ℕ) (s : State) (h0 : Keeps a s) :
    KeepsOut a (execRepctlUpdate k counts s) := by
  unfold execRepctlUpdate
  dsimp only
  (repeat' split) <;> simp (maxDischargeDepth := 40) [*]

@[simp ↓] theorem loadLoop_keeps (a : State) (slot : ℕ) (l : Loop) (s : State) (h0 : Keeps a s) :
    KeepsOpt a (loadLoop slot l s) := by
  unfold loadLoop
  simp (maxDischargeDepth := 40) [*]

@[simp ↓] theorem formGroup_keeps (a : State) (g : ℕ) (ms : List ℕ) (s : State) (h0 : Keeps a s) :
    Keeps a (formGroup g ms s) := by
  unfold formGroup
  simp (maxDischargeDepth := 40) [*]

@[simp ↓] theorem loadRepctl_keeps (a : State) (b : List Byte) (s : State) (h0 : Keeps a s) :
    KeepsOpt a (loadRepctl b s) := by
  unfold loadRepctl
  simp (maxDischargeDepth := 40) [*]

theorem loadGroup_keeps (a : State) (b : List Byte) (s : State) (h0 : Keeps a s) (t : State) (e : loadGroup b s = .ok t) :
    Keeps a t := by
  unfold loadGroup at e
  dsimp only at e
  split at e
  · cases e
  · split at e
    · cases e
    · cases e
      simp (maxDischargeDepth := 40) [h0]


theorem loadRecords_keeps (a : State) (img : List Byte) (kind : Nat → Nat) (n i o : Nat)
    (r : State × List Nat × List Nat) (h0 : Keeps a r.1)
    (t : State × List Nat × List Nat) (e : loadRecords img kind i o n r = .ok t) : Keeps a t.1 := by
  induction n generalizing i o r with
  | zero => unfold loadRecords at e; cases e; exact h0
  | succ n ih =>
    obtain ⟨s, slots, groups⟩ := r
    unfold loadRecords at e
    extract_lets size b next at e
    cases hn : next with
    | error st => rw [hn] at e; cases e
    | ok r' =>
      rw [hn] at e
      refine ih _ _ r' ?_ e
      simp only [next] at hn
      split at hn
      · split at hn
        · rename_i x hx
          cases hn
          obtain ⟨p, hp, hq⟩ := Option.bind_eq_some_iff.1 hx
          obtain ⟨u, hu, rfl⟩ := Option.map_eq_some_iff.1 hq
          exact loadLoop_keeps _ _ _ _ h0 u hu
        · cases hn
      · split at hn
        · cases hg : loadGroup b s with
          | error x => rw [hg] at hn; cases hn
          | ok u => rw [hg] at hn; cases hn; exact loadGroup_keeps _ _ _ h0 u hg
        · split at hn
          · rename_i u hu
            cases hn
            exact loadRepctl_keeps _ _ _ h0 u hu
          · cases hn

@[simp ↓] theorem execControlRecipeLoad_keeps (a : State) (rq : Req) (s : State) (h0 : Keeps a s) : KeepsOut a (execControlRecipeLoad rq s) := by
  unfold execControlRecipeLoad
  have h1 := coreRead_keeps a hostCore (rq.u64 0) (rq.u32 8) s h0
  generalize coreRead hostCore (rq.u64 0) (rq.u32 8) s = u at h1 ⊢
  refine serveReq_keeps _ _ _ _ _ h1 ?_
  dsimp only
  split
  · simp (maxDischargeDepth := 40) [h1]
  · split <;> simp (maxDischargeDepth := 40) [h1]

theorem loadRecipe_keeps (a : State) (img : List Byte) (crc : Nat) (s : State) (h0 : Keeps a s) (t : State × List Nat)
    (e : loadRecipe img crc s = .ok t) : Keeps a t.1 := by
  unfold loadRecipe at e
  dsimp only at e
  split at e
  · cases e
  · split at e
    · cases e
    · split at e
      · cases e
      · rename_i s' loaded groups e1
        have h1 := loadRecords_keeps a _ _ _ _ _ (s, [], []) h0 _ e1
        split at e
        · cases e
        · split at e
          · cases e
          · rename_i t' e2
            cases e
            exact assignPhases_keeps _ _ _ h1 _ e2


@[simp ↓] theorem execControlRecipeLoadDone_keeps (a : State) (s : State) (h0 : Keeps a s) : KeepsOut a (execControlRecipeLoadDone s) := by
  unfold execControlRecipeLoadDone
  split
  · simp (maxDischargeDepth := 40) [h0]
  · rename_i c address n crc rest _
    have h1 := coreRead_keeps a hostCore address n s h0
    generalize coreRead hostCore address n s = u at h1 ⊢
    dsimp only
    split
    · simp (maxDischargeDepth := 40) [h1]
    · split
      · simp (maxDischargeDepth := 40) [h1]
      · split
        · simp (maxDischargeDepth := 40) [h1]
        · rename_i t loaded e
          have := loadRecipe_keeps a _ _ _ (by simp (maxDischargeDepth := 40) [h1]) _ e
          simp (maxDischargeDepth := 40) [this]

@[simp ↓] theorem execControlPidSet_keeps (a : State) (rq : Req) (s : State) (h0 : Keeps a s) : KeepsOut a (execControlPidSet rq s) := by
  unfold execControlPidSet
  refine serveReq_keeps _ _ _ _ _ h0 ?_
  extract_lets slot rate gs period mates checks
  split
  · simp (maxDischargeDepth := 40) [h0]
  · split
    · simp (maxDischargeDepth := 40) [h0]
    · rename_i t e
      have ht : Keeps a t := assignPhases_keeps _ _ _ (by simp (maxDischargeDepth := 40) [h0]) _ e
      refine keepsOut_next _ _ (respond_keeps _ _ _ _ _ _ (idleGroupOf_keeps _ _ _ ?_))
      exact keeps_ite _ _ _ _ (disableLoop_keeps _ _ _ ht) ht

@[simp ↓] theorem execControlLoopBind_keeps (a : State) (rq : Req) (s : State) (h0 : Keeps a s) :
    KeepsOut a (execControlLoopBind rq s) := by
  unfold execControlLoopBind
  simp (maxDischargeDepth := 40) [*]

@[simp ↓] theorem execControlLoopSet_keeps (a : State) (rq : Req) (s : State) (h0 : Keeps a s) :
    KeepsOut a (execControlLoopSet rq s) := by
  unfold execControlLoopSet
  simp (maxDischargeDepth := 40) [*]

@[simp ↓] theorem execControlGroupSet_keeps (a : State) (rq : Req) (s : State) (h0 : Keeps a s) :
    KeepsOut a (execControlGroupSet rq s) := by
  unfold execControlGroupSet
  simp (maxDischargeDepth := 40) [*]

@[simp ↓] theorem execControlLoopStatus_keeps (a : State) (rq : Req) (s : State) (h0 : Keeps a s) :
    KeepsOut a (execControlLoopStatus rq s) := by
  unfold execControlLoopStatus
  simp (maxDischargeDepth := 40) [*]

@[simp ↓] theorem execControlRepctlStatus_keeps (a : State) (rq : Req) (s : State) (h0 : Keeps a s) :
    KeepsOut a (execControlRepctlStatus rq s) := by
  unfold execControlRepctlStatus
  simp (maxDischargeDepth := 40) [*]

@[simp ↓] theorem execControlVarWrite_keeps (a : State) (rq : Req) (s : State) (h0 : Keeps a s) :
    KeepsOut a (execControlVarWrite rq s) := by
  unfold execControlVarWrite
  simp (maxDischargeDepth := 40) [*]

@[simp ↓] theorem execControlStageRaw_keeps (a : State) (rq : Req) (s : State) (h0 : Keeps a s) :
    KeepsOut a (execControlStageRaw rq s) := by
  unfold execControlStageRaw
  dsimp only
  (repeat' split) <;> simp (maxDischargeDepth := 40) [*]

@[simp ↓] theorem repctlTable_keeps (a : State) (write : Bool) (rq : Req) (s : State) (h0 : Keeps a s) :
    KeepsOut a (repctlTable write rq s) := by
  unfold repctlTable
  simp (maxDischargeDepth := 40) [*]

@[simp ↓] theorem execControlRepctlTableRead_keeps (a : State) (rq : Req) (s : State) (h0 : Keeps a s) :
    KeepsOut a (execControlRepctlTableRead rq s) := by
  unfold execControlRepctlTableRead
  simp (maxDischargeDepth := 40) [*]

@[simp ↓] theorem execControlRepctlTableWrite_keeps (a : State) (rq : Req) (s : State) (h0 : Keeps a s) :
    KeepsOut a (execControlRepctlTableWrite rq s) := by
  unfold execControlRepctlTableWrite
  simp (maxDischargeDepth := 40) [*]

@[simp ↓] theorem execControlRepctlTableDone_keeps (a : State) (k : Nat) (host : List Byte) (s : State) (h0 : Keeps a s) : KeepsOut a (execControlRepctlTableDone k host s) := by
  unfold execControlRepctlTableDone
  dsimp only
  split
  · exact keepsOut_next _ _ h0
  · rename_i c write address crc rest _
    have h1 : Keeps a (if write = true then coreRead cameraCore address (4 * (s.repctl k).period) s else s) :=
      keeps_ite _ _ _ _ (coreRead_keeps _ _ _ _ _ h0) h0
    generalize (if write = true then coreRead cameraCore address (4 * (s.repctl k).period) s else s) = u at h1 ⊢
    refine keepsOut_ite _ _ _ _ (keepsOut_next _ _ h1) ?_
    split
    · split
      · simp (maxDischargeDepth := 40) [h1]
      · split <;> simp (maxDischargeDepth := 40) [h1]
    · split
      · simp (maxDischargeDepth := 40) [h1]
      · rename_i t e
        have ht : Keeps a t := keeps_of_some e (by simp (maxDischargeDepth := 40) [h1])
        simp (maxDischargeDepth := 40) [ht]

/-! ### Machine/ForgeOps.lean -/

@[simp ↓] theorem admitRecord_keeps (a : State) (r : Rec) (s : State) (h0 : Keeps a s) :
    Keeps a (admitRecord r s) := by
  unfold admitRecord
  (repeat' split) <;> simp (maxDischargeDepth := 40) [*]

@[simp ↓] theorem shiftHead_keeps (a : State) (h : ℕ) (d : ℤ) (s : State) (h0 : Keeps a s) :
    Keeps a (shiftHead h d s) := by
  unfold shiftHead
  simp (maxDischargeDepth := 40) [*]

@[simp ↓] theorem maybeComplete_keeps (a : State) (s : State) (h0 : Keeps a s) :
    Keeps a (maybeComplete s) := by
  unfold maybeComplete
  simp (maxDischargeDepth := 40) [*]

@[simp ↓] theorem passFences_keeps (a : State) (s : State) (h0 : Keeps a s) :
    Keeps a (passFences s) := by
  unfold passFences
  simp (maxDischargeDepth := 40) [*]

@[simp ↓] theorem holdHead_keeps (a : State) (h : ℕ) (s : State) (h0 : Keeps a s) :
    Keeps a (holdHead h s) := by
  unfold holdHead
  simp (maxDischargeDepth := 40) [*]

@[simp ↓] theorem maybePaused_keeps (a : State) (s : State) (h0 : Keeps a s) :
    Keeps a (maybePaused s) := by
  unfold maybePaused
  simp (maxDischargeDepth := 40) [*]

@[simp ↓] theorem pauseLayer_keeps (a : State) (s : State) (h0 : Keeps a s) :
    Keeps a (pauseLayer s) := by
  unfold pauseLayer
  simp (maxDischargeDepth := 40) [*]

@[simp ↓] theorem stopRetired_keeps (a : State) (h : ℕ) (s : State) (h0 : Keeps a s) :
    Keeps a (stopRetired h s) := by
  unfold stopRetired
  simp (maxDischargeDepth := 40) [*]

@[simp ↓] theorem retireHead_keeps (a : State) (h : ℕ) (s : State) (h0 : Keeps a s) :
    Keeps a (retireHead h s) := by
  unfold retireHead
  simp (maxDischargeDepth := 40) [*]

@[simp ↓] theorem endRecoat_keeps (a : State) (ok : Bool) (s : State) (h0 : Keeps a s) :
    Keeps a (endRecoat ok s) := by
  unfold endRecoat
  (repeat' split) <;> simp (maxDischargeDepth := 40) [*]

@[simp ↓] theorem recoatMove_keeps (a : State) (a1 : ℕ) (steps : ℤ) (s : State) (h0 : Keeps a s) :
    Keeps a (recoatMove a1 steps s) := by
  unfold recoatMove
  simp (maxDischargeDepth := 40) [*]

@[simp ↓] theorem recoatStroke_keeps (a : State) (s : State) (h0 : Keeps a s) :
    Keeps a (recoatStroke s) := by
  unfold recoatStroke
  (repeat' split) <;> simp (maxDischargeDepth := 40) [*]

@[simp ↓] theorem recoatMoved_keeps (a : State) (a1 : ℕ) (s : State) (h0 : Keeps a s) :
    Keeps a (recoatMoved a1 s) := by
  unfold recoatMoved
  (repeat' split) <;> simp (maxDischargeDepth := 40) [*]

@[simp ↓] theorem recoatStopped_keeps (a : State) (a1 : ℕ) (s : State) (h0 : Keeps a s) :
    Keeps a (recoatStopped a1 s) := by
  unfold recoatStopped
  (repeat' split) <;> simp (maxDischargeDepth := 40) [*]

@[simp ↓] theorem roleGate_keeps (a : State) (g : ℕ) (s : State) (h0 : Keeps a s) :
    Keeps a (roleGate g s) := by
  unfold roleGate
  simp (maxDischargeDepth := 40) [*]

@[simp ↓] theorem graceOver_keeps (a : State) (g : ℕ) (s : State) (h0 : Keeps a s) :
    Keeps a (graceOver g s) := by
  unfold graceOver
  simp (maxDischargeDepth := 40) [*]

@[simp ↓] theorem conditionBegins_keeps (a : State) (g : ℕ) (s : State) (h0 : Keeps a s) :
    Keeps a (conditionBegins g s) := by
  unfold conditionBegins
  simp (maxDischargeDepth := 40) [*]

@[simp ↓] theorem conditionEnds_keeps (a : State) (g : ℕ) (s : State) (h0 : Keeps a s) :
    Keeps a (conditionEnds g s) := by
  unfold conditionEnds
  simp (maxDischargeDepth := 40) [*]

@[simp ↓] theorem roleUpdate_keeps (a : State) (g : ℕ) (s : State) (h0 : Keeps a s) :
    Keeps a (roleUpdate g s) := by
  unfold roleUpdate
  simp (maxDischargeDepth := 40) [*]

@[simp ↓] theorem setRole_keeps (a : State) (g : ℕ) (f : Gpi → Gpi) (s : State) (h0 : Keeps a s) :
    Keeps a (setRole g f s) := by
  unfold setRole
  simp (maxDischargeDepth := 40) [*]

@[simp ↓] theorem permitUpdate_keeps (a : State) (s : State) (h0 : Keeps a s) :
    Keeps a (permitUpdate s) := by
  unfold permitUpdate
  simp (maxDischargeDepth := 40) [*]

/-! ### Machine/PowerOps.lean -/

@[simp ↓] theorem atollOk_new (a) : Upd atollOk a {} := fun _ => by unfold atollOk; decide

@[simp ↓] theorem atollOk_new' : atollOk {} := by unfold atollOk; decide

@[simp ↓] theorem State_modRail_keeps (a : State) (s : State) (n : ℕ) (f : Rail → Rail) (h0 : Keeps a s) :
    Keeps a (State.modRail s n f) := by
  unfold State.modRail
  simp (maxDischargeDepth := 40) [*]

@[simp ↓] theorem mainOff_keeps (a : State) (s : State) (h0 : Keeps a s) :
    Keeps a (mainOff s) := by
  unfold mainOff
  simp (maxDischargeDepth := 40) [*]

@[simp ↓] theorem enableFrom_keeps (a : State) (n : ℕ) (s : State) (h0 : Keeps a s) :
    Keeps a (enableFrom n s) := by
  unfold enableFrom
  (repeat' split) <;> simp (maxDischargeDepth := 40) [*]

@[simp ↓] theorem startRising_keeps (a : State) (s : State) (h0 : Keeps a s) :
    Keeps a (startRising s) := by
  unfold startRising
  simp (maxDischargeDepth := 40) [*]

@[simp ↓] theorem endPowerUps_keeps (a : State) (cause : ℕ) (s : State) (h0 : Keeps a s) :
    Keeps a (endPowerUps cause s) := by
  unfold endPowerUps
  simp (maxDischargeDepth := 40) [*]

@[simp ↓] theorem powerDownDone_keeps (a : State) (s : State) (h0 : Keeps a s) :
    Keeps a (powerDownDone s) := by
  unfold powerDownDone
  simp (maxDischargeDepth := 40) [*]

@[simp ↓] theorem dropNext_keeps (a : State) (wait : ℕ) (s : State) (h0 : Keeps a s) :
    Keeps a (dropNext wait s) := by
  unfold dropNext
  (repeat' split) <;> simp (maxDischargeDepth := 40) [*]

@[simp ↓] theorem startFalling_keeps (a : State) (cause : ℕ) (s : State) (h0 : Keeps a s) :
    Keeps a (startFalling cause s) := by
  unfold startFalling
  simp (maxDischargeDepth := 40) [*]

@[simp ↓] theorem setLatch_keeps (a : State) (kind : ℕ) (s : State) (h0 : Keeps a s) :
    Keeps a (setLatch kind s) := by
  unfold setLatch
  simp (maxDischargeDepth := 40) [*]

@[simp ↓] theorem latchDown_keeps (a : State) (kind : ℕ) (cause : ℕ) (s : State) (h0 : Keeps a s) :
    Keeps a (latchDown kind cause s) := by
  unfold latchDown
  (repeat' split) <;> simp (maxDischargeDepth := 40) [*]

@[simp ↓] theorem clearLatch_keeps (a : State) (s : State) (h0 : Keeps a s) :
    Keeps a (clearLatch s) := by
  unfold clearLatch
  simp (maxDischargeDepth := 40) [*]

@[simp ↓] theorem onRequest_keeps (a : State) (s : State) (h0 : Keeps a s) :
    Keeps a (onRequest s) := by
  unfold onRequest
  (repeat' split) <;> simp (maxDischargeDepth := 40) [*]

@[simp ↓] theorem offRequest_keeps (a : State) (s : State) (h0 : Keeps a s) :
    Keeps a (offRequest s) := by
  unfold offRequest
  (repeat' split) <;> simp (maxDischargeDepth := 40) [*]

@[simp ↓] theorem wake_keeps (a : State) (cause : ℕ) (s : State) (h0 : Keeps a s) :
    Keeps a (wake cause s) := by
  unfold wake
  simp (maxDischargeDepth := 40) [*]

@[simp ↓] theorem atollReset_keeps (a : State) (s : State) (h0 : Keeps a s) :
    Keeps a (atollReset s) := by
  unfold atollReset
  simp (maxDischargeDepth := 40) [*]

@[simp ↓] theorem followMain_keeps (a : State) (s : State) (h0 : Keeps a s) :
    Keeps a (followMain s) := by
  unfold followMain
  simp (maxDischargeDepth := 40) [*]

/-! ### Machine/FaultOps.lean -/

@[simp ↓] theorem State_setRec_keeps (a : State) (s : State) (r : FRec) (h0 : Keeps a s) :
    Keeps a (State.setRec s r) := by
  unfold State.setRec
  simp (maxDischargeDepth := 40) [*]

@[simp ↓] theorem faultUngate_keeps (a : State) (s : State) (h0 : Keeps a s) :
    Keeps a (faultUngate s) := by
  unfold faultUngate
  simp (maxDischargeDepth := 40) [*]

@[simp ↓] theorem applyFence_keeps (a : State) (source : ℕ) (unit : ℕ) (s : State) (h0 : Keeps a s) :
    Keeps a (applyFence source unit s) := by
  unfold applyFence
  simp (maxDischargeDepth := 40) [*]

@[simp ↓] theorem faultStopAxes_keeps (a : State) (axes : List ℕ) (s : State) (h0 : Keeps a s) :
    Keeps a (faultStopAxes axes s) := by
  unfold faultStopAxes
  simp (maxDischargeDepth := 40) [*]

@[simp ↓] theorem faultGate_keeps (a : State) (source : ℕ) (links : List ℕ) (s : State) (h0 : Keeps a s) :
    Keeps a (faultGate source links s) := by
  unfold faultGate
  simp (maxDischargeDepth := 40) [*]

@[simp ↓] theorem stopReaction_keeps (a : State) (source : ℕ) (links : List ℕ) (s : State) (h0 : Keeps a s) :
    Keeps a (stopReaction source links s) := by
  unfold stopReaction
  simp (maxDischargeDepth := 40) [*]

@[simp ↓] theorem endTest_keeps (a : State) (i : ℕ) (status : ℕ) (s : State) (h0 : Keeps a s) :
    Keeps a (endTest i status s) := by
  unfold endTest
  (repeat' split) <;> simp (maxDischargeDepth := 40) [*]

@[simp ↓] theorem fatalReaction_keeps (a : State) (source : ℕ) (s : State) (h0 : Keeps a s) :
    Keeps a (fatalReaction source s) := by
  unfold fatalReaction
  simp (maxDischargeDepth := 40) [*]

@[simp ↓] theorem recordRaise_keeps (a : State) (r : Raise) (s : State) (h0 : Keeps a s) :
    Keeps a (recordRaise r s) := by
  unfold recordRaise
  dsimp only
  (repeat' split) <;> simp (maxDischargeDepth := 40) [*]

@[simp ↓] theorem writeEntry_keeps (a : State) (e : FEntry) (s : State) (h0 : Keeps a s) :
    Keeps a (writeEntry e s) := by
  unfold writeEntry
  simp (maxDischargeDepth := 40) [*]

@[simp ↓] theorem judgeNow_keeps (a : State) (s : State) (h0 : Keeps a s) :
    Keeps a (judgeNow s) := by
  unfold judgeNow
  simp (maxDischargeDepth := 40) [*]

@[simp ↓] theorem ackRec_keeps (a : State) (s : State) (source : ℕ) (h0 : Keeps a s) :
    Keeps a (ackRec s source) := by
  unfold ackRec
  simp (maxDischargeDepth := 40) [*]

/-! ### Machine/Faults.lean -/

@[simp ↓] theorem execFaultRaise_keeps (a : State) (s : State) (h0 : Keeps a s) :
    KeepsOut a (execFaultRaise s) := by
  unfold execFaultRaise
  (repeat' split) <;> simp (maxDischargeDepth := 40) [*]

@[simp ↓] theorem execFaultLogWrite_keeps (a : State) (s : State) (h0 : Keeps a s) :
    KeepsOut a (execFaultLogWrite s) := by
  unfold execFaultLogWrite
  (repeat' split) <;> simp (maxDischargeDepth := 40) [*]

@[simp ↓] theorem execAliveToggle_keeps (a : State) (s : State) (h0 : Keeps a s) :
    KeepsOut a (execAliveToggle s) := by
  unfold execAliveToggle
  simp (maxDischargeDepth := 40) [*]

@[simp ↓] theorem execHeartbeatMissing_keeps (a : State) (core : ℕ) (s : State) (h0 : Keeps a s) :
    KeepsOut a (execHeartbeatMissing core s) := by
  unfold execHeartbeatMissing
  simp (maxDischargeDepth := 40) [*]

@[simp ↓] theorem execSupervisorWatchdogExpiry_keeps (a : State) (s : State) (h0 : Keeps a s) :
    KeepsOut a (execSupervisorWatchdogExpiry s) := by
  unfold execSupervisorWatchdogExpiry
  simp (maxDischargeDepth := 40) [*]

@[simp ↓] theorem execFaultStatus_keeps (a : State) (rq : Req) (s : State) (h0 : Keeps a s) :
    KeepsOut a (execFaultStatus rq s) := by
  unfold execFaultStatus
  simp (maxDischargeDepth := 40) [*]

@[simp ↓] theorem execFaultSourceRead_keeps (a : State) (rq : Req) (s : State) (h0 : Keeps a s) :
    KeepsOut a (execFaultSourceRead rq s) := by
  unfold execFaultSourceRead
  simp (maxDischargeDepth := 40) [*]

@[simp ↓] theorem execFaultLogRead_keeps (a : State) (rq : Req) (s : State) (h0 : Keeps a s) :
    KeepsOut a (execFaultLogRead rq s) := by
  unfold execFaultLogRead
  simp (maxDischargeDepth := 40) [*]

@[simp ↓] theorem execFaultAck_keeps (a : State) (rq : Req) (s : State) (h0 : Keeps a s) :
    KeepsOut a (execFaultAck rq s) := by
  unfold execFaultAck
  (repeat' split) <;> simp (maxDischargeDepth := 40) [*]

@[simp ↓] theorem execFaultClear_keeps (a : State) (rq : Req) (s : State) (h0 : Keeps a s) :
    KeepsOut a (execFaultClear rq s) := by
  unfold execFaultClear
  (repeat' split) <;> simp (maxDischargeDepth := 40) [*]

@[simp ↓] theorem execFaultConfig_keeps (a : State) (rq : Req) (s : State) (h0 : Keeps a s) :
    KeepsOut a (execFaultConfig rq s) := by
  unfold execFaultConfig
  simp (maxDischargeDepth := 40) [*]

@[simp ↓] theorem execFaultForce_keeps (a : State) (rq : Req) (s : State) (h0 : Keeps a s) :
    KeepsOut a (execFaultForce rq s) := by
  unfold execFaultForce
  simp (maxDischargeDepth := 40) [*]

end Sys2Proof.Machine
end

