-- ==== Sys2Proof/Laws/KeepsForge.lean ====
section
/-!
SUPPORT. What is kept (Laws/Keeps.lean) by the Weir, Strait, the scan, the Lagoon and the lamps.
-/
namespace Sys2Proof.Machine

open Sys2Proof Sys2Proof.Safety

/-! ### Machine/WeirOps.lean -/

@[simp ↓] theorem retimeHead_keeps (a : State) (h : ℕ) (s : State) (h0 : Keeps a s) :
    Keeps a (retimeHead h s) := by
  unfold retimeHead
  (repeat' split) <;> simp (maxDischargeDepth := 40) [*]

@[simp ↓] theorem pushEvent_keeps (a : State) (l : ℕ) (k : ℕ) (e : QEvent) (s : State) (h0 : Keeps a s) :
    Keeps a (pushEvent l k e s) := by
  unfold pushEvent
  simp (maxDischargeDepth := 40) [*]

@[simp ↓] theorem sendEvent_keeps (a : State) (l : ℕ) (k : ℕ) (value : BitVec 24) (gate : Bool) (stamp : ℤ) (pitch : ℕ) (fresh : Bool) (s : State) (h0 : Keeps a s) :
    Keeps a (sendEvent l k value gate stamp pitch fresh s) := by
  unfold sendEvent
  dsimp only
  (repeat' split) <;> simp (maxDischargeDepth := 40) [*]

@[simp ↓] theorem lateCheck_keeps (a : State) (l : ℕ) (stamp : ℤ) (s : State) (h0 : Keeps a s) :
    Keeps a (lateCheck l stamp s) := by
  unfold lateCheck
  simp (maxDischargeDepth := 40) [*]

/-! ### Machine/ForgeOverlap.lean -/

@[simp ↓] theorem checkHeads_keeps (a : State) (hs : List Nat) (cleared : List (Nat × Point)) (s : State) (h0 : Keeps a s) : Keeps a (checkHeads hs cleared s) := by
  induction hs generalizing cleared s with
  | nil => exact h0
  | cons h hs ih =>
    unfold checkHeads
    split
    · exact ih _ _ h0
    · exact ih _ _ (by simp (maxDischargeDepth := 40) [h0])

@[simp ↓] theorem countIntrusion_keeps (a : State) (h : ℕ) (q : ℕ) (s : State) (h0 : Keeps a s) :
    Keeps a (countIntrusion h q s) := by
  unfold countIntrusion
  simp (maxDischargeDepth := 40) [*]

@[simp ↓] theorem execStraitCheck_keeps (a : State) (s : State) (h0 : Keeps a s) :
    KeepsOut a (execStraitCheck s) := by
  unfold execStraitCheck
  simp (maxDischargeDepth := 40) [*]

@[simp ↓] theorem execStraitWaitMaxExpiry_keeps (a : State) (head : ℕ) (s : State) (h0 : Keeps a s) :
    KeepsOut a (execStraitWaitMaxExpiry head s) := by
  unfold execStraitWaitMaxExpiry
  (repeat' split) <;> simp (maxDischargeDepth := 40) [*]

@[simp ↓] theorem execStraitTimeoutExpiry_keeps (a : State) (head : ℕ) (s : State) (h0 : Keeps a s) :
    KeepsOut a (execStraitTimeoutExpiry head s) := by
  unfold execStraitTimeoutExpiry
  (repeat' split) <;> simp (maxDischargeDepth := 40) [*]

@[simp ↓] theorem execPlumeHoldExpiry_keeps (a : State) (head : ℕ) (s : State) (h0 : Keeps a s) :
    KeepsOut a (execPlumeHoldExpiry head s) := by
  unfold execPlumeHoldExpiry
  dsimp only
  (repeat' split) <;> simp (maxDischargeDepth := 40) [*]

@[simp ↓] theorem unexecute_keeps (a : State) (h : ℕ) (r : Rec) (reason : ℕ) (s : State) (h0 : Keeps a s) :
    Keeps a (unexecute h r reason s) := by
  unfold unexecute
  simp (maxDischargeDepth := 40) [*]

@[simp ↓] theorem receiveRec_keeps (a : State) (a1 : ℕ) (r : Rec) (s : State) (h0 : Keeps a s) :
    Keeps a (receiveRec a1 r s) := by
  unfold receiveRec
  simp (maxDischargeDepth := 40) [*]

@[simp ↓] theorem issueReassignment_keeps (a : State) (hs : List Nat) (s : State) (h0 : Keeps a s) : Keeps a (issueReassignment hs s) := by
  unfold issueReassignment
  extract_lets s1 todo plan heirs s2 s3 s4 gone left waiting f5 s5 s6
  have h1 : Keeps a s1 := keeps_foldl _ _ _ _ h0 fun s h => by simp
  have h2 : Keeps a s2 := keeps_ite _ _ _ _ h1 (keeps_foldl _ _ _ _ (rollbackTrigger_keeps _ _ _ _ h1) fun s h => by simp)
  have h3 : Keeps a s3 := keeps_foldl _ _ _ _ h2 fun s h => by simp
  have h4 : Keeps a s4 := keeps_foldl _ _ _ _ h3 fun s p => by split <;> simp
  have h5 : Keeps a s5 := by simp (maxDischargeDepth := 40) [s5, f5, h4]
  have h6 : Keeps a s6 := keeps_foldl _ _ _ _ h5 fun s c => by simp
  exact maybeComplete_keeps _ _ (maybePaused_keeps _ _ (passFences_keeps _ _ h6))

@[simp ↓] theorem execStraitReassignmentIssue_keeps (a : State) (s : State) (h0 : Keeps a s) :
    KeepsOut a (execStraitReassignmentIssue s) := by
  unfold execStraitReassignmentIssue
  (repeat' split) <;> simp (maxDischargeDepth := 40) [*]

@[simp ↓] theorem execForgeStraitRetire_keeps (a : State) (rq : Req) (s : State) (h0 : Keeps a s) :
    KeepsOut a (execForgeStraitRetire rq s) := by
  unfold execForgeStraitRetire
  simp (maxDischargeDepth := 40) [*]

@[simp ↓] theorem execForgeStraitConfig_keeps (a : State) (rq : Req) (s : State) (h0 : Keeps a s) :
    KeepsOut a (execForgeStraitConfig rq s) := by
  unfold execForgeStraitConfig
  simp (maxDischargeDepth := 40) [*]

@[simp ↓] theorem execForgeStraitStatus_keeps (a : State) (rq : Req) (s : State) (h0 : Keeps a s) :
    KeepsOut a (execForgeStraitStatus rq s) := by
  unfold execForgeStraitStatus
  simp (maxDischargeDepth := 40) [*]

@[simp ↓] theorem bindHead_keeps (a : State) (h : ℕ) (kind : ℕ) (loop : ℕ) (inSel : Option Sel) (s : State) (h0 : Keeps a s) :
    Keeps a (bindHead h kind loop inSel s) := by
  unfold bindHead
  dsimp only
  (repeat' split) <;> simp (maxDischargeDepth := 40) [*]

@[simp ↓] theorem execForgeMeltpoolConfig_keeps (a : State) (rq : Req) (s : State) (h0 : Keeps a s) :
    KeepsOut a (execForgeMeltpoolConfig rq s) := by
  unfold execForgeMeltpoolConfig
  simp (maxDischargeDepth := 40) [*]

@[simp ↓] theorem execForgeMeltpoolStatus_keeps (a : State) (rq : Req) (s : State) (h0 : Keeps a s) :
    KeepsOut a (execForgeMeltpoolStatus rq s) := by
  unfold execForgeMeltpoolStatus
  simp (maxDischargeDepth := 40) [*]

@[simp ↓] theorem execForgeMeltpoolRaw_keeps (a : State) (rq : Req) (s : State) (h0 : Keeps a s) :
    KeepsOut a (execForgeMeltpoolRaw rq s) := by
  unfold execForgeMeltpoolRaw
  simp (maxDischargeDepth := 40) [*]

@[simp ↓] theorem execForgePowerCap_keeps (a : State) (rq : Req) (s : State) (h0 : Keeps a s) :
    KeepsOut a (execForgePowerCap rq s) := by
  unfold execForgePowerCap
  simp (maxDischargeDepth := 40) [*]

@[simp ↓] theorem execMeltpoolSignalLost_keeps (a : State) (head : ℕ) (s : State) (h0 : Keeps a s) :
    KeepsOut a (execMeltpoolSignalLost head s) := by
  unfold execMeltpoolSignalLost
  dsimp only
  (repeat' split) <;> simp (maxDischargeDepth := 40) [*]

@[simp ↓] theorem execCameraFeatureStale_keeps (a : State) (head : ℕ) (s : State) (h0 : Keeps a s) :
    KeepsOut a (execCameraFeatureStale head s) := by
  unfold execCameraFeatureStale
  dsimp only
  (repeat' split) <;> simp (maxDischargeDepth := 40) [*]

@[simp ↓] theorem saturateHead_keeps (a : State) (h : ℕ) (s : State) (h0 : Keeps a s) :
    Keeps a (saturateHead h s) := by
  unfold saturateHead
  simp (maxDischargeDepth := 40) [*]

@[simp ↓] theorem execPhotodiodeSample_keeps (a : State) (channel : ℕ) (counts : ℕ) (s : State) (h0 : Keeps a s) :
    KeepsOut a (execPhotodiodeSample channel counts s) := by
  unfold execPhotodiodeSample
  simp (maxDischargeDepth := 40) [*]

@[simp ↓] theorem execForgePermitConfig_keeps (a : State) (rq : Req) (s : State) (h0 : Keeps a s) :
    KeepsOut a (execForgePermitConfig rq s) := by
  unfold execForgePermitConfig
  simp (maxDischargeDepth := 40) [*]

/-! ### Machine/ForgeScan.lean -/

@[simp ↓] theorem uncheck_keeps (a : State) (h : ℕ) (s : State) (h0 : Keeps a s) :
    Keeps a (uncheck h s) := by
  unfold uncheck
  simp (maxDischargeDepth := 40) [*]

@[simp ↓] theorem execForgeHeadConfig_keeps (a : State) (rq : Req) (s : State) (h0 : Keeps a s) :
    KeepsOut a (execForgeHeadConfig rq s) := by
  unfold execForgeHeadConfig
  simp (maxDischargeDepth := 40) [*]

@[simp ↓] theorem execForgeHeadJog_keeps (a : State) (rq : Req) (s : State) (h0 : Keeps a s) :
    KeepsOut a (execForgeHeadJog rq s) := by
  unfold execForgeHeadJog
  simp (maxDischargeDepth := 40) [*]

@[simp ↓] theorem State_modProgram_keeps (a : State) (s : State) (i : ℕ) (f : Program → Program) (h0 : Keeps a s) :
    Keeps a (State.modProgram s i f) := by
  unfold State.modProgram
  simp (maxDischargeDepth := 40) [*]

@[simp ↓] theorem readDramTable_keeps (a : State) (address : Nat) (n : Nat) (s : State) (h0 : Keeps a s) :
    Keeps a (readDramTable address n s) := by
  unfold readDramTable
  (repeat' split) <;> simp (maxDischargeDepth := 40) [*]

@[simp ↓] theorem readProgram_keeps (a : State) (address : Nat) (crc : BitVec 32) (s : State) (h0 : Keeps a s) :
    Keeps a (readProgram address crc s) := by
  unfold readProgram
  dsimp only
  (repeat' split) <;> simp (maxDischargeDepth := 40) [*]

@[simp ↓] theorem execForgeProgramLoad_keeps (a : State) (rq : Req) (s : State) (h0 : Keeps a s) :
    KeepsOut a (execForgeProgramLoad rq s) := by
  unfold execForgeProgramLoad
  simp (maxDischargeDepth := 40) [*]

@[simp ↓] theorem execForgeProgramCheckDone_keeps (a : State) (slot : ℕ) (s : State) (h0 : Keeps a s) :
    KeepsOut a (execForgeProgramCheckDone slot s) := by
  unfold execForgeProgramCheckDone
  (repeat' split) <;> simp (maxDischargeDepth := 40) [*]

@[simp ↓] theorem execForgeLayerRecoat_keeps (a : State) (rq : Req) (s : State) (h0 : Keeps a s) :
    KeepsOut a (execForgeLayerRecoat rq s) := by
  unfold execForgeLayerRecoat
  simp (maxDischargeDepth := 40) [*]

@[simp ↓] theorem execRecoatTimeout_keeps (a : State) (s : State) (h0 : Keeps a s) :
    KeepsOut a (execRecoatTimeout s) := by
  unfold execRecoatTimeout
  (repeat' split) <;> simp (maxDischargeDepth := 40) [*]

@[simp ↓] theorem armHead_keeps (a : State) (h : ℕ) (array : List Rec) (anchored : Bool) (s : State) (h0 : Keeps a s) :
    Keeps a (armHead h array anchored s) := by
  unfold armHead
  simp (maxDischargeDepth := 40) [*]

@[simp ↓] theorem execForgeLayerArm_keeps (a : State) (rq : Req) (s : State) (h0 : Keeps a s) :
    KeepsOut a (execForgeLayerArm rq s) := by
  unfold execForgeLayerArm
  simp (maxDischargeDepth := 40) [*]

@[simp ↓] theorem execForgeLayerExpose_keeps (a : State) (rq : Req) (s : State) (h0 : Keeps a s) :
    KeepsOut a (execForgeLayerExpose rq s) := by
  unfold execForgeLayerExpose
  simp (maxDischargeDepth := 40) [*]

@[simp ↓] theorem controlReply_keeps (a : State) (rq : Req) (s : State) (h0 : Keeps a s) :
    Keeps a (controlReply rq s) := by
  unfold controlReply
  simp (maxDischargeDepth := 40) [*]

@[simp ↓] theorem execForgeLayerPause_keeps (a : State) (rq : Req) (s : State) (h0 : Keeps a s) :
    KeepsOut a (execForgeLayerPause rq s) := by
  unfold execForgeLayerPause
  simp (maxDischargeDepth := 40) [*]

@[simp ↓] theorem resumeLayer_keeps (a : State) (t : ℕ) (s : State) (h0 : Keeps a s) :
    Keeps a (resumeLayer t s) := by
  unfold resumeLayer
  simp (maxDischargeDepth := 40) [*]

@[simp ↓] theorem execForgeLayerResume_keeps (a : State) (rq : Req) (s : State) (h0 : Keeps a s) :
    KeepsOut a (execForgeLayerResume rq s) := by
  unfold execForgeLayerResume
  simp (maxDischargeDepth := 40) [*]

@[simp ↓] theorem execForgeLayerAbort_keeps (a : State) (rq : Req) (s : State) (h0 : Keeps a s) :
    KeepsOut a (execForgeLayerAbort rq s) := by
  unfold execForgeLayerAbort
  simp (maxDischargeDepth := 40) [*]

@[simp ↓] theorem execForgeLayerStatus_keeps (a : State) (rq : Req) (s : State) (h0 : Keeps a s) :
    KeepsOut a (execForgeLayerStatus rq s) := by
  unfold execForgeLayerStatus
  simp (maxDischargeDepth := 40) [*]

@[simp ↓] theorem execFenceTimeout_keeps (a : State) (head : ℕ) (s : State) (h0 : Keeps a s) :
    KeepsOut a (execFenceTimeout head s) := by
  unfold execFenceTimeout
  simp (maxDischargeDepth := 40) [*]

@[simp ↓] theorem execForgeInterlockAssign_keeps (a : State) (rq : Req) (s : State) (h0 : Keeps a s) :
    KeepsOut a (execForgeInterlockAssign rq s) := by
  unfold execForgeInterlockAssign
  simp (maxDischargeDepth := 40) [*]

@[simp ↓] theorem execGraceExpiry_keeps (a : State) (input : ℕ) (s : State) (h0 : Keeps a s) :
    KeepsOut a (execGraceExpiry input s) := by
  unfold execGraceExpiry
  simp (maxDischargeDepth := 40) [*]

/-! ### Machine/Lagoon.lean -/

theorem earliestDue_mem (l : List TileReq) (r : TileReq) (h : earliestDue l = some r) : r ∈ l := by
  induction l generalizing r with
  | nil => cases h
  | cons q l ih =>
    unfold earliestDue at h
    split at h
    · rename_i x e
      split at h
      · cases h; exact List.mem_cons_of_mem _ (ih _ e)
      · cases h; exact List.mem_cons_self
    · cases h; exact List.mem_cons_self

@[simp ↓] theorem execTileHandleRequest_keeps (a : State) (due : BitVec 64) (owner : TileOwner) (s : State) (h0 : Keeps a s) :
    KeepsOut a (execTileHandleRequest due owner s) := by
  unfold execTileHandleRequest
  (repeat' split) <;> simp (maxDischargeDepth := 40) [*]

@[simp ↓] theorem execTileHandleGrant_keeps (a : State) (s : State) (h0 : Keeps a s) : KeepsOut a (execTileHandleGrant s) := by
  unfold execTileHandleGrant
  split
  · rename_i r h e1 e2
    have hm : LeUpd 64 s.lag.waiting (s.lag.waiting.erase r ++ s.lag.queued.take 1) := fun g => by
      have h1 := earliestDue_mem _ _ e1
      have h2 := List.length_erase_of_mem h1
      have h3 := List.length_pos_of_mem h1
      have h4 : (s.lag.queued.take 1).length ≤ 1 := List.length_take_le ..
      rw [List.length_append]; omega
    extract_lets x u waiting y
    have hu : Keeps a u := State_setTile_keeps _ _ _ h0
    have hw : LeUpd 64 u.lag.waiting (waiting ++ u.lag.queued.take 1) := hm
    clear_value waiting u
    apply keepsOut_next
    simp (maxDischargeDepth := 40) [y, hu, hw]
  · exact keepsOut_next _ _ h0

@[simp ↓] theorem execTileFillOpen_keeps (a : State) (handle : ℕ) (hdr : FillHdr) (s : State) (h0 : Keeps a s) :
    KeepsOut a (execTileFillOpen handle hdr s) := by
  unfold execTileFillOpen
  simp (maxDischargeDepth := 40) [*]

@[simp ↓] theorem writerBytes_keeps (a : State) (s : State) (handle : Nat) (offset : Nat) (n : Nat) (h0 : Keeps a s) :
    Keeps a (writerBytes s handle offset n).2 := by
  unfold writerBytes
  dsimp only
  (repeat' split) <;> simp (maxDischargeDepth := 40) [*]

@[simp ↓] theorem refuseWrite_keeps (a : State) (handle : Nat) (s : State) (h0 : Keeps a s) :
    Keeps a (refuseWrite handle s) := by
  unfold refuseWrite
  (repeat' split) <;> simp (maxDischargeDepth := 40) [*]

@[simp ↓] theorem execTileFillWrite_keeps (a : State) (handle : ℕ) (offset : ℕ) (data : List Byte) (s : State) (h0 : Keeps a s) :
    KeepsOut a (execTileFillWrite handle offset data s) := by
  unfold execTileFillWrite
  (repeat' split) <;> simp (maxDischargeDepth := 40) [*]

@[simp ↓] theorem execTileFillClose_keeps (a : State) (handle : ℕ) (s : State) (h0 : Keeps a s) :
    KeepsOut a (execTileFillClose handle s) := by
  unfold execTileFillClose
  simp (maxDischargeDepth := 40) [*]

@[simp ↓] theorem execLagoonRead_keeps (a : State) (address : BitVec 32) (reader : LagoonReader) (upset : ℕ) (s : State) (h0 : Keeps a s) :
    KeepsOut a (execLagoonRead address reader upset s) := by
  unfold execLagoonRead
  (repeat' split) <;> simp (maxDischargeDepth := 40) [*]

@[simp ↓] theorem execLagoonScrubStep_keeps (a : State) (idle : Bool) (upset : ℕ) (s : State) (h0 : Keeps a s) :
    KeepsOut a (execLagoonScrubStep idle upset s) := by
  unfold execLagoonScrubStep
  simp (maxDischargeDepth := 40) [*]

@[simp ↓] theorem execLagoonTileReadDone_keeps (a : State) (s : State) (h0 : Keeps a s) :
    KeepsOut a (execLagoonTileReadDone s) := by
  unfold execLagoonTileReadDone
  dsimp only
  (repeat' split) <;> simp (maxDischargeDepth := 40) [*]

@[simp ↓] theorem execLagoonStatus_keeps (a : State) (rq : Req) (s : State) (h0 : Keeps a s) :
    KeepsOut a (execLagoonStatus rq s) := by
  unfold execLagoonStatus
  simp (maxDischargeDepth := 40) [*]

@[simp ↓] theorem execLagoonEccLog_keeps (a : State) (rq : Req) (s : State) (h0 : Keeps a s) :
    KeepsOut a (execLagoonEccLog rq s) := by
  unfold execLagoonEccLog
  simp (maxDischargeDepth := 40) [*]

@[simp ↓] theorem execLagoonTileHeader_keeps (a : State) (rq : Req) (s : State) (h0 : Keeps a s) :
    KeepsOut a (execLagoonTileHeader rq s) := by
  unfold execLagoonTileHeader
  simp (maxDischargeDepth := 40) [*]

@[simp ↓] theorem execLagoonTileRead_keeps (a : State) (rq : Req) (s : State) (h0 : Keeps a s) :
    KeepsOut a (execLagoonTileRead rq s) := by
  unfold execLagoonTileRead
  simp (maxDischargeDepth := 40) [*]

@[simp ↓] theorem execLagoonEccInject_keeps (a : State) (rq : Req) (s : State) (h0 : Keeps a s) :
    KeepsOut a (execLagoonEccInject rq s) := by
  unfold execLagoonEccInject
  simp (maxDischargeDepth := 40) [*]

/-! ### Machine/Lamps.lean -/

@[simp ↓] theorem failLamps_keeps (a : State) (i : ℕ) (lamps : List ℕ) (opens : List ℕ) (s : State) (h0 : Keeps a s) :
    Keeps a (failLamps i lamps opens s) := by
  unfold failLamps
  simp (maxDischargeDepth := 40) [*]

@[simp ↓] theorem switchOff_keeps (a : State) (i : ℕ) (s : State) (h0 : Keeps a s) :
    Keeps a (switchOff i s) := by
  unfold switchOff
  simp (maxDischargeDepth := 40) [*]

@[simp ↓] theorem execLampMatrixFrame_keeps (a : State) (string : ℕ) (frame : BitVec 64) (heard : Bool) (s : State) (h0 : Keeps a s) :
    KeepsOut a (execLampMatrixFrame string frame heard s) := by
  unfold execLampMatrixFrame
  simp (maxDischargeDepth := 40) [*]

@[simp ↓] theorem execLightStringConfig_keeps (a : State) (rq : Req) (s : State) (h0 : Keeps a s) :
    KeepsOut a (execLightStringConfig rq s) := by
  unfold execLightStringConfig
  simp (maxDischargeDepth := 40) [*]

@[simp ↓] theorem execLightStringLevel_keeps (a : State) (rq : Req) (s : State) (h0 : Keeps a s) :
    KeepsOut a (execLightStringLevel rq s) := by
  unfold execLightStringLevel
  simp (maxDischargeDepth := 40) [*]

@[simp ↓] theorem execLightStringStatus_keeps (a : State) (rq : Req) (s : State) (h0 : Keeps a s) :
    KeepsOut a (execLightStringStatus rq s) := by
  unfold execLightStringStatus
  simp (maxDischargeDepth := 40) [*]

@[simp ↓] theorem execLightMatrixRaw_keeps (a : State) (rq : Req) (s : State) (h0 : Keeps a s) :
    KeepsOut a (execLightMatrixRaw rq s) := by
  unfold execLightMatrixRaw
  simp (maxDischargeDepth := 40) [*]

end Sys2Proof.Machine
end

