-- ==== Sys2Proof/Laws/KeepsMci.lean ====
section
/-!
SUPPORT. What is kept (Laws/Keeps.lean) by links, thermal units, OTP, mailboxes and motion.
-/
namespace Sys2Proof.Machine

open Sys2Proof Sys2Proof.Safety

/-! ### Machine/LinkOps.lean -/

@[simp ↓] theorem sendUngate_keeps (a : State) (l : ℕ) (at_ : ℕ) (s : State) (h0 : Keeps a s) :
    Keeps a (sendUngate l at_ s) := by
  unfold sendUngate
  simp (maxDischargeDepth := 40) [*]

@[simp ↓] theorem txStart_keeps (a : State) (l : ℕ) (s : State) (h0 : Keeps a s) :
    Keeps a (txStart l s) := by
  unfold txStart
  simp (maxDischargeDepth := 40) [*]

@[simp ↓] theorem startTraining_keeps (a : State) (l : ℕ) (ctx : Option Ctx) (s : State) (h0 : Keeps a s) :
    Keeps a (startTraining l ctx s) := by
  unfold startTraining
  simp (maxDischargeDepth := 40) [*]

@[simp ↓] theorem trainFail_keeps (a : State) (l : ℕ) (s : State) (h0 : Keeps a s) :
    Keeps a (trainFail l s) := by
  unfold trainFail
  dsimp only
  (repeat' split) <;> simp (maxDischargeDepth := 40) [*]

@[simp ↓] theorem finishTraining_keeps (a : State) (l : ℕ) (s : State) (h0 : Keeps a s) :
    Keeps a (finishTraining l s) := by
  unfold finishTraining
  dsimp only
  (repeat' split) <;> simp (maxDischargeDepth := 40) [*]

@[simp ↓] theorem linkDown_keeps (a : State) (l : ℕ) (s : State) (h0 : Keeps a s) :
    Keeps a (linkDown l s) := by
  unfold linkDown
  simp (maxDischargeDepth := 40) [*]

@[simp ↓] theorem resync_keeps (a : State) (l : ℕ) (s : State) (h0 : Keeps a s) :
    Keeps a (resync l s) := by
  unfold resync
  dsimp only
  (repeat' split) <;> simp (maxDischargeDepth := 40) [*]

@[simp ↓] theorem linkViolation_keeps (a : State) (l : ℕ) (code : ℕ) (type : ℕ) (s : State) (h0 : Keeps a s) :
    Keeps a (linkViolation l code type s) := by
  unfold linkViolation
  simp (maxDischargeDepth := 40) [*]

@[simp ↓] theorem reportLate_keeps (a : State) (l : ℕ) (k : ℕ) (type : ℕ) (s : State) (h0 : Keeps a s) :
    Keeps a (reportLate l k type s) := by
  unfold reportLate
  simp (maxDischargeDepth := 40) [*]

@[simp ↓] theorem telemetryBeams_keeps (a : State) (l : ℕ) (s : State) (h0 : Keeps a s) :
    Keeps a (telemetryBeams l s) := by
  unfold telemetryBeams
  (repeat' split) <;> simp (maxDischargeDepth := 40) [*]

@[simp ↓] theorem telemetryHead_keeps (a : State) (h : ℕ) (s : State) (h0 : Keeps a s) :
    Keeps a (telemetryHead h s) := by
  unfold telemetryHead
  simp (maxDischargeDepth := 40) [*]

/-! ### Machine/Thermal.lean -/

@[simp ↓] theorem countThrottle_keeps (a : State) (u : ℕ) (throttled : Bool) (s : State) (h0 : Keeps a s) :
    Keeps a (countThrottle u throttled s) := by
  unfold countThrottle
  simp (maxDischargeDepth := 40) [*]

@[simp ↓] theorem throttleTimers_keeps (a : State) (u : ℕ) (t : ℤ) (s : State) (h0 : Keeps a s) :
    Keeps a (throttleTimers u t s) := by
  unfold throttleTimers
  simp (maxDischargeDepth := 40) [*]

@[simp ↓] theorem holdReading_keeps (a : State) (u : ℕ) (t : ℤ) (s : State) (h0 : Keeps a s) :
    Keeps a (holdReading u t s) := by
  unfold holdReading
  simp (maxDischargeDepth := 40) [*]

@[simp ↓] theorem notePrivileged_keeps (a : State) (u : Nat) (s : State) (h0 : Keeps a s) :
    Keeps a (notePrivileged u s) := by
  unfold notePrivileged
  (repeat' split) <;> simp (maxDischargeDepth := 40) [*]

@[simp ↓] theorem compareUnit_keeps (a : State) (u : ℕ) (s : State) (h0 : Keeps a s) :
    Keeps a (compareUnit u s) := by
  unfold compareUnit
  (repeat' split) <;> simp (maxDischargeDepth := 40) [*]

@[simp ↓] theorem configureUnits_keeps (a : State) (i : ℕ) (s : State) (h0 : Keeps a s) :
    Keeps a (configureUnits i s) :=
  keeps_foldl _ _ _ _ h0 fun s u => by dsimp only; split <;> simp (maxDischargeDepth := 40)

@[simp ↓] theorem takeReading_keeps (a : State) (i : ℕ) (value : ℤ) (broken : Bool) (s : State) (h0 : Keeps a s) :
    Keeps a (takeReading i value broken s) := by
  unfold takeReading
  simp (maxDischargeDepth := 40) [*]

@[simp ↓] theorem execSensorReading_keeps (a : State) (sensor : ℕ) (value : ℤ) (s : State) (h0 : Keeps a s) :
    KeepsOut a (execSensorReading sensor value s) := by
  unfold execSensorReading
  simp (maxDischargeDepth := 40) [*]

@[simp ↓] theorem execSensorConversionTimeout_keeps (a : State) (sensor : ℕ) (s : State) (h0 : Keeps a s) :
    KeepsOut a (execSensorConversionTimeout sensor s) := by
  unfold execSensorConversionTimeout
  simp (maxDischargeDepth := 40) [*]

@[simp ↓] theorem execRemoteReadingStale_keeps (a : State) (sensor : ℕ) (s : State) (h0 : Keeps a s) :
    KeepsOut a (execRemoteReadingStale sensor s) := by
  unfold execRemoteReadingStale
  simp (maxDischargeDepth := 40) [*]

@[simp ↓] theorem execThrottleStepDown_keeps (a : State) (unit : Nat) (s : State) (h0 : Keeps a s) : KeepsOut a (execThrottleStepDown unit s) := by
  unfold execThrottleStepDown
  extract_lets x
  split
  · extract_lets due
    exact keepsOut_ite _ _ _ _ (keepsOut_next _ _ (factorsChanged_keeps _ _ (State_modUnit_keeps _ _ _ _
      (State_advanceTo_keeps _ _ _ h0)))) (keepsOut_next _ _ h0)
  · exact keepsOut_next _ _ h0

@[simp ↓] theorem execThrottleStepUp_keeps (a : State) (unit : Nat) (s : State) (h0 : Keeps a s) : KeepsOut a (execThrottleStepUp unit s) := by
  unfold execThrottleStepUp
  extract_lets x
  split
  · extract_lets due
    exact keepsOut_ite _ _ _ _ (keepsOut_next _ _ (factorsChanged_keeps _ _ (State_modUnit_keeps _ _ _ _
      (State_advanceTo_keeps _ _ _ h0)))) (keepsOut_next _ _ h0)
  · exact keepsOut_next _ _ h0

@[simp ↓] theorem execThermalUnitConfig_keeps (a : State) (rq : Req) (s : State) (h0 : Keeps a s) :
    KeepsOut a (execThermalUnitConfig rq s) := by
  unfold execThermalUnitConfig
  simp (maxDischargeDepth := 40) [*]

@[simp ↓] theorem execThermalThermistorConfig_keeps (a : State) (rq : Req) (s : State) (h0 : Keeps a s) :
    KeepsOut a (execThermalThermistorConfig rq s) := by
  unfold execThermalThermistorConfig
  simp (maxDischargeDepth := 40) [*]

@[simp ↓] theorem execThermalStatus_keeps (a : State) (rq : Req) (s : State) (h0 : Keeps a s) :
    KeepsOut a (execThermalStatus rq s) := by
  unfold execThermalStatus
  simp (maxDischargeDepth := 40) [*]

@[simp ↓] theorem execThermalSensorForce_keeps (a : State) (rq : Req) (s : State) (h0 : Keeps a s) :
    KeepsOut a (execThermalSensorForce rq s) := by
  unfold execThermalSensorForce
  simp (maxDischargeDepth := 40) [*]

/-! ### Machine/Links.lean -/

@[simp ↓] theorem execCommaLock_keeps (a : State) (link : ℕ) (s : State) (h0 : Keeps a s) :
    KeepsOut a (execCommaLock link s) := by
  unfold execCommaLock
  simp (maxDischargeDepth := 40) [*]

@[simp ↓] theorem execCapReplyReceive_keeps (a : State) (link : ℕ) (payload : List Byte) (s : State) (h0 : Keeps a s) :
    KeepsOut a (execCapReplyReceive link payload s) := by
  unfold execCapReplyReceive
  simp (maxDischargeDepth := 40) [*]

@[simp ↓] theorem sendProbes_keeps (a : State) (l : ℕ) (s : State) (h0 : Keeps a s) :
    Keeps a (sendProbes l s) := by
  unfold sendProbes
  simp (maxDischargeDepth := 40) [*]

@[simp ↓] theorem execAckReceive_keeps (a : State) (link : ℕ) (ctype : BitVec 8) (payload : BitVec 40) (s : State) (h0 : Keeps a s) :
    KeepsOut a (execAckReceive link ctype payload s) := by
  unfold execAckReceive
  simp (maxDischargeDepth := 40) [*]

@[simp ↓] theorem execProbeEchoReceive_keeps (a : State) (link : ℕ) (payload : BitVec 40) (roundTrip : ℕ) (s : State) (h0 : Keeps a s) :
    KeepsOut a (execProbeEchoReceive link payload roundTrip s) := by
  unfold execProbeEchoReceive
  simp (maxDischargeDepth := 40) [*]

@[simp ↓] theorem execTelemetryReceive_keeps (a : State) (link : ℕ) (payload : List Byte) (s : State) (h0 : Keeps a s) :
    KeepsOut a (execTelemetryReceive link payload s) := by
  unfold execTelemetryReceive
  simp (maxDischargeDepth := 40) [*]

@[simp ↓] theorem execStatusReceive_keeps (a : State) (link : ℕ) (bits : Byte) (s : State) (h0 : Keeps a s) :
    KeepsOut a (execStatusReceive link bits s) := by
  unfold execStatusReceive
  simp (maxDischargeDepth := 40) [*]

@[simp ↓] theorem execBackchannelCodeError_keeps (a : State) (link : ℕ) (s : State) (h0 : Keeps a s) :
    KeepsOut a (execBackchannelCodeError link s) := by
  unfold execBackchannelCodeError
  simp (maxDischargeDepth := 40) [*]

@[simp ↓] theorem execBackchannelBadMessage_keeps (a : State) (link : ℕ) (kind : BadMessage) (type : Byte) (s : State) (h0 : Keeps a s) :
    KeepsOut a (execBackchannelBadMessage link kind type s) := by
  unfold execBackchannelBadMessage
  simp (maxDischargeDepth := 40) [*]

@[simp ↓] theorem execResyncRelock_keeps (a : State) (link : ℕ) (s : State) (h0 : Keeps a s) :
    KeepsOut a (execResyncRelock link s) := by
  unfold execResyncRelock
  simp (maxDischargeDepth := 40) [*]

@[simp ↓] theorem execAckTimeout_keeps (a : State) (link : ℕ) (s : State) (h0 : Keeps a s) :
    KeepsOut a (execAckTimeout link s) := by
  unfold execAckTimeout
  (repeat' split) <;> simp (maxDischargeDepth := 40) [*]

@[simp ↓] theorem execCapReplyTimeout_keeps (a : State) (link : ℕ) (s : State) (h0 : Keeps a s) :
    KeepsOut a (execCapReplyTimeout link s) := by
  unfold execCapReplyTimeout
  simp (maxDischargeDepth := 40) [*]

@[simp ↓] theorem execTelemetryTimeout_keeps (a : State) (link : ℕ) (s : State) (h0 : Keeps a s) :
    KeepsOut a (execTelemetryTimeout link s) := by
  unfold execTelemetryTimeout
  simp (maxDischargeDepth := 40) [*]

@[simp ↓] theorem execCommaLossTimeout_keeps (a : State) (link : ℕ) (s : State) (h0 : Keeps a s) :
    KeepsOut a (execCommaLossTimeout link s) := by
  unfold execCommaLossTimeout
  simp (maxDischargeDepth := 40) [*]

@[simp ↓] theorem execLinkTrainDeadline_keeps (a : State) (link : ℕ) (s : State) (h0 : Keeps a s) :
    KeepsOut a (execLinkTrainDeadline link s) := by
  unfold execLinkTrainDeadline
  simp (maxDischargeDepth := 40) [*]

@[simp ↓] theorem execLinkRetrainTimer_keeps (a : State) (link : ℕ) (s : State) (h0 : Keeps a s) :
    KeepsOut a (execLinkRetrainTimer link s) := by
  unfold execLinkRetrainTimer
  simp (maxDischargeDepth := 40) [*]

@[simp ↓] theorem execViolationWindowStart_keeps (a : State) (s : State) (h0 : Keeps a s) :
    KeepsOut a (execViolationWindowStart s) := by
  unfold execViolationWindowStart
  simp (maxDischargeDepth := 40) [*]

@[simp ↓] theorem execTimesyncSend_keeps (a : State) (link : ℕ) (s : State) (h0 : Keeps a s) :
    KeepsOut a (execTimesyncSend link s) := by
  unfold execTimesyncSend
  simp (maxDischargeDepth := 40) [*]

@[simp ↓] theorem execKeepaliveSend_keeps (a : State) (link : ℕ) (s : State) (h0 : Keeps a s) :
    KeepsOut a (execKeepaliveSend link s) := by
  unfold execKeepaliveSend
  simp (maxDischargeDepth := 40) [*]

@[simp ↓] theorem execGateWordRepeat_keeps (a : State) (link : ℕ) (s : State) (h0 : Keeps a s) :
    KeepsOut a (execGateWordRepeat link s) := by
  unfold execGateWordRepeat
  simp (maxDischargeDepth := 40) [*]

@[simp ↓] theorem nstopTaken_keeps (a : State) (widthNs : ℕ) (s : State) (h0 : Keeps a s) :
    Keeps a (nstopTaken widthNs s).2 := by
  unfold nstopTaken
  (repeat' split) <;> simp (maxDischargeDepth := 40) [*]

@[simp ↓] theorem execNstopFall_keeps (a : State) (widthNs : ℕ) (s : State) (h0 : Keeps a s) :
    KeepsOut a (execNstopFall widthNs s) := by
  unfold execNstopFall
  simp (maxDischargeDepth := 40) [*]

@[simp ↓] theorem execNstopRise_keeps (a : State) (widthNs : ℕ) (s : State) (h0 : Keeps a s) :
    KeepsOut a (execNstopRise widthNs s) := by
  unfold execNstopRise
  simp (maxDischargeDepth := 40) [*]

@[simp ↓] theorem execGateReleaseAt_keeps (a : State) (link : ℕ) (s : State) (h0 : Keeps a s) :
    KeepsOut a (execGateReleaseAt link s) := by
  unfold execGateReleaseAt
  dsimp only
  (repeat' split) <;> simp (maxDischargeDepth := 40) [*]

@[simp ↓] theorem stationCauses_keeps (a : State) (i : Nat) (s : State) (h0 : Keeps a s) :
    Keeps a (stationCauses i s) := by
  unfold stationCauses
  (repeat' split) <;> simp (maxDischargeDepth := 40) [*]

@[simp ↓] theorem execLaneMap_keeps (a : State) (rq : Req) (s : State) (h0 : Keeps a s) :
    KeepsOut a (execLaneMap rq s) := by
  unfold execLaneMap
  simp (maxDischargeDepth := 40) [*]

@[simp ↓] theorem execLinkConfig_keeps (a : State) (rq : Req) (s : State) (h0 : Keeps a s) :
    KeepsOut a (execLinkConfig rq s) := by
  unfold execLinkConfig
  dsimp only
  (repeat' split) <;> simp (maxDischargeDepth := 40) [*]

@[simp ↓] theorem execLinkStatus_keeps (a : State) (rq : Req) (s : State) (h0 : Keeps a s) :
    KeepsOut a (execLinkStatus rq s) := by
  unfold execLinkStatus
  simp (maxDischargeDepth := 40) [*]

@[simp ↓] theorem execLaneGateRelease_keeps (a : State) (rq : Req) (s : State) (h0 : Keeps a s) :
    KeepsOut a (execLaneGateRelease rq s) := by
  unfold execLaneGateRelease
  simp (maxDischargeDepth := 40) [*]

@[simp ↓] theorem execLinkConfigRaw_keeps (a : State) (rq : Req) (s : State) (h0 : Keeps a s) :
    KeepsOut a (execLinkConfigRaw rq s) := by
  unfold execLinkConfigRaw
  simp (maxDischargeDepth := 40) [*]

/-! ### Machine/OtpOps.lean -/

theorem cellOf_row (ws : List OtpWord) (p : Nat) : (cellOf ws p).row = p := by
  unfold cellOf
  rcases h : ws.find? (fun c => decide (c.row = p)) with _ | c
  · simp (maxDischargeDepth := 40) [h]
  · simpa [h] using List.find?_some h

theorem cellOf_insert (d : OtpWord) (ws : List OtpWord) (p : Nat) : cellOf (otpInsert d ws) p = if p = d.row then d else cellOf ws p := by
  unfold cellOf
  induction ws with
  | nil => by_cases h : p = d.row <;> simp (maxDischargeDepth := 40) [otpInsert, h, eq_comm]
  | cons c ws ih =>
    unfold otpInsert
    split
    · rename_i h
      by_cases h1 : p = d.row
      · simp (maxDischargeDepth := 40) [h1]
      · simp (maxDischargeDepth := 40) [List.find?_cons, h1, Ne.symm h1]
    · split
      · rename_i h h2
        by_cases h1 : p = d.row
        · simp (maxDischargeDepth := 40) [h1]
        · have : ¬ c.row = p := by omega
          simp (maxDischargeDepth := 40) [h1, Ne.symm h1, this]
      · rename_i h h2
        rw [List.find?_cons, List.find?_cons]
        by_cases h1 : c.row = p
        · simp (maxDischargeDepth := 40) [h1]; omega
        · simpa [h1] using ih

theorem otpInsert_wf (d : OtpWord) (ws : List OtpWord) (hd : d.isBlank = false) (h : otpWordsWf ws = true) :
    otpWordsWf (otpInsert d ws) = true ∧ (∀ k, k < d.row → (∀ c ∈ ws.head?, k < c.row) → ∀ c ∈ (otpInsert d ws).head?, k < c.row) := by
  induction ws with
  | nil => exact ⟨by simpa [otpInsert, otpWordsWf], by simp (maxDischargeDepth := 40) [otpInsert]⟩
  | cons c ws ih =>
    have ht : c.isBlank = false ∧ otpWordsWf ws = true ∧ ∀ e ∈ ws.head?, c.row < e.row := by
      cases ws <;> simp_all [otpWordsWf]
    unfold otpInsert
    split
    · rename_i h1
      refine ⟨?_, by simp_all⟩
      rw [otpWordsWf]; simp (maxDischargeDepth := 40) [hd, h1, h]
    · split
      · rename_i h1 h2
        refine ⟨?_, by simp_all⟩
        cases ws with
        | nil => simpa [otpWordsWf]
        | cons e ws => rw [otpWordsWf]; simp_all
      · rename_i h1 h2
        have hi := ih ht.2.1
        refine ⟨?_, by simp_all⟩
        have h3 := hi.2 c.row (by omega) ht.2.2
        cases hn : otpInsert d ws with
        | nil => simpa [otpWordsWf] using ht.1
        | cons e l =>
          rw [hn] at hi h3
          rw [otpWordsWf]
          simp (maxDischargeDepth := 40) [ht.1, h3 e (by simp), hi.1]

theorem or_keeps (a b x y : BitVec 32) : (a ||| b) &&& ~~~((a ||| x) ||| (b ||| y)) = 0#32 := by
  ext i hi
  simp only [BitVec.getElem_and, BitVec.getElem_or, BitVec.getElem_not, BitVec.getElem_zero]
  cases a[i] <;> cases b[i] <;> simp

@[simp ↓] theorem otpCheck_keeps (a : State) (s : State) (h0 : Keeps a s) :
    Keeps a (otpCheck s) := by
  unfold otpCheck
  dsimp only
  repeat' (first | (simp (maxDischargeDepth := 40) [*]; done) | split | intro _ | apply keeps_foldl)

@[simp ↓] theorem otpProgram_keeps (a : State) (w : Nat) (intended normal margin : BitVec 32) (s : State) (h0 : Keeps a s) : Keeps a (otpProgram w intended normal margin s) := by
  unfold otpProgram
  extract_lets c k free two f g n nA nB m mA mB l d o
  refine Keeps.trans h0 (keeps_mk s s _ _ _ _ _ _ _ _ _ _ _ _ _ _ _ _ _ _ _ _ _ _ _ _ _ _ _ _ _ _ _ _ _ _ (keeps_refl s) ?_ ?_ ?_ ?_ ?_ ?_ ?_ ?_ ?_ ?_ ?_ ?_ ?_ ?_ ?_ ?_ ?_ ?_ ?_ ?_ ?_ ?_ ?_ ?_)
  all_goals first | exact upd_self _ _ | exact lenUpd_self _ _ | skip
  by_cases hb : d.isBlank = true
  · simp only [hb, if_true]
    exact otpUpd_self _
  · simp only [hb, if_false, Bool.false_eq_true]
    refine ⟨fun p ref => ?_, fun h => (otpInsert_wf d s.otp.words (by simpa using hb) h).1⟩
    show (cellOf s.otp.words p).read ref 0 &&& ~~~(cellOf (otpInsert d s.otp.words) p).read ref 0 = 0
    rw [cellOf_insert]
    have hr : d.row = otpPlace s w := cellOf_row s.otp.words _
    split
    · rename_i e
      have hc : cellOf s.otp.words p = c := by rw [e, hr]; rfl
      rw [hc]
      have hx : ∃ x y, d.read ref 0 = (if ref = 0 then c.normalA else if ref = 1 then c.marginA else c.lowA) ||| x |||
          ((if ref = 0 then c.normalB else if ref = 1 then c.marginB else c.lowB) ||| y) := by
        unfold OtpWord.read
        by_cases r0 : ref = 0
        · exact ⟨n.1, n.2, by simp (maxDischargeDepth := 40) [r0, d, nA, nB]⟩
        · by_cases r1 : ref = 1
          · exact ⟨mA, mB, by simp (maxDischargeDepth := 40) [r1, d]⟩
          · by_cases ht : two = true
            · exact ⟨nA ||| (l &&& f), nB ||| (l &&& ~~~f), by simp (maxDischargeDepth := 40) [r0, r1, d, ht, BitVec.or_assoc]⟩
            · exact ⟨nA ||| l, 0, by simp (maxDischargeDepth := 40) [r0, r1, d, ht, BitVec.or_assoc]⟩
      obtain ⟨x, y, hx⟩ := hx
      rw [hx]
      exact or_keeps _ _ _ _
    · simp

@[simp ↓] theorem otpInterrupt_keeps (a : State) (burned : BitVec 32) (s : State) (h0 : Keeps a s) :
    Keeps a (otpInterrupt burned s) := by
  unfold otpInterrupt
  (repeat' split) <;> simp (maxDischargeDepth := 40) [*]

@[simp ↓] theorem otpFlag_keeps (a : State) (fw : Bool) (w : ℕ) (isWeak : Bool) (s : State) (h0 : Keeps a s) :
    Keeps a (otpFlag fw w isWeak s) := by
  unfold otpFlag
  simp (maxDischargeDepth := 40) [*]

/-! ### Machine/MciOps.lean -/

@[simp ↓] theorem reject_keeps (a : State) (p : ℕ) (h : Header) (status : ℕ) (payload : List Byte) (s : State) (h0 : Keeps a s) :
    Keeps a (reject p h status payload s) := by
  unfold reject
  simp (maxDischargeDepth := 40) [*]

@[simp ↓] theorem logRequest_keeps (a : State) (p : ℕ) (code : ℕ) (h : Header) (s : State) (h0 : Keeps a s) :
    Keeps a (logRequest p code h s) := by
  unfold logRequest
  simp (maxDischargeDepth := 40) [*]

@[simp ↓] theorem logDoorbell_keeps (a : State) (p : ℕ) (code : ℕ) (s : State) (h0 : Keeps a s) :
    Keeps a (logDoorbell p code s) := by
  unfold logDoorbell
  simp (maxDischargeDepth := 40) [*]

@[simp ↓] theorem dispatchRequest_keeps (a : State) (p : ℕ) (path : Path) (h : Header) (payload : List Byte) (s : State) (h0 : Keeps a s) :
    Keeps a (dispatchRequest p path h payload s) := by
  unfold dispatchRequest
  simp (maxDischargeDepth := 40) [*]

@[simp ↓] theorem takeRequest_keeps (a : State) (p : ℕ) (path : Path) (slot : List Byte) (s : State) (h0 : Keeps a s) :
    Keeps a (takeRequest p path slot s) := by
  unfold takeRequest
  dsimp only
  (repeat' split) <;> simp (maxDischargeDepth := 40) [*]

@[simp ↓] theorem takeUrgent_keeps (a : State) (s : State) (h0 : Keeps a s) :
    Keeps a (takeUrgent s) := by
  unfold takeUrgent
  simp (maxDischargeDepth := 40) [*]

@[simp ↓] theorem doorbell_keeps (a : State) (path : Path) (p : ℕ) (value : BitVec 32) (s : State) (h0 : Keeps a s) :
    Keeps a (doorbell path p value s) := by
  unfold doorbell
  simp (maxDischargeDepth := 40) [*]

@[simp ↓] theorem replyRead_keeps (a : State) (p : ℕ) (value : BitVec 32) (s : State) (h0 : Keeps a s) :
    Keeps a (replyRead p value s) := by
  unfold replyRead
  simp (maxDischargeDepth := 40) [*]

@[simp ↓] theorem urgentSubmit_keeps (a : State) (value : BitVec 32) (s : State) (h0 : Keeps a s) :
    Keeps a (urgentSubmit value s) := by
  unfold urgentSubmit
  simp (maxDischargeDepth := 40) [*]

@[simp ↓] theorem unmask_keeps (a : State) (v : ℕ) (s : State) (h0 : Keeps a s) :
    Keeps a (unmask v s) := by
  unfold unmask
  simp (maxDischargeDepth := 40) [*]

@[simp ↓] theorem msixWrite_keeps (a : State) (word : ℕ) (value : BitVec 32) (s : State) (h0 : Keeps a s) :
    Keeps a (msixWrite word value s) := by
  unfold msixWrite
  simp (maxDischargeDepth := 40) [*]

@[simp ↓] theorem msixControl_keeps (a : State) (value : BitVec 16) (s : State) (h0 : Keeps a s) :
    Keeps a (msixControl value s) := by
  unfold msixControl
  simp (maxDischargeDepth := 40) [*]

@[simp ↓] theorem bar0Word_keeps (a : State) (path : Path) (offset : ℕ) (value : BitVec 32) (s : State) (h0 : Keeps a s) :
    Keeps a (bar0Word path offset value s) := by
  unfold bar0Word
  simp (maxDischargeDepth := 40) [*]

@[simp ↓] theorem bar0Store_keeps (a : State) (o : Nat) (bs : List Byte) (s : State) (h0 : Keeps a s) : Keeps a (bar0Store o bs s) := by
  induction bs generalizing o s with
  | nil => exact h0
  | cons b bs ih =>
    unfold bar0Store
    exact ih _ _ (by simp (maxDischargeDepth := 40) [h0])

@[simp ↓] theorem bar0Words_keeps (a : State) (path : Path) (o : Nat) (bs : List Byte) (s : State) (h0 : Keeps a s) : Keeps a (bar0Words path o bs s) := by
  induction bs generalizing o s with
  | nil => exact h0
  | cons b bs ih =>
    unfold bar0Words
    exact ih _ _ (by simp (maxDischargeDepth := 40) [h0])

@[simp ↓] theorem bar0Write_keeps (a : State) (path : Path) (o : Nat) (bytes : List Byte) (s : State) (h0 : Keeps a s) :
    Keeps a (bar0Write path o bytes s) := by
  unfold bar0Write
  (repeat' split) <;> simp (maxDischargeDepth := 40) [*]

@[simp ↓] theorem spiTransfer_keeps (a : State) (bytes : List Byte) (s : State) (h0 : Keeps a s) :
    Keeps a (spiTransfer bytes s) := by
  unfold spiTransfer
  (repeat' split) <;> simp (maxDischargeDepth := 40) [*]

/-! ### Machine/Mci.lean -/

@[simp ↓] theorem execRequestDoorbell_keeps (a : State) (path : Path) (p : ℕ) (value : BitVec 32) (s : State) (h0 : Keeps a s) :
    KeepsOut a (execRequestDoorbell path p value s) := by
  unfold execRequestDoorbell
  simp (maxDischargeDepth := 40) [*]

@[simp ↓] theorem execRequestConsume_keeps (a : State) (p : ℕ) (s : State) (h0 : Keeps a s) :
    KeepsOut a (execRequestConsume p s) := by
  unfold execRequestConsume
  simp (maxDischargeDepth := 40) [*]

@[simp ↓] theorem releaseHeld_keeps (a : State) (m : Msg) (s : State) (h0 : Keeps a s) :
    Keeps a (releaseHeld m s) := by
  unfold releaseHeld
  simp (maxDischargeDepth := 40) [*]

@[simp ↓] theorem postMessage_keeps (a : State) (p : ℕ) (m : Msg) (s : State) (h0 : Keeps a s) :
    Keeps a (postMessage p m s) := by
  unfold postMessage
  simp (maxDischargeDepth := 40) [*]

@[simp ↓] theorem execReplyPost_keeps (a : State) (p : Nat) (s : State) (h0 : Keeps a s) : KeepsOut a (execReplyPost p s) := by
  unfold execReplyPost
  dsimp only
  refine keepsOut_ite _ _ _ _ (keepsOut_next _ _ h0) ?_
  split
  · simp (maxDischargeDepth := 40) [h0]
  · refine keepsOut_ite _ _ _ _ (keepsOut_next _ _ h0) ?_
    split
    · rename_i m rest e
      have hq : LeUpd 256 s.mci.events rest := fun g => by rw [e] at g; simp at g; omega
      simp (maxDischargeDepth := 40) [h0, hq]
    · simp (maxDischargeDepth := 40) [h0]

@[simp ↓] theorem execReplyCiAdvance_keeps (a : State) (p : ℕ) (value : BitVec 32) (s : State) (h0 : Keeps a s) :
    KeepsOut a (execReplyCiAdvance p value s) := by
  unfold execReplyCiAdvance
  simp (maxDischargeDepth := 40) [*]

@[simp ↓] theorem execEventPost_keeps (a : State) (code : BitVec 16) (payload : List Byte) (s : State) (h0 : Keeps a s) :
    KeepsOut a (execEventPost code payload s) := by
  unfold execEventPost
  simp (maxDischargeDepth := 40) [*]

@[simp ↓] theorem execMciReplyLate_keeps (a : State) (p : ℕ) (seq : BitVec 16) (s : State) (h0 : Keeps a s) :
    KeepsOut a (execMciReplyLate p seq s) := by
  unfold execMciReplyLate
  dsimp only
  (repeat' split) <;> simp (maxDischargeDepth := 40) [*]

@[simp ↓] theorem execSessionIdleTimeout_keeps (a : State) (p : ℕ) (s : State) (h0 : Keeps a s) :
    KeepsOut a (execSessionIdleTimeout p s) := by
  unfold execSessionIdleTimeout
  simp (maxDischargeDepth := 40) [*]

@[simp ↓] theorem execUrgentGo_keeps (a : State) (value : BitVec 32) (s : State) (h0 : Keeps a s) :
    KeepsOut a (execUrgentGo value s) := by
  unfold execUrgentGo
  simp (maxDischargeDepth := 40) [*]

@[simp ↓] theorem execUrgentReplyPost_keeps (a : State) (s : State) (h0 : Keeps a s) :
    KeepsOut a (execUrgentReplyPost s) := by
  unfold execUrgentReplyPost
  (repeat' split) <;> simp (maxDischargeDepth := 40) [*]

@[simp ↓] theorem execMsixVectorUnmask_keeps (a : State) (v : ℕ) (s : State) (h0 : Keeps a s) :
    KeepsOut a (execMsixVectorUnmask v s) := by
  unfold execMsixVectorUnmask
  simp (maxDischargeDepth := 40) [*]

@[simp ↓] theorem execRegisterWrite_keeps (a : State) (path : Path) (win : RegWindow) (offset : Nat) (data : List Byte) (s : State) (h0 : Keeps a s) :
    KeepsOut a (execRegisterWrite path win offset data s) := by
  unfold execRegisterWrite
  (repeat' split) <;> simp (maxDischargeDepth := 40) [*]

@[simp ↓] theorem execHostLinkReset_keeps (a : State) (s : State) (h0 : Keeps a s) :
    KeepsOut a (execHostLinkReset s) := by
  unfold execHostLinkReset
  simp (maxDischargeDepth := 40) [*]

@[simp ↓] theorem hello_keeps (a : State) (rq : Req) (s : State) (h0 : Keeps a s) :
    Keeps a (hello rq s) := by
  unfold hello
  simp (maxDischargeDepth := 40) [*]

@[simp ↓] theorem execHello_keeps (a : State) (rq : Req) (s : State) (h0 : Keeps a s) :
    KeepsOut a (execHello rq s) := by
  unfold execHello
  simp (maxDischargeDepth := 40) [*]

@[simp ↓] theorem execCoreInfo_keeps (a : State) (rq : Req) (s : State) (h0 : Keeps a s) :
    KeepsOut a (execCoreInfo rq s) := by
  unfold execCoreInfo
  simp (maxDischargeDepth := 40) [*]

@[simp ↓] theorem execCorePing_keeps (a : State) (rq : Req) (s : State) (h0 : Keeps a s) :
    KeepsOut a (execCorePing rq s) := by
  unfold execCorePing
  simp (maxDischargeDepth := 40) [*]

@[simp ↓] theorem execCoreReset_keeps (a : State) (rq : Req) (s : State) (h0 : Keeps a s) :
    KeepsOut a (execCoreReset rq s) := by
  unfold execCoreReset
  simp (maxDischargeDepth := 40) [*]

@[simp ↓] theorem execCoreSessionOpen_keeps (a : State) (rq : Req) (s : State) (h0 : Keeps a s) :
    KeepsOut a (execCoreSessionOpen rq s) := by
  unfold execCoreSessionOpen
  simp (maxDischargeDepth := 40) [*]

@[simp ↓] theorem execCoreSessionClose_keeps (a : State) (rq : Req) (s : State) (h0 : Keeps a s) :
    KeepsOut a (execCoreSessionClose rq s) := by
  unfold execCoreSessionClose
  simp (maxDischargeDepth := 40) [*]

@[simp ↓] theorem execCoreVlogRead_keeps (a : State) (rq : Req) (s : State) (h0 : Keeps a s) :
    KeepsOut a (execCoreVlogRead rq s) := by
  unfold execCoreVlogRead
  simp (maxDischargeDepth := 40) [*]

@[simp ↓] theorem urgentReply_keeps (a : State) (rq : Req) (code : ℕ) (s : State) (h0 : Keeps a s) :
    Keeps a (urgentReply rq code s) := by
  unfold urgentReply
  simp (maxDischargeDepth := 40) [*]

@[simp ↓] theorem execUrgentStop_keeps (a : State) (rq : Req) (s : State) (h0 : Keeps a s) :
    KeepsOut a (execUrgentStop rq s) := by
  unfold execUrgentStop
  simp (maxDischargeDepth := 40) [*]

@[simp ↓] theorem execUrgentHalt_keeps (a : State) (rq : Req) (s : State) (h0 : Keeps a s) :
    KeepsOut a (execUrgentHalt rq s) := by
  unfold execUrgentHalt
  simp (maxDischargeDepth := 40) [*]

@[simp ↓] theorem urgentOpen_keeps (a : State) (ls : List ℕ) (s : State) (h0 : Keeps a s) :
    Keeps a (urgentOpen ls s) := by
  unfold urgentOpen
  simp (maxDischargeDepth := 40) [*]

@[simp ↓] theorem execUrgentRelease_keeps (a : State) (rq : Req) (s : State) (h0 : Keeps a s) :
    KeepsOut a (execUrgentRelease rq s) := by
  unfold execUrgentRelease
  simp (maxDischargeDepth := 40) [*]

/-! ### Machine/Motion.lean -/

@[simp ↓] theorem execMoveComplete_keeps (a : State) (axis : ℕ) (s : State) (h0 : Keeps a s) :
    KeepsOut a (execMoveComplete axis s) := by
  unfold execMoveComplete
  dsimp only
  (repeat' split) <;> simp (maxDischargeDepth := 40) [*]

@[simp ↓] theorem execStopRampEnd_keeps (a : State) (axis pulses : ℕ) (s : State) (h0 : Keeps a s) :
    KeepsOut a (execStopRampEnd axis pulses s) := by
  unfold execStopRampEnd
  simp (maxDischargeDepth := 40) [*]

@[simp ↓] theorem execLimitInputEdge_keeps (a : State) (axis : ℕ) (positive : Bool) (level : Bool) (s : State) (h0 : Keeps a s) :
    KeepsOut a (execLimitInputEdge axis positive level s) := by
  unfold execLimitInputEdge
  simp (maxDischargeDepth := 40) [*]

@[simp ↓] theorem execLimitDebounceExpiry_keeps (a : State) (axis : ℕ) (positive : Bool) (s : State) (h0 : Keeps a s) :
    KeepsOut a (execLimitDebounceExpiry axis positive s) := by
  unfold execLimitDebounceExpiry
  dsimp only
  (repeat' split) <;> simp (maxDischargeDepth := 40) [*]

@[simp ↓] theorem execMotionAxisConfig_keeps (a : State) (rq : Req) (s : State) (h0 : Keeps a s) :
    KeepsOut a (execMotionAxisConfig rq s) := by
  unfold execMotionAxisConfig
  simp (maxDischargeDepth := 40) [*]

@[simp ↓] theorem execMotionMove_keeps (a : State) (rq : Req) (s : State) (h0 : Keeps a s) :
    KeepsOut a (execMotionMove rq s) := by
  unfold execMotionMove
  simp (maxDischargeDepth := 40) [*]

@[simp ↓] theorem execMotionStop_keeps (a : State) (rq : Req) (s : State) (h0 : Keeps a s) :
    KeepsOut a (execMotionStop rq s) := by
  unfold execMotionStop
  simp (maxDischargeDepth := 40) [*]

@[simp ↓] theorem execMotionPositionSet_keeps (a : State) (rq : Req) (s : State) (h0 : Keeps a s) :
    KeepsOut a (execMotionPositionSet rq s) := by
  unfold execMotionPositionSet
  simp (maxDischargeDepth := 40) [*]

@[simp ↓] theorem execMotionStatus_keeps (a : State) (rq : Req) (s : State) (h0 : Keeps a s) :
    KeepsOut a (execMotionStatus rq s) := by
  unfold execMotionStatus
  simp (maxDischargeDepth := 40) [*]

@[simp ↓] theorem execMotionAxisRaw_keeps (a : State) (rq : Req) (s : State) (h0 : Keeps a s) :
    KeepsOut a (execMotionAxisRaw rq s) := by
  unfold execMotionAxisRaw
  simp (maxDischargeDepth := 40) [*]

/-! ### Machine/Otp.lean -/

@[simp ↓] theorem otpUpd_shadowWrite (x y : Otp) (o v : Nat) (h : OtpUpd x y) : OtpUpd x (shadowWrite y o v) := by
  unfold shadowWrite
  repeat' split
  all_goals exact h

@[simp ↓] theorem execOtpStartupCheckDone_keeps (a : State) (s : State) (h0 : Keeps a s) :
    KeepsOut a (execOtpStartupCheckDone s) := by
  unfold execOtpStartupCheckDone
  simp (maxDischargeDepth := 40) [*]

@[simp ↓] theorem burnEnd_keeps (a : State) (b : Burn) (failed : Bool) (s : State) (h0 : Keeps a s) :
    Keeps a (burnEnd b failed s) := by
  unfold burnEnd
  simp (maxDischargeDepth := 40) [*]

@[simp ↓] theorem execOtpBurnWordDone_keeps (a : State) (r : BurnRead) (s : State) (h0 : Keeps a s) :
    KeepsOut a (execOtpBurnWordDone r s) := by
  unfold execOtpBurnWordDone
  (repeat' split) <;> simp (maxDischargeDepth := 40) [*]

@[simp ↓] theorem execOtpStatus_keeps (a : State) (rq : Req) (s : State) (h0 : Keeps a s) :
    KeepsOut a (execOtpStatus rq s) := by
  unfold execOtpStatus
  simp (maxDischargeDepth := 40) [*]

@[simp ↓] theorem execOtpRead_keeps (a : State) (rq : Req) (s : State) (h0 : Keeps a s) :
    KeepsOut a (execOtpRead rq s) := by
  unfold execOtpRead
  simp (maxDischargeDepth := 40) [*]

@[simp ↓] theorem execOtpBurn_keeps (a : State) (rq : Req) (s : State) (h0 : Keeps a s) :
    KeepsOut a (execOtpBurn rq s) := by
  unfold execOtpBurn
  simp (maxDischargeDepth := 40) [*]

@[simp ↓] theorem execOtpFinalise_keeps (a : State) (rq : Req) (s : State) (h0 : Keeps a s) :
    KeepsOut a (execOtpFinalise rq s) := by
  unfold execOtpFinalise
  simp (maxDischargeDepth := 40) [*]

@[simp ↓] theorem execOtpStrengthen_keeps (a : State) (rq : Req) (s : State) (h0 : Keeps a s) :
    KeepsOut a (execOtpStrengthen rq s) := by
  unfold execOtpStrengthen
  simp (maxDischargeDepth := 40) [*]

@[simp ↓] theorem execOtpShadowRead_keeps (a : State) (rq : Req) (s : State) (h0 : Keeps a s) :
    KeepsOut a (execOtpShadowRead rq s) := by
  unfold execOtpShadowRead
  simp (maxDischargeDepth := 40) [*]

@[simp ↓] theorem execOtpShadowWrite_keeps (a : State) (rq : Req) (s : State) (h0 : Keeps a s) :
    KeepsOut a (execOtpShadowWrite rq s) := by
  unfold execOtpShadowWrite
  simp (maxDischargeDepth := 40) [*]

@[simp ↓] theorem execOtpMarginRead_keeps (a : State) (rq : Req) (s : State) (h0 : Keeps a s) :
    KeepsOut a (execOtpMarginRead rq s) := by
  unfold execOtpMarginRead
  simp (maxDischargeDepth := 40) [*]

end Sys2Proof.Machine
end

