-- ==== Sys2Proof/Laws/KeepsPower.lean ====
section
/-!
SUPPORT. What is kept (Laws/Keeps.lean) by power, Press, run-ahead, the start and the hand-off.
-/
namespace Sys2Proof.Machine

open Sys2Proof Sys2Proof.Safety

/-! ### Machine/Power.lean -/

@[simp ↓] theorem execRailUp_keeps (a : State) (slot : ℕ) (sense : RailSense) (s : State) (h0 : Keeps a s) :
    KeepsOut a (execRailUp slot sense s) := by
  unfold execRailUp
  simp (maxDischargeDepth := 40) [*]

@[simp ↓] theorem execRailSettleEnd_keeps (a : State) (slot : ℕ) (s : State) (h0 : Keeps a s) :
    KeepsOut a (execRailSettleEnd slot s) := by
  unfold execRailSettleEnd
  simp (maxDischargeDepth := 40) [*]

@[simp ↓] theorem execRailPgTimeout_keeps (a : State) (slot : ℕ) (s : State) (h0 : Keeps a s) :
    KeepsOut a (execRailPgTimeout slot s) := by
  unfold execRailPgTimeout
  simp (maxDischargeDepth := 40) [*]

@[simp ↓] theorem execRailFault_keeps (a : State) (slot : ℕ) (sense : RailSense) (s : State) (h0 : Keeps a s) :
    KeepsOut a (execRailFault slot sense s) := by
  unfold execRailFault
  simp (maxDischargeDepth := 40) [*]

@[simp ↓] theorem execRailDischargeEnd_keeps (a : State) (slot : ℕ) (vmon : ℕ) (s : State) (h0 : Keeps a s) :
    KeepsOut a (execRailDischargeEnd slot vmon s) := by
  unfold execRailDischargeEnd
  simp (maxDischargeDepth := 40) [*]

@[simp ↓] theorem execMinOffEnd_keeps (a : State) (s : State) (h0 : Keeps a s) :
    KeepsOut a (execMinOffEnd s) := by
  unfold execMinOffEnd
  simp (maxDischargeDepth := 40) [*]

@[simp ↓] theorem execOffGraceEnd_keeps (a : State) (s : State) (h0 : Keeps a s) :
    KeepsOut a (execOffGraceEnd s) := by
  unfold execOffGraceEnd
  (repeat' split) <;> simp (maxDischargeDepth := 40) [*]

@[simp ↓] theorem execGraceJobsTerminal_keeps (a : State) (s : State) (h0 : Keeps a s) :
    KeepsOut a (execGraceJobsTerminal s) := by
  unfold execGraceJobsTerminal
  simp (maxDischargeDepth := 40) [*]

@[simp ↓] theorem execNsysfaultIn_keeps (a : State) (low : Bool) (s : State) (h0 : Keeps a s) :
    KeepsOut a (execNsysfaultIn low s) := by
  unfold execNsysfaultIn
  simp (maxDischargeDepth := 40) [*]

@[simp ↓] theorem execSupplyLost_keeps (a : State) (s : State) (h0 : Keeps a s) :
    KeepsOut a (execSupplyLost s) := by
  unfold execSupplyLost
  simp (maxDischargeDepth := 40) [*]

@[simp ↓] theorem execSupplyReturn_keeps (a : State) (s : State) (h0 : Keeps a s) :
    KeepsOut a (execSupplyReturn s) := by
  unfold execSupplyReturn
  simp (maxDischargeDepth := 40) [*]

@[simp ↓] theorem execPwrbtnPress_keeps (a : State) (s : State) (h0 : Keeps a s) : KeepsOut a (execPwrbtnPress s) := by
  unfold execPwrbtnPress
  refine keepsOut_ite _ _ _ _ (keepsOut_next _ _ h0) (keepsOut_ite _ _ _ _ (by simp (maxDischargeDepth := 40) [h0]) ?_)
  split <;> apply keepsOut_next
  · exact faultUngate_keeps _ _ (clearLatch_keeps _ _ h0)
  · exact offRequest_keeps _ _ h0
  · exact offRequest_keeps _ _ h0
  · exact onRequest_keeps _ _ h0

@[simp ↓] theorem execPwrbtnForcedOff_keeps (a : State) (s : State) (h0 : Keeps a s) :
    KeepsOut a (execPwrbtnForcedOff s) := by
  unfold execPwrbtnForcedOff
  simp (maxDischargeDepth := 40) [*]

@[simp ↓] theorem execPwrbtnRelease_keeps (a : State) (s : State) (h0 : Keeps a s) :
    KeepsOut a (execPwrbtnRelease s) := by
  unfold execPwrbtnRelease
  simp (maxDischargeDepth := 40) [*]

@[simp ↓] theorem execVbatApply_keeps (a : State) (s : State) (h0 : Keeps a s) :
    KeepsOut a (execVbatApply s) := by
  unfold execVbatApply
  simp (maxDischargeDepth := 40) [*]

@[simp ↓] theorem execVbatLow_keeps (a : State) (mv : ℕ) (s : State) (h0 : Keeps a s) :
    KeepsOut a (execVbatLow mv s) := by
  unfold execVbatLow
  simp (maxDischargeDepth := 40) [*]

@[simp ↓] theorem execWakeComparatorFire_keeps (a : State) (n : ℕ) (rising : Bool) (s : State) (h0 : Keeps a s) :
    KeepsOut a (execWakeComparatorFire n rising s) := by
  unfold execWakeComparatorFire
  simp (maxDischargeDepth := 40) [*]

@[simp ↓] theorem execRtcAlarm_keeps (a : State) (n : ℕ) (s : State) (h0 : Keeps a s) :
    KeepsOut a (execRtcAlarm n s) := by
  unfold execRtcAlarm
  simp (maxDischargeDepth := 40) [*]

@[simp ↓] theorem execPowerRailConfig_keeps (a : State) (rq : Req) (s : State) (h0 : Keeps a s) :
    KeepsOut a (execPowerRailConfig rq s) := by
  unfold execPowerRailConfig
  simp (maxDischargeDepth := 40) [*]

@[simp ↓] theorem execPowerUp_keeps (a : State) (rq : Req) (s : State) (h0 : Keeps a s) :
    KeepsOut a (execPowerUp rq s) := by
  unfold execPowerUp
  simp (maxDischargeDepth := 40) [*]

@[simp ↓] theorem execPowerDown_keeps (a : State) (rq : Req) (s : State) (h0 : Keeps a s) :
    KeepsOut a (execPowerDown rq s) := by
  unfold execPowerDown
  simp (maxDischargeDepth := 40) [*]

@[simp ↓] theorem execPowerClear_keeps (a : State) (rq : Req) (s : State) (h0 : Keeps a s) :
    KeepsOut a (execPowerClear rq s) := by
  unfold execPowerClear
  simp (maxDischargeDepth := 40) [*]

@[simp ↓] theorem execPowerStatus_keeps (a : State) (rq : Req) (s : State) (h0 : Keeps a s) :
    KeepsOut a (execPowerStatus rq s) := by
  unfold execPowerStatus
  simp (maxDischargeDepth := 40) [*]

@[simp ↓] theorem atlWrite_keeps (a : Atoll) (a1 : Atoll) (offset : ℕ) (v : ℕ) (h0 : Upd atollOk a a1) :
    Upd atollOk a (atlWrite a1 offset v) := by
  unfold atlWrite
  simp (maxDischargeDepth := 40) [*]

@[simp ↓] theorem captureRtc_keeps (a : Atoll) (a1 : Atoll) (h0 : Upd atollOk a a1) :
    Upd atollOk a (captureRtc a1) := by
  unfold captureRtc
  simp (maxDischargeDepth := 40) [*]

@[simp ↓] theorem execAtollRegRead_keeps (a : State) (rq : Req) (s : State) (h0 : Keeps a s) :
    KeepsOut a (execAtollRegRead rq s) := by
  unfold execAtollRegRead
  simp (maxDischargeDepth := 40) [*]

@[simp ↓] theorem execAtollRegWrite_keeps (a : State) (rq : Req) (s : State) (h0 : Keeps a s) :
    KeepsOut a (execAtollRegWrite rq s) := by
  unfold execAtollRegWrite
  simp (maxDischargeDepth := 40) [*]

@[simp ↓] theorem execPowerRailForce_keeps (a : State) (rq : Req) (s : State) (h0 : Keeps a s) :
    KeepsOut a (execPowerRailForce rq s) := by
  unfold execPowerRailForce
  simp (maxDischargeDepth := 40) [*]

/-! ### Machine/PressImaging.lean -/

@[simp ↓] theorem dropSweeps_keeps (a : State) (i : ℕ) (s : State) (h0 : Keeps a s) :
    Keeps a (dropSweeps i s) := by
  unfold dropSweeps
  simp (maxDischargeDepth := 40) [*]

@[simp ↓] theorem bindBanding_keeps (a : State) (i : ℕ) (rep : Option ℕ) (s : State) (h0 : Keeps a s) :
    Keeps a (bindBanding i rep s) := by
  unfold bindBanding
  dsimp only
  (repeat' split) <;> simp (maxDischargeDepth := 40) [*]

@[simp ↓] theorem execPressStationConfig_keeps (a : State) (rq : Req) (s : State) (h0 : Keeps a s) :
    KeepsOut a (execPressStationConfig rq s) := by
  unfold execPressStationConfig
  simp (maxDischargeDepth := 40) [*]

@[simp ↓] theorem execPressBeamTable_keeps (a : State) (rq : Req) (s : State) (h0 : Keeps a s) :
    KeepsOut a (execPressBeamTable rq s) := by
  unfold execPressBeamTable
  simp (maxDischargeDepth := 40) [*]

@[simp ↓] theorem execPressPixelTable_keeps (a : State) (rq : Req) (s : State) (h0 : Keeps a s) :
    KeepsOut a (execPressPixelTable rq s) := by
  unfold execPressPixelTable
  simp (maxDischargeDepth := 40) [*]

@[simp ↓] theorem execPressDeltaTable_keeps (a : State) (rq : Req) (s : State) (h0 : Keeps a s) :
    KeepsOut a (execPressDeltaTable rq s) := by
  unfold execPressDeltaTable
  simp (maxDischargeDepth := 40) [*]

@[simp ↓] theorem execPressDeltaTableLoaded_keeps (a : State) (station : ℕ) (host : List Byte) (s : State) (h0 : Keeps a s) :
    KeepsOut a (execPressDeltaTableLoaded station host s) := by
  unfold execPressDeltaTableLoaded
  dsimp only
  (repeat' split) <;> simp (maxDischargeDepth := 40) [*]

@[simp ↓] theorem execPressDeltaStatus_keeps (a : State) (rq : Req) (s : State) (h0 : Keeps a s) :
    KeepsOut a (execPressDeltaStatus rq s) := by
  unfold execPressDeltaStatus
  simp (maxDischargeDepth := 40) [*]

@[simp ↓] theorem execPressDeltaClear_keeps (a : State) (rq : Req) (s : State) (h0 : Keeps a s) :
    KeepsOut a (execPressDeltaClear rq s) := by
  unfold execPressDeltaClear
  simp (maxDischargeDepth := 40) [*]

@[simp ↓] theorem execPressStationStatus_keeps (a : State) (rq : Req) (s : State) (h0 : Keeps a s) :
    KeepsOut a (execPressStationStatus rq s) := by
  unfold execPressStationStatus
  simp (maxDischargeDepth := 40) [*]

@[simp ↓] theorem execPressBeamForceDead_keeps (a : State) (rq : Req) (s : State) (h0 : Keeps a s) :
    KeepsOut a (execPressBeamForceDead rq s) := by
  unfold execPressBeamForceDead
  simp (maxDischargeDepth := 40) [*]

/-! ### Machine/PressProcess.lean -/

@[simp ↓] theorem execArmedJobNoTrack_keeps (a : State) (station : ℕ) (s : State) (h0 : Keeps a s) :
    KeepsOut a (execArmedJobNoTrack station s) := by
  unfold execArmedJobNoTrack
  (repeat' split) <;> simp (maxDischargeDepth := 40) [*]

@[simp ↓] theorem execPressMediaConfig_keeps (a : State) (rq : Req) (s : State) (h0 : Keeps a s) :
    KeepsOut a (execPressMediaConfig rq s) := by
  unfold execPressMediaConfig
  simp (maxDischargeDepth := 40) [*]

@[simp ↓] theorem execPressPageSubmit_keeps (a : State) (rq : Req) (s : State) (h0 : Keeps a s) :
    KeepsOut a (execPressPageSubmit rq s) := by
  unfold execPressPageSubmit
  simp (maxDischargeDepth := 40) [*]

@[simp ↓] theorem execPressPageAbort_keeps (a : State) (rq : Req) (s : State) (h0 : Keeps a s) :
    KeepsOut a (execPressPageAbort rq s) := by
  unfold execPressPageAbort
  simp (maxDischargeDepth := 40) [*]

@[simp ↓] theorem execPressInterlockAssign_keeps (a : State) (rq : Req) (s : State) (h0 : Keeps a s) :
    KeepsOut a (execPressInterlockAssign rq s) := by
  unfold execPressInterlockAssign
  simp (maxDischargeDepth := 40) [*]

@[simp ↓] theorem execGpiInputEdge_keeps (a : State) (input : ℕ) (level : Bool) (s : State) (h0 : Keeps a s) :
    KeepsOut a (execGpiInputEdge input level s) := by
  unfold execGpiInputEdge
  simp (maxDischargeDepth := 40) [*]

@[simp ↓] theorem execInterlockDebounceExpiry_keeps (a : State) (input : ℕ) (s : State) (h0 : Keeps a s) :
    KeepsOut a (execInterlockDebounceExpiry input s) := by
  unfold execInterlockDebounceExpiry
  simp (maxDischargeDepth := 40) [*]

@[simp ↓] theorem execPressBiasConfig_keeps (a : State) (rq : Req) (s : State) (h0 : Keeps a s) :
    KeepsOut a (execPressBiasConfig rq s) := by
  unfold execPressBiasConfig
  simp (maxDischargeDepth := 40) [*]

@[simp ↓] theorem execPressBiasRaw_keeps (a : State) (rq : Req) (s : State) (h0 : Keeps a s) :
    KeepsOut a (execPressBiasRaw rq s) := by
  unfold execPressBiasRaw
  simp (maxDischargeDepth := 40) [*]

@[simp ↓] theorem execBiasRangeTimeout_keeps (a : State) (channel : ℕ) (s : State) (h0 : Keeps a s) :
    KeepsOut a (execBiasRangeTimeout channel s) := by
  unfold execBiasRangeTimeout
  simp (maxDischargeDepth := 40) [*]

@[simp ↓] theorem execPressFuserConfig_keeps (a : State) (rq : Req) (s : State) (h0 : Keeps a s) :
    KeepsOut a (execPressFuserConfig rq s) := by
  unfold execPressFuserConfig
  simp (maxDischargeDepth := 40) [*]

@[simp ↓] theorem execHeaterDecision_keeps (a : State) (heater : ℕ) (crossing : ℕ) (s : State) (h0 : Keeps a s) :
    KeepsOut a (execHeaterDecision heater crossing s) := by
  unfold execHeaterDecision
  simp (maxDischargeDepth := 40) [*]

@[simp ↓] theorem execHeaterGatePulse_keeps (a : State) (heater : ℕ) (s : State) (h0 : Keeps a s) :
    KeepsOut a (execHeaterGatePulse heater s) := by
  unfold execHeaterGatePulse
  simp (maxDischargeDepth := 40) [*]

@[simp ↓] theorem tripHeater_keeps (a : State) (h : ℕ) (source : ℕ) (s : State) (h0 : Keeps a s) :
    Keeps a (tripHeater h source s) := by
  unfold tripHeater
  simp (maxDischargeDepth := 40) [*]

@[simp ↓] theorem execFuserTempRead_keeps (a : State) (heater : ℕ) (counts : ℕ) (s : State) (h0 : Keeps a s) :
    KeepsOut a (execFuserTempRead heater counts s) := by
  unfold execFuserTempRead
  simp (maxDischargeDepth := 40) [*]

/-! ### Machine/RunAhead.lean -/

@[simp ↓] theorem refuseEnergy_keeps (a : State) (h : Nat) (waits : Bool) (s : State) (h0 : Keeps a s) :
    Keeps a (refuseEnergy h waits s) := by
  unfold refuseEnergy
  (repeat' split) <;> simp (maxDischargeDepth := 40) [*]

@[simp ↓] theorem generatorRead_keeps (a : State) (r : Rec) (s : State) (h0 : Keeps a s) :
    Keeps a (generatorRead r s) := by
  unfold generatorRead
  split
  · exact h0
  · split
    · exact h0
    · exact keeps_foldl _ _ _ _ (classGrants_keeps _ _ _ _ h0) fun s k => by
        dsimp only
        (repeat' split) <;> simp (maxDischargeDepth := 40)

@[simp ↓] theorem admitVector_keeps (a : State) (h : ℕ) (r : Rec) (s : State) (h0 : Keeps a s) :
    Keeps a (admitVector h r s) := by
  unfold admitVector
  simp (maxDischargeDepth := 40) [*]

@[simp ↓] theorem reachFence_keeps (a : State) (h : ℕ) (f : ℕ) (s : State) (h0 : Keeps a s) :
    Keeps a (reachFence h f s) := by
  unfold reachFence
  dsimp only
  (repeat' split) <;> simp (maxDischargeDepth := 40) [*]

@[simp ↓] theorem execForgeVectorAdmit_keeps (a : State) (head : ℕ) (s : State) (h0 : Keeps a s) :
    KeepsOut a (execForgeVectorAdmit head s) := by
  unfold execForgeVectorAdmit
  dsimp only
  (repeat' split) <;> simp (maxDischargeDepth := 40) [*]

@[simp ↓] theorem readyVectors_keeps (a : State) (h : ℕ) (s : State) (h0 : Keeps a s) :
    Keeps a (readyVectors h s) := by
  unfold readyVectors
  simp (maxDischargeDepth := 40) [*]

@[simp ↓] theorem readyOwner_keeps (a : State) (o : TileOwner) (s : State) (h0 : Keeps a s) :
    Keeps a (readyOwner o s) := by
  unfold readyOwner
  (repeat' split) <;> simp (maxDischargeDepth := 40) [*]

@[simp ↓] theorem countAgain_keeps (a : State) (o : TileOwner) (s : State) (h0 : Keeps a s) :
    Keeps a (countAgain o s) := by
  unfold countAgain
  (repeat' split) <;> simp (maxDischargeDepth := 40) [*]

@[simp ↓] theorem execTileAdmissionCheckDone_keeps (a : State) (handle : ℕ) (s : State) (h0 : Keeps a s) :
    KeepsOut a (execTileAdmissionCheckDone handle s) := by
  unfold execTileAdmissionCheckDone
  simp (maxDischargeDepth := 40) [*]

@[simp ↓] theorem execUnitReady_keeps (a : State) (u : UnitId) (s : State) (h0 : Keeps a s) :
    KeepsOut a (execUnitReady u s) := by
  unfold execUnitReady
  (repeat' split) <;> simp (maxDischargeDepth := 40) [*]

@[simp ↓] theorem rollbackLate_keeps (a : State) (r : Rollback) (s : State) (h0 : Keeps a s) :
    Keeps a (rollbackLate r s) := by
  unfold rollbackLate
  (repeat' split) <;> simp (maxDischargeDepth := 40) [*]

@[simp ↓] theorem execRollbackComplete_keeps (a : State) (durationNs : ℕ) (s : State) (h0 : Keeps a s) :
    KeepsOut a (execRollbackComplete durationNs s) := by
  unfold execRollbackComplete
  (repeat' split) <;> simp (maxDischargeDepth := 40) [*]

@[simp ↓] theorem execRollbackOvertime_keeps (a : State) (s : State) (h0 : Keeps a s) :
    KeepsOut a (execRollbackOvertime s) := by
  unfold execRollbackOvertime
  (repeat' split) <;> simp (maxDischargeDepth := 40) [*]

@[simp ↓] theorem execRunaheadConfig_keeps (a : State) (rq : Req) (s : State) (h0 : Keeps a s) :
    KeepsOut a (execRunaheadConfig rq s) := by
  unfold execRunaheadConfig
  simp (maxDischargeDepth := 40) [*]

@[simp ↓] theorem execRunaheadStatus_keeps (a : State) (rq : Req) (s : State) (h0 : Keeps a s) :
    KeepsOut a (execRunaheadStatus rq s) := by
  unfold execRunaheadStatus
  simp (maxDischargeDepth := 40) [*]

@[simp ↓] theorem execRunaheadRollbackForce_keeps (a : State) (rq : Req) (s : State) (h0 : Keeps a s) :
    KeepsOut a (execRunaheadRollbackForce rq s) := by
  unfold execRunaheadRollbackForce
  simp (maxDischargeDepth := 40) [*]

/-! ### Machine/StartupOps.lean -/

@[simp ↓] theorem Pwr_afterReset_keeps (a : Pwr) (p : Pwr) (now : BitVec 64) (h0 : Upd pwrOk a p) :
    Upd pwrOk a (Pwr.afterReset p now) := by
  unfold Pwr.afterReset
  simp (maxDischargeDepth := 40) [*]

@[simp ↓] theorem Pwr_afterPowerOn_keeps (a : Pwr) (p : Pwr) (h0 : Upd pwrOk a p) :
    Upd pwrOk a (Pwr.afterPowerOn p) := by
  unfold Pwr.afterPowerOn
  simp (maxDischargeDepth := 40) [*]

@[simp ↓] theorem updateInterrupt_keeps (a : State) (s : State) (h0 : Keeps a s) :
    Keeps a (updateInterrupt s) := by
  unfold updateInterrupt
  (repeat' split) <;> simp (maxDischargeDepth := 40) [*]

@[simp ↓] theorem resetState_keeps (a : State) (pwr : Pwr) (cause : BitVec 4) (burned : BitVec 32) (s : State) (h0 : Keeps a s) (hp : Upd pwrOk s.pwr pwr) :
    Keeps a (resetState pwr cause burned s) := by
  have e1 : (updateInterrupt (otpInterrupt burned s)).pwr = s.pwr := by
    have e : (otpInterrupt burned s).pwr = s.pwr := by unfold otpInterrupt; (repeat' split) <;> rfl
    rw [← e]; unfold updateInterrupt; (repeat' split) <;> rfl
  have h1 : Keeps a (updateInterrupt (otpInterrupt burned s)) := by simp (maxDischargeDepth := 40) [h0]
  rw [← e1] at hp
  unfold resetState
  dsimp only
  generalize updateInterrupt (otpInterrupt burned s) = t at h1 hp ⊢
  obtain ⟨hq, hpt, ho, hi⟩ := h1
  refine ⟨hq, hpt, ho, fun ha => ?_⟩
  have hi := hi ha
  unfold Safety.Inv at hi ⊢
  exact ⟨by rfl, by rfl, by rfl, by simpa using hi.2.2.2.1, by rfl, by rfl, by rfl, by simpa using hi.2.2.2.2.2.2.2.1, by rfl,
    ⟨rfl, rfl, Nat.zero_le _, Nat.zero_le _, rfl⟩, rfl, ⟨rfl, rfl, rfl, rfl⟩, ⟨rfl, rfl⟩, ⟨Nat.zero_le _, Nat.zero_le _, rfl⟩,
    ⟨rfl, Nat.zero_le _, Nat.zero_le _, Nat.zero_le _, rfl⟩, ⟨rfl, rfl, rfl, Nat.zero_le _⟩, ⟨rfl, rfl⟩, rfl,
    ⟨rfl, rfl, rfl⟩, hp hi.2.2.2.2.2.2.2.2.2.2.2.2.2.2.2.2.2.2.2.1, hi.2.2.2.2.2.2.2.2.2.2.2.2.2.2.2.2.2.2.2.2.1,
    Nat.zero_le _, hi.2.2.2.2.2.2.2.2.2.2.2.2.2.2.2.2.2.2.2.2.2.2.1, hi.2.2.2.2.2.2.2.2.2.2.2.2.2.2.2.2.2.2.2.2.2.2.2⟩

@[simp ↓] theorem deviceReset_keeps (a : State) (cause : BitVec 4) (burned : BitVec 32) (s : State) (h0 : Keeps a s) :
    Keeps a (deviceReset cause burned s) := by
  unfold deviceReset
  simp (maxDischargeDepth := 40) [*]

@[simp ↓] theorem beginStart_keeps (a : State) (straps : BitVec 4) (s : State) (h0 : Keeps a s) :
    Keeps a (beginStart straps s) := by
  unfold beginStart
  simp (maxDischargeDepth := 40) [*]

@[simp ↓] theorem readBootBlock_keeps (a : State) (s : State) (h0 : Keeps a s) :
    Keeps a (readBootBlock s) := by
  unfold readBootBlock
  simp (maxDischargeDepth := 40) [*]

@[simp ↓] theorem openPush_keeps (a : State) (s : State) (h0 : Keeps a s) :
    Keeps a (openPush s) := by
  unfold openPush
  simp (maxDischargeDepth := 40) [*]

@[simp ↓] theorem startFails_keeps (a : State) (fail : BitVec 4) (s : State) (h0 : Keeps a s) :
    Keeps a (startFails fail s) := by
  unfold startFails
  simp (maxDischargeDepth := 40) [*]

@[simp ↓] theorem rejectSource_keeps (a : State) (b : BootSource) (s : State) (h0 : Keeps a s) :
    Keeps a (rejectSource b s) := by
  unfold rejectSource
  (repeat' split) <;> simp (maxDischargeDepth := 40) [*]

@[simp ↓] theorem readPushed_keeps (a : State) (b : BootSource) (s : State) (h0 : Keeps a s) :
    Keeps a (readPushed b s) := by
  unfold readPushed
  (repeat' split) <;> simp (maxDischargeDepth := 40) [*]

@[simp ↓] theorem checkSource_keeps (a : State) (b : BootSource) (s : State) (h0 : Keeps a s) :
    Keeps a (checkSource b s) := by
  unfold checkSource
  simp (maxDischargeDepth := 40) [*]

@[simp ↓] theorem bootTry_keeps (a : State) (b : BootSource) (k : State → State) (s : State) (k0 : Keeps a (k s)) (h0 : Keeps a s) :
    Keeps a (bootTry b k s) := by
  unfold bootTry
  (repeat' split) <;> simp (maxDischargeDepth := 40) [*]

@[simp ↓] theorem startOrHold_keeps (a : State) (straps : BitVec 4) (s : State) (h0 : Keeps a s) :
    Keeps a (startOrHold straps s) := by
  unfold startOrHold
  (repeat' split) <;> simp (maxDischargeDepth := 40) [*]

/-! ### Machine/Startup.lean -/

@[simp ↓] theorem firmwareRead_keeps (a : State) (a1 : Nat) (n : Nat) (s : State) (h0 : Keeps a s) :
    Keeps a (firmwareRead a1 n s) := by
  unfold firmwareRead
  (repeat' split) <;> simp (maxDischargeDepth := 40) [*]

@[simp ↓] theorem execPowerOnReset_keeps (a : State) (straps : BitVec 4) (s : State) (h0 : Keeps a s) :
    KeepsOut a (execPowerOnReset straps s) := by
  unfold execPowerOnReset
  simp (maxDischargeDepth := 40) [*]

@[simp ↓] theorem execDeviceReset_keeps (a : State) (straps : BitVec 4) (burned : BitVec 32) (s : State) (h0 : Keeps a s) :
    KeepsOut a (execDeviceReset straps burned s) := by
  unfold execDeviceReset
  (repeat' split) <;> simp (maxDischargeDepth := 40) [*]

@[simp ↓] theorem masterReset_keeps (a : State) (s : State) (h0 : Keeps a s) :
    Keeps a (masterReset s) := by
  unfold masterReset
  simp (maxDischargeDepth := 40) [*]

@[simp ↓] theorem execNmrAssert_keeps (a : State) (widthNs : ℕ) (s : State) (h0 : Keeps a s) :
    KeepsOut a (execNmrAssert widthNs s) := by
  unfold execNmrAssert
  simp (maxDischargeDepth := 40) [*]

@[simp ↓] theorem execNmrRelease_keeps (a : State) (straps : BitVec 4) (s : State) (h0 : Keeps a s) :
    KeepsOut a (execNmrRelease straps s) := by
  unfold execNmrRelease
  simp (maxDischargeDepth := 40) [*]

@[simp ↓] theorem execMainSupplyFail_keeps (a : State) (burned : BitVec 32) (s : State) (h0 : Keeps a s) :
    KeepsOut a (execMainSupplyFail burned s) := by
  unfold execMainSupplyFail
  simp (maxDischargeDepth := 40) [*]

@[simp ↓] theorem execSystemPllLock_keeps (a : State) (s : State) (h0 : Keeps a s) :
    KeepsOut a (execSystemPllLock s) := by
  unfold execSystemPllLock
  simp (maxDischargeDepth := 40) [*]

@[simp ↓] theorem trainingFails_keeps (a : State) (channels : BitVec 4) (step : BitVec 4) (s : State) (h0 : Keeps a s) :
    Keeps a (trainingFails channels step s) := by
  unfold trainingFails
  simp (maxDischargeDepth := 40) [*]

@[simp ↓] theorem execDramTrainingDone_keeps (a : State) (failed : BitVec 4) (stepFailed : ℕ) (s : State) (h0 : Keeps a s) :
    KeepsOut a (execDramTrainingDone failed stepFailed s) := by
  unfold execDramTrainingDone
  simp (maxDischargeDepth := 40) [*]

@[simp ↓] theorem execDramFillDone_keeps (a : State) (s : State) (h0 : Keeps a s) :
    KeepsOut a (execDramFillDone s) := by
  unfold execDramFillDone
  simp (maxDischargeDepth := 40) [*]

@[simp ↓] theorem execBootImageLoaded_keeps (a : State) (source : BootSource) (s : State) (h0 : Keeps a s) :
    KeepsOut a (execBootImageLoaded source s) := by
  unfold execBootImageLoaded
  simp (maxDischargeDepth := 40) [*]

@[simp ↓] theorem execBootPushPoll_keeps (a : State) (s : State) (h0 : Keeps a s) :
    KeepsOut a (execBootPushPoll s) := by
  unfold execBootPushPoll
  simp (maxDischargeDepth := 40) [*]

@[simp ↓] theorem execBootReady_keeps (a : State) (s : State) (h0 : Keeps a s) :
    KeepsOut a (execBootReady s) := by
  unfold execBootReady
  simp (maxDischargeDepth := 40) [*]

@[simp ↓] theorem execStartupBootStatus_keeps (a : State) (rq : Req) (s : State) (h0 : Keeps a s) :
    KeepsOut a (execStartupBootStatus rq s) := by
  unfold execStartupBootStatus
  simp (maxDischargeDepth := 40) [*]

@[simp ↓] theorem execStartupPersonalitySelect_keeps (a : State) (rq : Req) (s : State) (h0 : Keeps a s) :
    KeepsOut a (execStartupPersonalitySelect rq s) := by
  unfold execStartupPersonalitySelect
  simp (maxDischargeDepth := 40) [*]

@[simp ↓] theorem execPersonalitySelectDone_keeps (a : State) (s : State) (h0 : Keeps a s) :
    KeepsOut a (execPersonalitySelectDone s) := by
  unfold execPersonalitySelectDone
  (repeat' split) <;> simp (maxDischargeDepth := 40) [*]

@[simp ↓] theorem execStartupFwUpdate_keeps (a : State) (rq : Req) (s : State) (h0 : Keeps a s) :
    KeepsOut a (execStartupFwUpdate rq s) := by
  unfold execStartupFwUpdate
  simp (maxDischargeDepth := 40) [*]

@[simp ↓] theorem execFwUpdateDone_keeps (a : State) (readBackOk : Bool) (s : State) (h0 : Keeps a s) :
    KeepsOut a (execFwUpdateDone readBackOk s) := by
  unfold execFwUpdateDone
  (repeat' split) <;> simp (maxDischargeDepth := 40) [*]

/-! ### Machine/Weir.lean -/

@[simp ↓] theorem State_modSweep_keeps (a : State) (s : State) (i : ℕ) (n : ℕ) (f : Sweep → Sweep) (h0 : Keeps a s) :
    Keeps a (State.modSweep s i n f) := by
  unfold State.modSweep
  simp (maxDischargeDepth := 40) [*]

@[simp ↓] theorem markJob_keeps (a : State) (i : ℕ) (w : Sweep) (f : BitVec 16) (s : State) (h0 : Keeps a s) :
    Keeps a (markJob i w f s) := by
  unfold markJob
  (repeat' split) <;> simp (maxDischargeDepth := 40) [*]

@[simp ↓] theorem endSearch_keeps (a : State) (i : ℕ) (s : State) (h0 : Keeps a s) :
    Keeps a (endSearch i s) := by
  unfold endSearch
  simp (maxDischargeDepth := 40) [*]

@[simp ↓] theorem commitJob_keeps (a : State) (i : ℕ) (w : Sweep) (j : Job) (s : State) (h0 : Keeps a s) :
    Keeps a (commitJob i w j s) := by
  unfold commitJob
  simp (maxDischargeDepth := 40) [*]

@[simp ↓] theorem commitSweep_keeps (a : State) (i : ℕ) (w : Sweep) (s : State) (h0 : Keeps a s) :
    Keeps a (commitSweep i w s).1 := by
  unfold commitSweep
  dsimp only
  (repeat' split) <;> simp (maxDischargeDepth := 40) [*]

@[simp ↓] theorem releaseRows_keeps (a : State) (i : Nat) (n : Nat) (s : State) (h0 : Keeps a s) :
    Keeps a (releaseRows i n s) := by
  unfold releaseRows
  dsimp only
  (repeat' split) <;> simp (maxDischargeDepth := 40) [*]

@[simp ↓] theorem endSweep_keeps (a : State) (i : ℕ) (n : ℕ) (s : State) (h0 : Keeps a s) :
    Keeps a (endSweep i n s) := by
  unfold endSweep
  (repeat' split) <;> simp (maxDischargeDepth := 40) [*]

@[simp ↓] theorem dropEvent_keeps (a : State) (i : ℕ) (b : ℕ) (w : Sweep) (e : QEvent) (s : State) (h0 : Keeps a s) :
    Keeps a (dropEvent i b w e s) := by
  unfold dropEvent
  dsimp only
  (repeat' split) <;> simp (maxDischargeDepth := 40) [*]

@[simp ↓] theorem overlapEvent_keeps (a : State) (i : ℕ) (w : Sweep) (s : State) (h0 : Keeps a s) :
    Keeps a (overlapEvent i w s) := by
  unfold overlapEvent
  simp (maxDischargeDepth := 40) [*]

@[simp ↓] theorem queuePress_keeps (a : State) (i l k b : Nat) (e : PlanEvent) (s : State) (h0 : Keeps a s) : Keeps a (queuePress i l k b e s) := by
  unfold queuePress
  extract_lets st
  split
  · exact h0
  · rename_i w _
    extract_lets ev s1 s2 ev2 stamp guarded s3 s4
    have h1 : Keeps a s1 := by simp (maxDischargeDepth := 40) [s1, h0]
    have h2 : Keeps a s2 := by
      simp only [s2]
      split
      · exact laneFetch_keeps _ _ _ _ _ _ h1
      · exact h1
    have h3 : Keeps a s3 := State_modSweep_keeps _ _ _ _ _ h2
    have h4 : Keeps a s4 := keeps_ite _ _ _ _ (overlapEvent_keeps _ _ _ _ h3) h3
    exact keeps_ite _ _ _ _ h0 (keeps_ite _ _ _ _ (dropEvent_keeps _ _ _ _ _ _ h2) (pushEvent_keeps _ _ _ _ _ h4))

@[simp ↓] theorem queueSearch_keeps (a : State) (i : ℕ) (l : ℕ) (k : ℕ) (b : ℕ) (e : PlanEvent) (s : State) (h0 : Keeps a s) :
    Keeps a (queueSearch i l k b e s) := by
  unfold queueSearch
  simp (maxDischargeDepth := 40) [*]

@[simp ↓] theorem queueVector_keeps (a : State) (h : ℕ) (k : ℕ) (q : ℕ) (e : PlanEvent) (s : State) (h0 : Keeps a s) :
    Keeps a (queueVector h k q e s) := by
  unfold queueVector
  dsimp only
  (repeat' split) <;> simp (maxDischargeDepth := 40) [*]

@[simp ↓] theorem queueMove_keeps (a : State) (h : ℕ) (k : ℕ) (i : ℕ) (e : PlanEvent) (s : State) (h0 : Keeps a s) :
    Keeps a (queueMove h k i e s) := by
  unfold queueMove
  dsimp only
  (repeat' split) <;> simp (maxDischargeDepth := 40) [*]

@[simp ↓] theorem queueArm_keeps (a : State) (h : ℕ) (k : ℕ) (e : PlanEvent) (s : State) (h0 : Keeps a s) :
    Keeps a (queueArm h k e s) := by
  unfold queueArm
  simp (maxDischargeDepth := 40) [*]

@[simp ↓] theorem execEventQueue_keeps (a : State) (lane : ℕ) (e : PlanEvent) (s : State) (h0 : Keeps a s) :
    KeepsOut a (execEventQueue lane e s) := by
  unfold execEventQueue
  dsimp only
  (repeat' split) <;> simp (maxDischargeDepth := 40) [*]

@[simp ↓] theorem handoffPress_keeps (a : State) (i l k : Nat) (w : Sweep) (e : QEvent) (s : State) (h0 : Keeps a s) : Keeps a (handoffPress i l k w e s) := by
  unfold handoffPress
  split
  extract_lets dark pixel fresh s1 s2 s3 s4 s5 s6
  have h1 : Keeps a s1 := keeps_ite _ _ _ _ (State_modStation_keeps _ _ _ _ h0) h0
  have h2 : Keeps a s2 := by simp (maxDischargeDepth := 40) [s2, h1]
  have h3 : Keeps a s3 := by
    simp only [s3]
    split
    · exact keeps_ite _ _ _ _ h2 (State_modStation_keeps _ _ _ _ h2)
    · exact h2
  have h4 : Keeps a s4 := lateCheck_keeps _ _ _ _ (sendEvent_keeps _ _ _ _ _ _ _ _ _ h3)
  have h5 : Keeps a s5 := keeps_ite _ _ _ _ (State_modLink_keeps _ _ _ _ h4) h4
  have h6 : Keeps a s6 := State_modSweep_keeps _ _ _ _ _ h5
  exact paperOutGates_keeps _ _ _ (endSweep_keeps _ _ _ _ (keeps_ite _ _ _ _ (releaseRows_keeps _ _ _ _ h6) h6))

@[simp ↓] theorem releaseRecord_keeps (a : State) (r : Rec) (s : State) (h0 : Keeps a s) :
    Keeps a (releaseRecord r s) := by
  unfold releaseRecord
  (repeat' split) <;> simp (maxDischargeDepth := 40) [*]

@[simp ↓] theorem commitVec_keeps (a : State) (h : ℕ) (v : Vec) (s : State) (h0 : Keeps a s) :
    Keeps a (commitVec h v s) := by
  unfold commitVec
  simp (maxDischargeDepth := 40) [*]

@[simp ↓] theorem headStopped_keeps (a : State) (h : Nat) (holds : Bool) (s : State) (h0 : Keeps a s) :
    KeepsOpt a (headStopped h holds s) := by
  unfold headStopped
  dsimp only
  (repeat' split) <;> simp (maxDischargeDepth := 40) [*]

@[simp ↓] theorem holdLate_keeps (a : State) (h : Nat) (v : Vec) (s : State) (h0 : Keeps a s) :
    Keeps a (holdLate h v s) := by
  unfold holdLate
  (repeat' split) <;> simp (maxDischargeDepth := 40) [*]

@[simp ↓] theorem waitStrait_keeps (a : State) (h : Nat) (v : Vec) (s : State) (h0 : Keeps a s) :
    Keeps a (waitStrait h v s) := by
  unfold waitStrait
  (repeat' split) <;> simp (maxDischargeDepth := 40) [*]

@[simp ↓] theorem commitVector_keeps (a : State) (h : Nat) (v : Vec) (e : PlanEvent) (s : State) (h0 : Keeps a s) : Keeps a (commitVector h v e s).1 := by
  have ho : KeepsOpt a (headStopped h false s) := by simp (maxDischargeDepth := 40) [h0]
  unfold commitVector
  extract_lets x busy opening
  split
  · exact h0
  · split
    · exact h0
    · split
      · next t ht => exact ho t ht
      · split
        · exact h0
        · rename_i s1 strait _ _ _ _ _
          have h1 : Keeps a s1 := keeps_ite _ _ _ _ (holdLate_keeps _ _ _ _ h0) h0
          clear_value s1 strait
          split
          · exact keeps_getD _ (headStopped_keeps _ _ _ _ h1)
              (keeps_ite _ _ _ _ (waitStrait_keeps _ _ _ _ h1) (holdLate_keeps _ _ _ _ h1))
          · simp only
            refine commitVec_keeps a h v _ ?_
            split
            · exact State_advanceTo_keeps a _ _ h1
            · exact h1

@[simp ↓] theorem countEnergy_keeps (a : State) (h : ℕ) (value : ℕ) (gate : Bool) (stamp : ℤ) (s : State) (h0 : Keeps a s) :
    Keeps a (countEnergy h value gate stamp s) := by
  unfold countEnergy
  simp (maxDischargeDepth := 40) [*]

@[simp ↓] theorem handoffVector_keeps (a : State) (h : ℕ) (k : ℕ) (v : Vec) (e : QEvent) (s : State) (h0 : Keeps a s) :
    Keeps a (handoffVector h k v e s) := by
  unfold handoffVector
  (repeat' split) <;> simp (maxDischargeDepth := 40) [*]

@[simp ↓] theorem handoffHead_keeps (a : State) (h : ℕ) (k : ℕ) (e : QEvent) (s : State) (h0 : Keeps a s) :
    Keeps a (handoffHead h k e s) := by
  unfold handoffHead
  dsimp only
  (repeat' split) <;> simp (maxDischargeDepth := 40) [*]

@[simp ↓] theorem State_popFront_keeps (a : State) (s : State) (l : ℕ) (k : ℕ) (h0 : Keeps a s) :
    Keeps a (State.popFront s l k) := by
  unfold State.popFront
  simp (maxDischargeDepth := 40) [*]

@[simp ↓] theorem commitUnit_keeps (a : State) (e : QEvent) (s : State) (h0 : Keeps a s) :
    Keeps a (commitUnit e s).1 := by
  unfold commitUnit
  (repeat' split) <;> simp (maxDischargeDepth := 40) [*]

@[simp ↓] theorem sendFront_keeps (a : State) (l : ℕ) (k : ℕ) (e : QEvent) (s : State) (h0 : Keeps a s) :
    Keeps a (sendFront l k e s) := by
  unfold sendFront
  (repeat' split) <;> simp (maxDischargeDepth := 40) [*]

@[simp ↓] theorem execWeirHandoff_keeps (a : State) (lane : ℕ) (s : State) (h0 : Keeps a s) :
    KeepsOut a (execWeirHandoff lane s) := by
  unfold execWeirHandoff
  dsimp only
  (repeat' split) <;> simp (maxDischargeDepth := 40) [*]

end Sys2Proof.Machine
end

