-- ==== Sys2Proof/Laws/Ops.lean ====
section
/-!
SUPPORT. What the shared operations of Machine/Ops.lean do, each said once.
-/
namespace Sys2Proof.Machine

open Sys2Proof

/-! ### Mailboxes -/

theorem modBox_box_same (s : State) (p : Nat) (f : Mailbox → Mailbox) (h : p < s.mci.boxes.length) :
    (s.modBox p f).box p = f (s.box p) := at'_modAt_same _ _ _ _ h

@[simp] theorem modBox_box_ne (s : State) (p q : Nat) (f : Mailbox → Mailbox) (h : p ≠ q) :
    (s.modBox p f).box q = s.box q := at'_modAt_ne _ _ _ _ _ h

/-! ### Vectors and violations (R45, R61) -/

@[simp] theorem signal_irq (v : Nat) (s : State) : (signal v s).mci.irq = s.mci.irq ||| (1#32 <<< irqBit v) := by
  unfold signal; dsimp only; split <;> (try split) <;> rfl

@[simp] theorem signal_vlog (v : Nat) (s : State) : (signal v s).mci.vlog = s.mci.vlog := by
  unfold signal; dsimp only; split <;> (try split) <;> rfl

@[simp] theorem signal_vcount (v : Nat) (s : State) : (signal v s).mci.vcount = s.mci.vcount := by
  unfold signal; dsimp only; split <;> (try split) <;> rfl

@[simp] theorem signal_vnext (v : Nat) (s : State) : (signal v s).mci.vnext = s.mci.vnext := by
  unfold signal; dsimp only; split <;> (try split) <;> rfl

@[simp] theorem signal_boxes (v : Nat) (s : State) : (signal v s).mci.boxes = s.mci.boxes := by
  unfold signal; dsimp only; split <;> (try split) <;> rfl

@[simp] theorem signal_box (v : Nat) (s : State) (p : Nat) : (signal v s).box p = s.box p := by simp [State.box]

@[simp] theorem signal_dispatched (v : Nat) (s : State) : (signal v s).mci.dispatched = s.mci.dispatched := by
  unfold signal; dsimp only; split <;> (try split) <;> rfl

@[simp] theorem signal_events (v : Nat) (s : State) : (signal v s).mci.events = s.mci.events := by
  unfold signal; dsimp only; split <;> (try split) <;> rfl

@[simp] theorem signal_drops (v : Nat) (s : State) : (signal v s).mci.eventDrops = s.mci.eventDrops := by
  unfold signal; dsimp only; split <;> (try split) <;> rfl

@[simp] theorem signal_slots (v : Nat) (s : State) : (signal v s).mci.slots = s.mci.slots := by
  unfold signal; dsimp only; split <;> (try split) <;> rfl

@[simp] theorem signal_urgBusy (v : Nat) (s : State) : (signal v s).mci.urgBusy = s.mci.urgBusy := by
  unfold signal; dsimp only; split <;> (try split) <;> rfl

@[simp] theorem signal_urgDone (v : Nat) (s : State) : (signal v s).mci.urgDone = s.mci.urgDone := by
  unfold signal; dsimp only; split <;> (try split) <;> rfl

@[simp] theorem signal_urgLast (v : Nat) (s : State) : (signal v s).mci.urgLast = s.mci.urgLast := by
  unfold signal; dsimp only; split <;> (try split) <;> rfl

@[simp] theorem signal_urgReply (v : Nat) (s : State) : (signal v s).mci.urgReply = s.mci.urgReply := by
  unfold signal; dsimp only; split <;> (try split) <;> rfl

/-- A signal changes the command interface alone. -/
theorem signal_frame (v : Nat) (s : State) : { signal v s with mci := s.mci } = s := by
  unfold signal; dsimp only

/-- A violation is logged, numbered, counted and signalled (R61). -/
theorem logViolation_logged (iface unit code detail : Nat) (s : State) :
    Safety.Logged iface unit code s (logViolation iface unit code detail s) := by
  refine ⟨⟨{ number := s.mci.vnext, time := s.time, iface := BitVec.ofNat 8 iface, unit := BitVec.ofNat 8 unit,
              code := BitVec.ofNat 16 code, detail := BitVec.ofNat 32 detail }, ?_, rfl, rfl, rfl, rfl, rfl⟩, ?_, ?_, ?_, ?_⟩
  · simp [logViolation]
  · simp [logViolation]
  · simp [logViolation]
  · simp [logViolation, irqBit]
  · simp [logViolation, signal]

@[simp] theorem logViolation_boxes (iface unit code detail : Nat) (s : State) :
    (logViolation iface unit code detail s).mci.boxes = s.mci.boxes := by simp [logViolation]

@[simp] theorem logViolation_box (iface unit code detail : Nat) (s : State) (p : Nat) :
    (logViolation iface unit code detail s).box p = s.box p := by simp [State.box]

@[simp] theorem logViolation_dispatched (iface unit code detail : Nat) (s : State) :
    (logViolation iface unit code detail s).mci.dispatched = s.mci.dispatched := by simp [logViolation]

@[simp] theorem logViolation_slots (iface unit code detail : Nat) (s : State) :
    (logViolation iface unit code detail s).mci.slots = s.mci.slots := by simp [logViolation]

/-! ### Commands -/

/-- A command whose cores run and none of whose checks fails runs its operation. -/
theorem command_pass (code : Nat) (rq : Req) (checks : List (Bool × Nat)) (k : State → State) (s : State)
    (hs : served code rq s = true) (h : ∀ c ∈ checks, c.1 = false) : command code rq checks k s = .next (k s) := by
  unfold command
  rw [if_pos hs, List.find?_eq_none.mpr (by simpa using h)]

/-- Of a command's checks the first that fails answers. -/
theorem command_fail (code : Nat) (rq : Req) (before after : List (Bool × Nat)) (status : Nat) (k : State → State)
    (s : State) (hs : served code rq s = true) (h : ∀ c ∈ before, c.1 = false) :
    command code rq (before ++ (true, status) :: after) k s = .next (respond rq code status [] s) := by
  unfold command
  rw [if_pos hs, List.find?_append, List.find?_eq_none.mpr (by simpa using h)]
  simp

/-- A command whose core is held in reset does nothing (R21). -/
theorem command_held (code : Nat) (rq : Req) (checks : List (Bool × Nat)) (k : State → State) (s : State)
    (hs : served code rq s = false) : command code rq checks k s = .next s := by
  unfold command
  rw [if_neg (by simp [hs])]

theorem commandOf_pass (p : Personality) (code : Nat) (rq : Req) (checks : List (Bool × Nat)) (k : State → State)
    (s : State) (hs : served code rq s = true) (hp : s.mci.personality = p) (h : ∀ c ∈ checks, c.1 = false) :
    commandOf p code rq checks k s = .next (k s) := by
  unfold commandOf
  rw [if_pos (Or.inl hp), command_pass code rq checks k s hs h]

/-- A command of the personality that is not selected is rejected and recorded (R7). -/
theorem commandOf_wrong (p : Personality) (code : Nat) (rq : Req) (checks : List (Bool × Nat)) (k : State → State)
    (s : State) (hs : served code rq s = true) (hp : s.mci.personality ≠ p) :
    commandOf p code rq checks k s =
      .next (logViolation 0 rq.mailbox 7 (code * 65536 + rq.seq.toNat) (respond rq code Status.wrongPersonality [] s)) := by
  unfold commandOf
  rw [if_neg (by simp [hp, hs])]

end Sys2Proof.Machine
end

