-- ==== Sys2Proof/Laws/State.lean ====
section
/-!
SUPPORT. What each update of one entry of the state's tables does to every field of State, so that no later proof unfolds a
record update: the table it writes, and that every other field is as it was.
-/
namespace Sys2Proof.Machine

open Sys2Proof

/-! ### State.modLink -/

@[simp] theorem State.modLink_links (s : State) (l : Nat) (f : Link → Link) :
    (s.modLink l f).links = if l < s.nLinks then modAt s.links l f else s.links := by
  unfold State.modLink; split <;> rfl

@[simp] theorem State.modLink_pending (s : State) (l : Nat) (f : Link → Link) : (s.modLink l f).pending = s.pending := by
  unfold State.modLink; split <;> rfl

@[simp] theorem State.modLink_part (s : State) (l : Nat) (f : Link → Link) : (s.modLink l f).part = s.part := by
  unfold State.modLink; split <;> rfl

@[simp] theorem State.modLink_free (s : State) (l : Nat) (f : Link → Link) : (s.modLink l f).free = s.free := by
  unfold State.modLink; split <;> rfl

@[simp] theorem State.modLink_time (s : State) (l : Nat) (f : Link → Link) : (s.modLink l f).time = s.time := by
  unfold State.modLink; split <;> rfl

@[simp] theorem State.modLink_timeRuns (s : State) (l : Nat) (f : Link → Link) : (s.modLink l f).timeRuns = s.timeRuns := by
  unfold State.modLink; split <;> rfl

@[simp] theorem State.modLink_held (s : State) (l : Nat) (f : Link → Link) : (s.modLink l f).held = s.held := by
  unfold State.modLink; split <;> rfl

@[simp] theorem State.modLink_mci (s : State) (l : Nat) (f : Link → Link) : (s.modLink l f).mci = s.mci := by
  unfold State.modLink; split <;> rfl

@[simp] theorem State.modLink_sources (s : State) (l : Nat) (f : Link → Link) : (s.modLink l f).sources = s.sources := by
  unfold State.modLink; split <;> rfl

@[simp] theorem State.modLink_sync (s : State) (l : Nat) (f : Link → Link) : (s.modLink l f).sync = s.sync := by
  unfold State.modLink; split <;> rfl

@[simp] theorem State.modLink_nStop (s : State) (l : Nat) (f : Link → Link) : (s.modLink l f).nStop = s.nStop := by
  unfold State.modLink; split <;> rfl

@[simp] theorem State.modLink_rollback (s : State) (l : Nat) (f : Link → Link) : (s.modLink l f).rollback = s.rollback := by
  unfold State.modLink; split <;> rfl

@[simp] theorem State.modLink_jobSerial (s : State) (l : Nat) (f : Link → Link) :
    (s.modLink l f).jobSerial = s.jobSerial := by
  unfold State.modLink; split <;> rfl

@[simp] theorem State.modLink_stations (s : State) (l : Nat) (f : Link → Link) : (s.modLink l f).stations = s.stations := by
  unfold State.modLink; split <;> rfl

@[simp] theorem State.modLink_media (s : State) (l : Nat) (f : Link → Link) : (s.modLink l f).media = s.media := by
  unfold State.modLink; split <;> rfl

@[simp] theorem State.modLink_topUnmatched (s : State) (l : Nat) (f : Link → Link) :
    (s.modLink l f).topUnmatched = s.topUnmatched := by
  unfold State.modLink; split <;> rfl

@[simp] theorem State.modLink_gpi (s : State) (l : Nat) (f : Link → Link) : (s.modLink l f).gpi = s.gpi := by
  unfold State.modLink; split <;> rfl

@[simp] theorem State.modLink_bias (s : State) (l : Nat) (f : Link → Link) : (s.modLink l f).bias = s.bias := by
  unfold State.modLink; split <;> rfl

@[simp] theorem State.modLink_heaters (s : State) (l : Nat) (f : Link → Link) : (s.modLink l f).heaters = s.heaters := by
  unfold State.modLink; split <;> rfl

@[simp] theorem State.modLink_heads (s : State) (l : Nat) (f : Link → Link) : (s.modLink l f).heads = s.heads := by
  unfold State.modLink; split <;> rfl

@[simp] theorem State.modLink_forge (s : State) (l : Nat) (f : Link → Link) : (s.modLink l f).forge = s.forge := by
  unfold State.modLink; split <;> rfl

@[simp] theorem State.modLink_engine (s : State) (l : Nat) (f : Link → Link) : (s.modLink l f).engine = s.engine := by
  unfold State.modLink; split <;> rfl

@[simp] theorem State.modLink_cam (s : State) (l : Nat) (f : Link → Link) : (s.modLink l f).cam = s.cam := by
  unfold State.modLink; split <;> rfl

@[simp] theorem State.modLink_lag (s : State) (l : Nat) (f : Link → Link) : (s.modLink l f).lag = s.lag := by
  unfold State.modLink; split <;> rfl

@[simp] theorem State.modLink_dram (s : State) (l : Nat) (f : Link → Link) : (s.modLink l f).dram = s.dram := by
  unfold State.modLink; split <;> rfl

@[simp] theorem State.modLink_dma (s : State) (l : Nat) (f : Link → Link) : (s.modLink l f).dma = s.dma := by
  unfold State.modLink; split <;> rfl

@[simp] theorem State.modLink_bldc (s : State) (l : Nat) (f : Link → Link) : (s.modLink l f).bldc = s.bldc := by
  unfold State.modLink; split <;> rfl

@[simp] theorem State.modLink_motion (s : State) (l : Nat) (f : Link → Link) : (s.modLink l f).motion = s.motion := by
  unfold State.modLink; split <;> rfl

@[simp] theorem State.modLink_clk (s : State) (l : Nat) (f : Link → Link) : (s.modLink l f).clk = s.clk := by
  unfold State.modLink; split <;> rfl

@[simp] theorem State.modLink_therm (s : State) (l : Nat) (f : Link → Link) : (s.modLink l f).therm = s.therm := by
  unfold State.modLink; split <;> rfl

@[simp] theorem State.modLink_pwr (s : State) (l : Nat) (f : Link → Link) : (s.modLink l f).pwr = s.pwr := by
  unfold State.modLink; split <;> rfl

@[simp] theorem State.modLink_atoll (s : State) (l : Nat) (f : Link → Link) : (s.modLink l f).atoll = s.atoll := by
  unfold State.modLink; split <;> rfl

@[simp] theorem State.modLink_lamps (s : State) (l : Nat) (f : Link → Link) : (s.modLink l f).lamps = s.lamps := by
  unfold State.modLink; split <;> rfl

@[simp] theorem State.modLink_flt (s : State) (l : Nat) (f : Link → Link) : (s.modLink l f).flt = s.flt := by
  unfold State.modLink; split <;> rfl

@[simp] theorem State.modLink_otp (s : State) (l : Nat) (f : Link → Link) : (s.modLink l f).otp = s.otp := by
  unfold State.modLink; split <;> rfl

@[simp] theorem State.modLink_boot (s : State) (l : Nat) (f : Link → Link) : (s.modLink l f).boot = s.boot := by
  unfold State.modLink; split <;> rfl

@[simp] theorem State.modLink_nLinks (s : State) (l : Nat) (f : Link → Link) : (s.modLink l f).nLinks = s.nLinks := by
  unfold State.modLink; split <;> rfl

@[simp] theorem State.modLink_nHeads (s : State) (l : Nat) (f : Link → Link) : (s.modLink l f).nHeads = s.nHeads := by
  unfold State.modLink; split <;> rfl

@[simp] theorem State.modLink_now (s : State) (l : Nat) (f : Link → Link) : (s.modLink l f).now = s.now := by
  unfold State.modLink; split <;> rfl

theorem State.modLink_same (s : State) (l : Nat) (f : Link → Link) (h₀ : l < s.links.length)
    (h₁ : l < s.nLinks) :
    (s.modLink l f).link l = f (s.link l) := by
  simp [State.link, h₁, at'_modAt_same _ _ _ _ h₀]

@[simp] theorem State.modLink_ne (s : State) (l : Nat) (f : Link → Link) (k : Nat) (hk : l ≠ k) :
    (s.modLink l f).link k = s.link k := by
  simp only [State.link, State.modLink_links]; split <;> simp [hk]

/-! ### State.modStation -/

@[simp] theorem State.modStation_stations (s : State) (i : Nat) (f : Station → Station) :
    (s.modStation i f).stations = modAt s.stations i f := rfl

@[simp] theorem State.modStation_pending (s : State) (i : Nat) (f : Station → Station) :
    (s.modStation i f).pending = s.pending := rfl

@[simp] theorem State.modStation_part (s : State) (i : Nat) (f : Station → Station) : (s.modStation i f).part = s.part := rfl

@[simp] theorem State.modStation_free (s : State) (i : Nat) (f : Station → Station) : (s.modStation i f).free = s.free := rfl

@[simp] theorem State.modStation_time (s : State) (i : Nat) (f : Station → Station) : (s.modStation i f).time = s.time := rfl

@[simp] theorem State.modStation_timeRuns (s : State) (i : Nat) (f : Station → Station) :
    (s.modStation i f).timeRuns = s.timeRuns := rfl

@[simp] theorem State.modStation_held (s : State) (i : Nat) (f : Station → Station) : (s.modStation i f).held = s.held := rfl

@[simp] theorem State.modStation_mci (s : State) (i : Nat) (f : Station → Station) : (s.modStation i f).mci = s.mci := rfl

@[simp] theorem State.modStation_sources (s : State) (i : Nat) (f : Station → Station) :
    (s.modStation i f).sources = s.sources := rfl

@[simp] theorem State.modStation_sync (s : State) (i : Nat) (f : Station → Station) : (s.modStation i f).sync = s.sync := rfl

@[simp] theorem State.modStation_links (s : State) (i : Nat) (f : Station → Station) :
    (s.modStation i f).links = s.links := rfl

@[simp] theorem State.modStation_nStop (s : State) (i : Nat) (f : Station → Station) :
    (s.modStation i f).nStop = s.nStop := rfl

@[simp] theorem State.modStation_rollback (s : State) (i : Nat) (f : Station → Station) :
    (s.modStation i f).rollback = s.rollback := rfl

@[simp] theorem State.modStation_jobSerial (s : State) (i : Nat) (f : Station → Station) :
    (s.modStation i f).jobSerial = s.jobSerial := rfl

@[simp] theorem State.modStation_media (s : State) (i : Nat) (f : Station → Station) :
    (s.modStation i f).media = s.media := rfl

@[simp] theorem State.modStation_topUnmatched (s : State) (i : Nat) (f : Station → Station) :
    (s.modStation i f).topUnmatched = s.topUnmatched := rfl

@[simp] theorem State.modStation_gpi (s : State) (i : Nat) (f : Station → Station) : (s.modStation i f).gpi = s.gpi := rfl

@[simp] theorem State.modStation_bias (s : State) (i : Nat) (f : Station → Station) : (s.modStation i f).bias = s.bias := rfl

@[simp] theorem State.modStation_heaters (s : State) (i : Nat) (f : Station → Station) :
    (s.modStation i f).heaters = s.heaters := rfl

@[simp] theorem State.modStation_heads (s : State) (i : Nat) (f : Station → Station) :
    (s.modStation i f).heads = s.heads := rfl

@[simp] theorem State.modStation_forge (s : State) (i : Nat) (f : Station → Station) :
    (s.modStation i f).forge = s.forge := rfl

@[simp] theorem State.modStation_engine (s : State) (i : Nat) (f : Station → Station) :
    (s.modStation i f).engine = s.engine := rfl

@[simp] theorem State.modStation_cam (s : State) (i : Nat) (f : Station → Station) : (s.modStation i f).cam = s.cam := rfl

@[simp] theorem State.modStation_lag (s : State) (i : Nat) (f : Station → Station) : (s.modStation i f).lag = s.lag := rfl

@[simp] theorem State.modStation_dram (s : State) (i : Nat) (f : Station → Station) : (s.modStation i f).dram = s.dram := rfl

@[simp] theorem State.modStation_dma (s : State) (i : Nat) (f : Station → Station) : (s.modStation i f).dma = s.dma := rfl

@[simp] theorem State.modStation_bldc (s : State) (i : Nat) (f : Station → Station) : (s.modStation i f).bldc = s.bldc := rfl

@[simp] theorem State.modStation_motion (s : State) (i : Nat) (f : Station → Station) :
    (s.modStation i f).motion = s.motion := rfl

@[simp] theorem State.modStation_clk (s : State) (i : Nat) (f : Station → Station) : (s.modStation i f).clk = s.clk := rfl

@[simp] theorem State.modStation_therm (s : State) (i : Nat) (f : Station → Station) :
    (s.modStation i f).therm = s.therm := rfl

@[simp] theorem State.modStation_pwr (s : State) (i : Nat) (f : Station → Station) : (s.modStation i f).pwr = s.pwr := rfl

@[simp] theorem State.modStation_atoll (s : State) (i : Nat) (f : Station → Station) :
    (s.modStation i f).atoll = s.atoll := rfl

@[simp] theorem State.modStation_lamps (s : State) (i : Nat) (f : Station → Station) :
    (s.modStation i f).lamps = s.lamps := rfl

@[simp] theorem State.modStation_flt (s : State) (i : Nat) (f : Station → Station) : (s.modStation i f).flt = s.flt := rfl

@[simp] theorem State.modStation_otp (s : State) (i : Nat) (f : Station → Station) : (s.modStation i f).otp = s.otp := rfl

@[simp] theorem State.modStation_boot (s : State) (i : Nat) (f : Station → Station) : (s.modStation i f).boot = s.boot := rfl

@[simp] theorem State.modStation_nLinks (s : State) (i : Nat) (f : Station → Station) :
    (s.modStation i f).nLinks = s.nLinks := rfl

@[simp] theorem State.modStation_nHeads (s : State) (i : Nat) (f : Station → Station) :
    (s.modStation i f).nHeads = s.nHeads := rfl

@[simp] theorem State.modStation_now (s : State) (i : Nat) (f : Station → Station) : (s.modStation i f).now = s.now := rfl

theorem State.modStation_same (s : State) (i : Nat) (f : Station → Station) (h₀ : i < s.stations.length) :
    (s.modStation i f).station i = f (s.station i) := at'_modAt_same _ _ _ _ h₀

@[simp] theorem State.modStation_ne (s : State) (i : Nat) (f : Station → Station) (k : Nat) (hk : i ≠ k) :
    (s.modStation i f).station k = s.station k := at'_modAt_ne _ _ _ _ _ hk

/-! ### State.modHead -/

@[simp] theorem State.modHead_heads (s : State) (h : Nat) (f : Head → Head) :
    (s.modHead h f).heads = if h < s.nHeads then modAt s.heads h f else s.heads := by
  unfold State.modHead; split <;> rfl

@[simp] theorem State.modHead_pending (s : State) (h : Nat) (f : Head → Head) : (s.modHead h f).pending = s.pending := by
  unfold State.modHead; split <;> rfl

@[simp] theorem State.modHead_part (s : State) (h : Nat) (f : Head → Head) : (s.modHead h f).part = s.part := by
  unfold State.modHead; split <;> rfl

@[simp] theorem State.modHead_free (s : State) (h : Nat) (f : Head → Head) : (s.modHead h f).free = s.free := by
  unfold State.modHead; split <;> rfl

@[simp] theorem State.modHead_time (s : State) (h : Nat) (f : Head → Head) : (s.modHead h f).time = s.time := by
  unfold State.modHead; split <;> rfl

@[simp] theorem State.modHead_timeRuns (s : State) (h : Nat) (f : Head → Head) : (s.modHead h f).timeRuns = s.timeRuns := by
  unfold State.modHead; split <;> rfl

@[simp] theorem State.modHead_held (s : State) (h : Nat) (f : Head → Head) : (s.modHead h f).held = s.held := by
  unfold State.modHead; split <;> rfl

@[simp] theorem State.modHead_mci (s : State) (h : Nat) (f : Head → Head) : (s.modHead h f).mci = s.mci := by
  unfold State.modHead; split <;> rfl

@[simp] theorem State.modHead_sources (s : State) (h : Nat) (f : Head → Head) : (s.modHead h f).sources = s.sources := by
  unfold State.modHead; split <;> rfl

@[simp] theorem State.modHead_sync (s : State) (h : Nat) (f : Head → Head) : (s.modHead h f).sync = s.sync := by
  unfold State.modHead; split <;> rfl

@[simp] theorem State.modHead_links (s : State) (h : Nat) (f : Head → Head) : (s.modHead h f).links = s.links := by
  unfold State.modHead; split <;> rfl

@[simp] theorem State.modHead_nStop (s : State) (h : Nat) (f : Head → Head) : (s.modHead h f).nStop = s.nStop := by
  unfold State.modHead; split <;> rfl

@[simp] theorem State.modHead_rollback (s : State) (h : Nat) (f : Head → Head) : (s.modHead h f).rollback = s.rollback := by
  unfold State.modHead; split <;> rfl

@[simp] theorem State.modHead_jobSerial (s : State) (h : Nat) (f : Head → Head) :
    (s.modHead h f).jobSerial = s.jobSerial := by
  unfold State.modHead; split <;> rfl

@[simp] theorem State.modHead_stations (s : State) (h : Nat) (f : Head → Head) : (s.modHead h f).stations = s.stations := by
  unfold State.modHead; split <;> rfl

@[simp] theorem State.modHead_media (s : State) (h : Nat) (f : Head → Head) : (s.modHead h f).media = s.media := by
  unfold State.modHead; split <;> rfl

@[simp] theorem State.modHead_topUnmatched (s : State) (h : Nat) (f : Head → Head) :
    (s.modHead h f).topUnmatched = s.topUnmatched := by
  unfold State.modHead; split <;> rfl

@[simp] theorem State.modHead_gpi (s : State) (h : Nat) (f : Head → Head) : (s.modHead h f).gpi = s.gpi := by
  unfold State.modHead; split <;> rfl

@[simp] theorem State.modHead_bias (s : State) (h : Nat) (f : Head → Head) : (s.modHead h f).bias = s.bias := by
  unfold State.modHead; split <;> rfl

@[simp] theorem State.modHead_heaters (s : State) (h : Nat) (f : Head → Head) : (s.modHead h f).heaters = s.heaters := by
  unfold State.modHead; split <;> rfl

@[simp] theorem State.modHead_forge (s : State) (h : Nat) (f : Head → Head) : (s.modHead h f).forge = s.forge := by
  unfold State.modHead; split <;> rfl

@[simp] theorem State.modHead_engine (s : State) (h : Nat) (f : Head → Head) : (s.modHead h f).engine = s.engine := by
  unfold State.modHead; split <;> rfl

@[simp] theorem State.modHead_cam (s : State) (h : Nat) (f : Head → Head) : (s.modHead h f).cam = s.cam := by
  unfold State.modHead; split <;> rfl

@[simp] theorem State.modHead_lag (s : State) (h : Nat) (f : Head → Head) : (s.modHead h f).lag = s.lag := by
  unfold State.modHead; split <;> rfl

@[simp] theorem State.modHead_dram (s : State) (h : Nat) (f : Head → Head) : (s.modHead h f).dram = s.dram := by
  unfold State.modHead; split <;> rfl

@[simp] theorem State.modHead_dma (s : State) (h : Nat) (f : Head → Head) : (s.modHead h f).dma = s.dma := by
  unfold State.modHead; split <;> rfl

@[simp] theorem State.modHead_bldc (s : State) (h : Nat) (f : Head → Head) : (s.modHead h f).bldc = s.bldc := by
  unfold State.modHead; split <;> rfl

@[simp] theorem State.modHead_motion (s : State) (h : Nat) (f : Head → Head) : (s.modHead h f).motion = s.motion := by
  unfold State.modHead; split <;> rfl

@[simp] theorem State.modHead_clk (s : State) (h : Nat) (f : Head → Head) : (s.modHead h f).clk = s.clk := by
  unfold State.modHead; split <;> rfl

@[simp] theorem State.modHead_therm (s : State) (h : Nat) (f : Head → Head) : (s.modHead h f).therm = s.therm := by
  unfold State.modHead; split <;> rfl

@[simp] theorem State.modHead_pwr (s : State) (h : Nat) (f : Head → Head) : (s.modHead h f).pwr = s.pwr := by
  unfold State.modHead; split <;> rfl

@[simp] theorem State.modHead_atoll (s : State) (h : Nat) (f : Head → Head) : (s.modHead h f).atoll = s.atoll := by
  unfold State.modHead; split <;> rfl

@[simp] theorem State.modHead_lamps (s : State) (h : Nat) (f : Head → Head) : (s.modHead h f).lamps = s.lamps := by
  unfold State.modHead; split <;> rfl

@[simp] theorem State.modHead_flt (s : State) (h : Nat) (f : Head → Head) : (s.modHead h f).flt = s.flt := by
  unfold State.modHead; split <;> rfl

@[simp] theorem State.modHead_otp (s : State) (h : Nat) (f : Head → Head) : (s.modHead h f).otp = s.otp := by
  unfold State.modHead; split <;> rfl

@[simp] theorem State.modHead_boot (s : State) (h : Nat) (f : Head → Head) : (s.modHead h f).boot = s.boot := by
  unfold State.modHead; split <;> rfl

@[simp] theorem State.modHead_nLinks (s : State) (h : Nat) (f : Head → Head) : (s.modHead h f).nLinks = s.nLinks := by
  unfold State.modHead; split <;> rfl

@[simp] theorem State.modHead_nHeads (s : State) (h : Nat) (f : Head → Head) : (s.modHead h f).nHeads = s.nHeads := by
  unfold State.modHead; split <;> rfl

@[simp] theorem State.modHead_now (s : State) (h : Nat) (f : Head → Head) : (s.modHead h f).now = s.now := by
  unfold State.modHead; split <;> rfl

theorem State.modHead_same (s : State) (h : Nat) (f : Head → Head) (h₀ : h < s.heads.length)
    (h₁ : h < s.nHeads) :
    (s.modHead h f).head h = f (s.head h) := by
  simp [State.head, h₁, at'_modAt_same _ _ _ _ h₀]

@[simp] theorem State.modHead_ne (s : State) (h : Nat) (f : Head → Head) (k : Nat) (hk : h ≠ k) :
    (s.modHead h f).head k = s.head k := by
  simp only [State.head, State.modHead_heads]; split <;> simp [hk]

/-! ### State.modSource -/

@[simp] theorem State.modSource_sources (s : State) (i : Nat) (f : Source → Source) :
    (s.modSource i f).sources = modAt s.sources i f := rfl

@[simp] theorem State.modSource_pending (s : State) (i : Nat) (f : Source → Source) :
    (s.modSource i f).pending = s.pending := rfl

@[simp] theorem State.modSource_part (s : State) (i : Nat) (f : Source → Source) : (s.modSource i f).part = s.part := rfl

@[simp] theorem State.modSource_free (s : State) (i : Nat) (f : Source → Source) : (s.modSource i f).free = s.free := rfl

@[simp] theorem State.modSource_time (s : State) (i : Nat) (f : Source → Source) : (s.modSource i f).time = s.time := rfl

@[simp] theorem State.modSource_timeRuns (s : State) (i : Nat) (f : Source → Source) :
    (s.modSource i f).timeRuns = s.timeRuns := rfl

@[simp] theorem State.modSource_held (s : State) (i : Nat) (f : Source → Source) : (s.modSource i f).held = s.held := rfl

@[simp] theorem State.modSource_mci (s : State) (i : Nat) (f : Source → Source) : (s.modSource i f).mci = s.mci := rfl

@[simp] theorem State.modSource_sync (s : State) (i : Nat) (f : Source → Source) : (s.modSource i f).sync = s.sync := rfl

@[simp] theorem State.modSource_links (s : State) (i : Nat) (f : Source → Source) : (s.modSource i f).links = s.links := rfl

@[simp] theorem State.modSource_nStop (s : State) (i : Nat) (f : Source → Source) : (s.modSource i f).nStop = s.nStop := rfl

@[simp] theorem State.modSource_rollback (s : State) (i : Nat) (f : Source → Source) :
    (s.modSource i f).rollback = s.rollback := rfl

@[simp] theorem State.modSource_jobSerial (s : State) (i : Nat) (f : Source → Source) :
    (s.modSource i f).jobSerial = s.jobSerial := rfl

@[simp] theorem State.modSource_stations (s : State) (i : Nat) (f : Source → Source) :
    (s.modSource i f).stations = s.stations := rfl

@[simp] theorem State.modSource_media (s : State) (i : Nat) (f : Source → Source) : (s.modSource i f).media = s.media := rfl

@[simp] theorem State.modSource_topUnmatched (s : State) (i : Nat) (f : Source → Source) :
    (s.modSource i f).topUnmatched = s.topUnmatched := rfl

@[simp] theorem State.modSource_gpi (s : State) (i : Nat) (f : Source → Source) : (s.modSource i f).gpi = s.gpi := rfl

@[simp] theorem State.modSource_bias (s : State) (i : Nat) (f : Source → Source) : (s.modSource i f).bias = s.bias := rfl

@[simp] theorem State.modSource_heaters (s : State) (i : Nat) (f : Source → Source) :
    (s.modSource i f).heaters = s.heaters := rfl

@[simp] theorem State.modSource_heads (s : State) (i : Nat) (f : Source → Source) : (s.modSource i f).heads = s.heads := rfl

@[simp] theorem State.modSource_forge (s : State) (i : Nat) (f : Source → Source) : (s.modSource i f).forge = s.forge := rfl

@[simp] theorem State.modSource_engine (s : State) (i : Nat) (f : Source → Source) :
    (s.modSource i f).engine = s.engine := rfl

@[simp] theorem State.modSource_cam (s : State) (i : Nat) (f : Source → Source) : (s.modSource i f).cam = s.cam := rfl

@[simp] theorem State.modSource_lag (s : State) (i : Nat) (f : Source → Source) : (s.modSource i f).lag = s.lag := rfl

@[simp] theorem State.modSource_dram (s : State) (i : Nat) (f : Source → Source) : (s.modSource i f).dram = s.dram := rfl

@[simp] theorem State.modSource_dma (s : State) (i : Nat) (f : Source → Source) : (s.modSource i f).dma = s.dma := rfl

@[simp] theorem State.modSource_bldc (s : State) (i : Nat) (f : Source → Source) : (s.modSource i f).bldc = s.bldc := rfl

@[simp] theorem State.modSource_motion (s : State) (i : Nat) (f : Source → Source) :
    (s.modSource i f).motion = s.motion := rfl

@[simp] theorem State.modSource_clk (s : State) (i : Nat) (f : Source → Source) : (s.modSource i f).clk = s.clk := rfl

@[simp] theorem State.modSource_therm (s : State) (i : Nat) (f : Source → Source) : (s.modSource i f).therm = s.therm := rfl

@[simp] theorem State.modSource_pwr (s : State) (i : Nat) (f : Source → Source) : (s.modSource i f).pwr = s.pwr := rfl

@[simp] theorem State.modSource_atoll (s : State) (i : Nat) (f : Source → Source) : (s.modSource i f).atoll = s.atoll := rfl

@[simp] theorem State.modSource_lamps (s : State) (i : Nat) (f : Source → Source) : (s.modSource i f).lamps = s.lamps := rfl

@[simp] theorem State.modSource_flt (s : State) (i : Nat) (f : Source → Source) : (s.modSource i f).flt = s.flt := rfl

@[simp] theorem State.modSource_otp (s : State) (i : Nat) (f : Source → Source) : (s.modSource i f).otp = s.otp := rfl

@[simp] theorem State.modSource_boot (s : State) (i : Nat) (f : Source → Source) : (s.modSource i f).boot = s.boot := rfl

@[simp] theorem State.modSource_nLinks (s : State) (i : Nat) (f : Source → Source) :
    (s.modSource i f).nLinks = s.nLinks := rfl

@[simp] theorem State.modSource_nHeads (s : State) (i : Nat) (f : Source → Source) :
    (s.modSource i f).nHeads = s.nHeads := rfl

@[simp] theorem State.modSource_now (s : State) (i : Nat) (f : Source → Source) : (s.modSource i f).now = s.now := rfl

theorem State.modSource_same (s : State) (i : Nat) (f : Source → Source) (h₀ : i < s.sources.length) :
    (s.modSource i f).source i = f (s.source i) := at'_modAt_same _ _ _ _ h₀

@[simp] theorem State.modSource_ne (s : State) (i : Nat) (f : Source → Source) (k : Nat) (hk : i ≠ k) :
    (s.modSource i f).source k = s.source k := at'_modAt_ne _ _ _ _ _ hk

/-! ### State.modHeater -/

@[simp] theorem State.modHeater_heaters (s : State) (h : Nat) (f : Heater → Heater) :
    (s.modHeater h f).heaters = modAt s.heaters h f := rfl

@[simp] theorem State.modHeater_pending (s : State) (h : Nat) (f : Heater → Heater) :
    (s.modHeater h f).pending = s.pending := rfl

@[simp] theorem State.modHeater_part (s : State) (h : Nat) (f : Heater → Heater) : (s.modHeater h f).part = s.part := rfl

@[simp] theorem State.modHeater_free (s : State) (h : Nat) (f : Heater → Heater) : (s.modHeater h f).free = s.free := rfl

@[simp] theorem State.modHeater_time (s : State) (h : Nat) (f : Heater → Heater) : (s.modHeater h f).time = s.time := rfl

@[simp] theorem State.modHeater_timeRuns (s : State) (h : Nat) (f : Heater → Heater) :
    (s.modHeater h f).timeRuns = s.timeRuns := rfl

@[simp] theorem State.modHeater_held (s : State) (h : Nat) (f : Heater → Heater) : (s.modHeater h f).held = s.held := rfl

@[simp] theorem State.modHeater_mci (s : State) (h : Nat) (f : Heater → Heater) : (s.modHeater h f).mci = s.mci := rfl

@[simp] theorem State.modHeater_sources (s : State) (h : Nat) (f : Heater → Heater) :
    (s.modHeater h f).sources = s.sources := rfl

@[simp] theorem State.modHeater_sync (s : State) (h : Nat) (f : Heater → Heater) : (s.modHeater h f).sync = s.sync := rfl

@[simp] theorem State.modHeater_links (s : State) (h : Nat) (f : Heater → Heater) : (s.modHeater h f).links = s.links := rfl

@[simp] theorem State.modHeater_nStop (s : State) (h : Nat) (f : Heater → Heater) : (s.modHeater h f).nStop = s.nStop := rfl

@[simp] theorem State.modHeater_rollback (s : State) (h : Nat) (f : Heater → Heater) :
    (s.modHeater h f).rollback = s.rollback := rfl

@[simp] theorem State.modHeater_jobSerial (s : State) (h : Nat) (f : Heater → Heater) :
    (s.modHeater h f).jobSerial = s.jobSerial := rfl

@[simp] theorem State.modHeater_stations (s : State) (h : Nat) (f : Heater → Heater) :
    (s.modHeater h f).stations = s.stations := rfl

@[simp] theorem State.modHeater_media (s : State) (h : Nat) (f : Heater → Heater) : (s.modHeater h f).media = s.media := rfl

@[simp] theorem State.modHeater_topUnmatched (s : State) (h : Nat) (f : Heater → Heater) :
    (s.modHeater h f).topUnmatched = s.topUnmatched := rfl

@[simp] theorem State.modHeater_gpi (s : State) (h : Nat) (f : Heater → Heater) : (s.modHeater h f).gpi = s.gpi := rfl

@[simp] theorem State.modHeater_bias (s : State) (h : Nat) (f : Heater → Heater) : (s.modHeater h f).bias = s.bias := rfl

@[simp] theorem State.modHeater_heads (s : State) (h : Nat) (f : Heater → Heater) : (s.modHeater h f).heads = s.heads := rfl

@[simp] theorem State.modHeater_forge (s : State) (h : Nat) (f : Heater → Heater) : (s.modHeater h f).forge = s.forge := rfl

@[simp] theorem State.modHeater_engine (s : State) (h : Nat) (f : Heater → Heater) :
    (s.modHeater h f).engine = s.engine := rfl

@[simp] theorem State.modHeater_cam (s : State) (h : Nat) (f : Heater → Heater) : (s.modHeater h f).cam = s.cam := rfl

@[simp] theorem State.modHeater_lag (s : State) (h : Nat) (f : Heater → Heater) : (s.modHeater h f).lag = s.lag := rfl

@[simp] theorem State.modHeater_dram (s : State) (h : Nat) (f : Heater → Heater) : (s.modHeater h f).dram = s.dram := rfl

@[simp] theorem State.modHeater_dma (s : State) (h : Nat) (f : Heater → Heater) : (s.modHeater h f).dma = s.dma := rfl

@[simp] theorem State.modHeater_bldc (s : State) (h : Nat) (f : Heater → Heater) : (s.modHeater h f).bldc = s.bldc := rfl

@[simp] theorem State.modHeater_motion (s : State) (h : Nat) (f : Heater → Heater) :
    (s.modHeater h f).motion = s.motion := rfl

@[simp] theorem State.modHeater_clk (s : State) (h : Nat) (f : Heater → Heater) : (s.modHeater h f).clk = s.clk := rfl

@[simp] theorem State.modHeater_therm (s : State) (h : Nat) (f : Heater → Heater) : (s.modHeater h f).therm = s.therm := rfl

@[simp] theorem State.modHeater_pwr (s : State) (h : Nat) (f : Heater → Heater) : (s.modHeater h f).pwr = s.pwr := rfl

@[simp] theorem State.modHeater_atoll (s : State) (h : Nat) (f : Heater → Heater) : (s.modHeater h f).atoll = s.atoll := rfl

@[simp] theorem State.modHeater_lamps (s : State) (h : Nat) (f : Heater → Heater) : (s.modHeater h f).lamps = s.lamps := rfl

@[simp] theorem State.modHeater_flt (s : State) (h : Nat) (f : Heater → Heater) : (s.modHeater h f).flt = s.flt := rfl

@[simp] theorem State.modHeater_otp (s : State) (h : Nat) (f : Heater → Heater) : (s.modHeater h f).otp = s.otp := rfl

@[simp] theorem State.modHeater_boot (s : State) (h : Nat) (f : Heater → Heater) : (s.modHeater h f).boot = s.boot := rfl

@[simp] theorem State.modHeater_nLinks (s : State) (h : Nat) (f : Heater → Heater) :
    (s.modHeater h f).nLinks = s.nLinks := rfl

@[simp] theorem State.modHeater_nHeads (s : State) (h : Nat) (f : Heater → Heater) :
    (s.modHeater h f).nHeads = s.nHeads := rfl

@[simp] theorem State.modHeater_now (s : State) (h : Nat) (f : Heater → Heater) : (s.modHeater h f).now = s.now := rfl

theorem State.modHeater_same (s : State) (h : Nat) (f : Heater → Heater) (h₀ : h < s.heaters.length) :
    (s.modHeater h f).heater h = f (s.heater h) := at'_modAt_same _ _ _ _ h₀

@[simp] theorem State.modHeater_ne (s : State) (h : Nat) (f : Heater → Heater) (k : Nat) (hk : h ≠ k) :
    (s.modHeater h f).heater k = s.heater k := at'_modAt_ne _ _ _ _ _ hk

/-! ### State.modGpi -/

@[simp] theorem State.modGpi_gpi (s : State) (i : Nat) (f : Gpi → Gpi) : (s.modGpi i f).gpi = modAt s.gpi i f := rfl

@[simp] theorem State.modGpi_pending (s : State) (i : Nat) (f : Gpi → Gpi) : (s.modGpi i f).pending = s.pending := rfl

@[simp] theorem State.modGpi_part (s : State) (i : Nat) (f : Gpi → Gpi) : (s.modGpi i f).part = s.part := rfl

@[simp] theorem State.modGpi_free (s : State) (i : Nat) (f : Gpi → Gpi) : (s.modGpi i f).free = s.free := rfl

@[simp] theorem State.modGpi_time (s : State) (i : Nat) (f : Gpi → Gpi) : (s.modGpi i f).time = s.time := rfl

@[simp] theorem State.modGpi_timeRuns (s : State) (i : Nat) (f : Gpi → Gpi) : (s.modGpi i f).timeRuns = s.timeRuns := rfl

@[simp] theorem State.modGpi_held (s : State) (i : Nat) (f : Gpi → Gpi) : (s.modGpi i f).held = s.held := rfl

@[simp] theorem State.modGpi_mci (s : State) (i : Nat) (f : Gpi → Gpi) : (s.modGpi i f).mci = s.mci := rfl

@[simp] theorem State.modGpi_sources (s : State) (i : Nat) (f : Gpi → Gpi) : (s.modGpi i f).sources = s.sources := rfl

@[simp] theorem State.modGpi_sync (s : State) (i : Nat) (f : Gpi → Gpi) : (s.modGpi i f).sync = s.sync := rfl

@[simp] theorem State.modGpi_links (s : State) (i : Nat) (f : Gpi → Gpi) : (s.modGpi i f).links = s.links := rfl

@[simp] theorem State.modGpi_nStop (s : State) (i : Nat) (f : Gpi → Gpi) : (s.modGpi i f).nStop = s.nStop := rfl

@[simp] theorem State.modGpi_rollback (s : State) (i : Nat) (f : Gpi → Gpi) : (s.modGpi i f).rollback = s.rollback := rfl

@[simp] theorem State.modGpi_jobSerial (s : State) (i : Nat) (f : Gpi → Gpi) : (s.modGpi i f).jobSerial = s.jobSerial := rfl

@[simp] theorem State.modGpi_stations (s : State) (i : Nat) (f : Gpi → Gpi) : (s.modGpi i f).stations = s.stations := rfl

@[simp] theorem State.modGpi_media (s : State) (i : Nat) (f : Gpi → Gpi) : (s.modGpi i f).media = s.media := rfl

@[simp] theorem State.modGpi_topUnmatched (s : State) (i : Nat) (f : Gpi → Gpi) :
    (s.modGpi i f).topUnmatched = s.topUnmatched := rfl

@[simp] theorem State.modGpi_bias (s : State) (i : Nat) (f : Gpi → Gpi) : (s.modGpi i f).bias = s.bias := rfl

@[simp] theorem State.modGpi_heaters (s : State) (i : Nat) (f : Gpi → Gpi) : (s.modGpi i f).heaters = s.heaters := rfl

@[simp] theorem State.modGpi_heads (s : State) (i : Nat) (f : Gpi → Gpi) : (s.modGpi i f).heads = s.heads := rfl

@[simp] theorem State.modGpi_forge (s : State) (i : Nat) (f : Gpi → Gpi) : (s.modGpi i f).forge = s.forge := rfl

@[simp] theorem State.modGpi_engine (s : State) (i : Nat) (f : Gpi → Gpi) : (s.modGpi i f).engine = s.engine := rfl

@[simp] theorem State.modGpi_cam (s : State) (i : Nat) (f : Gpi → Gpi) : (s.modGpi i f).cam = s.cam := rfl

@[simp] theorem State.modGpi_lag (s : State) (i : Nat) (f : Gpi → Gpi) : (s.modGpi i f).lag = s.lag := rfl

@[simp] theorem State.modGpi_dram (s : State) (i : Nat) (f : Gpi → Gpi) : (s.modGpi i f).dram = s.dram := rfl

@[simp] theorem State.modGpi_dma (s : State) (i : Nat) (f : Gpi → Gpi) : (s.modGpi i f).dma = s.dma := rfl

@[simp] theorem State.modGpi_bldc (s : State) (i : Nat) (f : Gpi → Gpi) : (s.modGpi i f).bldc = s.bldc := rfl

@[simp] theorem State.modGpi_motion (s : State) (i : Nat) (f : Gpi → Gpi) : (s.modGpi i f).motion = s.motion := rfl

@[simp] theorem State.modGpi_clk (s : State) (i : Nat) (f : Gpi → Gpi) : (s.modGpi i f).clk = s.clk := rfl

@[simp] theorem State.modGpi_therm (s : State) (i : Nat) (f : Gpi → Gpi) : (s.modGpi i f).therm = s.therm := rfl

@[simp] theorem State.modGpi_pwr (s : State) (i : Nat) (f : Gpi → Gpi) : (s.modGpi i f).pwr = s.pwr := rfl

@[simp] theorem State.modGpi_atoll (s : State) (i : Nat) (f : Gpi → Gpi) : (s.modGpi i f).atoll = s.atoll := rfl

@[simp] theorem State.modGpi_lamps (s : State) (i : Nat) (f : Gpi → Gpi) : (s.modGpi i f).lamps = s.lamps := rfl

@[simp] theorem State.modGpi_flt (s : State) (i : Nat) (f : Gpi → Gpi) : (s.modGpi i f).flt = s.flt := rfl

@[simp] theorem State.modGpi_otp (s : State) (i : Nat) (f : Gpi → Gpi) : (s.modGpi i f).otp = s.otp := rfl

@[simp] theorem State.modGpi_boot (s : State) (i : Nat) (f : Gpi → Gpi) : (s.modGpi i f).boot = s.boot := rfl

@[simp] theorem State.modGpi_nLinks (s : State) (i : Nat) (f : Gpi → Gpi) : (s.modGpi i f).nLinks = s.nLinks := rfl

@[simp] theorem State.modGpi_nHeads (s : State) (i : Nat) (f : Gpi → Gpi) : (s.modGpi i f).nHeads = s.nHeads := rfl

@[simp] theorem State.modGpi_now (s : State) (i : Nat) (f : Gpi → Gpi) : (s.modGpi i f).now = s.now := rfl

theorem State.modGpi_same (s : State) (i : Nat) (f : Gpi → Gpi) (h₀ : i < s.gpi.length) :
    (s.modGpi i f).gpiOf i = f (s.gpiOf i) := at'_modAt_same _ _ _ _ h₀

@[simp] theorem State.modGpi_ne (s : State) (i : Nat) (f : Gpi → Gpi) (k : Nat) (hk : i ≠ k) :
    (s.modGpi i f).gpiOf k = s.gpiOf k := at'_modAt_ne _ _ _ _ _ hk

/-! ### State.modLamp -/

@[simp] theorem State.modLamp_lamps (s : State) (i : Nat) (f : Lamp → Lamp) :
    (s.modLamp i f).lamps = modAt s.lamps i f := rfl

@[simp] theorem State.modLamp_pending (s : State) (i : Nat) (f : Lamp → Lamp) : (s.modLamp i f).pending = s.pending := rfl

@[simp] theorem State.modLamp_part (s : State) (i : Nat) (f : Lamp → Lamp) : (s.modLamp i f).part = s.part := rfl

@[simp] theorem State.modLamp_free (s : State) (i : Nat) (f : Lamp → Lamp) : (s.modLamp i f).free = s.free := rfl

@[simp] theorem State.modLamp_time (s : State) (i : Nat) (f : Lamp → Lamp) : (s.modLamp i f).time = s.time := rfl

@[simp] theorem State.modLamp_timeRuns (s : State) (i : Nat) (f : Lamp → Lamp) : (s.modLamp i f).timeRuns = s.timeRuns := rfl

@[simp] theorem State.modLamp_held (s : State) (i : Nat) (f : Lamp → Lamp) : (s.modLamp i f).held = s.held := rfl

@[simp] theorem State.modLamp_mci (s : State) (i : Nat) (f : Lamp → Lamp) : (s.modLamp i f).mci = s.mci := rfl

@[simp] theorem State.modLamp_sources (s : State) (i : Nat) (f : Lamp → Lamp) : (s.modLamp i f).sources = s.sources := rfl

@[simp] theorem State.modLamp_sync (s : State) (i : Nat) (f : Lamp → Lamp) : (s.modLamp i f).sync = s.sync := rfl

@[simp] theorem State.modLamp_links (s : State) (i : Nat) (f : Lamp → Lamp) : (s.modLamp i f).links = s.links := rfl

@[simp] theorem State.modLamp_nStop (s : State) (i : Nat) (f : Lamp → Lamp) : (s.modLamp i f).nStop = s.nStop := rfl

@[simp] theorem State.modLamp_rollback (s : State) (i : Nat) (f : Lamp → Lamp) : (s.modLamp i f).rollback = s.rollback := rfl

@[simp] theorem State.modLamp_jobSerial (s : State) (i : Nat) (f : Lamp → Lamp) :
    (s.modLamp i f).jobSerial = s.jobSerial := rfl

@[simp] theorem State.modLamp_stations (s : State) (i : Nat) (f : Lamp → Lamp) : (s.modLamp i f).stations = s.stations := rfl

@[simp] theorem State.modLamp_media (s : State) (i : Nat) (f : Lamp → Lamp) : (s.modLamp i f).media = s.media := rfl

@[simp] theorem State.modLamp_topUnmatched (s : State) (i : Nat) (f : Lamp → Lamp) :
    (s.modLamp i f).topUnmatched = s.topUnmatched := rfl

@[simp] theorem State.modLamp_gpi (s : State) (i : Nat) (f : Lamp → Lamp) : (s.modLamp i f).gpi = s.gpi := rfl

@[simp] theorem State.modLamp_bias (s : State) (i : Nat) (f : Lamp → Lamp) : (s.modLamp i f).bias = s.bias := rfl

@[simp] theorem State.modLamp_heaters (s : State) (i : Nat) (f : Lamp → Lamp) : (s.modLamp i f).heaters = s.heaters := rfl

@[simp] theorem State.modLamp_heads (s : State) (i : Nat) (f : Lamp → Lamp) : (s.modLamp i f).heads = s.heads := rfl

@[simp] theorem State.modLamp_forge (s : State) (i : Nat) (f : Lamp → Lamp) : (s.modLamp i f).forge = s.forge := rfl

@[simp] theorem State.modLamp_engine (s : State) (i : Nat) (f : Lamp → Lamp) : (s.modLamp i f).engine = s.engine := rfl

@[simp] theorem State.modLamp_cam (s : State) (i : Nat) (f : Lamp → Lamp) : (s.modLamp i f).cam = s.cam := rfl

@[simp] theorem State.modLamp_lag (s : State) (i : Nat) (f : Lamp → Lamp) : (s.modLamp i f).lag = s.lag := rfl

@[simp] theorem State.modLamp_dram (s : State) (i : Nat) (f : Lamp → Lamp) : (s.modLamp i f).dram = s.dram := rfl

@[simp] theorem State.modLamp_dma (s : State) (i : Nat) (f : Lamp → Lamp) : (s.modLamp i f).dma = s.dma := rfl

@[simp] theorem State.modLamp_bldc (s : State) (i : Nat) (f : Lamp → Lamp) : (s.modLamp i f).bldc = s.bldc := rfl

@[simp] theorem State.modLamp_motion (s : State) (i : Nat) (f : Lamp → Lamp) : (s.modLamp i f).motion = s.motion := rfl

@[simp] theorem State.modLamp_clk (s : State) (i : Nat) (f : Lamp → Lamp) : (s.modLamp i f).clk = s.clk := rfl

@[simp] theorem State.modLamp_therm (s : State) (i : Nat) (f : Lamp → Lamp) : (s.modLamp i f).therm = s.therm := rfl

@[simp] theorem State.modLamp_pwr (s : State) (i : Nat) (f : Lamp → Lamp) : (s.modLamp i f).pwr = s.pwr := rfl

@[simp] theorem State.modLamp_atoll (s : State) (i : Nat) (f : Lamp → Lamp) : (s.modLamp i f).atoll = s.atoll := rfl

@[simp] theorem State.modLamp_flt (s : State) (i : Nat) (f : Lamp → Lamp) : (s.modLamp i f).flt = s.flt := rfl

@[simp] theorem State.modLamp_otp (s : State) (i : Nat) (f : Lamp → Lamp) : (s.modLamp i f).otp = s.otp := rfl

@[simp] theorem State.modLamp_boot (s : State) (i : Nat) (f : Lamp → Lamp) : (s.modLamp i f).boot = s.boot := rfl

@[simp] theorem State.modLamp_nLinks (s : State) (i : Nat) (f : Lamp → Lamp) : (s.modLamp i f).nLinks = s.nLinks := rfl

@[simp] theorem State.modLamp_nHeads (s : State) (i : Nat) (f : Lamp → Lamp) : (s.modLamp i f).nHeads = s.nHeads := rfl

@[simp] theorem State.modLamp_now (s : State) (i : Nat) (f : Lamp → Lamp) : (s.modLamp i f).now = s.now := rfl

theorem State.modLamp_same (s : State) (i : Nat) (f : Lamp → Lamp) (h₀ : i < s.lamps.length) :
    (s.modLamp i f).lampOf i = f (s.lampOf i) := at'_modAt_same _ _ _ _ h₀

@[simp] theorem State.modLamp_ne (s : State) (i : Nat) (f : Lamp → Lamp) (k : Nat) (hk : i ≠ k) :
    (s.modLamp i f).lampOf k = s.lampOf k := at'_modAt_ne _ _ _ _ _ hk

/-! ### State.modBias -/

@[simp] theorem State.modBias_bias (s : State) (c : Nat) (f : Bias → Bias) : (s.modBias c f).bias = modAt s.bias c f := rfl

@[simp] theorem State.modBias_pending (s : State) (c : Nat) (f : Bias → Bias) : (s.modBias c f).pending = s.pending := rfl

@[simp] theorem State.modBias_part (s : State) (c : Nat) (f : Bias → Bias) : (s.modBias c f).part = s.part := rfl

@[simp] theorem State.modBias_free (s : State) (c : Nat) (f : Bias → Bias) : (s.modBias c f).free = s.free := rfl

@[simp] theorem State.modBias_time (s : State) (c : Nat) (f : Bias → Bias) : (s.modBias c f).time = s.time := rfl

@[simp] theorem State.modBias_timeRuns (s : State) (c : Nat) (f : Bias → Bias) : (s.modBias c f).timeRuns = s.timeRuns := rfl

@[simp] theorem State.modBias_held (s : State) (c : Nat) (f : Bias → Bias) : (s.modBias c f).held = s.held := rfl

@[simp] theorem State.modBias_mci (s : State) (c : Nat) (f : Bias → Bias) : (s.modBias c f).mci = s.mci := rfl

@[simp] theorem State.modBias_sources (s : State) (c : Nat) (f : Bias → Bias) : (s.modBias c f).sources = s.sources := rfl

@[simp] theorem State.modBias_sync (s : State) (c : Nat) (f : Bias → Bias) : (s.modBias c f).sync = s.sync := rfl

@[simp] theorem State.modBias_links (s : State) (c : Nat) (f : Bias → Bias) : (s.modBias c f).links = s.links := rfl

@[simp] theorem State.modBias_nStop (s : State) (c : Nat) (f : Bias → Bias) : (s.modBias c f).nStop = s.nStop := rfl

@[simp] theorem State.modBias_rollback (s : State) (c : Nat) (f : Bias → Bias) : (s.modBias c f).rollback = s.rollback := rfl

@[simp] theorem State.modBias_jobSerial (s : State) (c : Nat) (f : Bias → Bias) :
    (s.modBias c f).jobSerial = s.jobSerial := rfl

@[simp] theorem State.modBias_stations (s : State) (c : Nat) (f : Bias → Bias) : (s.modBias c f).stations = s.stations := rfl

@[simp] theorem State.modBias_media (s : State) (c : Nat) (f : Bias → Bias) : (s.modBias c f).media = s.media := rfl

@[simp] theorem State.modBias_topUnmatched (s : State) (c : Nat) (f : Bias → Bias) :
    (s.modBias c f).topUnmatched = s.topUnmatched := rfl

@[simp] theorem State.modBias_gpi (s : State) (c : Nat) (f : Bias → Bias) : (s.modBias c f).gpi = s.gpi := rfl

@[simp] theorem State.modBias_heaters (s : State) (c : Nat) (f : Bias → Bias) : (s.modBias c f).heaters = s.heaters := rfl

@[simp] theorem State.modBias_heads (s : State) (c : Nat) (f : Bias → Bias) : (s.modBias c f).heads = s.heads := rfl

@[simp] theorem State.modBias_forge (s : State) (c : Nat) (f : Bias → Bias) : (s.modBias c f).forge = s.forge := rfl

@[simp] theorem State.modBias_engine (s : State) (c : Nat) (f : Bias → Bias) : (s.modBias c f).engine = s.engine := rfl

@[simp] theorem State.modBias_cam (s : State) (c : Nat) (f : Bias → Bias) : (s.modBias c f).cam = s.cam := rfl

@[simp] theorem State.modBias_lag (s : State) (c : Nat) (f : Bias → Bias) : (s.modBias c f).lag = s.lag := rfl

@[simp] theorem State.modBias_dram (s : State) (c : Nat) (f : Bias → Bias) : (s.modBias c f).dram = s.dram := rfl

@[simp] theorem State.modBias_dma (s : State) (c : Nat) (f : Bias → Bias) : (s.modBias c f).dma = s.dma := rfl

@[simp] theorem State.modBias_bldc (s : State) (c : Nat) (f : Bias → Bias) : (s.modBias c f).bldc = s.bldc := rfl

@[simp] theorem State.modBias_motion (s : State) (c : Nat) (f : Bias → Bias) : (s.modBias c f).motion = s.motion := rfl

@[simp] theorem State.modBias_clk (s : State) (c : Nat) (f : Bias → Bias) : (s.modBias c f).clk = s.clk := rfl

@[simp] theorem State.modBias_therm (s : State) (c : Nat) (f : Bias → Bias) : (s.modBias c f).therm = s.therm := rfl

@[simp] theorem State.modBias_pwr (s : State) (c : Nat) (f : Bias → Bias) : (s.modBias c f).pwr = s.pwr := rfl

@[simp] theorem State.modBias_atoll (s : State) (c : Nat) (f : Bias → Bias) : (s.modBias c f).atoll = s.atoll := rfl

@[simp] theorem State.modBias_lamps (s : State) (c : Nat) (f : Bias → Bias) : (s.modBias c f).lamps = s.lamps := rfl

@[simp] theorem State.modBias_flt (s : State) (c : Nat) (f : Bias → Bias) : (s.modBias c f).flt = s.flt := rfl

@[simp] theorem State.modBias_otp (s : State) (c : Nat) (f : Bias → Bias) : (s.modBias c f).otp = s.otp := rfl

@[simp] theorem State.modBias_boot (s : State) (c : Nat) (f : Bias → Bias) : (s.modBias c f).boot = s.boot := rfl

@[simp] theorem State.modBias_nLinks (s : State) (c : Nat) (f : Bias → Bias) : (s.modBias c f).nLinks = s.nLinks := rfl

@[simp] theorem State.modBias_nHeads (s : State) (c : Nat) (f : Bias → Bias) : (s.modBias c f).nHeads = s.nHeads := rfl

@[simp] theorem State.modBias_now (s : State) (c : Nat) (f : Bias → Bias) : (s.modBias c f).now = s.now := rfl

theorem State.modBias_same (s : State) (c : Nat) (f : Bias → Bias) (h₀ : c < s.bias.length) :
    (s.modBias c f).biasOf c = f (s.biasOf c) := at'_modAt_same _ _ _ _ h₀

@[simp] theorem State.modBias_ne (s : State) (c : Nat) (f : Bias → Bias) (k : Nat) (hk : c ≠ k) :
    (s.modBias c f).biasOf k = s.biasOf k := at'_modAt_ne _ _ _ _ _ hk

/-! ### State.modAxis -/

@[simp] theorem State.modAxis_motion (s : State) (a : Nat) (f : Axis → Axis) :
    (s.modAxis a f).motion = modAt s.motion a f := rfl

@[simp] theorem State.modAxis_pending (s : State) (a : Nat) (f : Axis → Axis) : (s.modAxis a f).pending = s.pending := rfl

@[simp] theorem State.modAxis_part (s : State) (a : Nat) (f : Axis → Axis) : (s.modAxis a f).part = s.part := rfl

@[simp] theorem State.modAxis_free (s : State) (a : Nat) (f : Axis → Axis) : (s.modAxis a f).free = s.free := rfl

@[simp] theorem State.modAxis_time (s : State) (a : Nat) (f : Axis → Axis) : (s.modAxis a f).time = s.time := rfl

@[simp] theorem State.modAxis_timeRuns (s : State) (a : Nat) (f : Axis → Axis) : (s.modAxis a f).timeRuns = s.timeRuns := rfl

@[simp] theorem State.modAxis_held (s : State) (a : Nat) (f : Axis → Axis) : (s.modAxis a f).held = s.held := rfl

@[simp] theorem State.modAxis_mci (s : State) (a : Nat) (f : Axis → Axis) : (s.modAxis a f).mci = s.mci := rfl

@[simp] theorem State.modAxis_sources (s : State) (a : Nat) (f : Axis → Axis) : (s.modAxis a f).sources = s.sources := rfl

@[simp] theorem State.modAxis_sync (s : State) (a : Nat) (f : Axis → Axis) : (s.modAxis a f).sync = s.sync := rfl

@[simp] theorem State.modAxis_links (s : State) (a : Nat) (f : Axis → Axis) : (s.modAxis a f).links = s.links := rfl

@[simp] theorem State.modAxis_nStop (s : State) (a : Nat) (f : Axis → Axis) : (s.modAxis a f).nStop = s.nStop := rfl

@[simp] theorem State.modAxis_rollback (s : State) (a : Nat) (f : Axis → Axis) : (s.modAxis a f).rollback = s.rollback := rfl

@[simp] theorem State.modAxis_jobSerial (s : State) (a : Nat) (f : Axis → Axis) :
    (s.modAxis a f).jobSerial = s.jobSerial := rfl

@[simp] theorem State.modAxis_stations (s : State) (a : Nat) (f : Axis → Axis) : (s.modAxis a f).stations = s.stations := rfl

@[simp] theorem State.modAxis_media (s : State) (a : Nat) (f : Axis → Axis) : (s.modAxis a f).media = s.media := rfl

@[simp] theorem State.modAxis_topUnmatched (s : State) (a : Nat) (f : Axis → Axis) :
    (s.modAxis a f).topUnmatched = s.topUnmatched := rfl

@[simp] theorem State.modAxis_gpi (s : State) (a : Nat) (f : Axis → Axis) : (s.modAxis a f).gpi = s.gpi := rfl

@[simp] theorem State.modAxis_bias (s : State) (a : Nat) (f : Axis → Axis) : (s.modAxis a f).bias = s.bias := rfl

@[simp] theorem State.modAxis_heaters (s : State) (a : Nat) (f : Axis → Axis) : (s.modAxis a f).heaters = s.heaters := rfl

@[simp] theorem State.modAxis_heads (s : State) (a : Nat) (f : Axis → Axis) : (s.modAxis a f).heads = s.heads := rfl

@[simp] theorem State.modAxis_forge (s : State) (a : Nat) (f : Axis → Axis) : (s.modAxis a f).forge = s.forge := rfl

@[simp] theorem State.modAxis_engine (s : State) (a : Nat) (f : Axis → Axis) : (s.modAxis a f).engine = s.engine := rfl

@[simp] theorem State.modAxis_cam (s : State) (a : Nat) (f : Axis → Axis) : (s.modAxis a f).cam = s.cam := rfl

@[simp] theorem State.modAxis_lag (s : State) (a : Nat) (f : Axis → Axis) : (s.modAxis a f).lag = s.lag := rfl

@[simp] theorem State.modAxis_dram (s : State) (a : Nat) (f : Axis → Axis) : (s.modAxis a f).dram = s.dram := rfl

@[simp] theorem State.modAxis_dma (s : State) (a : Nat) (f : Axis → Axis) : (s.modAxis a f).dma = s.dma := rfl

@[simp] theorem State.modAxis_bldc (s : State) (a : Nat) (f : Axis → Axis) : (s.modAxis a f).bldc = s.bldc := rfl

@[simp] theorem State.modAxis_clk (s : State) (a : Nat) (f : Axis → Axis) : (s.modAxis a f).clk = s.clk := rfl

@[simp] theorem State.modAxis_therm (s : State) (a : Nat) (f : Axis → Axis) : (s.modAxis a f).therm = s.therm := rfl

@[simp] theorem State.modAxis_pwr (s : State) (a : Nat) (f : Axis → Axis) : (s.modAxis a f).pwr = s.pwr := rfl

@[simp] theorem State.modAxis_atoll (s : State) (a : Nat) (f : Axis → Axis) : (s.modAxis a f).atoll = s.atoll := rfl

@[simp] theorem State.modAxis_lamps (s : State) (a : Nat) (f : Axis → Axis) : (s.modAxis a f).lamps = s.lamps := rfl

@[simp] theorem State.modAxis_flt (s : State) (a : Nat) (f : Axis → Axis) : (s.modAxis a f).flt = s.flt := rfl

@[simp] theorem State.modAxis_otp (s : State) (a : Nat) (f : Axis → Axis) : (s.modAxis a f).otp = s.otp := rfl

@[simp] theorem State.modAxis_boot (s : State) (a : Nat) (f : Axis → Axis) : (s.modAxis a f).boot = s.boot := rfl

@[simp] theorem State.modAxis_nLinks (s : State) (a : Nat) (f : Axis → Axis) : (s.modAxis a f).nLinks = s.nLinks := rfl

@[simp] theorem State.modAxis_nHeads (s : State) (a : Nat) (f : Axis → Axis) : (s.modAxis a f).nHeads = s.nHeads := rfl

@[simp] theorem State.modAxis_now (s : State) (a : Nat) (f : Axis → Axis) : (s.modAxis a f).now = s.now := rfl

theorem State.modAxis_same (s : State) (a : Nat) (f : Axis → Axis) (h₀ : a < s.motion.length) :
    (s.modAxis a f).axis a = f (s.axis a) := at'_modAt_same _ _ _ _ h₀

@[simp] theorem State.modAxis_ne (s : State) (a : Nat) (f : Axis → Axis) (k : Nat) (hk : a ≠ k) :
    (s.modAxis a f).axis k = s.axis k := at'_modAt_ne _ _ _ _ _ hk

/-! ### State.modBox -/

@[simp] theorem State.modBox_boxes (s : State) (p : Nat) (f : Mailbox → Mailbox) :
    (s.modBox p f).mci.boxes = modAt s.mci.boxes p f := rfl

@[simp] theorem State.modBox_mci_mciMax (s : State) (p : Nat) (f : Mailbox → Mailbox) :
    (s.modBox p f).mci.mciMax = s.mci.mciMax := rfl

@[simp] theorem State.modBox_mci_inUse (s : State) (p : Nat) (f : Mailbox → Mailbox) :
    (s.modBox p f).mci.inUse = s.mci.inUse := rfl

@[simp] theorem State.modBox_mci_personality (s : State) (p : Nat) (f : Mailbox → Mailbox) :
    (s.modBox p f).mci.personality = s.mci.personality := rfl

@[simp] theorem State.modBox_mci_st (s : State) (p : Nat) (f : Mailbox → Mailbox) : (s.modBox p f).mci.st = s.mci.st := rfl

@[simp] theorem State.modBox_mci_irq (s : State) (p : Nat) (f : Mailbox → Mailbox) :
    (s.modBox p f).mci.irq = s.mci.irq := rfl

@[simp] theorem State.modBox_mci_slots (s : State) (p : Nat) (f : Mailbox → Mailbox) :
    (s.modBox p f).mci.slots = s.mci.slots := rfl

@[simp] theorem State.modBox_mci_msix (s : State) (p : Nat) (f : Mailbox → Mailbox) :
    (s.modBox p f).mci.msix = s.mci.msix := rfl

@[simp] theorem State.modBox_mci_pba (s : State) (p : Nat) (f : Mailbox → Mailbox) :
    (s.modBox p f).mci.pba = s.mci.pba := rfl

@[simp] theorem State.modBox_mci_msixOn (s : State) (p : Nat) (f : Mailbox → Mailbox) :
    (s.modBox p f).mci.msixOn = s.mci.msixOn := rfl

@[simp] theorem State.modBox_mci_funcMask (s : State) (p : Nat) (f : Mailbox → Mailbox) :
    (s.modBox p f).mci.funcMask = s.mci.funcMask := rfl

@[simp] theorem State.modBox_mci_sent (s : State) (p : Nat) (f : Mailbox → Mailbox) :
    (s.modBox p f).mci.sent = s.mci.sent := rfl

@[simp] theorem State.modBox_mci_urgBusy (s : State) (p : Nat) (f : Mailbox → Mailbox) :
    (s.modBox p f).mci.urgBusy = s.mci.urgBusy := rfl

@[simp] theorem State.modBox_mci_urgDone (s : State) (p : Nat) (f : Mailbox → Mailbox) :
    (s.modBox p f).mci.urgDone = s.mci.urgDone := rfl

@[simp] theorem State.modBox_mci_urgLast (s : State) (p : Nat) (f : Mailbox → Mailbox) :
    (s.modBox p f).mci.urgLast = s.mci.urgLast := rfl

@[simp] theorem State.modBox_mci_urgReply (s : State) (p : Nat) (f : Mailbox → Mailbox) :
    (s.modBox p f).mci.urgReply = s.mci.urgReply := rfl

@[simp] theorem State.modBox_mci_spiRead (s : State) (p : Nat) (f : Mailbox → Mailbox) :
    (s.modBox p f).mci.spiRead = s.mci.spiRead := rfl

@[simp] theorem State.modBox_mci_dispatched (s : State) (p : Nat) (f : Mailbox → Mailbox) :
    (s.modBox p f).mci.dispatched = s.mci.dispatched := rfl

@[simp] theorem State.modBox_mci_sessLast (s : State) (p : Nat) (f : Mailbox → Mailbox) :
    (s.modBox p f).mci.sessLast = s.mci.sessLast := rfl

@[simp] theorem State.modBox_mci_events (s : State) (p : Nat) (f : Mailbox → Mailbox) :
    (s.modBox p f).mci.events = s.mci.events := rfl

@[simp] theorem State.modBox_mci_eventSeq (s : State) (p : Nat) (f : Mailbox → Mailbox) :
    (s.modBox p f).mci.eventSeq = s.mci.eventSeq := rfl

@[simp] theorem State.modBox_mci_eventDrops (s : State) (p : Nat) (f : Mailbox → Mailbox) :
    (s.modBox p f).mci.eventDrops = s.mci.eventDrops := rfl

@[simp] theorem State.modBox_mci_vlog (s : State) (p : Nat) (f : Mailbox → Mailbox) :
    (s.modBox p f).mci.vlog = s.mci.vlog := rfl

@[simp] theorem State.modBox_mci_vcount (s : State) (p : Nat) (f : Mailbox → Mailbox) :
    (s.modBox p f).mci.vcount = s.mci.vcount := rfl

@[simp] theorem State.modBox_mci_vnext (s : State) (p : Nat) (f : Mailbox → Mailbox) :
    (s.modBox p f).mci.vnext = s.mci.vnext := rfl

@[simp] theorem State.modBox_mci_abortedJobs (s : State) (p : Nat) (f : Mailbox → Mailbox) :
    (s.modBox p f).mci.abortedJobs = s.mci.abortedJobs := rfl

@[simp] theorem State.modBox_mci_helloSince (s : State) (p : Nat) (f : Mailbox → Mailbox) :
    (s.modBox p f).mci.helloSince = s.mci.helloSince := rfl

@[simp] theorem State.modBox_mci_era (s : State) (p : Nat) (f : Mailbox → Mailbox) :
    (s.modBox p f).mci.era = s.mci.era := rfl

@[simp] theorem State.modBox_mci_orphans (s : State) (p : Nat) (f : Mailbox → Mailbox) :
    (s.modBox p f).mci.orphans = s.mci.orphans := rfl

@[simp] theorem State.modBox_mci_heldCompletions (s : State) (p : Nat) (f : Mailbox → Mailbox) :
    (s.modBox p f).mci.heldCompletions = s.mci.heldCompletions := rfl

@[simp] theorem State.modBox_mci_resetAt (s : State) (p : Nat) (f : Mailbox → Mailbox) :
    (s.modBox p f).mci.resetAt = s.mci.resetAt := rfl

@[simp] theorem State.modBox_pending (s : State) (p : Nat) (f : Mailbox → Mailbox) :
    (s.modBox p f).pending = s.pending := rfl

@[simp] theorem State.modBox_part (s : State) (p : Nat) (f : Mailbox → Mailbox) : (s.modBox p f).part = s.part := rfl

@[simp] theorem State.modBox_free (s : State) (p : Nat) (f : Mailbox → Mailbox) : (s.modBox p f).free = s.free := rfl

@[simp] theorem State.modBox_time (s : State) (p : Nat) (f : Mailbox → Mailbox) : (s.modBox p f).time = s.time := rfl

@[simp] theorem State.modBox_timeRuns (s : State) (p : Nat) (f : Mailbox → Mailbox) :
    (s.modBox p f).timeRuns = s.timeRuns := rfl

@[simp] theorem State.modBox_held (s : State) (p : Nat) (f : Mailbox → Mailbox) : (s.modBox p f).held = s.held := rfl

@[simp] theorem State.modBox_sources (s : State) (p : Nat) (f : Mailbox → Mailbox) :
    (s.modBox p f).sources = s.sources := rfl

@[simp] theorem State.modBox_sync (s : State) (p : Nat) (f : Mailbox → Mailbox) : (s.modBox p f).sync = s.sync := rfl

@[simp] theorem State.modBox_links (s : State) (p : Nat) (f : Mailbox → Mailbox) : (s.modBox p f).links = s.links := rfl

@[simp] theorem State.modBox_nStop (s : State) (p : Nat) (f : Mailbox → Mailbox) : (s.modBox p f).nStop = s.nStop := rfl

@[simp] theorem State.modBox_rollback (s : State) (p : Nat) (f : Mailbox → Mailbox) :
    (s.modBox p f).rollback = s.rollback := rfl

@[simp] theorem State.modBox_jobSerial (s : State) (p : Nat) (f : Mailbox → Mailbox) :
    (s.modBox p f).jobSerial = s.jobSerial := rfl

@[simp] theorem State.modBox_stations (s : State) (p : Nat) (f : Mailbox → Mailbox) :
    (s.modBox p f).stations = s.stations := rfl

@[simp] theorem State.modBox_media (s : State) (p : Nat) (f : Mailbox → Mailbox) : (s.modBox p f).media = s.media := rfl

@[simp] theorem State.modBox_topUnmatched (s : State) (p : Nat) (f : Mailbox → Mailbox) :
    (s.modBox p f).topUnmatched = s.topUnmatched := rfl

@[simp] theorem State.modBox_gpi (s : State) (p : Nat) (f : Mailbox → Mailbox) : (s.modBox p f).gpi = s.gpi := rfl

@[simp] theorem State.modBox_bias (s : State) (p : Nat) (f : Mailbox → Mailbox) : (s.modBox p f).bias = s.bias := rfl

@[simp] theorem State.modBox_heaters (s : State) (p : Nat) (f : Mailbox → Mailbox) :
    (s.modBox p f).heaters = s.heaters := rfl

@[simp] theorem State.modBox_heads (s : State) (p : Nat) (f : Mailbox → Mailbox) : (s.modBox p f).heads = s.heads := rfl

@[simp] theorem State.modBox_forge (s : State) (p : Nat) (f : Mailbox → Mailbox) : (s.modBox p f).forge = s.forge := rfl

@[simp] theorem State.modBox_engine (s : State) (p : Nat) (f : Mailbox → Mailbox) : (s.modBox p f).engine = s.engine := rfl

@[simp] theorem State.modBox_cam (s : State) (p : Nat) (f : Mailbox → Mailbox) : (s.modBox p f).cam = s.cam := rfl

@[simp] theorem State.modBox_lag (s : State) (p : Nat) (f : Mailbox → Mailbox) : (s.modBox p f).lag = s.lag := rfl

@[simp] theorem State.modBox_dram (s : State) (p : Nat) (f : Mailbox → Mailbox) : (s.modBox p f).dram = s.dram := rfl

@[simp] theorem State.modBox_dma (s : State) (p : Nat) (f : Mailbox → Mailbox) : (s.modBox p f).dma = s.dma := rfl

@[simp] theorem State.modBox_bldc (s : State) (p : Nat) (f : Mailbox → Mailbox) : (s.modBox p f).bldc = s.bldc := rfl

@[simp] theorem State.modBox_motion (s : State) (p : Nat) (f : Mailbox → Mailbox) : (s.modBox p f).motion = s.motion := rfl

@[simp] theorem State.modBox_clk (s : State) (p : Nat) (f : Mailbox → Mailbox) : (s.modBox p f).clk = s.clk := rfl

@[simp] theorem State.modBox_therm (s : State) (p : Nat) (f : Mailbox → Mailbox) : (s.modBox p f).therm = s.therm := rfl

@[simp] theorem State.modBox_pwr (s : State) (p : Nat) (f : Mailbox → Mailbox) : (s.modBox p f).pwr = s.pwr := rfl

@[simp] theorem State.modBox_atoll (s : State) (p : Nat) (f : Mailbox → Mailbox) : (s.modBox p f).atoll = s.atoll := rfl

@[simp] theorem State.modBox_lamps (s : State) (p : Nat) (f : Mailbox → Mailbox) : (s.modBox p f).lamps = s.lamps := rfl

@[simp] theorem State.modBox_flt (s : State) (p : Nat) (f : Mailbox → Mailbox) : (s.modBox p f).flt = s.flt := rfl

@[simp] theorem State.modBox_otp (s : State) (p : Nat) (f : Mailbox → Mailbox) : (s.modBox p f).otp = s.otp := rfl

@[simp] theorem State.modBox_boot (s : State) (p : Nat) (f : Mailbox → Mailbox) : (s.modBox p f).boot = s.boot := rfl

@[simp] theorem State.modBox_nLinks (s : State) (p : Nat) (f : Mailbox → Mailbox) : (s.modBox p f).nLinks = s.nLinks := rfl

@[simp] theorem State.modBox_nHeads (s : State) (p : Nat) (f : Mailbox → Mailbox) : (s.modBox p f).nHeads = s.nHeads := rfl

@[simp] theorem State.modBox_now (s : State) (p : Nat) (f : Mailbox → Mailbox) : (s.modBox p f).now = s.now := rfl

theorem State.modBox_same (s : State) (p : Nat) (f : Mailbox → Mailbox) (h₀ : p < s.mci.boxes.length) :
    (s.modBox p f).box p = f (s.box p) := at'_modAt_same _ _ _ _ h₀

@[simp] theorem State.modBox_ne (s : State) (p : Nat) (f : Mailbox → Mailbox) (k : Nat) (hk : p ≠ k) :
    (s.modBox p f).box k = s.box k := at'_modAt_ne _ _ _ _ _ hk

/-! ### State.modMotor -/

@[simp] theorem State.modMotor_motors (s : State) (m : Nat) (f : Motor → Motor) :
    (s.modMotor m f).bldc.motors = modAt s.bldc.motors m f := rfl

@[simp] theorem State.modMotor_bldc_buses (s : State) (m : Nat) (f : Motor → Motor) :
    (s.modMotor m f).bldc.buses = s.bldc.buses := rfl

@[simp] theorem State.modMotor_pending (s : State) (m : Nat) (f : Motor → Motor) :
    (s.modMotor m f).pending = s.pending := rfl

@[simp] theorem State.modMotor_part (s : State) (m : Nat) (f : Motor → Motor) : (s.modMotor m f).part = s.part := rfl

@[simp] theorem State.modMotor_free (s : State) (m : Nat) (f : Motor → Motor) : (s.modMotor m f).free = s.free := rfl

@[simp] theorem State.modMotor_time (s : State) (m : Nat) (f : Motor → Motor) : (s.modMotor m f).time = s.time := rfl

@[simp] theorem State.modMotor_timeRuns (s : State) (m : Nat) (f : Motor → Motor) :
    (s.modMotor m f).timeRuns = s.timeRuns := rfl

@[simp] theorem State.modMotor_held (s : State) (m : Nat) (f : Motor → Motor) : (s.modMotor m f).held = s.held := rfl

@[simp] theorem State.modMotor_mci (s : State) (m : Nat) (f : Motor → Motor) : (s.modMotor m f).mci = s.mci := rfl

@[simp] theorem State.modMotor_sources (s : State) (m : Nat) (f : Motor → Motor) :
    (s.modMotor m f).sources = s.sources := rfl

@[simp] theorem State.modMotor_sync (s : State) (m : Nat) (f : Motor → Motor) : (s.modMotor m f).sync = s.sync := rfl

@[simp] theorem State.modMotor_links (s : State) (m : Nat) (f : Motor → Motor) : (s.modMotor m f).links = s.links := rfl

@[simp] theorem State.modMotor_nStop (s : State) (m : Nat) (f : Motor → Motor) : (s.modMotor m f).nStop = s.nStop := rfl

@[simp] theorem State.modMotor_rollback (s : State) (m : Nat) (f : Motor → Motor) :
    (s.modMotor m f).rollback = s.rollback := rfl

@[simp] theorem State.modMotor_jobSerial (s : State) (m : Nat) (f : Motor → Motor) :
    (s.modMotor m f).jobSerial = s.jobSerial := rfl

@[simp] theorem State.modMotor_stations (s : State) (m : Nat) (f : Motor → Motor) :
    (s.modMotor m f).stations = s.stations := rfl

@[simp] theorem State.modMotor_media (s : State) (m : Nat) (f : Motor → Motor) : (s.modMotor m f).media = s.media := rfl

@[simp] theorem State.modMotor_topUnmatched (s : State) (m : Nat) (f : Motor → Motor) :
    (s.modMotor m f).topUnmatched = s.topUnmatched := rfl

@[simp] theorem State.modMotor_gpi (s : State) (m : Nat) (f : Motor → Motor) : (s.modMotor m f).gpi = s.gpi := rfl

@[simp] theorem State.modMotor_bias (s : State) (m : Nat) (f : Motor → Motor) : (s.modMotor m f).bias = s.bias := rfl

@[simp] theorem State.modMotor_heaters (s : State) (m : Nat) (f : Motor → Motor) :
    (s.modMotor m f).heaters = s.heaters := rfl

@[simp] theorem State.modMotor_heads (s : State) (m : Nat) (f : Motor → Motor) : (s.modMotor m f).heads = s.heads := rfl

@[simp] theorem State.modMotor_forge (s : State) (m : Nat) (f : Motor → Motor) : (s.modMotor m f).forge = s.forge := rfl

@[simp] theorem State.modMotor_engine (s : State) (m : Nat) (f : Motor → Motor) : (s.modMotor m f).engine = s.engine := rfl

@[simp] theorem State.modMotor_cam (s : State) (m : Nat) (f : Motor → Motor) : (s.modMotor m f).cam = s.cam := rfl

@[simp] theorem State.modMotor_lag (s : State) (m : Nat) (f : Motor → Motor) : (s.modMotor m f).lag = s.lag := rfl

@[simp] theorem State.modMotor_dram (s : State) (m : Nat) (f : Motor → Motor) : (s.modMotor m f).dram = s.dram := rfl

@[simp] theorem State.modMotor_dma (s : State) (m : Nat) (f : Motor → Motor) : (s.modMotor m f).dma = s.dma := rfl

@[simp] theorem State.modMotor_motion (s : State) (m : Nat) (f : Motor → Motor) : (s.modMotor m f).motion = s.motion := rfl

@[simp] theorem State.modMotor_clk (s : State) (m : Nat) (f : Motor → Motor) : (s.modMotor m f).clk = s.clk := rfl

@[simp] theorem State.modMotor_therm (s : State) (m : Nat) (f : Motor → Motor) : (s.modMotor m f).therm = s.therm := rfl

@[simp] theorem State.modMotor_pwr (s : State) (m : Nat) (f : Motor → Motor) : (s.modMotor m f).pwr = s.pwr := rfl

@[simp] theorem State.modMotor_atoll (s : State) (m : Nat) (f : Motor → Motor) : (s.modMotor m f).atoll = s.atoll := rfl

@[simp] theorem State.modMotor_lamps (s : State) (m : Nat) (f : Motor → Motor) : (s.modMotor m f).lamps = s.lamps := rfl

@[simp] theorem State.modMotor_flt (s : State) (m : Nat) (f : Motor → Motor) : (s.modMotor m f).flt = s.flt := rfl

@[simp] theorem State.modMotor_otp (s : State) (m : Nat) (f : Motor → Motor) : (s.modMotor m f).otp = s.otp := rfl

@[simp] theorem State.modMotor_boot (s : State) (m : Nat) (f : Motor → Motor) : (s.modMotor m f).boot = s.boot := rfl

@[simp] theorem State.modMotor_nLinks (s : State) (m : Nat) (f : Motor → Motor) : (s.modMotor m f).nLinks = s.nLinks := rfl

@[simp] theorem State.modMotor_nHeads (s : State) (m : Nat) (f : Motor → Motor) : (s.modMotor m f).nHeads = s.nHeads := rfl

@[simp] theorem State.modMotor_now (s : State) (m : Nat) (f : Motor → Motor) : (s.modMotor m f).now = s.now := rfl

theorem State.modMotor_same (s : State) (m : Nat) (f : Motor → Motor) (h₀ : m < s.bldc.motors.length) :
    (s.modMotor m f).motor m = f (s.motor m) := at'_modAt_same _ _ _ _ h₀

@[simp] theorem State.modMotor_ne (s : State) (m : Nat) (f : Motor → Motor) (k : Nat) (hk : m ≠ k) :
    (s.modMotor m f).motor k = s.motor k := at'_modAt_ne _ _ _ _ _ hk

/-! ### State.modBus -/

@[simp] theorem State.modBus_buses (s : State) (g : Nat) (f : MotorBus → MotorBus) :
    (s.modBus g f).bldc.buses = modAt s.bldc.buses g f := rfl

@[simp] theorem State.modBus_bldc_motors (s : State) (g : Nat) (f : MotorBus → MotorBus) :
    (s.modBus g f).bldc.motors = s.bldc.motors := rfl

@[simp] theorem State.modBus_pending (s : State) (g : Nat) (f : MotorBus → MotorBus) :
    (s.modBus g f).pending = s.pending := rfl

@[simp] theorem State.modBus_part (s : State) (g : Nat) (f : MotorBus → MotorBus) : (s.modBus g f).part = s.part := rfl

@[simp] theorem State.modBus_free (s : State) (g : Nat) (f : MotorBus → MotorBus) : (s.modBus g f).free = s.free := rfl

@[simp] theorem State.modBus_time (s : State) (g : Nat) (f : MotorBus → MotorBus) : (s.modBus g f).time = s.time := rfl

@[simp] theorem State.modBus_timeRuns (s : State) (g : Nat) (f : MotorBus → MotorBus) :
    (s.modBus g f).timeRuns = s.timeRuns := rfl

@[simp] theorem State.modBus_held (s : State) (g : Nat) (f : MotorBus → MotorBus) : (s.modBus g f).held = s.held := rfl

@[simp] theorem State.modBus_mci (s : State) (g : Nat) (f : MotorBus → MotorBus) : (s.modBus g f).mci = s.mci := rfl

@[simp] theorem State.modBus_sources (s : State) (g : Nat) (f : MotorBus → MotorBus) :
    (s.modBus g f).sources = s.sources := rfl

@[simp] theorem State.modBus_sync (s : State) (g : Nat) (f : MotorBus → MotorBus) : (s.modBus g f).sync = s.sync := rfl

@[simp] theorem State.modBus_links (s : State) (g : Nat) (f : MotorBus → MotorBus) : (s.modBus g f).links = s.links := rfl

@[simp] theorem State.modBus_nStop (s : State) (g : Nat) (f : MotorBus → MotorBus) : (s.modBus g f).nStop = s.nStop := rfl

@[simp] theorem State.modBus_rollback (s : State) (g : Nat) (f : MotorBus → MotorBus) :
    (s.modBus g f).rollback = s.rollback := rfl

@[simp] theorem State.modBus_jobSerial (s : State) (g : Nat) (f : MotorBus → MotorBus) :
    (s.modBus g f).jobSerial = s.jobSerial := rfl

@[simp] theorem State.modBus_stations (s : State) (g : Nat) (f : MotorBus → MotorBus) :
    (s.modBus g f).stations = s.stations := rfl

@[simp] theorem State.modBus_media (s : State) (g : Nat) (f : MotorBus → MotorBus) : (s.modBus g f).media = s.media := rfl

@[simp] theorem State.modBus_topUnmatched (s : State) (g : Nat) (f : MotorBus → MotorBus) :
    (s.modBus g f).topUnmatched = s.topUnmatched := rfl

@[simp] theorem State.modBus_gpi (s : State) (g : Nat) (f : MotorBus → MotorBus) : (s.modBus g f).gpi = s.gpi := rfl

@[simp] theorem State.modBus_bias (s : State) (g : Nat) (f : MotorBus → MotorBus) : (s.modBus g f).bias = s.bias := rfl

@[simp] theorem State.modBus_heaters (s : State) (g : Nat) (f : MotorBus → MotorBus) :
    (s.modBus g f).heaters = s.heaters := rfl

@[simp] theorem State.modBus_heads (s : State) (g : Nat) (f : MotorBus → MotorBus) : (s.modBus g f).heads = s.heads := rfl

@[simp] theorem State.modBus_forge (s : State) (g : Nat) (f : MotorBus → MotorBus) : (s.modBus g f).forge = s.forge := rfl

@[simp] theorem State.modBus_engine (s : State) (g : Nat) (f : MotorBus → MotorBus) : (s.modBus g f).engine = s.engine := rfl

@[simp] theorem State.modBus_cam (s : State) (g : Nat) (f : MotorBus → MotorBus) : (s.modBus g f).cam = s.cam := rfl

@[simp] theorem State.modBus_lag (s : State) (g : Nat) (f : MotorBus → MotorBus) : (s.modBus g f).lag = s.lag := rfl

@[simp] theorem State.modBus_dram (s : State) (g : Nat) (f : MotorBus → MotorBus) : (s.modBus g f).dram = s.dram := rfl

@[simp] theorem State.modBus_dma (s : State) (g : Nat) (f : MotorBus → MotorBus) : (s.modBus g f).dma = s.dma := rfl

@[simp] theorem State.modBus_motion (s : State) (g : Nat) (f : MotorBus → MotorBus) : (s.modBus g f).motion = s.motion := rfl

@[simp] theorem State.modBus_clk (s : State) (g : Nat) (f : MotorBus → MotorBus) : (s.modBus g f).clk = s.clk := rfl

@[simp] theorem State.modBus_therm (s : State) (g : Nat) (f : MotorBus → MotorBus) : (s.modBus g f).therm = s.therm := rfl

@[simp] theorem State.modBus_pwr (s : State) (g : Nat) (f : MotorBus → MotorBus) : (s.modBus g f).pwr = s.pwr := rfl

@[simp] theorem State.modBus_atoll (s : State) (g : Nat) (f : MotorBus → MotorBus) : (s.modBus g f).atoll = s.atoll := rfl

@[simp] theorem State.modBus_lamps (s : State) (g : Nat) (f : MotorBus → MotorBus) : (s.modBus g f).lamps = s.lamps := rfl

@[simp] theorem State.modBus_flt (s : State) (g : Nat) (f : MotorBus → MotorBus) : (s.modBus g f).flt = s.flt := rfl

@[simp] theorem State.modBus_otp (s : State) (g : Nat) (f : MotorBus → MotorBus) : (s.modBus g f).otp = s.otp := rfl

@[simp] theorem State.modBus_boot (s : State) (g : Nat) (f : MotorBus → MotorBus) : (s.modBus g f).boot = s.boot := rfl

@[simp] theorem State.modBus_nLinks (s : State) (g : Nat) (f : MotorBus → MotorBus) : (s.modBus g f).nLinks = s.nLinks := rfl

@[simp] theorem State.modBus_nHeads (s : State) (g : Nat) (f : MotorBus → MotorBus) : (s.modBus g f).nHeads = s.nHeads := rfl

@[simp] theorem State.modBus_now (s : State) (g : Nat) (f : MotorBus → MotorBus) : (s.modBus g f).now = s.now := rfl

theorem State.modBus_same (s : State) (g : Nat) (f : MotorBus → MotorBus) (h₀ : g < s.bldc.buses.length) :
    (s.modBus g f).bus g = f (s.bus g) := at'_modAt_same _ _ _ _ h₀

@[simp] theorem State.modBus_ne (s : State) (g : Nat) (f : MotorBus → MotorBus) (k : Nat) (hk : g ≠ k) :
    (s.modBus g f).bus k = s.bus k := at'_modAt_ne _ _ _ _ _ hk

/-! ### State.modStream -/

@[simp] theorem State.modStream_streams (s : State) (i : Nat) (f : Stream → Stream) :
    (s.modStream i f).cam.streams = modAt s.cam.streams i f := rfl

@[simp] theorem State.modStream_cam_ports (s : State) (i : Nat) (f : Stream → Stream) :
    (s.modStream i f).cam.ports = s.cam.ports := rfl

@[simp] theorem State.modStream_cam_busy (s : State) (i : Nat) (f : Stream → Stream) :
    (s.modStream i f).cam.busy = s.cam.busy := rfl

@[simp] theorem State.modStream_cam_served (s : State) (i : Nat) (f : Stream → Stream) :
    (s.modStream i f).cam.served = s.cam.served := rfl

@[simp] theorem State.modStream_cam_hstEn (s : State) (i : Nat) (f : Stream → Stream) :
    (s.modStream i f).cam.hstEn = s.cam.hstEn := rfl

@[simp] theorem State.modStream_cam_hstStream (s : State) (i : Nat) (f : Stream → Stream) :
    (s.modStream i f).cam.hstStream = s.cam.hstStream := rfl

@[simp] theorem State.modStream_cam_hstReady (s : State) (i : Nat) (f : Stream → Stream) :
    (s.modStream i f).cam.hstReady = s.cam.hstReady := rfl

@[simp] theorem State.modStream_cam_hstFlagged (s : State) (i : Nat) (f : Stream → Stream) :
    (s.modStream i f).cam.hstFlagged = s.cam.hstFlagged := rfl

@[simp] theorem State.modStream_cam_hstSkipped (s : State) (i : Nat) (f : Stream → Stream) :
    (s.modStream i f).cam.hstSkipped = s.cam.hstSkipped := rfl

@[simp] theorem State.modStream_cam_hstTotal (s : State) (i : Nat) (f : Stream → Stream) :
    (s.modStream i f).cam.hstTotal = s.cam.hstTotal := rfl

@[simp] theorem State.modStream_cam_hstBins (s : State) (i : Nat) (f : Stream → Stream) :
    (s.modStream i f).cam.hstBins = s.cam.hstBins := rfl

@[simp] theorem State.modStream_pending (s : State) (i : Nat) (f : Stream → Stream) :
    (s.modStream i f).pending = s.pending := rfl

@[simp] theorem State.modStream_part (s : State) (i : Nat) (f : Stream → Stream) : (s.modStream i f).part = s.part := rfl

@[simp] theorem State.modStream_free (s : State) (i : Nat) (f : Stream → Stream) : (s.modStream i f).free = s.free := rfl

@[simp] theorem State.modStream_time (s : State) (i : Nat) (f : Stream → Stream) : (s.modStream i f).time = s.time := rfl

@[simp] theorem State.modStream_timeRuns (s : State) (i : Nat) (f : Stream → Stream) :
    (s.modStream i f).timeRuns = s.timeRuns := rfl

@[simp] theorem State.modStream_held (s : State) (i : Nat) (f : Stream → Stream) : (s.modStream i f).held = s.held := rfl

@[simp] theorem State.modStream_mci (s : State) (i : Nat) (f : Stream → Stream) : (s.modStream i f).mci = s.mci := rfl

@[simp] theorem State.modStream_sources (s : State) (i : Nat) (f : Stream → Stream) :
    (s.modStream i f).sources = s.sources := rfl

@[simp] theorem State.modStream_sync (s : State) (i : Nat) (f : Stream → Stream) : (s.modStream i f).sync = s.sync := rfl

@[simp] theorem State.modStream_links (s : State) (i : Nat) (f : Stream → Stream) : (s.modStream i f).links = s.links := rfl

@[simp] theorem State.modStream_nStop (s : State) (i : Nat) (f : Stream → Stream) : (s.modStream i f).nStop = s.nStop := rfl

@[simp] theorem State.modStream_rollback (s : State) (i : Nat) (f : Stream → Stream) :
    (s.modStream i f).rollback = s.rollback := rfl

@[simp] theorem State.modStream_jobSerial (s : State) (i : Nat) (f : Stream → Stream) :
    (s.modStream i f).jobSerial = s.jobSerial := rfl

@[simp] theorem State.modStream_stations (s : State) (i : Nat) (f : Stream → Stream) :
    (s.modStream i f).stations = s.stations := rfl

@[simp] theorem State.modStream_media (s : State) (i : Nat) (f : Stream → Stream) : (s.modStream i f).media = s.media := rfl

@[simp] theorem State.modStream_topUnmatched (s : State) (i : Nat) (f : Stream → Stream) :
    (s.modStream i f).topUnmatched = s.topUnmatched := rfl

@[simp] theorem State.modStream_gpi (s : State) (i : Nat) (f : Stream → Stream) : (s.modStream i f).gpi = s.gpi := rfl

@[simp] theorem State.modStream_bias (s : State) (i : Nat) (f : Stream → Stream) : (s.modStream i f).bias = s.bias := rfl

@[simp] theorem State.modStream_heaters (s : State) (i : Nat) (f : Stream → Stream) :
    (s.modStream i f).heaters = s.heaters := rfl

@[simp] theorem State.modStream_heads (s : State) (i : Nat) (f : Stream → Stream) : (s.modStream i f).heads = s.heads := rfl

@[simp] theorem State.modStream_forge (s : State) (i : Nat) (f : Stream → Stream) : (s.modStream i f).forge = s.forge := rfl

@[simp] theorem State.modStream_engine (s : State) (i : Nat) (f : Stream → Stream) :
    (s.modStream i f).engine = s.engine := rfl

@[simp] theorem State.modStream_lag (s : State) (i : Nat) (f : Stream → Stream) : (s.modStream i f).lag = s.lag := rfl

@[simp] theorem State.modStream_dram (s : State) (i : Nat) (f : Stream → Stream) : (s.modStream i f).dram = s.dram := rfl

@[simp] theorem State.modStream_dma (s : State) (i : Nat) (f : Stream → Stream) : (s.modStream i f).dma = s.dma := rfl

@[simp] theorem State.modStream_bldc (s : State) (i : Nat) (f : Stream → Stream) : (s.modStream i f).bldc = s.bldc := rfl

@[simp] theorem State.modStream_motion (s : State) (i : Nat) (f : Stream → Stream) :
    (s.modStream i f).motion = s.motion := rfl

@[simp] theorem State.modStream_clk (s : State) (i : Nat) (f : Stream → Stream) : (s.modStream i f).clk = s.clk := rfl

@[simp] theorem State.modStream_therm (s : State) (i : Nat) (f : Stream → Stream) : (s.modStream i f).therm = s.therm := rfl

@[simp] theorem State.modStream_pwr (s : State) (i : Nat) (f : Stream → Stream) : (s.modStream i f).pwr = s.pwr := rfl

@[simp] theorem State.modStream_atoll (s : State) (i : Nat) (f : Stream → Stream) : (s.modStream i f).atoll = s.atoll := rfl

@[simp] theorem State.modStream_lamps (s : State) (i : Nat) (f : Stream → Stream) : (s.modStream i f).lamps = s.lamps := rfl

@[simp] theorem State.modStream_flt (s : State) (i : Nat) (f : Stream → Stream) : (s.modStream i f).flt = s.flt := rfl

@[simp] theorem State.modStream_otp (s : State) (i : Nat) (f : Stream → Stream) : (s.modStream i f).otp = s.otp := rfl

@[simp] theorem State.modStream_boot (s : State) (i : Nat) (f : Stream → Stream) : (s.modStream i f).boot = s.boot := rfl

@[simp] theorem State.modStream_nLinks (s : State) (i : Nat) (f : Stream → Stream) :
    (s.modStream i f).nLinks = s.nLinks := rfl

@[simp] theorem State.modStream_nHeads (s : State) (i : Nat) (f : Stream → Stream) :
    (s.modStream i f).nHeads = s.nHeads := rfl

@[simp] theorem State.modStream_now (s : State) (i : Nat) (f : Stream → Stream) : (s.modStream i f).now = s.now := rfl

theorem State.modStream_same (s : State) (i : Nat) (f : Stream → Stream) (h₀ : i < s.cam.streams.length) :
    (s.modStream i f).stream i = f (s.stream i) := at'_modAt_same _ _ _ _ h₀

@[simp] theorem State.modStream_ne (s : State) (i : Nat) (f : Stream → Stream) (k : Nat) (hk : i ≠ k) :
    (s.modStream i f).stream k = s.stream k := at'_modAt_ne _ _ _ _ _ hk

/-! ### State.modPort -/

@[simp] theorem State.modPort_ports (s : State) (i : Nat) (f : CamPort → CamPort) :
    (s.modPort i f).cam.ports = modAt s.cam.ports i f := rfl

@[simp] theorem State.modPort_cam_streams (s : State) (i : Nat) (f : CamPort → CamPort) :
    (s.modPort i f).cam.streams = s.cam.streams := rfl

@[simp] theorem State.modPort_cam_busy (s : State) (i : Nat) (f : CamPort → CamPort) :
    (s.modPort i f).cam.busy = s.cam.busy := rfl

@[simp] theorem State.modPort_cam_served (s : State) (i : Nat) (f : CamPort → CamPort) :
    (s.modPort i f).cam.served = s.cam.served := rfl

@[simp] theorem State.modPort_cam_hstEn (s : State) (i : Nat) (f : CamPort → CamPort) :
    (s.modPort i f).cam.hstEn = s.cam.hstEn := rfl

@[simp] theorem State.modPort_cam_hstStream (s : State) (i : Nat) (f : CamPort → CamPort) :
    (s.modPort i f).cam.hstStream = s.cam.hstStream := rfl

@[simp] theorem State.modPort_cam_hstReady (s : State) (i : Nat) (f : CamPort → CamPort) :
    (s.modPort i f).cam.hstReady = s.cam.hstReady := rfl

@[simp] theorem State.modPort_cam_hstFlagged (s : State) (i : Nat) (f : CamPort → CamPort) :
    (s.modPort i f).cam.hstFlagged = s.cam.hstFlagged := rfl

@[simp] theorem State.modPort_cam_hstSkipped (s : State) (i : Nat) (f : CamPort → CamPort) :
    (s.modPort i f).cam.hstSkipped = s.cam.hstSkipped := rfl

@[simp] theorem State.modPort_cam_hstTotal (s : State) (i : Nat) (f : CamPort → CamPort) :
    (s.modPort i f).cam.hstTotal = s.cam.hstTotal := rfl

@[simp] theorem State.modPort_cam_hstBins (s : State) (i : Nat) (f : CamPort → CamPort) :
    (s.modPort i f).cam.hstBins = s.cam.hstBins := rfl

@[simp] theorem State.modPort_pending (s : State) (i : Nat) (f : CamPort → CamPort) :
    (s.modPort i f).pending = s.pending := rfl

@[simp] theorem State.modPort_part (s : State) (i : Nat) (f : CamPort → CamPort) : (s.modPort i f).part = s.part := rfl

@[simp] theorem State.modPort_free (s : State) (i : Nat) (f : CamPort → CamPort) : (s.modPort i f).free = s.free := rfl

@[simp] theorem State.modPort_time (s : State) (i : Nat) (f : CamPort → CamPort) : (s.modPort i f).time = s.time := rfl

@[simp] theorem State.modPort_timeRuns (s : State) (i : Nat) (f : CamPort → CamPort) :
    (s.modPort i f).timeRuns = s.timeRuns := rfl

@[simp] theorem State.modPort_held (s : State) (i : Nat) (f : CamPort → CamPort) : (s.modPort i f).held = s.held := rfl

@[simp] theorem State.modPort_mci (s : State) (i : Nat) (f : CamPort → CamPort) : (s.modPort i f).mci = s.mci := rfl

@[simp] theorem State.modPort_sources (s : State) (i : Nat) (f : CamPort → CamPort) :
    (s.modPort i f).sources = s.sources := rfl

@[simp] theorem State.modPort_sync (s : State) (i : Nat) (f : CamPort → CamPort) : (s.modPort i f).sync = s.sync := rfl

@[simp] theorem State.modPort_links (s : State) (i : Nat) (f : CamPort → CamPort) : (s.modPort i f).links = s.links := rfl

@[simp] theorem State.modPort_nStop (s : State) (i : Nat) (f : CamPort → CamPort) : (s.modPort i f).nStop = s.nStop := rfl

@[simp] theorem State.modPort_rollback (s : State) (i : Nat) (f : CamPort → CamPort) :
    (s.modPort i f).rollback = s.rollback := rfl

@[simp] theorem State.modPort_jobSerial (s : State) (i : Nat) (f : CamPort → CamPort) :
    (s.modPort i f).jobSerial = s.jobSerial := rfl

@[simp] theorem State.modPort_stations (s : State) (i : Nat) (f : CamPort → CamPort) :
    (s.modPort i f).stations = s.stations := rfl

@[simp] theorem State.modPort_media (s : State) (i : Nat) (f : CamPort → CamPort) : (s.modPort i f).media = s.media := rfl

@[simp] theorem State.modPort_topUnmatched (s : State) (i : Nat) (f : CamPort → CamPort) :
    (s.modPort i f).topUnmatched = s.topUnmatched := rfl

@[simp] theorem State.modPort_gpi (s : State) (i : Nat) (f : CamPort → CamPort) : (s.modPort i f).gpi = s.gpi := rfl

@[simp] theorem State.modPort_bias (s : State) (i : Nat) (f : CamPort → CamPort) : (s.modPort i f).bias = s.bias := rfl

@[simp] theorem State.modPort_heaters (s : State) (i : Nat) (f : CamPort → CamPort) :
    (s.modPort i f).heaters = s.heaters := rfl

@[simp] theorem State.modPort_heads (s : State) (i : Nat) (f : CamPort → CamPort) : (s.modPort i f).heads = s.heads := rfl

@[simp] theorem State.modPort_forge (s : State) (i : Nat) (f : CamPort → CamPort) : (s.modPort i f).forge = s.forge := rfl

@[simp] theorem State.modPort_engine (s : State) (i : Nat) (f : CamPort → CamPort) : (s.modPort i f).engine = s.engine := rfl

@[simp] theorem State.modPort_lag (s : State) (i : Nat) (f : CamPort → CamPort) : (s.modPort i f).lag = s.lag := rfl

@[simp] theorem State.modPort_dram (s : State) (i : Nat) (f : CamPort → CamPort) : (s.modPort i f).dram = s.dram := rfl

@[simp] theorem State.modPort_dma (s : State) (i : Nat) (f : CamPort → CamPort) : (s.modPort i f).dma = s.dma := rfl

@[simp] theorem State.modPort_bldc (s : State) (i : Nat) (f : CamPort → CamPort) : (s.modPort i f).bldc = s.bldc := rfl

@[simp] theorem State.modPort_motion (s : State) (i : Nat) (f : CamPort → CamPort) : (s.modPort i f).motion = s.motion := rfl

@[simp] theorem State.modPort_clk (s : State) (i : Nat) (f : CamPort → CamPort) : (s.modPort i f).clk = s.clk := rfl

@[simp] theorem State.modPort_therm (s : State) (i : Nat) (f : CamPort → CamPort) : (s.modPort i f).therm = s.therm := rfl

@[simp] theorem State.modPort_pwr (s : State) (i : Nat) (f : CamPort → CamPort) : (s.modPort i f).pwr = s.pwr := rfl

@[simp] theorem State.modPort_atoll (s : State) (i : Nat) (f : CamPort → CamPort) : (s.modPort i f).atoll = s.atoll := rfl

@[simp] theorem State.modPort_lamps (s : State) (i : Nat) (f : CamPort → CamPort) : (s.modPort i f).lamps = s.lamps := rfl

@[simp] theorem State.modPort_flt (s : State) (i : Nat) (f : CamPort → CamPort) : (s.modPort i f).flt = s.flt := rfl

@[simp] theorem State.modPort_otp (s : State) (i : Nat) (f : CamPort → CamPort) : (s.modPort i f).otp = s.otp := rfl

@[simp] theorem State.modPort_boot (s : State) (i : Nat) (f : CamPort → CamPort) : (s.modPort i f).boot = s.boot := rfl

@[simp] theorem State.modPort_nLinks (s : State) (i : Nat) (f : CamPort → CamPort) : (s.modPort i f).nLinks = s.nLinks := rfl

@[simp] theorem State.modPort_nHeads (s : State) (i : Nat) (f : CamPort → CamPort) : (s.modPort i f).nHeads = s.nHeads := rfl

@[simp] theorem State.modPort_now (s : State) (i : Nat) (f : CamPort → CamPort) : (s.modPort i f).now = s.now := rfl

theorem State.modPort_same (s : State) (i : Nat) (f : CamPort → CamPort) (h₀ : i < s.cam.ports.length) :
    (s.modPort i f).port i = f (s.port i) := at'_modAt_same _ _ _ _ h₀

@[simp] theorem State.modPort_ne (s : State) (i : Nat) (f : CamPort → CamPort) (k : Nat) (hk : i ≠ k) :
    (s.modPort i f).port k = s.port k := at'_modAt_ne _ _ _ _ _ hk

/-! ### State.modSynth -/

@[simp] theorem State.modSynth_synths (s : State) (i : Nat) (f : Synth → Synth) :
    (s.modSynth i f).clk.synths = modAt s.clk.synths i f := rfl

@[simp] theorem State.modSynth_clk_refIn (s : State) (i : Nat) (f : Synth → Synth) :
    (s.modSynth i f).clk.refIn = s.clk.refIn := rfl

@[simp] theorem State.modSynth_clk_locked (s : State) (i : Nat) (f : Synth → Synth) :
    (s.modSynth i f).clk.locked = s.clk.locked := rfl

@[simp] theorem State.modSynth_clk_included (s : State) (i : Nat) (f : Synth → Synth) :
    (s.modSynth i f).clk.included = s.clk.included := rfl

@[simp] theorem State.modSynth_clk_includedAt (s : State) (i : Nat) (f : Synth → Synth) :
    (s.modSynth i f).clk.includedAt = s.clk.includedAt := rfl

@[simp] theorem State.modSynth_clk_senseMv (s : State) (i : Nat) (f : Synth → Synth) :
    (s.modSynth i f).clk.senseMv = s.clk.senseMv := rfl

@[simp] theorem State.modSynth_clk_aboveAt (s : State) (i : Nat) (f : Synth → Synth) :
    (s.modSynth i f).clk.aboveAt = s.clk.aboveAt := rfl

@[simp] theorem State.modSynth_clk_senseLow (s : State) (i : Nat) (f : Synth → Synth) :
    (s.modSynth i f).clk.senseLow = s.clk.senseLow := rfl

@[simp] theorem State.modSynth_clk_pathBad (s : State) (i : Nat) (f : Synth → Synth) :
    (s.modSynth i f).clk.pathBad = s.clk.pathBad := rfl

@[simp] theorem State.modSynth_clk_synthGate (s : State) (i : Nat) (f : Synth → Synth) :
    (s.modSynth i f).clk.synthGate = s.clk.synthGate := rfl

@[simp] theorem State.modSynth_clk_senseGate (s : State) (i : Nat) (f : Synth → Synth) :
    (s.modSynth i f).clk.senseGate = s.clk.senseGate := rfl

@[simp] theorem State.modSynth_clk_sysGate (s : State) (i : Nat) (f : Synth → Synth) :
    (s.modSynth i f).clk.sysGate = s.clk.sysGate := rfl

@[simp] theorem State.modSynth_pending (s : State) (i : Nat) (f : Synth → Synth) :
    (s.modSynth i f).pending = s.pending := rfl

@[simp] theorem State.modSynth_part (s : State) (i : Nat) (f : Synth → Synth) : (s.modSynth i f).part = s.part := rfl

@[simp] theorem State.modSynth_free (s : State) (i : Nat) (f : Synth → Synth) : (s.modSynth i f).free = s.free := rfl

@[simp] theorem State.modSynth_time (s : State) (i : Nat) (f : Synth → Synth) : (s.modSynth i f).time = s.time := rfl

@[simp] theorem State.modSynth_timeRuns (s : State) (i : Nat) (f : Synth → Synth) :
    (s.modSynth i f).timeRuns = s.timeRuns := rfl

@[simp] theorem State.modSynth_held (s : State) (i : Nat) (f : Synth → Synth) : (s.modSynth i f).held = s.held := rfl

@[simp] theorem State.modSynth_mci (s : State) (i : Nat) (f : Synth → Synth) : (s.modSynth i f).mci = s.mci := rfl

@[simp] theorem State.modSynth_sources (s : State) (i : Nat) (f : Synth → Synth) :
    (s.modSynth i f).sources = s.sources := rfl

@[simp] theorem State.modSynth_sync (s : State) (i : Nat) (f : Synth → Synth) : (s.modSynth i f).sync = s.sync := rfl

@[simp] theorem State.modSynth_links (s : State) (i : Nat) (f : Synth → Synth) : (s.modSynth i f).links = s.links := rfl

@[simp] theorem State.modSynth_nStop (s : State) (i : Nat) (f : Synth → Synth) : (s.modSynth i f).nStop = s.nStop := rfl

@[simp] theorem State.modSynth_rollback (s : State) (i : Nat) (f : Synth → Synth) :
    (s.modSynth i f).rollback = s.rollback := rfl

@[simp] theorem State.modSynth_jobSerial (s : State) (i : Nat) (f : Synth → Synth) :
    (s.modSynth i f).jobSerial = s.jobSerial := rfl

@[simp] theorem State.modSynth_stations (s : State) (i : Nat) (f : Synth → Synth) :
    (s.modSynth i f).stations = s.stations := rfl

@[simp] theorem State.modSynth_media (s : State) (i : Nat) (f : Synth → Synth) : (s.modSynth i f).media = s.media := rfl

@[simp] theorem State.modSynth_topUnmatched (s : State) (i : Nat) (f : Synth → Synth) :
    (s.modSynth i f).topUnmatched = s.topUnmatched := rfl

@[simp] theorem State.modSynth_gpi (s : State) (i : Nat) (f : Synth → Synth) : (s.modSynth i f).gpi = s.gpi := rfl

@[simp] theorem State.modSynth_bias (s : State) (i : Nat) (f : Synth → Synth) : (s.modSynth i f).bias = s.bias := rfl

@[simp] theorem State.modSynth_heaters (s : State) (i : Nat) (f : Synth → Synth) :
    (s.modSynth i f).heaters = s.heaters := rfl

@[simp] theorem State.modSynth_heads (s : State) (i : Nat) (f : Synth → Synth) : (s.modSynth i f).heads = s.heads := rfl

@[simp] theorem State.modSynth_forge (s : State) (i : Nat) (f : Synth → Synth) : (s.modSynth i f).forge = s.forge := rfl

@[simp] theorem State.modSynth_engine (s : State) (i : Nat) (f : Synth → Synth) : (s.modSynth i f).engine = s.engine := rfl

@[simp] theorem State.modSynth_cam (s : State) (i : Nat) (f : Synth → Synth) : (s.modSynth i f).cam = s.cam := rfl

@[simp] theorem State.modSynth_lag (s : State) (i : Nat) (f : Synth → Synth) : (s.modSynth i f).lag = s.lag := rfl

@[simp] theorem State.modSynth_dram (s : State) (i : Nat) (f : Synth → Synth) : (s.modSynth i f).dram = s.dram := rfl

@[simp] theorem State.modSynth_dma (s : State) (i : Nat) (f : Synth → Synth) : (s.modSynth i f).dma = s.dma := rfl

@[simp] theorem State.modSynth_bldc (s : State) (i : Nat) (f : Synth → Synth) : (s.modSynth i f).bldc = s.bldc := rfl

@[simp] theorem State.modSynth_motion (s : State) (i : Nat) (f : Synth → Synth) : (s.modSynth i f).motion = s.motion := rfl

@[simp] theorem State.modSynth_therm (s : State) (i : Nat) (f : Synth → Synth) : (s.modSynth i f).therm = s.therm := rfl

@[simp] theorem State.modSynth_pwr (s : State) (i : Nat) (f : Synth → Synth) : (s.modSynth i f).pwr = s.pwr := rfl

@[simp] theorem State.modSynth_atoll (s : State) (i : Nat) (f : Synth → Synth) : (s.modSynth i f).atoll = s.atoll := rfl

@[simp] theorem State.modSynth_lamps (s : State) (i : Nat) (f : Synth → Synth) : (s.modSynth i f).lamps = s.lamps := rfl

@[simp] theorem State.modSynth_flt (s : State) (i : Nat) (f : Synth → Synth) : (s.modSynth i f).flt = s.flt := rfl

@[simp] theorem State.modSynth_otp (s : State) (i : Nat) (f : Synth → Synth) : (s.modSynth i f).otp = s.otp := rfl

@[simp] theorem State.modSynth_boot (s : State) (i : Nat) (f : Synth → Synth) : (s.modSynth i f).boot = s.boot := rfl

@[simp] theorem State.modSynth_nLinks (s : State) (i : Nat) (f : Synth → Synth) : (s.modSynth i f).nLinks = s.nLinks := rfl

@[simp] theorem State.modSynth_nHeads (s : State) (i : Nat) (f : Synth → Synth) : (s.modSynth i f).nHeads = s.nHeads := rfl

@[simp] theorem State.modSynth_now (s : State) (i : Nat) (f : Synth → Synth) : (s.modSynth i f).now = s.now := rfl

theorem State.modSynth_same (s : State) (i : Nat) (f : Synth → Synth) (h₀ : i < s.clk.synths.length) :
    (s.modSynth i f).synth i = f (s.synth i) := at'_modAt_same _ _ _ _ h₀

@[simp] theorem State.modSynth_ne (s : State) (i : Nat) (f : Synth → Synth) (k : Nat) (hk : i ≠ k) :
    (s.modSynth i f).synth k = s.synth k := at'_modAt_ne _ _ _ _ _ hk

/-! ### State.modChannel -/

@[simp] theorem State.modChannel_channels (s : State) (c : Nat) (f : Channel → Channel) :
    (s.modChannel c f).dma.channels = modAt s.dma.channels c f := rfl

@[simp] theorem State.modChannel_dma_windows (s : State) (c : Nat) (f : Channel → Channel) :
    (s.modChannel c f).dma.windows = s.dma.windows := rfl

@[simp] theorem State.modChannel_dma_engines (s : State) (c : Nat) (f : Channel → Channel) :
    (s.modChannel c f).dma.engines = s.dma.engines := rfl

@[simp] theorem State.modChannel_dma_hostEngines (s : State) (c : Nat) (f : Channel → Channel) :
    (s.modChannel c f).dma.hostEngines = s.dma.hostEngines := rfl

@[simp] theorem State.modChannel_dma_queue (s : State) (c : Nat) (f : Channel → Channel) :
    (s.modChannel c f).dma.queue = s.dma.queue := rfl

@[simp] theorem State.modChannel_dma_fwQueue (s : State) (c : Nat) (f : Channel → Channel) :
    (s.modChannel c f).dma.fwQueue = s.dma.fwQueue := rfl

@[simp] theorem State.modChannel_dma_nextJob (s : State) (c : Nat) (f : Channel → Channel) :
    (s.modChannel c f).dma.nextJob = s.dma.nextJob := rfl

@[simp] theorem State.modChannel_dma_chain (s : State) (c : Nat) (f : Channel → Channel) :
    (s.modChannel c f).dma.chain = s.dma.chain := rfl

@[simp] theorem State.modChannel_dma_classLeft (s : State) (c : Nat) (f : Channel → Channel) :
    (s.modChannel c f).dma.classLeft = s.dma.classLeft := rfl

@[simp] theorem State.modChannel_dma_window (s : State) (c : Nat) (f : Channel → Channel) :
    (s.modChannel c f).dma.window = s.dma.window := rfl

@[simp] theorem State.modChannel_dma_left (s : State) (c : Nat) (f : Channel → Channel) :
    (s.modChannel c f).dma.left = s.dma.left := rfl

@[simp] theorem State.modChannel_dma_toHost (s : State) (c : Nat) (f : Channel → Channel) :
    (s.modChannel c f).dma.toHost = s.dma.toHost := rfl

@[simp] theorem State.modChannel_pending (s : State) (c : Nat) (f : Channel → Channel) :
    (s.modChannel c f).pending = s.pending := rfl

@[simp] theorem State.modChannel_part (s : State) (c : Nat) (f : Channel → Channel) : (s.modChannel c f).part = s.part := rfl

@[simp] theorem State.modChannel_free (s : State) (c : Nat) (f : Channel → Channel) : (s.modChannel c f).free = s.free := rfl

@[simp] theorem State.modChannel_time (s : State) (c : Nat) (f : Channel → Channel) : (s.modChannel c f).time = s.time := rfl

@[simp] theorem State.modChannel_timeRuns (s : State) (c : Nat) (f : Channel → Channel) :
    (s.modChannel c f).timeRuns = s.timeRuns := rfl

@[simp] theorem State.modChannel_held (s : State) (c : Nat) (f : Channel → Channel) : (s.modChannel c f).held = s.held := rfl

@[simp] theorem State.modChannel_mci (s : State) (c : Nat) (f : Channel → Channel) : (s.modChannel c f).mci = s.mci := rfl

@[simp] theorem State.modChannel_sources (s : State) (c : Nat) (f : Channel → Channel) :
    (s.modChannel c f).sources = s.sources := rfl

@[simp] theorem State.modChannel_sync (s : State) (c : Nat) (f : Channel → Channel) : (s.modChannel c f).sync = s.sync := rfl

@[simp] theorem State.modChannel_links (s : State) (c : Nat) (f : Channel → Channel) :
    (s.modChannel c f).links = s.links := rfl

@[simp] theorem State.modChannel_nStop (s : State) (c : Nat) (f : Channel → Channel) :
    (s.modChannel c f).nStop = s.nStop := rfl

@[simp] theorem State.modChannel_rollback (s : State) (c : Nat) (f : Channel → Channel) :
    (s.modChannel c f).rollback = s.rollback := rfl

@[simp] theorem State.modChannel_jobSerial (s : State) (c : Nat) (f : Channel → Channel) :
    (s.modChannel c f).jobSerial = s.jobSerial := rfl

@[simp] theorem State.modChannel_stations (s : State) (c : Nat) (f : Channel → Channel) :
    (s.modChannel c f).stations = s.stations := rfl

@[simp] theorem State.modChannel_media (s : State) (c : Nat) (f : Channel → Channel) :
    (s.modChannel c f).media = s.media := rfl

@[simp] theorem State.modChannel_topUnmatched (s : State) (c : Nat) (f : Channel → Channel) :
    (s.modChannel c f).topUnmatched = s.topUnmatched := rfl

@[simp] theorem State.modChannel_gpi (s : State) (c : Nat) (f : Channel → Channel) : (s.modChannel c f).gpi = s.gpi := rfl

@[simp] theorem State.modChannel_bias (s : State) (c : Nat) (f : Channel → Channel) : (s.modChannel c f).bias = s.bias := rfl

@[simp] theorem State.modChannel_heaters (s : State) (c : Nat) (f : Channel → Channel) :
    (s.modChannel c f).heaters = s.heaters := rfl

@[simp] theorem State.modChannel_heads (s : State) (c : Nat) (f : Channel → Channel) :
    (s.modChannel c f).heads = s.heads := rfl

@[simp] theorem State.modChannel_forge (s : State) (c : Nat) (f : Channel → Channel) :
    (s.modChannel c f).forge = s.forge := rfl

@[simp] theorem State.modChannel_engine (s : State) (c : Nat) (f : Channel → Channel) :
    (s.modChannel c f).engine = s.engine := rfl

@[simp] theorem State.modChannel_cam (s : State) (c : Nat) (f : Channel → Channel) : (s.modChannel c f).cam = s.cam := rfl

@[simp] theorem State.modChannel_lag (s : State) (c : Nat) (f : Channel → Channel) : (s.modChannel c f).lag = s.lag := rfl

@[simp] theorem State.modChannel_dram (s : State) (c : Nat) (f : Channel → Channel) : (s.modChannel c f).dram = s.dram := rfl

@[simp] theorem State.modChannel_bldc (s : State) (c : Nat) (f : Channel → Channel) : (s.modChannel c f).bldc = s.bldc := rfl

@[simp] theorem State.modChannel_motion (s : State) (c : Nat) (f : Channel → Channel) :
    (s.modChannel c f).motion = s.motion := rfl

@[simp] theorem State.modChannel_clk (s : State) (c : Nat) (f : Channel → Channel) : (s.modChannel c f).clk = s.clk := rfl

@[simp] theorem State.modChannel_therm (s : State) (c : Nat) (f : Channel → Channel) :
    (s.modChannel c f).therm = s.therm := rfl

@[simp] theorem State.modChannel_pwr (s : State) (c : Nat) (f : Channel → Channel) : (s.modChannel c f).pwr = s.pwr := rfl

@[simp] theorem State.modChannel_atoll (s : State) (c : Nat) (f : Channel → Channel) :
    (s.modChannel c f).atoll = s.atoll := rfl

@[simp] theorem State.modChannel_lamps (s : State) (c : Nat) (f : Channel → Channel) :
    (s.modChannel c f).lamps = s.lamps := rfl

@[simp] theorem State.modChannel_flt (s : State) (c : Nat) (f : Channel → Channel) : (s.modChannel c f).flt = s.flt := rfl

@[simp] theorem State.modChannel_otp (s : State) (c : Nat) (f : Channel → Channel) : (s.modChannel c f).otp = s.otp := rfl

@[simp] theorem State.modChannel_boot (s : State) (c : Nat) (f : Channel → Channel) : (s.modChannel c f).boot = s.boot := rfl

@[simp] theorem State.modChannel_nLinks (s : State) (c : Nat) (f : Channel → Channel) :
    (s.modChannel c f).nLinks = s.nLinks := rfl

@[simp] theorem State.modChannel_nHeads (s : State) (c : Nat) (f : Channel → Channel) :
    (s.modChannel c f).nHeads = s.nHeads := rfl

@[simp] theorem State.modChannel_now (s : State) (c : Nat) (f : Channel → Channel) : (s.modChannel c f).now = s.now := rfl

theorem State.modChannel_same (s : State) (c : Nat) (f : Channel → Channel) (h₀ : c < s.dma.channels.length) :
    (s.modChannel c f).channel c = f (s.channel c) := at'_modAt_same _ _ _ _ h₀

@[simp] theorem State.modChannel_ne (s : State) (c : Nat) (f : Channel → Channel) (k : Nat) (hk : c ≠ k) :
    (s.modChannel c f).channel k = s.channel k := at'_modAt_ne _ _ _ _ _ hk

/-! ### State.modEngine -/

@[simp] theorem State.modEngine_engines (s : State) (e : Nat) (f : Deflate → Deflate) :
    (s.modEngine e f).dma.engines = modAt s.dma.engines e f := rfl

@[simp] theorem State.modEngine_dma_channels (s : State) (e : Nat) (f : Deflate → Deflate) :
    (s.modEngine e f).dma.channels = s.dma.channels := rfl

@[simp] theorem State.modEngine_dma_windows (s : State) (e : Nat) (f : Deflate → Deflate) :
    (s.modEngine e f).dma.windows = s.dma.windows := rfl

@[simp] theorem State.modEngine_dma_hostEngines (s : State) (e : Nat) (f : Deflate → Deflate) :
    (s.modEngine e f).dma.hostEngines = s.dma.hostEngines := rfl

@[simp] theorem State.modEngine_dma_queue (s : State) (e : Nat) (f : Deflate → Deflate) :
    (s.modEngine e f).dma.queue = s.dma.queue := rfl

@[simp] theorem State.modEngine_dma_fwQueue (s : State) (e : Nat) (f : Deflate → Deflate) :
    (s.modEngine e f).dma.fwQueue = s.dma.fwQueue := rfl

@[simp] theorem State.modEngine_dma_nextJob (s : State) (e : Nat) (f : Deflate → Deflate) :
    (s.modEngine e f).dma.nextJob = s.dma.nextJob := rfl

@[simp] theorem State.modEngine_dma_chain (s : State) (e : Nat) (f : Deflate → Deflate) :
    (s.modEngine e f).dma.chain = s.dma.chain := rfl

@[simp] theorem State.modEngine_dma_classLeft (s : State) (e : Nat) (f : Deflate → Deflate) :
    (s.modEngine e f).dma.classLeft = s.dma.classLeft := rfl

@[simp] theorem State.modEngine_dma_window (s : State) (e : Nat) (f : Deflate → Deflate) :
    (s.modEngine e f).dma.window = s.dma.window := rfl

@[simp] theorem State.modEngine_dma_left (s : State) (e : Nat) (f : Deflate → Deflate) :
    (s.modEngine e f).dma.left = s.dma.left := rfl

@[simp] theorem State.modEngine_dma_toHost (s : State) (e : Nat) (f : Deflate → Deflate) :
    (s.modEngine e f).dma.toHost = s.dma.toHost := rfl

@[simp] theorem State.modEngine_pending (s : State) (e : Nat) (f : Deflate → Deflate) :
    (s.modEngine e f).pending = s.pending := rfl

@[simp] theorem State.modEngine_part (s : State) (e : Nat) (f : Deflate → Deflate) : (s.modEngine e f).part = s.part := rfl

@[simp] theorem State.modEngine_free (s : State) (e : Nat) (f : Deflate → Deflate) : (s.modEngine e f).free = s.free := rfl

@[simp] theorem State.modEngine_time (s : State) (e : Nat) (f : Deflate → Deflate) : (s.modEngine e f).time = s.time := rfl

@[simp] theorem State.modEngine_timeRuns (s : State) (e : Nat) (f : Deflate → Deflate) :
    (s.modEngine e f).timeRuns = s.timeRuns := rfl

@[simp] theorem State.modEngine_held (s : State) (e : Nat) (f : Deflate → Deflate) : (s.modEngine e f).held = s.held := rfl

@[simp] theorem State.modEngine_mci (s : State) (e : Nat) (f : Deflate → Deflate) : (s.modEngine e f).mci = s.mci := rfl

@[simp] theorem State.modEngine_sources (s : State) (e : Nat) (f : Deflate → Deflate) :
    (s.modEngine e f).sources = s.sources := rfl

@[simp] theorem State.modEngine_sync (s : State) (e : Nat) (f : Deflate → Deflate) : (s.modEngine e f).sync = s.sync := rfl

@[simp] theorem State.modEngine_links (s : State) (e : Nat) (f : Deflate → Deflate) :
    (s.modEngine e f).links = s.links := rfl

@[simp] theorem State.modEngine_nStop (s : State) (e : Nat) (f : Deflate → Deflate) :
    (s.modEngine e f).nStop = s.nStop := rfl

@[simp] theorem State.modEngine_rollback (s : State) (e : Nat) (f : Deflate → Deflate) :
    (s.modEngine e f).rollback = s.rollback := rfl

@[simp] theorem State.modEngine_jobSerial (s : State) (e : Nat) (f : Deflate → Deflate) :
    (s.modEngine e f).jobSerial = s.jobSerial := rfl

@[simp] theorem State.modEngine_stations (s : State) (e : Nat) (f : Deflate → Deflate) :
    (s.modEngine e f).stations = s.stations := rfl

@[simp] theorem State.modEngine_media (s : State) (e : Nat) (f : Deflate → Deflate) :
    (s.modEngine e f).media = s.media := rfl

@[simp] theorem State.modEngine_topUnmatched (s : State) (e : Nat) (f : Deflate → Deflate) :
    (s.modEngine e f).topUnmatched = s.topUnmatched := rfl

@[simp] theorem State.modEngine_gpi (s : State) (e : Nat) (f : Deflate → Deflate) : (s.modEngine e f).gpi = s.gpi := rfl

@[simp] theorem State.modEngine_bias (s : State) (e : Nat) (f : Deflate → Deflate) : (s.modEngine e f).bias = s.bias := rfl

@[simp] theorem State.modEngine_heaters (s : State) (e : Nat) (f : Deflate → Deflate) :
    (s.modEngine e f).heaters = s.heaters := rfl

@[simp] theorem State.modEngine_heads (s : State) (e : Nat) (f : Deflate → Deflate) :
    (s.modEngine e f).heads = s.heads := rfl

@[simp] theorem State.modEngine_forge (s : State) (e : Nat) (f : Deflate → Deflate) :
    (s.modEngine e f).forge = s.forge := rfl

@[simp] theorem State.modEngine_engine (s : State) (e : Nat) (f : Deflate → Deflate) :
    (s.modEngine e f).engine = s.engine := rfl

@[simp] theorem State.modEngine_cam (s : State) (e : Nat) (f : Deflate → Deflate) : (s.modEngine e f).cam = s.cam := rfl

@[simp] theorem State.modEngine_lag (s : State) (e : Nat) (f : Deflate → Deflate) : (s.modEngine e f).lag = s.lag := rfl

@[simp] theorem State.modEngine_dram (s : State) (e : Nat) (f : Deflate → Deflate) : (s.modEngine e f).dram = s.dram := rfl

@[simp] theorem State.modEngine_bldc (s : State) (e : Nat) (f : Deflate → Deflate) : (s.modEngine e f).bldc = s.bldc := rfl

@[simp] theorem State.modEngine_motion (s : State) (e : Nat) (f : Deflate → Deflate) :
    (s.modEngine e f).motion = s.motion := rfl

@[simp] theorem State.modEngine_clk (s : State) (e : Nat) (f : Deflate → Deflate) : (s.modEngine e f).clk = s.clk := rfl

@[simp] theorem State.modEngine_therm (s : State) (e : Nat) (f : Deflate → Deflate) :
    (s.modEngine e f).therm = s.therm := rfl

@[simp] theorem State.modEngine_pwr (s : State) (e : Nat) (f : Deflate → Deflate) : (s.modEngine e f).pwr = s.pwr := rfl

@[simp] theorem State.modEngine_atoll (s : State) (e : Nat) (f : Deflate → Deflate) :
    (s.modEngine e f).atoll = s.atoll := rfl

@[simp] theorem State.modEngine_lamps (s : State) (e : Nat) (f : Deflate → Deflate) :
    (s.modEngine e f).lamps = s.lamps := rfl

@[simp] theorem State.modEngine_flt (s : State) (e : Nat) (f : Deflate → Deflate) : (s.modEngine e f).flt = s.flt := rfl

@[simp] theorem State.modEngine_otp (s : State) (e : Nat) (f : Deflate → Deflate) : (s.modEngine e f).otp = s.otp := rfl

@[simp] theorem State.modEngine_boot (s : State) (e : Nat) (f : Deflate → Deflate) : (s.modEngine e f).boot = s.boot := rfl

@[simp] theorem State.modEngine_nLinks (s : State) (e : Nat) (f : Deflate → Deflate) :
    (s.modEngine e f).nLinks = s.nLinks := rfl

@[simp] theorem State.modEngine_nHeads (s : State) (e : Nat) (f : Deflate → Deflate) :
    (s.modEngine e f).nHeads = s.nHeads := rfl

@[simp] theorem State.modEngine_now (s : State) (e : Nat) (f : Deflate → Deflate) : (s.modEngine e f).now = s.now := rfl

theorem State.modEngine_same (s : State) (e : Nat) (f : Deflate → Deflate) (h₀ : e < s.dma.engines.length) :
    (s.modEngine e f).deflate e = f (s.deflate e) := at'_modAt_same _ _ _ _ h₀

@[simp] theorem State.modEngine_ne (s : State) (e : Nat) (f : Deflate → Deflate) (k : Nat) (hk : e ≠ k) :
    (s.modEngine e f).deflate k = s.deflate k := at'_modAt_ne _ _ _ _ _ hk

/-! ### State.modLoop -/

@[simp] theorem State.modLoop_loops (s : State) (i : Nat) (f : Loop → Loop) :
    (s.modLoop i f).engine.loops = modAt s.engine.loops i f := rfl

@[simp] theorem State.modLoop_engine_groups (s : State) (i : Nat) (f : Loop → Loop) :
    (s.modLoop i f).engine.groups = s.engine.groups := rfl

@[simp] theorem State.modLoop_engine_repctls (s : State) (i : Nat) (f : Loop → Loop) :
    (s.modLoop i f).engine.repctls = s.engine.repctls := rfl

@[simp] theorem State.modLoop_engine_pdAt (s : State) (i : Nat) (f : Loop → Loop) :
    (s.modLoop i f).engine.pdAt = s.engine.pdAt := rfl

@[simp] theorem State.modLoop_engine_vars (s : State) (i : Nat) (f : Loop → Loop) :
    (s.modLoop i f).engine.vars = s.engine.vars := rfl

@[simp] theorem State.modLoop_engine_varsBefore (s : State) (i : Nat) (f : Loop → Loop) :
    (s.modLoop i f).engine.varsBefore = s.engine.varsBefore := rfl

@[simp] theorem State.modLoop_engine_tick (s : State) (i : Nat) (f : Loop → Loop) :
    (s.modLoop i f).engine.tick = s.engine.tick := rfl

@[simp] theorem State.modLoop_engine_load (s : State) (i : Nat) (f : Loop → Loop) :
    (s.modLoop i f).engine.load = s.engine.load := rfl

@[simp] theorem State.modLoop_pending (s : State) (i : Nat) (f : Loop → Loop) : (s.modLoop i f).pending = s.pending := rfl

@[simp] theorem State.modLoop_part (s : State) (i : Nat) (f : Loop → Loop) : (s.modLoop i f).part = s.part := rfl

@[simp] theorem State.modLoop_free (s : State) (i : Nat) (f : Loop → Loop) : (s.modLoop i f).free = s.free := rfl

@[simp] theorem State.modLoop_time (s : State) (i : Nat) (f : Loop → Loop) : (s.modLoop i f).time = s.time := rfl

@[simp] theorem State.modLoop_timeRuns (s : State) (i : Nat) (f : Loop → Loop) : (s.modLoop i f).timeRuns = s.timeRuns := rfl

@[simp] theorem State.modLoop_held (s : State) (i : Nat) (f : Loop → Loop) : (s.modLoop i f).held = s.held := rfl

@[simp] theorem State.modLoop_mci (s : State) (i : Nat) (f : Loop → Loop) : (s.modLoop i f).mci = s.mci := rfl

@[simp] theorem State.modLoop_sources (s : State) (i : Nat) (f : Loop → Loop) : (s.modLoop i f).sources = s.sources := rfl

@[simp] theorem State.modLoop_sync (s : State) (i : Nat) (f : Loop → Loop) : (s.modLoop i f).sync = s.sync := rfl

@[simp] theorem State.modLoop_links (s : State) (i : Nat) (f : Loop → Loop) : (s.modLoop i f).links = s.links := rfl

@[simp] theorem State.modLoop_nStop (s : State) (i : Nat) (f : Loop → Loop) : (s.modLoop i f).nStop = s.nStop := rfl

@[simp] theorem State.modLoop_rollback (s : State) (i : Nat) (f : Loop → Loop) : (s.modLoop i f).rollback = s.rollback := rfl

@[simp] theorem State.modLoop_jobSerial (s : State) (i : Nat) (f : Loop → Loop) :
    (s.modLoop i f).jobSerial = s.jobSerial := rfl

@[simp] theorem State.modLoop_stations (s : State) (i : Nat) (f : Loop → Loop) : (s.modLoop i f).stations = s.stations := rfl

@[simp] theorem State.modLoop_media (s : State) (i : Nat) (f : Loop → Loop) : (s.modLoop i f).media = s.media := rfl

@[simp] theorem State.modLoop_topUnmatched (s : State) (i : Nat) (f : Loop → Loop) :
    (s.modLoop i f).topUnmatched = s.topUnmatched := rfl

@[simp] theorem State.modLoop_gpi (s : State) (i : Nat) (f : Loop → Loop) : (s.modLoop i f).gpi = s.gpi := rfl

@[simp] theorem State.modLoop_bias (s : State) (i : Nat) (f : Loop → Loop) : (s.modLoop i f).bias = s.bias := rfl

@[simp] theorem State.modLoop_heaters (s : State) (i : Nat) (f : Loop → Loop) : (s.modLoop i f).heaters = s.heaters := rfl

@[simp] theorem State.modLoop_heads (s : State) (i : Nat) (f : Loop → Loop) : (s.modLoop i f).heads = s.heads := rfl

@[simp] theorem State.modLoop_forge (s : State) (i : Nat) (f : Loop → Loop) : (s.modLoop i f).forge = s.forge := rfl

@[simp] theorem State.modLoop_cam (s : State) (i : Nat) (f : Loop → Loop) : (s.modLoop i f).cam = s.cam := rfl

@[simp] theorem State.modLoop_lag (s : State) (i : Nat) (f : Loop → Loop) : (s.modLoop i f).lag = s.lag := rfl

@[simp] theorem State.modLoop_dram (s : State) (i : Nat) (f : Loop → Loop) : (s.modLoop i f).dram = s.dram := rfl

@[simp] theorem State.modLoop_dma (s : State) (i : Nat) (f : Loop → Loop) : (s.modLoop i f).dma = s.dma := rfl

@[simp] theorem State.modLoop_bldc (s : State) (i : Nat) (f : Loop → Loop) : (s.modLoop i f).bldc = s.bldc := rfl

@[simp] theorem State.modLoop_motion (s : State) (i : Nat) (f : Loop → Loop) : (s.modLoop i f).motion = s.motion := rfl

@[simp] theorem State.modLoop_clk (s : State) (i : Nat) (f : Loop → Loop) : (s.modLoop i f).clk = s.clk := rfl

@[simp] theorem State.modLoop_therm (s : State) (i : Nat) (f : Loop → Loop) : (s.modLoop i f).therm = s.therm := rfl

@[simp] theorem State.modLoop_pwr (s : State) (i : Nat) (f : Loop → Loop) : (s.modLoop i f).pwr = s.pwr := rfl

@[simp] theorem State.modLoop_atoll (s : State) (i : Nat) (f : Loop → Loop) : (s.modLoop i f).atoll = s.atoll := rfl

@[simp] theorem State.modLoop_lamps (s : State) (i : Nat) (f : Loop → Loop) : (s.modLoop i f).lamps = s.lamps := rfl

@[simp] theorem State.modLoop_flt (s : State) (i : Nat) (f : Loop → Loop) : (s.modLoop i f).flt = s.flt := rfl

@[simp] theorem State.modLoop_otp (s : State) (i : Nat) (f : Loop → Loop) : (s.modLoop i f).otp = s.otp := rfl

@[simp] theorem State.modLoop_boot (s : State) (i : Nat) (f : Loop → Loop) : (s.modLoop i f).boot = s.boot := rfl

@[simp] theorem State.modLoop_nLinks (s : State) (i : Nat) (f : Loop → Loop) : (s.modLoop i f).nLinks = s.nLinks := rfl

@[simp] theorem State.modLoop_nHeads (s : State) (i : Nat) (f : Loop → Loop) : (s.modLoop i f).nHeads = s.nHeads := rfl

@[simp] theorem State.modLoop_now (s : State) (i : Nat) (f : Loop → Loop) : (s.modLoop i f).now = s.now := rfl

theorem State.modLoop_same (s : State) (i : Nat) (f : Loop → Loop) (h₀ : i < s.engine.loops.length) :
    (s.modLoop i f).loop i = f (s.loop i) := at'_modAt_same _ _ _ _ h₀

@[simp] theorem State.modLoop_ne (s : State) (i : Nat) (f : Loop → Loop) (k : Nat) (hk : i ≠ k) :
    (s.modLoop i f).loop k = s.loop k := at'_modAt_ne _ _ _ _ _ hk

/-! ### State.modGroup -/

@[simp] theorem State.modGroup_groups (s : State) (i : Nat) (f : Group → Group) :
    (s.modGroup i f).engine.groups = modAt s.engine.groups i f := rfl

@[simp] theorem State.modGroup_engine_loops (s : State) (i : Nat) (f : Group → Group) :
    (s.modGroup i f).engine.loops = s.engine.loops := rfl

@[simp] theorem State.modGroup_engine_repctls (s : State) (i : Nat) (f : Group → Group) :
    (s.modGroup i f).engine.repctls = s.engine.repctls := rfl

@[simp] theorem State.modGroup_engine_pdAt (s : State) (i : Nat) (f : Group → Group) :
    (s.modGroup i f).engine.pdAt = s.engine.pdAt := rfl

@[simp] theorem State.modGroup_engine_vars (s : State) (i : Nat) (f : Group → Group) :
    (s.modGroup i f).engine.vars = s.engine.vars := rfl

@[simp] theorem State.modGroup_engine_varsBefore (s : State) (i : Nat) (f : Group → Group) :
    (s.modGroup i f).engine.varsBefore = s.engine.varsBefore := rfl

@[simp] theorem State.modGroup_engine_tick (s : State) (i : Nat) (f : Group → Group) :
    (s.modGroup i f).engine.tick = s.engine.tick := rfl

@[simp] theorem State.modGroup_engine_load (s : State) (i : Nat) (f : Group → Group) :
    (s.modGroup i f).engine.load = s.engine.load := rfl

@[simp] theorem State.modGroup_pending (s : State) (i : Nat) (f : Group → Group) :
    (s.modGroup i f).pending = s.pending := rfl

@[simp] theorem State.modGroup_part (s : State) (i : Nat) (f : Group → Group) : (s.modGroup i f).part = s.part := rfl

@[simp] theorem State.modGroup_free (s : State) (i : Nat) (f : Group → Group) : (s.modGroup i f).free = s.free := rfl

@[simp] theorem State.modGroup_time (s : State) (i : Nat) (f : Group → Group) : (s.modGroup i f).time = s.time := rfl

@[simp] theorem State.modGroup_timeRuns (s : State) (i : Nat) (f : Group → Group) :
    (s.modGroup i f).timeRuns = s.timeRuns := rfl

@[simp] theorem State.modGroup_held (s : State) (i : Nat) (f : Group → Group) : (s.modGroup i f).held = s.held := rfl

@[simp] theorem State.modGroup_mci (s : State) (i : Nat) (f : Group → Group) : (s.modGroup i f).mci = s.mci := rfl

@[simp] theorem State.modGroup_sources (s : State) (i : Nat) (f : Group → Group) :
    (s.modGroup i f).sources = s.sources := rfl

@[simp] theorem State.modGroup_sync (s : State) (i : Nat) (f : Group → Group) : (s.modGroup i f).sync = s.sync := rfl

@[simp] theorem State.modGroup_links (s : State) (i : Nat) (f : Group → Group) : (s.modGroup i f).links = s.links := rfl

@[simp] theorem State.modGroup_nStop (s : State) (i : Nat) (f : Group → Group) : (s.modGroup i f).nStop = s.nStop := rfl

@[simp] theorem State.modGroup_rollback (s : State) (i : Nat) (f : Group → Group) :
    (s.modGroup i f).rollback = s.rollback := rfl

@[simp] theorem State.modGroup_jobSerial (s : State) (i : Nat) (f : Group → Group) :
    (s.modGroup i f).jobSerial = s.jobSerial := rfl

@[simp] theorem State.modGroup_stations (s : State) (i : Nat) (f : Group → Group) :
    (s.modGroup i f).stations = s.stations := rfl

@[simp] theorem State.modGroup_media (s : State) (i : Nat) (f : Group → Group) : (s.modGroup i f).media = s.media := rfl

@[simp] theorem State.modGroup_topUnmatched (s : State) (i : Nat) (f : Group → Group) :
    (s.modGroup i f).topUnmatched = s.topUnmatched := rfl

@[simp] theorem State.modGroup_gpi (s : State) (i : Nat) (f : Group → Group) : (s.modGroup i f).gpi = s.gpi := rfl

@[simp] theorem State.modGroup_bias (s : State) (i : Nat) (f : Group → Group) : (s.modGroup i f).bias = s.bias := rfl

@[simp] theorem State.modGroup_heaters (s : State) (i : Nat) (f : Group → Group) :
    (s.modGroup i f).heaters = s.heaters := rfl

@[simp] theorem State.modGroup_heads (s : State) (i : Nat) (f : Group → Group) : (s.modGroup i f).heads = s.heads := rfl

@[simp] theorem State.modGroup_forge (s : State) (i : Nat) (f : Group → Group) : (s.modGroup i f).forge = s.forge := rfl

@[simp] theorem State.modGroup_cam (s : State) (i : Nat) (f : Group → Group) : (s.modGroup i f).cam = s.cam := rfl

@[simp] theorem State.modGroup_lag (s : State) (i : Nat) (f : Group → Group) : (s.modGroup i f).lag = s.lag := rfl

@[simp] theorem State.modGroup_dram (s : State) (i : Nat) (f : Group → Group) : (s.modGroup i f).dram = s.dram := rfl

@[simp] theorem State.modGroup_dma (s : State) (i : Nat) (f : Group → Group) : (s.modGroup i f).dma = s.dma := rfl

@[simp] theorem State.modGroup_bldc (s : State) (i : Nat) (f : Group → Group) : (s.modGroup i f).bldc = s.bldc := rfl

@[simp] theorem State.modGroup_motion (s : State) (i : Nat) (f : Group → Group) : (s.modGroup i f).motion = s.motion := rfl

@[simp] theorem State.modGroup_clk (s : State) (i : Nat) (f : Group → Group) : (s.modGroup i f).clk = s.clk := rfl

@[simp] theorem State.modGroup_therm (s : State) (i : Nat) (f : Group → Group) : (s.modGroup i f).therm = s.therm := rfl

@[simp] theorem State.modGroup_pwr (s : State) (i : Nat) (f : Group → Group) : (s.modGroup i f).pwr = s.pwr := rfl

@[simp] theorem State.modGroup_atoll (s : State) (i : Nat) (f : Group → Group) : (s.modGroup i f).atoll = s.atoll := rfl

@[simp] theorem State.modGroup_lamps (s : State) (i : Nat) (f : Group → Group) : (s.modGroup i f).lamps = s.lamps := rfl

@[simp] theorem State.modGroup_flt (s : State) (i : Nat) (f : Group → Group) : (s.modGroup i f).flt = s.flt := rfl

@[simp] theorem State.modGroup_otp (s : State) (i : Nat) (f : Group → Group) : (s.modGroup i f).otp = s.otp := rfl

@[simp] theorem State.modGroup_boot (s : State) (i : Nat) (f : Group → Group) : (s.modGroup i f).boot = s.boot := rfl

@[simp] theorem State.modGroup_nLinks (s : State) (i : Nat) (f : Group → Group) : (s.modGroup i f).nLinks = s.nLinks := rfl

@[simp] theorem State.modGroup_nHeads (s : State) (i : Nat) (f : Group → Group) : (s.modGroup i f).nHeads = s.nHeads := rfl

@[simp] theorem State.modGroup_now (s : State) (i : Nat) (f : Group → Group) : (s.modGroup i f).now = s.now := rfl

theorem State.modGroup_same (s : State) (i : Nat) (f : Group → Group) (h₀ : i < s.engine.groups.length) :
    (s.modGroup i f).group i = f (s.group i) := at'_modAt_same _ _ _ _ h₀

@[simp] theorem State.modGroup_ne (s : State) (i : Nat) (f : Group → Group) (k : Nat) (hk : i ≠ k) :
    (s.modGroup i f).group k = s.group k := at'_modAt_ne _ _ _ _ _ hk

/-! ### State.modRepctl -/

@[simp] theorem State.modRepctl_repctls (s : State) (i : Nat) (f : Repctl → Repctl) :
    (s.modRepctl i f).engine.repctls = modAt s.engine.repctls i f := rfl

@[simp] theorem State.modRepctl_engine_loops (s : State) (i : Nat) (f : Repctl → Repctl) :
    (s.modRepctl i f).engine.loops = s.engine.loops := rfl

@[simp] theorem State.modRepctl_engine_groups (s : State) (i : Nat) (f : Repctl → Repctl) :
    (s.modRepctl i f).engine.groups = s.engine.groups := rfl

@[simp] theorem State.modRepctl_engine_pdAt (s : State) (i : Nat) (f : Repctl → Repctl) :
    (s.modRepctl i f).engine.pdAt = s.engine.pdAt := rfl

@[simp] theorem State.modRepctl_engine_vars (s : State) (i : Nat) (f : Repctl → Repctl) :
    (s.modRepctl i f).engine.vars = s.engine.vars := rfl

@[simp] theorem State.modRepctl_engine_varsBefore (s : State) (i : Nat) (f : Repctl → Repctl) :
    (s.modRepctl i f).engine.varsBefore = s.engine.varsBefore := rfl

@[simp] theorem State.modRepctl_engine_tick (s : State) (i : Nat) (f : Repctl → Repctl) :
    (s.modRepctl i f).engine.tick = s.engine.tick := rfl

@[simp] theorem State.modRepctl_engine_load (s : State) (i : Nat) (f : Repctl → Repctl) :
    (s.modRepctl i f).engine.load = s.engine.load := rfl

@[simp] theorem State.modRepctl_pending (s : State) (i : Nat) (f : Repctl → Repctl) :
    (s.modRepctl i f).pending = s.pending := rfl

@[simp] theorem State.modRepctl_part (s : State) (i : Nat) (f : Repctl → Repctl) : (s.modRepctl i f).part = s.part := rfl

@[simp] theorem State.modRepctl_free (s : State) (i : Nat) (f : Repctl → Repctl) : (s.modRepctl i f).free = s.free := rfl

@[simp] theorem State.modRepctl_time (s : State) (i : Nat) (f : Repctl → Repctl) : (s.modRepctl i f).time = s.time := rfl

@[simp] theorem State.modRepctl_timeRuns (s : State) (i : Nat) (f : Repctl → Repctl) :
    (s.modRepctl i f).timeRuns = s.timeRuns := rfl

@[simp] theorem State.modRepctl_held (s : State) (i : Nat) (f : Repctl → Repctl) : (s.modRepctl i f).held = s.held := rfl

@[simp] theorem State.modRepctl_mci (s : State) (i : Nat) (f : Repctl → Repctl) : (s.modRepctl i f).mci = s.mci := rfl

@[simp] theorem State.modRepctl_sources (s : State) (i : Nat) (f : Repctl → Repctl) :
    (s.modRepctl i f).sources = s.sources := rfl

@[simp] theorem State.modRepctl_sync (s : State) (i : Nat) (f : Repctl → Repctl) : (s.modRepctl i f).sync = s.sync := rfl

@[simp] theorem State.modRepctl_links (s : State) (i : Nat) (f : Repctl → Repctl) : (s.modRepctl i f).links = s.links := rfl

@[simp] theorem State.modRepctl_nStop (s : State) (i : Nat) (f : Repctl → Repctl) : (s.modRepctl i f).nStop = s.nStop := rfl

@[simp] theorem State.modRepctl_rollback (s : State) (i : Nat) (f : Repctl → Repctl) :
    (s.modRepctl i f).rollback = s.rollback := rfl

@[simp] theorem State.modRepctl_jobSerial (s : State) (i : Nat) (f : Repctl → Repctl) :
    (s.modRepctl i f).jobSerial = s.jobSerial := rfl

@[simp] theorem State.modRepctl_stations (s : State) (i : Nat) (f : Repctl → Repctl) :
    (s.modRepctl i f).stations = s.stations := rfl

@[simp] theorem State.modRepctl_media (s : State) (i : Nat) (f : Repctl → Repctl) : (s.modRepctl i f).media = s.media := rfl

@[simp] theorem State.modRepctl_topUnmatched (s : State) (i : Nat) (f : Repctl → Repctl) :
    (s.modRepctl i f).topUnmatched = s.topUnmatched := rfl

@[simp] theorem State.modRepctl_gpi (s : State) (i : Nat) (f : Repctl → Repctl) : (s.modRepctl i f).gpi = s.gpi := rfl

@[simp] theorem State.modRepctl_bias (s : State) (i : Nat) (f : Repctl → Repctl) : (s.modRepctl i f).bias = s.bias := rfl

@[simp] theorem State.modRepctl_heaters (s : State) (i : Nat) (f : Repctl → Repctl) :
    (s.modRepctl i f).heaters = s.heaters := rfl

@[simp] theorem State.modRepctl_heads (s : State) (i : Nat) (f : Repctl → Repctl) : (s.modRepctl i f).heads = s.heads := rfl

@[simp] theorem State.modRepctl_forge (s : State) (i : Nat) (f : Repctl → Repctl) : (s.modRepctl i f).forge = s.forge := rfl

@[simp] theorem State.modRepctl_cam (s : State) (i : Nat) (f : Repctl → Repctl) : (s.modRepctl i f).cam = s.cam := rfl

@[simp] theorem State.modRepctl_lag (s : State) (i : Nat) (f : Repctl → Repctl) : (s.modRepctl i f).lag = s.lag := rfl

@[simp] theorem State.modRepctl_dram (s : State) (i : Nat) (f : Repctl → Repctl) : (s.modRepctl i f).dram = s.dram := rfl

@[simp] theorem State.modRepctl_dma (s : State) (i : Nat) (f : Repctl → Repctl) : (s.modRepctl i f).dma = s.dma := rfl

@[simp] theorem State.modRepctl_bldc (s : State) (i : Nat) (f : Repctl → Repctl) : (s.modRepctl i f).bldc = s.bldc := rfl

@[simp] theorem State.modRepctl_motion (s : State) (i : Nat) (f : Repctl → Repctl) :
    (s.modRepctl i f).motion = s.motion := rfl

@[simp] theorem State.modRepctl_clk (s : State) (i : Nat) (f : Repctl → Repctl) : (s.modRepctl i f).clk = s.clk := rfl

@[simp] theorem State.modRepctl_therm (s : State) (i : Nat) (f : Repctl → Repctl) : (s.modRepctl i f).therm = s.therm := rfl

@[simp] theorem State.modRepctl_pwr (s : State) (i : Nat) (f : Repctl → Repctl) : (s.modRepctl i f).pwr = s.pwr := rfl

@[simp] theorem State.modRepctl_atoll (s : State) (i : Nat) (f : Repctl → Repctl) : (s.modRepctl i f).atoll = s.atoll := rfl

@[simp] theorem State.modRepctl_lamps (s : State) (i : Nat) (f : Repctl → Repctl) : (s.modRepctl i f).lamps = s.lamps := rfl

@[simp] theorem State.modRepctl_flt (s : State) (i : Nat) (f : Repctl → Repctl) : (s.modRepctl i f).flt = s.flt := rfl

@[simp] theorem State.modRepctl_otp (s : State) (i : Nat) (f : Repctl → Repctl) : (s.modRepctl i f).otp = s.otp := rfl

@[simp] theorem State.modRepctl_boot (s : State) (i : Nat) (f : Repctl → Repctl) : (s.modRepctl i f).boot = s.boot := rfl

@[simp] theorem State.modRepctl_nLinks (s : State) (i : Nat) (f : Repctl → Repctl) :
    (s.modRepctl i f).nLinks = s.nLinks := rfl

@[simp] theorem State.modRepctl_nHeads (s : State) (i : Nat) (f : Repctl → Repctl) :
    (s.modRepctl i f).nHeads = s.nHeads := rfl

@[simp] theorem State.modRepctl_now (s : State) (i : Nat) (f : Repctl → Repctl) : (s.modRepctl i f).now = s.now := rfl

theorem State.modRepctl_same (s : State) (i : Nat) (f : Repctl → Repctl) (h₀ : i < s.engine.repctls.length) :
    (s.modRepctl i f).repctl i = f (s.repctl i) := at'_modAt_same _ _ _ _ h₀

@[simp] theorem State.modRepctl_ne (s : State) (i : Nat) (f : Repctl → Repctl) (k : Nat) (hk : i ≠ k) :
    (s.modRepctl i f).repctl k = s.repctl k := at'_modAt_ne _ _ _ _ _ hk

/-! ### State.modProgram -/

@[simp] theorem State.modProgram_programs (s : State) (i : Nat) (f : Program → Program) :
    (s.modProgram i f).forge.programs = modAt s.forge.programs i f := rfl

@[simp] theorem State.modProgram_forge_layer (s : State) (i : Nat) (f : Program → Program) :
    (s.modProgram i f).forge.layer = s.forge.layer := rfl

@[simp] theorem State.modProgram_forge_number (s : State) (i : Nat) (f : Program → Program) :
    (s.modProgram i f).forge.number = s.forge.number := rfl

@[simp] theorem State.modProgram_forge_program (s : State) (i : Nat) (f : Program → Program) :
    (s.modProgram i f).forge.program = s.forge.program := rfl

@[simp] theorem State.modProgram_forge_anchor (s : State) (i : Nat) (f : Program → Program) :
    (s.modProgram i f).forge.anchor = s.forge.anchor := rfl

@[simp] theorem State.modProgram_forge_startPhase (s : State) (i : Nat) (f : Program → Program) :
    (s.modProgram i f).forge.startPhase = s.forge.startPhase := rfl

@[simp] theorem State.modProgram_forge_zFocus (s : State) (i : Nat) (f : Program → Program) :
    (s.modProgram i f).forge.zFocus = s.forge.zFocus := rfl

@[simp] theorem State.modProgram_forge_fenceTimeout (s : State) (i : Nat) (f : Program → Program) :
    (s.modProgram i f).forge.fenceTimeout = s.forge.fenceTimeout := rfl

@[simp] theorem State.modProgram_forge_startAt (s : State) (i : Nat) (f : Program → Program) :
    (s.modProgram i f).forge.startAt = s.forge.startAt := rfl

@[simp] theorem State.modProgram_forge_ctx (s : State) (i : Nat) (f : Program → Program) :
    (s.modProgram i f).forge.ctx = s.forge.ctx := rfl

@[simp] theorem State.modProgram_forge_pausing (s : State) (i : Nat) (f : Program → Program) :
    (s.modProgram i f).forge.pausing = s.forge.pausing := rfl

@[simp] theorem State.modProgram_forge_abort (s : State) (i : Nat) (f : Program → Program) :
    (s.modProgram i f).forge.abort = s.forge.abort := rfl

@[simp] theorem State.modProgram_forge_gated (s : State) (i : Nat) (f : Program → Program) :
    (s.modProgram i f).forge.gated = s.forge.gated := rfl

@[simp] theorem State.modProgram_forge_terminal (s : State) (i : Nat) (f : Program → Program) :
    (s.modProgram i f).forge.terminal = s.forge.terminal := rfl

@[simp] theorem State.modProgram_forge_flags (s : State) (i : Nat) (f : Program → Program) :
    (s.modProgram i f).forge.flags = s.forge.flags := rfl

@[simp] theorem State.modProgram_forge_firstCommit (s : State) (i : Nat) (f : Program → Program) :
    (s.modProgram i f).forge.firstCommit = s.forge.firstCommit := rfl

@[simp] theorem State.modProgram_forge_lastHandoff (s : State) (i : Nat) (f : Program → Program) :
    (s.modProgram i f).forge.lastHandoff = s.forge.lastHandoff := rfl

@[simp] theorem State.modProgram_forge_vectors (s : State) (i : Nat) (f : Program → Program) :
    (s.modProgram i f).forge.vectors = s.forge.vectors := rfl

@[simp] theorem State.modProgram_forge_implicit (s : State) (i : Nat) (f : Program → Program) :
    (s.modProgram i f).forge.implicit = s.forge.implicit := rfl

@[simp] theorem State.modProgram_forge_unexecuted (s : State) (i : Nat) (f : Program → Program) :
    (s.modProgram i f).forge.unexecuted = s.forge.unexecuted := rfl

@[simp] theorem State.modProgram_forge_fencesPassed (s : State) (i : Nat) (f : Program → Program) :
    (s.modProgram i f).forge.fencesPassed = s.forge.fencesPassed := rfl

@[simp] theorem State.modProgram_forge_recoat (s : State) (i : Nat) (f : Program → Program) :
    (s.modProgram i f).forge.recoat = s.forge.recoat := rfl

@[simp] theorem State.modProgram_forge_strait (s : State) (i : Nat) (f : Program → Program) :
    (s.modProgram i f).forge.strait = s.forge.strait := rfl

@[simp] theorem State.modProgram_forge_straitNext (s : State) (i : Nat) (f : Program → Program) :
    (s.modProgram i f).forge.straitNext = s.forge.straitNext := rfl

@[simp] theorem State.modProgram_forge_unexecListed (s : State) (i : Nat) (f : Program → Program) :
    (s.modProgram i f).forge.unexecListed = s.forge.unexecListed := rfl

@[simp] theorem State.modProgram_forge_reassign (s : State) (i : Nat) (f : Program → Program) :
    (s.modProgram i f).forge.reassign = s.forge.reassign := rfl

@[simp] theorem State.modProgram_forge_retireCtx (s : State) (i : Nat) (f : Program → Program) :
    (s.modProgram i f).forge.retireCtx = s.forge.retireCtx := rfl

@[simp] theorem State.modProgram_forge_permitStrings (s : State) (i : Nat) (f : Program → Program) :
    (s.modProgram i f).forge.permitStrings = s.forge.permitStrings := rfl

@[simp] theorem State.modProgram_forge_permitDwell (s : State) (i : Nat) (f : Program → Program) :
    (s.modProgram i f).forge.permitDwell = s.forge.permitDwell := rfl

@[simp] theorem State.modProgram_forge_permitSince (s : State) (i : Nat) (f : Program → Program) :
    (s.modProgram i f).forge.permitSince = s.forge.permitSince := rfl

@[simp] theorem State.modProgram_forge_permitLost (s : State) (i : Nat) (f : Program → Program) :
    (s.modProgram i f).forge.permitLost = s.forge.permitLost := rfl

@[simp] theorem State.modProgram_pending (s : State) (i : Nat) (f : Program → Program) :
    (s.modProgram i f).pending = s.pending := rfl

@[simp] theorem State.modProgram_part (s : State) (i : Nat) (f : Program → Program) : (s.modProgram i f).part = s.part := rfl

@[simp] theorem State.modProgram_free (s : State) (i : Nat) (f : Program → Program) : (s.modProgram i f).free = s.free := rfl

@[simp] theorem State.modProgram_time (s : State) (i : Nat) (f : Program → Program) : (s.modProgram i f).time = s.time := rfl

@[simp] theorem State.modProgram_timeRuns (s : State) (i : Nat) (f : Program → Program) :
    (s.modProgram i f).timeRuns = s.timeRuns := rfl

@[simp] theorem State.modProgram_held (s : State) (i : Nat) (f : Program → Program) : (s.modProgram i f).held = s.held := rfl

@[simp] theorem State.modProgram_mci (s : State) (i : Nat) (f : Program → Program) : (s.modProgram i f).mci = s.mci := rfl

@[simp] theorem State.modProgram_sources (s : State) (i : Nat) (f : Program → Program) :
    (s.modProgram i f).sources = s.sources := rfl

@[simp] theorem State.modProgram_sync (s : State) (i : Nat) (f : Program → Program) : (s.modProgram i f).sync = s.sync := rfl

@[simp] theorem State.modProgram_links (s : State) (i : Nat) (f : Program → Program) :
    (s.modProgram i f).links = s.links := rfl

@[simp] theorem State.modProgram_nStop (s : State) (i : Nat) (f : Program → Program) :
    (s.modProgram i f).nStop = s.nStop := rfl

@[simp] theorem State.modProgram_rollback (s : State) (i : Nat) (f : Program → Program) :
    (s.modProgram i f).rollback = s.rollback := rfl

@[simp] theorem State.modProgram_jobSerial (s : State) (i : Nat) (f : Program → Program) :
    (s.modProgram i f).jobSerial = s.jobSerial := rfl

@[simp] theorem State.modProgram_stations (s : State) (i : Nat) (f : Program → Program) :
    (s.modProgram i f).stations = s.stations := rfl

@[simp] theorem State.modProgram_media (s : State) (i : Nat) (f : Program → Program) :
    (s.modProgram i f).media = s.media := rfl

@[simp] theorem State.modProgram_topUnmatched (s : State) (i : Nat) (f : Program → Program) :
    (s.modProgram i f).topUnmatched = s.topUnmatched := rfl

@[simp] theorem State.modProgram_gpi (s : State) (i : Nat) (f : Program → Program) : (s.modProgram i f).gpi = s.gpi := rfl

@[simp] theorem State.modProgram_bias (s : State) (i : Nat) (f : Program → Program) : (s.modProgram i f).bias = s.bias := rfl

@[simp] theorem State.modProgram_heaters (s : State) (i : Nat) (f : Program → Program) :
    (s.modProgram i f).heaters = s.heaters := rfl

@[simp] theorem State.modProgram_heads (s : State) (i : Nat) (f : Program → Program) :
    (s.modProgram i f).heads = s.heads := rfl

@[simp] theorem State.modProgram_engine (s : State) (i : Nat) (f : Program → Program) :
    (s.modProgram i f).engine = s.engine := rfl

@[simp] theorem State.modProgram_cam (s : State) (i : Nat) (f : Program → Program) : (s.modProgram i f).cam = s.cam := rfl

@[simp] theorem State.modProgram_lag (s : State) (i : Nat) (f : Program → Program) : (s.modProgram i f).lag = s.lag := rfl

@[simp] theorem State.modProgram_dram (s : State) (i : Nat) (f : Program → Program) : (s.modProgram i f).dram = s.dram := rfl

@[simp] theorem State.modProgram_dma (s : State) (i : Nat) (f : Program → Program) : (s.modProgram i f).dma = s.dma := rfl

@[simp] theorem State.modProgram_bldc (s : State) (i : Nat) (f : Program → Program) : (s.modProgram i f).bldc = s.bldc := rfl

@[simp] theorem State.modProgram_motion (s : State) (i : Nat) (f : Program → Program) :
    (s.modProgram i f).motion = s.motion := rfl

@[simp] theorem State.modProgram_clk (s : State) (i : Nat) (f : Program → Program) : (s.modProgram i f).clk = s.clk := rfl

@[simp] theorem State.modProgram_therm (s : State) (i : Nat) (f : Program → Program) :
    (s.modProgram i f).therm = s.therm := rfl

@[simp] theorem State.modProgram_pwr (s : State) (i : Nat) (f : Program → Program) : (s.modProgram i f).pwr = s.pwr := rfl

@[simp] theorem State.modProgram_atoll (s : State) (i : Nat) (f : Program → Program) :
    (s.modProgram i f).atoll = s.atoll := rfl

@[simp] theorem State.modProgram_lamps (s : State) (i : Nat) (f : Program → Program) :
    (s.modProgram i f).lamps = s.lamps := rfl

@[simp] theorem State.modProgram_flt (s : State) (i : Nat) (f : Program → Program) : (s.modProgram i f).flt = s.flt := rfl

@[simp] theorem State.modProgram_otp (s : State) (i : Nat) (f : Program → Program) : (s.modProgram i f).otp = s.otp := rfl

@[simp] theorem State.modProgram_boot (s : State) (i : Nat) (f : Program → Program) : (s.modProgram i f).boot = s.boot := rfl

@[simp] theorem State.modProgram_nLinks (s : State) (i : Nat) (f : Program → Program) :
    (s.modProgram i f).nLinks = s.nLinks := rfl

@[simp] theorem State.modProgram_nHeads (s : State) (i : Nat) (f : Program → Program) :
    (s.modProgram i f).nHeads = s.nHeads := rfl

@[simp] theorem State.modProgram_now (s : State) (i : Nat) (f : Program → Program) : (s.modProgram i f).now = s.now := rfl

/-! ### State.modRail -/

@[simp] theorem State.modRail_rails (s : State) (n : Nat) (f : Rail → Rail) :
    (s.modRail n f).pwr.rails = modAt s.pwr.rails n f := rfl

@[simp] theorem State.modRail_pwr_st (s : State) (n : Nat) (f : Rail → Rail) : (s.modRail n f).pwr.st = s.pwr.st := rfl

@[simp] theorem State.modRail_pwr_slot (s : State) (n : Nat) (f : Rail → Rail) : (s.modRail n f).pwr.slot = s.pwr.slot := rfl

@[simp] theorem State.modRail_pwr_settling (s : State) (n : Nat) (f : Rail → Rail) :
    (s.modRail n f).pwr.settling = s.pwr.settling := rfl

@[simp] theorem State.modRail_pwr_stepAt (s : State) (n : Nat) (f : Rail → Rail) :
    (s.modRail n f).pwr.stepAt = s.pwr.stepAt := rfl

@[simp] theorem State.modRail_pwr_minOff (s : State) (n : Nat) (f : Rail → Rail) :
    (s.modRail n f).pwr.minOff = s.pwr.minOff := rfl

@[simp] theorem State.modRail_pwr_minOffAt (s : State) (n : Nat) (f : Rail → Rail) :
    (s.modRail n f).pwr.minOffAt = s.pwr.minOffAt := rfl

@[simp] theorem State.modRail_pwr_latch (s : State) (n : Nat) (f : Rail → Rail) :
    (s.modRail n f).pwr.latch = s.pwr.latch := rfl

@[simp] theorem State.modRail_pwr_heldOn (s : State) (n : Nat) (f : Rail → Rail) :
    (s.modRail n f).pwr.heldOn = s.pwr.heldOn := rfl

@[simp] theorem State.modRail_pwr_grace (s : State) (n : Nat) (f : Rail → Rail) :
    (s.modRail n f).pwr.grace = s.pwr.grace := rfl

@[simp] theorem State.modRail_pwr_latchedOff (s : State) (n : Nat) (f : Rail → Rail) :
    (s.modRail n f).pwr.latchedOff = s.pwr.latchedOff := rfl

@[simp] theorem State.modRail_pwr_endKeep (s : State) (n : Nat) (f : Rail → Rail) :
    (s.modRail n f).pwr.endKeep = s.pwr.endKeep := rfl

@[simp] theorem State.modRail_pwr_upCtx (s : State) (n : Nat) (f : Rail → Rail) :
    (s.modRail n f).pwr.upCtx = s.pwr.upCtx := rfl

@[simp] theorem State.modRail_pwr_cause (s : State) (n : Nat) (f : Rail → Rail) :
    (s.modRail n f).pwr.cause = s.pwr.cause := rfl

@[simp] theorem State.modRail_pwr_topSlot (s : State) (n : Nat) (f : Rail → Rail) :
    (s.modRail n f).pwr.topSlot = s.pwr.topSlot := rfl

@[simp] theorem State.modRail_pwr_downCtx (s : State) (n : Nat) (f : Rail → Rail) :
    (s.modRail n f).pwr.downCtx = s.pwr.downCtx := rfl

@[simp] theorem State.modRail_pwr_sysIn (s : State) (n : Nat) (f : Rail → Rail) :
    (s.modRail n f).pwr.sysIn = s.pwr.sysIn := rfl

@[simp] theorem State.modRail_pwr_pullWdog (s : State) (n : Nat) (f : Rail → Rail) :
    (s.modRail n f).pwr.pullWdog = s.pwr.pullWdog := rfl

@[simp] theorem State.modRail_pwr_pullFatal (s : State) (n : Nat) (f : Rail → Rail) :
    (s.modRail n f).pwr.pullFatal = s.pwr.pullFatal := rfl

@[simp] theorem State.modRail_pwr_supplyLost (s : State) (n : Nat) (f : Rail → Rail) :
    (s.modRail n f).pwr.supplyLost = s.pwr.supplyLost := rfl

@[simp] theorem State.modRail_pwr_dropMain (s : State) (n : Nat) (f : Rail → Rail) :
    (s.modRail n f).pwr.dropMain = s.pwr.dropMain := rfl

@[simp] theorem State.modRail_pwr_pressHeld (s : State) (n : Nat) (f : Rail → Rail) :
    (s.modRail n f).pwr.pressHeld = s.pwr.pressHeld := rfl

@[simp] theorem State.modRail_pwr_railFaults (s : State) (n : Nat) (f : Rail → Rail) :
    (s.modRail n f).pwr.railFaults = s.pwr.railFaults := rfl

@[simp] theorem State.modRail_pwr_vbatMv (s : State) (n : Nat) (f : Rail → Rail) :
    (s.modRail n f).pwr.vbatMv = s.pwr.vbatMv := rfl

@[simp] theorem State.modRail_pending (s : State) (n : Nat) (f : Rail → Rail) : (s.modRail n f).pending = s.pending := rfl

@[simp] theorem State.modRail_part (s : State) (n : Nat) (f : Rail → Rail) : (s.modRail n f).part = s.part := rfl

@[simp] theorem State.modRail_free (s : State) (n : Nat) (f : Rail → Rail) : (s.modRail n f).free = s.free := rfl

@[simp] theorem State.modRail_time (s : State) (n : Nat) (f : Rail → Rail) : (s.modRail n f).time = s.time := rfl

@[simp] theorem State.modRail_timeRuns (s : State) (n : Nat) (f : Rail → Rail) : (s.modRail n f).timeRuns = s.timeRuns := rfl

@[simp] theorem State.modRail_held (s : State) (n : Nat) (f : Rail → Rail) : (s.modRail n f).held = s.held := rfl

@[simp] theorem State.modRail_mci (s : State) (n : Nat) (f : Rail → Rail) : (s.modRail n f).mci = s.mci := rfl

@[simp] theorem State.modRail_sources (s : State) (n : Nat) (f : Rail → Rail) : (s.modRail n f).sources = s.sources := rfl

@[simp] theorem State.modRail_sync (s : State) (n : Nat) (f : Rail → Rail) : (s.modRail n f).sync = s.sync := rfl

@[simp] theorem State.modRail_links (s : State) (n : Nat) (f : Rail → Rail) : (s.modRail n f).links = s.links := rfl

@[simp] theorem State.modRail_nStop (s : State) (n : Nat) (f : Rail → Rail) : (s.modRail n f).nStop = s.nStop := rfl

@[simp] theorem State.modRail_rollback (s : State) (n : Nat) (f : Rail → Rail) : (s.modRail n f).rollback = s.rollback := rfl

@[simp] theorem State.modRail_jobSerial (s : State) (n : Nat) (f : Rail → Rail) :
    (s.modRail n f).jobSerial = s.jobSerial := rfl

@[simp] theorem State.modRail_stations (s : State) (n : Nat) (f : Rail → Rail) : (s.modRail n f).stations = s.stations := rfl

@[simp] theorem State.modRail_media (s : State) (n : Nat) (f : Rail → Rail) : (s.modRail n f).media = s.media := rfl

@[simp] theorem State.modRail_topUnmatched (s : State) (n : Nat) (f : Rail → Rail) :
    (s.modRail n f).topUnmatched = s.topUnmatched := rfl

@[simp] theorem State.modRail_gpi (s : State) (n : Nat) (f : Rail → Rail) : (s.modRail n f).gpi = s.gpi := rfl

@[simp] theorem State.modRail_bias (s : State) (n : Nat) (f : Rail → Rail) : (s.modRail n f).bias = s.bias := rfl

@[simp] theorem State.modRail_heaters (s : State) (n : Nat) (f : Rail → Rail) : (s.modRail n f).heaters = s.heaters := rfl

@[simp] theorem State.modRail_heads (s : State) (n : Nat) (f : Rail → Rail) : (s.modRail n f).heads = s.heads := rfl

@[simp] theorem State.modRail_forge (s : State) (n : Nat) (f : Rail → Rail) : (s.modRail n f).forge = s.forge := rfl

@[simp] theorem State.modRail_engine (s : State) (n : Nat) (f : Rail → Rail) : (s.modRail n f).engine = s.engine := rfl

@[simp] theorem State.modRail_cam (s : State) (n : Nat) (f : Rail → Rail) : (s.modRail n f).cam = s.cam := rfl

@[simp] theorem State.modRail_lag (s : State) (n : Nat) (f : Rail → Rail) : (s.modRail n f).lag = s.lag := rfl

@[simp] theorem State.modRail_dram (s : State) (n : Nat) (f : Rail → Rail) : (s.modRail n f).dram = s.dram := rfl

@[simp] theorem State.modRail_dma (s : State) (n : Nat) (f : Rail → Rail) : (s.modRail n f).dma = s.dma := rfl

@[simp] theorem State.modRail_bldc (s : State) (n : Nat) (f : Rail → Rail) : (s.modRail n f).bldc = s.bldc := rfl

@[simp] theorem State.modRail_motion (s : State) (n : Nat) (f : Rail → Rail) : (s.modRail n f).motion = s.motion := rfl

@[simp] theorem State.modRail_clk (s : State) (n : Nat) (f : Rail → Rail) : (s.modRail n f).clk = s.clk := rfl

@[simp] theorem State.modRail_therm (s : State) (n : Nat) (f : Rail → Rail) : (s.modRail n f).therm = s.therm := rfl

@[simp] theorem State.modRail_atoll (s : State) (n : Nat) (f : Rail → Rail) : (s.modRail n f).atoll = s.atoll := rfl

@[simp] theorem State.modRail_lamps (s : State) (n : Nat) (f : Rail → Rail) : (s.modRail n f).lamps = s.lamps := rfl

@[simp] theorem State.modRail_flt (s : State) (n : Nat) (f : Rail → Rail) : (s.modRail n f).flt = s.flt := rfl

@[simp] theorem State.modRail_otp (s : State) (n : Nat) (f : Rail → Rail) : (s.modRail n f).otp = s.otp := rfl

@[simp] theorem State.modRail_boot (s : State) (n : Nat) (f : Rail → Rail) : (s.modRail n f).boot = s.boot := rfl

@[simp] theorem State.modRail_nLinks (s : State) (n : Nat) (f : Rail → Rail) : (s.modRail n f).nLinks = s.nLinks := rfl

@[simp] theorem State.modRail_nHeads (s : State) (n : Nat) (f : Rail → Rail) : (s.modRail n f).nHeads = s.nHeads := rfl

@[simp] theorem State.modRail_now (s : State) (n : Nat) (f : Rail → Rail) : (s.modRail n f).now = s.now := rfl

theorem State.modRail_same (s : State) (n : Nat) (f : Rail → Rail) (h₀ : n < s.pwr.rails.length) :
    (s.modRail n f).rail n = f (s.rail n) := at'_modAt_same _ _ _ _ h₀

@[simp] theorem State.modRail_ne (s : State) (n : Nat) (f : Rail → Rail) (k : Nat) (hk : n ≠ k) :
    (s.modRail n f).rail k = s.rail k := at'_modAt_ne _ _ _ _ _ hk

/-! ### State.modUnit -/

@[simp] theorem State.modUnit_units (s : State) (u : Nat) (f : Unit' → Unit') :
    (s.modUnit u f).therm.units = modAt s.therm.units u f := rfl

@[simp] theorem State.modUnit_therm_sensors (s : State) (u : Nat) (f : Unit' → Unit') :
    (s.modUnit u f).therm.sensors = s.therm.sensors := rfl

@[simp] theorem State.modUnit_therm_thermistors (s : State) (u : Nat) (f : Unit' → Unit') :
    (s.modUnit u f).therm.thermistors = s.therm.thermistors := rfl

@[simp] theorem State.modUnit_pending (s : State) (u : Nat) (f : Unit' → Unit') : (s.modUnit u f).pending = s.pending := rfl

@[simp] theorem State.modUnit_part (s : State) (u : Nat) (f : Unit' → Unit') : (s.modUnit u f).part = s.part := rfl

@[simp] theorem State.modUnit_free (s : State) (u : Nat) (f : Unit' → Unit') : (s.modUnit u f).free = s.free := rfl

@[simp] theorem State.modUnit_time (s : State) (u : Nat) (f : Unit' → Unit') : (s.modUnit u f).time = s.time := rfl

@[simp] theorem State.modUnit_timeRuns (s : State) (u : Nat) (f : Unit' → Unit') :
    (s.modUnit u f).timeRuns = s.timeRuns := rfl

@[simp] theorem State.modUnit_held (s : State) (u : Nat) (f : Unit' → Unit') : (s.modUnit u f).held = s.held := rfl

@[simp] theorem State.modUnit_mci (s : State) (u : Nat) (f : Unit' → Unit') : (s.modUnit u f).mci = s.mci := rfl

@[simp] theorem State.modUnit_sources (s : State) (u : Nat) (f : Unit' → Unit') : (s.modUnit u f).sources = s.sources := rfl

@[simp] theorem State.modUnit_sync (s : State) (u : Nat) (f : Unit' → Unit') : (s.modUnit u f).sync = s.sync := rfl

@[simp] theorem State.modUnit_links (s : State) (u : Nat) (f : Unit' → Unit') : (s.modUnit u f).links = s.links := rfl

@[simp] theorem State.modUnit_nStop (s : State) (u : Nat) (f : Unit' → Unit') : (s.modUnit u f).nStop = s.nStop := rfl

@[simp] theorem State.modUnit_rollback (s : State) (u : Nat) (f : Unit' → Unit') :
    (s.modUnit u f).rollback = s.rollback := rfl

@[simp] theorem State.modUnit_jobSerial (s : State) (u : Nat) (f : Unit' → Unit') :
    (s.modUnit u f).jobSerial = s.jobSerial := rfl

@[simp] theorem State.modUnit_stations (s : State) (u : Nat) (f : Unit' → Unit') :
    (s.modUnit u f).stations = s.stations := rfl

@[simp] theorem State.modUnit_media (s : State) (u : Nat) (f : Unit' → Unit') : (s.modUnit u f).media = s.media := rfl

@[simp] theorem State.modUnit_topUnmatched (s : State) (u : Nat) (f : Unit' → Unit') :
    (s.modUnit u f).topUnmatched = s.topUnmatched := rfl

@[simp] theorem State.modUnit_gpi (s : State) (u : Nat) (f : Unit' → Unit') : (s.modUnit u f).gpi = s.gpi := rfl

@[simp] theorem State.modUnit_bias (s : State) (u : Nat) (f : Unit' → Unit') : (s.modUnit u f).bias = s.bias := rfl

@[simp] theorem State.modUnit_heaters (s : State) (u : Nat) (f : Unit' → Unit') : (s.modUnit u f).heaters = s.heaters := rfl

@[simp] theorem State.modUnit_heads (s : State) (u : Nat) (f : Unit' → Unit') : (s.modUnit u f).heads = s.heads := rfl

@[simp] theorem State.modUnit_forge (s : State) (u : Nat) (f : Unit' → Unit') : (s.modUnit u f).forge = s.forge := rfl

@[simp] theorem State.modUnit_engine (s : State) (u : Nat) (f : Unit' → Unit') : (s.modUnit u f).engine = s.engine := rfl

@[simp] theorem State.modUnit_cam (s : State) (u : Nat) (f : Unit' → Unit') : (s.modUnit u f).cam = s.cam := rfl

@[simp] theorem State.modUnit_lag (s : State) (u : Nat) (f : Unit' → Unit') : (s.modUnit u f).lag = s.lag := rfl

@[simp] theorem State.modUnit_dram (s : State) (u : Nat) (f : Unit' → Unit') : (s.modUnit u f).dram = s.dram := rfl

@[simp] theorem State.modUnit_dma (s : State) (u : Nat) (f : Unit' → Unit') : (s.modUnit u f).dma = s.dma := rfl

@[simp] theorem State.modUnit_bldc (s : State) (u : Nat) (f : Unit' → Unit') : (s.modUnit u f).bldc = s.bldc := rfl

@[simp] theorem State.modUnit_motion (s : State) (u : Nat) (f : Unit' → Unit') : (s.modUnit u f).motion = s.motion := rfl

@[simp] theorem State.modUnit_clk (s : State) (u : Nat) (f : Unit' → Unit') : (s.modUnit u f).clk = s.clk := rfl

@[simp] theorem State.modUnit_pwr (s : State) (u : Nat) (f : Unit' → Unit') : (s.modUnit u f).pwr = s.pwr := rfl

@[simp] theorem State.modUnit_atoll (s : State) (u : Nat) (f : Unit' → Unit') : (s.modUnit u f).atoll = s.atoll := rfl

@[simp] theorem State.modUnit_lamps (s : State) (u : Nat) (f : Unit' → Unit') : (s.modUnit u f).lamps = s.lamps := rfl

@[simp] theorem State.modUnit_flt (s : State) (u : Nat) (f : Unit' → Unit') : (s.modUnit u f).flt = s.flt := rfl

@[simp] theorem State.modUnit_otp (s : State) (u : Nat) (f : Unit' → Unit') : (s.modUnit u f).otp = s.otp := rfl

@[simp] theorem State.modUnit_boot (s : State) (u : Nat) (f : Unit' → Unit') : (s.modUnit u f).boot = s.boot := rfl

@[simp] theorem State.modUnit_nLinks (s : State) (u : Nat) (f : Unit' → Unit') : (s.modUnit u f).nLinks = s.nLinks := rfl

@[simp] theorem State.modUnit_nHeads (s : State) (u : Nat) (f : Unit' → Unit') : (s.modUnit u f).nHeads = s.nHeads := rfl

@[simp] theorem State.modUnit_now (s : State) (u : Nat) (f : Unit' → Unit') : (s.modUnit u f).now = s.now := rfl

theorem State.modUnit_same (s : State) (u : Nat) (f : Unit' → Unit') (h₀ : u < s.therm.units.length) :
    (s.modUnit u f).unit u = f (s.unit u) := at'_modAt_same _ _ _ _ h₀

@[simp] theorem State.modUnit_ne (s : State) (u : Nat) (f : Unit' → Unit') (k : Nat) (hk : u ≠ k) :
    (s.modUnit u f).unit k = s.unit k := at'_modAt_ne _ _ _ _ _ hk

end Sys2Proof.Machine
end

