-- ==== Sys2Proof/WellFormed.lean ====
section
/-!
DEFINITION. Well-formed commands: every index lies in the range that spec/00_scope.md R4 and the chapter of the row
give it, and a request carries a payload that a message can hold (R50). `Machine.exec` is total on the ill-formed ones
too: a unit that does not exist does nothing.
-/
namespace Sys2Proof

/-- A request comes from one of the 8 mailboxes (R43) or the urgent one (R63); its payload has 0 to 236 bytes (44 in the urgent one), a multiple
of 4 (R50). -/
def Req.wf (rq : Req) : Bool :=
  (decide (rq.mailbox < 8) || rq.mailbox == 255) && decide (rq.payload.length ≤ if rq.mailbox == 255 then 44 else 236) && decide (rq.payload.length % 4 = 0)

/-- A unit of commitment belongs to one of the 4 stations or the 24 heads (R3, R143). -/
def UnitId.wf : UnitId → Bool
  | .sweep station _ => decide (station < 4)
  | .vector head _ => decide (head < 24)

/-- An owner of a tile is one of the 4 stations or the 24 heads (R300). -/
def TileOwner.wf : TileOwner → Bool
  | .free => true
  | .station i => decide (i < 4)
  | .head i => decide (i < 24)

/-- A tile header names an owner that exists (R300). -/
def FillHdr.wf (h : FillHdr) : Bool := h.owner.wf

/-- A CSI-2 packet's payload has a length that a word count can give (R274). -/
def CamPacket.wf (c : CamPacket) : Bool := decide (c.payload.length < 65536)

/-- A DRAM request names one of 64 requester IDs (R330), and a write carries its length in data. -/
def DramReq.wf (r : DramReq) : Bool :=
  decide (r.requester < 64) && (match r.data with | some d => decide (d.length = r.len) | none => true)

/-- The checks of one command. -/
def Instr.wf : Instr → Bool
  | .requestDoorbell _ p _ => decide (p < 8)
  | .requestConsume p => decide (p < 8)
  | .replyPost p => decide (p < 8)
  | .replyCiAdvance p _ => decide (p < 8)
  | .eventPost _ _ => true
  | .mciReplyLate p _ => decide (p < 8)
  | .sessionIdleTimeout p => decide (p < 8)
  | .urgentGo _ => true
  | .urgentReplyPost => true
  | .msixVectorUnmask v => decide (v < 64)
  | .registerWrite _ _ _ _ => true
  | .hostLinkReset => true
  | .hello rq => rq.wf
  | .coreInfo rq => rq.wf
  | .corePing rq => rq.wf
  | .coreReset rq => rq.wf
  | .coreSessionOpen rq => rq.wf
  | .coreSessionClose rq => rq.wf
  | .coreVlogRead rq => rq.wf
  | .urgentStop rq => rq.wf
  | .urgentHalt rq => rq.wf
  | .urgentRelease rq => rq.wf
  | .timebaseSourceSet rq => rq.wf
  | .timebaseSourceStatus rq => rq.wf
  | .timebaseSyncConfig rq => rq.wf
  | .timebaseFilterRaw rq => rq.wf
  | .edgeCapture source _ => decide (source < 96)
  | .trackerEdgeUpdate source => decide (source < 96)
  | .sourceLostTimeout source => decide (source < 96)
  | .syncFrameStart => true
  | .syncSlotReceive dev _ => decide (dev < 8)
  | .syncMasterSilent => true
  | .syncPeerSilent dev => decide (dev < 8)
  | .syncJoinMeasure _ => true
  | .syncJoinEcho => true
  | .syncJoinDeadline => true
  | .laneMap rq => rq.wf
  | .linkConfig rq => rq.wf
  | .linkStatus rq => rq.wf
  | .laneGateRelease rq => rq.wf
  | .linkConfigRaw rq => rq.wf
  | .gateReleaseAt link => decide (link < 24)
  | .commaLock link => decide (link < 24)
  | .capReplyReceive link _ => decide (link < 24)
  | .ackReceive link _ _ => decide (link < 24)
  | .probeEchoReceive link _ _ => decide (link < 24)
  | .telemetryReceive link _ => decide (link < 24)
  | .statusReceive link _ => decide (link < 24)
  | .backchannelCodeError link => decide (link < 24)
  | .resyncRelock link => decide (link < 24)
  | .ackTimeout link => decide (link < 24)
  | .capReplyTimeout link => decide (link < 24)
  | .telemetryTimeout link => decide (link < 24)
  | .commaLossTimeout link => decide (link < 24)
  | .linkTrainDeadline link => decide (link < 24)
  | .linkRetrainTimer link => decide (link < 24)
  | .violationWindowStart => true
  | .timesyncSend link => decide (link < 24)
  | .keepaliveSend link => decide (link < 24)
  | .gateWordRepeat link => decide (link < 24)
  | .nstopFall _ => true
  | .nstopRise _ => true
  | .eventQueue lane _ => decide (lane < 192)
  | .weirHandoff lane => decide (lane < 192)
  | .runaheadConfig rq => rq.wf
  | .runaheadStatus rq => rq.wf
  | .runaheadRollbackForce rq => rq.wf
  | .forgeVectorAdmit head => decide (head < 24)
  | .tileAdmissionCheckDone handle => decide (handle < 4096)
  | .rollbackComplete _ => true
  | .rollbackOvertime => true
  | .unitReady u => u.wf
  | .pressStationConfig rq => rq.wf
  | .pressBeamTable rq => rq.wf
  | .pressPixelTable rq => rq.wf
  | .pressDeltaTable rq => rq.wf
  | .pressDeltaTableLoaded station _ => decide (station < 4)
  | .pressDeltaStatus rq => rq.wf
  | .pressDeltaClear rq => rq.wf
  | .pressStationStatus rq => rq.wf
  | .pressBeamForceDead rq => rq.wf
  | .armedJobNoTrack station => decide (station < 4)
  | .pressMediaConfig rq => rq.wf
  | .pressPageSubmit rq => rq.wf
  | .pressPageAbort rq => rq.wf
  | .pressInterlockAssign rq => rq.wf
  | .pressBiasConfig rq => rq.wf
  | .pressFuserConfig rq => rq.wf
  | .pressBiasRaw rq => rq.wf
  | .gpiInputEdge input _ => decide (input < 32)
  | .interlockDebounceExpiry input => decide (input < 32)
  | .biasRangeTimeout channel => decide (channel < 16)
  | .heaterDecision heater _ => decide (heater < 4)
  | .heaterGatePulse heater => decide (heater < 4)
  | .fuserTempRead heater counts => decide (heater < 4) && decide (counts < 4096)
  | .forgeHeadConfig rq => rq.wf
  | .forgeProgramLoad rq => rq.wf
  | .forgeProgramCheckDone slot => decide (slot < 4)
  | .forgeLayerRecoat rq => rq.wf
  | .recoatTimeout => true
  | .forgeLayerArm rq => rq.wf
  | .forgeLayerExpose rq => rq.wf
  | .forgeLayerPause rq => rq.wf
  | .forgeLayerResume rq => rq.wf
  | .forgeLayerAbort rq => rq.wf
  | .forgeLayerStatus rq => rq.wf
  | .forgeInterlockAssign rq => rq.wf
  | .forgeHeadJog rq => rq.wf
  | .fenceTimeout head => decide (head < 24)
  | .graceExpiry input => decide (input < 32)
  | .forgeStraitConfig rq => rq.wf
  | .forgeStraitStatus rq => rq.wf
  | .forgeStraitRetire rq => rq.wf
  | .forgeMeltpoolConfig rq => rq.wf
  | .forgeMeltpoolStatus rq => rq.wf
  | .forgePermitConfig rq => rq.wf
  | .forgePowerCap rq => rq.wf
  | .forgeMeltpoolRaw rq => rq.wf
  | .straitCheck => true
  | .straitWaitMaxExpiry head => decide (head < 24)
  | .straitTimeoutExpiry head => decide (head < 24)
  | .plumeHoldExpiry head => decide (head < 24)
  | .straitReassignmentIssue => true
  | .meltpoolSignalLost head => decide (head < 24)
  | .cameraFeatureStale head => decide (head < 24)
  | .controlRecipeLoad rq => rq.wf
  | .controlRecipeLoadDone => true
  | .controlPidSet rq => rq.wf
  | .controlLoopBind rq => rq.wf
  | .controlLoopSet rq => rq.wf
  | .controlGroupSet rq => rq.wf
  | .controlLoopStatus rq => rq.wf
  | .controlRepctlStatus rq => rq.wf
  | .controlVarWrite rq => rq.wf
  | .controlStageRaw rq => rq.wf
  | .controlRepctlTableRead rq => rq.wf
  | .controlRepctlTableWrite rq => rq.wf
  | .controlRepctlTableDone k _ => decide (k < 8)
  | .loopEvaluation slot counts => decide (slot < 64) && decide (counts < 4096)
  | .repctlUpdate k counts => decide (k < 8) && decide (counts < 4096)
  | .cameraPortConfig rq => rq.wf
  | .cameraStreamConfig rq => rq.wf
  | .cameraStatsConfig rq => rq.wf
  | .cameraStreamStatus rq => rq.wf
  | .cameraPhyRaw rq => rq.wf
  | .frameStartReceive port _ _ _ => decide (port < 4)
  | .linePacketReceive port pkt => decide (port < 4) && pkt.wf
  | .frameEndReceive port _ _ _ => decide (port < 4)
  | .frameTimeout stream => decide (stream < 16)
  | .dphySotError port => decide (port < 4)
  | .memoryFrameStart => true
  | .memoryFrameProcessed => true
  | .lagoonStatus rq => rq.wf
  | .lagoonEccLog rq => rq.wf
  | .lagoonTileHeader rq => rq.wf
  | .lagoonTileRead rq => rq.wf
  | .lagoonTileReadDone => true
  | .lagoonEccInject rq => rq.wf
  | .tileHandleRequest _ owner => owner.wf
  | .tileHandleGrant => true
  | .tileFillOpen handle hdr => decide (handle < 4096) && hdr.wf
  | .tileFillWrite handle offset data => decide (handle < 4096) && decide (offset % 64 = 0) && decide (data.length = 64)
  | .tileFillClose handle => decide (handle < 4096)
  | .lagoonRead _ _ _ => true
  | .lagoonScrubStep _ _ => true
  | .dramStatus rq => rq.wf
  | .dramEccLog rq => rq.wf
  | .dramRowlog rq => rq.wf
  | .dramScrubConfig rq => rq.wf
  | .dramEccInject rq => rq.wf
  | .dramRequestIssue channel enter => decide (channel < 4) && enter.all DramReq.wf
  | .dramRefresh channel => decide (channel < 4)
  | .dramMr4Read channel code _ => decide (channel < 4) && decide (code < 256)
  | .dramWck2dqRead channel => decide (channel < 4)
  | .mergeEntryWriteout _ _ => true
  | .rowWindowStart => true
  | .dramPatrolScrubStep _ => true
  | .dmaChannelConfig rq => rq.wf
  | .dmaChannelDisable rq => rq.wf
  | .dmaChannelStatus rq => rq.wf
  | .dmaWindowSet rq => rq.wf
  | .dmaChannelRaw rq => rq.wf
  | .dmaDescriptorPoll channel _ => decide (channel < 32)
  | .dmaDescriptorHalf channel _ => decide (channel < 32)
  | .dmaDescriptorDone channel _ => decide (channel < 32)
  | .dmaBusError channel _ _ => decide (channel < 32)
  | .fabricBudgetWindow => true
  | .compressConfig rq => rq.wf
  | .compressSubmit rq => rq.wf
  | .compressAbort rq => rq.wf
  | .compressStatus rq => rq.wf
  | .compressEngineRaw rq => rq.wf
  | .deflateJobStart engine => decide (engine < 4)
  | .deflateJobEnd engine _ => decide (engine < 4)
  | .bldcConfig rq => rq.wf
  | .bldcBusConfig rq => rq.wf
  | .bldcStart rq => rq.wf
  | .bldcSpeed rq => rq.wf
  | .bldcStop rq => rq.wf
  | .bldcStatus rq => rq.wf
  | .bldcRaw rq => rq.wf
  | .bemfZeroCross motor _ _ => decide (motor < 8)
  | .commutation motor => decide (motor < 8)
  | .zeroCrossTimeout motor => decide (motor < 8)
  | .coastStandstill motor => decide (motor < 8)
  | .listenEnd motor _ _ _ => decide (motor < 8)
  | .brakeListen motor _ => decide (motor < 8)
  | .brakeTimeout motor => decide (motor < 8)
  | .alignEnd motor => decide (motor < 8)
  | .rampTimeout motor => decide (motor < 8)
  | .driveCurrentLimit isns => decide (isns.motor < 8)
  | .overcurrentWindow motor => decide (motor < 8)
  | .busVoltageSample group code => decide (group < 2) && decide (code < 4096)
  | .chopperFailTimeout fail => decide (fail.group < 2)
  | .brakeCurrentLimit motor _ => decide (motor < 8)
  | .busBrakeStandstill motor => decide (motor < 8)
  | .speedPinMeasure motor _ => decide (motor < 8)
  | .speedPinLost motor => decide (motor < 8)
  | .speedPinResume motor => decide (motor < 8)
  | .motionAxisConfig rq => rq.wf
  | .motionMove rq => rq.wf
  | .motionStop rq => rq.wf
  | .motionPositionSet rq => rq.wf
  | .motionStatus rq => rq.wf
  | .motionAxisRaw rq => rq.wf
  | .moveComplete axis => decide (axis < 16)
  | .stopRampEnd axis _ => decide (axis < 16)
  | .limitInputEdge axis _ _ => decide (axis < 16)
  | .limitDebounceExpiry axis _ => decide (axis < 16)
  | .clockSynthConfig rq => rq.wf
  | .clockSynthProfile rq => rq.wf
  | .clockSynthProfileLoaded synth _ => decide (synth < 4)
  | .clockStatus rq => rq.wf
  | .clockSynthRaw rq => rq.wf
  | .referenceEdgeTimeout => true
  | .referenceFrequencyCheck _ => true
  | .pllFastUnlock loop => decide (loop < 7)
  | .lockMonitorInclusion loop => decide (loop < 7)
  | .lockDeclare loop => decide (loop < 7)
  | .locksenseLow _ => true
  | .locksensePlausibilityCheck _ _ => true
  | .linePhaseCheck synth _ => decide (synth < 4)
  | .thermalUnitConfig rq => rq.wf
  | .thermalThermistorConfig rq => rq.wf
  | .thermalStatus rq => rq.wf
  | .thermalSensorForce rq => rq.wf
  | .sensorReading sensor _ => decide (sensor < 72)
  | .sensorConversionTimeout sensor => decide (sensor < 72)
  | .remoteReadingStale sensor => decide (sensor < 72)
  | .throttleStepDown unit => decide (unit < 40)
  | .throttleStepUp unit => decide (unit < 40)
  | .powerRailConfig rq => rq.wf
  | .powerUp rq => rq.wf
  | .powerDown rq => rq.wf
  | .powerClear rq => rq.wf
  | .powerStatus rq => rq.wf
  | .atollRegRead rq => rq.wf
  | .atollRegWrite rq => rq.wf
  | .powerRailForce rq => rq.wf
  | .railUp slot sense => decide (slot < 16) && decide (sense.vmon < 4096)
  | .railPgTimeout slot => decide (slot < 16)
  | .railSettleEnd slot => decide (slot < 16)
  | .railDischargeEnd slot vmon => decide (slot < 16) && decide (vmon < 4096)
  | .railFault slot sense => decide (slot < 16) && decide (sense.vmon < 4096)
  | .minOffEnd => true
  | .offGraceEnd => true
  | .graceJobsTerminal => true
  | .pwrbtnPress => true
  | .pwrbtnForcedOff => true
  | .nmrAssert _ => true
  | .nmrRelease _ => true
  | .vbatApply => true
  | .powerOnReset _ => true
  | .supplyLost => true
  | .supplyReturn => true
  | .wakeComparatorFire n _ => decide (n < 4)
  | .rtcAlarm n => decide (n < 4)
  | .nsysfaultIn _ => true
  | .lightStringConfig rq => rq.wf
  | .lightStringLevel rq => rq.wf
  | .lightStringStatus rq => rq.wf
  | .lightMatrixRaw rq => rq.wf
  | .lampMatrixFrame _ _ _ => true
  | .faultStatus rq => rq.wf
  | .faultSourceRead rq => rq.wf
  | .faultLogRead rq => rq.wf
  | .faultAck rq => rq.wf
  | .faultClear rq => rq.wf
  | .faultConfig rq => rq.wf
  | .faultForce rq => rq.wf
  | .faultRaise => true
  | .faultLogWrite => true
  | .heartbeatMissing core => decide (core < 9)
  | .supervisorWatchdogExpiry => true
  | .deviceReset _ _ => true
  | .aliveToggle => true
  | .otpStatus rq => rq.wf
  | .otpRead rq => rq.wf
  | .otpBurn rq => rq.wf
  | .otpBurnWordDone _ => true
  | .otpFinalise rq => rq.wf
  | .otpStrengthen rq => rq.wf
  | .otpShadowRead rq => rq.wf
  | .otpShadowWrite rq => rq.wf
  | .otpMarginRead rq => rq.wf
  | .otpStartupCheckDone => true
  | .dramTrainingDone _ stepFailed => decide (stepFailed < 16)
  | .dramFillDone => true
  | .bootImageLoaded _ => true
  | .bootPushPoll => true
  | .bootReady => true
  | .startupBootStatus rq => rq.wf
  | .startupPersonalitySelect rq => rq.wf
  | .personalitySelectDone => true
  | .startupFwUpdate rq => rq.wf
  | .fwUpdateDone _ => true
  | .countersOverflowRead rq => rq.wf
  | .countersClear rq => rq.wf
  | .backchannelBadMessage link _ _ => decide (link < 24)
  | .photodiodeSample channel counts => decide (channel < 24) && decide (counts < 4096)
  | .locksenseRecover _ => true
  | .synthLockTimeout synth => decide (synth < 4)
  | .vbatLow _ => true
  | .mainSupplyFail _ => true
  | .pwrbtnRelease => true
  | .bar2HostAccess _ _ _ => true
  | .systemPllLock => true

end Sys2Proof
end

