-- ==== Sys2Proof/Tests/Slice0.lean ====
section
/-!
SUPPORT. The model's own tests: an ill-formed term for each check of WellFormed.lean, the worked examples of the spec, and for
every statement of Obligations.lean a witness of the hypotheses of each of its clauses: concrete states and operands
that meet all of them together.
-/
namespace Sys2Proof.Tests

open Sys2Proof Sys2Proof.Machine

-- One theorem at a time: each waits for the kernel, and many that wait at once need more threads than a checker may allow.
set_option Elab.async false

/-! ### Small states -/

/-- A request on mailbox 2. -/
def req (payload : List Byte) : Req := { mailbox := 2, seq := 5, payload := payload }

/-- A device in RUN with no personality. -/
def live : State := { State.reset with
  timeRuns := true, held := 0, mci := { State.reset.mci with st := .run }, flt := { State.reset.flt with watched := true } }

def press : State := { live with mci := { live.mci with personality := .press } }

def forge : State := { live with mci := { live.mci with personality := .forge } }

/-- A device whose mailbox 2 holds one request. -/
def posted (m : Msg) : State := { live with mci := { live.mci with
  slots := cellsSet 0 [] (requestSlot 2 0) (m.bytes 0x34), inUse := 0x34,
  boxes := modAt live.mci.boxes 2 fun b => { b with reqPi := 1, hello := true, expected := 5 } } }

/-- core.ping with a sequence. -/
def ping (seq : BitVec 16) : Msg :=
  { flags := 0, seq := seq, code := 2, mailbox := 2, session := 0, status := 0, payload := [] }

def anEvent : Msg := { flags := 4, seq := 0, code := 0x0201, mailbox := 7, session := 0, status := 0, payload := [] }

def aReply : Msg := { flags := 1, seq := 5, code := 2, mailbox := 2, session := 0, status := 0, payload := [] }

def aCtx : Ctx := { mailbox := 2, seq := 5, code := 0x0303, era := 0 }

def aSweep : Sweep :=
  { n := 0, job := none, l0 := 0, p := 0, lead := 0, dead := 0, prevP := 0, banding := 0, bias := [], energy := 0, throttle := 1024, admitted := true,
    ready := true, rebuilt := false, committed := false, blank := false, left := 0, next := List.replicate 48 0 }

def aJob : Job :=
  { serial := 0, pageId := 7, lines := 1, bands := [], st := .queued, ctx := aCtx, media := {}, phiTop := 0,
    checkTop := 0, flags := 0, firstAt := 0, written := 0, dropped := 0, repeated := 0, cause := 0, input := 0,
    energy := 0, abort := none, lastN := none, lastL0 := none, lastP := none, tables := {}, gated := false }

def aRec : Rec :=
  { x0 := 0, y0 := 0, x1 := 1000, y1 := 0, speed := 1, power := 1, type := 0, primary := 0, alts := 0, meltpool := false,
    trigger := false, noReassign := false, seqNo := 3, index := 0 }

def aVec : Vec :=
  { r := aRec, opens := 0, start := 0, fromX := 0, fromY := 0, periods := 0, jumpN := 0, duration := 0, cap := 65535,
    planned := 0, admitted := true, ready := true, rebuilt := false, committed := false, theta := 1024, left := 0,
    next := List.replicate 8 0, waited := none }

def anEv : QEvent :=
  { plan := .arm, unit := none, value := 0, gate := false, stamp := 0, anchor := none, pitch := 0, pixel := none, gain := 0 }

/-- DRAM of four channels, two ranks of 16 Gb dies. -/
def withDram (s : State) : State := { s with dram := { s.dram with cfg := { channels := 15, ranks := 2, density := 16 } } }

theorem forall_at {α : Type} (P : α → Prop) (l : List α) (d : α) (h : ∀ x ∈ l, P x) (hd : P d) : ∀ i, P (at' l i d) := by
  induction l with
  | nil => intro i; cases i <;> exact hd
  | cons a l ih =>
    intro i
    cases i with
    | zero => exact h a (List.mem_cons_self ..)
    | succ i => exact ih (fun x hx => h x (List.mem_cons_of_mem _ hx)) i

/-- Every tile is allocated. -/
def fullLagoon : State := { live with lag := { live.lag with
  tiles := (List.range 4096).map fun h => { handle := h, allocated := true } } }

theorem fullLagoon_full : lowestFree fullLagoon = none := by
  have find (l : List Nat) (h : Nat) (hm : h ∈ l) :
      (l.map fun h => ({ handle := h, allocated := true } : Tile)).find? (fun t => t.handle = h) =
        some { handle := h, allocated := true } := by
    induction l with
    | nil => cases hm
    | cons a l ih =>
      by_cases e : a = h
      · subst e; simp
      · rcases List.mem_cons.mp hm with r | r
        · exact absurd r.symm e
        · simpa [List.find?_cons, e] using ih r
  refine List.find?_eq_none.mpr fun h hm => ?_
  have h4 : h ∈ List.range 4096 := hm
  simp only [State.tile, fullLagoon]
  rw [find _ _ h4]; simp

def aFrame : Frame :=
  { seq := 0, fn := 0, fsTime := 0, closeTime := 0, flags := 0, cfg := {}, stats := {}, lines := 0, discarded := 0,
    rows := [], marks := [], buffer := 0, used := 0, full := false }


def aRecoat : Recoat :=
  { ctx := aCtx, stroke := false, platform := 1, recoater := 2, steps := 1, ahead := 1, deadline := 9 }

/-- A recipe of no loops: its magic, version and length. -/
def recipe : List Byte := [0x52, 0x45, 0x43, 0x50, 1, 0, 0, 0, 0, 0, 0, 0, 16, 0, 0, 0]

/-- A device whose DRAM holds the recipe at address 0. -/
def recipeMem : State :=
  { withDram live with dram := { (withDram live).dram with mem := cellsSet 0 [] 0 recipe } }

theorem some_of {α : Type} {o : Option α} (h : o.isSome = true) : ∃ t, o = some t := Option.isSome_iff_exists.mp h

theorem ok_of {ε α : Type} {o : Except ε α} (h : o.toOption.isSome = true) : ∃ r, o = .ok r := by
  rcases o with e | r
  · cases h
  · exact ⟨r, rfl⟩

theorem ok_pair {ε α β : Type} {o : Except ε (α × β)} (h : o.toOption.isSome = true) : ∃ a b, o = .ok (a, b) := by
  rcases o with e | ⟨a, b⟩
  · cases h
  · exact ⟨a, b, rfl⟩

theorem error_of {ε α : Type} {o : Except ε α} (h : o.toOption.isNone = true) : ∃ e, o = .error e := by
  rcases o with e | a
  · exact ⟨e, rfl⟩
  · cases h

/-- A device with loops 62 and 63 loaded. -/
def twoLoaded : State :=
  (live.modLoop 62 fun l => { l with loaded := true }).modLoop 63 fun l => { l with loaded := true }

/-- The live device at a device time. -/
def atTick (t : BitVec 64) : State := { live with time := t }

/-- The live device with synthesiser 3 locked. -/
def lockedLive : State := { live with clk := { live.clk with locked := 64 } }

/-- clock.synth.profile of synthesiser 3 from address 0 with a CRC. -/
def profileReq (crc : Nat) : Req := req ([3, 0, 0, 0, 0, 0, 0, 0, 0, 0, 0, 0] ++ leBytes 4 crc)

theorem profileReq_crc (c : Nat) : (profileReq c).u32 12 = c % 2 ^ 32 := ofLe_leBytes 4 c

/-- A profile of 1,024 zero entries. -/
def flatRamp : List Byte := List.replicate 2048 0

theorem crc_step_ne (c : BitVec 32) : c ≠ BitVec.ofNat 32 ((c.toNat + 1) % 2 ^ 32) := by
  intro h
  have := congrArg BitVec.toNat h
  simp at this
  omega

theorem ofLe_zeros (n : Nat) : ofLe (List.replicate n (0 : Byte)) = 0 := by
  induction n with
  | zero => rfl
  | succ n ih => rw [List.replicate_succ, ofLe, ih]; rfl

theorem rampOf_flat : ∀ x ∈ rampOf flatRamp, x = 0 := by
  intro x h
  simp only [rampOf, flatRamp, List.mem_map, List.drop_replicate, List.take_replicate, ofLe_zeros] at h
  obtain ⟨_, _, rfl⟩ := h
  decide

theorem rampOk_flat (f : Nat) : rampOk f (rampOf flatRamp) = freqOk (freqRamp f 0) := by
  have h0 : (0 : Int) ∈ rampOf flatRamp := by
    simp only [rampOf, flatRamp, List.mem_map, List.drop_replicate, List.take_replicate, ofLe_zeros]
    exact ⟨0, by simp, by decide⟩
  cases hf : freqOk (freqRamp f 0) with
  | true => exact List.all_eq_true.mpr fun x hx => by rw [rampOf_flat x hx]; exact hf
  | false => exact List.all_eq_false.mpr ⟨0, h0, by simp [hf]⟩

theorem empty_dram (d : Dram) (hm : d.merge = []) (hd : d.mem = []) (n : Nat) :
    ∀ a, d.bytesFrom a n = List.replicate n 0 := by
  induction n with
  | zero => intro a; rfl
  | succ n ih => intro a; rw [Dram.bytesFrom, ih, Dram.byte, hm, hd]; rfl

theorem flatRamp_length (n : Nat) : (List.replicate n (0 : Byte)).length = n := List.length_replicate

theorem flatRamp_len : flatRamp.length = 2048 := by unfold flatRamp; exact flatRamp_length _

theorem table_at (s : State) (n room a b : Nat) (h : s.place a = .dram b room) :
    s.table a n = if n ≤ room then some (s.dramRead b n) else none := by
  unfold State.table
  rw [h]

theorem empty_table (s : State) (n room a b : Nat) (hm : s.dram.merge = []) (hd : s.dram.mem = [])
    (h : s.place a = .dram b room) (hn : n ≤ room) : s.table a n = some (List.replicate n 0) := by
  rw [table_at s n room a b h, if_pos hn]
  exact congrArg some (empty_dram _ hm hd n b)

theorem flat_table (s : State) (hm : s.dram.merge = []) (hd : s.dram.mem = []) (h : s.place 0 = .dram 0 15032385536) :
    s.table 0 2048 = some flatRamp := empty_table s 2048 15032385536 0 0 hm hd h (by omega)

theorem host_at (s : State) (n a b : Nat) (bs : List Byte) (h : s.place a = .host b) :
    s.tableOr a n bs = if n ≤ bs.length then some (bs.take n) else none := by
  unfold State.tableOr
  rw [h]

/-- Nothing is read of DRAM for what lies in host memory. -/
theorem host_read (core a n : Nat) (s : State) (b : Nat) (h : s.place a = .host b) : coreRead core a n s = s := by
  unfold coreRead
  rw [h]

theorem flat_host (s : State) (h : s.place (2 ^ 48) = .host 0) : s.tableOr (2 ^ 48) 2048 flatRamp = some flatRamp := by
  rw [host_at s 2048 (2 ^ 48) 0 flatRamp h, if_pos (Nat.le_of_eq flatRamp_len.symm),
    List.take_of_length_le (Nat.le_of_eq flatRamp_len)]

/-! ### A signed image (R496, R497): one byte of firmware, signed with the private key 1 -/

/-- The public key, the base point of P-256. -/
def imgKey : List Byte :=
  [107, 23, 209, 242, 225, 44, 66, 71, 248, 188, 230, 229, 99, 164, 64, 242, 119, 3, 125, 129, 45, 235, 51, 160,
   244, 161, 57, 69, 216, 152, 194, 150, 79, 227, 66, 226, 254, 26, 127, 155, 142, 231, 235, 74, 124, 15, 158,
   22, 43, 206, 51, 87, 107, 49, 94, 206, 203, 182, 64, 104, 55, 191, 81, 245]

/-- The first 128 bytes of the header, which the signature covers. -/
def imgHead : List Byte :=
  [0x56, 0x4D, 0x46, 0x57, 1, 0, 0, 0, 0, 0, 0, 0, 1, 0, 0, 0, 3, 0, 0, 0] ++ List.replicate 12 0 ++
  [110, 52, 11, 156, 255, 179, 122, 152, 156, 165, 68, 230, 187, 120, 10, 44, 120, 144, 29, 63, 179, 55, 56, 118,
   133, 17, 163, 6, 23, 175, 160, 29] ++ imgKey

/-- The signature. -/
def imgSig : List Byte :=
  [124, 242, 123, 24, 141, 3, 79, 126, 138, 82, 56, 3, 4, 181, 26, 195, 192, 137, 105, 226, 119, 242, 27, 53,
   166, 11, 72, 252, 71, 102, 153, 120, 111, 60, 206, 2, 122, 128, 141, 85, 16, 27, 169, 102, 39, 228, 109, 90,
   2, 143, 210, 52, 212, 38, 75, 93, 218, 205, 42, 174, 197, 110, 116, 35]

def imgAll : List Byte := imgHead ++ imgSig ++ [0]

theorem img_key_hash : sha256 imgKey =
  [216, 117, 219, 125, 239, 35, 34, 54, 174, 199, 56, 198, 176, 187, 62, 128, 20, 47, 93, 15, 216, 244, 223, 36,
   254, 214, 238, 245, 203, 181, 13, 159] := by decide +kernel

theorem img_head_hash : sha256 imgHead =
  [97, 135, 32, 236, 103, 253, 203, 43, 149, 229, 26, 201, 75, 19, 191, 240, 68, 150, 58, 135, 48, 90, 123, 134,
   15, 143, 12, 97, 67, 118, 78, 206] := by decide +kernel

theorem img_body_hash : sha256 [0] = (imgHead.drop 32).take 32 := by decide +kernel

theorem img_signed :
    ecdsaVerify (ofBe (imgKey.take 32)) (ofBe (imgKey.drop 32)) (ofBe (imgSig.take 32)) (ofBe (imgSig.drop 32))
      [97, 135, 32, 236, 103, 253, 203, 43, 149, 229, 26, 201, 75, 19, 191, 240, 68, 150, 58, 135, 48, 90, 123, 134,
       15, 143, 12, 97, 67, 118, 78, 206] = true := by
  decide +kernel

theorem img_ok (s : State) (room : Nat) (get : Nat → Nat → List Byte) (h0 : get 0 192 = imgHead ++ imgSig)
    (h1 : get 192 1 = [0]) (hr : 193 ≤ room) (hk : (acceptedKeys s).contains (sha256 imgKey) = true) :
    imageOk s room get = true := by
  have hd : (3 : Nat).testBit (deviceBit s) = true := by unfold deviceBit; cases s.part <;> rfl
  have e1 : leAt (imgHead ++ imgSig) 12 4 = 1 := by decide +kernel
  have e2 : leAt (imgHead ++ imgSig) 0 4 = 0x57464D56 := by decide +kernel
  have e3 : leAt (imgHead ++ imgSig) 4 2 = 1 := by decide +kernel
  have e4 : leAt (imgHead ++ imgSig) 16 4 = 3 := by decide +kernel
  have e5 : ((imgHead ++ imgSig).drop 64).take 64 = imgKey := by decide +kernel
  have e6 : ((imgHead ++ imgSig).drop 128).take 32 = imgSig.take 32 := by decide +kernel
  have e7 : ((imgHead ++ imgSig).drop 160).take 32 = imgSig.drop 32 := by decide +kernel
  have e8 : (imgHead ++ imgSig).take 128 = imgHead := by decide +kernel
  have e9 : ((imgHead ++ imgSig).drop 32).take 32 = (imgHead.drop 32).take 32 := by decide +kernel
  have a1 : 192 ≤ room := by omega
  have a2 : 192 + 1 ≤ room := hr
  simp only [imageOk, h0, e1, e2, e3, e4, e5, e6, e7, e8, e9, h1, hd, hk, img_head_hash, img_signed, img_body_hash, a1, a2,
    decide_true, Bool.and_true, Bool.true_and]
  decide

/-- OTP words that lock region 2 and hold the hash of the key in it. -/
def keyWords : List OtpWord :=
  [⟨289, 2111534552, 0, 0, 0, 0, 0⟩, ⟨290, 908207087, 0, 0, 0, 0, 0⟩, ⟨291, 3325609902, 0, 0, 0, 0, 0⟩, ⟨292, 2151594928, 0,
    0, 0, 0, 0⟩, ⟨293, 257765140, 0, 0, 0, 0, 0⟩, ⟨294, 618656984, 0, 0, 0, 0, 0⟩, ⟨295, 4126070526, 0, 0, 0, 0, 0⟩, ⟨296,
    2668475851, 0, 0, 0, 0, 0⟩,
   ⟨347, 0xFFFFFFFF, 0, 0, 0, 0, 0⟩]

/-- A device in BOOT that takes images of the key; its flash holds the image in both slots, its DRAM at address 0. -/
def booting : State := { withDram State.reset with
  timeRuns := true, mci := { State.reset.mci with st := .boot },
  otp := { State.reset.otp with words := keyWords, found := [.blank, .blank, .valid, .blank, .blank, .blank, .blank, .blank] } }

def flashed : State := { booting with boot := { booting.boot with flash := cellsSet 0xFF [] 0x00010000 imgAll } }

def pushed : State := { booting with
  dram := { booting.dram with mem := cellsSet 0 [] 0 imgAll },
  boot := { booting.boot with straps := 4, push := 0x48535550 } }

theorem flashed_keyed : (acceptedKeys flashed).contains (sha256 imgKey) = true := by rw [img_key_hash]; decide +kernel

theorem pushed_keyed : (acceptedKeys pushed).contains (sha256 imgKey) = true := by rw [img_key_hash]; decide +kernel

theorem flashed_ok : imageOk flashed slotSize (sourceBytes flashed .slotA) = true :=
  img_ok _ _ _ (by decide +kernel) (by decide +kernel) (by decide) flashed_keyed

theorem pushed_ok (room : Nat) (h : 193 ≤ room) : imageOk pushed room pushed.dramRead = true :=
  img_ok _ _ _ (by decide +kernel) (by decide +kernel) h pushed_keyed

/-! ### Ill-formed commands (WellFormed.lean) -/

theorem test_ill_formed_units_1 : ([
    .requestDoorbell .pcie 8 0, .requestConsume 8, .replyPost 8, .replyCiAdvance 8 0, .mciReplyLate 8 0,
    .sessionIdleTimeout 8, .msixVectorUnmask 64, .edgeCapture 96 ⟨.frame, 0⟩, .trackerEdgeUpdate 96, .sourceLostTimeout 96,
    .syncSlotReceive 8 ⟨0, 0⟩, .syncPeerSilent 8, .gateReleaseAt 24, .commaLock 24, .capReplyReceive 24 [],
    .ackReceive 24 0 0, .probeEchoReceive 24 0 0, .telemetryReceive 24 [], .statusReceive 24 0, .backchannelCodeError 24,
    .resyncRelock 24, .ackTimeout 24, .capReplyTimeout 24, .telemetryTimeout 24, .commaLossTimeout 24,
    .linkTrainDeadline 24, .linkRetrainTimer 24, .timesyncSend 24, .keepaliveSend 24, .gateWordRepeat 24,
    .eventQueue 192 .arm, .weirHandoff 192, .forgeVectorAdmit 24, .tileAdmissionCheckDone 4096, .unitReady (.sweep 4 0),
    .unitReady (.vector 24 0), .pressDeltaTableLoaded 4 [], .armedJobNoTrack 4, .gpiInputEdge 32 false,
    .interlockDebounceExpiry 32] : List Instr).all (fun i => !i.wf) = true := by decide +kernel

theorem test_ill_formed_units_2 : ([
    .biasRangeTimeout 16, .heaterDecision 4 0, .heaterGatePulse 4, .fuserTempRead 4 0, .fuserTempRead 0 4096,
    .forgeProgramCheckDone 4, .fenceTimeout 24, .graceExpiry 32, .straitWaitMaxExpiry 24, .straitTimeoutExpiry 24,
    .plumeHoldExpiry 24, .meltpoolSignalLost 24, .cameraFeatureStale 24, .controlRepctlTableDone 8 [],
    .loopEvaluation 64 0, .loopEvaluation 0 4096, .repctlUpdate 8 0, .repctlUpdate 0 4096, .frameStartReceive 4 0 0 0,
    .linePacketReceive 4 ⟨0, [], 0⟩, .frameEndReceive 4 0 0 0, .frameTimeout 16, .dphySotError 4,
    .tileHandleRequest 0 (.station 4), .tileHandleRequest 0 (.head 24), .tileFillOpen 4096 ⟨0, .free, 0, 0⟩,
    .tileFillOpen 0 ⟨0, .head 24, 0, 0⟩, .tileFillWrite 4096 0 (List.replicate 64 0),
    .tileFillWrite 0 32 (List.replicate 64 0), .tileFillWrite 0 0 [0], .tileFillClose 4096, .dramRequestIssue 4 [],
    .dramRequestIssue 0 [⟨0, 1, 64, none, 0⟩], .dramRequestIssue 0 [⟨0, 2, 0, some [0], 0⟩], .dramRefresh 4,
    .dramMr4Read 4 0 false, .dramMr4Read 0 256 false, .dramWck2dqRead 4, .dmaDescriptorPoll 32 none,
    .dmaDescriptorHalf 32 []] : List Instr).all (fun i => !i.wf) = true := by decide +kernel

theorem test_ill_formed_units_3 : ([
    .dmaDescriptorDone 32 [], .dmaBusError 32 false 0, .deflateJobStart 4, .deflateJobEnd 4 [], .bemfZeroCross 8 0 false,
    .commutation 8, .zeroCrossTimeout 8, .coastStandstill 8, .listenEnd 8 0 false 0, .brakeListen 8 0, .brakeTimeout 8,
    .alignEnd 8, .rampTimeout 8, .driveCurrentLimit ⟨8, 0⟩, .overcurrentWindow 8, .busVoltageSample 2 0,
    .busVoltageSample 0 4096, .chopperFailTimeout ⟨2, false⟩, .brakeCurrentLimit 8 0, .busBrakeStandstill 8,
    .speedPinMeasure 8 0, .speedPinLost 8, .speedPinResume 8, .moveComplete 16, .stopRampEnd 16 0,
    .limitInputEdge 16 false false, .limitDebounceExpiry 16 false, .clockSynthProfileLoaded 4 [], .pllFastUnlock 7,
    .lockMonitorInclusion 7, .lockDeclare 7, .linePhaseCheck 4 0, .sensorReading 72 0, .sensorConversionTimeout 72,
    .remoteReadingStale 72, .throttleStepDown 40, .throttleStepUp 40, .railUp 16 ⟨0, false⟩, .railUp 0 ⟨4096, false⟩,
    .railPgTimeout 16] : List Instr).all (fun i => !i.wf) = true := by decide +kernel

theorem test_ill_formed_units_4 : ([
    .railSettleEnd 16, .railDischargeEnd 16 0, .railDischargeEnd 0 4096, .railFault 16 ⟨0, false⟩,
    .railFault 0 ⟨4096, false⟩, .wakeComparatorFire 4 false, .rtcAlarm 4, .heartbeatMissing 9, .dramTrainingDone 0 16,
    .backchannelBadMessage 24 .crc 0, .photodiodeSample 24 0, .photodiodeSample 0 4096,
      .synthLockTimeout 4] : List Instr).all (fun i => !i.wf) = true := by decide +kernel

theorem test_ill_formed_requests_1 (rq : Req) (h : rq.wf = false) : ([
    .hello rq, .coreInfo rq, .corePing rq, .coreReset rq, .coreSessionOpen rq, .coreSessionClose rq, .coreVlogRead rq,
    .urgentStop rq, .urgentHalt rq, .urgentRelease rq, .timebaseSourceSet rq, .timebaseSourceStatus rq,
    .timebaseSyncConfig rq, .timebaseFilterRaw rq, .laneMap rq, .linkConfig rq, .linkStatus rq, .laneGateRelease rq,
    .linkConfigRaw rq, .runaheadConfig rq, .runaheadStatus rq, .runaheadRollbackForce rq, .pressStationConfig rq,
    .pressBeamTable rq, .pressPixelTable rq, .pressDeltaTable rq, .pressDeltaStatus rq, .pressDeltaClear rq,
    .pressStationStatus rq, .pressBeamForceDead rq, .pressMediaConfig rq, .pressPageSubmit rq, .pressPageAbort rq,
    .pressInterlockAssign rq, .pressBiasConfig rq, .pressFuserConfig rq, .pressBiasRaw rq, .forgeHeadConfig rq,
    .forgeProgramLoad rq, .forgeLayerRecoat rq, .forgeLayerArm rq, .forgeLayerExpose rq, .forgeLayerPause rq,
    .forgeLayerResume rq, .forgeLayerAbort rq, .forgeLayerStatus rq, .forgeInterlockAssign rq, .forgeHeadJog rq,
    .forgeStraitConfig rq, .forgeStraitStatus rq, .forgeStraitRetire rq, .forgeMeltpoolConfig rq, .forgeMeltpoolStatus rq,
    .forgePermitConfig rq, .forgePowerCap rq, .forgeMeltpoolRaw rq, .controlRecipeLoad rq, .controlPidSet rq,
    .controlLoopBind rq, .controlLoopSet rq] : List Instr).all (fun i => !i.wf) = true := by
  simp [Instr.wf, h]

theorem test_ill_formed_requests_2 (rq : Req) (h : rq.wf = false) : ([
    .controlGroupSet rq, .controlLoopStatus rq, .controlRepctlStatus rq, .controlVarWrite rq, .controlStageRaw rq,
    .controlRepctlTableRead rq, .controlRepctlTableWrite rq, .cameraPortConfig rq, .cameraStreamConfig rq,
    .cameraStatsConfig rq, .cameraStreamStatus rq, .cameraPhyRaw rq, .lagoonStatus rq, .lagoonEccLog rq,
    .lagoonTileHeader rq, .lagoonTileRead rq, .lagoonEccInject rq, .dramStatus rq, .dramEccLog rq, .dramRowlog rq,
    .dramScrubConfig rq, .dramEccInject rq, .dmaChannelConfig rq, .dmaChannelDisable rq, .dmaChannelStatus rq,
    .dmaWindowSet rq, .dmaChannelRaw rq, .compressConfig rq, .compressSubmit rq, .compressAbort rq, .compressStatus rq,
    .compressEngineRaw rq, .bldcConfig rq, .bldcBusConfig rq, .bldcStart rq, .bldcSpeed rq, .bldcStop rq, .bldcStatus rq,
    .bldcRaw rq, .motionAxisConfig rq, .motionMove rq, .motionStop rq, .motionPositionSet rq, .motionStatus rq,
    .motionAxisRaw rq, .clockSynthConfig rq, .clockSynthProfile rq, .clockStatus rq, .clockSynthRaw rq,
    .thermalUnitConfig rq, .thermalThermistorConfig rq, .thermalStatus rq, .thermalSensorForce rq, .powerRailConfig rq,
    .powerUp rq, .powerDown rq, .powerClear rq, .powerStatus rq, .atollRegRead rq,
      .atollRegWrite rq] : List Instr).all (fun i => !i.wf) = true := by
  simp [Instr.wf, h]

theorem test_ill_formed_requests_3 (rq : Req) (h : rq.wf = false) : ([
    .powerRailForce rq, .lightStringConfig rq, .lightStringLevel rq, .lightStringStatus rq, .lightMatrixRaw rq,
    .faultStatus rq, .faultSourceRead rq, .faultLogRead rq, .faultAck rq, .faultClear rq, .faultConfig rq, .faultForce rq,
    .otpStatus rq, .otpRead rq, .otpBurn rq, .otpFinalise rq, .otpStrengthen rq, .otpShadowRead rq, .otpShadowWrite rq,
    .otpMarginRead rq, .startupBootStatus rq, .startupPersonalitySelect rq, .startupFwUpdate rq, .countersOverflowRead rq,
    .countersClear rq] : List Instr).all (fun i => !i.wf) = true := by
  simp [Instr.wf, h]

theorem test_ill_formed_mailbox : (⟨8, 0, []⟩ : Req).wf = false := by decide

theorem test_ill_formed_length : (⟨7, 0, [0, 0, 0]⟩ : Req).wf = false := by decide

theorem test_ill_formed_long : (⟨7, 0, List.replicate 240 0⟩ : Req).wf = false := by decide +kernel

theorem test_ill_formed_urgent : (⟨255, 0, List.replicate 48 0⟩ : Req).wf = false := by decide +kernel

theorem test_well_formed_request : (⟨7, 0, List.replicate 236 0⟩ : Req).wf = true := by decide +kernel

theorem test_ill_formed_packet (l : List Byte) (h : 65536 ≤ l.length) : (⟨0, l, 0⟩ : CamPacket).wf = false := by
  simp only [CamPacket.wf, decide_eq_false_iff_not]
  omega

/-! ### Worked examples and published values -/

/-- R51: the CRC-32C of "123456789". -/
theorem test_crc32c : crc32c [0x31, 0x32, 0x33, 0x34, 0x35, 0x36, 0x37, 0x38, 0x39] = 0xE3069283 := by decide +kernel

/-- R123: the CRC-16 of "123456789". -/
theorem test_crc16 : crc16 [0x31, 0x32, 0x33, 0x34, 0x35, 0x36, 0x37, 0x38, 0x39] = 0x29B1 := by decide +kernel

/-- R479, R497 (FIPS 180-4): the SHA-256 of "abc" begins BA78 16BF. -/
theorem test_sha256 : (sha256 [0x61, 0x62, 0x63]).take 4 = [0xBA, 0x78, 0x16, 0xBF] := by decide +kernel

/-- R353 (RFC 1951): a block of fixed codes that holds the letter "a". -/
theorem test_inflate : (inflate 16384 [0x4B, 0x04, 0x00]).output = [0x61] := by decide +kernel

/-- spec/03_phase_timebase.md, worked example: ALPHA 12,322 and BETA 1,158 at 2,363 Hz and 50 Hz of bandwidth. -/
theorem test_gains : gainsOf 2363 50000 = (12322, 1158) := by decide +kernel

/-- spec/04_lanes_and_links.md, worked example: D is 10,616 sub-ticks. -/
theorem test_compensation : ({ version := 2, oneWay := 6400, partnerDelay := 4096 } : Link).compensation 120 none = 10616 := by
  decide +kernel

/-- spec/13_dram_ecc.md, worked example: the place of DRAM address 0x1_2345_6789. -/
theorem test_dram_place : ({ channels := 15, ranks := 2, density := 16 } : DramCfg).decode 0x123456789 = { channel := 3, rank := 0, bank := 12, row := 42608, col := 1417, check := 1969 } := by decide +kernel

/-- spec/06_press_imaging.md, worked example: w' is 38. -/
theorem test_scaled_width : scaledWidth 30 50 21474836 1024 = 38 := by decide +kernel

/-- spec/10_control_engine.md, worked example: b0 2.0 and ki 0.02 of slot 8. -/
theorem test_pid_stage : ((pidCoefs (2 * 2 ^ 149) (20000 * 2 ^ 149) 0 0 1000000).bind compileStage).map
    (fun g => (g.coef.head?, g.shift.head?, g.coef.getLast?, g.shift.getLast?)) =
    some (some 0x40000000, some 29, some 0x028F5C29, some 31) := by decide +kernel

/-! ### Witnesses of the statements' hypotheses -/

theorem witness_DoorbellsMoveTheRings :
    (∃ (path : Path) (p : Nat) (value : BitVec 32) (s : State), pathOpen s path = true ∧ p < 8 ∧ ((s.box p).bound =
    none ∨ (s.box p).bound = some path) ∧ (value.setWidth 4 - (s.box p).reqCi).toNat ≤ 8) ∧
    (∃ (path : Path) (other : Path) (p : Nat) (s : State), pathOpen s path = true ∧ p < 8 ∧ (s.box p).bound = some
    other ∧ other ≠ path) ∧
    (∃ (path : Path) (p : Nat) (value : BitVec 32) (s : State), pathOpen s path = true ∧ p < 8 ∧ ((s.box p).bound =
    none ∨ (s.box p).bound = some path) ∧ 8 < (value.setWidth 4 - (s.box p).reqCi).toNat) :=
  ⟨⟨.pcie, 7, 8, live, by decide +kernel⟩,
   ⟨.pcie, .spi, 7, live.modBox 7 fun b => { b with bound := some .spi }, by decide +kernel⟩,
   ⟨.pcie, 7, 9, live, by decide +kernel⟩⟩

theorem witness_ConsumptionKeepsTheSequence :
    (∃ (p : Nat) (s : State), Safety.Consumes p s ∧ p < s.mci.boxes.length ∧ (let h := Safety.nextHeader p s;
    (let b := s.box p; h.code ≠ 0 ∧ (b.expected - h.seq).toNat ≠ 0 ∧ (b.expected - h.seq).toNat ≤ 64))) ∧
    (∃ (p : Nat) (s : State), Safety.Consumes p s ∧ p < s.mci.boxes.length ∧ (let h := Safety.nextHeader p s;
    (let b := s.box p; h.code ≠ 0 ∧ 64 < (b.expected - h.seq).toNat))) ∧
    (∃ (p : Nat) (s : State), Safety.Consumes p s ∧ p < s.mci.boxes.length ∧ (let h := Safety.nextHeader p s;
    (let b := s.box p; h.code ≠ 0 ∧ h.seq = b.expected ∧ Safety.Servable p h s))) :=
  ⟨⟨2, posted (ping 4), by unfold Safety.Consumes; decide +kernel⟩,
   ⟨2, posted (ping 6), by unfold Safety.Consumes; decide +kernel⟩,
   ⟨2, posted (ping 5), by unfold Safety.Consumes Safety.Servable; decide +kernel⟩⟩

theorem witness_RepliesWaitAndArePosted :
    (∃ (rq : Req) (s : State), rq.mailbox < 8 ∧ rq.mailbox < s.mci.boxes.length ∧ (∃ q, q ≠ rq.mailbox)) ∧
    (∃ (code : Nat) (rq : Req) (checks : List (Bool × Nat)) (s : State), served code rq s = true ∧ (∃ before after
    status, checks = before ++ (true, status) :: after ∧ (∀ c ∈ before, c.1 = false))) ∧
    (∃ (code : Nat) (rq : Req) (checks : List (Bool × Nat)) (s : State), served code rq s = true ∧ (∀ c ∈ checks, c.1
    = false)) ∧
    (∃ (code : Nat) (rq : Req) (s : State), served code rq s = false) ∧
    (∃ (p : Nat) (m : Msg) (rest : List Msg) (s : State), p < 8 ∧ p < s.mci.boxes.length ∧ pairsServed s = true ∧
    ((s.box p).rplPi - (s.box p).rplCi).toNat ≠ 8 ∧ (s.box p).waiting = m :: rest ∧ m.code ≠ 0 ∧ m.code ≠ 3) ∧
    (∃ (p : Nat) (m : Msg) (rest : List Msg) (i : BitVec 4) (s : State), p < 8 ∧ cellsWf 0 s.mci.slots = true ∧
    (s.box p).waiting = m :: rest ∧ m.payload.length ≤ 236 ∧ ((s.box p).rplPi - (s.box p).rplCi).toNat < 8 ∧ (i -
    (s.box p).rplCi).toNat < ((s.box p).rplPi - (s.box p).rplCi).toNat) ∧
    (∃ (p : Nat) (s : State), ((s.box p).rplPi - (s.box p).rplCi).toNat = 8) :=
  ⟨⟨{ req [] with mailbox := 7 }, live, by exact ⟨by decide, by decide, 6, by decide⟩⟩,
   ⟨2, req [], [(true, 0x20)], live, by exact ⟨by decide +kernel, [], [], 0x20, by simp⟩⟩,
   ⟨2, req [], [(false, 0x20)], live, by decide +kernel⟩,
   ⟨2, req [0, 0], { live with held := 256 }, by decide +kernel⟩,
   ⟨7, aReply, [], live.modBox 7 fun b => { b with waiting := [aReply], rplPi := 7 }, by decide +kernel⟩,
   ⟨7, aReply, [], 6, live.modBox 7 fun b => { b with waiting := [aReply], rplPi := 7 }, by decide +kernel⟩,
   ⟨7, live.modBox 7 fun b => { b with rplPi := 8 }, by decide +kernel⟩⟩

theorem witness_EventsOfMailboxSeven :
    (∃ (s : State), s.mci.events.length < 256) ∧
    (∃ (s : State), 256 ≤ s.mci.events.length) ∧
    (∃ (m : Msg) (rest : List Msg) (s : State), 7 < s.mci.boxes.length ∧ pairsServed s = true ∧ ((s.box 7).rplPi -
    (s.box 7).rplCi).toNat ≠ 8 ∧ (s.box 7).waiting = [] ∧ s.mci.events = m :: rest ∧ m.flags = 4) ∧
    (∃ (c : Ctx) (s : State), c.mailbox < 8 ∧ c.era = s.mci.era) ∧
    (∃ (c : Ctx) (s : State), c.mailbox < 8 ∧ c.era ≠ s.mci.era ∧ c ∈ s.mci.orphans ∧ s.mci.helloSince = false) ∧
    (∃ (c : Ctx) (s : State), c.mailbox < 8 ∧ c.era ≠ s.mci.era ∧ c ∈ s.mci.orphans ∧ s.mci.helloSince = true ∧
    s.mci.boxes.length = 8) :=
  ⟨⟨{ live with mci := { live.mci with events := List.replicate 255 anEvent } }, by decide +kernel⟩,
   ⟨{ live with mci := { live.mci with events := List.replicate 256 anEvent } }, by decide +kernel⟩,
   ⟨anEvent, [], { live with mci := { live.mci with events := [anEvent] } }, by decide +kernel⟩,
   ⟨aCtx, live, by decide +kernel⟩,
   ⟨aCtx, { live with mci := { live.mci with era := 1, orphans := [aCtx] } }, by decide +kernel⟩,
   ⟨aCtx, { live with mci := { live.mci with era := 1, orphans := [aCtx], helloSince := true } }, by decide +kernel⟩⟩

theorem witness_UrgentMailbox :
    (∃ (value : BitVec 32) (s : State), (value.getLsbD 0 = false ∨ s.mci.st = .reset)) ∧
    (∃ (value : BitVec 32) (s : State), value.getLsbD 0 = true ∧ s.mci.st ≠ .reset ∧ s.mci.urgBusy = true) ∧
    (∃ (value : BitVec 32) (s : State), value.getLsbD 0 = true ∧ s.mci.st ≠ .reset ∧ s.mci.urgBusy = false) ∧
    (∃ (m : Msg) (s : State), s.mci.urgReply = some m) ∧
    (∃ (rq : Req) (s : State), served 0x0100 rq s = true ∧ rq.u32 0 < 2 ^ s.nLinks) ∧
    (∃ (rq : Req) (s : State), served 0x0100 rq s = true ∧ 2 ^ s.nLinks ≤ rq.u32 0) ∧
    (∃ (rq : Req) (s : State), served 0x0102 rq s = true ∧ rq.u32 0 < 2 ^ s.nLinks) ∧
    (∃ (rq : Req) (s : State), served 0x0101 rq s = true) ∧
    (∃ (rq : Req) (s : State), served 0x0003 rq s = true ∧ rq.u32 0 = 0x5A5A) :=
  ⟨⟨1, State.reset, by decide +kernel⟩,
   ⟨1, { live with mci := { live.mci with urgBusy := true } }, by decide +kernel⟩,
   ⟨1, live, by decide +kernel⟩,
   ⟨aReply, { live with mci := { live.mci with urgReply := some aReply } }, by decide +kernel⟩,
   ⟨req [255, 255, 255, 0], live, by decide +kernel⟩,
   ⟨req [0, 0, 0, 1], live, by decide +kernel⟩,
   ⟨req [255, 255, 255, 0], live, by decide +kernel⟩,
   ⟨req [], live, by decide +kernel⟩,
   ⟨req [90, 90, 0, 0], live, by decide +kernel⟩⟩

theorem witness_HostWritesToBar0 :
    (∃ (offset : Nat) (data : List Byte), (∀ k, k < data.length → inRequestSlot (offset + k) = true)) ∧
    (∃ (offset : Nat), inRequestSlot offset = false) ∧
    (∃ (s : State), cellsWf 0 s.mci.slots = true) ∧
    (∃ (s : State), pathOpen s .spi = true) ∧
    (∃ (s : State), pathOpen s .spi = true) ∧
    (∃ (s : State), pathOpen s .spi = false) ∧
    (∃ (v : Nat) (s : State), v < 64 ∧ s.mci.msixOn = true ∧ s.mci.funcMask = false ∧ s.mci.pba.getLsbD v = true) :=
  ⟨⟨0x8000, [1, 2, 3, 4], by decide +kernel⟩,
   ⟨0x8800, by decide +kernel⟩,
   ⟨live, by decide +kernel⟩,
   ⟨{ live with otp := { live.otp with checked := true } }, by decide +kernel⟩,
   ⟨{ live with otp := { live.otp with checked := true } }, by decide +kernel⟩,
   ⟨live, by decide +kernel⟩,
   ⟨63, { live with mci := { live.mci with msixOn := true, pba := 1#64 <<< 63 } }, by decide +kernel⟩⟩

theorem witness_HelloSessionsAndReads :
    (∃ (rq : Req) (s : State), served 0x0000 rq s = true ∧ rq.mailbox < s.mci.boxes.length ∧ chosenVersion s (rq.u8
    0) (rq.u8 1) ≠ 0 ∧ helloBehind s rq = false) ∧
    (∃ (rq : Req) (s : State), served 0x0002 rq s = true) ∧
    (∃ (rq : Req) (s : State), served 0x0004 rq s = true ∧ rq.mailbox < s.mci.boxes.length ∧ rq.mailbox < 8 ∧ rq.u32
    0 = 0x45585054 ∧ rq.u16 4 ≤ 3600 ∧ (s.box rq.mailbox).session = none ∧ (∃ i, nextSession s = some i)) ∧
    (∃ (rq : Req) (s : State), served 0x0005 rq s = true ∧ (s.box rq.mailbox).session = some (BitVec.ofNat 8 (rq.u8
    0))) ∧
    (∃ (p : Nat) (s : State), (s.box p).idleS ≠ 0 ∧ s.coreUp hostCore = true) ∧
    (∃ (rq : Req) (s : State), served 0x0001 rq s = true) ∧
    (∃ (rq : Req) (s : State), served 0x0006 rq s = true) ∧
    (∃ (p : Nat) (seq : BitVec 16) (u : Unposted) (s : State), replyFull (s.box p) = false ∧ s.coreUp hostCore = true
    ∧ (s.box p).unposted.find? (fun u => u.seq = seq && !u.late) = some u) :=
  ⟨⟨req [53, 3], live, by decide +kernel⟩,
   ⟨req [], live, by decide +kernel⟩,
   ⟨req [84, 80, 88, 69, 16, 14], live, by refine ⟨?_, ?_, ?_, ?_, ?_, ?_, 1, ?_⟩ <;> decide +kernel⟩,
   ⟨req [3], live.modBox 2 fun b => { b with session := some 3 }, by decide +kernel⟩,
   ⟨7, live.modBox 7 fun b => { b with idleS := 1 }, by decide +kernel⟩,
   ⟨req [], live, by decide +kernel⟩,
   ⟨req [], live, by decide +kernel⟩,
   ⟨2, 5, ⟨5, 0, false, 0⟩, live.modBox 2 fun b => { b with unposted := [⟨5, 0, false, 0⟩] }, by decide +kernel⟩⟩

theorem witness_SourcesAreSetAndLost :
    (∃ (rq : Req) (s : State), served 0x0201 rq s = true ∧ s.sources.length = 96 ∧ sourceExists (rq.u8 0) = true ∧
    rq.u8 1 = 0 ∧ sourceInUse s (rq.u8 0) = false) ∧
    (∃ (rq : Req) (s : State), served 0x0201 rq s = true ∧ s.sources.length = 96 ∧ sourceExists (rq.u8 0) = true ∧
    rq.u8 0 < 64 ∧ rq.u8 1 = 1 ∧ rq.u8 2 ≤ 63 ∧ 1 ≤ rq.u32 4 ∧ rq.u32 4 ≤ 50000000 ∧ 1 ≤ rq.u32 8 ∧ rq.u32 8 ≤ rq.u32
    4 * 50 ∧ (rq.u16 12 = 0 ∨ (5 ≤ rq.u16 12 ∧ rq.u16 12 ≤ 10000)) ∧ rq.u16 16 ≤ 4096 ∧ rq.u8 18 = 0xFF ∧ sourceInUse
    s (rq.u8 0) = false) ∧
    (∃ (rq : Req) (s : State), served 0x0280 rq s = true ∧ rq.u8 0 ≤ 49 ∧ 52 ≤ rq.u32 8 ∧ rq.u32 8 ≤ 102400 ∧ 2 ≤
    rq.u8 12 ∧ rq.u8 12 ≤ 16 ∧ 2 ≤ rq.u8 13 ∧ rq.u8 13 ≤ 64 ∧ 1 ≤ rq.u8 14 ∧ sourceInUse s (rq.u8 0) = false) ∧
    (∃ (rq : Req) (s : State), served 0x0202 rq s = true ∧ sourceExists (rq.u8 0) = true) ∧
    (∃ (rq : Req) (s : State), served 0x0201 rq s = true ∧ sourceExists (rq.u8 0) = false) ∧
    (∃ (i : Nat) (s : State), i < 50 ∧ i ≠ 24 ∧ i ≠ 25 ∧ i < s.sources.length ∧ (s.source i).st = .track) :=
  ⟨⟨req [95, 0], live, by decide +kernel⟩,
   ⟨req [49, 1, 63, 0, 128, 240, 250, 2, 0, 249, 2, 149, 16, 39, 0, 0, 0, 16, 255], live, by decide +kernel⟩,
   ⟨req [49, 0, 0, 0, 0, 0, 0, 0, 0, 144, 1, 0, 16, 64, 1], live, by decide +kernel⟩,
   ⟨req [64], live, by decide +kernel⟩,
   ⟨req [50], live, by decide +kernel⟩,
   ⟨49, live.modSource 49 fun x => { x with st := .track }, by decide +kernel⟩⟩

theorem witness_EdgesAreCaptured :
    (∃ (i : Nat) (p : PinEdge) (s : State), i < 34 ∧ (s.source i).deglitch ≤ p.held ∧ p.level = (s.source
    i).levels.getLsbD 0) ∧
    (∃ (i : Nat) (p : PinEdge) (s : State), p.held < (s.source i).deglitch) ∧
    (∃ (i : Nat) (p : PinEdge) (s : State), i < 16 ∧ i < s.sources.length ∧ (s.source i).st ≠ .off ∧ (s.source
    i).deglitch ≤ p.held ∧ p.level ≠ (s.source i).levels.getLsbD 0 ∧ (s.source i).fifo.length < 16) ∧
    (∃ (i : Nat) (p : PinEdge) (s : State), i < 16 ∧ i < s.sources.length ∧ (s.source i).st ≠ .off ∧ (s.source
    i).deglitch ≤ p.held ∧ p.level ≠ (s.source i).levels.getLsbD 0 ∧ 16 ≤ (s.source i).fifo.length) ∧
    (∃ (i : Nat) (p : PinEdge) (q : PinEdge) (s : State), i < 16 ∧ i < s.sources.length ∧ (s.source i).st ≠ .off ∧
    (s.source i).deglitch ≤ p.held ∧ p.level ≠ (s.source i).levels.getLsbD 0 ∧ (s.source i).deglitch ≤ q.held ∧
    q.level ≠ (s.source i).levels.getLsbD 1) :=
  ⟨⟨33, ⟨false, 63⟩, live.modSource 33 fun x => { x with deglitch := 63 }, by decide +kernel⟩,
   ⟨0, ⟨true, 2⟩, live.modSource 0 fun x => { x with deglitch := 3 }, by decide +kernel⟩,
   ⟨15, ⟨true, 3⟩, live.modSource 15 fun x =>
   { x with st := .track, deglitch := 3, fifo := List.replicate 15 ⟨0, 1, false⟩ }, by decide +kernel⟩,
   ⟨15, ⟨true, 3⟩, live.modSource 15 fun x =>
   { x with st := .track, deglitch := 3, fifo := List.replicate 16 ⟨0, 1, false⟩ }, by decide +kernel⟩,
   ⟨15, ⟨true, 3⟩, ⟨true, 3⟩, live.modSource 15 fun x =>
   { x with st := .track, deglitch := 3, fifo := List.replicate 0 ⟨0, 1, false⟩ }, by decide +kernel⟩⟩

theorem witness_TrackerFollowsTheEdge :
    ∃ (i : Nat) (ed : FifoEdge) (rest : List FifoEdge) (s : State), i < 16 ∧ i < s.sources.length ∧ (s.source i).fifo
    = ed :: rest ∧ ed.delta ≠ 0 ∧ ed.illegal = false ∧ (s.source i).st = .track ∧ (s.source i).primed = true ∧
    (s.source i).raw = none ∧ (s.source i).repctl = none ∧ bdStations s i = [] ∧ (let x := s.source i;
    (let that := roundDiv (x.tN * 1024 + ed.delta * x.p) 1024; (let e := ed.stamp - that; (e.natAbs : Int) ≤
    tolerance s x))) :=
  ⟨15, ⟨6400, 1, false⟩, [], live.modSource 15 fun x =>
   { x with st := .track, primed := true, p := 100 * 65536, fifo := [⟨6400, 1, false⟩] }, by decide +kernel⟩

theorem witness_SyncBusFrames :
    (∃ (s : State), s.sync.mode = 0) ∧
    (∃ (f : Nat) (s : State), s.sync.mode = 1 ∧ s.timeRuns = true ∧ s.sync.txSlot = none ∧ f % 16 = 0 ∧ s.time.toNat
    = f * 32000) ∧
    (∃ (rq : Req) (s : State), served 0x0203 rq s = true ∧ rq.u8 0 = 2 ∧ 1 ≤ rq.u8 1 ∧ rq.u8 1 ≤ 7 ∧ rq.u8 2 ≤ 1 ∧ (∀
    k, k < 4 → rq.u8 (4 + k) = 255 ∨ rq.u8 (4 + k) ≤ 49) ∧ s.sync.join = none) ∧
    (∃ (rq : Req) (s : State), served 0x0203 rq s = true ∧ 2 < rq.u8 0) ∧
    (∃ (offset : Int) (s : State), s.sync.st = 1 ∧ s.sync.joinStep = 1 ∧ s.sync.step = false ∧ offset.natAbs ≤ 1024) ∧
    (∃ (s : State), s.sync.st = 1 ∧ s.sync.joinStep = 2) ∧
    (∃ (c : Ctx) (s : State), s.sync.join = some c) ∧
    (∃ (dev : Nat) (tag : Nat) (count : Nat) (time : Nat) (period : Nat) (s : State), s.sources.length = 96 ∧
    s.sync.mode = 1 ∧ 1 ≤ dev ∧ dev < 8 ∧ s.sync.index = 0 ∧ s.sync.peers.getLsbD dev = true ∧ tag < 4 ∧ count < 2 ^
    48 ∧ time < 2 ^ 63 ∧ period < 2 ^ 47 ∧ (s.source (64 + 4 * dev + tag)).st = .track) ∧
    (∃ (dev : Nat) (slot : BitVec 200) (s : State), s.sync.mode = 1 ∧ s.sync.st = 2 ∧ dev < 8 ∧ dev ≠ s.sync.index ∧
    slot.toNat % 256 = 0xA7 ∧ slotGood slot = false ∧ at' s.sync.crcRun dev 0 ≠ 7) ∧
    (∃ (s : State), s.sync.mode = 2 ∧ s.sync.st = 2 ∧ s.sources.length = 96) ∧
    (∃ (dev : Nat) (s : State), s.sync.mode ≠ 0 ∧ dev < 8 ∧ s.sync.peers.getLsbD dev = true ∧ s.sources.length = 96) :=
  ⟨⟨live, by decide +kernel⟩,
   ⟨16, { live with time := 512000, sync := { live.sync with mode := 1 } }, by decide +kernel⟩,
   ⟨req [2, 7, 1, 0, 49, 255, 255, 255], live, by decide +kernel⟩,
   ⟨req [3], live, by decide +kernel⟩,
   ⟨1024, { live with sync := { live.sync with st := 1, joinStep := 1 } }, by decide +kernel⟩,
   ⟨{ live with sync := { live.sync with st := 1, joinStep := 2 } }, by decide +kernel⟩,
   ⟨aCtx, { live with sync := { live.sync with join := some aCtx } }, by decide +kernel⟩,
   ⟨7, 3, 2 ^ 48 - 1, 2 ^ 63 - 1, 2 ^ 47 - 1,
   { (live.modSource 95 fun x => { x with st := .track }) with sync := { live.sync with mode := 1, peers := 0x80 } },
   by decide +kernel⟩,
   ⟨7, 0xA7, { live with sync := { live.sync with mode := 1, st := 2 } }, by decide +kernel⟩,
   ⟨{ live with sync := { live.sync with mode := 2, st := 2 } }, by decide +kernel⟩,
   ⟨7, { live with sync := { live.sync with mode := 1, peers := 0x80 } }, by decide +kernel⟩⟩

theorem witness_LinksTrain :
    (∃ (rq : Req) (s : State), served 0x0302 rq s = true ∧ rq.u8 0 < s.nLinks ∧ rq.u8 1 = 1 ∧ (rq.u8 2 = 1 ∨ rq.u8 2
    = 2) ∧ (rq.u8 3 = 0 ∨ (10 ≤ rq.u8 3 ∧ rq.u8 3 ≤ 80)) ∧ (s.link (rq.u8 0)).st = .off ∧ fenced s 0x0062 (rq.u8 0) =
    false ∧ fenced s 0x0063 (rq.u8 0) = false ∧ linkActive s (rq.u8 0) = false) ∧
    (∃ (l : Nat) (s : State), l < s.nLinks ∧ (s.link l).st = .training ∧ (s.link l).step = 1) ∧
    (∃ (l : Nat) (payload : List Byte) (s : State), l < s.nLinks ∧ (s.link l).st = .training ∧ (s.link l).step = 3 ∧
    512 ≤ leAt payload 1 2 ∧ commonVersion (leAt payload 0 1) (s.link l).blpMax ≠ 0) ∧
    (∃ (l : Nat) (payload : BitVec 40) (s : State), l < s.nLinks ∧ (s.link l).deaf = false ∧ (5, payload) ∈ (s.link
    l).ackWait ∧ (s.link l).st = .training ∧ (s.link l).step = 4) ∧
    (∃ (l : Nat) (payload : BitVec 40) (roundTrip : Nat) (s : State), s.links.length = 24 ∧ l < s.nLinks ∧ (s.link
    l).deaf = false ∧ (s.link l).st = .training ∧ (s.link l).step = 5 ∧ (s.link l).version = 2 ∧ (∃ b ∈ (s.link
    l).tx, b.1 = true ∧ b.2.toNat / 2 ^ 16 = 6 * 2 ^ 40 + payload.toNat) ∧ (s.link l).probes.length = 15 ∧ (s.link
    l).dOverride = none ∧ (let x := s.link l;
    (let oneWay := openDivI ((((x.probes.sum + roundTrip : Nat) : Int)) - 16 * x.turnaround) 32;
    (let d := oneWay + x.partnerDelay + x.trim; dOk d = true ∧ leadOk x.lead x.bufDepth = true)))) ∧
    (∃ (l : Nat) (s : State), l < s.nLinks ∧ (s.link l).st = .training) ∧
    (∃ (l : Nat) (s : State), l < s.nLinks ∧ (s.link l).st = .training ∧ (s.link l).step = 3) ∧
    (∃ (l : Nat) (s : State), l < s.nLinks ∧ (s.link l).st = .down ∧ (s.link l).retrainWait = true ∧ (s.link
    l).retries < 3 ∧ (s.link l).enabled = true) ∧
    (∃ (rq : Req) (s : State), served 0x0301 rq s = true ∧ s.stations.length = 4 ∧ s.mci.personality = .press ∧ rq.u8
    0 ≤ 3 ∧ rq.u8 1 ≤ 6 ∧ (let ls := (rq.bytes 4 (rq.u8 1)).map (·.toNat); (∀ l ∈ ls, l < s.nLinks) ∧ ls.Nodup ∧ (∀ l
    ∈ ls, ∀ k, k < 4 → k ≠ rq.u8 0 → l ∉ (s.station k).links) ∧ pageActive s (rq.u8 0) = false)) ∧
    (∃ (rq : Req) (s : State), served 0x0301 rq s = true ∧ s.mci.personality ≠ .press) ∧
    (∃ (rq : Req) (s : State), served 0x0380 rq s = true ∧ rq.u8 0 < s.nLinks ∧ rq.u8 1 ≤ 15 ∧ rq.u8 2 ≤ 15 ∧ rq.u32
    4 ≤ 1048575 ∧ linkActive s (rq.u8 0) = false) ∧
    (∃ (rq : Req) (s : State), served 0x0303 rq s = true ∧ rq.u8 0 < s.nLinks) ∧
    (∃ (rq : Req) (s : State), served 0x0303 rq s = true ∧ s.nLinks ≤ rq.u8 0) :=
  ⟨⟨req [23, 1, 2, 80], live, by decide +kernel⟩,
   ⟨23, live.modLink 23 fun x => { x with st := .training, step := 1 }, by decide +kernel⟩,
   ⟨23, [3, 0, 2], live.modLink 23 fun x => { x with st := .training, step := 3 }, by decide +kernel⟩,
   ⟨23, 0, live.modLink 23 fun x => { x with st := .training, step := 4, txFrom := some 0, ackWait := [(5, 0)] }, by
   decide +kernel⟩,
   ⟨23, 0, 0, live.modLink 23 fun x =>
   { x with st := .training, step := 5, txFrom := some 0, version := 2, lead := 20, bufDepth := 512, probes := List.replicate 15 0, tx := [(true, 6 <<< 56)] },
   by decide +kernel⟩,
   ⟨23, live.modLink 23 fun x => { x with st := .training }, by decide +kernel⟩,
   ⟨23, live.modLink 23 fun x => { x with st := .training, step := 3 }, by decide +kernel⟩,
   ⟨23, live.modLink 23 fun x => { x with st := .down, retrainWait := true, retries := 2, enabled := true }, by
   decide +kernel⟩,
   ⟨req [3, 6, 0, 0, 0, 1, 2, 3, 4, 23], press, by decide +kernel⟩,
   ⟨req [], live, by decide +kernel⟩,
   ⟨req [23, 15, 15, 0, 255, 255, 15, 0], live, by decide +kernel⟩,
   ⟨req [23], live, by decide +kernel⟩,
   ⟨req [24], live, by decide +kernel⟩⟩

theorem witness_BackChannel :
    (∃ (l : Nat) (payload : List Byte) (s : State), s.links.length = 24 ∧ l < s.nLinks ∧ (s.link l).deaf = false ∧
    (s.link l).st = .up ∧ (s.link l).version = 2 ∧ leAt payload 12 2 = 0 ∧ linkStation s l = none ∧ (s.head
    l).inLayer = false) ∧
    (∃ (l : Nat) (s : State), l < s.nLinks ∧ (s.link l).deaf = false ∧ (s.link l).st = .up ∧ (s.link l).version ≠ 1) ∧
    (∃ (l : Nat) (s : State), l < s.nLinks ∧ (s.link l).deaf = false ∧ (s.link l).version = 1) ∧
    (∃ (l : Nat) (s : State), l < s.nLinks ∧ (s.link l).deaf = false) ∧
    (∃ (l : Nat) (s : State), l < s.nLinks ∧ (s.link l).deaf = false) ∧
    (∃ (l : Nat) (s : State), l < s.nLinks ∧ (s.link l).deaf = false) ∧
    (∃ (l : Nat) (s : State), l < s.nLinks ∧ (s.link l).deaf = false) ∧
    (∃ (l : Nat) (c : BitVec 8) (p : BitVec 40) (rest : List (BitVec 8 × BitVec 40)) (s : State), l < s.nLinks ∧
    (s.link l).ackWait = (c, p) :: rest) ∧
    (∃ (l : Nat) (s : State), l < s.nLinks ∧ (s.link l).st = .up ∧ (s.link l).version = 2) ∧
    (∃ (l : Nat) (s : State), s.links.length = 24 ∧ l < s.nLinks ∧ ((s.link l).st = .up ∨ (s.link l).st = .degraded)) ∧
    (∃ (l : Nat) (s : State), s.links.length = 24 ∧ l < s.nLinks ∧ (s.link l).alive = false ∧ (∃ k, k ≠ l)) :=
  ⟨⟨23, [], live.modLink 23 fun x => { x with st := .up, version := 2, txFrom := some 0 }, by decide +kernel⟩,
   ⟨23, live.modLink 23 fun x => { x with st := .up, txFrom := some 0, version := 2 }, by decide +kernel⟩,
   ⟨23, live.modLink 23 fun x => { x with st := .up, txFrom := some 0, version := 1 }, by decide +kernel⟩,
   ⟨23, live.modLink 23 fun x => { x with st := .up, txFrom := some 0 }, by decide +kernel⟩,
   ⟨23, live.modLink 23 fun x => { x with st := .up, txFrom := some 0 }, by decide +kernel⟩,
   ⟨23, live.modLink 23 fun x => { x with st := .up, txFrom := some 0 }, by decide +kernel⟩,
   ⟨23, live.modLink 23 fun x => { x with st := .up, txFrom := some 0, version := 1 }, by decide +kernel⟩,
   ⟨23, 3, 7, [], live.modLink 23 fun x => { x with ackWait := [(3, 7)] }, by decide +kernel⟩,
   ⟨23, live.modLink 23 fun x => { x with st := .up, version := 2 }, by decide +kernel⟩,
   ⟨23, live.modLink 23 fun x => { x with st := .degraded }, by decide +kernel⟩,
   ⟨23, live, by refine ⟨?_, ?_, ?_, 24, ?_⟩ <;> decide +kernel⟩⟩

theorem witness_ControlWordsAndReleases :
    (∃ (l : Nat) (s : State), s.links.length = 24 ∧ l < s.nLinks ∧ (s.link l).enabled = true ∧ (s.link
    l).txFrom.isSome = true) ∧
    (∃ (l : Nat) (s : State), s.links.length = 24 ∧ l < s.nLinks ∧ (s.link l).enabled = true ∧ (s.link
    l).txFrom.isSome = true) ∧
    (∃ (l : Nat) (s : State), s.links.length = 24 ∧ l < s.nLinks ∧ (s.link l).enabled = true ∧ (s.link
    l).txFrom.isSome = true ∧ (s.link l).gated = true) ∧
    (∃ (l : Nat) (s : State), (s.link l).enabled = false) ∧
    (∃ (l : Nat) (s : State), (s.link l).gated = false) ∧
    (∃ (rq : Req) (s : State), served 0x0304 rq s = true ∧ s.links.length = 24 ∧ rq.u32 0 = 2 ∧ rq.u64 8 = 0 ∧
    (s.link 1).lead ≤ 80) ∧
    (∃ (rq : Req) (s : State), served 0x0304 rq s = true ∧ (∃ l ∈ maskLinks s (rq.u32 0), s.nLinks ≤ l)) ∧
    (∃ (rq : Req) (s : State), served 0x0304 rq s = true ∧ s.links.length = 24 ∧
    (let named := maskLinks s (rq.u32 0);
    (let soonest := s.time.toNat + (named.map fun l => (s.link l).lead * 160).foldl max 0;
    (let at_ := if rq.u64 8 = 0 then soonest else rq.u64 8; (∀ l ∈ named, l < s.nLinks) ∧ soonest ≤ at_ ∧ at_ ≤
    s.time.toNat + 2 ^ 32)))) ∧
    (∃ (l : Nat) (r : BitVec 64) (s : State), (s.link l).releaseAt = some r ∧ (s.link l).causes = 0) ∧
    (∃ (l : Nat) (s : State), (s.link l).causes ≠ 0) :=
  ⟨⟨23, live.modLink 23 fun x => { x with enabled := true, txFrom := some 0 }, by decide +kernel⟩,
   ⟨23, live.modLink 23 fun x => { x with enabled := true, txFrom := some 0 }, by decide +kernel⟩,
   ⟨23, live.modLink 23 fun x => { x with enabled := true, txFrom := some 0 }, by decide +kernel⟩,
   ⟨24, live, by decide +kernel⟩,
   ⟨23, live.modLink 23 fun x => { x with causes := 0, releaseAt := some 5 }, by decide +kernel⟩,
   ⟨req [2, 0, 0, 0], live, by decide +kernel⟩,
   ⟨req [0, 0, 0, 1], live, by decide +kernel⟩,
   ⟨req [255, 255, 255, 0], live, by decide +kernel⟩,
   ⟨23, 5, live.modLink 23 fun x => { x with causes := 0, releaseAt := some 5 }, by decide +kernel⟩,
   ⟨23, live, by decide +kernel⟩⟩

theorem witness_NstopGatesEveryLink :
    (∃ (w : Nat) (s : State), s.links.length = 24 ∧ 8 ≤ w) ∧
    (∃ (w : Nat) (s : State), s.links.length = 24 ∧ 8 ≤ w) ∧
    (∃ (w : Nat), w < 3) :=
  ⟨⟨8, live, by decide +kernel⟩,
   ⟨8, live, by decide +kernel⟩,
   ⟨2, by decide +kernel⟩⟩

theorem witness_QueuesKeepStampOrder :
    (∃ (l : Nat) (k : Nat) (s : State), l < s.nLinks ∧ l < s.links.length ∧ k < (s.link l).queues.length ∧ k <
    (s.link l).lanes.length ∧ (∃ j, j ≠ k)) ∧
    (∃ (l : Nat) (k : Nat) (s : State), l < s.nLinks ∧ l < s.links.length ∧ k < (s.link l).queues.length ∧ k <
    (s.link l).lanes.length ∧ (∃ m, m ≠ l)) :=
  ⟨⟨23, 7, live.modLink 23 fun x => { x with lanes := modAt x.lanes 7 fun t => { t with last := some 0 } },
   by refine ⟨?_, ?_, ?_, ?_, 6, ?_⟩ <;> decide +kernel⟩,
   ⟨23, 7, live, by refine ⟨?_, ?_, ?_, ?_, 22, ?_⟩ <;> decide +kernel⟩⟩

theorem witness_SequencersAdmitAndQueue :
    (∃ (h : Nat) (s : State), h < s.nLinks ∧ s.mci.personality = .forge ∧ 4 ∈ (s.head h).armNext) ∧
    (∃ (l : Nat) (k : Nat) (i : Nat) (n : Nat) (j : Nat) (w : Sweep) (s : State), l < s.nLinks ∧ k < 8 ∧
    s.mci.personality = .press ∧ linkStation s l = some i ∧ (let st := s.station i;
    (let b := 8 * st.links.idxOf l + k; (let e : PlanEvent := .pixel n j;
    (let u := laneFetch i w b j (s.advanceSub (queueAt s l k (pressEvent s i w b e) 20));
    (let ev := pressEvent u i w b e; eventSweep st e = some w ∧ w.admitted = true ∧ w.rebuilt = false ∧ planIndex st
    w b e = some (at' w.next b 0) ∧ sweepsQueued st w.n b = true ∧ placed s (pressEvent s i w b e).anchor = true ∧
    queueDue s l k (pressEvent s i w b e) 20 = true ∧ orderedStamp (u.link l) k ev.stamp ≤ bdTime u i ((w.n + 1) % 2
    ^ 48) - nsSub st.guardNs)))))) ∧
    (∃ (lane : Nat) (s : State), s.mci.personality = .press ∧ linkStation s (lane / 8) = none) ∧
    (∃ (s : State), s.mci.personality = .none) ∧
    (∃ (h : Nat) (r : Rec) (s : State), h < s.nHeads ∧ h < s.heads.length ∧ mayAdmit s h = true ∧ (s.head
    h).nextRecord = some r ∧ r.type ≠ 3 ∧ (nextOpens s h ≤ s.now + (s.head h).ra.inForce * 1600 * 64 ∨ ∀ v ∈ (s.head
    h).vecs, v.committed = true) ∧ (s.head h).overCap ((s.head h).planned r (s.head h).pos) = false ∧
    (let u := generatorRead r s; h < u.heads.length)) ∧
    (∃ (h : Nat) (r : Rec) (s : State), mayAdmit s h = true ∧ (s.head h).nextRecord = some r ∧ r.type ≠ 3 ∧
    (nextOpens s h ≤ s.now + (s.head h).ra.inForce * 1600 * 64 ∨ ∀ v ∈ (s.head h).vecs, v.committed = true) ∧ (s.head
    h).overCap ((s.head h).planned r (s.head h).pos) = true) ∧
    (∃ (h : Nat) (s : State), mayAdmit s h = false) ∧
    (∃ (k : Nat) (s : State), (s.tile k).allocated = true ∧ (s.tile k).fill = none ∧ (s.tile k).verified = false ∧
    (s.tile k).id ≠ 0 ∧ (s.tile k).failed = 0 ∧ awaitsFill s k = false ∧ tileGood s k = true ∧ s.lag.inject = []) ∧
    (∃ (h : Nat) (q : Nat) (v : Vec) (s : State), ((s.head h).vecs.find? fun v => v.r.seqNo = q && !v.committed &&
    !v.admitted) = some v ∧ headRollingBack s h = false ∧ (s.head h).overCap v.planned = false) :=
  ⟨⟨23, forge.modHead 23 fun x => { x with armNext := [4, 5] }, by decide +kernel⟩,
   ⟨23, 7, 3, 0, 0, { aSweep with job := some 0 }, (press.modSource 16 fun x =>
   { x with st := .track, p := 2 ^ 40 }).modStation 3 fun x =>
   { x with links := [23], configured := true, sweeps := [{ aSweep with job := some 0 }], jobs := [{ aJob with st := .active }] },
   by decide +kernel⟩,
   ⟨0, press, by decide +kernel⟩,
   ⟨live, by decide +kernel⟩,
   ⟨23, aRec, ({ forge with forge := { forge.forge with layer := .exposing } }).modHead 23 fun x =>
   { x with inLayer := true, todo := [aRec] }, by decide +kernel⟩,
   ⟨23, { aRec with x1 := 1000000000, speed := 1, power := 65535 },
   ({ forge with forge := { forge.forge with layer := .exposing } }).modHead 23 fun x =>
   { x with inLayer := true, energyCap := 1, energy := 2000000, todo := [{ aRec with x1 := 1000000000, speed := 1, power := 65535 }] },
   by decide +kernel⟩,
   ⟨0, live, by decide +kernel⟩,
   ⟨0,
   { live with lag := { live.lag with tiles := [{ handle := 0, id := 1, allocated := true, owner := .head 0, crc := crc32c (cellsGet 0 [] 0 16384) }] } },
   by refine ⟨?_, ?_, ?_, ?_, ?_, ?_, (by simp [tileGood, State.tile, State.tilePayload]; exact ⟨rfl, by decide⟩), ?_⟩ <;> decide +kernel⟩,
   ⟨0, 3, { aVec with rebuilt := true, ready := false, admitted := false },
   { (({ forge with forge := { forge.forge with layer := .exposing } }).modHead 0 fun x => { x with vecs := [{ aVec with rebuilt := true, ready := false, admitted := false }] }) with lag := { live.lag with tiles := [{ handle := 0, id := 1, allocated := true, verified := true, owner := .head 0 }] } },
   by decide +kernel⟩⟩

theorem witness_TheWeirHandsOff :
    (∃ (l : Nat) (k : Nat) (i : Nat) (n : Nat) (w : Sweep) (e : QEvent) (s : State), l < s.nLinks ∧ k < 8 ∧ s.front l
    k = some e ∧ placed s e.anchor = true ∧ e.unit = some (.sweep i n) ∧ ((s.station i).sweeps.find? fun w => w.n =
    n) = some w ∧ w.committed = true) ∧
    (∃ (l : Nat) (k : Nat) (e : QEvent) (s : State), l < s.nLinks ∧ k < 8 ∧ s.front l k = some e ∧ placed s e.anchor
    = true ∧ e.unit = none ∧ s.mci.personality = .press) ∧
    (∃ (i : Nat) (w : Sweep) (s : State), i < s.stations.length ∧ w.committed = false ∧ w.job = none ∧ rollingBack s
    i = false ∧ w.admitted = true) ∧
    (∃ (i : Nat) (w : Sweep) (s : State), w.committed = false ∧ w.job = none ∧ rollingBack s i = true) ∧
    (∃ (lane : Nat) (s : State), s.front (lane / 8) (lane % 8) = none) :=
  ⟨⟨23, 7, 3, 0, { aSweep with committed := true }, { anEv with unit := some (.sweep 3 0) }, (press.modStation 3 fun
   x => { x with sweeps := [{ aSweep with committed := true }] }).modLink 23 fun x =>
   { x with queues := modAt x.queues 7 fun _ => [{ anEv with unit := some (.sweep 3 0) }] }, by decide +kernel⟩,
   ⟨23, 7, anEv, press.modLink 23 fun x => { x with queues := modAt x.queues 7 fun _ => [anEv] }, by decide +kernel⟩,
   ⟨3, aSweep, press, by decide +kernel⟩,
   ⟨3, aSweep, { press with rollback := some { lanes := 0, at' := 0, stations := [3], heads := [], forced := [] } },
   by decide +kernel⟩,
   ⟨191, live, by decide +kernel⟩⟩

theorem witness_RollbacksAndWindows :
    (∃ (r : Rollback) (s : State), s.rollback = some r ∧ r.forced = [] ∧ r.heads = []) ∧
    (∃ (r : Rollback) (s : State), s.rollback = some r ∧
    (let u := { s.advanceTo (r.at'.toNat + 8001) with rollback := some { r with late := true } }; (r.late = true ∨
    u.time.toNat ≤ r.at'.toNat + 8000))) ∧
    (∃ (r : Rollback) (s : State), s.rollback = some r ∧
    (let u := { s.advanceTo (r.at'.toNat + 8001) with rollback := some { r with late := true } }; r.late = false ∧
    r.at'.toNat + 8000 < u.time.toNat)) ∧
    (∃ (s : State), s.rollback = none) ∧
    (∃ (rq : Req) (s : State), served 0x0480 rq s = true ∧ rq.u32 0 = 0) ∧
    (∃ (rq : Req) (s : State), served 0x0401 rq s = true ∧ rq.u8 0 = 0 ∧ rq.u8 1 ≤ 3 ∧ s.mci.personality = .press ∧
    (rq.u16 2 = 0 ∨ (16 ≤ rq.u16 2 ∧ rq.u16 2 ≤ 1024)) ∧ (rq.u16 4 = 0 ∨ (20 ≤ rq.u16 4 ∧ rq.u16 4 ≤ 10000))) ∧
    (∃ (rq : Req) (s : State), served 0x0401 rq s = true ∧ rq.u8 0 = 1 ∧ rq.u8 1 < s.nHeads ∧ s.mci.personality =
    .press) ∧
    (∃ (rq : Req) (s : State), served 0x0402 rq s = true ∧ rq.u8 0 = 1 ∧ rq.u8 1 < s.nHeads ∧ s.mci.personality =
    .forge ∧ (s.head (rq.u8 1)).ra.inForce < 65536 ∧ (s.head (rq.u8 1)).ra.rb.length = 6) :=
  ⟨⟨{ lanes := 0, at' := 0, stations := [3], heads := [], forced := [] },
   { press with rollback := some { lanes := 0, at' := 0, stations := [3], heads := [], forced := [] } }, by
   decide +kernel⟩,
   ⟨{ lanes := 0, at' := 0, stations := [3], heads := [], forced := [], late := true },
   { press with rollback := some { lanes := 0, at' := 0, stations := [3], heads := [], forced := [], late := true } },
   by decide +kernel⟩,
   ⟨{ lanes := 0, at' := 0, stations := [3], heads := [], forced := [] },
   { press with rollback := some { lanes := 0, at' := 0, stations := [3], heads := [], forced := [] } }, by
   decide +kernel⟩,
   ⟨live, by decide +kernel⟩,
   ⟨req [0, 0, 0, 0], live, by decide +kernel⟩,
   ⟨req [0, 3, 0, 4, 16, 39], press, by decide +kernel⟩,
   ⟨req [1, 23], press, by decide +kernel⟩,
   ⟨req [1, 23], forge, by decide +kernel⟩⟩

theorem witness_PressStationIsConfigured :
    (∃ (rq : Req) (s : State), served 0x0501 rq s = true ∧ s.stations.length = 4 ∧ s.mci.personality = .press ∧ rq.u8
    0 ≤ 3 ∧ (let i := rq.u8 0; (let st := s.station i; st.beams ≠ 0 ∧ 4 ≤ rq.u8 1 ∧ rq.u8 1 ≤ 12 ∧ 16 ≤ rq.u8 2 ∧
    rq.u8 2 ≤ 23 ∧ 1 ≤ rq.u32 8 ∧ rq.u32 8 ≤ scanLimit (rq.u16 4) ∧ 20000 ≤ rq.u32 12 ∧ rq.u32 12 ≤ 140000 ∧ 1000 ≤
    rq.u32 20 ∧ rq.u32 20 ≤ 100000 ∧ rq.u8 24 < st.beams ∧ rq.u8 25 < st.beams ∧ rq.u8 24 ≠ rq.u8 25 ∧ 1 ≤ rq.u8 26 ∧
    rq.u8 26 ≤ 16 ∧ 5 ≤ rq.u8 27 ∧ rq.u8 27 ≤ 100 ∧ 100 ≤ rq.u16 28 ∧ rq.u16 28 ≤ 10000 ∧ rq.u8 30 ≤ 16 ∧ rq.u8 31 ≤
    16 ∧ rq.u8 33 ≤ 8 ∧ rq.u8 34 = 0xFF ∧ (∀ k, k < 4 → k ≠ i → (s.station k).configured = true → (s.station
    k).bdSource ≠ rq.u8 2) ∧ pageActive s i = false ∧ sosTooEarly s i (rq.u32 16) (st.skewNext.getD st.skew) =
    false))) ∧
    (∃ (rq : Req) (s : State), served 0x0501 rq s = true ∧ s.mci.personality = .press ∧ 3 < rq.u8 0) :=
  ⟨⟨req [3, 12, 23, 0, 96, 9, 0, 0, 205, 121, 0, 0, 224, 34, 2, 0, 160, 134, 1, 0, 160, 134, 1, 0, 47, 0, 16, 100,
   16, 39, 16, 16, 0, 8, 255], press.modStation 3 fun x => { x with links := [0, 1, 2, 3, 4, 5] }, by decide +kernel⟩,
   ⟨req [4], press, by decide +kernel⟩⟩

theorem witness_PressTablesAndDelta :
    (∃ (rq : Req) (s : State), served 0x0502 rq s = true ∧ s.mci.personality = .press ∧ rq.u8 0 ≤ 3 ∧ rq.u8 1 =
    (s.station (rq.u8 0)).beams ∧ (let skew := (List.range (rq.u8 1)).map fun b => rq.i32 (4 + 4 * b); (∀ v ∈ skew,
    v.natAbs ≤ 1048575) ∧ sosTooEarly s (rq.u8 0) (s.station (rq.u8 0)).sosNs skew = false)) ∧
    (∃ (rq : Req) (s : State), served 0x0503 rq s = true ∧ s.mci.personality = .press ∧ rq.u8 0 ≤ 3) ∧
    (∃ (rq : Req) (b : List Byte) (s : State), (let u := tableRead 0x0504 rq (rq.u64 4) 512 s; served 0x0504 rq u =
    true ∧ u.mci.personality = .press ∧ rq.u8 0 ≤ 3 ∧ u.table (rq.u64 4) 512 = some b ∧ crc32c b = BitVec.ofNat 32
    (rq.u32 12) ∧ deltaTableOk b = true)) ∧
    (∃ (i : Nat) (host : List Byte) (b : List Byte) (c : Ctx) (address : Nat) (crc : BitVec 32) (rest : List (Ctx ×
    Nat × BitVec 32)) (s : State), i < s.stations.length ∧ (s.station i).deltaLoad = (c, address, crc) :: rest ∧
    s.tableOr address 512 host = some b ∧ crc32c b = crc ∧ deltaTableOk b = true) ∧
    (∃ (i : Nat) (host : List Byte) (b : List Byte) (c : Ctx) (address : Nat) (crc : BitVec 32) (rest : List (Ctx ×
    Nat × BitVec 32)) (s : State), i < s.stations.length ∧ (s.station i).deltaLoad = (c, address, crc) :: rest ∧
    s.tableOr address 512 host = some b ∧ crc32c b ≠ crc ∨ deltaTableOk b = false) ∧
    (∃ (rq : Req) (s : State), served 0x0580 rq s = true ∧ s.stations.length = 4 ∧ s.mci.personality = .press ∧ rq.u8
    0 ≤ 3 ∧ (s.station (rq.u8 0)).beams ≤ 48 ∧ (∀ b, b < 64 → (rq.u64 8).testBit b = true → b < (s.station (rq.u8
    0)).beams)) ∧
    (∃ (rq : Req) (s : State), served 0x0506 rq s = true ∧ s.stations.length = 4 ∧ s.mci.personality = .press ∧ rq.u8
    0 ≤ 3 ∧ pageActive s (rq.u8 0) = false) ∧
    (∃ (rq : Req) (s : State), served 0x0506 rq s = true ∧ s.mci.personality = .press ∧ rq.u8 0 ≤ 3 ∧ pageActive s
    (rq.u8 0) = true) ∧
    (∃ (dead : BitVec 48) (beams : Nat) (b : Nat) (d : Nat), mergedBy dead beams b = some d ∧ d = b + 1) ∧
    (∃ (rq : Req) (s : State), served 0x0505 rq s = true ∧ s.mci.personality = .press ∧ rq.u8 0 ≤ 3) :=
  ⟨⟨req ([3, 8, 0] ++ (List.replicate 8 [0, 255, 255, 15]).flatten ++ [0]), press.modStation 3 fun x =>
   { x with links := [0], sosNs := 100000 }, by decide +kernel⟩,
   ⟨req [3], press, by decide +kernel⟩,
   ⟨req ([3] ++ List.replicate 11 0 ++ [192, 237, 252, 48]), (withDram press).dramRead 0 512, withDram press, by
   decide +kernel⟩,
   ⟨3, List.replicate 512 0, List.replicate 512 0, aCtx, 2 ^ 48, 0x30FCEDC0, [], press.modStation 3 fun x =>
   { x with deltaLoad := [(aCtx, 2 ^ 48, 0x30FCEDC0)] }, by decide +kernel⟩,
   ⟨3, List.replicate 512 0, List.replicate 512 0, aCtx, 2 ^ 48, 0, [], press.modStation 3 fun x =>
   { x with deltaLoad := [(aCtx, 2 ^ 48, 0)] }, by decide +kernel⟩,
   ⟨req [3, 0, 0, 0, 0, 0, 0, 0, 128, 0, 0, 0, 0, 0, 0, 0], press.modStation 3 fun x => { x with links := [0] }, by
   decide +kernel⟩,
   ⟨req [3, 0, 0, 0, 0, 0, 0, 0, 128, 0, 0, 0, 0, 0, 0, 0], press, by decide +kernel⟩,
   ⟨req [3], press.modStation 3 fun x => { x with jobs := [{ aJob with st := .active }] }, by decide +kernel⟩,
   ⟨2, 8, 0, 1, by decide +kernel⟩,
   ⟨req [3], press, by decide +kernel⟩⟩

theorem witness_PagesAreSubmittedAndAborted :
    (∃ (rq : Req) (s : State), served 0x0601 rq s = true ∧ s.mci.personality = .press ∧ rq.u8 0 ≤ 1 ∧ rq.u8 1 ≤ 15 ∧
    26 ≤ rq.u8 2 ∧ rq.u8 2 ≤ 33 ∧ (rq.u8 3 ≤ 15 ∨ rq.u8 3 = 0xFF) ∧ rq.u32 4 ≠ 0 ∧ rq.u16 12 ≠ 0) ∧
    (∃ (rq : Req) (bs : List Band) (s : State), served 0x0602 rq s = true ∧ rq.u64 16 < 2 ^ 48 ∧
    (let u := tableRead 0x0602 rq (rq.u64 16) (24 * rq.u16 12) s; served 0x0602 rq u = true ∧ u.stations.length = 4 ∧
    u.mci.personality = .press ∧ rq.u8 0 ≤ 3 ∧ 1 ≤ rq.u32 8 ∧ rq.u32 8 ≤ 4194304 ∧ ((u.station (rq.u8 0)).jobs.filter
    fun j => j.st ≠ .completed && j.st ≠ .aborted).length < 8 ∧ (u.station (rq.u8 0)).configured = true ∧ (u.station
    (rq.u8 0)).exhausted = false ∧ u.pwr.grace = none ∧ u.stationFed (rq.u8 0) = true ∧ bandList u (rq.u8 0) (rq.u64
    16) (rq.u16 12) (BitVec.ofNat 32 (rq.u32 24)) (rq.u32 8) = some bs)) ∧
    (∃ (rq : Req) (s : State), served 0x0603 rq s = true ∧ s.stations.length = 4 ∧ s.mci.personality = .press ∧ rq.u8
    4 = 1 ∧ (s.station 0).sweeps = [] ∧ (∀ j ∈ (s.station 0).jobs, j.pageId = BitVec.ofNat 32 (rq.u32 0) ∧ j.st =
    .queued) ∧ (s.station 0).jobs ≠ []) ∧
    (∃ (rq : Req) (s : State), served 0x0603 rq s = true ∧ s.mci.personality = .press ∧ (∀ i, i < 4 → ∀ j ∈
    (s.station i).jobs, j.pageId ≠ BitVec.ofNat 32 (rq.u32 0))) ∧
    (∃ (i : Nat) (j : Job) (s : State), ((s.station i).jobs.find? fun j => j.st = .armed && j.lastL0.isNone) = some
    j) :=
  ⟨⟨req [1, 15, 33, 255, 1, 0, 0, 0, 0, 0, 0, 0, 1, 0], press, by decide +kernel⟩,
   ⟨req [3, 0, 0, 0, 0, 0, 0, 0, 0, 0, 64, 0], [], press.modStation 3 fun x => { x with configured := true }, by
   decide +kernel⟩,
   ⟨req [7, 0, 0, 0, 1], press.modStation 0 fun x => { x with jobs := [aJob] }, by decide +kernel⟩,
   ⟨req [7, 0, 0, 0], press, by decide +kernel⟩,
   ⟨3, { aJob with st := .armed }, press.modStation 3 fun x => { x with jobs := [{ aJob with st := .armed }] }, by
   decide +kernel⟩⟩

theorem witness_RoleInputs :
    (∃ (g : Nat) (s : State), g < s.gpi.length) ∧
    (∃ (g : Nat) (s : State), (s.gpiOf g).waiting = true) ∧
    (∃ (g : Nat) (s : State), (s.gpiOf g).waiting = false) ∧
    (∃ (rq : Req) (s : State), served 0x0604 rq s = true ∧ s.mci.personality = .press ∧ rq.u8 0 ≤ 31 ∧ rq.u8 1 ≤ 4 ∧
    10 ≤ rq.u16 4 ∧ rq.u8 3 ≤ 15 ∧ rq.u8 6 ≤ 15 ∧ (rq.u16 8 = 0 ∨ rq.u8 1 = 3) ∧ ((s.gpiOf (rq.u8 0)).forge = false ∨
    (s.gpiOf (rq.u8 0)).role = 0)) ∧
    (∃ (rq : Req) (s : State), served 0x0604 rq s = true ∧ s.mci.personality = .press ∧ 31 < rq.u8 0) :=
  ⟨⟨31, live, by decide +kernel⟩,
   ⟨31, live.modGpi 31 fun x => { x with waiting := true }, by decide +kernel⟩,
   ⟨31, live, by decide +kernel⟩,
   ⟨req [31, 3, 0, 15, 10, 0, 15, 0, 255, 255], press, by decide +kernel⟩,
   ⟨req [32], press, by decide +kernel⟩⟩

theorem witness_BiasAndHeaters :
    (∃ (rq : Req) (s : State), served 0x0605 rq s = true ∧ s.bias.length = 16 ∧ s.mci.personality = .press ∧ rq.u8 0
    ≤ 15 ∧ rq.u8 1 ≤ 3 ∧ rq.u8 2 ≤ 3 ∧ rq.u8 3 = 0xFF ∧ 1 ≤ rq.u16 6 ∧ rq.u16 6 ≤ 32767 ∧ 1 ≤ rq.u16 8 ∧ rq.u16 8 ≤
    32767 ∧ rq.bit 10 0 = false ∧ pageActive s (rq.u8 2) = false ∧ (s.biasOf (rq.u8 0)).loop = none ∧ (s.biasOf
    (rq.u8 0)).held = false ∧ (s.biasOf (rq.u8 0)).raw = none ∧ s.flt.fatal = none) ∧
    (∃ (rq : Req) (s : State), served 0x0680 rq s = true ∧ s.bias.length = 16 ∧ s.mci.personality = .press ∧ rq.u8 0
    ≤ 15 ∧ rq.u16 2 ≤ 4095 ∧ pageActive s (s.biasOf (rq.u8 0)).station = false) ∧
    (∃ (c : Nat) (s : State), (s.biasOf c).configured = true ∧ s.coreUp heaterCore = true) ∧
    (∃ (h : Nat) (s : State), h < s.heaters.length ∧ (s.heater h).configured = true ∧ (s.source (s.heater h).zc).st =
    .track ∧ (s.heater h).full = false ∧ (s.heater h).off = false ∧ (s.heater h).tripped = false ∧ (s.heater h).loop
    ≠ none) ∧
    (∃ (h : Nat) (s : State), (s.heater h).fire ≠ 0 ∧ (s.heater h).off = false ∧ (s.heater h).tripped = false) ∧
    (∃ (h : Nat) (s : State), ((s.heater h).fire = 0 ∨ (s.heater h).off = true ∨ (s.heater h).tripped = true)) ∧
    (∃ (h : Nat) (counts : Nat) (s : State), h < s.heaters.length ∧ (s.heater h).configured = true ∧ (s.heater
    h).overOn = false ∧ counts < (at' s.therm.thermistors (s.heater h).input {}).openMin) ∧
    (∃ (rq : Req) (s : State), served 0x0606 rq s = true ∧ s.heaters.length = 4 ∧ s.mci.personality = .press ∧ rq.u8
    0 ≤ 3 ∧ 24 ≤ rq.u8 1 ∧ rq.u8 1 ≤ 25 ∧ rq.u8 2 = 0xFF ∧ rq.u8 3 ≤ 1 ∧ rq.u8 5 ≤ 31 ∧ 50 ≤ rq.u16 6 ∧ rq.u16 6 ≤
    300 ∧ 10 ≤ rq.u16 8 ∧ rq.u16 8 ≤ 5000 ∧ rq.u16 10 ≤ 2000 ∧ 10 ≤ rq.u16 12 ∧ rq.u16 12 ≤ 1000 ∧ (s.heater (rq.u8
    0)).tripped = false) :=
  ⟨⟨req [15, 3, 3, 255, 5, 0, 255, 127, 255, 127, 0], press, by decide +kernel⟩,
   ⟨req [15, 0, 255, 15], press, by decide +kernel⟩,
   ⟨15, { press with bias := modAt press.bias 15 fun x => { x with configured := true } }, by decide +kernel⟩,
   ⟨3, (live.modSource 24 fun x => { x with st := .track }).modHeater 3 fun x =>
   { x with configured := true, zc := 24, loop := some 5, full := false, off := false }, by decide +kernel⟩,
   ⟨3, live.modHeater 3 fun x => { x with fire := 1, off := false }, by decide +kernel⟩,
   ⟨3, live, by decide +kernel⟩,
   ⟨3, 0,
   { (live.modHeater 3 fun x => { x with configured := true }) with therm := { live.therm with thermistors := live.therm.thermistors.map fun t => { t with openMin := 1 } } },
   by decide +kernel⟩,
   ⟨req [3, 25, 255, 1, 0, 31, 44, 1, 136, 19, 208, 7, 232, 3], press, by decide +kernel⟩⟩

theorem witness_ForgeIsConfigured :
    (∃ (rq : Req) (s : State), served 0x0701 rq s = true ∧ s.heads.length = 24 ∧ s.mci.personality = .forge ∧ rq.u8 0
    < s.nHeads ∧ 10 ≤ rq.u8 1 ∧ rq.u8 1 ≤ 100 ∧ rq.u16 2 ≤ 1000 ∧ rq.u16 4 ≠ 0 ∧ rq.u16 6 ≤ 10000 ∧ 1 ≤ rq.u16 32 ∧
    rq.u16 32 ≤ 10000 ∧
    ({ s.head (rq.u8 0) with ox := rq.i32 8, oy := rq.i32 12, m := [rq.i32 16, rq.i32 20, rq.i32 24, rq.i32 28] } :
    Head).inField ⟨rq.i32 36, rq.i32 40⟩ = true ∧ layerBusy s = false) ∧
    (∃ (rq : Req) (s : State), served 0x0780 rq s = true ∧ s.mci.personality = .forge ∧ rq.u8 0 < s.nHeads ∧ (s.head
    (rq.u8 0)).inField ⟨rq.i32 4, rq.i32 8⟩ = true ∧ s.forge.layer = .idle ∧ (s.head (rq.u8 0)).configured = true) ∧
    (∃ (rq : Req) (s : State), served 0x0780 rq s = true ∧ s.mci.personality = .forge ∧ rq.u8 0 < s.nHeads ∧ (s.head
    (rq.u8 0)).inField ⟨rq.i32 4, rq.i32 8⟩ = true ∧ s.forge.layer = .exposing) ∧
    (∃ (rq : Req) (s : State), served 0x0702 rq s = true ∧ (let u := readDramTable (rq.u64 4) 384 s; served 0x0702 rq
    u = true ∧ u.mci.personality = .forge ∧ rq.u8 0 ≤ 3 ∧ headTable u (rq.u64 4) (BitVec.ofNat 32 (rq.u32 12)) = none
    ∧ u.forge.program ≠ rq.u8 0)) ∧
    (∃ (rq : Req) (s : State), served 0x0702 rq s = true ∧ (let u := readDramTable (rq.u64 4) 384 s; served 0x0702 rq
    u = true ∧ u.mci.personality = .forge ∧ rq.u8 0 ≤ 3 ∧ headTable u (rq.u64 4) (BitVec.ofNat 32 (rq.u32 12)) = none
    ∧ u.forge.program = rq.u8 0 ∧ u.forge.layer = .exposing)) ∧
    (∃ (k : Nat) (c : Ctx) (address : Nat) (crc : BitVec 32) (rest : List (Ctx × Nat × BitVec 32)) (s : State), (at'
    s.forge.programs k {}).loading = (c, address, crc) :: rest ∧ (let u := readProgram address crc s; k <
    u.forge.programs.length ∧ u.coreUp hostCore = true)) ∧
    (∃ (rq : Req) (s : State), served 0x0708 rq s = true ∧ s.mci.personality = .forge ∧ rq.u8 0 ≤ 31 ∧ (∀ h, h < 32 →
    (rq.u32 8).testBit h = true → h < s.nHeads) ∧ (rq.u8 1 = 0 ∨ (4 ≤ rq.u8 1 ∧ rq.u8 1 ≤ 6)) ∧ rq.u8 3 ≤ 15 ∧ 10 ≤
    rq.u16 4 ∧ rq.u16 6 ≤ 60000) ∧
    (∃ (g : Nat) (s : State), (s.gpiOf g).forge = true ∧ (s.gpiOf g).active = true ∧ (s.gpiOf g).gated = false ∧
    ((s.gpiOf g).role = 5 ∨ (s.gpiOf g).role = 6) ∧ g < s.gpi.length) ∧
    (∃ (g : Nat) (s : State), (s.gpiOf g).gated = true) ∧
    (∃ (rq : Req) (s : State), served 0x0806 rq s = true ∧ s.mci.personality = .forge ∧ rq.u16 2 ≤ 10000 ∧ (∀ i, i <
    8 → (rq.u8 0).testBit i = true → (s.lampOf i).regulated = true) ∧ layerBusy s = false) ∧
    (∃ (rq : Req) (s : State), served 0x0806 rq s = true ∧ s.mci.personality = .forge ∧ rq.u16 2 ≤ 10000 ∧ (∀ i, i <
    8 → (rq.u8 0).testBit i = true → (s.lampOf i).regulated = true) ∧ layerBusy s = true) ∧
    (∃ (rq : Req) (s : State), served 0x0806 rq s = true ∧ s.mci.personality = .forge ∧ 10000 < rq.u16 2) :=
  ⟨⟨req ([23, 100, 232, 3, 1, 0, 16, 39] ++ List.replicate 24 0 ++ [16, 39] ++ List.replicate 14 0), forge, by
   decide +kernel⟩,
   ⟨req [23, 0, 0, 0, 0, 0, 0, 0, 0, 0, 0, 0], forge.modHead 23 fun x => { x with configured := true }, by
   decide +kernel⟩,
   ⟨req [23, 0, 0, 0, 0, 0, 0, 0, 0, 0, 0, 0], { forge with forge := { forge.forge with layer := .exposing } }, by
   decide +kernel⟩,
   ⟨req ([3] ++ List.replicate 15 0), forge, by decide +kernel⟩,
   ⟨req ([3] ++ List.replicate 15 0), { forge with forge := { forge.forge with program := 3, layer := .exposing } },
   by decide +kernel⟩,
   ⟨3, aCtx, 0, 0, [],
   { forge with forge := { forge.forge with programs := modAt forge.forge.programs 3 fun p => { p with loading := [(aCtx, 0, 0)] } } },
   by decide +kernel⟩,
   ⟨req [31, 6, 0, 15, 10, 0, 96, 234, 255, 255, 255, 0], forge, by decide +kernel⟩,
   ⟨31, live.modGpi 31 fun x => { x with forge := true, active := true, role := 5 }, by decide +kernel⟩,
   ⟨31, live.modGpi 31 fun x => { x with gated := true }, by decide +kernel⟩,
   ⟨req [128, 0, 16, 39], { forge with lamps := modAt forge.lamps 7 fun x => { x with regulated := true } }, by
   decide +kernel⟩,
   ⟨req [0, 0, 16, 39], { forge with forge := { forge.forge with layer := .armed } }, by decide +kernel⟩,
   ⟨req [0, 0, 17, 39], forge, by decide +kernel⟩⟩

theorem witness_LayersRun :
    (∃ (rq : Req) (s : State), served 0x0703 rq s = true ∧ s.mci.personality = .forge ∧ rq.u8 0 ≤ 15 ∧ rq.u8 1 ≤ 15 ∧
    100 ≤ rq.u32 12 ∧ rq.u32 12 ≤ 600000 ∧ s.forge.layer = .idle ∧ s.pwr.grace = none ∧ rq.i32 4 ≠ 0) ∧
    (∃ (rq : Req) (s : State), served 0x0703 rq s = true ∧ s.mci.personality = .forge ∧ rq.u8 0 ≤ 15 ∧ rq.u8 1 ≤ 15 ∧
    100 ≤ rq.u32 12 ∧ rq.u32 12 ≤ 600000 ∧ (s.forge.layer ≠ .idle ∨ s.pwr.grace.isSome = true)) ∧
    (∃ (r : Recoat) (s : State), s.forge.recoat = some r) ∧
    (∃ (rq : Req) (s : State), served 0x0704 rq s = true ∧ s.heads.length = 24 ∧ s.mci.personality = .forge ∧ rq.u8 0
    ≤ 3 ∧ rq.u8 1 = 0xFF ∧ 1 ≤ rq.u32 20 ∧ rq.u32 20 ≤ 600000 ∧ s.forge.layer = .recoated ∧ s.pwr.grace = none ∧ (at'
    s.forge.programs (rq.u8 0) {}).checked = true ∧ (∀ h ∈ (at' s.forge.programs (rq.u8 0) {}).heads, h < s.nHeads ∧
    fenced s 0x0103 h = false ∧ (s.head h).configured = true ∧ (s.link h).st = .up)) ∧
    (∃ (rq : Req) (s : State), served 0x0705 rq s = true ∧ s.mci.personality = .forge ∧ rq.u64 0 = 0 ∧ s.forge.layer
    = .armed ∧ s.pwr.grace = none ∧ conditionPresent s = false ∧ permitDwelt s = true ∧ s.forge.reassign = [] ∧
    s.heads.length = 24 ∧ (∃ h, h < s.nHeads ∧ (s.head h).inLayer = true ∧ (s.head h).vectorsLeft ≠ 0)) ∧
    (∃ (rq : Req) (s : State), served 0x0705 rq s = true ∧ s.mci.personality = .forge ∧ rq.u64 0 = 0 ∧ s.forge.layer
    ≠ .armed) ∧
    (∃ (rq : Req) (s : State), served 0x0706 rq s = true ∧ s.mci.personality = .forge ∧ rq.u8 0 = 0 ∧ s.forge.layer =
    .exposing) ∧
    (∃ (rq : Req) (s : State), served 0x0706 rq s = true ∧ s.mci.personality = .forge ∧ rq.u8 0 = 1 ∧ rq.u64 8 = 0 ∧
    s.forge.layer = .paused ∧ conditionPresent s = false ∧ permitDwelt s = true ∧ (∃ h, h < s.nHeads ∧ (s.head
    h).inLayer = true ∧ (s.head h).vectorsLeft ≠ 0)) ∧
    (∃ (rq : Req) (s : State), served 0x0706 rq s = true ∧ s.mci.personality = .forge ∧ rq.u8 0 = 2 ∧ s.forge.layer =
    .exposing ∧ s.forge.abort = none ∧ layerLastDue s = false ∧ (∀ h, h < s.nHeads → holding s h = false)) ∧
    (∃ (rq : Req) (s : State), served 0x0706 rq s = true ∧ s.mci.personality = .forge ∧ rq.u8 0 = 2 ∧ layerLastDue s
    = true) ∧
    (∃ (rq : Req) (s : State), served 0x0706 rq s = true ∧ s.mci.personality = .forge ∧ rq.u8 0 = 2 ∧ s.forge.layer =
    .idle) ∧
    (∃ (h : Nat) (s : State), (s.head h).st = 3 ∧ s.forge.layer = .exposing) ∧
    (∃ (rq : Req) (s : State), served 0x0707 rq s = true ∧ s.mci.personality = .forge ∧ rq.u8 0 < s.nHeads) :=
  ⟨⟨req [15, 15, 0, 0, 1, 0, 0, 0, 0, 0, 0, 0, 192, 39, 9, 0], forge, by decide +kernel⟩,
   ⟨req [15, 15, 0, 0, 1, 0, 0, 0, 0, 0, 0, 0, 192, 39, 9, 0],
   { forge with forge := { forge.forge with layer := .exposing } }, by decide +kernel⟩,
   ⟨aRecoat, { forge with forge := { forge.forge with recoat := some aRecoat } }, by decide +kernel⟩,
   ⟨req ([3, 255] ++ List.replicate 18 0 ++ [192, 39, 9, 0]),
   { ((forge.modHead 0 fun x => { x with configured := true }).modLink 0 fun x => { x with st := .up }) with forge := { forge.forge with layer := .recoated, programs := modAt forge.forge.programs 3 fun p => { p with checked := true, arrays := [[aRec]] } } },
   by decide +kernel⟩,
   ⟨req [0, 0, 0, 0, 0, 0, 0, 0],
   { (forge.modHead 23 fun x => { x with inLayer := true, todo := [aRec] }) with forge := { forge.forge with layer := .armed } },
   by decide +kernel⟩,
   ⟨req [0, 0, 0, 0, 0, 0, 0, 0], forge, by decide +kernel⟩,
   ⟨req [0], { forge with forge := { forge.forge with layer := .exposing } }, by decide +kernel⟩,
   ⟨req ([1] ++ List.replicate 15 0), (({ forge with forge := { forge.forge with layer := .paused } }).modHead 23 fun
   x => { x with inLayer := true, todo := [aRec] }),
   by refine ⟨?_, ?_, ?_, ?_, ?_, ?_, ?_, ⟨23, by decide +kernel⟩⟩ <;> decide +kernel⟩,
   ⟨req [2],
   { (forge.modHead 23 fun x => { x with inLayer := true, todo := [aRec] }) with forge := { forge.forge with layer := .exposing } },
   by decide +kernel⟩,
   ⟨req [2], { forge with forge := { forge.forge with layer := .exposing } }, by decide +kernel⟩,
   ⟨req [2], forge, by decide +kernel⟩,
   ⟨23, { (forge.modHead 23 fun x => { x with st := 3 }) with forge := { forge.forge with layer := .exposing } }, by
   decide +kernel⟩,
   ⟨req [23], forge, by decide +kernel⟩⟩

theorem witness_StraitAndRetirement :
    (∃ (rq : Req) (s : State), served 0x0801 rq s = true ∧ s.mci.personality = .forge ∧
    (let c : StraitCfg := { flowX := rq.i16 0, flowY := rq.i16 2, down := rq.u16 4, up := rq.u16 6, radius := rq.u16 8, plumeHold := rq.u16 10, waitMax := rq.u16 12, straitTimeout := rq.u16 14, unexecBuf := rq.u64 16, unexecCap := rq.u32 24 };
    (c.flowX ≠ 0 ∨ c.flowY ≠ 0) ∧ c.down ≤ 50000 ∧ c.up ≤ 10000 ∧ c.up < c.down ∧ c.radius ≤ 10000 ∧ c.plumeHold ≤
    10000 ∧ 1 ≤ c.waitMax ∧ c.waitMax ≤ 60000 ∧ (c.straitTimeout = 0 ∨ (c.waitMax ≤ c.straitTimeout ∧ c.straitTimeout
    ≤ 60000)) ∧ c.unexecCap ≤ 1048576 ∧ c.unexecBuf < 2 ^ 48)) ∧
    (∃ (h : Nat) (t : BitVec 64) (s : State), (s.head h).waitingSince = some t ∧ (s.head h).longWait = false) ∧
    (∃ (h : Nat) (t : BitVec 64) (s : State), (s.head h).waitingSince = some t ∧ s.forge.strait.straitTimeout ≠ 0) ∧
    (∃ (h : Nat) (a : Active) (s : State), (s.head h).actives.find? (fun a => !(s.head h).vecs.any fun v => v.r.seqNo
    = a.r.seqNo) = some a) ∧
    (∃ (s : State), s.forge.layer = .exposing ∧ (∀ h, (s.head h).actives = []) ∧ (∀ h, h < s.nHeads → dueVector s h =
    none)) ∧
    (∃ (h : Nat) (v : Vec) (s : State), s.forge.layer = .exposing ∧ h < s.nHeads ∧ dueVector s h = some v ∧
    (let u := classGrant 0 s; u.heads.length = 24 ∧ h < u.nHeads ∧ (∀ k, (u.head k).actives = []) ∧ dueVector u h =
    some v ∧ (∀ k, k < u.nHeads → k ≠ h → dueVector u k = none))) ∧
    (∃ (rq : Req) (s : State), served 0x0803 rq s = true ∧ s.mci.personality = .forge ∧ (∀ h, h < 32 → (rq.u32
    0).testBit h = true → h < s.nHeads) ∧ layerBusy s = true ∧ (∀ h, h < 32 → (rq.u32 0).testBit h = true → (s.head
    h).retired = false)) ∧
    (∃ (rq : Req) (s : State), served 0x0803 rq s = true ∧ s.mci.personality = .forge ∧ (∀ h, h < 32 → (rq.u32
    0).testBit h = true → h < s.nHeads) ∧ s.forge.layer = .idle) ∧
    (∃ (h : Nat) (s : State), s.heads.length = 24 ∧ h < s.nHeads ∧ s.forge.reassign = [h] ∧ s.forge.retireCtx = [] ∧
    s.headFed h = true ∧ s.forge.abort = none ∧ (s.head h).vecs = [] ∧ (s.head h).todo = [] ∧ s.forge.layer = .armed) ∧
    (∃ (s : State), s.forge.reassign = []) ∧
    (∃ (r : Rec) (a : Nat) (s : State), assignee s r = .ok a) ∧
    (∃ (rq : Req) (s : State), served 0x0802 rq s = true ∧ s.mci.personality = .forge ∧ rq.u8 0 < s.nHeads) :=
  ⟨⟨req [1, 0, 0, 0, 80, 195, 16, 39, 16, 39, 16, 39, 96, 234, 96, 234, 255, 255, 255, 255, 255, 255, 0, 0, 0, 0, 16,
   0], forge, by decide +kernel⟩,
   ⟨23, 7, forge.modHead 23 fun x => { x with st := 2, vecs := [{ aVec with waited := some 7 }] }, by decide +kernel⟩,
   ⟨23, 7,
   { (forge.modHead 23 fun x => { x with st := 2, vecs := [{ aVec with waited := some 7 }] }) with forge := { forge.forge with strait := { forge.forge.strait with straitTimeout := 1 } } },
   by decide +kernel⟩,
   ⟨23, { r := aRec, start := 0, periods := 0, since := 0, on := 3, off := 5, intruded := false }, forge.modHead 23
   fun x =>
   { x with actives := [{ r := aRec, start := 0, periods := 0, since := 0, on := 3, off := 5, intruded := false }] },
   by decide +kernel⟩,
   ⟨{ forge with forge := { forge.forge with layer := .exposing } },
   by exact ⟨by decide, forall_at (fun x : Head => x.actives = []) _ _ (by decide +kernel) (by decide), by decide +kernel⟩⟩,
   ⟨23, { aVec with opens := -1 },
   { (forge.modHead 23 fun x => { x with inLayer := true, token := .pending, vecs := [{ aVec with opens := -1 }] }) with forge := { forge.forge with layer := .exposing } },
   by refine ⟨?_, ?_, ?_, ?_, ?_,
     (by intro k; refine forall_at (fun x : Head => x.actives = []) _ {} ?_ rfl k; decide +kernel), ?_, ?_⟩ <;> decide +kernel⟩,
   ⟨req [255, 255, 255, 0], { forge with forge := { forge.forge with layer := .armed } }, by decide +kernel⟩,
   ⟨req [255, 255, 255, 0], forge, by decide +kernel⟩,
   ⟨23, { forge with forge := { forge.forge with layer := .armed, reassign := [23] } }, by decide +kernel⟩,
   ⟨live, by decide +kernel⟩,
   ⟨{ aRec with alts := 1#24 <<< 23 }, 23, (forge.modHead 23 fun x => { x with configured := true }).modLink 23 fun x
   => { x with st := .up }, by exact rfl⟩,
   ⟨req [23], forge, by decide +kernel⟩⟩

theorem witness_CapsuleAlongTheFlow :
    ∃ (c : StraitCfg), c.flowX = 1 ∧ c.flowY = 0 :=
  ⟨{ flowX := 1, flowY := 0, down := 2, up := 1, radius := 1 }, by decide +kernel⟩

theorem witness_MeltPool :
    (∃ (rq : Req) (s : State), served 0x0804 rq s = true ∧ s.heads.length = 24 ∧ s.mci.personality = .forge ∧ rq.u8 0
    < s.nHeads ∧ rq.u8 2 ≤ 23 ∧ rq.u8 3 ≤ 15 ∧ rq.u8 1 ≤ 2 ∧ rq.u8 4 ≤ 4 ∧ rq.u8 5 = 0 ∧ rq.u16 8 ≤ 1000 ∧ 10 ≤
    rq.u16 10 ∧ rq.u16 10 ≤ 10000 ∧ rq.u16 12 ≤ 4095 ∧ 100 ≤ rq.u16 14 ∧ rq.u16 16 ≤ rq.u16 18 ∧ layerBusy s = false) ∧
    (∃ (rq : Req) (s : State), served 0x0880 rq s = true ∧ s.mci.personality = .forge ∧ rq.u8 0 < s.nHeads ∧
    s.forge.layer ≠ .exposing) ∧
    (∃ (rq : Req) (s : State), served 0x0807 rq s = true ∧ s.heads.length = 24 ∧ s.mci.personality = .forge ∧ rq.u32
    0 = 0) ∧
    (∃ (h : Nat) (d : BitVec 64) (s : State), (let u := s.advanceTo (d.toNat + (s.head h).signalLost * 1600); (s.head
    h).inputKind = 1 ∧ (s.head h).darkFrom = some d ∧ (s.head h).dark = false ∧ ((s.head h).lit u.now).isSome =
    true)) ∧
    (∃ (h : Nat) (f : BitVec 64) (s : State), (let u := s.advanceTo (f.toNat + (s.head h).stale * 1600 + 1); (s.head
    h).inputKind = 2 ∧ at' (s.stream (s.head h).camStream).featAt (s.head h).camFeature none = some f ∧ (s.head
    h).staleVector ≠ some ((s.head h).vectorNow u.now))) ∧
    (∃ (ch : Nat) (counts : Nat) (i : Nat) (s : State), i < s.engine.loops.length ∧ counts < 4095 ∧ (s.loop
    i).inSel.kind = 3 ∧ (s.loop i).inSel.index = ch ∧ headOwner s i = none) ∧
    (∃ (rq : Req) (s : State), served 0x0805 rq s = true ∧ s.mci.personality = .forge ∧ rq.u8 0 < s.nHeads) :=
  ⟨⟨req [23, 2, 23, 15, 4, 0, 0, 0, 232, 3, 16, 39, 255, 15, 100, 0, 5, 0, 5, 0], forge, by decide +kernel⟩,
   ⟨req [23], forge, by decide +kernel⟩,
   ⟨req [0, 0, 0, 0], forge, by decide +kernel⟩,
   ⟨23, 7, forge.modHead 23 fun x =>
   { x with inputKind := 1, darkFrom := some 7, actives := [{ r := aRec, start := 0, periods := 0, since := 0, on := 0, off := 2 ^ 60, intruded := false }] },
   by decide +kernel⟩,
   ⟨23, 5,
   { (forge.modHead 23 fun x => { x with inputKind := 2 }) with cam := { forge.cam with streams := modAt forge.cam.streams 0 fun x => { x with featAt := [some 5] } } },
   by decide +kernel⟩,
   ⟨7, 4094, 63,
   { live with engine := { live.engine with loops := modAt live.engine.loops 63 fun l => { l with inSel := { kind := 3, index := 7 } } } },
   by decide +kernel⟩,
   ⟨req [23], forge, by decide +kernel⟩⟩

theorem witness_LoopsAreConfigured :
    (∃ (rq : Req) (kp : Int) (ki : Int) (kd : Int) (tf : Int) (cs : List (Int × Nat)) (g : Stage) (s : State) (t :
    State), served 0x0902 rq s = true ∧ (let slot := rq.u8 0; (let old := s.loop slot; slot < 64 ∧ 1000 ≤ rq.u32 4 ∧
    rq.u32 4 ≤ 1000000 ∧ ticksPerSecond % rq.u32 4 = 0 ∧ rq.i32 28 < rq.i32 32 ∧ floatInt (rq.u32 8) = some kp ∧
    floatInt (rq.u32 12) = some ki ∧ floatInt (rq.u32 16) = some kd ∧ floatInt (rq.u32 20) = some tf ∧ pidCoefs kp ki
    kd tf (rq.u32 4) = some cs ∧ compileStage cs = some g ∧ (s.loop slot).group = none ∧ ownerActive s slot = false ∧
    assignPhases [[slot]] (s.modLoop slot fun l =>
    { l with loaded := true, invert := rq.bit 1 0, enabled := rq.bit 1 1, stages := [g], period := ticksPerSecond / rq.u32 4, ref := rq.i32 24, refNext := none, outMin := rq.i32 28, outMax := rq.i32 32, bias := rq.i32 36, resetNext := false, lastTick := if old.enabled then old.lastTick else s.time.toNat })
    = some t))) ∧
    (∃ (rq : Req) (s : State), served 0x0903 rq s = true ∧
    (let inSel : Sel := { kind := rq.u8 4, index := rq.u8 5, sub := rq.u8 6 };
    (let out : Sel := { kind := rq.u8 8, index := rq.u8 9 }; rq.u8 0 = 0 ∧ rq.u8 1 < 64 ∧ inSelOk inSel = true ∧
    outSelOk out = true ∧ out.kind ≠ 2 ∧ out.kind ≠ 3 ∧ (out.kind = 1 → s.mci.personality ≠ .press) ∧ ((s.loop (rq.u8
    1)).group = none ∨ out.kind = 0) ∧ (s.loop (rq.u8 1)).loaded = true ∧ (out.kind = 0 ∨ ∀ i ∈ loopsBoundTo s
    out.kind out.index, i = rq.u8 1)))) ∧
    (∃ (rq : Req) (s : State), served 0x0903 rq s = true ∧ (let out : Sel := { kind := rq.u8 8, index := rq.u8 9 };
    rq.u8 0 = 1 ∧ rq.u8 1 < 16 ∧ outSelOk out = true ∧ out.kind ≠ 2 ∧ out.kind ≠ 3 ∧ (out.kind = 1 →
    s.mci.personality ≠ .press) ∧ (s.group (rq.u8 1)).members ≠ [] ∧ (out.kind = 0 ∨ ∀ i ∈ loopsBoundTo s out.kind
    out.index, i = 64 + rq.u8 1))) ∧
    (∃ (rq : Req) (s : State), served 0x0904 rq s = true ∧ s.engine.loops.length = 64 ∧ (let l := s.loop (rq.u8 0);
    rq.u8 0 < 64 ∧ rq.u8 1 = 1 ∧ rq.u8 2 ≤ 1 ∧ rq.u8 3 ≤ 1 ∧ l.loaded = true ∧ l.enabled = true)) ∧
    (∃ (rq : Req) (s : State), served 0x0904 rq s = true ∧ s.engine.loops.length = 64 ∧ (let l := s.loop (rq.u8 0);
    rq.u8 0 < 64 ∧ rq.u8 1 = 0 ∧ rq.u8 2 ≤ 1 ∧ rq.u8 3 ≤ 1 ∧ l.loaded = true ∧ l.enabled = true ∧ l.group = none ∧
    l.outSel.kind = 6 ∧ l.outSel.index < s.engine.vars.length)) ∧
    (∃ (rq : Req) (s : State) (t : State), served 0x0905 rq s = true ∧ s.engine.loops.length = 64 ∧
    s.engine.groups.length = 16 ∧ (let ms := (List.range (rq.u8 1)).map fun k => rq.u8 (2 + k); rq.u8 0 < 16 ∧ 2 ≤
    rq.u8 1 ∧ rq.u8 1 ≤ 8 ∧ groupOk (rq.u8 0) ms s = true ∧ removesBound (rq.u8 0) ms s = false ∧ assignPhases [ms]
    (formGroup (rq.u8 0) ms s) = some t)) ∧
    (∃ (rq : Req) (s : State), served 0x0905 rq s = true ∧ s.engine.groups.length = 16 ∧ rq.u8 0 < 16 ∧ rq.u8 1 = 0 ∧
    removesBound (rq.u8 0) [] s = false) ∧
    (∃ (rq : Req) (s : State), served 0x0908 rq s = true ∧ rq.u8 0 < 16 ∧ loopsBoundTo s 6 (rq.u8 0) = []) ∧
    (∃ (rq : Req) (g : Stage) (s : State), served 0x0980 rq s = true ∧ rq.u8 0 < 64 ∧ rq.u8 1 ≤ 3 ∧ (s.loop (rq.u8
    0)).loaded = true ∧ rq.u8 1 < (s.loop (rq.u8 0)).stages.length ∧ ownerActive s (rq.u8 0) = false ∧ rq.u8 2 ≤ 1 ∧
    stageOf (rq.u8 2) (rq.bytes 4 48) = some g) ∧
    (∃ (rq : Req) (img : List Byte) (r : State × List Nat) (s : State),
    (let u := coreRead hostCore (rq.u64 0) (rq.u32 8) s; served 0x0901 rq u = true ∧ u.table (rq.u64 0) (rq.u32 8) =
    some img ∧ loadRecipe img (rq.u32 12) u = .ok r)) ∧
    (∃ (c : Ctx) (address : Nat) (n : Nat) (crc : BitVec 32) (rest : List (Ctx × Nat × Nat × BitVec 32)) (img : List
    Byte) (s : State), s.engine.load = (c, address, n, crc) :: rest ∧ (let u := coreRead hostCore address n s;
    u.coreUp hostCore = true ∧ (let s' := { u with engine := { u.engine with load := rest } }; s'.table address n =
    some img ∧ (∃ t slots, loadRecipe img crc.toNat s' = .ok (t, slots))))) ∧
    (∃ (c : Ctx) (address : Nat) (n : Nat) (crc : BitVec 32) (rest : List (Ctx × Nat × Nat × BitVec 32)) (img : List
    Byte) (s : State), s.engine.load = (c, address, n, crc) :: rest ∧ (let u := coreRead hostCore address n s;
    u.coreUp hostCore = true ∧ (let s' := { u with engine := { u.engine with load := rest } }; s'.table address n =
    some img ∧ (∃ e, loadRecipe img crc.toNat s' = .error e)))) :=
  ⟨(by refine ⟨req ([63, 0, 0, 0, 64, 66, 15] ++ List.replicate 25 0 ++ [1, 0, 0, 0, 0, 0, 0, 0]), 0, 0, 0, 0, [(0, 2
   ^ 298), (0, 2 ^ 298), (0, 1), (0, 1), (0, 2 ^ 149), (0, 1), (0, 1), (0, 2 ^ 149 * 1000000)],
   { coef := List.replicate 8 0, shift := List.replicate 8 31, integ := true }, live, Option.get _ ?h, ?_, ?_, ?_,
   ?_, ?_, ?_, ?_, ?_, ?_, ?_, ?_, ?_, ?_, ?_, (Option.some_get ?h).symm⟩ <;> decide +kernel),
   ⟨req [0, 63, 0, 0, 9, 15, 0, 0, 6, 15], live.modLoop 63 fun l => { l with loaded := true }, by decide +kernel⟩,
   ⟨req [1, 15, 0, 0, 0, 0, 0, 0, 6, 15], live.modGroup 15 fun g => { g with members := [0, 1] }, by decide +kernel⟩,
   ⟨req [63, 1, 1, 1], live.modLoop 63 fun l => { l with loaded := true, enabled := true }, by decide +kernel⟩,
   ⟨req [63, 0, 1, 1], live.modLoop 63 fun l =>
   { l with loaded := true, enabled := true, outSel := { kind := 6, index := 15 } }, by decide +kernel⟩,
   (by obtain ⟨t, h⟩ := some_of (o := assignPhases [[62, 63]] (formGroup 15 [62, 63] twoLoaded)) (by
   decide +kernel); refine ⟨req [15, 2, 62, 63], twoLoaded, t, ?_, ?_, ?_, ?_, ?_, ?_, ?_, ?_, h⟩ <;> decide +kernel),
   ⟨req [15, 0], live, by decide +kernel⟩,
   ⟨req [15, 0, 0, 0, 5, 0, 0, 0], live, by decide +kernel⟩,
   ⟨req ([63, 3, 0, 0, 7] ++ List.replicate 43 0), { coef := [7, 0, 0, 0, 0, 0, 0, 0] }, live.modLoop 63 fun l =>
   { l with loaded := true, stages := List.replicate 4 {} }, by decide +kernel⟩,
   (by obtain ⟨r, h⟩ := ok_of (o := loadRecipe recipe 0xE08C8D54 (coreRead hostCore 0 16 recipeMem)) (by
   decide +kernel); exact ⟨req [0,0,0,0,0,0,0,0,16,0,0,0,84,141,140,224], recipe, r, recipeMem, by decide +kernel, by
   decide +kernel, h⟩),
   ⟨aCtx, 0, 16, 0xE08C8D54, [], recipe,
   { (recipeMem) with engine := { live.engine with load := [(aCtx, 0, 16, 0xE08C8D54)] } }, by decide, by decide, by
   decide +kernel, ok_pair (by decide +kernel)⟩,
   ⟨aCtx, 0, 16, 0, [], recipe, { (recipeMem) with engine := { live.engine with load := [(aCtx, 0, 16, 0)] } }, by
   decide, by decide, by decide +kernel, error_of (by decide +kernel)⟩⟩

theorem witness_LoopsAreEvaluated :
    (∃ (slot : Nat) (s : State), ((s.loop slot).loaded = false ∨ (s.loop slot).enabled = false)) ∧
    (∃ (slot : Nat) (s : State), s.engine.loops.length = 64 ∧ slot < 64 ∧ (let l := s.loop slot;
    (let s' := classGrants 2 128 ({ s with engine := { s.engine with tick := l.dueTick } }.advanceTo l.dueTick);
    (let v := delivered l.dueTick (at' s.engine.vars l.inSel.index 0) (at' s.engine.varsBefore l.inSel.index (0, 0));
    (let x := if l.invert then v - l.ref else l.ref - v; nextToEvaluate s slot = true ∧ s'.time.toNat ≤ l.dueTick +
    1280 ∧ l.refNext = none ∧ l.loaded = true ∧ l.enabled = true ∧ l.resetNext = false ∧ l.group = none ∧ headOwner s
    slot = none ∧ heaterOwner s slot = none ∧ l.inSel.kind = 9 ∧ l.outSel.kind = 0 ∧ inFormat v = true ∧ inFormat x =
    true))))) ∧
    (∃ (slot : Nat) (s : State), nextToEvaluate s slot = false) ∧
    (∃ (v : Int), inFormat v = true) ∧
    (∃ (v : Int), 2 ^ 31 ≤ v) ∧
    (∃ (v : Int), v < -2 ^ 31) ∧
    (∃ (s : State) (g : Nat) (w : Nat), selected s g = some w) ∧
    (∃ (k : Nat) (s : State), (s.repctl k).mode = 0) ∧
    (∃ (k : Nat) (j : Nat) (e : Int) (since : BitVec 64) (rest : List (Nat × Int × BitVec 64)) (s : State),
    s.engine.repctls.length = 8 ∧ k < 8 ∧ (let r := s.repctl k; r.mode = 1 ∧ r.pending = (j, e, since) :: rest ∧
    r.updates = 0 ∧ r.period ≠ 0)) ∧
    (∃ (rq : Req) (s : State), served 0x0906 rq s = true ∧ rq.u8 0 < 64 ∧ (s.loop (rq.u8 0)).loaded = true) ∧
    (∃ (rq : Req) (s : State), served 0x0907 rq s = true ∧ rq.u8 0 < 8) ∧
    (∃ (rq : Req) (a : Nat) (s : State), served 0x0981 rq s = true ∧ rq.u8 0 < 8 ∧ rq.u8 1 ≤ 1 ∧ (s.repctl (rq.u8
    0)).loaded = true ∧ s.place (rq.u64 4) = .host a) ∧
    (∃ (k : Nat) (address : Nat) (host : List Byte) (b : List Byte) (c : Ctx) (crc : BitVec 32) (rest : List (Ctx ×
    Bool × Nat × BitVec 32)) (s : State), (s.repctl k).xfer = (c, true, address, crc) :: rest ∧
    (let u := coreRead cameraCore address (4 * (s.repctl k).period) s; u.coreUp cameraCore = true ∧ u.tableOr address
    (4 * (s.repctl k).period) host = some b)) ∧
    (∃ (k : Nat) (address : Nat) (c : Ctx) (crc : BitVec 32) (rest : List (Ctx × Bool × Nat × BitVec 32)) (s : State)
    (t : State), s.coreUp cameraCore = true ∧ (s.repctl k).xfer = (c, false, address, crc) :: rest ∧
    (let b := (s.repctl k).table.flatMap (leBytesI 4); putTable cameraCore address b (s.modRepctl k fun r =>
    { r with xfer := rest }) = some t)) :=
  ⟨⟨63, live, by decide +kernel⟩,
   ⟨63, live.modLoop 63 fun l =>
   { l with loaded := true, enabled := true, inSel := { kind := 9, index := 15 }, ref := 2 ^ 31 - 1 }, by
   decide +kernel⟩,
   ⟨63, live.modLoop 62 fun l => { l with loaded := true, enabled := true }, by decide +kernel⟩,
   ⟨2 ^ 31 - 1, by decide +kernel⟩,
   ⟨2 ^ 31, by decide +kernel⟩,
   ⟨-2 ^ 31 - 1, by decide +kernel⟩,
   ⟨((live.modGroup 15 fun g => { g with members := [62, 63] }).modLoop 62 fun l =>
   { l with enabled := true, out := 4 }).modLoop 63 fun l => { l with enabled := true, out := 4 }, 15, 62, by
   decide +kernel⟩,
   ⟨7, live, by decide +kernel⟩,
   ⟨7, 4095, -1, 9, [], live.modRepctl 7 fun r => { r with mode := 1, pending := [(4095, -1, 9)], period := 4096 },
   by decide +kernel⟩,
   ⟨req [63], live.modLoop 63 fun l => { l with loaded := true }, by decide +kernel⟩,
   ⟨req [7], live, by decide +kernel⟩,
   ⟨req [7, 1, 0, 0, 0, 0, 0, 0, 0, 0, 1, 0], 0, live.modRepctl 7 fun r => { r with loaded := true }, by
   decide +kernel⟩,
   ⟨7, 2 ^ 48, [1, 0, 0, 0], [1, 0, 0, 0], aCtx, 0, [], live.modRepctl 7 fun r =>
   { r with period := 1, xfer := [(aCtx, true, 2 ^ 48, 0)] }, by decide +kernel⟩,
   ⟨7, 2 ^ 48, aCtx, 0, [], live.modRepctl 7 fun r => { r with xfer := [(aCtx, false, 2 ^ 48, 0)] }, _, by decide, by
   decide +kernel, rfl⟩⟩

theorem witness_CamerasAreConfigured :
    (∃ (rq : Req) (s : State), served 0x0A01 rq s = true ∧ rq.u8 0 < 4 ∧ (rq.u8 1 = 1 ∨ rq.u8 1 = 2 ∨ rq.u8 1 = 4) ∧
    80 ≤ rq.u16 2 ∧ rq.u16 2 ≤ 2500 ∧ rq.u8 4 ≤ 1 ∧ (∀ i, i < 16 → ∀ c ∈ (s.stream i).cfg :: (s.stream
    i).cfgNext.toList, c.enable = true → c.path = 0 → c.port = rq.u8 0 → inlineRateOk (rq.u8 1) (rq.u16 2) c.dt =
    true)) ∧
    (∃ (rq : Req) (s : State), served 0x0A02 rq s = true ∧ s.cam.streams.length = 16 ∧ (let i := rq.u8 0;
    (let c := streamCfgOf rq; i < 16 ∧ c.port < 4 ∧ c.vc < 16 ∧ c.ok (s.port c.port) = true ∧ c.enable = true ∧
    (c.raw = true → c.buf + 6 * c.bytes ≤ s.dram.cfg.usable) ∧ c.rec' + 4096 * c.records ≤ s.dram.cfg.usable ∧ (∀ j,
    j < 16 → j ≠ i → (s.stream j).cfg.enable = true → ∀ o ∈ (s.stream j).cfg :: (s.stream j).cfgNext.toList, (o.port,
    o.vc, o.dt) ≠ (c.port, c.vc, c.dt) ∧ (o.path = 0 → c.path ≠ 0))))) ∧
    (∃ (rq : Req) (s : State), served 0x0A02 rq s = true ∧ s.cam.streams.length = 16 ∧ (let c := streamCfgOf rq;
    rq.u8 0 < 16 ∧ c.port < 4 ∧ c.vc < 16 ∧ c.ok (s.port c.port) = true ∧ c.enable = false ∧ (c.raw = true → c.buf +
    6 * c.bytes ≤ s.dram.cfg.usable) ∧ c.rec' + 4096 * c.records ≤ s.dram.cfg.usable)) ∧
    (∃ (rq : Req) (s : State), served 0x0A03 rq s = true ∧
    (let st : CamStats := { shift := rq.u8 1, thresh := rq.u16 2, x := rq.u16 4, y := rq.u16 6, w := rq.u16 8, h := rq.u16 10 };
    (let c := ((s.stream (rq.u8 0)).cfgNext).getD (s.stream (rq.u8 0)).cfg; rq.u8 0 < 16 ∧ (st.shift ≤ 8 ∨ st.shift =
    0xFF) ∧ 32 ≤ st.w ∧ 32 ≤ st.h ∧ st.x + st.w ≤ c.width ∧ st.y + st.h ≤ c.height))) ∧
    (∃ (rq : Req) (s : State), served 0x0A04 rq s = true ∧ rq.u8 0 < 16) ∧
    (∃ (rq : Req) (s : State), served 0x0A80 rq s = true ∧ rq.u8 0 < 4 ∧ 40 ≤ rq.u16 2 ∧ rq.u16 2 ≤ 500 ∧ 95 ≤ rq.u16
    4 ∧ rq.u16 4 ≤ 500 ∧ rq.u8 6 ≤ 7) :=
  ⟨⟨req [3, 4, 196, 9, 1], live, by decide +kernel⟩,
   ⟨req ([15, 3, 15, 42, 1, 1, 232, 3, 32, 0, 32, 0, 64, 5] ++ List.replicate 19 0 ++ [4]), withDram live,
   by refine ⟨?_, ?_, ?_, ?_, ?_, ?_, ?_, ?_, ?_, fun j hj _ he => absurd he ((by decide +kernel : ∀ j,
     j < 16 → ¬ ((withDram live).stream j).cfg.enable = true) j hj)⟩ <;> decide +kernel⟩,
   ⟨req ([15, 3, 15, 42, 1, 0, 232, 3, 32, 0, 32, 0, 64, 5] ++ List.replicate 19 0 ++ [4]), withDram live, by
   decide +kernel⟩,
   ⟨req [15, 255, 0, 0, 0, 0, 0, 0, 32, 0, 32, 0], live.modStream 15 fun x =>
   { x with cfg := { width := 32, height := 32 } }, by decide +kernel⟩,
   ⟨req [15], live, by decide +kernel⟩,
   ⟨req [3, 0, 244, 1, 244, 1, 7], live, by decide +kernel⟩⟩

theorem witness_CameraFramesAreReceived :
    (∃ (port : Nat) (i : Nat) (di : Byte) (wc : BitVec 16) (ecc : Byte) (s : State), s.cam.streams.length = 16 ∧
    (let d := decodeHeader (packetHeader di wc ecc); d.ecc = .good ∧ d.dt = 0 ∧ streamsOf s port d.vc = [i] ∧
    (s.stream i).opened = none)) ∧
    (∃ (port : Nat) (s : State), (s.port port).enable = false) ∧
    (∃ (port : Nat) (i : Nat) (pkt : CamPacket) (f : Frame) (s : State), s.cam.streams.length = 16 ∧
    (let q := takenPacket pkt; streamsOf s port q.h.vc = [i] ∧ q.h.ecc = .good ∧ q.crcOk = true ∧ isImageDt q.h.dt =
    true ∧ (s.stream i).cfg.dt = q.h.dt ∧ (s.stream i).opened = some f ∧ f.cfg.path = 0 ∧ f.cfg.rawCopy = false ∧
    f.lines < f.cfg.height ∧ q.h.wc * 8 = f.cfg.width * dtBits f.cfg.dt)) ∧
    (∃ (port : Nat) (i : Nat) (pkt : CamPacket) (s : State), s.cam.streams.length = 16 ∧ (let q := takenPacket pkt;
    streamsOf s port q.h.vc = [i] ∧ q.h.ecc = .good ∧ isImageDt q.h.dt = true ∧ (s.stream i).cfg.dt = q.h.dt ∧
    (s.stream i).opened = none)) ∧
    (∃ (port : Nat) (i : Nat) (di : Byte) (wc : BitVec 16) (ecc : Byte) (f : Frame) (s : State), s.cam.streams.length
    = 16 ∧ (let d := decodeHeader (packetHeader di wc ecc); d.ecc = .good ∧ d.dt = 1 ∧ streamsOf s port d.vc = [i] ∧
    (s.stream i).opened = some f)) ∧
    (∃ (i : Nat) (f : Frame) (s : State), i < s.cam.streams.length ∧ (s.stream i).opened = some f) ∧
    (∃ (port : Nat) (s : State), (s.port port).enable = true) ∧
    (∃ (i : Nat) (f : Frame) (rest : List Frame) (s : State), s.cam.busy = none ∧ nextMemoryStream s = some i ∧
    (s.stream i).backlog = f :: rest) ∧
    (∃ (i : Nat) (f : Frame) (s : State), i < s.cam.streams.length ∧ s.cam.busy = some (i, f)) :=
  ⟨⟨3, 15, 192, 5, 245, (live.modPort 3 fun p => { p with enable := true }).modStream 15 fun x =>
   { x with cfg := { enable := true, port := 3, vc := 15 } }, by decide +kernel⟩,
   ⟨3, live, by decide +kernel⟩,
   ⟨3, 15, { header := 3321889258, payload := [7], crc := 31544 }, aFrame, (live.modPort 3 fun p =>
   { p with enable := true }).modStream 15 fun x =>
   { x with cfg := { enable := true, port := 3, vc := 15 }, opened := some aFrame }, by decide +kernel⟩,
   ⟨3, 15, { header := 3321889258, payload := [7], crc := 31544 }, (live.modPort 3 fun p =>
   { p with enable := true }).modStream 15 fun x => { x with cfg := { enable := true, port := 3, vc := 15 } }, by
   decide +kernel⟩,
   ⟨3, 15, 193, 5, 242, aFrame, (live.modPort 3 fun p => { p with enable := true }).modStream 15 fun x =>
   { x with cfg := { enable := true, port := 3, vc := 15 }, opened := some aFrame }, by decide +kernel⟩,
   ⟨15, aFrame, live.modStream 15 fun x => { x with opened := some aFrame }, by decide +kernel⟩,
   ⟨3, (live.modPort 3 fun p => { p with enable := true }), by decide +kernel⟩,
   ⟨15, aFrame, [], live.modStream 15 fun x => { x with backlog := [aFrame] }, by decide +kernel⟩,
   ⟨15, aFrame, { live with cam := { live.cam with busy := some (15, aFrame) } }, by decide +kernel⟩⟩

theorem witness_TilesAreFilled :
    (∃ (owner : TileOwner) (s : State), ownerFed s owner = true ∧ s.lag.waiting.length < 64 ∧ (lowestFree s).isSome =
    true ∧ s.lag.waiting.length < freeTiles s) ∧
    (∃ (owner : TileOwner) (s : State), ownerFed s owner = true ∧ lowestFree s = none) ∧
    (∃ (r : TileReq) (h : Nat) (s : State), earliestDue s.lag.waiting = some r ∧ lowestFree s = some h) ∧
    (∃ (h : Nat) (s : State), lowestFree s = some h) ∧
    (∃ (rs : List TileReq) (r : TileReq), earliestDue rs = some r) ∧
    (∃ (h : Nat) (s : State), h < s.nTiles ∧ (s.tile h).allocated = true ∧ (s.tile h).admitted = false ∧ (s.tile
    h).fill = none) ∧
    (∃ (h : Nat) (data : List Byte) (f : Fill) (s : State), cellsWf 0 s.lag.data = true ∧
    (let bs := (writerBytes s h f.next data.length).1.getD data; (s.tile h).fill = some f ∧ f.next + bs.length <
    16384)) ∧
    (∃ (h : Nat) (offset : Nat) (data : List Byte) (f : Fill) (s : State), (s.tile h).fill = some f ∧ offset ≠ f.next
    ∧ offset + ((writerBytes s h offset data.length).1.getD data).length < 16384) ∧
    (∃ (h : Nat) (s : State), (s.tile h).fill = none) ∧
    (∃ (h : Nat) (f : Fill) (s : State), (s.tile h).fill = some f) :=
  ⟨⟨.head 0, live, by decide +kernel⟩,
   ⟨.station 0, fullLagoon, by decide, fullLagoon_full⟩,
   ⟨{ due := 5, owner := .head 0 }, 0,
   { live with lag := { live.lag with waiting := [{ due := 6, owner := .head 1 }, { due := 5, owner := .head 0 }] } },
   by decide +kernel⟩,
   ⟨1, { live with lag := { live.lag with tiles := [{ handle := 0, allocated := true }] } }, by decide +kernel⟩,
   ⟨[{ due := 5, owner := .head 0 }], { due := 5, owner := .head 0 }, by decide +kernel⟩,
   ⟨4095, { live with lag := { live.lag with tiles := [{ handle := 4095, allocated := true }] } }, by decide +kernel⟩,
   ⟨4095, [1, 2, 3], { next := 16380, bad := false, done := [] },
   { live with lag := { live.lag with tiles := [{ handle := 4095, allocated := true, fill := some { next := 16380, bad := false, done := [] } }] } },
   by decide +kernel⟩,
   ⟨4095, 0, [1, 2, 3], { next := 16380, bad := false, done := [] },
   { live with lag := { live.lag with tiles := [{ handle := 4095, allocated := true, fill := some { next := 16380, bad := false, done := [] } }] } },
   by decide +kernel⟩,
   ⟨4095, live, by decide +kernel⟩,
   ⟨4095, { next := 16380, bad := false, done := [] },
   { live with lag := { live.lag with tiles := [{ handle := 4095, allocated := true, fill := some { next := 16380, bad := false, done := [] } }] } },
   by decide +kernel⟩⟩

theorem witness_LagoonIsReadAndScrubbed :
    (∃ (address : BitVec 32) (s : State), (∀ p ∈ s.lag.inject, p.1 ≠ address.toNat) ∧ address.toNat ∉ s.lag.bad) ∧
    (∃ (address : BitVec 32) (s : State), (∀ p ∈ s.lag.inject, p.1 ≠ address.toNat) ∧ address.toNat ∉ s.lag.bad) ∧
    (∃ (address : BitVec 32) (s : State), address.getLsbD 31 = false ∧ (∀ p ∈ s.lag.inject, p.1 ≠ address.toNat) ∧
    address.toNat ∉ s.lag.bad) ∧
    (∃ (s : State), (s.tile (lagHandle (scrubAddress s.lag.scrubbed))).fill.isSome = true) ∧
    (∃ (rq : Req) (s : State), served 0x0B01 rq s = true) ∧
    (∃ (rq : Req) (s : State), served 0x0B02 rq s = true ∧ rq.u8 0 ≤ 1) ∧
    (∃ (rq : Req) (s : State), served 0x0B03 rq s = true ∧ rq.u16 0 < s.nTiles ∧ (s.tile (rq.u16 0)).allocated =
    true) ∧
    (∃ (rq : Req) (s : State), served 0x0B80 rq s = true ∧ rq.u16 0 < s.nTiles ∧ rq.u64 4 < 2 ^ 48 ∧ (s.tile (rq.u16
    0)).allocated = true) ∧
    (∃ (c : Ctx) (h : Nat) (address : Nat) (rest : List (Ctx × Nat × Nat)) (s : State), s.lag.reads = (c, h, address)
    :: rest ∧ s.coreUp hostCore = true ∧
    (let r := lagReadTile h 3 true { s with lag := { s.lag with reads := rest } };
    (let u := (lagReadTile h 3 false (if r.1 then r.2 else tileFailed h r.2)).2; address + 16400 ≤ u.dram.cfg.usable
    ∧ address < 2 ^ 48))) ∧
    (∃ (rq : Req) (s : State), served 0x0B81 rq s = true ∧ lagHandle (rq.u32 0) < s.nTiles ∧ rq.u32 0 % 2 ^ 31 < 2 ^
    23 ∧ (2 ^ 31 ≤ rq.u32 0 → rq.u32 0 % 2048 < 2) ∧ (rq.u8 4 = 1 ∨ rq.u8 4 = 2) ∧ (s.tile (lagHandle (rq.u32
    0))).admitted = false) :=
  ⟨⟨8, live, by decide +kernel⟩,
   ⟨8, live, by decide +kernel⟩,
   ⟨8, live, by decide +kernel⟩,
   ⟨{ live with lag := { live.lag with scrubbed := 4095 * 2050, tiles := [{ handle := 4095, allocated := true, fill := some { next := 16380, bad := false, done := [] } }] } },
   by decide +kernel⟩,
   ⟨req [1], live, by decide +kernel⟩,
   ⟨req [1], live, by decide +kernel⟩,
   ⟨req [255, 15], { live with lag := { live.lag with tiles := [{ handle := 4095, allocated := true }] } }, by
   decide +kernel⟩,
   ⟨req [255, 15, 0, 0, 255, 255, 255, 255, 255, 255, 0, 0],
   { live with lag := { live.lag with tiles := [{ handle := 4095, allocated := true }] } }, by decide +kernel⟩,
   ⟨aCtx, 4095, 0, [], { (withDram live) with lag := { live.lag with reads := [(aCtx, 4095, 0)] } }, by
   decide +kernel⟩,
   ⟨req [1, 248, 127, 128, 2], live, by decide +kernel⟩⟩

theorem witness_CellsKeepWhatIsWritten :
    (∃ (dflt : Byte) (m : List Host.Cell), cellsWf dflt m = true) ∧
    (∃ (dflt : Byte) (m : List Host.Cell), cellsWf dflt m = true) ∧
    (∃ (dflt : Byte) (m : List Host.Cell) (m' : List Host.Cell), cellsWf dflt m = true ∧ cellsWf dflt m' = true ∧ (∀
    x, cellGet dflt m x = cellGet dflt m' x)) :=
  ⟨⟨0, [(2, 1), (7, 3)], by decide +kernel⟩,
   ⟨0, [(2, 1), (7, 3)], by decide +kernel⟩,
   ⟨0, [(2, 1)], [(2, 1)], by exact ⟨by decide, by decide, fun _ => rfl⟩⟩⟩

theorem witness_DramReturnsWhatWasWritten :
    (∃ (c : DramCfg) (a : Nat) (b : Nat), c.ok = true ∧ c.decode a = c.decode b) ∧
    (∃ (s : State), cellsWf 0 s.dram.mem = true ∧ (s.dram.merge.map (·.block)).Nodup ∧ (∀ e ∈ s.dram.merge,
    e.bytes.length = 64) ∧ s.dram.queues.flatten = []) ∧
    (∃ (s : State), cellsWf 0 s.dram.mem = true ∧ (s.dram.merge.map (·.block)).Nodup ∧ (∀ e ∈ s.dram.merge,
    e.bytes.length = 64)) ∧
    (∃ (channel : Nat) (r : DramReq) (bs : List Byte) (s : State), s.dram.queues.length = 4 ∧ cellsWf 0 s.dram.mem =
    true ∧ (s.dram.merge.map (·.block)).Nodup ∧ (∀ e ∈ s.dram.merge, e.bytes.length = 64) ∧ channel <
    s.dram.cfg.nChannels ∧ at' s.dram.queues channel [] = [] ∧ s.dram.throttled = [] ∧ (s.dram.cfg.decode
    r.addr).channel = channel ∧ r.data = some bs ∧ r.addr < s.dram.cfg.usable ∧ r.addr + bs.length ≤
    s.dram.cfg.usable ∧ s.dram.stopped = false) ∧
    (∃ (channel : Nat) (r : DramReq) (s : State), s.dram.queues.length = 4 ∧ cellsWf 0 s.dram.mem = true ∧
    (s.dram.merge.map (·.block)).Nodup ∧ (∀ e ∈ s.dram.merge, e.bytes.length = 64) ∧ channel < s.dram.cfg.nChannels ∧
    at' s.dram.queues channel [] = [] ∧ s.dram.throttled = [] ∧ s.dram.errs = [] ∧ s.dram.poison = [] ∧
    (s.dram.cfg.decode r.addr).channel = channel ∧ r.data = none ∧ r.upset = 0 ∧ r.addr < s.dram.cfg.usable ∧ r.addr
    + r.len ≤ s.dram.cfg.usable ∧ s.dram.stopped = false) :=
  ⟨⟨{ channels := 15, ranks := 2, density := 16 }, 77, 77, by decide +kernel⟩,
   ⟨withDram live, by decide +kernel⟩,
   ⟨withDram live, by decide +kernel⟩,
   ⟨3, { addr := 15032385533, len := 0, requester := 0, data := some [1, 2, 3], upset := 0 }, [1, 2, 3], withDram
   live, by decide +kernel⟩,
   ⟨3, { addr := 15032385472, len := 64, requester := 0, data := none, upset := 0 }, withDram live, by
   decide +kernel⟩⟩

theorem witness_DramIsKept :
    (∃ (s : State), s.dram.stopped = false) ∧
    (∃ (s : State), s.dram.stopped = true) ∧
    (∃ (s : State), s.dram.errs = [] ∧ s.dram.poison = [] ∧ s.dram.cfg.usable ≠ 0 ∧ s.dram.stopped = false) ∧
    (∃ (core : Nat) (s : State), core ≤ 8 ∧ s.held.getLsbD core = false) ∧
    (∃ (w : Nat) (s : State), s.dram.wrong w 0 = 1 ∧ newerWrite s w = false) ∧
    (∃ (w : Nat) (s : State), s.dram.wrong w 0 = 1 ∧ newerWrite s w = true) ∧
    (∃ (w : Nat) (upset : Nat) (s : State), 2 ≤ s.dram.wrong w upset) ∧
    (∃ (rq : Req) (s : State), served 0x0B04 rq s = true) ∧
    (∃ (rq : Req) (s : State), served 0x0B05 rq s = true ∧ rq.u8 0 ≤ 1) ∧
    (∃ (rq : Req) (s : State), served 0x0B07 rq s = true ∧ 1 ≤ rq.u16 0 ∧ rq.u16 0 ≤ 168) ∧
    (∃ (rq : Req) (s : State), served 0x0B82 rq s = true ∧ rq.u64 0 < 2 ^ 48 ∧ rq.u64 0 % 8 = 0 ∧ (rq.u8 8 = 1 ∨
    rq.u8 8 = 2) ∧ rq.u64 0 < s.dram.cfg.usable) :=
  ⟨⟨withDram live, by decide +kernel⟩,
   ⟨{ live with dram := { live.dram with stopped := true } }, by decide +kernel⟩,
   ⟨withDram live, by decide +kernel⟩,
   ⟨8, live, by decide +kernel⟩,
   ⟨8, { live with dram := { live.dram with errs := [(8, 1)] } }, by decide +kernel⟩,
   ⟨8, { live with dram := { live.dram with errs := [(8, 1)], merge := [⟨0, 0xFF00, List.replicate 64 0, 8, 0⟩] } },
   by decide +kernel⟩,
   ⟨8, 2, live, by decide +kernel⟩,
   ⟨req [], live, by decide +kernel⟩,
   ⟨req [1], live, by decide +kernel⟩,
   ⟨req [168, 0], live, by decide +kernel⟩,
   ⟨req [248, 255, 255, 127, 3, 0, 0, 0, 2], withDram live, by decide +kernel⟩⟩

theorem witness_DmaChannelsRun :
    (∃ (rq : Req) (s : State), served 0x0C01 rq s = true ∧ (let c := rq.u8 0; c < 28 ∧ rq.u8 1 = 1 ∧ 1 ≤ rq.u8 2 ∧
    rq.u8 2 ≤ 64 ∧ 2 ≤ rq.u32 4 ∧ rq.u32 4 ≤ 65536 ∧ rq.u64 8 < 2 ^ 49 ∧ rq.u64 8 % 32 = 0 ∧ 1 ≤ rq.u16 16 ∧ rq.u16
    16 ≤ 1000 ∧ fenced s 0x0181 c = false ∧ grantSum s c (4 * rq.u8 2) ≤ 256)) ∧
    (∃ (rq : Req) (s : State), served 0x0C02 rq s = true ∧ s.dma.channels.length = 32 ∧ rq.u32 0 < 2 ^ 28) ∧
    (∃ (rq : Req) (s : State), served 0x0C03 rq s = true ∧ rq.u8 0 < 32) ∧
    (∃ (rq : Req) (s : State), served 0x0C04 rq s = true ∧ 1 ≤ rq.u8 0 ∧ rq.u8 0 ≤ 15 ∧ (rq.u64 8 = 2 ^ 64 - 1 ∨
    (rq.u64 8 < 2 ^ 48 ∧ rq.u64 8 % 65536 = 0))) ∧
    (∃ (rq : Req) (s : State), served 0x0C80 rq s = true ∧ rq.u8 0 < 28 ∧ 1 ≤ rq.u16 2 ∧ rq.u16 2 ≤ 256 ∧ ((s.channel
    (rq.u8 0)).st = 0 ∨ grantSum s (rq.u8 0) (rq.u16 2) ≤ 256)) ∧
    (∃ (c : Nat) (a : Nat) (b : List Byte) (s : State), c < s.dma.channels.length ∧ ((s.channel c).st = 1 ∨
    (s.channel c).st = 2) ∧ (s.channel c).cur = none ∧ s.place ((s.channel c).entry (s.channel c).index) = .host a ∧
    b.length = 32 ∧ a + 32 ≤ 2 ^ 48 ∧ channelWaits s c = false ∧ leAt b 21 1 ≠ 1) ∧
    (∃ (c : Nat) (a : Nat) (b : List Byte) (s : State), c < s.dma.channels.length ∧ ((s.channel c).st = 1 ∨
    (s.channel c).st = 2) ∧ (s.channel c).cur = none ∧ s.place ((s.channel c).entry (s.channel c).index) = .host a ∧
    b.length = 32 ∧ a + 32 ≤ 2 ^ 48 ∧ channelWaits s c = false ∧ leAt b 21 1 = 1 ∧ leAt b 16 4 ≠ 0 ∧ leAt b 20 1 < 8) ∧
    (∃ (c : Nat) (a : Nat) (s : State), c < s.dma.channels.length ∧ ((s.channel c).st = 1 ∨ (s.channel c).st = 2) ∧
    (s.channel c).cur = none ∧ s.place ((s.channel c).entry (s.channel c).index) = .host a ∧ channelWaits s c =
    false) ∧
    (∃ (c : Nat) (e : Nat) (x : Nat) (y : Nat) (d : Desc) (data : List Byte) (s : State), c < s.dma.channels.length ∧
    (s.channel c).cur = some d ∧ (s.channel c).entry (s.channel c).index = 2 ^ 48 + e ∧ e + 32 ≤ 2 ^ 48 ∧ d.src = 2 ^
    48 + x ∧ x + d.length ≤ 2 ^ 48 ∧ d.dst = 2 ^ 48 + y ∧ y + d.length ≤ 2 ^ 48 ∧ d.moved = 0 ∧ d.crc = 0xFFFFFFFF ∧
    channelWaits s c = false ∧ d.length ≠ 0 ∧ d.halfDue = false ∧ data.length = d.length) ∧
    (∃ (c : Nat) (e : Nat) (x : Nat) (y : Nat) (d : Desc) (data : List Byte) (s : State), c < s.dma.channels.length ∧
    (s.channel c).cur = some d ∧ (s.channel c).entry (s.channel c).index = 2 ^ 48 + e ∧ e + 32 ≤ 2 ^ 48 ∧ d.src = 2 ^
    48 + x ∧ x + d.length ≤ 2 ^ 48 ∧ d.dst = 2 ^ 48 + y ∧ y + d.length ≤ 2 ^ 48 ∧ d.moved = 0 ∧ d.crc = 0xFFFFFFFF ∧
    channelWaits s c = false ∧ 2 ≤ d.length ∧ d.halfDue = true ∧ data.length = d.length) ∧
    (∃ (c : Nat) (e : Nat) (x : Nat) (y : Nat) (d : Desc) (data : List Byte) (s : State), c < s.dma.channels.length ∧
    (s.channel c).cur = some d ∧ (s.channel c).entry (s.channel c).index = 2 ^ 48 + e ∧ e + 32 ≤ 2 ^ 48 ∧ d.src = 2 ^
    48 + x ∧ x + d.length ≤ 2 ^ 48 ∧ d.dst = 2 ^ 48 + y ∧ y + d.length ≤ 2 ^ 48 ∧ d.moved = 0 ∧ d.crc = 0xFFFFFFFF ∧
    channelWaits s c = false ∧ 2 ≤ d.length ∧ d.halfDue = true ∧ data.length = d.length / 2) ∧
    (∃ (c : Nat) (e : Nat) (x : Nat) (y : Nat) (d : Desc) (s : State), c < s.dma.channels.length ∧ (s.channel c).cur
    = some d ∧ (s.channel c).entry (s.channel c).index = 2 ^ 48 + e ∧ e + 32 ≤ 2 ^ 48 ∧ d.src = 2 ^ 48 + x ∧ x +
    d.length ≤ 2 ^ 48 ∧ d.dst = 2 ^ 48 + y ∧ y + d.length ≤ 2 ^ 48 ∧ d.moved = 0 ∧ d.crc = 0xFFFFFFFF ∧ channelWaits
    s c = false ∧ (∃ onWrite offset, (onWrite = false ∨ offset < d.length))) ∧
    (∃ (c : Nat) (e : Nat) (x : Nat) (y : Nat) (d : Desc) (s : State), c < s.dma.channels.length ∧ (s.channel c).cur
    = some d ∧ (s.channel c).entry (s.channel c).index = 2 ^ 48 + e ∧ e + 32 ≤ 2 ^ 48 ∧ d.src = 2 ^ 48 + x ∧ x +
    d.length ≤ 2 ^ 48 ∧ d.dst = 2 ^ 48 + y ∧ y + d.length ≤ 2 ^ 48 ∧ d.moved = 0 ∧ d.crc = 0xFFFFFFFF ∧ channelWaits
    s c = false ∧ (∃ offset, d.length ≤ offset)) ∧
    (∃ (c : Nat) (s : State), channelWaits s c = true) ∧
    (∃ (c : Nat) (s : State), (s.channel c).cur = none) ∧
    (∃ (c : Nat) (d : Desc) (s : State), (s.channel c).cur = some d ∧ d.halfDue = false) :=
  ⟨⟨req [27, 1, 24, 0, 0, 0, 1, 0, 224, 255, 255, 255, 255, 255, 1, 0, 232, 3], live, by decide +kernel⟩,
   ⟨req [255, 255, 255, 15, 1], live, by decide +kernel⟩,
   ⟨req [31], live, by decide +kernel⟩,
   ⟨req ([15] ++ List.replicate 9 0 ++ [255, 255, 255, 255, 0, 0]), live, by decide +kernel⟩,
   ⟨req [27, 0, 96, 0], live.modChannel 27 fun c => { c with st := 1 }, by decide +kernel⟩,
   ⟨27, 2 ^ 48 - 32, List.replicate 32 0, live.modChannel 27 fun c =>
   { c with st := 1, ring := 2 ^ 49 - 32, ringSize := 2 }, by decide +kernel⟩,
   ⟨27, 2 ^ 48 - 32, List.replicate 16 0 ++ [1, 0, 0, 0, 7, 1, 0, 0] ++ List.replicate 8 0, live.modChannel 27 fun c
   => { c with st := 2, ring := 2 ^ 49 - 32, ringSize := 2 }, by decide +kernel⟩,
   ⟨27, 2 ^ 48 - 32, live.modChannel 27 fun c => { c with st := 2, ring := 2 ^ 49 - 32, ringSize := 2 }, by
   decide +kernel⟩,
   ⟨27, 2 ^ 48 - 32, 0, 2 ^ 48 - 2,
   { src := 2 ^ 48, dst := 2 ^ 49 - 2, length := 2, half := false, done := true, cont := false, moved := 0, crc := 0xFFFFFFFF, status := 1 },
   [1, 2], live.modChannel 27 fun c =>
   { c with st := 1, ring := 2 ^ 49 - 32, ringSize := 2, cur := some { src := 2 ^ 48, dst := 2 ^ 49 - 2, length := 2, half := false, done := true, cont := false, moved := 0, crc := 0xFFFFFFFF, status := 1 } },
   by decide +kernel⟩,
   ⟨27, 2 ^ 48 - 32, 0, 2 ^ 48 - 2,
   { src := 2 ^ 48, dst := 2 ^ 49 - 2, length := 2, half := true, done := true, cont := false, moved := 0, crc := 0xFFFFFFFF, status := 1 },
   [1, 2], live.modChannel 27 fun c =>
   { c with st := 1, ring := 2 ^ 49 - 32, ringSize := 2, cur := some { src := 2 ^ 48, dst := 2 ^ 49 - 2, length := 2, half := true, done := true, cont := false, moved := 0, crc := 0xFFFFFFFF, status := 1 } },
   by decide +kernel⟩,
   ⟨27, 2 ^ 48 - 32, 0, 2 ^ 48 - 2,
   { src := 2 ^ 48, dst := 2 ^ 49 - 2, length := 2, half := true, done := true, cont := false, moved := 0, crc := 0xFFFFFFFF, status := 1 },
   [1], live.modChannel 27 fun c =>
   { c with st := 1, ring := 2 ^ 49 - 32, ringSize := 2, cur := some { src := 2 ^ 48, dst := 2 ^ 49 - 2, length := 2, half := true, done := true, cont := false, moved := 0, crc := 0xFFFFFFFF, status := 1 } },
   by decide +kernel⟩,
   ⟨27, 2 ^ 48 - 32, 0, 2 ^ 48 - 2,
   { src := 2 ^ 48, dst := 2 ^ 49 - 2, length := 2, half := false, done := true, cont := false, moved := 0, crc := 0xFFFFFFFF, status := 1 },
   live.modChannel 27 fun c =>
   { c with st := 1, ring := 2 ^ 49 - 32, ringSize := 2, cur := some { src := 2 ^ 48, dst := 2 ^ 49 - 2, length := 2, half := false, done := true, cont := false, moved := 0, crc := 0xFFFFFFFF, status := 1 } },
   by refine ⟨?_, ?_, ?_, ?_, ?_, ?_, ?_, ?_, ?_, ?_, ?_, false, 1, ?_⟩ <;> decide +kernel⟩,
   ⟨27, 2 ^ 48 - 32, 0, 2 ^ 48 - 2,
   { src := 2 ^ 48, dst := 2 ^ 49 - 2, length := 2, half := false, done := true, cont := false, moved := 0, crc := 0xFFFFFFFF, status := 1 },
   live.modChannel 27 fun c =>
   { c with st := 1, ring := 2 ^ 49 - 32, ringSize := 2, cur := some { src := 2 ^ 48, dst := 2 ^ 49 - 2, length := 2, half := false, done := true, cont := false, moved := 0, crc := 0xFFFFFFFF, status := 1 } },
   by refine ⟨?_, ?_, ?_, ?_, ?_, ?_, ?_, ?_, ?_, ?_, ?_, 2, ?_⟩ <;> decide +kernel⟩,
   ⟨27, { (withDram live) with dram := { (withDram live).dram with stopped := true } }, by decide +kernel⟩,
   ⟨31, live, by decide +kernel⟩,
   ⟨27,
   { src := 2 ^ 48, dst := 2 ^ 49 - 2, length := 2, half := false, done := true, cont := false, moved := 0, crc := 0xFFFFFFFF, status := 1 },
   live.modChannel 27 fun c =>
   { c with st := 1, ring := 2 ^ 49 - 32, ringSize := 2, cur := some { src := 2 ^ 48, dst := 2 ^ 49 - 2, length := 2, half := false, done := true, cont := false, moved := 0, crc := 0xFFFFFFFF, status := 1 } },
   by decide +kernel⟩⟩

theorem witness_HostReachesDramThroughBar2 :
    (∃ (w : Nat) (base : Nat) (o : Nat) (bs : List Byte) (s : State), 1 ≤ w ∧ w ≤ 15 ∧ at' s.dma.windows (w - 1) none
    = some base ∧ o + bs.length ≤ 2 ^ 24 ∧ base + o + bs.length ≤ s.dram.cfg.usable ∧ o < 2 ^ 24 ∧ base + o <
    s.dram.cfg.usable ∧ s.dram.stopped = false ∧ s.dram.queues.flatten = [] ∧ cellsWf 0 s.dram.mem = true ∧
    (s.dram.merge.map (·.block)).Nodup ∧ (∀ e ∈ s.dram.merge, e.bytes.length = 64)) ∧
    (∃ (w : Nat) (base : Nat) (o : Nat) (n : Nat) (s : State), 1 ≤ w ∧ w ≤ 15 ∧ at' s.dma.windows (w - 1) none = some
    base ∧ o + n ≤ 2 ^ 24 ∧ base + o + n ≤ s.dram.cfg.usable ∧ o < 2 ^ 24 ∧ base + o < s.dram.cfg.usable ∧
    s.dram.errs = [] ∧ s.dram.poison = [] ∧ s.dram.stopped = false ∧ s.dram.queues.flatten = [] ∧ cellsWf 0
    s.dram.mem = true ∧ (s.dram.merge.map (·.block)).Nodup ∧ (∀ e ∈ s.dram.merge, e.bytes.length = 64)) ∧
    (∃ (w : Nat) (base : Nat) (o : Nat) (n : Nat) (bs : List Byte) (s : State), 1 ≤ w ∧ w ≤ 15 ∧ at' s.dma.windows (w
    - 1) none = some base ∧ o < 2 ^ 24 ∧ s.dram.cfg.usable ≤ base + o ∧ 1 ≤ n ∧ bs ≠ []) ∧
    (∃ (w : Nat) (o : Nat) (s : State), 1 ≤ w ∧ w ≤ 15 ∧ o < 2 ^ 24 ∧ at' s.dma.windows (w - 1) none = none) ∧
    (∃ (offset : Nat), offset < 0x100000) ∧
    (∃ o, 8 ≤ o ∧ o < 0x800) :=
  ⟨⟨15, 15015608320, 2 ^ 24 - 1, [7],
   { (withDram live) with dma := { live.dma with windows := List.replicate 14 none ++ [some 15015608320] } }, by
   decide +kernel⟩,
   ⟨15, 15015608320, 2 ^ 24 - 1, 1,
   { (withDram live) with dma := { live.dma with windows := List.replicate 14 none ++ [some 15015608320] } }, by
   decide +kernel⟩,
   ⟨15, 15032385536, 0, 1, [7],
   { (withDram live) with dma := { live.dma with windows := List.replicate 14 none ++ [some 15032385536] } }, by
   decide +kernel⟩,
   ⟨15, 2 ^ 24 - 1, live, by decide +kernel⟩,
   ⟨0xFFFFF, by decide +kernel⟩,
   ⟨0x7FF, by decide +kernel⟩⟩

theorem witness_CompressionJobsRun :
    (∃ (rq : Req) (s : State), served 0x0D01 rq s = true ∧ (∀ e, e < 4 → 1 ≤ rq.u8 (4 + e) ∧ rq.u8 (4 + e) ≤ 64) ∧
    (let shares := (List.range 4).map fun e => rq.u8 (4 + e); (s.dma.channels.map fun ch => if ch.st = 0 then 0 else
    max ch.grants (ch.grantsNext.getD 0)).sum + 4 * (mapIx (fun e (d : Deflate) => d.shareHeld (at' shares e 8))
    s.dma.engines).sum + 32 ≤ 256)) ∧
    (∃ (rq : Req) (s : State), served 0x0D02 rq s = true ∧ rq.u8 28 ≤ 1 ∧ rq.u32 16 ≠ 0 ∧ (rq.u8 28 = 0 → rq.u32 20 ≠
    0) ∧ (rq.u8 28 = 1 → 1 ≤ rq.u8 29 ∧ rq.u8 29 ≤ 9) ∧ rq.u64 0 < 3 * 2 ^ 48 ∧ rq.u64 8 < 3 * 2 ^ 48 ∧
    s.dma.queue.length < 32) ∧
    (∃ (rq : Req) (s : State), served 0x0D02 rq s = true ∧ rq.u8 28 ≤ 1 ∧ rq.u32 16 ≠ 0 ∧ (rq.u8 28 = 0 → rq.u32 20 ≠
    0) ∧ (rq.u8 28 = 1 → 1 ≤ rq.u8 29 ∧ rq.u8 29 ≤ 9) ∧ rq.u64 0 < 3 * 2 ^ 48 ∧ rq.u64 8 < 3 * 2 ^ 48 ∧ 32 ≤
    s.dma.queue.length) ∧
    (∃ (rq : Req) (j : CJob) (s : State), served 0x0D03 rq s = true ∧ BitVec.ofNat 64 (rq.u64 0) < s.dma.nextJob ∧
    (s.dma.queue.find? fun k => k.job = BitVec.ofNat 64 (rq.u64 0)) = some j) ∧
    (∃ (rq : Req) (s : State), served 0x0D04 rq s = true ∧ rq.u8 0 < 4) ∧
    (∃ (rq : Req) (s : State), served 0x0D80 rq s = true ∧ rq.u16 0 ≤ 4096) ∧
    (∃ (e : Nat) (j : FwJob) (front : List FwJob) (rest : List FwJob) (s : State), e < 4 ∧ s.dma.engines.length = 4 ∧
    (s.deflate e).cur = none ∧ s.dma.fwQueue = front ++ j :: rest ∧ (∀ k ∈ front, k.stalls s = true) ∧ j.stalls s =
    false) ∧
    (∃ (e : Nat) (j : CJob) (rest : List CJob) (s : State), e < 4 ∧ s.dma.engines.length = 4 ∧ (s.deflate e).cur =
    none ∧ (∀ k ∈ s.dma.fwQueue, k.stalls s = true) ∧ s.dma.queue = j :: rest ∧ s.dma.hostEngines.getLsbD e = true) ∧
    (∃ (e : Nat) (s : State), (s.deflate e).cur = none) ∧
    (∃ (e : Nat) (j : FwJob) (s : State), (s.deflate e).cur = some (.fw j) ∧ j.stalls s = true) ∧
    (∃ (e : Nat) (y : Nat) (j : CJob) (host : List Byte) (s : State), e < s.dma.engines.length ∧ (s.deflate e).cur =
    some (.host j) ∧ (s.deflate e).aborted = false ∧ (let got := fetchFrom (48 + e) j.src j.srcLen host s;
    (let r := j.outcome s got.1; r.result = 0 ∧ s.place j.dst = .host y ∧ r.output ≠ [] ∧ y + r.output.length ≤ 2 ^
    48 ∧ dramWaits s j.src = false))) ∧
    (∃ (s : State) (j : CJob) (input : List Byte), (j.outcome s input).result = 0) :=
  ⟨⟨req [0, 0, 0, 0, 14, 14, 14, 14], live, by decide +kernel⟩,
   ⟨req ([255, 255, 255, 255, 255, 255, 2, 0, 255, 255, 255, 255, 255, 255, 2, 0, 1, 0, 0, 0, 1] ++ List.replicate 8
   0), live, by decide +kernel⟩,
   ⟨req (List.replicate 16 0 ++ [1] ++ List.replicate 11 0 ++ [1, 9]),
   { live with dma := { live.dma with queue := List.replicate 32 { job := 3, ctx := aCtx, src := 2 ^ 48, dst := 2 ^ 48, srcLen := 2, dstLimit := 0, origCrc := 0, compress := true, level := 9, chain := 1, tag := 0 } } },
   by decide +kernel⟩,
   ⟨req [3, 0, 0, 0, 0, 0, 0, 0],
   { job := 3, ctx := aCtx, src := 2 ^ 48, dst := 2 ^ 48, srcLen := 2, dstLimit := 0, origCrc := 0, compress := true, level := 9, chain := 1, tag := 0 },
   { live with dma := { live.dma with queue := [{ job := 3, ctx := aCtx, src := 2 ^ 48, dst := 2 ^ 48, srcLen := 2, dstLimit := 0, origCrc := 0, compress := true, level := 9, chain := 1, tag := 0 }], nextJob := 4 } },
   by decide +kernel⟩,
   ⟨req [3], live, by decide +kernel⟩,
   ⟨req [0, 16], live, by decide +kernel⟩,
   ⟨3,
   { station := 0, page := 1, src := 0, srcLen := 1, origCrc := 0, row := 0, firstCol := 0, ncol := 1, again := none, old := 0 },
   [], [],
   { live with dma := { live.dma with fwQueue := [{ station := 0, page := 1, src := 0, srcLen := 1, origCrc := 0, row := 0, firstCol := 0, ncol := 1, again := none, old := 0 }] } },
   by decide +kernel⟩,
   ⟨3,
   { job := 3, ctx := aCtx, src := 2 ^ 48, dst := 2 ^ 48, srcLen := 2, dstLimit := 0, origCrc := 0, compress := true, level := 9, chain := 1, tag := 0 },
   [],
   { live with dma := { live.dma with queue := [{ job := 3, ctx := aCtx, src := 2 ^ 48, dst := 2 ^ 48, srcLen := 2, dstLimit := 0, origCrc := 0, compress := true, level := 9, chain := 1, tag := 0 }] } },
   by decide +kernel⟩,
   ⟨3, live, by decide +kernel⟩,
   ⟨3,
   { station := 0, page := 7, src := 0, srcLen := 1, origCrc := 0, row := 0, firstCol := 0, ncol := 1, again := none, old := 0 },
   (press.modStation 0 fun x => { x with jobs := [aJob] }).modEngine 3 fun e =>
   { e with cur := some (.fw { station := 0, page := 7, src := 0, srcLen := 1, origCrc := 0, row := 0, firstCol := 0, ncol := 1, again := none, old := 0 }) },
   by decide +kernel⟩,
   ⟨3, 0,
   { job := 3, ctx := aCtx, src := 2 ^ 48, dst := 2 ^ 48, srcLen := 3, dstLimit := 1, origCrc := 3251651376, compress := false, level := 9, chain := 1, tag := 0 },
   [0x4B, 0x04, 0x00], live.modEngine 3 fun e =>
   { e with cur := some (.host { job := 3, ctx := aCtx, src := 2 ^ 48, dst := 2 ^ 48, srcLen := 3, dstLimit := 1, origCrc := 3251651376, compress := false, level := 9, chain := 1, tag := 0 }) },
   by decide +kernel⟩,
   ⟨live,
   { job := 3, ctx := aCtx, src := 2 ^ 48, dst := 2 ^ 48, srcLen := 3, dstLimit := 1, origCrc := 3251651376, compress := false, level := 9, chain := 1, tag := 0 },
   [0x4B, 0x04, 0x00], by decide +kernel⟩⟩

theorem witness_MotorsAreCommanded :
    (∃ (rq : Req) (s : State), served 0x0E01 rq s = true ∧ (let m := rq.u8 0; m < 8 ∧ 1 ≤ rq.u8 1 ∧ rq.u8 1 ≤ 8 ∧
    rq.u8 2 ≤ 2 ∧ (rq.u8 2 = 2 → 4 ≤ m) ∧ 100 ≤ rq.u16 4 ∧ rq.u16 4 ≤ 60000 ∧ rq.u16 6 ≤ rq.u16 4 ∧ 20 ≤ rq.u8 10 ∧
    rq.u8 10 ≤ 100 ∧ rq.u8 13 ≤ 2 ∧ 10 ≤ rq.u16 14 ∧ rq.u16 14 ≤ 5000 ∧ 50 ≤ rq.u16 16 ∧ rq.u16 16 ≤ 30000 ∧ rq.u16
    18 ≤ rq.u16 4 ∧ 100 ≤ rq.u16 20 ∧ rq.u16 20 ≤ 60000 ∧ 1 ≤ rq.u16 22 ∧ ((s.motor m).st = .stopped ∨ (s.motor m).st
    = .failed) ∧ (rq.u8 2 = 1 → (loopsBoundTo s 4 m).length ≤ 1))) ∧
    (∃ (rq : Req) (s : State), served 0x0E02 rq s = true ∧ rq.u8 0 < 2 ∧ BitVec.ofNat 8 (rq.u8 1) &&& (s.bus (1 -
    rq.u8 0)).motors = 0 ∧ rq.u16 6 < rq.u16 4 ∧ rq.u16 4 < rq.u16 8 ∧ rq.u16 8 < rq.u16 10 ∧ ((s.bus (rq.u8
    0)).latched = false ∨ ∀ f ∈ [0x01C2, 0x01C3, 0x01C4], unackedSource s f = false)) ∧
    (∃ (rq : Req) (s : State), served 0x0E03 rq s = true ∧ s.bldc.motors.length = 8 ∧ rq.u8 0 < 8 ∧ (s.motor (rq.u8
    0)).starting = false ∧ (s.motor (rq.u8 0)).st ≠ .run ∧ (s.motor (rq.u8 0)).st ≠ .busBrake ∧ (busOf s (rq.u8
    0)).latched = false ∧ fenced s 0x01C6 (rq.u8 0) = false ∧ s.coreUp motorCore = true ∧ s.flt.fatal = none) ∧
    (∃ (rq : Req) (s : State), served 0x0E04 rq s = true ∧ rq.u8 0 < 8 ∧ rq.u16 2 ≤ (s.motor (rq.u8 0)).maxRpm ∧
    (s.motor (rq.u8 0)).source = 0 ∧ fenced s 0x01C6 (rq.u8 0) = false) ∧
    (∃ (m : Nat) (rpm : Nat) (s : State), m < s.bldc.motors.length ∧ (let x := s.motor m; (x.auto = false ∨ x.st ≠
    .stopped ∨ x.minRpm < x.command ∨ rpm ≤ x.minRpm))) ∧
    (∃ (m : Nat) (rpm : Nat) (s : State), m < s.bldc.motors.length ∧ (let x := s.motor m; x.auto = true ∧ x.st =
    .stopped ∧ x.command ≤ x.minRpm ∧ x.minRpm < rpm ∧ (busOf s m).latched = false ∧ fenced s 0x01C6 m = false ∧
    s.coreUp motorCore = true ∧ s.flt.fatal = none)) ∧
    (∃ (rq : Req) (s : State), served 0x0E05 rq s = true ∧ rq.u8 1 ≤ 1) ∧
    (∃ (m : Nat) (s : State), m < s.bldc.motors.length ∧ ((s.motor m).starting = true ∨ (s.motor m).st = .run)) ∧
    (∃ (m : Nat) (s : State), m < s.bldc.motors.length ∧ (s.motor m).st = .run) ∧
    (∃ (m : Nat) (s : State), m < s.bldc.motors.length ∧ (s.motor m).starting = false ∧ (s.motor m).st ≠ .run) ∧
    (∃ (rq : Req) (s : State), served 0x0E06 rq s = true ∧ rq.u8 0 < 8) ∧
    (∃ (rq : Req) (s : State), served 0x0E80 rq s = true ∧ rq.u8 0 < 8 ∧ 1 ≤ rq.u8 1 ∧ rq.u8 1 ≤ 8 ∧ rq.u8 2 ≤ 30 ∧ 1
    ≤ rq.u8 3 ∧ rq.u8 3 ≤ 32 ∧ 50 ≤ rq.u16 4 ∧ rq.u16 4 ≤ 5000 ∧ 20 ≤ rq.u16 6 ∧ rq.u16 6 ≤ 2000) ∧
    (∃ (m : Nat), 4 ≤ m) ∧
    (∃ (m : Nat) (s : State), 4 ≤ m ∧ m < s.bldc.motors.length ∧ (s.motor m).pinLost = false ∧ (s.motor m).pinMode ≠
    2 ∧ ((s.motor m).pinMode = 0 → (s.motor m).pinBadAt ≠ none)) ∧
    (∃ (m : Nat) (s : State), 4 ≤ m ∧ m < s.bldc.motors.length ∧ (s.motor m).pinLost = false ∧ (s.motor m).pinMode =
    2) ∧
    (∃ (m : Nat) (s : State), m < s.bldc.motors.length ∧ (s.motor m).pinLost = true ∧ (s.motor m).pinOkAt.isSome =
    true) ∧
    (∃ (m : Nat), m < 4) :=
  ⟨⟨req [7, 8, 2, 0, 96, 234, 96, 234, 0, 0, 100, 0, 0, 2, 136, 19, 48, 117, 96, 234, 96, 234, 1, 0], live.modMotor 7
   fun x => { x with st := .failed }, by decide +kernel⟩,
   ⟨req [1, 240, 0, 0, 2, 0, 1, 0, 3, 0, 4, 0], live.modBus 1 fun x => { x with latched := true }, by decide +kernel⟩,
   ⟨req [7], live, by decide +kernel⟩,
   ⟨req [7, 0, 100, 0], live, by decide +kernel⟩,
   ⟨7, 0, live.modMotor 7 fun x => { x with auto := true }, by decide +kernel⟩,
   ⟨7, 1, live.modMotor 7 fun x => { x with auto := true }, by decide +kernel⟩,
   ⟨req [7, 1], live, by decide +kernel⟩,
   ⟨7, live.modMotor 7 fun x => { x with st := .run }, by decide +kernel⟩,
   ⟨7, live.modMotor 7 fun x => { x with st := .run }, by decide +kernel⟩,
   ⟨7, live.modMotor 7 fun x => { x with st := .coast }, by decide +kernel⟩,
   ⟨req [7], live, by decide +kernel⟩,
   ⟨req [7, 8, 30, 32, 136, 19, 208, 7], live, by decide +kernel⟩,
   ⟨4, by decide +kernel⟩,
   ⟨4, live.modMotor 4 fun x => { x with pinBadAt := some 1 }, by decide +kernel⟩,
   ⟨4, live.modMotor 4 fun x => { x with pinMode := 2 }, by decide +kernel⟩,
   ⟨7, live.modMotor 7 fun x => { x with pinLost := true, pinOkAt := some 1 }, by decide +kernel⟩,
   ⟨3, by decide +kernel⟩⟩

theorem witness_MotorsTurn :
    (∃ phase, phase < 3) ∧
    (∃ (m : Nat) (delta : Nat) (s : State), m < s.bldc.motors.length ∧ (let x := s.motor m;
    (let s' := s.advanceTo (x.crossAt.toNat + delta); x.st = .run ∧ x.crossed = false ∧ plausible s' x delta =
    true))) ∧
    (∃ (m : Nat) (s : State), ((s.motor m).st = .stopped ∨ (s.motor m).st = .failed)) ∧
    (∃ (m : Nat) (s : State), ((s.motor m).st = .coast ∨ (s.motor m).st = .busBrake ∨ (s.motor m).st = .brake ∨
    (s.motor m).st = .listen)) ∧
    (∃ (m : Nat) (s : State), (s.motor m).st ≠ .run) ∧
    (∃ (m : Nat) (s : State), (s.motor m).st ≠ .ramp ∧ ((s.motor m).st ≠ .run ∨ (s.motor m).crossed = false)) ∧
    (∃ (m : Nat) (s : State), (s.motor m).st = .ramp ∧ (s.motor m).rampDue = none) ∧
    (∃ (m : Nat) (k : Nat) (s : State), m < s.bldc.motors.length ∧ (s.motor m).st = .ramp ∧ (s.motor m).rampDue =
    some k) ∧
    (∃ (x : Motor) (now : BitVec 64), x.driven = true ∧ x.pwmStopped = true ∧ x.highOff now = false ∧ x.deadNs * 8 ≤
    (now - x.gatesAt).toNat * 5) ∧
    (∃ (x : Motor) (now : BitVec 64), x.driven = true ∧ x.highOff now = true) ∧
    (∃ (m : Nat) (s : State), m < s.bldc.motors.length ∧ (s.motor m).st = .run ∧ (s.motor m).crossed = true) ∧
    (∃ (m : Nat) (s : State), m < s.bldc.motors.length ∧ (s.motor m).st = .run ∧ (s.motor m).crossed = false ∧
    (s.motor m).badRun + 1 < (s.motor m).lossCount ∧ ((s.motor m).step + 1) % 6 ≠ 0) ∧
    (∃ (m : Nat) (s : State), m < s.bldc.motors.length ∧ (s.motor m).st = .coast) ∧
    (∃ (m : Nat) (s : State), m < s.bldc.motors.length ∧ (s.motor m).st = .busBrake) ∧
    (∃ (m : Nat) (s : State), m < s.bldc.motors.length ∧ s.coreUp motorCore = true ∧ (s.motor m).st = .listen) ∧
    (∃ (m : Nat) (s : State), m < s.bldc.motors.length ∧ s.coreUp motorCore = true ∧ (s.motor m).st = .brake) ∧
    (∃ (m : Nat) (s : State), m < s.bldc.motors.length ∧ s.coreUp motorCore = true ∧ (s.motor m).st = .align) ∧
    (∃ (m : Nat) (s : State), m < s.bldc.motors.length ∧ s.coreUp motorCore = true ∧ (s.motor m).retries < 3 ∧
    (s.motor m).st = .ramp) ∧
    (∃ (m : Nat) (s : State), m < s.bldc.motors.length ∧ s.coreUp motorCore = true ∧ (s.motor m).retries < 3 ∧
    (s.motor m).st = .brake) ∧
    (∃ (m : Nat) (s : State), m < s.bldc.motors.length ∧ s.coreUp motorCore = true ∧ 3 ≤ (s.motor m).retries ∧
    (s.motor m).st = .ramp) ∧
    (∃ (m : Nat) (mv : Nat) (s : State), m < s.bldc.motors.length ∧ (let x := s.motor m; x.driven = true ∧ x.iDrive <
    mv ∧ x.highOff s.time = false)) ∧
    (∃ (m : Nat) (mv : Nat) (s : State), m < s.bldc.motors.length ∧ (let x := s.motor m; (x.driven = false ∨ mv ≤
    x.iDrive ∨ x.highOff s.time = true))) ∧
    (∃ (m : Nat) (s : State), m < s.bldc.motors.length ∧ (let x := s.motor m; 2 * x.limitedPeriods ≤ x.pwmKhz * 100)) ∧
    (∃ (m : Nat) (s : State), m < s.bldc.motors.length ∧ (let x := s.motor m; x.pwmKhz * 100 < 2 * x.limitedPeriods ∧
    x.driven = true)) ∧
    (∃ (g : Nat) (s : State), (s.bus g).configured = false) ∧
    (∃ (g : Nat) (code : Nat) (s : State), (s.bus g).configured = true ∧
    (let v := openDiv (code * (s.bus g).fullScale) 4095; v < (s.bus g).ovLimit ∧ v < (s.bus g).absLimit)) ∧
    (∃ (g : Nat) (code : Nat) (m : Nat) (s : State), s.bldc.motors.length = 8 ∧ g < s.bldc.buses.length ∧ (s.bus
    g).configured = true ∧ m < 8 ∧ (s.bus g).motors.getLsbD m = true ∧ (s.motor m).st ≠ .stopped ∧ (s.motor m).st ≠
    .busBrake ∧ (s.bus g).ovLimit ≤ openDiv (code * (s.bus g).fullScale) 4095) ∧
    (∃ (g : Nat) (m : Nat) (feedback : Bool) (s : State), s.bldc.motors.length = 8 ∧ g < s.bldc.buses.length ∧ (s.bus
    g).configured = true ∧ m < 8 ∧ (s.bus g).motors.getLsbD m = true ∧ (s.motor m).st ≠ .stopped ∧ (s.motor m).st ≠
    .busBrake ∧ (feedback = true ∨ (s.bus g).chopper = true)) ∧
    (∃ (m : Nat) (mv : Nat) (s : State), m < s.bldc.motors.length ∧ ((s.motor m).st = .busBrake ∨ (s.motor m).st =
    .brake) ∧ (let i := (busOf s m).iBrake; i < mv)) ∧
    (∃ (m : Nat) (mv : Nat) (s : State), m < s.bldc.motors.length ∧ ((s.motor m).st = .busBrake ∨ (s.motor m).st =
    .brake) ∧ (let i := (busOf s m).iBrake; (let free := fenced s 0x01C6 m = false ∧ s.flt.fatal = none; 5 * mv < 4 *
    i ∧ free))) ∧
    (∃ (m : Nat) (mv : Nat) (s : State), m < s.bldc.motors.length ∧ ((s.motor m).st = .busBrake ∨ (s.motor m).st =
    .brake) ∧ (let i := (busOf s m).iBrake; (let free := fenced s 0x01C6 m = false ∧ s.flt.fatal = none; mv ≤ i ∧ (4
    * i ≤ 5 * mv ∨ ¬free)))) ∧
    (∃ (m : Nat) (s : State), m < s.bldc.motors.length) :=
  ⟨⟨2, by decide +kernel⟩,
   ⟨7, 1600000, (atTick 1600000).modMotor 7 fun x =>
   { x with st := .run, deltas := [1600000], commAt := 800000, maxRpm := 10000 }, by decide +kernel⟩,
   ⟨7, live, by decide +kernel⟩,
   ⟨7, live.modMotor 7 fun x => { x with st := .listen }, by decide +kernel⟩,
   ⟨7, live, by decide +kernel⟩,
   ⟨7, live, by decide +kernel⟩,
   ⟨7, live.modMotor 7 fun x => { x with st := .ramp }, by decide +kernel⟩,
   ⟨7, 26666667, live.modMotor 7 fun x => { x with st := .ramp, handoff := 3000 }, by decide +kernel⟩,
   ⟨{ live.motor 7 with st := .run, duty := 255 }, 2 ^ 20, by decide +kernel⟩,
   ⟨{ live.motor 7 with st := .run, duty := 255, limitAt := some 5 }, 6, by decide +kernel⟩,
   ⟨7, live.modMotor 7 fun x => { x with st := .run, crossed := true }, by decide +kernel⟩,
   ⟨7, live.modMotor 7 fun x => { x with st := .run, step := 4 }, by decide +kernel⟩,
   ⟨7, live.modMotor 7 fun x => { x with st := .coast }, by decide +kernel⟩,
   ⟨7, live.modMotor 7 fun x => { x with st := .busBrake }, by decide +kernel⟩,
   ⟨7, live.modMotor 7 fun x => { x with st := .listen, maxRpm := 10000 }, by decide +kernel⟩,
   ⟨7, live.modMotor 7 fun x => { x with st := .brake }, by decide +kernel⟩,
   ⟨7, live.modMotor 7 fun x => { x with st := .align }, by decide +kernel⟩,
   ⟨7, live.modMotor 7 fun x => { x with st := .ramp, retries := 2 }, by decide +kernel⟩,
   ⟨7, live.modMotor 7 fun x => { x with st := .brake, retries := 2 }, by decide +kernel⟩,
   ⟨7, live.modMotor 7 fun x => { x with st := .ramp, retries := 3 }, by decide +kernel⟩,
   ⟨7, 1, live.modMotor 7 fun x => { x with st := .run, iDrive := 0 }, by decide +kernel⟩,
   ⟨7, 1, live.modMotor 7 fun x => { x with st := .run, iDrive := 1 }, by decide +kernel⟩,
   ⟨7, live.modMotor 7 fun x => { x with limitedPeriods := 1000 }, by decide +kernel⟩,
   ⟨7, live.modMotor 7 fun x => { x with st := .run, limitedPeriods := 1001 }, by decide +kernel⟩,
   ⟨1, live, by decide +kernel⟩,
   ⟨1, 0, live.modBus 1 fun x => { x with configured := true, fullScale := 500, ovLimit := 400, absLimit := 450 }, by
   decide +kernel⟩,
   ⟨1, 4095, 7, (live.modBus 1 fun x =>
   { x with configured := true, motors := 128, fullScale := 500, ovLimit := 500, absLimit := 501 }).modMotor 7 fun x
   => { x with st := .run }, by decide +kernel⟩,
   ⟨1, 7, true, (live.modBus 1 fun x =>
   { x with configured := true, motors := 128, fullScale := 500, ovLimit := 400, absLimit := 450 }).modMotor 7 fun x
   => { x with st := .run }, by decide +kernel⟩,
   ⟨7, 5, live.modMotor 7 fun x => { x with st := .busBrake }, by decide +kernel⟩,
   ⟨7, 3,
   { (live.modMotor 7 fun x => { x with st := .busBrake }) with bldc := { (live.modMotor 7 fun x => { x with st := .busBrake }).bldc with buses := live.bldc.buses.map fun b => { b with motors := 0x80, iBrake := 5 } } },
   by refine ⟨?_, ?_, ?_, ?_, ?_⟩ <;> decide +kernel⟩,
   ⟨7, 7,
   { (live.modMotor 7 fun x => { x with st := .busBrake }) with bldc := { (live.modMotor 7 fun x => { x with st := .busBrake }).bldc with buses := live.bldc.buses.map fun b => { b with motors := 0x80, iBrake := 7 } } },
   by decide +kernel⟩,
   ⟨7, live, by decide +kernel⟩⟩

theorem witness_AxesMove :
    (∃ (rq : Req) (s : State), served 0x0F01 rq s = true ∧ (let a := rq.u8 0; a < 16 ∧ rq.u8 1 ≤ 1 ∧ 1 ≤ rq.u32 4 ∧
    rq.u32 4 ≤ 100000 ∧ rq.u32 4 ≤ rq.u32 8 ∧ rq.u32 8 ≤ 4000000 ∧ 1 ≤ rq.u32 16 ∧ 100 ≤ rq.u16 24 ∧ rq.u16 24 ≤
    10000 ∧ 2 * rq.u16 24 * rq.u32 8 ≤ 10 ^ 9 ∧ 100 ≤ rq.u16 26 ∧ rq.u16 26 ≤ 10000 ∧ rq.u8 28 % 4 ≠ 3 ∧ rq.u8 29 % 4
    ≠ 3 ∧ 1 ≤ rq.u16 30 ∧ rq.u16 30 ≤ 10000 ∧ ((s.axis a).st = .idle ∨ (s.axis a).st = .halted))) ∧
    (∃ (rq : Req) (s : State), served 0x0F02 rq s = true ∧ s.motion.length = 16 ∧ (let a := rq.u8 0;
    (let x := s.axis a; a < 16 ∧ x.configured = true ∧ (rq.u32 4 = 0 → x.vStart ≤ x.vMax) ∧ (rq.u32 4 ≠ 0 → x.vStart
    ≤ rq.u32 4 ∧ rq.u32 4 ≤ x.vMax) ∧ x.queue = [] ∧ x.st = .idle ∧ (x.limPos.active = false ∨ x.limPos.mode = 0) ∧
    (x.limNeg.active = false ∨ x.limNeg.mode = 0)))) ∧
    (∃ (rq : Req) (s : State), served 0x0F02 rq s = true ∧ rq.u8 0 < 16 ∧ (s.axis (rq.u8 0)).configured = true ∧
    (s.axis (rq.u8 0)).vStart ≤ (s.axis (rq.u8 0)).vMax ∧ rq.u32 4 = 0 ∧ (s.axis (rq.u8 0)).queue.length < 32 ∧
    (s.axis (rq.u8 0)).st = .halted) ∧
    (∃ (a : Nat) (m : Move) (rest : List Move) (s : State), a < s.motion.length ∧ (s.axis a).st = .moving ∧ (s.axis
    a).queue = m :: rest ∧ s.forge.recoat = none ∧ (∀ p, ((s.axis a).limit p).mode = 0 ∨ ((s.axis a).limit p).active
    = false)) ∧
    (∃ (a : Nat) (s : State), (s.axis a).st ≠ .moving) ∧
    (∃ (a : Nat) (s : State), (s.axis a).st ≠ .stopping) ∧
    (∃ (a : Nat) (s : State), a < s.motion.length ∧ (s.axis a).st = .stopping) ∧
    (∃ (a : Nat) (s : State), (s.axis a).limPos.waiting = false) ∧
    (∃ (a : Nat) (s : State), (s.axis a).limNeg.waiting = false) ∧
    (∃ (a : Nat) (m : Move) (rest : List Move) (s : State), a < s.motion.length ∧ (s.axis a).limPos.waiting = true ∧
    (s.axis a).limPos.level ≠ (s.axis a).limPos.activeLow ∧ (s.axis a).limPos.mode = 1 ∧ (s.axis a).st = .moving ∧
    (s.axis a).queue = m :: rest ∧ m.pos = true ∧ s.forge.recoat = none) ∧
    (∃ (rq : Req) (s : State), served 0x0F03 rq s = true ∧ s.motion.length = 16 ∧ rq.u16 0 = 0 ∧ rq.u8 2 ≤ 1 ∧ (∀ a,
    a < 16 → (s.axis a).st = .idle) ∧ (∀ a, a < 16 → pacing s a = false) ∧ s.forge.recoat = none) ∧
    (∃ (rq : Req) (s : State), served 0x0F04 rq s = true ∧ rq.u8 0 < 16 ∧ (s.axis (rq.u8 0)).st ≠ .moving ∧ (s.axis
    (rq.u8 0)).st ≠ .stopping ∧ (rq.bit 1 0 = false ∨ (s.axis (rq.u8 0)).posLost = false) ∧ pacing s (rq.u8 0) =
    false) ∧
    (∃ (rq : Req) (s : State), served 0x0F05 rq s = true ∧ rq.u8 0 < 16 ∧ ((s.axis (rq.u8 0)).st = .idle ∨ (s.axis
    (rq.u8 0)).st = .halted)) ∧
    (∃ (rq : Req) (s : State), served 0x0F80 rq s = true ∧ rq.u8 0 < 16 ∧ 50 ≤ rq.u16 2 ∧ rq.u16 2 ≤ 10000 ∧ 1 ≤
    rq.u32 4 ∧ rq.u32 4 ≤ 1000000 ∧ 2 * rq.u16 2 * (s.axis (rq.u8 0)).vMax ≤ 10 ^ 9 ∧ (s.axis (rq.u8 0)).configured =
    true) :=
  ⟨⟨req [15, 1, 0, 0, 80, 195, 0, 0, 80, 195, 0, 0, 0, 0, 0, 0, 1, 0, 0, 0, 0, 0, 0, 0, 16, 39, 16, 39, 2, 2, 16,
   39], live.modAxis 15 fun x => { x with st := .halted }, by decide +kernel⟩,
   ⟨req [15, 0, 0, 0, 1, 0, 0, 0], live.modAxis 15 fun x => { x with configured := true }, by decide +kernel⟩,
   ⟨req [15], live.modAxis 15 fun x =>
   { x with configured := true, st := .halted, queue := List.replicate 31 { length := 10, pos := true, blend := false, notify := false, vMax := 1, accel := 1, decel := 1, tag := 0 } },
   by decide +kernel⟩,
   ⟨15, { length := 10, pos := true, blend := false, notify := false, vMax := 1, accel := 1, decel := 1, tag := 0 },
   [], live.modAxis 15 fun x =>
   { x with st := .moving, queue := [{ length := 10, pos := true, blend := false, notify := false, vMax := 1, accel := 1, decel := 1, tag := 0 }] },
   by refine ⟨?_, ?_, ?_, ?_, fun p => by cases p <;> decide +kernel⟩ <;> decide +kernel⟩,
   ⟨15, live, by decide +kernel⟩,
   ⟨15, live, by decide +kernel⟩,
   ⟨15, live.modAxis 15 fun x => { x with st := .stopping }, by decide +kernel⟩,
   ⟨15, live, by decide +kernel⟩,
   ⟨15, live, by decide +kernel⟩,
   ⟨15, { length := 10, pos := true, blend := false, notify := false, vMax := 1, accel := 1, decel := 1, tag := 0 },
   [], live.modAxis 15 fun x =>
   { x with st := .moving, queue := [{ length := 10, pos := true, blend := false, notify := false, vMax := 1, accel := 1, decel := 1, tag := 0 }], limPos := { level := true, waiting := true, mode := 1 } },
   by decide +kernel⟩,
   ⟨req [0, 0, 1], live, by decide +kernel⟩,
   ⟨req [15, 1], live, by decide +kernel⟩,
   ⟨req [15], live.modAxis 15 fun x => { x with st := .halted }, by decide +kernel⟩,
   ⟨req [15, 0, 16, 39, 80, 195, 0, 0], live.modAxis 15 fun x => { x with configured := true, vMax := 50000 }, by
   decide +kernel⟩⟩

theorem witness_ClocksAreWatched :
    (∃ (s : State), s.links.length = 24) ∧
    (∃ (hz : Nat), 49750000 ≤ hz ∧ hz ≤ 50250000) ∧
    (∃ (hz : Nat), (hz < 49750000 ∨ 50250000 < hz)) ∧
    (∃ (loop : Nat), 7 ≤ loop) ∧
    (∃ (loop : Nat) (s : State), s.links.length = 24 ∧ loop < 2) ∧
    (∃ (i : Nat) (s : State), s.links.length = 24 ∧ s.clk.synths.length = 4 ∧ i < 4 ∧ (s.synth i).enabled = true) ∧
    (∃ (loop : Nat) (s : State), loop < 7 ∧ (loop < 3 ∨ (s.synth (loop - 3)).enabled = true)) ∧
    (∃ (loop : Nat) (s : State), mayDeclare s loop = false) ∧
    (∃ (loop : Nat) (s : State), s.clk.synths.length = 4 ∧ loop < 7 ∧ mayDeclare s loop = true) ∧
    (∃ (mv : Nat) (s : State), s.links.length = 24 ∧ mv < 1080 ∧ s.clk.senseLow = false) ∧
    (∃ (mv : Nat) (s : State), (1080 ≤ mv ∨ s.clk.senseLow = true)) ∧
    (∃ (mv : Nat) (s : State), s.links.length = 24 ∧ 1350 < mv ∧ s.clk.included &&& ~~~s.clk.locked = 0 ∧
    s.clk.sysGate = false ∧ s.clk.synthGate = 0) ∧
    (∃ (mv : Nat), mv ≤ 1350) ∧
    (∃ (i : Nat) (s : State), (s.synth i).ctx = []) ∧
    (∃ (i : Nat) (since : BitVec 64) (c : Ctx) (rest : List (BitVec 64 × Ctx)) (s : State), (s.synth i).ctx = (since,
    c) :: rest) ∧
    (∃ (i : Nat) (c : Ctx) (address : Nat) (crc : BitVec 32) (rest : List (Ctx × Nat × BitVec 32)) (host : List Byte)
    (b : List Byte) (s : State), i < s.clk.synths.length ∧ (s.synth i).loads = (c, address, crc) :: rest ∧
    (let u := coreRead hostCore address 2048 s; u.coreUp hostCore = true ∧ u.tableOr address 2048 host = some b ∧
    crc32c b = crc ∧ rampOk (s.synth i).freq (rampOf b) = true)) ∧
    (∃ (i : Nat) (c : Ctx) (address : Nat) (crc : BitVec 32) (rest : List (Ctx × Nat × BitVec 32)) (host : List Byte)
    (b : List Byte) (s : State), i < s.clk.synths.length ∧ (s.synth i).loads = (c, address, crc) :: rest ∧
    (let u := coreRead hostCore address 2048 s; u.coreUp hostCore = true ∧ u.tableOr address 2048 host = some b ∧
    (crc32c b ≠ crc ∨ rampOk (s.synth i).freq (rampOf b) = false))) ∧
    (∃ (i : Nat) (span : Nat) (s : State), (let x := s.synth i;
    (let off := ((span : Int) - linePitch x (s.station i).pixels).natAbs; (s.clk.locked.getLsbD (i + 3) = false ∨ off
    ≤ x.phaseTol * 65536)))) ∧
    (∃ (i : Nat) (span : Nat) (s : State), (let x := s.synth i;
    (let off := ((span : Int) - linePitch x (s.station i).pixels).natAbs; s.clk.locked.getLsbD (i + 3) = true ∧
    x.phaseTol * 65536 < off ∧ x.raised = false))) ∧
    (∃ (i : Nat) (span : Nat) (s : State), (let x := s.synth i;
    (let off := ((span : Int) - linePitch x (s.station i).pixels).natAbs; s.clk.locked.getLsbD (i + 3) = true ∧
    x.phaseTol * 65536 < off ∧ x.raised = true))) ∧
    (∃ (rq : Req) (s : State), served 0x1001 rq s = true ∧ s.links.length = 24 ∧ s.clk.synths.length = 4 ∧
    (let i := rq.u8 0; (let freq := if rq.u32 4 = 0 then freqOfClock (s.station i).clockKhz else rq.u32 4; i < 4 ∧
    rq.u8 1 ≤ 1 ∧ 10 ≤ rq.u16 8 ∧ (rq.u32 4 = 0 → (s.station i).configured = true) ∧ freqOk freq = true ∧ pageActive
    s i = false))) ∧
    (∃ (rq : Req) (b : List Byte) (s : State), (let u := tableRead 0x1002 rq (rq.u64 4) 2048 s; served 0x1002 rq u =
    true ∧ rq.u8 0 < 4 ∧ u.table (rq.u64 4) 2048 = some b ∧ crc32c b = BitVec.ofNat 32 (rq.u32 12) ∧ rampOk (u.synth
    (rq.u8 0)).freq (rampOf b) = true)) ∧
    (∃ (rq : Req) (b : List Byte) (s : State), (let u := tableRead 0x1002 rq (rq.u64 4) 2048 s; served 0x1002 rq u =
    true ∧ rq.u8 0 < 4 ∧ u.table (rq.u64 4) 2048 = some b ∧ crc32c b ≠ BitVec.ofNat 32 (rq.u32 12))) ∧
    (∃ (rq : Req) (s : State), served 0x1003 rq s = true ∧ s.clk.synths.length = 4) ∧
    (∃ (rq : Req) (s : State), served 0x1080 rq s = true ∧ rq.u8 0 < 4 ∧ rq.u8 1 ≤ 7 ∧ rq.u8 2 ≤ 15 ∧ pageActive s
    (rq.u8 0) = false) :=
  ⟨⟨live, by decide +kernel⟩,
   ⟨50250000, by decide +kernel⟩,
   ⟨50250001, by decide +kernel⟩,
   ⟨7, by decide +kernel⟩,
   ⟨1, live, by decide +kernel⟩,
   ⟨3, live.modSynth 3 fun x => { x with enabled := true }, by decide +kernel⟩,
   ⟨6, live.modSynth 3 fun x => { x with enabled := true }, by decide +kernel⟩,
   ⟨6, live, by decide +kernel⟩,
   ⟨6, { live with clk := { live.clk with included := 64, senseMv := 1351, aboveAt := some 7 } }, by decide +kernel⟩,
   ⟨1079, live, by decide +kernel⟩,
   ⟨1080, live, by decide +kernel⟩,
   ⟨1351, live, by decide +kernel⟩,
   ⟨1350, by decide +kernel⟩,
   ⟨3, live, by decide +kernel⟩,
   ⟨3, 7, aCtx, [], live.modSynth 3 fun x => { x with ctx := [(7, aCtx)] }, by decide +kernel⟩,
   ⟨3, aCtx, 2 ^ 48, crc32c flatRamp, [], flatRamp, flatRamp, live.modSynth 3 fun x =>
   { x with freq := 2 ^ 28, loads := [(aCtx, 2 ^ 48, crc32c flatRamp)] },
   by rw [host_read _ _ _ _ 0 (by decide +kernel)]; exact ⟨by decide +kernel, rfl, by decide, flat_host _ (by decide +kernel), rfl, (rampOk_flat _).trans (by decide)⟩⟩,
   ⟨3, aCtx, 2 ^ 48, crc32c flatRamp, [], flatRamp, flatRamp, live.modSynth 3 fun x =>
   { x with freq := 2 ^ 31, loads := [(aCtx, 2 ^ 48, crc32c flatRamp)] },
   by rw [host_read _ _ _ _ 0 (by decide +kernel)]; exact ⟨by decide +kernel, rfl, by decide, flat_host _ (by decide +kernel), Or.inr ((rampOk_flat _).trans (by decide))⟩⟩,
   ⟨3, 0, live, by decide +kernel⟩,
   ⟨3, 655361, lockedLive.modSynth 3 fun x => { x with bdReset := true }, by decide +kernel⟩,
   ⟨3, 655361, lockedLive.modSynth 3 fun x => { x with bdReset := true, raised := true }, by decide +kernel⟩,
   ⟨req [3, 1, 0, 0, 153, 153, 153, 89, 10, 0], live, by decide +kernel⟩,
   ⟨profileReq (crc32c flatRamp).toNat, flatRamp, (withDram live).modSynth 3 fun x => { x with freq := 2 ^ 28 },
   by exact ⟨by decide +kernel, by decide, flat_table _ (by decide +kernel) (by decide +kernel) (by decide +kernel),
     by rw [profileReq_crc, Nat.mod_eq_of_lt (BitVec.isLt _), BitVec.ofNat_toNat, BitVec.setWidth_eq],
     (rampOk_flat _).trans (by decide +kernel)⟩⟩,
   ⟨profileReq (((crc32c flatRamp).toNat + 1) % 2 ^ 32), flatRamp, withDram live,
   by exact ⟨by decide +kernel, by decide, flat_table _ (by decide +kernel) (by decide +kernel) (by decide +kernel), by rw [profileReq_crc, Nat.mod_mod]; exact crc_step_ne _⟩⟩,
   ⟨req [200], live, by decide +kernel⟩,
   ⟨req [3, 7, 15], live, by decide +kernel⟩⟩

theorem witness_TemperaturesAreJudged :
    (∃ (i : Nat) (s : State), s.therm.sensors.length = 72 ∧ i < 16 ∧ (s.sensor i).forced = none) ∧
    (∃ (i : Nat), 72 ≤ i) ∧
    (∃ (i : Nat) (u : Nat) (v : Int) (s : State), s.therm.sensors.length = 72 ∧ s.therm.units.length = 40 ∧
    s.links.length = 24 ∧ i < 16 ∧ (s.sensor i).forced = none ∧ u < 40 ∧ (s.unit u).configured = true ∧ (s.unit
    u).waiting = none ∧ i ∈ (s.unit u).sensors ∧ (s.unit u).tripped = false ∧ (s.unit u).trip ≤ v ∧ v < 1020) ∧
    (∃ (i : Nat) (s : State), s.therm.sensors.length = 72 ∧ (s.sensor i).forced = none ∧ i < 16) ∧
    (∃ (i : Nat) (s : State), s.therm.sensors.length = 72 ∧ (s.sensor i).forced = none ∧ 16 ≤ i ∧ i < 40 ∧
    sensorAbsent s i = false) ∧
    (∃ (i : Nat) (s : State), s.therm.sensors.length = 72 ∧ (s.sensor i).forced = none ∧ (i < 16 ∨ 40 ≤ i ∨
    sensorAbsent s i = true)) ∧
    (∃ (i : Nat) (u : Nat) (v : Int) (s : State), s.therm.sensors.length = 72 ∧ s.therm.units.length = 40 ∧ i < 16 ∧
    (s.sensor i).forced = none ∧ u < 40 ∧ (s.unit u).configured = true ∧ (s.unit u).waiting = none ∧ (s.unit
    u).sensors = [i] ∧ v < 1020 ∧ (∀ k, k < 4 → pageActive s k = false) ∧ layerActive s = false) ∧
    (∃ (i : Nat) (u : Nat) (c : UnitConfig) (s : State), s.therm.sensors.length = 72 ∧ s.therm.units.length = 40 ∧ i
    < 16 ∧ (s.sensor i).forced = none ∧ u < 40 ∧ (s.unit u).waiting = some c ∧ i ∈ c.sensors) ∧
    (∃ (u : Nat) (since : BitVec 64) (s : State), u < s.therm.units.length ∧ (s.unit u).configured = true ∧
    privileged s u = false ∧ (s.unit u).hotFrom = some since ∧ (s.unit u).nMin < (s.unit u).step) ∧
    (∃ (u : Nat) (since : BitVec 64) (s : State), u < s.therm.units.length ∧ (s.unit u).configured = true ∧
    privileged s u = false ∧ (s.unit u).coolFrom = some since ∧ (s.unit u).step < 16) ∧
    (∃ (u : Nat) (s : State), ((s.unit u).hotFrom = none ∨ (s.unit u).step ≤ (s.unit u).nMin ∨ (s.unit u).configured
    = false ∨ privileged s u = true)) ∧
    (∃ (u : Nat) (s : State), ((s.unit u).coolFrom = none ∨ 16 ≤ (s.unit u).step ∨ (s.unit u).configured = false ∨
    privileged s u = true)) ∧
    (∃ (throttle : Int) (temp : Int), temp ≤ throttle) ∧
    (∃ (k : Nat), k ≤ 31) ∧
    (∃ (rq : Req) (s : State), served 0x1101 rq s = true ∧ (let u := rq.u8 0;
    (let sensors := if u = 0 then List.range 16 else (((List.range 8).map fun k => rq.u8 (4 + k)).take (rq.u8 1)).filter (· ≠ 0xFF);
    unitExists s u = true ∧ rq.u8 1 ≤ 8 ∧ 1 ≤ rq.u8 2 ∧ rq.u8 2 ≤ 16 ∧ rq.i16 12 < rq.i16 14 ∧ rq.i16 14 < rq.i16 16
    ∧ (∀ i ∈ sensors, (u ≠ 0 → 16 ≤ i) ∧ i < 72) ∧ (u = 0 → ∀ k, k < rq.u8 1 → rq.u8 (4 + k) < 16 ∨ rq.u8 (4 + k) =
    0xFF) ∧ (u = 0 → rq.i16 16 ≤ 520) ∧ 4 ≤ rq.u8 18 ∧ rq.u8 18 ≤ 80 ∧ 10 ≤ rq.u16 20 ∧ rq.u16 20 ≤ 5000 ∧ privileged
    s u = false))) ∧
    (∃ (rq : Req) (s : State), served 0x1102 rq s = true ∧ rq.u8 0 < 32 ∧ rq.u16 2 ≤ rq.u16 4 ∧ rq.u16 4 ≤ 4095) ∧
    (∃ (rq : Req) (s : State), served 0x1103 rq s = true ∧ unitExists s (rq.u8 0) = true) ∧
    (∃ (rq : Req) (s : State), served 0x1180 rq s = true ∧ rq.u8 0 < 72 ∧ (∀ i, i < 4 → pageActive s i = false) ∧
    layerActive s = false) :=
  ⟨⟨15, live, by decide +kernel⟩,
   ⟨72, by decide +kernel⟩,
   ⟨15, 0, 1019, live, by decide +kernel⟩,
   ⟨15, live, by decide +kernel⟩,
   ⟨39, live.modLink 23 fun x => { x with st := .up, version := 2 }, by decide +kernel⟩,
   ⟨39, live, by decide +kernel⟩,
   ⟨15, 39, 10,
   { live with therm := { live.therm with units := modAt live.therm.units 39 fun u => { u with configured := true, sensors := [15] } } },
   by decide +kernel⟩,
   ⟨15, 39,
   { sensors := [15], nMin := 1024, k := 0, warn := 600, throttle := 700, trip := 800, hyst := 10, rate := 0 },
   { live with therm := { live.therm with units := modAt live.therm.units 39 fun u => { u with waiting := some { sensors := [15], nMin := 1024, k := 0, warn := 600, throttle := 700, trip := 800, hyst := 10, rate := 0 } } } },
   by decide +kernel⟩,
   ⟨39, 7,
   { live with therm := { live.therm with units := modAt live.therm.units 39 fun u => { u with configured := true, hotFrom := some 7, nMin := 15, step := 16 } } },
   by decide +kernel⟩,
   ⟨39, 7,
   { live with therm := { live.therm with units := modAt live.therm.units 39 fun u => { u with configured := true, coolFrom := some 7, step := 15 } } },
   by decide +kernel⟩,
   ⟨39, live, by decide +kernel⟩,
   ⟨39, live, by decide +kernel⟩,
   ⟨10, 10, by decide +kernel⟩,
   ⟨31, by decide +kernel⟩,
   ⟨req [39, 1, 16, 0, 71, 0, 0, 0, 0, 0, 0, 0, 254, 255, 255, 255, 0, 0, 80, 0, 136, 19], live, by decide +kernel⟩,
   ⟨req [31, 0, 255, 15, 255, 15], live, by decide +kernel⟩,
   ⟨req [39], live, by decide +kernel⟩,
   ⟨req [71], live, by decide +kernel⟩⟩

theorem witness_RailsAreSequenced :
    (∃ (rq : Req) (s : State), served 0x1201 rq s = true ∧ rq.u8 0 < 16 ∧ 1 ≤ rq.u16 4 ∧ rq.u16 4 ≤ 10000 ∧ rq.u16 6
    ≤ 10000 ∧ 1 ≤ rq.u16 8 ∧ rq.u16 8 ≤ 10000 ∧ 10 ≤ rq.u16 10 ∧ rq.u16 10 ≤ 10000 ∧ rq.u16 14 < rq.u16 16 ∧ rq.u16
    16 ≤ rq.u16 12 ∧ rq.u16 18 < rq.u16 14 ∧ (s.pwr.st = .down ∨ s.pwr.st = .minOff ∨ s.pwr.st = .latched)) ∧
    (∃ (rq : Req) (k : Nat) (s : State), served 0x1202 rq s = true ∧ s.pwr.rails.length = 16 ∧ s.pwr.st = .down ∧ k <
    16 ∧ (s.rail k).inSeq = true ∧ (∀ j, j < k → (s.rail j).inSeq = false) ∧ (s.atoll.supplyMon = false ∨
    s.pwr.supplyLost = false)) ∧
    (∃ (rq : Req) (s : State), served 0x1202 rq s = true ∧ s.pwr.st = .latched) ∧
    (∃ (rq : Req) (s : State), served 0x1203 rq s = true ∧ rq.u8 0 ≤ 1 ∧ (s.pwr.st = .down ∨ s.pwr.st = .latched) ∧
    s.pwr.minOff = false) ∧
    (∃ (rq : Req) (k : Nat) (s : State), served 0x1203 rq s = true ∧ s.pwr.rails.length = 16 ∧ s.links.length = 24 ∧
    rq.u8 0 ≤ 1 ∧ s.pwr.st = .up ∧ (∀ i, i < 4 → pageActive s i = false) ∧ layerActive s = false ∧ k < 16 ∧ (s.rail
    k).en = true ∧ (∀ j, k < j → j < 16 → (s.rail j).en = false)) ∧
    (∃ (rq : Req) (i : Nat) (s : State), served 0x1203 rq s = true ∧ rq.u8 0 ≤ 1 ∧ s.pwr.st = .up ∧ i < 4 ∧
    pageActive s i = true ∧ s.pwr.grace = none) ∧
    (∃ (rq : Req) (s : State), served 0x1204 rq s = true ∧ s.pwr.st = .latched ∧ sysfaultClear s = true) ∧
    (∃ (rq : Req) (s : State), served 0x1204 rq s = true ∧ (s.pwr.st ≠ .latched ∨ sysfaultClear s = false)) ∧
    (∃ (rq : Req) (s : State), served 0x1205 rq s = true ∧ s.pwr.rails.length = 16) ∧
    (∃ (rq : Req) (s : State), served 0x1280 rq s = true ∧ rq.u8 0 < 16 ∧ s.pwr.st = .down ∧ s.pwr.minOff = false) ∧
    (∃ (k : Nat) (v : Nat) (pg : Bool) (s : State), k < s.pwr.rails.length ∧ (s.rail k).en = true ∧ vmonOk (s.rail k)
    v = true ∧ (s.rail k).pgOk pg = true ∧ s.pwr.st = .rising ∧ s.pwr.slot = some k ∧ s.pwr.settling = false) ∧
    (∃ (k : Nat) (v : Nat) (pg : Bool) (s : State), k < s.pwr.rails.length ∧ (s.rail k).en = true ∧ vmonOk (s.rail k)
    v = true ∧ (s.rail k).pgOk pg = true ∧ s.pwr.st = .down) ∧
    (∃ (k : Nat) (v : Nat) (pg : Bool) (s : State), ((s.rail k).en = false ∨ vmonOk (s.rail k) v = false ∨ (s.rail
    k).pgOk pg = false)) ∧
    (∃ (k : Nat) (j : Nat) (s : State), s.pwr.rails.length = 16 ∧ s.pwr.st = .rising ∧ s.pwr.slot = some k ∧
    s.pwr.settling = true ∧ k < j ∧ j < 16 ∧ (s.rail j).inSeq = true ∧ (∀ i, k < i → i < j → (s.rail i).inSeq =
    false)) ∧
    (∃ (k : Nat) (s : State), s.pwr.st = .rising ∧ s.pwr.slot = some k ∧ s.pwr.settling = true ∧ (∀ i, k < i → i < 16
    → (s.rail i).inSeq = false)) ∧
    (∃ (k : Nat) (s : State), s.pwr.rails.length = 16 ∧ s.links.length = 24 ∧ k < 16 ∧ s.pwr.st = .rising ∧
    s.pwr.slot = some k ∧ s.pwr.settling = false ∧ (s.rail k).en = true) ∧
    (∃ (k : Nat) (v : Nat) (pg : Bool) (s : State), s.pwr.rails.length = 16 ∧ s.links.length = 24 ∧ k < 16 ∧ (s.rail
    k).en = true ∧ (s.rail k).up = true ∧ s.pwr.st = .up ∧ (vmonOk (s.rail k) v = false ∨ (s.rail k).pgOk pg =
    false)) ∧
    (∃ (k : Nat) (v : Nat) (pg : Bool) (s : State), ((s.rail k).en = false ∨ (s.rail k).up = false ∨ (vmonOk (s.rail
    k) v = true ∧ (s.rail k).pgOk pg = true))) ∧
    (∃ (k : Nat) (j : Nat) (s : State), s.pwr.rails.length = 16 ∧ s.pwr.st = .falling ∧ s.pwr.slot = some k ∧ j < 16
    ∧ (s.rail j).en = true ∧ (∀ i, j < i → i < 16 → (s.rail i).en = false)) ∧
    (∃ (k : Nat) (s : State), s.pwr.st = .falling ∧ s.pwr.slot = some k ∧ (∀ i, i < 16 → (s.rail i).en = false)) ∧
    (∃ (s : State), s.pwr.minOff = false) ∧
    (∃ (s : State), s.pwr.minOff = true ∧ s.pwr.st = .minOff ∧ s.pwr.heldOn = false ∧ s.atoll.standby = true) ∧
    (∃ (s : State), s.pwr.minOff = true ∧ s.pwr.st = .minOff ∧ s.pwr.heldOn = false ∧ s.atoll.standby = false ∧
    s.pwr.endKeep = false ∧ s.pwr.latchedOff = false ∧ s.pwr.latch = 0 ∧ s.mci.st ≠ .reset) ∧
    (∃ (s : State), s.pwr.minOff = true ∧ s.pwr.st = .minOff ∧ s.pwr.heldOn = false ∧ s.atoll.standby = false ∧
    s.pwr.endKeep = false ∧ s.pwr.latchedOff = false ∧ s.pwr.latch = 0 ∧ s.mci.st = .reset) ∧
    (∃ (s : State), s.pwr.grace = none) ∧
    (∃ (k : Nat) (s : State), s.pwr.rails.length = 16 ∧ s.pwr.grace.isSome = true ∧ (∀ i, i < 4 → pageActive s i =
    false) ∧ layerActive s = false ∧ k < 16 ∧ (s.rail k).en = true) :=
  ⟨⟨req [15, 0, 0, 0, 16, 39, 16, 39, 16, 39, 16, 39, 3, 0, 1, 0, 2, 0],
   { live with pwr := { live.pwr with st := .latched } }, by decide +kernel⟩,
   ⟨req [0], 15,
   { live with pwr := { live.pwr with rails := modAt live.pwr.rails 15 fun x => { x with inSeq := true }, st := .down } },
   by decide +kernel⟩,
   ⟨req [0], { live with pwr := { live.pwr with st := .latched } }, by decide +kernel⟩,
   ⟨req [1], live, by decide +kernel⟩,
   ⟨req [1], 15,
   { live with pwr := { live.pwr with rails := modAt live.pwr.rails 15 fun x => { x with en := true }, st := .up } },
   by refine ⟨?_, ?_, ?_, ?_, ?_, ?_, ?_, ?_, ?_, fun j h1 h2 => by omega⟩ <;> decide +kernel⟩,
   ⟨req [1], 3,
   { ({ live with pwr := { live.pwr with st := .up } }) with stations := modAt live.stations 3 fun x => { x with jobs := [{ aJob with st := .active }] } },
   by decide +kernel⟩,
   ⟨req [1], { live with pwr := { live.pwr with st := .latched } }, by decide +kernel⟩,
   ⟨req [1], live, by decide +kernel⟩,
   ⟨req [9], live, by decide +kernel⟩,
   ⟨req [15], live, by decide +kernel⟩,
   ⟨15, 4095, true,
   { live with pwr := { live.pwr with rails := modAt live.pwr.rails 15 fun x => { x with en := true, pgUsed := true, fullScale := 100, ov := 100 }, st := .rising, slot := some 15 } },
   by decide +kernel⟩,
   ⟨15, 4095, true,
   { live with pwr := { live.pwr with rails := modAt live.pwr.rails 15 fun x => { x with en := true, pgUsed := true, fullScale := 100, ov := 100 }, st := .down } },
   by decide +kernel⟩,
   ⟨15, 4095, true, live, by decide +kernel⟩,
   ⟨14, 15,
   { live with pwr := { live.pwr with rails := modAt live.pwr.rails 15 fun x => { x with inSeq := true }, st := .rising, slot := some 14, settling := true } },
   by refine ⟨?_, ?_, ?_, ?_, ?_, ?_, ?_, fun i h1 h2 => by omega⟩ <;> decide +kernel⟩,
   ⟨15, { live with pwr := { live.pwr with st := .rising, slot := some 15, settling := true } },
   by exact ⟨by decide +kernel, by decide +kernel, by decide +kernel, fun i h1 h2 => by omega⟩⟩,
   ⟨15,
   { live with pwr := { live.pwr with rails := modAt live.pwr.rails 15 fun x => { x with en := true }, st := .rising, slot := some 15 } },
   by decide +kernel⟩,
   ⟨15, 0, false,
   { live with pwr := { live.pwr with rails := modAt live.pwr.rails 15 fun x => { x with en := true, up := true, pgUsed := true, fullScale := 100, ov := 100 }, st := .up } },
   by decide +kernel⟩,
   ⟨15, 0, true, live, by decide +kernel⟩,
   ⟨15, 14,
   { live with pwr := { live.pwr with rails := modAt live.pwr.rails 14 fun x => { x with en := true }, st := .falling, slot := some 15 } },
   by refine ⟨?_, ?_, ?_, ?_, ?_, fun i h1 h2 => by obtain rfl : i = 15 := (by omega); decide +kernel⟩ <;> decide +kernel⟩,
   ⟨0, { live with pwr := { live.pwr with st := .falling, slot := some 0 } }, by decide +kernel⟩,
   ⟨live, by decide +kernel⟩,
   ⟨{ { live with pwr := { live.pwr with st := .minOff, minOff := true } } with atoll := { live.atoll with standby := true } },
   by decide +kernel⟩,
   ⟨{ live with pwr := { live.pwr with minOff := true, st := .minOff } }, by decide +kernel⟩,
   ⟨{ State.reset with pwr := { State.reset.pwr with minOff := true, st := .minOff } }, by decide +kernel⟩,
   ⟨live, by decide +kernel⟩,
   ⟨15,
   { live with pwr := { live.pwr with rails := modAt live.pwr.rails 15 fun x => { x with en := true }, grace := some 0 } },
   by decide +kernel⟩⟩

theorem witness_AtollKeepsItsRegisters :
    (∃ (s : State), s.pwr.pressHeld = true) ∧
    (∃ (s : State), s.pwr.pressHeld = false ∧ s.atoll.main = false ∧ s.atoll.wakeEn.getLsbD 0 = true) ∧
    (∃ (s : State), s.pwr.pressHeld = false ∧ s.atoll.main = false ∧ s.atoll.wakeEn.getLsbD 0 = false) ∧
    (∃ (s : State), s.pwr.pressHeld = false ∧ s.atoll.main = true ∧ s.pwr.st = .latched ∧ sysfaultClear s = true) ∧
    (∃ (s : State), s.atoll.main = false) ∧
    (∃ (s : State), s.atoll.main = true ∧ pullsSysfault s = true) ∧
    (∃ (k : Nat) (s : State), s.pwr.rails.length = 16 ∧ s.atoll.main = true ∧ pullsSysfault s = false ∧ s.pwr.st =
    .up ∧ k < 16 ∧ (s.rail k).en = true) ∧
    (∃ (s : State), s.atoll.supplyMon = false) ∧
    (∃ (k : Nat) (s : State), s.pwr.rails.length = 16 ∧ s.atoll.supplyMon = true ∧ s.pwr.st = .up ∧ k < 16 ∧ (s.rail
    k).en = true) ∧
    (∃ (s : State), s.atoll.supplyMon = true ∧ s.atoll.autoRestart = true ∧ s.pwr.st = .minOff ∧ s.atoll.main = true) ∧
    (∃ (s : State), s.atoll.supplyMon = true ∧ s.atoll.autoRestart = true ∧ s.atoll.main = false) ∧
    (∃ (mv : Nat), 1800 ≤ mv) ∧
    (∃ (mv : Nat) (s : State), 1500 ≤ mv ∧ mv < 1800 ∧ s.atoll.main = true) ∧
    (∃ (mv : Nat) (s : State), 1500 ≤ mv ∧ mv < 1800 ∧ s.atoll.main = false) ∧
    (∃ (mv : Nat), mv < 1500) ∧
    (∃ (n : Nat) (rising : Bool) (s : State), (4 ≤ n ∨ s.atoll.wakePol.getLsbD n ≠ rising)) ∧
    (∃ (n : Nat) (rising : Bool) (s : State), n < 4 ∧ s.atoll.wakePol.getLsbD n = rising) ∧
    (∃ (n : Nat) (s : State), (let v := (at' s.atoll.alarms n 0).toNat; n < 4 ∧ s.atoll.alarmEn.getLsbD n = true ∧
    s.atoll.rtc.toNat ≤ v)) ∧
    (∃ (n : Nat) (s : State), (4 ≤ n ∨ s.atoll.alarmEn.getLsbD n = false)) ∧
    (∃ (rq : Req) (s : State), served 0x1206 rq s = true ∧ rq.u8 0 % 4 = 0 ∧ 1 ≤ rq.u8 1 ∧ rq.u8 1 ≤ 16 ∧ rq.u8 0 + 4
    * rq.u8 1 ≤ 0x80) ∧
    (∃ (rq : Req) (s : State), served 0x1207 rq s = true ∧ rq.u8 0 % 4 = 0 ∧ rq.u8 0 < 0x80) ∧
    (∃ (a : Atoll) (k : Nat) (v : Nat), a.ret.length = 16 ∧ k < 16 ∧ v < 2 ^ 32) ∧
    (∃ (hi : Nat) (lo : Nat), hi < 2 ^ 16 ∧ lo < 2 ^ 32) :=
  ⟨⟨{ live with pwr := { live.pwr with pressHeld := true } }, by decide +kernel⟩,
   ⟨{ live with atoll := { live.atoll with main := false } }, by decide +kernel⟩,
   ⟨{ live with atoll := { live.atoll with main := false, wakeEn := 0 } }, by decide +kernel⟩,
   ⟨{ live with pwr := { live.pwr with st := .latched } }, by decide +kernel⟩,
   ⟨{ live with atoll := { live.atoll with main := false } }, by decide +kernel⟩,
   ⟨{ live with pwr := { live.pwr with st := .latched, latch := 1 } }, by decide +kernel⟩,
   ⟨15,
   { live with pwr := { live.pwr with rails := modAt live.pwr.rails 15 fun x => { x with en := true }, st := .up } },
   by decide +kernel⟩,
   ⟨live, by decide +kernel⟩,
   ⟨15,
   { { live with pwr := { live.pwr with rails := modAt live.pwr.rails 15 fun x => { x with en := true }, st := .up } } with atoll := { live.atoll with supplyMon := true } },
   by decide +kernel⟩,
   ⟨{ { live with pwr := { live.pwr with st := .minOff } } with atoll := { live.atoll with supplyMon := true, autoRestart := true } },
   by decide +kernel⟩,
   ⟨{ live with atoll := { live.atoll with supplyMon := true, autoRestart := true, main := false } }, by
   decide +kernel⟩,
   ⟨1800, by decide +kernel⟩,
   ⟨1799, { live with atoll := { live.atoll with main := true } }, by decide +kernel⟩,
   ⟨1500, { live with atoll := { live.atoll with main := false } }, by decide +kernel⟩,
   ⟨1499, by decide +kernel⟩,
   ⟨4, true, live, by decide +kernel⟩,
   ⟨3, false, live, by decide +kernel⟩,
   ⟨3, { live with atoll := { live.atoll with alarms := [0, 0, 0, 2 ^ 47], alarmEn := 8 } }, by decide +kernel⟩,
   ⟨4, live, by decide +kernel⟩,
   ⟨req [64, 16], live, by decide +kernel⟩,
   ⟨req [124], live, by decide +kernel⟩,
   ⟨{}, 15, 2 ^ 32 - 1, by decide +kernel⟩,
   ⟨2 ^ 16 - 1, 2 ^ 32 - 1, by decide +kernel⟩⟩

theorem witness_LampStringsAreWatched :
    (∃ (rq : Req) (s : State), served 0x1301 rq s = true ∧ s.lamps.length = 8 ∧ (let i := rq.u8 0;
    (let x := s.lampOf i; i < 8 ∧ rq.u8 1 = 1 ∧ rq.u8 3 ≤ 1 ∧ (rq.u8 3 = 1 → rq.bit 2 0 = true) ∧ 1 ≤ rq.u8 4 ∧ rq.u8
    4 ≤ 16 ∧ rq.u16 6 ≤ 1000 ∧ 100 ≤ rq.u16 8 ∧ rq.u16 8 ≤ 1200 ∧ 200 ≤ rq.u16 10 ∧ rq.u16 10 ≤ 20000 ∧ (rq.bit 2 0 =
    true → 100 ≤ rq.u16 6 ∧ rq.u16 12 = 0) ∧ permitHeld s i = false ∧ (x.st = 0 ∨ (x.st = 3 ∧ unackedSource s 0x0261
    = false))))) ∧
    (∃ (rq : Req) (s : State), served 0x1302 rq s = true ∧ rq.u8 0 < 8 ∧ rq.u16 2 ≤ 1000 ∧ ((s.lampOf (rq.u8
    0)).regulated = true → 100 ≤ rq.u16 2) ∧ permitHeld s (rq.u8 0) = false ∧ (s.lampOf (rq.u8 0)).failAt ≠ some
    s.time ∧ (s.lampOf (rq.u8 0)).st ≠ 3) ∧
    (∃ (x : Lamp) (now : BitVec 64), 100 ≤ x.inForce now) ∧
    (∃ (x : Lamp) (now : BitVec 64), 0 < x.inForce now ∧ x.inForce now < 100) ∧
    (∃ (x : Lamp) (now : BitVec 64), x.inForce now = 0) ∧
    (∃ (rq : Req) (s : State), served 0x1303 rq s = true ∧ rq.u8 0 < 8) ∧
    (∃ (rq : Req) (s : State), served 0x1380 rq s = true ∧ rq.u8 0 < 8 ∧ (s.lampOf (rq.u8 0)).regulated = false ∧
    permitHeld s (rq.u8 0) = false) ∧
    (∃ (i : Nat) (s : State), (s.lampOf i).st ≠ 1 ∧ (s.lampOf i).st ≠ 2) ∧
    (∃ (i : Nat) (s : State), (let x := s.lampOf i; (let u := s.advanceTo (x.frameAt.toNat + ticksPerMs / 10); (x.st
    = 1 ∨ x.st = 2) ∧ x.enPin u.time = false))) ∧
    (∃ (i : Nat) (frame : BitVec 64) (heard : Bool) (s : State), (let x := s.lampOf i;
    (let u := s.advanceTo (x.frameAt.toNat + ticksPerMs / 10); i < s.lamps.length ∧ x.st = 2 ∧ x.enPin u.time = true
    ∧ heard = true ∧ frame.setWidth 8 = frameCrc frame ∧ (∀ j, j < x.lamps → lampReport (lampBits frame) j = 0)))) ∧
    (∃ (i : Nat) (frame : BitVec 64) (heard : Bool) (s : State), (let x := s.lampOf i;
    (let u := s.advanceTo (x.frameAt.toNat + ticksPerMs / 10); i < s.lamps.length ∧ x.st = 2 ∧ x.enPin u.time = true
    ∧ (heard = false ∨ frame.setWidth 8 ≠ frameCrc frame)))) ∧
    (∃ (i : Nat) (k : Nat) (frame : BitVec 64) (s : State), (let x := s.lampOf i;
    (let u := s.advanceTo (x.frameAt.toNat + ticksPerMs / 10); i < s.lamps.length ∧ x.st = 2 ∧ x.enPin u.time = true
    ∧ frame.setWidth 8 = frameCrc frame ∧ k < x.lamps ∧ k < 16 ∧ x.shunt = 0 ∧ x.failed = 0 ∧ x.commBad = false ∧ (∀
    j, j < x.lamps → lampReport (lampBits frame) j = if j = k then 1 else 0) ∧ x.suspect.getLsbD k = true ∧
    x.regulated = false))) ∧
    (∃ (i : Nat) (k : Nat) (frame : BitVec 64) (s : State), (let x := s.lampOf i;
    (let u := s.advanceTo (x.frameAt.toNat + ticksPerMs / 10); i < s.lamps.length ∧ x.st = 2 ∧ x.enPin u.time = true
    ∧ frame.setWidth 8 = frameCrc frame ∧ k < x.lamps ∧ k < 16 ∧ x.shunt = 0 ∧ x.failed = 0 ∧ x.commBad = false ∧ (∀
    j, j < x.lamps → lampReport (lampBits frame) j = if j = k then 1 else 0) ∧ x.suspect.getLsbD k = true ∧
    x.regulated = true))) ∧
    (∃ (i : Nat) (k : Nat) (frame : BitVec 64) (s : State), (let x := s.lampOf i;
    (let u := s.advanceTo (x.frameAt.toNat + ticksPerMs / 10); i < s.lamps.length ∧ x.st = 2 ∧ x.enPin u.time = true
    ∧ frame.setWidth 8 = frameCrc frame ∧ k < x.lamps ∧ k < 16 ∧ x.shunt = 0 ∧ x.failed = 0 ∧ x.commBad = false ∧ (∀
    j, j < x.lamps → lampReport (lampBits frame) j = if j = k then 1 else 0) ∧ x.suspect.getLsbD k = false))) :=
  ⟨⟨req [7, 1, 1, 1, 16, 0, 100, 0, 100, 0, 200, 0, 0, 0], live, by decide +kernel⟩,
   ⟨req [7, 0, 232, 3], live, by decide +kernel⟩,
   ⟨{ st := 2, level := 100 }, 0, by decide +kernel⟩,
   ⟨{ st := 2, level := 99 }, 0, by decide +kernel⟩,
   ⟨{}, 0, by decide +kernel⟩,
   ⟨req [7], live, by decide +kernel⟩,
   ⟨req [7], live, by decide +kernel⟩,
   ⟨7, live, by decide +kernel⟩,
   ⟨7, live.modLamp 7 fun x => { x with st := 2 }, by decide +kernel⟩,
   ⟨7, 0, true, live.modLamp 7 fun x => { x with st := 2, level := 100 }, by decide +kernel⟩,
   ⟨7, 0, false, live.modLamp 7 fun x => { x with st := 2, level := 100 }, by decide +kernel⟩,
   ⟨7, 15, withCrc8 (2 ^ 30), live.modLamp 7 fun x =>
   { x with st := 2, level := 100, lamps := 16, suspect := 0x8000 }, by decide +kernel⟩,
   ⟨7, 15, withCrc8 (2 ^ 30), live.modLamp 7 fun x =>
   { x with st := 2, level := 100, lamps := 16, suspect := 0x8000, regulated := true }, by decide +kernel⟩,
   ⟨7, 15, withCrc8 (2 ^ 30), live.modLamp 7 fun x => { x with st := 2, level := 100, lamps := 16, suspect := 0 }, by
   decide +kernel⟩⟩

theorem witness_ResetsKeepWhatTheyMust :
    (∃ (s : State), s.atoll.main = true) ∧
    (∃ (c : Ctx) (a : Nat) (n : Nat) (o : Nat) (s : State), s.atoll.main = true ∧ s.boot.update = some (c, a, n) ∧
    cellsWf 0xFF s.boot.flash = true ∧ (o < slotAt (updateSlot s) ∨ slotAt (updateSlot s) + n ≤ o)) ∧
    (∃ (s : State), s.atoll.main = true) ∧
    (∃ (s : State), s.atoll.main = false) ∧
    (∃ (s : State), s.atoll.main = true) ∧
    (∃ (w : Nat), w < 1000) ∧
    (∃ (w : Nat) (s : State), 10000 ≤ w ∧ s.atoll.main = true ∧ s.boot.nmr = false) ∧
    (∃ (s : State), s.boot.nmr = true ∧ s.atoll.main = false) ∧
    (∃ (s : State), s.boot.nmr = true ∧ s.atoll.main = true) ∧
    (∃ (s : State), s.boot.nmr = false) :=
  ⟨⟨{ live with atoll := { live.atoll with main := true } }, by decide +kernel⟩,
   ⟨aCtx, 0, 4, 0,
   { ({ live with atoll := { live.atoll with main := true } }) with boot := { live.boot with update := some (aCtx, 0, 4) } },
   by decide +kernel⟩,
   ⟨{ live with atoll := { live.atoll with main := true } }, by decide +kernel⟩,
   ⟨{ live with atoll := { live.atoll with main := false } }, by decide +kernel⟩,
   ⟨{ live with atoll := { live.atoll with main := true } }, by decide +kernel⟩,
   ⟨999, by decide +kernel⟩,
   ⟨10000, { live with atoll := { live.atoll with main := true } }, by decide +kernel⟩,
   ⟨{ live with boot := { live.boot with nmr := true }, atoll := { live.atoll with main := false } }, by
   decide +kernel⟩,
   ⟨{ live with boot := { live.boot with nmr := true } }, by decide +kernel⟩,
   ⟨live, by decide +kernel⟩⟩

theorem witness_StartupRunsInOrder :
    (∃ (s : State), s.timeRuns = false ∧ s.atoll.main = true ∧ s.boot.nmr = false) ∧
    (∃ (s : State), (s.timeRuns = true ∨ s.atoll.main = false ∨ s.boot.nmr = true)) ∧
    (∃ (s : State), s.timeRuns = true ∧ s.mci.st = .reset ∧ s.dram.trained = false ∧ s.dram.cfg.ok = true) ∧
    (∃ (failed : BitVec 4) (s : State), s.timeRuns = true ∧ s.mci.st = .reset ∧ s.dram.trained = false ∧
    s.dram.cfg.ok = true ∧ failed &&& BitVec.ofNat 4 s.dram.cfg.channels ≠ 0) ∧
    (∃ (s : State), (s.timeRuns = false ∨ s.mci.st ≠ .reset ∨ s.dram.trained = true)) ∧
    (∃ (s : State), s.dram.trained = true ∧ s.mci.st = .reset ∧ s.otp.checked = true) ∧
    (∃ (s : State), (s.dram.trained = false ∨ s.mci.st ≠ .reset ∨ s.otp.checked = false)) ∧
    (∃ (b : BootSource) (s : State), s.mci.st = .boot ∧ s.boot.image = 0 ∧ acceptedKeys s ≠ [] ∧
    (let u := readPushed b s; (bootLeft s).head? = some b ∧ imageOk u slotSize (sourceBytes u b) = true)) ∧
    (∃ (s : State), s.mci.st = .boot ∧ s.boot.image = 0 ∧ acceptedKeys s ≠ [] ∧ (bootLeft s).head? = some .slotA ∧
    imageOk s slotSize (sourceBytes s .slotA) = false) ∧
    (∃ (s : State), s.mci.st = .boot ∧ s.boot.image = 0 ∧ acceptedKeys s = []) ∧
    (∃ (s : State), (s.mci.st ≠ .boot ∨ s.boot.image ≠ 0)) ∧
    (∃ (s : State), s.mci.st = .boot ∧ s.boot.image = 0 ∧ acceptedKeys s ≠ [] ∧ (bootLeft s).head? = some .push ∧
    s.boot.push ≠ 0x48535550) ∧
    (∃ (s : State), s.mci.st = .boot ∧ s.boot.image = 0 ∧ acceptedKeys s ≠ [] ∧ (bootLeft s).head? = some .push ∧
    (let u := readPushed .push s; s.boot.push = 0x48535550 ∧ imageOk u slotSize u.dramRead = true)) ∧
    (∃ (s : State), s.mci.st = .boot ∧ s.boot.image = 0 ∧ acceptedKeys s ≠ [] ∧ (bootLeft s).head? = some .push ∧
    (let u := readPushed .push s; s.boot.push = 0x48535550 ∧ imageOk u slotSize u.dramRead = false)) ∧
    (∃ (s : State), s.mci.st = .boot ∧ s.boot.image ≠ 0) ∧
    (∃ (s : State), (s.mci.st ≠ .boot ∨ s.boot.image = 0)) ∧
    (∃ (rq : Req) (s : State), served 0x1601 rq s = true) ∧
    (∃ (rq : Req) (s : State), served 0x1602 rq s = true ∧ (rq.u8 0 = 1 ∨ rq.u8 0 = 2) ∧ (permitted s).testBit (rq.u8
    0 - 1) = true ∧ s.mci.st = .ready ∧ s.boot.select = none ∧ (s.mci.inUse.toNat / 16 ≠ 2 ∨ rq.u8 0 = 1)) ∧
    (∃ (rq : Req) (s : State), served 0x1602 rq s = true ∧ (permitted s).testBit (rq.u8 0 - 1) = false) ∧
    (∃ (c : Ctx) (p : Personality) (s : State), s.coreUp hostCore = true ∧ s.boot.select = some (c, p) ∧ s.mci.st =
    .ready) ∧
    (∃ (s : State), s.boot.select = none) ∧
    (∃ (rq : Req) (s : State), served 0x1603 rq s = true ∧ (let u := firmwareRead (rq.u64 0) (rq.u32 8) s; served
    0x1603 rq u = true ∧ rq.u64 0 + rq.u32 8 ≤ u.dram.cfg.usable ∧ u.boot.update = none ∧ imageOk u (min (rq.u32 8)
    slotSize) (fun o k => u.dramRead (rq.u64 0 + o) k) = true)) ∧
    (∃ (c : Ctx) (a : Nat) (n : Nat) (s : State), s.boot.update = some (c, a, n) ∧ cellsWf 0xFF s.boot.flash = true ∧
    (let u := firmwareRead a n s; u.coreUp hostCore = true)) ∧
    (∃ (s : State), s.boot.update = none) :=
  ⟨⟨{ State.reset with atoll := { State.reset.atoll with main := true } }, by decide +kernel⟩,
   ⟨live, by decide +kernel⟩,
   ⟨{ withDram State.reset with timeRuns := true }, by decide +kernel⟩,
   ⟨8, { withDram State.reset with timeRuns := true }, by decide +kernel⟩,
   ⟨live, by decide +kernel⟩,
   ⟨{ withDram State.reset with timeRuns := true, dram := { (withDram State.reset).dram with trained := true }, otp := { State.reset.otp with checked := true } },
   by decide +kernel⟩,
   ⟨live, by decide +kernel⟩,
   ⟨.slotA, flashed, by refine ⟨?_, ?_, ?_, ?_, flashed_ok⟩ <;> decide +kernel⟩,
   ⟨booting, by decide +kernel⟩,
   ⟨{ ({ live with mci := { live.mci with st := .boot } }) with otp := { live.otp with words := [⟨300, 1, 0, 0, 0, 0, 0⟩] } },
   by decide +kernel⟩,
   ⟨live, by decide +kernel⟩,
   ⟨{ pushed with boot := { pushed.boot with push := 0 } }, by decide +kernel⟩,
   ⟨pushed,
   by refine ⟨?_, ?_, ?_, ?_, ?_,
     img_ok _ _ _ (by decide +kernel) (by decide +kernel) (by decide) (by rw [img_key_hash]; decide +kernel)⟩ <;> decide +kernel⟩,
   ⟨{ booting with boot := pushed.boot }, by decide +kernel⟩,
   ⟨{ ({ live with mci := { live.mci with st := .boot } }) with boot := { live.boot with image := 3 } }, by
   decide +kernel⟩,
   ⟨live, by decide +kernel⟩,
   ⟨req [], live, by decide +kernel⟩,
   ⟨req [1],
   { live with mci := { live.mci with st := .ready, inUse := 0x34 }, otp := { live.otp with words := [⟨257, 1, 0, 0, 0, 0, 0⟩] } },
   by decide +kernel⟩,
   ⟨req [2],
   { live with mci := { live.mci with st := .ready, inUse := 0x34 }, otp := { live.otp with words := [⟨257, 1, 0, 0, 0, 0, 0⟩] } },
   by decide +kernel⟩,
   ⟨aCtx, .forge,
   { live with mci := { live.mci with st := .ready }, boot := { live.boot with select := some (aCtx, .forge) } }, by
   decide +kernel⟩,
   ⟨live, by decide +kernel⟩,
   ⟨req [0, 0, 0, 0, 0, 0, 0, 0, 193, 0, 0, 0], { pushed with held := 0 },
   by refine ⟨?_, ?_, ?_, ?_,
     img_ok _ _ _ (by decide +kernel) (by decide +kernel) (by decide +kernel) (by rw [img_key_hash]; decide +kernel)⟩ <;> decide +kernel⟩,
   ⟨aCtx, 0, 193, { live with boot := { live.boot with update := some (aCtx, 0, 193) } }, by decide +kernel⟩,
   ⟨live, by decide +kernel⟩⟩

theorem witness_RaisesAreRecorded :
    (∃ (rs : List Raise) (r : Raise), nextRaise rs = some r) ∧
    (∃ (source : Nat) (c : FClass) (held : List (Nat × FClass)), (∃ h ∈ held, sourceGroup h.1 = sourceGroup source ∧
    h.2 = c)) ∧
    (∃ (source : Nat) (c : FClass) (held : List (Nat × FClass)), (∀ h ∈ held, sourceGroup h.1 ≠ sourceGroup source ∨
    h.2 ≠ c)) ∧
    (∃ (s : State), s.flt.presented = []) ∧
    (∃ (r : Raise) (s : State), nextRaise s.flt.presented = some r ∧ r.judged = none ∧ r.fatal = false ∧ faultClass
    r.source = some .info) ∧
    (∃ (r : Raise) (s : State), nextRaise s.flt.presented = some r ∧ r.judged = none ∧ r.fatal = false ∧ faultClass
    r.source = some .degrade ∧ fences r.source = false ∧ (∀ h ∈ unacked s, sourceGroup h.1 ≠ sourceGroup r.source ∨
    h.2 ≠ .degrade) ∧ (s.frec r.source).unack = none) ∧
    (∃ (r : Raise) (s : State), s.links.length = 24 ∧ nextRaise s.flt.presented = some r ∧ r.judged = none ∧ r.fatal
    = false ∧ faultClass r.source = some .stop ∧ r.unit = none ∧ (∀ h ∈ unacked s, sourceGroup h.1 ≠ sourceGroup
    r.source ∨ h.2 ≠ .stop) ∧ (s.frec r.source).unack = none) ∧
    (∃ (r : Raise) (s : State), s.links.length = 24 ∧ nextRaise s.flt.presented = some r ∧ r.judged = none ∧ (r.fatal
    = true ∨ faultClass r.source = some .fatal)) ∧
    (∃ (s : State), (s.flt.unwritten = [] ∨ s.coreUp supervisorCore = false)) ∧
    (∃ (e : FEntry) (rest : List FEntry) (s : State), s.coreUp supervisorCore = true ∧ s.flt.unwritten = e :: rest) :=
  ⟨⟨[{ source := 67, time := 7, unit := none, detail := 0, firmware := false, forced := false, fatal := false, judged := none }],
   { source := 67, time := 7, unit := none, detail := 0, firmware := false, forced := false, fatal := false, judged := none },
   by decide +kernel⟩,
   ⟨65, .degrade, [(66, .degrade)], by decide +kernel⟩,
   ⟨65, .degrade, [(66, .stop)], by decide +kernel⟩,
   ⟨live, by decide +kernel⟩,
   ⟨{ source := 67, time := 7, unit := none, detail := 0, firmware := false, forced := false, fatal := false, judged := none },
   { live with flt := { live.flt with presented := [{ source := 67, time := 7, unit := none, detail := 0, firmware := false, forced := false, fatal := false, judged := none }] } },
   by decide +kernel⟩,
   ⟨{ source := 65, time := 7, unit := none, detail := 0, firmware := false, forced := false, fatal := false, judged := none },
   { live with flt := { live.flt with presented := [{ source := 65, time := 7, unit := none, detail := 0, firmware := false, forced := false, fatal := false, judged := none }] } },
   by decide +kernel⟩,
   ⟨{ source := 64, time := 7, unit := none, detail := 0, firmware := false, forced := false, fatal := false, judged := none },
   { live with flt := { live.flt with presented := [{ source := 64, time := 7, unit := none, detail := 0, firmware := false, forced := false, fatal := false, judged := none }] } },
   by decide +kernel⟩,
   ⟨{ source := 358, time := 7, unit := none, detail := 0, firmware := false, forced := false, fatal := false, judged := none },
   { live with flt := { live.flt with presented := [{ source := 358, time := 7, unit := none, detail := 0, firmware := false, forced := false, fatal := false, judged := none }] } },
   by decide +kernel⟩,
   ⟨live, by decide +kernel⟩,
   ⟨{ number := 0, time := 7, source := 65, cls := .degrade, eff := .stop, flags := 0, unit := 0, detail := 0 }, [],
   { live with flt := { live.flt with unwritten := [{ number := 0, time := 7, source := 65, cls := .degrade, eff := .stop, flags := 0, unit := 0, detail := 0 }] } },
   by decide +kernel⟩⟩

theorem witness_FaultsAreAcknowledged :
    (∃ (rq : Req) (qs : List Nat) (s : State), served 0x1404 rq s = true ∧ namedSources (rq.u16 0) (rq.u8 2) = some
    qs) ∧
    (∃ (rq : Req) (qs : List Nat) (s : State), served 0x1405 rq s = true ∧ namedSources (rq.u16 0) (rq.u8 2) = some
    qs) ∧
    (∃ (rq : Req) (s : State), served 0x1404 rq s = true ∧ namedSources (rq.u16 0) (rq.u8 2) = none) ∧
    (∃ (rq : Req) (s : State), served 0x1406 rq s = true ∧ rq.u8 2 ≤ 15) ∧
    (∃ (rq : Req) (s : State), served 0x1480 rq s = true ∧ (faultClass (rq.u16 0)).isSome = true) ∧
    (∃ (rq : Req) (s : State), served 0x1402 rq s = true ∧ (faultClass (rq.u16 0)).isSome = true) ∧
    (∃ (rq : Req) (s : State), served 0x1402 rq s = true ∧ (faultClass (rq.u16 0)).isSome = false) ∧
    (∃ (rq : Req) (s : State), served 0x1401 rq s = true) ∧
    (∃ (core : Nat) (s : State), core ≤ 8 ∧ s.held.getLsbD core = false ∧ s.coreUp supervisorCore = true) ∧
    (∃ (core : Nat) (s : State), (8 < core ∨ s.held.getLsbD core = true ∨ s.coreUp supervisorCore = false)) ∧
    (∃ (s : State), s.links.length = 24) ∧
    (∃ (s : State), s.timeRuns = true ∧ s.time.toNat + 2000000 < 2 ^ 64) :=
  ⟨⟨req [65, 0], [65], live, by decide +kernel⟩,
   ⟨req [65, 0], [65], live, by decide +kernel⟩,
   ⟨req [255, 255, 24], live, by decide +kernel⟩,
   ⟨req [65, 0, 15], live, by decide +kernel⟩,
   ⟨req [65, 0], live, by decide +kernel⟩,
   ⟨req [65, 0], live, by decide +kernel⟩,
   ⟨req [31, 3], live, by decide +kernel⟩,
   ⟨req [], live, by decide +kernel⟩,
   ⟨8, live, by decide +kernel⟩,
   ⟨9, live, by decide +kernel⟩,
   ⟨live, by decide +kernel⟩,
   ⟨live, by decide +kernel⟩⟩

theorem witness_OtpIsReadAndBurned :
    (∃ (b : Burn) (w : Nat) (v : BitVec 32) (rest : List (Nat × BitVec 32)) (s : State), s.coreUp supervisorCore =
    true ∧ s.otp.burn = some b ∧ b.todo = (w, v) :: rest) ∧
    (∃ (s : State), (s.otp.burn = none ∨ s.coreUp supervisorCore = false)) ∧
    (∃ (rq : Req) (s : State), served 0x1503 rq s = true ∧ (let w := rq.u16 4; (let n := rq.u8 6; rq.u32 0 =
    0x4255524E ∧ 1 ≤ n ∧ n ≤ 16 ∧ w + n ≤ 2048 ∧ otpRegion (w + n - 1) = otpRegion w ∧ (∀ p ∈ burnWords rq, p.1 <
    otpLockWord (otpRegion p.1)) ∧ s.otp.burn = none ∧ otpWindow s = true ∧ otpLocked s (otpRegion w) = true))) ∧
    (∃ (rq : Req) (s : State), served 0x1503 rq s = true ∧ (let w := rq.u16 4; (let n := rq.u8 6; rq.u32 0 =
    0x4255524E ∧ 1 ≤ n ∧ n ≤ 16 ∧ w + n ≤ 2048 ∧ otpRegion (w + n - 1) = otpRegion w ∧ (∀ p ∈ burnWords rq, p.1 <
    otpLockWord (otpRegion p.1)) ∧ s.otp.burn = none ∧ otpWindow s = true ∧ otpLocked s (otpRegion w) = false ∧ (∃ p
    ∈ burnWords rq, otpRaw s 0 p.1 &&& ~~~p.2 ≠ 0)))) ∧
    (∃ (rq : Req) (s : State), served 0x1503 rq s = true ∧ (let w := rq.u16 4; (let n := rq.u8 6; rq.u32 0 =
    0x4255524E ∧ 1 ≤ n ∧ n ≤ 16 ∧ w + n ≤ 2048 ∧ otpRegion (w + n - 1) = otpRegion w ∧ (∀ p ∈ burnWords rq, p.1 <
    otpLockWord (otpRegion p.1)) ∧ s.otp.burn = none ∧ otpWindow s = true ∧ otpLocked s (otpRegion w) = false ∧ (∀ p
    ∈ burnWords rq, otpRaw s 0 p.1 &&& ~~~p.2 = 0)))) ∧
    (∃ (rq : Req) (s : State), served 0x1504 rq s = true ∧ (let r := rq.u8 4; r < 8 ∧ rq.u32 0 = 0x4C4F434B ∧
    s.otp.burn = none ∧ otpLocked s r = false ∧ otpHeaderOk s 0 r = true ∧ s.otp.en = 0 ∧ otpWindow s = true ∧ (∀ p ∈
    digestWords r (otpDigest s 0 r), otpRaw s 0 p.1 &&& ~~~p.2 = 0))) ∧
    (∃ (rq : Req) (s : State), served 0x1505 rq s = true ∧ rq.u8 0 < 8 ∧ s.otp.burn = none ∧ otpState s (rq.u8 0) ≠
    .invalid ∧ otpWindow s = true ∧ strengthenWords s (rq.u8 0) ≠ []) ∧
    (∃ (rq : Req) (s : State), served 0x1505 rq s = true ∧ rq.u8 0 < 8 ∧ s.otp.burn = none ∧ otpState s (rq.u8 0) ≠
    .invalid ∧ otpWindow s = true ∧ strengthenWords s (rq.u8 0) = []) ∧
    (∃ (rq : Req) (s : State), served 0x1502 rq s = true ∧ 1 ≤ rq.u8 2 ∧ rq.u8 2 ≤ 32 ∧ rq.u16 0 + rq.u8 2 ≤ 2048) ∧
    (∃ (rq : Req) (s : State), served 0x1580 rq s = true ∧ 1 ≤ rq.u8 2 ∧ rq.u8 2 ≤ 32 ∧ rq.u16 0 + rq.u8 2 ≤ 2048 ∧
    rq.u8 3 ≤ 2 ∧ rq.u8 3 ≠ 1 ∧ rq.u8 4 ≤ 2 ∧ (s.part = .vm96 → rq.u8 4 = 0)) ∧
    (∃ (rq : Req) (s : State), served 0x1580 rq s = true ∧ 1 ≤ rq.u8 2 ∧ rq.u8 2 ≤ 32 ∧ rq.u16 0 + rq.u8 2 ≤ 2048 ∧
    rq.u8 3 = 1 ∧ rq.u8 4 = 0) ∧
    (∃ (rq : Req) (s : State), served 0x1501 rq s = true) ∧
    (∃ (rq : Req) (s : State), served 0x1506 rq s = true ∧ rq.u8 0 % 4 = 0 ∧ 1 ≤ rq.u8 1 ∧ rq.u8 1 ≤ 16 ∧ rq.u8 0 + 4
    * rq.u8 1 ≤ 0xC0) ∧
    (∃ (rq : Req) (s : State), served 0x1507 rq s = true ∧ rq.u8 0 % 4 = 0 ∧ rq.u8 0 < 0xC0) ∧
    (∃ (s : State), s.timeRuns = true ∧ s.mci.st = .reset ∧ s.otp.checked = false) ∧
    (∃ (s : State), (s.timeRuns = false ∨ s.mci.st ≠ .reset ∨ s.otp.checked = true)) :=
  ⟨⟨{ kind := 0, ctx := aCtx, region := 7, todo := [(1600, 5)], burned := 0, weak := 0, firstFail := none, digest := [], wordAt := 0 },
   1600, 5, [],
   { live with otp := { live.otp with burn := some { kind := 0, ctx := aCtx, region := 7, todo := [(1600, 5)], burned := 0, weak := 0, firstFail := none, digest := [], wordAt := 0 } } },
   by decide +kernel⟩,
   ⟨live, by decide +kernel⟩,
   ⟨req [0x4E, 0x52, 0x55, 0x42, 32, 1, 1, 0, 1, 0, 0, 0], { live with otp := booting.otp }, by decide +kernel⟩,
   ⟨req [0x4E, 0x52, 0x55, 0x42, 44, 1, 1, 0, 0, 0, 0, 0],
   { live with otp := { live.otp with words := [⟨300, 1, 0, 0, 0, 0, 0⟩] } }, by decide +kernel⟩,
   ⟨req [0x4E, 0x52, 0x55, 0x42, 44, 1, 1, 0, 1, 0, 0, 0],
   { live with otp := { live.otp with words := [⟨300, 1, 0, 0, 0, 0, 0⟩] } }, by decide +kernel⟩,
   ⟨req [0x4B, 0x43, 0x4F, 0x4C, 7],
   { live with otp := { live.otp with words := [⟨1536, 0x01000001, 0, 0, 0, 0, 0⟩] } }, by decide +kernel⟩,
   ⟨req [7], { live with otp := { live.otp with words := [⟨1600, 1, 0, 0, 0, 0, 0⟩] } }, by decide +kernel⟩,
   ⟨req [7], live, by decide +kernel⟩,
   ⟨req [224, 7, 32], live, by decide +kernel⟩,
   ⟨req [224, 7, 32, 2, 2], live, by decide +kernel⟩,
   ⟨req [224, 7, 32, 1, 0], live, by decide +kernel⟩,
   ⟨req [], live, by decide +kernel⟩,
   ⟨req [128, 16], live, by decide +kernel⟩,
   ⟨req [188], live, by decide +kernel⟩,
   ⟨{ State.reset with timeRuns := true }, by decide +kernel⟩,
   ⟨live, by decide +kernel⟩⟩

theorem witness_CountersSaturateAndClear :
    (∃ (c : Count), c.ovf = true) ∧
    (∃ (c : Count) (k : Nat), 2 ^ 32 - 1 < c.n + k ∧ 0 < k) ∧
    (∃ (rq : Req) (s : State), served 0x1702 rq s = true ∧ 2 ≤ rq.u8 0 ∧ rq.u8 0 ≤ 0x13 ∧ unitNamed s (rq.u8 0)
    (rq.u8 1) = true) ∧
    (∃ (rq : Req) (s : State), served 0x1702 rq s = true ∧ (rq.u8 0 < 2 ∨ 0x13 < rq.u8 0)) ∧
    (∃ (rq : Req) (s : State), served 0x1701 rq s = true) :=
  ⟨⟨{ val := 5, ovf := true }, by decide +kernel⟩,
   ⟨{ val := BitVec.ofNat 32 (2 ^ 32 - 1) }, 1, by decide +kernel⟩,
   ⟨req [0x13, 255], live, by decide +kernel⟩,
   ⟨req [0x14], live, by decide +kernel⟩,
   ⟨req [], live, by decide +kernel⟩⟩

theorem witness_EveryStepKeepsTheInvariant :
    ∃ (s : State), Safety.Inv s :=
  ⟨State.reset,
   by refine ⟨?_, ?_, ?_, ?_, ?_, ?_, ?_, ?_, ?_, by unfold Safety.mciOk; decide +kernel,
     by unfold Safety.forgeOk; decide +kernel, by unfold Safety.engineOk; decide +kernel,
     by unfold Safety.camOk; decide +kernel, by unfold Safety.lagOk; decide +kernel, by unfold Safety.dramOk; decide +kernel,
     by unfold Safety.dmaOk; decide +kernel, by unfold Safety.bldcOk; decide +kernel, by unfold Safety.clkOk; decide +kernel,
     by unfold Safety.thermOk; decide +kernel, by unfold Safety.pwrOk; decide +kernel,
     by unfold Safety.atollOk; decide +kernel, by unfold Safety.fltOk; decide +kernel,
     by unfold Safety.bootOk; decide +kernel, ?_⟩ <;> decide +kernel⟩

end Sys2Proof.Tests
end

section
/-!
The mailboxes (spec/02_mailboxes.md): replies and completions wait for the reply ring of their mailbox, events for that of
mailbox 7; posting a message writes it, advances RPL_PI and signals the vector.
-/
namespace Sys2Proof.Machine

open Sys2Proof

/-! ### What waits -/

/-- A message of a mailbox pair waits behind the others of that pair (R48). -/
theorem enqueueMsg_pair (p : Nat) (m : Msg) (s : State) (hp : p < 8) :
    enqueueMsg p m s = s.modBox p fun b => { b with waiting := b.waiting ++ [m] } :=
  if_neg (by omega)

/-- A reply to a request of a mailbox pair (R50): one message of that pair, and the request served. -/
theorem respond_pair (rq : Req) (code status : Nat) (payload : List Byte) (s : State) (hp : rq.mailbox < 8) :
    respond rq code status payload s = (undispatch rq code s).modBox rq.mailbox fun b => { b with waiting := b.waiting ++
      [{ flags := 1, seq := rq.seq, code := BitVec.ofNat 16 code, mailbox := BitVec.ofNat 8 rq.mailbox, session := 0,
         status := BitVec.ofNat 16 status, payload := payload,
         ticket := (s.mci.dispatched.find? (·.is rq code)).map (·.ticket) }] } :=
  enqueueMsg_pair _ _ _ hp

/-! ### The reply ring (R46, R48) -/

@[simp] theorem ringMoved_waiting (now : BitVec 64) (b : Mailbox) : (ringMoved now b).waiting = b.waiting := by
  unfold ringMoved; split <;> split <;> rfl

@[simp] theorem ringMoved_rplPi (now : BitVec 64) (b : Mailbox) : (ringMoved now b).rplPi = b.rplPi := by
  unfold ringMoved; split <;> split <;> rfl

@[simp] theorem ringMoved_outstanding (now : BitVec 64) (b : Mailbox) :
    (ringMoved now b).outstanding = b.outstanding := by
  unfold ringMoved; split <;> split <;> rfl

theorem replyFull_eq_false (b : Mailbox) : replyFull b = false ↔ (b.rplPi - b.rplCi).toNat ≠ 8 := by
  simp [replyFull]

/-- An unread slot of a ring that is not full is not the one that the next message takes. -/
theorem unread_slot_ne_next (i pi ci : BitVec 4) (hroom : (pi - ci).toNat < 8) (hi : (i - ci).toNat < (pi - ci).toNat) :
    i.toNat % 8 ≠ pi.toNat % 8 := by
  rw [BitVec.toNat_sub] at hroom hi
  rw [BitVec.toNat_sub] at hi
  omega

@[simp] theorem length_msg_bytes (m : Msg) (version : BitVec 8) : (m.bytes version).length = m.payload.length + 20 := by
  simp [Msg.bytes]
  omega

/-- A write of at most 256 bytes into one reply slot of a pair leaves its other slots as they are. -/
theorem cellGet_other_replySlot (slots : List Host.Cell) (p i j k : Nat) (bs : List Byte) (hw : cellsWf 0 slots = true)
    (hij : i ≠ j) (hlen : bs.length ≤ 256) (hk : k < 256) :
    cellGet 0 (cellsSet 0 slots (replySlot p j) bs) (replySlot p i + k) = cellGet 0 slots (replySlot p i + k) := by
  rw [cellGet_cellsSet 0 bs slots _ _ hw, if_neg]
  unfold replySlot
  omega

/-! ### Signals of vectors (R45) -/

theorem signal_sent (v : Nat) (s : State) : (signal v s).mci.sent =
    if !s.mci.msixOn then s.mci.sent
    else if s.mci.funcMask || (at' s.mci.msix v {}).ctrl.getLsbD 0 then s.mci.sent else s.mci.sent ++ [v] := by
  unfold signal; dsimp only; split <;> (try split) <;> rfl

theorem signal_pba (v : Nat) (s : State) : (signal v s).mci.pba =
    if !s.mci.msixOn then s.mci.pba
    else if s.mci.funcMask || (at' s.mci.msix v {}).ctrl.getLsbD 0 then s.mci.pba ||| (1#64 <<< v) else s.mci.pba := by
  unfold signal; dsimp only; split <;> (try split) <;> rfl

/-- The vector of a mailbox pair has a bit of its own in MBX_IRQ_STATUS. -/
theorem irqBit_pair (p : Nat) (hp : p < 8) : irqBit (p + 1) = p + 1 := if_pos (by omega)

/-! ### A message is posted (R48) -/

/-- The message stands in the next reply slot and RPL_PI has advanced; the vector is not signalled yet (R48). -/
def replyWritten (p : Nat) (m : Msg) (s : State) : State :=
  { s with
    mci := { s.mci with
      slots := cellsSet 0 s.mci.slots (replySlot p ((s.box p).rplPi.toNat % 8)) (m.bytes (sentVersion s false)) }
    free := s.free + 1 }.modBox p fun b => ringMoved s.time
      { b with rplPi := b.rplPi + 1, outstanding := if finalReply m then b.outstanding - 1 else b.outstanding,
               unposted := if m.flags = 1 then b.unposted.eraseP fun u => m.ticket = some u.ticket else b.unposted }

theorem replyWritten_slots (p : Nat) (m : Msg) (s : State) : (replyWritten p m s).mci.slots =
    cellsSet 0 s.mci.slots (replySlot p ((s.box p).rplPi.toNat % 8)) (m.bytes (sentVersion s false)) := by
  rw [replyWritten, State.modBox_mci_slots]

/-- The device reset of core.reset is due 1 ms after its reply (R35). -/
def resetScheduled (m : Msg) (s : State) : State :=
  if m.code = 3 && m.flags = 1 && m.status = 0 then
    { s with mci := { s.mci with resetAt := some (s.time + BitVec.ofNat 64 ticksPerMs) } } else s

/-- The four parts of posting a message. -/
theorem postMessage_parts (p : Nat) (m : Msg) (s : State) :
    postMessage p m s = releaseHeld m (signal (p + 1) (resetScheduled m (replyWritten p m s))) := rfl

/-- Only the reply of core.reset schedules a device reset. -/
theorem resetScheduled_eq_self (m : Msg) (s : State) (h : m.code ≠ 3 ∨ m.flags ≠ 1) : resetScheduled m s = s :=
  if_neg (by simp only [Bool.and_eq_true, decide_eq_true_eq]; tauto)

/-- Only the reply of HELLO releases completions. -/
theorem releaseHeld_eq_self (m : Msg) (s : State) (h : m.code ≠ 0 ∨ m.flags ≠ 1) : releaseHeld m s = s :=
  if_neg (by simp only [Bool.and_eq_true, decide_eq_true_eq]; tauto)

@[simp] theorem resetScheduled_slots (m : Msg) (s : State) : (resetScheduled m s).mci.slots = s.mci.slots := by
  unfold resetScheduled; split <;> rfl

@[simp] theorem releaseHeld_slots (m : Msg) (s : State) : (releaseHeld m s).mci.slots = s.mci.slots := by
  unfold releaseHeld; split <;> rfl

/-- But for the replies of HELLO and core.reset, posting a message writes it and signals the vector of its pair. -/
theorem postMessage_eq (p : Nat) (m : Msg) (s : State) (h : (m.code ≠ 0 ∧ m.code ≠ 3) ∨ m.flags ≠ 1) :
    postMessage p m s = signal (p + 1) (replyWritten p m s) := by
  rw [postMessage_parts, releaseHeld_eq_self m _ (by tauto), resetScheduled_eq_self m _ (by tauto)]

/-- Every message is written into slot RPL_PI mod 8, and no other byte of the slots changes with it (R48). -/
theorem postMessage_slots (p : Nat) (m : Msg) (s : State) : (postMessage p m s).mci.slots =
    cellsSet 0 s.mci.slots (replySlot p ((s.box p).rplPi.toNat % 8)) (m.bytes (sentVersion s false)) := by
  rw [postMessage_parts, releaseHeld_slots, signal_slots, resetScheduled_slots, replyWritten_slots]

section
variable (p : Nat) (m : Msg) (s : State)

theorem replyWritten_box (hl : p < s.mci.boxes.length) : (replyWritten p m s).box p = ringMoved s.time
    { s.box p with
      rplPi := (s.box p).rplPi + 1
      outstanding := if finalReply m then (s.box p).outstanding - 1 else (s.box p).outstanding
      unposted := if m.flags = 1 then (s.box p).unposted.eraseP fun u => m.ticket = some u.ticket
        else (s.box p).unposted } :=
  State.modBox_same _ _ _ hl

theorem signal_replyWritten_sent (v : Nat) : (signal v (replyWritten p m s)).mci.sent = (signal v s).mci.sent := by
  rw [signal_sent, signal_sent]; rfl

theorem signal_replyWritten_pba (v : Nat) : (signal v (replyWritten p m s)).mci.pba = (signal v s).mci.pba := by
  rw [signal_pba, signal_pba]; rfl

variable (h : (m.code ≠ 0 ∧ m.code ≠ 3) ∨ m.flags ≠ 1)
include h

/-- A message that is posted changes the command interface alone. -/
theorem postMessage_frame : { postMessage p m s with mci := s.mci, free := s.free } = s := by
  rw [postMessage_eq p m s h]
  rfl

theorem postMessage_waiting (hl : p < s.mci.boxes.length) : ((postMessage p m s).box p).waiting = (s.box p).waiting := by
  rw [postMessage_eq p m s h, signal_box, replyWritten_box p m s hl, ringMoved_waiting]

theorem postMessage_rplPi (hl : p < s.mci.boxes.length) : ((postMessage p m s).box p).rplPi = (s.box p).rplPi + 1 := by
  rw [postMessage_eq p m s h, signal_box, replyWritten_box p m s hl, ringMoved_rplPi]

theorem postMessage_outstanding (hl : p < s.mci.boxes.length) : ((postMessage p m s).box p).outstanding =
    if finalReply m then (s.box p).outstanding - 1 else (s.box p).outstanding := by
  rw [postMessage_eq p m s h, signal_box, replyWritten_box p m s hl, ringMoved_outstanding]

theorem postMessage_irq (hp : p < 8) : (postMessage p m s).mci.irq = s.mci.irq ||| (1#32 <<< (p + 1)) := by
  rw [postMessage_eq p m s h, signal_irq, irqBit_pair p hp]
  rfl

theorem postMessage_sent : (postMessage p m s).mci.sent = (signal (p + 1) s).mci.sent := by
  rw [postMessage_eq p m s h, signal_replyWritten_sent]

theorem postMessage_pba : (postMessage p m s).mci.pba = (signal (p + 1) s).mci.pba := by
  rw [postMessage_eq p m s h, signal_replyWritten_pba]

theorem postMessage_dispatched : (postMessage p m s).mci.dispatched = s.mci.dispatched := by
  rw [postMessage_eq p m s h, signal_dispatched]
  rfl

theorem postMessage_events : (postMessage p m s).mci.events = s.mci.events := by
  rw [postMessage_eq p m s h, signal_events]
  rfl

end

/-! ### REPLY_POST, REPLY_CI_ADVANCE and EVENT_POST -/

theorem exec_replyPost (p : Nat) (s : State) : exec (.replyPost p) s = execReplyPost p s := by rfl

theorem exec_replyCiAdvance (p : Nat) (value : BitVec 32) (s : State) :
    exec (.replyCiAdvance p value) s = execReplyCiAdvance p value s := by rfl

theorem exec_eventPost (code : BitVec 16) (payload : List Byte) (s : State) :
    exec (.eventPost code payload) s = execEventPost code payload s := by rfl

/-- The oldest reply that waits is taken out of the pair's queue. -/
def replyTaken (p : Nat) (rest : List Msg) (s : State) : State := s.modBox p fun b => { b with waiting := rest }

/-- REPLY_POST takes the oldest message that waits, where the ring has room. -/
theorem execReplyPost_reply (p : Nat) (m : Msg) (rest : List Msg) (s : State) (hp : p < 8) (hs : pairsServed s = true)
    (hroom : ((s.box p).rplPi - (s.box p).rplCi).toNat ≠ 8) (hw : (s.box p).waiting = m :: rest) :
    execReplyPost p s = .next (postMessage p m (replyTaken p rest s)) := by
  simp [execReplyPost, Nat.not_le_of_lt hp, (replyFull_eq_false _).mpr hroom, hs, hw, replyTaken]

/-- On mailbox 7 the oldest event follows where no reply waits (R73). -/
theorem execReplyPost_event (m : Msg) (rest : List Msg) (s : State) (hs : pairsServed s = true)
    (hroom : ((s.box 7).rplPi - (s.box 7).rplCi).toNat ≠ 8) (hw : (s.box 7).waiting = []) (he : s.mci.events = m :: rest) :
    execReplyPost 7 s = .next (postMessage 7 m { s with mci := { s.mci with events := rest } }) := by
  simp [execReplyPost, (replyFull_eq_false _).mpr hroom, hs, hw, he]

/-- While the reply ring is full, replies and events wait (R48). -/
theorem execReplyPost_full (p : Nat) (s : State) (h : ((s.box p).rplPi - (s.box p).rplCi).toNat = 8) :
    execReplyPost p s = .next s := by
  simp [execReplyPost, replyFull, h]

/-- Where the pairs are not served, REPLY_POST does nothing (R20, R44). -/
theorem execReplyPost_unserved (p : Nat) (s : State) (hs : pairsServed s = false) : execReplyPost p s = .next s := by
  simp [execReplyPost, hs]

section
variable (p : Nat) (rest : List Msg) (s : State)

theorem replyTaken_box (hl : p < s.mci.boxes.length) :
    (replyTaken p rest s).box p = { s.box p with waiting := rest } := State.modBox_same _ _ _ hl

theorem signal_replyTaken_sent (v : Nat) : (signal v (replyTaken p rest s)).mci.sent = (signal v s).mci.sent := by
  rw [signal_sent, signal_sent]; rfl

theorem signal_replyTaken_pba (v : Nat) : (signal v (replyTaken p rest s)).mci.pba = (signal v s).mci.pba := by
  rw [signal_pba, signal_pba]; rfl

end

/-- A mailbox with a message that waits is one of the device's. -/
theorem lt_boxes_length_of_waiting (p : Nat) (m : Msg) (rest : List Msg) (s : State) (hw : (s.box p).waiting = m :: rest) :
    p < s.mci.boxes.length := by
  by_contra hl
  have hdflt : s.box p = {} := List.getD_eq_default _ _ (Nat.le_of_not_lt hl)
  simp [hdflt] at hw

/-- No unread reply is overwritten: REPLY_POST leaves every byte of a slot between RPL_CI and RPL_PI as it is (R48). -/
theorem execReplyPost_keeps_unread (p : Nat) (m : Msg) (rest : List Msg) (i : BitVec 4) (s : State) (hp : p < 8)
    (hwf : cellsWf 0 s.mci.slots = true) (hw : (s.box p).waiting = m :: rest) (hlen : m.payload.length ≤ 236)
    (hroom : ((s.box p).rplPi - (s.box p).rplCi).toNat < 8)
    (hi : (i - (s.box p).rplCi).toNat < ((s.box p).rplPi - (s.box p).rplCi).toNat) :
    ∃ t, execReplyPost p s = .next t ∧ ∀ k, k < 256 →
      cellGet 0 t.mci.slots (replySlot p (i.toNat % 8) + k) = cellGet 0 s.mci.slots (replySlot p (i.toNat % 8) + k) := by
  cases hs : pairsServed s with
  | false => exact ⟨s, execReplyPost_unserved p s hs, fun _ _ => rfl⟩
  | true =>
    refine ⟨_, execReplyPost_reply p m rest s hp hs (Nat.ne_of_lt hroom) hw, fun k hk => ?_⟩
    rw [postMessage_slots, replyTaken_box p rest s (lt_boxes_length_of_waiting p m rest s hw)]
    exact cellGet_other_replySlot _ p _ _ k _ hwf (unread_slot_ne_next i _ _ hroom hi)
      (by rw [length_msg_bytes]; omega) hk

/-- Settles O4: a reply is one more message of its pair's queue, and posting writes the queue's front into the slot at
RPL_PI, which no unread reply holds while the ring has room. -/
theorem repliesWaitAndArePosted : Obligations.RepliesWaitAndArePosted := by
  unfold Obligations.RepliesWaitAndArePosted
  refine ⟨?reply, ?checks, ?held, ?post, ?unread, ?full, ?hostReads⟩
  case reply =>
    intro rq code status payload s hp hl
    dsimp only
    rw [respond_pair rq code status payload s hp]
    exact ⟨State.modBox_same _ _ _ hl, fun q hq => State.modBox_ne _ _ _ q hq.symm, rfl, rfl⟩
  case checks =>
    intro code rq checks k s hs
    refine ⟨?_, command_pass code rq checks k s hs⟩
    rintro before after status rfl hb
    exact command_fail code rq before after status k s hs hb
  case held => exact command_held
  case post =>
    intro p m rest s hp hl hs hroom hw h0 h3
    have hplain : (m.code ≠ 0 ∧ m.code ≠ 3) ∨ m.flags ≠ 1 := Or.inl ⟨h0, h3⟩
    have hbox := replyTaken_box p rest s hl
    have hl' : p < (replyTaken p rest s).mci.boxes.length := by simpa [replyTaken] using hl
    refine ⟨_, (exec_replyPost p s).trans (execReplyPost_reply p m rest s hp hs hroom hw), ?waits, ?rplPi, ?slots, ?ends,
      postMessage_irq p m _ hplain hp, ?sent, ?pba, postMessage_dispatched p m _ hplain, ?frame⟩
    case waits => rw [postMessage_waiting p m _ hplain hl', hbox]
    case rplPi => rw [postMessage_rplPi p m _ hplain hl', hbox]
    case slots => rw [postMessage_slots, hbox]; rfl
    case ends => rw [postMessage_outstanding p m _ hplain hl', hbox]
    case sent => rw [postMessage_sent p m _ hplain, signal_replyTaken_sent]
    case pba => rw [postMessage_pba p m _ hplain, signal_replyTaken_pba]
    case frame =>
      exact congrArg (fun t : State => { t with mci := s.mci }) (postMessage_frame p m (replyTaken p rest s) hplain)
  case unread => exact execReplyPost_keeps_unread
  case full => exact execReplyPost_full
  case hostReads => exact exec_replyCiAdvance

/-! ### Events and completions (R37, R73) -/

/-- The event that `queueEvent` holds for mailbox 7. -/
def eventMsg (code : Nat) (payload : List Byte) (s : State) : Msg :=
  { flags := 4, seq := s.mci.eventSeq, code := BitVec.ofNat 16 code, mailbox := 7, session := 0, status := 0,
    payload := payload }

/-- While fewer than 256 events are pending, one more takes the next event sequence. -/
theorem queueEvent_room (code : Nat) (payload : List Byte) (s : State) (h : s.mci.events.length < 256) :
    queueEvent code payload s = { s with mci := { s.mci with
      events := s.mci.events ++ [eventMsg code payload s], eventSeq := s.mci.eventSeq + 1 } } :=
  if_neg (Nat.not_le_of_lt h)

/-- An event beyond 256 is dropped: it is counted, and vector 12 is signalled. -/
theorem queueEvent_full (code : Nat) (payload : List Byte) (s : State) (h : 256 ≤ s.mci.events.length) :
    queueEvent code payload s = signal 12 { s with mci := { s.mci with eventDrops := s.mci.eventDrops.inc } } :=
  if_pos h

/-- The completion of a request (R72). -/
def completionMsg (flags : BitVec 8) (c : Ctx) (status : Nat) (payload : List Byte) : Msg :=
  { flags := flags, seq := c.seq, code := c.code, mailbox := BitVec.ofNat 8 c.mailbox, session := 0,
    status := BitVec.ofNat 16 status, payload := payload }

/-- A request whose completion is kept for mailbox 7 is an orphan no more. -/
def orphanTaken (c : Ctx) (s : State) : State := { s with mci := { s.mci with orphans := s.mci.orphans.erase c } }

/-- With no host link reset since its request, a completion waits like a reply. -/
theorem complete_current (c : Ctx) (status : Nat) (payload : List Byte) (s : State) (he : c.era = s.mci.era) :
    complete c status payload s = enqueueMsg c.mailbox (completionMsg 3 c status payload) s :=
  if_pos he

/-- An orphan's completion waits for mailbox 7, or is held until the first HELLO after the reset (R37). -/
theorem complete_orphan (c : Ctx) (status : Nat) (payload : List Byte) (s : State) (he : c.era ≠ s.mci.era)
    (ho : c ∈ s.mci.orphans) : complete c status payload s =
      if s.mci.helloSince then enqueueMsg 7 (completionMsg 7 c status payload) (orphanTaken c s)
      else { orphanTaken c s with mci := { (orphanTaken c s).mci with
        heldCompletions := s.mci.heldCompletions ++ [completionMsg 7 c status payload] } } := by
  unfold complete
  rw [if_neg he, if_pos (List.contains_iff_mem.mpr ho)]
  rfl

/-- Settles O5: an event is queued or dropped by the number of pending ones, posting takes the oldest where no reply waits,
and a completion is queued whatever the number of messages before it. -/
theorem eventsOfMailboxSeven : Obligations.EventsOfMailboxSeven := by
  unfold Obligations.EventsOfMailboxSeven
  refine ⟨?held, ?dropped, ?posted, ?completions⟩
  case held =>
    intro code payload s h
    rw [exec_eventPost, execEventPost, queueEvent_room _ _ _ h, eventMsg, BitVec.ofNat_toNat, BitVec.setWidth_eq]
  case dropped =>
    intro code payload s h
    rw [exec_eventPost, execEventPost, queueEvent_full _ _ _ h]
    exact ⟨_, rfl, signal_events 12 _, signal_drops 12 _, signal_irq 12 _, rfl⟩
  case posted =>
    intro m rest s hl hs hroom hw he hf
    have hplain : (m.code ≠ 0 ∧ m.code ≠ 3) ∨ m.flags ≠ 1 := Or.inr (by rw [hf]; decide)
    exact ⟨_, (exec_replyPost 7 s).trans (execReplyPost_event m rest s hs hroom hw he), postMessage_events 7 m _ hplain,
      postMessage_rplPi 7 m _ hplain hl, postMessage_slots 7 m _, postMessage_irq 7 m _ hplain (by decide),
      postMessage_dispatched 7 m _ hplain,
      congrArg (fun t : State => { t with mci := s.mci }) (postMessage_frame 7 m _ hplain)⟩
  case completions =>
    intro c status payload s hc
    refine ⟨fun he => ?current, fun he ho hno => ?before, fun he ho hyes hl => ?after⟩
    case current => rw [complete_current c status payload s he, enqueueMsg_pair _ _ _ hc]; rfl
    case before => rw [complete_orphan c status payload s he ho, hno]; rfl
    case after =>
      have hl7 : 7 < (orphanTaken c s).mci.boxes.length :=
        hl.symm ▸ (by decide : 7 < 8)
      rw [complete_orphan c status payload s he ho, if_pos hyes, enqueueMsg_pair _ _ _ (by decide),
        State.modBox_same _ _ _ hl7]
      rfl

end Sys2Proof.Machine
end

section
/-!
Whole-machine rules. Every operation keeps the queue, the part, the OTP bits and the invariant (Laws/Keeps.lean and the files
after it say so of each); so exec keeps them of every command, and step of the state whose front command it has taken.
-/
namespace Sys2Proof.Machine

open Sys2Proof

/-- Every command completes and keeps what every operation keeps. -/
theorem exec_keeps (i : Instr) (s : State) : KeepsOut s (exec i s) :=
  match i with
  | .requestDoorbell path p value => execRequestDoorbell_keeps s path p value s (keeps_refl s)
  | .requestConsume p => execRequestConsume_keeps s p s (keeps_refl s)
  | .replyPost p => execReplyPost_keeps s p s (keeps_refl s)
  | .replyCiAdvance p value => execReplyCiAdvance_keeps s p value s (keeps_refl s)
  | .eventPost code payload => execEventPost_keeps s code payload s (keeps_refl s)
  | .mciReplyLate p seq => execMciReplyLate_keeps s p seq s (keeps_refl s)
  | .sessionIdleTimeout p => execSessionIdleTimeout_keeps s p s (keeps_refl s)
  | .urgentGo value => execUrgentGo_keeps s value s (keeps_refl s)
  | .urgentReplyPost => execUrgentReplyPost_keeps s s (keeps_refl s)
  | .msixVectorUnmask v => execMsixVectorUnmask_keeps s v s (keeps_refl s)
  | .registerWrite path win offset data => execRegisterWrite_keeps s path win offset data s (keeps_refl s)
  | .hostLinkReset => execHostLinkReset_keeps s s (keeps_refl s)
  | .hello rq => execHello_keeps s rq s (keeps_refl s)
  | .coreInfo rq => execCoreInfo_keeps s rq s (keeps_refl s)
  | .corePing rq => execCorePing_keeps s rq s (keeps_refl s)
  | .coreReset rq => execCoreReset_keeps s rq s (keeps_refl s)
  | .coreSessionOpen rq => execCoreSessionOpen_keeps s rq s (keeps_refl s)
  | .coreSessionClose rq => execCoreSessionClose_keeps s rq s (keeps_refl s)
  | .coreVlogRead rq => execCoreVlogRead_keeps s rq s (keeps_refl s)
  | .urgentStop rq => execUrgentStop_keeps s rq s (keeps_refl s)
  | .urgentHalt rq => execUrgentHalt_keeps s rq s (keeps_refl s)
  | .urgentRelease rq => execUrgentRelease_keeps s rq s (keeps_refl s)
  | .timebaseSourceSet rq => execTimebaseSourceSet_keeps s rq s (keeps_refl s)
  | .timebaseSourceStatus rq => execTimebaseSourceStatus_keeps s rq s (keeps_refl s)
  | .timebaseSyncConfig rq => execTimebaseSyncConfig_keeps s rq s (keeps_refl s)
  | .timebaseFilterRaw rq => execTimebaseFilterRaw_keeps s rq s (keeps_refl s)
  | .edgeCapture source e => execEdgeCapture_keeps s source e s (keeps_refl s)
  | .trackerEdgeUpdate source => execTrackerEdgeUpdate_keeps s source s (keeps_refl s)
  | .sourceLostTimeout source => execSourceLostTimeout_keeps s source s (keeps_refl s)
  | .syncFrameStart => execSyncFrameStart_keeps s s (keeps_refl s)
  | .syncSlotReceive dev slot => execSyncSlotReceive_keeps s dev slot s (keeps_refl s)
  | .syncMasterSilent => execSyncMasterSilent_keeps s s (keeps_refl s)
  | .syncPeerSilent dev => execSyncPeerSilent_keeps s dev s (keeps_refl s)
  | .syncJoinMeasure offset => execSyncJoinMeasure_keeps s offset s (keeps_refl s)
  | .syncJoinEcho => execSyncJoinEcho_keeps s s (keeps_refl s)
  | .syncJoinDeadline => execSyncJoinDeadline_keeps s s (keeps_refl s)
  | .laneMap rq => execLaneMap_keeps s rq s (keeps_refl s)
  | .linkConfig rq => execLinkConfig_keeps s rq s (keeps_refl s)
  | .linkStatus rq => execLinkStatus_keeps s rq s (keeps_refl s)
  | .laneGateRelease rq => execLaneGateRelease_keeps s rq s (keeps_refl s)
  | .linkConfigRaw rq => execLinkConfigRaw_keeps s rq s (keeps_refl s)
  | .gateReleaseAt link => execGateReleaseAt_keeps s link s (keeps_refl s)
  | .commaLock link => execCommaLock_keeps s link s (keeps_refl s)
  | .capReplyReceive link payload => execCapReplyReceive_keeps s link payload s (keeps_refl s)
  | .ackReceive link ctype payload => execAckReceive_keeps s link ctype payload s (keeps_refl s)
  | .probeEchoReceive link payload roundTrip => execProbeEchoReceive_keeps s link payload roundTrip s (keeps_refl s)
  | .telemetryReceive link payload => execTelemetryReceive_keeps s link payload s (keeps_refl s)
  | .statusReceive link bits => execStatusReceive_keeps s link bits s (keeps_refl s)
  | .backchannelCodeError link => execBackchannelCodeError_keeps s link s (keeps_refl s)
  | .resyncRelock link => execResyncRelock_keeps s link s (keeps_refl s)
  | .ackTimeout link => execAckTimeout_keeps s link s (keeps_refl s)
  | .capReplyTimeout link => execCapReplyTimeout_keeps s link s (keeps_refl s)
  | .telemetryTimeout link => execTelemetryTimeout_keeps s link s (keeps_refl s)
  | .commaLossTimeout link => execCommaLossTimeout_keeps s link s (keeps_refl s)
  | .linkTrainDeadline link => execLinkTrainDeadline_keeps s link s (keeps_refl s)
  | .linkRetrainTimer link => execLinkRetrainTimer_keeps s link s (keeps_refl s)
  | .violationWindowStart => execViolationWindowStart_keeps s s (keeps_refl s)
  | .timesyncSend link => execTimesyncSend_keeps s link s (keeps_refl s)
  | .keepaliveSend link => execKeepaliveSend_keeps s link s (keeps_refl s)
  | .gateWordRepeat link => execGateWordRepeat_keeps s link s (keeps_refl s)
  | .nstopFall widthNs => execNstopFall_keeps s widthNs s (keeps_refl s)
  | .nstopRise widthNs => execNstopRise_keeps s widthNs s (keeps_refl s)
  | .eventQueue lane e => execEventQueue_keeps s lane e s (keeps_refl s)
  | .weirHandoff lane => execWeirHandoff_keeps s lane s (keeps_refl s)
  | .runaheadConfig rq => execRunaheadConfig_keeps s rq s (keeps_refl s)
  | .runaheadStatus rq => execRunaheadStatus_keeps s rq s (keeps_refl s)
  | .runaheadRollbackForce rq => execRunaheadRollbackForce_keeps s rq s (keeps_refl s)
  | .forgeVectorAdmit head => execForgeVectorAdmit_keeps s head s (keeps_refl s)
  | .tileAdmissionCheckDone handle => execTileAdmissionCheckDone_keeps s handle s (keeps_refl s)
  | .rollbackComplete durationNs => execRollbackComplete_keeps s durationNs s (keeps_refl s)
  | .rollbackOvertime => execRollbackOvertime_keeps s s (keeps_refl s)
  | .unitReady u => execUnitReady_keeps s u s (keeps_refl s)
  | .pressStationConfig rq => execPressStationConfig_keeps s rq s (keeps_refl s)
  | .pressBeamTable rq => execPressBeamTable_keeps s rq s (keeps_refl s)
  | .pressPixelTable rq => execPressPixelTable_keeps s rq s (keeps_refl s)
  | .pressDeltaTable rq => execPressDeltaTable_keeps s rq s (keeps_refl s)
  | .pressDeltaTableLoaded station host => execPressDeltaTableLoaded_keeps s station host s (keeps_refl s)
  | .pressDeltaStatus rq => execPressDeltaStatus_keeps s rq s (keeps_refl s)
  | .pressDeltaClear rq => execPressDeltaClear_keeps s rq s (keeps_refl s)
  | .pressStationStatus rq => execPressStationStatus_keeps s rq s (keeps_refl s)
  | .pressBeamForceDead rq => execPressBeamForceDead_keeps s rq s (keeps_refl s)
  | .armedJobNoTrack station => execArmedJobNoTrack_keeps s station s (keeps_refl s)
  | .pressMediaConfig rq => execPressMediaConfig_keeps s rq s (keeps_refl s)
  | .pressPageSubmit rq => execPressPageSubmit_keeps s rq s (keeps_refl s)
  | .pressPageAbort rq => execPressPageAbort_keeps s rq s (keeps_refl s)
  | .pressInterlockAssign rq => execPressInterlockAssign_keeps s rq s (keeps_refl s)
  | .pressBiasConfig rq => execPressBiasConfig_keeps s rq s (keeps_refl s)
  | .pressFuserConfig rq => execPressFuserConfig_keeps s rq s (keeps_refl s)
  | .pressBiasRaw rq => execPressBiasRaw_keeps s rq s (keeps_refl s)
  | .gpiInputEdge input level => execGpiInputEdge_keeps s input level s (keeps_refl s)
  | .interlockDebounceExpiry input => execInterlockDebounceExpiry_keeps s input s (keeps_refl s)
  | .biasRangeTimeout channel => execBiasRangeTimeout_keeps s channel s (keeps_refl s)
  | .heaterDecision heater crossing => execHeaterDecision_keeps s heater crossing s (keeps_refl s)
  | .heaterGatePulse heater => execHeaterGatePulse_keeps s heater s (keeps_refl s)
  | .fuserTempRead heater counts => execFuserTempRead_keeps s heater counts s (keeps_refl s)
  | .forgeHeadConfig rq => execForgeHeadConfig_keeps s rq s (keeps_refl s)
  | .forgeProgramLoad rq => execForgeProgramLoad_keeps s rq s (keeps_refl s)
  | .forgeProgramCheckDone slot => execForgeProgramCheckDone_keeps s slot s (keeps_refl s)
  | .forgeLayerRecoat rq => execForgeLayerRecoat_keeps s rq s (keeps_refl s)
  | .recoatTimeout => execRecoatTimeout_keeps s s (keeps_refl s)
  | .forgeLayerArm rq => execForgeLayerArm_keeps s rq s (keeps_refl s)
  | .forgeLayerExpose rq => execForgeLayerExpose_keeps s rq s (keeps_refl s)
  | .forgeLayerPause rq => execForgeLayerPause_keeps s rq s (keeps_refl s)
  | .forgeLayerResume rq => execForgeLayerResume_keeps s rq s (keeps_refl s)
  | .forgeLayerAbort rq => execForgeLayerAbort_keeps s rq s (keeps_refl s)
  | .forgeLayerStatus rq => execForgeLayerStatus_keeps s rq s (keeps_refl s)
  | .forgeInterlockAssign rq => execForgeInterlockAssign_keeps s rq s (keeps_refl s)
  | .forgeHeadJog rq => execForgeHeadJog_keeps s rq s (keeps_refl s)
  | .fenceTimeout head => execFenceTimeout_keeps s head s (keeps_refl s)
  | .graceExpiry input => execGraceExpiry_keeps s input s (keeps_refl s)
  | .forgeStraitConfig rq => execForgeStraitConfig_keeps s rq s (keeps_refl s)
  | .forgeStraitStatus rq => execForgeStraitStatus_keeps s rq s (keeps_refl s)
  | .forgeStraitRetire rq => execForgeStraitRetire_keeps s rq s (keeps_refl s)
  | .forgeMeltpoolConfig rq => execForgeMeltpoolConfig_keeps s rq s (keeps_refl s)
  | .forgeMeltpoolStatus rq => execForgeMeltpoolStatus_keeps s rq s (keeps_refl s)
  | .forgePermitConfig rq => execForgePermitConfig_keeps s rq s (keeps_refl s)
  | .forgePowerCap rq => execForgePowerCap_keeps s rq s (keeps_refl s)
  | .forgeMeltpoolRaw rq => execForgeMeltpoolRaw_keeps s rq s (keeps_refl s)
  | .straitCheck => execStraitCheck_keeps s s (keeps_refl s)
  | .straitWaitMaxExpiry head => execStraitWaitMaxExpiry_keeps s head s (keeps_refl s)
  | .straitTimeoutExpiry head => execStraitTimeoutExpiry_keeps s head s (keeps_refl s)
  | .plumeHoldExpiry head => execPlumeHoldExpiry_keeps s head s (keeps_refl s)
  | .straitReassignmentIssue => execStraitReassignmentIssue_keeps s s (keeps_refl s)
  | .meltpoolSignalLost head => execMeltpoolSignalLost_keeps s head s (keeps_refl s)
  | .cameraFeatureStale head => execCameraFeatureStale_keeps s head s (keeps_refl s)
  | .controlRecipeLoad rq => execControlRecipeLoad_keeps s rq s (keeps_refl s)
  | .controlRecipeLoadDone => execControlRecipeLoadDone_keeps s s (keeps_refl s)
  | .controlPidSet rq => execControlPidSet_keeps s rq s (keeps_refl s)
  | .controlLoopBind rq => execControlLoopBind_keeps s rq s (keeps_refl s)
  | .controlLoopSet rq => execControlLoopSet_keeps s rq s (keeps_refl s)
  | .controlGroupSet rq => execControlGroupSet_keeps s rq s (keeps_refl s)
  | .controlLoopStatus rq => execControlLoopStatus_keeps s rq s (keeps_refl s)
  | .controlRepctlStatus rq => execControlRepctlStatus_keeps s rq s (keeps_refl s)
  | .controlVarWrite rq => execControlVarWrite_keeps s rq s (keeps_refl s)
  | .controlStageRaw rq => execControlStageRaw_keeps s rq s (keeps_refl s)
  | .controlRepctlTableRead rq => execControlRepctlTableRead_keeps s rq s (keeps_refl s)
  | .controlRepctlTableWrite rq => execControlRepctlTableWrite_keeps s rq s (keeps_refl s)
  | .controlRepctlTableDone k host => execControlRepctlTableDone_keeps s k host s (keeps_refl s)
  | .loopEvaluation slot counts => execLoopEvaluation_keeps s slot counts s (keeps_refl s)
  | .repctlUpdate k counts => execRepctlUpdate_keeps s k counts s (keeps_refl s)
  | .cameraPortConfig rq => execCameraPortConfig_keeps s rq s (keeps_refl s)
  | .cameraStreamConfig rq => execCameraStreamConfig_keeps s rq s (keeps_refl s)
  | .cameraStatsConfig rq => execCameraStatsConfig_keeps s rq s (keeps_refl s)
  | .cameraStreamStatus rq => execCameraStreamStatus_keeps s rq s (keeps_refl s)
  | .cameraPhyRaw rq => execCameraPhyRaw_keeps s rq s (keeps_refl s)
  | .frameStartReceive port di wc ecc => execFrameStartReceive_keeps s port di wc ecc s (keeps_refl s)
  | .linePacketReceive port pkt => execLinePacketReceive_keeps s port pkt s (keeps_refl s)
  | .frameEndReceive port di wc ecc => execFrameEndReceive_keeps s port di wc ecc s (keeps_refl s)
  | .frameTimeout stream => execFrameTimeout_keeps s stream s (keeps_refl s)
  | .dphySotError port => execDphySotError_keeps s port s (keeps_refl s)
  | .memoryFrameStart => execMemoryFrameStart_keeps s s (keeps_refl s)
  | .memoryFrameProcessed => execMemoryFrameProcessed_keeps s s (keeps_refl s)
  | .lagoonStatus rq => execLagoonStatus_keeps s rq s (keeps_refl s)
  | .lagoonEccLog rq => execLagoonEccLog_keeps s rq s (keeps_refl s)
  | .lagoonTileHeader rq => execLagoonTileHeader_keeps s rq s (keeps_refl s)
  | .lagoonTileRead rq => execLagoonTileRead_keeps s rq s (keeps_refl s)
  | .lagoonTileReadDone => execLagoonTileReadDone_keeps s s (keeps_refl s)
  | .lagoonEccInject rq => execLagoonEccInject_keeps s rq s (keeps_refl s)
  | .tileHandleRequest due owner => execTileHandleRequest_keeps s due owner s (keeps_refl s)
  | .tileHandleGrant => execTileHandleGrant_keeps s s (keeps_refl s)
  | .tileFillOpen handle hdr => execTileFillOpen_keeps s handle hdr s (keeps_refl s)
  | .tileFillWrite handle offset data => execTileFillWrite_keeps s handle offset data s (keeps_refl s)
  | .tileFillClose handle => execTileFillClose_keeps s handle s (keeps_refl s)
  | .lagoonRead address reader upset => execLagoonRead_keeps s address reader upset s (keeps_refl s)
  | .lagoonScrubStep idle upset => execLagoonScrubStep_keeps s idle upset s (keeps_refl s)
  | .dramStatus rq => execDramStatus_keeps s rq s (keeps_refl s)
  | .dramEccLog rq => execDramEccLog_keeps s rq s (keeps_refl s)
  | .dramRowlog rq => execDramRowlog_keeps s rq s (keeps_refl s)
  | .dramScrubConfig rq => execDramScrubConfig_keeps s rq s (keeps_refl s)
  | .dramEccInject rq => execDramEccInject_keeps s rq s (keeps_refl s)
  | .dramRequestIssue channel enter => execDramRequestIssue_keeps s channel enter s (keeps_refl s)
  | .dramRefresh channel => execDramRefresh_keeps s channel s (keeps_refl s)
  | .dramMr4Read channel code shorter => execDramMr4Read_keeps s channel code shorter s (keeps_refl s)
  | .dramWck2dqRead channel => execDramWck2dqRead_keeps s channel s (keeps_refl s)
  | .mergeEntryWriteout block reason => execMergeEntryWriteout_keeps s block reason s (keeps_refl s)
  | .rowWindowStart => execRowWindowStart_keeps s s (keeps_refl s)
  | .dramPatrolScrubStep upset => execDramPatrolScrubStep_keeps s upset s (keeps_refl s)
  | .dmaChannelConfig rq => execDmaChannelConfig_keeps s rq s (keeps_refl s)
  | .dmaChannelDisable rq => execDmaChannelDisable_keeps s rq s (keeps_refl s)
  | .dmaChannelStatus rq => execDmaChannelStatus_keeps s rq s (keeps_refl s)
  | .dmaWindowSet rq => execDmaWindowSet_keeps s rq s (keeps_refl s)
  | .dmaChannelRaw rq => execDmaChannelRaw_keeps s rq s (keeps_refl s)
  | .dmaDescriptorPoll channel hostDesc => execDmaDescriptorPoll_keeps s channel hostDesc s (keeps_refl s)
  | .dmaDescriptorHalf channel hostData => execDmaDescriptorHalf_keeps s channel hostData s (keeps_refl s)
  | .dmaDescriptorDone channel hostData => execDmaDescriptorDone_keeps s channel hostData s (keeps_refl s)
  | .dmaBusError channel onWrite offset => execDmaBusError_keeps s channel onWrite offset s (keeps_refl s)
  | .fabricBudgetWindow => execFabricBudgetWindow_keeps s s (keeps_refl s)
  | .compressConfig rq => execCompressConfig_keeps s rq s (keeps_refl s)
  | .compressSubmit rq => execCompressSubmit_keeps s rq s (keeps_refl s)
  | .compressAbort rq => execCompressAbort_keeps s rq s (keeps_refl s)
  | .compressStatus rq => execCompressStatus_keeps s rq s (keeps_refl s)
  | .compressEngineRaw rq => execCompressEngineRaw_keeps s rq s (keeps_refl s)
  | .deflateJobStart engine => execDeflateJobStart_keeps s engine s (keeps_refl s)
  | .deflateJobEnd engine host => execDeflateJobEnd_keeps s engine host s (keeps_refl s)
  | .bldcConfig rq => execBldcConfig_keeps s rq s (keeps_refl s)
  | .bldcBusConfig rq => execBldcBusConfig_keeps s rq s (keeps_refl s)
  | .bldcStart rq => execBldcStart_keeps s rq s (keeps_refl s)
  | .bldcSpeed rq => execBldcSpeed_keeps s rq s (keeps_refl s)
  | .bldcStop rq => execBldcStop_keeps s rq s (keeps_refl s)
  | .bldcStatus rq => execBldcStatus_keeps s rq s (keeps_refl s)
  | .bldcRaw rq => execBldcRaw_keeps s rq s (keeps_refl s)
  | .bemfZeroCross motor delta forward => execBemfZeroCross_keeps s motor delta forward s (keeps_refl s)
  | .commutation motor => execCommutation_keeps s motor s (keeps_refl s)
  | .zeroCrossTimeout motor => execZeroCrossTimeout_keeps s motor s (keeps_refl s)
  | .coastStandstill motor => execCoastStandstill_keeps s motor s (keeps_refl s)
  | .listenEnd motor crossings forward delta => execListenEnd_keeps s motor crossings forward delta s (keeps_refl s)
  | .brakeListen motor crossings => execBrakeListen_keeps s motor crossings s (keeps_refl s)
  | .brakeTimeout motor => execBrakeTimeout_keeps s motor s (keeps_refl s)
  | .alignEnd motor => execAlignEnd_keeps s motor s (keeps_refl s)
  | .rampTimeout motor => execRampTimeout_keeps s motor s (keeps_refl s)
  | .driveCurrentLimit isns => execDriveCurrentLimit_keeps s isns s (keeps_refl s)
  | .overcurrentWindow motor => execOvercurrentWindow_keeps s motor s (keeps_refl s)
  | .busVoltageSample group code => execBusVoltageSample_keeps s group code s (keeps_refl s)
  | .chopperFailTimeout fail => execChopperFailTimeout_keeps s fail s (keeps_refl s)
  | .brakeCurrentLimit motor mv => execBrakeCurrentLimit_keeps s motor mv s (keeps_refl s)
  | .busBrakeStandstill motor => execBusBrakeStandstill_keeps s motor s (keeps_refl s)
  | .speedPinMeasure motor value => execSpeedPinMeasure_keeps s motor value s (keeps_refl s)
  | .speedPinLost motor => execSpeedPinLost_keeps s motor s (keeps_refl s)
  | .speedPinResume motor => execSpeedPinResume_keeps s motor s (keeps_refl s)
  | .motionAxisConfig rq => execMotionAxisConfig_keeps s rq s (keeps_refl s)
  | .motionMove rq => execMotionMove_keeps s rq s (keeps_refl s)
  | .motionStop rq => execMotionStop_keeps s rq s (keeps_refl s)
  | .motionPositionSet rq => execMotionPositionSet_keeps s rq s (keeps_refl s)
  | .motionStatus rq => execMotionStatus_keeps s rq s (keeps_refl s)
  | .motionAxisRaw rq => execMotionAxisRaw_keeps s rq s (keeps_refl s)
  | .moveComplete axis => execMoveComplete_keeps s axis s (keeps_refl s)
  | .stopRampEnd axis pulses => execStopRampEnd_keeps s axis pulses s (keeps_refl s)
  | .limitInputEdge axis positive level => execLimitInputEdge_keeps s axis positive level s (keeps_refl s)
  | .limitDebounceExpiry axis positive => execLimitDebounceExpiry_keeps s axis positive s (keeps_refl s)
  | .clockSynthConfig rq => execClockSynthConfig_keeps s rq s (keeps_refl s)
  | .clockSynthProfile rq => execClockSynthProfile_keeps s rq s (keeps_refl s)
  | .clockSynthProfileLoaded synth host => execClockSynthProfileLoaded_keeps s synth host s (keeps_refl s)
  | .clockStatus rq => execClockStatus_keeps s rq s (keeps_refl s)
  | .clockSynthRaw rq => execClockSynthRaw_keeps s rq s (keeps_refl s)
  | .referenceEdgeTimeout => execReferenceEdgeTimeout_keeps s s (keeps_refl s)
  | .referenceFrequencyCheck hz => execReferenceFrequencyCheck_keeps s hz s (keeps_refl s)
  | .pllFastUnlock loop => execPllFastUnlock_keeps s loop s (keeps_refl s)
  | .lockMonitorInclusion loop => execLockMonitorInclusion_keeps s loop s (keeps_refl s)
  | .lockDeclare loop => execLockDeclare_keeps s loop s (keeps_refl s)
  | .locksenseLow mv => execLocksenseLow_keeps s mv s (keeps_refl s)
  | .locksensePlausibilityCheck mv toggling => execLocksensePlausibilityCheck_keeps s mv toggling s (keeps_refl s)
  | .linePhaseCheck synth span => execLinePhaseCheck_keeps s synth span s (keeps_refl s)
  | .thermalUnitConfig rq => execThermalUnitConfig_keeps s rq s (keeps_refl s)
  | .thermalThermistorConfig rq => execThermalThermistorConfig_keeps s rq s (keeps_refl s)
  | .thermalStatus rq => execThermalStatus_keeps s rq s (keeps_refl s)
  | .thermalSensorForce rq => execThermalSensorForce_keeps s rq s (keeps_refl s)
  | .sensorReading sensor value => execSensorReading_keeps s sensor value s (keeps_refl s)
  | .sensorConversionTimeout sensor => execSensorConversionTimeout_keeps s sensor s (keeps_refl s)
  | .remoteReadingStale sensor => execRemoteReadingStale_keeps s sensor s (keeps_refl s)
  | .throttleStepDown unit => execThrottleStepDown_keeps s unit s (keeps_refl s)
  | .throttleStepUp unit => execThrottleStepUp_keeps s unit s (keeps_refl s)
  | .powerRailConfig rq => execPowerRailConfig_keeps s rq s (keeps_refl s)
  | .powerUp rq => execPowerUp_keeps s rq s (keeps_refl s)
  | .powerDown rq => execPowerDown_keeps s rq s (keeps_refl s)
  | .powerClear rq => execPowerClear_keeps s rq s (keeps_refl s)
  | .powerStatus rq => execPowerStatus_keeps s rq s (keeps_refl s)
  | .atollRegRead rq => execAtollRegRead_keeps s rq s (keeps_refl s)
  | .atollRegWrite rq => execAtollRegWrite_keeps s rq s (keeps_refl s)
  | .powerRailForce rq => execPowerRailForce_keeps s rq s (keeps_refl s)
  | .railUp slot sense => execRailUp_keeps s slot sense s (keeps_refl s)
  | .railPgTimeout slot => execRailPgTimeout_keeps s slot s (keeps_refl s)
  | .railSettleEnd slot => execRailSettleEnd_keeps s slot s (keeps_refl s)
  | .railDischargeEnd slot vmon => execRailDischargeEnd_keeps s slot vmon s (keeps_refl s)
  | .railFault slot sense => execRailFault_keeps s slot sense s (keeps_refl s)
  | .minOffEnd => execMinOffEnd_keeps s s (keeps_refl s)
  | .offGraceEnd => execOffGraceEnd_keeps s s (keeps_refl s)
  | .graceJobsTerminal => execGraceJobsTerminal_keeps s s (keeps_refl s)
  | .pwrbtnPress => execPwrbtnPress_keeps s s (keeps_refl s)
  | .pwrbtnForcedOff => execPwrbtnForcedOff_keeps s s (keeps_refl s)
  | .nmrAssert widthNs => execNmrAssert_keeps s widthNs s (keeps_refl s)
  | .nmrRelease straps => execNmrRelease_keeps s straps s (keeps_refl s)
  | .vbatApply => execVbatApply_keeps s s (keeps_refl s)
  | .powerOnReset straps => execPowerOnReset_keeps s straps s (keeps_refl s)
  | .supplyLost => execSupplyLost_keeps s s (keeps_refl s)
  | .supplyReturn => execSupplyReturn_keeps s s (keeps_refl s)
  | .wakeComparatorFire n rising => execWakeComparatorFire_keeps s n rising s (keeps_refl s)
  | .rtcAlarm n => execRtcAlarm_keeps s n s (keeps_refl s)
  | .nsysfaultIn low => execNsysfaultIn_keeps s low s (keeps_refl s)
  | .lightStringConfig rq => execLightStringConfig_keeps s rq s (keeps_refl s)
  | .lightStringLevel rq => execLightStringLevel_keeps s rq s (keeps_refl s)
  | .lightStringStatus rq => execLightStringStatus_keeps s rq s (keeps_refl s)
  | .lightMatrixRaw rq => execLightMatrixRaw_keeps s rq s (keeps_refl s)
  | .lampMatrixFrame string frame heard => execLampMatrixFrame_keeps s string frame heard s (keeps_refl s)
  | .faultStatus rq => execFaultStatus_keeps s rq s (keeps_refl s)
  | .faultSourceRead rq => execFaultSourceRead_keeps s rq s (keeps_refl s)
  | .faultLogRead rq => execFaultLogRead_keeps s rq s (keeps_refl s)
  | .faultAck rq => execFaultAck_keeps s rq s (keeps_refl s)
  | .faultClear rq => execFaultClear_keeps s rq s (keeps_refl s)
  | .faultConfig rq => execFaultConfig_keeps s rq s (keeps_refl s)
  | .faultForce rq => execFaultForce_keeps s rq s (keeps_refl s)
  | .faultRaise => execFaultRaise_keeps s s (keeps_refl s)
  | .faultLogWrite => execFaultLogWrite_keeps s s (keeps_refl s)
  | .heartbeatMissing core => execHeartbeatMissing_keeps s core s (keeps_refl s)
  | .supervisorWatchdogExpiry => execSupervisorWatchdogExpiry_keeps s s (keeps_refl s)
  | .deviceReset straps burned => execDeviceReset_keeps s straps burned s (keeps_refl s)
  | .aliveToggle => execAliveToggle_keeps s s (keeps_refl s)
  | .otpStatus rq => execOtpStatus_keeps s rq s (keeps_refl s)
  | .otpRead rq => execOtpRead_keeps s rq s (keeps_refl s)
  | .otpBurn rq => execOtpBurn_keeps s rq s (keeps_refl s)
  | .otpBurnWordDone r => execOtpBurnWordDone_keeps s r s (keeps_refl s)
  | .otpFinalise rq => execOtpFinalise_keeps s rq s (keeps_refl s)
  | .otpStrengthen rq => execOtpStrengthen_keeps s rq s (keeps_refl s)
  | .otpShadowRead rq => execOtpShadowRead_keeps s rq s (keeps_refl s)
  | .otpShadowWrite rq => execOtpShadowWrite_keeps s rq s (keeps_refl s)
  | .otpMarginRead rq => execOtpMarginRead_keeps s rq s (keeps_refl s)
  | .otpStartupCheckDone => execOtpStartupCheckDone_keeps s s (keeps_refl s)
  | .dramTrainingDone failed stepFailed => execDramTrainingDone_keeps s failed stepFailed s (keeps_refl s)
  | .dramFillDone => execDramFillDone_keeps s s (keeps_refl s)
  | .bootImageLoaded source => execBootImageLoaded_keeps s source s (keeps_refl s)
  | .bootPushPoll => execBootPushPoll_keeps s s (keeps_refl s)
  | .bootReady => execBootReady_keeps s s (keeps_refl s)
  | .startupBootStatus rq => execStartupBootStatus_keeps s rq s (keeps_refl s)
  | .startupPersonalitySelect rq => execStartupPersonalitySelect_keeps s rq s (keeps_refl s)
  | .personalitySelectDone => execPersonalitySelectDone_keeps s s (keeps_refl s)
  | .startupFwUpdate rq => execStartupFwUpdate_keeps s rq s (keeps_refl s)
  | .fwUpdateDone readBackOk => execFwUpdateDone_keeps s readBackOk s (keeps_refl s)
  | .countersOverflowRead rq => execCountersOverflowRead_keeps s rq s (keeps_refl s)
  | .countersClear rq => execCountersClear_keeps s rq s (keeps_refl s)
  | .backchannelBadMessage link kind type => execBackchannelBadMessage_keeps s link kind type s (keeps_refl s)
  | .photodiodeSample channel counts => execPhotodiodeSample_keeps s channel counts s (keeps_refl s)
  | .locksenseRecover mv => execLocksenseRecover_keeps s mv s (keeps_refl s)
  | .synthLockTimeout synth => execSynthLockTimeout_keeps s synth s (keeps_refl s)
  | .vbatLow mv => execVbatLow_keeps s mv s (keeps_refl s)
  | .mainSupplyFail burned => execMainSupplyFail_keeps s burned s (keeps_refl s)
  | .pwrbtnRelease => execPwrbtnRelease_keeps s s (keeps_refl s)
  | .bar2HostAccess offset write length => execBar2HostAccess_keeps s offset write length s (keeps_refl s)
  | .systemPllLock => execSystemPllLock_keeps s s (keeps_refl s)

/-- A step answers a next state and keeps all but the command at the front of the queue. -/
theorem step_keeps (s : State) : KeepsOut { s with pending := s.pending.tail } (step s) := by
  unfold step
  cases hq : s.pending with
  | nil =>
    have hs : { s with pending := [].tail } = s := by rw [List.tail_nil, ← hq]
    rw [hs]
    exact keepsOut_next s _ (idleTick_keeps s s (keeps_refl s))
  | cons c rest => exact exec_keeps c { s with pending := rest }

/-- The invariant speaks of no command that waits. -/
theorem inv_pending (s : State) (q : List Instr) (h : Safety.Inv s) : Safety.Inv { s with pending := q } := h

/-- Settles O58: exec and step keep what every operation keeps. -/
theorem everyStepKeepsTheInvariant : Obligations.EveryStepKeepsTheInvariant := by
  unfold Obligations.EveryStepKeepsTheInvariant
  refine ⟨fun s hs => ?step, fun i s => ?exec⟩
  case step =>
    obtain ⟨t, ht, hqueue, hpart, -, hinv⟩ := step_keeps s
    exact ⟨t, ht, hinv (inv_pending s _ hs), hpart, hqueue⟩
  case exec =>
    obtain ⟨t, ht, hqueue, hpart, -, -⟩ := exec_keeps i s
    exact ⟨t, ht, hqueue, hpart⟩

/-- Settles O59: no operation loses an OTP bit, and a step is one. -/
theorem noStepClearsAnOtpBit : Obligations.NoStepClearsAnOtpBit := by
  unfold Obligations.NoStepClearsAnOtpBit
  intro s
  obtain ⟨t, ht, -, -, hotp, -⟩ := step_keeps s
  exact ⟨t, ht, hotp⟩

/-- Settles O60: the tables of the reset state are counted, and its memories are empty. -/
theorem resetMeetsTheInvariant : Obligations.ResetMeetsTheInvariant := by
  unfold Obligations.ResetMeetsTheInvariant Safety.Inv Safety.mciOk Safety.forgeOk Safety.engineOk Safety.camOk Safety.lagOk
    Safety.dramOk Safety.dmaOk Safety.bldcOk Safety.clkOk Safety.thermOk Safety.pwrOk Safety.atollOk Safety.fltOk Safety.bootOk
  decide +kernel

end Sys2Proof.Machine
end

section
/-!
What the shared operations leave unchanged: each has one frame equation, from which every field follows.
-/
namespace Sys2Proof.Machine

open Sys2Proof

/-! ### Commands without a check, and the first check that fails -/

/-- The first check that fails is the answer. -/
theorem command_turned_away (code : Nat) (rq : Req) (checks : List (Bool × Nat)) (k : State → State) (s : State) (b : Bool)
    (status : Nat) (hs : served code rq s = true) (h : checks.find? (fun c => c.1) = some (b, status)) :
    command code rq checks k s = .next (respond rq code status [] s) := by
  unfold command
  rw [if_pos hs, h]

theorem commandOf_turned_away (p : Personality) (code : Nat) (rq : Req) (checks : List (Bool × Nat)) (k : State → State)
    (s : State) (b : Bool) (status : Nat) (hs : served code rq s = true) (hp : s.mci.personality = p)
    (h : checks.find? (fun c => c.1) = some (b, status)) :
    commandOf p code rq checks k s = .next (respond rq code status [] s) := by
  unfold commandOf
  rw [if_pos (Or.inl hp), command_turned_away code rq checks k s b status hs h]

theorem command_unchecked (code : Nat) (rq : Req) (k : State → State) (s : State) (hs : served code rq s = true) :
    command code rq [] k s = .next (k s) := command_pass code rq [] k s hs (by simp)

/-! ### Replies (R50) -/

theorem enqueueMsg_frame (p : Nat) (m : Msg) (s : State) : { enqueueMsg p m s with mci := s.mci } = s := by
  unfold enqueueMsg; split <;> rfl

/-- A reply changes the command interface alone. -/
theorem respond_frame (rq : Req) (code status : Nat) (payload : List Byte) (s : State) :
    { respond rq code status payload s with mci := s.mci } = s := by
  unfold respond enqueueMsg; split <;> rfl

section
variable (rq : Req) (code status : Nat) (payload : List Byte) (s : State)

@[simp] theorem respond_links : (respond rq code status payload s).links = s.links :=
  (congrArg State.links (respond_frame rq code status payload s) :)

@[simp] theorem respond_boot : (respond rq code status payload s).boot = s.boot :=
  (congrArg State.boot (respond_frame rq code status payload s) :)

@[simp] theorem respond_time : (respond rq code status payload s).time = s.time :=
  (congrArg State.time (respond_frame rq code status payload s) :)

/-- Of the command interface a reply changes what waits and what is dispatched. -/
theorem respond_mci_frame : { (respond rq code status payload s).mci with
    boxes := s.mci.boxes, urgReply := s.mci.urgReply, dispatched := s.mci.dispatched } = s.mci := by
  unfold respond enqueueMsg; split <;> rfl

theorem respond_box (q : Nat) : ∃ ms, (respond rq code status payload s).box q =
    { s.box q with waiting := (s.box q).waiting ++ ms } := by
  unfold respond enqueueMsg
  split
  · exact ⟨[], by simp [undispatch, State.box]⟩
  · simp only [State.box, State.modBox_boxes, at'_modAt, undispatch]
    split
    · rename_i h
      exact ⟨_, by rw [← h.1]⟩
    · exact ⟨[], by simp⟩

end

/-! ### Time and grants (R29, R78) -/

theorem advance_frame (s : State) (k : Nat) :
    { s.advance k with atoll := s.atoll, time := s.time, sync := s.sync } = s := by
  unfold State.advance; dsimp only; split <;> rfl

theorem advanceTo_frame (s : State) (t : Nat) :
    { s.advanceTo t with atoll := s.atoll, time := s.time, sync := s.sync } = s := by
  unfold State.advanceTo; split
  · exact advance_frame _ _
  · rfl

theorem inWindow_frame (s : State) : { inWindow s with dma := s.dma } = s := by
  unfold inWindow renewBudgets; split <;> rfl

theorem toWindow_frame (k : Nat) (s : State) :
    { toWindow k s with dma := s.dma, atoll := s.atoll, time := s.time, sync := s.sync } = s :=
  calc { toWindow k s with dma := s.dma, atoll := s.atoll, time := s.time, sync := s.sync }
    _ = { ({ toWindow k s with dma := (s.advanceTo (windowStart k)).dma } : State) with
          dma := s.dma, atoll := s.atoll, time := s.time, sync := s.sync } := rfl
    _ = { s.advanceTo (windowStart k) with dma := s.dma, atoll := s.atoll, time := s.time, sync := s.sync } := by
      rw [toWindow, inWindow_frame]
    _ = s := congrArg (fun u : State => { u with dma := s.dma }) (advanceTo_frame s (windowStart k))

/-- A grant takes time and budget, and nothing else. -/
theorem classGrant_frame (c : Nat) (s : State) :
    { classGrant c s with dma := s.dma, atoll := s.atoll, time := s.time, sync := s.sync } = s := by
  have h1 := inWindow_frame s
  have h2 : { toWindow ((inWindow s).dma.window + 1) (inWindow s) with
      dma := s.dma, atoll := s.atoll, time := s.time, sync := s.sync } = s := by
    have h := toWindow_frame ((inWindow s).dma.window + 1) (inWindow s)
    calc _ = { ({ toWindow ((inWindow s).dma.window + 1) (inWindow s) with
          dma := (inWindow s).dma, atoll := (inWindow s).atoll, time := (inWindow s).time,
          sync := (inWindow s).sync } : State) with dma := s.dma, atoll := s.atoll, time := s.time, sync := s.sync } := rfl
      _ = { inWindow s with dma := s.dma, atoll := s.atoll, time := s.time, sync := s.sync } := by rw [h]
      _ = s := congrArg (fun u : State => { u with atoll := s.atoll, time := s.time, sync := s.sync }) h1
  unfold classGrant
  dsimp only
  split
  · exact h2
  · exact congrArg (fun u : State => { u with atoll := s.atoll, time := s.time, sync := s.sync }) h1

/-! ### Replies read back -/

/-- A field behind the first of two parts. -/
theorem leAt_append_ge (a b : List Byte) (o n : Nat) (h : a.length ≤ o) : leAt (a ++ b) o n = leAt b (o - a.length) n :=
  leAt_right a b o n h

end Sys2Proof.Machine
end

section
/-!
The mailboxes (spec/02_mailboxes.md): doorbells, the checks at consumption, the urgent mailbox, host writes, sessions, the
reads of the command interface and the host link reset.
-/
namespace Sys2Proof.Machine

open Sys2Proof

/-- Settles O1: both sides are the same command on the same state. -/
theorem stepTakesTheFront : Obligations.StepTakesTheFront := by
  unfold Obligations.StepTakesTheFront
  intro c rest s
  rfl

/-! ### Doorbells (R46, R47, R49) -/

theorem logDoorbell_logged (p code : Nat) (s : State) : Safety.Logged 0 p code s (logDoorbell p code s) := by
  obtain ⟨hentry, hcount, hnext, hirq, hframe⟩ :=
    logViolation_logged 0 p code (Config.freeNat s.free) { s with free := s.free + 1 }
  exact ⟨hentry, hcount, hnext, hirq, congrArg (fun u : State => { u with free := s.free }) hframe⟩

@[simp] theorem logDoorbell_boxes (p code : Nat) (s : State) : (logDoorbell p code s).mci.boxes = s.mci.boxes :=
  logViolation_boxes ..

@[simp] theorem logDoorbell_dispatched (p code : Nat) (s : State) :
    (logDoorbell p code s).mci.dispatched = s.mci.dispatched := logViolation_dispatched ..

section
variable (path : Path) (p : Nat) (value : BitVec 32) (s : State) (hp : p < 8)
include hp

theorem doorbell_other_path (other : Path) (hb : (s.box p).bound = some other) (hne : other ≠ path) :
    doorbell path p value s = logDoorbell p 0x09 s := by
  simp [doorbell, Nat.not_le_of_lt hp, hb, hne]

theorem doorbell_too_far (hb : (s.box p).bound = none ∨ (s.box p).bound = some path)
    (hv : 8 < (value.setWidth 4 - (s.box p).reqCi).toNat) : doorbell path p value s = logDoorbell p 0x08 s := by
  have hbound : ((s.box p).bound.isSome && decide ((s.box p).bound ≠ some path)) = false := by
    rcases hb with hb | hb <;> simp [hb]
  simp only [doorbell, Nat.not_le_of_lt hp, hbound, hv, if_true, if_false, Bool.false_eq_true]

theorem doorbell_taken (hb : (s.box p).bound = none ∨ (s.box p).bound = some path)
    (hv : (value.setWidth 4 - (s.box p).reqCi).toNat ≤ 8) :
    doorbell path p value s = s.modBox p fun b =>
      { b with reqPi := value.setWidth 4, path := path,
               outstanding := b.outstanding + (value.setWidth 4 - (s.box p).reqCi).toNat - (b.reqPi - b.reqCi).toNat,
               arrivals := (b.arrivals ++ List.replicate (value.setWidth 4 - (s.box p).reqCi).toNat path).take
                 (value.setWidth 4 - (s.box p).reqCi).toNat } := by
  have hbound : ((s.box p).bound.isSome && decide ((s.box p).bound ≠ some path)) = false := by
    rcases hb with hb | hb <;> simp [hb]
  simp only [doorbell, Nat.not_le_of_lt hp, hbound, Nat.not_lt_of_le hv, if_false, Bool.false_eq_true]

end

/-- Settles O2: a doorbell on an open path is `doorbell`, whose three outcomes the lemmas above give. -/
theorem doorbellsMoveTheRings : Obligations.DoorbellsMoveTheRings := by
  unfold Obligations.DoorbellsMoveTheRings
  have hopen (path : Path) (p : Nat) (value : BitVec 32) (s : State) (h : pathOpen s path = true) :
      exec (.requestDoorbell path p value) s = .next (doorbell path p value s) := if_pos h
  refine ⟨fun path p value s ho hp hb hv => ?taken, fun path other p value s ho hp hb hne => ?unbound,
    fun path p value s ho hp hb hv => ?far, fun p value s => rfl⟩
  case taken => rw [hopen path p value s ho, doorbell_taken path p value s hp hb hv]
  case unbound =>
    exact ⟨_, (hopen path p value s ho).trans (by rw [doorbell_other_path path p value s hp other hb hne]),
      logDoorbell_logged p 9 s, logDoorbell_boxes p 9 s⟩
  case far =>
    exact ⟨_, (hopen path p value s ho).trans (by rw [doorbell_too_far path p value s hp hb hv]),
      logDoorbell_logged p 8 s, logDoorbell_boxes p 8 s⟩

/-! ### The checks at consumption (R52 to R59) -/

/-- The next request of mailbox `p` has left its ring and is counted. -/
def requestTaken (p : Nat) (s : State) : State :=
  (s.modBox p fun b => { b with reqCi := b.reqCi + 1, consumedAt := s.time, arrivals := b.arrivals.drop 1 }).modBox p
    fun b => { b with
      consumed := b.consumed + 1
      unposted := b.unposted ++
        [{ seq := (Safety.nextHeader p s).seq, from' := s.time, late := false, ticket := b.consumed + 1 }] }

/-- E of a mailbox goes on (R52). -/
def advanceExpected (p : Nat) (s : State) : State := s.modBox p fun b => { b with expected := b.expected + 1 }

/-- What the checks make of it. -/
def nextVerdict (p : Nat) (s : State) : Verdict :=
  judge (requestTaken p s) ((requestTaken p s).box p) (Safety.nextHeader p s) (Safety.nextPayload p s)
    (((requestTaken p s).box p).reqPi - ((requestTaken p s).box p).reqCi).toNat

section
variable (p : Nat) (s : State)

theorem requestTaken_box (hl : p < s.mci.boxes.length) : (requestTaken p s).box p = { s.box p with
    reqCi := (s.box p).reqCi + 1, consumedAt := s.time, arrivals := (s.box p).arrivals.drop 1
    consumed := (s.box p).consumed + 1
    unposted := (s.box p).unposted ++
      [{ seq := (Safety.nextHeader p s).seq, from' := s.time, late := false, ticket := (s.box p).consumed + 1 }] } := by
  rw [requestTaken, State.modBox_same _ _ _ (by simpa using hl), State.modBox_same _ _ _ hl]

theorem advanceExpected_box (hl : p < s.mci.boxes.length) :
    (advanceExpected p s).box p = { s.box p with expected := (s.box p).expected + 1 } := State.modBox_same _ _ _ hl

/-- A good request of an open mailbox is treated as its verdict says. -/
theorem execRequestConsume_verdict (hc : Safety.Consumes p s) : execRequestConsume p s = .next
    (match nextVerdict p s with
     | .dispatch =>
       dispatchRequest p ((s.box p).arrivals.headD (s.box p).path) (Safety.nextHeader p s) (Safety.nextPayload p s)
         (if (Safety.nextHeader p s).code = 0 then requestTaken p s else advanceExpected p (requestTaken p s))
     | .refuse status violation pay advance =>
       let t := reject p (Safety.nextHeader p s) status pay
         (if advance then advanceExpected p (requestTaken p s) else requestTaken p s)
       if violation = 0 then t else logRequest p violation (Safety.nextHeader p s) t) := by
  obtain ⟨hp, hserved, hwait, hne, -, hwf, hcrc, -⟩ := hc
  have hgo : (decide (8 ≤ p) || !pairsServed s || helloWaits s p || decide ((s.box p).reqPi = (s.box p).reqCi)) = false := by
    simp [hp, hserved, hwait, hne]
  unfold execRequestConsume
  simp only [hgo]
  rw [if_neg (by simp)]
  refine congrArg Host.Outcome.next ?_
  unfold takeRequest
  simp only [show headerOf (s.slotBytes (requestSlot p ((s.box p).reqCi.toNat % 8)) 256) = Safety.nextHeader p s from rfl,
    hwf, show crcOk (s.slotBytes (requestSlot p ((s.box p).reqCi.toNat % 8)) 256) (Safety.nextHeader p s).length = true
      from hcrc, Bool.not_true]
  rfl

end

/-- What the checks of the sequence number say, with code and version as they must be. -/
theorem judge_of_open (s : State) (b : Mailbox) (h : Header) (payload : List Byte) (ahead : Nat) (hcode : h.code ≠ 0)
    (hhello : b.hello = true) (hver : h.version = s.mci.inUse.toNat) :
    ((b.expected - h.seq).toNat ≠ 0 → (b.expected - h.seq).toNat ≤ 64 →
      judge s b h payload ahead = .refuse Status.duplicate 0 [] false) ∧
    (64 < (b.expected - h.seq).toNat → judge s b h payload ahead = .refuse Status.sequence 4 (expectedBytes b) false) ∧
    ((b.expected - h.seq).toNat = 0 →
      judge s b h payload ahead = .dispatch ∨ ∃ st v pay, judge s b h payload ahead = .refuse st v pay true) := by
  unfold judge
  simp only [hcode, hhello, hver, if_false, Bool.not_true, ne_eq, not_true, Bool.false_eq_true]
  refine ⟨fun h0 h64 => if_pos ⟨Nat.pos_of_ne_zero h0, h64⟩, fun h64 => ?_, fun h0 => ?_⟩
  · rw [if_neg (by omega), if_pos (by omega)]
  · rw [if_neg (by omega), if_neg (by omega)]
    (repeat' split) <;> simp

theorem reject_box (p : Nat) (h : Header) (status : Nat) (payload : List Byte) (s : State) (hp : p < 8)
    (hl : p < s.mci.boxes.length) : (reject p h status payload s).box p = { s.box p with
      waiting := (s.box p).waiting ++
        [{ flags := 1, seq := h.seq, code := BitVec.ofNat 16 h.code, mailbox := BitVec.ofNat 8 p, session := 0,
           status := BitVec.ofNat 16 status, payload := payload, ticket := some (s.box p).consumed }] } := by
  rw [reject, enqueueMsg_pair _ _ _ hp, State.modBox_same _ _ _ hl]

theorem reject_mci (p : Nat) (h : Header) (status : Nat) (payload : List Byte) (s : State) (hp : p < 8) :
    (reject p h status payload s).mci.dispatched = s.mci.dispatched ∧ (reject p h status payload s).mci.vlog = s.mci.vlog := by
  rw [reject, enqueueMsg_pair _ _ _ hp]
  exact ⟨rfl, rfl⟩

@[simp] theorem logRequest_box (p code : Nat) (h : Header) (s : State) (q : Nat) :
    (logRequest p code h s).box q = s.box q := logViolation_box ..

@[simp] theorem logRequest_dispatched (p code : Nat) (h : Header) (s : State) :
    (logRequest p code h s).mci.dispatched = s.mci.dispatched := logViolation_dispatched ..

theorem requestTaken_mci (p : Nat) (s : State) :
    (requestTaken p s).mci.dispatched = s.mci.dispatched ∧ (requestTaken p s).mci.vlog = s.mci.vlog := ⟨rfl, rfl⟩

/-- A request that may be executed and whose sequence is E passes every check. -/
theorem nextVerdict_servable (p : Nat) (s : State) (hc : Safety.Consumes p s) (hl : p < s.mci.boxes.length)
    (hcode : (Safety.nextHeader p s).code ≠ 0) (hseq : (Safety.nextHeader p s).seq = (s.box p).expected)
    (hv : Safety.Servable p (Safety.nextHeader p s) s) : nextVerdict p s = .dispatch := by
  obtain ⟨-, -, -, -, hhello, -, -, hver⟩ := hc
  obtain ⟨hroom, hhalt, hexists, hexpert, hpers, hnames⟩ := hv
  unfold nextVerdict judge
  rw [requestTaken_box p s hl]
  have hm : (requestTaken p s).mci.inUse = s.mci.inUse ∧ (requestTaken p s).mci.st = s.mci.st ∧
    (requestTaken p s).mci.personality = s.mci.personality := ⟨rfl, rfl, rfl⟩
  simp only [hcode, hhello, hver, hseq, hm, BitVec.sub_self, hexists, if_false]
  rw [hseq] at hnames
  rw [if_neg (by simp), if_neg (by simp), if_neg (by simp), if_neg (by simp),
    if_neg (Nat.not_lt_of_le hroom), if_neg (by rcases hhalt with h | h <;> simp [h]), if_neg (by simp),
    if_neg (by rcases hexpert with h | h <;> simp [h]), if_neg (by rcases hpers with h | h <;> simp [h]),
    if_neg (by rcases hnames with h | h <;> simp [h])]

/-- Settles O3: the three cases of R52. -/
theorem consumptionKeepsTheSequence : Obligations.ConsumptionKeepsTheSequence := by
  unfold Obligations.ConsumptionKeepsTheSequence
  intro p s hc hl h b hcode
  obtain ⟨hp, -, -, -, hhello, -, -, hver⟩ := id hc
  have hbox := requestTaken_box p s hl
  have hlt : p < (requestTaken p s).mci.boxes.length := by simpa [requestTaken] using hl
  have hexec : exec (.requestConsume p) s = execRequestConsume p s := rfl
  obtain ⟨hdup, hseq, hin⟩ := judge_of_open (requestTaken p s) ((requestTaken p s).box p) h (Safety.nextPayload p s)
    (((requestTaken p s).box p).reqPi - ((requestTaken p s).box p).reqCi).toNat hcode (by rw [hbox]; exact hhello) hver
  have hexp : ((requestTaken p s).box p).expected = b.expected := by rw [hbox]
  rw [hexp] at hdup hseq hin
  rw [hexec, execRequestConsume_verdict p s hc]
  refine ⟨fun h0 h64 => ?duplicate, fun h64 => ?sequence, fun he => ?inOrder⟩
  case duplicate =>
    rw [show nextVerdict p s = _ from hdup h0 h64]
    refine ⟨_, rfl, ?_⟩
    simp [reject_box p _ _ _ _ hp hlt, reject_mci p _ _ _ _ hp, requestTaken_mci, hbox, Status.duplicate, h, b]
  case sequence =>
    rw [show nextVerdict p s = _ from hseq h64]
    refine ⟨_, rfl, ?_⟩
    simp [reject_box p _ _ _ _ hp hlt, reject_mci p _ _ _ _ hp, requestTaken_mci, hbox, Status.sequence, expectedBytes, h, b]
  case inOrder =>
    have hlt' : p < (advanceExpected p (requestTaken p s)).mci.boxes.length := by simpa [advanceExpected] using hlt
    have hadv := advanceExpected_box p (requestTaken p s) hlt
    rcases hin (by rw [he]; simp [b]) with hd | ⟨st, v, pay, hr⟩
    · rw [show nextVerdict p s = _ from hd]
      simp only [show (Safety.nextHeader p s).code ≠ 0 from hcode, if_false]
      refine ⟨_, rfl, ?_, ?_, fun _ => ?_⟩
      · exact congrArg Mailbox.expected (hadv.trans (by rw [hbox]))
      · exact congrArg Mailbox.reqCi (hadv.trans (by rw [hbox]))
      · simp only [dispatchRequest, hadv, hbox]
        rfl
    · rw [show nextVerdict p s = _ from hr]
      refine ⟨_, rfl, ?_, ?_, fun hs => ?_⟩
      · by_cases hz : v = 0 <;> simp [hz, reject_box p _ _ _ _ hp hlt', hadv, hbox, b]
      · by_cases hz : v = 0 <;> simp [hz, reject_box p _ _ _ _ hp hlt', hadv, hbox, b]
      · exact absurd ((nextVerdict_servable p s hc hl hcode he hs).symm.trans hr) (by simp)

end Sys2Proof.Machine
end

section
/-!
The urgent mailbox, host writes to BAR0, sessions and reads of the command interface (spec/02_mailboxes.md).
-/
namespace Sys2Proof.Machine

open Sys2Proof

/-! ### The urgent mailbox (R63 to R67) -/

theorem classGrant_mci (c : Nat) (s : State) : (classGrant c s).mci = s.mci :=
  (congrArg State.mci (classGrant_frame c s) :)

/-- A grant does not look at the command interface. -/
theorem classGrant_time_withMci (c : Nat) (m : Mci) (s : State) :
    (classGrant c { s with mci := m }).time = (classGrant c s).time := by
  have hwin : inWindow { s with mci := m } = { inWindow s with mci := m } := by unfold inWindow; split <;> rfl
  have hto (k : Nat) (u : State) : toWindow k { u with mci := m } = { toWindow k u with mci := m } := by
    unfold toWindow inWindow State.advanceTo State.advance
    (repeat' split) <;> rfl
  unfold classGrant
  simp only [hwin, hto]
  split <;> rfl

/-- What becomes of an urgent request changes no mailbox pair and no slot. -/
theorem takeUrgent_boxes_slots (s : State) :
    (takeUrgent s).mci.boxes = s.mci.boxes ∧ (takeUrgent s).mci.slots = s.mci.slots := by
  unfold takeUrgent logRequest reject enqueueMsg
  dsimp only
  (repeat' split) <;> simp_all [dispatchRequest]

/-- A good urgent request of group 0x01 is dispatched. -/
theorem takeUrgent_dispatched (s : State) (h : Safety.UrgentServable s) :
    (takeUrgent s).mci.dispatched = s.mci.dispatched ++
      [{ req := ⟨255, (headerOf (s.slotBytes urgentRequestSlot 64)).seq,
                 ((s.slotBytes urgentRequestSlot 64).drop 16).take (headerOf (s.slotBytes urgentRequestSlot 64)).length⟩
         code := BitVec.ofNat 16 (headerOf (s.slotBytes urgentRequestSlot 64)).code
         session := (headerOf (s.slotBytes urgentRequestSlot 64)).session
         time := s.time, path := .pcie, ticket := (s.box 255).consumed }] := by
  obtain ⟨hwf, hcrc, hgroup, hexists⟩ := h
  simp [takeUrgent, hwf, hcrc, hgroup, hexists, dispatchRequest]

/-- The state in which an urgent request is taken: BUSY, and the grant of the supervisor core's read has passed. -/
def urgentBusy (s : State) : State := { s with mci := { s.mci with urgBusy := true, urgDone := false } }

theorem takeUrgent_flags (s : State) :
    (takeUrgent s).mci.urgBusy = s.mci.urgBusy ∧ (takeUrgent s).mci.urgDone = s.mci.urgDone := by
  unfold takeUrgent logRequest reject enqueueMsg logViolation
  dsimp only
  (repeat' split) <;> simp_all [dispatchRequest]

theorem urgentSubmit_ignored (value : BitVec 32) (s : State) (h : value.getLsbD 0 = false ∨ s.mci.st = .reset) :
    urgentSubmit value s = s := by
  rcases h with h | h <;> simp only [urgentSubmit, h] <;> simp

theorem urgentSubmit_busy (value : BitVec 32) (s : State) (hgo : value.getLsbD 0 = true) (hst : s.mci.st ≠ .reset)
    (hb : s.mci.urgBusy = true) : urgentSubmit value s = logDoorbell 255 0x0A s := by
  simp only [urgentSubmit, hgo, hst, hb]; rfl

theorem urgentSubmit_taken (value : BitVec 32) (s : State) (hgo : value.getLsbD 0 = true) (hst : s.mci.st ≠ .reset)
    (hb : s.mci.urgBusy = false) : urgentSubmit value s =
      if s.flt.watched then takeUrgent (classGrant 0 (urgentBusy s)) else urgentBusy s := by
  simp only [urgentSubmit, hgo, hst, hb]; rfl

theorem served_group1 (code : Nat) (rq : Req) (s : State) (h : groupCore code = groupCore 0x0100) :
    served code rq s = served 0x0100 rq s := by unfold served; rw [h]

/-- Settles O6: each clause is one outcome of the urgent mailbox's operations. -/
theorem urgentMailbox : Obligations.UrgentMailbox := by
  unfold Obligations.UrgentMailbox
  have hgo (value : BitVec 32) (s : State) : exec (.urgentGo value) s = .next (urgentSubmit value s) := rfl
  refine ⟨fun value s h => ?ignored, fun value s h0 hst hb => ?busy, fun value s h0 hst hb => ?taken,
    fun m s hm => ?posted, fun rq s hs hm => ?stop, fun rq s hs hm => ?range, fun rq s hs hm => ?release,
    fun rq s hs => ?halt, fun rq s hs hm => ?reset⟩
  case ignored => rw [hgo, urgentSubmit_ignored value s h]
  case busy =>
    exact ⟨_, (hgo value s).trans (by rw [urgentSubmit_busy value s h0 hst hb]), logDoorbell_logged 255 0x0A s,
      logDoorbell_dispatched 255 0x0A s⟩
  case taken =>
    refine ⟨_, (hgo value s).trans (by rw [urgentSubmit_taken value s h0 hst hb]), ?_⟩
    have hmci := classGrant_mci 0 (urgentBusy s)
    have hslot : (classGrant 0 (urgentBusy s)).slotBytes urgentRequestSlot 64 = s.slotBytes urgentRequestSlot 64 := by
      unfold State.slotBytes; rw [hmci]; rfl
    split
    · obtain ⟨hbusy, hdone⟩ := takeUrgent_flags (classGrant 0 (urgentBusy s))
      rw [hbusy, hdone, (takeUrgent_boxes_slots _).1, hmci]
      refine ⟨rfl, rfl, rfl, fun _ hservable => ?_⟩
      have hgood : Safety.UrgentServable (classGrant 0 (urgentBusy s)) := by
        unfold Safety.UrgentServable; rw [hslot]; exact hservable
      rw [takeUrgent_dispatched _ hgood, hslot, State.box, hmci, urgentBusy, classGrant_time_withMci]
      rfl
    · exact ⟨rfl, rfl, rfl, fun hw => absurd hw (by assumption)⟩
  case posted =>
    refine ⟨_, show execUrgentReplyPost s = _ by rw [execUrgentReplyPost, hm], ?_⟩
    simp [signal, irqBit]
    (repeat' split) <;> simp
  case stop =>
    change execUrgentStop rq s = _
    refine command_pass 0x0100 rq _ _ s hs ?_
    simpa using hm
  case range =>
    change execUrgentStop rq s = _ ∧ execUrgentRelease rq s = _
    refine ⟨command_turned_away 0x0100 rq _ _ s true _ hs ?_,
      command_turned_away 0x0102 rq _ _ s true _ ((served_group1 0x0102 rq s rfl).trans hs) ?_⟩ <;> simp [hm]
  case release =>
    change ∃ ls, execUrgentRelease rq s = _ ∧ _
    refine ⟨(urgentLinks s (rq.u32 0)).filter fun l => (s.link l).causes = 2 && (s.link l).urgentOnly,
      command_pass 0x0102 rq _ _ s hs ?_, fun l => ?_⟩
    · simpa using hm
    · simp
  case halt =>
    change ∃ r, execUrgentHalt rq s = _ ∧ _
    exact ⟨{ source := 0x0020, time := s.time, unit := none, detail := 0, firmware := true, forced := false,
             fatal := false, judged := none }, by rw [execUrgentHalt, command_unchecked _ rq _ s hs], rfl, rfl, rfl⟩
  case reset =>
    change ∃ t, execCoreReset rq s = _ ∧ _
    refine ⟨_, command_pass 0x0003 rq _ _ s hs ?_, respond_links .., rfl, rfl⟩
    simpa using hm

end Sys2Proof.Machine
end

section
/-!
Host writes to BAR0, SPI transfers and MSI-X (spec/02_mailboxes.md R42 to R45).
-/
namespace Sys2Proof.Machine

open Sys2Proof

/-! ### Slots -/

/-- Bytes that all lie in request slots are stored. -/
theorem bar0Store_slots (o : Nat) (bs : List Byte) (s : State) (h : ∀ k, k < bs.length → inRequestSlot (o + k) = true) :
    bar0Store o bs s = { s with mci := { s.mci with slots := cellsSet 0 s.mci.slots o bs } } := by
  induction bs generalizing o s with
  | nil => rfl
  | cons b bs ih =>
    have h0 : inRequestSlot o = true := h 0 (by simp)
    have hrest (k : Nat) (hk : k < bs.length) : inRequestSlot (o + 1 + k) = true := by
      have := h (k + 1) (by simpa using hk)
      rwa [show o + (k + 1) = o + 1 + k by omega] at this
    rw [bar0Store, if_pos h0, ih _ _ hrest]
    rfl

/-- Bytes that all lie in request slots are no registers. -/
theorem bar0Words_slots (path : Path) (o : Nat) (bs : List Byte) (s : State)
    (h : ∀ k, k < bs.length → inRequestSlot (o + k) = true) : bar0Words path o bs s = s := by
  induction bs generalizing o s with
  | nil => rfl
  | cons b bs ih =>
    have h0 : inRequestSlot o = true := h 0 (by simp)
    have hrest (k : Nat) (hk : k < bs.length) : inRequestSlot (o + 1 + k) = true := by
      have := h (k + 1) (by simpa using hk)
      rwa [show o + (k + 1) = o + 1 + k by omega] at this
    rw [bar0Words, ih _ _ hrest, h0]
    simp

/-- An address that no request slot covers reads as before the bytes are stored. -/
theorem cellGet_bar0Store (a o : Nat) (bs : List Byte) (s : State) (hw : cellsWf 0 s.mci.slots = true)
    (ha : inRequestSlot a = false) : cellGet 0 (bar0Store o bs s).mci.slots a = cellGet 0 s.mci.slots a := by
  induction bs generalizing o s with
  | nil => rfl
  | cons b bs ih =>
    rw [bar0Store]
    split
    · rename_i hin
      rw [ih _ _ (cellSet_wf 0 _ o b hw), cellGet_cellSet 0 _ o a b hw, if_neg]
      rintro rfl
      simp [ha] at hin
    · exact ih _ _ hw

/-! ### Registers write no slot -/

theorem urgentSubmit_slots (value : BitVec 32) (s : State) : (urgentSubmit value s).mci.slots = s.mci.slots := by
  unfold urgentSubmit
  dsimp only
  split
  · rfl
  · split
    · exact logViolation_slots ..
    · split
      · rw [(takeUrgent_boxes_slots _).2, classGrant_mci]
      · rfl

theorem doorbell_slots (path : Path) (p : Nat) (value : BitVec 32) (s : State) :
    (doorbell path p value s).mci.slots = s.mci.slots := by
  unfold doorbell logDoorbell
  dsimp only
  (repeat' split) <;> simp

/-- Unmasking touches the MSI-X state alone. -/
theorem unmask_frame (v : Nat) (s : State) :
    { unmask v s with mci := s.mci } = s ∧
    { (unmask v s).mci with msix := s.mci.msix, pba := s.mci.pba, sent := s.mci.sent } = s.mci := by
  unfold unmask
  dsimp only
  split <;> exact ⟨rfl, rfl⟩

theorem unmask_slots (v : Nat) (s : State) : (unmask v s).mci.slots = s.mci.slots :=
  (congrArg Mci.slots (unmask_frame v s).2 :)

theorem msixWrite_slots (word : Nat) (value : BitVec 32) (s : State) : (msixWrite word value s).mci.slots = s.mci.slots := by
  unfold msixWrite
  dsimp only
  (repeat' split) <;> simp [unmask_slots]

theorem bar0Word_slots (path : Path) (o : Nat) (value : BitVec 32) (s : State) :
    (bar0Word path o value s).mci.slots = s.mci.slots := by
  unfold bar0Word replyRead
  dsimp only
  (repeat' split) <;> simp [urgentSubmit_slots, doorbell_slots, msixWrite_slots]

theorem bar0Words_slotsKept (path : Path) (o : Nat) (bs : List Byte) (s : State) :
    (bar0Words path o bs s).mci.slots = s.mci.slots := by
  induction bs generalizing o s with
  | nil => rfl
  | cons b bs ih =>
    rw [bar0Words, ih]
    split
    · exact bar0Word_slots ..
    · rfl

theorem cellGet_bar0Write (path : Path) (a o : Nat) (bs : List Byte) (s : State) (hw : cellsWf 0 s.mci.slots = true)
    (ha : inRequestSlot a = false) : cellGet 0 (bar0Write path o bs s).mci.slots a = cellGet 0 s.mci.slots a := by
  rw [bar0Write, bar0Words_slotsKept, cellGet_bar0Store a o bs s hw ha]

/-- Vectors that are unmasked one after the other touch the MSI-X state alone. -/
theorem unmasked_frame (vs : List Nat) (s : State) :
    let t := vs.foldl (fun s v => if (at' s.mci.msix v {}).ctrl.getLsbD 0 then s else unmask v s) s
    { t with mci := s.mci } = s ∧ { t.mci with msix := s.mci.msix, pba := s.mci.pba, sent := s.mci.sent } = s.mci := by
  induction vs generalizing s with
  | nil => exact ⟨rfl, rfl⟩
  | cons v vs ih =>
    rw [List.foldl_cons]
    split
    · exact ih s
    · obtain ⟨h1, h2⟩ := ih (unmask v s)
      obtain ⟨g1, g2⟩ := unmask_frame v s
      exact ⟨(congrArg (fun u : State => { u with mci := s.mci }) h1).trans g1,
        (congrArg (fun m : Mci => { m with msix := s.mci.msix, pba := s.mci.pba, sent := s.mci.sent }) h2).trans g2⟩

/-- Message Control sets the enable and the Function Mask, and what is unmasked is sent. -/
theorem msixControl_spec (value : BitVec 16) (s : State) :
    (msixControl value s).mci.msixOn = value.getLsbD 15 ∧ (msixControl value s).mci.funcMask = value.getLsbD 14 ∧
    (msixControl value s).mci.slots = s.mci.slots ∧ { msixControl value s with mci := s.mci } = s := by
  obtain ⟨h1, h2⟩ := unmasked_frame (List.range 64)
    { s with mci := { s.mci with msixOn := value.getLsbD 15, funcMask := value.getLsbD 14 } }
  exact ⟨(congrArg Mci.msixOn h2 :), (congrArg Mci.funcMask h2 :), (congrArg Mci.slots h2 :),
    (congrArg (fun u : State => { u with mci := s.mci }) h1 :)⟩

theorem bar2RegWrite_slots (o : Nat) (data : List Byte) (s : State) : (bar2RegWrite o data s).mci.slots = s.mci.slots := by
  unfold bar2RegWrite hstWrite
  (repeat' split) <;> rfl

/-- Over SPI, too, only request slots are written. -/
theorem cellGet_spiTransfer (a : Nat) (bytes : List Byte) (s : State) (hw : cellsWf 0 s.mci.slots = true)
    (ha : inRequestSlot a = false) : cellGet 0 (spiTransfer bytes s).mci.slots a = cellGet 0 s.mci.slots a := by
  unfold spiTransfer
  split
  · dsimp only
    (repeat' split)
    · exact cellGet_bar0Write _ _ _ _ _ hw ha
    · rfl
    · rfl
  · rfl

/-- A write of a whole register is the effect of its word. -/
theorem bar0Write_word (path : Path) (o : Nat) (a b c d : Byte) (s : State) (ho : o % 4 = 0)
    (hs : ∀ k, k < 4 → inRequestSlot (o + k) = false) :
    bar0Write path o [a, b, c, d] s = bar0Word path o (BitVec.ofNat 32 (ofLe [a, b, c, d])) s := by
  have h0 : inRequestSlot o = false := hs 0 (by decide)
  simp [bar0Write, bar0Store, bar0Words, h0, hs 1 (by decide), hs 2 (by decide), hs 3 (by decide), ho, Nat.add_assoc]

theorem getLsbD_ofLe_pair (a b : Byte) (i : Nat) (h : i < 8) :
    (BitVec.ofNat 16 (ofLe [a, b])).getLsbD (8 + i) = b.getLsbD i := by
  have hsum : BitVec.ofNat 16 (ofLe [a, b]) = b ++ a := by
    apply BitVec.eq_of_toNat_eq
    have ha := a.isLt
    have hb := b.isLt
    simp only [ofLe, BitVec.toNat_ofNat, BitVec.toNat_append, Nat.shiftLeft_eq]
    rw [Nat.mul_comm b.toNat, ← Nat.two_pow_add_eq_or_of_lt ha]
    omega
  rw [hsum, BitVec.getLsbD_append]
  simp [h]

/-- Settles O7: writes over PCIe and SPI through the lemmas on slots, words and MSI-X above. -/
theorem hostWritesToBar0 : Obligations.HostWritesToBar0 := by
  unfold Obligations.HostWritesToBar0
  have hpcie (o : Nat) (data : List Byte) (s : State) :
      exec (.registerWrite .pcie .bar0 o data) s = .next (bar0Write .pcie o data s) := rfl
  have hspi (win : RegWindow) (o : Nat) (data : List Byte) (s : State) :
      exec (.registerWrite .spi win o data) s = if pathOpen s .spi then .next (spiTransfer data s) else .next s := by
    cases win <;> rfl
  refine ⟨fun o data s h => ?stored, fun o b s h => ?part, fun a b c d s => ?word, fun path win o data s hw => ?kept,
    fun win o hi lo data s h => ?spiWrite, fun win o hi lo dummy rest s h => ?spiRead, fun win o bytes s h => ?spiOff,
    fun v s hv hon hmask hpba => ?unmasked, fun a b s => ?control⟩
  case stored => rw [hpcie, bar0Write, bar0Store_slots o data s h, bar0Words_slots _ o data _ h]
  case part => rw [hpcie, bar0Write]; simp [bar0Store, bar0Words, h]
  case word =>
    rw [hpcie, bar0Write_word _ _ _ _ _ _ _ (by decide) (by decide)]
    rfl
  case kept =>
    have hout (a : Nat) (ha : (0x0140 ≤ a ∧ a < 0x0180) ∨ (0x8000 ≤ a ∧ a < 0x10000 ∧ 0x800 ≤ a % 0x1000)) :
        inRequestSlot a = false := by
      simp only [inRequestSlot, Bool.or_eq_false_iff, Bool.and_eq_false_iff, decide_eq_false_iff_not]
      omega
    cases path with
    | spi =>
      rw [hspi]
      split
      · exact ⟨_, rfl, fun a ha => cellGet_spiTransfer a data s hw (hout a ha)⟩
      · exact ⟨_, rfl, fun _ _ => rfl⟩
    | pcie =>
      cases win with
      | bar0 => exact ⟨_, rfl, fun a ha => cellGet_bar0Write _ a o data s hw (hout a ha)⟩
      | msix => exact ⟨_, rfl, fun a _ => by rw [(msixControl_spec _ s).2.2.1]⟩
      | hst =>
        change ∃ t, (if o < 0x800 then _ else _) = _ ∧ _
        split
        · exact ⟨_, rfl, fun a _ => by rw [bar2RegWrite_slots]⟩
        · exact ⟨_, rfl, fun _ _ => rfl⟩
  case spiWrite => rw [hspi, if_pos h]; rfl
  case spiRead => exact ⟨_, (hspi win o _ s).trans (if_pos h), rfl, rfl⟩
  case spiOff => rw [hspi, h]; rfl
  case unmasked =>
    change ∃ t, (if 64 ≤ v then _ else _) = _ ∧ _
    rw [if_neg (Nat.not_le_of_lt hv)]
    refine ⟨_, rfl, ?_⟩
    simp [unmask, hon, hmask, hpba]
  case control =>
    obtain ⟨hon, hmask, -, hframe⟩ := msixControl_spec (BitVec.ofNat 16 (ofLe [a, b])) s
    exact ⟨_, rfl, hon.trans (getLsbD_ofLe_pair a b 7 (by decide)), hmask.trans (getLsbD_ofLe_pair a b 6 (by decide)), hframe⟩

end Sys2Proof.Machine
end

section
/-!
HELLO, expert sessions, core.info and the violation log (spec/02_mailboxes.md R54 to R62, R71).
-/
namespace Sys2Proof.Machine

open Sys2Proof

/-! ### Reply layouts -/

theorem length_uniqueId (s : State) : (uniqueId s).length = 8 := by
  unfold uniqueId; split <;> simp

theorem length_logFrom_le {α : Type} (num : α → BitVec 32) (first : BitVec 32) (es : List α) :
    (logFrom num first es).length ≤ 14 := by
  unfold logFrom
  cases es with
  | nil => simp
  | cons e es => exact List.length_take_le ..

/-- The reply of a log read: the head of 12 bytes and `N` entries, at most 14. -/
theorem logReply_layout {α : Type} (num : α → BitVec 32) (bytes : α → List Byte) (count : Count) (next first : BitVec 32)
    (es : List α) (hlen : ∀ e, (bytes e).length = 16) :
    leAt (logReply num bytes count next first es) 0 4 = count.n ∧
    leAt (logReply num bytes count next first es) 8 1 = (logFrom num first es).length ∧
    (logReply num bytes count next first es).length = 12 + 16 * (logFrom num first es).length ∧
    leAt (logReply num bytes count next first es) 4 4 = (((logFrom num first es).head?.map num).getD next).toNat := by
  have h14 := length_logFrom_le num first es
  have hflat (l : List α) : (l.flatMap bytes).length = 16 * l.length := by
    induction l with
    | nil => rfl
    | cons e l ih => rw [List.flatMap_cons, List.length_append, ih, hlen, List.length_cons]; omega
  have hmod := Nat.mod_eq_of_lt (BitVec.isLt (((logFrom num first es).head?.map num).getD next))
  refine ⟨?_, ?_, ?_, ?_⟩
  · simp [logReply, leAt_left, leAt_count]
  · simp only [logReply, List.append_assoc]
    simp [leAt_left, leAt_right, leAt_leBytes]
    omega
  · simp [logReply, hflat]
    omega
  · simp only [logReply, List.append_assoc]
    simpa [leAt_left, leAt_right, leAt_leBytes] using hmod

theorem length_ventry_bytes (e : VEntry) : e.bytes.length = 16 := by simp [VEntry.bytes]

/-! ### Sessions (R60) -/

/-- The next session is not 0 and no mailbox has it. -/
theorem nextSession_fresh (s : State) (i : BitVec 8) (h : nextSession s = some i) :
    i ≠ 0 ∧ ∀ q, (s.box q).session ≠ some i := by
  unfold nextSession at h
  have hmem := List.mem_of_find?_eq_some h
  have hfree := List.find?_some h
  simp only [List.mem_map, List.mem_range] at hmem
  obtain ⟨k, -, hk⟩ := hmem
  constructor
  · rintro rfl
    have := congrArg BitVec.toNat hk
    simp only [BitVec.toNat_ofNat, BitVec.ofNat_eq_ofNat] at this
    omega
  · intro q hq
    by_cases hlen : q < s.mci.boxes.length
    · have hb : s.box q ∈ s.mci.boxes := by
        unfold State.box at'
        rw [List.getD_eq_getElem _ _ hlen]
        exact List.getElem_mem hlen
      simp only [Bool.not_eq_true', List.any_eq_false, decide_eq_true_eq] at hfree
      exact hfree _ hb hq
    · have : s.box q = {} := List.getD_eq_default _ _ (Nat.le_of_not_lt hlen)
      simp [this] at hq

/-- A session is open for its mailbox. -/
def sessionOpened (rq : Req) (i : BitVec 8) (s : State) : State :=
  let t := s.modBox rq.mailbox fun b => { b with session := some i, idleS := rq.u16 4 }
  { t with mci := { t.mci with sessLast := i } }

/-! ### HELLO (R54 to R57) -/

/-- What HELLO leaves of its mailbox. -/
def helloBox (rq : Req) (s : State) (b : Mailbox) : Mailbox :=
  { b with session := none, idleS := 0, hello := true, expected := rq.seq + 1, bound := some (b.bound.getD (helloPath s rq)) }

/-- A HELLO that finds a version fixes it, reports the aborted jobs and opens its mailbox. -/
theorem hello_of_version (rq : Req) (s : State) (hl : rq.mailbox < s.mci.boxes.length)
    (hv : chosenVersion s (rq.u8 0) (rq.u8 1) ≠ 0) :
    (hello rq s).mci.inUse = BitVec.ofNat 8 (chosenVersion s (rq.u8 0) (rq.u8 1)) ∧ (hello rq s).mci.abortedJobs = 0 ∧
    (∃ ms, (hello rq s).box rq.mailbox = { helloBox rq s (s.box rq.mailbox) with waiting := (s.box rq.mailbox).waiting ++ ms }) ∧
    { hello rq s with mci := s.mci } = s := by
  unfold hello
  simp only [hv, if_false]
  refine ⟨(congrArg Mci.inUse (respond_mci_frame ..) :), (congrArg Mci.abortedJobs (respond_mci_frame ..) :), ?_,
    (congrArg (fun u : State => { u with mci := s.mci }) (respond_frame ..) :)⟩
  refine (respond_box ..).imp fun ms hms => hms.trans ?_
  have hbox : ((s.modBox rq.mailbox fun b => { b with session := none, idleS := 0 }).modBox rq.mailbox fun b =>
      { b with hello := true, expected := rq.seq + 1, bound := some (b.bound.getD (helloPath s rq)) }).box rq.mailbox =
      helloBox rq s (s.box rq.mailbox) := by
    rw [State.modBox_same _ _ _ (by simpa using hl), State.modBox_same _ _ _ hl]; rfl
  exact congrArg (fun b : Mailbox => { b with waiting := b.waiting ++ ms }) hbox

/-- Settles O8: the mailbox after HELLO and after core.session, and the layouts of the replies. -/
theorem helloSessionsAndReads : Obligations.HelloSessionsAndReads := by
  unfold Obligations.HelloSessionsAndReads
  refine ⟨fun rq s hs hl hv hb => ?hello, fun rq s hs => ?ping, fun rq s hs hl hp hmagic hidle hnone i hi => ?opened,
    fun rq s hs hsess => ?closed, fun p s hidle hup => ?idle, fun rq s hs => ?info, fun rq s hs => ?vlog,
    fun p seq u s hfull hup hu => ?late⟩
  case hello =>
    change ∃ t, execHello rq s = _ ∧ _
    obtain ⟨hver, hjobs, ⟨ms, hbox⟩, hframe⟩ := hello_of_version rq s hl hv
    refine ⟨_, by rw [execHello, hb]; exact command_unchecked _ rq _ s hs, hver, hjobs, fun _ => ?_, hframe⟩
    rw [hbox]
    exact ⟨rfl, rfl, rfl, rfl⟩
  case ping => exact command_unchecked 0x0002 rq _ s hs
  case opened =>
    change ∃ t, execCoreSessionOpen rq s = _ ∧ _
    obtain ⟨hne, hfresh⟩ := nextSession_fresh s i hi
    unfold execCoreSessionOpen
    refine ⟨_, command_pass 0x0004 rq _ _ s hs ?_, ?_⟩
    · simp [hmagic, hnone, hidle]
    rw [hi, Option.getD_some]
    obtain ⟨ms, hms⟩ := respond_box rq 0x0004 Status.ok (leBytes 1 i.toNat ++ zeros 3) (sessionOpened rq i s) rq.mailbox
    have hbox : (sessionOpened rq i s).box rq.mailbox = { s.box rq.mailbox with session := some i, idleS := rq.u16 4 } :=
      State.modBox_same _ _ _ hl
    rw [hbox] at hms
    exact ⟨(congrArg Mailbox.session hms :), (congrArg Mailbox.idleS hms :), (congrArg Mci.sessLast (respond_mci_frame ..) :),
      hfresh, hne, (congrArg (fun u : State => { u with mci := s.mci }) (respond_frame ..) :)⟩
  case closed =>
    change execCoreSessionClose rq s = _
    unfold execCoreSessionClose
    refine command_pass 0x0005 rq _ _ s hs ?_
    simp [hsess]
  case idle =>
    change execSessionIdleTimeout p s = _
    simp [execSessionIdleTimeout, hidle, pairsCore, hup, ticksPerSecond]
  case info =>
    change ∃ p, execCoreInfo rq s = _ ∧ _
    refine ⟨_, by rw [execCoreInfo]; exact command_unchecked 0x0001 rq _ s hs, ?_⟩
    simp only [List.append_assoc]
    simp [leAt_left, leAt_right, leAt_leBytes, leAt_count, length_uniqueId]
    exact ⟨by unfold State.deviceNo; split <;> decide, by unfold State.nLinks; split <;> decide, s.time.isLt⟩
  case vlog =>
    change ∃ p, execCoreVlogRead rq s = _ ∧ _
    refine ⟨_, command_unchecked 0x0006 rq _ s hs, ?_⟩
    obtain ⟨hcount, hn, hlen, hfrom⟩ := logReply_layout (fun e => e.number) VEntry.bytes s.mci.vcount s.mci.vnext
      (BitVec.ofNat 32 (rq.u32 0)) s.mci.vlog length_ventry_bytes
    rw [hcount, hn, hlen, hfrom]
    refine ⟨rfl, length_logFrom_le .., rfl, fun hnil => ?_⟩
    rw [hnil]
    exact ⟨rfl, rfl⟩
  case late =>
    change execMciReplyLate p seq s = _
    simp [execMciReplyLate, hu, hfull, pairsCore, hup]

end Sys2Proof.Machine
end

section
/-!
What an abort of a page or of the layer leaves unchanged (R161 to R163, R227), and the host link reset (R37, R74).
-/
namespace Sys2Proof.Machine

open Sys2Proof

/-! ### What aborts, gates and completions leave unchanged -/

/-- A mailbox without the messages that wait in it. -/
def emptied (b : Mailbox) : Mailbox := { b with waiting := [] }

/-- Of the command interface only what waits to be posted has changed. -/
def CalmMci (a b : Mci) : Prop :=
  { b with boxes := a.boxes, urgReply := a.urgReply, orphans := a.orphans, heldCompletions := a.heldCompletions } = a ∧
  b.boxes.map emptied = a.boxes.map emptied

/-- Only the beam units, the tiles, what is presented and what waits to be posted have changed: time, the supply, the
OTP array, the fault records and all other units are as they were. -/
def Calm (a s : State) : Prop :=
  { s with mci := a.mci, links := a.links, rollback := a.rollback, stations := a.stations, gpi := a.gpi, bias := a.bias,
           heads := a.heads, forge := a.forge, lag := a.lag, dma := a.dma, therm := a.therm, flt := a.flt } = a ∧
  { s.flt with presented := a.flt.presented } = a.flt ∧ CalmMci a.mci s.mci

theorem CalmMci.refl (m : Mci) : CalmMci m m := ⟨rfl, rfl⟩

theorem CalmMci.trans {a b c : Mci} (h : CalmMci a b) (g : CalmMci b c) : CalmMci a c :=
  ⟨(congrArg (fun m : Mci => { m with
      boxes := a.boxes, urgReply := a.urgReply, orphans := a.orphans, heldCompletions := a.heldCompletions }) g.1).trans h.1,
    g.2.trans h.2⟩

theorem Calm.refl (s : State) : Calm s s := ⟨rfl, rfl, CalmMci.refl _⟩

theorem Calm.trans {a b c : State} (h : Calm a b) (g : Calm b c) : Calm a c :=
  ⟨(congrArg (fun s : State => { s with
      mci := a.mci, links := a.links, rollback := a.rollback, stations := a.stations, gpi := a.gpi, bias := a.bias, heads := a.heads, forge := a.forge, lag := a.lag, dma := a.dma, therm := a.therm,
      flt := a.flt }) g.1).trans h.1,
   (congrArg (fun x : Flt => { x with presented := a.flt.presented }) g.2.1).trans h.2.1, h.2.2.trans g.2.2⟩

/-- An update of the units that may change. -/
theorem calm_update (s : State) (links rollback stations gpi bias heads forge lag dma therm presented) :
    Calm s { s with links := links, rollback := rollback, stations := stations, gpi := gpi, bias := bias, heads := heads,
                    forge := forge, lag := lag, dma := dma, therm := therm,
                    flt := { s.flt with presented := presented } } := ⟨rfl, rfl, CalmMci.refl _⟩

theorem calm_foldl {α : Type} (f : State → α → State) (l : List α) (s : State) (hf : ∀ s x, Calm s (f s x)) :
    Calm s (l.foldl f s) := by
  induction l generalizing s with
  | nil => exact Calm.refl s
  | cons x l ih => exact (hf s x).trans (ih _)

theorem calm_modLink (l : Nat) (f : Link → Link) (s : State) : Calm s (s.modLink l f) := by
  unfold State.modLink
  split
  · exact calm_update ..
  · exact Calm.refl s

theorem calm_modHead (h : Nat) (f : Head → Head) (s : State) : Calm s (s.modHead h f) := by
  unfold State.modHead
  split
  · exact calm_update ..
  · exact Calm.refl s

theorem calm_modStation (i : Nat) (f : Station → Station) (s : State) : Calm s (s.modStation i f) := calm_update ..

theorem calm_modTiles (f : Tile → Tile) (s : State) : Calm s (s.modTiles f) := calm_update ..

theorem calm_releaseTile (h : Nat) (s : State) : Calm s (releaseTile h s) := calm_update ..

theorem calm_present (source : Nat) (unit : Option Nat) (detail : Nat) (s : State) : Calm s (present source unit detail s) :=
  calm_update ..

/-- A map that an update of one entry does not see. -/
theorem map_modAt {α β : Type} (g : α → β) (l : List α) (i : Nat) (f : α → α) (h : ∀ x, g (f x) = g x) :
    (modAt l i f).map g = l.map g := by
  induction l generalizing i with
  | nil => rfl
  | cons x l ih =>
    cases i with
    | zero => exact congrArg (· :: l.map g) (h x)
    | succ i => exact congrArg (g x :: ·) (ih i)

theorem calm_enqueueMsg (p : Nat) (m : Msg) (s : State) : Calm s (enqueueMsg p m s) := by
  unfold enqueueMsg
  split
  · exact ⟨rfl, rfl, rfl, rfl⟩
  · exact ⟨rfl, rfl, rfl, map_modAt emptied _ _ _ fun _ => rfl⟩

theorem calm_complete (c : Ctx) (status : Nat) (payload : List Byte) (s : State) : Calm s (complete c status payload s) := by
  unfold complete
  dsimp only
  split
  · exact calm_enqueueMsg ..
  · split
    · split
      · refine Calm.trans ?_ (calm_enqueueMsg ..)
        exact ⟨rfl, rfl, rfl, rfl⟩
      · exact ⟨rfl, rfl, rfl, rfl⟩
    · exact Calm.refl s

/-! ### Gates and rollbacks -/

theorem calm_sendCtl (l ctype payload : Nat) (s : State) : Calm s (sendCtl l ctype payload s) := by
  unfold sendCtl sendBlock
  dsimp only
  split
  · exact (calm_modLink ..).trans (calm_modLink ..)
  · exact calm_modLink ..

theorem calm_gateLink (cause l : Nat) (s : State) : Calm s (gateLink cause l s) := by
  unfold gateLink sendGate
  split
  · exact Calm.refl s
  · split
    · exact (calm_modLink ..).trans (calm_sendCtl ..)
    · exact calm_modLink ..

theorem calm_factorsChanged (s : State) : Calm s (factorsChanged s) := by
  unfold factorsChanged
  refine calm_foldl _ _ _ fun s u => ?_
  dsimp only
  (repeat' split) <;> exact calm_update ..

theorem calm_syncPrivilege (s : State) : Calm s (syncPrivilege s) := by
  unfold syncPrivilege
  refine Calm.trans (calm_foldl _ _ _ fun s u => ?_) (calm_factorsChanged _)
  dsimp only
  split
  · exact Calm.refl s
  · exact calm_update ..

theorem calm_unadmitRecords (gone : List Rec) (s : State) : Calm s (unadmitRecords gone s) := calm_modTiles ..

theorem calm_discardSweeps (i : Nat) (s : State) : Calm s (discardSweeps i s) :=
  (calm_modStation ..).trans (calm_modTiles ..)

theorem calm_discardVectors (h : Nat) (s : State) : Calm s (discardVectors h s) :=
  (calm_modHead ..).trans (calm_unadmitRecords ..)

theorem calm_returnVectors (h : Nat) (s : State) : Calm s (returnVectors h s) :=
  (calm_modHead ..).trans (calm_unadmitRecords ..)

theorem calm_purgeQueues (lanes : BitVec 192) (s : State) : Calm s (purgeQueues lanes s) :=
  calm_foldl _ _ _ fun _ _ => calm_modLink ..

theorem calm_rollbackTrigger (code : Nat) (lanes : BitVec 192) (s : State) : Calm s (rollbackTrigger code lanes s) := by
  unfold rollbackTrigger
  refine Calm.trans ?_ (calm_update _ _ _ _ _ _ _ _ _ _ _ _)
  refine Calm.trans ?_ (calm_purgeQueues ..)
  refine Calm.trans ?_ (calm_foldl _ _ _ fun _ _ => (calm_modHead ..).trans (calm_discardVectors ..))
  exact calm_foldl _ _ _ fun _ _ => (calm_modStation ..).trans (calm_discardSweeps ..)

/-! ### The end of the layer -/

theorem calm_startJump (h : Nat) (start : Int) (target : Point) (s : State) : Calm s (startJump h start target s) :=
  (calm_modLink ..).trans (calm_modHead ..)

theorem calm_releaseHeadTiles (s : State) : Calm s (releaseHeadTiles s) :=
  calm_foldl _ _ _ fun _ _ => calm_releaseTile ..

theorem calm_dropReassignment (s : State) : Calm s (dropReassignment s) :=
  (calm_update s _ _ _ _ _ _ _ _ _ _ _).trans (calm_foldl _ _ _ fun _ _ => calm_complete ..)

theorem calm_finishLayer (s : State) : Calm s (finishLayer s) := by
  unfold finishLayer
  dsimp only
  split
  · split
    · exact (calm_update s _ _ _ _ _ _ _ _ _ _ _).trans (calm_complete ..)
    · exact calm_update ..
  · exact Calm.refl s

theorem calm_decideLayer (cause : Nat) (s : State) : Calm s (decideLayer cause s) := by
  unfold decideLayer
  split
  · exact Calm.refl s
  · refine Calm.trans ?_ (calm_finishLayer _)
    refine Calm.trans ?_ (calm_foldl _ _ _ fun _ _ => calm_startJump ..)
    refine Calm.trans ?_ (calm_foldl _ _ _ fun _ _ => calm_gateLink ..)
    refine Calm.trans ?_ (calm_dropReassignment _)
    refine Calm.trans ?_ (calm_releaseHeadTiles _)
    refine Calm.trans ?_ (calm_update _ _ _ _ _ _ _ _ _ _ _ _)
    split
    · exact (calm_update s _ _ _ _ _ _ _ _ _ _ _).trans (calm_syncPrivilege _)
    · refine Calm.trans ?_ (calm_foldl _ _ _ fun _ _ => calm_returnVectors ..)
      refine Calm.trans ?_ (calm_rollbackTrigger ..)
      exact (calm_update s _ _ _ _ _ _ _ _ _ _ _).trans (calm_syncPrivilege _)

theorem calm_abortLayer (cause : Nat) (s : State) : Calm s (abortLayer cause s) := by
  unfold abortLayer
  dsimp only
  (repeat' split)
  · exact calm_decideLayer ..
  · exact calm_decideLayer ..
  · exact calm_update ..
  · exact ((calm_update s _ _ _ _ _ _ _ _ _ _ _).trans (calm_releaseHeadTiles _)).trans (calm_dropReassignment _)
  · exact Calm.refl s

theorem calm_abortActivePages (cause : Nat) (s : State) : Calm s (abortActivePages cause s) :=
  calm_foldl _ _ _ fun _ _ => calm_modStation ..

/-! ### The host link reset -/

/-- The endpoint after a host link reset, before the aborts it brings (R74). -/
def endpointReset (s : State) : State :=
  { s with boot := { s.boot with push := 0 }, mci := { s.mci with
    inUse := 0, irq := 0, boxes := List.replicate 8 {}, slots := [], msix := List.replicate 64 {}, pba := 0
    msixOn := false, funcMask := false, urgBusy := false, urgDone := false, urgLast := 0, urgReply := none
    dispatched := [], events := [], helloSince := false, heldCompletions := owedCompletions s, spiRead := []
    abortedJobs := s.mci.abortedJobs + (activeCtxs s).length, era := s.mci.era + 1
    orphans := s.mci.orphans ++ activeCtxs s } }

/-- The reset empties the endpoint; the aborts that follow leave it so. -/
theorem execHostLinkReset_calm (s : State) : ∃ t, execHostLinkReset s = .next t ∧ Calm (endpointReset s) t := by
  refine ⟨_, rfl, ?_⟩
  refine (calm_abortActivePages 1 (endpointReset s)).trans ?_
  split
  · exact calm_abortLayer ..
  · exact Calm.refl _

/-- Settles O9: the endpoint is empty, and the aborts change only what waits to be posted. -/
theorem hostLinkResetEmptiesTheEndpoint : Obligations.HostLinkResetEmptiesTheEndpoint := by
  unfold Obligations.HostLinkResetEmptiesTheEndpoint
  intro s
  obtain ⟨t, ht, hstate, -, hmci, hboxes⟩ := execHostLinkReset_calm s
  have hlen : t.mci.boxes.length = 8 := by simpa [endpointReset] using congrArg List.length hboxes
  have hempty (b : Mailbox) (hb : b ∈ t.mci.boxes) : emptied b = emptied {} := by
    have hin : emptied b ∈ (List.replicate 8 ({} : Mailbox)).map emptied := hboxes ▸ List.mem_map_of_mem hb
    simpa using hin
  have hmsix : t.mci.msix = List.replicate 64 {} := (congrArg Mci.msix hmci :)
  refine ⟨t, ht, (congrArg Mci.inUse hmci :), hlen, fun b hb => ?_, (congrArg Mci.slots hmci :),
    (congrArg Mci.dispatched hmci :), (congrArg Mci.events hmci :), (congrArg Mci.urgBusy hmci :),
    (congrArg Mci.pba hmci :), fun e he => ?_, (congrArg Mci.vlog hmci :), (congrArg Mci.vcount hmci :),
    (congrArg State.time hstate :), (congrArg Mci.abortedJobs hmci :), (congrArg State.atoll hstate :),
    (congrArg Mci.st hmci :)⟩
  · have h := hempty b hb
    exact ⟨(congrArg Mailbox.session h :), (congrArg Mailbox.hello h :), (congrArg Mailbox.bound h :),
      (congrArg Mailbox.reqPi h :), (congrArg Mailbox.reqCi h :), (congrArg Mailbox.rplPi h :), (congrArg Mailbox.rplCi h :)⟩
  · rw [hmsix] at he
    rw [List.eq_of_mem_replicate he]

end Sys2Proof.Machine
end

section
/-!
Phase sources (spec/03_phase_timebase.md): settings, status, loss.
-/
namespace Sys2Proof.Machine

open Sys2Proof

/-! ### What the operations of a source leave unchanged -/

theorem refreshSearch_frame (s : State) : { refreshSearch s with stations := s.stations, bias := s.bias } = s := rfl

theorem heatersOff_frame (hs : List Nat) (s : State) :
    { hs.foldl (fun s h => heaterOff h s) s with heaters := s.heaters } = s := by
  induction hs generalizing s with
  | nil => rfl
  | cons h hs ih => exact congrArg (fun u : State => { u with heaters := s.heaters }) (ih (heaterOff h s))

theorem mainsLost_frame (i : Nat) (s : State) : { mainsLost i s with heaters := s.heaters, flt := s.flt } = s := by
  unfold mainsLost
  dsimp only
  split
  · rfl
  · exact congrArg (fun u : State => { u with flt := s.flt }) (heatersOff_frame _ s)

/-- A source that has left TRACK changes what hangs on it, and no source. -/
theorem leftTrack_frame (i : Nat) (s : State) :
    { leftTrack i s with stations := s.stations, bias := s.bias, heaters := s.heaters, flt := s.flt } = s := by
  unfold leftTrack
  split
  · exact congrArg (fun u : State => { u with stations := s.stations, bias := s.bias }) (mainsLost_frame i s)
  · rfl

/-- The controller that a source releases: the engine, and what the source says of it. -/
theorem releaseRepctl_frame (i : Nat) (s : State) :
    { releaseRepctl i s with engine := s.engine, sources := s.sources } = s ∧
    (releaseRepctl i s).sources.length = s.sources.length ∧ ∀ j, j ≠ i → (releaseRepctl i s).source j = s.source j := by
  unfold releaseRepctl
  split
  · exact ⟨rfl, length_modAt .., fun j hj => State.modSource_ne _ _ _ _ hj.symm⟩
  · exact ⟨rfl, rfl, fun _ _ => rfl⟩

/-- What follows the settings of a source: stations, bias channels, heaters and raises. -/
def settled (was : Prop) [Decidable was] (i : Nat) (s : State) : State := if was then leftTrack i s else refreshSearch s

theorem settled_frame (was : Prop) [Decidable was] (i : Nat) (s : State) :
    { settled was i s with stations := s.stations, bias := s.bias, heaters := s.heaters, flt := s.flt } = s := by
  unfold settled
  split
  · exact leftTrack_frame i s
  · rfl

section
variable (was : Prop) [Decidable was] (i : Nat) (rq : Req) (code status : Nat) (payload : List Byte) (s : State)

/-- A reply after the settings of a source leaves sources, links and time as the settings made them. -/
theorem respond_settled : (respond rq code status payload (settled was i s)).sources = s.sources ∧
    (respond rq code status payload (settled was i s)).links = s.links ∧
    (respond rq code status payload (settled was i s)).time = s.time := by
  have h := respond_frame rq code status payload (settled was i s)
  have g := settled_frame was i s
  exact ⟨(congrArg State.sources h).trans (congrArg State.sources g :), (congrArg State.links h).trans (congrArg State.links g :),
    (congrArg State.time h).trans (congrArg State.time g :)⟩

end

/-! ### timebase.source.set -/

/-- The settings of an enabled local source without a controller. -/
def Source.configured (rq : Req) (x : Source) : Source :=
  { x with
    deglitch := rq.u8 2, flags := BitVec.ofNat 8 (rq.u8 3), nominal := rq.u32 4, tol := rq.u16 12 * 1024 / 100
    groupWindow := rq.u16 14, period := rq.u16 16, repctl := none, alpha := (gainsOf (rq.u32 4) (rq.u32 8)).1
    beta := (gainsOf (rq.u32 4) (rq.u32 8)).2, raw := x.raw.map fun r => { r with gains := false }, fifo := []
    groupStart := none, illegalNext := false, nCapture := x.n }

/-- A source that is set off. -/
def Source.turnedOff (x : Source) : Source :=
  { x with st := .off, primed := false, heard := false, fifo := [], groupStart := none, illegalNext := false }

/-- The state in which the settings of a source are stored: its controller is released first. -/
def beforeSettings (i : Nat) (s : State) : State := if i < 64 then releaseRepctl i s else s

theorem beforeSettings_frame (i : Nat) (s : State) :
    { beforeSettings i s with engine := s.engine, sources := s.sources } = s ∧
    (beforeSettings i s).sources.length = s.sources.length ∧ ∀ j, j ≠ i → (beforeSettings i s).source j = s.source j := by
  unfold beforeSettings
  split
  · exact releaseRepctl_frame i s
  · exact ⟨rfl, rfl, fun _ _ => rfl⟩

theorem sourceExists_lt (i : Nat) (h : sourceExists i = true) : i < 96 := by
  simp only [sourceExists, Bool.or_eq_true, Bool.and_eq_true, decide_eq_true_eq] at h
  omega

theorem execTimebaseSourceSet_off (rq : Req) (s : State) (hs : served 0x0201 rq s = true)
    (hexists : sourceExists (rq.u8 0) = true) (hoff : rq.u8 1 = 0) (huse : sourceInUse s (rq.u8 0) = false) :
    ∃ (was : Prop) (_ : Decidable was) (payload : List Byte), execTimebaseSourceSet rq s = .next (respond rq 0x0201 Status.ok payload
      (settled was (rq.u8 0) ((beforeSettings (rq.u8 0) s).modSource (rq.u8 0) Source.turnedOff))) := by
  unfold execTimebaseSourceSet
  rw [command_pass 0x0201 rq _ _ s hs (by simp [hexists, hoff, huse])]
  simp only [hoff, show decide ((0 : Nat) = 1) = false from rfl, Bool.false_and, Bool.false_eq_true, Bool.not_false, if_false,
    if_true]
  exact ⟨((beforeSettings (rq.u8 0) s).source (rq.u8 0)).st = .track, inferInstance, _, rfl⟩

theorem execTimebaseSourceSet_on (rq : Req) (s : State) (hs : served 0x0201 rq s = true)
    (hexists : sourceExists (rq.u8 0) = true) (hloc : rq.u8 0 < 64) (hon : rq.u8 1 = 1) (hdeg : rq.u8 2 ≤ 63)
    (hrate : 1 ≤ rq.u32 4) (hrate' : rq.u32 4 ≤ 50000000) (hbw : 1 ≤ rq.u32 8) (hbw' : rq.u32 8 ≤ rq.u32 4 * 50)
    (htol : rq.u16 12 = 0 ∨ (5 ≤ rq.u16 12 ∧ rq.u16 12 ≤ 10000)) (hper : rq.u16 16 ≤ 4096) (hrep : rq.u8 18 = 0xFF)
    (huse : sourceInUse s (rq.u8 0) = false) :
    ∃ (was : Prop) (_ : Decidable was) (payload : List Byte), execTimebaseSourceSet rq s = .next (respond rq 0x0201 Status.ok payload
      (settled was (rq.u8 0) (((beforeSettings (rq.u8 0) s).modSource (rq.u8 0) (Source.configured rq)).modSource (rq.u8 0)
        Source.acquire))) := by
  unfold execTimebaseSourceSet
  rw [command_pass 0x0201 rq _ _ s hs (by simp [hexists, hon, huse, hloc, hrep]; omega)]
  simp only [hon, hloc, hrep, ne_eq, not_true, decide_true, decide_false, Bool.and_false, Bool.not_true, Bool.false_eq_true,
    if_false, if_true]
  rw [show beforeSettings (rq.u8 0) s = releaseRepctl (rq.u8 0) s from if_pos hloc]
  exact ⟨((releaseRepctl (rq.u8 0) s).source (rq.u8 0)).st = .track, inferInstance, _, rfl⟩

/-! ### Loss (R92, R93) -/

theorem advanceSub_frame (s : State) (t : Int) :
    { s.advanceSub t with atoll := s.atoll, time := s.time, sync := s.sync } = s := advanceTo_frame ..

/-- A source in TRACK whose edges are missing. -/
theorem loseSource_missing (i : Nat) (s : State) (ht : (s.source i).st = .track) :
    loseSource i true s = leftTrack i
      (if (s.source i).flags.getLsbD 4 then s.modSource i fun x => { x with st := .still, acqCount := 0, runCount := 0 }
       else present (if anchoredLanes s i ≠ 0 then 0x0040 else 0x0041) (some i) 0
        (s.modSource i fun x => { x with st := .lost, acqCount := 0, runCount := 0 })) := by
  unfold loseSource
  cases (s.source i).flags.getLsbD 4 <;> simp [ht]

theorem leftTrack_not_mains (i : Nat) (s : State) (h24 : i ≠ 24) (h25 : i ≠ 25) : leftTrack i s = refreshSearch s := by
  simp [leftTrack, h24, h25]

/-- The six fields of a status reply that O10 speaks of. -/
theorem sourceStatus_layout (time state epoch : Nat) (phase tN err : Int) (p : Nat) (missed rollbacks overruns : Count)
    (ht : time < 2 ^ 64) (he : epoch < 2 ^ 16) :
    let b := leBytes 8 time ++ leBytes 1 state ++ zeros 1 ++ leBytes 2 epoch ++ leBytesI 8 phase ++ leBytesI 8 tN ++
      leBytes 8 p ++ leBytesI 4 err ++ missed.bytes ++ rollbacks.bytes ++ overruns.bytes ++ zeros 4
    b.length = 56 ∧ leAt b 0 8 = time ∧ leAt b 10 2 = epoch ∧ leAt b 40 4 = missed.n ∧ leAt b 44 4 = rollbacks.n ∧
      leAt b 48 4 = overruns.n := by
  simp only [List.append_assoc]
  simp [leAt_left, leAt_right, leAt_leBytes, leAt_count]
  exact ⟨ht, he⟩

/-- Settles O10: the settings, the status and the loss of a source, with what each leaves as it was. -/
theorem sourcesAreSetAndLost : Obligations.SourcesAreSetAndLost := by
  unfold Obligations.SourcesAreSetAndLost
  refine ⟨fun rq s hs hlen hexists hoff huse => ?off,
    fun rq s hs hlen hexists hloc hon hdeg hrate hrate' hbw hbw' htol hper hrep huse => ?on,
    fun rq s hs h0 h1 h2 h3 h4 h5 h6 h7 huse => ?raw, fun rq s hs hexists => ?status, fun rq s hs hexists => ?absent,
    fun i s hi h24 h25 hlen ht => ?lost⟩
  case off =>
    change ∃ t, execTimebaseSourceSet rq s = _ ∧ _
    obtain ⟨was, _, payload, hexec⟩ := execTimebaseSourceSet_off rq s hs hexists hoff huse
    obtain ⟨hframe, hlength, hothers⟩ := beforeSettings_frame (rq.u8 0) s
    obtain ⟨hsrc, hlinks, htime⟩ := respond_settled was (rq.u8 0) rq 0x0201 Status.ok payload
      ((beforeSettings (rq.u8 0) s).modSource (rq.u8 0) Source.turnedOff)
    have hlt : rq.u8 0 < (beforeSettings (rq.u8 0) s).sources.length := by
      rw [hlength, hlen]; exact sourceExists_lt _ hexists
    refine ⟨_, hexec, ?_⟩
    rw [hlinks, htime]
    simp only [State.source, hsrc, State.modSource_sources, at'_modAt_same _ _ _ _ hlt]
    exact ⟨rfl, rfl, fun j hj => (at'_modAt_ne _ _ _ _ _ hj.symm).trans (hothers j hj), (congrArg State.links hframe :),
      (congrArg State.time hframe :)⟩
  case on =>
    change ∃ t, execTimebaseSourceSet rq s = _ ∧ _
    obtain ⟨was, _, payload, hexec⟩ := execTimebaseSourceSet_on rq s hs hexists hloc hon hdeg hrate hrate' hbw hbw' htol hper
      hrep huse
    obtain ⟨hframe, hlength, hothers⟩ := beforeSettings_frame (rq.u8 0) s
    obtain ⟨hsrc, hlinks, htime⟩ := respond_settled was (rq.u8 0) rq 0x0201 Status.ok payload
      (((beforeSettings (rq.u8 0) s).modSource (rq.u8 0) (Source.configured rq)).modSource (rq.u8 0) Source.acquire)
    have hlt : rq.u8 0 < (beforeSettings (rq.u8 0) s).sources.length := by
      rw [hlength, hlen]; exact sourceExists_lt _ hexists
    refine ⟨_, hexec, ?_⟩
    rw [hlinks, htime]
    have hlt' : rq.u8 0 < (modAt (beforeSettings (rq.u8 0) s).sources (rq.u8 0) (Source.configured rq)).length := by
      rwa [length_modAt]
    simp only [State.source, hsrc, State.modSource_sources, at'_modAt_same _ _ _ _ hlt', at'_modAt_same _ _ _ _ hlt]
    exact ⟨rfl, rfl, rfl, rfl, rfl, rfl, rfl,
      fun j hj => ((at'_modAt_ne _ _ _ _ _ hj.symm).trans (at'_modAt_ne _ _ _ _ _ hj.symm)).trans (hothers j hj),
      (congrArg State.links hframe :), (congrArg State.time hframe :)⟩
  case raw =>
    change execTimebaseFilterRaw rq s = _
    unfold execTimebaseFilterRaw
    refine command_pass 0x0280 rq _ _ s hs ?_
    simp [huse]
    omega
  case status =>
    change ∃ p, execTimebaseSourceStatus rq s = _ ∧ _
    unfold execTimebaseSourceStatus
    rw [command_pass 0x0202 rq _ _ s hs (by simpa using hexists)]
    exact ⟨_, rfl, sourceStatus_layout _ _ _ _ _ _ _ _ _ _ s.time.isLt (s.source (rq.u8 0)).epoch.isLt⟩
  case absent =>
    change execTimebaseSourceSet rq s = _ ∧ execTimebaseSourceStatus rq s = _
    unfold execTimebaseSourceSet execTimebaseSourceStatus
    constructor
    · exact command_turned_away 0x0201 rq _ _ s true _ hs (by simp [hexists])
    · exact command_turned_away 0x0202 rq _ _ s true _ hs (by simp [hexists])
  case lost =>
    change ∃ t, execSourceLostTimeout i s = _ ∧ _
    have ha := advanceSub_frame s (lostTime s i)
    generalize hu : s.advanceSub (lostTime s i) = u at ha
    have hsrc : u.sources = s.sources := (congrArg State.sources ha :)
    have hflt : u.flt = s.flt := (congrArg State.flt ha :)
    have hx : u.source i = s.source i := by unfold State.source; rw [hsrc]
    have hlanes : anchoredLanes u i = anchoredLanes s i := (congrArg (anchoredLanes · i) ha :)
    have hlt : i < u.sources.length := by rwa [hsrc]
    have hexec : execSourceLostTimeout i s = .next (loseSource i true u) := by
      simp [execSourceLostTimeout, hi, ht, hu]
    refine ⟨_, hexec, ?_⟩
    rw [loseSource_missing i u (by rw [hx, ht]), leftTrack_not_mains i _ h24 h25, hx, hlanes]
    have hlinks : u.links = s.links := (congrArg State.links ha :)
    have hmci : u.mci = s.mci := (congrArg State.mci ha :)
    cases (s.source i).flags.getLsbD 4
    all_goals
      simp only [State.source, refreshSearch, present, presentRaise, State.modSource_sources, at'_modAt_same _ _ _ _ hlt,
        State.modSource_flt, State.modSource_links, State.modSource_mci, hflt, hlinks, hmci, if_true, if_false,
        Bool.false_eq_true]
      refine ⟨trivial, by simp, by simp, fun j hj => (at'_modAt_ne _ _ _ _ _ hj.symm).trans (by rw [hsrc]), trivial, trivial⟩

end Sys2Proof.Machine
end

section
/-!
Edges (spec/03_phase_timebase.md R83 to R89): the DEGLITCH filter, the capture FIFO and the tracking filter.
-/
namespace Sys2Proof.Machine

open Sys2Proof

/-! ### Time does not touch the sources -/

theorem advanceTo_sources (s : State) (t : Nat) : (s.advanceTo t).sources = s.sources :=
  (congrArg State.sources (advanceTo_frame s t) :)

theorem advanceTo_source (s : State) (t i : Nat) : (s.advanceTo t).source i = s.source i := by
  unfold State.source; rw [advanceTo_sources]

/-! ### The filter (R84) -/

theorem accepts_eq_true (x : Source) (k : Nat) (p : PinEdge) (hheld : x.deglitch ≤ p.held)
    (hlevel : p.level ≠ x.levels.getLsbD k) : x.accepts k p = true := by simp [Source.accepts, hheld, hlevel]

theorem accepts_eq_false (x : Source) (k : Nat) (p : PinEdge) (h : p.held < x.deglitch ∨ p.level = x.levels.getLsbD k) :
    x.accepts k p = false := by
  rcases h with h | h
  · simp [Source.accepts, Nat.not_le_of_lt h]
  · simp [Source.accepts, h]

/-- A transition that the filter does not pass changes nothing. -/
theorem captureEdge_filtered (i : Nat) (p : PinEdge) (stamp : BitVec 64) (s : State) (h : (s.source i).accepts 0 p = false) :
    captureEdge i ⟨.level p, stamp⟩ s = s := by simp [captureEdge, h]

/-- One input of an encoder changes: its level is taken, and the edge counts as its direction says. -/
theorem captureEdge_quad_a (i : Nat) (p : PinEdge) (stamp : BitVec 64) (s : State) (hi : i < 16)
    (hon : (s.source i).st ≠ .off) (ha : (s.source i).accepts 0 p = true) :
    captureEdge i ⟨.quad (some p) none, stamp⟩ s =
      countEdge i (if stepForward (s.source i).levels true ≠ (s.source i).flags.getLsbD 2 then 1 else -1)
        (64 * (stamp.toNat : Int)) (s.modSource i fun x => { x with levels := setLevel 0 p.level x.levels }) := by
  have hp : (some p).filter ((s.source i).accepts 0) = some p := by rw [Option.filter_some, if_pos ha]
  simp [captureEdge, Nat.not_le_of_lt hi, hon, hp]

/-- Both inputs of an encoder change at once. -/
theorem captureEdge_quad_both (i : Nat) (p q : PinEdge) (stamp : BitVec 64) (s : State) (hi : i < 16)
    (hon : (s.source i).st ≠ .off) (ha : (s.source i).accepts 0 p = true) (hb : (s.source i).accepts 1 q = true) :
    captureEdge i ⟨.quad (some p) (some q), stamp⟩ s =
      illegalStep i (s.modSource i fun x => { x with levels := setLevel 1 q.level (setLevel 0 p.level x.levels) }) := by
  have hp : (some p).filter ((s.source i).accepts 0) = some p := by rw [Option.filter_some, if_pos ha]
  have hq : (some q).filter ((s.source i).accepts 1) = some q := by rw [Option.filter_some, if_pos hb]
  simp [captureEdge, Nat.not_le_of_lt hi, hon, hp, hq]

/-! ### The capture FIFO (R86) -/

/-- An edge of an encoder that finds room. -/
theorem countEdge_room (i : Nat) (d stamp : Int) (s : State) (hi : i < 16) (hroom : (s.source i).fifo.length < 16) :
    countEdge i d stamp s = ((s.modSource i fun x => { x with
        fifo := x.fifo ++ [{ stamp := stamp, delta := d, illegal := (s.source i).illegalNext }] }).modSource i fun x =>
      { x with illegalNext := false, groupStart := some stamp, nCapture := x.nCapture + BitVec.ofInt 48 d }) := by
  simp [countEdge, pushEdge, Nat.not_le_of_lt hroom, Nat.not_le_of_lt hi]

/-- An edge of an encoder that finds the FIFO full. -/
theorem countEdge_full (i : Nat) (d stamp : Int) (s : State) (hfull : 16 ≤ (s.source i).fifo.length) :
    countEdge i d stamp s = present 0x0042 (some i) 0 (s.modSource i fun x => { x with overruns := x.overruns.inc }) := by
  simp [countEdge, pushEdge, hfull]

/-- Settles O11: the filter, the FIFO and the illegal transition, after the time that DEGLITCH takes. -/
theorem edgesAreCaptured : Obligations.EdgesAreCaptured := by
  unfold Obligations.EdgesAreCaptured
  have hexec (i : Nat) (e : EdgeIn) (s : State) : exec (.edgeCapture i e) s =
      .next (captureEdge i e (s.advanceTo (e.stamp.toNat + (s.source i).deglitchTicks i))) := rfl
  refine ⟨fun i p stamp s _ _ hl => ?same, fun i p stamp s hp => ?short, fun i p stamp s hi hlen hon hp hl hroom => ?room,
    fun i p stamp s hi hlen hon hp hl hfull => ?full, fun i p q stamp s hi hlen hon hp hl hq hm => ?illegal⟩
  case same => rw [hexec, captureEdge_filtered]; rw [advanceTo_source]; exact accepts_eq_false _ _ _ (.inr hl)
  case short => rw [hexec, captureEdge_filtered]; rw [advanceTo_source]; exact accepts_eq_false _ _ _ (.inl hp)
  all_goals
    rw [hexec]
    have hsrc := advanceTo_source s (stamp.toNat + (s.source i).deglitchTicks i)
    have htab := advanceTo_sources s (stamp.toNat + (s.source i).deglitchTicks i)
    generalize s.advanceTo (stamp.toNat + (s.source i).deglitchTicks i) = u at hsrc htab
    have ha := accepts_eq_true (s.source i) 0 p hp hl
    have hlt : i < u.sources.length := by rwa [htab]
    have hmod (f : Source → Source) : (u.modSource i f).source i = f (s.source i) := by
      rw [State.modSource_same _ _ _ hlt, hsrc]
  case room =>
    rw [captureEdge_quad_a i p stamp u hi (by rwa [hsrc]) (by rwa [hsrc]), hsrc,
      countEdge_room i _ _ _ hi (by rw [hmod]; exact hroom), hmod]
    refine ⟨_, rfl, ?_⟩
    simp only [State.source, State.modSource_sources]
    rw [at'_modAt_same _ _ _ _ (by rwa [length_modAt, length_modAt]), at'_modAt_same _ _ _ _ (by rwa [length_modAt]),
      at'_modAt_same _ _ _ _ hlt, show at' u.sources i {} = s.source i from hsrc i]
    refine ⟨rfl, rfl, fun j hj => ?_, ?_⟩
    · rw [at'_modAt_ne _ _ _ _ _ hj.symm, at'_modAt_ne _ _ _ _ _ hj.symm, at'_modAt_ne _ _ _ _ _ hj.symm, htab]
    · exact congrArg (fun l => { u with sources := l }) htab.symm
  case full =>
    rw [captureEdge_quad_a i p stamp u hi (by rwa [hsrc]) (by rwa [hsrc]),
      countEdge_full i _ _ _ (by rw [hmod]; exact hfull)]
  case illegal =>
    rw [captureEdge_quad_both i p q stamp u hi (by rwa [hsrc]) (by rwa [hsrc])
      (by rw [hsrc]; exact accepts_eq_true _ _ _ hq hm)]
    rfl

/-! ### The tracking filter (R88, R89) -/

/-- An edge within tolerance of a source in TRACK without a controller: the filter's update, and no rollback. -/
theorem trackEdge_within (i : Nat) (ed : FifoEdge) (s : State) (hi : i < 16) (hlt : i < s.sources.length)
    (hst : (s.source i).st = .track) (hprimed : (s.source i).primed = true) (hraw : (s.source i).raw = none)
    (hrep : (s.source i).repctl = none) (hlegal : ed.illegal = false)
    (htol : ((((s.source i).update ed.delta ed.stamp 0).2.natAbs : Nat) : Int) ≤ tolerance s (s.source i)) :
    trackEdge i ed s = (s.modSource i fun _ => ((s.source i).update ed.delta ed.stamp 0).1).modSource i fun x =>
      { x with runCount := 0 } := by
  have hraw' : (s.source i).takeRaw = s.source i := by simp [Source.takeRaw, hraw]
  have hprofile (n : Int) : s.profile i n = 0 := by
    simp [State.profile, hrep, show ¬ 64 ≤ i by omega]
  have hgive (e : Int) : giveError i e (s.modSource i fun _ => ((s.source i).update ed.delta ed.stamp 0).1) =
      s.modSource i fun _ => ((s.source i).update ed.delta ed.stamp 0).1 := by
    unfold giveError
    rw [State.modSource_same _ _ _ hlt]
    simp [Source.update, Source.count, hrep]
  unfold trackEdge
  simp only [hraw', hprofile, hprimed, hst, hlegal, hgive, Bool.not_true, Bool.false_or, Bool.false_eq_true, if_false,
    decide_eq_true_eq, Int.not_lt.mpr htol]
  simp

/-- The edge that the tracker takes leaves the FIFO. -/
def edgeTaken (i : Nat) (rest : List FifoEdge) (s : State) : State :=
  s.modSource i fun x => { x with fifo := rest, takenAt := some s.time }

/-- The time at which the tracker takes an edge: 32 ticks after the one before it at the earliest (R86). -/
def trackerReady (x : Source) (s : State) : State :=
  match x.takenAt with
  | some a => s.advanceTo (a.toNat + 32)
  | none => s

theorem trackerReady_frame (x : Source) (s : State) :
    { trackerReady x s with atoll := s.atoll, time := s.time, sync := s.sync } = s := by
  unfold trackerReady
  split
  · exact advanceTo_frame ..
  · rfl

/-- On an encoder that no station follows, the tracker's update is the only effect of an edge that counts. -/
theorem execTrackerEdgeUpdate_encoder (i : Nat) (ed : FifoEdge) (rest : List FifoEdge) (s : State) (hi : i < 16)
    (hlt : i < s.sources.length) (hfifo : (s.source i).fifo = ed :: rest) (hdelta : ed.delta ≠ 0)
    (hst : (s.source i).st = .track)
    (hkeep : bdStations (trackEdge i ed (edgeTaken i rest (trackerReady (s.source i) s))) i = []) :
    execTrackerEdgeUpdate i s = .next (trackEdge i ed (edgeTaken i rest (trackerReady (s.source i) s))) := by
  have hsources : (trackerReady (s.source i) s).sources = s.sources := (congrArg State.sources (trackerReady_frame _ s) :)
  have hsrc : (edgeTaken i rest (trackerReady (s.source i) s)).source i =
      { s.source i with fifo := rest, takenAt := some (trackerReady (s.source i) s).time } := by
    rw [edgeTaken, State.modSource_same _ _ _ (by rwa [hsources]), State.source, hsources]; rfl
  unfold execTrackerEdgeUpdate
  unfold edgeTaken trackerReady at hsrc hkeep ⊢
  cases ht : (s.source i).takenAt
  all_goals
    simp only [ht] at hsrc hkeep
    simp only [hfifo, hdelta, hsrc, hst, hkeep, show ¬ 26 ≤ i by omega, decide_false, Bool.false_and, Bool.false_eq_true,
      if_false, List.foldl_nil, reduceCtorEq, Bool.or_false]
    split <;> rfl

/-- Settles O12: the edge leaves the FIFO, and the update of R89 is the only change. -/
theorem trackerFollowsTheEdge : Obligations.TrackerFollowsTheEdge := by
  unfold Obligations.TrackerFollowsTheEdge
  intro i ed rest s hi hlt hfifo hdelta hlegal hst hprimed hraw hrep hbd x that e htol
  have hframe := trackerReady_frame x s
  have hsources : (trackerReady x s).sources = s.sources := (congrArg State.sources hframe :)
  have hlt' : i < (trackerReady x s).sources.length := by rwa [hsources]
  have hsrc : (edgeTaken i rest (trackerReady x s)).source i =
      { x with fifo := rest, takenAt := some (trackerReady x s).time } := by
    rw [edgeTaken, State.modSource_same _ _ _ hlt', State.source, hsources]; rfl
  have htol' : tolerance (edgeTaken i rest (trackerReady x s)) = tolerance s := (congrArg tolerance hframe :)
  have he : ((({ x with fifo := rest, takenAt := some (trackerReady x s).time } : Source).update ed.delta ed.stamp 0).2) = e := by
    simp [Source.update, e, that, x]
  have htrack := trackEdge_within i ed (edgeTaken i rest (trackerReady x s)) hi (by simpa [edgeTaken] using hlt')
    (by rw [hsrc]; exact hst) (by rw [hsrc]; exact hprimed) (by rw [hsrc]; exact hraw) (by rw [hsrc]; exact hrep) hlegal
    (by rw [hsrc, he, htol']; exact htol)
  have hexec := execTrackerEdgeUpdate_encoder i ed rest s hi hlt hfifo hdelta hst
    (by rw [htrack]; exact (congrArg (bdStations · i) hframe :).trans hbd)
  refine ⟨_, hexec, ?_⟩
  rw [htrack, hsrc]
  have hl : i < (modAt (trackerReady x s).sources i fun y =>
      { y with fifo := rest, takenAt := some (trackerReady x s).time }).length := by rwa [length_modAt]
  have hl' (f : Source → Source) : i < (modAt (modAt (trackerReady x s).sources i fun y =>
      { y with fifo := rest, takenAt := some (trackerReady x s).time }) i f).length := by rwa [length_modAt]
  simp only [edgeTaken, State.source, State.modSource_sources, State.modSource_time, at'_modAt_same _ _ _ _ (hl' _),
    at'_modAt_same _ _ _ _ hl]
  have hzero : ed.stamp - 0 - that = e := by rw [Int.sub_zero]
  refine ⟨rfl, rfl, rfl, ?_, ?_, ?_, trivial, hst, fun j hj => ?_, ?_⟩
  · exact congrArg (fun v => roundDiv (that * 65536 + x.alpha * v) 65536) hzero
  · exact congrArg (fun v => roundDiv (x.p * 64 * ed.delta + x.beta * v) (64 * ed.delta)) hzero
  · exact hzero
  · rw [at'_modAt_ne _ _ _ _ _ hj.symm, at'_modAt_ne _ _ _ _ _ hj.symm, at'_modAt_ne _ _ _ _ _ hj.symm, hsources]
  · exact (congrArg (fun l => { trackerReady x s with sources := l }) hsources.symm).trans (by unfold trackerReady; rfl)

end Sys2Proof.Machine
end

section
/-!
O18: an event takes its place at the end of its lane's queue. O30: the capsule along the flow. O38: the canonical memory.
-/
namespace Sys2Proof.Machine

open Sys2Proof

/-! ### The queue of a lane (R100, R125) -/

/-- The stamp of an event behind the last event of its lane, as the later of its own and the next sub-tick. -/
theorem orderedStamp_eq (x : Link) (k : Nat) (stamp : Int) :
    orderedStamp x k stamp = match (at' x.lanes k {}).last with
      | some t => max stamp (t + 1)
      | none => stamp := by
  unfold orderedStamp
  cases (at' x.lanes k {}).last with
  | none => rfl
  | some t =>
    simp only
    split <;> omega

/-- Settles O18. -/
theorem queuesKeepStampOrder : Obligations.QueuesKeepStampOrder := by
  unfold Obligations.QueuesKeepStampOrder
  intro l k e s hl hlen hq hk last stamp
  have hlink : (pushEvent l k e s).link l = { s.link l with
      queues := modAt (s.link l).queues k (fun q => q ++ [{ e with stamp := orderedStamp (s.link l) k e.stamp }]),
      lanes := modAt (s.link l).lanes k fun t => { t with last := some (orderedStamp (s.link l) k e.stamp) } } :=
    State.modLink_same _ _ _ hlen hl
  have hstamp : orderedStamp (s.link l) k e.stamp = stamp := orderedStamp_eq _ _ _
  rw [hlink, hstamp]
  refine ⟨at'_modAt_same _ _ _ _ hq, ?_, fun j hj => at'_modAt_ne _ _ _ _ _ hj.symm,
    fun m hm => State.modLink_ne _ _ _ _ hm.symm, ?_⟩
  · rw [at'_modAt_same _ _ _ _ hk]
  · unfold pushEvent State.modLink
    split <;> rfl

/-! ### The capsule (R234) -/

/-- With the flow along an axis the comparison with a root is the comparison of the numbers. -/
theorem rootLe_one (a b : Int) : rootLe a b 1 = decide (a ≤ b) := by
  unfold rootLe
  by_cases ha : a ≤ 0
  · by_cases hb : 0 ≤ b
    · simp only [ha, hb, if_true]
      exact (decide_eq_true (ha.trans hb)).symm
    · simp only [ha, hb, if_true, if_false, Nat.cast_one, mul_one]
      exact decide_eq_decide.2 ⟨fun h => by nlinarith, fun h => by nlinarith⟩
  · by_cases hb : b < 0
    · simp only [ha, hb, if_true, if_false]
      exact (decide_eq_false (by omega)).symm
    · simp only [ha, hb, if_false, Nat.cast_one, mul_one]
      exact decide_eq_decide.2 ⟨fun h => by nlinarith, fun h => by nlinarith⟩

theorem rootGe_one (b a : Int) : rootGe b a 1 = decide (b ≤ a) := by
  rw [rootGe, rootLe_one]
  exact decide_eq_decide.2 ⟨fun h => by omega, fun h => by omega⟩

/-- A number of thousandths that is whole is not rounded. -/
theorem openDivI_whole (k : Int) : openDivI (1000 * k) 1000 = k := by
  unfold openDivI openDiv
  have hmod : (1000 * k).natAbs % 1000 = 0 := by omega
  rw [if_pos hmod]
  split <;> omega

/-- Settles O30: along +X every root is √1 and the cross product is the distance across the flow. -/
theorem capsuleAlongTheFlow : Obligations.CapsuleAlongTheFlow := by
  unfold Obligations.CapsuleAlongTheFlow
  refine ⟨?_, openDivI_whole⟩
  intro c spot q hx hy dx dy
  have hcap : inCapsule c spot q =
      if !decide (-(c.up : Int) ≤ dx) then decide (dx * dx + dy * dy + c.up * c.up - c.radius * c.radius ≤ -2 * c.up * dx)
      else if !decide (dx ≤ (c.down : Int)) then
        decide (dx * dx + dy * dy + c.down * c.down - c.radius * c.radius ≤ 2 * c.down * dx)
      else decide (dy * dy ≤ (c.radius : Int) * c.radius) := by
    simp only [inCapsule, hx, hy, Int.toNat_one, rootLe_one, rootGe_one, mul_one, mul_zero, add_zero, zero_sub, neg_mul_neg,
      Nat.cast_one, dx, dy]
  rw [hcap]
  by_cases hup : dx < -(c.up : Int)
  · simp only [hup, decide_eq_false (not_le.2 hup), Bool.not_false, if_true, decide_eq_true_eq]
    constructor <;> intro h <;> linarith
  · by_cases hdown : (c.down : Int) < dx
    · simp only [hup, hdown, decide_eq_true (not_lt.1 hup), decide_eq_false (not_le.2 hdown), Bool.not_false,
        Bool.not_true, Bool.false_eq_true, if_true, if_false, decide_eq_true_eq]
      constructor <;> intro h <;> linarith
    · simp only [hup, hdown, decide_eq_true (not_lt.1 hup), decide_eq_true (not_lt.1 hdown),
        Bool.not_true, Bool.false_eq_true, if_false, decide_eq_true_eq]

/-! ### The memory of the model (log entry 8) -/

/-- Bytes that agree one by one with a list are that list. -/
theorem cellsGet_eq (d : Byte) (m : List Host.Cell) (a : Nat) (bs : List Byte)
    (h : ∀ x, a ≤ x → x < a + bs.length → cellGet d m x = at' bs (x - a) d) : cellsGet d m a bs.length = bs := by
  induction bs generalizing a with
  | nil => rfl
  | cons b bs ih =>
    have hhead : cellGet d m a = b := by simpa [at'] using h a (Nat.le_refl a) (by simp)
    have htail : cellsGet d m (a + 1) bs.length = bs := ih (a + 1) fun x hx hlt => by
      have hat := h x (by omega) (by rw [List.length_cons]; omega)
      rw [hat, show x - a = (x - (a + 1)) + 1 by omega]
      rfl
    rw [List.length_cons, cellsGet, hhead, htail]

/-- The bytes written are the bytes read at their place. -/
theorem cellsGet_cellsSet (d : Byte) (m : List Host.Cell) (a : Nat) (bs : List Byte) (h : cellsWf d m = true) :
    cellsGet d (cellsSet d m a bs) a bs.length = bs :=
  cellsGet_eq d _ a bs fun x hx hlt => by rw [cellGet_cellsSet d bs m a x h, if_pos ⟨hx, hlt⟩]

/-- The first byte that is listed reads as listed. -/
theorem cellGet_head (d : Byte) (c : Host.Cell) (m : List Host.Cell) : cellGet d (c :: m) c.1 = c.2 := by
  rw [cellGet, if_pos rfl]

/-- Two canonical memories with the same content are one. -/
theorem cells_ext (d : Byte) (m m' : List Host.Cell) (h : cellsWf d m = true) (h' : cellsWf d m' = true)
    (heq : ∀ x, cellGet d m x = cellGet d m' x) : m = m' := by
  induction m generalizing m' with
  | nil =>
    cases m' with
    | nil => rfl
    | cons e m' => exact absurd ((cellGet_head d e m').symm.trans (heq e.1).symm) (cellsWf_tail h').1
  | cons c m ih =>
    obtain ⟨hc, hlow, hm⟩ := cellsWf_tail h
    cases m' with
    | nil => exact absurd ((cellGet_head d c m).symm.trans (heq c.1)) hc
    | cons e m' =>
      obtain ⟨he, hlow', hm'⟩ := cellsWf_tail h'
      have hce : c.1 = e.1 := by
        rcases Nat.lt_trichotomy c.1 e.1 with hlt | hce | hlt
        · exact absurd ((cellGet_head d c m).symm.trans ((heq c.1).trans (cellGet_low d _ _ (by simpa using hlt)))) hc
        · exact hce
        · exact absurd ((cellGet_head d e m').symm.trans ((heq e.1).symm.trans (cellGet_low d _ _ (by simpa using hlt)))) he
      have hval : c.2 = e.2 := by rw [← cellGet_head d c m, heq, hce, cellGet_head]
      obtain rfl : c = e := Prod.ext hce hval
      rw [ih m' hm hm' fun x => ?_]
      by_cases hx : x ≤ c.1
      · rw [cellGet_low d m x fun a ha => Nat.lt_of_le_of_lt hx (hlow a ha),
          cellGet_low d m' x fun a ha => Nat.lt_of_le_of_lt hx (hlow' a ha)]
      · have hxe := heq x
        rwa [cellGet, cellGet, if_neg (by omega), if_neg (by omega), if_neg (by omega), if_neg (by omega)] at hxe

/-- Settles O38. -/
theorem cellsKeepWhatIsWritten : Obligations.CellsKeepWhatIsWritten := by
  unfold Obligations.CellsKeepWhatIsWritten
  refine ⟨fun d m a b h => ⟨cellSet_wf d m a b h, fun x => cellGet_cellSet d m a x b h⟩, fun d m a bs h => ?_,
    fun d m m' => cells_ext d m m'⟩
  refine ⟨cellsSet_wf d bs m a h, cellsGet_cellsSet d m a bs h, fun x hx => ?_⟩
  rw [cellGet_cellsSet d bs m a x h, if_neg (by omega)]

end Sys2Proof.Machine
end

section
/-!
O33: loops, groups and repetitive controllers are evaluated (spec/10_control_engine.md).
-/
namespace Sys2Proof.Machine

open Sys2Proof

/-! ### Steps that change one loop and the raises that wait -/

@[simp] theorem present_engine (source : Nat) (unit : Option Nat) (detail : Nat) (s : State) :
    (present source unit detail s).engine = s.engine := rfl

@[simp] theorem present_loop (source : Nat) (unit : Option Nat) (detail : Nat) (s : State) (i : Nat) :
    (present source unit detail s).loop i = s.loop i := rfl

/-- What an evaluation leaves of a loop for its status reply. -/
def Loop.reading (l : Loop) : Int × Int × Int × BitVec 64 × Nat := (l.out, l.err, l.input, l.evals, l.lastTick)

/-- A step of the engine that touches one loop, and nothing else but the raises that wait. -/
structure TouchesLoop (slot : Nat) (s t : State) : Prop where
  others : ∀ i, i ≠ slot → t.loop i = s.loop i
  frame : { t with engine := { t.engine with loops := s.engine.loops }, flt := s.flt } = s

theorem TouchesLoop.trans {slot : Nat} {s t u : State} (h : TouchesLoop slot s t) (g : TouchesLoop slot t u) :
    TouchesLoop slot s u where
  others i hi := (g.others i hi).trans (h.others i hi)
  frame := (congrArg (fun v : State => { v with engine := { v.engine with loops := s.engine.loops }, flt := s.flt })
    g.frame).trans h.frame

theorem TouchesLoop.engineFrame {slot : Nat} {s t : State} (h : TouchesLoop slot s t) :
    { t with engine := s.engine, flt := s.flt } = s :=
  congrArg (fun u : State => { u with engine := s.engine }) h.frame

theorem TouchesLoop.headOwner {slot : Nat} {s t : State} (h : TouchesLoop slot s t) :
    Machine.headOwner t slot = Machine.headOwner s slot := (congrArg (Machine.headOwner · slot) h.frame :)


theorem touchesLoop_modLoop (slot : Nat) (f : Loop → Loop) (s : State) : TouchesLoop slot s (s.modLoop slot f) :=
  ⟨fun i hi => State.modLoop_ne s slot f i hi.symm, rfl⟩

theorem touchesLoop_present (slot source : Nat) (unit : Option Nat) (detail : Nat) (s : State) :
    TouchesLoop slot s (present source unit detail s) := ⟨fun _ _ => rfl, rfl⟩

theorem touchesLoop_raiseIf (slot source : Nat) (unit : Option Nat) (detail : Nat) (c : Prop) [Decidable c] (s : State) :
    TouchesLoop slot s (if c then present source unit detail s else s) := by
  split <;> exact ⟨fun _ _ => rfl, rfl⟩

theorem raiseIf_loop (source : Nat) (unit : Option Nat) (detail : Nat) (c : Prop) [Decidable c] (s : State) (i : Nat) :
    (if c then present source unit detail s else s).loop i = s.loop i := by
  split <;> rfl

/-- R261: the commit of a slot's integrators. -/
theorem commitLoop_touches (slot : Nat) (held limited deselected : Bool) (s : State) :
    TouchesLoop slot s (commitLoop slot held limited deselected s) :=
  (touchesLoop_modLoop slot _ s).trans (touchesLoop_raiseIf slot _ _ _ _ _)

theorem commitLoop_reading (slot : Nat) (held limited deselected : Bool) (s : State) (h : slot < s.engine.loops.length) :
    ((commitLoop slot held limited deselected s).loop slot).reading = (s.loop slot).reading := by
  unfold commitLoop
  dsimp only
  rw [raiseIf_loop, State.modLoop_same _ _ _ h]
  rfl

/-- R256: a slot without a destination is settled by its commit alone. -/
theorem settleLoop_undelivered (slot : Nat) (s : State) (h : (s.loop slot).outSel.kind = 0) :
    settleLoop slot s = commitLoop slot ((s.loop slot).saturated || ownerHolds s slot) false false s := by
  unfold settleLoop deliver
  simp [h]

/-! ### One evaluation (R257, R260) -/

theorem fitted_inFormat (v : Int) (s : State) (h : inFormat v = true) : fitted (some v) s = (v, s) := by
  simp [fitted, h]

/-- A change that leaves an element as it is changes nothing. -/
theorem modAt_self {α : Type} (l : List α) (i : Nat) (f : α → α) (d : α) (hlt : i < l.length) (h : f (at' l i d) = at' l i d) :
    modAt l i f = l := by
  induction l generalizing i with
  | nil => cases hlt
  | cons x xs ih =>
    cases i with
    | zero => exact congrArg (· :: xs) h
    | succ i => exact congrArg (x :: ·) (ih i (Nat.lt_of_succ_lt_succ hlt) h)

/-- A change that leaves a loop as it is is none. -/
theorem modLoop_id (slot : Nat) (f : Loop → Loop) (s : State) (hlen : slot < s.engine.loops.length)
    (h : f (s.loop slot) = s.loop slot) : s.modLoop slot f = s := by
  unfold State.modLoop
  rw [modAt_self _ _ _ _ hlen h]

/-- An evaluation of a slot that no head owns, from a variable, with its states kept: R257. -/
theorem evaluate_ownerless (slot counts : Nat) (s : State) (hlen : slot < s.engine.loops.length)
    (hown : headOwner s slot = none) (hreset : (s.loop slot).resetNext = false) (href : (s.loop slot).refNext = none)
    (hkind : (s.loop slot).inSel.kind = 9) (v x : Int)
    (hv : v = delivered s.engine.tick (at' s.engine.vars (s.loop slot).inSel.index 0)
      (at' s.engine.varsBefore (s.loop slot).inSel.index (0, 0)))
    (hx : x = if (s.loop slot).invert then v - (s.loop slot).ref else (s.loop slot).ref - v)
    (hvf : inFormat v = true) (hxf : inFormat x = true) :
    TouchesLoop slot s (evaluate slot counts s) ∧
    ((evaluate slot counts s).loop slot).reading =
      (min (max ((evalStages (s.loop slot).stages x).1 + (s.loop slot).bias + additive s slot) (s.loop slot).outMin)
        (s.loop slot).outMax, x, v, (s.loop slot).evals + 1, (s.loop slot).lastTick) ∧
    ((evaluate slot counts s).loop slot).group = (s.loop slot).group ∧
    ((evaluate slot counts s).loop slot).outSel = (s.loop slot).outSel ∧
    slot < (evaluate slot counts s).engine.loops.length := by
  have hkept : s.modLoop slot (fun l => l.takeRef s.time.toNat) = s := by
    refine modLoop_id slot _ s hlen ?_
    unfold Loop.takeRef
    rw [href]
  have hsel : selValue (s.loop slot).inSel s.engine.tick counts (s.loop slot).pdSum (s.loop slot).pdCnt s = some v := by
    unfold selValue
    rw [hkind, hv]
    rfl
  have hlim : loopLimits s slot = ((s.loop slot).outMin, (s.loop slot).outMax) := by
    unfold loopLimits
    rw [hown]
  have hown' (f : Loop → Loop) : headOwner (s.modLoop slot f) slot = none := hown
  unfold evaluate
  simp only [hkept, hreset, hkind, hsel, hlim, ← hx, fitted_inFormat _ _ hvf, fitted_inFormat _ _ hxf, Bool.false_eq_true,
    if_false, decide_false, Bool.false_and, Nat.reduceEqDiff, hown']
  split
  · refine ⟨(touchesLoop_modLoop _ _ _).trans ((touchesLoop_modLoop _ _ _).trans (touchesLoop_present ..)), ?_⟩
    rw [present_loop, State.modLoop_same _ _ _ (by simpa using hlen), State.modLoop_same _ _ _ hlen]
    exact ⟨rfl, rfl, rfl, by simpa using hlen⟩
  · refine ⟨touchesLoop_modLoop _ _ _, ?_⟩
    rw [State.modLoop_same _ _ _ hlen]
    exact ⟨rfl, rfl, rfl, by simpa using hlen⟩

/-! ### Saturation and selection (R257, R264) -/

theorem saturate_inFormat (v : Int) (h : inFormat v = true) : saturate v = (v, 0) := by
  have hr : -2 ^ 31 ≤ v ∧ v < 2 ^ 31 := by simpa [inFormat] using h
  unfold saturate clampI
  rw [if_neg (by omega), if_neg (by omega), h]
  rfl

theorem saturate_high (v : Int) (h : 2 ^ 31 ≤ v) : saturate v = (2 ^ 31 - 1, 1) := by
  have hf : inFormat v = false := by
    unfold inFormat
    rw [decide_eq_false (show ¬ v < 2 ^ 31 by omega), Bool.and_false]
  unfold saturate clampI
  rw [if_neg (by omega), if_pos (by omega), hf]
  rfl

theorem saturate_low (v : Int) (h : v < -2 ^ 31) : saturate v = (-2 ^ 31, 1) := by
  have hf : inFormat v = false := by
    unfold inFormat
    rw [decide_eq_false (show ¬ -2 ^ 31 ≤ v by omega), Bool.false_and]
  unfold saturate clampI
  rw [if_pos (by omega), hf]
  rfl

theorem clampI_eq (lo hi v : Int) (h : lo ≤ hi) : clampI lo hi v = min (max v lo) hi := by
  unfold clampI
  split
  · omega
  · split <;> omega

/-- One comparison of the min-select. -/
def lowerOf (s : State) (w : Option Nat) (i : Nat) : Option Nat :=
  match w with
  | none => some i
  | some j => if (s.loop i).out < (s.loop j).out then some i else some j

theorem lowerOf_some (s : State) (j i : Nat) :
    lowerOf s (some j) i = some (if (s.loop i).out < (s.loop j).out then i else j) := by
  unfold lowerOf
  dsimp only
  split <;> rfl

/-- Going through slots in ascending order, the winner so far is the lowest slot with the lowest output. -/
theorem foldl_lowerOf (s : State) (is seen : List Nat) (acc : Option Nat) (w : Nat) (hs : (seen ++ is).Pairwise (· < ·))
    (hnone : acc = none → seen = [])
    (hacc : ∀ j, acc = some j → j ∈ seen ∧ ∀ i ∈ seen, (s.loop j).out ≤ (s.loop i).out ∧
      ((s.loop i).out = (s.loop j).out → j ≤ i))
    (h : is.foldl (lowerOf s) acc = some w) :
    w ∈ seen ++ is ∧ ∀ i ∈ seen ++ is, (s.loop w).out ≤ (s.loop i).out ∧ ((s.loop i).out = (s.loop w).out → w ≤ i) := by
  induction is generalizing seen acc with
  | nil => simpa using hacc w h
  | cons i is ih =>
    have happ : seen ++ i :: is = (seen ++ [i]) ++ is := by simp
    rw [happ] at hs ⊢
    have hlt : ∀ k ∈ seen, k < i := fun k hk =>
      (List.pairwise_append.1 (List.pairwise_append.1 hs).1).2.2 k hk i (by simp)
    refine ih (seen ++ [i]) (lowerOf s acc i) hs (fun hn => ?_) (fun j hj => ?_) h
    · cases acc with
      | none => cases hn
      | some j => rw [lowerOf_some] at hn; cases hn
    · cases acc with
      | none =>
        obtain rfl : i = j := by simpa [lowerOf] using hj
        simp [hnone rfl]
      | some k =>
        obtain ⟨hk, hall⟩ := hacc k rfl
        have hki := hlt k hk
        rw [lowerOf_some] at hj
        by_cases hout : (s.loop i).out < (s.loop k).out
        · obtain rfl : i = j := by simpa [hout] using hj
          refine ⟨by simp, fun m hm => ?_⟩
          rcases List.mem_append.1 hm with hm | hm
          · have := hall m hm; omega
          · obtain rfl : m = i := by simpa using hm
            omega
        · obtain rfl : k = j := by simpa [hout] using hj
          refine ⟨by simp [hk], fun m hm => ?_⟩
          rcases List.mem_append.1 hm with hm | hm
          · exact hall m hm
          · obtain rfl : m = i := by simpa using hm
            omega

theorem selected_lowest (s : State) (g w : Nat) (h : selected s g = some w) : w ∈ enabledMembers s g ∧
    ∀ i ∈ enabledMembers s g, (s.loop w).out ≤ (s.loop i).out ∧ ((s.loop i).out = (s.loop w).out → w ≤ i) := by
  have hsorted : ([] ++ enabledMembers s g).Pairwise (· < ·) := List.Pairwise.filter _ List.pairwise_lt_range
  have hfold : (enabledMembers s g).foldl (lowerOf s) none = some w := by
    rw [← h]
    unfold selected
    rfl
  exact foldl_lowerOf s (enabledMembers s g) [] none w hsorted (fun _ => rfl) (fun j hj => by cases hj) hfold

/-- A scheduled evaluation that comes in time: the slot's clock, its evaluation, and its settlement. -/
theorem execLoopEvaluation_due (slot counts : Nat) (s : State) (hloaded : (s.loop slot).loaded = true)
    (hen : (s.loop slot).enabled = true) (hnext : nextToEvaluate s slot = true) (s' w : State)
    (hs' : s' = classGrants 2 128
      ({ s with engine := { s.engine with tick := (s.loop slot).dueTick } }.advanceTo (s.loop slot).dueTick))
    (htime : s'.time.toNat ≤ (s.loop slot).dueTick + 1280) (hown : headOwner s' slot = none)
    (hw : w = evaluate slot counts (s'.modLoop slot fun l => { l with lastTick := (s.loop slot).dueTick }))
    (hown' : headOwner w slot = none) (hgroup : (w.loop slot).group = none) :
    exec (.loopEvaluation slot counts) s = .next (settleLoop slot w) := by
  change execLoopEvaluation slot counts s = _
  have hown₁ (f : Loop → Loop) : headOwner (s'.modLoop slot f) slot = none := hown
  unfold execLoopEvaluation
  simp only [hloaded, hen, hnext, ← hs', startGain, hown₁, ← hw, noteHold, hown', hgroup, Bool.not_true, Bool.or_self,
    Bool.false_eq_true, if_false, show ¬ (s.loop slot).dueTick + 1280 < s'.time.toNat by omega]

/-- A raise that is made once per binding leaves the controller as it is but for its mark. -/
theorem raisedRepctl_effect (c : Prop) [Decidable c] (k source : Nat) (s : State) (hlt : k < s.engine.repctls.length) :
    let t := if c then present source (some k) 0 (s.modRepctl k fun r => { r with raised := true }) else s
    (∃ b, t.repctl k = { s.repctl k with raised := b }) ∧ (∀ m, m ≠ k → t.repctl m = s.repctl m) ∧
    { t with engine := s.engine, flt := s.flt } = s ∧ k < t.engine.repctls.length := by
  by_cases h : c
  · simp only [if_pos h]
    refine ⟨⟨true, State.modRepctl_same _ _ _ hlt⟩, fun m hm => State.modRepctl_ne _ _ _ _ hm.symm, rfl, by simpa using hlt⟩
  · simp only [if_neg h]
    exact ⟨⟨(s.repctl k).raised, rfl⟩, fun _ _ => trivial, trivial, hlt⟩

/-- R268: one update of a controller changes one entry of its table. -/
theorem learn_effect (k j : Nat) (e : Int) (s : State) (hlt : k < s.engine.repctls.length) (hper : (s.repctl k).period ≠ 0) :
    ((learn k j e s).repctl k).table =
      modAt (s.repctl k).table (((j : Int) - (s.repctl k).lead) % ((s.repctl k).period : Int)).toNat (fun _ =>
        clampI (-((s.repctl k).clamp : Int)) (s.repctl k).clamp (nearest
          ((if (s.repctl k).forget = 0 then 65536 else ((s.repctl k).forget : Int)) *
              (s.repctl k).entry (((j : Int) - (s.repctl k).lead) % ((s.repctl k).period : Int)).toNat +
            (s.repctl k).gain * e) 65536)) ∧
    ((learn k j e s).repctl k).updates = (s.repctl k).updates + 1 ∧
    ((learn k j e s).repctl k).pending = (s.repctl k).pending ∧
    (∀ m, m ≠ k → (learn k j e s).repctl m = s.repctl m) ∧
    { learn k j e s with engine := s.engine, flt := s.flt } = s ∧ k < (learn k j e s).engine.repctls.length := by
  unfold learn
  simp only [if_neg hper]
  generalize hq : (if (s.repctl k).forget = 0 then (65536 : Int) else (s.repctl k).forget) = q
  generalize clampI _ _ _ = c
  generalize nearest _ _ = v
  generalize Int.toNat _ = i
  generalize hs₁ : s.modRepctl k _ = s₁
  have hlt₁ : k < s₁.engine.repctls.length := by rw [← hs₁]; simpa using hlt
  obtain ⟨⟨b, hb⟩, hothers, hframe, hlen⟩ := raisedRepctl_effect (c ≠ v ∧ (!(s₁.repctl k).raised) = true) k 0x0123 s₁ hlt₁
  rw [hb]
  refine ⟨?_, ?_, ?_, fun m hm => (hothers m hm).trans ?_, ?_, hlen⟩
  · rw [← hs₁, State.modRepctl_same _ _ _ hlt]
  · rw [← hs₁, State.modRepctl_same _ _ _ hlt]
  · rw [← hs₁, State.modRepctl_same _ _ _ hlt]
  · rw [← hs₁, State.modRepctl_ne _ _ _ _ hm.symm]
  · exact (congrArg (fun u : State => { u with engine := s.engine, flt := s.flt }) hframe).trans (by rw [← hs₁])

/-- Grants of class 0 to 2 take budget and time. -/
theorem classGrants_frame (c n : Nat) (s : State) :
    { classGrants c n s with dma := s.dma, atoll := s.atoll, time := s.time, sync := s.sync } = s := by
  unfold classGrants
  generalize List.range ((n + 63) / 64) = is
  induction is generalizing s with
  | nil => rfl
  | cons i is ih =>
    exact (congrArg (fun u : State => { u with dma := s.dma, atoll := s.atoll, time := s.time, sync := s.sync })
      (ih (classGrant c s))).trans (classGrant_frame c s)

/-- Time passes and grants are made: nothing else changes. -/
theorem granted_frame (c n t : Nat) (s : State) :
    { classGrants c n (s.advanceTo t) with dma := s.dma, atoll := s.atoll, time := s.time, sync := s.sync } = s :=
  (congrArg (fun u : State => { u with dma := s.dma, atoll := s.atoll, time := s.time, sync := s.sync })
    (classGrants_frame c n (s.advanceTo t))).trans
    ((congrArg (fun u : State => { u with dma := s.dma }) (advanceTo_frame s t)).trans rfl)

/-- Settles O33: the evaluation of a slot by R257, the min-select, and the repetitive controllers. -/
theorem loopsAreEvaluated : Obligations.LoopsAreEvaluated := by
  unfold Obligations.LoopsAreEvaluated
  refine ⟨?_, ?_, ?_, fun v => ⟨saturate_inFormat v, saturate_high v, saturate_low v⟩, selected_lowest, ?_, ?_, ?_, ?_, ?_, ?_, ?_⟩
  · intro slot counts s h
    change execLoopEvaluation slot counts s = _
    rcases h with h | h <;> simp [execLoopEvaluation, h]
  · intro slot counts s hlen hslot l s' v x u hnext htime href hloaded hen hreset hgroup hown _ hkind hout hv hx
    have hs' : s' = classGrants 2 128 ({ s with engine := { s.engine with tick := l.dueTick } }.advanceTo l.dueTick) := rfl
    clear_value s'
    have hframe : { s' with dma := s.dma, atoll := s.atoll, time := s.time, sync := s.sync } =
        { s with engine := { s.engine with tick := l.dueTick } } := by
      rw [hs']
      exact granted_frame 2 128 l.dueTick { s with engine := { s.engine with tick := l.dueTick } }
    have heng : s'.engine = { s.engine with tick := l.dueTick } := (congrArg State.engine hframe :)
    have hown' : headOwner s' slot = none := ((congrArg (headOwner · slot) hframe :)).trans hown
    have hlt : slot < s'.engine.loops.length := by rw [heng]; exact hlen ▸ hslot
    have hloop : s'.loop slot = l := by rw [State.loop, heng]; rfl
    generalize hs₁ : (s'.modLoop slot fun l' => { l' with lastTick := l.dueTick }) = s₁
    have hs₁loop : s₁.loop slot = { l with lastTick := l.dueTick } := by
      rw [← hs₁, State.modLoop_same _ _ _ hlt, hloop]
    have htouch₁ : TouchesLoop slot s' s₁ := hs₁ ▸ touchesLoop_modLoop slot _ s'
    have heng₁ : s₁.engine.tick = l.dueTick ∧ s₁.engine.vars = s.engine.vars ∧ s₁.engine.varsBefore = s.engine.varsBefore := by
      rw [← hs₁]
      change s'.engine.tick = _ ∧ s'.engine.vars = _ ∧ s'.engine.varsBefore = _
      rw [heng]
      exact ⟨rfl, rfl, rfl⟩
    obtain ⟨htick, hvars, hbefore⟩ := heng₁
    have hadd : additive s₁ slot = additive s' slot := by rw [← hs₁]; rfl
    have hlt₁ : slot < s₁.engine.loops.length := by rw [← hs₁]; simpa using hlt
    obtain ⟨htouch₂, hread, hgroup₂, hout₂, hlt₂⟩ := evaluate_ownerless slot counts s₁ hlt₁
      (htouch₁.headOwner.trans hown') (by rw [hs₁loop]; exact hreset) (by rw [hs₁loop]; exact href)
      (by rw [hs₁loop]; exact hkind) v x (by rw [htick, hvars, hbefore, hs₁loop]) (by rw [hs₁loop]) hv hx
    rw [hs₁loop] at hread hgroup₂ hout₂
    refine ⟨_, execLoopEvaluation_due slot counts s hloaded hen hnext s' (evaluate slot counts s₁) hs' htime hown'
      (by rw [← hs₁]) (htouch₂.headOwner.trans (htouch₁.headOwner.trans hown')) (hgroup₂.trans hgroup), ?_⟩
    rw [settleLoop_undelivered _ _ (by rw [hout₂]; exact hout)]
    generalize (((evaluate slot counts s₁).loop slot).saturated || ownerHolds (evaluate slot counts s₁) slot) = hold
    have htouch := (htouch₁.trans htouch₂).trans (commitLoop_touches slot hold false false (evaluate slot counts s₁))
    have hreading := (commitLoop_reading slot hold false false _ hlt₂).trans hread
    simp only [Loop.reading, Prod.mk.injEq, hadd] at hreading
    obtain ⟨hro, hre, hri, hrv, hrt⟩ := hreading
    refine ⟨hro, hre, hri, hrv, hrt, fun i hi => (htouch.others i hi).trans ?_,
      htouch.engineFrame⟩
    rw [State.loop, heng]
    rfl
  · intro slot counts s h
    change execLoopEvaluation slot counts s = _
    simp [execLoopEvaluation, h]
  · intro k counts s h
    change execRepctlUpdate k counts s = _
    simp only [execRepctlUpdate, h]
  · intro k counts j e since rest s hlen hk r i q hmode hpend hup hper
    change ∃ t, execRepctlUpdate k counts s = _ ∧ _
    have hlt : k < s.engine.repctls.length := by omega
    generalize hs₁ : (s.modRepctl k fun r => { r with pending := rest, j := j }) = s₁
    have hr₁ : s₁.repctl k = { r with pending := rest, j := j } := by rw [← hs₁, State.modRepctl_same _ _ _ hlt]
    have hlt₁ : k < s₁.engine.repctls.length := by rw [← hs₁]; simpa using hlt
    obtain ⟨htable, hupdates, hpending, hothers, hframe, hlen₂⟩ := learn_effect k j e s₁ hlt₁ (by rw [hr₁]; exact hper)
    refine ⟨(learn k j e s₁).modRepctl k fun r => { r with last := since }, ?_, ?_⟩
    · simp only [execRepctlUpdate, show (s.repctl k).mode = 1 from hmode,
        show (s.repctl k).pending = (j, e, since) :: rest from hpend, show (s.repctl k).updates = 0 from hup, hs₁,
        ne_eq, not_true_eq_false, false_and, if_false]
    · rw [State.modRepctl_same _ _ _ hlen₂]
      rw [hr₁] at htable hupdates hpending
      refine ⟨hupdates.trans (by rw [show r.updates = 0 from hup]; rfl), hpending, htable, fun m hm => ?_, ?_⟩
      · rw [State.modRepctl_ne _ _ _ _ hm.symm, hothers m hm, ← hs₁, State.modRepctl_ne _ _ _ _ hm.symm]
      · exact (congrArg (fun u : State => { u with engine := s.engine, flt := s.flt }) hframe).trans (by rw [← hs₁])
  · intro rq s hs hslot hloaded
    have hslot' : ¬ 64 ≤ rq.u8 0 := by omega
    refine ⟨_, command_pass 0x0906 rq _ _ s hs (by simp [hslot', hloaded]), ?_⟩
    simp only [List.append_assoc]
    refine ⟨by simp, by rw [List.take_append_of_le_length (by simp)]; simp, ?_, ?_⟩
    · simp [leAt_left, leAt_right, leAt_leBytes]
      exact (s.loop (rq.u8 0)).evals.isLt
    · simp [leAt_left, leAt_right, leAt_count]
  · intro rq s hs hk
    have hk' : ¬ 8 ≤ rq.u8 0 := by omega
    refine ⟨_, command_pass 0x0907 rq _ _ s hs (by simp [hk']), ?_⟩
    simp only [List.append_assoc]
    refine ⟨by simp, ?_, ?_, ?_⟩
    · simp [leAt_left, leAt_right, leAt_leBytes]
      exact (s.repctl (rq.u8 0)).updates.isLt
    · simp [leAt_left, leAt_right, leAt_count]
    · simp [leAt_left, leAt_right, leAt_count]
  · intro rq a s hs hk hdir hloaded hplace
    have hk' : ¬ 8 ≤ rq.u8 0 := by omega
    have hdir' : ¬ 1 < rq.u8 1 := by omega
    have htable (write : Bool) : repctlTable write rq s = .next (accept rq 0x0981 [] (s.modRepctl (rq.u8 0) fun r =>
        { r with xfer := r.xfer ++ [(rq.ctx s 0x0981, write, rq.u64 4, BitVec.ofNat 32 (rq.u32 12))] })) := by
      unfold repctlTable
      exact command_pass 0x0981 rq _ _ s hs (by simp [hk', hdir', hloaded, hplace])
    exact ⟨htable false, htable true⟩
  · intro k address host b c crc rest s hxfer u hup hb
    change execControlRepctlTableDone k host s = _
    unfold execControlRepctlTableDone
    simp only [hxfer]
    have hu : (coreRead cameraCore address (4 * (s.repctl k).period) s).coreUp cameraCore = true := hup
    have hb' : (u.modRepctl k fun r => { r with xfer := rest }).tableOr address (4 * (s.repctl k).period) host = some b := hb
    simp only [if_true, hu, Bool.not_true, Bool.false_eq_true, if_false]
    rw [hb']
    dsimp only
    split
    · next hcrc => rw [hcrc]
    · rfl
  · intro k address host c crc rest s t hup hxfer b hput
    change execControlRepctlTableDone k host s = _
    unfold execControlRepctlTableDone
    simp only [hxfer, hup, Bool.false_eq_true, if_false, Bool.not_true]
    rw [hput]

end Sys2Proof.Machine
end

section
/-!
SUPPORT. What DRAM operations leave unchanged (spec/13_dram_ecc.md): opening a row, checking a word, and writing out.
-/
namespace Sys2Proof.Machine

open Sys2Proof

/-! ### Opening a row: only the channel's rows, refreshes and row counters, time and raises change -/

/-- The channels' scheduling state, time and the raises that wait are all that changes. -/
structure RowsMove (s t : State) : Prop where
  dram : { t.dram with
    openRows := s.dram.openRows, refreshEnd := s.dram.refreshEnd, wckWaits := s.dram.wckWaits,
    refreshAt := s.dram.refreshAt, rowWindow := s.dram.rowWindow, tables := s.dram.tables, throttled := s.dram.throttled,
    rowLog := s.dram.rowLog, rowOver := s.dram.rowOver, throttles := s.dram.throttles } = s.dram
  flt : { t.flt with presented := s.flt.presented } = s.flt
  rest : { t with dram := s.dram, flt := s.flt, atoll := s.atoll, time := s.time, sync := s.sync } = s

theorem RowsMove.refl (s : State) : RowsMove s s := ⟨rfl, rfl, rfl⟩

theorem RowsMove.trans {s t u : State} (h : RowsMove s t) (g : RowsMove t u) : RowsMove s u where
  dram := (congrArg (fun d : Dram => { d with
    openRows := s.dram.openRows, refreshEnd := s.dram.refreshEnd, wckWaits := s.dram.wckWaits,
    refreshAt := s.dram.refreshAt, rowWindow := s.dram.rowWindow, tables := s.dram.tables, throttled := s.dram.throttled,
    rowLog := s.dram.rowLog, rowOver := s.dram.rowOver, throttles := s.dram.throttles }) g.dram).trans h.dram
  flt := (congrArg (fun f : Flt => { f with presented := s.flt.presented }) g.flt).trans h.flt
  rest := (congrArg (fun v : State => { v with dram := s.dram, flt := s.flt, atoll := s.atoll, time := s.time, sync := s.sync })
    g.rest).trans h.rest

theorem rowsMove_advance (s : State) (k : Nat) : RowsMove s (s.advance k) := by
  have h := advance_frame s k
  exact ⟨by rw [(congrArg State.dram h :)], by rw [(congrArg State.flt h :)],
    (congrArg (fun v : State => { v with dram := s.dram, flt := s.flt }) h :)⟩

theorem rowsMove_advanceTo (s : State) (t : Nat) : RowsMove s (s.advanceTo t) := by
  have h := advanceTo_frame s t
  exact ⟨by rw [(congrArg State.dram h :)], by rw [(congrArg State.flt h :)],
    (congrArg (fun v : State => { v with dram := s.dram, flt := s.flt }) h :)⟩

theorem rowsMove_refresh (channel : Nat) (s : State) : RowsMove s (refresh channel s) := ⟨rfl, rfl, rfl⟩

theorem rowsMove_inRowWindow (s : State) : RowsMove s (inRowWindow s) := by
  unfold inRowWindow
  dsimp only
  split <;> exact ⟨rfl, rfl, rfl⟩

theorem rowsMove_settleChannel (channel : Nat) (s : State) : RowsMove s (settleChannel channel s) := by
  unfold settleChannel
  dsimp only
  split
  · exact (rowsMove_refresh channel s).trans ((rowsMove_advanceTo _ _).trans (rowsMove_inRowWindow _))
  · exact (rowsMove_advanceTo _ _).trans (rowsMove_inRowWindow _)

theorem rowsMove_activate (p : Cellpos) (requester : Nat) (s : State) : RowsMove s (activate p requester s) := by
  unfold activate
  dsimp only
  split <;> exact ⟨rfl, rfl, rfl⟩

theorem rowsMove_openRow (requester a : Nat) (s : State) : RowsMove s (openRow requester a s) := by
  have h := rowsMove_settleChannel (s.dram.cfg.decode a).channel s
  unfold openRow
  dsimp only
  split
  · exact h
  · split
    · exact h.trans ((rowsMove_advanceTo _ _).trans ((rowsMove_settleChannel _ _).trans (rowsMove_activate ..)))
    · exact h.trans (rowsMove_activate ..)

/-! ### Checking words: beyond that, errors, their logs and a stopped core -/

/-- The contents, the configuration and the requests of DRAM stay, as does every unit but the fault fabric. -/
structure DramChecked (s t : State) : Prop where
  dram : { t.dram with
    openRows := s.dram.openRows, refreshEnd := s.dram.refreshEnd, wckWaits := s.dram.wckWaits,
    refreshAt := s.dram.refreshAt, rowWindow := s.dram.rowWindow, tables := s.dram.tables, throttled := s.dram.throttled,
    rowLog := s.dram.rowLog, rowOver := s.dram.rowOver, throttles := s.dram.throttles, errs := s.dram.errs,
    poison := s.dram.poison, inject := s.dram.inject, log := s.dram.log, logOver := s.dram.logOver,
    corrected := s.dram.corrected, uncorr := s.dram.uncorr, lastUncorr := s.dram.lastUncorr,
    rmw := s.dram.rmw, poisoned := s.dram.poisoned } = s.dram
  flt : { t.flt with presented := s.flt.presented } = s.flt
  rest : { t with
    dram := s.dram, flt := s.flt, atoll := s.atoll, time := s.time, sync := s.sync, held := s.held, free := s.free } = s

theorem DramChecked.refl (s : State) : DramChecked s s := ⟨rfl, rfl, rfl⟩

theorem DramChecked.trans {s t u : State} (h : DramChecked s t) (g : DramChecked t u) : DramChecked s u where
  dram := (congrArg (fun d : Dram => { d with
    openRows := s.dram.openRows, refreshEnd := s.dram.refreshEnd, wckWaits := s.dram.wckWaits,
    refreshAt := s.dram.refreshAt, rowWindow := s.dram.rowWindow, tables := s.dram.tables, throttled := s.dram.throttled,
    rowLog := s.dram.rowLog, rowOver := s.dram.rowOver, throttles := s.dram.throttles, errs := s.dram.errs,
    poison := s.dram.poison, inject := s.dram.inject, log := s.dram.log, logOver := s.dram.logOver,
    corrected := s.dram.corrected, uncorr := s.dram.uncorr, lastUncorr := s.dram.lastUncorr,
    rmw := s.dram.rmw, poisoned := s.dram.poisoned }) g.dram).trans h.dram
  flt := (congrArg (fun f : Flt => { f with presented := s.flt.presented }) g.flt).trans h.flt
  rest := (congrArg (fun v : State => { v with
    dram := s.dram, flt := s.flt, atoll := s.atoll, time := s.time, sync := s.sync, held := s.held, free := s.free })
    g.rest).trans h.rest

theorem RowsMove.checked {s t : State} (h : RowsMove s t) : DramChecked s t where
  dram := congrArg (fun d : Dram => { d with
    errs := s.dram.errs, poison := s.dram.poison, inject := s.dram.inject, log := s.dram.log, logOver := s.dram.logOver,
    corrected := s.dram.corrected, uncorr := s.dram.uncorr, lastUncorr := s.dram.lastUncorr,
    rmw := s.dram.rmw, poisoned := s.dram.poisoned }) h.dram
  flt := h.flt
  rest := congrArg (fun v : State => { v with held := s.held, free := s.free }) h.rest

theorem DramChecked.mem {s t : State} (h : DramChecked s t) : t.dram.mem = s.dram.mem := (congrArg Dram.mem h.dram :)

theorem DramChecked.merge {s t : State} (h : DramChecked s t) : t.dram.merge = s.dram.merge := (congrArg Dram.merge h.dram :)

theorem DramChecked.byte {s t : State} (h : DramChecked s t) (x : Nat) : t.dram.byte x = s.dram.byte x := by
  unfold Dram.byte
  rw [h.mem, h.merge]

theorem dramChecked_stopCore (core : Nat) (s : State) : DramChecked s (stopCore core s) := by
  unfold stopCore
  split <;> exact ⟨rfl, rfl, rfl⟩

theorem dramChecked_uncorrectable (told : Bool) (w requester : Nat) (s : State) :
    DramChecked s (dramUncorrectable told w requester s) := by
  unfold dramUncorrectable
  dsimp only
  split <;> split
  · refine DramChecked.trans ?_ (dramChecked_stopCore ..)
    exact ⟨rfl, rfl, rfl⟩
  · refine DramChecked.trans ?_ (dramChecked_stopCore ..)
    exact ⟨rfl, rfl, rfl⟩
  · exact ⟨rfl, rfl, rfl⟩
  · exact ⟨rfl, rfl, rfl⟩

theorem dramChecked_corrected (w requester : Nat) (s : State) : DramChecked s (dramCorrected w requester s) :=
  ⟨rfl, rfl, rfl⟩

theorem dramChecked_checkWord (told : Bool) (requester w upset : Nat) (s : State) :
    DramChecked s (checkWord told requester w upset s).2 := by
  have h := (rowsMove_openRow requester w s).checked
  unfold checkWord
  dsimp only
  split
  · exact h
  · split
    · exact h.trans (dramChecked_corrected ..)
    · exact h.trans (dramChecked_uncorrectable ..)

theorem dramChecked_checkWords (requester k w upset : Nat) (s : State) :
    DramChecked s (checkWords requester k w upset s).2 := by
  induction k generalizing w upset s with
  | zero => exact DramChecked.refl s
  | succ k ih =>
    have h := dramChecked_checkWord true requester w upset s
    unfold checkWords
    dsimp only
    split
    · exact h.trans (ih _ _ _)
    · exact h

theorem dramChecked_freshWord (w : Nat) (s : State) : DramChecked s { s with dram := s.dram.freshWord w } := by
  unfold Dram.freshWord
  split <;> exact ⟨rfl, rfl, rfl⟩

theorem dramChecked_foldl {α : Type} (f : State → α → State) (l : List α) (s : State) (hf : ∀ s x, DramChecked s (f s x)) :
    DramChecked s (l.foldl f s) := by
  induction l generalizing s with
  | nil => exact DramChecked.refl s
  | cons x l ih => exact (hf s x).trans (ih _)

theorem dramChecked_rmwWord (e : MergeEntry) (k : Nat) (s : State) : DramChecked s (rmwWord e k s) := by
  have h := dramChecked_checkWord false e.requester (e.block * 64 + 8 * k) 0 s
  unfold rmwWord
  dsimp only
  generalize checkWord false e.requester (e.block * 64 + 8 * k) 0 s = r at h ⊢
  have hfresh := h.trans (dramChecked_freshWord (e.block * 64 + 8 * k) r.2)
  split
  · exact h
  · split
    · exact hfresh
    · exact hfresh.trans ⟨rfl, rfl, rfl⟩

theorem dramChecked_wholeWord (e : MergeEntry) (s : State) (k : Nat) : DramChecked s (wholeWord e s k) := by
  unfold wholeWord
  split
  · exact DramChecked.refl s
  · exact dramChecked_freshWord ..

end Sys2Proof.Machine
end

section
/-!
O39: DRAM returns what was written (R317, R319 to R326): what each write makes of the bytes that a read returns.
-/
namespace Sys2Proof.Machine

open Sys2Proof

/-! ### The merge buffer as a map from blocks to entries -/

/-- The cells are canonical, and the merge buffer holds one whole entry for a block. -/
structure MergeOk (d : Dram) : Prop where
  wf : cellsWf 0 d.mem = true
  nodup : (d.merge.map (·.block)).Nodup
  whole : ∀ e ∈ d.merge, e.bytes.length = 64

/-- The byte of an address that an entry holds. -/
def MergeEntry.byteAt (e : MergeEntry) (x : Nat) : Option Byte :=
  if e.valid.getLsbD (x % 64) then some (at' e.bytes (x % 64) 0) else none

theorem mergeByte_eq (m : List MergeEntry) (x : Nat) :
    mergeByte m x = (m.find? fun e => e.block = x / 64).bind fun e => e.byteAt x := by
  unfold mergeByte MergeEntry.byteAt
  cases m.find? fun e => e.block = x / 64 <;> rfl

theorem DramChecked.ok {s t : State} (h : DramChecked s t) (hs : MergeOk s.dram) : MergeOk t.dram :=
  ⟨by rw [h.mem]; exact hs.wf, by rw [h.merge]; exact hs.nodup, by rw [h.merge]; exact hs.whole⟩

/-- Without the entry of a block the cells answer for it. -/
theorem mergeByte_filter (m : List MergeEntry) (b x : Nat) :
    mergeByte (m.filter fun f => f.block ≠ b) x = if x / 64 = b then none else mergeByte m x := by
  rw [mergeByte_eq, mergeByte_eq, List.find?_filter]
  by_cases hx : x / 64 = b
  · have hnone : (m.find? fun e => decide (decide (e.block ≠ b) = true ∧ decide (e.block = x / 64) = true)) = none := by
      refine List.find?_eq_none.2 fun e _ => ?_
      simp [hx]
    rw [hnone, if_pos hx]
    rfl
  · have hsame : (fun e : MergeEntry => decide (decide (e.block ≠ b) = true ∧ decide (e.block = x / 64) = true)) =
        fun e => decide (e.block = x / 64) := by
      funext e
      have : e.block = x / 64 → e.block ≠ b := fun h => h ▸ hx
      simpa using this
    rw [hsame, if_neg hx]

/-- The entry of a block is replaced. -/
theorem mergeByte_replace (m : List MergeEntry) (e : MergeEntry) (x : Nat) (hany : (m.any fun f => f.block = e.block) = true) :
    mergeByte (m.map fun f => if f.block = e.block then e else f) x =
      if x / 64 = e.block then e.byteAt x else mergeByte m x := by
  rw [mergeByte_eq, mergeByte_eq, List.find?_map]
  have hblock : ((fun f : MergeEntry => decide (f.block = x / 64)) ∘ fun f => if f.block = e.block then e else f) =
      fun f => decide (f.block = x / 64) := by
    funext f
    by_cases hf : f.block = e.block <;> simp [hf]
  rw [hblock]
  by_cases hx : x / 64 = e.block
  · rw [if_pos hx]
    cases hfind : m.find? fun f => decide (f.block = x / 64) with
    | none =>
      obtain ⟨f, hf, hfb⟩ := List.any_eq_true.1 hany
      exact absurd (hx ▸ hfb) (List.find?_eq_none.1 hfind f hf)
    | some f =>
      have hf : f.block = e.block := by simpa [hx] using List.find?_some hfind
      simp [hf]
  · rw [if_neg hx]
    cases hfind : m.find? fun f => decide (f.block = x / 64) with
    | none => rfl
    | some f =>
      have hf : f.block = x / 64 := by simpa using List.find?_some hfind
      simp [hf, hx]

/-- A new entry is taken for a block that has none. -/
theorem mergeByte_append (m : List MergeEntry) (e : MergeEntry) (x : Nat) (hnone : ∀ f ∈ m, f.block ≠ e.block) :
    mergeByte (m ++ [e]) x = if x / 64 = e.block then e.byteAt x else mergeByte m x := by
  rw [mergeByte_eq, mergeByte_eq, List.find?_append]
  by_cases hx : x / 64 = e.block
  · have hfind : (m.find? fun f => decide (f.block = x / 64)) = none :=
      List.find?_eq_none.2 fun f hf => by simpa [hx] using hnone f hf
    rw [hfind]
    simp [hx]
  · have he : ([e].find? fun f => decide (f.block = x / 64)) = none := by simp [Ne.symm hx]
    rw [if_neg hx, he, Option.or_none]

/-! ### An entry is written out (R324, R325) -/

/-- The bytes that are valid in an entry replace those of the cells. -/
theorem writeValid_ok (m : List Host.Cell) (e : MergeEntry) (h : cellsWf 0 m = true) :
    cellsWf 0 (writeValid m e) = true ∧
    ∀ x, cellGet 0 (writeValid m e) x = if x / 64 = e.block then (e.byteAt x).getD (cellGet 0 m x) else cellGet 0 m x := by
  have hprefix (n : Nat) : cellsWf 0 ((List.range n).foldl (fun m k =>
        if e.valid.getLsbD k then cellSet 0 m (e.block * 64 + k) (at' e.bytes k 0) else m) m) = true ∧
      ∀ x, cellGet 0 ((List.range n).foldl (fun m k =>
        if e.valid.getLsbD k then cellSet 0 m (e.block * 64 + k) (at' e.bytes k 0) else m) m) x =
        if e.block * 64 ≤ x ∧ x < e.block * 64 + n ∧ e.valid.getLsbD (x - e.block * 64) then
          at' e.bytes (x - e.block * 64) 0 else cellGet 0 m x := by
    induction n with
    | zero => exact ⟨h, fun x => by rw [if_neg (by omega)]; rfl⟩
    | succ n ih =>
      obtain ⟨hwf, hget⟩ := ih
      rw [List.range_succ, List.foldl_append]
      generalize (List.range n).foldl _ m = m' at hwf hget ⊢
      simp only [List.foldl_cons, List.foldl_nil]
      by_cases hv : e.valid.getLsbD n = true
      · rw [if_pos hv]
        refine ⟨cellSet_wf _ _ _ _ hwf, fun x => ?_⟩
        rw [cellGet_cellSet _ _ _ _ _ hwf, hget]
        by_cases hx : x = e.block * 64 + n
        · have hn : x - e.block * 64 = n := by omega
          rw [if_pos hx, hn, if_pos ⟨by omega, by omega, hv⟩]
        · rw [if_neg hx]
          have : (x < e.block * 64 + (n + 1)) ↔ x < e.block * 64 + n := by omega
          simp only [this]
      · rw [if_neg hv]
        refine ⟨hwf, fun x => ?_⟩
        rw [hget]
        by_cases hx : x = e.block * 64 + n
        · have hn : x - e.block * 64 = n := by omega
          rw [if_neg (by omega), if_neg (by rw [hn]; exact fun h => hv h.2.2)]
        · have : (x < e.block * 64 + (n + 1)) ↔ x < e.block * 64 + n := by omega
          simp only [this]
  obtain ⟨hwf, hget⟩ := hprefix 64
  refine ⟨hwf, fun x => (hget x).trans ?_⟩
  by_cases hx : x / 64 = e.block
  · have hmod : x - e.block * 64 = x % 64 := by omega
    rw [if_pos hx, hmod, MergeEntry.byteAt]
    by_cases hv : e.valid.getLsbD (x % 64) = true
    · rw [if_pos ⟨by omega, by omega, hv⟩, if_pos hv]
      rfl
    · rw [if_neg (fun h => hv h.2.2), if_neg hv]
      rfl
  · rw [if_neg hx, if_neg (by omega)]

/-- What an entry that is written out leaves: no entry of its block, and its valid bytes in the cells. -/
theorem writeOut_mem (e : MergeEntry) (s : State) : (writeOut e s).dram.mem = writeValid s.dram.mem e := by
  unfold writeOut
  dsimp only
  generalize hu : openRow e.requester (e.block * 64) _ = u
  have hmem : u.dram.mem = s.dram.mem := by rw [← hu, (rowsMove_openRow _ _ _).checked.mem]
  split
  · rw [(dramChecked_foldl _ _ u (dramChecked_wholeWord e)).mem, hmem]
  · rw [(dramChecked_foldl _ _ u fun s k => dramChecked_rmwWord e k s).mem, hmem]

theorem writeOut_ok (e : MergeEntry) (s : State) (h : MergeOk s.dram) : MergeOk (writeOut e s).dram := by
  refine ⟨?_, ?_, fun f hf => ?_⟩
  · rw [writeOut_mem]; exact (writeValid_ok _ e h.wf).1
  · rw [merge_writeOut]; exact h.nodup.sublist (List.filter_sublist.map _)
  · rw [merge_writeOut] at hf; exact h.whole f (List.mem_of_mem_filter hf)

theorem writeOut_byte (e : MergeEntry) (s : State) (h : MergeOk s.dram) (x : Nat) :
    (writeOut e s).dram.byte x =
      if x / 64 = e.block then (e.byteAt x).getD (cellGet 0 s.dram.mem x) else s.dram.byte x := by
  unfold Dram.byte
  rw [writeOut_mem, merge_writeOut, mergeByte_filter, (writeValid_ok _ e h.wf).2]
  by_cases hx : x / 64 = e.block
  · rw [if_pos hx, if_pos hx, if_pos hx]; rfl
  · rw [if_neg hx, if_neg hx, if_neg hx]

/-- An entry of the buffer that is written out changes no byte that a read returns. -/
theorem writeOut_held_byte (e : MergeEntry) (s : State) (h : MergeOk s.dram) (he : (s.dram.merge.find? fun f => f.block = e.block) = some e)
    (x : Nat) : (writeOut e s).dram.byte x = s.dram.byte x := by
  rw [writeOut_byte e s h]
  by_cases hx : x / 64 = e.block
  · rw [if_pos hx, Dram.byte, mergeByte_eq, hx, he]; rfl
  · rw [if_neg hx]

/-! ### A write within a block (R320, R323) -/

/-- The part of a write that falls in an entry's block is laid over it. -/
theorem overlay_ok (e : MergeEntry) (a : Nat) (bs : List Byte) (hblock : a / 64 = e.block) (hin : a % 64 + bs.length ≤ 64)
    (hlen : e.bytes.length = 64) :
    (overlay e a bs).block = e.block ∧ (overlay e a bs).bytes.length = 64 ∧
    ∀ x, x / 64 = e.block → (overlay e a bs).byteAt x =
      if a ≤ x ∧ x < a + bs.length then some (at' bs (x - a) 0) else e.byteAt x := by
  have hprefix (n : Nat) (hn : n ≤ bs.length) :
      let o := (List.range n).foldl (fun (e : MergeEntry) k =>
        if (a + k) / 64 = e.block then
          { e with valid := e.valid ||| (1#64 <<< ((a + k) % 64)), bytes := modAt e.bytes ((a + k) % 64) fun _ => at' bs k 0 }
        else e) e
      o.block = e.block ∧ o.bytes.length = 64 ∧ ∀ x, x / 64 = e.block →
        o.byteAt x = if a ≤ x ∧ x < a + n then some (at' bs (x - a) 0) else e.byteAt x := by
    induction n with
    | zero => exact ⟨rfl, hlen, fun x _ => by rw [if_neg (by omega)]; rfl⟩
    | succ n ih =>
      obtain ⟨hb, hl, hat⟩ := ih (by omega)
      dsimp only
      rw [List.range_succ, List.foldl_append]
      generalize (List.range n).foldl _ e = o at hb hl hat ⊢
      have hk : (a + n) / 64 = o.block := by omega
      simp only [List.foldl_cons, List.foldl_nil, if_pos hk]
      refine ⟨hb, by rw [length_modAt]; exact hl, fun x hx => ?_⟩
      have hpos : (a + n) % 64 < 64 := Nat.mod_lt _ (by decide)
      by_cases hxn : x = a + n
      · subst hxn
        rw [if_pos ⟨by omega, by omega⟩, MergeEntry.byteAt, at'_modAt_same _ _ _ _ (by rw [hl]; exact hpos)]
        simp [hpos]
      · have hne : (a + n) % 64 ≠ x % 64 := by omega
        have hsame : ({ o with
            valid := o.valid ||| (1#64 <<< ((a + n) % 64)),
            bytes := modAt o.bytes ((a + n) % 64) fun _ => at' bs n 0 } : MergeEntry).byteAt x = o.byteAt x := by
          have hbit : (o.valid ||| 1#64 <<< ((a + n) % 64)).getLsbD (x % 64) = o.valid.getLsbD (x % 64) := by
            simp [BitVec.getLsbD_one]
            omega
          unfold MergeEntry.byteAt
          simp only [hbit, at'_modAt_ne _ _ _ _ _ hne]
        rw [hsame, hat x hx]
        have : x < a + (n + 1) ↔ x < a + n := by omega
        simp only [this]
  exact hprefix bs.length (Nat.le_refl _)

/-- A write stores its bytes, and no other byte that a read returns changes. -/
structure Stores (a : Nat) (bs : List Byte) (s t : State) : Prop where
  ok : MergeOk t.dram
  byte : ∀ x, t.dram.byte x = if a ≤ x ∧ x < a + bs.length then at' bs (x - a) 0 else s.dram.byte x

/-- An entry enters the buffer: it stands for its block. -/
theorem stores_entry (s : State) (h : MergeOk s.dram) (a : Nat) (bs : List Byte) (hin : a % 64 + bs.length ≤ 64) (e : MergeEntry)
    (hb : e.block = a / 64) (hl : e.bytes.length = 64)
    (he : ∀ x, x / 64 = a / 64 → (e.byteAt x).getD (cellGet 0 s.dram.mem x) =
      if a ≤ x ∧ x < a + bs.length then at' bs (x - a) 0 else s.dram.byte x) :
    Stores a bs s (if e.complete then writeOut e s
      else if s.dram.merge.any fun f => f.block = a / 64 then
        { s with dram := { s.dram with merge := s.dram.merge.map fun f => if f.block = a / 64 then e else f } }
      else { s with dram := { s.dram with merge := s.dram.merge ++ [e] } }) := by
  have hbyte (x : Nat) (u : Byte) (hu : u = if x / 64 = e.block then (e.byteAt x).getD (cellGet 0 s.dram.mem x) else s.dram.byte x) :
      u = if a ≤ x ∧ x < a + bs.length then at' bs (x - a) 0 else s.dram.byte x := by
    rw [hu]
    by_cases hx : x / 64 = a / 64
    · rw [if_pos (hx.trans hb.symm), he x hx]
    · rw [if_neg (hb ▸ hx), if_neg (by omega)]
  split
  · exact ⟨writeOut_ok e s h, fun x => hbyte x _ (writeOut_byte e s h x)⟩
  · split
    · next hany =>
      rw [← hb] at hany
      simp only [← hb]
      refine ⟨⟨h.wf, ?_, fun f hf => ?_⟩, fun x => hbyte x _ ?_⟩
      · rw [List.map_map]
        have hsame : ((fun f : MergeEntry => f.block) ∘ fun f => if f.block = e.block then e else f) = fun f => f.block := by
          funext f
          by_cases hf : f.block = e.block <;> simp [hf]
        rw [hsame]
        exact h.nodup
      · obtain ⟨g, hg, rfl⟩ := List.mem_map.1 hf
        split
        · exact hl
        · exact h.whole g hg
      · unfold Dram.byte
        dsimp only
        rw [mergeByte_replace _ _ _ hany]
        split <;> rfl
    · next hany =>
      have hnone : ∀ f ∈ s.dram.merge, f.block ≠ e.block := fun f hf hfb =>
        hany (List.any_eq_true.2 ⟨f, hf, by simp [hfb, hb]⟩)
      refine ⟨⟨h.wf, ?_, fun f hf => ?_⟩, fun x => hbyte x _ ?_⟩
      · rw [List.map_append, List.nodup_append]
        refine ⟨h.nodup, by simp, fun b hb' c hc => ?_⟩
        obtain ⟨f, hf, rfl⟩ := List.mem_map.1 hb'
        obtain rfl : c = e.block := by simpa using hc
        exact hnone f hf
      · rcases List.mem_append.1 hf with hf | hf
        · exact h.whole f hf
        · obtain rfl : f = e := by simpa using hf
          exact hl
      · unfold Dram.byte
        dsimp only
        rw [mergeByte_append _ _ _ hnone]
        split <;> rfl

theorem mergeWrite_stores (requester a : Nat) (bs : List Byte) (s : State) (h : MergeOk s.dram) (hin : a % 64 + bs.length ≤ 64) :
    Stores a bs s (mergeWrite requester a bs s) := by
  unfold mergeWrite
  dsimp only
  generalize hu : (if (s.dram.merge.any fun e => e.block = a / 64) || s.dram.merge.length < 32 then s
    else match s.dram.merge with
      | e :: _ => writeOut e s
      | [] => s) = u
  have hroom : MergeOk u.dram ∧ ∀ x, u.dram.byte x = s.dram.byte x := by
    rw [← hu]
    split
    · exact ⟨h, fun _ => rfl⟩
    · cases hm : s.dram.merge with
      | nil => exact ⟨h, fun _ => rfl⟩
      | cons e rest => exact ⟨writeOut_ok e s h, writeOut_held_byte e s h (by simp [hm])⟩
  obtain ⟨hok, hsame⟩ := hroom
  generalize hold : (u.dram.merge.find? fun e => e.block = a / 64).getD
    { block := a / 64, valid := 0, bytes := zeros 64, requester := requester, since := u.time } = old
  have hbl : old.block = a / 64 ∧ old.bytes.length = 64 ∧
      ∀ x, x / 64 = a / 64 → (old.byteAt x).getD (cellGet 0 u.dram.mem x) = u.dram.byte x := by
    rw [← hold]
    cases hfind : u.dram.merge.find? fun e => e.block = a / 64 with
    | none =>
      refine ⟨rfl, by simp [zeros], fun x hx => ?_⟩
      rw [Dram.byte, mergeByte_eq, hx, hfind]
      simp [MergeEntry.byteAt]
    | some e =>
      refine ⟨by simpa using List.find?_some hfind, hok.whole e (List.mem_of_find?_eq_some hfind), fun x hx => ?_⟩
      rw [Dram.byte, mergeByte_eq, hx, hfind]
      rfl
  obtain ⟨hb, hl, hbyte⟩ := hbl
  obtain ⟨hb', hl', hbyte'⟩ := overlay_ok old a bs hb.symm hin hl
  have hst := stores_entry u hok a bs hin (overlay old a bs) (hb'.trans hb) hl' fun x hx => by
    rw [hbyte' x (hx.trans hb.symm)]
    by_cases hr : a ≤ x ∧ x < a + bs.length
    · rw [if_pos hr, if_pos hr]; rfl
    · rw [if_neg hr, if_neg hr, hbyte x hx]
  exact ⟨hst.ok, fun x => by rw [hst.byte, hsame]⟩

end Sys2Proof.Machine
end

section
/-!
O39, continued: writes and reads of any length, and the requests that a channel issues (R317, R319 to R326).
-/
namespace Sys2Proof.Machine

open Sys2Proof

/-! ### Whole words -/

theorem freshWord_mem (d : Dram) (w : Nat) : (d.freshWord w).mem = d.mem := by
  unfold Dram.freshWord
  split <;> rfl

theorem freshWords_mem_merge (d : Dram) (a n : Nat) : (d.freshWords a n).mem = d.mem ∧ (d.freshWords a n).merge = d.merge := by
  unfold Dram.freshWords
  generalize List.range _ = is
  induction is generalizing d with
  | nil => exact ⟨rfl, rfl⟩
  | cons k is ih => exact ⟨(ih _).1.trans (freshWord_mem d _), (ih _).2.trans (merge_freshWord d _)⟩

/-- An entry of another block keeps its valid bytes when a block is written. -/
theorem mergeDrop_others (m : List MergeEntry) (a n : Nat) (hin : a % 64 + n ≤ 64) (hnone : ∀ e ∈ m, e.block ≠ a / 64) :
    mergeDrop m a n = m := by
  have hkeep (e : MergeEntry) (he : e ∈ m) : (List.range 64).foldl (fun v k =>
      if a ≤ e.block * 64 + k && e.block * 64 + k < a + n then v &&& ~~~(1#64 <<< k) else v) e.valid = e.valid := by
    rw [List.foldl_ext _ (fun v _ => v) _ fun v k hk => ?_, List.foldl_fixed]
    have hb := hnone e he
    have hk' : k < 64 := List.mem_range.1 hk
    rw [if_neg]
    simp only [Bool.and_eq_true, decide_eq_true_eq]
    omega
  unfold mergeDrop
  rw [List.map_congr_left (g := id) fun e he => ?_, List.map_id]
  rw [hkeep e he]
  rfl

theorem write_stores (a : Nat) (bs : List Byte) (s : State) (h : MergeOk s.dram) (hin : a % 64 + bs.length ≤ 64)
    (hnone : ∀ e ∈ s.dram.merge, e.block ≠ a / 64) : Stores a bs s { s with dram := s.dram.write a bs } := by
  obtain ⟨hmem, hmerge⟩ := freshWords_mem_merge s.dram a bs.length
  have hm : (s.dram.write a bs).merge = s.dram.merge := by
    unfold Dram.write
    dsimp only
    rw [hmerge, mergeDrop_others _ _ _ hin hnone]
  have hc : (s.dram.write a bs).mem = cellsSet 0 s.dram.mem a bs := by
    unfold Dram.write
    dsimp only
    rw [hmem]
  refine ⟨⟨by rw [hc]; exact cellsSet_wf _ _ _ _ h.wf, by rw [hm]; exact h.nodup, by rw [hm]; exact h.whole⟩, fun x => ?_⟩
  dsimp only
  unfold Dram.byte
  rw [hm, hc, cellGet_cellsSet _ _ _ _ _ h.wf]
  by_cases hx : a ≤ x ∧ x < a + bs.length
  · have hfind : (s.dram.merge.find? fun e => e.block = x / 64) = none :=
      List.find?_eq_none.2 fun e he => by
        have := hnone e he
        simp only [decide_eq_true_eq]
        omega
    rw [if_pos hx, if_pos hx, mergeByte_eq, hfind]
    rfl
  · rw [if_neg hx, if_neg hx]

/-! ### Writes of any length -/

theorem at'_take {α : Type} (l : List α) (n i : Nat) (d : α) (h : i < n) : at' (l.take n) i d = at' l i d := by
  simp [at', List.getD, h]

theorem at'_drop {α : Type} (l : List α) (n i : Nat) (d : α) : at' (l.drop n) i d = at' l (n + i) d := by
  simp [at', List.getD, List.getElem?_drop]

theorem RowsMove.stores {a : Nat} {bs : List Byte} {s t u : State} (h : RowsMove s t) (g : Stores a bs t u) : Stores a bs s u :=
  ⟨g.ok, fun x => by rw [g.byte, h.checked.byte]⟩

theorem blockWrite_stores (requester a : Nat) (bs : List Byte) (s : State) (h : MergeOk s.dram)
    (hin : a % 64 + bs.length ≤ 64) : Stores a bs s (blockWrite requester a bs s) := by
  unfold blockWrite
  split
  · next hcond =>
    obtain ⟨_, _, hnone⟩ := hcond
    have hrow := rowsMove_openRow requester a s
    refine hrow.stores (write_stores a bs _ (hrow.checked.ok h) hin fun e he hb => ?_)
    rw [hrow.checked.merge] at he
    simp only [Bool.not_eq_true', List.any_eq_false, decide_eq_true_eq] at hnone
    exact hnone e he hb
  · exact mergeWrite_stores requester a bs s h hin

/-- A write of any length stores its bytes block by block. -/
theorem storeBlocks_stores (requester k a : Nat) (bs : List Byte) (s : State) (h : MergeOk s.dram)
    (hk : a % 64 + bs.length ≤ 64 * k) : Stores a bs s (storeBlocks requester k a bs s) := by
  induction k generalizing a bs s with
  | zero =>
    have hnil : bs = [] := List.length_eq_zero_iff.1 (by omega)
    exact ⟨h, fun x => by rw [hnil, if_neg (by simp)]; rfl⟩
  | succ k ih =>
    unfold storeBlocks
    split
    · next hnil => exact ⟨h, fun x => by rw [hnil, if_neg (by simp)]⟩
    · dsimp only
      have hfirst := blockWrite_stores requester a (bs.take (64 - a % 64)) s h (by rw [List.length_take]; omega)
      have hrest := ih (a + (64 - a % 64)) (bs.drop (64 - a % 64)) _ hfirst.ok (by rw [List.length_drop]; omega)
      refine ⟨hrest.ok, fun x => ?_⟩
      rw [hrest.byte, hfirst.byte, List.length_take, List.length_drop]
      generalize hn : 64 - a % 64 = n
      by_cases hlow : x < a + n
      · rw [if_neg (by omega)]
        by_cases hx : a ≤ x ∧ x < a + bs.length
        · rw [if_pos hx, if_pos (by omega), at'_take _ _ _ _ (by omega)]
        · rw [if_neg hx, if_neg (by omega)]
      · by_cases hx : a ≤ x ∧ x < a + bs.length
        · rw [if_pos hx, if_pos (by omega), at'_drop]
          congr 1
          omega
        · rw [if_neg hx, if_neg (by omega), if_neg (by omega)]

/-! ### Reads (R319, R324) -/

/-- An operation that changes no byte that a read returns. -/
structure KeepsBytes (s t : State) : Prop where
  ok : MergeOk t.dram
  byte : ∀ x, t.dram.byte x = s.dram.byte x

theorem KeepsBytes.trans {s t u : State} (h : KeepsBytes s t) (g : KeepsBytes t u) : KeepsBytes s u :=
  ⟨g.ok, fun x => (g.byte x).trans (h.byte x)⟩

theorem DramChecked.keepsBytes {s t : State} (h : DramChecked s t) (hs : MergeOk s.dram) : KeepsBytes s t := ⟨h.ok hs, h.byte⟩

theorem writeOut_held_keepsBytes (e : MergeEntry) (s : State) (h : MergeOk s.dram)
    (he : (s.dram.merge.find? fun f => f.block = e.block) = some e) : KeepsBytes s (writeOut e s) :=
  ⟨writeOut_ok e s h, writeOut_held_byte e s h he⟩

theorem flushBlock_keepsBytes (b : Nat) (s : State) (h : MergeOk s.dram) : KeepsBytes s (flushBlock b s) := by
  unfold flushBlock
  cases hfind : s.dram.merge.find? fun e => e.block = b with
  | none => exact ⟨h, fun _ => rfl⟩
  | some e =>
    have hb : e.block = b := by simpa using List.find?_some hfind
    exact writeOut_held_keepsBytes e s h (hb ▸ hfind)

theorem flushBlocks_keepsBytes (bs : List Nat) (s : State) (h : MergeOk s.dram) :
    KeepsBytes s (bs.foldl (fun s b => flushBlock b s) s) := by
  induction bs generalizing s with
  | nil => exact ⟨h, fun _ => rfl⟩
  | cons b bs ih => exact (flushBlock_keepsBytes b s h).trans (ih _ (flushBlock_keepsBytes b s h).ok)

theorem fetchWords_keepsBytes (requester a n upset : Nat) (s : State) (h : MergeOk s.dram) :
    KeepsBytes s (fetchWords requester a n upset s).2 := by
  unfold fetchWords
  dsimp only
  have hchecked := dramChecked_checkWords requester (if n = 0 then 0 else (a + n - 1) / 8 - a / 8 + 1) (a / 8 * 8) upset s
  generalize checkWords _ _ _ _ s = r at hchecked
  have hall := (hchecked.keepsBytes h).trans (flushBlocks_keepsBytes (blocksOf a n) _ (hchecked.ok h))
  cases r.1 <;> exact hall

theorem bytesFrom_congr (d d' : Dram) (h : ∀ x, d.byte x = d'.byte x) (a n : Nat) : d.bytesFrom a n = d'.bytesFrom a n := by
  induction n generalizing a with
  | zero => rfl
  | succ n ih => rw [Dram.bytesFrom, Dram.bytesFrom, h, ih]

@[simp] theorem length_bytesFrom (d : Dram) (a n : Nat) : (d.bytesFrom a n).length = n := by
  induction n generalizing a with
  | zero => rfl
  | succ n ih => rw [Dram.bytesFrom, List.length_cons, ih]

@[simp] theorem length_dramRead (s : State) (a n : Nat) : (s.dramRead a n).length = n := length_bytesFrom ..

/-- Every word of the memory is good. -/
def CleanWords (d : Dram) : Prop := d.errs = [] ∧ d.poison = []

theorem RowsMove.clean {s t : State} (h : RowsMove s t) (hs : CleanWords s.dram) : CleanWords t.dram :=
  ⟨(congrArg Dram.errs h.dram :).trans hs.1, (congrArg Dram.poison h.dram :).trans hs.2⟩

/-- A good word that no cell has lost a bit of is read as it is. -/
theorem checkWord_clean (told : Bool) (requester w : Nat) (s : State) (h : CleanWords s.dram) :
    checkWord told requester w 0 s = (true, openRow requester w s) := by
  obtain ⟨herrs, hpoison⟩ := (rowsMove_openRow requester w s).clean h
  have hwrong : (openRow requester w s).dram.wrong w 0 = 0 := by
    unfold Dram.wrong
    rw [herrs, hpoison]
    rfl
  unfold checkWord
  dsimp only
  rw [if_pos hwrong]

theorem checkWords_clean (requester k w : Nat) (s : State) (h : CleanWords s.dram) :
    (checkWords requester k w 0 s).1 = none := by
  induction k generalizing w s with
  | zero => rfl
  | succ k ih =>
    unfold checkWords
    rw [checkWord_clean _ _ _ _ h]
    exact ih _ _ ((rowsMove_openRow requester w s).clean h)

theorem fetchWords_clean (requester a n : Nat) (s : State) (h : CleanWords s.dram) :
    (fetchWords requester a n 0 s).1 = s.dramRead a n := by
  unfold fetchWords
  dsimp only
  rw [checkWords_clean _ _ _ _ h]

/-! ### Requests -/

/-- With no request queued there is none to serve first. -/
theorem drainQueued_empty (a n : Nat) (s : State) (h : s.dram.queues.flatten = []) : drainQueued a n s = s := by
  have hqueues (p : DramQ → Bool) : (s.dram.queues.map fun l => l.filter p) = s.dram.queues := by
    rw [List.map_congr_left (g := id) fun l hl => ?_, List.map_id]
    rw [List.flatten_eq_nil_iff.1 h l hl]
    rfl
  unfold drainQueued
  dsimp only
  rw [h, hqueues]
  rfl

theorem dramStore_stores (requester a : Nat) (bs : List Byte) (s : State) (h : MergeOk s.dram) (hq : s.dram.queues.flatten = []) :
    Stores a bs s (dramStore requester a bs s) := by
  unfold dramStore
  rw [drainQueued_empty _ _ _ hq]
  exact storeBlocks_stores _ _ _ _ _ h (by omega)

/-- A request to write is served: its bytes are stored. -/
theorem serve_write_stores (r : DramReq) (bs : List Byte) (s : State) (h : MergeOk s.dram) (hdata : r.data = some bs)
    (hroom : r.addr + bs.length ≤ s.dram.cfg.usable) : Stores r.addr bs s (serve r s) := by
  have hrow := rowsMove_openRow r.requester r.addr s
  have hcfg : (openRow r.requester r.addr s).dram.cfg = s.dram.cfg := (congrArg Dram.cfg hrow.dram :)
  unfold serve
  simp only [hdata, hcfg, if_pos hroom, List.take_of_length_le (show bs.length ≤ s.dram.cfg.usable - r.addr by omega)]
  exact hrow.stores (storeBlocks_stores _ _ _ _ _ (hrow.checked.ok h) (by omega))

/-- A request to read good words is served with their bytes. -/
theorem serve_read_clean (r : DramReq) (s : State) (h : MergeOk s.dram) (hclean : CleanWords s.dram) (hdata : r.data = none)
    (hupset : r.upset = 0) (hroom : r.addr + r.len ≤ s.dram.cfg.usable) :
    KeepsBytes s (serve r s) ∧ (serve r s).dram.served = some (r.requester, s.dramRead r.addr r.len, true) := by
  have hrow := rowsMove_openRow r.requester r.addr s
  have hcfg : (openRow r.requester r.addr s).dram.cfg = s.dram.cfg := (congrArg Dram.cfg hrow.dram :)
  have hread : (openRow r.requester r.addr s).dramRead r.addr r.len = s.dramRead r.addr r.len :=
    bytesFrom_congr _ _ hrow.checked.byte _ _
  unfold serve
  simp only [hdata, hcfg, hupset, Nat.min_eq_left (show r.len ≤ s.dram.cfg.usable - r.addr by omega),
    fetchWords_clean _ _ _ _ (hrow.clean hclean), hread]
  refine ⟨?_, by simp⟩
  have hkeep := (hrow.checked.keepsBytes h).trans (fetchWords_keepsBytes r.requester r.addr r.len 0 _ (hrow.checked.ok h))
  exact ⟨⟨hkeep.ok.wf, hkeep.ok.nodup, hkeep.ok.whole⟩, hkeep.byte⟩

/-- A request alone is granted. -/
theorem arbitrate_one (last : Nat) (r : DramReq) : arbitrate last [r] = [r] := by
  simp [arbitrate, arbitrate.ins]

theorem settleChannel_throttled (channel : Nat) (s : State) (h : s.dram.throttled = []) :
    (settleChannel channel s).dram.throttled = [] := by
  have hwindow (u : State) (hu : u.dram.throttled = []) : (inRowWindow u).dram.throttled = [] := by
    unfold inRowWindow
    dsimp only
    split
    · exact hu
    · rfl
  unfold settleChannel
  dsimp only
  refine hwindow _ ?_
  rw [dram_advanceTo]
  split
  · exact h
  · exact h

/-- The one request of a channel is the one that is issued. -/
theorem schedule_one (q : DramQ) (s : State) (h : s.dram.throttled = []) : ∃ b, schedule s [q] = some (q, b) := by
  have hheld : heldByThrottle s q = false := by
    unfold heldByThrottle throttleOf
    rw [h]
    simp
  have hcand : candidates s [q] [] = [q] := by
    simp [candidates, hheld]
  have hfind (p : DramQ → Bool) : [q].find? p = some q ∨ [q].find? p = none := by
    cases hp : p q <;> simp [hp]
  unfold schedule
  rw [hcand]
  rcases hfind fun q => 2400 < (s.time - q.time).toNat with hage | hage
  · exact ⟨true, by simp only [hage]⟩
  · rcases hfind fun q => rowOpen s (s.dram.cfg.decode q.req.addr) with hopen | hopen
    · exact ⟨false, by simp only [hage, hopen]⟩
    · exact ⟨false, by simp only [hage, hopen]; rfl⟩

/-- The request that waits in a channel alone, once time has passed over its refresh, is served. -/
theorem execDramRequestIssue_one (channel : Nat) (r : DramReq) (s : State) (hlen : s.dram.queues.length = 4)
    (hch : channel < s.dram.cfg.nChannels) (hempty : at' s.dram.queues channel [] = []) (hthr : s.dram.throttled = [])
    (hdec : (s.dram.cfg.decode r.addr).channel = channel) (hroom : r.addr < s.dram.cfg.usable) (hrun : s.dram.stopped = false) :
    ∃ v, exec (.dramRequestIssue channel [r]) s = .next (serve r v) ∧ v.dram.mem = s.dram.mem ∧
      v.dram.merge = s.dram.merge ∧ v.dram.cfg = s.dram.cfg ∧ v.dram.errs = s.dram.errs ∧ v.dram.poison = s.dram.poison := by
  have hc4 : channel < 4 := by
    refine Nat.lt_of_lt_of_le hch ?_
    unfold DramCfg.nChannels
    split
    · exact Nat.le_refl 4
    · split <;> omega
  have hmine : ([r].filter fun r => decide (r.addr < s.dram.cfg.usable) &&
      decide ((s.dram.cfg.decode r.addr).channel = channel)) = [r] := by simp [hroom, hdec]
  have hlost : (([r].filter fun r => !decide (r.addr < s.dram.cfg.usable)).getLast?.map fun r =>
      (r.requester, ([] : List Byte), false)) = none := by simp [hroom]
  generalize hu : ({ s with dram := { s.dram with
    grantedLast := r.requester,
    queues := modAt s.dram.queues channel fun q => (q ++ [({ req := r, time := s.time } : DramQ)]).take 64 } } : State) = u
  have hqueue : at' u.dram.queues channel [] = [{ req := r, time := s.time }] := by
    rw [← hu]
    dsimp only
    rw [at'_modAt_same _ _ _ _ (by omega), hempty]
    rfl
  have hrows := rowsMove_settleChannel channel u
  have hthr' := settleChannel_throttled channel u (by rw [← hu]; exact hthr)
  generalize hw : settleChannel channel u = w at hrows hthr'
  have hqueue' : at' w.dram.queues channel [] = [{ req := r, time := s.time }] :=
    (congrArg (fun d : Dram => at' d.queues channel []) hrows.dram :).trans hqueue
  obtain ⟨b, hsched⟩ := schedule_one { req := r, time := s.time } w hthr'
  have hheld : heldByThrottle w { req := r, time := s.time } = false := by
    unfold heldByThrottle throttleOf
    rw [hthr']
    simp
  refine ⟨{ w with dram := { w.dram with
      queues := modAt w.dram.queues channel fun l => l.erase { req := r, time := s.time },
      starved := if b then w.dram.starved.inc else w.dram.starved } }, ?_, ?_⟩
  · change execDramRequestIssue channel [r] s = _
    unfold execDramRequestIssue
    rw [if_neg (by simp [hrun, hch])]
    dsimp only at hu
    simp only [if_false, arbitrate_one, hmine, hlost,
      List.getLast?_singleton, Option.map_some, Option.getD_some, Option.isSome_none, Bool.false_eq_true, List.map_cons,
      List.map_nil, hu, hw, hqueue', List.all_cons, hheld, Bool.false_and, Bool.and_false, hsched]
  · rw [← hu] at hrows
    exact ⟨(congrArg Dram.mem hrows.dram :), (congrArg Dram.merge hrows.dram :), (congrArg Dram.cfg hrows.dram :),
      (congrArg Dram.errs hrows.dram :), (congrArg Dram.poison hrows.dram :)⟩

/-! ### The address map (R317, R318) -/

/-- Each address has one place: the place tells the channel's offset and with it the address. -/
theorem decode_injective (c : DramCfg) (a b : Nat) (hok : c.ok = true) (h : c.decode a = c.decode b) : a = b := by
  have hn : c.nChannels = 2 ∨ c.nChannels = 4 := by
    unfold DramCfg.ok at hok
    simp only [Bool.and_eq_true, Bool.or_eq_true, decide_eq_true_eq] at hok
    unfold DramCfg.nChannels
    rcases hok.1.1.1.1.1 with hc | hc <;> simp [hc]
  have hrows : 0 < c.rows := by
    unfold DramCfg.rows
    split
    · decide
    · split <;> decide
  simp only [DramCfg.decode, Cellpos.mk.injEq] at h
  obtain ⟨hchan, hrank, hbank, hrow, hcol, -⟩ := h
  generalize c.nChannels = n at hn hchan hrank hbank hrow hcol
  generalize c.rows = rows at hrows hrank hrow
  obtain ⟨x, hx⟩ : ∃ x, a / (256 * n) * 256 + a % 256 = x := ⟨_, rfl⟩
  obtain ⟨y, hy⟩ : ∃ y, b / (256 * n) * 256 + b % 256 = y := ⟨_, rfl⟩
  rw [hx, hy] at hrank hbank hrow hcol
  rw [← Nat.div_div_eq_div_mul, ← Nat.div_div_eq_div_mul] at hrank
  have hrow16 : x / 1792 / 16 = y / 1792 / 16 := by
    rw [← Nat.div_add_mod (x / 1792 / 16) rows, ← Nat.div_add_mod (y / 1792 / 16) rows, hrank, hrow]
  have hxy : x = y := by omega
  rw [← hx, ← hy] at hxy
  clear hrank hrow hrow16 hbank hcol hrows hx hy
  rcases hn with rfl | rfl <;> omega

/-- Settles O39. -/
theorem dramReturnsWhatWasWritten : Obligations.DramReturnsWhatWasWritten := by
  unfold Obligations.DramReturnsWhatWasWritten
  refine ⟨decode_injective, ?_, ?_, ?_, ?_⟩
  · intro requester a bs s hwf hnodup hwhole hq t
    exact (dramStore_stores requester a bs s ⟨hwf, hnodup, hwhole⟩ hq).byte
  · intro block why s hwf hnodup hwhole
    change ∃ t, execMergeEntryWriteout block why s = _ ∧ _
    unfold execMergeEntryWriteout
    cases hfind : s.dram.merge.find? fun e => e.block = block with
    | none => exact ⟨_, rfl, fun _ => rfl⟩
    | some e =>
      have hb : e.block = block := by simpa using List.find?_some hfind
      have hok : MergeOk s.dram := ⟨hwf, hnodup, hwhole⟩
      refine ⟨_, rfl, fun x => ?_⟩
      generalize hu : (if why = .aged then s.advanceTo (e.since.toNat + 3200) else s) = u
      have hdram : u.dram = s.dram := by
        rw [← hu]
        split
        · exact dram_advanceTo ..
        · rfl
      have hwritten : (writeOut e u).dram.byte x = s.dram.byte x := by
        rw [writeOut_held_byte e u (by rw [hdram]; exact hok) (by rw [hdram, hb]; exact hfind), hdram]
      rw [apply_ite State.dram, apply_ite (Dram.byte · x), hwritten, hdram, ite_self]
  · intro channel r bs s hlen hwf hnodup hwhole hch hempty hthr hdec hdata hroom hfit hrun
    obtain ⟨v, hexec, hmem, hmerge, hcfg, -, -⟩ :=
      execDramRequestIssue_one channel r s hlen hch hempty hthr hdec hroom hrun
    have hok : MergeOk v.dram := ⟨by rw [hmem]; exact hwf, by rw [hmerge]; exact hnodup, by rw [hmerge]; exact hwhole⟩
    refine ⟨_, hexec, fun x => ?_⟩
    rw [(serve_write_stores r bs v hok hdata (by rw [hcfg]; exact hfit)).byte, Dram.byte, hmem, hmerge]
    rfl
  · intro channel r s hlen hwf hnodup hwhole hch hempty hthr herrs hpoison hdec hdata hupset hroom hfit hrun
    obtain ⟨v, hexec, hmem, hmerge, hcfg, herr, hpoi⟩ :=
      execDramRequestIssue_one channel r s hlen hch hempty hthr hdec hroom hrun
    have hok : MergeOk v.dram := ⟨by rw [hmem]; exact hwf, by rw [hmerge]; exact hnodup, by rw [hmerge]; exact hwhole⟩
    have hbyte (x : Nat) : v.dram.byte x = s.dram.byte x := by rw [Dram.byte, hmem, hmerge]; rfl
    obtain ⟨hkeep, hserved⟩ := serve_read_clean r v hok ⟨herr.trans herrs, hpoi.trans hpoison⟩ hdata hupset (by rw [hcfg]; exact hfit)
    refine ⟨_, hexec, ?_, fun x => (hkeep.byte x).trans (hbyte x)⟩
    rw [hserved, State.dramRead, bytesFrom_congr _ _ hbyte]
    rfl

end Sys2Proof.Machine
end

section
/-!
SUPPORT. What DRAM work leaves of the other units: reads and writes change DRAM, time, the raises that wait and the cores
that are held.
-/
namespace Sys2Proof.Machine

open Sys2Proof

/-- Nothing but DRAM, time, the raises that wait, the held cores and the free values changes. -/
structure DramWorks (s t : State) : Prop where
  flt : { t.flt with presented := s.flt.presented } = s.flt
  rest : { t with
    dram := s.dram, flt := s.flt, atoll := s.atoll, time := s.time, sync := s.sync, held := s.held, free := s.free } = s

theorem DramWorks.refl (s : State) : DramWorks s s := ⟨rfl, rfl⟩

theorem DramWorks.trans {s t u : State} (h : DramWorks s t) (g : DramWorks t u) : DramWorks s u where
  flt := (congrArg (fun f : Flt => { f with presented := s.flt.presented }) g.flt).trans h.flt
  rest := (congrArg (fun v : State => { v with
    dram := s.dram, flt := s.flt, atoll := s.atoll, time := s.time, sync := s.sync, held := s.held, free := s.free })
    g.rest).trans h.rest

theorem dramWorks_dram (s : State) (d : Dram) : DramWorks s { s with dram := d } := ⟨rfl, rfl⟩

theorem DramChecked.works {s t : State} (h : DramChecked s t) : DramWorks s t := ⟨h.flt, h.rest⟩

theorem dramWorks_foldl {α : Type} (f : State → α → State) (l : List α) (s : State) (hf : ∀ s x, DramWorks s (f s x)) :
    DramWorks s (l.foldl f s) := by
  induction l generalizing s with
  | nil => exact DramWorks.refl s
  | cons x l ih => exact (hf s x).trans (ih _)

theorem dramWorks_openRow (requester a : Nat) (s : State) : DramWorks s (openRow requester a s) :=
  (rowsMove_openRow requester a s).checked.works

theorem dramWorks_writeOut (e : MergeEntry) (s : State) : DramWorks s (writeOut e s) := by
  unfold writeOut
  dsimp only
  generalize hu : openRow e.requester (e.block * 64) _ = u
  have hopen : DramWorks s u := by
    rw [← hu]
    exact (dramWorks_dram s _).trans (dramWorks_openRow ..)
  refine hopen.trans (DramWorks.trans ?_ (dramWorks_dram _ _))
  split
  · exact (dramChecked_foldl _ _ u (dramChecked_wholeWord e)).works
  · exact (dramChecked_foldl _ _ u fun s k => dramChecked_rmwWord e k s).works

theorem dramWorks_mergeWrite (requester a : Nat) (bs : List Byte) (s : State) : DramWorks s (mergeWrite requester a bs s) := by
  unfold mergeWrite
  dsimp only
  generalize hu : (if (s.dram.merge.any fun e => e.block = a / 64) || s.dram.merge.length < 32 then s
    else match s.dram.merge with
      | e :: _ => writeOut e s
      | [] => s) = u
  have hroom : DramWorks s u := by
    rw [← hu]
    split
    · exact DramWorks.refl s
    · cases s.dram.merge with
      | nil => exact DramWorks.refl s
      | cons e rest => exact dramWorks_writeOut e s
  refine hroom.trans ?_
  split
  · exact dramWorks_writeOut ..
  · split <;> exact dramWorks_dram ..

theorem dramWorks_blockWrite (requester a : Nat) (bs : List Byte) (s : State) : DramWorks s (blockWrite requester a bs s) := by
  unfold blockWrite
  split
  · exact (dramWorks_openRow requester a s).trans (dramWorks_dram ..)
  · exact dramWorks_mergeWrite ..

theorem dramWorks_storeBlocks (requester k a : Nat) (bs : List Byte) (s : State) :
    DramWorks s (storeBlocks requester k a bs s) := by
  induction k generalizing a bs s with
  | zero => exact DramWorks.refl s
  | succ k ih =>
    unfold storeBlocks
    split
    · exact DramWorks.refl s
    · exact (dramWorks_blockWrite ..).trans (ih _ _ _)

theorem dramWorks_flushBlock (b : Nat) (s : State) : DramWorks s (flushBlock b s) := by
  unfold flushBlock
  split
  · exact dramWorks_writeOut ..
  · exact DramWorks.refl s

theorem dramWorks_fetchWords (requester a n upset : Nat) (s : State) : DramWorks s (fetchWords requester a n upset s).2 := by
  unfold fetchWords
  dsimp only
  have hchecked := (dramChecked_checkWords requester (if n = 0 then 0 else (a + n - 1) / 8 - a / 8 + 1) (a / 8 * 8) upset s).works
  generalize checkWords _ _ _ _ s = r at hchecked
  have hall := hchecked.trans (dramWorks_foldl (fun s b => flushBlock b s) (blocksOf a n) r.2 fun s b => dramWorks_flushBlock b s)
  cases r.1 <;> exact hall

theorem dramWorks_serve (r : DramReq) (s : State) : DramWorks s (serve r s) := by
  have hopen := dramWorks_openRow r.requester r.addr s
  unfold serve
  dsimp only
  split
  · split
    · exact hopen.trans (dramWorks_storeBlocks ..)
    · exact hopen.trans ((dramWorks_storeBlocks ..).trans (dramWorks_dram ..))
  · exact hopen.trans ((dramWorks_fetchWords ..).trans (dramWorks_dram ..))

theorem dramWorks_drainQueued (a n : Nat) (s : State) : DramWorks s (drainQueued a n s) := by
  unfold drainQueued
  exact (dramWorks_dram s _).trans (dramWorks_foldl _ _ _ fun s q => dramWorks_serve q.req s)

theorem dramWorks_dramFetch (requester a n upset : Nat) (s : State) : DramWorks s (dramFetch requester a n upset s).2 :=
  (dramWorks_drainQueued a n s).trans (dramWorks_fetchWords ..)

theorem dramWorks_dramStore (requester a : Nat) (bs : List Byte) (s : State) : DramWorks s (dramStore requester a bs s) :=
  (dramWorks_drainQueued a bs.length s).trans (dramWorks_storeBlocks ..)

theorem dramWorks_coreRead (core address n : Nat) (s : State) : DramWorks s (coreRead core address n s) := by
  unfold coreRead
  split
  · split
    · exact dramWorks_dramFetch ..
    · exact DramWorks.refl s
  · exact DramWorks.refl s

theorem dramWorks_tableRead (code : Nat) (rq : Req) (address n : Nat) (s : State) :
    DramWorks s (tableRead code rq address n s) := by
  unfold tableRead
  split
  · exact dramWorks_coreRead ..
  · exact DramWorks.refl s

section
variable {s t : State} (h : DramWorks s t)
include h

theorem DramWorks.lag : t.lag = s.lag := (congrArg State.lag h.rest :)

theorem DramWorks.mci : t.mci = s.mci := (congrArg State.mci h.rest :)

theorem DramWorks.stations : t.stations = s.stations := (congrArg State.stations h.rest :)

end

end Sys2Proof.Machine
end

section
/-!
O36: Lagoon tiles are granted and filled (spec/12_lagoon.md).
-/
namespace Sys2Proof.Machine

open Sys2Proof

/-! ### The tile of a handle -/

theorem find_tileInsert (t : Tile) (l : List Tile) (h : Nat) :
    (tileInsert t l).find? (fun u => u.handle = h) = if h = t.handle then some t else l.find? fun u => u.handle = h := by
  induction l with
  | nil =>
    unfold tileInsert
    by_cases hh : h = t.handle
    · simp [hh]
    · simp [hh, Ne.symm hh]
  | cons u rest ih =>
    unfold tileInsert
    by_cases hh : h = t.handle
    · split
      · simp [hh]
      · split
        · simp [hh]
        · next hne =>
          have hu : ¬ u.handle = h := fun hu => hne (hh.symm.trans hu.symm)
          rw [List.find?_cons_of_neg (by simpa using hu), ih, if_pos hh]
    · rw [if_neg hh] at ih ⊢
      have ht : ¬ t.handle = h := Ne.symm hh
      split
      · rw [List.find?_cons_of_neg (by simpa using ht)]
      · split
        · next heq =>
          have hu : ¬ u.handle = h := fun hu => ht (heq.trans hu)
          rw [List.find?_cons_of_neg (by simpa using ht), List.find?_cons_of_neg (by simpa using hu)]
        · rw [List.find?_cons, List.find?_cons, ih]

theorem setTile_tile (s : State) (t : Tile) (h : Nat) : (s.setTile t).tile h = if h = t.handle then t else s.tile h := by
  unfold State.tile State.setTile
  dsimp only
  rw [find_tileInsert]
  split <;> rfl

/-- The tile of a handle has it. -/
@[simp] theorem tile_handle (s : State) (h : Nat) : (s.tile h).handle = h := by
  unfold State.tile
  cases hfind : s.lag.tiles.find? fun t => t.handle = h with
  | none => rfl
  | some t => simpa using List.find?_some hfind

theorem modTile_tile (s : State) (h : Nat) (f : Tile → Tile) (hf : (f (s.tile h)).handle = h) (k : Nat) :
    (s.modTile h f).tile k = if k = h then f (s.tile h) else s.tile k := by
  unfold State.modTile
  rw [setTile_tile, hf]

theorem tile_congr (s t : State) (h : t.lag.tiles = s.lag.tiles) (k : Nat) : t.tile k = s.tile k := by
  unfold State.tile
  rw [h]

/-! ### Handles (R301) -/

theorem lowestFree_some (h : Nat) (s : State) (hs : lowestFree s = some h) :
    h < s.nTiles ∧ (s.tile h).allocated = false ∧ ∀ k, k < h → (s.tile k).allocated = true := by
  unfold lowestFree at hs
  obtain ⟨hfree, hlt, hbefore⟩ := List.find?_range_eq_some.1 hs
  refine ⟨by simpa using hlt, by simpa using hfree, fun k hk => ?_⟩
  simpa using hbefore k hk

theorem earliestDue_some (rs : List TileReq) (r : TileReq) (h : earliestDue rs = some r) :
    r ∈ rs ∧ ∀ q ∈ rs, ¬ q.due < r.due := by
  induction rs generalizing r with
  | nil => cases h
  | cons a rest ih =>
    unfold earliestDue at h
    cases hrest : earliestDue rest with
    | none =>
      have hnil : rest = [] := by
        cases rest with
        | nil => rfl
        | cons b rest =>
          unfold earliestDue at hrest
          cases hq : earliestDue rest <;> rw [hq] at hrest
          · cases hrest
          · dsimp only at hrest
            split at hrest <;> cases hrest
      rw [hrest] at h
      obtain rfl : a = r := by simpa using h
      simp [hnil]
    | some q =>
      obtain ⟨hmem, hmin⟩ := ih q hrest
      rw [hrest] at h
      simp only at h
      split at h
      · next hlt =>
        obtain rfl : q = r := by simpa using h
        refine ⟨List.mem_cons_of_mem _ hmem, fun p hp => ?_⟩
        rcases List.mem_cons.1 hp with rfl | hp
        · exact BitVec.not_lt.2 (BitVec.le_of_lt hlt)
        · exact hmin p hp
      · next hlt =>
        obtain rfl : a = r := by simpa using h
        refine ⟨List.mem_cons_self, fun p hp => ?_⟩
        rcases List.mem_cons.1 hp with rfl | hp
        · exact BitVec.lt_irrefl _
        · exact fun hpa => hlt (BitVec.lt_def.2 (Nat.lt_of_le_of_lt (BitVec.le_def.1 (BitVec.not_lt.1 (hmin p hp)))
            (BitVec.lt_def.1 hpa)))

/-! ### Fills (R305 to R307) -/

/-- What the writer of a tile is read from leaves Lagoon as it is. -/
theorem writerBytes_lag (s : State) (h offset n : Nat) : (writerBytes s h offset n).2.lag = s.lag := by
  unfold writerBytes
  split
  · rfl
  · dsimp only
    split
    · split
      · exact (dramWorks_dramFetch ..).lag
      · rfl
    · rfl

/-- A fill that is written short of its end: its bytes are stored in the tile's payload, and no other byte changes. -/
theorem writeFill_short (h offset : Nat) (bs : List Byte) (f : Fill) (s : State) (hfill : (s.tile h).fill = some f)
    (hend : offset + bs.length < 16384) :
    (writeFill h offset bs s).lag.data = cellsSet 0 s.lag.data (h * 16384 + offset) bs ∧
    ((writeFill h offset bs s).tile h).fill = some ({
      next := offset + bs.length, bad := f.bad || decide (offset ≠ f.next),
      done := (offset, offset + bs.length) :: f.done } : Fill) ∧
    (writeFill h offset bs s).lag.fillOrder = (if offset ≠ f.next then s.lag.fillOrder.inc else s.lag.fillOrder) ∧
    { writeFill h offset bs s with lag := s.lag, flt := s.flt } = s ∧
    (offset = f.next → (writeFill h offset bs s).flt = s.flt) := by
  have htake : bs.take (16384 - offset) = bs := List.take_of_length_le (by omega)
  unfold writeFill
  simp only [hfill, htake, show ¬ offset + bs.length = 16384 by omega, false_and, if_false]
  generalize hu : lagFresh h offset (offset + bs.length)
    { s with lag := { s.lag with data := cellsSet 0 s.lag.data (h * 16384 + offset) bs } } = u
  have htile : u.tile h = s.tile h := tile_congr s u (by rw [← hu]; rfl) h
  have hframe : { u with lag := s.lag } = s := by rw [← hu]; rfl
  have hdata : u.lag.data = cellsSet 0 s.lag.data (h * 16384 + offset) bs := by rw [← hu]; rfl
  have horder : u.lag.fillOrder = s.lag.fillOrder := by rw [← hu]; rfl
  generalize hg : (fun t : Tile => ({ t with
    fill := some { next := offset + bs.length, bad := f.bad || decide (offset ≠ f.next),
                   done := (offset, offset + bs.length) :: f.done } } : Tile)) = g
  have hmod : ((u.modTile h g).tile h).fill = some ({
      next := offset + bs.length, bad := f.bad || decide (offset ≠ f.next),
      done := (offset, offset + bs.length) :: f.done } : Fill) := by
    rw [modTile_tile u h g (by rw [← hg]; exact tile_handle u h), if_pos rfl, ← hg]
  by_cases hbad : offset ≠ f.next
  · simp only [if_pos hbad]
    exact ⟨hdata, hmod, congrArg Count.inc horder, (congrArg (fun v : State => { v with flt := s.flt }) hframe :),
      fun he => absurd he hbad⟩
  · simp only [if_neg hbad]
    exact ⟨hdata, hmod, horder, (congrArg (fun v : State => { v with flt := s.flt }) hframe :),
      fun _ => (congrArg State.flt hframe :)⟩

/-- The close of a fill stores the CRC of the payload, and leaves the other tiles. -/
theorem closeFill_open (h : Nat) (f : Fill) (s : State) (hfill : (s.tile h).fill = some f) :
    ((closeFill h s).tile h).fill = none ∧
    ((closeFill h s).tile h).crc =
      (if f.bad then ~~~crc32c ((closeFill h s).tilePayload h) else crc32c ((closeFill h s).tilePayload h)) ∧
    (∀ k, k ≠ h → (closeFill h s).tile k = s.tile k) ∧ { closeFill h s with lag := s.lag } = s := by
  unfold closeFill
  simp only [hfill]
  generalize hu : lagFresh h 0 16384 _ = u
  have htile (k : Nat) : u.tile k = s.tile k := tile_congr s u (by rw [← hu]; rfl) k
  have hframe : { u with lag := s.lag } = s := by rw [← hu]; rfl
  generalize hg : (fun t : Tile => ({ t with
    fill := none, stale := false, crc := if f.bad then ~~~crc32c (u.tilePayload h) else crc32c (u.tilePayload h) } : Tile)) = g
  have hhandle : (g (u.tile h)).handle = h := by rw [← hg]; exact tile_handle u h
  have hsame : (u.modTile h g).tile h = g (u.tile h) := by rw [modTile_tile u h g hhandle, if_pos rfl]
  refine ⟨?_, ?_, fun k hk => ?_, hframe⟩
  · rw [hsame, ← hg]
  · rw [hsame, ← hg]
    rfl
  · rw [modTile_tile u h g hhandle, if_neg hk, htile]

theorem at'_map {α β : Type} (f : α → β) (l : List α) (i : Nat) (d : α) (d' : β) (h : i < l.length) :
    at' (l.map f) i d' = f (at' l i d) := by
  simp [at', List.getD, h]

/-- An engine that has a job in progress is one of the engines. -/
theorem deflate_lt (s : State) (e : Nat) (j : EngineJob) (hcur : (s.deflate e).cur = some j) : e < s.dma.engines.length := by
  by_contra hge
  have hnone : s.deflate e = {} := by
    unfold State.deflate at'
    rw [List.getD_eq_getElem?_getD, List.getElem?_eq_none (Nat.le_of_not_lt hge)]
    rfl
  rw [hnone] at hcur
  cases hcur

/-- A firmware job that fills a tile is the job of that tile. -/
theorem jobOfTile_isSome (s : State) (e : Nat) (j : FwJob) (k h : Nat) (hcur : (s.deflate e).cur = some (.fw j))
    (hk : k ∈ j.columns s) (hany : ((j.tile s k).any fun t => t.handle = h) = true) : (jobOfTile s h).isSome = true := by
  have hmem : s.deflate e ∈ s.dma.engines := by
    unfold State.deflate at'
    rw [List.getD_eq_getElem?_getD, List.getElem?_eq_getElem (deflate_lt s e _ hcur)]
    exact List.getElem_mem _
  unfold jobOfTile
  rw [List.findSome?_isSome_iff]
  refine ⟨s.deflate e, hmem, ?_⟩
  rw [hcur]
  simp only [Option.isSome_map, List.find?_isSome]
  exact ⟨k, hk, hany⟩

theorem any_of_map_handle (o : Option Tile) (h : Nat) (ho : (o.map fun t => t.handle) = some h) :
    (o.any fun t => t.handle = h) = true := by
  cases o with
  | none => cases ho
  | some t => simpa using ho

/-- R307: a refused write is known to the job that made it, or to a channel of the firmware. -/
theorem refuseWrite_effect (h : Nat) (s : State) :
    (refuseWrite h s).lag = s.lag ∧ (refuseWrite h s).dram = s.dram ∧
    (jobOfTile s h = none → firmwareChannel s < s.dma.channels.length →
      ((refuseWrite h s).channel (firmwareChannel s)).bad = (s.channel (firmwareChannel s)).bad.inc ∧
      ((refuseWrite h s).flt.presented.getLast?.map fun r => (r.source, r.unit)) =
        some (0x0180, some (firmwareChannel s))) ∧
    (∀ e j k, (s.deflate e).cur = some (.fw j) → k ∈ j.columns s → ((j.tile s k).map fun t => t.handle) = some h →
      ((refuseWrite h s).deflate e).cur = some (.fw { j with refused := true })) := by
  unfold refuseWrite
  dsimp only
  cases hjob : jobOfTile s h with
  | none =>
    refine ⟨rfl, rfl, fun _ hlt => ⟨?_, ?_⟩, fun e j k hcur hk ht => ?_⟩
    · exact (congrArg Channel.bad (State.modChannel_same { s with free := s.free + 1 } (firmwareChannel s)
        (fun ch => { ch with bad := ch.bad.inc }) hlt) :)
    · simp [present, presentRaise]
    · have := jobOfTile_isSome s e j k h hcur hk (any_of_map_handle _ _ ht)
      rw [hjob] at this
      cases this
  | some p =>
    refine ⟨rfl, rfl, fun hn => (Option.some_ne_none _ hn).elim, fun e j k hcur hk ht => ?_⟩
    have hcols : ((j.columns s).any fun k => (j.tile s k).any fun t => t.handle = h) = true :=
      List.any_eq_true.2 ⟨k, hk, any_of_map_handle _ _ ht⟩
    simp only [Option.isSome_some, if_true]
    unfold State.deflate at hcur ⊢
    dsimp only
    rw [at'_map _ _ _ {} _ (deflate_lt s e _ hcur), hcur]
    simp only [hcols, if_true]

/-- Settles O36. -/
theorem tilesAreFilled : Obligations.TilesAreFilled := by
  unfold Obligations.TilesAreFilled
  refine ⟨?_, ?_, ?_, fun h s => lowestFree_some h s, earliestDue_some, ?_, ?_, ?_, ?_, ?_⟩
  · intro due owner s hfed hwait hfree hroom
    change execTileHandleRequest due owner s = _
    unfold execTileHandleRequest
    simp [hfed, hwait, hfree, hroom]
  · intro due owner s hfed hnone
    change ∃ t, execTileHandleRequest due owner s = _ ∧ _
    unfold execTileHandleRequest
    simp only [hfed, hnone, Bool.not_true, Bool.false_eq_true, if_false, Option.isSome_none, Bool.false_and]
    refine ⟨_, rfl, ?_⟩
    by_cases hwait : s.lag.waiting.length < 64
    · by_cases hraised : s.lag.stallRaised = true
      · simp [hwait, hraised]
      · simp [hwait, hraised, present, presentRaise]
    · by_cases hraised : s.lag.stallRaised = true
      · simp [hwait, hraised]
      · simp [hwait, hraised, present, presentRaise]
  · intro r h s hdue hfree
    change ∃ t, execTileHandleGrant s = _ ∧ _
    unfold execTileHandleGrant
    simp only [hdue, hfree]
    have hsame := (setTile_tile s
      { s.tile h with handle := h, allocated := true, owner := r.owner, verified := false, admitted := false } h).trans
      (if_pos rfl)
    refine ⟨_, rfl, congrArg Tile.allocated hsame, congrArg Tile.owner hsame, fun k hk => ?_, rfl, rfl, rfl⟩
    · exact (setTile_tile s _ k).trans (if_neg hk)
  · intro h hdr s hlt halloc hadm hfill
    change ∃ t, execTileFillOpen h hdr s = _ ∧ _
    unfold execTileFillOpen
    simp only [halloc, hadm, hfill, Bool.not_true, Bool.or_self, Option.isSome_none, Bool.false_or, decide_eq_true_eq,
      not_le.2 hlt, if_false]
    refine ⟨_, rfl, ?_, rfl, rfl, rfl⟩
    exact (setTile_tile s _ h).trans (if_pos (tile_handle s h).symm)
  · intro h data f s hwf u bs hfill hend
    have hlag : u.lag = s.lag := writerBytes_lag s h f.next data.length
    have hfill' : (u.tile h).fill = some f := by rw [tile_congr s u (by rw [hlag]) h]; exact hfill
    obtain ⟨hdata, htile, -, hframe, hflt⟩ := writeFill_short h f.next bs f u hfill' hend
    refine ⟨writeFill h f.next bs u, ?_, ?_, fun a ha => ?_, ?_, ?_⟩
    · change execTileFillWrite h f.next data s = _
      simp only [execTileFillWrite, hfill, Option.isNone_some, Bool.false_eq_true, if_false]
      rfl
    · rw [hdata]
      exact cellsGet_cellsSet 0 _ _ bs (by rw [hlag]; exact hwf)
    · rw [hdata, cellGet_cellsSet 0 bs _ _ a (by rw [hlag]; exact hwf), if_neg (by omega), hlag]
    · rw [htile]
      simp
    · rw [← hflt rfl] at hframe
      exact hframe
  · intro h offset data f s hfill hne hend
    have hlag := writerBytes_lag s h offset data.length
    generalize hw : writerBytes s h offset data.length = w at hlag hend
    have hfill' : (w.2.tile h).fill = some f := by rw [tile_congr s w.2 (by rw [hlag]) h]; exact hfill
    obtain ⟨-, htile, horder, -, -⟩ := writeFill_short h offset (w.1.getD data) f w.2 hfill' hend
    refine ⟨writeFill h offset (w.1.getD data) w.2, ?_, ?_, ?_⟩
    · change execTileFillWrite h offset data s = _
      simp only [execTileFillWrite, hfill, Option.isNone_some, Bool.false_eq_true, if_false, hw]
    · rw [horder, if_pos hne, hlag]
    · rw [htile]
      simp [hne]
  · intro h offset data s hfill
    obtain ⟨hlag, hdram, hchannel, hjob⟩ := refuseWrite_effect h s
    refine ⟨?_, refuseWrite h s, ?_, hlag, hdram, hchannel, hjob⟩
    · change execTileFillClose h s = _
      unfold execTileFillClose closeFill
      rw [hfill]
    · change execTileFillWrite h offset data s = _
      simp only [execTileFillWrite, hfill, Option.isNone_none, if_true]
  · intro h f s hfill
    exact ⟨closeFill h s, rfl, closeFill_open h f s hfill⟩

end Sys2Proof.Machine
end

section
/-!
O54 is refuted: a FATAL reaction may leave a bias channel driven. The withdrawal of the emission permit gates the heads'
links after the channels have been quieted, and a page that is over then leaves its station; the search of charge channels
is settled again, and a channel that was held returns to its raw duty.
-/
namespace Sys2Proof.Machine

open Sys2Proof

/-- A page that is completed and has not yet left its station. -/
def overJob : Job :=
  { serial := 0, pageId := 7, lines := 1, bands := [], st := .completed,
    ctx := { mailbox := 2, seq := 5, code := 0x0303, era := 0 }, media := {}, phiTop := 0,
    checkTop := 0, flags := 0, firstAt := 0, written := 0, dropped := 0, repeated := 0, cause := 0, input := 0,
    energy := 0, abort := none, lastN := none, lastL0 := none, lastP := none, tables := {}, gated := false }

def fatalRaise : Raise :=
  { source := 0x0200, time := 0, unit := none, detail := 0, firmware := false, forced := false, fatal := true,
    judged := none }

/-- Every link is gated by cause 3 already, the permit is present and is lost with the lamps, and a charge channel with a
raw duty is held. -/
def fatalWithHeldChannel : State := { State.reset with
  links := List.replicate 24 { causes := 8#7 },
  stations := [{ links := [0], jobs := [overJob] }],
  bias := [{ held := true, raw := some 7 }],
  forge := { State.reset.forge with permitStrings := 1, permitSince := some 0 },
  flt := { State.reset.flt with presented := [fatalRaise] } }

/-- The duties that a step leaves. -/
def dutiesAfter (o : Out) : List Nat := match o with
  | .next t => t.bias.map fun b => b.duty
  | _ => []

theorem fatalWithHeldChannel_duties : dutiesAfter (exec .faultRaise fatalWithHeldChannel) = [7] := by decide +kernel

/-- Refutes O54: the FATAL reaction's clause fails, for the charge channel of `fatalWithHeldChannel` drives duty 7 after it. -/
theorem not_raisesAreRecorded : ¬ Obligations.RaisesAreRecorded := by
  unfold Obligations.RaisesAreRecorded
  rintro ⟨-, -, -, -, -, -, hfatal, -⟩
  obtain ⟨t, hexec, -, -, -, -, hbias, -⟩ :=
    hfatal fatalRaise fatalWithHeldChannel (by decide) rfl rfl (Or.inl rfl)
  have hduties := fatalWithHeldChannel_duties
  rw [hexec] at hduties
  have hzero : ∀ d ∈ t.bias.map fun b => b.duty, d = 0 := by simpa using hbias
  have hseven : 7 ∈ t.bias.map fun b => b.duty := by
    rw [show (t.bias.map fun b => b.duty) = [7] from hduties]
    exact List.mem_singleton.2 rfl
  exact absurd (hzero 7 hseven) (by decide)

end Sys2Proof.Machine
end

section
/-!
O57: counts saturate, and counters.clear zeroes those it names (spec/24_counters_limits.md).
-/
namespace Sys2Proof.Machine

open Sys2Proof

/-! ### Saturation (R505) -/

theorem count_add (c : Count) (k : Nat) : (c.add k).n = min (c.n + k) (2 ^ 32 - 1) ∧ (c.ovf = true → (c.add k).ovf = true) ∧
    (2 ^ 32 - 1 < c.n + k → 0 < k → (c.add k).ovf = true) := by
  have hlt := c.val.isLt
  unfold Count.add Count.n
  by_cases hfit : c.val.toNat + k < 2 ^ 32 - 1
  · rw [if_pos hfit]
    refine ⟨?_, fun h => h, fun h => absurd h (by omega)⟩
    rw [BitVec.toNat_add, BitVec.toNat_ofNat, Nat.add_mod_mod, Nat.mod_eq_of_lt (by omega)]
    omega
  · rw [if_neg hfit]
    by_cases hk : k = 0
    · rw [if_pos hk]
      exact ⟨by omega, fun h => h, fun _ h => absurd h (by omega)⟩
    · rw [if_neg hk]
      exact ⟨by change 2 ^ 32 - 1 = _; omega, fun _ => rfl, fun _ _ => rfl⟩

/-! ### What is named after it is zeroed (R510) -/

/-- All counts are 0. -/
def AllZero (cs : List Count) : Prop := ∀ c ∈ cs, c.val = 0

theorem held_eq_zero (cs : List Count) (h : AllZero cs) : held cs = 0 := by
  unfold held
  rw [List.filter_eq_nil_iff.2 fun c hc => by simp [h c hc], List.length_nil]

theorem heldMax_eq_zero (ms : List Nat) (h : ∀ m ∈ ms, m = 0) : heldMax ms = 0 := by
  unfold heldMax
  rw [List.filter_eq_nil_iff.2 fun m hm => by simp [h m hm], List.length_nil]

theorem AllZero.append {as bs : List Count} (ha : AllZero as) (hb : AllZero bs) : AllZero (as ++ bs) := fun c hc =>
  (List.mem_append.1 hc).elim (ha c) (hb c)

theorem allZero_nil : AllZero [] := fun _ h => by cases h

/-- The members that are named are the ones that are changed. -/
theorem picked_pickMap {α : Type} (u : Nat) (f : α → α) (l : List α) : picked u (pickMap u f l) = (picked u l).map f := by
  unfold picked pickMap
  by_cases hu : u = 0xFF
  · rw [if_pos hu, if_pos hu, if_pos hu]
  · rw [if_neg hu, if_neg hu, if_neg hu]
    clear hu
    induction l generalizing u with
    | nil => simp [modAt]
    | cons x xs ih =>
      cases u with
      | zero => rfl
      | succ u => exact ih u

theorem allZero_flatMap {α : Type} (counts : α → List Count) (l : List α) (h : ∀ x ∈ l, AllZero (counts x)) :
    AllZero (l.flatMap counts) := fun c hc => by
  obtain ⟨x, hx, hcx⟩ := List.mem_flatMap.1 hc
  exact h x hx c hcx

/-- The counts of the named members of a table are 0 once those members are zeroed. -/
theorem allZero_picked {α : Type} (u : Nat) (f : α → α) (counts : α → List Count) (l : List α) (h : ∀ x, AllZero (counts (f x))) :
    AllZero ((picked u (pickMap u f l)).flatMap counts) := by
  rw [picked_pickMap]
  refine allZero_flatMap _ _ fun y hy => ?_
  obtain ⟨x, -, rfl⟩ := List.mem_map.1 hy
  exact h x

theorem zero_of_mem_picked {α : Type} (u : Nat) (f : α → α) (g : α → Nat) (l : List α) (h : ∀ x, g (f x) = 0) :
    ∀ m ∈ (picked u (pickMap u f l)).map g, m = 0 := fun m hm => by
  rw [picked_pickMap, List.map_map] at hm
  obtain ⟨x, -, rfl⟩ := List.mem_map.1 hm
  exact h x

theorem allZero_of_vals (cs : List Count) (h : (cs.all fun c => c.val = 0) = true) : AllZero cs := fun c hc => by
  simpa using List.all_eq_true.1 h c hc

theorem allZero_if (p : Prop) [Decidable p] (cs : List Count) (h : p → AllZero cs) : AllZero (if p then cs else []) := by
  split
  · next hp => exact h hp
  · exact allZero_nil

/-! Groups whose units are one table, and UNIT 0xFF names more. -/

theorem clearCounts_sources (u : Nat) (s : State) : (clearCounts 0x02 u s).sources = pickMap u Source.zeroed s.sources := by
  change (if (decide (u = 0xFF)) = true then (_ : State) else _).sources = _
  split <;> rfl

theorem clearCounts_crcErrors (s : State) : (clearCounts 0x02 0xFF s).sync.crcErrors = {} := rfl

theorem clearCounts_scanHeads (u : Nat) (s : State) : (clearCounts 0x07 u s).heads = pickMap u Head.scanZeroed s.heads := by
  change (if (decide (u = 0xFF)) = true then (_ : State) else _).heads = _
  split <;> rfl

theorem clearCounts_loops (u : Nat) (s : State) :
    (clearCounts 0x09 u s).engine.loops = pickMap u Loop.zeroed s.engine.loops := rfl

/-! Group 0x04: the stations and heads that UNIT names are those that are zeroed. -/

theorem clearRunAhead_mci (u : Nat) (s : State) : (clearRunAhead u s).mci = s.mci := by
  unfold clearRunAhead
  dsimp only
  split <;> split <;> rfl

theorem raStations_clear (u : Nat) (s : State) :
    raStations (clearRunAhead u s) u = (raStations s u).map Station.raZeroed := by
  unfold raStations
  rw [clearRunAhead_mci]
  by_cases h : u ≠ 0xFF ∧ s.mci.personality = .forge
  · rw [if_pos h, if_pos h]; rfl
  · rw [if_neg h, if_neg h, ← picked_pickMap]
    congr 1
    have hsome : (decide (u ≠ 0xFF) && decide (s.mci.personality = .forge)) = false := by simpa using h
    unfold clearRunAhead
    simp only [hsome, Bool.false_eq_true, if_false]
    split <;> rfl

theorem raHeads_clear (u : Nat) (s : State) : raHeads (clearRunAhead u s) u = (raHeads s u).map Head.raZeroed := by
  unfold raHeads
  rw [clearRunAhead_mci]
  by_cases h : u = 0xFF ∨ s.mci.personality = .forge
  · rw [if_pos h, if_pos h, ← picked_pickMap]
    congr 1
    have hsome : (decide (u = 0xFF) || decide (s.mci.personality = .forge)) = true := by simpa using h
    unfold clearRunAhead
    simp only [hsome, if_true]
    split <;> rfl
  · rw [if_neg h, if_neg h]; rfl

theorem allZero_runAhead (x : RunAhead) : AllZero x.zeroed.counts := allZero_of_vals _ rfl

/-- R510: after counters.clear no count that it names is left. -/
theorem countsOf_clearCounts (g u : Nat) (s : State) : AllZero (countsOf (clearCounts g u s) g u) := by
  unfold countsOf
  split
  · refine AllZero.append ?_ (allZero_if _ _ fun hu => ?_)
    · rw [clearCounts_sources]
      exact allZero_picked u _ _ _ fun x => allZero_of_vals _ rfl
    · rw [of_decide_eq_true hu]
      exact allZero_of_vals _ rfl
  · exact allZero_picked u Link.zeroed _ _ fun x => allZero_of_vals _ rfl
  · change AllZero (((raStations (clearRunAhead u s) u).map (fun x => x.ra) ++
      (raHeads (clearRunAhead u s) u).map (fun x => x.ra)).flatMap RunAhead.counts)
    rw [raStations_clear, raHeads_clear, List.map_map, List.map_map]
    refine allZero_flatMap _ _ fun x hx => ?_
    rcases List.mem_append.1 hx with hx | hx
    · obtain ⟨y, -, rfl⟩ := List.mem_map.1 hx
      exact allZero_runAhead y.ra
    · obtain ⟨y, -, rfl⟩ := List.mem_map.1 hx
      exact allZero_runAhead y.ra
  · exact allZero_picked u Station.zeroed _ _ fun x => allZero_of_vals _ rfl
  · exact allZero_of_vals _ rfl
  · refine AllZero.append ?_ (allZero_if _ _ fun hu => ?_)
    · rw [clearCounts_scanHeads]
      exact allZero_picked u _ _ _ fun x => allZero_of_vals _ rfl
    · rw [of_decide_eq_true hu]
      exact allZero_of_vals _ rfl
  · exact allZero_picked u Head.overlapZeroed _ _ fun x => allZero_of_vals _ rfl
  · refine AllZero.append ?_ (allZero_if _ _ fun hu => ?_)
    · exact allZero_picked u Loop.zeroed _ _ fun x => allZero_of_vals _ rfl
    · rw [of_decide_eq_true hu]
      refine allZero_flatMap _ _ fun y hy => ?_
      obtain ⟨x, -, rfl⟩ := List.mem_map.1 hy
      exact allZero_of_vals _ rfl
  · exact allZero_picked u Stream.zeroed _ _ fun x => allZero_of_vals _ rfl
  · exact allZero_of_vals _ rfl
  · change AllZero ((picked u (pickMap u Channel.zeroed s.dma.channels)).map fun x => x.bad)
    rw [picked_pickMap, List.map_map]
    intro c hc
    obtain ⟨x, -, rfl⟩ := List.mem_map.1 hc
    rfl
  · exact allZero_picked u Deflate.zeroed _ _ fun x => allZero_of_vals _ rfl
  · exact allZero_picked u Motor.zeroed _ _ fun x => allZero_of_vals _ rfl
  · exact allZero_picked u Axis.zeroed _ _ fun x => allZero_of_vals _ rfl
  · exact allZero_picked u Synth.zeroed _ _ fun x => allZero_of_vals _ rfl
  · exact allZero_picked u Unit'.zeroed _ _ fun x => allZero_of_vals _ rfl
  · exact allZero_of_vals _ rfl
  · exact allZero_picked u Lamp.zeroed _ _ fun x => allZero_of_vals _ rfl
  · exact allZero_nil

/-- R507, R510: nor a held maximum. -/
theorem maximaOf_clearCounts (g u : Nat) (s : State) : ∀ m ∈ maximaOf (clearCounts g u s) g u, m = 0 := by
  unfold maximaOf
  split
  · change ∀ m ∈ (raStations (clearRunAhead u s) u).map (fun x => x.ra.maxNs) ++
      (raHeads (clearRunAhead u s) u).map (fun x => x.ra.maxNs), m = 0
    rw [raStations_clear, raHeads_clear, List.map_map, List.map_map]
    intro m hm
    rcases List.mem_append.1 hm with hm | hm
    · obtain ⟨y, -, rfl⟩ := List.mem_map.1 hm
      rfl
    · obtain ⟨y, -, rfl⟩ := List.mem_map.1 hm
      rfl
  · exact zero_of_mem_picked u Head.overlapZeroed _ _ fun _ => rfl
  · exact zero_of_mem_picked u Channel.zeroed _ _ fun _ => rfl
  · intro m hm
    cases hm

/-- counters.clear touches no log, no record and no other unit's state. -/
theorem clearCounts_kept (g u : Nat) (s : State) :
    (clearCounts g u s).mci = s.mci ∧ (clearCounts g u s).flt = s.flt ∧ (clearCounts g u s).otp = s.otp ∧
    (clearCounts g u s).lag.log = s.lag.log ∧ (clearCounts g u s).dram.log = s.dram.log ∧
    (clearCounts g u s).time = s.time := by
  have hrun : { clearRunAhead u s with stations := s.stations, heads := s.heads } = s := by
    unfold clearRunAhead
    dsimp only
    split <;> split <;> rfl
  unfold clearCounts
  split
  case h_1 => dsimp only; split <;> exact ⟨rfl, rfl, rfl, rfl, rfl, rfl⟩
  case h_3 =>
    exact ⟨(congrArg State.mci hrun :), (congrArg State.flt hrun :), (congrArg State.otp hrun :),
      (congrArg (fun t : State => t.lag.log) hrun :), (congrArg (fun t : State => t.dram.log) hrun :),
      (congrArg State.time hrun :)⟩
  case h_6 => dsimp only; split <;> exact ⟨rfl, rfl, rfl, rfl, rfl, rfl⟩
  all_goals exact ⟨rfl, rfl, rfl, rfl, rfl, rfl⟩

/-! ### The masks of numbers -/

theorem maskOf_lt (is : List Nat) (n : Nat) (h : ∀ i ∈ is, i < n) : maskOf is < 2 ^ n := by
  have hfold (m : Nat) (hm : m < 2 ^ n) : is.foldl (fun m i => m ||| 2 ^ i) m < 2 ^ n := by
    induction is generalizing m with
    | nil => exact hm
    | cons i is ih =>
      exact ih (fun j hj => h j (List.mem_cons_of_mem _ hj)) _
        (Nat.or_lt_two_pow hm (Nat.pow_lt_pow_right (by decide) (h i List.mem_cons_self)))
  exact hfold 0 (Nat.two_pow_pos n)

/-- Settles O57. -/
theorem countersSaturateAndClear : Obligations.CountersSaturateAndClear := by
  unfold Obligations.CountersSaturateAndClear
  refine ⟨count_add, ?_, ?_, ?_, ?_⟩
  · intro rq s hs hlo hhi hunit
    change execCountersClear rq s = _
    unfold execCountersClear
    have hlo' : ¬ rq.u8 0 < 2 := by omega
    have hhi' : ¬ 19 < rq.u8 0 := by omega
    exact command_pass 0x1702 rq _ _ s hs (by simp [hlo', hhi', hunit])
  · intro g u s t
    exact ⟨held_eq_zero _ (countsOf_clearCounts g u s), heldMax_eq_zero _ (maximaOf_clearCounts g u s), clearCounts_kept g u s⟩
  · intro rq s hs hgroup
    change execCountersClear rq s = _
    unfold execCountersClear
    have hbad : (decide (rq.u8 0 < 2) || decide (19 < rq.u8 0)) = true := by simpa using hgroup
    exact command_turned_away 0x1702 rq _ _ s _ _ hs (List.find?_cons_of_pos hbad)
  · intro rq s hs
    refine ⟨_, command_unchecked 0x1701 rq _ s hs, by simp [zeros], ?_⟩
    rw [leAt_left _ _ _ _ (by simp), leAt_leBytes]
    refine Nat.mod_eq_of_lt (Nat.lt_trans (maskOf_lt _ 24 fun i hi => ?_) (by decide))
    exact List.mem_range.1 (List.mem_of_mem_filter hi)

end Sys2Proof.Machine
end

section
/-!
O13: the sync bus (spec/03_phase_timebase.md R104 to R111).
-/
namespace Sys2Proof.Machine

open Sys2Proof

/-! ### Slots (R105) -/

/-- The fields of a slot, without its CRC. -/
def slotBody (type tag count time period : Nat) : Nat :=
  0b10100111 + 1 * 2 ^ 8 + type % 16 * 2 ^ 12 + tag % 256 * 2 ^ 16 + count % 2 ^ 48 * 2 ^ 24 +
    time % 2 ^ 64 * 2 ^ 72 + period % 2 ^ 48 * 2 ^ 136

theorem slotBody_lt (type tag count time period : Nat) : slotBody type tag count time period < 2 ^ 184 := by
  unfold slotBody
  omega

theorem slotWord_toNat (type tag count time period : Nat) : (slotWord type tag count time period).toNat =
    slotBody type tag count time period + (slotWord.slotCrc (slotBody type tag count time period)).toNat * 2 ^ 184 := by
  have hbody := slotBody_lt type tag count time period
  have hcrc := (slotWord.slotCrc (slotBody type tag count time period)).isLt
  change (BitVec.ofNat 200 (slotBody type tag count time period +
    (slotWord.slotCrc (slotBody type tag count time period)).toNat * 2 ^ 184)).toNat = _
  rw [BitVec.toNat_ofNat]
  exact Nat.mod_eq_of_lt (by omega)

theorem slotWord_good (type tag count time period : Nat) : slotGood (slotWord type tag count time period) = true := by
  have hbody := slotBody_lt type tag count time period
  have hcrc := (slotWord.slotCrc (slotBody type tag count time period)).isLt
  unfold slotGood
  rw [slotWord_toNat]
  generalize hc : slotWord.slotCrc (slotBody type tag count time period) = c at hcrc
  rw [show (slotBody type tag count time period + c.toNat * 2 ^ 184) % 2 ^ 184 = slotBody type tag count time period by omega, hc]
  exact decide_eq_true (by omega)

/-- The fields are read back as they were sent. -/
theorem slotWord_fields (tag count time period : Nat) (htag : tag < 4) (hcount : count < 2 ^ 48) (htime : time < 2 ^ 63)
    (hperiod : period < 2 ^ 47) :
    let w := (slotWord 0 tag count time period).toNat
    w % 256 = 0b10100111 ∧ w / 2 ^ 8 % 16 = 1 ∧ w / 2 ^ 12 % 16 = 0 ∧ w / 2 ^ 16 % 256 = tag ∧
    w / 2 ^ 24 % 2 ^ 48 = count ∧ w / 2 ^ 72 % 2 ^ 64 = time ∧ w / 2 ^ 136 % 2 ^ 48 = period := by
  intro w
  have hw : w = _ := slotWord_toNat 0 tag count time period
  clear_value w
  generalize (slotWord.slotCrc (slotBody 0 tag count time period)).toNat = c at hw
  unfold slotBody at hw
  rw [Nat.mod_eq_of_lt (show tag < 256 by omega), Nat.mod_eq_of_lt hcount, Nat.mod_eq_of_lt (show time < 2 ^ 64 by omega),
    Nat.mod_eq_of_lt (show period < 2 ^ 48 by omega)] at hw
  refine ⟨?_, ?_, ?_, ?_, ?_, ?_, ?_⟩ <;> omega

/-! ### Holdover (R92, R110) -/

/-- A remote source that is enabled is in holdover. -/
def Source.heldOver (x : Source) : Source := if x.st = .off then x else { x with st := .holdover, acqCount := 0 }

theorem heldOver_heldOver (x : Source) : x.heldOver.heldOver = x.heldOver := by
  unfold Source.heldOver
  by_cases h : x.st = .off
  · rw [if_pos h, if_pos h]
  · rw [if_neg h]
    rfl

theorem heldOver_st (x : Source) : x.heldOver.st = if x.st = .off then .off else .holdover := by
  unfold Source.heldOver
  split
  · next h => exact h
  · rfl

theorem holdover_frame (is : List Nat) (s : State) :
    { holdover is s with sources := s.sources, stations := s.stations, bias := s.bias } = s := by
  have hfold : { is.foldl (fun s i => s.modSource i Source.heldOver) s with sources := s.sources } = s := by
    induction is generalizing s with
    | nil => rfl
    | cons i is ih => exact congrArg (fun u : State => { u with sources := s.sources }) (ih (s.modSource i Source.heldOver))
  exact (congrArg (fun u : State => { u with stations := s.stations, bias := s.bias }) hfold :)

/-- The sources that are named enter holdover, and no other. -/
theorem holdover_source (is : List Nat) (s : State) (his : ∀ i ∈ is, i < s.sources.length) (j : Nat) :
    (holdover is s).source j = if j ∈ is then (s.source j).heldOver else s.source j := by
  have hfold : ∀ (s : State), (∀ i ∈ is, i < s.sources.length) →
      (is.foldl (fun s i => s.modSource i Source.heldOver) s).source j =
        if j ∈ is then (s.source j).heldOver else s.source j := by
    intro s his
    clear * - his
    induction is generalizing s with
    | nil => rfl
    | cons i is ih =>
      rw [List.foldl_cons, ih (s.modSource i Source.heldOver) (by simpa using fun k hk => his k (List.mem_cons_of_mem _ hk))]
      by_cases hij : i = j
      · subst hij
        rw [State.modSource_same _ _ _ (his i List.mem_cons_self), heldOver_heldOver, ite_self, if_pos List.mem_cons_self]
      · rw [State.modSource_ne _ _ _ _ hij]
        simp only [List.mem_cons, Ne.symm hij, false_or]
  exact hfold s his

/-! ### Replies and violations leave the sync bus as it is -/

/-- A completion changes the command interface alone. -/
theorem complete_frame (c : Ctx) (status : Nat) (payload : List Byte) (s : State) :
    { complete c status payload s with mci := s.mci } = s := by
  unfold complete enqueueMsg
  dsimp only
  (repeat' split) <;> rfl

theorem logViolation_frame (iface unit code detail : Nat) (s : State) :
    { logViolation iface unit code detail s with mci := s.mci, free := s.free } = s :=
  (logViolation_logged iface unit code detail s).2.2.2.2

theorem syncViolation_frame (unit code slot : Nat) (s : State) :
    { syncViolation unit code slot s with mci := s.mci, free := s.free } = s := logViolation_frame ..

theorem advanceTo_past (s : State) (t : Nat) (h : t ≤ s.time.toNat) : s.advanceTo t = s := by
  unfold State.advanceTo
  rw [if_neg]
  simp only [Bool.and_eq_true, decide_eq_true_eq]
  omega

theorem advanceTo_join (s : State) (t : Nat) : (s.advanceTo t).sync.join = s.sync.join := by
  have hslew (k : Nat) : (s.sync.slewOver k).join = s.sync.join := by
    unfold SyncBus.slewOver
    split <;> rfl
  unfold State.advanceTo State.advance
  split
  · dsimp only
    split
    · exact hslew _
    · rfl
  · rfl

/-- The publish settings of timebase.sync.config name existing sources, or none. -/
theorem publish_ok (rq : Req) (hpub : ∀ k, k < 4 → rq.u8 (4 + k) = 255 ∨ rq.u8 (4 + k) ≤ 49) :
    (((rq.bytes 4 4).map (·.toNat)).any fun p => p ≠ 255 && 49 < p) = false := by
  refine List.any_eq_false.2 fun p hp => ?_
  obtain ⟨b, hb, rfl⟩ := List.mem_map.1 hp
  obtain ⟨k, hk, rfl⟩ := List.mem_map.1 hb
  have := hpub k (List.mem_range.1 hk)
  unfold Req.u8 at this
  simp only [Bool.and_eq_true, decide_eq_true_eq]
  omega

/-! ### A slot of a remote source (R106) -/

theorem asSigned_eq {w v : Nat} (hw : 0 < w) (h : v < 2 ^ (w - 1)) : asSigned w v = v := by
  have hle : 2 ^ (w - 1) ≤ 2 ^ w := Nat.pow_le_pow_right (by omega) (by omega)
  unfold asSigned
  rw [Nat.mod_eq_of_lt (show v < 2 ^ w by omega), if_pos h]

/-- A slot of TYPE 0 takes the state of a source in TRACK, which stays in TRACK. -/
theorem remoteState_tracked (i count time period : Nat) (s : State) (hi : i < s.sources.length)
    (htime : time < 2 ^ 63) (hperiod : period < 2 ^ 47) (hst : (s.source i).st = .track) :
    let t := remoteState i count time period s
    (t.source i).n = BitVec.ofNat 48 count ∧ (t.source i).tN = time ∧ (t.source i).p = period ∧
    (t.source i).st = .track ∧ (∀ j, j ≠ i → t.source j = s.source j) ∧ t.time = s.time ∧ t.sync = s.sync := by
  intro t
  have ht : t = s.modSource i fun x =>
      let x := if x.heard then x.count (asSigned 48 (pattern 48 ((count : Int) - x.n.toNat))) else x
      { x with n := BitVec.ofNat 48 count, tN := asSigned 64 time, p := asSigned 48 period, heard := true, primed := true } := by
    change remoteState i count time period s = _
    unfold remoteState
    simp only [hst, reduceCtorEq, if_false]
  rw [ht, State.modSource_same _ _ _ hi]
  refine ⟨rfl, asSigned_eq (by omega) htime, asSigned_eq (by omega) hperiod, ?_,
    fun j hj => State.modSource_ne _ _ _ _ hj.symm, rfl, rfl⟩
  dsimp only
  split
  · exact hst
  · exact hst

/-- A silence that is logged and takes remote sources into holdover (R110). -/
def silenced (code unit slot fault : Nat) (who : Option Nat) (f : SyncBus → SyncBus) (is : List Nat) (s : State) : State :=
  let s := syncViolation unit code slot s
  holdover is (present fault who 0 { s with sync := f s.sync })

theorem silenced_effect (code unit slot fault : Nat) (who : Option Nat) (f : SyncBus → SyncBus) (is : List Nat) (s : State)
    (his : ∀ i ∈ is, 64 ≤ i ∧ i < 96) (hlen : s.sources.length = 96) :
    let t := silenced code unit slot fault who f is s
    t.sync = f s.sync ∧
    (∀ i ∈ is, (t.source i).st = if (s.source i).st = .off then .off else .holdover) ∧
    (∀ i, i < 64 → t.source i = s.source i) ∧ t.mci.vcount = s.mci.vcount.inc ∧ t.time = s.time := by
  intro t
  generalize hv : syncViolation unit code slot s = v
  have hframe := syncViolation_frame unit code slot s
  obtain ⟨-, hcount, -⟩ := logViolation_logged 3 unit code (s.sync.frame % 65536 + slot * 65536) s
  change (syncViolation unit code slot s).mci.vcount = _ at hcount
  rw [hv] at hframe hcount
  have hsources : v.sources = s.sources := (congrArg State.sources hframe :)
  have hsync : v.sync = s.sync := (congrArg State.sync hframe :)
  have htime : v.time = s.time := (congrArg State.time hframe :)
  have ht : t = holdover is (present fault who 0 { v with sync := f v.sync }) := by rw [← hv]; rfl
  generalize hu : present fault who 0 { v with sync := f v.sync } = u at ht
  have husources : u.sources = s.sources := by rw [← hu, ← hsources]; rfl
  have husync : u.sync = f s.sync := by rw [← hu, ← hsync]; rfl
  have hutime : u.time = s.time := by rw [← hu, ← htime]; rfl
  have hucount : u.mci.vcount = s.mci.vcount.inc := by rw [← hu, ← hcount]; rfl
  have husource (i : Nat) : u.source i = s.source i := by unfold State.source; rw [husources]
  have hholdover := holdover_frame is u
  have hsource := holdover_source is u (fun i hi => by rw [husources, hlen]; exact (his i hi).2)
  rw [← ht] at hholdover hsource
  refine ⟨(congrArg State.sync hholdover :).trans husync, fun i hi => ?_, fun i hi => ?_,
    (congrArg (fun u : State => u.mci.vcount) hholdover :).trans hucount, (congrArg State.time hholdover :).trans hutime⟩
  · rw [hsource, if_pos hi, heldOver_st, husource]
  · rw [hsource, if_neg (fun h => absurd (his i h).1 (by omega)), husource]

/-- Settles O13. -/
theorem syncBusFrames : Obligations.SyncBusFrames := by
  unfold Obligations.SyncBusFrames
  refine ⟨?_, ?_, ?_, ?_, ?_, ?_, ?_, ?_, ?_, ?_, ?_⟩
  · intro s hmode
    have hdue : frameDue s = 0 := by
      unfold frameDue
      simp [hmode]
    change execSyncFrameStart s = _
    unfold execSyncFrameStart
    simp only [hdue, advanceTo_past s 0 (Nat.zero_le _), hmode, if_true]
  · intro f s hmode hruns htx hf htime
    have hdue : frameDue s = s.time.toNat := by
      unfold frameDue ceilDiv
      simp only [hmode, htx, if_true, Option.isSome_none, Bool.false_and, Bool.false_eq_true, if_false, htime,
        OfNat.ofNat_ne_zero]
      omega
    have hframe : s.time.toNat / 32000 = f := by omega
    change ∃ t, execSyncFrameStart s = _ ∧ _
    unfold execSyncFrameStart
    simp only [hdue, advanceTo_past s _ (Nat.le_refl _), hmode, hframe, hf, if_true, Bool.and_self, decide_true,
      one_ne_zero, if_false]
    exact ⟨_, rfl, rfl, rfl, rfl, rfl⟩
  · intro rq s hs hmode hlo hhi hstep hpub hjoin
    have hlo' : ¬ rq.u8 1 < 1 := by omega
    have hhi' : ¬ 7 < rq.u8 1 := by omega
    have hstep' : ¬ 1 < rq.u8 2 := by omega
    change ∃ t, execTimebaseSyncConfig rq s = _ ∧ _
    unfold execTimebaseSyncConfig
    refine ⟨_, command_pass 0x0203 rq _ _ s hs (by
      simp only [publish_ok rq hpub]
      simp [hmode, hlo', hhi', hstep', hjoin]), ?_⟩
    dsimp only
    rw [if_pos hmode, if_pos hmode, if_pos hmode, if_pos hmode, if_pos hmode]
    generalize hu : ({ s with sync := _ } : State) = u
    have hframe := (holdover_frame ((List.range 32).map (64 + ·)) (accept rq 0x0203 [] u))
    have hsync : _ = u.sync := (congrArg State.sync hframe :).trans
      (congrArg State.sync (respond_frame rq 0x0203 Status.accepted [] u) :)
    have htime : _ = u.time := (congrArg State.time hframe :).trans
      (congrArg State.time (respond_frame rq 0x0203 Status.accepted [] u) :)
    rw [hsync, htime, ← hu]
    exact ⟨hmode, rfl, rfl, rfl, rfl, rfl, rfl⟩
  · intro rq s hs hmode
    change execTimebaseSyncConfig rq s = _
    unfold execTimebaseSyncConfig
    exact command_turned_away 0x0203 rq _ _ s true _ hs (by simp [hmode])
  · intro offset s hst hstep hno hoff
    change execSyncJoinMeasure offset s = _
    simp [execSyncJoinMeasure, hst, hstep, hno, hoff]
  · intro s hst hstep
    change execSyncJoinEcho s = _
    simp [execSyncJoinEcho, hst, hstep]
  · intro c s hjoin
    have hjoin' : (s.advanceTo (s.sync.joinAt.toNat + 16000000)).sync.join = some c := (advanceTo_join s _).trans hjoin
    generalize hu : s.advanceTo (s.sync.joinAt.toNat + 16000000) = u at hjoin'
    refine ⟨joinFails u, ?_, ?_⟩
    · change execSyncJoinDeadline s = _
      rw [← hu]
      simp [execSyncJoinDeadline, hjoin, ticksPerMs]
    · unfold joinFails
      rw [hjoin']
      dsimp only
      generalize hv : ({ u with sync := { u.sync with mode := 0, st := 0, join := none, joinStep := 0 } } : State) = v
      have hframe := complete_frame c Status.failed (syncPayload v) v
      have hsync : (complete c Status.failed (syncPayload v) v).sync = v.sync := (congrArg State.sync hframe :)
      have htime : (complete c Status.failed (syncPayload v) v).time = v.time := (congrArg State.time hframe :)
      rw [hsync, htime, ← hv]
      exact ⟨rfl, rfl, rfl, rfl⟩
  · intro dev tag count time period late s hlen hmode hdev hdev' hindex hpeer htag hcount htime hperiod hst
    obtain ⟨hpre, hversion, htype, htag', hcount', htime', hperiod'⟩ := slotWord_fields tag count time period htag hcount htime hperiod
    have hgood := slotWord_good 0 tag count time period
    generalize slotWord 0 tag count time period = w at hpre hversion htype htag' hcount' htime' hperiod' hgood
    have hdev0 : dev ≠ 0 := by omega
    simp only [Nat.reducePow] at hversion htype htag' hcount' htime' hperiod'
    refine ⟨remoteState (64 + 4 * dev + tag) count time period
      { s with sync := { s.sync with peers := s.sync.peers ||| (1#8 <<< dev), crcRun := modAt s.sync.crcRun dev fun _ => 0 } }, ?_, ?_⟩
    · change execSyncSlotReceive dev ⟨w, late⟩ s = _
      unfold execSyncSlotReceive
      simp [hmode, not_le.2 hdev', hdev0, hindex, hpre, hversion, htype, htag', hcount', htime', hperiod', hgood, htag]
    · obtain ⟨hn, htN, hp, htrack, hother, htime, -⟩ := remoteState_tracked (64 + 4 * dev + tag) count time period
        { s with sync := { s.sync with peers := s.sync.peers ||| (1#8 <<< dev), crcRun := modAt s.sync.crcRun dev fun _ => 0 } }
        (by change _ < s.sources.length; omega) htime hperiod hst
      exact ⟨hn, htN, hp, htrack, hother, htime⟩
  · intro dev slot late s hmode hst hdev hne hpre hbad hrun
    have hrun' : at' s.sync.crcRun dev 0 + 1 ≠ 8 := by omega
    refine ⟨syncViolation dev 1 dev { s with sync := { s.sync with
      crcErrors := s.sync.crcErrors.inc,
      crcRun := modAt s.sync.crcRun dev fun _ => at' s.sync.crcRun dev 0 + 1 } }, ?_, ?_⟩
    · change execSyncSlotReceive dev ⟨slot, late⟩ s = _
      unfold execSyncSlotReceive
      simp [hmode, hst, not_le.2 hdev, hne, hpre, hbad, hrun']
    · generalize hu : ({ s with sync := { s.sync with
        crcErrors := s.sync.crcErrors.inc,
        crcRun := modAt s.sync.crcRun dev fun _ => at' s.sync.crcRun dev 0 + 1 } } : State) = u
      have hframe := syncViolation_frame dev 1 dev u
      have hsync : (syncViolation dev 1 dev u).sync = u.sync := (congrArg State.sync hframe :)
      have hsources : (syncViolation dev 1 dev u).sources = u.sources := (congrArg State.sources hframe :)
      have hlogged := logViolation_logged 3 dev 1 (u.sync.frame % 65536 + dev * 65536) u
      refine ⟨by rw [hsync, ← hu], by rw [hsources, ← hu], ?_⟩
      rw [hsync]
      have hsame : { s with sync := u.sync } = u := by rw [← hu]
      rw [hsame]
      exact hlogged
  · intro s hmode hst hlen
    refine ⟨silenced 4 s.sync.index 0 0x0045 none (fun y => { y with st := 3, owed := 0, rejoin := false, aligning := false })
      ((List.range 32).map (64 + ·)) s, ?_, ?_⟩
    · change execSyncMasterSilent s = _
      unfold execSyncMasterSilent
      simp only [hmode, hst, decide_true, Bool.and_self, if_true]
      rfl
    · obtain ⟨hsync, hheld, hlocal, hcount, htime⟩ := silenced_effect 4 s.sync.index 0 0x0045 none
        (fun y => { y with st := 3, owed := 0, rejoin := false, aligning := false }) ((List.range 32).map (64 + ·)) s
        (by simp only [List.mem_map, List.mem_range]; omega) hlen
      refine ⟨by rw [hsync], fun i hlo hhi => hheld i ?_, hlocal, hcount, htime⟩
      exact List.mem_map.2 ⟨i - 64, List.mem_range.2 (by omega), by omega⟩
  · intro dev s hmode hdev hpeer hlen
    have hforgets : (s.sync.peers &&& ~~~(1#8 <<< dev)).getLsbD dev = false := by
      simp [hdev]
    refine ⟨silenced 6 dev dev 0x0047 (some dev) id (remoteOf dev)
      { s with sync := { s.sync with peers := s.sync.peers &&& ~~~(1#8 <<< dev) } }, ?_, ?_⟩
    · change execSyncPeerSilent dev s = _
      unfold execSyncPeerSilent
      simp only [hmode, hdev, hpeer, decide_true, Bool.and_self, if_true, ne_eq, not_false_eq_true]
      rfl
    · obtain ⟨hsync, hheld, hlocal, hcount, htime⟩ := silenced_effect 6 dev dev 0x0047 (some dev) id (remoteOf dev)
        { s with sync := { s.sync with peers := s.sync.peers &&& ~~~(1#8 <<< dev) } }
        (by simp only [remoteOf, List.mem_map, List.mem_range]; omega) hlen
      refine ⟨by rw [hsync]; exact hforgets, fun j hj => hheld _ ?_, hlocal, hcount, htime⟩
      exact List.mem_map.2 ⟨j, List.mem_range.2 hj, rfl⟩

end Sys2Proof.Machine
end

section
/-!
What the setting of a gate cause leaves unchanged (R133 to R137), and nSTOP (O17).
-/
namespace Sys2Proof.Machine

open Sys2Proof

/-! ### Links of which only the lanes, the words sent and the gate have changed -/

/-- Of a link only its queues, what it sends and its gate have changed, and no gate cause has cleared. -/
def LinkGated (a b : Link) : Prop :=
  { b with tx := a.tx, ackWait := a.ackWait, queues := a.queues, lanes := a.lanes, causes := a.causes,
           releaseAt := a.releaseAt, opened := a.opened, urgentOnly := a.urgentOnly } = a ∧
  ∀ c, a.causes.getLsbD c = true → b.causes.getLsbD c = true

theorem LinkGated.refl (a : Link) : LinkGated a a := ⟨rfl, fun _ h => h⟩

theorem LinkGated.trans {a b c : Link} (h : LinkGated a b) (g : LinkGated b c) : LinkGated a c :=
  ⟨(congrArg (fun x : Link => { x with tx := a.tx, ackWait := a.ackWait, queues := a.queues, lanes := a.lanes, causes := a.causes, releaseAt := a.releaseAt, opened := a.opened, urgentOnly := a.urgentOnly }) g.1).trans h.1,
    fun k hk => g.2 k (h.2 k hk)⟩

/-- What gating does: it is calm, and of the links only queues, what they send and their gates change. -/
def Gates (s t : State) : Prop :=
  Calm s t ∧ t.links.length = s.links.length ∧ ∀ l, LinkGated (s.link l) (t.link l)

theorem Gates.refl (s : State) : Gates s s := ⟨Calm.refl s, rfl, fun _ => LinkGated.refl _⟩

theorem Gates.trans {a b c : State} (h : Gates a b) (g : Gates b c) : Gates a c :=
  ⟨h.1.trans g.1, g.2.1.trans h.2.1, fun l => (h.2.2 l).trans (g.2.2 l)⟩

theorem Calm.gates {s t : State} (h : Calm s t) (hlinks : t.links = s.links) : Gates s t := by
  refine ⟨h, by rw [hlinks], fun l => ?_⟩
  unfold State.link
  rw [hlinks]
  exact LinkGated.refl _

theorem gates_foldl {α : Type} (f : State → α → State) (l : List α) (s : State) (hf : ∀ s x, Gates s (f s x)) :
    Gates s (l.foldl f s) := by
  induction l generalizing s with
  | nil => exact Gates.refl s
  | cons x l ih => exact (hf s x).trans (ih _)

theorem Gates.nLinks {s t : State} (h : Gates s t) : t.nLinks = s.nLinks := by
  have hpart : t.part = s.part := (congrArg State.part h.1.1 :)
  unfold State.nLinks
  rw [hpart]

theorem modLink_frame (s : State) (l : Nat) (f : Link → Link) : { s.modLink l f with links := s.links } = s := by
  unfold State.modLink
  split <;> rfl

theorem at'_ge {α : Type} (l : List α) (i : Nat) (d : α) (h : l.length ≤ i) : at' l i d = d := List.getD_eq_default l d h

theorem gates_modLink (l : Nat) (f : Link → Link) (s : State) (hf : ∀ x, LinkGated x (f x)) : Gates s (s.modLink l f) := by
  refine ⟨calm_modLink l f s, ?_, fun k => ?_⟩
  · unfold State.modLink
    split
    · exact length_modAt ..
    · rfl
  · by_cases hk : l = k
    · subst hk
      unfold State.modLink State.link
      split
      · by_cases hl : l < s.links.length
        · dsimp only
          rw [at'_modAt_same _ _ _ _ hl]
          exact hf _
        · dsimp only
          rw [at'_ge s.links l _ (not_lt.1 hl), at'_ge (modAt s.links l f) l _ (by rw [length_modAt]; exact not_lt.1 hl)]
          exact LinkGated.refl _
      · exact LinkGated.refl _
    · rw [State.modLink_ne _ _ _ _ hk]
      exact LinkGated.refl _

/-! ### Words and gates -/

theorem linkGated_tx (x : Link) (tx ackWait) : LinkGated x { x with tx := tx, ackWait := ackWait } := ⟨rfl, fun _ h => h⟩

theorem gates_sendCtl (l ctype payload : Nat) (s : State) : Gates s (sendCtl l ctype payload s) := by
  have hblock (x : Link) (b) : LinkGated x (if x.txFrom.isSome then { x with tx := x.tx ++ [b] } else x) := by
    split
    · exact linkGated_tx x _ x.ackWait
    · exact LinkGated.refl x
  have hwait (x : Link) (w) : LinkGated x (if x.txFrom.isSome then { x with ackWait := x.ackWait ++ [w] } else x) := by
    split
    · exact linkGated_tx x x.tx _
    · exact LinkGated.refl x
  unfold sendCtl sendBlock
  dsimp only
  split
  · exact (gates_modLink _ _ _ fun x => hblock x _).trans (gates_modLink _ _ _ fun x => hwait x _)
  · exact gates_modLink _ _ _ fun x => hblock x _

theorem gates_sendGate (l : Nat) (s : State) : Gates s (sendGate l s) := by
  unfold sendGate
  split
  · exact gates_sendCtl ..
  · exact Gates.refl s

theorem linkGated_cause (cause : Nat) (x : Link) (releaseAt opened urgentOnly) :
    LinkGated x { x with causes := x.causes ||| (1#7 <<< cause), releaseAt := releaseAt, opened := opened,
                         urgentOnly := urgentOnly } :=
  ⟨rfl, fun c h => by simp only [BitVec.getLsbD_or, h, Bool.true_or]⟩

theorem gates_gateLink (cause l : Nat) (s : State) : Gates s (gateLink cause l s) := by
  unfold gateLink
  split
  · exact Gates.refl s
  · exact (gates_modLink _ _ _ fun x => linkGated_cause cause x _ _ _).trans (gates_sendGate ..)

theorem linkGated_keepEvents (keep : Nat → QEvent → Bool) (x : Link) : LinkGated x (x.keepEvents keep) := ⟨rfl, fun _ h => h⟩

theorem gates_purgeUnit (i : Nat) (u : UnitId) (s : State) : Gates s (purgeUnit i u s) :=
  gates_foldl _ _ _ fun _ _ => gates_modLink _ _ _ (linkGated_keepEvents _)

theorem gates_purgeQueues (lanes : BitVec 192) (s : State) : Gates s (purgeQueues lanes s) :=
  gates_foldl _ _ _ fun _ _ => gates_modLink _ _ _ (linkGated_keepEvents _)

/-! ### Units, tiles and completions -/

/-- An update of the units that may change, without the links. -/
theorem gates_update (s : State) (rollback stations gpi bias heads forge lag dma therm presented) :
    Gates s { s with rollback := rollback, stations := stations, gpi := gpi, bias := bias, heads := heads,
                     forge := forge, lag := lag, dma := dma, therm := therm,
                     flt := { s.flt with presented := presented } } :=
  (calm_update s s.links rollback stations gpi bias heads forge lag dma therm presented).gates rfl

theorem gates_complete (c : Ctx) (status : Nat) (payload : List Byte) (s : State) : Gates s (complete c status payload s) :=
  (calm_complete c status payload s).gates (congrArg State.links (complete_frame c status payload s) :)

theorem gates_modHead (h : Nat) (f : Head → Head) (s : State) : Gates s (s.modHead h f) := by
  unfold State.modHead
  split
  · exact gates_update ..
  · exact Gates.refl s

theorem gates_modStation (i : Nat) (f : Station → Station) (s : State) : Gates s (s.modStation i f) := gates_update ..

theorem gates_modTiles (f : Tile → Tile) (s : State) : Gates s (s.modTiles f) := gates_update ..

theorem gates_releaseTile (h : Nat) (s : State) : Gates s (releaseTile h s) := gates_update ..

theorem gates_refreshSearch (s : State) : Gates s (refreshSearch s) := gates_update ..

theorem gates_factorsChanged (s : State) : Gates s (factorsChanged s) := by
  unfold factorsChanged
  refine gates_foldl _ _ _ fun s u => ?_
  dsimp only
  (repeat' split)
  · exact Gates.refl s
  · exact gates_update ..
  · exact gates_update ..

theorem gates_syncPrivilege (s : State) : Gates s (syncPrivilege s) := by
  unfold syncPrivilege
  refine (gates_foldl _ _ _ fun s u => ?_).trans (gates_factorsChanged _)
  dsimp only
  split
  · exact Gates.refl s
  · exact gates_update ..

theorem gates_discardSweeps (i : Nat) (s : State) : Gates s (discardSweeps i s) :=
  (gates_modStation ..).trans (gates_modTiles ..)

theorem gates_discardVectors (h : Nat) (s : State) : Gates s (discardVectors h s) :=
  (gates_modHead ..).trans (gates_modTiles ..)

theorem gates_returnVectors (h : Nat) (s : State) : Gates s (returnVectors h s) :=
  (gates_modHead ..).trans (gates_modTiles ..)

theorem gates_rollbackTrigger (code : Nat) (lanes : BitVec 192) (s : State) : Gates s (rollbackTrigger code lanes s) := by
  unfold rollbackTrigger
  refine Gates.trans ?_ (gates_update _ _ _ _ _ _ _ _ _ _ _)
  refine Gates.trans ?_ (gates_purgeQueues ..)
  refine Gates.trans ?_ (gates_foldl _ _ _ fun _ _ => (gates_modHead ..).trans (gates_discardVectors ..))
  exact gates_foldl _ _ _ fun _ _ => (gates_modStation ..).trans (gates_discardSweeps ..)

/-! ### The end of the layer and of pages -/

theorem gates_startJump (h : Nat) (start : Int) (target : Point) (s : State) : Gates s (startJump h start target s) :=
  (gates_modLink _ _ _ (linkGated_keepEvents _)).trans (gates_modHead ..)

theorem gates_releaseHeadTiles (s : State) : Gates s (releaseHeadTiles s) :=
  gates_foldl _ _ _ fun _ _ => gates_releaseTile ..

theorem gates_dropReassignment (s : State) : Gates s (dropReassignment s) :=
  (gates_update s _ _ _ _ _ _ _ _ _ _).trans (gates_foldl _ _ _ fun _ _ => gates_complete ..)

theorem gates_finishLayer (s : State) : Gates s (finishLayer s) := by
  unfold finishLayer
  dsimp only
  split
  · split
    · exact (gates_update s _ _ _ _ _ _ _ _ _ _).trans (gates_complete ..)
    · exact gates_update ..
  · exact Gates.refl s

theorem gates_decideLayer (cause : Nat) (s : State) : Gates s (decideLayer cause s) := by
  unfold decideLayer
  split
  · exact Gates.refl s
  · refine Gates.trans ?_ (gates_finishLayer _)
    refine Gates.trans ?_ (gates_foldl _ _ _ fun _ _ => gates_startJump ..)
    refine Gates.trans ?_ (gates_foldl _ _ _ fun _ _ => gates_gateLink ..)
    refine Gates.trans ?_ (gates_dropReassignment _)
    refine Gates.trans ?_ (gates_releaseHeadTiles _)
    refine Gates.trans ?_ (gates_update _ _ _ _ _ _ _ _ _ _ _)
    split
    · exact (gates_update s _ _ _ _ _ _ _ _ _ _).trans (gates_syncPrivilege _)
    · refine Gates.trans ?_ (gates_foldl _ _ _ fun _ _ => gates_returnVectors ..)
      refine Gates.trans ?_ (gates_rollbackTrigger ..)
      exact (gates_update s _ _ _ _ _ _ _ _ _ _).trans (gates_syncPrivilege _)

theorem gates_gateLayer (cause : Nat) (flags : BitVec 16) (s : State) : Gates s (gateLayer cause flags s) := by
  unfold gateLayer
  (repeat' split)
  · exact (gates_update s _ _ _ _ _ _ _ _ _ _).trans (gates_decideLayer ..)
  · exact gates_update ..
  · exact Gates.refl s

theorem gates_releaseUnread (i : Nat) (page : BitVec 32) (s : State) : Gates s (releaseUnread i page s) := by
  unfold releaseUnread
  dsimp only
  split
  · exact Gates.refl s
  · exact gates_foldl _ _ _ fun _ _ => gates_releaseTile ..

theorem gates_reportJobs (i : Nat) (s : State) : Gates s (reportJobs i s) := by
  have hjobs (s : State) (js : List Job) (f : State → Job → State) (hf : ∀ s j, Gates s (f s j)) :
      Gates s (js.foldl f (s.modStation i fun st => { st with jobs := st.jobs.filter fun j => !jobOver st j })) :=
    (gates_modStation ..).trans (gates_foldl _ _ _ hf)
  unfold reportJobs
  dsimp only
  split
  · refine hjobs s _ _ fun s j => Gates.trans ?_ (gates_complete ..)
    split
    · exact Gates.refl s
    · exact (gates_foldl _ _ _ fun _ _ => gates_releaseTile ..).trans (gates_update _ _ _ _ _ _ _ _ _ _ _)
  · refine (hjobs s _ _ fun s j => Gates.trans ?_ (gates_complete ..)).trans (gates_refreshSearch _)
    split
    · exact Gates.refl s
    · exact (gates_foldl _ _ _ fun _ _ => gates_releaseTile ..).trans (gates_update _ _ _ _ _ _ _ _ _ _ _)

theorem gates_emptyStation (i : Nat) (s : State) : Gates s (emptyStation i s) := by
  unfold emptyStation
  dsimp only
  split
  · exact Gates.refl s
  · refine Gates.trans ?_ (gates_reportJobs ..)
    refine Gates.trans ?_ (gates_modTiles ..)
    refine Gates.trans ?_ (gates_modStation ..)
    exact gates_foldl _ _ _ fun _ _ => gates_modLink _ _ _ (linkGated_keepEvents _)

theorem gates_modJobs (i : Nat) (f : Job → Job) (s : State) : Gates s (s.modJobs i f) := gates_update ..

theorem gates_paperOutGates (i : Nat) (s : State) : Gates s (paperOutGates i s) := by
  unfold paperOutGates
  dsimp only
  split
  · exact Gates.refl s
  · refine Gates.trans ?_ (gates_emptyStation ..)
    refine Gates.trans ?_ (gates_modJobs ..)
    refine Gates.trans ?_ (gates_foldl _ _ _ fun _ _ => gates_gateLink ..)
    exact gates_foldl _ _ _ fun _ _ => gates_update ..

theorem gates_abortJobsAt (i : Nat) (pred : Job → Bool) (cause input : Nat) (flags : BitVec 16) (s : State) :
    Gates s (abortJobsAt i pred cause input flags s) := by
  have hend (s : State) (hit sweeps) (off : Station → Sweep → Sweep) : Gates s (paperOutGates i (reportJobs i
      ((hit : List Job).foldl (fun s j => releaseUnread i j.pageId s)
        (((sweeps : List Sweep).foldl (fun s w => purgeUnit i (.sweep i w.n) s) s).modStation i fun st =>
          { st with sweeps := st.sweeps.map (off st) })))) := by
    refine Gates.trans ?_ (gates_paperOutGates ..)
    refine Gates.trans ?_ (gates_reportJobs ..)
    refine Gates.trans ?_ (gates_foldl _ _ _ fun _ _ => gates_releaseUnread ..)
    exact (gates_foldl _ _ _ fun _ _ => gates_purgeUnit ..).trans (gates_modStation ..)
  unfold abortJobsAt
  dsimp only
  split
  · exact Gates.refl s
  · (repeat' split)
    · refine Gates.trans ?_ (gates_syncPrivilege _)
      exact ((gates_modJobs ..).trans (gates_rollbackTrigger ..)).trans (hend _ _ _ _)
    · refine Gates.trans ?_ (gates_syncPrivilege _)
      exact (gates_modJobs ..).trans (hend _ _ _ _)
    · exact ((gates_modJobs ..).trans (gates_rollbackTrigger ..)).trans (hend _ _ _ _)
    · exact (gates_modJobs ..).trans (hend _ _ _ _)

theorem gates_gateStation (i abortCause input : Nat) (flags : BitVec 16) (s : State) :
    Gates s (gateStation i abortCause input flags s) := (gates_modJobs ..).trans (gates_abortJobsAt ..)

theorem gates_setCauseBy (cause : Nat) (links : List Nat) (abortCause input : Nat) (flags : BitVec 16) (s : State) :
    Gates s (setCauseBy cause links abortCause input flags s) := by
  unfold setCauseBy
  dsimp only
  have hgates (links : List Nat) (s : State) : Gates s (links.foldl (fun s l => gateLink cause l s) s) :=
    gates_foldl _ _ _ fun _ _ => gates_gateLink ..
  split
  · refine Gates.trans ?_ (gates_gateLayer ..)
    exact (hgates _ s).trans (gates_foldl _ _ _ fun _ _ => (gates_gateStation ..).trans (gates_emptyStation ..))
  · exact (hgates _ s).trans (gates_foldl _ _ _ fun _ _ => (gates_gateStation ..).trans (gates_emptyStation ..))

theorem gates_setCause (cause : Nat) (links : List Nat) (s : State) : Gates s (setCause cause links s) := gates_setCauseBy ..

/-! ### A gate cause is set -/

theorem gateLink_sets (cause l : Nat) (s : State) (hc : cause < 7) (hl : l < s.nLinks) (hl' : l < s.links.length) :
    ((gateLink cause l s).link l).causes.getLsbD cause = true := by
  unfold gateLink
  split
  · next h => exact h
  · refine ((gates_sendGate l _).2.2 l).2 cause ?_
    rw [State.modLink_same _ _ _ hl' hl]
    simp [hc]

theorem foldl_gateLink_sets (cause : Nat) (hc : cause < 7) (links : List Nat) (s : State) (l : Nat) (hmem : l ∈ links)
    (hl : l < s.nLinks) (hl' : l < s.links.length) :
    ((links.foldl (fun s l => gateLink cause l s) s).link l).causes.getLsbD cause = true := by
  induction links generalizing s with
  | nil => cases hmem
  | cons k links ih =>
    have hgate := gates_gateLink cause k s
    rcases List.mem_cons.1 hmem with rfl | hmem
    · exact ((gates_foldl _ links _ fun _ _ => gates_gateLink ..).2.2 l).2 cause (gateLink_sets cause l s hc hl hl')
    · exact ih (gateLink cause k s) hmem (by rw [hgate.nLinks]; exact hl) (by rw [hgate.2.1]; exact hl')

/-- A named link that exists has the cause afterwards. -/
theorem setCauseBy_sets (cause : Nat) (links : List Nat) (abortCause input : Nat) (flags : BitVec 16) (s : State) (l : Nat)
    (hc : cause < 7) (hmem : l ∈ links) (hl : l < s.nLinks) (hl' : l < s.links.length) :
    ((setCauseBy cause links abortCause input flags s).link l).causes.getLsbD cause = true := by
  by_cases hset : (s.link l).causes.getLsbD cause = true
  · exact ((gates_setCauseBy cause links abortCause input flags s).2.2 l).2 cause hset
  · have hfresh : l ∈ links.filter fun l => l < s.nLinks && !(s.link l).causes.getLsbD cause :=
      List.mem_filter.2 ⟨hmem, by simp [hl, hset]⟩
    have hgated := foldl_gateLink_sets cause hc _ s l hfresh hl hl'
    unfold setCauseBy
    dsimp only
    have hstations (links : List Nat) (s : State) :
        Gates s (links.foldl (fun s i => emptyStation i (gateStation i abortCause input flags s)) s) :=
      gates_foldl _ _ _ fun _ _ => (gates_gateStation ..).trans (gates_emptyStation ..)
    split
    · exact (((hstations _ _).trans (gates_gateLayer ..)).2.2 l).2 cause hgated
    · exact ((hstations _ _).2.2 l).2 cause hgated

theorem setCause_sets (cause : Nat) (links : List Nat) (s : State) (l : Nat) (hc : cause < 7) (hmem : l ∈ links)
    (hl : l < s.nLinks) (hl' : l < s.links.length) : ((setCause cause links s).link l).causes.getLsbD cause = true :=
  setCauseBy_sets cause links _ _ _ s l hc hmem hl hl'

/-! ### A gate cause clears -/

theorem clearCause_frame (cause : Nat) (links : List Nat) (s : State) : { clearCause cause links s with links := s.links } = s := by
  unfold clearCause
  induction links generalizing s with
  | nil => rfl
  | cons l links ih =>
    exact (congrArg (fun u : State => { u with links := s.links }) (ih _)).trans (modLink_frame ..)

/-- The cause clears on the named links that exist, and no link opens. -/
theorem clearCause_link (cause : Nat) (links : List Nat) (s : State) (l : Nat) (hl : l < s.links.length) :
    (clearCause cause links s).link l =
      if l ∈ links ∧ l < s.nLinks then { s.link l with causes := (s.link l).causes &&& ~~~(1#7 <<< cause) } else s.link l := by
  unfold clearCause
  induction links generalizing s with
  | nil => simp
  | cons k links ih =>
    have hlen : (s.modLink k fun x => { x with causes := x.causes &&& ~~~(1#7 <<< cause) }).links.length = s.links.length := by
      rw [State.modLink_links]
      split
      · exact length_modAt ..
      · rfl
    have hn : (s.modLink k fun x => { x with causes := x.causes &&& ~~~(1#7 <<< cause) }).nLinks = s.nLinks := by
      unfold State.modLink
      split <;> rfl
    rw [List.foldl_cons, ih _ (by rw [hlen]; exact hl), hn]
    by_cases hk : k = l
    · subst hk
      by_cases hk : k < s.nLinks
      · rw [State.modLink_same _ _ _ hl hk]
        simp only [List.mem_cons, true_or, hk, and_self, if_true]
        split
        · simp [BitVec.and_assoc]
        · rfl
      · have hid : (s.modLink k fun x => { x with causes := x.causes &&& ~~~(1#7 <<< cause) }) = s := by
          unfold State.modLink
          rw [if_neg hk]
        rw [hid]
        simp [hk]
    · rw [State.modLink_ne _ _ _ _ hk]
      simp [Ne.symm hk]

/-! ### nSTOP (R135, R523) -/

theorem nLinks_le (s : State) : s.nLinks ≤ 24 := by
  unfold State.nLinks
  split <;> omega

/-- Settles O17. -/
theorem nstopGatesEveryLink : Obligations.NstopGatesEveryLink := by
  unfold Obligations.NstopGatesEveryLink
  refine ⟨fun w s hlen hw => ?_, fun w s hlen hw => ?_, fun w s hw => ?_⟩
  · have htaken : nstopTaken w s = (true, s) := if_pos hw
    have hcalm : Calm { s with nStop := false } (setCause 0 (List.range s.nLinks) { s with nStop := false }) :=
      (gates_setCause ..).1
    refine ⟨present 0x0066 none 0 (setCause 0 (List.range s.nLinks) { s with nStop := false }), ?_,
      (congrArg State.nStop hcalm.1 :), fun l hl => ?_, ?_⟩
    · change execNstopFall w s = _
      simp only [execNstopFall, htaken, if_true]
    · exact setCause_sets 0 (List.range s.nLinks) { s with nStop := false } l (by omega) (List.mem_range.2 hl) hl
        (show l < s.links.length by have := nLinks_le s; omega)
    · simp [present, presentRaise]
  · have htaken : nstopTaken w s = (true, s) := if_pos hw
    have hframe := clearCause_frame 0 (List.range s.nLinks) { s with nStop := true }
    refine ⟨clearCause 0 (List.range s.nLinks) { s with nStop := true }, ?_, (congrArg State.nStop hframe :), fun l hl => ?_,
      (congrArg (fun u : State => { u with nStop := s.nStop }) hframe :)⟩
    · change execNstopRise w s = _
      simp only [execNstopRise, htaken, if_true]
    · refine (clearCause_link 0 _ { s with nStop := true } l (show l < s.links.length by have := nLinks_le s; omega)).trans ?_
      exact if_pos ⟨List.mem_range.2 hl, hl⟩
  · have htaken : nstopTaken w s = (false, s) := (if_neg (by omega)).trans (if_pos hw)
    refine ⟨?_, ?_⟩
    · change execNstopFall w s = _
      simp only [execNstopFall, htaken, Bool.false_eq_true, if_false]
    · change execNstopRise w s = _
      simp only [execNstopRise, htaken, Bool.false_eq_true, if_false]

end Sys2Proof.Machine
end

section
/-!
O16: control words of the link clock and the release of gated links (spec/04_lanes_and_links.md R123 to R138).
-/
namespace Sys2Proof.Machine

open Sys2Proof

/-! ### Control words -/

theorem sendBlock_frame (l : Nat) (control : Bool) (w : BitVec 64) (s : State) :
    { sendBlock l control w s with links := s.links } = s := modLink_frame ..

theorem sendCtl_frame (l ctype payload : Nat) (s : State) : { sendCtl l ctype payload s with links := s.links } = s := by
  unfold sendCtl
  dsimp only
  split
  · exact (congrArg (fun u : State => { u with links := s.links }) (modLink_frame ..)).trans (sendBlock_frame ..)
  · exact sendBlock_frame ..

theorem sendCtl_ne (l ctype payload : Nat) (s : State) (k : Nat) (hk : k ≠ l) : (sendCtl l ctype payload s).link k = s.link k := by
  unfold sendCtl sendBlock
  dsimp only
  split
  · rw [State.modLink_ne _ _ _ _ hk.symm, State.modLink_ne _ _ _ _ hk.symm]
  · exact State.modLink_ne _ _ _ _ hk.symm

/-- What a running transmitter sends joins its words; a word that needs one awaits its ACK (R127). -/
theorem sendCtl_link (l ctype payload : Nat) (s : State) (hl : l < s.nLinks) (hl' : l < s.links.length)
    (htx : (s.link l).txFrom.isSome = true) : (sendCtl l ctype payload s).link l = { s.link l with
      tx := (s.link l).tx ++ [(true, ctlWord ctype payload)]
      ackWait := if ctype = 3 || ctype = 4 || ctype = 5 then
        (s.link l).ackWait ++ [(BitVec.ofNat 8 ctype, BitVec.ofNat 40 payload)] else (s.link l).ackWait } := by
  have hblock : (sendBlock l true (ctlWord ctype payload) s).link l =
      { s.link l with tx := (s.link l).tx ++ [(true, ctlWord ctype payload)] } := by
    unfold sendBlock
    rw [State.modLink_same _ _ _ hl' hl]
    exact if_pos htx
  have hlen : (sendBlock l true (ctlWord ctype payload) s).links.length = s.links.length := (gates_modLink l _ s fun x => by
    split
    · exact linkGated_tx x _ x.ackWait
    · exact LinkGated.refl x).2.1
  have hn : (sendBlock l true (ctlWord ctype payload) s).nLinks = s.nLinks := by
    unfold State.nLinks
    rw [(congrArg State.part (sendBlock_frame l true (ctlWord ctype payload) s) :)]
  unfold sendCtl
  dsimp only
  split
  · rw [State.modLink_same _ _ _ (by rw [hlen]; exact hl') (by rw [hn]; exact hl), hblock]
    exact if_pos htx
  · exact hblock

/-! ### Release (R138) -/

/-- One link takes its release time and sends UNGATE. -/
def releaseLink (at_ : Nat) (s : State) (l : Nat) : State :=
  sendUngate l at_ (s.modLink l fun x => { x with releaseAt := some (BitVec.ofNat 64 at_), opened := false })

theorem releaseLink_frame (at_ : Nat) (s : State) (l : Nat) : { releaseLink at_ s l with links := s.links } = s :=
  (congrArg (fun u : State => { u with links := s.links }) (sendCtl_frame ..)).trans (modLink_frame ..)

theorem releaseLink_ne (at_ : Nat) (s : State) (l k : Nat) (hk : k ≠ l) : (releaseLink at_ s l).link k = s.link k := by
  unfold releaseLink sendUngate
  rw [sendCtl_ne _ _ _ _ _ hk, State.modLink_ne _ _ _ _ hk.symm]

theorem releaseLink_length (at_ : Nat) (s : State) (l : Nat) : (releaseLink at_ s l).links.length = s.links.length := by
  have hmod : (s.modLink l fun x => { x with releaseAt := some (BitVec.ofNat 64 at_), opened := false }).links.length =
      s.links.length := by
    rw [State.modLink_links]
    split
    · exact length_modAt ..
    · rfl
  exact (gates_sendCtl ..).2.1.trans hmod

theorem releaseLink_nLinks (at_ : Nat) (s : State) (l : Nat) : (releaseLink at_ s l).nLinks = s.nLinks := by
  unfold State.nLinks
  rw [(congrArg State.part (releaseLink_frame at_ s l) :)]

/-- A link after an update of some link is as it was or updated. -/
theorem link_modLink (P : Link → Prop) (l : Nat) (f : Link → Link) (s : State) (k : Nat) (h : P (s.link k))
    (hf : P (f (s.link k))) : P ((s.modLink l f).link k) := by
  have hat : (s.modLink l f).link k = s.link k ∨ (s.modLink l f).link k = f (s.link k) := by
    unfold State.modLink
    split
    · unfold State.link
      rw [at'_modAt]
      split
      · exact Or.inr rfl
      · exact Or.inl rfl
    · exact Or.inl rfl
  rcases hat with hat | hat
  · rw [hat]
    exact h
  · rw [hat]
    exact hf

/-- A control word changes what a link sends and awaits. -/
theorem sendCtl_sent (l ctype payload : Nat) (s : State) (k : Nat) :
    { (sendCtl l ctype payload s).link k with tx := (s.link k).tx, ackWait := (s.link k).ackWait } = s.link k := by
  have hblock : ∀ w, { (sendBlock l true w s).link k with tx := (s.link k).tx, ackWait := (s.link k).ackWait } = s.link k := by
    intro w
    refine link_modLink (fun x => { x with tx := (s.link k).tx, ackWait := (s.link k).ackWait } = s.link k) _ _ s k rfl ?_
    split <;> rfl
  unfold sendCtl
  dsimp only
  split
  · refine link_modLink (fun x => { x with tx := (s.link k).tx, ackWait := (s.link k).ackWait } = s.link k) _ _ _ k (hblock _) ?_
    split
    · exact hblock _
    · exact hblock _
  · exact hblock _

/-- The release of a link that exists: its time is named and it does not open yet. -/
theorem releaseLink_link (at_ : Nat) (s : State) (l : Nat) (hl : l < s.nLinks) (hl' : l < s.links.length) :
    ((releaseLink at_ s l).link l).releaseAt = some (BitVec.ofNat 64 at_) ∧ ((releaseLink at_ s l).link l).opened = false ∧
    ((releaseLink at_ s l).link l).causes = (s.link l).causes := by
  have hsent := sendCtl_sent l 4 (0xFF * 2 ^ 32 + pattern 32 ((64 * (at_ : Int) -
    ((s.modLink l fun x => { x with releaseAt := some (BitVec.ofNat 64 at_), opened := false }).link l).d) / 64))
    (s.modLink l fun x => { x with releaseAt := some (BitVec.ofNat 64 at_), opened := false }) l
  rw [State.modLink_same _ _ _ hl' hl] at hsent
  unfold releaseLink sendUngate
  rw [State.modLink_same _ _ _ hl' hl]
  exact ⟨(congrArg Link.releaseAt hsent :), (congrArg Link.opened hsent :), (congrArg Link.causes hsent :)⟩

theorem foldl_releaseLink_frame (at_ : Nat) (ls : List Nat) (s : State) :
    { ls.foldl (releaseLink at_) s with links := s.links } = s := by
  induction ls generalizing s with
  | nil => rfl
  | cons l ls ih => exact (congrArg (fun u : State => { u with links := s.links }) (ih _)).trans (releaseLink_frame ..)

theorem foldl_releaseLink_ne (at_ : Nat) (ls : List Nat) (s : State) (k : Nat) (hk : k ∉ ls) :
    (ls.foldl (releaseLink at_) s).link k = s.link k := by
  induction ls generalizing s with
  | nil => rfl
  | cons l ls ih =>
    obtain ⟨hkl, hk⟩ := not_or.1 (mt List.mem_cons.2 hk)
    exact (ih _ hk).trans (releaseLink_ne at_ s l k hkl)

/-- Every named link takes the release time. -/
theorem foldl_releaseLink_mem (at_ : Nat) (ls : List Nat) (s : State) (k : Nat) (hk : k ∈ ls) (hl : k < s.nLinks)
    (hl' : k < s.links.length) :
    ((ls.foldl (releaseLink at_) s).link k).releaseAt = some (BitVec.ofNat 64 at_) ∧
    ((ls.foldl (releaseLink at_) s).link k).opened = false ∧
    ((ls.foldl (releaseLink at_) s).link k).causes = (s.link k).causes := by
  induction ls generalizing s with
  | nil => cases hk
  | cons l ls ih =>
    have hn := releaseLink_nLinks at_ s l
    have hlen := releaseLink_length at_ s l
    have hcauses : ((releaseLink at_ s l).link k).causes = (s.link k).causes := by
      by_cases hkl : k = l
      · subst hkl
        exact (releaseLink_link at_ s k hl hl').2.2
      · rw [releaseLink_ne at_ s l k hkl]
    by_cases hmem : k ∈ ls
    · obtain ⟨hat, hopened, hkept⟩ := ih (releaseLink at_ s l) hmem (by rw [hn]; exact hl) (by rw [hlen]; exact hl')
      exact ⟨hat, hopened, hkept.trans hcauses⟩
    · obtain rfl : k = l := (List.mem_cons.1 hk).resolve_right hmem
      rw [List.foldl_cons, foldl_releaseLink_ne at_ ls _ k hmem]
      exact releaseLink_link at_ s k hl hl'

/-- The served lane.gate.release whose links exist and whose time is in range. -/
theorem execLaneGateRelease_served (rq : Req) (s : State) (at_ : Nat) (hs : served 0x0304 rq s = true)
    (hat : (if rq.u64 8 = 0 then s.time.toNat + ((maskLinks s (rq.u32 0)).map fun l => (s.link l).lead * 160).foldl max 0
      else rq.u64 8) = at_)
    (hnamed : (maskLinks s (rq.u32 0)).any (fun l => decide (s.nLinks ≤ l)) = false)
    (hlo : decide (at_ < s.time.toNat + ((maskLinks s (rq.u32 0)).map fun l => (s.link l).lead * 160).foldl max 0) = false)
    (hhi : decide (s.time.toNat + 2 ^ 32 < at_) = false) : execLaneGateRelease rq s = .next (respond rq 0x0304 Status.ok
      (leBytes 4 (maskOf ((maskLinks s (rq.u32 0)).filter fun l => (s.link l).releasePending)) ++
        leBytes 4 (maskOf ((maskLinks s (rq.u32 0)).filter fun l => (s.link l).causes ≠ 0)) ++ leBytes 8 at_)
      (((maskLinks s (rq.u32 0)).filter fun l => (s.link l).releasePending).foldl (releaseLink at_) s)) := by
  unfold execLaneGateRelease
  simp only [hat]
  refine command_pass 0x0304 rq _ _ s hs ?_
  simp only [List.forall_mem_cons, hnamed, hlo, hhi, Bool.or_self, List.not_mem_nil, false_imp_iff, implies_true, and_self]

theorem laneGateRelease_released (rq : Req) (s : State) (hs : served 0x0304 rq s = true) (hlen : s.links.length = 24) :
    let named := maskLinks s (rq.u32 0)
    let soonest := s.time.toNat + (named.map fun l => (s.link l).lead * 160).foldl max 0
    let at_ := if rq.u64 8 = 0 then soonest else rq.u64 8
    (∀ l ∈ named, l < s.nLinks) → soonest ≤ at_ → at_ ≤ s.time.toNat + 2 ^ 32 →
    ∃ t, exec (.laneGateRelease rq) s = .next t ∧
      (∀ l ∈ named, (s.link l).causes = 0 → (s.link l).releaseAt = none →
        (t.link l).releaseAt = some (BitVec.ofNat 64 at_) ∧ (t.link l).opened = false ∧ (t.link l).causes = 0) ∧
      (∀ l, l ∉ named ∨ (s.link l).causes ≠ 0 ∨ (s.link l).releaseAt ≠ none → t.link l = s.link l) ∧
      { t with links := s.links, mci := s.mci } = s := by
  intro named soonest at_ hnamed hlo hhi
  have hp := execLaneGateRelease_served rq s at_ hs rfl (List.any_eq_false.2 fun l hl => by simpa using hnamed l hl)
    (decide_eq_false (not_lt.2 hlo)) (decide_eq_false (not_lt.2 hhi))
  generalize leBytes 4 _ ++ _ ++ _ = p at hp
  generalize hls : (named.filter fun l => (s.link l).releasePending) = ls at hp
  change execLaneGateRelease rq s = .next (respond rq 0x0304 Status.ok p (ls.foldl (releaseLink at_) s)) at hp
  have hlink (l : Nat) : (respond rq 0x0304 Status.ok p (ls.foldl (releaseLink at_) s)).link l =
      (ls.foldl (releaseLink at_) s).link l := by
    unfold State.link
    rw [respond_links]
  have hmem (l : Nat) : l ∈ ls ↔ l ∈ named ∧ (s.link l).causes = 0 ∧ (s.link l).releaseAt = none := by
    rw [← hls, List.mem_filter]
    simp [Link.releasePending]
  refine ⟨_, hp, fun l hl hcauses hrelease => ?_, fun l hl => ?_, ?_⟩
  · rw [hlink]
    obtain ⟨hat, hopened, hkept⟩ := foldl_releaseLink_mem at_ ls s l ((hmem l).2 ⟨hl, hcauses, hrelease⟩) (hnamed l hl)
      (by have := hnamed l hl; have := nLinks_le s; omega)
    exact ⟨hat, hopened, hkept.trans hcauses⟩
  · rw [hlink]
    refine foldl_releaseLink_ne at_ ls s l fun hin => ?_
    obtain ⟨hin, hcauses, hrelease⟩ := (hmem l).1 hin
    rcases hl with hl | hl | hl
    · exact hl hin
    · exact hl hcauses
    · exact hl hrelease
  · refine (congrArg (fun u : State => { u with links := s.links, mci := s.mci }) (respond_frame rq 0x0304 Status.ok p
      (ls.foldl (releaseLink at_) s))).trans ?_
    exact (congrArg (fun u : State => { u with mci := s.mci }) (foldl_releaseLink_frame at_ ls s) :)

/-- Settles O16: the words by what a running transmitter sends, the release by what one named link takes. -/
theorem controlWordsAndReleases : Obligations.ControlWordsAndReleases := by
  unfold Obligations.ControlWordsAndReleases
  refine ⟨?_, ?_, ?_, ?_, ?_, ?_, ?_, fun rq s hs hlen => laneGateRelease_released rq s hs hlen, ?_, ?_⟩
  · intro l s hlen hl hen htx
    have hl' : l < s.links.length := by have := nLinks_le s; omega
    refine ⟨sendCtl l 2 (s.time.toNat % 2 ^ 40) s, ?_, ?_, fun k hk => sendCtl_ne _ _ _ _ _ hk, sendCtl_frame ..⟩
    · change execTimesyncSend l s = _
      simp [execTimesyncSend, Link.talks, hen, htx]
    · rw [sendCtl_link _ _ _ _ hl hl' htx]
  · intro l s hlen hl hen htx
    have hl' : l < s.links.length := by have := nLinks_le s; omega
    refine ⟨sendCtl l 7 0 s, ?_, ?_, fun k hk => sendCtl_ne _ _ _ _ _ hk, sendCtl_frame ..⟩
    · change execKeepaliveSend l s = _
      simp [execKeepaliveSend, Link.talks, hen, htx]
    · rw [sendCtl_link _ _ _ _ hl hl' htx]
  · intro l s hlen hl hen htx hgated
    have hl' : l < s.links.length := by have := nLinks_le s; omega
    refine ⟨sendCtl l 3 (0xFF * 2 ^ 32 + (s.link l).lowestCause * 2 ^ 24) s, ?_, ?_, ?_, fun k hk => sendCtl_ne _ _ _ _ _ hk,
      sendCtl_frame ..⟩
    · change execGateWordRepeat l s = _
      simp [execGateWordRepeat, sendGate, Link.talks, hen, htx, hgated]
    · rw [sendCtl_link _ _ _ _ hl hl' htx]
    · rw [sendCtl_link _ _ _ _ hl hl' htx]
  · intro l s hen
    have hquiet : (s.link l).talks = false := by simp [Link.talks, hen]
    refine ⟨?_, ?_, ?_⟩
    · change execTimesyncSend l s = _
      simp [execTimesyncSend, hquiet]
    · change execKeepaliveSend l s = _
      simp [execKeepaliveSend, hquiet]
    · change execGateWordRepeat l s = _
      simp [execGateWordRepeat, hquiet]
  · intro l s hgated
    change execGateWordRepeat l s = _
    simp [execGateWordRepeat, hgated]
  · intro rq s hs hlen hmask hat hlead
    have hnamed : maskLinks s (rq.u32 0) = [1] := by
      rw [hmask]
      rfl
    have hn : 1 < s.nLinks := by
      unfold State.nLinks
      split <;> omega
    have hrelease := laneGateRelease_released rq s hs hlen
    simp only [hnamed, hat, if_true, List.mem_singleton, forall_eq, List.map_cons, List.map_nil, List.foldl_cons,
      List.foldl_nil, Nat.zero_max, le_refl] at hrelease
    obtain ⟨t, ht, hone, hother, hframe⟩ := hrelease hn trivial (by omega)
    refine ⟨t, ht, fun hcauses hpending => ?_, fun hcauses => hother 1 (Or.inr (Or.inl hcauses)),
      fun l hl => hother l (Or.inl hl), hframe⟩
    obtain ⟨hat, hopened, -⟩ := hone hcauses hpending
    exact ⟨hat, hopened⟩
  · intro rq s hs hbad
    change execLaneGateRelease rq s = _
    unfold execLaneGateRelease
    refine command_turned_away 0x0304 rq _ _ s true _ hs ?_
    obtain ⟨l, hl, hbad⟩ := hbad
    have hany : (maskLinks s (rq.u32 0)).any (fun l => decide (s.nLinks ≤ l)) = true :=
      List.any_eq_true.2 ⟨l, hl, by simpa using hbad⟩
    simp only [hany, List.find?_cons_of_pos]
  · intro l r s hr hcauses
    change execGateReleaseAt l s = _
    simp [execGateReleaseAt, hr, hcauses]
  · intro l s hcauses
    change execGateReleaseAt l s = _
    unfold execGateReleaseAt
    dsimp only
    split
    · rw [if_neg hcauses]
    · rfl

end Sys2Proof.Machine
end

section
/-!
O47: clock references, loops and synthesisers (spec/17_clocks.md R398 to R408).
-/
namespace Sys2Proof.Machine

open Sys2Proof

/-! ### Gates and raises -/

/-- Every link of the part has a cause that is set on all of them. -/
theorem setCause_all (cause : Nat) (s : State) (hlen : s.links.length = 24) (hc : cause < 7) (l : Nat) (hl : l < s.nLinks) :
    ((setCause cause (List.range s.nLinks) s).link l).causes.getLsbD cause = true :=
  setCause_sets cause _ s l hc (List.mem_range.2 hl) hl (by have := nLinks_le s; omega)

theorem present_last (source : Nat) (unit : Option Nat) (detail : Nat) (s : State) :
    ((present source unit detail s).flt.presented.getLast?.map fun r => (r.source, r.unit)) = some (source, unit) := by
  simp [present, presentRaise]

theorem modAt_modAt {α : Type} (l : List α) (i : Nat) (f g : α → α) : modAt (modAt l i f) i g = modAt l i fun x => g (f x) := by
  induction l generalizing i with
  | nil => rfl
  | cons x l ih =>
    cases i with
    | zero => rfl
    | succ i => exact congrArg (x :: ·) (ih i)

theorem Gates.clk {s t : State} (h : Gates s t) : t.clk = s.clk := (congrArg State.clk h.1.1 :)
theorem Gates.time {s t : State} (h : Gates s t) : t.time = s.time := (congrArg State.time h.1.1 :)
theorem Gates.era {s t : State} (h : Gates s t) : t.mci.era = s.mci.era := (congrArg Mci.era h.1.2.2.1 :)

/-! ### Loops and synthesisers -/

/-- The reference, or a system PLL, gates every link. -/
theorem sysGateSet_effect (s : State) (hlen : s.links.length = 24) :
    (sysGateSet s).clk = { s.clk with sysGate := true } ∧
    ∀ l, l < s.nLinks → ((sysGateSet s).link l).causes.getLsbD 5 = true :=
  ⟨(gates_setCause ..).clk, fun l hl => setCause_all 5 { s with clk := { s.clk with sysGate := true } } hlen (by omega) l hl⟩

/-- A synthesiser gates the links of its station. -/
theorem synthGateSet_effect (i : Nat) (s : State) (hlen : s.links.length = 24) :
    (synthGateSet i s).clk = { s.clk with synthGate := s.clk.synthGate ||| (1#4 <<< i) } ∧
    ∀ l ∈ (s.station i).links, l < s.nLinks → ((synthGateSet i s).link l).causes.getLsbD 5 = true :=
  ⟨(gates_setCause ..).clk, fun l hmem hl => setCause_sets 5 (s.station i).links
    { s with clk := { s.clk with synthGate := s.clk.synthGate ||| (1#4 <<< i) } } l (by omega) hmem hl
    (show l < s.links.length by have := nLinks_le s; omega)⟩

theorem modSynth_frame (s : State) (i : Nat) (f : Synth → Synth) : { s.modSynth i f with clk := s.clk } = s := rfl

theorem relock_unlocks (i : Nat) (s : State) : { relock i s with clk := s.clk } = s ∧
    { (relock i s).clk with synths := s.clk.synths } = s.clk := ⟨rfl, rfl⟩

/-- Completions of the configurations that wait change only the command interface. -/
theorem foldl_complete_frame {α : Type} (ctx : α → Ctx) (status : Nat) (payload : List Byte) (cs : List α) (s : State) :
    { cs.foldl (fun s c => complete (ctx c) status payload s) s with mci := s.mci } = s := by
  induction cs generalizing s with
  | nil => rfl
  | cons c cs ih => exact (congrArg (fun u : State => { u with mci := s.mci }) (ih _)).trans (complete_frame ..)

/-- The reading of LOCKSENSE and the loops decide whether a cause 5 that clears opens a link. -/
theorem clockUngate_all (s : State) (hlen : s.links.length = 24) (hsense : s.clk.senseGate = false)
    (hsys : s.clk.sysGate = false) (hsynth : s.clk.synthGate = 0) (l : Nat) (hl : l < s.nLinks) :
    (clockUngate s).link l = { s.link l with causes := (s.link l).causes &&& ~~~0x20#7 } := by
  have hn := nLinks_le s
  have hfree : clockFree s l = true := by
    simp [clockFree, hsense, hsys, hsynth]
  refine (clearCause_link 5 _ s l (by omega)).trans (if_pos ⟨?_, hl⟩)
  exact List.mem_filter.2 ⟨List.mem_range.2 (by omega), hfree⟩

/-! ### The status reply -/

/-- Four counts and four more, after eight bytes. -/
theorem synthCounts_layout (head : List Byte) (hhead : head.length = 8) (xs : List Synth) (hlen : xs.length = 4) (d : Synth) :
    (head ++ (xs.flatMap fun x => x.unlocks.bytes) ++ (xs.flatMap fun x => x.phaseErrors.bytes)).length = 40 ∧
    (∀ o n, o + n ≤ 8 → leAt (head ++ (xs.flatMap fun x => x.unlocks.bytes) ++ (xs.flatMap fun x => x.phaseErrors.bytes)) o n =
      leAt head o n) ∧
    ∀ i, i < 4 →
      leAt (head ++ (xs.flatMap fun x => x.unlocks.bytes) ++ (xs.flatMap fun x => x.phaseErrors.bytes)) (8 + 4 * i) 4 =
        (at' xs i d).unlocks.n ∧
      leAt (head ++ (xs.flatMap fun x => x.unlocks.bytes) ++ (xs.flatMap fun x => x.phaseErrors.bytes)) (24 + 4 * i) 4 =
        (at' xs i d).phaseErrors.n := by
  obtain ⟨a, b, c, e, rfl⟩ : ∃ a b c e, xs = [a, b, c, e] := by
    match xs, hlen with
    | [a, b, c, e], _ => exact ⟨a, b, c, e, rfl⟩
  have hbytes (c : Count) : c.bytes.length = 4 := by simp [Count.bytes]
  refine ⟨by simp [hhead, hbytes], fun o n hon => ?_, fun i hi => ?_⟩
  · rw [List.append_assoc, leAt_left _ _ _ _ (by omega)]
  · interval_cases i <;> simp [at', leAt_left, leAt_right, leAt_count, hhead, hbytes, List.append_assoc]

/-! ### Loops that unlock -/

theorem synthUnlock (i : Nat) (s : State) (hlen : s.links.length = 24) (hsynths : s.clk.synths.length = 4) (hi : i < 4)
    (hen : (s.synth i).enabled = true) :
    ∃ t, exec (.pllFastUnlock (3 + i)) s = .next t ∧ t.clk.locked.getLsbD (3 + i) = false ∧
      t.clk.included.getLsbD (3 + i) = false ∧ (t.synth i).unlocks = (s.synth i).unlocks.inc ∧
      (∀ l ∈ (s.station i).links, l < s.nLinks → (t.link l).causes.getLsbD 5 = true) ∧
      (t.flt.presented.getLast?.map fun r => (r.source, r.unit)) = some (0x0202, some i) := by
  generalize hu : relock i ((loopOut (3 + i) s).modSynth i fun x => { x with unlocks := x.unlocks.inc }) = u
  have hframe : { u with clk := s.clk } = s := by rw [← hu]; rfl
  have hlocked : u.clk.locked.getLsbD (3 + i) = false := by rw [← hu]; simp [relock, State.modSynth, loopOut]
  have hincluded : u.clk.included.getLsbD (3 + i) = false := by rw [← hu]; simp [relock, State.modSynth, loopOut]
  have hunlocks : (u.synth i).unlocks = (s.synth i).unlocks.inc := by
    rw [← hu]
    unfold State.synth relock State.modSynth loopOut
    dsimp only
    rw [modAt_modAt, at'_modAt_same _ _ _ _ (by omega)]
    dsimp only
    split <;> rfl
  have hlinks : u.links = s.links := (congrArg State.links hframe :)
  obtain ⟨hclk, hgated⟩ := synthGateSet_effect i u (by rw [hlinks]; exact hlen)
  have hstation : u.station i = s.station i := (congrArg (fun v : State => v.station i) hframe :)
  have hn : u.nLinks = s.nLinks := (congrArg State.nLinks hframe :)
  refine ⟨present 0x0202 (some i) 0 (synthGateSet i u), ?_, ?_, ?_, ?_, ?_, present_last ..⟩
  · change execPllFastUnlock (3 + i) s = _
    have h7 : ¬ 7 ≤ 3 + i := by omega
    have h2 : ¬ 3 + i < 2 := by omega
    have hne : ¬ 3 + i = 2 := by omega
    have hen' : ((loopOut (3 + i) s).synth i).enabled = true := hen
    unfold execPllFastUnlock
    simp only [h7, h2, hne, if_false, Nat.add_sub_cancel_left, hen', if_true, hu]
  · exact (congrArg (fun c : Clk => c.locked.getLsbD (3 + i)) hclk).trans hlocked
  · exact (congrArg (fun c : Clk => c.included.getLsbD (3 + i)) hclk).trans hincluded
  · exact (congrArg (fun c : Clk => (at' c.synths i {}).unlocks) hclk).trans hunlocks
  · rw [hstation, hn] at hgated
    exact hgated

/-- A system PLL that unlocks. -/
theorem systemUnlock (loop : Nat) (s : State) (hlen : s.links.length = 24) (hloop : loop < 2) :
    ∃ t, exec (.pllFastUnlock loop) s = .next t ∧ t.clk.locked.getLsbD loop = false ∧
      (∀ l, l < s.nLinks → (t.link l).causes.getLsbD 5 = true) ∧
      (t.flt.presented.getLast?.map fun r => (r.source, r.unit)) = some (0x0201, some loop) := by
  obtain ⟨hclk, hgated⟩ := sysGateSet_effect (loopOut loop s) hlen
  refine ⟨present 0x0201 (some loop) 0 (sysGateSet (loopOut loop s)), ?_, ?_, hgated, present_last ..⟩
  · change execPllFastUnlock loop s = _
    have h7 : ¬ 7 ≤ loop := by omega
    unfold execPllFastUnlock
    simp only [h7, hloop, if_false, if_true]
  · refine (congrArg (fun c : Clk => c.locked.getLsbD loop) hclk).trans ?_
    simp [loopOut]

/-! ### A loop is declared locked -/

/-- The cause of a synthesiser whose loop is declared locked clears, and its configurations complete (R406, R408). -/
theorem synthDeclared (i : Nat) (s : State) (hsynths : s.clk.synths.length = 4) (hi : i < 4) :
    let v := clockUngate { s with clk := { s.clk with synthGate := s.clk.synthGate &&& ~~~(1#4 <<< i) } }
    let t := (v.synth i).ctx.foldl (fun s c => complete c.2 Status.ok [] s) (v.modSynth i fun x => { x with ctx := [] })
    t.time = s.time ∧ t.clk.locked = s.clk.locked ∧ t.clk.synthGate.getLsbD i = false ∧ (t.synth i).ctx = [] := by
  intro v t
  have hv : v.clk = { s.clk with synthGate := s.clk.synthGate &&& ~~~(1#4 <<< i) } :=
    (congrArg State.clk (clearCause_frame ..) :)
  have hvtime : v.time = s.time := (congrArg State.time (clearCause_frame ..) :)
  have ht := foldl_complete_frame (fun c : BitVec 64 × Ctx => c.2) Status.ok [] (v.synth i).ctx
    (v.modSynth i fun x => { x with ctx := [] })
  have htclk : t.clk = { v.clk with synths := modAt v.clk.synths i fun x => { x with ctx := [] } } := (congrArg State.clk ht :)
  refine ⟨((congrArg State.time ht :).trans hvtime), by rw [htclk, hv], by rw [htclk, hv]; simp, ?_⟩
  unfold State.synth
  rw [htclk, hv]
  dsimp only
  rw [at'_modAt_same _ _ _ _ (by omega)]

theorem lockDeclared (loop : Nat) (s : State) (hsynths : s.clk.synths.length = 4) (hloop : loop < 7)
    (hmay : mayDeclare s loop = true) :
    let since := max (at' s.clk.includedAt loop 0).toNat (s.clk.aboveAt.getD 0).toNat
    ∃ t, exec (.lockDeclare loop) s = .next t ∧ t.time = (s.advanceTo (since + 2 * ticksPerMs)).time ∧
      t.clk.locked = s.clk.locked ||| (1#7 <<< loop) ∧
      (loop < 3 → t.links = s.links) ∧
      (3 ≤ loop → t.clk.synthGate.getLsbD (loop - 3) = false ∧ (t.synth (loop - 3)).ctx = []) := by
  intro since
  have hframe := advanceTo_frame s (since + 2 * ticksPerMs)
  have h7 : ¬ 7 ≤ loop := by omega
  change ∃ t, execLockDeclare loop s = _ ∧ _
  unfold execLockDeclare
  simp only [h7, decide_false, hmay, Bool.not_true, Bool.or_self, Bool.false_eq_true, if_false]
  generalize hv : s.advanceTo (since + 2 * ticksPerMs) = v at hframe ⊢
  change ∃ t, (if loop < 3 then _ else _) = _ ∧ _
  have hclk : v.clk = s.clk := (congrArg State.clk hframe :)
  have hlinks : v.links = s.links := (congrArg State.links hframe :)
  by_cases hlow : loop < 3
  · rw [if_pos hlow]
    exact ⟨_, rfl, rfl, congrArg (fun c : Clk => c.locked ||| (1#7 <<< loop)) hclk, fun _ => hlinks, fun h => absurd h (by omega)⟩
  · rw [if_neg hlow]
    have hdeclared := synthDeclared (loop - 3) { v with clk := { v.clk with locked := v.clk.locked ||| (1#7 <<< loop) } }
      (by rw [← hsynths, ← hclk]) (by omega)
    obtain ⟨htime, hlocked, hgate, hctx⟩ := hdeclared
    exact ⟨_, rfl, htime, hlocked.trans (by rw [hclk]), fun h => absurd h hlow, fun _ => ⟨hgate, hctx⟩⟩

/-! ### Configuration and profiles -/

theorem respond_clk (rq : Req) (code status : Nat) (p : List Byte) (s : State) : (respond rq code status p s).clk = s.clk :=
  (congrArg State.clk (respond_frame rq code status p s) :)

theorem respond_synth (rq : Req) (code status : Nat) (p : List Byte) (s : State) (i : Nat) :
    (respond rq code status p s).synth i = s.synth i := congrArg (fun c : Clk => at' c.synths i {}) (respond_clk ..)

theorem respond_link (rq : Req) (code status : Nat) (p : List Byte) (s : State) (l : Nat) :
    (respond rq code status p s).link l = s.link l :=
  congrArg (fun ls : List Link => at' ls l {}) (respond_links rq code status p s)

theorem synth_modSynth (s : State) (i : Nat) (f : Synth → Synth) (h : i < s.clk.synths.length) :
    (s.modSynth i f).synth i = f (s.synth i) := at'_modAt_same _ _ _ _ h

theorem synthConfigured (rq : Req) (s : State) (i freq : Nat) (hs : served 0x1001 rq s = true) (hlen : s.links.length = 24)
    (hsynths : s.clk.synths.length = 4) (hi' : rq.u8 0 = i)
    (hfreq' : (if rq.u32 4 = 0 then freqOfClock (s.station i).clockKhz else rq.u32 4) = freq)
    (hi : i < 4) (hmode : rq.u8 1 ≤ 1) (htol : 10 ≤ rq.u16 8) (hconf : rq.u32 4 = 0 → (s.station i).configured = true)
    (hfreq : freqOk freq = true) (hpage : pageActive s i = false) :
    ∃ t, exec (.clockSynthConfig rq) s = .next t ∧ (t.synth i).enabled = (rq.u8 1 = 1) ∧ (t.synth i).freq = freq ∧
      (t.synth i).phaseTol = rq.u16 8 ∧ t.clk.locked.getLsbD (3 + i) = false ∧
      (rq.u8 1 = 1 → (t.synth i).ctx = (s.synth i).ctx ++ [(s.time, rq.ctx s 0x1001)]) ∧
      (∀ l ∈ (s.station i).links, l < s.nLinks → (t.link l).causes.getLsbD 5 = true) := by
  obtain ⟨hclk, hgated⟩ := synthGateSet_effect i (relock i (loopOut (3 + i) s)) hlen
  have hutime : (synthGateSet i (relock i (loopOut (3 + i) s))).time = s.time := (gates_setCause ..).time
  have huera : (synthGateSet i (relock i (loopOut (3 + i) s))).mci.era = s.mci.era := (gates_setCause ..).era
  have hconf' : (decide (rq.u32 4 = 0) && !(s.station i).configured) = false := by
    by_cases h : rq.u32 4 = 0
    · simp [hconf h]
    · simp [h]
  change ∃ t, execClockSynthConfig rq s = _ ∧ _
  unfold execClockSynthConfig
  simp only [hi', hfreq']
  refine ⟨_, command_pass 0x1001 rq _ _ s hs (by
    simp [not_le.2 hi, not_lt.2 hmode, not_lt.2 htol, hconf', hfreq, hpage]), ?_⟩
  generalize synthGateSet i (relock i (loopOut (3 + i) s)) = u at hclk hgated hutime huera ⊢
  have hctx : (u.synth i).ctx = (s.synth i).ctx := by
    unfold State.synth
    rw [hclk]
    unfold relock State.modSynth loopOut
    dsimp only
    rw [at'_modAt_same _ _ _ _ (by omega)]
    split <;> rfl
  have hlocked : u.clk.locked.getLsbD (3 + i) = false := by
    rw [hclk]
    simp [relock, State.modSynth, loopOut]
  have hulen : i < u.clk.synths.length := by
    rw [hclk]
    simpa [relock, State.modSynth, loopOut, hsynths] using hi
  have hrctx : rq.ctx u 0x1001 = rq.ctx s 0x1001 := by
    unfold Req.ctx
    rw [huera]
  by_cases hen : rq.u8 1 = 1
  · rw [if_pos (by simpa using hen)]
    unfold accept
    rw [respond_synth, respond_clk, synth_modSynth _ _ _ (by simpa [State.modSynth] using hulen), synth_modSynth u _ _ hulen]
    refine ⟨by simp [hen], rfl, rfl, hlocked, fun _ => ?_, fun l hmem hl => ?_⟩
    · change (u.synth i).ctx ++ [(u.time, rq.ctx u 0x1001)] = _
      rw [hctx, hutime, hrctx]
    · rw [respond_link]
      exact hgated l hmem hl
  · rw [if_neg (by simpa using hen), respond_synth, respond_clk, synth_modSynth u _ _ hulen]
    refine ⟨by simp [hen], rfl, rfl, hlocked, fun h => absurd h hen, fun l hmem hl => ?_⟩
    rw [respond_link]
    exact hgated l hmem hl

/-- The profile that waits longest is loaded, and takes its place or fails. -/
theorem profileLoaded (i : Nat) (c : Ctx) (address : Nat) (crc : BitVec 32) (rest : List (Ctx × Nat × BitVec 32))
    (host b : List Byte) (s : State) (hi : i < s.clk.synths.length) (hloads : (s.synth i).loads = (c, address, crc) :: rest)
    (hup : (coreRead hostCore address 2048 s).coreUp hostCore = true)
    (hb : (coreRead hostCore address 2048 s).tableOr address 2048 host = some b) :
    exec (.clockSynthProfileLoaded i host) s = .next (
      if crc32c b = crc && rampOk (s.synth i).freq (rampOf b) then
        complete c Status.ok [] ((coreRead hostCore address 2048 s).modSynth i fun x =>
          { x with loads := rest, rampNext := some (rampOf b) })
      else complete c Status.failed [] ((coreRead hostCore address 2048 s).modSynth i fun x => { x with loads := rest })) := by
  have hclk : (coreRead hostCore address 2048 s).clk = s.clk := (congrArg State.clk (dramWorks_coreRead ..).rest :)
  change execClockSynthProfileLoaded i host s = _
  unfold execClockSynthProfileLoaded
  rw [hloads]
  dsimp only
  generalize coreRead hostCore address 2048 s = u at hup hb hclk
  have htable : (u.modSynth i fun x => { x with loads := rest }).tableOr address 2048 host = some b := hb
  have hfreq : ((u.modSynth i fun x => { x with loads := rest }).synth i).freq = (s.synth i).freq := by
    rw [synth_modSynth _ _ _ (by rw [hclk]; exact hi)]
    unfold State.synth
    rw [hclk]
  have hboth : (u.modSynth i fun x => { x with loads := rest }).modSynth i (fun x => { x with rampNext := some (rampOf b) }) =
      u.modSynth i fun x => { x with loads := rest, rampNext := some (rampOf b) } := by
    unfold State.modSynth
    dsimp only
    rw [modAt_modAt]
  rw [if_neg (by simp [hup])]
  split
  · next b' hb' =>
    obtain rfl : b = b' := Option.some.inj (htable.symm.trans hb')
    rw [hfreq, hboth]
    split <;> rfl
  · next hnone => exact absurd (htable.symm.trans hnone) (by simp)

/-- Settles O47: what gates is gated by `setCause_sets`, what opens by `clearCause_link`; the rest is one step of a loop. -/
theorem clocksAreWatched : Obligations.ClocksAreWatched := by
  unfold Obligations.ClocksAreWatched
  refine ⟨?_, ?_, ?_, systemUnlock, ?_, synthUnlock, ?_, ?_, lockDeclared, ?_, ?_, ?_, ?_, ?_, ?_, ?_, ?_, ?_, ?_, ?_, ?_⟩
  · intro s hlen
    obtain ⟨hclk, hgated⟩ := sysGateSet_effect s hlen
    exact ⟨_, rfl, (congrArg Clk.sysGate hclk :), hgated, present_last ..⟩
  · intro hz s
    refine ⟨fun hlo hhi => ?_, fun hbad => ⟨_, rfl, ?_⟩⟩
    · change execReferenceFrequencyCheck hz s = _
      simp [execReferenceFrequencyCheck, not_lt.2 hlo, not_lt.2 hhi]
    · change execReferenceFrequencyCheck hz s = _
      simp [execReferenceFrequencyCheck, hbad.symm]
  · intro loop s hloop
    refine ⟨?_, ?_, ?_⟩
    · change execPllFastUnlock loop s = _
      simp [execPllFastUnlock, hloop]
    · change execLockMonitorInclusion loop s = _
      simp [execLockMonitorInclusion, hloop]
    · change execLockDeclare loop s = _
      simp [execLockDeclare, hloop]
  · intro s
    refine ⟨_, rfl, rfl, ?_, ?_, rfl, present_last ..⟩
    · change (s.clk.locked &&& ~~~(1#7 <<< 2)).getLsbD 2 = false
      simp
    · change (s.clk.included &&& ~~~(1#7 <<< 2)).getLsbD 2 = false
      simp
  · intro loop s hloop hen
    change execLockMonitorInclusion loop s = _
    unfold execLockMonitorInclusion
    rw [if_neg]
    rcases hen with hen | hen
    · simp [hloop, hen]
    · simp [hloop, hen]
  · intro loop s hmay
    change execLockDeclare loop s = _
    simp [execLockDeclare, hmay]
  · intro mv s hlen hmv hlow
    have hgates := gates_setCause 5 (List.range s.nLinks) { readSense mv s with clk :=
      { (readSense mv s).clk with senseGate := true, senseLow := true } }
    have hgated := setCause_all 5 { readSense mv s with clk :=
      { (readSense mv s).clk with senseGate := true, senseLow := true } } hlen (by omega)
    refine ⟨present 0x0203 none 0 (setCause 5 (List.range s.nLinks) { readSense mv s with clk :=
      { (readSense mv s).clk with senseGate := true, senseLow := true } }), ?_, (congrArg Clk.senseGate hgates.clk :), (congrArg Clk.senseLow hgates.clk :),
      (congrArg Clk.senseMv hgates.clk :), hgated, present_last ..⟩
    change execLocksenseLow mv s = _
    have hlow' : (readSense mv s).clk.senseLow = false := by simp [readSense, hlow]
    unfold execLocksenseLow
    simp only [hmv, hlow', decide_true, Bool.not_false, Bool.and_self, if_true]
    rfl
  · intro mv s hhigh
    change execLocksenseLow mv s = .next (readSense mv s)
    unfold execLocksenseLow
    dsimp only
    rw [if_neg]
    rcases hhigh with hhigh | hhigh
    · simp [not_lt.2 hhigh]
    · simp +contextual [readSense, hhigh]
  · intro mv s hlen hmv hloops hsys hsynth
    generalize hu : ({ readSense mv s with clk := { (readSense mv s).clk with senseGate := false } } : State) = u
    have hframe : { clockUngate u with links := u.links } = u := clearCause_frame ..
    have hlinks : u.links = s.links := by rw [← hu]; rfl
    have hlink (l : Nat) : u.link l = s.link l := congrArg (fun ls : List Link => at' ls l {}) hlinks
    refine ⟨clockUngate u, ?_, ?_, fun l hl => ?_, ?_⟩
    · change execLocksenseRecover mv s = _
      unfold execLocksenseRecover
      have hloops' : (readSense mv s).clk.included &&& ~~~(readSense mv s).clk.locked = 0 := hloops
      simp only [hmv, hloops', decide_true, Bool.and_self, if_true, hu]
    · rw [(congrArg State.clk hframe :), ← hu]
    · rw [clockUngate_all u (by rw [hlinks]; exact hlen) (by rw [← hu]) (by rw [← hu]; exact hsys)
        (by rw [← hu]; exact hsynth) l (by rw [← hu]; exact hl), hlink]
    · refine (congrArg (fun v : State => { v with links := s.links, clk := s.clk }) hframe).trans ?_
      rw [← hu]
      rfl
  · intro mv s hmv
    change execLocksenseRecover mv s = _
    simp [execLocksenseRecover, readSense, not_lt.2 hmv]
  · intro mv toggling s
    rfl
  · intro i since c rest s
    refine ⟨fun hctx => ?_, fun hctx => ?_⟩
    · change execSynthLockTimeout i s = _
      simp [execSynthLockTimeout, hctx]
    · change execSynthLockTimeout i s = _
      simp [execSynthLockTimeout, hctx]
  · intro i c address crc rest host b s hi hloads u hup hb
    have hload := profileLoaded i c address crc rest host b s hi hloads hup hb
    refine ⟨fun hcrc hramp => ?_, fun hbad => ?_⟩
    · rw [hload]
      simp [hcrc, hramp, u]
    · rw [hload, if_neg]
      rcases hbad with hbad | hbad
      · simp [hbad]
      · simp [hbad]
  · intro i span s x off
    refine ⟨fun hok => ?_, fun hlocked hoff => ?_⟩
    · change execLinePhaseCheck i span s = _
      unfold execLinePhaseCheck
      dsimp only
      rw [if_pos]
      rcases hok with hok | hok
      · simp [hok]
      · simp [x, off] at hok
        simp [hok]
    · have hpast : ¬ off ≤ x.phaseTol * 65536 := not_le.2 hoff
      simp only [x, off] at hpast
      intro s'
      refine ⟨fun hraised => ?_, fun hraised => ?_⟩
      · change execLinePhaseCheck i span s = _
        simp only [x] at hraised
        simp [execLinePhaseCheck, hlocked, hpast, hraised, s']
      · change execLinePhaseCheck i span s = _
        simp only [x] at hraised
        simp [execLinePhaseCheck, hlocked, hpast, hraised, s']
  · intro rq s hs hlen hsynths i freq hi hmode htol hconf hfreq hpage
    exact synthConfigured rq s i freq hs hlen hsynths rfl rfl hi hmode htol hconf hfreq hpage
  · intro rq b s u hs hi hb
    refine ⟨fun hcrc hramp => ?_, fun hcrc => ?_⟩
    · change execClockSynthProfile rq s = _
      unfold execClockSynthProfile
      refine command_pass 0x1002 rq _ _ u hs ?_
      simp [u, hb, hcrc, hramp, hi]
    · change execClockSynthProfile rq s = _
      unfold execClockSynthProfile
      refine command_turned_away 0x1002 rq _ _ u true _ hs ?_
      simp [u, hb, hcrc, not_le.2 hi]
  · intro rq s hs hsynths
    obtain ⟨hlength, hhead, hcounts⟩ := synthCounts_layout
      (leBytes 1 (bit s.clk.refIn) ++ leBytes 1 s.clk.locked.toNat ++ leBytes 1 s.clk.included.toNat ++ zeros 1 ++
        leBytes 2 s.clk.senseMv ++ zeros 2) (by simp) s.clk.synths hsynths {}
    refine ⟨_, command_pass 0x1003 rq _ _ s hs (List.forall_mem_nil _), hlength, ?_, ?_, hcounts⟩
    · have hlt := s.clk.locked.isLt
      refine (hhead 1 1 (by omega)).trans ?_
      simp only [List.append_assoc]
      simp [leAt_left, leAt_right, leAt_leBytes]
      omega
    · have hlt := s.clk.included.isLt
      refine (hhead 2 1 (by omega)).trans ?_
      simp only [List.append_assoc]
      simp [leAt_left, leAt_right, leAt_leBytes]
      omega
  · intro rq s hs hi hbw hpump hpage
    change execClockSynthRaw rq s = _
    unfold execClockSynthRaw
    refine command_pass 0x1080 rq _ _ s hs ?_
    simp [not_le.2 hi, not_lt.2 hbw, not_lt.2 hpump, hpage]

end Sys2Proof.Machine
end

section
/-!
O25 and O26: role inputs, bias channels and fuser heaters (spec/07_press_process.md R203 to R210).
-/
namespace Sys2Proof.Machine

open Sys2Proof

/-! ### A reply leaves every unit as it was -/

/-- What does not depend on the command interface is as it was after a reply. -/
theorem respond_of {α : Type} (f : State → α) (rq : Req) (code status : Nat) (p : List Byte) (s : State)
    (hf : ∀ (u : State) (m : Mci), f { u with mci := m } = f u) : f (respond rq code status p s) = f s :=
  (hf (respond rq code status p s) s.mci).symm.trans (congrArg f (respond_frame rq code status p s))

section
variable (rq : Req) (code status : Nat) (p : List Byte) (s : State)

@[simp] theorem respond_station (i : Nat) : (respond rq code status p s).station i = s.station i :=
  respond_of (fun u => u.station i) rq code status p s fun _ _ => rfl

@[simp] theorem respond_head (i : Nat) : (respond rq code status p s).head i = s.head i :=
  respond_of (fun u => u.head i) rq code status p s fun _ _ => rfl

@[simp] theorem respond_biasOf (i : Nat) : (respond rq code status p s).biasOf i = s.biasOf i :=
  respond_of (fun u => u.biasOf i) rq code status p s fun _ _ => rfl

@[simp] theorem respond_heater (i : Nat) : (respond rq code status p s).heater i = s.heater i :=
  respond_of (fun u => u.heater i) rq code status p s fun _ _ => rfl

@[simp] theorem respond_engine : (respond rq code status p s).engine = s.engine :=
  respond_of State.engine rq code status p s fun _ _ => rfl

@[simp] theorem respond_flt : (respond rq code status p s).flt = s.flt :=
  respond_of State.flt rq code status p s fun _ _ => rfl

end

/-! ### Role inputs -/

/-- Settles O25: an edge and a debounce change one input; an assignment passes its checks. -/
theorem roleInputs : Obligations.RoleInputs := by
  unfold Obligations.RoleInputs
  refine ⟨?_, ?_, ?_, ?_, ?_⟩
  · intro g level s hg
    have hsame := State.modGpi_same s g (fun x => { x with level := level, waiting := level ≠ x.st }) hg
    refine ⟨_, rfl, by rw [hsame], ?_, by rw [hsame], fun k hk => State.modGpi_ne _ _ _ _ hk.symm, rfl⟩
    rw [hsame]
    exact decide_eq_true_iff
  · intro g s hwait
    change execInterlockDebounceExpiry g s = _
    simp [execInterlockDebounceExpiry, hwait]
  · intro g s hwait
    change execInterlockDebounceExpiry g s = _
    simp [execInterlockDebounceExpiry, hwait]
  · intro rq s hs hp hg hrole hdeb hst hht hax hfree
    change execPressInterlockAssign rq s = _
    unfold execPressInterlockAssign
    refine commandOf_pass .press 0x0604 rq _ _ s hs hp ?_
    have haxes : ¬ (rq.u16 8 ≠ 0 ∧ rq.u8 1 ≠ 3) := by
      rintro ⟨h, h'⟩
      exact hax.elim h h'
    have hbusy : ((s.gpiOf (rq.u8 0)).forge && decide ((s.gpiOf (rq.u8 0)).role ≠ 0)) = false := by
      rcases hfree with h | h
      · simp [h]
      · simp [h]
    simp only [List.forall_mem_cons, hbusy]
    simpa [not_lt.2 hg, not_lt.2 hrole, not_lt.2 hdeb, not_lt.2 hst, not_lt.2 hht] using haxes
  · intro rq s hs hp hg
    change execPressInterlockAssign rq s = _
    unfold execPressInterlockAssign
    exact commandOf_turned_away .press 0x0604 rq _ _ s true _ hs hp (by simp [hg])

/-! ### Bias channels -/

theorem applySetpoint_open (c : Nat) (v : Int) (s : State) (hc : c < s.bias.length) (hloop : (s.biasOf c).loop = none)
    (hheld : (s.biasOf c).held = false) (hraw : (s.biasOf c).raw = none) (hfatal : s.flt.fatal = none) :
    applySetpoint c v s = s.modBias c fun b =>
      { b with setpoint := v, setNext := none, duty := (clampI 0 4095 (nearest (v * 4095) b.fullScale)).toNat } := by
  have hsame := State.modBias_same s c (fun b => { b with setpoint := v, setNext := none }) hc
  have hflt : (s.modBias c fun b => { b with setpoint := v, setNext := none }).flt.fatal = none := hfatal
  unfold applySetpoint
  dsimp only
  rw [hsame]
  simp only [hloop, hheld, hraw, hflt, Option.isSome_none, Bool.or_self, Bool.false_eq_true, if_false]
  unfold State.modBias
  dsimp only
  rw [modAt_modAt]
  rfl

/-- A channel that is not held and holds for no search is left as it is by the search firing. -/
theorem refreshSearch_biasOf (c : Nat) (s : State) (hc : c < s.bias.length) (hheld : (s.biasOf c).held = false)
    (hhold : (s.biasOf c).searchHold = false) : (refreshSearch s).biasOf c = s.biasOf c := by
  refine (at'_map _ s.bias c ({} : Bias) ({} : Bias) hc).trans ?_
  change Bias.mk .. = s.biasOf c
  unfold State.biasOf at hheld hhold ⊢
  generalize at' s.bias c {} = b at hheld hhold ⊢
  simp only [hheld, hhold, Bool.false_and, Bool.false_eq_true, if_false]
  cases b
  cases hheld
  cases hhold
  rfl

theorem biasConfigured (rq : Req) (s : State) (hs : served 0x0605 rq s = true) (hlen : s.bias.length = 16)
    (hp : s.mci.personality = .press) (hc : rq.u8 0 ≤ 15) (hrole : rq.u8 1 ≤ 3) (hstation : rq.u8 2 ≤ 3)
    (hslot : rq.u8 3 = 0xFF) (hlo : 1 ≤ rq.u16 6) (hhi : rq.u16 6 ≤ 32767) (htlo : 1 ≤ rq.u16 8) (hthi : rq.u16 8 ≤ 32767)
    (hhold : rq.bit 10 0 = false) (hpage : pageActive s (rq.u8 2) = false) (hloop : (s.biasOf (rq.u8 0)).loop = none)
    (hheld : (s.biasOf (rq.u8 0)).held = false) (hraw : (s.biasOf (rq.u8 0)).raw = none) (hfatal : s.flt.fatal = none) :
    ∃ t, exec (.pressBiasConfig rq) s = .next t ∧ (t.biasOf (rq.u8 0)).role = rq.u8 1 ∧
      (t.biasOf (rq.u8 0)).configured = true ∧ (t.biasOf (rq.u8 0)).setpoint = rq.i16 4 ∧
      (t.biasOf (rq.u8 0)).fullScale = rq.u16 6 ∧ (t.biasOf (rq.u8 0)).tol = rq.u16 8 ∧
      (t.biasOf (rq.u8 0)).duty = (clampI 0 4095 (nearest (rq.i16 4 * 4095) (rq.u16 6))).toNat ∧
      t.engine = s.engine ∧ t.flt = s.flt := by
  have hlo' : rq.u16 6 ≠ 0 := by omega
  have htlo' : rq.u16 8 ≠ 0 := by omega
  have hbind : bindLoop (s.biasOf (rq.u8 0)).loop none (some { kind := 2, index := rq.u8 0 }) { kind := 1, index := rq.u8 0 } s = s := by
    rw [hloop]
    rfl
  change ∃ t, execPressBiasConfig rq s = _ ∧ _
  unfold execPressBiasConfig
  simp only [hslot, hhold, if_true]
  refine ⟨_, commandOf_pass .press 0x0605 rq _ _ s hs hp (by
    simp [not_lt.2 hc, not_lt.2 hrole, not_lt.2 hstation, not_lt.2 hhi, not_lt.2 hthi, hlo', htlo']), ?_⟩
  rw [hbind]
  generalize hu : (s.modBias (rq.u8 0) fun b => { b with
    role := rq.u8 1, station := rq.u8 2, loop := none, fullScale := rq.u16 6, tol := rq.u16 8, searchHold := false, configured := true }) = u
  have hupage : pageActive u (rq.u8 2) = false := by rw [← hu]; exact hpage
  have hulen : rq.u8 0 < u.bias.length := by rw [← hu]; simp [State.modBias]; omega
  have hub : u.biasOf (rq.u8 0) = { s.biasOf (rq.u8 0) with
      role := rq.u8 1, station := rq.u8 2, loop := none, fullScale := rq.u16 6, tol := rq.u16 8, searchHold := false, configured := true } := by
    rw [← hu]
    exact State.modBias_same _ _ _ (by omega)
  have happly := applySetpoint_open (rq.u8 0) (rq.i16 4) u hulen (by rw [hub]) (by rw [hub]; exact hheld)
    (by rw [hub]; exact hraw) (by rw [← hu]; exact hfatal)
  rw [if_neg (by simp [hupage]), happly]
  generalize hv : (u.modBias (rq.u8 0) fun b => { b with
    setpoint := rq.i16 4, setNext := none, duty := (clampI 0 4095 (nearest (rq.i16 4 * 4095) b.fullScale)).toNat }) = v
  have hvlen : rq.u8 0 < v.bias.length := by rw [← hv]; simpa [State.modBias] using hulen
  have hvb : v.biasOf (rq.u8 0) = { u.biasOf (rq.u8 0) with
      setpoint := rq.i16 4, setNext := none
      duty := (clampI 0 4095 (nearest (rq.i16 4 * 4095) (u.biasOf (rq.u8 0)).fullScale)).toNat } := by
    rw [← hv]
    exact State.modBias_same _ _ _ hulen
  rw [respond_biasOf, respond_engine, respond_flt, refreshSearch_biasOf _ _ hvlen (by rw [hvb, hub]; exact hheld) (by rw [hvb, hub]),
    hvb, hub]
  refine ⟨rfl, rfl, rfl, rfl, rfl, rfl, ?_, ?_⟩
  · rw [← hv, ← hu]
    rfl
  · rw [← hv, ← hu]
    rfl

/-! ### Fuser heaters -/

theorem bindLoop_frame (old new : Option Nat) (inSel : Option Sel) (outSel : Sel) (s : State) :
    { bindLoop old new inSel outSel s with engine := s.engine } = s := by
  have hmod (s : State) (l : Nat) (f : Loop → Loop) : { s.modLoop l f with engine := s.engine } = s := rfl
  have hnew (u : State) : { (match new with
      | some l => u.modLoop l fun x => { x with inSel := inSel.getD x.inSel, outSel := outSel }
      | none => u : State) with engine := u.engine } = u := by
    cases new with
    | none => rfl
    | some l => exact hmod u l _
  unfold bindLoop
  cases old with
  | none => exact hnew s
  | some l =>
    refine (congrArg (fun u : State => { u with engine := s.engine }) (hnew _)).trans ?_
    dsimp only
    split
    · rfl
    · exact hmod s l _

/-- A sensor that reads open trips its heater, once (R210). -/
theorem fuserOpen (h counts : Nat) (s : State) (hh : h < s.heaters.length) (hconf : (s.heater h).configured = true)
    (hover : (s.heater h).overOn = false) (hopen : counts < (at' s.therm.thermistors (s.heater h).input {}).openMin) :
    ∃ t, exec (.fuserTempRead h counts) s = .next t ∧ (t.heater h).tripped = true ∧ (t.heater h).off = true ∧
      (t.heater h).acc = 0 ∧ (t.heater h).fire = 0 ∧
      (t.flt.presented.getLast?.map fun r => (r.source, r.unit)) = some (0x00C6, some h) ∧
      (∀ k, k ≠ h → t.heater k = s.heater k) ∧ { t with heaters := s.heaters, flt := s.flt } = s := by
  generalize hu : (s.modHeater h fun x => { x with temps := ((1020 : Int) :: x.temps).take 100, overOn := true, rateOn := false }) = u
  have hulen : u.heaters.length = s.heaters.length := by rw [← hu]; exact length_modAt ..
  refine ⟨tripHeater h 0x00C6 u, ?_, ?_⟩
  · change execFuserTempRead h counts s = _
    unfold execFuserTempRead
    simp only [hconf, hover, decide_eq_true hopen, Bool.true_or, Bool.not_true, Bool.false_and, Bool.not_false, Bool.and_self,
      Bool.false_eq_true, if_true, if_false, hu]
  · have hoff : (tripHeater h 0x00C6 u).heater h = { u.heater h with tripped := true, off := true, acc := 0, fire := 0 } := by
      change (heaterOff h (u.modHeater h fun x => { x with tripped := true })).heater h = _
      unfold heaterOff
      rw [State.modHeater_same _ _ _ (by simpa [State.modHeater, hulen] using hh), State.modHeater_same _ _ _ (by rw [hulen]; exact hh)]
    rw [hoff]
    refine ⟨rfl, rfl, rfl, rfl, present_last .., fun k hk => ?_, ?_⟩
    · change (heaterOff h (u.modHeater h fun x => { x with tripped := true })).heater k = _
      unfold heaterOff
      rw [State.modHeater_ne _ _ _ _ hk.symm, State.modHeater_ne _ _ _ _ hk.symm, ← hu, State.modHeater_ne _ _ _ _ hk.symm]
    · have htrip : { tripHeater h 0x00C6 u with heaters := s.heaters, flt := s.flt } = { u with heaters := s.heaters, flt := s.flt } := rfl
      rw [htrip, ← hu]
      rfl

/-- A raw duty stands for the channel, and counts once no search holds it (R206). -/
theorem biasRawSet (rq : Req) (s : State) (hs : served 0x0680 rq s = true) (hlen : s.bias.length = 16)
    (hp : s.mci.personality = .press) (hc : rq.u8 0 ≤ 15) (hd : rq.u16 2 ≤ 4095)
    (hpage : pageActive s (s.biasOf (rq.u8 0)).station = false) :
    ∃ t, exec (.pressBiasRaw rq) s = .next t ∧ (t.biasOf (rq.u8 0)).raw = some (rq.u16 2) ∧
      (t.biasOf (rq.u8 0)).duty = (if (s.biasOf (rq.u8 0)).held then 0 else rq.u16 2) ∧
      (∀ c, c ≠ rq.u8 0 → t.biasOf c = s.biasOf c) ∧ { t with bias := s.bias, mci := s.mci, free := s.free } = s := by
  have hd' : rq.u16 2 ≠ 0xFFFF := by omega
  change ∃ t, execPressBiasRaw rq s = _ ∧ _
  unfold execPressBiasRaw
  simp only [hd', if_false]
  refine ⟨_, commandOf_pass .press 0x0680 rq _ _ s hs hp (by simp [not_lt.2 hc, not_lt.2 hd, hpage]), ?_⟩
  generalize leBytes 2 (Config.freeNat s.free % 4096) ++ zeros 2 = p
  generalize hu : ({ s with free := s.free + 1 } : State) = u
  have hbias : u.bias = s.bias := by rw [← hu]
  have hbiasOf (k : Nat) : u.biasOf k = s.biasOf k := congrArg (fun bs : List Bias => at' bs k {}) hbias
  rw [respond_biasOf, State.modBias_same _ _ _ (show rq.u8 0 < u.bias.length by rw [hbias]; omega), hbiasOf]
  refine ⟨rfl, rfl, fun c hcne => ?_, ?_⟩
  · rw [respond_biasOf, State.modBias_ne _ _ _ _ hcne.symm, hbiasOf]
  · refine (congrArg (fun u : State => { u with bias := s.bias, free := s.free, mci := s.mci }) (respond_frame ..)).trans ?_
    rw [← hu]
    rfl

/-- Settles O26: the open-loop setpoint by `applySetpoint_open`, the trip by `fuserOpen`; the rest is one update of a channel
or a heater. -/
theorem biasAndHeaters : Obligations.BiasAndHeaters := by
  unfold Obligations.BiasAndHeaters
  refine ⟨biasConfigured, biasRawSet, ?_, ?_, ?_, ?_, fuserOpen, ?_⟩
  · intro c s hconf hup
    change execBiasRangeTimeout c s = _
    simp [execBiasRangeTimeout, hconf, hup]
  · intro h crossing s hh hconf htrack hfull hoff htrip hloop acc
    have hloop' : (s.heater h).loop.isNone = false := by
      rw [Option.isNone_eq_false_iff]
      exact Option.isSome_iff_ne_none.2 hloop
    refine ⟨s.modHeater h fun x => { x with
      acc := if 2 ^ 30 ≤ acc then acc - 2 ^ 30 else acc
      fire := if 2 ^ 30 ≤ acc then x.fire + (if x.full then 2 else 1) else x.fire }, ?_, ?_, ?_, fun k hk => State.modHeater_ne _ _ _ _ hk.symm, rfl⟩
    · change execHeaterDecision h crossing s = _
      unfold execHeaterDecision
      simp only [hconf, Source.tracks, htrack, hfull, hoff, htrip, hloop', decide_true, Bool.not_true, Bool.or_self,
        Bool.false_and, Bool.false_eq_true, if_false]
      rfl
    · rw [State.modHeater_same _ _ _ hh]
    · rw [State.modHeater_same _ _ _ hh]
      dsimp only
      rw [hfull]
      split
      · rfl
      · rfl
  · intro h s hfire hoff htrip
    change execHeaterGatePulse h s = _
    simp [execHeaterGatePulse, hfire, hoff, htrip]
  · intro h s hno
    change execHeaterGatePulse h s = _
    unfold execHeaterGatePulse
    dsimp only
    rw [if_pos]
    rcases hno with hno | hno | hno
    · simp [hno]
    · simp [hno]
    · simp [hno]
  · intro rq s hs hlen hp hh hzlo hzhi hslot hfull hin holo hohi hrlo hrhi hdelay hplo hphi htrip
    have hframe := bindLoop_frame (s.heater (rq.u8 0)).loop none none { kind := 2, index := rq.u8 0 } s
    have hheld : heaterHeld (bindLoop (s.heater (rq.u8 0)).loop none none { kind := 2, index := rq.u8 0 } s) (rq.u8 0) =
      heaterHeld s (rq.u8 0) := (congrArg (fun u : State => heaterHeld u (rq.u8 0)) hframe :)
    change ∃ t, execPressFuserConfig rq s = _ ∧ _
    unfold execPressFuserConfig
    simp only [hslot, if_true]
    refine ⟨_, commandOf_pass .press 0x0606 rq _ _ s hs hp (by
      simp [not_lt.2 hh, not_lt.2 hzlo, not_lt.2 hzhi, not_lt.2 hfull, not_lt.2 hin, not_lt.2 holo, not_lt.2 hohi,
        not_lt.2 hrlo, not_lt.2 hrhi, not_lt.2 hdelay, not_lt.2 hplo, not_lt.2 hphi, htrip]), ?_⟩
    generalize bindLoop (s.heater (rq.u8 0)).loop none none { kind := 2, index := rq.u8 0 } s = u at hframe hheld ⊢
    have hheaters : u.heaters = s.heaters := (congrArg State.heaters hframe :)
    have hheater (k : Nat) : u.heater k = s.heater k := congrArg (fun hs : List Heater => at' hs k {}) hheaters
    rw [respond_heater, State.modHeater_same _ _ _ (show rq.u8 0 < u.heaters.length by rw [hheaters]; omega)]
    refine ⟨rfl, rfl, rfl, rfl, rfl, ?_, fun k hk => ?_⟩
    · dsimp only
      rw [hheld, hheater]
    · rw [respond_heater, State.modHeater_ne _ _ _ _ hk.symm, hheater]

end Sys2Proof.Machine
end

section
/-!
O22 and O23: the configuration of a Press station, its tables and Delta (spec/06_press_imaging.md).
-/
namespace Sys2Proof.Machine

open Sys2Proof

/-! ### What the configuration of a station changes -/

theorem foldl_keepEvents_frame (keep : Nat → QEvent → Bool) (ls : List Nat) (s : State) :
    { ls.foldl (fun s l => s.modLink l (Link.keepEvents keep)) s with links := s.links } = s := by
  induction ls generalizing s with
  | nil => rfl
  | cons l ls ih => exact (congrArg (fun u : State => { u with links := s.links }) (ih _)).trans (modLink_frame ..)

theorem dropSweeps_frame (i : Nat) (s : State) : { dropSweeps i s with links := s.links, stations := s.stations } = s :=
  (congrArg (fun u : State => { u with stations := s.stations }) (foldl_keepEvents_frame ..) :)

theorem dropSweeps_station (i : Nat) (s : State) (hi : i < s.stations.length) :
    (dropSweeps i s).station i = { s.station i with sweeps := [], slotFired := [], slotSeen := [] } := by
  unfold dropSweeps
  dsimp only
  generalize hu : (s.station i).links.foldl _ s = u
  have hstations : u.stations = s.stations := by
    rw [← hu]
    exact (congrArg State.stations (foldl_keepEvents_frame ..) :)
  rw [State.modStation_same _ _ _ (by rw [hstations]; exact hi)]
  unfold State.station
  rw [hstations]

theorem bindBanding_none (i : Nat) (s : State) : { bindBanding i none s with engine := s.engine } = s := by
  have hun (k : Nat) : { unbindRepctl k s with engine := s.engine } = s := rfl
  unfold bindBanding
  dsimp only
  split
  · rfl
  · split
    · exact hun _
    · rfl

/-- A station after search firing is judged (R172). -/
def Station.firing (s : State) (i : Nat) (st : Station) : Station :=
  { st with search := st.search || (st.configured && (s.source st.bdSource).st ≠ .track && !pageActive s i) }

theorem refreshSearch_station (i : Nat) (s : State) (hi : i < s.stations.length) :
    (refreshSearch s).station i = (s.station i).firing s i :=
  at'_mapIx (Station.firing s) s.stations i ({} : Station) ({} : Station) hi

theorem present_station (source : Nat) (unit : Option Nat) (detail : Nat) (s : State) (i : Nat) :
    (present source unit detail s).station i = s.station i := rfl

/-! ### Delta exhausted (R185) -/

theorem noteExhausted_frame (i : Nat) (before : Bool) (s : State) :
    { noteExhausted i before s with stations := s.stations, flt := s.flt } = s := by
  unfold noteExhausted
  dsimp only
  (repeat' split) <;> rfl

theorem noteExhausted_station (i : Nat) (before : Bool) (s : State) (hi : i < s.stations.length) :
    { (noteExhausted i before s).station i with exhausted := (s.station i).exhausted, jobs := (s.station i).jobs } = s.station i ∧
    (noteExhausted i before s).stations.length = s.stations.length := by
  have hmod : (((s.modStation i fun st => { st with exhausted := true }).modJobs i fun j =>
      if j.st = .active then { j with flags := j.flags ||| jobDamaged } else j).station i) =
      { s.station i with exhausted := true, jobs := (s.station i).jobs.map fun j =>
        if j.st = .active then { j with flags := j.flags ||| jobDamaged } else j } := by
    unfold State.modJobs
    rw [State.modStation_same _ _ _ (by simpa [State.modStation] using hi), State.modStation_same _ _ _ hi]
  have hlen : ((s.modStation i fun st => { st with exhausted := true }).modJobs i fun j =>
      if j.st = .active then { j with flags := j.flags ||| jobDamaged } else j).stations.length = s.stations.length := by
    simp [State.modJobs, State.modStation]
  unfold noteExhausted
  dsimp only
  split
  · exact ⟨rfl, rfl⟩
  · split
    · rw [hmod]
      exact ⟨rfl, hlen⟩
    · rw [present_station, hmod]
      exact ⟨rfl, hlen⟩

/-- Nothing is raised where Delta is not exhausted or was before. -/
theorem noteExhausted_quiet (i : Nat) (before : Bool) (s : State) (h : before = true ∨ deltaExhausted (s.station i) = false) :
    (noteExhausted i before s).flt = s.flt := by
  unfold noteExhausted
  dsimp only
  split
  · rfl
  · next hex =>
    rcases h with h | h
    · rw [if_pos h]
      rfl
    · simp [h] at hex

theorem noteExhausted_raises (i : Nat) (s : State) (h : deltaExhausted (s.station i) = true) :
    ((noteExhausted i false s).flt.presented.getLast?.map fun r => (r.source, r.unit)) = some (0x00A1, some i) := by
  unfold noteExhausted
  rw [if_neg (by simp [h]), if_neg (by simp)]
  exact present_last ..

/-- Whether Delta is exhausted depends on the dead beams, DELTA_MAX and the links of a station. -/
theorem deltaExhausted_congr {a b : Station} (hdead : a.dead = b.dead) (hmax : a.deltaMax = b.deltaMax)
    (hlinks : a.links = b.links) : deltaExhausted a = deltaExhausted b := by
  unfold deltaExhausted Station.beams
  rw [hdead, hmax, hlinks]

/-! ### The configuration of a station -/

/-- The settings of press.station.config, with no banding controller. -/
def Station.configuredBy (rq : Req) (st : Station) : Station :=
  { st with configured := true, facets := rq.u8 1, bdSource := rq.u8 2, reverse := rq.bit 3 0, descending := rq.bit 3 1,
            dpi := rq.u16 4, pixels := rq.u32 8, clockKhz := rq.u32 12, sosNs := rq.u32 16, guardNs := rq.u32 20,
            lead0 := rq.u8 24, lead1 := rq.u8 25, slots := rq.u8 26, slot10 := rq.u8 27, preNs := rq.u16 28,
            deadSweeps := if rq.u8 30 = 0 then 2 else rq.u8 30, deadTelem := if rq.u8 31 = 0 then 3 else rq.u8 31,
            monMin := rq.u8 32, deltaMax := rq.u8 33, banding := none }

/-- The station's configuration before Delta is judged. -/
def stationSet (rq : Req) (s : State) : State :=
  refreshSearch ((bindBanding (rq.u8 0) none (dropSweeps (rq.u8 0) s)).modStation (rq.u8 0) (Station.configuredBy rq))

theorem stationSet_effect (rq : Req) (s : State) (hlen : s.stations.length = 4) (hi : rq.u8 0 ≤ 3) :
    (stationSet rq s).stations.length = 4 ∧ (stationSet rq s).time = s.time ∧ (stationSet rq s).flt = s.flt ∧
    ∃ search, (stationSet rq s).station (rq.u8 0) = { (s.station (rq.u8 0)).configuredBy rq with
      sweeps := [], slotFired := [], slotSeen := [], search := search } := by
  have hdrop := dropSweeps_frame (rq.u8 0) s
  have hstation := dropSweeps_station (rq.u8 0) s (by omega)
  have hdroplen : (dropSweeps (rq.u8 0) s).stations.length = 4 := by
    unfold dropSweeps State.modStation
    dsimp only
    rw [length_modAt, (congrArg State.stations (foldl_keepEvents_frame ..) :), hlen]
  unfold stationSet
  generalize dropSweeps (rq.u8 0) s = u at hdrop hstation hdroplen ⊢
  have hbindstation : (bindBanding (rq.u8 0) none u).stations = u.stations := (congrArg State.stations (bindBanding_none ..) :)
  have hbindtime : (bindBanding (rq.u8 0) none u).time = u.time := (congrArg State.time (bindBanding_none ..) :)
  have hbindflt : (bindBanding (rq.u8 0) none u).flt = u.flt := (congrArg State.flt (bindBanding_none ..) :)
  generalize bindBanding (rq.u8 0) none u = v at hbindstation hbindtime hbindflt ⊢
  have hvlen : rq.u8 0 < v.stations.length := by rw [hbindstation]; omega
  have hvstation : v.station (rq.u8 0) = u.station (rq.u8 0) :=
    congrArg (fun xs : List Station => at' xs (rq.u8 0) ({} : Station)) hbindstation
  refine ⟨?_, hbindtime.trans (congrArg State.time hdrop :), hbindflt.trans (congrArg State.flt hdrop :),
    (((v.modStation (rq.u8 0) (Station.configuredBy rq)).station (rq.u8 0)).firing
      (v.modStation (rq.u8 0) (Station.configuredBy rq)) (rq.u8 0)).search, ?_⟩
  · refine (length_mapIx ..).trans ((length_modAt ..).trans ?_)
    rw [hbindstation, hdroplen]
  · rw [refreshSearch_station _ _ (by simpa [State.modStation] using hvlen), State.modStation_same _ _ _ hvlen, hvstation, hstation]
    rfl

/-- The served configuration whose settings are in range. -/
theorem execPressStationConfig_served (rq : Req) (s : State) (hs : served 0x0501 rq s = true) (hp : s.mci.personality = .press)
    (hi : rq.u8 0 ≤ 3) (hbeams : (s.station (rq.u8 0)).beams ≠ 0) (hfacets : 4 ≤ rq.u8 1 ∧ rq.u8 1 ≤ 12)
    (hsource : 16 ≤ rq.u8 2 ∧ rq.u8 2 ≤ 23) (hpixels : 1 ≤ rq.u32 8 ∧ rq.u32 8 ≤ scanLimit (rq.u16 4))
    (hclock : 20000 ≤ rq.u32 12 ∧ rq.u32 12 ≤ 140000) (hguard : 1000 ≤ rq.u32 20 ∧ rq.u32 20 ≤ 100000)
    (hleads : rq.u8 24 < (s.station (rq.u8 0)).beams ∧ rq.u8 25 < (s.station (rq.u8 0)).beams ∧ rq.u8 24 ≠ rq.u8 25)
    (hslots : 1 ≤ rq.u8 26 ∧ rq.u8 26 ≤ 16) (hslot10 : 5 ≤ rq.u8 27 ∧ rq.u8 27 ≤ 100) (hpre : 100 ≤ rq.u16 28 ∧ rq.u16 28 ≤ 10000)
    (hdead : rq.u8 30 ≤ 16 ∧ rq.u8 31 ≤ 16) (hmax : rq.u8 33 ≤ 8) (hrep : rq.u8 34 = 0xFF)
    (hothers : ∀ k, k < 4 → k ≠ rq.u8 0 → (s.station k).configured = true → (s.station k).bdSource ≠ rq.u8 2)
    (hpage : pageActive s (rq.u8 0) = false)
    (hsos : sosTooEarly s (rq.u8 0) (rq.u32 16) ((s.station (rq.u8 0)).skewNext.getD (s.station (rq.u8 0)).skew) = false) :
    ∃ p, execPressStationConfig rq s = .next (respond rq 0x0501 Status.ok p
      (noteExhausted (rq.u8 0) (deltaExhausted (s.station (rq.u8 0))) (stationSet rq s))) := by
  have hmax' : rq.u8 33 ≠ 0xFF := by omega
  unfold execPressStationConfig
  simp only [hmax', hrep, if_true, if_false]
  refine ⟨_, commandOf_pass .press 0x0501 rq _ _ s hs hp ?_⟩
  · simp only [List.forall_mem_cons]
    refine ⟨decide_eq_false (not_lt.2 hi), ?_, ?_, hpage, hsos, List.forall_mem_nil _⟩
    · simp [hbeams, not_lt.2 hfacets.1, not_lt.2 hfacets.2, not_lt.2 hsource.1, not_lt.2 hsource.2, not_lt.2 hpixels.2,
        not_lt.2 hclock.1, not_lt.2 hclock.2, not_lt.2 hguard.1, not_lt.2 hguard.2, not_le.2 hleads.1, not_le.2 hleads.2.1,
        hleads.2.2, not_lt.2 hslot10.1, not_lt.2 hslot10.2, not_lt.2 hpre.1, not_lt.2 hpre.2, not_lt.2 hdead.1,
        not_lt.2 hdead.2, not_lt.2 hslots.2, not_lt.2 hmax]
      omega
    · simpa using hothers

/-- Settles O22: the settings by `stationSet_effect`, the raise by `noteExhausted_raises`. -/
theorem pressStationIsConfigured : Obligations.PressStationIsConfigured := by
  unfold Obligations.PressStationIsConfigured
  refine ⟨?_, ?_⟩
  · intro rq s hs hlen hp hi i st hbeams hflo hfhi hslo hshi hpx hpxlim hclo hchi hglo hghi hl0 hl1 hl hslots hslots' hs10 hs10'
      hpre hpre' hds hdt hmax hrep hothers hpage hsos
    obtain ⟨p, hexec⟩ := execPressStationConfig_served rq s hs hp hi hbeams ⟨hflo, hfhi⟩ ⟨hslo, hshi⟩ ⟨hpx, hpxlim⟩ ⟨hclo, hchi⟩
      ⟨hglo, hghi⟩ ⟨hl0, hl1, hl⟩ ⟨hslots, hslots'⟩ ⟨hs10, hs10'⟩ ⟨hpre, hpre'⟩ ⟨hds, hdt⟩ hmax hrep hothers hpage hsos
    obtain ⟨hsetlen, hsettime, hsetflt, search, hstation⟩ := stationSet_effect rq s hlen hi
    obtain ⟨hnoted, -⟩ := noteExhausted_station i (deltaExhausted st) (stationSet rq s) (show rq.u8 0 < _ by rw [hsetlen]; omega)
    have hframe := noteExhausted_frame i (deltaExhausted st) (stationSet rq s)
    have hsame : deltaExhausted ((noteExhausted i (deltaExhausted st) (stationSet rq s)).station i) =
        deltaExhausted ((stationSet rq s).station i) :=
      deltaExhausted_congr (congrArg Station.dead hnoted :) (congrArg Station.deltaMax hnoted :) (congrArg Station.links hnoted :)
    refine ⟨_, hexec, ?_⟩
    rw [respond_station, respond_flt, respond_time]
    rw [hsame]
    generalize hnote : noteExhausted i (deltaExhausted st) (stationSet rq s) = t at *
    rw [hstation] at hnoted
    refine ⟨(congrArg Station.configured hnoted :), (congrArg Station.facets hnoted :), (congrArg Station.bdSource hnoted :),
      (congrArg Station.dpi hnoted :), (congrArg Station.pixels hnoted :), (congrArg Station.clockKhz hnoted :),
      (congrArg Station.sosNs hnoted :), (congrArg Station.guardNs hnoted :), (congrArg Station.lead0 hnoted :),
      (congrArg Station.lead1 hnoted :), (congrArg Station.slots hnoted :), (congrArg Station.deltaMax hnoted :),
      (congrArg Station.sweeps hnoted :), (congrArg Station.links hnoted :), (congrArg Station.dead hnoted :),
      (congrArg State.time hframe :).trans hsettime, fun hquiet => ?_, fun hbefore hafter => ?_⟩
    · rw [← hnote, noteExhausted_quiet i _ _ hquiet, hsetflt]
    · rw [← hnote, hbefore]
      exact noteExhausted_raises i _ hafter
  · intro rq s hs hp hi
    change execPressStationConfig rq s = _
    unfold execPressStationConfig
    exact commandOf_turned_away .press 0x0501 rq _ _ s true _ hs hp (by simp [hi])

end Sys2Proof.Machine
end

section
/-!
O23: the tables of a Press station, dead beams and the status replies (spec/06_press_imaging.md R175 to R185).
-/
namespace Sys2Proof.Machine

open Sys2Proof

/-! ### Tables -/

theorem modStation_modStation (s : State) (i : Nat) (f g : Station → Station) :
    (s.modStation i f).modStation i g = s.modStation i fun st => g (f st) := by
  unfold State.modStation
  dsimp only
  rw [modAt_modAt]

/-- The Delta table that waits longest is loaded, or fails. -/
theorem deltaTableLoaded (i : Nat) (host b : List Byte) (c : Ctx) (address : Nat) (crc : BitVec 32)
    (rest : List (Ctx × Nat × BitVec 32)) (s : State) (hload : (s.station i).deltaLoad = (c, address, crc) :: rest)
    (hb : s.tableOr address 512 host = some b) : exec (.pressDeltaTableLoaded i host) s = .next (
      if crc32c b = crc && deltaTableOk b then complete c Status.ok [] (s.modStation i fun st =>
        { st with deltaLoad := rest, deltaNext := some ((b.map (·.toNat)).take 256, (b.map (·.toNat)).drop 256) })
      else complete c Status.failed [] (s.modStation i fun st => { st with deltaLoad := rest })) := by
  have htable : (s.modStation i fun st => { st with deltaLoad := rest }).tableOr address 512 host = some b := hb
  change execPressDeltaTableLoaded i host s = _
  unfold execPressDeltaTableLoaded
  rw [hload]
  dsimp only
  split
  · next b' hb' =>
    obtain rfl : b = b' := Option.some.inj (htable.symm.trans hb')
    rw [modStation_modStation]
    split <;> rfl
  · next hnone => exact absurd (htable.symm.trans hnone) (by simp)

/-! ### Dead beams -/

/-- A declaration sets the bit of its beam and no other. -/
theorem declareDead_dead (i b : Nat) (s : State) (hi : i < s.stations.length) (k : Nat) (hk : k < 48) :
    ((declareDead i b id s).station i).dead.getLsbD k = ((s.station i).dead.getLsbD k || decide (k = b)) ∧
    (declareDead i b id s).stations.length = s.stations.length := by
  unfold declareDead
  split
  · next hdead =>
    refine ⟨?_, rfl⟩
    by_cases hkb : k = b
    · subst hkb
      simpa [deadAt] using hdead
    · simp [hkb]
  · dsimp only
    generalize hu : ((present 0x00A0 (some i) b (s.modStation i fun st => id { st with dead := st.dead ||| (1#48 <<< b) })).modJobs i
      fun j => if j.st = .active then { j with flags := j.flags ||| jobDelta } else j) = u
    have hulen : u.stations.length = s.stations.length := by
      rw [← hu]
      exact (length_modAt ..).trans (length_modAt ..)
    have hudead : (u.station i).dead = (s.station i).dead ||| (1#48 <<< b) := by
      rw [← hu]
      unfold State.modJobs
      rw [State.modStation_same _ _ _ (by simpa [present, presentRaise, State.modStation] using hi), present_station,
        State.modStation_same _ _ _ hi]
      rfl
    obtain ⟨hnoted, hnotedlen⟩ := noteExhausted_station i (deltaExhausted (s.station i)) u (by rw [hulen]; exact hi)
    refine ⟨?_, hnotedlen.trans hulen⟩
    rw [(congrArg Station.dead hnoted :), hudead]
    have hbit : (1#48 <<< b).getLsbD k = decide (k = b) := by
      simp only [BitVec.getLsbD_shiftLeft, BitVec.getLsbD_one, hk, decide_true, Bool.true_and]
      by_cases hkb : k = b
      · simp [hkb]
      · by_cases hlt : k < b
        · simp [hlt, hkb]
        · simp [hkb]
          omega
    rw [BitVec.getLsbD_or, hbit]

/-- The beams of a mask are declared one after another. -/
theorem foldl_declareDead (i : Nat) (beams : List Nat) (s : State) (hi : i < s.stations.length) (k : Nat) (hk : k < 48) :
    ((beams.foldl (fun s b => declareDead i b id s) s).station i).dead.getLsbD k =
      ((s.station i).dead.getLsbD k || decide (k ∈ beams)) := by
  induction beams generalizing s with
  | nil => simp
  | cons b beams ih =>
    obtain ⟨hdead, hlen⟩ := declareDead_dead i b s hi k hk
    rw [List.foldl_cons, ih _ (by rw [hlen]; exact hi), hdead]
    simp [Bool.or_assoc]

/-- Settles O23: the load by `deltaTableLoaded`, the declarations by `foldl_declareDead`; the rest is one update of a station. -/
theorem pressTablesAndDelta : Obligations.PressTablesAndDelta := by
  unfold Obligations.PressTablesAndDelta
  refine ⟨?_, ?_, ?_, ?_, ?_, ?_, ?_, ?_, ?_⟩
  · intro rq s hs hp hi hn skew hskew hsos
    have hrange : (skew.any fun v => decide (1048575 < v.natAbs)) = false :=
      List.any_eq_false.2 fun v hv => by simpa using hskew v hv
    change execPressBeamTable rq s = _
    unfold execPressBeamTable
    refine commandOf_pass .press 0x0502 rq _ _ s hs hp ?_
    simp only [List.forall_mem_cons]
    refine ⟨decide_eq_false (not_lt.2 hi), ?_, hsos, List.forall_mem_nil _⟩
    exact Bool.or_eq_false_iff.2 ⟨by simp [hn], hrange⟩
  · intro rq s hs hp hi
    change execPressPixelTable rq s = _
    unfold execPressPixelTable
    exact commandOf_pass .press 0x0503 rq _ _ s hs hp (by simp [not_lt.2 hi])
  · intro rq b s u hs hp hi hb hcrc hok
    change execPressDeltaTable rq s = _
    unfold execPressDeltaTable
    exact commandOf_pass .press 0x0504 rq _ _ u hs hp (by simp [u, hb, hcrc, hok, not_lt.2 hi])
  · intro i host b c address crc rest s hi hload hb
    have hexec := deltaTableLoaded i host b c address crc rest s hload hb
    refine ⟨fun hcrc hok => ?_, fun hbad => ?_⟩
    · rw [hexec]
      simp [hcrc, hok]
    · rw [hexec, if_neg]
      rcases hbad with hbad | hbad
      · simp [hbad]
      · simp [hbad]
  · intro rq s hs hlen hp hi hbeams hmask
    have hrange : (maskBits 64 (rq.u64 8)).any (fun b => decide ((s.station (rq.u8 0)).beams ≤ b)) = false := by
      refine List.any_eq_false.2 fun b hb => ?_
      obtain ⟨hb, hbit⟩ := List.mem_filter.1 hb
      simpa using hmask b (List.mem_range.1 hb) hbit
    change ∃ t, execPressBeamForceDead rq s = _ ∧ _
    unfold execPressBeamForceDead
    refine ⟨_, commandOf_pass .press 0x0580 rq _ _ s hs hp (by simp [hrange, not_lt.2 hi]), fun b hb => ?_⟩
    rw [respond_station, foldl_declareDead _ _ _ (by omega) b hb]
    have hmem : decide (b ∈ maskBits 64 (rq.u64 8)) = (rq.u64 8).testBit b := by
      rw [Bool.eq_iff_iff, decide_eq_true_iff, maskBits, List.mem_filter, List.mem_range]
      exact and_iff_right (by omega)
    rw [hmem]
  · intro rq s hs hlen hp hi hpage
    change ∃ t, execPressDeltaClear rq s = _ ∧ _
    unfold execPressDeltaClear
    refine ⟨_, commandOf_pass .press 0x0506 rq _ _ s hs hp (by simp [hpage, not_lt.2 hi]), fun b hb => ?_, ?_, fun k hk => ?_, ?_, ?_⟩
    · rw [respond_station, State.modStation_same _ _ _ (by omega)]
      change (_ &&& ~~~(BitVec.ofNat 48 (rq.u64 8))).getLsbD b = _
      rw [BitVec.getLsbD_and, BitVec.getLsbD_not, BitVec.getLsbD_ofNat]
      simp only [hb, decide_true, Bool.true_and]
    · rw [respond_station, State.modStation_same _ _ _ (by omega)]
      rfl
    · rw [respond_station, State.modStation_ne _ _ _ _ hk.symm]
    · rw [respond_links]
      rfl
    · rw [respond_flt]
      rfl
  · intro rq s hs hp hi hpage
    change execPressDeltaClear rq s = _
    unfold execPressDeltaClear
    exact commandOf_turned_away .press 0x0506 rq _ _ s true _ hs hp (by simp [hpage, not_lt.2 hi])
  · intro dead beams b d hmerged
    unfold mergedBy at hmerged
    split at hmerged
    · cases hmerged
    · next hlive =>
      have hlive' : deadAt dead b = false := by simpa using hlive
      split at hmerged
      · next hlow =>
        obtain ⟨hb, hdead⟩ := hlow
        obtain rfl : b - 1 = d := by simpa using hmerged
        exact ⟨hlive', hdead, Or.inl (by omega), fun h => absurd h (by omega)⟩
      · next hlow =>
        split at hmerged
        · next hhigh =>
          obtain ⟨hb, hdead⟩ := hhigh
          obtain rfl : b + 1 = d := by simpa using hmerged
          refine ⟨hlive', hdead, Or.inr ⟨rfl, hb⟩, fun _ => ?_⟩
          by_cases hb0 : b = 0
          · exact Or.inl hb0
          · exact Or.inr (by simpa [Nat.pos_of_ne_zero hb0] using hlow)
        · cases hmerged
  · intro rq s hs hp hi
    refine ⟨?_, ?_⟩
    · change ∃ p, execPressDeltaStatus rq s = _ ∧ _
      unfold execPressDeltaStatus
      refine ⟨_, commandOf_pass .press 0x0505 rq _ _ s hs hp (by simp [not_lt.2 hi]), ?_⟩
      have hdead := (s.station (rq.u8 0)).dead.isLt
      simp only [List.append_assoc]
      simp [leAt_left, leAt_right, leAt_leBytes, leAt_count]
      omega
    · change ∃ p, execPressStationStatus rq s = _ ∧ _
      unfold execPressStationStatus
      refine ⟨_, commandOf_pass .press 0x0507 rq _ _ s hs hp (by simp [not_lt.2 hi]), ?_⟩
      have hdone := (s.station (rq.u8 0)).sweepsDone.isLt
      simp only [List.append_assoc]
      simp [leAt_left, leAt_right, leAt_leBytes, leAt_count]
      omega

end Sys2Proof.Machine
end

section
/-!
O56: the OTP array is read, burned, finalised and checked (spec/22_otp.md R475 to R490).
-/
namespace Sys2Proof.Machine

open Sys2Proof

/-! ### Lists of entries of one size -/

theorem length_flatMap_const {α : Type} (size : Nat) (f : α → List Byte) (hf : ∀ x, (f x).length = size) (l : List α) :
    (l.flatMap f).length = size * l.length := by
  induction l with
  | nil => rfl
  | cons x l ih =>
    rw [List.flatMap_cons, List.length_append, ih, hf, List.length_cons, Nat.mul_succ, Nat.add_comm]

/-- A field of the entry of a place, in a list of entries of one size. -/
theorem leAt_flatMap {α : Type} (size : Nat) (f : α → List Byte) (hf : ∀ x, (f x).length = size) (l : List α) (k o n : Nat)
    (hk : k < l.length) (hon : o + n ≤ size) : leAt (l.flatMap f) (size * k + o) n = leAt (f l[k]) o n := by
  induction l generalizing k with
  | nil => cases hk
  | cons x l ih =>
    rw [List.flatMap_cons]
    cases k with
    | zero => rw [Nat.mul_zero, Nat.zero_add, leAt_left _ _ _ _ (by rw [hf]; exact hon), List.getElem_cons_zero]
    | succ k =>
      rw [leAt_right _ _ _ _ (by rw [hf, Nat.mul_succ]; omega), hf, show size * (k + 1) + o - size = size * k + o by
        rw [Nat.mul_succ]; omega, ih k (by simpa using hk), List.getElem_cons_succ]

/-! ### What an operation leaves of the OTP words -/

/-- The reads of the array depend on its words, its redirected rows and the part. -/
theorem otpCell_congr {s t : State} (hwords : t.otp.words = s.otp.words) (p : Nat) : otpCell t p = otpCell s p := by
  unfold otpCell
  rw [hwords]

theorem otpPlace_congr {s t : State} (hpart : t.part = s.part) (hredirects : t.otp.redirects = s.otp.redirects) (w : Nat) :
    otpPlace t w = otpPlace s w := by
  unfold otpPlace
  rw [hpart, hredirects]

theorem otpRaw_congr {s t : State} (hpart : t.part = s.part) (hotp : t.otp.redirects = s.otp.redirects)
    (hwords : t.otp.words = s.otp.words) (ref w : Nat) : otpRaw t ref w = otpRaw s ref w := by
  unfold otpRaw
  rw [otpPlace_congr hpart hotp, otpCell_congr hwords]

/-- Programming changes the OTP words and takes free values. -/
theorem otpProgram_frame (w : Nat) (v n m : BitVec 32) (s : State) :
    { otpProgram w v n m s with free := s.free, otp := s.otp } = s ∧
    { (otpProgram w v n m s).otp with words := s.otp.words } = s.otp := ⟨rfl, rfl⟩

/-- The bits that were not read reach one copy or the other. -/
theorem otpSplit_or (a b normal f g : BitVec 32) :
    (a ||| (otpSplit (normal &&& ~~~(a ||| b)) f g).1) ||| (b ||| (otpSplit (normal &&& ~~~(a ||| b)) f g).2) =
      (a ||| b) ||| normal := by
  unfold otpSplit
  ext i hi
  simp only [BitVec.getElem_or, BitVec.getElem_and, BitVec.getElem_not]
  cases a[i] <;> cases b[i] <;> cases normal[i] <;> cases f[i] <;> rfl

/-- The cell that a programming leaves at its place. -/
theorem otpProgram_cells (w : Nat) (v normal margin : BitVec 32) (s : State) :
    (otpCell (otpProgram w v normal margin s) (otpPlace s w)).read 0 0 = (otpCell s (otpPlace s w)).read 0 0 ||| normal ∧
    ∀ p, p ≠ otpPlace s w → otpCell (otpProgram w v normal margin s) p = otpCell s p := by
  unfold otpProgram
  extract_lets c k free two f g n nA nB m mA mB l d
  have hrow : d.row = otpPlace s w := cellOf_row s.otp.words _
  have hread : d.read 0 0 = c.read 0 0 ||| normal := otpSplit_or c.normalA c.normalB normal f g
  by_cases hblank : d.isBlank = true
  · simp only [hblank, if_true]
    refine ⟨?_, fun p _ => rfl⟩
    change c.read 0 0 = c.read 0 0 ||| normal
    obtain ⟨hfive, -⟩ := BitVec.or_eq_zero_iff.1 (of_decide_eq_true hblank)
    obtain ⟨hfour, -⟩ := BitVec.or_eq_zero_iff.1 hfive
    obtain ⟨hthree, hB⟩ := BitVec.or_eq_zero_iff.1 hfour
    obtain ⟨htwo, -⟩ := BitVec.or_eq_zero_iff.1 hthree
    obtain ⟨hA, -⟩ := BitVec.or_eq_zero_iff.1 htwo
    have hzero : c.read 0 0 ||| normal = 0#32 := hread.symm.trans (BitVec.or_eq_zero_iff.2 ⟨hA, hB⟩)
    rw [hzero]
    exact (BitVec.or_eq_zero_iff.1 hzero).1
  · simp only [hblank, if_false, Bool.false_eq_true]
    change (cellOf (otpInsert d s.otp.words) _).read 0 0 = _ ∧ ∀ p, _ → cellOf (otpInsert d s.otp.words) p = _
    simp only [cellOf_insert, hrow, if_true]
    exact ⟨hread, fun p hp => if_neg hp⟩

/-! ### The word of a burn (R484) -/

theorem otpFlag_frame (fw : Bool) (w : Nat) (isWeak : Bool) (s : State) :
    { otpFlag fw w isWeak s with otp := s.otp, flt := s.flt } = s ∧
    { (otpFlag fw w isWeak s).otp with weak := s.otp.weak } = s.otp := by
  unfold otpFlag
  dsimp only
  split
  · split
    · exact ⟨rfl, rfl⟩
    · exact ⟨rfl, rfl⟩
  · exact ⟨rfl, rfl⟩

theorem burnEnd_frame (b : Burn) (failed : Bool) (s : State) : { burnEnd b failed s with otp := s.otp, mci := s.mci } = s ∧
    { (burnEnd b failed s).otp with burn := s.otp.burn, windowLeft := s.otp.windowLeft, found := s.otp.found } = s.otp := by
  have hcomplete (status : Nat) (p : List Byte) (u : State) (h : { u with otp := s.otp } = s)
      (h' : { u.otp with burn := s.otp.burn, windowLeft := s.otp.windowLeft, found := s.otp.found } = s.otp) :
      { complete b.ctx status p u with otp := s.otp, mci := s.mci } = s ∧
      { (complete b.ctx status p u).otp with burn := s.otp.burn, windowLeft := s.otp.windowLeft, found := s.otp.found } = s.otp := by
    have hframe := complete_frame b.ctx status p u
    refine ⟨?_, ?_⟩
    · refine (congrArg (fun v : State => { v with otp := s.otp, mci := s.mci }) hframe).trans ?_
      exact (congrArg (fun v : State => { v with mci := s.mci }) h)
    · rw [(congrArg State.otp hframe :)]
      exact h'
  unfold burnEnd
  dsimp only
  split
  · exact hcomplete _ _ _ rfl rfl
  · split
    · exact hcomplete _ _ _ rfl rfl
    · exact hcomplete _ _ _ rfl rfl

/-- The array reads as before, and no time has passed. -/
def SameCells (s t : State) : Prop :=
  t.otp.words = s.otp.words ∧ t.otp.redirects = s.otp.redirects ∧ t.part = s.part ∧ t.time = s.time

theorem SameCells.trans {s t u : State} (h : SameCells s t) (g : SameCells t u) : SameCells s u := by
  obtain ⟨hwords, hredirects, hpart, htime⟩ := h
  obtain ⟨gwords, gredirects, gpart, gtime⟩ := g
  exact ⟨gwords.trans hwords, gredirects.trans hredirects, gpart.trans hpart, gtime.trans htime⟩

theorem sameCells_ite {s t u : State} (c : Prop) [Decidable c] (h : SameCells s t) (g : SameCells s u) :
    SameCells s (if c then t else u) := by
  split
  · exact h
  · exact g

theorem sameCells_presentFw (good : Prop) [Decidable good] (source : Nat) (unit : Option Nat) (s : State) :
    SameCells s (if good then s else presentFw source unit 0 s) := by
  split
  · exact ⟨rfl, rfl, rfl, rfl⟩
  · exact ⟨rfl, rfl, rfl, rfl⟩

theorem sameCells_otpFlag (fw : Bool) (w : Nat) (isWeak : Bool) (s : State) : SameCells s (otpFlag fw w isWeak s) := by
  obtain ⟨hstate, hotp⟩ := otpFlag_frame fw w isWeak s
  exact ⟨(congrArg Otp.words hotp :), (congrArg Otp.redirects hotp :), (congrArg State.part hstate :), (congrArg State.time hstate :)⟩

theorem sameCells_burnEnd (b : Burn) (failed : Bool) (s : State) : SameCells s (burnEnd b failed s) := by
  obtain ⟨hstate, hotp⟩ := burnEnd_frame b failed s
  exact ⟨(congrArg Otp.words hotp :), (congrArg Otp.redirects hotp :), (congrArg State.part hstate :), (congrArg State.time hstate :)⟩

/-- The verification of a word, its flag and the end of the burn leave the array as it was programmed. -/
theorem burnWord_effect (r : BurnRead) (b : Burn) (w : Nat) (v : BitVec 32) (rest : List (Nat × BitVec 32)) (s : State)
    (hup : s.coreUp supervisorCore = true) (hburn : s.otp.burn = some b) (htodo : b.todo = (w, v) :: rest) :
    ∃ t, exec (.otpBurnWordDone r) s = .next t ∧ SameCells
      (otpProgram w v r.normal r.margin (s.waitFrom b.wordAt ((if r.again then 536 else 274) * (ticksPerMs / 1000)))) t := by
  change ∃ t, execOtpBurnWordDone r s = _ ∧ _
  unfold execOtpBurnWordDone
  simp only [hup, Bool.not_true, Bool.false_eq_true, if_false, hburn, htodo]
  generalize otpProgram w v r.normal r.margin
    (s.waitFrom b.wordAt ((if r.again then 536 else 274) * (ticksPerMs / 1000))) = u
  refine ⟨_, rfl, ?_⟩
  have hflag := (sameCells_presentFw (otpRaw u 0 w = v) 0x02A3 (some b.region) u).trans
    (sameCells_otpFlag true w (otpMargin u w) _)
  simp only [decide_eq_true_eq]
  refine hflag.trans (sameCells_ite _ ?_ ⟨rfl, rfl, rfl, rfl⟩)
  refine SameCells.trans ?_ (sameCells_burnEnd ..)
  exact ⟨rfl, rfl, rfl, rfl⟩

theorem burnWordDone (r : BurnRead) (b : Burn) (w : Nat) (v : BitVec 32) (rest : List (Nat × BitVec 32)) (s : State)
    (hup : s.coreUp supervisorCore = true) (hburn : s.otp.burn = some b) (htodo : b.todo = (w, v) :: rest) :
    ∃ t, exec (.otpBurnWordDone r) s = .next t ∧ otpRaw t 0 w = otpRaw s 0 w ||| r.normal ∧
      t.time = (s.waitFrom b.wordAt ((if r.again then 536 else 274) * (ticksPerMs / 1000))).time ∧
      (∀ p, p ≠ otpPlace s w → otpCell t p = otpCell s p) := by
  obtain ⟨t, ht, hwords, hredirects, hpart, htime⟩ := burnWord_effect r b w v rest s hup hburn htodo
  have hframe := advanceTo_frame s (s.time.toNat + ((((if r.again then 536 else 274) * (ticksPerMs / 1000) : Nat) : Int) -
    ticksSince b.wordAt s.time).toNat)
  change { s.waitFrom b.wordAt _ with atoll := s.atoll, time := s.time, sync := s.sync } = s at hframe
  generalize s.waitFrom b.wordAt _ = u at hwords hredirects hpart htime hframe ⊢
  have hupart : u.part = s.part := (congrArg State.part hframe :)
  have huotp : u.otp = s.otp := (congrArg State.otp hframe :)
  have hplace : otpPlace u w = otpPlace s w := otpPlace_congr hupart (by rw [huotp]) w
  have hcell (p : Nat) : otpCell u p = otpCell s p := otpCell_congr (by rw [huotp]) p
  obtain ⟨hread, hother⟩ := otpProgram_cells w v r.normal r.margin u
  refine ⟨t, ht, ?_, htime, fun p hp => ?_⟩
  · unfold otpRaw
    rw [otpCell_congr hwords, otpPlace_congr (hpart.trans (show _ = u.part from rfl)) (hredirects.trans (show _ = u.otp.redirects from rfl)),
      hread, hplace, hcell]
  · rw [otpCell_congr hwords, hother p (by rw [hplace]; exact hp), hcell]

/-! ### Margin reads and the start-up check -/

theorem foldl_otpFlag_frame (ws : List Nat) (s : State) :
    { ws.foldl (fun s v => otpFlag true v true s) s with otp := s.otp, flt := s.flt } = s ∧
    { (ws.foldl (fun s v => otpFlag true v true s) s).otp with weak := s.otp.weak } = s.otp := by
  induction ws generalizing s with
  | nil => exact ⟨rfl, rfl⟩
  | cons w ws ih =>
    obtain ⟨hstate, hotp⟩ := otpFlag_frame true w true s
    obtain ⟨istate, iotp⟩ := ih (otpFlag true w true s)
    exact ⟨(congrArg (fun u : State => { u with otp := s.otp, flt := s.flt }) istate).trans hstate,
      (congrArg (fun x : Otp => { x with weak := s.otp.weak }) iotp).trans hotp⟩

theorem mem_upsert (n m : Nat) (l : List Nat) : m ∈ upsert n l ↔ m = n ∨ m ∈ l := by
  induction l with
  | nil => simp [upsert]
  | cons k l ih =>
    unfold upsert
    split
    · simp
    · split
      · next h => simp [h]
      · rw [List.mem_cons, ih, List.mem_cons]
        tauto

theorem otpFlag_weak (w : Nat) (s : State) : (otpFlag true w true s).otp.weak = upsert w s.otp.weak := by
  unfold otpFlag
  dsimp only
  split
  · split <;> rfl
  · next h => exact absurd rfl h

theorem foldl_otpFlag_weak (ws : List Nat) (s : State) (w : Nat) (h : w ∈ ws ∨ w ∈ s.otp.weak) :
    w ∈ (ws.foldl (fun s v => otpFlag true v true s) s).otp.weak := by
  induction ws generalizing s with
  | nil => simpa using h
  | cons v ws ih =>
    refine ih (otpFlag true v true s) ?_
    rw [otpFlag_weak, mem_upsert]
    rcases h with h | h
    · rcases List.mem_cons.1 h with rfl | h
      · exact Or.inr (Or.inl rfl)
      · exact Or.inl h
    · exact Or.inr (Or.inr h)

/-- Raises leave all but what waits to be recorded. -/
theorem foldl_present_frame {α : Type} (f : State → α → State) (hf : ∀ s x, { f s x with flt := s.flt } = s) (l : List α) (s : State) :
    { l.foldl f s with flt := s.flt } = s := by
  induction l generalizing s with
  | nil => rfl
  | cons x l ih => exact (congrArg (fun u : State => { u with flt := s.flt }) (ih (f s x))).trans (hf s x)

theorem otpCheck_frame (s : State) : { otpCheck s with otp := s.otp, flt := s.flt } = s ∧ (otpCheck s).otp.words = s.otp.words ∧
    (otpCheck s).otp.weak = (List.range 2048).filter (otpMargin s) ∧
    (otpCheck s).otp.found = (List.range 8).map (otpCheckRegion s) ∧ (otpCheck s).otp.checked = true := by
  have hraise (r : Nat → Option Nat) (s : State) (k : Nat) : { (match r k with
      | some q => present q (some k) 0 s
      | none => s : State) with flt := s.flt } = s := by
    split <;> rfl
  have hlast (c : Prop) [Decidable c] (s : State) : { (if c then present 0x0227 none 0 s else s) with flt := s.flt } = s := by
    split <;> rfl
  generalize hchecked : ({ s with otp := { s.otp with
    weak := (List.range 2048).filter (otpMargin s)
    found := (List.range 8).map (otpCheckRegion s)
    checked := true
    spiOff := decide (at' ((List.range 8).map (otpCheckRegion s)) 3 .blank = .invalid) || (otpRaw s 0 353).getLsbD 0
    pushOff := decide (at' ((List.range 8).map (otpCheckRegion s)) 3 .blank = .invalid) || (otpRaw s 0 353).getLsbD 1 } } : State) = u
  have hframe : { otpCheck s with flt := u.flt } = u := by
    unfold otpCheck
    dsimp only
    rw [hchecked]
    generalize (List.range 2048).filter (otpMargin s) = weak
    refine (congrArg (fun v : State => { v with flt := u.flt }) (hlast
      (at' ((List.range 8).map (otpCheckRegion s)) 0 .blank = .invalid) _)).trans ?_
    refine (congrArg (fun v : State => { v with flt := u.flt }) (foldl_present_frame _ (hraise _) _ _)).trans ?_
    exact foldl_present_frame (fun s w => present 0x02A2 (some (otpRegion w)) 0 s) (fun _ _ => rfl) weak u
  rw [(congrArg State.otp hframe :)]
  refine ⟨(congrArg (fun v : State => { v with otp := s.otp, flt := s.flt }) hframe).trans ?_, ?_⟩
  · rw [← hchecked]
  · rw [← hchecked]
    refine ⟨rfl, ?_, ?_, rfl⟩
    · dsimp only
    · dsimp only

/-! ### Commands -/

/-- A burn that nothing forbids is accepted; a locked region and a cleared bit turn it away (R484). -/
theorem execOtpBurn_checked (rq : Req) (s : State) (hs : served 0x1503 rq s = true) (hkey : rq.u32 0 = 0x4255524E)
    (hn : 1 ≤ rq.u8 6) (hn' : rq.u8 6 ≤ 16) (hfit : rq.u16 4 + rq.u8 6 ≤ 2048)
    (hregion : otpRegion (rq.u16 4 + rq.u8 6 - 1) = otpRegion (rq.u16 4))
    (hwords : ∀ p ∈ burnWords rq, p.1 < otpLockWord (otpRegion p.1)) (hburn : s.otp.burn = none) (hwin : otpWindow s = true) :
    (otpLocked s (otpRegion (rq.u16 4)) = true → exec (.otpBurn rq) s = .next (respond rq 0x1503 0x9501 [] s)) ∧
    (otpLocked s (otpRegion (rq.u16 4)) = false → (∃ p ∈ burnWords rq, otpRaw s 0 p.1 &&& ~~~p.2 ≠ 0) →
      exec (.otpBurn rq) s = .next (respond rq 0x1503 0x9502 [] s)) ∧
    (otpLocked s (otpRegion (rq.u16 4)) = false → (∀ p ∈ burnWords rq, otpRaw s 0 p.1 &&& ~~~p.2 = 0) →
      ∃ b, exec (.otpBurn rq) s =
          .next (accept rq 0x1503 [] { s with otp := { s.otp with burn := some b, windowLeft := false } }) ∧
        b.todo = burnWords rq ∧ b.ctx = rq.ctx s 0x1503 ∧ b.region = otpRegion (rq.u16 4)) := by
  have hout : (decide (2048 < rq.u16 4 + rq.u8 6) || decide (2048 ≤ rq.u16 4)) = false := by
    rw [Bool.or_eq_false_iff, decide_eq_false_iff_not, decide_eq_false_iff_not]
    omega
  have hlock : ((burnWords rq).any fun p => decide (otpLockWord (otpRegion p.1) ≤ p.1)) = false :=
    List.any_eq_false.2 fun p hp => by simpa using hwords p hp
  have hvalue : (decide (rq.u32 0 ≠ 0x4255524E) || decide (rq.u8 6 < 1) || decide (16 < rq.u8 6) ||
      decide (otpRegion (rq.u16 4 + rq.u8 6 - 1) ≠ otpRegion (rq.u16 4)) ||
      (burnWords rq).any fun p => decide (otpLockWord (otpRegion p.1) ≤ p.1)) = false := by
    rw [hlock]
    simp [hkey, hregion, not_lt.2 hn']
    omega
  refine ⟨fun hlocked => ?_, fun hlocked hclear => ?_, fun hlocked hkeep => ?_⟩
  · change execOtpBurn rq s = _
    unfold execOtpBurn
    refine command_turned_away 0x1503 rq _ _ s true _ hs ?_
    simp only [hout, hvalue, hburn, hwin, hlocked]
    rfl
  · have hany : ((burnWords rq).any fun p => decide (otpRaw s 0 p.1 &&& ~~~p.2 ≠ 0)) = true := by
      obtain ⟨p, hp, hbits⟩ := hclear
      exact List.any_eq_true.2 ⟨p, hp, decide_eq_true hbits⟩
    change execOtpBurn rq s = _
    unfold execOtpBurn
    refine command_turned_away 0x1503 rq _ _ s true _ hs ?_
    simp only [hout, hvalue, hburn, hwin, hlocked, hany]
    rfl
  · have hany : ((burnWords rq).any fun p => decide (otpRaw s 0 p.1 &&& ~~~p.2 ≠ 0)) = false :=
      List.any_eq_false.2 fun p hp => by simpa using hkeep p hp
    change ∃ b, execOtpBurn rq s = _ ∧ _
    unfold execOtpBurn
    refine ⟨_, command_pass 0x1503 rq _ _ s hs ?_, rfl, rfl, rfl⟩
    simp only [List.forall_mem_cons, hout, hvalue, hburn, hwin, hlocked, hany, Option.isSome_none, Bool.not_true,
      List.not_mem_nil, false_imp_iff, implies_true, and_self]

/-- Settles O56: the word by `burnWordDone`, the check by `otpCheck_frame`; the commands by their checks and layouts. -/
theorem otpIsReadAndBurned : Obligations.OtpIsReadAndBurned := by
  unfold Obligations.OtpIsReadAndBurned
  refine ⟨burnWordDone, ?_, ?_, ?_, ?_, ?_, ?_, ?_, ?_, ?_, ?_, ?_, ?_⟩
  · intro r s hidle
    change execOtpBurnWordDone r s = _
    unfold execOtpBurnWordDone
    rcases hidle with hidle | hidle
    · simp [hidle]
    · simp [hidle]
  · intro rq s hs w n hkey hn hn' hfit hregion hwords hburn hwin
    exact execOtpBurn_checked rq s hs hkey hn hn' hfit hregion hwords hburn hwin
  · intro rq s hs r hr hkey hburn hlocked hheader hen hwin hwords
    have hany : ((digestWords r (otpDigest s 0 r)).any fun p => decide (otpRaw s 0 p.1 &&& ~~~p.2 ≠ 0)) = false :=
      List.any_eq_false.2 fun p hp => by simpa using hwords p hp
    have hover : (s.otp.addr.zipIdx.any fun p => s.otp.en.getLsbD p.2 && decide (otpRegion p.1.toNat = r)) = false :=
      List.any_eq_false.2 fun p hp => by simp [hen]
    change ∃ b, execOtpFinalise rq s = _ ∧ _
    unfold execOtpFinalise
    refine ⟨_, command_pass 0x1504 rq _ _ s hs ?_, rfl, rfl⟩
    simp only [List.forall_mem_cons]
    exact ⟨decide_eq_false (not_le.2 hr), by simp [hkey], by simp [hburn], hlocked, congrArg not hheader,
      Bool.or_eq_false_iff.2 ⟨hover, congrArg not hwin⟩, hany, List.forall_mem_nil _⟩
  · intro rq s hs hr hburn hstate hwin
    have hchecks : ∀ c ∈ [(decide (8 ≤ rq.u8 0), Status.outOfRange), (s.otp.burn.isSome, Status.busy),
        (decide (otpState s (rq.u8 0) = .invalid) || !otpWindow s, Status.state)], c.1 = false := by
      simp [hr, hburn, hstate, hwin]
    refine ⟨fun hwords => ?_, fun hwords => ?_⟩
    · change ∃ b, execOtpStrengthen rq s = _ ∧ _
      unfold execOtpStrengthen
      refine ⟨{ kind := 2, ctx := rq.ctx s 0x1505, region := rq.u8 0, todo := strengthenWords s (rq.u8 0), burned := 0,
                weak := 0, firstFail := none, digest := [], wordAt := s.time },
        (command_pass 0x1505 rq _ _ s hs hchecks).trans ?_, rfl⟩
      dsimp only
      rw [if_neg hwords]
    · change ∃ t, execOtpStrengthen rq s = _ ∧ _
      unfold execOtpStrengthen
      refine ⟨_, command_pass 0x1505 rq _ _ s hs hchecks, ?_⟩
      dsimp only
      rw [if_pos hwords]
      have hpaid (b : Burn) (u : State) (hu : u.otp = { s.otp with burn := some b, windowLeft := false }) (hkind : b.kind = 2) :
          (burnEnd b false u).otp = { s.otp with windowLeft := false } := by
        unfold burnEnd
        simp only [hkind, OfNat.ofNat_ne_zero, if_false, show ¬ (2 : Nat) = 1 by omega]
        rw [(congrArg State.otp (complete_frame ..) :), hu, ← hburn]
      exact hpaid _ _ (congrArg State.otp (respond_frame ..) :) rfl
  · intro rq s hs hn hn' hfit
    change ∃ p, execOtpRead rq s = _ ∧ _
    unfold execOtpRead
    refine ⟨_, command_pass 0x1502 rq _ _ s hs (by simp [not_lt.2 hn', not_lt.2 hfit]; omega), ?_, fun k hk => ?_⟩
    · rw [List.length_append, length_flatMap_const 4 _ (fun _ => length_leBytes ..)]
      simp
    · rw [leAt_right _ _ _ _ (by simp)]
      refine (congrArg (fun o => leAt _ o 4) (show _ = 4 * k + 0 by simp)).trans ?_
      rw [leAt_flatMap 4 _ (fun _ => length_leBytes ..) _ _ _ _ (by simpa using hk) (by omega), leAt_leBytes]
      simp only [List.getElem_map, List.getElem_range]
      exact Nat.mod_eq_of_lt (BitVec.isLt _)
  · intro rq s hs hn hn' hfit href href' hcopy hpart
    change ∃ p, execOtpMarginRead rq s = _ ∧ _
    unfold execOtpMarginRead
    simp only [href', if_false, List.foldl_nil]
    refine ⟨_, command_pass 0x1580 rq _ _ s hs ?_, ?_, fun k hk => ?_⟩
    · simp only [List.forall_mem_cons]
      refine ⟨?_, ?_, List.forall_mem_nil _⟩
      · simp [not_lt.2 hn', not_lt.2 hfit]
        omega
      · simpa [not_lt.2 href, not_lt.2 hcopy] using hpart
    · rw [length_flatMap_const 4 _ (fun _ => length_leBytes ..)]
      simp
    · refine (congrArg (fun o => leAt _ o 4) (show _ = 4 * k + 0 by simp)).trans ?_
      rw [leAt_flatMap 4 _ (fun _ => length_leBytes ..) _ _ _ _ (by simpa using hk) (by omega), leAt_leBytes]
      simp only [List.getElem_map, List.getElem_range]
      exact Nat.mod_eq_of_lt (BitVec.isLt _)
  · intro rq s hs hn hn' hfit href hcopy
    change ∃ t p, execOtpMarginRead rq s = _ ∧ _
    unfold execOtpMarginRead
    simp only [href, hcopy, if_true]
    refine ⟨_, _, command_pass 0x1580 rq _ _ s hs (by simp [not_lt.2 hn', not_lt.2 hfit]; omega),
      (congrArg Otp.words (foldl_otpFlag_frame _ s).2 :), fun k hk hmargin => ?_⟩
    refine foldl_otpFlag_weak _ s _ (Or.inl (List.mem_filter.2 ⟨List.mem_map.2 ⟨k, List.mem_range.2 hk, rfl⟩, ?_⟩))
    exact decide_eq_true (of_decide_eq_true hmargin).symm
  · intro rq s hs
    change ∃ p, execOtpStatus rq s = _ ∧ _
    unfold execOtpStatus
    have hentry (r : Nat) : (regionEntry s r).length = 8 := by simp [regionEntry]
    refine ⟨_, command_pass 0x1501 rq _ _ s hs (List.forall_mem_nil _), ?_, fun r hr => ?_, ?_⟩
    · simp only [List.length_append, length_flatMap_const 8 _ hentry]
      simp
    · rw [List.append_assoc, leAt_left _ _ _ _ (by rw [length_flatMap_const 8 _ hentry]; simp; omega)]
      refine (congrArg (fun o => leAt _ o 1) (show _ = 8 * r + 0 by simp)).trans ?_
      rw [leAt_flatMap 8 _ hentry _ _ _ _ (by simpa using hr) (by omega), List.getElem_range]
      unfold regionEntry
      simp only [List.append_assoc]
      rw [leAt_left _ _ _ _ (by simp), leAt_leBytes]
      refine Nat.mod_eq_of_lt ?_
      cases otpState s r <;> decide
    · rw [List.append_assoc, leAt_right _ _ _ _ (by rw [length_flatMap_const 8 _ hentry]; simp),
        length_flatMap_const 8 _ hentry, leAt_left _ _ _ _ (by simp)]
      exact leAt_count _
  · intro rq s hs halign hn hn' hfit
    change ∃ p, execOtpShadowRead rq s = _ ∧ _
    unfold execOtpShadowRead
    refine ⟨_, command_pass 0x1506 rq _ _ s hs (by simp [halign, not_lt.2 hn', not_lt.2 hfit]; omega), ?_⟩
    rw [length_flatMap_const 4 _ (fun _ => length_leBytes ..), List.length_range]
  · intro rq s hs halign hfit
    change execOtpShadowWrite rq s = _
    unfold execOtpShadowWrite
    by_cases hforbid : shadowForbidden s (shadowWrite s.otp (rq.u8 0) (rq.u32 4)) = true
    · rw [if_pos hforbid]
      exact command_turned_away 0x1507 rq _ _ s true _ hs (by simp [halign, not_le.2 hfit, hforbid])
    · rw [if_neg hforbid]
      exact command_pass 0x1507 rq _ _ s hs (by simp [halign, not_le.2 hfit, hforbid])
  · intro s hruns hst hchecked
    have hframe := advanceTo_frame s (otpCheckMicros s * (ticksPerMs / 1000))
    have hexec : execOtpStartupCheckDone s = .next (otpCheck (s.advanceTo (otpCheckMicros s * (ticksPerMs / 1000)))) := by
      simp [execOtpStartupCheckDone, hruns, hst, hchecked]
    generalize s.advanceTo (otpCheckMicros s * (ticksPerMs / 1000)) = u at hframe hexec ⊢
    have hotp : u.otp = s.otp := (congrArg State.otp hframe :)
    have hflt : u.flt = s.flt := (congrArg State.flt hframe :)
    have hregion (r : Nat) : otpCheckRegion u r = otpCheckRegion s r := (congrArg (fun v : State => otpCheckRegion v r) hframe :)
    have hmargin (w : Nat) : otpMargin u w = otpMargin s w := (congrArg (fun v : State => otpMargin v w) hframe :)
    obtain ⟨hrest, hwords, hweak, hfound, hchecked⟩ := otpCheck_frame u
    refine ⟨otpCheck u, hexec, hchecked, by rw [hwords, hotp], ?_, fun w => ?_, ?_⟩
    · rw [hfound]
      exact List.map_congr_left fun r _ => hregion r
    · rw [hweak, List.mem_filter, List.mem_range, hmargin]
    · rw [← hotp, ← hflt]
      exact hrest
  · intro s hno
    change execOtpStartupCheckDone s = _
    unfold execOtpStartupCheckDone
    rcases hno with hno | hno | hno
    · simp [hno]
    · simp [hno]
    · simp [hno]

end Sys2Proof.Machine
end

section
/-!
PROOFS. DRAM refresh, scrub, row counters, errors and logs (spec/13_dram_ecc.md): `DramIsKept`.
-/
namespace Sys2Proof.Machine

open Sys2Proof

/-! ### What a word's check finds does not change as its row is opened -/

theorem RowsMove.wrong {s t : State} (h : RowsMove s t) (w upset : Nat) : t.dram.wrong w upset = s.dram.wrong w upset := by
  unfold Dram.wrong
  have herrs : t.dram.errs = s.dram.errs := (congrArg Dram.errs h.dram :)
  have hpoison : t.dram.poison = s.dram.poison := (congrArg Dram.poison h.dram :)
  rw [herrs, hpoison]

theorem RowsMove.newerWrite {s t : State} (h : RowsMove s t) (w : Nat) : newerWrite t w = newerWrite s w := by
  unfold Machine.newerWrite
  have hmerge : t.dram.merge = s.dram.merge := (congrArg Dram.merge h.dram :)
  have hqueues : t.dram.queues = s.dram.queues := (congrArg Dram.queues h.dram :)
  rw [hmerge, hqueues]

theorem wrong_clean (d : Dram) (w : Nat) (herrs : d.errs = []) (hpoison : d.poison = []) : d.wrong w 0 = 0 := by
  simp [Dram.wrong, herrs, hpoison]

/-- A word that its read finds right: its row is opened, and nothing more. -/
theorem checkWord_right (told : Bool) (requester w upset : Nat) (s : State) (h : s.dram.wrong w upset = 0) :
    checkWord told requester w upset s = (true, openRow requester w s) := by
  unfold checkWord
  dsimp only
  rw [(rowsMove_openRow requester w s).wrong, if_pos h]

theorem checkWord_single (told : Bool) (requester w upset : Nat) (s : State) (h : s.dram.wrong w upset = 1) :
    checkWord told requester w upset s = (true, dramCorrected w requester (openRow requester w s)) := by
  unfold checkWord
  dsimp only
  rw [(rowsMove_openRow requester w s).wrong, if_neg (by omega), if_pos h]

theorem checkWord_double (told : Bool) (requester w upset : Nat) (s : State) (h : 2 ≤ s.dram.wrong w upset) :
    checkWord told requester w upset s = (false, dramUncorrectable told w requester (openRow requester w s)) := by
  unfold checkWord
  dsimp only
  rw [(rowsMove_openRow requester w s).wrong, if_neg (by omega), if_neg (by omega)]

/-! ### A core that reads an uncorrectable word -/

theorem stopCore_holds (core : Nat) (s : State) (hc : core ≤ 8) : (stopCore core s).held.getLsbD core = true := by
  unfold stopCore
  split
  · assumption
  · change (s.held ||| (1#9 <<< core)).getLsbD core = true
    simp
    omega

theorem stopCore_uncorr (core : Nat) (s : State) : (stopCore core s).dram.uncorr = s.dram.uncorr := by
  unfold stopCore
  split <;> rfl

theorem dramUncorrectable_counts (told : Bool) (w requester : Nat) (s : State) :
    (dramUncorrectable told w requester s).dram.uncorr = s.dram.uncorr.inc := by
  unfold dramUncorrectable
  dsimp only
  split <;> split
  · exact stopCore_uncorr ..
  · exact stopCore_uncorr ..
  · rfl
  · rfl

theorem dramUncorrectable_stops (w core : Nat) (s : State) (hc : core ≤ 8) :
    (dramUncorrectable true w core s).held.getLsbD core = true := by
  unfold dramUncorrectable
  simp only [Bool.true_and, decide_eq_true_eq, if_pos hc]
  exact stopCore_holds core _ hc

theorem dramUncorrectable_untold (w requester : Nat) (s : State) : (dramUncorrectable false w requester s).held = s.held := rfl

/-! ### The scrub and the commands -/

/-- A scrub step on a word that is right, from a state at its time: the row is opened unless the word is skipped. -/
theorem scrubWord_right (w : Nat) (u : State) (herrs : u.dram.errs = []) (hpoison : u.dram.poison = []) :
    (checkWord true 58 w 0 u).2 = openRow 58 w u := by
  rw [checkWord_right true 58 w 0 u (wrong_clean _ _ herrs hpoison)]

/-- The scrub's place and pass do not change as a row is opened. -/
theorem RowsMove.scrub {s t : State} (h : RowsMove s t) :
    t.dram.scrubAt = s.dram.scrubAt ∧ t.dram.passes = s.dram.passes ∧ t.dram.scrubFrom = s.dram.scrubFrom ∧
      t.dram.hours = s.dram.hours ∧ t.dram.hoursNext = s.dram.hoursNext :=
  ⟨(congrArg Dram.scrubAt h.dram :), (congrArg Dram.passes h.dram :), (congrArg Dram.scrubFrom h.dram :),
    (congrArg Dram.hours h.dram :), (congrArg Dram.hoursNext h.dram :)⟩

theorem execDramPatrolScrubStep_right (s : State) (herrs : s.dram.errs = []) (hpoison : s.dram.poison = [])
    (husable : s.dram.cfg.usable ≠ 0) (hrun : s.dram.stopped = false) :
    let span := s.dram.hours * 3600 * ticksPerSecond
    let u := s.advanceTo (s.dram.scrubFrom.toNat + s.dram.scrubAt * span / rawWords s)
    let last := rawWords s ≤ s.dram.scrubAt + 1
    let w := s.dram.scrubAt * 8
    let v := if s.dram.cfg.usable ≤ w ∨ (s.dram.merge.any fun e => e.block = w / 64) = true then u else openRow 58 w u
    execDramPatrolScrubStep 0 s = .next { v with dram := { v.dram with
      scrubAt := if last then 0 else s.dram.scrubAt + 1, passes := if last then s.dram.passes + 1 else s.dram.passes,
      scrubFrom := if last then s.dram.scrubFrom + BitVec.ofNat 64 span else s.dram.scrubFrom,
      hours := if last then s.dram.hoursNext.getD s.dram.hours else s.dram.hours,
      hoursNext := if last then none else s.dram.hoursNext } } := by
  unfold execDramPatrolScrubStep
  rw [if_neg (by simp [hrun, husable])]
  dsimp only
  generalize s.dram.hours * 3600 * ticksPerSecond = span
  have hu := dram_advanceTo s (s.dram.scrubFrom.toNat + s.dram.scrubAt * span / rawWords s)
  generalize s.advanceTo (s.dram.scrubFrom.toNat + s.dram.scrubAt * span / rawWords s) = u at hu ⊢
  rw [hu, scrubWord_right _ u (hu ▸ herrs) (hu ▸ hpoison)]
  by_cases hskip : s.dram.cfg.usable ≤ s.dram.scrubAt * 8 ∨ (s.dram.merge.any fun e => e.block = s.dram.scrubAt * 8 / 64) = true
  · have hskip' : (decide (s.dram.cfg.usable ≤ s.dram.scrubAt * 8) ||
        s.dram.merge.any fun e => e.block = s.dram.scrubAt * 8 / 64) = true := by simpa using hskip
    rw [if_pos hskip, if_pos hskip', hu]
  · have hskip' : ¬ (decide (s.dram.cfg.usable ≤ s.dram.scrubAt * 8) ||
        s.dram.merge.any fun e => e.block = s.dram.scrubAt * 8 / 64) = true := by simpa using hskip
    obtain ⟨hat, hpasses, hfrom, hhours, hnext⟩ := (rowsMove_openRow 58 (s.dram.scrubAt * 8) u).scrub
    rw [if_neg hskip, if_neg hskip', hat, hpasses, hfrom, hhours, hnext, hu]

theorem execDramRefresh_runs (channel : Nat) (s : State) (hrun : s.dram.stopped = false) :
    execDramRefresh channel s = .next (refresh channel (s.advanceTo ((at' s.dram.refreshAt channel 0).toNat + 3120))) := by
  unfold execDramRefresh
  rw [hrun]
  rfl

/-! ### The logs and the status -/

theorem execDramStatus_reply (rq : Req) (s : State) (hs : served 0x0B04 rq s = true) :
    ∃ p, execDramStatus rq s = .next (respond rq 0x0B04 Status.ok p s) ∧ p.length = 48 ∧
    leAt p 8 4 = s.dram.corrected.n ∧ leAt p 12 4 = s.dram.uncorr.n ∧ leAt p 16 8 = s.dram.lastUncorr.toNat ∧
    leAt p 24 4 = s.dram.throttles.n ∧ leAt p 36 4 = s.dram.poisoned.n := by
  have hlast := s.dram.lastUncorr.isLt
  unfold execDramStatus
  refine ⟨_, command_pass 0x0B04 rq _ _ s hs (List.forall_mem_nil _), by simp, ?_, ?_, ?_, ?_, ?_⟩
  all_goals
    simp only [List.append_assoc]
    simp [leAt_left, leAt_right, leAt_leBytes, leAt_count]
  omega

theorem execDramEccLog_reply (rq : Req) (s : State) (hs : served 0x0B05 rq s = true) (hclear : rq.u8 0 ≤ 1) :
    ∃ p, execDramEccLog rq s = .next (respond rq 0x0B05 Status.ok p
        (if rq.u8 0 = 1 then { s with dram := { s.dram with log := [], logOver := {} } } else s)) ∧
      leAt p 0 4 = s.dram.logOver.n ∧ leAt p 4 1 = min 13 s.dram.log.length := by
  unfold execDramEccLog
  refine ⟨_, command_pass 0x0B05 rq _ _ s hs (by simp [hclear]), by simp [leAt_left, leAt_count], ?_⟩
  simp only [List.append_assoc]
  simp [leAt_left, leAt_right, leAt_leBytes]

theorem execDramRowlog_reply (rq : Req) (s : State) (hs : served 0x0B06 rq s = true) (hclear : rq.u8 0 ≤ 1) :
    ∃ p, execDramRowlog rq s = .next (respond rq 0x0B06 Status.ok p
        (if rq.u8 0 = 1 then { s with dram := { s.dram with rowLog := [], rowOver := {} } } else s)) ∧
      leAt p 0 4 = s.dram.rowOver.n ∧ leAt p 4 1 = min 13 s.dram.rowLog.length := by
  unfold execDramRowlog
  refine ⟨_, command_pass 0x0B06 rq _ _ s hs (by simp [hclear]), by simp [leAt_left, leAt_count], ?_⟩
  simp only [List.append_assoc]
  simp [leAt_left, leAt_right, leAt_leBytes]

theorem execDramEccInject_waits (rq : Req) (s : State) (hs : served 0x0B82 rq s = true) (haddr : rq.u64 0 < 2 ^ 48)
    (halign : rq.u64 0 % 8 = 0) (hbits : rq.u8 8 = 1 ∨ rq.u8 8 = 2) (husable : rq.u64 0 < s.dram.cfg.usable) :
    execDramEccInject rq s = .next (respond rq 0x0B82 Status.ok [] { s with dram := { s.dram with
      inject := (rq.u64 0, rq.u8 8) :: s.dram.inject.filter fun p => p.1 ≠ rq.u64 0 } }) := by
  unfold execDramEccInject
  refine command_pass 0x0B82 rq _ _ s hs ?_
  simp only [List.forall_mem_cons]
  refine ⟨?_, by simpa using husable, List.forall_mem_nil _⟩
  rw [decide_eq_false (not_le.2 haddr)]
  rcases hbits with h | h <;> simp [h, halign]

/-- Settles O40: the words by `checkWord_single` and `checkWord_double`, the scrub by `execDramPatrolScrubStep_right`. -/
theorem dramIsKept : Obligations.DramIsKept := by
  unfold Obligations.DramIsKept
  refine ⟨?_, ?_, ?_, fun channel s => rfl, ?_, fun s => execDramPatrolScrubStep_right s, ?_, ?_, ?_,
    fun rq s hs => execDramStatus_reply rq s hs, ?_, ?_, fun rq s hs => execDramEccInject_waits rq s hs⟩
  · intro channel s due u at_ hrun
    refine (execDramRefresh_runs channel s hrun).trans ?_
    unfold refresh
    dsimp only
    rw [dram_advanceTo]
  · intro channel upset rs s hstopped
    refine ⟨?_, ?_, ?_⟩
    · change execDramRefresh channel s = _
      unfold execDramRefresh
      rw [if_pos hstopped]
    · change execDramRequestIssue channel rs s = _
      unfold execDramRequestIssue
      rw [hstopped]
      rfl
    · change execDramPatrolScrubStep upset s = _
      unfold execDramPatrolScrubStep
      rw [hstopped]
      rfl
  · exact fun channel code s => ⟨rfl, rfl⟩
  · intro s u
    change execRowWindowStart s = _
    unfold execRowWindowStart
    dsimp only
    rw [dram_advanceTo]
  · intro w core s hc hup r
    have hwrong : 2 ≤ s.dram.wrong w 2 := by unfold Dram.wrong; omega
    have hr : r = (false, dramUncorrectable true w core (openRow core w s)) := checkWord_double true core w 2 s hwrong
    have hmoved := rowsMove_openRow core w s
    rw [hr]
    refine ⟨rfl, dramUncorrectable_stops w core _ hc, ?_, ?_⟩
    · rw [dramUncorrectable_counts, (congrArg Dram.uncorr hmoved.dram : _ = s.dram.uncorr)]
    · exact (hmoved.checked.trans (dramChecked_uncorrectable true w core _)).mem
  · intro told w requester s hwrong r
    have hr : r = (true, dramCorrected w requester (openRow requester w s)) := checkWord_single told requester w 0 s hwrong
    have hmoved := rowsMove_openRow requester w s
    have herrs : r.2.dram.errs = (if newerWrite s w then [(w, 1)] else []) ++ s.dram.errs.filter fun q => q.1 ≠ w := by
      rw [hr, ← hmoved.newerWrite, ← (congrArg Dram.errs hmoved.dram : _ = s.dram.errs)]
      rfl
    refine ⟨by rw [hr], ?_, ?_, fun hkeep p hp => ?_, fun hkeep => ?_⟩
    · rw [hr, ← (congrArg Dram.corrected hmoved.dram : _ = s.dram.corrected)]
      rfl
    · rw [hr]
      exact hmoved.checked.mem
    · rw [herrs, hkeep] at hp
      simpa using (List.mem_filter.1 hp).2
    · rw [herrs, hkeep]
      exact List.mem_append_left _ (List.mem_singleton.2 rfl)
  · intro w requester upset s hwrong
    rw [checkWord_double false requester w upset s hwrong]
    exact ⟨rfl, (congrArg State.held (rowsMove_openRow requester w s).rest :)⟩
  · intro rq s hs hclear
    exact ⟨execDramEccLog_reply rq s hs hclear, execDramRowlog_reply rq s hs hclear⟩
  · intro rq s hs hlow hhigh
    change execDramScrubConfig rq s = _
    unfold execDramScrubConfig
    exact command_pass 0x0B07 rq _ _ s hs (by simp [hhigh]; omega)

end Sys2Proof.Machine
end

section
/-!
PROOFS. What the fabric's budgets leave unchanged (spec/14_dma_compression.md), and host access through BAR2 with the HST
registers: `HostReachesDramThroughBar2`.
-/
namespace Sys2Proof.Machine

open Sys2Proof

/-! ### Grants: budgets, windows, waits and time alone change -/

/-- What grants leave unchanged: of the DMA state only budgets move, of a channel only its grants and its longest wait. -/
structure Granted (s t : State) : Prop where
  rest : { t with dma := s.dma, atoll := s.atoll, time := s.time, sync := s.sync } = s
  dma : { t.dma with channels := s.dma.channels, classLeft := s.dma.classLeft, window := s.dma.window, left := s.dma.left } = s.dma
  nChannels : t.dma.channels.length = s.dma.channels.length
  channel : ∀ c, { t.channel c with
    grants := (s.channel c).grants, grantsNext := (s.channel c).grantsNext, maxWait := (s.channel c).maxWait } = s.channel c

theorem Granted.refl (s : State) : Granted s s := ⟨rfl, rfl, rfl, fun _ => rfl⟩

theorem Granted.trans {s t u : State} (h : Granted s t) (g : Granted t u) : Granted s u where
  rest := (congrArg (fun v : State => { v with dma := s.dma, atoll := s.atoll, time := s.time, sync := s.sync }) g.rest).trans h.rest
  dma := (congrArg (fun d : Dma => { d with
    channels := s.dma.channels, classLeft := s.dma.classLeft, window := s.dma.window, left := s.dma.left }) g.dma).trans h.dma
  nChannels := g.nChannels.trans h.nChannels
  channel c := (congrArg (fun ch : Channel => { ch with
    grants := (s.channel c).grants, grantsNext := (s.channel c).grantsNext, maxWait := (s.channel c).maxWait })
    (g.channel c)).trans (h.channel c)

theorem granted_advanceTo (s : State) (t : Nat) : Granted s (s.advanceTo t) := by
  have h := advanceTo_frame s t
  have hdma : (s.advanceTo t).dma = s.dma := (congrArg State.dma h :)
  refine ⟨congrArg (fun v : State => { v with dma := s.dma }) h, ?_, by rw [hdma], fun c => ?_⟩
  · rw [hdma]
  · rw [State.channel, hdma]
    rfl

theorem granted_renewBudgets (s : State) : Granted s (renewBudgets s) := by
  refine ⟨rfl, rfl, List.length_map .., fun c => ?_⟩
  unfold State.channel renewBudgets
  dsimp only
  by_cases hc : c < s.dma.channels.length
  · rw [at'_map _ _ _ {} _ hc]
  · rw [at'_ge _ _ _ (by rw [List.length_map]; exact not_lt.1 hc), at'_ge _ _ _ (not_lt.1 hc)]

theorem granted_inWindow (s : State) : Granted s (inWindow s) := by
  unfold inWindow
  split
  · exact Granted.refl s
  · exact granted_renewBudgets s

theorem granted_toWindow (k : Nat) (s : State) : Granted s (toWindow k s) :=
  (granted_advanceTo s _).trans (granted_inWindow _)

theorem granted_spend (i n : Nat) (s : State) : Granted s (spend i n s) := by
  have hin := granted_inWindow s
  unfold spend
  dsimp only
  split
  · exact hin.trans ⟨rfl, rfl, rfl, fun _ => rfl⟩
  · refine hin.trans ((granted_toWindow _ _).trans ⟨rfl, rfl, length_modAt .., fun c => ?_⟩)
    unfold State.channel
    dsimp only
    rw [at'_modAt]
    split <;> rfl

theorem Granted.dram {s t : State} (h : Granted s t) : t.dram = s.dram := (congrArg State.dram h.rest :)

theorem Granted.place {s t : State} (h : Granted s t) (address : Nat) : t.place address = s.place address := by
  have hwindows : t.dma.windows = s.dma.windows := (congrArg Dma.windows h.dma :)
  unfold State.place
  rw [h.dram, hwindows]

/-! ### The place of an offset of BAR2 -/

/-- The parts of a BAR2 address: its window and its offset in the window. -/
theorem bar2Address (w o a : Nat) (ho : o < 16777216) (hw : 1 ≤ w) (hw' : w ≤ 15) (ha : a = 562949953421312 + (w * 16777216 + o)) :
    a % 281474976710656 = w * 16777216 + o ∧ a / 281474976710656 = 2 ∧ (w * 16777216 + o) / 16777216 = w ∧
      (w * 16777216 + o) % 16777216 = o ∧ w * 16777216 + o < 268435456 ∧ 16777216 ≤ w * 16777216 + o := by
  omega

theorem place_bar2 (w o a : Nat) (s : State) (hw : 1 ≤ w) (hw' : w ≤ 15) (ho : o < 2 ^ 24) (ha : a = 2 * 2 ^ 48 + (w * 2 ^ 24 + o)) :
    s.place a = match at' s.dma.windows (w - 1) none with
      | some base => if base + o < s.dram.cfg.usable then .dram (base + o) (min (2 ^ 24 - o) (s.dram.cfg.usable - (base + o)))
          else .invalid
      | none => .invalid := by
  simp only [Nat.reducePow, Nat.reduceMul] at ho ha
  obtain ⟨hlow, hkind, hwin, hoff, hend, hstart⟩ := bar2Address w o a ho hw hw' ha
  unfold State.place
  simp only [Nat.reducePow, hlow, hkind, hwin, hoff, hend, hstart, and_self, if_true, OfNat.ofNat_ne_zero, OfNat.ofNat_ne_one,
    if_false]
    <;> rfl

/-! ### Accesses beyond the register windows -/

theorem execBar2HostAccess_write (offset a room n : Nat) (bs : List Byte) (s : State) (hoff : 0x100000 ≤ offset)
    (hplace : s.place (2 * 2 ^ 48 + offset) = .dram a room) (hfit : bs.length ≤ room) (hrun : s.dram.stopped = false) :
    execBar2HostAccess offset (some bs) n s = .next (dramStore 59 a bs (spend 36 bs.length s)) := by
  have hg := granted_spend 36 bs.length s
  unfold execBar2HostAccess
  rw [if_neg (not_lt.2 hoff)]
  simp only [hg.place, hplace]
  rw [hg.dram, hrun, if_neg (by decide), if_neg (not_lt.2 hfit), List.take_of_length_le hfit]

theorem execBar2HostAccess_read (offset a room n : Nat) (s : State) (hoff : 0x100000 ≤ offset)
    (hplace : s.place (2 * 2 ^ 48 + offset) = .dram a room) (hfit : n ≤ room) (hrun : s.dram.stopped = false) :
    execBar2HostAccess offset none n s =
      let r := dramFetch 59 a n 0 (spend 36 n s)
      .next (if r.1.length < n then { r.2 with dma := { r.2.dma with bar2Read := none } }
        else { r.2 with dma := { r.2.dma with bar2Read := some r.1 } }) := by
  have hg := granted_spend 36 n s
  unfold execBar2HostAccess
  rw [if_neg (not_lt.2 hoff)]
  simp only [hg.place, hplace]
  rw [hg.dram, hrun, if_neg (by decide), Nat.min_eq_left hfit]

/-- Whether the window of an offset is set. -/
def windowSet (s : State) (offset : Nat) : Bool :=
  2 ^ 24 ≤ offset && offset < 2 ^ 28 && (at' s.dma.windows (offset / 2 ^ 24 - 1) none).isSome

theorem windowSet_eq (w o a : Nat) (s : State) (hw : 1 ≤ w) (hw' : w ≤ 15) (ho : o < 2 ^ 24) (ha : a = w * 2 ^ 24 + o) :
    windowSet s a = (at' s.dma.windows (w - 1) none).isSome := by
  simp only [Nat.reducePow] at ho ha
  have hwin : a / 16777216 = w := by omega
  unfold windowSet
  simp only [Nat.reducePow]
  rw [hwin, decide_eq_true (by omega), decide_eq_true (by omega)]
  rfl

/-- An access to a window that leads to no memory: a bus error where the window is set, and else 0 or nothing. -/
theorem execBar2HostAccess_invalid (offset n : Nat) (write : Option (List Byte)) (s : State) (hoff : 0x100000 ≤ offset)
    (hplace : s.place (2 * 2 ^ 48 + offset) = .invalid) :
    execBar2HostAccess offset write n s = match write with
      | some bs =>
        let u := spend 36 bs.length s
        .next (if windowSet u offset && bs ≠ [] then { u with dma := { u.dma with bar2Read := none } } else u)
      | none =>
        let u := spend 36 n s
        .next (if windowSet u offset && n ≠ 0 then { u with dma := { u.dma with bar2Read := none } }
          else { u with dma := { u.dma with bar2Read := some (zeros n) } }) := by
  unfold execBar2HostAccess windowSet
  rw [if_neg (not_lt.2 hoff)]
  cases write with
  | some bs => simp only [(granted_spend 36 bs.length s).place, hplace]
  | none => simp only [(granted_spend 36 n s).place, hplace]

theorem Granted.windowSet {s t : State} (h : Granted s t) (offset : Nat) : windowSet t offset = windowSet s offset := by
  have hwindows : t.dma.windows = s.dma.windows := (congrArg Dma.windows h.dma :)
  unfold Machine.windowSet
  rw [hwindows]

/-- An offset in a window lies beyond the register windows. -/
theorem registers_le_window (w o a : Nat) (hw : 1 ≤ w) (ha : a = w * 2 ^ 24 + o) : 0x100000 ≤ a := by
  simp only [Nat.reducePow] at ha
  omega

/-! ### Registers: HST_CTRL, HST_STATUS, and a register write's frame -/

theorem bar2RegWrite_hst (o : Nat) (a b c d : Byte) (s : State) (ho : o < 0x800) (halign : o % 4 = 0) :
    bar2RegWrite o [a, b, c, d] s = hstWrite o (ofLe [a, b, c, d]) s := by
  unfold bar2RegWrite
  rw [if_pos ⟨halign, rfl⟩, if_pos ho]

/-- A bit of the first byte of a word. -/
theorem testBit_ofLe_first (a b c d : Byte) (i : Nat) (h : i < 8) : (ofLe [a, b, c, d]).testBit i = a.getLsbD i := by
  have hword : ofLe [a, b, c, d] = 2 ^ 8 * (b.toNat + 256 * (c.toNat + 256 * d.toNat)) + a.toNat := by
    simp only [ofLe]
    omega
  rw [hword, Nat.testBit_two_pow_mul_add _ a.isLt, if_pos h]
  rfl

/-- A register write leaves every unit alone but the command interface, and spends grants. -/
structure OnlyRegisters (s t : State) : Prop where
  frame : { t with mci := s.mci, free := s.free, dma := s.dma, atoll := s.atoll, time := s.time, sync := s.sync } = s

theorem OnlyRegisters.trans {s t u : State} (h : OnlyRegisters s t) (g : OnlyRegisters t u) : OnlyRegisters s u :=
  ⟨(congrArg (fun v : State => { v with
    mci := s.mci, free := s.free, dma := s.dma, atoll := s.atoll, time := s.time, sync := s.sync }) g.frame).trans h.frame⟩

theorem onlyRegisters_mci {s t : State} (h : { t with mci := s.mci } = s) : OnlyRegisters s t :=
  ⟨congrArg (fun v : State => { v with free := s.free, dma := s.dma, atoll := s.atoll, time := s.time, sync := s.sync }) h⟩

theorem onlyRegisters_logViolation (iface unit code detail : Nat) (s : State) :
    OnlyRegisters s (logViolation iface unit code detail s) :=
  ⟨congrArg (fun v : State => { v with dma := s.dma, atoll := s.atoll, time := s.time, sync := s.sync })
    (logViolation_frame iface unit code detail s)⟩

theorem onlyRegisters_logDoorbell (p code : Nat) (s : State) : OnlyRegisters s (logDoorbell p code s) :=
  OnlyRegisters.trans (⟨rfl⟩ : OnlyRegisters s { s with free := s.free + 1 }) (onlyRegisters_logViolation ..)

theorem onlyRegisters_reject (p : Nat) (h : Header) (status : Nat) (payload : List Byte) (s : State) :
    OnlyRegisters s (reject p h status payload s) := onlyRegisters_mci (enqueueMsg_frame ..)

theorem onlyRegisters_takeUrgent (s : State) : OnlyRegisters s (takeUrgent s) := by
  have hrefused (h : Header) (status code : Nat) : OnlyRegisters s (logRequest 255 code h (reject 255 h status [] s)) :=
    (onlyRegisters_reject 255 h status [] s).trans (onlyRegisters_logViolation ..)
  unfold takeUrgent
  dsimp only
  split
  · exact hrefused _ _ _
  · split
    · exact hrefused _ _ _
    · split
      · exact hrefused _ _ _
      · exact ⟨rfl⟩

theorem onlyRegisters_classGrant (c : Nat) (s : State) : OnlyRegisters s (classGrant c s) :=
  ⟨congrArg (fun v : State => { v with mci := s.mci, free := s.free }) (classGrant_frame c s)⟩

theorem onlyRegisters_urgentSubmit (value : BitVec 32) (s : State) : OnlyRegisters s (urgentSubmit value s) := by
  unfold urgentSubmit
  split
  · exact ⟨rfl⟩
  · split
    · exact onlyRegisters_logDoorbell ..
    · have hbusy : OnlyRegisters s { s with mci := { s.mci with urgBusy := true, urgDone := false } } := ⟨rfl⟩
      dsimp only
      split
      · exact hbusy.trans ((onlyRegisters_classGrant 0 _).trans (onlyRegisters_takeUrgent _))
      · exact hbusy

theorem onlyRegisters_doorbell (path : Path) (p : Nat) (value : BitVec 32) (s : State) :
    OnlyRegisters s (doorbell path p value s) := by
  unfold doorbell
  dsimp only
  split
  · exact ⟨rfl⟩
  · split
    · exact onlyRegisters_logDoorbell ..
    · split
      · exact onlyRegisters_logDoorbell ..
      · exact ⟨rfl⟩

theorem onlyRegisters_msixWrite (word : Nat) (value : BitVec 32) (s : State) : OnlyRegisters s (msixWrite word value s) := by
  unfold msixWrite
  dsimp only
  split
  · exact ⟨rfl⟩
  · split
    · exact ⟨rfl⟩
    · split
      · exact ⟨rfl⟩
      · split
        · exact ⟨rfl⟩
        · refine OnlyRegisters.trans ?_ (onlyRegisters_mci (unmask_frame _ _).1)
          exact ⟨rfl⟩

theorem onlyRegisters_bar0Word (path : Path) (offset : Nat) (value : BitVec 32) (s : State) :
    OnlyRegisters s (bar0Word path offset value s) := by
  unfold bar0Word
  dsimp only
  split
  · exact ⟨rfl⟩
  · split
    · exact onlyRegisters_urgentSubmit ..
    · split
      · split
        · exact onlyRegisters_doorbell ..
        · split <;> exact ⟨rfl⟩
      · split
        · exact onlyRegisters_msixWrite ..
        · exact ⟨rfl⟩

theorem onlyRegisters_bar0Store (o : Nat) (bs : List Byte) (s : State) : OnlyRegisters s (bar0Store o bs s) := by
  induction bs generalizing o s with
  | nil => exact ⟨rfl⟩
  | cons b bs ih =>
    refine OnlyRegisters.trans ?_ (ih (o + 1) _)
    split <;> exact ⟨rfl⟩

theorem onlyRegisters_bar0Words (path : Path) (o : Nat) (bs : List Byte) (s : State) :
    OnlyRegisters s (bar0Words path o bs s) := by
  induction bs generalizing o s with
  | nil => exact ⟨rfl⟩
  | cons b bs ih =>
    refine OnlyRegisters.trans ?_ (ih (o + 1) _)
    split
    · exact onlyRegisters_bar0Word ..
    · exact ⟨rfl⟩

theorem onlyRegisters_spiTransfer (bytes : List Byte) (s : State) : OnlyRegisters s (spiTransfer bytes s) := by
  unfold spiTransfer
  split
  · dsimp only
    split
    · exact (onlyRegisters_bar0Store ..).trans (onlyRegisters_bar0Words ..)
    · split <;> exact ⟨rfl⟩
  · exact ⟨rfl⟩

/-! ### The obligation -/

/-- Settles O42: DRAM through `dramStore_stores` and `fetchWords_clean`, a bus error by `execBar2HostAccess_invalid`. -/
theorem hostReachesDramThroughBar2 : Obligations.HostReachesDramThroughBar2 := by
  unfold Obligations.HostReachesDramThroughBar2
  refine ⟨?_, ?_, ?_, ?_, ?_, ?_, ?_⟩
  · intro w base o n bs s hw hw' hset hin hfit ho hroom hrun hqueues hwf hnodup hwhole
    have hdram := (granted_spend 36 bs.length s).dram
    have hplace := place_bar2 w o _ s hw hw' ho rfl
    simp only [hset, if_pos hroom] at hplace
    refine ⟨_, execBar2HostAccess_write _ _ _ n bs s (registers_le_window w o _ hw rfl) hplace
      (le_min (Nat.le_sub_of_add_le' hin) (Nat.le_sub_of_add_le' hfit)) hrun, ?_⟩
    rw [← hdram] at hqueues ⊢
    exact (dramStore_stores 59 (base + o) bs _ (by rw [hdram]; exact ⟨hwf, hnodup, hwhole⟩) hqueues).byte
  · intro w base o n s hw hw' hset hin hfit ho hroom herrs hpoison hrun hqueues hwf hnodup hwhole
    have hdram := (granted_spend 36 n s).dram
    have hread : (dramFetch 59 (base + o) n 0 (spend 36 n s)).1 = s.dramRead (base + o) n := by
      unfold dramFetch
      rw [drainQueued_empty _ _ _ (by rw [hdram]; exact hqueues), fetchWords_clean _ _ _ _ (by rw [hdram]; exact ⟨herrs, hpoison⟩),
        State.dramRead, hdram]
      rfl
    have hkept : KeepsBytes (spend 36 n s) (dramFetch 59 (base + o) n 0 (spend 36 n s)).2 := by
      unfold dramFetch
      rw [drainQueued_empty _ _ _ (by rw [hdram]; exact hqueues)]
      exact fetchWords_keepsBytes _ _ _ _ _ (by rw [hdram]; exact ⟨hwf, hnodup, hwhole⟩)
    have hplace := place_bar2 w o _ s hw hw' ho rfl
    simp only [hset, if_pos hroom] at hplace
    have hexec := execBar2HostAccess_read _ _ _ n s (registers_le_window w o _ hw rfl) hplace
      (le_min (Nat.le_sub_of_add_le' hin) (Nat.le_sub_of_add_le' hfit)) hrun
    dsimp only at hexec
    rw [hread, if_neg (by simp)] at hexec
    refine ⟨_, hexec, rfl, ?_⟩
    rw [← hdram]
    exact hkept.byte
  · intro w base o n bs s hw hw' hset ho hbeyond hn hbs
    have hplace := place_bar2 w o _ s hw hw' ho rfl
    simp only [hset, if_neg (not_lt.2 hbeyond)] at hplace
    have hwindow : windowSet s (w * 2 ^ 24 + o) = true := by rw [windowSet_eq w o _ s hw hw' ho rfl, hset]; rfl
    have hoff := registers_le_window w o _ hw rfl
    refine ⟨⟨_, execBar2HostAccess_invalid _ n none s hoff hplace, ?_⟩, ⟨_, execBar2HostAccess_invalid _ n (some bs) s hoff hplace, ?_⟩⟩
    · rw [(granted_spend 36 n s).windowSet, hwindow, if_pos (by simp; omega)]
      exact ⟨rfl, (granted_spend 36 n s).dram⟩
    · rw [(granted_spend 36 bs.length s).windowSet, hwindow, if_pos (by simp [hbs])]
      exact ⟨rfl, (granted_spend 36 bs.length s).dram⟩
  · intro w o n bs s hw hw' ho hunset
    have hplace := place_bar2 w o _ s hw hw' ho rfl
    simp only [hunset] at hplace
    have hwindow : windowSet s (w * 2 ^ 24 + o) = false := by rw [windowSet_eq w o _ s hw hw' ho rfl, hunset]; rfl
    have hoff := registers_le_window w o _ hw rfl
    refine ⟨⟨_, execBar2HostAccess_invalid _ n (some bs) s hoff hplace, ?_⟩, ⟨_, execBar2HostAccess_invalid _ n none s hoff hplace, ?_⟩⟩
    · rw [(granted_spend 36 bs.length s).windowSet, hwindow, if_neg (by simp)]
      exact (granted_spend 36 bs.length s).dram
    · rw [(granted_spend 36 n s).windowSet, hwindow, if_neg (by simp)]
      exact ⟨(granted_spend 36 n s).dram, rfl⟩
  · intro offset n s ho
    change execBar2HostAccess offset none n s = _
    unfold execBar2HostAccess
    rw [if_pos ho]
  · intro a b c d s
    refine ⟨?_, ?_, fun o hlow hhigh => ?_⟩
    · change Host.Outcome.next (bar2RegWrite 0 [a, b, c, d] s) = _
      rw [bar2RegWrite_hst 0 a b c d s (by decide) (by decide)]
      unfold hstWrite
      rw [if_pos rfl, testBit_ofLe_first a b c d 0 (by decide)]
      have hstream : BitVec.ofNat 4 (ofLe [a, b, c, d] / 16) = BitVec.ofNat 4 (a.toNat / 16) := by
        apply BitVec.eq_of_toNat_eq
        simp only [ofLe, BitVec.toNat_ofNat]
        omega
      rw [hstream]
    · change Host.Outcome.next (bar2RegWrite 4 [a, b, c, d] s) = _
      rw [bar2RegWrite_hst 4 a b c d s (by decide) (by decide)]
      unfold hstWrite
      rw [if_neg (by decide), if_pos rfl, testBit_ofLe_first a b c d 0 (by decide), testBit_ofLe_first a b c d 2 (by decide)]
    · change (if o < 0x800 then Host.Outcome.next (bar2RegWrite o [a, b, c, d] s) else .next s) = _
      rw [if_pos hhigh]
      unfold bar2RegWrite
      split
      · unfold hstWrite
        rw [if_neg (by omega), if_neg (by omega)]
      · rfl
  · intro win offset transfer s
    have hspi := onlyRegisters_spiTransfer transfer s
    change ∃ t, (if pathOpen s .spi then Host.Outcome.next (spiTransfer transfer s) else .next s) = _ ∧ _
    split
    · exact ⟨_, rfl, (congrArg State.cam hspi.frame :), (congrArg State.dram hspi.frame :)⟩
    · exact ⟨_, rfl, rfl, rfl⟩

end Sys2Proof.Machine
end

section
/-!
PROOFS. DMA channels between host buffers (spec/14_dma_compression.md): `DmaChannelsRun`.
-/
namespace Sys2Proof.Machine

open Sys2Proof

/-! ### Host addresses (R339) -/

theorem place_host (x a : Nat) (s : State) (hx : x < 2 ^ 48) (ha : a = 2 ^ 48 + x) : s.place a = .host x := by
  simp only [Nat.reducePow] at hx ha
  have hlow : a % 281474976710656 = x := by omega
  have hkind : a / 281474976710656 = 1 := by omega
  unfold State.place
  simp only [Nat.reducePow, hlow, hkind]
  rfl

theorem place_hostEnd (a : Nat) (s : State) (ha : a = 2 ^ 48 + 2 ^ 48) : s.place a = .invalid := by
  simp only [Nat.reducePow, Nat.reduceAdd] at ha
  have hlow : a % 281474976710656 = 0 := by omega
  have hkind : a / 281474976710656 = 2 := by omega
  unfold State.place
  simp only [Nat.reducePow, hlow, hkind]
  rfl

theorem advance_host (x k a : Nat) (hin : x + k < 2 ^ 48) (ha : a = 2 ^ 48 + x) : advance a k = 2 ^ 48 + (x + k) := by
  simp only [Nat.reducePow] at hin ha ⊢
  have hlow : a % 281474976710656 = x := by omega
  have hkind : a / 281474976710656 = 1 := by omega
  unfold advance
  simp only [Nat.reducePow, hkind, OfNat.one_ne_ofNat, if_false, hlow]
  rw [if_pos hin, ha, Nat.add_assoc]

theorem advance_hostEnd (a : Nat) (ha : a = 2 ^ 48 + 2 ^ 48) : advance a 0 = a := by
  simp only [Nat.reducePow, Nat.reduceAdd] at ha
  have hlow : a % 16777216 = 0 := by omega
  have hkind : a / 281474976710656 = 2 := by omega
  unfold advance
  simp only [Nat.reducePow, hkind, if_true, hlow]
  rfl

theorem fetchFrom_host (requester a x n : Nat) (data : List Byte) (s : State) (hplace : s.place a = .host x)
    (hin : x + n ≤ 2 ^ 48) (hlen : n ≤ data.length) : fetchFrom requester a n data s = (data.take n, 0, s) := by
  have hk : min n (2 ^ 48 - x) = n := Nat.min_eq_left (Nat.le_sub_of_add_le' hin)
  unfold fetchFrom
  simp only [hplace, hk]
  rw [if_neg (not_lt.2 hlen), if_neg (lt_irrefl n)]

theorem storeTo_host (requester a y : Nat) (bs : List Byte) (s : State) (hplace : s.place a = .host y)
    (hin : y + bs.length ≤ 2 ^ 48) (hbs : bs ≠ []) : storeTo requester a bs s =
      (bs.length, 0, { s with dma := { s.dma with toHost := s.dma.toHost ++ [(y, bs)] } }) := by
  have hk : min bs.length (2 ^ 48 - y) = bs.length := Nat.min_eq_left (Nat.le_sub_of_add_le' hin)
  have hpos : bs.length ≠ 0 := fun h => hbs (List.eq_nil_of_length_eq_zero h)
  unfold storeTo
  simp only [hplace, hk]
  rw [if_neg (lt_irrefl _), if_neg hpos, List.take_length]

/-- An access of no bytes at a host address, or at its space's end, does nothing. -/
theorem access_none (x a requester : Nat) (data : List Byte) (s : State) (hx : x ≤ 2 ^ 48) (ha : a = 2 ^ 48 + x) :
    fetchFrom requester (advance a 0) 0 data s = ([], 0, s) ∧ storeTo requester (advance a 0) [] s = (0, 0, s) := by
  rcases Nat.lt_or_eq_of_le hx with hlt | rfl
  · have hadv := advance_host x 0 a (by rwa [Nat.add_zero]) ha
    have hplace := place_host (x + 0) (advance a 0) s (by rwa [Nat.add_zero]) hadv
    rw [Nat.add_zero] at hplace
    refine ⟨fetchFrom_host _ _ x 0 data s hplace hx (Nat.zero_le _), ?_⟩
    unfold storeTo
    simp only [hplace, List.length_nil, Nat.zero_min]
    rfl
  · have hplace := place_hostEnd a s ha
    rw [advance_hostEnd a ha]
    unfold fetchFrom storeTo
    simp only [hplace, if_true]
    exact ⟨trivial, trivial⟩

/-! ### Host writes of a channel -/

/-- A channel has written to host memory: the writes are added, and of the state the command interface, DRAM and the channel
stay, but for its grants, its longest wait and its count of bytes. -/
structure HostMoved (c : Nat) (writes : List (Nat × List Byte)) (s t : State) : Prop where
  toHost : t.dma.toHost = s.dma.toHost ++ writes
  mci : t.mci = s.mci
  place : ∀ a, t.place a = s.place a
  nChannels : t.dma.channels.length = s.dma.channels.length
  channel : { t.channel c with
    grants := (s.channel c).grants, grantsNext := (s.channel c).grantsNext, maxWait := (s.channel c).maxWait,
    bytes := (s.channel c).bytes } = s.channel c

theorem HostMoved.trans {c : Nat} {w w' : List (Nat × List Byte)} {s t u : State} (h : HostMoved c w s t)
    (g : HostMoved c w' t u) : HostMoved c (w ++ w') s u where
  toHost := by rw [g.toHost, h.toHost, List.append_assoc]
  mci := g.mci.trans h.mci
  place a := (g.place a).trans (h.place a)
  nChannels := g.nChannels.trans h.nChannels
  channel := (congrArg (fun ch : Channel => { ch with
    grants := (s.channel c).grants, grantsNext := (s.channel c).grantsNext, maxWait := (s.channel c).maxWait,
    bytes := (s.channel c).bytes }) g.channel).trans h.channel

theorem HostMoved.entry {c : Nat} {w : List (Nat × List Byte)} {s t : State} (h : HostMoved c w s t) :
    (t.channel c).entry (t.channel c).index = (s.channel c).entry (s.channel c).index := by
  have hring : (t.channel c).ring = (s.channel c).ring := (congrArg Channel.ring h.channel :)
  have hindex : (t.channel c).index = (s.channel c).index := (congrArg Channel.index h.channel :)
  unfold Channel.entry
  rw [hring, hindex]

theorem Granted.hostMoved {s t : State} (h : Granted s t) (c : Nat) : HostMoved c [] s t where
  toHost := (congrArg Dma.toHost h.dma :).trans (List.append_nil _).symm
  mci := (congrArg State.mci h.rest :)
  place := h.place
  nChannels := h.nChannels
  channel := congrArg (fun ch : Channel => { ch with bytes := (s.channel c).bytes }) (h.channel c)

theorem hostMoved_write (c : Nat) (w : Nat × List Byte) (s : State) :
    HostMoved c [w] s { s with dma := { s.dma with toHost := s.dma.toHost ++ [w] } } := ⟨rfl, rfl, fun _ => rfl, rfl, rfl⟩

theorem channel_modChannel (s : State) (c : Nat) (f : Channel → Channel) (hc : c < s.dma.channels.length) :
    (s.modChannel c f).channel c = f (s.channel c) := at'_modAt_same _ _ _ _ hc

theorem hostMoved_bytes (c n : Nat) (s : State) :
    HostMoved c [] s (s.modChannel c fun ch => { ch with bytes := ch.bytes + BitVec.ofNat 64 n }) := by
  refine ⟨(List.append_nil _).symm, rfl, fun _ => rfl, length_modAt .., ?_⟩
  unfold State.channel State.modChannel
  dsimp only
  rw [at'_modAt]
  split <;> rfl

/-- Bytes are written into a descriptor in host memory. -/
theorem writeDesc_host (c e offset : Nat) (bs : List Byte) (s : State)
    (hentry : (s.channel c).entry (s.channel c).index = 2 ^ 48 + e) (he : e + 32 ≤ 2 ^ 48) (hin : offset + bs.length ≤ 32)
    (hbs : bs ≠ []) : ∃ t, writeDesc c offset bs s = some t ∧ HostMoved c [(e + offset, bs)] s t ∧ t.flt = s.flt := by
  have hpos : bs.length ≠ 0 := fun h => hbs (List.eq_nil_of_length_eq_zero h)
  have hplace : s.place ((s.channel c).entry (s.channel c).index + offset) = .host (e + offset) :=
    place_host (e + offset) _ s (by omega) (by rw [hentry, Nat.add_assoc])
  unfold writeDesc
  dsimp only
  rw [storeTo_host _ _ _ bs s hplace (by omega) hbs]
  refine ⟨_, if_pos rfl, (hostMoved_write c _ s).trans ((granted_spend c bs.length _).hostMoved c), ?_⟩
  exact (congrArg State.flt (granted_spend c bs.length _).rest :)

theorem statusKept_host (s : State) (c : Nat) (d : Desc) (e : Nat)
    (hentry : (s.channel c).entry (s.channel c).index = 2 ^ 48 + e) (he : e < 2 ^ 48) : statusKept s c d = true := by
  unfold statusKept
  simp only [place_host e _ s he hentry]

/-- Bytes move from one host buffer to another. -/
theorem moveBytes_host (c e x y upto : Nat) (data : List Byte) (d : Desc) (s : State)
    (hentry : (s.channel c).entry (s.channel c).index = 2 ^ 48 + e) (he : e < 2 ^ 48) (hsrc : d.src = 2 ^ 48 + x)
    (hdst : d.dst = 2 ^ 48 + y) (hx : x + upto ≤ 2 ^ 48) (hy : y + upto ≤ 2 ^ 48) (hmore : d.moved < upto)
    (hlen : upto - d.moved ≤ data.length) :
    ∃ t, moveBytes c upto data d s =
        (some { d with moved := upto, crc := crcRun d.crc (data.take (upto - d.moved)) }, t) ∧
      HostMoved c [(y + d.moved, data.take (upto - d.moved))] s t ∧ t.flt = s.flt := by
  have htake : (data.take (upto - d.moved)).length = upto - d.moved := by rw [List.length_take, Nat.min_eq_left hlen]
  have hread : fetchFrom (16 + c) (advance d.src d.moved) (upto - d.moved) data s = (data.take (upto - d.moved), 0, s) :=
    fetchFrom_host _ _ (x + d.moved) _ data s
      (place_host _ _ s (by omega) (advance_host x d.moved d.src (by omega) hsrc)) (by omega) hlen
  have hwrite := storeTo_host (16 + c) (advance d.dst d.moved) (y + d.moved) (data.take (upto - d.moved)) s
    (place_host _ _ s (by omega) (advance_host y d.moved d.dst (by omega) hdst)) (by rw [htake]; omega)
    (fun h => by rw [h] at htake; simp only [List.length_nil] at htake; omega)
  have hmoved (n m k : Nat) (u : State) : HostMoved c [] u ((spend c n (spend c m u)).modChannel c fun ch =>
      { ch with bytes := ch.bytes + BitVec.ofNat 64 k }) :=
    ((granted_spend c m u).hostMoved c).trans (((granted_spend c n _).hostMoved c).trans (hostMoved_bytes c k _))
  unfold moveBytes
  rw [statusKept_host s c d e hentry he, if_neg (by decide)]
  dsimp only
  rw [hread]
  dsimp only
  rw [hwrite]
  refine ⟨_, (if_neg (not_not.2 rfl)).trans (if_neg (not_not.2 rfl)), (hostMoved_write c _ s).trans (hmoved _ _ _ _), ?_⟩
  exact (congrArg State.flt ((granted_spend c _ _).trans (granted_spend c _ _)).rest :)

/-- No bytes are moved from a host buffer. -/
theorem moveBytes_none (c e x y : Nat) (data : List Byte) (d : Desc) (s : State)
    (hentry : (s.channel c).entry (s.channel c).index = 2 ^ 48 + e) (he : e < 2 ^ 48) (hsrc : d.src = 2 ^ 48 + x)
    (hdst : d.dst = 2 ^ 48 + y) (hx : x ≤ 2 ^ 48) (hy : y ≤ 2 ^ 48) (hmoved : d.moved = 0) :
    ∃ t, moveBytes c 0 data d s = (some d, t) ∧ HostMoved c [] s t ∧ t.flt = s.flt := by
  have hread := (access_none x d.src (16 + c) data s hx hsrc).1
  have hwrite := (access_none y d.dst (16 + c) data s hy hdst).2
  have hstate (n m k : Nat) (u : State) : HostMoved c [] u ((spend c n (spend c m u)).modChannel c fun ch =>
      { ch with bytes := ch.bytes + BitVec.ofNat 64 k }) :=
    ((granted_spend c m u).hostMoved c).trans (((granted_spend c n _).hostMoved c).trans (hostMoved_bytes c k _))
  have hsame : { d with moved := 0, crc := crcRun d.crc [] } = d := by rw [← hmoved]; rfl
  unfold moveBytes
  rw [statusKept_host s c d e hentry he, if_neg (by decide)]
  dsimp only
  rw [hmoved, Nat.sub_zero, hread]
  dsimp only
  rw [hwrite]
  refine ⟨_, ((if_neg (not_not.2 rfl)).trans (if_neg (not_not.2 rfl))).trans (by rw [hsame]), hstate _ _ _ _, ?_⟩
  exact (congrArg State.flt ((granted_spend c _ _).trans (granted_spend c _ _)).rest :)

/-! ### The end of a descriptor -/

theorem dmaSignal_frame (c : Nat) (s : State) : { dmaSignal c s with mci := s.mci } = s := by
  unfold dmaSignal
  split
  · exact signal_frame ..
  · rfl

theorem signal_mci_congr (v : Nat) (s t : State) (h : t.mci = s.mci) : (signal v t).mci = (signal v s).mci := by
  unfold signal
  dsimp only
  rw [h]

theorem dmaSignal_mci (c : Nat) (s t : State) (hc : c < 28) (h : t.mci = s.mci) :
    (dmaSignal c t).mci = (signal (16 + c) s).mci := by
  unfold dmaSignal
  rw [if_pos hc, signal_mci_congr _ _ _ h]

/-- A descriptor in host memory is DONE. -/
theorem endDesc_host (c e : Nat) (d : Desc) (s : State) (hc : c < s.dma.channels.length)
    (hentry : (s.channel c).entry (s.channel c).index = 2 ^ 48 + e) (he : e + 32 ≤ 2 ^ 48) :
    (endDesc c d s).dma.toHost =
        s.dma.toHost ++ [(e + 24, leBytes 4 (d.crc ^^^ 0xFFFFFFFF).toNat), (e + 21, [3])] ∧
      ((endDesc c d s).channel c).cur = none ∧ ((endDesc c d s).channel c).done = (s.channel c).done + 1 ∧
      ((endDesc c d s).channel c).index =
        (if (s.channel c).ringSize ≤ (s.channel c).index + 1 then 0 else (s.channel c).index + 1) ∧
      (d.done = true → c < 28 → (endDesc c d s).mci = (signal (16 + c) s).mci) ∧ (d.done = false → (endDesc c d s).mci = s.mci) := by
  obtain ⟨t, htexec, ht, -⟩ := writeDesc_host c e 24 (leBytes 4 (d.crc ^^^ 0xFFFFFFFF).toNat) s hentry he (by simp)
    (fun h => by simpa using congrArg List.length h)
  obtain ⟨u, huexec, hu, -⟩ := writeDesc_host c e 21 (leBytes 1 3) t (ht.entry.trans hentry) he (by decide) (by decide)
  have hsu := ht.trans hu
  have hwritten : (writeDesc c 24 (leBytes 4 (d.crc ^^^ 0xFFFFFFFF).toNat) s).bind (writeDesc c 21 (leBytes 1 3)) = some u := by
    rw [htexec, Option.bind_some, huexec]
  have hlen : c < u.dma.channels.length := by rw [hsu.nChannels]; exact hc
  have hdone : (u.channel c).done = (s.channel c).done := (congrArg Channel.done hsu.channel :)
  have hindex : (u.channel c).index = (s.channel c).index := (congrArg Channel.index hsu.channel :)
  have hsize : (u.channel c).ringSize = (s.channel c).ringSize := (congrArg Channel.ringSize hsu.channel :)
  obtain ⟨v, hv⟩ : ∃ v, (u.modChannel c fun ch => { ch with done := ch.done + 1 }) = v := ⟨_, rfl⟩
  have hvlen : c < v.dma.channels.length := by rw [← hv, State.modChannel_channels, length_modAt]; exact hlen
  have hvch : v.channel c = { u.channel c with done := (u.channel c).done + 1 } := by
    rw [← hv, channel_modChannel _ _ _ hlen]
  have hvmci : v.mci = s.mci := by rw [← hv]; exact hsu.mci
  have hvhost : v.dma.toHost = u.dma.toHost := by rw [← hv]; rfl
  have hend : endDesc c d s = nextDesc c (some (d.crc ^^^ 0xFFFFFFFF)) (if d.done then dmaSignal c v else v) := by
    unfold endDesc
    dsimp only
    rw [hwritten]
    dsimp only
    rw [hv]
  have hdma : (if d.done then dmaSignal c v else v).dma = v.dma := by
    split
    · exact (congrArg State.dma (dmaSignal_frame c v) :)
    · rfl
  generalize hw : (if d.done then dmaSignal c v else v) = w at hend hdma
  have hwch : w.channel c = v.channel c := by rw [State.channel, hdma]; rfl
  have hnext : (endDesc c d s).channel c = { v.channel c with
      cur := none, prevCrc := some (d.crc ^^^ 0xFFFFFFFF),
      index := if (v.channel c).ringSize ≤ (v.channel c).index + 1 then 0 else (v.channel c).index + 1 } := by
    rw [hend, nextDesc, channel_modChannel _ _ _ (by rw [hdma]; exact hvlen), hwch]
  rw [hvch] at hnext
  refine ⟨?_, by rw [hnext], ?_, ?_, fun hd hc28 => ?_, fun hd => ?_⟩
  · rw [hend]
    change w.dma.toHost = _
    rw [hdma, hvhost, hsu.toHost]
    rfl
  · rw [hnext, ← hdone]
  · rw [hnext, ← hindex, ← hsize]
  · rw [hend, ← hw, if_pos hd]
    exact dmaSignal_mci c s v hc28 hvmci
  · rw [hend, ← hw, hd]
    exact hvmci

/-- A descriptor in host memory ends BAD. -/
theorem badDesc_host (c e err offset : Nat) (irq : Bool) (s : State) (hc : c < s.dma.channels.length)
    (hentry : (s.channel c).entry (s.channel c).index = 2 ^ 48 + e) (he : e + 32 ≤ 2 ^ 48) :
    (badDesc c err offset irq s).dma.toHost = s.dma.toHost ++
        [(e + 22, leBytes 1 err), (e + 24, leBytes 4 offset), (e + 21, [4])] ∧
      ((badDesc c err offset irq s).channel c).bad = (s.channel c).bad.inc ∧
      ((badDesc c err offset irq s).channel c).cur = none ∧
      ((badDesc c err offset irq s).flt.presented.getLast?.map fun r => (r.source, r.unit)) = some (0x0180, some c) := by
  obtain ⟨t, htexec, ht, -⟩ := writeDesc_host c e 22 (leBytes 1 err) s hentry he (by simp)
    (fun h => by simpa using congrArg List.length h)
  obtain ⟨t', htexec', ht', -⟩ := writeDesc_host c e 24 (leBytes 4 offset) t (ht.entry.trans hentry) he (by simp)
    (fun h => by simpa using congrArg List.length h)
  have hst := ht.trans ht'
  obtain ⟨u, huexec, hu, -⟩ := writeDesc_host c e 21 (leBytes 1 4) t' (hst.entry.trans hentry) he (by decide) (by decide)
  have hsu := hst.trans hu
  have hwritten : ((writeDesc c 22 (leBytes 1 err) s).bind (writeDesc c 24 (leBytes 4 offset))).bind
      (writeDesc c 21 (leBytes 1 4)) = some u := by
    rw [htexec, Option.bind_some, htexec', Option.bind_some, huexec]
  have hlen : c < u.dma.channels.length := by rw [hsu.nChannels]; exact hc
  have hbad : (u.channel c).bad = (s.channel c).bad := (congrArg Channel.bad hsu.channel :)
  obtain ⟨v, hv⟩ : ∃ v, present 0x0180 (some c) 0 (u.modChannel c fun ch => { ch with bad := ch.bad.inc }) = v := ⟨_, rfl⟩
  have hvch : v.channel c = { u.channel c with bad := (u.channel c).bad.inc } := by
    rw [← hv]
    exact channel_modChannel _ _ _ hlen
  have hvlen : c < v.dma.channels.length := by
    rw [← hv]
    exact (length_modAt ..).symm ▸ hlen
  have hvhost : v.dma.toHost = u.dma.toHost := by rw [← hv]; rfl
  have hvlast : (v.flt.presented.getLast?.map fun r => (r.source, r.unit)) = some (0x0180, some c) := by
    rw [← hv]
    exact present_last ..
  have hend : badDesc c err offset irq s = nextDesc c none (if irq then dmaSignal c v else v) := by
    unfold badDesc
    rw [hwritten]
    dsimp only
    rw [hv]
  have hframe : (if irq then dmaSignal c v else v).dma = v.dma ∧ (if irq then dmaSignal c v else v).flt = v.flt := by
    split
    · exact ⟨(congrArg State.dma (dmaSignal_frame c v) :), (congrArg State.flt (dmaSignal_frame c v) :)⟩
    · exact ⟨rfl, rfl⟩
  generalize (if irq then dmaSignal c v else v) = w at hend hframe
  obtain ⟨hdma, hflt⟩ := hframe
  have hwch : w.channel c = v.channel c := by rw [State.channel, hdma]; rfl
  have hnext : (badDesc c err offset irq s).channel c = { v.channel c with
      cur := none, prevCrc := none,
      index := if (v.channel c).ringSize ≤ (v.channel c).index + 1 then 0 else (v.channel c).index + 1 } := by
    rw [hend, nextDesc, channel_modChannel _ _ _ (by rw [hdma]; exact hvlen), hwch]
  rw [hvch] at hnext
  refine ⟨?_, by rw [hnext, ← hbad], by rw [hnext], ?_⟩
  · rw [hend]
    change w.dma.toHost = _
    rw [hdma, hvhost, hsu.toHost]
    rfl
  · rw [hend]
    change (w.flt.presented.getLast?.map _) = _
    rw [hflt, hvlast]

theorem ringError_effect (c : Nat) (s : State) (hc : c < s.dma.channels.length) :
    ((ringError c s).channel c).st = 3 ∧ ((ringError c s).channel c).cur = none ∧
      ((ringError c s).flt.presented.getLast?.map fun r => (r.source, r.unit)) = some (0x0181, some c) := by
  have hch : (ringError c s).channel c = { s.channel c with st := 3, cur := none } := channel_modChannel _ _ _ hc
  exact ⟨by rw [hch], by rw [hch], present_last ..⟩

/-- The first half of a descriptor moves between host buffers. -/
theorem moveHalf_host (c e x y : Nat) (data : List Byte) (d : Desc) (s : State) (hc : c < s.dma.channels.length)
    (hentry : (s.channel c).entry (s.channel c).index = 2 ^ 48 + e) (he : e + 32 ≤ 2 ^ 48) (hsrc : d.src = 2 ^ 48 + x)
    (hdst : d.dst = 2 ^ 48 + y) (hx : x + d.length ≤ 2 ^ 48) (hy : y + d.length ≤ 2 ^ 48) (hmoved : d.moved = 0)
    (hlong : 2 ≤ d.length) (hlen : d.length / 2 ≤ data.length) :
    ∃ t, moveHalf c data d s = (some { d with
        moved := d.length / 2, crc := crcRun d.crc (data.take (d.length / 2)), status := 2 }, t) ∧
      t.dma.toHost = s.dma.toHost ++ [(y, data.take (d.length / 2)), (e + 21, [2])] ∧
      (c < 28 → t.mci = (signal (16 + c) s).mci) ∧ t.dma.channels.length = s.dma.channels.length ∧
      { t.channel c with
        grants := (s.channel c).grants, grantsNext := (s.channel c).grantsNext, maxWait := (s.channel c).maxWait,
        bytes := (s.channel c).bytes, cur := (s.channel c).cur } = s.channel c ∧
      (t.channel c).cur = some { d with
        moved := d.length / 2, crc := crcRun d.crc (data.take (d.length / 2)), status := 2 } := by
  obtain ⟨t, htexec, ht, -⟩ := moveBytes_host c e x y (d.length / 2) data d s hentry (by omega) hsrc hdst (by omega) (by omega)
    (by omega) (by omega)
  rw [hmoved, Nat.sub_zero] at htexec
  rw [hmoved, Nat.sub_zero, Nat.add_zero] at ht
  obtain ⟨u, huexec, hu, -⟩ := writeDesc_host c e 21 (leBytes 1 2) t (ht.entry.trans hentry) he (by decide) (by decide)
  have hsu := ht.trans hu
  have hlen : c < u.dma.channels.length := by rw [hsu.nChannels]; exact hc
  generalize hd' : ({ d with moved := d.length / 2, crc := crcRun d.crc (data.take (d.length / 2)), status := 2 } : Desc) = d'
  obtain ⟨v, hv⟩ : ∃ v, (u.modChannel c fun ch => { ch with cur := some d' }) = v := ⟨_, rfl⟩
  have hvch : v.channel c = { u.channel c with cur := some d' } := by rw [← hv, channel_modChannel _ _ _ hlen]
  have hvmci : v.mci = s.mci := by rw [← hv]; exact hsu.mci
  have hvhost : v.dma.toHost = u.dma.toHost := by rw [← hv]; rfl
  have hvlen : v.dma.channels.length = s.dma.channels.length := by
    rw [← hv, State.modChannel_channels, length_modAt, hsu.nChannels]
  have hdma : (dmaSignal c v).dma = v.dma := (congrArg State.dma (dmaSignal_frame c v) :)
  have hch : (dmaSignal c v).channel c = v.channel c := by rw [State.channel, hdma]; rfl
  refine ⟨dmaSignal c v, ?_, ?_, fun hc28 => dmaSignal_mci c s v hc28 hvmci, by rw [hdma, hvlen], ?_, by rw [hch, hvch]⟩
  · unfold moveHalf
    rw [htexec]
    dsimp only
    rw [huexec]
    dsimp only
    rw [hd', hv]
  · rw [hdma, hvhost, hsu.toHost]
    rfl
  · rw [hch, hvch]
    exact congrArg (fun ch : Channel => { ch with cur := (s.channel c).cur }) hsu.channel

end Sys2Proof.Machine
end

section
/-!
PROOFS. The events and commands of the DMA channels (spec/14_dma_compression.md): `DmaChannelsRun`.
-/
namespace Sys2Proof.Machine

open Sys2Proof

/-! ### The descriptor events between host buffers -/

theorem crcRun_append (crc : BitVec 32) (a b : List Byte) : crcRun (crcRun crc a) b = crcRun crc (a ++ b) :=
  List.foldl_append.symm

theorem HostMoved.done {c : Nat} {w : List (Nat × List Byte)} {s t : State} (h : HostMoved c w s t) :
    (t.channel c).done = (s.channel c).done := (congrArg Channel.done h.channel :)

/-- A descriptor that owes no HALF ends. -/
theorem execDmaDescriptorDone_host (c e x y : Nat) (data : List Byte) (d : Desc) (s : State) (hc : c < s.dma.channels.length)
    (hcur : (s.channel c).cur = some d) (hentry : (s.channel c).entry (s.channel c).index = 2 ^ 48 + e) (he : e + 32 ≤ 2 ^ 48)
    (hsrc : d.src = 2 ^ 48 + x) (hdst : d.dst = 2 ^ 48 + y) (hx : x + d.length ≤ 2 ^ 48) (hy : y + d.length ≤ 2 ^ 48)
    (hmoved : d.moved = 0) (hcrc : d.crc = 0xFFFFFFFF) (hruns : channelWaits s c = false) (hlong : d.length ≠ 0)
    (hhalf : d.halfDue = false) (hlen : data.length = d.length) :
    ∃ t, execDmaDescriptorDone c data s = .next t ∧
      t.dma.toHost = s.dma.toHost ++ [(y, data), (e + 24, leBytes 4 (crc32c data).toNat), (e + 21, [3])] ∧
      (t.channel c).cur = none ∧ (t.channel c).done = (s.channel c).done + 1 ∧
      (t.channel c).index = (if (s.channel c).ringSize ≤ (s.channel c).index + 1 then 0 else (s.channel c).index + 1) ∧
      (d.done = true → c < 28 → t.mci = (signal (16 + c) s).mci) ∧ (d.done = false → t.mci = s.mci) := by
  obtain ⟨t, htexec, ht, -⟩ := moveBytes_host c e x y d.length data d s hentry (by omega) hsrc hdst hx hy (by omega) (by omega)
  rw [hmoved, Nat.sub_zero, ← hlen, List.take_length, hlen, hcrc] at htexec
  rw [hmoved, Nat.sub_zero, ← hlen, List.take_length, Nat.add_zero] at ht
  generalize hd' : ({ d with moved := d.length, crc := crcRun 0xFFFFFFFF data } : Desc) = d' at htexec
  have hdone' : d'.done = d.done := by rw [← hd']
  have hcrc' : d'.crc ^^^ 0xFFFFFFFF = crc32c data := by rw [← hd']; rfl
  obtain ⟨hhost, hnone, hdone, hindex, hsignal, hquiet⟩ := endDesc_host c e d' t (by rw [ht.nChannels]; exact hc)
    (ht.entry.trans hentry) he
  rw [hdone'] at hsignal hquiet
  refine ⟨endDesc c d' t, ?_, ?_, hnone, ?_, ?_, fun hd hc28 => ?_, fun hd => (hquiet hd).trans ht.mci⟩
  · unfold execDmaDescriptorDone
    rw [hcur]
    simp only [hruns, hhalf, Bool.false_eq_true, if_false, Nat.sub_self, List.drop_zero, htexec]
  · rw [hhost, ht.toHost, hcrc', List.append_assoc]
    rfl
  · rw [hdone, ht.done]
  · have htindex : (t.channel c).index = (s.channel c).index := (congrArg Channel.index ht.channel :)
    have htsize : (t.channel c).ringSize = (s.channel c).ringSize := (congrArg Channel.ringSize ht.channel :)
    rw [hindex, htindex, htsize]
  · rw [hsignal hd hc28]
    exact signal_mci_congr _ _ _ ht.mci

/-- A descriptor that owes HALF reports it and ends. -/
theorem execDmaDescriptorDone_halves (c e x y : Nat) (data : List Byte) (d : Desc) (s : State) (hc : c < s.dma.channels.length)
    (hcur : (s.channel c).cur = some d) (hentry : (s.channel c).entry (s.channel c).index = 2 ^ 48 + e) (he : e + 32 ≤ 2 ^ 48)
    (hsrc : d.src = 2 ^ 48 + x) (hdst : d.dst = 2 ^ 48 + y) (hx : x + d.length ≤ 2 ^ 48) (hy : y + d.length ≤ 2 ^ 48)
    (hmoved : d.moved = 0) (hcrc : d.crc = 0xFFFFFFFF) (hruns : channelWaits s c = false) (hlong : 2 ≤ d.length)
    (hhalf : d.halfDue = true) (hlen : data.length = d.length) :
    ∃ t, execDmaDescriptorDone c data s = .next t ∧
      t.dma.toHost = s.dma.toHost ++ [(y, data.take (d.length / 2)), (e + 21, [2]),
        (y + d.length / 2, data.drop (d.length / 2)), (e + 24, leBytes 4 (crc32c data).toNat), (e + 21, [3])] ∧
      (t.channel c).cur = none ∧ (t.channel c).done = (s.channel c).done + 1 := by
  obtain ⟨t, htexec, hthost, -, htlen, htch, -⟩ := moveHalf_host c e x y data d s hc hentry he hsrc hdst hx hy hmoved hlong
    (by omega)
  have htentry : (t.channel c).entry (t.channel c).index = 2 ^ 48 + e := by
    have htindex : (t.channel c).index = (s.channel c).index := (congrArg Channel.index htch :)
    have htring : (t.channel c).ring = (s.channel c).ring := (congrArg Channel.ring htch :)
    rw [← hentry, Channel.entry, Channel.entry, htindex, htring]
  have htdone : (t.channel c).done = (s.channel c).done := (congrArg Channel.done htch :)
  generalize hd' : ({ d with moved := d.length / 2, crc := crcRun d.crc (data.take (d.length / 2)), status := 2 } : Desc) = d' at htexec
  have hdmoved : d'.moved = d.length / 2 := by rw [← hd']
  have hdlen : d'.length = d.length := by rw [← hd']
  have hdcrc : d'.crc = crcRun d.crc (data.take (d.length / 2)) := by rw [← hd']
  have hrest : (data.drop (d.length / 2)).take (d.length - d.length / 2) = data.drop (d.length / 2) :=
    List.take_of_length_le (by rw [List.length_drop]; omega)
  obtain ⟨u, huexec, hu, -⟩ := moveBytes_host c e x y d.length (data.drop (d.length / 2)) d' t htentry (by omega)
    (by rw [← hd']; exact hsrc) (by rw [← hd']; exact hdst) hx hy (by omega) (by rw [List.length_drop, hdmoved]; omega)
  rw [hdmoved, hrest, hdcrc, hcrc, crcRun_append, List.take_append_drop] at huexec
  rw [hdmoved, hrest] at hu
  generalize hd'' : ({ d' with moved := d.length, crc := crcRun 0xFFFFFFFF data } : Desc) = d'' at huexec
  have hcrc'' : d''.crc ^^^ 0xFFFFFFFF = crc32c data := by rw [← hd'']; rfl
  obtain ⟨hhost, hnone, hdone, -, -, -⟩ := endDesc_host c e d'' u (by rw [hu.nChannels, htlen]; exact hc)
    (hu.entry.trans htentry) he
  refine ⟨endDesc c d'' u, ?_, ?_, hnone, ?_⟩
  · unfold execDmaDescriptorDone
    rw [hcur]
    simp only [hruns, hhalf, Bool.false_eq_true, if_false, if_true, htexec, hdlen, hdmoved, hmoved, Nat.sub_zero, huexec]
  · rw [hhost, hu.toHost, hthost, hcrc'']
    simp
  · rw [hdone, hu.done, htdone]

theorem execDmaDescriptorHalf_host (c e x y : Nat) (data : List Byte) (d : Desc) (s : State) (hc : c < s.dma.channels.length)
    (hcur : (s.channel c).cur = some d) (hentry : (s.channel c).entry (s.channel c).index = 2 ^ 48 + e) (he : e + 32 ≤ 2 ^ 48)
    (hsrc : d.src = 2 ^ 48 + x) (hdst : d.dst = 2 ^ 48 + y) (hx : x + d.length ≤ 2 ^ 48) (hy : y + d.length ≤ 2 ^ 48)
    (hmoved : d.moved = 0) (hruns : channelWaits s c = false) (hlong : 2 ≤ d.length) (hhalf : d.halfDue = true)
    (hlen : data.length = d.length / 2) :
    ∃ t, execDmaDescriptorHalf c data s = .next t ∧ t.dma.toHost = s.dma.toHost ++ [(y, data), (e + 21, [2])] ∧
      ((t.channel c).cur.map fun g => (g.moved, g.status)) = some (d.length / 2, 2) ∧
      (c < 28 → t.mci = (signal (16 + c) s).mci) := by
  obtain ⟨t, htexec, hthost, htmci, -, -, htcur⟩ := moveHalf_host c e x y data d s hc hentry he hsrc hdst hx hy hmoved hlong
    (by omega)
  rw [← hlen, List.take_length] at hthost
  refine ⟨t, ?_, hthost, by rw [htcur]; rfl, htmci⟩
  unfold execDmaDescriptorHalf
  rw [hcur]
  simp only [hruns, hhalf, Bool.not_false, Bool.and_self, if_true, htexec]

/-- The bytes before a bus error have moved, as free bytes. -/
theorem busError_moved (c e x y k : Nat) (d : Desc) (s : State)
    (hentry : (s.channel c).entry (s.channel c).index = 2 ^ 48 + e) (he : e + 32 ≤ 2 ^ 48)
    (hsrc : d.src = 2 ^ 48 + x) (hdst : d.dst = 2 ^ 48 + y) (hx : x + d.length ≤ 2 ^ 48) (hy : y + d.length ≤ 2 ^ 48)
    (hmoved : d.moved = 0) (hk : k ≤ d.length) :
    ∃ t d', moveBytes c k (freeBytes s.free k) d { s with free := s.free + k } = (some d', t) ∧ d'.length = d.length ∧
      HostMoved c (if k = 0 then [] else [(y, freeBytes s.free k)]) s t := by
  have hstart (w) (t : State) (h : HostMoved c w { s with free := s.free + k } t) : HostMoved c w s t :=
    ⟨h.toHost, h.mci, h.place, h.nChannels, h.channel⟩
  by_cases hzero : k = 0
  · subst hzero
    obtain ⟨t, htexec, ht, -⟩ := moveBytes_none c e x y (freeBytes s.free 0) d { s with free := s.free + 0 } hentry (by omega) hsrc
      hdst (by omega) (by omega) hmoved
    exact ⟨t, d, htexec, rfl, hstart _ t ht⟩
  · obtain ⟨t, htexec, ht, -⟩ := moveBytes_host c e x y k (freeBytes s.free k) d { s with free := s.free + k } hentry (by omega)
      hsrc hdst (by omega) (by omega) (by omega) (by simp)
    rw [hmoved, Nat.sub_zero, List.take_of_length_le (by simp)] at htexec ht
    rw [if_neg hzero]
    exact ⟨t, _, htexec, rfl, hstart _ t ht⟩

theorem execDmaBusError_moved (c k : Nat) (onWrite : Bool) (offset : Nat) (d d' : Desc) (s t : State)
    (hcur : (s.channel c).cur = some d) (hmoved : d.moved = 0) (hk : k = min offset d.length)
    (hmove : moveBytes c k (freeBytes s.free k) d { s with free := s.free + k } = (some d', t)) :
    execDmaBusError c onWrite offset s = .next (if d'.length ≤ offset && onWrite then ringError c t
        else badDesc c (if onWrite then 2 else 1) k d'.done t) := by
  unfold execDmaBusError
  rw [hcur]
  simp only [hmoved, Nat.zero_max, Nat.sub_zero, ← hk, hmove]

/-! ### A descriptor is polled -/

/-- The state in which a channel's descriptor has been read. -/
def polled (c : Nat) (s : State) : State :=
  spend c 32 (if (s.channel c).st = 2 then s.advanceTo ((s.channel c).pollAt.toNat + (s.channel c).pollUs * 1600) else s)

theorem polled_granted (c : Nat) (s : State) : Granted s (polled c s) := by
  unfold polled
  split
  · exact (granted_advanceTo s _).trans (granted_spend c 32 _)
  · exact granted_spend c 32 s

/-- What a poll of a descriptor in host memory reads, and the state in which it has. -/
theorem polled_read (c a : Nat) (b : Option (List Byte)) (s : State)
    (hplace : s.place ((s.channel c).entry (s.channel c).index) = .host a) :
    let u := if (s.channel c).st = 2 then s.advanceTo ((s.channel c).pollAt.toNat + (s.channel c).pollUs * 1600) else s
    let r := fetchFrom (16 + c) ((s.channel c).entry (s.channel c).index) 32 (b.getD []) u
    r.1 = (b.getD []).take (min 32 (2 ^ 48 - a)) ∧ spend c 32 r.2.2 = polled c s := by
  intro u r
  have hu : u.place ((s.channel c).entry (s.channel c).index) = .host a := by
    rw [← hplace]
    unfold u
    split
    · exact (granted_advanceTo s _).place _
    · rfl
  unfold r fetchFrom
  simp only [hu]
  exact ⟨trivial, rfl⟩

/-- A channel that awaits its descriptor polls it. -/
theorem awaitsDescriptor (c : Nat) (s : State)
    (hst : (s.channel c).st = 1 ∨ (s.channel c).st = 2) (hcur : (s.channel c).cur = none) (hwait : channelWaits s c = false) :
    (!((s.channel c).st = 1 || (s.channel c).st = 2) || (s.channel c).cur.isSome || channelWaits s c) = false := by
  rw [hcur, hwait]
  rcases hst with h | h <;> simp [h]

theorem execDmaDescriptorPoll_lost (c a : Nat) (s : State) (hst : (s.channel c).st = 1 ∨ (s.channel c).st = 2)
    (hcur : (s.channel c).cur = none) (hplace : s.place ((s.channel c).entry (s.channel c).index) = .host a)
    (hwait : channelWaits s c = false) : execDmaDescriptorPoll c none s = .next (ringError c (polled c s)) := by
  obtain ⟨hread, hstate⟩ := polled_read c a none s hplace
  unfold execDmaDescriptorPoll
  simp only [awaitsDescriptor c s hst hcur hwait, Bool.false_eq_true, if_false, Option.getD_none] at hread hstate ⊢
  simp only [hread, hstate, List.take_nil, List.length_nil, if_true, Nat.ofNat_pos]

theorem execDmaDescriptorPoll_unready (c a : Nat) (b : List Byte) (s : State) (hst : (s.channel c).st = 1 ∨ (s.channel c).st = 2)
    (hcur : (s.channel c).cur = none) (hplace : s.place ((s.channel c).entry (s.channel c).index) = .host a)
    (hlen : b.length = 32) (ha : a + 32 ≤ 2 ^ 48) (hwait : channelWaits s c = false) (hno : leAt b 21 1 ≠ 1) :
    execDmaDescriptorPoll c (some b) s =
      .next ((polled c s).modChannel c fun ch => { ch with st := 2, pollAt := (polled c s).time }) := by
  obtain ⟨hread, hstate⟩ := polled_read c a (some b) s hplace
  rw [Nat.min_eq_left (Nat.le_sub_of_add_le' ha), Option.getD_some, ← hlen, List.take_length, hlen] at hread
  unfold leAt at hno
  unfold execDmaDescriptorPoll
  simp only [awaitsDescriptor c s hst hcur hwait, Bool.false_eq_true, if_false, Option.getD_some] at hread hstate ⊢
  simp only [hread, hstate, hlen, lt_irrefl, if_false, if_pos hno]

theorem channel_taken (c : Nat) (d : Desc) (u : State) (hc : c < u.dma.channels.length) :
    ((u.modChannel c fun ch => { ch with st := 1 }).modChannel c fun ch => { ch with cur := some d }).channel c =
      { u.channel c with st := 1, cur := some d } := by
  rw [channel_modChannel _ _ _ ((length_modAt ..).symm ▸ hc), channel_modChannel _ _ _ hc]

theorem execDmaDescriptorPoll_ready (c a : Nat) (b : List Byte) (s : State) (hc : c < s.dma.channels.length)
    (hst : (s.channel c).st = 1 ∨ (s.channel c).st = 2)
    (hcur : (s.channel c).cur = none) (hplace : s.place ((s.channel c).entry (s.channel c).index) = .host a)
    (hlen : b.length = 32) (ha : a + 32 ≤ 2 ^ 48) (hwait : channelWaits s c = false) (hready : leAt b 21 1 = 1)
    (hsome : leAt b 16 4 ≠ 0) (hctrl : leAt b 20 1 < 8) :
    ∃ t d, execDmaDescriptorPoll c (some b) s = .next t ∧ t.channel c = { (polled c s).channel c with st := 1, cur := some d } ∧
      d.src = leAt b 0 8 ∧ d.dst = leAt b 8 8 ∧ d.length = leAt b 16 4 ∧ d.half = (leAt b 20 1).testBit 0 ∧
      d.done = (leAt b 20 1).testBit 1 ∧ d.moved = 0 ∧ d.status = 1 ∧
      ((leAt b 20 1).testBit 2 = false → d.crc = 0xFFFFFFFF) ∧ { t with dma := (polled c s).dma } = polled c s := by
  obtain ⟨hread, hstate⟩ := polled_read c a (some b) s hplace
  rw [Nat.min_eq_left (Nat.le_sub_of_add_le' ha), Option.getD_some, ← hlen, List.take_length, hlen] at hread
  have hpc : c < (polled c s).dma.channels.length := by rw [(polled_granted c s).nChannels]; exact hc
  unfold execDmaDescriptorPoll
  simp only [awaitsDescriptor c s hst hcur hwait, Bool.false_eq_true, if_false, Option.getD_some] at hread hstate ⊢
  simp only [hread, hstate, hlen, lt_irrefl, if_false]
  unfold leAt at hready hsome hctrl ⊢
  have hchecks : (decide (ofLe ((b.drop 16).take 4) = 0) || decide (8 ≤ ofLe ((b.drop 20).take 1))) = false := by
    rw [decide_eq_false hsome, decide_eq_false (not_le.2 hctrl)]
    rfl
  generalize polled c s = u at hpc ⊢
  simp only [hready, hchecks, ne_eq, not_true_eq_false, if_false, Bool.false_eq_true]
  refine ⟨_, _, rfl, channel_taken c _ u hpc, rfl, rfl, rfl, rfl, rfl, rfl, rfl, fun hcont => ?_, rfl⟩
  simp only [hcont]

/-! ### A channel is disabled (R352) -/

theorem dramWorks_scramble (requester address n : Nat) (s : State) : DramWorks s (scramble requester address n s) := by
  unfold scramble
  split
  · have hfree : DramWorks s { s with free := s.free + n } := ⟨rfl, rfl⟩
    exact hfree.trans (dramWorks_dramStore ..)
  · exact DramWorks.refl s

/-- A channel as its disable leaves it. -/
def Disabled (old new : Channel) : Prop := new.st = 0 ∧ new.cur = if old.st = 0 then old.cur else none

/-- The destination of the descriptor in execution holds free bytes. -/
def droppedWork (c : Nat) (s : State) : State :=
  match (s.channel c).cur with
  | some d => scramble (16 + c) d.dst d.length s
  | none => s

theorem dramWorks_droppedWork (c : Nat) (s : State) : DramWorks s (droppedWork c s) := by
  unfold droppedWork
  split
  · exact dramWorks_scramble ..
  · exact DramWorks.refl s

theorem disableChannel_running (c : Nat) (s : State) (h : (s.channel c).st ≠ 0) :
    disableChannel c s = State.modChannel { droppedWork c s with free := (droppedWork c s).free + 4 } c fun ch =>
      { ch with st := 0, cur := none, prevCrc := none, done := BitVec.ofNat 64 (Config.freeNat (droppedWork c s).free),
                bytes := BitVec.ofNat 64 (Config.freeNat ((droppedWork c s).free + 1)),
                bad := { val := BitVec.ofNat 32 (Config.freeNat ((droppedWork c s).free + 2)) },
                maxWait := BitVec.ofNat 32 (Config.freeNat ((droppedWork c s).free + 3)) } := by
  unfold disableChannel
  rw [if_neg h]
  rfl

theorem disableChannel_idle (c : Nat) (s : State) (h : (s.channel c).st = 0) : disableChannel c s = s := by
  unfold disableChannel
  rw [if_pos h]

/-- A disable moves on the free values and DRAM, and of the channels changes the one alone. -/
theorem disableChannel_effect (c : Nat) (s : State) (hc : c < s.dma.channels.length) :
    Disabled (s.channel c) ((disableChannel c s).channel c) ∧
      (∀ i, i ≠ c → (disableChannel c s).channel i = s.channel i) ∧
      (disableChannel c s).dma.channels.length = s.dma.channels.length ∧ (disableChannel c s).mci = s.mci := by
  by_cases hst : (s.channel c).st = 0
  · rw [disableChannel_idle c s hst]
    exact ⟨⟨hst, (if_pos hst).symm⟩, fun _ _ => rfl, rfl, rfl⟩
  · have hworks := dramWorks_droppedWork c s
    rw [disableChannel_running c s hst]
    generalize droppedWork c s = u at hworks ⊢
    have hdma : u.dma = s.dma := (congrArg State.dma hworks.rest :)
    have hmci : u.mci = s.mci := (congrArg State.mci hworks.rest :)
    refine ⟨?_, fun i hi => ?_, ?_, hmci⟩
    · rw [channel_modChannel _ _ _ (by change c < u.dma.channels.length; rw [hdma]; exact hc)]
      exact ⟨rfl, (if_neg hst).symm⟩
    · rw [State.channel, State.modChannel_channels, at'_modAt_ne _ _ _ _ _ (Ne.symm hi), hdma]
      rfl
    · rw [State.modChannel_channels, length_modAt, hdma]

theorem disableChannels_effect (cs : List Nat) (s : State) (hcs : ∀ c ∈ cs, c < s.dma.channels.length) :
    (∀ c ∈ cs, Disabled (s.channel c) ((cs.foldl (fun s c => disableChannel c s) s).channel c)) ∧
      (∀ c, c ∉ cs → (cs.foldl (fun s c => disableChannel c s) s).channel c = s.channel c) ∧
      (cs.foldl (fun s c => disableChannel c s) s).mci = s.mci := by
  induction cs generalizing s with
  | nil => exact ⟨fun c hc => absurd hc List.not_mem_nil, fun _ _ => rfl, rfl⟩
  | cons a cs ih =>
    obtain ⟨hdone, hothers, hlen, hmci⟩ := disableChannel_effect a s (hcs a List.mem_cons_self)
    obtain ⟨ihdone, ihothers, ihmci⟩ := ih (disableChannel a s) fun c hc => by
      rw [hlen]
      exact hcs c (List.mem_cons_of_mem a hc)
    rw [List.foldl_cons]
    refine ⟨fun c hc => ?_, fun c hc => ?_, ihmci.trans hmci⟩
    · by_cases hin : c ∈ cs
      · have hstep := ihdone c hin
        by_cases hca : c = a
        · subst hca
          exact ⟨hstep.1, by rw [hstep.2, if_pos hdone.1, hdone.2]⟩
        · rw [hothers c hca] at hstep
          exact hstep
      · obtain rfl : c = a := (List.mem_cons.1 hc).resolve_right hin
        rw [ihothers c hin]
        exact hdone
    · rw [ihothers c fun hin => hc (List.mem_cons_of_mem a hin), hothers c fun heq => hc (heq ▸ List.mem_cons_self)]

/-! ### The commands -/

theorem execDmaChannelConfig_enables (rq : Req) (c : Nat) (s : State) (hs : served 0x0C01 rq s = true) (hc' : rq.u8 0 = c)
    (hc : c < 28) (henable : rq.u8 1 = 1) (hshare : 1 ≤ rq.u8 2) (hshare' : rq.u8 2 ≤ 64) (hsize : 2 ≤ rq.u32 4)
    (hsize' : rq.u32 4 ≤ 65536) (hring : rq.u64 8 < 2 ^ 49) (halign : rq.u64 8 % 32 = 0) (hpoll : 1 ≤ rq.u16 16)
    (hpoll' : rq.u16 16 ≤ 1000) (hfence : fenced s 0x0181 c = false) (hgrants : grantSum s c (4 * rq.u8 2) ≤ 256) :
    execDmaChannelConfig rq s = .next (respond rq 0x0C01 Status.ok [] ((newShare c (4 * rq.u8 2) s).modChannel c fun ch =>
      { ch with st := 1, grants := 4 * rq.u8 2, grantsNext := none, ringSize := rq.u32 4, ring := rq.u64 8,
                pollUs := rq.u16 16, index := 0, cur := none, prevCrc := none, done := 0, bytes := 0, bad := {},
                maxWait := 0 })) := by
  have hkind : rq.u64 8 / 2 ^ 48 ≤ 1 := by
    simp only [Nat.reducePow] at hring ⊢
    omega
  unfold execDmaChannelConfig
  simp only [hc', henable, decide_true, if_true]
  refine command_pass 0x0C01 rq _ _ s hs ?_
  simp only [List.forall_mem_cons]
  refine ⟨decide_eq_false (by omega), ?_, decide_eq_false (by omega), hfence, ?_, List.forall_mem_nil _⟩
  · simp [halign]
    omega
  · simpa using hgrants

theorem execDmaChannelDisable_masked (rq : Req) (s : State) (hs : served 0x0C02 rq s = true) (hlen : s.dma.channels.length = 32)
    (hmask : rq.u32 0 < 2 ^ 28) :
    ∃ t p, execDmaChannelDisable rq s = .next (respond rq 0x0C02 Status.ok p t) ∧ p.length = 4 ∧
      (∀ c, c < 28 → (rq.u32 0).testBit c = true → (t.channel c).st = 0 ∧ (t.channel c).cur = (if (s.channel c).st = 0 then
        (s.channel c).cur else none)) ∧
      (∀ c, (rq.u32 0).testBit c = false → t.channel c = s.channel c) ∧ t.mci = s.mci := by
  obtain ⟨hdone, hothers, hmci⟩ := disableChannels_effect ((List.range 28).filter fun c => (rq.u32 0).testBit c) s fun c hc => by
    have := List.mem_range.1 (List.mem_filter.1 hc).1
    omega
  unfold execDmaChannelDisable
  refine ⟨_, _, command_pass 0x0C02 rq _ _ s hs ?_, length_leBytes .., fun c hc hbit => ?_, fun c hbit => ?_, hmci⟩
  · simp only [List.forall_mem_cons]
    exact ⟨decide_eq_false (not_le.2 hmask), List.forall_mem_nil _⟩
  · exact hdone c (List.mem_filter.2 ⟨List.mem_range.2 hc, hbit⟩)
  · exact hothers c fun hin => by simp [hbit] at hin

theorem execDmaChannelStatus_reply (rq : Req) (s : State) (hs : served 0x0C03 rq s = true) (hc : rq.u8 0 < 32) :
    ∃ p, execDmaChannelStatus rq s = .next (respond rq 0x0C03 Status.ok p s) ∧ p.length = 32 ∧
      leAt p 8 8 = (s.channel (rq.u8 0)).done.toNat ∧ leAt p 16 8 = (s.channel (rq.u8 0)).bytes.toNat ∧
      leAt p 24 4 = (s.channel (rq.u8 0)).bad.n := by
  have hdone := (s.channel (rq.u8 0)).done.isLt
  have hbytes := (s.channel (rq.u8 0)).bytes.isLt
  unfold execDmaChannelStatus
  refine ⟨_, command_pass 0x0C03 rq _ _ s hs (by simp [hc]), by simp, ?_, ?_, ?_⟩
  all_goals
    simp only [List.append_assoc]
    simp [leAt_left, leAt_right, leAt_leBytes, leAt_count]
  · omega
  · omega

theorem execDmaWindowSet_sets (rq : Req) (s : State) (hs : served 0x0C04 rq s = true) (hw : 1 ≤ rq.u8 0) (hw' : rq.u8 0 ≤ 15)
    (hbase : rq.u64 8 = 2 ^ 64 - 1 ∨ (rq.u64 8 < 2 ^ 48 ∧ rq.u64 8 % 65536 = 0)) :
    execDmaWindowSet rq s = .next (respond rq 0x0C04 Status.ok [] { s with dma := { s.dma with
      windows := modAt s.dma.windows (rq.u8 0 - 1) fun _ =>
        if rq.u64 8 = 2 ^ 64 - 1 then none else some (rq.u64 8) } }) := by
  unfold execDmaWindowSet
  refine command_pass 0x0C04 rq _ _ s hs ?_
  simp only [List.forall_mem_cons]
  refine ⟨by simp; omega, ?_, List.forall_mem_nil _⟩
  rcases hbase with h | ⟨h, halign⟩
  · rw [decide_eq_true h]
    rfl
  · rw [decide_eq_false (not_le.2 h), halign]
    simp

theorem execDmaChannelRaw_waits (rq : Req) (s : State) (hs : served 0x0C80 rq s = true) (hc : rq.u8 0 < 28) (hfine : 1 ≤ rq.u16 2)
    (hfine' : rq.u16 2 ≤ 256) (hgrants : (s.channel (rq.u8 0)).st = 0 ∨ grantSum s (rq.u8 0) (rq.u16 2) ≤ 256) :
    execDmaChannelRaw rq s = .next (respond rq 0x0C80 Status.ok []
      (s.modChannel (rq.u8 0) fun ch => { ch with grantsNext := some (rq.u16 2) })) := by
  unfold execDmaChannelRaw
  refine command_pass 0x0C80 rq _ _ s hs ?_
  simp only [List.forall_mem_cons]
  refine ⟨decide_eq_false (by omega), by simp; omega, decide_eq_false (by omega), ?_, List.forall_mem_nil _⟩
  rcases hgrants with h | h <;> simp [h]

/-- Settles O41: the descriptors between host buffers through `HostMoved`, the commands by their checks. -/
theorem dmaChannelsRun : Obligations.DmaChannelsRun := by
  unfold Obligations.DmaChannelsRun
  refine ⟨?_, fun rq s hs hlen hmask => execDmaChannelDisable_masked rq s hs hlen hmask,
    fun rq s hs hc => execDmaChannelStatus_reply rq s hs hc,
    fun rq s hs hw hw' hbase => execDmaWindowSet_sets rq s hs hw hw' hbase,
    fun rq s hs hc h h' hg => execDmaChannelRaw_waits rq s hs hc h h' hg, ?_, ?_, ?_, ?_, ?_, ?_, ?_⟩
  · intro rq s hs c hc henable h1 h2 h3 h4 h5 h6 h7 h8 hfence hgrants
    exact execDmaChannelConfig_enables rq c s hs rfl hc henable h1 h2 h3 h4 h5 h6 h7 h8 hfence hgrants
  · intro c a b s hc hst hcur hplace hlen ha hwait u
    exact ⟨fun hno => execDmaDescriptorPoll_unready c a b s hst hcur hplace hlen ha hwait hno,
      fun hready hsome hctrl => execDmaDescriptorPoll_ready c a b s hc hst hcur hplace hlen ha hwait hready hsome hctrl⟩
  · intro c a s hc hst hcur hplace hwait
    obtain ⟨h3, -, hlast⟩ := ringError_effect c (polled c s) (by rw [(polled_granted c s).nChannels]; exact hc)
    exact ⟨_, execDmaDescriptorPoll_lost c a s hst hcur hplace hwait, h3, hlast⟩
  · intro c e x y d data s hc hcur hentry he hsrc hx hdst hy hmoved hcrc hwait
    refine ⟨fun hlong hhalf hlen => execDmaDescriptorDone_host c e x y data d s hc hcur hentry he hsrc hdst hx hy hmoved hcrc hwait
        hlong hhalf hlen,
      fun hlong hhalf hlen => execDmaDescriptorDone_halves c e x y data d s hc hcur hentry he hsrc hdst hx hy hmoved hcrc hwait
        hlong hhalf hlen,
      fun hlong hhalf hlen => execDmaDescriptorHalf_host c e x y data d s hc hcur hentry he hsrc hdst hx hy hmoved hwait hlong
        hhalf hlen, ?_, fun offset hoff => ?_⟩
    · intro onWrite offset k hoff
      obtain ⟨t, d', hmove, hlength, ht⟩ := busError_moved c e x y k d s hentry he hsrc hdst hx hy hmoved (Nat.min_le_right ..)
      have hexec := execDmaBusError_moved c k onWrite offset d d' s t hcur hmoved rfl hmove
      rw [hlength, if_neg (by rcases hoff with h | h <;> simp [h])] at hexec
      obtain ⟨hhost, hbad, hnone, hlast⟩ := badDesc_host c e (if onWrite then 2 else 1) k d'.done t
        (by rw [ht.nChannels]; exact hc) (ht.entry.trans hentry) he
      refine ⟨_, freeBytes s.free k, hexec, length_freeBytes .., ?_, ?_, hnone, hlast⟩
      · rw [hhost, ht.toHost]
        cases onWrite <;> rfl
      · have htbad : (t.channel c).bad = (s.channel c).bad := (congrArg Channel.bad ht.channel :)
        rw [hbad, htbad]
    · obtain ⟨t, d', hmove, hlength, ht⟩ := busError_moved c e x y (min offset d.length) d s hentry he hsrc hdst hx hy hmoved
        (Nat.min_le_right ..)
      have hexec := execDmaBusError_moved c _ true offset d d' s t hcur hmoved rfl hmove
      rw [hlength, if_pos (by simp [hoff])] at hexec
      exact ⟨_, hexec, ringError_effect c t (by rw [ht.nChannels]; exact hc)⟩
  · intro c data b s hwait
    refine ⟨?_, ?_, ?_⟩
    · change execDmaDescriptorPoll c b s = _
      unfold execDmaDescriptorPoll
      simp only [hwait, Bool.or_true, if_true]
    · change execDmaDescriptorHalf c data s = _
      unfold execDmaDescriptorHalf
      cases (s.channel c).cur with
      | none => rfl
      | some d => simp only [hwait, Bool.not_true, Bool.and_false, Bool.false_eq_true, if_false]
    · change execDmaDescriptorDone c data s = _
      unfold execDmaDescriptorDone
      cases (s.channel c).cur with
      | none => rfl
      | some d => simp only [hwait, if_true]
  · intro c data w o s hcur
    refine ⟨?_, ?_, ?_⟩
    · change execDmaDescriptorHalf c data s = _
      unfold execDmaDescriptorHalf
      rw [hcur]
    · change execDmaDescriptorDone c data s = _
      unfold execDmaDescriptorDone
      rw [hcur]
    · change execDmaBusError c w o s = _
      unfold execDmaBusError
      rw [hcur]
  · intro c d data s hcur hhalf
    change execDmaDescriptorHalf c data s = _
    unfold execDmaDescriptorHalf
    simp only [hcur, hhalf, Bool.false_and, Bool.false_eq_true, if_false]
  · intro s u
    have hu : u.dma = s.dma := (congrArg State.dma (advanceTo_frame s _) :)
    refine ⟨renewBudgets u, rfl, rfl, rfl, ?_, rfl⟩
    unfold renewBudgets
    rw [hu]

end Sys2Proof.Machine
end

section
/-!
PROOFS. DEFLATE jobs, their results and the bound of a stream's output (spec/14_dma_compression.md): `CompressionJobsRun`.
-/
namespace Sys2Proof.Machine

open Sys2Proof

/-! ### What is decompressed stays within its limit -/

/-- A step of decoding has kept the limit, whether it goes on or ends. -/
def StepWithin (limit : Nat) : InflateStep → Prop
  | .ok x => x.out.length ≤ limit
  | .error e => e.2.out.length ≤ limit

theorem copyBack_length (d n room : Nat) (out : List Byte) : (copyBack d n room out).1.length ≤ out.length + room := by
  induction n generalizing room out with
  | zero => exact Nat.le_add_right ..
  | succ n ih => cases room with
    | zero => exact le_rfl
    | succ room =>
      refine (ih room _).trans ?_
      rw [List.length_cons]
      omega

theorem takeCopy_within (dist : PrefixCode) (limit sym : Nat) (x : Inflating) (h : x.out.length ≤ limit) :
    StepWithin limit (takeCopy dist limit sym x) := by
  unfold takeCopy
  dsimp only
  split
  · exact h
  · split
    · exact h
    · split
      · exact h
      · split
        · exact h
        · split
          · exact h
          · split
            · exact h
            · have hcopy (d n : Nat) : (copyBack d n (limit - x.out.length) x.out).1.length ≤ limit :=
                (copyBack_length ..).trans (by omega)
              split
              · exact hcopy _ _
              · exact hcopy _ _

/-- One symbol of a block is taken, and then the rest. -/
def symbolStep (lit dist : PrefixCode) (limit fuel : Nat) (x : Inflating) : InflateStep :=
  match lit.take x.bits with
  | .error r => .error (r, x)
  | .ok (sym, bs) =>
    if sym < 256 then
      if x.out.length < limit then takeSymbols lit dist limit fuel ⟨BitVec.ofNat 8 sym :: x.out, bs⟩
      else .error (.limit, ⟨x.out, bs⟩)
    else if sym = 256 then .ok ⟨x.out, bs⟩
    else match takeCopy dist limit (sym - 257) ⟨x.out, bs⟩ with
      | .ok x => takeSymbols lit dist limit fuel x
      | .error e => .error e

theorem takeSymbols_zero (lit dist : PrefixCode) (limit : Nat) (x : Inflating) :
    takeSymbols lit dist limit 0 x = .error (.truncated, x) := by
  cases x
  rfl

set_option maxRecDepth 20000 in
theorem takeSymbols_succ (lit dist : PrefixCode) (limit fuel : Nat) (x : Inflating) :
    takeSymbols lit dist limit (fuel + 1) x = symbolStep lit dist limit fuel x := by
  rfl

theorem takeSymbols_within (lit dist : PrefixCode) (limit fuel : Nat) (x : Inflating) (h : x.out.length ≤ limit) :
    StepWithin limit (takeSymbols lit dist limit fuel x) := by
  induction fuel generalizing x with
  | zero =>
    rw [takeSymbols_zero]
    exact h
  | succ fuel ih =>
    rw [takeSymbols_succ, symbolStep]
    cases lit.take x.bits with
    | error r => exact h
    | ok taken =>
      obtain ⟨sym, bs⟩ := taken
      dsimp only
      by_cases hbyte : sym < 256
      · rw [if_pos hbyte]
        by_cases hroom : x.out.length < limit
        · rw [if_pos hroom]
          exact ih _ (by rw [List.length_cons]; omega)
        · rw [if_neg hroom]
          exact h
      · rw [if_neg hbyte]
        by_cases hend : sym = 256
        · rw [if_pos hend]
          exact h
        · rw [if_neg hend]
          generalize sym - 257 = k
          have hcopy := takeCopy_within dist limit k ⟨x.out, bs⟩ h
          cases hstep : takeCopy dist limit k ⟨x.out, bs⟩ with
          | error e =>
            rw [hstep] at hcopy
            exact hcopy
          | ok y =>
            rw [hstep] at hcopy
            exact ih y hcopy

theorem takeStored_within (limit n : Nat) (x : Inflating) (h : x.out.length ≤ limit) :
    StepWithin limit (takeStored limit n x) := by
  induction n generalizing x with
  | zero => exact h
  | succ n ih =>
    unfold takeStored
    split
    · exact h
    · split
      · exact ih _ (by rw [List.length_cons]; omega)
      · exact h

theorem takeBlock_within (kind limit : Nat) (x : Inflating) (h : x.out.length ≤ limit) :
    StepWithin limit (takeBlock kind limit x) := by
  unfold takeBlock
  split
  · unfold storedBlock
    dsimp only
    split
    · exact h
    · split
      · exact h
      · split
        · exact takeStored_within _ _ _ h
        · exact h
  · split
    · exact takeSymbols_within _ _ _ _ _ h
    · split
      · split
        · exact h
        · exact takeSymbols_within _ _ _ _ _ h
      · exact h

theorem inflateBlocks_within (limit fuel : Nat) (bl : List (Nat × Nat)) (x : Inflating) (h : x.out.length ≤ limit) :
    (inflateBlocks limit fuel bl x).output.length ≤ limit := by
  induction fuel generalizing bl x with
  | zero => simpa [inflateBlocks] using h
  | succ fuel ih =>
    unfold inflateBlocks
    dsimp only
    split
    · simpa using h
    · rename_i head bs htake
      have hblock := takeBlock_within (head / 2) limit ⟨x.out, bs⟩ h
      split
      · rename_i e he
        rw [he] at hblock
        change e.2.out.reverse.length ≤ limit
        rw [List.length_reverse]
        exact hblock
      · rename_i y hy
        rw [hy] at hblock
        split
        · change y.out.reverse.length ≤ limit
          rw [List.length_reverse]
          exact hblock
        · exact ih _ y hblock

theorem inflate_within (limit : Nat) (input : List Byte) : (inflate limit input).output.length ≤ limit :=
  inflateBlocks_within limit _ [] _ (Nat.zero_le _)

/-! ### Outcomes -/

theorem deflateOutcome_done (input : List Byte) (want chain room : Nat) (h : (deflateOutcome input want chain room).result = 0) :
    (deflateOutcome input want chain room).output = deflate input chain ∧
      (deflateOutcome input want chain room).output.length < want := by
  unfold deflateOutcome at h ⊢
  dsimp only at h ⊢
  generalize deflate input chain = out at h ⊢
  have hshort : ¬ input.length < want := fun hs => by simp [hs] at h
  have hsmall : ¬ want ≤ out.length := fun hs => by simp [hshort, hs] at h
  have hroom : ¬ room < out.length := fun hs => by simp [hshort, hsmall, hs] at h
  rw [List.take_of_length_le (by omega)]
  exact ⟨rfl, by omega⟩

theorem inflateOutcome_done (input : List Byte) (want limit room : Nat) (crc : BitVec 32)
    (h : (inflateOutcome input want limit room crc).result = 0) :
    (inflateOutcome input want limit room crc).output = (inflate (min limit room) input).output ∧
      (inflate (min limit room) input).ending = .done ∧ crc32c (inflateOutcome input want limit room crc).output = crc := by
  unfold inflateOutcome at h ⊢
  dsimp only at h ⊢
  refine ⟨rfl, ?_⟩
  cases hend : (inflate (min limit room) input).ending with
  | limit =>
    simp only [hend] at h
    split at h <;> simp at h
  | bad => simp [hend] at h
  | truncated =>
    simp only [hend] at h
    split at h <;> simp at h
  | done =>
    simp only [hend] at h
    refine ⟨rfl, ?_⟩
    by_contra hcrc
    simp [hcrc] at h

/-! ### Jobs begin and end -/

theorem Granted.engines {s t : State} (h : Granted s t) : t.dma.engines = s.dma.engines := (congrArg Dma.engines h.dma :)

theorem granted_newShare (i grants : Nat) (s : State) : Granted s (newShare i grants s) := by
  unfold newShare
  exact (granted_inWindow s).trans ⟨rfl, rfl, rfl, fun _ => rfl⟩

theorem deflate_modEngine (s : State) (e : Nat) (f : Deflate → Deflate) (he : e < s.dma.engines.length) :
    (s.modEngine e f).deflate e = f (s.deflate e) := at'_modAt_same _ _ _ _ he

theorem newShare_frame (i grants : Nat) (s : State) : { newShare i grants s with dma := s.dma } = s := by
  unfold newShare
  exact inWindow_frame s

theorem beginJob_effect (e : Nat) (j : EngineJob) (s : State) (he : e < s.dma.engines.length) :
    ((beginJob e j s).deflate e).cur = some j ∧ ((beginJob e j s).deflate e).share = (s.deflate e).shareNext ∧
      (beginJob e j s).dma.fwQueue = s.dma.fwQueue ∧ (beginJob e j s).dma.queue = s.dma.queue ∧
      { beginJob e j s with dma := s.dma } = s := by
  have hg := granted_newShare (32 + e) (4 * (s.deflate e).shareNext) s
  have hframe := newShare_frame (32 + e) (4 * (s.deflate e).shareNext) s
  unfold beginJob
  generalize newShare (32 + e) (4 * (s.deflate e).shareNext) s = u at hg hframe
  have hsame : u.deflate e = s.deflate e := by rw [State.deflate, hg.engines]; rfl
  have hrun : (u.modEngine e fun d => { d with cur := some j, share := d.shareNext, aborted := false }).deflate e =
      { s.deflate e with cur := some j, share := (s.deflate e).shareNext, aborted := false } := by
    rw [deflate_modEngine _ _ _ (by rw [hg.engines]; exact he), hsame]
  refine ⟨by rw [hrun], by rw [hrun], (congrArg Dma.fwQueue hg.dma :), (congrArg Dma.queue hg.dma :), hframe⟩

/-- The first firmware job that does not stall. -/
theorem firstRunnable (p : FwJob → Bool) (front rest : List FwJob) (j : FwJob) (hfront : ∀ k ∈ front, p k = true)
    (hj : p j = false) : ((front ++ j :: rest).find? fun k => !p k) = some j ∧ (front ++ j :: rest).erase j = front ++ rest := by
  have hnot : j ∉ front := fun hin => by
    rw [hfront j hin] at hj
    cases hj
  refine ⟨?_, ?_⟩
  · rw [List.find?_append, List.find?_eq_none.2 fun k hk => by simp [hfront k hk]]
    simp [hj]
  · rw [List.erase_append_right _ hnot, List.erase_cons_head]

theorem place_host_any (a y : Nat) (s t : State) (h : s.place a = .host y) : t.place a = .host y := by
  unfold State.place at h ⊢
  dsimp only at h ⊢
  split at h
  · split at h <;> cases h
  · split at h
    · rename_i hzero hone
      rw [if_neg hzero, if_pos hone]
      exact h
    · split at h
      · split at h
        · split at h
          · split at h <;> cases h
          · cases h
        · cases h
      · split at h
        · split at h <;> cases h
        · cases h

/-- A read by a requester changes nothing of the state but DRAM's own affairs. -/
theorem dramWorks_fetchFrom (requester a n : Nat) (data : List Byte) (s : State) :
    DramWorks s (fetchFrom requester a n data s).2.2 := by
  unfold fetchFrom
  split
  · exact dramWorks_dramFetch ..
  · exact DramWorks.refl s
  · exact DramWorks.refl s
  · exact DramWorks.refl s

/-- How a job that is DONE ends: its output is stored, its engine counts it, and it is completed. -/
theorem endHostJob_eq (e : Nat) (j : CJob) (r : JobOutcome) (s : State) (hr : r.result = 0) :
    ∃ payload, endHostJob e j r s = complete j.ctx Status.ok payload
      ((storeTo (48 + e) j.dst r.output
        (spend (32 + e) r.output.length (spend (32 + e) r.input.length { s with free := s.free + 1 }))).2.2.modEngine e fun d =>
          { d with cur := none, aborted := false, jobs := d.jobs + 1,
                   bytesIn := d.bytesIn + BitVec.ofNat 64 r.input.length,
                   bytesOut := d.bytesOut + BitVec.ofNat 64 r.output.length }) := by
  have hopen : (decide (r.result = 7) || decide (r.result = 1) || (j.compress && decide (r.result = 6))) = false := by simp [hr]
  have hraise : (decide (2 ≤ r.result) && decide (r.result ≤ 6)) = false := by simp [hr]
  unfold endHostJob
  simp only [hopen, hraise, Bool.false_eq_true, if_false]
  simp only [hr, if_true]
  exact ⟨_, rfl⟩

theorem endHostJob_done (e y : Nat) (j : CJob) (r : JobOutcome) (s : State) (he : e < s.dma.engines.length) (hr : r.result = 0)
    (hplace : s.place j.dst = .host y) (hout : r.output ≠ []) (hfit : y + r.output.length ≤ 2 ^ 48) :
    ((endHostJob e j r s).deflate e).cur = none ∧ ((endHostJob e j r s).deflate e).jobs = (s.deflate e).jobs + 1 ∧
      ((endHostJob e j r s).deflate e).results = (s.deflate e).results ∧
      (endHostJob e j r s).dma.toHost = s.dma.toHost ++ [(y, r.output)] ∧ (endHostJob e j r s).dram = s.dram ∧
      (endHostJob e j r s).lag = s.lag := by
  obtain ⟨payload, hend⟩ := endHostJob_eq e j r s hr
  have hg := (granted_spend (32 + e) r.input.length { s with free := s.free + 1 }).trans (granted_spend (32 + e) r.output.length _)
  generalize spend (32 + e) r.output.length (spend (32 + e) r.input.length { s with free := s.free + 1 }) = u at hend hg
  have hengines : u.dma.engines = s.dma.engines := hg.engines
  have hhost : u.dma.toHost = s.dma.toHost := (congrArg Dma.toHost hg.dma :)
  rw [storeTo_host _ _ y _ u (place_host_any _ _ s u hplace) hfit hout] at hend
  dsimp only at hend
  generalize hw : ({ u with dma := { u.dma with toHost := u.dma.toHost ++ [(y, r.output)] } } : State) = w at hend
  have hwengines : w.dma.engines = s.dma.engines := by rw [← hw]; exact hengines
  have hwsame : w.deflate e = s.deflate e := by rw [State.deflate, hwengines]; rfl
  have hdma := (congrArg State.dma (complete_frame j.ctx Status.ok payload (w.modEngine e fun d =>
    { d with cur := none, aborted := false, jobs := d.jobs + 1, bytesIn := d.bytesIn + BitVec.ofNat 64 r.input.length,
             bytesOut := d.bytesOut + BitVec.ofNat 64 r.output.length })) :)
  rw [← hend] at hdma
  have hrun : (endHostJob e j r s).deflate e = { s.deflate e with
      cur := none, aborted := false, jobs := (s.deflate e).jobs + 1,
      bytesIn := (s.deflate e).bytesIn + BitVec.ofNat 64 r.input.length,
      bytesOut := (s.deflate e).bytesOut + BitVec.ofNat 64 r.output.length } := by
    rw [State.deflate, hdma]
    exact (deflate_modEngine w e _ (by rw [hwengines]; exact he)).trans (by rw [hwsame])
  refine ⟨by rw [hrun], by rw [hrun], by rw [hrun], ?_, ?_, ?_⟩
  · rw [hdma]
    change w.dma.toHost = _
    rw [← hw]
    exact congrArg (· ++ [(y, r.output)]) hhost
  · rw [hend, (congrArg State.dram (complete_frame ..) :)]
    change w.dram = _
    rw [← hw]
    exact hg.dram
  · rw [hend, (congrArg State.lag (complete_frame ..) :)]
    change w.lag = _
    rw [← hw]
    exact (congrArg State.lag hg.rest :)

/-! ### The commands -/

/-- The values of compress.submit are good. -/
theorem submitValues_good (rq : Req) (hkind : rq.u8 28 ≤ 1)
    (hsrc : rq.u32 16 ≠ 0) (hlimit : rq.u8 28 = 0 → rq.u32 20 ≠ 0) (hlevel : rq.u8 28 = 1 → 1 ≤ rq.u8 29 ∧ rq.u8 29 ≤ 9)
    (hfrom : rq.u64 0 < 3 * 2 ^ 48) (hto : rq.u64 8 < 3 * 2 ^ 48) :
    (decide (1 < rq.u8 28) || decide (rq.u32 16 = 0) || (!decide (rq.u8 28 = 1) && decide (rq.u32 20 = 0)) ||
      (decide (rq.u8 28 = 1) && (decide (rq.u8 29 < 1) || decide (9 < rq.u8 29))) ||
      !jobAddress (rq.u64 0) || !jobAddress (rq.u64 8)) = false := by
  have haddr (a : Nat) (ha : a < 3 * 2 ^ 48) : jobAddress a = true := by
    simp only [Nat.reducePow, Nat.reduceMul] at ha
    unfold jobAddress
    simp only [Nat.reducePow, decide_eq_true_eq]
    omega
  rw [haddr _ hfrom, haddr _ hto]
  by_cases hone : rq.u8 28 = 1
  · have := hlevel hone
    simp [hone, hsrc]
    omega
  · have := hlimit (by omega)
    simp [hone, hsrc, this]
    omega

theorem execCompressSubmit_accepts (rq : Req) (s : State) (hs : served 0x0D02 rq s = true) (hkind : rq.u8 28 ≤ 1)
    (hsrc : rq.u32 16 ≠ 0) (hlimit : rq.u8 28 = 0 → rq.u32 20 ≠ 0) (hlevel : rq.u8 28 = 1 → 1 ≤ rq.u8 29 ∧ rq.u8 29 ≤ 9)
    (hfrom : rq.u64 0 < 3 * 2 ^ 48) (hto : rq.u64 8 < 3 * 2 ^ 48) (hroom : s.dma.queue.length < 32) :
    ∃ t j, execCompressSubmit rq s = .next (accept rq 0x0D02 (leBytes 8 s.dma.nextJob.toNat) t) ∧
      t.dma = { s.dma with queue := s.dma.queue ++ [j], nextJob := s.dma.nextJob + 1 } ∧ { t with dma := s.dma } = s ∧
      j.job = s.dma.nextJob ∧ j.src = rq.u64 0 ∧ j.dst = rq.u64 8 ∧ j.srcLen = rq.u32 16 ∧ j.dstLimit = rq.u32 20 ∧
      j.compress = (rq.u8 28 = 1) ∧ j.origCrc = BitVec.ofNat 32 (rq.u32 24) ∧ j.tag = BitVec.ofNat 32 (rq.u32 32) := by
  unfold execCompressSubmit
  refine ⟨_, _, command_pass 0x0D02 rq _ _ s hs ?_, rfl, rfl, rfl, rfl, rfl, rfl, rfl, by simp, rfl, rfl⟩
  simp only [List.forall_mem_cons]
  exact ⟨submitValues_good rq hkind hsrc hlimit hlevel hfrom hto, decide_eq_false (not_le.2 hroom), List.forall_mem_nil _⟩

theorem execCompressSubmit_full (rq : Req) (s : State) (hs : served 0x0D02 rq s = true) (hkind : rq.u8 28 ≤ 1)
    (hsrc : rq.u32 16 ≠ 0) (hlimit : rq.u8 28 = 0 → rq.u32 20 ≠ 0) (hlevel : rq.u8 28 = 1 → 1 ≤ rq.u8 29 ∧ rq.u8 29 ≤ 9)
    (hfrom : rq.u64 0 < 3 * 2 ^ 48) (hto : rq.u64 8 < 3 * 2 ^ 48) (hfull : 32 ≤ s.dma.queue.length) :
    execCompressSubmit rq s = .next (respond rq 0x0D02 0x8D01 [] s) := by
  unfold execCompressSubmit
  refine command_turned_away 0x0D02 rq _ _ s true _ hs ?_
  have hvalues := submitValues_good rq hkind hsrc hlimit hlevel hfrom hto
  simp only [hvalues, decide_eq_true hfull]
  rfl

theorem execCompressAbort_queued (rq : Req) (j : CJob) (s : State) (hs : served 0x0D03 rq s = true)
    (hjob : BitVec.ofNat 64 (rq.u64 0) < s.dma.nextJob)
    (hfind : (s.dma.queue.find? fun k => k.job = BitVec.ofNat 64 (rq.u64 0)) = some j) :
    execCompressAbort rq s = .next (complete j.ctx Status.aborted
      (leBytes 1 7 ++ zeros 11 ++ leBytes 4 j.tag.toNat ++ leBytes 8 j.job.toNat)
      (respond rq 0x0D03 Status.ok [] { s with dma := { s.dma with
        queue := s.dma.queue.filter fun k => k.job ≠ BitVec.ofNat 64 (rq.u64 0) } })) := by
  unfold execCompressAbort
  simp only [hfind]
  refine command_pass 0x0D03 rq _ _ s hs ?_
  simp only [List.forall_mem_cons]
  exact ⟨decide_eq_false (BitVec.not_le.2 hjob), rfl, List.forall_mem_nil _⟩

theorem execCompressStatus_reply (rq : Req) (s : State) (hs : served 0x0D04 rq s = true) (he : rq.u8 0 < 4) :
    ∃ p, execCompressStatus rq s = .next (respond rq 0x0D04 Status.ok p s) ∧
      leAt p 0 8 = (s.deflate (rq.u8 0)).jobs.toNat ∧ leAt p 8 8 = (s.deflate (rq.u8 0)).bytesIn.toNat ∧
      leAt p 16 8 = (s.deflate (rq.u8 0)).bytesOut.toNat := by
  have hjobs := (s.deflate (rq.u8 0)).jobs.isLt
  have hin := (s.deflate (rq.u8 0)).bytesIn.isLt
  have hout := (s.deflate (rq.u8 0)).bytesOut.isLt
  unfold execCompressStatus
  refine ⟨_, command_pass 0x0D04 rq _ _ s hs (by simp [he]), ?_, ?_, ?_⟩
  all_goals
    simp only [List.append_assoc]
    simp [leAt_left, leAt_right, leAt_leBytes]
    omega

/-- Settles O43: jobs by `beginJob_effect` and `endHostJob_done`, streams by `inflate_within` and the outcomes above. -/
theorem compressionJobsRun : Obligations.CompressionJobsRun := by
  unfold Obligations.CompressionJobsRun
  refine ⟨?_, fun rq s hs h1 h2 h3 h4 h5 h6 hroom => execCompressSubmit_accepts rq s hs h1 h2 h3 h4 h5 h6 hroom,
    fun rq s hs h1 h2 h3 h4 h5 h6 hfull => execCompressSubmit_full rq s hs h1 h2 h3 h4 h5 h6 hfull,
    fun rq j s hs hjob hfind => execCompressAbort_queued rq j s hs hjob hfind,
    fun rq s hs he => execCompressStatus_reply rq s hs he, ?_, ?_, ?_, ?_, ?_, ?_, ?_, inflate_within⟩
  · intro rq s hs hshares shares hsum
    change execCompressConfig rq s = _
    unfold execCompressConfig
    refine command_pass 0x0D01 rq _ _ s hs ?_
    simp only [List.forall_mem_cons]
    refine ⟨List.any_eq_false.2 fun x hx => ?_, decide_eq_false (not_lt.2 hsum), List.forall_mem_nil _⟩
    obtain ⟨e, he, rfl⟩ := List.mem_map.1 hx
    have := hshares e (List.mem_range.1 he)
    simp
    omega
  · intro rq s hs hchain
    change execCompressEngineRaw rq s = _
    unfold execCompressEngineRaw
    exact command_pass 0x0D80 rq _ _ s hs (by simp [hchain])
  · intro e j front rest s he hlen hidle hqueue hfront hj
    obtain ⟨hfind, herase⟩ := firstRunnable (fun k => k.stalls s) front rest j hfront hj
    rw [← hqueue] at hfind herase
    obtain ⟨hcur, -, hfw, hq, hframe⟩ := beginJob_effect e (.fw j)
      { s with dma := { s.dma with fwQueue := s.dma.fwQueue.erase j } } (by change e < s.dma.engines.length; omega)
    refine ⟨_, ?_, hcur, hfw.trans herase, hq, congrArg (fun v : State => { v with dma := s.dma }) hframe⟩
    change execDeflateJobStart e s = _
    unfold execDeflateJobStart
    rw [hidle, hfind]
    simp [he]
  · intro e j rest s he hlen hidle hfw hqueue hserves
    have hfind : (s.dma.fwQueue.find? fun k => !k.stalls s) = none := List.find?_eq_none.2 fun k hk => by simp [hfw k hk]
    obtain ⟨hcur, hshare, -, hq, hframe⟩ := beginJob_effect e (.host j) { s with dma := { s.dma with queue := rest } }
      (by change e < s.dma.engines.length; omega)
    refine ⟨_, ?_, hcur, hshare, hq, congrArg (fun v : State => { v with dma := s.dma }) hframe⟩
    change execDeflateJobStart e s = _
    unfold execDeflateJobStart
    rw [hidle, hfind, hqueue]
    simp [he, hserves]
  · intro e host s hidle
    change execDeflateJobEnd e host s = _
    unfold execDeflateJobEnd
    rw [hidle]
  · intro e j host s hcur hstalls
    change execDeflateJobEnd e host s = _
    unfold execDeflateJobEnd
    simp only [hcur, hstalls, Bool.true_or, if_true]
  · intro e y j host s he hcur hkept got r hr hplace hout hfit hsrc
    have hworks : DramWorks s got.2.2 := dramWorks_fetchFrom ..
    have hdma : got.2.2.dma = s.dma := (congrArg State.dma hworks.rest :)
    have hsame : got.2.2.deflate e = s.deflate e := by rw [State.deflate, hdma]; rfl
    have hdst : dramWaits s j.dst = false := by
      unfold dramWaits
      rw [hplace, Bool.and_false]
    obtain ⟨hnone, hjobs, hresults, hhost, hdram, hlag⟩ := endHostJob_done e y j r got.2.2 (by rw [hdma]; exact he) hr
      (place_host_any _ _ s _ hplace) hout hfit
    refine ⟨endHostJob e j r got.2.2, ?_, hnone, by rw [hjobs, hsame], by rw [hresults, hsame], by rw [hhost, hdma], hdram,
      hlag.trans (congrArg State.lag hworks.rest :)⟩
    change execDeflateJobEnd e host s = _
    unfold execDeflateJobEnd
    simp only [hcur, hsrc, hdst, hkept, Bool.or_self, Bool.false_eq_true, if_false]
    rfl
  · intro s j input hresult
    unfold CJob.outcome at hresult ⊢
    split
    · rename_i hcomp
      simp only [hcomp, if_true] at hresult ⊢
      exact deflateOutcome_done _ _ _ _ hresult
    · rename_i hcomp
      simp only [hcomp, Bool.false_eq_true, if_false] at hresult ⊢
      exact inflateOutcome_done _ _ _ _ _ hresult

end Sys2Proof.Machine
end

section
/-!
PROOFS. Commands of the brushless motors (spec/15_bldc.md): `MotorsAreCommanded`.
-/
namespace Sys2Proof.Machine

open Sys2Proof

/-! ### Operations on one motor -/

theorem motor_modMotor (s : State) (m : Nat) (f : Motor → Motor) (hm : m < s.bldc.motors.length) :
    (s.modMotor m f).motor m = f (s.motor m) := at'_modAt_same _ _ _ _ hm

theorem motor_modMotor_ne (s : State) (m k : Nat) (f : Motor → Motor) (hk : k ≠ m) :
    (s.modMotor m f).motor k = s.motor k := at'_modAt_ne _ _ _ _ _ hk.symm

/-- Two changes that agree on the element of a list are one. -/
theorem modAt_congr {α : Type} (l : List α) (i : Nat) (f g : α → α) (d : α) (h : f (at' l i d) = g (at' l i d)) :
    modAt l i f = modAt l i g := by
  induction l generalizing i with
  | nil => rfl
  | cons x xs ih =>
    cases i with
    | zero => exact congrArg (· :: xs) h
    | succ i => exact congrArg (x :: ·) (ih i h)

theorem modMotor_congr (s : State) (m : Nat) (f g : Motor → Motor) (h : f (s.motor m) = g (s.motor m)) :
    s.modMotor m f = s.modMotor m g := by
  unfold State.modMotor
  rw [modAt_congr s.bldc.motors m f g {} h]

/-- An operation on one motor: the other motors, the bus groups and everything outside the motors stay. -/
structure OnlyMotor (m : Nat) (s t : State) : Prop where
  others : ∀ k, k ≠ m → t.motor k = s.motor k
  nMotors : t.bldc.motors.length = s.bldc.motors.length
  buses : t.bldc.buses = s.bldc.buses
  frame : { t with bldc := s.bldc } = s

theorem OnlyMotor.refl (m : Nat) (s : State) : OnlyMotor m s s := ⟨fun _ _ => rfl, rfl, rfl, rfl⟩

theorem OnlyMotor.trans {m : Nat} {s t u : State} (h : OnlyMotor m s t) (g : OnlyMotor m t u) : OnlyMotor m s u where
  others k hk := (g.others k hk).trans (h.others k hk)
  nMotors := g.nMotors.trans h.nMotors
  buses := g.buses.trans h.buses
  frame := (congrArg (fun v : State => { v with bldc := s.bldc }) g.frame).trans h.frame

theorem onlyMotor_modMotor (s : State) (m : Nat) (f : Motor → Motor) : OnlyMotor m s (s.modMotor m f) :=
  ⟨fun _ hk => motor_modMotor_ne s m _ f hk, length_modAt .., rfl, rfl⟩

theorem OnlyMotor.flt {m : Nat} {s t : State} (h : OnlyMotor m s t) : t.flt = s.flt := (congrArg State.flt h.frame :)

theorem OnlyMotor.busOf {m : Nat} {s t : State} (h : OnlyMotor m s t) (k : Nat) : busOf t k = busOf s k := by
  have hbus (g : Nat) : t.bus g = s.bus g := by rw [State.bus, h.buses]; rfl
  unfold Machine.busOf groupOf
  rw [hbus, hbus, funext hbus]

theorem OnlyMotor.fenced {m : Nat} {s t : State} (h : OnlyMotor m s t) (source unit : Nat) :
    fenced t source unit = fenced s source unit := by
  unfold Machine.fenced State.frec
  rw [h.flt]

theorem OnlyMotor.coreUp {m : Nat} {s t : State} (h : OnlyMotor m s t) (core : Nat) : t.coreUp core = s.coreUp core := by
  have hheld : t.held = s.held := (congrArg State.held h.frame :)
  unfold State.coreUp
  rw [h.flt, hheld]

theorem onlyMotor_startSequence (m : Nat) (s : State) : OnlyMotor m s (startSequence m s) := by
  unfold startSequence listen
  split
  · exact OnlyMotor.refl m s
  · exact (onlyMotor_modMotor ..).trans (onlyMotor_modMotor ..)

/-- A motor that a start sequence begins to listen for. -/
def listening (now : BitVec 64) (x : Motor) : Motor :=
  { x with st := .listen, gates := 0, duty := 0, deltas := [], badRun := 0, goodRun := 0, caught := false, limited := false,
           phaseAt := now, retries := 0, cause := 0, ramping := false }

theorem startSequence_listens (m : Nat) (s : State) (hm : m < s.bldc.motors.length) (hup : s.coreUp motorCore = true)
    (hfatal : s.flt.fatal = none) : (startSequence m s).motor m = listening s.time (s.motor m) := by
  unfold startSequence listen
  rw [hup, hfatal, if_neg (by decide), motor_modMotor _ _ _ ((length_modAt ..).symm ▸ hm), motor_modMotor _ _ _ hm]
  rfl

/-- What a start sequence never changes of its motor. -/
theorem startSequence_command (m : Nat) (s : State) :
    ((startSequence m s).motor m).command = (s.motor m).command ∧ ((startSequence m s).motor m).pinLost = (s.motor m).pinLost ∧
      ((startSequence m s).motor m).pinRpm = (s.motor m).pinRpm := by
  by_cases hm : m < s.bldc.motors.length
  · by_cases hruns : (!s.coreUp motorCore || s.flt.fatal.isSome) = true
    · unfold startSequence
      rw [if_pos hruns]
      exact ⟨rfl, rfl, rfl⟩
    · have hstarts : s.coreUp motorCore = true ∧ s.flt.fatal = none := by simpa using hruns
      rw [startSequence_listens m s hm hstarts.1 hstarts.2]
      exact ⟨rfl, rfl, rfl⟩
  · have hgone (t : State) (ht : t.bldc.motors.length = s.bldc.motors.length) : t.motor m = {} :=
      at'_ge _ _ _ (by rw [ht]; exact not_lt.1 hm)
    rw [hgone _ (onlyMotor_startSequence m s).nMotors, hgone s rfl]
    exact ⟨rfl, rfl, rfl⟩

/-! ### The speed command (R374) -/

/-- Whether a change of the command starts the motor. -/
def commandStarts (m rpm : Nat) (s : State) : Bool :=
  (s.motor m).auto && (s.motor m).st = .stopped && (s.motor m).command ≤ (s.motor m).minRpm && (s.motor m).minRpm < rpm &&
    !(busOf s m).latched && !fenced s 0x01C6 m

theorem setCommand_eq (m rpm : Nat) (s : State) :
    setCommand m rpm s = if commandStarts m rpm s then startSequence m (s.modMotor m fun x => { x with command := rpm })
      else s.modMotor m fun x => { x with command := rpm } := by
  have hm := onlyMotor_modMotor s m fun x => { x with command := rpm }
  unfold setCommand commandStarts
  simp only [hm.busOf, hm.fenced]

theorem onlyMotor_setCommand (m rpm : Nat) (s : State) : OnlyMotor m s (setCommand m rpm s) := by
  rw [setCommand_eq]
  split
  · exact (onlyMotor_modMotor ..).trans (onlyMotor_startSequence ..)
  · exact onlyMotor_modMotor ..

theorem setCommand_command (m rpm : Nat) (s : State) (hm : m < s.bldc.motors.length) :
    ((setCommand m rpm s).motor m).command = rpm ∧ ((setCommand m rpm s).motor m).pinLost = (s.motor m).pinLost ∧
      ((setCommand m rpm s).motor m).pinRpm = (s.motor m).pinRpm := by
  have hset := motor_modMotor s m (fun x => { x with command := rpm }) hm
  rw [setCommand_eq]
  split
  · obtain ⟨hcommand, hlost, hrpm⟩ := startSequence_command m (s.modMotor m fun x => { x with command := rpm })
    rw [hcommand, hlost, hrpm, hset]
    exact ⟨rfl, rfl, rfl⟩
  · rw [hset]
    exact ⟨rfl, rfl, rfl⟩

theorem setCommand_stands (m rpm : Nat) (s : State)
    (h : (s.motor m).auto = false ∨ (s.motor m).st ≠ .stopped ∨ (s.motor m).minRpm < (s.motor m).command ∨ rpm ≤ (s.motor m).minRpm) :
    setCommand m rpm s = s.modMotor m fun x => { x with command := rpm } := by
  rw [setCommand_eq, if_neg]
  unfold commandStarts
  rcases h with h | h | h | h
  · simp [h]
  · simp [h]
  · simp [not_le.2 h]
  · simp [not_lt.2 h]

theorem setCommand_starts (m rpm : Nat) (s : State) (hm : m < s.bldc.motors.length) (hauto : (s.motor m).auto = true)
    (hst : (s.motor m).st = .stopped) (hlow : (s.motor m).command ≤ (s.motor m).minRpm) (hrise : (s.motor m).minRpm < rpm)
    (hbus : (busOf s m).latched = false) (hfence : fenced s 0x01C6 m = false) (hup : s.coreUp motorCore = true)
    (hfatal : s.flt.fatal = none) : ((setCommand m rpm s).motor m).st = .listen := by
  rw [setCommand_eq, if_pos (by simp [commandStarts, hauto, hst, hlow, hrise, hbus, hfence]),
    startSequence_listens m (s.modMotor m _) ((length_modAt ..).symm ▸ hm) hup hfatal]
  rfl

/-! ### The end of a start -/

theorem endStart_acts (m result status rpm : Nat) (s : State) :
    (∀ k, k ≠ m → (endStart m result status rpm s).motor k = s.motor k) ∧
      (endStart m result status rpm s).bldc.motors.length = s.bldc.motors.length ∧
      (endStart m result status rpm s).bldc.buses = s.bldc.buses ∧
      { endStart m result status rpm s with bldc := s.bldc, mci := s.mci } = s ∧
      { (endStart m result status rpm s).motor m with ctx := (s.motor m).ctx } = s.motor m := by
  have hsame (c : Option Ctx) (h : (s.motor m).ctx = c) : { s.motor m with ctx := c } = s.motor m := by rw [← h]
  unfold endStart
  dsimp only
  cases hctx : (s.motor m).ctx with
  | none => exact ⟨fun _ _ => rfl, rfl, rfl, rfl, hsame none hctx⟩
  | some c =>
    have hone := onlyMotor_modMotor s m fun x => { x with ctx := none }
    have hframe := complete_frame c status (startPayload result (s.motor m) rpm) (s.modMotor m fun x => { x with ctx := none })
    dsimp only
    generalize complete c status (startPayload result (s.motor m) rpm) (s.modMotor m fun x => { x with ctx := none }) = u at hframe
    have hbldc : u.bldc = (s.modMotor m fun x => { x with ctx := none }).bldc := (congrArg State.bldc hframe :)
    have hmotor (k : Nat) : u.motor k = (s.modMotor m fun x => { x with ctx := none }).motor k := by rw [State.motor, hbldc]; rfl
    refine ⟨fun k hk => (hmotor k).trans (hone.others k hk), by rw [hbldc]; exact hone.nMotors, by rw [hbldc]; rfl,
      congrArg (fun v : State => { v with bldc := s.bldc }) hframe, ?_⟩
    rw [hmotor]
    by_cases hm : m < s.bldc.motors.length
    · rw [motor_modMotor _ _ _ hm, ← hctx]
    · have hgone : s.motor m = {} := at'_ge _ _ _ (not_lt.1 hm)
      rw [hgone] at hctx
      cases hctx

theorem coast_motor (m : Nat) (s : State) (hm : m < s.bldc.motors.length) : (coast m s).motor m =
    { s.motor m with st := .coast, gates := 0, duty := 0, ramping := false, limitAt := none, limited := false } :=
  motor_modMotor s m _ hm

theorem stopMotor_coasts (m : Nat) (s : State) (hm : m < s.bldc.motors.length)
    (h : (s.motor m).starting = true ∨ (s.motor m).st = .run) :
    ((stopMotor m false s).motor m).st = .coast ∧ ((stopMotor m false s).motor m).gates = 0 := by
  have hcoast : stopMotor m false s = coast m (endStart m 2 Status.aborted 0 s) ∨ stopMotor m false s = coast m s := by
    unfold stopMotor
    by_cases hstarting : (s.motor m).starting = true
    · exact Or.inl (if_pos hstarting)
    · have hrun := h.resolve_left hstarting
      exact Or.inr ((if_neg hstarting).trans (if_pos hrun))
  rcases hcoast with h | h
  · rw [h, coast_motor m _ (by rw [(endStart_acts m 2 Status.aborted 0 s).2.1]; exact hm)]
    exact ⟨rfl, rfl⟩
  · rw [h, coast_motor m s hm]
    exact ⟨rfl, rfl⟩

/-! ### The commands -/

theorem execBldcConfig_accepts (rq : Req) (m : Nat) (s : State) (hs : served 0x0E01 rq s = true) (hm' : rq.u8 0 = m)
    (hvalues : ((rq.u8 1 < 1 || 8 < rq.u8 1 || 2 < rq.u8 2 || (rq.u8 2 = 2 && m < 4) || rq.u16 4 < 100 || 60000 < rq.u16 4 ||
      rq.u16 4 < rq.u16 6 || rq.u8 10 < 20 || 100 < rq.u8 10 || 2 < rq.u8 13 || rq.u16 14 < 10 || 5000 < rq.u16 14 ||
      rq.u16 16 < 50 || 30000 < rq.u16 16 || rq.u16 4 < rq.u16 18 || rq.u16 20 < 100 || 60000 < rq.u16 20 || rq.u16 22 < 1) : Bool)
        = false)
    (hm : m < 8) (hst : (s.motor m).st = .stopped ∨ (s.motor m).st = .failed)
    (hloops : rq.u8 2 = 1 → (loopsBoundTo s 4 m).length ≤ 1) :
    execBldcConfig rq s = .next (respond rq 0x0E01 Status.ok [] (s.modMotor m fun x =>
      { x with poles := rq.u8 1, source := rq.u8 2, auto := rq.bit 3 0, maxRpm := rq.u16 4, minRpm := rq.u16 6,
               catchRpm := rq.u16 8, pwmKhz := rq.u8 10, maxDuty := rq.u8 11, alignDuty := rq.u8 12, pinMode := rq.u8 13,
               alignMs := rq.u16 14, rampMs := rq.u16 16, handoff := rq.u16 18, brakeMs := rq.u16 20, accel := rq.u16 22,
               kp := rq.u32 24, ki := rq.u32 28, iDrive := rq.u16 32, pinLo := rq.u16 34, pinHi := rq.u16 36,
               failsafe := rq.u8 38, pinLost := false, pinBadAt := none, pinOkAt := none })) := by
  unfold execBldcConfig
  simp only [hm']
  refine command_pass 0x0E01 rq _ _ s hs ?_
  simp only [List.forall_mem_cons]
  refine ⟨decide_eq_false (not_le.2 hm), hvalues, ?_, ?_, List.forall_mem_nil _⟩
  · rcases hst with h | h <;> simp [h]
  · by_cases hone : rq.u8 2 = 1
    · simp [hone, hloops hone]
    · simp [hone]

theorem execBldcStart_accepts (rq : Req) (m : Nat) (s : State) (hs : served 0x0E03 rq s = true) (hlen : s.bldc.motors.length = 8)
    (hm' : rq.u8 0 = m) (hm : m < 8) (hstarting : (s.motor m).starting = false) (hrun : (s.motor m).st ≠ .run)
    (hbrake : (s.motor m).st ≠ .busBrake) (hbus : (busOf s m).latched = false) (hfence : fenced s 0x01C6 m = false)
    (hup : s.coreUp motorCore = true) (hfatal : s.flt.fatal = none) :
    ∃ t, execBldcStart rq s = .next (accept rq 0x0E03 [] t) ∧ (t.motor m).st = .listen ∧
      (t.motor m).gates = 0 ∧ (t.motor m).retries = 0 ∧ (t.motor m).ctx = some (rq.ctx s 0x0E03) ∧
      (t.motor m).command = (if (s.motor m).source = 0 then rq.u16 4 else (s.motor m).command) ∧
      (∀ k, k ≠ m → t.motor k = s.motor k) ∧ { t with bldc := s.bldc } = s := by
  have hone := onlyMotor_modMotor s m fun x =>
    { x with ctx := some (rq.ctx s 0x0E03), command := if x.source = 0 then rq.u16 4 else x.command }
  have hset := motor_modMotor s m (fun x =>
    { x with ctx := some (rq.ctx s 0x0E03), command := if x.source = 0 then rq.u16 4 else x.command }) (by omega)
  unfold execBldcStart
  simp only [hm']
  refine ⟨startSequence m (s.modMotor m fun x =>
      { x with ctx := some (rq.ctx s 0x0E03), command := if x.source = 0 then rq.u16 4 else x.command }),
    command_pass 0x0E03 rq _ _ s hs ?_, ?_⟩
  · simp [hm, hstarting, hrun, hbrake, hbus, hfence]
  · have hall := hone.trans (onlyMotor_startSequence m _)
    rw [startSequence_listens m _ (by rw [hone.nMotors]; omega) ((hone.coreUp _).trans hup) (hone.flt ▸ hfatal), hset]
    exact ⟨rfl, rfl, rfl, rfl, rfl, hall.others, hall.frame⟩

theorem execBldcStatus_reply (rq : Req) (s : State) (hs : served 0x0E06 rq s = true) (hm : rq.u8 0 < 8) :
    ∃ p, execBldcStatus rq s = .next (respond rq 0x0E06 Status.ok p s) ∧ p.length = 32 ∧
      leAt p 0 1 = (s.motor (rq.u8 0)).st.num ∧ leAt p 12 4 = (s.motor (rq.u8 0)).syncLosses.n ∧
      leAt p 16 4 = (s.motor (rq.u8 0)).startFails.n ∧ leAt p 20 4 = (s.motor (rq.u8 0)).busBrakes.n ∧
      leAt p 24 8 = (s.motor (rq.u8 0)).commutations.toNat := by
  have hcomm := (s.motor (rq.u8 0)).commutations.isLt
  have hst : (s.motor (rq.u8 0)).st.num < 256 := by
    cases (s.motor (rq.u8 0)).st <;> decide
  unfold execBldcStatus
  refine ⟨_, command_pass 0x0E06 rq _ _ s hs (by simp [hm]), by simp, ?_, ?_, ?_, ?_, ?_⟩
  all_goals
    simp only [List.append_assoc]
    simp [leAt_left, leAt_right, leAt_leBytes, leAt_count]
  · omega
  · omega

/-! ### The speed pin (R376) -/

theorem advanceTo_motor (s : State) (k i : Nat) : (s.advanceTo k).motor i = s.motor i := by
  have hbldc : (s.advanceTo k).bldc = s.bldc := (congrArg State.bldc (advanceTo_frame s k) :)
  rw [State.motor, hbldc]
  rfl

theorem advanceTo_nMotors (s : State) (k : Nat) : (s.advanceTo k).bldc.motors.length = s.bldc.motors.length := by
  rw [(congrArg State.bldc (advanceTo_frame s k) :)]

theorem advanceTo_flt (s : State) (k : Nat) : (s.advanceTo k).flt = s.flt := (congrArg State.flt (advanceTo_frame s k) :)

/-- The pin's command, where the pin is the motor's source. -/
def pinCommands (m rpm : Nat) (x : Motor) (s : State) : State := if x.source = 2 then setCommand m rpm s else s

theorem pinCommands_effect (m rpm : Nat) (x : Motor) (s : State) (hm : m < s.bldc.motors.length) :
    OnlyMotor m s (pinCommands m rpm x s) ∧ (x.source = 2 → ((pinCommands m rpm x s).motor m).command = rpm) ∧
      ((pinCommands m rpm x s).motor m).pinLost = (s.motor m).pinLost ∧
      ((pinCommands m rpm x s).motor m).pinRpm = (s.motor m).pinRpm := by
  obtain ⟨hcommand, hlost, hrpm⟩ := setCommand_command m rpm s hm
  unfold pinCommands
  split
  · exact ⟨onlyMotor_setCommand m rpm s, fun _ => hcommand, hlost, hrpm⟩
  · rename_i hno
    exact ⟨OnlyMotor.refl m s, fun h => absurd h hno, rfl, rfl⟩

/-- The state in which the pin's signal has been missed for 100 ms. -/
def pinMissed (m : Nat) (s : State) : State :=
  (s.advanceTo ((if (s.motor m).pinMode = 0 then (s.motor m).pinBadAt.getD 0 else (s.motor m).pinAt).toNat
    + 100 * ticksPerMs)).modMotor m fun x => { x with pinOkAt := none }

theorem pinMissed_effect (m : Nat) (s : State) (hm : m < s.bldc.motors.length) :
    (∀ k, k ≠ m → (pinMissed m s).motor k = s.motor k) ∧ (pinMissed m s).motor m = { s.motor m with pinOkAt := none } ∧
      (pinMissed m s).bldc.motors.length = s.bldc.motors.length ∧ (pinMissed m s).flt = s.flt := by
  unfold pinMissed
  refine ⟨fun k hk => ?_, ?_, ?_, ?_⟩
  · rw [motor_modMotor_ne _ _ _ _ hk, advanceTo_motor]
  · rw [motor_modMotor _ _ _ (by rw [advanceTo_nMotors]; exact hm), advanceTo_motor]
  · rw [(onlyMotor_modMotor ..).nMotors, advanceTo_nMotors]
  · rw [(onlyMotor_modMotor ..).flt, advanceTo_flt]

theorem execSpeedPinLost_eq (m : Nat) (s : State) (h4 : 4 ≤ m) (hlost : (s.motor m).pinLost = false)
    (hbad : (s.motor m).pinMode = 0 → (s.motor m).pinBadAt ≠ none) :
    execSpeedPinLost m s = .next (if (s.motor m).pinMode = 2 then
        pinCommands m (pinCommand (s.motor m) 0) (s.motor m)
          ((pinMissed m s).modMotor m fun x => { x with pinRpm := pinCommand x 0 })
      else pinCommands m (openDiv ((s.motor m).failsafe * (s.motor m).maxRpm) 255) (s.motor m)
        (present 0x01C5 (some m) 0 ((pinMissed m s).modMotor m fun x => { x with pinLost := true }))) := by
  have hgo : (decide (m < 4) || (s.motor m).pinLost || (decide ((s.motor m).pinMode = 0) && (s.motor m).pinBadAt.isNone)) = false := by
    by_cases hmode : (s.motor m).pinMode = 0
    · simp [h4, hlost, Option.isSome_iff_ne_none.2 (hbad hmode)]
    · simp [h4, hlost, hmode]
  unfold execSpeedPinLost
  simp only [hgo, Bool.false_eq_true, if_false]
  by_cases hmode : (s.motor m).pinMode = 2
  · rw [if_pos hmode, if_pos hmode]
    rfl
  · rw [if_neg hmode, if_neg hmode]
    rfl

theorem execSpeedPinLost_raises (m : Nat) (s : State) (h4 : 4 ≤ m) (hm : m < s.bldc.motors.length)
    (hlost : (s.motor m).pinLost = false) (hmode : (s.motor m).pinMode ≠ 2)
    (hbad : (s.motor m).pinMode = 0 → (s.motor m).pinBadAt ≠ none) :
    ∃ t, execSpeedPinLost m s = .next t ∧ (t.motor m).pinLost = true ∧
      (t.flt.presented.getLast?.map fun r => (r.source, r.unit)) = some (0x01C5, some m) ∧
      ((s.motor m).source = 2 → (t.motor m).command = openDiv ((s.motor m).failsafe * (s.motor m).maxRpm) 255) ∧
      (∀ k, k ≠ m → t.motor k = s.motor k) := by
  obtain ⟨hothers, -, hlen, -⟩ := pinMissed_effect m s hm
  have hm' : m < (pinMissed m s).bldc.motors.length := by rw [hlen]; exact hm
  have hset := motor_modMotor (pinMissed m s) m (fun x => { x with pinLost := true }) hm'
  obtain ⟨hone, hcommand, hkept, -⟩ := pinCommands_effect m (openDiv ((s.motor m).failsafe * (s.motor m).maxRpm) 255) (s.motor m)
    (present 0x01C5 (some m) 0 ((pinMissed m s).modMotor m fun x => { x with pinLost := true })) ((length_modAt ..).symm ▸ hm')
  refine ⟨_, (execSpeedPinLost_eq m s h4 hlost hbad).trans (by rw [if_neg hmode]), ?_, ?_, hcommand, fun k hk => ?_⟩
  · exact hkept.trans (congrArg Motor.pinLost hset :)
  · rw [hone.flt]
    exact present_last ..
  · exact (hone.others k hk).trans ((motor_modMotor_ne (pinMissed m s) m k _ hk).trans (hothers k hk))

theorem execSpeedPinLost_frequency (m : Nat) (s : State) (h4 : 4 ≤ m) (hm : m < s.bldc.motors.length)
    (hlost : (s.motor m).pinLost = false) (hmode : (s.motor m).pinMode = 2) :
    ∃ t, execSpeedPinLost m s = .next t ∧ (t.motor m).pinLost = false ∧ (t.motor m).pinRpm = pinCommand (s.motor m) 0 ∧
      ((s.motor m).source = 2 → (t.motor m).command = pinCommand (s.motor m) 0) ∧ t.flt = s.flt ∧
      (∀ k, k ≠ m → t.motor k = s.motor k) := by
  obtain ⟨hothers, hmotor, hlen, hflt⟩ := pinMissed_effect m s hm
  have hm' : m < (pinMissed m s).bldc.motors.length := by rw [hlen]; exact hm
  have hstep := onlyMotor_modMotor (pinMissed m s) m fun x => { x with pinRpm := pinCommand x 0 }
  have hset := motor_modMotor (pinMissed m s) m (fun x => { x with pinRpm := pinCommand x 0 }) hm'
  obtain ⟨hone, hcommand, hkept, hrpm⟩ := pinCommands_effect m (pinCommand (s.motor m) 0) (s.motor m)
    ((pinMissed m s).modMotor m fun x => { x with pinRpm := pinCommand x 0 }) (by rw [hstep.nMotors]; exact hm')
  have hall := hstep.trans hone
  refine ⟨_, (execSpeedPinLost_eq m s h4 hlost (by omega)).trans (by rw [if_pos hmode]), ?_, ?_, hcommand, hall.flt.trans hflt,
    fun k hk => (hall.others k hk).trans (hothers k hk)⟩
  · rw [hkept, hset, hmotor]
    exact hlost
  · rw [hrpm, hset, hmotor]
    rfl

theorem execSpeedPinResume_effect (m : Nat) (s : State) (hm : m < s.bldc.motors.length) (hlost : (s.motor m).pinLost = true)
    (hok : (s.motor m).pinOkAt.isSome = true) :
    ∃ t, execSpeedPinResume m s = .next t ∧ (t.motor m).pinLost = false ∧
      ((s.motor m).source = 2 → (t.motor m).command = (s.motor m).pinRpm) ∧ (∀ k, k ≠ m → t.motor k = s.motor k) ∧
      t.flt = s.flt := by
  have hgo : (!(s.motor m).pinLost || (s.motor m).pinOkAt.isNone) = false := by simp [hlost, hok]
  have hadv := advanceTo_motor s (((s.motor m).pinOkAt.getD 0).toNat + 100 * ticksPerMs)
  have hlen := advanceTo_nMotors s (((s.motor m).pinOkAt.getD 0).toNat + 100 * ticksPerMs)
  have hflt := advanceTo_flt s (((s.motor m).pinOkAt.getD 0).toNat + 100 * ticksPerMs)
  have hexec : execSpeedPinResume m s = .next (pinCommands m (s.motor m).pinRpm (s.motor m)
      ((s.advanceTo (((s.motor m).pinOkAt.getD 0).toNat + 100 * ticksPerMs)).modMotor m fun x => { x with pinLost := false })) := by
    unfold execSpeedPinResume
    simp only [hgo, Bool.false_eq_true, if_false]
    rfl
  generalize s.advanceTo (((s.motor m).pinOkAt.getD 0).toNat + 100 * ticksPerMs) = u at hexec hadv hlen hflt
  have hm' : m < u.bldc.motors.length := by rw [hlen]; exact hm
  have hstep := onlyMotor_modMotor u m fun x => { x with pinLost := false }
  obtain ⟨hone, hcommand, hkept, -⟩ := pinCommands_effect m (s.motor m).pinRpm (s.motor m)
    (u.modMotor m fun x => { x with pinLost := false }) (by rw [hstep.nMotors]; exact hm')
  have hall := hstep.trans hone
  refine ⟨_, hexec, ?_, hcommand, fun k hk => (hall.others k hk).trans (hadv k), hall.flt.trans hflt⟩
  rw [hkept, motor_modMotor _ _ _ hm']

/-- Settles O44: the start by `startSequence_listens`, the command by `setCommand_eq`, the pin by `pinCommands_effect`. -/
theorem motorsAreCommanded : Obligations.MotorsAreCommanded := by
  unfold Obligations.MotorsAreCommanded
  refine ⟨?_, ?_, ?_, ?_, ?_, ?_, ?_, fun rq s hs hm => execBldcStatus_reply rq s hs hm, ?_, ?_,
    fun m s h4 hm hlost hmode hbad => execSpeedPinLost_raises m s h4 hm hlost hmode hbad,
    fun m s h4 hm hlost hmode => execSpeedPinLost_frequency m s h4 hm hlost hmode,
    fun m s hm hlost hok => execSpeedPinResume_effect m s hm hlost hok, ?_⟩
  · intro rq s hs m hm hp hp' hsrc hpin hmax hmax' hmin hpwm hpwm' hmode hal hal' hra hra' hho hbr hbr' hac hst hloops
    refine execBldcConfig_accepts rq m s hs rfl ?_ hm hst hloops
    simp only [Bool.or_eq_false_iff, Bool.and_eq_false_iff, decide_eq_false_iff_not]
    by_cases h2 : rq.u8 2 = 2
    · have := hpin h2
      omega
    · omega
  · intro rq s hs hg hmask h1 h2 h3 hfree
    change execBldcBusConfig rq s = _
    unfold execBldcBusConfig
    refine command_pass 0x0E02 rq _ _ s hs ?_
    simp only [List.forall_mem_cons]
    refine ⟨decide_eq_false (not_le.2 hg), by simp [hmask, h1, h2, h3], ?_, List.forall_mem_nil _⟩
    rcases hfree with h | h
    · rw [h]
      rfl
    · rw [List.any_eq_false.2 fun f hf => by simp [h f hf], Bool.and_false]
  · intro rq s hs hlen hm hstarting hrun hbrake hbus hfence hup hfatal
    exact execBldcStart_accepts rq _ s hs hlen rfl hm hstarting hrun hbrake hbus hfence hup hfatal
  · intro rq s hs hm hrpm hsource hfence
    change execBldcSpeed rq s = _
    unfold execBldcSpeed
    exact command_pass 0x0E04 rq _ _ s hs (by simp [hm, hrpm, hsource, hfence])
  · intro m rpm s hm x
    refine ⟨fun h => setCommand_stands m rpm s h, fun hauto hst hlow hrise hbus hfence hup hfatal => ?_⟩
    exact ⟨setCommand_starts m rpm s hm hauto hst hlow hrise hbus hfence hup hfatal, (setCommand_command m rpm s hm).1⟩
  · intro rq s hs hmode
    change execBldcStop rq s = _
    unfold execBldcStop
    exact command_pass 0x0E05 rq _ _ s hs (by simp [hmode])
  · intro m s hm
    refine ⟨fun h => stopMotor_coasts m s hm h, fun hrun => ?_, fun hstarting hrun ramp => ?_⟩
    · unfold stopMotor Motor.starting
      simp [hrun]
    · unfold stopMotor
      simp [hstarting, hrun]
  · intro rq s hs hm h1 h2 h3 h4 h5 h6 h7 h8 h9
    change execBldcRaw rq s = _
    unfold execBldcRaw
    exact command_pass 0x0E80 rq _ _ s hs (by simp [hm]; omega)
  · intro m value s hm x u
    change execSpeedPinMeasure m value s = _
    unfold execSpeedPinMeasure
    rw [if_neg (not_lt.2 hm)]
    have hu : u = s.modMotor m fun y =>
        { y with pinRpm := pinCommand x value, pinAt := s.time,
                 pinBadAt := if x.pinValid value then none else some (y.pinBadAt.getD s.time),
                 pinOkAt := if x.pinValid value then some (y.pinOkAt.getD s.time) else none } := modMotor_congr s m _ _ rfl
    rw [hu]
    simp only [Bool.and_eq_true, decide_eq_true_eq, Bool.not_eq_true']
    rfl
  · intro m value s hm
    refine ⟨?_, ?_⟩
    · change execSpeedPinMeasure m value s = _
      unfold execSpeedPinMeasure
      rw [if_pos hm]
    · change execSpeedPinLost m s = _
      unfold execSpeedPinLost
      simp [hm]

end Sys2Proof.Machine
end

section
/-!
PROOFS. Commutation, starting, limits and bus braking of the brushless motors (spec/15_bldc.md): `MotorsTurn`.
-/
namespace Sys2Proof.Machine

open Sys2Proof

/-! ### Gates -/

theorem setGates_motor (m : Nat) (g : BitVec 6) (s : State) (hm : m < s.bldc.motors.length) :
    (setGates m g s).motor m =
      { s.motor m with gatesBefore := (s.motor m).gates, gatesAt := s.time, gates := if motorHeld s m then 0 else g } :=
  motor_modMotor s m _ hm

theorem onlyMotor_setGates (m : Nat) (g : BitVec 6) (s : State) : OnlyMotor m s (setGates m g s) := onlyMotor_modMotor ..

theorem OnlyMotor.motorHeld {m : Nat} {s t : State} (h : OnlyMotor m s t) (k : Nat) : motorHeld t k = motorHeld s k := by
  have htherm : t.therm = s.therm := (congrArg State.therm h.frame :)
  unfold Machine.motorHeld State.unit
  rw [htherm]

theorem advanceTo_motorHeld (s : State) (t k : Nat) : motorHeld (s.advanceTo t) k = motorHeld s k := by
  have htherm : (s.advanceTo t).therm = s.therm := (congrArg State.therm (advanceTo_frame s t) :)
  unfold motorHeld State.unit
  rw [htherm]

theorem advanceTo_coreUp (s : State) (t core : Nat) : (s.advanceTo t).coreUp core = s.coreUp core := by
  have hheld : (s.advanceTo t).held = s.held := (congrArg State.held (advanceTo_frame s t) :)
  unfold State.coreUp
  rw [advanceTo_flt, hheld]

/-- No step of the six drives both sides of a phase. -/
theorem stepGates_oneSide (step phase : Nat) (hphase : phase < 3) :
    ¬((stepGates step).getLsbD (2 * phase) = true ∧ (stepGates step).getLsbD (2 * phase + 1) = true) := by
  have hsix : ∀ k < 6, ∀ p < 3, ¬((at' [0b001001#6, 0b100001, 0b100100, 0b000110, 0b010010, 0b011000] k 0).getLsbD (2 * p) = true ∧
      (at' [0b001001#6, 0b100001, 0b100100, 0b000110, 0b010010, 0b011000] k 0).getLsbD (2 * p + 1) = true) := by decide
  exact hsix (step % 6) (Nat.mod_lt _ (by decide)) phase hphase

theorem gatePins_held (x : Motor) (now : BitVec 64) (hdriven : x.driven = true) (hstopped : x.pwmStopped = true)
    (hoff : x.highOff now = false) (hdead : x.deadNs * 8 ≤ (now - x.gatesAt).toNat * 5) : x.gatePins now = x.gates := by
  have hreleased : x.released now = false := by
    unfold Motor.released
    unfold Motor.driven at hdriven
    cases hst : x.st <;> simp [hst] at hdriven ⊢
  unfold Motor.gatePins
  simp only [hreleased, hstopped, hoff, Bool.false_eq_true, if_false, Bool.true_or, Bool.not_true, Bool.or_self, Bool.and_false]
  rw [if_neg (not_lt.2 hdead)]

theorem gatePins_highOff (x : Motor) (now : BitVec 64) (hdriven : x.driven = true) (hoff : x.highOff now = true) :
    x.gatePins now &&& highSides = 0 := by
  have hclear (on : BitVec 6) : on &&& ~~~highSides &&& highSides = 0 := by
    rw [BitVec.and_assoc]
    have : ~~~highSides &&& highSides = 0 := by decide
    rw [this]
    exact BitVec.and_zero
  unfold Motor.gatePins
  simp only [hdriven, hoff, Bool.or_true, Bool.and_self, if_true]
  split
  · exact BitVec.zero_and
  · exact hclear _

/-! ### Crossings -/

/-- A motor whose crossing is plausible. -/
def crossedMotor (now : BitVec 64) (delta : Nat) (x : Motor) : Motor :=
  { x with crossed := true, crossAt := now, deltas := (delta :: x.deltas).take 6,
           commDue := now + BitVec.ofNat 64 (delta / 2 - delta * x.advance / 60), badRun := 0, goodRun := x.goodRun + 1 }

theorem execBemfZeroCross_plausible (m delta : Nat) (forward : Bool) (s : State) (hm : m < s.bldc.motors.length)
    (hrun : (s.motor m).st = .run) (hcrossed : (s.motor m).crossed = false)
    (hok : plausible (s.advanceTo ((s.motor m).crossAt.toNat + delta)) (s.motor m) delta = true) :
    ∃ t, execBemfZeroCross m delta forward s = .next t ∧
      t.motor m = crossedMotor (s.advanceTo ((s.motor m).crossAt.toNat + delta)).time delta (s.motor m) ∧
      OnlyMotor m (s.advanceTo ((s.motor m).crossAt.toNat + delta)) t := by
  have hadv := advanceTo_motor s ((s.motor m).crossAt.toNat + delta) m
  have hlen := advanceTo_nMotors s ((s.motor m).crossAt.toNat + delta)
  unfold execBemfZeroCross
  generalize hx : s.motor m = x at *
  simp only [hrun, reduceCtorEq, decide_false, Bool.or_self, Bool.false_eq_true, if_false]
  generalize s.advanceTo (x.crossAt.toNat + delta) = u at *
  have hblank : blanked u x delta = false := by
    unfold plausible at hok
    simp only [Bool.and_eq_true, Bool.not_eq_true'] at hok
    exact hok.1.1.1.1
  have hstep := onlyMotor_modMotor u m fun y =>
    { y with crossed := true, crossAt := u.time, deltas := (delta :: y.deltas).take 6,
             commDue := u.time + BitVec.ofNat 64 (delta / 2 - delta * x.advance / 60) }
  have hset := motor_modMotor u m (fun y =>
    { y with crossed := true, crossAt := u.time, deltas := (delta :: y.deltas).take 6,
             commDue := u.time + BitVec.ofNat 64 (delta / 2 - delta * x.advance / 60) }) (by rw [hlen]; exact hm)
  have hset' := motor_modMotor _ m (fun y : Motor => { y with badRun := 0, goodRun := y.goodRun + 1 })
    (by rw [hstep.nMotors, hlen]; exact hm)
  rw [hset, hadv] at hset'
  simp only [hcrossed, hblank, hok, decide_true, Bool.true_or, Bool.not_true, Bool.or_self, Bool.false_eq_true, if_false,
    Bool.false_and]
  refine ⟨_, congrArg Host.Outcome.next (if_neg ?_), hset', hstep.trans (onlyMotor_modMotor ..)⟩
  rw [hset']
  simp [hrun]

theorem execBemfZeroCross_timed (m delta : Nat) (forward : Bool) (s : State)
    (hst : (s.motor m).st = .coast ∨ (s.motor m).st = .busBrake ∨ (s.motor m).st = .brake ∨ (s.motor m).st = .listen) :
    execBemfZeroCross m delta forward s = .next ((s.advanceTo ((s.motor m).crossAt.toNat + delta)).modMotor m fun x =>
      { x with crossAt := (s.advanceTo ((s.motor m).crossAt.toNat + delta)).time, deltas := (delta :: x.deltas).take 6 }) := by
  unfold execBemfZeroCross
  rcases hst with h | h | h | h <;> simp [h]

/-! ### Commutation -/

/-- The settings of bldc.raw that wait for a commutation. -/
def takeRaw (x : Motor) : Motor :=
  match x.rawNext with
  | some (dm, ad, lc, bb, dn) => { x with demag := dm, advance := ad, lossCount := lc, bemfBlank := bb, deadNs := dn, rawNext := none }
  | none => x

/-- A motor as its next commutation leaves it, before its regulator. -/
def commutated (now : BitVec 64) (off : Bool) (x : Motor) : Motor :=
  { takeRaw x with
    step := (x.step + 1) % 6, crossed := false, commAt := now, commutations := x.commutations + 1, gatesBefore := x.gates,
    gatesAt := now, gates := if off then 0 else stepGates ((x.step + 1) % 6) }

theorem takeRaw_frame (x : Motor) : { takeRaw x with
    demag := x.demag, advance := x.advance, lossCount := x.lossCount, bemfBlank := x.bemfBlank, deadNs := x.deadNs,
    rawNext := x.rawNext } = x := by
  unfold takeRaw
  split <;> rfl

/-- The state after a commutation, before its regulator. -/
def switched (m : Nat) (s : State) : State :=
  setGates m (stepGates (((s.motor m).step + 1) % 6)) (s.modMotor m fun x =>
    { takeRaw x with step := ((s.motor m).step + 1) % 6, crossed := false, commAt := s.time, commutations := (takeRaw x).commutations + 1 })

theorem commutate_eq (m : Nat) (s : State) : commutate m s =
    if ((s.motor m).step + 1) % 6 = 0 && (s.motor m).st = .run then regulate m (s.motor m).deltas.sum (switched m s)
    else switched m s := rfl

theorem switched_effect (m : Nat) (s : State) (hm : m < s.bldc.motors.length) :
    OnlyMotor m s (switched m s) ∧ (switched m s).motor m = commutated s.time (motorHeld s m) (s.motor m) := by
  have hstep := onlyMotor_modMotor s m fun x =>
    { takeRaw x with step := ((s.motor m).step + 1) % 6, crossed := false, commAt := s.time, commutations := (takeRaw x).commutations + 1 }
  refine ⟨hstep.trans (onlyMotor_setGates ..), ?_⟩
  have hgates : (takeRaw (s.motor m)).gates = (s.motor m).gates := (congrArg Motor.gates (takeRaw_frame (s.motor m)) :)
  have hcomm : (takeRaw (s.motor m)).commutations = (s.motor m).commutations := (congrArg Motor.commutations (takeRaw_frame (s.motor m)) :)
  unfold switched
  rw [setGates_motor _ _ _ (by rw [hstep.nMotors]; exact hm), hstep.motorHeld, motor_modMotor _ _ _ hm]
  unfold commutated
  rw [hgates, hcomm]
  rfl

theorem onlyMotor_coast (m : Nat) (s : State) : OnlyMotor m s (coast m s) := onlyMotor_modMotor ..

/-- The regulator sets the command in force, the integral and the duty, and may let the motor coast. -/
theorem regulate_eq (m t : Nat) (s : State) : ∃ (now duty : Nat) (sum : Int) (limited below : Bool), duty ≤ (s.motor m).maxDuty ∧
    regulate m t s =
      let u := s.modMotor m fun x => { x with inForce := now, limited := limited, errorSum := sum, duty := duty }
      if below then coast m u else u := by
  have hclamp (d : Int) : (clampI 0 (s.motor m).maxDuty d).toNat ≤ (s.motor m).maxDuty := by
    rw [clampI_eq _ _ _ (Int.natCast_nonneg _)]
    omega
  exact ⟨_, _, _, _, _, hclamp _, rfl⟩

theorem regulate_effect (m t : Nat) (s : State) (hm : m < s.bldc.motors.length) :
    OnlyMotor m s (regulate m t s) ∧ ((regulate m t s).motor m).step = (s.motor m).step ∧
      ((regulate m t s).motor m).commutations = (s.motor m).commutations ∧ ((regulate m t s).motor m).duty ≤ (s.motor m).maxDuty := by
  obtain ⟨now, duty, sum, limited, below, hduty, heq⟩ := regulate_eq m t s
  have hstep := onlyMotor_modMotor s m fun x => { x with inForce := now, limited := limited, errorSum := sum, duty := duty }
  have hset := motor_modMotor s m (fun x => { x with inForce := now, limited := limited, errorSum := sum, duty := duty }) hm
  rw [heq]
  dsimp only
  cases below with
  | false =>
    simp only [Bool.false_eq_true, if_false]
    rw [hset]
    exact ⟨hstep, rfl, rfl, hduty⟩
  | true =>
    simp only [if_true]
    rw [coast_motor _ _ (by rw [hstep.nMotors]; exact hm), hset]
    exact ⟨hstep.trans (onlyMotor_coast ..), rfl, rfl, Nat.zero_le _⟩

/-! ### Commutation by its events -/

theorem execCommutation_ramp (m k : Nat) (s : State) (hm : m < s.bldc.motors.length) (hst : (s.motor m).st = .ramp)
    (hdue : (s.motor m).rampDue = some k) :
    ∃ t, execCommutation m s = .next t ∧ (t.motor m).step = ((s.motor m).step + 1) % 6 ∧
      (t.motor m).rampSteps = (s.motor m).rampSteps + 1 ∧ (t.motor m).st = .ramp ∧
      (t.motor m).gates = (if motorHeld s m then 0 else stepGates (t.motor m).step) ∧
      (t.motor m).commAt = t.time ∧ OnlyMotor m (s.advanceTo ((s.motor m).phaseAt.toNat + k)) t := by
  have hadv := advanceTo_motor s ((s.motor m).phaseAt.toNat + k) m
  have hlen := advanceTo_nMotors s ((s.motor m).phaseAt.toNat + k)
  have hheld := advanceTo_motorHeld s ((s.motor m).phaseAt.toNat + k) m
  unfold execCommutation
  simp only [hst, reduceCtorEq, decide_false, Bool.false_and, Bool.false_eq_true, if_false, if_true, hdue]
  generalize s.advanceTo ((s.motor m).phaseAt.toNat + k) = u at *
  have hm' : m < u.bldc.motors.length := by rw [hlen]; exact hm
  have hstep := onlyMotor_modMotor u m fun x => { x with rampSteps := x.rampSteps + 1, goodRun := if x.crossed then x.goodRun else 0 }
  have hset := motor_modMotor u m (fun x => { x with rampSteps := x.rampSteps + 1, goodRun := if x.crossed then x.goodRun else 0 }) hm'
  rw [hadv] at hset
  have hheld' := (hstep.motorHeld m).trans hheld
  have hm'' := hstep.nMotors.symm ▸ hm'
  have htime : (u.modMotor m fun x => { x with rampSteps := x.rampSteps + 1, goodRun := if x.crossed then x.goodRun else 0 }).time = u.time := rfl
  generalize u.modMotor m (fun x => { x with rampSteps := x.rampSteps + 1, goodRun := if x.crossed then x.goodRun else 0 }) = v at *
  obtain ⟨hone, hmotor⟩ := switched_effect m v hm''
  have hvst : (v.motor m).st = .ramp := by rw [hset]; exact hst
  have hcomm : commutate m v = switched m v := by rw [commutate_eq, hvst]; simp
  have htaken := takeRaw_frame (v.motor m)
  rw [hheld', hset] at hmotor
  rw [hset] at htaken
  refine ⟨_, congrArg Host.Outcome.next hcomm, ?_, ?_, ?_, ?_, ?_, hstep.trans hone⟩
  · rw [hmotor]
    rfl
  · rw [hmotor]
    exact (congrArg Motor.rampSteps htaken :)
  · rw [hmotor]
    exact (congrArg Motor.st htaken :).trans hst
  · rw [hmotor]
    rfl
  · have hvtime : (switched m v).time = v.time := (congrArg State.time hone.frame :)
    rw [hvtime, hmotor]
    rfl

theorem execCommutation_run (m : Nat) (s : State) (hm : m < s.bldc.motors.length) (hst : (s.motor m).st = .run)
    (hcrossed : (s.motor m).crossed = true) :
    ∃ t, execCommutation m s = .next t ∧ (t.motor m).step = ((s.motor m).step + 1) % 6 ∧
      (t.motor m).commutations = (s.motor m).commutations + 1 ∧
      ((t.motor m).step ≠ 0 → (t.motor m).gates = (if motorHeld s m then 0 else stepGates (t.motor m).step) ∧
        (t.motor m).crossed = false ∧ (t.motor m).st = .run) ∧
      ((t.motor m).step = 0 → (t.motor m).duty ≤ (s.motor m).maxDuty) ∧ (∀ k, k ≠ m → t.motor k = s.motor k) := by
  have hadv := advanceTo_motor s (s.motor m).commDue.toNat
  have hlen := advanceTo_nMotors s (s.motor m).commDue.toNat
  have hheld := advanceTo_motorHeld s (s.motor m).commDue.toNat m
  unfold execCommutation
  simp only [hst, hcrossed, decide_true, Bool.and_self, if_true]
  generalize s.advanceTo (s.motor m).commDue.toNat = u at *
  have hm' : m < u.bldc.motors.length := by rw [hlen]; exact hm
  obtain ⟨hone, hmotor⟩ := switched_effect m u hm'
  have htaken := takeRaw_frame (u.motor m)
  rw [hadv] at htaken
  rw [hheld, hadv] at hmotor
  have hswitchedStep : ((switched m u).motor m).step = ((s.motor m).step + 1) % 6 := by rw [hmotor]; rfl
  have hswitchedComm : ((switched m u).motor m).commutations = (s.motor m).commutations + 1 := by rw [hmotor]; rfl
  have hswitchedMax : ((switched m u).motor m).maxDuty = (s.motor m).maxDuty := by
    rw [hmotor]
    exact (congrArg Motor.maxDuty htaken :)
  by_cases hzero : ((s.motor m).step + 1) % 6 = 0
  · have hcomm : commutate m u = regulate m (u.motor m).deltas.sum (switched m u) := by
      rw [commutate_eq, hadv, if_pos (by simp [hst, hzero])]
    obtain ⟨hreg, hregStep, hregComm, hregDuty⟩ := regulate_effect m (u.motor m).deltas.sum (switched m u)
      (by rw [hone.nMotors]; exact hm')
    refine ⟨_, congrArg Host.Outcome.next hcomm, hregStep.trans hswitchedStep, hregComm.trans hswitchedComm, fun hno => ?_,
      fun _ => hswitchedMax ▸ hregDuty, fun k hk => ((hone.trans hreg).others k hk).trans (hadv k)⟩
    exact absurd ((hregStep.trans hswitchedStep).trans hzero) hno
  · have hcomm : commutate m u = switched m u := by
      rw [commutate_eq, hadv, if_neg (by simp [hzero])]
    refine ⟨_, congrArg Host.Outcome.next hcomm, hswitchedStep, hswitchedComm, fun _ => ?_, fun h => ?_,
      fun k hk => (hone.others k hk).trans (hadv k)⟩
    · rw [hmotor]
      exact ⟨rfl, rfl, (congrArg Motor.st htaken :).trans hst⟩
    · exact absurd (hswitchedStep.symm.trans h) hzero

theorem execZeroCrossTimeout_runs (m : Nat) (s : State) (hm : m < s.bldc.motors.length) (hst : (s.motor m).st = .run)
    (hcrossed : (s.motor m).crossed = false) (hloss : (s.motor m).badRun + 1 < (s.motor m).lossCount)
    (hstep : ((s.motor m).step + 1) % 6 ≠ 0) :
    ∃ t, execZeroCrossTimeout m s = .next t ∧ (t.motor m).badRun = (s.motor m).badRun + 1 ∧
      (t.motor m).step = ((s.motor m).step + 1) % 6 ∧ (t.motor m).st = .run ∧ t.flt = s.flt := by
  have hadv := advanceTo_motor s ((s.motor m).commAt.toNat + 2 * (s.motor m).deltas.headD 0) m
  have hlen := advanceTo_nMotors s ((s.motor m).commAt.toNat + 2 * (s.motor m).deltas.headD 0)
  have hflt := advanceTo_flt s ((s.motor m).commAt.toNat + 2 * (s.motor m).deltas.headD 0)
  unfold execZeroCrossTimeout
  simp only [hst, hcrossed, ne_eq, not_true_eq_false, decide_false, Bool.or_self, Bool.false_eq_true, if_false]
  generalize s.advanceTo ((s.motor m).commAt.toNat + 2 * (s.motor m).deltas.headD 0) = u at *
  have hm' : m < u.bldc.motors.length := by rw [hlen]; exact hm
  have hset := motor_modMotor u m (fun x => { x with badRun := x.badRun + 1, goodRun := 0 }) hm'
  have hbad := onlyMotor_modMotor u m fun x => { x with badRun := x.badRun + 1, goodRun := 0 }
  rw [hadv] at hset
  have himpl : implausible m u = u.modMotor m fun x => { x with badRun := x.badRun + 1, goodRun := 0 } := by
    unfold implausible
    dsimp only
    rw [hset]
    simp [hloss]
  rw [himpl]
  generalize u.modMotor m (fun x => { x with badRun := x.badRun + 1, goodRun := 0 }) = v at *
  obtain ⟨hone, hmotor⟩ := switched_effect m v (by rw [hbad.nMotors]; exact hm')
  have htaken := takeRaw_frame (v.motor m)
  rw [hset] at htaken hmotor
  have hvst : (v.motor m).st = .run := by rw [hset]; exact hst
  have hcomm : commutate m v = switched m v := by
    rw [commutate_eq, hset, if_neg (by simp [hstep])]
  refine ⟨switched m v, by rw [if_pos hvst, hcomm], ?_, ?_, ?_, ?_⟩
  · rw [hmotor]
    exact (congrArg Motor.badRun htaken :)
  · rw [hmotor]
    rfl
  · rw [hmotor]
    exact (congrArg Motor.st htaken :).trans hst
  · rw [hone.flt, hbad.flt, hflt]

end Sys2Proof.Machine
end

section
/-!
PROOFS. Starting, limits and bus braking of the brushless motors (spec/15_bldc.md): `MotorsTurn`.
-/
namespace Sys2Proof.Machine

open Sys2Proof

/-! ### Starting -/

theorem align_effect (m : Nat) (s : State) (hm : m < s.bldc.motors.length) :
    OnlyMotor m s (align m s) ∧ ((align m s).motor m).st = .align ∧ ((align m s).motor m).duty = (s.motor m).alignDuty ∧
      ((align m s).motor m).gates = if motorHeld s m then 0 else stepGates 0 := by
  have hstep := onlyMotor_modMotor s m fun x => { x with st := .align, step := 0, duty := x.alignDuty, deltas := [], phaseAt := s.time }
  have hset := motor_modMotor s m (fun x => { x with st := .align, step := 0, duty := x.alignDuty, deltas := [], phaseAt := s.time }) hm
  unfold align
  rw [setGates_motor _ _ _ (by rw [hstep.nMotors]; exact hm), hset, hstep.motorHeld]
  exact ⟨hstep.trans (onlyMotor_setGates ..), rfl, rfl, rfl⟩

/-- The state in which a motor brakes from a listen, or goes on braking. -/
theorem setGates_brake (m : Nat) (f : Motor → Motor) (s : State) (hm : m < s.bldc.motors.length) (hf : (f (s.motor m)).st = .brake) :
    OnlyMotor m s (setGates m lowSides (s.modMotor m f)) ∧ ((setGates m lowSides (s.modMotor m f)).motor m).st = .brake ∧
      ((setGates m lowSides (s.modMotor m f)).motor m).gates = if motorHeld s m then 0 else lowSides := by
  have hstep := onlyMotor_modMotor s m f
  have hset := motor_modMotor s m f hm
  rw [setGates_motor _ _ _ (by rw [hstep.nMotors]; exact hm), hset, hstep.motorHeld]
  exact ⟨hstep.trans (onlyMotor_setGates ..), hf, rfl⟩

theorem endStart_motor (m result status rpm : Nat) (s : State) :
    ((endStart m result status rpm s).motor m).st = (s.motor m).st ∧
      ((endStart m result status rpm s).motor m).gates = (s.motor m).gates ∧
      ((endStart m result status rpm s).motor m).caught = (s.motor m).caught := by
  obtain ⟨-, -, -, -, hsame⟩ := endStart_acts m result status rpm s
  exact ⟨(congrArg Motor.st hsame :), (congrArg Motor.gates hsame :), (congrArg Motor.caught hsame :)⟩

theorem endStart_flt (m result status rpm : Nat) (s : State) : (endStart m result status rpm s).flt = s.flt :=
  (congrArg State.flt (endStart_acts m result status rpm s).2.2.2.1 :)

/-- RUN is entered: the motor's gates stay, and the others. -/
theorem enterRun_effect (m : Nat) (s : State) (hm : m < s.bldc.motors.length) :
    ((enterRun m s).motor m).st = .run ∧ ((enterRun m s).motor m).gates = (s.motor m).gates ∧
      ((enterRun m s).motor m).caught = (s.motor m).caught ∧ (∀ k, k ≠ m → (enterRun m s).motor k = s.motor k) := by
  have hset := motor_modMotor s m (fun x =>
    { x with st := .run, runAt := s.time, badRun := 0, goodRun := 0, inForce := (s.motor m).rpm * ticksPerSecond }) hm
  have hothers (k : Nat) (hk : k ≠ m) := motor_modMotor_ne s m k (fun x =>
    { x with st := .run, runAt := s.time, badRun := 0, goodRun := 0, inForce := (s.motor m).rpm * ticksPerSecond }) hk
  unfold enterRun
  dsimp only
  generalize (s.motor m).rpm = rpm at *
  generalize s.modMotor m (fun x =>
    { x with st := .run, runAt := s.time, badRun := 0, goodRun := 0, inForce := rpm * ticksPerSecond }) = u at *
  obtain ⟨hst, hgates, hcaught⟩ := endStart_motor m 0 Status.ok rpm u
  obtain ⟨hends, -⟩ := endStart_acts m 0 Status.ok rpm u
  rw [hst, hgates, hcaught, hset]
  exact ⟨rfl, rfl, rfl, fun k hk => (hends k hk).trans (hothers k hk)⟩

theorem freeDuty_effect (m : Nat) (s : State) (hm : m < s.bldc.motors.length) :
    ((freeDuty m s).motor m).gates = (s.motor m).gates ∧ ((freeDuty m s).motor m).caught = (s.motor m).caught ∧
      (∀ k, k ≠ m → (freeDuty m s).motor k = s.motor k) ∧ (freeDuty m s).bldc.motors.length = s.bldc.motors.length := by
  have hset := motor_modMotor { s with free := s.free + 2 } m (fun x =>
    { x with duty := Config.freeNat s.free % (x.maxDuty + 1), errorSum := Config.freeNat (s.free + 1) }) hm
  exact ⟨(congrArg Motor.gates hset :), (congrArg Motor.caught hset :), fun k hk => motor_modMotor_ne _ _ _ _ hk, length_modAt ..⟩

/-- The state in which a turning rotor is caught. -/
def caughtUp (m delta : Nat) (x : Motor) (s : State) : State :=
  setGates m (stepGates x.step) (s.modMotor m fun x =>
    { x with deltas := List.replicate 6 delta, caught := true, crossed := false, commAt := s.time, crossAt := s.time,
             windowAt := s.time, limitedPeriods := 0 })

theorem caughtUp_effect (m delta : Nat) (x : Motor) (s : State) (hm : m < s.bldc.motors.length) :
    OnlyMotor m s (caughtUp m delta x s) ∧ ((caughtUp m delta x s).motor m).caught = true ∧
      ((caughtUp m delta x s).motor m).gates = if motorHeld s m then 0 else stepGates x.step := by
  have hstep := onlyMotor_modMotor s m fun x =>
    { x with deltas := List.replicate 6 delta, caught := true, crossed := false, commAt := s.time, crossAt := s.time,
             windowAt := s.time, limitedPeriods := 0 }
  have hset := motor_modMotor s m (fun x =>
    { x with deltas := List.replicate 6 delta, caught := true, crossed := false, commAt := s.time, crossAt := s.time,
             windowAt := s.time, limitedPeriods := 0 }) hm
  unfold caughtUp
  rw [setGates_motor _ _ _ (by rw [hstep.nMotors]; exact hm), hset, hstep.motorHeld]
  exact ⟨hstep.trans (onlyMotor_setGates ..), rfl, rfl⟩

theorem execListenEnd_effect (m crossings delta : Nat) (forward : Bool) (s : State) (hm : m < s.bldc.motors.length)
    (hup : s.coreUp motorCore = true) (hst : (s.motor m).st = .listen) :
    let fast := (s.motor m).catches (rpmOf (s.motor m).poles 1 delta)
    ∃ t, execListenEnd m crossings forward delta s = .next t ∧ (∀ k, k ≠ m → t.motor k = s.motor k) ∧
      (motorHeld s m = true → (t.motor m).gates = 0) ∧
      (crossings < 7 → (t.motor m).st = .align ∧ (motorHeld s m = false → (t.motor m).gates = stepGates 0) ∧
        (t.motor m).duty = (s.motor m).alignDuty) ∧
      (7 ≤ crossings → forward = true → fast = true → (t.motor m).st = .run ∧ (t.motor m).caught = true) ∧
      (7 ≤ crossings → (forward = false ∨ fast = false) → (t.motor m).st = .brake ∧
        (motorHeld s m = false → (t.motor m).gates = lowSides)) := by
  intro fast
  have hadv := advanceTo_motor s ((s.motor m).phaseAt.toNat + 50 * ticksPerMs)
  have hlen := advanceTo_nMotors s ((s.motor m).phaseAt.toNat + 50 * ticksPerMs)
  have hheld := advanceTo_motorHeld s ((s.motor m).phaseAt.toNat + 50 * ticksPerMs) m
  unfold execListenEnd
  simp only [hst, hup, ne_eq, not_true_eq_false, decide_false, Bool.not_true, Bool.or_self, Bool.false_eq_true, if_false]
  generalize s.advanceTo ((s.motor m).phaseAt.toNat + 50 * ticksPerMs) = u at *
  have hm' : m < u.bldc.motors.length := by rw [hlen]; exact hm
  by_cases hfew : crossings < 7
  · obtain ⟨hone, hast, hduty, hgates⟩ := align_effect m u hm'
    rw [hheld] at hgates
    rw [if_pos hfew]
    refine ⟨_, rfl, fun k hk => (hone.others k hk).trans (hadv k), fun h => by rw [hgates, h]; rfl,
      fun _ => ⟨hast, fun h => by rw [hgates, h]; rfl, by rw [hduty, hadv]⟩, fun h => absurd hfew (not_lt.2 h),
      fun h => absurd hfew (not_lt.2 h)⟩
  · rw [if_neg hfew]
    by_cases hcatch : (forward && (s.motor m).catches (rpmOf (s.motor m).poles 1 delta)) = true
    · obtain ⟨hone, hcaught, hgates⟩ := caughtUp_effect m delta (s.motor m) u hm'
      obtain ⟨hdgates, hdcaught, hdothers, hdlen⟩ := freeDuty_effect m (caughtUp m delta (s.motor m) u) (by rw [hone.nMotors]; exact hm')
      obtain ⟨hrst, hrgates, hrcaught, hrothers⟩ := enterRun_effect m (freeDuty m (caughtUp m delta (s.motor m) u))
        (by rw [hdlen, hone.nMotors]; exact hm')
      rw [if_pos hcatch]
      refine ⟨enterRun m (freeDuty m (caughtUp m delta (s.motor m) u)), rfl,
        fun k hk => ((hrothers k hk).trans ((hdothers k hk).trans (hone.others k hk))).trans (hadv k), fun h => ?_,
        fun h => absurd h hfew, fun _ _ _ => ⟨hrst, hrcaught.trans (hdcaught.trans hcaught)⟩, fun _ h => ?_⟩
      · rw [hrgates, hdgates, hgates, hheld, h]
        rfl
      · rw [Bool.and_eq_true] at hcatch
        rcases h with h | h
        · rw [h] at hcatch
          cases hcatch.1
        · exact absurd (hcatch.2.symm.trans h) (by decide)
    · obtain ⟨hone, hbst, hgates⟩ := setGates_brake m (fun x => { x with st := .brake, phaseAt := u.time, listenAt := u.time }) u hm' rfl
      rw [hheld] at hgates
      rw [if_neg hcatch]
      refine ⟨_, rfl, fun k hk => (hone.others k hk).trans (hadv k), fun h => by rw [hgates, h]; rfl, fun h => absurd h hfew,
        fun _ hforward hfast => ?_, fun _ _ => ⟨hbst, fun h => by rw [hgates, h]; rfl⟩⟩
      exact absurd (Bool.and_eq_true _ _ ▸ ⟨hforward, hfast⟩) hcatch

theorem execBrakeListen_effect (m crossings : Nat) (s : State) (hm : m < s.bldc.motors.length) (hup : s.coreUp motorCore = true)
    (hst : (s.motor m).st = .brake) :
    ∃ t, execBrakeListen m crossings s = .next t ∧
      { t with bldc := s.bldc } = s.advanceTo ((s.motor m).listenAt.toNat + 60 * ticksPerMs) ∧
      (crossings < 2 → (t.motor m).st = .align) ∧
      (2 ≤ crossings → (t.motor m).st = .brake ∧ (t.motor m).gates = if motorHeld s m then 0 else lowSides) := by
  have hadv := advanceTo_motor s ((s.motor m).listenAt.toNat + 60 * ticksPerMs) m
  have hlen := advanceTo_nMotors s ((s.motor m).listenAt.toNat + 60 * ticksPerMs)
  have hheld := advanceTo_motorHeld s ((s.motor m).listenAt.toNat + 60 * ticksPerMs) m
  have hbldc : (s.advanceTo ((s.motor m).listenAt.toNat + 60 * ticksPerMs)).bldc = s.bldc :=
    (congrArg State.bldc (advanceTo_frame s _) :)
  unfold execBrakeListen
  simp only [hst, hup, ne_eq, not_true_eq_false, decide_false, Bool.not_true, Bool.or_self, Bool.false_eq_true, if_false]
  generalize s.advanceTo ((s.motor m).listenAt.toNat + 60 * ticksPerMs) = u at *
  have hm' : m < u.bldc.motors.length := by rw [hlen]; exact hm
  by_cases hfew : crossings < 2
  · obtain ⟨hone, hast, -, -⟩ := align_effect m u hm'
    rw [if_pos hfew]
    exact ⟨_, rfl, hbldc ▸ hone.frame, fun _ => hast, fun h => absurd hfew (not_lt.2 h)⟩
  · obtain ⟨hone, hbst, hgates⟩ := setGates_brake m
      (fun x => { x with listenAt := u.time - BitVec.ofNat 64 (10 * ticksPerMs) }) u hm' (by rw [hadv]; exact hst)
    rw [hheld] at hgates
    rw [if_neg hfew]
    exact ⟨_, rfl, hbldc ▸ hone.frame, fun h => absurd h hfew, fun _ => ⟨hbst, hgates⟩⟩

theorem execAlignEnd_effect (m : Nat) (s : State) (hm : m < s.bldc.motors.length) (hup : s.coreUp motorCore = true)
    (hst : (s.motor m).st = .align) :
    ∃ t, execAlignEnd m s = .next t ∧ (t.motor m).st = .ramp ∧ (t.motor m).goodRun = 0 ∧ (∀ k, k ≠ m → t.motor k = s.motor k) ∧
      { t with bldc := s.bldc } = s.advanceTo ((s.motor m).phaseAt.toNat + (s.motor m).alignMs * ticksPerMs) := by
  have hadv := advanceTo_motor s ((s.motor m).phaseAt.toNat + (s.motor m).alignMs * ticksPerMs)
  have hlen := advanceTo_nMotors s ((s.motor m).phaseAt.toNat + (s.motor m).alignMs * ticksPerMs)
  have hbldc : (s.advanceTo ((s.motor m).phaseAt.toNat + (s.motor m).alignMs * ticksPerMs)).bldc = s.bldc :=
    (congrArg State.bldc (advanceTo_frame s _) :)
  unfold execAlignEnd
  simp only [hst, hup, ne_eq, not_true_eq_false, decide_false, Bool.not_true, Bool.or_self, Bool.false_eq_true, if_false]
  generalize s.advanceTo ((s.motor m).phaseAt.toNat + (s.motor m).alignMs * ticksPerMs) = u at *
  refine ⟨_, rfl, ?_, ?_, fun k hk => (motor_modMotor_ne u m k _ hk).trans (hadv k), hbldc ▸ (onlyMotor_modMotor u m _).frame⟩
  · rw [motor_modMotor _ _ _ (by rw [hlen]; exact hm)]
  · rw [motor_modMotor _ _ _ (by rw [hlen]; exact hm)]

/-! ### Failed attempts (R372) -/

theorem presentFw_last (source : Nat) (unit : Option Nat) (detail : Nat) (s : State) :
    ((presentFw source unit detail s).flt.presented.getLast?.map fun r => (r.source, r.unit)) = some (source, unit) := by
  simp [presentFw, presentRaise]

theorem failAttempt_again (m cause : Nat) (s : State) (hm : m < s.bldc.motors.length) (hup : s.coreUp motorCore = true)
    (hretries : (s.motor m).retries < 3) :
    OnlyMotor m s (failAttempt m cause s) ∧ ((failAttempt m cause s).motor m).st = .listen ∧
      ((failAttempt m cause s).motor m).gates = 0 ∧ ((failAttempt m cause s).motor m).retries = (s.motor m).retries + 1 ∧
      ((failAttempt m cause s).motor m).cause = cause := by
  have hcount := onlyMotor_modMotor s m fun x => { x with startFails := x.startFails.inc, cause := cause }
  have hset := motor_modMotor s m (fun x => { x with startFails := x.startFails.inc, cause := cause }) hm
  unfold failAttempt
  rw [hup, Bool.not_true, if_neg (by decide)]
  dsimp only
  rw [hset, if_pos hretries]
  generalize s.modMotor m (fun x => { x with startFails := x.startFails.inc, cause := cause }) = u at *
  have hm' : m < u.bldc.motors.length := by rw [hcount.nMotors]; exact hm
  have hagain := onlyMotor_modMotor u m fun x => { x with retries := x.retries + 1 }
  have hset' := motor_modMotor u m (fun x => { x with retries := x.retries + 1 }) hm'
  unfold listen
  rw [motor_modMotor _ _ _ (by rw [hagain.nMotors]; exact hm'), hset', hset]
  exact ⟨hcount.trans (hagain.trans (onlyMotor_modMotor ..)), rfl, rfl, rfl, rfl⟩

theorem failAttempt_failed (m cause : Nat) (s : State) (hm : m < s.bldc.motors.length) (hup : s.coreUp motorCore = true)
    (hretries : 3 ≤ (s.motor m).retries) :
    ((failAttempt m cause s).motor m).st = .failed ∧ ((failAttempt m cause s).motor m).gates = 0 ∧
      ((failAttempt m cause s).flt.presented.getLast?.map fun r => (r.source, r.unit)) = some (0x01C0, some m) := by
  have hcount := onlyMotor_modMotor s m fun x => { x with startFails := x.startFails.inc, cause := cause }
  have hset := motor_modMotor s m (fun x => { x with startFails := x.startFails.inc, cause := cause }) hm
  unfold failAttempt
  rw [hup, Bool.not_true, if_neg (by decide)]
  dsimp only
  rw [hset, if_neg (not_lt.2 hretries)]
  generalize s.modMotor m (fun x => { x with startFails := x.startFails.inc, cause := cause }) = u at *
  have hm' : m < u.bldc.motors.length := by rw [hcount.nMotors]; exact hm
  have hfailed := motor_modMotor u m (fun x => { x with st := .failed, gates := 0, duty := 0 }) hm'
  obtain ⟨hst, hgates, -⟩ := endStart_motor m 1 Status.failed 0
    (presentFw 0x01C0 (some m) 0 (u.modMotor m fun x => { x with st := .failed, gates := 0, duty := 0 }))
  refine ⟨hst.trans (congrArg Motor.st hfailed :), hgates.trans (congrArg Motor.gates hfailed :), ?_⟩
  rw [endStart_flt]
  exact presentFw_last ..

/-- A timeout of the start's BRAKE or RAMP fails the attempt; the next one begins at once. -/
theorem failAttempt_advanced (m cause t : Nat) (s : State) (hm : m < s.bldc.motors.length) (hup : s.coreUp motorCore = true)
    (hretries : (s.motor m).retries < 3) :
    ((failAttempt m cause (s.advanceTo t)).motor m).st = .listen ∧ ((failAttempt m cause (s.advanceTo t)).motor m).gates = 0 ∧
      ((failAttempt m cause (s.advanceTo t)).motor m).retries = (s.motor m).retries + 1 ∧
      ((failAttempt m cause (s.advanceTo t)).motor m).cause = cause ∧
      { failAttempt m cause (s.advanceTo t) with bldc := s.bldc } = s.advanceTo t := by
  have hbldc : (s.advanceTo t).bldc = s.bldc := (congrArg State.bldc (advanceTo_frame s t) :)
  obtain ⟨hone, hst, hgates, hcount, hcause⟩ := failAttempt_again m cause (s.advanceTo t) (by rw [advanceTo_nMotors]; exact hm)
    ((advanceTo_coreUp s t _).trans hup) (by rw [advanceTo_motor]; exact hretries)
  rw [advanceTo_motor] at hcount
  exact ⟨hst, hgates, hcount, hcause, hbldc ▸ hone.frame⟩

theorem execRampTimeout_eq (m : Nat) (s : State) (hup : s.coreUp motorCore = true) (hst : (s.motor m).st = .ramp) :
    execRampTimeout m s =
      .next (failAttempt m 1 (s.advanceTo ((s.motor m).phaseAt.toNat + (s.motor m).rampMs * ticksPerMs))) := by
  unfold execRampTimeout
  simp only [hst, hup, ne_eq, not_true_eq_false, decide_false, Bool.not_true, Bool.or_self, Bool.false_eq_true, if_false]

theorem execBrakeTimeout_eq (m : Nat) (s : State) (hup : s.coreUp motorCore = true) (hst : (s.motor m).st = .brake) :
    execBrakeTimeout m s =
      .next (failAttempt m 4 (s.advanceTo ((s.motor m).phaseAt.toNat + (s.motor m).brakeMs * ticksPerMs))) := by
  unfold execBrakeTimeout
  simp only [hst, hup, ne_eq, not_true_eq_false, decide_false, Bool.not_true, Bool.or_self, Bool.false_eq_true, if_false]

/-! ### Currents (R377) -/

theorem modMotor_id (m : Nat) (f : Motor → Motor) (s : State) (hm : m < s.bldc.motors.length) (h : f (s.motor m) = s.motor m) :
    s.modMotor m f = s := by
  unfold State.modMotor
  rw [modAt_self s.bldc.motors m f {} hm h]

/-- The high side is switched off where the current of a driven motor exceeds its limit. -/
theorem execDriveCurrentLimit_limits (m mv : Nat) (s : State) (hm : m < s.bldc.motors.length) :
    ((s.motor m).driven = true → (s.motor m).iDrive < mv → (s.motor m).highOff s.time = false →
      ∃ t, execDriveCurrentLimit ⟨m, mv⟩ s = .next t ∧
        t.motor m = { s.motor m with limitAt := some s.time, limitedPeriods := (s.motor m).limitedPeriods + 1 } ∧
        (∀ k, k ≠ m → t.motor k = s.motor k) ∧ { t with bldc := s.bldc } = s) ∧
    (((s.motor m).driven = false ∨ mv ≤ (s.motor m).iDrive ∨ (s.motor m).highOff s.time = true) →
      execDriveCurrentLimit ⟨m, mv⟩ s = .next s) := by
  unfold execDriveCurrentLimit
  refine ⟨fun hdriven hover hoff => ⟨_, rfl, ?_, fun k hk => motor_modMotor_ne s m k _ hk, rfl⟩, fun h => ?_⟩
  · rw [motor_modMotor _ _ _ hm, if_pos (by simp [hdriven, hover, hoff])]
  · rw [modMotor_id m _ s hm]
    rw [if_neg]
    rcases h with h | h | h
    · simp [h]
    · simp [not_lt.2 h]
    · simp [h]

theorem execOvercurrentWindow_within (m : Nat) (s : State) (h : 2 * (s.motor m).limitedPeriods ≤ (s.motor m).pwmKhz * 100) :
    execOvercurrentWindow m s = .next ((s.advanceTo ((s.motor m).windowAt.toNat + 100 * ticksPerMs)).modMotor m fun x =>
      { x with limitedPeriods := 0, windowAt := (s.advanceTo ((s.motor m).windowAt.toNat + 100 * ticksPerMs)).time }) := by
  unfold execOvercurrentWindow
  simp only [decide_eq_false (not_lt.2 h), Bool.not_false, if_true]

theorem execOvercurrentWindow_exceeds (m : Nat) (s : State) (hm : m < s.bldc.motors.length)
    (h : (s.motor m).pwmKhz * 100 < 2 * (s.motor m).limitedPeriods) (hdriven : (s.motor m).driven = true) :
    ∃ t, execOvercurrentWindow m s = .next t ∧ (t.motor m).st = .coast ∧ (t.motor m).gates = 0 ∧
      (t.flt.presented.getLast?.map fun r => (r.source, r.unit)) = some (0x01C6, some m) := by
  unfold execOvercurrentWindow
  simp only [decide_eq_true h, hdriven, Bool.not_true, Bool.false_eq_true, if_false, if_true]
  have hlen := advanceTo_nMotors s ((s.motor m).windowAt.toNat + 100 * ticksPerMs)
  generalize s.advanceTo ((s.motor m).windowAt.toNat + 100 * ticksPerMs) = u at *
  have hstep := onlyMotor_modMotor u m fun x => { x with limitedPeriods := 0, windowAt := u.time }
  generalize u.modMotor m (fun x => { x with limitedPeriods := 0, windowAt := u.time }) = v at *
  have hends := endStart_acts m 1 Status.failed 0 (present 0x01C6 (some m) 0 v)
  refine ⟨_, rfl, ?_, ?_, ?_⟩
  · rw [coast_motor _ _ (by rw [hends.2.1]; change m < v.bldc.motors.length; rw [hstep.nMotors, hlen]; exact hm)]
  · rw [coast_motor _ _ (by rw [hends.2.1]; change m < v.bldc.motors.length; rw [hstep.nMotors, hlen]; exact hm)]
  · rw [(onlyMotor_coast ..).flt, endStart_flt]
    exact present_last ..

/-! ### Bus braking (R379) -/

/-- One motor of a group is braked. -/
def brakeOne (s : State) (m : Nat) : State :=
  setGates m lowSides ((endStart m 1 Status.failed 0
    (s.modMotor m fun x => { x with cause := if x.starting then 3 else x.cause })).modMotor m fun x =>
      { x with st := .busBrake, duty := 0, ramping := false, limited := false, busBrakes := x.busBrakes.inc })

/-- What bus braking leaves: the other motors, the buses and the trips of the thermal units. -/
structure BrakesOnly (m : Nat) (s t : State) : Prop where
  others : ∀ k, k ≠ m → t.motor k = s.motor k
  nMotors : t.bldc.motors.length = s.bldc.motors.length
  buses : t.bldc.buses = s.bldc.buses
  held : ∀ k, motorHeld t k = motorHeld s k

theorem OnlyMotor.brakesOnly {m : Nat} {s t : State} (h : OnlyMotor m s t) : BrakesOnly m s t :=
  ⟨h.others, h.nMotors, h.buses, h.motorHeld⟩

theorem BrakesOnly.trans {m : Nat} {s t u : State} (h : BrakesOnly m s t) (g : BrakesOnly m t u) : BrakesOnly m s u :=
  ⟨fun k hk => (g.others k hk).trans (h.others k hk), g.nMotors.trans h.nMotors, g.buses.trans h.buses,
    fun k => (g.held k).trans (h.held k)⟩

theorem brakesOnly_endStart (m result status rpm : Nat) (s : State) : BrakesOnly m s (endStart m result status rpm s) := by
  obtain ⟨hothers, hlen, hbuses, hframe, -⟩ := endStart_acts m result status rpm s
  have htherm : (endStart m result status rpm s).therm = s.therm := (congrArg State.therm hframe :)
  refine ⟨hothers, hlen, hbuses, fun k => ?_⟩
  unfold motorHeld State.unit
  rw [htherm]

theorem brakesOnly_brakeOne (s : State) (m : Nat) : BrakesOnly m s (brakeOne s m) :=
  (onlyMotor_modMotor s m _).brakesOnly.trans ((brakesOnly_endStart m 1 Status.failed 0 _).trans
    ((onlyMotor_modMotor _ m _).brakesOnly.trans (onlyMotor_setGates ..).brakesOnly))

/-- A motor stands at BUS_BRAKE, its low sides on unless a trip holds them off. -/
def StandsBraked (m : Nat) (off : Bool) (s : State) : Prop :=
  (s.motor m).st = .busBrake ∧ (s.motor m).gates = if off then 0 else lowSides

theorem brakeOne_stands (s : State) (m : Nat) (hm : m < s.bldc.motors.length) :
    StandsBraked m (motorHeld s m) (brakeOne s m) := by
  have hcause := (onlyMotor_modMotor s m fun x => { x with cause := if x.starting then 3 else x.cause }).brakesOnly
  have hends := hcause.trans (brakesOnly_endStart m 1 Status.failed 0 _)
  unfold brakeOne StandsBraked
  generalize endStart m 1 Status.failed 0 (s.modMotor m fun x => { x with cause := if x.starting then 3 else x.cause }) = u at *
  have hm' : m < u.bldc.motors.length := by rw [hends.nMotors]; exact hm
  have hbrake := onlyMotor_modMotor u m fun x =>
    { x with st := .busBrake, duty := 0, ramping := false, limited := false, busBrakes := x.busBrakes.inc }
  have hset := motor_modMotor u m (fun x =>
    { x with st := .busBrake, duty := 0, ramping := false, limited := false, busBrakes := x.busBrakes.inc }) hm'
  rw [setGates_motor _ _ _ (by rw [hbrake.nMotors]; exact hm'), hbrake.motorHeld, hends.held, hset]
  exact ⟨rfl, rfl⟩

/-- Of the motors that are braked each stands; the buses stay. -/
theorem foldl_brakeOne (ms : List Nat) (s : State) (m : Nat) (hm : m < s.bldc.motors.length) :
    (ms.foldl brakeOne s).bldc.buses = s.bldc.buses ∧
      (m ∈ ms ∨ StandsBraked m (motorHeld s m) s → StandsBraked m (motorHeld s m) (ms.foldl brakeOne s)) := by
  induction ms generalizing s with
  | nil => exact ⟨rfl, fun h => h.resolve_left List.not_mem_nil⟩
  | cons k ms ih =>
    have hone := brakesOnly_brakeOne s k
    obtain ⟨hbuses, hstands⟩ := ih (brakeOne s k) (by rw [hone.nMotors]; exact hm)
    rw [hone.held] at hstands
    refine ⟨hbuses.trans hone.buses, fun h => hstands ?_⟩
    by_cases hmk : m = k
    · subst hmk
      exact Or.inr (brakeOne_stands s m hm)
    · rcases h with h | h
      · exact Or.inl ((List.mem_cons.1 h).resolve_left hmk)
      · unfold StandsBraked at h ⊢
        rw [hone.others m hmk]
        exact Or.inr h

/-- Bus braking of a group: a motor of it that turns stands braked, and the group is latched. -/
theorem enterBusBrake_brakes (g m : Nat) (s : State) (hlen : s.bldc.motors.length = 8) (hg : g < s.bldc.buses.length)
    (hm : m < 8) (hin : (s.bus g).motors.getLsbD m = true) (hstopped : (s.motor m).st ≠ .stopped)
    (hbrake : (s.motor m).st ≠ .busBrake) :
    StandsBraked m (motorHeld s m) (enterBusBrake g s) ∧ ((enterBusBrake g s).bus g).latched = true ∧
      (enterBusBrake g s).bldc.buses.length = s.bldc.buses.length := by
  obtain ⟨hbuses, hstands⟩ := foldl_brakeOne ((List.range 8).filter fun m =>
    (s.bus g).motors.getLsbD m && (s.motor m).st ≠ .stopped && (s.motor m).st ≠ .busBrake) s m (by omega)
  have hmember := hstands (Or.inl (List.mem_filter.2 ⟨List.mem_range.2 hm, by simp [hin, hstopped, hbrake]⟩))
  have hfold : enterBusBrake g s =
      let t := ((List.range 8).filter fun m =>
        (s.bus g).motors.getLsbD m && (s.motor m).st ≠ .stopped && (s.motor m).st ≠ .busBrake).foldl brakeOne s
      if (t.bus g).latched then t
      else present 0x01C2 (some g) 0 (t.modBus g fun b => { b with latched := true, absRaised := false }) := rfl
  rw [hfold]
  dsimp only
  generalize ((List.range 8).filter fun m =>
    (s.bus g).motors.getLsbD m && (s.motor m).st ≠ .stopped && (s.motor m).st ≠ .busBrake).foldl brakeOne s = t at *
  by_cases hlatched : (t.bus g).latched = true
  · rw [if_pos hlatched]
    exact ⟨hmember, hlatched, by rw [hbuses]⟩
  · rw [if_neg hlatched]
    refine ⟨hmember, ?_, ?_⟩
    · change ((t.modBus g fun b => { b with latched := true, absRaised := false }).bus g).latched = true
      rw [State.bus, State.modBus]
      dsimp only
      rw [at'_modAt_same _ _ _ _ (by rw [hbuses]; exact hg)]
    · change (modAt t.bldc.buses g _).length = _
      rw [length_modAt, hbuses]

theorem execBusVoltageSample_brakes (g code m : Nat) (s : State) (hlen : s.bldc.motors.length = 8) (hg : g < s.bldc.buses.length)
    (hconf : (s.bus g).configured = true) (hm : m < 8) (hin : (s.bus g).motors.getLsbD m = true)
    (hstopped : (s.motor m).st ≠ .stopped) (hbrake : (s.motor m).st ≠ .busBrake)
    (hover : (s.bus g).ovLimit ≤ openDiv (code * (s.bus g).fullScale) 4095) :
    ∃ t, execBusVoltageSample g code s = .next t ∧ (t.motor m).st = .busBrake ∧
      (t.motor m).gates = (if motorHeld s m then 0 else lowSides) ∧ (t.bus g).latched = true := by
  unfold execBusVoltageSample
  simp only [hconf, Bool.not_true, Bool.false_eq_true, if_false, if_pos hover]
  generalize openDiv (code * (s.bus g).fullScale) 4095 = v
  generalize hu : (s.modBus g fun b =>
    { b with volts := v, chopper := if b.chopOn ≤ v then true else if v ≤ b.chopOff then false else b.chopper,
             chopAt := if b.chopOn ≤ v && !b.chopper then s.time else b.chopAt }) = u
  have hmotors : u.bldc.motors = s.bldc.motors := by rw [← hu]; rfl
  have hmotor : u.motor m = s.motor m := by rw [State.motor, hmotors]; rfl
  have hbuses : u.bldc.buses.length = s.bldc.buses.length := by rw [← hu]; exact length_modAt ..
  have hheld : motorHeld u m = motorHeld s m := by rw [← hu]; rfl
  have hmask : (u.bus g).motors = (s.bus g).motors := by
    rw [← hu, State.bus, State.modBus]
    dsimp only
    rw [at'_modAt_same _ _ _ _ hg]
    rfl
  obtain ⟨hstands, hlatched, hlen'⟩ := enterBusBrake_brakes g m u (by rw [hmotors]; exact hlen) (by rw [hbuses]; exact hg) hm
    (by rw [hmask]; exact hin) (by rw [hmotor]; exact hstopped) (by rw [hmotor]; exact hbrake)
  rw [hheld] at hstands
  obtain ⟨hst, hgates⟩ := hstands
  generalize enterBusBrake g u = w at *
  refine ⟨_, rfl, ?_⟩
  split
  · refine ⟨hst, hgates, ?_⟩
    change ((State.modBus _ g fun b => { b with absRaised := true }).bus g).latched = true
    rw [State.bus, State.modBus]
    dsimp only
    rw [at'_modAt_same _ _ _ _ (by rw [hlen', hbuses]; exact hg)]
    exact hlatched
  · exact ⟨hst, hgates, hlatched⟩

theorem execChopperFailTimeout_brakes (g m : Nat) (feedback : Bool) (s : State) (hlen : s.bldc.motors.length = 8)
    (hg : g < s.bldc.buses.length) (hconf : (s.bus g).configured = true) (hm : m < 8) (hin : (s.bus g).motors.getLsbD m = true)
    (hstopped : (s.motor m).st ≠ .stopped) (hbrake : (s.motor m).st ≠ .busBrake)
    (hfail : feedback = true ∨ (s.bus g).chopper = true) :
    ∃ t, execChopperFailTimeout ⟨g, feedback⟩ s = .next t ∧ (t.motor m).st = .busBrake ∧
      (t.motor m).gates = (if motorHeld s m then 0 else lowSides) ∧ (t.bus g).latched = true := by
  have hgo : (!(s.bus g).configured || !(feedback || (s.bus g).chopper)) = false := by
    rcases hfail with h | h <;> simp [hconf, h]
  unfold execChopperFailTimeout
  simp only [hgo, Bool.false_eq_true, if_false]
  generalize hu : (if feedback = true then s else s.advanceTo ((s.bus g).chopAt.toNat + 20 * ticksPerMs)) = u
  have hbldc : u.bldc = s.bldc := by
    rw [← hu]
    split
    · rfl
    · exact (congrArg State.bldc (advanceTo_frame s _) :)
  have hheld : motorHeld u m = motorHeld s m := by
    rw [← hu]
    split
    · rfl
    · exact advanceTo_motorHeld ..
  have hmotor : u.motor m = s.motor m := by rw [State.motor, hbldc]; rfl
  have hbus : u.bus g = s.bus g := by rw [State.bus, hbldc]; rfl
  obtain ⟨⟨hst, hgates⟩, hlatched, -⟩ := enterBusBrake_brakes g m (present 0x01C4 (some g) 0 u)
    (by change u.bldc.motors.length = 8; rw [hbldc]; exact hlen) (by change g < u.bldc.buses.length; rw [hbldc]; exact hg) hm
    (by change (u.bus g).motors.getLsbD m = true; rw [hbus]; exact hin) (by change (u.motor m).st ≠ _; rw [hmotor]; exact hstopped)
    (by change (u.motor m).st ≠ _; rw [hmotor]; exact hbrake)
  refine ⟨_, rfl, hst, hgates.trans ?_, hlatched⟩
  rw [← hheld]
  rfl

/-! ### The obligation -/

theorem advanceTo_bldc (s : State) (t : Nat) : (s.advanceTo t).bldc = s.bldc := (congrArg State.bldc (advanceTo_frame s t) :)

/-- Settles O45: commutation by `switched_effect` and `regulate_effect`, starting by `align_effect` and `failAttempt_again`,
bus braking by `enterBusBrake_brakes`. -/
theorem motorsTurn : Obligations.MotorsTurn := by
  unfold Obligations.MotorsTurn
  refine ⟨stepGates_oneSide, ?_, ?_, fun m delta forward s hst => execBemfZeroCross_timed m delta forward s hst, ?_, ?_, ?_,
    fun m s hm hst hcrossed => execCommutation_run m s hm hst hcrossed,
    fun m s hm hst hcrossed hloss hstep => execZeroCrossTimeout_runs m s hm hst hcrossed hloss hstep, ?_,
    fun m crossings delta forward s hm hup hst => execListenEnd_effect m crossings delta forward s hm hup hst,
    fun m crossings s hm hup hst => execBrakeListen_effect m crossings s hm hup hst,
    fun m s hm hup hst => execAlignEnd_effect m s hm hup hst, ?_, ?_,
    fun m mv s hm => execDriveCurrentLimit_limits m mv s hm, ?_, ?_, ?_, ?_, ?_, fun m g s hm => setGates_motor m g s hm⟩
  · intro m delta forward s hm x s' hrun hcrossed hok
    obtain ⟨t, hexec, hmotor, hone⟩ := execBemfZeroCross_plausible m delta forward s hm hrun hcrossed hok
    exact ⟨t, hexec, hmotor, fun k hk => (hone.others k hk).trans (advanceTo_motor s _ k), advanceTo_bldc s _ ▸ hone.frame⟩
  · intro m delta forward s hst
    change execBemfZeroCross m delta forward s = _
    unfold execBemfZeroCross
    rcases hst with h | h <;> simp [h]
  · intro m s
    refine ⟨fun h => ?_, fun hramp hrun => ?_, fun hst hdue => ?_⟩
    · change execZeroCrossTimeout m s = _
      unfold execZeroCrossTimeout
      simp [h]
    · change execCommutation m s = _
      unfold execCommutation
      rcases hrun with h | h <;> simp [h, hramp]
    · change execCommutation m s = _
      unfold execCommutation
      simp [hst, hdue]
  · intro m k s hm hst hdue
    obtain ⟨t, hexec, hstep, hramp, htst, hgates, hat, hone⟩ := execCommutation_ramp m k s hm hst hdue
    exact ⟨t, hexec, hstep, hramp, htst, hgates, hat, fun i hi => (hone.others i hi).trans (advanceTo_motor s _ i),
      advanceTo_bldc s _ ▸ hone.frame⟩
  · intro x now hdriven
    exact ⟨fun hstopped hoff hdead => gatePins_held x now hdriven hstopped hoff hdead, fun hoff => gatePins_highOff x now hdriven hoff⟩
  · intro m s hm
    refine ⟨fun hst => ?_, fun hst => ?_⟩
    · have hlen := advanceTo_nMotors s ((s.motor m).crossAt.toNat + 50 * ticksPerMs)
      have hbldc := advanceTo_bldc s ((s.motor m).crossAt.toNat + 50 * ticksPerMs)
      have hadv := advanceTo_motor s ((s.motor m).crossAt.toNat + 50 * ticksPerMs)
      change ∃ t, execCoastStandstill m s = _ ∧ _
      unfold execCoastStandstill
      simp only [hst, ne_eq, not_true_eq_false, if_false]
      generalize s.advanceTo ((s.motor m).crossAt.toNat + 50 * ticksPerMs) = u at *
      have hone := onlyMotor_modMotor u m fun x => { x with st := .stopped, deltas := [] }
      refine ⟨_, rfl, ?_, fun k hk => (hone.others k hk).trans (hadv k), hbldc ▸ hone.frame⟩
      rw [motor_modMotor _ _ _ (by rw [hlen]; exact hm)]
    · have hone := onlyMotor_modMotor s m fun x => if x.st = .busBrake then { x with st := .stopped, gates := 0, deltas := [] } else x
      have hset := motor_modMotor s m
        (fun x => if x.st = .busBrake then { x with st := .stopped, gates := 0, deltas := [] } else x) hm
      rw [if_pos hst] at hset
      exact ⟨_, rfl, (congrArg Motor.st hset :), (congrArg Motor.gates hset :), hone.others, hone.frame⟩
  · intro m s hm hup hretries
    refine ⟨fun hst => ⟨_, execRampTimeout_eq m s hup hst, failAttempt_advanced m 1 _ s hm hup hretries⟩,
      fun hst => ⟨_, execBrakeTimeout_eq m s hup hst, failAttempt_advanced m 4 _ s hm hup hretries⟩⟩
  · intro m s hm hup hretries hst
    exact ⟨_, execRampTimeout_eq m s hup hst, failAttempt_failed m 1 _ (by rw [advanceTo_nMotors]; exact hm)
      ((advanceTo_coreUp s _ _).trans hup) (by rw [advanceTo_motor]; exact hretries)⟩
  · intro m s hm x u
    exact ⟨fun h => execOvercurrentWindow_within m s h, fun h hdriven => execOvercurrentWindow_exceeds m s hm h hdriven⟩
  · intro g code feedback s hconf
    refine ⟨?_, ?_⟩
    · change execBusVoltageSample g code s = _
      unfold execBusVoltageSample
      simp [hconf]
    · change execChopperFailTimeout ⟨g, feedback⟩ s = _
      unfold execChopperFailTimeout
      simp [hconf]
  · intro g code s hconf v hov habs
    have hov' : ¬(s.bus g).ovLimit ≤ openDiv (code * (s.bus g).fullScale) 4095 := not_le.2 hov
    have habs' : decide ((s.bus g).absLimit ≤ openDiv (code * (s.bus g).fullScale) 4095) = false := decide_eq_false (not_le.2 habs)
    change execBusVoltageSample g code s = _
    unfold execBusVoltageSample
    simp only [hconf, Bool.not_true, Bool.false_eq_true, if_false, hov', habs', Bool.false_and]
    rfl
  · intro g code m feedback s hlen hg hconf hm hin hstopped hbrake
    exact ⟨fun hover => execBusVoltageSample_brakes g code m s hlen hg hconf hm hin hstopped hbrake hover,
      fun hfail => execChopperFailTimeout_brakes g m feedback s hlen hg hconf hm hin hstopped hbrake hfail⟩
  · intro m mv s hm hst i free
    have hbraked : (decide ((s.motor m).st ≠ .busBrake) && decide ((s.motor m).st ≠ .brake)) = false := by
      rcases hst with h | h <;> simp [h]
    refine ⟨fun hover => ?_, fun hlow hfree => ?_, fun hunder hno => ?_⟩
    · change execBrakeCurrentLimit m mv s = _
      unfold execBrakeCurrentLimit
      simp only [hbraked, Bool.false_eq_true, if_false]
      rw [if_pos hover]
    · obtain ⟨hfence, hfatal⟩ := hfree
      change execBrakeCurrentLimit m mv s = _
      unfold execBrakeCurrentLimit
      simp only [hbraked, Bool.false_eq_true, if_false]
      rw [if_neg (by omega), if_pos (by simpa [hfence, hfatal] using hlow)]
    · change execBrakeCurrentLimit m mv s = _
      unfold execBrakeCurrentLimit
      simp only [hbraked, Bool.false_eq_true, if_false]
      rw [if_neg (not_lt.2 hunder), if_neg]
      intro hall
      simp only [Bool.and_eq_true, decide_eq_true_eq, Bool.not_eq_true', Option.isNone_iff_eq_none] at hall
      rcases hno with h | h
      · exact absurd hall.1.1 (not_lt.2 h)
      · exact h ⟨hall.1.2, hall.2⟩

end Sys2Proof.Machine
end

section
/-!
PROOFS. What the end of pages leaves alone (R161 to R163, R395): the operations that abort jobs change the beam units, the
tiles, the thermal units, what waits to be posted and what is presented, and nothing else.
-/
namespace Sys2Proof.Machine

open Sys2Proof

/-- Only the beam units, the tiles, their requests, the thermal units, the command interface and what is presented
have changed. -/
structure PagesEnd (a s : State) : Prop where
  frame : { s with mci := a.mci, links := a.links, rollback := a.rollback, stations := a.stations, gpi := a.gpi,
                   bias := a.bias, heads := a.heads, lag := a.lag, dma := a.dma, therm := a.therm, flt := a.flt } = a

theorem PagesEnd.refl (s : State) : PagesEnd s s := ⟨rfl⟩

theorem PagesEnd.trans {a b c : State} (h : PagesEnd a b) (g : PagesEnd b c) : PagesEnd a c where
  frame := (congrArg (fun s : State => { s with
    mci := a.mci, links := a.links, rollback := a.rollback, stations := a.stations, gpi := a.gpi, bias := a.bias,
    heads := a.heads, lag := a.lag, dma := a.dma, therm := a.therm, flt := a.flt }) g.frame).trans h.frame

theorem pagesEnd_foldl {α : Type} (f : State → α → State) (l : List α) (s : State) (hf : ∀ s x, PagesEnd s (f s x)) :
    PagesEnd s (l.foldl f s) := by
  induction l generalizing s with
  | nil => exact PagesEnd.refl s
  | cons x l ih => exact (hf s x).trans (ih _)

theorem pagesEnd_update (s : State) (mci links rollback stations gpi bias heads lag dma therm flt) :
    PagesEnd s { s with mci := mci, links := links, rollback := rollback, stations := stations, gpi := gpi, bias := bias,
                        heads := heads, lag := lag, dma := dma, therm := therm, flt := flt } := ⟨rfl⟩

/-! ### Single units -/

theorem pagesEnd_modLink (l : Nat) (f : Link → Link) (s : State) : PagesEnd s (s.modLink l f) := by
  unfold State.modLink
  split
  · exact pagesEnd_update ..
  · exact PagesEnd.refl s

theorem pagesEnd_modHead (h : Nat) (f : Head → Head) (s : State) : PagesEnd s (s.modHead h f) := by
  unfold State.modHead
  split
  · exact pagesEnd_update ..
  · exact PagesEnd.refl s

theorem pagesEnd_modStation (i : Nat) (f : Station → Station) (s : State) : PagesEnd s (s.modStation i f) :=
  pagesEnd_update ..

theorem pagesEnd_modJobs (i : Nat) (f : Job → Job) (s : State) : PagesEnd s (s.modJobs i f) := pagesEnd_update ..

theorem pagesEnd_modTiles (f : Tile → Tile) (s : State) : PagesEnd s (s.modTiles f) := pagesEnd_update ..

theorem pagesEnd_releaseTile (h : Nat) (s : State) : PagesEnd s (releaseTile h s) := pagesEnd_update ..

theorem pagesEnd_complete (c : Ctx) (status : Nat) (payload : List Byte) (s : State) :
    PagesEnd s (complete c status payload s) where
  frame := congrArg (fun t : State => { t with
    links := s.links, rollback := s.rollback, stations := s.stations, gpi := s.gpi, bias := s.bias, heads := s.heads,
    lag := s.lag, dma := s.dma, therm := s.therm, flt := s.flt }) (complete_frame c status payload s)

theorem pagesEnd_sendCtl (l ctype payload : Nat) (s : State) : PagesEnd s (sendCtl l ctype payload s) where
  frame := congrArg (fun t : State => { t with
    mci := s.mci, rollback := s.rollback, stations := s.stations, gpi := s.gpi, bias := s.bias, heads := s.heads,
    lag := s.lag, dma := s.dma, therm := s.therm, flt := s.flt }) (sendCtl_frame l ctype payload s)

theorem pagesEnd_gateLink (cause l : Nat) (s : State) : PagesEnd s (gateLink cause l s) := by
  unfold gateLink sendGate
  (repeat' split)
  · exact PagesEnd.refl s
  · exact (pagesEnd_modLink ..).trans (pagesEnd_sendCtl ..)
  · exact pagesEnd_modLink ..

/-! ### Rollback (R154) -/

theorem pagesEnd_purgeUnit (i : Nat) (u : UnitId) (s : State) : PagesEnd s (purgeUnit i u s) :=
  pagesEnd_foldl _ _ _ fun _ _ => pagesEnd_modLink ..

theorem pagesEnd_purgeQueues (lanes : BitVec 192) (s : State) : PagesEnd s (purgeQueues lanes s) :=
  pagesEnd_foldl _ _ _ fun _ _ => pagesEnd_modLink ..

theorem pagesEnd_discardSweeps (i : Nat) (s : State) : PagesEnd s (discardSweeps i s) :=
  (pagesEnd_modStation ..).trans (pagesEnd_modTiles ..)

theorem pagesEnd_discardVectors (h : Nat) (s : State) : PagesEnd s (discardVectors h s) :=
  (pagesEnd_modHead ..).trans (pagesEnd_modTiles ..)

theorem pagesEnd_rollbackTrigger (code : Nat) (lanes : BitVec 192) (s : State) :
    PagesEnd s (rollbackTrigger code lanes s) := by
  unfold rollbackTrigger
  refine PagesEnd.trans ?_ (pagesEnd_update ..)
  refine PagesEnd.trans ?_ (pagesEnd_purgeQueues ..)
  refine PagesEnd.trans ?_ (pagesEnd_foldl _ _ _ fun _ _ => (pagesEnd_modHead ..).trans (pagesEnd_discardVectors ..))
  exact pagesEnd_foldl _ _ _ fun _ _ => (pagesEnd_modStation ..).trans (pagesEnd_discardSweeps ..)

/-! ### The end of jobs -/

theorem pagesEnd_releaseUnread (i : Nat) (page : BitVec 32) (s : State) : PagesEnd s (releaseUnread i page s) := by
  unfold releaseUnread
  dsimp only
  split
  · exact PagesEnd.refl s
  · exact pagesEnd_foldl _ _ _ fun _ _ => pagesEnd_releaseTile ..

theorem pagesEnd_refreshSearch (s : State) : PagesEnd s (refreshSearch s) := pagesEnd_update ..

theorem pagesEnd_reportJobs (i : Nat) (s : State) : PagesEnd s (reportJobs i s) := by
  have hone (s : State) (j : Job) (status payload) : PagesEnd s (complete j.ctx status payload
      (if (s.station i).jobs.any fun k => k.pageId = j.pageId then s
       else
        let s := (tilesOf s (.station i) j.pageId).foldl (fun s h => releaseTile h s) s
        { s with dma := { s.dma with fwQueue := s.dma.fwQueue.filter fun f => !(f.station = i && f.page = j.pageId) } })) := by
    refine PagesEnd.trans ?_ (pagesEnd_complete ..)
    split
    · exact PagesEnd.refl s
    · exact (pagesEnd_foldl _ _ _ fun _ _ => pagesEnd_releaseTile ..).trans (pagesEnd_update ..)
  unfold reportJobs
  dsimp only
  split
  · exact (pagesEnd_modStation ..).trans (pagesEnd_foldl _ _ _ fun s j => hone s j _ _)
  · exact ((pagesEnd_modStation ..).trans (pagesEnd_foldl _ _ _ fun s j => hone s j _ _)).trans (pagesEnd_refreshSearch _)

theorem pagesEnd_emptyStation (i : Nat) (s : State) : PagesEnd s (emptyStation i s) := by
  unfold emptyStation
  dsimp only
  split
  · exact PagesEnd.refl s
  · refine PagesEnd.trans ?_ (pagesEnd_reportJobs ..)
    refine PagesEnd.trans ?_ (pagesEnd_modTiles ..)
    refine PagesEnd.trans ?_ (pagesEnd_modStation ..)
    exact pagesEnd_foldl _ _ _ fun _ _ => pagesEnd_modLink ..

theorem pagesEnd_paperOutGates (i : Nat) (s : State) : PagesEnd s (paperOutGates i s) := by
  unfold paperOutGates
  dsimp only
  split
  · exact PagesEnd.refl s
  · refine PagesEnd.trans ?_ (pagesEnd_emptyStation ..)
    refine PagesEnd.trans ?_ (pagesEnd_modJobs ..)
    refine PagesEnd.trans ?_ (pagesEnd_foldl _ _ _ fun _ _ => pagesEnd_gateLink ..)
    exact pagesEnd_foldl _ _ _ fun _ _ => pagesEnd_update ..

theorem pagesEnd_modUnit (u : Nat) (f : Unit' → Unit') (s : State) : PagesEnd s (s.modUnit u f) := pagesEnd_update ..

theorem pagesEnd_factorsChanged (s : State) : PagesEnd s (factorsChanged s) := by
  unfold factorsChanged
  refine pagesEnd_foldl _ _ _ fun s u => ?_
  dsimp only
  (repeat' split)
  · exact PagesEnd.refl s
  · exact pagesEnd_update ..
  · exact pagesEnd_update ..

theorem pagesEnd_syncPrivilege (s : State) : PagesEnd s (syncPrivilege s) := by
  unfold syncPrivilege
  refine (pagesEnd_foldl _ _ _ fun s u => ?_).trans (pagesEnd_factorsChanged _)
  dsimp only
  split
  · exact PagesEnd.refl s
  · exact pagesEnd_modUnit ..

theorem pagesEnd_abortJobsAt (i : Nat) (pred : Job → Bool) (cause input : Nat) (flags : BitVec 16) (s : State) :
    PagesEnd s (abortJobsAt i pred cause input flags s) := by
  have hend (s : State) (hit sweeps) (off : Station → Sweep → Sweep) : PagesEnd s (paperOutGates i (reportJobs i
      ((hit : List Job).foldl (fun s j => releaseUnread i j.pageId s)
        (((sweeps : List Sweep).foldl (fun s w => purgeUnit i (.sweep i w.n) s) s).modStation i fun st =>
          { st with sweeps := st.sweeps.map (off st) })))) := by
    refine PagesEnd.trans ?_ (pagesEnd_paperOutGates ..)
    refine PagesEnd.trans ?_ (pagesEnd_reportJobs ..)
    refine PagesEnd.trans ?_ (pagesEnd_foldl _ _ _ fun _ _ => pagesEnd_releaseUnread ..)
    exact (pagesEnd_foldl _ _ _ fun _ _ => pagesEnd_purgeUnit ..).trans (pagesEnd_modStation ..)
  unfold abortJobsAt
  dsimp only
  split
  · exact PagesEnd.refl s
  · have hbegun (s : State) (b : Bool) : PagesEnd s (if b then rollbackTrigger 2 (linkLanes (s.station i).links) s else s) := by
      split
      · exact pagesEnd_rollbackTrigger ..
      · exact PagesEnd.refl s
    split
    · refine PagesEnd.trans ?_ (pagesEnd_syncPrivilege _)
      exact ((pagesEnd_modJobs ..).trans (hbegun _ _)).trans (hend _ _ _ _)
    · exact ((pagesEnd_modJobs ..).trans (hbegun _ _)).trans (hend _ _ _ _)

theorem pagesEnd_abortJobs (pred : Job → Bool) (cause input : Nat) (s : State) : PagesEnd s (abortJobs pred cause input s) :=
  pagesEnd_foldl _ _ _ fun _ _ => pagesEnd_abortJobsAt ..

end Sys2Proof.Machine
end

section
/-!
PROOFS. Stepper axes (spec/16_motion.md): `AxesMove`.
-/
namespace Sys2Proof.Machine

open Sys2Proof

/-! ### Operations on one axis -/

theorem axis_modAxis (s : State) (a : Nat) (f : Axis → Axis) (ha : a < s.motion.length) :
    (s.modAxis a f).axis a = f (s.axis a) := at'_modAt_same _ _ _ _ ha

theorem axis_modAxis_ne (s : State) (a k : Nat) (f : Axis → Axis) (hk : k ≠ a) : (s.modAxis a f).axis k = s.axis k :=
  at'_modAt_ne _ _ _ _ _ hk.symm

theorem modAxis_congr (s : State) (a : Nat) (f g : Axis → Axis) (h : f (s.axis a) = g (s.axis a)) :
    s.modAxis a f = s.modAxis a g := by
  unfold State.modAxis
  rw [modAt_congr s.motion a f g {} h]

theorem axis_congr {s t : State} (h : t.motion = s.motion) (a : Nat) : t.axis a = s.axis a := by rw [State.axis, h]; rfl

/-- An operation on one axis: the other axes and everything outside the axes stay. -/
structure OnlyAxis (a : Nat) (s t : State) : Prop where
  others : ∀ k, k ≠ a → t.axis k = s.axis k
  nAxes : t.motion.length = s.motion.length
  frame : { t with motion := s.motion } = s

theorem OnlyAxis.trans {a : Nat} {s t u : State} (h : OnlyAxis a s t) (g : OnlyAxis a t u) : OnlyAxis a s u where
  others k hk := (g.others k hk).trans (h.others k hk)
  nAxes := g.nAxes.trans h.nAxes
  frame := (congrArg (fun v : State => { v with motion := s.motion }) g.frame).trans h.frame

theorem onlyAxis_modAxis (s : State) (a : Nat) (f : Axis → Axis) : OnlyAxis a s (s.modAxis a f) :=
  ⟨fun _ hk => axis_modAxis_ne s a _ f hk, length_modAt .., rfl⟩

theorem onlyAxis_startMove (a at_ : Nat) (joint : Option Nat) (s : State) : OnlyAxis a s (startMove a at_ joint s) :=
  onlyAxis_modAxis ..

theorem advanceTo_motion (s : State) (t : Nat) : (s.advanceTo t).motion = s.motion :=
  (congrArg State.motion (advanceTo_frame s t) :)

/-! ### Moves (R387) -/

/-- The state of an axis between moves: MOVING while its queue holds one. -/
def Axis.settledState (x : Axis) : AxisState := if x.queue = [] then .idle else .moving

/-- What a start from rest or from a joint keeps of an axis, and the state that it gives. -/
theorem startMove_axis (a at_ : Nat) (joint : Option Nat) (s : State) (ha : a < s.motion.length) :
    ((startMove a at_ joint s).axis a).queue = (s.axis a).queue ∧ ((startMove a at_ joint s).axis a).base = (s.axis a).base ∧
      ((startMove a at_ joint s).axis a).pulses = (s.axis a).pulses ∧
      ((startMove a at_ joint s).axis a).limNeg = (s.axis a).limNeg ∧
      ((startMove a at_ joint s).axis a).limPos = (s.axis a).limPos ∧
      ((startMove a at_ joint s).axis a).limitStops = (s.axis a).limitStops ∧
      ((startMove a at_ joint s).axis a).st = (s.axis a).settledState := by
  unfold startMove Axis.settledState
  rw [axis_modAxis _ _ _ ha]
  cases hq : (s.axis a).queue with
  | nil => simp
  | cons m rest =>
    dsimp only
    split <;> simp [hq]

theorem queueEvent_frame (code : Nat) (payload : List Byte) (s : State) :
    { queueEvent code payload s with mci := s.mci } = s := by
  unfold queueEvent
  split
  · exact congrArg (fun t : State => { t with mci := s.mci }) (signal_frame 12 _)
  · rfl

theorem moveDone_frame (a : Nat) (m : Move) (result : Nat) (position : BitVec 64) (s : State) :
    { moveDone a m result position s with mci := s.mci } = s := by
  unfold moveDone
  split
  · exact queueEvent_frame ..
  · rfl

theorem moveDone_quiet (a : Nat) (m : Move) (result : Nat) (position : BitVec 64) (s : State) (hm : m.notify = false) :
    moveDone a m result position s = s := by
  unfold moveDone
  rw [hm, if_neg (by decide)]

theorem moveDone_motion (a : Nat) (m : Move) (result : Nat) (position : BitVec 64) (s : State) :
    (moveDone a m result position s).motion = s.motion := (congrArg State.motion (moveDone_frame a m result position s) :)

/-- A completed move: its steps join the position and PULSES, the rest of the queue stays, and everything outside the axis
but the command interface too. -/
structure MoveCompleted (a : Nat) (m : Move) (rest : List Move) (s t : State) : Prop where
  queue : (t.axis a).queue = rest
  base : (t.axis a).base = (s.axis a).base + BitVec.ofInt 64 (if m.pos then (m.length : Int) else -(m.length : Int))
  pulses : (t.axis a).pulses = (s.axis a).pulses + BitVec.ofNat 64 m.length
  limNeg : (t.axis a).limNeg = (s.axis a).limNeg
  limPos : (t.axis a).limPos = (s.axis a).limPos
  limitStops : (t.axis a).limitStops = (s.axis a).limitStops
  st : (t.axis a).st = (t.axis a).settledState
  others : ∀ k, k ≠ a → t.axis k = s.axis k
  nAxes : t.motion.length = s.motion.length
  frame : { t with motion := s.motion, mci := s.mci } = s
  quiet : m.notify = false → t.mci = s.mci

/-- An axis whose present move has ended: the move leaves the queue. -/
def Axis.passed (m : Move) (rest : List Move) (x : Axis) : Axis :=
  { x with queue := rest, base := x.base + BitVec.ofInt 64 (if m.pos then (m.length : Int) else -(m.length : Int)),
           pulses := x.pulses + BitVec.ofNat 64 m.length,
           pulseAt := if m.length = 0 then x.pulseAt else some (BitVec.ofNat 64 x.moveEnd) }

theorem completeMove_eq (a : Nat) (m : Move) (rest : List Move) (s : State) (hq : (s.axis a).queue = m :: rest) :
    ∃ joint position, completeMove a s =
      moveDone a m 0 position (startMove a (s.axis a).moveEnd joint (s.modAxis a (Axis.passed m rest))) := by
  unfold completeMove
  simp only [hq]
  exact ⟨_, _, rfl⟩

theorem completeMove_completes (a : Nat) (m : Move) (rest : List Move) (s : State) (ha : a < s.motion.length)
    (hq : (s.axis a).queue = m :: rest) : MoveCompleted a m rest s (completeMove a s) := by
  obtain ⟨joint, position, heq⟩ := completeMove_eq a m rest s hq
  have hdone := axis_modAxis s a (Axis.passed m rest) ha
  have hone := onlyAxis_modAxis s a (Axis.passed m rest)
  obtain ⟨hqueue, hbase, hpulses, hneg, hpos, hstops, hst⟩ :=
    startMove_axis a (s.axis a).moveEnd joint (s.modAxis a (Axis.passed m rest)) (hone.nAxes.symm ▸ ha)
  have hstart := hone.trans (onlyAxis_startMove a (s.axis a).moveEnd joint (s.modAxis a (Axis.passed m rest)))
  rw [heq]
  generalize startMove a (s.axis a).moveEnd joint (s.modAxis a (Axis.passed m rest)) = t at *
  have hmci : t.mci = s.mci := (congrArg State.mci hstart.frame :)
  have hsame := axis_congr (moveDone_motion a m 0 position t)
  rw [hdone] at hqueue hbase hpulses hneg hpos hstops hst
  constructor
  case quiet => intro hquiet; rw [moveDone_quiet _ _ _ _ _ hquiet, hmci]
  case frame =>
    refine (congrArg (fun u : State => { u with motion := s.motion, mci := s.mci })
      (moveDone_frame a m 0 position t)).trans ?_
    exact congrArg (fun u : State => { u with mci := s.mci }) hstart.frame
  case others => intro k hk; rw [hsame, hstart.others k hk]
  case nAxes => rw [moveDone_motion, hstart.nAxes]
  case st => rw [hsame, hst]; unfold Axis.settledState; rw [hqueue]
  all_goals rw [hsame]; assumption

/-- Motion that goes on to a later move: the axis is between moves again, with its limit inputs as they were. -/
structure MovesOn (a : Nat) (s t : State) : Prop where
  limitStops : (t.axis a).limitStops = (s.axis a).limitStops
  st : (t.axis a).st = (t.axis a).settledState
  nAxes : t.motion.length = s.motion.length
  frame : { t with motion := s.motion, mci := s.mci } = s

theorem completeDue_movesOn (a n : Nat) (s : State) (ha : a < s.motion.length) (hst : (s.axis a).st = (s.axis a).settledState) :
    MovesOn a s (completeDue a n s) := by
  induction n generalizing s with
  | zero => exact ⟨rfl, hst, rfl, rfl⟩
  | succ n ih =>
    rw [completeDue]
    split
    · rename_i hdue
      have hmoving : (s.axis a).st = .moving := by simp only [Bool.and_eq_true, decide_eq_true_eq] at hdue; exact hdue.1
      cases hq : (s.axis a).queue with
      | nil =>
        rw [hst, Axis.settledState, if_pos hq] at hmoving
        exact absurd hmoving (by decide)
      | cons m rest =>
        have hone := completeMove_completes a m rest s ha hq
        have hrest := ih (completeMove a s) (hone.nAxes.symm ▸ ha) hone.st
        exact ⟨hrest.limitStops.trans hone.limitStops, hrest.st, hrest.nAxes.trans hone.nAxes,
          (congrArg (fun u : State => { u with motion := s.motion, mci := s.mci }) hrest.frame).trans hone.frame⟩
    · exact ⟨rfl, hst, rfl, rfl⟩

/-! ### Stops (R391 to R393) -/

/-- A stop of an axis ends in HALTED with a cause: its queue is empty and no limit is counted yet. -/
structure Halts (a cause : Nat) (s t : State) : Prop where
  st : (t.axis a).st = .halted
  cause : (t.axis a).cause = cause
  queue : (t.axis a).queue = []
  limitStops : (t.axis a).limitStops = (s.axis a).limitStops
  nAxes : t.motion.length = s.motion.length
  forge : t.forge = s.forge

theorem foldl_moveDone_frame (a result : Nat) (position : BitVec 64) (ms : List Move) (s : State) :
    { ms.foldl (fun s m => moveDone a m result position s) s with mci := s.mci } = s := by
  induction ms generalizing s with
  | nil => rfl
  | cons m ms ih =>
    exact (congrArg (fun t : State => { t with mci := s.mci }) (ih _)).trans (moveDone_frame a m result position s)

/-- A flush empties the queue of an axis and leaves the rest of it. -/
theorem flushMoves_effect (a : Nat) (s : State) (ha : a < s.motion.length) :
    ((flushMoves a s).axis a).queue = [] ∧ ((flushMoves a s).axis a).limitStops = (s.axis a).limitStops ∧
      (flushMoves a s).motion.length = s.motion.length ∧ (flushMoves a s).forge = s.forge := by
  have hframe := foldl_moveDone_frame a 1 (s.axis a).base (s.axis a).queue (s.modAxis a fun x => { x with queue := [] })
  have hmotion : (flushMoves a s).motion = (s.modAxis a fun x => { x with queue := [] }).motion :=
    (congrArg State.motion hframe :)
  have hforge : (flushMoves a s).forge = s.forge := (congrArg State.forge hframe :)
  rw [axis_congr hmotion, axis_modAxis _ _ _ ha, hmotion]
  exact ⟨rfl, rfl, length_modAt .., hforge⟩

theorem foldMotion_effect (a : Nat) (s : State) (ha : a < s.motion.length) :
    ((foldMotion a s).axis a).limitStops = (s.axis a).limitStops ∧ OnlyAxis a s (foldMotion a s) := by
  refine ⟨?_, onlyAxis_modAxis ..⟩
  unfold foldMotion
  rw [axis_modAxis _ _ _ ha]

/-- A lost position changes POS_LOST and its count alone in the axis. -/
theorem losePosition_effect (a : Nat) (s : State) (ha : a < s.motion.length) :
    (losePosition a s).axis a = { s.axis a with posLost := true, posLosts := (s.axis a).posLosts.inc } ∧
      (losePosition a s).motion.length = s.motion.length ∧ (losePosition a s).forge = s.forge := by
  have hset := axis_modAxis s a (fun x => { x with posLost := true, posLosts := x.posLosts.inc }) ha
  unfold losePosition
  dsimp only
  split
  · exact ⟨hset, length_modAt .., rfl⟩
  · exact ⟨hset, length_modAt .., rfl⟩

theorem haltHard_halts (a cause v : Nat) (s : State) (ha : a < s.motion.length) (hq : (s.axis a).queue = []) :
    Halts a cause s (haltHard a cause v s) := by
  have hset := axis_modAxis s a (fun x => { x with st := .halted, cause := cause }) ha
  have hone := onlyAxis_modAxis s a fun x => { x with st := .halted, cause := cause }
  unfold haltHard
  dsimp only
  split
  · obtain ⟨hlost, hlen, hforge⟩ := losePosition_effect a (s.modAxis a fun x => { x with st := .halted, cause := cause })
      (hone.nAxes.symm ▸ ha)
    rw [hset] at hlost
    refine ⟨?_, ?_, ?_, ?_, hlen.trans hone.nAxes, hforge⟩ <;> rw [hlost]
    exact hq
  · refine ⟨?_, ?_, ?_, ?_, hone.nAxes, rfl⟩ <;> rw [hset]
    exact hq

theorem paceStop_frame (a : Nat) (s : State) :
    (paceStop a s).motion = s.motion ∧ (paceStop a s).forge = s.forge ∧ (paceStop a s).time = s.time := by
  unfold paceStop
  split
  · have hframe := (pagesEnd_abortJobs (fun j => (j.st = .armed || j.st = .active) && j.media.kind = 1 && j.media.pace = a) 3 0xFF
      (present 0x01E3 (some a) 0 s)).frame
    exact ⟨(congrArg State.motion hframe :), (congrArg State.forge hframe :), (congrArg State.time hframe :)⟩
  · exact ⟨rfl, rfl, rfl⟩

/-- A hard stop of an axis between moves halts it at once, whatever moves were due. -/
theorem stopAxis_halts (a cause : Nat) (s : State) (ha : a < s.motion.length) (hst : (s.axis a).st = (s.axis a).settledState) :
    Halts a cause s (stopAxis a true cause s) := by
  have hon := completeDue_movesOn a 33 s ha hst
  have hforge : (completeDue a 33 s).forge = s.forge := (congrArg State.forge hon.frame :)
  unfold stopAxis
  dsimp only
  generalize completeDue a 33 s = u at *
  have hpaced (b : Bool) : (if b then paceStop a u else u).motion = u.motion ∧ (if b then paceStop a u else u).forge = u.forge := by
    obtain ⟨hmotion, hsame, -⟩ := paceStop_frame a u
    split
    · exact ⟨hmotion, hsame⟩
    · exact ⟨rfl, rfl⟩
  obtain ⟨hmotion, hsame⟩ := hpaced
    (decide (cause ≠ 5) && (decide ((u.axis a).st = .moving) || decide ((u.axis a).st = .idle) ||
      (decide ((u.axis a).st = .stopping) && true)))
  generalize (if (decide (cause ≠ 5) && (decide ((u.axis a).st = .moving) || decide ((u.axis a).st = .idle) ||
      (decide ((u.axis a).st = .stopping) && true))) = true then paceStop a u else u) = w at *
  have haxis := axis_congr hmotion a
  have hlen : w.motion.length = s.motion.length := by rw [hmotion, hon.nAxes]
  have hw : a < w.motion.length := hlen.symm ▸ ha
  have hstops : (w.axis a).limitStops = (s.axis a).limitStops := by rw [haxis, hon.limitStops]
  have hkind := hon.st
  unfold Axis.settledState at hkind
  by_cases hq : (u.axis a).queue = []
  · rw [if_pos hq] at hkind
    rw [hkind]
    have hset := axis_modAxis w a (fun x => { x with st := .halted, cause := cause }) hw
    refine ⟨?_, ?_, ?_, ?_, (length_modAt ..).trans hlen, hsame.trans hforge⟩ <;> rw [hset]
    · rw [haxis]; exact hq
    · exact hstops
  · rw [if_neg hq] at hkind
    rw [hkind]
    dsimp only
    rw [if_pos rfl]
    obtain ⟨hfolded, honly⟩ := foldMotion_effect a w hw
    obtain ⟨hflushed, hkept, hlen', hsame'⟩ := flushMoves_effect a (foldMotion a w) (honly.nAxes.symm ▸ hw)
    have hhalt := haltHard_halts a cause ((u.axis a).speedNow w.time) (flushMoves a (foldMotion a w))
      (by rw [hlen', honly.nAxes]; exact hw) hflushed
    refine ⟨hhalt.st, hhalt.cause, hhalt.queue, ?_, ?_, ?_⟩
    · rw [hhalt.limitStops, hkept, hfolded, hstops]
    · rw [hhalt.nAxes, hlen', honly.nAxes, hlen]
    · rw [hhalt.forge, hsame', (congrArg State.forge honly.frame :), hsame, hforge]

theorem recoatStopped_none (a : Nat) (s : State) (h : s.forge.recoat = none) : recoatStopped a s = s := by
  unfold recoatStopped
  rw [h]

theorem recoatMoved_none (a : Nat) (s : State) (h : s.forge.recoat = none) : recoatMoved a s = s := by
  unfold recoatMoved
  rw [h]

/-- A hard limit halts the axis with cause 3, counts the stop and presents MOT_LIMIT (R390, R392). -/
theorem limitStop_halts (a : Nat) (s : State) (ha : a < s.motion.length) (hst : (s.axis a).st = (s.axis a).settledState) :
    ((limitStop a true s).axis a).st = .halted ∧ ((limitStop a true s).axis a).cause = 3 ∧
      ((limitStop a true s).axis a).queue = [] ∧ ((limitStop a true s).axis a).limitStops = (s.axis a).limitStops.inc ∧
      (limitStop a true s).forge = s.forge ∧
      ((limitStop a true s).flt.presented.getLast?.map fun r => (r.source, r.unit)) = some (0x01E0, some a) := by
  have hhalt := stopAxis_halts a 3 s ha hst
  have hstop : limitStop a true s = present 0x01E0 (some a) 0
      ((stopAxis a true 3 s).modAxis a fun x => { x with limitStops := x.limitStops.inc }) := by
    unfold limitStop
    rw [if_neg (by simp)]
    rfl
  rw [hstop]
  generalize stopAxis a true 3 s = u at hhalt ⊢
  have haxis : (present 0x01E0 (some a) 0 (u.modAxis a fun x => { x with limitStops := x.limitStops.inc })).axis a =
      { u.axis a with limitStops := (u.axis a).limitStops.inc } :=
    axis_modAxis u a (fun x => { x with limitStops := x.limitStops.inc }) (hhalt.nAxes.symm ▸ ha)
  rw [haxis]
  exact ⟨hhalt.st, hhalt.cause, hhalt.queue, congrArg Count.inc hhalt.limitStops, hhalt.forge, present_last ..⟩

/-! ### The clauses -/

theorem execMotionAxisConfig_served (rq : Req) (s : State) (hs : served 0x0F01 rq s = true) (ha : rq.u8 0 < 16)
    (hprofile : rq.u8 1 ≤ 1) (hvs : 1 ≤ rq.u32 4) (hvs' : rq.u32 4 ≤ 100000) (hvm : rq.u32 4 ≤ rq.u32 8)
    (hvm' : rq.u32 8 ≤ 4000000) (hd : 1 ≤ rq.u32 16) (hstep : 100 ≤ rq.u16 24) (hstep' : rq.u16 24 ≤ 10000)
    (hrate : 2 * rq.u16 24 * rq.u32 8 ≤ 10 ^ 9) (hdir : 100 ≤ rq.u16 26) (hdir' : rq.u16 26 ≤ 10000) (hneg : rq.u8 28 % 4 ≠ 3)
    (hpos : rq.u8 29 % 4 ≠ 3) (hdeb : 1 ≤ rq.u16 30) (hdeb' : rq.u16 30 ≤ 10000)
    (hst : (s.axis (rq.u8 0)).st = .idle ∨ (s.axis (rq.u8 0)).st = .halted) :
    exec (.motionAxisConfig rq) s = .next (respond rq 0x0F01 Status.ok [] (s.modAxis (rq.u8 0) fun x =>
      { x with configured := true, sCurve := rq.u8 1 = 1, dirInvert := rq.bit 2 0, enLow := rq.bit 2 1, vStart := rq.u32 4,
               vMax := rq.u32 8, accel := rq.u32 12, dStop := rq.u32 16, jerk := rq.u32 20, stepNs := rq.u16 24,
               dirSetupNs := rq.u16 26, limNeg := x.limNeg.config (rq.u8 28), limPos := x.limPos.config (rq.u8 29),
               debounce := rq.u16 30, rawNext := none })) := by
  change execMotionAxisConfig rq s = _
  unfold execMotionAxisConfig
  refine command_pass 0x0F01 rq _ _ s hs ?_
  simp only [List.forall_mem_cons]
  refine ⟨by simp [ha], ?_, ?_, List.forall_mem_nil _⟩
  · simp only [Bool.or_eq_false_iff, decide_eq_false_iff_not]
    omega
  · rcases hst with hst | hst <;> simp [hst]

/-- The steps that a move goes: to its position, or by its distance (motion.move). -/
def requestedSteps (rq : Req) (x : Axis) : Int :=
  if rq.bit 1 0 then asSigned 64 (rq.u64 16) else asSigned 64 (rq.u64 16) - x.planEnd

/-- The move that a motion.move asks of an axis. -/
def requestedMove (rq : Req) (x : Axis) : Move :=
  { length := (requestedSteps rq x).natAbs, pos := 0 ≤ requestedSteps rq x, blend := rq.bit 1 1, notify := rq.bit 1 2,
    vMax := if rq.u32 4 = 0 then x.vMax else rq.u32 4, accel := if rq.u32 8 = 0 then x.accel else rq.u32 8,
    decel := if rq.u32 12 = 0 then (if rq.u32 8 = 0 then x.accel else rq.u32 8) else rq.u32 12,
    tag := BitVec.ofNat 32 (rq.u32 24) }

theorem execMotionMove_served (rq : Req) (s : State) (hs : served 0x0F02 rq s = true) (hlen : s.motion.length = 16)
    (ha : rq.u8 0 < 16) (hconf : (s.axis (rq.u8 0)).configured = true)
    (hdefault : rq.u32 4 = 0 → (s.axis (rq.u8 0)).vStart ≤ (s.axis (rq.u8 0)).vMax)
    (hgiven : rq.u32 4 ≠ 0 → (s.axis (rq.u8 0)).vStart ≤ rq.u32 4 ∧ rq.u32 4 ≤ (s.axis (rq.u8 0)).vMax)
    (hq : (s.axis (rq.u8 0)).queue = []) (hst : (s.axis (rq.u8 0)).st = .idle)
    (hpos : (s.axis (rq.u8 0)).limPos.active = false ∨ (s.axis (rq.u8 0)).limPos.mode = 0)
    (hneg : (s.axis (rq.u8 0)).limNeg.active = false ∨ (s.axis (rq.u8 0)).limNeg.mode = 0) :
    ∃ t m, exec (.motionMove rq) s = .next (respond rq 0x0F02 Status.ok [1, 0, 0, 0] t) ∧ (t.axis (rq.u8 0)).queue = [m] ∧
      (t.axis (rq.u8 0)).st = .moving ∧ (t.axis (rq.u8 0)).base = (s.axis (rq.u8 0)).base ∧
      (m.length = (if rq.bit 1 0 then asSigned 64 (rq.u64 16)
        else asSigned 64 (rq.u64 16) - (s.axis (rq.u8 0)).base.toInt).natAbs ∧
       m.pos = decide (0 ≤ if rq.bit 1 0 then asSigned 64 (rq.u64 16)
        else asSigned 64 (rq.u64 16) - (s.axis (rq.u8 0)).base.toInt)) ∧
      m.vMax = (if rq.u32 4 = 0 then (s.axis (rq.u8 0)).vMax else rq.u32 4) ∧
      m.tag = BitVec.ofNat 32 (rq.u32 24) ∧ (∀ k, k ≠ rq.u8 0 → t.axis k = s.axis k) ∧ { t with motion := s.motion } = s := by
  have hend : (s.axis (rq.u8 0)).planEnd = (s.axis (rq.u8 0)).base.toInt := by simp [Axis.planEnd, hq]
  have hsteps : requestedSteps rq (s.axis (rq.u8 0)) = if rq.bit 1 0 then asSigned 64 (rq.u64 16)
      else asSigned 64 (rq.u64 16) - (s.axis (rq.u8 0)).base.toInt := by rw [requestedSteps, hend]
  have henqueue (m : Move) : enqueueMove (rq.u8 0) m s =
      startMove (rq.u8 0) s.time.toNat none (s.modAxis (rq.u8 0) fun x => { x with queue := [m] }) := by
    unfold enqueueMove
    dsimp only
    rw [if_pos (by rw [hst]; decide)]
  obtain ⟨hqueue, hbase, -, -, -, -, hmoving⟩ := startMove_axis (rq.u8 0) s.time.toNat none
    (s.modAxis (rq.u8 0) fun x => { x with queue := [requestedMove rq (s.axis (rq.u8 0))] })
    ((length_modAt ..).symm ▸ hlen.symm ▸ ha)
  have honly := (onlyAxis_modAxis s (rq.u8 0) fun x => { x with queue := [requestedMove rq (s.axis (rq.u8 0))] }).trans
    (onlyAxis_startMove (rq.u8 0) s.time.toNat none _)
  rw [axis_modAxis _ _ _ (hlen.symm ▸ ha)] at hqueue hbase hmoving
  rw [← henqueue] at hqueue hbase hmoving honly
  refine ⟨enqueueMove (rq.u8 0) (requestedMove rq (s.axis (rq.u8 0))) s, requestedMove rq (s.axis (rq.u8 0)),
    show execMotionMove rq s = _ from ?_, hqueue, hmoving, hbase, ?_, rfl, rfl, honly.others, honly.frame⟩
  · unfold execMotionMove
    refine (command_pass 0x0F02 rq _ _ s hs ?_).trans ?_
    · simp only [List.forall_mem_cons]
      refine ⟨by simp [ha], ?_, by simp [hq], by simp [hst], ?_, List.forall_mem_nil _⟩
      · by_cases hv : rq.u32 4 = 0
        · simpa [hconf, hv] using hdefault hv
        · simpa [hconf, hv] using hgiven hv
      · rcases hpos with hpos | hpos <;> rcases hneg with hneg | hneg <;> simp [hpos, hneg]
    · change Host.Outcome.next (respond rq 0x0F02 Status.ok
        (leBytes 1 ((enqueueMove (rq.u8 0) (requestedMove rq (s.axis (rq.u8 0))) s).axis (rq.u8 0)).queue.length ++ zeros 3)
        (enqueueMove (rq.u8 0) (requestedMove rq (s.axis (rq.u8 0))) s)) = _
      rw [hqueue]
      rfl
  · rw [← hsteps]
    exact ⟨rfl, rfl⟩

theorem execMotionMove_halted (rq : Req) (s : State) (hs : served 0x0F02 rq s = true) (ha : rq.u8 0 < 16)
    (hconf : (s.axis (rq.u8 0)).configured = true) (hv : (s.axis (rq.u8 0)).vStart ≤ (s.axis (rq.u8 0)).vMax)
    (hdefault : rq.u32 4 = 0) (hroom : (s.axis (rq.u8 0)).queue.length < 32) (hst : (s.axis (rq.u8 0)).st = .halted) :
    exec (.motionMove rq) s = .next (respond rq 0x0F02 0x8F01 [] s) := by
  change execMotionMove rq s = _
  unfold execMotionMove
  have hfast : ¬ (s.axis (rq.u8 0)).vMax < (s.axis (rq.u8 0)).vStart := not_lt.2 hv
  refine command_turned_away 0x0F02 rq _ _ s true _ hs ?_
  simp [ha, hconf, hdefault, hfast, hst, hroom]

theorem execMoveComplete_moving (a : Nat) (m : Move) (rest : List Move) (s : State) (ha : a < s.motion.length)
    (hst : (s.axis a).st = .moving) (hq : (s.axis a).queue = m :: rest) (hrecoat : s.forge.recoat = none)
    (hlimits : ∀ p, ((s.axis a).limit p).mode = 0 ∨ ((s.axis a).limit p).active = false) :
    ∃ t, exec (.moveComplete a) s = .next t ∧ (t.axis a).queue = rest ∧
      (t.axis a).base = (s.axis a).base + BitVec.ofInt 64 (if m.pos then (m.length : Int) else -(m.length : Int)) ∧
      (t.axis a).pulses = (s.axis a).pulses + BitVec.ofNat 64 m.length ∧
      (t.axis a).st = (if rest = [] then .idle else .moving) ∧ (∀ k, k ≠ a → t.axis k = s.axis k) ∧
      (m.notify = false → t.mci = s.mci) := by
  have hmotion := advanceTo_motion s (s.axis a).moveEnd
  have hmci : (s.advanceTo (s.axis a).moveEnd).mci = s.mci := (congrArg State.mci (advanceTo_frame s _) :)
  have hforge : (s.advanceTo (s.axis a).moveEnd).forge = s.forge := (congrArg State.forge (advanceTo_frame s _) :)
  change ∃ t, execMoveComplete a s = _ ∧ _
  unfold execMoveComplete
  simp only [hst, hq]
  rw [if_neg (by simp)]
  generalize s.advanceTo (s.axis a).moveEnd = u at *
  have hsame := axis_congr hmotion
  have hone := completeMove_completes a m rest u (hmotion.symm ▸ ha) (by rw [hsame, hq])
  rw [recoatMoved_none a _ (by rw [(congrArg State.forge hone.frame :), hforge, hrecoat])]
  have hlimit (p : Bool) : ((completeMove a u).axis a).limit p = (s.axis a).limit p := by
    unfold Axis.limit
    rw [hone.limNeg, hone.limPos, hsame]
  have hacts (p : Bool) : limitActs a p (completeMove a u) = none := by
    unfold limitActs
    dsimp only
    rw [hlimit]
    rcases hlimits p with h | h <;> simp [h]
  have hnone : (((completeMove a u).axis a).movingPos.bind fun p => limitActs a p (completeMove a u)) = none := by
    simp only [hacts]
    cases ((completeMove a u).axis a).movingPos <;> rfl
  rw [hnone]
  refine ⟨_, rfl, hone.queue, ?_, ?_, ?_, ?_, fun h => (hone.quiet h).trans hmci⟩
  · rw [hone.base, hsame]
  · rw [hone.pulses, hsame]
  · rw [hone.st, Axis.settledState, hone.queue]
  · intro k hk
    rw [hone.others k hk, hsame]

theorem execMoveComplete_void (a : Nat) (s : State) (hst : (s.axis a).st ≠ .moving) :
    exec (.moveComplete a) s = .next s := by
  change execMoveComplete a s = _
  unfold execMoveComplete
  exact if_pos (by simp [hst])

theorem execStopRampEnd_void (a pulses : Nat) (s : State) (hst : (s.axis a).st ≠ .stopping) :
    exec (.stopRampEnd a pulses) s = .next s := if_pos hst

theorem execStopRampEnd_stopping (a pulses : Nat) (s : State) (ha : a < s.motion.length) (hst : (s.axis a).st = .stopping) :
    ∃ t, exec (.stopRampEnd a pulses) s = .next t ∧ (t.axis a).st = .halted ∧
      (t.axis a).pulses = (s.axis a).pulses + BitVec.ofNat 64 (wholeSteps ((s.axis a).travel
        (s.advanceTo ((s.axis a).seg.start.toNat + (s.axis a).stopTicks)).time)).natAbs ∧
      (t.axis a).base = (s.axis a).base + BitVec.ofInt 64 (wholeSteps ((s.axis a).travel
        (s.advanceTo ((s.axis a).seg.start.toNat + (s.axis a).stopTicks)).time)) ∧
      (∀ k, k ≠ a → t.axis k = s.axis k) ∧
      { t with motion := s.motion } = s.advanceTo ((s.axis a).seg.start.toNat + (s.axis a).stopTicks) := by
  have hmotion := advanceTo_motion s ((s.axis a).seg.start.toNat + (s.axis a).stopTicks)
  change ∃ t, execStopRampEnd a pulses s = _ ∧ _
  unfold execStopRampEnd
  dsimp only
  rw [if_neg (by simp [hst])]
  generalize s.advanceTo ((s.axis a).seg.start.toNat + (s.axis a).stopTicks) = u at *
  have hsame := axis_congr hmotion
  have hu : a < u.motion.length := hmotion.symm ▸ ha
  have honly := (onlyAxis_modAxis u a _).trans (onlyAxis_modAxis (foldMotion a u) a fun x => { x with st := .halted })
  have haxis := axis_modAxis (foldMotion a u) a (fun x => { x with st := .halted }) ((length_modAt ..).symm ▸ hu)
  refine ⟨_, rfl, ?_, ?_, ?_, ?_, ?_⟩
  · rw [haxis]
  · rw [haxis]; unfold foldMotion; rw [axis_modAxis _ _ _ hu, hsame]
  · rw [haxis]; unfold foldMotion; rw [axis_modAxis _ _ _ hu, hsame]
  · intro k hk
    rw [honly.others k hk, hsame]
  · rw [← hmotion]; exact honly.frame

theorem execLimitDebounceExpiry_void (a : Nat) (p : Bool) (s : State) (h : ((s.axis a).limit p).waiting = false) :
    exec (.limitDebounceExpiry a p) s = .next s := by
  change execLimitDebounceExpiry a p s = _
  unfold execLimitDebounceExpiry
  exact if_pos (by rw [h]; rfl)

theorem execLimitDebounceExpiry_hard (a : Nat) (m : Move) (rest : List Move) (s : State) (ha : a < s.motion.length)
    (hwait : (s.axis a).limPos.waiting = true) (hactive : (s.axis a).limPos.level ≠ (s.axis a).limPos.activeLow)
    (hmode : (s.axis a).limPos.mode = 1) (hst : (s.axis a).st = .moving) (hq : (s.axis a).queue = m :: rest)
    (hpos : m.pos = true) (hrecoat : s.forge.recoat = none) :
    ∃ t, exec (.limitDebounceExpiry a true) s = .next t ∧ (t.axis a).st = .halted ∧ (t.axis a).cause = 3 ∧
      (t.axis a).queue = [] ∧ (t.axis a).limitStops = (s.axis a).limitStops.inc ∧
      (t.flt.presented.getLast?.map fun r => (r.source, r.unit)) = some (0x01E0, some a) := by
  have hmotion := advanceTo_motion s ((s.axis a).limPos.since.toNat + (s.axis a).debounce * (ticksPerMs / 1000))
  have hforge : (s.advanceTo ((s.axis a).limPos.since.toNat + (s.axis a).debounce * (ticksPerMs / 1000))).forge = s.forge :=
    (congrArg State.forge (advanceTo_frame s _) :)
  have hlimit : (s.axis a).limit true = (s.axis a).limPos := rfl
  change ∃ t, execLimitDebounceExpiry a true s = _ ∧ _
  unfold execLimitDebounceExpiry
  simp only [hlimit, hwait, Bool.not_true, Bool.false_eq_true, if_false, if_true]
  generalize s.advanceTo ((s.axis a).limPos.since.toNat + (s.axis a).debounce * (ticksPerMs / 1000)) = u at *
  have haxis := axis_modAxis u a
    (fun x => { x with limPos := { (s.axis a).limPos with st := (s.axis a).limPos.level, waiting := false } })
    (hmotion.symm ▸ ha)
  rw [axis_congr hmotion] at haxis
  have hlen := (onlyAxis_modAxis u a
    (fun x => { x with limPos := { (s.axis a).limPos with st := (s.axis a).limPos.level, waiting := false } })).nAxes
  have hrec : (u.modAxis a (fun x => { x with
      limPos := { (s.axis a).limPos with st := (s.axis a).limPos.level, waiting := false } })).forge.recoat = none := by
    change u.forge.recoat = none
    rw [hforge, hrecoat]
  generalize u.modAxis a (fun x => { x with
    limPos := { (s.axis a).limPos with st := (s.axis a).limPos.level, waiting := false } }) = v at *
  have hacts : limitActs a true v = some true := by
    unfold limitActs
    simp [haxis, Axis.limit, Limit.active, Axis.movingPos, hactive, hmode, hst, hq, hpos]
  rw [hacts]
  obtain ⟨hhalted, hcause, hempty, hstops, hsame, hlast⟩ := limitStop_halts a v (by rw [hlen, hmotion]; exact ha)
    (by rw [haxis]; simp [Axis.settledState, hst, hq])
  refine ⟨_, rfl, ?_⟩
  rw [recoatStopped_none a _ (by rw [hsame]; exact hrec)]
  rw [haxis] at hstops
  exact ⟨hhalted, hcause, hempty, hstops, hlast⟩

/-- An idle axis that paces nothing is halted by a stop, which changes nothing else. -/
theorem stopAxis_idle (a : Nat) (hard : Bool) (cause : Nat) (s : State) (hst : (s.axis a).st = .idle)
    (hpace : pacing s a = false) : stopAxis a hard cause s = s.modAxis a fun x => { x with st := .halted, cause := cause } := by
  have hdue : completeDue a 33 s = s := by rw [completeDue]; exact if_neg (by simp [hst])
  have hstop : paceStop a s = s := by rw [paceStop, hpace]; rfl
  unfold stopAxis
  dsimp only
  rw [hdue, hstop, ite_self, hst]

/-- Stops of distinct idle axes halt each of them. -/
theorem foldl_stopAxis_idle (hard : Bool) (cause : Nat) (as : List Nat) (s : State) (hnd : as.Nodup)
    (has : ∀ a ∈ as, a < s.motion.length) (hst : ∀ a ∈ as, (s.axis a).st = .idle) (hpace : ∀ a ∈ as, pacing s a = false)
    (hrecoat : s.forge.recoat = none) :
    (∀ a ∈ as, ((as.foldl (fun s a => recoatStopped a (stopAxis a hard cause s)) s).axis a).st = .halted ∧
      ((as.foldl (fun s a => recoatStopped a (stopAxis a hard cause s)) s).axis a).base = (s.axis a).base) ∧
    (∀ k, k ∉ as → (as.foldl (fun s a => recoatStopped a (stopAxis a hard cause s)) s).axis k = s.axis k) ∧
    { as.foldl (fun s a => recoatStopped a (stopAxis a hard cause s)) s with motion := s.motion } = s := by
  induction as generalizing s with
  | nil => exact ⟨fun _ h => absurd h List.not_mem_nil, fun _ _ => rfl, rfl⟩
  | cons b as ih =>
    obtain ⟨hb, hnd⟩ := List.nodup_cons.1 hnd
    have hfirst : recoatStopped b (stopAxis b hard cause s) = s.modAxis b fun x => { x with st := .halted, cause := cause } := by
      rw [stopAxis_idle b hard cause s (hst b List.mem_cons_self) (hpace b List.mem_cons_self)]
      exact recoatStopped_none _ _ hrecoat
    have haxis := axis_modAxis s b (fun x => { x with st := .halted, cause := cause }) (has b List.mem_cons_self)
    have honly := onlyAxis_modAxis s b fun x => { x with st := .halted, cause := cause }
    rw [List.foldl_cons, hfirst]
    have hne (a : Nat) (ha : a ∈ as) : a ≠ b := fun h => hb (h ▸ ha)
    obtain ⟨hin, hout, hframe⟩ := ih (s.modAxis b fun x => { x with st := .halted, cause := cause }) hnd
      (fun a ha => honly.nAxes.symm ▸ has a (List.mem_cons_of_mem _ ha))
      (fun a ha => by rw [honly.others a (hne a ha)]; exact hst a (List.mem_cons_of_mem _ ha))
      (fun a ha => hpace a (List.mem_cons_of_mem _ ha)) hrecoat
    refine ⟨fun a ha => ?_, fun k hk => ?_, (congrArg (fun t : State => { t with motion := s.motion }) hframe :)⟩
    · by_cases hab : a = b
      · rw [hab, hout b hb, haxis]
        exact ⟨rfl, rfl⟩
      · rw [← honly.others a hab]
        exact hin a ((List.mem_cons.1 ha).resolve_left hab)
    · rw [hout k fun h => hk (List.mem_cons_of_mem _ h), honly.others k fun h => hk (h ▸ List.mem_cons_self)]

theorem execMotionStop_idle (rq : Req) (s : State) (hs : served 0x0F03 rq s = true) (hlen : s.motion.length = 16)
    (hmask : rq.u16 0 = 0) (hhard : rq.u8 2 ≤ 1) (hst : ∀ a, a < 16 → (s.axis a).st = .idle)
    (hpace : ∀ a, a < 16 → pacing s a = false) (hrecoat : s.forge.recoat = none) :
    ∃ t, exec (.motionStop rq) s = .next (respond rq 0x0F03 Status.ok (zeros 4) t) ∧
      (∀ a, a < 16 → (t.axis a).st = .halted ∧ (t.axis a).base = (s.axis a).base) ∧ { t with motion := s.motion } = s := by
  have hall : ((List.range 16).filter fun a => Nat.testBit 0xFFFF a) = List.range 16 := by decide
  have hnone : ((List.range 16).map fun a => Nat.testBit 0xFFFF a && decide ((s.axis a).st = .moving)) = List.replicate 16 false := by
    refine List.eq_replicate_iff.2 ⟨by simp, fun b hb => ?_⟩
    obtain ⟨a, ha, rfl⟩ := List.mem_map.1 hb
    simp [hst a (List.mem_range.1 ha)]
  obtain ⟨hin, -, hframe⟩ := foldl_stopAxis_idle (rq.u8 2 = 0) (if rq.u8 2 = 0 then 1 else 2) (List.range 16) s List.nodup_range
    (fun a ha => hlen.symm ▸ List.mem_range.1 ha) (fun a ha => hst a (List.mem_range.1 ha))
    (fun a ha => hpace a (List.mem_range.1 ha)) hrecoat
  change ∃ t, execMotionStop rq s = _ ∧ _
  unfold execMotionStop
  simp only [hmask, if_true, hall, hnone]
  refine ⟨_, (command_pass 0x0F03 rq _ _ s hs (by simp; omega)).trans ?_,
    fun a ha => hin a (List.mem_range.2 ha), hframe⟩
  rfl

theorem execMotionPositionSet_served (rq : Req) (s : State) (hs : served 0x0F04 rq s = true) (ha : rq.u8 0 < 16)
    (hmoving : (s.axis (rq.u8 0)).st ≠ .moving) (hstopping : (s.axis (rq.u8 0)).st ≠ .stopping)
    (hkeep : rq.bit 1 0 = false ∨ (s.axis (rq.u8 0)).posLost = false) (hpace : pacing s (rq.u8 0) = false) :
    exec (.motionPositionSet rq) s = .next (respond rq 0x0F04 Status.ok [] (s.modAxis (rq.u8 0) fun x =>
      { x with st := .idle, posLost := false,
               base := if rq.bit 1 0 then (s.axis (rq.u8 0)).base else BitVec.ofNat 64 (rq.u64 8) })) := by
  change execMotionPositionSet rq s = _
  unfold execMotionPositionSet
  refine (command_pass 0x0F04 rq _ _ s hs ?_).trans ?_
  · simp only [List.forall_mem_cons]
    refine ⟨by simp [ha], ?_, List.forall_mem_nil _⟩
    rcases hkeep with h | h <;> simp [hmoving, hstopping, hpace, h]
  · refine congrArg (fun t => Host.Outcome.next (respond rq 0x0F04 Status.ok [] t)) (modAxis_congr _ _ _ _ ?_)
    dsimp only

theorem execMotionStatus_rest (rq : Req) (s : State) (hs : served 0x0F05 rq s = true) (ha : rq.u8 0 < 16)
    (hst : (s.axis (rq.u8 0)).st = .idle ∨ (s.axis (rq.u8 0)).st = .halted) :
    ∃ p, exec (.motionStatus rq) s = .next (respond rq 0x0F05 Status.ok p s) ∧ p.length = 36 ∧
      leAt p 0 1 = (s.axis (rq.u8 0)).st.num ∧ leAt p 4 4 = 0 ∧ leAt p 8 8 = (s.axis (rq.u8 0)).base.toNat ∧
      leAt p 16 8 = (s.axis (rq.u8 0)).pulses.toNat ∧ leAt p 28 4 = (s.axis (rq.u8 0)).limitStops.n := by
  have hv : (s.axis (rq.u8 0)).velocity s.time = 0 := by rcases hst with h | h <;> simp only [Axis.velocity, h]
  have ht : (s.axis (rq.u8 0)).travel s.time = 0 := by rcases hst with h | h <;> simp only [Axis.travel, h]
  have hn : wholeSteps 0 = 0 := by simp [wholeSteps]
  have hp : (s.axis (rq.u8 0)).position s.time = (s.axis (rq.u8 0)).base := by simp [Axis.position, ht, hn]
  have hzero : leBytesI 4 0 = zeros 4 := by decide
  have hnum : (s.axis (rq.u8 0)).st.num < 256 := by rcases hst with h | h <;> rw [h] <;> decide
  have hbase := (s.axis (rq.u8 0)).base.isLt
  have hpulses := (s.axis (rq.u8 0)).pulses.isLt
  change ∃ p, execMotionStatus rq s = _ ∧ _
  unfold execMotionStatus
  refine ⟨_, command_pass 0x0F05 rq _ _ s hs (by simp [ha]), by simp, ?_, ?_, ?_, ?_, ?_⟩
  all_goals
    simp only [List.append_assoc, hv, ht, hn, hp, hzero]
    simp [leAt_left, leAt_right, leAt_leBytes, leAt_count]
  · omega
  · decide
  · omega
  · omega

theorem execMotionAxisRaw_served (rq : Req) (s : State) (hs : served 0x0F80 rq s = true) (ha : rq.u8 0 < 16)
    (hlo : 50 ≤ rq.u16 2) (hhi : rq.u16 2 ≤ 10000) (hvlo : 1 ≤ rq.u32 4) (hvhi : rq.u32 4 ≤ 1000000)
    (hrate : 2 * rq.u16 2 * (s.axis (rq.u8 0)).vMax ≤ 10 ^ 9) (hconf : (s.axis (rq.u8 0)).configured = true) :
    exec (.motionAxisRaw rq) s = .next (respond rq 0x0F80 Status.ok []
      (s.modAxis (rq.u8 0) fun x => { x with rawNext := some (rq.u16 2, rq.u32 4) })) := by
  change execMotionAxisRaw rq s = _
  unfold execMotionAxisRaw
  refine command_pass 0x0F80 rq _ _ s hs ?_
  simp only [List.forall_mem_cons]
  refine ⟨by simp [ha], ?_, by simp [hconf], List.forall_mem_nil _⟩
  simp only [Bool.or_eq_false_iff, decide_eq_false_iff_not]
  omega

/-- Settles O46: an axis is configured and moved through operations that change it alone; a move that is due or complete
leaves it between moves, and every hard stop of an axis between moves halts it with an empty queue. -/
theorem axesMove : Obligations.AxesMove := by
  unfold Obligations.AxesMove
  refine ⟨?_, ?_, execMotionMove_halted, execMoveComplete_moving, execMoveComplete_void, execStopRampEnd_void,
    execStopRampEnd_stopping, fun _ _ _ => ⟨rfl, rfl⟩, fun a s h => execLimitDebounceExpiry_void a true s h,
    fun a s h => execLimitDebounceExpiry_void a false s h, execLimitDebounceExpiry_hard, execMotionStop_idle,
    execMotionPositionSet_served, execMotionStatus_rest, execMotionAxisRaw_served⟩
  · intro rq s hs a
    exact execMotionAxisConfig_served rq s hs
  · intro rq s hs hlen a x
    exact execMotionMove_served rq s hs hlen

end Sys2Proof.Machine
end

section
/-!
PROOFS. What a gate leaves of the thermal units (spec/18_thermal.md R416 to R423): the aborts of pages and layers that follow
it may move a unit's step and its timers, and nothing else of the temperatures.
-/
namespace Sys2Proof.Machine

open Sys2Proof

/-! ### Operations on one unit -/

theorem unit_modUnit (s : State) (u : Nat) (f : Unit' → Unit') (hu : u < s.therm.units.length) :
    (s.modUnit u f).unit u = f (s.unit u) := at'_modAt_same _ _ _ _ hu

theorem unit_modUnit_ne (s : State) (u k : Nat) (f : Unit' → Unit') (hk : k ≠ u) : (s.modUnit u f).unit k = s.unit k :=
  at'_modAt_ne _ _ _ _ _ hk.symm

theorem modUnit_nUnits (s : State) (u : Nat) (f : Unit' → Unit') :
    (s.modUnit u f).therm.units.length = s.therm.units.length := length_modAt ..

theorem unit_congr {s t : State} (h : t.therm = s.therm) (u : Nat) : t.unit u = s.unit u := by rw [State.unit, h]; rfl

/-- What a unit holds besides the throttle's state: its settings, what waits for it, its trip latch and its count of trips. -/
def Unit'.core (x : Unit') : Unit' :=
  { x with step := 16, hotFrom := none, coolFrom := none, prop := 1024, warned := false, byProp := false, wasPriv := false,
           lastFactor := 1024, held := [], throttledFrom := none, throttleMs := {} }

/-- The settings, the trip latches, the sensors and the links of the stations stay, and what was presented stays presented. -/
structure UnitsKept (s t : State) : Prop where
  core : t.therm.units.map Unit'.core = s.therm.units.map Unit'.core
  sensors : t.therm.sensors = s.therm.sensors
  stationLinks : t.stations.map Station.links = s.stations.map Station.links
  presented : ∀ r ∈ s.flt.presented, r ∈ t.flt.presented

theorem UnitsKept.refl (s : State) : UnitsKept s s := ⟨rfl, rfl, rfl, fun _ h => h⟩

theorem UnitsKept.trans {s t u : State} (h : UnitsKept s t) (g : UnitsKept t u) : UnitsKept s u :=
  ⟨g.core.trans h.core, g.sensors.trans h.sensors, g.stationLinks.trans h.stationLinks,
    fun r hr => g.presented r (h.presented r hr)⟩

theorem unitsKept_foldl {α : Type} (f : State → α → State) (l : List α) (s : State) (hf : ∀ s x, UnitsKept s (f s x)) :
    UnitsKept s (l.foldl f s) := by
  induction l generalizing s with
  | nil => exact UnitsKept.refl s
  | cons x l ih => exact (hf s x).trans (ih _)

theorem UnitsKept.unit {s t : State} (h : UnitsKept s t) (u : Nat) : (t.unit u).core = (s.unit u).core := by
  have hlen : t.therm.units.length = s.therm.units.length := by simpa using congrArg List.length h.core
  by_cases hu : u < s.therm.units.length
  · have hat := congrArg (fun l => at' l u ({} : Unit')) h.core
    simp only [at'_map Unit'.core _ _ {} _ (hlen.symm ▸ hu), at'_map Unit'.core _ _ {} _ hu] at hat
    exact hat
  · unfold State.unit
    rw [at'_ge _ _ _ (not_lt.1 hu), at'_ge _ _ _ (hlen.symm ▸ not_lt.1 hu)]

theorem UnitsKept.nUnits {s t : State} (h : UnitsKept s t) : t.therm.units.length = s.therm.units.length := by
  simpa using congrArg List.length h.core

theorem links_of_map {s t : State} (h : t.stations.map Station.links = s.stations.map Station.links) (i : Nat) :
    (t.station i).links = (s.station i).links := by
  have hlen : t.stations.length = s.stations.length := by simpa using congrArg List.length h
  by_cases hi : i < s.stations.length
  · have hat := congrArg (fun l => at' l i ([] : List Nat)) h
    simp only [at'_map Station.links _ _ {} _ (hlen.symm ▸ hi), at'_map Station.links _ _ {} _ hi] at hat
    exact hat
  · unfold State.station
    rw [at'_ge _ _ _ (not_lt.1 hi), at'_ge _ _ _ (hlen.symm ▸ not_lt.1 hi)]

/-! ### Single units -/

/-- What touches neither the stations nor the temperatures nor the raises. -/
theorem unitsKept_of {s t : State} (hst : t.stations = s.stations) (hth : t.therm = s.therm) (hflt : t.flt = s.flt) :
    UnitsKept s t := by
  refine ⟨?_, ?_, ?_, ?_⟩
  · rw [hth]
  · rw [hth]
  · rw [hst]
  · rw [hflt]; exact fun _ h => h

theorem unitsKept_update (s : State) (links rollback gpi bias heads forge lag dma) :
    UnitsKept s { s with links := links, rollback := rollback, gpi := gpi, bias := bias, heads := heads, forge := forge,
                         lag := lag, dma := dma } := unitsKept_of rfl rfl rfl

theorem unitsKept_modLink (l : Nat) (f : Link → Link) (s : State) : UnitsKept s (s.modLink l f) :=
  unitsKept_of (State.modLink_stations ..) (State.modLink_therm ..) (State.modLink_flt ..)

theorem unitsKept_modHead (h : Nat) (f : Head → Head) (s : State) : UnitsKept s (s.modHead h f) :=
  unitsKept_of (State.modHead_stations ..) (State.modHead_therm ..) (State.modHead_flt ..)

theorem unitsKept_modTiles (f : Tile → Tile) (s : State) : UnitsKept s (s.modTiles f) := unitsKept_of rfl rfl rfl

theorem unitsKept_releaseTile (h : Nat) (s : State) : UnitsKept s (releaseTile h s) := unitsKept_of rfl rfl rfl

theorem unitsKept_modStation (i : Nat) (f : Station → Station) (s : State) (hf : ∀ st, (f st).links = st.links) :
    UnitsKept s (s.modStation i f) := ⟨rfl, rfl, map_modAt _ _ _ _ hf, fun _ h => h⟩

theorem unitsKept_modJobs (i : Nat) (f : Job → Job) (s : State) : UnitsKept s (s.modJobs i f) :=
  unitsKept_modStation _ _ _ fun _ => rfl

theorem unitsKept_modUnit (u : Nat) (f : Unit' → Unit') (s : State) (hf : ∀ x, (f x).core = x.core) :
    UnitsKept s (s.modUnit u f) := ⟨map_modAt _ _ _ _ hf, rfl, rfl, fun _ h => h⟩

theorem unitsKept_present (source : Nat) (unit : Option Nat) (detail : Nat) (s : State) :
    UnitsKept s (present source unit detail s) :=
  ⟨rfl, rfl, rfl, fun _ h => List.mem_append_left _ h⟩

theorem unitsKept_complete (c : Ctx) (status : Nat) (payload : List Byte) (s : State) :
    UnitsKept s (complete c status payload s) :=
  unitsKept_of (congrArg State.stations (complete_frame c status payload s) :)
    (congrArg State.therm (complete_frame c status payload s) :) (congrArg State.flt (complete_frame c status payload s) :)

theorem unitsKept_gateLink (cause l : Nat) (s : State) : UnitsKept s (gateLink cause l s) := by
  have hsend (ctype payload : Nat) (u : State) : UnitsKept u (sendCtl l ctype payload u) :=
    unitsKept_of (congrArg State.stations (sendCtl_frame l ctype payload u) :)
      (congrArg State.therm (sendCtl_frame l ctype payload u) :) (congrArg State.flt (sendCtl_frame l ctype payload u) :)
  unfold gateLink sendGate
  (repeat' split)
  · exact UnitsKept.refl s
  · exact (unitsKept_modLink ..).trans (hsend _ _ _)
  · exact unitsKept_modLink ..

theorem map_links_firing (f : Nat → Station → Station) (k : Nat) (l : List Station) (hf : ∀ i st, (f i st).links = st.links) :
    (mapIdxFrom f k l).map Station.links = l.map Station.links := by
  induction l generalizing k with
  | nil => rfl
  | cons st l ih => simp only [mapIdxFrom, List.map_cons, hf, ih]

theorem unitsKept_refreshSearch (s : State) : UnitsKept s (refreshSearch s) :=
  ⟨rfl, rfl, map_links_firing _ _ _ fun _ _ => rfl, fun _ h => h⟩

/-! ### Rollback and the end of jobs -/

theorem unitsKept_purgeUnit (i : Nat) (u : UnitId) (s : State) : UnitsKept s (purgeUnit i u s) :=
  unitsKept_foldl _ _ _ fun _ _ => unitsKept_modLink ..

theorem unitsKept_discardSweeps (i : Nat) (s : State) : UnitsKept s (discardSweeps i s) := by
  unfold discardSweeps
  refine UnitsKept.trans ?_ (unitsKept_modTiles ..)
  exact unitsKept_modStation _ _ _ fun _ => rfl

theorem unitsKept_returnVectors (h : Nat) (s : State) : UnitsKept s (returnVectors h s) :=
  (unitsKept_modHead ..).trans (unitsKept_modTiles ..)

theorem unitsKept_rollbackTrigger (code : Nat) (lanes : BitVec 192) (s : State) :
    UnitsKept s (rollbackTrigger code lanes s) := by
  unfold rollbackTrigger
  refine UnitsKept.trans ?_ (unitsKept_update _ _ _ _ _ _ _ _ _)
  refine UnitsKept.trans ?_ (unitsKept_foldl _ _ _ fun _ _ => unitsKept_modLink ..)
  refine UnitsKept.trans ?_ (unitsKept_foldl _ _ _ fun _ _ =>
    (unitsKept_modHead ..).trans ((unitsKept_modHead ..).trans (unitsKept_modTiles ..)))
  refine unitsKept_foldl _ _ _ fun s i => UnitsKept.trans ?_ (unitsKept_discardSweeps ..)
  exact unitsKept_modStation _ _ _ fun _ => rfl

theorem unitsKept_releaseUnread (i : Nat) (page : BitVec 32) (s : State) : UnitsKept s (releaseUnread i page s) := by
  unfold releaseUnread
  dsimp only
  split
  · exact UnitsKept.refl s
  · exact unitsKept_foldl _ _ _ fun _ _ => unitsKept_releaseTile ..

theorem unitsKept_reportJobs (i : Nat) (s : State) : UnitsKept s (reportJobs i s) := by
  have hone (s : State) (j : Job) (status payload) : UnitsKept s (complete j.ctx status payload
      (if (s.station i).jobs.any fun k => k.pageId = j.pageId then s
       else
        let s := (tilesOf s (.station i) j.pageId).foldl (fun s h => releaseTile h s) s
        { s with dma := { s.dma with fwQueue := s.dma.fwQueue.filter fun f => !(f.station = i && f.page = j.pageId) } })) := by
    refine UnitsKept.trans ?_ (unitsKept_complete ..)
    split
    · exact UnitsKept.refl s
    · exact (unitsKept_foldl _ _ _ fun _ _ => unitsKept_releaseTile ..).trans (unitsKept_update _ _ _ _ _ _ _ _ _)
  have hjobs := unitsKept_modStation i (fun st => { st with jobs := st.jobs.filter fun j => !jobOver st j }) s fun _ => rfl
  unfold reportJobs
  dsimp only
  split
  · exact hjobs.trans (unitsKept_foldl _ _ _ fun s j => hone s j _ _)
  · exact (hjobs.trans (unitsKept_foldl _ _ _ fun s j => hone s j _ _)).trans (unitsKept_refreshSearch _)

theorem unitsKept_emptyStation (i : Nat) (s : State) : UnitsKept s (emptyStation i s) := by
  unfold emptyStation
  dsimp only
  split
  · exact UnitsKept.refl s
  · refine UnitsKept.trans ?_ (unitsKept_reportJobs ..)
    refine UnitsKept.trans ?_ (unitsKept_modTiles ..)
    refine UnitsKept.trans ?_ (unitsKept_modStation _ _ _ fun _ => rfl)
    exact unitsKept_foldl _ _ _ fun _ _ => unitsKept_modLink ..

theorem unitsKept_paperOutGates (i : Nat) (s : State) : UnitsKept s (paperOutGates i s) := by
  unfold paperOutGates
  dsimp only
  split
  · exact UnitsKept.refl s
  · refine UnitsKept.trans ?_ (unitsKept_emptyStation ..)
    refine UnitsKept.trans ?_ (unitsKept_modJobs ..)
    refine UnitsKept.trans ?_ (unitsKept_foldl _ _ _ fun _ _ => unitsKept_gateLink ..)
    exact unitsKept_foldl _ _ _ fun _ _ => unitsKept_update _ _ _ _ _ _ _ _ _

theorem unitsKept_factorsChanged (s : State) : UnitsKept s (factorsChanged s) := by
  unfold factorsChanged
  refine unitsKept_foldl _ _ _ fun s u => ?_
  dsimp only
  have hmod := unitsKept_modUnit u (fun x => { x with lastFactor := factorInForce s u }) s fun _ => rfl
  (repeat' split)
  · exact UnitsKept.refl s
  · exact hmod.trans (unitsKept_present ..)
  · exact hmod.trans (unitsKept_present ..)

theorem unitsKept_syncPrivilege (s : State) : UnitsKept s (syncPrivilege s) := by
  unfold syncPrivilege
  refine (unitsKept_foldl _ _ _ fun s u => ?_).trans (unitsKept_factorsChanged _)
  dsimp only
  split
  · exact UnitsKept.refl s
  · exact unitsKept_modUnit _ _ _ fun _ => rfl

theorem unitsKept_abortJobsAt (i : Nat) (pred : Job → Bool) (cause input : Nat) (flags : BitVec 16) (s : State) :
    UnitsKept s (abortJobsAt i pred cause input flags s) := by
  have hend (s : State) (hit sweeps) (off : Station → Sweep → Sweep) : UnitsKept s (paperOutGates i (reportJobs i
      ((hit : List Job).foldl (fun s j => releaseUnread i j.pageId s)
        (((sweeps : List Sweep).foldl (fun s w => purgeUnit i (.sweep i w.n) s) s).modStation i fun st =>
          { st with sweeps := st.sweeps.map (off st) })))) := by
    refine UnitsKept.trans ?_ (unitsKept_paperOutGates ..)
    refine UnitsKept.trans ?_ (unitsKept_reportJobs ..)
    refine UnitsKept.trans ?_ (unitsKept_foldl _ _ _ fun _ _ => unitsKept_releaseUnread ..)
    exact (unitsKept_foldl _ _ _ fun _ _ => unitsKept_purgeUnit ..).trans (unitsKept_modStation _ _ _ fun _ => rfl)
  have hbegun (s : State) (b : Bool) :
      UnitsKept s (if b then rollbackTrigger 2 (linkLanes (s.station i).links) s else s) := by
    split
    · exact unitsKept_rollbackTrigger ..
    · exact UnitsKept.refl s
  unfold abortJobsAt
  dsimp only
  split
  · exact UnitsKept.refl s
  · split
    · refine UnitsKept.trans ?_ (unitsKept_syncPrivilege _)
      exact ((unitsKept_modJobs ..).trans (hbegun _ _)).trans (hend _ _ _ _)
    · exact ((unitsKept_modJobs ..).trans (hbegun _ _)).trans (hend _ _ _ _)

/-! ### The end of a layer -/

theorem unitsKept_finishLayer (s : State) : UnitsKept s (finishLayer s) := by
  unfold finishLayer
  dsimp only
  split
  · split
    · exact (unitsKept_update s _ _ _ _ _ _ _ _).trans (unitsKept_complete ..)
    · exact unitsKept_update s _ _ _ _ _ _ _ _
  · exact UnitsKept.refl s

theorem unitsKept_dropReassignment (s : State) : UnitsKept s (dropReassignment s) :=
  (unitsKept_update s _ _ _ _ _ _ _ _).trans (unitsKept_foldl _ _ _ fun _ _ => unitsKept_complete ..)

theorem unitsKept_decideLayer (cause : Nat) (s : State) : UnitsKept s (decideLayer cause s) := by
  have hsync (f : Forge) : UnitsKept s (syncPrivilege { s with forge := f }) :=
    (unitsKept_update s _ _ _ _ _ _ _ _).trans (unitsKept_syncPrivilege _)
  unfold decideLayer
  split
  · exact UnitsKept.refl s
  · refine UnitsKept.trans ?_ (unitsKept_finishLayer _)
    refine UnitsKept.trans ?_ (unitsKept_foldl _ _ _ fun _ _ => (unitsKept_modLink ..).trans (unitsKept_modHead ..))
    refine UnitsKept.trans ?_ (unitsKept_foldl _ _ _ fun _ _ => unitsKept_gateLink ..)
    refine UnitsKept.trans ?_ (unitsKept_dropReassignment _)
    refine UnitsKept.trans ?_ (unitsKept_foldl _ _ _ fun _ _ => unitsKept_releaseTile ..)
    refine UnitsKept.trans ?_ (unitsKept_update _ _ _ _ _ _ _ _ _)
    split
    · exact hsync _
    · refine UnitsKept.trans ?_ (unitsKept_foldl _ _ _ fun _ _ => unitsKept_returnVectors ..)
      exact (hsync _).trans (unitsKept_rollbackTrigger ..)

theorem unitsKept_gateLayer (cause : Nat) (flags : BitVec 16) (s : State) : UnitsKept s (gateLayer cause flags s) := by
  unfold gateLayer
  (repeat' split)
  · exact (unitsKept_update s _ _ _ _ _ _ _ _).trans (unitsKept_decideLayer ..)
  · exact unitsKept_update s _ _ _ _ _ _ _ _
  · exact UnitsKept.refl s

theorem unitsKept_setCauseBy (cause : Nat) (links : List Nat) (abortCause input : Nat) (flags : BitVec 16) (s : State) :
    UnitsKept s (setCauseBy cause links abortCause input flags s) := by
  have hlinks (links : List Nat) (s : State) : UnitsKept s (links.foldl (fun s l => gateLink cause l s) s) :=
    unitsKept_foldl _ _ _ fun _ _ => unitsKept_gateLink ..
  have hstation (sts : List Nat) (s : State) :
      UnitsKept s (sts.foldl (fun s i => emptyStation i (gateStation i abortCause input flags s)) s) :=
    unitsKept_foldl _ _ _ fun _ _ => ((unitsKept_modJobs ..).trans (unitsKept_abortJobsAt ..)).trans (unitsKept_emptyStation ..)
  unfold setCauseBy
  dsimp only
  split
  · refine UnitsKept.trans ?_ (unitsKept_gateLayer ..)
    exact (hlinks _ s).trans (hstation _ _)
  · exact (hlinks _ s).trans (hstation _ _)

theorem unitsKept_setCause (cause : Nat) (links : List Nat) (s : State) : UnitsKept s (setCause cause links s) :=
  unitsKept_setCauseBy ..

end Sys2Proof.Machine
end

section
/-!
PROOFS. How readings judge the thermal units (spec/18_thermal.md R411 to R423): each unit that has the sensor is compared on
its own, and what a comparison or a trip of one unit leaves of another.
-/
namespace Sys2Proof.Machine

open Sys2Proof

/-- Of a fold over distinct entries, one that is met moves a state with `P` to one with `Q`; the others keep both. -/
theorem foldl_own {α β : Type} (f : β → α → β) (P Q : β → Prop) (u : α) (ks : List α) (hnd : ks.Nodup) (hu : u ∈ ks)
    (hbefore : ∀ s k, k ≠ u → P s → P (f s k)) (hown : ∀ s, P s → Q (f s u)) (hafter : ∀ s k, k ≠ u → Q s → Q (f s k))
    (s : β) (h : P s) : Q (ks.foldl f s) := by
  induction ks generalizing s with
  | nil => cases hu
  | cons k ks ih =>
    obtain ⟨hk, hnd⟩ := List.nodup_cons.1 hnd
    rw [List.foldl_cons]
    by_cases hku : k = u
    · subst hku
      have hlast (ks : List α) (hks : k ∉ ks) (s : β) (h : Q s) : Q (ks.foldl f s) := by
        induction ks generalizing s with
        | nil => exact h
        | cons j ks ih =>
          rw [List.mem_cons, not_or] at hks
          exact ih hks.2 _ (hafter s j (Ne.symm hks.1) h)
      exact hlast ks hk _ (hown s h)
    · exact ih hnd ((List.mem_cons.1 hu).resolve_left fun h => hku h.symm) _ (hbefore s k hku h)

/-! ### Operations on the units alone -/

/-- Only the temperatures and the raises have changed. -/
structure ThermOnly (s t : State) : Prop where
  frame : { t with therm := s.therm, flt := s.flt } = s

theorem ThermOnly.refl (s : State) : ThermOnly s s := ⟨rfl⟩

theorem ThermOnly.trans {s t u : State} (h : ThermOnly s t) (g : ThermOnly t u) : ThermOnly s u where
  frame := (congrArg (fun v : State => { v with therm := s.therm, flt := s.flt }) g.frame).trans h.frame

theorem thermOnly_foldl {α : Type} (f : State → α → State) (l : List α) (s : State) (hf : ∀ s x, ThermOnly s (f s x)) :
    ThermOnly s (l.foldl f s) := by
  induction l generalizing s with
  | nil => exact ThermOnly.refl s
  | cons x l ih => exact (hf s x).trans (ih _)

theorem thermOnly_modUnit (u : Nat) (f : Unit' → Unit') (s : State) : ThermOnly s (s.modUnit u f) := ⟨rfl⟩

theorem thermOnly_present (source : Nat) (unit : Option Nat) (detail : Nat) (s : State) :
    ThermOnly s (present source unit detail s) := ⟨rfl⟩

theorem thermOnly_configureUnits (i : Nat) (s : State) : ThermOnly s (configureUnits i s) := by
  unfold configureUnits
  refine thermOnly_foldl _ _ _ fun s u => ?_
  have hone (b : Bool) (f : Unit' → Unit') : ThermOnly s (if b then s.modUnit u f else s) := by
    split
    · exact thermOnly_modUnit ..
    · exact ThermOnly.refl s
  split
  · exact hone _ _
  · exact ThermOnly.refl s

theorem unit_of_map {α : Type} (g : Unit' → α) {s t : State} (h : t.therm.units.map g = s.therm.units.map g) (u : Nat) :
    g (t.unit u) = g (s.unit u) := by
  have hlen : t.therm.units.length = s.therm.units.length := by simpa using congrArg List.length h
  by_cases hu : u < s.therm.units.length
  · have hat := congrArg (fun l => at' l u (g {})) h
    simp only [at'_map g _ _ {} _ (hlen.symm ▸ hu), at'_map g _ _ {} _ hu] at hat
    exact hat
  · unfold State.unit
    rw [at'_ge _ _ _ (not_lt.1 hu), at'_ge _ _ _ (hlen.symm ▸ not_lt.1 hu)]

/-- The factors in force are noted with each unit; nothing else of it changes. -/
theorem factorsChanged_map {α : Type} (g : Unit' → α) (s : State) (hg : ∀ x f, g { x with lastFactor := f } = g x) :
    (factorsChanged s).therm.units.map g = s.therm.units.map g := by
  unfold factorsChanged
  induction (List.range 40).filter (unitExists s) generalizing s with
  | nil => rfl
  | cons u us ih =>
    rw [List.foldl_cons, ih]
    dsimp only
    (repeat' split)
    · rfl
    · exact map_modAt g _ _ _ fun x => hg x _
    · exact map_modAt g _ _ _ fun x => hg x _

/-! ### A comparison of one unit, seen from another -/

/-- What a comparison keeps: one unit as far as `g` sees it, the sensors, the links of the stations, what is presented, the
gate causes that are set, and the time. -/
structure Judged {α : Type} (g : Unit' → α) (u : Nat) (s t : State) : Prop where
  unit : g (t.unit u) = g (s.unit u)
  nUnits : t.therm.units.length = s.therm.units.length
  sensors : t.therm.sensors = s.therm.sensors
  stationLinks : t.stations.map Station.links = s.stations.map Station.links
  presented : ∀ r ∈ s.flt.presented, r ∈ t.flt.presented
  nLinks : t.nLinks = s.nLinks
  links : t.links.length = s.links.length
  causes : ∀ l c, (s.link l).causes.getLsbD c = true → (t.link l).causes.getLsbD c = true
  time : t.time = s.time

section
variable {α : Type} {g : Unit' → α} {u : Nat}

theorem Judged.refl (s : State) : Judged g u s s := ⟨rfl, rfl, rfl, rfl, fun _ h => h, rfl, rfl, fun _ _ h => h, rfl⟩

theorem Judged.trans {s t v : State} (h : Judged g u s t) (k : Judged g u t v) : Judged g u s v where
  unit := k.unit.trans h.unit
  nUnits := k.nUnits.trans h.nUnits
  sensors := k.sensors.trans h.sensors
  stationLinks := k.stationLinks.trans h.stationLinks
  presented r hr := k.presented r (h.presented r hr)
  nLinks := k.nLinks.trans h.nLinks
  links := k.links.trans h.links
  causes l c hc := k.causes l c (h.causes l c hc)
  time := k.time.trans h.time

theorem judged_foldl {β : Type} (f : State → β → State) (l : List β) (s : State) (hf : ∀ s, ∀ x ∈ l, Judged g u s (f s x)) :
    Judged g u s (l.foldl f s) := by
  induction l generalizing s with
  | nil => exact Judged.refl s
  | cons x l ih =>
    exact (hf s x List.mem_cons_self).trans (ih _ fun s y hy => hf s y (List.mem_cons_of_mem _ hy))

/-- An operation on another unit, or one of this unit that `g` does not see. -/
theorem judged_modUnit (k : Nat) (f : Unit' → Unit') (s : State) (hf : k ≠ u ∨ ∀ x, g (f x) = g x) :
    Judged g u s (s.modUnit k f) := by
  refine ⟨?_, modUnit_nUnits .., rfl, rfl, fun _ h => h, rfl, rfl, fun _ _ h => h, rfl⟩
  rcases hf with hk | hf
  · rw [unit_modUnit_ne _ _ _ _ (Ne.symm hk)]
  · exact unit_of_map g (map_modAt g _ _ _ hf) u

/-- What keeps the core of every unit and only adds gate causes. -/
theorem judged_of (hg : ∀ x y : Unit', x.core = y.core → g x = g y) {s t : State} (h : UnitsKept s t) (hgates : Gates s t) :
    Judged g u s t where
  unit := hg _ _ (h.unit u)
  nUnits := h.nUnits
  sensors := h.sensors
  stationLinks := h.stationLinks
  presented := h.presented
  nLinks := hgates.nLinks
  links := hgates.2.1
  causes l c hc := (hgates.2.2 l).2 c hc
  time := hgates.time

theorem judged_present (source : Nat) (unit : Option Nat) (detail : Nat) (s : State) :
    Judged g u s (present source unit detail s) :=
  ⟨rfl, rfl, rfl, rfl, fun _ h => List.mem_append_left _ h, rfl, rfl, fun _ _ h => h, rfl⟩

/-- A trip of a motor touches the motors and the command interface alone. -/
theorem tripMotor_frame (m : Nat) (s : State) : { tripMotor m s with bldc := s.bldc, mci := s.mci } = s := by
  unfold tripMotor
  (repeat' split)
  · rfl
  · rfl
  · obtain ⟨-, -, -, hframe, -⟩ := endStart_acts m 1 Status.failed 0 s
    exact hframe

theorem judged_tripMotor (m : Nat) (s : State) : Judged g u s (tripMotor m s) := by
  have hframe := tripMotor_frame m s
  generalize tripMotor m s = t at hframe
  have hlinks : t.links = s.links := (congrArg State.links hframe :)
  have hunits : t.therm = s.therm := (congrArg State.therm hframe :)
  have hpart : t.part = s.part := (congrArg State.part hframe :)
  refine ⟨?_, by rw [hunits], by rw [hunits], ?_, ?_, ?_, by rw [hlinks], ?_, (congrArg State.time hframe :)⟩
  · rw [unit_congr hunits]
  · rw [(congrArg State.stations hframe :)]
  · rw [(congrArg State.flt hframe :)]; exact fun _ h => h
  · unfold State.nLinks; rw [hpart]
  · intro l c hc; unfold State.link; rw [hlinks]; exact hc

variable (hg : ∀ x y : Unit', x.core = y.core → g x = g y)
include hg

theorem judged_tripUnit (k source : Nat) (s : State)
    (hk : k ≠ u ∨ ∀ x, g { x with tripped := true, trips := x.trips.inc } = g x) : Judged g u s (tripUnit k source s) := by
  have hmod := judged_modUnit k (fun x => { x with tripped := true, trips := x.trips.inc }) s hk
  unfold tripUnit
  dsimp only
  generalize (s.modUnit k fun x => { x with tripped := true, trips := x.trips.inc }) = v at hmod ⊢
  have hcause := hmod.trans (judged_of hg (unitsKept_setCause 4 (unitLinks v k) v) (gates_setCause ..))
  refine Judged.trans ?_ (judged_present ..)
  (repeat' split)
  · exact hcause.trans (judged_tripMotor ..)
  · exact hcause.trans (judged_foldl _ _ _ fun _ _ _ => judged_tripMotor ..)
  · exact hcause

end

/-! ### The comparison of a unit (R418) -/

/-- The warning of a unit follows its temperature. -/
def warnUnit (u : Nat) (t : Int) (s : State) : State :=
  if (s.unit u).warned then
    (if t < (s.unit u).warn - (s.unit u).hyst then s.modUnit u fun x => { x with warned := false } else s)
  else if (s.unit u).warn ≤ t then present 0x0220 (some u) 0 (s.modUnit u fun x => { x with warned := true })
  else s

/-- A unit's factor, timers and counts follow its temperature. -/
def followUnit (u : Nat) (t : Int) (s : State) : State :=
  let w := notePrivileged u ((warnUnit u t s).modUnit u fun x => { x with prop := propFactor x.k x.throttle t })
  throttleTimers u t (countThrottle u ((s.unit u).throttle ≤ t) w)

/-- A unit that has been compared, but not yet tripped. -/
def weighUnit (u : Nat) (t : Int) (s : State) : State :=
  if unitBroken s u then followUnit u t s else holdReading u t (followUnit u t s)

/-- A comparison weighs the unit and trips it at most once, by its temperature or by its rise. -/
theorem compareUnit_some (u : Nat) (t : Int) (s : State) (ht : unitTemp s u = some t) :
    compareUnit u s =
      if (s.unit u).tripped then weighUnit u t s
      else if unitBroken s u || (s.unit u).trip ≤ t then tripUnit u 0x0222 (weighUnit u t s)
      else if !unitBroken s u && tooFast (followUnit u t s) u t then tripUnit u 0x0223 (weighUnit u t s)
      else weighUnit u t s := by
  unfold compareUnit
  rw [ht]
  rfl

theorem compareUnit_none (u : Nat) (s : State) (ht : unitTemp s u = none) : compareUnit u s = s := by
  unfold compareUnit
  simp only [ht]

/-- An operation that moves the throttle's state of units, and presents raises, alone. -/
structure Weighs (s t : State) : Prop where
  kept : UnitsKept s t
  only : ThermOnly s t
  flt : { t.flt with presented := s.flt.presented } = s.flt

theorem Weighs.refl (s : State) : Weighs s s := ⟨UnitsKept.refl s, ThermOnly.refl s, rfl⟩

theorem Weighs.trans {s t u : State} (h : Weighs s t) (k : Weighs t u) : Weighs s u :=
  ⟨h.kept.trans k.kept, h.only.trans k.only,
    (congrArg (fun f : Flt => { f with presented := s.flt.presented }) k.flt).trans h.flt⟩

theorem weighs_modUnit (u : Nat) (f : Unit' → Unit') (s : State) (hf : ∀ x, (f x).core = x.core) : Weighs s (s.modUnit u f) :=
  ⟨unitsKept_modUnit _ _ _ hf, thermOnly_modUnit .., rfl⟩

theorem weighs_present (source : Nat) (unit : Option Nat) (detail : Nat) (s : State) : Weighs s (present source unit detail s) :=
  ⟨unitsKept_present .., thermOnly_present .., rfl⟩

theorem weighs_foldl {α : Type} (f : State → α → State) (l : List α) (s : State) (hf : ∀ s x, Weighs s (f s x)) :
    Weighs s (l.foldl f s) := by
  induction l generalizing s with
  | nil => exact Weighs.refl s
  | cons x l ih => exact (hf s x).trans (ih _)

theorem weighs_warnUnit (u : Nat) (t : Int) (s : State) : Weighs s (warnUnit u t s) := by
  unfold warnUnit
  (repeat' split)
  · refine weighs_modUnit _ _ _ ?_
    exact fun _ => rfl
  · exact Weighs.refl s
  · refine Weighs.trans ?_ (weighs_present ..)
    refine weighs_modUnit _ _ _ ?_
    exact fun _ => rfl
  · exact Weighs.refl s

theorem weighs_notePrivileged (u : Nat) (s : State) : Weighs s (notePrivileged u s) := by
  refine weighs_foldl _ _ _ fun s k => ?_
  refine weighs_modUnit _ _ _ ?_
  exact fun _ => rfl

theorem weighs_followUnit (u : Nat) (t : Int) (s : State) : Weighs s (followUnit u t s) := by
  unfold followUnit throttleTimers countThrottle
  dsimp only
  refine Weighs.trans (Weighs.trans (Weighs.trans ?_ (weighs_notePrivileged u _)) (weighs_modUnit _ _ _ ?_))
    (weighs_modUnit _ _ _ ?_)
  · exact (weighs_warnUnit u t s).trans (weighs_modUnit _ _ _ fun _ => rfl)
  · exact fun _ => rfl
  · exact fun _ => rfl

/-- What weighing changes of a unit is the throttle's state. -/
theorem weighs_weighUnit (u : Nat) (t : Int) (s : State) : Weighs s (weighUnit u t s) := by
  unfold weighUnit
  split
  · exact weighs_followUnit u t s
  · refine (weighs_followUnit u t s).trans (weighs_modUnit _ _ _ fun x => ?_)
    (repeat' split) <;> rfl

theorem weighs_factorsChanged (s : State) : Weighs s (factorsChanged s) := by
  unfold factorsChanged
  refine weighs_foldl _ _ _ fun s u => ?_
  dsimp only
  have hmod := weighs_modUnit u (fun x => { x with lastFactor := factorInForce s u }) s fun _ => rfl
  (repeat' split)
  · exact Weighs.refl s
  · exact hmod.trans (weighs_present ..)
  · exact hmod.trans (weighs_present ..)

theorem Weighs.gates {s t : State} (h : Weighs s t) : Gates s t := by
  have hmci : t.mci = s.mci := (congrArg State.mci h.only.frame :)
  refine Calm.gates ⟨?_, h.flt, ?_⟩ (congrArg State.links h.only.frame :)
  · exact (congrArg (fun v : State => { v with
      mci := s.mci, links := s.links, rollback := s.rollback, stations := s.stations, gpi := s.gpi, bias := s.bias,
      heads := s.heads, forge := s.forge, lag := s.lag, dma := s.dma }) h.only.frame :)
  · rw [hmci]
    exact CalmMci.refl _

theorem judged_weighs {α : Type} {g : Unit' → α} (hg : ∀ x y : Unit', x.core = y.core → g x = g y) (u : Nat) {s t : State}
    (h : Weighs s t) : Judged g u s t := judged_of hg h.kept h.gates

/-- A comparison of one unit, seen from another, or by what no trip changes. -/
theorem judged_compareUnit {α : Type} {g : Unit' → α} (hg : ∀ x y : Unit', x.core = y.core → g x = g y) (u k : Nat) (s : State)
    (hk : k ≠ u ∨ ∀ x, g { x with tripped := true, trips := x.trips.inc } = g x) : Judged g u s (compareUnit k s) := by
  cases ht : unitTemp s k with
  | none => rw [compareUnit_none k s ht]; exact Judged.refl s
  | some t =>
    have hweigh := judged_weighs hg u (weighs_weighUnit k t s)
    rw [compareUnit_some k t s ht]
    (repeat' split)
    · exact hweigh
    · exact hweigh.trans (judged_tripUnit hg k _ _ hk)
    · exact hweigh.trans (judged_tripUnit hg k _ _ hk)
    · exact hweigh

end Sys2Proof.Machine
end

section
/-!
PROOFS. Temperatures (spec/18_thermal.md): `TemperaturesAreJudged`.
-/
namespace Sys2Proof.Machine

open Sys2Proof

/-! ### While no page and no layer is active -/

/-- No page becomes active, the layer stays in its state, and the temperatures are as they were. -/
structure NothingStarts (s t : State) : Prop where
  pages : ∀ i, pageActive t i = true → pageActive s i = true
  layer : t.forge.layer = s.forge.layer
  therm : t.therm = s.therm

theorem NothingStarts.refl (s : State) : NothingStarts s s := ⟨fun _ h => h, rfl, rfl⟩

theorem NothingStarts.trans {s t u : State} (h : NothingStarts s t) (g : NothingStarts t u) : NothingStarts s u :=
  ⟨fun i hi => h.pages i (g.pages i hi), g.layer.trans h.layer, g.therm.trans h.therm⟩

theorem nothingStarts_foldl {α : Type} (f : State → α → State) (l : List α) (s : State) (hf : ∀ s x, NothingStarts s (f s x)) :
    NothingStarts s (l.foldl f s) := by
  induction l generalizing s with
  | nil => exact NothingStarts.refl s
  | cons x l ih => exact (hf s x).trans (ih _)

theorem nothingStarts_of {s t : State} (hst : t.stations = s.stations) (hf : t.forge = s.forge) (hth : t.therm = s.therm) :
    NothingStarts s t := by
  refine ⟨fun i h => ?_, by rw [hf], hth⟩
  unfold pageActive State.station at h ⊢
  rw [← hst]
  exact h

theorem nothingStarts_modLink (l : Nat) (f : Link → Link) (s : State) : NothingStarts s (s.modLink l f) :=
  nothingStarts_of (State.modLink_stations ..) (State.modLink_forge ..) (State.modLink_therm ..)

theorem nothingStarts_modTiles (f : Tile → Tile) (s : State) : NothingStarts s (s.modTiles f) := nothingStarts_of rfl rfl rfl

theorem nothingStarts_present (source : Nat) (unit : Option Nat) (detail : Nat) (s : State) :
    NothingStarts s (present source unit detail s) := nothingStarts_of rfl rfl rfl

theorem nothingStarts_modStation (i : Nat) (f : Station → Station) (s : State)
    (hf : ∀ st, ((f st).jobs.any fun j => j.st = .active) = true → (st.jobs.any fun j => j.st = .active) = true) :
    NothingStarts s (s.modStation i f) := by
  refine ⟨fun k h => ?_, rfl, rfl⟩
  by_cases hk : k = i
  · subst hk
    by_cases hlen : k < s.stations.length
    · unfold pageActive State.station at h
      rw [State.modStation_stations, at'_modAt_same _ _ _ _ hlen] at h
      exact hf _ h
    · unfold pageActive State.station at h
      rw [State.modStation_stations, at'_ge _ _ _ ((length_modAt ..).symm ▸ not_lt.1 hlen)] at h
      exact absurd h (by decide)
  · unfold pageActive State.station at h
    rw [State.modStation_stations, at'_modAt_ne _ _ _ _ _ (Ne.symm hk)] at h
    exact h

theorem nothingStarts_gateLink (cause l : Nat) (s : State) : NothingStarts s (gateLink cause l s) := by
  have hsend (ctype payload : Nat) (u : State) : NothingStarts u (sendCtl l ctype payload u) :=
    nothingStarts_of (congrArg State.stations (sendCtl_frame l ctype payload u) :)
      (congrArg State.forge (sendCtl_frame l ctype payload u) :) (congrArg State.therm (sendCtl_frame l ctype payload u) :)
  unfold gateLink sendGate
  (repeat' split)
  · exact NothingStarts.refl s
  · exact (nothingStarts_modLink ..).trans (hsend _ _ _)
  · exact nothingStarts_modLink ..

theorem nothingStarts_refreshSearch (s : State) : NothingStarts s (refreshSearch s) := by
  refine ⟨fun i h => ?_, rfl, rfl⟩
  by_cases hi : i < s.stations.length
  · unfold pageActive at h
    rw [refreshSearch_station i s hi] at h
    exact h
  · unfold pageActive State.station at h
    rw [at'_ge] at h
    · exact absurd h (by decide)
    · exact (length_mapIx _ _).le.trans (not_lt.1 hi)

theorem nothingStarts_reportJobs (i : Nat) (s : State) : NothingStarts s (reportJobs i s) := by
  have hone (s : State) (j : Job) (status payload) : NothingStarts s (complete j.ctx status payload
      (if (s.station i).jobs.any fun k => k.pageId = j.pageId then s
       else
        let s := (tilesOf s (.station i) j.pageId).foldl (fun s h => releaseTile h s) s
        { s with dma := { s.dma with fwQueue := s.dma.fwQueue.filter fun f => !(f.station = i && f.page = j.pageId) } })) := by
    have hcomplete (u : State) : NothingStarts u (complete j.ctx status payload u) :=
      nothingStarts_of (congrArg State.stations (complete_frame _ _ _ u) :)
        (congrArg State.forge (complete_frame _ _ _ u) :) (congrArg State.therm (complete_frame _ _ _ u) :)
    refine NothingStarts.trans ?_ (hcomplete _)
    split
    · exact NothingStarts.refl s
    · dsimp only
      refine NothingStarts.trans (nothingStarts_foldl _ _ _ fun u h => ?_) (nothingStarts_of rfl rfl rfl)
      exact nothingStarts_of rfl rfl rfl
  have hjobs := nothingStarts_modStation i (fun st => { st with jobs := st.jobs.filter fun j => !jobOver st j }) s fun st h => by
    obtain ⟨j, hj, hactive⟩ := List.any_eq_true.1 h
    exact List.any_eq_true.2 ⟨j, (List.mem_filter.1 hj).1, hactive⟩
  unfold reportJobs
  dsimp only
  split
  · exact hjobs.trans (nothingStarts_foldl _ _ _ fun s j => hone s j _ _)
  · exact (hjobs.trans (nothingStarts_foldl _ _ _ fun s j => hone s j _ _)).trans (nothingStarts_refreshSearch _)

theorem nothingStarts_emptyStation (i : Nat) (s : State) : NothingStarts s (emptyStation i s) := by
  unfold emptyStation
  dsimp only
  split
  · exact NothingStarts.refl s
  · refine NothingStarts.trans ?_ (nothingStarts_reportJobs ..)
    refine NothingStarts.trans ?_ (nothingStarts_modTiles ..)
    refine NothingStarts.trans ?_ (nothingStarts_modStation _ _ _ fun _ h => h)
    exact nothingStarts_foldl _ _ _ fun _ _ => nothingStarts_modLink ..

/-- Without an active page a gate of a station aborts nothing. -/
theorem nothingStarts_gateStation (i abortCause input : Nat) (flags : BitVec 16) (s : State)
    (hquiet : pageActive s i = false) : NothingStarts s (gateStation i abortCause input flags s) := by
  have hmod := nothingStarts_modStation i (fun st => { st with jobs := st.jobs.map fun j =>
      if j.st = .completed then { j with flags := j.flags ||| jobGatedTail } else j }) s fun st h => by
    obtain ⟨j, hj, hactive⟩ := List.any_eq_true.1 h
    obtain ⟨k, hk, rfl⟩ := List.mem_map.1 hj
    refine List.any_eq_true.2 ⟨k, hk, ?_⟩
    split at hactive <;> exact hactive
  have hnone : pageActive (s.modJobs i fun j => if j.st = .completed then { j with flags := j.flags ||| jobGatedTail } else j) i
      = false := by
    rw [Bool.eq_false_iff]
    exact fun h => absurd (hmod.pages i h) (by rw [hquiet]; decide)
  unfold gateStation abortJobsAt
  dsimp only
  rw [if_pos]
  · exact hmod
  · rw [List.filter_eq_nil_iff]
    intro j hj hactive
    refine absurd (List.any_eq_true.2 ⟨j, hj, ?_⟩) (by rw [← pageActive, hnone]; decide)
    simp only [Bool.and_eq_true] at hactive
    exact hactive.1.1

/-- No page is active, and no layer. -/
def Resting (s : State) : Prop := (∀ i, i < 4 → pageActive s i = false) ∧ layerActive s = false

theorem Resting.of {s t : State} (h : Resting s) (hst : NothingStarts s t) : Resting t := by
  refine ⟨fun i hi => ?_, ?_⟩
  · rw [Bool.eq_false_iff]
    exact fun hp => absurd (hst.pages i hp) (by rw [h.1 i hi]; decide)
  · have hlayer := h.2
    unfold layerActive at hlayer ⊢
    rw [hst.layer]
    exact hlayer

theorem Resting.privileged {s : State} (h : Resting s) (u : Nat) : privileged s u = false := by
  unfold Machine.privileged
  (repeat' split)
  · next hu => exact h.1 _ (by omega)
  · exact h.2
  · rfl

theorem nothingStarts_gateStations (abortCause input : Nat) (flags : BitVec 16) (sts : List Nat) (h4 : ∀ i ∈ sts, i < 4)
    (s : State) (hrest : Resting s) :
    NothingStarts s (sts.foldl (fun s i => emptyStation i (gateStation i abortCause input flags s)) s) := by
  induction sts generalizing s with
  | nil => exact NothingStarts.refl s
  | cons i sts ih =>
    have hone := (nothingStarts_gateStation i abortCause input flags s (hrest.1 i (h4 i List.mem_cons_self))).trans
      (nothingStarts_emptyStation i _)
    exact hone.trans (ih (fun k hk => h4 k (List.mem_cons_of_mem _ hk)) _ (hrest.of hone))

theorem nothingStarts_gateLayer (abortCause : Nat) (flags : BitVec 16) (s : State) (hrest : Resting s) :
    NothingStarts s (gateLayer abortCause flags s) := by
  unfold gateLayer
  rw [if_neg (by rw [hrest.2]; decide)]
  split
  · exact ⟨fun _ h => h, rfl, rfl⟩
  · exact NothingStarts.refl s

theorem nothingStarts_setCauseBy (cause : Nat) (links : List Nat) (abortCause input : Nat) (flags : BitVec 16) (s : State)
    (hrest : Resting s) : NothingStarts s (setCauseBy cause links abortCause input flags s) := by
  unfold setCauseBy
  dsimp only
  generalize links.filter (fun l => l < s.nLinks && !(s.link l).causes.getLsbD cause) = fresh
  have hgates := nothingStarts_foldl (fun s l => gateLink cause l s) fresh s fun _ _ => nothingStarts_gateLink ..
  generalize fresh.foldl (fun s l => gateLink cause l s) s = v at hgates ⊢
  have hall := hgates.trans (nothingStarts_gateStations abortCause input flags
    ((List.range 4).filter fun i => (v.station i).links.any fresh.contains)
    (fun i hi => List.mem_range.1 (List.mem_filter.1 hi).1) v (hrest.of hgates))
  split
  · exact hall.trans (nothingStarts_gateLayer _ _ _ (hrest.of hall))
  · exact hall

theorem nothingStarts_setCause (cause : Nat) (links : List Nat) (s : State) (hrest : Resting s) :
    NothingStarts s (setCause cause links s) := nothingStarts_setCauseBy _ _ _ _ _ _ hrest

theorem nothingStarts_tripMotor (m : Nat) (s : State) : NothingStarts s (tripMotor m s) := by
  have hframe := tripMotor_frame m s
  exact nothingStarts_of (congrArg State.stations hframe :) (congrArg State.forge hframe :) (congrArg State.therm hframe :)

/-- While nothing is active a trip moves its own unit's latch and count alone. -/
theorem tripUnit_resting (u source : Nat) (s : State) (hrest : Resting s) :
    Resting (tripUnit u source s) ∧
      (tripUnit u source s).therm = (s.modUnit u fun x => { x with tripped := true, trips := x.trips.inc }).therm := by
  have hmod : Resting (s.modUnit u fun x => { x with tripped := true, trips := x.trips.inc }) := hrest
  unfold tripUnit
  dsimp only
  generalize (s.modUnit u fun x => { x with tripped := true, trips := x.trips.inc }) = v at hmod ⊢
  have hcause := nothingStarts_setCause 4 (unitLinks v u) v hmod
  have hmotors (w : State) : NothingStarts w ((List.range 8).foldl (fun s m => tripMotor m s) w) :=
    nothingStarts_foldl _ _ _ fun _ _ => nothingStarts_tripMotor ..
  have hall : NothingStarts v (present source (some u) 0
      (if 32 ≤ u then tripMotor (u - 32) (setCause 4 (unitLinks v u) v)
       else if u = 0 then (List.range 8).foldl (fun s m => tripMotor m s) (setCause 4 (unitLinks v u) v)
       else setCause 4 (unitLinks v u) v)) := by
    refine NothingStarts.trans ?_ (nothingStarts_present ..)
    (repeat' split)
    · exact hcause.trans (nothingStarts_tripMotor ..)
    · exact hcause.trans (hmotors _)
    · exact hcause
  exact ⟨hmod.of hall, hall.therm⟩

end Sys2Proof.Machine
end

section
/-!
PROOFS. Temperatures (spec/18_thermal.md): `TemperaturesAreJudged`.
-/
namespace Sys2Proof.Machine

open Sys2Proof

/-! ### A reading, step by step -/

/-- A sensor has taken a reading; its units are yet to be compared. -/
def sensed (i : Nat) (v : Int) (b : Bool) (s : State) : State :=
  let old := s.sensor i
  let s := { s with therm := { s.therm with sensors := modAt s.therm.sensors i fun x =>
    { x with value := old.forced.getD v, broken := old.forced.isNone && b } } }
  let s := if (old.forced.isNone && b) && !old.broken then present 0x0224 (some i) 0 s else s
  if i < 16 && s.otp.burn.isSome && !(otpWindow s) then { s with otp := { s.otp with windowLeft := true } } else s

/-- The units that have a sensor are compared, lowest first. -/
def judgeUnits (i : Nat) (s : State) : State :=
  ((List.range 40).filter fun u => (s.unit u).configured && (s.unit u).sensors.contains i).foldl
    (fun s u => compareUnit u s) s

theorem takeReading_eq (i : Nat) (v : Int) (b : Bool) (s : State) :
    takeReading i v b s = factorsChanged (clearTrips (judgeUnits i (configureUnits i (sensed i v b s)))) := rfl

theorem sensed_therm (i : Nat) (v : Int) (b : Bool) (s : State) : (sensed i v b s).therm =
    { s.therm with sensors := modAt s.therm.sensors i fun x =>
      { x with value := (s.sensor i).forced.getD v, broken := (s.sensor i).forced.isNone && b } } := by
  unfold sensed
  dsimp only
  split
  · split <;> rfl
  · split <;> rfl

theorem sensed_frame (i : Nat) (v : Int) (b : Bool) (s : State) :
    { sensed i v b s with therm := s.therm, flt := s.flt, otp := s.otp } = s := by
  unfold sensed
  dsimp only
  split
  · split <;> rfl
  · split <;> rfl

/-- The settings of a unit, without its trip latch and count. -/
def Unit'.settings (x : Unit') : Unit' := { x.core with tripped := false, trips := {} }

theorem settings_of_core (x y : Unit') (h : x.core = y.core) : x.settings = y.settings :=
  congrArg (fun z : Unit' => { z with tripped := false, trips := {} }) h

theorem settings_of_trip (x : Unit') : Unit'.settings { x with tripped := true, trips := x.trips.inc } = x.settings := rfl

theorem judgeUnits_settings (i u : Nat) (s : State) : Judged Unit'.settings u s (judgeUnits i s) :=
  judged_foldl _ _ _ fun _ k _ => judged_compareUnit settings_of_core u k _ (.inr settings_of_trip)

/-- Cleared trips leave the sensors, the time and all of each unit but its latch. -/
theorem clearTrips_map {α : Type} (g : Unit' → α) (s : State) (hg : ∀ x, g { x with tripped := false } = g x) :
    (clearTrips s).therm.units.map g = s.therm.units.map g ∧ (clearTrips s).therm.sensors = s.therm.sensors ∧
      (clearTrips s).time = s.time := by
  have hfold (us : List Nat) (s : State) : (us.foldl (fun s u =>
      if (s.unit u).tripped && unitCool s u then s.modUnit u fun x => { x with tripped := false } else s) s).therm.units.map g
        = s.therm.units.map g ∧ ThermOnly s (us.foldl (fun s u =>
      if (s.unit u).tripped && unitCool s u then s.modUnit u fun x => { x with tripped := false } else s) s) ∧
      (us.foldl (fun s u => if (s.unit u).tripped && unitCool s u then s.modUnit u fun x => { x with tripped := false }
        else s) s).therm.sensors = s.therm.sensors := by
    induction us generalizing s with
    | nil => exact ⟨rfl, ThermOnly.refl s, rfl⟩
    | cons u us ih =>
      obtain ⟨hmap, honly, hsensors⟩ := ih
        (if (s.unit u).tripped && unitCool s u then s.modUnit u fun x => { x with tripped := false } else s)
      rw [List.foldl_cons]
      refine ⟨hmap.trans ?_, ThermOnly.trans ?_ honly, hsensors.trans ?_⟩
      · split
        · exact map_modAt g _ _ _ hg
        · rfl
      · split
        · exact thermOnly_modUnit ..
        · exact ThermOnly.refl s
      · split <;> rfl
  unfold clearTrips
  split
  · exact ⟨rfl, rfl, rfl⟩
  · obtain ⟨hmap, honly, hsensors⟩ := hfold (List.range 40) s
    dsimp only
    generalize (List.range 40).foldl (fun s u =>
      if (s.unit u).tripped && unitCool s u then s.modUnit u fun x => { x with tripped := false } else s) s = v at *
    have hframe := clearCause_frame 4 ((List.range 24).filter fun l =>
      !((List.range 40).filter fun u => (v.unit u).tripped).any fun u => (unitLinks v u).contains l) v
    have htherm := (congrArg State.therm hframe :)
    have htime := (congrArg State.time hframe :)
    exact ⟨(congrArg (fun t : Therm => t.units.map g) htherm :).trans hmap,
      (congrArg Therm.sensors htherm :).trans hsensors, htime.trans (congrArg State.time honly.frame :)⟩

/-- Configuration at a reading changes units alone. -/
theorem configureUnits_sensors (i : Nat) (s : State) :
    (configureUnits i s).therm.sensors = s.therm.sensors ∧ (configureUnits i s).therm.units.length = s.therm.units.length ∧
      (configureUnits i s).flt = s.flt := by
  unfold configureUnits
  have hfold (us : List Nat) (s : State) (f : State → Nat → State) (hf : ∀ s u, (f s u).therm.sensors = s.therm.sensors ∧
      (f s u).therm.units.length = s.therm.units.length ∧ (f s u).flt = s.flt) :
      (us.foldl f s).therm.sensors = s.therm.sensors ∧ (us.foldl f s).therm.units.length = s.therm.units.length ∧
        (us.foldl f s).flt = s.flt := by
    induction us generalizing s with
    | nil => exact ⟨rfl, rfl, rfl⟩
    | cons u us ih =>
      obtain ⟨h1, h2, h3⟩ := ih (f s u)
      obtain ⟨g1, g2, g3⟩ := hf s u
      exact ⟨h1.trans g1, h2.trans g2, h3.trans g3⟩
  refine hfold _ _ _ fun s u => ?_
  have hone (b : Bool) (f : Unit' → Unit') : (if b then s.modUnit u f else s).therm.sensors = s.therm.sensors ∧
      (if b then s.modUnit u f else s).therm.units.length = s.therm.units.length ∧ (if b then s.modUnit u f else s).flt = s.flt := by
    split
    · exact ⟨rfl, modUnit_nUnits .., rfl⟩
    · exact ⟨rfl, rfl, rfl⟩
  split
  · exact hone _ _
  · exact ⟨rfl, rfl, rfl⟩

/-- A reading leaves every sensor but its own, and takes no time. -/
theorem takeReading_sensors (i : Nat) (v : Int) (b : Bool) (s : State) :
    (takeReading i v b s).therm.sensors = (modAt s.therm.sensors i fun x =>
      { x with value := (s.sensor i).forced.getD v, broken := (s.sensor i).forced.isNone && b }) ∧
      (takeReading i v b s).time = s.time := by
  rw [takeReading_eq]
  have hsensed := sensed_therm i v b s
  have hframe := sensed_frame i v b s
  generalize sensed i v b s = s1 at *
  obtain ⟨hconf, -, -⟩ := configureUnits_sensors i s1
  have honly := thermOnly_configureUnits i s1
  generalize configureUnits i s1 = s2 at *
  have hjudge := judgeUnits_settings i 0 s2
  generalize judgeUnits i s2 = s3 at *
  obtain ⟨-, hclear, htime⟩ := clearTrips_map (fun _ => ()) s3 fun _ => rfl
  generalize clearTrips s3 = s4 at *
  have hfactors := weighs_factorsChanged s4
  refine ⟨?_, ?_⟩
  · rw [hfactors.kept.sensors, hclear, hjudge.sensors, hconf, hsensed]
  · rw [(congrArg State.time hfactors.only.frame :), htime, hjudge.time, (congrArg State.time honly.frame :),
      (congrArg State.time hframe :)]

theorem takeReading_sensor (i : Nat) (v : Int) (b : Bool) (s : State) (hi : i < s.therm.sensors.length)
    (hforced : (s.sensor i).forced = none) :
    ((takeReading i v b s).sensor i).value = v ∧ ((takeReading i v b s).sensor i).broken = b ∧
      (∀ k, k ≠ i → (takeReading i v b s).sensor k = s.sensor k) ∧ (takeReading i v b s).time = s.time := by
  obtain ⟨hsensors, htime⟩ := takeReading_sensors i v b s
  rw [hforced] at hsensors
  unfold State.sensor
  rw [hsensors, at'_modAt_same _ _ _ _ hi]
  exact ⟨rfl, rfl, fun k hk => at'_modAt_ne _ _ _ _ _ hk.symm, htime⟩

/-! ### The temperature of a unit (R416) -/

/-- The highest of some readings, and of one before them. -/
def highest (s : State) (m : Option Int) (is : List Nat) : Option Int :=
  is.foldl (fun m i => match m with
    | none => some (s.sensor i).read
    | some t => some (max t (s.sensor i).read)) m

theorem highest_ge (s : State) (m : Option Int) (is : List Nat) (t : Int) (h : m = some t) :
    ∃ t', highest s m is = some t' ∧ t ≤ t' := by
  induction is generalizing m t with
  | nil => exact ⟨t, h, le_refl t⟩
  | cons i is ih =>
    subst h
    obtain ⟨t', h', hle⟩ := ih (some (max t (s.sensor i).read)) _ rfl
    exact ⟨t', h', (le_max_left _ _).trans hle⟩

theorem highest_mem (s : State) (m : Option Int) (is : List Nat) (i : Nat) (hi : i ∈ is) :
    ∃ t, highest s m is = some t ∧ (s.sensor i).read ≤ t := by
  induction is generalizing m with
  | nil => cases hi
  | cons k is ih =>
    rcases List.mem_cons.1 hi with rfl | hi
    · cases m with
      | none => exact highest_ge s (some (s.sensor i).read) is _ rfl
      | some t =>
        obtain ⟨t', h', hle⟩ := highest_ge s (some (max t (s.sensor i).read)) is _ rfl
        exact ⟨t', h', (le_max_right _ _).trans hle⟩
    · exact ih _ hi

/-- A unit is at least as hot as each of its sensors of the die. -/
theorem unitTemp_ge (s : State) (u i : Nat) (hi : i ∈ (s.unit u).sensors) (h16 : i < 16) :
    ∃ t, unitTemp s u = some t ∧ (s.sensor i).read ≤ t :=
  highest_mem s none (presentSensors s u) i (List.mem_filter.2 ⟨hi, by simp [sensorAbsent, not_le.2 h16]⟩)

theorem unitTemp_single (s : State) (u i : Nat) (hi : (s.unit u).sensors = [i]) (h16 : i < 16) :
    unitTemp s u = some (s.sensor i).read ∧ unitBroken s u = (s.sensor i).broken := by
  have hpresent : presentSensors s u = [i] := by simp [presentSensors, hi, sensorAbsent, not_le.2 h16]
  unfold unitTemp unitBroken
  rw [hpresent]
  exact ⟨rfl, by simp⟩

theorem unitLinks_congr {s t : State} (hn : t.nLinks = s.nLinks)
    (hst : t.stations.map Station.links = s.stations.map Station.links) (u : Nat) : unitLinks t u = unitLinks s u := by
  unfold unitLinks
  rw [hn, links_of_map hst]

/-! ### A trip (R418, R419) -/

/-- What a trip leaves behind: the latch, one more trip, cause 4 on the unit's links, and its raise. -/
structure Tripped (u source : Nat) (trips : Count) (ls : List Nat) (t : State) : Prop where
  tripped : (t.unit u).tripped = true
  trips : (t.unit u).trips = trips
  gated : ∀ l ∈ ls, l < t.nLinks → (t.link l).causes.getLsbD 4 = true
  raised : ∃ r ∈ t.flt.presented, r.source = source

theorem core_tripped {x y : Unit'} (h : x.core = y.core) : x.tripped = y.tripped ∧ x.trips = y.trips :=
  ⟨(congrArg Unit'.tripped h :), (congrArg Unit'.trips h :)⟩

theorem Tripped.judged {u source : Nat} {trips : Count} {ls : List Nat} {s t : State} (h : Tripped u source trips ls s)
    (hj : Judged Unit'.core u s t) : Tripped u source trips ls t := by
  obtain ⟨htripped, htrips⟩ := core_tripped hj.unit
  obtain ⟨r, hr, hsource⟩ := h.raised
  exact ⟨htripped.trans h.tripped, htrips.trans h.trips, fun l hl hn => hj.causes l 4 (h.gated l hl (hj.nLinks ▸ hn)),
    r, hj.presented r hr, hsource⟩

theorem tripUnit_trips (u source : Nat) (s : State) (hu : u < s.therm.units.length) (hlinks : s.links.length = 24) :
    Tripped u source (s.unit u).trips.inc (unitLinks s u) (tripUnit u source s) := by
  have hmod := unit_modUnit s u (fun x => { x with tripped := true, trips := x.trips.inc }) hu
  have hls : unitLinks (s.modUnit u fun x => { x with tripped := true, trips := x.trips.inc }) u = unitLinks s u :=
    unitLinks_congr rfl rfl u
  have hlen : (s.modUnit u fun x => { x with tripped := true, trips := x.trips.inc }).links.length = 24 := hlinks
  unfold tripUnit
  dsimp only
  rw [hls]
  generalize (s.modUnit u fun x => { x with tripped := true, trips := x.trips.inc }) = v at *
  have hkept := unitsKept_setCause 4 (unitLinks s u) v
  have hgates := gates_setCause 4 (unitLinks s u) v
  have hset (l : Nat) (hl : l ∈ unitLinks s u) (hn : l < v.nLinks) := setCause_sets 4 (unitLinks s u) v l (by omega) hl hn
    (by have := nLinks_le v; omega)
  generalize setCause 4 (unitLinks s u) v = w at *
  have hrest : Judged Unit'.core u w (if 32 ≤ u then tripMotor (u - 32) w
      else if u = 0 then (List.range 8).foldl (fun s m => tripMotor m s) w else w) := by
    (repeat' split)
    · exact judged_tripMotor ..
    · exact judged_foldl _ _ _ fun _ _ _ => judged_tripMotor ..
    · exact Judged.refl w
  generalize (if 32 ≤ u then tripMotor (u - 32) w
      else if u = 0 then (List.range 8).foldl (fun s m => tripMotor m s) w else w) = x at *
  obtain ⟨htripped, htrips⟩ := core_tripped (hrest.unit.trans (hkept.unit u))
  rw [hmod] at htripped htrips
  refine ⟨htripped, htrips, fun l hl hn => ?_, _, List.mem_append_right _ List.mem_cons_self, rfl⟩
  have hnl : x.nLinks = v.nLinks := hrest.nLinks.trans hgates.nLinks
  exact hrest.causes l 4 (hset l hl (hnl ▸ hn))

/-- A unit that is not tripped and holds a reading at TRIP or above trips by its comparison. -/
theorem compareUnit_trips (u i : Nat) (s : State) (hu : u < s.therm.units.length) (hlinks : s.links.length = 24) (h16 : i < 16)
    (hi : i ∈ (s.unit u).sensors) (htripped : (s.unit u).tripped = false) (hhot : (s.unit u).trip ≤ (s.sensor i).read) :
    Tripped u 0x0222 (s.unit u).trips.inc (unitLinks s u) (compareUnit u s) := by
  obtain ⟨t, ht, hle⟩ := unitTemp_ge s u i hi h16
  have hweigh := judged_weighs (g := Unit'.core) (fun _ _ h => h) u (weighs_weighUnit u t s)
  rw [compareUnit_some u t s ht, if_neg (by rw [htripped]; decide), if_pos (by simp [hhot.trans hle])]
  have htrip := tripUnit_trips u 0x0222 (weighUnit u t s) (hweigh.nUnits ▸ hu) (hweigh.links.trans hlinks)
  rw [(core_tripped hweigh.unit).2, unitLinks_congr hweigh.nLinks hweigh.stationLinks] at htrip
  exact htrip

theorem clearTrips_raised (s : State) (h : ∃ r ∈ s.flt.presented, r.source = 0x0222) : clearTrips s = s := by
  obtain ⟨r, hr, hsource⟩ := h
  have hun : unackedSource s 0x0222 = true := by
    unfold unackedSource
    rw [List.any_eq_true.2 ⟨r, hr, by simp [hsource]⟩, Bool.or_true]
  unfold clearTrips
  rw [if_pos (by rw [hun]; rfl)]

end Sys2Proof.Machine
end

section
/-!
PROOFS. Temperatures (spec/18_thermal.md): the clauses of `TemperaturesAreJudged`.
-/
namespace Sys2Proof.Machine

open Sys2Proof

/-! ### Settings that wait for a reading (log entry 105) -/

/-- One unit of `configureUnits`. -/
def configureUnit (i : Nat) (s : State) (u : Nat) : State := match (s.unit u).waiting with
  | some c =>
    let all := (if (s.unit u).configured then (s.unit u).sensors else []) ++ c.sensors
    if all = [] || all.contains i then s.modUnit u fun x => x.configure c s.time else s
  | none => s

theorem configureUnits_eq (i : Nat) (s : State) : configureUnits i s = (List.range 40).foldl (configureUnit i) s := rfl

theorem configureUnit_none (i u : Nat) (s : State) (h : (s.unit u).waiting = none) : configureUnit i s u = s := by
  unfold configureUnit
  rw [h]

theorem configureUnit_some (i u : Nat) (c : UnitConfig) (s : State) (h : (s.unit u).waiting = some c) (hi : i ∈ c.sensors) :
    configureUnit i s u = s.modUnit u fun x => x.configure c s.time := by
  unfold configureUnit
  rw [h]
  exact if_pos (by simp [hi])

theorem configureUnit_ne (i u k : Nat) (s : State) (hk : k ≠ u) :
    (configureUnit i s k).unit u = s.unit u ∧ (configureUnit i s k).therm.units.length = s.therm.units.length := by
  unfold configureUnit
  have hone (b : Bool) (f : Unit' → Unit') : (if b then s.modUnit k f else s).unit u = s.unit u ∧
      (if b then s.modUnit k f else s).therm.units.length = s.therm.units.length := by
    split
    · exact ⟨unit_modUnit_ne _ _ _ _ hk.symm, modUnit_nUnits ..⟩
    · exact ⟨rfl, rfl⟩
  split
  · exact hone _ _
  · exact ⟨rfl, rfl⟩

theorem configureUnits_none (i u : Nat) (s : State) (h : (s.unit u).waiting = none) :
    (configureUnits i s).unit u = s.unit u := by
  rw [configureUnits_eq]
  induction List.range 40 generalizing s with
  | nil => rfl
  | cons k ks ih =>
    rw [List.foldl_cons]
    by_cases hk : k = u
    · rw [hk, configureUnit_none i u s h, ih s h]
    · have hsame := (configureUnit_ne i u k s hk).1
      rw [ih _ (by rw [hsame]; exact h), hsame]

theorem configureUnits_some (i u : Nat) (c : UnitConfig) (s : State) (hu : u < s.therm.units.length) (h40 : u < 40)
    (h : (s.unit u).waiting = some c) (hi : i ∈ c.sensors) :
    ∃ now, (configureUnits i s).unit u = (s.unit u).configure c now := by
  rw [configureUnits_eq]
  refine foldl_own (configureUnit i) (fun w => w.unit u = s.unit u ∧ w.therm.units.length = s.therm.units.length)
    (fun w => ∃ now, w.unit u = (s.unit u).configure c now) u (List.range 40) List.nodup_range (List.mem_range.2 h40)
    ?_ ?_ ?_ s ⟨rfl, rfl⟩
  · rintro w k hk ⟨hw, hlen⟩
    obtain ⟨hsame, hlen'⟩ := configureUnit_ne i u k w hk
    exact ⟨hsame.trans hw, hlen'.trans hlen⟩
  · rintro w ⟨hw, hlen⟩
    rw [configureUnit_some i u c w (by rw [hw]; exact h) hi, unit_modUnit _ _ _ (hlen ▸ hu), hw]
    exact ⟨_, rfl⟩
  · rintro w k hk ⟨now, hw⟩
    exact ⟨now, (configureUnit_ne i u k w hk).1.trans hw⟩

/-! ### Readings -/

theorem execSensorReading_die (i : Nat) (v : Int) (s : State) (h16 : i < 16) :
    exec (.sensorReading i v) s = .next (takeReading i v (1020 ≤ v) s) := by
  change execSensorReading i v s = _
  unfold execSensorReading
  rw [if_pos h16]

theorem execSensorReading_beyond (i : Nat) (v : Int) (s : State) (hi : 72 ≤ i) : exec (.sensorReading i v) s = .next s := by
  change execSensorReading i v s = _
  unfold execSensorReading
  rw [if_neg (by omega), if_neg (by omega), if_neg (by omega)]

/-- A reading of the die, up to the comparison of the units: its sensor reads `v`, and units with nothing waiting are as
they were. -/
theorem sensed_configured (i u : Nat) (v : Int) (s : State) (hlen : s.therm.sensors.length = 72) (h16 : i < 16)
    (hforced : (s.sensor i).forced = none) (hv : v < 1020) (hwait : (s.unit u).waiting = none) (s' : State)
    (hs' : s' = configureUnits i (sensed i v (1020 ≤ v) s)) :
    (s'.sensor i).read = v ∧ (s'.sensor i).broken = false ∧ s'.unit u = s.unit u ∧
      s'.therm.units.length = s.therm.units.length ∧ { s' with therm := s.therm, flt := s.flt, otp := s.otp } = s := by
  have htherm := sensed_therm i v (1020 ≤ v) s
  have hframe := sensed_frame i v (1020 ≤ v) s
  rw [hforced] at htherm
  generalize sensed i v (1020 ≤ v) s = s1 at *
  have hunit : s1.unit u = s.unit u := by unfold State.unit; rw [htherm]
  obtain ⟨hsensors, hunits, -⟩ := configureUnits_sensors i s1
  have honly := (thermOnly_configureUnits i s1).frame
  have hsame := configureUnits_none i u s1 (by rw [hunit]; exact hwait)
  rw [← hs'] at hsensors hunits honly hsame
  have hsensor : s'.sensor i = { s.sensor i with value := v, broken := decide (1020 ≤ v) } := by
    unfold State.sensor
    rw [hsensors, htherm, at'_modAt_same _ _ _ _ (by omega)]
    rfl
  have hgood : decide (1020 ≤ v) = false := by simpa using hv
  refine ⟨?_, ?_, hsame.trans hunit, ?_, ?_⟩
  · rw [hsensor, hgood]; rfl
  · rw [hsensor, hgood]
  · rw [hunits, htherm]
  · exact (congrArg (fun w : State => { w with therm := s.therm, flt := s.flt, otp := s.otp }) honly).trans hframe

theorem takeReading_trips (i u : Nat) (v : Int) (s : State) (hsensors : s.therm.sensors.length = 72)
    (hunits : s.therm.units.length = 40) (hlinks : s.links.length = 24) (h16 : i < 16) (hforced : (s.sensor i).forced = none)
    (hu : u < 40) (hconf : (s.unit u).configured = true) (hwait : (s.unit u).waiting = none) (hi : i ∈ (s.unit u).sensors)
    (htripped : (s.unit u).tripped = false) (hhot : (s.unit u).trip ≤ v) (hv : v < 1020) :
    Tripped u 0x0222 (s.unit u).trips.inc (unitLinks s u) (takeReading i v (1020 ≤ v) s) ∧
      (takeReading i v (1020 ≤ v) s).nLinks = s.nLinks := by
  rw [takeReading_eq]
  generalize hs2 : configureUnits i (sensed i v (1020 ≤ v) s) = s2
  obtain ⟨hread, -, hunit, hlen, hframe⟩ := sensed_configured i u v s hsensors h16 hforced hv hwait s2 hs2.symm
  have hlinks2 : s2.links = s.links := (congrArg State.links hframe :)
  have hpart : s2.part = s.part := (congrArg State.part hframe :)
  have hstations : s2.stations = s.stations := (congrArg State.stations hframe :)
  have hn : s2.nLinks = s.nLinks := by unfold State.nLinks; rw [hpart]
  have hls : unitLinks s2 u = unitLinks s u := unitLinks_congr hn (by rw [hstations]) u
  have hcore (x y : Unit') (h : x.core = y.core) : x.core = y.core := h
  have hjudge : Tripped u 0x0222 (s.unit u).trips.inc (unitLinks s u) (judgeUnits i s2) ∧ (judgeUnits i s2).nLinks = s2.nLinks := by
    refine foldl_own (fun w k => compareUnit k w) (fun w => Judged Unit'.core u s2 w)
      (fun w => Tripped u 0x0222 (s.unit u).trips.inc (unitLinks s u) w ∧ w.nLinks = s2.nLinks) u
      _ (List.nodup_range.filter _) ?_ ?_ ?_ ?_ s2 (Judged.refl s2)
    · refine List.mem_filter.2 ⟨List.mem_range.2 hu, ?_⟩
      rw [hunit, hconf]
      simp [hi]
    · intro w k hk hw
      exact hw.trans (judged_compareUnit hcore u k w (.inl hk))
    · intro w hw
      have hx : (w.unit u).core = (s.unit u).core := by rw [hw.unit, hunit]
      have hxs : (w.unit u).sensors = (s.unit u).sensors := (congrArg Unit'.sensors hx :)
      have hxt : (w.unit u).trip = (s.unit u).trip := (congrArg Unit'.trip hx :)
      have hsame : w.sensor i = s2.sensor i := by unfold State.sensor; rw [hw.sensors]
      have htrip := compareUnit_trips u i w (by rw [hw.nUnits, hlen]; omega) (by rw [hw.links, hlinks2]; exact hlinks) h16
        (hxs ▸ hi) ((core_tripped hx).1.trans htripped) (by rw [hxt, hsame, hread]; exact hhot)
      rw [(core_tripped hx).2, unitLinks_congr (hw.nLinks) hw.stationLinks, hls] at htrip
      exact ⟨htrip, (judged_compareUnit settings_of_core u u w (.inr settings_of_trip)).nLinks.trans hw.nLinks⟩
    · intro w k hk ⟨hw, hnw⟩
      have hj := judged_compareUnit hcore u k w (.inl hk)
      exact ⟨hw.judged hj, hj.nLinks.trans hnw⟩
  rw [clearTrips_raised _ hjudge.1.raised]
  have hlast := judged_weighs hcore u (weighs_factorsChanged (judgeUnits i s2))
  exact ⟨hjudge.1.judged hlast, hlast.nLinks.trans (hjudge.2.trans hn)⟩

theorem takeReading_configures (i u : Nat) (v : Int) (b : Bool) (c : UnitConfig) (s : State) (hunits : s.therm.units.length = 40)
    (hu : u < 40) (hwait : (s.unit u).waiting = some c) (hi : i ∈ c.sensors) :
    ∃ now, ((takeReading i v b s).unit u).settings = ((s.unit u).configure c now).settings := by
  rw [takeReading_eq]
  have htherm := sensed_therm i v b s
  generalize sensed i v b s = s1 at *
  have hunit : s1.unit u = s.unit u := by unfold State.unit; rw [htherm]
  obtain ⟨now, hconf⟩ := configureUnits_some i u c s1 (by rw [htherm]; exact hunits.symm ▸ hu) hu (by rw [hunit]; exact hwait) hi
  generalize configureUnits i s1 = s2 at *
  have hjudge := judgeUnits_settings i u s2
  generalize judgeUnits i s2 = s3 at *
  have hclear := unit_of_map _ (clearTrips_map Unit'.settings s3 fun _ => rfl).1 u
  have hfactors := unit_of_map _ (factorsChanged_map Unit'.settings (clearTrips s3) fun _ _ => rfl) u
  exact ⟨now, by rw [hfactors, hclear, hjudge.unit, hconf, hunit]⟩

/-! ### The throttle follows a reading while nothing is active (R420, R421) -/

/-- What a reading moves of a unit's throttle. -/
def Unit'.throttling (x : Unit') : Option (BitVec 64) × Option (BitVec 64) × Nat × Nat := (x.hotFrom, x.coolFrom, x.prop, x.step)

/-- A unit's throttle after a reading of `t`. -/
def throttled (t : Int) (now : BitVec 64) (x : Unit') : Option (BitVec 64) × Option (BitVec 64) × Nat × Nat :=
  (if x.throttle ≤ t then some (x.hotFrom.getD now) else none,
   if t < x.throttle - x.hyst then some (x.coolFrom.getD now) else none, propFactor x.k x.throttle t, x.step)

theorem notePrivileged_resting (u : Nat) (s : State) (h : Resting s) : notePrivileged u s = s := by
  unfold notePrivileged
  rw [List.filter_eq_nil_iff.2 (by simp [h.privileged])]
  rfl

theorem resting_congr {s t : State} (hst : t.stations = s.stations) (hf : t.forge = s.forge) (hr : Resting s) : Resting t := by
  unfold Resting pageActive layerActive State.station at hr ⊢
  rw [hst, hf]
  exact hr

theorem ThermOnly.resting {s t : State} (h : ThermOnly s t) (hr : Resting s) : Resting t :=
  resting_congr (congrArg State.stations h.frame :) (congrArg State.forge h.frame :) hr

theorem warnUnit_unit (u k : Nat) (t : Int) (s : State) :
    ((warnUnit u t s).unit k).throttling = (s.unit k).throttling ∧ ((warnUnit u t s).unit k).throttle = (s.unit k).throttle ∧
      ((warnUnit u t s).unit k).hyst = (s.unit k).hyst ∧ ((warnUnit u t s).unit k).k = (s.unit k).k := by
  have hone (f : Unit' → Unit') (hf : ∀ x, { f x with warned := x.warned } = x) (g : Unit' → Unit')
      (hg : g = fun x => { x with warned := true }) : g ((s.modUnit u f).unit k) = g (s.unit k) := by
    refine unit_of_map g (map_modAt g _ _ _ fun x => ?_) k
    rw [hg]
    exact congrArg (fun y : Unit' => { y with warned := true }) (hf x)
  have hview (x y : Unit') (h : { x with warned := true } = { y with warned := true }) :
      x.throttling = y.throttling ∧ x.throttle = y.throttle ∧ x.hyst = y.hyst ∧ x.k = y.k :=
    ⟨(congrArg Unit'.throttling h :), (congrArg Unit'.throttle h :), (congrArg Unit'.hyst h :), (congrArg Unit'.k h :)⟩
  unfold warnUnit
  (repeat' split)
  · exact hview _ _ (hone (fun x => { x with warned := false }) (fun _ => rfl) _ rfl)
  · exact ⟨rfl, rfl, rfl, rfl⟩
  · exact hview _ _ (hone (fun x => { x with warned := true }) (fun _ => rfl) _ rfl)
  · exact ⟨rfl, rfl, rfl, rfl⟩

theorem warnUnit_nUnits (u : Nat) (t : Int) (s : State) : (warnUnit u t s).therm.units.length = s.therm.units.length :=
  (weighs_warnUnit u t s).kept.nUnits

/-- While nothing is active the throttle of a weighed unit follows the temperature. -/
theorem weighUnit_throttles (u : Nat) (t : Int) (s : State) (hu : u < s.therm.units.length) (hr : Resting s) :
    ((weighUnit u t s).unit u).throttling = throttled t s.time (s.unit u) := by
  obtain ⟨hth, hthrottle, hhyst, hk⟩ := warnUnit_unit u u t s
  have hlen := warnUnit_nUnits u t s
  have hrest := (weighs_warnUnit u t s).only.resting hr
  have htime : (warnUnit u t s).time = s.time := (congrArg State.time (weighs_warnUnit u t s).only.frame :)
  have hstep : ((warnUnit u t s).unit u).step = (s.unit u).step := (congrArg (fun p => p.2.2.2) hth :)
  have hhot : ((warnUnit u t s).unit u).hotFrom = (s.unit u).hotFrom := (congrArg Prod.fst hth :)
  have hcool : ((warnUnit u t s).unit u).coolFrom = (s.unit u).coolFrom := (congrArg (fun p => p.2.1) hth :)
  have hfollow : ((followUnit u t s).unit u).throttling = throttled t s.time (s.unit u) := by
    unfold followUnit throttleTimers countThrottle
    dsimp only
    generalize warnUnit u t s = w at *
    rw [notePrivileged_resting u _ (ThermOnly.resting (thermOnly_modUnit ..) hrest)]
    rw [unit_modUnit _ _ _ (by rw [modUnit_nUnits, modUnit_nUnits, hlen]; exact hu),
      unit_modUnit _ _ _ (by rw [modUnit_nUnits, hlen]; exact hu), unit_modUnit _ _ _ (hlen.symm ▸ hu)]
    unfold Unit'.throttling throttled
    simp only [hthrottle, hhyst, hk, hstep, hhot, hcool]
    rw [← htime]
    rfl
  unfold weighUnit
  split
  · exact hfollow
  · refine Eq.trans (unit_of_map _ (map_modAt _ _ _ _ fun x => ?_) u) hfollow
    (repeat' split) <;> rfl

/-- While nothing is active a comparison of another unit leaves this one, and nothing becomes active. -/
theorem compareUnit_resting (u k : Nat) (s : State) (hr : Resting s) (hk : k ≠ u) :
    Resting (compareUnit k s) ∧ (compareUnit k s).unit u = s.unit u := by
  cases ht : unitTemp s k with
  | none => rw [compareUnit_none k s ht]; exact ⟨hr, rfl⟩
  | some t =>
    have hweigh := (weighs_weighUnit k t s).only.resting hr
    have hsame : (weighUnit k t s).unit u = s.unit u := by
      have hmod (f : Unit' → Unit') (w : State) : (w.modUnit k f).unit u = w.unit u := unit_modUnit_ne _ _ _ _ hk.symm
      have hwarn : (warnUnit k t s).unit u = s.unit u := by
        unfold warnUnit
        (repeat' split)
        · exact hmod _ _
        · rfl
        · exact hmod _ _
        · rfl
      have hfollow : (followUnit k t s).unit u = s.unit u := by
        unfold followUnit throttleTimers countThrottle
        dsimp only
        rw [notePrivileged_resting k _ (ThermOnly.resting (thermOnly_modUnit ..) ((weighs_warnUnit k t s).only.resting hr)),
          hmod, hmod, hmod, hwarn]
      unfold weighUnit
      split
      · exact hfollow
      · exact (hmod _ _).trans hfollow
    have htrip (source : Nat) : Resting (tripUnit k source (weighUnit k t s)) ∧
        (tripUnit k source (weighUnit k t s)).unit u = s.unit u := by
      obtain ⟨hrest, htherm⟩ := tripUnit_resting k source (weighUnit k t s) hweigh
      exact ⟨hrest, (unit_congr htherm u).trans ((unit_modUnit_ne _ _ _ _ hk.symm).trans hsame)⟩
    rw [compareUnit_some k t s ht]
    (repeat' split)
    · exact ⟨hweigh, hsame⟩
    · exact htrip _
    · exact htrip _
    · exact ⟨hweigh, hsame⟩

/-- While nothing is active the throttle of a compared unit follows its one sensor of the die. -/
theorem compareUnit_throttles (u i : Nat) (s : State) (hr : Resting s) (hu : u < s.therm.units.length) (h16 : i < 16)
    (hi : (s.unit u).sensors = [i]) :
    Resting (compareUnit u s) ∧ ((compareUnit u s).unit u).throttling = throttled (s.sensor i).read s.time (s.unit u) := by
  obtain ⟨ht, -⟩ := unitTemp_single s u i hi h16
  have hweigh := (weighs_weighUnit u (s.sensor i).read s).only.resting hr
  have hthrottle := weighUnit_throttles u (s.sensor i).read s hu hr
  have htrip (source : Nat) : Resting (tripUnit u source (weighUnit u (s.sensor i).read s)) ∧
      ((tripUnit u source (weighUnit u (s.sensor i).read s)).unit u).throttling
        = throttled (s.sensor i).read s.time (s.unit u) := by
    obtain ⟨hrest, htherm⟩ := tripUnit_resting u source (weighUnit u (s.sensor i).read s) hweigh
    refine ⟨hrest, ?_⟩
    rw [unit_congr htherm u, ← hthrottle]
    refine unit_of_map Unit'.throttling (map_modAt _ _ _ _ ?_) u
    exact fun _ => rfl
  rw [compareUnit_some u _ s ht]
  (repeat' split)
  · exact ⟨hweigh, hthrottle⟩
  · exact htrip _
  · exact htrip _
  · exact ⟨hweigh, hthrottle⟩

theorem takeReading_throttles (i u : Nat) (v : Int) (s : State) (hsensors : s.therm.sensors.length = 72)
    (hunits : s.therm.units.length = 40) (h16 : i < 16) (hforced : (s.sensor i).forced = none) (hu : u < 40)
    (hconf : (s.unit u).configured = true) (hwait : (s.unit u).waiting = none) (hi : (s.unit u).sensors = [i]) (hv : v < 1020)
    (hr : Resting s) :
    ((takeReading i v (1020 ≤ v) s).unit u).throttling = throttled v s.time (s.unit u) := by
  rw [takeReading_eq]
  generalize hs2 : configureUnits i (sensed i v (1020 ≤ v) s) = s2
  obtain ⟨hread, -, hunit, hlen, hframe⟩ := sensed_configured i u v s hsensors h16 hforced hv hwait s2 hs2.symm
  have htime : s2.time = s.time := (congrArg State.time hframe :)
  have hr2 : Resting s2 := resting_congr (congrArg State.stations hframe :) (congrArg State.forge hframe :) hr
  have hjudge : ((judgeUnits i s2).unit u).throttling = throttled v s.time (s.unit u) := by
    refine (foldl_own (fun w k => compareUnit k w)
      (fun w => Resting w ∧ w.unit u = s.unit u ∧ Judged (fun _ => ()) u s2 w)
      (fun w => Resting w ∧ (w.unit u).throttling = throttled v s.time (s.unit u)) u
      _ (List.nodup_range.filter _) ?_ ?_ ?_ ?_ s2 ⟨hr2, hunit, Judged.refl s2⟩).2
    · refine List.mem_filter.2 ⟨List.mem_range.2 hu, ?_⟩
      rw [hunit, hconf]
      simp [hi]
    · rintro w k hk ⟨hw, hwu, hj⟩
      obtain ⟨hrest, hsame⟩ := compareUnit_resting u k w hw hk
      exact ⟨hrest, hsame.trans hwu, hj.trans (judged_compareUnit (fun _ _ _ => rfl) u k w (.inl hk))⟩
    · rintro w ⟨hw, hwu, hj⟩
      have hsensor : w.sensor i = s2.sensor i := by unfold State.sensor; rw [hj.sensors]
      have hown := compareUnit_throttles u i w hw (by rw [hj.nUnits, hlen]; omega) h16 (by rw [hwu]; exact hi)
      rw [hsensor, hread, hj.time, htime, hwu] at hown
      exact hown
    · rintro w k hk ⟨hw, hwt⟩
      obtain ⟨hrest, hsame⟩ := compareUnit_resting u k w hw hk
      exact ⟨hrest, by rw [hsame]; exact hwt⟩
  have hclear := unit_of_map _ (clearTrips_map Unit'.throttling (judgeUnits i s2) fun _ => rfl).1 u
  have hfactors := unit_of_map _ (factorsChanged_map Unit'.throttling (clearTrips (judgeUnits i s2)) fun _ _ => rfl) u
  rw [hfactors, hclear, hjudge]

end Sys2Proof.Machine
end

section
/-!
PROOFS. Temperatures (spec/18_thermal.md): the commands of group 0x11, and `TemperaturesAreJudged`.
-/
namespace Sys2Proof.Machine

open Sys2Proof

/-! ### Readings that do not come (R412) -/

theorem sensorBreaks (i : Nat) (s t : State) (hi : i < s.therm.sensors.length) (hforced : (s.sensor i).forced = none)
    (ht : t = takeReading i 1020 true s) : (t.sensor i).broken = true ∧ (t.sensor i).read = 1020 := by
  have hsensor := takeReading_sensor i 1020 true s hi hforced
  rw [← ht] at hsensor
  obtain ⟨-, hbroken, -, -⟩ := hsensor
  exact ⟨hbroken, by rw [Sensor.read, hbroken]; rfl⟩

theorem execSensorConversionTimeout_die (i : Nat) (s : State) (hlen : s.therm.sensors.length = 72)
    (hforced : (s.sensor i).forced = none) (h16 : i < 16) :
    ∃ t, exec (.sensorConversionTimeout i) s = .next t ∧ (t.sensor i).broken = true ∧ (t.sensor i).read = 1020 := by
  change ∃ t, execSensorConversionTimeout i s = _ ∧ _
  unfold execSensorConversionTimeout
  rw [if_pos h16]
  exact ⟨_, rfl, sensorBreaks i s _ (by omega) hforced rfl⟩

theorem execSensorConversionTimeout_other (i : Nat) (s : State) (h16 : 16 ≤ i) :
    exec (.sensorConversionTimeout i) s = .next s := by
  change execSensorConversionTimeout i s = _
  unfold execSensorConversionTimeout
  rw [if_neg (by omega)]

theorem execRemoteReadingStale_up (i : Nat) (s : State) (hlen : s.therm.sensors.length = 72)
    (hforced : (s.sensor i).forced = none) (h16 : 16 ≤ i) (h40 : i < 40) (hpresent : sensorAbsent s i = false) :
    ∃ t, exec (.remoteReadingStale i) s = .next t ∧ (t.sensor i).broken = true ∧ (t.sensor i).read = 1020 := by
  have htherm : (s.advanceTo ((s.link (i - 16)).telemAt.toNat + ticksPerMs + 1)).therm = s.therm :=
    (congrArg State.therm (advanceTo_frame s _) :)
  change ∃ t, execRemoteReadingStale i s = _ ∧ _
  unfold execRemoteReadingStale
  rw [if_neg (by simp [h16, h40, hpresent])]
  refine ⟨_, rfl, sensorBreaks i _ _ ?_ ?_ rfl⟩
  · rw [htherm]; omega
  · unfold State.sensor
    rw [htherm]
    exact hforced

theorem execRemoteReadingStale_other (i : Nat) (s : State) (h : i < 16 ∨ 40 ≤ i ∨ sensorAbsent s i = true) :
    exec (.remoteReadingStale i) s = .next s := by
  change execRemoteReadingStale i s = _
  unfold execRemoteReadingStale
  refine if_pos ?_
  rcases h with h | h | h
  · simp [not_le.2 h]
  · simp [not_lt.2 h]
  · simp [h]

/-! ### The throttle's steps (R420) -/

/-- A step of the throttle, seen after the factors that follow it. -/
theorem factorsChanged_step (u : Nat) (f : Unit' → Unit') (s : State) (hu : u < s.therm.units.length) :
    { (factorsChanged (s.modUnit u f)).unit u with lastFactor := 0 } = { f (s.unit u) with lastFactor := 0 } ∧
      (factorsChanged (s.modUnit u f)).time = s.time := by
  have hmap := unit_of_map _ (factorsChanged_map (fun x => { x with lastFactor := 0 }) (s.modUnit u f) fun _ _ => rfl) u
  rw [unit_modUnit _ _ _ hu] at hmap
  exact ⟨hmap, (congrArg State.time (weighs_factorsChanged (s.modUnit u f)).only.frame :)⟩

theorem advanceTo_therm (s : State) (t : Nat) : (s.advanceTo t).therm = s.therm :=
  (congrArg State.therm (advanceTo_frame s t) :)

theorem execThrottleStepDown_hot (u : Nat) (since : BitVec 64) (s : State) (hu : u < s.therm.units.length)
    (hconf : (s.unit u).configured = true) (hpriv : privileged s u = false) (hhot : (s.unit u).hotFrom = some since)
    (hstep : (s.unit u).nMin < (s.unit u).step) (down : BitVec 64) (hdown : down = since + BitVec.ofNat 64 (10 * ticksPerMs)) :
    ∃ t, exec (.throttleStepDown u) s = .next t ∧ t.time = (s.advanceTo down.toNat).time ∧
      (t.unit u).step = (s.unit u).step - 1 ∧ (t.unit u).hotFrom = some down := by
  have htherm := advanceTo_therm s down.toNat
  have hunit := unit_congr htherm u
  change ∃ t, execThrottleStepDown u s = _ ∧ _
  unfold execThrottleStepDown
  simp only [hhot]
  rw [if_pos (by simp [hconf, hpriv, hstep]), ← hdown]
  obtain ⟨hstepped, htime⟩ := factorsChanged_step u (fun x => { x with step := x.step - 1, hotFrom := some down })
    (s.advanceTo down.toNat) (htherm ▸ hu)
  rw [hunit] at hstepped
  exact ⟨_, rfl, htime, (congrArg Unit'.step hstepped :), (congrArg Unit'.hotFrom hstepped :)⟩

theorem execThrottleStepUp_cool (u : Nat) (since : BitVec 64) (s : State) (hu : u < s.therm.units.length)
    (hconf : (s.unit u).configured = true) (hpriv : privileged s u = false) (hcool : (s.unit u).coolFrom = some since)
    (hstep : (s.unit u).step < 16) (up : BitVec 64) (hup : up = since + BitVec.ofNat 64 (100 * ticksPerMs)) :
    ∃ t, exec (.throttleStepUp u) s = .next t ∧ t.time = (s.advanceTo up.toNat).time ∧
      (t.unit u).step = (s.unit u).step + 1 ∧ (t.unit u).coolFrom = some up := by
  have htherm := advanceTo_therm s up.toNat
  have hunit := unit_congr htherm u
  change ∃ t, execThrottleStepUp u s = _ ∧ _
  unfold execThrottleStepUp
  simp only [hcool]
  rw [if_pos (by simp [hconf, hpriv, hstep]), ← hup]
  obtain ⟨hstepped, htime⟩ := factorsChanged_step u (fun x => { x with step := x.step + 1, coolFrom := some up })
    (s.advanceTo up.toNat) (htherm ▸ hu)
  rw [hunit] at hstepped
  exact ⟨_, rfl, htime, (congrArg Unit'.step hstepped :), (congrArg Unit'.coolFrom hstepped :)⟩

theorem execThrottleStepDown_void (u : Nat) (s : State) (h : (s.unit u).hotFrom = none ∨ (s.unit u).step ≤ (s.unit u).nMin ∨
    (s.unit u).configured = false ∨ privileged s u = true) : exec (.throttleStepDown u) s = .next s := by
  change execThrottleStepDown u s = _
  unfold execThrottleStepDown
  dsimp only
  split
  · next t ht =>
    refine if_neg ?_
    rcases h with h | h | h | h
    · rw [h] at ht; cases ht
    · simp [not_lt.2 h]
    · simp [h]
    · simp [h]
  · rfl

theorem execThrottleStepUp_void (u : Nat) (s : State) (h : (s.unit u).coolFrom = none ∨ 16 ≤ (s.unit u).step ∨
    (s.unit u).configured = false ∨ privileged s u = true) : exec (.throttleStepUp u) s = .next s := by
  change execThrottleStepUp u s = _
  unfold execThrottleStepUp
  dsimp only
  split
  · next t ht =>
    refine if_neg ?_
    rcases h with h | h | h | h
    · rw [h] at ht; cases ht
    · simp [not_lt.2 h]
    · simp [h]
    · simp [h]
  · rfl

theorem propFactor_bounds (k : Nat) (throttle temp : Int) : 512 ≤ propFactor k throttle temp ∧
    propFactor k throttle temp ≤ 1024 ∧ (temp ≤ throttle → propFactor k throttle temp = 1024) := by
  unfold propFactor
  refine ⟨le_max_left _ _, max_le (by decide) (Nat.sub_le _ _), fun h => ?_⟩
  have hzero : (temp - throttle).toNat = 0 := by omega
  rw [hzero, Nat.mul_zero]
  rfl

/-- At a table point nothing is interpolated (R414). -/
theorem thermistorTemp_point (x : Thermistor) (k : Nat) (hk : k ≤ 31) : thermistorTemp x (128 * k) = at' x.table k 0 := by
  have hi : min 31 (128 * k / 128) = k := by omega
  have hz : ((128 * k : Nat) : Int) - 128 * (k : Int) = 0 := by omega
  unfold thermistorTemp
  simp only [hi, hz, Int.mul_zero]
  rw [if_pos (le_refl _)]
  simp [openDiv]

/-! ### Commands -/

/-- The sensors that a thermal.unit.config names. -/
def namedSensors (rq : Req) : List Nat := (((List.range 8).map fun k => rq.u8 (4 + k)).take (rq.u8 1)).filter (· ≠ 0xFF)

theorem namedSensors_lt (rq : Req) (h8 : rq.u8 1 ≤ 8) (h : ∀ k, k < rq.u8 1 → rq.u8 (4 + k) < 16 ∨ rq.u8 (4 + k) = 0xFF)
    (i : Nat) (hi : i ∈ namedSensors rq) : i < 16 := by
  obtain ⟨hmem, hne⟩ := List.mem_filter.1 hi
  obtain ⟨k, hk, rfl⟩ := List.getElem_of_mem hmem
  simp only [List.length_take, List.length_map, List.length_range] at hk
  simp only [List.getElem_take, List.getElem_map, List.getElem_range, ne_eq, decide_eq_true_eq] at hne ⊢
  exact (h k (by omega)).resolve_right hne

theorem execThermalUnitConfig_served (rq : Req) (s : State) (hs : served 0x1101 rq s = true)
    (hexists : unitExists s (rq.u8 0) = true) (h8 : rq.u8 1 ≤ 8) (hn : 1 ≤ rq.u8 2) (hn' : rq.u8 2 ≤ 16)
    (hwarn : rq.i16 12 < rq.i16 14) (hthrottle : rq.i16 14 < rq.i16 16)
    (hsensors : ∀ i ∈ (if rq.u8 0 = 0 then List.range 16 else namedSensors rq), (rq.u8 0 ≠ 0 → 16 ≤ i) ∧ i < 72)
    (hnamed : rq.u8 0 = 0 → ∀ k, k < rq.u8 1 → rq.u8 (4 + k) < 16 ∨ rq.u8 (4 + k) = 0xFF)
    (htrip : rq.u8 0 = 0 → rq.i16 16 ≤ 520) (hhyst : 4 ≤ rq.u8 18) (hhyst' : rq.u8 18 ≤ 80) (hrate : 10 ≤ rq.u16 20)
    (hrate' : rq.u16 20 ≤ 5000) (hpriv : privileged s (rq.u8 0) = false) :
    exec (.thermalUnitConfig rq) s = .next (respond rq 0x1101 Status.ok [] (s.modUnit (rq.u8 0) fun x =>
      { x with waiting := some
                 { sensors := if rq.u8 0 = 0 then List.range 16 else namedSensors rq, nMin := rq.u8 2, k := rq.u8 3,
                   warn := rq.i16 12, throttle := rq.i16 14, trip := rq.i16 16, hyst := rq.u8 18, rate := rq.u16 20 } })) := by
  have hbelow : (decide (rq.u8 0 ≠ 0) && (if rq.u8 0 = 0 then List.range 16 else namedSensors rq).any fun i => i < 16) = false := by
    rw [Bool.and_eq_false_imp, List.any_eq_false]
    intro hu i hi
    have := (hsensors i hi).1 (of_decide_eq_true hu)
    simpa using this
  have hothers : (decide (rq.u8 0 = 0) && (namedSensors rq).any fun i => 16 ≤ i) = false := by
    rw [Bool.and_eq_false_imp, List.any_eq_false]
    intro hu i hi
    have := namedSensors_lt rq h8 (hnamed (of_decide_eq_true hu)) i hi
    simpa using this
  have hbeyond : ((if rq.u8 0 = 0 then List.range 16 else namedSensors rq).any fun i => 72 ≤ i) = false := by
    rw [List.any_eq_false]
    intro i hi
    have := (hsensors i hi).2
    simpa using this
  have hhot : (decide (rq.u8 0 = 0) && decide (520 < rq.i16 16)) = false := by
    rw [Bool.and_eq_false_imp]
    intro hu
    have := htrip (of_decide_eq_true hu)
    simpa using this
  change execThermalUnitConfig rq s = _
  unfold execThermalUnitConfig
  refine command_pass 0x1101 rq _ _ s hs ?_
  simp only [List.forall_mem_cons]
  refine ⟨by simp [hexists], ?_, hpriv, List.forall_mem_nil _⟩
  rw [namedSensors] at hbelow hothers hbeyond
  rw [hbelow, hothers, hbeyond, hhot]
  simp only [hwarn, hthrottle, Bool.or_eq_false_iff, decide_eq_false_iff_not, decide_true,
    Bool.and_self, Bool.not_true, and_true]
  omega

theorem execThermalThermistorConfig_served (rq : Req) (s : State) (hs : served 0x1102 rq s = true) (ha : rq.u8 0 < 32)
    (hlo : rq.u16 2 ≤ rq.u16 4) (hhi : rq.u16 4 ≤ 4095) :
    exec (.thermalThermistorConfig rq) s = .next (respond rq 0x1102 Status.ok []
      { s with therm := { s.therm with thermistors := modAt s.therm.thermistors (rq.u8 0) fun _ =>
        { openMin := rq.u16 2, shortMax := rq.u16 4, table := (List.range 33).map fun i => rq.i16 (8 + 2 * i) } } }) := by
  change execThermalThermistorConfig rq s = _
  unfold execThermalThermistorConfig
  exact command_pass 0x1102 rq _ _ s hs (by simp [ha, hlo, hhi])

theorem execThermalStatus_reply (rq : Req) (s : State) (hs : served 0x1103 rq s = true) (hu : unitExists s (rq.u8 0) = true) :
    ∃ p, exec (.thermalStatus rq) s = .next (respond rq 0x1103 Status.ok p s) ∧ p.length = 16 ∧
      leAt p 8 4 = (s.unit (rq.u8 0)).throttleMs.n ∧ leAt p 12 4 = (s.unit (rq.u8 0)).trips.n := by
  change ∃ p, execThermalStatus rq s = _ ∧ _
  unfold execThermalStatus
  refine ⟨_, command_pass 0x1103 rq _ _ s hs (by simp [hu]), by simp [leBytesI], ?_, ?_⟩
  all_goals
    simp only [List.append_assoc, leBytesI]
    simp [leAt_left, leAt_right, leAt_count]

theorem execThermalSensorForce_served (rq : Req) (s : State) (hs : served 0x1180 rq s = true) (hi : rq.u8 0 < 72)
    (hpages : ∀ i, i < 4 → pageActive s i = false) (hlayer : layerActive s = false) :
    exec (.thermalSensorForce rq) s = .next (respond rq 0x1180 Status.ok []
      { s with therm := { s.therm with sensors := modAt s.therm.sensors (rq.u8 0) fun x =>
        { x with forced := if rq.u8 1 = 0 then none else some (rq.i16 2) } } }) := by
  have hnone : (List.range 4).any (pageActive s) = false := by
    rw [List.any_eq_false]
    intro i hi
    simp [hpages i (List.mem_range.1 hi)]
  change execThermalSensorForce rq s = _
  unfold execThermalSensorForce
  exact command_pass 0x1180 rq _ _ s hs (by simp [hi, hnone, hlayer])

/-- Settles O48: a reading changes its sensor and is then judged unit by unit; a trip of one unit reaches another unit's
throttle alone, and while nothing is active not even that. -/
theorem temperaturesAreJudged : Obligations.TemperaturesAreJudged := by
  unfold Obligations.TemperaturesAreJudged
  refine ⟨?_, execSensorReading_beyond, ?_, ?_, ?_, ?_, ?_, fun u s => ⟨execThrottleStepDown_void u s, execThrottleStepUp_void u s⟩,
    propFactor_bounds, thermistorTemp_point, ?_, execThermalThermistorConfig_served, execThermalStatus_reply,
    execThermalSensorForce_served⟩
  · intro i v s hlen h16 hforced
    exact ⟨_, execSensorReading_die i v s h16, takeReading_sensor i v _ s (by omega) hforced⟩
  · intro i u v s hsensors hunits hlinks h16 hforced hu hconf hwait hi htripped hhot hv
    obtain ⟨htrip, hn⟩ := takeReading_trips i u v s hsensors hunits hlinks h16 hforced hu hconf hwait hi htripped hhot hv
    exact ⟨_, execSensorReading_die i v s h16, htrip.tripped, htrip.trips, fun l hl hln => htrip.gated l hl (hn.symm ▸ hln)⟩
  · intro i s hlen hforced
    exact ⟨execSensorConversionTimeout_die i s hlen hforced, execSensorConversionTimeout_other i s,
      execRemoteReadingStale_up i s hlen hforced, execRemoteReadingStale_other i s⟩
  · intro i u v s hsensors hunits h16 hforced hu hconf hwait hi hv hpages hlayer
    have h := takeReading_throttles i u v s hsensors hunits h16 hforced hu hconf hwait hi hv ⟨hpages, hlayer⟩
    have hexec := execSensorReading_die i v s h16
    generalize takeReading i v (1020 ≤ v) s = t at h hexec
    exact ⟨t, hexec, (congrArg (fun p => p.1) h :), (congrArg (fun p => p.2.1) h :),
      (congrArg (fun p => p.2.2.1) h :), (congrArg (fun p => p.2.2.2) h :)⟩
  · intro i u v c s hsensors hunits h16 hforced hu hwait hi
    obtain ⟨now, h⟩ := takeReading_configures i u v (1020 ≤ v) c s hunits hu hwait hi
    have hexec := execSensorReading_die i v s h16
    generalize takeReading i v (1020 ≤ v) s = t at h hexec
    exact ⟨t, hexec, (congrArg Unit'.waiting h :), (congrArg Unit'.configured h :),
      (congrArg Unit'.sensors h :), (congrArg Unit'.nMin h :), (congrArg Unit'.k h :), (congrArg Unit'.warn h :),
      (congrArg Unit'.throttle h :), (congrArg Unit'.trip h :), (congrArg Unit'.hyst h :), (congrArg Unit'.rate h :)⟩
  · intro u since s hu hconf hpriv down up
    exact ⟨fun hhot hstep => execThrottleStepDown_hot u since s hu hconf hpriv hhot hstep down rfl,
      fun hcool hstep => execThrottleStepUp_cool u since s hu hconf hpriv hcool hstep up rfl⟩
  · intro rq s hs u sensors
    exact execThermalUnitConfig_served rq s hs

end Sys2Proof.Machine
end

section
/-!
PROOFS. Beam links train and are mapped (spec/04_lanes_and_links.md): `LinksTrain`.
-/
namespace Sys2Proof.Machine

open Sys2Proof

theorem modLink_congr (s : State) (l : Nat) (f g : Link → Link) (h : f (s.link l) = g (s.link l)) :
    s.modLink l f = s.modLink l g := by
  unfold State.modLink
  rw [modAt_congr s.links l f g {} h]

theorem modLink_nLinks (s : State) (l : Nat) (f : Link → Link) : (s.modLink l f).nLinks = s.nLinks := by
  have hpart : (s.modLink l f).part = s.part := (congrArg State.part (modLink_frame s l f) :)
  unfold State.nLinks
  rw [hpart]

theorem modLink_deviceNo (s : State) (l : Nat) (f : Link → Link) : (s.modLink l f).deviceNo = s.deviceNo := by
  have hpart : (s.modLink l f).part = s.part := (congrArg State.part (modLink_frame s l f) :)
  unfold State.deviceNo
  rw [hpart]

theorem modLink_length (s : State) (l : Nat) (f : Link → Link) : (s.modLink l f).links.length = s.links.length := by
  unfold State.modLink
  split
  · exact length_modAt ..
  · rfl

/-! ### link.config -/

theorem execLinkConfig_starts (rq : Req) (s : State) (hs : served 0x0302 rq s = true) (hl : rq.u8 0 < s.nLinks)
    (hon : rq.u8 1 = 1) (hblp : rq.u8 2 = 1 ∨ rq.u8 2 = 2) (hlead : rq.u8 3 = 0 ∨ (10 ≤ rq.u8 3 ∧ rq.u8 3 ≤ 80))
    (hoff : (s.link (rq.u8 0)).st = .off) (hfence : fenced s 0x0062 (rq.u8 0) = false)
    (hfence' : fenced s 0x0063 (rq.u8 0) = false) (hactive : linkActive s (rq.u8 0) = false) :
    ∃ u, exec (.linkConfig rq) s = .next (accept rq 0x0302 [] (startTraining (rq.u8 0) (some (rq.ctx u 0x0302))
        (u.modLink (rq.u8 0) fun x => { x with retries := 0 }))) ∧
      u = txStart (rq.u8 0) (s.modLink (rq.u8 0) fun x =>
        { x with blpMax := rq.u8 2, lead := if rq.u8 3 = 0 then 20 else rq.u8 3, trim := rq.i16 4 }) := by
  have hcongr : (s.modLink (rq.u8 0) fun x => { x with
      blpMax := rq.u8 2, lead := if rq.u8 3 = 0 then 20 else rq.u8 3, trim := rq.i16 4,
      d := if x.st = .up then (s.link (rq.u8 0)).compensation (rq.i16 4) (s.link (rq.u8 0)).dOverride else x.d })
      = s.modLink (rq.u8 0) fun x =>
        { x with blpMax := rq.u8 2, lead := if rq.u8 3 = 0 then 20 else rq.u8 3, trim := rq.i16 4 } :=
    modLink_congr s _ _ _ (by rw [hoff]; rfl)
  refine ⟨_, ?_, rfl⟩
  change execLinkConfig rq s = _
  unfold execLinkConfig
  refine (command_pass 0x0302 rq _ _ s hs ?_).trans ?_
  · have hleads : ¬ (if rq.u8 3 = 0 then 20 else rq.u8 3) < 10 ∧ ¬ 80 < (if rq.u8 3 = 0 then 20 else rq.u8 3) := by
      split <;> omega
    simp only [List.forall_mem_cons]
    refine ⟨by simp [hl], ?_, by simp [hfence, hfence'], hactive, List.forall_mem_nil _⟩
    rcases hblp with hblp | hblp <;> simp [hon, hblp, hoff, hleads.1, hleads.2]
  · dsimp only
    rw [if_pos (by rw [hon, hoff]; rfl), hcongr]

/-! ### Training (R129) -/

theorem execCommaLock_locked (l : Nat) (s : State) (hl : l < s.nLinks) (hst : (s.link l).st = .training)
    (hstep : (s.link l).step = 1) :
    exec (.commaLock l) s = .next (sendCtl l 1 (3 * 2 ^ 32 + l * 2 ^ 24 + s.deviceNo * 2 ^ 8)
      (s.modLink l fun x => { x with step := 3 })) := by
  change execCommaLock l s = _
  unfold execCommaLock
  dsimp only
  rw [if_pos (by simp [hl, hst, hstep]), modLink_deviceNo]

theorem execCapReplyReceive_chosen (l : Nat) (payload : List Byte) (s : State) (hl : l < s.nLinks)
    (hst : (s.link l).st = .training) (hstep : (s.link l).step = 3) (hbuf : 512 ≤ leAt payload 1 2)
    (hv : commonVersion (leAt payload 0 1) (s.link l).blpMax ≠ 0) :
    exec (.capReplyReceive l payload) s = .next (sendCtl l 5 (commonVersion (leAt payload 0 1) (s.link l).blpMax * 2 ^ 32)
      ((s.modLink l fun x => { x with bufDepth := leAt payload 1 2, partnerDelay := leAt payload 3 2,
                                      turnaround := leAt payload 5 2 }).modLink l fun x =>
        { x with version := commonVersion (leAt payload 0 1) (s.link l).blpMax, step := 4 })) := by
  change execCapReplyReceive l payload s = _
  unfold execCapReplyReceive
  dsimp only
  rw [if_neg (by simp [hl, hst, hstep]), if_neg (not_lt.2 hbuf), if_neg hv]

theorem execAckReceive_version (l : Nat) (payload : BitVec 40) (s : State) (hl : l < s.nLinks) (hdeaf : (s.link l).deaf = false)
    (hwait : (5, payload) ∈ (s.link l).ackWait) (hst : (s.link l).st = .training) (hstep : (s.link l).step = 4) :
    exec (.ackReceive l 5 payload) s = .next
      (if (s.link l).version = 2 then
        sendProbes l ((s.modLink l fun x => { x with ackWait := x.ackWait.erase (5, payload) }).modLink l fun x =>
          { x with step := 5 })
       else finishTraining l (s.modLink l fun x => { x with ackWait := x.ackWait.erase (5, payload) })) := by
  have hsent : (s.link l).ackWait.contains (5, payload) = true := List.contains_iff_mem.2 hwait
  change execAckReceive l 5 payload s = _
  unfold execAckReceive
  dsimp only
  rw [if_neg (by simp [hl, hdeaf]), hsent, if_neg (by decide), if_pos (by simp [hst, hstep])]
  split <;> rfl

/-- A link that comes up at a device time (R129, step 6). -/
def Link.cameUp (now : BitVec 64) (x : Link) : Link :=
  { x with st := .up, step := 0, retries := 0, telemAt := now, telemMiss := 0, emitOk := 0xFF,
           lanes := x.lanes.map LaneTx.restart, temp := none, ctx := none, winCount := 0,
           resyncTimes := [], swing := (x.rawNext.map (·.1)).getD x.swing, deemph := (x.rawNext.map (·.2)).getD x.deemph,
           rawNext := none, causes := x.causes &&& ~~~(1#7 <<< 6) }

theorem sendGate_sent (l : Nat) (s : State) (k : Nat) :
    { (sendGate l s).link k with tx := (s.link k).tx, ackWait := (s.link k).ackWait } = s.link k := by
  unfold sendGate
  split
  · exact sendCtl_sent l 3 _ s k
  · rfl

/-- A link whose compensation and LEAD hold comes up: D is in force and cause 6 is gone. -/
theorem finishTraining_up (l : Nat) (s : State) (hlen : s.links.length = 24) (hl : l < s.nLinks)
    (hd : dOk ((s.link l).compensation (s.link l).trim (s.link l).dOverride) = true)
    (hlead : leadOk (s.link l).lead (s.link l).bufDepth = true) :
    ((finishTraining l s).link l).st = .up ∧
      ((finishTraining l s).link l).d = (s.link l).compensation (s.link l).trim (s.link l).dOverride ∧
      ((finishTraining l s).link l).oneWay = (s.link l).oneWay ∧
      ((finishTraining l s).link l).causes = (s.link l).causes &&& ~~~(1#7 <<< 6) := by
  have hl24 : l < 24 := lt_of_lt_of_le hl (nLinks_le s)
  have hset := State.modLink_same s l (fun x => { x with d := (s.link l).compensation (s.link l).trim (s.link l).dOverride })
    (hlen.symm ▸ hl24) hl
  have hn := modLink_nLinks s l (fun x => { x with d := (s.link l).compensation (s.link l).trim (s.link l).dOverride })
  have hk := modLink_length s l (fun x => { x with d := (s.link l).compensation (s.link l).trim (s.link l).dOverride })
  unfold finishTraining
  dsimp only
  generalize (s.modLink l fun x => { x with d := (s.link l).compensation (s.link l).trim (s.link l).dOverride }) = u at *
  rw [hset, if_neg (by simp [hd, hlead])]
  have hsync := sendCtl_sent l 2 (u.time.toNat % 2 ^ 40) u l
  have hgates := gates_sendCtl l 2 (u.time.toNat % 2 ^ 40) u
  generalize sendCtl l 2 (u.time.toNat % 2 ^ 40) u = v at *
  rw [hset] at hsync
  have hcauses : (v.link l).causes = (s.link l).causes := (congrArg Link.causes hsync :)
  have hd' : (v.link l).d = (s.link l).compensation (s.link l).trim (s.link l).dOverride := (congrArg Link.d hsync :)
  have hway : (v.link l).oneWay = (s.link l).oneWay := (congrArg Link.oneWay hsync :)
  have hup := State.modLink_same v l (Link.cameUp v.time) (by rw [hgates.2.1, hk, hlen]; exact hl24)
    (by rw [hgates.nLinks, hn]; exact hl)
  have hlast (t : State) (ht : t.links = (sendGate l (v.modLink l (Link.cameUp v.time))).links) :
      { t.link l with tx := [], ackWait := [] } = { (v.link l).cameUp v.time with tx := [], ackWait := [] } := by
    have hgate := sendGate_sent l (v.modLink l (Link.cameUp v.time)) l
    rw [hup] at hgate
    unfold State.link at hgate ⊢
    rw [ht]
    exact congrArg (fun x : Link => { x with tx := [], ackWait := [] }) hgate
  have hview (t : State) (ht : t.links = (sendGate l (v.modLink l (Link.cameUp v.time))).links) :
      (t.link l).st = .up ∧ (t.link l).d = (s.link l).compensation (s.link l).trim (s.link l).dOverride ∧
        (t.link l).oneWay = (s.link l).oneWay ∧ (t.link l).causes = (s.link l).causes &&& ~~~(1#7 <<< 6) :=
    ⟨(congrArg Link.st (hlast t ht) :), (congrArg Link.d (hlast t ht)).trans hd', (congrArg Link.oneWay (hlast t ht)).trans hway,
      (congrArg Link.causes (hlast t ht)).trans (congrArg (· &&& ~~~(1#7 <<< 6)) hcauses)⟩
  split
  · exact hview _ (congrArg State.links (complete_frame ..) :)
  · exact hview _ rfl

theorem execProbeEchoReceive_last (l : Nat) (payload : BitVec 40) (roundTrip : Nat) (s : State) (hlen : s.links.length = 24)
    (hl : l < s.nLinks) (hdeaf : (s.link l).deaf = false) (hst : (s.link l).st = .training) (hstep : (s.link l).step = 5)
    (hver : (s.link l).version = 2)
    (hsent : ∃ b ∈ (s.link l).tx, b.1 = true ∧ b.2.toNat / 2 ^ 16 = 6 * 2 ^ 40 + payload.toNat)
    (hprobes : (s.link l).probes.length = 15) (hover : (s.link l).dOverride = none) (oneWay d : Int)
    (hway : oneWay = openDivI (((((s.link l).probes.sum + roundTrip : Nat) : Int)) - 16 * (s.link l).turnaround) 32)
    (hd : d = oneWay + (s.link l).partnerDelay + (s.link l).trim) (hok : dOk d = true)
    (hlead : leadOk (s.link l).lead (s.link l).bufDepth = true) :
    ∃ t, exec (.probeEchoReceive l payload roundTrip) s = .next t ∧ (t.link l).st = .up ∧ (t.link l).d = d ∧
      (t.link l).oneWay = oneWay ∧ (t.link l).causes = (s.link l).causes &&& ~~~(1#7 <<< 6) := by
  have hl24 : l < 24 := lt_of_lt_of_le hl (nLinks_le s)
  have hany : ((s.link l).tx.any fun b => b.1 && b.2.toNat / 2 ^ 16 = 6 * 2 ^ 40 + payload.toNat) = true := by
    obtain ⟨b, hb, hb1, hb2⟩ := hsent
    exact List.any_eq_true.2 ⟨b, hb, by rw [hb1, decide_eq_true hb2]; rfl⟩
  have hsum : ((s.link l).probes ++ [roundTrip]).sum = (s.link l).probes.sum + roundTrip := by simp
  change ∃ t, execProbeEchoReceive l payload roundTrip s = _ ∧ _
  unfold execProbeEchoReceive
  dsimp only
  rw [if_neg (by simp [hl, hdeaf]), if_neg (by rw [hver]; decide), if_neg (by simp [hst, hstep]), hany, if_neg (by decide),
    if_neg (by simp [hprobes]), hsum, ← hway]
  have hset := State.modLink_same s l (fun x => { x with probes := (s.link l).probes ++ [roundTrip] }) (hlen.symm ▸ hl24) hl
  have hn := modLink_nLinks s l (fun x => { x with probes := (s.link l).probes ++ [roundTrip] })
  have hk := modLink_length s l (fun x => { x with probes := (s.link l).probes ++ [roundTrip] })
  generalize (s.modLink l fun x => { x with probes := (s.link l).probes ++ [roundTrip] }) = u at *
  have hset' := State.modLink_same u l (fun x => { x with oneWay := oneWay }) (by omega) (by rw [hn]; exact hl)
  have hn' := modLink_nLinks u l (fun x => { x with oneWay := oneWay })
  have hk' := modLink_length u l (fun x => { x with oneWay := oneWay })
  generalize (u.modLink l fun x => { x with oneWay := oneWay }) = v at *
  rw [hset] at hset'
  have hcomp : (v.link l).compensation (v.link l).trim (v.link l).dOverride = d := by
    rw [hset', hd]
    unfold Link.compensation
    simp only [hover]
    exact if_pos hver
  obtain ⟨hup, hdv, hwayv, hcauses⟩ := finishTraining_up l v (by omega) (by omega) (by rw [hcomp]; exact hok)
    (by rw [hset']; exact hlead)
  refine ⟨_, rfl, hup, hdv.trans hcomp, ?_, ?_⟩
  · rw [hwayv, hset']
  · rw [hcauses, hset']

theorem execLinkTrainDeadline_training (l : Nat) (s : State) (hl : l < s.nLinks) (hst : (s.link l).st = .training) :
    exec (.linkTrainDeadline l) s = .next (trainFail l s) := by
  change execLinkTrainDeadline l s = _
  unfold execLinkTrainDeadline
  rw [if_pos (by simp [hl, hst])]

theorem execCapReplyTimeout_waiting (l : Nat) (s : State) (hl : l < s.nLinks) (hst : (s.link l).st = .training)
    (hstep : (s.link l).step = 3) :
    exec (.capReplyTimeout l) s = .next (trainFail l (linkViolation l 0x05 0x01 s)) := by
  change execCapReplyTimeout l s = _
  unfold execCapReplyTimeout
  dsimp only
  rw [if_pos (by simp [hl, hst, hstep])]

theorem execLinkRetrainTimer_down (l : Nat) (s : State) (hl : l < s.nLinks) (hst : (s.link l).st = .down)
    (hwait : (s.link l).retrainWait = true) (hretries : (s.link l).retries < 3) (hen : (s.link l).enabled = true) :
    exec (.linkRetrainTimer l) s =
      .next (startTraining l none (s.modLink l fun x => { x with retries := x.retries + 1 })) := by
  change execLinkRetrainTimer l s = _
  unfold execLinkRetrainTimer
  dsimp only
  rw [if_pos (by simp [hl, hst, hwait, hretries, hen])]

/-! ### lane.map -/

theorem eraseDups_of_nodup {α : Type} [DecidableEq α] (l : List α) (h : l.Nodup) : l.eraseDups = l := by
  induction l with
  | nil => rfl
  | cons a l ih =>
    obtain ⟨ha, hl⟩ := List.nodup_cons.1 h
    have hfilter : (l.filter fun b => !b == a) = l :=
      List.filter_eq_self.2 fun b hb => by simpa using fun hba : b = a => ha (hba ▸ hb)
    rw [List.eraseDups_cons, hfilter, ih hl]

theorem unitsKept_clearCause (cause : Nat) (links : List Nat) (s : State) : UnitsKept s (clearCause cause links s) :=
  unitsKept_foldl _ _ _ fun _ _ => unitsKept_modLink ..

theorem unitsKept_noteExhausted (i : Nat) (before : Bool) (s : State) : UnitsKept s (noteExhausted i before s) := by
  have hmod : UnitsKept s ((s.modStation i fun st => { st with exhausted := true }).modJobs i fun j =>
      if j.st = .active then { j with flags := j.flags ||| jobDamaged } else j) := by
    refine UnitsKept.trans ?_ (unitsKept_modJobs ..)
    exact unitsKept_modStation _ _ _ fun _ => rfl
  unfold noteExhausted
  (repeat' split)
  · exact UnitsKept.refl s
  · exact hmod
  · exact hmod.trans (unitsKept_present ..)

theorem unitsKept_stationCauses (i : Nat) (s : State) : UnitsKept s (stationCauses i s) := by
  have hclock : UnitsKept s (if s.clk.synthGate.getLsbD i then setCause 5 (s.station i).links s else s) := by
    split
    · exact unitsKept_setCause ..
    · exact UnitsKept.refl s
  have htrip (u : State) : UnitsKept u (if (u.unit (i + 1)).tripped then setCause 4 (s.station i).links u else u) := by
    split
    · exact unitsKept_setCause ..
    · exact UnitsKept.refl u
  exact ((hclock.trans (htrip _)).trans (unitsKept_setCause ..)).trans (unitsKept_clearCause ..)

/-- The station that lane.map names, and the others, as far as their links go. -/
theorem execLaneMap_mapped (rq : Req) (s : State) (hs : served 0x0301 rq s = true) (hlen : s.stations.length = 4)
    (hp : s.mci.personality = .press) (hi : rq.u8 0 ≤ 3) (hn : rq.u8 1 ≤ 6) (ls : List Nat)
    (hls : ls = (rq.bytes 4 (rq.u8 1)).map (·.toNat)) (hexist : ∀ l ∈ ls, l < s.nLinks) (hnd : ls.Nodup)
    (hfree : ∀ l ∈ ls, ∀ k, k < 4 → k ≠ rq.u8 0 → l ∉ (s.station k).links) (hpage : pageActive s (rq.u8 0) = false) :
    ∃ t, exec (.laneMap rq) s = .next t ∧ (t.station (rq.u8 0)).links = ls ∧
      (∀ k, k ≠ rq.u8 0 → (t.station k).links = (s.station k).links) := by
  have hmin : min (rq.u8 1) 6 = rq.u8 1 := min_eq_left hn
  change ∃ t, execLaneMap rq s = _ ∧ _
  unfold execLaneMap
  simp only [hmin, ← hls]
  refine ⟨_, commandOf_pass .press 0x0301 rq _ _ s hs hp ?_, ?_⟩
  · simp only [List.forall_mem_cons]
    refine ⟨?_, ?_, hpage, List.forall_mem_nil _⟩
    · simpa [not_lt.2 hi] using hexist
    · have htaken : (ls.any fun l => ((List.range 4).filter (· ≠ rq.u8 0)).any fun k => (s.station k).links.contains l) = false := by
        rw [List.any_eq_false]
        intro l hl
        rw [Bool.not_eq_true, List.any_eq_false]
        intro k hk
        obtain ⟨hk4, hne⟩ := List.mem_filter.1 hk
        simpa using hfree l hl k (List.mem_range.1 hk4) (of_decide_eq_true hne)
      rw [htaken, eraseDups_of_nodup ls hnd]
      simp [not_lt.2 hn]
  · have hgone : UnitsKept s (((s.station (rq.u8 0)).links.filter fun l => !ls.contains l).foldl
        (fun s l => s.modLink l (Link.keepEvents fun _ _ => false)) s) :=
      unitsKept_foldl _ _ _ fun _ _ => unitsKept_modLink ..
    generalize ((s.station (rq.u8 0)).links.filter fun l => !ls.contains l).foldl
        (fun s l => s.modLink l (Link.keepEvents fun _ _ => false)) s = u at *
    have hlen' : u.stations.length = 4 := by
      have := congrArg List.length hgone.stationLinks
      simpa [hlen] using this
    have hset := State.modStation_same u (rq.u8 0) (fun st => { st with
      links := ls, sweeps := if ls = st.links then st.sweeps else [] }) (by omega)
    have hother (k : Nat) (hk : k ≠ rq.u8 0) := State.modStation_ne u (rq.u8 0) (fun st => { st with
      links := ls, sweeps := if ls = st.links then st.sweeps else [] }) k hk.symm
    generalize (u.modStation (rq.u8 0) fun st => { st with
      links := ls, sweeps := if ls = st.links then st.sweeps else [] }) = v at *
    have hrest : UnitsKept v (stationCauses (rq.u8 0) (noteExhausted (rq.u8 0) (deltaExhausted (u.station (rq.u8 0)))
        (clockUngate (emptyStation (rq.u8 0) v)))) :=
      (((unitsKept_emptyStation ..).trans (unitsKept_clearCause ..)).trans (unitsKept_noteExhausted ..)).trans
        (unitsKept_stationCauses ..)
    have hlinks (k : Nat) := links_of_map hrest.stationLinks k
    constructor
    · rw [respond_station, hlinks, hset]
    · intro k hk
      rw [respond_station, hlinks, hother k hk, links_of_map hgone.stationLinks]

theorem execLaneMap_wrong (rq : Req) (s : State) (hs : served 0x0301 rq s = true) (hp : s.mci.personality ≠ .press) :
    ∃ t, exec (.laneMap rq) s = .next t ∧ t.stations = s.stations ∧ t.links = s.links ∧ t.mci.vcount = s.mci.vcount.inc := by
  change ∃ t, execLaneMap rq s = _ ∧ _
  obtain ⟨-, hcount, -, -, hframe⟩ := logViolation_logged 0 rq.mailbox 7 (0x0301 * 65536 + rq.seq.toNat)
    (respond rq 0x0301 Status.wrongPersonality [] s)
  refine ⟨_, commandOf_wrong .press 0x0301 rq _ _ s hs hp, ?_, ?_, ?_⟩
  · exact (congrArg State.stations hframe).trans (congrArg State.stations (respond_frame rq _ _ _ s) :)
  · exact (congrArg State.links hframe).trans (respond_links ..)
  · exact hcount.trans (congrArg (fun m : Mci => m.vcount.inc) (respond_mci_frame rq 0x0301 Status.wrongPersonality [] s) :)

/-! ### link.config.raw and link.status -/

theorem execLinkConfigRaw_served (rq : Req) (s : State) (hs : served 0x0380 rq s = true) (hl : rq.u8 0 < s.nLinks)
    (hswing : rq.u8 1 ≤ 15) (hdeemph : rq.u8 2 ≤ 15) (hd : rq.u32 4 ≤ 1048575) (hactive : linkActive s (rq.u8 0) = false) :
    exec (.linkConfigRaw rq) s = .next (respond rq 0x0380 Status.ok [] (s.modLink (rq.u8 0) fun x =>
      { x with rawNext := some (rq.u8 1, rq.u8 2), dOverride := some (rq.u32 4),
               d := if x.alive then (rq.u32 4 : Int) else x.d })) := by
  have hgiven : ¬ rq.u32 4 = 0xFFFFFFFF := by omega
  have hok : dOk (rq.u32 4 : Int) = true := by unfold dOk; simp; omega
  change execLinkConfigRaw rq s = _
  unfold execLinkConfigRaw
  simp only [hgiven, if_false]
  refine command_pass 0x0380 rq _ _ s hs ?_
  simp only [List.forall_mem_cons]
  refine ⟨by simp [hl], ?_, hactive, List.forall_mem_nil _⟩
  simp [Link.compensation, hok, not_lt.2 hswing, not_lt.2 hdeemph, not_lt.2 hd]

theorem execLinkStatus_reply (rq : Req) (s : State) (hs : served 0x0303 rq s = true) (hl : rq.u8 0 < s.nLinks) :
    ∃ p, exec (.linkStatus rq) s = .next (respond rq 0x0303 Status.ok p s) ∧ p.length = 40 ∧
      leAt p 0 1 = linkStateCode (s.link (rq.u8 0)).st ∧ leAt p 2 1 = (s.link (rq.u8 0)).causeBits ∧
      leAt p 16 4 = (s.link (rq.u8 0)).violations.n ∧ leAt p 24 4 = (s.link (rq.u8 0)).txLate.n ∧
      leAt p 32 4 = (s.link (rq.u8 0)).linkDowns.n := by
  have hcode : linkStateCode (s.link (rq.u8 0)).st < 256 := by cases (s.link (rq.u8 0)).st <;> decide
  have hbits : (s.link (rq.u8 0)).causeBits < 256 := by
    have hcauses := (s.link (rq.u8 0)).causes.isLt
    have hbit : bit (s.link (rq.u8 0)).releasePending ≤ 1 := by cases (s.link (rq.u8 0)).releasePending <;> decide
    unfold Link.causeBits
    omega
  change ∃ p, execLinkStatus rq s = _ ∧ _
  unfold execLinkStatus
  refine ⟨_, command_pass 0x0303 rq _ _ s hs (by simp [hl]), by simp [leBytesI], ?_, ?_, ?_, ?_, ?_⟩
  all_goals
    simp only [List.append_assoc, leBytesI]
    simp [leAt_left, leAt_right, leAt_leBytes, leAt_count]
  · omega
  · omega

theorem execLinkStatus_beyond (rq : Req) (s : State) (hs : served 0x0303 rq s = true) (hl : s.nLinks ≤ rq.u8 0) :
    exec (.linkStatus rq) s = .next (respond rq 0x0303 Status.outOfRange [] s) := by
  change execLinkStatus rq s = _
  unfold execLinkStatus
  exact command_turned_away 0x0303 rq _ _ s true _ hs (by simp [hl])

/-- Settles O14: each step of the training is one operation on its link, and what lane.map does after it has set the links
of its station moves no station's links. -/
theorem linksTrain : Obligations.LinksTrain := by
  unfold Obligations.LinksTrain
  refine ⟨execLinkConfig_starts, execCommaLock_locked, execCapReplyReceive_chosen, execAckReceive_version, ?_,
    execLinkTrainDeadline_training, execCapReplyTimeout_waiting, execLinkRetrainTimer_down, ?_, execLaneMap_wrong,
    execLinkConfigRaw_served, execLinkStatus_reply, execLinkStatus_beyond⟩
  · intro l payload roundTrip s hlen hl hdeaf hst hstep hver hsent hprobes hover x oneWay d hok hlead
    exact execProbeEchoReceive_last l payload roundTrip s hlen hl hdeaf hst hstep hver hsent hprobes hover oneWay d rfl rfl hok
      hlead
  · intro rq s hs hlen hp hi hn ls
    exact execLaneMap_mapped rq s hs hlen hp hi hn ls rfl

end Sys2Proof.Machine
end

section
/-!
PROOFS. The back-channel of a beam link (spec/04_lanes_and_links.md R127, R128, R139 to R141): `BackChannel`.
-/
namespace Sys2Proof.Machine

open Sys2Proof

/-! ### Telemetry (R128) -/

/-- A link as a TELEMETRY message leaves it. -/
def Link.told (payload : List Byte) (now : BitVec 64) (x : Link) : Link :=
  { x with monitors := (List.range 8).map fun k => leAt payload k 1, emitOk := BitVec.ofNat 8 (leAt payload 8 1),
           temp := some (leAtI payload 10 2), headerErrors := leAt payload 14 2, telemAt := now, telemMiss := 0 }

/-- Every lane of a link goes dark until it emits again. -/
def Link.unlit (x : Link) : Link := { x with lanes := x.lanes.map fun t => { t with lit := false } }

theorem execTelemetryReceive_up (l : Nat) (payload : List Byte) (s : State) (hl : l < s.nLinks)
    (hdeaf : (s.link l).deaf = false) (hst : (s.link l).st = .up) (hver : (s.link l).version ≠ 1) :
    exec (.telemetryReceive l payload) s = .next (takeReading (16 + l) (2 * leAtI payload 10 2) false
      ((telemetryHead l (telemetryBeams l (if leAt payload 12 2 = 0 then s.modLink l (Link.told payload s.time)
        else reportLate l (leAt payload 12 2) 0x03 (s.modLink l (Link.told payload s.time))))).modLink l Link.unlit)) := by
  change execTelemetryReceive l payload s = _
  unfold execTelemetryReceive
  dsimp only
  rw [if_neg (by simp [hl, hdeaf]), if_neg hver, if_neg (by simp [hst])]
  rfl

theorem telemetryBeams_none (l : Nat) (s : State) (h : linkStation s l = none) : telemetryBeams l s = s := by
  unfold telemetryBeams
  rw [h]

theorem telemetryHead_outside (h : Nat) (s : State) (hout : (s.head h).inLayer = false) :
    telemetryHead h s = s.modHead h fun x => { x with emitBad := 0 } := by
  unfold telemetryHead
  rw [if_pos (by simp [hout])]

theorem execTelemetryReceive_kept (l : Nat) (payload : List Byte) (s : State) (hlen : s.links.length = 24) (hl : l < s.nLinks)
    (hdeaf : (s.link l).deaf = false) (hst : (s.link l).st = .up) (hver : (s.link l).version = 2)
    (hlate : leAt payload 12 2 = 0) (hstation : linkStation s l = none) (hout : (s.head l).inLayer = false) :
    ∃ u, exec (.telemetryReceive l payload) s = .next (takeReading (16 + l) (2 * leAtI payload 10 2) false u) ∧
      (u.link l).monitors = ((List.range 8).map fun k => leAt payload k 1) ∧
      (u.link l).emitOk = BitVec.ofNat 8 (leAt payload 8 1) ∧ (u.link l).temp = some (leAtI payload 10 2) ∧
      (u.link l).headerErrors = leAt payload 14 2 ∧ (u.link l).telemAt = s.time ∧ (u.link l).telemMiss = 0 ∧
      (∀ k, k ≠ l → u.link k = s.link k) ∧ { u with links := s.links, heads := s.heads } = s := by
  have hl24 : l < 24 := lt_of_lt_of_le hl (nLinks_le s)
  have hexec := execTelemetryReceive_up l payload s hl hdeaf hst (by omega)
  have hframe := modLink_frame s l (Link.told payload s.time)
  have hset := State.modLink_same s l (Link.told payload s.time) (hlen.symm ▸ hl24) hl
  have hne (k : Nat) (hk : k ≠ l) := State.modLink_ne s l (Link.told payload s.time) k hk.symm
  have hn := modLink_nLinks s l (Link.told payload s.time)
  have hk := modLink_length s l (Link.told payload s.time)
  rw [if_pos hlate] at hexec
  generalize s.modLink l (Link.told payload s.time) = v at *
  have hstations : v.stations = s.stations := (congrArg State.stations hframe :)
  have hheads : v.heads = s.heads := (congrArg State.heads hframe :)
  have hstation' : linkStation v l = none := by
    rw [← hstation]
    unfold linkStation State.station
    rw [hstations]
  have hout' : (v.head l).inLayer = false := by
    rw [← hout]
    unfold State.head
    rw [hheads]
  rw [telemetryBeams_none l v hstation', telemetryHead_outside l v hout'] at hexec
  have hlinks : (v.modHead l fun x => { x with emitBad := 0 }).links = v.links := State.modHead_links ..
  have hheadFrame : { (v.modHead l fun x => { x with emitBad := 0 }) with heads := v.heads } = v := by
    unfold State.modHead
    split <;> rfl
  have hpart : (v.modHead l fun x => { x with emitBad := 0 }).part = v.part := (congrArg State.part hheadFrame :)
  generalize (v.modHead l fun x => { x with emitBad := 0 }) = w at *
  have hwn : w.nLinks = v.nLinks := by unfold State.nLinks; rw [hpart]
  have hdark := State.modLink_same w l Link.unlit (by rw [hlinks, hk]; omega) (by rw [hwn, hn]; exact hl)
  have hwl : w.link l = v.link l := by unfold State.link; rw [hlinks]
  rw [hwl, hset] at hdark
  refine ⟨_, hexec, ?_, ?_, ?_, ?_, ?_, ?_, ?_, ?_⟩
  · rw [hdark]; rfl
  · rw [hdark]; rfl
  · rw [hdark]; rfl
  · rw [hdark]; rfl
  · rw [hdark]; rfl
  · rw [hdark]; rfl
  · intro k hk
    rw [State.modLink_ne w l Link.unlit k hk.symm, ← hne k hk]
    unfold State.link
    rw [hlinks]
  · have hunlit := modLink_frame w l Link.unlit
    generalize w.modLink l Link.unlit = u at *
    calc { u with links := s.links, heads := s.heads }
        = { w with links := s.links, heads := s.heads } :=
          (congrArg (fun x : State => { x with links := s.links, heads := s.heads }) hunlit :)
      _ = { v with links := s.links, heads := s.heads } :=
          (congrArg (fun x : State => { x with links := s.links, heads := s.heads }) hheadFrame :)
      _ = s := (congrArg (fun x : State => { x with heads := s.heads }) hframe :)

theorem execTelemetryReceive_version1 (l : Nat) (payload : List Byte) (s : State) (hl : l < s.nLinks)
    (hdeaf : (s.link l).deaf = false) (hver : (s.link l).version = 1) :
    exec (.telemetryReceive l payload) s = .next (linkViolation l 0x09 0x03 s) := by
  change execTelemetryReceive l payload s = _
  unfold execTelemetryReceive
  dsimp only
  rw [if_neg (by simp [hl, hdeaf]), if_pos hver]

theorem execTelemetryTimeout_up (l : Nat) (s : State) (hl : l < s.nLinks) (hst : (s.link l).st = .up)
    (hver : (s.link l).version = 2) :
    exec (.telemetryTimeout l) s = .next (linkViolation l 0x08 0x03
      ((s.advanceTo ((s.link l).telemAt.toNat + 96000 * ((s.link l).telemMiss + 1))).modLink l fun x =>
        { x with temp := none, telemMiss := (s.link l).telemMiss + 1 })) := by
  have hlinks : (s.advanceTo ((s.link l).telemAt.toNat + 96000 * ((s.link l).telemMiss + 1))).links = s.links :=
    (congrArg State.links (advanceTo_frame s _) :)
  change execTelemetryTimeout l s = _
  unfold execTelemetryTimeout
  dsimp only
  rw [if_pos (by simp [hl, hst, hver])]
  have hsame : (s.advanceTo ((s.link l).telemAt.toNat + 96000 * ((s.link l).telemMiss + 1))).link l = s.link l := by
    unfold State.link at hlinks ⊢
    rw [hlinks]
  refine congrArg (fun u => Host.Outcome.next (linkViolation l 0x08 0x03 u)) (modLink_congr _ _ _ _ ?_)
  rw [hsame]

/-! ### Messages of the back-channel (R127, R141) -/

theorem execBackchannelBadMessage_heard (l : Nat) (kind : BadMessage) (type : Byte) (s : State) (hl : l < s.nLinks)
    (hdeaf : (s.link l).deaf = false) :
    exec (.backchannelBadMessage l kind type) s = .next (linkViolation l
      (match kind with | .crc => 0x01 | .unknownType => 0x02 | .notAllowed => 0x09) type.toNat s) := by
  change execBackchannelBadMessage l kind type s = _
  unfold execBackchannelBadMessage
  cases kind <;> exact congrArg Host.Outcome.next (if_neg (by simp [hl, hdeaf]))

theorem execBackchannelCodeError_heard (l : Nat) (s : State) (hl : l < s.nLinks) (hdeaf : (s.link l).deaf = false) :
    exec (.backchannelCodeError l) s = .next (linkViolation l 0x03 0 s) := by
  change execBackchannelCodeError l s = _
  unfold execBackchannelCodeError
  rw [if_neg (by simp [hl, hdeaf])]

theorem execStatusReceive_heard (l : Nat) (bits : Byte) (s : State) (hl : l < s.nLinks) (hdeaf : (s.link l).deaf = false)
    (fault late : State)
    (hfault : fault = if bits.getLsbD 1 then present 0x0064 (some l) 0 (linkViolation l 0x0C 0x05 s) else s)
    (hlate : late = if bits.getLsbD 2 then reportLate l 1 0x05 fault else fault) :
    exec (.statusReceive l bits) s =
      .next (if bits.getLsbD 0 then linkDown l (linkViolation l 0x0A 0x05 late) else late) := by
  change execStatusReceive l bits s = _
  unfold execStatusReceive
  dsimp only
  rw [if_neg (by simp [hl, hdeaf]), ← hfault, ← hlate]
  split <;> rfl

theorem execAckTimeout_resends (l : Nat) (c : BitVec 8) (p : BitVec 40) (rest : List (BitVec 8 × BitVec 40)) (s : State)
    (hl : l < s.nLinks) (hwait : (s.link l).ackWait = (c, p) :: rest) :
    exec (.ackTimeout l) s = .next (linkViolation l 0x06 c.toNat (sendBlock l true (ctlWord c.toNat p.toNat)
      (s.modLink l fun x => { x with ackWait := rest ++ [(c, p)] }))) := by
  change execAckTimeout l s = _
  unfold execAckTimeout
  rw [hwait]
  exact if_neg (not_le.2 hl)

theorem execViolationWindowStart_restarts (s : State) :
    exec .violationWindowStart s = .next { s.advanceTo ((s.time.toNat + 1599999) / 1600000 * 1600000) with
      links := s.links.map fun x =>
        { x with win := (s.advanceTo ((s.time.toNat + 1599999) / 1600000 * 1600000)).time.toNat / 1600000,
                 winCount := if x.win = (s.advanceTo ((s.time.toNat + 1599999) / 1600000 * 1600000)).time.toNat / 1600000
                   then x.winCount else 0 } } := by
  have hlinks : (s.advanceTo ((s.time.toNat + 1599999) / 1600000 * 1600000)).links = s.links :=
    (congrArg State.links (advanceTo_frame s _) :)
  have hms : ticksPerMs = 1600000 := rfl
  have hdue : ceilDiv s.time.toNat 1600000 = (s.time.toNat + 1599999) / 1600000 := by
    unfold ceilDiv
    rw [if_neg (by omega)]
    exact congrArg (· / 1600000) (by omega)
  change execViolationWindowStart s = _
  unfold execViolationWindowStart
  simp only [hms, hdue]
  rw [hlinks]

/-! ### Link down and violations (R139 to R141) -/

/-- An absence of a remote sensor is a matter of the temperatures and the raises. -/
theorem thermOnly_remoteAbsent (l : Nat) (s : State) : ThermOnly s (remoteAbsent l s) := by
  unfold remoteAbsent
  split
  · exact ThermOnly.refl s
  · refine ThermOnly.trans ?_ (thermOnly_foldl _ _ _ fun _ _ => thermOnly_present ..)
    exact ⟨rfl⟩

theorem linkDown_goes (l : Nat) (s : State) (hlen : s.links.length = 24) (hl : l < s.nLinks)
    (halive : (s.link l).alive = true) :
    ((linkDown l s).link l).st = .down ∧ ((linkDown l s).link l).causes.getLsbD 6 = true ∧
      ((linkDown l s).link l).linkDowns = (s.link l).linkDowns.inc ∧ ((linkDown l s).link l).retrainWait = true := by
  have hl24 : l < 24 := lt_of_lt_of_le hl (nLinks_le s)
  have habsent := (thermOnly_remoteAbsent l s).frame
  unfold linkDown
  rw [if_neg (by rw [halive]; decide)]
  dsimp only
  generalize remoteAbsent l s = u at *
  have hlinks : u.links = s.links := (congrArg State.links habsent :)
  have hpart : u.part = s.part := (congrArg State.part habsent :)
  have hun : u.nLinks = s.nLinks := by unfold State.nLinks; rw [hpart]
  have hul : u.link l = s.link l := by unfold State.link; rw [hlinks]
  have hset := State.modLink_same u l (fun x => { x with
    st := .down, version := 0, linkDowns := x.linkDowns.inc, ackWait := [], resyncing := false, temp := none,
    retrainWait := true, retries := 0 }) (by rw [hlinks]; omega) (by rw [hun]; exact hl)
  have hn := modLink_nLinks u l (fun x => { x with
    st := .down, version := 0, linkDowns := x.linkDowns.inc, ackWait := [], resyncing := false, temp := none,
    retrainWait := true, retries := 0 })
  have hk := modLink_length u l (fun x => { x with
    st := .down, version := 0, linkDowns := x.linkDowns.inc, ackWait := [], resyncing := false, temp := none,
    retrainWait := true, retries := 0 })
  generalize (u.modLink l fun x => { x with
    st := .down, version := 0, linkDowns := x.linkDowns.inc, ackWait := [], resyncing := false, temp := none,
    retrainWait := true, retries := 0 }) = v at *
  rw [hul] at hset
  have hgated := ((gates_setCause 6 [l] v).2.2 l).1
  rw [hset] at hgated
  have hcause := setCause_sets 6 [l] v l (by decide) List.mem_cons_self (by rw [hn, hun]; exact hl)
    (by rw [hk, hlinks]; omega)
  exact ⟨(congrArg Link.st hgated :), hcause, (congrArg Link.linkDowns hgated :), (congrArg Link.retrainWait hgated :)⟩

theorem execCommaLossTimeout_alive (l : Nat) (s : State) (hlen : s.links.length = 24) (hl : l < s.nLinks)
    (hst : (s.link l).st = .up ∨ (s.link l).st = .degraded) :
    ∃ t, exec (.commaLossTimeout l) s = .next t ∧ (t.link l).st = .down ∧ (t.link l).causes.getLsbD 6 = true ∧
      (t.link l).linkDowns = (s.link l).linkDowns.inc ∧ (t.link l).retrainWait = true := by
  have halive : (s.link l).alive = true := by rcases hst with h | h <;> simp [Link.alive, h]
  refine ⟨linkDown l s, ?_, linkDown_goes l s hlen hl halive⟩
  change execCommaLossTimeout l s = _
  unfold execCommaLossTimeout
  rw [if_pos hl]

/-- A violation of a link that is not in use is counted and logged, and has no stage. -/
theorem linkViolation_logged (l code type : Nat) (s : State) (hlen : s.links.length = 24) (hl : l < s.nLinks)
    (hdead : (s.link l).alive = false) :
    ((linkViolation l code type s).link l).violations = (s.link l).violations.inc ∧
    ((linkViolation l code type s).link l).st = (s.link l).st ∧
    Safety.Logged 2 l code { s with links := (linkViolation l code type s).links } (linkViolation l code type s) ∧
    (∀ k, k ≠ l → (linkViolation l code type s).link k = s.link k) := by
  have hl24 : l < 24 := lt_of_lt_of_le hl (nLinks_le s)
  unfold linkViolation
  simp only [hdead, Bool.and_false, Bool.false_and]
  have hset := State.modLink_same s l (fun x => { x with
    violations := x.violations.inc, win := s.time.toNat / ticksPerMs,
    winCount := (if x.win = s.time.toNat / ticksPerMs then x.winCount else 0) + bit false }) (hlen.symm ▸ hl24) hl
  have hne (k : Nat) (hk : k ≠ l) := State.modLink_ne s l (fun x => { x with
    violations := x.violations.inc, win := s.time.toNat / ticksPerMs,
    winCount := (if x.win = s.time.toNat / ticksPerMs then x.winCount else 0) + bit false }) k hk.symm
  have hframe := modLink_frame s l (fun x => { x with
    violations := x.violations.inc, win := s.time.toNat / ticksPerMs,
    winCount := (if x.win = s.time.toNat / ticksPerMs then x.winCount else 0) + bit false })
  generalize (s.modLink l fun x => { x with
    violations := x.violations.inc, win := s.time.toNat / ticksPerMs,
    winCount := (if x.win = s.time.toNat / ticksPerMs then x.winCount else 0) + bit false }) = v at *
  rw [if_neg (by decide)]
  have hlogged := logViolation_logged 2 l code (type % 256 + min (v.link l).winCount 65535 * 65536) v
  generalize logViolation 2 l code (type % 256 + min (v.link l).winCount 65535 * 65536) v = w at *
  have hlinks : w.links = v.links := (congrArg State.links hlogged.2.2.2.2 :)
  have hw (k : Nat) : w.link k = v.link k := by unfold State.link; rw [hlinks]
  have hv : { s with links := w.links } = v := by
    rw [hlinks]
    exact (congrArg (fun x : State => { x with links := v.links }) hframe).symm
  refine ⟨?_, ?_, ?_, fun k hk => (hw k).trans (hne k hk)⟩
  · rw [hw, hset]
  · rw [hw, hset]
  · rw [hv]
    exact hlogged

/-- Settles O15: each message and silence is one operation on its link; a lost comma gates the link with cause 6, and a
violation changes its link and the violation log alone. -/
theorem backChannel : Obligations.BackChannel := by
  unfold Obligations.BackChannel
  refine ⟨execTelemetryReceive_kept, execTelemetryReceive_up, execTelemetryReceive_version1, execBackchannelBadMessage_heard,
    execBackchannelCodeError_heard, ?_, ?_, execAckTimeout_resends, execTelemetryTimeout_up, fun _ _ => rfl,
    execViolationWindowStart_restarts, execCommaLossTimeout_alive, linkViolation_logged⟩
  · intro l s hl hdeaf
    exact ⟨execStatusReceive_heard l 1 s hl hdeaf _ _ rfl rfl, execStatusReceive_heard l 2 s hl hdeaf _ _ rfl rfl,
      execStatusReceive_heard l 4 s hl hdeaf _ _ rfl rfl⟩
  · intro l bits s hl hdeaf fault late
    exact execStatusReceive_heard l bits s hl hdeaf fault late rfl rfl

end Sys2Proof.Machine
end

section
/-!
PROOFS. The sequencers and admissions (spec/05_run_ahead.md R145 to R151, R158; spec/08_forge_scanning.md R220, R226):
`SequencersAdmitAndQueue`.
-/
namespace Sys2Proof.Machine

open Sys2Proof

/-! ### Queueing (R145, R172, R220) -/

theorem execEventQueue_arm (h : Nat) (s : State) (hh : h < s.nLinks) (hp : s.mci.personality = .forge)
    (harm : 4 ∈ (s.head h).armNext) :
    execEventQueue (8 * h + 4) .arm s = .next (pushEvent h 4
      { plan := .arm, unit := none, value := s.forge.zFocus, gate := true,
        stamp := s.now + (s.link h).d + (s.link h).leadSub, anchor := none, pitch := 0, pixel := none, gain := 0 }
      ({ s with free := s.free + 1 }.modHead h fun x => { x with armNext := x.armNext.filter (· ≠ 4) })) := by
  have hl : (8 * h + 4) / 8 = h := by omega
  have hk : (8 * h + 4) % 8 = 4 := by omega
  unfold execEventQueue
  rw [hl, hk]
  simp [Nat.not_le.mpr hh, hp, queueArm, harm]

theorem queuePress_pixel (i l k b n j : Nat) (w : Sweep) (s : State)
    (hw : eventSweep (s.station i) (.pixel n j) = some w) (hadm : w.admitted = true) (hold : w.rebuilt = false)
    (hnext : planIndex (s.station i) w b (.pixel n j) = some (at' w.next b 0))
    (hq : sweepsQueued (s.station i) w.n b = true) (hpl : placed s (pressEvent s i w b (.pixel n j)).anchor = true)
    (hdue : queueDue s l k (pressEvent s i w b (.pixel n j)) 20 = true) (u : State)
    (hu : u = laneFetch i w b j (s.advanceSub (queueAt s l k (pressEvent s i w b (.pixel n j)) 20)))
    (hguard : orderedStamp (u.link l) k (pressEvent u i w b (.pixel n j)).stamp ≤
      bdTime u i ((w.n + 1) % 2 ^ 48) - nsSub (s.station i).guardNs) :
    queuePress i l k b (.pixel n j) s = pushEvent l k (pressEvent u i w b (.pixel n j))
      (u.modSweep i w.n fun w => { w with next := modAt w.next b (· + 1) }) := by
  subst hu
  unfold queuePress
  simp only [hw, hadm, hold, hnext, hq, hpl, hdue]
  rw [decide_eq_false (Int.not_lt.mpr hguard)]
  simp

theorem execEventQueue_pixel (l k i n j : Nat) (s : State) (hl : l < s.nLinks) (hk : k < 8)
    (hp : s.mci.personality = .press) (hi : linkStation s l = some i) :
    execEventQueue (8 * l + k) (.pixel n j) s =
      .next (queuePress i l k (8 * (s.station i).links.idxOf l + k) (.pixel n j) s) := by
  have hdiv : (8 * l + k) / 8 = l := by omega
  have hmod : (8 * l + k) % 8 = k := by omega
  unfold execEventQueue
  rw [hdiv, hmod]
  simp [Nat.not_le.mpr hl, hp, hi]

theorem execEventQueue_noStation (lane : Nat) (e : PlanEvent) (s : State) (hp : s.mci.personality = .press)
    (hi : linkStation s (lane / 8) = none) : execEventQueue lane e s = .next s := by
  simp [execEventQueue, hp, hi]

theorem execEventQueue_noPersonality (lane : Nat) (e : PlanEvent) (s : State) (hp : s.mci.personality = .none) :
    execEventQueue lane e s = .next s := by
  simp [execEventQueue, hp]

/-! ### Admission of vectors (R147, R148, R226) -/

theorem admitRecord_frame (r : Rec) (s : State) : { admitRecord r s with lag := s.lag } = s := by
  unfold admitRecord
  split
  · split <;> rfl
  · rfl

theorem generatorRead_nHeads (r : Rec) (s : State) : (generatorRead r s).nHeads = s.nHeads := by
  obtain ⟨-, hpart, -, -⟩ := generatorRead_keeps s r s (keeps_refl s)
  unfold State.nHeads State.nLinks
  rw [hpart]

/-- The head of a vector that is admitted: planned behind the others, the head's plan goes on from its end. -/
def Head.takeIn (x : Head) (r q : Rec) (v : Vec) : Head :=
  { x with vecs := x.vecs ++ [v], todo := x.todo.erase r, pos := q.target, endAt := v.finish,
           token := if q.emits && x.token = .none then .pending else x.token, st := if x.st = 0 then 1 else x.st }

theorem admitVector_admits (h : Nat) (r : Rec) (s u : State) (hu : u = generatorRead r s) (hh : h < s.nHeads)
    (hlen : h < u.heads.length) (q : Rec) (hq : q = stagedRecord u r) (v : Vec)
    (hv : v = { (u.head h).plan q (nextOpens s h) (u.head h).rolled with ready := recordReady u r, readyAt := u.time }) :
    (admitVector h r s).head h = (u.head h).takeIn r q v ∧ (∀ k, k ≠ h → (admitVector h r s).head k = u.head k) ∧
      { admitVector h r s with heads := u.heads, lag := u.lag } = u := by
  have hn : h < u.nHeads := by rw [hu, generatorRead_nHeads]; exact hh
  have heq : admitVector h r s = admitRecord r (u.modHead h fun x => x.takeIn r q v) := by
    subst hv hq hu
    rfl
  have hframe := admitRecord_frame r (u.modHead h fun x => x.takeIn r q v)
  have hhead (k : Nat) : (admitVector h r s).head k = (u.modHead h fun x => x.takeIn r q v).head k := by
    unfold State.head
    rw [heq]
    exact (congrArg (fun t : State => at' t.heads k {}) hframe :)
  refine ⟨(hhead h).trans (State.modHead_same u h _ hlen hn),
    fun k hk => (hhead k).trans (State.modHead_ne u h _ k (Ne.symm hk)), ?_⟩
  rw [heq]
  refine (congrArg (fun t : State => { t with heads := u.heads, lag := u.lag }) hframe).trans ?_
  unfold State.modHead
  split <;> rfl

/-- The head's next vector is within its window: by its stamp, or because all before it have committed. -/
theorem execForgeVectorAdmit_vector (h : Nat) (r : Rec) (s : State) (hmay : mayAdmit s h = true)
    (hr : (s.head h).nextRecord = some r) (htype : r.type ≠ 3)
    (hnear : nextOpens s h ≤ s.now + (s.head h).ra.inForce * 1600 * 64 ∨ ∀ v ∈ (s.head h).vecs, v.committed = true) :
    execForgeVectorAdmit h s =
      if (s.head h).overCap ((s.head h).planned r (s.head h).pos) then
        .next (refuseEnergy h ((s.head h).vecs.any fun v => !v.committed) s)
      else .next (admitVector h r s) := by
  have hwindow : (!decide (nextOpens s h ≤ s.now + (s.head h).ra.inForce * 1600 * 64) &&
      (s.head h).vecs.any fun v => !v.committed) = false := by
    cases hnear with
    | inl hle => simp [hle]
    | inr hall =>
      rw [Bool.and_eq_false_iff]
      exact .inr (List.any_eq_false.mpr fun v hv => by simp [hall v hv])
  unfold execForgeVectorAdmit
  simp only [hmay, hr, htype, hwindow]
  simp

theorem execForgeVectorAdmit_held (h : Nat) (s : State) (hmay : mayAdmit s h = false) :
    execForgeVectorAdmit h s = .next s := by
  simp [execForgeVectorAdmit, hmay]

/-! ### Tile checks (R150, R151) -/

theorem classGrants_lag (c n : Nat) (s : State) : (classGrants c n s).lag = s.lag :=
  (congrArg State.lag (classGrants_frame c n s) :)

/-- A Lagoon word is wrong where an error has been injected into it or is known. A tile with neither reads clean. -/
theorem lagReadTile_clean (h cls : Nat) (header : Bool) (s : State) (hinj : s.lag.inject = [])
    (hbad : ∀ a ∈ s.lag.bad, lagHandle a ≠ h) : lagReadTile h cls header s = (true, s) := by
  have hnone : (s.lag.bad.filter fun a => decide (lagHandle a = h) && decide ((2 ^ 31 ≤ a) = header)) = [] :=
    List.filter_eq_nil_iff.mpr fun a ha => by simp [hbad a ha]
  unfold lagReadTile lagSuspects
  rw [hinj, List.map_nil, List.nil_append, hnone]
  rfl

/-- What the reads of a tile's check and the readiness of units leave: the Lagoon, the links and the faults. -/
structure TilesRead (s t : State) : Prop where
  lag : t.lag = s.lag
  links : t.links = s.links
  flt : t.flt = s.flt

theorem TilesRead.refl (s : State) : TilesRead s s := ⟨rfl, rfl, rfl⟩

theorem TilesRead.trans {s t u : State} (h : TilesRead s t) (g : TilesRead t u) : TilesRead s u :=
  ⟨g.lag.trans h.lag, g.links.trans h.links, g.flt.trans h.flt⟩

theorem tilesRead_foldl {α : Type} (f : State → α → State)
    (hf : ∀ (a : α) (s : State), s.lag.inject = [] → TilesRead s (f s a)) :
    ∀ (l : List α) (s : State), s.lag.inject = [] → TilesRead s (l.foldl f s)
  | [], s, _ => .refl s
  | a :: l, s, hs =>
    have h := hf a s hs
    h.trans (tilesRead_foldl f hf l (f s a) (by rw [h.lag]; exact hs))

theorem tilesRead_classGrants (c n : Nat) (s : State) : TilesRead s (classGrants c n s) :=
  ⟨classGrants_lag c n s, (congrArg State.links (classGrants_frame c n s) :),
    (congrArg State.flt (classGrants_frame c n s) :)⟩

theorem tilesRead_generatorRead (r : Rec) (s : State) (hs : s.lag.inject = []) : TilesRead s (generatorRead r s) := by
  have hfold (t : Tile) : TilesRead s ((List.range 4).foldl (fun s k =>
      if s.lag.inject.any fun p => p.1 = 2048 * t.handle + 4 * (r.index % 512) + k then
        let x := lagReadWord (2048 * t.handle + 4 * (r.index % 512) + k) 0 0 1 s
        if x.1 then x.2 else tileFailed t.handle x.2
      else s) (classGrants 1 32 s)) := by
    refine (tilesRead_classGrants 1 32 s).trans (tilesRead_foldl _ (fun k u hu => ?_) _ _ ?_)
    · simp only [hu, List.any_nil]
      exact .refl u
    · rw [classGrants_lag]
      exact hs
  unfold generatorRead
  split
  · exact .refl s
  · split
    · exact .refl s
    · exact hfold _

theorem tilesRead_modHead (h : Nat) (f : Head → Head) (s : State) : TilesRead s (s.modHead h f) := by
  unfold State.modHead
  split <;> exact ⟨rfl, rfl, rfl⟩

theorem tilesRead_readyVectors (h : Nat) (s : State) (hs : s.lag.inject = []) : TilesRead s (readyVectors h s) := by
  unfold readyVectors
  exact (tilesRead_foldl _ (fun v u hu => tilesRead_generatorRead v.r u hu) _ s hs).trans (tilesRead_modHead h _ _)

theorem tilesRead_readyOwner (o : TileOwner) (s : State) (hs : s.lag.inject = []) : TilesRead s (readyOwner o s) := by
  unfold readyOwner
  cases o with
  | station i => exact ⟨rfl, rfl, rfl⟩
  | head h => exact tilesRead_foldl _ (fun h u hu => tilesRead_readyVectors h u hu) _ s hs
  | free => exact .refl s

theorem tileGood_congr (s t : State) (h : t.lag = s.lag) (k : Nat) : tileGood t k = tileGood s k := by
  unfold tileGood State.tilePayload State.tile
  rw [h]

theorem execTileAdmissionCheckDone_good (k : Nat) (s : State) (halloc : (s.tile k).allocated = true)
    (hfill : (s.tile k).fill = none) (hver : (s.tile k).verified = false) (hid : (s.tile k).id ≠ 0)
    (hfail : (s.tile k).failed = 0) (hwait : awaitsFill s k = false) (hgood : tileGood s k = true)
    (hinj : s.lag.inject = []) :
    ∃ t, execTileAdmissionCheckDone k s = .next t ∧ (t.tile k).verified = true ∧ (t.tile k).admitted = true ∧
      (t.tile k).id = (s.tile k).id ∧ t.lag.data = s.lag.data ∧ t.links = s.links ∧ t.flt = s.flt := by
  have hread := tilesRead_classGrants 1 16384 s
  generalize hu : classGrants 1 16384 s = u at hread
  have hbad : ∀ a ∈ u.lag.bad, lagHandle a ≠ k := fun a ha hk => by
    rw [hread.lag] at ha
    simp only [tileGood, Bool.and_eq_true, Bool.not_eq_true', List.any_eq_false, decide_eq_true_eq] at hgood
    exact hgood.2 a ha hk
  have hclean (header : Bool) : lagReadTile k 1 header u = (true, u) :=
    lagReadTile_clean k 1 header u (by rw [hread.lag]; exact hinj) hbad
  have hgood' : tileGood u k = true := (tileGood_congr s u hread.lag k).trans hgood
  have htile : u.tile k = s.tile k := tile_congr s u (congrArg _ hread.lag) k
  have heq : execTileAdmissionCheckDone k s = .next (readyOwner (s.tile k).owner
      (u.modTile k fun t => { t with verified := true, admitted := true })) := by
    unfold execTileAdmissionCheckDone
    have hid' : ¬ (s.tile k).id = 0#32 := hid
    simp [halloc, hfill, hver, hid', hfail, hwait, hu, hclean, hgood']
  refine ⟨_, heq, ?_⟩
  have hafter : TilesRead (u.modTile k fun t => { t with verified := true, admitted := true }) _ :=
    tilesRead_readyOwner (s.tile k).owner _ (show u.lag.inject = [] by rw [hread.lag]; exact hinj)
  have hk := modTile_tile u k (fun t => { t with verified := true, admitted := true }) (tile_handle u k) k
  rw [if_pos rfl] at hk
  rw [tile_congr _ _ (congrArg Lag.tiles hafter.lag) k, hk]
  refine ⟨rfl, rfl, ?_, ?_, hafter.links.trans hread.links, hafter.flt.trans hread.flt⟩
  · rw [htile]
  · rw [hafter.lag]
    exact (congrArg Lag.data hread.lag :)

theorem execUnitReady_vector (h q : Nat) (v : Vec) (s u : State)
    (hv : ((s.head h).vecs.find? fun v => v.r.seqNo = q && !v.committed && !v.admitted) = some v)
    (hroll : headRollingBack s h = false) (hcap : (s.head h).overCap v.planned = false) (hu : u = generatorRead v.r s) :
    execUnitReady (.vector h q) s = .next (admitRecord v.r (u.modHead h fun x =>
      { x.modVec q (fun v => { v with admitted := true, ready := recordReady u v.r, readyAt := u.time,
                                      r := stagedRecord u v.r, cap := (u.head h).powerCap }) with
        token := if v.r.emits && x.token = .none then .pending else x.token })) := by
  subst hu
  unfold execUnitReady
  simp only [hv, hroll, hcap]
  rfl

/-- Settles O19: each sequencer's next event that nothing holds back is pushed behind its lane's queue, and an admission
whose read finds no error plans the vector, or verifies the tile, and changes nothing beside. -/
theorem sequencersAdmitAndQueue : Obligations.SequencersAdmitAndQueue := by
  unfold Obligations.SequencersAdmitAndQueue
  refine ⟨execEventQueue_arm, ?_, execEventQueue_noStation, execEventQueue_noPersonality, ?_, ?_,
    execForgeVectorAdmit_held, execTileAdmissionCheckDone_good, ?_⟩
  · intro l k i n j w s hl hk hp hi st b e u ev hw hadm hold hnext hq hpl hdue hguard
    exact (execEventQueue_pixel l k i n j s hl hk hp hi).trans (congrArg Host.Outcome.next
      (queuePress_pixel i l k b n j w s hw hadm hold hnext hq hpl hdue u rfl hguard))
  · intro h r s hh _ hmay hr htype hnear hcap u staged v hlen
    obtain ⟨hhead, hothers, hframe⟩ := admitVector_admits h r s u rfl hh hlen staged rfl v rfl
    refine ⟨admitVector h r s, ?_, ?_, ?_, ?_, ?_, ?_, hothers, hframe⟩
    · refine (execForgeVectorAdmit_vector h r s hmay hr htype hnear).trans ?_
      rw [hcap]
      rfl
    all_goals rw [hhead]
    · rfl
    · rfl
    · rfl
    · rfl
    · simp [Head.takeIn]
  · intro h r s hmay hr htype hnear hcap
    refine (execForgeVectorAdmit_vector h r s hmay hr htype hnear).trans ?_
    rw [hcap]
    rfl
  · intro h q v s hv hroll hcap u
    exact execUnitReady_vector h q v s u hv hroll hcap rfl

end Sys2Proof.Machine
end

section
/-!
PROOFS. The Weir (spec/04_lanes_and_links.md R125, spec/05_run_ahead.md R143, R160): `TheWeirHandsOff`.
-/
namespace Sys2Proof.Machine

open Sys2Proof

/-! ### Hand-offs (R125) -/

theorem advanceSub_station (s : State) (t : Int) (i : Nat) : (s.advanceSub t).station i = s.station i := by
  unfold State.station
  rw [(congrArg State.stations (advanceSub_frame s t) :)]

theorem advanceSub_link (s : State) (t : Int) (l : Nat) : (s.advanceSub t).link l = s.link l := by
  unfold State.link
  rw [(congrArg State.links (advanceSub_frame s t) :)]

theorem advanceSub_front (s : State) (t : Int) (l k : Nat) : (s.advanceSub t).front l k = s.front l k := by
  unfold State.front
  rw [advanceSub_link]

theorem popFront_frame (s : State) (l k : Nat) : { s.popFront l k with links := s.links } = s := modLink_frame ..

theorem popFront_station (s : State) (l k i : Nat) : (s.popFront l k).station i = s.station i := by
  unfold State.station
  rw [(congrArg State.stations (popFront_frame s l k) :)]

/-- Taking the front event off a queue does not change what gates the link. -/
theorem popFront_dark (s : State) (l k m : Nat) (stamp : Int) :
    ((s.popFront l k).link m).dark stamp = (s.link m).dark stamp :=
  link_modLink (fun x => x.dark stamp = (s.link m).dark stamp) l _ s m rfl rfl

/-- The front event whose unit lets it go leaves its queue and is sent. -/
theorem execWeirHandoff_sends (l k : Nat) (e : QEvent) (s : State) (hl : l < s.nLinks) (hk : k < 8)
    (he : s.front l k = some e) (hp : placed s e.anchor = true)
    (hcommit : commitUnit e (s.advanceSub ((s.link l).handoffAt e.stamp)) =
      (s.advanceSub ((s.link l).handoffAt e.stamp), true)) :
    execWeirHandoff (8 * l + k) s =
      .next (sendFront l k e ((s.advanceSub ((s.link l).handoffAt e.stamp)).popFront l k)) := by
  have hdiv : (8 * l + k) / 8 = l := by omega
  have hmod : (8 * l + k) % 8 = k := by omega
  unfold execWeirHandoff
  simp only [hdiv, hmod, Nat.not_le.mpr hl, he, hp, hcommit, advanceSub_front]
  simp

theorem commitSweep_committed (i : Nat) (w : Sweep) (s : State) (hw : w.committed = true) :
    commitSweep i w s = (s, true) := by
  simp [commitSweep, hw]

theorem execWeirHandoff_committed (l k i n : Nat) (w : Sweep) (e : QEvent) (s : State) (hl : l < s.nLinks) (hk : k < 8)
    (he : s.front l k = some e) (hp : placed s e.anchor = true) (hunit : e.unit = some (.sweep i n))
    (hw : ((s.station i).sweeps.find? fun w => w.n = n) = some w) (hcom : w.committed = true) :
    execWeirHandoff (8 * l + k) s = .next (handoffPress i l k w e
      ((s.advanceSub ((s.link l).handoffAt e.stamp)).popFront l k)) := by
  refine (execWeirHandoff_sends l k e s hl hk he hp ?_).trans (congrArg Host.Outcome.next ?_)
  · unfold commitUnit
    simp only [hunit, advanceSub_station, hw]
    exact commitSweep_committed i w _ hcom
  · unfold sendFront
    simp only [hunit, popFront_station, advanceSub_station, hw]

theorem execWeirHandoff_unowned (l k : Nat) (e : QEvent) (s u : State) (dark : Bool) (hl : l < s.nLinks) (hk : k < 8)
    (he : s.front l k = some e) (hp : placed s e.anchor = true) (hunit : e.unit = none)
    (hpress : s.mci.personality = .press)
    (hu : u = (s.advanceSub ((s.link l).handoffAt e.stamp)).popFront l k) (hdark : dark = (s.link l).dark e.stamp) :
    execWeirHandoff (8 * l + k) s = .next (lateCheck l e.stamp
      (sendEvent l k (if dark then 0 else e.value) (e.gate && !dark) e.stamp e.pitch false u)) := by
  have hforge : ¬ u.mci.personality = .forge := by
    rw [hu, (congrArg State.mci (popFront_frame _ l k) :), (congrArg State.mci (advanceSub_frame s _) :), hpress]
    exact nofun
  have hlink : (u.link l).dark e.stamp = dark := by rw [hu, popFront_dark, advanceSub_link, hdark]
  refine (execWeirHandoff_sends l k e s hl hk he hp ?_).trans (congrArg Host.Outcome.next ?_)
  · unfold commitUnit
    rw [hunit]
  · rw [← hu]
    unfold sendFront
    simp only [hunit, hforge, hlink]
    rfl

theorem execWeirHandoff_idle (lane : Nat) (s : State) (h : s.front (lane / 8) (lane % 8) = none) :
    execWeirHandoff lane s = .next s := by
  simp [execWeirHandoff, h]

/-! ### Commits of sweeps (R143, R160) -/

theorem thermOnly_syncPrivilege (s : State) : ThermOnly s (syncPrivilege s) := by
  unfold syncPrivilege
  refine (thermOnly_foldl _ _ _ fun s u => ?_).trans (weighs_factorsChanged _).only
  dsimp only
  split
  · exact .refl s
  · exact thermOnly_modUnit ..

/-- A station's counts of its sweeps: those done, and those of its run-ahead. -/
def Station.weirCounts (st : Station) : BitVec 64 × RunAhead := (st.sweepsDone, st.ra)

theorem syncPrivilege_station (s : State) (i : Nat) : (syncPrivilege s).station i = s.station i := by
  unfold State.station
  rw [(congrArg State.stations (thermOnly_syncPrivilege s).frame :)]

theorem refreshSearch_counts (s : State) (i : Nat) : ((refreshSearch s).station i).weirCounts = (s.station i).weirCounts := by
  by_cases hi : i < s.stations.length
  · rw [refreshSearch_station i s hi]
    rfl
  · have hlen : (refreshSearch s).stations.length = s.stations.length := by simp [refreshSearch]
    unfold State.station
    rw [at'_ge _ _ _ (by omega), at'_ge _ _ _ (by omega)]

theorem endSearch_counts (s : State) (i : Nat) : ((endSearch i s).station i).weirCounts = (s.station i).weirCounts := by
  unfold endSearch
  split
  · rfl
  · dsimp only
    generalize hu : List.foldl _ s _ = u
    have hst : u.stations = s.stations := by
      rw [← hu, (congrArg State.stations (foldl_keepEvents_frame _ (s.station i).links s) :)]
    by_cases hi : i < u.stations.length
    · rw [State.modStation_same _ _ _ hi]
      unfold State.station
      rw [hst]
      rfl
    · have hlen : (u.modStation i fun st => { st with search := false }).stations.length = u.stations.length :=
        length_modAt ..
      unfold State.station
      rw [at'_ge _ _ _ (by omega), at'_ge _ _ _ (by rw [← hst]; omega)]

theorem sweepJob_none (st : Station) (w : Sweep) (h : w.job = none) : sweepJob st w = none := by
  simp [sweepJob, h]

/-- The station of a sweep that commits and carries no job. -/
def Station.sweepCommits (st : Station) (w : Sweep) (f : Nat) : Station :=
  { st with sweepsDone := st.sweepsDone + 1, throttle := f, bandingLast := w.banding,
            ra := { st.ra with committed := st.ra.committed + 1,
                               underruns := if w.ready then st.ra.underruns else st.ra.underruns.inc } }

theorem commitSweep_counts (i : Nat) (w : Sweep) (s : State) (hi : i < s.stations.length) (hw : w.committed = false)
    (hjob : w.job = none) (hroll : rollingBack s i = false) (hadm : w.admitted = true) :
    (commitSweep i w s).2 = true ∧
      ((commitSweep i w s).1.station i).weirCounts = ((s.station i).sweepCommits w 0).weirCounts := by
  obtain ⟨u, hu, hcounts⟩ : ∃ u, commitSweep i w s = (syncPrivilege (refreshSearch (endSearch i u)), true) ∧
      (u.station i).weirCounts = ((s.station i).sweepCommits w 0).weirCounts := by
    unfold commitSweep
    simp only [sweepJob_none _ w hjob, hw, hroll, hadm, markJob, hjob]
    refine ⟨_, rfl, ?_⟩
    have hcounts (f g : Station → Station) (n : Nat) (hf : ∀ st, (f st).weirCounts = st.weirCounts)
        (hg : ∀ st, (g st).weirCounts = (st.sweepCommits w n).weirCounts) :
        (((s.modStation i f).modStation i g).station i).weirCounts = ((s.station i).sweepCommits w 0).weirCounts := by
      rw [modStation_modStation, State.modStation_same _ _ _ hi]
      refine (hg _).trans ?_
      have h := hf (s.station i)
      unfold Station.weirCounts Station.sweepCommits at *
      rw [Prod.mk.injEq] at h
      simp only [h.1, h.2]
    cases hready : w.ready
    · exact hcounts _ _ 0 (fun _ => rfl) fun st => by simp [Station.weirCounts, Station.sweepCommits, hready]
    · exact hcounts _ _ 0 (fun _ => rfl) fun st => by simp [Station.weirCounts, Station.sweepCommits, hready]
  rw [hu]
  refine ⟨rfl, ?_⟩
  rw [syncPrivilege_station, refreshSearch_counts, endSearch_counts, hcounts]

theorem commitSweep_rollingBack (i : Nat) (w : Sweep) (s : State) (hw : w.committed = false) (hjob : w.job = none)
    (hroll : rollingBack s i = true) : commitSweep i w s = (s, false) := by
  simp [commitSweep, sweepJob_none _ w hjob, hw, hroll]

/-- Settles O20: the front event goes through `commitUnit` before it leaves; a commit that no job's abort and no rollback
stops counts the sweep, and what follows it leaves those counts alone. -/
theorem theWeirHandsOff : Obligations.TheWeirHandsOff := by
  unfold Obligations.TheWeirHandsOff
  refine ⟨execWeirHandoff_committed, ?_, ?_, commitSweep_rollingBack, execWeirHandoff_idle⟩
  · intro l k e s hl hk he hp hunit hpress u dark
    exact execWeirHandoff_unowned l k e s u dark hl hk he hp hunit hpress rfl rfl
  · intro i w s hi hw hjob hroll hadm
    obtain ⟨hleaves, hcounts⟩ := commitSweep_counts i w s hi hw hjob hroll hadm
    have hra : ((commitSweep i w s).1.station i).ra = ((s.station i).sweepCommits w 0).ra := congrArg Prod.snd hcounts
    refine ⟨hleaves, congrArg Prod.fst hcounts, ?_, ?_⟩
    · rw [hra]
      rfl
    · rw [hra]
      rfl

end Sys2Proof.Machine
end

section
/-!
PROOFS. Rollbacks and run-ahead windows (spec/05_run_ahead.md R146 to R149, R156, R157): `RollbacksAndWindows`.
-/
namespace Sys2Proof.Machine

open Sys2Proof

/-! ### The end of a rollback (R156, R157) -/

theorem foldl_modStation_frame (f : Station → Station) (is : List Nat) (s : State) :
    { is.foldl (fun s i => s.modStation i f) s with stations := s.stations } = s := by
  induction is generalizing s with
  | nil => rfl
  | cons i is ih => exact (congrArg (fun u : State => { u with stations := s.stations }) (ih (s.modStation i f)) :)

theorem foldl_modStation_notMem (f : Station → Station) (is : List Nat) (s : State) (i : Nat) (hi : i ∉ is) :
    (is.foldl (fun s i => s.modStation i f) s).station i = s.station i := by
  induction is generalizing s with
  | nil => rfl
  | cons j is ih =>
    rw [List.mem_cons, not_or] at hi
    exact (ih _ hi.2).trans (State.modStation_ne s j f i (Ne.symm hi.1))

/-- An update that is the same when repeated reaches each station of a list once. -/
theorem foldl_modStation_mem (f : Station → Station) (hf : ∀ x, f (f x) = f x) (is : List Nat) (s : State) (i : Nat)
    (hi : i ∈ is) (hlen : i < s.stations.length) :
    (is.foldl (fun s i => s.modStation i f) s).station i = f (s.station i) := by
  induction is generalizing s with
  | nil => cases hi
  | cons j is ih =>
    rw [List.foldl_cons]
    have hlen' : i < (s.modStation j f).stations.length := by simpa [State.modStation] using hlen
    by_cases hmem : i ∈ is
    · rw [ih _ hmem hlen']
      by_cases hj : j = i
      · subst hj
        rw [State.modStation_same _ _ _ hlen, hf]
      · rw [State.modStation_ne _ _ _ _ hj]
    · rw [foldl_modStation_notMem f is _ i hmem]
      have hj : j = i := ((List.mem_cons.mp hi).resolve_right hmem).symm
      subst hj
      exact State.modStation_same _ _ _ hlen

/-- A rollback's duration enters the longest of a station. -/
def Station.longest (ns : Nat) (st : Station) : Station :=
  { st with ra := { st.ra with maxNs := max st.ra.maxNs (min ns (2 ^ 32 - 1)) } }

theorem longest_twice (ns : Nat) (st : Station) : (st.longest ns).longest ns = st.longest ns := by
  unfold Station.longest
  simp

theorem rollbackLate_early (r : Rollback) (s : State) (h : r.late = true ∨ s.time.toNat ≤ r.at'.toNat + 8000) :
    rollbackLate r s = s := by
  unfold rollbackLate
  cases h with
  | inl hlate => simp [hlate]
  | inr htime => simp [htime]

theorem rollbackLate_late (r : Rollback) (s : State) (hlate : r.late = false) (htime : r.at'.toNat + 8000 < s.time.toNat) :
    rollbackLate r s = present 0x0085 none 0 s := by
  simp [rollbackLate, hlate, htime]

theorem rollbackLate_frame (r : Rollback) (s : State) : { rollbackLate r s with flt := s.flt } = s := by
  unfold rollbackLate
  split <;> rfl

theorem execRollbackComplete_unforced (ns : Nat) (r : Rollback) (s u : State) (hr : s.rollback = some r)
    (hforced : r.forced = []) (hheads : r.heads = []) (hu : u = s.advanceTo (r.first.toNat + ceilDiv (ns * 8) 5)) :
    ∃ t, execRollbackComplete ns s = .next t ∧ t.rollback = none ∧
      (∀ i, i ∈ r.stations → i < s.stations.length →
        (t.station i).ra.maxNs = max (s.station i).ra.maxNs (min ns (2 ^ 32 - 1))) ∧
      (∀ i, i ∉ r.stations → t.station i = s.station i) ∧
      ((r.late = true ∨ u.time.toNat ≤ r.at'.toNat + 8000) → t.flt = u.flt) ∧
      (r.late = false → r.at'.toNat + 8000 < u.time.toNat →
        (t.flt.presented.getLast?.map fun q => (q.source, q.unit)) = some (0x0085, none)) ∧
      { t with stations := s.stations, rollback := s.rollback, flt := s.flt } = u := by
  have hadv := advanceTo_frame s (r.first.toNat + ceilDiv (ns * 8) 5)
  rw [← hu] at hadv
  have hst : u.stations = s.stations := (congrArg State.stations hadv :)
  have hrb : u.rollback = s.rollback := (congrArg State.rollback hadv :)
  have hflt : u.flt = s.flt := (congrArg State.flt hadv :)
  let v := r.stations.foldl (fun s i => s.modStation i (Station.longest ns)) { u with rollback := none }
  have hv := foldl_modStation_frame (Station.longest ns) r.stations { u with rollback := none }
  have hexec : execRollbackComplete ns s = .next (rollbackLate r v) := by
    unfold execRollbackComplete
    simp only [hr, hforced, hheads, ← hu]
    rfl
  have hframe := rollbackLate_frame r v
  have hstation (i : Nat) : (rollbackLate r v).station i = v.station i :=
    (congrArg (fun t : State => at' t.stations i {}) hframe :)
  have htime : v.time = u.time := (congrArg State.time hv :)
  have hsame (i : Nat) : ({ u with rollback := none } : State).station i = s.station i := by
    unfold State.station
    exact congrArg (fun l => at' l i {}) hst
  refine ⟨_, hexec, ?_, fun i hi hlen => ?_, fun i hi => ?_, fun h => ?_, fun hlate h => ?_, ?_⟩
  · exact (congrArg State.rollback hframe :).trans (congrArg State.rollback hv :)
  · rw [hstation, foldl_modStation_mem _ (longest_twice ns) _ _ i hi (hst ▸ hlen), hsame]
    rfl
  · rw [hstation, foldl_modStation_notMem _ _ _ i hi, hsame]
  · rw [rollbackLate_early r v (by rw [htime]; exact h)]
    exact (congrArg State.flt hv :)
  · rw [rollbackLate_late r v hlate (by rw [htime]; exact h), present_last]
  · rw [← hrb, ← hst, ← hflt]
    have hflt' : v.flt = u.flt := (congrArg State.flt hv :)
    rw [← hflt']
    exact (congrArg (fun t : State => { t with stations := u.stations, rollback := u.rollback }) hframe :).trans
      (congrArg (fun t : State => { t with rollback := u.rollback }) hv :)

theorem execRollbackOvertime_some (r : Rollback) (s u : State) (hr : s.rollback = some r)
    (hu : u = { s.advanceTo (r.at'.toNat + 8001) with rollback := some { r with late := true } }) :
    ((r.late = true ∨ u.time.toNat ≤ r.at'.toNat + 8000) → execRollbackOvertime s = .next u) ∧
    (r.late = false → r.at'.toNat + 8000 < u.time.toNat →
      execRollbackOvertime s = .next (present 0x0085 none 0 u)) := by
  have hexec : execRollbackOvertime s = .next (rollbackLate r u) := by
    unfold execRollbackOvertime
    rw [hr, hu]
  exact ⟨fun h => hexec.trans (congrArg _ (rollbackLate_early r u h)),
    fun hlate h => hexec.trans (congrArg _ (rollbackLate_late r u hlate h))⟩

theorem execRollback_none (s : State) (h : s.rollback = none) :
    execRollbackOvertime s = .next s ∧ ∀ ns, execRollbackComplete ns s = .next s :=
  ⟨by unfold execRollbackOvertime; rw [h], fun ns => by unfold execRollbackComplete; rw [h]⟩

/-! ### Commands -/

theorem rollbackTrigger_starts (code : Nat) (lanes : BitVec 192) (s : State) :
    ∃ r, (rollbackTrigger code lanes s).rollback = some r := ⟨_, rfl⟩

/-- A trigger by command applies to every lane where it names none. -/
theorem execRunaheadRollbackForce_all (rq : Req) (s : State) (hs : served 0x0480 rq s = true) (hmask : rq.u32 0 = 0) :
    ∃ t r, execRunaheadRollbackForce rq s = .next t ∧ t.rollback = some r ∧
      (rq.ctx s 0x0480, s.time) ∈ r.forced ∧ t.time = s.time := by
  let u := rollbackTrigger 6 (linkLanes (List.range s.nLinks)) s
  obtain ⟨r, hr⟩ := rollbackTrigger_starts 6 (linkLanes (List.range s.nLinks)) s
  have htime : u.time = s.time := (congrArg State.time (pagesEnd_rollbackTrigger 6 _ s).frame :)
  refine ⟨{ u with rollback := some { r with forced := r.forced ++ [(rq.ctx s 0x0480, u.time)] } }, _, ?_, rfl, ?_, htime⟩
  · unfold execRunaheadRollbackForce
    simp only [hmask, if_pos]
    refine (command_pass 0x0480 rq _ _ s hs (by simp)).trans (congrArg Host.Outcome.next ?_)
    have hmap : u.rollback = some r := hr
    change { u with rollback := u.rollback.map _ } = _
    rw [hmap]
    rfl
  · rw [htime]
    exact List.mem_append_right _ (List.mem_singleton.mpr rfl)

theorem execRunaheadConfig_station (rq : Req) (s : State) (hs : served 0x0401 rq s = true) (hscope : rq.u8 0 = 0)
    (hi : rq.u8 1 ≤ 3) (hp : s.mci.personality = .press) (hw : rq.u16 2 = 0 ∨ (16 ≤ rq.u16 2 ∧ rq.u16 2 ≤ 1024))
    (hm : rq.u16 4 = 0 ∨ (20 ≤ rq.u16 4 ∧ rq.u16 4 ≤ 10000)) (w margin : Nat)
    (hwdef : w = if rq.u16 2 = 0 then 64 else rq.u16 2) (hmdef : margin = if rq.u16 4 = 0 then 100 else rq.u16 4) :
    execRunaheadConfig rq s = .next (respond rq 0x0401 Status.ok
      (leBytes 2 w ++ leBytes 1 (bit (pageActive s (rq.u8 1))) ++ zeros 1)
      (s.modStation (rq.u8 1) fun st => { st with ra :=
        { st.ra with window := w, margin := margin,
                     inForce := if pageActive s (rq.u8 1) then st.ra.inForce else w } })) := by
  have hwrange : 16 ≤ w ∧ w ≤ 1024 := by
    rw [hwdef]
    split <;> omega
  have hmrange : 20 ≤ margin ∧ margin ≤ 10000 := by
    rw [hmdef]
    split <;> omega
  unfold execRunaheadConfig
  dsimp only
  rw [hscope, if_pos rfl, if_pos rfl, if_pos rfl, ← hwdef, ← hmdef]
  refine command_pass 0x0401 rq _ _ s hs ?_
  simp [indexBad, scopeBad, hp, hi]
  omega

theorem execRunahead_otherScope (rq : Req) (s : State) (hscope : rq.u8 0 = 1) (hi : rq.u8 1 < s.nHeads)
    (hp : s.mci.personality = .press) :
    (served 0x0401 rq s = true → execRunaheadConfig rq s = .next (respond rq 0x0401 Status.badValue [] s)) ∧
    (served 0x0402 rq s = true → execRunaheadStatus rq s = .next (respond rq 0x0402 Status.badValue [] s)) := by
  have hindex : indexBad s (rq.u8 0) (rq.u8 1) = false := by simp [indexBad, hscope, hi]
  have hbad : scopeBad s (rq.u8 0) = true := by simp [scopeBad, hscope, hp]
  constructor
  · intro hs
    unfold execRunaheadConfig
    refine command_turned_away _ rq _ _ s true _ hs ?_
    simp [hindex, hbad]
  · intro hs
    unfold execRunaheadStatus
    refine command_turned_away _ rq _ _ s true _ hs ?_
    simp [hindex, hbad]

/-- The reply of runahead.status. -/
def runaheadPayload (r : RunAhead) (depth : Nat) : List Byte :=
  leBytes 2 r.inForce ++ leBytes 2 depth ++ zeros 4 ++ leBytes 8 r.committed.toNat ++
    r.rb.flatMap (·.bytes) ++ r.missed.bytes ++ r.underruns.bytes ++ r.tileFail.bytes ++ r.tileAgain.bytes ++
    r.tileBlank.bytes ++ leBytes 4 r.maxNs

theorem runaheadPayload_layout (r : RunAhead) (depth : Nat) (hrb : r.rb.length = 6) (hforce : r.inForce < 65536) :
    (runaheadPayload r depth).length = 64 ∧ leAt (runaheadPayload r depth) 0 2 = r.inForce ∧
      leAt (runaheadPayload r depth) 8 8 = r.committed.toNat ∧ leAt (runaheadPayload r depth) 40 4 = r.missed.n := by
  have hlen : (r.rb.flatMap (·.bytes)).length = 24 := by
    rw [length_flatMap_const 4 _ (fun c => by simp [Count.bytes]), hrb]
  unfold runaheadPayload
  simp only [List.append_assoc]
  have hcom := r.committed.isLt
  refine ⟨?_, ?_, ?_, ?_⟩
  · simp [hrb, Count.bytes]
  · simp [leAt_left, leAt_leBytes]
    omega
  · simp [leAt_left, leAt_right, leAt_leBytes]
    exact hcom
  · simp [leAt_left, leAt_right, leAt_count, hlen]

theorem execRunaheadStatus_head (rq : Req) (s : State) (hs : served 0x0402 rq s = true) (hscope : rq.u8 0 = 1)
    (hi : rq.u8 1 < s.nHeads) (hp : s.mci.personality = .forge) :
    execRunaheadStatus rq s = .next (respond rq 0x0402 Status.ok
      (runaheadPayload (s.head (rq.u8 1)).ra (min 65535 (depthOf s 1 (rq.u8 1)))) s) := by
  unfold execRunaheadStatus
  dsimp only
  rw [hscope, if_neg (by decide)]
  exact command_pass 0x0402 rq _ _ s hs (by simp [indexBad, scopeBad, hp, hi])

/-- Settles O21: a rollback's end takes its longest time into each of its stations, by a fold of updates that commute with
themselves, and the late raise follows the device time alone. -/
theorem rollbacksAndWindows : Obligations.RollbacksAndWindows := by
  unfold Obligations.RollbacksAndWindows
  refine ⟨?_, ?_, execRollback_none, execRunaheadRollbackForce_all, ?_, ?_, ?_⟩
  · intro ns r s hr hforced hheads u
    exact execRollbackComplete_unforced ns r s u hr hforced hheads rfl
  · intro r s hr u
    exact execRollbackOvertime_some r s u hr rfl
  · intro rq s hs hscope hi hp hw hm w margin
    exact execRunaheadConfig_station rq s hs hscope hi hp hw hm w margin rfl rfl
  · intro rq s hs hscope hi hp
    exact ⟨(execRunahead_otherScope rq s hscope hi hp).1 hs, (execRunahead_otherScope rq s hscope hi hp).2 (by exact hs)⟩
  · intro rq s hs hscope hi hp hforce hrb
    obtain ⟨hlen, hinForce, hcommitted, hmissed⟩ :=
      runaheadPayload_layout (s.head (rq.u8 1)).ra (min 65535 (depthOf s 1 (rq.u8 1))) hrb hforce
    exact ⟨_, execRunaheadStatus_head rq s hs hscope hi hp, hlen, hinForce, hcommitted, hmissed⟩

end Sys2Proof.Machine
end

section
/-!
PROOFS. Press pages (spec/07_press_process.md R192 to R195, R199 to R202): `PagesAreSubmittedAndAborted`.
-/
namespace Sys2Proof.Machine

open Sys2Proof

theorem execPressMediaConfig_stored (rq : Req) (s : State) (hs : served 0x0601 rq s = true)
    (hp : s.mci.personality = .press) (h0 : rq.u8 0 ≤ 1) (h1 : rq.u8 1 ≤ 15) (h2 : 26 ≤ rq.u8 2) (h2' : rq.u8 2 ≤ 33)
    (h3 : rq.u8 3 ≤ 15 ∨ rq.u8 3 = 0xFF) (h4 : rq.u32 4 ≠ 0) (h12 : rq.u16 12 ≠ 0) :
    execPressMediaConfig rq s = .next (respond rq 0x0601 Status.ok [] { s with media :=
      { kind := rq.u8 0, pace := rq.u8 1, top := rq.u8 2, check := if rq.u8 3 = 0xFF then none else some (rq.u8 3),
        linesPerCount := rq.u32 4, ratio := rq.u32 8, slipLimit := rq.u16 12,
        offsets := (List.range 4).map fun i => rq.i32 (16 + 4 * i) } }) := by
  have hcheck : ¬ (15 < rq.u8 3 ∧ ¬ rq.u8 3 = 0xFF) := by omega
  unfold execPressMediaConfig
  refine commandOf_pass .press 0x0601 rq _ _ s hs hp ?_
  simp [h4, h12]
  omega

/-! ### Submission (R195, R201, R202) -/

/-- The page of a submission. -/
def pageOf (rq : Req) (bs : List Band) (s : State) : Job :=
  { serial := s.jobSerial, pageId := BitVec.ofNat 32 (rq.u32 4), lines := rq.u32 8, bands := bs, st := .queued,
    ctx := rq.ctx s 0x0602, media := s.media, phiTop := 0, checkTop := 0, flags := 0, firstAt := 0, written := 0,
    dropped := 0, repeated := 0, cause := 0, input := 0xFF, energy := 0, abort := none, lastN := none, lastL0 := none,
    lastP := none, tables := {}, gated := false }

/-- What the feed core requests for a band. -/
def bandJobOf (rq : Req) (b : Band) : FwJob :=
  { station := rq.u8 0, page := BitVec.ofNat 32 (rq.u32 4), src := b.address, srcLen := b.clen, origCrc := b.origCrc,
    row := b.row, firstCol := b.firstCol, ncol := b.ncol, again := none, old := 0 }

theorem execPressPageSubmit_queued (rq : Req) (bs : List Band) (s u : State) (haddr : rq.u64 16 < 2 ^ 48)
    (hu : u = tableRead 0x0602 rq (rq.u64 16) (24 * rq.u16 12) s) (hs : served 0x0602 rq u = true)
    (hp : u.mci.personality = .press) (hi : rq.u8 0 ≤ 3) (hlines : 1 ≤ rq.u32 8) (hlines' : rq.u32 8 ≤ 4194304)
    (hheld : ((u.station (rq.u8 0)).jobs.filter fun j => j.st ≠ .completed && j.st ≠ .aborted).length < 8)
    (hconf : (u.station (rq.u8 0)).configured = true) (hex : (u.station (rq.u8 0)).exhausted = false)
    (hgrace : u.pwr.grace = none) (hfed : u.stationFed (rq.u8 0) = true)
    (hbands : bandList u (rq.u8 0) (rq.u64 16) (rq.u16 12) (BitVec.ofNat 32 (rq.u32 24)) (rq.u32 8) = some bs) :
    execPressPageSubmit rq s = .next (accept rq 0x0602 []
      ({ u with jobSerial := u.jobSerial + 1,
                dma := { u.dma with fwQueue := u.dma.fwQueue ++ bs.map (bandJobOf rq) } }.modStation (rq.u8 0) fun st =>
        { st with jobs := st.jobs ++ [pageOf rq bs u] })) := by
  unfold execPressPageSubmit
  dsimp only
  rw [if_pos haddr, ← hu]
  refine (commandOf_pass .press 0x0602 rq _ _ u hs hp ?_).trans ?_
  · simp only [List.forall_mem_cons]
    refine ⟨?_, ?_, ?_, ?_, ?_, List.forall_mem_nil _⟩
    · simpa using hi
    · simp
      omega
    · simpa using hheld
    · simp [hconf, hex, hgrace]
    · simp [hbands]
  · rw [hbands]
    simp only [hfed, Option.getD_some]
    rfl

/-- A page that joins a station stands behind the others, and nothing else changes but the reply. -/
theorem accept_newPage (rq : Req) (i : Nat) (j : Job) (s t : State) (hi : i < s.stations.length)
    (ht : t = accept rq 0x0602 [] (s.modStation i fun st => { st with jobs := st.jobs ++ [j] })) :
    (t.station i).jobs = (s.station i).jobs ++ [j] ∧ (∀ k, k ≠ i → t.station k = s.station k) ∧
      { t with stations := s.stations, mci := s.mci } = s := by
  subst ht
  unfold accept
  refine ⟨?_, fun k hk => ?_, ?_⟩
  · rw [respond_station, State.modStation_same _ _ _ hi]
  · rw [respond_station, State.modStation_ne _ _ _ k (Ne.symm hk)]
  · exact (congrArg (fun t : State => { t with stations := s.stations }) (respond_frame ..) :)

/-! ### Aborts (R163, R200) -/

/-- What does not bring a page to a station: it has as many stations, and one that holds no page still holds none. -/
structure NoPage (i : Nat) (s t : State) : Prop where
  length : t.stations.length = s.stations.length
  jobs : (s.station i).jobs = [] → (t.station i).jobs = []

theorem NoPage.refl (i : Nat) (s : State) : NoPage i s s := ⟨rfl, id⟩

theorem NoPage.trans {i : Nat} {s t u : State} (h : NoPage i s t) (g : NoPage i t u) : NoPage i s u :=
  ⟨g.length.trans h.length, fun hs => g.jobs (h.jobs hs)⟩

theorem noPage_of {i : Nat} {s t : State} (h : t.stations = s.stations) : NoPage i s t :=
  ⟨by rw [h], fun hs => by unfold State.station at *; rw [h]; exact hs⟩

theorem noPage_modStation (i : Nat) (f : Station → Station) (s : State) (hf : ∀ st, st.jobs = [] → (f st).jobs = []) :
    NoPage i s (s.modStation i f) := by
  refine ⟨length_modAt .., fun hs => ?_⟩
  by_cases hi : i < s.stations.length
  · rw [State.modStation_same _ _ _ hi]
    exact hf _ hs
  · have hlen : (s.modStation i f).stations.length = s.stations.length := length_modAt ..
    unfold State.station
    rw [at'_ge _ _ _ (by omega)]

theorem noPage_refreshSearch (i : Nat) (s : State) : NoPage i s (refreshSearch s) := by
  have hlen : (refreshSearch s).stations.length = s.stations.length := by simp [refreshSearch]
  refine ⟨hlen, fun hs => ?_⟩
  by_cases hi : i < s.stations.length
  · rw [refreshSearch_station i s hi]
    exact hs
  · unfold State.station
    rw [at'_ge _ _ _ (by omega)]

theorem foldl_stations {α : Type} (f : State → α → State) (hf : ∀ s x, (f s x).stations = s.stations) (l : List α)
    (s : State) : (l.foldl f s).stations = s.stations := by
  induction l generalizing s with
  | nil => rfl
  | cons x l ih => exact (ih (f s x)).trans (hf s x)

theorem gateLink_stations (cause l : Nat) (s : State) : (gateLink cause l s).stations = s.stations := by
  unfold gateLink
  split
  · rfl
  · unfold sendGate
    split
    · exact (congrArg State.stations (sendCtl_frame l 3 _ _) :).trans (congrArg State.stations (modLink_frame s l _) :)
    · exact (congrArg State.stations (modLink_frame s l _) :)

/-- The pages of a station that are over leave it. -/
theorem reportJobs_jobs (i : Nat) (s : State) :
    (reportJobs i s).stations.length = s.stations.length ∧
      ((s.station i).jobs.filter (fun j => !jobOver (s.station i) j) = [] → ((reportJobs i s).station i).jobs = []) := by
  have hreport (s : State) (j : Job) (status : Nat) (payload : List Byte) : (complete j.ctx status payload
      (if (s.station i).jobs.any fun k => k.pageId = j.pageId then s
       else
        let s := (tilesOf s (.station i) j.pageId).foldl (fun s h => releaseTile h s) s
        { s with dma := { s.dma with fwQueue := s.dma.fwQueue.filter fun f => !(f.station = i && f.page = j.pageId) } })
      ).stations = s.stations := by
    refine (congrArg State.stations (complete_frame ..) :).trans ?_
    split
    · rfl
    · exact foldl_stations (fun s h => releaseTile h s) (fun _ _ => rfl) (tilesOf s (.station i) j.pageId) s
  have hfold : NoPage i (s.modStation i fun st => { st with jobs := st.jobs.filter fun j => !jobOver st j }) (reportJobs i s) := by
    unfold reportJobs
    dsimp only
    split
    · exact noPage_of (foldl_stations _ (fun s j => hreport s j _ _) _ _)
    · exact (noPage_of (foldl_stations _ (fun s j => hreport s j _ _) _ _)).trans (noPage_refreshSearch i _)
  refine ⟨hfold.length.trans (length_modAt ..), fun hnone => hfold.jobs ?_⟩
  by_cases hi : i < s.stations.length
  · rw [State.modStation_same _ _ _ hi]
    exact hnone
  · have hlen : (s.modStation i fun st => { st with jobs := st.jobs.filter fun j => !jobOver st j }).stations.length =
        s.stations.length := length_modAt ..
    unfold State.station
    rw [at'_ge _ _ _ (by omega)]

theorem noPage_reportJobs (i : Nat) (s : State) : NoPage i s (reportJobs i s) :=
  ⟨(reportJobs_jobs i s).1, fun hs => (reportJobs_jobs i s).2 (by rw [hs]; rfl)⟩

theorem noPage_modTiles (i : Nat) (f : Tile → Tile) (s : State) : NoPage i s (s.modTiles f) := noPage_of rfl

theorem noPage_emptyStation (i : Nat) (s : State) : NoPage i s (emptyStation i s) := by
  unfold emptyStation
  dsimp only
  split
  · exact .refl i s
  · refine NoPage.trans ?_ (noPage_reportJobs i _)
    refine NoPage.trans (noPage_of ?_) ((noPage_modStation i (fun st => { st with sweeps := [], slotFired := [] }) _
      fun _ h => h).trans (noPage_modTiles i _ _))
    exact foldl_stations _ (fun s l => State.modLink_stations s l _) _ _

theorem noPage_modJobs (i : Nat) (f : Job → Job) (s : State) : NoPage i s (s.modJobs i f) :=
  noPage_modStation i (fun st => { st with jobs := st.jobs.map f }) s fun st h => by rw [h]; rfl

theorem modGpi_stations (g : Nat) (f : Gpi → Gpi) (s : State) : (s.modGpi g f).stations = s.stations := rfl

theorem noPage_paperOutGates (i : Nat) (s : State) : NoPage i s (paperOutGates i s) := by
  unfold paperOutGates
  dsimp only
  split
  · exact .refl i s
  · refine NoPage.trans ?_ (noPage_emptyStation i _)
    refine NoPage.trans ?_ (noPage_modJobs i _ _)
    refine NoPage.trans ?_ (noPage_of (foldl_stations _ (fun s l => gateLink_stations 2 l s) _ _))
    exact noPage_of (foldl_stations _ (fun s g => modGpi_stations g _ s) _ _)

/-- A station has no sweep and its pages have been aborted. -/
def Station.ended (st : Station) : Prop := st.sweeps = [] ∧ ∀ j ∈ st.jobs, j.st = .aborted

theorem station_modStation (P : Station → Prop) (i : Nat) (f : Station → Station) (s : State) (k : Nat)
    (h : P (s.station k)) (hf : P (f (s.station k))) : P ((s.modStation i f).station k) := by
  have hat : (s.modStation i f).station k = s.station k ∨ (s.modStation i f).station k = f (s.station k) := by
    unfold State.modStation State.station
    rw [at'_modAt]
    split
    · exact Or.inr rfl
    · exact Or.inl rfl
  cases hat with
  | inl heq => rw [heq]; exact h
  | inr heq => rw [heq]; exact hf

theorem Station.ended.sweeps {st : Station} (h : st.ended) (off : Sweep → Sweep) :
    ({ st with sweeps := st.sweeps.map off } : Station).ended := ⟨by rw [h.1]; rfl, h.2⟩

/-- A station that has ended has no page once they are reported. -/
theorem reportJobs_ended (i : Nat) (s : State) (h : (s.station i).ended) : ((reportJobs i s).station i).jobs = [] := by
  refine (reportJobs_jobs i s).2 (List.filter_eq_nil_iff.mpr fun j hj => ?_)
  unfold jobOver
  rw [h.1, h.2 j hj]
  simp

theorem releaseUnread_stations (i : Nat) (page : BitVec 32) (s : State) :
    (releaseUnread i page s).stations = s.stations := by
  unfold releaseUnread
  dsimp only
  split
  · rfl
  · exact foldl_stations (fun s (t : Tile) => releaseTile t.handle s) (fun _ _ => rfl) _ s

theorem releaseAll_ended (i : Nat) (js : List Job) (s : State) (h : (s.station i).ended) :
    ((js.foldl (fun s j => releaseUnread i j.pageId s) s).station i).ended := by
  unfold State.station at *
  rw [foldl_stations (fun s j => releaseUnread i j.pageId s) (fun s j => releaseUnread_stations i j.pageId s) js s]
  exact h

theorem modJobs_ended (i : Nat) (f : Job → Job) (s : State) (hi : i < s.stations.length)
    (hsweeps : (s.station i).sweeps = []) (hf : ∀ j ∈ (s.station i).jobs, (f j).st = .aborted) :
    ((s.modJobs i f).station i).ended := by
  unfold State.modJobs
  rw [State.modStation_same _ _ _ hi]
  exact ⟨hsweeps, List.forall_mem_map.mpr hf⟩

/-- With no sweep on a station, every page of it that has not begun ends and leaves it at once. -/
theorem abortJobsAt_queued (i : Nat) (pred : Job → Bool) (cause input : Nat) (flags : BitVec 16) (s : State)
    (hsweeps : (s.station i).sweeps = [])
    (hall : ∀ j ∈ (s.station i).jobs, pred j = true ∧ j.st = .queued) :
    ((abortJobsAt i pred cause input flags s).station i).jobs = [] := by
  have hhit : (s.station i).jobs.filter (fun j => pred j && j.st ≠ .completed && j.st ≠ .aborted) = (s.station i).jobs := by
    refine List.filter_eq_self.mpr fun j hj => ?_
    obtain ⟨hp, hst⟩ := hall j hj
    simp [hp, hst]
  unfold abortJobsAt
  rw [hhit]
  dsimp only
  split
  · next hnone => exact hnone
  · next hsome =>
    have hi : i < s.stations.length := by
      by_contra hge
      exact hsome (by unfold State.station; rw [at'_ge _ _ _ (by omega)])
    have hnotActive : ((s.station i).jobs.any fun j => j.st = .active) = false :=
      List.any_eq_false.mpr fun j hj => by simp [(hall j hj).2]
    generalize hu : s.modJobs i _ = u
    have hended : (u.station i).ended := by
      rw [← hu]
      refine modJobs_ended i _ s hi hsweeps fun j hj => ?_
      rw [if_pos (List.any_eq_true.mpr ⟨j, hj, by simp⟩)]
    have hbegun : ((s.station i).jobs.any fun j => j.st = .active || (u.station i).sweeps.any fun w =>
        w.job = some j.serial && w.admitted && !w.committed) = false :=
      List.any_eq_false.mpr fun j hj => by simp [(hall j hj).2, hended.1]
    rw [hnotActive, hbegun, if_neg (by decide), if_neg (by decide)]
    simp only [hended.1, List.filter_nil, List.foldl_nil]
    refine (noPage_paperOutGates i _).jobs (reportJobs_ended i _ (releaseAll_ended i _ _ ?_))
    exact station_modStation Station.ended i _ u i hended (hended.sweeps _)

/-- Every page of the only named station is of the job, and none has begun. -/
theorem execPressPageAbort_queued (rq : Req) (s : State) (hs : served 0x0603 rq s = true)
    (hp : s.mci.personality = .press) (hmask : rq.u8 4 = 1) (hsweeps : (s.station 0).sweeps = [])
    (hall : ∀ j ∈ (s.station 0).jobs, j.pageId = BitVec.ofNat 32 (rq.u32 0) ∧ j.st = .queued)
    (hsome : (s.station 0).jobs ≠ []) :
    ∃ t, execPressPageAbort rq s = .next t ∧ (t.station 0).jobs = [] ∧ t.forge = s.forge ∧
      t.dram = s.dram ∧ t.time = s.time := by
  obtain ⟨j₀, hj₀⟩ := List.exists_mem_of_ne_nil _ hsome
  have hbits : maskBits 4 1 = [0] := by decide
  have hlost (j : Job) (hj : j ∈ (s.station 0).jobs) : (j.st = .completed || lastCommitDue s 0 j) = false := by
    have hst := (hall j hj).2
    unfold lastCommitDue
    simp only [hst]
    split <;> simp
  have hmine : ((s.station 0).jobs.any fun j => j.pageId = BitVec.ofNat 32 (rq.u32 0)) = true :=
    List.any_eq_true.mpr ⟨j₀, hj₀, by simp [(hall j₀ hj₀).1]⟩
  have hlive : ((s.station 0).jobs.any fun j => decide (j.pageId = BitVec.ofNat 32 (rq.u32 0)) &&
      !(j.st = .completed || lastCommitDue s 0 j) && j.st ≠ .aborted) = true :=
    List.any_eq_true.mpr ⟨j₀, hj₀, by rw [hlost j₀ hj₀, (hall j₀ hj₀).1, (hall j₀ hj₀).2]; simp⟩
  let u := abortPending 0 (fun j => j.pageId = BitVec.ofNat 32 (rq.u32 0) && !(j.st = .completed || lastCommitDue s 0 j)) 1
    (abortJobsAt 0 (fun j => j.pageId = BitVec.ofNat 32 (rq.u32 0) && (j.st = .queued || j.st = .armed)) 1 0xFF 0 s)
  have hends : PagesEnd s u := (pagesEnd_abortJobsAt ..).trans (pagesEnd_modJobs ..)
  have hjobs : (u.station 0).jobs = [] := (noPage_modJobs 0 _ _).jobs (abortJobsAt_queued 0 _ 1 0xFF 0 s hsweeps
    fun j hj => by rw [(hall j hj).1, (hall j hj).2]; simp)
  obtain ⟨status, payload, hexec⟩ : ∃ status payload,
      execPressPageAbort rq s = .next (respond rq 0x0603 status payload u) := by
    unfold execPressPageAbort
    simp only [hmask, if_neg (show ¬ 1 = 0 by decide), hbits, List.filter_cons, List.filter_nil, hmine, hlive, if_true]
    exact ⟨_, _, commandOf_pass .press 0x0603 rq _ _ s hs hp (by simp)⟩
  have hframe := respond_frame rq 0x0603 status payload u
  refine ⟨_, hexec, ?_, ?_, ?_, ?_⟩
  · rw [respond_station]
    exact hjobs
  · exact (congrArg State.forge hframe :).trans (congrArg State.forge hends.frame :)
  · exact (congrArg State.dram hframe :).trans (congrArg State.dram hends.frame :)
  · exact (congrArg State.time hframe :).trans (congrArg State.time hends.frame :)

theorem execPressPageAbort_unknown (rq : Req) (s : State) (hs : served 0x0603 rq s = true)
    (hp : s.mci.personality = .press)
    (hnone : ∀ i, i < 4 → ∀ j ∈ (s.station i).jobs, j.pageId ≠ BitVec.ofNat 32 (rq.u32 0)) :
    execPressPageAbort rq s = .next (respond rq 0x0603 Status.notFound [] s) := by
  have hsts (mask : Nat) : ((maskBits 4 mask).filter fun i =>
      (s.station i).jobs.any fun j => j.pageId = BitVec.ofNat 32 (rq.u32 0)) = [] := by
    refine List.filter_eq_nil_iff.mpr fun i hi => ?_
    have hlt : i < 4 := by
      unfold maskBits at hi
      exact List.mem_range.mp (List.mem_of_mem_filter hi)
    simpa using hnone i hlt
  unfold execPressPageAbort
  refine commandOf_turned_away .press 0x0603 rq _ _ s true _ hs hp ?_
  simp [hsts]

theorem execArmedJobNoTrack_some (i : Nat) (j : Job) (s : State)
    (hj : ((s.station i).jobs.find? fun j => j.st = .armed && j.lastL0.isNone) = some j) :
    execArmedJobNoTrack i s = .next (present 0x00C8 (some i) 0
      (abortJobsAt i (fun k => k.serial = j.serial) 4 0xFF 0 s)) := by
  unfold execArmedJobNoTrack
  rw [hj]

/-- Settles O24: a submission's page joins its station behind the others, and the pages of an abort that have not begun
are over at once, so that they are reported and leave. -/
theorem pagesAreSubmittedAndAborted : Obligations.PagesAreSubmittedAndAborted := by
  unfold Obligations.PagesAreSubmittedAndAborted
  refine ⟨execPressMediaConfig_stored, ?_, ?_, execPressPageAbort_unknown, execArmedJobNoTrack_some⟩
  · intro rq bs s _ haddr u hs hlen hp hi hlines hlines' hheld hconf hex hgrace hfed hbands
    have hi' : rq.u8 0 < u.stations.length := by omega
    have hexec := execPressPageSubmit_queued rq bs s u haddr rfl hs hp hi hlines hlines' hheld hconf hex hgrace hfed hbands
    obtain ⟨hjobs, hothers, hframe⟩ := accept_newPage rq (rq.u8 0) (pageOf rq bs u)
      { u with jobSerial := u.jobSerial + 1, dma := { u.dma with fwQueue := u.dma.fwQueue ++ bs.map (bandJobOf rq) } }
      _ hi' rfl
    refine ⟨_, pageOf rq bs u, hexec, hjobs, rfl, rfl, rfl, rfl, rfl, rfl, rfl, ?_, hothers, ?_⟩
    · have hdma := (congrArg (fun t : State => t.dma.fwQueue.length) hframe :)
      exact hdma.trans (by simp)
    · exact (congrArg (fun t : State => { t with dma := u.dma, jobSerial := u.jobSerial }) hframe :)
  · intro rq s hs _ hp hmask hsweeps hall hsome
    exact execPressPageAbort_queued rq s hs hp hmask hsweeps hall hsome

end Sys2Proof.Machine
end

section
/-!
PROOFS. Forge's heads, programs, interlocks and permit (spec/08_forge_scanning.md R212 to R217, R220, R231,
spec/09_forge_overlap_meltpool.md R247): `ForgeIsConfigured`.
-/
namespace Sys2Proof.Machine

open Sys2Proof

/-! ### The inputs under the end of pages and layers -/

/-- An input without the stations whose pages it waits for. -/
def Gpi.settled (x : Gpi) : Gpi := { x with pendingStations := [] }

/-- The inputs are as they were, but for the stations they wait for. -/
structure InputsKept (s t : State) : Prop where
  inputs : t.gpi.map Gpi.settled = s.gpi.map Gpi.settled

theorem InputsKept.refl (s : State) : InputsKept s s := ⟨rfl⟩

theorem InputsKept.trans {s t u : State} (h : InputsKept s t) (g : InputsKept t u) : InputsKept s u :=
  ⟨g.inputs.trans h.inputs⟩

theorem inputsKept_foldl {α : Type} (f : State → α → State) (l : List α) (s : State) (hf : ∀ s x, InputsKept s (f s x)) :
    InputsKept s (l.foldl f s) := by
  induction l generalizing s with
  | nil => exact InputsKept.refl s
  | cons x l ih => exact (hf s x).trans (ih _)

theorem inputsKept_of {s t : State} (h : t.gpi = s.gpi) : InputsKept s t := ⟨by rw [h]⟩

theorem inputsKept_update (s : State) (links rollback stations heads forge lag dma therm flt) :
    InputsKept s { s with links := links, rollback := rollback, stations := stations, heads := heads, forge := forge,
                          lag := lag, dma := dma, therm := therm, flt := flt } := ⟨rfl⟩

theorem inputsKept_modLink (l : Nat) (f : Link → Link) (s : State) : InputsKept s (s.modLink l f) :=
  inputsKept_of (State.modLink_gpi ..)

theorem inputsKept_modHead (h : Nat) (f : Head → Head) (s : State) : InputsKept s (s.modHead h f) :=
  inputsKept_of (State.modHead_gpi ..)

theorem inputsKept_modStation (i : Nat) (f : Station → Station) (s : State) : InputsKept s (s.modStation i f) := ⟨rfl⟩

theorem inputsKept_modJobs (i : Nat) (f : Job → Job) (s : State) : InputsKept s (s.modJobs i f) := ⟨rfl⟩

theorem inputsKept_modTiles (f : Tile → Tile) (s : State) : InputsKept s (s.modTiles f) := ⟨rfl⟩

theorem inputsKept_releaseTile (h : Nat) (s : State) : InputsKept s (releaseTile h s) := ⟨rfl⟩

theorem inputsKept_refreshSearch (s : State) : InputsKept s (refreshSearch s) := ⟨rfl⟩

theorem inputsKept_complete (c : Ctx) (status : Nat) (payload : List Byte) (s : State) :
    InputsKept s (complete c status payload s) := inputsKept_of (congrArg State.gpi (complete_frame c status payload s) :)

theorem ThermOnly.inputsKept {s t : State} (h : ThermOnly s t) : InputsKept s t :=
  inputsKept_of (congrArg State.gpi h.frame :)

theorem inputsKept_syncPrivilege (s : State) : InputsKept s (syncPrivilege s) := (thermOnly_syncPrivilege s).inputsKept

theorem inputsKept_gateLink (cause l : Nat) (s : State) : InputsKept s (gateLink cause l s) := by
  unfold gateLink sendGate
  (repeat' split)
  · exact .refl s
  · exact (inputsKept_modLink ..).trans (inputsKept_of (congrArg State.gpi (sendCtl_frame ..) :))
  · exact inputsKept_modLink ..

theorem inputsKept_rollbackTrigger (code : Nat) (lanes : BitVec 192) (s : State) :
    InputsKept s (rollbackTrigger code lanes s) := by
  unfold rollbackTrigger
  refine InputsKept.trans ?_ (inputsKept_update _ _ _ _ _ _ _ _ _ _)
  refine InputsKept.trans ?_ (inputsKept_foldl _ _ _ fun _ _ => inputsKept_modLink ..)
  refine InputsKept.trans ?_ (inputsKept_foldl _ _ _ fun _ _ => (inputsKept_modHead ..).trans
    ((inputsKept_modHead ..).trans (inputsKept_modTiles ..)))
  exact inputsKept_foldl _ _ _ fun _ _ => (inputsKept_modStation ..).trans
    ((inputsKept_modStation ..).trans (inputsKept_modTiles ..))

theorem inputsKept_reportJobs (i : Nat) (s : State) : InputsKept s (reportJobs i s) := by
  have hone (s : State) (j : Job) (status payload) : InputsKept s (complete j.ctx status payload
      (if (s.station i).jobs.any fun k => k.pageId = j.pageId then s
       else
        let s := (tilesOf s (.station i) j.pageId).foldl (fun s h => releaseTile h s) s
        { s with dma := { s.dma with fwQueue := s.dma.fwQueue.filter fun f => !(f.station = i && f.page = j.pageId) } })) := by
    refine InputsKept.trans ?_ (inputsKept_complete ..)
    split
    · exact .refl s
    · exact (inputsKept_foldl _ _ _ fun _ _ => inputsKept_releaseTile ..).trans (inputsKept_update _ _ _ _ _ _ _ _ _ _)
  have hjobs := inputsKept_modStation i (fun st => { st with jobs := st.jobs.filter fun j => !jobOver st j }) s
  unfold reportJobs
  dsimp only
  split
  · exact hjobs.trans (inputsKept_foldl _ _ _ fun s j => hone s j _ _)
  · exact (hjobs.trans (inputsKept_foldl _ _ _ fun s j => hone s j _ _)).trans (inputsKept_refreshSearch _)

theorem inputsKept_emptyStation (i : Nat) (s : State) : InputsKept s (emptyStation i s) := by
  unfold emptyStation
  dsimp only
  split
  · exact .refl s
  · refine InputsKept.trans ?_ (inputsKept_reportJobs ..)
    refine InputsKept.trans ?_ (inputsKept_modTiles ..)
    refine InputsKept.trans ?_ (inputsKept_modStation ..)
    exact inputsKept_foldl _ _ _ fun _ _ => inputsKept_modLink ..

theorem inputsKept_modGpi (g : Nat) (f : Gpi → Gpi) (s : State) (hf : ∀ x, (f x).settled = x.settled) :
    InputsKept s (s.modGpi g f) := ⟨map_modAt Gpi.settled s.gpi g f hf⟩

theorem inputsKept_paperOutGates (i : Nat) (s : State) : InputsKept s (paperOutGates i s) := by
  unfold paperOutGates
  dsimp only
  split
  · exact .refl s
  · refine InputsKept.trans ?_ (inputsKept_emptyStation ..)
    refine InputsKept.trans ?_ (inputsKept_modJobs ..)
    refine InputsKept.trans ?_ (inputsKept_foldl _ _ _ fun _ _ => inputsKept_gateLink ..)
    exact inputsKept_foldl _ _ _ fun _ _ => inputsKept_modGpi _ _ _ fun _ => rfl

theorem inputsKept_abortJobsAt (i : Nat) (pred : Job → Bool) (cause input : Nat) (flags : BitVec 16) (s : State) :
    InputsKept s (abortJobsAt i pred cause input flags s) := by
  have hunread (page : BitVec 32) (s : State) : InputsKept s (releaseUnread i page s) := by
    unfold releaseUnread
    dsimp only
    split
    · exact .refl s
    · exact inputsKept_foldl _ _ _ fun _ _ => inputsKept_releaseTile ..
  have hend (s : State) (hit sweeps) (off : Station → Sweep → Sweep) : InputsKept s (paperOutGates i (reportJobs i
      ((hit : List Job).foldl (fun s j => releaseUnread i j.pageId s)
        (((sweeps : List Sweep).foldl (fun s w => purgeUnit i (.sweep i w.n) s) s).modStation i fun st =>
          { st with sweeps := st.sweeps.map (off st) })))) := by
    refine InputsKept.trans ?_ (inputsKept_paperOutGates ..)
    refine InputsKept.trans ?_ (inputsKept_reportJobs ..)
    refine InputsKept.trans ?_ (inputsKept_foldl _ _ _ fun _ _ => hunread _ _)
    exact (inputsKept_foldl _ _ _ fun _ _ => inputsKept_foldl _ _ _ fun _ _ => inputsKept_modLink ..).trans
      (inputsKept_modStation ..)
  have hbegun (s : State) (b : Bool) :
      InputsKept s (if b then rollbackTrigger 2 (linkLanes (s.station i).links) s else s) := by
    split
    · exact inputsKept_rollbackTrigger ..
    · exact .refl s
  unfold abortJobsAt
  dsimp only
  split
  · exact .refl s
  · split
    · refine InputsKept.trans ?_ (inputsKept_syncPrivilege _)
      exact ((inputsKept_modJobs ..).trans (hbegun _ _)).trans (hend _ _ _ _)
    · exact ((inputsKept_modJobs ..).trans (hbegun _ _)).trans (hend _ _ _ _)

theorem inputsKept_decideLayer (cause : Nat) (s : State) : InputsKept s (decideLayer cause s) := by
  have hfinish (s : State) : InputsKept s (finishLayer s) := by
    unfold finishLayer
    dsimp only
    split
    · split
      · exact (inputsKept_update s _ _ _ _ _ _ _ _ _).trans (inputsKept_complete ..)
      · exact inputsKept_update s _ _ _ _ _ _ _ _ _
    · exact .refl s
  have hdrop (s : State) : InputsKept s (dropReassignment s) :=
    (inputsKept_update s _ _ _ _ _ _ _ _ _).trans (inputsKept_foldl _ _ _ fun _ _ => inputsKept_complete ..)
  have hsync (f : Forge) : InputsKept s (syncPrivilege { s with forge := f }) :=
    (inputsKept_update s _ _ _ _ _ _ _ _ _).trans (inputsKept_syncPrivilege _)
  unfold decideLayer
  split
  · exact .refl s
  · refine InputsKept.trans ?_ (hfinish _)
    refine InputsKept.trans ?_ (inputsKept_foldl _ _ _ fun _ _ => (inputsKept_modLink ..).trans (inputsKept_modHead ..))
    refine InputsKept.trans ?_ (inputsKept_foldl _ _ _ fun _ _ => inputsKept_gateLink ..)
    refine InputsKept.trans ?_ (hdrop _)
    refine InputsKept.trans ?_ (inputsKept_foldl _ _ _ fun _ _ => inputsKept_releaseTile ..)
    refine InputsKept.trans ?_ (inputsKept_update _ _ _ _ _ _ _ _ _ _)
    split
    · exact hsync _
    · refine InputsKept.trans ?_ (inputsKept_foldl _ _ _ fun _ _ => (inputsKept_modHead ..).trans (inputsKept_modTiles ..))
      exact (hsync _).trans (inputsKept_rollbackTrigger ..)

theorem inputsKept_setCauseBy (cause : Nat) (links : List Nat) (abortCause input : Nat) (flags : BitVec 16) (s : State) :
    InputsKept s (setCauseBy cause links abortCause input flags s) := by
  have hgates (links : List Nat) (s : State) : InputsKept s (links.foldl (fun s l => gateLink cause l s) s) :=
    inputsKept_foldl _ _ _ fun _ _ => inputsKept_gateLink ..
  have hstations (sts : List Nat) (s : State) :
      InputsKept s (sts.foldl (fun s i => emptyStation i (gateStation i abortCause input flags s)) s) :=
    inputsKept_foldl _ _ _ fun _ _ =>
      ((inputsKept_modJobs ..).trans (inputsKept_abortJobsAt ..)).trans (inputsKept_emptyStation ..)
  have hlayer (s : State) : InputsKept s (gateLayer abortCause flags s) := by
    unfold gateLayer
    (repeat' split)
    · exact (inputsKept_update s _ _ _ _ _ _ _ _ _).trans (inputsKept_decideLayer ..)
    · exact inputsKept_update s _ _ _ _ _ _ _ _ _
    · exact .refl s
  unfold setCauseBy
  dsimp only
  split
  · exact ((hgates _ s).trans (hstations _ _)).trans (hlayer _)
  · exact (hgates _ s).trans (hstations _ _)

theorem InputsKept.gpiOf {s t : State} (h : InputsKept s t) (g : Nat) (hg : g < s.gpi.length) :
    (t.gpiOf g).settled = (s.gpiOf g).settled := by
  have hlen : t.gpi.length = s.gpi.length := by simpa using congrArg List.length h.inputs
  have hmap := congrArg (fun l => at' l g ({} : Gpi)) h.inputs
  rwa [at'_map Gpi.settled t.gpi g {} {} (hlen ▸ hg), at'_map Gpi.settled s.gpi g {} {} hg] at hmap

/-! ### Heads (R212, R213, R217, R220) -/

/-- A head as forge.head.config leaves it. -/
def Head.configuredBy (rq : Req) (x : Head) : Head :=
  { x with configured := true, rate := rq.u8 1, trackDelay := rq.u16 2, jumpSpeed := rq.u16 4, jumpSettle := rq.u16 6,
           ox := rq.i32 8, oy := rq.i32 12, m := [rq.i32 16, rq.i32 20, rq.i32 24, rq.i32 28], fullScale := rq.u16 32,
           powerMax := rq.u16 34, park := ⟨rq.i32 36, rq.i32 40⟩, energyCap := rq.u32 44, lineMax := rq.u32 48,
           auxA := BitVec.ofNat 24 (rq.u32 52), auxB := BitVec.ofNat 24 (rq.u32 56) }

theorem execForgeHeadConfig_stored (rq : Req) (s : State) (hs : served 0x0701 rq s = true)
    (hp : s.mci.personality = .forge) (hh : rq.u8 0 < s.nHeads) (h1 : 10 ≤ rq.u8 1) (h1' : rq.u8 1 ≤ 100)
    (h2 : rq.u16 2 ≤ 1000) (h4 : rq.u16 4 ≠ 0) (h6 : rq.u16 6 ≤ 10000) (h32 : 1 ≤ rq.u16 32) (h32' : rq.u16 32 ≤ 10000)
    (hfield : ({ s.head (rq.u8 0) with ox := rq.i32 8, oy := rq.i32 12,
                                       m := [rq.i32 16, rq.i32 20, rq.i32 24, rq.i32 28] } :
      Head).inField ⟨rq.i32 36, rq.i32 40⟩ = true) (hbusy : layerBusy s = false) :
    execForgeHeadConfig rq s = .next (respond rq 0x0701 Status.ok []
      (uncheck (rq.u8 0) (s.modHead (rq.u8 0) fun _ => (s.head (rq.u8 0)).configuredBy rq))) := by
  unfold execForgeHeadConfig
  refine commandOf_pass .forge 0x0701 rq _ _ s hs hp ?_
  simp only [List.forall_mem_cons]
  refine ⟨by simpa using hh, ?_, hbusy, List.forall_mem_nil _⟩
  have hfield' : ((s.head (rq.u8 0)).configuredBy rq).inField ⟨rq.i32 36, rq.i32 40⟩ = true := hfield
  simp only [Bool.or_eq_false_iff, decide_eq_false_iff_not, Bool.not_eq_false']
  exact ⟨⟨⟨⟨⟨⟨⟨by omega, by omega⟩, by omega⟩, h4⟩, by omega⟩, by omega⟩, by omega⟩, hfield'⟩

theorem uncheck_unchecked (h : Nat) (s : State) :
    ∀ p ∈ (uncheck h s).forge.programs, p.names h = true → p.checked = false := by
  intro p hp hnames
  obtain ⟨q, -, rfl⟩ := List.mem_map.mp hp
  by_cases hq : q.names h = true
  · rw [if_pos hq]
  · rw [if_neg hq] at hnames
    exact absurd hnames hq

theorem execForgeHeadJog_jumps (rq : Req) (s : State) (hs : served 0x0780 rq s = true) (hp : s.mci.personality = .forge)
    (hh : rq.u8 0 < s.nHeads) (hfield : (s.head (rq.u8 0)).inField ⟨rq.i32 4, rq.i32 8⟩ = true)
    (hidle : s.forge.layer = .idle) (hconf : (s.head (rq.u8 0)).configured = true) :
    execForgeHeadJog rq s = .next (respond rq 0x0780 Status.ok []
      (startJump (rq.u8 0) s.now ⟨rq.i32 4, rq.i32 8⟩ s)) := by
  unfold execForgeHeadJog
  exact commandOf_pass .forge 0x0780 rq _ _ s hs hp (by simp [hh, hfield, hidle, hconf])

theorem execForgeHeadJog_exposing (rq : Req) (s : State) (hs : served 0x0780 rq s = true)
    (hp : s.mci.personality = .forge) (hh : rq.u8 0 < s.nHeads)
    (hfield : (s.head (rq.u8 0)).inField ⟨rq.i32 4, rq.i32 8⟩ = true) (hlayer : s.forge.layer = .exposing) :
    execForgeHeadJog rq s = .next (respond rq 0x0780 Status.state [] s) := by
  unfold execForgeHeadJog
  exact commandOf_turned_away .forge 0x0780 rq _ _ s true _ hs hp (by simp [hh, hfield, hlayer])

/-! ### Programs (R214 to R216) -/

theorem execForgeProgramLoad_accepted (rq : Req) (s u : State) (hs : served 0x0702 rq s = true)
    (hu : u = readDramTable (rq.u64 4) 384 s) (hsu : served 0x0702 rq u = true) (hp : u.mci.personality = .forge)
    (hi : rq.u8 0 ≤ 3) (htable : headTable u (rq.u64 4) (BitVec.ofNat 32 (rq.u32 12)) = none)
    (hother : u.forge.program ≠ rq.u8 0) :
    execForgeProgramLoad rq s = .next (accept rq 0x0702 [] (u.modProgram (rq.u8 0) fun p =>
      { checked := false, loading := p.loading ++ [(rq.ctx u 0x0702, rq.u64 4, BitVec.ofNat 32 (rq.u32 12))] })) := by
  unfold execForgeProgramLoad
  dsimp only
  rw [if_pos hs, ← hu]
  exact commandOf_pass .forge 0x0702 rq _ _ u hsu hp (by simp [htable, hother, hi])

theorem execForgeProgramLoad_busy (rq : Req) (s u : State) (hs : served 0x0702 rq s = true)
    (hu : u = readDramTable (rq.u64 4) 384 s) (hsu : served 0x0702 rq u = true) (hp : u.mci.personality = .forge)
    (hi : rq.u8 0 ≤ 3) (htable : headTable u (rq.u64 4) (BitVec.ofNat 32 (rq.u32 12)) = none)
    (hsame : u.forge.program = rq.u8 0) (hlayer : u.forge.layer = .exposing) :
    execForgeProgramLoad rq s = .next (respond rq 0x0702 Status.busy [] u) := by
  unfold execForgeProgramLoad
  dsimp only
  rw [if_pos hs, ← hu]
  exact commandOf_turned_away .forge 0x0702 rq _ _ u true _ hsu hp
    (by simp [htable, hsame, hi, layerBusy, layerActive, hlayer])

/-- The completion of a program's check. -/
def checkPayload (r : CheckResult) : List Byte :=
  leBytes 1 r.rule ++ leBytes 1 r.head ++ zeros 2 ++ leBytes 4 r.index ++ leBytes 8 r.records ++ leBytes 8 r.energy ++
    leBytes 8 r.time

theorem checkPayload_layout (r : CheckResult) : (checkPayload r).length = 32 ∧
    leAt (checkPayload r) 0 1 = r.rule % 256 ∧ leAt (checkPayload r) 1 1 = r.head % 256 := by
  unfold checkPayload
  simp only [List.append_assoc]
  refine ⟨?_, ?_, ?_⟩
  · simp
  · simp [leAt_left, leAt_leBytes]
  · simp [leAt_left, leAt_right, leAt_leBytes]

theorem execForgeProgramCheckDone_ends (k : Nat) (c : Ctx) (address : Nat) (crc : BitVec 32)
    (rest : List (Ctx × Nat × BitVec 32)) (s u : State) (r : CheckResult)
    (hload : (at' s.forge.programs k {}).loading = (c, address, crc) :: rest) (hu : u = readProgram address crc s)
    (hr : r = checkProgram u address crc) (hcore : u.coreUp hostCore = true) :
    execForgeProgramCheckDone k s = .next (complete c (if r.rule = 0 then Status.ok else Status.failed) (checkPayload r)
      (u.modProgram k fun _ => { checked := r.rule = 0 && rest = [], arrays := r.arrays,
                                 bases := arrayBases u address crc, loading := rest })) := by
  unfold execForgeProgramCheckDone
  rw [hload]
  dsimp only
  rw [← hu, hcore, ← hr]
  rfl

/-! ### Interlocks and the permit (R231, R247) -/

theorem execForgeInterlockAssign_takes (rq : Req) (s : State) (hs : served 0x0708 rq s = true)
    (hp : s.mci.personality = .forge) (hg : rq.u8 0 ≤ 31)
    (hheads : ∀ h, h < 32 → (rq.u32 8).testBit h = true → h < s.nHeads)
    (hrole : rq.u8 1 = 0 ∨ (4 ≤ rq.u8 1 ∧ rq.u8 1 ≤ 6)) (h3 : rq.u8 3 ≤ 15) (h4 : 10 ≤ rq.u16 4) (h6 : rq.u16 6 ≤ 60000) :
    execForgeInterlockAssign rq s = .next (respond rq 0x0708 Status.ok [] (setRole (rq.u8 0) (fun x =>
      { x with role := rq.u8 1, activeLow := rq.bit 2 0, forge := true, debounce := rq.u16 4, graceMs := rq.u16 6,
               heaters := BitVec.ofNat 8 (rq.u8 3), heads := BitVec.ofNat 32 (rq.u32 8) }) s)) := by
  have hnone : (maskBits 32 (rq.u32 8)).any (s.nHeads ≤ ·) = false :=
    List.any_eq_false.mpr fun h hmem => by
      unfold maskBits at hmem
      obtain ⟨hlt, hbit⟩ := List.mem_filter.mp hmem
      simpa using hheads h (List.mem_range.mp hlt) hbit
  unfold execForgeInterlockAssign
  refine commandOf_pass .forge 0x0708 rq _ _ s hs hp ?_
  simp only [List.forall_mem_cons]
  refine ⟨?_, ?_, List.forall_mem_nil _⟩
  · simp [hnone, hg]
  · simp
    omega

theorem execGraceExpiry_gates (g : Nat) (s : State) (hforge : (s.gpiOf g).forge = true)
    (hactive : (s.gpiOf g).active = true) (hgated : (s.gpiOf g).gated = false)
    (hrole : (s.gpiOf g).role = 5 ∨ (s.gpiOf g).role = 6) (hg : g < s.gpi.length) :
    ∃ t, execGraceExpiry g s = .next t ∧ (t.gpiOf g).gated = true ∧
      (t.flt.presented.getLast?.map fun r => (r.source, r.unit)) = some (0x00E1, some g) := by
  have hexec : execGraceExpiry g s = .next (graceOver g s) := by
    unfold execGraceExpiry
    simp [hforge, hactive, hgated, hrole]
  refine ⟨_, hexec, ?_, present_last ..⟩
  have hset : ((s.modGpi g fun x => { x with gated := true }).gpiOf g).gated = true := by
    unfold State.modGpi State.gpiOf
    rw [at'_modAt_same _ _ _ _ hg]
  have hkept := (inputsKept_setCauseBy 2 ((s.gpiOf g).headsOf s) 2 0xFF 0
    (s.modGpi g fun x => { x with gated := true })).gpiOf g (by simpa [State.modGpi] using hg)
  exact (congrArg Gpi.gated hkept :).trans hset

theorem execGraceExpiry_gated (g : Nat) (s : State) (hgated : (s.gpiOf g).gated = true) : execGraceExpiry g s = .next s := by
  simp [execGraceExpiry, hgated]

theorem maskBits_regulated (mask : Nat) (s : State)
    (h : ∀ i, i < 8 → mask.testBit i = true → (s.lampOf i).regulated = true) :
    (maskBits 8 mask).any (fun i => !(s.lampOf i).regulated) = false :=
  List.any_eq_false.mpr fun i hmem => by
    unfold maskBits at hmem
    obtain ⟨hlt, hbit⟩ := List.mem_filter.mp hmem
    simpa using h i (List.mem_range.mp hlt) hbit

theorem execForgePermitConfig_stored (rq : Req) (s : State) (hs : served 0x0806 rq s = true)
    (hp : s.mci.personality = .forge) (hdwell : rq.u16 2 ≤ 10000)
    (hreg : ∀ i, i < 8 → (rq.u8 0).testBit i = true → (s.lampOf i).regulated = true) (hbusy : layerBusy s = false) :
    ∃ t, execForgePermitConfig rq s = .next t ∧ t.forge.permitStrings = BitVec.ofNat 8 (rq.u8 0) ∧
      t.forge.permitDwell = rq.u16 2 ∧ t.lamps = s.lamps ∧ t.flt = s.flt := by
  refine ⟨_, commandOf_pass .forge 0x0806 rq _ _ s hs hp ?_, ?_⟩
  · simp [maskBits_regulated _ s hreg, hdwell, hbusy]
  · have hframe (p : List Byte) (u : State) :
        { respond rq 0x0806 Status.ok p (roleUngate u) with mci := u.mci, links := u.links } = u := by
      have hrole : { roleUngate u with links := u.links } = u := clearCause_frame ..
      exact (congrArg (fun t : State => { t with mci := u.mci, links := u.links }) (respond_frame ..) :).trans
        (congrArg (fun t : State => { t with mci := u.mci }) hrole :)
    refine ⟨?_, ?_, ?_, ?_⟩
    · exact (congrArg (fun t : State => t.forge.permitStrings) (hframe _ _) :)
    · exact (congrArg (fun t : State => t.forge.permitDwell) (hframe _ _) :)
    · exact (congrArg State.lamps (hframe _ _) :)
    · exact (congrArg State.flt (hframe _ _) :)

theorem execForgePermitConfig_busy (rq : Req) (s : State) (hs : served 0x0806 rq s = true)
    (hp : s.mci.personality = .forge) (hdwell : rq.u16 2 ≤ 10000)
    (hreg : ∀ i, i < 8 → (rq.u8 0).testBit i = true → (s.lampOf i).regulated = true) (hbusy : layerBusy s = true) :
    execForgePermitConfig rq s = .next (respond rq 0x0806 Status.state [] s) := by
  unfold execForgePermitConfig
  exact commandOf_turned_away .forge 0x0806 rq _ _ s true _ hs hp (by simp [maskBits_regulated _ s hreg, hdwell, hbusy])

theorem execForgePermitConfig_long (rq : Req) (s : State) (hs : served 0x0806 rq s = true)
    (hp : s.mci.personality = .forge) (hdwell : 10000 < rq.u16 2) :
    execForgePermitConfig rq s = .next (respond rq 0x0806 Status.badValue [] s) := by
  unfold execForgePermitConfig
  exact commandOf_turned_away .forge 0x0806 rq _ _ s true _ hs hp (by simp [hdwell])

/-- Settles O27: each command passes its checks and stores what it names; the gate at the end of grace reaches pages and
layers, which leave every input but for the pages it waits for. -/
theorem forgeIsConfigured : Obligations.ForgeIsConfigured := by
  unfold Obligations.ForgeIsConfigured
  refine ⟨?_, execForgeHeadJog_jumps, execForgeHeadJog_exposing, ?_, ?_, ?_, execForgeInterlockAssign_takes,
    execGraceExpiry_gates, execGraceExpiry_gated, execForgePermitConfig_stored, execForgePermitConfig_busy,
    execForgePermitConfig_long⟩
  · intro rq s hs hlen hp hh h1 h1' h2 h4 h6 h32 h32' hfield hbusy
    have hlt : rq.u8 0 < s.heads.length := by
      have hle := nLinks_le s
      unfold State.nHeads at hh
      omega
    have hhead (k : Nat) (t : State) (ht : t = respond rq 0x0701 Status.ok []
        (uncheck (rq.u8 0) (s.modHead (rq.u8 0) fun _ => (s.head (rq.u8 0)).configuredBy rq))) :
        t.head k = (s.modHead (rq.u8 0) fun _ => (s.head (rq.u8 0)).configuredBy rq).head k := by
      rw [ht, respond_head]
      rfl
    have hsame := (hhead (rq.u8 0) _ rfl).trans (State.modHead_same s (rq.u8 0) _ hlt hh)
    refine ⟨_, execForgeHeadConfig_stored rq s hs hp hh h1 h1' h2 h4 h6 h32 h32' hfield hbusy, ?_, ?_, ?_, ?_, ?_, ?_, ?_, ?_,
      fun k hk => (hhead k _ rfl).trans (State.modHead_ne s _ _ k (Ne.symm hk)), ?_, ?_, ?_⟩
    any_goals rw [hsame]; rfl
    · rw [(congrArg State.forge (respond_frame ..) :)]
      exact uncheck_unchecked _ _
    · refine (congrArg State.links (respond_frame ..) :).trans ?_
      exact State.modHead_links ..
    · refine (congrArg State.flt (respond_frame ..) :).trans ?_
      exact State.modHead_flt ..
  · intro rq s hs u hsu hp hi htable hother
    exact execForgeProgramLoad_accepted rq s u hs rfl hsu hp hi htable hother
  · intro rq s hs u hsu hp hi htable hsame hlayer
    exact execForgeProgramLoad_busy rq s u hs rfl hsu hp hi htable hsame hlayer
  · intro k c address crc rest s hload u r hk hcore
    obtain ⟨hlen, hrule, hhead⟩ := checkPayload_layout r
    refine ⟨_, _, execForgeProgramCheckDone_ends k c address crc rest s u r hload rfl rfl hcore, rfl, ?_, hlen, hrule, hhead⟩
    rw [(congrArg State.forge (complete_frame ..) :)]
    exact (congrArg Program.checked (at'_modAt_same _ _ _ _ hk) :).trans (Bool.decide_and ..).symm

end Sys2Proof.Machine
end

section
/-!
PROOFS. Forge layers (spec/08_forge_scanning.md R220, R221, R227 to R230): `LayersRun`.
-/
namespace Sys2Proof.Machine

open Sys2Proof

/-! ### Heads in turn -/

theorem modHead_frame (s : State) (h : Nat) (f : Head → Head) : { s.modHead h f with heads := s.heads } = s := by
  unfold State.modHead
  split <;> rfl

theorem foldl_modHead_frame (f : Head → Head) (hs : List Nat) (s : State) :
    { hs.foldl (fun s h => s.modHead h f) s with heads := s.heads } = s := by
  induction hs generalizing s with
  | nil => rfl
  | cons h hs ih => exact (congrArg (fun u : State => { u with heads := s.heads }) (ih _)).trans (modHead_frame ..)

theorem modHead_length (s : State) (h : Nat) (f : Head → Head) : (s.modHead h f).heads.length = s.heads.length := by
  unfold State.modHead
  split
  · exact length_modAt ..
  · rfl

/-- Heads that are changed in turn are each changed once. -/
theorem foldl_modHead_head (f : Head → Head) (hs : List Nat) (hnd : hs.Nodup) (s : State) (h : Nat)
    (hlen : h < s.heads.length) (hn : h < s.nHeads) :
    (hs.foldl (fun s h => s.modHead h f) s).head h = if h ∈ hs then f (s.head h) else s.head h := by
  induction hs generalizing s with
  | nil => rfl
  | cons k hs ih =>
    obtain ⟨hk, hnd⟩ := List.nodup_cons.1 hnd
    rw [List.foldl_cons, ih hnd _ (by rw [modHead_length]; exact hlen) (by rw [State.modHead_nHeads]; exact hn)]
    by_cases hkh : k = h
    · subst hkh
      rw [if_neg hk, if_pos List.mem_cons_self, State.modHead_same _ _ _ hlen hn]
    · rw [State.modHead_ne _ _ _ _ hkh]
      simp [List.mem_cons, Ne.symm hkh]

theorem layerHeads_nodup (s : State) : (layerHeads s).Nodup := List.nodup_range.filter _

theorem mem_layerHeads (s : State) (h : Nat) : h ∈ layerHeads s ↔ h < s.nHeads ∧ (s.head h).inLayer = true := by
  unfold layerHeads
  rw [List.mem_filter, List.mem_range]

/-- A layer with a vector left goes on. -/
theorem maybeComplete_left (s : State) (h : Nat) (hn : h < s.nHeads) (hin : (s.head h).inLayer = true)
    (hleft : (s.head h).vectorsLeft ≠ 0) : maybeComplete s = s := by
  have hall : ((layerHeads s).all fun h => (s.head h).vectorsLeft = 0) = false :=
    List.all_eq_false.mpr ⟨h, (mem_layerHeads s h).mpr ⟨hn, hin⟩, by simpa using hleft⟩
  unfold maybeComplete
  rw [if_neg (by rw [hall]; simp)]

/-! ### The recoat (R228) -/

theorem execForgeLayerRecoat_moves (rq : Req) (s : State) (hs : served 0x0703 rq s = true)
    (hp : s.mci.personality = .forge) (h0 : rq.u8 0 ≤ 15) (h1 : rq.u8 1 ≤ 15) (h12 : 100 ≤ rq.u32 12)
    (h12' : rq.u32 12 ≤ 600000) (hidle : s.forge.layer = .idle) (hgrace : s.pwr.grace = none) (hn : rq.i32 4 ≠ 0) :
    execForgeLayerRecoat rq s = .next (recoatMove (rq.u8 0) (rq.i32 4) (accept rq 0x0703 [] { s with forge :=
      { s.forge with layer := .recoating,
                     recoat := some { ctx := rq.ctx s 0x0703, stroke := false, platform := rq.u8 0, recoater := rq.u8 1,
                                      steps := rq.i32 8, ahead := 0,
                                      deadline := s.time + BitVec.ofNat 64 (rq.u32 12 * ticksPerMs) } } })) := by
  unfold execForgeLayerRecoat
  refine (commandOf_pass .forge 0x0703 rq _ _ s hs hp ?_).trans ?_
  · simp only [List.forall_mem_cons]
    refine ⟨?_, by simp [hidle, hgrace], List.forall_mem_nil _⟩
    simp
    omega
  · dsimp only
    rw [if_neg hn]

theorem execForgeLayerRecoat_wrongState (rq : Req) (s : State) (hs : served 0x0703 rq s = true)
    (hp : s.mci.personality = .forge) (h0 : rq.u8 0 ≤ 15) (h1 : rq.u8 1 ≤ 15) (h12 : 100 ≤ rq.u32 12)
    (h12' : rq.u32 12 ≤ 600000) (hstate : s.forge.layer ≠ .idle ∨ s.pwr.grace.isSome = true) :
    execForgeLayerRecoat rq s = .next (respond rq 0x0703 Status.state [] s) := by
  have hfirst : (15 < rq.u8 0 || 15 < rq.u8 1 || rq.u32 12 < 100 || 600000 < rq.u32 12) = false := by
    simp
    omega
  have hsecond : (s.forge.layer ≠ .idle || s.pwr.grace.isSome) = true := by simpa using hstate
  unfold execForgeLayerRecoat
  refine commandOf_turned_away .forge 0x0703 rq _ _ s true _ hs hp ?_
  rw [hfirst, hsecond]
  rfl

theorem execRecoatTimeout_fails (r : Recoat) (s u : State) (hr : s.forge.recoat = some r)
    (hu : u = s.advanceTo r.deadline.toNat) :
    execRecoatTimeout s = .next (complete r.ctx Status.failed [] (presentFw 0x00E3 none 0 { u with forge :=
      { u.forge with recoat := none, layer := .idle } })) := by
  have hru : u.forge.recoat = some r := by
    rw [hu, (congrArg State.forge (advanceTo_frame s _) :), hr]
  unfold execRecoatTimeout
  rw [hr]
  dsimp only
  rw [← hu]
  unfold endRecoat
  rw [hru]
  rfl

/-! ### Arm (R215, R220, R222) -/

/-- What a head has to do in a layer. -/
def Head.task (x : Head) : Bool × List Rec × Bool × Nat := (x.inLayer, x.todo, x.retired, x.energy)

theorem startJump_frame (h : Nat) (start : Int) (target : Point) (s : State) :
    { startJump h start target s with links := s.links, heads := s.heads } = s := by
  unfold startJump
  exact (congrArg (fun t : State => { t with links := s.links, heads := s.heads }) (modHead_frame ..) :).trans
    (congrArg (fun t : State => { t with heads := s.heads }) (modLink_frame s h _) :)

theorem startJump_heads (h : Nat) (start : Int) (target : Point) (s : State) :
    (startJump h start target s).heads.length = s.heads.length ∧
    (∀ k, k ≠ h → (startJump h start target s).head k = s.head k) ∧
    (h < s.heads.length → h < s.nHeads → ((startJump h start target s).head h).task = (s.head h).task) := by
  have hlink (f : Link → Link) (k : Nat) : (s.modLink h f).head k = s.head k := by
    unfold State.head
    rw [State.modLink_heads]
  have hlen (f : Link → Link) : (s.modLink h f).heads.length = s.heads.length := by rw [State.modLink_heads]
  unfold startJump
  refine ⟨(modHead_length ..).trans (hlen _), fun k hk => ?_, fun hh hn => ?_⟩
  · exact (State.modHead_ne _ _ _ _ (Ne.symm hk)).trans (hlink _ k)
  · refine (congrArg Head.task (State.modHead_same _ h _ (by rw [hlen]; exact hh) (by rw [State.modLink_nHeads]; exact hn))).trans ?_
    exact (congrArg Head.task (hlink _ h) :)

theorem armHead_frame (h : Nat) (array : List Rec) (anchored : Bool) (s : State) :
    { armHead h array anchored s with links := s.links, heads := s.heads } = s := by
  unfold armHead
  exact (congrArg (fun t : State => { t with links := s.links, heads := s.heads }) (startJump_frame ..) :).trans
    (congrArg (fun t : State => { t with links := s.links }) (modHead_frame s h _) :)

theorem foldl_armHead_frame (array : Nat → List Rec) (anchored : Bool) (hs : List Nat) (s : State) :
    { hs.foldl (fun s h => armHead h (array h) anchored s) s with links := s.links, heads := s.heads } = s := by
  induction hs generalizing s with
  | nil => rfl
  | cons h hs ih =>
    exact (congrArg (fun u : State => { u with links := s.links, heads := s.heads }) (ih _)).trans (armHead_frame ..)

/-- A head that has been armed: it takes its array, and its counts are as they were. -/
theorem armHead_heads (h : Nat) (array : List Rec) (anchored : Bool) (s : State) :
    (armHead h array anchored s).heads.length = s.heads.length ∧
    (∀ k, k ≠ h → (armHead h array anchored s).head k = s.head k) ∧
    (h < s.heads.length → h < s.nHeads → ((armHead h array anchored s).head h).task =
      (true, array, (s.head h).retired, (s.head h).energy)) := by
  unfold armHead
  dsimp only
  generalize hu : s.modHead h _ = u
  have hulen : u.heads.length = s.heads.length := by rw [← hu]; exact modHead_length ..
  obtain ⟨hlen, hothers, htask⟩ := startJump_heads h u.now (u.head h).park u
  refine ⟨hlen.trans hulen, fun k hk => (hothers k hk).trans ?_, fun hh hn => ?_⟩
  · rw [← hu]
    exact State.modHead_ne _ _ _ _ (Ne.symm hk)
  · rw [htask (hulen ▸ hh) (by rw [← hu, State.modHead_nHeads]; exact hn), ← hu, State.modHead_same _ _ _ hh hn]
    rfl

theorem foldl_armHead_task (array : Nat → List Rec) (anchored : Bool) (hs : List Nat) (hnd : hs.Nodup) (s : State) (h : Nat)
    (hmem : h ∈ hs) (hlen : h < s.heads.length) (hn : h < s.nHeads) :
    ((hs.foldl (fun s h => armHead h (array h) anchored s) s).head h).task =
      (true, array h, (s.head h).retired, (s.head h).energy) := by
  have hnHeads (k : Nat) (t : State) : (armHead k (array k) anchored t).nHeads = t.nHeads :=
    (congrArg State.nHeads (armHead_frame k (array k) anchored t) :)
  refine foldl_own (fun s h => armHead h (array h) anchored s)
    (fun t => h < t.heads.length ∧ h < t.nHeads ∧ t.head h = s.head h)
    (fun t => (t.head h).task = (true, array h, (s.head h).retired, (s.head h).energy)) h hs hnd hmem ?_ ?_ ?_ s
    ⟨hlen, hn, rfl⟩
  · intro t k hk ⟨htlen, htn, hhead⟩
    obtain ⟨hklen, hothers, -⟩ := armHead_heads k (array k) anchored t
    exact ⟨by rw [hklen]; exact htlen, by rw [hnHeads]; exact htn, (hothers h (Ne.symm hk)).trans hhead⟩
  · intro t ⟨htlen, htn, hhead⟩
    obtain ⟨-, -, htask⟩ := armHead_heads h (array h) anchored t
    rw [htask htlen htn, hhead]
  · intro t k hk htask
    obtain ⟨-, hothers, -⟩ := armHead_heads k (array k) anchored t
    rw [hothers h (Ne.symm hk)]
    exact htask

/-- The state in which a layer is armed, before its heads take their arrays. -/
def armed (rq : Req) (s : State) : State :=
  { s with
    forge := { s.forge with
      layer := .armed, number := BitVec.ofNat 32 (rq.u32 4), program := rq.u8 0, anchor := none, startPhase := rq.u64 8,
      zFocus := BitVec.ofNat 24 (rq.u32 16), fenceTimeout := rq.u32 20, abort := none, pausing := false, terminal := none,
      flags := 0, firstCommit := 0, lastHandoff := 0, vectors := 0, implicit := {}, unexecuted := {}, unexecListed := 0,
      gated := false, fencesPassed := [], reassign := [], strait := s.forge.straitNext.getD s.forge.strait, straitNext := none },
    heads := s.heads.map Head.fresh }

theorem execForgeLayerArm_arms (rq : Req) (s : State) (p : Program) (hs : served 0x0704 rq s = true)
    (hp : s.mci.personality = .forge) (hi : rq.u8 0 ≤ 3) (hsrc : rq.u8 1 = 0xFF) (h20 : 1 ≤ rq.u32 20)
    (h20' : rq.u32 20 ≤ 600000) (hlayer : s.forge.layer = .recoated) (hgrace : s.pwr.grace = none)
    (hprog : p = at' s.forge.programs (rq.u8 0) {}) (hchecked : p.checked = true)
    (hheads : ∀ h ∈ p.heads, h < s.nHeads ∧ fenced s 0x0103 h = false ∧ (s.head h).configured = true ∧ (s.link h).st = .up) :
    execForgeLayerArm rq s = .next (respond rq 0x0704 Status.ok []
      (p.heads.foldl (fun s h => armHead h (at' p.arrays h []) false s) (armed rq s))) := by
  have hfenced : (p.heads.any fun h => fenced s 0x0103 h) = false :=
    List.any_eq_false.mpr fun h hh => by simp [(hheads h hh).2.1]
  have hready : (p.heads.any fun h => !(s.head h).configured || (s.link h).st ≠ .up) = false :=
    List.any_eq_false.mpr fun h hh => by simp [(hheads h hh).2.2.1, (hheads h hh).2.2.2]
  have hrange : ¬ 600000 < rq.u32 20 := by omega
  unfold execForgeLayerArm
  dsimp only
  rw [← hprog, hsrc, if_pos rfl]
  refine commandOf_pass .forge 0x0704 rq _ _ s hs hp ?_
  simp only [List.forall_mem_cons]
  refine ⟨?_, by simp [hlayer, hgrace], by simp [hchecked], hfenced, hready, List.forall_mem_nil _⟩
  simp [hrange]
  omega

/-! ### Exposure (R227) -/

/-- A head at the start of the exposure. -/
def Head.exposed (start : Nat) (x : Head) : Head :=
  { x with st := if x.retired then 6 else 1, endAt := if x.anchored then x.endAt else max x.endAt (64 * start : Nat),
           ra := { x.ra with inForce := x.ra.window } }

/-- The layer whose exposure has been accepted. -/
def exposing (rq : Req) (start : Nat) (s : State) : State :=
  accept rq 0x0705 [] { s with forge := { s.forge with
    layer := .exposing, startAt := BitVec.ofNat 64 start, ctx := some (rq.ctx s 0x0705) } }

theorem syncPrivilege_head (s : State) (h : Nat) : (syncPrivilege s).head h = s.head h := by
  unfold State.head
  rw [(congrArg State.heads (thermOnly_syncPrivilege s).frame :)]

theorem syncPrivilege_nHeads (s : State) : (syncPrivilege s).nHeads = s.nHeads := by
  unfold State.nHeads State.nLinks
  rw [(congrArg State.part (thermOnly_syncPrivilege s).frame :)]

theorem execForgeLayerExpose_exposes (rq : Req) (s : State) (hs : served 0x0705 rq s = true)
    (hp : s.mci.personality = .forge) (hat : rq.u64 0 = 0) (harmed : s.forge.layer = .armed) (hgrace : s.pwr.grace = none)
    (hcond : conditionPresent s = false) (hdwelt : permitDwelt s = true) (hlen : s.heads.length = 24) (h₀ : Nat)
    (hn : h₀ < s.nHeads) (hin : (s.head h₀).inLayer = true) (hleft : (s.head h₀).vectorsLeft ≠ 0) :
    ∃ t, execForgeLayerExpose rq s = .next t ∧ t.forge.layer = .exposing ∧
      t.forge.startAt = BitVec.ofNat 64 (s.time.toNat + 1600000) ∧ t.forge.ctx = some (rq.ctx s 0x0705) ∧
      ∀ h, h < s.nHeads → (s.head h).inLayer = true → (t.head h).st = (if (s.head h).retired then 6 else 1) := by
  have hms : ticksPerMs = 1600000 := rfl
  generalize hstart : s.time.toNat + 1600000 = start
  let u := exposing rq start s
  have hu : { u with mci := s.mci, forge := s.forge } = s := (congrArg (fun t : State => { t with forge := s.forge })
    (respond_frame rq 0x0705 Status.accepted [] { s with forge := { s.forge with
      layer := .exposing, startAt := BitVec.ofNat 64 start, ctx := some (rq.ctx s 0x0705) } }) :)
  have huforge : u.forge = { s.forge with
      layer := .exposing, startAt := BitVec.ofNat 64 start, ctx := some (rq.ctx s 0x0705) } :=
    (congrArg State.forge (respond_frame ..) :)
  have huhead (h : Nat) : u.head h = s.head h := (congrArg (fun t : State => t.head h) hu :)
  have hunHeads : u.nHeads = s.nHeads := (congrArg State.nHeads hu :)
  have hulen : u.heads.length = 24 := (congrArg (fun t : State => t.heads.length) hu :).trans hlen
  let v := (layerHeads u).foldl (fun s h => s.modHead h (Head.exposed start)) u
  have hv := foldl_modHead_frame (Head.exposed start) (layerHeads u) u
  have hvhead (h : Nat) (hh : h < s.nHeads) (hhin : (s.head h).inLayer = true) : v.head h = (s.head h).exposed start := by
    have hle : s.nHeads ≤ 24 := nLinks_le s
    refine (foldl_modHead_head (Head.exposed start) (layerHeads u) (layerHeads_nodup u) u h (by omega) (by omega)).trans ?_
    rw [if_pos ((mem_layerHeads u h).mpr ⟨by omega, by rw [huhead]; exact hhin⟩), huhead]
  have hvn : v.nHeads = s.nHeads := (congrArg State.nHeads hv :).trans hunHeads
  have hdone : maybeComplete (syncPrivilege v) = syncPrivilege v := by
    refine maybeComplete_left _ h₀ ?_ ?_ ?_
    · rw [syncPrivilege_nHeads, hvn]
      exact hn
    · rw [syncPrivilege_head, hvhead h₀ hn hin]
      exact hin
    · rw [syncPrivilege_head, hvhead h₀ hn hin]
      exact hleft
  have hforge : (syncPrivilege v).forge = u.forge := by
    rw [(congrArg State.forge (thermOnly_syncPrivilege v).frame :)]
    exact (congrArg State.forge hv :)
  refine ⟨syncPrivilege v, ?_, ?_, ?_, ?_, fun h hh hhin => ?_⟩
  · unfold execForgeLayerExpose
    simp only [hms, hat, if_true, hstart]
    refine (commandOf_pass .forge 0x0705 rq _ _ s hs hp ?_).trans (congrArg Host.Outcome.next hdone)
    simp [harmed, hgrace, hcond, hdwelt]
  · rw [hforge, huforge]
  · rw [hforge, huforge]
  · rw [hforge, huforge]
  · rw [syncPrivilege_head, hvhead h hh hhin]
    rfl

theorem execForgeLayerExpose_wrongState (rq : Req) (s : State) (hs : served 0x0705 rq s = true)
    (hp : s.mci.personality = .forge) (hat : rq.u64 0 = 0) (hlayer : s.forge.layer ≠ .armed) :
    execForgeLayerExpose rq s = .next (respond rq 0x0705 Status.state [] s) := by
  unfold execForgeLayerExpose
  exact commandOf_turned_away .forge 0x0705 rq _ _ s true _ hs hp (by simp [hat, hlayer])

/-! ### Pause, resume and abort (R163, R229, R230) -/

theorem layerDone_of (s : State) (h : s.forge.layer ≠ .closing) : layerDone s = false := by
  simp [layerDone, h]

theorem layerLastDue_of (s : State) (h : s.forge.layer ≠ .exposing) : layerLastDue s = false := by
  simp [layerLastDue, h]

theorem execForgeLayerPause_exposing (rq : Req) (s : State) (hs : served 0x0706 rq s = true)
    (hp : s.mci.personality = .forge) (haction : rq.u8 0 = 0) (hlayer : s.forge.layer = .exposing) :
    execForgeLayerPause rq s = .next (if layerLastDue s then respond rq 0x0706 Status.alreadyDone [] s
      else controlReply rq (pauseLayer s)) := by
  have hdone : layerDone s = false := layerDone_of s (by rw [hlayer]; exact nofun)
  unfold execForgeLayerPause
  cases hlast : layerLastDue s
  · exact commandOf_pass .forge 0x0706 rq _ _ s hs hp (by simp [hdone, haction, hlayer])
  · exact commandOf_turned_away .forge 0x0706 rq _ _ s true _ hs hp (by simp)

/-- A head that goes on from a pause. -/
def Head.resumed (t : Nat) (phase : Int) (x : Head) : Head :=
  if x.st = 4 && !x.vecs.any fun v => !v.committed then
    { x with st := 1, endAt := max x.endAt (64 * t : Nat),
             anchorShift := if x.vecs = [] then max x.anchorShift ((64 * t : Nat) - phase) else x.anchorShift }
  else x

theorem resumed_task (t : Nat) (phase : Int) (x : Head) :
    (x.resumed t phase).inLayer = x.inLayer ∧ (x.resumed t phase).vectorsLeft = x.vectorsLeft := by
  unfold Head.resumed
  split <;> exact ⟨rfl, rfl⟩

/-- A head that no pause of the layer reaches. -/
def Head.unpaused (x : Head) : Head := { x with pausing := false }

/-- The layer that goes on, before its heads do. -/
def resuming (s : State) : State :=
  { s with forge := { s.forge with layer := .exposing, pausing := false },
           heads := s.heads.map Head.unpaused }

/-- The predicted stamp at which a source anchors a layer. -/
def startPhase (s : State) : Int := match s.forge.anchor with
  | some a => s.predict a s.forge.startPhase
  | none => 0

/-- A layer with vectors left that goes on: each head that the pause holds is released. -/
theorem resumeLayer_left (t : Nat) (s : State) (phase : Int) (hphase : phase = startPhase s) (h₀ : Nat) (hn : h₀ < s.nHeads)
    (hin : (s.head h₀).inLayer = true) (hleft : (s.head h₀).vectorsLeft ≠ 0) :
    resumeLayer t s =
      (runningHeads (resuming s)).foldl (fun s h => s.modHead h (Head.resumed t phase)) (resuming s) := by
  have hdef : resumeLayer t s = maybeComplete
      ((runningHeads (resuming s)).foldl (fun s h => s.modHead h (Head.resumed t phase)) (resuming s)) := by
    subst hphase
    rfl
  have hlen : h₀ < s.heads.length := by
    by_contra hge
    have hdefault : s.head h₀ = {} := at'_ge _ _ _ (by omega)
    rw [hdefault] at hin
    exact absurd hin (by decide)
  have hlen' : h₀ < (resuming s).heads.length := (List.length_map _).symm ▸ hlen
  have hhead : (resuming s).head h₀ = (s.head h₀).unpaused :=
    at'_map Head.unpaused s.heads h₀ {} {} hlen
  have hfold := foldl_modHead_head (Head.resumed t phase) (runningHeads (resuming s))
    ((layerHeads_nodup _).filter _) (resuming s) h₀ hlen' hn
  have hframe := foldl_modHead_frame (Head.resumed t phase) (runningHeads (resuming s)) (resuming s)
  have htask := resumed_task t phase ((resuming s).head h₀)
  have hleft' : ((resuming s).head h₀).vectorsLeft ≠ 0 := by rw [hhead]; exact hleft
  have hin' : ((resuming s).head h₀).inLayer = true := by rw [hhead]; exact hin
  refine hdef.trans (maybeComplete_left _ h₀ ?_ ?_ ?_)
  · exact (congrArg State.nHeads hframe :).symm ▸ hn
  · rw [show _ = _ from hfold]
    split
    · rw [htask.1]
      exact hin'
    · exact hin'
  · rw [show _ = _ from hfold]
    split
    · rw [htask.2]
      exact hleft'
    · exact hleft'

theorem execForgeLayerResume_resumes (rq : Req) (s : State) (hs : served 0x0706 rq s = true)
    (hp : s.mci.personality = .forge) (haction : rq.u8 0 = 1) (hat : rq.u64 8 = 0) (hlayer : s.forge.layer = .paused)
    (hcond : conditionPresent s = false) (hdwelt : permitDwelt s = true)
    (hleft : ∃ h, h < s.nHeads ∧ (s.head h).inLayer = true ∧ (s.head h).vectorsLeft ≠ 0) :
    ∃ t, execForgeLayerResume rq s = .next t ∧ t.forge.layer = .exposing ∧ t.forge.pausing = false ∧
      t.links = s.links ∧ t.time = s.time := by
  obtain ⟨h, hn, hin, hleft⟩ := hleft
  obtain ⟨phase, hphase⟩ : ∃ phase, phase = startPhase s := ⟨_, rfl⟩
  have hgoes := resumeLayer_left (s.time.toNat + ticksPerMs) s phase hphase h hn hin hleft
  have hexec : execForgeLayerResume rq s = .next (controlReply rq (resumeLayer (s.time.toNat + ticksPerMs) s)) := by
    unfold execForgeLayerResume
    simp only [hat, if_true]
    exact commandOf_pass .forge 0x0706 rq _ _ s hs hp (by simp [haction, hlayer, hcond, hdwelt])
  rw [hgoes] at hexec
  have hframe := foldl_modHead_frame (Head.resumed (s.time.toNat + ticksPerMs) phase)
    (runningHeads (resuming s)) (resuming s)
  refine ⟨_, hexec, ?_, ?_, ?_, ?_⟩
  · exact (congrArg (fun t : State => t.forge.layer) (respond_frame ..) :).trans
      (congrArg (fun t : State => t.forge.layer) hframe :)
  · exact (congrArg (fun t : State => t.forge.pausing) (respond_frame ..) :).trans
      (congrArg (fun t : State => t.forge.pausing) hframe :)
  · exact (congrArg State.links (respond_frame ..) :).trans (congrArg State.links hframe :)
  · exact (congrArg State.time (respond_frame ..) :).trans (congrArg State.time hframe :)

theorem execForgeLayerAbort_waits (rq : Req) (s : State) (hs : served 0x0706 rq s = true)
    (hp : s.mci.personality = .forge) (haction : rq.u8 0 = 2) (hlayer : s.forge.layer = .exposing)
    (habort : s.forge.abort = none) (hlast : layerLastDue s = false) (hhold : ∀ h, h < s.nHeads → holding s h = false) :
    ∃ t, execForgeLayerAbort rq s = .next t ∧ t.forge.layer = .exposing ∧ t.forge.abort = some (1, s.time) ∧
      { t with forge := s.forge, mci := s.mci } = s := by
  have hdone : layerDone s = false := layerDone_of s (by rw [hlayer]; exact nofun)
  have hnone : (List.range s.nHeads).any (holding s) = false :=
    List.any_eq_false.mpr fun h hh => by simp [hhold h (List.mem_range.mp hh)]
  have habort' : abortLayer 1 s = { s with forge := { s.forge with abort := some (1, s.time) } } := by
    unfold abortLayer
    simp only [hlayer, hnone, habort]
    rfl
  have hexec : execForgeLayerAbort rq s = .next (controlReply rq (abortLayer 1 s)) := by
    unfold execForgeLayerAbort
    exact commandOf_pass .forge 0x0706 rq _ _ s hs hp (by simp [hdone, hlast, haction, hlayer])
  rw [habort'] at hexec
  refine ⟨_, hexec, ?_, ?_, ?_⟩
  · exact (congrArg (fun t : State => t.forge.layer) (respond_frame ..) :).trans hlayer
  · exact (congrArg (fun t : State => t.forge.abort) (respond_frame ..) :)
  · exact (congrArg (fun t : State => { t with forge := s.forge }) (respond_frame ..) :)

theorem execForgeLayerAbort_late (rq : Req) (s : State) (hs : served 0x0706 rq s = true)
    (hp : s.mci.personality = .forge) (_ : rq.u8 0 = 2) (hlast : layerLastDue s = true) :
    execForgeLayerAbort rq s = .next (respond rq 0x0706 Status.alreadyDone [] s) := by
  unfold execForgeLayerAbort
  exact commandOf_turned_away .forge 0x0706 rq _ _ s true _ hs hp (by simp [hlast])

theorem execForgeLayerAbort_idle (rq : Req) (s : State) (hs : served 0x0706 rq s = true)
    (hp : s.mci.personality = .forge) (haction : rq.u8 0 = 2) (hidle : s.forge.layer = .idle) :
    execForgeLayerAbort rq s = .next (respond rq 0x0706 Status.state [] s) := by
  have hdone : layerDone s = false := layerDone_of s (by rw [hidle]; exact nofun)
  have hlast : layerLastDue s = false := layerLastDue_of s (by rw [hidle]; exact nofun)
  unfold execForgeLayerAbort
  exact commandOf_turned_away .forge 0x0706 rq _ _ s true _ hs hp (by simp [hdone, hlast, haction, hidle])

theorem execFenceTimeout_aborts (h : Nat) (s : State) (hst : (s.head h).st = 3) (hlayer : s.forge.layer = .exposing) :
    execFenceTimeout h s = .next (abortLayer 4 (present 0x00E2 (some h) 0
      (s.advanceTo ((s.head h).fenceAt.toNat + s.forge.fenceTimeout * ticksPerMs + 1)))) := by
  unfold execFenceTimeout
  rw [if_neg (by simp [hst, hlayer])]

/-! ### The status of a layer (R227) -/

/-- The reply of forge.layer.status. -/
def layerStatus (layer state : Nat) (x : Head) : List Byte :=
  leBytes 1 layer ++ leBytes 1 state ++ leBytes 2 x.theta ++ leBytes 4 x.vectorsLeft ++ leBytes 8 x.lastSeq ++
    leBytes 8 x.energy ++ leBytes 8 x.provisional ++ x.straitWait.bytes ++ x.implicit.bytes

theorem layerStatus_layout (layer state : Nat) (x : Head) (hlayer : layer < 256) :
    (layerStatus layer state x).length = 40 ∧ leAt (layerStatus layer state x) 0 1 = layer ∧
      leAt (layerStatus layer state x) 32 4 = x.straitWait.n ∧ leAt (layerStatus layer state x) 36 4 = x.implicit.n := by
  unfold layerStatus
  simp only [List.append_assoc]
  refine ⟨?_, ?_, ?_, ?_⟩
  · simp [Count.bytes]
  · simp [leAt_left, leAt_leBytes]
    omega
  · simp [leAt_left, leAt_right, leAt_count]
  · simp [leAt_right, Count.bytes, leAt_leBytes]
    exact x.implicit.val.isLt

theorem layerCode_lt (l : LayerState) : l.code < 256 := by cases l <;> decide

theorem execForgeLayerStatus_reply (rq : Req) (s : State) (hs : served 0x0707 rq s = true)
    (hp : s.mci.personality = .forge) (hh : rq.u8 0 < s.nHeads) :
    execForgeLayerStatus rq s = .next (respond rq 0x0707 Status.ok
      (layerStatus s.forge.layer.code (headState s (rq.u8 0)) (s.head (rq.u8 0))) s) := by
  unfold execForgeLayerStatus
  exact commandOf_pass .forge 0x0707 rq _ _ s hs hp (by simpa using hh)

/-- Settles O28: a layer's commands move its state where their checks pass; the heads of the program are armed in turn, each
once, and a layer with a vector left neither completes at its exposure nor at its resumption. -/
theorem layersRun : Obligations.LayersRun := by
  unfold Obligations.LayersRun
  refine ⟨execForgeLayerRecoat_moves, execForgeLayerRecoat_wrongState, ?_, ?_, ?_, execForgeLayerExpose_wrongState,
    execForgeLayerPause_exposing, execForgeLayerResume_resumes, execForgeLayerAbort_waits, execForgeLayerAbort_late,
    execForgeLayerAbort_idle, execFenceTimeout_aborts, ?_⟩
  · intro r s hr u
    exact execRecoatTimeout_fails r s u hr rfl
  · intro rq s hs hlen hp hi hsrc h20 h20' hlayer hgrace hchecked hheads
    have hexec := execForgeLayerArm_arms rq s _ hs hp hi hsrc h20 h20' hlayer hgrace rfl hchecked hheads
    generalize at' s.forge.programs (rq.u8 0) {} = p at hexec hheads ⊢
    have hframe := foldl_armHead_frame (fun h => at' p.arrays h []) false p.heads (armed rq s)
    generalize hv : p.heads.foldl (fun s h => armHead h (at' p.arrays h []) false s) (armed rq s) = v at hexec hframe
    have hforge : (respond rq 0x0704 Status.ok [] v).forge = (armed rq s).forge :=
      (congrArg State.forge (respond_frame ..) :).trans (congrArg State.forge hframe :)
    refine ⟨_, hexec, ?_, ?_, ?_, ?_, ?_, ?_, fun h hh => ?_⟩
    any_goals rw [hforge]; rfl
    have hlt : h < s.heads.length := by
      have hn := (hheads h hh).1
      have hle := nLinks_le s
      unfold State.nHeads at hn
      omega
    have hfresh : (armed rq s).head h = (s.head h).fresh := at'_map Head.fresh s.heads h {} {} hlt
    have htask := foldl_armHead_task (fun h => at' p.arrays h []) false p.heads (List.nodup_range.filter _) (armed rq s) h hh
      ((List.length_map _).symm ▸ hlt) (hheads h hh).1
    rw [hv, hfresh] at htask
    rw [respond_head]
    obtain ⟨hin, hrest⟩ := Prod.mk.inj htask
    obtain ⟨htodo, hrest⟩ := Prod.mk.inj hrest
    obtain ⟨hretired, henergy⟩ := Prod.mk.inj hrest
    exact ⟨hin, htodo, hretired, henergy⟩
  · intro rq s hs hp hat harmed hgrace hcond hdwelt _ hlen ⟨h, hn, hin, hleft⟩
    exact execForgeLayerExpose_exposes rq s hs hp hat harmed hgrace hcond hdwelt hlen h hn hin hleft
  · intro rq s hs hp hh
    obtain ⟨hlen, hcode, hwait, himplicit⟩ := layerStatus_layout s.forge.layer.code (headState s (rq.u8 0))
      (s.head (rq.u8 0)) (layerCode_lt _)
    exact ⟨_, execForgeLayerStatus_reply rq s hs hp hh, hlen, hcode, hwait, himplicit⟩

end Sys2Proof.Machine
end

section
/-!
PROOFS. Strait and retirement (spec/09_forge_overlap_meltpool.md R233 to R246): `StraitAndRetirement`.
-/
namespace Sys2Proof.Machine

open Sys2Proof

/-! ### Settings, waits and tokens (R233, R238) -/

/-- The settings of forge.strait.config. -/
def straitCfg (rq : Req) : StraitCfg :=
  { flowX := rq.i16 0, flowY := rq.i16 2, down := rq.u16 4, up := rq.u16 6, radius := rq.u16 8, plumeHold := rq.u16 10,
    waitMax := rq.u16 12, straitTimeout := rq.u16 14, unexecBuf := rq.u64 16, unexecCap := rq.u32 24 }

/-- Settings that forge.strait.config turns away. -/
def StraitCfg.bad (c : StraitCfg) : Bool :=
  (c.flowX = 0 && c.flowY = 0) || 50000 < c.down || 10000 < c.up || c.down ≤ c.up || 10000 < c.radius ||
    10000 < c.plumeHold || c.waitMax = 0 || 60000 < c.waitMax ||
    (c.straitTimeout ≠ 0 && (c.straitTimeout < c.waitMax || 60000 < c.straitTimeout)) || 1048576 < c.unexecCap ||
    2 ^ 48 ≤ c.unexecBuf

theorem straitCfg_good (c : StraitCfg) (hflow : c.flowX ≠ 0 ∨ c.flowY ≠ 0)
    (hdown : c.down ≤ 50000) (hup : c.up ≤ 10000) (hud : c.up < c.down) (hradius : c.radius ≤ 10000)
    (hhold : c.plumeHold ≤ 10000) (hwait : 1 ≤ c.waitMax) (hwait' : c.waitMax ≤ 60000)
    (htimeout : c.straitTimeout = 0 ∨ (c.waitMax ≤ c.straitTimeout ∧ c.straitTimeout ≤ 60000))
    (hcap : c.unexecCap ≤ 1048576) (hbuf : c.unexecBuf < 2 ^ 48) : c.bad = false := by
  have hflow' : (c.flowX = 0 && c.flowY = 0) = false := by
    rw [Bool.and_eq_false_iff]
    simpa using hflow
  have htimeout' : (c.straitTimeout ≠ 0 && (c.straitTimeout < c.waitMax || 60000 < c.straitTimeout)) = false := by
    simp
    omega
  unfold StraitCfg.bad
  rw [hflow', htimeout']
  simp only [Bool.false_or, Bool.or_eq_false_iff, decide_eq_false_iff_not, Bool.or_false]
  exact ⟨⟨⟨⟨⟨⟨⟨⟨by omega, by omega⟩, by omega⟩, by omega⟩, by omega⟩, by omega⟩, by omega⟩, by omega⟩, Nat.not_le.mpr hbuf⟩

theorem execForgeStraitConfig_stored (rq : Req) (c : StraitCfg) (s : State) (hc : c = straitCfg rq)
    (hs : served 0x0801 rq s = true) (hp : s.mci.personality = .forge) (hgood : c.bad = false) :
    execForgeStraitConfig rq s = .next (respond rq 0x0801 Status.ok
      (leBytes 1 (if s.forge.layer = .idle then 0 else 1) ++ zeros 3)
      { s with forge := { s.forge with straitNext := some c } }) := by
  have hbit : bit (s.forge.layer ≠ .idle) = if s.forge.layer = .idle then 0 else 1 := by
    by_cases h : s.forge.layer = .idle <;> simp [h, bit]
  rw [← hbit, hc]
  rw [hc] at hgood
  exact commandOf_pass .forge 0x0801 rq [((straitCfg rq).bad, Status.badValue)] _ s hs hp
    (List.forall_mem_cons.mpr ⟨hgood, List.forall_mem_nil _⟩)

theorem execStraitWaitMaxExpiry_waits (h : Nat) (t : BitVec 64) (s : State) (hw : (s.head h).waitingSince = some t)
    (hlong : (s.head h).longWait = false) :
    execStraitWaitMaxExpiry h s =
      .next (present 0x0100 (some h) 0 ((s.advanceTo (t.toNat + s.forge.strait.waitMax * ticksPerMs)).modHead h fun x =>
        { x with longWait := true })) := by
  unfold execStraitWaitMaxExpiry
  rw [hw]
  dsimp only
  rw [if_neg (by simp [hlong])]

theorem execStraitTimeoutExpiry_waits (h : Nat) (t : BitVec 64) (s : State) (hw : (s.head h).waitingSince = some t)
    (htimeout : s.forge.strait.straitTimeout ≠ 0) :
    execStraitTimeoutExpiry h s =
      .next (present 0x0101 (some h) 0 (s.advanceTo (t.toNat + s.forge.strait.straitTimeout * ticksPerMs))) := by
  unfold execStraitTimeoutExpiry
  rw [hw]
  dsimp only
  rw [if_neg htimeout]

theorem execPlumeHoldExpiry_releases (h : Nat) (a : Active) (s : State)
    (ha : (s.head h).actives.find? (fun a => !(s.head h).vecs.any fun v => v.r.seqNo = a.r.seqNo) = some a) :
    execPlumeHoldExpiry h s = .next ((s.advanceSub (a.off + (s.forge.strait.plumeHold * 102400 : Nat))).modHead h fun x =>
      { x with actives := x.actives.erase a }) := by
  unfold execPlumeHoldExpiry
  dsimp only
  rw [ha]

/-! ### The check (R236, R239) -/

theorem intrusions_none (s : State) (h : ∀ k, (s.head k).actives = []) : intrusions s = [] := by
  unfold intrusions
  exact List.flatMap_eq_nil_iff.mpr fun k _ => by rw [h k]; rfl

theorem straitBlocked_none (s : State) (h : Nat) (q : Point) (hnone : ∀ k, (s.head k).actives = []) :
    straitBlocked s h q = false := by
  unfold straitBlocked
  exact List.any_eq_false.mpr fun k _ => by simp [hnone k]

theorem mem_checkOrder (s : State) (h : Nat) : h ∈ checkOrder s ↔ h < s.nHeads := by
  unfold checkOrder
  rw [List.mem_append, List.mem_filter, List.mem_filter, List.mem_range]
  cases (s.head h).longWait <;> simp

theorem checkOrder_nodup (s : State) : (checkOrder s).Nodup := by
  unfold checkOrder
  refine List.Nodup.append (List.nodup_range.filter _) (List.nodup_range.filter _) fun k hk hk' => ?_
  have h := (List.mem_filter.mp hk).2
  have h' := (List.mem_filter.mp hk').2
  rw [h] at h'
  exact absurd h' (by decide)

theorem execStraitCheck_idle (s : State) (hnone : ∀ h, (s.head h).actives = [])
    (hdue : ∀ h, h < s.nHeads → dueVector s h = none) : execStraitCheck s = .next s := by
  have hnot : ((checkOrder s).any fun h => (dueVector s h).isSome) = false :=
    List.any_eq_false.mpr fun h hh => by simp [hdue h ((mem_checkOrder s h).mp hh)]
  unfold execStraitCheck
  simp only [hnot, Bool.and_false]
  change Host.Outcome.next ((intrusions s).foldl _ s) = _
  rw [intrusions_none s hnone]
  rfl

/-- A head whose token a check clears. -/
def Head.cleared (now : BitVec 64) (x : Head) : Head :=
  { x with token := .cleared, clearedAt := if x.token = .pending then now else x.clearedAt }

theorem checkHeads_none (hs : List Nat) (cleared : List (Nat × Point)) (s : State)
    (hnone : ∀ k ∈ hs, dueVector s k = none) : checkHeads hs cleared s = s := by
  induction hs with
  | nil => rfl
  | cons k hs ih =>
    unfold checkHeads
    rw [hnone k List.mem_cons_self]
    exact ih fun j hj => hnone j (List.mem_cons_of_mem _ hj)

theorem dueVector_modHead (s : State) (h k : Nat) (f : Head → Head) (hk : k ≠ h) :
    dueVector (s.modHead h f) k = dueVector s k := by
  have hlink : (s.modHead h f).link k = s.link k := by
    unfold State.link
    rw [State.modHead_links]
  unfold dueVector
  rw [State.modHead_ne _ _ _ _ (Ne.symm hk), hlink, State.modHead_now]

/-- A check in which one head is due and no token is ACTIVE clears that head. -/
theorem checkHeads_one (hs : List Nat) (h : Nat) (v : Vec) (s : State) (hnd : hs.Nodup) (hmem : h ∈ hs)
    (hactives : ∀ k, (s.head k).actives = []) (hv : dueVector s h = some v)
    (hothers : ∀ k ∈ hs, k ≠ h → dueVector s k = none) :
    checkHeads hs [] s = s.modHead h (Head.cleared s.time) := by
  induction hs with
  | nil => cases hmem
  | cons k hs ih =>
    obtain ⟨hk, hnd⟩ := List.nodup_cons.1 hnd
    unfold checkHeads
    by_cases hkh : k = h
    · subst hkh
      rw [hv]
      dsimp only
      rw [straitBlocked_none s k _ hactives]
      refine (checkHeads_none hs _ _ fun j hj => ?_).trans ?_
      · have hjk : j ≠ k := fun e => hk (e ▸ hj)
        rw [dueVector_modHead _ _ _ _ hjk]
        exact hothers j (List.mem_cons_of_mem _ hj) hjk
      · simp only [List.any_nil, Bool.or_false, Bool.false_eq_true, if_false, Bool.not_false, Bool.true_and]
        simp
        rfl
    · rw [hothers k List.mem_cons_self hkh]
      exact ih hnd ((List.mem_cons.1 hmem).resolve_left (Ne.symm hkh))
        fun j hj => hothers j (List.mem_cons_of_mem _ hj)

theorem execStraitCheck_clears (h : Nat) (v : Vec) (s u : State) (hlayer : s.forge.layer = .exposing) (hn : h < s.nHeads)
    (hdue : dueVector s h = some v) (hu : u = classGrant 0 s) (hlen : u.heads.length = 24) (hnu : h < u.nHeads)
    (hactives : ∀ k, (u.head k).actives = []) (hv : dueVector u h = some v)
    (hothers : ∀ k, k < u.nHeads → k ≠ h → dueVector u k = none) :
    ∃ t, execStraitCheck s = .next t ∧ (t.head h).token = .cleared ∧ (∀ k, k ≠ h → t.head k = u.head k) ∧
      { t with heads := u.heads } = u := by
  have hgrant := classGrant_frame 0 s
  rw [← hu] at hgrant
  have hnHeads : u.nHeads = s.nHeads := (congrArg State.nHeads hgrant :)
  have hsome : ((checkOrder s).any fun h => (dueVector s h).isSome) = true :=
    List.any_eq_true.mpr ⟨h, (mem_checkOrder s h).mpr hn, by rw [hdue]; rfl⟩
  have hone := checkHeads_one (checkOrder s) h v u (checkOrder_nodup s) ((mem_checkOrder s h).mpr hn) hactives hv
    fun k hk hkh => hothers k (by rw [hnHeads]; exact (mem_checkOrder s k).mp hk) hkh
  have hle : u.nHeads ≤ 24 := nLinks_le u
  have hsame := State.modHead_same u h (Head.cleared u.time) (by omega) hnu
  refine ⟨u.modHead h (Head.cleared u.time), ?_, ?_, fun k hk => State.modHead_ne _ _ _ _ (Ne.symm hk), modHead_frame ..⟩
  · unfold execStraitCheck
    simp only [hlayer, hsome, ← hu, hone]
    refine congrArg Host.Outcome.next ?_
    change (intrusions (u.modHead h (Head.cleared u.time))).foldl _ _ = _
    rw [intrusions_none]
    · rfl
    · intro k
      by_cases hk : k = h
      · subst hk
        rw [hsame]
        exact hactives k
      · rw [State.modHead_ne _ _ _ _ (Ne.symm hk)]
        exact hactives k
  · rw [hsame]
    rfl

/-! ### Retirement and reassignment (R241 to R246) -/

theorem maskBits_any (mask : Nat) (f : Nat → Bool) (h : ∀ k, k < 32 → mask.testBit k = true → f k = false) :
    (maskBits 32 mask).any f = false :=
  List.any_eq_false.mpr fun k hk => by
    unfold maskBits at hk
    obtain ⟨hlt, hbit⟩ := List.mem_filter.mp hk
    simpa using h k (List.mem_range.mp hlt) hbit

theorem execForgeStraitRetire_retires (rq : Req) (s : State) (hs : served 0x0803 rq s = true)
    (hp : s.mci.personality = .forge) (hheads : ∀ h, h < 32 → (rq.u32 0).testBit h = true → h < s.nHeads)
    (hbusy : layerBusy s = true) (hwell : ∀ h, h < 32 → (rq.u32 0).testBit h = true → (s.head h).retired = false) :
    execForgeStraitRetire rq s = .next ((maskBits 32 (rq.u32 0)).foldl (fun s h => retireHead h s)
      (accept rq 0x0803 [] { s with forge := { s.forge with
        retireCtx := s.forge.retireCtx ++ [rq.ctx s 0x0803] } })) := by
  unfold execForgeStraitRetire
  refine commandOf_pass .forge 0x0803 rq _ _ s hs hp ?_
  simp only [List.forall_mem_cons]
  refine ⟨maskBits_any _ _ fun k hk hbit => by simpa using hheads k hk hbit, by simp [hbusy], maskBits_any _ _ hwell,
    List.forall_mem_nil _⟩

theorem execForgeStraitRetire_idle (rq : Req) (s : State) (hs : served 0x0803 rq s = true)
    (hp : s.mci.personality = .forge) (hheads : ∀ h, h < 32 → (rq.u32 0).testBit h = true → h < s.nHeads)
    (hidle : s.forge.layer = .idle) : execForgeStraitRetire rq s = .next (respond rq 0x0803 Status.state [] s) := by
  have hnone : (maskBits 32 (rq.u32 0)).any (s.nHeads ≤ ·) = false :=
    maskBits_any _ _ fun k hk hbit => by simpa using hheads k hk hbit
  unfold execForgeStraitRetire
  exact commandOf_turned_away .forge 0x0803 rq _ _ s true _ hs hp (by simp [hnone, layerBusy, layerActive, hidle])

/-- What the passing of fences leaves: all but the heads and the list of the fences passed. -/
structure OnlyFences (s t : State) : Prop where
  frame : { t with heads := s.heads, forge := s.forge } = s
  forge : { t.forge with fencesPassed := s.forge.fencesPassed } = s.forge

theorem OnlyFences.refl (s : State) : OnlyFences s s := ⟨rfl, rfl⟩

theorem OnlyFences.trans {s t u : State} (h : OnlyFences s t) (g : OnlyFences t u) : OnlyFences s u :=
  ⟨(congrArg (fun v : State => { v with heads := s.heads, forge := s.forge }) g.frame).trans h.frame,
    (congrArg (fun f : Forge => { f with fencesPassed := s.forge.fencesPassed }) g.forge).trans h.forge⟩

theorem onlyFences_foldl {α : Type} (f : State → α → State) (hf : ∀ s x, OnlyFences s (f s x)) (l : List α) (s : State) :
    OnlyFences s (l.foldl f s) := by
  induction l generalizing s with
  | nil => exact .refl s
  | cons x l ih => exact (hf s x).trans (ih _)

theorem onlyFences_modHead (h : Nat) (f : Head → Head) (s : State) : OnlyFences s (s.modHead h f) := by
  unfold State.modHead
  split <;> exact ⟨rfl, rfl⟩

theorem onlyFences_passFences (s : State) : OnlyFences s (passFences s) := by
  unfold passFences
  refine onlyFences_foldl _ (fun s f => ?_) _ s
  split
  · dsimp only
    refine OnlyFences.trans ?_ (onlyFences_foldl _ (fun s h => ?_) _ _)
    · exact ⟨rfl, rfl⟩
    · exact onlyFences_modHead ..
  · exact .refl s

theorem maybePaused_armed (s : State) (h : s.forge.layer = .armed) : maybePaused s = s := by
  unfold maybePaused
  rw [if_neg (by simp [h])]

theorem maybeComplete_armed (s : State) (h : s.forge.layer = .armed) : maybeComplete s = s := by
  unfold maybeComplete
  rw [if_neg (by simp [h])]

/-- A retired head with no vector left in an armed layer gives nothing to the others. -/
theorem issueReassignment_empty (h : Nat) (s : State) (hreassign : s.forge.reassign = [h]) (hctx : s.forge.retireCtx = [])
    (hvecs : (s.head h).vecs = []) (htodo : (s.head h).todo = []) (harmed : s.forge.layer = .armed) :
    issueReassignment [h] s = passFences { s.modHead h (fun x => { x with todo := [] }) with forge :=
      { s.forge with reassign := [], retireCtx := [] } } := by
  have hstop : stopRetired h s = s := by
    unfold stopRetired
    rw [hvecs]
    rfl
  have hremaining : remaining s [h] = [] := by
    unfold remaining
    simp [htodo]
  have hforge (f : Head → Head) : (s.modHead h f).forge = s.forge := State.modHead_forge ..
  unfold issueReassignment
  simp only [List.foldl_cons, List.foldl_nil, hstop, hremaining, List.map_nil, List.filterMap_nil, List.eraseDups_nil,
    if_true, hforge, hreassign, hctx]
  have hleft : ([h].filter fun k => !([h] : List Nat).contains k) = [] := by simp
  simp only [hleft, if_true, List.foldl_nil]
  have hlayer (u : State) (hu : u.forge.layer = .armed) : (passFences u).forge.layer = .armed :=
    (congrArg Forge.layer (onlyFences_passFences u).forge :).trans hu
  refine (congrArg maybeComplete (maybePaused_armed _ (hlayer _ ?_))).trans (maybeComplete_armed _ (hlayer _ ?_))
  · exact harmed
  · exact harmed

theorem execStraitReassignmentIssue_empty (h : Nat) (s : State) (hreassign : s.forge.reassign = [h])
    (hctx : s.forge.retireCtx = []) (hfed : s.headFed h = true) (habort : s.forge.abort = none)
    (hvecs : (s.head h).vecs = []) (htodo : (s.head h).todo = []) (harmed : s.forge.layer = .armed) :
    ∃ t, execStraitReassignmentIssue s = .next t ∧ t.forge.reassign = [] ∧ t.forge.unexecuted = s.forge.unexecuted ∧
      t.forge.layer = .armed ∧ t.links = s.links := by
  have hexec : execStraitReassignmentIssue s = .next (issueReassignment [h] s) := by
    unfold execStraitReassignmentIssue
    simp only [hreassign, List.filter_cons, hfed, List.filter_nil, if_true, habort]
    rfl
  have hfences := onlyFences_passFences { s.modHead h (fun x => { x with todo := [] }) with forge :=
      { s.forge with reassign := [], retireCtx := [] } }
  refine ⟨_, hexec, ?_⟩
  rw [issueReassignment_empty h s hreassign hctx hvecs htodo harmed]
  refine ⟨?_, ?_, ?_, ?_⟩
  · exact (congrArg Forge.reassign hfences.forge :)
  · exact (congrArg Forge.unexecuted hfences.forge :)
  · exact (congrArg Forge.layer hfences.forge :).trans harmed
  · exact (congrArg State.links hfences.frame :).trans (State.modHead_links ..)

theorem execStraitReassignmentIssue_none (s : State) (h : s.forge.reassign = []) : execStraitReassignmentIssue s = .next s := by
  unfold execStraitReassignmentIssue
  rw [h]
  rfl

theorem assignee_ok (r : Rec) (a : Nat) (s : State) (h : assignee s r = .ok a) :
    r.noReassign = false ∧ a < s.nHeads ∧ r.alts.getLsbD a = true ∧ (s.head a).configured = true ∧
    (s.link a).st = .up ∧ (s.head a).retired = false := by
  unfold assignee at h
  dsimp only at h
  split at h
  · cases h
  · next hno =>
    split at h
    · cases h
    · split at h
      · cases h
      · split at h
        · next b hb =>
          cases h
          obtain ⟨halts, hwell⟩ := List.mem_filter.mp (List.mem_of_find?_eq_some hb)
          unfold maskBits at halts
          have hbit := (List.mem_filter.mp halts).2
          simp only [Bool.and_eq_true, decide_eq_true_eq, Bool.not_eq_true'] at hwell
          obtain ⟨⟨⟨hn, hconf⟩, hup⟩, hret⟩ := hwell
          exact ⟨by simpa using hno, hn, by rwa [BitVec.testBit_toNat] at hbit, hconf, hup, hret⟩
        · cases h

/-! ### The status (R246) -/

/-- The reply of forge.strait.status. -/
def straitStatus (retired listed : Nat) (x : Head) : List Byte :=
  leBytes 1 x.tokenCode ++ leBytes 1 (bit x.longWait) ++ zeros 2 ++ leBytes 4 retired ++ x.waits.bytes ++
    leBytes 4 (min x.waitMaxUs (2 ^ 32 - 1)) ++ x.intrusions.bytes ++ x.received.bytes ++ leBytes 4 listed

theorem tokenCode_lt (x : Head) : x.tokenCode < 256 := by
  unfold Head.tokenCode
  (repeat' split) <;> omega

theorem straitStatus_layout (retired listed : Nat) (x : Head) : (straitStatus retired listed x).length = 28 ∧
    leAt (straitStatus retired listed x) 0 1 = x.tokenCode ∧ leAt (straitStatus retired listed x) 8 4 = x.waits.n ∧
    leAt (straitStatus retired listed x) 16 4 = x.intrusions.n ∧ leAt (straitStatus retired listed x) 20 4 = x.received.n := by
  have htoken := tokenCode_lt x
  unfold straitStatus
  generalize min x.waitMaxUs (2 ^ 32 - 1) = longest
  simp only [List.append_assoc]
  refine ⟨?_, ?_, ?_, ?_, ?_⟩
  · simp [Count.bytes]
  · simp [leAt_left, leAt_leBytes]
    omega
  · simp [leAt_left, leAt_right, leAt_count]
  · simp [leAt_left, leAt_right, leAt_leBytes, Count.bytes]
    exact x.intrusions.val.isLt
  · simp [leAt_left, leAt_right, leAt_leBytes, Count.bytes]
    exact x.received.val.isLt

theorem execForgeStraitStatus_reply (rq : Req) (s : State) (hs : served 0x0802 rq s = true)
    (hp : s.mci.personality = .forge) (hh : rq.u8 0 < s.nHeads) :
    execForgeStraitStatus rq s = .next (respond rq 0x0802 Status.ok
      (straitStatus (maskOf ((List.range s.nHeads).filter fun k => (s.head k).retired)) s.forge.unexecListed
        (s.head (rq.u8 0))) s) := by
  unfold execForgeStraitStatus
  exact commandOf_pass .forge 0x0802 rq _ _ s hs hp (by simpa using hh)

/-- Settles O29: a check meets each head once, and while no token is ACTIVE it clears the one that is due; a retired head
without vectors has nothing to reassign. -/
theorem straitAndRetirement : Obligations.StraitAndRetirement := by
  unfold Obligations.StraitAndRetirement
  refine ⟨?_, execStraitWaitMaxExpiry_waits, execStraitTimeoutExpiry_waits, execPlumeHoldExpiry_releases, ?_, ?_,
    execForgeStraitRetire_retires, execForgeStraitRetire_idle, ?_, execStraitReassignmentIssue_none, assignee_ok, ?_⟩
  · intro rq s hs hp c hflow hdown hup hud hradius hhold hwait hwait' htimeout hcap hbuf
    exact execForgeStraitConfig_stored rq c s rfl hs hp
      (straitCfg_good c hflow hdown hup hud hradius hhold hwait hwait' htimeout hcap hbuf)
  · intro s _ hnone hdue
    exact execStraitCheck_idle s hnone hdue
  · intro h v s hlayer hn hdue u hlen hnu hactives hv hothers
    exact execStraitCheck_clears h v s u hlayer hn hdue rfl hlen hnu hactives hv hothers
  · intro h s _ _ hreassign hctx hfed habort hvecs htodo harmed
    exact execStraitReassignmentIssue_empty h s hreassign hctx hfed habort hvecs htodo harmed
  · intro rq s hs hp hh
    obtain ⟨hlen, htoken, hwaits, hintr, hrec⟩ := straitStatus_layout
      (maskOf ((List.range s.nHeads).filter fun k => (s.head k).retired)) s.forge.unexecListed (s.head (rq.u8 0))
    exact ⟨_, execForgeStraitStatus_reply rq s hs hp hh, hlen, htoken, hwaits, hintr, hrec⟩

end Sys2Proof.Machine
end

section
/-!
PROOFS. Melt-pool control (spec/09_forge_overlap_meltpool.md R240, R248 to R252): `MeltPool`.
-/
namespace Sys2Proof.Machine

open Sys2Proof

/-! ### Settings of a head (R248 to R251) -/

/-- A head as forge.meltpool.config leaves it. -/
def Head.meltpool (rq : Req) (x : Head) : Head :=
  { x with inputKind := rq.u8 1, pd := rq.u8 2, camStream := rq.u8 3, camFeature := rq.u8 4, loopKind := rq.u8 5,
           loop := rq.u8 6, startReset := rq.bit 7 0, retireOnLoss := rq.bit 7 1, settle := rq.u16 8,
           signalLost := rq.u16 10, darkMin := rq.u16 12, stale := rq.u16 14, gainMin := rq.u16 16, gainMax := rq.u16 18,
           dark := false }

theorem bindHead_heads (h kind loop : Nat) (inSel : Option Sel) (s : State) :
    { bindHead h kind loop inSel s with engine := s.engine } = s := by
  unfold bindHead
  dsimp only
  (repeat' split) <;> rfl

theorem execForgeMeltpoolConfig_unbound (rq : Req) (s : State) (hs : served 0x0804 rq s = true)
    (hp : s.mci.personality = .forge) (hh : rq.u8 0 < s.nHeads) (h2 : rq.u8 2 ≤ 23) (h3 : rq.u8 3 ≤ 15)
    (h1 : rq.u8 1 ≤ 2) (h4 : rq.u8 4 ≤ 4) (hkind : rq.u8 5 = 0) (h8 : rq.u16 8 ≤ 1000) (h10 : 10 ≤ rq.u16 10)
    (h10' : rq.u16 10 ≤ 10000) (h12 : rq.u16 12 ≤ 4095) (h14 : 100 ≤ rq.u16 14) (hgain : rq.u16 16 ≤ rq.u16 18)
    (hbusy : layerBusy s = false) :
    execForgeMeltpoolConfig rq s = .next (respond rq 0x0804 Status.ok []
      ((bindHead (rq.u8 0) 0 (rq.u8 6) (meltpoolInput (rq.u8 1) (rq.u8 2) (rq.u8 3) (rq.u8 4)) s).modHead (rq.u8 0)
        (Head.meltpool rq))) := by
  have hfun : (Head.meltpool rq) = fun x => { x with
      inputKind := rq.u8 1, pd := rq.u8 2, camStream := rq.u8 3, camFeature := rq.u8 4, loopKind := 0,
      loop := rq.u8 6, startReset := rq.bit 7 0, retireOnLoss := rq.bit 7 1, settle := rq.u16 8,
      signalLost := rq.u16 10, darkMin := rq.u16 12, stale := rq.u16 14, gainMin := rq.u16 16, gainMax := rq.u16 18,
      dark := false } := by
    funext x
    unfold Head.meltpool
    rw [hkind]
  unfold execForgeMeltpoolConfig
  dsimp only
  rw [hkind, hfun]
  refine commandOf_pass .forge 0x0804 rq _ _ s hs hp ?_
  simp only [List.forall_mem_cons]
  refine ⟨?_, ?_, by simp, hbusy, by simp, List.forall_mem_nil _⟩
  · simp
    omega
  · simp
    omega

theorem execForgeMeltpoolRaw_forces (rq : Req) (s : State) (hs : served 0x0880 rq s = true)
    (hp : s.mci.personality = .forge) (hh : rq.u8 0 < s.nHeads) (hlayer : s.forge.layer ≠ .exposing) :
    execForgeMeltpoolRaw rq s = .next (respond rq 0x0880 Status.ok [] (s.modHead (rq.u8 0) fun x =>
      { x with gForce := if rq.u16 2 = 0xFFFF then none else some (rq.u16 2) })) := by
  unfold execForgeMeltpoolRaw
  exact commandOf_pass .forge 0x0880 rq _ _ s hs hp (by simp [hh, hlayer])

/-- A head with a power cap. -/
def Head.capped (cap : Nat) (x : Head) : Head := { x with powerCap := cap }

theorem execForgePowerCap_all (rq : Req) (s : State) (hs : served 0x0807 rq s = true) (hlen : s.heads.length = 24)
    (hp : s.mci.personality = .forge) (hmask : rq.u32 0 = 0) :
    ∃ t, execForgePowerCap rq s = .next t ∧
      (∀ h, h < s.nHeads → t.head h = { s.head h with powerCap := rq.u16 4 }) ∧
      { t with heads := s.heads, mci := s.mci } = s := by
  have hnone : (List.range s.nHeads).any (s.nHeads ≤ ·) = false :=
    List.any_eq_false.mpr fun h hh => by simpa using List.mem_range.mp hh
  have hexec : execForgePowerCap rq s = .next (respond rq 0x0807 Status.ok []
      ((List.range s.nHeads).foldl (fun s h => s.modHead h (Head.capped (rq.u16 4))) s)) := by
    unfold execForgePowerCap
    dsimp only
    rw [if_pos hmask]
    exact commandOf_pass .forge 0x0807 rq _ _ s hs hp (by simp [hnone])
  refine ⟨_, hexec, fun h hh => ?_, ?_⟩
  · have hle : s.nHeads ≤ 24 := nLinks_le s
    rw [respond_head, foldl_modHead_head _ _ List.nodup_range s h (by omega) hh, if_pos (List.mem_range.mpr hh)]
    rfl
  · exact (congrArg (fun t : State => { t with heads := s.heads, mci := s.mci }) (respond_frame ..) :).trans
      (congrArg (fun t : State => { t with mci := s.mci })
        (foldl_modHead_frame (Head.capped (rq.u16 4)) (List.range s.nHeads) s) :)

/-! ### Raises (R249, R252) -/

theorem execMeltpoolSignalLost_lit (h : Nat) (d : BitVec 64) (s u : State)
    (hu : u = s.advanceTo (d.toNat + (s.head h).signalLost * 1600)) (hkind : (s.head h).inputKind = 1)
    (hdark : (s.head h).darkFrom = some d) (hnot : (s.head h).dark = false)
    (hlit : ((s.head h).lit u.now).isSome = true) (t : State)
    (ht : t = present 0x0105 (some h) 0 (u.modHead h fun x => { x with dark := true })) :
    execMeltpoolSignalLost h s = .next (if (s.head h).retireOnLoss then retireHead h t else t) := by
  have hnone : ¬ ((s.head h).lit u.now).isNone = true := by
    obtain ⟨a, ha⟩ := Option.isSome_iff_exists.mp hlit
    rw [ha]
    exact nofun
  unfold execMeltpoolSignalLost
  dsimp only
  rw [hdark]
  dsimp only
  rw [if_neg (by simp [hkind, hnot]), ← hu, if_neg hnone, ← ht]

theorem execCameraFeatureStale_raised (h : Nat) (f : BitVec 64) (s u : State)
    (hu : u = s.advanceTo (f.toNat + (s.head h).stale * 1600 + 1)) (hkind : (s.head h).inputKind = 2)
    (hfeature : at' (s.stream (s.head h).camStream).featAt (s.head h).camFeature none = some f)
    (hnew : (s.head h).staleVector ≠ some ((s.head h).vectorNow u.now)) :
    execCameraFeatureStale h s = .next (present 0x0107 (some h) 0 (u.modHead h fun x =>
      { x with staleVector := some ((s.head h).vectorNow u.now) })) := by
  unfold execCameraFeatureStale
  dsimp only
  change (match at' (s.stream (s.head h).camStream).featAt (s.head h).camFeature none with
    | some t => _
    | none => _) = _
  rw [hfeature]
  dsimp only
  rw [if_pos hkind, ← hu, if_neg (by simp [hkind, hnew])]

/-! ### Photodiode samples (R248) -/

theorem headOwner_congr (s t : State) (hheads : t.heads = s.heads) (hgroups : t.engine.groups = s.engine.groups) (i : Nat) :
    headOwner t i = headOwner s i := by
  unfold headOwner Head.owns State.head State.group
  rw [hheads, hgroups]

/-- A sample counts for a loop that no head owns, or whose head has emitted for long enough. -/
def sampleCounts (s : State) (i : Nat) : Bool := match headOwner s i with
  | some h => (s.head h).settled s.now
  | none => true

/-- A loop takes a sample of a channel. -/
def Loop.sampled (ch c : Nat) (valid : Bool) (l : Loop) : Loop :=
  if (l.inSel.kind = 3 && l.inSel.index = ch) && valid then { l with pdSum := l.pdSum + c, pdCnt := l.pdCnt + 1 } else l

/-- A controller takes a sample of a channel. -/
def Repctl.sampled (ch c : Nat) (r : Repctl) : Repctl :=
  if r.errSel.kind = 3 && r.errSel.index = ch then { r with pdSum := r.pdSum + c, pdCnt := r.pdCnt + 1 } else r

theorem execPhotodiodeSample_unsaturated (ch counts : Nat) (s u v : State) (hcounts : counts < 4095)
    (hu : u = s.advanceTo (sampleInstant s ch))
    (hv : v = { u with engine := { u.engine with pdAt := modAt u.engine.pdAt ch fun _ => some u.time } }) :
    execPhotodiodeSample ch counts s = .next { v with engine := { v.engine with
      loops := mapIx (fun i l => Loop.sampled ch counts (sampleCounts v i) l) v.engine.loops,
      repctls := v.engine.repctls.map (Repctl.sampled ch counts) } } := by
  have hmod : counts % 4096 = counts := Nat.mod_eq_of_lt (by omega)
  subst hv hu
  unfold execPhotodiodeSample
  dsimp only
  rw [hmod, if_neg (by omega)]
  rfl

theorem execPhotodiodeSample_enters (ch counts i : Nat) (s : State) (hi : i < s.engine.loops.length)
    (hcounts : counts < 4095) (hkind : (s.loop i).inSel.kind = 3) (hindex : (s.loop i).inSel.index = ch)
    (howner : headOwner s i = none) :
    ∃ t, execPhotodiodeSample ch counts s = .next t ∧
      t.loop i = { s.loop i with pdSum := (s.loop i).pdSum + counts, pdCnt := (s.loop i).pdCnt + 1 } ∧
      { t with engine := s.engine } = s.advanceTo (sampleInstant s ch) := by
  have hadv := advanceTo_frame s (sampleInstant s ch)
  obtain ⟨u, hu⟩ : ∃ u, u = s.advanceTo (sampleInstant s ch) := ⟨_, rfl⟩
  rw [← hu] at hadv
  have hengine : u.engine = s.engine := (congrArg State.engine hadv :)
  have hloop : u.loop i = s.loop i := (congrArg (fun t : State => t.loop i) hadv :)
  have hnone : headOwner { u with engine := { u.engine with pdAt := modAt u.engine.pdAt ch fun _ => some u.time } } i
      = none :=
    (headOwner_congr s _ (congrArg State.heads hadv :) (congrArg Engine.groups hengine :) i).trans howner
  refine ⟨_, execPhotodiodeSample_unsaturated ch counts s u _ hcounts hu rfl, ?_, ?_⟩
  · refine (at'_mapIx _ u.engine.loops i ({} : Loop) ({} : Loop) (by rw [hengine]; exact hi)).trans ?_
    change Loop.sampled ch counts _ (u.loop i) = _
    rw [hloop]
    unfold Loop.sampled sampleCounts
    rw [hnone, if_pos (by simp [hkind, hindex])]
  · rw [← hu, ← hengine]

/-! ### The status -/

/-- The reply of forge.meltpool.status. -/
def meltpoolStatus (x : Head) : List Byte :=
  leBytes 2 x.gainNow ++ leBytes 1 x.sel ++ leBytes 1 x.hold.toNat ++ leBytes 2 x.pdMean ++ zeros 2 ++ x.wonM.bytes ++
    x.wonT.bytes ++ x.wonC.bytes ++ x.saturated.bytes

theorem meltpoolStatus_layout (x : Head) : (meltpoolStatus x).length = 24 ∧ leAt (meltpoolStatus x) 8 4 = x.wonM.n ∧
    leAt (meltpoolStatus x) 16 4 = x.wonC.n ∧ leAt (meltpoolStatus x) 20 4 = x.saturated.n := by
  unfold meltpoolStatus
  simp only [List.append_assoc]
  refine ⟨?_, ?_, ?_, ?_⟩
  · simp [Count.bytes]
  · simp [leAt_left, leAt_right, leAt_count]
  · simp [leAt_left, leAt_right, leAt_leBytes, Count.bytes]
    exact x.wonC.val.isLt
  · simp [leAt_right, leAt_leBytes, Count.bytes]
    exact x.saturated.val.isLt

theorem execForgeMeltpoolStatus_reply (rq : Req) (s : State) (hs : served 0x0805 rq s = true)
    (hp : s.mci.personality = .forge) (hh : rq.u8 0 < s.nHeads) :
    execForgeMeltpoolStatus rq s = .next (respond rq 0x0805 Status.ok (meltpoolStatus (s.head (rq.u8 0))) s) := by
  unfold execForgeMeltpoolStatus
  exact commandOf_pass .forge 0x0805 rq _ _ s hs hp (by simpa using hh)

/-- Settles O31: a head's settings replace its own alone, the raises come at the head's own times, and a sample enters the
loops whose input is its channel. -/
theorem meltPool : Obligations.MeltPool := by
  unfold Obligations.MeltPool
  refine ⟨?_, execForgeMeltpoolRaw_forces, execForgePowerCap_all, ?_, ?_, execPhotodiodeSample_enters, ?_⟩
  · intro rq s hs hlen hp hh h2 h3 h1 h4 hkind h8 h10 h10' h12 h14 hgain hbusy
    have hexec := execForgeMeltpoolConfig_unbound rq s hs hp hh h2 h3 h1 h4 hkind h8 h10 h10' h12 h14 hgain hbusy
    have hbind := bindHead_heads (rq.u8 0) 0 (rq.u8 6) (meltpoolInput (rq.u8 1) (rq.u8 2) (rq.u8 3) (rq.u8 4)) s
    generalize bindHead (rq.u8 0) 0 (rq.u8 6) (meltpoolInput (rq.u8 1) (rq.u8 2) (rq.u8 3) (rq.u8 4)) s = u at hexec hbind
    have hhead (k : Nat) : u.head k = s.head k := (congrArg (fun t : State => t.head k) hbind :)
    have hn : rq.u8 0 < u.nHeads := (congrArg State.nHeads hbind :).symm ▸ hh
    have hlt : rq.u8 0 < u.heads.length := by
      have hle : u.nHeads ≤ 24 := nLinks_le u
      rw [(congrArg (fun t : State => t.heads.length) hbind :), hlen]
      omega
    have hsame := State.modHead_same u (rq.u8 0) (Head.meltpool rq) hlt hn
    refine ⟨_, hexec, ?_, ?_, ?_, ?_, ?_, ?_, fun k hk => ?_⟩
    any_goals rw [respond_head, hsame]; rfl
    · rw [respond_head, hsame]
      exact hkind
    · rw [respond_head, State.modHead_ne _ _ _ _ (Ne.symm hk)]
      exact hhead k
  · intro h d s u hkind hdark hnot hlit t
    exact execMeltpoolSignalLost_lit h d s u rfl hkind hdark hnot hlit t rfl
  · intro h f s u hkind hfeature hnew
    exact execCameraFeatureStale_raised h f s u rfl hkind hfeature hnew
  · intro rq s hs hp hh
    obtain ⟨hlen, hmelt, hcap, hsat⟩ := meltpoolStatus_layout (s.head (rq.u8 0))
    exact ⟨_, execForgeMeltpoolStatus_reply rq s hs hp hh, hlen, hmelt, hcap, hsat⟩

end Sys2Proof.Machine
end

section
/-!
PROOFS. Control loops, groups, variables and recipes (spec/10_control_engine.md R255 to R258, R263, R264, R269 to R272):
`LoopsAreConfigured`.
-/
namespace Sys2Proof.Machine

open Sys2Proof

/-! ### Groups under the other operations -/

/-- Every loop is in the group it was in, and every group has the members it had. -/
structure GroupsKept (s t : State) : Prop where
  loops : ∀ i, (t.loop i).group = (s.loop i).group
  groups : t.engine.groups = s.engine.groups

theorem GroupsKept.refl (s : State) : GroupsKept s s := ⟨fun _ => rfl, rfl⟩

theorem GroupsKept.trans {s t u : State} (h : GroupsKept s t) (g : GroupsKept t u) : GroupsKept s u :=
  ⟨fun i => (g.loops i).trans (h.loops i), g.groups.trans h.groups⟩

theorem groupsKept_of {s t : State} (hl : t.engine.loops = s.engine.loops) (hg : t.engine.groups = s.engine.groups) :
    GroupsKept s t := ⟨fun i => by unfold State.loop; rw [hl], hg⟩

theorem loop_modLoop (P : Loop → Prop) (i : Nat) (f : Loop → Loop) (s : State) (k : Nat) (h : P (s.loop k))
    (hf : P (f (s.loop k))) : P ((s.modLoop i f).loop k) := by
  have hat : (s.modLoop i f).loop k = s.loop k ∨ (s.modLoop i f).loop k = f (s.loop k) := by
    unfold State.modLoop State.loop
    rw [at'_modAt]
    split
    · exact Or.inr rfl
    · exact Or.inl rfl
  cases hat with
  | inl heq => rw [heq]; exact h
  | inr heq => rw [heq]; exact hf

theorem groupsKept_modLoop (i : Nat) (f : Loop → Loop) (s : State) (hf : ∀ l, (f l).group = l.group) :
    GroupsKept s (s.modLoop i f) :=
  ⟨fun k => loop_modLoop (fun l => l.group = (s.loop k).group) i f s k rfl (hf _), rfl⟩

theorem groupsKept_foldl {α : Type} (f : State → α → State) (hf : ∀ s x, GroupsKept s (f s x)) (l : List α) (s : State) :
    GroupsKept s (l.foldl f s) := by
  induction l generalizing s with
  | nil => exact .refl s
  | cons x l ih => exact (hf s x).trans (ih _)

theorem groupsKept_engineSpeed (m : Nat) (out : Int) (s : State) : GroupsKept s (engineSpeed m out s) := by
  unfold engineSpeed
  split
  · have hframe := (onlyMotor_setCommand m (openDiv (out.toNat * (s.motor m).maxRpm) (2 ^ 30)) s).frame
    exact groupsKept_of (congrArg (fun t : State => t.engine.loops) hframe :)
      (congrArg (fun t : State => t.engine.groups) hframe :)
  · exact .refl s

theorem takeRef_group (l : Loop) (t : Nat) : (l.takeRef t).group = l.group := by
  unfold Loop.takeRef
  (repeat' split) <;> rfl

/-- A delivery leaves the groups. -/
theorem groupsKept_deliver (x : Sel) (out : Int) (hold : Bool) (s : State) : GroupsKept s (deliver x out hold s).st := by
  unfold deliver
  split
  · dsimp only
    split
    · exact .refl s
    · exact groupsKept_of rfl rfl
  · exact groupsKept_of rfl rfl
  · dsimp only
    split
    · exact .refl s
    · have hframe := modHead_frame s x.index fun h => { h with g := (clampI (s.head x.index).gainMin (s.head x.index).gainMax
        (nearest out (2 ^ 15))).toNat }
      exact groupsKept_of (congrArg (fun t : State => t.engine.loops) hframe :)
        (congrArg (fun t : State => t.engine.groups) hframe :)
  · exact groupsKept_engineSpeed ..
  · exact groupsKept_modLoop _ _ _ fun l => takeRef_group l _
  · exact groupsKept_of rfl rfl
  · exact .refl s

/-- A slot of no group that is disabled delivers its OUT_MIN. -/
theorem disableLoop_alone (slot : Nat) (s : State) (hgroup : (s.loop slot).group = none) :
    disableLoop slot s = (deliver ((s.loop slot).outSel) ((s.loop slot).outMin) false
      ({ s with engine := { s.engine with tick := s.time.toNat } }.modLoop slot fun l =>
        { l with enabled := false, fresh := false, out := l.outMin, outBefore := (l.out, s.time.toNat) })).st := by
  have hloop (P : Loop → Prop) (h : P (s.loop slot)) (hf : P { s.loop slot with
      enabled := false, fresh := false, out := (s.loop slot).outMin, outBefore := ((s.loop slot).out, s.time.toNat) }) :
      P (({ s with engine := { s.engine with tick := s.time.toNat } }.modLoop slot fun l =>
        { l with enabled := false, fresh := false, out := l.outMin, outBefore := (l.out, s.time.toNat) }).loop slot) :=
    loop_modLoop P slot _ { s with engine := { s.engine with tick := s.time.toNat } } slot h hf
  unfold disableLoop
  dsimp only
  rw [hloop (fun l => l.group = none) hgroup hgroup]
  dsimp only
  rw [hloop (fun l => l.outSel = (s.loop slot).outSel) rfl rfl, hloop (fun l => l.outMin = (s.loop slot).outMin) rfl rfl]

theorem groupsKept_disableLoop (slot : Nat) (s : State) (hgroup : (s.loop slot).group = none) :
    GroupsKept s (disableLoop slot s) := by
  rw [disableLoop_alone slot s hgroup]
  refine GroupsKept.trans ?_ (groupsKept_deliver ..)
  exact GroupsKept.trans (groupsKept_of rfl rfl : GroupsKept s { s with engine := { s.engine with tick := s.time.toNat } })
    (groupsKept_modLoop _ _ _ fun _ => rfl)

/-- Phases alone change where slots are given theirs. -/
theorem groupsKept_assignPhases (us : List (List Nat)) (s t : State) (h : assignPhases us s = some t) : GroupsKept s t := by
  induction us generalizing s with
  | nil =>
    cases h
    exact .refl _
  | cons u us ih =>
    unfold assignPhases at h
    obtain ⟨v, hv, ht⟩ := Option.bind_eq_some_iff.mp h
    refine GroupsKept.trans ?_ (ih v ht)
    unfold assignPhase at hv
    dsimp only at hv
    split at hv
    · cases hv
    · obtain ⟨p, -, rfl⟩ := Option.map_eq_some_iff.mp hv
      refine groupsKept_foldl _ (fun s i => ?_) _ _
      exact groupsKept_modLoop _ _ _ fun _ => rfl

theorem idleGroupOf_alone (slot : Nat) (s : State) (h : (s.loop slot).group = none) : idleGroupOf slot s = s := by
  unfold idleGroupOf
  rw [h]

/-! ### A PID loop (R272) -/

theorem modLoop_congr (s : State) (i : Nat) (f g : Loop → Loop) (h : f (s.loop i) = g (s.loop i)) :
    s.modLoop i f = s.modLoop i g := by
  unfold State.modLoop
  rw [modAt_congr s.engine.loops i f g {} h]

/-- A loop as control.pid.set leaves it. -/
def Loop.pid (rq : Req) (g : Stage) (now : Nat) (l : Loop) : Loop :=
  { l with loaded := true, invert := rq.bit 1 0, enabled := rq.bit 1 1, stages := [g], period := ticksPerSecond / rq.u32 4,
           ref := rq.i32 24, refNext := none, outMin := rq.i32 28, outMax := rq.i32 32, bias := rq.i32 36, resetNext := false,
           lastTick := if l.enabled then l.lastTick else now }

theorem execControlPidSet_compiled (rq : Req) (kp ki kd tf : Int) (cs : List (Int × Nat)) (g : Stage) (s t : State)
    (hs : served 0x0902 rq s = true) (hslot : rq.u8 0 < 64) (hrate : 1000 ≤ rq.u32 4) (hrate' : rq.u32 4 ≤ 1000000)
    (hdiv : ticksPerSecond % rq.u32 4 = 0) (hlim : rq.i32 28 < rq.i32 32) (hkp : floatInt (rq.u32 8) = some kp)
    (hki : floatInt (rq.u32 12) = some ki) (hkd : floatInt (rq.u32 16) = some kd) (htf : floatInt (rq.u32 20) = some tf)
    (hcs : pidCoefs kp ki kd tf (rq.u32 4) = some cs) (hg : compileStage cs = some g)
    (hgroup : (s.loop (rq.u8 0)).group = none) (howner : ownerActive s (rq.u8 0) = false)
    (ht : assignPhases [[rq.u8 0]] (s.modLoop (rq.u8 0) (Loop.pid rq g s.time.toNat)) = some t) :
    execControlPidSet rq s = .next (respond rq 0x0902 Status.ok []
      (if (s.loop (rq.u8 0)).enabled && !rq.bit 1 1 then disableLoop (rq.u8 0) t else t)) := by
  have hmates : phaseMates s (rq.u8 0) = [rq.u8 0] := by
    unfold phaseMates
    rw [hgroup]
  have hstage : (do
      let kp ← floatInt (rq.u32 8)
      let ki ← floatInt (rq.u32 12)
      let kd ← floatInt (rq.u32 16)
      let tf ← floatInt (rq.u32 20)
      let cs ← pidCoefs kp ki kd tf (rq.u32 4)
      compileStage cs) = some g := by
    simp [hkp, hki, hkd, htf, hcs, hg]
  have hrate0 : ¬ rq.u32 4 = 0 := by omega
  have hkept : GroupsKept s t :=
    (groupsKept_modLoop _ (Loop.pid rq g s.time.toNat) _ fun _ => rfl).trans (groupsKept_assignPhases _ _ _ ht)
  have htgroup : (t.loop (rq.u8 0)).group = none := (hkept.loops _).trans hgroup
  have hchange : s.modLoop (rq.u8 0) (fun _ => (s.loop (rq.u8 0)).pid rq g s.time.toNat) =
      s.modLoop (rq.u8 0) (Loop.pid rq g s.time.toNat) := modLoop_congr _ _ _ _ rfl
  have hchecks : [(decide (64 ≤ rq.u8 0), Status.outOfRange),
      (decide (rq.u32 4 < 1000) || decide (1000000 < rq.u32 4), Status.outOfRange),
      (decide (ticksPerSecond % rq.u32 4 ≠ 0) || (some g).isNone || decide (rq.i32 32 ≤ rq.i32 28), Status.badValue),
      (decide (1 < [rq.u8 0].length) && decide (ticksPerSecond / rq.u32 4 ≠ (s.loop (rq.u8 0)).period), Status.badValue),
      (ownerActive s (rq.u8 0), Status.state)].find? (fun c => c.1) = none := by
    refine List.find?_eq_none.mpr fun c hc => ?_
    have h0 : ¬ 64 ≤ rq.u8 0 := by omega
    have h1 : ¬ rq.u32 4 < 1000 := by omega
    have h2 : ¬ 1000000 < rq.u32 4 := by omega
    have h3 : ¬ rq.i32 32 ≤ rq.i32 28 := by omega
    simp only [List.mem_cons, List.not_mem_nil, or_false] at hc
    rcases hc with rfl | rfl | rfl | rfl | rfl
    · simp [h0]
    · simp [h1, h2]
    · simp [hdiv, h3]
    · simp
    · simp [howner]
  have hidle : idleGroupOf (rq.u8 0) (if (s.loop (rq.u8 0)).enabled && !rq.bit 1 1 then disableLoop (rq.u8 0) t else t) =
      (if (s.loop (rq.u8 0)).enabled && !rq.bit 1 1 then disableLoop (rq.u8 0) t else t) := by
    split
    · exact idleGroupOf_alone _ _ (((groupsKept_disableLoop _ _ htgroup).loops _).trans htgroup)
    · exact idleGroupOf_alone _ _ htgroup
  unfold execControlPidSet serveReq
  rw [if_pos hs]
  dsimp only
  rw [hstage, hmates, if_neg hrate0, hchecks]
  change (match assignPhases [[rq.u8 0]] (s.modLoop (rq.u8 0) fun _ => (s.loop (rq.u8 0)).pid rq g s.time.toNat) with
    | none => _
    | some s' => _) = _
  rw [hchange, ht]
  exact congrArg (fun u => Host.Outcome.next (respond rq 0x0902 Status.ok [] u)) hidle

/-! ### Bindings and settings (R256, R263) -/

theorem boundElse_none (s : State) (out : Sel) (me : Nat)
    (h : out.kind = 0 ∨ ∀ i ∈ loopsBoundTo s out.kind out.index, i = me) :
    (out.kind ≠ 0 && (loopsBoundTo s out.kind out.index).any (· ≠ me)) = false := by
  rw [Bool.and_eq_false_iff]
  refine h.imp (fun h => by simp [h]) fun h => List.any_eq_false.mpr fun i hi => by simp [h i hi]

theorem execControlLoopBind_loop (rq : Req) (s : State) (inSel out : Sel) (hs : served 0x0903 rq s = true)
    (hin : inSel = { kind := rq.u8 4, index := rq.u8 5, sub := rq.u8 6 }) (hout : out = { kind := rq.u8 8, index := rq.u8 9 })
    (hkind : rq.u8 0 = 0) (hi : rq.u8 1 < 64) (hinOk : inSelOk inSel = true) (houtOk : outSelOk out = true)
    (h2 : out.kind ≠ 2) (h3 : out.kind ≠ 3) (h1 : out.kind = 1 → s.mci.personality ≠ .press)
    (hgroup : (s.loop (rq.u8 1)).group = none ∨ out.kind = 0) (hloaded : (s.loop (rq.u8 1)).loaded = true)
    (hbound : out.kind = 0 ∨ ∀ i ∈ loopsBoundTo s out.kind out.index, i = rq.u8 1) :
    execControlLoopBind rq s = .next (respond rq 0x0903 Status.ok []
      (s.modLoop (rq.u8 1) fun l => { l with inSel := inSel, outSel := out })) := by
  have hpress : (out.kind = 2 || out.kind = 3 || (out.kind = 1 && s.mci.personality = .press)) = false := by
    simp [h2, h3]
    exact h1
  have hmember : ((s.loop (rq.u8 1)).group.isSome && decide (out.kind ≠ 0)) = false := by
    rcases hgroup with h | h <;> simp [h]
  subst hin hout
  unfold execControlLoopBind
  dsimp only
  rw [hkind]
  refine command_pass 0x0903 rq _ _ s hs ?_
  simp only [List.forall_mem_cons]
  refine ⟨by decide, by simpa using hi, by simp [hinOk, houtOk], hpress, ?_, by simp [hloaded], ?_, List.forall_mem_nil _⟩
  · simpa using hmember
  · exact boundElse_none s _ (rq.u8 1) hbound

theorem execControlLoopBind_group (rq : Req) (s : State) (out : Sel) (hs : served 0x0903 rq s = true)
    (hout : out = { kind := rq.u8 8, index := rq.u8 9 }) (hkind : rq.u8 0 = 1) (hi : rq.u8 1 < 16)
    (houtOk : outSelOk out = true) (h2 : out.kind ≠ 2) (h3 : out.kind ≠ 3)
    (h1 : out.kind = 1 → s.mci.personality ≠ .press) (hmembers : (s.group (rq.u8 1)).members ≠ [])
    (hbound : out.kind = 0 ∨ ∀ i ∈ loopsBoundTo s out.kind out.index, i = 64 + rq.u8 1) :
    execControlLoopBind rq s = .next (respond rq 0x0903 Status.ok []
      (idleGroup (rq.u8 1) (s.modGroup (rq.u8 1) fun g => { g with outSel := out }))) := by
  have hpress : (out.kind = 2 || out.kind = 3 || (out.kind = 1 && s.mci.personality = .press)) = false := by
    simp [h2, h3]
    exact h1
  subst hout
  unfold execControlLoopBind
  dsimp only
  rw [hkind]
  refine command_pass 0x0903 rq _ _ s hs ?_
  simp only [List.forall_mem_cons]
  refine ⟨by decide, by simpa using hi, by simp [houtOk], hpress, by simp, by simp [hmembers], ?_, List.forall_mem_nil _⟩
  exact boundElse_none s _ (64 + rq.u8 1) hbound

/-- A loop as control.loop.set leaves it before it is enabled or disabled. -/
def Loop.set (rq : Req) (l : Loop) : Loop :=
  { l with resetNext := l.resetNext || rq.u8 2 = 1, numeric := false, ref := if rq.u8 3 = 1 then rq.i32 4 else l.ref,
           refNext := if rq.u8 3 = 1 then none else l.refNext }

/-- A slot that is enabled takes its settings; then it stays enabled or is disabled. -/
theorem execControlLoopSet_enabled (rq : Req) (s : State) (hs : served 0x0904 rq s = true) (hslot : rq.u8 0 < 64)
    (h1 : rq.u8 1 ≤ 1) (h2 : rq.u8 2 ≤ 1) (h3 : rq.u8 3 ≤ 1) (hlen : s.engine.loops.length = 64)
    (hloaded : (s.loop (rq.u8 0)).loaded = true) (hon : (s.loop (rq.u8 0)).enabled = true) :
    execControlLoopSet rq s = .next (respond rq 0x0904 Status.ok []
      (if rq.u8 1 = 1 then enableLoop (rq.u8 0) (s.modLoop (rq.u8 0) (Loop.set rq))
       else disableLoop (rq.u8 0) (s.modLoop (rq.u8 0) (Loop.set rq)))) := by
  have hset : (if rq.u8 3 = 1 then setRef (rq.u8 0) (rq.i32 4) (s.modLoop (rq.u8 0) fun l =>
        { l with resetNext := l.resetNext || rq.u8 2 = 1, numeric := false })
      else s.modLoop (rq.u8 0) fun l => { l with resetNext := l.resetNext || rq.u8 2 = 1, numeric := false }) =
      s.modLoop (rq.u8 0) (Loop.set rq) := by
    by_cases h : rq.u8 3 = 1
    · unfold setRef State.modLoop Loop.set
      simp only [h, if_true, modAt_modAt]
    · unfold Loop.set
      simp only [h, if_false]
  have hstill : ((s.modLoop (rq.u8 0) (Loop.set rq)).loop (rq.u8 0)).enabled = true := by
    rw [State.modLoop_same _ _ _ (by omega)]
    exact hon
  unfold execControlLoopSet
  refine (command_pass 0x0904 rq _ _ s hs ?_).trans ?_
  · simp only [List.forall_mem_cons]
    refine ⟨by simpa using hslot, ?_, by simp [hloaded], by simp [hon], List.forall_mem_nil _⟩
    simp
    omega
  · dsimp only
    rw [hset, hstill]
    simp

end Sys2Proof.Machine
end

section
/-!
PROOFS. Control loops, groups, variables and recipes (spec/10_control_engine.md R255 to R258, R263, R264, R269 to R272):
`LoopsAreConfigured`.
-/
namespace Sys2Proof.Machine

open Sys2Proof

/-! ### A slot is set (R263) -/

theorem respond_loop (rq : Req) (code status : Nat) (p : List Byte) (s : State) (i : Nat) :
    (respond rq code status p s).loop i = s.loop i := respond_of (fun u => u.loop i) rq code status p s fun _ _ => rfl

theorem execControlLoopSet_on (rq : Req) (s : State) (l : Loop) (hs : served 0x0904 rq s = true)
    (hlen : s.engine.loops.length = 64) (hl : l = s.loop (rq.u8 0)) (hslot : rq.u8 0 < 64) (h1 : rq.u8 1 = 1)
    (h2 : rq.u8 2 ≤ 1) (h3 : rq.u8 3 ≤ 1) (hloaded : l.loaded = true) (hon : l.enabled = true) :
    ∃ t, execControlLoopSet rq s = .next t ∧
      t.loop (rq.u8 0) = { l with resetNext := l.resetNext || rq.u8 2 = 1, numeric := false,
                                  ref := if rq.u8 3 = 1 then rq.i32 4 else l.ref,
                                  refNext := if rq.u8 3 = 1 then none else l.refNext } ∧
      (∀ i, i ≠ rq.u8 0 → t.loop i = s.loop i) ∧ { t with engine := s.engine, mci := s.mci } = s := by
  subst hl
  have hexec := execControlLoopSet_enabled rq s hs hslot (by omega) h2 h3 hlen hloaded hon
  rw [if_pos h1] at hexec
  refine ⟨_, hexec, ?_, fun i hi => ?_, ?_⟩
  · unfold enableLoop
    rw [respond_loop, State.modLoop_same _ _ _ (by simp [hlen, hslot]), State.modLoop_same _ _ _ (by omega)]
    simp [Loop.set, hon]
  · unfold enableLoop
    rw [respond_loop, State.modLoop_ne _ _ _ _ (Ne.symm hi), State.modLoop_ne _ _ _ _ (Ne.symm hi)]
  · exact (congrArg (fun t : State => { t with engine := s.engine, mci := s.mci }) (respond_frame ..) :)

/-- A delivery to a free variable stores it, with what it was. -/
theorem deliver_variable (x : Sel) (out : Int) (hold : Bool) (s : State) (h : x.kind = 6) :
    (deliver x out hold s).st = { s with engine := { s.engine with
      vars := modAt s.engine.vars x.index fun _ => out,
      varsBefore := modAt s.engine.varsBefore x.index fun b =>
        (delivered s.engine.tick (at' s.engine.vars x.index 0) b, s.engine.tick) } } := by
  obtain ⟨kind, index, sub⟩ := x
  change kind = 6 at h
  subst h
  rfl

theorem execControlLoopSet_off (rq : Req) (s : State) (l : Loop) (hs : served 0x0904 rq s = true)
    (hlen : s.engine.loops.length = 64) (hl : l = s.loop (rq.u8 0)) (hslot : rq.u8 0 < 64) (h1 : rq.u8 1 = 0)
    (h2 : rq.u8 2 ≤ 1) (h3 : rq.u8 3 ≤ 1) (hloaded : l.loaded = true) (hon : l.enabled = true) (hgroup : l.group = none)
    (hkind : l.outSel.kind = 6) (hvar : l.outSel.index < s.engine.vars.length) :
    ∃ t, execControlLoopSet rq s = .next t ∧ (t.loop (rq.u8 0)).enabled = false ∧ (t.loop (rq.u8 0)).out = l.outMin ∧
      at' t.engine.vars l.outSel.index 0 = l.outMin ∧ { t with engine := s.engine, mci := s.mci } = s := by
  subst hl
  have hexec := execControlLoopSet_enabled rq s hs hslot (by omega) h2 h3 hlen hloaded hon
  have hset : (s.modLoop (rq.u8 0) (Loop.set rq)).loop (rq.u8 0) = (s.loop (rq.u8 0)).set rq :=
    State.modLoop_same _ _ _ (by omega)
  have hgroup' : ((s.modLoop (rq.u8 0) (Loop.set rq)).loop (rq.u8 0)).group = none := by rw [hset]; exact hgroup
  rw [if_neg (by omega), disableLoop_alone _ _ hgroup', hset] at hexec
  rw [deliver_variable _ _ _ _ (show ((s.loop (rq.u8 0)).set rq).outSel.kind = 6 from hkind)] at hexec
  have hlen' : rq.u8 0 < (s.modLoop (rq.u8 0) (Loop.set rq)).engine.loops.length := by simp [hlen, hslot]
  generalize hu : s.modLoop (rq.u8 0) (Loop.set rq) = u at hexec hset hlen'
  have hloop := State.modLoop_same { u with engine := { u.engine with tick := u.time.toNat } } (rq.u8 0) (fun l =>
    { l with enabled := false, fresh := false, out := l.outMin, outBefore := (l.out, u.time.toNat) }) hlen'
  have hout : ((u.loop (rq.u8 0)).outMin) = (s.loop (rq.u8 0)).outMin := by rw [hset]; rfl
  refine ⟨_, hexec, ?_, ?_, ?_, ?_⟩
  · rw [respond_loop]
    exact (congrArg Loop.enabled hloop :)
  · rw [respond_loop]
    exact (congrArg Loop.out hloop :).trans hout
  · have hengine : u.engine.vars = s.engine.vars := by rw [← hu]; rfl
    refine (congrArg (fun t : State => at' t.engine.vars (s.loop (rq.u8 0)).outSel.index 0) (respond_frame ..) :).trans ?_
    exact at'_modAt_same _ _ _ _ (hengine.symm ▸ hvar)
  · refine (congrArg (fun t : State => { t with engine := s.engine, mci := s.mci }) (respond_frame ..) :).trans ?_
    rw [← hu]
    rfl

/-! ### Groups (R264) -/

theorem formGroup_members (g : Nat) (ms : List Nat) (s : State) (hg : g < s.engine.groups.length) :
    ((formGroup g ms s).group g).members = ms := by
  have hfold (f : Loop → Loop) (is : List Nat) (s : State) :
      (is.foldl (fun s i => s.modLoop i f) s).engine.groups = s.engine.groups := by
    induction is generalizing s with
    | nil => rfl
    | cons i is ih => exact ih _
  unfold formGroup
  dsimp only
  generalize hu : (s.group g).members.foldl _ s = u
  have hgroups : u.engine.groups = s.engine.groups := by
    rw [← hu]
    exact hfold _ _ _
  have hfinal := hfold (fun l => { l with group := some g, fresh := false }) ms (u.modGroup g fun x => { x with members := ms })
  unfold State.group
  rw [hfinal]
  exact congrArg Group.members (at'_modAt_same _ _ _ _ (by rw [hgroups]; exact hg))

theorem foldl_joins (g : Nat) (is : List Nat) (s : State) (i : Nat) (hlen : i < s.engine.loops.length)
    (h : i ∈ is ∨ (s.loop i).group = some g) :
    ((is.foldl (fun s i => s.modLoop i fun l => { l with group := some g, fresh := false }) s).loop i).group = some g := by
  induction is generalizing s with
  | nil => exact h.resolve_left (by simp)
  | cons j is ih =>
    refine ih _ (by simpa using hlen) ?_
    by_cases hj : j = i
    · subst hj
      rw [State.modLoop_same _ _ _ hlen]
      exact .inr rfl
    · rw [State.modLoop_ne _ _ _ _ hj]
      exact h.imp_left fun hmem => (List.mem_cons.mp hmem).resolve_left (Ne.symm hj)

theorem formGroup_joined (g : Nat) (ms : List Nat) (s : State) (i : Nat) (hi : i ∈ ms) (hlen : i < s.engine.loops.length) :
    ((formGroup g ms s).loop i).group = some g := by
  have hfold (f : Loop → Loop) (is : List Nat) (s : State) :
      (is.foldl (fun s i => s.modLoop i f) s).engine.loops.length = s.engine.loops.length := by
    induction is generalizing s with
    | nil => rfl
    | cons i is ih => exact (ih _).trans (by simp)
  unfold formGroup
  dsimp only
  refine foldl_joins g ms _ i ?_ (.inl hi)
  exact (hfold _ _ _).symm ▸ hlen

theorem groupOk_members (g : Nat) (ms : List Nat) (s : State) (h : groupOk g ms s = true) (i : Nat) (hi : i ∈ ms) :
    i < 64 ∧ (s.loop i).loaded = true := by
  unfold groupOk at h
  simp only [Bool.and_eq_true, List.all_eq_true, decide_eq_true_eq] at h
  obtain ⟨⟨⟨-, hall⟩, -⟩, -⟩ := h
  obtain ⟨⟨⟨hlt, hloaded⟩, -⟩, -⟩ := hall i hi
  exact ⟨hlt, hloaded⟩

theorem execControlGroupSet_forms (rq : Req) (s t : State) (ms : List Nat) (hs : served 0x0905 rq s = true)
    (hms : ms = (List.range (rq.u8 1)).map fun k => rq.u8 (2 + k)) (hg : rq.u8 0 < 16) (hn : 2 ≤ rq.u8 1) (hn' : rq.u8 1 ≤ 8)
    (hok : groupOk (rq.u8 0) ms s = true) (hbound : removesBound (rq.u8 0) ms s = false)
    (ht : assignPhases [ms] (formGroup (rq.u8 0) ms s) = some t) :
    execControlGroupSet rq s = .next (respond rq 0x0905 Status.ok [] (idleGroup (rq.u8 0) t)) := by
  have hmem := groupOk_members _ _ _ hok
  have hrange : ms.any (64 ≤ ·) = false := List.any_eq_false.mpr fun i hi => by
    have := (hmem i hi).1
    simp
    omega
  have hloaded : (ms.any fun i => !(s.loop i).loaded) = false :=
    List.any_eq_false.mpr fun i hi => by simp [(hmem i hi).2]
  have hn0 : ¬ rq.u8 1 = 0 := by omega
  unfold execControlGroupSet
  dsimp only
  rw [← hms, if_neg hn0, ht]
  refine command_pass 0x0905 rq _ _ s hs ?_
  simp only [List.forall_mem_cons]
  refine ⟨?_, hloaded, by simp [hok], hbound, rfl, List.forall_mem_nil _⟩
  simp [hrange]
  omega

theorem idleGroup_empty (g : Nat) (s : State) (h : (s.group g).members = []) : idleGroup g s = s := by
  unfold idleGroup
  rw [h]

theorem execControlGroupSet_dissolves (rq : Req) (s : State) (hs : served 0x0905 rq s = true)
    (hlen : s.engine.groups.length = 16) (hg : rq.u8 0 < 16) (hn : rq.u8 1 = 0)
    (hbound : removesBound (rq.u8 0) [] s = false) :
    execControlGroupSet rq s = .next (respond rq 0x0905 Status.ok []
      ((formGroup (rq.u8 0) [] s).modGroup (rq.u8 0) fun x => { x with outSel := {} })) := by
  have hempty : (((formGroup (rq.u8 0) [] s).modGroup (rq.u8 0) fun x => { x with outSel := {} }).group (rq.u8 0)).members = [] := by
    have hmembers := formGroup_members (rq.u8 0) [] s (by omega)
    have hat (u : State) (h : (u.group (rq.u8 0)).members = []) :
        ((u.modGroup (rq.u8 0) fun x => { x with outSel := {} }).group (rq.u8 0)).members = [] := by
      unfold State.group State.modGroup at *
      rw [at'_modAt]
      split
      · exact h
      · exact h
    exact hat _ hmembers
  unfold execControlGroupSet
  dsimp only
  rw [hn]
  refine (command_pass 0x0905 rq _ _ s hs ?_).trans ?_
  · simp [hbound, hg]
  · simp only [if_true, Option.getD_some]
    rw [idleGroup_empty _ _ hempty]

/-! ### Variables, stages and recipes (R255, R258, R271) -/

theorem execControlVarWrite_stored (rq : Req) (s : State) (hs : served 0x0908 rq s = true) (hv : rq.u8 0 < 16)
    (hfree : loopsBoundTo s 6 (rq.u8 0) = []) :
    execControlVarWrite rq s = .next (respond rq 0x0908 Status.ok []
      { s with engine := { s.engine with vars := modAt s.engine.vars (rq.u8 0) fun _ => rq.i32 4,
                                         varsBefore := modAt s.engine.varsBefore (rq.u8 0) fun _ => (rq.i32 4, 0) } }) := by
  unfold execControlVarWrite
  exact command_pass 0x0908 rq _ _ s hs (by simp [hv, hfree])

theorem execControlStageRaw_replaced (rq : Req) (g : Stage) (s : State) (hs : served 0x0980 rq s = true)
    (hslot : rq.u8 0 < 64) (h1 : rq.u8 1 ≤ 3) (hloaded : (s.loop (rq.u8 0)).loaded = true)
    (hstage : rq.u8 1 < (s.loop (rq.u8 0)).stages.length) (howner : ownerActive s (rq.u8 0) = false) (h2 : rq.u8 2 ≤ 1)
    (hg : stageOf (rq.u8 2) (rq.bytes 4 48) = some g) :
    execControlStageRaw rq s = .next (respond rq 0x0980 Status.ok [] (s.modLoop (rq.u8 0) fun l =>
      { l with stages := modAt l.stages (rq.u8 1) fun o =>
          { g with s1 := o.s1, s2 := o.s2, s3 := o.s3, i := o.i, next := o.next } })) := by
  have hformat : ¬ 1 < rq.u8 2 := by omega
  unfold execControlStageRaw
  dsimp only
  rw [if_neg hformat, hg]
  refine command_pass 0x0980 rq _ _ s hs ?_
  simp only [List.forall_mem_cons]
  refine ⟨?_, by simp [hloaded], by simpa using hstage, howner, rfl, List.forall_mem_nil _⟩
  simp
  omega

theorem execControlRecipeLoad_accepted (rq : Req) (img : List Byte) (r : State × List Nat) (s u : State)
    (hu : u = coreRead hostCore (rq.u64 0) (rq.u32 8) s) (hs : served 0x0901 rq u = true)
    (himg : u.table (rq.u64 0) (rq.u32 8) = some img) (hr : loadRecipe img (rq.u32 12) u = .ok r) :
    execControlRecipeLoad rq s = .next (accept rq 0x0901 [] { u with engine := { u.engine with
      load := u.engine.load ++ [(rq.ctx u 0x0901, rq.u64 0, rq.u32 8, BitVec.ofNat 32 (rq.u32 12))] } }) := by
  unfold execControlRecipeLoad serveReq
  rw [← hu, if_pos hs]
  dsimp only
  rw [himg]
  dsimp only
  rw [hr]

theorem execControlRecipeLoadDone_ends (c : Ctx) (address n : Nat) (crc : BitVec 32)
    (rest : List (Ctx × Nat × Nat × BitVec 32)) (img : List Byte) (s u v : State)
    (hload : s.engine.load = (c, address, n, crc) :: rest) (hu : u = coreRead hostCore address n s)
    (hcore : u.coreUp hostCore = true) (hv : v = { u with engine := { u.engine with load := rest } })
    (himg : v.table address n = some img) :
    (∀ t slots, loadRecipe img crc.toNat v = .ok (t, slots) → ∃ p, p.length = 16 ∧
      execControlRecipeLoadDone s = .next (complete c Status.ok p t)) ∧
    (∀ e, loadRecipe img crc.toNat v = .error e → ∃ p, p.length = 16 ∧
      execControlRecipeLoadDone s = .next (complete c Status.failed p v)) := by
  have hopen : execControlRecipeLoadDone s = match loadRecipe img crc.toNat v with
      | .error (_, bad) =>
        .next (complete c Status.failed (leBytes 2 bad ++ zeros 2 ++ zeros 8 ++ leBytes 4 (loadOf v)) v)
      | .ok (t, loaded) =>
        .next (complete c Status.ok (leBytes 2 0xFFFF ++ zeros 2 ++ leBytes 8 (maskOf loaded) ++ leBytes 4 (loadOf t)) t) := by
    unfold execControlRecipeLoadDone
    rw [hload]
    dsimp only
    rw [← hu, hcore, ← hv, himg]
      <;> rfl
  constructor
  · intro t slots ht
    rw [ht] at hopen
    exact ⟨_, by simp, hopen⟩
  · intro e he
    rw [he] at hopen
    exact ⟨_, by simp, hopen⟩

/-- Settles O32: a command's checks pass on what it names, its records take their places, and what phases, deliveries and
groups do beside is confined by `GroupsKept`. -/
theorem loopsAreConfigured : Obligations.LoopsAreConfigured := by
  unfold Obligations.LoopsAreConfigured
  refine ⟨?_, ?_, ?_, ?_, ?_, ?_, execControlGroupSet_dissolves, execControlVarWrite_stored, execControlStageRaw_replaced,
    ?_, ?_⟩
  · intro rq kp ki kd tf cs g s t hs slot old hslot hrate hrate' hdiv hlim hkp hki hkd htf hcs hg hgroup howner ht
    refine execControlPidSet_compiled rq kp ki kd tf cs g s t hs hslot hrate hrate' hdiv hlim hkp hki hkd htf hcs hg hgroup
      howner (Eq.trans (congrArg (assignPhases [[rq.u8 0]]) ?_) ht)
    exact modLoop_congr s (rq.u8 0) _ _ rfl
  · intro rq s hs inSel out hkind hi hinOk houtOk h2 h3 h1 hgroup hloaded hbound
    exact execControlLoopBind_loop rq s inSel out hs rfl rfl hkind hi hinOk houtOk h2 h3 h1 hgroup hloaded hbound
  · intro rq s hs out hkind hi houtOk h2 h3 h1 hmembers hbound
    exact execControlLoopBind_group rq s out hs rfl hkind hi houtOk h2 h3 h1 hmembers hbound
  · intro rq s hs hlen l hslot h1 h2 h3 hloaded hon
    exact execControlLoopSet_on rq s l hs hlen rfl hslot h1 h2 h3 hloaded hon
  · intro rq s hs hlen l hslot h1 h2 h3 hloaded hon hgroup hkind hvar
    exact execControlLoopSet_off rq s l hs hlen rfl hslot h1 h2 h3 hloaded hon hgroup hkind hvar
  · intro rq s t hs hlen hglen ms hg hn hn' hok hbound ht
    have hkept := groupsKept_assignPhases _ _ _ ht
    refine ⟨execControlGroupSet_forms rq s t ms hs rfl hg hn hn' hok hbound ht, ?_, fun i hi => ?_⟩
    · unfold State.group
      rw [hkept.groups]
      exact formGroup_members (rq.u8 0) ms s (by omega)
    · rw [hkept.loops]
      exact formGroup_joined (rq.u8 0) ms s i hi (by rw [hlen]; exact (groupOk_members _ _ _ hok i hi).1)
  · intro rq img r s u hs himg hr
    exact execControlRecipeLoad_accepted rq img r s u rfl hs himg hr
  · intro c address n crc rest img s hload u hcore v himg
    exact execControlRecipeLoadDone_ends c address n crc rest img s u v hload rfl hcore rfl himg

end Sys2Proof.Machine
end

section
/-!
PROOFS. Cameras (spec/11_camera_pipeline.md R274, R275, R283, the commands of group 0x0A): `CamerasAreConfigured`.
-/
namespace Sys2Proof.Machine

open Sys2Proof

/-! ### A port is set -/

theorem execCameraPortConfig_sets (rq : Req) (s : State) (hs : served 0x0A01 rq s = true) (hport : rq.u8 0 < 4)
    (hlanes : rq.u8 1 = 1 ∨ rq.u8 1 = 2 ∨ rq.u8 1 = 4) (hlo : 80 ≤ rq.u16 2) (hhi : rq.u16 2 ≤ 2500) (hen : rq.u8 4 ≤ 1)
    (hrate : ∀ i, i < 16 → ∀ c ∈ (s.stream i).cfg :: (s.stream i).cfgNext.toList, c.enable = true → c.path = 0 →
      c.port = rq.u8 0 → inlineRateOk (rq.u8 1) (rq.u16 2) c.dt = true) :
    let is := (List.range 16).filter fun i => (s.stream i).cfg.enable && (s.stream i).cfg.port = rq.u8 0
    execCameraPortConfig rq s = .next (respond rq 0x0A01 Status.ok [] ((is.foldl (fun s i => closeFrame i .reconfigured s) s).modPort
      (rq.u8 0) fun p => { p with lanes := rq.u8 1, rate := rq.u16 2, enable := rq.u8 4 = 1 })) := by
  intro is
  unfold execCameraPortConfig
  have hfits : (((List.range 16).flatMap fun i => (s.stream i).cfg :: (s.stream i).cfgNext.toList).any fun c =>
      c.enable && c.path = 0 && c.port = rq.u8 0 && !inlineRateOk (rq.u8 1) (rq.u16 2) c.dt) = false := by
    refine List.any_eq_false.mpr fun c hc hbad => ?_
    obtain ⟨i, hi, hci⟩ := List.mem_flatMap.mp hc
    simp only [Bool.and_eq_true, decide_eq_true_eq, Bool.not_eq_true'] at hbad
    obtain ⟨⟨⟨hon, hpath⟩, hp⟩, hover⟩ := hbad
    exact Bool.noConfusion (hover.symm.trans (hrate i (List.mem_range.mp hi) c hci hon hpath hp))
  refine command_pass 0x0A01 rq _ _ s hs ?_
  simp only [List.forall_mem_cons]
  refine ⟨by simpa using hport, ?_, List.forall_mem_nil _⟩
  simp [hfits, hlanes, hlo, hhi, hen]

/-! ### A stream is set (R275) -/

theorem stream_modStream_same (s : State) (i : Nat) (f : Stream → Stream) (hi : i < s.cam.streams.length) :
    (s.modStream i f).stream i = f (s.stream i) :=
  at'_modAt_same s.cam.streams i f {} hi

theorem stream_modStream_ne (s : State) (i k : Nat) (f : Stream → Stream) (hk : k ≠ i) :
    (s.modStream i f).stream k = s.stream k :=
  at'_modAt_ne s.cam.streams i k f {} hk.symm

theorem respond_stream (rq : Req) (code status : Nat) (p : List Byte) (s : State) (i : Nat) :
    (respond rq code status p s).stream i = s.stream i := respond_of (fun u => u.stream i) rq code status p s fun _ _ => rfl

/-- A configuration of a stream that is set: the stream alone changes, and the reply is sent. -/
theorem streamSet (rq : Req) (s : State) (p : List Byte) (i : Nat) (f : Stream → Stream) (hi : i < s.cam.streams.length) :
    let t := respond rq 0x0A02 Status.ok p (s.modStream i f)
    t.stream i = f (s.stream i) ∧ (∀ k, k ≠ i → t.stream k = s.stream k) ∧ { t with cam := s.cam, mci := s.mci } = s := by
  refine ⟨?_, fun k hk => ?_, ?_⟩
  · rw [respond_stream, stream_modStream_same s i f hi]
  · rw [respond_stream, stream_modStream_ne s i k f hk]
  · exact (congrArg (fun t : State => { t with cam := s.cam }) (respond_frame rq 0x0A02 Status.ok p (s.modStream i f)) :)

/-- The streams other than `i` that are enabled, as they are set and as they wait to be. -/
def otherStreams (s : State) (i : Nat) : List StreamCfg :=
  ((List.range 16).filter fun j => j ≠ i && (s.stream j).cfg.enable).flatMap fun j =>
    (s.stream j).cfg :: (s.stream j).cfgNext.toList

theorem mem_otherStreams (s : State) (i : Nat) (o : StreamCfg) (h : o ∈ otherStreams s i) :
    ∃ j, j < 16 ∧ j ≠ i ∧ (s.stream j).cfg.enable = true ∧ o ∈ (s.stream j).cfg :: (s.stream j).cfgNext.toList := by
  obtain ⟨j, hj, ho⟩ := List.mem_flatMap.mp h
  obtain ⟨hrange, hother⟩ := List.mem_filter.mp hj
  simp only [ne_eq, Bool.and_eq_true, decide_eq_true_eq] at hother
  exact ⟨j, List.mem_range.mp hrange, hother.1, hother.2, ho⟩

/-- A camera.stream.config that nothing turns away. -/
theorem execCameraStreamConfig_passes (rq : Req) (s : State) (c : StreamCfg) (hs : served 0x0A02 rq s = true)
    (hc : c = streamCfgOf rq) (hi : rq.u8 0 < 16) (hport : c.port < 4) (hvc : c.vc < 16)
    (hok : c.ok (s.port c.port) = true) (hbuf : c.raw = true → c.buf + 6 * c.bytes ≤ s.dram.cfg.usable)
    (hrec : c.rec' + 4096 * c.records ≤ s.dram.cfg.usable)
    (hfree : c.enable = true → ∀ o ∈ otherStreams s (rq.u8 0),
      (o.port, o.vc, o.dt) ≠ (c.port, c.vc, c.dt) ∧ (o.path = 0 → c.path ≠ 0)) :
    ∃ p, execCameraStreamConfig rq s = .next (respond rq 0x0A02 Status.ok p
      (if !c.enable then s.modStream (rq.u8 0) fun t => { t with cfg := c, cfgNext := none, opened := none, backlog := [] }
        else if (s.stream (rq.u8 0)).cfg.enable then s.modStream (rq.u8 0) fun t => { t with cfgNext := some c }
        else s.modStream (rq.u8 0) fun t => { t with cfg := c, cfgNext := none, started := false, orphanRun := false })) := by
  subst hc
  have hids : ((streamCfgOf rq).enable && (otherStreams s (rq.u8 0)).any fun o =>
      o.port = (streamCfgOf rq).port && o.vc = (streamCfgOf rq).vc && o.dt = (streamCfgOf rq).dt) = false := by
    refine Bool.eq_false_iff.mpr fun hbad => ?_
    simp only [Bool.and_eq_true, List.any_eq_true, decide_eq_true_eq] at hbad
    obtain ⟨hon, o, ho, ⟨hp, hv⟩, hd⟩ := hbad
    exact (hfree hon o ho).1 (by rw [hp, hv, hd])
  have hinline : ((streamCfgOf rq).enable && (streamCfgOf rq).path = 0 &&
      (otherStreams s (rq.u8 0)).any fun o => o.path = 0) = false := by
    refine Bool.eq_false_iff.mpr fun hbad => ?_
    simp only [Bool.and_eq_true, List.any_eq_true, decide_eq_true_eq] at hbad
    obtain ⟨⟨hon, hpath⟩, o, ho, hzero⟩ := hbad
    exact (hfree hon o ho).2 hzero hpath
  unfold execCameraStreamConfig
  refine ⟨_, command_pass 0x0A02 rq _ _ s hs ?_⟩
  simp only [List.forall_mem_cons]
  refine ⟨by simp; omega, ?_, hids, hinline, List.forall_mem_nil _⟩
  simp only [hok, Bool.not_true, Bool.false_or, Bool.or_eq_false_iff, Bool.and_eq_false_imp, decide_eq_false_iff_not, Nat.not_lt]
  exact ⟨hbuf, hrec⟩

theorem execCameraStreamConfig_on (rq : Req) (s : State) (c : StreamCfg) (hs : served 0x0A02 rq s = true)
    (hlen : s.cam.streams.length = 16)
    (hc : c = streamCfgOf rq) (hi : rq.u8 0 < 16) (hport : c.port < 4) (hvc : c.vc < 16)
    (hok : c.ok (s.port c.port) = true) (hon : c.enable = true)
    (hbuf : c.raw = true → c.buf + 6 * c.bytes ≤ s.dram.cfg.usable) (hrec : c.rec' + 4096 * c.records ≤ s.dram.cfg.usable)
    (hothers : ∀ j, j < 16 → j ≠ rq.u8 0 → (s.stream j).cfg.enable = true → ∀ o ∈ (s.stream j).cfg :: (s.stream j).cfgNext.toList,
      (o.port, o.vc, o.dt) ≠ (c.port, c.vc, c.dt) ∧ (o.path = 0 → c.path ≠ 0)) :
    ∃ t, execCameraStreamConfig rq s = .next t ∧
      t.stream (rq.u8 0) = (if (s.stream (rq.u8 0)).cfg.enable then { s.stream (rq.u8 0) with cfgNext := some c }
        else { s.stream (rq.u8 0) with cfg := c, cfgNext := none, started := false, orphanRun := false }) ∧
      (∀ k, k ≠ rq.u8 0 → t.stream k = s.stream k) ∧ { t with cam := s.cam, mci := s.mci } = s := by
  have hi' : rq.u8 0 < s.cam.streams.length := by omega
  obtain ⟨p, hp⟩ := execCameraStreamConfig_passes rq s c hs hc hi hport hvc hok hbuf hrec fun _ o ho => by
    obtain ⟨j, hj, hne, hen, hmem⟩ := mem_otherStreams s _ o ho
    exact hothers j hj hne hen o hmem
  rw [hon, if_neg (by simp)] at hp
  refine ⟨_, hp, ?_⟩
  by_cases hwas : (s.stream (rq.u8 0)).cfg.enable = true
  · rw [if_pos hwas, if_pos hwas]
    exact streamSet rq s p (rq.u8 0) _ hi'
  · rw [if_neg hwas, if_neg hwas]
    exact streamSet rq s p (rq.u8 0) _ hi'

theorem execCameraStreamConfig_off (rq : Req) (s : State) (c : StreamCfg) (hs : served 0x0A02 rq s = true)
    (hlen : s.cam.streams.length = 16)
    (hc : c = streamCfgOf rq) (hi : rq.u8 0 < 16) (hport : c.port < 4) (hvc : c.vc < 16)
    (hok : c.ok (s.port c.port) = true) (hoff : c.enable = false)
    (hbuf : c.raw = true → c.buf + 6 * c.bytes ≤ s.dram.cfg.usable) (hrec : c.rec' + 4096 * c.records ≤ s.dram.cfg.usable) :
    ∃ t, execCameraStreamConfig rq s = .next t ∧
      t.stream (rq.u8 0) = { s.stream (rq.u8 0) with cfg := c, cfgNext := none, opened := none, backlog := [] } ∧
      (∀ k, k ≠ rq.u8 0 → t.stream k = s.stream k) ∧ { t with cam := s.cam, mci := s.mci } = s := by
  obtain ⟨p, hp⟩ := execCameraStreamConfig_passes rq s c hs hc hi hport hvc hok hbuf hrec fun hon =>
    Bool.noConfusion (hoff.symm.trans hon)
  rw [hoff, if_pos (by simp)] at hp
  exact ⟨_, hp, streamSet rq s p (rq.u8 0) _ (by omega)⟩

/-! ### The statistics, the D-PHY and the status -/

theorem execCameraStatsConfig_sets (rq : Req) (s : State) (st : CamStats) (c : StreamCfg) (hs : served 0x0A03 rq s = true)
    (hst : st = { shift := rq.u8 1, thresh := rq.u16 2, x := rq.u16 4, y := rq.u16 6, w := rq.u16 8, h := rq.u16 10 })
    (hc : c = ((s.stream (rq.u8 0)).cfgNext).getD (s.stream (rq.u8 0)).cfg) (hi : rq.u8 0 < 16)
    (hshift : st.shift ≤ 8 ∨ st.shift = 0xFF) (hw : 32 ≤ st.w) (hh : 32 ≤ st.h) (hx : st.x + st.w ≤ c.width)
    (hy : st.y + st.h ≤ c.height) :
    execCameraStatsConfig rq s =
      .next (respond rq 0x0A03 Status.ok [] (s.modStream (rq.u8 0) fun t => { t with shadow := st })) := by
  subst hst hc
  unfold execCameraStatsConfig
  refine command_pass 0x0A03 rq _ _ s hs ?_
  simp only [List.forall_mem_cons]
  dsimp only at hshift hw hh hx hy
  refine ⟨by simpa using hi, by simp; omega, List.forall_mem_nil _⟩

theorem execCameraPhyRaw_sets (rq : Req) (s : State) (hs : served 0x0A80 rq s = true) (hport : rq.u8 0 < 4)
    (hsLo : 40 ≤ rq.u16 2) (hsHi : rq.u16 2 ≤ 500) (ckLo : 95 ≤ rq.u16 4) (ckHi : rq.u16 4 ≤ 500) (heq : rq.u8 6 ≤ 7) :
    execCameraPhyRaw rq s = .next (respond rq 0x0A80 Status.ok []
      (s.modPort (rq.u8 0) fun p => { p with rawNext := some (rq.u16 2, rq.u16 4, rq.u8 6) })) := by
  unfold execCameraPhyRaw
  refine command_pass 0x0A80 rq _ _ s hs ?_
  simp only [List.forall_mem_cons]
  refine ⟨by simpa using hport, by simp; omega, List.forall_mem_nil _⟩

theorem execCameraStreamStatus_replies (rq : Req) (s : State) (hs : served 0x0A04 rq s = true) (hi : rq.u8 0 < 16) :
    ∃ p, execCameraStreamStatus rq s = .next (respond rq 0x0A04 Status.ok p s) ∧ p.length = 56 ∧
      leAt p 0 4 = (s.stream (rq.u8 0)).lastSeq.toNat ∧ leAt p 8 8 = (s.stream (rq.u8 0)).frames.toNat ∧
      leAt p 16 4 = (s.stream (rq.u8 0)).dropped.n ∧ leAt p 20 4 = (s.stream (rq.u8 0)).short.n := by
  unfold execCameraStreamStatus
  refine ⟨_, command_pass 0x0A04 rq _ _ s hs (by simpa using hi), ?_⟩
  generalize s.stream (rq.u8 0) = x
  simp only [List.append_assoc]
  refine ⟨by simp [Count.bytes], ?_, ?_, ?_, ?_⟩
  · simpa [leAt_left, leAt_leBytes] using x.lastSeq.isLt
  · simpa [leAt_left, leAt_right, leAt_leBytes] using x.frames.isLt
  · simpa [leAt_left, leAt_right, leAt_leBytes, Count.bytes, Count.n] using x.dropped.val.isLt
  · simpa [leAt_left, leAt_right, leAt_leBytes, Count.bytes, Count.n] using x.short.val.isLt

/-- Settles O34: each command passes its checks under the clause's premises, and what it then does is read off: `streamSet`
for a stream, the reply's layout for the status. -/
theorem camerasAreConfigured : Obligations.CamerasAreConfigured :=
  ⟨execCameraPortConfig_sets,
    fun rq s hs hlen hi hport hvc hok hon hbuf hrec hothers =>
      execCameraStreamConfig_on rq s _ hs hlen rfl hi hport hvc hok hon hbuf hrec hothers,
    fun rq s hs hlen hi hport hvc hok hoff hbuf hrec =>
      execCameraStreamConfig_off rq s _ hs hlen rfl hi hport hvc hok hoff hbuf hrec,
    fun rq s hs hi hshift hw hh hx hy => execCameraStatsConfig_sets rq s _ _ hs rfl rfl hi hshift hw hh hx hy,
    execCameraStreamStatus_replies, execCameraPhyRaw_sets⟩

end Sys2Proof.Machine
end

section
/-!
PROOFS. Camera frames (spec/11_camera_pipeline.md R276 to R282, R285 to R287, R290, R295): `CameraFramesAreReceived`.
-/
namespace Sys2Proof.Machine

open Sys2Proof

/-! ### What leaves the streams as they are -/

theorem unitStore_works (requester a : Nat) (bs : List Byte) (s : State) : DramWorks s (unitStore requester a bs s) := by
  unfold unitStore
  split
  · exact dramWorks_dramStore ..
  · exact DramWorks.refl s

theorem DramWorks.cam {s t : State} (h : DramWorks s t) : t.cam = s.cam := (congrArg State.cam h.rest :)

theorem unitStore_cam (requester a : Nat) (bs : List Byte) (s : State) : (unitStore requester a bs s).cam = s.cam :=
  (unitStore_works requester a bs s).cam

theorem logViolation_cam (iface unit code detail : Nat) (s : State) : (logViolation iface unit code detail s).cam = s.cam :=
  (congrArg State.cam (logViolation_frame iface unit code detail s) :)

theorem queueEvent_cam (code : Nat) (p : List Byte) (s : State) : (queueEvent code p s).cam = s.cam :=
  (congrArg State.cam (queueEvent_frame code p s) :)

theorem phyApply_streams (port : Nat) (s : State) : (phyApply port s).cam.streams = s.cam.streams := rfl

theorem phyApply_mci (port : Nat) (s : State) : (phyApply port s).mci = s.mci := rfl

theorem phyApply_stream (port : Nat) (s : State) (i : Nat) : (phyApply port s).stream i = s.stream i := rfl

/-- A Frame Start's edge is captured by its source, or raised where the FIFO is full (R80, R86). -/
theorem captureEdge_frameStart (i : Nat) (t : BitVec 64) (s : State) :
    { captureEdge i ⟨.frame, t⟩ s with sources := s.sources, flt := s.flt } = s := by
  unfold captureEdge
  dsimp only
  split
  · unfold countEdge pushEdge
    dsimp only
    by_cases hfull : 16 ≤ (s.source i).fifo.length
    · rw [if_pos hfull, if_pos hfull]
      rfl
    · rw [if_neg hfull, if_neg hfull]
      rfl
  · rfl

/-- The part of a stream that the closing of a frame settles: the open frame and the counts of frames. -/
def Stream.tally (x : Stream) : Option Frame × BitVec 64 × Count × Count := (x.opened, x.frames, x.short, x.unterm)

/-- The open frames and the counts of frames of every stream stay. -/
def TalliesKept (s t : State) : Prop := t.cam.streams.map Stream.tally = s.cam.streams.map Stream.tally

theorem TalliesKept.refl (s : State) : TalliesKept s s := rfl

theorem TalliesKept.trans {s t u : State} (h : TalliesKept s t) (g : TalliesKept t u) : TalliesKept s u := Eq.trans g h

theorem talliesKept_cam {s t : State} (h : t.cam = s.cam) : TalliesKept s t := by unfold TalliesKept; rw [h]

theorem talliesKept_modStream (s : State) (i : Nat) (f : Stream → Stream) (h : ∀ x, (f x).tally = x.tally) :
    TalliesKept s (s.modStream i f) := map_modAt Stream.tally s.cam.streams i f h

theorem TalliesKept.length {s t : State} (h : TalliesKept s t) : t.cam.streams.length = s.cam.streams.length := by
  simpa using congrArg List.length h

theorem TalliesKept.tally {s t : State} (h : TalliesKept s t) (i : Nat) (hi : i < s.cam.streams.length) :
    (t.stream i).tally = (s.stream i).tally := by
  have hat : at' (t.cam.streams.map Stream.tally) i (Stream.tally {}) = at' (s.cam.streams.map Stream.tally) i (Stream.tally {}) :=
    congrArg (fun l => at' l i (Stream.tally {})) h
  rwa [at'_map Stream.tally _ i {} _ (h.length ▸ hi), at'_map Stream.tally _ i {} _ hi] at hat

/-- A record that is written counts as one of its stream (R291, R292). -/
theorem writeRecord_cam (i : Nat) (f : Frame) (s : State) :
    (writeRecord i f s).cam = (s.modStream i fun t => { t with droppedBefore := 0, recsWritten := t.recsWritten.inc }).cam := by
  have hstore (u : State) (h : u.cam = s.cam) :
      (u.modStream i fun t => { t with droppedBefore := 0, recsWritten := t.recsWritten.inc }).cam =
        (s.modStream i fun t => { t with droppedBefore := 0, recsWritten := t.recsWritten.inc }).cam := by
    unfold State.modStream
    rw [h]
  unfold writeRecord
  dsimp only
  split
  · rw [queueEvent_cam]
    exact hstore _ (unitStore_cam ..)
  · exact hstore _ (unitStore_cam ..)

theorem talliesKept_writeRecord (i : Nat) (f : Frame) (s : State) : TalliesKept s (writeRecord i f s) := by
  unfold TalliesKept
  rw [writeRecord_cam]
  exact talliesKept_modStream s i _ fun _ => rfl

theorem talliesKept_deliverFeatures (i : Nat) (f : Frame) (s : State) : TalliesKept s (deliverFeatures i f s) := by
  unfold deliverFeatures
  dsimp only
  split
  · exact TalliesKept.refl s
  · exact talliesKept_modStream s i _ fun _ => rfl

theorem talliesKept_copyHistogram (i : Nat) (f : Frame) (s : State) : TalliesKept s (copyHistogram i f s) := by
  unfold copyHistogram
  split
  · split <;> rfl
  · rfl

theorem talliesKept_raiseBad (i : Nat) (f : Frame) (s : State) : TalliesKept s (raiseBad i f s) := by
  unfold raiseBad
  dsimp only
  have hraised (due : Bool) : TalliesKept s
      (if (f.bad && due) = true then present 0x0142 (some i) 0 (s.modStream i fun t => { t with badAt := some s.time }) else s) := by
    split
    · exact talliesKept_modStream s i (fun t => { t with badAt := some s.time }) fun _ => rfl
    · rfl
  exact hraised _

theorem talliesKept_joinBacklog (i : Nat) (f : Frame) (s : State) : TalliesKept s (joinBacklog i f s) := by
  unfold joinBacklog
  dsimp only
  split
  · exact talliesKept_modStream s i _ fun _ => rfl
  · have hjoined (due : Bool) := talliesKept_modStream s i (fun t => { t with
      backlog := t.backlog.tail ++ [f], dropped := t.dropped.inc, droppedBefore := t.droppedBefore + 1,
      dropAt := if due then some s.time else t.dropAt }) fun _ => rfl
    have hraised (due : Bool) : TalliesKept s
        (let u := s.modStream i fun t => { t with
          backlog := t.backlog.tail ++ [f], dropped := t.dropped.inc, droppedBefore := t.droppedBefore + 1,
          dropAt := if due then some s.time else t.dropAt }
        if due then present 0x0141 (some i) 0 u else u) := by
      cases due <;> exact hjoined _
    exact hraised _

theorem talliesKept_logViolation (good : Prop) [Decidable good] (iface unit code detail : Nat) (s : State) :
    TalliesKept s (if good then logViolation iface unit code detail s else s) := by
  split
  · exact talliesKept_cam (logViolation_cam ..)
  · rfl

theorem talliesKept_unitStore (good : Prop) [Decidable good] (requester a : Nat) (bs : List Byte) (s : State) :
    TalliesKept s (if good then unitStore requester a bs s else s) := by
  split
  · exact talliesKept_cam (unitStore_cam ..)
  · rfl

/-! ### A frame closes (R277, R278, R280) -/

theorem closeFrame_none (i : Nat) (by' : FrameClose) (s : State) (h : (s.stream i).opened = none) : closeFrame i by' s = s := by
  simp [closeFrame, h]

/-- What a closing frame counts at its stream. -/
theorem closeFrame_tally (i : Nat) (by' : FrameClose) (f : Frame) (s : State) (hi : i < s.cam.streams.length)
    (hf : (s.stream i).opened = some f) :
    ((closeFrame i by' s).stream i).tally = (none, (s.stream i).frames + 1,
      (if by' = .ended ∧ f.lines < f.cfg.height then (s.stream i).short.inc else (s.stream i).short),
      (if by' = .ended then (s.stream i).unterm else (s.stream i).unterm.inc)) := by
  unfold closeFrame
  rw [hf]
  dsimp only
  generalize hu : s.modStream i _ = u
  have hstream : (u.stream i).tally = (none, (s.stream i).frames + 1,
      (if by' = .ended ∧ f.lines < f.cfg.height then (s.stream i).short.inc else (s.stream i).short),
      (if by' = .ended then (s.stream i).unterm else (s.stream i).unterm.inc)) := by
    rw [← hu, stream_modStream_same s i _ hi]
    simp [Stream.tally]
  have hlen : i < u.cam.streams.length := by
    rw [← hu]
    simpa using hi
  have hlogged := ((talliesKept_logViolation (by' = .missing) 1 i 4 (camDetail f.cfg.port f.cfg.vc f.cfg.dt f.fn.toNat) u).trans
    (talliesKept_logViolation ((decide (by' = .ended) && decide (f.lines < f.cfg.height)) = true) 1 i 5
      (camDetail f.cfg.port f.cfg.vc f.cfg.dt f.fn.toNat) _)).trans
      (talliesKept_raiseBad i { f with
        flags := f.flags ||| (if (decide (by' = .ended) && decide (f.lines < f.cfg.height)) = true then 1 else 0) |||
          (if decide (by' = .ended) = true then 0 else 4), closeTime := s.time } _)
  generalize raiseBad i _ _ = v at hlogged ⊢
  generalize Frame.pooled _ = g
  have hcopied := (hlogged.trans (talliesKept_copyHistogram i g v)).trans (talliesKept_unitStore (g.cfg.raw = true) (52 + g.cfg.port)
    (g.cfg.buf + g.buffer * g.cfg.bytes + 4) (leBytes 4 g.used) _)
  generalize (if g.cfg.raw = true then unitStore _ _ _ _ else _) = w at hcopied ⊢
  refine Eq.trans (TalliesKept.tally (s := u) ?_ i hlen) hstream
  split
  · exact hcopied.trans (talliesKept_joinBacklog i g w)
  · exact (hcopied.trans (talliesKept_deliverFeatures i g w)).trans (talliesKept_writeRecord i g _)

/-! ### A packet is received (R274, R275) -/

theorem receivePacket_off (port : Nat) (p : CamPacket) (s : State) (h : (s.port port).enable = false) :
    receivePacket port p s = s := by simp [receivePacket, h]

/-- A channel with streams lies on an enabled port. -/
theorem streamsOf_single (s : State) (port vc i : Nat) (h : streamsOf s port vc = [i]) :
    (s.port port).enable = true ∧ i < 16 := by
  unfold streamsOf at h
  split at h
  · refine ⟨by assumption, ?_⟩
    have hmem : i ∈ [i] := List.mem_singleton_self i
    rw [← h] at hmem
    exact List.mem_range.mp (List.mem_filter.mp hmem).1
  · exact absurd h (by simp)

theorem receivePacket_start (port : Nat) (p : CamPacket) (s : State) (i : Nat) (hecc : (takenPacket p).h.ecc = .good)
    (hdt : (takenPacket p).h.dt = 0) (hchan : streamsOf s port (takenPacket p).h.vc = [i]) :
    receivePacket port p s = openFrame i (BitVec.ofNat 16 (takenPacket p).h.wc) false (phyApply port s) := by
  obtain ⟨hon, -⟩ := streamsOf_single s port _ i hchan
  unfold receivePacket
  rw [if_neg (by simp [hon])]
  dsimp only
  rw [hchan, if_neg (by rw [hecc]; decide), if_pos hdt, frameStart, if_neg (by rw [hecc]; decide)]
  rfl

theorem receivePacket_end (port : Nat) (p : CamPacket) (s : State) (i : Nat) (f : Frame)
    (hecc : (takenPacket p).h.ecc = .good) (hdt : (takenPacket p).h.dt = 1)
    (hchan : streamsOf s port (takenPacket p).h.vc = [i]) (hf : (s.stream i).opened = some f) :
    receivePacket port p s = closeFrame i .ended (phyApply port s) := by
  obtain ⟨hon, -⟩ := streamsOf_single s port _ i hchan
  unfold receivePacket
  rw [if_neg (by simp [hon])]
  dsimp only
  rw [hchan, if_neg (by rw [hecc]; decide), if_neg (by rw [hdt]; decide), if_pos hdt]
  unfold frameEnd
  dsimp only
  rw [if_neg (by rw [hecc]; decide)]
  simp only [List.foldl_cons, List.foldl_nil, phyApply_stream, hf]

theorem receivePacket_image (port : Nat) (p : CamPacket) (s : State) (i : Nat) (hecc : (takenPacket p).h.ecc = .good)
    (hchan : streamsOf s port (takenPacket p).h.vc = [i]) (himage : isImageDt (takenPacket p).h.dt = true)
    (hdt : (s.stream i).cfg.dt = (takenPacket p).h.dt) :
    receivePacket port p s = takePacket i (takenPacket p) (phyApply port s) := by
  obtain ⟨hon, -⟩ := streamsOf_single s port _ i hchan
  have hlong : 4 ≤ (takenPacket p).h.dt := by
    simp only [isImageDt, Bool.or_eq_true, decide_eq_true_eq] at himage
    omega
  unfold receivePacket
  rw [if_neg (by simp [hon])]
  dsimp only
  rw [hchan, if_neg (by rw [hecc]; decide), if_neg (by omega), if_neg (by omega)]
  unfold longPacket
  simp only [hecc, reduceCtorEq, if_false]
  rw [if_neg (by simp; omega), if_neg (by simp [himage])]
  simp [phyApply_stream, hdt]

/-! ### A Frame Start opens a frame (R276, R290) -/

/-- The frame that a Frame Start opens in buffer `b` (R276, R284, R290). -/
def frameAt (x : Stream) (fn : BitVec 16) (time : BitVec 64) (b : Nat) : Frame :=
  { seq := nextSequence x (x.cfgNext.getD x.cfg) fn, fn := fn, fsTime := time, closeTime := 0, flags := 0,
    cfg := x.cfgNext.getD x.cfg, stats := x.shadow, lines := 0, discarded := 0, rows := [], marks := [], buffer := b, used := 64,
    full := false }

/-- The stream once it has opened a frame. -/
def Stream.withOpen (x : Stream) (f : Frame) : Stream :=
  { x with cfg := f.cfg, cfgNext := none, opened := some f, started := true, lastSeq := f.seq, lastFn := f.fn,
           lastBuf := f.buffer, orphanRun := false }

theorem openFrame_opens (i : Nat) (fn : BitVec 16) (s : State) (hi : i < s.cam.streams.length)
    (hnone : (s.stream i).opened = none) :
    ∃ b, (openFrame i fn false s).stream i = (s.stream i).withOpen (frameAt (s.stream i) fn s.time b) ∧
      (∀ k, k ≠ i → (openFrame i fn false s).stream k = s.stream k) ∧ (openFrame i fn false s).mci = s.mci ∧
      (openFrame i fn false s).lag = s.lag := by
  unfold openFrame
  dsimp only
  have hframe := captureEdge_frameStart (34 + i) s.time s
  generalize captureEdge (34 + i) ⟨.frame, s.time⟩ s = u at hframe ⊢
  have hcam : u.cam = s.cam := (congrArg State.cam hframe :)
  have hmci : u.mci = s.mci := (congrArg State.mci hframe :)
  have hlag : u.lag = s.lag := (congrArg State.lag hframe :)
  have htime : u.time = s.time := (congrArg State.time hframe :)
  have hstream (k : Nat) : u.stream k = s.stream k := by
    unfold State.stream
    rw [hcam]
  rw [closeFrame_none i .missing u (by rw [hstream, hnone])]
  generalize List.getD _ _ _ = b
  refine ⟨b, ?_⟩
  have hopen (v : State) (hv : DramWorks ({ u with free := u.free + 1 }.modStream i fun x =>
      x.withOpen (frameAt (u.stream i) fn u.time b)) v) :
      v.stream i = (s.stream i).withOpen (frameAt (s.stream i) fn s.time b) ∧ (∀ k, k ≠ i → v.stream k = s.stream k) ∧
        v.mci = s.mci ∧ v.lag = s.lag := by
    unfold State.stream
    rw [hv.cam, hv.mci, hv.lag]
    refine ⟨?_, fun k hk => ?_, hmci, hlag⟩
    · refine (stream_modStream_same { u with free := u.free + 1 } i _ (by rw [hcam]; exact hi)).trans ?_
      rw [htime, hstream]
      exact congrArg (Stream.withOpen · (frameAt (s.stream i) fn s.time b)) (hstream i)
    · exact (stream_modStream_ne { u with free := u.free + 1 } i k _ hk).trans (hstream k)
  split
  · exact hopen _ (unitStore_works ..)
  · exact hopen _ (DramWorks.refl _)

theorem execFrameStartReceive_opens (port i : Nat) (di : Byte) (wc : BitVec 16) (ecc : Byte) (s : State) (d : CamHeader)
    (fn : BitVec 16) (c : StreamCfg) (hlen : s.cam.streams.length = 16) (hd : d = decodeHeader (packetHeader di wc ecc))
    (hfn : fn = BitVec.ofNat 16 d.wc) (hecc : d.ecc = .good) (hdt : d.dt = 0) (hchan : streamsOf s port d.vc = [i])
    (hnone : (s.stream i).opened = none) (hc : c = ((s.stream i).cfgNext).getD (s.stream i).cfg) :
    ∃ t f, execFrameStartReceive port di wc ecc s = .next t ∧ (t.stream i).opened = some f ∧
      f.seq = nextSequence (s.stream i) c fn ∧ f.fn = fn ∧ f.fsTime = s.time ∧ f.cfg = c ∧ f.stats = (s.stream i).shadow ∧
      f.lines = 0 ∧ f.rows = [] ∧ f.flags = 0 ∧ (∀ k, k ≠ i → t.stream k = s.stream k) ∧ t.mci = s.mci ∧
      t.lag = s.lag := by
  subst hc hfn hd
  obtain ⟨-, hi⟩ := streamsOf_single s port _ i hchan
  obtain ⟨b, hsame, hne, hmci, hlag⟩ := openFrame_opens i (BitVec.ofNat 16 (decodeHeader (packetHeader di wc ecc)).wc)
    (phyApply port s) (by rw [phyApply_streams]; omega) hnone
  refine ⟨_, _, congrArg Host.Outcome.next (receivePacket_start port _ s i hecc hdt hchan), congrArg Stream.opened hsame, rfl, rfl,
    rfl, rfl, rfl, rfl, rfl, rfl, hne, hmci, hlag⟩

/-! ### A line joins its frame (R277, R281) -/

theorem classGrants_cam (c n : Nat) (s : State) : (classGrants c n s).cam = s.cam :=
  (congrArg State.cam (classGrants_frame c n s) :)

theorem takeLine_joins (i : Nat) (q : LongPacket) (f : Frame) (s : State) (hi : i < s.cam.streams.length)
    (hf : (s.stream i).opened = some f) (hcrc : q.crcOk = true) (hpath : f.cfg.path = 0) (hcopy : f.cfg.rawCopy = false)
    (hroom : f.lines < f.cfg.height) (hwc : q.h.wc * 8 = f.cfg.width * dtBits f.cfg.dt) :
    ((takeLine i q s).stream i).opened =
        some { f with lines := f.lines + 1, rows := f.rows ++ [(f.lines, pixelsOf f.cfg.dt q.payload)] } ∧
      (∀ k, k ≠ i → (takeLine i q s).stream k = s.stream k) ∧
      { takeLine i q s with cam := s.cam } = classGrants 2 q.payload.length s := by
  have hcam := classGrants_cam 2 q.payload.length s
  have hraw : f.cfg.raw = false := by simp [StreamCfg.raw, hpath, hcopy]
  unfold takeLine
  rw [hf]
  dsimp only
  rw [if_neg (by omega), if_pos hpath]
  simp only [hraw, hwc, hcrc, ne_eq, not_true_eq_false, Bool.false_eq_true, if_false, if_true, decide_false, Bool.not_false,
    Bool.and_true, Bool.true_or]
  generalize classGrants 2 q.payload.length s = u at hcam ⊢
  have hstream (k : Nat) : u.stream k = s.stream k := by
    unfold State.stream
    rw [hcam]
  refine ⟨?_, fun k hk => ?_, ?_⟩
  · rw [stream_modStream_same u i _ (hcam ▸ hi), hstream, hf]
    have hflags : f.flags ||| 0 ||| 0 = f.flags := by simp
    rw [Option.map_some, hflags]
  · rw [stream_modStream_ne u i k _ hk, hstream]
  · rw [← hcam]
    rfl

theorem execLinePacketReceive_joins (port i : Nat) (pkt : CamPacket) (f : Frame) (s : State) (q : LongPacket) (u : State)
    (hlen : s.cam.streams.length = 16) (hq : q = takenPacket pkt) (hu : u = classGrants 2 q.payload.length (phyApply port s))
    (hchan : streamsOf s port q.h.vc = [i]) (hecc : q.h.ecc = .good) (hcrc : q.crcOk = true)
    (himage : isImageDt q.h.dt = true) (hdt : (s.stream i).cfg.dt = q.h.dt) (hf : (s.stream i).opened = some f)
    (hpath : f.cfg.path = 0) (hcopy : f.cfg.rawCopy = false) (hroom : f.lines < f.cfg.height)
    (hwc : q.h.wc * 8 = f.cfg.width * dtBits f.cfg.dt) :
    ∃ t, execLinePacketReceive port pkt s = .next t ∧
      (t.stream i).opened =
        some { f with lines := f.lines + 1, rows := f.rows ++ [(f.lines, pixelsOf f.cfg.dt q.payload)] } ∧
      (∀ k, k ≠ i → t.stream k = s.stream k) ∧ { t with cam := u.cam } = u := by
  subst hq hu
  obtain ⟨-, hi⟩ := streamsOf_single s port _ i hchan
  refine ⟨_, congrArg Host.Outcome.next (receivePacket_image port pkt s i hecc hchan himage hdt), ?_⟩
  rw [takePacket, phyApply_stream, hf]
  dsimp only
  rw [if_pos himage, classGrants_cam]
  exact takeLine_joins i (takenPacket pkt) f (phyApply port s) (by rw [phyApply_streams]; omega) hf hcrc hpath hcopy hroom hwc

/-! ### A packet outside a frame (R281) -/

theorem orphan_counts (i detail : Nat) (s : State) (hi : i < s.cam.streams.length) :
    ((orphan i detail s).stream i).orphans = (s.stream i).orphans.inc ∧
      ((orphan i detail s).stream i).opened = (s.stream i).opened ∧
      ((s.stream i).orphanRun = true → (orphan i detail s).mci = s.mci) := by
  have hcam : (orphan i detail s).cam = (s.modStream i fun t => { t with orphans := t.orphans.inc, orphanRun := true }).cam := by
    unfold orphan
    dsimp only
    split
    · rfl
    · exact logViolation_cam ..
  have hstream : (orphan i detail s).stream i = { s.stream i with orphans := (s.stream i).orphans.inc, orphanRun := true } := by
    refine Eq.trans ?_ (stream_modStream_same s i (fun t => { t with orphans := t.orphans.inc, orphanRun := true }) hi)
    unfold State.stream
    rw [hcam]
  rw [hstream]
  refine ⟨rfl, rfl, fun hrun => ?_⟩
  simp [orphan, hrun]

theorem execLinePacketReceive_orphan (port i : Nat) (pkt : CamPacket) (s : State) (q : LongPacket)
    (hlen : s.cam.streams.length = 16) (hq : q = takenPacket pkt) (hchan : streamsOf s port q.h.vc = [i])
    (hecc : q.h.ecc = .good) (himage : isImageDt q.h.dt = true) (hdt : (s.stream i).cfg.dt = q.h.dt)
    (hnone : (s.stream i).opened = none) :
    ∃ t, execLinePacketReceive port pkt s = .next t ∧ (t.stream i).orphans = (s.stream i).orphans.inc ∧
      (t.stream i).opened = none ∧ ((s.stream i).orphanRun = true → t.mci = s.mci) := by
  subst hq
  obtain ⟨-, hi⟩ := streamsOf_single s port _ i hchan
  refine ⟨_, congrArg Host.Outcome.next (receivePacket_image port pkt s i hecc hchan himage hdt), ?_⟩
  rw [takePacket, phyApply_stream, hnone]
  obtain ⟨hcount, hopen, hmci⟩ := orphan_counts i (camDetail (s.stream i).cfg.port (takenPacket pkt).h.vc (takenPacket pkt).h.dt
    (s.stream i).lastFn.toNat) (phyApply port s) (by rw [phyApply_streams]; omega)
  exact ⟨hcount, hopen.trans hnone, hmci⟩

/-! ### A Frame End, a timeout, an error of the line (R277, R280, R295) -/

theorem execFrameEndReceive_closes (port i : Nat) (di : Byte) (wc : BitVec 16) (ecc : Byte) (f : Frame) (s : State) (d : CamHeader)
    (hlen : s.cam.streams.length = 16) (hd : d = decodeHeader (packetHeader di wc ecc)) (hecc : d.ecc = .good) (hdt : d.dt = 1)
    (hchan : streamsOf s port d.vc = [i]) (hf : (s.stream i).opened = some f) :
    ∃ t, execFrameEndReceive port di wc ecc s = .next t ∧ (t.stream i).opened = none ∧
      (t.stream i).frames = (s.stream i).frames + 1 ∧
      (t.stream i).short = (if f.lines < f.cfg.height then (s.stream i).short.inc else (s.stream i).short) ∧
      (t.stream i).unterm = (s.stream i).unterm := by
  subst hd
  obtain ⟨-, hi⟩ := streamsOf_single s port _ i hchan
  have htally := closeFrame_tally i .ended f (phyApply port s) (by rw [phyApply_streams]; omega) hf
  simp only [Stream.tally, Prod.mk.injEq, true_and, if_true] at htally
  exact ⟨_, congrArg Host.Outcome.next (receivePacket_end port _ s i f hecc hdt hchan hf), htally⟩

theorem execFrameTimeout_closes (i : Nat) (f : Frame) (s : State) (hi : i < s.cam.streams.length)
    (hf : (s.stream i).opened = some f) :
    ∃ t, execFrameTimeout i s = .next t ∧ (t.stream i).opened = none ∧ (t.stream i).frames = (s.stream i).frames + 1 ∧
      (t.stream i).unterm = (s.stream i).unterm.inc ∧ (t.stream i).short = (s.stream i).short := by
  unfold execFrameTimeout
  rw [hf]
  have hcam : (s.advanceTo (f.fsTime.toNat + f.cfg.timeout * ticksPerMs)).cam = s.cam :=
    (congrArg State.cam (advanceTo_frame s _) :)
  dsimp only
  generalize s.advanceTo (f.fsTime.toNat + f.cfg.timeout * ticksPerMs) = u at hcam ⊢
  have hstream : u.stream i = s.stream i := by
    unfold State.stream
    rw [hcam]
  have htally := closeFrame_tally i .missing f u (hcam ▸ hi) (by rw [hstream, hf])
  simp only [Stream.tally, Prod.mk.injEq, reduceCtorEq, false_and, if_false, hstream] at htally
  obtain ⟨hopen, hframes, hshort, hunterm⟩ := htally
  exact ⟨_, rfl, hopen, hframes, hunterm, hshort⟩

theorem portError_frame (port : Nat) (s : State) :
    (portError port s).mci = s.mci ∧ (portError port s).cam.streams = s.cam.streams := by
  unfold portError
  dsimp only
  split <;> exact ⟨rfl, rfl⟩

theorem getLast?_lastN {α : Type} (n : Nat) (l : List α) (x : α) (hn : 0 < n) : (lastN n (l ++ [x])).getLast? = some x := by
  unfold lastN
  rw [List.getLast?_drop, if_neg (by simp; omega), List.getLast?_concat]

theorem execDphySotError_logs (port : Nat) (s : State) (hon : (s.port port).enable = true) :
    ∃ t, execDphySotError port s = .next t ∧ t.mci.vcount = s.mci.vcount.inc ∧
      (t.mci.vlog.getLast?.map fun e => (e.iface, e.unit, e.code)) = some (1, BitVec.ofNat 8 (0x80 + port), 0x0A) ∧
      t.cam.streams = s.cam.streams := by
  unfold execDphySotError
  rw [if_pos hon]
  refine ⟨_, rfl, ?_⟩
  obtain ⟨hmci, hstreams⟩ := portError_frame port (logViolation 1 (0x80 + port) 0x0A (camDetail port 0 0 0) (phyApply port s))
  obtain ⟨⟨e, hlog, -, -, hiface, hunit, hcode⟩, hcount, -⟩ :=
    logViolation_logged 1 (0x80 + port) 0x0A (camDetail port 0 0 0) (phyApply port s)
  rw [hmci, hstreams, hlog, hcount, logViolation_cam, getLast?_lastN 64 _ _ (by decide)]
  exact ⟨rfl, by simp [hiface, hunit, hcode], rfl⟩

/-! ### Memory frames are processed (R286) -/

theorem execMemoryFrameStart_takes (i : Nat) (f : Frame) (rest : List Frame) (s : State) (hidle : s.cam.busy = none)
    (hnext : nextMemoryStream s = some i) (hback : (s.stream i).backlog = f :: rest) :
    execMemoryFrameStart s = .next { s with cam := { s.cam with
      streams := modAt s.cam.streams i fun t => { t with backlog := rest }, busy := some (i, f), served := i } } := by
  simp [execMemoryFrameStart, hidle, hnext, hback, State.modStream]

theorem readLine_works (r : Nat × List Nat) (x : Frame × State) (s : State) (h : DramWorks s x.2) :
    DramWorks s (readLine r x).2 := by
  unfold readLine
  dsimp only
  split
  · exact h
  · split <;> exact h.trans (dramWorks_dramFetch ..)

/-- A flag that is set stays set. -/
theorem flagged_or (a b : BitVec 16) (h : a &&& badFlags ≠ 0) : (a ||| b) &&& badFlags ≠ 0 := by
  intro hnone
  refine h (BitVec.eq_of_getLsbD_eq fun k hk => ?_)
  have hbit := congrArg (BitVec.getLsbD · k) hnone
  simp only [BitVec.getLsbD_and, BitVec.getLsbD_or] at hbit ⊢
  revert hbit
  cases a.getLsbD k <;> simp

theorem readLine_bad (r : Nat × List Nat) (x : Frame × State) (h : x.1.flags &&& badFlags ≠ 0) :
    (readLine r x).1.flags &&& badFlags ≠ 0 := by
  unfold readLine
  dsimp only
  split
  · exact h
  · split
    · exact flagged_or _ _ h
    · exact h

theorem readFrame_effect (f : Frame) (s : State) :
    DramWorks s (readFrame f s).2 ∧ (f.bad = true → (readFrame f s).1.bad = true) := by
  have hread (l : List (Nat × List Nat)) (x : Frame × State) (h : DramWorks s x.2) :
      DramWorks s (l.foldl (fun x r => readLine r x) x).2 ∧
        (x.1.flags &&& badFlags ≠ 0 → (l.foldl (fun x r => readLine r x) x).1.flags &&& badFlags ≠ 0) := by
    induction l generalizing x with
    | nil => exact ⟨h, id⟩
    | cons r l ih =>
      obtain ⟨hworks, hbad⟩ := ih (readLine r x) (readLine_works r x s h)
      exact ⟨hworks, fun hx => hbad (readLine_bad r x hx)⟩
  obtain ⟨hworks, hbad⟩ := hread f.rows ({ f with rows := [], flags := f.flags &&& 0xFFBF }, s) (DramWorks.refl s)
  refine ⟨hworks, fun hf => ?_⟩
  have hstart : f.flags &&& 0xFFBF &&& badFlags ≠ 0 := by
    rw [BitVec.and_assoc]
    exact of_decide_eq_true hf
  have hend := hbad hstart
  unfold readFrame Frame.pooled
  dsimp only
  split
  · exact decide_eq_true (flagged_or _ _ hend)
  · exact decide_eq_true hend

theorem deliverFeatures_length (i : Nat) (f : Frame) (s : State) :
    (deliverFeatures i f s).cam.streams.length = s.cam.streams.length :=
  (talliesKept_deliverFeatures i f s).length

theorem deliverFeatures_recs (i : Nat) (f : Frame) (s : State) (hi : i < s.cam.streams.length) :
    ((deliverFeatures i f s).stream i).recsWritten = (s.stream i).recsWritten ∧ (deliverFeatures i f s).cam.busy = s.cam.busy := by
  unfold deliverFeatures
  dsimp only
  split
  · exact ⟨rfl, rfl⟩
  · refine ⟨?_, rfl⟩
    rw [stream_modStream_same s i _ hi]

theorem execMemoryFrameProcessed_ends (i : Nat) (f : Frame) (s : State) (hi : i < s.cam.streams.length)
    (hbusy : s.cam.busy = some (i, f)) :
    ∃ t, execMemoryFrameProcessed s = .next t ∧ t.cam.busy = none ∧
      (t.stream i).recsWritten = (s.stream i).recsWritten.inc ∧
      (f.bad = true → (t.stream i).feats = (s.stream i).feats) := by
  unfold execMemoryFrameProcessed
  rw [hbusy]
  refine ⟨_, rfl, ?_⟩
  obtain ⟨hworks, hbad⟩ := readFrame_effect f { s with cam := { s.cam with busy := none } }
  generalize readFrame f { s with cam := { s.cam with busy := none } } = r at hworks hbad ⊢
  obtain ⟨g, u⟩ := r
  have hcam : u.cam = { s.cam with busy := none } := hworks.cam
  dsimp only at hbad ⊢
  have hstream : u.stream i = s.stream i := by
    unfold State.stream
    rw [hcam]
  have hlen : i < u.cam.streams.length := by rwa [hcam]
  obtain ⟨hrecs, hidle⟩ := deliverFeatures_recs i g u hlen
  have hwritten : (writeRecord i g (deliverFeatures i g u)).stream i = { (deliverFeatures i g u).stream i with
      droppedBefore := 0, recsWritten := ((deliverFeatures i g u).stream i).recsWritten.inc } := by
    refine Eq.trans ?_ (stream_modStream_same (deliverFeatures i g u) i
      (fun t => { t with droppedBefore := 0, recsWritten := t.recsWritten.inc }) (by rwa [deliverFeatures_length]))
    unfold State.stream
    rw [writeRecord_cam]
  rw [hwritten, writeRecord_cam, State.modStream_cam_busy, hidle, hcam]
  refine ⟨rfl, ?_, fun hf => ?_⟩
  · dsimp only
    rw [hrecs, hstream]
  · dsimp only
    rw [deliverFeatures, if_pos (hbad hf), hstream]

/-! ### The histogram counts every pixel (R287) -/

theorem sum_modAt_succ (l : List Nat) (i : Nat) (hi : i < l.length) : (modAt l i (· + 1)).sum = l.sum + 1 := by
  induction l generalizing i with
  | nil => exact absurd hi (by simp)
  | cons x l ih =>
    cases i with
    | zero => simp [modAt]; omega
    | succ i =>
      have htail := ih i (by simpa using hi)
      simp only [modAt, List.sum_cons, htail]
      omega

theorem histogram_counts (f : Frame) : f.histogram.length = 256 ∧ f.histogram.sum = f.roi.length := by
  have hcount (l : List (Nat × Nat × Nat)) (h : List Nat) (hh : h.length = 256) :
      (l.foldl (fun h p => modAt h (min 255 (p.2.2 / 2 ^ f.shift)) (· + 1)) h).length = 256 ∧
        (l.foldl (fun h p => modAt h (min 255 (p.2.2 / 2 ^ f.shift)) (· + 1)) h).sum = h.sum + l.length := by
    induction l generalizing h with
    | nil => exact ⟨hh, rfl⟩
    | cons p l ih =>
      obtain ⟨hlen, hsum⟩ := ih (modAt h (min 255 (p.2.2 / 2 ^ f.shift)) (· + 1)) (by simpa using hh)
      refine ⟨hlen, ?_⟩
      rw [List.foldl_cons, hsum, sum_modAt_succ h _ (by omega), List.length_cons]
      omega
  obtain ⟨hlen, hsum⟩ := hcount f.roi (List.replicate 256 0) List.length_replicate
  exact ⟨hlen, hsum.trans (by rw [List.sum_replicate, smul_zero, Nat.zero_add])⟩

/-- Settles O35: a packet of one stream is followed to `openFrame`, `takeLine`, `orphan` or `closeFrame`, each of which has
its lemma above; the histogram by induction over the pixels. -/
theorem cameraFramesAreReceived : Obligations.CameraFramesAreReceived := by
  refine ⟨?_, ?_, ?_, ?_, ?_, execFrameTimeout_closes, execDphySotError_logs, execMemoryFrameStart_takes,
    execMemoryFrameProcessed_ends, histogram_counts⟩
  · intro port i di wc ecc s hlen d fn hecc hdt hchan hnone c
    exact execFrameStartReceive_opens port i di wc ecc s d fn c hlen rfl rfl hecc hdt hchan hnone rfl
  · intro port di wc ecc pkt s hoff
    exact ⟨congrArg Host.Outcome.next (receivePacket_off port _ s hoff), congrArg Host.Outcome.next (receivePacket_off port _ s hoff),
      congrArg Host.Outcome.next (receivePacket_off port _ s hoff), by simp [exec, execDphySotError, hoff]⟩
  · intro port i pkt f s hlen q u hchan hecc hcrc himage hdt hf hpath hcopy hroom hwc
    exact execLinePacketReceive_joins port i pkt f s q u hlen rfl rfl hchan hecc hcrc himage hdt hf hpath hcopy hroom hwc
  · intro port i pkt s hlen q hchan hecc himage hdt hnone
    exact execLinePacketReceive_orphan port i pkt s q hlen rfl hchan hecc himage hdt hnone
  · intro port i di wc ecc f s hlen d hecc hdt hchan hf
    exact execFrameEndReceive_closes port i di wc ecc f s d hlen rfl hecc hdt hchan hf

end Sys2Proof.Machine
end

section
/-!
PROOFS. Lagoon words and the Lagoon commands (spec/12_lagoon.md R308 to R311, the commands of group 0x0B):
`LagoonIsReadAndScrubbed`.
-/
namespace Sys2Proof.Machine

open Sys2Proof

/-! ### A word is read (R308, R310) -/

/-- No error has been injected into the word, and none is known in it. -/
def WordClean (s : State) (a : Nat) : Prop := (∀ p ∈ s.lag.inject, p.1 ≠ a) ∧ a ∉ s.lag.bad

theorem lagErrors_clean (a upset : Nat) (s : State) (h : WordClean s a) : lagErrors a upset s = (upset, s) := by
  obtain ⟨hinj, hbad⟩ := h
  have hfind : s.lag.inject.find? (fun p => p.1 = a) = none := List.find?_eq_none.mpr fun p hp => by simpa using hinj p hp
  have hkept : s.lag.inject.filter (fun p => p.1 ≠ a) = s.lag.inject :=
    List.filter_eq_self.mpr fun p hp => by simpa using hinj p hp
  unfold lagErrors
  dsimp only
  rw [hfind, hkept]
  simp [hbad]

theorem lagReadWord_right (a foundBy cls : Nat) (s : State) (h : WordClean s a) : lagReadWord a 0 foundBy cls s = (true, s) := by
  rw [lagReadWord, lagErrors_clean a 0 s h]
  rfl

theorem lagReadWord_single (a foundBy cls : Nat) (s : State) (h : WordClean s a) :
    lagReadWord a 1 foundBy cls s = (true, lagCorrected a foundBy cls s) := by
  rw [lagReadWord, lagErrors_clean a 1 s h]
  rfl

theorem lagReadWord_double (a foundBy cls : Nat) (s : State) (h : WordClean s a) :
    lagReadWord a 2 foundBy cls s = (false, lagUncorrectable a s) := by
  rw [lagReadWord, lagErrors_clean a 2 s h]
  rfl

/-- The state in which a reader finds its word: a reader of class 1 has spent a grant (R27). -/
def atReader (reader : LagoonReader) (s : State) : State := if readerClass reader = 1 then classGrant 1 s else s

theorem atReader_lag (reader : LagoonReader) (s : State) : (atReader reader s).lag = s.lag := by
  unfold atReader
  split
  · exact (congrArg State.lag (classGrant_frame 1 s) :)
  · rfl

theorem atReader_clean (reader : LagoonReader) (a : Nat) (s : State) (h : WordClean s a) : WordClean (atReader reader s) a := by
  unfold WordClean
  rw [atReader_lag]
  exact h

theorem execLagoonRead_right (address : BitVec 32) (reader : LagoonReader) (s : State)
    (hinj : ∀ p ∈ s.lag.inject, p.1 ≠ address.toNat) (hbad : address.toNat ∉ s.lag.bad) :
    execLagoonRead address reader 0 s = .next (if readerClass reader = 1 then classGrant 1 s else s) := by
  have hclean := atReader_clean reader _ s ⟨hinj, hbad⟩
  unfold atReader at hclean
  unfold execLagoonRead
  dsimp only
  rw [lagReadWord_right _ _ _ _ hclean]
  rfl

theorem execLagoonRead_single (address : BitVec 32) (reader : LagoonReader) (s u : State)
    (hinj : ∀ p ∈ s.lag.inject, p.1 ≠ address.toNat) (hbad : address.toNat ∉ s.lag.bad)
    (hu : u = if readerClass reader = 1 then classGrant 1 s else s) :
    ∃ t, execLagoonRead address reader 1 s = .next t ∧ t.lag.corrected = s.lag.corrected.inc ∧
      (s.lag.log.length < 32 → ∃ e, t.lag.log = s.lag.log ++ [e] ∧ e.time = u.time ∧ e.address = address ∧ e.foundBy = 0) ∧
      (32 ≤ s.lag.log.length → t.lag.log = s.lag.log ∧ t.lag.logOver = s.lag.logOver.inc) ∧
      t.lag.data = s.lag.data ∧ t.lag.tiles = s.lag.tiles ∧ { t with lag := u.lag, flt := u.flt, free := u.free } = u := by
  have hlag : u.lag = s.lag := hu ▸ atReader_lag reader s
  have hclean : WordClean u address.toNat := hu ▸ atReader_clean reader _ s ⟨hinj, hbad⟩
  have hexec : execLagoonRead address reader 1 s = .next (lagCorrected address.toNat 0 (readerClass reader) u) := by
    unfold execLagoonRead
    dsimp only
    rw [← hu, lagReadWord_single _ _ _ _ hclean]
    rfl
  refine ⟨_, hexec, ?_⟩
  rw [← hlag]
  unfold lagCorrected
  refine ⟨rfl, fun hroom => ?_, fun hfull => ?_, rfl, rfl, rfl⟩
  · refine ⟨_, if_neg (by omega), rfl, ?_, rfl⟩
    simp
  · exact ⟨if_pos hfull, if_pos hfull⟩

theorem execLagoonRead_double (address : BitVec 32) (s : State) (hpayload : address.getLsbD 31 = false)
    (hinj : ∀ p ∈ s.lag.inject, p.1 ≠ address.toNat) (hbad : address.toNat ∉ s.lag.bad) :
    ∃ t, execLagoonRead address .transfer 2 s = .next t ∧ t.lag.uncorr = s.lag.uncorr.inc ∧
      t.lag.lastUncorr = address ∧ t.lag.data = s.lag.data ∧ t.lag.tiles = s.lag.tiles ∧
      { t with lag := s.lag, flt := s.flt } = s := by
  have hclass : (if readerClass .transfer = 1 then classGrant 1 s else s) = s := if_neg (by decide)
  have hexec : execLagoonRead address .transfer 2 s = .next (lagUncorrectable address.toNat s) := by
    unfold execLagoonRead
    dsimp only
    rw [hclass, lagReadWord_double _ _ _ _ ⟨hinj, hbad⟩, hpayload]
    rfl
  refine ⟨_, hexec, rfl, ?_, rfl, rfl, rfl⟩
  exact (BitVec.ofNat_toNat 32 address).trans (BitVec.setWidth_eq address)

/-- The scrubber goes past a word of an open fill (R309). -/
theorem execLagoonScrubStep_open (upset : Nat) (s : State)
    (hopen : (s.tile (lagHandle (scrubAddress s.lag.scrubbed))).fill.isSome = true) :
    execLagoonScrubStep false upset s = .next s ∧ execLagoonScrubStep true upset s = .next { s with lag := { s.lag with
      scrubbed := if scrubWords s ≤ s.lag.scrubbed + 1 then 0 else s.lag.scrubbed + 1,
      passes := if scrubWords s ≤ s.lag.scrubbed + 1 then s.lag.passes + 1 else s.lag.passes } } := by
  refine ⟨rfl, ?_⟩
  unfold execLagoonScrubStep
  rw [if_neg (by decide)]
  exact if_pos hopen

/-! ### Status, log and headers (R311) -/

theorem nTiles_le (s : State) : s.nTiles ≤ 4096 := by
  unfold State.nTiles
  split <;> decide

theorem execLagoonStatus_replies (rq : Req) (s : State) (hs : served 0x0B01 rq s = true) :
    ∃ p, execLagoonStatus rq s =
        .next (respond rq 0x0B01 Status.ok p { s with lag := { s.lag with stallRaised := false } }) ∧ p.length = 32 ∧
      leAt p 0 2 = s.nTiles ∧ leAt p 8 4 = s.lag.stalls.n ∧ leAt p 12 4 = s.lag.corrected.n ∧
      leAt p 16 4 = s.lag.uncorr.n ∧ leAt p 24 4 = s.lag.fillOrder.n := by
  have htiles := nTiles_le s
  unfold execLagoonStatus
  refine ⟨_, command_pass 0x0B01 rq _ _ s hs (List.forall_mem_nil _), ?_⟩
  simp only [List.append_assoc]
  refine ⟨by simp [Count.bytes], ?_, ?_, ?_, ?_, ?_⟩
  · simp [leAt_left, leAt_leBytes]
    omega
  · simpa [leAt_left, leAt_right, leAt_leBytes, Count.bytes, Count.n] using s.lag.stalls.val.isLt
  · simpa [leAt_left, leAt_right, leAt_leBytes, Count.bytes, Count.n] using s.lag.corrected.val.isLt
  · simpa [leAt_left, leAt_right, leAt_leBytes, Count.bytes, Count.n] using s.lag.uncorr.val.isLt
  · simpa [leAt_left, leAt_right, leAt_leBytes, Count.bytes, Count.n] using s.lag.fillOrder.val.isLt

theorem execLagoonEccLog_replies (rq : Req) (s : State) (n : Nat) (hs : served 0x0B02 rq s = true) (hclear : rq.u8 0 ≤ 1)
    (hn : n = min 13 (s.lag.log.length - s.lag.logRead)) :
    ∃ p, execLagoonEccLog rq s = .next (respond rq 0x0B02 Status.ok p
        (if rq.u8 0 = 1 then { s with lag := { s.lag with log := [], logOver := {}, logRead := 0 } }
         else { s with lag := { s.lag with
           logRead := if s.lag.log.length ≤ s.lag.logRead + n then 0 else s.lag.logRead + n } })) ∧
      leAt p 0 4 = s.lag.logOver.n ∧ leAt p 4 1 = n := by
  have hread : ((s.lag.log.drop s.lag.logRead).take 13).length = n := by rw [List.length_take, List.length_drop, hn]
  have hn13 : n ≤ 13 := hn ▸ min_le_left ..
  unfold execLagoonEccLog
  refine ⟨s.lag.logOver.bytes ++ leBytes 1 n ++ zeros 3 ++ ((s.lag.log.drop s.lag.logRead).take 13).flatMap LagEntry.bytes,
    (command_pass 0x0B02 rq _ _ s hs (by simpa using hclear)).trans ?_, ?_⟩
  · dsimp only
    rw [hread]
  · simp only [List.append_assoc]
    refine ⟨?_, ?_⟩
    · simpa [leAt_left, leAt_leBytes, Count.bytes, Count.n] using s.lag.logOver.val.isLt
    · simp [leAt_left, leAt_right, leAt_leBytes, Count.bytes]
      omega

theorem length_header (t : Tile) : t.header.length = 16 := by simp [Tile.header]

theorem lagReadTile_header_clean (h cls : Nat) (s : State)
    (hclean : ∀ a, 2 ^ 31 ≤ a → lagHandle a = h → (∀ p ∈ s.lag.inject, p.1 ≠ a) ∧ a ∉ s.lag.bad) :
    lagReadTile h cls true s = (true, s) := by
  have hnone : ((s.lag.inject.map (·.1) ++ s.lag.bad).filter fun a => lagHandle a = h && (2 ^ 31 ≤ a) = true) = [] := by
    refine List.filter_eq_nil_iff.mpr fun a ha hsus => ?_
    simp only [eq_iff_iff, iff_true, Bool.and_eq_true, decide_eq_true_eq] at hsus
    obtain ⟨hinj, hbad⟩ := hclean a hsus.2 hsus.1
    rcases List.mem_append.mp ha with hmem | hmem
    · obtain ⟨p, hp, hpa⟩ := List.mem_map.mp hmem
      exact hinj p hp hpa
    · exact hbad hmem
  unfold lagReadTile lagSuspects
  rw [hnone]
  rfl

theorem execLagoonTileHeader_replies (rq : Req) (s : State) (r : Bool × State) (u : State) (hs : served 0x0B03 rq s = true)
    (hlt : rq.u16 0 < s.nTiles) (halloc : (s.tile (rq.u16 0)).allocated = true) (hr : r = lagReadTile (rq.u16 0) 4 true s)
    (hu : u = if r.1 then r.2 else tileFailed (rq.u16 0) r.2) :
    ∃ p, execLagoonTileHeader rq s = .next (respond rq 0x0B03 Status.ok p u) ∧ p.length = 20 ∧
      p.take 16 = (u.tile (rq.u16 0)).header ∧
      ((∀ a, 2 ^ 31 ≤ a → lagHandle a = rq.u16 0 → (∀ p ∈ s.lag.inject, p.1 ≠ a) ∧ a ∉ s.lag.bad) → u = s) := by
  unfold execLagoonTileHeader
  refine ⟨(u.tile (rq.u16 0)).header ++ leBytes 1 (ofBits [(u.tile (rq.u16 0)).verified, (u.tile (rq.u16 0)).admitted,
    (u.tile (rq.u16 0)).fill.isSome]) ++ zeros 3, (command_pass 0x0B03 rq _ _ s hs ?_).trans ?_, ?_⟩
  · simp only [List.forall_mem_cons]
    exact ⟨by simpa using hlt, by simp [halloc], List.forall_mem_nil _⟩
  · dsimp only
    rw [← hr, ← hu]
  · have hlen := length_header (u.tile (rq.u16 0))
    refine ⟨by simp [hlen], ?_, fun hclean => ?_⟩
    · rw [List.append_assoc, ← hlen, List.take_left]
    · rw [hu, hr, lagReadTile_header_clean _ 4 s hclean]
      rfl

/-! ### Copies and injection -/

theorem execLagoonTileRead_accepts (rq : Req) (s : State) (hs : served 0x0B80 rq s = true) (hlt : rq.u16 0 < s.nTiles)
    (haddr : rq.u64 4 < 2 ^ 48) (halloc : (s.tile (rq.u16 0)).allocated = true) :
    execLagoonTileRead rq s = .next (accept rq 0x0B80 [] { s with lag := { s.lag with
      reads := s.lag.reads ++ [(rq.ctx s 0x0B80, rq.u16 0, rq.u64 4)] } }) := by
  unfold execLagoonTileRead
  refine command_pass 0x0B80 rq _ _ s hs ?_
  simp only [List.forall_mem_cons]
  exact ⟨by simpa using hlt, by simp; omega, by simp [halloc], List.forall_mem_nil _⟩

/-- An address field below 2^48 names the DRAM byte of its number. -/
theorem place_dram (a : Nat) (s : State) (h48 : a < 2 ^ 48) (ha : a < s.dram.cfg.usable) :
    s.place a = .dram a (s.dram.cfg.usable - a) := by
  unfold State.place
  dsimp only
  rw [Nat.mod_eq_of_lt h48, Nat.div_eq_of_lt h48, if_pos rfl, if_pos ha]

theorem execLagoonTileReadDone_copies (c : Ctx) (h address : Nat) (rest : List (Ctx × Nat × Nat)) (s : State) (r : Bool × State)
    (u : State) (hreads : s.lag.reads = (c, h, address) :: rest) (hup : s.coreUp hostCore = true)
    (hr : r = lagReadTile h 3 true { s with lag := { s.lag with reads := rest } })
    (hu : u = (lagReadTile h 3 false (if r.1 then r.2 else tileFailed h r.2)).2)
    (hroom : address + 16400 ≤ u.dram.cfg.usable) (h48 : address < 2 ^ 48) :
    execLagoonTileReadDone s = .next (complete c Status.ok (leBytes 4 (crc32c (u.tilePayload h)).toNat)
      (dramStore (16 + firmwareChannel u) address ((u.tile h).header ++ u.tilePayload h)
        { u with free := u.free + 1 })) := by
  have hlen : ((u.tile h).header ++ u.tilePayload h).length = 16400 := by
    rw [List.length_append, length_header, State.tilePayload, length_cellsGet]
  unfold execLagoonTileReadDone
  rw [hup, if_neg (by decide), hreads]
  dsimp only
  rw [← hr, ← hu, place_dram address u h48 (by omega)]
  dsimp only
  rw [if_pos (by rw [hlen]; omega)]

theorem execLagoonEccInject_injects (rq : Req) (s : State) (hs : served 0x0B81 rq s = true)
    (hlt : lagHandle (rq.u32 0) < s.nTiles) (hrange : rq.u32 0 % 2 ^ 31 < 2 ^ 23) (hheader : 2 ^ 31 ≤ rq.u32 0 → rq.u32 0 % 2048 < 2)
    (hbits : rq.u8 4 = 1 ∨ rq.u8 4 = 2) (hadm : (s.tile (lagHandle (rq.u32 0))).admitted = false) :
    execLagoonEccInject rq s = .next (respond rq 0x0B81 Status.ok [] { s with lag := { s.lag with
      inject := (rq.u32 0, rq.u8 4) :: s.lag.inject.filter fun p => p.1 ≠ rq.u32 0 } }) := by
  unfold execLagoonEccInject
  refine command_pass 0x0B81 rq _ _ s hs ?_
  simp only [List.forall_mem_cons]
  refine ⟨?_, by simp; omega, hadm, List.forall_mem_nil _⟩
  simp only [Bool.or_eq_false_iff, Bool.and_eq_false_imp, decide_eq_false_iff_not, decide_eq_true_eq, Nat.not_le]
  exact ⟨⟨hlt, hheader⟩, hrange⟩

/-- Settles O37: a word without known errors reads by its upset alone (`lagReadWord_right`, `_single`, `_double`); the
commands by their checks. -/
theorem lagoonIsReadAndScrubbed : Obligations.LagoonIsReadAndScrubbed := by
  refine ⟨execLagoonRead_right, ?_, execLagoonRead_double, execLagoonScrubStep_open, execLagoonStatus_replies, ?_, ?_,
    execLagoonTileRead_accepts, ?_, execLagoonEccInject_injects⟩
  · intro address reader s hinj hbad u
    exact execLagoonRead_single address reader s u hinj hbad rfl
  · intro rq s hs hclear n
    exact execLagoonEccLog_replies rq s n hs hclear rfl
  · intro rq s hs hlt halloc r u
    exact execLagoonTileHeader_replies rq s r u hs hlt halloc rfl rfl
  · intro c h address rest s hreads hup r u hroom h48
    exact execLagoonTileReadDone_copies c h address rest s r u hreads hup rfl rfl hroom h48

end Sys2Proof.Machine
end

section
/-!
PROOFS. The rail sequencer's steps (spec/19_power_atoll.md R426 to R434): what enabling the next slot, dropping the next
slot and the start of FALLING do.
-/
namespace Sys2Proof.Machine

open Sys2Proof

/-! ### Rails -/

theorem rail_modRail_same (s : State) (k : Nat) (f : Rail → Rail) (hk : k < s.pwr.rails.length) :
    (s.modRail k f).rail k = f (s.rail k) := at'_modAt_same s.pwr.rails k f {} hk

theorem rail_modRail_ne (s : State) (k j : Nat) (f : Rail → Rail) (hj : j ≠ k) : (s.modRail k f).rail j = s.rail j :=
  at'_modAt_ne s.pwr.rails k j f {} hj.symm

/-- What of a rail a reading of its monitor does not touch. -/
theorem rail_modRail_congr {α : Type} (g : Rail → α) (s : State) (k j : Nat) (f : Rail → Rail) (h : ∀ r, g (f r) = g r) :
    g ((s.modRail k f).rail j) = g (s.rail j) := by
  unfold State.rail State.modRail
  rw [at'_modAt]
  split
  · exact h _
  · rfl

/-- The reading of a rail's monitor is kept. -/
def Rail.readAs (r : Rail) (code : Nat) : Rail := { r with code := code }

theorem respond_rail (rq : Req) (code status : Nat) (p : List Byte) (s : State) (k : Nat) :
    (respond rq code status p s).rail k = s.rail k := respond_of (fun u => u.rail k) rq code status p s fun _ _ => rfl

theorem respond_pwr (rq : Req) (code status : Nat) (p : List Byte) (s : State) : (respond rq code status p s).pwr = s.pwr :=
  respond_of (fun u => u.pwr) rq code status p s fun _ _ => rfl

theorem complete_pwr (c : Ctx) (status : Nat) (p : List Byte) (s : State) : (complete c status p s).pwr = s.pwr :=
  (congrArg State.pwr (complete_frame c status p s) :)

theorem waitFrom_frame (s : State) (since : BitVec 64) (dur : Nat) :
    { s.waitFrom since dur with atoll := s.atoll, time := s.time, sync := s.sync } = s := advanceTo_frame s _

theorem waitFrom_pwr (s : State) (since : BitVec 64) (dur : Nat) : (s.waitFrom since dur).pwr = s.pwr :=
  (congrArg State.pwr (waitFrom_frame s since dur) :)

/-! ### The highest slot enabled -/

theorem topEnabled_highest (s : State) (k : Nat) (hk : k < 16) (hen : (s.rail k).en = true)
    (hoff : ∀ j, k < j → j < 16 → (s.rail j).en = false) : topEnabled s = some k := by
  unfold topEnabled
  refine List.find?_eq_some_iff_getElem.mpr ⟨hen, 15 - k, by simp; omega, by simp; omega, fun j hj => ?_⟩
  simp only [List.getElem_reverse, List.getElem_range, List.length_range, Bool.not_eq_true']
  exact hoff _ (by omega) (by omega)

theorem topEnabled_exists (s : State) (k : Nat) (hk : k < 16) (hen : (s.rail k).en = true) :
    ∃ j, topEnabled s = some j := by
  refine Option.isSome_iff_exists.mp (List.find?_isSome.mpr ⟨k, ?_, hen⟩)
  simpa using hk

theorem topEnabled_none (s : State) (hoff : ∀ i, i < 16 → (s.rail i).en = false) : topEnabled s = none :=
  List.find?_eq_none.mpr fun i hi => by simpa using hoff i (by simpa using hi)

theorem topEnabled_congr (s t : State) (h : t.pwr.rails = s.pwr.rails) : topEnabled t = topEnabled s := by
  unfold topEnabled State.rail
  rw [h]

/-! ### The next slot of a power-up, and of a power-down (R428) -/

theorem find_inSeq (s : State) (n k : Nat) (hn : n ≤ k) (hk : k < 16) (hin : (s.rail k).inSeq = true)
    (hout : ∀ i, n ≤ i → i < k → (s.rail i).inSeq = false) :
    ((List.range 16).drop n).find? (fun k => (s.rail k).inSeq) = some k := by
  rw [List.range_eq_range', List.drop_range', List.find?_range'_eq_some]
  refine ⟨hin, List.mem_range'_1.mpr (by omega), fun j hj hlt => ?_⟩
  rw [hout j (by omega) hlt]
  rfl

theorem enableFrom_next (s : State) (n k : Nat) (hn : n ≤ k) (hk : k < 16) (hin : (s.rail k).inSeq = true)
    (hout : ∀ i, n ≤ i → i < k → (s.rail i).inSeq = false) :
    enableFrom n s = { s.modRail k fun r => { r with en := true, up := false } with
      pwr := { (s.modRail k fun r => { r with en := true, up := false }).pwr with
        st := .rising, slot := some k, settling := false, topSlot := k, stepAt := s.time } } := by
  unfold enableFrom
  rw [find_inSeq s n k hn hk hin hout]
  rfl

/-- With no slot left the sequencer is UP, and the requests of power.up are completed. -/
theorem enableFrom_up (s : State) (n : Nat) (hout : ∀ i, n ≤ i → i < 16 → (s.rail i).inSeq = false) :
    (enableFrom n s).pwr = { s.pwr with st := .up, slot := none, settling := false, upCtx := [] } := by
  have hnone : ((List.range 16).drop n).find? (fun k => (s.rail k).inSeq) = none := by
    rw [List.range_eq_range', List.drop_range', List.find?_eq_none]
    intro i hi
    have hrange := List.mem_range'_1.mp hi
    rw [hout i (by omega) (by omega)]
    decide
  have hcompleted (cs : List Ctx) (u : State) : (cs.foldl (fun s c => complete c Status.ok
      (leBytes 1 0 ++ leBytes 1 0 ++ leBytes 1 s.pwr.topSlot ++ zeros 1) s) u).pwr = u.pwr := by
    induction cs generalizing u with
    | nil => rfl
    | cons c cs ih => exact (ih _).trans (complete_pwr ..)
  unfold enableFrom
  rw [hnone]
  exact hcompleted _ _

theorem dropNext_some (wait : Nat) (s : State) (k : Nat) (h : topEnabled s = some k) :
    dropNext wait s = { s with pwr := { s.pwr with
      rails := modAt s.pwr.rails k fun r => r.drop (s.time + BitVec.ofNat 64 wait), slot := some k, settling := false,
      stepAt := s.time + BitVec.ofNat 64 wait } } := by
  unfold dropNext
  rw [h]
  rfl

/-! ### A power-up asked for ends, the power-down is complete (R431, R432) -/

theorem endPowerUps_frame (cause : Nat) (s : State) :
    { endPowerUps cause s with mci := s.mci } = { s with pwr := { s.pwr with upCtx := [], heldOn := false } } := by
  unfold endPowerUps
  exact foldl_complete_frame (fun c : Ctx => c) Status.aborted _ s.pwr.upCtx
    { s with pwr := { s.pwr with upCtx := [], heldOn := false } }

theorem powerDownDone_pwr (s : State) :
    (powerDownDone s).pwr.minOff = true ∧ (powerDownDone s).pwr.slot = none ∧ (powerDownDone s).pwr.upCtx = [] ∧
      (powerDownDone s).pwr.st = if s.pwr.latch = 0 then .minOff else .latched := by
  have hpwr : (endPowerUps s.pwr.cause s).pwr = { s.pwr with upCtx := [], heldOn := false } :=
    (congrArg State.pwr (endPowerUps_frame s.pwr.cause s) :)
  unfold powerDownDone
  dsimp only
  rw [hpwr]
  exact ⟨rfl, rfl, rfl, rfl⟩

/-! ### FALLING begins (R428, R432) -/

theorem Gates.pwr {s t : State} (h : Gates s t) : t.pwr = s.pwr := (congrArg State.pwr h.1.1 :)

theorem Gates.atoll {s t : State} (h : Gates s t) : t.atoll = s.atoll := (congrArg State.atoll h.1.1 :)

/-- FALLING starts with every link gated by cause 3, and the highest enable drops 1 µs later. -/
theorem startFalling_effect (cause : Nat) (s : State) (k : Nat) (h : topEnabled s = some k) :
    (startFalling cause s).pwr = { s.pwr with
      st := .falling, cause := cause, grace := none,
      rails := modAt s.pwr.rails k fun r => r.drop (s.time + BitVec.ofNat 64 (ticksPerMs / 1000)), slot := some k,
      settling := false, stepAt := s.time + BitVec.ofNat 64 (ticksPerMs / 1000) } ∧
    (startFalling cause s).atoll = s.atoll ∧
    (s.links.length = 24 → ∀ l, l < s.nLinks → ((startFalling cause s).link l).causes.getLsbD 3 = true) := by
  have hgates := gates_setCause 3 (List.range s.nLinks) s
  have hall := setCause_all 3 s
  unfold startFalling
  generalize setCause 3 (List.range s.nLinks) s = u at hgates hall ⊢
  have htop : topEnabled { u with pwr := { u.pwr with st := .falling, cause := cause, grace := none } } = some k :=
    (topEnabled_congr s _ (congrArg Pwr.rails hgates.pwr)).trans h
  dsimp only
  rw [dropNext_some _ _ k htop]
  refine ⟨?_, hgates.atoll, fun hlen l hl => hall hlen (by decide) l hl⟩
  dsimp only
  rw [hgates.pwr, hgates.time]

end Sys2Proof.Machine
end

section
/-!
PROOFS. Power rails (spec/19_power_atoll.md R426 to R434, the rail commands of group 0x12): `RailsAreSequenced`.
-/
namespace Sys2Proof.Machine

open Sys2Proof

/-! ### Commands that set or report -/

theorem execPowerRailConfig_sets (rq : Req) (s : State) (hs : served 0x1201 rq s = true) (hn : rq.u8 0 < 16)
    (hpg : 1 ≤ rq.u16 4) (hpg' : rq.u16 4 ≤ 10000) (hsettle : rq.u16 6 ≤ 10000) (hdis : 1 ≤ rq.u16 8) (hdis' : rq.u16 8 ≤ 10000)
    (hfil : 10 ≤ rq.u16 10) (hfil' : rq.u16 10 ≤ 10000) (huv : rq.u16 14 < rq.u16 16) (hov : rq.u16 16 ≤ rq.u16 12)
    (hmv : rq.u16 18 < rq.u16 14) (hst : s.pwr.st = .down ∨ s.pwr.st = .minOff ∨ s.pwr.st = .latched) :
    execPowerRailConfig rq s = .next (respond rq 0x1201 Status.ok [] (s.modRail (rq.u8 0) fun r =>
      { r with inSeq := rq.bit 1 0, pgUsed := rq.bit 1 1, pgLow := rq.bit 1 2, enLow := rq.bit 1 3, pgTimeout := rq.u16 4,
               settle := rq.u16 6, discharge := rq.u16 8, filter := rq.u16 10, fullScale := rq.u16 12, uv := rq.u16 14,
               ov := rq.u16 16, dischMv := rq.u16 18 })) := by
  unfold execPowerRailConfig
  refine command_pass 0x1201 rq _ _ s hs ?_
  simp only [List.forall_mem_cons]
  refine ⟨by simpa using hn, by simp; omega, ?_, List.forall_mem_nil _⟩
  rcases hst with h | h | h <;> simp [h]

theorem execPowerUp_latched (rq : Req) (s : State) (hs : served 0x1202 rq s = true) (hst : s.pwr.st = .latched) :
    execPowerUp rq s = .next (respond rq 0x1202 0x9201 [] s) := by
  unfold execPowerUp
  exact command_turned_away 0x1202 rq _ _ s true 0x9201 hs (by simp [hst])

theorem execPowerDown_idle (rq : Req) (s : State) (hs : served 0x1203 rq s = true) (hmode : rq.u8 0 ≤ 1)
    (hst : s.pwr.st = .down ∨ s.pwr.st = .latched) (hoff : s.pwr.minOff = false) :
    execPowerDown rq s = .next (complete (rq.ctx s 0x1203) Status.ok [] (accept rq 0x1203 [] s)) := by
  have hpwr : (accept rq 0x1203 [] s).pwr = s.pwr := respond_pwr ..
  unfold execPowerDown
  refine (command_pass 0x1203 rq _ _ s hs (by simpa using hmode)).trans ?_
  dsimp only
  rw [hpwr, if_pos (by rcases hst with h | h <;> simp [h, hoff])]

theorem execPowerClear_clears (rq : Req) (s : State) (hs : served 0x1204 rq s = true) (hst : s.pwr.st = .latched)
    (hclear : sysfaultClear s = true) :
    ∃ t, execPowerClear rq s = .next t ∧ t.pwr.latch = 0 ∧ t.pwr.st = (if s.pwr.minOff then .minOff else .down) ∧
      t.pwr.rails = s.pwr.rails := by
  unfold execPowerClear
  refine ⟨_, command_pass 0x1204 rq _ _ s hs (by simp [hst, hclear]), ?_⟩
  have hpwr : (faultUngate (clearLatch s)).pwr = (clearLatch s).pwr := (congrArg State.pwr (clearCause_frame ..) :)
  rw [respond_pwr, hpwr, clearLatch, if_pos (by simp [hst, hclear])]
  exact ⟨rfl, rfl, rfl⟩

theorem execPowerClear_refused (rq : Req) (s : State) (hs : served 0x1204 rq s = true)
    (hno : s.pwr.st ≠ .latched ∨ sysfaultClear s = false) :
    execPowerClear rq s = .next (respond rq 0x1204 Status.state [] s) := by
  unfold execPowerClear
  exact command_turned_away 0x1204 rq _ _ s true Status.state hs (by rcases hno with h | h <;> simp [h])

theorem num_le (st : SeqState) : st.num ≤ 5 := by cases st <;> decide

theorem execPowerStatus_replies (rq : Req) (s : State) (hs : served 0x1205 rq s = true) (hlen : s.pwr.rails.length = 16) :
    ∃ p, execPowerStatus rq s = .next (respond rq 0x1205 Status.ok p s) ∧ p.length = 64 ∧
      leAt p 0 1 = s.pwr.st.num ∧ leAt p 8 8 = s.atoll.rtc.toNat ∧ leAt p 16 8 = s.time.toNat ∧
      leAt p 56 4 = s.pwr.railFaults.n := by
  have hrails := length_flatMap_const 2 (fun r : Rail => leBytes 2 (openDiv (r.code * r.fullScale) 4095))
    (fun r => length_leBytes 2 _) s.pwr.rails
  have hst := num_le s.pwr.st
  have hrtc := s.atoll.rtc.isLt
  rw [hlen] at hrails
  unfold execPowerStatus
  refine ⟨_, command_pass 0x1205 rq _ _ s hs (List.forall_mem_nil _), ?_⟩
  simp only [List.append_assoc]
  refine ⟨by simp [Count.bytes, hrails], ?_, ?_, ?_, ?_⟩
  · simp [leAt_left, leAt_leBytes]
    omega
  · simp [leAt_left, leAt_right, leAt_leBytes]
    omega
  · simpa [leAt_left, leAt_right, leAt_leBytes] using s.time.isLt
  · simpa [leAt_left, leAt_right, leAt_leBytes, hrails, Count.bytes, Count.n] using s.pwr.railFaults.val.isLt

theorem execPowerRailForce_forces (rq : Req) (s : State) (hs : served 0x1280 rq s = true) (hn : rq.u8 0 < 16)
    (hst : s.pwr.st = .down) (hoff : s.pwr.minOff = false) :
    execPowerRailForce rq s = .next (respond rq 0x1280 Status.ok []
      (s.modRail (rq.u8 0) fun r =>
        if rq.u8 1 = 0 then { r with en := false, up := false, dropAt := s.time } else { r with en := true })) := by
  unfold execPowerRailForce
  refine command_pass 0x1280 rq _ _ s hs ?_
  simp only [List.forall_mem_cons]
  exact ⟨by simpa using hn, by simp [hst, hoff], List.forall_mem_nil _⟩

/-! ### power.up and power.down (R428, R431 to R433) -/

theorem onRequest_down (s : State) (h : s.pwr.st = .down) : onRequest s = startRising s := by
  unfold onRequest
  rw [h]

theorem execPowerUp_rises (rq : Req) (k : Nat) (s : State) (hs : served 0x1202 rq s = true) (hlen : s.pwr.rails.length = 16)
    (hst : s.pwr.st = .down) (hk : k < 16) (hin : (s.rail k).inSeq = true) (hout : ∀ j, j < k → (s.rail j).inSeq = false)
    (hsupply : s.atoll.supplyMon = false ∨ s.pwr.supplyLost = false) :
    ∃ t, execPowerUp rq s = .next t ∧ t.pwr.st = .rising ∧ t.pwr.slot = some k ∧ (t.rail k).en = true ∧
      (t.rail k).up = false ∧ (∀ j, j ≠ k → t.rail j = s.rail j) ∧
      t.pwr.upCtx = s.pwr.upCtx ++ [rq.ctx s 0x1202] ∧ { t with pwr := s.pwr, mci := s.mci } = s := by
  have hchecks : ∀ c ∈ [((s.pwr.st = .rising || s.pwr.st = .up || s.pwr.st = .falling : Bool), Status.state),
      ((s.pwr.st = .latched : Bool), 0x9201), (s.atoll.supplyMon && s.pwr.supplyLost, 0x9202)], c.1 = false := by
    rcases hsupply with h | h <;> simp [hst, h]
  unfold execPowerUp
  refine ⟨_, command_pass 0x1202 rq _ _ s hs hchecks, ?_⟩
  have hframe : { accept rq 0x1202 [] s with mci := s.mci } = s := respond_frame ..
  have hera : (accept rq 0x1202 [] s).mci.era = s.mci.era := (congrArg Mci.era (respond_mci_frame rq 0x1202 _ [] s) :)
  generalize accept rq 0x1202 [] s = u at hframe hera ⊢
  have hpwr : u.pwr = s.pwr := (congrArg State.pwr hframe :)
  have hctx : rq.ctx u 0x1202 = rq.ctx s 0x1202 := by
    unfold Req.ctx
    rw [hera]
  have hrail (j : Nat) : u.rail j = s.rail j := by
    unfold State.rail
    rw [hpwr]
  have hdown : { u with pwr := { u.pwr with upCtx := u.pwr.upCtx ++ [rq.ctx u 0x1202] } }.pwr.st = .down := by
    rw [← hst, ← hpwr]
  dsimp only
  rw [onRequest_down _ hdown]
  obtain ⟨v, hv⟩ : ∃ v : State, ({ u with pwr := { u.pwr with
    upCtx := u.pwr.upCtx ++ [rq.ctx u 0x1202], heldOn := false, cause := 0, latchedOff := false, endKeep := false, topSlot := 0,
    dropMain := false } } : State) = v := ⟨_, rfl⟩
  have hvrail (j : Nat) : v.rail j = s.rail j := by
    rw [← hv, ← hrail j]
    rfl
  have hrise : startRising { u with pwr := { u.pwr with upCtx := u.pwr.upCtx ++ [rq.ctx u 0x1202] } } = enableFrom 0 v := by
    rw [← hv]
    rfl
  have hsame := rail_modRail_same v k (fun r => { r with en := true, up := false }) (by
    rw [← hv]
    dsimp only
    rw [hpwr, hlen]
    exact hk)
  have hne (j : Nat) (hj : j ≠ k) := rail_modRail_ne v k j (fun r => { r with en := true, up := false }) hj
  rw [hrise, enableFrom_next v 0 k (Nat.zero_le k) hk (by rw [hvrail, hin]) fun i _ hi => by rw [hvrail, hout i hi]]
  refine ⟨rfl, rfl, congrArg Rail.en hsame, congrArg Rail.up hsame, fun j hj => (hne j hj).trans (hvrail j), ?_, ?_⟩
  · rw [← hctx, ← hpwr, ← hv]
    rfl
  · refine Eq.trans ?_ hframe
    rw [← hv, ← hpwr]
    rfl

/-- A power.down that waits for its end. -/
theorem execPowerDown_requests (rq : Req) (s : State) (hs : served 0x1203 rq s = true) (hmode : rq.u8 0 ≤ 1)
    (hst : s.pwr.st = .up) :
    ∃ u, execPowerDown rq s = .next (offRequest u) ∧
      u.pwr = { s.pwr with downCtx := s.pwr.downCtx ++ [rq.ctx s 0x1203], endKeep := rq.u8 0 = 0 } ∧
      { u with pwr := s.pwr, mci := s.mci } = s := by
  have hframe : { accept rq 0x1203 [] s with mci := s.mci } = s := respond_frame ..
  have hpwr : (accept rq 0x1203 [] s).pwr = s.pwr := respond_pwr ..
  unfold execPowerDown
  refine ⟨{ accept rq 0x1203 [] s with pwr := { (accept rq 0x1203 [] s).pwr with
    downCtx := (accept rq 0x1203 [] s).pwr.downCtx ++ [rq.ctx s 0x1203], endKeep := rq.u8 0 = 0 } },
    (command_pass 0x1203 rq _ _ s hs (by simpa using hmode)).trans ?_, ?_, ?_⟩
  · dsimp only
    rw [if_neg (by simp [hpwr, hst])]
  · dsimp only
    rw [hpwr]
  · exact (congrArg (fun t : State => { t with pwr := s.pwr }) hframe :)

theorem pageActive_congr (s t : State) (h : t.stations = s.stations) (i : Nat) : pageActive t i = pageActive s i := by
  unfold pageActive State.station
  rw [h]

theorem layerActive_congr (s t : State) (h : t.forge = s.forge) : layerActive t = layerActive s := by
  unfold layerActive
  rw [h]

theorem noneActive (s : State) (hpages : ∀ i, i < 4 → pageActive s i = false) (hlayer : layerActive s = false) :
    ((List.range 4).any (pageActive s) || layerActive s) = false := by
  rw [hlayer, Bool.or_false, List.any_eq_false]
  intro i hi
  rw [hpages i (List.mem_range.mp hi)]
  decide

theorem execPowerDown_falls (rq : Req) (k : Nat) (s : State) (hs : served 0x1203 rq s = true) (hlen : s.pwr.rails.length = 16)
    (hlinks : s.links.length = 24) (hmode : rq.u8 0 ≤ 1) (hst : s.pwr.st = .up)
    (hpages : ∀ i, i < 4 → pageActive s i = false) (hlayer : layerActive s = false) (hk : k < 16)
    (hen : (s.rail k).en = true) (hoff : ∀ j, k < j → j < 16 → (s.rail j).en = false) :
    ∃ t, execPowerDown rq s = .next t ∧ t.pwr.st = .falling ∧ t.pwr.slot = some k ∧ (t.rail k).en = false ∧
      (t.rail k).dropAt = s.time + BitVec.ofNat 64 (ticksPerMs / 1000) ∧
      (∀ j, j ≠ k → t.rail j = s.rail j) ∧ (∀ l, l < s.nLinks → (t.link l).causes.getLsbD 3 = true) := by
  obtain ⟨u, hexec, hpwr, hframe⟩ := execPowerDown_requests rq s hs hmode hst
  have hstations : u.stations = s.stations := (congrArg State.stations hframe :)
  have hforge : u.forge = s.forge := (congrArg State.forge hframe :)
  have hulinks : u.links = s.links := (congrArg State.links hframe :)
  have hpart : u.part = s.part := (congrArg State.part hframe :)
  have htime : u.time = s.time := (congrArg State.time hframe :)
  have hidle := noneActive u (fun i hi => by rw [pageActive_congr s u hstations, hpages i hi])
    ((layerActive_congr s u hforge).trans hlayer)
  have hfall : offRequest u = startFalling 1 u := by
    unfold offRequest
    rw [hpwr, hst]
    dsimp only
    rw [hidle]
    rfl
  have htop := (topEnabled_congr s u (by rw [hpwr])).trans (topEnabled_highest s k hk hen hoff)
  obtain ⟨hfalling, -, hgated⟩ := startFalling_effect 1 u k htop
  have hrails : (startFalling 1 u).pwr.rails = modAt s.pwr.rails k fun r => r.drop (s.time + BitVec.ofNat 64 (ticksPerMs / 1000)) := by
    rw [hfalling, hpwr, htime]
  have hsame : (startFalling 1 u).rail k = (s.rail k).drop (s.time + BitVec.ofNat 64 (ticksPerMs / 1000)) := by
    unfold State.rail
    rw [hrails, at'_modAt_same _ _ _ _ (by omega)]
  rw [hfall] at hexec
  refine ⟨_, hexec, ?_, ?_, ?_, ?_, fun j hj => ?_, fun l hl => ?_⟩
  · rw [hfalling]
  · rw [hfalling]
  · rw [hsame]
    rfl
  · rw [hsame]
    rfl
  · unfold State.rail
    rw [hrails, at'_modAt_ne _ _ _ _ _ hj.symm]
  · refine hgated (by rw [hulinks, hlinks]) l ?_
    unfold State.nLinks at hl ⊢
    rw [hpart]
    exact hl

theorem execPowerDown_grants (rq : Req) (i : Nat) (s : State) (hs : served 0x1203 rq s = true) (hmode : rq.u8 0 ≤ 1)
    (hst : s.pwr.st = .up) (hi : i < 4) (hactive : pageActive s i = true) (hgrace : s.pwr.grace = none) :
    ∃ t, execPowerDown rq s = .next t ∧ t.pwr.grace = some s.time ∧ t.pwr.st = .up ∧ t.pwr.rails = s.pwr.rails ∧
      t.stations = s.stations := by
  obtain ⟨u, hexec, hpwr, hframe⟩ := execPowerDown_requests rq s hs hmode hst
  have hstations : u.stations = s.stations := (congrArg State.stations hframe :)
  have htime : u.time = s.time := (congrArg State.time hframe :)
  have hactive' : ((List.range 4).any (pageActive u) || layerActive u) = true := by
    rw [Bool.or_eq_true, List.any_eq_true]
    exact .inl ⟨i, List.mem_range.mpr hi, (pageActive_congr s u hstations i).trans hactive⟩
  have hgrant : offRequest u = { u with pwr := { u.pwr with grace := some u.time } } := by
    unfold offRequest
    rw [hactive', hpwr, hst]
    simp [hgrace]
  rw [hgrant] at hexec
  refine ⟨_, hexec, ?_, ?_, ?_, hstations⟩
  · dsimp only
    rw [htime]
  · dsimp only
    rw [hpwr, hst]
  · dsimp only
    rw [hpwr]

/-! ### A rail comes up (R427, R428) -/

theorem railSense (k v : Nat) (pg : Bool) (s : State) :
    ((s.modRail k fun r => { r with code := v }).rail k).en = (s.rail k).en ∧
      ((s.modRail k fun r => { r with code := v }).rail k).up = (s.rail k).up ∧
      vmonOk ((s.modRail k fun r => { r with code := v }).rail k) v = vmonOk (s.rail k) v ∧
      ((s.modRail k fun r => { r with code := v }).rail k).pgOk pg = (s.rail k).pgOk pg :=
  ⟨rail_modRail_congr Rail.en s k k _ fun _ => rfl, rail_modRail_congr Rail.up s k k _ fun _ => rfl,
    rail_modRail_congr (fun r => vmonOk r v) s k k _ fun _ => rfl, rail_modRail_congr (fun r => r.pgOk pg) s k k _ fun _ => rfl⟩

theorem execRailUp_not (k v : Nat) (pg : Bool) (s : State)
    (hno : (s.rail k).en = false ∨ vmonOk (s.rail k) v = false ∨ (s.rail k).pgOk pg = false) :
    execRailUp k ⟨v, pg⟩ s = .next (s.modRail k fun r => { r with code := v }) := by
  obtain ⟨hen, -, hv, hpg⟩ := railSense k v pg s
  unfold execRailUp
  dsimp only
  rw [hen, hv, hpg, if_pos (by rcases hno with h | h | h <;> simp [h])]

theorem execRailUp_ok (k v : Nat) (pg : Bool) (s : State) (hk : k < s.pwr.rails.length) (hon : (s.rail k).en = true)
    (hok : vmonOk (s.rail k) v = true) (hgood : (s.rail k).pgOk pg = true) :
    (s.pwr.st = .rising → s.pwr.slot = some k → s.pwr.settling = false →
      ∃ t, execRailUp k ⟨v, pg⟩ s = .next t ∧ t.rail k = { s.rail k with up := true, code := v } ∧
        t.pwr.settling = true ∧ t.pwr.stepAt = s.time ∧ (∀ j, j ≠ k → t.rail j = s.rail j) ∧
        { t with pwr := s.pwr } = s) ∧
    (s.pwr.st = .down → execRailUp k ⟨v, pg⟩ s = .next (s.modRail k fun r => { r with up := true, code := v })) := by
  obtain ⟨hen, -, hv, hpg⟩ := railSense k v pg s
  have hboth : (s.modRail k fun r => { r with code := v }).modRail k (fun r => { r with up := true }) =
      s.modRail k fun r => { r with up := true, code := v } := by
    unfold State.modRail
    dsimp only
    rw [modAt_modAt]
  have hsame := rail_modRail_same s k (fun r => { r with up := true, code := v }) hk
  have hne (j : Nat) (hj : j ≠ k) := rail_modRail_ne s k j (fun r => { r with up := true, code := v }) hj
  unfold execRailUp
  dsimp only
  rw [hen, hv, hpg, if_neg (by simp [hon, hok, hgood]), hboth]
  refine ⟨fun hst hslot hsettle => ?_, fun hst => ?_⟩
  · rw [if_pos (by simp [State.modRail, hst, hslot, hsettle])]
    exact ⟨_, rfl, hsame, rfl, rfl, hne, rfl⟩
  · rw [if_neg (by simp [State.modRail, hst]), if_pos (by simp [State.modRail, hst])]

theorem execRailSettleEnd_next (k j : Nat) (s : State) (hlen : s.pwr.rails.length = 16) (hst : s.pwr.st = .rising)
    (hslot : s.pwr.slot = some k) (hsettle : s.pwr.settling = true) (hkj : k < j) (hj : j < 16) (hin : (s.rail j).inSeq = true)
    (hout : ∀ i, k < i → i < j → (s.rail i).inSeq = false) :
    ∃ t, execRailSettleEnd k s = .next t ∧ t.pwr.st = .rising ∧ t.pwr.slot = some j ∧ (t.rail j).en = true ∧
      (∀ i, i ≠ j → t.rail i = s.rail i) ∧
      { t with pwr := s.pwr } = s.waitFrom s.pwr.stepAt ((s.rail k).settle * ticksPerMs) := by
  unfold execRailSettleEnd
  rw [if_pos (by simp [hst, hslot, hsettle])]
  refine ⟨_, rfl, ?_⟩
  have hpwr := waitFrom_pwr s s.pwr.stepAt ((s.rail k).settle * ticksPerMs)
  generalize s.waitFrom s.pwr.stepAt ((s.rail k).settle * ticksPerMs) = u at hpwr ⊢
  have hrail (i : Nat) : u.rail i = s.rail i := by
    unfold State.rail
    rw [hpwr]
  have hsame := rail_modRail_same u j (fun r => { r with en := true, up := false }) (by rw [hpwr, hlen]; exact hj)
  rw [enableFrom_next u (k + 1) j hkj hj (by rw [hrail, hin]) fun i hi hlt => by rw [hrail, hout i (by omega) hlt]]
  refine ⟨rfl, rfl, congrArg Rail.en hsame, fun i hi => ?_, ?_⟩
  · exact (rail_modRail_ne u j i (fun r => { r with en := true, up := false }) hi).trans (hrail i)
  · rw [← hpwr]
    rfl

theorem execRailSettleEnd_up (k : Nat) (s : State) (hst : s.pwr.st = .rising) (hslot : s.pwr.slot = some k)
    (hsettle : s.pwr.settling = true) (hout : ∀ i, k < i → i < 16 → (s.rail i).inSeq = false) :
    ∃ t, execRailSettleEnd k s = .next t ∧ t.pwr.st = .up ∧ t.pwr.slot = none ∧ t.pwr.upCtx = [] ∧
      t.pwr.rails = s.pwr.rails := by
  unfold execRailSettleEnd
  rw [if_pos (by simp [hst, hslot, hsettle])]
  refine ⟨_, rfl, ?_⟩
  have hpwr := waitFrom_pwr s s.pwr.stepAt ((s.rail k).settle * ticksPerMs)
  generalize s.waitFrom s.pwr.stepAt ((s.rail k).settle * ticksPerMs) = u at hpwr ⊢
  have hrail (i : Nat) : u.rail i = s.rail i := by
    unfold State.rail
    rw [hpwr]
  rw [enableFrom_up u (k + 1) fun i hi hlt => by rw [hrail, hout i (by omega) hlt], hpwr]
  exact ⟨rfl, rfl, rfl, rfl⟩

end Sys2Proof.Machine
end

section
/-!
PROOFS. Rails that fail, fall and rest (spec/19_power_atoll.md R428 to R433, R438): `RailsAreSequenced`.
-/
namespace Sys2Proof.Machine

open Sys2Proof

/-! ### A rail fails (R429, R432) -/

/-- A shutdown that latches from RISING or UP with a rail enabled. -/
theorem latchDown_falls (kind cause k : Nat) (s : State) (hst : s.pwr.st = .rising ∨ s.pwr.st = .up) (hk : k < 16)
    (hen : (s.rail k).en = true) :
    (latchDown kind cause s).pwr.st = .falling ∧ (latchDown kind cause s).pwr.latch = kind ∧
      (latchDown kind cause s).pwr.cause = cause ∧ (latchDown kind cause s).pwr.railFaults = s.pwr.railFaults ∧
      { (latchDown kind cause s).atoll with lastRail := s.atoll.lastRail } = s.atoll ∧
      (s.links.length = 24 → ∀ l, l < s.nLinks → ((latchDown kind cause s).link l).causes.getLsbD 3 = true) := by
  have hfalls : latchDown kind cause s = startFalling cause (setLatch kind s) := by
    unfold latchDown
    rcases hst with h | h <;> rw [h]
  obtain ⟨j, hj⟩ := topEnabled_exists s k hk hen
  obtain ⟨hpwr, hatoll, hgated⟩ := startFalling_effect cause (setLatch kind s) j
    ((topEnabled_congr s (setLatch kind s) rfl).trans hj)
  rw [hfalls, hpwr, hatoll]
  exact ⟨rfl, rfl, rfl, rfl, rfl, hgated⟩

theorem execRailPgTimeout_latches (k : Nat) (s : State) (hlinks : s.links.length = 24) (hk : k < 16) (hst : s.pwr.st = .rising)
    (hslot : s.pwr.slot = some k) (hsettle : s.pwr.settling = false) (hen : (s.rail k).en = true) :
    ∃ t, execRailPgTimeout k s = .next t ∧ t.pwr.st = .falling ∧ t.pwr.latch = 1 ∧ t.pwr.cause = 2 ∧
      t.atoll.railNoPg = true ∧ (∀ l, l < s.nLinks → (t.link l).causes.getLsbD 3 = true) ∧
      (t.flt.presented.getLast?.map fun r => (r.source, r.unit)) = some (0x0240, some k) := by
  unfold execRailPgTimeout
  rw [if_pos (by simp [hst, hslot, hsettle])]
  refine ⟨_, rfl, ?_⟩
  have hframe := waitFrom_frame s s.pwr.stepAt ((s.rail k).pgTimeout * ticksPerMs)
  generalize s.waitFrom s.pwr.stepAt ((s.rail k).pgTimeout * ticksPerMs) = u at hframe ⊢
  have hpwr : u.pwr = s.pwr := (congrArg State.pwr hframe :)
  have hulinks : u.links = s.links := (congrArg State.links hframe :)
  have hpart : u.part = s.part := (congrArg State.part hframe :)
  obtain ⟨hfall, hlatch, hcause, -, hatoll, hgated⟩ := latchDown_falls 1 2 k { u with atoll := { u.atoll with railNoPg := true } }
    (.inl (hpwr ▸ hst)) hk (by unfold State.rail at hen ⊢; rwa [hpwr])
  refine ⟨hfall, hlatch, hcause, (congrArg Atoll.railNoPg hatoll :), fun l hl => ?_, present_last ..⟩
  refine hgated (by rw [← hlinks, ← hulinks]) l ?_
  unfold State.nLinks at hl ⊢
  dsimp only
  rwa [hpart]

theorem execRailFault_latches (k v : Nat) (pg : Bool) (s : State) (hk : k < 16)
    (hon : (s.rail k).en = true) (hup : (s.rail k).up = true) (hst : s.pwr.st = .up)
    (hbad : vmonOk (s.rail k) v = false ∨ (s.rail k).pgOk pg = false) :
    ∃ t, execRailFault k ⟨v, pg⟩ s = .next t ∧ t.pwr.st = .falling ∧ t.pwr.latch = 1 ∧
      t.pwr.railFaults = s.pwr.railFaults.inc ∧ t.atoll.railFault = true ∧
      (t.flt.presented.getLast?.map fun r => (r.source, r.unit)) = some (0x0241, some k) := by
  obtain ⟨hen, hup', hv, hpg⟩ := railSense k v pg s
  unfold execRailFault
  dsimp only
  rw [if_neg (by rw [hen, hup', hv, hpg]; rcases hbad with h | h <;> simp [hon, hup, h]),
    if_neg (by simp [State.modRail, hst])]
  obtain ⟨u, hu⟩ : ∃ u : State, { s.modRail k fun r => { r with code := v } with
    atoll := { (s.modRail k fun r => { r with code := v }).atoll with railFault := true },
    pwr := { (s.modRail k fun r => { r with code := v }).pwr with
      railFaults := (s.modRail k fun r => { r with code := v }).pwr.railFaults.inc } } = u := ⟨_, rfl⟩
  have huen : (u.rail k).en = true := by
    rw [← hu, ← hon, ← hen]
    rfl
  obtain ⟨hfall, hlatch, -, hfaults, hatoll, -⟩ := latchDown_falls 1 3 k u (.inr (by rw [← hu]; exact hst)) hk huen
  rw [← hu] at hfall hlatch hfaults hatoll
  refine ⟨_, rfl, ?_⟩
  rw [if_neg (by rw [hfall]; decide)]
  exact ⟨hfall, hlatch, hfaults, (congrArg Atoll.railFault hatoll :), present_last ..⟩

theorem execRailFault_none (k v : Nat) (pg : Bool) (s : State)
    (hno : (s.rail k).en = false ∨ (s.rail k).up = false ∨ (vmonOk (s.rail k) v = true ∧ (s.rail k).pgOk pg = true)) :
    execRailFault k ⟨v, pg⟩ s = .next (s.modRail k fun r => { r with code := v }) := by
  obtain ⟨hen, hup, hv, hpg⟩ := railSense k v pg s
  unfold execRailFault
  dsimp only
  rw [hen, hup, hv, hpg, if_pos (by rcases hno with h | h | ⟨h, h'⟩ <;> simp [*])]

/-! ### A slot has discharged (R428, R431) -/

/-- The state in which the next slot drops: time has passed, the monitor has been read, a slow discharge is raised. -/
theorem execRailDischargeEnd_drops (k v : Nat) (s : State) (hst : s.pwr.st = .falling) (hslot : s.pwr.slot = some k) :
    ∃ u, execRailDischargeEnd k v s = .next (dropNext 0 u) ∧ u.pwr = (s.modRail k fun r => { r with code := v }).pwr ∧
      (v * (s.rail k).fullScale ≤ (s.rail k).dischMv * 4095 → u.flt = s.flt) := by
  have hframe := waitFrom_frame s s.pwr.stepAt ((s.rail k).discharge * ticksPerMs)
  unfold execRailDischargeEnd
  rw [if_pos (by simp [hst, hslot])]
  dsimp only
  generalize s.waitFrom s.pwr.stepAt ((s.rail k).discharge * ticksPerMs) = u at hframe ⊢
  have hpwr : u.pwr = s.pwr := (congrArg State.pwr hframe :)
  have hrail : u.rail k = s.rail k := by
    unfold State.rail
    rw [hpwr]
  have hread : (u.modRail k fun r => { r with code := v }).pwr = (s.modRail k fun r => { r with code := v }).pwr := by
    unfold State.modRail
    dsimp only
    rw [hpwr]
  have hmv := rail_modRail_congr Rail.dischMv u k k (fun r => { r with code := v }) fun _ => rfl
  have hfull := rail_modRail_congr Rail.fullScale u k k (fun r => { r with code := v }) fun _ => rfl
  rw [hmv, hfull, hrail]
  by_cases hslow : (s.rail k).dischMv * 4095 < v * (s.rail k).fullScale
  · rw [if_pos hslow]
    exact ⟨_, rfl, hread, fun h => absurd h (by omega)⟩
  · rw [if_neg hslow]
    exact ⟨_, rfl, hread, fun _ => (congrArg State.flt hframe :)⟩

theorem execRailDischargeEnd_next (k j v : Nat) (s : State) (hlen : s.pwr.rails.length = 16) (hst : s.pwr.st = .falling)
    (hslot : s.pwr.slot = some k) (hj : j < 16) (hen : (s.rail j).en = true)
    (hoff : ∀ i, j < i → i < 16 → (s.rail i).en = false) :
    ∃ t, execRailDischargeEnd k v s = .next t ∧ t.pwr.st = .falling ∧ t.pwr.slot = some j ∧ (t.rail j).en = false ∧
      (v * (s.rail k).fullScale ≤ (s.rail k).dischMv * 4095 → t.flt = s.flt) := by
  obtain ⟨u, hexec, hpwr, hflt⟩ := execRailDischargeEnd_drops k v s hst hslot
  have hens (i : Nat) : (u.rail i).en = (s.rail i).en := by
    refine Eq.trans ?_ (rail_modRail_congr Rail.en s k i (fun r => { r with code := v }) fun _ => rfl)
    unfold State.rail
    rw [hpwr]
  have htop := topEnabled_highest u j hj (by rw [hens, hen]) fun i hi hlt => by rw [hens, hoff i hi hlt]
  rw [dropNext_some 0 u j htop] at hexec
  have hdropped := rail_modRail_same u j (fun r => r.drop (u.time + BitVec.ofNat 64 0)) (by
    rw [hpwr]
    simpa [State.modRail, hlen] using hj)
  refine ⟨_, hexec, ?_, rfl, congrArg Rail.en hdropped, hflt⟩
  dsimp only
  rw [hpwr]
  exact hst

theorem execRailDischargeEnd_done (k v : Nat) (s : State) (hst : s.pwr.st = .falling) (hslot : s.pwr.slot = some k)
    (hoff : ∀ i, i < 16 → (s.rail i).en = false) :
    ∃ t, execRailDischargeEnd k v s = .next t ∧ t.pwr.minOff = true ∧ t.pwr.slot = none ∧ t.pwr.upCtx = [] ∧
      t.pwr.st = (if s.pwr.latch = 0 then .minOff else .latched) := by
  obtain ⟨u, hexec, hpwr, -⟩ := execRailDischargeEnd_drops k v s hst hslot
  have hens (i : Nat) : (u.rail i).en = (s.rail i).en := by
    refine Eq.trans ?_ (rail_modRail_congr Rail.en s k i (fun r => { r with code := v }) fun _ => rfl)
    unfold State.rail
    rw [hpwr]
  have hdone : dropNext 0 u = powerDownDone u := by
    unfold dropNext
    rw [topEnabled_none u fun i hi => by rw [hens, hoff i hi]]
  obtain ⟨hmin, hnone, hup, hend⟩ := powerDownDone_pwr u
  rw [hdone] at hexec
  refine ⟨_, hexec, hmin, hnone, hup, ?_⟩
  rw [hend, hpwr]
  rfl

/-! ### MIN_OFF and the grace end (R431 to R433, R438) -/

theorem execMinOffEnd_idle (s : State) (h : s.pwr.minOff = false) : execMinOffEnd s = .next s := by simp [execMinOffEnd, h]

theorem advance_standby (s : State) (k : Nat) : (s.advance k).atoll.standby = s.atoll.standby ∧ (s.advance k).atoll.main = s.atoll.main := by
  unfold State.advance
  dsimp only
  split <;> exact ⟨rfl, rfl⟩

theorem waitFrom_standby (s : State) (since : BitVec 64) (dur : Nat) :
    (s.waitFrom since dur).atoll.standby = s.atoll.standby ∧ (s.waitFrom since dur).atoll.main = s.atoll.main := by
  unfold State.waitFrom State.advanceTo
  split
  · exact advance_standby ..
  · exact ⟨rfl, rfl⟩

/-- At the end of MIN_OFF with no request held, the sequencer is DOWN and the main supply follows. -/
theorem execMinOffEnd_follows (s : State) (hmin : s.pwr.minOff = true) (hst : s.pwr.st = .minOff) (hheld : s.pwr.heldOn = false) :
    ∃ u, execMinOffEnd s = .next (faultUngate (followMain u)) ∧
      u.pwr = { s.pwr with minOff := false, downCtx := [], st := .down } ∧
      u.atoll = (s.waitFrom s.pwr.minOffAt (100 * ticksPerMs)).atoll ∧ u.mci.st = s.mci.st := by
  have hframe := waitFrom_frame s s.pwr.minOffAt (100 * ticksPerMs)
  unfold execMinOffEnd
  rw [hmin, if_neg (by decide)]
  dsimp only
  generalize s.waitFrom s.pwr.minOffAt (100 * ticksPerMs) = w at hframe ⊢
  have hwpwr : w.pwr = s.pwr := (congrArg State.pwr hframe :)
  have hwmci : w.mci = s.mci := (congrArg State.mci hframe :)
  have hdone := foldl_complete_frame (fun c : Ctx => c) Status.ok [] w.pwr.downCtx
    { w with pwr := { w.pwr with minOff := false, downCtx := [] } }
  have hcalm := calm_foldl (fun s c => complete c Status.ok [] s) w.pwr.downCtx
    { w with pwr := { w.pwr with minOff := false, downCtx := [] } } fun s c => calm_complete c Status.ok [] s
  generalize List.foldl _ _ w.pwr.downCtx = v at hdone hcalm ⊢
  have hpwr : v.pwr = { s.pwr with minOff := false, downCtx := [] } := by
    rw [← hwpwr]
    exact (congrArg State.pwr hdone :)
  have hatoll : v.atoll = w.atoll := (congrArg State.atoll hdone :)
  have hmci : v.mci.st = s.mci.st := by
    rw [← hwmci]
    exact (congrArg Mci.st hcalm.2.2.1 :)
  have hst' : v.pwr.st = .minOff := by rw [hpwr, ← hst]
  have hheld' : v.pwr.heldOn = false := by rw [hpwr, ← hheld]
  have hdown : (if v.pwr.st = .minOff then { v with pwr := { v.pwr with st := .down } } else v) =
      { v with pwr := { v.pwr with st := .down } } := if_pos hst'
  rw [hdown, if_neg (by simp [hheld'])]
  refine ⟨{ v with pwr := { v.pwr with st := .down } }, rfl, ?_, hatoll, hmci⟩
  dsimp only
  rw [hpwr]

theorem faultUngate_frame (s : State) : { faultUngate s with links := s.links } = s := clearCause_frame ..

theorem execMinOffEnd_standby (s : State) (hmin : s.pwr.minOff = true) (hst : s.pwr.st = .minOff) (hheld : s.pwr.heldOn = false)
    (hstand : s.atoll.standby = true) :
    ∃ t, execMinOffEnd s = .next t ∧ t.pwr.st = .down ∧ t.pwr.minOff = false ∧ t.pwr.downCtx = [] ∧
      t.atoll = (s.waitFrom s.pwr.minOffAt (100 * ticksPerMs)).atoll ∧ t.pwr.rails = s.pwr.rails := by
  obtain ⟨u, hexec, hpwr, hatoll, -⟩ := execMinOffEnd_follows s hmin hst hheld
  have hstays : followMain u = u := by
    unfold followMain
    rw [if_pos (by simp [hatoll, (waitFrom_standby s s.pwr.minOffAt (100 * ticksPerMs)).1, hstand])]
  have hframe := faultUngate_frame u
  rw [hstays] at hexec
  refine ⟨_, hexec, ?_⟩
  have hpwr' : (faultUngate u).pwr = u.pwr := (congrArg State.pwr hframe :)
  have hatoll' : (faultUngate u).atoll = u.atoll := (congrArg State.atoll hframe :)
  rw [hpwr', hatoll', hpwr]
  exact ⟨rfl, rfl, rfl, hatoll, rfl⟩

theorem execMinOffEnd_off (s : State) (hmin : s.pwr.minOff = true) (hst : s.pwr.st = .minOff) (hheld : s.pwr.heldOn = false)
    (hstand : s.atoll.standby = false) (hkeep : s.pwr.endKeep = false) (hlo : s.pwr.latchedOff = false) (hlatch : s.pwr.latch = 0) :
    (s.mci.st ≠ .reset → ∃ t, execMinOffEnd s = .next t ∧ t.atoll.main = false ∧ t.timeRuns = false ∧
      t.pwr.st = .down ∧ t.pwr.minOff = false ∧ t.dram.mem = [] ∧ t.held = 0x1FF) ∧
    (s.mci.st = .reset → ∃ t, execMinOffEnd s = .next t ∧ t.atoll.main = s.atoll.main ∧ t.pwr.dropMain = true ∧
      t.pwr.st = .down ∧ t.pwr.minOff = false) := by
  obtain ⟨u, hexec, hpwr, hatoll, hmci⟩ := execMinOffEnd_follows s hmin hst hheld
  obtain ⟨hstand', hmain⟩ := waitFrom_standby s s.pwr.minOffAt (100 * ticksPerMs)
  have hfollow : followMain u = if resetInProgress u then { u with pwr := { u.pwr with dropMain := true } } else mainOff u := by
    unfold followMain
    rw [if_neg (by simp [hatoll, hstand', hstand, hpwr, hkeep, hlo, hlatch])]
  rw [hfollow] at hexec
  refine ⟨fun hrun => ?_, fun hreset => ?_⟩
  · rw [if_neg (by simp [resetInProgress, hmci, hrun])] at hexec
    have hframe := faultUngate_frame (mainOff u)
    refine ⟨_, hexec, (congrArg (fun t : State => t.atoll.main) hframe :), (congrArg State.timeRuns hframe :),
      (congrArg (fun t : State => t.pwr.st) hframe :).trans ?_, (congrArg (fun t : State => t.pwr.minOff) hframe :),
      (congrArg (fun t : State => t.dram.mem) hframe :), (congrArg State.held hframe :)⟩
    unfold mainOff
    dsimp only
    rw [hpwr]
  · rw [if_pos (by simp [resetInProgress, hmci, hreset])] at hexec
    have hframe := faultUngate_frame { u with pwr := { u.pwr with dropMain := true } }
    refine ⟨_, hexec, (congrArg (fun t : State => t.atoll.main) hframe :).trans ?_, (congrArg (fun t : State => t.pwr.dropMain) hframe :),
      (congrArg (fun t : State => t.pwr.st) hframe :).trans ?_, (congrArg (fun t : State => t.pwr.minOff) hframe :).trans ?_⟩
    · dsimp only
      rw [hatoll, hmain]
    · dsimp only
      rw [hpwr]
    · dsimp only
      rw [hpwr]

theorem graceEnds_none (s : State) (h : s.pwr.grace = none) :
    execOffGraceEnd s = .next s ∧ execGraceJobsTerminal s = .next s := by
  constructor
  · unfold execOffGraceEnd
    rw [h]
  · simp [execGraceJobsTerminal, h]

theorem startFalling_falls (cause k : Nat) (s : State) (hk : k < 16) (hen : (s.rail k).en = true) :
    (startFalling cause s).pwr.st = .falling ∧ (startFalling cause s).pwr.grace = none := by
  obtain ⟨j, hj⟩ := topEnabled_exists s k hk hen
  obtain ⟨hpwr, -⟩ := startFalling_effect cause s j hj
  rw [hpwr]
  exact ⟨rfl, rfl⟩

theorem graceEnds_fall (k : Nat) (s : State) (hgrace : s.pwr.grace.isSome = true)
    (hpages : ∀ i, i < 4 → pageActive s i = false) (hlayer : layerActive s = false) (hk : k < 16) (hen : (s.rail k).en = true) :
    (∃ t, execOffGraceEnd s = .next t ∧ t.pwr.st = .falling ∧ t.pwr.grace = none) ∧
    (∃ t, execGraceJobsTerminal s = .next t ∧ t.pwr.st = .falling ∧ t.pwr.grace = none) := by
  have hnone := noneActive s hpages hlayer
  constructor
  · obtain ⟨t, ht⟩ := Option.isSome_iff_exists.mp hgrace
    have hframe := waitFrom_frame s t (s.atoll.offGrace.toNat * ticksPerSecond)
    unfold execOffGraceEnd
    rw [ht]
    dsimp only
    generalize s.waitFrom t (s.atoll.offGrace.toNat * ticksPerSecond) = u at hframe ⊢
    have hactive : ((List.range 4).any (pageActive u) || layerActive u) = false :=
      noneActive u (fun i hi => (pageActive_congr s u (congrArg State.stations hframe :) i).trans (hpages i hi))
        ((layerActive_congr s u (congrArg State.forge hframe :)).trans hlayer)
    have hpwr : u.pwr = s.pwr := (congrArg State.pwr hframe :)
    rw [hactive, if_neg (by decide)]
    exact ⟨_, rfl, startFalling_falls 1 k u hk (by unfold State.rail at hen ⊢; rwa [hpwr])⟩
  · unfold execGraceJobsTerminal
    rw [hgrace, hnone, if_pos (by decide)]
    exact ⟨_, rfl, startFalling_falls 1 k s hk hen⟩

/-- Settles O49: each step of the sequencer ends in `enableFrom`, `startFalling`, `dropNext`, `powerDownDone` or
`followMain`, whose effects are the lemmas above. -/
theorem railsAreSequenced : Obligations.RailsAreSequenced := by
  refine ⟨execPowerRailConfig_sets, execPowerUp_rises, execPowerUp_latched, execPowerDown_idle, execPowerDown_falls,
    execPowerDown_grants, execPowerClear_clears, execPowerClear_refused, execPowerStatus_replies, execPowerRailForce_forces,
    execRailUp_ok, execRailUp_not, execRailSettleEnd_next, execRailSettleEnd_up, ?_, ?_, execRailFault_none,
    execRailDischargeEnd_next, execRailDischargeEnd_done, execMinOffEnd_idle, execMinOffEnd_standby, execMinOffEnd_off,
    graceEnds_none, ?_⟩
  · intro k s _ hlinks hk hst hslot hsettle hen
    exact execRailPgTimeout_latches k s hlinks hk hst hslot hsettle hen
  · intro k v pg s _ _ hk hon hup hst hbad
    exact execRailFault_latches k v pg s hk hon hup hst hbad
  · intro k s _ hgrace hpages hlayer hk hen
    exact graceEnds_fall k s hgrace hpages hlayer hk hen

end Sys2Proof.Machine
end

section
/-!
PROOFS. Atoll (spec/19_power_atoll.md R434 to R444): the power button, the supplies, wake, the clock and the registers,
`AtollKeepsItsRegisters`.
-/
namespace Sys2Proof.Machine

open Sys2Proof

/-! ### The power button (R435, R436) -/

theorem wake_off (cause : Nat) (s : State) (h : s.atoll.main = false) :
    wake cause s = { s with atoll := { s.atoll with main := true, wakeCause := BitVec.ofNat 4 cause } } := by
  unfold wake
  rw [h]
  rfl

theorem execPwrbtnPress_held (s : State) (h : s.pwr.pressHeld = true) : execPwrbtnPress s = .next s := by
  simp [execPwrbtnPress, h]

theorem execPwrbtnPress_wakes (s : State) (hheld : s.pwr.pressHeld = false) (hmain : s.atoll.main = false) :
    (s.atoll.wakeEn.getLsbD 0 = true → ∃ t, execPwrbtnPress s = .next t ∧ t.atoll.main = true ∧ t.atoll.wakeCause = 1 ∧
      t.atoll.wakeFlag.getLsbD 0 = true ∧ { t with atoll := s.atoll } = s) ∧
    (s.atoll.wakeEn.getLsbD 0 = false →
      execPwrbtnPress s = .next { s with atoll := { s.atoll with wakeFlag := s.atoll.wakeFlag ||| 1 } }) := by
  unfold execPwrbtnPress
  dsimp only
  rw [hheld, if_neg (by decide), hmain, if_pos (by decide)]
  refine ⟨fun hen => ?_, fun hen => ?_⟩
  · rw [if_pos hen, wake_off 1 _ rfl]
    exact ⟨_, rfl, rfl, rfl, by simp, rfl⟩
  · rw [hen, if_neg (by decide)]

theorem execPwrbtnPress_clears (s : State) (hheld : s.pwr.pressHeld = false) (hmain : s.atoll.main = true)
    (hst : s.pwr.st = .latched) (hclear : sysfaultClear s = true) :
    ∃ t, execPwrbtnPress s = .next t ∧ t.pwr.latch = 0 ∧ t.pwr.st ≠ .latched := by
  unfold execPwrbtnPress
  dsimp only
  rw [hheld, if_neg (by decide), hmain, if_neg (by decide), hst]
  refine ⟨_, rfl, ?_⟩
  obtain ⟨u, hu⟩ : ∃ u : State, { s with atoll := { s.atoll with wakeFlag := s.atoll.wakeFlag ||| 1 } } = u := ⟨_, rfl⟩
  have hclear' : sysfaultClear u = true := by rw [← hu]; exact hclear
  have hst' : u.pwr.st = .latched := by rw [← hu]; exact hst
  have hpwr : (faultUngate (clearLatch u)).pwr = (clearLatch u).pwr := (congrArg State.pwr (faultUngate_frame _) :)
  have hmain' : ({ s with atoll := { s.atoll with wakeFlag := s.atoll.wakeFlag ||| 1, main := true } } : State) = u := by
    rw [← hu, ← hmain]
  rw [hmain', hpwr, clearLatch, if_pos (by simp [hst', hclear'])]
  refine ⟨rfl, ?_⟩
  dsimp only
  split <;> decide

theorem execPwrbtnForcedOff_drops (s : State) : ∃ t, execPwrbtnForcedOff s = .next t ∧ t.atoll.main = false ∧ t.atoll.forcedOff = true ∧
    t.timeRuns = false ∧ t.pwr.st = .down ∧ (∀ r ∈ t.pwr.rails, r.en = false) ∧ t.pwr.pressHeld = true ∧
    t.dram.mem = [] ∧ t.lag.data = [] ∧ t.held = 0x1FF ∧
    t.atoll.rtc = s.atoll.rtc ∧ t.atoll.ret = s.atoll.ret := by
  refine ⟨_, rfl, rfl, rfl, rfl, rfl, fun r hr => ?_, rfl, rfl, rfl, rfl, rfl, rfl⟩
  obtain ⟨x, -, rfl⟩ := List.mem_map.mp hr
  rfl

/-! ### nSYSFAULT and the supply (R432, R434, R438) -/

theorem execNsysfaultIn_high (s : State) : execNsysfaultIn false s = .next { s with pwr := { s.pwr with sysIn := false } } := rfl

theorem execNsysfaultIn_off (s : State) (h : s.atoll.main = false) :
    execNsysfaultIn true s = .next { s with pwr := { s.pwr with sysIn := true } } := by simp [execNsysfaultIn, h]

theorem execNsysfaultIn_own (s : State) (hmain : s.atoll.main = true) (hpull : pullsSysfault s = true) :
    execNsysfaultIn true s = .next s := by simp [execNsysfaultIn, hmain, hpull]

theorem execNsysfaultIn_latches (k : Nat) (s : State) (hmain : s.atoll.main = true) (hpull : pullsSysfault s = false)
    (hst : s.pwr.st = .up) (hk : k < 16) (hen : (s.rail k).en = true) :
    ∃ t, execNsysfaultIn true s = .next t ∧ t.pwr.st = .falling ∧ t.pwr.latch = 2 ∧ t.pwr.sysIn = true ∧
      t.atoll.sysfaultSeen = true ∧
      (t.flt.presented.getLast?.map fun r => (r.source, r.unit)) = some (0x0242, none) := by
  obtain ⟨j, hj⟩ := topEnabled_exists s k hk hen
  obtain ⟨u, hu⟩ : ∃ u : State, { s with
    pwr := { s.pwr with sysIn := true }, atoll := { s.atoll with sysfaultSeen := true } } = u := ⟨_, rfl⟩
  have hust : u.pwr.st = .up := by rw [← hu, ← hst]
  have hexec : execNsysfaultIn true s = .next (present 0x0242 none 0 (latchDown 2 4 u)) := by
    unfold execNsysfaultIn
    rw [if_neg (by simp [hmain]), if_neg (by simp [hpull])]
    dsimp only
    rw [if_pos (by simp [hst]), hu]
  have htop : topEnabled (setLatch 2 u) = some j := by
    rw [← hj, ← hu]
    exact topEnabled_congr s _ rfl
  obtain ⟨hpwr, hatoll, -⟩ := startFalling_effect 4 (setLatch 2 u) j htop
  have hdown : latchDown 2 4 u = startFalling 4 (setLatch 2 u) := by
    unfold latchDown
    rw [hust]
  rw [hdown] at hexec
  refine ⟨_, hexec, (congrArg Pwr.st hpwr :), (congrArg Pwr.latch hpwr :), (congrArg Pwr.sysIn hpwr :).trans ?_,
    (congrArg Atoll.sysfaultSeen hatoll :).trans ?_, present_last ..⟩
  · rw [← hu]
    rfl
  · rw [← hu]
    rfl

theorem supply_unwatched (s : State) (h : s.atoll.supplyMon = false) :
    execSupplyLost s = .next s ∧ execSupplyReturn s = .next s := by simp [execSupplyLost, execSupplyReturn, h]

theorem execSupplyLost_falls (k : Nat) (s : State) (hmon : s.atoll.supplyMon = true) (hst : s.pwr.st = .up) (hk : k < 16)
    (hen : (s.rail k).en = true) :
    ∃ t, execSupplyLost s = .next t ∧ t.pwr.st = .falling ∧ t.pwr.latch = s.pwr.latch ∧ t.pwr.supplyLost = true ∧
      t.atoll.supplyLost = true ∧
      (t.flt.presented.getLast?.map fun r => (r.source, r.unit)) = some (0x0243, none) := by
  obtain ⟨j, hj⟩ := topEnabled_exists s k hk hen
  obtain ⟨u, hu⟩ : ∃ u : State, { s with
    pwr := { s.pwr with supplyLost := true }, atoll := { s.atoll with supplyLost := true } } = u := ⟨_, rfl⟩
  have hexec : execSupplyLost s = .next (present 0x0243 none 0 (startFalling 5 u)) := by
    unfold execSupplyLost
    rw [if_neg (by simp [hmon])]
    dsimp only
    rw [if_pos (by simp [hst]), hu]
  have htop : topEnabled u = some j := by
    rw [← hj, ← hu]
    exact topEnabled_congr s _ rfl
  obtain ⟨hpwr, hatoll, -⟩ := startFalling_effect 5 u j htop
  refine ⟨_, hexec, (congrArg Pwr.st hpwr :), (congrArg Pwr.latch hpwr :).trans ?_, (congrArg Pwr.supplyLost hpwr :).trans ?_,
    (congrArg Atoll.supplyLost hatoll :).trans ?_, present_last ..⟩
  all_goals rw [← hu]

theorem execSupplyReturn_held (s : State) (hmon : s.atoll.supplyMon = true) (hauto : s.atoll.autoRestart = true)
    (hst : s.pwr.st = .minOff) (hmain : s.atoll.main = true) :
    execSupplyReturn s = .next { s with pwr := { s.pwr with supplyLost := false, heldOn := true } } := by
  simp [execSupplyReturn, hmon, hauto, hst, hmain]

theorem execSupplyReturn_wakes (s : State) (hmon : s.atoll.supplyMon = true) (hauto : s.atoll.autoRestart = true)
    (hmain : s.atoll.main = false) :
    ∃ t, execSupplyReturn s = .next t ∧ t.atoll.main = true ∧ t.atoll.wakeCause = 9 ∧ t.pwr.supplyLost = false := by
  have hexec : execSupplyReturn s = .next (wake 9 { s with pwr := { s.pwr with supplyLost := false } }) := by
    simp [execSupplyReturn, hmon, hauto, hmain]
  rw [hexec, wake_off 9 _ (by exact hmain)]
  exact ⟨_, rfl, rfl, rfl, rfl⟩

/-! ### The battery (R441, R444) -/

theorem execVbatLow_full (mv : Nat) (s : State) (h : 1800 ≤ mv) :
    execVbatLow mv s = .next { s with pwr := { s.pwr with vbatMv := mv } } := by
  unfold execVbatLow
  dsimp only
  rw [if_neg (by omega), if_neg (by simp; omega)]

theorem execVbatLow_low (mv : Nat) (s : State) (hlo : 1500 ≤ mv) (hhi : mv < 1800) :
    (s.atoll.main = true →
      execVbatLow mv s = .next (present 0x0246 none 0 { s with pwr := { s.pwr with vbatMv := mv } })) ∧
    (s.atoll.main = false → execVbatLow mv s = .next { s with pwr := { s.pwr with vbatMv := mv } }) := by
  unfold execVbatLow
  dsimp only
  rw [if_neg (by omega)]
  exact ⟨fun hmain => by rw [if_pos (by simp [hhi, hmain])], fun hmain => by rw [if_neg (by simp [hmain])]⟩

theorem execVbatLow_resets (mv : Nat) (s : State) (h : mv < 1500) :
    ∃ t, execVbatLow mv s = .next t ∧ t.atoll = {} ∧ t.pwr.vbatMv = mv := by
  unfold execVbatLow
  dsimp only
  rw [if_pos h]
  refine ⟨_, rfl, rfl, ?_⟩
  unfold atollReset
  split <;> rfl

/-! ### Wake comparators and alarms (R439, R440, R442) -/

theorem execWakeComparatorFire_none (n : Nat) (rising : Bool) (s : State) (h : 4 ≤ n ∨ s.atoll.wakePol.getLsbD n ≠ rising) :
    execWakeComparatorFire n rising s = .next s := by
  unfold execWakeComparatorFire
  rw [if_pos (by rcases h with h | h <;> simp [h])]

theorem execWakeComparatorFire_fires (n : Nat) (rising : Bool) (s : State) (hn : n < 4) (hpol : s.atoll.wakePol.getLsbD n = rising) :
    ∃ t, execWakeComparatorFire n rising s = .next t ∧ t.atoll.wakeFlag = s.atoll.wakeFlag ||| (1#4 <<< n) ∧
      (s.atoll.main = false → s.atoll.wakeEn.getLsbD n = true →
        t.atoll.main = true ∧ t.atoll.wakeCause = BitVec.ofNat 4 (n + 1)) ∧
      (s.atoll.wakeEn.getLsbD n = false → t.atoll.main = s.atoll.main) ∧ { t with atoll := s.atoll } = s := by
  unfold execWakeComparatorFire
  rw [if_neg (by simp [hpol]; omega)]
  dsimp only
  cases hen : s.atoll.wakeEn.getLsbD n
  · rw [if_neg (by decide)]
    exact ⟨_, rfl, rfl, fun _ h => Bool.noConfusion h, fun _ => rfl, rfl⟩
  · rw [if_pos rfl]
    cases hmain : s.atoll.main
    · rw [wake_off _ _ (by rfl)]
      exact ⟨_, rfl, rfl, fun _ _ => ⟨rfl, rfl⟩, fun h => Bool.noConfusion h, rfl⟩
    · unfold wake
      rw [if_pos (by rfl)]
      exact ⟨_, rfl, rfl, fun h => Bool.noConfusion h, fun h => Bool.noConfusion h, rfl⟩

theorem advance_atoll (s : State) (k : Nat) : (s.advance k).atoll = rtcAdvance k s.atoll := by
  unfold State.advance
  dsimp only
  split <;> rfl

/-- The clock reaches the compare value at the tick that was computed for it. -/
theorem rtc_reaches (a : Atoll) (v : Nat) (hv : a.rtc.toNat ≤ v) (hv48 : v < 2 ^ 48) :
    (rtcAdvance (ticksToAlarm a v) a).rtc.toNat = v := by
  have hacc := a.rtcAcc.isLt
  have hcount : (a.rtcAcc.val + 8 * ticksToAlarm a v) / 390625 = v - a.rtc.toNat := by
    unfold ticksToAlarm ceilDiv
    rw [if_neg (by decide)]
    omega
  unfold rtcAdvance
  dsimp only
  rw [hcount, BitVec.toNat_add, BitVec.toNat_ofNat]
  omega

theorem execRtcAlarm_none (n : Nat) (s : State) (h : 4 ≤ n ∨ s.atoll.alarmEn.getLsbD n = false) : execRtcAlarm n s = .next s := by
  unfold execRtcAlarm
  dsimp only
  rw [if_pos (by rcases h with h | h <;> simp [h])]

theorem execRtcAlarm_fires (n v : Nat) (s : State) (hv : v = (at' s.atoll.alarms n 0).toNat) (hn : n < 4)
    (hen : s.atoll.alarmEn.getLsbD n = true) (hle : s.atoll.rtc.toNat ≤ v) :
    ∃ t, execRtcAlarm n s = .next t ∧ t.atoll.alarmFlag = s.atoll.alarmFlag ||| (1#4 <<< n) ∧
      t.atoll.rtc.toNat = v ∧
      (s.atoll.main = false → s.atoll.alarmWake.getLsbD n = true →
        t.atoll.main = true ∧ t.atoll.wakeCause = BitVec.ofNat 4 (5 + n)) := by
  have hreach := rtc_reaches s.atoll v hle (hv ▸ (at' s.atoll.alarms n 0).isLt)
  obtain ⟨u, hu⟩ : ∃ u, u = s.advance (ticksToAlarm s.atoll v) := ⟨_, rfl⟩
  have hatoll : u.atoll = rtcAdvance (ticksToAlarm s.atoll v) s.atoll := hu ▸ advance_atoll s _
  obtain ⟨w, hw⟩ : ∃ w : State, w = { u with atoll := { u.atoll with alarmFlag := u.atoll.alarmFlag ||| (1#4 <<< n) } } := ⟨_, rfl⟩
  have hwatoll : w.atoll = { rtcAdvance (ticksToAlarm s.atoll v) s.atoll with alarmFlag := s.atoll.alarmFlag ||| (1#4 <<< n) } := by
    rw [hw, hatoll]
    rfl
  have hexec : execRtcAlarm n s = if w.atoll.main then .next (queueEvent 0x1240 (leBytes 1 n ++ zeros 3) w)
      else .next (if w.atoll.alarmWake.getLsbD n then wake (5 + n) w else w) := by
    unfold execRtcAlarm
    dsimp only
    rw [← hv, if_neg (by simp [hen]; omega), hw, hu]
  have hevent : (queueEvent 0x1240 (leBytes 1 n ++ zeros 3) w).atoll = w.atoll :=
    (congrArg State.atoll (queueEvent_frame 0x1240 (leBytes 1 n ++ zeros 3) w) :)
  have hmain : w.atoll.main = s.atoll.main := (congrArg Atoll.main hwatoll :)
  have hwake : w.atoll.alarmWake = s.atoll.alarmWake := (congrArg Atoll.alarmWake hwatoll :)
  have hflag : w.atoll.alarmFlag = s.atoll.alarmFlag ||| (1#4 <<< n) := (congrArg Atoll.alarmFlag hwatoll :)
  have hrtc : w.atoll.rtc.toNat = v := (congrArg (fun a : Atoll => a.rtc.toNat) hwatoll :).trans hreach
  rw [hexec, hmain, hwake]
  cases hon : s.atoll.main
  · rw [if_neg (by decide)]
    refine ⟨_, rfl, ?_⟩
    cases s.atoll.alarmWake.getLsbD n
    · exact ⟨hflag, hrtc, fun _ h => Bool.noConfusion h⟩
    · rw [if_pos rfl, wake_off _ w (hmain.trans hon)]
      exact ⟨hflag, hrtc, fun _ _ => ⟨rfl, rfl⟩⟩
  · refine ⟨_, if_pos rfl, ?_⟩
    rw [hevent]
    exact ⟨hflag, hrtc, fun h => Bool.noConfusion h⟩

/-- One second is 32,768 counts, with no remainder (R442). -/
theorem advance_second (s : State) : (s.advance ticksPerSecond).atoll.rtc = s.atoll.rtc + 32768 ∧
    (s.advance ticksPerSecond).atoll.rtcAcc = s.atoll.rtcAcc := by
  have hacc := s.atoll.rtcAcc.isLt
  have hsec : ticksPerSecond = 1600000000 := rfl
  have hcount : (s.atoll.rtcAcc.val + 8 * ticksPerSecond) / 390625 = 32768 := by
    rw [hsec]
    omega
  have hrest : (s.atoll.rtcAcc.val + 8 * ticksPerSecond) % 390625 = s.atoll.rtcAcc.val := by
    rw [hsec]
    omega
  rw [advance_atoll]
  unfold rtcAdvance
  dsimp only
  rw [hcount]
  exact ⟨rfl, Fin.ext hrest⟩

/-! ### Registers (R443) -/

theorem take_drop_flatMap {α : Type} (size : Nat) (f : α → List Byte) (hf : ∀ x, (f x).length = size) (l : List α) (k : Nat)
    (hk : k < l.length) : ((l.flatMap f).drop (size * k)).take size = f l[k] := by
  induction l generalizing k with
  | nil => cases hk
  | cons x l ih =>
    rw [List.flatMap_cons]
    cases k with
    | zero => simp [← hf x]
    | succ k =>
      have hskip : size * (k + 1) = (f x).length + size * k := by rw [hf, Nat.mul_succ, Nat.add_comm]
      rw [hskip, ← List.drop_drop, List.drop_left, ih k (by simpa using hk), List.getElem_cons_succ]

theorem execAtollRegRead_reads (rq : Req) (s s' : State) (hs : served 0x1206 rq s = true) (halign : rq.u8 0 % 4 = 0)
    (hn : 1 ≤ rq.u8 1) (hn' : rq.u8 1 ≤ 16) (hend : rq.u8 0 + 4 * rq.u8 1 ≤ 0x80)
    (hs' : s' = if rq.u8 0 = 0 then
      { s with atoll := { s.atoll with rtcHiRead := BitVec.ofNat 16 (s.atoll.rtc.toNat / 2 ^ 32) } } else s) :
    ∃ p, execAtollRegRead rq s = .next (respond rq 0x1206 Status.ok p s') ∧ p.length = 4 * rq.u8 1 ∧
      ∀ k, k < rq.u8 1 → (p.drop (4 * k)).take 4 = leBytes 4 (atlRead s'.atoll (rq.u8 0 + 4 * k)) := by
  unfold execAtollRegRead
  refine ⟨(List.range (rq.u8 1)).flatMap fun k => leBytes 4 (atlRead s'.atoll (rq.u8 0 + 4 * k)),
    (command_pass 0x1206 rq _ _ s hs (by simp; omega)).trans ?_, ?_, fun k hk => ?_⟩
  · rw [hs']
    rfl
  · rw [length_flatMap_const 4 _ (fun _ => length_leBytes 4 _), List.length_range]
  · rw [take_drop_flatMap 4 _ (fun _ => length_leBytes 4 _) _ k (by simpa using hk), List.getElem_range]

theorem execAtollRegWrite_writes (rq : Req) (s : State) (hs : served 0x1207 rq s = true) (halign : rq.u8 0 % 4 = 0)
    (hlt : rq.u8 0 < 0x80) :
    execAtollRegWrite rq s =
      .next (respond rq 0x1207 Status.ok [] { s with atoll := atlWrite s.atoll (rq.u8 0) (rq.u32 4) }) := by
  unfold execAtollRegWrite
  exact command_pass 0x1207 rq _ _ s hs (by simp; omega)

theorem atlWrite_ret (a : Atoll) (k v : Nat) (hk : k < 16) :
    atlWrite a (0x40 + 4 * k) v = { a with ret := modAt a.ret k fun _ => BitVec.ofNat 32 v } := by
  have hidx : (0x40 + 4 * k - 0x40) / 4 = k := by omega
  unfold atlWrite
  dsimp only
  rw [if_neg (by omega), if_neg (by omega), if_neg (by omega), if_neg (by omega), if_neg (by omega), if_neg (by omega),
    if_neg (by omega), if_pos (by omega), hidx]

theorem atlRead_ret (a : Atoll) (k : Nat) (hk : k < 16) : atlRead a (0x40 + 4 * k) = (at' a.ret k 0).toNat := by
  have hidx : (0x40 + 4 * k - 0x40) / 4 = k := by omega
  unfold atlRead
  rw [if_neg (by omega), if_neg (by omega), if_neg (by omega), if_neg (by omega), if_neg (by omega), if_neg (by omega),
    if_neg (by omega), if_pos (by omega), hidx]

theorem atlRead_atlWrite_ret (a : Atoll) (k v : Nat) (hlen : a.ret.length = 16) (hk : k < 16) (hv : v < 2 ^ 32) :
    atlRead (atlWrite a (0x40 + 4 * k) v) (0x40 + 4 * k) = v ∧
    ∀ o, o % 4 = 0 → o ≠ 0x40 + 4 * k → atlRead (atlWrite a (0x40 + 4 * k) v) o = atlRead a o := by
  rw [atlWrite_ret a k v hk]
  refine ⟨?_, fun o ho hne => ?_⟩
  · rw [atlRead_ret _ k hk, at'_modAt_same _ _ _ _ (by omega), BitVec.toNat_ofNat, Nat.mod_eq_of_lt hv]
  · by_cases hret : 0x40 ≤ o ∧ o < 0x80
    · obtain ⟨j, rfl⟩ : ∃ j, o = 0x40 + 4 * j := ⟨(o - 0x40) / 4, by omega⟩
      rw [atlRead_ret _ j (by omega), atlRead_ret _ j (by omega), at'_modAt_ne _ _ _ _ _ (by omega)]
    · unfold atlRead
      dsimp only
      rw [if_neg hret, if_neg hret]

theorem atlWrite_rtc (a : Atoll) (hi lo : Nat) (hhi : hi < 2 ^ 16) :
    (atlWrite (atlWrite a 0x04 hi) 0x00 lo).rtc = BitVec.ofNat 48 (hi * 2 ^ 32 + lo) ∧
    (atlWrite (atlWrite a 0x04 hi) 0x00 lo).rtcValid = true := by
  refine ⟨?_, rfl⟩
  change BitVec.ofNat 48 ((BitVec.ofNat 16 hi).toNat * 2 ^ 32 + lo) = _
  rw [BitVec.toNat_ofNat, Nat.mod_eq_of_lt hhi]

/-- Settles O50. -/
theorem atollKeepsItsRegisters : Obligations.AtollKeepsItsRegisters := by
  refine ⟨execPwrbtnPress_held, execPwrbtnPress_wakes, execPwrbtnPress_clears, execPwrbtnForcedOff_drops, fun _ => rfl,
    execNsysfaultIn_high, execNsysfaultIn_off, execNsysfaultIn_own, ?_, supply_unwatched, ?_, execSupplyReturn_held,
    execSupplyReturn_wakes, fun _ => rfl, execVbatLow_full, execVbatLow_low, execVbatLow_resets, execWakeComparatorFire_none,
    execWakeComparatorFire_fires, ?_, execRtcAlarm_none, advance_second, ?_, execAtollRegWrite_writes, atlRead_atlWrite_ret,
    fun _ _ => ⟨rfl, rfl⟩, ?_⟩
  · intro k s _ hmain hpull hst hk hen
    exact execNsysfaultIn_latches k s hmain hpull hst hk hen
  · intro k s _ hmon hst hk hen
    exact execSupplyLost_falls k s hmon hst hk hen
  · intro n s v hn hen hle
    exact execRtcAlarm_fires n v s rfl hn hen hle
  · intro rq s hs halign hn hn' hend hi s'
    exact execAtollRegRead_reads rq s s' hs halign hn hn' hend rfl
  · intro a hi lo hhi _
    exact atlWrite_rtc a hi lo hhi

end Sys2Proof.Machine
end

section
/-!
PROOFS. Lamp strings (spec/20_lighting.md R445 to R454, the commands of group 0x13): `LampStringsAreWatched`.
-/
namespace Sys2Proof.Machine

open Sys2Proof

/-! ### Lamps and the permit -/

theorem lampOf_modLamp_same (s : State) (i : Nat) (f : Lamp → Lamp) (hi : i < s.lamps.length) :
    (s.modLamp i f).lampOf i = f (s.lampOf i) := at'_modAt_same s.lamps i f {} hi

theorem lampOf_modLamp_ne (s : State) (i k : Nat) (f : Lamp → Lamp) (hk : k ≠ i) : (s.modLamp i f).lampOf k = s.lampOf k :=
  at'_modAt_ne s.lamps i k f {} hk.symm

theorem lampOf_of_lamps {s t : State} (h : t.lamps = s.lamps) (i : Nat) : t.lampOf i = s.lampOf i := by
  unfold State.lampOf
  rw [h]

theorem respond_lampOf (rq : Req) (code status : Nat) (p : List Byte) (s : State) (i : Nat) :
    (respond rq code status p s).lampOf i = s.lampOf i := respond_of (fun u => u.lampOf i) rq code status p s fun _ _ => rfl

theorem Gates.lamps {s t : State} (h : Gates s t) : t.lamps = s.lamps := (congrArg State.lamps h.1.1 :)

/-- A change of the permit leaves the lamps, and what has been presented. -/
theorem permitUpdate_effect (s : State) : (permitUpdate s).lamps = s.lamps ∧ (permitUpdate s).mci.era = s.mci.era ∧
    ∀ r ∈ s.flt.presented, r ∈ (permitUpdate s).flt.presented := by
  have hungate (u : State) : { roleUngate u with links := u.links } = u := clearCause_frame ..
  unfold permitUpdate
  (repeat' split)
  · exact ⟨rfl, rfl, fun _ h => h⟩
  · have hframe := hungate { s with forge := { s.forge with permitSince := some (permitFrom s), permitLost := false } }
    refine ⟨(congrArg State.lamps hframe :), (congrArg (fun u : State => u.mci.era) hframe :), fun r hr => ?_⟩
    rw [(congrArg State.flt hframe :)]
    exact hr
  · exact ⟨rfl, rfl, fun _ h => h⟩
  · have hgates := gates_setCauseBy 2 (List.range s.nHeads) 2 0xFF 0
      { s with forge := { s.forge with permitSince := none, permitLost := true } }
    have hkept := unitsKept_setCauseBy 2 (List.range s.nHeads) 2 0xFF 0
      { s with forge := { s.forge with permitSince := none, permitLost := true } }
    exact ⟨hgates.lamps, hgates.era, fun r hr => (unitsKept_present 0x0108 none 0 _).presented r (hkept.presented r hr)⟩

/-! ### Commands -/

theorem execLightStringConfig_tests (rq : Req) (s : State) (i : Nat) (x : Lamp) (hs : served 0x1301 rq s = true)
    (hlen : s.lamps.length = 8) (hi : i = rq.u8 0) (hx : x = s.lampOf i) (hlt : i < 8) (hon : rq.u8 1 = 1) (hfun : rq.u8 3 ≤ 1)
    (hreg : rq.u8 3 = 1 → rq.bit 2 0 = true) (hlamps : 1 ≤ rq.u8 4) (hlamps' : rq.u8 4 ≤ 16) (hlevel : rq.u16 6 ≤ 1000)
    (hmv : 100 ≤ rq.u16 8) (hmv' : rq.u16 8 ≤ 1200) (hhz : 200 ≤ rq.u16 10) (hhz' : rq.u16 10 ≤ 20000)
    (hregulated : rq.bit 2 0 = true → 100 ≤ rq.u16 6 ∧ rq.u16 12 = 0) (hpermit : permitHeld s i = false)
    (hst : x.st = 0 ∨ (x.st = 3 ∧ unackedSource s 0x0261 = false)) :
    ∃ t, execLightStringConfig rq s = .next t ∧ (t.lampOf i).st = 1 ∧ (t.lampOf i).level = rq.u16 6 ∧
      (t.lampOf i).lamps = rq.u8 4 ∧ (t.lampOf i).regulated = rq.bit 2 0 ∧ (t.lampOf i).functionOk = false ∧
      (t.lampOf i).failed = 0 ∧ (t.lampOf i).ctx = some (rq.ctx s 0x1301) ∧
      (∀ k, k ≠ i → t.lampOf k = s.lampOf k) := by
  subst hi hx
  have hrises : ((s.lampOf (rq.u8 0)).st = 0 || (s.lampOf (rq.u8 0)).st = 3 : Bool) = true := by
    rcases hst with h | ⟨h, -⟩ <;> simp [h]
  unfold execLightStringConfig
  refine ⟨_, (command_pass 0x1301 rq _ _ s hs ?_), ?_⟩
  · simp only [List.forall_mem_cons]
    refine ⟨by simpa using hlt, hpermit, ?_, ?_, List.forall_mem_nil _⟩
    · cases hb : rq.bit 2 0
      · have hzero : rq.u8 3 ≠ 1 := fun h => Bool.noConfusion (hb.symm.trans (hreg h))
        simp
        omega
      · obtain ⟨hl, hm⟩ := hregulated hb
        simp
        omega
    · rcases hst with h | ⟨-, h⟩ <;> simp [h]
  simp only [hon, hrises, decide_true, Bool.true_and, Bool.not_true, Bool.false_or, Bool.false_and, Bool.false_eq_true, if_true,
    if_false]
  generalize hu : s.modLamp (rq.u8 0) _ = u
  obtain ⟨hkept, hera, -⟩ := permitUpdate_effect u
  have hctx : rq.ctx (permitUpdate u) 0x1301 = rq.ctx s 0x1301 := by
    unfold Req.ctx
    rw [hera, ← hu]
    rfl
  have hplen : rq.u8 0 < (permitUpdate u).lamps.length := by
    rw [hkept, ← hu]
    simpa [State.modLamp, hlen] using hlt
  have hsame := lampOf_modLamp_same (permitUpdate u) (rq.u8 0) (fun y => { y with ctx := some (rq.ctx (permitUpdate u) 0x1301) }) hplen
  have hlamp := lampOf_of_lamps hkept (rq.u8 0)
  unfold accept
  simp only [respond_lampOf]
  rw [hsame, hlamp, ← hu, lampOf_modLamp_same s (rq.u8 0) _ (by omega), hu, hctx]
  refine ⟨rfl, rfl, rfl, rfl, rfl, rfl, rfl, fun k hk => ?_⟩
  rw [lampOf_modLamp_ne _ _ _ _ hk, lampOf_of_lamps hkept, ← hu, lampOf_modLamp_ne _ _ _ _ hk]

theorem execLightStringLevel_sets (rq : Req) (s : State) (hs : served 0x1302 rq s = true) (hlt : rq.u8 0 < 8)
    (hlevel : rq.u16 2 ≤ 1000) (hreg : (s.lampOf (rq.u8 0)).regulated = true → 100 ≤ rq.u16 2)
    (hpermit : permitHeld s (rq.u8 0) = false) (hfail : (s.lampOf (rq.u8 0)).failAt ≠ some s.time)
    (hst : (s.lampOf (rq.u8 0)).st ≠ 3) :
    execLightStringLevel rq s = .next (respond rq 0x1302 Status.ok [] (s.modLamp (rq.u8 0) fun y =>
      { y with level := rq.u16 2, levelWas := y.inForce s.time,
               levelFrom := if 100 ≤ rq.u16 2 then s.time else y.nextPeriod s.time })) := by
  unfold execLightStringLevel
  refine command_pass 0x1302 rq _ _ s hs ?_
  simp only [List.forall_mem_cons]
  refine ⟨by simpa using hlt, hpermit, ?_, by simp [hfail], by simp [hst], List.forall_mem_nil _⟩
  cases hb : (s.lampOf (rq.u8 0)).regulated
  · simpa using hlevel
  · have hmin := hreg hb
    simp
    omega

theorem lamp_outputs (x : Lamp) (now : BitVec 64) :
    (100 ≤ x.inForce now → x.refOut now = x.inForce now * x.refMv ∧ x.enPin now = true) ∧
    (0 < x.inForce now → x.inForce now < 100 → x.refOut now = 100 * x.refMv) ∧
    (x.inForce now = 0 → x.refOut now = 0 ∧ x.enPin now = false) := by
  unfold Lamp.refOut Lamp.enPin
  generalize x.inForce now = v
  dsimp only
  refine ⟨fun h => ⟨?_, by simp [h]⟩, fun hpos h => ?_, fun h => ⟨if_pos h, by simp [h]⟩⟩
  · rw [if_neg (by omega), if_neg (by omega)]
  · rw [if_neg (by omega), if_pos h]

theorem execLightStringStatus_replies (rq : Req) (s : State) (hs : served 0x1303 rq s = true) (hlt : rq.u8 0 < 8) :
    ∃ p, execLightStringStatus rq s = .next (respond rq 0x1303 Status.ok p s) ∧ p.length = 16 ∧
      leAt p 2 2 = (s.lampOf (rq.u8 0)).failed.toNat ∧ leAt p 8 4 = (s.lampOf (rq.u8 0)).lampFails.n ∧
      leAt p 12 4 = (s.lampOf (rq.u8 0)).commErrors.n := by
  unfold execLightStringStatus
  refine ⟨_, command_pass 0x1303 rq _ _ s hs (by simpa using hlt), ?_⟩
  generalize s.lampOf (rq.u8 0) = x
  simp only [List.append_assoc]
  refine ⟨by simp [Count.bytes], ?_, ?_, ?_⟩
  · simpa [leAt_left, leAt_right, leAt_leBytes] using x.failed.isLt
  · simpa [leAt_left, leAt_right, leAt_leBytes, Count.bytes, Count.n] using x.lampFails.val.isLt
  · simpa [leAt_left, leAt_right, leAt_leBytes, Count.bytes, Count.n] using x.commErrors.val.isLt

theorem execLightMatrixRaw_sets (rq : Req) (s : State) (hs : served 0x1380 rq s = true) (hlt : rq.u8 0 < 8)
    (hreg : (s.lampOf (rq.u8 0)).regulated = false) (hpermit : permitHeld s (rq.u8 0) = false) :
    execLightMatrixRaw rq s = .next (respond rq 0x1380 Status.ok (leBytes 4 (s.lampOf (rq.u8 0)).reports.toNat)
      (s.modLamp (rq.u8 0) fun y => { y with shunt := BitVec.ofNat 16 (rq.u16 2) })) := by
  unfold execLightMatrixRaw
  refine command_pass 0x1380 rq _ _ s hs ?_
  simp only [List.forall_mem_cons]
  exact ⟨by simpa using hlt, hpermit, hreg, List.forall_mem_nil _⟩

/-! ### A matrix frame is judged (R446, R448 to R451) -/

theorem execLampMatrixFrame_off (i : Nat) (frame : BitVec 64) (heard : Bool) (s : State) (h1 : (s.lampOf i).st ≠ 1)
    (h2 : (s.lampOf i).st ≠ 2) : execLampMatrixFrame i frame heard s = .next s := by simp [execLampMatrixFrame, h1, h2]

theorem execLampMatrixFrame_dark (i : Nat) (frame : BitVec 64) (heard : Bool) (s : State) (x : Lamp) (u : State)
    (hx : x = s.lampOf i) (hu : u = s.advanceTo (x.frameAt.toNat + ticksPerMs / 10)) (hst : x.st = 1 ∨ x.st = 2)
    (hen : x.enPin u.time = false) :
    execLampMatrixFrame i frame heard s = .next (u.modLamp i fun y => { y with reports := lampBits frame, frameAt := u.time }) := by
  subst hx
  unfold execLampMatrixFrame
  dsimp only
  rw [if_neg (by rcases hst with h | h <;> simp [h]), ← hu, if_pos (by simp [State.modLamp, hen])]

/-- The string as a judged frame leaves it, before a failure is confirmed. -/
def Lamp.judged (y : Lamp) (frame now : BitVec 64) (bad : List Nat) (fault : Bool) : Lamp :=
  { y with reports := lampBits frame, frameAt := now, suspect := lampMask bad, commBad := fault,
           commErrors := if fault then y.commErrors.inc else y.commErrors }

/-- What follows the confirmed failures of a string that is on: a regulated one switches off. -/
def afterFailing (i : Nat) (regulated : Bool) (fresh : List Nat) (s : State) : State :=
  if fresh ≠ [] then (if regulated then switchOff i s else s.modLamp i fun y => { y with st := 2, good := 0 }) else s

/-- A frame of a string that is on and driven. -/
theorem execLampMatrixFrame_on (i : Nat) (frame : BitVec 64) (heard : Bool) (s : State) (x : Lamp) (u : State) (fault : Bool)
    (bad fresh : List Nat) (hx : x = s.lampOf i) (hu : u = s.advanceTo (x.frameAt.toNat + ticksPerMs / 10)) (hst : x.st = 2)
    (hen : x.enPin u.time = true)
    (hfault : fault = (!heard || frame.setWidth 8 ≠ frameCrc frame || x.unshunted.any fun k => lampReport (lampBits frame) k = 3))
    (hbad : bad = if fault then [] else
      x.unshunted.filter fun k => lampReport (lampBits frame) k = 1 || lampReport (lampBits frame) k = 2)
    (hfresh : fresh = (if fault && x.commBad then x.unshunted else bad.filter fun k => x.suspect.getLsbD k).filter fun k =>
      !x.failed.getLsbD k) :
    let w := u.modLamp i fun y => y.judged frame u.time bad fault
    execLampMatrixFrame i frame heard s = .next (afterFailing i x.regulated fresh (failLamps i fresh
      (bad.filter fun k => lampReport (lampBits frame) k = 1)
      (if fault && x.commBad then present 0x0262 (some i) 0 w else w))) := by
  intro w
  have hw : w = (u.modLamp i fun y => { y with reports := lampBits frame, frameAt := u.time }).modLamp i fun y =>
      { y with suspect := lampMask bad, commBad := fault, commErrors := if fault then y.commErrors.inc else y.commErrors } := by
    unfold w State.modLamp
    dsimp only
    rw [modAt_modAt]
    rfl
  subst hx
  unfold execLampMatrixFrame
  dsimp only
  rw [if_neg (by simp [hst]), ← hu]
  have htime : (u.modLamp i fun y => { y with reports := lampBits frame, frameAt := u.time }).time = u.time := rfl
  rw [htime, if_neg (by simp [hen]), ← hfault, ← hbad, ← hw, ← hfresh]
  unfold afterFailing
  generalize failLamps i fresh _ _ = v
  by_cases hnone : fresh = []
  · rw [if_neg (not_not.mpr hnone), if_neg (not_not.mpr hnone), if_neg (by simp [hst])]
  · rw [if_pos hnone, if_pos hnone, if_neg (by simp [hst])]

end Sys2Proof.Machine
end

section
/-!
PROOFS. Lamp failures (spec/20_lighting.md R446, R448 to R451): `LampStringsAreWatched`.
-/
namespace Sys2Proof.Machine

open Sys2Proof

/-! ### What the confirmation of failures leaves -/

/-- What a frame's judgement sets and the confirmation of failures leaves. -/
def Lamp.comm (x : Lamp) : Count × Bool × BitVec 16 := (x.commErrors, x.commBad, x.suspect)

/-- The judgement of the string stays, and what was presented stays presented. -/
structure CommKept (i : Nat) (s t : State) : Prop where
  comm : (t.lampOf i).comm = (s.lampOf i).comm
  presented : ∀ r ∈ s.flt.presented, r ∈ t.flt.presented

theorem CommKept.refl (i : Nat) (s : State) : CommKept i s s := ⟨rfl, fun _ h => h⟩

theorem CommKept.trans {i : Nat} {s t u : State} (h : CommKept i s t) (g : CommKept i t u) : CommKept i s u :=
  ⟨g.comm.trans h.comm, fun r hr => g.presented r (h.presented r hr)⟩

theorem commKept_modLamp (i : Nat) (f : Lamp → Lamp) (s : State) (hf : ∀ x, (f x).comm = x.comm) : CommKept i s (s.modLamp i f) := by
  refine ⟨?_, fun _ h => h⟩
  unfold State.lampOf State.modLamp
  rw [at'_modAt]
  split
  · exact hf _
  · rfl

theorem commKept_present (i source : Nat) (unit : Option Nat) (detail : Nat) (s : State) :
    CommKept i s (present source unit detail s) := ⟨rfl, (unitsKept_present source unit detail s).presented⟩

theorem commKept_failLamps (i : Nat) (lamps opens : List Nat) (s : State) : CommKept i s (failLamps i lamps opens s) := by
  unfold failLamps
  induction lamps generalizing s with
  | nil => exact CommKept.refl i s
  | cons k lamps ih =>
    refine CommKept.trans ?_ (ih _)
    refine CommKept.trans ?_ (commKept_present ..)
    exact commKept_modLamp _ _ _ fun _ => rfl

theorem commKept_afterFailing (i : Nat) (regulated : Bool) (fresh : List Nat) (s : State) :
    CommKept i s (afterFailing i regulated fresh s) := by
  unfold afterFailing
  split
  · split
    · unfold switchOff
      dsimp only
      refine CommKept.trans ((commKept_modLamp i (fun x => { x with st := 3, functionOk := false }) s fun _ => rfl).trans
        (commKept_present i 0x0261 (some i) 0 _)) ?_
      obtain ⟨hlamps, -, hpresented⟩ := permitUpdate_effect
        (present 0x0261 (some i) 0 (s.modLamp i fun x => { x with st := 3, functionOk := false }))
      exact ⟨congrArg Lamp.comm (lampOf_of_lamps hlamps i), hpresented⟩
    · exact commKept_modLamp _ _ _ fun _ => rfl
  · exact CommKept.refl i s

/-! ### Good frames, and frames that fail (R446, R448) -/

theorem lamps_advanceTo (s : State) (t : Nat) : (s.advanceTo t).lamps = s.lamps := (congrArg State.lamps (advanceTo_frame s t) :)

theorem flt_advanceTo (s : State) (t : Nat) : (s.advanceTo t).flt = s.flt := (congrArg State.flt (advanceTo_frame s t) :)

theorem mem_unshunted {x : Lamp} {k : Nat} (h : k ∈ x.unshunted) : k < x.lamps :=
  List.mem_range.mp (List.mem_filter.mp h).1

/-- The string after the judgement of its frame. -/
theorem judged_lampOf (i : Nat) (frame : BitVec 64) (s u : State) (t : Nat) (bad : List Nat) (fault : Bool)
    (hu : u = s.advanceTo t) (hi : i < s.lamps.length) :
    (u.modLamp i fun y => y.judged frame u.time bad fault).lampOf i = (s.lampOf i).judged frame u.time bad fault ∧
      ∀ k, k ≠ i → (u.modLamp i fun y => y.judged frame u.time bad fault).lampOf k = s.lampOf k := by
  have hlamps : u.lamps = s.lamps := hu ▸ lamps_advanceTo s t
  refine ⟨?_, fun k hk => ?_⟩
  · rw [lampOf_modLamp_same u i _ (by rwa [hlamps]), lampOf_of_lamps hlamps]
  · rw [lampOf_modLamp_ne u i k _ hk, lampOf_of_lamps hlamps]

theorem execLampMatrixFrame_good (i : Nat) (frame : BitVec 64) (s : State) (x : Lamp) (u : State) (hx : x = s.lampOf i)
    (hu : u = s.advanceTo (x.frameAt.toNat + ticksPerMs / 10)) (hi : i < s.lamps.length) (hst : x.st = 2)
    (hen : x.enPin u.time = true) (hcrc : frame.setWidth 8 = frameCrc frame)
    (hgood : ∀ j, j < x.lamps → lampReport (lampBits frame) j = 0) :
    ∃ t, execLampMatrixFrame i frame true s = .next t ∧
      t.lampOf i = { x with reports := lampBits frame, frameAt := u.time, suspect := 0, commBad := false } ∧
      (∀ k, k ≠ i → t.lampOf k = s.lampOf k) ∧ { t with lamps := s.lamps } = u := by
  have hlamps : u.lamps = s.lamps := hu ▸ lamps_advanceTo s _
  have hnone (n : Nat) (hn : n ≠ 0) : (x.unshunted.any fun k => lampReport (lampBits frame) k = n) = false :=
    List.any_eq_false.mpr fun k hk => by simpa [hgood k (mem_unshunted hk)] using hn.symm
  have hfault : false = (!true || frame.setWidth 8 ≠ frameCrc frame || x.unshunted.any fun k => lampReport (lampBits frame) k = 3) := by
    rw [hnone 3 (by decide)]
    simp [hcrc]
  have hbad : [] = if false then [] else
      x.unshunted.filter fun k => lampReport (lampBits frame) k = 1 || lampReport (lampBits frame) k = 2 := by
    rw [if_neg (by decide)]
    exact (List.filter_eq_nil_iff.mpr fun k hk => by simp [hgood k (mem_unshunted hk)]).symm
  have hexec := execLampMatrixFrame_on i frame true s x u false [] [] hx hu hst hen hfault hbad rfl
  obtain ⟨hsame, hne⟩ := judged_lampOf i frame s u _ [] false hu hi
  refine ⟨_, hexec, ?_, hne, ?_⟩
  · rw [hx]
    exact hsame
  · rw [← hlamps]
    rfl

theorem execLampMatrixFrame_fault (i : Nat) (frame : BitVec 64) (heard : Bool) (s : State) (x : Lamp) (u : State)
    (hx : x = s.lampOf i) (hu : u = s.advanceTo (x.frameAt.toNat + ticksPerMs / 10)) (hi : i < s.lamps.length) (hst : x.st = 2)
    (hen : x.enPin u.time = true) (hbadFrame : heard = false ∨ frame.setWidth 8 ≠ frameCrc frame) :
    ∃ t, execLampMatrixFrame i frame heard s = .next t ∧ (t.lampOf i).commErrors = x.commErrors.inc ∧
      (t.lampOf i).commBad = true ∧ (t.lampOf i).suspect = 0 ∧
      (x.commBad = false → (t.lampOf i).failed = x.failed ∧ (t.lampOf i).st = 2 ∧ t.flt = s.flt) ∧
      (x.commBad = true → (0x0262, some i) ∈ t.flt.presented.map fun r => (r.source, r.unit)) := by
  have hfault : true = (!heard || frame.setWidth 8 ≠ frameCrc frame || x.unshunted.any fun k => lampReport (lampBits frame) k = 3) := by
    rcases hbadFrame with h | h <;> simp [h]
  obtain ⟨fresh, hfresh⟩ : ∃ fresh, fresh = (if true && x.commBad then x.unshunted else ([] : List Nat).filter fun k =>
      x.suspect.getLsbD k).filter fun k => !x.failed.getLsbD k := ⟨_, rfl⟩
  have hexec := execLampMatrixFrame_on i frame heard s x u true [] fresh hx hu hst hen hfault rfl hfresh
  obtain ⟨hsame, -⟩ := judged_lampOf i frame s u _ [] true hu hi
  dsimp only at hexec
  generalize hw : (u.modLamp i fun y => y.judged frame u.time [] true) = w at hexec hsame
  have hflt : w.flt = s.flt := by
    rw [← hw]
    exact hu ▸ flt_advanceTo s _
  have hkept (v : State) : CommKept i v (afterFailing i x.regulated fresh (failLamps i fresh
      (([] : List Nat).filter fun k => lampReport (lampBits frame) k = 1) v)) :=
    (commKept_failLamps ..).trans (commKept_afterFailing ..)
  have hpresent : CommKept i w (if true && x.commBad then present 0x0262 (some i) 0 w else w) := by
    split
    · exact commKept_present ..
    · exact CommKept.refl i w
  have hcomm := (hpresent.trans (hkept _)).comm
  rw [hsame] at hcomm
  simp only [Lamp.comm, Lamp.judged, Prod.mk.injEq, if_true] at hcomm
  obtain ⟨herrors, hcommBad, hsuspect⟩ := hcomm
  refine ⟨_, hexec, herrors.trans (by rw [hx]), hcommBad, hsuspect, fun hfirst => ?_, fun hsecond => ?_⟩
  · have hnone : fresh = [] := by simpa [hfirst] using hfresh
    rw [hnone, hfirst]
    refine ⟨?_, ?_, hflt⟩
    · exact (congrArg Lamp.failed hsame).trans (by rw [hx]; rfl)
    · exact (congrArg Lamp.st hsame).trans (by rw [← hst, hx]; rfl)
  · rw [hsecond, Bool.and_self, if_pos rfl]
    obtain ⟨r, hr, hraise⟩ := Option.map_eq_some_iff.mp (present_last 0x0262 (some i) 0 w)
    exact List.mem_map.mpr ⟨r, (hkept _).presented r (List.mem_of_getLast? hr), hraise⟩

/-! ### One lamp reports open (R448 to R451) -/

theorem unshunted_none (x : Lamp) (h : x.shunt = 0) : x.unshunted = List.range x.lamps := by
  unfold Lamp.unshunted
  rw [h]
  exact List.filter_eq_self.mpr fun k _ => by simp

/-- Of the lamps of a string without shunts, a test that holds of lamp `k` alone leaves `k`. -/
theorem filter_unshunted (x : Lamp) (k : Nat) (p : Nat → Bool) (hk : k < x.lamps) (hshunt : x.shunt = 0)
    (hp : ∀ j, j < x.lamps → p j = decide (j = k)) : x.unshunted.filter p = [k] := by
  rw [unshunted_none x hshunt, List.filter_congr fun j hj => hp j (List.mem_range.mp hj), List.filter_eq,
    List.count_eq_one_of_mem List.nodup_range (List.mem_range.mpr hk)]
  rfl

theorem lampMask_single (k : Nat) : lampMask [k] = 1#16 <<< k := by simp [lampMask]

theorem getLsbD_lampBit (k : Nat) (m : BitVec 16) (hk : k < 16) : (m ||| (1#16 <<< k)).getLsbD k = true := by
  simp [hk]

/-- A frame in which lamp `k` alone reports, open. -/
theorem execLampMatrixFrame_open (i k : Nat) (frame : BitVec 64) (s : State) (x : Lamp) (u : State) (fresh : List Nat)
    (hx : x = s.lampOf i) (hu : u = s.advanceTo (x.frameAt.toNat + ticksPerMs / 10)) (hst : x.st = 2)
    (hen : x.enPin u.time = true) (hcrc : frame.setWidth 8 = frameCrc frame) (hk : k < x.lamps) (hshunt : x.shunt = 0)
    (hfailed : x.failed = 0) (hreport : ∀ j, j < x.lamps → lampReport (lampBits frame) j = if j = k then 1 else 0)
    (hfresh : fresh = if x.suspect.getLsbD k then [k] else []) :
    execLampMatrixFrame i frame true s = .next (afterFailing i x.regulated fresh (failLamps i fresh [k]
      (u.modLamp i fun y => y.judged frame u.time [k] false))) := by
  have hfault : false = (!true || frame.setWidth 8 ≠ frameCrc frame || x.unshunted.any fun j => lampReport (lampBits frame) j = 3) := by
    have hnone : (x.unshunted.any fun j => lampReport (lampBits frame) j = 3) = false := by
      refine List.any_eq_false.mpr fun j hj => ?_
      rw [hreport j (mem_unshunted hj)]
      split <;> decide
    rw [hnone]
    simp [hcrc]
  have hbad : [k] = if false then [] else
      x.unshunted.filter fun j => lampReport (lampBits frame) j = 1 || lampReport (lampBits frame) j = 2 := by
    rw [if_neg (by decide), filter_unshunted x k _ hk hshunt fun j hj => ?_]
    rw [hreport j hj]
    by_cases hj : j = k <;> simp [hj]
  have hsuspects : fresh = (if false && x.commBad then x.unshunted else [k].filter fun j => x.suspect.getLsbD j).filter fun j =>
      !x.failed.getLsbD j := by
    rw [hfresh, hfailed]
    cases hb : x.suspect.getLsbD k <;> simp [hb]
  have hopens : ([k].filter fun j => lampReport (lampBits frame) j = 1) = [k] := by simp [hreport k hk]
  have hexec := execLampMatrixFrame_on i frame true s x u false [k] fresh hx hu hst hen hfault hbad hsuspects
  rwa [hopens] at hexec

theorem failLamps_single (i k : Nat) (s : State) : failLamps i [k] [k] s = present 0x0260 (some i) k (s.modLamp i fun x =>
    { x with failed := x.failed ||| (1#16 <<< k), lampFails := x.lampFails.inc, failAt := some s.time,
             shunt := if !x.regulated then x.shunt ||| (1#16 <<< k) else x.shunt }) := by
  simp [failLamps]

theorem present_detail (source : Nat) (unit : Option Nat) (detail : Nat) (s : State) :
    ((present source unit detail s).flt.presented.getLast?.map fun r => (r.source, r.unit, r.detail)) =
      some (source, unit, detail) := by
  simp [present, presentRaise]

theorem switchOff_lampOf (i k : Nat) (s : State) :
    (switchOff i s).lampOf k = (s.modLamp i fun x => { x with st := 3, functionOk := false }).lampOf k :=
  lampOf_of_lamps (permitUpdate_effect _).1 k

theorem execLampMatrixFrame_openLamp (i k : Nat) (frame : BitVec 64) (s : State) (x : Lamp) (u : State)
    (hx : x = s.lampOf i) (hu : u = s.advanceTo (x.frameAt.toNat + ticksPerMs / 10)) (hi : i < s.lamps.length) (hst : x.st = 2)
    (hen : x.enPin u.time = true) (hcrc : frame.setWidth 8 = frameCrc frame) (hk : k < x.lamps) (hk16 : k < 16)
    (hshunt : x.shunt = 0) (hfailed : x.failed = 0)
    (hreport : ∀ j, j < x.lamps → lampReport (lampBits frame) j = if j = k then 1 else 0) :
    (x.suspect.getLsbD k = true → x.regulated = false →
      ∃ t, execLampMatrixFrame i frame true s = .next t ∧ (t.lampOf i).failed.getLsbD k = true ∧
        (t.lampOf i).shunt.getLsbD k = true ∧ (t.lampOf i).st = 2 ∧ (t.lampOf i).lampFails = x.lampFails.inc ∧
        (t.flt.presented.getLast?.map fun r => (r.source, r.unit, r.detail)) = some (0x0260, some i, k)) ∧
    (x.suspect.getLsbD k = true → x.regulated = true →
      ∃ t, execLampMatrixFrame i frame true s = .next t ∧ (t.lampOf i).failed.getLsbD k = true ∧
        (t.lampOf i).st = 3 ∧ (t.lampOf i).functionOk = false) ∧
    (x.suspect.getLsbD k = false →
      ∃ t, execLampMatrixFrame i frame true s = .next t ∧ (t.lampOf i).failed = 0 ∧ (t.lampOf i).st = 2 ∧
        (t.lampOf i).suspect.getLsbD k = true ∧ t.flt = s.flt) := by
  have hexec := execLampMatrixFrame_open i k frame s x u _ hx hu hst hen hcrc hk hshunt hfailed hreport rfl
  obtain ⟨hsame, -⟩ := judged_lampOf i frame s u _ [k] false hu hi
  have hlen : i < (u.modLamp i fun y => y.judged frame u.time [k] false).lamps.length := by
    have hlamps : u.lamps = s.lamps := hu ▸ lamps_advanceTo s _
    simpa [State.modLamp, hlamps] using hi
  have hflt : (u.modLamp i fun y => y.judged frame u.time [k] false).flt = s.flt := hu ▸ flt_advanceTo s _
  rw [← hx] at hsame
  generalize (u.modLamp i fun y => y.judged frame u.time [k] false) = w at hexec hsame hlen hflt
  have hfail := lampOf_modLamp_same w i (fun x =>
    { x with failed := x.failed ||| (1#16 <<< k), lampFails := x.lampFails.inc, failAt := some w.time,
             shunt := if !x.regulated then x.shunt ||| (1#16 <<< k) else x.shunt }) hlen
  have hlast := present_detail 0x0260 (some i) k (w.modLamp i fun x =>
    { x with failed := x.failed ||| (1#16 <<< k), lampFails := x.lampFails.inc, failAt := some w.time,
             shunt := if !x.regulated then x.shunt ||| (1#16 <<< k) else x.shunt })
  rw [hsame] at hfail
  have hconfirm (f : Lamp → Lamp) := (lampOf_modLamp_same (present 0x0260 (some i) k (w.modLamp i fun x =>
    { x with failed := x.failed ||| (1#16 <<< k), lampFails := x.lampFails.inc, failAt := some w.time,
             shunt := if !x.regulated then x.shunt ||| (1#16 <<< k) else x.shunt })) i f
    (by simpa [present, presentRaise, State.modLamp] using hlen)).trans (congrArg f hfail)
  refine ⟨fun hsus hreg => ?_, fun hsus hreg => ?_, fun hsus => ?_⟩
  · rw [hsus, if_pos rfl, hreg, failLamps_single] at hexec
    refine ⟨_, hexec, ?_⟩
    unfold afterFailing
    rw [if_pos (by simp), if_neg (by decide)]
    have hon := hconfirm (fun y => { y with st := 2, good := 0 })
    rw [hon]
    refine ⟨getLsbD_lampBit k _ hk16, ?_, rfl, rfl, hlast⟩
    have hopened : (x.judged frame u.time [k] false).regulated = false := hreg
    dsimp only
    rw [hopened, Bool.not_false, if_pos rfl]
    exact getLsbD_lampBit k _ hk16
  · rw [hsus, if_pos rfl, hreg, failLamps_single] at hexec
    refine ⟨_, hexec, ?_⟩
    unfold afterFailing
    rw [if_pos (by simp), if_pos rfl, switchOff_lampOf, hconfirm (fun y => { y with st := 3, functionOk := false })]
    exact ⟨getLsbD_lampBit k _ hk16, rfl, rfl⟩
  · rw [hsus, if_neg (by decide)] at hexec
    refine ⟨w, hexec, ?_, ?_, ?_, hflt⟩
    · rw [hsame]
      exact hfailed
    · rw [hsame]
      exact hst
    · rw [hsame]
      simp [Lamp.judged, lampMask_single, hk16]

/-- Settles O51: a frame is followed by `execLampMatrixFrame_on` to what it confirms; the commands by their checks. -/
theorem lampStringsAreWatched : Obligations.LampStringsAreWatched := by
  refine ⟨?_, execLightStringLevel_sets, lamp_outputs, execLightStringStatus_replies, execLightMatrixRaw_sets,
    execLampMatrixFrame_off, ?_, ?_, ?_⟩
  · intro rq s hs hlen i x hlt hon hfun hreg hlamps hlamps' hlevel hmv hmv' hhz hhz' hregulated hpermit hst
    exact execLightStringConfig_tests rq s i x hs hlen rfl rfl hlt hon hfun hreg hlamps hlamps' hlevel hmv hmv' hhz hhz' hregulated
      hpermit hst
  · intro i frame heard s x u hst hen
    exact execLampMatrixFrame_dark i frame heard s x u rfl rfl hst hen
  · intro i frame heard s x u hi hst hen
    refine ⟨fun hheard hcrc hgood => ?_, execLampMatrixFrame_fault i frame heard s x u rfl rfl hi hst hen⟩
    rw [hheard]
    exact execLampMatrixFrame_good i frame s x u rfl rfl hi hst hen hcrc hgood
  · intro i k frame s x u hi hst hen hcrc hk hk16 hshunt hfailed _ hreport
    exact execLampMatrixFrame_openLamp i k frame s x u rfl rfl hi hst hen hcrc hk hk16 hshunt hfailed hreport

end Sys2Proof.Machine
end

section
/-!
PROOFS. The times at which ALIVE may toggle (spec/21_faults.md R471) on a peer whose device time is slewed
(spec/03_phase_timebase.md R109): `FaultsAreAcknowledged`.
-/
namespace Sys2Proof.Machine

open Sys2Proof

/-! ### Slewing steps over a multiple of 800,000 ticks (R109, R471) -/

/-- A peer one tick before a multiple of 800,000. One sub-tick is still owed to it, and 63 have been added beyond whole ticks:
the next tick of the reference is the opportunity to slew, and device time goes on by two ticks at it. -/
def slewedPeer : State :=
  { timeRuns := true, time := 799999, sync := { mode := 2, st := 2, slew := 63, owed := 1, slewPhase := 63 } }

/-- Device time after a command. -/
def timeAfter : Out → Option (BitVec 64)
  | .next t => some t.time
  | _ => none

theorem slewedPeer_steps_over : timeAfter (exec .aliveToggle slewedPeer) = some 800001 := by decide +kernel

/-- Refutes O55: ALIVE_TOGGLE does not come at a multiple of 800,000 ticks on `slewedPeer`, whose device time passes from
799,999 to 800,001 in one tick of the reference. -/
theorem not_faultsAreAcknowledged : ¬ Obligations.FaultsAreAcknowledged := by
  unfold Obligations.FaultsAreAcknowledged
  rintro ⟨-, -, -, -, -, -, -, -, -, -, -, halive⟩
  obtain ⟨t, hexec, hmultiple, -⟩ := halive slewedPeer rfl (by decide)
  have htime := slewedPeer_steps_over
  rw [hexec] at htime
  rw [show t.time = 800001 from Option.some.inj htime] at hmultiple
  exact absurd hmultiple (by decide)

end Sys2Proof.Machine
end

section
/-!
PROOFS. Resets (spec/01_architecture.md R35, spec/19_power_atoll.md R430, R437, R441, spec/23_startup.md R491):
`ResetsKeepWhatTheyMust`.
-/
namespace Sys2Proof.Machine

open Sys2Proof

/-! ### What a reset leaves (R35, R485, R503) -/

theorem otpInterrupt_frame (burned : BitVec 32) (s : State) :
    { otpInterrupt burned s with free := s.free, otp := s.otp } = s ∧
      (otpInterrupt burned s).otp.redirects = s.otp.redirects ∧ (s.otp.burn = none → otpInterrupt burned s = s) := by
  unfold otpInterrupt
  cases s.otp.burn with
  | none => exact ⟨rfl, rfl, fun _ => rfl⟩
  | some b =>
    refine ⟨?_, ?_, fun h => nomatch h⟩ <;>
    · dsimp only
      cases b.todo <;> rfl

theorem updateInterrupt_frame (s : State) :
    { updateInterrupt s with free := s.free, boot := s.boot } = s ∧ (updateInterrupt s).boot.nmr = s.boot.nmr ∧
      (s.boot.update = none → updateInterrupt s = s) := by
  unfold updateInterrupt
  cases s.boot.update with
  | none => exact ⟨rfl, rfl, fun _ => rfl⟩
  | some r => exact ⟨rfl, rfl, fun h => nomatch h⟩

/-- The flash a reset leaves (R503). -/
def flashAfterReset (burned : BitVec 32) (s : State) : List Host.Cell := (updateInterrupt (otpInterrupt burned s)).boot.flash

theorem otpInterrupt_boot (burned : BitVec 32) (s : State) : (otpInterrupt burned s).boot = s.boot :=
  (congrArg State.boot (otpInterrupt_frame burned s).1 :)

theorem flashAfterReset_idle (burned : BitVec 32) (s : State) (h : s.boot.update = none) :
    flashAfterReset burned s = s.boot.flash := by
  unfold flashAfterReset
  rw [(updateInterrupt_frame _).2.2 (by rw [otpInterrupt_boot, h]), otpInterrupt_boot]

theorem updateSlot_congr {s t : State} (h : t.boot = s.boot) : updateSlot t = updateSlot s := by
  unfold updateSlot newerBlock bootBlock State.flashBytes
  rw [h]

/-- An update that is interrupted changes no byte outside the slot that it writes. -/
theorem flashAfterReset_outside (burned : BitVec 32) (s : State) (c : Ctx) (a n o : Nat) (h : s.boot.update = some (c, a, n))
    (hwf : cellsWf 0xFF s.boot.flash = true) (ho : o < slotAt (updateSlot s) ∨ slotAt (updateSlot s) + n ≤ o) :
    cellGet 0xFF (flashAfterReset burned s) o = cellGet 0xFF s.boot.flash o := by
  have hboot := otpInterrupt_boot burned s
  unfold flashAfterReset updateInterrupt
  rw [hboot, h]
  dsimp only
  rw [updateSlot_congr hboot, cellGet_cellsSet _ _ _ _ _ hwf, if_neg (by rw [length_freeBytes]; omega)]

/-- The device after a reset that leaves the sequencer, the OTP words and the flash named. -/
def resetTo (s : State) (pwr : Pwr) (cause : BitVec 4) (fatal : BitVec 16) (words : List OtpWord) (flash : List Host.Cell)
    (free : Nat) (links : List Link) : State :=
  { pending := s.pending, part := s.part, free := free, atoll := s.atoll, pwr := pwr, nStop := s.nStop, links := links,
    gpi := s.gpi.map Gpi.afterReset, motion := s.motion.map Axis.afterReset,
    otp := { words := words, redirects := s.otp.redirects },
    boot := { flash := flash, nmr := s.boot.nmr, latchedCause := cause, latchedFatal := fatal },
    mci := { sent := s.mci.sent }, dma := { toHost := s.dma.toHost } }

/-- The FATAL source that a reset latches (R501). -/
def fatalLatched (s : State) : BitVec 16 := match s.flt.fatal with
  | some q => BitVec.ofNat 16 q
  | none => 0xFFFF

theorem resetState_eq (pwr : Pwr) (cause : BitVec 4) (burned : BitVec 32) (s : State) :
    ∃ fatal words free links, resetState pwr cause burned s =
        resetTo s pwr cause fatal words (flashAfterReset burned s) free links ∧
      (s.otp.burn = none → words = s.otp.words) := by
  obtain ⟨hotp, hredirects, hburn⟩ := otpInterrupt_frame burned s
  have hnone : s.otp.burn = none → (otpInterrupt burned s).otp.words = s.otp.words := fun h => by rw [hburn h]
  have hboot : (otpInterrupt burned s).boot = s.boot := (congrArg State.boot hotp :)
  unfold resetState flashAfterReset
  generalize otpInterrupt burned s = u at hotp hredirects hnone hboot ⊢
  obtain ⟨hframe, hnmr, -⟩ := updateInterrupt_frame u
  generalize updateInterrupt u = v at hframe hnmr ⊢
  have hvotp : v.otp = u.otp := (congrArg State.otp hframe :)
  have hpending : v.pending = s.pending := (congrArg State.pending hframe :).trans (congrArg State.pending hotp :)
  have hpart : v.part = s.part := (congrArg State.part hframe :).trans (congrArg State.part hotp :)
  have hatoll : v.atoll = s.atoll := (congrArg State.atoll hframe :).trans (congrArg State.atoll hotp :)
  have hnStop : v.nStop = s.nStop := (congrArg State.nStop hframe :).trans (congrArg State.nStop hotp :)
  have hgpi : v.gpi = s.gpi := (congrArg State.gpi hframe :).trans (congrArg State.gpi hotp :)
  have hmotion : v.motion = s.motion := (congrArg State.motion hframe :).trans (congrArg State.motion hotp :)
  have hmci : v.mci = s.mci := (congrArg State.mci hframe :).trans (congrArg State.mci hotp :)
  have hdma : v.dma = s.dma := (congrArg State.dma hframe :).trans (congrArg State.dma hotp :)
  have hred : v.otp.redirects = s.otp.redirects := by rw [hvotp, hredirects]
  refine ⟨fatalLatched v, v.otp.words, v.free, List.replicate 24 { causes := causesAfterReset { v with pwr := pwr } }, ?_,
    fun h => by rw [hvotp, hnone h]⟩
  unfold resetTo
  dsimp only
  rw [hpending, hpart, hatoll, hnStop, hgpi, hmotion, hmci, hdma, hred, hnmr, hboot]
  rfl

/-! ### The start after a reset (R437, R491, R501) -/

theorem startOrHold_frame (straps : BitVec 4) (s : State) :
    { startOrHold straps s with boot := s.boot, clk := s.clk } = s ∧
      { (startOrHold straps s).boot with straps := s.boot.straps, cause := s.boot.cause, fatalSource := s.boot.fatalSource } =
        s.boot ∧
      (s.boot.nmr = false → (startOrHold straps s).boot.straps = straps ∧
        (startOrHold straps s).boot.cause = s.boot.latchedCause) := by
  unfold startOrHold
  cases hnmr : s.boot.nmr with
  | true => exact ⟨rfl, rfl, fun h => nomatch h⟩
  | false =>
    refine ⟨rfl, ?_, fun _ => ⟨rfl, rfl⟩⟩
    show { s.boot with nmr := false } = s.boot
    rw [← hnmr]

/-- What a reset and the start after it leave, whatever the reset. -/
theorem start_resetState (straps : BitVec 4) (pwr : Pwr) (cause : BitVec 4) (burned : BitVec 32) (s : State) :
    ∃ t, startOrHold straps (resetState pwr cause burned s) = t ∧ t.mci.st = .reset ∧ t.timeRuns = false ∧ t.time = 0 ∧
      t.atoll = s.atoll ∧ t.pwr = pwr ∧ t.otp.redirects = s.otp.redirects ∧
      (s.otp.burn = none → t.otp.words = s.otp.words) ∧ t.otp.burn = none ∧ t.boot.flash = flashAfterReset burned s ∧
      t.boot.update = none ∧ t.boot.nmr = s.boot.nmr ∧ t.boot.latchedCause = cause ∧
      (s.boot.nmr = false → t.boot.straps = straps ∧ t.boot.cause = cause) ∧ t.mci.boxes = List.replicate 8 {} ∧
      t.flt = {} ∧ t.mci.vlog = [] ∧ t.dram.mem = [] ∧ t.lag.data = [] ∧ t.held = 0x1FF ∧ t.pending = s.pending := by
  obtain ⟨fatal, words, free, links, heq, hwords⟩ := resetState_eq pwr cause burned s
  rw [heq]
  generalize hr : resetTo s pwr cause fatal words (flashAfterReset burned s) free links = r
  obtain ⟨hframe, hboot, hstart⟩ := startOrHold_frame straps r
  generalize startOrHold straps r = t at hframe hboot hstart
  subst hr
  exact ⟨t, rfl, (congrArg (fun u : State => u.mci.st) hframe :), (congrArg State.timeRuns hframe :),
    (congrArg State.time hframe :), (congrArg State.atoll hframe :), (congrArg State.pwr hframe :),
    (congrArg (fun u : State => u.otp.redirects) hframe :),
    fun h => (congrArg (fun u : State => u.otp.words) hframe :).trans (hwords h),
    (congrArg (fun u : State => u.otp.burn) hframe :), (congrArg Boot.flash hboot :), (congrArg Boot.update hboot :),
    (congrArg Boot.nmr hboot :), (congrArg Boot.latchedCause hboot :), hstart,
    (congrArg (fun u : State => u.mci.boxes) hframe :), (congrArg State.flt hframe :),
    (congrArg (fun u : State => u.mci.vlog) hframe :), (congrArg (fun u : State => u.dram.mem) hframe :),
    (congrArg (fun u : State => u.lag.data) hframe :), (congrArg State.held hframe :), (congrArg State.pending hframe :)⟩

/-! ### A device reset (R35, R430, R491, R503) -/

/-- The state in which a device reset comes: at its time where one is scheduled. -/
def atReset (s : State) : State := match s.mci.resetAt with
  | some t => s.advanceTo t.toNat
  | none => s

theorem atReset_frame (s : State) : { atReset s with atoll := s.atoll, time := s.time, sync := s.sync } = s := by
  unfold atReset
  cases s.mci.resetAt with
  | none => rfl
  | some t => exact advanceTo_frame s t.toNat

theorem execDeviceReset_on (straps : BitVec 4) (burned : BitVec 32) (s : State) (hmain : s.atoll.main = true) :
    execDeviceReset straps burned s = .next (startOrHold straps (resetState ((atReset s).pwr.afterReset (atReset s).time)
      (if (atReset s).mci.resetAt.isSome then (atReset s).boot.latchedCause else 1) burned (atReset s))) := by
  unfold execDeviceReset
  rw [hmain, if_neg (by simp)]
  rfl

theorem deviceReset_leaves (straps : BitVec 4) (burned : BitVec 32) (s u : State) (hmain : s.atoll.main = true)
    (hu : u = atReset s) :
    ∃ t, exec (.deviceReset straps burned) s = .next t ∧ t.mci.st = .reset ∧ t.timeRuns = false ∧ t.time = 0 ∧
      t.atoll = u.atoll ∧ t.pwr.rails = (s.pwr.rails.map fun r => { r with dropAt := r.dropAt - u.time }) ∧
      t.pwr.st = s.pwr.st ∧ t.otp.redirects = s.otp.redirects ∧
      (s.otp.burn = none → t.otp.words = s.otp.words) ∧ t.otp.burn = none ∧
      (s.boot.update = none → t.boot.flash = s.boot.flash) ∧ t.boot.update = none ∧ t.boot.nmr = s.boot.nmr ∧
      t.boot.latchedCause = (if s.mci.resetAt.isSome then s.boot.latchedCause else 1) ∧
      (s.boot.nmr = false → t.boot.straps = straps ∧ t.boot.cause = t.boot.latchedCause) ∧ t.mci.boxes = List.replicate 8 {} ∧
      t.flt.records = [] ∧ t.flt.log = [] ∧ t.mci.vlog = [] ∧ t.dram.mem = [] ∧ t.lag.data = [] ∧
      t.held = 0x1FF ∧ t.flt.watched = false ∧ t.pending = s.pending := by
  have hframe := atReset_frame s
  have hexec : exec (.deviceReset straps burned) s = _ := execDeviceReset_on straps burned s hmain
  rw [← hu] at hframe hexec
  have hpwr : u.pwr = s.pwr := (congrArg State.pwr hframe :)
  have hotp : u.otp = s.otp := (congrArg State.otp hframe :)
  have hboot : u.boot = s.boot := (congrArg State.boot hframe :)
  have hmci : u.mci = s.mci := (congrArg State.mci hframe :)
  obtain ⟨t, ht, hst, hruns, htime, hatoll, htpwr, hred, hwords, hburn, hflash, hupdate, hnmr, hcause, hstart, hboxes, hflt,
    hvlog, hmem, hdata, hheld, hpending⟩ := start_resetState straps (u.pwr.afterReset u.time)
      (if u.mci.resetAt.isSome then u.boot.latchedCause else 1) burned u
  rw [hboot, hmci] at hcause
  rw [hotp] at hwords hred
  rw [ht] at hexec
  refine ⟨t, hexec, hst, hruns, htime, hatoll, ?_, ?_, hred, hwords, hburn, fun h => ?_, hupdate, by rw [hnmr, hboot], hcause,
    fun h => ?_, hboxes, by rw [hflt], by rw [hflt], hvlog, hmem, hdata, hheld, by rw [hflt],
    hpending.trans (congrArg State.pending hframe :)⟩
  · rw [htpwr, ← hpwr]
    rfl
  · rw [htpwr, ← hpwr]
    rfl
  · rw [hflash, flashAfterReset_idle burned u (by rw [hboot, h]), hboot]
  · obtain ⟨hstraps, hc⟩ := hstart (by rw [hboot, h])
    exact ⟨hstraps, hc.trans (by rw [hcause, hboot, hmci])⟩

theorem deviceReset_update (straps : BitVec 4) (burned : BitVec 32) (c : Ctx) (a n o : Nat) (s : State)
    (hmain : s.atoll.main = true) (h : s.boot.update = some (c, a, n)) (hwf : cellsWf 0xFF s.boot.flash = true)
    (ho : o < slotAt (updateSlot s) ∨ slotAt (updateSlot s) + n ≤ o) :
    ∃ t, exec (.deviceReset straps burned) s = .next t ∧ t.flashBytes o 1 = s.flashBytes o 1 := by
  have hboot : (atReset s).boot = s.boot := (congrArg State.boot (atReset_frame s) :)
  have hexec : exec (.deviceReset straps burned) s = _ := execDeviceReset_on straps burned s hmain
  obtain ⟨t, ht, -, -, -, -, -, -, -, -, hflash, -⟩ := start_resetState straps ((atReset s).pwr.afterReset (atReset s).time)
    (if (atReset s).mci.resetAt.isSome then (atReset s).boot.latchedCause else 1) burned (atReset s)
  refine ⟨t, hexec.trans (by rw [ht]), ?_⟩
  have hbyte := flashAfterReset_outside burned (atReset s) c a n o (by rw [hboot, h]) (by rw [hboot, hwf])
    (by rw [updateSlot_congr hboot]; exact ho)
  unfold State.flashBytes
  rw [cellsGet, cellsGet, cellsGet, cellsGet, hflash, hbyte, hboot]

/-! ### Power-on reset and failure of the main supply (R430, R441, R501) -/

theorem powerOnReset_leaves (straps : BitVec 4) (s : State) (hmain : s.atoll.main = true) :
    ∃ t, exec (.powerOnReset straps) s = .next t ∧ t.mci.st = .reset ∧ t.timeRuns = false ∧ t.atoll = s.atoll ∧
      t.pwr.st = .down ∧ t.pwr.rails = List.replicate 16 {} ∧ (s.otp.burn = none → t.otp.words = s.otp.words) ∧
      (s.boot.update = none → t.boot.flash = s.boot.flash) ∧ t.boot.nmr = s.boot.nmr ∧ t.boot.latchedCause = 0 ∧
      (s.boot.nmr = false → t.boot.straps = straps ∧ t.boot.cause = 0) := by
  obtain ⟨burned, hb⟩ : ∃ b, BitVec.ofNat 32 (Config.freeNat s.free) = b := ⟨_, rfl⟩
  obtain ⟨fatal, words, free, links, heq, hwords⟩ := resetState_eq s.pwr.afterPowerOn 0 burned { s with free := s.free + 1 }
  have hflash := flashAfterReset_idle burned { s with free := s.free + 1 }
  generalize flashAfterReset burned { s with free := s.free + 1 } = flash at heq hflash
  obtain ⟨latched, hexec⟩ : ∃ latched, exec (.powerOnReset straps) s = .next (startOrHold straps
      (resetTo { s with free := s.free + 1 } s.pwr.afterPowerOn 0 latched words flash free links)) := by
    refine ⟨if s.timeRuns || s.flt.fatal.isSome then fatal else s.boot.latchedFatal, ?_⟩
    show execPowerOnReset straps s = _
    unfold execPowerOnReset
    dsimp only
    rw [hmain, if_neg (by simp), hb, heq]
    rfl
  obtain ⟨hframe, hboot, hstart⟩ := startOrHold_frame straps
    (resetTo { s with free := s.free + 1 } s.pwr.afterPowerOn 0 latched words flash free links)
  refine ⟨_, hexec, (congrArg (fun u : State => u.mci.st) hframe :), (congrArg State.timeRuns hframe :),
    (congrArg State.atoll hframe :), (congrArg (fun u : State => u.pwr.st) hframe :),
    (congrArg (fun u : State => u.pwr.rails) hframe :),
    fun h => (congrArg (fun u : State => u.otp.words) hframe :).trans (hwords h),
    fun h => (congrArg Boot.flash hboot :).trans (hflash h), (congrArg Boot.nmr hboot :),
    (congrArg Boot.latchedCause hboot :), hstart⟩

theorem mainSupplyFail_leaves (burned : BitVec 32) (s : State) (hmain : s.atoll.main = true) :
    ∃ t, exec (.mainSupplyFail burned) s = .next t ∧ t.atoll = s.atoll ∧ t.pwr.st = .down ∧ t.mci.st = .reset ∧
      t.timeRuns = false ∧ (s.boot.update = none → t.boot.flash = s.boot.flash) ∧ (s.otp.burn = none →
      t.otp.words = s.otp.words) := by
  obtain ⟨fatal, words, free, links, heq, hwords⟩ := resetState_eq s.pwr.afterPowerOn 0 burned s
  refine ⟨resetState s.pwr.afterPowerOn 0 burned s, if_pos hmain, ?_⟩
  rw [heq]
  exact ⟨rfl, rfl, rfl, rfl, fun h => flashAfterReset_idle burned s h, hwords⟩

/-! ### nMR (R437) -/

theorem clearLatch_frame (s : State) :
    { clearLatch s with pwr := s.pwr } = s ∧ (clearLatch s).pwr.rails = s.pwr.rails ∧
      (s.pwr.st = .latched → sysfaultClear s = true →
        (clearLatch s).pwr.latch = 0 ∧ (clearLatch s).pwr.st = if s.pwr.minOff then .minOff else .down) := by
  unfold clearLatch
  split
  · exact ⟨rfl, rfl, fun _ _ => ⟨rfl, rfl⟩⟩
  · next hnot => exact ⟨rfl, rfl, fun hst hclear => absurd (by simp [hst, hclear]) hnot⟩

theorem nmrAssert_resets (w : Nat) (s : State) (hw : 10000 ≤ w) (hmain : s.atoll.main = true) (hnmr : s.boot.nmr = false) :
    ∃ t, exec (.nmrAssert w) s = .next t ∧ t.boot.nmr = true ∧ t.boot.latchedCause = 1 ∧ t.mci.st = .reset ∧
      t.timeRuns = false ∧ t.atoll = s.atoll ∧ t.held = 0x1FF ∧
      (s.pwr.st = .latched → s.pwr.sysIn = false → t.pwr.latch = 0 ∧
        t.pwr.st = if s.pwr.minOff then .minOff else .down) ∧
      t.pwr.rails = s.pwr.rails.map fun r => { r with dropAt := r.dropAt - s.time } := by
  have hexec : exec (.nmrAssert w) s = .next (masterReset s) := by
    show execNmrAssert w s = _
    unfold execNmrAssert
    rw [if_neg (by simp [hmain, hnmr]; omega), if_pos hw]
  refine ⟨masterReset s, hexec, ?_⟩
  unfold masterReset deviceReset
  dsimp only
  obtain ⟨fatal, words, free, links, heq, -⟩ :=
    resetState_eq (s.pwr.afterReset s.time) 1 (BitVec.ofNat 32 (Config.freeNat s.free)) { s with free := s.free + 1 }
  rw [heq]
  generalize flashAfterReset (BitVec.ofNat 32 (Config.freeNat s.free)) { s with free := s.free + 1 } = flash
  generalize hr : ({ resetTo { s with free := s.free + 1 } (s.pwr.afterReset s.time) 1 fatal words flash free links with
    boot := { (resetTo { s with free := s.free + 1 } (s.pwr.afterReset s.time) 1 fatal words flash free links).boot with
      nmr := true } } : State) = r
  obtain ⟨hlatch, hrails, hclear⟩ := clearLatch_frame r
  have hungate := faultUngate_frame (clearLatch r)
  generalize faultUngate (clearLatch r) = t at hungate
  have hpwr : t.pwr = (clearLatch r).pwr := (congrArg State.pwr hungate :)
  have hboot : t.boot = r.boot := (congrArg State.boot hungate :).trans (congrArg State.boot hlatch :)
  have hmci : t.mci = r.mci := (congrArg State.mci hungate :).trans (congrArg State.mci hlatch :)
  have hruns : t.timeRuns = r.timeRuns := (congrArg State.timeRuns hungate :).trans (congrArg State.timeRuns hlatch :)
  have hatoll : t.atoll = r.atoll := (congrArg State.atoll hungate :).trans (congrArg State.atoll hlatch :)
  have hheld : t.held = r.held := (congrArg State.held hungate :).trans (congrArg State.held hlatch :)
  rw [hpwr, hboot, hmci, hruns, hatoll, hheld, hrails]
  subst hr
  exact ⟨rfl, rfl, rfl, rfl, rfl, rfl, fun hst hsys => hclear hst (by
    show (!s.pwr.sysIn && !false && !false) = true
    rw [hsys]; rfl), rfl⟩

/-- Settles O52: `resetState_eq` says what a reset names and keeps; each kind of reset sets its own sequencer and cause, and
the start that follows samples the straps only. -/
theorem resetsKeepWhatTheyMust : Obligations.ResetsKeepWhatTheyMust := by
  unfold Obligations.ResetsKeepWhatTheyMust
  refine ⟨fun straps burned s hmain => deviceReset_leaves straps burned s _ hmain rfl,
    fun straps burned c a n o s hmain => deviceReset_update straps burned c a n o s hmain,
    powerOnReset_leaves, fun straps burned s hmain => ⟨?_, ?_, ?_⟩, mainSupplyFail_leaves, fun w s hw => ?_,
    nmrAssert_resets, fun straps s hnmr hmain => ?_, fun straps s hnmr hmain => ?_, fun straps s hnmr => ?_⟩
  · exact if_pos (by rw [hmain]; rfl)
  · exact if_pos (by rw [hmain]; rfl)
  · exact if_neg (by rw [hmain]; exact Bool.false_ne_true)
  · exact if_pos (by simp [hw])
  · exact (if_neg (by rw [hnmr]; decide)).trans (if_neg (by rw [hmain]; exact Bool.false_ne_true))
  · refine ⟨beginStart straps s, (if_neg (by rw [hnmr]; decide)).trans (if_pos hmain), rfl, rfl, rfl, rfl⟩
  · exact if_pos (by rw [hnmr]; rfl)

end Sys2Proof.Machine
end

section
/-!
PROOFS. The steps of the start (spec/23_startup.md R492 to R501, spec/13_dram_ecc.md R334, R335), for
`StartupRunsInOrder`.
-/
namespace Sys2Proof.Machine

open Sys2Proof

/-! ### System PLLs and the boot block (R78, R492, R495) -/

theorem readBootBlock_frame (s : State) :
    { readBootBlock s with dram := s.dram, boot := s.boot } = s ∧
      (newerBlock s = none → (readBootBlock s).boot.blockDefault = true ∧ (readBootBlock s).dram.cfg = dramCfgOf defaultRecord) := by
  unfold readBootBlock
  generalize newerBlock s = b
  dsimp only
  refine ⟨rfl, fun h => ?_⟩
  rw [h]
  exact ⟨rfl, rfl⟩

theorem newerBlock_none {s : State} (h0 : bootBlock s 0 = none) (h1 : bootBlock s 1 = none) : newerBlock s = none := by
  unfold newerBlock
  rw [h0, h1]

theorem systemPllLock_starts (s : State) (hruns : s.timeRuns = false) (hmain : s.atoll.main = true) (hnmr : s.boot.nmr = false) :
    ∃ t, exec .systemPllLock s = .next t ∧ t.timeRuns = true ∧ t.time = 0 ∧ t.mci = s.mci ∧
      (bootBlock s 0 = none → bootBlock s 1 = none → t.boot.blockDefault = true ∧ t.dram.cfg = dramCfgOf defaultRecord) := by
  have hexec : exec .systemPllLock s = .next (readBootBlock { s with timeRuns := true, time := 0 }) :=
    if_neg (by simp [hruns, hmain, hnmr])
  obtain ⟨hframe, hdefault⟩ := readBootBlock_frame { s with timeRuns := true, time := 0 }
  exact ⟨_, hexec, (congrArg State.timeRuns hframe :), (congrArg State.time hframe :), (congrArg State.mci hframe :),
    fun h0 h1 => hdefault (newerBlock_none h0 h1)⟩

/-! ### DRAM training and fill (R334, R335, R438, R492) -/

theorem trainingFails_frame (channels step : BitVec 4) (s : State) :
    { trainingFails channels step s with flt := s.flt } =
      { startFails 1 { s with boot := { s.boot with dramCh := channels, dramStep := step } } with flt := s.flt } := by
  unfold trainingFails
  dsimp only
  split
  · rfl
  · exact (congrArg (fun u : State => { u with flt := s.flt }) (foldl_present_frame (fun s c => present 0x0166 (some c) 0 s)
      (fun _ _ => rfl) _ _) :)

theorem dramTrainingDone_fails (failed : BitVec 4) (step : Nat) (s : State) (hruns : s.timeRuns = true) (hst : s.mci.st = .reset)
    (htrained : s.dram.trained = false) (hok : s.dram.cfg.ok = true) (hbad : failed &&& BitVec.ofNat 4 s.dram.cfg.channels ≠ 0) :
    ∃ t, exec (.dramTrainingDone failed step) s = .next t ∧ t.mci.st = .halted ∧ t.boot.fail = 1 ∧
      t.dram.trained = false ∧ t.boot.dramCh = failed &&& BitVec.ofNat 4 s.dram.cfg.channels := by
  have hexec : exec (.dramTrainingDone failed step) s =
      .next (trainingFails (failed &&& BitVec.ofNat 4 s.dram.cfg.channels) (BitVec.ofNat 4 step) s) := by
    show execDramTrainingDone failed step s = _
    unfold execDramTrainingDone
    rw [if_neg (by simp [hruns, hst, htrained]), if_neg (by simp [hok])]
    exact congrArg Host.Outcome.next (if_pos hbad)
  have hframe := trainingFails_frame (failed &&& BitVec.ofNat 4 s.dram.cfg.channels) (BitVec.ofNat 4 step) s
  exact ⟨_, hexec, (congrArg (fun u : State => u.mci.st) hframe :), (congrArg (fun u : State => u.boot.fail) hframe :),
    (congrArg (fun u : State => u.dram.trained) hframe :).trans htrained, (congrArg (fun u : State => u.boot.dramCh) hframe :)⟩

theorem dramTrainingDone_trains (step : Nat) (s : State) (hruns : s.timeRuns = true) (hst : s.mci.st = .reset)
    (htrained : s.dram.trained = false) (hok : s.dram.cfg.ok = true) :
    exec (.dramTrainingDone 0 step) s = .next { s with dram := { s.dram with trained := true } } := by
  show execDramTrainingDone 0 step s = _
  unfold execDramTrainingDone
  rw [if_neg (by simp [hruns, hst, htrained]), if_neg (by simp [hok])]
  exact congrArg Host.Outcome.next (if_neg (by simp))

theorem openPush_frame (s : State) : { openPush s with dma := s.dma } = s := by
  unfold openPush
  split <;> rfl

/-- The state at the end of the DRAM fill, before the main supply may drop. -/
def filled (s : State) : State :=
  openPush { s with mci := { s.mci with st := .boot, mciMax := 0x34 }, flt := { s.flt with watched := true },
                    dram := { s.dram with mem := [], errs := [], poison := [] }, lag := { s.lag with data := [], tiles := [] } }

theorem filled_frame (s : State) : { filled s with dma := s.dma } =
    { s with mci := { s.mci with st := .boot, mciMax := 0x34 }, flt := { s.flt with watched := true },
             dram := { s.dram with mem := [], errs := [], poison := [] }, lag := { s.lag with data := [], tiles := [] } } :=
  openPush_frame _

theorem execDramFillDone_fills (s : State) (htrained : s.dram.trained = true) (hst : s.mci.st = .reset)
    (hchecked : s.otp.checked = true) :
    execDramFillDone s = .next (if s.pwr.dropMain then
      followMain { filled s with pwr := { s.pwr with dropMain := false } } else filled s) := by
  have hpwr : (filled s).pwr = s.pwr := (congrArg State.pwr (filled_frame s) :)
  unfold execDramFillDone
  rw [if_neg (by simp [htrained, hst, hchecked])]
  show Host.Outcome.next (if (filled s).pwr.dropMain then
    followMain { filled s with pwr := { (filled s).pwr with dropMain := false } } else filled s) = _
  rw [hpwr]

/-- Memories that hold zeros hold them after the main supply has dropped. -/
theorem followMain_memories (s : State) (hmem : s.dram.mem = []) (herrs : s.dram.errs = []) (hdata : s.lag.data = []) :
    (followMain s).dram.mem = [] ∧ (followMain s).dram.errs = [] ∧ (followMain s).lag.data = [] := by
  unfold followMain
  split
  · exact ⟨hmem, herrs, hdata⟩
  · split
    · exact ⟨hmem, herrs, hdata⟩
    · exact ⟨rfl, rfl, rfl⟩

theorem dramFillDone_boots (s : State) (htrained : s.dram.trained = true) (hst : s.mci.st = .reset)
    (hchecked : s.otp.checked = true) :
    ∃ t, exec .dramFillDone s = .next t ∧ t.dram.mem = [] ∧ t.dram.errs = [] ∧ t.lag.data = [] ∧
      (s.pwr.dropMain = false → t.mci.st = .boot ∧ t.mci.mciMax = 0x34 ∧ t.held = s.held ∧ t.flt.watched = true) ∧
      (s.pwr.dropMain = true → s.atoll.standby = false → s.pwr.endKeep = false → s.pwr.latchedOff = false →
        s.pwr.latch = 0 → t.atoll.main = false) := by
  have hexec : exec .dramFillDone s = _ := execDramFillDone_fills s htrained hst hchecked
  have hframe := filled_frame s
  generalize filled s = u at hexec hframe
  have hmem : u.dram.mem = [] := (congrArg (fun v : State => v.dram.mem) hframe :)
  have herrs : u.dram.errs = [] := (congrArg (fun v : State => v.dram.errs) hframe :)
  have hdata : u.lag.data = [] := (congrArg (fun v : State => v.lag.data) hframe :)
  cases hdrop : s.pwr.dropMain with
  | false =>
    rw [hdrop, if_neg Bool.false_ne_true] at hexec
    exact ⟨u, hexec, hmem, herrs, hdata, fun _ => ⟨(congrArg (fun v : State => v.mci.st) hframe :),
      (congrArg (fun v : State => v.mci.mciMax) hframe :), (congrArg State.held hframe :),
      (congrArg (fun v : State => v.flt.watched) hframe :)⟩, fun h => absurd h Bool.false_ne_true⟩
  | true =>
    rw [hdrop, if_pos rfl] at hexec
    obtain ⟨hmem', herrs', hdata'⟩ := followMain_memories { u with pwr := { s.pwr with dropMain := false } } hmem herrs hdata
    refine ⟨_, hexec, hmem', herrs', hdata', fun h => absurd h.symm Bool.false_ne_true, fun _ hstand hkeep hlo hlatch => ?_⟩
    have hatoll : u.atoll = s.atoll := (congrArg State.atoll hframe :)
    have hboot : u.mci.st = .boot := (congrArg (fun v : State => v.mci.st) hframe :)
    unfold followMain
    rw [if_neg (by simp [hatoll, hstand, hkeep, hlo, hlatch]), if_neg (by simp [resetInProgress, hboot])]
    rfl

/-! ### The sources of the image (R496 to R500) -/

theorem readPushed_works (b : BootSource) (s : State) : DramWorks s (readPushed b s) := by
  cases b with
  | push => exact dramWorks_dramFetch ..
  | slotA => exact DramWorks.refl s
  | slotB => exact DramWorks.refl s

theorem readPushed_boot (b : BootSource) (s : State) : (readPushed b s).boot = s.boot :=
  (congrArg State.boot (readPushed_works b s).rest :)

theorem bootTry_due (b : BootSource) (k : State → State) (s : State) (hst : s.mci.st = .boot) (himage : s.boot.image = 0)
    (hkeys : acceptedKeys s ≠ []) (hhead : (bootLeft s).head? = some b) : bootTry b k s = k s := by
  unfold bootTry
  rw [if_neg (by simp [hst, himage]), if_neg hkeys, hhead]
  exact if_pos rfl

theorem bootTry_idle (b : BootSource) (k : State → State) (s : State) (h : s.mci.st ≠ .boot ∨ s.boot.image ≠ 0) :
    bootTry b k s = s := if_pos (by simpa using h)

/-- A source whose image passes the checks runs it. -/
theorem checkSource_good (b : BootSource) (s u : State) (hu : u = readPushed b s)
    (hok : imageOk u slotSize (sourceBytes u b) = true) :
    checkSource b s = { u with held := 0, boot := { u.boot with
      image := imageCode b, fwVersion := BitVec.ofNat 32 (leAt (sourceBytes u b 0 12) 8 4),
      pushResult := if b = .push then 1 else u.boot.pushResult } } := by
  unfold checkSource
  rw [← hu]
  exact if_pos hok

/-- A source whose image does not pass them is rejected, and the next one follows or the start fails. -/
theorem checkSource_bad (b : BootSource) (s u : State) (hu : u = readPushed b s)
    (hbad : imageOk u slotSize (sourceBytes u b) = false) :
    (checkSource b s).held = u.held ∧
      { (checkSource b s).boot with fail := (rejectSource b u).boot.fail } = (rejectSource b u).boot := by
  have hcheck : checkSource b s =
      if bootLeft (rejectSource b u) = [] then startFails 3 (rejectSource b u) else openPush (rejectSource b u) := by
    unfold checkSource
    rw [← hu]
    exact if_neg (by rw [hbad]; exact Bool.false_ne_true)
  have hheld : (rejectSource b u).held = u.held := by cases b <;> rfl
  have hopen := openPush_frame (rejectSource b u)
  rw [hcheck]
  split
  · exact ⟨hheld, rfl⟩
  · refine ⟨(congrArg State.held hopen :).trans hheld, ?_⟩
    have hboot : (openPush (rejectSource b u)).boot = (rejectSource b u).boot := (congrArg State.boot hopen :)
    rw [hboot]

theorem bootImageLoaded_good (b : BootSource) (s u : State) (hu : u = readPushed b s) (hst : s.mci.st = .boot)
    (himage : s.boot.image = 0) (hkeys : acceptedKeys s ≠ []) (hhead : (bootLeft s).head? = some b)
    (hok : imageOk u slotSize (sourceBytes u b) = true) :
    ∃ t, exec (.bootImageLoaded b) s = .next t ∧ t.boot.image = imageCode b ∧ t.held = 0 ∧
      t.boot.fwVersion = BitVec.ofNat 32 (leAt (sourceBytes u b 0 12) 8 4) ∧
      { t with boot := u.boot, held := u.held } = u := by
  have hexec : exec (.bootImageLoaded b) s = .next (checkSource b s) :=
    congrArg Host.Outcome.next (bootTry_due b (checkSource b) s hst himage hkeys hhead)
  rw [checkSource_good b s u hu hok] at hexec
  exact ⟨_, hexec, rfl, rfl, rfl, rfl⟩

theorem bootImageLoaded_rejectsSlotA (s : State) (hst : s.mci.st = .boot) (himage : s.boot.image = 0)
    (hkeys : acceptedKeys s ≠ []) (hhead : (bootLeft s).head? = some .slotA)
    (hbad : imageOk s slotSize (sourceBytes s .slotA) = false) :
    ∃ t, exec (.bootImageLoaded .slotA) s = .next t ∧ t.boot.slotABad = true ∧ t.boot.image = 0 ∧ t.held = s.held := by
  obtain ⟨hheld, hboot⟩ := checkSource_bad .slotA s s rfl hbad
  exact ⟨checkSource .slotA s, congrArg Host.Outcome.next (bootTry_due .slotA (checkSource .slotA) s hst himage hkeys hhead),
    (congrArg Boot.slotABad hboot :), (congrArg Boot.image hboot :).trans himage, hheld⟩

theorem bootImageLoaded_noKeys (b : BootSource) (s : State) (hst : s.mci.st = .boot) (himage : s.boot.image = 0)
    (hkeys : acceptedKeys s = []) :
    ∃ t, exec (.bootImageLoaded b) s = .next t ∧ t.mci.st = .halted ∧ t.boot.fail = 2 := by
  have htry : bootTry b (checkSource b) s = startFails 2 s := by
    unfold bootTry
    rw [if_neg (by simp [hst, himage]), if_pos hkeys]
  exact ⟨startFails 2 s, congrArg Host.Outcome.next htry, rfl, rfl⟩

theorem bootPushPoll_polls (s u : State) (hu : u = readPushed .push s) (hst : s.mci.st = .boot) (himage : s.boot.image = 0)
    (hkeys : acceptedKeys s ≠ []) (hhead : (bootLeft s).head? = some .push) :
    (s.boot.push ≠ 0x48535550 → exec .bootPushPoll s = .next s) ∧
    (s.boot.push = 0x48535550 → imageOk u slotSize u.dramRead = true →
      ∃ t, exec .bootPushPoll s = .next t ∧ t.boot.image = 3 ∧ t.boot.pushResult = 1 ∧ t.held = 0) ∧
    (s.boot.push = 0x48535550 → imageOk u slotSize u.dramRead = false →
      ∃ t, exec .bootPushPoll s = .next t ∧ t.boot.image = 0 ∧ t.boot.pushResult = 2 ∧ t.boot.push = 0) := by
  have hexec : exec .bootPushPoll s = .next (if s.boot.push = 0x48535550 then checkSource .push s else s) :=
    congrArg Host.Outcome.next (bootTry_due .push (fun s => if s.boot.push = 0x48535550 then checkSource .push s else s)
      s hst himage hkeys hhead)
  refine ⟨fun hpush => hexec.trans (congrArg Host.Outcome.next (if_neg hpush)), fun hpush hok => ?_, fun hpush hbad => ?_⟩
  · rw [if_pos hpush, checkSource_good .push s u hu hok] at hexec
    exact ⟨_, hexec, rfl, rfl, rfl⟩
  · rw [if_pos hpush] at hexec
    obtain ⟨-, hboot⟩ := checkSource_bad .push s u hu hbad
    generalize checkSource .push s = t at hexec hboot
    have hu' : u.boot.image = 0 := by rw [hu, readPushed_boot, himage]
    exact ⟨_, hexec, (congrArg Boot.image hboot :).trans hu', (congrArg Boot.pushResult hboot :), (congrArg Boot.push hboot :)⟩

/-! ### READY (R439, R492) -/

theorem foldl_complete_st {α : Type} (f : State → α → State) (l : List α) (s : State)
    (hf : ∀ s x, { f s x with mci := s.mci } = s ∧ (f s x).mci.st = s.mci.st) :
    { l.foldl f s with mci := s.mci } = s ∧ (l.foldl f s).mci.st = s.mci.st := by
  induction l generalizing s with
  | nil => exact ⟨rfl, rfl⟩
  | cons x l ih =>
    obtain ⟨hframe, hst⟩ := hf s x
    obtain ⟨hrest, hrestSt⟩ := ih (f s x)
    exact ⟨(congrArg (fun u : State => { u with mci := s.mci }) hrest).trans hframe, hrestSt.trans hst⟩

theorem complete_st (c : Ctx) (status : Nat) (payload : List Byte) (s : State) :
    (complete c status payload s).mci.st = s.mci.st :=
  (congrArg Mci.st (calm_complete c status payload s).2.2.1 :)

theorem enableFrom_frame (n : Nat) (s : State) :
    { enableFrom n s with mci := s.mci, pwr := s.pwr } = s ∧ (enableFrom n s).mci.st = s.mci.st := by
  unfold enableFrom
  split
  · exact ⟨rfl, rfl⟩
  · obtain ⟨hframe, hst⟩ := foldl_complete_st (fun s c => complete c Status.ok
      (leBytes 1 0 ++ leBytes 1 0 ++ leBytes 1 s.pwr.topSlot ++ zeros 1) s) s.pwr.upCtx
      { s with pwr := { s.pwr with st := .up, slot := none, settling := false, upCtx := [] } }
      (fun s c => ⟨complete_frame .., complete_st ..⟩)
    exact ⟨(congrArg (fun u : State => { u with pwr := s.pwr }) hframe :), hst⟩

theorem onRequest_frame (s : State) :
    { onRequest s with mci := s.mci, pwr := s.pwr } = s ∧ (onRequest s).mci.st = s.mci.st := by
  unfold onRequest startRising
  split
  · obtain ⟨hframe, hst⟩ := enableFrom_frame 0 { s with pwr := { s.pwr with
      heldOn := false, cause := 0, latchedOff := false, endKeep := false, topSlot := 0, dropMain := false } }
    exact ⟨(congrArg (fun u : State => { u with pwr := s.pwr }) hframe :), hst⟩
  · exact ⟨rfl, rfl⟩
  · exact ⟨rfl, rfl⟩
  · exact ⟨rfl, rfl⟩

theorem at'_modAt_default {α : Type} (l : List α) (i : Nat) (d : α) : at' (modAt l i fun _ => d) i d = d := by
  rw [at'_modAt]
  split
  · rfl
  · next h => exact List.getD_eq_default l d (by simpa using h)

/-- The state that BOOT_READY leaves, before what it raises and asks for. -/
def readied (s : State) : State :=
  { s with mci := { s.mci with st := .ready }, boot := { s.boot with readyMs := readyMs s },
           atoll := { s.atoll with forcedNew := false },
           dma := { s.dma with windows := modAt s.dma.windows 0 fun _ => none } }

theorem readied_readyMs (s : State) : (readied s).boot.readyMs = readyMs s := by
  unfold readied
  generalize readyMs s = ms
  rfl

theorem execBootReady_ready (s : State) (hst : s.mci.st = .boot) (himage : s.boot.image ≠ 0) :
    ∃ u, { u with flt := s.flt } = { readied s with flt := s.flt } ∧
      execBootReady s = .next (if u.atoll.autoOn || u.atoll.wakeCause = 1 then onRequest u else u) := by
  refine ⟨(bootRaises s).foldl (fun s q => presentFw q none 0 s) (readied s), ?_, ?_⟩
  · exact (congrArg (fun u : State => { u with flt := s.flt }) (foldl_present_frame (fun s q => presentFw q none 0 s)
      (fun _ _ => rfl) (bootRaises s) (readied s)) :)
  · unfold execBootReady readied
    rw [if_neg (by simp [hst]; exact himage)]

theorem bootReady_ready (s : State) (hst : s.mci.st = .boot) (himage : s.boot.image ≠ 0) :
    ∃ t, exec .bootReady s = .next t ∧ t.mci.st = .ready ∧ t.boot.readyMs = readyMs s ∧
      at' t.dma.windows 0 none = none ∧
      (s.atoll.autoOn = false → s.atoll.wakeCause ≠ 1 → t.pwr = s.pwr) := by
  obtain ⟨u, hframe, hexec⟩ := execBootReady_ready s hst himage
  have hst' : u.mci.st = .ready := (congrArg (fun v : State => v.mci.st) hframe :)
  have hms : u.boot.readyMs = (readied s).boot.readyMs := (congrArg (fun v : State => v.boot.readyMs) hframe :)
  rw [readied_readyMs] at hms
  have hwindows : u.dma.windows = modAt s.dma.windows 0 fun _ => none := (congrArg (fun v : State => v.dma.windows) hframe :)
  have hauto : u.atoll.autoOn = s.atoll.autoOn := (congrArg (fun v : State => v.atoll.autoOn) hframe :)
  have hwake : u.atoll.wakeCause = s.atoll.wakeCause := (congrArg (fun v : State => v.atoll.wakeCause) hframe :)
  obtain ⟨hon, honSt⟩ := onRequest_frame u
  refine ⟨_, hexec, ?_⟩
  split
  · next hask =>
    refine ⟨honSt.trans hst', (congrArg (fun v : State => v.boot.readyMs) hon :).trans hms, ?_, fun ha hw => ?_⟩
    · have hkept : (onRequest u).dma.windows = u.dma.windows := (congrArg (fun v : State => v.dma.windows) hon :)
      rw [hkept, hwindows]
      exact at'_modAt_default ..
    · exact absurd hask (by rw [hauto, hwake, ha, decide_eq_false hw]; decide)
  · refine ⟨hst', hms, ?_, fun _ _ => (congrArg State.pwr hframe :)⟩
    rw [hwindows]
    exact at'_modAt_default ..

end Sys2Proof.Machine
end

section
/-!
PROOFS. The commands of group 0x16 (spec/23_startup.md R6, R500, R502, R503) and `StartupRunsInOrder`.
-/
namespace Sys2Proof.Machine

open Sys2Proof

/-! ### startup.boot.status (R500, R501) -/

theorem bit_le (b : Bool) : bit b ≤ 1 := by cases b <;> decide

theorem bootStatus_lt (b : Boot) : bootStatus b < 2 ^ 32 := by
  have hstep := b.dramStep.isLt
  have hch := b.dramCh.isLt
  have himage := b.image.isLt
  have hfail := b.fail.isLt
  have ha := bit_le b.slotABad
  have hb := bit_le b.slotBBad
  have hd := bit_le b.blockDefault
  unfold bootStatus
  omega

/-- Two fields of two bytes, written as one number of four. -/
theorem leBytes_split (hi lo : Nat) (h : lo < 65536) :
    leAt (leBytes 4 (hi * 65536 + lo)) 0 2 = lo ∧ (hi < 65536 → leAt (leBytes 4 (hi * 65536 + lo)) 2 2 = hi) := by
  have hbytes : leBytes 4 (hi * 65536 + lo) = leBytes 2 lo ++ leBytes 2 hi := by
    simp only [leBytes, List.cons_append, List.nil_append]
    refine List.cons_eq_cons.2 ⟨?_, List.cons_eq_cons.2 ⟨?_, List.cons_eq_cons.2 ⟨?_, List.cons_eq_cons.2 ⟨?_, rfl⟩⟩⟩⟩ <;>
      exact BitVec.eq_of_toNat_eq (by simp only [BitVec.toNat_ofNat]; omega)
  rw [hbytes]
  refine ⟨?_, fun hhi => ?_⟩
  · rw [leAt_left _ _ 0 2 (by simp), leAt_leBytes]
    omega
  · rw [leAt_right _ _ 2 2 (by simp)]
    simp only [length_leBytes, Nat.sub_self]
    rw [leAt_leBytes]
    omega

theorem startupBootStatus_reply (rq : Req) (s : State) (hs : served 0x1601 rq s = true) :
    ∃ p, exec (.startupBootStatus rq) s = .next (respond rq 0x1601 Status.ok p s) ∧ p.length = 16 ∧
      leAt p 0 4 = s.boot.straps.toNat ∧ leAt p 4 4 = bootStatus s.boot ∧ leAt p 8 2 = s.boot.cause.toNat ∧
      leAt p 10 2 = s.boot.fatalSource.toNat := by
  refine ⟨leBytes 4 s.boot.straps.toNat ++ leBytes 4 (bootStatus s.boot) ++
     leBytes 4 (s.boot.fatalSource.toNat * 65536 + s.boot.cause.toNat) ++ leBytes 4 s.boot.readyMs,
    command_pass 0x1601 rq [] _ s hs (List.forall_mem_nil _), by simp, ?_, ?_, ?_, ?_⟩
  all_goals simp only [List.append_assoc]
  · have hstraps := s.boot.straps.isLt
    rw [leAt_left _ _ 0 4 (by simp), leAt_leBytes]
    omega
  · have hstatus := bootStatus_lt s.boot
    rw [leAt_right _ _ 4 4 (by simp), leAt_left _ _ _ 4 (by simp)]
    simp only [length_leBytes, Nat.sub_self]
    rw [leAt_leBytes]
    omega
  · have hcause := s.boot.cause.isLt
    rw [leAt_right _ _ 8 2 (by simp), leAt_right _ _ _ 2 (by simp), leAt_left _ _ _ 2 (by simp)]
    simp only [length_leBytes]
    exact (leBytes_split _ _ (by omega)).1
  · have hcause := s.boot.cause.isLt
    rw [leAt_right _ _ 10 2 (by simp), leAt_right _ _ _ 2 (by simp), leAt_left _ _ _ 2 (by simp)]
    simp only [length_leBytes]
    exact (leBytes_split _ _ (by omega)).2 s.boot.fatalSource.isLt

/-! ### startup.personality.select (R6, R502) -/

theorem personalitySelect_accepts (rq : Req) (s : State) (hs : served 0x1602 rq s = true) (hp : rq.u8 0 = 1 ∨ rq.u8 0 = 2)
    (hpermitted : (permitted s).testBit (rq.u8 0 - 1) = true) (hst : s.mci.st = .ready) (hselect : s.boot.select = none)
    (hinUse : s.mci.inUse.toNat / 16 ≠ 2 ∨ rq.u8 0 = 1) :
    exec (.startupPersonalitySelect rq) s = .next (accept rq 0x1602 [] { s with boot := { s.boot with
      select := some (rq.ctx s 0x1602, if rq.u8 0 = 1 then .press else .forge) } }) := by
  have hof : personalityOf (rq.u8 0) = if rq.u8 0 = 1 then .press else .forge := by
    unfold personalityOf
    split
    · rfl
    · next hne => rw [if_pos (hp.resolve_left hne)]
  rw [← hof]
  show execStartupPersonalitySelect rq s = _
  unfold execStartupPersonalitySelect
  refine command_pass 0x1602 rq _ _ s hs ?_
  simp only [List.forall_mem_cons]
  refine ⟨?_, ?_, ?_, List.forall_mem_nil _⟩
  · rw [hpermitted]
    simp
    omega
  · simp [hst, hselect]
  · simp
    omega

theorem personalitySelect_notPermitted (rq : Req) (s : State) (hs : served 0x1602 rq s = true)
    (h : (permitted s).testBit (rq.u8 0 - 1) = false) :
    exec (.startupPersonalitySelect rq) s = .next (respond rq 0x1602 Status.badValue [] s) := by
  show execStartupPersonalitySelect rq s = _
  unfold execStartupPersonalitySelect
  exact command_turned_away 0x1602 rq _ _ s true Status.badValue hs (by rw [h]; simp)

theorem personalitySelectDone_runs (c : Ctx) (p : Personality) (s : State) (hup : s.coreUp hostCore = true)
    (hselect : s.boot.select = some (c, p)) (hst : s.mci.st = .ready) :
    exec .personalitySelectDone s = .next (complete c Status.ok []
      { s with mci := { s.mci with st := .run, personality := p }, boot := { s.boot with select := none } }) := by
  show execPersonalitySelectDone s = _
  unfold execPersonalitySelectDone
  rw [hup, if_neg (by decide), hselect]
  exact if_neg (by simp [hst])

theorem personalitySelectDone_none (s : State) (hselect : s.boot.select = none) :
    exec .personalitySelectDone s = .next s := by
  show execPersonalitySelectDone s = _
  unfold execPersonalitySelectDone
  rw [hselect]
  exact ite_self _

/-! ### startup.fw.update (R497, R503) -/

theorem firmwareRead_works (a n : Nat) (s : State) : DramWorks s (firmwareRead a n s) := by
  unfold firmwareRead
  split
  · exact dramWorks_dramFetch ..
  · exact DramWorks.refl s

theorem fwUpdate_accepts (rq : Req) (s u : State) (hs : served 0x1603 rq s = true)
    (hu : u = firmwareRead (rq.u64 0) (rq.u32 8) s) (hsu : served 0x1603 rq u = true)
    (hfits : rq.u64 0 + rq.u32 8 ≤ u.dram.cfg.usable) (hidle : u.boot.update = none)
    (hok : imageOk u (min (rq.u32 8) slotSize) (fun o k => u.dramRead (rq.u64 0 + o) k) = true) :
    exec (.startupFwUpdate rq) s = .next (accept rq 0x1603 [] { u with boot := { u.boot with
      update := some (rq.ctx u 0x1603, rq.u64 0, rq.u32 8) } }) := by
  show execStartupFwUpdate rq s = _
  unfold execStartupFwUpdate
  dsimp only
  rw [if_pos hs, ← hu]
  refine command_pass 0x1603 rq _ _ u hsu ?_
  simp only [List.forall_mem_cons]
  refine ⟨?_, ?_, ?_, List.forall_mem_nil _⟩
  · simp
    omega
  · rw [hidle]
    rfl
  · rw [hok]
    rfl

/-! ### A copy of the boot block (R494) -/

theorem bootBlock_length {s : State} {k : Nat} {b : List Byte} (h : bootBlock s k = some b) : b.length = 32 := by
  unfold bootBlock at h
  dsimp only at h
  split at h
  · rw [← Option.some.inj h]
    exact length_cellsGet ..
  · cases h

theorem newerBlock_cases {s : State} {k : Nat} {b : List Byte} (h : newerBlock s = some (k, b)) : k ≤ 1 ∧ bootBlock s k = some b := by
  unfold newerBlock at h
  (repeat' split at h) <;> cases h <;> exact ⟨by decide, by assumption⟩

theorem olderCopy_le (s : State) : olderCopy s ≤ 1 := by
  unfold olderCopy
  split <;> omega

/-- The record that an update writes (R17, R316). -/
def updateRecord (s : State) : List Byte := match newerBlock s with
  | some (_, b) => (b.drop 4).take 12 ++ zeros 4
  | none => defaultRecord

theorem length_updateRecord (s : State) : (updateRecord s).length = 16 := by
  unfold updateRecord
  split
  · next hb =>
    have hlen := bootBlock_length (newerBlock_cases hb).2
    simp [hlen]
  · rfl

/-- The bytes of a copy before its CRC. -/
def blockHead (record : List Byte) (gen prefer : Nat) : List Byte :=
  leBytes 4 0x4B4C4242 ++ record ++ leBytes 4 gen ++ leBytes 1 prefer ++ zeros 3

theorem blockBytes_eq (record : List Byte) (gen prefer : Nat) : blockBytes record gen prefer =
    blockHead record gen prefer ++ leBytes 4 (crc32c (blockHead record gen prefer)).toNat := rfl

theorem length_blockHead (record : List Byte) (gen prefer : Nat) (h : record.length = 16) :
    (blockHead record gen prefer).length = 28 := by
  simp [blockHead, h]

theorem length_blockBytes (record : List Byte) (gen prefer : Nat) (h : record.length = 16) :
    (blockBytes record gen prefer).length = 32 := by
  rw [blockBytes_eq, List.length_append, length_blockHead record gen prefer h, length_leBytes]

theorem blockBytes_magic (record : List Byte) (gen prefer : Nat) (h : record.length = 16) :
    leAt (blockBytes record gen prefer) 0 4 = 0x4B4C4242 := by
  rw [blockBytes_eq, leAt_left _ _ 0 4 (by rw [length_blockHead record gen prefer h]; omega)]
  unfold blockHead
  simp only [List.append_assoc]
  rw [leAt_left _ _ 0 4 (by simp), leAt_leBytes]
  exact Nat.mod_eq_of_lt (by decide)

theorem blockBytes_generation (record : List Byte) (gen prefer : Nat) (h : record.length = 16) (hgen : gen < 2 ^ 32) :
    generation (blockBytes record gen prefer) = gen := by
  unfold generation
  rw [blockBytes_eq, leAt_left _ _ 20 4 (by rw [length_blockHead record gen prefer h]; omega)]
  unfold blockHead
  simp only [List.append_assoc]
  rw [leAt_right _ _ 20 4 (by simp), leAt_right _ _ _ 4 (by simp [h]), leAt_left _ _ _ 4 (by simp [h])]
  simp only [length_leBytes, h, Nat.sub_self]
  rw [leAt_leBytes]
  omega

theorem blockBytes_crc (record : List Byte) (gen prefer : Nat) (h : record.length = 16) :
    leAt (blockBytes record gen prefer) 28 4 = (crc32c ((blockBytes record gen prefer).take 28)).toNat := by
  have hlen := length_blockHead record gen prefer h
  rw [blockBytes_eq]
  generalize blockHead record gen prefer = b at hlen
  rw [← hlen, List.take_left, leAt_right _ _ _ 4 (Nat.le_refl _), Nat.sub_self, leAt_leBytes]
  exact Nat.mod_eq_of_lt (crc32c b).isLt

theorem bootBlock_written (s : State) (k gen prefer : Nat) (record : List Byte) (h : record.length = 16)
    (hbytes : s.flashBytes (blockAt k) 32 = blockBytes record gen prefer) :
    bootBlock s k = some (blockBytes record gen prefer) := by
  unfold bootBlock
  rw [hbytes]
  exact if_pos ⟨blockBytes_magic record gen prefer h, blockBytes_crc record gen prefer h⟩

theorem nextGeneration_lt (s : State) : nextGeneration s < 2 ^ 32 := by
  unfold nextGeneration
  split <;> exact Nat.mod_lt _ (by decide)

/-! ### The update (R503) -/

theorem slotAt_ge (b : BootSource) : 0x10000 ≤ slotAt b := by cases b <;> decide

/-- The flash after an update whose read-back is good. -/
def updatedFlash (a n : Nat) (s : State) : List Host.Cell :=
  cellsSet 0xFF (cellsSet 0xFF s.boot.flash (slotAt (updateSlot s)) (s.dramRead a n)) (blockAt (olderCopy s))
    (blockBytes (updateRecord s) (nextGeneration s) (if updateSlot s = .slotB then 1 else 0))

theorem fwUpdateDone_good (c : Ctx) (a n : Nat) (s u : State) (hu : u = firmwareRead a n s)
    (h : s.boot.update = some (c, a, n)) (hup : u.coreUp hostCore = true) :
    ∃ t, exec (.fwUpdateDone true) s = .next t ∧ t.boot.update = none ∧ t.boot.flash = updatedFlash a n u := by
  have hexec : exec (.fwUpdateDone true) s = .next (complete c Status.ok
      (leBytes 1 (imageCode (updateSlot u)).toNat ++ zeros 3 ++ leBytes 4 (nextGeneration u))
      { u with boot := { u.boot with update := none, flash := updatedFlash a n u }, free := u.free + 2 }) := by
    show execFwUpdateDone true s = _
    unfold execFwUpdateDone
    rw [h]
    dsimp only
    rw [← hu, if_neg (by rw [hup]; decide)]
    rfl
  generalize updatedFlash a n u = flash at hexec ⊢
  have hframe := complete_frame c Status.ok
    (leBytes 1 (imageCode (updateSlot u)).toNat ++ zeros 3 ++ leBytes 4 (nextGeneration u))
    { u with boot := { u.boot with update := none, flash := flash }, free := u.free + 2 }
  refine ⟨_, hexec, (congrArg (fun v : State => v.boot.update) hframe :), (congrArg (fun v : State => v.boot.flash) hframe :)⟩

/-- The boot block lies below the slots: the new copy leaves the image as it was written. -/
theorem updatedFlash_slot (a n : Nat) (s : State) (hwf : cellsWf 0xFF s.boot.flash = true) :
    cellsGet 0xFF (updatedFlash a n s) (slotAt (updateSlot s)) n = s.dramRead a n := by
  have hslot := slotAt_ge (updateSlot s)
  have hcopy := olderCopy_le s
  have hbytes : cellsGet 0xFF (updatedFlash a n s) (slotAt (updateSlot s)) (s.dramRead a n).length = s.dramRead a n := by
    refine cellsGet_eq 0xFF _ _ _ fun x hx hlt => ?_
    unfold updatedFlash
    rw [cellGet_cellsSet _ _ _ _ _ (cellsSet_wf _ _ _ _ hwf), if_neg, cellGet_cellsSet _ _ _ _ _ hwf, if_pos ⟨hx, hlt⟩]
    rw [length_blockBytes _ _ _ (length_updateRecord s)]
    unfold blockAt
    omega
  rwa [length_dramRead] at hbytes

theorem updatedFlash_block (a n : Nat) (s t : State) (hwf : cellsWf 0xFF s.boot.flash = true)
    (ht : t.boot.flash = updatedFlash a n s) : (bootBlock t (olderCopy s)).map generation = some (nextGeneration s) := by
  have hrecord := length_updateRecord s
  have hbytes : t.flashBytes (blockAt (olderCopy s)) 32 =
      blockBytes (updateRecord s) (nextGeneration s) (if updateSlot s = .slotB then 1 else 0) := by
    unfold State.flashBytes
    rw [ht, ← length_blockBytes (updateRecord s) (nextGeneration s) (if updateSlot s = .slotB then 1 else 0) hrecord]
    exact cellsGet_cellsSet _ _ _ _ (cellsSet_wf _ _ _ _ hwf)
  rw [bootBlock_written t _ _ _ _ hrecord hbytes, Option.map_some, blockBytes_generation _ _ _ hrecord (nextGeneration_lt s)]

theorem fwUpdateDone_updates (c : Ctx) (a n : Nat) (s u : State) (hu : u = firmwareRead a n s)
    (h : s.boot.update = some (c, a, n)) (hwf : cellsWf 0xFF s.boot.flash = true) (hup : u.coreUp hostCore = true) :
    ∃ t, exec (.fwUpdateDone true) s = .next t ∧ t.boot.update = none ∧
      t.flashBytes (slotAt (updateSlot u)) n = u.dramRead a n ∧
      (bootBlock t (olderCopy u)).map generation = some (nextGeneration u) := by
  have hboot : u.boot = s.boot := by
    rw [hu]
    exact (congrArg State.boot (firmwareRead_works a n s).rest :)
  have hwfu : cellsWf 0xFF u.boot.flash = true := by rw [hboot, hwf]
  obtain ⟨t, hexec, hnone, hflash⟩ := fwUpdateDone_good c a n s u hu h hup
  refine ⟨t, hexec, hnone, ?_, updatedFlash_block a n u t hwfu hflash⟩
  unfold State.flashBytes
  rw [hflash, updatedFlash_slot a n u hwfu]

/-- Settles O53: each step of the start by the lemma about it; a DRAM read by a core leaves the boot registers as they were
(`DramWorks`), and the new boot block copy lies below the slots. -/
theorem startupRunsInOrder : Obligations.StartupRunsInOrder := by
  unfold Obligations.StartupRunsInOrder
  refine ⟨systemPllLock_starts, fun s h => ?_, dramTrainingDone_trains, dramTrainingDone_fails, fun failed step s h => ?_,
    dramFillDone_boots, fun s h => ?_,
    fun b s hst himage hkeys hhead hok => bootImageLoaded_good b s _ rfl hst himage hkeys hhead hok,
    bootImageLoaded_rejectsSlotA, bootImageLoaded_noKeys, fun b s h => ⟨?_, ?_⟩,
    fun s hst himage hkeys hhead => bootPushPoll_polls s _ rfl hst himage hkeys hhead, bootReady_ready, fun s h => ?_,
    startupBootStatus_reply, personalitySelect_accepts, personalitySelect_notPermitted, personalitySelectDone_runs,
    personalitySelectDone_none,
    fun rq s hs hsu hfits hidle hok => fwUpdate_accepts rq s _ hs rfl hsu hfits hidle hok,
    fun c a n s h hwf hup => fwUpdateDone_updates c a n s _ rfl h hwf hup, fun ok s h => ?_⟩
  · exact if_pos (by simp; tauto)
  · exact if_pos (by simp; tauto)
  · exact if_pos (by simp; tauto)
  · exact congrArg Host.Outcome.next (bootTry_idle b _ s h)
  · exact congrArg Host.Outcome.next (bootTry_idle .push _ s h)
  · exact if_pos (by simp; exact h)
  · show execFwUpdateDone ok s = _
    unfold execFwUpdateDone
    rw [h]

end Sys2Proof.Machine
end
